-- ==== Sys2Proof/Word.lean ====
section
/-! DEFINITION. The plain word types of the Fjarnik W2 model: bytes, words, sparse maps and sparse memories. -/

namespace Sys2Proof

/-- One byte of memory, or of a message. -/
abbrev Byte := BitVec 8

/-- A scalar or address register word (R158). -/
abbrev Word := BitVec 32

/-- A 64-bit word: an instruction (R169), a BAR register (R285), a descriptor word (R119). -/
abbrev Word64 := BitVec 64

/-- Sparse data by key: strictly rising keys, no entry equal to what an unlisted key reads as. -/
abbrev Map (α : Type) := List (Nat × α)

/-- A sparse byte memory in the canonical form of a `Map` (an unlisted byte reads as zero). -/
abbrev Mem := List (Nat × BitVec 8)

/-- A physical core index 0-1,199 (R12); also the router at its coordinates (R129). -/
abbrev CoreId := Fin 1200
/-- A physical engine of a core, 0-7 the active positions and 8 the gusset (R97). -/
abbrev EngId := Fin 9
/-- An engine position 0-7 of a core (R172). -/
abbrev Pos := Fin 8
/-- An instance number, 0-11 (R18). -/
abbrev InstId := Fin 12
/-- A panel number, 0-11 (R12). -/
abbrev PanelId := Fin 12
/-- A tenant slot, 0-511 (R348). -/
abbrev SlotId := Fin 512
/-- A PCIe port, 0-7 (R371). -/
abbrev PortId := Fin 8
/-- A service Ethernet port, 0-3 (R379). -/
abbrev EthId := Fin 4
/-- An HBM4 stack, 0-15 (R15). -/
abbrev StackId := Fin 16
/-- A seam link, 0-15 (R476). -/
abbrev SeamId := Fin 16
/-- A power region, 0-299 (R12). -/
abbrev RegionId := Fin 300
/-- A multipurpose sideband pin SB0-SB7 (R388). -/
abbrev PinId := Fin 8
/-- A router-to-router link by its index in `link_map`, 0-2,329 (R157). -/
abbrev LinkId := Fin 2330

end Sys2Proof
end

