-- ==== Sys2Proof/Syntax.lean ====
section
/-! DEFINITION. The commands the device takes: the 83 Idmor instructions as one core issues them, and every other
operation and event of the spec's table, with their operands. -/

namespace Sys2Proof

/-- The guard of an Idmor instruction (R161, R169). -/
structure Guard where
  /-- guard negate, bit [55] -/
  gn : BitVec 1
  /-- guard predicate, bits [54:52] -/
  gp : BitVec 3
deriving DecidableEq, Repr

/-- The control format, opcodes 0x00-0x1F (R170). -/
structure CtlF where
  rs : BitVec 6
  res : BitVec 14
  imm32 : BitVec 32
deriving DecidableEq, Repr

/-- The scalar format, opcodes 0x20-0x3F (R171). -/
structure ScalF where
  rd : BitVec 6
  rs1 : BitVec 6
  rs2 : BitVec 6
  ui : BitVec 1
  res : BitVec 1
  imm32 : BitVec 32
deriving DecidableEq, Repr

/-- The engine format, opcodes 0x40-0x5F (R172). -/
structure EngF where
  emask : BitVec 8
  tile : BitVec 9
  ra : BitVec 4
  rb : BitVec 4
  queue : BitVec 3
  imm24 : BitVec 24
deriving DecidableEq, Repr

/-- The finisher format, opcodes 0x60-0x9F (R173). -/
structure FinF where
  fd : BitVec 6
  fs1 : BitVec 6
  fs2 : BitVec 6
  fs3 : BitVec 6
  lf : BitVec 2
  mcount : BitVec 9
  sub : BitVec 4
  ra : BitVec 4
  q : BitVec 3
  qsrc : BitVec 1
  fb : BitVec 1
  msrc : BitVec 1
  res : BitVec 3
deriving DecidableEq, Repr

/-- The movement format, opcodes 0xA0-0xBF (R174). -/
structure MovF where
  qa : BitVec 3
  qb : BitVec 3
  ra : BitVec 4
  rb : BitVec 4
  rx : BitVec 6
  group : BitVec 6
  dir : BitVec 2
  half : BitVec 1
  tol : BitVec 1
  ry : BitVec 6
  imm16 : BitVec 16
deriving DecidableEq, Repr

/-- The sync format, opcodes 0xC0-0xCF (R175). -/
structure SyncF where
  rs : BitVec 6
  emask : BitVec 8
  res : BitVec 6
  imm32 : BitVec 32
deriving DecidableEq, Repr

/-- The sampling format, opcodes 0xD0-0xDF (R176). -/
structure SampF where
  fs : BitVec 6
  rd : BitVec 6
  mcount : BitVec 9
  q : BitVec 3
  group : BitVec 6
  k : BitVec 9
  imm13 : BitVec 13
deriving DecidableEq, Repr

/-- What an ECC check of one 64-bit word finds (R110, R111, R382). -/
inductive Ecc where
  | clean | single | uncorrectable
deriving DecidableEq, Repr

/-- One burst of a flit as a link receiver sees it: sequence number and pair tag, 0b01 A, 0b10 B; a link that
crosses no stitch sends whole flits, tag 0 (R146). -/
structure Burst where
  seq : BitVec 8
  pair : BitVec 2
deriving DecidableEq, Repr

/-- Which wire of a link number: the router link or, with `nbr`, the neighbour link beside it (R146, R155), from its first
router to its second or, with `reverse`, back. -/
structure LinkWay where
  reverse : Bool
  nbr : Bool
deriving DecidableEq, Repr

/-- One darn entry that a computed set writes: router, entry number, the R150 word. -/
structure DarnWrite where
  router : CoreId
  entry : Fin 16
  word : BitVec 32
deriving DecidableEq, Repr

/-- A draft-token message (R314). -/
structure DraftMsg where
  /-- instance and core that sent the packet (R19, R131) -/
  src : InstId
  srcCore : CoreId
  target : BitVec 32
  draft : BitVec 32
  base : BitVec 32
  tokens : List Nat
deriving DecidableEq, Repr

/-- The sampling parameters of a request (R305), entries beyond the counts left out. FP32 fields are their bits. -/
structure ParamBlock where
  temperature : BitVec 32
  topP : BitVec 32
  minP : BitVec 32
  repPenalty : BitVec 32
  freqPenalty : BitVec 32
  topK : Nat
  penaltyWindow : Nat
  seed : BitVec 64
  pflags : BitVec 8
  reservedZero : Bool
  stopTokens : List Nat
  stopSeqs : List (List Nat)
  biases : List (Nat × BitVec 32)
  mask : List Byte
deriving DecidableEq, Repr

/-- Where a request came from: the slot's ring, or an FRP association (R348). -/
inductive Transport where
  | ring
  | frp (assoc : Nat)
deriving DecidableEq, Repr

/-- A submission entry (R288), its opcode being the command. `reserved` is bytes 2, 3 and 63. -/
structure SubEntry where
  flags : BitVec 8
  handle : BitVec 32
  key : Nat
  input : BitVec 64
  inputCount : Nat
  maxNew : Nat
  output : BitVec 64
  outputCap : Nat
  maxContext : Nat
  params : BitVec 64
  pinnedLen : Nat
  streamEvery : Nat
  spec : BitVec 8
  reserved : BitVec 24
deriving DecidableEq, Repr

/-- A request as read: the entry, its input tokens and its parameter block, which the device fetched with it. -/
structure ReqArgs where
  from_ : Transport
  e : SubEntry
  tokens : List Nat
  params : Option ParamBlock
deriving DecidableEq, Repr

/-- An FRP datagram (R293): header fields, body and tag as received. The body of SUBMIT or DATA is given decoded. -/
structure FrpDatagram where
  /-- service Ethernet port that received it -/
  port : EthId
  version : Nat
  slot : Nat
  assoc : Nat
  seq : Nat
  ack : Nat
  ackMap : BitVec 32
  header : List Byte
  body : List Byte
  tag : List Byte
  /-- SUBMIT: opcode of the entry, 1-6 -/
  opcode : Nat
  entry : Option SubEntry
  tokens : List Nat
  /-- DATA: the request key, part and byte offset -/
  key : Nat
  part : Nat
  offset : Nat
  /-- DATA: the bytes of the part from the offset on -/
  data : List Byte
deriving DecidableEq, Repr

/-- What the muslin run found on one core (R456, R457): failed engines, whether a unit other than an engine failed,
tiles that failed a check read, granules retired by the scratchpad test, spare rows used. -/
structure MuslinResult where
  core : CoreId
  engines : BitVec 9
  unit : Bool
  tiles : List (Nat × Nat)
  granules : List Nat
  sparesUsed : Nat
deriving DecidableEq, Repr

/-- How a load's fetch from host memory ends (R333, R386): its bytes are in, its completion timeout has run out, or its
completion brings an error. -/
inductive FetchEnd where
  | done
  | timeout
  | error
deriving DecidableEq, Repr

/-- What a load's fetch brings: its bytes, and how it ends (R333). -/
structure Fetched where
  bytes : List Byte
  fin : FetchEnd
deriving DecidableEq, Repr

/-- A vector of a function's MSI-X table, with the message address and data that its entry holds (R362, R375). -/
structure MsixVector where
  vector : Fin 16
  addr : Word64
  data : BitVec 32
deriving DecidableEq, Repr

/-- An FRP datagram sent, by its association and sequence number (R295). -/
structure FrpSent where
  assoc : Nat
  seq : Nat
deriving DecidableEq, Repr

/-- The role a Zwiys message carries (R395). -/
inductive Role where
  | M | H | T | C
deriving DecidableEq, Repr

/-- A Zwiys session (R395). -/
inductive SessId where
  | dtls (n : Fin 16)
  | mctp (n : PortId)
  | pf (n : PortId)
  | vf (s : SlotId)
  | casc
deriving DecidableEq, Repr

/-- A Zwiys message (R398). -/
structure ZMsg where
  version : Nat
  op : Nat
  flags : BitVec 8
  status : Nat
  requestId : BitVec 32
  index : Nat
  sub : Nat
  type : Nat
  offset : Nat
  length : Nat
  reserved : Nat
  total : Nat
  payload : List Byte
deriving DecidableEq, Repr

/-- A PTP message as the ordinary clock uses it: grandmaster rank (lower is better), its time, the measured offset
(R381). -/
structure PtpMsg where
  rank : Nat
  time : Nat
  offset : Int
  domain : Nat
deriving DecidableEq, Repr

/-- What debug access asks of a sequencer control port (R16, R509). -/
inductive DebugOp where
  | start | stop | fence | pace | read
deriving DecidableEq, Repr

/-- What bring-up finds (R449-R457): banks that verify, ports, links, stacks, routers, oscillators, cores. -/
structure BringUp where
  bank0Ok : Bool
  bank1Ok : Bool
  pcie : List (PortId × Nat × Nat)
  eth : List EthId
  seams : List (SeamId × Nat × Fin 16)
  hbmFailed : List StackId
  hbmLaneRepairs : List (StackId × Nat)
  failedRouters : List CoreId
  bypassed : List RegionId
  liningFailed : List (CoreId × EngId)
  muslin : List MuslinResult
  bootMs : Nat
deriving DecidableEq, Repr

/-- A seam transfer as the receiver sees it (R477): the bursts' trailers and whether their CRCs hold, and the
header's fields. -/
structure SeamTransfer where
  headerPair : BitVec 2
  headerSeq : BitVec 12
  headerCrcOk : Bool
  payloadBurst : Option (BitVec 2 × BitVec 12 × Bool)
  ack : BitVec 12
  replay : Bool
  type : Nat
  src : Nat
  dst : Nat
  hops : Nat
  tag : BitVec 64
  taint : Bool
  payload : List Byte
deriving DecidableEq, Repr

/-- A member's tack record (R490) as it reaches the master, with the master's receive time and the path delay. -/
structure TackRec where
  member : Fin 16
  cfgDigest : List Byte
  fwVersion : Nat
  time : Nat
  step : Nat
  rxTime : Nat
  pathDelay : Nat
deriving DecidableEq, Repr

/-- A release (R490, R491): cascade tack number, master, and what it asks of this member. -/
structure ReleaseMsg where
  tack : Nat
  master : Fin 16
  /-- nanoseconds to step TIME64 by, when the member is resynced -/
  resync : Option Int
  /-- the lead's step number, when a member of the group rejoins -/
  rejoin : Option Nat
  proceed : Bool
deriving DecidableEq, Repr

/-- Aperture data as it arrives at a host-seam die (R483, R484). -/
structure ApertureData where
  group : BitVec 6
  tag : BitVec 16
  addr : BitVec 24
  taint : Bool
  data : List Byte
deriving DecidableEq, Repr

/-- What a resend request names (R492, R493). -/
inductive ResendWhat where
  | shard (n : Nat)
  | firmware (offset : Nat)
deriving DecidableEq, Repr

/-- What the master reads of one member before an activation (R504). -/
structure UploadView where
  member : Fin 16
  reachable : Bool
  fwState : Nat
  activateAt : Nat
  imageDigest : List Byte
deriving DecidableEq, Repr

/-- What a remote-request timer watched: a VC2 request by the model's number of it, or the far-core transfer of a DMA
channel (R154). -/
inductive RqWhat where
  | request (rid : Nat)
  | channel (ch : Fin 8)
deriving DecidableEq, Repr

/-- One command to the device: one constructor per row of the spec's table of operations and events. -/
inductive Instr where
  /-- NOP (R190). -/
  | nop (c : CoreId) (g : Guard) (f : CtlF)
  /-- HALT (R191). -/
  | halt (c : CoreId) (g : Guard) (f : CtlF)
  /-- BR (R190). -/
  | br (c : CoreId) (g : Guard) (f : CtlF)
  /-- BRR (R190). -/
  | brr (c : CoreId) (g : Guard) (f : CtlF)
  /-- CALL (R190). -/
  | callI (c : CoreId) (g : Guard) (f : CtlF)
  /-- RET (R190). -/
  | ret (c : CoreId) (g : Guard) (f : CtlF)
  /-- LOOP (R192). -/
  | loopI (c : CoreId) (g : Guard) (f : CtlF)
  /-- BRK (R190). -/
  | brk (c : CoreId) (g : Guard) (f : CtlF)
  /-- ADD (R193). -/
  | add (c : CoreId) (g : Guard) (f : ScalF)
  /-- SUB (R193). -/
  | sub (c : CoreId) (g : Guard) (f : ScalF)
  /-- MUL (R193). -/
  | mul (c : CoreId) (g : Guard) (f : ScalF)
  /-- AND (R193). -/
  | andI (c : CoreId) (g : Guard) (f : ScalF)
  /-- OR (R193). -/
  | orI (c : CoreId) (g : Guard) (f : ScalF)
  /-- XOR (R193). -/
  | xorI (c : CoreId) (g : Guard) (f : ScalF)
  /-- SHL (R193). -/
  | shl (c : CoreId) (g : Guard) (f : ScalF)
  /-- SHR (R193). -/
  | shr (c : CoreId) (g : Guard) (f : ScalF)
  /-- SRA (R193). -/
  | sra (c : CoreId) (g : Guard) (f : ScalF)
  /-- MIN (R193). -/
  | min (c : CoreId) (g : Guard) (f : ScalF)
  /-- MAX (R193). -/
  | max (c : CoreId) (g : Guard) (f : ScalF)
  /-- MINU (R193). -/
  | minu (c : CoreId) (g : Guard) (f : ScalF)
  /-- MAXU (R193). -/
  | maxu (c : CoreId) (g : Guard) (f : ScalF)
  /-- CMPEQ (R193). -/
  | cmpeq (c : CoreId) (g : Guard) (f : ScalF)
  /-- CMPLT (R193). -/
  | cmplt (c : CoreId) (g : Guard) (f : ScalF)
  /-- CMPLTU (R193). -/
  | cmpltu (c : CoreId) (g : Guard) (f : ScalF)
  /-- MOV (R193). -/
  | mov (c : CoreId) (g : Guard) (f : ScalF)
  /-- SLD (R194). -/
  | sld (c : CoreId) (g : Guard) (f : ScalF)
  /-- SST (R194). -/
  | sst (c : CoreId) (g : Guard) (f : ScalF)
  /-- MMV (R195). -/
  | mmv (c : CoreId) (g : Guard) (f : EngF)
  /-- BFLUSH (R197). -/
  | bflush (c : CoreId) (g : Guard) (f : EngF)
  /-- BZERO (R198). -/
  | bzero (c : CoreId) (g : Guard) (f : EngF)
  /-- CSUM (R199). -/
  | csum (c : CoreId) (g : Guard) (f : EngF)
  /-- ECTLW (R200). -/
  | ectlw (c : CoreId) (g : Guard) (f : EngF)
  /-- FLD (R201). -/
  | fld (c : CoreId) (g : Guard) (f : FinF)
  /-- FST (R201). -/
  | fst (c : CoreId) (g : Guard) (f : FinF)
  /-- FCVT (R203). -/
  | fcvt (c : CoreId) (g : Guard) (f : FinF)
  /-- FADD (R201). -/
  | fadd (c : CoreId) (g : Guard) (f : FinF)
  /-- FSUB (R201). -/
  | fsub (c : CoreId) (g : Guard) (f : FinF)
  /-- FMUL (R201). -/
  | fmul (c : CoreId) (g : Guard) (f : FinF)
  /-- FFMA (R201). -/
  | ffma (c : CoreId) (g : Guard) (f : FinF)
  /-- FMIN (R202). -/
  | fmin (c : CoreId) (g : Guard) (f : FinF)
  /-- FMAX (R202). -/
  | fmax (c : CoreId) (g : Guard) (f : FinF)
  /-- FCMP (R202). -/
  | fcmp (c : CoreId) (g : Guard) (f : FinF)
  /-- FNEG (R201). -/
  | fneg (c : CoreId) (g : Guard) (f : FinF)
  /-- FABS (R201). -/
  | fabs (c : CoreId) (g : Guard) (f : FinF)
  /-- FCVTB (R204). -/
  | fcvtb (c : CoreId) (g : Guard) (f : FinF)
  /-- FUNP (R204). -/
  | funp (c : CoreId) (g : Guard) (f : FinF)
  /-- FRCP (R201). -/
  | frcp (c : CoreId) (g : Guard) (f : FinF)
  /-- FSQRT (R201). -/
  | fsqrt (c : CoreId) (g : Guard) (f : FinF)
  /-- FRSQ (R201). -/
  | frsq (c : CoreId) (g : Guard) (f : FinF)
  /-- FEXP (R201). -/
  | fexp (c : CoreId) (g : Guard) (f : FinF)
  /-- FEXP2 (R201). -/
  | fexp2 (c : CoreId) (g : Guard) (f : FinF)
  /-- FLOG (R201). -/
  | flog (c : CoreId) (g : Guard) (f : FinF)
  /-- FLOG2 (R201). -/
  | flog2 (c : CoreId) (g : Guard) (f : FinF)
  /-- FACT (R201). -/
  | fact (c : CoreId) (g : Guard) (f : FinF)
  /-- FSUM (R205). -/
  | fsum (c : CoreId) (g : Guard) (f : FinF)
  /-- FDOT (R205). -/
  | fdot (c : CoreId) (g : Guard) (f : FinF)
  /-- FRMS (R205). -/
  | frms (c : CoreId) (g : Guard) (f : FinF)
  /-- FLNORM (R205). -/
  | flnorm (c : CoreId) (g : Guard) (f : FinF)
  /-- FQUANT (R206). -/
  | fquant (c : CoreId) (g : Guard) (f : FinF)
  /-- FALT (R207). -/
  | falt (c : CoreId) (g : Guard) (f : FinF)
  /-- FQK (R209). -/
  | fqk (c : CoreId) (g : Guard) (f : FinF)
  /-- FSMX (R210). -/
  | fsmx (c : CoreId) (g : Guard) (f : FinF)
  /-- FPV (R211). -/
  | fpv (c : CoreId) (g : Guard) (f : FinF)
  /-- FEMB (R212). -/
  | femb (c : CoreId) (g : Guard) (f : FinF)
  /-- QPUSH (R213). -/
  | qpush (c : CoreId) (g : Guard) (f : MovF)
  /-- PWALK (R213). -/
  | pwalk (c : CoreId) (g : Guard) (f : MovF)
  /-- QWAIT (R165). -/
  | qwait (c : CoreId) (g : Guard) (f : MovF)
  /-- QEXP (R215). -/
  | qexp (c : CoreId) (g : Guard) (f : MovF)
  /-- NGET (R216). -/
  | nget (c : CoreId) (g : Guard) (f : MovF)
  /-- NPUT (R216). -/
  | nput (c : CoreId) (g : Guard) (f : MovF)
  /-- RGET (R217). -/
  | rget (c : CoreId) (g : Guard) (f : MovF)
  /-- RPUT (R217). -/
  | rput (c : CoreId) (g : Guard) (f : MovF)
  /-- MCAST (R218). -/
  | mcast (c : CoreId) (g : Guard) (f : MovF)
  /-- RSEND (R219). -/
  | rsend (c : CoreId) (g : Guard) (f : MovF)
  /-- TACK (R220). -/
  | tack (c : CoreId) (g : Guard) (f : SyncF)
  /-- FENCE (R221). -/
  | fenceI (c : CoreId) (g : Guard) (f : SyncF)
  /-- WAIT (R222). -/
  | waitI (c : CoreId) (g : Guard) (f : SyncF)
  /-- NOTE (R223). -/
  | noteI (c : CoreId) (g : Guard) (f : SyncF)
  /-- GOWN (R224). -/
  | gown (c : CoreId) (g : Guard) (f : SyncF)
  /-- CTOP (R226). -/
  | ctop (c : CoreId) (g : Guard) (f : SampF)
  /-- CSEND (R227). -/
  | csend (c : CoreId) (g : Guard) (f : SampF)
  /-- SPICK (R229). -/
  | spick (c : CoreId) (g : Guard) (f : SampF)
  /-- SACC (R230). -/
  | sacc (c : CoreId) (g : Guard) (f : SampF)
  /-- TRAP_DRAIN_END (R179). -/
  | trapDrainEnd (i : InstId)
  /-- TACK_OVERDUE (R178). -/
  | tackOverdue (i : InstId)
  /-- ENGINE_PASS (R49). -/
  | enginePass (c : CoreId) (p : Pos)
  /-- BOLT_SET_POST (R197). -/
  | boltSetPost (c : CoreId) (p : Pos)
  /-- BOLT_ZERO (R198). -/
  | boltZero (c : CoreId) (p : Pos)
  /-- CHECK_READ (R59). -/
  | checkRead (c : CoreId) (p : Pos)
  /-- SCRUB_CHECK_READ (R59). -/
  | scrubCheckRead (c : CoreId) (e : EngId)
  /-- GOLDEN_FETCH_DONE (R62). -/
  | goldenFetchDone (c : CoreId) (e : EngId) (hostImage : List Byte)
  /-- GOLDEN_FETCH_RETRY (R386). -/
  | goldenFetchRetry (c : CoreId) (e : EngId)
  /-- GUSSET_COPY_VERIFIED (R62). -/
  | gussetCopyVerified (c : CoreId) (ok : Bool)
  /-- REPROGRAM_VERIFIED (R66). -/
  | reprogramVerified (c : CoreId) (e : EngId) (ok : Bool)
  /-- EVENT_QUEUE_DRAIN (R51). -/
  | eventQueueDrain (c : CoreId) (e : EngId)
  /-- FC_WEIGHT_FETCH_DONE (R79). -/
  | fcWeightFetchDone (c : CoreId) (slot : Fin 2) (hostImage : List Byte)
  /-- FC_RECOMPUTE (R80). -/
  | fcRecompute (c : CoreId) (slot : Fin 2) (tile : Fin 512)
  /-- FC_DEADLINE (R81). -/
  | fcDeadline (c : CoreId) (slot : Fin 2)
  /-- SCRATCHPAD_SCRUB (R112). -/
  | scratchpadScrub (c : CoreId) (word : Fin 786432) (found : Ecc)
  /-- GRANULE_ZERO (R125). -/
  | granuleZero (c : CoreId) (g : Fin 1536)
  /-- FLIT_RECEIVE (R147). -/
  | flitReceive (l : LinkId) (d : LinkWay) (bursts : List Burst) (crcOk : Bool)
  /-- REPLAY_REQUEST (R147). -/
  | replayRequest (l : LinkId) (d : LinkWay) (seq : BitVec 8)
  /-- ROUTER_FAIL (R151). -/
  | routerFail (r : CoreId)
  /-- PACKET_ROUTE (R130). -/
  | packetRoute (r : CoreId)
  /-- MULTICAST_DELIVERY (R143). -/
  | multicastDelivery (r : CoreId)
  /-- REDUCTION_COMBINE (R144). -/
  | reductionCombine (r : CoreId) (group : Fin 64)
  /-- REMOTE_REQUEST (R109). -/
  | remoteRequest (c : CoreId)
  /-- REMOTE_RESPONSE (R155). -/
  | remoteResponse (c : CoreId)
  /-- RQ_TIMEOUT (R155). -/
  | rqTimeout (c : CoreId) (what : RqWhat)
  /-- NEIGHBOR_REFUSAL (R216). -/
  | neighborRefusal (c : CoreId)
  /-- TACK_COMBINE (R243). -/
  | tackCombine (r : CoreId)
  /-- IDLE_TACK (R25). -/
  | idleTack (i : InstId)
  /-- TACK_CAPTURE (R24). -/
  | tackCapture (i : InstId)
  /-- TACK_RELEASE (R220). -/
  | tackRelease (c : CoreId)
  /-- DARN_SET_READY (R152). -/
  | darnSetReady (entries : List DarnWrite)
  /-- DMA_TRANSFER_DONE (R120). -/
  | dmaTransferDone (c : CoreId) (ch : Fin 8) (hostData : List Byte) (hostError : Bool)
  /-- PAGE_WALK_DONE (R267). -/
  | pageWalkDone (c : CoreId) (ch : Fin 8)
  /-- CANDIDATE_MERGE (R228). -/
  | candidateMerge (c : CoreId)
  /-- DRAFT_ACCEPT_MESSAGE (R314). -/
  | draftAcceptMessage (i : InstId) (m : DraftMsg)
  /-- DRAFT_MESSAGE (R314). -/
  | draftMessage (i : InstId) (m : DraftMsg)
  /-- DROP_MESSAGE (R314). -/
  | dropMessage (i : InstId) (m : DraftMsg)
  /-- SWAP_OUT_COPY_DONE (R274). -/
  | swapOutCopyDone (sequence : Fin 65536) (entry : Nat) (ok : Bool)
  /-- SWAP_IN_COPY_DONE (R276). -/
  | swapInCopyDone (sequence : Fin 65536) (entry : Nat) (page : List Byte) (ok : Bool)
  /-- PAGE_ZERO_DONE (R257). -/
  | pageZeroDone (i : InstId) (page : Nat)
  /-- GENERATE (R288). -/
  | generate (slot : SlotId) (r : ReqArgs)
  /-- APPEND (R288). -/
  | append (slot : SlotId) (r : ReqArgs)
  /-- TRUNCATE (R279). -/
  | truncate (slot : SlotId) (r : ReqArgs)
  /-- PARK (R288). -/
  | park (slot : SlotId) (r : ReqArgs)
  /-- RELEASE (R288). -/
  | release (slot : SlotId) (r : ReqArgs)
  /-- REQUEST_CANCEL (R298). -/
  | requestCancel (slot : SlotId) (r : ReqArgs)
  /-- SQ_TAIL (R286). -/
  | sqTail (slot : SlotId) (value : Word64)
  /-- CQ_HEAD (R286). -/
  | cqHead (slot : SlotId) (value : Word64)
  /-- RING_CFG_WRITE (R286). -/
  | ringCfgWrite (slot : SlotId) (completion base : Bool) (value : Word64)
  /-- INTERIM_COMPLETION (R292). -/
  | interimCompletion (slot : SlotId) (key : Nat)
  /-- FRP_SUBMIT (R293). -/
  | frpSubmit (d : FrpDatagram)
  /-- FRP_DATA (R293). -/
  | frpData (d : FrpDatagram)
  /-- FRP_ACK (R295). -/
  | frpAck (d : FrpDatagram)
  /-- FRP_KEEPALIVE (R293). -/
  | frpKeepalive (d : FrpDatagram)
  /-- FRP_ACK_DUE (R295). -/
  | frpAckDue (slot : SlotId) (assoc : Nat)
  /-- FRP_RETRANSMIT (R295). -/
  | frpRetransmit (slot : SlotId) (d : FrpSent)
  /-- FRP_ASSOC_IDLE (R295). -/
  | frpAssocIdle (slot : SlotId) (assoc : Nat)
  /-- FRP_REQUEST_INCOMPLETE (R294). -/
  | frpRequestIncomplete (slot : SlotId) (key : Nat)
  /-- DEDUP_WINDOW_EXPIRY (R296). -/
  | dedupWindowExpiry (slot : SlotId) (key : Nat)
  /-- IRQ_COALESCE (R363). -/
  | irqCoalesce (slot : SlotId)
  /-- FORM (R322). -/
  | form (i : InstId)
  /-- DISSOLVE (R322). -/
  | dissolve (i : InstId)
  /-- LOAD (R333). -/
  | load (i : InstId)
  /-- UNLOAD (R323). -/
  | unload (i : InstId)
  /-- INSTANCE_STOP (R325). -/
  | instanceStop (i : InstId)
  /-- RESUME (R325). -/
  | resume (i : InstId)
  /-- CLEAR_FAULT (R346). -/
  | clearFault (i : InstId) (muslin : List MuslinResult)
  /-- ABORT_LOAD (R335). -/
  | abortLoad (i : InstId)
  /-- INSTANCE_ZEROING_DONE (R322). -/
  | instanceZeroingDone (i : InstId)
  /-- SHARD_VERIFIED (R334). -/
  | shardVerified (i : InstId) (shard : Fetched)
  /-- TILE_PROGRAMMED (R240). -/
  | tileProgrammed (i : InstId) (tile : Nat) (ok : Bool)
  /-- RECHECK_ROUND (R338). -/
  | recheckRound (i : InstId)
  /-- RECHECK_SHARD_DONE (R339). -/
  | recheckShardDone (i : InstId) (shard : Nat) (refetched : Option (List Byte))
  /-- STORE (R342). -/
  | store (i : InstId)
  /-- DELETE (R342). -/
  | deleteCmd (i : InstId)
  /-- ENABLE (R352). -/
  | enable (slot : SlotId)
  /-- DISABLE (R355). -/
  | disable (slot : SlotId)
  /-- SLOT_RESET (R351). -/
  | slotReset (slot : SlotId)
  /-- TEARDOWN_SETTLE (R357). -/
  | teardownSettle (slot : SlotId)
  /-- ABORT_COMPLETION_DISCARD (R358). -/
  | abortCompletionDiscard (slot : SlotId)
  /-- FRP_KEY_WRITE (R353). -/
  | frpKeyWrite (slot : SlotId) (key : List Byte)
  /-- ALT_BINDING_WRITE (R369). -/
  | altBindingWrite (slot : SlotId) (value : BitVec 16)
  /-- FUNCTION_LEVEL_RESET (R374). -/
  | functionLevelReset (slot : SlotId)
  /-- PERST (R373). -/
  | perst (n : PortId)
  /-- PERST_RELEASE (R29). -/
  | perstRelease (n : PortId) (refclkPpm : Option Int) (rate : Nat) (width : Nat)
  /-- VF_ENABLE_CLEAR (R372). -/
  | vfEnableClear (n : PortId)
  /-- BUS_MASTER_ENABLE_SET (R524). -/
  | busMasterEnableSet (n : PortId) (fn : Fin 65)
  /-- MSIX_UNMASK (R362). -/
  | msixUnmask (n : PortId) (fn : Fin 65) (vector : MsixVector)
  /-- PCIE_LINK_DOWN (R386). -/
  | pcieLinkDown (n : PortId)
  /-- REFCLK_LOSS (R29). -/
  | refclkLoss (n : PortId)
  /-- CPL_TIMEOUT (R386). -/
  | cplTimeout (c : CoreId) (ch : Fin 8) (moved : Nat)
  /-- PCIE_RETRAIN (R394). -/
  | pcieRetrain (n : PortId) (refclkPpm : Option Int) (rate : Nat) (width : Nat)
  /-- WINDOW_TABLE_WRITE (R376). -/
  | windowTableWrite (n : PortId) (entry : Fin 128) (word : Fin 4) (value : Word64)
  /-- SWIN_WRITE (R377). -/
  | swinWrite (slot : SlotId) (k : Fin 8) (size : Bool) (value : Word64)
  /-- MBX_DOORBELL (R396). -/
  | mbxDoorbell (mb : SessId) (value : Word64) (m : ZMsg)
  /-- GET_VERSION (R507). -/
  | getVersion (n : PortId)
  /-- GET_CAPABILITIES (R507). -/
  | getCapabilities (n : PortId)
  /-- NEGOTIATE_ALGORITHMS (R507). -/
  | negotiateAlgorithms (n : PortId) (asym : List Nat) (hash : List Nat)
  /-- GET_DIGESTS (R507). -/
  | getDigests (n : PortId)
  /-- GET_CERTIFICATE (R507). -/
  | getCertificate (n : PortId) (certSlot : Nat) (offset : Nat) (length : Nat)
  /-- CHALLENGE (R507). -/
  | challenge (n : PortId) (certSlot : Nat) (nonce : List Byte)
  /-- GET_MEASUREMENTS (R508). -/
  | getMeasurements (n : PortId) (block : Nat) (nonce : List Byte)
  /-- ETH_FRAME_DISCARD (R379). -/
  | ethFrameDiscard (e : EthId)
  /-- ARP (R379). -/
  | arp (e : EthId) (target : BitVec 32)
  /-- NEIGHBOR_DISCOVERY (R379). -/
  | neighborDiscovery (e : EthId) (target : List Byte)
  /-- ECHO (R379). -/
  | echo (e : EthId) (v6 : Bool) (target : List Byte) (payload : List Byte)
  /-- ETH_LINK_CHANGE (R380). -/
  | ethLinkChange (e : EthId) (up : Bool)
  /-- ETH_RETRAIN (R394). -/
  | ethRetrain (e : EthId) (up : Bool)
  /-- DTLS_HANDSHAKE (R395). -/
  | dtlsHandshake (segment : Fin 2) (certDigest : List Byte)
  /-- DTLS_IDLE_TIMEOUT (R395). -/
  | dtlsIdleTimeout (session : Fin 16)
  /-- READ (R398). -/
  | read (ses : SessId) (m : ZMsg)
  /-- WRITE (R398). -/
  | write (ses : SessId) (m : ZMsg)
  /-- BASTE (R403). -/
  | baste (ses : SessId) (m : ZMsg)
  /-- COMMIT (R406). -/
  | commit (ses : SessId) (m : ZMsg)
  /-- DISCARD (R407). -/
  | discard (ses : SessId) (m : ZMsg)
  /-- BASTE_TIMEOUT (R407). -/
  | basteTimeout (ses : SessId)
  /-- BLOB_BUFFER_TIMEOUT (R402). -/
  | blobBufferTimeout (ses : SessId)
  /-- SUBSCRIBE (R409). -/
  | subscribe (ses : SessId) (m : ZMsg)
  /-- UNSUBSCRIBE (R409). -/
  | unsubscribe (ses : SessId) (m : ZMsg)
  /-- NOTIFY (R409). -/
  | notify (ses : SessId) (subscription : Nat) (queueFull : Bool)
  /-- RESPONSE_CACHE_EXPIRY (R401). -/
  | responseCacheExpiry (client : List Byte) (requestId : Nat)
  /-- PTP_MESSAGE (R381). -/
  | ptpMessage (segment : Fin 2) (m : PtpMsg)
  /-- PTP_SEGMENT_SWITCH (R381). -/
  | ptpSegmentSwitch
  /-- PPS_IN_EDGE (R381). -/
  | ppsInEdge
  /-- HBM_PATROL_SCRUB (R382). -/
  | hbmPatrolScrub (st : StackId) (word : Nat) (found : Ecc)
  /-- HBM_TEMP_READ (R383). -/
  | hbmTempRead (st : StackId) (temp : Int)
  /-- RETRAIN (R385). -/
  | retrain (st : StackId)
  /-- HBM_RETRAIN_DONE (R385). -/
  | hbmRetrainDone (st : StackId)
  /-- SB_FUNC_WRITE (R389). -/
  | sbFuncWrite (p : PinId) (func : BitVec 8)
  /-- SB_DETACH_END (R389). -/
  | sbDetachEnd (p : PinId)
  /-- SB_ATTACH (R389). -/
  | sbAttach (p : PinId)
  /-- THERMAL_ALERT_INPUT (R441). -/
  | thermalAlertInput (p : PinId)
  /-- RESET_IN (R387). -/
  | resetIn (lowNs : Nat)
  /-- PWR_EN_CHANGE (R425). -/
  | pwrEnChange (level : Bool)
  /-- TACK_IO_EDGE (R491). -/
  | tackIoEdge
  /-- BYPASS (R392). -/
  | bypass
  /-- IDCODE (R392). -/
  | idcode
  /-- SAMPLE (R392). -/
  | sample
  /-- PRELOAD (R392). -/
  | preload (boundary : List Bool)
  /-- EXTEST (R392). -/
  | extest
  /-- EXTEST_PULSE (R392). -/
  | extestPulse
  /-- EXTEST_TRAIN (R392). -/
  | extestTrain
  /-- CLAMP (R392). -/
  | clamp
  /-- DEBUG_ACCESS (R509). -/
  | debugAccess (c : CoreId) (op : DebugOp)
  /-- TRST (R391). -/
  | trst
  /-- POWER_REQUEST_ON (R426). -/
  | powerRequestOn (runTo : Fin 6)
  /-- POWER_REQUEST_OFF (R426). -/
  | powerRequestOff (runTo : Fin 6)
  /-- INPUT_FAULT_TRIP (R421). -/
  | inputFaultTrip (past : Bool) (millivolts : Nat)
  /-- TRIP_RECOVERY (R428). -/
  | tripRecovery
  /-- LOAD_NOTICE (R432). -/
  | loadNotice (c : CoreId)
  /-- PREBIAS_RELEASE (R432). -/
  | prebiasRelease (r : RegionId)
  /-- ISSUE_STOP (R433). -/
  | issueStop (r : RegionId)
  /-- ISSUE_STOP_CLEAR (R433). -/
  | issueStopClear (r : RegionId)
  /-- VMIN_CROSSING (R435). -/
  | vminCrossing (r : RegionId) (step : Fin 64)
  /-- VMIN_CLEAR (R435). -/
  | vminClear (r : RegionId) (present : Fin 64)
  /-- CURRENT_SAMPLE (R434). -/
  | currentSample (r : RegionId) (milliamps : Nat)
  /-- THROTTLE_UPDATE (R442). -/
  | throttleUpdate (r : RegionId) (temp : Int)
  /-- T_STOP (R441). -/
  | tStop (r : RegionId)
  /-- THERMAL_SHUTDOWN (R441). -/
  | thermalShutdown (r : RegionId) (temp : Int)
  /-- RETENTION_ENTRY (R422). -/
  | retentionEntry (i : InstId)
  /-- DITHER_CHIP (R444). -/
  | ditherChip (p : PanelId) (power : Int) (rise : Int)
  /-- RTH_STALE (R445). -/
  | rthStale (p : PanelId) (thirty : Bool)
  /-- REGULATOR_FAULT (R437). -/
  | regulatorFault (r : RegionId)
  /-- MCLK_SET (R439). -/
  | mclkSet (khz : BitVec 32)
  /-- HZ_MODE_WRITE (R185). -/
  | hzModeWrite (mode : BitVec 8)
  /-- RETUNE_DONE (R439). -/
  | retuneDone
  /-- INPUT_POWER_UP (R449). -/
  | inputPowerUp (b : BringUp)
  /-- COMPUTE_RESET (R461). -/
  | computeReset (muslin : List MuslinResult) (failedPanels : List PanelId)
  /-- MG_CORE_RESET (R465). -/
  | mgCoreReset
  /-- DEVICE_RESET (R459). -/
  | deviceReset
  /-- MG_WATCHDOG_EXPIRY (R465). -/
  | mgWatchdogExpiry
  /-- PANEL_CONTROLLER_FAULT (R464). -/
  | panelControllerFault (p : PanelId) (muslin : List MuslinResult) (selfTestFails : Bool)
  /-- CORE_FAULT_REPORT (R468). -/
  | coreFaultReport (c : CoreId) (cause : Nat)
  /-- CORE_RETIRE (R474). -/
  | coreRetire (c : CoreId)
  /-- CORE_UNRETIRE (R474). -/
  | coreUnretire (c : CoreId)
  /-- SPARE_PROGRAMMED (R253). -/
  | spareProgrammed (i : InstId)
  /-- RECIPE_SELECT_WRITE (R88). -/
  | recipeSelectWrite (i : InstId) (variants : List Byte) (fromMaster : Bool)
  /-- PREC_CLEAR (R87). -/
  | precClear (i : InstId) (bits : BitVec 32)
  /-- CC_CORE_WRITE (R114). -/
  | ccCoreWrite (core : BitVec 16)
  /-- CC_CLEAR (R114). -/
  | ccClear
  /-- TM_CORE_WRITE (R418). -/
  | tmCoreWrite (core : BitVec 16)
  /-- SNAP_REQ (R418). -/
  | snapReq (i : InstId)
  /-- ALERT_CLEAR (R417). -/
  | alertClear (bits : BitVec 32)
  /-- ACCT_CLEAR (R368). -/
  | acctClear (slot : SlotId)
  /-- JOIN (R486). -/
  | join
  /-- LEAVE (R494). -/
  | leave
  /-- SWAP (R487). -/
  | swap
  /-- FW_PASS (R493). -/
  | fwPass
  /-- SEAM_TRANSFER_RECEIVE (R478). -/
  | seamTransferReceive (sm : SeamId) (t : SeamTransfer)
  /-- SEAM_TIMEOUT (R479). -/
  | seamTimeout (c : CoreId) (ch : Fin 8)
  /-- SEAM_RETRAIN (R494). -/
  | seamRetrain (sm : SeamId)
  /-- TACK_RECORD (R490). -/
  | tackRecord (r : TackRec)
  /-- CASCADE_RELEASE (R490). -/
  | cascadeRelease (r : ReleaseMsg)
  /-- TIME_MESSAGE (R489). -/
  | timeMessage (masterTime : Nat) (pathDelay : Nat)
  /-- TIME_DISTRIBUTE (R489). -/
  | timeDistribute
  /-- SWAP_REQUEST (R487). -/
  | swapRequest (requester : Fin 16) (target : Fin 16)
  /-- APERTURE_DATA (R484). -/
  | apertureData (sm : SeamId) (t : ApertureData)
  /-- CASCADE_STEP_PLAN (R485). -/
  | cascadeStepPlan (plan : List Byte)
  /-- BROADCAST_BLOCK (R492). -/
  | broadcastBlock (offset : Nat) (block : List Byte)
  /-- RESEND_REQUEST (R492). -/
  | resendRequest (member : Fin 16) (r : ResendWhat)
  /-- FIRMWARE_BLOCK (R493). -/
  | firmwareBlock (offset : Nat) (block : List Byte)
  /-- IDLE_CASCADE_TACK (R490). -/
  | idleCascadeTack
  /-- CTACK_TIMEOUT (R491). -/
  | ctackTimeout (group : Fin 16) (missing : Fin 16)
  /-- HOLD_LIMIT_EXPIRY (R491). -/
  | holdLimitExpiry (group : Fin 16)
  /-- MASTER_LOSS (R488). -/
  | masterLoss (reachable : List (Fin 16))
  /-- BCAST_TIMEOUT (R492). -/
  | bcastTimeout
  /-- FW_DATA_BLOCK (R502). -/
  | fwDataBlock (offset : Nat) (block : List Byte)
  /-- ARM (R504). -/
  | arm
  /-- DISARM (R504). -/
  | disarm
  /-- FW_ABORT (R502). -/
  | fwAbort
  /-- CONFIRM (R504). -/
  | confirm (role : Role)
  /-- FW_CANCEL (R504). -/
  | fwCancel (role : Role)
  /-- ACTIVATION_CHECK (R504). -/
  | activationCheck (others : List UploadView)
  /-- SELF_CANCEL (R504). -/
  | selfCancel
  /-- FW_ACTIVATE (R505). -/
  | fwActivate
  /-- SVN_HOLD_EXPIRY (R506). -/
  | svnHoldExpiry
  /-- KEY_CMD (R498). -/
  | keyCmd
  /-- DBG_CHALLENGE (R509). -/
  | dbgChallenge
  /-- DBG_RESPONSE (R509). -/
  | dbgResponse (signature : List Byte)
  /-- RECOVERY_IMAGE_BLOCK (R501). -/
  | recoveryImageBlock (offset : Nat) (block : List Byte)
  /-- IMAGE_COMPLETE (R250). -/
  | imageComplete (i : InstId) (image : Fetched)
  /-- SWAP_SLOT_ZERO_DONE (R357). -/
  | swapSlotZeroDone (slot : SlotId) (swapSlot : Nat)
  /-- HBM_TIMEOUT (R386). -/
  | hbmTimeout (c : CoreId) (ch : Fin 8) (moved : Nat)
  /-- PCIE_LINK_UP (R371). -/
  | pcieLinkUp (n : PortId) (rate : Nat) (width : Nat)
  /-- SEAM_LINK_UP (R476). -/
  | seamLinkUp (sm : SeamId) (peerSerial : Nat) (peerSeam : Fin 16)
  /-- THERMAL_ALERT_RELEASED (R441). -/
  | thermalAlertReleased (p : PinId)
  /-- ENDPOINT_ID_ASSIGNED (R413). -/
  | endpointIdAssigned (eid : Byte)
deriving DecidableEq, Repr

end Sys2Proof
end

