-- ==== Sys2Proof/Decode.lean ====
section
/-! DEFINITION. The instruction words of the cores (R169-R177): the loader reads them from a pattern's CODE section and
a core keeps them in its instruction store. The spec's table of commands gives no row any bits, so a word of the table
spells no command. -/

namespace Sys2Proof

/-- The command that a word of the table's bits spells: no row of the table has bits, so none. -/
def decodeTableWord (_nbits _w : Nat) : Option Instr := none

/-! ## Fields of the 64-bit word -/

/-- The payload, bits [51:0], of the ctl format (R170). -/
def CtlF.payload (f : CtlF) : BitVec 52 := f.rs ++ f.res ++ f.imm32
/-- The ctl format's fields of a word (R170). -/
def ctlOf (w : BitVec 64) : CtlF :=
  { rs := w.extractLsb' 46 6, res := w.extractLsb' 32 14, imm32 := w.extractLsb' 0 32 }

/-- The payload, bits [51:0], of the scal format (R171). -/
def ScalF.payload (f : ScalF) : BitVec 52 := f.rd ++ f.rs1 ++ f.rs2 ++ f.ui ++ f.res ++ f.imm32
/-- The scal format's fields of a word (R171). -/
def scalOf (w : BitVec 64) : ScalF :=
  { rd := w.extractLsb' 46 6, rs1 := w.extractLsb' 40 6, rs2 := w.extractLsb' 34 6, ui := w.extractLsb' 33 1, res := w.extractLsb' 32 1, imm32 := w.extractLsb' 0 32 }

/-- The payload, bits [51:0], of the eng format (R172). -/
def EngF.payload (f : EngF) : BitVec 52 := f.emask ++ f.tile ++ f.ra ++ f.rb ++ f.queue ++ f.imm24
/-- The eng format's fields of a word (R172). -/
def engOf (w : BitVec 64) : EngF :=
  { emask := w.extractLsb' 44 8, tile := w.extractLsb' 35 9, ra := w.extractLsb' 31 4, rb := w.extractLsb' 27 4, queue := w.extractLsb' 24 3, imm24 := w.extractLsb' 0 24 }

/-- The payload, bits [51:0], of the fin format (R173). -/
def FinF.payload (f : FinF) : BitVec 52 := f.fd ++ f.fs1 ++ f.fs2 ++ f.fs3 ++ f.lf ++ f.mcount ++ f.sub ++ f.ra ++ f.q ++ f.qsrc ++ f.fb ++ f.msrc ++ f.res
/-- The fin format's fields of a word (R173). -/
def finOf (w : BitVec 64) : FinF :=
  { fd := w.extractLsb' 46 6, fs1 := w.extractLsb' 40 6, fs2 := w.extractLsb' 34 6, fs3 := w.extractLsb' 28 6, lf := w.extractLsb' 26 2, mcount := w.extractLsb' 17 9, sub := w.extractLsb' 13 4, ra := w.extractLsb' 9 4, q := w.extractLsb' 6 3, qsrc := w.extractLsb' 5 1, fb := w.extractLsb' 4 1, msrc := w.extractLsb' 3 1, res := w.extractLsb' 0 3 }

/-- The payload, bits [51:0], of the mov format (R174). -/
def MovF.payload (f : MovF) : BitVec 52 := f.qa ++ f.qb ++ f.ra ++ f.rb ++ f.rx ++ f.group ++ f.dir ++ f.half ++ f.tol ++ f.ry ++ f.imm16
/-- The mov format's fields of a word (R174). -/
def movOf (w : BitVec 64) : MovF :=
  { qa := w.extractLsb' 49 3, qb := w.extractLsb' 46 3, ra := w.extractLsb' 42 4, rb := w.extractLsb' 38 4, rx := w.extractLsb' 32 6, group := w.extractLsb' 26 6, dir := w.extractLsb' 24 2, half := w.extractLsb' 23 1, tol := w.extractLsb' 22 1, ry := w.extractLsb' 16 6, imm16 := w.extractLsb' 0 16 }

/-- The payload, bits [51:0], of the sync format (R175). -/
def SyncF.payload (f : SyncF) : BitVec 52 := f.rs ++ f.emask ++ f.res ++ f.imm32
/-- The sync format's fields of a word (R175). -/
def syncOf (w : BitVec 64) : SyncF :=
  { rs := w.extractLsb' 46 6, emask := w.extractLsb' 38 8, res := w.extractLsb' 32 6, imm32 := w.extractLsb' 0 32 }

/-- The payload, bits [51:0], of the samp format (R176). -/
def SampF.payload (f : SampF) : BitVec 52 := f.fs ++ f.rd ++ f.mcount ++ f.q ++ f.group ++ f.k ++ f.imm13
/-- The samp format's fields of a word (R176). -/
def sampOf (w : BitVec 64) : SampF :=
  { fs := w.extractLsb' 46 6, rd := w.extractLsb' 40 6, mcount := w.extractLsb' 31 9, q := w.extractLsb' 28 3, group := w.extractLsb' 22 6, k := w.extractLsb' 13 9, imm13 := w.extractLsb' 0 13 }

/-- Bits [63:52]: opcode and guard (R169). -/
def headWord (op : BitVec 8) (g : Guard) (p : BitVec 52) : BitVec 64 := op ++ g.gn ++ g.gp ++ p
/-- The guard of a word (R169). -/
def guardOf (w : BitVec 64) : Guard := { gn := w.extractLsb' 55 1, gp := w.extractLsb' 52 3 }

/-! ## Opcodes (R177) -/

/-- The word of an instruction of a core; none for every other command. -/
def encodeIdmor : Instr → Option (BitVec 64)
  | .nop _ g f => some (headWord 0x00 g f.payload)
  | .halt _ g f => some (headWord 0x01 g f.payload)
  | .br _ g f => some (headWord 0x02 g f.payload)
  | .brr _ g f => some (headWord 0x03 g f.payload)
  | .callI _ g f => some (headWord 0x04 g f.payload)
  | .ret _ g f => some (headWord 0x05 g f.payload)
  | .loopI _ g f => some (headWord 0x06 g f.payload)
  | .brk _ g f => some (headWord 0x07 g f.payload)
  | .add _ g f => some (headWord 0x20 g f.payload)
  | .sub _ g f => some (headWord 0x21 g f.payload)
  | .mul _ g f => some (headWord 0x22 g f.payload)
  | .andI _ g f => some (headWord 0x23 g f.payload)
  | .orI _ g f => some (headWord 0x24 g f.payload)
  | .xorI _ g f => some (headWord 0x25 g f.payload)
  | .shl _ g f => some (headWord 0x26 g f.payload)
  | .shr _ g f => some (headWord 0x27 g f.payload)
  | .sra _ g f => some (headWord 0x28 g f.payload)
  | .min _ g f => some (headWord 0x29 g f.payload)
  | .max _ g f => some (headWord 0x2A g f.payload)
  | .minu _ g f => some (headWord 0x2B g f.payload)
  | .maxu _ g f => some (headWord 0x2C g f.payload)
  | .cmpeq _ g f => some (headWord 0x2D g f.payload)
  | .cmplt _ g f => some (headWord 0x2E g f.payload)
  | .cmpltu _ g f => some (headWord 0x2F g f.payload)
  | .mov _ g f => some (headWord 0x30 g f.payload)
  | .sld _ g f => some (headWord 0x31 g f.payload)
  | .sst _ g f => some (headWord 0x32 g f.payload)
  | .mmv _ g f => some (headWord 0x40 g f.payload)
  | .bflush _ g f => some (headWord 0x41 g f.payload)
  | .bzero _ g f => some (headWord 0x42 g f.payload)
  | .csum _ g f => some (headWord 0x43 g f.payload)
  | .ectlw _ g f => some (headWord 0x44 g f.payload)
  | .fld _ g f => some (headWord 0x60 g f.payload)
  | .fst _ g f => some (headWord 0x61 g f.payload)
  | .fcvt _ g f => some (headWord 0x62 g f.payload)
  | .fadd _ g f => some (headWord 0x63 g f.payload)
  | .fsub _ g f => some (headWord 0x64 g f.payload)
  | .fmul _ g f => some (headWord 0x65 g f.payload)
  | .ffma _ g f => some (headWord 0x66 g f.payload)
  | .fmin _ g f => some (headWord 0x67 g f.payload)
  | .fmax _ g f => some (headWord 0x68 g f.payload)
  | .fcmp _ g f => some (headWord 0x69 g f.payload)
  | .fneg _ g f => some (headWord 0x6A g f.payload)
  | .fabs _ g f => some (headWord 0x6B g f.payload)
  | .fcvtb _ g f => some (headWord 0x6C g f.payload)
  | .funp _ g f => some (headWord 0x6D g f.payload)
  | .frcp _ g f => some (headWord 0x6E g f.payload)
  | .fsqrt _ g f => some (headWord 0x6F g f.payload)
  | .frsq _ g f => some (headWord 0x70 g f.payload)
  | .fexp _ g f => some (headWord 0x71 g f.payload)
  | .fexp2 _ g f => some (headWord 0x72 g f.payload)
  | .flog _ g f => some (headWord 0x73 g f.payload)
  | .flog2 _ g f => some (headWord 0x74 g f.payload)
  | .fact _ g f => some (headWord 0x75 g f.payload)
  | .fsum _ g f => some (headWord 0x76 g f.payload)
  | .fdot _ g f => some (headWord 0x77 g f.payload)
  | .frms _ g f => some (headWord 0x78 g f.payload)
  | .flnorm _ g f => some (headWord 0x79 g f.payload)
  | .fquant _ g f => some (headWord 0x7A g f.payload)
  | .falt _ g f => some (headWord 0x7B g f.payload)
  | .fqk _ g f => some (headWord 0x7C g f.payload)
  | .fsmx _ g f => some (headWord 0x7D g f.payload)
  | .fpv _ g f => some (headWord 0x7E g f.payload)
  | .femb _ g f => some (headWord 0x7F g f.payload)
  | .qpush _ g f => some (headWord 0xA0 g f.payload)
  | .pwalk _ g f => some (headWord 0xA1 g f.payload)
  | .qwait _ g f => some (headWord 0xA2 g f.payload)
  | .qexp _ g f => some (headWord 0xA3 g f.payload)
  | .nget _ g f => some (headWord 0xA4 g f.payload)
  | .nput _ g f => some (headWord 0xA5 g f.payload)
  | .rget _ g f => some (headWord 0xA6 g f.payload)
  | .rput _ g f => some (headWord 0xA7 g f.payload)
  | .mcast _ g f => some (headWord 0xA8 g f.payload)
  | .rsend _ g f => some (headWord 0xA9 g f.payload)
  | .tack _ g f => some (headWord 0xC0 g f.payload)
  | .fenceI _ g f => some (headWord 0xC1 g f.payload)
  | .waitI _ g f => some (headWord 0xC2 g f.payload)
  | .noteI _ g f => some (headWord 0xC3 g f.payload)
  | .gown _ g f => some (headWord 0xC4 g f.payload)
  | .ctop _ g f => some (headWord 0xD0 g f.payload)
  | .csend _ g f => some (headWord 0xD1 g f.payload)
  | .spick _ g f => some (headWord 0xD2 g f.payload)
  | .sacc _ g f => some (headWord 0xD3 g f.payload)
  | _ => none

/-- The instruction that core c reads from a word; none where the opcode is reserved. -/
def decodeIdmor (c : CoreId) (w : BitVec 64) : Option Instr :=
  let g := guardOf w
  match (w.extractLsb' 56 8).toNat with
  | 0x00 => some (.nop c g (ctlOf w))
  | 0x01 => some (.halt c g (ctlOf w))
  | 0x02 => some (.br c g (ctlOf w))
  | 0x03 => some (.brr c g (ctlOf w))
  | 0x04 => some (.callI c g (ctlOf w))
  | 0x05 => some (.ret c g (ctlOf w))
  | 0x06 => some (.loopI c g (ctlOf w))
  | 0x07 => some (.brk c g (ctlOf w))
  | 0x20 => some (.add c g (scalOf w))
  | 0x21 => some (.sub c g (scalOf w))
  | 0x22 => some (.mul c g (scalOf w))
  | 0x23 => some (.andI c g (scalOf w))
  | 0x24 => some (.orI c g (scalOf w))
  | 0x25 => some (.xorI c g (scalOf w))
  | 0x26 => some (.shl c g (scalOf w))
  | 0x27 => some (.shr c g (scalOf w))
  | 0x28 => some (.sra c g (scalOf w))
  | 0x29 => some (.min c g (scalOf w))
  | 0x2A => some (.max c g (scalOf w))
  | 0x2B => some (.minu c g (scalOf w))
  | 0x2C => some (.maxu c g (scalOf w))
  | 0x2D => some (.cmpeq c g (scalOf w))
  | 0x2E => some (.cmplt c g (scalOf w))
  | 0x2F => some (.cmpltu c g (scalOf w))
  | 0x30 => some (.mov c g (scalOf w))
  | 0x31 => some (.sld c g (scalOf w))
  | 0x32 => some (.sst c g (scalOf w))
  | 0x40 => some (.mmv c g (engOf w))
  | 0x41 => some (.bflush c g (engOf w))
  | 0x42 => some (.bzero c g (engOf w))
  | 0x43 => some (.csum c g (engOf w))
  | 0x44 => some (.ectlw c g (engOf w))
  | 0x60 => some (.fld c g (finOf w))
  | 0x61 => some (.fst c g (finOf w))
  | 0x62 => some (.fcvt c g (finOf w))
  | 0x63 => some (.fadd c g (finOf w))
  | 0x64 => some (.fsub c g (finOf w))
  | 0x65 => some (.fmul c g (finOf w))
  | 0x66 => some (.ffma c g (finOf w))
  | 0x67 => some (.fmin c g (finOf w))
  | 0x68 => some (.fmax c g (finOf w))
  | 0x69 => some (.fcmp c g (finOf w))
  | 0x6A => some (.fneg c g (finOf w))
  | 0x6B => some (.fabs c g (finOf w))
  | 0x6C => some (.fcvtb c g (finOf w))
  | 0x6D => some (.funp c g (finOf w))
  | 0x6E => some (.frcp c g (finOf w))
  | 0x6F => some (.fsqrt c g (finOf w))
  | 0x70 => some (.frsq c g (finOf w))
  | 0x71 => some (.fexp c g (finOf w))
  | 0x72 => some (.fexp2 c g (finOf w))
  | 0x73 => some (.flog c g (finOf w))
  | 0x74 => some (.flog2 c g (finOf w))
  | 0x75 => some (.fact c g (finOf w))
  | 0x76 => some (.fsum c g (finOf w))
  | 0x77 => some (.fdot c g (finOf w))
  | 0x78 => some (.frms c g (finOf w))
  | 0x79 => some (.flnorm c g (finOf w))
  | 0x7A => some (.fquant c g (finOf w))
  | 0x7B => some (.falt c g (finOf w))
  | 0x7C => some (.fqk c g (finOf w))
  | 0x7D => some (.fsmx c g (finOf w))
  | 0x7E => some (.fpv c g (finOf w))
  | 0x7F => some (.femb c g (finOf w))
  | 0xA0 => some (.qpush c g (movOf w))
  | 0xA1 => some (.pwalk c g (movOf w))
  | 0xA2 => some (.qwait c g (movOf w))
  | 0xA3 => some (.qexp c g (movOf w))
  | 0xA4 => some (.nget c g (movOf w))
  | 0xA5 => some (.nput c g (movOf w))
  | 0xA6 => some (.rget c g (movOf w))
  | 0xA7 => some (.rput c g (movOf w))
  | 0xA8 => some (.mcast c g (movOf w))
  | 0xA9 => some (.rsend c g (movOf w))
  | 0xC0 => some (.tack c g (syncOf w))
  | 0xC1 => some (.fenceI c g (syncOf w))
  | 0xC2 => some (.waitI c g (syncOf w))
  | 0xC3 => some (.noteI c g (syncOf w))
  | 0xC4 => some (.gown c g (syncOf w))
  | 0xD0 => some (.ctop c g (sampOf w))
  | 0xD1 => some (.csend c g (sampOf w))
  | 0xD2 => some (.spick c g (sampOf w))
  | 0xD3 => some (.sacc c g (sampOf w))
  | _ => none

end Sys2Proof
end

