-- ==== Sys2Proof/Config.lean ====
section
/-! DEFINITION. What one part fixes and what the spec leaves open: uninterpreted constants, none of which has a
body, so no proof can rest on a value of them (assumption log entries 3, 4, 5 and 6). -/

namespace Sys2Proof.Config

/-- A value the spec leaves open: the n-th one that the machine draws, 64 bits of it. The counter is the model's own
field `State.freeNext` (log entry 3). -/
opaque freeValue : Nat → BitVec 64

/-- The factory value of a CONST or factory-set dictionary entry, by its key index × 256 + subindex: serial, idcode, MAC addresses, `rth_factory`, `v_set`, key set in force (R412, R436, R447, R394, R510; log entry 4). -/
opaque factoryVal : Nat → Nat

/-- The factory value of a factory-set BLOB or STR entry (`id_cert_chain`), and, under keys that
no entry has, the key slots A (1) and B (2), the header of the factory image in bank 0 (3) and the boot ROM (0) (log
entry 4). -/
opaque factoryBlob : Nat → List Byte

/-- The grade of the part: 0 A, 1 B, 2 C (R3, R412; log entry 4). -/
opaque factoryGrade : Fin 3

/-- Good cores that the grade guarantees in every panel (R2, R3). -/
def gradePerPanel : Nat :=
  match factoryGrade with
  | 0 => 96
  | 1 => 93
  | 2 => 90

/-- Physical cores of a panel that failed factory test, by their index 0-99 in it, as far as the grade allows any (R1;
log entry 4). -/
opaque factoryFailed : Nat → List Nat

/-- Physical core c passed factory test: a part of a grade has at least the guaranteed number of good cores in every
panel (R1, R2). -/
def factoryGood (c : Nat) : Bool := !((factoryFailed (c / 100)).take (100 - gradePerPanel)).contains (c % 100)

/-- The factory-programmed byte of an engine's muslin area, tier A from 0, tier B from 16 KiB (R11, R456; log entry
4). -/
opaque muslinByte : Nat → BitVec 8

/-- SHA-384 of a byte string (R326, R334; the digest itself is a published function, log entry 5). -/
opaque sha384 : List Byte → List Byte

/-- ECDSA P-384 verification with SHA-384: public key, message, signature (R329, R498, R500, R509; log entry 5). -/
opaque ecdsaOk : List Byte → List Byte → List Byte → Bool

/-- ML-DSA-65 verification with an empty context string: public key, message, signature (R498, R500; log entry 5). -/
opaque mldsaOk : List Byte → List Byte → List Byte → Bool

/-- The signature the identity key makes over a message (R496, R507; log entry 5). -/
opaque identitySign : List Byte → List Byte

/-- AES-256-GCM authentication of an FRP datagram: key, nonce, header and body, tag (R293; log entry 5). -/
opaque gcmOk : List Byte → List Byte → List Byte → List Byte → Bool

/-- AES-256-GCM encryption of an FRP datagram: key, nonce, header, body to the encrypted body and its tag (R293; log
entry 5). -/
opaque gcmSeal : List Byte → List Byte → List Byte → List Byte → List Byte

/-- The offset, in units in the last place from the correctly rounded result, that a finisher operation specified
only by an error bound returns: operation code, first and second operand bits (R71; log entry 6). The operation keeps
the offset inside the bound. -/
opaque ulpOffset : Nat → Nat → Nat → Int

/-- The factory curve of a region's core rail: region and MCLK in kHz to millivolts (R420; log entry 4). -/
opaque coreCurve : Nat → Nat → Nat

/-- A physical upset of one place of the device (R41, R59, R110, R111, R178, R382, R457): what a read of it finds from then
on. -/
inductive Upset where
  /-- an instruction-store word of a core reads with an uncorrectable error -/
  | istore (core word : Nat)
  /-- a word of a metadata slot of an engine reads corrected (false) or uncorrectable (true) -/
  | metadata (core engine word : Nat) (bad : Bool)
  /-- a lining byte of an engine, own store, changes to a value -/
  | lining (core engine byte : Nat) (value : BitVec 8)
  /-- a byte of an engine's muslin area changes to a value -/
  | muslin (core engine byte : Nat) (value : BitVec 8)
  /-- a scratchpad word reads with a single-bit (false) or an uncorrectable (true) error -/
  | scratchpad (core word : Nat) (bad : Bool)
  /-- a 64-bit word of the HBM stacks reads with a single-bit (false) or an uncorrectable (true) error -/
  | hbm (word : Nat) (bad : Bool)
deriving DecidableEq, Repr

/-- The upset, if any, that strikes the device at a time, in ns since the device reset (log entry 1). -/
opaque upset : Nat → Option Upset

/-- The sampled inputs that a quantisation produces (R79 step 2): by its core, its instruction index, the layer-pass
number and its block 0-1, the tile passes whose input rows the block is, each as (core, engine, tile, row block). The
pattern fixes them and the spec gives no record of them (log entry 12). -/
opaque fcFeeds : Nat → Nat → Nat → Nat → List (Nat × Nat × Nat × Nat)

/-- What a requantisation with feedback works on (R73, R75): by its core, its instruction index, the layer-pass number,
the MCLK cycle and its block 0-1, the row of the step plan and the number of the residual record in the row's sequence.
The pattern fixes it and the spec gives no record of it (log entry 72). -/
opaque recordOf : Nat → Nat → Nat → Nat → Nat → Option (Nat × Nat)

/-- The hot tier that a pattern declares (R271): its number of hot slots, and, by block number and hot slot, the granules
0-1,535 of a core that runs the block where the slot's copy lies. The spec gives no record of either (log entry 24). -/
opaque hotSlots : List Byte → Nat
opaque hotGranules : List Byte → Nat → Nat → List Nat

/-- SHA-384 digest of the split map of a layer of the model that a manifest names (R95; log entry 26). -/
opaque splitDigest : Nat → List Byte → List Byte

end Sys2Proof.Config
end

