-- ==== Sys2Proof/Machine/Dict.lean ====
section
/-! DEFINITION. The Zwiys dictionary as a table: every entry of the spec's dictionary tables with its type, access, roles,
default and accepted range (R399, R400, R411 and the tables of each chapter), and a name for every entry's key. -/

namespace Sys2Proof.Machine

/-- The data type of an entry (R400). -/
inductive DType where
  | bool | u8 | u16 | u32 | u64 | i16 | i32 | i64 | f32 | time64 | blob | str
deriving DecidableEq, Repr

/-- The access class of an entry (R399, R404): read only, read and write, read and write not at a tack, write only,
constant. -/
inductive Acc where
  | ro | rw | rws | wo | const
deriving DecidableEq, Repr

/-- One row of a dictionary table. The row covers the indices `lo` to `hi` and the subindices `sub` to `subHi`. For a
BLOB or STR, `min` and `max` bound its length in bytes. `also` is one more accepted value outside the range. A signed
default is its two's complement at the entry's width. -/
structure DictRow where
  lo : Nat
  hi : Nat
  sub : Nat
  subHi : Nat
  name : String
  ty : DType
  acc : Acc
  roles : List Role
  dflt : Nat
  factory : Bool
  min : Int
  max : Int
  also : Option Int
deriving DecidableEq, Repr

/-- The role lists of the tables' Access column (R395). -/
def rolesM : List Role := [.M]
def rolesMH : List Role := [.M, .H]
def rolesMHC : List Role := [.M, .H, .C]
def rolesMHT : List Role := [.M, .H, .T]
def rolesMHTC : List Role := [.M, .H, .T, .C]

/-- The entries of 03_precision.md. -/
def rows03 : List DictRow := [
  ⟨0xA001, 0xA001, 0x01, 0x01, "fc_rate_log2", .u8, .rw, rolesMH, 12, false, 6, 20, none⟩,
  ⟨0xA001, 0xA001, 0x02, 0x02, "fc_enable", .bool, .rw, rolesMH, 1, false, 0, 1, none⟩,
  ⟨0xA001, 0xA001, 0x03, 0x03, "fc_seed", .u64, .rw, rolesMH, 0, false, 0, 18446744073709551615, none⟩,
  ⟨0xA001, 0xA001, 0x04, 0x04, "fc_samples", .u64, .ro, rolesMH, 0, false, 0, 0, none⟩,
  ⟨0xA001, 0xA001, 0x05, 0x05, "fc_flags", .u64, .ro, rolesMH, 0, false, 0, 0, none⟩,
  ⟨0xA001, 0xA001, 0x06, 0x06, "fc_skipped", .u64, .ro, rolesMH, 0, false, 0, 0, none⟩,
  ⟨0xA001, 0xA001, 0x07, 0x07, "fc_dropped", .u64, .ro, rolesMH, 0, false, 0, 0, none⟩,
  ⟨0xA001, 0xA001, 0x08, 0x08, "fc_tainted", .u64, .ro, rolesMH, 0, false, 0, 0, none⟩,
  ⟨0x4000, 0x400B, 0x30, 0x30, "recipe_select", .blob, .rw, rolesMH, 0, false, 0, 1024, none⟩,
  ⟨0x4000, 0x400B, 0x31, 0x31, "recipe_applied", .blob, .ro, rolesMHT, 0, false, 0, 0, none⟩,
  ⟨0x4000, 0x400B, 0x32, 0x32, "recipe_generation", .blob, .ro, rolesMH, 0, false, 0, 0, none⟩,
  ⟨0x4000, 0x400B, 0x33, 0x33, "recipe_switches", .u32, .ro, rolesMH, 0, false, 0, 0, none⟩,
  ⟨0x4000, 0x400B, 0x34, 0x34, "prec_status", .u32, .ro, rolesMHT, 0, false, 0, 0, none⟩,
  ⟨0x4000, 0x400B, 0x35, 0x35, "prec_clear", .u32, .wo, rolesMH, 0, false, 0, 4294967295, none⟩]

/-- The entries of 04_core.md. -/
def rows04 : List DictRow := [
  ⟨0xA020, 0xA020, 0x01, 0x01, "cc_core", .u16, .rw, rolesMH, 0, false, 0, 1199, none⟩,
  ⟨0xA020, 0xA020, 0x02, 0x02, "cc_clear", .bool, .wo, rolesMH, 0, false, 1, 1, none⟩,
  ⟨0xA020, 0xA020, 0x03, 0x03, "sp_corrected", .u64, .ro, rolesMH, 0, false, 0, 0, none⟩,
  ⟨0xA020, 0xA020, 0x04, 0x04, "sp_uncorrectable", .u64, .ro, rolesMH, 0, false, 0, 0, none⟩,
  ⟨0xA020, 0xA020, 0x10, 0x18, "port_lost", .u64, .ro, rolesMH, 0, false, 0, 0, none⟩,
  ⟨0xA020, 0xA020, 0x20, 0x37, "bank_conflict", .u64, .ro, rolesMH, 0, false, 0, 0, none⟩]

/-- The entries of 05_fabric.md. -/
def rows05 : List DictRow := [
  ⟨0xA030, 0xA030, 0x01, 0x01, "rq_timeout", .u32, .rw, rolesMH, 100000, false, 60000, 10000000, none⟩,
  ⟨0xA030, 0xA030, 0x02, 0x02, "darn_generation", .u32, .ro, rolesMH, 0, false, 0, 0, none⟩,
  ⟨0xA030, 0xA030, 0x03, 0x03, "links_failed", .u16, .ro, rolesMH, 0, false, 0, 0, none⟩,
  ⟨0xA030, 0xA030, 0x04, 0x04, "routers_failed", .u16, .ro, rolesMH, 0, false, 0, 0, none⟩,
  ⟨0xA030, 0xA030, 0x05, 0x05, "lone_bursts", .u64, .ro, rolesMH, 0, false, 0, 0, none⟩,
  ⟨0xA030, 0xA030, 0x06, 0x06, "replays", .u64, .ro, rolesMH, 0, false, 0, 0, none⟩,
  ⟨0xA030, 0xA030, 0x07, 0x07, "vc0_late", .u64, .ro, rolesMH, 0, false, 0, 0, none⟩,
  ⟨0xA030, 0xA030, 0x08, 0x08, "red_overflows", .u64, .ro, rolesMH, 0, false, 0, 0, none⟩,
  ⟨0xA030, 0xA030, 0x09, 0x09, "late_responses", .u64, .ro, rolesMH, 0, false, 0, 0, none⟩,
  ⟨0xA030, 0xA030, 0x0A, 0x0A, "fenced_drops", .u64, .ro, rolesMH, 0, false, 0, 0, none⟩,
  ⟨0xA030, 0xA030, 0x0B, 0x0B, "stale_drops", .u64, .ro, rolesMH, 0, false, 0, 0, none⟩,
  ⟨0xA030, 0xA030, 0x10, 0x10, "link_map", .blob, .ro, rolesMH, 0, false, 2330, 2330, none⟩]

/-- The entries of 06_idmor_model.md. -/
def rows06 : List DictRow := [
  ⟨0xA010, 0xA010, 0x01, 0x01, "hz_mode", .u8, .rws, rolesMH, 0, false, 0, 2, none⟩,
  ⟨0xA010, 0xA010, 0x02, 0x02, "hz_count", .u64, .ro, rolesMH, 0, false, 0, 0, none⟩,
  ⟨0xA010, 0xA010, 0x03, 0x03, "hz_lost", .u64, .ro, rolesMH, 0, false, 0, 0, none⟩,
  ⟨0xA011, 0xA011, 0x01, 0x01, "traps", .u64, .ro, rolesMH, 0, false, 0, 0, none⟩,
  ⟨0xA011, 0xA011, 0x02, 0x02, "restarts", .u64, .ro, rolesMH, 0, false, 0, 0, none⟩]

/-- The entries of 07_idmor_reference.md. -/
def rows07 : List DictRow := [
  ⟨0xA040, 0xA040, 0x01, 0x01, "arrival_drops", .u64, .ro, rolesMH, 0, false, 0, 0, none⟩,
  ⟨0xA040, 0xA040, 0x02, 0x02, "cand_drops", .u64, .ro, rolesMH, 0, false, 0, 0, none⟩]

/-- The entries of 08_patterns_loader.md. -/
def rows08 : List DictRow := [
  ⟨0x3600, 0x360B, 0x01, 0x01, "vg_v", .u8, .ro, rolesMH, 0, false, 0, 0, none⟩,
  ⟨0x3600, 0x360B, 0x02, 0x02, "vg_map", .blob, .ro, rolesMH, 255, false, 200, 200, none⟩,
  ⟨0x3600, 0x360B, 0x03, 0x03, "vg_displaced", .u8, .ro, rolesMH, 0, false, 0, 0, none⟩,
  ⟨0x3600, 0x360B, 0x04, 0x04, "vg_borrowed", .u8, .ro, rolesMH, 0, false, 0, 0, none⟩,
  ⟨0x3600, 0x360B, 0x05, 0x05, "vg_lent", .u8, .ro, rolesMH, 0, false, 0, 0, none⟩,
  ⟨0x3600, 0x360B, 0x06, 0x06, "vg_generation", .u32, .ro, rolesMH, 0, false, 0, 0, none⟩]

/-- The entries of 09_attention_kv.md. -/
def rows09 : List DictRow := [
  ⟨0x6100, 0x610B, 0x01, 0x01, "kv_geometry", .u64, .ro, rolesMHT, 0, false, 0, 0, none⟩,
  ⟨0x6100, 0x610B, 0x02, 0x02, "pool_pages", .u32, .ro, rolesMH, 0, false, 0, 0, none⟩,
  ⟨0x6100, 0x610B, 0x03, 0x03, "pool_free", .u32, .ro, rolesMH, 0, false, 0, 0, none⟩,
  ⟨0x6100, 0x610B, 0x04, 0x04, "low_wm", .u32, .rw, rolesMH, 0, false, 0, 4294967295, none⟩,
  ⟨0x6100, 0x610B, 0x05, 0x05, "high_wm", .u32, .rw, rolesMH, 0, false, 0, 4294967295, none⟩,
  ⟨0x6100, 0x610B, 0x06, 0x06, "kv_stall_limit", .u32, .rw, rolesMH, 1000, false, 10, 60000, none⟩,
  ⟨0x6100, 0x610B, 0x07, 0x07, "zeroing", .u32, .ro, rolesMH, 0, false, 0, 0, none⟩,
  ⟨0x6100, 0x610B, 0x08, 0x08, "preemptions", .u64, .ro, rolesMH, 0, false, 0, 0, none⟩,
  ⟨0x6100, 0x610B, 0x09, 0x09, "pages_out", .u64, .ro, rolesMH, 0, false, 0, 0, none⟩,
  ⟨0x6100, 0x610B, 0x0A, 0x0A, "pages_in", .u64, .ro, rolesMH, 0, false, 0, 0, none⟩,
  ⟨0x6100, 0x610B, 0x0B, 0x0B, "swap_errors", .u64, .ro, rolesMH, 0, false, 0, 0, none⟩,
  ⟨0x6100, 0x610B, 0x0C, 0x0C, "walk_errors", .u64, .ro, rolesMH, 0, false, 0, 0, none⟩,
  ⟨0x6100, 0x610B, 0x0D, 0x0D, "hot_slots", .u16, .ro, rolesMH, 0, false, 0, 0, none⟩]

/-- The entries of 10_serving.md. -/
def rows10 : List DictRow := [
  ⟨0x6000, 0x6000, 0x01, 0x01, "dedup_window", .u32, .rw, rolesMH, 120, false, 1, 3600, none⟩,
  ⟨0x6000, 0x6000, 0x02, 0x02, "dedup_entries", .u32, .rws, rolesMH, 4096, false, 256, 65536, none⟩,
  ⟨0x6000, 0x6000, 0x03, 0x03, "frp_port", .u16, .rws, rolesMH, 28720, false, 1024, 65535, none⟩,
  ⟨0x6000, 0x6000, 0x04, 0x04, "frp_rto", .u32, .rw, rolesMH, 200, false, 50, 10000, none⟩,
  ⟨0x6000, 0x6000, 0x05, 0x05, "frp_retries", .u8, .rw, rolesMH, 6, false, 1, 8, none⟩,
  ⟨0x6000, 0x6000, 0x06, 0x06, "frp_bad", .u64, .ro, rolesMH, 0, false, 0, 0, none⟩,
  ⟨0x6000, 0x6000, 0x07, 0x07, "seq_live", .u32, .ro, rolesMHT, 0, false, 0, 0, none⟩,
  ⟨0x6010, 0x601B, 0x01, 0x01, "draft_instance", .u8, .rws, rolesMH, 255, false, 0, 11, some 255⟩,
  ⟨0x6010, 0x601B, 0x02, 0x02, "prefill_min", .u8, .rw, rolesMH, 8, false, 0, 64, none⟩,
  ⟨0x6010, 0x601B, 0x03, 0x03, "prefill_max", .u8, .rw, rolesMH, 48, false, 0, 64, none⟩,
  ⟨0x6010, 0x601B, 0x04, 0x04, "prefill_chunk", .u16, .rw, rolesMH, 2048, false, 256, 8192, none⟩,
  ⟨0x6010, 0x601B, 0x05, 0x05, "decode_rows_max", .u16, .rw, rolesMH, 8192, false, 1, 8192, none⟩,
  ⟨0x6010, 0x601B, 0x06, 0x06, "seq_limit", .u32, .rw, rolesMH, 5461, false, 0, 65536, none⟩,
  ⟨0x6010, 0x601B, 0x07, 0x07, "steps_decode", .u64, .ro, rolesMH, 0, false, 0, 0, none⟩,
  ⟨0x6010, 0x601B, 0x08, 0x08, "steps_prefill", .u64, .ro, rolesMH, 0, false, 0, 0, none⟩,
  ⟨0x6010, 0x601B, 0x09, 0x09, "tokens_emitted", .u64, .ro, rolesMH, 0, false, 0, 0, none⟩,
  ⟨0x6010, 0x601B, 0x0A, 0x0A, "ttft_violations", .u64, .ro, rolesMH, 0, false, 0, 0, none⟩,
  ⟨0x6010, 0x601B, 0x0B, 0x0B, "tbt_violations", .u64, .ro, rolesMH, 0, false, 0, 0, none⟩,
  ⟨0x6010, 0x601B, 0x0C, 0x0C, "drafts_proposed", .u64, .ro, rolesMH, 0, false, 0, 0, none⟩,
  ⟨0x6010, 0x601B, 0x0D, 0x0D, "drafts_accepted", .u64, .ro, rolesMH, 0, false, 0, 0, none⟩,
  ⟨0x6010, 0x601B, 0x0E, 0x0E, "duplicates", .u64, .ro, rolesMH, 0, false, 0, 0, none⟩,
  ⟨0x6010, 0x601B, 0x0F, 0x0F, "key_conflicts", .u64, .ro, rolesMH, 0, false, 0, 0, none⟩,
  ⟨0x6010, 0x601B, 0x10, 0x10, "penalty_inexact", .u64, .ro, rolesMH, 0, false, 0, 0, none⟩,
  ⟨0x6010, 0x601B, 0x11, 0x11, "taint_tokens", .u64, .ro, rolesMH, 0, false, 0, 0, none⟩]

/-- The entries of 11_models.md. -/
def rows11 : List DictRow := [
  ⟨0x4000, 0x400B, 0x01, 0x01, "inst_state", .u8, .ro, rolesMHT, 0, false, 0, 0, none⟩,
  ⟨0x4000, 0x400B, 0x02, 0x02, "inst_cols", .u8, .rw, rolesMH, 1, false, 1, 4, none⟩,
  ⟨0x4000, 0x400B, 0x03, 0x03, "inst_rows", .u8, .rw, rolesMH, 1, false, 1, 3, none⟩,
  ⟨0x4000, 0x400B, 0x04, 0x04, "inst_cmd", .u8, .wo, rolesMH, 0, false, 1, 8, none⟩,
  ⟨0x4000, 0x400B, 0x05, 0x05, "cmd_result", .u8, .ro, rolesMH, 0, false, 0, 0, none⟩,
  ⟨0x4000, 0x400B, 0x06, 0x06, "fault_code", .u8, .ro, rolesMHT, 0, false, 0, 0, none⟩,
  ⟨0x4000, 0x400B, 0x07, 0x07, "load_src", .u64, .rw, rolesMH, 0, false, 0, 18446744073709551615, none⟩,
  ⟨0x4000, 0x400B, 0x08, 0x08, "pattern_src", .u64, .rw, rolesMH, 0, false, 0, 18446744073709551615, none⟩,
  ⟨0x4000, 0x400B, 0x09, 0x09, "pattern_len", .u64, .rw, rolesMH, 0, false, 0, 18446744073709551615, none⟩,
  ⟨0x4000, 0x400B, 0x0A, 0x0A, "golden_place", .u8, .rw, rolesMH, 0, false, 0, 1, none⟩,
  ⟨0x4000, 0x400B, 0x0B, 0x0B, "golden_dst", .u64, .rw, rolesMH, 0, false, 0, 18446744073709551615, none⟩,
  ⟨0x4000, 0x400B, 0x0C, 0x0C, "load_status", .u32, .ro, rolesMH, 0, false, 0, 0, none⟩,
  ⟨0x4000, 0x400B, 0x0D, 0x0D, "shards_done", .u32, .ro, rolesMH, 0, false, 0, 0, none⟩,
  ⟨0x4000, 0x400B, 0x0E, 0x0E, "model_digest", .blob, .ro, rolesMHT, 0, false, 48, 48, none⟩,
  ⟨0x4000, 0x400B, 0x0F, 0x0F, "model_expect", .blob, .rw, rolesMH, 0, false, 48, 48, none⟩,
  ⟨0x4000, 0x400B, 0x10, 0x10, "require_signed", .bool, .rw, rolesMH, 0, false, 0, 1, none⟩,
  ⟨0x4000, 0x400B, 0x11, 0x11, "recheck_interval", .u32, .rw, rolesMH, 86400, false, 3600, 604800, some 0⟩,
  ⟨0x4000, 0x400B, 0x12, 0x12, "recheck_last", .time64, .ro, rolesMH, 0, false, 0, 0, none⟩,
  ⟨0x4000, 0x400B, 0x13, 0x13, "recheck_mismatch", .u32, .ro, rolesMH, 0, false, 0, 0, none⟩,
  ⟨0x4000, 0x400B, 0x14, 0x14, "recheck_late", .u32, .ro, rolesMH, 0, false, 0, 0, none⟩,
  ⟨0x4200, 0x420B, 0x01, 0x01, "alt_index", .u16, .rw, rolesMH, 0, false, 0, 4095, none⟩,
  ⟨0x4200, 0x420B, 0x02, 0x02, "alt_data", .blob, .wo, rolesMH, 0, false, 0, 393216, none⟩,
  ⟨0x4200, 0x420B, 0x03, 0x03, "alt_cmd", .u8, .wo, rolesMH, 0, false, 1, 2, none⟩,
  ⟨0x4200, 0x420B, 0x04, 0x04, "alt_result", .u8, .ro, rolesMH, 0, false, 0, 0, none⟩,
  ⟨0x4200, 0x420B, 0x05, 0x05, "alt_used", .u16, .ro, rolesMH, 0, false, 0, 0, none⟩,
  ⟨0x4200, 0x420B, 0x06, 0x06, "alt_digest", .blob, .ro, rolesMH, 0, false, 48, 48, none⟩,
  ⟨0x4100, 0x4100, 0x01, 0x10, "pub_key", .blob, .rws, rolesM, 0, false, 105, 105, none⟩,
  ⟨0x4110, 0x411B, 0x01, 0x01, "model_layers", .u16, .ro, rolesMHT, 0, false, 0, 0, none⟩,
  ⟨0x4110, 0x411B, 0x02, 0x02, "model_vocab", .u32, .ro, rolesMHT, 0, false, 0, 0, none⟩,
  ⟨0x4110, 0x411B, 0x03, 0x03, "model_context", .u32, .ro, rolesMHT, 0, false, 0, 0, none⟩,
  ⟨0x4110, 0x411B, 0x04, 0x04, "model_draft_heads", .u8, .ro, rolesMHT, 0, false, 0, 0, none⟩,
  ⟨0x4110, 0x411B, 0x05, 0x05, "model_name", .str, .ro, rolesMHT, 0, false, 32, 32, none⟩,
  ⟨0x4110, 0x411B, 0x06, 0x06, "model_key_id", .u64, .ro, rolesMH, 0, false, 0, 0, none⟩,
  ⟨0x4120, 0x4120, 0x01, 0x01, "journal", .blob, .ro, rolesM, 0, false, 768, 768, none⟩]

/-- The entries of 12_tenants.md. -/
def rows12 : List DictRow := [
  ⟨0x5000, 0x51FF, 0x01, 0x01, "slot_state", .u8, .ro, rolesMHT, 0, false, 0, 0, none⟩,
  ⟨0x5000, 0x51FF, 0x02, 0x02, "slot_cmd", .u8, .wo, rolesMHT, 0, false, 1, 3, none⟩,
  ⟨0x5000, 0x51FF, 0x03, 0x03, "cmd_result", .u8, .ro, rolesMHT, 0, false, 0, 0, none⟩,
  ⟨0x5000, 0x51FF, 0x04, 0x04, "slot_instance", .u8, .rws, rolesMH, 255, false, 0, 11, some 255⟩,
  ⟨0x5000, 0x51FF, 0x05, 0x05, "transport", .u8, .rws, rolesMH, 0, false, 0, 3, none⟩,
  ⟨0x5000, 0x51FF, 0x06, 0x06, "drain_deadline", .u32, .rw, rolesMH, 5000, false, 0, 1000000, none⟩,
  ⟨0x5000, 0x51FF, 0x07, 0x07, "priority", .u8, .rw, rolesMH, 3, false, 0, 7, none⟩,
  ⟨0x5000, 0x51FF, 0x08, 0x08, "weight", .u16, .rw, rolesMH, 100, false, 1, 1000, none⟩,
  ⟨0x5000, 0x51FF, 0x09, 0x09, "ttft_target", .u32, .rw, rolesMH, 0, false, 0, 60000000, none⟩,
  ⟨0x5000, 0x51FF, 0x0A, 0x0A, "tbt_target", .u32, .rw, rolesMH, 0, false, 0, 60000000, none⟩,
  ⟨0x5000, 0x51FF, 0x0B, 0x0B, "page_quota", .u32, .rw, rolesMH, 4294967295, false, 0, 4294967295, none⟩,
  ⟨0x5000, 0x51FF, 0x0C, 0x0C, "swap_base", .u64, .rws, rolesMH, 0, false, 0, 18446744073709551615, none⟩,
  ⟨0x5000, 0x51FF, 0x0D, 0x0D, "swap_slots", .u32, .rws, rolesMH, 0, false, 0, 16777216, none⟩,
  ⟨0x5000, 0x51FF, 0x0E, 0x0E, "frp_key", .blob, .wo, rolesMH, 0, false, 32, 32, none⟩,
  ⟨0x5000, 0x51FF, 0x0F, 0x0F, "alt_binding", .u16, .rw, rolesMH, 65535, false, 0, 4095, some 65535⟩,
  ⟨0x5000, 0x51FF, 0x10, 0x10, "irq_coalesce_us", .u16, .rw, rolesMHT, 20, false, 0, 10000, none⟩,
  ⟨0x5000, 0x51FF, 0x11, 0x11, "irq_coalesce_count", .u16, .rw, rolesMHT, 16, false, 0, 4096, none⟩,
  ⟨0x5000, 0x51FF, 0x12, 0x12, "enable_pending", .bool, .ro, rolesMHT, 0, false, 0, 0, none⟩,
  ⟨0x5000, 0x51FF, 0x13, 0x13, "zero_left", .u32, .ro, rolesMHT, 0, false, 0, 0, none⟩,
  ⟨0x5000, 0x51FF, 0x14, 0x14, "epoch", .u32, .ro, rolesMHT, 0, false, 0, 0, none⟩,
  ⟨0x5000, 0x51FF, 0x20, 0x20, "pages_resident", .u32, .ro, rolesMHT, 0, false, 0, 0, none⟩,
  ⟨0x5000, 0x51FF, 0x21, 0x21, "swap_used", .u32, .ro, rolesMHT, 0, false, 0, 0, none⟩,
  ⟨0x5000, 0x51FF, 0x22, 0x22, "requests_accepted", .u64, .ro, rolesMHT, 0, false, 0, 0, none⟩,
  ⟨0x5000, 0x51FF, 0x23, 0x23, "requests_aborted", .u64, .ro, rolesMHT, 0, false, 0, 0, none⟩,
  ⟨0x5000, 0x51FF, 0x24, 0x24, "tokens_emitted", .u64, .ro, rolesMHT, 0, false, 0, 0, none⟩,
  ⟨0x5000, 0x51FF, 0x25, 0x25, "ttft_violations", .u64, .ro, rolesMHT, 0, false, 0, 0, none⟩,
  ⟨0x5000, 0x51FF, 0x26, 0x26, "tbt_violations", .u64, .ro, rolesMHT, 0, false, 0, 0, none⟩,
  ⟨0x5000, 0x51FF, 0x27, 0x27, "tbt_intervals", .u64, .ro, rolesMHT, 0, false, 0, 0, none⟩,
  ⟨0x5000, 0x51FF, 0x28, 0x28, "rows_served", .u64, .ro, rolesMHT, 0, false, 0, 0, none⟩,
  ⟨0x5000, 0x51FF, 0x29, 0x29, "completions_lost", .u32, .ro, rolesMHT, 0, false, 0, 0, none⟩,
  ⟨0x5000, 0x51FF, 0x2A, 0x2A, "ring_errors", .u32, .ro, rolesMHT, 0, false, 0, 0, none⟩,
  ⟨0x5000, 0x51FF, 0x2B, 0x2B, "acct_clear", .bool, .wo, rolesMH, 0, false, 1, 1, none⟩]

/-- The entries of 13_external.md. -/
def rows13 : List DictRow := [
  ⟨0xA100, 0xA107, 0x01, 0x01, "sb_func", .u8, .rw, rolesMH, 0, false, 0, 7, none⟩,
  ⟨0xA100, 0xA107, 0x02, 0x02, "sb_out", .bool, .rw, rolesMH, 0, false, 0, 1, none⟩,
  ⟨0xA100, 0xA107, 0x03, 0x03, "sb_in", .bool, .ro, rolesMH, 0, false, 0, 0, none⟩,
  ⟨0xA100, 0xA107, 0x04, 0x04, "sb_pull", .u8, .rw, rolesMH, 1, false, 0, 1, none⟩,
  ⟨0xA100, 0xA107, 0x05, 0x05, "sb_param", .u32, .rw, rolesMH, 0, false, 0, 4294967295, none⟩,
  ⟨0xA100, 0xA107, 0x06, 0x06, "sb_state", .u8, .ro, rolesMH, 0, false, 0, 0, none⟩,
  ⟨0xA050, 0xA05F, 0x01, 0x01, "hbm_state", .u8, .ro, rolesMH, 0, false, 0, 0, none⟩,
  ⟨0xA050, 0xA05F, 0x02, 0x02, "hbm_temp", .i32, .ro, rolesMH, 0, false, 0, 0, none⟩,
  ⟨0xA050, 0xA05F, 0x03, 0x03, "ecc_corrected", .u64, .ro, rolesMH, 0, false, 0, 0, none⟩,
  ⟨0xA050, 0xA05F, 0x04, 0x04, "ecc_uncorrectable", .u64, .ro, rolesMH, 0, false, 0, 0, none⟩,
  ⟨0xA050, 0xA05F, 0x05, 0x05, "lane_repairs", .u8, .ro, rolesMH, 0, false, 0, 0, none⟩,
  ⟨0xA050, 0xA05F, 0x06, 0x06, "hbm_timeout", .u32, .rw, rolesMH, 200, false, 80, 10000, none⟩,
  ⟨0xA050, 0xA05F, 0x07, 0x07, "hbm_retrain", .bool, .wo, rolesMH, 0, false, 1, 1, none⟩,
  ⟨0xA060, 0xA067, 0x01, 0x01, "pcie_rate", .u8, .ro, rolesMH, 0, false, 0, 0, none⟩,
  ⟨0xA060, 0xA067, 0x02, 0x02, "pcie_width", .u8, .ro, rolesMH, 0, false, 0, 0, none⟩,
  ⟨0xA060, 0xA067, 0x03, 0x03, "pcie_max_rate", .u8, .rw, rolesMH, 6, false, 4, 6, none⟩,
  ⟨0xA060, 0xA067, 0x04, 0x04, "cpl_timeout", .u32, .rw, rolesMH, 50000, false, 16000, 500000, none⟩,
  ⟨0xA060, 0xA067, 0x05, 0x05, "link_downs", .u32, .ro, rolesMH, 0, false, 0, 0, none⟩,
  ⟨0xA060, 0xA067, 0x06, 0x06, "pcie_replays", .u64, .ro, rolesMH, 0, false, 0, 0, none⟩,
  ⟨0xA060, 0xA067, 0x07, 0x07, "cpl_timeouts", .u64, .ro, rolesMH, 0, false, 0, 0, none⟩,
  ⟨0xA060, 0xA067, 0x08, 0x08, "host_errors", .u64, .ro, rolesMH, 0, false, 0, 0, none⟩,
  ⟨0xA060, 0xA067, 0x09, 0x09, "pcie_retrain", .bool, .wo, rolesMH, 0, false, 1, 1, none⟩,
  ⟨0xA068, 0xA06B, 0x01, 0x01, "eth_link", .u8, .ro, rolesMH, 0, false, 0, 0, none⟩,
  ⟨0xA068, 0xA06B, 0x02, 0x02, "eth_mode", .u8, .rws, rolesMH, 0, false, 0, 2, none⟩,
  ⟨0xA068, 0xA06B, 0x03, 0x03, "eth_mac", .u64, .ro, rolesMH, 0, true, 0, 0, none⟩,
  ⟨0xA068, 0xA06B, 0x04, 0x04, "eth_ipv6", .blob, .rw, rolesMH, 0, false, 16, 16, none⟩,
  ⟨0xA068, 0xA06B, 0x05, 0x05, "eth_ipv4", .u32, .rw, rolesMH, 0, false, 0, 4294967295, none⟩,
  ⟨0xA068, 0xA06B, 0x06, 0x06, "eth_vlan", .u16, .rw, rolesMH, 0, false, 0, 4094, none⟩,
  ⟨0xA068, 0xA06B, 0x07, 0x07, "fec_corrected", .u64, .ro, rolesMH, 0, false, 0, 0, none⟩,
  ⟨0xA068, 0xA06B, 0x08, 0x08, "fec_uncorrected", .u64, .ro, rolesMH, 0, false, 0, 0, none⟩,
  ⟨0xA068, 0xA06B, 0x09, 0x09, "frames_dropped", .u64, .ro, rolesMH, 0, false, 0, 0, none⟩,
  ⟨0xA068, 0xA06B, 0x0A, 0x0A, "eth_retrain", .bool, .wo, rolesMH, 0, false, 1, 1, none⟩]

/-- The entries of 14_zwiys.md. -/
def rows14 : List DictRow := [
  ⟨0x1200, 0x1200, 0x01, 0x01, "baste_count", .u16, .ro, rolesMHC, 0, false, 0, 0, none⟩,
  ⟨0x1200, 0x1200, 0x02, 0x02, "commit", .bool, .wo, rolesMHC, 0, false, 1, 1, none⟩,
  ⟨0x1200, 0x1200, 0x03, 0x03, "discard", .bool, .wo, rolesMHC, 0, false, 1, 1, none⟩,
  ⟨0x1200, 0x1200, 0x04, 0x04, "commit_state", .u8, .ro, rolesMHC, 0, false, 0, 0, none⟩,
  ⟨0x1200, 0x1200, 0x05, 0x05, "commit_result", .u32, .ro, rolesMHC, 0, false, 0, 0, none⟩,
  ⟨0x1200, 0x1200, 0x06, 0x06, "commit_seq", .u32, .ro, rolesMHC, 0, false, 0, 0, none⟩,
  ⟨0x1200, 0x1200, 0x07, 0x07, "baste_scope", .u8, .ro, rolesMHC, 254, false, 0, 0, none⟩,
  ⟨0x1200, 0x1200, 0x08, 0x08, "baste_timeout", .u32, .rw, rolesMH, 60, false, 1, 3600, none⟩,
  ⟨0x1200, 0x1200, 0x09, 0x09, "commit_time", .time64, .ro, rolesMHC, 0, false, 0, 0, none⟩,
  ⟨0x1000, 0x1000, 0x01, 0x01, "vendor", .str, .const, rolesMHTC, 0, false, 0, 0, none⟩,
  ⟨0x1000, 0x1000, 0x02, 0x02, "product", .str, .const, rolesMHTC, 0, false, 0, 0, none⟩,
  ⟨0x1000, 0x1000, 0x03, 0x03, "part_number", .str, .const, rolesMHC, 0, true, 0, 0, none⟩,
  ⟨0x1000, 0x1000, 0x04, 0x04, "grade", .u8, .const, rolesMHC, 0, true, 0, 0, none⟩,
  ⟨0x1000, 0x1000, 0x05, 0x05, "serial", .u64, .const, rolesMHC, 0, true, 0, 0, none⟩,
  ⟨0x1000, 0x1000, 0x06, 0x06, "silicon_rev", .u8, .const, rolesMH, 0, true, 0, 0, none⟩,
  ⟨0x1000, 0x1000, 0x07, 0x07, "idcode", .u32, .const, rolesMH, 0, true, 0, 0, none⟩,
  ⟨0x1000, 0x1000, 0x08, 0x08, "fw_version", .u32, .ro, rolesMHTC, 0, true, 0, 0, none⟩,
  ⟨0x1000, 0x1000, 0x09, 0x09, "good_cores", .u16, .ro, rolesMH, 0, false, 0, 0, none⟩,
  ⟨0x1000, 0x1000, 0x0A, 0x0A, "uptime", .u64, .ro, rolesMH, 0, false, 0, 0, none⟩,
  ⟨0x1000, 0x1000, 0x0B, 0x0B, "time_now", .time64, .ro, rolesMHTC, 0, false, 0, 0, none⟩,
  ⟨0x1000, 0x1000, 0x0C, 0x0C, "zwiys_version", .u8, .const, rolesMHTC, 1, false, 0, 0, none⟩,
  ⟨0x1100, 0x1100, 0x01, 0x01, "zw_port", .u16, .const, rolesMH, 28710, false, 0, 0, none⟩,
  ⟨0x1101, 0x1102, 0x01, 0x01, "seg_enable", .bool, .rw, rolesM, 1, false, 0, 1, none⟩,
  ⟨0x1101, 0x1102, 0x02, 0x02, "plca_node", .u8, .rws, rolesM, 255, false, 0, 255, none⟩,
  ⟨0x1101, 0x1102, 0x03, 0x03, "plca_count", .u8, .rws, rolesM, 8, false, 1, 255, none⟩,
  ⟨0x1101, 0x1102, 0x04, 0x04, "seg_ipv6", .blob, .rws, rolesM, 0, false, 16, 16, none⟩,
  ⟨0x1101, 0x1102, 0x05, 0x05, "seg_ipv4", .u32, .rws, rolesM, 0, false, 0, 4294967295, none⟩,
  ⟨0x1101, 0x1102, 0x06, 0x06, "seg_prefix", .u8, .rws, rolesM, 0, false, 0, 128, none⟩,
  ⟨0x1101, 0x1102, 0x07, 0x07, "seg_link", .u8, .ro, rolesMH, 0, false, 0, 0, none⟩,
  ⟨0x1103, 0x1103, 0x01, 0x01, "sessions_open", .u8, .ro, rolesMH, 0, false, 0, 0, none⟩,
  ⟨0x1103, 0x1103, 0x02, 0x02, "idle_timeout", .u32, .rw, rolesM, 300, false, 10, 3600, none⟩,
  ⟨0x1103, 0x1103, 0x03, 0x03, "client_table", .blob, .rw, rolesM, 0, false, 512, 512, none⟩,
  ⟨0x1103, 0x1103, 0x04, 0x04, "sessions_refused", .u32, .ro, rolesMH, 0, false, 0, 0, none⟩,
  ⟨0x1103, 0x1103, 0x05, 0x05, "mbx_ignored", .u32, .ro, rolesMH, 0, false, 0, 0, none⟩,
  ⟨0x1103, 0x1103, 0x06, 0x06, "notify_lost", .u32, .ro, rolesMH, 0, false, 0, 0, none⟩,
  ⟨0x1104, 0x1104, 0x01, 0x01, "mctp_eid", .u8, .ro, rolesMH, 0, false, 0, 0, none⟩,
  ⟨0x1105, 0x1105, 0x01, 0x01, "ptp_domain", .u8, .rw, rolesM, 0, false, 0, 239, none⟩,
  ⟨0x1105, 0x1105, 0x02, 0x02, "ptp_state", .u8, .ro, rolesMH, 0, false, 0, 0, none⟩,
  ⟨0x1105, 0x1105, 0x03, 0x03, "ptp_segment", .u8, .ro, rolesMH, 255, false, 0, 0, none⟩,
  ⟨0x1105, 0x1105, 0x04, 0x04, "ptp_offset", .i64, .ro, rolesMH, 0, false, 0, 0, none⟩]

/-- The entries of 14_zwiys.md, continued. -/
def rows14b : List DictRow := [
  ⟨0x1105, 0x1105, 0x05, 0x05, "pps_locked", .bool, .ro, rolesMH, 0, false, 0, 0, none⟩,
  ⟨0x9000, 0x9000, 0x01, 0x01, "log_head", .u32, .ro, rolesMHC, 0, false, 0, 0, none⟩,
  ⟨0x9000, 0x9000, 0x02, 0x02, "log_tail", .u32, .ro, rolesMHC, 0, false, 0, 0, none⟩,
  ⟨0x9000, 0x9000, 0x03, 0x03, "log_data", .blob, .ro, rolesMHC, 0, false, 0, 0, none⟩,
  ⟨0x9000, 0x9000, 0x04, 0x04, "log_overwritten", .u64, .ro, rolesMH, 0, false, 0, 0, none⟩,
  ⟨0x9000, 0x9000, 0x05, 0x05, "alert_causes", .u32, .ro, rolesMHC, 0, false, 0, 0, none⟩,
  ⟨0x9000, 0x9000, 0x06, 0x06, "alert_mask", .u32, .rw, rolesMH, 127, false, 0, 127, none⟩,
  ⟨0x9000, 0x9000, 0x07, 0x07, "alert_clear", .u32, .wo, rolesMH, 0, false, 0, 127, none⟩,
  ⟨0x9000, 0x9000, 0x08, 0x08, "inst_events", .u64, .ro, rolesMH, 0, false, 0, 0, none⟩,
  ⟨0x9010, 0x9010, 0x01, 0x01, "tm_core", .u16, .rw, rolesMH, 0, false, 0, 1199, none⟩,
  ⟨0x9011, 0x9019, 0x01, 0x08, "engine counters", .u64, .ro, rolesMH, 0, false, 0, 0, none⟩,
  ⟨0x9011, 0x9019, 0x09, 0x09, "eng_stat", .u32, .ro, rolesMH, 0, false, 0, 0, none⟩,
  ⟨0x9020, 0x902B, 0x01, 0x01, "snap_req", .bool, .wo, rolesMH, 0, false, 1, 1, none⟩,
  ⟨0x9020, 0x902B, 0x02, 0x02, "snap_state", .u8, .ro, rolesMH, 0, false, 0, 0, none⟩,
  ⟨0x9020, 0x902B, 0x03, 0x03, "snap_time", .time64, .ro, rolesMH, 0, false, 0, 0, none⟩,
  ⟨0x9020, 0x902B, 0x04, 0x04, "snap_tack", .u32, .ro, rolesMH, 0, false, 0, 0, none⟩,
  ⟨0x9020, 0x902B, 0x05, 0x05, "snap_data", .blob, .ro, rolesMH, 0, false, 0, 0, none⟩]

/-- The entries of 15_power_clock_thermal.md. -/
def rows15 : List DictRow := [
  ⟨0x2100, 0x222B, 0x01, 0x01, "vmin", .u16, .ro, rolesMH, 815, false, 0, 0, none⟩,
  ⟨0x2100, 0x222B, 0x02, 0x02, "vmin_time", .time64, .ro, rolesMH, 0, false, 0, 0, none⟩,
  ⟨0x2100, 0x222B, 0x03, 0x03, "vmin_clear", .bool, .wo, rolesMH, 0, false, 1, 1, none⟩,
  ⟨0x2100, 0x222B, 0x04, 0x04, "i_sample", .u16, .ro, rolesMH, 0, false, 0, 0, none⟩,
  ⟨0x2100, 0x222B, 0x05, 0x05, "i_avg", .u32, .ro, rolesMH, 0, false, 0, 0, none⟩,
  ⟨0x2100, 0x222B, 0x06, 0x06, "i_lining", .u32, .ro, rolesMH, 0, false, 0, 0, none⟩,
  ⟨0x2100, 0x222B, 0x07, 0x07, "reg_state", .u8, .ro, rolesMH, 0, false, 0, 0, none⟩,
  ⟨0x2100, 0x222B, 0x08, 0x08, "v_set", .u16, .ro, rolesMH, 0, true, 0, 0, none⟩,
  ⟨0x2100, 0x222B, 0x09, 0x09, "temp", .i32, .ro, rolesMH, 0, false, 0, 0, none⟩,
  ⟨0x2100, 0x222B, 0x0A, 0x0A, "throttle", .u8, .ro, rolesMH, 0, false, 0, 0, none⟩,
  ⟨0x2100, 0x222B, 0x0B, 0x0B, "notice_late", .u32, .ro, rolesMH, 0, false, 0, 0, none⟩,
  ⟨0x2100, 0x222B, 0x0C, 0x0C, "notice_bad", .u32, .ro, rolesMH, 0, false, 0, 0, none⟩,
  ⟨0x2100, 0x222B, 0x0D, 0x0D, "issue_stops", .u32, .ro, rolesMH, 0, false, 0, 0, none⟩,
  ⟨0x2300, 0x2300, 0x01, 0x01, "mclk_set", .u32, .rws, rolesMH, 1250000, false, 900000, 1400000, none⟩,
  ⟨0x2300, 0x2300, 0x02, 0x02, "mclk_now", .u32, .ro, rolesMH, 0, false, 0, 0, none⟩,
  ⟨0x2300, 0x2300, 0x03, 0x03, "mesh_state", .u8, .ro, rolesMH, 0, false, 0, 0, none⟩,
  ⟨0x2300, 0x2300, 0x04, 0x04, "skew_max", .u16, .ro, rolesMH, 0, false, 0, 0, none⟩,
  ⟨0x2300, 0x2300, 0x05, 0x05, "osc_map", .blob, .ro, rolesMH, 0, false, 300, 300, none⟩,
  ⟨0x2300, 0x2300, 0x06, 0x06, "lock_time", .u32, .ro, rolesMH, 0, false, 0, 0, none⟩,
  ⟨0x2000, 0x2000, 0x01, 0x01, "pwr_state", .u8, .ro, rolesMH, 0, false, 0, 0, none⟩,
  ⟨0x2000, 0x2000, 0x02, 0x02, "pwr_enable", .bool, .rw, rolesM, 1, false, 0, 1, none⟩,
  ⟨0x2000, 0x2000, 0x03, 0x03, "v_in", .u32, .ro, rolesMH, 0, false, 0, 0, none⟩,
  ⟨0x2000, 0x2000, 0x04, 0x04, "p_in", .u32, .ro, rolesMH, 0, false, 0, 0, none⟩,
  ⟨0x2000, 0x2000, 0x05, 0x05, "e_in", .u64, .ro, rolesMH, 0, false, 0, 0, none⟩,
  ⟨0x2000, 0x2000, 0x06, 0x06, "p_cap_total", .u32, .rw, rolesMH, 20000, false, 5000, 20000, none⟩,
  ⟨0x2000, 0x2000, 0x07, 0x07, "ret_delay", .u32, .rw, rolesMH, 1000, false, 100, 3600000, some 0⟩,
  ⟨0x2000, 0x2000, 0x08, 0x08, "v_margin", .i16, .rws, rolesM, 0, false, -20, 40, none⟩,
  ⟨0x2000, 0x2000, 0x09, 0x09, "ext_alert_cap", .u32, .rw, rolesMH, 10000, false, 2000, 20000, none⟩,
  ⟨0x2000, 0x2000, 0x0A, 0x0A, "ext_alert", .bool, .ro, rolesMH, 0, false, 0, 0, none⟩,
  ⟨0x2000, 0x2000, 0x0B, 0x0B, "trips", .u32, .ro, rolesMH, 0, false, 0, 0, none⟩,
  ⟨0x2400, 0x2400, 0x01, 0x01, "t_throttle", .i32, .rw, rolesMH, 95000, false, 70000, 100000, none⟩,
  ⟨0x2400, 0x2400, 0x02, 0x02, "t_stop", .i32, .rw, rolesMH, 105000, false, 75000, 110000, none⟩,
  ⟨0x2400, 0x2400, 0x03, 0x03, "t_shutdown", .i32, .const, rolesMH, 115000, false, 0, 0, none⟩,
  ⟨0x2400, 0x2400, 0x04, 0x04, "t_cap_junction", .i32, .rw, rolesMH, 88000, false, 60000, 98000, none⟩,
  ⟨0x2400, 0x2400, 0x05, 0x05, "hbm_t_throttle", .i32, .rw, rolesMH, 95000, false, 80000, 100000, none⟩,
  ⟨0x2400, 0x2400, 0x06, 0x06, "hbm_t_stop", .i32, .rw, rolesMH, 105000, false, 85000, 105000, none⟩,
  ⟨0x2400, 0x2400, 0x07, 0x07, "coolant_in", .i32, .ro, rolesMH, 0, false, 0, 0, none⟩,
  ⟨0x2400, 0x2400, 0x08, 0x08, "coolant_out", .i32, .ro, rolesMH, 0, false, 0, 0, none⟩,
  ⟨0x2400, 0x2400, 0x09, 0x09, "dither_mv", .u8, .rw, rolesMH, 8, false, 0, 15, none⟩,
  ⟨0x2410, 0x241B, 0x01, 0x01, "rth_est", .f32, .ro, rolesMH, 0, false, 0, 0, none⟩]

/-- The entries of 15_power_clock_thermal.md, continued. -/
def rows15b : List DictRow := [
  ⟨0x2410, 0x241B, 0x02, 0x02, "rth_factory", .f32, .const, rolesMH, 0, true, 0, 0, none⟩,
  ⟨0x2410, 0x241B, 0x03, 0x03, "rth_stale", .bool, .ro, rolesMH, 1, false, 0, 0, none⟩,
  ⟨0x2410, 0x241B, 0x04, 0x04, "rth_age", .u32, .ro, rolesMH, 0, false, 0, 0, none⟩,
  ⟨0x2410, 0x241B, 0x05, 0x05, "p_panel", .u32, .ro, rolesMH, 0, false, 0, 0, none⟩,
  ⟨0x2410, 0x241B, 0x06, 0x06, "p_cap_panel", .u32, .ro, rolesMH, 0, false, 0, 0, none⟩,
  ⟨0x2410, 0x241B, 0x07, 0x07, "cap_delays", .u64, .ro, rolesMH, 0, false, 0, 0, none⟩,
  ⟨0x2410, 0x241B, 0x08, 0x08, "t_panel_max", .i32, .ro, rolesMH, 0, false, 0, 0, none⟩]

/-- The entries of 16_bringup_repair.md. -/
def rows16 : List DictRow := [
  ⟨0xA070, 0xA070, 0x01, 0x01, "dev_state", .u8, .ro, rolesMH, 0, false, 0, 0, none⟩,
  ⟨0xA070, 0xA070, 0x02, 0x02, "boot_stage", .u8, .ro, rolesMH, 0, false, 0, 0, none⟩,
  ⟨0xA070, 0xA070, 0x03, 0x03, "boot_time", .u32, .ro, rolesMH, 0, false, 0, 0, none⟩,
  ⟨0xA070, 0xA070, 0x04, 0x04, "reset_cmd", .u8, .wo, rolesMH, 0, false, 1, 3, none⟩,
  ⟨0xA070, 0xA070, 0x05, 0x05, "reset_result", .u8, .ro, rolesMH, 0, false, 0, 0, none⟩,
  ⟨0xA070, 0xA070, 0x06, 0x06, "last_reset", .u8, .ro, rolesMH, 0, false, 0, 0, none⟩,
  ⟨0xA070, 0xA070, 0x07, 0x07, "compute_resets", .u32, .ro, rolesMH, 0, false, 0, 0, none⟩,
  ⟨0xA070, 0xA070, 0x08, 0x08, "mg_resets", .u32, .ro, rolesMH, 0, false, 0, 0, none⟩,
  ⟨0xA070, 0xA070, 0x09, 0x09, "mg_watchdog", .u32, .rw, rolesM, 2000, false, 500, 10000, none⟩,
  ⟨0x3000, 0x300B, 0x01, 0x01, "panel_state", .u8, .ro, rolesMH, 0, false, 0, 0, none⟩,
  ⟨0x3000, 0x300B, 0x02, 0x02, "good_count", .u8, .ro, rolesMH, 0, false, 0, 0, none⟩,
  ⟨0x3000, 0x300B, 0x03, 0x03, "usable_count", .u8, .ro, rolesMH, 0, false, 0, 0, none⟩,
  ⟨0x3000, 0x300B, 0x04, 0x04, "spare_count", .u8, .ro, rolesMH, 0, false, 0, 0, none⟩,
  ⟨0x3000, 0x300B, 0x05, 0x05, "failed_service", .u8, .ro, rolesMH, 0, false, 0, 0, none⟩,
  ⟨0x3000, 0x300B, 0x06, 0x06, "spare_map", .blob, .ro, rolesMH, 0, false, 100, 100, none⟩,
  ⟨0x3100, 0x35AF, 0x01, 0x01, "core_state", .u8, .ro, rolesMH, 0, false, 0, 0, none⟩,
  ⟨0x3100, 0x35AF, 0x02, 0x02, "engine_good", .u16, .ro, rolesMH, 0, false, 0, 0, none⟩,
  ⟨0x3100, 0x35AF, 0x03, 0x03, "data_addr", .u16, .ro, rolesMH, 0, false, 0, 0, none⟩,
  ⟨0x3100, 0x35AF, 0x04, 0x04, "fail_cause", .u8, .ro, rolesMH, 0, false, 0, 0, none⟩,
  ⟨0x3100, 0x35AF, 0x05, 0x05, "fail_time", .time64, .ro, rolesMH, 0, false, 0, 0, none⟩,
  ⟨0x3100, 0x35AF, 0x06, 0x06, "retired", .blob, .ro, rolesMH, 0, false, 192, 192, none⟩,
  ⟨0x3100, 0x35AF, 0x07, 0x07, "core_retire", .bool, .wo, rolesM, 0, false, 1, 1, none⟩,
  ⟨0x3100, 0x35AF, 0x08, 0x08, "core_unretire", .bool, .wo, rolesM, 0, false, 1, 1, none⟩,
  ⟨0x3100, 0x35AF, 0x09, 0x09, "sp_spares_used", .u8, .ro, rolesMH, 0, false, 0, 0, none⟩]

/-- The entries of 17_cascade.md. -/
def rows17 : List DictRow := [
  ⟨0x7000, 0x7000, 0x01, 0x01, "casc_state", .u8, .ro, rolesMHC, 0, false, 0, 0, none⟩,
  ⟨0x7000, 0x7000, 0x02, 0x02, "casc_role", .u8, .ro, rolesMHC, 0, false, 0, 0, none⟩,
  ⟨0x7000, 0x7000, 0x03, 0x03, "casc_cmd", .u8, .wo, rolesMH, 0, false, 1, 4, none⟩,
  ⟨0x7000, 0x7000, 0x04, 0x04, "casc_result", .u8, .ro, rolesMH, 0, false, 0, 0, none⟩,
  ⟨0x7000, 0x7000, 0x05, 0x05, "casc_shape", .u16, .rws, rolesMH, 0, false, 0, 65535, none⟩,
  ⟨0x7000, 0x7000, 0x06, 0x06, "members", .blob, .rws, rolesMH, 0, false, 128, 128, none⟩,
  ⟨0x7000, 0x7000, 0x07, 0x07, "member_index", .u8, .ro, rolesMHC, 255, false, 0, 0, none⟩,
  ⟨0x7000, 0x7000, 0x08, 0x08, "casc_instance", .u8, .rws, rolesMH, 255, false, 0, 11, none⟩,
  ⟨0x7000, 0x7000, 0x09, 0x09, "master_pref", .u64, .rws, rolesMH, 0, false, 0, 18446744073709551615, none⟩,
  ⟨0x7000, 0x7000, 0x0A, 0x0A, "master_eligible", .bool, .rws, rolesMH, 1, false, 0, 1, none⟩,
  ⟨0x7000, 0x7000, 0x0B, 0x0B, "master_serial", .u64, .ro, rolesMHC, 0, false, 0, 0, none⟩,
  ⟨0x7000, 0x7000, 0x0C, 0x0C, "swap_target", .u8, .rw, rolesMH, 0, false, 0, 15, none⟩,
  ⟨0x7000, 0x7000, 0x0D, 0x0D, "cfg_digest", .blob, .ro, rolesMHC, 0, false, 48, 48, none⟩,
  ⟨0x7000, 0x7000, 0x0E, 0x0E, "ctack_timeout", .u32, .rws, rolesMH, 500, false, 320, 10000, none⟩,
  ⟨0x7000, 0x7000, 0x0F, 0x0F, "seam_timeout", .u32, .rws, rolesMH, 100, false, 80, 10000, none⟩,
  ⟨0x7000, 0x7000, 0x10, 0x10, "bcast_timeout", .u32, .rws, rolesMH, 1000, false, 100, 60000, none⟩,
  ⟨0x7000, 0x7000, 0x11, 0x11, "hold_limit", .u32, .rws, rolesMH, 30, false, 1, 3600, none⟩,
  ⟨0x7000, 0x7000, 0x12, 0x12, "master_loss_timeout", .u32, .rws, rolesMH, 50, false, 10, 10000, none⟩,
  ⟨0x7000, 0x7000, 0x13, 0x13, "time_offset", .i64, .ro, rolesMH, 0, false, 0, 0, none⟩,
  ⟨0x7000, 0x7000, 0x14, 0x14, "time_resyncs", .u32, .ro, rolesMH, 0, false, 0, 0, none⟩,
  ⟨0x7000, 0x7000, 0x15, 0x15, "rejoins", .u32, .ro, rolesMH, 0, false, 0, 0, none⟩,
  ⟨0x7000, 0x7000, 0x16, 0x16, "unfit_reason", .u8, .ro, rolesMHC, 0, false, 0, 0, none⟩,
  ⟨0x7000, 0x7000, 0x17, 0x17, "ctack_seq", .u64, .ro, rolesMHC, 0, false, 0, 0, none⟩,
  ⟨0x7000, 0x7000, 0x18, 0x18, "tack_io_time", .time64, .ro, rolesMH, 0, false, 0, 0, none⟩,
  ⟨0x7010, 0x701F, 0x01, 0x01, "seam_state", .u8, .ro, rolesMH, 0, false, 0, 0, none⟩,
  ⟨0x7010, 0x701F, 0x02, 0x02, "seam_peer", .u64, .ro, rolesMH, 0, false, 0, 0, none⟩,
  ⟨0x7010, 0x701F, 0x03, 0x03, "seam_peer_seam", .u8, .ro, rolesMH, 255, false, 0, 0, none⟩,
  ⟨0x7010, 0x701F, 0x04, 0x04, "seam_replays", .u64, .ro, rolesMH, 0, false, 0, 0, none⟩,
  ⟨0x7010, 0x701F, 0x05, 0x05, "seam_lone", .u64, .ro, rolesMH, 0, false, 0, 0, none⟩,
  ⟨0x7010, 0x701F, 0x06, 0x06, "seam_retrain", .bool, .wo, rolesMH, 0, false, 1, 1, none⟩]

/-- The entries of 18_security_update.md. -/
def rows18 : List DictRow := [
  ⟨0x8000, 0x8000, 0x01, 0x01, "fw_state", .u8, .ro, rolesMHC, 0, false, 0, 0, none⟩,
  ⟨0x8000, 0x8000, 0x02, 0x02, "fw_cmd", .u8, .wo, rolesMHC, 0, false, 1, 5, none⟩,
  ⟨0x8000, 0x8000, 0x03, 0x03, "fw_result", .u8, .ro, rolesMHC, 0, false, 0, 0, none⟩,
  ⟨0x8000, 0x8000, 0x04, 0x04, "fw_data", .blob, .wo, rolesMHC, 0, false, 0, 67162112, none⟩,
  ⟨0x8000, 0x8000, 0x05, 0x05, "fw_next_offset", .u32, .ro, rolesMHC, 0, false, 0, 0, none⟩,
  ⟨0x8000, 0x8000, 0x06, 0x06, "fw_activate_at", .time64, .rw, rolesMHC, 0, false, 0, 18446744073709551615, none⟩,
  ⟨0x8000, 0x8000, 0x07, 0x07, "fw_image_version", .u32, .ro, rolesMHC, 0, false, 0, 0, none⟩,
  ⟨0x8000, 0x8000, 0x08, 0x08, "fw_image_digest", .blob, .ro, rolesMHC, 0, false, 48, 48, none⟩,
  ⟨0x8000, 0x8000, 0x09, 0x09, "fw_chunk_errors", .u32, .ro, rolesMH, 0, false, 0, 0, none⟩,
  ⟨0x8000, 0x8000, 0x0A, 0x0A, "fw_pending", .u8, .ro, rolesMH, 0, false, 0, 0, none⟩,
  ⟨0x8000, 0x8000, 0x0B, 0x0B, "fw_active_bank", .u8, .ro, rolesMH, 0, false, 0, 0, none⟩,
  ⟨0x8000, 0x8000, 0x0C, 0x0C, "svn_counter", .u8, .ro, rolesMHC, 0, false, 0, 0, none⟩,
  ⟨0x8000, 0x8000, 0x0D, 0x0D, "svn_hold", .u32, .rw, rolesM, 600, false, 60, 86400, none⟩,
  ⟨0x8010, 0x8010, 0x01, 0x01, "key_seq", .u32, .ro, rolesMH, 0, true, 0, 0, none⟩,
  ⟨0x8010, 0x8010, 0x02, 0x02, "key_slot", .u8, .ro, rolesMH, 0, true, 0, 0, none⟩,
  ⟨0x8010, 0x8010, 0x03, 0x03, "key_pkg", .blob, .wo, rolesM, 0, false, 5709, 5709, none⟩,
  ⟨0x8010, 0x8010, 0x04, 0x04, "key_cmd", .bool, .wo, rolesM, 0, false, 1, 1, none⟩,
  ⟨0x8010, 0x8010, 0x05, 0x05, "key_result", .u8, .ro, rolesMH, 0, false, 0, 0, none⟩,
  ⟨0x8020, 0x8020, 0x01, 0x01, "id_cert_chain", .blob, .ro, rolesMHC, 0, true, 0, 8192, none⟩,
  ⟨0x8020, 0x8020, 0x02, 0x02, "test_enable", .bool, .ro, rolesMH, 0, false, 0, 0, none⟩,
  ⟨0x8020, 0x8020, 0x03, 0x03, "dbg_challenge", .blob, .ro, rolesMH, 0, false, 32, 32, none⟩,
  ⟨0x8020, 0x8020, 0x04, 0x04, "dbg_response", .blob, .wo, rolesMH, 0, false, 96, 96, none⟩]

/-- Every entry of the dictionary. -/
def dictRows : List DictRow :=
  rows03 ++ rows04 ++ rows05 ++ rows06 ++ rows07 ++ rows08 ++ rows09 ++ rows10 ++ rows11 ++ rows12 ++ rows13 ++
  rows14 ++
  rows14b ++ rows15 ++ rows15b ++ rows16 ++ rows17 ++ rows18

/-- Whether a row covers an index and subindex. -/
def DictRow.covers (r : DictRow) (idx sub : Nat) : Bool :=
  (Nat.ble r.lo idx && Nat.ble idx r.hi) && (Nat.ble r.sub sub && Nat.ble sub r.subHi)

/-- The row of an index and subindex, none where no table has one (R411). -/
def dictRow (idx sub : Nat) : Option DictRow := dictRows.find? (fun r => r.covers idx sub)

/-- Width of an entry's value in bits (R400); 0 for BLOB and STR. -/
def DType.bits : DType → Nat
  | .bool => 8 | .u8 => 8 | .u16 => 16 | .u32 => 32 | .u64 => 64
  | .i16 => 16 | .i32 => 32 | .i64 => 64 | .f32 => 32 | .time64 => 64 | .blob => 0 | .str => 0

/-- Whether a type is a signed integer (R400). -/
def DType.signed : DType → Bool
  | .i16 | .i32 | .i64 => true
  | _ => false

/-- The value of an entry that nothing has written: its table default, or the part's factory value at the entry's width;
the grade is one of R3. -/
def dictDefault (key : Nat) : Nat :=
  match dictRow (key / 256) (key % 256) with
  | some r =>
    if r.name = "grade" then Config.factoryGrade.val
    else if r.factory then Config.factoryVal key % 2 ^ r.ty.bits
    else r.dflt
  | none => 0

/-- The bytes of a STR constant of the identity table (R412). -/
def strBytes (s : String) : List Byte := s.toList.map fun c => BitVec.ofNat 8 c.toNat

/-- The part number of a grade (R3). -/
def partOf (grade : Fin 3) : List Byte :=
  match grade with
  | 0 => strBytes "FJW2-A1152"
  | 1 => strBytes "FJW2-B1116"
  | 2 => strBytes "FJW2-C1080"

/-- The bytes of a BLOB or STR entry that nothing has written: its table default; the part number is that of the grade
(R3). -/
def blobDefault (key : Nat) : List Byte :=
  match dictRow (key / 256) (key % 256) with
  | some r =>
    if r.name = "part_number" then partOf Config.factoryGrade
    else if r.factory then Config.factoryBlob key
    else if r.name = "vendor" then strBytes "Scadeulo Systems"
    else if r.name = "product" then strBytes "Fjarnik W2"
    else if r.min = r.max then List.replicate r.max.toNat (BitVec.ofNat 8 r.dflt)
    else []
  | none => []

namespace K

/-- `fc_rate_log2`, U8 RW, index 0xA001 sub 0x01 (03_precision.md, R84). -/
def fcRateLog2 : Nat := 0xA001 * 256 + 0x01

/-- `fc_enable`, BOOL RW, index 0xA001 sub 0x02 (03_precision.md, R84). -/
def fcEnable : Nat := 0xA001 * 256 + 0x02

/-- `fc_seed`, U64 RW, index 0xA001 sub 0x03 (03_precision.md, R84). -/
def fcSeed : Nat := 0xA001 * 256 + 0x03

/-- `fc_samples`, U64 RO, index 0xA001 sub 0x04 (03_precision.md, R84). -/
def fcSamples : Nat := 0xA001 * 256 + 0x04

/-- `fc_flags`, U64 RO, index 0xA001 sub 0x05 (03_precision.md, R84). -/
def fcFlags : Nat := 0xA001 * 256 + 0x05

/-- `fc_skipped`, U64 RO, index 0xA001 sub 0x06 (03_precision.md, R84). -/
def fcSkipped : Nat := 0xA001 * 256 + 0x06

/-- `fc_dropped`, U64 RO, index 0xA001 sub 0x07 (03_precision.md, R84). -/
def fcDropped : Nat := 0xA001 * 256 + 0x07

/-- `fc_tainted`, U64 RO, index 0xA001 sub 0x08 (03_precision.md, R84). -/
def fcTainted : Nat := 0xA001 * 256 + 0x08

/-- `recipe_select`, BLOB RW, index 0x4000 + n sub 0x30 (03_precision.md, R87). -/
def recipeSelect (n : Nat) : Nat := (0x4000 + n) * 256 + 0x30

/-- `recipe_applied`, BLOB RO, index 0x4000 + n sub 0x31 (03_precision.md, R87). -/
def recipeApplied (n : Nat) : Nat := (0x4000 + n) * 256 + 0x31

/-- `recipe_generation`, BLOB RO, index 0x4000 + n sub 0x32 (03_precision.md, R87). -/
def recipeGeneration (n : Nat) : Nat := (0x4000 + n) * 256 + 0x32

/-- `recipe_switches`, U32 RO, index 0x4000 + n sub 0x33 (03_precision.md, R87). -/
def recipeSwitches (n : Nat) : Nat := (0x4000 + n) * 256 + 0x33

/-- `prec_status`, U32 RO, index 0x4000 + n sub 0x34 (03_precision.md, R87). -/
def precStatus (n : Nat) : Nat := (0x4000 + n) * 256 + 0x34

/-- `prec_clear`, U32 WO, index 0x4000 + n sub 0x35 (03_precision.md, R87). -/
def precClear (n : Nat) : Nat := (0x4000 + n) * 256 + 0x35

/-- `cc_core`, U16 RW, index 0xA020 sub 0x01 (04_core.md, R114). -/
def ccCore : Nat := 0xA020 * 256 + 0x01

/-- `cc_clear`, BOOL WO, index 0xA020 sub 0x02 (04_core.md, R114). -/
def ccClear : Nat := 0xA020 * 256 + 0x02

/-- `sp_corrected`, U64 RO, index 0xA020 sub 0x03 (04_core.md, R114). -/
def spCorrected : Nat := 0xA020 * 256 + 0x03

/-- `sp_uncorrectable`, U64 RO, index 0xA020 sub 0x04 (04_core.md, R114). -/
def spUncorrectable : Nat := 0xA020 * 256 + 0x04

/-- `port_lost`, U64 RO, index 0xA020 sub 0x10 + k (04_core.md, R114). -/
def portLost (k : Nat) : Nat := 0xA020 * 256 + (0x10 + k)

/-- `bank_conflict`, U64 RO, index 0xA020 sub 0x20 + k (04_core.md, R114). -/
def bankConflict (k : Nat) : Nat := 0xA020 * 256 + (0x20 + k)

/-- `rq_timeout`, U32 RW, index 0xA030 sub 0x01 (05_fabric.md, R157). -/
def rqTimeout : Nat := 0xA030 * 256 + 0x01

/-- `darn_generation`, U32 RO, index 0xA030 sub 0x02 (05_fabric.md, R157). -/
def darnGeneration : Nat := 0xA030 * 256 + 0x02

/-- `links_failed`, U16 RO, index 0xA030 sub 0x03 (05_fabric.md, R157). -/
def linksFailed : Nat := 0xA030 * 256 + 0x03

/-- `routers_failed`, U16 RO, index 0xA030 sub 0x04 (05_fabric.md, R157). -/
def routersFailed : Nat := 0xA030 * 256 + 0x04

/-- `lone_bursts`, U64 RO, index 0xA030 sub 0x05 (05_fabric.md, R157). -/
def loneBursts : Nat := 0xA030 * 256 + 0x05

/-- `replays`, U64 RO, index 0xA030 sub 0x06 (05_fabric.md, R157). -/
def replays : Nat := 0xA030 * 256 + 0x06

/-- `vc0_late`, U64 RO, index 0xA030 sub 0x07 (05_fabric.md, R157). -/
def vc0Late : Nat := 0xA030 * 256 + 0x07

/-- `red_overflows`, U64 RO, index 0xA030 sub 0x08 (05_fabric.md, R157). -/
def redOverflows : Nat := 0xA030 * 256 + 0x08

/-- `late_responses`, U64 RO, index 0xA030 sub 0x09 (05_fabric.md, R157). -/
def lateResponses : Nat := 0xA030 * 256 + 0x09

/-- `fenced_drops`, U64 RO, index 0xA030 sub 0x0A (05_fabric.md, R157). -/
def fencedDrops : Nat := 0xA030 * 256 + 0x0A

/-- `stale_drops`, U64 RO, index 0xA030 sub 0x0B (05_fabric.md, R157). -/
def staleDrops : Nat := 0xA030 * 256 + 0x0B

/-- `link_map`, BLOB RO, index 0xA030 sub 0x10 (05_fabric.md, R157). -/
def linkMap : Nat := 0xA030 * 256 + 0x10

/-- `hz_mode`, U8 RWS, index 0xA010 sub 0x01 (06_idmor_model.md, R184). -/
def hzMode : Nat := 0xA010 * 256 + 0x01

/-- `hz_count`, U64 RO, index 0xA010 sub 0x02 (06_idmor_model.md, R184). -/
def hzCount : Nat := 0xA010 * 256 + 0x02

/-- `hz_lost`, U64 RO, index 0xA010 sub 0x03 (06_idmor_model.md, R184). -/
def hzLost : Nat := 0xA010 * 256 + 0x03

/-- `traps`, U64 RO, index 0xA011 sub 0x01 (06_idmor_model.md, R184). -/
def traps : Nat := 0xA011 * 256 + 0x01

/-- `restarts`, U64 RO, index 0xA011 sub 0x02 (06_idmor_model.md, R184). -/
def restarts : Nat := 0xA011 * 256 + 0x02

/-- `arrival_drops`, U64 RO, index 0xA040 sub 0x01 (07_idmor_reference.md, R231). -/
def arrivalDrops : Nat := 0xA040 * 256 + 0x01

/-- `cand_drops`, U64 RO, index 0xA040 sub 0x02 (07_idmor_reference.md, R231). -/
def candDrops : Nat := 0xA040 * 256 + 0x02

/-- `vg_v`, U8 RO, index 0x3600 + n sub 0x01 (08_patterns_loader.md, R251). -/
def vgV (n : Nat) : Nat := (0x3600 + n) * 256 + 0x01

/-- `vg_map`, BLOB RO, index 0x3600 + n sub 0x02 (08_patterns_loader.md, R251). -/
def vgMap (n : Nat) : Nat := (0x3600 + n) * 256 + 0x02

/-- `vg_displaced`, U8 RO, index 0x3600 + n sub 0x03 (08_patterns_loader.md, R251). -/
def vgDisplaced (n : Nat) : Nat := (0x3600 + n) * 256 + 0x03

/-- `vg_borrowed`, U8 RO, index 0x3600 + n sub 0x04 (08_patterns_loader.md, R251). -/
def vgBorrowed (n : Nat) : Nat := (0x3600 + n) * 256 + 0x04

/-- `vg_lent`, U8 RO, index 0x3600 + n sub 0x05 (08_patterns_loader.md, R251). -/
def vgLent (n : Nat) : Nat := (0x3600 + n) * 256 + 0x05

/-- `vg_generation`, U32 RO, index 0x3600 + n sub 0x06 (08_patterns_loader.md, R251). -/
def vgGeneration (n : Nat) : Nat := (0x3600 + n) * 256 + 0x06

/-- `kv_geometry`, U64 RO, index 0x6100 + n sub 0x01 (09_attention_kv.md, R280). -/
def kvGeometry (n : Nat) : Nat := (0x6100 + n) * 256 + 0x01

/-- `pool_pages`, U32 RO, index 0x6100 + n sub 0x02 (09_attention_kv.md, R280). -/
def poolPages (n : Nat) : Nat := (0x6100 + n) * 256 + 0x02

/-- `pool_free`, U32 RO, index 0x6100 + n sub 0x03 (09_attention_kv.md, R280). -/
def poolFree (n : Nat) : Nat := (0x6100 + n) * 256 + 0x03

/-- `low_wm`, U32 RW, index 0x6100 + n sub 0x04 (09_attention_kv.md, R280). -/
def lowWm (n : Nat) : Nat := (0x6100 + n) * 256 + 0x04

/-- `high_wm`, U32 RW, index 0x6100 + n sub 0x05 (09_attention_kv.md, R280). -/
def highWm (n : Nat) : Nat := (0x6100 + n) * 256 + 0x05

/-- `kv_stall_limit`, U32 RW, index 0x6100 + n sub 0x06 (09_attention_kv.md, R280). -/
def kvStallLimit (n : Nat) : Nat := (0x6100 + n) * 256 + 0x06

/-- `zeroing`, U32 RO, index 0x6100 + n sub 0x07 (09_attention_kv.md, R280). -/
def zeroing (n : Nat) : Nat := (0x6100 + n) * 256 + 0x07

/-- `preemptions`, U64 RO, index 0x6100 + n sub 0x08 (09_attention_kv.md, R280). -/
def preemptions (n : Nat) : Nat := (0x6100 + n) * 256 + 0x08

/-- `pages_out`, U64 RO, index 0x6100 + n sub 0x09 (09_attention_kv.md, R280). -/
def pagesOut (n : Nat) : Nat := (0x6100 + n) * 256 + 0x09

/-- `pages_in`, U64 RO, index 0x6100 + n sub 0x0A (09_attention_kv.md, R280). -/
def pagesIn (n : Nat) : Nat := (0x6100 + n) * 256 + 0x0A

/-- `swap_errors`, U64 RO, index 0x6100 + n sub 0x0B (09_attention_kv.md, R280). -/
def swapErrors (n : Nat) : Nat := (0x6100 + n) * 256 + 0x0B

/-- `walk_errors`, U64 RO, index 0x6100 + n sub 0x0C (09_attention_kv.md, R280). -/
def walkErrors (n : Nat) : Nat := (0x6100 + n) * 256 + 0x0C

/-- `hot_slots`, U16 RO, index 0x6100 + n sub 0x0D (09_attention_kv.md, R280). -/
def hotSlots (n : Nat) : Nat := (0x6100 + n) * 256 + 0x0D

/-- `dedup_window`, U32 RW, index 0x6000 sub 0x01 (10_serving.md, R319). -/
def dedupWindow : Nat := 0x6000 * 256 + 0x01

/-- `dedup_entries`, U32 RWS, index 0x6000 sub 0x02 (10_serving.md, R319). -/
def dedupEntries : Nat := 0x6000 * 256 + 0x02

/-- `frp_port`, U16 RWS, index 0x6000 sub 0x03 (10_serving.md, R319). -/
def frpPort : Nat := 0x6000 * 256 + 0x03

/-- `frp_rto`, U32 RW, index 0x6000 sub 0x04 (10_serving.md, R319). -/
def frpRto : Nat := 0x6000 * 256 + 0x04

/-- `frp_retries`, U8 RW, index 0x6000 sub 0x05 (10_serving.md, R319). -/
def frpRetries : Nat := 0x6000 * 256 + 0x05

/-- `frp_bad`, U64 RO, index 0x6000 sub 0x06 (10_serving.md, R319). -/
def frpBad : Nat := 0x6000 * 256 + 0x06

/-- `seq_live`, U32 RO, index 0x6000 sub 0x07 (10_serving.md, R319). -/
def seqLive : Nat := 0x6000 * 256 + 0x07

/-- `draft_instance`, U8 RWS, index 0x6010 + n sub 0x01 (10_serving.md, R320). -/
def draftInstance (n : Nat) : Nat := (0x6010 + n) * 256 + 0x01

/-- `prefill_min`, U8 RW, index 0x6010 + n sub 0x02 (10_serving.md, R320). -/
def prefillMin (n : Nat) : Nat := (0x6010 + n) * 256 + 0x02

/-- `prefill_max`, U8 RW, index 0x6010 + n sub 0x03 (10_serving.md, R320). -/
def prefillMax (n : Nat) : Nat := (0x6010 + n) * 256 + 0x03

/-- `prefill_chunk`, U16 RW, index 0x6010 + n sub 0x04 (10_serving.md, R320). -/
def prefillChunk (n : Nat) : Nat := (0x6010 + n) * 256 + 0x04

/-- `decode_rows_max`, U16 RW, index 0x6010 + n sub 0x05 (10_serving.md, R320). -/
def decodeRowsMax (n : Nat) : Nat := (0x6010 + n) * 256 + 0x05

/-- `seq_limit`, U32 RW, index 0x6010 + n sub 0x06 (10_serving.md, R320). -/
def seqLimit (n : Nat) : Nat := (0x6010 + n) * 256 + 0x06

/-- `steps_decode`, U64 RO, index 0x6010 + n sub 0x07 (10_serving.md, R320). -/
def stepsDecode (n : Nat) : Nat := (0x6010 + n) * 256 + 0x07

/-- `steps_prefill`, U64 RO, index 0x6010 + n sub 0x08 (10_serving.md, R320). -/
def stepsPrefill (n : Nat) : Nat := (0x6010 + n) * 256 + 0x08

/-- `tokens_emitted`, U64 RO, index 0x6010 + n sub 0x09 (10_serving.md, R320). -/
def srvTokensEmitted (n : Nat) : Nat := (0x6010 + n) * 256 + 0x09

/-- `ttft_violations`, U64 RO, index 0x6010 + n sub 0x0A (10_serving.md, R320). -/
def srvTtftViolations (n : Nat) : Nat := (0x6010 + n) * 256 + 0x0A

/-- `tbt_violations`, U64 RO, index 0x6010 + n sub 0x0B (10_serving.md, R320). -/
def srvTbtViolations (n : Nat) : Nat := (0x6010 + n) * 256 + 0x0B

/-- `drafts_proposed`, U64 RO, index 0x6010 + n sub 0x0C (10_serving.md, R320). -/
def draftsProposed (n : Nat) : Nat := (0x6010 + n) * 256 + 0x0C

/-- `drafts_accepted`, U64 RO, index 0x6010 + n sub 0x0D (10_serving.md, R320). -/
def draftsAccepted (n : Nat) : Nat := (0x6010 + n) * 256 + 0x0D

/-- `duplicates`, U64 RO, index 0x6010 + n sub 0x0E (10_serving.md, R320). -/
def duplicates (n : Nat) : Nat := (0x6010 + n) * 256 + 0x0E

/-- `key_conflicts`, U64 RO, index 0x6010 + n sub 0x0F (10_serving.md, R320). -/
def keyConflicts (n : Nat) : Nat := (0x6010 + n) * 256 + 0x0F

/-- `penalty_inexact`, U64 RO, index 0x6010 + n sub 0x10 (10_serving.md, R320). -/
def penaltyInexact (n : Nat) : Nat := (0x6010 + n) * 256 + 0x10

/-- `taint_tokens`, U64 RO, index 0x6010 + n sub 0x11 (10_serving.md, R320). -/
def taintTokens (n : Nat) : Nat := (0x6010 + n) * 256 + 0x11

/-- `inst_state`, U8 RO, index 0x4000 + n sub 0x01 (11_models.md, R325). -/
def instState (n : Nat) : Nat := (0x4000 + n) * 256 + 0x01

/-- `inst_cols`, U8 RW, index 0x4000 + n sub 0x02 (11_models.md, R325). -/
def instCols (n : Nat) : Nat := (0x4000 + n) * 256 + 0x02

/-- `inst_rows`, U8 RW, index 0x4000 + n sub 0x03 (11_models.md, R325). -/
def instRows (n : Nat) : Nat := (0x4000 + n) * 256 + 0x03

/-- `inst_cmd`, U8 WO, index 0x4000 + n sub 0x04 (11_models.md, R325). -/
def instCmd (n : Nat) : Nat := (0x4000 + n) * 256 + 0x04

/-- `cmd_result`, U8 RO, index 0x4000 + n sub 0x05 (11_models.md, R325). -/
def instCmdResult (n : Nat) : Nat := (0x4000 + n) * 256 + 0x05

/-- `fault_code`, U8 RO, index 0x4000 + n sub 0x06 (11_models.md, R325). -/
def faultCode (n : Nat) : Nat := (0x4000 + n) * 256 + 0x06

/-- `load_src`, U64 RW, index 0x4000 + n sub 0x07 (11_models.md, R325). -/
def loadSrc (n : Nat) : Nat := (0x4000 + n) * 256 + 0x07

/-- `pattern_src`, U64 RW, index 0x4000 + n sub 0x08 (11_models.md, R325). -/
def patternSrc (n : Nat) : Nat := (0x4000 + n) * 256 + 0x08

/-- `pattern_len`, U64 RW, index 0x4000 + n sub 0x09 (11_models.md, R325). -/
def patternLen (n : Nat) : Nat := (0x4000 + n) * 256 + 0x09

/-- `golden_place`, U8 RW, index 0x4000 + n sub 0x0A (11_models.md, R325). -/
def goldenPlace (n : Nat) : Nat := (0x4000 + n) * 256 + 0x0A

/-- `golden_dst`, U64 RW, index 0x4000 + n sub 0x0B (11_models.md, R325). -/
def goldenDst (n : Nat) : Nat := (0x4000 + n) * 256 + 0x0B

/-- `load_status`, U32 RO, index 0x4000 + n sub 0x0C (11_models.md, R325). -/
def loadStatus (n : Nat) : Nat := (0x4000 + n) * 256 + 0x0C

/-- `shards_done`, U32 RO, index 0x4000 + n sub 0x0D (11_models.md, R325). -/
def shardsDone (n : Nat) : Nat := (0x4000 + n) * 256 + 0x0D

/-- `model_digest`, BLOB RO, index 0x4000 + n sub 0x0E (11_models.md, R325). -/
def modelDigest (n : Nat) : Nat := (0x4000 + n) * 256 + 0x0E

/-- `model_expect`, BLOB RW, index 0x4000 + n sub 0x0F (11_models.md, R325). -/
def modelExpect (n : Nat) : Nat := (0x4000 + n) * 256 + 0x0F

/-- `require_signed`, BOOL RW, index 0x4000 + n sub 0x10 (11_models.md, R325). -/
def requireSigned (n : Nat) : Nat := (0x4000 + n) * 256 + 0x10

/-- `recheck_interval`, U32 RW, index 0x4000 + n sub 0x11 (11_models.md, R325). -/
def recheckInterval (n : Nat) : Nat := (0x4000 + n) * 256 + 0x11

/-- `recheck_last`, TIME64 RO, index 0x4000 + n sub 0x12 (11_models.md, R325). -/
def recheckLast (n : Nat) : Nat := (0x4000 + n) * 256 + 0x12

/-- `recheck_mismatch`, U32 RO, index 0x4000 + n sub 0x13 (11_models.md, R325). -/
def recheckMismatch (n : Nat) : Nat := (0x4000 + n) * 256 + 0x13

/-- `recheck_late`, U32 RO, index 0x4000 + n sub 0x14 (11_models.md, R325). -/
def recheckLate (n : Nat) : Nat := (0x4000 + n) * 256 + 0x14

/-- `alt_index`, U16 RW, index 0x4200 + n sub 0x01 (11_models.md, R343). -/
def altIndex (n : Nat) : Nat := (0x4200 + n) * 256 + 0x01

/-- `alt_data`, BLOB WO, index 0x4200 + n sub 0x02 (11_models.md, R343). -/
def altData (n : Nat) : Nat := (0x4200 + n) * 256 + 0x02

/-- `alt_cmd`, U8 WO, index 0x4200 + n sub 0x03 (11_models.md, R343). -/
def altCmd (n : Nat) : Nat := (0x4200 + n) * 256 + 0x03

/-- `alt_result`, U8 RO, index 0x4200 + n sub 0x04 (11_models.md, R343). -/
def altResult (n : Nat) : Nat := (0x4200 + n) * 256 + 0x04

/-- `alt_used`, U16 RO, index 0x4200 + n sub 0x05 (11_models.md, R343). -/
def altUsed (n : Nat) : Nat := (0x4200 + n) * 256 + 0x05

/-- `alt_digest`, BLOB RO, index 0x4200 + n sub 0x06 (11_models.md, R343). -/
def altDigest (n : Nat) : Nat := (0x4200 + n) * 256 + 0x06

/-- `pub_key`, BLOB RWS, index 0x4100 sub 0x01 + k (11_models.md, R347). -/
def pubKey (k : Nat) : Nat := 0x4100 * 256 + (0x01 + k)

/-- `model_layers`, U16 RO, index 0x4110 + n sub 0x01 (11_models.md, R347). -/
def modelLayers (n : Nat) : Nat := (0x4110 + n) * 256 + 0x01

/-- `model_vocab`, U32 RO, index 0x4110 + n sub 0x02 (11_models.md, R347). -/
def modelVocab (n : Nat) : Nat := (0x4110 + n) * 256 + 0x02

/-- `model_context`, U32 RO, index 0x4110 + n sub 0x03 (11_models.md, R347). -/
def modelContext (n : Nat) : Nat := (0x4110 + n) * 256 + 0x03

/-- `model_draft_heads`, U8 RO, index 0x4110 + n sub 0x04 (11_models.md, R347). -/
def modelDraftHeads (n : Nat) : Nat := (0x4110 + n) * 256 + 0x04

/-- `model_name`, STR RO, index 0x4110 + n sub 0x05 (11_models.md, R347). -/
def modelName (n : Nat) : Nat := (0x4110 + n) * 256 + 0x05

/-- `model_key_id`, U64 RO, index 0x4110 + n sub 0x06 (11_models.md, R347). -/
def modelKeyId (n : Nat) : Nat := (0x4110 + n) * 256 + 0x06

/-- `journal`, BLOB RO, index 0x4120 sub 0x01 (11_models.md, R347). -/
def journal : Nat := 0x4120 * 256 + 0x01

/-- `slot_state`, U8 RO, index 0x5000 + n sub 0x01 (12_tenants.md, R370). -/
def slotState (n : Nat) : Nat := (0x5000 + n) * 256 + 0x01

/-- `slot_cmd`, U8 WO, index 0x5000 + n sub 0x02 (12_tenants.md, R370). -/
def slotCmd (n : Nat) : Nat := (0x5000 + n) * 256 + 0x02

/-- `cmd_result`, U8 RO, index 0x5000 + n sub 0x03 (12_tenants.md, R370). -/
def slotCmdResult (n : Nat) : Nat := (0x5000 + n) * 256 + 0x03

/-- `slot_instance`, U8 RWS, index 0x5000 + n sub 0x04 (12_tenants.md, R370). -/
def slotInstance (n : Nat) : Nat := (0x5000 + n) * 256 + 0x04

/-- `transport`, U8 RWS, index 0x5000 + n sub 0x05 (12_tenants.md, R370). -/
def transport (n : Nat) : Nat := (0x5000 + n) * 256 + 0x05

/-- `drain_deadline`, U32 RW, index 0x5000 + n sub 0x06 (12_tenants.md, R370). -/
def drainDeadline (n : Nat) : Nat := (0x5000 + n) * 256 + 0x06

/-- `priority`, U8 RW, index 0x5000 + n sub 0x07 (12_tenants.md, R370). -/
def priority (n : Nat) : Nat := (0x5000 + n) * 256 + 0x07

/-- `weight`, U16 RW, index 0x5000 + n sub 0x08 (12_tenants.md, R370). -/
def weight (n : Nat) : Nat := (0x5000 + n) * 256 + 0x08

/-- `ttft_target`, U32 RW, index 0x5000 + n sub 0x09 (12_tenants.md, R370). -/
def ttftTarget (n : Nat) : Nat := (0x5000 + n) * 256 + 0x09

/-- `tbt_target`, U32 RW, index 0x5000 + n sub 0x0A (12_tenants.md, R370). -/
def tbtTarget (n : Nat) : Nat := (0x5000 + n) * 256 + 0x0A

/-- `page_quota`, U32 RW, index 0x5000 + n sub 0x0B (12_tenants.md, R370). -/
def pageQuota (n : Nat) : Nat := (0x5000 + n) * 256 + 0x0B

/-- `swap_base`, U64 RWS, index 0x5000 + n sub 0x0C (12_tenants.md, R370). -/
def swapBase (n : Nat) : Nat := (0x5000 + n) * 256 + 0x0C

/-- `swap_slots`, U32 RWS, index 0x5000 + n sub 0x0D (12_tenants.md, R370). -/
def swapSlots (n : Nat) : Nat := (0x5000 + n) * 256 + 0x0D

/-- `frp_key`, BLOB WO, index 0x5000 + n sub 0x0E (12_tenants.md, R370). -/
def frpKey (n : Nat) : Nat := (0x5000 + n) * 256 + 0x0E

/-- `alt_binding`, U16 RW, index 0x5000 + n sub 0x0F (12_tenants.md, R370). -/
def altBinding (n : Nat) : Nat := (0x5000 + n) * 256 + 0x0F

/-- `irq_coalesce_us`, U16 RW, index 0x5000 + n sub 0x10 (12_tenants.md, R370). -/
def irqCoalesceUs (n : Nat) : Nat := (0x5000 + n) * 256 + 0x10

/-- `irq_coalesce_count`, U16 RW, index 0x5000 + n sub 0x11 (12_tenants.md, R370). -/
def irqCoalesceCount (n : Nat) : Nat := (0x5000 + n) * 256 + 0x11

/-- `enable_pending`, BOOL RO, index 0x5000 + n sub 0x12 (12_tenants.md, R370). -/
def enablePending (n : Nat) : Nat := (0x5000 + n) * 256 + 0x12

/-- `zero_left`, U32 RO, index 0x5000 + n sub 0x13 (12_tenants.md, R370). -/
def zeroLeft (n : Nat) : Nat := (0x5000 + n) * 256 + 0x13

/-- `epoch`, U32 RO, index 0x5000 + n sub 0x14 (12_tenants.md, R370). -/
def epoch (n : Nat) : Nat := (0x5000 + n) * 256 + 0x14

/-- `pages_resident`, U32 RO, index 0x5000 + n sub 0x20 (12_tenants.md, R370). -/
def pagesResident (n : Nat) : Nat := (0x5000 + n) * 256 + 0x20

/-- `swap_used`, U32 RO, index 0x5000 + n sub 0x21 (12_tenants.md, R370). -/
def swapUsed (n : Nat) : Nat := (0x5000 + n) * 256 + 0x21

/-- `requests_accepted`, U64 RO, index 0x5000 + n sub 0x22 (12_tenants.md, R370). -/
def requestsAccepted (n : Nat) : Nat := (0x5000 + n) * 256 + 0x22

/-- `requests_aborted`, U64 RO, index 0x5000 + n sub 0x23 (12_tenants.md, R370). -/
def requestsAborted (n : Nat) : Nat := (0x5000 + n) * 256 + 0x23

/-- `tokens_emitted`, U64 RO, index 0x5000 + n sub 0x24 (12_tenants.md, R370). -/
def slotTokensEmitted (n : Nat) : Nat := (0x5000 + n) * 256 + 0x24

/-- `ttft_violations`, U64 RO, index 0x5000 + n sub 0x25 (12_tenants.md, R370). -/
def slotTtftViolations (n : Nat) : Nat := (0x5000 + n) * 256 + 0x25

/-- `tbt_violations`, U64 RO, index 0x5000 + n sub 0x26 (12_tenants.md, R370). -/
def slotTbtViolations (n : Nat) : Nat := (0x5000 + n) * 256 + 0x26

/-- `tbt_intervals`, U64 RO, index 0x5000 + n sub 0x27 (12_tenants.md, R370). -/
def tbtIntervals (n : Nat) : Nat := (0x5000 + n) * 256 + 0x27

/-- `rows_served`, U64 RO, index 0x5000 + n sub 0x28 (12_tenants.md, R370). -/
def rowsServed (n : Nat) : Nat := (0x5000 + n) * 256 + 0x28

/-- `completions_lost`, U32 RO, index 0x5000 + n sub 0x29 (12_tenants.md, R370). -/
def completionsLost (n : Nat) : Nat := (0x5000 + n) * 256 + 0x29

/-- `ring_errors`, U32 RO, index 0x5000 + n sub 0x2A (12_tenants.md, R370). -/
def ringErrors (n : Nat) : Nat := (0x5000 + n) * 256 + 0x2A

/-- `acct_clear`, BOOL WO, index 0x5000 + n sub 0x2B (12_tenants.md, R370). -/
def acctClear (n : Nat) : Nat := (0x5000 + n) * 256 + 0x2B

/-- `sb_func`, U8 RW, index 0xA100 + n sub 0x01 (13_external.md, R390). -/
def sbFunc (n : Nat) : Nat := (0xA100 + n) * 256 + 0x01

/-- `sb_out`, BOOL RW, index 0xA100 + n sub 0x02 (13_external.md, R390). -/
def sbOut (n : Nat) : Nat := (0xA100 + n) * 256 + 0x02

/-- `sb_in`, BOOL RO, index 0xA100 + n sub 0x03 (13_external.md, R390). -/
def sbIn (n : Nat) : Nat := (0xA100 + n) * 256 + 0x03

/-- `sb_pull`, U8 RW, index 0xA100 + n sub 0x04 (13_external.md, R390). -/
def sbPull (n : Nat) : Nat := (0xA100 + n) * 256 + 0x04

/-- `sb_param`, U32 RW, index 0xA100 + n sub 0x05 (13_external.md, R390). -/
def sbParam (n : Nat) : Nat := (0xA100 + n) * 256 + 0x05

/-- `sb_state`, U8 RO, index 0xA100 + n sub 0x06 (13_external.md, R390). -/
def sbState (n : Nat) : Nat := (0xA100 + n) * 256 + 0x06

/-- `hbm_state`, U8 RO, index 0xA050 + n sub 0x01 (13_external.md, R394). -/
def hbmState (n : Nat) : Nat := (0xA050 + n) * 256 + 0x01

/-- `hbm_temp`, I32 RO, index 0xA050 + n sub 0x02 (13_external.md, R394). -/
def hbmTemp (n : Nat) : Nat := (0xA050 + n) * 256 + 0x02

/-- `ecc_corrected`, U64 RO, index 0xA050 + n sub 0x03 (13_external.md, R394). -/
def eccCorrected (n : Nat) : Nat := (0xA050 + n) * 256 + 0x03

/-- `ecc_uncorrectable`, U64 RO, index 0xA050 + n sub 0x04 (13_external.md, R394). -/
def eccUncorrectable (n : Nat) : Nat := (0xA050 + n) * 256 + 0x04

/-- `lane_repairs`, U8 RO, index 0xA050 + n sub 0x05 (13_external.md, R394). -/
def laneRepairs (n : Nat) : Nat := (0xA050 + n) * 256 + 0x05

/-- `hbm_timeout`, U32 RW, index 0xA050 + n sub 0x06 (13_external.md, R394). -/
def hbmTimeout (n : Nat) : Nat := (0xA050 + n) * 256 + 0x06

/-- `hbm_retrain`, BOOL WO, index 0xA050 + n sub 0x07 (13_external.md, R394). -/
def hbmRetrain (n : Nat) : Nat := (0xA050 + n) * 256 + 0x07

/-- `pcie_rate`, U8 RO, index 0xA060 + n sub 0x01 (13_external.md, R394). -/
def pcieRate (n : Nat) : Nat := (0xA060 + n) * 256 + 0x01

/-- `pcie_width`, U8 RO, index 0xA060 + n sub 0x02 (13_external.md, R394). -/
def pcieWidth (n : Nat) : Nat := (0xA060 + n) * 256 + 0x02

/-- `pcie_max_rate`, U8 RW, index 0xA060 + n sub 0x03 (13_external.md, R394). -/
def pcieMaxRate (n : Nat) : Nat := (0xA060 + n) * 256 + 0x03

/-- `cpl_timeout`, U32 RW, index 0xA060 + n sub 0x04 (13_external.md, R394). -/
def cplTimeout (n : Nat) : Nat := (0xA060 + n) * 256 + 0x04

/-- `link_downs`, U32 RO, index 0xA060 + n sub 0x05 (13_external.md, R394). -/
def linkDowns (n : Nat) : Nat := (0xA060 + n) * 256 + 0x05

/-- `pcie_replays`, U64 RO, index 0xA060 + n sub 0x06 (13_external.md, R394). -/
def pcieReplays (n : Nat) : Nat := (0xA060 + n) * 256 + 0x06

/-- `cpl_timeouts`, U64 RO, index 0xA060 + n sub 0x07 (13_external.md, R394). -/
def cplTimeouts (n : Nat) : Nat := (0xA060 + n) * 256 + 0x07

/-- `host_errors`, U64 RO, index 0xA060 + n sub 0x08 (13_external.md, R394). -/
def hostErrors (n : Nat) : Nat := (0xA060 + n) * 256 + 0x08

/-- `pcie_retrain`, BOOL WO, index 0xA060 + n sub 0x09 (13_external.md, R394). -/
def pcieRetrain (n : Nat) : Nat := (0xA060 + n) * 256 + 0x09

/-- `eth_link`, U8 RO, index 0xA068 + n sub 0x01 (13_external.md, R394). -/
def ethLink (n : Nat) : Nat := (0xA068 + n) * 256 + 0x01

/-- `eth_mode`, U8 RWS, index 0xA068 + n sub 0x02 (13_external.md, R394). -/
def ethMode (n : Nat) : Nat := (0xA068 + n) * 256 + 0x02

/-- `eth_mac`, U64 RO, index 0xA068 + n sub 0x03 (13_external.md, R394). -/
def ethMac (n : Nat) : Nat := (0xA068 + n) * 256 + 0x03

/-- `eth_ipv6`, BLOB RW, index 0xA068 + n sub 0x04 (13_external.md, R394). -/
def ethIpv6 (n : Nat) : Nat := (0xA068 + n) * 256 + 0x04

/-- `eth_ipv4`, U32 RW, index 0xA068 + n sub 0x05 (13_external.md, R394). -/
def ethIpv4 (n : Nat) : Nat := (0xA068 + n) * 256 + 0x05

/-- `eth_vlan`, U16 RW, index 0xA068 + n sub 0x06 (13_external.md, R394). -/
def ethVlan (n : Nat) : Nat := (0xA068 + n) * 256 + 0x06

/-- `fec_corrected`, U64 RO, index 0xA068 + n sub 0x07 (13_external.md, R394). -/
def fecCorrected (n : Nat) : Nat := (0xA068 + n) * 256 + 0x07

/-- `fec_uncorrected`, U64 RO, index 0xA068 + n sub 0x08 (13_external.md, R394). -/
def fecUncorrected (n : Nat) : Nat := (0xA068 + n) * 256 + 0x08

/-- `frames_dropped`, U64 RO, index 0xA068 + n sub 0x09 (13_external.md, R394). -/
def framesDropped (n : Nat) : Nat := (0xA068 + n) * 256 + 0x09

/-- `eth_retrain`, BOOL WO, index 0xA068 + n sub 0x0A (13_external.md, R394). -/
def ethRetrain (n : Nat) : Nat := (0xA068 + n) * 256 + 0x0A

/-- `baste_count`, U16 RO, index 0x1200 sub 0x01 (14_zwiys.md, R408). -/
def basteCount : Nat := 0x1200 * 256 + 0x01

/-- `commit`, BOOL WO, index 0x1200 sub 0x02 (14_zwiys.md, R408). -/
def commit : Nat := 0x1200 * 256 + 0x02

/-- `discard`, BOOL WO, index 0x1200 sub 0x03 (14_zwiys.md, R408). -/
def discard : Nat := 0x1200 * 256 + 0x03

/-- `commit_state`, U8 RO, index 0x1200 sub 0x04 (14_zwiys.md, R408). -/
def commitState : Nat := 0x1200 * 256 + 0x04

/-- `commit_result`, U32 RO, index 0x1200 sub 0x05 (14_zwiys.md, R408). -/
def commitResult : Nat := 0x1200 * 256 + 0x05

/-- `commit_seq`, U32 RO, index 0x1200 sub 0x06 (14_zwiys.md, R408). -/
def commitSeq : Nat := 0x1200 * 256 + 0x06

/-- `baste_scope`, U8 RO, index 0x1200 sub 0x07 (14_zwiys.md, R408). -/
def basteScope : Nat := 0x1200 * 256 + 0x07

/-- `baste_timeout`, U32 RW, index 0x1200 sub 0x08 (14_zwiys.md, R408). -/
def basteTimeout : Nat := 0x1200 * 256 + 0x08

/-- `commit_time`, TIME64 RO, index 0x1200 sub 0x09 (14_zwiys.md, R408). -/
def commitTime : Nat := 0x1200 * 256 + 0x09

/-- `vendor`, STR CONST, index 0x1000 sub 0x01 (14_zwiys.md, R412). -/
def vendor : Nat := 0x1000 * 256 + 0x01

/-- `product`, STR CONST, index 0x1000 sub 0x02 (14_zwiys.md, R412). -/
def product : Nat := 0x1000 * 256 + 0x02

/-- `part_number`, STR CONST, index 0x1000 sub 0x03 (14_zwiys.md, R412). -/
def partNumber : Nat := 0x1000 * 256 + 0x03

/-- `grade`, U8 CONST, index 0x1000 sub 0x04 (14_zwiys.md, R412). -/
def grade : Nat := 0x1000 * 256 + 0x04

/-- `serial`, U64 CONST, index 0x1000 sub 0x05 (14_zwiys.md, R412). -/
def serial : Nat := 0x1000 * 256 + 0x05

/-- `silicon_rev`, U8 CONST, index 0x1000 sub 0x06 (14_zwiys.md, R412). -/
def siliconRev : Nat := 0x1000 * 256 + 0x06

/-- `idcode`, U32 CONST, index 0x1000 sub 0x07 (14_zwiys.md, R412). -/
def idcode : Nat := 0x1000 * 256 + 0x07

/-- `fw_version`, U32 RO, index 0x1000 sub 0x08 (14_zwiys.md, R412). -/
def fwVersion : Nat := 0x1000 * 256 + 0x08

/-- `good_cores`, U16 RO, index 0x1000 sub 0x09 (14_zwiys.md, R412). -/
def goodCores : Nat := 0x1000 * 256 + 0x09

/-- `uptime`, U64 RO, index 0x1000 sub 0x0A (14_zwiys.md, R412). -/
def uptime : Nat := 0x1000 * 256 + 0x0A

/-- `time_now`, TIME64 RO, index 0x1000 sub 0x0B (14_zwiys.md, R412). -/
def timeNow : Nat := 0x1000 * 256 + 0x0B

/-- `zwiys_version`, U8 CONST, index 0x1000 sub 0x0C (14_zwiys.md, R412). -/
def zwiysVersion : Nat := 0x1000 * 256 + 0x0C

/-- `zw_port`, U16 CONST, index 0x1100 sub 0x01 (14_zwiys.md, R413). -/
def zwPort : Nat := 0x1100 * 256 + 0x01

/-- `seg_enable`, BOOL RW, index 0x1101 + n sub 0x01 (14_zwiys.md, R413). -/
def segEnable (n : Nat) : Nat := (0x1101 + n) * 256 + 0x01

/-- `plca_node`, U8 RWS, index 0x1101 + n sub 0x02 (14_zwiys.md, R413). -/
def plcaNode (n : Nat) : Nat := (0x1101 + n) * 256 + 0x02

/-- `plca_count`, U8 RWS, index 0x1101 + n sub 0x03 (14_zwiys.md, R413). -/
def plcaCount (n : Nat) : Nat := (0x1101 + n) * 256 + 0x03

/-- `seg_ipv6`, BLOB RWS, index 0x1101 + n sub 0x04 (14_zwiys.md, R413). -/
def segIpv6 (n : Nat) : Nat := (0x1101 + n) * 256 + 0x04

/-- `seg_ipv4`, U32 RWS, index 0x1101 + n sub 0x05 (14_zwiys.md, R413). -/
def segIpv4 (n : Nat) : Nat := (0x1101 + n) * 256 + 0x05

/-- `seg_prefix`, U8 RWS, index 0x1101 + n sub 0x06 (14_zwiys.md, R413). -/
def segPrefix (n : Nat) : Nat := (0x1101 + n) * 256 + 0x06

/-- `seg_link`, U8 RO, index 0x1101 + n sub 0x07 (14_zwiys.md, R413). -/
def segLink (n : Nat) : Nat := (0x1101 + n) * 256 + 0x07

/-- `sessions_open`, U8 RO, index 0x1103 sub 0x01 (14_zwiys.md, R413). -/
def sessionsOpen : Nat := 0x1103 * 256 + 0x01

/-- `idle_timeout`, U32 RW, index 0x1103 sub 0x02 (14_zwiys.md, R413). -/
def idleTimeout : Nat := 0x1103 * 256 + 0x02

/-- `client_table`, BLOB RW, index 0x1103 sub 0x03 (14_zwiys.md, R413). -/
def clientTable : Nat := 0x1103 * 256 + 0x03

/-- `sessions_refused`, U32 RO, index 0x1103 sub 0x04 (14_zwiys.md, R413). -/
def sessionsRefused : Nat := 0x1103 * 256 + 0x04

/-- `mbx_ignored`, U32 RO, index 0x1103 sub 0x05 (14_zwiys.md, R413). -/
def mbxIgnored : Nat := 0x1103 * 256 + 0x05

/-- `notify_lost`, U32 RO, index 0x1103 sub 0x06 (14_zwiys.md, R413). -/
def notifyLost : Nat := 0x1103 * 256 + 0x06

/-- `mctp_eid`, U8 RO, index 0x1104 sub 0x01 (14_zwiys.md, R413). -/
def mctpEid : Nat := 0x1104 * 256 + 0x01

/-- `ptp_domain`, U8 RW, index 0x1105 sub 0x01 (14_zwiys.md, R413). -/
def ptpDomain : Nat := 0x1105 * 256 + 0x01

/-- `ptp_state`, U8 RO, index 0x1105 sub 0x02 (14_zwiys.md, R413). -/
def ptpState : Nat := 0x1105 * 256 + 0x02

/-- `ptp_segment`, U8 RO, index 0x1105 sub 0x03 (14_zwiys.md, R413). -/
def ptpSegment : Nat := 0x1105 * 256 + 0x03

/-- `ptp_offset`, I64 RO, index 0x1105 sub 0x04 (14_zwiys.md, R413). -/
def ptpOffset : Nat := 0x1105 * 256 + 0x04

/-- `pps_locked`, BOOL RO, index 0x1105 sub 0x05 (14_zwiys.md, R413). -/
def ppsLocked : Nat := 0x1105 * 256 + 0x05

/-- `log_head`, U32 RO, index 0x9000 sub 0x01 (14_zwiys.md, R418). -/
def logHead : Nat := 0x9000 * 256 + 0x01

/-- `log_tail`, U32 RO, index 0x9000 sub 0x02 (14_zwiys.md, R418). -/
def logTail : Nat := 0x9000 * 256 + 0x02

/-- `log_data`, BLOB RO, index 0x9000 sub 0x03 (14_zwiys.md, R418). -/
def logData : Nat := 0x9000 * 256 + 0x03

/-- `log_overwritten`, U64 RO, index 0x9000 sub 0x04 (14_zwiys.md, R418). -/
def logOverwritten : Nat := 0x9000 * 256 + 0x04

/-- `alert_causes`, U32 RO, index 0x9000 sub 0x05 (14_zwiys.md, R418). -/
def alertCauses : Nat := 0x9000 * 256 + 0x05

/-- `alert_mask`, U32 RW, index 0x9000 sub 0x06 (14_zwiys.md, R418). -/
def alertMask : Nat := 0x9000 * 256 + 0x06

/-- `alert_clear`, U32 WO, index 0x9000 sub 0x07 (14_zwiys.md, R418). -/
def alertClear : Nat := 0x9000 * 256 + 0x07

/-- `inst_events`, U64 RO, index 0x9000 sub 0x08 (14_zwiys.md, R418). -/
def instEvents : Nat := 0x9000 * 256 + 0x08

/-- `tm_core`, U16 RW, index 0x9010 sub 0x01 (14_zwiys.md, R418). -/
def tmCore : Nat := 0x9010 * 256 + 0x01

/-- `engine counters`, U64 RO, index 0x9011 + n sub 0x01 + k (14_zwiys.md, R418). -/
def engineCounters (n : Nat) (k : Nat) : Nat := (0x9011 + n) * 256 + (0x01 + k)

/-- `eng_stat`, U32 RO, index 0x9011 + n sub 0x09 (14_zwiys.md, R418). -/
def engStat (n : Nat) : Nat := (0x9011 + n) * 256 + 0x09

/-- `snap_req`, BOOL WO, index 0x9020 + n sub 0x01 (14_zwiys.md, R418). -/
def snapReq (n : Nat) : Nat := (0x9020 + n) * 256 + 0x01

/-- `snap_state`, U8 RO, index 0x9020 + n sub 0x02 (14_zwiys.md, R418). -/
def snapState (n : Nat) : Nat := (0x9020 + n) * 256 + 0x02

/-- `snap_time`, TIME64 RO, index 0x9020 + n sub 0x03 (14_zwiys.md, R418). -/
def snapTime (n : Nat) : Nat := (0x9020 + n) * 256 + 0x03

/-- `snap_tack`, U32 RO, index 0x9020 + n sub 0x04 (14_zwiys.md, R418). -/
def snapTack (n : Nat) : Nat := (0x9020 + n) * 256 + 0x04

/-- `snap_data`, BLOB RO, index 0x9020 + n sub 0x05 (14_zwiys.md, R418). -/
def snapData (n : Nat) : Nat := (0x9020 + n) * 256 + 0x05

/-- `vmin`, U16 RO, index 0x2100 + n sub 0x01 (15_power_clock_thermal.md, R436). -/
def vmin (n : Nat) : Nat := (0x2100 + n) * 256 + 0x01

/-- `vmin_time`, TIME64 RO, index 0x2100 + n sub 0x02 (15_power_clock_thermal.md, R436). -/
def vminTime (n : Nat) : Nat := (0x2100 + n) * 256 + 0x02

/-- `vmin_clear`, BOOL WO, index 0x2100 + n sub 0x03 (15_power_clock_thermal.md, R436). -/
def vminClear (n : Nat) : Nat := (0x2100 + n) * 256 + 0x03

/-- `i_sample`, U16 RO, index 0x2100 + n sub 0x04 (15_power_clock_thermal.md, R436). -/
def iSample (n : Nat) : Nat := (0x2100 + n) * 256 + 0x04

/-- `i_avg`, U32 RO, index 0x2100 + n sub 0x05 (15_power_clock_thermal.md, R436). -/
def iAvg (n : Nat) : Nat := (0x2100 + n) * 256 + 0x05

/-- `i_lining`, U32 RO, index 0x2100 + n sub 0x06 (15_power_clock_thermal.md, R436). -/
def iLining (n : Nat) : Nat := (0x2100 + n) * 256 + 0x06

/-- `reg_state`, U8 RO, index 0x2100 + n sub 0x07 (15_power_clock_thermal.md, R436). -/
def regState (n : Nat) : Nat := (0x2100 + n) * 256 + 0x07

/-- `v_set`, U16 RO, index 0x2100 + n sub 0x08 (15_power_clock_thermal.md, R436). -/
def vSet (n : Nat) : Nat := (0x2100 + n) * 256 + 0x08

/-- `temp`, I32 RO, index 0x2100 + n sub 0x09 (15_power_clock_thermal.md, R436). -/
def temp (n : Nat) : Nat := (0x2100 + n) * 256 + 0x09

/-- `throttle`, U8 RO, index 0x2100 + n sub 0x0A (15_power_clock_thermal.md, R436). -/
def throttle (n : Nat) : Nat := (0x2100 + n) * 256 + 0x0A

/-- `notice_late`, U32 RO, index 0x2100 + n sub 0x0B (15_power_clock_thermal.md, R436). -/
def noticeLate (n : Nat) : Nat := (0x2100 + n) * 256 + 0x0B

/-- `notice_bad`, U32 RO, index 0x2100 + n sub 0x0C (15_power_clock_thermal.md, R436). -/
def noticeBad (n : Nat) : Nat := (0x2100 + n) * 256 + 0x0C

/-- `issue_stops`, U32 RO, index 0x2100 + n sub 0x0D (15_power_clock_thermal.md, R436). -/
def issueStops (n : Nat) : Nat := (0x2100 + n) * 256 + 0x0D

/-- `mclk_set`, U32 RWS, index 0x2300 sub 0x01 (15_power_clock_thermal.md, R440). -/
def mclkSet : Nat := 0x2300 * 256 + 0x01

/-- `mclk_now`, U32 RO, index 0x2300 sub 0x02 (15_power_clock_thermal.md, R440). -/
def mclkNow : Nat := 0x2300 * 256 + 0x02

/-- `mesh_state`, U8 RO, index 0x2300 sub 0x03 (15_power_clock_thermal.md, R440). -/
def meshState : Nat := 0x2300 * 256 + 0x03

/-- `skew_max`, U16 RO, index 0x2300 sub 0x04 (15_power_clock_thermal.md, R440). -/
def skewMax : Nat := 0x2300 * 256 + 0x04

/-- `osc_map`, BLOB RO, index 0x2300 sub 0x05 (15_power_clock_thermal.md, R440). -/
def oscMap : Nat := 0x2300 * 256 + 0x05

/-- `lock_time`, U32 RO, index 0x2300 sub 0x06 (15_power_clock_thermal.md, R440). -/
def lockTime : Nat := 0x2300 * 256 + 0x06

/-- `pwr_state`, U8 RO, index 0x2000 sub 0x01 (15_power_clock_thermal.md, R446). -/
def pwrState : Nat := 0x2000 * 256 + 0x01

/-- `pwr_enable`, BOOL RW, index 0x2000 sub 0x02 (15_power_clock_thermal.md, R446). -/
def pwrEnable : Nat := 0x2000 * 256 + 0x02

/-- `v_in`, U32 RO, index 0x2000 sub 0x03 (15_power_clock_thermal.md, R446). -/
def vIn : Nat := 0x2000 * 256 + 0x03

/-- `p_in`, U32 RO, index 0x2000 sub 0x04 (15_power_clock_thermal.md, R446). -/
def pIn : Nat := 0x2000 * 256 + 0x04

/-- `e_in`, U64 RO, index 0x2000 sub 0x05 (15_power_clock_thermal.md, R446). -/
def eIn : Nat := 0x2000 * 256 + 0x05

/-- `p_cap_total`, U32 RW, index 0x2000 sub 0x06 (15_power_clock_thermal.md, R446). -/
def pCapTotal : Nat := 0x2000 * 256 + 0x06

/-- `ret_delay`, U32 RW, index 0x2000 sub 0x07 (15_power_clock_thermal.md, R446). -/
def retDelay : Nat := 0x2000 * 256 + 0x07

/-- `v_margin`, I16 RWS, index 0x2000 sub 0x08 (15_power_clock_thermal.md, R446). -/
def vMargin : Nat := 0x2000 * 256 + 0x08

/-- `ext_alert_cap`, U32 RW, index 0x2000 sub 0x09 (15_power_clock_thermal.md, R446). -/
def extAlertCap : Nat := 0x2000 * 256 + 0x09

/-- `ext_alert`, BOOL RO, index 0x2000 sub 0x0A (15_power_clock_thermal.md, R446). -/
def extAlert : Nat := 0x2000 * 256 + 0x0A

/-- `trips`, U32 RO, index 0x2000 sub 0x0B (15_power_clock_thermal.md, R446). -/
def trips : Nat := 0x2000 * 256 + 0x0B

/-- `t_throttle`, I32 RW, index 0x2400 sub 0x01 (15_power_clock_thermal.md, R447). -/
def tThrottle : Nat := 0x2400 * 256 + 0x01

/-- `t_stop`, I32 RW, index 0x2400 sub 0x02 (15_power_clock_thermal.md, R447). -/
def tStop : Nat := 0x2400 * 256 + 0x02

/-- `t_shutdown`, I32 CONST, index 0x2400 sub 0x03 (15_power_clock_thermal.md, R447). -/
def tShutdown : Nat := 0x2400 * 256 + 0x03

/-- `t_cap_junction`, I32 RW, index 0x2400 sub 0x04 (15_power_clock_thermal.md, R447). -/
def tCapJunction : Nat := 0x2400 * 256 + 0x04

/-- `hbm_t_throttle`, I32 RW, index 0x2400 sub 0x05 (15_power_clock_thermal.md, R447). -/
def hbmTThrottle : Nat := 0x2400 * 256 + 0x05

/-- `hbm_t_stop`, I32 RW, index 0x2400 sub 0x06 (15_power_clock_thermal.md, R447). -/
def hbmTStop : Nat := 0x2400 * 256 + 0x06

/-- `coolant_in`, I32 RO, index 0x2400 sub 0x07 (15_power_clock_thermal.md, R447). -/
def coolantIn : Nat := 0x2400 * 256 + 0x07

/-- `coolant_out`, I32 RO, index 0x2400 sub 0x08 (15_power_clock_thermal.md, R447). -/
def coolantOut : Nat := 0x2400 * 256 + 0x08

/-- `dither_mv`, U8 RW, index 0x2400 sub 0x09 (15_power_clock_thermal.md, R447). -/
def ditherMv : Nat := 0x2400 * 256 + 0x09

/-- `rth_est`, F32 RO, index 0x2410 + n sub 0x01 (15_power_clock_thermal.md, R447). -/
def rthEst (n : Nat) : Nat := (0x2410 + n) * 256 + 0x01

/-- `rth_factory`, F32 CONST, index 0x2410 + n sub 0x02 (15_power_clock_thermal.md, R447). -/
def rthFactory (n : Nat) : Nat := (0x2410 + n) * 256 + 0x02

/-- `rth_stale`, BOOL RO, index 0x2410 + n sub 0x03 (15_power_clock_thermal.md, R447). -/
def rthStale (n : Nat) : Nat := (0x2410 + n) * 256 + 0x03

/-- `rth_age`, U32 RO, index 0x2410 + n sub 0x04 (15_power_clock_thermal.md, R447). -/
def rthAge (n : Nat) : Nat := (0x2410 + n) * 256 + 0x04

/-- `p_panel`, U32 RO, index 0x2410 + n sub 0x05 (15_power_clock_thermal.md, R447). -/
def pPanel (n : Nat) : Nat := (0x2410 + n) * 256 + 0x05

/-- `p_cap_panel`, U32 RO, index 0x2410 + n sub 0x06 (15_power_clock_thermal.md, R447). -/
def pCapPanel (n : Nat) : Nat := (0x2410 + n) * 256 + 0x06

/-- `cap_delays`, U64 RO, index 0x2410 + n sub 0x07 (15_power_clock_thermal.md, R447). -/
def capDelays (n : Nat) : Nat := (0x2410 + n) * 256 + 0x07

/-- `t_panel_max`, I32 RO, index 0x2410 + n sub 0x08 (15_power_clock_thermal.md, R447). -/
def tPanelMax (n : Nat) : Nat := (0x2410 + n) * 256 + 0x08

/-- `dev_state`, U8 RO, index 0xA070 sub 0x01 (16_bringup_repair.md, R472). -/
def devState : Nat := 0xA070 * 256 + 0x01

/-- `boot_stage`, U8 RO, index 0xA070 sub 0x02 (16_bringup_repair.md, R472). -/
def bootStage : Nat := 0xA070 * 256 + 0x02

/-- `boot_time`, U32 RO, index 0xA070 sub 0x03 (16_bringup_repair.md, R472). -/
def bootTime : Nat := 0xA070 * 256 + 0x03

/-- `reset_cmd`, U8 WO, index 0xA070 sub 0x04 (16_bringup_repair.md, R472). -/
def resetCmd : Nat := 0xA070 * 256 + 0x04

/-- `reset_result`, U8 RO, index 0xA070 sub 0x05 (16_bringup_repair.md, R472). -/
def resetResult : Nat := 0xA070 * 256 + 0x05

/-- `last_reset`, U8 RO, index 0xA070 sub 0x06 (16_bringup_repair.md, R472). -/
def lastReset : Nat := 0xA070 * 256 + 0x06

/-- `compute_resets`, U32 RO, index 0xA070 sub 0x07 (16_bringup_repair.md, R472). -/
def computeResets : Nat := 0xA070 * 256 + 0x07

/-- `mg_resets`, U32 RO, index 0xA070 sub 0x08 (16_bringup_repair.md, R472). -/
def mgResets : Nat := 0xA070 * 256 + 0x08

/-- `mg_watchdog`, U32 RW, index 0xA070 sub 0x09 (16_bringup_repair.md, R472). -/
def mgWatchdog : Nat := 0xA070 * 256 + 0x09

/-- `panel_state`, U8 RO, index 0x3000 + n sub 0x01 (16_bringup_repair.md, R473). -/
def panelState (n : Nat) : Nat := (0x3000 + n) * 256 + 0x01

/-- `good_count`, U8 RO, index 0x3000 + n sub 0x02 (16_bringup_repair.md, R473). -/
def goodCount (n : Nat) : Nat := (0x3000 + n) * 256 + 0x02

/-- `usable_count`, U8 RO, index 0x3000 + n sub 0x03 (16_bringup_repair.md, R473). -/
def usableCount (n : Nat) : Nat := (0x3000 + n) * 256 + 0x03

/-- `spare_count`, U8 RO, index 0x3000 + n sub 0x04 (16_bringup_repair.md, R473). -/
def spareCount (n : Nat) : Nat := (0x3000 + n) * 256 + 0x04

/-- `failed_service`, U8 RO, index 0x3000 + n sub 0x05 (16_bringup_repair.md, R473). -/
def failedService (n : Nat) : Nat := (0x3000 + n) * 256 + 0x05

/-- `spare_map`, BLOB RO, index 0x3000 + n sub 0x06 (16_bringup_repair.md, R473). -/
def spareMap (n : Nat) : Nat := (0x3000 + n) * 256 + 0x06

/-- `core_state`, U8 RO, index 0x3100 + n sub 0x01 (16_bringup_repair.md, R474). -/
def coreState (n : Nat) : Nat := (0x3100 + n) * 256 + 0x01

/-- `engine_good`, U16 RO, index 0x3100 + n sub 0x02 (16_bringup_repair.md, R474). -/
def engineGood (n : Nat) : Nat := (0x3100 + n) * 256 + 0x02

/-- `data_addr`, U16 RO, index 0x3100 + n sub 0x03 (16_bringup_repair.md, R474). -/
def dataAddr (n : Nat) : Nat := (0x3100 + n) * 256 + 0x03

/-- `fail_cause`, U8 RO, index 0x3100 + n sub 0x04 (16_bringup_repair.md, R474). -/
def failCause (n : Nat) : Nat := (0x3100 + n) * 256 + 0x04

/-- `fail_time`, TIME64 RO, index 0x3100 + n sub 0x05 (16_bringup_repair.md, R474). -/
def failTime (n : Nat) : Nat := (0x3100 + n) * 256 + 0x05

/-- `retired`, BLOB RO, index 0x3100 + n sub 0x06 (16_bringup_repair.md, R474). -/
def retired (n : Nat) : Nat := (0x3100 + n) * 256 + 0x06

/-- `core_retire`, BOOL WO, index 0x3100 + n sub 0x07 (16_bringup_repair.md, R474). -/
def coreRetire (n : Nat) : Nat := (0x3100 + n) * 256 + 0x07

/-- `core_unretire`, BOOL WO, index 0x3100 + n sub 0x08 (16_bringup_repair.md, R474). -/
def coreUnretire (n : Nat) : Nat := (0x3100 + n) * 256 + 0x08

/-- `sp_spares_used`, U8 RO, index 0x3100 + n sub 0x09 (16_bringup_repair.md, R474). -/
def spSparesUsed (n : Nat) : Nat := (0x3100 + n) * 256 + 0x09

/-- `casc_state`, U8 RO, index 0x7000 sub 0x01 (17_cascade.md, R494). -/
def cascState : Nat := 0x7000 * 256 + 0x01

/-- `casc_role`, U8 RO, index 0x7000 sub 0x02 (17_cascade.md, R494). -/
def cascRole : Nat := 0x7000 * 256 + 0x02

/-- `casc_cmd`, U8 WO, index 0x7000 sub 0x03 (17_cascade.md, R494). -/
def cascCmd : Nat := 0x7000 * 256 + 0x03

/-- `casc_result`, U8 RO, index 0x7000 sub 0x04 (17_cascade.md, R494). -/
def cascResult : Nat := 0x7000 * 256 + 0x04

/-- `casc_shape`, U16 RWS, index 0x7000 sub 0x05 (17_cascade.md, R494). -/
def cascShape : Nat := 0x7000 * 256 + 0x05

/-- `members`, BLOB RWS, index 0x7000 sub 0x06 (17_cascade.md, R494). -/
def members : Nat := 0x7000 * 256 + 0x06

/-- `member_index`, U8 RO, index 0x7000 sub 0x07 (17_cascade.md, R494). -/
def memberIndex : Nat := 0x7000 * 256 + 0x07

/-- `casc_instance`, U8 RWS, index 0x7000 sub 0x08 (17_cascade.md, R494). -/
def cascInstance : Nat := 0x7000 * 256 + 0x08

/-- `master_pref`, U64 RWS, index 0x7000 sub 0x09 (17_cascade.md, R494). -/
def masterPref : Nat := 0x7000 * 256 + 0x09

/-- `master_eligible`, BOOL RWS, index 0x7000 sub 0x0A (17_cascade.md, R494). -/
def masterEligible : Nat := 0x7000 * 256 + 0x0A

/-- `master_serial`, U64 RO, index 0x7000 sub 0x0B (17_cascade.md, R494). -/
def masterSerial : Nat := 0x7000 * 256 + 0x0B

/-- `swap_target`, U8 RW, index 0x7000 sub 0x0C (17_cascade.md, R494). -/
def swapTarget : Nat := 0x7000 * 256 + 0x0C

/-- `cfg_digest`, BLOB RO, index 0x7000 sub 0x0D (17_cascade.md, R494). -/
def cfgDigest : Nat := 0x7000 * 256 + 0x0D

/-- `ctack_timeout`, U32 RWS, index 0x7000 sub 0x0E (17_cascade.md, R494). -/
def ctackTimeout : Nat := 0x7000 * 256 + 0x0E

/-- `seam_timeout`, U32 RWS, index 0x7000 sub 0x0F (17_cascade.md, R494). -/
def seamTimeout : Nat := 0x7000 * 256 + 0x0F

/-- `bcast_timeout`, U32 RWS, index 0x7000 sub 0x10 (17_cascade.md, R494). -/
def bcastTimeout : Nat := 0x7000 * 256 + 0x10

/-- `hold_limit`, U32 RWS, index 0x7000 sub 0x11 (17_cascade.md, R494). -/
def holdLimit : Nat := 0x7000 * 256 + 0x11

/-- `master_loss_timeout`, U32 RWS, index 0x7000 sub 0x12 (17_cascade.md, R494). -/
def masterLossTimeout : Nat := 0x7000 * 256 + 0x12

/-- `time_offset`, I64 RO, index 0x7000 sub 0x13 (17_cascade.md, R494). -/
def timeOffset : Nat := 0x7000 * 256 + 0x13

/-- `time_resyncs`, U32 RO, index 0x7000 sub 0x14 (17_cascade.md, R494). -/
def timeResyncs : Nat := 0x7000 * 256 + 0x14

/-- `rejoins`, U32 RO, index 0x7000 sub 0x15 (17_cascade.md, R494). -/
def rejoins : Nat := 0x7000 * 256 + 0x15

/-- `unfit_reason`, U8 RO, index 0x7000 sub 0x16 (17_cascade.md, R494). -/
def unfitReason : Nat := 0x7000 * 256 + 0x16

/-- `ctack_seq`, U64 RO, index 0x7000 sub 0x17 (17_cascade.md, R494). -/
def ctackSeq : Nat := 0x7000 * 256 + 0x17

/-- `tack_io_time`, TIME64 RO, index 0x7000 sub 0x18 (17_cascade.md, R494). -/
def tackIoTime : Nat := 0x7000 * 256 + 0x18

/-- `seam_state`, U8 RO, index 0x7010 + n sub 0x01 (17_cascade.md, R494). -/
def seamState (n : Nat) : Nat := (0x7010 + n) * 256 + 0x01

/-- `seam_peer`, U64 RO, index 0x7010 + n sub 0x02 (17_cascade.md, R494). -/
def seamPeer (n : Nat) : Nat := (0x7010 + n) * 256 + 0x02

/-- `seam_peer_seam`, U8 RO, index 0x7010 + n sub 0x03 (17_cascade.md, R494). -/
def seamPeerSeam (n : Nat) : Nat := (0x7010 + n) * 256 + 0x03

/-- `seam_replays`, U64 RO, index 0x7010 + n sub 0x04 (17_cascade.md, R494). -/
def seamReplays (n : Nat) : Nat := (0x7010 + n) * 256 + 0x04

/-- `seam_lone`, U64 RO, index 0x7010 + n sub 0x05 (17_cascade.md, R494). -/
def seamLone (n : Nat) : Nat := (0x7010 + n) * 256 + 0x05

/-- `seam_retrain`, BOOL WO, index 0x7010 + n sub 0x06 (17_cascade.md, R494). -/
def seamRetrain (n : Nat) : Nat := (0x7010 + n) * 256 + 0x06

/-- `fw_state`, U8 RO, index 0x8000 sub 0x01 (18_security_update.md, R510). -/
def fwState : Nat := 0x8000 * 256 + 0x01

/-- `fw_cmd`, U8 WO, index 0x8000 sub 0x02 (18_security_update.md, R510). -/
def fwCmd : Nat := 0x8000 * 256 + 0x02

/-- `fw_result`, U8 RO, index 0x8000 sub 0x03 (18_security_update.md, R510). -/
def fwResult : Nat := 0x8000 * 256 + 0x03

/-- `fw_data`, BLOB WO, index 0x8000 sub 0x04 (18_security_update.md, R510). -/
def fwData : Nat := 0x8000 * 256 + 0x04

/-- `fw_next_offset`, U32 RO, index 0x8000 sub 0x05 (18_security_update.md, R510). -/
def fwNextOffset : Nat := 0x8000 * 256 + 0x05

/-- `fw_activate_at`, TIME64 RW, index 0x8000 sub 0x06 (18_security_update.md, R510). -/
def fwActivateAt : Nat := 0x8000 * 256 + 0x06

/-- `fw_image_version`, U32 RO, index 0x8000 sub 0x07 (18_security_update.md, R510). -/
def fwImageVersion : Nat := 0x8000 * 256 + 0x07

/-- `fw_image_digest`, BLOB RO, index 0x8000 sub 0x08 (18_security_update.md, R510). -/
def fwImageDigest : Nat := 0x8000 * 256 + 0x08

/-- `fw_chunk_errors`, U32 RO, index 0x8000 sub 0x09 (18_security_update.md, R510). -/
def fwChunkErrors : Nat := 0x8000 * 256 + 0x09

/-- `fw_pending`, U8 RO, index 0x8000 sub 0x0A (18_security_update.md, R510). -/
def fwPending : Nat := 0x8000 * 256 + 0x0A

/-- `fw_active_bank`, U8 RO, index 0x8000 sub 0x0B (18_security_update.md, R510). -/
def fwActiveBank : Nat := 0x8000 * 256 + 0x0B

/-- `svn_counter`, U8 RO, index 0x8000 sub 0x0C (18_security_update.md, R510). -/
def svnCounter : Nat := 0x8000 * 256 + 0x0C

/-- `svn_hold`, U32 RW, index 0x8000 sub 0x0D (18_security_update.md, R510). -/
def svnHold : Nat := 0x8000 * 256 + 0x0D

/-- `key_seq`, U32 RO, index 0x8010 sub 0x01 (18_security_update.md, R510). -/
def keySeq : Nat := 0x8010 * 256 + 0x01

/-- `key_slot`, U8 RO, index 0x8010 sub 0x02 (18_security_update.md, R510). -/
def keySlot : Nat := 0x8010 * 256 + 0x02

/-- `key_pkg`, BLOB WO, index 0x8010 sub 0x03 (18_security_update.md, R510). -/
def keyPkg : Nat := 0x8010 * 256 + 0x03

/-- `key_cmd`, BOOL WO, index 0x8010 sub 0x04 (18_security_update.md, R510). -/
def keyCmd : Nat := 0x8010 * 256 + 0x04

/-- `key_result`, U8 RO, index 0x8010 sub 0x05 (18_security_update.md, R510). -/
def keyResult : Nat := 0x8010 * 256 + 0x05

/-- `id_cert_chain`, BLOB RO, index 0x8020 sub 0x01 (18_security_update.md, R510). -/
def idCertChain : Nat := 0x8020 * 256 + 0x01

/-- `test_enable`, BOOL RO, index 0x8020 sub 0x02 (18_security_update.md, R510). -/
def testEnable : Nat := 0x8020 * 256 + 0x02

/-- `dbg_challenge`, BLOB RO, index 0x8020 sub 0x03 (18_security_update.md, R510). -/
def dbgChallenge : Nat := 0x8020 * 256 + 0x03

/-- `dbg_response`, BLOB WO, index 0x8020 sub 0x04 (18_security_update.md, R510). -/
def dbgResponse : Nat := 0x8020 * 256 + 0x04

end K

end Sys2Proof.Machine
end

