-- ==== Sys2Proof/Machine/Map.lean ====
section
/-! DEFINITION. Sparse maps and sparse byte memories in one canonical form: keys strictly rising, no entry equal to
what an unlisted key reads as, so that equal contents are equal data. -/

namespace Sys2Proof.Machine

variable {α : Type}

/-- What key k reads as; `d` says what an unlisted key reads as. -/
def mapGet (d : Nat → α) : Map α → Nat → α
  | [], k => d k
  | (j, v) :: t, k => if j = k then v else mapGet d t k

/-- The map without an entry for k. -/
def mapErase (m : Map α) (k : Nat) : Map α := m.filter fun p => p.1 != k

/-- Insert an entry before the first larger key. -/
def mapIns : Map α → Nat → α → Map α
  | [], k, v => [(k, v)]
  | (j, w) :: t, k, v => if k < j then (k, v) :: (j, w) :: t else (j, w) :: mapIns t k v

/-- Write key k: writing what an unlisted key reads as removes the entry. -/
def mapSet [DecidableEq α] (d : Nat → α) (m : Map α) (k : Nat) (v : α) : Map α :=
  if v = d k then mapErase m k else mapIns (mapErase m k) k v

/-- Read, change and write back key k. -/
def mapMod [DecidableEq α] (d : Nat → α) (m : Map α) (k : Nat) (f : α → α) : Map α :=
  mapSet d m k (f (mapGet d m k))

/-- Change every listed value; entries that come to read as unlisted ones go. -/
def mapVals [DecidableEq α] (d : Nat → α) (m : Map α) (f : α → α) : Map α :=
  (m.map fun p => (p.1, f p.2)).filter fun p => p.2 != d p.1

/-- Keys strictly rise from a lower bound on. -/
def mapSorted : Nat → Map α → Bool
  | _, [] => true
  | b, (j, _) :: t => decide (b ≤ j) && mapSorted (j + 1) t

/-- No listed entry equals what an unlisted key reads as. -/
def mapProper [DecidableEq α] (d : Nat → α) (m : Map α) : Bool := m.all fun p => p.2 != d p.1

/-- The canonical form of a sparse map. -/
def mapWf [DecidableEq α] (d : Nat → α) (m : Map α) : Bool := mapSorted 0 m && mapProper d m

/-- What an unlisted byte of memory reads as (log entry 7). -/
def byteZero : Nat → BitVec 8 := fun _ => 0

/-- One byte of a memory. -/
def memByte (m : Mem) (a : Nat) : BitVec 8 := mapGet byteZero m a

/-- Write one byte. -/
def memPut (m : Mem) (a : Nat) (v : BitVec 8) : Mem := mapSet byteZero m a v

/-- The n bytes from address a on. -/
def memRead (m : Mem) (a n : Nat) : List (BitVec 8) := (List.range n).map fun i => memByte m (a + i)

/-- Write bytes from address a on. -/
def memWrite (m : Mem) (a : Nat) : List (BitVec 8) → Mem
  | [] => m
  | b :: bs => memWrite (memPut m a b) (a + 1) bs

/-- Zero the n bytes from address a on. -/
def memZero (m : Mem) (a n : Nat) : Mem := m.filter fun p => decide (p.1 < a) || decide (a + n ≤ p.1)

/-- The canonical form of a memory. -/
def memWf (m : Mem) : Bool := mapWf byteZero m

/-- Bytes as a little-endian number (R8). -/
def leNat : List (BitVec 8) → Nat
  | [] => 0
  | b :: bs => b.toNat + 256 * leNat bs

/-- A number as n little-endian bytes (R8). -/
def leBytes : Nat → Nat → List (BitVec 8)
  | 0, _ => []
  | n + 1, v => BitVec.ofNat 8 v :: leBytes n (v / 256)

/-- The bytes from offset a of a list, n of them, zeros beyond its end. -/
def slice (bs : List (BitVec 8)) (a n : Nat) : List (BitVec 8) :=
  let t := (bs.drop a).take n
  t ++ List.replicate (n - t.length) 0

/-- A little-endian field of a byte string. -/
def leAt (bs : List (BitVec 8)) (a n : Nat) : Nat := leNat (slice bs a n)

/-- A signed number from its two's complement at width w. -/
def signedAt (w v : Nat) : Int :=
  let u := v % 2 ^ w
  if u < 2 ^ (w - 1) then (u : Int) else (u : Int) - (2 ^ w : Nat)

/-- Two's complement of an integer at width w. -/
def unsignedAt (w : Nat) (i : Int) : Nat := (i % ((2 ^ w : Nat) : Int)).toNat

/-- Bits hi to lo of a number. -/
def bits (v hi lo : Nat) : Nat := v / 2 ^ lo % 2 ^ (hi + 1 - lo)

/-- Bit n of a number. -/
def bit (v n : Nat) : Bool := v / 2 ^ n % 2 == 1

/-- A Bool as 0 or 1. -/
def b2n (b : Bool) : Nat := if b then 1 else 0

/-- A number from fields, each given as (value, low bit). -/
def pack (fs : List (Nat × Nat)) : Nat := fs.foldl (fun a p => a + p.1 * 2 ^ p.2) 0

/-- Insert before the first element that does not come before x. -/
def insBy {β : Type} (before : β → β → Bool) (x : β) : List β → List β
  | [] => [x]
  | y :: t => if before y x then y :: insBy before x t else x :: y :: t

/-- Sort by an order that tells every two elements apart. -/
def sortBy {β : Type} (before : β → β → Bool) (l : List β) : List β := l.foldr (insBy before) []

/-- One list of numbers comes before another in lexicographic order. -/
def lexLt : List Nat → List Nat → Bool
  | a :: s, b :: t => decide (a < b) || (a == b && lexLt s t)
  | _, _ => false

/-- Division rounded up. -/
def ceilDiv (a b : Nat) : Nat := (a + b - 1) / b

end Sys2Proof.Machine
end

