-- ==== Sys2Proof/Machine/Float.lean ====
section
/-! DEFINITION. Floating point as the finisher computes it: exact values, one rounding to nearest with ties to even
into FP32 or BF16, and the functions that the spec bounds in units in the last place (R67-R71, R189, R201-R205). -/

namespace Sys2Proof.Machine

/-- A floating-point value: NaN, an infinity, or ±m × 2^e exactly. -/
inductive Fl where
  | nan
  | inf (neg : Bool)
  | fin (neg : Bool) (m : Nat) (e : Int)
deriving DecidableEq, Repr

/-- Positive zero. -/
def Fl.zero : Fl := .fin false 0 0
/-- The number one. -/
def Fl.one : Fl := .fin false 1 0
/-- A natural number. -/
def Fl.ofNat (n : Nat) : Fl := .fin false n 0
/-- An integer times a power of two. -/
def Fl.ofInt (i e : Int) : Fl := .fin (decide (i < 0)) i.natAbs e

/-- A format: precision with its hidden bit, exponent of the subnormal spacing, and the bit pattern of +infinity. -/
structure Fmt where
  p : Nat
  qmin : Int
  infBits : Nat
deriving DecidableEq, Repr

/-- IEEE 754 binary32. -/
def f32 : Fmt := ⟨24, -149, 0x7F800000⟩
/-- BF16. -/
def bf16 : Fmt := ⟨8, -133, 0x7F80⟩

/-- Bit pattern of the sign (the format's top bit). -/
def Fmt.signBit (f : Fmt) : Nat := if f.p = 24 then 0x80000000 else 0x8000
/-- The canonical quiet NaN (R70). -/
def Fmt.nanBits (f : Fmt) : Nat := if f.p = 24 then 0x7FC00000 else 0x7FC0

/-- Scaling of n by 2^k, rounded towards zero when k is negative. -/
def shiftBy (n : Nat) (k : Int) : Nat := if 0 ≤ k then n * 2 ^ k.toNat else n / 2 ^ (-k).toNat

/-- The integer nearest to n / d, ties to even. -/
def rneDiv (n d : Nat) : Nat :=
  let q := n / d
  let r := n % d
  if d < 2 * r || (2 * r == d && q % 2 == 1) then q + 1 else q

/-- The largest k with 2^k ≤ n / d, for n > 0. -/
def ratLog (n d : Nat) : Int :=
  let k := (Nat.log2 n : Int) - (Nat.log2 d : Int)
  -- n / d lies in (2^(k-1), 2^(k+1))
  let lhs := if 0 ≤ k then n else n * 2 ^ (-k).toNat
  let rhs := if 0 ≤ k then d * 2 ^ k.toNat else d
  if rhs ≤ lhs then k else k - 1

/-- Round (n / d) × 2^e to a format's magnitude bits: nearest, ties to even, subnormals kept, overflow to the
infinity's bits (R67, R68). -/
def roundRat (f : Fmt) (n d : Nat) (e : Int) : Nat :=
  if n = 0 then 0
  else
    let k := ratLog n d + e
    let q := max (k - ((f.p : Int) - 1)) f.qmin
    let sh := e - q
    let t := if 0 ≤ sh then rneDiv (n * 2 ^ sh.toNat) d else rneDiv n (d * 2 ^ (-sh).toNat)
    min ((q - f.qmin).toNat * 2 ^ (f.p - 1) + t) f.infBits

/-- Round a value into a format (R189 `round32`, `round16`). -/
def roundTo (f : Fmt) : Fl → Nat
  | .nan => f.nanBits
  | .inf n => f.infBits + (if n then f.signBit else 0)
  | .fin n m e => roundRat f m 1 e + (if n then f.signBit else 0)

/-- The value of a bit pattern. -/
def decode (f : Fmt) (b : Nat) : Fl :=
  let n := decide (f.signBit ≤ b)
  let a := b % f.signBit
  if f.infBits < a then .nan
  else if a = f.infBits then .inf n
  else
    let ex := a / 2 ^ (f.p - 1)
    let fr := a % 2 ^ (f.p - 1)
    if ex = 0 then .fin n fr f.qmin else .fin n (fr + 2 ^ (f.p - 1)) (f.qmin + (ex : Int) - 1)

/-- A value rounded into FP32, as a value again. -/
def r32 (x : Fl) : Fl := decode f32 (roundTo f32 x)

/-- Whether a value is NaN. -/
def Fl.isNan : Fl → Bool
  | .nan => true
  | _ => false
/-- Whether a value is infinite. -/
def Fl.isInf : Fl → Bool
  | .inf _ => true
  | _ => false
/-- Whether a value is finite. -/
def Fl.isFin : Fl → Bool
  | .fin _ _ _ => true
  | _ => false
/-- Whether a value is a zero of either sign. -/
def Fl.isZero : Fl → Bool
  | .fin _ m _ => m == 0
  | _ => false
/-- The sign of a value. -/
def Fl.sign : Fl → Bool
  | .nan => false
  | .inf n => n
  | .fin n _ _ => n

/-- Negation; a NaN stays NaN. -/
def Fl.neg : Fl → Fl
  | .nan => .nan
  | .inf n => .inf (!n)
  | .fin n m e => .fin (!n) m e
/-- Absolute value. -/
def Fl.abs : Fl → Fl
  | .nan => .nan
  | .inf _ => .inf false
  | .fin _ m e => .fin false m e

/-- The signed integer of a finite value at exponent e0 ≤ its own. -/
def sint (n : Bool) (m : Nat) (e e0 : Int) : Int :=
  let v : Int := (m * 2 ^ (e - e0).toNat : Nat)
  if n then -v else v

/-- Exact sum (IEEE 754: an exact zero sum of unlike signs is +0; invalid gives NaN). -/
def Fl.add : Fl → Fl → Fl
  | .nan, _ => .nan
  | _, .nan => .nan
  | .inf a, .inf b => if a == b then .inf a else .nan
  | .inf a, .fin _ _ _ => .inf a
  | .fin _ _ _, .inf b => .inf b
  | .fin a m e, .fin b k g =>
    let e0 := min e g
    let s := sint a m e e0 + sint b k g e0
    if s = 0 then .fin (a && b) 0 e0 else .ofInt s e0

/-- Exact difference. -/
def Fl.sub (x y : Fl) : Fl := x.add y.neg

/-- Exact product. -/
def Fl.mul : Fl → Fl → Fl
  | .nan, _ => .nan
  | _, .nan => .nan
  | .inf a, .inf b => .inf (a != b)
  | .inf a, .fin b k _ => if k = 0 then .nan else .inf (a != b)
  | .fin a m _, .inf b => if m = 0 then .nan else .inf (a != b)
  | .fin a m e, .fin b k g => .fin (a != b) (m * k) (e + g)

/-- Multiply by a power of two. -/
def Fl.scale (x : Fl) (k : Int) : Fl :=
  match x with
  | .fin n m e => .fin n m (e + k)
  | y => y

/-- x < y, false with a NaN; zeros are equal. -/
def Fl.lt : Fl → Fl → Bool
  | .nan, _ => false
  | _, .nan => false
  | .inf a, .inf b => a && !b
  | .inf a, .fin _ _ _ => a
  | .fin _ _ _, .inf b => !b
  | .fin a m e, .fin b k g => decide (sint a m e (min e g) < sint b k g (min e g))

/-- x = y, false with a NaN; zeros are equal. -/
def Fl.eq : Fl → Fl → Bool
  | .nan, _ => false
  | _, .nan => false
  | .inf a, .inf b => a == b
  | .inf _, .fin _ _ _ => false
  | .fin _ _ _, .inf _ => false
  | .fin a m e, .fin b k g => decide (sint a m e (min e g) = sint b k g (min e g))

/-- x ≤ y, false with a NaN. -/
def Fl.le (x y : Fl) : Bool := x.lt y || x.eq y

/-- Minimum and maximum: −0 below +0, the other operand for one NaN (R202). -/
def Fl.minMax (wantMax : Bool) (x y : Fl) : Fl :=
  if x.isNan then y
  else if y.isNan then x
  else if x.isZero && y.isZero then .fin (if wantMax then x.sign && y.sign else x.sign || y.sign) 0 0
  else if x.lt y == wantMax then y else x

/-- Quotient by a positive natural, rounded into FP32 in one rounding (the /n of R205). -/
def divNat32 (x : Fl) (n : Nat) : Fl :=
  match x with
  | .fin s m e => decode f32 (roundRat f32 m n e + (if s then f32.signBit else 0))
  | y => y

/-- One level of the pairwise tree. -/
def pairUp : List Fl → List Fl
  | a :: b :: t => r32 (a.add b) :: pairUp t
  | t => t

/-- The pairwise tree, level by level; `fuel` bounds the levels. -/
def pairTree : Nat → List Fl → Fl
  | _, [] => Fl.zero
  | _, [x] => x
  | 0, x :: _ => x
  | k + 1, t => pairTree k (pairUp t)

/-- FP32 sum in the fixed pairwise tree, padded with +0 to a power of two (R189 `fsum`). -/
def fsum (t : List Fl) : Fl :=
  let l := if t.length ≤ 1 then 0 else Nat.log2 (t.length - 1) + 1
  pairTree l (t ++ List.replicate (2 ^ l - t.length) Fl.zero)

/-- FP32 sum in list order, rounding after each addition (R307 `seqsum`). -/
def seqsum (t : List Fl) : Fl := t.foldl (fun a x => r32 (a.add x)) Fl.zero

/-- `dq(code, e)`: code × 2^(e − 127), exact; the scale 0xFF gives NaN (R189, R204). -/
def dq (code : Int) (e : Nat) : Fl := if e = 255 then .nan else .ofInt code ((e : Int) - 127)

/-- The integer nearest to a finite value, ties to even. -/
def Fl.rne : Fl → Int
  | .fin n m e =>
    let v : Int := if 0 ≤ e then (m * 2 ^ e.toNat : Nat) else (rneDiv m (2 ^ (-e).toNat) : Nat)
    if n then -v else v
  | _ => 0

/-- The value of an FP8 E4M3 code of the OCP 8-bit floating-point specification (R207, R318). -/
def fp8 (b : Nat) : Fl :=
  let n := decide (128 ≤ b % 256)
  let ex := b % 128 / 8
  let fr := b % 8
  if b % 128 = 127 then .nan
  else if ex = 0 then .fin n fr (-9) else .fin n (fr + 8) ((ex : Int) - 10)

/-! ## Functions bounded in units in the last place

Each is evaluated in fixed point with 512 fraction bits, far below half a unit in the last place, and the result is
offset by `Config.ulpOffset` where the offset keeps inside the stated bound (log entry 6). -/

/-- One in the fixed-point form. -/
def fixOne : Int := (2 ^ 512 : Nat)

/-- Fixed-point product. -/
def fixMul (a b : Int) : Int := a * b / fixOne

/-- Σ z^(2i+1)/(2i+1) from term i on, for the inverse hyperbolic tangent; `alt` alternates signs for the arctangent. -/
def atanSeries (alt : Bool) (z2 : Int) : Nat → Nat → Int → Int
  | 0, _, _ => 0
  | k + 1, i, t => t / ((2 * i + 1 : Nat) : Int) +
      atanSeries alt z2 k (i + 1) (if alt then -(fixMul t z2) else fixMul t z2)

/-- ln 2 = 2 atanh(1/3). -/
def fixLn2 : Int := 2 * atanSeries false (fixOne / 9) 170 0 (fixOne / 3)

/-- π by Machin's formula. -/
def fixPi : Int :=
  16 * atanSeries true (fixOne / 25) 120 0 (fixOne / 5) - 4 * atanSeries true (fixOne / 57121) 40 0 (fixOne / 239)

/-- Σ r^i / i! from term i on. -/
def expSeries (r : Int) : Nat → Nat → Int → Int
  | 0, _, _ => 0
  | k + 1, i, t => t + expSeries r k (i + 1) (fixMul t r / ((i + 1 : Nat) : Int))

/-- 2^k times a fixed-point number. -/
def fixShift (x : Int) (k : Int) : Int := if 0 ≤ k then x * (2 ^ k.toNat : Nat) else x / (2 ^ (-k).toNat : Nat)

/-- exp of a fixed-point number. -/
def fixExp (x : Int) : Int :=
  let k := x / fixLn2
  fixShift (expSeries (x - k * fixLn2) 110 0 fixOne) k

/-- ln of m × 2^e for m > 0. -/
def fixLn (m : Nat) (e : Int) : Int :=
  let l := Nat.log2 m
  let y : Int := fixShift (m : Int) (512 - (l : Int))        -- in [1, 2)
  let z := (y - fixOne) * fixOne / (y + fixOne)
  (e + l) * fixLn2 + 2 * atanSeries false (fixMul z z) 170 0 z

/-- A finite value in fixed point, clipped to a magnitude of 2^10. -/
def Fl.toFix : Fl → Int
  | .fin n m e =>
    let v : Int := if m = 0 then 0
      else if 10 < (Nat.log2 m : Int) + e then 1024 * fixOne else fixShift (m : Int) (512 + e)
    if n then -v else v
  | .inf n => if n then -1024 * fixOne else 1024 * fixOne
  | .nan => 0

/-- Σ of the error function's series e^(−x²) Σ 2^i x^(2i+1) / (2i+1)!!, from term i on. -/
def erfSeries (x2 : Int) : Nat → Nat → Int → Int
  | 0, _, _ => 0
  | k + 1, i, t => t + erfSeries x2 k (i + 1) (2 * fixMul t x2 / ((2 * i + 3 : Nat) : Int))

/-- Square root of a fixed-point number. -/
def fixSqrt (x : Int) : Int := (Nat.sqrt (x.toNat * 2 ^ 512) : Nat)

/-- erf of a fixed-point number; ±1 to the fixed-point precision from a magnitude of 20 on. -/
def fixErf (x : Int) : Int :=
  if 20 * fixOne ≤ x then fixOne
  else if x ≤ -20 * fixOne then -fixOne
  else
    let x2 := fixMul x x
    2 * fixMul (fixMul (erfSeries x2 1400 0 x) (fixExp (-x2))) fixOne * fixOne / fixSqrt fixPi

/-- tanh of a fixed-point number. -/
def fixTanh (x : Int) : Int :=
  let a : Int := min (x.natAbs : Int) (400 * fixOne)
  let t := fixExp (-(2 * a))
  let r := (fixOne - t) * fixOne / (fixOne + t)
  if x < 0 then -r else r

/-- Logistic function of a fixed-point number. -/
def fixSigmoid (x : Int) : Int :=
  let a : Int := min (x.natAbs : Int) (340 * fixOne)
  let t := fixExp (-a)
  if 0 ≤ x then fixOne * fixOne / (fixOne + t) else t * fixOne / (fixOne + t)

/-- Magnitude bits as an exact value. -/
def magFl (f : Fmt) (b : Nat) : Fl := decode f b

/-- The rounded result offset by k units where that stays within `bound` units in the last place of the exact value
n / d × 2^e (R71); a zero or an overflowing result takes no offset. -/
def withUlp (f : Fmt) (bound : Nat) (neg : Bool) (n d : Nat) (e : Int) (k : Int) : Nat :=
  let b := roundRat f n d e
  let c := ((b : Int) + k).toNat
  let q : Int := max (ratLog n d + e - ((f.p : Int) - 1)) f.qmin
  -- the candidate in units of 2^q, against n / d × 2^(e − q), scaled by d
  let ok := decide (n ≠ 0) && decide (b < f.infBits) && decide (c < f.infBits) && decide (0 ≤ (b : Int) + k) &&
    (match decode f c with
     | .fin _ m g =>
       let e0 := min (min g e) q
       let cand : Int := (m * d * 2 ^ (g - e0).toNat : Nat)
       let ex : Int := (n * 2 ^ (e - e0).toNat : Nat)
       let unit : Nat := d * 2 ^ (q - e0).toNat
       decide ((cand - ex).natAbs ≤ bound * unit)
     | _ => false)
  (if ok then c else b) + (if neg then f.signBit else 0)

/-- A fixed-point result into a format under a bound. -/
def fixTo (f : Fmt) (bound : Nat) (x : Int) (neg0 : Bool) (k : Int) : Nat :=
  if x = 0 then (if neg0 then f.signBit else 0)
  else withUlp f bound (decide (x < 0)) x.natAbs 1 (-512) k

/-- 1 / x in FP32 within 1 ulp (R71, R201). -/
def flRecip (x : Fl) (k : Int) : Nat :=
  match x with
  | .nan => f32.nanBits
  | .inf n => if n then f32.signBit else 0
  | .fin n m e => if m = 0 then f32.infBits + (if n then f32.signBit else 0) else withUlp f32 1 n 1 m (-e) k

/-- √(m × 2^e) with 200 further bits: numerator and exponent. -/
def sqrtRat (m : Nat) (e : Int) : Nat × Int :=
  let odd := e % 2 = 1
  let m2 := if odd then 2 * m else m
  let e2 := if odd then e - 1 else e
  (Nat.sqrt (m2 * 2 ^ 400), e2 / 2 - 200)

/-- √x in FP32 within 1 ulp. -/
def flSqrt (x : Fl) (k : Int) : Nat :=
  match x with
  | .nan => f32.nanBits
  | .inf n => if n then f32.nanBits else f32.infBits
  | .fin n m e =>
    if m = 0 then (if n then f32.signBit else 0)
    else if n then f32.nanBits
    else withUlp f32 1 false (sqrtRat m e).1 1 (sqrtRat m e).2 k

/-- 1 / √x in FP32 within 1 ulp. -/
def flRsqrt (x : Fl) (k : Int) : Nat :=
  match x with
  | .nan => f32.nanBits
  | .inf n => if n then f32.nanBits else 0
  | .fin n m e =>
    if m = 0 then f32.infBits + (if n then f32.signBit else 0)
    else if n then f32.nanBits
    else withUlp f32 1 false 1 (sqrtRat m e).1 (-(sqrtRat m e).2) k

/-- exp (base e) or exp2 in FP32 within 1 ulp; of a zero it is 1 (R201, IEEE 754-2019 clause 9.2). -/
def flExp (two : Bool) (x : Fl) (k : Int) : Nat :=
  match x with
  | .nan => f32.nanBits
  | .inf n => if n then 0 else f32.infBits
  | .fin _ m _ =>
    let a := x.toFix
    if m = 0 then roundTo f32 Fl.one
    else if 200 * fixOne ≤ a then f32.infBits
    else if a ≤ -200 * fixOne then 0
    else fixTo f32 1 (fixExp (if two then fixMul a fixLn2 else a)) false k

/-- log (base e) or log2 in FP32 within 1 ulp. -/
def flLog (two : Bool) (x : Fl) (k : Int) : Nat :=
  match x with
  | .nan => f32.nanBits
  | .inf n => if n then f32.nanBits else f32.infBits
  | .fin n m e =>
    if m = 0 then f32.infBits + f32.signBit
    else if n then f32.nanBits
    else
      let l := fixLn m e
      fixTo f32 1 (if two then l * fixOne / fixLn2 else l) false k

/-- The activation functions of FACT (R201, R202): 0 sigmoid, 1 tanh, 2 SiLU, 3 GELU erf form, 4 GELU tanh form. -/
def flAct (f : Fmt) (bound : Nat) (fn : Nat) (x : Fl) (k : Int) : Nat :=
  match x with
  | .nan => f.nanBits
  | .inf n =>
    if fn = 0 then (if n then 0 else roundTo f Fl.one)
    else if fn = 1 then roundTo f (.fin n 1 0)
    else if n then f.signBit else f.infBits
  | .fin n m e =>
    let a := x.toFix
    let big := decide (m ≠ 0) && decide (9 < (Nat.log2 m : Int) + e)
    if m = 0 then (if fn = 0 then roundTo f (.fin false 1 (-1)) else if n then f.signBit else 0)
    else if fn = 0 then fixTo f bound (fixSigmoid a) false k
    else if decide ((Nat.log2 m : Int) + e < -60) then
      -- below 2^-60 the function is x (tanh) or x / 2 to far below a unit in the last place
      (if fn = 1 then withUlp f bound n m 1 e k else withUlp f bound n m 1 (e - 1) k)
    else if fn = 1 then fixTo f bound (fixTanh a) n k
    else if big then (if n then f.signBit else withUlp f bound false m 1 e k)
    else if fn = 2 then fixTo f bound (fixMul a (fixSigmoid a)) n k
    else if fn = 3 then
      fixTo f bound (fixMul a (fixOne + fixErf (a * fixOne / fixSqrt (2 * fixOne))) / 2) n k
    else
      let inner := a + fixMul (fixMul (fixMul a a) a) fixOne * 44715 / 1000000
      fixTo f bound (fixMul a (fixOne + fixTanh (fixMul (fixSqrt (2 * fixOne * fixOne / fixPi)) inner)) / 2) n k

/-- A lane of FACT (R71, R201): evaluated in FP32 within 4 ulp; a BF16 lane is that value rounded once. -/
def flActLane (f : Fmt) (fn : Nat) (x : Fl) (k : Int) : Nat :=
  let y := flAct f32 4 fn x k
  if f.p = 24 then y else roundTo f (decode f32 y)

/-- The exponential of FEXP as the kernels use it (R189, R210 `fexp`), with its offset drawn for these operand bits. -/
def fexp (x : Fl) : Fl := decode f32 (flExp false x (Config.ulpOffset 0x71 (roundTo f32 x) 0))

end Sys2Proof.Machine
end

