-- ==== Sys2Proof/Machine/Types.lean ====
section
/-! DEFINITION. The parts of the machine's state as plain data: cores, engines, routers, links, the event log. Every
field's docstring gives its width, the rule that names it, and its reset value where it is not zero or empty. -/

namespace Sys2Proof.Machine

/-! ## Cores -/

/-- How a core's sequencer stands (R98, R179, R191, R220). -/
inductive RunState where
  /-- no task loaded, or the core not started -/
  | idle
  | running
  /-- halted by HALT; counts as arrived at every tack -/
  | halted
  /-- waiting in TACK for the release -/
  | atTack
  | trapped
  /-- stopped at an instruction boundary with its instance -/
  | stopped
deriving DecidableEq, Repr

/-- One loop-stack entry (R158, R192). -/
structure LoopEntry where
  /-- first instruction of the body -/
  first : Nat
  /-- last instruction of the body -/
  last : Nat
  /-- iterations left -/
  count : Nat
deriving DecidableEq, Repr

/-- A bolt (R48): `value` 64 bits, `exc`, `ovf`. -/
structure Bolt where
  value : Word64 := 0
  exc : Bool := false
  ovf : Bool := false
deriving DecidableEq, Repr

/-- What a queue entry holds (R163): a bolt set or a completion word; none until its producer posts it. -/
inductive QKind where
  | bolts (set : Option (List Bolt))
  | word (w : Option Word64)
deriving DecidableEq, Repr

/-- One reserved entry of a decoupling queue (R164). `id` is the model's own name of the reservation. -/
structure QEntry where
  id : Nat
  kind : QKind
deriving DecidableEq, Repr

/-- A pass as its command-queue entry holds it (R105, R195). -/
structure Pass where
  /-- tile index, 9 bits -/
  tile : Nat
  /-- physical offset of the element array in the pair -/
  elems : Nat
  /-- the scale bytes read through NF at acceptance (R105) -/
  scales : List Byte
  /-- a poisoned word among the scale bytes (R111) -/
  poison : Bool
  /-- the ECTL value captured at queueing (R52) -/
  ectl : Word
  /-- instruction index of the MMV, for a hazard record (R182) -/
  pc : Nat
deriving DecidableEq, Repr

/-- A command-queue entry of an engine position (R45). `q`, `id` name the queue entry it posts. -/
inductive ECmd where
  | pass (p : Pass)
  | bflush (q id : Nat)
  | bzero
  | csum (tile q id : Nat)
deriving DecidableEq, Repr

/-- What an engine position of a core holds (R158, R45). -/
structure PosState where
  /-- command queue, at most 8 entries (R45) -/
  cmdq : List ECmd := []
  /-- bolts b0-b63 of 66 bits (R48), keyed by column -/
  bolts : Map Bolt := []
  /-- ECTL, 32 bits (R52) -/
  ectl : Word := 0
  /-- block from which a held pass at the head resumes (R60) -/
  resume : Nat := 0
  /-- event kinds already recorded in the pass at the head (R51) -/
  seen : List Nat := []
  /-- bolt values as they stood before the pass at the head, kept across a hold for the fitting check (R79) -/
  before : Option (List Int) := none
deriving DecidableEq, Repr

/-- Why an engine is held and where the held pass stands (R59, R60). -/
structure Held where
  tile : Nat
  /-- held block, the first block not yet committed; none for a check read (R59) -/
  block : Option Nat
  /-- `uptime` when the hold began, for `held_ns` (R54, R64) -/
  since : Nat
deriving DecidableEq, Repr

/-- The steps of a repair (R62-R66), named by what is awaited. -/
inductive RepairStep where
  /-- the golden image is being fetched -/
  | fetch
  /-- the fetch from host memory failed and is issued again every 100 ms (R386) -/
  | fetchRetry
  /-- the fast-written gusset copy is being verified -/
  | verifyGusset
  /-- the tile's in-place re-program and its verify -/
  | reprogram
  /-- the gusset programs the tile again into another part of its own lining (R66) -/
  | gussetReprogram
  /-- the verified tile waits for its return tack (R62 step 8) -/
  | returnTack
  /-- the gusset's new copy waits for the switch at the next tack (R66) -/
  | switchTack
  /-- a re-program failed; the core is reported failed (R66) -/
  | failed
deriving DecidableEq, Repr

/-- A repair of one tile of one engine (R62-R66). -/
structure Repair where
  tile : Nat
  step : RepairStep
  /-- true on the gusset path -/
  gusset : Bool
  /-- whether a pass over the tile is held -/
  held : Bool
  /-- the fetched golden image, from step 3 on (the programming buffer) -/
  image : List Byte
deriving DecidableEq, Repr

/-- A tile the gusset holds (R62, R66). -/
structure GCopy where
  /-- owning physical engine 0-7 -/
  owner : Nat
  tile : Nat
  /-- the copy's image as the gusset's lining holds it -/
  image : List Byte
  /-- held permanently after a failed in-place re-program (R66) -/
  permanent : Bool
  /-- redirection in force -/
  serving : Bool
  /-- words of the copy's scales and check values that read with an ECC error, by word: 1 corrected, 2 uncorrectable
  (R41, R58) -/
  mdErr : Map Nat := []
deriving DecidableEq, Repr

/-- A physical engine, 0-7 or the gusset 8 (R34-R66, R97). -/
structure EngState where
  /-- TDESC0-TDESC511, 64 bits each (R37) -/
  tdesc : Map Nat := []
  /-- weight store, 40 MiB: tier A from 0, tier B from 20 MiB (R11, R35) -/
  lining : Mem := []
  /-- metadata area, 512 slots of 20 KiB (R35): scales, then check values (R41) -/
  md : Mem := []
  /-- metadata words that read with an ECC error (R41, R58): slot × 2,560 + word; 1 corrected, 2 uncorrectable -/
  mdErr : Map Nat := []
  /-- muslin area, 32 KiB: tier A from 0, tier B from 16 KiB (R11, R35, R456); factory-programmed (log entry 4) -/
  muslin : Map (BitVec 8) := []
  /-- ENG_STAT, 32 bits (R53), without the fields computed from `held` and the gusset's tiles -/
  stat : Nat := 0
  /-- the counters of R54 in table order, keyed 0-7 -/
  ctr : Map Nat := []
  /-- event queue, at most 16 records of 128 bits (R51) -/
  evq : List Nat := []
  /-- the hold, if any (R60) -/
  held : Option Held := none
  /-- repairs of this engine's tiles, at most one per tile (R66) -/
  repairs : List Repair := []
  /-- tiles held for another engine; the gusset only (R122) -/
  copies : List GCopy := []
  /-- position in `gusset_mode` 2: the failed engine whose position the gusset takes (R123) -/
  replaces : Nat := 0
  /-- rolling tile pointer of the scrub check reads (R59) -/
  scrubTile : Nat := 0
  /-- tiles whose check read is deferred until the hold is released (R66) -/
  due : List Nat := []
deriving DecidableEq, Repr

/-- A DMA descriptor as accepted (R119, R120, R266). -/
structure DDesc where
  /-- acceptance order over all channels, for `ordered` (R118) -/
  order : Nat
  op : Nat
  srcSpace : Nat
  dstSpace : Nat
  ordered : Bool
  tag : Nat
  length : Nat
  src : Nat
  dst : Nat
  /-- completion queue and the reserved entry -/
  q : Nat
  id : Nat
  /-- for op 2, the page-list walk descriptor's words (R266) -/
  walk : List Nat
  /-- the status that refused the descriptor (R120), 0 for an accepted one; a refused one keeps its place in its channel
  until its completion is due (R118) -/
  refused : Nat := 0
deriving DecidableEq, Repr

/-- A VC2 request outstanding at its requester (R138, R155, R217). -/
structure RqReq where
  /-- the model's own number of the request -/
  rid : Nat
  q : Nat
  id : Nat
  /-- true for RGET -/
  isGet : Bool
  /-- local physical address of the buffer -/
  lAddr : Nat
  length : Nat
  tag : Nat
deriving DecidableEq, Repr

/-- A packet, its header fields as R131 lays them out; `rid` is the model's own number of a request. -/
structure Packet where
  kind : Nat := 0
  vc : Nat := 0
  inst : Nat := 0
  dstX : Nat := 0
  dstY : Nat := 0
  dstPanel : Nat := 0
  dstLogical : Nat := 0
  srcX : Nat := 0
  srcY : Nat := 0
  srcPanel : Nat := 0
  srcLogical : Nat := 0
  group : Nat := 0
  queue : Nat := 0
  taint : Bool := false
  poison : Bool := false
  detour : Bool := false
  tag : Nat := 0
  status : Nat := 0
  addr : Nat := 0
  excMask : Word64 := 0
  ovfMask : Word64 := 0
  payload : List Byte := []
  /-- bytes asked for by a read request (R138) -/
  length : Nat := 0
  rid : Nat := 0
  /-- replays that a VC0 flit has met on its path (R136) -/
  replays : Nat := 0
deriving DecidableEq, Repr

/-- An arrival entry waiting on a pair (R215). -/
structure ArrWait where
  q : Nat
  id : Nat
  count : Nat
deriving DecidableEq, Repr

/-- An arrival counter (R215). -/
structure Arrival where
  group : Nat
  tag : Nat
  /-- packets counted and not yet deducted, oldest first: taint, and the status that the packet gives the entry it
  helps complete (0x00; 0x01 under R143; 0x08 under R227 and R228) -/
  pkts : List (Bool × Nat)
  /-- arrival entries waiting on the pair, oldest first -/
  waits : List ArrWait
deriving DecidableEq, Repr

/-- The core's candidate buffer, or a merge entry of the selector (R225-R228); a candidate is (token, FP32 logit). -/
structure CandBuf where
  slot : Nat
  cands : List (Nat × Nat)
  taint : Bool
deriving DecidableEq, Repr

/-- A change of owner waiting at the zeroing unit (R125). -/
structure ZeroReq where
  granule : Nat
  owner : Nat
  /-- MCLK cycle at which the change was asked for, for `sp_zero_wait` -/
  since : Nat
deriving DecidableEq, Repr

/-- A fitting-check sample in a side-buffer slot (R79, R117). -/
structure FcSample where
  engine : Nat
  tile : Nat
  /-- layer-pass sequence number L -/
  pass : Nat
  /-- layer of the pass -/
  layer : Nat
  variant : Nat
  /-- `fc_threshold` in BF16 -/
  threshold : Nat
  /-- captured input rows 0-4,095, BF16, as delivered (R79 step 2) -/
  rows : Map (BitVec 16) := []
  /-- once the pass has ended: D(c), the 64 differences of bolt values, and B of its ECTL (R79 step 3) -/
  diff : Option (List Int × Int) := none
  /-- y_ref of the 64 columns in FP32, formed as the golden image streams through the unit (R79 step 5) -/
  ref : Option (List (BitVec 32)) := none
deriving DecidableEq, Repr

/-- The tack snapshot (R158, R220). -/
structure Snapshot where
  regs : Map Word := []
  preds : BitVec 8 := 0
  loops : List LoopEntry := []
  rets : List Nat := []
  pc : Nat := 0
deriving DecidableEq, Repr

/-- A local range that the hazard detector watches until QWAIT takes its completion (R183 type 0x05). -/
structure HzRange where
  q : Nat
  id : Nat
  /-- physical scratchpad address and length -/
  lo : Nat
  len : Nat
  pc : Nat
deriving DecidableEq, Repr

/-- A recent access at a port of the core, as the hazard detector holds it (R183): port of R182, write, physical address,
bytes, instruction index. -/
structure Recent where
  port : Nat
  write : Bool
  lo : Nat
  len : Nat
  pc : Nat
deriving DecidableEq, Repr

/-- One physical core (R97, R158). -/
structure Core where
  /-- sequencer run state; `idle` at reset -/
  run : RunState := .idle
  /-- fenced: issues nothing, L port and neighbour links closed (R149) -/
  fenced : Bool := false
  /-- pace bit (R32, R442) -/
  pace : Bool := false
  /-- issue-stop bit (R32, R433) -/
  issueStop : Bool := false
  /-- program counter, 15 bits (R158) -/
  pc : Nat := 0
  /-- s0-s31 at 0x00-0x1F and a0-a15 at 0x20-0x2F, 32 bits each (R158, R159) -/
  regs : Map Word := []
  /-- p0-p7; bit 0 is not used, p0 reads 1 (R158) -/
  preds : BitVec 8 := 0
  /-- f0-f63, 4,096 bits each (R158, R188) -/
  fregs : Map (BitVec 4096) := []
  /-- taint bits of f0-f63 (R69) -/
  ftaint : BitVec 64 := 0
  /-- decoupling queues q0-q7, at most 8 entries each (R163) -/
  queues : Map (List QEntry) := []
  /-- the model's own counter of queue-entry names -/
  nextId : Nat := 0
  /-- HEM_BASE, 32 bits (R107) -/
  hemBase : Word := 0
  /-- HEM_LIMIT, 32 bits (R107) -/
  hemLimit : Word := 0
  /-- CORE_ADDR, 32 bits (R159) -/
  coreAddr : Word := 0
  /-- whether the core holds a data address (R14, R132) -/
  addrValid : Bool := false
  /-- number of the instance whose task the core runs (R19, R98) -/
  inst : Option (Fin 12) := none
  /-- MCLK cycle count at the task's start, for CYCLE (R159) -/
  cycle0 : Nat := 0
  /-- ITAINT bit 0 (R159, R166) -/
  itaint : Bool := false
  /-- loop stack, innermost first, at most 4 entries (R158) -/
  loops : List LoopEntry := []
  /-- return stack, newest first, at most 8 entries (R158) -/
  rets : List Nat := []
  /-- tack snapshot (R158) -/
  snap : Snapshot := {}
  /-- trap code of the trap taken, 0 none (R178) -/
  trapCode : Nat := 0
  /-- completion status of a queue-error trap, for its class (R178, R163) -/
  trapStatus : Nat := 0
  /-- engine positions 0-7 -/
  pos : Map PosState := []
  /-- physical engines 0-8 -/
  eng : Map EngState := []
  /-- instruction store, 32,768 words of 64 bits (R97) -/
  istore : Map Nat := []
  /-- instruction-store words with an uncorrectable ECC error (R178) -/
  istoreBad : List Nat := []
  /-- scratchpad: pair p from 512 KiB × p, wide group from 4 MiB (R99) -/
  sp : Mem := []
  /-- poisoned 64-bit words of the scratchpad (R111), by word index 0-786,431 -/
  poison : Map Bool := []
  /-- 64-bit words of the scratchpad that hold a single-bit error, by word index: they read corrected (R110) -/
  spFlip : Map Bool := []
  /-- word that the scrubber reads next, 0-786,431 (R112) -/
  scrubPtr : Nat := 0
  /-- words that have returned an uncorrectable error since the last device reset (R454) -/
  badWords : List Nat := []
  /-- owner tags of granules 0-1,535, 10 bits (R124); 0x3FF at reset -/
  owner : Map Nat := []
  /-- changes of owner waiting to be zeroed, in order (R125) -/
  zeroq : List ZeroReq := []
  /-- `sp_zero_wait`: MCLK cycles that changes of owner have waited, 64 bits (R125) -/
  zeroWait : Nat := 0
  /-- `sp_corrected`, 64 bits (R110) -/
  spCorrected : Nat := 0
  /-- `sp_uncorrectable`, 64 bits (R111) -/
  spUncorr : Nat := 0
  /-- lost cycles of NF, FW0, FW1, SQ, NL, RQ, DW, ZN, ZW, 64 bits each (R113) -/
  portLost : Map Nat := []
  /-- conflict cycles of banks 0-23, 64 bits each (R113) -/
  bankConflict : Map Nat := []
  /-- DMA channels 0-7, at most 16 descriptors each (R118) -/
  dma : Map (List DDesc) := []
  /-- the model's own counter of accepted descriptors (R118) -/
  dmaOrder : Nat := 0
  /-- staging buffer: the stream holding each 4 KiB part 0-15, 0 free (R121) -/
  staging : Map Nat := []
  /-- bytes of the staging buffer, 64 KiB (R121) -/
  stagingMem : Mem := []
  /-- side-buffer slots 0 and 1 (R117) -/
  side : Map (Option FcSample) := []
  /-- tile passes of the layer pass in progress that the fitting check's draw has been taken for: (L, engine, tile)
  (R78, R79) -/
  fcDrawn : List (Nat × Nat × Nat) := []
  /-- arrival counters, at most 32 (R215) -/
  arrivals : List Arrival := []
  /-- candidate buffer (R226) -/
  cand : Option CandBuf := none
  /-- merge entries of the sampling unit, at most 64 (R228) -/
  merge : List CandBuf := []
  /-- candidate packets delivered and not yet merged (R228) -/
  candIn : List Packet := []
  /-- notice queue, at most 4 words (R223) -/
  notices : List Word := []
  /-- neighbour refusals on their way back: (status, pc, opcode) (R216) -/
  nbrComing : List (Nat × Nat × Nat) := []
  /-- neighbour refusals arrived and not yet taken as a trap -/
  nbrArrived : List (Nat × Nat × Nat) := []
  /-- NBIND0-NBIND3, 32 bits each (R248) -/
  nbind : Map Nat := []
  /-- VC2 requests outstanding (R138) -/
  rqOut : List RqReq := []
  /-- the model's own counter of request numbers -/
  nextRid : Nat := 0
  /-- requests delivered to this core and not yet served (R109) -/
  rqIn : List Packet := []
  /-- responses and completions delivered and not yet taken (R155) -/
  rqResp : List Packet := []
  /-- multicast packets delivered at L and not yet written (R143) -/
  mcIn : List Packet := []
  /-- tokens that the SPICKs of the step wrote, by sample slot, each plus 1 in bits [24:0]; bit 31 is the taint,
  bit 32 says that the penalties were inexact (R229, R230, R308) -/
  picks : Map Nat := []
  /-- results of reductions that this core, as their root, has reserved: group, queue, entry (R219) -/
  redWait : List (Nat × Nat × Nat) := []
  /-- MCLK cycle before which a WAIT lets nothing issue (R222) -/
  issueAt : Nat := 0
  /-- tacks completed when the core reached its present TACK -/
  tackAt : Nat := 0
  /-- hazard detector: kinds already recorded in this tack interval (R184) -/
  hzSeen : List Nat := []
  /-- hazard detector: local ranges of descriptors and remote requests (R183) -/
  hzRanges : List HzRange := []
  /-- hazard detector: the latest accesses, newest first (R183) -/
  recent : List Recent := []
  /-- the code block that the core runs, for its `start` and `step_entry` (R235) -/
  block : Nat := 0
  /-- header stages closed, 0-4 (R429) -/
  header : Nat := 0
deriving DecidableEq, Repr

/-! ## Fabric -/

/-- A router (R129), by physical core index. -/
structure Router where
  /-- packets waiting at the router: (input port 0 N, 1 E, 2 S, 3 W, 4 L, 5 D, 6 C; packet), oldest first -/
  inq : List (Nat × Packet) := []
  /-- translation table: entry 100 × panel + logical holds 0x8000 + physical core index when valid (R132) -/
  trans : Map Nat := []
  /-- tree table, 64 entries of 32 bits (R142) -/
  tree : Map Nat := []
  /-- darn entries, 16 of 32 bits (R150) -/
  darn : Map Nat := []
  /-- reduction inputs waiting, by group: (port, contribution), in arrival order (R144) -/
  red : Map (List (Nat × Packet)) := []
  /-- tack arrivals waiting on entry 63: input ports heard (R243) -/
  tackIn : List Nat := []
  /-- failed (R151) -/
  failed : Bool := false
deriving DecidableEq, Repr

/-- One direction of a router-to-router link (R146-R148). -/
structure LinkDir where
  /-- sequence number the receiver expects, 8 bits -/
  expect : BitVec 8 := 0
  /-- the receiver has asked for a replay from `expect` and still waits for it -/
  awaiting : Bool := false
  /-- sequence number of the sender's next flit, 8 bits -/
  next : BitVec 8 := 0
  /-- replays of the expected sequence number -/
  replays : Nat := 0
  /-- flits or bursts discarded in the present 1 ms -/
  discards : Nat := 0
  /-- start of the present 1 ms window, TIME64 counter -/
  winStart : Nat := 0
  /-- it has given up (R148) -/
  dead : Bool := false
deriving DecidableEq, Repr

/-! ## PCIe functions -/

/-- The PCIe state of one function that gates messages and host memory (R362, R372, R524). -/
structure Fn where
  /-- VF Enable and NumVFs, of a physical function (R372) -/
  vfEnable : Bool := false
  numVfs : Nat := 0
  /-- Bus Master Enable -/
  bme : Bool := false
  /-- MSI-X Enable -/
  msixEn : Bool := false
  /-- vectors unmasked in the MSI-X table, by vector; masked at reset (the PCIe rule, log entry 9) -/
  unmasked : BitVec 16 := 0
  /-- message address and data of each vector of the MSI-X table, as bits 95-0 (R362, R375) -/
  msix : Map Nat := []
  /-- pending-bit array, by vector -/
  pba : BitVec 16 := 0
deriving DecidableEq, Repr

/-! ## The event log -/

/-- An event-log entry (R414). -/
structure LogEntry where
  time : Nat
  seq : Nat
  source : Nat
  inst : Nat
  cls : Nat
  cause : Nat
  /-- 128-bit record -/
  record : Nat
deriving DecidableEq, Repr

/-! ## Seams -/

/-- A transfer that this part has put on a seam (R477). -/
structure SeamMsg where
  type : Nat
  src : Nat
  dst : Nat
  hops : Nat := 0
  tag : Nat
  taint : Bool
  payload : List Byte
deriving DecidableEq, Repr

/-- A seam's link state (R477-R479). -/
structure Seam where
  /-- expected transfer sequence number, 12 bits -/
  expect : Nat := 0
  /-- replays of the expected number -/
  replays : Nat := 0
  /-- sequence number of the oldest transfer not yet acknowledged, 12 bits, and replays of it that the peer asked for -/
  base : Nat := 0
  resent : Nat := 0
  /-- bursts discarded in the present 1 ms, and its start -/
  discards : Nat := 0
  winStart : Nat := 0
  /-- the next trailer asks for a replay -/
  askReplay : Bool := false
  /-- transfers put on the seam and not yet acknowledged, oldest first (replay buffer of 512) -/
  tx : List SeamMsg := []
deriving DecidableEq, Repr

/-! ## Serving -/

/-- A row of a step plan (R300). -/
structure PlanRow where
  handle : Nat
  position : Nat
  token : Nat
  /-- sample slot, 0xFFFF when the row chooses no token -/
  sample : Nat
  /-- 0 prefill; 1 decode; 2 verify; 3 draft head -/
  kind : Nat
  index : Nat
  alteration : Nat
  slot : Nat
deriving DecidableEq, Repr

/-- A step plan (R300); a sample-slot entry is (`ctop_k`, row, handle). -/
structure Plan where
  step : Nat := 0
  /-- 0 decode; 1 prefill -/
  kind : Nat := 0
  rows : List PlanRow := []
  samples : List (Nat × Nat × Nat) := []
deriving DecidableEq, Repr

/-- State of a sequence (R283). -/
inductive SeqState where
  | free
  | idle
  | active
  | preempted
  | parked
deriving DecidableEq, Repr

/-- What a draft sequence has to do (R314): tokens to cache, how many are cached, drafts still to choose and chosen,
the length they follow, the drafts per step. -/
structure DraftWork where
  pos0 : Nat := 0
  feed : List Nat := []
  fed : Nat := 0
  nPrompt : Nat := 0
  left : Nat := 0
  out : List Nat := []
  base : Nat := 0
  m : Nat := 0
deriving DecidableEq, Repr

/-- A residual record of a sequence (R73): its 72 bytes, and whether its generation can still match one: a stale record's
never does (R76). -/
structure ResRec where
  bytes : List Byte := List.replicate 72 0
  live : Bool := true
deriving DecidableEq, Repr

/-- A sequence record, by sequence index (R281, R282, R284). -/
structure Seq where
  state : SeqState := .free
  /-- generation of the index, 16 bits; it counts each freeing -/
  gen : Nat := 0
  slot : Nat := 0
  inst : Nat := 0
  /-- tokens cached (R278) -/
  length : Nat := 0
  maxContext : Nat := 0
  pinnedLen : Nat := 0
  /-- HBM address of the page list and its number of entries (R263) -/
  listAddr : Nat := 0
  listLen : Nat := 0
  /-- the sequence's tokens from position 0 on; the record's sampling window is the last 4,096 of them (log entry 80) -/
  tokens : List Nat := []
  /-- drafts held for the next step, and the length they follow (R311, R313, R314) -/
  drafts : List Nat := []
  draftsAt : Nat := 0
  /-- stack, counted in HB order, where the next page's search starts (R256) -/
  nextStack : Nat := 0
  /-- hot slot held, if any (R271) -/
  hot : Option Nat := none
  /-- TIME64 counter when it last completed a step (R273) -/
  lastStep : Nat := 0
  /-- the draft sequence paired with it, or the target it drafts for: sequence index (R314) -/
  pair : Option Nat := none
  /-- a draft sequence (R314) -/
  isDraft : Bool := false
  /-- entries whose copy is under way, out (true) or in (false): list index, swap slot, page (R274, R276) -/
  moving : List (Nat × Nat × Nat) := []
  movingOut : Bool := false
  /-- pages copied by the swap-out under way, and when the sequence was withdrawn -/
  moved : Nat := 0
  outSince : Nat := 0
  /-- since when steps have passed it over for want of a page (R277) -/
  stallSince : Option Nat := none
  /-- its last request ended with status 0x0A (R316) -/
  starved : Bool := false
  /-- its last entry was rewritten at the instance's latest tack: it becomes schedulable at the next one (R276) -/
  fresh : Bool := false
  /-- work of a draft sequence (R314) -/
  draft : DraftWork := {}
  /-- residual records by number (R77, R281), and those kept during a verification pass: 16 × number + position of the
  row above the pass's first (R76) -/
  records : Map ResRec := []
  kept : Map ResRec := []
deriving DecidableEq, Repr

/-- A request (R288, R296, R303): an entry of its slot's key table, from its acceptance, or from its refusal, on. -/
structure Req where
  slot : Nat
  key : Nat
  from_ : Transport
  /-- 1 GENERATE; 2 APPEND; 3 TRUNCATE; 4 PARK; 5 RELEASE; 6 CANCEL -/
  opcode : Nat
  e : SubEntry
  tokens : List Nat
  params : Option ParamBlock
  /-- CRC-32C that tells reuse with other content (R296) -/
  crc : Nat := 0
  /-- instance of the slot -/
  inst : Nat := 0
  /-- handle shown in completions (R290) -/
  handle : Nat := 0
  /-- sequence index it runs on -/
  seq : Option Nat := none
  admitted : Bool := false
  /-- acceptance order and time (R299) -/
  order : Nat := 0
  accepted : Nat := 0
  seed : Nat := 0
  /-- tokens to cache from position `pos0` on: a committed token not yet cached, then the input, then each chosen token;
  how many of them are the prompt, and how many are cached -/
  pos0 : Nat := 0
  feed : List Nat := []
  nPrompt : Nat := 0
  fed : Nat := 0
  /-- tokens emitted, oldest first -/
  emitted : List Nat := []
  /-- tokens counted by the latest completion, and when it was posted -/
  reported : Nat := 0
  reportedAt : Nat := 0
  lastCommit : Option Nat := none
  ttftUs : Nat := 0xFFFFFFFF
  tbtMaxUs : Nat := 0
  tbtViol : Nat := 0
  draftsProp : Nat := 0
  draftsAcc : Nat := 0
  preUs : Nat := 0
  /-- since when the sequence has been pre-empted, parked or without pages while the request was active -/
  stalledAt : Option Nat := none
  /-- taint over the request, and since the latest completion; penalty-inexact likewise (R290, R308) -/
  taint : Bool := false
  taintSince : Bool := false
  inexact : Bool := false
  inexactSince : Bool := false
  stopReason : Nat := 0
  stopIndex : Nat := 0
  /-- its final completion's bytes once it has ended, and when -/
  final : Option (List Byte) := none
  finalAt : Nat := 0
  /-- FRP: tokens acknowledged by the client, as ranges of indices: first, count -/
  acked : List (Nat × Nat) := []
deriving DecidableEq, Repr

/-! ## Instances -/

/-- A change that waits for a tack of its instance (R23, R24). -/
inductive Change where
  /-- recipe switch: the requested variant of each layer (R88) -/
  | recipe (variants : List Byte)
  /-- the same, applied at the cascade-wide tack (R91) -/
  | recipeC (variants : List Byte)
  /-- clear request of sticky precision flags (R87) -/
  | precClear (mask : Nat)
  /-- clear request of a core's conflict counters (R114) -/
  | ccClear (core : Nat)
  /-- snapshot request (R419) -/
  | snapshot
  /-- TRUNCATE of a sequence to a length, by the request that asks for it (R279) -/
  | truncate (slot key : Nat)
  /-- ENABLE of a slot (R351) -/
  | enable (slot : Nat)
  /-- withdrawal of a draining slot's requests not yet admitted (R355 step 2) -/
  | withdraw (slot : Nat)
  /-- a copied-out page's entry is rewritten: sequence, list index, swap slot (R274 step 4) -/
  | swappedOut (seq entry swapSlot : Nat)
  /-- a copied-in page's entry is rewritten: sequence, list index, page (R276) -/
  | swappedIn (seq entry page : Nat)
  /-- a committed set of writes (R406): session name, entries by key, their bytes -/
  | commit (ses : SessId) (entries : List (Nat × List Byte))
  /-- rewrite of a model region from an HBM address on, its shard fetched again (R339) -/
  | rewrite (addr : Nat) (bytes : List Byte)
  /-- new value of a slot's alteration binding (R369) -/
  | altBinding (slot value : Nat)
  /-- CANCEL of the request with a key (R298), and the key of the CANCEL itself -/
  | cancel (slot key target : Nat)
  /-- a duplicate of an active request, and where it came from (R297) -/
  | duplicate (slot key : Nat) (from_ : Transport)
  /-- PARK of a sequence, by its request (R288) -/
  | park (slot key : Nat)
  /-- RELEASE of a sequence, by its request (R288) -/
  | release (slot key : Nat)
  /-- a direct write of an entry that takes effect at a tack (R370) -/
  | entry (key value : Nat)
  /-- a stack's retrain asked for (R385) -/
  | retrain (stack : Nat)
  /-- clear request of a slot's accounting counters (R26, R368) -/
  | acctClear (slot : Nat)
deriving DecidableEq, Repr

/-- The long operation of an instance that is under way (R325, R322, R323, R333). -/
inductive Busy where
  | none
  /-- zeroing after FORM -/
  | forming
  /-- zeroing after UNLOAD -/
  | unloading
  /-- zeroing of a DISSOLVE; `first` while the model is being unloaded -/
  | dissolving (first : Bool)
deriving DecidableEq, Repr

/-- A position waiting for a spare (R252, R253): its data address, and the spare chosen. -/
structure Replace where
  panel : Nat
  logical : Nat
  spare : Option Nat
deriving DecidableEq, Repr

/-- How a tile source of a WEIGHTS shard was converted (R331, R93): what the re-check needs to form its bytes again (R338). -/
structure SrcForm where
  source : Nat
  /-- `row_blocks` of its header -/
  rows : Nat
  /-- MXFP4: whether each row block was split -/
  splits : List Bool
  /-- its bytes, of a source that no tile holds (log entry 79) -/
  raw : List Byte
deriving DecidableEq, Repr

/-- A load in progress (R333): what has arrived of the model and how far it stands. -/
structure Load where
  /-- shards whose digest has matched -/
  done : List Nat := []
  /-- mismatches counted by shard -/
  misses : Map Nat := []
  /-- tiles whose program verification has failed once: TILES record number -/
  failedOnce : List Nat := []
  /-- tiles programmed and verified, by TILES record number -/
  programmed : List Nat := []
  /-- tiles whose golden image is in place, by TILES record number -/
  placed : List Nat := []
  /-- tile sources that have come so far (R331) -/
  sources : List Nat := []
deriving DecidableEq, Repr

/-- A re-check round (R338): shards still to hash. -/
structure Recheck where
  left : List Nat
  /-- TIME64 counter at its start -/
  start : Nat
  late : Bool := false
deriving DecidableEq, Repr

/-- What the panel controllers, the loader and the scheduler of an instance hold (R16, R18, R23-R25, R300). -/
structure Inst where
  /-- panels of the rectangle as captured at FORM, lowest first (R18) -/
  panels : List Nat := []
  /-- tacks completed (R159 TACK_SEQ) -/
  tackSeq : Nat := 0
  /-- panels whose combined tack arrival is in (R243) -/
  arrived : List Nat := []
  /-- the release of the last tack is withheld: no step runs (R301) -/
  withheld : Bool := false
  /-- the step plan in force (R300) -/
  plan : Plan := {}
  /-- tenant slot of each sample slot of the latest step (R356) -/
  sampleOf : List Nat := []
  /-- layer-pass sequence number L (R78) -/
  layerPass : Nat := 0
  /-- fitting-check settings in force since the last tack (R84): `fc_rate_log2`, `fc_enable`, `fc_seed` -/
  fcRate : Nat := 12
  fcEnable : Bool := true
  fcSeed : Nat := 0
  /-- recipe table of the pattern in force: entry 4 × layer + variant, 64 bits (R85) -/
  recipes : Map Nat := []
  /-- the cores are stopped at an instruction boundary for a trap, fault or repair (R179, R152) -/
  halted : Bool := false
  /-- a trap of the present interval awaits its decision; one of them is of fault class (R179) -/
  trapped : Bool := false
  trapFault : Bool := false
  /-- a restart waits for the first idle tack at which its repair is in force (R180, R152) -/
  restartDue : Bool := false
  /-- that restart counts and enters each block at `step_entry` (R253) -/
  fromStep : Bool := false
  /-- a failed link or router of the instance waits for its darn set (R152) -/
  waitDarn : Bool := false
  /-- positions waiting for a spare, and whether their spares are written and programmed (R253) -/
  replacing : List Replace := []
  sparesReady : Bool := false
  /-- a fault's actions wait for the next tack (R346) -/
  faultDue : Bool := false
  /-- STOP waits for the next step-boundary tack (R325); its cause is a temperature (R441) -/
  stopDue : Bool := false
  /-- changes waiting for the next tack, in arrival order (R24) -/
  changes : List Change := []
  /-- how many of them, the first ones, had arrived before the capture instant of a cascaded tack that is not released
  yet (R24, R490) -/
  taken : Nat := 0
  /-- device-wide entries in force since the instance's last tack (R157, R319), by key; each at its table default -/
  inForce : Map Nat := []
  /-- operation under way -/
  busy : Busy := .none
  /-- a step is in flight, the layer passes of it that have ended, its start -/
  stepOn : Bool := false
  passes : Nat := 0
  stepStart : Nat := 0
  /-- the step in flight is abandoned and runs again (R152) -/
  abandoned : Bool := false
  /-- steps committed or run since the instance became fitted -/
  stepNo : Nat := 0
  /-- estimates and kinds of the last 64 steps, newest first (R301) -/
  estPre : Nat := 0
  estDec : Nat := 0
  kinds : List Bool := []
  /-- HBM addresses placed by the loader: pool, alteration store, serving queue table, page-list area -/
  poolBase : Nat := 0
  altBase : Nat := 0
  queueBase : Nat := 0
  /-- pattern regions in HBM: id to address (R239) -/
  regions : Map Nat := []
  /-- pages not free: 1 + slot while held, 1000 while being zeroed, 1001 + slot while zeroed in a slot's teardown -/
  pages : Map Nat := []
  /-- hot slots: the sequence index plus 1 that holds each (R271) -/
  hot : Map Nat := []
  /-- alteration slots holding a record, with its length (R341) -/
  alts : Map Nat := []
  /-- a record in the replacement buffer: slot and bytes (R342) -/
  altSwap : Option (Nat × List Byte) := none
  /-- the pattern image, manifest and descriptor in force or being loaded -/
  pattern : List Byte := []
  manifest : List Byte := []
  desc : List Byte := []
  /-- the load under way -/
  load : Option Load := none
  /-- the split map of the model's WEIGHTS shards (R93, R338): their sources in shard order, by shard number -/
  forms : Map (List SrcForm) := []
  /-- SHA-384 of the stored form of each BF16 table, by shard number (R338, log entry 79) -/
  formDigest : Map (List Byte) := []
  /-- cores retired for the present model (R334) -/
  retired : List Nat := []
  /-- re-check round under way, and tiles skipped -/
  recheck : Option Recheck := none
  /-- sampling and serving: requests' acceptance counter -/
  nextOrder : Nat := 0
  /-- snapshot area (R419) and its capture time -/
  snapshot : List Byte := []
  /-- the lining of the instance's panels is in retention (R422) -/
  retention : Bool := false
  /-- cascade: the group is Held, the release awaited (R490) -/
  cascWait : Bool := false
  /-- the step to come has been counted as delayed by a power cap (R443) -/
  capped : Bool := false
  /-- temperature holds the instance; regions (and 0x100 + stack) that caused it (R441) -/
  hot_ : List Nat := []
  /-- STOP has been taken and RESUME has not (R325) -/
  hostStop : Bool := false
deriving DecidableEq, Repr

/-! ## Tenant slots -/

/-- A ring's registers (R285): base, configuration, head and tail. -/
structure Ring where
  base : Nat := 0
  sizeLog2 : Nat := 0
  enable : Bool := false
  error : Bool := false
  head : Nat := 0
  tail : Nat := 0
  /-- completion ring: the phase of the next entry (R290) -/
  phase : Bool := true
deriving DecidableEq, Repr

/-- A datagram sent and not yet acknowledged (R295). -/
structure FrpOut where
  seq : Nat
  type : Nat
  body : List Byte
  tries : Nat := 0
deriving DecidableEq, Repr

/-- A request being assembled from FRP datagrams (R294). -/
structure FrpReq where
  key : Nat
  /-- association of its datagrams -/
  assoc : Nat
  /-- opcode and entry, once the SUBMIT has come -/
  entry : Option (Nat × SubEntry) := none
  /-- bytes received of the input tokens and of the parameter block: each piece's offset and bytes, oldest first -/
  tokens : List (Nat × List Byte) := []
  params : List (Nat × List Byte) := []
deriving DecidableEq, Repr

/-- An FRP association (R293). -/
structure Assoc where
  assoc : Nat
  /-- next sequence number expected, and those received beyond it -/
  expect : Nat := 0
  beyond : List Nat := []
  /-- next sequence number of the device -/
  next : Nat := 0
  out : List FrpOut := []
  ackDue : Bool := false
  failed : Bool := false
  /-- service Ethernet port that last received a valid datagram -/
  port : Nat := 0
deriving DecidableEq, Repr

/-- A tenant slot beyond its dictionary entries (R348-R370). -/
structure Slot where
  sq : Ring := {}
  cq : Ring := {}
  frpKey : Option (List Byte) := none
  /-- a key written in Draining or Closing (R353) -/
  heldKey : Option (List Byte) := none
  /-- the DISABLE's time, while Draining (R355) -/
  drainStart : Nat := 0
  /-- teardown: 0 none; 1 intake stopped; 2 captured; the final completions still owed wait in `finals` (R357) -/
  teardown : Nat := 0
  /-- the teardown follows a function-level reset: no completion is posted (R358) -/
  flr : Bool := false
  /-- virtual admission time (R365) -/
  vt : Nat := 0
  /-- final completions waiting for ring space, oldest first (R292) -/
  finals : List (List Byte) := []
  /-- final completions of withdrawn and aborted requests that wait for step 3 of the teardown (R355, R357) -/
  heldBack : List (Transport × List Byte) := []
  /-- completion entries written and not yet announced (R363) -/
  unannounced : Nat := 0
  /-- TIME64 counter of the last vector 3 message (R362) -/
  alertAt : Option Nat := none
  assocs : List Assoc := []
  frpReqs : List FrpReq := []
  /-- swap slots not free: 1 + sequence index while in use, 2^20 while zeroed, 2^20 + 1 while zeroed in a teardown -/
  swap : Map Nat := []
deriving DecidableEq, Repr

/-! ## Zwiys sessions (R395-R409) -/

/-- A subscription (R409). -/
structure Subscr where
  /-- its number, 32 bits -/
  number : Nat
  index : Nat
  sub : Nat
  /-- period in ms, 0 on change -/
  period : Nat
  /-- notifications generated -/
  count : Nat := 0
  /-- value last sent -/
  last : List Byte := []
deriving DecidableEq, Repr

/-- A Zwiys session (R395): its baste set, blob buffer and subscriptions; for DTLS its client, for a mailbox its
registers (R396). -/
structure Ses where
  isOpen : Bool := false
  /-- SHA-384 of the client certificate -/
  cert : List Byte := []
  /-- management segment the session runs on -/
  segment : Nat := 0
  /-- staged writes in baste order: entry key and bytes (R403) -/
  baste : List (Nat × List Byte) := []
  /-- scope of the set (R405): an instance, 0xFF device, 0xFE none -/
  scope : Nat := 0xFE
  commitState : Nat := 0
  commitResult : Nat := 0
  commitSeq : Nat := 0
  commitTime : Nat := 0
  /-- whole-value BLOB collecting (R402) -/
  blob : Option (Nat × List Byte) := none
  subs : List Subscr := []
  busy : Bool := false
  ready : Bool := false
  /-- mailbox: the message in the request buffer (R396) -/
  request : Option ZMsg := none
  /-- response buffer -/
  response : List Byte := []
deriving DecidableEq, Repr

/-! ## External interfaces -/

/-- An HBM stack beside its entries (R383, R385, R441). -/
structure Stack where
  refresh2 : Bool := false
  limited : Bool := false
  /-- retrain asked for: 1 waiting for the tack, 2 running -/
  retrain : Nat := 0
deriving DecidableEq, Repr

/-- A PCIe port beside its entries (R29, R373). -/
structure Port where
  /-- PERST# is held low -/
  perst : Bool := false
  /-- PCLKn comes from OCLKn, with SRIS -/
  sris : Bool := true
deriving DecidableEq, Repr

/-- A multipurpose pin (R389): function attached, function being switched to, write held, alert input active. -/
structure Pin where
  func : Nat := 0
  want : Nat := 0
  held : Option Nat := none
  alert : Bool := false
deriving DecidableEq, Repr

/-- The instruction in the TAP's instruction register (R392). -/
inductive TapIr where
  | idcode | bypass | sample | preload | extest | extestPulse | extestTrain | clamp
deriving DecidableEq, Repr

/-- The TAP (R391, R392). -/
structure Tap where
  ir : TapIr := .idcode
  /-- boundary register as PRELOAD wrote it -/
  boundary : List Bool := []
deriving DecidableEq, Repr

/-! ## Power, clock, thermal -/

/-- A notice pending at a region controller (R430, R431). -/
structure Notice where
  core : Nat
  /-- signed, in 0.25 A -/
  delta : Int
  /-- TIME64 counter of the step -/
  due : Nat
  kind : Nat
  hold : Nat
deriving DecidableEq, Repr

/-- A power region beside its entries (R429-R442). -/
structure Region where
  /-- notices pending, at most 8 -/
  notices : List Notice := []
  /-- the coarse converter supplies the next sample (R434) -/
  coarse : Bool := false
  /-- consecutive coarse readings of 34.0 A or less -/
  low : Nat := 0
  /-- samples of the present 1 ms, and their sum in units of 40 A / 4,096 -/
  count : Nat := 0
  sum : Nat := 0
  /-- reports in a row below `t_throttle` − 3 °C, and at level 10 above `t_throttle` (R442) -/
  cool : Nat := 0
  top : Nat := 0
deriving DecidableEq, Repr

/-- A panel's dither and estimate (R444, R445). -/
structure PanelSt where
  /-- (P, T) of the last 60 chips, newest first: W and m°C -/
  chips : List (Int × Int) := []
  /-- shift of the panel's core set points in force, mV -/
  shift : Int := 0
  /-- `uptime` at the last accepted estimate, and at the start of a 96% window -/
  acceptedAt : Nat := 0
  window : Option Nat := none
deriving DecidableEq, Repr

/-- The power sequencer (R425-R428): PWR_EN as taken, the last step finished (0 Off, 1-5 U1-U5, 6-10 D1-D5), PWR_GOOD
pulled low, which of PWR_EN (0) and `pwr_enable` (1) changed last, the input back in range after a trip, and a shutdown by temperature that is still to be logged: region and its temperature (R441). -/
structure Power where
  pwrEn : Bool := false
  step : Nat := 0
  good : Bool := false
  source : Nat := 0
  recovered : Bool := false
  shutdown : Option (Nat × Nat) := none
deriving DecidableEq, Repr

/-! ## Cascade -/

/-- What a member or the master holds of a cascade beside the entries (R486-R493). -/
structure Casc where
  /-- member that is master, 16 none -/
  master : Nat := 16
  /-- records of the present tack -/
  records : List TackRec := []
  /-- swap requests collected: requester and target -/
  swaps : List (Nat × Nat) := []
  /-- groups Held -/
  held : List Nat := []
  /-- a commit from C waits for the barrier tack -/
  barrier : Bool := false
  /-- the tree of members: child and its parent's member index -/
  tree : List (Nat × Nat) := []
  /-- the tree is to be built again at the next tack: a seam or the master has changed -/
  stale : Bool := true
  /-- the lead's plan for the step to come (R485) -/
  plan : List Byte := []
  /-- last message from the master -/
  heardAt : Nat := 0
deriving DecidableEq, Repr

/-! ## Security -/

/-- An image bank (R501-R503): header bytes, verified chunks, and blocks of chunks still incomplete. -/
structure Bank where
  header : List Byte := []
  /-- header bytes that have arrived, by 1,024-byte block -/
  hdrBlocks : List Nat := []
  chunks : Map (List Byte) := []
  /-- blocks of unverified chunks by 64 × chunk + block -/
  blocks : Map (List Byte) := []
deriving DecidableEq, Repr

/-- The management die's security state (R497-R509). -/
structure Sec where
  /-- key slots A and B with their commit records: 2,304 + 64 bytes; empty once erased; factory-set (log entry 4) -/
  slotA : List Byte := Config.factoryBlob 1
  slotB : List Byte := Config.factoryBlob 2
  /-- image banks; bank 0 holds the factory image at first, its header factory-set (log entry 4) -/
  bank0 : Bank := { header := Config.factoryBlob 3 }
  bank1 : Bank := {}
  /-- the two copies of the active mark: sequence number and bank (R501) -/
  markA : Nat × Nat := (0, 0)
  markB : Nat × Nat := (0, 0)
  /-- armed activation: CONFIRM has come -/
  confirmed : Bool := false
  /-- activation not yet followed by the counter, and watchdog restarts since (R506) -/
  holding : Bool := false
  watchdogs : Nat := 0
  /-- key package as written so far (R498) -/
  pkg : List Byte := []
  /-- nonce handed out and not yet used (R509) -/
  nonce : Option (List Byte) := none
  /-- recovery: no bank passes (R501) -/
  recovery : Bool := false
deriving DecidableEq, Repr

end Sys2Proof.Machine
end

