-- ==== Sys2Proof/Machine/State.lean ====
section
/-! DEFINITION. The machine's whole state as plain data, the reasons a step can stop, and the state after reset. -/

namespace Sys2Proof.Machine

/-- Reasons the machine could stop with a fault. No meaning raises one: every exception the spec describes is taken,
and every error it names is a next state. -/
inductive Fault where
  /-- raised by nothing; present because the interface asks for a type (safe) -/
  | none
deriving DecidableEq, Repr

/-- Reasons a command could have no meaning. -/
inductive Refusal where
  /-- a command whose meaning is not written, by its mnemonic (safe: nothing can be proved of it) -/
  | notModelled (mnemonic : String)
deriving DecidableEq, Repr

/-- The state of the whole device. -/
structure State where
  /-- commands waiting, first in first out -/
  pending : List Instr := []
  /-- the numeric entries of the Zwiys dictionary, by index × 256 + subindex (R411); each at its table default -/
  dict : Map Nat := []
  /-- the BLOB and STR entries (R400), by index × 256 + subindex; each at its table default -/
  blobs : Map (List Byte) := []
  /-- the hardware TIME64 counter, ns (R414), 64 bits -/
  time : Nat := 0
  /-- ns since the last device reset (R412 `uptime`), 64 bits -/
  uptime : Nat := 0
  /-- wall time has been taken (R414) -/
  wallTaken : Bool := false
  /-- MCLK cycles since the device reset, in millionths of a cycle (R28, R159) -/
  mclkAcc : Nat := 0
  /-- the model's own field: number of the next free value (log entry 3) -/
  freeNext : Nat := 0
  /-- the event log's ring, newest first, at most 65,536 entries (R414) -/
  log : List LogEntry := []
  /-- physical cores 0-1,199 (R12, R97) -/
  cores : Map Core := []
  /-- scrubbing of the linings and scratchpads is enabled; on by default, and no entry that turns it off is given (R59, R112,
  log entry 66) -/
  scrubOn : Bool := true
  /-- routers 0-1,199 (R129) -/
  routers : Map Router := []
  /-- links: 2 × the link's number in `link_map`, plus 1 for the reverse direction; from 4,660 on, in the same order, the
  neighbour links between the same cores (R140, R146) -/
  links : Map LinkDir := []
  /-- PCIe functions: 65 × port, plus 0 for the physical function or k + 1 for virtual function k (R372) -/
  fns : Map Fn := []
  /-- MSI-X messages sent: (function, vector), newest first (R362, R375) -/
  sent : List (Nat × Nat) := []
  /-- `uptime` when vector 1 was last sent, and whether one is held back by its 1 ms moderation (R416) -/
  logMsgAt : Option Nat := none
  logMsgHeld : Bool := false
  /-- contents of the 16 HBM stacks by HBM byte address, stack n from 64 GiB × n (R15, R119) -/
  hbm : Mem := []
  /-- 64-bit words of the HBM stacks that read poisoned, by byte address div 8 (R382) -/
  hbmPoison : Map Bool := []
  /-- words of the HBM stacks, by the same number, in which the next read finds an error: 1 single-bit, 2 uncorrectable (R382) -/
  hbmErr : Map Nat := []
  /-- instances 0-11 (R18) -/
  insts : Map Inst := []
  /-- host memory as the device has written it, by port × 2^64 + PCIe address (R376, R377) -/
  hostMem : Mem := []
  /-- device window tables: 4 × window + word, 64 bits each (R376) -/
  winTab : Map Nat := []
  /-- slot windows: 16 × slot + 2 × k, plus 1 for SWINk_SIZE (R377) -/
  swin : Map Nat := []
  /-- seams 0-15 (R476) -/
  seams : Map Seam := []
  /-- sequences 0-65,535 (R281) -/
  seqs : Map Seq := []
  /-- tenant slots 0-511 (R348) -/
  slots : Map Slot := []
  /-- in-service failure marks of cores, in the persistent store (R470) -/
  marks : Map Bool := []
  /-- key tables of all slots: requests accepted, and ended ones whose key window runs (R296), oldest first -/
  reqs : List Req := []
  /-- what the device has sent, newest first: channel (see `chan…` in Machine/Ops.lean) and bytes -/
  tx : List (Nat × List Byte) := []
  /-- Zwiys sessions (R395): 0-15 DTLS, 16 + port MCTP, 24 + port physical function, 32 cascade, 64 + slot -/
  sessions : Map Ses := []
  /-- responses kept for 10 s: client identity, request, bytes; newest first (R401) -/
  kept : List (List Byte × Nat × List Byte) := []
  /-- PTP: rank + 1 of the grandmaster heard on each segment (R381) -/
  ptp : Map Nat := []
  /-- HBM stacks 0-15 -/
  hbmStacks : Map Stack := []
  /-- PCIe ports 0-7 -/
  ports : Map Port := []
  /-- multipurpose pins 0-7 -/
  pins : Map Pin := []
  tap : Tap := {}
  /-- power regions 0-299 -/
  regions : Map Region := []
  /-- panels 0-11 -/
  panels : Map PanelSt := []
  power : Power := {}
  casc : Casc := {}
  sec : Sec := {}
  /-- the older copy of each instance's journal record (R344); the copy in force is the `journal` entry -/
  journalOld : Map (List Byte) := []
  /-- cores that failed the last muslin run (R457) -/
  muslinFailed : Map Bool := []
  /-- cores whose mark and retired granules go at the next bring-up or compute reset (R474) -/
  unretire : List Nat := []
  /-- darn set that waits for an idle tack (R152) -/
  darnSet : Option (List DarnWrite) := none
deriving DecidableEq, Repr

/-- The state right after a device reset: every dictionary entry at its default, every core, router and link as the
zeroing leaves it, no command waiting. -/
def State.reset : State := {}

end Sys2Proof.Machine
end

