-- ==== Sys2Proof/Machine/Ops.lean ====
section
/-! DEFINITION. The named operations over the state that every meaning uses: the dictionary, cores and routers,
the event log, messages to the host, scratchpad accesses, and the taking of a trap. -/

namespace Sys2Proof.Machine

/-! ## The outcome of a command -/

/-- A command that completes: the next state. -/
abbrev Out := Host.Outcome State Fault Refusal

/-! ## Dictionary, free values, parts of the state -/

/-- Value of a numeric entry. -/
def State.rd (s : State) (key : Nat) : Nat := mapGet dictDefault s.dict key
/-- Write a numeric entry. -/
def State.wr (s : State) (key v : Nat) : State := { s with dict := mapSet dictDefault s.dict key v }
/-- Add to a counter that wraps at its width in bits. -/
def State.bump (s : State) (key w n : Nat) : State := s.wr key ((s.rd key + n) % 2 ^ w)
/-- Bytes of a BLOB or STR entry. -/
def State.blob (s : State) (key : Nat) : List Byte := mapGet blobDefault s.blobs key
/-- Write a BLOB or STR entry. -/
def State.wrBlob (s : State) (key : Nat) (b : List Byte) : State :=
  { s with blobs := mapSet blobDefault s.blobs key b }
/-- Write one byte of a BLOB entry, zero-extending it as needed. -/
def State.blobPut (s : State) (key i : Nat) (b : List Byte) : State :=
  let o := s.blob key
  s.wrBlob key (slice o 0 i ++ b ++ o.drop (i + b.length))

/-- The next free value (log entry 3). -/
def State.free (s : State) : BitVec 64 := Config.freeValue s.freeNext
/-- Move on to the following free value. -/
def State.freeStep (s : State) : State := { s with freeNext := s.freeNext + 1 }

/-- Free bytes: what a timed-out host read had moved is known to the host alone (log entry 3). -/
def State.freeBytes (s : State) (n : Nat) : State × List Byte :=
  ({ s with freeNext := s.freeNext + n },
   (List.range n).map fun j => (Config.freeValue (s.freeNext + j)).truncate 8)

/-- Physical core c. -/
def State.core (s : State) (c : Nat) : Core := mapGet (fun _ => {}) s.cores c
/-- Replace physical core c. -/
def State.setCore (s : State) (c : Nat) (k : Core) : State := { s with cores := mapSet (fun _ => {}) s.cores c k }
/-- Change physical core c. -/
def State.modCore (s : State) (c : Nat) (f : Core → Core) : State := s.setCore c (f (s.core c))
/-- Router r. -/
def State.router (s : State) (r : Nat) : Router := mapGet (fun _ => {}) s.routers r
/-- Replace router r. -/
def State.setRouter (s : State) (r : Nat) (x : Router) : State :=
  { s with routers := mapSet (fun _ => {}) s.routers r x }
/-- Change router r. -/
def State.modRouter (s : State) (r : Nat) (f : Router → Router) : State := s.setRouter r (f (s.router r))
/-- One direction of a link. -/
def State.link (s : State) (l : Nat) : LinkDir := mapGet (fun _ => {}) s.links l
/-- Replace one direction of a link. -/
def State.setLink (s : State) (l : Nat) (x : LinkDir) : State := { s with links := mapSet (fun _ => {}) s.links l x }
/-- Instance i. -/
def State.inst (s : State) (i : Nat) : Inst := mapGet (fun _ => {}) s.insts i
/-- Replace instance i. -/
def State.setInst (s : State) (i : Nat) (x : Inst) : State := { s with insts := mapSet (fun _ => {}) s.insts i x }
/-- Change instance i. -/
def State.modInst (s : State) (i : Nat) (f : Inst → Inst) : State := s.setInst i (f (s.inst i))
/-- Value in force for instance i of a device-wide entry whose writes take effect at each instance's next tack (R22, R23,
R157, R319). -/
def State.inForce (s : State) (i key : Nat) : Nat := mapGet dictDefault (s.inst i).inForce key
/-- Slot n. -/
def State.slot (s : State) (n : Nat) : Slot := mapGet (fun _ => {}) s.slots n
/-- Replace slot n. -/
def State.setSlot (s : State) (n : Nat) (x : Slot) : State := { s with slots := mapSet (fun _ => {}) s.slots n x }
/-- Change slot n. -/
def State.modSlot (s : State) (n : Nat) (f : Slot → Slot) : State := s.setSlot n (f (s.slot n))
/-- Sequence q. -/
def State.seq (s : State) (q : Nat) : Seq := mapGet (fun _ => {}) s.seqs q
/-- Replace sequence q. -/
def State.setSeq (s : State) (q : Nat) (x : Seq) : State := { s with seqs := mapSet (fun _ => {}) s.seqs q x }
/-- Change sequence q. -/
def State.modSeq (s : State) (q : Nat) (f : Seq → Seq) : State := s.setSeq q (f (s.seq q))
/-- PCIe function f. -/
def State.fn (s : State) (f : Nat) : Fn := mapGet (fun _ => {}) s.fns f
/-- Replace PCIe function f. -/
def State.setFn (s : State) (f : Nat) (x : Fn) : State := { s with fns := mapSet (fun _ => {}) s.fns f x }

/-- Apply a change for every element of a list, in order. -/
def State.each {α : Type} (s : State) (l : List α) (f : State → α → State) : State := l.foldl f s

/-! ## Coordinates (R12) -/

/-- Physical core index of coordinates. -/
def idxOf (x y : Nat) : Nat := 100 * (x / 10 + 4 * (y / 10)) + 10 * (y % 10) + x % 10
/-- x of a physical core. -/
def xOf (c : Nat) : Nat := 10 * (c / 100 % 4) + c % 10
/-- y of a physical core. -/
def yOf (c : Nat) : Nat := 10 * (c / 400) + c % 100 / 10
/-- Panel of a physical core. -/
def panelOf (c : Nat) : Nat := c / 100
/-- Global region of a physical core. -/
def regionOf (c : Nat) : Nat := 25 * (c / 100) + 5 * (c % 100 / 10 / 2) + c % 10 / 2
/-- The four cores of a global region. -/
def coresOfRegion (r : Nat) : List Nat :=
  let b := 100 * (r / 25) + 20 * (r % 25 / 5) + 2 * (r % 5)
  [b, b + 1, b + 10, b + 11]
/-- The hundred cores of a panel. -/
def coresOfPanel (p : Nat) : List Nat := (List.range 100).map fun i => 100 * p + i
/-- The adjacent core through port 0 N, 1 E, 2 S, 3 W, none at the wafer's edge (R12, R129). -/
def stepTo (c port : Nat) : Option Nat :=
  let x := xOf c
  let y := yOf c
  if port = 0 then (if y < 29 then some (idxOf x (y + 1)) else none)
  else if port = 1 then (if x < 39 then some (idxOf (x + 1) y) else none)
  else if port = 2 then (if 0 < y then some (idxOf x (y - 1)) else none)
  else if port = 3 then (if 0 < x then some (idxOf (x - 1) y) else none)
  else none
/-- The opposite port. -/
def oppPort (port : Nat) : Nat := if port < 4 then (port + 2) % 4 else port
/-- Number in `link_map` of the link at a port of a router (R157). -/
def linkAt (c port : Nat) : Option Nat :=
  match stepTo c port with
  | none => none
  | some d =>
    let x := min (xOf c) (xOf d)
    let y := min (yOf c) (yOf d)
    if port % 2 = 1 then some (39 * y + x) else some (1170 + 40 * y + x)
/-- Manhattan distance of two physical cores. -/
def distance (a b : Nat) : Nat :=
  (((xOf a : Int) - xOf b).natAbs) + (((yOf a : Int) - yOf b).natAbs)

/-! ## Data address (R14, R159) -/

/-- Panel of a core's data address. -/
def Core.panel (k : Core) : Nat := bits k.coreAddr.toNat 3 0
/-- Logical index of a core's data address. -/
def Core.logical (k : Core) : Nat := bits k.coreAddr.toNat 10 4
/-- The core is its instance's selector core. -/
def Core.selector (k : Core) : Bool := bit k.coreAddr.toNat 15
/-- The instance number of the core's CORE_ADDR. -/
def Core.instNo (k : Core) : Nat := bits k.coreAddr.toNat 14 11
/-- All physical cores whose task belongs to instance i. -/
def State.coresOf (s : State) (i : Nat) : List Nat :=
  (s.cores.filter fun p => match p.2.inst with
    | some j => j.val == i
    | none => false).map (·.1)

/-! ## Messages to the host (R362, R375, R524) -/

/-- Number of port n's physical function. -/
def pfOf (n : Nat) : Nat := 65 * n
/-- Number of the virtual function that serves a slot (R372). -/
def vfOf (slot : Nat) : Nat := 65 * (slot / 64) + slot % 64 + 1

/-- Raise an MSI-X message: sent when MSI-X and Bus Master are enabled and the vector is not masked, held as pending
when masked or without Bus Master Enable, dropped while MSI-X is disabled (R362, R524). -/
def State.message (s : State) (f v : Nat) : State :=
  let x := s.fn f
  if !x.msixEn then s
  else if x.bme && x.unmasked.getLsbD v then { s with sent := (f, v) :: s.sent }
  else s.setFn f { x with pba := x.pba ||| (1#16 <<< v) }

/-- Raise a vector on every physical function. -/
def State.messagePfs (s : State) (v : Nat) : State := s.each (List.range 8) fun s n => s.message (pfOf n) v

/-! ## Bytes that leave the device -/

/-- Channel of service Ethernet port e, and of management segment n. -/
def chanEth (e : Nat) : Nat := e
def chanSeg (n : Nat) : Nat := 4 + n
/-- Channel of the SPDM responder of a port. -/
def chanSpdm (n : Nat) : Nat := 16 + n
/-- Channel of a Zwiys session. -/
def chanSes : SessId → Nat
  | .dtls n => 32 + n
  | .mctp n => 48 + n
  | .pf n => 64 + n
  | .casc => 80
  | .vf n => 1024 + n
/-- Channel of the draft-token messages that instance i's selector sends (R314). -/
def chanDraft (i : Nat) : Nat := 112 + i
/-- Channel of the TAP's data output. -/
def chanTap : Nat := 96
/-- Send bytes on a channel. -/
def State.send (s : State) (chan : Nat) (bs : List Byte) : State := { s with tx := (chan, bs) :: s.tx }

/-! ## Event log (R414-R417) -/

/-- Append an entry to the event log with everything that follows from it: the ring's bound, the alert causes, the
instance-event count and the messages. -/
def State.logEntry (s : State) (source inst cls cause record : Nat) : State :=
  let seq := s.rd K.logHead + 1
  let e : LogEntry := ⟨s.time, seq, source, inst, cls, if cls = 2 then cause else 0, record⟩
  let full := decide (65536 ≤ s.log.length)
  let s := { s with log := e :: s.log.take 65535 }
  let s := (s.wr K.logHead seq).wr K.logTail (seq + 1 - s.log.length)
  let s := if full then s.bump K.logOverwritten 64 1 else s
  let s := if cls = 2 then s.wr K.alertCauses (s.rd K.alertCauses ||| 2 ^ cause) else s
  let s := if (cls = 1 ∨ cls = 2) ∧ inst ≠ 0xFF then (s.bump K.instEvents 64 1).messagePfs 2 else s
  let due := match s.logMsgAt with
    | none => true
    | some t => decide (t + 1000000 ≤ s.uptime)
  if due then { s.messagePfs 1 with logMsgAt := some s.uptime } else { s with logMsgHeld := true }

/-- Class and cause of a device record by its kind (R416). -/
def devClass (kind : Nat) : Nat × Nat :=
  if kind = 7 ∨ kind = 0xC then (2, 1)
  else if kind = 0xE then (2, 2)
  else if kind = 6 ∨ kind = 8 then (0, 0)
  else (1, 0)

/-- Log a device record. -/
def State.logDev (s : State) (inst record : Nat) : State :=
  let c := devClass (record % 16)
  s.logEntry 0 inst c.1 c.2 record

/-- Log a management record (R415): code, class, cause, slot, arguments. -/
def State.logMg (s : State) (inst code cls cause slot arg0 arg1 : Nat) : State :=
  s.logEntry 1 inst cls cause (pack [(code, 0), (slot, 16), (arg0 % 2 ^ 32, 32), (arg1 % 2 ^ 64, 64)])

/-- No tenant slot, in a management record. -/
def noSlot : Nat := 0xFFFF
/-- No instance, in a log entry. -/
def noInst : Nat := 0xFF

/-- Instance number of a core for a log entry. -/
def Core.logInst (k : Core) : Nat := match k.inst with
  | some i => i.val
  | none => noInst

/-! ## Scratchpad (R99, R106-R111) -/

/-- First granule and granule after the last one of the narrow window. -/
def Core.nbase (k : Core) : Nat := bits k.hemBase.toNat 7 0
def Core.nlimit (k : Core) : Nat := bits k.hemLimit.toNat 7 0
/-- First granule and granule after the last one of the wide window. -/
def Core.wbase (k : Core) : Nat := bits k.hemBase.toNat 25 16
def Core.wlimit (k : Core) : Nat := bits k.hemLimit.toNat 25 16

/-- R108 for the narrow group: n bytes at relative offset o. -/
def Core.narrowOk (k : Core) (o n : Nat) : Bool := decide (4096 * k.nbase + o + n ≤ 4096 * k.nlimit)
/-- R108 for the wide group. -/
def Core.wideOk (k : Core) (o n : Nat) : Bool := decide (4096 * k.wbase + o + n ≤ 4096 * k.wlimit)
/-- Physical scratchpad address of offset o of pair p's window. -/
def Core.narrowAt (k : Core) (p o : Nat) : Nat := 524288 * p + 4096 * k.nbase + o
/-- Physical scratchpad address of offset o of the wide window. -/
def Core.wideAt (k : Core) (o : Nat) : Nat := 4194304 + 4096 * k.wbase + o

/-- A relative address names the wide group under R106: bits [31:24] and [22:21] zero, bit [23] set. -/
def isWide (a : Nat) : Bool := bits a 31 21 == 4
/-- A relative address names the narrow group: bits [31:24] and [23] zero. -/
def isNarrow (a : Nat) : Bool := bits a 31 23 == 0

/-- Physical addresses of a legal wide access of n bytes, none when R106 or R108 fails. -/
def Core.wide (k : Core) (a n : Nat) : Option Nat :=
  if isWide a && k.wideOk (bits a 20 0) n then some (k.wideAt (bits a 20 0)) else none

/-- Physical addresses of a legal narrow access, one per pair written: all eight with `bcast` on a write (R106). -/
def Core.narrow (k : Core) (a n : Nat) (write : Bool) : Option (List Nat) :=
  let o := bits a 18 0
  if !isNarrow a || !k.narrowOk o n || (bit a 22 && !write) then none
  else if bit a 22 then some ((List.range 8).map fun p => k.narrowAt p o)
  else some [k.narrowAt (bits a 21 19) o]

/-- Physical addresses of a legal access in either group. -/
def Core.either (k : Core) (a n : Nat) (write : Bool) : Option (List Nat) :=
  if bit a 23 then (k.wide a n).map fun x => [x] else k.narrow a n write

/-- The 64-bit words that n bytes at physical address a touch. -/
def wordsOf (a n : Nat) : List Nat :=
  if n = 0 then [] else (List.range ((a + n - 1) / 8 - a / 8 + 1)).map fun i => a / 8 + i

/-- The poisoned words among n bytes (R111). -/
def Core.poisoned (k : Core) (a n : Nat) : List Nat := (wordsOf a n).filter fun w => mapGet (fun _ => false) k.poison w

/-- Bytes as stored. -/
def Core.bytesAt (k : Core) (a n : Nat) : List Byte := memRead k.sp a n

/-- The words with a single-bit error among n bytes (R110). -/
def Core.flips (k : Core) (a n : Nat) : List Nat := (wordsOf a n).filter fun w => mapGet (fun _ => false) k.spFlip w

/-- A read of n bytes finds the single-bit errors among their words, corrects each and counts it (R110). -/
def Core.readFix (k : Core) (a n : Nat) : Core :=
  if k.flips a n = [] then k
  else { k with
    spFlip := k.spFlip.filter fun p => !(k.flips a n).contains p.1
    spCorrected := (k.spCorrected + (k.flips a n).length) % 2 ^ 64 }

/-- The words that a store of n bytes writes in full. -/
def fullWord (a n w : Nat) : Bool := decide (a ≤ 8 * w) && decide (8 * w + 8 ≤ a + n)

/-- The read inside a store narrower than its word corrects a single-bit error there and counts it; a word written in full
loses its error uncounted (R110). -/
def Core.writeFix (k : Core) (a n : Nat) : Core :=
  if k.flips a n = [] then k
  else { k with
    spFlip := k.spFlip.filter fun p => !(k.flips a n).contains p.1
    spCorrected := (k.spCorrected + ((k.flips a n).filter fun w => !fullWord a n w).length) % 2 ^ 64 }

/-- Store bytes; a word written in full is no longer poisoned (R111). A store narrower than a poisoned word leaves it
poisoned, and its inner read counts and records nothing (log entry 75). -/
def Core.store (k : Core) (a : Nat) (bs : List Byte) : Core :=
  let k := k.writeFix a bs.length
  { k with
    sp := memWrite k.sp a bs
    poison := k.poison.filter fun p => !fullWord a bs.length p.1 }

/-- Store the same bytes at several physical addresses. -/
def Core.storeAll (k : Core) (as : List Nat) (bs : List Byte) : Core := as.foldl (fun k a => k.store a bs) k

/-- Bank of a physical scratchpad address (R99). -/
def bankOf (a : Nat) : Nat :=
  if a < 4194304 then 2 * (a / 524288) + bits a 6 6 else 16 + bits (a - 4194304) 10 8
/-- Row of a physical scratchpad address within its bank (R99). -/
def rowOf (a : Nat) : Nat := if a < 4194304 then bits a 18 7 else bits (a - 4194304) 20 11

/-- A read of n bytes of core c's scratchpad corrects single-bit errors (R110). -/
def State.fixRead (s : State) (c a n : Nat) : State :=
  if (s.core c).flips a n = [] then s else s.setCore c ((s.core c).readFix a n)

/-- What a read of poisoned words leaves behind: each is counted and recorded (R111, R414 kind 0xC). -/
def State.noteUncorr (s : State) (c port : Nat) (words : List Nat) : State :=
  s.each words fun s w =>
    let k := s.core c
    let s := s.setCore c { k with
      spUncorr := (k.spUncorr + 1) % 2 ^ 64
      badWords := if w ∈ k.badWords then k.badWords else k.badWords ++ [w] }
    s.logDev k.logInst (pack [(0xC, 0), (k.panel, 8), (k.logical, 12), (bankOf (8 * w), 19), (rowOf (8 * w), 24),
      (port, 36)])

/-! ## Traps (R178-R182) -/

/-- What a trap record carries beside the core's own fields (R182). -/
structure TrapInfo where
  code : Nat
  addr : Nat := 0
  status : Nat := 0
  queue : Nat := 0
  portA : Nat := 0
  portB : Nat := 0
  pcOther : Nat := 0
deriving DecidableEq, Repr

/-- A sequencer record (R182): sub 0 trap, 1 hazard. -/
def seqRecord (k : Core) (sub : Nat) (t : TrapInfo) (pc opcode tackSeq : Nat) : Nat :=
  pack [(0xF, 0), (sub, 4), (t.code, 8), (k.panel, 13), (k.logical, 17), (pc % 2 ^ 15, 24), (t.addr % 2 ^ 24, 40),
    (t.status, 64), (t.queue, 72), (t.portA, 75), (t.portB, 79), (opcode, 83), (t.pcOther, 91),
    (tackSeq % 2 ^ 16, 106)]

/-- The class of a trap is restart: a queue error with a restart-class status (R163, R178). -/
def restartClass (code status : Nat) : Bool := code == 5 && (status == 2 || status == 3 || status == 4)

/-- Take a trap on core c (R179 steps 1-3): the core stops trapped, the record is logged, the trap is counted, and
the whole instance stops at an instruction boundary. -/
def State.trap (s : State) (c : Nat) (t : TrapInfo) (pc opcode : Nat) : State :=
  let k := s.core c
  let s := s.setCore c { k with run := .trapped, trapCode := t.code, trapStatus := t.status }
  let s := s.bump K.traps 64 1
  match k.inst with
  | none => s.logDev noInst (seqRecord k 0 t pc opcode 0)
  | some i =>
    let n := s.inst i.val
    (s.setInst i.val { n with
      halted := true, trapped := true, trapFault := n.trapFault || !restartClass t.code t.status }).logDev i.val (seqRecord k 0 t pc opcode n.tackSeq)

/-! ## Decoupling queues (R163-R165) -/

/-- Entries of queue q, oldest first. -/
def Core.queue (k : Core) (q : Nat) : List QEntry := mapGet (fun _ => []) k.queues q
/-- Replace queue q. -/
def Core.setQueue (k : Core) (q : Nat) (l : List QEntry) : Core :=
  { k with queues := mapSet (fun _ => []) k.queues q l }
/-- Reservations outstanding in all queues. -/
def Core.anyReserved (k : Core) : Bool := k.queues.any fun p => !p.2.isEmpty
/-- Whether n more reservations fit into queue q (R164). -/
def Core.roomFor (k : Core) (q n : Nat) : Bool := decide ((k.queue q).length + n ≤ 8)
/-- Reserve an entry in queue q; its name is `k.nextId` (R164). -/
def Core.reserve (k : Core) (q : Nat) (kind : QKind) : Core :=
  { k.setQueue q (k.queue q ++ [⟨k.nextId, kind⟩]) with nextId := k.nextId + 1 }
/-- Post an entry of queue q: it becomes ready where it stands (R164). -/
def Core.post (k : Core) (q id : Nat) (kind : QKind) : Core :=
  k.setQueue q ((k.queue q).map fun e => if e.id = id then { e with kind := kind } else e)
/-- Whether an entry is ready. -/
def QEntry.ready (e : QEntry) : Bool :=
  match e.kind with
  | .bolts (some _) => true
  | .word (some _) => true
  | _ => false
/-- A completion word (R163). -/
def complWord (tag status source : Nat) (taint : Bool) (bytes : Nat) : Word64 :=
  BitVec.ofNat 64 (pack [(tag % 2 ^ 16, 0), (status % 256, 16), (source, 24), (b2n taint, 28), (bytes % 2 ^ 24, 32)])
/-- Post a completion word. -/
def Core.postWord (k : Core) (q id : Nat) (w : Word64) : Core := k.post q id (.word (some w))

/-! ## Finisher registers (R158, R188) -/

/-- Finisher register x as a number. -/
def Core.freg (k : Core) (x : Nat) : Nat := (mapGet (fun _ => 0#4096) k.fregs x).toNat
/-- Taint of finisher register x (R69). -/
def Core.ftaintOf (k : Core) (x : Nat) : Bool := k.ftaint.getLsbD x
/-- Write finisher register x and its taint. -/
def Core.setF (k : Core) (x v : Nat) (t : Bool) : Core :=
  { k with
    fregs := mapSet (fun _ => 0#4096) k.fregs x (BitVec.ofNat 4096 v)
    ftaint := (k.ftaint &&& ~~~(1#64 <<< x)) ||| (if t then 1#64 <<< x else 0#64) }

/-- A 512-byte string of a register. -/
def fBytes (v : Nat) : List Byte := leBytes 512 v
/-- FP32 lane i of a register's value. -/
def lane32 (v i : Nat) : Nat := v / 2 ^ (32 * i) % 2 ^ 32
/-- BF16 lane i. -/
def lane16 (v i : Nat) : Nat := v / 2 ^ (16 * i) % 2 ^ 16
/-- Byte i. -/
def lane8 (v i : Nat) : Nat := v / 2 ^ (8 * i) % 2 ^ 8
/-- A register's value from lanes of w bits, lane 0 first. -/
def fromLanes (w : Nat) : List Nat → Nat
  | [] => 0
  | x :: t => x + 2 ^ w * fromLanes w t
/-- All 128 FP32 lanes as values. -/
def vals32 (v : Nat) : List Fl := (List.range 128).map fun i => Sys2Proof.Machine.decode f32 (lane32 v i)
/-- All 256 BF16 lanes as values. -/
def vals16 (v : Nat) : List Fl := (List.range 256).map fun i => Sys2Proof.Machine.decode bf16 (lane16 v i)

/-! ## Positions and physical engines (R122, R123) -/

/-- Engine position p of the core. -/
def Core.posOf (k : Core) (p : Nat) : PosState := mapGet (fun _ => {}) k.pos p
/-- Replace engine position p. -/
def Core.setPos (k : Core) (p : Nat) (x : PosState) : Core := { k with pos := mapSet (fun _ => {}) k.pos p x }
/-- Physical engine e. -/
def Core.engOf (k : Core) (e : Nat) : EngState := mapGet (fun _ => {}) k.eng e
/-- Replace physical engine e. -/
def Core.setEng (k : Core) (e : Nat) (x : EngState) : Core := { k with eng := mapSet (fun _ => {}) k.eng e x }
/-- `gusset_mode` of the core (R53, R122). -/
def Core.gussetMode (k : Core) : Nat := bits (k.engOf 8).stat 7 6
/-- The physical engine now serving position p: the gusset in replacing mode, otherwise p itself (R123). -/
def Core.engineAt (k : Core) (p : Nat) : Nat := if k.gussetMode = 2 ∧ (k.engOf 8).replaces = p then 8 else p
/-- The position that physical engine e serves. -/
def Core.positionOf (k : Core) (e : Nat) : Nat := if e = 8 then (k.engOf 8).replaces else e

end Sys2Proof.Machine
end

