-- ==== Sys2Proof/Machine/Windows.lean ====
section
/-! DEFINITION. Where addresses outside a core lead: the HBM of an instance (R15, R20, R256), the host windows
(R376-R378) with the functions that gate them (R524), and the data addresses of the fabric (R132). -/

namespace Sys2Proof.Machine

/-! ## HBM -/

/-- Panel that carries an HBM stack's site (R15). -/
def stackPanel (n : Nat) : Nat :=
  if n < 4 then n else if n < 12 then 4 + (n - 4) / 2 else n - 4

/-- Router at the site of HBM stack n (R15). -/
def hbmSite (n : Nat) : Nat :=
  if n < 4 then idxOf (10 * n + 3) 4
  else if n < 12 then (if n % 2 = 0 then idxOf (5 * n - 18) 12 else idxOf (5 * n - 18) 17)
  else idxOf (10 * (n - 12) + 3) 24
/-- Router at the site of host-seam die n (R15). -/
def hsSite (n : Nat) : Nat := if n < 4 then idxOf (10 * n + 6) 5 else idxOf (10 * (n - 4) + 6) 25
/-- Router at the site of service die n, which carries Ethernet ports 2n and 2n + 1 (R15). -/
def svSite (n : Nat) : Nat := idxOf (17 + 10 * n) 12
/-- Router at the site of MG (R15). -/
def mgSite : Nat := idxOf 12 17

/-- Stacks of an instance, in ascending HB order (R20). -/
def State.stacksOf (s : State) (i : Nat) : List Nat :=
  (List.range 16).filter fun n => decide (stackPanel n ∈ (s.inst i).panels)

/-- Bytes of HBM of an instance. -/
def State.hbmSize (s : State) (i : Nat) : Nat := 2 ^ 36 * (s.stacksOf i).length

/-- The byte of the stacks that an HBM byte address of an instance names: 64 KiB interleave (R256); stack n holds
bytes from 2^36 × n. -/
def hbmPhys (st : List Nat) (a : Nat) : Nat :=
  2 ^ 36 * st.getD (a / 65536 % st.length) 0 + a / 65536 / st.length * 65536 + a % 65536

/-- Read n bytes of an instance's HBM. -/
def State.hbmRead (s : State) (i a n : Nat) : List Byte :=
  let st := s.stacksOf i
  (List.range n).map fun k => memByte s.hbm (hbmPhys st (a + k))

/-- Words of the HBM stacks are written in full: no earlier error of theirs stays (R382). -/
def State.hbmRenew (s : State) (full : Nat → Bool) : State :=
  { s with hbmPoison := s.hbmPoison.filter fun p => !full p.1, hbmErr := s.hbmErr.filter fun p => !full p.1 }

/-- Write bytes into an instance's HBM; a word written in full is no longer poisoned (R382). -/
def State.hbmWrite (s : State) (i a : Nat) (bs : List Byte) : State :=
  let st := s.stacksOf i
  let m := bs.zipIdx.foldl (fun m p => memPut m (hbmPhys st (a + p.2)) p.1) s.hbm
  let full := (List.range ((a + bs.length) / 8 - (a + 7) / 8)).map fun w => hbmPhys st (8 * ((a + 7) / 8 + w)) / 8
  { s with hbm := m }.hbmRenew fun w => decide (w ∈ full)

/-- Zero n bytes of an instance's HBM from address a on, one 64 KiB unit of the interleave after another. -/
def State.hbmClear (s : State) (i a n : Nat) : State :=
  let st := s.stacksOf i
  s.each (List.range (ceilDiv (a % 65536 + n) 65536)) fun s u =>
    let lo := Nat.max a (65536 * (a / 65536 + u))
    let len := Nat.min (a + n) (65536 * (a / 65536 + u + 1)) - lo
    let p := hbmPhys st lo
    { s with hbm := memZero s.hbm p len }.hbmRenew fun w => decide (p ≤ 8 * w) && decide (8 * w + 8 ≤ p + len)

/-- Zero n bytes of an instance's HBM that start on a 64 KiB boundary (R257). -/
def State.hbmZeroPage (s : State) (i a : Nat) : State :=
  let p := hbmPhys (s.stacksOf i) a
  { s with hbm := memZero s.hbm p 65536 }.hbmRenew fun w => decide (p / 8 ≤ w) && decide (w < p / 8 + 8192)

/-- Offsets, from a, of the poisoned words among n bytes of an instance's HBM; a word that begins before a is at 0. -/
def State.hbmBad (s : State) (i a n : Nat) : List Nat :=
  let st := s.stacksOf i
  ((wordsOf a n).filter fun w => mapGet (fun _ => false) s.hbmPoison (hbmPhys st (8 * w) / 8)).map fun w => 8 * w - a

/-- A read of n bytes of an instance's HBM finds the errors in its words: each is counted at its stack, a single-bit error
as corrected (R382). -/
def State.hbmFound (s : State) (i a n : Nat) : State :=
  let st := s.stacksOf i
  s.each (wordsOf a n) fun s w =>
    let p := hbmPhys st (8 * w) / 8
    let e := mapGet (fun _ => 0) s.hbmErr p
    if e = 0 then s
    else { s with hbmErr := mapSet (fun _ => 0) s.hbmErr p 0 }.bump
      (if e = 1 then K.eccCorrected (p / 2 ^ 33) else K.eccUncorrectable (p / 2 ^ 33)) 64 1

/-- Mark the words at the given offsets from a as poisoned. -/
def State.hbmPoisonAt (s : State) (i a : Nat) (offs : List Nat) : State :=
  let st := s.stacksOf i
  { s with hbmPoison := offs.foldl (fun m o => mapSet (fun _ => false) m (hbmPhys st (a + o) / 8) true) s.hbmPoison }

/-! ## Host windows -/

/-- A device window (R376). -/
structure Window where
  base : Nat
  size : Nat
  owner : Nat
  role : Nat
  valid : Bool
deriving DecidableEq, Repr

/-- A word of a window-table entry. -/
def State.winWord (s : State) (w k : Nat) : Nat := mapGet (fun _ => 0) s.winTab (4 * w + k)

/-- Device window w, 0-1,023 (R376). -/
def State.window (s : State) (w : Nat) : Window :=
  { base := s.winWord w 0, size := bits (s.winWord w 1) 47 0, owner := bits (s.winWord w 2) 9 0,
    role := bits (s.winWord w 2) 12 10, valid := bit (s.winWord w 2) 15 }

/-- SWINk_BASE or SWINk_SIZE of a slot (R377). -/
def State.swinReg (s : State) (slot k : Nat) (size : Bool) : Nat :=
  mapGet (fun _ => 0) s.swin (16 * slot + 2 * k + b2n size)

/-- A place in host memory: the function that reaches it, its port, and the PCIe address. -/
structure HostRef where
  fn : Nat
  port : Nat
  addr : Nat
deriving DecidableEq, Repr

/-- Window number and byte offset of a host-window address (R119). -/
def winNo (a : Nat) : Nat := bits a 63 48
def winOff (a : Nat) : Nat := bits a 47 0

/-- The place that n bytes at a host-window address name, in a device window that satisfies `ok` (R376, R378); a
range past the window's size names no window. -/
def State.devRef (s : State) (a n : Nat) (ok : Window → Bool) : Option HostRef :=
  let w := s.window (winNo a)
  if winNo a < 1024 ∧ w.valid ∧ ok w ∧ winOff a + n ≤ w.size then
    some ⟨pfOf (winNo a / 128), winNo a / 128, w.base + winOff a⟩ else none

/-- The place that n bytes at a host-window address name, in a window of a slot (R377, R378). -/
def State.slotRef (s : State) (slot a n : Nat) : Option HostRef :=
  let k := winNo a - 0x8000 - 8 * slot
  let b := s.swinReg slot k false
  if 0x8000 + 8 * slot ≤ winNo a ∧ k < 8 ∧ bit b 0 ∧ winOff a + n ≤ bits (s.swinReg slot k true) 47 0 then
    some ⟨vfOf slot, slot / 64, 4096 * bits b 63 12 + winOff a⟩ else none

/-- Function f is a virtual function that is enabled, or a physical function (R372). -/
def State.fnEnabled (s : State) (f : Nat) : Bool :=
  f % 65 == 0 || ((s.fn (f / 65 * 65)).vfEnable && decide (f % 65 ≤ (s.fn (f / 65 * 65)).numVfs))

/-- The device reaches host memory through a function only while its Bus Master Enable is set (R524), a virtual
function also while it is enabled, the port has a link, and the router at the die's site works (R151). -/
def State.hostReady (s : State) (f : Nat) : Bool :=
  (s.fn f).bme && s.fnEnabled f && s.rd (K.pcieRate (f / 65)) != 0 && !(s.router (hsSite (f / 65))).failed

/-- Count a host error of a port (R376, R386, R524). -/
def State.hostError (s : State) (port : Nat) : State := s.bump (K.hostErrors port) 64 1

/-- Write bytes into host memory. -/
def State.hostPut (s : State) (r : HostRef) (bs : List Byte) : State :=
  { s with hostMem := memWrite s.hostMem (r.port * 2 ^ 64 + r.addr) bs }

/-- Write bytes into host memory when the function may; otherwise the write ends with status 0x07 and is counted
(R524). -/
def State.hostWrite (s : State) (r : HostRef) (bs : List Byte) : State × Bool :=
  if s.hostReady r.fn then (s.hostPut r bs, true) else (s.hostError r.port, false)

/-- A window of instance i that a DMA descriptor may name (R378). -/
def dmaWindow (i : Nat) (w : Window) : Bool := w.owner == i && (w.role == 2 || w.role == 4 || w.role == 5)

/-! ## Data addresses -/

/-- Physical core that router r's translation table gives for a data address (R132). -/
def State.translate (s : State) (r panel logical : Nat) : Option Nat :=
  let e := mapGet (fun _ => 0) (s.router r).trans (100 * panel + logical)
  if bit e 15 then some (e % 0x8000) else none

/-- The core now holds the data address. -/
def Core.holds (k : Core) (panel logical : Nat) : Bool :=
  k.addrValid && k.panel == panel && k.logical == logical

/-! ## Slots -/

/-- A tenant slot is bound to instance i: it is not Disabled and names it (R21, R349). -/
def State.slotBound (s : State) (slot i : Nat) : Bool := s.rd (K.slotState slot) != 0 && s.rd (K.slotInstance slot) == i

/-- A slot whose granules a task of instance i may own: bound to it, or to an instance for which it drafts (R224). -/
def State.mayOwn (s : State) (slot i : Nat) : Bool :=
  s.slotBound slot i || (List.range 12).any fun j => s.rd (K.draftInstance j) == i && s.slotBound slot j

/-! ## Seams -/

/-- Panel of host-seam die n (R15). -/
def hsPanel (n : Nat) : Nat := if n < 4 then n else n + 4

/-- Serial of cascade member m (R494). -/
def State.memberSerial (s : State) (m : Nat) : Nat := leAt (s.blob K.members) (8 * m) 8

/-- Instance i is the cascaded instance of a configured cascade (R481, R486). -/
def State.cascaded (s : State) (i : Nat) : Bool := s.rd K.cascState != 0 && s.rd K.cascInstance == i

/-- The lowest-numbered up seam to a member whose die lies in a panel of instance i (R483). -/
def State.seamTo (s : State) (i member : Nat) : Option Nat :=
  (List.range 16).find? fun n => s.rd (K.seamState n) == 2 && s.rd (K.seamPeer n) == s.memberSerial member &&
    decide (hsPanel (n / 2) ∈ (s.inst i).panels)

/-- Seam n. -/
def State.seam (s : State) (n : Nat) : Seam := mapGet (fun _ => {}) s.seams n
/-- Replace seam n. -/
def State.setSeam (s : State) (n : Nat) (x : Seam) : State := { s with seams := mapSet (fun _ => {}) s.seams n x }
/-- Put a transfer on seam n (R478: kept until the peer acknowledges it). -/
def State.seamSend (s : State) (n : Nat) (m : SeamMsg) : State :=
  s.setSeam n { s.seam n with tx := (s.seam n).tx ++ [m] }

end Sys2Proof.Machine
end

