-- ==== Sys2Proof/Machine/Operands.lean ====
section
/-! DEFINITION. How an Idmor instruction reads its operands and issues: register specifiers, guards, the program
counter with its loops, the hazard detector's check, and the one wrapper through which every instruction takes effect
(R158-R162, R169, R178, R183-R192). -/

namespace Sys2Proof.Machine

/-! ## Register specifiers (R159) -/

/-- The specifier names a register (0x3F is reserved). -/
def specOk (sp : Nat) : Bool := sp != 0x3F
/-- The specifier may be written. -/
def specWritable (sp : Nat) : Bool := decide (sp < 0x30) || (decide (0x31 ≤ sp) && decide (sp ≤ 0x37)) || sp == 0x3D
/-- The specifier names an address register (R187). -/
def specIsA (sp : Nat) : Bool := decide (0x20 ≤ sp) && decide (sp ≤ 0x2F)

/-- QSTAT: reservations outstanding per queue (R159). -/
def Core.qstat (k : Core) : Nat := pack ((List.range 8).map fun q => ((k.queue q).length, 4 * q))

/-- Tacks completed by the core's instance. -/
def State.tackSeqOf (s : State) (k : Core) : Nat := match k.inst with
  | some i => (s.inst i.val).tackSeq
  | none => 0

/-- Read a register by specifier, zero-extended (R159). -/
def State.readReg (s : State) (k : Core) (sp : Nat) : Word :=
  if sp < 0x30 then mapGet (fun _ => 0#32) k.regs sp
  else if sp = 0x30 then 1#32
  else if sp < 0x38 then BitVec.ofNat 32 (b2n (k.preds.getLsbD (sp - 0x30)))
  else if sp = 0x38 then k.hemBase
  else if sp = 0x39 then k.hemLimit
  else if sp = 0x3A then k.coreAddr
  else if sp = 0x3B then BitVec.ofNat 32 (s.tackSeqOf k)
  else if sp = 0x3C then BitVec.ofNat 32 (s.mclkAcc / 1000000 - k.cycle0)
  else if sp = 0x3D then BitVec.ofNat 32 (b2n k.itaint)
  else if sp = 0x3E then BitVec.ofNat 32 k.qstat
  else 0#32

/-- Address register a[x], x modulo 16 (R189). -/
def Core.areg (k : Core) (x : Nat) : Nat := (mapGet (fun _ => 0#32) k.regs (0x20 + x % 16)).toNat

/-- Set predicate p to bit 0 of a value; p0 keeps reading 1. -/
def Core.setPred (k : Core) (p : Nat) (b : Bool) : Core :=
  { k with preds := (k.preds &&& ~~~(1#8 <<< p)) ||| (if b then 1#8 <<< p else 0#8) }

/-- Write a register by specifier: a predicate and ITAINT store bit 0, a read-only specifier keeps its value (R159,
R193). -/
def Core.writeReg (k : Core) (sp : Nat) (v : Word) : Core :=
  if sp < 0x30 then { k with regs := mapSet (fun _ => 0#32) k.regs sp v }
  else if 0x31 ≤ sp ∧ sp ≤ 0x37 then k.setPred (sp - 0x30) (v.getLsbD 0)
  else if sp = 0x3D then { k with itaint := v.getLsbD 0 }
  else k

/-! ## Guards (R161) -/

/-- The guard that never holds is an illegal encoding. -/
def guardLegal (g : Guard) : Bool := !(g.gp == 0#3 && g.gn == 1#1)
/-- The guard holds: predicate p[gp] XOR gn. -/
def guardHolds (g : Guard) (k : Core) : Bool :=
  ((g.gp == 0#3) || k.preds.getLsbD g.gp.toNat) != (g.gn == 1#1)

/-! ## The program counter (R192) -/

/-- The loop stack and the next pc after an instruction that does not transfer control (R192 `next_pc`). -/
def nextPc (pc : Nat) : List LoopEntry → List LoopEntry × Nat
  | [] => ([], pc + 1)
  | l :: t =>
    if pc = l.last then
      if 1 < l.count then ({ l with count := l.count - 1 } :: t, l.first) else nextPc pc t
    else (l :: t, pc + 1)

/-- Move past an instruction that does not transfer control. -/
def Core.advance (k : Core) : Core :=
  { k with loops := (nextPc k.pc k.loops).1, pc := (nextPc k.pc k.loops).2 % 2 ^ 15 }

/-- A taken branch: every loop entry whose body does not contain the target is popped, innermost first (R192). -/
def popLoops (target : Nat) (ls : List LoopEntry) : List LoopEntry :=
  ls.filter fun l => decide (l.first ≤ target) && decide (target ≤ l.last)

/-! ## What an instruction's body answers -/

/-- The answer of an instruction's body: done (the pc then moves on), a jump, a wait that leaves the pc where it is, a
trap without any effect, or a trap after an effect that the spec gives it (a popped queue entry, R165; a counted read
error, R111). -/
inductive Res where
  | done (s : State)
  | jump (s : State) (pc : Nat)
  | wait (s : State)
  | trap (t : TrapInfo)
  | trapIn (s : State) (t : TrapInfo)
deriving DecidableEq, Repr

/-- A trap of a code alone. -/
def Res.fail (code : Nat) : Res := .trap { code := code }
/-- An address trap at a relative address. -/
def Res.addr (a : Nat) : Res := .trap { code := 3, addr := a % 2 ^ 24 }

/-- A scratchpad access as the hazard detector sees it (R183): port of R182, write, physical address, bytes. -/
structure Access where
  port : Nat
  write : Bool
  lo : Nat
  len : Nat
deriving DecidableEq, Repr

/-- Two byte ranges meet in a 64-bit word. -/
def overlap (a n b m : Nat) : Bool := decide (a / 8 ≤ (b + m - 1) / 8) && decide (b / 8 ≤ (a + n - 1) / 8)

/-- The relative address (R106) of a physical one inside the core's window. -/
def Core.relOf (k : Core) (a : Nat) : Nat :=
  if 4194304 ≤ a then 2 ^ 23 + (a - 4194304 - 4096 * k.wbase)
  else a / 524288 * 2 ^ 19 + (a % 524288 - 4096 * k.nbase)

/-- A hazard of an access as its record tells it (R182): type, relative address, the two ports, the earlier instruction. -/
def Core.hz (k : Core) (a : Access) (ty port pc : Nat) : TrapInfo :=
  { code := ty, addr := k.relOf a.lo, portA := port, portB := a.port, pcOther := pc }

/-- The hazards of an access against queued work (R183): type 0x04 against the element ranges of queued passes, type 0x05
against the local ranges of descriptors and remote requests other than the access's own. -/
def Core.queuedHz (k : Core) (own : Option (Nat × Nat)) (a : Access) : List TrapInfo :=
  let passes := (List.range 8).flatMap fun p => (k.posOf p).cmdq.filterMap fun e =>
    match e with
    | .pass x => if a.write && overlap a.lo a.len (524288 * p + x.elems) (64 * x.scales.length) then
        some (k.hz a 4 0 x.pc) else none
    | _ => none
  let range := k.hzRanges.find? fun r => overlap a.lo a.len r.lo r.len && decide (own ≠ some (r.q, r.id))
  passes.take 1 ++ (range.map fun r => k.hz a 5 (if r.lo < 4194304 then 1 else 7) r.pc).toList

/-- Type of the hazard that an access makes with an earlier one of the same word in the previous cycles (R183): 0x01, 0x02,
0x03, or 0 for none. -/
def Recent.meets (r : Recent) (a : Access) : Nat :=
  if !overlap a.lo a.len r.lo r.len || r.port == a.port || !r.write then 0
  else if a.write then 3
  else if a.port = 0 then (if r.port = 1 then 1 else 0)
  else 2

/-- The hazard of an access with a recent one (R183). The model has no cycle-by-cycle ports, so whether fewer than the cycles
of R104 lie between the two is a free value (log entry 10). -/
def Core.nearHz (k : Core) (near : Bool) (a : Access) : Option TrapInfo :=
  if near then (k.recent.find? fun r => r.meets a != 0).map fun r => k.hz a (r.meets a) r.port r.pc else none

/-- The hazards that the detector finds in accesses at core k's ports; none while it is off (R183, R184). -/
def State.foundHz (s : State) (k : Core) (own : Option (Nat × Nat)) (accs : List Access) : List TrapInfo :=
  if s.rd K.hzMode = 0 then []
  else accs.zipIdx.flatMap fun x =>
    k.queuedHz own x.1 ++ (k.nearHz ((Config.freeValue (s.freeNext + 2 * x.2)).getLsbD 0) x.1).toList

/-- Count a hazard and record it: in mode 1 only the first of each type in a tack interval. Whether the event queue of R184
is full, and the record lost, is a free value, as the spec gives that queue nowhere (log entry 10). -/
def State.recordHz (s : State) (c op pc : Nat) (t : TrapInfo) : State :=
  let k := s.core c
  let s := s.bump K.hzCount 64 1
  if t.code ∈ k.hzSeen ∧ s.rd K.hzMode = 1 then s
  else
    let lost := s.free.getLsbD 0
    let s := s.freeStep.setCore c { k with hzSeen := t.code :: k.hzSeen }
    if lost then s.bump K.hzLost 64 1 else s.logDev k.logInst (seqRecord k 1 t pc op (s.tackSeqOf k))

/-- Record the hazards found in accesses at core c's ports, and remember the accesses; nothing while the detector is off
(R183, R184). -/
def State.hazards (s : State) (c op pc : Nat) (accs : List Access) (found : List TrapInfo) : State :=
  if s.rd K.hzMode = 0 ∨ accs = [] then s
  else
    let s := ({ s with freeNext := s.freeNext + 2 * accs.length } : State).each found fun s t => s.recordHz c op pc t
    s.modCore c fun k => { k with
      recent := ((accs.reverse.map fun a => (⟨a.port, a.write, a.lo, a.len, pc⟩ : Recent)) ++ k.recent).take 64 }

/-- The hazard trap of mode 2: its record carries what the hazard's does (R182, R184). -/
def hzTrap (t : TrapInfo) : TrapInfo := { t with code := 0xC }

/-- Accesses that reach core c's ports without an instruction of its own: a DMA or fabric delivery, a neighbour, zeroing, an
engine's window. The detector checks them too; in mode 2 the core traps (R183, R184). -/
def State.portUse (s : State) (c : Nat) (own : Option (Nat × Nat)) (pc : Nat) (accs : List Access) : State :=
  let found := s.foundHz (s.core c) own accs
  let s := s.hazards c 0 pc accs found
  match found with
  | t :: _ => if s.rd K.hzMode = 2 then s.trap c (hzTrap t) pc 0 else s
  | [] => s

/-- The port of a delivery or a DMA access at a physical address: NF or DW (R101). -/
def dataPort (a : Nat) : Nat := if a < 4194304 then 1 else 7

/-! ## Issue -/

/-- The core may issue: its task runs, it is neither fenced nor under issue-stop, no WAIT holds it, and its instance
is not stopped (R98, R149, R179, R222, R433). The pace bit only delays issue (R98). -/
def State.mayIssue (s : State) (c : Nat) : Bool :=
  let k := s.core c
  k.run == .running && !k.fenced && !k.issueStop && decide (k.issueAt ≤ s.mclkAcc / 1000000) &&
    (match k.inst with
     | some i => !(s.inst i.val).halted
     | none => false)

/-- Issue one Idmor instruction on core c (R160, R161, R178). `legal` says that the encoding raises no
illegal-instruction trap, `ro` that it writes a read-only specifier; both are judged before the guard. A refused
neighbour access and an unreadable instruction word trap before the instruction is decoded. `body` is the
instruction's own effect when its guard holds. -/
def State.issue (s : State) (c : Nat) (g : Guard) (op : Nat) (legal ro : Bool) (accs : List Access)
    (body : Core → Res) : State :=
  if !s.mayIssue c then s
  else
    let k := s.core c
    match k.nbrArrived with
    | (st, pc, op') :: rest =>
      (s.setCore c { k with nbrArrived := rest }).trap c { code := 5, status := st } pc op'
    | [] =>
      if k.pc ∈ k.istoreBad then s.trap c { code := 8 } k.pc 0
      else if !legal || !guardLegal g then s.trap c { code := 1 } k.pc op
      else if ro then s.trap c { code := 2 } k.pc op
      else if !guardHolds g k then s.setCore c k.advance
      else
        match body k with
        | .trap t => s.trap c t k.pc op
        | .trapIn s' t => s'.trap c t k.pc op
        | .done t =>
          match t.foundHz k none accs with
          | h :: hs =>
            if s.rd K.hzMode = 2 then
              (({ s with freeNext := t.freeNext } : State).hazards c op k.pc accs (h :: hs)).trap c (hzTrap h) k.pc op
            else (t.hazards c op k.pc accs (h :: hs)).modCore c Core.advance
          | [] => (t.hazards c op k.pc accs []).modCore c Core.advance
        | .jump t pc => t.modCore c fun k => { k with pc := pc }
        | .wait t => t

/-- The outcome of issuing an instruction. -/
def issueOut (s : State) (c : CoreId) (g : Guard) (op : Nat) (legal ro : Bool) (accs : List Access)
    (body : Core → Res) : Out :=
  .next (s.issue c.val g op legal ro accs body)

end Sys2Proof.Machine
end

