-- ==== Sys2Proof/Machine/Flags.lean ====
section
/-! DEFINITION. The flags of the machine: taint of finisher results (R69, R189), and the sticky precision status with
the records of conversion-overflow and quantise-range events (R68, R72, R83, R90, R523). -/

namespace Sys2Proof.Machine

/-- A BLOB's byte i, zero beyond its end. -/
def byteOf (b : List Byte) (i : Nat) : Nat := (b.getD i 0).toNat

/-- The recipe variant in force for a layer of an instance (R87). -/
def State.variantOf (s : State) (i layer : Nat) : Nat := byteOf (s.blob (K.recipeApplied i)) layer

/-- A finisher event: kind 0xA conversion overflow, 0xB quantise range (R83, R523), with its sticky bit (R90). -/
def State.noteFinisher (s : State) (c kind : Nat) : State :=
  let k := s.core c
  match k.inst with
  | none => s
  | some i =>
    let layer := bits (k.posOf 0).ectl.toNat 23 12
    let s := s.wr (K.precStatus i.val) (s.rd (K.precStatus i.val) ||| (if kind = 0xA then 2 else 4))
    s.logDev i.val (pack [(kind, 0), (k.panel, 8), (k.logical, 12), (layer, 20),
      (s.variantOf i.val layer % 4, 41), ((s.inst i.val).layerPass % 2 ^ 16, 96)])

/-- An FP32 bit pattern is NaN. -/
def nan32 (b : Nat) : Bool := decide (0x7F800000 < b % 2 ^ 31)
/-- A BF16 bit pattern is NaN. -/
def nan16 (b : Nat) : Bool := decide (0x7F80 < b % 2 ^ 15)

/-- Write a finisher register from FP32 lanes; a NaN lane sets the taint (R189). -/
def Core.putF32 (k : Core) (x : Nat) (lanes : List Nat) (taint : Bool) : Core :=
  k.setF x (fromLanes 32 lanes) (taint || lanes.any nan32)
/-- Write a finisher register from BF16 lanes; a NaN lane sets the taint (R189). -/
def Core.putF16 (k : Core) (x : Nat) (lanes : List Nat) (taint : Bool) : Core :=
  k.setF x (fromLanes 16 lanes) (taint || lanes.any nan16)

end Sys2Proof.Machine
end

