-- ==== Sys2Proof/Machine/Records.lean ====
section
/-! DEFINITION. What a requantisation leaves behind beside its own result: the inputs of sampled tile passes on their way
to the side buffers, with the draws that select those passes (R78, R79, R81, R117, R309), and the residual records of
sequences (R73-R77). -/

namespace Sys2Proof.Machine

/-! ## Draws (R78, R309) -/

/-- `mix` of the counter-based generator (R309). -/
def mix64 (z : Word64) : Word64 :=
  let z := (z ^^^ (z >>> 30)) * 0xBF58476D1CE4E5B9#64
  let z := (z ^^^ (z >>> 27)) * 0x94D049BB133111EB#64
  z ^^^ (z >>> 31)

/-- `rng(key, c0, c1)` (R309). -/
def rng (key c0 c1 : Word64) : Word64 :=
  let x := mix64 (key ^^^ mix64 (c0 + 0x9E3779B97F4A7C15#64))
  mix64 (x ^^^ mix64 (c1 + 0x3C6EF372FE94F82A#64))

/-- The draw of R78: the pass is sampled when the low k bits are zero. -/
def fcDraw (seed l panel logical engine tile k : Nat) : Bool :=
  let c1 := pack [(2, 56), (panel, 48), (logical, 40), (engine, 32), (tile, 0)]
  (rng (BitVec.ofNat 64 seed) (BitVec.ofNat 64 l) (BitVec.ofNat 64 c1)).toNat % 2 ^ k == 0

/-- Side-buffer slot i. -/
def Core.sideSlot (k : Core) (i : Nat) : Option FcSample := mapGet (fun _ => none) k.side i
/-- Replace side-buffer slot i; none zeroes it (R117). -/
def Core.setSide (k : Core) (i : Nat) (x : Option FcSample) : Core := { k with side := mapSet (fun _ => none) k.side i x }

/-- Recipe entry of a layer's variant (R85). -/
def State.recipe (s : State) (i layer v : Nat) : Nat := mapGet (fun _ => 0) (s.inst i).recipes (4 * layer + v)

/-- The slot can take a sample in layer pass L: it is empty, or its sample's tile pass did not come in the layer pass it
was drawn for (log entry 12). -/
def Core.sideFree (k : Core) (l i : Nat) : Bool :=
  match k.sideSlot i with
  | none => true
  | some x => x.diff.isNone && x.pass != l

/-- The slot that holds the sample of a tile pass of layer pass L whose last bolt is not yet written. -/
def Core.sideOf (k : Core) (l e tile : Nat) : Option (Nat × FcSample) :=
  (List.range 2).findSome? fun j => match k.sideSlot j with
    | some x => if x.engine = e ∧ x.tile = tile ∧ x.pass = l ∧ x.diff = none then some (j, x) else none
    | none => none

/-- Take the draw for a tile pass of core c, once (R78, R79 step 1): a pass that it selects gets a side-buffer slot, or is
counted as skipped (R81). The draw is taken when the model first meets the tile pass in layer pass L: at a quantisation
that feeds it, or when its MMV queues it (log entry 12). -/
def State.fcSelect (s : State) (c e tile layer : Nat) : State :=
  let k := s.core c
  match k.inst with
  | none => s
  | some i =>
    let n := s.inst i.val
    let l := n.layerPass
    let v := s.variantOf i.val layer
    let th := bits (s.recipe i.val layer v) 31 16
    if !n.fcEnable ∨ th = 0 ∨ !fcDraw n.fcSeed l k.panel k.logical e tile n.fcRate ∨ (l, e, tile) ∈ k.fcDrawn then s
    else
      let k := { k with fcDrawn := (l, e, tile) :: k.fcDrawn.filter fun d => d.1 == l }
      match (List.range 2).find? (k.sideFree l) with
      | none => (s.setCore c k).bump K.fcSkipped 64 1
      | some j => s.setCore c (k.setSide j (some
          { engine := e, tile := tile, pass := l, layer := layer, variant := v, threshold := th }))

/-- A block of 64 values reaches the side buffer of the core that it was captured for, as BF16 rows (R79 step 2, R117). -/
def State.fcDeliver (s : State) (c e tile rb : Nat) (vs : List Fl) : State :=
  let k := s.core c
  match k.inst with
  | none => s
  | some i =>
    match k.sideOf (s.inst i.val).layerPass e tile with
    | none => s
    | some (j, x) =>
      let rows := (vs.zipIdx.filter fun p => decide (64 * rb + p.2 < 4096)).foldl (fun m p =>
        mapSet (fun _ => 0#16) m (64 * rb + p.2) (BitVec.ofNat 16 (roundTo bf16 p.1))) x.rows
      s.setCore c (k.setSide j (some { x with rows := rows }))

/-- The finisher of core c has quantised block b, whose values before feedback are `vs`: it sends them to every core of
its instance that a draw selects (R79 step 2). -/
def State.fcFeed (s : State) (c b : Nat) (vs : List Fl) : State :=
  let k := s.core c
  match k.inst with
  | none => s
  | some i =>
    let layer := bits (k.posOf 0).ectl.toNat 23 12
    s.each (Config.fcFeeds c k.pc (s.inst i.val).layerPass b) fun s f =>
      if (s.core f.1).inst = some i then
        (s.fcSelect f.1 f.2.1 f.2.2.1 layer).fcDeliver f.1 f.2.1 f.2.2.1 f.2.2.2 vs
      else s

/-! ## Residual records (R73-R77) -/

/-- The row of the step plan and the residual record that block b of a requantisation on core c works on. -/
def State.recordRow (s : State) (c b : Nat) : Option (PlanRow × Nat) :=
  let k := s.core c
  match k.inst with
  | none => none
  | some i =>
    let n := s.inst i.val
    match Config.recordOf c k.pc n.layerPass (s.mclkAcc / 1000000) b with
    | none => none
    | some (r, blk) => n.plan.rows[r]?.map fun row => (row, blk)

/-- A residual record as the finisher reads it: of a stale one the generation matches none (R76). -/
def State.readRecord (s : State) (c b gen : Nat) (rec_ : List Byte) : List Byte :=
  match s.recordRow c b with
  | none => rec_
  | some (row, blk) =>
    if (mapGet (fun _ => {}) (s.seq (row.handle % 65536)).records blk : ResRec).live then rec_
    else slice rec_ 0 65 ++ leBytes 2 (gen + 1) ++ rec_.drop 67

/-- The record that a requantisation wrote becomes its sequence's record; that of a verification row is kept beside it until
the sequence's length settles (R75, R76). -/
def State.keepRecord (s : State) (c b : Nat) (rec_ : List Byte) : State :=
  match s.recordRow c b with
  | none => s
  | some (row, blk) =>
    let r : ResRec := { bytes := rec_ }
    s.modSeq (row.handle % 65536) fun x =>
      if row.kind = 2 then
        { x with kept := mapSet (fun _ => {}) x.kept (16 * blk + (row.position - x.length)) r }
      else { x with records := mapSet (fun _ => {}) x.records blk r }

/-- The sequence's length settles j positions above the verification pass's first: each block's record after position
n + j - 1 becomes the sequence's record, and the others are discarded (R76, R278, R312). -/
def Seq.settle (x : Seq) (j : Nat) : Seq :=
  { x with
    records := (x.kept.filter fun p => p.1 % 16 + 1 == j).foldl (fun m p => mapSet (fun _ => {}) m (p.1 / 16) p.2) x.records
    kept := [] }

/-- A reduction of the length that no record was kept for: every record's generation takes a value that never matches
(R76, R279). -/
def Seq.staleRecords (x : Seq) : Seq :=
  { x with records := x.records.map (fun p => (p.1, { p.2 with live := false })), kept := [] }

end Sys2Proof.Machine
end

