-- ==== Sys2Proof/Machine/Finisher.lean ====
section
/-! DEFINITION. The finisher instructions FLD to FEMB but for the attention steps (R173, R201-R207, R212). -/

namespace Sys2Proof.Machine

/-! ## Encoding checks (R173, R187, R201, R202) -/

/-- Which fields a finisher instruction uses; an unused field must be zero. -/
structure FinUse where
  fd : Bool := true
  fs1 : Bool := true
  fs2 : Bool := false
  fs3 : Bool := false
  ra : Bool := false
  q : Bool := false
  qsrc : Bool := false
  fb : Bool := false
  /-- `msrc` and `mcount` allowed (FSUM, FDOT, FRMS, FLNORM) -/
  many : Bool := false
deriving DecidableEq, Repr

/-- The reserved and unused fields are zero, and `lf` and `sub` take a listed value. -/
def finOk (f : FinF) (u : FinUse) (lfs subs : List Nat) : Bool :=
  f.res == 0#3 && (u.fd || f.fd == 0#6) && (u.fs1 || f.fs1 == 0#6) && (u.fs2 || f.fs2 == 0#6) &&
    (u.fs3 || f.fs3 == 0#6) && (u.ra || f.ra == 0#4) && (u.q || f.q == 0#3) &&
    (if u.qsrc then f.qsrc == 1#1 else f.qsrc == 0#1) && (u.fb || f.fb == 0#1) &&
    (u.many || (f.msrc == 0#1 && f.mcount == 0#9)) && lfs.contains f.lf.toNat && subs.contains f.sub.toNat

/-- Issue a finisher instruction that names no scalar register. -/
def fin (s : State) (c : CoreId) (g : Guard) (op : Nat) (ok : Bool) (accs : List Access) (body : Core → Res) : Out :=
  issueOut s c g op ok false accs body

/-! ## Loads and stores (R188, R201) -/

/-- A memory operand of the finisher: wide, on a 256-byte boundary, n bytes within the window. -/
def Core.finMem (k : Core) (a n : Nat) : Option Nat := if a % 256 = 0 then k.wide a n else none

/-- The access of a finisher memory operand for the hazard detector. -/
def finAccess (k : Core) (a n : Nat) (write : Bool) : List Access :=
  match k.finMem a n with
  | some p => [⟨2, write, p, n⟩]
  | none => []

/-- FLD (R201): load 512 bytes; the taint follows poison alone. -/
def execFld (c : CoreId) (g : Guard) (f : FinF) (s : State) : Out :=
  let a := (s.core c).areg f.ra.toNat
  fin s c g 0x60 (finOk f { fs1 := false, ra := true } [0] [0]) (finAccess (s.core c) a 512 false) fun k =>
    match k.finMem a 512 with
    | none => .addr a
    | some p =>
      let bad := k.poisoned p 512
      .done ((s.setCore c ((k.readFix p 512).setF f.fd.toNat (leNat (k.bytesAt p 512)) (!bad.isEmpty))).noteUncorr c 2 bad)

/-- FST (R201): store 512 bytes; the taint is not stored. -/
def execFst (c : CoreId) (g : Guard) (f : FinF) (s : State) : Out :=
  let a := (s.core c).areg f.ra.toNat
  fin s c g 0x61 (finOk f { fd := false, ra := true } [0] [0]) (finAccess (s.core c) a 512 true) fun k =>
    match k.finMem a 512 with
    | none => .addr a
    | some p => .done (s.setCore c (k.store p (fBytes (k.freg f.fs1.toNat))))

/-! ## Conversion (R203, R204) -/

/-- Replace lanes from index i on, of w bits each. -/
def putLanes (v w i : Nat) (l : List Nat) : Nat :=
  let lo := v % 2 ^ (w * i)
  let hi := v / 2 ^ (w * (i + l.length))
  lo + 2 ^ (w * i) * fromLanes w l + 2 ^ (w * (i + l.length)) * hi

/-- Record the finisher events of an instruction, one per occurrence. -/
def State.noteMany (s : State) (c kind n : Nat) : State := s.each (List.range n) fun s _ => s.noteFinisher c kind

/-- FCVT (R167, R203): convert the head bolt set of `q` into lane group g, one rounding per lane. -/
def execFcvt (c : CoreId) (g : Guard) (f : FinF) (s : State) : Out :=
  let grp := f.sub.toNat
  fin s c g 0x62
    (finOk f { fs1 := false, fs2 := true, q := true, qsrc := true } [0, 1] (if f.lf = 0#2 then [0, 1] else [0, 1, 2, 3]))
    [] fun k =>
    match k.queue f.q.toNat with
    | ⟨_, .bolts (some set)⟩ :: rest =>
      let fmt := if f.lf = 0#2 then f32 else bf16
      let w := if f.lf = 0#2 then 32 else 16
      let b := signedAt 11 (lane32 (k.freg f.fs2.toNat) 0)
      let xs := set.map fun x => roundTo fmt (Fl.ofInt x.value.toInt b)
      let infs := (xs.filter fun x => x % fmt.signBit == fmt.infBits).length
      let t := k.itaint || decide (0 < infs) || (set.any fun x => x.exc || x.ovf) || k.ftaintOf f.fs2.toNat
      let fd := f.fd.toNat
      let t := if grp = 0 then t else k.ftaintOf fd || t
      let k := (k.setF fd (putLanes (k.freg fd) w (64 * grp) xs) t).setQueue f.q.toNat rest
      .done ((s.setCore c k).noteMany c 0xA infs)
    | _ => .trap { code := 6, queue := f.q.toNat }

/-- FCVTB (R204): FP32 lanes of `fs1` into one half of `fd` as BF16. -/
def execFcvtb (c : CoreId) (g : Guard) (f : FinF) (s : State) : Out :=
  fin s c g 0x6C (finOk f {} [1] [0, 1]) [] fun k =>
    let xs := (vals32 (k.freg f.fs1.toNat)).map (roundTo bf16)
    let fd := f.fd.toNat
    let t := k.ftaintOf f.fs1.toNat || xs.any nan16
    let t := if f.sub = 0#4 then t else k.ftaintOf fd || t
    .done (s.setCore c (k.setF fd (putLanes (k.freg fd) 16 (128 * f.sub.toNat) xs) t))

/-- Element i of part j of a packed source and its exact value (R204): sub 0 BF16; 1, 3, 5 bytes; 2, 4 nibbles. -/
def unpackElem (sub j src scales i : Nat) : Fl :=
  if sub = 0 then Sys2Proof.Machine.decode bf16 (lane16 src (128 * j + i))
  else
    let e := lane8 scales (2 * j + i / 64)
    if sub = 2 ∨ sub = 4 then dq (signedAt 4 (src / 2 ^ (4 * (128 * j + i)))) e
    else dq (signedAt 8 (lane8 src (128 * j + i))) e

/-- Part indices of a source format (R204). -/
def unpackParts (sub : Nat) : Nat := if sub = 0 then 2 else if sub = 2 ∨ sub = 4 then 8 else 4

/-- FUNP (R204): dequantise one part of `fs1` into FP32 lanes. -/
def execFunp (c : CoreId) (g : Guard) (f : FinF) (s : State) : Out :=
  let sub := f.sub.toNat
  let j := f.fs3.toNat
  fin s c g 0x6D
    (finOk f { fs2 := true, fs3 := true } [0] [0, 1, 2, 3, 4, 5] && (sub != 0 || f.fs2 == 0#6) &&
      decide (j < unpackParts sub)) [] fun k =>
    let xs := (List.range 128).map (unpackElem sub j (k.freg f.fs1.toNat) (k.freg f.fs2.toNat))
    let ov := (xs.filter fun x => x.isFin && (r32 x).isInf).length
    let t := k.ftaintOf f.fs1.toNat || (sub != 0 && k.ftaintOf f.fs2.toNat) || decide (0 < ov)
    .done ((s.setCore c (k.putF32 f.fd.toNat (xs.map (roundTo f32)) t)).noteMany c 0xA ov)

/-! ## Elementwise operations (R201, R202) -/

/-- Issue an elementwise FP32 operation of up to three registers. -/
def lanes3 (s : State) (c : CoreId) (g : Guard) (f : FinF) (op : Nat) (u : FinUse)
    (fn : Fl → Fl → Fl → Nat) : Out :=
  fin s c g op (finOk f u [0] [0]) [] fun k =>
    let a := vals32 (k.freg f.fs1.toNat)
    let b := vals32 (k.freg f.fs2.toNat)
    let d := vals32 (k.freg f.fs3.toNat)
    let t := k.ftaintOf f.fs1.toNat || (u.fs2 && k.ftaintOf f.fs2.toNat) || (u.fs3 && k.ftaintOf f.fs3.toNat)
    .done (s.setCore c (k.putF32 f.fd.toNat (List.zipWith (fun x y => x y) (List.zipWith fn a b) d) t))

/-- FADD (R201). -/
def execFadd (c : CoreId) (g : Guard) (f : FinF) (s : State) : Out :=
  lanes3 s c g f 0x63 { fs2 := true } fun a b _ => roundTo f32 (a.add b)
/-- FSUB (R201). -/
def execFsub (c : CoreId) (g : Guard) (f : FinF) (s : State) : Out :=
  lanes3 s c g f 0x64 { fs2 := true } fun a b _ => roundTo f32 (a.sub b)
/-- FMUL (R201). -/
def execFmul (c : CoreId) (g : Guard) (f : FinF) (s : State) : Out :=
  lanes3 s c g f 0x65 { fs2 := true } fun a b _ => roundTo f32 (a.mul b)
/-- FFMA (R201): one rounding. -/
def execFfma (c : CoreId) (g : Guard) (f : FinF) (s : State) : Out :=
  lanes3 s c g f 0x66 { fs2 := true, fs3 := true } fun a b d => roundTo f32 ((a.mul b).add d)

/-- Issue an elementwise operation of two registers in the format that `lf` names, an exact function of the lanes. -/
def lanesLf (s : State) (c : CoreId) (g : Guard) (f : FinF) (op : Nat) (two : Bool) (subs : List Nat) (mask : Bool)
    (fn : Fmt → Fl → Fl → Nat) : Out :=
  fin s c g op (finOk f { fs2 := two } [0, 1] subs) [] fun k =>
    let a := k.freg f.fs1.toNat
    let b := k.freg f.fs2.toNat
    let t := k.ftaintOf f.fs1.toNat || (two && k.ftaintOf f.fs2.toNat)
    if f.lf = 0#2 then
      let l := List.zipWith (fn f32) (vals32 a) (vals32 b)
      .done (s.setCore c (if mask then k.setF f.fd.toNat (fromLanes 32 l) t else k.putF32 f.fd.toNat l t))
    else
      let l := List.zipWith (fn bf16) (vals16 a) (vals16 b)
      .done (s.setCore c (if mask then k.setF f.fd.toNat (fromLanes 16 l) t else k.putF16 f.fd.toNat l t))

/-- FMIN (R202). -/
def execFmin (c : CoreId) (g : Guard) (f : FinF) (s : State) : Out :=
  lanesLf s c g f 0x67 true [0] false fun m a b => roundTo m (Fl.minMax false a b)
/-- FMAX (R202). -/
def execFmax (c : CoreId) (g : Guard) (f : FinF) (s : State) : Out :=
  lanesLf s c g f 0x68 true [0] false fun m a b => roundTo m (Fl.minMax true a b)

/-- The condition of FCMP (R202): 0 =, 1 <, 2 ≤, 3 ≠, which holds with a NaN. -/
def cmpCond (sub : Nat) (a b : Fl) : Bool :=
  if sub = 0 then a.eq b else if sub = 1 then a.lt b else if sub = 2 then a.le b else !a.eq b

/-- FCMP (R202): all-ones or zero mask lanes; a mask sets no taint. -/
def execFcmp (c : CoreId) (g : Guard) (f : FinF) (s : State) : Out :=
  lanesLf s c g f 0x69 true [0, 1, 2, 3] true fun m a b =>
    if cmpCond f.sub.toNat a b then 2 * m.signBit - 1 else 0
/-- FNEG (R201). -/
def execFneg (c : CoreId) (g : Guard) (f : FinF) (s : State) : Out :=
  lanesLf s c g f 0x6A false [0] false fun m a _ => roundTo m a.neg
/-- FABS (R201). -/
def execFabs (c : CoreId) (g : Guard) (f : FinF) (s : State) : Out :=
  lanesLf s c g f 0x6B false [0] false fun m a _ => roundTo m a.abs

/-- A function bounded in units in the last place, per FP32 lane; its offset is drawn by opcode and operand. -/
def lanesFn (s : State) (c : CoreId) (g : Guard) (f : FinF) (op : Nat) (fn : Fl → Int → Nat) : Out :=
  lanes3 s c g f op {} fun a _ _ => fn a (Config.ulpOffset op (roundTo f32 a) 0)

/-- FRCP (R71, R201). -/
def execFrcp (c : CoreId) (g : Guard) (f : FinF) (s : State) : Out := lanesFn s c g f 0x6E flRecip
/-- FSQRT (R71, R201). -/
def execFsqrt (c : CoreId) (g : Guard) (f : FinF) (s : State) : Out := lanesFn s c g f 0x6F flSqrt
/-- FRSQ (R71, R201). -/
def execFrsq (c : CoreId) (g : Guard) (f : FinF) (s : State) : Out := lanesFn s c g f 0x70 flRsqrt
/-- FEXP (R71, R201). -/
def execFexp (c : CoreId) (g : Guard) (f : FinF) (s : State) : Out := lanesFn s c g f 0x71 (flExp false)
/-- FEXP2 (R71, R201). -/
def execFexp2 (c : CoreId) (g : Guard) (f : FinF) (s : State) : Out := lanesFn s c g f 0x72 (flExp true)
/-- FLOG (R71, R201). -/
def execFlog (c : CoreId) (g : Guard) (f : FinF) (s : State) : Out := lanesFn s c g f 0x73 (flLog false)
/-- FLOG2 (R71, R201). -/
def execFlog2 (c : CoreId) (g : Guard) (f : FinF) (s : State) : Out := lanesFn s c g f 0x74 (flLog true)

/-- FACT (R71, R201, R202): sigmoid, tanh, SiLU or GELU per lane, in FP32 within 4 ulp; a BF16 lane
is rounded once from it. -/
def execFact (c : CoreId) (g : Guard) (f : FinF) (s : State) : Out :=
  lanesLf s c g f 0x75 false [0, 1, 2, 3, 4] false fun m a _ =>
    flActLane m f.sub.toNat a (Config.ulpOffset 0x75 (roundTo m a) f.sub.toNat)

/-! ## Reductions and norms (R205) -/

/-- m of a reduction. -/
def mOf (f : FinF) : Nat := f.mcount.toNat + 1

/-- The register ranges of a reduction stay within f63 and its unused fields are zero: `fs1` (and `fs2`) name registers
when `msrc` is 0. `raToo` says that `ra` is used in either form. -/
def redOk (f : FinF) (two raToo : Bool) : Bool :=
  if f.msrc = 0#1 then
    decide (f.fs1.toNat + mOf f ≤ 64) && (!two || decide (f.fs2.toNat + mOf f ≤ 64)) && (raToo || f.ra == 0#4)
  else f.fs1 == 0#6 && f.fs2 == 0#6

/-- Lanes of m registers from x on. -/
def regLanes (k : Core) (x m : Nat) : List Fl := (List.range m).flatMap fun i => vals32 (k.freg (x + i))
/-- OR of the taints of m registers from x on. -/
def regTaints (k : Core) (x m : Nat) : Bool := (List.range m).any fun i => k.ftaintOf (x + i)
/-- FP32 lanes of a byte string. -/
def memLanes (bs : List Byte) (n : Nat) : List Fl :=
  (List.range n).map fun i => Sys2Proof.Machine.decode f32 (leAt bs (4 * i) 4)

/-- The memory operands of a reduction with `msrc` 1: each must be a legal range. -/
def redMem (k : Core) (f : FinF) (two : Bool) : Option (List Nat) :=
  if f.msrc = 0#1 then some []
  else
    match k.finMem (k.areg f.ra.toNat) (512 * mOf f) with
    | none => none
    | some p =>
      if two then (k.finMem (k.areg (f.ra.toNat + 1)) (512 * mOf f)).map fun q => [p, q] else some [p]

/-- Source vectors of a reduction: the i-th set's lanes and taint. -/
def redSrc (k : Core) (f : FinF) (ps : List Nat) (i : Nat) : List Fl × Bool :=
  let m := mOf f
  if f.msrc = 0#1 then
    let x := if i = 0 then f.fs1.toNat else f.fs2.toNat
    (regLanes k x m, regTaints k x m)
  else
    let p := ps.getD i 0
    (memLanes (k.bytesAt p (512 * m)) (128 * m), !(k.poisoned p (512 * m)).isEmpty)

/-- Poisoned words among the memory operands of a reduction. -/
def redBad (k : Core) (f : FinF) (ps : List Nat) : List Nat := ps.flatMap fun p => k.poisoned p (512 * mOf f)

/-- The core once the memory operands of a reduction have been read (R110). -/
def redFix (k : Core) (f : FinF) (ps : List Nat) : Core := ps.foldl (fun k p => k.readFix p (512 * mOf f)) k

/-- The accesses of a reduction for the hazard detector. -/
def redAccess (k : Core) (f : FinF) (two : Bool) : List Access :=
  ((redMem k f two).getD []).map fun p => ⟨2, false, p, 512 * mOf f⟩

/-- FSUM (R205): pairwise sum of m vectors into lane 0. -/
def execFsum (c : CoreId) (g : Guard) (f : FinF) (s : State) : Out :=
  fin s c g 0x76 (finOk f { ra := true, many := true } [0] [0] && redOk f false false)
    (redAccess (s.core c) f false) fun k =>
    match redMem k f false with
    | none => .addr (k.areg f.ra.toNat)
    | some ps =>
      let x := redSrc k f ps 0
      .done ((s.setCore c ((redFix k f ps).putF32 f.fd.toNat [roundTo f32 (fsum x.1)] x.2)).noteUncorr c 2 (redBad k f ps))

/-- FDOT (R205): pairwise sum of exact products into lane 0. -/
def execFdot (c : CoreId) (g : Guard) (f : FinF) (s : State) : Out :=
  fin s c g 0x77 (finOk f { fs2 := true, ra := true, many := true } [0] [0] && redOk f true false)
    (redAccess (s.core c) f true) fun k =>
    match redMem k f true with
    | none => .addr (k.areg f.ra.toNat)
    | some ps =>
      let x := redSrc k f ps 0
      let y := redSrc k f ps 1
      let v := fsum (List.zipWith Fl.mul x.1 y.1)
      .done ((s.setCore c ((redFix k f ps).putF32 f.fd.toNat [roundTo f32 v] (x.2 || y.2))).noteUncorr c 2 (redBad k f ps))

/-- 1 / √x as the norms take it, with its offset drawn by opcode and operand (R205). -/
def rsqrtOf (op : Nat) (x : Fl) : Fl :=
  Sys2Proof.Machine.decode f32 (flRsqrt x (Config.ulpOffset op (roundTo f32 x) 1))

/-- Issue a norm: sources, gain at `a[ra + 1]`, output at `a[ra + 2]`, statistics and taint in `fd` (R205). `stats`
answers the statistics lanes, and the value that a source lane is scaled from. -/
def norm (s : State) (c : CoreId) (g : Guard) (f : FinF) (op : Nat)
    (stats : List Fl → Fl → Fl × Fl × List Nat) : Out :=
  fin s c g op (finOk f { fs3 := true, ra := true, many := true } [1] [0] && redOk f false true && f.fs2 == 0#6)
    (redAccess (s.core c) f false) fun k =>
    let m := mOf f
    let ga := k.areg (f.ra.toNat + 1)
    let oa := k.areg (f.ra.toNat + 2)
    match redMem k f false, k.finMem ga (256 * m), k.finMem oa (256 * m) with
    | some ps, some gp, some opp =>
      let x := redSrc k f ps 0
      let eps := Sys2Proof.Machine.decode f32 (lane32 (k.freg f.fs3.toNat) 0)
      let (mu, r, lanes) := stats x.1 eps
      let gains := (List.range (128 * m)).map fun i =>
        Sys2Proof.Machine.decode bf16 (leAt (k.bytesAt gp (256 * m)) (2 * i) 2)
      let ys := List.zipWith (fun v w => roundTo bf16 ((r32 ((r32 (v.sub mu)).mul r)).mul w)) x.1 gains
      let gbad := k.poisoned gp (256 * m)
      let bad := redBad k f ps ++ gbad
      let t := x.2 || k.ftaintOf f.fs3.toNat || !gbad.isEmpty || ys.any nan16
      let k := ((redFix k f ps).readFix gp (256 * m)).store opp (ys.flatMap fun y => leBytes 2 y)
      .done ((s.setCore c (k.putF32 f.fd.toNat lanes t)).noteUncorr c 2 bad)
    | none, _, _ => .addr (k.areg f.ra.toNat)
    | _, none, _ => .addr ga
    | _, _, none => .addr oa

/-- FRMS (R205). -/
def execFrms (c : CoreId) (g : Guard) (f : FinF) (s : State) : Out :=
  norm s c g f 0x78 fun x eps =>
    let ms := divNat32 (fsum (x.map fun v => v.mul v)) x.length
    let r := rsqrtOf 0x78 (r32 (ms.add eps))
    -- x − 0 is x, so the shared scaling step is R205's x × r
    (.fin false 0 0, r, [roundTo f32 r])

/-- FLNORM (R205). -/
def execFlnorm (c : CoreId) (g : Guard) (f : FinF) (s : State) : Out :=
  norm s c g f 0x79 fun x eps =>
    let mu := divNat32 (fsum x) x.length
    let var := divNat32 (fsum (x.map fun v => (r32 (v.sub mu)).mul (r32 (v.sub mu)))) x.length
    let r := rsqrtOf 0x79 (r32 (var.add eps))
    (mu, r, [roundTo f32 r, roundTo f32 mu])

/-! ## Requantisation (R72-R74, R206) -/

/-- The smallest scale e in 0-254 with max |u| ≤ qmax × 2^(e − 127), none when an element is not finite or no scale
fits (R72). -/
def chooseScale (u : List Fl) (qmax : Nat) : Option Nat :=
  if u.any fun x => !x.isFin then none
  else (List.range 255).find? fun e => u.all fun x => x.abs.le (.fin false qmax ((e : Int) - 127))

/-- Clamp to ±q. -/
def clampTo (q : Nat) (i : Int) : Int := max (-(q : Int)) (min (q : Int) i)

/-- The element code of a value at scale e (R72, R74): a NaN encodes as 0, an infinity as ±qmax. -/
def quantElem (qmax e : Nat) (u : Fl) : Int :=
  match u with
  | .nan => 0
  | .inf n => if n then -(qmax : Int) else qmax
  | x => clampTo qmax (x.scale (127 - (e : Int))).rne

/-- One requantised block: codes, scale, whether the range fell short, and the residual record written back (R74). -/
structure QuantOut where
  codes : List Int
  scale : Nat
  range : Bool
  record : List Byte
deriving DecidableEq, Repr

/-- Requantise a block of 64 values; `record` is the 72-byte residual record when feedback is on (R72, R74). -/
def quantBlock (v : List Fl) (qmax gen : Nat) (record : Option (List Byte)) : QuantOut :=
  let u := match record with
    | none => v
    | some rec =>
      if leAt rec 65 2 = gen then
        (List.range 64).map fun i => r32 ((v.getD i Fl.zero).add
          (Fl.ofInt (signedAt 8 (byteOf rec i)) ((byteOf rec 64 : Int) - 135)))
      else v
  let sc := chooseScale u qmax
  let e := sc.getD 254
  let q := u.map (quantElem qmax e)
  let rec' := match record with
    | none => []
    | some _ =>
      let codes := List.zipWith (fun (x : Fl) (i : Int) =>
        if x.isFin then
          let r := r32 (x.sub (Fl.ofInt i ((e : Int) - 127)))
          clampTo 127 (r.scale (135 - (e : Int))).rne
        else 0) u q
      codes.map (fun i => BitVec.ofInt 8 i) ++ [BitVec.ofNat 8 e] ++ leBytes 2 gen ++ List.replicate 5 0
  ⟨q, e, sc.isNone, rec'⟩

/-- Pack element codes into bytes: signed bytes, or nibbles with the low nibble first (R42). -/
def packCodes (nib : Bool) (l : List Int) : List Byte :=
  if nib then (List.range (l.length / 2)).map fun i =>
    BitVec.ofNat 8 (unsignedAt 4 (l.getD (2 * i) 0) + 16 * unsignedAt 4 (l.getD (2 * i + 1) 0))
  else l.map fun i => BitVec.ofInt 8 i

/-- FQUANT (R206): requantise two blocks of `fs1` to `fd` or through NF, with or without feedback. -/
def execFquant (c : CoreId) (g : Guard) (f : FinF) (s : State) : Out :=
  let sub := f.sub.toNat
  let nib := sub % 2 == 1
  let nf := decide (8 ≤ sub)
  let fb := f.fb == 1#1
  let len := if nib then 64 else 128
  let k0 := s.core c
  let accs := if nf then
      (((k0.narrow (k0.areg f.ra.toNat) len true).getD []).map fun p => (⟨1, true, p, len⟩ : Access)) ++
      ((k0.narrow (k0.areg (f.ra.toNat + 1)) 2 true).getD []).map fun p => ⟨1, true, p, 2⟩
    else []
  fin s c g 0x7A
    (finOk f { fd := !nf, fs2 := fb, fs3 := true, ra := nf, fb := true } [0] [0, 1, 2, 3, 8, 9, 10, 11] &&
      (!fb || nib)) accs fun k =>
    let fs1 := f.fs1.toNat
    let v := vals32 (k.freg fs1)
    let gen := lane32 (k.freg f.fs3.toNat) 0 % 65536
    let rb := fBytes (k.freg f.fs2.toNat)
    let r0 := s.readRecord c 0 gen (slice rb 0 72)
    let r1 := s.readRecord c 1 gen (slice rb 72 72)
    let qmax := if nib then 7 else 127
    let o0 := quantBlock (v.take 64) qmax gen (if fb then some r0 else none)
    let o1 := quantBlock (v.drop 64) qmax gen (if fb then some r1 else none)
    let elems := packCodes nib (o0.codes ++ o1.codes)
    let scales : List Byte := [BitVec.ofNat 8 o0.scale, BitVec.ofNat 8 o1.scale]
    let t := k.ftaintOf fs1 || (fb && k.ftaintOf f.fs2.toNat) || k.ftaintOf f.fs3.toNat
    let n := b2n o0.range + b2n o1.range
    -- the records go to the sequence, and the values before feedback to the cores whose passes they feed
    let s := if fb then (s.keepRecord c 0 o0.record).keepRecord c 1 o1.record else s
    let after := fun s : State => (s.fcFeed c 0 (v.take 64)).fcFeed c 1 (v.drop 64)
    -- the updated records go back into fs2
    let back := fun k : Core =>
      if fb then k.setF f.fs2.toNat (leNat (o0.record ++ o1.record ++ rb.drop 144)) t else k
    if nf then
      let a := k.areg f.ra.toNat
      let b := k.areg (f.ra.toNat + 1)
      match (if a % 64 = 0 then k.narrow a len true else none), k.narrow b 2 true with
      | some pa, some pb =>
        let k := back ((k.storeAll pa elems).storeAll pb scales)
        let k := (k.writeReg (0x20 + f.ra.toNat) (BitVec.ofNat 32 (a + len))).writeReg
          (0x20 + (f.ra.toNat + 1) % 16) (BitVec.ofNat 32 (b + 2))
        let k := if 0 < n then k.setF fs1 (k.freg fs1) true else k
        .done (after ((s.setCore c k).noteMany c 0xB n))
      | none, _ => .addr a
      | _, none => .addr b
    else
      let val := leNat (elems ++ List.replicate (256 - elems.length) 0 ++ scales)
      .done (after ((s.setCore c ((back k).setF f.fd.toNat val (t || decide (0 < n)))).noteMany c 0xB n))

/-! ## Alterations and embeddings (R207, R212) -/

/-- FALT's steering entries 0-63 in ascending order, up to the end mark. -/
def steer (fs3 : Nat) : Nat → Nat → List Fl → List Fl
  | 0, _, y => y
  | n + 1, e, y =>
    let ch := fs3 / 2 ^ (64 * e) % 65536
    if ch = 0xFFFF then y
    else
      let add := Sys2Proof.Machine.decode f32 (lane32 fs3 (2 * e + 1))
      steer fs3 n (e + 1) (if ch < 128 then y.set ch (r32 ((y.getD ch Fl.zero).add add)) else y)

/-- FALT (R207): block scales, then steering entries. -/
def execFalt (c : CoreId) (g : Guard) (f : FinF) (s : State) : Out :=
  fin s c g 0x7B (finOk f { fs2 := true, fs3 := true } [0] [0]) [] fun k =>
    let x := vals32 (k.freg f.fs1.toNat)
    let sc := k.freg f.fs2.toNat
    let y := (List.range 128).map fun i => r32 ((x.getD i Fl.zero).mul (fp8 (lane8 sc (i / 64))))
    let y := steer (k.freg f.fs3.toNat) 64 0 y
    let t := k.ftaintOf f.fs1.toNat || k.ftaintOf f.fs2.toNat || k.ftaintOf f.fs3.toNat
    .done (s.setCore c (k.putF32 f.fd.toNat (y.map (roundTo f32)) t))

/-- BF16 lanes of an embedding chunk (R212). -/
def embLanes (split : Bool) (chunk : List Byte) : List Nat :=
  let el := fun b i => dq (signedAt 8 (byteOf chunk (64 * b + i))) (byteOf chunk (256 + b))
  (List.range 256).map fun l =>
    if split then
      (if l < 128 then roundTo bf16 ((el (2 * (l / 64)) (l % 64)).add (el (2 * (l / 64) + 1) (l % 64))) else 0)
    else roundTo bf16 (el (l / 64) (l % 64))

/-- FEMB (R212): one embedding chunk to BF16; the taint follows poison only. -/
def execFemb (c : CoreId) (g : Guard) (f : FinF) (s : State) : Out :=
  let a := (s.core c).areg f.ra.toNat
  fin s c g 0x7F (finOk f { fs1 := false, ra := true } [1] [0, 1]) (finAccess (s.core c) a 512 false) fun k =>
    match k.finMem a 512 with
    | none => .addr a
    | some p =>
      let bad := k.poisoned p 512
      let l := embLanes (f.sub == 1#4) (k.bytesAt p 512)
      .done ((s.setCore c ((k.readFix p 512).setF f.fd.toNat (fromLanes 16 l) (!bad.isEmpty))).noteUncorr c 2 bad)

end Sys2Proof.Machine
end

