-- ==== Sys2Proof/Machine/Attention.lean ====
section
/-! DEFINITION. The attention steps FQK, FSMX and FPV (R208-R211). -/

namespace Sys2Proof.Machine

/-- Registers of a block of 32 keys or values by cache format (R208). -/
def kvRegs (sub : Nat) : Nat := if sub = 0 then 16 else if sub = 1 then 8 else 4

/-- The string of bytes of the block's registers, as a number. -/
def kvString (k : Core) (x n : Nat) : Nat := fromLanes 4096 ((List.range n).map fun i => k.freg (x + i))

/-- Element (j, d) of a block, exact: `dq(code, scale)`, or the BF16 value for KV16 (R208). -/
def kvElem (sub str fs3 j d : Nat) : Fl :=
  if sub = 0 then Sys2Proof.Machine.decode bf16 (lane16 str (128 * j + d))
  else
    let e := lane8 fs3 (2 * j + d / 64)
    if sub = 1 then dq (signedAt 8 (lane8 str (128 * j + d))) e
    else dq (signedAt 4 (str / 2 ^ (4 * (128 * j + d)))) e

/-- FQK (R209): 32 scores of one query head. -/
def execFqk (c : CoreId) (g : Guard) (f : FinF) (s : State) : Out :=
  let sub := f.sub.toNat
  fin s c g 0x7C
    (finOk f { fs2 := true, fs3 := true } [0] [0, 1, 2] && decide (f.fs2.toNat + kvRegs sub ≤ 64)) [] fun k =>
    let q := vals32 (k.freg f.fs1.toNat)
    let p3 := k.freg f.fs3.toNat
    let tau := Sys2Proof.Machine.decode f32 (lane32 p3 16)
    let str := kvString k f.fs2.toNat (kvRegs sub)
    let lanes := (List.range 32).map fun j =>
      if lane32 p3 17 ≤ j then f32.infBits + f32.signBit
      else roundTo f32 (tau.mul (fsum ((List.range 128).map fun d => (q.getD d Fl.zero).mul (kvElem sub str p3 j d))))
    let t := k.ftaintOf f.fs1.toNat || regTaints k f.fs2.toNat (kvRegs sub) || k.ftaintOf f.fs3.toNat
    .done (s.setCore c (k.putF32 f.fd.toNat lanes t))

/-- The results of FSMX: p, c, the new maximum and the new sum (R210). -/
def softmaxStep (scores : List Fl) (m l : Fl) : List Fl × Fl × Fl × Fl :=
  let fix := fun x : Fl => if x.isNan then .inf true else x
  let sc := scores.map fix
  let m := fix m
  let mn := (sc.foldl (Fl.minMax true) (.inf true)).minMax true m
  if mn = .inf true then
    (sc.map fun _ => Fl.zero, Fl.one, mn, r32 ((r32 (l.mul Fl.one)).add (fsum (sc.map fun _ => Fl.zero))))
  else
    let p := sc.map fun x => fexp (r32 (x.sub mn))
    let cc := fexp (r32 (m.sub mn))
    (p, cc, mn, r32 ((r32 (l.mul cc)).add (fsum p)))

/-- FSMX (R210): running maximum and running sum; writes `fd`, then lanes 0 and 1 of `fs2`. -/
def execFsmx (c : CoreId) (g : Guard) (f : FinF) (s : State) : Out :=
  fin s c g 0x7D (finOk f { fs2 := true } [0] [0]) [] fun k =>
    let sc := (vals32 (k.freg f.fs1.toNat)).take 32
    let st := k.freg f.fs2.toNat
    let m := Sys2Proof.Machine.decode f32 (lane32 st 0)
    let l := Sys2Proof.Machine.decode f32 (lane32 st 1)
    let (p, cc, mn, ln) := softmaxStep sc m l
    let t := k.ftaintOf f.fs1.toNat || k.ftaintOf f.fs2.toNat || m.isNan || sc.any Fl.isNan
    let k := k.putF32 f.fd.toNat ((p ++ [cc]).map (roundTo f32)) t
    let k := k.setF f.fs2.toNat (putLanes (k.freg f.fs2.toNat) 32 0 [roundTo f32 mn, roundTo f32 ln]) (t || ln.isNan)
    .done (s.setCore c k)

/-- FPV (R211): accumulate one head's output in `fd`. -/
def execFpv (c : CoreId) (g : Guard) (f : FinF) (s : State) : Out :=
  let sub := f.sub.toNat
  fin s c g 0x7E
    (finOk f { fs2 := true, fs3 := true } [0] [0, 1, 2] && decide (f.fs2.toNat + kvRegs sub ≤ 64)) [] fun k =>
    let p := vals32 (k.freg f.fs1.toNat)
    let cc := p.getD 32 Fl.zero
    let acc := vals32 (k.freg f.fd.toNat)
    let p3 := k.freg f.fs3.toNat
    let str := kvString k f.fs2.toNat (kvRegs sub)
    let lanes := (List.range 128).map fun d =>
      roundTo f32 ((r32 ((acc.getD d Fl.zero).mul cc)).add
        (fsum ((List.range 32).map fun j => (p.getD j Fl.zero).mul (kvElem sub str p3 j d))))
    let t := k.ftaintOf f.fd.toNat || k.ftaintOf f.fs1.toNat || regTaints k f.fs2.toNat (kvRegs sub) ||
      k.ftaintOf f.fs3.toNat
    .done (s.setCore c (k.putF32 f.fd.toNat lanes t))

end Sys2Proof.Machine
end

