-- ==== Sys2Proof/Machine/Control.lean ====
section
/-! DEFINITION. The control instructions NOP to BRK (R170, R190-R192). -/

namespace Sys2Proof.Machine

/-- The reserved field of the control format is zero. -/
def ctlOk (f : CtlF) : Bool := f.res == 0#14

/-- The format with every operand field zero, for NOP, HALT, RET and BRK (R187). -/
def ctlBare (f : CtlF) : Bool := ctlOk f && f.rs == 0#6 && f.imm32 == 0#32

/-- The engine command queues and DMA channels of a core are all empty (R168, R191). -/
def Core.quiet (k : Core) : Bool := (k.pos.all fun p => p.2.cmdq.isEmpty) && (k.dma.all fun p => p.2.isEmpty)

/-- A branch target of an offset from pc: the index when it lies in 0-32,767 (R170). -/
def target (pc : Nat) (imm : BitVec 32) : Option Nat :=
  let t : Int := pc + imm.toInt
  if 0 ≤ t ∧ t ≤ 32767 then some t.toNat else none

/-- A taken branch of core c to t (R192). -/
def branchTo (s : State) (c t : Nat) : Res :=
  .jump (s.modCore c fun k => { k with loops := popLoops t k.loops }) t

/-- NOP (R190). -/
def execNop (c : CoreId) (g : Guard) (f : CtlF) (s : State) : Out :=
  issueOut s c g 0x00 (ctlBare f) false [] fun _ => .done s

/-- HALT (R191): trap 0x06 with a reservation outstanding, then a wait for the command queues and DMA channels, then
the task ends. -/
def execHalt (c : CoreId) (g : Guard) (f : CtlF) (s : State) : Out :=
  issueOut s c g 0x01 (ctlBare f) false [] fun k =>
    if k.anyReserved then .fail 6
    else if !k.quiet then .wait s
    else .wait (s.setCore c { k with run := .halted })

/-- BR (R190): relative branch. -/
def execBr (c : CoreId) (g : Guard) (f : CtlF) (s : State) : Out :=
  issueOut s c g 0x02 (ctlOk f && f.rs == 0#6) false [] fun k =>
    match target k.pc f.imm32 with
    | some t => branchTo s c t
    | none => .fail 9

/-- BRR (R190): branch to the whole 32-bit register value. -/
def execBrr (c : CoreId) (g : Guard) (f : CtlF) (s : State) : Out :=
  issueOut s c g 0x03 (ctlOk f && f.imm32 == 0#32 && specOk f.rs.toNat) false [] fun k =>
    let t := (s.readReg k f.rs.toNat).toNat
    if t ≤ 32767 then branchTo s c t else .fail 9

/-- CALL (R190): push pc + 1, branch; the loop stack is unchanged (R192). -/
def execCall (c : CoreId) (g : Guard) (f : CtlF) (s : State) : Out :=
  issueOut s c g 0x04 (ctlOk f && f.rs == 0#6) false [] fun k =>
    match target k.pc f.imm32 with
    | some t =>
      if 8 ≤ k.rets.length then .fail 9
      else .jump (s.setCore c { k with rets := (k.pc + 1) % 2 ^ 15 :: k.rets }) t
    | none => .fail 9

/-- RET (R190): pop the return stack. -/
def execRet (c : CoreId) (g : Guard) (f : CtlF) (s : State) : Out :=
  issueOut s c g 0x05 (ctlBare f) false [] fun k =>
    match k.rets with
    | t :: rest => .jump (s.setCore c { k with rets := rest }) t
    | [] => .fail 9

/-- The loop that LOOP opens, none where R192 traps. -/
def loopOpen (k : Core) (n : Nat) (imm : BitVec 32) : Option LoopEntry :=
  let last : Int := k.pc + imm.toInt
  if n = 0 ∨ n > 2 ^ 24 - 1 ∨ imm.toInt < 2 ∨ last > 32767 then none
  else if 4 ≤ k.loops.length then none
  else
    match k.loops with
    | l :: _ => if last.toNat > l.last then none else some ⟨k.pc + 1, last.toNat, n⟩
    | [] => some ⟨k.pc + 1, last.toNat, n⟩

/-- LOOP (R192): open a counted loop. -/
def execLoop (c : CoreId) (g : Guard) (f : CtlF) (s : State) : Out :=
  issueOut s c g 0x06 (ctlOk f && specOk f.rs.toNat) false [] fun k =>
    match loopOpen k (s.readReg k f.rs.toNat).toNat f.imm32 with
    | some l => .jump (s.setCore c { k with loops := l :: k.loops }) ((k.pc + 1) % 2 ^ 15)
    | none => .fail 9

/-- BRK (R190): the breakpoint trap. -/
def execBrk (c : CoreId) (g : Guard) (f : CtlF) (s : State) : Out :=
  issueOut s c g 0x07 (ctlBare f) false [] fun _ => .fail 0xB

end Sys2Proof.Machine
end

