-- ==== Sys2Proof/Machine/Tile.lean ====
section
/-! DEFINITION. Tiles: descriptors, weight formats, tile images, event records, and the windows and blocks of a pass
(R34-R60). -/

namespace Sys2Proof.Machine

/-! ## Tile descriptors (R37) -/

/-- Tile descriptor of an engine. -/
def EngState.td (e : EngState) (tile : Nat) : Nat := mapGet (fun _ => 0) e.tdesc tile
/-- Replace a tile descriptor. -/
def EngState.setTd (e : EngState) (tile v : Nat) : EngState := { e with tdesc := mapSet (fun _ => 0) e.tdesc tile v }
/-- `fmt` of a descriptor: 0 SW4, 1 FW4, 2 SW3, 3 SW2. -/
def tdFmt (t : Nat) : Nat := bits t 1 0
/-- `row_blocks` of a descriptor. -/
def tdBlocks (t : Nat) : Nat := bits t 9 3
/-- `base_unit` of a descriptor. -/
def tdBase (t : Nat) : Nat := bits t 25 10
/-- `golden_host` of a descriptor. -/
def tdGoldenHost (t : Nat) : Bool := bit t 28
/-- `golden_addr` of a descriptor as a byte address or offset. -/
def tdGolden (t : Nat) : Nat := 512 * bits t 62 32
/-- The descriptor names a loaded tile: `valid` and 1 to 64 row blocks. -/
def tdValid (t : Nat) : Bool := bit t 31 && decide (1 ≤ tdBlocks t) && decide (tdBlocks t ≤ 64)
/-- Set or clear one bit of a descriptor. -/
def tdPut (t n : Nat) (b : Bool) : Nat := t - b2n (bit t n) * 2 ^ n + b2n b * 2 ^ n

/-! ## Weight formats and tile images (R38-R41) -/

/-- Bytes of one row (R36). -/
def rowBytes (fmt : Nat) : Nat := if fmt ≤ 1 then 32 else if fmt = 2 then 24 else 16
/-- Bits of one stored weight. -/
def wBits (fmt : Nat) : Nat := if fmt ≤ 1 then 4 else if fmt = 2 then 3 else 2
/-- Twice the magnitude of an E2M1 code (R38). -/
def e2m1 (m : Nat) : Int :=
  if m = 0 then 0 else if m = 1 then 1 else if m = 2 then 2 else if m = 3 then 3 else if m = 4 then 4
  else if m = 5 then 6 else if m = 6 then 8 else 12
/-- The decoded weight integer of a stored code (R38). -/
def decodeW (fmt code : Nat) : Int :=
  if fmt = 1 then (if bit code 3 then -(e2m1 (code % 8)) else e2m1 (code % 8)) else signedAt (wBits fmt) code
/-- The decoded weights of one row, column 0 first (R39: little-endian bit string). -/
def rowWeights (fmt : Nat) (row : List Byte) : List Int :=
  let v := leNat row
  (List.range 64).map fun c => decodeW fmt (v / 2 ^ (wBits fmt * c) % 2 ^ wBits fmt)
/-- Bytes of the weights section of a tile. -/
def weightsLen (t : Nat) : Nat := tdBlocks t * 64 * rowBytes (tdFmt t)
/-- Bytes of a whole tile image (R41). -/
def imageLen (t : Nat) : Nat := weightsLen t + tdBlocks t * 320
/-- Address of a tile's weights in its engine's lining (R35). -/
def liningAt (t tile : Nat) : Nat := (if tile < 256 then 0 else 20971520) + 512 * tdBase t
/-- The tile image that an engine's lining and metadata slot hold. -/
def EngState.image (e : EngState) (tile : Nat) : List Byte :=
  let t := e.td tile
  memRead e.lining (liningAt t tile) (weightsLen t) ++ memRead e.md (20480 * tile) (tdBlocks t * 320)
/-- Program a tile from an image: weights, scales and check values; its metadata words are whole again. -/
def EngState.program (e : EngState) (tile : Nat) (img : List Byte) : EngState :=
  let t := e.td tile
  { e with
    lining := memWrite e.lining (liningAt t tile) (slice img 0 (weightsLen t))
    md := memWrite e.md (20480 * tile) (slice img (weightsLen t) (tdBlocks t * 320))
    mdErr := e.mdErr.filter fun p => p.1 / 2560 != tile }
/-- Weights of row r of an image. -/
def imgRow (t : Nat) (img : List Byte) (r : Nat) : List Int :=
  rowWeights (tdFmt t) (slice img (r * rowBytes (tdFmt t)) (rowBytes (tdFmt t)))
/-- Weight scale of column c in block k of an image. -/
def imgScale (t : Nat) (img : List Byte) (k c : Nat) : Nat := byteOf img (weightsLen t + 64 * k + c)
/-- Check value C0 (i = 0) or C1 (i = 1) of row r of an image. -/
def imgCheck (t : Nat) (img : List Byte) (r i : Nat) : Nat :=
  leAt img (weightsLen t + 64 * tdBlocks t + 4 * r + 2 * i) 2

/-- Sum of a list of integers. -/
def isum (l : List Int) : Int := l.foldl (· + ·) 0
/-- Σ l(i) × m(i). -/
def dot (l m : List Int) : Int := isum (List.zipWith (· * ·) l m)
/-- Σ (c + 1) × l(c). -/
def wsum (l : List Int) : Int := dot l ((List.range l.length).map fun (c : Nat) => (c : Int) + 1)

/-! ## Event records (R51, R55) -/

/-- An engine event record (R55). -/
structure EvRec where
  kind : Nat
  engine : Nat
  owner : Nat
  layer : Nat
  tile : Nat
  block : Nat := 0
  column : Option Nat := none
  passSeq : Nat
  detail : Int := 0
  syn1 : Nat := 0
  ew : Nat := 0
  ea : Nat := 0
deriving DecidableEq, Repr

/-- The 128 bits of an event record. -/
def EvRec.word (r : EvRec) : Nat :=
  pack [(r.kind, 0), (r.engine, 4), (r.owner, 8), (r.layer, 12), (r.tile, 24), (r.block, 33),
    (r.column.getD 0, 39), (b2n r.column.isSome, 45), (r.passSeq % 2 ^ 16, 48), (unsignedAt 16 r.detail, 64),
    (r.syn1, 80), (r.ew, 96), (r.ea, 104)]

/-- Queue an event record; a full queue counts it in `evt_lost`, which saturates (R51, R53). -/
def EngState.pushEv (e : EngState) (r : EvRec) : EngState :=
  if e.evq.length < 16 then { e with evq := e.evq ++ [r.word] }
  else { e with stat := e.stat + (if bits e.stat 23 16 < 255 then 2 ^ 16 else 0) }

/-- Add to a counter of an engine that wraps at its width (R54). -/
def EngState.count (e : EngState) (i n : Nat) : EngState :=
  { e with ctr := mapMod (fun _ => 0) e.ctr i fun v => (v + n) % 2 ^ (if i = 4 ∨ i = 5 ∨ i = 6 then 32 else 64) }
/-- End the hold, if any, at `uptime` now; the time held is counted (R54, R64). -/
def EngState.release (x : EngState) (now : Nat) : EngState :=
  match x.held with
  | some h => { x with held := none }.count 7 (now - h.since)
  | none => x
/-- Value of a counter of an engine. -/
def EngState.counter (e : EngState) (i : Nat) : Nat := mapGet (fun _ => 0) e.ctr i
/-- Set sticky bits of ENG_STAT. -/
def EngState.flag (e : EngState) (b : Nat) : EngState := { e with stat := e.stat ||| b }

/-- The column that the syndromes point at (R57). -/
def badColumn (s0 s1 : Nat) : Option Nat :=
  if s0 % 2 = 0 then none
  else (List.range 64).find? fun c => (c + 1) * s0 % 65536 == s1

/-- ENG_STAT as it reads (R53). -/
def Core.engStat (k : Core) (e : Nat) : Nat :=
  let x := k.engOf e
  let re := x.repairs.any fun r => r.step == .reprogram
  x.stat + 16 * b2n x.held.isSome + 32 * b2n re + 256 * x.copies.length +
    4096 * (match x.copies with
      | c :: _ => c.owner
      | [] => 0)

/-! ## One pass (R43-R51, R56-R60) -/

/-- What a pass works on. -/
structure PassCfg where
  td : Nat
  img : List Byte
  tile : Nat
  ectl : Word
  /-- element integers, in order -/
  xs : List Int
  /-- activation scales -/
  scales : List Byte
  /-- physical engine in event records, and the owner -/
  engine : Nat
  owner : Nat
  /-- bits [15:0] of `passes` -/
  seq : Nat
  /-- blocks with an uncorrectable metadata word, and blocks with a corrected one (R58); a corrected one gives its record
alone, since the spec names no counter for it (log entry 66) -/
  mdBad : List Nat
  mdFix : List Nat
deriving DecidableEq, Repr

/-- The running state of a pass. -/
structure PassRun where
  bolts : Map Bolt
  /-- `windows`, `busy_cycles`, `nonzero_rows`, `excursions`, `overflows`, `mismatches` so far -/
  windows : Nat := 0
  busy : Nat := 0
  nonzero : Nat := 0
  exc : Nat := 0
  ovf : Nat := 0
  mis : Nat := 0
  /-- sticky bits of ENG_STAT -/
  stat : Nat := 0
  /-- records queued, in order -/
  evs : List EvRec := []
  /-- kinds recorded -/
  seen : List Nat
  heldAt : Option Nat := none
deriving DecidableEq, Repr

/-- Record an event unless its kind was recorded in this pass (R51). -/
def PassRun.event (a : PassRun) (r : EvRec) : PassRun :=
  if r.kind ∈ a.seen then a else { a with evs := a.evs ++ [r], seen := r.kind :: a.seen }

/-- A blank record of the pass. Its layer is that of the ECTL value captured when the pass was queued, under which the
pass runs (R52; log entry 66). -/
def PassCfg.ev (f : PassCfg) (kind block : Nat) : EvRec :=
  { kind := kind, engine := f.engine, owner := f.owner, layer := bits f.ectl.toNat 23 12, tile := f.tile,
    block := block, passSeq := f.seq }

/-- Element integers of block k. -/
def PassCfg.block (f : PassCfg) (k : Nat) : List Int := (f.xs.drop (64 * k)).take 64

/-- Non-zero elements of a list. -/
def nnz (l : List Int) : Nat := (l.filter fun x => x != 0).length

/-- Window base B (R47). -/
def wbaseOf (ectl : Word) : Int := signedAt 11 (bits ectl.toNat 10 0)

/-- Commit one block-column into its bolt (R49 `commit`). -/
def PassCfg.commit (f : PassCfg) (k : Nat) (a : PassRun) (c : Nat) (p : Int) : PassRun :=
  let ew := imgScale f.td f.img k c
  let ea := byteOf f.scales k
  let d : Int := if tdFmt f.td = 1 then 1 else 0
  let sh : Int := (ew : Int) + ea - 254 - d - wbaseOf f.ectl
  let b := mapGet (fun _ => {}) a.bolts c
  let put := fun x : Bolt => mapSet (fun _ => {}) a.bolts c x
  let excursion := fun dt : Int =>
    ({ a with bolts := put { b with exc := true }, exc := a.exc + 1, stat := a.stat ||| 1 }).event
      { f.ev 1 k with column := some c, detail := dt, ew := ew, ea := ea }
  if ew = 0xFF ∨ ea = 0xFF then excursion 0
  else if sh < 0 ∨ 44 < sh then excursion sh
  else if b.ovf then a
  else
    let sum : Int := b.value.toInt + p * (2 ^ sh.toNat : Nat)
    if sum < -(2 ^ 63) ∨ 2 ^ 63 - 1 < sum then
      ({ a with bolts := put { b with ovf := true }, ovf := a.ovf + 1, stat := a.stat ||| 2 }).event
        { f.ev 2 k with column := some c, detail := sh, ew := ew, ea := ea }
    else { a with bolts := put { b with value := BitVec.ofInt 64 sum } }

/-- Commit the block products of block k, column by column. -/
def PassCfg.commitAll (f : PassCfg) (k : Nat) : PassRun → Nat → List Int → PassRun
  | a, _, [] => a
  | a, c, p :: ps => f.commitAll k (f.commit k a c p) (c + 1) ps

/-- One block: its product sums, its check, and the commit or the hold (R49, R56, R58). A record holds the scales of
what it names (log entry 66). -/
def PassCfg.runBlock (f : PassCfg) (a : PassRun) (k : Nat) : PassRun :=
  if a.heldAt.isSome then a
  else
    let x := f.block k
    let rows := (List.range 64).map fun r => imgRow f.td f.img (64 * k + r)
    let p := (List.range 64).map fun c => dot x (rows.map fun w => w.getD c 0)
    let chk := fun i => (List.range 64).map fun r => ((imgCheck f.td f.img (64 * k + r) i : Nat) : Int)
    let s0 := unsignedAt 16 (isum p - dot x (chk 0))
    let s1 := unsignedAt 16 (wsum p - dot x (chk 1))
    let ea := byteOf f.scales k
    let a := if k ∈ f.mdFix then a.event { f.ev 6 k with ea := ea } else a
    let bad := decide (k ∈ f.mdBad)
    if s0 ≠ 0 ∨ s1 ≠ 0 ∨ bad then
      let a := if bad then ({ a with stat := a.stat ||| 8 }).event { f.ev 7 k with ea := ea } else a
      let col := badColumn s0 s1
      ({ a with heldAt := some k, mis := a.mis + 1, stat := a.stat ||| 4 }).event
        { f.ev 3 k with column := col, detail := s0, syn1 := s1, ew := (col.map (imgScale f.td f.img k)).getD 0, ea := ea }
    else if nnz x = 0 then a
    else f.commitAll k a 0 p

/-- One window: its cycles are counted, then its blocks run in order (R43, R54). -/
def PassCfg.runWindow (f : PassCfg) (a : PassRun) (w : List Nat) : PassRun :=
  if a.heldAt.isSome then a
  else
    let n := (w.map fun k => nnz (f.block k)).foldl (· + ·) 0
    let rate := if bit f.ectl.toNat 11 then 32 else 16
    w.foldl f.runBlock
      { a with windows := a.windows + 1, busy := a.busy + max 1 (ceilDiv n rate), nonzero := a.nonzero + n }

/-- The windows of a pass of n blocks from block k on (R43, R60): at A4 an odd block, or a last single one, is a window
of its own. -/
def windowsFrom (a4 : Bool) (n : Nat) : Nat → Nat → List (List Nat)
  | 0, _ => []
  | fuel + 1, k =>
    if n ≤ k then []
    else if a4 && k % 2 == 0 && decide (k + 1 < n) then [k, k + 1] :: windowsFrom a4 n fuel (k + 2)
    else [k] :: windowsFrom a4 n fuel (k + 1)

/-- Element integers of a pass of n blocks from the bytes of its array (R42). -/
def elements (a4 : Bool) (n : Nat) (bs : List Byte) : List Int :=
  if a4 then (List.range (64 * n)).map fun i => signedAt 4 (byteOf bs (i / 2) / (if i % 2 = 0 then 1 else 16))
  else (List.range (64 * n)).map fun i => signedAt 8 (byteOf bs i)

/-- Blocks, of a tile of n row blocks, whose metadata words carry an ECC error of a kind (R41, R58); the words are
numbered within the tile's slot. -/
def mdBlocksOf (n kind : Nat) (err : Map Nat) : List Nat :=
  err.filterMap fun p => if p.2 = kind then some (if p.1 < 8 * n then p.1 / 8 else (p.1 - 8 * n) / 32) else none

/-- The metadata errors of a tile's own slot, by word of the slot. -/
def EngState.slotErr (e : EngState) (tile : Nat) : Map Nat :=
  e.mdErr.filterMap fun p => if p.1 / 2560 = tile then some (p.1 % 2560, p.2) else none

end Sys2Proof.Machine
end

