-- ==== Sys2Proof/Machine/Engine.lean ====
section
/-! DEFINITION. The engine instructions MMV, BFLUSH, BZERO, CSUM and ECTLW (R172, R195-R200). -/

namespace Sys2Proof.Machine

/-- Positions named by an `emask`, ascending. -/
def positions (m : BitVec 8) : List Nat := (List.range 8).filter fun p => m.getLsbD p

/-- The tile descriptor at an engine position (R123). -/
def Core.tdAt (k : Core) (p tile : Nat) : Nat := (k.engOf (k.engineAt p)).td tile

/-- Every named position has a free command-queue entry (R45). -/
def Core.cmdRoom (k : Core) (m : BitVec 8) : Bool :=
  (positions m).all fun p => decide ((k.posOf p).cmdq.length < 8)

/-- Append an entry to a position's command queue. -/
def Core.enqueue (k : Core) (p : Nat) (e : ECmd) : Core :=
  k.setPos p { k.posOf p with cmdq := (k.posOf p).cmdq ++ [e] }

/-- The form of an element or scale address of MMV: narrow, `bcast` 0, 64-byte aligned (R106, R195). -/
def mmvForm (x : Nat) : Bool := isNarrow x && !bit x 22 && x % 64 == 0

/-- Bytes of the element array of a pass at a position. -/
def mmvLen (ectl : Word) (n : Nat) : Nat := if bit ectl.toNat 11 then 32 * n else 64 * n

/-- Some address check of MMV fails at a position: the form, or R108 for a descriptor that is valid. -/
def Core.mmvAddrBad (k : Core) (tile ea es p : Nat) : Bool :=
  let t := k.tdAt p tile
  !mmvForm ea || !mmvForm es ||
    (tdValid t && (!k.narrowOk (bits ea 18 0) (mmvLen (k.posOf p).ectl (tdBlocks t)) ||
      !k.narrowOk (bits es 18 0) (tdBlocks t)))

/-- Queue one pass at position p, its scale bytes read through NF now (R105, R195). -/
def queuePass (c tile ea es : Nat) (s : State) (p : Nat) : State :=
  let k := s.core c
  let n := tdBlocks (k.tdAt p tile)
  let at_ := k.narrowAt p (bits es 18 0)
  let bad := k.poisoned at_ n
  let s := s.setCore c ((k.readFix at_ n).enqueue p (.pass ⟨tile, 4096 * k.nbase + bits ea 18 0, k.bytesAt at_ n,
    !bad.isEmpty, (k.posOf p).ectl, k.pc⟩))
  (s.noteUncorr c 1 bad).fcSelect c (k.engineAt p) tile (bits (k.posOf p).ectl.toNat 23 12)

/-- The scale reads of MMV for the hazard detector. -/
def mmvAccess (k : Core) (f : EngF) : List Access :=
  (positions f.emask).map fun p =>
    ⟨1, false, k.narrowAt p (bits (k.areg f.rb.toNat) 18 0), tdBlocks (k.tdAt p f.tile.toNat)⟩

/-- MMV (R195, R196): queue one pass of the tile at every named position, after every check. -/
def execMmv (c : CoreId) (g : Guard) (f : EngF) (s : State) : Out :=
  issueOut s c g 0x40 (f.queue == 0#3 && f.imm24 == 0#24) false (mmvAccess (s.core c) f) fun k =>
    let ea := k.areg f.ra.toNat
    let es := k.areg f.rb.toNat
    let ps := positions f.emask
    if ps.any fun p => k.mmvAddrBad f.tile.toNat ea es p then .addr (if mmvForm ea then es else ea)
    else if ps = [] ∨ ps.any (fun p => !tdValid (k.tdAt p f.tile.toNat)) then .fail 4
    else if !k.cmdRoom f.emask then .wait s
    else .done (s.each ps (queuePass c f.tile.toNat ea es))

/-- Reserve one entry per named position and queue a command that posts it. -/
def queuePosts (k : Core) (q : Nat) (kind : QKind) (cmd : Nat → ECmd) : List Nat → Core
  | [] => k
  | p :: ps => queuePosts ((k.reserve q kind).enqueue p (cmd k.nextId)) q kind cmd ps

/-- BFLUSH (R197): one reservation and one command-queue entry per named position. -/
def execBflush (c : CoreId) (g : Guard) (f : EngF) (s : State) : Out :=
  issueOut s c g 0x41 (f.tile == 0#9 && f.ra == 0#4 && f.rb == 0#4 && f.imm24 == 0#24) false [] fun k =>
    let ps := positions f.emask
    if ps = [] then .fail 4
    else if !k.roomFor f.queue.toNat ps.length then .trap { code := 6, queue := f.queue.toNat }
    else if !k.cmdRoom f.emask then .wait s
    else .done (s.setCore c (queuePosts k f.queue.toNat (.bolts none) (fun id => .bflush f.queue.toNat id) ps))

/-- BZERO (R198): one command-queue entry per named position. -/
def execBzero (c : CoreId) (g : Guard) (f : EngF) (s : State) : Out :=
  issueOut s c g 0x42 (f.tile == 0#9 && f.ra == 0#4 && f.rb == 0#4 && f.queue == 0#3 && f.imm24 == 0#24) false []
    fun k =>
    let ps := positions f.emask
    if ps = [] then .fail 4
    else if !k.cmdRoom f.emask then .wait s
    else .done (s.setCore c (ps.foldl (fun k p => k.enqueue p .bzero) k))

/-- CSUM (R199): one check read and one completion per named position, the descriptor checked as MMV does. -/
def execCsum (c : CoreId) (g : Guard) (f : EngF) (s : State) : Out :=
  issueOut s c g 0x43 (f.ra == 0#4 && f.rb == 0#4 && f.imm24 == 0#24) false [] fun k =>
    let ps := positions f.emask
    if ps = [] ∨ ps.any (fun p => !tdValid (k.tdAt p f.tile.toNat)) then .fail 4
    else if !k.roomFor f.queue.toNat ps.length then .trap { code := 6, queue := f.queue.toNat }
    else if !k.cmdRoom f.emask then .wait s
    else .done (s.setCore c
      (queuePosts k f.queue.toNat (.word none) (fun id => .csum f.tile.toNat f.queue.toNat id) ps))

/-- ECTLW (R200): write ECTL [23:0] of every named position; never stalls. -/
def execEctlw (c : CoreId) (g : Guard) (f : EngF) (s : State) : Out :=
  issueOut s c g 0x44 (f.tile == 0#9 && f.ra == 0#4 && f.rb == 0#4 && f.queue == 0#3) false [] fun k =>
    let ps := positions f.emask
    if ps = [] then .fail 4
    else .done (s.setCore c (ps.foldl
      (fun k p => k.setPos p { k.posOf p with ectl := BitVec.ofNat 32 f.imm24.toNat }) k))

end Sys2Proof.Machine
end

