-- ==== Sys2Proof/Machine/Routes.lean ====
section
/-! DEFINITION. The ways of the fabric: which links have failed (R148, R157), the next hop of a packet (R130, R150), and
whether a path between two routers is whole (R148, R151). -/

namespace Sys2Proof.Machine

/-- `link_map` of link l: 0 good, 1 failed, 2 failed and bypassed by a darn set (R157; log entry 28). -/
def State.linkByte (s : State) (l : Nat) : Nat := byteAt (s.blob K.linkMap) l
where byteAt (b : List Byte) (i : Nat) : Nat := (b.getD i 0).toNat

/-- Set `link_map` of link l. -/
def State.setLinkByte (s : State) (l v : Nat) : State := s.blobPut K.linkMap l [BitVec.ofNat 8 v]

/-- The first valid darn entry that covers a destination and a channel (R150). -/
def Router.darnFor (x : Router) (dx dy vc : Nat) : Option Nat :=
  ((List.range 16).map fun i => mapGet (fun _ => 0) x.darn i).find? fun e =>
    bit e 31 && decide (bits e 5 0 ≤ dx) && decide (dx ≤ bits e 11 6) && decide (bits e 16 12 ≤ dy) &&
      decide (dy ≤ bits e 21 17) && bit e (24 + vc)

/-- Dimension order from router r to (dx, dy): x first, or y first in the detour class (R130, R150). -/
def dimNext (r dx dy : Nat) (detour : Bool) : Nat :=
  let px := if xOf r < dx then 1 else 3
  let py := if yOf r < dy then 0 else 2
  if detour then (if yOf r ≠ dy then py else px) else (if xOf r ≠ dx then px else py)

/-- The next hop of a unicast packet: output port, and whether the packet is now detoured (R130, R150). -/
def State.hop (s : State) (r dx dy vc : Nat) (detour : Bool) : Nat × Bool :=
  match (s.router r).darnFor dx dy vc with
  | some e => (bits e 23 22, true)
  | none => (dimNext r dx dy detour, detour)

/-- Every link on the way of a channel's packet from router r to router dst is good, and so is router dst (R148, R151). -/
def State.pathOk (s : State) (dst vc : Nat) : Nat → Nat → Bool → Bool
  | 0, _, _ => false
  | fuel + 1, r, detour =>
    if r = dst then !(s.router r).failed
    else
      let h := s.hop r (xOf dst) (yOf dst) vc detour
      match stepTo r h.1, linkAt r h.1 with
      | some d, some l => s.linkByte l == 0 && State.pathOk s dst vc fuel d h.2
      | _, _ => false

/-- A request from router a to router b and its answer both find their way (R148). -/
def State.joinedBy (s : State) (vc a b : Nat) : Bool :=
  !(s.router a).failed && s.pathOk b vc 140 a false && s.pathOk a vc 140 b false

/-- The port of router r that leads to an adjacent router. -/
def portToward (r d : Nat) : Option Nat := (List.range 4).find? fun q => stepTo r q == some d

/-- The neighbour link of a core to an adjacent core, either way, has given up (R146, R148, R155). -/
def State.nbrDead (s : State) (c d : Nat) : Bool :=
  match (portToward c d).bind (linkAt c) with
  | some l => (s.link (4660 + 2 * l)).dead || (s.link (4660 + 2 * l + 1)).dead
  | none => false

end Sys2Proof.Machine
end

