-- ==== Sys2Proof/Machine/Movement.lean ====
section
/-! DEFINITION. The movement instructions QPUSH to RSEND (R174, R213-R219), with the validation of DMA and page-walk
descriptors (R120, R268), the arrival counters (R215) and the packets that leave a core (R131, R132). -/

namespace Sys2Proof.Machine

/-! ## Packets that leave a core -/

/-- A packet from core c with its source fields (R19, R131). -/
def State.packetFrom (s : State) (c kind vc : Nat) : Packet :=
  let k := s.core c
  { kind := kind, vc := vc, inst := k.logInst, srcX := xOf c, srcY := yOf c, srcPanel := k.panel,
    srcLogical := k.logical }

/-- Hand a packet to router r at an input port. -/
def State.inject (s : State) (r port : Nat) (p : Packet) : State :=
  s.modRouter r fun x => { x with inq := x.inq ++ [(port, p)] }

/-- The L port of a router. -/
def portL : Nat := 4

/-- Address a packet to a data address; the source router fills the physical place (R132). -/
def State.addressed (s : State) (c : Nat) (p : Packet) (panel logical : Nat) : Option Packet :=
  (s.translate c panel logical).map fun d =>
    { p with dstX := xOf d, dstY := yOf d, dstPanel := panel, dstLogical := logical }

/-! ## Arrival counters (R215) -/

/-- Satisfy the oldest waiting entry of a pair while enough packets are counted. -/
def settleArrival (k : Core) (a : Arrival) : Nat → Core × Arrival
  | 0 => (k, a)
  | fuel + 1 =>
    match a.waits with
    | [] => (k, a)
    | w :: ws =>
      if w.count ≤ a.pkts.length then
        let got := a.pkts.take w.count
        let st := (got.map (·.2)).foldl max 0
        settleArrival (k.postWord w.q w.id (complWord a.tag st 4 (got.any (·.1)) w.count))
          { a with pkts := a.pkts.drop w.count, waits := ws } fuel
      else (k, a)

/-- Put a changed counter back; a counter with no count and no waiting entry is freed. -/
def Core.putArrival (k : Core) (a : Arrival) : Core :=
  let (k, a) := settleArrival k a a.waits.length
  let rest := k.arrivals.filter fun b => !(b.group == a.group && b.tag == a.tag)
  { k with arrivals := if a.pkts.isEmpty && a.waits.isEmpty then rest else rest ++ [a] }

/-- The counter of a pair; a new one when fewer than 32 are in use. -/
def Core.arrivalFor (k : Core) (group tag : Nat) : Option Arrival :=
  match k.arrivals.find? fun a => a.group == group && a.tag == tag with
  | some a => some a
  | none => if k.arrivals.length < 32 then some ⟨group, tag, [], []⟩ else none

/-- Count a delivered packet of a pair; none when all 32 counters are in use. -/
def Core.countArrival (k : Core) (group tag : Nat) (taint : Bool) (status : Nat) : Option Core :=
  (k.arrivalFor group tag).map fun a => k.putArrival { a with pkts := a.pkts ++ [(taint, status)] }

/-! ## Descriptors (R119, R120, R266, R268) -/

/-- What validation finds: accepted with the local ranges (physical address, bytes), an address trap, or a refusal with
its status. -/
inductive DCheck where
  | ok (ranges : List (Nat × Nat))
  | addr (a : Nat)
  | refused (status : Nat)
deriving DecidableEq, Repr

/-- Local ranges of n bytes at a 64-bit relative address field. -/
def Core.localRange (k : Core) (a n : Nat) (write : Bool) : Option (List (Nat × Nat)) :=
  if 2 ^ 32 ≤ a then none else (k.either a n write).map fun l => l.map fun p => (p, n)

/-- An HBM-space address in the seam aperture of a cascaded instance (R483). -/
def State.aperture (s : State) (i a : Nat) : Bool := s.cascaded i && bits a 63 60 == 8

/-- Whether a range outside the core lies inside what the instance may name (R120 step 3). -/
def State.outsideOk (s : State) (i space a n : Nat) : Bool :=
  if space = 1 then s.aperture i a || decide (a + n ≤ s.hbmSize i)
  else if space = 2 then (s.devRef a n (dmaWindow i)).isSome
  else if space = 3 then decide (bits a 63 60 ∈ (s.inst i).panels)
  else true

/-- Validate a QPUSH descriptor (R120, R483), in the order of R120. -/
def State.descCheck (s : State) (k : Core) (w0 src dst w3 : Nat) : DCheck :=
  let i := k.logInst
  let op := bits w0 3 0
  let ss := bits w0 5 4
  let ds := bits w0 7 6
  let len := bits w0 55 32
  let apSrc := decide (op = 0) && ss == 1 && s.aperture i src
  let apDst := ds == 1 && s.aperture i dst
  if 1 < op ∨ bits w0 15 12 ≠ 0 ∨ bits w0 63 56 ≠ 0 ∨ w3 ≠ 0 ∨ len = 0 ∨ len % 64 ≠ 0 ∨ 16777152 < len then .refused 6
  else if apSrc ∨ (apDst ∧ (op ≠ 0 ∨ ss ≠ 0 ∨ 65536 < len ∨ bits dst 33 24 ≠ 0)) then .refused 6
  else
    let rs := if op = 0 ∧ ss = 0 then k.localRange src len false else some []
    let rd := if ds = 0 then k.localRange dst len true else some []
    match rs, rd with
    | none, _ => .addr src
    | _, none => .addr dst
    | some a, some b =>
      if (op = 0 ∧ !s.outsideOk i ss src len) ∨ !s.outsideOk i ds dst len then .refused 1 else .ok (a ++ b)

/-- Bytes of one segment of a page walk, in all. -/
def walkBytes (count len : Nat) : Nat := count * 32 * len

/-- Validate a PWALK descriptor (R266, R268), in the order of R120. -/
def State.walkCheck (s : State) (k : Core) (w0 w1 w2 w3 : Nat) : DCheck :=
  let i := k.logInst
  let cin := bits w0 63 56
  let cout := bits w2 63 48
  let l0 := bits w3 45 35
  let l1 := bits w3 63 57
  let o0 := bits w3 34 24
  let o1 := bits w3 56 46
  let d0 := bits w1 31 0
  let d1 := bits w1 63 32
  let list := bits w2 39 0
  let n := cin * cout
  let last := bits w0 55 32 + (cout - 1) * bits w3 23 0 + (cin - 1) * bits w2 47 40
  if bits w0 3 0 ≠ 2 ∨ bits w0 5 4 ≠ 1 ∨ bits w0 7 6 ≠ 0 ∨ bits w0 15 12 ≠ 0 ∨ cin = 0 ∨ cout = 0 ∨ l0 = 0 ∨
      2048 < o0 + l0 ∨ (0 < l1 ∧ 2048 < o1 + l1) ∨ 16777152 < n * (l0 + l1) * 32 ∨ d0 % 32 ≠ 0 ∨
      (0 < l1 ∧ d1 % 32 ≠ 0) ∨ list % 4 ≠ 0 then .refused 6
  else
    match k.localRange d0 (walkBytes n l0) true, (if l1 = 0 then some [] else k.localRange d1 (walkBytes n l1) true) with
    | none, _ => .addr d0
    | _, none => .addr d1
    | some a, some b => if list + 4 * last + 4 ≤ s.hbmSize i then .ok (a ++ b) else .refused 1

/-- Unused fields of a movement instruction are zero (R187); the flags say which fields it uses, in format order:
`qa`, `qb`, `ra`, `rb`, `rx`, `group`, `dir`, `half`, `tol`, `ry`, `imm16`. -/
def movOk (f : MovF) (use : List Bool) : Bool :=
  let u := fun i => use.getD i false
  (u 0 || f.qa == 0#3) && (u 1 || f.qb == 0#3) && (u 2 || f.ra == 0#4) && (u 3 || f.rb == 0#4) &&
  (u 4 || f.rx == 0#6) && (u 5 || f.group == 0#6) && (u 6 || f.dir == 0#2) && (u 7 || f.half == 0#1) &&
  (u 8 || f.tol == 0#1) && (u 9 || f.ry == 0#6) && (u 10 || f.imm16 == 0#16)

/-- Words of a descriptor read from the scratchpad. -/
def descWord (bs : List Byte) (i : Nat) : Nat := leAt bs (8 * i) 8

/-- The descriptor at the head of a channel. -/
def Core.dmaHead (k : Core) (ch : Nat) : Option DDesc := (mapGet (fun _ => []) k.dma ch).head?

/-- An `ordered` descriptor waits until every earlier descriptor of all channels has completed (R118). -/
def Core.dmaTurn (k : Core) (d : DDesc) : Bool :=
  !d.ordered || k.dma.all fun x => x.2.all fun e => decide (d.order ≤ e.order)

/-- The first channel at whose head a refused descriptor's turn has come. -/
def Core.dmaRefusedAt (k : Core) : Option (Nat × DDesc) :=
  (List.range 8).findSome? fun ch => match k.dmaHead ch with
    | some d => if d.refused != 0 && k.dmaTurn d then some (ch, d) else none
    | none => none

/-- Take the head off a channel and post its completion. -/
def Core.dmaDrop (k : Core) (ch : Nat) (d : DDesc) (status source bytes : Nat) : Core :=
  { k with dma := mapMod (fun _ => []) k.dma ch fun l => l.drop 1 }.postWord d.q d.id
    (complWord d.tag status source false bytes)

/-- Refused descriptors whose turn has come complete with their status and move nothing (R118, R120); `fuel` bounds
them. -/
def Core.dmaRefusals : Nat → Core → Core
  | 0, k => k
  | fuel + 1, k =>
    match k.dmaRefusedAt with
    | none => k
    | some (ch, d) => Core.dmaRefusals fuel (k.dmaDrop ch d d.refused (b2n !d.walk.isEmpty) 0)

/-- The descriptor at the head of a channel ends: its completion is posted, then those of refused descriptors that
waited for it. -/
def State.dmaEnd (s : State) (c ch : Nat) (d : DDesc) (status source bytes : Nat) : State :=
  s.modCore c fun k => Core.dmaRefusals (k.dma.map fun x => x.2.length).sum (k.dmaDrop ch d status source bytes)

/-- The effect of QPUSH and PWALK on an accepted or refused descriptor (R118, R120): a refused one completes at once
where nothing is ahead of it, else in its place. -/
def pushDesc (s : State) (c : Nat) (k : Core) (walk : Bool) (ch : Nat) (bs : List Byte) : Res :=
  let w0 := descWord bs 0
  let w1 := descWord bs 1
  let w2 := descWord bs 2
  let w3 := descWord bs 3
  let q := bits w0 10 8
  let tag := bits w0 31 16
  let l := mapGet (fun _ => []) k.dma ch
  let k1 := k.reserve q (.word none)
  let push := fun (d : DDesc) (ranges : List (Nat × Nat)) =>
    Res.done (s.setCore c { k1 with
      dma := mapSet (fun _ => []) k1.dma ch (l ++ [d])
      dmaOrder := k1.dmaOrder + 1
      hzRanges := k1.hzRanges ++ ranges.map fun r => ⟨q, k.nextId, r.1, r.2, k.pc⟩ })
  let d : DDesc :=
    { order := k.dmaOrder, op := bits w0 3 0, srcSpace := bits w0 5 4, dstSpace := bits w0 7 6,
      ordered := bit w0 11, tag := tag, length := if walk then 0 else bits w0 55 32, src := w1, dst := w2,
      q := q, id := k.nextId, walk := if walk then [w0, w1, w2, w3] else [] }
  match (if walk then s.walkCheck k w0 w1 w2 w3 else s.descCheck k w0 w1 w2 w3) with
  | .addr a => .addr a
  | .refused st =>
    if !k.roomFor q 1 then .trap { code := 6, queue := q }
    else if l.isEmpty && k.dmaTurn d then
      .done (s.setCore c (k1.postWord q k.nextId (complWord tag st (b2n walk) false 0)))
    else if 16 ≤ l.length then .wait s
    else push { d with op := 4, srcSpace := 0, dstSpace := 0, length := 0, refused := st } []
  | .ok ranges =>
    if !k.roomFor q 1 then .trap { code := 6, queue := q }
    else if 16 ≤ l.length then .wait s
    else push d ranges

/-- QPUSH and PWALK read their 32-byte descriptor through SQ (R213). -/
def pushBody (s : State) (c : Nat) (f : MovF) (walk : Bool) (k : Core) : Res :=
  let a := k.areg f.ra.toNat
  match (if a % 32 = 0 then k.wide a 32 else none) with
  | none => .addr a
  | some p =>
    match k.poisoned p 32 with
    | [] => pushDesc (s.fixRead c p 32) c (k.readFix p 32) walk f.qb.toNat (k.bytesAt p 32)
    | bad => .trapIn ((s.fixRead c p 32).noteUncorr c 4 bad) { code := 7, addr := a % 2 ^ 24 }

/-- The descriptor read of QPUSH and PWALK for the hazard detector. -/
def pushAccess (k : Core) (f : MovF) : List Access :=
  match k.wide (k.areg f.ra.toNat) 32 with
  | some p => [⟨4, false, p, 32⟩]
  | none => []

/-- QPUSH (R213): validate and queue a DMA descriptor. -/
def execQpush (c : CoreId) (g : Guard) (f : MovF) (s : State) : Out :=
  issueOut s c g 0xA0 (movOk f [false, true, true]) false (pushAccess (s.core c) f) (pushBody s c f false)

/-- PWALK (R213): validate and queue a page-list walk descriptor. -/
def execPwalk (c : CoreId) (g : Guard) (f : MovF) (s : State) : Out :=
  issueOut s c g 0xA1 (movOk f [false, true, true]) false (pushAccess (s.core c) f) (pushBody s c f true)

/-! ## Waiting (R165, R166, R214) -/

/-- Pop the head of queue q and forget the hazard range of its entry. -/
def Core.popHead (k : Core) (q : Nat) : Core :=
  match k.queue q with
  | [] => k
  | e :: t => { k.setQueue q t with hzRanges := k.hzRanges.filter fun r => !(r.q == q && r.id == e.id) }

/-- Fields of a completion word. -/
def wStatus (w : Word64) : Nat := bits w.toNat 23 16
def wSource (w : Word64) : Nat := bits w.toNat 27 24
def wTag (w : Word64) : Nat := bits w.toNat 15 0
def wTaint (w : Word64) : Bool := bit w.toNat 28
def wBytes (w : Word64) : Nat := bits w.toNat 55 32

/-- QWAIT (R165, R166): wait for the head; a completion is popped into `rx` and `ry`, an arrival's taint goes into
ITAINT, a bolt set stays. -/
def execQwait (c : CoreId) (g : Guard) (f : MovF) (s : State) : Out :=
  issueOut s c g 0xA2
    (movOk f [true, false, false, false, true, false, false, false, true, true] && specOk f.rx.toNat && specOk f.ry.toNat)
    (!specWritable f.rx.toNat || !specWritable f.ry.toNat) [] fun k =>
    let q := f.qa.toNat
    match k.queue q with
    | [] => .trap { code := 6, queue := q }
    | e :: _ =>
      match e.kind with
      | .bolts none => .wait s
      | .word none => .wait s
      | .bolts (some _) => .done s
      | .word (some w) =>
        let k1 := k.popHead q
        if wStatus w ≠ 0 ∧ f.tol = 0#1 then
          .trapIn (s.setCore c k1) { code := 5, status := wStatus w, queue := q }
        else
          let k2 := (k1.writeReg f.rx.toNat (BitVec.ofNat 32 (w.toNat % 2 ^ 32))).writeReg f.ry.toNat
            (BitVec.ofNat 32 (wBytes w))
          .done (s.setCore c { k2 with itaint := k2.itaint || (wSource w == 4 && wTaint w) })

/-- QEXP (R215): reserve an arrival entry for a count of packets of a pair. -/
def execQexp (c : CoreId) (g : Guard) (f : MovF) (s : State) : Out :=
  issueOut s c g 0xA3
    (movOk f [true, false, false, false, true, true, false, false, false, false, true] && specOk f.rx.toNat) false []
    fun k =>
    let n := (s.readReg k f.rx.toNat).toNat
    let q := f.qa.toNat
    if n = 0 ∨ 2 ^ 24 - 1 < n then .fail 1
    else if !k.roomFor q 1 then .trap { code := 6, queue := q }
    else
      match k.arrivalFor f.group.toNat f.imm16.toNat with
      | none => .trap { code := 6, queue := q }
      | some a =>
        .done (s.setCore c ((k.reserve q (.word none)).putArrival { a with waits := a.waits ++ [⟨q, k.nextId, n⟩] }))

/-! ## Neighbours (R141, R216, R248) -/

/-- The neighbour that an NBIND word names: physical core, relayed. -/
def nbTarget (w : Nat) : Nat := idxOf (bits w 13 8) (bits w 18 14)

/-- R109 at the target: the packet's instance is the core's, and the wide range lies in its window; the physical
address. -/
def Core.remoteAt (t : Core) (inst a n : Nat) : Option Nat :=
  if inst = 15 ∨ t.logInst = inst then t.wide a n else none

/-- What a neighbour access of core c meets: the target core and the physical address of its 256 bytes, or the refusal's
status (R216). A relayed access is a VC2 request: a failed link on its way, or on its answer's, ends it with status 0x02
(R141, R148). It returns what a direct access would, and the model delivers both at once (log entry 17). -/
def State.neighbour (s : State) (c : Nat) (k : Core) (w a : Nat) : Except Nat (Nat × Nat) :=
  let t := nbTarget w
  let x := s.core t
  if bit w 1 && !s.joinedBy 2 c t then .error 2
  else if x.fenced then .error 3
  else if bit w 1 && !x.holds (bits w 22 19) (bits w 29 23) then .error 4
  else
    match x.remoteAt k.logInst a 256 with
    | some p => .ok (t, p)
    | none => .error 1

/-- The legal form of NGET and NPUT, and what they meet: an address trap, an unbound direction, a refusal on its way
back, or the target. -/
def nbrBody (s : State) (c : Nat) (op : Nat) (f : MovF) (k : Core) (go : Nat → Nat → Res) : Res :=
  let a := k.areg f.ra.toNat
  let w := mapGet (fun _ => 0) k.nbind f.dir.toNat
  if !isWide a || a % 256 != 0 then .addr a
  else if !bit w 0 then .fail 0xA
  else
    match s.neighbour c k w a with
    | .error st => .done (s.setCore c { k with nbrComing := k.nbrComing ++ [(st, k.pc, op)] })
    | .ok (t, p) => go t p

/-- NGET (R216): 256 bytes of the neighbour into half of `f[ry]`; a poisoned word sets its taint. Over a neighbour link that
has given up it returns poisoned data, whose value is free (R155, log entry 3). -/
def execNget (c : CoreId) (g : Guard) (f : MovF) (s : State) : Out :=
  issueOut s c g 0xA4 (movOk f [false, false, true, false, false, false, true, true, false, true]) false [] fun k =>
    nbrBody s c 0xA4 f k fun t p =>
      let x := s.core t
      let h := f.half.toNat
      let old := k.freg f.ry.toNat
      let put := fun bs : List Byte => leNat bs * 2 ^ (2048 * h) +
        (if h = 0 then old / 2 ^ 2048 * 2 ^ 2048 else old % 2 ^ 2048)
      if s.nbrDead c t then
        let w := s.freeBytes 256
        .done (w.1.setCore c (k.setF f.ry.toNat (put w.2) true))
      else
      let v := put (x.bytesAt p 256)
      let bad := x.poisoned p 256
      let s := ((s.fixRead t p 256).noteUncorr t 5 bad).portUse t none 0 [⟨5, false, p, 256⟩]
      .done (s.setCore c ((s.core c).setF f.ry.toNat v (k.ftaintOf f.ry.toNat || !bad.isEmpty)))

/-- NPUT (R216): half of `f[ry]` to the neighbour. Over a neighbour link that has given up nothing reaches it (R155, log
entry 17). -/
def execNput (c : CoreId) (g : Guard) (f : MovF) (s : State) : Out :=
  issueOut s c g 0xA5 (movOk f [false, false, true, false, false, false, true, true, false, true]) false [] fun k =>
    nbrBody s c 0xA5 f k fun t p =>
      .done (if s.nbrDead c t then s
        else (s.modCore t fun x => x.store p (leBytes 256 (k.freg f.ry.toNat / 2 ^ (2048 * f.half.toNat)))).portUse t none 0
          [⟨5, true, p, 256⟩])

/-! ## Far cores (R138, R217) -/

/-- The form of an RGET or RPUT address: wide and 64-byte aligned. -/
def farForm (a : Nat) : Bool := isWide a && a % 64 == 0

/-- The body of RGET and RPUT. -/
def farBody (s : State) (c : Nat) (f : MovF) (get : Bool) (k : Core) : Res :=
  let n := 64 * f.imm16.toNat
  let la := k.areg f.ra.toNat
  let ra := k.areg f.rb.toNat
  let q := f.qa.toNat
  let tag := f.imm16.toNat
  let da := (s.readReg k f.rx.toNat).toNat
  match (if farForm la && farForm ra then k.wide la n else none) with
  | none => .addr (if farForm la && farForm ra then la else if farForm la then ra else la)
  | some p =>
    if !k.roomFor q 1 then .trap { code := 6, queue := q }
    else
      let k1 := (if get then k else k.readFix p n).reserve q (.word none)
      let bad := if get then [] else k.poisoned p n
      let pk : Packet := { s.packetFrom c (if get then 1 else 0) 2 with
        queue := q, tag := tag, addr := ra % 2 ^ 24, length := n, rid := k.nextRid, poison := !bad.isEmpty,
        payload := if get then [] else k.bytesAt p n }
      match s.addressed c pk (bits da 10 7) (bits da 6 0) with
      | none => .done (s.setCore c (k1.postWord q k.nextId (complWord tag 4 2 false 0)))
      | some pk =>
        let s := s.setCore c { k1 with
          rqOut := k1.rqOut ++ [⟨k.nextRid, q, k.nextId, get, p, n, tag⟩]
          nextRid := k1.nextRid + 1
          hzRanges := k1.hzRanges ++ [⟨q, k.nextId, p, n, k.pc⟩] }
        .done ((s.noteUncorr c 7 bad).inject c portL pk)

/-- The encoding of RGET and RPUT is legal. -/
def farOk (f : MovF) : Bool :=
  movOk f [true, false, true, true, true, false, false, false, false, false, true] && specOk f.rx.toNat &&
    decide (1 ≤ f.imm16.toNat) && decide (f.imm16.toNat ≤ 4)

/-- The local read of an RPUT for the hazard detector. -/
def farAccess (k : Core) (f : MovF) : List Access :=
  match k.wide (k.areg f.ra.toNat) (64 * f.imm16.toNat) with
  | some p => [⟨7, false, p, 64 * f.imm16.toNat⟩]
  | none => []

/-- RGET (R217): far-core read on VC2. -/
def execRget (c : CoreId) (g : Guard) (f : MovF) (s : State) : Out :=
  issueOut s c g 0xA6 (farOk f) false [] (farBody s c f true)

/-- RPUT (R217): far-core write on VC2. -/
def execRput (c : CoreId) (g : Guard) (f : MovF) (s : State) : Out :=
  issueOut s c g 0xA7 (farOk f) false (farAccess (s.core c) f) (farBody s c f false)

/-! ## Multicast and reduction (R218, R219) -/

/-- The source of an MCAST: its address without `bcast`, which is the targets' alone. -/
def mcastFrom (k : Core) (f : MovF) : Option (List Nat) :=
  let a := k.areg f.ra.toNat
  k.either (if bit a 23 then a else a - b2n (bit a 22) * 2 ^ 22) (128 * f.imm16.toNat) false

/-- The read of an MCAST for the hazard detector. -/
def mcastAccess (k : Core) (f : MovF) : List Access :=
  ((mcastFrom k f).getD []).map fun p => ⟨dataPort p, false, p, 128 * f.imm16.toNat⟩

/-- MCAST (R218): a vector along tree `group`, in packets of at most 32 payload flits. -/
def execMcast (c : CoreId) (g : Guard) (f : MovF) (s : State) : Out :=
  issueOut s c g 0xA8
    (movOk f [true, false, true, false, false, true, false, false, false, true, true] && decide (1 ≤ f.imm16.toNat) &&
      decide (f.imm16.toNat ≤ 4096)) false (mcastAccess (s.core c) f) fun k =>
    let a := k.areg f.ra.toNat
    let n := 128 * f.imm16.toNat
    let q := f.qa.toNat
    match mcastFrom k f with
    | some (p :: _) =>
      if !k.roomFor q 1 then .trap { code := 6, queue := q }
      else
        let k1 := ((k.readFix p n).reserve q (.word none)).postWord q k.nextId (complWord 0 0 3 false n)
        let s1 := s.setCore c k1
        .done (s1.each (List.range (ceilDiv n 4096)) fun s j =>
          let m := min 4096 (n - 4096 * j)
          let bad := k.poisoned (p + 4096 * j) m
          (s.noteUncorr c (dataPort p) bad).inject c portL
            { s.packetFrom c 3 1 with
              group := f.group.toNat, taint := k.ftaintOf f.ry.toNat, poison := !bad.isEmpty,
              addr := a % 2 ^ 24 + 4096 * j, payload := k.bytesAt (p + 4096 * j) m })
    | _ => .addr a

/-- Core c is the root of a tree: its own router's entry sends the sum to L (R219). -/
def State.isRoot (s : State) (c group : Nat) : Bool :=
  let e := mapGet (fun _ => 0) (s.router c).tree group
  bit e 19 && bits e 12 10 == 4

/-- A 64-bit mask from the bolts' flags, bolt c at bit c. -/
def boltMask (l : List Bolt) (fl : Bolt → Bool) : Word64 :=
  BitVec.ofNat 64 (pack (l.zipIdx.map fun p => (b2n (fl p.1), p.2)))

/-- RSEND (R219): the head bolt set of `qa` as one contribution; on the root, the sum's entry is reserved in `qb`. -/
def execRsend (c : CoreId) (g : Guard) (f : MovF) (s : State) : Out :=
  issueOut s c g 0xA9 (movOk f [true, true, false, false, false, true]) false [] fun k =>
    let q := f.qa.toNat
    let root := s.isRoot c f.group.toNat
    if !root && f.qb != 0#3 then .fail 1
    else
      match k.queue q with
      | ⟨_, .bolts (some set)⟩ :: _ =>
        let k1 := k.popHead q
        if root && !k1.roomFor f.qb.toNat 1 then .trap { code := 6, queue := f.qb.toNat }
        else
          let k2 := if root then
            { k1.reserve f.qb.toNat (.bolts none) with
              redWait := k1.redWait ++ [(f.group.toNat, f.qb.toNat, k1.nextId)] } else k1
          .done ((s.setCore c k2).inject c portL
            { s.packetFrom c 4 1 with
              group := f.group.toNat, excMask := boltMask set (·.exc), ovfMask := boltMask set (·.ovf),
              payload := (set.take 64).flatMap fun b => leBytes 8 b.value.toNat })
      | _ => .trap { code := 6, queue := q }

end Sys2Proof.Machine
end

