-- ==== Sys2Proof/Machine/Faults.lean ====
section
/-! DEFINITION. Failures in service: an instance's fault, a core's failure with its fence, a link that gives up (R148,
R149, R151, R346, R468-R470). -/

namespace Sys2Proof.Machine

/-- State codes of an instance (R321). -/
def instUnfitted : Nat := 1
def instLoading : Nat := 2
def instFitted : Nat := 3
def instStopped : Nat := 4
def instFaulted : Nat := 5
def instDissolving : Nat := 6

/-- Instance i holds a model in place: Fitted or Stopped. -/
def State.ready (s : State) (i : Nat) : Bool := s.rd (K.instState i) == 3 || s.rd (K.instState i) == 4

/-- Instance i faults with a code: it stops, and at its next tack it takes the actions of R346. -/
def State.instFault (s : State) (i code : Nat) : State :=
  if s.ready i then
    let s := (s.wr (K.instState i) instFaulted).wr (K.faultCode i) code
    let s := s.modInst i fun n => { n with halted := true, faultDue := true }
    s.logMg i 0x0403 2 0 noSlot code 0
  else s

/-- The instance that owns panel p. -/
def State.instOfPanel (s : State) (p : Nat) : Option Nat :=
  (List.range 12).find? fun i => s.rd (K.instState i) != 0 && decide (p ∈ (s.inst i).panels)

/-- An instance stops at an instruction boundary and abandons its step (R152, R179). -/
def State.abandon (s : State) (i : Nat) : State :=
  s.modInst i fun n => { n with halted := true, abandoned := n.stepOn || n.abandoned, restartDue := true }

/-- A spare chosen for a position that fails before its tack: its position's spare is chosen anew (R254). -/
def State.spareFails (s : State) (c : Nat) : State :=
  s.each ((List.range 12).filter fun i => (s.inst i).replacing.any fun r => r.spare == some c) fun s i =>
    s.modInst i fun n => { n with
      sparesReady := false
      replacing := n.replacing.map fun r => if r.spare = some c then { r with spare := none } else r }

/-- A core fails in service (R468-R470): it carries its mark, is fenced, and its instance stops; a position it serves
waits for a spare (R252). -/
def State.coreFails (s : State) (c cause : Nat) : State :=
  if mapGet (fun _ => false) s.marks c then s
  else
    let k := s.core c
    let s := { s with marks := mapSet (fun _ => false) s.marks c true }
    let s := ((s.wr (K.failCause c) cause).wr (K.failTime c) s.time).setCore c { k with fenced := true }
    let s := (s.logMg k.logInst 0x2006 1 0 noSlot c cause).spareFails c
    match k.inst with
    | none => s
    | some i =>
      if k.addrValid && s.ready i.val then
        let s := s.abandon i.val
        let old := (s.inst i.val).replacing
        let pos : Replace := ⟨k.panel, k.logical, none⟩
        s.modInst i.val fun n =>
          { n with replacing := (old.filter fun r => !(r.panel == pos.panel && r.logical == pos.logical)) ++ [pos],
                   sparesReady := false, fromStep := true }
      else s

/-- A fabric record (R156). -/
def fabricRec (kind sub x y port group column count : Nat) : Nat :=
  pack [(kind, 0), (sub, 4), (x, 8), (y, 14), (port, 19), (group, 22), (column, 28), (count % 2 ^ 32, 64)]

/-- The two routers of a link, west or south one first, and the port of the first toward the second (R157). -/
def linkEnds (l : Nat) : Nat × Nat × Nat :=
  if l < 1170 then (idxOf (l % 39) (l / 39), idxOf (l % 39 + 1) (l / 39), 1)
  else (idxOf ((l - 1170) % 40) ((l - 1170) / 40), idxOf ((l - 1170) % 40) ((l - 1170) / 40 + 1), 0)

/-- Instances that hold both routers of a link: their VC1 and VC2 routes may use it (R130, R152). -/
def State.linkUsers (s : State) (l : Nat) : List Nat :=
  let e := linkEnds l
  (List.range 12).filter fun i =>
    s.ready i && decide (panelOf e.1 ∈ (s.inst i).panels) && decide (panelOf e.2.1 ∈ (s.inst i).panels)

/-- Instances whose routes a failed link may carry stop, and wait for the darn set. -/
def State.linkAffects (s : State) (l : Nat) : State :=
  s.each (s.linkUsers l) fun s i => (s.abandon i).modInst i fun n => { n with waitDarn := true }

/-- Mark a link failed. A darn set still pending was computed without this failure, and is computed again (R152). -/
def State.failLink (s : State) (l : Nat) : State := { (s.setLinkByte l 1).linkAffects l with darnSet := none }

/-- A link gives up (R148): both routers mark it failed and report it. -/
def State.linkGivesUp (s : State) (l : Nat) (reverse : Bool) (replays : Nat) : State :=
  if s.linkByte l ≠ 0 then s
  else
    let e := linkEnds l
    let r := if reverse then e.2.1 else e.1
    let port := if reverse then oppPort e.2.2 else e.2.2
    let d := 2 * l + b2n reverse
    ((s.setLink d { s.link d with dead := true }).failLink l).logDev ((s.instOfPanel (panelOf r)).getD noInst)
      (fabricRec 0xE 0 (xOf r) (yOf r) port 0 0 replays)

/-- Links of a router. -/
def linksOf (r : Nat) : List Nat := (List.range 4).filterMap fun p => linkAt r p

end Sys2Proof.Machine
end

