-- ==== Sys2Proof/Machine/Repair.lean ====
section
/-! DEFINITION. Repair of a tile: holds, the gusset path and the stall path, and the commands that end their steps
(R59-R66, R122). -/

namespace Sys2Proof.Machine

/-- Replace a repair of an engine by tile; none removes it. -/
def EngState.setRepair (x : EngState) (tile : Nat) (r : Option Repair) : EngState :=
  { x with repairs := x.repairs.filterMap fun y => if y.tile = tile then r else some y }

/-- The repair of a tile. -/
def EngState.repairOf (x : EngState) (tile : Nat) : Option Repair := x.repairs.find? fun r => r.tile == tile

/-- The gusset's copy of an engine's tile. -/
def Core.copyOf (k : Core) (e tile : Nat) : Option GCopy :=
  (k.engOf 8).copies.find? fun c => c.owner == e && c.tile == tile

/-- Change the gusset's copy of an engine's tile; none frees its slot, and a gusset left empty is free again (R122). -/
def Core.setCopy (k : Core) (e tile : Nat) (c : Option GCopy) : Core :=
  let x := k.engOf 8
  let l := x.copies.filterMap fun y => if y.owner = e ∧ y.tile = tile then c else some y
  k.setEng 8 { x with copies := l, stat := if l = [] ∧ k.gussetMode = 1 then x.stat - 64 else x.stat }

/-- The gusset can take a tile of engine e (R62): free or holding tiles of the same engine, fewer than 8 tiles, not
replacing an engine, and not claimed by another engine's repair. -/
def Core.gussetTakes (k : Core) (e : Nat) : Bool :=
  let fills := fun f => ((k.engOf f).repairs.filter fun r => r.gusset && (k.copyOf f r.tile).isNone).length
  decide (e < 8) && decide (k.gussetMode ≤ 1) && ((k.engOf 8).copies.all fun c => c.owner == e) &&
    ((List.range 8).all fun f => f == e || fills f == 0) && decide ((k.engOf 8).copies.length + fills e < 8)

/-- Give a stream a free staging part (R121). -/
def Core.takeStaging (k : Core) (stream : Nat) : Core :=
  match (List.range 16).find? fun i => mapGet (fun _ => 0) k.staging i == 0 with
  | some i => { k with staging := mapSet (fun _ => 0) k.staging i stream }
  | none => k
/-- Release every staging part of a stream; each is zeroed (R121). -/
def Core.dropStaging (k : Core) (stream : Nat) : Core :=
  { k with
    staging := k.staging.filter fun p => p.2 != stream
    stagingMem := (k.staging.filter fun p => p.2 == stream).foldl (fun m p => memZero m (4096 * p.1) 4096) k.stagingMem }
/-- An image streams through the parts of a stream, 4 KiB at a time; the last piece stands in them when they are released
(R121). -/
def Core.passStaging (k : Core) (stream : Nat) (img : List Byte) : Core :=
  ({ k with
    stagingMem := (k.staging.filter fun p => p.2 == stream).foldl
      (fun m p => memWrite m (4096 * p.1) (img.drop (4096 * ((img.length - 1) / 4096)))) k.stagingMem } : Core).dropStaging stream
/-- The stream number of an engine's golden-image fetch. -/
def repairStream (e : Nat) : Nat := e + 1

/-- Release the hold of engine e at `uptime` now; the time held is counted (R54, R64). -/
def Core.release (k : Core) (now e : Nat) : Core := k.setEng e ((k.engOf e).release now)

/-- Put engine e into the held state (R60). -/
def Core.hold (k : Core) (now e tile : Nat) (block : Option Nat) : Core :=
  k.setEng e { k.engOf e with held := some ⟨tile, block, now⟩ }

/-- Return a tile from the gusset to its engine (R62 step 8). -/
def Core.returnTile (k : Core) (e tile : Nat) : Core :=
  let k := k.setCopy e tile none
  let x := k.engOf e
  k.setEng e ((x.setTd tile (tdPut (x.td tile) 26 false)).setRepair tile none)

/-- Switch the gusset to the copy it has programmed anew (R66). -/
def Core.switchCopy (k : Core) (e tile : Nat) (img : List Byte) : Core :=
  let k := match k.copyOf e tile with
    | some c => k.setCopy e tile (some { c with image := img, mdErr := [] })
    | none => k
  k.setEng e ((k.engOf e).setRepair tile none)

/-- What a mismatch on a tile of engine e starts (R60, R62, R66): a hold with a repair, a hold that waits for the
re-program in progress, or an immediate return of the tile to its engine or to the gusset's new copy. -/
def Core.mismatch (k : Core) (now e tile : Nat) (block : Option Nat) : Core :=
  let x := k.engOf e
  match x.repairOf tile with
  | some r =>
    if r.step = .returnTack then k.returnTile e tile
    else if r.step = .switchTack then k.switchCopy e tile r.image
    else (k.setEng e (x.setRepair tile (some { r with held := true }))).hold now e tile block
  | none =>
    let g := (k.copyOf e tile).isSome || k.gussetTakes e
    let r : Repair := ⟨tile, .fetch, g, true, []⟩
    ((k.setEng e { x with repairs := x.repairs ++ [r] }).hold now e tile block).takeStaging (repairStream e)

/-- The first repair of engine e in a given step. -/
def Core.repairIn (k : Core) (e : Nat) (st : RepairStep) : Option Repair :=
  (k.engOf e).repairs.find? fun r => r.step == st

/-- The golden image of a tile of core k in its instance's HBM (R37, R41). -/
def State.goldenInHbm (s : State) (k : Core) (t : Nat) : List Byte := s.hbmRead k.logInst (tdGolden t) (imageLen t)

/-- GOLDEN_FETCH_DONE (R62 step 3): the golden image is in; the repair goes on to the gusset fill or to the in-place
re-program. A fetch from host memory that brought nothing is retried (R386). -/
def execGoldenFetchDone (c : CoreId) (e : EngId) (hostImage : List Byte) (s : State) : Out :=
  .next (s.modCore c fun k =>
    match k.repairIn e .fetch with
    | none => k
    | some r =>
      let x := k.engOf e
      let t := x.td r.tile
      let img := if tdGoldenHost t then hostImage else s.goldenInHbm k t
      if tdGoldenHost t && hostImage.isEmpty then
        k.setEng e (x.setRepair r.tile (some { r with step := .fetchRetry }))
      else
        let k := k.passStaging (repairStream e) img
        match k.copyOf e r.tile with
        | some _ => k.setEng e (x.setRepair r.tile (some { r with step := .gussetReprogram, image := img }))
        | none =>
          if r.gusset then
            let k := k.setEng e (x.setRepair r.tile (some { r with step := .verifyGusset, image := img }))
            let y := k.engOf 8
            k.setEng 8 { y with copies := y.copies ++ [⟨e, r.tile, img, false, false, []⟩], stat := y.stat ||| 64 }
          else k.setEng e (x.setRepair r.tile (some { r with step := .reprogram, image := img })))

/-- GOLDEN_FETCH_RETRY (R386): a failed fetch from host memory is issued again. -/
def execGoldenFetchRetry (c : CoreId) (e : EngId) (s : State) : Out :=
  .next (s.modCore c fun k =>
    match k.repairIn e .fetchRetry with
    | none => k
    | some r => k.setEng e ((k.engOf e).setRepair r.tile (some { r with step := .fetch })))

/-- A record about a tile outside a pass. -/
def EngState.tileRec (x : EngState) (kind engine owner tile : Nat) (ectl : Word) : EvRec :=
  { kind := kind, engine := engine, owner := owner, layer := bits ectl.toNat 23 12, tile := tile,
    passSeq := x.counter 0 % 2 ^ 16 }

/-- The first engine with a repair in a step. -/
def Core.engineIn (k : Core) (st : RepairStep) : Option (Nat × Repair) :=
  (List.range 9).findSome? fun e => (k.repairIn e st).map fun r => (e, r)

/-- GUSSET_COPY_VERIFIED (R62 steps 5 and 6, R66): the held pass is redirected to the gusset; or event 0x4 and the
stall path from its step 4. -/
def execGussetCopyVerified (c : CoreId) (ok : Bool) (s : State) : Out :=
  .next (s.modCore c fun k =>
    match k.engineIn .verifyGusset with
    | none => k
    | some (e, r) =>
      let x := k.engOf e
      if ok then
        let k := match k.copyOf e r.tile with
          | some g => k.setCopy e r.tile (some { g with serving := true })
          | none => k
        let k := k.setEng e ((x.setTd r.tile (tdPut (x.td r.tile) 26 true)).setRepair r.tile
          (some { r with step := .reprogram, held := false }))
        k.release s.uptime e
      else
        let k := k.setCopy e r.tile none
        k.setEng e ((x.pushEv (x.tileRec 4 8 e r.tile (k.posOf (k.positionOf e)).ectl)).setRepair r.tile
          (some { r with step := .reprogram, gusset := false })))

/-- The in-place re-program of a tile of engine e ends its verify (R62 step 7, stall path step 5, R66): the tile returns
or is held by the gusset for good; on the stall path a failure is the core's. The answer says whether the core failed. -/
def Core.reprogramEnd (k : Core) (now e : Nat) (r : Repair) (ok : Bool) : Core × Bool :=
  let x := k.engOf e
  if ok then
    let k := k.setEng e (x.program r.tile r.image)
    let x := k.engOf e
    if !r.gusset then ((k.setEng e (x.setRepair r.tile none)).release now e, false)
    else if r.held then ((k.returnTile e r.tile).release now e, false)
    else (k.setEng e (x.setRepair r.tile (some { r with step := .returnTack })), false)
  else
    let x := x.pushEv (x.tileRec 5 e e r.tile (k.posOf (k.positionOf e)).ectl)
    let x := x.setTd r.tile (tdPut (x.td r.tile) 27 true)
    if r.gusset then
      let k := k.setEng e (x.setRepair r.tile (some { r with step := .gussetReprogram }))
      match k.copyOf e r.tile with
      | some g => (k.setCopy e r.tile (some { g with permanent := true }), false)
      | none => (k, false)
    else (k.setEng e (x.setRepair r.tile (some { r with step := .failed })), true)

/-- The gusset's own programming of a tile of engine e ends its verify (R66). The answer says whether the core failed. -/
def Core.gussetEnd (k : Core) (now e : Nat) (r : Repair) (ok : Bool) : Core × Bool :=
  let x := k.engOf e
  if ok then
    if r.held then ((k.switchCopy e r.tile r.image).release now e, false)
    else (k.setEng e (x.setRepair r.tile (some { r with step := .switchTack })), false)
  else
    (k.setEng e ((x.pushEv (x.tileRec 5 8 e r.tile (k.posOf (k.positionOf e)).ectl)).setRepair r.tile
      (some { r with step := .failed })), true)

/-- REPROGRAM_VERIFIED (R62 step 7, stall path step 5, R66): the re-program in the lining of physical engine e ends its
verify. In the gusset, unless it replaces an engine, this is its own programming of a tile that it holds. A failure that
leaves the pass held is reported at once: the core fails with cause 1 (R468). -/
def execReprogramVerified (c : CoreId) (e : EngId) (ok : Bool) (s : State) : Out :=
  let k := s.core c
  let done := match (if e.val = 8 then k.engineIn .gussetReprogram else none) with
    | some (o, r) => some (k.gussetEnd s.uptime o r ok)
    | none => (k.repairIn e .reprogram).map fun r => k.reprogramEnd s.uptime e r ok
  match done with
  | none => .next s
  | some (k', failed) => .next (if failed then (s.setCore c k').coreFails c 1 else s.setCore c k')

/-- What a tack does to a core's repairs: verified tiles return, the gusset switches to new copies (R62, R66). -/
def Core.tackRepairs (k : Core) : Core :=
  (List.range 9).foldl (fun k e => (k.engOf e).repairs.foldl (fun k r =>
    if r.step = .returnTack then k.returnTile e r.tile
    else if r.step = .switchTack then k.switchCopy e r.tile r.image
    else k) k) k

/-- EVENT_QUEUE_DRAIN (R51): the panel controller moves an engine's records into the event log. -/
def execEventQueueDrain (c : CoreId) (e : EngId) (s : State) : Out :=
  let k := s.core c
  .next ((s.setCore c (k.setEng e { k.engOf e with evq := [] })).each (k.engOf e).evq
    fun s r => s.logDev k.logInst r)

end Sys2Proof.Machine
end

