-- ==== Sys2Proof/Machine/FittingCheck.lean ====
section
/-! DEFINITION. The fitting check: captures, the reference recomputation and its comparison (R79-R81). -/

namespace Sys2Proof.Machine

/-- The staging stream of a side-buffer slot's weight fetch. -/
def fcStream (i : Nat) : Nat := 16 + i

/-- After the last bolt of a pass: a sampled pass is counted as tainted, or its exact contribution is captured and the
fetch of its weights starts (R79 steps 3 and 4, R81). -/
def State.fcCapture (s : State) (c e : Nat) (q : Pass) (before after : List Int) (tainted : Bool) : State :=
  let k := s.core c
  match k.inst with
  | none => s
  | some i =>
    match k.sideOf (s.inst i.val).layerPass e q.tile with
    | none => s
    | some (j, x) =>
      if tainted then (s.setCore c (k.setSide j none)).bump K.fcTainted 64 1
      else s.setCore c ((k.setSide j (some
        { x with diff := some (List.zipWith (· - ·) after before, wbaseOf q.ectl) })).takeStaging (fcStream j))

/-- y_ref of column c in FP32 (R79 step 5): products enter the pairwise tree exactly, each sum is rounded. -/
def fcRef (t : Nat) (img : List Byte) (rows : Map (BitVec 16)) (c : Nat) : Fl :=
  let n := 64 * tdBlocks t
  let term := fun r =>
    let w := (imgRow t img r).getD c 0
    let ew := imgScale t img (r / 64) c
    let x := Sys2Proof.Machine.decode bf16 (mapGet (fun _ => 0#16) rows r).toNat
    (x.mul (Fl.ofInt w ((ew : Int) - 127 - (if tdFmt t = 1 then 1 else 0))))
  fsum ((List.range n).map term)

/-- FC_WEIGHT_FETCH_DONE (R79 steps 4 and 5, R117): the tile's golden image has streamed through the staging buffer to the
reference unit, which forms y_ref from it and keeps no copy. -/
def execFcWeightFetchDone (c : CoreId) (slot : Fin 2) (hostImage : List Byte) (s : State) : Out :=
  .next (s.modCore c fun k =>
    match k.sideSlot slot with
    | none => k
    | some x =>
      if x.diff = none then k
      else
        let t := (k.engOf x.engine).td x.tile
        let img := if tdGoldenHost t then hostImage else s.goldenInHbm k t
        let ref := (List.range 64).map fun n => BitVec.ofNat 32 (roundTo f32 (fcRef t img x.rows n))
        (k.setSide slot (some { x with ref := some ref })).passStaging (fcStream slot) img)

/-- E of R80 in FP32. R80 gives no order of operations: the model rounds each difference, sums the squares in the pairwise
tree of R79, takes correctly rounded roots and a correctly rounded quotient, and answers infinity for an infinite
numerator (log entry 73). -/
def fcError (dev ref : List Fl) : Fl :=
  let norm := fun (l : List Fl) =>
    Sys2Proof.Machine.decode f32 (flSqrt (fsum (l.map fun x => x.mul x)) 0)
  let num := norm (List.zipWith (fun a b => r32 (a.sub b)) dev ref)
  let den := Fl.minMax true (norm ref) (.fin false 1 (-126))
  match num, den with
  | .fin _ m e, .fin _ d g => Sys2Proof.Machine.decode f32 (roundRat f32 m d (e - g))
  | a, _ => if a.isInf then .inf false else .nan

/-- FC_RECOMPUTE (R79 steps 5 and 6, R80): once the inputs and the weights are in, compare and count; an excess is
recorded and flagged. The slot is zeroed. The command names the slot and its tile; of another tile it changes nothing. -/
def execFcRecompute (c : CoreId) (slot : Fin 2) (tile : Fin 512) (s : State) : Out :=
  let k := s.core c
  match k.sideSlot slot with
  | none => .next s
  | some x =>
    if x.tile ≠ tile.val then .next s
    else match x.diff, x.ref with
    | some d, some r =>
      let dev := d.1.map fun v => r32 (Fl.ofInt v d.2)
      let err := fcError dev (r.map fun v => Sys2Proof.Machine.decode f32 v.toNat)
      let s := (s.setCore c (k.setSide slot none)).bump K.fcSamples 64 1
      if (Sys2Proof.Machine.decode bf16 x.threshold).lt err then
        let s := s.bump K.fcFlags 64 1
        let s := match k.inst with
          | some i => s.wr (K.precStatus i.val) (s.rd (K.precStatus i.val) ||| 1)
          | none => s
        .next (s.logDev k.logInst (pack [(9, 0), (x.engine, 4), (k.panel, 8), (k.logical, 12),
          (x.layer, 20), (x.tile, 32), (x.variant % 4, 41), (x.threshold, 48),
          (roundTo f32 err, 64), (x.pass % 2 ^ 16, 96)]))
      else .next s
    | _, _ => .next s

/-- FC_DEADLINE (R81): a sample still open 10 ms after its capture (R79 step 3) is dropped and counted; its slot is
zeroed. -/
def execFcDeadline (c : CoreId) (slot : Fin 2) (s : State) : Out :=
  let k := s.core c
  match k.sideSlot slot with
  | none => .next s
  | some x =>
    if x.diff = none then .next s
    else .next ((s.setCore c ((k.setSide slot none).dropStaging (fcStream slot))).bump K.fcDropped 64 1)

end Sys2Proof.Machine
end

