-- ==== Sys2Proof/Machine/Sync.lean ====
section
/-! DEFINITION. The sync instructions TACK to GOWN (R175, R220-R224). -/

namespace Sys2Proof.Machine

/-- TACK (R220): traps with a reservation outstanding, waits for the command queues and DMA channels, then sends its
arrival along tree entry 63 and waits for the release. The release moves the pc (TACK_RELEASE). -/
def execTack (c : CoreId) (g : Guard) (f : SyncF) (s : State) : Out :=
  issueOut s c g 0xC0 (f.rs == 0#6 && f.emask == 0#8 && f.res == 0#6 && f.imm32 == 0#32) false [] fun k =>
    if k.anyReserved then .fail 6
    else if !k.quiet then .wait s
    else .wait ((s.setCore c { k with run := .atTack, tackAt := s.tackSeqOf k }).inject c portL
      { s.packetFrom c 7 0 with group := 63 })

/-- A pass waits in a command queue. -/
def hasPass (l : List ECmd) : Bool := l.any fun e => match e with
  | .pass _ => true
  | _ => false

/-- FENCE (R221): wait until every engine in `emask` has finished the passes queued before it; an accepted scratchpad
write is visible at once in this model. -/
def execFence (c : CoreId) (g : Guard) (f : SyncF) (s : State) : Out :=
  issueOut s c g 0xC1 (f.rs == 0#6 && f.res == 0#6 && f.imm32 == 0#32) false [] fun k =>
    if (positions f.emask).any fun p => hasPass (k.posOf p).cmdq then .wait s else .done s

/-- WAIT (R222): hold issue for `reg(rs)` + `imm32` + 1 cycles, the sum taken over 33 bits. -/
def execWait (c : CoreId) (g : Guard) (f : SyncF) (s : State) : Out :=
  issueOut s c g 0xC2 (f.emask == 0#8 && f.res == 0#6 && specOk f.rs.toNat) false [] fun k =>
    .done (s.setCore c { k with
      issueAt := s.mclkAcc / 1000000 + (s.readReg k f.rs.toNat).toNat + f.imm32.toNat + 1 })

/-- NOTE (R223): a word into the notice queue of 4 entries; a full queue stalls issue. -/
def execNote (c : CoreId) (g : Guard) (f : SyncF) (s : State) : Out :=
  issueOut s c g 0xC3 (f.rs == 0#6 && f.emask == 0#8 && f.res == 0#6) false [] fun k =>
    if 4 ≤ k.notices.length then .wait s
    else .done (s.setCore c { k with notices := k.notices ++ [f.imm32] })

/-- Owner tag of a granule (R124). -/
def Core.ownerOf (k : Core) (g : Nat) : Nat := mapGet (fun _ => 0x3FF) k.owner g

/-- The granules that n consecutive ones from a relative address name, in ascending order; none when R106, R108 or the
4 KiB alignment fails. -/
def Core.granules (k : Core) (a n : Nat) : Option (List Nat) :=
  if bit a 23 then
    if isWide a && bits a 20 0 % 4096 == 0 && k.wideOk (bits a 20 0) (4096 * n) then
      some ((List.range n).map fun j => 1024 + k.wbase + bits a 20 0 / 4096 + j) else none
  else if isNarrow a && bits a 18 0 % 4096 == 0 && k.narrowOk (bits a 18 0) (4096 * n) then
    let ps := if bit a 22 then List.range 8 else [bits a 21 19]
    some (ps.flatMap fun p => (List.range n).map fun j => 128 * p + k.nbase + bits a 18 0 / 4096 + j)
  else none

/-- Ask the zeroing unit at MCLK cycle `now` for a change of owner unless the same change already waits (R125). -/
def Core.askOwner (k : Core) (now owner : Nat) (g : Nat) : Core :=
  if k.ownerOf g = owner ∨ k.zeroq.any (fun z => z.granule == g && z.owner == owner) then k
  else { k with zeroq := k.zeroq ++ [⟨g, owner, now⟩] }

/-- A byte range meets granule g. -/
def inGranule (g lo len : Nat) : Bool := decide (lo < 4096 * g + 4096) && decide (4096 * g < lo + len)

/-- Some queued pass reads granule g (R125 step 1). -/
def Core.passReads (k : Core) (g : Nat) : Bool :=
  (List.range 8).any fun p => (k.posOf p).cmdq.any fun e =>
    match e with
    | .pass x => inGranule g (524288 * p + x.elems) (mmvLen x.ectl x.scales.length)
    | _ => false

/-- Some accepted descriptor or outstanding request names granule g: a local range whose entry is not posted yet, or a
request delivered to the core and not yet served. -/
def Core.transferNames (k : Core) (g : Nat) : Bool :=
  (k.hzRanges.any fun r => inGranule g r.lo r.len && (k.queue r.q).any fun e => e.id == r.id && !e.ready) ||
    k.rqIn.any fun p => (k.wide p.addr p.length).any fun a => inGranule g a p.length

/-- Zero granule g with its errors, and set its tag (R125 steps 2-4). -/
def Core.zeroGranule (k : Core) (g owner : Nat) : Core :=
  { k with
    sp := memZero k.sp (4096 * g) 4096
    poison := k.poison.filter fun p => !(decide (512 * g ≤ p.1) && decide (p.1 < 512 * g + 512))
    spFlip := k.spFlip.filter fun p => !(decide (512 * g ≤ p.1) && decide (p.1 < 512 * g + 512))
    owner := mapSet (fun _ => 0x3FF) k.owner g owner }

/-- The panel controller gives granules to an owner at MCLK cycle `now` (R125, R127, R271): one with another owner is zeroed at
once, or, while a queued pass or a transfer names it, waits at the zeroing unit. -/
def Core.giveGranules (k : Core) (now owner : Nat) (gs : List Nat) : Core :=
  gs.foldl (fun k g =>
    if k.ownerOf g = owner then k
    else if k.passReads g || k.transferNames g then k.askOwner now owner g else k.zeroGranule g owner) k

/-- GOWN (R224): ask for the granules' new owner and hold issue until every one of them has it. -/
def execGown (c : CoreId) (g : Guard) (f : SyncF) (s : State) : Out :=
  let owner := bits f.imm32.toNat 9 0
  issueOut s c g 0xC4
    (f.emask == 0#8 && f.res == 0#6 && specIsA f.rs.toNat && bits f.imm32.toNat 15 10 == 0 &&
      bits f.imm32.toNat 31 22 == 0 && !(decide (0x200 ≤ owner) && decide (owner ≤ 0x3FD))) false [] fun k =>
    let a := (s.readReg k f.rs.toNat).toNat
    if owner < 512 ∧ !s.mayOwn owner k.logInst then .fail 2
    else
      match k.granules a (bits f.imm32.toNat 21 16 + 1) with
      | none => .addr a
      | some gs =>
        if gs.all fun x => k.ownerOf x == owner then .done s
        else .wait (s.setCore c (gs.foldl (fun k x => k.askOwner (s.mclkAcc / 1000000) owner x) k))

end Sys2Proof.Machine
end

