-- ==== Sys2Proof/Machine/Sampling.lean ====
section
/-! DEFINITION. The sampling instructions CTOP to SACC (R176, R225-R230) and the pipeline of SPICK (R306-R308). -/

namespace Sys2Proof.Machine

/-! ## Candidates (R225) -/

/-- A logit's value from its FP32 bits. -/
def logitOf (b : Nat) : Fl := Sys2Proof.Machine.decode f32 b

/-- The list order of R225: `logit` descending, then `token` ascending. A candidate is (token, FP32 bits). -/
def candBefore (a b : Nat × Nat) : Bool :=
  (logitOf b.2).lt (logitOf a.2) || ((logitOf a.2).eq (logitOf b.2) && decide (a.1 < b.1))

/-- Insert a candidate in list order. -/
def candInsert (x : Nat × Nat) : List (Nat × Nat) → List (Nat × Nat)
  | [] => [x]
  | y :: t => if candBefore x y then x :: y :: t else y :: candInsert x t

/-- Merge candidates into an ordered list and keep the best k (R226, R228). -/
def candMerge (k : Nat) (l new : List (Nat × Nat)) : List (Nat × Nat) :=
  (new.foldl (fun l x => candInsert x l) l).take k

/-- A logit that becomes a candidate: neither NaN nor −∞. -/
def candOk (b : Nat) : Bool := !nan32 b && b != 0xFF800000

/-- `k` of the slot-parameter table for a sample slot; 0 means 256 (R226, R300). -/
def Plan.ctopK (p : Plan) (slot : Nat) : Nat :=
  match p.samples.drop slot with
  | (k, _, _) :: _ => if k = 0 then 256 else k
  | [] => 256

/-- The plan of the core's instance. -/
def State.planOf (s : State) (k : Core) : Plan := match k.inst with
  | some i => (s.inst i.val).plan
  | none => {}

/-- CTOP (R226): merge the logits of m registers into the candidate buffer. -/
def execCtop (c : CoreId) (g : Guard) (f : SampF) (s : State) : Out :=
  issueOut s c g 0xD0
    (f.q == 0#3 && f.group == 0#6 && specOk f.rd.toNat && decide (f.k.toNat ≤ 256) &&
      decide (f.fs.toNat + f.mcount.toNat + 1 ≤ 64)) false [] fun k =>
    let m := f.mcount.toNat + 1
    let slot := f.imm13.toNat
    let old := k.cand.getD ⟨slot, [], false⟩
    if old.slot ≠ slot ∧ !old.cands.isEmpty then .fail 6
    else
      let kk := if f.k = 0#9 then (s.planOf k).ctopK slot else f.k.toNat
      let base := (s.readReg k f.rd.toNat).toNat
      let lanes := ((List.range m).flatMap fun j =>
        (List.range 128).map fun i => (base + 128 * j + i, lane32 (k.freg (f.fs.toNat + j)) i))
      let new := lanes.filter fun x => decide (x.1 < 2 ^ 24) && candOk x.2
      let nan := lanes.any fun x => decide (x.1 < 2 ^ 24) && nan32 x.2
      let t := old.taint || k.itaint || nan || (List.range m).any fun j => k.ftaintOf (f.fs.toNat + j)
      .done (s.setCore c { k with cand := some ⟨slot, candMerge kk old.cands new, t⟩ })

/-- A candidate as 8 bytes (R225). -/
def candBytes (x : Nat × Nat) : List Byte := leBytes 4 x.1 ++ leBytes 4 x.2

/-- The `addr` of a candidate packet: bits [23:22] = 0b11 (R227). -/
def candAddr : Nat := 0xC00000

/-- CSEND (R227): send the candidate buffer along tree `group` and empty it. -/
def execCsend (c : CoreId) (g : Guard) (f : SampF) (s : State) : Out :=
  issueOut s c g 0xD1 (f.fs == 0#6 && f.rd == 0#6 && f.mcount == 0#9 && f.k == 0#9) false [] fun k =>
    let slot := f.imm13.toNat
    let q := f.q.toNat
    let b := k.cand.getD ⟨slot, [], false⟩
    if b.slot ≠ slot then .fail 6
    else if !k.roomFor q 1 then .trap { code := 6, queue := q }
    else
      let bytes := b.cands.flatMap candBytes
      let k1 := (k.reserve q (.word none)).postWord q k.nextId (complWord slot 0 3 false bytes.length)
      .done ((s.setCore c { k1 with cand := none }).inject c portL
        { s.packetFrom c 3 1 with group := f.group.toNat, tag := slot, taint := b.taint, addr := candAddr,
                                  payload := bytes })

/-! ## The pipeline (R306-R308) -/

/-- The sampling state of a draw. -/
structure DrawState where
  temperature : Fl
  topP : Fl
  minP : Fl
  rep : Fl
  freq : Fl
  topK : Nat
  seed : Word64
  /-- tokens of the penalty window -/
  window : List Nat
  pos : Nat
deriving DecidableEq, Repr

/-- The reciprocal rounded to nearest, ties to even, into FP32 (R306). -/
def recip32 (x : Fl) : Fl :=
  match x with
  | .fin n m e => if m = 0 then .inf n else
      let b := roundRat f32 1 m (-e)
      Sys2Proof.Machine.decode f32 (b + if n then f32.signBit else 0)
  | .inf n => .fin n 0 0
  | .nan => .nan

/-- Step 1: the penalised logit of a candidate. -/
def penalise (d : DrawState) (x : Nat × Nat) : Nat × Nat :=
  let n := d.window.count x.1
  if n = 0 then x
  else
    let l := logitOf x.2
    let l := if Fl.zero.lt l then r32 (l.mul (recip32 d.rep)) else r32 (l.mul d.rep)
    (x.1, roundTo f32 (l.sub (r32 (d.freq.mul (.ofNat n)))))

/-- Step 6: how many candidates top-p keeps. -/
def topPKeep (lim : Fl) : Fl → List Fl → Nat
  | _, [] => 0
  | t, w :: ws =>
    let t := r32 (t.add w)
    if lim.le t then 1 else 1 + topPKeep lim t ws

/-- Step 7: the index of the drawn candidate. -/
def drawIndex (th : Fl) : Fl → List Fl → Nat
  | _, [] => 0
  | _, [_] => 0
  | a, w :: ws =>
    let a := r32 (a.add w)
    if th.lt a then 0 else 1 + drawIndex th a ws

/-- The draw of R307: the token, and whether its penalties were inexact (R308). -/
def spickDraw (d : DrawState) (cands : List (Nat × Nat)) : Nat × Bool :=
  let l256 := (cands.drop 255).head?
  let c := candMerge 256 [] (cands.map (penalise d))
  let inexact := fun keep : Nat => match l256 with
    | some x => (c.take keep).any fun y => (logitOf y.2).lt (logitOf x.2)
    | none => false
  match c with
  | [] => (0, false)
  | c0 :: _ =>
    if d.temperature.isZero then (c0.1, inexact 1)
    else
      let n := c.length
      let kk := if d.topK = 0 then n else min d.topK n
      let rtemp := recip32 d.temperature
      let w := (c.take kk).map fun x => fexp (r32 ((r32 ((logitOf x.2).sub (logitOf c0.2))).mul rtemp))
      let w := if Fl.zero.lt d.minP then w.takeWhile fun x => d.minP.le x else w
      let w := if d.topP.lt Fl.one then w.take (topPKeep (r32 (d.topP.mul (seqsum w))) Fl.zero w) else w
      let u := (rng d.seed (BitVec.ofNat 64 (d.pos + 1)) 0x0100000000000000#64).toNat / 2 ^ 40 % 2 ^ 24
      let th := r32 ((Fl.scale (.ofNat u) (-24)).mul (seqsum w))
      ((c.getD (drawIndex th Fl.zero w) c0).1, inexact w.length)

/-- The tokens at the positions up to a row's, oldest first: the sequence's tokens, cut or extended by the step's rows of that
sequence (R306). -/
def rowWindow (q : Seq) (rows : List PlanRow) (r : PlanRow) : List Nat :=
  let mine := rows.filter fun x => x.handle == r.handle && decide (q.tokens.length ≤ x.position) &&
    decide (x.position ≤ r.position) && x.kind != 3
  q.tokens.take (r.position + 1) ++ mine.map (·.token)

/-- The request that runs on a sequence. -/
def State.reqOn (s : State) (q : Nat) : Option Req :=
  s.reqs.find? fun r => r.final.isNone && decide (r.seq = some q)

/-- Greedy sampling with no penalty. -/
def greedyState : DrawState :=
  { temperature := Fl.zero, topP := Fl.one, minP := Fl.zero, rep := Fl.one, freq := Fl.zero, topK := 0, seed := 0,
    window := [], pos := 0 }

/-- The sampling state of a sample slot; a slot with no entry of the step, and a draft-head row, draw greedily (R300,
R313). -/
def State.drawOf (s : State) (p : Plan) (slot : Nat) : DrawState :=
  match p.samples.drop slot with
  | (_, row, h) :: _ =>
    match p.rows.drop row with
    | r :: _ =>
      if r.kind = 3 then greedyState
      else
        match s.reqOn (h % 65536) with
        | some rq =>
          match rq.params with
          | some b =>
            let w := rowWindow (mapGet (fun _ => {}) s.seqs (h % 65536)) p.rows r
            { temperature := logitOf b.temperature.toNat, topP := logitOf b.topP.toNat, minP := logitOf b.minP.toNat,
              rep := logitOf b.repPenalty.toNat, freq := logitOf b.freqPenalty.toNat, topK := b.topK,
              seed := BitVec.ofNat 64 rq.seed, window := w.drop (w.length - b.penaltyWindow), pos := r.position }
          | none => greedyState
        | none => greedyState
    | [] => greedyState
  | [] => greedyState

/-- The selector's merge entry of a slot. -/
def Core.mergeOf (k : Core) (slot : Nat) : CandBuf :=
  (k.merge.find? fun b => b.slot == slot).getD ⟨slot, [], false⟩

/-- What SPICK does with a ready, good arrival: draw, write `rd`, free the entry, keep the token for the scheduler, and count
an inexact draw (R229, R308). -/
def spickGo (s : State) (c : Nat) (k : Core) (f : SampF) (w : Word64) : Res :=
  let slot := f.imm13.toNat
  let b := k.mergeOf slot
  let d := if b.cands.isEmpty then (0, false) else spickDraw (s.drawOf (s.planOf k) slot) b.cands
  let t := b.taint || wTaint w || k.itaint || b.cands.isEmpty
  let k1 := (k.popHead f.q.toNat).writeReg f.rd.toNat (BitVec.ofNat 32 (d.1 % 2 ^ 24 + b2n t * 2 ^ 31))
  let s := s.setCore c { k1 with
    merge := k1.merge.filter fun b => b.slot != slot
    picks := mapSet (fun _ => 0) k1.picks slot (d.1 % 2 ^ 24 + 1 + b2n t * 2 ^ 31 + b2n d.2 * 2 ^ 32) }
  .done (if d.2 then s.bump (K.penaltyInexact k.logInst) 64 1 else s)

/-- SPICK (R229): wait for the slot's arrival at the head of `q`, then choose its token; selector only. -/
def execSpick (c : CoreId) (g : Guard) (f : SampF) (s : State) : Out :=
  issueOut s c g 0xD2
    (f.fs == 0#6 && f.mcount == 0#9 && f.k == 0#9 && f.group == 0#6 && specOk f.rd.toNat) (!specWritable f.rd.toNat) []
    fun k =>
    let q := f.q.toNat
    match k.queue q with
    | [] => .trap { code := 6, queue := q }
    | e :: _ =>
      match e.kind with
      | .bolts (some _) => .trap { code := 6, queue := q }
      | .bolts none | .word none => if k.selector then .wait s else .fail 0xA
      | .word (some w) =>
        if wStatus w ≠ 0 then .trapIn (s.setCore c (k.popHead q)) { code := 5, status := wStatus w, queue := q }
        else if wSource w ≠ 4 ∨ wTag w ≠ f.imm13.toNat then .trap { code := 6, queue := q }
        else if !k.selector then .fail 0xA
        else spickGo s c k f w

/-- The sample slots of the verification that starts at a slot, each with its row's input token; none when no
verification starts there (R311). -/
def Plan.verifyAt (p : Plan) (slot : Nat) : List (Nat × Nat) :=
  match p.samples.drop slot with
  | (_, row, h) :: _ =>
    match p.rows.drop row with
    | r :: _ =>
      if r.kind = 2 ∧ r.index = 0 then
        (p.rows.filter fun x => x.kind == 2 && x.handle == h).map fun x => (x.sample, x.token)
      else []
    | [] => []
  | [] => []

/-- The chosen token of a sample slot, once its SPICK has written it. -/
def Core.pickOf (k : Core) (slot : Nat) : Option Nat :=
  let v := mapGet (fun _ => 0) k.picks slot
  if bits v 24 0 = 0 then none else some (bits v 24 0 - 1)

/-- The number of leading drafts that equal the token chosen one row before (R312). -/
def acceptCount : Option Nat → List (Option Nat × Nat) → Nat
  | _, [] => 0
  | prev, (ch, d) :: t => if prev = some d then 1 + acceptCount ch t else 0

/-- The accepted count of a verification given as (sample slot, input token) rows. -/
def Core.accepted (k : Core) (v : List (Nat × Nat)) : Nat :=
  match v with
  | [] => 0
  | (s0, _) :: t => acceptCount (k.pickOf s0) (t.map fun x => (k.pickOf x.1, x.2))

/-- SACC (R230): the accepted drafts of the verification that starts at the slot; selector only. -/
def execSacc (c : CoreId) (g : Guard) (f : SampF) (s : State) : Out :=
  issueOut s c g 0xD3
    (f.fs == 0#6 && f.mcount == 0#9 && f.q == 0#3 && f.group == 0#6 && f.k == 0#9 && specOk f.rd.toNat)
    (!specWritable f.rd.toNat) [] fun k =>
    if !k.selector then .fail 0xA
    else
      let v := (s.planOf k).verifyAt f.imm13.toNat
      if v.any fun x => (k.pickOf x.1).isNone then .wait s
      else .done (s.setCore c (k.writeReg f.rd.toNat (BitVec.ofNat 32 (k.accepted v))))

end Sys2Proof.Machine
end

