-- ==== Sys2Proof/Machine/Fabric.lean ====
section
/-! DEFINITION. The fabric's events: link protection (R146-R148), routing (R130-R133, R148-R151), multicast, reduction
and tack trees (R142-R145, R243), remote requests and their answers (R109, R154, R155, R216), candidate packets
(R227, R228). -/

namespace Sys2Proof.Machine

/-! ## Link protection -/

/-- The link crosses a stitch line (R146). -/
def isStitch (l : Nat) : Bool := if l < 1170 then (l % 39 + 1) % 5 == 0 else ((l - 1170) / 40 + 1) % 2 == 0

/-- What a receiver makes of what arrived (R147). -/
inductive Heard where
  | accept
  | lone
  | replay
deriving DecidableEq, Repr

/-- Judge a flit's bursts against the expected sequence number (R147). -/
def hear (stitch : Bool) (expect : BitVec 8) (bursts : List Burst) (crcOk : Bool) : Heard :=
  if stitch then
    match bursts with
    | [a, b] =>
      if a.pair = 1#2 ∧ b.pair = 2#2 ∧ a.seq = b.seq then
        if a.seq = expect ∧ crcOk then .accept else .replay
      else .lone
    | _ => .lone
  else
    match bursts with
    | [a] => if a.seq = expect ∧ crcOk then .accept else .replay
    | _ => .replay

/-! ## Requests that a failure ends -/

/-- The requester of a packet: the core at its source coordinates. -/
def Packet.src (p : Packet) : Nat := idxOf p.srcX p.srcY

/-- A request, as opposed to a response, a completion or a write along a tree. -/
def Packet.isRequest (p : Packet) : Bool := p.kind == 0 || p.kind == 1

/-- Complete an outstanding request of core c with a status and bytes (R155, R217). -/
def State.endRequest (s : State) (c rid status bytes : Nat) : State :=
  let k := s.core c
  match k.rqOut.find? fun r => r.rid == rid with
  | none => s.bump K.lateResponses 64 1
  | some r =>
    s.setCore c ({ k with rqOut := k.rqOut.filter fun r => r.rid != rid }.postWord r.q r.id
      (complWord r.tag status 2 false bytes))

/-- A discarded VC2 or VC3 packet: the requester receives a completion with status 0x02 (R148). -/
def State.dropFailed (s : State) (p : Packet) : State :=
  if p.vc = 2 ∨ p.vc = 3 then
    let c := if p.isRequest then p.src else idxOf p.dstX p.dstY
    if (s.core c).rqOut.any fun r => r.rid == p.rid then s.endRequest c p.rid 2 0 else s
  else if p.vc = 1 ∧ p.inst < 12 ∧ s.ready p.inst then s.abandon p.inst
  else s

/-- A router fails (R151): every link of it fails, its core is fenced, and an instance whose HBM stack's die sits on it
faults. -/
def State.routerFails (s : State) (r : Nat) : State :=
  let x := s.router r
  if x.failed then s
  else
    let s := s.setRouter r { x with failed := true, inq := [] }
    let s := s.each (linksOf r) State.failLink
    let s := s.each (x.inq.map (·.2)) State.dropFailed
    let s := s.logDev ((s.instOfPanel (panelOf r)).getD noInst) (fabricRec 0xE 1 (xOf r) (yOf r) 0 0 0 0)
    let s := s.coreFails r 2
    match (if (List.range 16).any (fun n => hbmSite n == r) then s.instOfPanel (panelOf r) else none) with
    | some i => s.instFault i 3
    | none => s

/-- A link has given up once, in either direction (R148). -/
def State.gaveUp (s : State) (l : Nat) : Bool := (s.link (2 * l)).dead || (s.link (2 * l + 1)).dead

/-- A link gives up, and with it a router of which two or more links have given up (R148, R151). -/
def State.meshLinkDown (s : State) (l : Nat) (reverse : Bool) (replays : Nat) : State :=
  let s := s.linkGivesUp l reverse replays
  let e := linkEnds l
  s.each [e.1, e.2.1] fun s r => if 2 ≤ ((linksOf r).filter s.gaveUp).length then s.routerFails r else s

/-! ## What a link receives -/

/-- What a receiver does with what arrived (R147, R148): the link's state, the counter it bumps, and whether the link gives
up: one number has been replayed 4 times and fails again, or more than 1,024 flits or bursts have been discarded within 1 ms.
The millisecond is counted from its first discard on, and starts anew with the first discard after it; while a replay is
awaited, a flit or burst of another number is discarded without counting in `lone_bursts` or `replays` (log entry 76). -/
def LinkDir.receive (x : LinkDir) (stitch : Bool) (now : Nat) (bursts : List Burst) (crcOk : Bool) :
    LinkDir × Option Nat × Bool :=
  match hear stitch x.expect bursts crcOk with
  | .accept => ({ x with expect := x.expect + 1, next := x.expect + 1, replays := 0, awaiting := false }, none, false)
  | h =>
    let fresh := decide (x.winStart + 1000000 ≤ now)
    let disc := (if fresh then 0 else x.discards) + bursts.length
    let y := { x with discards := disc, winStart := if fresh then now else x.winStart }
    if x.awaiting && (bursts.all fun b => b.seq != x.expect) then (y, none, decide (1024 < disc))
    else if 4 ≤ x.replays then (y, some (if h = .lone then K.loneBursts else K.replays), true)
    else ({ y with awaiting := true, replays := y.replays + 1 }, some (if h = .lone then K.loneBursts else K.replays),
      decide (1024 < disc))

/-- FLIT_RECEIVE (R146-R148): a router link, or a neighbour link (`nbr`), accepts the flit, or discards it, counts the
failure, asks for a replay, or gives up. -/
def execFlitReceive (l : LinkId) (d : LinkWay) (bursts : List Burst) (crcOk : Bool) (s : State) : Out :=
  let nbr := d.nbr
  let reverse := d.reverse
  let d := (if nbr then 4660 else 0) + 2 * l.val + b2n reverse
  if (if nbr then (s.link d).dead else s.linkByte l.val != 0) then .next s
  else
    let r := (s.link d).receive (isStitch l.val) s.time bursts crcOk
    let s := s.setLink d (if nbr then { r.1 with dead := r.2.2 } else r.1)
    let s := match r.2.1 with
      | some k => s.bump k 64 1
      | none => s
    .next (if r.2.2 && !nbr then s.meshLinkDown l.val reverse r.1.replays else s)

/-- REPLAY_REQUEST (R147): the sender goes back to the named sequence number. -/
def execReplayRequest (l : LinkId) (d : LinkWay) (seq : BitVec 8) (s : State) : Out :=
  let nbr := d.nbr
  let d := (if nbr then 4660 else 0) + 2 * l.val + b2n d.reverse
  .next (if (if nbr then (s.link d).dead else s.linkByte l.val != 0) then s else s.setLink d { s.link d with next := seq })

/-- ROUTER_FAIL (R151). -/
def execRouterFail (r : CoreId) (s : State) : Out := .next (s.routerFails r)

/-! ## Routing -/

/-- A VC0 flit whose output has failed turns to the other dimension (R148). -/
def turned (r port dy dx : Nat) : Nat :=
  if port % 2 = 1 then (if yOf r < dy then 0 else if dy < yOf r then 2 else if yOf r < 29 then 0 else 2)
  else (if xOf r < dx then 1 else if dx < xOf r then 3 else if xOf r < 39 then 1 else 3)

/-- Send a packet out of a port of router r: to the adjacent router, or lost when the link or that router has failed. A VC0
flit takes the replays of the link with it (R136). -/
def State.sendOut (s : State) (r port : Nat) (p : Packet) : State :=
  match stepTo r port, linkAt r port with
  | some d, some l =>
    if s.linkByte l ≠ 0 then s.dropFailed p
    else if p.vc = 0 then
      s.inject d (oppPort port) { p with replays := p.replays + (s.link (2 * l + b2n (decide (d < r)))).replays }
    else s.inject d (oppPort port) p
  | _, _ => s.dropFailed p

/-- Send a VC0 flit out of a port, or, when that output has failed, in the other dimension (R148). -/
def State.sendVc0 (s : State) (r port : Nat) (p : Packet) : State :=
  match linkAt r port with
  | some l => if s.linkByte l = 0 then s.sendOut r port p else s.sendOut r (turned r port p.dstY p.dstX) p
  | none => s.sendOut r (turned r port p.dstY p.dstX) p

/-- The destination counts a VC0 flit that met more than one replay on its path (R136). -/
def State.noteLate (s : State) (p : Packet) : State := if p.vc = 0 ∧ 2 ≤ p.replays then s.bump K.vc0Late 64 1 else s

/-- The answer to a request: a response or completion back to its source, with a status (R131). -/
def answerTo (p : Packet) (kind status : Nat) (payload : List Byte) (poison : Bool) : Packet :=
  { p with
    kind := kind, dstX := p.srcX, dstY := p.srcY, dstPanel := p.srcPanel, dstLogical := p.srcLogical,
    srcX := p.dstX, srcY := p.dstY, srcPanel := p.dstPanel, srcLogical := p.dstLogical,
    status := status, payload := payload, poison := poison, detour := false }

/-- A unicast packet at its destination router: refused or discarded for a fenced core (R149) or a stale data address
(R132), otherwise handed to the core. A packet of another instance is no core's to consume (R19), and neither is a
draft-token message, which its command takes to a selector (R314); it is counted with the stale ones (log entry 17). -/
def State.deliver (s : State) (r : Nat) (p : Packet) : State :=
  let k := s.core r
  if k.fenced then
    if p.isRequest then s.inject r portL (answerTo p 6 3 [] false) else s.bump K.fencedDrops 64 1
  else if !k.holds p.dstPanel p.dstLogical then
    if p.isRequest then s.inject r portL (answerTo p 6 4 [] false) else s.bump K.staleDrops 64 1
  else if p.isRequest then s.setCore r { k with rqIn := k.rqIn ++ [p] }
  else if p.kind = 5 ∨ (p.inst ≠ k.logInst ∧ p.inst ≠ 15) then s.bump K.staleDrops 64 1
  else s.setCore r { k with rqResp := k.rqResp ++ [p] }

/-- Forward a unicast packet one hop. -/
def State.forward (s : State) (r : Nat) (p : Packet) : State :=
  if idxOf p.dstX p.dstY = r then s.deliver r p
  else
    let h := s.hop r p.dstX p.dstY p.vc p.detour
    let p := { p with detour := h.2 }
    if p.vc = 0 then s.sendVc0 r h.1 p else s.sendOut r h.1 p

/-- The tree entry that a packet names, when it is valid, of the packet's instance and of the packet kind's mode. R142 names
the first two; a packet whose kind does not fit the entry's mode is treated alike (log entry 76). -/
def State.treeFor (s : State) (r : Nat) (p : Packet) (mode : Nat) : Option Nat :=
  let e := mapGet (fun _ => 0) (s.router r).tree p.group
  if bit e 19 && bits e 18 15 == p.inst && bits e 14 13 == mode then some e else none

/-- Deliver a multicast packet at a core's L port (R143, R149, R227). -/
def State.deliverTree (s : State) (r : Nat) (p : Packet) : State :=
  let k := s.core r
  if k.fenced then s.bump K.fencedDrops 64 1
  else if k.logInst ≠ p.inst then s.bump K.staleDrops 64 1
  else if bits p.addr 23 22 = 3 then s.setCore r { k with candIn := k.candIn ++ [p] }
  else s.setCore r { k with mcIn := k.mcIn ++ [p] }

/-- A packet along a tree at one router (R142-R144, R243). A tack arrival enters at the port of the router that sent it, even
when it came around a failed link (R148). -/
def State.treePacket (s : State) (r port : Nat) (p : Packet) : State :=
  match s.treeFor r p (if p.kind = 3 then 0 else if p.kind = 4 then 1 else 2) with
  | none => s.bump K.staleDrops 64 1
  | some e =>
    if p.kind = 3 then
      let s := s.each ((List.range 4).filter fun o => bit e o) fun s o => s.sendOut r o p
      if bit e 4 then s.deliverTree r p else s
    else if p.kind = 4 then
      s.modRouter r fun x => { x with red := mapMod (fun _ => []) x.red p.group fun l => l ++ [(port, p)] }
    else (s.noteLate p).modRouter r fun x => { x with tackIn := x.tackIn ++ [(portToward r (idxOf p.srcX p.srcY)).getD port] }

/-- The packet a router forwards next: the oldest of the lowest waiting channel (R135). -/
def nextPacket (l : List (Nat × Packet)) : Option (Nat × Packet) :=
  let vcs := [0, 1, 2, 3].filterMap fun v => l.find? fun x => x.2.vc == v
  vcs.head?

/-- PACKET_ROUTE (R130-R133, R142, R148-R150): a router forwards one packet by one hop, or discards it. -/
def execPacketRoute (r : CoreId) (s : State) : Out :=
  let x := s.router r.val
  match (if x.failed then none else nextPacket x.inq) with
  | none => .next s
  | some (port, p) =>
    let s := s.setRouter r.val { x with inq := x.inq.erase (port, p) }
    .next (if p.kind = 3 ∨ p.kind = 4 ∨ (p.kind = 7 ∧ (port = portL ∨ idxOf p.dstX p.dstY = r.val)) then
        s.treePacket r.val port p
      else s.forward r.val p)

/-! ## Deliveries -/

/-- Store bytes that carry poison: the words they touch read poisoned from then on (R111). -/
def Core.storeP (k : Core) (a : Nat) (bs : List Byte) (poison : Bool) : Core :=
  let k := k.store a bs
  if poison then
    { k with poison := (wordsOf a bs.length).foldl (fun m w => mapSet (fun _ => false) m w true) k.poison } else k

/-- MULTICAST_DELIVERY (R143, R215): write the payload into the core's window and count the packet; without a free
arrival counter the packet is discarded. -/
def execMulticastDelivery (r : CoreId) (s : State) : Out :=
  let k := s.core r.val
  match k.mcIn with
  | [] => .next s
  | p :: rest =>
    let k := { k with mcIn := rest }
    let ps := if p.payload.isEmpty then some [] else k.either p.addr p.payload.length true
    match k.countArrival p.group p.tag (p.taint || p.poison) (if ps.isSome then 0 else 1) with
    | none => .next ((s.setCore r.val k).bump K.arrivalDrops 64 1)
    | some k1 =>
      .next ((s.setCore r.val ((ps.getD []).foldl (fun k a => k.storeP a p.payload p.poison) k1)).portUse r.val none 0
        ((ps.getD []).map fun a => ⟨dataPort a, true, a, p.payload.length⟩))

/-- The ports of an `in_mask`, in the fixed order L, N, E, S, W (R144). -/
def redPorts (e : Nat) : List Nat := [4, 0, 1, 2, 3].filter fun p => bit (bits e 9 5) p

/-- The first contribution waiting from each port, in port order; none until all are there. -/
def firstOf (l : List (Nat × Packet)) : List Nat → Option (List Packet)
  | [] => some []
  | p :: ps =>
    match l.find? fun x => x.1 == p, firstOf l ps with
    | some x, some r => some (x.2 :: r)
    | _, _ => none

/-- Element c of a contribution. -/
def redElem (p : Packet) (c : Nat) : Int := signedAt 64 (leAt p.payload (8 * c) 8)

/-- Add one element over the inputs; a sum that would leave 64 bits freezes it (R145). -/
def redAdd (sum : Int) : List Int → Int × Bool
  | [] => (sum, false)
  | v :: vs =>
    let t := sum + v
    if t < -(2 ^ 63) ∨ 2 ^ 63 ≤ t then (sum, true) else redAdd t vs

/-- The combined contribution: sums, masks, and the columns that overflowed here (R144, R145). -/
def redCombine (ins : List Packet) : List Int × Word64 × Word64 × List Nat :=
  let cols := (List.range 64).map fun c => redAdd 0 (ins.map fun p => redElem p c)
  let past := (List.range 64).filter fun c => ((cols.getD c (0, false)).2)
  let exc := if ins.any (·.poison) then BitVec.allOnes 64 else ins.foldl (fun m p => m ||| p.excMask) 0
  let ovf := ins.foldl (fun m p => m ||| p.ovfMask) (BitVec.ofNat 64 (pack (past.map fun c => (1, c))))
  (cols.map (·.1), exc, ovf, past)

/-- Remove the contributions used, one per port. -/
def useUp (l : List (Nat × Packet)) : List Nat → List (Nat × Packet)
  | [] => l
  | p :: ps =>
    match l.find? fun x => x.1 == p with
    | some x => useUp (l.erase x) ps
    | none => useUp l ps

/-- REDUCTION_COMBINE (R144, R145): with one contribution on every input port, add them exactly and send one on
`red_out`; at the root the reserved entry receives the sum. -/
def execReductionCombine (r : CoreId) (group : Fin 64) (s : State) : Out :=
  let x := s.router r.val
  let e := mapGet (fun _ => 0) x.tree group.val
  let l := mapGet (fun _ => []) x.red group.val
  let out := bits e 12 10
  let root := out == 4
  let k := s.core r.val
  let slot := k.redWait.find? fun w => w.1 == group.val
  if !bit e 19 || bits e 14 13 != 1 || redPorts e == [] || (root && slot.isNone) then .next s
  else
    match firstOf l (redPorts e) with
    | some (p0 :: ps) =>
      let (sums, exc, ovf, past) := redCombine (p0 :: ps)
      let s := s.setRouter r.val { x with red := mapSet (fun _ => []) x.red group.val (useUp l (redPorts e)) }
      let s := match past with
        | [] => s
        | c :: _ => (s.bump K.redOverflows 64 past.length).logDev p0.inst
            (fabricRec 0xD 0 (xOf r.val) (yOf r.val) out group.val c 0)
      match (if root then slot else none) with
      | some w =>
        let set : List Bolt := sums.zipIdx.map fun v =>
          { value := BitVec.ofInt 64 v.1, exc := exc.getLsbD v.2, ovf := ovf.getLsbD v.2 }
        .next (s.modCore r.val fun k => { k with redWait := k.redWait.erase w }.post w.2.1 w.2.2 (.bolts (some set)))
      | none =>
        let p := { p0 with
          payload := sums.flatMap fun v => leBytes 8 (unsignedAt 64 v), excMask := exc, ovfMask := ovf,
          poison := (p0 :: ps).any (·.poison) }
        .next (if out < 4 then s.sendOut r.val out p else s)
    | _ => .next s

/-! ## Remote requests -/

/-- REMOTE_REQUEST (R109): the target checks instance and hem window, then serves or refuses. The L port of a fenced core is
closed: it answers nothing (R149). -/
def execRemoteRequest (c : CoreId) (s : State) : Out :=
  let k := s.core c.val
  match (if k.fenced then [] else k.rqIn) with
  | [] => .next s
  | p :: rest =>
    let k := { k with rqIn := rest }
    match k.remoteAt p.inst p.addr p.length with
    | none => .next ((s.setCore c.val k).inject c.val portL (answerTo p 6 1 [] false))
    | some a =>
      if p.kind = 1 then
        let bad := k.poisoned a p.length
        .next ((((s.setCore c.val (k.readFix a p.length)).noteUncorr c.val 6 bad).inject c.val portL
          (answerTo p 2 0 (k.bytesAt a p.length) (!bad.isEmpty))).portUse c.val none 0 [⟨6, false, a, p.length⟩])
      else .next (((s.setCore c.val (k.storeP a p.payload p.poison)).inject c.val portL (answerTo p 6 0 [] p.poison)).portUse
        c.val none 0 [⟨6, true, a, p.payload.length⟩])

/-- REMOTE_RESPONSE (R155, R217): post the request's entry, with the data of a read written first; a late response is
discarded. -/
def execRemoteResponse (c : CoreId) (s : State) : Out :=
  let k := s.core c.val
  match k.rqResp with
  | [] => .next s
  | p :: rest =>
    let k := { k with rqResp := rest }
    let s := s.setCore c.val k
    match k.rqOut.find? fun r => r.rid == p.rid with
    | none => .next (s.bump K.lateResponses 64 1)
    | some r =>
      let ok := p.status == 0
      let s := if r.isGet && ok then
          (s.setCore c.val (k.storeP r.lAddr p.payload p.poison)).portUse c.val (some (r.q, r.id)) 0
            [⟨7, true, r.lAddr, p.payload.length⟩]
        else s
      .next (s.endRequest c.val r.rid (if ok && p.poison then 8 else p.status) (if ok then r.length else 0))

/-- RQ_TIMEOUT (R154, R155): a VC2 request, or the far-core transfer at the head of a DMA channel, ends with the timeout
status. -/
def execRqTimeout (c : CoreId) (what : RqWhat) (s : State) : Out :=
  let k := s.core c.val
  match what with
  | .request rid =>
    if k.rqOut.any fun r => r.rid == rid then .next (s.endRequest c.val rid 5 0) else .next s
  | .channel ch =>
    match mapGet (fun _ => []) k.dma ch.val with
    | d :: _ =>
      if (d.op = 0 ∧ d.srcSpace = 3) ∨ (d.op < 2 ∧ d.dstSpace = 3) then .next (s.dmaEnd c.val ch.val d 5 0 0)
      else .next s
    | [] => .next s

/-- NEIGHBOR_REFUSAL (R216): a refusal arrives back; the requester traps at its next instruction. -/
def execNeighborRefusal (c : CoreId) (s : State) : Out :=
  .next (s.modCore c.val fun k =>
    match k.nbrComing with
    | r :: rest => { k with nbrComing := rest, nbrArrived := k.nbrArrived ++ [r] }
    | [] => k)

/-! ## Candidates -/

/-- Candidates of a packet. -/
def candsOf (p : Packet) : List (Nat × Nat) :=
  (List.range (p.payload.length / 8)).map fun i => (leAt p.payload (8 * i) 4, leAt p.payload (8 * i + 4) 4)

/-- CANDIDATE_MERGE (R215, R227, R228): the selector merges a candidate packet into its slot's entry; a full merge buffer, or
a core that is not the selector, discards it. The packet is counted toward its arrival once merged; without a free arrival
counter it is discarded. -/
def execCandidateMerge (c : CoreId) (s : State) : Out :=
  let k := s.core c.val
  match k.candIn with
  | [] => .next s
  | p :: rest =>
    let k := { k with candIn := rest }
    let known := k.merge.any fun b => b.slot == p.tag
    let drop := !k.selector || (!known && decide (64 ≤ k.merge.length))
    match k.countArrival p.group p.tag p.taint (if drop then 8 else 0) with
    | none => .next ((s.setCore c.val k).bump K.arrivalDrops 64 1)
    | some k =>
      if drop then .next ((s.setCore c.val k).bump K.candDrops 64 1)
      else
        let b := k.mergeOf p.tag
        let b := { b with cands := candMerge 256 b.cands (candsOf p), taint := b.taint || p.taint }
        .next (s.setCore c.val { k with merge := (k.merge.filter fun b => b.slot != p.tag) ++ [b] })

end Sys2Proof.Machine
end

