-- ==== Sys2Proof/Machine/Pages.lean ====
section
/-! DEFINITION. The page pool of an instance, the page lists and the swap areas (R255-R257, R263-R265, R273-R277,
R367), and the end of a sequence (R281, R282). -/

namespace Sys2Proof.Machine

/-! ## Geometry (R258) -/

/-- Tokens per page T. -/
def State.pageTokens (s : State) (i : Nat) : Nat := 2 ^ (4 + bits (s.rd (K.kvGeometry i)) 2 0)
/-- Layer groups of the model; entries of a page list per T tokens. -/
def State.pageGroups (s : State) (i : Nat) : Nat := bits (s.rd (K.kvGeometry i)) 47 32

/-! ## The serving queue table (log entry 20) -/

/-- Bytes of one plan buffer: header, 8,192 rows, 8,192 sample-slot entries (R300). -/
def planBytes : Nat := 64 + 8192 * 32 + 8192 * 8
/-- Bytes of the serving queue table: two plan buffers, then a U64 page-list address per sequence index. -/
def queueTableBytes : Nat := 2 * planBytes + 65536 * 8
/-- Bytes kept for page lists after the queue table (log entry 20). -/
def State.listAreaBytes (s : State) (i : Nat) : Nat := 2 ^ 26 * (s.stacksOf i).length
/-- First byte of the page-list area. -/
def State.listArea (s : State) (i : Nat) : Nat := (s.inst i).queueBase + queueTableBytes

/-! ## Page lists (R263, R264) -/

/-- Entry x of a sequence's page list. -/
def State.pageEntry (s : State) (q x : Nat) : Nat :=
  leNat (s.hbmRead (s.seq q).inst ((s.seq q).listAddr + 4 * x) 4)
/-- Write entry x of a sequence's page list. -/
def State.setPageEntry (s : State) (q x v : Nat) : State :=
  s.hbmWrite (s.seq q).inst ((s.seq q).listAddr + 4 * x) (leBytes 4 v)

/-- The entry is `valid`; `host`; `zero_pending`; `pinned`. -/
def peValid (e : Nat) : Bool := bit e 31
def peHost (e : Nat) : Bool := bit e 28
def pePinned (e : Nat) : Bool := bit e 30
/-- Page number or swap slot of an entry. -/
def pePage (e : Nat) : Nat := bits e 23 0
/-- A resident page. -/
def peResident (e : Nat) : Bool := peValid e && !peHost e

/-- Indices of a sequence's entries that satisfy a test. -/
def State.entriesWhere (s : State) (q : Nat) (ok : Nat → Bool) : List Nat :=
  (List.range (s.seq q).listLen).filter fun x => ok (s.pageEntry q x)

/-- First token of the block that entry x covers. -/
def State.entryToken (s : State) (q x : Nat) : Nat :=
  s.pageTokens (s.seq q).inst * (x / s.pageGroups (s.seq q).inst)

/-- Where a page list of n entries can be placed (R299): the lowest 64-byte boundary of the list area clear of every
other list. -/
def State.placeList (s : State) (i n : Nat) : Option Nat :=
  let len := 64 * ceilDiv (4 * n) 64
  let used := (s.seqs.filter fun p => p.2.inst == i && decide (0 < p.2.listLen)).map fun p =>
    (p.2.listAddr, 64 * ceilDiv (4 * p.2.listLen) 64)
  let starts := s.listArea i :: used.map fun u => u.1 + u.2
  let free := starts.filter fun a => decide (a + len ≤ s.listArea i + s.listAreaBytes i) &&
    used.all fun u => decide (a + len ≤ u.1) || decide (u.1 + u.2 ≤ a)
  match free with
  | [] => none
  | a :: t => some (t.foldl min a)

/-! ## The pool (R255-R257) -/

/-- A page's state: 0 free; 1 + slot while held; 1000 while zeroed; 1001 + slot while zeroed in a slot's teardown. -/
def State.pageUse (s : State) (i n : Nat) : Nat := mapGet (fun _ => 0) (s.inst i).pages n
/-- Set a page's state. -/
def State.setPageUse (s : State) (i n v : Nat) : State :=
  s.modInst i fun x => { x with pages := mapSet (fun _ => 0) x.pages n v }
/-- Pages on free lists (R257: pages being zeroed are not free). -/
def State.poolFree (s : State) (i : Nat) : Nat := s.rd (K.poolPages i) - (s.inst i).pages.length
/-- Pages being zeroed. -/
def State.poolZeroing (s : State) (i : Nat) : Nat := ((s.inst i).pages.filter fun p => decide (1000 ≤ p.2)).length
/-- HBM byte address of a page (R255). -/
def State.pageAddr (s : State) (i n : Nat) : Nat := (s.inst i).poolBase + 65536 * n
/-- Pages that a slot's sequences hold in HBM, in all instances (R367). -/
def State.slotPages (s : State) (slot : Nat) : Nat :=
  (s.insts.map fun p => (p.2.pages.filter fun x => x.2 == 1 + slot).length).sum
/-- Pages still to be zeroed in a slot's teardown (R357). -/
def State.slotPagesZeroing (s : State) (slot : Nat) : Nat :=
  (s.insts.map fun p => (p.2.pages.filter fun x => x.2 == 1001 + slot).length).sum

/-- The lowest-numbered free page of stack k of the instance's S stacks (log entry 21). -/
def State.freeInStack (s : State) (i k : Nat) : Option Nat :=
  let n := (s.stacksOf i).length
  let first := (k + n - (s.inst i).poolBase / 65536 % n) % n
  ((List.range ((s.inst i).pages.length + 1)).map fun j => first + n * j).find? fun p =>
    decide (p < s.rd (K.poolPages i)) && s.pageUse i p == 0

/-- The next page for a sequence whose search starts at stack k, with the stack where the following search starts
(R256). -/
def State.takePage (s : State) (i k : Nat) : Option (Nat × Nat) :=
  let n := (s.stacksOf i).length
  (List.range n).findSome? fun d => (s.freeInStack i ((k + d) % n)).map fun p => (p, (k + d + 1) % n)

/-- Allocate a page to entry x of sequence q, in the slot's name; none when no page is free. -/
def State.allocEntry (s : State) (q _x : Nat) : Option (State × Nat) :=
  let r := s.seq q
  match s.takePage r.inst r.nextStack with
  | none => none
  | some (p, k) => some ((s.setPageUse r.inst p (1 + r.slot)).setSeq q { r with nextStack := k }, p)

/-- Entries of sequence q's page list that tokens below `upto` need and that are not valid. -/
def State.missing (s : State) (q upto : Nat) : List Nat :=
  let r := s.seq q
  let top := Nat.min r.listLen (ceilDiv upto (s.pageTokens r.inst) * s.pageGroups r.inst)
  (List.range top).filter fun x => !peValid (s.pageEntry q x)

/-- Pages for every block of sequence q below `upto` tokens, in every layer group, pinned where the prefix covers them
(R264, R265); none when the pool or the slot's quota does not allow it (R277, R367). -/
def State.allocUpTo (s : State) (q upto : Nat) : Option State :=
  let r := s.seq q
  let need := s.missing q upto
  if need = [] then some s
  else if s.rd (K.pageQuota r.slot) < s.slotPages r.slot + need.length ∨ s.poolFree r.inst < need.length then none
  else need.foldl (fun o x => o.bind fun s => (s.allocEntry q x).map fun y =>
    let s := y.1
    let p := y.2
    s.setPageEntry q x (p + 2 ^ 31 + if s.entryToken q x < r.pinnedLen then 2 ^ 30 else 0)) (some s)

/-- What a page of a sequence becomes when released: in a slot's teardown it is counted there (R357). -/
def releasedUse (slot : Nat) (teardown : Bool) : Nat := if teardown then 1001 + slot else 1000

/-- Release the resident page of entry x (R257, R264): the entry is `zero_pending` until the page is zero. -/
def State.releaseEntry (s : State) (q x : Nat) (teardown : Bool) : State :=
  let r := s.seq q
  let p := pePage (s.pageEntry q x)
  (s.setPageUse r.inst p (releasedUse r.slot teardown)).setPageEntry q x (2 ^ 29 + p)

/-- Release the unpinned resident pages lying wholly beyond a length (R278, R279). -/
def State.releaseBeyond (s : State) (q len : Nat) : State :=
  s.each ((List.range (s.seq q).listLen).filter fun x =>
    decide (len ≤ s.entryToken q x) && peResident (s.pageEntry q x) && !pePinned (s.pageEntry q x)) fun s x =>
      s.releaseEntry q x false

/-! ## Swap slots (R274-R276, R367) -/

/-- A swap slot's state: 0 free; 1 + sequence index in use; 2^20 while zeroed; 2^20 + 1 while zeroed in a teardown. -/
def State.swapUse (s : State) (slot n : Nat) : Nat := mapGet (fun _ => 0) (s.slot slot).swap n
/-- Set a swap slot's state. -/
def State.setSwapUse (s : State) (slot n v : Nat) : State :=
  s.modSlot slot fun x => { x with swap := mapSet (fun _ => 0) x.swap n v }
/-- Swap slots of a tenant in use. -/
def State.swapInUse (s : State) (slot : Nat) : Nat := ((s.slot slot).swap.filter fun p => decide (p.2 < 2 ^ 20)).length
/-- Swap slots still to be zeroed in a teardown. -/
def State.swapZeroing (s : State) (slot : Nat) : Nat := ((s.slot slot).swap.filter fun p => p.2 == 2 ^ 20 + 1).length
/-- The first n free swap slots of a tenant; fewer when it has fewer. -/
def State.freeSwap (s : State) (slot n : Nat) : List Nat :=
  ((List.range (Nat.min (s.rd (K.swapSlots slot)) (n + (s.slot slot).swap.length))).filter fun x =>
    s.swapUse slot x == 0).take n
/-- The place of a swap slot in host memory (R367, R378). -/
def State.swapRef (s : State) (slot n : Nat) : Option HostRef :=
  s.devRef (s.rd (K.swapBase slot) + 65536 * n) 65536 fun w => w.role == 3 && w.owner == slot

/-! ## Hot slots (R271) -/

/-- The sequence holds no hot slot any more. -/
def State.freeHot (s : State) (q : Nat) : State :=
  let r := s.seq q
  match r.hot with
  | none => s
  | some h => (s.modInst r.inst fun x => { x with hot := mapSet (fun _ => 0) x.hot h 0 }).setSeq q { r with hot := none }

/-! ## Sequences (R281, R282) -/

/-- A sequence's handle. -/
def State.handleOf (s : State) (q : Nat) : Nat := q + 65536 * (s.seq q).gen
/-- Live sequences of an instance. -/
def State.liveIn (s : State) (i : Nat) : Nat :=
  (s.seqs.filter fun p => p.2.inst == i && decide (p.2.state ≠ .free)).length
/-- Live sequences of the device. -/
def State.liveAll (s : State) : Nat := (s.seqs.filter fun p => decide (p.2.state ≠ .free)).length
/-- The lowest free sequence index (log entry 21). -/
def State.freeSeq (s : State) : Option Nat :=
  (List.range (Nat.min 65536 (s.seqs.length + 1))).find? fun q => decide ((s.seq q).state = .free)

/-- Give a new sequence its index, record and page list (R282, R284, R299); none when one of them has no place. -/
def State.newSeq (s : State) (i slot maxContext pinned : Nat) : Option (State × Nat) :=
  let n := ceilDiv maxContext (s.pageTokens i) * s.pageGroups i
  match s.freeSeq, s.placeList i n with
  | some q, some a =>
    let s := s.setSeq q { state := .active, gen := (s.seq q).gen, slot := slot, inst := i, maxContext := maxContext,
                          pinnedLen := pinned, listAddr := a, listLen := n, lastStep := s.time }
    some (s.hbmWrite i ((s.inst i).queueBase + 2 * planBytes + 8 * q) (leBytes 8 a), q)
  | _, _ => none

/-- The payload of a draft-token message (R314). -/
def draftBytes (msg target draft base : Nat) (tokens : List Nat) : List Byte :=
  leBytes 128 (pack ([(msg, 0), (target, 8), (draft, 40), (base, 72), (tokens.length, 104)] ++
    tokens.zipIdx.map fun p => (p.1 % 2 ^ 32, 108 + 32 * p.2)))

/-- Send a draft-token message about a sequence and its partner (R314). -/
def State.sendDraft (s : State) (q p msg base : Nat) (tokens : List Nat) : State :=
  let t := if (s.seq q).isDraft then p else q
  let d := if (s.seq q).isDraft then q else p
  s.send (chanDraft (s.seq q).inst) (draftBytes msg (s.handleOf t) (s.handleOf d) base tokens)

/-- A sequence ends (R281, R288, R356): its pages and swap slots are released to be zeroed, copies under way are
abandoned, its page list and record are zeroed, and its handle's generation rises. -/
def State.endSeq (s : State) (q : Nat) (teardown : Bool) : State :=
  let r := s.seq q
  if r.state = .free then s
  else
    let use := releasedUse r.slot teardown
    let swapped := if teardown then 2 ^ 20 + 1 else 2 ^ 20
    let pages := (s.entriesWhere q peResident).map (fun x => pePage (s.pageEntry q x)) ++
      (if r.movingOut then [] else r.moving.map fun m => m.2.2)
    let swaps := (s.entriesWhere q fun e => peValid e && peHost e).map (fun x => pePage (s.pageEntry q x)) ++
      (if r.movingOut then r.moving.map fun m => m.2.1 else [])
    let s := s.each pages fun s p => s.setPageUse r.inst p use
    let s := s.each swaps fun s p => s.setSwapUse r.slot p swapped
    let s := match r.pair with
      | some p => s.sendDraft q p 3 0 []
      | none => s
    let s := s.hbmClear r.inst r.listAddr (4 * r.listLen)
    let s := s.hbmClear r.inst ((s.inst r.inst).queueBase + 2 * planBytes + 8 * q) 8
    (s.freeHot q).setSeq q { gen := (r.gen + 1) % 65536 }

/-- PAGE_ZERO_DONE (R257): the page is zero and returns to its stack's free list; the entry that named it becomes all
zero (R264). -/
def execPageZeroDone (i : InstId) (page : Nat) (s : State) : Out :=
  if s.pageUse i page < 1000 then .next s
  else
    let s := (s.hbmZeroPage i (s.pageAddr i page)).setPageUse i page 0
    .next (s.each ((s.seqs.filter fun p => p.2.inst == i.val).map (·.1)) fun s q =>
      s.each (s.entriesWhere q fun e => e == 2 ^ 29 + page) fun s x => s.setPageEntry q x 0)

/-- SWAP_SLOT_ZERO_DONE (R356, R357): a swap slot is zero in host memory and free. -/
def execSwapSlotZeroDone (slot : SlotId) (swapSlot : Nat) (s : State) : Out :=
  if s.swapUse slot swapSlot < 2 ^ 20 then .next s
  else
    let s := match s.swapRef slot swapSlot with
      | some r => (s.hostWrite r (List.replicate 65536 0)).1
      | none => s
    .next (s.setSwapUse slot swapSlot 0)

end Sys2Proof.Machine
end

