-- ==== Sys2Proof/Machine/Scalar.lean ====
section
/-! DEFINITION. The scalar instructions ADD to SST (R171, R193, R194). -/

namespace Sys2Proof.Machine

/-- The second operand: the immediate when `ui` is 1 (R193). -/
def op2 (s : State) (k : Core) (f : ScalF) : Word :=
  if f.ui = 1#1 then f.imm32 else s.readReg k f.rs2.toNat

/-- Reserved and unused fields of a scalar instruction are zero and its specifiers are not reserved (R171, R187):
the operand not selected is 0. -/
def scalOk (f : ScalF) : Bool :=
  f.res == 0#1 && (if f.ui = 1#1 then f.rs2 == 0#6 else f.imm32 == 0#32) && specOk f.rs1.toNat && specOk f.rs2.toNat

/-- A compare names a predicate: p0 is privileged, any other register is illegal (R193). -/
def cmpDest (f : ScalF) : Bool := decide (0x30 ≤ f.rd.toNat) && decide (f.rd.toNat ≤ 0x37)

/-- Issue a scalar operation that writes `rd`. -/
def scalar (s : State) (c : CoreId) (g : Guard) (f : ScalF) (op : Nat) (ok : Bool) (fn : Word → Word → Word) : Out :=
  issueOut s c g op (scalOk f && ok && specOk f.rd.toNat) (!specWritable f.rd.toNat) [] fun k =>
    .done (s.setCore c (k.writeReg f.rd.toNat (fn (s.readReg k f.rs1.toNat) (op2 s k f))))

/-- A condition as a register value. -/
def boolWord (b : Bool) : Word := if b then 1#32 else 0#32

/-- ADD (R193). -/
def execAdd (c : CoreId) (g : Guard) (f : ScalF) (s : State) : Out := scalar s c g f 0x20 true fun a b => a + b
/-- SUB (R193). -/
def execSub (c : CoreId) (g : Guard) (f : ScalF) (s : State) : Out := scalar s c g f 0x21 true fun a b => a - b
/-- MUL (R193): bits [31:0] of the product. -/
def execMul (c : CoreId) (g : Guard) (f : ScalF) (s : State) : Out := scalar s c g f 0x22 true fun a b => a * b
/-- AND (R193). -/
def execAnd (c : CoreId) (g : Guard) (f : ScalF) (s : State) : Out := scalar s c g f 0x23 true fun a b => a &&& b
/-- OR (R193). -/
def execOr (c : CoreId) (g : Guard) (f : ScalF) (s : State) : Out := scalar s c g f 0x24 true fun a b => a ||| b
/-- XOR (R193). -/
def execXor (c : CoreId) (g : Guard) (f : ScalF) (s : State) : Out := scalar s c g f 0x25 true fun a b => a ^^^ b
/-- SHL (R193): by bits [4:0] of the second operand. -/
def execShl (c : CoreId) (g : Guard) (f : ScalF) (s : State) : Out :=
  scalar s c g f 0x26 true fun a b => a <<< (b.toNat % 32)
/-- SHR (R193): logical. -/
def execShr (c : CoreId) (g : Guard) (f : ScalF) (s : State) : Out :=
  scalar s c g f 0x27 true fun a b => a >>> (b.toNat % 32)
/-- SRA (R193): arithmetic. -/
def execSra (c : CoreId) (g : Guard) (f : ScalF) (s : State) : Out :=
  scalar s c g f 0x28 true fun a b => a.sshiftRight (b.toNat % 32)
/-- MIN (R193): signed. -/
def execMin (c : CoreId) (g : Guard) (f : ScalF) (s : State) : Out :=
  scalar s c g f 0x29 true fun a b => if b.slt a then b else a
/-- MAX (R193): signed. -/
def execMax (c : CoreId) (g : Guard) (f : ScalF) (s : State) : Out :=
  scalar s c g f 0x2A true fun a b => if a.slt b then b else a
/-- MINU (R193): unsigned. -/
def execMinu (c : CoreId) (g : Guard) (f : ScalF) (s : State) : Out :=
  scalar s c g f 0x2B true fun a b => if b.ult a then b else a
/-- MAXU (R193): unsigned. -/
def execMaxu (c : CoreId) (g : Guard) (f : ScalF) (s : State) : Out :=
  scalar s c g f 0x2C true fun a b => if a.ult b then b else a
/-- CMPEQ (R193). -/
def execCmpeq (c : CoreId) (g : Guard) (f : ScalF) (s : State) : Out :=
  scalar s c g f 0x2D (cmpDest f) fun a b => boolWord (a == b)
/-- CMPLT (R193): signed. -/
def execCmplt (c : CoreId) (g : Guard) (f : ScalF) (s : State) : Out :=
  scalar s c g f 0x2E (cmpDest f) fun a b => boolWord (a.slt b)
/-- CMPLTU (R193): unsigned. -/
def execCmpltu (c : CoreId) (g : Guard) (f : ScalF) (s : State) : Out :=
  scalar s c g f 0x2F (cmpDest f) fun a b => boolWord (a.ult b)
/-- MOV (R193): the second operand; `rs1` must be 0. -/
def execMov (c : CoreId) (g : Guard) (f : ScalF) (s : State) : Out :=
  scalar s c g f 0x30 (f.rs1 == 0#6) fun _ b => b

/-- Address of SLD and SST: the form of R194 (wide, 4-byte aligned) and the window of R108. -/
def Core.scalarAddr (k : Core) (a : Nat) : Option Nat := if a % 4 = 0 then k.wide a 4 else none

/-- The access of SLD or SST for the hazard detector. -/
def scalarAccess (k : Core) (a : Nat) (write : Bool) : List Access :=
  match k.scalarAddr a with
  | some p => [⟨4, write, p, 4⟩]
  | none => []

/-- SLD (R194): load a little-endian word; a poisoned word is counted and recorded, is not loaded, and raises trap
0x07 (R111). -/
def execSld (c : CoreId) (g : Guard) (f : ScalF) (s : State) : Out :=
  let a := (s.readReg (s.core c) f.rs1.toNat + f.imm32).toNat
  issueOut s c g 0x31
    (f.res == 0#1 && f.ui == 0#1 && f.rs2 == 0#6 && specOk f.rs1.toNat && specOk f.rd.toNat)
    (!specWritable f.rd.toNat) (scalarAccess (s.core c) a false) fun k =>
    match k.scalarAddr a with
    | none => .addr a
    | some p =>
      if k.poisoned p 4 ≠ [] then
        .trapIn ((s.fixRead c p 4).noteUncorr c 4 (k.poisoned p 4)) { code := 7, addr := a % 2 ^ 24 }
      else .done (s.setCore c ((k.readFix p 4).writeReg f.rd.toNat (BitVec.ofNat 32 (leNat (k.bytesAt p 4)))))

/-- SST (R194): store `rs2` as a little-endian word. -/
def execSst (c : CoreId) (g : Guard) (f : ScalF) (s : State) : Out :=
  let a := (s.readReg (s.core c) f.rs1.toNat + f.imm32).toNat
  issueOut s c g 0x32
    (f.res == 0#1 && f.ui == 0#1 && f.rd == 0#6 && specOk f.rs1.toNat && specOk f.rs2.toNat) false
    (scalarAccess (s.core c) a true) fun k =>
    match k.scalarAddr a with
    | none => .addr a
    | some p => .done (s.setCore c (k.store p (leBytes 4 (s.readReg k f.rs2.toNat).toNat)))

end Sys2Proof.Machine
end

