-- ==== Sys2Proof/Machine/Pattern.lean ====
section
/-! DEFINITION. The pattern image (R232-R246): its fields read from the bytes, and the loader's checks of it. -/

namespace Sys2Proof.Machine

/-! ## Fields of the image -/

/-- `v`, cores per panel (R232). -/
def patV (p : List Byte) : Nat := leAt p 12 2
/-- `panel_cols`, `panel_rows`. -/
def patCols (p : List Byte) : Nat := leAt p 14 1
def patRows (p : List Byte) : Nat := leAt p 15 1
/-- `layers`. -/
def patLayers (p : List Byte) : Nat := leAt p 16 2
/-- `code_blocks`. -/
def patBlocks (p : List Byte) : Nat := leAt p 18 2
/-- `tack_cycles_max`. -/
def patTackCycles (p : List Byte) : Nat := leAt p 20 4
/-- `passes_per_tack_max`. -/
def patPasses (p : List Byte) : Nat := leAt p 24 2
/-- Panels of the rectangle. -/
def patPanels (p : List Byte) : Nat := patCols p * patRows p

/-- Directory entries: type, offset, length (R233). -/
def patDir (p : List Byte) : List (Nat × Nat × Nat) :=
  (List.range (leAt p 10 2)).map fun j =>
    (leAt p (256 + 24 * j) 2, leAt p (256 + 24 * j + 8) 8, leAt p (256 + 24 * j + 16) 8)
/-- Offset and length of a section; length 0 where the image has none. -/
def patSec (p : List Byte) (t : Nat) : Nat × Nat :=
  match (patDir p).find? fun e => e.1 == t with
  | some e => e.2
  | none => (0, 0)
/-- Bytes of a section. -/
def patBytes (p : List Byte) (t : Nat) : List Byte := slice p (patSec p t).1 (patSec p t).2

/-- Offset of the GRID record of a logical core of a relative panel (R234). -/
def gridAt (p : List Byte) (r l : Nat) : Nat := (patSec p 1).1 + 16 * (r * patV p + l)
/-- Home as a local index 10y + x. -/
def gridHome (p : List Byte) (r l : Nat) : Nat := 10 * leAt p (gridAt p r l + 1) 1 + leAt p (gridAt p r l) 1
/-- Code block of a logical core. -/
def gridBlock (p : List Byte) (r l : Nat) : Nat := leAt p (gridAt p r l + 2) 2
/-- Neighbour word of a direction. -/
def gridNbr (p : List Byte) (r l d : Nat) : Nat := leAt p (gridAt p r l + 4 + 2 * d) 2
/-- The selector core. -/
def gridSelector (p : List Byte) (r l : Nat) : Bool := bit (leAt p (gridAt p r l + 12) 1) 0

/-- Offset of a CODE block record (R235). -/
def codeAt (p : List Byte) (b : Nat) : Nat := (patSec p 2).1 + 16 * b
def codeOffset (p : List Byte) (b : Nat) : Nat := leAt p (codeAt p b) 8
def codeLength (p : List Byte) (b : Nat) : Nat := leAt p (codeAt p b + 8) 4
def codeStart (p : List Byte) (b : Nat) : Nat := leAt p (codeAt p b + 12) 2
def codeStep (p : List Byte) (b : Nat) : Nat := leAt p (codeAt p b + 14) 2
/-- Word k of a block. -/
def codeWord (p : List Byte) (b k : Nat) : Nat := leAt p ((patSec p 2).1 + codeOffset p b + 8 * k) 8

/-- An allocation region (R237). -/
structure AllocRegion where
  group : Nat
  kind : Nat
  first : Nat
  count : Nat
  owner : Nat
  data : Nat
deriving DecidableEq, Repr

/-- An allocation record (R237). -/
structure Alloc where
  block : Nat
  narrow : Nat
  wide : Nat
  regions : List AllocRegion
  /-- byte 3, reserved -/
  res : Nat := 0
deriving DecidableEq, Repr

/-- The region record at a byte offset. -/
def allocRegion (p : List Byte) (o : Nat) : AllocRegion :=
  { group := leAt p o 1, kind := leAt p (o + 1) 1, first := leAt p (o + 2) 2, count := leAt p (o + 4) 2,
    owner := leAt p (o + 6) 2, data := leAt p (o + 8) 8 }

/-- The records of the ALLOC section from an offset on; the second result is the offset after the last one. -/
def allocFrom (p : List Byte) (stop : Nat) : Nat → Nat → List Alloc × Nat
  | 0, o => ([], o)
  | n + 1, o =>
    if stop < o + 8 then ([], o)
    else
      let k := leAt p (o + 2) 1
      let a : Alloc := { block := leAt p o 2, narrow := leAt p (o + 4) 2, wide := leAt p (o + 6) 2,
                         regions := (List.range k).map fun j => allocRegion p (o + 8 + 16 * j), res := leAt p (o + 3) 1 }
      let r := allocFrom p stop n (o + 8 + 16 * k)
      (a :: r.1, r.2)
/-- Allocation records of the pattern. -/
def allocs (p : List Byte) : List Alloc := (allocFrom p ((patSec p 3).1 + (patSec p 3).2) (patBlocks p) (patSec p 3).1).1
/-- Allocation of a block. -/
def allocOf (p : List Byte) (b : Nat) : Alloc := ((allocs p).find? fun a => a.block == b).getD ⟨b, 0, 0, [], 0⟩
/-- First granule of a block's RECIPE region. -/
def recipeGranule (p : List Byte) (b : Nat) : Nat :=
  (((allocOf p b).regions.find? fun r => r.kind == 2).map (·.first)).getD 0

/-- An HBM region record (R239). -/
structure HbmRegion where
  id : Nat
  kind : Nat
  align : Nat
  size : Nat
  data : Nat
  dataLen : Nat
deriving DecidableEq, Repr

/-- HBM region records. -/
def hbmRegions (p : List Byte) : List HbmRegion :=
  (List.range ((patSec p 4).2 / 32)).map fun j =>
    let o := (patSec p 4).1 + 32 * j
    { id := leAt p o 2, kind := leAt p (o + 2) 1, align := leAt p (o + 4) 4, size := leAt p (o + 8) 8,
      data := leAt p (o + 16) 8, dataLen := leAt p (o + 24) 8 }

/-- A tile record (R240). -/
structure TileRec where
  panel : Nat
  logical : Nat
  pos : Nat
  fmt : Nat
  tile : Nat
  blocks : Nat
  unit : Nat
  source : Nat
deriving DecidableEq, Repr

/-- Tile records. -/
def tileRecs (p : List Byte) : List TileRec :=
  (List.range ((patSec p 5).2 / 16)).map fun j =>
    let o := (patSec p 5).1 + 16 * j
    { panel := leAt p o 1, logical := leAt p (o + 1) 1, pos := leAt p (o + 2) 1, fmt := leAt p (o + 3) 1,
      tile := leAt p (o + 4) 2, blocks := leAt p (o + 6) 1, unit := leAt p (o + 8) 4, source := leAt p (o + 12) 4 }

/-- The TDESC of a record, not yet valid, without its golden address. -/
def TileRec.desc (t : TileRec) : Nat := t.fmt + 8 * t.blocks + 1024 * t.unit

/-- Recipe entry of a layer and variant (R85). -/
def patRecipe (p : List Byte) (layer v : Nat) : Nat := leAt p ((patSec p 6).1 + 8 * (4 * layer + v)) 8

/-- A tree record (R241). -/
structure TreeRec where
  group : Nat
  mode : Nat
  root : Nat
  members : List Nat
deriving DecidableEq, Repr

/-- Tree records from an offset on, and the offset after the last. -/
def treesFrom (p : List Byte) (stop : Nat) : Nat → Nat → List TreeRec × Nat
  | 0, o => ([], o)
  | n + 1, o =>
    if stop < o + 8 then ([], o)
    else
      let k := leAt p (o + 4) 2
      let t : TreeRec := { group := leAt p o 1, mode := leAt p (o + 1) 1, root := leAt p (o + 2) 2,
                           members := (List.range k).map fun j => leAt p (o + 8 + 2 * j) 2 }
      let r := treesFrom p stop n (o + 8 + 8 * ceilDiv (2 * k) 8)
      (t :: r.1, r.2)
/-- The zero padding after the members of every record from an offset on (R241). -/
def treePadOk (p : List Byte) (stop : Nat) : Nat → Nat → Bool
  | 0, _ => true
  | n + 1, o =>
    if stop < o + 8 then true
    else
      let k := leAt p (o + 4) 2
      (slice p (o + 8 + 2 * k) (8 * ceilDiv (2 * k) 8 - 2 * k)).all (· == 0) &&
        treePadOk p stop n (o + 8 + 8 * ceilDiv (2 * k) 8)
/-- Tree records. -/
def trees (p : List Byte) : List TreeRec :=
  (treesFrom p ((patSec p 7).1 + (patSec p 7).2) (patSec p 7).2 (patSec p 7).1).1

/-- A patch record (R244). -/
structure Patch where
  target : Nat
  field : Nat
  kind : Nat
  shift : Nat
  place : Nat
  arg : Nat
  offset : Nat
  addend : Int
deriving DecidableEq, Repr

/-- Patch records. -/
def patches (p : List Byte) : List Patch :=
  (List.range ((patSec p 8).2 / 16)).map fun j =>
    let o := (patSec p 8).1 + 16 * j
    { target := leAt p o 1, field := leAt p (o + 1) 1, kind := leAt p (o + 2) 1, shift := leAt p (o + 3) 1,
      place := leAt p (o + 4) 2, arg := leAt p (o + 6) 2, offset := leAt p (o + 8) 4,
      addend := signedAt 32 (leAt p (o + 12) 4) }

/-- Width of a patch's field in bits. -/
def Patch.width (q : Patch) : Nat :=
  if q.field = 1 then 16 else if q.field = 2 then 24 else if q.field = 4 then 64 else 32

/-- A field with a patch's value added, modulo its width (R244). -/
def Patch.put (q : Patch) (w value : Nat) : Nat :=
  let m := 2 ^ q.width
  let f : Int := ((w % m : Nat) : Int) + ((value * 2 ^ q.shift : Nat) : Int) + q.addend
  w / m * m + (f % (m : Int)).toNat

/-! ## Legality of an instruction word (R236) -/

/-- Run one Idmor instruction. -/
def execIdmor : Instr → State → Out
  | .nop c g f, s => execNop c g f s | .halt c g f, s => execHalt c g f s | .br c g f, s => execBr c g f s
  | .brr c g f, s => execBrr c g f s | .callI c g f, s => execCall c g f s | .ret c g f, s => execRet c g f s
  | .loopI c g f, s => execLoop c g f s | .brk c g f, s => execBrk c g f s
  | .add c g f, s => execAdd c g f s | .sub c g f, s => execSub c g f s | .mul c g f, s => execMul c g f s
  | .andI c g f, s => execAnd c g f s | .orI c g f, s => execOr c g f s | .xorI c g f, s => execXor c g f s
  | .shl c g f, s => execShl c g f s | .shr c g f, s => execShr c g f s | .sra c g f, s => execSra c g f s
  | .min c g f, s => execMin c g f s | .max c g f, s => execMax c g f s | .minu c g f, s => execMinu c g f s
  | .maxu c g f, s => execMaxu c g f s | .cmpeq c g f, s => execCmpeq c g f s | .cmplt c g f, s => execCmplt c g f s
  | .cmpltu c g f, s => execCmpltu c g f s | .mov c g f, s => execMov c g f s | .sld c g f, s => execSld c g f s
  | .sst c g f, s => execSst c g f s | .mmv c g f, s => execMmv c g f s | .bflush c g f, s => execBflush c g f s
  | .bzero c g f, s => execBzero c g f s | .csum c g f, s => execCsum c g f s | .ectlw c g f, s => execEctlw c g f s
  | .fld c g f, s => execFld c g f s | .fst c g f, s => execFst c g f s | .fcvt c g f, s => execFcvt c g f s
  | .fadd c g f, s => execFadd c g f s | .fsub c g f, s => execFsub c g f s | .fmul c g f, s => execFmul c g f s
  | .ffma c g f, s => execFfma c g f s | .fmin c g f, s => execFmin c g f s | .fmax c g f, s => execFmax c g f s
  | .fcmp c g f, s => execFcmp c g f s | .fneg c g f, s => execFneg c g f s | .fabs c g f, s => execFabs c g f s
  | .fcvtb c g f, s => execFcvtb c g f s | .funp c g f, s => execFunp c g f s | .frcp c g f, s => execFrcp c g f s
  | .fsqrt c g f, s => execFsqrt c g f s | .frsq c g f, s => execFrsq c g f s | .fexp c g f, s => execFexp c g f s
  | .fexp2 c g f, s => execFexp2 c g f s | .flog c g f, s => execFlog c g f s | .flog2 c g f, s => execFlog2 c g f s
  | .fact c g f, s => execFact c g f s | .fsum c g f, s => execFsum c g f s | .fdot c g f, s => execFdot c g f s
  | .frms c g f, s => execFrms c g f s | .flnorm c g f, s => execFlnorm c g f s
  | .fquant c g f, s => execFquant c g f s | .falt c g f, s => execFalt c g f s | .fqk c g f, s => execFqk c g f s
  | .fsmx c g f, s => execFsmx c g f s | .fpv c g f, s => execFpv c g f s | .femb c g f, s => execFemb c g f s
  | .qpush c g f, s => execQpush c g f s | .pwalk c g f, s => execPwalk c g f s | .qwait c g f, s => execQwait c g f s
  | .qexp c g f, s => execQexp c g f s | .nget c g f, s => execNget c g f s | .nput c g f, s => execNput c g f s
  | .rget c g f, s => execRget c g f s | .rput c g f, s => execRput c g f s | .mcast c g f, s => execMcast c g f s
  | .rsend c g f, s => execRsend c g f s | .tack c g f, s => execTack c g f s | .fenceI c g f, s => execFence c g f s
  | .waitI c g f, s => execWait c g f s | .noteI c g f, s => execNote c g f s | .gown c g f, s => execGown c g f s
  | .ctop c g f, s => execCtop c g f s | .csend c g f, s => execCsend c g f s | .spick c g f, s => execSpick c g f s
  | .sacc c g f, s => execSacc c g f s
  | _, s => .next s

/-- A word raises no illegal-instruction trap from its encoding alone (R236): its guard can hold, its opcode is known,
and with a guard that does not hold, under which only the encoding is judged, it does not trap. -/
def legalWord (w : Nat) : Bool :=
  let probe : Core := { run := .running, inst := some 0 }
  let quiet := w / 2 ^ 56 * 2 ^ 56 + 2 ^ 52 + w % 2 ^ 52
  if bits w 55 52 = 8 then false
  else match decodeIdmor 0 (BitVec.ofNat 64 quiet) with
    | none => false
    | some i =>
      match execIdmor i { State.reset with cores := [(0, probe)] } with
      | .next t => (t.core 0).trapCode != 1
      | _ => false

/-! ## Checks of the image, by code of R246 -/

/-- Every one of n bytes from offset o is zero. -/
def zeroAt (p : List Byte) (o n : Nat) : Bool := (slice p o n).all (· == 0)

/-- Code 0x01: header, directory, digest (R232, R233). -/
def pat01 (p : List Byte) : Bool :=
  let d := patDir p
  let digested := slice p 0 80 ++ List.replicate 48 0 ++ p.drop 128
  slice p 0 8 == strBytes "FJW2PATT" && leAt p 8 2 == 1 && decide (6 ≤ leAt p 10 2) && decide (leAt p 10 2 ≤ 16) &&
  decide (1 ≤ patV p) && decide (patV p ≤ 100) && decide (1 ≤ patCols p) && decide (patCols p ≤ 4) &&
  decide (1 ≤ patRows p) && decide (patRows p ≤ 3) && decide (1 ≤ patLayers p) && decide (patLayers p ≤ 4096) &&
  decide (1 ≤ patBlocks p) && decide (patBlocks p ≤ 1024) && decide (1 ≤ patPasses p) && decide (leAt p 26 1 ≤ 1) &&
  zeroAt p 27 5 && zeroAt p 136 120 &&
  (List.range (leAt p 10 2)).all (fun j => zeroAt p (256 + 24 * j + 2) 6) &&
  d.all (fun e => e.2.1 % 64 == 0 && decide (e.2.1 + e.2.2 ≤ p.length) && decide (1 ≤ e.1) && decide (e.1 ≤ 10) &&
    decide (256 + 24 * d.length ≤ e.2.1)) &&
  d.zipIdx.all (fun e => d.zipIdx.all fun f => e.2 == f.2 ||
    (e.1.1 != f.1.1 && (decide (e.1.2.1 + e.1.2.2 ≤ f.1.2.1) || decide (f.1.2.1 + f.1.2.2 ≤ e.1.2.1)))) &&
  [1, 2, 3, 5, 6, 9].all (fun t => d.any fun e => e.1 == t) && Config.sha384 digested == slice p 80 48

/-- A neighbour word in the format of R234 names a logical core of the pattern, when valid. -/
def nbrOk (p : List Byte) (w : Nat) : Bool :=
  bits w 14 11 == 0 && (!bit w 15 || (decide (bits w 6 0 < patV p) && decide (bits w 10 7 < patPanels p)))

/-- Code 0x04: GRID (R234). -/
def pat04 (p : List Byte) : Bool :=
  let n := patPanels p * patV p
  let all := (List.range (patPanels p)).flatMap fun r => (List.range (patV p)).map fun l => (r, l)
  (patSec p 1).2 == 16 * n &&
  all.all (fun x =>
    let o := gridAt p x.1 x.2
    decide (leAt p o 1 ≤ 9) && decide (leAt p (o + 1) 1 ≤ 9) && decide (gridBlock p x.1 x.2 < patBlocks p) &&
    decide (leAt p (o + 12) 1 ≤ 1) && zeroAt p (o + 13) 3 &&
    (List.range 4).all (fun d => nbrOk p (gridNbr p x.1 x.2 d)) &&
    (List.range x.2).all fun m => gridHome p x.1 m != gridHome p x.1 x.2) &&
  (all.filter fun x => gridSelector p x.1 x.2).length == 1

/-- Code 0x05: CODE (R235, R236); BRK needs the header's flag and a debug mode (R186). -/
def pat05 (p : List Byte) (debug : Bool) : Bool :=
  decide (16 * patBlocks p ≤ (patSec p 2).2) &&
  (List.range (patBlocks p)).all fun b =>
    let n := codeLength p b
    decide (1 ≤ n) && decide (n ≤ 32768) && codeOffset p b % 8 == 0 && decide (16 * patBlocks p ≤ codeOffset p b) &&
    decide (codeOffset p b + 8 * n ≤ (patSec p 2).2) && decide (codeStart p b < n) && decide (codeStep p b < n) &&
    (List.range (patLayers p)).all (fun l => (List.range 4).all fun v =>
      !bit (patRecipe p l v) 0 || decide (bits (patRecipe p l v) 63 32 < n)) &&
    (List.range n).all fun k =>
      let w := codeWord p b k
      legalWord w && (w / 2 ^ 56 != 7 || (debug && bit (leAt p 26 1) 0))

/-- Code 0x06: ALLOC (R237, R238). -/
def pat06 (p : List Byte) : Bool :=
  let stop := (patSec p 3).1 + (patSec p 3).2
  let a := allocFrom p stop (patBlocks p) (patSec p 3).1
  a.1.length == patBlocks p && a.2 == stop &&
  (List.range (patBlocks p)).all (fun b => (a.1.filter fun x => x.block == b).length == 1) &&
  a.1.all fun x =>
    x.res == 0 && decide (1 ≤ x.regions.length) && decide (x.regions.length ≤ 64) && decide (x.narrow ≤ 128) &&
    decide (x.wide ≤ 512) &&
    x.regions.zipIdx.all (fun y =>
      let r := y.1
      decide (r.group ≤ 1) && decide (r.kind ≤ 2) && (r.owner == 0x3FE || r.owner == 0x3FF) &&
      decide (r.first + r.count ≤ if r.group = 0 then x.narrow else x.wide) &&
      (if r.kind = 1 then decide (r.data + 4096 * r.count ≤ (patSec p 0xA).2) else r.data == 0) &&
      x.regions.zipIdx.all fun z => z.2 == y.2 || z.1.group != r.group ||
        decide (z.1.first + z.1.count ≤ r.first) || decide (r.first + r.count ≤ z.1.first)) &&
    match x.regions.filter fun r => r.kind == 2 with
    | [r] => r.group == 1 && r.owner == 0x3FE && decide (4 * patLayers p ≤ 4096 * r.count)
    | _ => false

/-- 512-byte units of a tile of R36. -/
def TileRec.units (t : TileRec) : Nat := ceilDiv (t.blocks * 64 * rowBytes t.fmt) 512

/-- Code 0x07: TILES (R36, R37), with the tile sources of the model. -/
def pat07 (p : List Byte) (sources : Nat) : Bool :=
  let ts := tileRecs p
  (patSec p 5).2 % 16 == 0 &&
  (List.range ts.length).all (fun j => leAt p ((patSec p 5).1 + 16 * j + 7) 1 == 0) &&
  ts.zipIdx.all fun x =>
    let t := x.1
    decide (t.panel < patPanels p) && decide (t.logical < patV p) && decide (t.pos < 8) && decide (t.fmt ≤ 3) &&
    decide (t.tile < 512) && decide (1 ≤ t.blocks) && decide (t.blocks ≤ 64) && decide (t.unit + t.units ≤ 40960) &&
    decide (t.source < sources) &&
    ts.zipIdx.all fun y =>
      let u := y.1
      x.2 == y.2 || u.panel != t.panel || u.logical != t.logical || u.pos != t.pos || u.tile / 256 != t.tile / 256 ||
        (u.tile != t.tile && (decide (u.unit + u.units ≤ t.unit) || decide (t.unit + t.units ≤ u.unit)))

/-- The BF16 threshold lies strictly between 0 and 2^-16 (R82). -/
def thresholdLow (b : Nat) : Bool := decide (0 < b) && decide (b < 0x3780)

/-- Code 0x08: RECIPE (R82, R86), and the geometry word (R258). -/
def pat08 (p : List Byte) (geometry : Nat) : Bool :=
  (patSec p 6).2 == 32 * patLayers p && leAt p 128 8 == geometry &&
  (List.range (patLayers p)).all fun l =>
    bit (patRecipe p l 0) 0 && (List.range 4).all fun v =>
      let e := patRecipe p l v
      if bit e 0 then
        bits e 15 6 == 0 && bits e 4 3 != 3 && decide (bits geometry 15 14 ≤ bits e 4 3) &&
          !thresholdLow (bits e 31 16)
      else e == 0

/-- Code 0x09: SPLIT (R95), against the split map of the model's shards (log entry 26). -/
def pat09 (p manifest : List Byte) : Bool :=
  (patSec p 9).2 == 48 * patLayers p &&
  (List.range (patLayers p)).all fun l => slice p ((patSec p 9).1 + 48 * l) 48 == Config.splitDigest l manifest

/-- Code 0x0A: R245, in 10^-9 of 0.828 GHz ms: 1.88 c / 0.828 ns + 2.8 ms n ≤ 4 ms. -/
def pat0A (p : List Byte) : Bool :=
  decide (1880000 * patTackCycles p + 828 * 2800000 * 1000 * patPasses p ≤ 828 * 4000000 * 1000)

/-- Code 0x0C: PATCH (R244); window numbers are known. -/
def pat0C (p : List Byte) (windowKnown : Nat → Bool) : Bool :=
  (patSec p 8).2 % 16 == 0 &&
  (patches p).all fun q =>
    let w := q.width / 8
    decide (q.shift ≤ 63) &&
    (if q.target = 0 then
        decide (q.field ≤ 2) && decide (q.place < patBlocks p) && decide (q.offset < codeLength p q.place)
      else if q.target = 1 then
        let a := allocOf p (q.place / 64)
        (q.field == 3 || q.field == 4) && decide (q.place / 64 < patBlocks p) &&
          match a.regions[q.place % 64]? with
          | some r => r.kind == 1 && q.offset % w == 0 && decide (q.offset + w ≤ 4096 * r.count)
          | none => false
      else if q.target = 2 then
        (q.field == 3 || q.field == 4) &&
          match (hbmRegions p).find? fun r => r.id == q.place with
          | some r => r.kind == 1 && decide (r.id < 0x8000) && q.offset % w == 0 && decide (q.offset + w ≤ r.size)
          | none => false
      else false) &&
    (if q.kind = 1 then decide (q.arg < patPanels p)
      else if q.kind = 2 ∨ q.kind = 4 ∨ q.kind = 5 ∨ q.kind = 6 then true
      else if q.kind = 3 then (hbmRegions p).any fun r => r.id == q.arg
      else if q.kind = 7 then windowKnown q.arg
      else false)

/-- Code 0x0D, the records (R239); a model region's `kind` is judged with its shard (R332). -/
def pat0D (p : List Byte) : Bool :=
  let rs := hbmRegions p
  (patSec p 4).2 % 32 == 0 &&
  (List.range rs.length).all (fun j => leAt p ((patSec p 4).1 + 32 * j + 3) 1 == 0) &&
  rs.zipIdx.all fun x =>
    let r := x.1
    (decide (r.kind ≤ 1) || decide (0x8000 ≤ r.id)) && decide (9 ≤ r.align) && decide (r.align ≤ 30) && decide (r.dataLen ≤ r.size) &&
    (decide (0x8000 ≤ r.id) || r.kind == 0 || decide (r.data + r.dataLen ≤ (patSec p 0xA).2)) &&
    rs.zipIdx.all fun y => x.2 == y.2 || y.1.id != r.id

end Sys2Proof.Machine
end

