-- ==== Sys2Proof/Machine/Requests.lean ====
section
/-! DEFINITION. Requests while they live: their completions, the completion ring with its interrupt, FRP datagrams to
the client, and the end of a request (R283, R287-R297, R303, R316, R362-R363). -/

namespace Sys2Proof.Machine

/-! ## Key table (R296) -/

/-- The entry of a slot's key table. -/
def State.req (s : State) (slot key : Nat) : Option Req := s.reqs.find? fun r => r.slot == slot && r.key == key
/-- Change the entry of a slot's key table. -/
def State.modReq (s : State) (slot key : Nat) (f : Req → Req) : State :=
  { s with reqs := s.reqs.map fun r => if r.slot = slot ∧ r.key = key then f r else r }
/-- The request runs or waits. -/
def Req.live (r : Req) : Bool := r.final.isNone
/-- Requests of a slot that run or wait, in acceptance order. -/
def State.liveReqs (s : State) (slot : Nat) : List Req := s.reqs.filter fun r => r.slot == slot && r.live
/-- Requests of an instance that run or wait, in acceptance order. -/
def State.instReqs (s : State) (i : Nat) : List Req := s.reqs.filter fun r => r.inst == i && r.live
/-- The sequence has a request (R283). -/
def State.seqBusy (s : State) (q : Nat) : Bool := s.reqs.any fun r => r.live && decide (r.seq = some q)

/-! ## Completion entries (R290) -/

/-- A completion entry, its phase bit 0. -/
def complBytes (key handle status stop flags stopIndex tokens length seed ttft tbt viol prop acc pre : Nat) :
    List Byte :=
  leBytes 8 key ++ leBytes 4 handle ++ leBytes 1 status ++ leBytes 1 stop ++ leBytes 1 flags ++ leBytes 1 stopIndex ++
  leBytes 4 tokens ++ leBytes 4 length ++ leBytes 8 seed ++ leBytes 4 (min ttft 0xFFFFFFFF) ++
  leBytes 4 (min tbt 0xFFFFFFFF) ++ leBytes 4 viol ++ leBytes 4 prop ++ leBytes 4 acc ++
  leBytes 4 (min pre 0xFFFFFFFF) ++ leBytes 8 0

/-- µs that a request has spent pre-empted, parked or without pages, up to now (R303). -/
def State.preUsOf (s : State) (r : Req) : Nat :=
  r.preUs + match r.stalledAt with
    | some t => (s.time - t) / 1000
    | none => 0

/-- A request's completion entry with the counts it has now. -/
def State.completion (s : State) (r : Req) (status flags : Nat) : List Byte :=
  let len := match r.seq with
    | some q => (s.seq q).length
    | none => 0
  complBytes r.key r.handle status r.stopReason flags r.stopIndex r.emitted.length len r.seed r.ttftUs r.tbtMaxUs
    r.tbtViol r.draftsProp r.draftsAcc (s.preUsOf r)

/-- Set a flag of a completion entry. -/
def withFlag (b : List Byte) (flag : Nat) : List Byte :=
  b.take 14 ++ leBytes 1 ((leAt b 14 1) ||| flag) ++ b.drop 15

/-! ## FRP datagrams to the client (R293, R295) -/

/-- Association of a slot. -/
def State.assoc (s : State) (slot a : Nat) : Option Assoc := (s.slot slot).assocs.find? fun x => x.assoc == a
/-- Change an association. -/
def State.modAssoc (s : State) (slot a : Nat) (f : Assoc → Assoc) : State :=
  s.modSlot slot fun x => { x with assocs := x.assocs.map fun y => if y.assoc = a then f y else y }

/-- `ack_map`: bit i says that `ack` + 1 + i has been received. -/
def Assoc.ackMap (a : Assoc) : Nat :=
  (a.beyond.filter fun n => decide (a.expect < n) && decide (n ≤ a.expect + 32)).foldl
    (fun m n => m ||| 2 ^ (n - a.expect - 1)) 0

/-- A datagram's header. -/
def frpHeader (type slot assoc seq ack map len : Nat) : List Byte :=
  leBytes 1 1 ++ leBytes 1 type ++ leBytes 2 slot ++ leBytes 4 assoc ++ leBytes 8 seq ++ leBytes 8 ack ++
  leBytes 4 map ++ leBytes 2 len ++ leBytes 2 0

/-- Put a datagram on the wire: encrypted under the slot's key, the direction bit set in its nonce. -/
def State.frpWire (s : State) (slot : Nat) (a : Assoc) (type seq : Nat) (body : List Byte) : State :=
  let h := frpHeader type slot a.assoc seq a.expect a.ackMap body.length
  let nonce := leBytes 4 a.assoc ++ leBytes 8 (seq + 2 ^ 63)
  s.send (chanEth a.port) (h ++ Config.gcmSeal ((s.slot slot).frpKey.getD []) nonce h body)

/-- Send a sequenced datagram on an association that has not failed; it acknowledges what has arrived. -/
def State.frpSend (s : State) (slot assoc type : Nat) (body : List Byte) : State :=
  match s.assoc slot assoc with
  | none => s
  | some a =>
    if a.failed then s
    else
      (s.frpWire slot a type a.next body).modAssoc slot assoc fun x =>
        { x with next := x.next + 1, ackDue := false, out := x.out ++ [{ seq := x.next, type := type, body := body }] }

/-- A TOKENS body. -/
def tokensBody (key first : Nat) (ts : List Nat) : List Byte :=
  leBytes 8 key ++ leBytes 4 first ++ leBytes 4 ts.length ++ ts.flatMap (leBytes 4)

/-- Send tokens from an index on, at most 2,236 per datagram (8,960 bytes of body). -/
def State.frpTokens (s : State) (slot assoc key : Nat) : Nat → Nat → List Nat → State
  | 0, _, _ => s
  | fuel + 1, first, ts =>
    if ts = [] then s
    else State.frpTokens (s.frpSend slot assoc 0x10 (tokensBody key first (ts.take 2236))) slot assoc key fuel
      (first + 2236) (ts.drop 2236)

/-! ## The completion ring (R285-R292) and its interrupt (R362, R363) -/

/-- Entries of a ring. -/
def Ring.size (r : Ring) : Nat := 2 ^ r.sizeLog2
/-- The completion ring takes another entry: enabled and not about to overrun. -/
def State.ringRoom (s : State) (slot : Nat) : Bool :=
  let r := (s.slot slot).cq
  r.enable && decide ((r.tail + 1) % r.size ≠ r.head % r.size)

/-- Announce the unannounced entries with a vector 0 message (R363). -/
def State.announce (s : State) (slot : Nat) : State :=
  if (s.slot slot).unannounced = 0 then s
  else (s.modSlot slot fun x => { x with unannounced := 0 }).message (vfOf slot) 0

/-- One more entry has been written: the message goes out when enough entries wait, moderation is off, or a teardown is in its
step 3 (R363). -/
def State.entryWritten (s : State) (slot : Nat) : State :=
  let s := s.modSlot slot fun x => { x with unannounced := x.unannounced + 1 }
  let n := s.rd (K.irqCoalesceCount slot)
  if n = 0 ∨ s.rd (K.irqCoalesceUs slot) = 0 ∨ n ≤ (s.slot slot).unannounced ∨ (s.slot slot).teardown = 2 then s.announce slot else s

/-- Write an entry into the completion ring with its phase; the second result says whether host memory took it. -/
def State.ringPut (s : State) (slot : Nat) (b : List Byte) : State × Bool :=
  let x := s.slot slot
  let r := x.cq
  let w := match s.slotRef slot (r.base + 64 * r.tail) 64 with
    | some h => s.hostWrite h (b.take 63 ++ leBytes 1 (b2n r.phase))
    | none => (s, false)
  let tail := (r.tail + 1) % r.size
  ((w.1.modSlot slot fun y => { y with cq := { r with tail := tail, phase := r.phase != (tail == 0) } }).entryWritten slot,
    w.2)

/-- Post waiting final completions while the ring has room; not while a teardown waits for its capture (R292, R357). -/
def State.drainFinals (s : State) (slot : Nat) : Nat → State
  | 0 => s
  | fuel + 1 =>
    match (s.slot slot).finals with
    | [] => s
    | b :: rest =>
      if s.ringRoom slot && (s.slot slot).teardown != 1 then
        State.drainFinals ((s.modSlot slot fun x => { x with finals := rest }).ringPut slot b).1 slot fuel
      else s

/-- Post a final completion, by the transport of its request (R290, R292, R295). -/
def State.postFinal (s : State) (slot : Nat) (t : Transport) (b : List Byte) : State :=
  match t with
  | .ring =>
    let s := s.modSlot slot fun x => { x with finals := x.finals ++ [b] }
    s.drainFinals slot (s.slot slot).finals.length
  | .frp a => s.frpSend slot a 0x11 b

/-! ## The end of a request (R283, R316) -/

/-- The request has ended with its final completion's bytes; its sequence has no request any more. -/
def State.closeReq (s : State) (r : Req) (b : List Byte) : State :=
  let s := s.modReq r.slot r.key fun x =>
    { x with final := some b, finalAt := s.time, preUs := s.preUsOf x, stalledAt := none }
  match r.seq with
  | some q => if (s.seq q).state = .active then s.modSeq q fun x => { x with state := .idle } else s
  | none => s

/-- Final completion bytes of a request with a status: the taint and inexact flags cover the whole request. -/
def State.finalBytes (s : State) (r : Req) (status : Nat) : List Byte :=
  s.completion r status (2 * b2n r.taint + 4 * b2n r.inexact)

/-- End a request with a status and post its final completion. -/
def State.endReq (s : State) (slot key status : Nat) : State :=
  match s.req slot key with
  | none => s
  | some r =>
    if !r.live then s
    else
      let b := s.finalBytes r status
      (s.closeReq r b).postFinal slot r.from_ b

/-- Abort a request with status 0x08; its final completion waits for step 3 of the teardown (R355, R356, R368). -/
def State.abortReq (s : State) (slot key : Nat) : State :=
  match s.req slot key with
  | none => s
  | some r =>
    if !r.live then s
    else
      let b := s.finalBytes r 8
      ((s.closeReq r b).bump (K.requestsAborted slot) 64 1).modSlot slot fun x =>
        { x with heldBack := x.heldBack ++ [(r.from_, b)] }

/-- End a request with the loss of its sequence (R316). -/
def State.endReqSeq (s : State) (slot key status : Nat) : State :=
  match s.req slot key with
  | none => s
  | some r =>
    let s := s.endReq slot key status
    match r.seq with
    | some q => s.endSeq q false
    | none => s

/-! ## Interim completions (R290, R292) -/

/-- Post an interim completion; with a full ring, or finals waiting, it is dropped and the next one counts its tokens. A
completion that host memory does not take ends the request with status 0x0E (R386). -/
def State.postInterim (s : State) (slot key : Nat) : State :=
  match s.req slot key with
  | none => s
  | some r =>
    if !r.live || decide (r.emitted.length ≤ r.reported) then s
    else
      let b := s.completion r 0 (1 + 2 * b2n r.taintSince + 4 * b2n r.inexactSince)
      let done := fun (s : State) => s.modReq slot key fun x =>
        { x with reported := x.emitted.length, reportedAt := s.time, taintSince := false, inexactSince := false }
      match r.from_ with
      | .frp a => done (s.frpSend slot a 0x11 b)
      | .ring =>
        if s.ringRoom slot && (s.slot slot).finals.isEmpty && (s.slot slot).teardown == 0 then
          let w := s.ringPut slot b
          if w.2 then done w.1 else w.1.endReq slot key 0x0E
        else s

/-- INTERIM_COMPLETION (R292): 1 ms has passed since the request's previous completion, with a new token. -/
def execInterimCompletion (slot : SlotId) (key : Nat) (s : State) : Out := .next (s.postInterim slot key)

/-- IRQ_COALESCE (R363): `irq_coalesce_us` has passed since the first unannounced entry. -/
def execIrqCoalesce (slot : SlotId) (s : State) : Out := .next (s.announce slot)

/-! ## Service alerts and slot messages (R362) -/

/-- Vector 3, at most once per 1 ms. -/
def State.serviceAlert (s : State) (slot : Nat) : State :=
  let due := match (s.slot slot).alertAt with
    | some t => decide (t + 1000000 ≤ s.time)
    | none => true
  if due then (s.modSlot slot fun x => { x with alertAt := some s.time }).message (vfOf slot) 3 else s

end Sys2Proof.Machine
end

