-- ==== Sys2Proof/Machine/Swap.lean ====
section
/-! DEFINITION. Pressure, pre-emption and swap (R273-R277): victims, the copies of the page mover, and re-admission. -/

namespace Sys2Proof.Machine

/-! ## Victims (R273) -/

/-- Resident unpinned pages of a sequence that a swap-out copies: those that hold tokens below its length. -/
def State.toCopy (s : State) (q : Nat) : List Nat :=
  (s.entriesWhere q fun e => peResident e && !pePinned e).filter fun x => decide (s.entryToken q x < (s.seq q).length)
/-- Pages that a swap-out of the sequence frees. -/
def State.wouldFree (s : State) (q : Nat) : Nat := (s.entriesWhere q fun e => peResident e && !pePinned e).length

/-- The sequence may be a victim: resident, not in a step, with an unpinned page, and with as many free swap slots as it
has unpinned pages. -/
def State.victimOk (s : State) (inStep : List Nat) (q : Nat) : Bool :=
  let r := s.seq q
  let n := s.wouldFree q
  (decide (r.state = .idle) || decide (r.state = .active)) && r.moving.isEmpty && !inStep.contains q &&
    decide (0 < s.wouldFree q) && decide (0 < s.rd (K.swapSlots r.slot)) && decide ((s.freeSwap r.slot n).length = n)

/-- Victims in the order of R273: lowest priority, longest idle, lowest sequence number. -/
def State.victims (s : State) (i : Nat) (inStep : List Nat) (slot : Option Nat) : List Nat :=
  let c := (s.seqs.filter fun p => p.2.inst == i && (slot.isNone || slot == some p.2.slot) && s.victimOk inStep p.1).map (·.1)
  sortBy (fun a b => lexLt [s.rd (K.priority (s.seq a).slot), (s.seq a).lastStep, a]
    [s.rd (K.priority (s.seq b).slot), (s.seq b).lastStep, b]) c

/-- The request of a sequence has nothing resident to run on from now on (R303). -/
def State.stallReq (s : State) (q : Nat) : State :=
  { s with reqs := s.reqs.map fun r =>
      if r.live ∧ r.seq = some q then { r with stalledAt := some (r.stalledAt.getD s.time) } else r }

/-- A swap-out is done: pre-emption event, slot message, and the completion of a PARK (R274 step 5). -/
def State.swapOutDone (s : State) (q : Nat) : State :=
  let r := s.seq q
  let s := s.modSeq q fun x => { x with movingOut := false }
  let s := (s.logMg r.inst 0x0201 0 0 r.slot (s.handleOf q) r.moved).message (vfOf r.slot) 4
  match s.reqs.find? fun x => x.live && x.opcode == 4 && decide (x.seq = some q) with
  | some x => s.endReq x.slot x.key 0
  | none => s

/-- Withdraw a sequence (R274 steps 1-3): pre-empted or parked, its hot slot freed, its surplus pages released, its
copies given to the mover. -/
def State.withdraw (s : State) (q : Nat) (park : Bool) : State :=
  let r := s.seq q
  let s := (s.freeHot q).releaseBeyond q r.length
  let xs := s.toCopy q
  let moves := (xs.zip (s.freeSwap r.slot xs.length)).map fun p => (p.1, p.2, pePage (s.pageEntry q p.1))
  let s := s.each moves fun s m => s.setSwapUse r.slot m.2.1 (1 + q)
  let s := s.modSeq q fun x => { x with state := if park then .parked else .preempted, moving := moves,
                                        movingOut := true, moved := 0, outSince := s.time }
  let s := if park then s else (s.bump (K.preemptions r.inst) 64 1).stallReq q
  if moves.isEmpty then s.swapOutDone q else s

/-- Withdraw victims until the pages they free reach a target. -/
def State.press (s : State) (target : Nat) : Nat → List Nat → State
  | _, [] => s
  | freed, q :: qs =>
    if target ≤ freed then s
    else if s.victimOk [] q then State.press (s.withdraw q false) target (freed + s.wouldFree q) qs
    else State.press s target freed qs

/-- Sequences with a row in the step in flight. -/
def State.inStep (s : State) (i : Nat) : List Nat :=
  if (s.inst i).stepOn then ((s.inst i).plan.rows.map fun r => r.handle % 65536).eraseDups else []

/-- Pages that swap-outs under way will still free. -/
def State.freeingOut (s : State) (i : Nat) : Nat :=
  ((s.seqs.filter fun p => p.2.inst == i && p.2.movingOut).map fun p => p.2.moving.length).sum

/-- Pages of a slot's sequences in an instance that swap-outs under way will still free. -/
def State.freeingSlot (s : State) (i slot : Nat) : Nat :=
  ((s.seqs.filter fun p => p.2.inst == i && p.2.slot == slot && p.2.movingOut).map fun p => p.2.moving.length).sum

/-- The watermark check of every tack (R273). -/
def State.pressure (s : State) (i : Nat) : State :=
  if s.poolFree i < s.rd (K.lowWm i) then
    s.press (s.rd (K.highWm i)) (s.poolFree i + s.freeingOut i) (s.victims i (s.inStep i) none)
  else s

/-- A slot over its page quota: victims among its own sequences, those of the step being built left out (R277). -/
def State.pressSlot (s : State) (i slot freeing need : Nat) (keep : List Nat) : State :=
  s.press need freeing (s.victims i keep (some slot))

/-! ## Re-admission (R276) -/

/-- The sequence is resident again: it runs its request, or idles. -/
def State.backIn (s : State) (q : Nat) : State :=
  let busy := s.seqBusy q
  let s := s.modSeq q fun x => { x with state := if busy then .active else .idle }
  { s with reqs := s.reqs.map fun r =>
      if r.live ∧ r.seq = some q then { r with preUs := s.preUsOf r, stalledAt := none } else r }

/-- Swapped-out entries of a sequence. -/
def State.hostEntries (s : State) (q : Nat) : List Nat := s.entriesWhere q fun e => peValid e && peHost e

/-- Give a sequence its pages and its copies to the mover (R276 step 1). -/
def State.readmit (s : State) (q : Nat) : State :=
  let xs := s.hostEntries q
  if xs.isEmpty then s.backIn q
  else
    s.each xs fun s x => match s.allocEntry q x with
      | some y => y.1.modSeq q fun r =>
          { r with moving := r.moving ++ [(x, pePage (s.pageEntry q x), y.2)], movingOut := false }
      | none => s

/-- Sequences that wait outside, in the order of R276: those with work, then priority and the longest wait; a parked
one only with work. -/
def State.outside (s : State) (i : Nat) : List Nat :=
  let work := fun q => s.reqs.any fun r => r.live && r.opcode != 4 && decide (r.seq = some q)
  let c := (s.seqs.filter fun p => p.2.inst == i && p.2.moving.isEmpty &&
    (decide (p.2.state = .preempted) || (decide (p.2.state = .parked) && work p.1))).map (·.1)
  let rank := fun q => [b2n (!work q), 7 - s.rd (K.priority (s.seq q).slot), (s.seq q).outSince, q]
  sortBy (fun a b => lexLt (rank a) (rank b)) c

/-- Re-admit sequences while `pool_free` less their pages stays at or above `low_wm` (R276). -/
def State.readmitAll (s : State) (i : Nat) : State :=
  s.each (s.outside i) fun s q =>
    let n := (s.hostEntries q).length
    let r := s.seq q
    if s.rd (K.lowWm i) + n ≤ s.poolFree i ∧ s.slotPages r.slot + n ≤ s.rd (K.pageQuota r.slot) then s.readmit q else s

/-! ## What tacks apply (R274 step 4, R276 step 3) -/

/-- A copied-out page: the entry names its swap slot and the page is released. -/
def State.applyOut (s : State) (q x sw : Nat) : State :=
  let r := s.seq q
  match r.moving.find? fun m => m.1 == x && m.2.1 == sw with
  | none => s
  | some m =>
    let s := (s.setPageUse r.inst m.2.2 1000).setPageEntry q x (2 ^ 31 + 2 ^ 28 + sw)
    let left := r.moving.filter fun y => y.1 != x
    let s := s.modSeq q fun y => { y with moving := left, moved := y.moved + 1 }
    if left.isEmpty then s.swapOutDone q else s

/-- A copied-in page: the entry names its page and the swap slot is free; after the last one the sequence becomes schedulable
at the next tack (R276). -/
def State.applyIn (s : State) (q x p : Nat) : State :=
  let r := s.seq q
  match r.moving.find? fun m => m.1 == x && m.2.2 == p with
  | none => s
  | some m =>
    let s := (s.setSwapUse r.slot m.2.1 0).setPageEntry q x (2 ^ 31 + p)
    let left := r.moving.filter fun y => y.1 != x
    let s := s.modSeq q fun y => { y with moving := left, fresh := left.isEmpty }
    if left.isEmpty then s.backIn q else s

/-- A tack of instance i begins: sequences whose last entry the tack before rewrote are schedulable (R276). -/
def State.wake (s : State) (i : Nat) : State :=
  s.each ((s.seqs.filter fun p => p.2.inst == i && p.2.fresh).map (·.1)) fun s q => s.modSeq q fun x => { x with fresh := false }

/-! ## The mover's copies (R274 step 3, R275, R276 step 2) -/

/-- The copy of entry x of sequence q that is under way and not yet waiting for its tack. -/
def State.copyOf (s : State) (q x : Nat) (out : Bool) : Option (Nat × Nat × Nat) :=
  let r := s.seq q
  if r.movingOut = out ∧ r.state ≠ .free then
    (r.moving.find? fun m => m.1 == x).filter fun m =>
      !((s.inst r.inst).changes.contains (if out then .swappedOut q x m.2.1 else .swappedIn q x m.2.2))
  else none

/-- A copy-out failed (R275): the swap-out stops; copies that wait for their tack still apply. -/
def State.outFailed (s : State) (q : Nat) : State :=
  let r := s.seq q
  let waits := fun (m : Nat × Nat × Nat) => (s.inst r.inst).changes.contains (.swappedOut q m.1 m.2.1)
  let s := s.each (r.moving.filter fun m => !waits m) fun s m => s.setSwapUse r.slot m.2.1 0
  let s := s.modSeq q fun x => { x with moving := x.moving.filter waits }
  let s := s.bump (K.swapErrors r.inst) 64 1
  let s := (s.logMg r.inst 0x0202 1 0 r.slot (s.handleOf q) 0).message (vfOf r.slot) 4
  if (s.seq q).moving.isEmpty then
    let s := s.modSeq q fun x => { x with movingOut := false }
    match s.reqs.find? fun x => x.live && x.opcode == 4 && decide (x.seq = some q) with
    | some x => s.endReq x.slot x.key 0
    | none => s
  else s

/-- SWAP_OUT_COPY_DONE (R274, R275): a page's copy to its swap slot has ended. -/
def execSwapOutCopyDone (sequence : Fin 65536) (entry : Nat) (ok : Bool) (s : State) : Out :=
  let q := sequence.val
  let r := s.seq q
  match s.copyOf q entry true with
  | none => .next s
  | some m =>
    let w : State × Bool := match s.swapRef r.slot m.2.1 with
      | some h => if ok then s.hostWrite h (s.hbmRead r.inst (s.pageAddr r.inst m.2.2) 65536) else (s, false)
      | none => (s, false)
    if w.2 then
      let s := w.1.bump (K.pagesOut r.inst) 64 1
      .next (s.modInst r.inst fun x => { x with changes := x.changes ++ [.swappedOut q entry m.2.1] })
    else .next (w.1.outFailed q)

/-- SWAP_IN_COPY_DONE (R275, R276): a swap slot's copy into its page has ended, with the bytes read; a failed copy loses
the sequence. -/
def execSwapInCopyDone (sequence : Fin 65536) (entry : Nat) (page : List Byte) (ok : Bool) (s : State) : Out :=
  let q := sequence.val
  let r := s.seq q
  match s.copyOf q entry false with
  | none => .next s
  | some m =>
    let reach := match s.swapRef r.slot m.2.1 with
      | some h => s.hostReady h.fn
      | none => false
    if ok && reach then
      let s := (s.hbmWrite r.inst (s.pageAddr r.inst m.2.2) (slice page 0 65536)).bump (K.pagesIn r.inst) 64 1
      .next (s.modInst r.inst fun x => { x with changes := x.changes ++ [.swappedIn q entry m.2.2] })
    else
      let s := s.bump (K.swapErrors r.inst) 64 1
      let s := (s.logMg r.inst 0x0202 1 0 r.slot (s.handleOf q) 1).message (vfOf r.slot) 4
      match s.reqs.find? fun x => x.live && decide (x.seq = some q) with
      | some x => .next (s.endReqSeq x.slot x.key 0x0B)
      | none => .next (s.endSeq q false)

end Sys2Proof.Machine
end

