-- ==== Sys2Proof/Machine/Scheduler.lean ====
section
/-! DEFINITION. The scheduler of an instance: admission, the interleave controller, step plans, the commit of a finished
step (R276-R278, R299-R303, R311-R316, R365-R368). Readings of the spec's words: log entries 22 to 25. -/

namespace Sys2Proof.Machine

/-! ## The sequence's tokens (R284) -/

/-- Token at a position. -/
def Seq.tokenAt (r : Seq) (p : Nat) : Option Nat := r.tokens[p]?
/-- The committed token that is not cached yet. -/
def Seq.pending (r : Seq) : List Nat := (r.tokenAt r.length).toList
/-- Add the token of a position; one already held stays. -/
def Seq.putToken (r : Seq) (p t : Nat) : Seq :=
  if p < r.tokens.length then r else { r with tokens := r.tokens ++ [t] }
/-- Forget every token from a position on. -/
def Seq.cutTokens (r : Seq) (p : Nat) : Seq := { r with tokens := r.tokens.take p }

/-! ## Work: what a sequence has to run -/

/-- A sequence with tokens to process: for its request, or as a draft sequence (no key). -/
structure Work where
  seq : Nat
  slot : Nat
  key : Option Nat
  /-- chooses tokens once its prompt is cached -/
  gen : Bool
  pos0 : Nat
  feed : List Nat
  fed : Nat
  nPrompt : Nat
  prio : Nat
  /-- time of its last commit, 0 before the first, and acceptance order -/
  last : Nat
  order : Nat
  /-- drafts that a verification may take, and draft heads per row -/
  drafts : List Nat
  heads : Nat
  alteration : Nat
deriving DecidableEq, Repr

/-- Drafts per step m of a request. -/
def Req.specM (r : Req) : Nat := bits r.e.spec.toNat 5 2
/-- Draft source of a request (R311). -/
def Req.specSource (r : Req) : Nat := bits r.e.spec.toNat 1 0

/-- The sequence is resident, no copy of it is under way, and a tack has passed since its last copy came in (R276). -/
def State.resident (s : State) (q : Nat) : Bool :=
  let r := s.seq q
  (decide (r.state = .active) || decide (r.state = .idle)) && r.moving.isEmpty && !r.fresh

/-- The work of a request that is admitted and resident. -/
def State.reqWork (s : State) (r : Req) : Option Work :=
  match r.seq with
  | none => none
  | some q =>
    if r.live && r.admitted && r.opcode ≤ 2 && s.resident q then
      let x := s.seq q
      let m := if r.specSource = 0 ∨ x.draftsAt ≠ x.length then 0 else min r.specM (x.maxContext - x.length - 1)
      some { seq := q, slot := r.slot, key := some r.key, gen := r.opcode == 1, pos0 := r.pos0, feed := r.feed,
             fed := r.fed, nPrompt := r.nPrompt, prio := s.rd (K.priority r.slot), last := r.lastCommit.getD 0,
             order := r.order, drafts := x.drafts.take m,
             heads := if r.specSource = 1 ∧ r.opcode = 1 then r.specM else 0,
             alteration := s.rd (K.altBinding r.slot) }
    else none

/-- The work of a draft sequence (R314). -/
def State.draftWork (s : State) (q : Nat) (x : Seq) : Option Work :=
  if x.isDraft && decide (x.draft.fed < x.draft.feed.length) && s.resident q then
    some { seq := q, slot := x.slot, key := none, gen := decide (0 < x.draft.left), pos0 := x.draft.pos0,
           feed := x.draft.feed, fed := x.draft.fed, nPrompt := x.draft.nPrompt, prio := s.rd (K.priority x.slot),
           last := x.lastStep, order := 0, drafts := [], heads := 0, alteration := 0xFFFF }
  else none

/-- Everything that instance i could run. -/
def State.works (s : State) (i : Nat) : List Work :=
  ((s.instReqs i).filterMap s.reqWork) ++
    ((s.seqs.filter fun p => p.2.inst == i).filterMap fun p => s.draftWork p.1 p.2)

/-- The work decodes: its prompt is cached and a token waits. -/
def Work.decoding (w : Work) : Bool := w.gen && decide (w.nPrompt ≤ w.fed) && decide (w.fed < w.feed.length)
/-- The work still has prompt tokens to cache. -/
def Work.prefilling (w : Work) : Bool := decide (w.fed < w.nPrompt)

/-- The order in which sequences are taken (R300): descending priority, earliest last commit, acceptance. -/
def Work.before (a b : Work) : Bool :=
  lexLt [7 - a.prio, a.last, a.order, a.seq] [7 - b.prio, b.last, b.order, b.seq]

/-! ## Waiting for pages (R277, R303) -/

/-- A sequence is passed over for want of a page; after `kv_stall_limit` its request ends with status 0x0A. -/
def State.passOver (s : State) (w : Work) : State :=
  let r := s.seq w.seq
  let since := r.stallSince.getD s.time
  let s := s.setSeq w.seq { r with stallSince := some since }
  match w.key with
  | none => s
  | some key =>
    let s := s.modReq w.slot key fun x => { x with stalledAt := some (x.stalledAt.getD s.time) }
    if since + 1000000 * s.rd (K.kvStallLimit r.inst) ≤ s.time then
      (s.modSeq w.seq fun x => { x with starved := true, stallSince := none }).endReq w.slot key 0x0A
    else s

/-- The sequence has the pages it needs: its stall is over. -/
def State.stallOver (s : State) (w : Work) : State :=
  let s := s.modSeq w.seq fun x => { x with stallSince := none }
  match w.key with
  | none => s
  | some key => s.modReq w.slot key fun x => { x with preUs := s.preUsOf x, stalledAt := none }

/-! ## The interleave controller (R301, R302, R366) -/

/-- Least slack of the decoding requests; none when every one is left out. -/
def State.decodeSlack (s : State) (i : Nat) (ws : List Work) : Option Int :=
  (ws.filterMap fun w =>
    let tgt := s.rd (K.tbtTarget w.slot)
    match w.key.bind (s.req w.slot) with
    | some r => if tgt = 0 then none else
        some ((1000 * tgt : Int) - ((s.time : Int) - (r.lastCommit.getD r.accepted)) - (s.inst i).estPre)
    | none => none).min?

/-- Least slack of the prefilling requests. -/
def State.prefillSlack (s : State) (i : Nat) (ws : List Work) : Option Int :=
  (ws.filterMap fun w =>
    let tgt := s.rd (K.ttftTarget w.slot)
    let x := s.inst i
    match w.key.bind (s.req w.slot) with
    | some r => if tgt = 0 then none else
        some ((1000 * tgt : Int) - ((s.time : Int) - r.accepted) -
          (ceilDiv (w.nPrompt - w.fed) (s.rd (K.prefillChunk i)) * (x.estPre + x.estDec) : Nat))
    | none => none).min?

/-- The kind of the next step: some true for prefill, some false for decode, none for IDLE. -/
def State.chooseKind (s : State) (i : Nat) (ws : List Work) : Option Bool :=
  let dec := ws.filter Work.decoding
  let pre := ws.filter Work.prefilling
  if dec.isEmpty then (if pre.isEmpty then none else some true)
  else if pre.isEmpty then some false
  else
    let npre := ((s.inst i).kinds.filter id).length
    if npre < s.rd (K.prefillMin i) then some true
    else if s.rd (K.prefillMax i) ≤ npre then some false
    else match s.prefillSlack i pre, s.decodeSlack i dec with
      | none, _ => some false
      | some _, none => some true
      | some sp, some sd => some (decide (sp < sd))

/-- The new running estimate after a step of measured duration d (R301). -/
def newEst (est d : Nat) : Nat := ((est : Int) + ((d : Int) - est).tdiv 8).toNat

/-! ## Building a step (R300, R264, R311, R313) -/

/-- `ctop_k` of a row that chooses a token for a request (R300). -/
def Req.ctopK (r : Req) : Nat :=
  match r.params with
  | none => 1
  | some b =>
    let plain := b.penaltyWindow == 0 || ((logitOf b.repPenalty.toNat).eq Fl.one && (logitOf b.freqPenalty.toNat).isZero)
    if (logitOf b.temperature.toNat).isZero && plain then 1
    else if (logitOf b.topP.toNat).eq Fl.one && (logitOf b.minP.toNat).isZero && plain then b.topK
    else 256

/-- A plan row of a work. -/
def State.rowOf (s : State) (w : Work) (pos tok sample kind index : Nat) : PlanRow :=
  { handle := s.handleOf w.seq, position := pos, token := tok, sample := sample, kind := kind, index := index,
    alteration := w.alteration, slot := w.slot }

/-- Append a row that chooses a token, then its draft-head rows (R313). -/
def State.addChoosing (s : State) (w : Work) (pos tok kind index : Nat) (p : Plan) : Plan :=
  let k := match w.key.bind (s.req w.slot) with
    | some r => r.ctopK
    | none => 1
  let h := s.handleOf w.seq
  let n := p.samples.length
  let p := { p with rows := p.rows ++ [s.rowOf w pos tok n kind index], samples := p.samples ++ [(k, p.rows.length, h)] }
  (List.range w.heads).foldl (fun p j =>
    { p with rows := p.rows ++ [s.rowOf w pos tok p.samples.length 3 j],
             samples := p.samples ++ [(1, p.rows.length, h)] }) p

/-- The rows of a decoding sequence: one row, or a verification of its drafts (R311). -/
def State.decodeRows (s : State) (w : Work) (p : Plan) : Plan :=
  let pos := w.pos0 + w.fed
  match w.drafts with
  | [] => s.addChoosing w pos (w.feed.getD w.fed 0) 1 0 p
  | ds => ((w.feed.getD w.fed 0) :: ds).zipIdx.foldl (fun p x => s.addChoosing w (pos + x.2) x.1 2 x.2 p) p

/-- The rows of n prompt tokens; the last token of a prompt whose request generates chooses a token. -/
def State.prefillRows (s : State) (w : Work) (n : Nat) (p : Plan) : Plan :=
  (List.range n).foldl (fun p d =>
    let j := w.fed + d
    let tok := w.feed.getD j 0
    if w.gen ∧ j + 1 = w.feed.length then s.addChoosing w (w.pos0 + j) tok 0 0 p
    else { p with rows := p.rows ++ [s.rowOf w (w.pos0 + j) tok 0xFFFF 0 0] }) p

/-- Add a sequence to the step, when its rows fit the budget and its pages can be had (R264). Over the slot's quota, victims
are first chosen among its own sequences, and the sequence waits for their pages; with none, as with no free page, it is passed
over (R277). -/
def State.addWork (prefill : Bool) (budget : Nat) (sp : State × Plan) (w : Work) : State × Plan :=
  let s := sp.1
  let p := sp.2
  let left := budget - p.rows.length
  let fits := fun (p' : Plan) => decide (p'.rows.length ≤ budget) && decide (p'.samples.length ≤ 8192)
  let try_ := fun (w : Work) (p' : Plan) (upto : Nat) =>
    match s.allocUpTo w.seq upto with
    | some s' => (s'.stallOver w, p')
    | none =>
      let i := (s.seq w.seq).inst
      let need := s.slotPages w.slot + (s.missing w.seq upto).length
      let keep := w.seq :: p.rows.map fun r => r.handle % 65536
      let freeing := s.freeingSlot i w.slot
      if s.rd (K.pageQuota w.slot) < need ∧ (freeing ≠ 0 ∨ s.victims i keep (some w.slot) ≠ []) then
        (s.pressSlot i w.slot freeing (need - s.rd (K.pageQuota w.slot)) keep, p)
      else (s.passOver w, p)
  if left = 0 then sp
  else if prefill then
    let n := min (w.nPrompt - w.fed) left
    let p1 := s.prefillRows w n p
    let p2 := s.prefillRows { w with heads := 0 } n p
    if fits p1 then try_ w p1 (w.pos0 + w.fed + n)
    else if fits p2 then try_ w p2 (w.pos0 + w.fed + n) else sp
  else
    let p1 := s.decodeRows w p
    let p2 := s.decodeRows { w with drafts := [] } p
    if fits p1 then try_ w p1 (w.pos0 + w.fed + 1 + w.drafts.length)
    else if fits p2 then try_ w p2 (w.pos0 + w.fed + 1) else sp

/-- A plan row's 32 bytes. -/
def PlanRow.bytes (r : PlanRow) : List Byte :=
  leBytes 4 r.handle ++ leBytes 4 r.position ++ leBytes 4 r.token ++ leBytes 4 (r.position + 1) ++ leBytes 2 r.sample ++
  leBytes 1 r.kind ++ leBytes 1 r.index ++ leBytes 2 r.alteration ++ leBytes 2 r.slot ++ leBytes 8 0

/-- The plan as the table holds it: header, rows, sample-slot entries; every later entry is zero (R300). -/
def Plan.bytes (p : Plan) : List Byte :=
  leBytes 8 p.step ++ leBytes 1 p.kind ++ leBytes 1 0 ++ leBytes 2 p.rows.length ++ leBytes 2 p.samples.length ++
  leBytes 50 0 ++ p.rows.flatMap PlanRow.bytes ++
  p.samples.flatMap fun x => leBytes 2 x.1 ++ leBytes 2 x.2.1 ++ leBytes 4 x.2.2

/-- Physical core of the instance's selector. -/
def State.selectorOf (s : State) (i : Nat) : Option Nat :=
  (s.coresOf i).find? fun c => (s.core c).selector && (s.core c).addrValid

/-- The step starts: its plan is in the table and in force, the selector's choices are cleared (R300). -/
def State.startStep (s : State) (i : Nat) (prefill : Bool) (p : Plan) : State :=
  let x := s.inst i
  let p := { p with step := x.stepNo, kind := b2n prefill }
  let a := x.queueBase + x.stepNo % 2 * planBytes
  let s := (s.hbmClear i a planBytes).hbmWrite i a p.bytes
  let s := s.modInst i fun x =>
    { x with plan := p, stepOn := true, passes := 0, stepStart := s.time, stepNo := x.stepNo + 1,
             kinds := (prefill :: x.kinds).take 64, withheld := false,
             sampleOf := p.samples.map fun y => (s.seq (y.2.2 % 65536)).slot }
  let s := s.bump (if prefill then K.stepsPrefill i else K.stepsDecode i) 64 1
  match s.selectorOf i with
  | some c => s.modCore c fun k => { k with picks := [] }
  | none => s

/-! ## Hot slots (R271) -/

/-- Hot slots that the pattern in force declares. -/
def State.hotCount (s : State) (i : Nat) : Nat :=
  let p := (s.inst i).pattern
  if p = [] then 0 else Config.hotSlots p % 65536

/-- The decoding sequences of instance i, those that stepped most recently first. -/
def State.hotOrder (s : State) (i : Nat) : List Nat :=
  let l := ((s.works i).filter Work.decoding).map fun w => (w, (s.seq w.seq).lastStep)
  (sortBy (fun a b => lexLt [2 ^ 64 - a.2, 7 - a.1.prio, a.1.seq] [2 ^ 64 - b.2, 7 - b.1.prio, b.1.seq]) l).map (·.1.seq)

/-- Hot slot h goes to sequence q: at every core its granules get the sequence's tenant tag, zeroed where the tenant
changes. -/
def State.takeHot (s : State) (i h q : Nat) : State :=
  let x := s.inst i
  let slot := (s.seq q).slot
  let s := (s.modInst i fun x => { x with hot := mapSet (fun _ => 0) x.hot h (q + 1) }).modSeq q fun r => { r with hot := some h }
  s.each (s.coresOf i) fun s c => s.modCore c fun k =>
    k.giveGranules (s.mclkAcc / 1000000) slot ((Config.hotGranules x.pattern k.block h).filter fun g => decide (g < 1536))

/-- Assign the hot slots of instance i (R271): a sequence that no longer ranks among as many as there are slots loses its
own, and each one that ranks and has none takes the lowest free slot. -/
def State.assignHot (s : State) (i : Nat) : State :=
  let n := s.hotCount i
  let want := (s.hotOrder i).take n
  let s := s.each ((s.seqs.filter fun p => p.2.inst == i && p.2.hot.isSome && !want.contains p.1).map (·.1)) State.freeHot
  s.each (want.filter fun q => (s.seq q).hot.isNone) fun s q =>
    match (List.range n).find? fun h => mapGet (fun _ => 0) (s.inst i).hot h == 0 with
    | some h => s.takeHot i h q
    | none => s

/-- Choose and build the next step; an IDLE choice, or a step in which no sequence has its pages, runs none and the
release is withheld (R301). -/
def State.nextStep (s : State) (i : Nat) : State :=
  let ws := s.works i
  let idle := fun (s : State) => s.modInst i fun x => { x with withheld := true, stepOn := false, plan := {} }
  match s.chooseKind i ws with
  | none => idle s
  | some prefill =>
    let mine := sortBy Work.before (ws.filter (if prefill then Work.prefilling else Work.decoding))
    let budget := if prefill then s.rd (K.prefillChunk i) else s.rd (K.decodeRowsMax i)
    let r := mine.foldl (State.addWork prefill budget) (s, {})
    if r.2.rows.isEmpty then idle r.1 else r.1.startStep i prefill r.2

/-! ## Admission (R277, R299, R365) -/

/-- Requests of an instance accepted and not yet admitted, the first of each slot. -/
def State.waiting (s : State) (i : Nat) : List Req :=
  let l := (s.instReqs i).filter fun r => !r.admitted && r.opcode ≤ 2 && s.rd (K.slotState r.slot) == 1
  l.filter fun r => l.all fun x => x.slot != r.slot || decide (r.order ≤ x.order)

/-- Tokens of a request that need caching are covered by this many pages more than the sequence has (log entry 22). -/
def State.inputPages (s : State) (i length n : Nat) : Nat :=
  (ceilDiv (length + n) (s.pageTokens i) - ceilDiv length (s.pageTokens i)) * s.pageGroups i

/-- R299 admits the request now. -/
def State.admissible (s : State) (r : Req) : Bool :=
  let room := fun length => decide (s.rd (K.lowWm r.inst) + s.inputPages r.inst length r.tokens.length ≤ s.poolFree r.inst)
  match r.seq with
  | some q => s.resident q && (!(s.seq q).starved || room (s.seq q).length)
  | none => decide (s.liveIn r.inst < s.rd (K.seqLimit r.inst)) && decide (s.liveAll < 65536) && room 0 &&
      (s.placeList r.inst (ceilDiv r.e.maxContext (s.pageTokens r.inst) * s.pageGroups r.inst)).isSome

/-- The tokens that a request has to cache on a sequence, and the position of the first: a committed token not yet
cached, then the input; with neither, the last cached token again (log entry 23). -/
def Seq.feedFor (x : Seq) (gen : Bool) (input : List Nat) : Nat × List Nat :=
  let f := x.pending ++ input
  if f.isEmpty && gen && 0 < x.length then (x.length - 1, (x.tokenAt (x.length - 1)).toList) else (x.length, f)

/-- Give a draft sequence tokens to cache and drafts to choose (R314): the position of the first token, then the
tokens. -/
def State.feedDraft (s : State) (d pos0 : Nat) (feed : List Nat) (left base : Nat) : State :=
  s.modSeq d fun x =>
    let x := if pos0 < x.length then x.staleRecords else x
    let x := feed.zipIdx.foldl (fun x p => x.putToken (pos0 + p.2) p.1) (x.cutTokens pos0)
    { x with state := if x.state = .idle then .active else x.state, length := min x.length pos0,
             draft := { x.draft with pos0 := pos0, feed := feed, fed := 0, nPrompt := feed.length, left := left,
                                     out := [], base := base } }

/-- Create the draft sequence beside a new target sequence (R314); without room for it the target runs undrafted. -/
def State.pairDraft (s : State) (q m : Nat) : State :=
  let r := s.seq q
  let d := s.rd (K.draftInstance r.inst)
  if 11 < d ∨ s.rd (K.seqLimit d) ≤ s.liveIn d ∨ !s.ready d then s
  else match s.newSeq d r.slot r.maxContext 0 with
    | none => s
    | some (s, p) =>
      (s.modSeq p fun x => { x with isDraft := true, pair := some q, draft := { m := m } }).modSeq q fun x =>
        { x with pair := some p }

/-- Admit a request: it has its sequence and its tokens to run; one with no token to process ends with success. -/
def State.takeIn (s : State) (r : Req) : State :=
  let placed : Option (State × Nat) := match r.seq with
    | some q => some (s, q)
    | none => match s.newSeq r.inst r.slot r.e.maxContext r.e.pinnedLen with
      | some (s, q) => some (if r.specSource = 2 then s.pairDraft q r.specM else s, q)
      | none => none
  match placed with
  | none => s
  | some (s, q) =>
    let x := s.seq q
    let f := x.feedFor (r.opcode == 1) r.tokens
    let s := s.setSeq q { x with state := .active, starved := false }
    let s := s.modReq r.slot r.key fun y =>
      { y with admitted := true, seq := some q, handle := s.handleOf q, pos0 := f.1, feed := f.2, fed := 0,
               nPrompt := if r.tokens.isEmpty && r.opcode == 1 then 0 else f.2.length }
    let s := match x.pair with
      | some d => if r.tokens.isEmpty then s else
          let at_ := min (s.seq d).length f.1
          s.feedDraft d at_ ((x.tokens ++ r.tokens).drop at_) 0 0
      | none => s
    if f.2.isEmpty then s.endReq r.slot r.key 0 else s

/-- Admit requests one at a time for as long as R299 allows, the slot of each chosen under R365. -/
def State.admitAll (s : State) (i : Nat) : Nat → State
  | 0 => s
  | fuel + 1 =>
    let cand := (s.waiting i).filter s.admissible
    let before := fun (a b : Req) => lexLt [7 - s.rd (K.priority a.slot), (s.slot a.slot).vt, a.slot]
      [7 - s.rd (K.priority b.slot), (s.slot b.slot).vt, b.slot]
    match sortBy before cand with
    | [] => s
    | r :: _ =>
      let s := s.modSlot r.slot fun x => { x with vt := (x.vt + 65536 / s.rd (K.weight r.slot)) % 2 ^ 64 }
      State.admitAll (s.takeIn r) i fuel

/-! ## Committing a step (R300 step 1, R303, R312, R315) -/

/-- A chosen token with its taint and its penalty-inexact mark. -/
structure Choice where
  token : Nat
  taint : Bool
  inexact : Bool
deriving DecidableEq, Repr

/-- What the step's SPICK chose in a sample slot. -/
def State.choice (s : State) (i sample : Nat) : Option Choice :=
  match s.selectorOf i with
  | none => none
  | some c =>
    let v := mapGet (fun _ => 0) (s.core c).picks sample
    if bits v 24 0 = 0 then none else some ⟨bits v 24 0 - 1, bit v 31, bit v 32⟩

/-- The stop condition that the latest emitted token meets, with its index (R315). -/
def State.stopOf (s : State) (r : Req) : Option (Nat × Nat) :=
  let b := r.params.getD ⟨0, 0, 0, 0, 0, 0, 0, 0, 0, true, [], [], [], []⟩
  let tok := r.emitted.getLast?.getD 0
  let q := s.seq (r.seq.getD 0)
  match b.stopTokens.findIdx? (· == tok) with
  | some j => some (1, j)
  | none =>
    match b.stopSeqs.findIdx? fun l => decide (l ≠ []) && r.emitted.drop (r.emitted.length - l.length) == l with
    | some j => some (2, j)
    | none =>
      if r.e.maxNew ≤ r.emitted.length then some (3, 0)
      else if q.maxContext ≤ q.length then some (4, 0)
      else if r.from_ = .ring ∧ r.e.outputCap ≤ r.emitted.length then some (5, 0)
      else none

/-- Result of emitting: go on, stopped by a condition, or a failed output write. -/
inductive Emitted where
  | more
  | stopped
  | failed
deriving DecidableEq, Repr

/-- Emit one chosen token of a request at length n: write it, append it, judge the stop conditions (R289, R315). -/
def State.emitOne (s : State) (slot key n : Nat) (t : Choice) : State × Emitted :=
  match s.req slot key with
  | none => (s, .stopped)
  | some r =>
    if r.from_ = .ring ∧ r.e.outputCap ≤ r.emitted.length then
      (s.modReq slot key fun x => { x with stopReason := 5 }, .stopped)
    else
      let w : State × Bool := match r.from_ with
        | .frp _ => (s, true)
        | .ring => match s.slotRef slot (r.e.output.toNat + 4 * r.emitted.length) 4 with
          | some h => s.hostWrite h (leBytes 4 t.token)
          | none => (s, false)
      if !w.2 then (w.1, .failed)
      else
        let s := w.1
        let i := r.inst
        let s := match r.seq with
          | some q => s.modSeq q fun x => { (x.cutTokens n).putToken n t.token with length := n }
          | none => s
        let s := (s.bump (K.srvTokensEmitted i) 64 1).bump (K.slotTokensEmitted slot) 64 1
        let s := if t.taint then
            (s.bump (K.taintTokens i) 64 1).wr (K.precStatus i) (s.rd (K.precStatus i) ||| 8) else s
        let s := s.modReq slot key fun x =>
          { x with emitted := x.emitted ++ [t.token], feed := x.feed ++ [t.token],
                   taint := x.taint || t.taint, taintSince := x.taintSince || t.taint,
                   inexact := x.inexact || t.inexact, inexactSince := x.inexactSince || t.inexact }
        match (s.req slot key).bind s.stopOf with
        | some (reason, index) => (s.modReq slot key fun x => { x with stopReason := reason, stopIndex := index }, .stopped)
        | none => (s, .more)

/-- Emit chosen tokens in order until a condition stops; n is the sequence length before the first of them. -/
def State.emitList (s : State) (slot key n : Nat) : List Choice → State × Emitted
  | [] => (s, .more)
  | t :: ts =>
    match s.emitOne slot key (n + 1) t with
    | (s, .more) => State.emitList s slot key (n + 1) ts
    | r => r

/-- Latency accounting of a commit of j tokens (R303, R368). -/
def State.account (s : State) (slot key j : Nat) : State :=
  match s.req slot key with
  | none => s
  | some r =>
    if j = 0 then s
    else if r.emitted.length = j then
      let d := s.time - r.accepted
      let tgt := s.rd (K.ttftTarget slot)
      let s := s.modReq slot key fun x => { x with ttftUs := d / 1000, lastCommit := some s.time }
      if tgt ≠ 0 ∧ 1000 * tgt < d then
        ((s.bump (K.srvTtftViolations r.inst) 64 1).bump (K.slotTtftViolations slot) 64 1).serviceAlert slot
      else s
    else
      let d := s.time - r.lastCommit.getD r.accepted
      let tgt := s.rd (K.tbtTarget slot)
      let late := decide (tgt ≠ 0) && decide (1000 * tgt * j < d)
      let s := s.modReq slot key fun x =>
        { x with tbtMaxUs := max x.tbtMaxUs (d / j / 1000), lastCommit := some s.time,
                 tbtViol := (x.tbtViol + if late then j else 0) % 2 ^ 32 }
      let s := s.bump (K.tbtIntervals slot) 64 j
      if late then ((s.bump (K.srvTbtViolations r.inst) 64 j).bump (K.slotTbtViolations slot) 64 j).serviceAlert slot
      else s

/-- After a commit: FRP tokens sent, interim completion by `stream_every`, drafting partner told (R292, R295, R314). -/
def State.afterCommit (s : State) (slot key j : Nat) : State :=
  match s.req slot key with
  | none => s
  | some r =>
    let news := r.emitted.drop (r.emitted.length - j)
    let s := match r.from_ with
      | .frp a => s.frpTokens slot a key (j + 1) (r.emitted.length - j) news
      | .ring => s
    let s := match r.seq with
      | some q => match (s.seq q).pair with
        | some d => if j = 0 then s else s.sendDraft q d 1 (s.seq q).length news
        | none => s
      | none => s
    if r.e.streamEvery ≠ 0 ∧ r.reported + r.e.streamEvery ≤ r.emitted.length ∧ r.stopReason = 0 then
      s.postInterim slot key else s

/-- The drafts that the draft-head rows of one position chose (R313). -/
def State.headDrafts (s : State) (i : Nat) (rows : List PlanRow) (pos : Nat) : List Nat :=
  (rows.filter fun x => x.kind == 3 && x.position == pos).filterMap fun x => (s.choice i x.sample).map (·.token)

/-- Cache the tokens of rows: the length covers them (R278). -/
def State.cacheRows (s : State) (q : Nat) (rows : List PlanRow) : State :=
  s.modSeq q fun x => { rows.foldl (fun (x : Seq) r => { x.putToken r.position r.token with
    length := max x.length (r.position + 1) }) x with lastStep := s.time }

/-- Commit the rows of one sequence's request (R300, R312, R315, R368). A row that chooses a token and has none chosen
leaves the sequence to run again. -/
def State.commitReq (s : State) (i : Nat) (r : Req) (q : Nat) (all : List PlanRow) : State :=
  let rows := all.filter fun x => x.kind != 3
  let first := (rows.head?.map (·.position)).getD 0
  let picks := (rows.filter fun x => x.sample != 0xFFFF).map fun x => s.choice i x.sample
  if first ≠ r.pos0 + r.fed ∨ picks.any Option.isNone then s
  else
    let cs := picks.filterMap id
    let ver := rows.filter fun x => x.kind == 2
    let a := match ver with
      | [] => 0
      | _ => acceptCount (cs.head?.map (·.token)) ((cs.drop 1).zip (ver.drop 1) |>.map fun p => (some p.1.token, p.2.token))
    let used := if ver.isEmpty then rows else rows.take (a + 1)
    let s := s.bump (K.rowsServed r.slot) 64 all.length
    let s := s.cacheRows q (if ver.isEmpty then rows else rows.take 1)
    let n := (s.seq q).length
    let before := r.emitted.length
    let s := s.modReq r.slot r.key fun x =>
      { x with fed := x.fed + if ver.isEmpty then rows.length else 1,
               draftsProp := (x.draftsProp + (ver.length - 1)) % 2 ^ 32, draftsAcc := (x.draftsAcc + a) % 2 ^ 32 }
    let s := (s.bump (K.draftsProposed i) 64 (ver.length - 1)).bump (K.draftsAccepted i) 64 a
    let e := s.emitList r.slot r.key (n - 1) (cs.take (a + 1))
    let j := ((e.1.req r.slot r.key).map fun x => x.emitted.length - before).getD 0
    let s := e.1.modReq r.slot r.key fun x => { x with fed := x.fed + (j - 1) }
    let heads := s.headDrafts i all ((used.getLast?.map (·.position)).getD 0)
    let s := s.modSeq q fun x => { x.settle (x.length - first) with drafts := heads, draftsAt := x.length }
    let s := (s.account r.slot r.key j).afterCommit r.slot r.key j
    match e.2 with
    | .failed => s.endReq r.slot r.key 0x0E
    | .stopped => s.endReq r.slot r.key 0
    | .more =>
      match s.req r.slot r.key with
      | some x => if x.opcode = 2 ∧ x.feed.length ≤ x.fed then s.endReq r.slot r.key 0 else s
      | none => s

/-- Commit the rows of a draft sequence: cached tokens, chosen drafts, and the DRAFT message once all are chosen (R314). -/
def State.commitDraft (s : State) (i q : Nat) (rows : List PlanRow) : State :=
  let d := (s.seq q).draft
  let first := (rows.head?.map (·.position)).getD 0
  let picks := (rows.filter fun x => x.sample != 0xFFFF).map fun x => s.choice i x.sample
  if first ≠ d.pos0 + d.fed ∨ picks.any Option.isNone then s
  else
    let toks := (picks.filterMap id).map (·.token)
    let s := s.cacheRows q rows
    let s := s.modSeq q fun x =>
      let x := toks.foldl (fun (x : Seq) t => x.putToken x.length t) x
      let left := x.draft.left - toks.length
      { x with draft := { x.draft with fed := x.draft.fed + rows.length, left := left, out := x.draft.out ++ toks,
                                       feed := if left = 0 then x.draft.feed else x.draft.feed ++ toks } }
    let d := (s.seq q).draft
    match (s.seq q).pair with
    | some t => if !toks.isEmpty && d.left == 0 then s.sendDraft q t 2 d.base d.out else s
    | none => s

/-- Commit the finished step (R300): every sequence of its plan in plan order, then the estimate (R301). -/
def State.commitStep (s : State) (i : Nat) : State :=
  let x := s.inst i
  if !x.stepOn then s
  else
    let p := x.plan
    let est := fun e => newEst e (s.time - x.stepStart)
    let s := s.modInst i fun y => if p.kind = 1 then { y with estPre := est y.estPre } else { y with estDec := est y.estDec }
    let s := s.each (p.rows.map (·.handle)).eraseDups fun s h =>
      let q := h % 65536
      let rows := p.rows.filter fun r => r.handle == h
      if s.handleOf q ≠ h then s
      else if (s.seq q).isDraft then s.commitDraft i q rows
      else match s.reqOn q with
        | some r => s.commitReq i r q rows
        | none => s
    s.modInst i fun y => { y with stepOn := false, passes := 0, plan := {} }

/-! ## Draft-token messages (R314) -/

/-- The draft or target sequence of instance i that a message names. -/
def State.msgSeq (s : State) (i : Nat) (h : BitVec 32) (isDraft : Bool) : Option Nat :=
  let q := h.toNat % 65536
  let r := s.seq q
  if r.state ≠ .free ∧ s.handleOf q = h.toNat ∧ r.inst = i ∧ r.isDraft = isDraft ∧ r.pair.isSome then some q else none

/-- A draft-token message comes from the selector of the instance that `draft_instance` pairs with instance i, and asks for
what that side may ask for (R19, R314). -/
def State.draftFrom (s : State) (i : Nat) (m : DraftMsg) (toDraft toTarget : Bool) : Bool :=
  decide (s.selectorOf m.src.val = some m.srcCore.val) &&
    ((toDraft && s.rd (K.draftInstance m.src.val) == i) || (toTarget && s.rd (K.draftInstance i) == m.src.val))

/-- DRAFT_ACCEPT_MESSAGE (R19, R314): any but the partner's selector is refused (log entry 76). The draft sequence takes the committed tokens and decodes m drafts after them. -/
def execDraftAcceptMessage (i : InstId) (m : DraftMsg) (s : State) : Out :=
  if !s.draftFrom i m true false then .next (s.bump K.staleDrops 64 1)
  else
    match s.msgSeq i m.draft true with
    | none => .next s
    | some q =>
      let x := s.seq q
      let pos := m.base.toNat - m.tokens.length
      let start := min x.length pos
      if pos < x.tokens.length then
        .next (s.feedDraft q start ((x.tokens.take (pos + 1)).drop start ++ m.tokens) x.draft.m m.base.toNat)
      else .next s

/-- DRAFT_MESSAGE (R314): the target keeps the drafts with the length they follow; the next step boundary uses them only
when that is its length. -/
def execDraftMessage (i : InstId) (m : DraftMsg) (s : State) : Out :=
  if !s.draftFrom i m false true then .next (s.bump K.staleDrops 64 1)
  else
    match s.msgSeq i m.target false with
    | none => .next s
    | some q => .next (s.modSeq q fun x => { x with drafts := m.tokens, draftsAt := m.base.toNat })

/-- DROP_MESSAGE (R314): the pairing ends; a draft sequence ends with it. -/
def execDropMessage (i : InstId) (m : DraftMsg) (s : State) : Out :=
  if !s.draftFrom i m true true then .next (s.bump K.staleDrops 64 1)
  else
    match s.msgSeq i m.draft true with
    | some q => .next ((s.modSeq q fun x => { x with pair := none }).endSeq q false)
    | none =>
      match s.msgSeq i m.target false with
      | some q => .next (s.modSeq q fun x => { x with pair := none, drafts := [] })
      | none => .next s

end Sys2Proof.Machine
end

