-- ==== Sys2Proof/Machine/Entries.lean ====
section
/-! DEFINITION. Writing a dictionary entry: the checks of shape, range and state that each entry's own chapter gives it
(R399, R400 and the entry tables), and its store (R403, R406). Also the access functions of the sessions and units. -/

namespace Sys2Proof.Machine

/-! ## Access functions -/

/-- Number of a session in `State.sessions`. -/
def sesNo : SessId → Nat
  | .dtls n => n
  | .mctp n => 16 + n
  | .pf n => 24 + n
  | .casc => 32
  | .vf s => 64 + s
/-- Session. -/
def State.ses (s : State) (n : Nat) : Ses := mapGet (fun _ => {}) s.sessions n
/-- Replace a session. -/
def State.setSes (s : State) (n : Nat) (x : Ses) : State := { s with sessions := mapSet (fun _ => {}) s.sessions n x }
/-- Change a session. -/
def State.modSes (s : State) (n : Nat) (f : Ses → Ses) : State := s.setSes n (f (s.ses n))
/-- HBM stack n. -/
def State.stack (s : State) (n : Nat) : Stack := mapGet (fun _ => {}) s.hbmStacks n
/-- Replace an HBM stack. -/
def State.setStack (s : State) (n : Nat) (x : Stack) : State := { s with hbmStacks := mapSet (fun _ => {}) s.hbmStacks n x }
/-- PCIe port n. -/
def State.port (s : State) (n : Nat) : Port := mapGet (fun _ => {}) s.ports n
/-- Replace a PCIe port. -/
def State.setPort (s : State) (n : Nat) (x : Port) : State := { s with ports := mapSet (fun _ => {}) s.ports n x }
/-- Pin n. -/
def State.pin (s : State) (n : Nat) : Pin := mapGet (fun _ => {}) s.pins n
/-- Replace a pin. -/
def State.setPin (s : State) (n : Nat) (x : Pin) : State := { s with pins := mapSet (fun _ => {}) s.pins n x }
/-- Region n. -/
def State.region (s : State) (n : Nat) : Region := mapGet (fun _ => {}) s.regions n
/-- Replace a region. -/
def State.setRegion (s : State) (n : Nat) (x : Region) : State := { s with regions := mapSet (fun _ => {}) s.regions n x }
/-- Panel n. -/
def State.panel (s : State) (n : Nat) : PanelSt := mapGet (fun _ => {}) s.panels n
/-- Replace a panel. -/
def State.setPanel (s : State) (n : Nat) (x : PanelSt) : State := { s with panels := mapSet (fun _ => {}) s.panels n x }

/-- A signed entry's value. -/
def State.rdI (s : State) (key w : Nat) : Int := signedAt w (s.rd key)
/-- Write a signed entry. -/
def State.wrI (s : State) (key w : Nat) (v : Int) : State := s.wr key (unsignedAt w v)

/-- Instances in one of the given states only. -/
def State.allIn (s : State) (codes : List Nat) : Bool :=
  (List.range 12).all fun i => decide (s.rd (K.instState i) ∈ codes)
/-- Every instance is Absent, Unfitted or Stopped (R184, R439, R446). -/
def State.quietDevice (s : State) : Bool := s.allIn [0, 1, 4]

/-- A change that waits for the next tack of instance i. -/
def State.change (s : State) (i : Nat) (c : Change) : State :=
  s.modInst i fun x => { x with changes := x.changes ++ [c] }

/-! ## Shape and range (R399, R400) -/

/-- The entry is a BLOB or STR. -/
def DType.bytes (t : DType) : Bool := t == .blob || t == .str

/-- A value lies in the entry's range. -/
def DictRow.inRange (r : DictRow) (v : Nat) : Bool :=
  let i : Int := if r.ty.signed then signedAt r.ty.bits v else v
  (decide (r.min ≤ i) && decide (i ≤ r.max)) || r.also == some i

/-- Status of a value by its length and range: 0x06, 0x04, or 0. -/
def DictRow.shape (r : DictRow) (b : List Byte) : Nat :=
  if r.ty.bytes then (if r.min ≤ b.length ∧ b.length ≤ r.max then 0 else 6)
  else if 8 * b.length ≠ r.ty.bits then 6
  else if r.inRange (leNat b) then 0 else 4

/-! ## State conditions -/

/-- `recipe_select` (R88, R91). R88 gives no order of its cases: the state is judged first, then the length, then the
values (log entry 74). -/
def State.recipeRule (s : State) (i : Nat) (b : List Byte) : Nat :=
  if !(s.ready i || s.rd (K.instState i) == 5) then 5
  else if b.length ≠ s.rd (K.modelLayers i) then 6
  else if b.zipIdx.all fun p => decide (p.1.toNat ≤ 3) &&
      bit (mapGet (fun _ => 0) (s.inst i).recipes (4 * p.2 + p.1.toNat)) 0 then 0 else 4

/-- The instance entries of R325. -/
def State.instRule (s : State) (i sub v : Nat) (b : List Byte) : Nat :=
  if sub = 0x30 then s.recipeRule i b
  else if sub ∈ [2, 3, 7, 8, 9, 0xA, 0xB] then
    if sub = 0xB ∧ v % 4096 ≠ 0 then 4 else if s.rd (K.instState i) ≤ 1 then 0 else 5
  else 0

/-- Value of an entry of instance i once the writes that wait for its tack have taken effect (R24). -/
def State.rdNext (s : State) (i key : Nat) : Nat :=
  (s.inst i).changes.foldl (fun v c => match c with
    | .entry k w => if k = key then w else v
    | .commit _ es => es.foldl (fun v e => if e.1 = key then leNat e.2 else v) v
    | _ => v) (s.rd key)

/-- The serving entries of R320, judged against what the writes still pending leave. -/
def State.serveRule (s : State) (i sub v : Nat) : Nat :=
  if sub = 1 then
    if s.rd (K.instState i) ≤ 1 ∧ (11 < v ∨ (v ≠ i ∧ s.rd (K.instState v) ≤ 1)) then 0 else 5
  else if sub = 2 then (if v ≤ s.rdNext i (K.prefillMax i) then 0 else 5)
  else if sub = 3 then (if s.rdNext i (K.prefillMin i) ≤ v then 0 else 5)
  else if sub = 6 then
    (if ((List.range 12).map fun j => if j = i then v else s.rdNext j (K.seqLimit j)).sum ≤ 65536 then 0 else 5)
  else 0

/-- The watermarks of R280, judged against what the writes still pending leave. -/
def State.wmRule (s : State) (i sub v : Nat) : Nat :=
  let lo := if sub = 4 then v else s.rdNext i (K.lowWm i)
  let hi := if sub = 5 then v else s.rdNext i (K.highWm i)
  if sub = 4 ∨ sub = 5 then (if lo ≤ hi ∧ hi ≤ s.rd (K.poolPages i) then 0 else 4) else 0

/-- An alteration slot of instance i holds a record (R341). -/
def State.altHeld (s : State) (i v : Nat) : Bool := mapGet (fun _ => 0) (s.inst i).alts v != 0

/-- The slot entries of R370. -/
def State.slotRule (s : State) (n sub v : Nat) : Nat :=
  let off := s.rd (K.slotState n) == 0
  if sub = 4 ∨ sub = 5 ∨ sub = 0xD then (if off then 0 else 5)
  else if sub = 0xC then (if v % 65536 ≠ 0 then 4 else if off then 0 else 5)
  else if sub = 0xF then (if v = 0xFFFF ∨ s.altHeld (s.rd (K.slotInstance n)) v then 0 else 5)
  else 0

/-- The thermal limits of R447. -/
def State.thermalRule (s : State) (sub v : Nat) : Nat :=
  let at_ := fun k : Nat => if sub = k then signedAt 32 v else s.rdI (0x2400 * 256 + k) 32
  if sub ∈ [1, 2, 4] then
    (if at_ 4 + 2000 ≤ at_ 1 ∧ at_ 1 ≤ at_ 2 - 5000 then 0 else 4)
  else if sub = 5 ∨ sub = 6 then (if at_ 5 ≤ at_ 6 - 5000 then 0 else 4)
  else 0

/-- The segment entries of R413. -/
def State.segRule (s : State) (g sub v : Nat) : Nat :=
  if sub = 1 then (if v = 0 ∧ s.rd (K.segEnable (1 - g)) = 0 then 5 else 0)
  else if s.rd (K.segEnable g) = 0 then 0 else 5

/-- A function's parameter is valid (R390). -/
def sbParamOk (func v : Nat) : Bool :=
  if func = 4 ∨ func = 5 then v == 0 || (decide (9600 ≤ v) && decide (v ≤ 3000000))
  else if func = 2 ∨ func = 3 then v == 0 || (decide (100 ≤ v) && decide (v ≤ 12500))
  else if func = 6 then decide (v ≤ 11)
  else true

/-- Another pin has, or is to have, one of the functions that exist once (R388). -/
def State.sbTaken (s : State) (p func : Nat) : Bool :=
  decide (2 ≤ func) && decide (func ≤ 5) &&
    (List.range 8).any fun q => q != p &&
      ((s.pin q).func == func || (s.pin q).want == func || (s.pin q).held == some func)

/-- The sideband entries of R390. -/
def State.sbRule (s : State) (p sub v : Nat) : Nat :=
  if sub = 1 then (if s.sbTaken p v || !sbParamOk v (s.rd (K.sbParam p)) then 5 else 0)
  else if sub = 5 then (if sbParamOk (s.rd (K.sbFunc p)) v then 0 else 5)
  else 0

/-- The cascade entries of R494. -/
def State.cascRule (s : State) (sub v : Nat) : Nat :=
  if sub = 0xC then 0
  else if sub = 5 ∧ (511 < v ∨ 3 < bits v 1 0 ∨ 16 < (bits v 1 0 + 1) * (bits v 4 2 + 1) * (bits v 8 5 + 1)) then 4
  else if s.rd K.cascState = 0 ∨ s.rd K.cascState = 2 then 0 else 5

/-- Status that the rule of an entry's own chapter gives a write in the present state. -/
def State.entryRule (s : State) (key v : Nat) (b : List Byte) : Nat :=
  let idx := key / 256
  let sub := key % 256
  if 0x4000 ≤ idx ∧ idx < 0x400C then s.instRule (idx - 0x4000) sub v b
  else if 0x6010 ≤ idx ∧ idx < 0x601C then s.serveRule (idx - 0x6010) sub v
  else if 0x6100 ≤ idx ∧ idx < 0x610C then s.wmRule (idx - 0x6100) sub v
  else if 0x5000 ≤ idx ∧ idx < 0x5200 then s.slotRule (idx - 0x5000) sub v
  else if idx = 0x2400 then s.thermalRule sub v
  else if idx = 0x1101 ∨ idx = 0x1102 then s.segRule (idx - 0x1101) sub v
  else if 0xA100 ≤ idx ∧ idx < 0xA108 then s.sbRule (idx - 0xA100) sub v
  else if idx = 0x7000 then s.cascRule sub v
  else if key = K.hzMode ∨ key = K.mclkSet ∨ key = K.vMargin then (if s.quietDevice then 0 else 5)
  else if key = K.dedupEntries ∨ key = K.frpPort then (if s.allIn [0, 1, 2, 6] then 0 else 5)
  else if idx = 0x4100 then (if s.allIn [0, 1, 3, 4, 5, 6] then 0 else 5)
  else if 0xA068 ≤ idx ∧ idx < 0xA06C ∧ sub = 2 then (if s.rd (K.ethLink (idx - 0xA068)) = 0 then 0 else 5)
  else if key = K.fwActivateAt then (if s.rd K.fwState = 3 then 0 else 5)
  else 0

/-! ## Stores -/

/-- Store an entry's value. -/
def State.storeEntry (s : State) (key : Nat) (b : List Byte) : State :=
  match dictRow (key / 256) (key % 256) with
  | some r => if r.ty.bytes then s.wrBlob key b else s.wr key (leNat b)
  | none => s

/-- Physical scratchpad address of a core's RECIPE region (R237, R238). -/
def State.recipeAt (s : State) (i c : Nat) : Nat :=
  (s.core c).wideAt (4096 * recipeGranule (s.inst i).pattern (s.core c).block)

/-- The word of a layer in the RECIPE region: code offset of the variant in force, and generation (R238). -/
def State.recipeWord (s : State) (i l : Nat) : Nat :=
  bits (mapGet (fun _ => 0) (s.inst i).recipes (4 * l + s.variantOf i l)) 46 32 +
    65536 * leAt (s.blob (K.recipeGeneration i)) (2 * l) 2

/-- A recipe switch in force: variants, generations, RECIPE region words in every core and in every spare written for a
re-placement, the count and the record (R88, R238, R253). -/
def State.applyRecipe (s : State) (i : Nat) (want : List Byte) : State :=
  let n := s.rd (K.modelLayers i)
  let now := slice (s.blob (K.recipeApplied i)) 0 n
  let gen := slice (s.blob (K.recipeGeneration i)) 0 (2 * n)
  let diff := (List.range n).filter fun l => want.getD l 0 != now.getD l 0
  if diff.isEmpty then s
  else
    let gen' := diff.foldl (fun g l => slice g 0 (2 * l) ++ leBytes 2 (leAt g (2 * l) 2 + 1) ++ g.drop (2 * l + 2)) gen
    let s := (s.wrBlob (K.recipeApplied i) (slice want 0 n)).wrBlob (K.recipeGeneration i) gen'
    let s := s.bump (K.recipeSwitches i) 32 diff.length
    let s := s.each (s.coresOf i ++ (s.inst i).replacing.filterMap fun r => r.spare) fun s c =>
      let a := s.recipeAt i c
      s.modCore c fun k => diff.foldl (fun k l => k.store (a + 4 * l) (leBytes 4 (s.recipeWord i l))) k
    s.logMg i 0x0101 0 0 noSlot diff.length (s.inst i).tackSeq

end Sys2Proof.Machine
end

