-- ==== Sys2Proof/Machine/Placement.lean ====
section
/-! DEFINITION. The loader's placement: which core takes each position (R247, R252), windows (R249), HBM regions (R239,
R255; log entry 27), patches (R244), what is written into cores and routers (R237-R243, R248, R250). -/

namespace Sys2Proof.Machine

/-! ## Cores (R1, R247, R454) -/

/-- The core carries a failure mark (R470). -/
def State.marked (s : State) (c : Nat) : Bool := mapGet (fun _ => false) s.marks c
/-- A good core (R1): passed factory test and the last muslin run, carries no mark, and its panel is available. -/
def State.goodCore (s : State) (c : Nat) : Bool :=
  Config.factoryGood c && !mapGet (fun _ => false) s.muslinFailed c && !s.marked c && s.rd (K.panelState (panelOf c)) != 2
/-- Granule g of core c is retired (R454). -/
def State.granuleGone (s : State) (c g : Nat) : Bool := bit (leAt (s.blob (K.retired c)) (g / 8) 1) (g % 8)
/-- Lowest `nbase` clear of retired granules in every pair (R249). -/
def State.nbaseFor (s : State) (c n : Nat) : Option Nat :=
  (List.range (129 - n)).find? fun b => (List.range n).all fun j => (List.range 8).all fun p =>
    !s.granuleGone c (128 * p + b + j)
/-- Lowest `wbase` clear of retired granules (R249). -/
def State.wbaseFor (s : State) (c n : Nat) : Option Nat :=
  (List.range (513 - n)).find? fun b => (List.range n).all fun j => !s.granuleGone c (1024 + b + j)
/-- Core c is good and usable for the block of a logical core of instance i (R247). -/
def State.fits (s : State) (i : Nat) (a : Alloc) (c : Nat) : Bool :=
  s.goodCore c && !(s.inst i).retired.contains c && (s.nbaseFor c a.narrow).isSome && (s.wbaseFor c a.wide).isSome

/-! ## The map (R247, R251) -/

/-- Absolute panel of relative panel r of instance i (R233). -/
def absPanel (i : Nat) (p : List Byte) (r : Nat) : Nat := i + r % patCols p + 4 * (r / patCols p)
/-- Relative panel of an absolute one. -/
def relPanel (i : Nat) (p : List Byte) (panel : Nat) : Nat := (panel - i) % 4 + patCols p * ((panel - i) / 4)
/-- Positions of the pattern: relative panel and logical index. -/
def patPositions (p : List Byte) : List (Nat × Nat) :=
  (List.range (patPanels p)).flatMap fun r => (List.range (patV p)).map fun l => (r, l)
/-- Distance of R247 between local indices. -/
def localDist (a b : Nat) : Nat := ((a % 10 : Int) - b % 10).natAbs + ((a / 10 : Int) - b / 10).natAbs

/-- Best local index among those that pass a test: least (distance from home, index). -/
def bestLocal (home : Nat) (ok : Nat → Bool) : Option Nat :=
  (sortBy (fun a b => lexLt [localDist a home, a] [localDist b home, b]) ((List.range 100).filter ok)).head?

/-- Pass 1 of R247: the logical cores that sit at home. -/
def State.homes (s : State) (i : Nat) (p : List Byte) (r : Nat) : List (Option Nat) :=
  (List.range (patV p)).map fun l =>
    let h := gridHome p r l
    if s.fits i (allocOf p (gridBlock p r l)) (100 * absPanel i p r + h) then some h else none

/-- Pass 2: displaced logical cores in ascending order; local indices, none for a position without a core. -/
def State.displace (s : State) (i : Nat) (p : List Byte) (r : Nat) : List (Nat × Option Nat) → List Nat → List (Option Nat)
  | [], _ => []
  | (_, some h) :: t, taken => some h :: State.displace s i p r t taken
  | (l, none) :: t, taken =>
    match bestLocal (gridHome p r l) fun x => !taken.contains x &&
        s.fits i (allocOf p (gridBlock p r l)) (100 * absPanel i p r + x) with
    | some x => some x :: State.displace s i p r t (x :: taken)
    | none => none :: State.displace s i p r t taken

/-- `map_panel`: local index per logical core, none for one without a core. -/
def State.mapPanel (s : State) (i : Nat) (p : List Byte) (r : Nat) : List (Option Nat) :=
  let h := s.homes i p r
  s.displace i p r (h.zipIdx.map fun x => (x.2, x.1)) (h.filterMap id)

/-- Physical core that serves a position, 0xFFFF none (R251). -/
def State.posCore (s : State) (panel logical : Nat) : Nat := leAt (s.blob (K.vgMap panel)) (2 * logical) 2
/-- Map a position to a core. -/
def State.setPos (s : State) (panel logical c : Nat) : State := s.blobPut (K.vgMap panel) (2 * logical) (leBytes 2 c)

/-- The counts of the virtual grid (R251). -/
def State.vgCounts (s : State) (i : Nat) (p : List Byte) : State :=
  let all := (patPositions p).map fun x => (absPanel i p x.1, x.2, s.posCore (absPanel i p x.1) x.2,
    100 * absPanel i p x.1 + gridHome p x.1 x.2)
  s.each (List.range (patPanels p)) fun s r =>
    let n := absPanel i p r
    let mine := all.filter fun x => x.1 == n && x.2.2.1 != 0xFFFF
    ((s.wr (K.vgDisplaced n) (mine.filter fun x => x.2.2.1 != x.2.2.2).length).wr (K.vgBorrowed n)
      (mine.filter fun x => panelOf x.2.2.1 != n).length).wr (K.vgLent n)
      (all.filter fun x => x.2.2.1 != 0xFFFF && panelOf x.2.2.1 == n && x.1 != n).length

/-- The panels of the instance that share an edge with a panel. -/
def State.edgePanels (s : State) (i panel : Nat) : List Nat :=
  (s.inst i).panels.filter fun q =>
    ((panel % 4 : Int) - q % 4).natAbs + ((panel / 4 : Int) - q / 4).natAbs == 1

/-- The spare for a position, measured from a core (R252): same panel first, then the panels that share an edge. -/
def State.spareFor (s : State) (i : Nat) (p : List Byte) (panel logical at_ : Nat) (used : List Nat) : Option Nat :=
  let a := allocOf p (gridBlock p (relPanel i p panel) logical)
  let among := fun (ps : List Nat) =>
    (sortBy (fun x y => lexLt [distance x at_, x] [distance y at_, y])
      ((ps.flatMap coresOfPanel).filter fun c => !(s.core c).addrValid && !used.contains c && s.fits i a c)).head?
  match among [panel] with
  | some c => some c
  | none => among (s.edgePanels i panel)

/-! ## HBM (R20, R239, R255, R337, R341) -/

/-- Where the loader puts everything of an instance's HBM. -/
structure HbmPlan where
  regions : List (Nat × Nat)
  goldens : List Nat
  alt : Nat
  queue : Nat
  pool : Nat
  pages : Nat
deriving DecidableEq, Repr

/-- Round up to a multiple. -/
def alignUp (a n : Nat) : Nat := n * ceilDiv a n

/-- Place regions one after another from an address on. -/
def placeRegions : Nat → List HbmRegion → List (Nat × Nat) × Nat
  | a, [] => ([], a)
  | a, r :: t =>
    let b := alignUp a (2 ^ r.align)
    let q := placeRegions (b + r.size) t
    ((r.id, b) :: q.1, q.2)

/-- Place golden images one after another, each at a 512-byte boundary. -/
def placeGoldens : Nat → List TileRec → List Nat × Nat
  | a, [] => ([], a)
  | a, t :: ts =>
    let b := alignUp a 512
    let q := placeGoldens (b + imageLen t.desc) ts
    (b :: q.1, q.2)

/-- Bytes of an alteration record slot (R341). -/
def altBytes : Nat := 393216

/-- The plan of an instance's HBM; none when less than `groups` pages are left (R246 code 0x0D). -/
def State.hbmPlan (s : State) (i : Nat) (p : List Byte) (groups : Nat) : Option HbmPlan :=
  let host := s.rd (K.goldenPlace i) == 1
  let r := placeRegions 0 (hbmRegions p)
  let g := placeGoldens (if host then 0 else r.2) (tileRecs p)
  let alt := alignUp (if host then r.2 else g.2) 4096
  let queue := alignUp (alt + 4097 * altBytes) 4096
  let pool := alignUp (queue + queueTableBytes + s.listAreaBytes i) 65536
  let pages := Nat.min (2 ^ 24) ((s.hbmSize i - pool) / 65536)
  if groups ≤ pages ∧ 0 < pages then some ⟨r.1, g.1, alt, queue, pool, pages⟩ else none

/-- The plan of the pattern in force. -/
def State.hbmPlanOf (s : State) (i : Nat) : HbmPlan :=
  (s.hbmPlan i (s.inst i).pattern 0).getD ⟨[], [], 0, 0, 0, 0⟩

/-! ## Patches (R244) -/

/-- The lowest valid device window of a role that an instance owns (R378). -/
def State.windowOf (s : State) (i role : Nat) : Option Nat :=
  (List.range 1024).find? fun w => (s.window w).valid && (s.window w).owner == i && (s.window w).role == role

/-- The value that a patch adds. -/
def State.patchValue (s : State) (i : Nat) (p : List Byte) (h : HbmPlan) (q : Patch) : Nat :=
  if q.kind = 1 then absPanel i p q.arg
  else if q.kind = 2 then i
  else if q.kind = 3 then ((h.regions.find? fun r => r.1 == q.arg).map (·.2)).getD 0
  else if q.kind = 4 then h.pool
  else if q.kind = 5 then h.alt
  else if q.kind = 6 then h.queue
  else (s.windowOf i q.arg).getD 0

/-- Apply to a byte string every patch of a target and place. -/
def State.patchBytes (s : State) (i : Nat) (p : List Byte) (h : HbmPlan) (target place : Nat) (b : List Byte) : List Byte :=
  ((patches p).filter fun q => q.target == target && q.place == place).foldl (fun b q =>
    let w := q.width / 8
    slice b 0 q.offset ++ leBytes w (q.put (leAt b q.offset w) (s.patchValue i p h q)) ++ b.drop (q.offset + w)) b

/-- The patched words of a block. -/
def State.blockWords (s : State) (i : Nat) (p : List Byte) (h : HbmPlan) (b : Nat) : Map Nat :=
  let mine := (patches p).filter fun q => q.target == 0 && q.place == b
  (List.range (codeLength p b)).foldl (fun m k =>
    let w := (mine.filter fun q => q.offset == k).foldl (fun w q => q.put w (s.patchValue i p h q)) (codeWord p b k)
    mapSet (fun _ => 0) m k w) []

/-! ## Writing a core (R237, R238, R248-R250) -/

/-- The core with everything of R126 zeroed at `uptime` now; engines keep their linings and descriptors, and a hold that
ends so is counted (R54, R64). -/
def Core.zeroed (k : Core) (now : Nat) : Core :=
  { run := .idle, fenced := k.fenced, coreAddr := k.coreAddr, addrValid := k.addrValid, inst := k.inst, block := k.block,
    eng := k.eng.map fun e => (e.1, { e.2.release now with repairs := [], due := [] }), istore := k.istore,
    istoreBad := k.istoreBad, hemBase := k.hemBase, hemLimit := k.hemLimit, nbind := k.nbind, badWords := k.badWords,
    spCorrected := k.spCorrected, spUncorr := k.spUncorr, portLost := k.portLost, bankConflict := k.bankConflict,
    nextId := k.nextId, nextRid := k.nextRid, dmaOrder := k.dmaOrder, header := k.header, scrubPtr := k.scrubPtr, zeroWait := k.zeroWait }

/-- NBIND word of a direction of a position (R248). -/
def State.nbindWord (s : State) (i : Nat) (p : List Byte) (r l d c : Nat) : Nat :=
  let w := gridNbr p r l d
  if bit w 15 then
    let n := absPanel i p (bits w 10 7)
    let e := s.posCore n (bits w 6 0)
    pack [(1, 0), (b2n (distance c e != 1), 1), (xOf e, 8), (yOf e, 14), (n, 19), (bits w 6 0, 23)]
  else 0

/-- Write one region of an allocation: its owner tags and, for INIT, its contents. -/
def State.writeRegion (s : State) (i : Nat) (p : List Byte) (h : HbmPlan) (b : Nat) (nb wb : Nat) (k : Core)
    (x : AllocRegion × Nat) : Core :=
  let r := x.1
  let units := if r.group = 0 then
      (List.range 8).flatMap fun q => (List.range r.count).map fun j => 128 * q + nb + r.first + j
    else (List.range r.count).map fun j => 1024 + wb + r.first + j
  let k := { k with owner := units.foldl (fun m g => mapSet (fun _ => 0x3FF) m g r.owner) k.owner }
  if r.kind = 1 then
    let bs := s.patchBytes i p h 1 (64 * b + x.2) (slice p ((patSec p 0xA).1 + r.data) (4096 * r.count))
    if r.group = 0 then
      (List.range 8).foldl (fun k q => k.store (524288 * q + 4096 * (nb + r.first)) bs) k
    else k.store (4194304 + 4096 * (wb + r.first)) bs
  else k

/-- Write a position's task into a core: instruction store, windows, owner tags, INIT and RECIPE regions, NBIND (R250, R253
step 4). -/
def State.writeTask (s : State) (i : Nat) (p : List Byte) (h : HbmPlan) (r l c : Nat) : State :=
  let b := gridBlock p r l
  let a := allocOf p b
  let nb := (s.nbaseFor c a.narrow).getD 0
  let wb := (s.wbaseFor c a.wide).getD 0
  let k := s.core c
  let k := { k.zeroed s.uptime with
    istore := s.blockWords i p h b, istoreBad := [], hemBase := BitVec.ofNat 32 (nb + 65536 * wb),
    hemLimit := BitVec.ofNat 32 (nb + a.narrow + 65536 * (wb + a.wide)), block := b, pc := codeStart p b,
    snap := { pc := codeStart p b },
    nbind := (List.range 4).foldl (fun m d => mapSet (fun _ => 0) m d (s.nbindWord i p r l d c)) [] }
  let k := (a.regions.zipIdx).foldl (fun k x => s.writeRegion i p h b nb wb k x) k
  let s := s.setCore c k
  let at_ := s.recipeAt i c
  s.modCore c fun k => (List.range (patLayers p)).foldl (fun k n => k.store (at_ + 4 * n) (leBytes 4 (s.recipeWord i n))) k

/-- The core holds a data address of the instance from now on, and its task's cycles count from here (R14, R159). -/
def State.nameCore (s : State) (i : Nat) (p : List Byte) (r l c : Nat) : State :=
  let addr := pack [(absPanel i p r, 0), (l, 4), (i, 11), (b2n (gridSelector p r l), 15)]
  s.modCore c fun k => { k with
    coreAddr := BitVec.ofNat 32 addr, addrValid := true, inst := if hi : i < 12 then some ⟨i, hi⟩ else none,
    cycle0 := s.mclkAcc / 1000000 }

/-- Write a position's task into a core and give the core the position's data address (R250 step 5). -/
def State.writeCore (s : State) (i : Nat) (p : List Byte) (h : HbmPlan) (r l c : Nat) : State :=
  (s.writeTask i p h r l c).nameCore i p r l c

/-- A core that serves no position any more. -/
def Core.unnamed (k : Core) : Core := { k with addrValid := false, inst := none, run := .idle }

/-- Rewrite the NBIND words of every core of the instance. -/
def State.writeNbinds (s : State) (i : Nat) (p : List Byte) : State :=
  s.each (patPositions p) fun s x =>
    let c := s.posCore (absPanel i p x.1) x.2
    s.modCore c fun k => { k with
      nbind := (List.range 4).foldl (fun m d => mapSet (fun _ => 0) m d (s.nbindWord i p x.1 x.2 d c)) [] }

/-! ## Writing routers (R132, R241-R243) -/

/-- Routers of an instance. -/
def State.routersOf (s : State) (i : Nat) : List Nat := (s.inst i).panels.flatMap coresOfPanel

/-- Next hop toward a root's router under R242. -/
def State.nextHop (s : State) (r root : Nat) : Nat :=
  match (s.router r).darnFor (xOf root) (yOf root) 1 with
  | some e => bits e 23 22
  | none => dimNext r (xOf root) (yOf root) false

/-- The chain of next hops from a router to the root, as (router, port); none when it leaves the allowed routers or
revisits one. -/
def State.chain (s : State) (root : Nat) (within : Nat → Bool) : Nat → Nat → Option (List (Nat × Nat))
  | 0, _ => none
  | fuel + 1, r =>
    if r = root then some []
    else
      let port := s.nextHop r root
      match stepTo r port with
      | none => none
      | some d => if within d then (State.chain s root within fuel d).map fun t => (r, port) :: t else none

/-- The edges of a tree from its members to the root; none when a chain fails. -/
def State.treeEdges (s : State) (root : Nat) (within : Nat → Bool) : List Nat → Option (List (Nat × Nat))
  | [] => some []
  | m :: ms =>
    match s.chain root within 1201 m, State.treeEdges s root within ms with
    | some a, some b => some (b ++ a.filter fun e => !b.contains e)
    | _, _ => none

/-- Ports of a router through which edges enter. -/
def entering (edges : List (Nat × Nat)) (r : Nat) : List Nat :=
  (List.range 4).filter fun q => match stepTo r q with
    | some d => edges.contains (d, oppPort q)
    | none => false

/-- A set of ports as a mask. -/
def portMask (l : List Nat) : Nat := (l.eraseDups.map fun q => 2 ^ q).sum

/-- The tree entry of a router (R142): mode 0 multicast, 1 reduction, 2 tack. -/
def treeEntry (i mode root : Nat) (members : List Nat) (edges : List (Nat × Nat)) (r : Nat) : Nat :=
  let ins := entering edges r
  let out := if r = root then (if mode = 2 then 6 else 4) else ((edges.find? fun e => e.1 == r).map (·.2)).getD 0
  let here := members.contains r
  let outMask := if mode = 0 then portMask (ins ++ if here && r != root then [4] else []) else 0
  let inMask := if mode = 0 then 0 else portMask (ins ++ if here then [4] else [])
  pack [(outMask, 0), (inMask, 5), (if mode = 0 then 0 else out, 10), (mode, 13), (i, 15), (1, 19)]

/-- Write a tree's entries at every router on it. -/
def State.writeTree (s : State) (i group mode root : Nat) (members : List Nat) (edges : List (Nat × Nat)) : State :=
  s.each (root :: edges.map (·.1)).eraseDups fun s r =>
    s.modRouter r fun x => { x with tree := mapSet (fun _ => 0) x.tree group (treeEntry i mode root members edges r) }

/-- Root router of a tree record: its root's core, or for an arrival tree of a cascade the die that ends the lowest seam
from the sending member (R484). -/
def State.treeRoot (s : State) (i : Nat) (p : List Byte) (t : TreeRec) : Option Nat :=
  if bit t.root 15 then some (s.posCore (absPanel i p (bits t.root 10 7)) (bits t.root 6 0))
  else (s.seamTo i (bits t.root 3 0)).map fun n => hsSite (n / 2)
where
  /-- Core under host-seam die n (R15). -/
  hsSite (n : Nat) : Nat := if n < 4 then idxOf (10 * n + 6) 5 else idxOf (10 * (n - 4) + 6) 25

/-- Physical cores of a tree's members. -/
def State.treeMembers (s : State) (i : Nat) (p : List Byte) (t : TreeRec) : List Nat :=
  t.members.map fun w => s.posCore (absPanel i p (bits w 10 7)) (bits w 6 0)

/-- The root of a panel's tack tree (R243). -/
def State.tackRoot (s : State) (panel : Nat) : Nat :=
  if (s.router (100 * panel)).failed then 100 * panel + 99 else 100 * panel

/-- Members of a panel's tack tree: its cores with a data address of the instance (R243). -/
def State.tackMembers (s : State) (i panel : Nat) (p : List Byte) : List Nat :=
  ((patPositions p).map fun x => s.posCore (absPanel i p x.1) x.2).filter fun c => panelOf c == panel

/-- The chains from members to a root are whole under a bound on their routers, none revisits a router (R242), and none is
longer than the distance to the root by more than `extra` hops (R153). -/
def State.chainsOk (s : State) (root : Nat) (within : Nat → Bool) (extra : Nat) (ms : List Nat) : Bool :=
  ms.all fun m => match s.chain root within 1201 m with
    | some c => decide (c.length ≤ distance m root + extra)
    | none => false

/-- Every tree of a pattern in force and every tack tree of its instance can be built (R242, R243), with at most `extra`
hops more than the distance on each route (R153). -/
def State.treesBuild (s : State) (i : Nat) (p : List Byte) (extra : Nat) : Bool :=
  (trees p).all (fun t => match s.treeRoot i p t with
    | some root => s.chainsOk root (fun r => decide (panelOf r ∈ (s.inst i).panels)) extra (s.treeMembers i p t)
    | none => !bit t.root 15) &&
  (s.inst i).panels.all fun n => s.chainsOk (s.tackRoot n) (fun r => panelOf r == n) extra (s.tackMembers i n p)

/-- Every tree of the pattern and every tack tree can be built (R246 code 0x0B). -/
def State.treesOk (s : State) (i : Nat) (p : List Byte) : Bool :=
  let ts := trees p
  (treesFrom p ((patSec p 7).1 + (patSec p 7).2) (patSec p 7).2 (patSec p 7).1).2 == (patSec p 7).1 + (patSec p 7).2 &&
  treePadOk p ((patSec p 7).1 + (patSec p 7).2) (patSec p 7).2 (patSec p 7).1 &&
  ts.zipIdx.all (fun x =>
    let t := x.1
    decide (t.group ≤ 62) && decide (t.mode ≤ 1) && decide (1 ≤ t.members.length) && decide (t.members.length ≤ 1200) &&
    t.members.all (fun w => bit w 15 && nbrOk p w) && (!bit t.root 15 || (nbrOk p t.root && t.members.contains t.root)) &&
    ts.zipIdx.all (fun y => y.2 == x.2 || y.1.group != t.group)) &&
  s.treesBuild i p 1201

/-- Write translations, trees and tack trees of the placement in force (R250 step 6), which the loader, the darn check (R153)
or the preparation of a re-placement has found to be buildable. -/
def State.writeRouters (s : State) (i : Nat) (p : List Byte) : State :=
  let rs := s.routersOf i
  let inside := fun r => decide (panelOf r ∈ (s.inst i).panels)
  let tr := (patPositions p).map fun x =>
    (100 * absPanel i p x.1 + x.2, 0x8000 + s.posCore (absPanel i p x.1) x.2)
  let s := s.each rs fun s r => s.modRouter r fun x =>
    { x with trans := tr.foldl (fun m e => mapSet (fun _ => 0) m e.1 e.2) x.trans, tree := [] }
  let s := s.each (trees p) fun s t =>
    match s.treeRoot i p t with
    | none => s
    | some root =>
      let ms := s.treeMembers i p t
      s.writeTree i t.group t.mode root ms ((s.treeEdges root inside ms).getD [])
  s.each (s.inst i).panels fun s n =>
    let ms := s.tackMembers i n p
    s.writeTree i 63 2 (s.tackRoot n) ms ((s.treeEdges (s.tackRoot n) (fun r => panelOf r == n) ms).getD [])

/-! ## Tiles (R240, R337) -/

/-- The core and physical engine that a tile record names. -/
def State.tilePlace (s : State) (i : Nat) (p : List Byte) (t : TileRec) : Nat × Nat :=
  let c := s.posCore (absPanel i p t.panel) t.logical
  (c, (s.core c).engineAt t.pos)

/-- The descriptor of a record with its golden address: an HBM address, or the offset in the host window that holds the
copies, `golden_dst`'s own offset included (R37, R240). -/
def State.tileDesc (s : State) (i : Nat) (t : TileRec) (golden : Nat) : Nat :=
  if s.rd (K.goldenPlace i) = 1 then t.desc + 2 ^ 28 + (winOff (s.rd (K.goldenDst i)) + golden) / 512 * 2 ^ 32
  else t.desc + golden / 512 * 2 ^ 32

/-- The instance of a core runs: it is Fitted and not stopped at an instruction boundary. -/
def State.taskRuns (s : State) (k : Core) : Bool :=
  match k.inst with
  | some i => s.rd (K.instState i.val) == 3 && !(s.inst i.val).halted
  | none => false

/-- Write the descriptor of tile record j, not valid. An engine of a running instance ignores the write and records it
(R37, event 0x8). -/
def State.writeDesc (s : State) (i : Nat) (p : List Byte) (h : HbmPlan) (j : Nat) : State :=
  match (tileRecs p)[j]? with
  | none => s
  | some t =>
    let x := s.tilePlace i p t
    s.modCore x.1 fun k =>
      let y := k.engOf x.2
      k.setEng x.2 (if s.taskRuns k then
          y.pushEv (y.tileRec 8 x.2 x.2 t.tile (k.posOf (k.positionOf x.2)).ectl)
        else y.setTd t.tile (s.tileDesc i t (h.goldens.getD j 0)))

/-- Write a golden image of tile record j into its place; false when host memory refuses it. -/
def State.putGolden (s : State) (i : Nat) (h : HbmPlan) (j : Nat) (img : List Byte) : State × Bool :=
  let a := h.goldens.getD j 0
  if s.rd (K.goldenPlace i) = 1 then
    match s.devRef (s.rd (K.goldenDst i) + a) img.length fun w => w.role == 2 && w.owner == i with
    | some r => s.hostWrite r img
    | none => (s, false)
  else (s.hbmWrite i a img, true)

/-- Read it back. -/
def State.getGolden (s : State) (i : Nat) (h : HbmPlan) (j : Nat) (n : Nat) : List Byte :=
  let a := h.goldens.getD j 0
  if s.rd (K.goldenPlace i) = 1 then
    match s.devRef (s.rd (K.goldenDst i) + a) n fun w => w.role == 2 && w.owner == i with
    | some r => memRead s.hostMem (r.port * 2 ^ 64 + r.addr) n
    | none => []
  else s.hbmRead i a n

/-- Start every core of the instance at its pc (R250 step 8). -/
def State.startCores (s : State) (i : Nat) : State :=
  s.each (s.coresOf i) fun s c => s.modCore c fun k =>
    if k.addrValid ∧ !k.fenced then { k with run := .running, cycle0 := s.mclkAcc / 1000000 } else k

end Sys2Proof.Machine
end

