-- ==== Sys2Proof/Machine/Caps.lean ====
section
/-! DEFINITION. Power caps of the panels and of the device's input (R441, R443, R445). -/

namespace Sys2Proof.Machine

/-- Whole watts of ΔT in m°C over a resistance in K/W scaled by num/den; none of them above 2^32 − 1. -/
def wattsOf (dT : Nat) (r : Fl) (num den : Nat) : Nat :=
  match r with
  | .fin false m e =>
    let d := 1000 * num * m * (if 0 ≤ e then 2 ^ e.toNat else 1)
    let n := dT * den * (if 0 ≤ e then 1 else 2 ^ (-e).toNat)
    if d = 0 then 2 ^ 32 - 1 else min (n / d) (2 ^ 32 - 1)
  | _ => 0

/-- Percent of the cap that is enforced: 96 in a window that gives a stale estimate room (R445). -/
def State.capPercent (s : State) (p : Nat) : Nat :=
  match (s.panel p).window with
  | some t => if s.uptime < t + 600000000000 then 96 else 100
  | none => 100

/-- `p_cap_panel` of a panel (R443, R445), rounded down to whole watts. -/
def State.panelCap (s : State) (p : Nat) : Nat :=
  let dT := (s.rdI K.tCapJunction 32 - s.rdI K.coolantIn 32).toNat
  let w := if s.rd (K.rthStale p) = 1 then wattsOf dT (Sys2Proof.Machine.decode f32 (s.rd (K.rthFactory p))) 115 100
    else wattsOf dT (Sys2Proof.Machine.decode f32 (s.rd (K.rthEst p))) 1 1
  w * s.capPercent p / 100

/-- The device's input cap (R441). -/
def State.inputCap (s : State) : Nat :=
  if s.rd K.extAlert = 1 then min (s.rd K.pCapTotal) (s.rd K.extAlertCap) else s.rd K.pCapTotal

end Sys2Proof.Machine
end

