-- ==== Sys2Proof/Machine/Mirror.lean ====
section
/-! DEFINITION. Entries whose value is computed from the state when they are read (R26, R418, R473, R474 and the entry
tables), entry values as bytes (R400), and the snapshot (R419). -/

namespace Sys2Proof.Machine

/-- Core c is usable by the pattern loaded: for the block of at least one of its logical cores; or good while none is loaded
(R247). -/
def State.usable (s : State) (c : Nat) : Bool :=
  match s.instOfPanel (panelOf c) with
  | none => s.goodCore c
  | some i =>
    if (s.inst i).pattern.isEmpty || !(s.ready i || s.rd (K.instState i) == 5) then s.goodCore c
    else (allocs (s.inst i).pattern).any fun a =>
      (patPositions (s.inst i).pattern).any (fun x => gridBlock (s.inst i).pattern x.1 x.2 == a.block) && s.fits i a c

/-- `core_state` (R474). -/
def State.coreState (s : State) (c : Nat) : Nat :=
  let k := s.core c
  if (s.instOfPanel (panelOf c)).isNone || s.rd (K.panelState (panelOf c)) == 2 then 0
  else if s.marked c then (if k.fenced && k.addrValid then 4 else 6)
  else if !s.goodCore c then 5
  else if k.fenced then 4
  else if k.addrValid then (if k.panel = panelOf c then 2 else 3)
  else if s.usable c then 1 else 7

/-- Panel entries of R473. -/
def State.panelEntry (s : State) (p sub : Nat) : Nat :=
  let cs := coresOfPanel p
  if sub = 1 then (if s.rd (K.panelState p) = 2 then 2 else b2n (s.instOfPanel p).isSome)
  else if sub = 2 then (cs.filter s.goodCore).length
  else if sub = 3 then (cs.filter s.usable).length
  else if sub = 4 then (cs.filter fun c => s.usable c && !(s.core c).addrValid).length
  else (cs.filter s.marked).length

/-- `zero_left` of a slot (R357). -/
def State.zeroLeft (s : State) (n : Nat) : Nat :=
  s.slotPagesZeroing n + ((s.slot n).swap.filter fun x => x.2 == 2 ^ 20 + 1).length

/-- `cfg_digest` (R490). -/
def State.cfgDigest (s : State) : List Byte :=
  let i := s.rd K.cascInstance
  Config.sha384 (leBytes 2 (s.rd K.cascShape) ++ s.blob K.members ++ leBytes 8 (s.rd K.masterPref) ++
    leBytes 4 (s.rd K.ctackTimeout) ++ leBytes 4 (s.rd K.seamTimeout) ++ leBytes 4 (s.rd K.bcastTimeout) ++
    leBytes 4 (s.rd K.masterLossTimeout) ++ leBytes 4 (s.rd K.holdLimit) ++
    leBytes 1 (s.rd (K.instCols i)) ++ leBytes 1 (s.rd (K.instRows i)) ++ s.blob (K.modelDigest i) ++
    slice (s.blob (K.recipeApplied i)) 0 (s.rd (K.modelLayers i)))

/-- A numeric entry as it reads. -/
def State.mirror (s : State) (key : Nat) : Nat :=
  let idx := key / 256
  let sub := key % 256
  if key = K.uptime then s.uptime
  else if key = K.timeNow then (if s.wallTaken then s.time else 0)
  else if 0x3000 ≤ idx ∧ idx < 0x300C then s.panelEntry (idx - 0x3000) sub
  else if 0x3100 ≤ idx ∧ idx < 0x35B0 then
    let c := idx - 0x3100
    if sub = 1 then s.coreState c
    else if sub = 3 then
      let k := s.core c
      pack [(k.panel, 0), (k.logical, 4), (b2n k.addrValid, 15)] * b2n k.addrValid
    else s.rd key
  else if 0x9011 ≤ idx ∧ idx < 0x901A then
    let k := s.core (s.rd K.tmCore)
    if sub = 9 then k.engStat (idx - 0x9011) else (k.engOf (idx - 0x9011)).counter (sub - 1)
  else if idx = 0xA020 ∧ 3 ≤ sub then
    let k := s.core (s.rd K.ccCore)
    if sub = 3 then k.spCorrected else if sub = 4 then k.spUncorr
    else if sub < 0x20 then mapGet (fun _ => 0) k.portLost (sub - 0x10)
    else mapGet (fun _ => 0) k.bankConflict (sub - 0x20)
  else if key = K.linksFailed then ((s.blob K.linkMap).filter fun b => b.toNat != 0).length
  else if key = K.routersFailed then (s.routers.filter fun r => r.2.failed).length
  else if 0x6100 ≤ idx ∧ idx < 0x610C then
    let i := idx - 0x6100
    if sub = 3 then s.poolFree i else if sub = 7 then s.poolZeroing i
    else if sub = 0xD then s.hotCount i else s.rd key
  else if key = K.seqLive then s.liveAll
  else if 0x4200 ≤ idx ∧ idx < 0x420C ∧ sub = 5 then (s.inst (idx - 0x4200)).alts.length
  else if 0x5000 ≤ idx ∧ idx < 0x5200 then
    let n := idx - 0x5000
    if sub = 0x13 then s.zeroLeft n else if sub = 0x20 then s.slotPages n
    else if sub = 0x21 then ((s.slot n).swap.filter fun x => decide (x.2 < 2 ^ 20)).length else s.rd key
  else if 0x2410 ≤ idx ∧ idx < 0x241C ∧ sub = 4 then min ((s.uptime - (s.panel (idx - 0x2410)).acceptedAt) / 1000000000) (2 ^ 32 - 1)
  else if 0x2410 ≤ idx ∧ idx < 0x241C ∧ sub = 6 then s.panelCap (idx - 0x2410)
  else if key = K.sessionsOpen then ((List.range 16).filter fun n => (s.ses n).isOpen).length
  else if 0xA100 ≤ idx ∧ idx < 0xA108 ∧ sub = 3 then s.free.toNat % 2
  else s.rd key

/-- The entry of the log with sequence number n as its 32 bytes (R414). -/
def LogEntry.bytes (e : LogEntry) : List Byte :=
  leBytes 8 e.time ++ leBytes 4 e.seq ++ leBytes 1 e.source ++ leBytes 1 e.inst ++ leBytes 1 e.cls ++ leBytes 1 e.cause ++
    leBytes 16 e.record

/-- Bytes of a BLOB or STR as it reads. -/
def State.mirrorBlob (s : State) (key : Nat) : List Byte :=
  let idx := key / 256
  let sub := key % 256
  if 0x3000 ≤ idx ∧ idx < 0x300C ∧ sub = 6 then
    (coresOfPanel (idx - 0x3000)).map fun c => BitVec.ofNat 8 (s.coreState c)
  else if 0x4200 ≤ idx ∧ idx < 0x420C ∧ sub = 6 then
    let i := idx - 0x4200
    let n := mapGet (fun _ => 0) (s.inst i).alts (s.rd (K.altIndex i))
    if n = 0 then List.replicate 48 0
    else Config.sha384 (s.hbmRead i ((s.inst i).altBase + altBytes * s.rd (K.altIndex i)) n)
  else if key = K.cfgDigest then s.cfgDigest
  else if 0x9020 ≤ idx ∧ idx < 0x902C ∧ sub = 5 then (s.inst (idx - 0x9020)).snapshot
  else s.blob key

/-- Type code of R400. -/
def DType.code : DType → Nat
  | .bool => 1 | .u8 => 2 | .u16 => 3 | .u32 => 4 | .u64 => 5 | .i16 => 6 | .i32 => 6 | .i64 => 7 | .f32 => 8
  | .time64 => 9 | .str => 10 | .blob => 11

/-- An entry's value as bytes. -/
def State.entryBytes (s : State) (r : DictRow) (key : Nat) : List Byte :=
  if r.ty.bytes then s.mirrorBlob key else leBytes (r.ty.bits / 8) (s.mirror key)

/-! ## Snapshot (R27, R419) -/

/-- One snapshot record. -/
def snapRecord (idx sub code : Nat) (v : List Byte) : List Byte :=
  leBytes 2 idx ++ leBytes 1 sub ++ leBytes 1 code ++ leBytes 2 v.length ++ leBytes 2 0 ++ v ++
    List.replicate (8 * ceilDiv v.length 8 - v.length) 0

/-- The read-only entries of an index, as records in subindex order. -/
def State.snapIndex (s : State) (idx : Nat) : List Byte :=
  (List.range 256).flatMap fun sub =>
    match dictRow idx sub with
    | some r => if r.acc = .ro then snapRecord idx sub r.ty.code (s.entryBytes r (idx * 256 + sub)) else []
    | none => []

/-- The snapshot of instance i. -/
def State.snapBytes (s : State) (i : Nat) : List Byte :=
  s.snapIndex (0x4000 + i) ++ s.snapIndex (0x6010 + i) ++ s.snapIndex (0x6100 + i) ++
  (s.coresOf i).flatMap fun c =>
    let t := s.wr K.tmCore c
    snapRecord 0x9010 1 3 (leBytes 2 c) ++ (List.range 9).flatMap fun e => t.snapIndex (0x9011 + e)

end Sys2Proof.Machine
end

