-- ==== Sys2Proof/Machine/Teardown.lean ====
section
/-! DEFINITION. The life of a tenant slot (R348-R361): enabling, draining, the teardown and its settling. -/

namespace Sys2Proof.Machine

/-- Slots bound to instance i that are not Disabled (R349). -/
def State.slotsOn (s : State) (i : Nat) : List Nat := (List.range 512).filter fun n => s.slotBound n i

/-- This part leads its group of the cascade (R481). -/
def State.isLead (s : State) : Bool :=
  let sh := s.rd K.cascShape
  s.rd K.memberIndex % ((bits sh 1 0 + 1) * (bits sh 4 2 + 1)) == 0

/-- The conditions of R352, with those of R372 and R481. -/
def State.enableOk (s : State) (n : Nat) : Bool :=
  let i := s.rd (K.slotInstance n)
  let t := s.rd (K.transport n)
  let a := s.rd (K.altBinding n)
  decide (i < 12) && s.ready i && t != 0 && (!bit t 1 || (s.slot n).frpKey.isSome) && (a == 0xFFFF || s.altHeld i a) &&
    (!bit t 0 || s.fnEnabled (vfOf n)) && (!s.cascaded i || s.isLead)

/-- Start a teardown in state Resetting (3) or Closing (4) (R357 step 1). -/
def State.beginTeardown (s : State) (n code : Nat) (flr : Bool) : State :=
  (s.wr (K.slotState n) code).modSlot n fun x => { x with teardown := 1, flr := flr }

/-- RESET of a slot (R351); `flr` for a function-level reset. -/
def State.resetSlot (s : State) (n : Nat) (flr : Bool) : State :=
  let st := s.rd (K.slotState n)
  if st = 1 then (s.beginTeardown n 3 flr).wr (K.slotCmdResult n) 0
  else if st = 2 then (s.beginTeardown n 4 flr).wr (K.slotCmdResult n) 0
  else s.wr (K.slotCmdResult n) 1

/-- Abort every request of a slot that still runs or waits. -/
def State.abortAll (s : State) (n : Nat) : State := s.each (s.liveReqs n) fun s r => s.abortReq n r.key

/-- The drain of a slot ends: what remains is aborted and the slot closes (R355 steps 3 and 4). -/
def State.endDrain (s : State) (n : Nat) : State := (s.abortAll n).beginTeardown n 4 false

/-- A step-boundary tack looks at the draining slots (R355 step 3). -/
def State.drains (s : State) (i : Nat) : State :=
  s.each (s.slotsOn i) fun s n =>
    if s.rd (K.slotState n) = 2 ∧ (s.slot n).teardown = 0 ∧
        ((s.slot n).drainStart + 1000 * s.rd (K.drainDeadline n) ≤ s.time ∨ (s.liveReqs n).isEmpty) then s.endDrain n
    else s

/-- Free the granules of a core that carry a slot's tag, at MCLK cycle `now` (R127). -/
def Core.freeGranules (k : Core) (now n : Nat) : Core :=
  k.giveGranules now 0x3FF ((k.owner.filter fun p => p.2 == n).map (·.1))

/-- A granule of the slot waits at a zeroing unit. -/
def State.granulesLeft (s : State) (n : Nat) : Bool :=
  s.cores.any fun c => c.2.zeroq.any fun z => c.2.ownerOf z.granule == n && z.owner == 0x3FF

/-- Sample slots of the latest step that belong to a tenant slot. -/
def State.sampleSlots (s : State) (i n : Nat) : List Nat :=
  ((s.inst i).sampleOf.zipIdx.filter fun x => x.1 == n).map (·.2)

/-- Empty the selector merge entries and candidate buffers of a slot's sample slots in an instance (R356). -/
def State.dropCands (s : State) (n i : Nat) : State :=
  let sams := s.sampleSlots i n
  s.each (s.coresOf i) fun s c => s.modCore c fun k =>
    { k with merge := k.merge.filter fun b => !sams.contains b.slot
             cand := k.cand.filter fun b => !sams.contains b.slot
             candIn := k.candIn.filter fun p => !sams.contains p.tag }

/-- Send or queue a final completion of status 0x08 (R358): to the ring while it is enabled, else to the association of the
request; one that has none open is lost and counted. -/
def State.postAborted (s : State) (n : Nat) (x : Transport × List Byte) : State :=
  match x.1 with
  | .frp a =>
    if (s.slot n).cq.enable then s.postFinal n .ring x.2
    else if (s.assoc n a).any fun y => !y.failed then s.frpSend n a 0x11 x.2
    else s.bump (K.completionsLost n) 32 1
  | .ring => s.postFinal n .ring x.2

/-- Step 3 of the teardown of a slot begins (R357, R358): aborted and waiting final completions go out, and are announced at
once (R363). After a function-level reset none goes to the ring. -/
def State.sendAborted (s : State) (n : Nat) (flr : Bool) (held : List (Transport × List Byte)) : State :=
  if flr then (s.each (held.filter fun y => y.1 != .ring) fun s y => s.postAborted n y).modSlot n fun x => { x with finals := [] }
  else
    let s := s.each held fun s y => s.postAborted n y
    (s.drainFinals n (s.slot n).finals.length).announce n

/-- Steps 2 to 4 of the teardown of a slot, at the capture instant (R356, R357). -/
def State.captureSlot (s : State) (n : Nat) : State :=
  let s := s.abortAll n
  let s := s.each ((s.seqs.filter fun p => p.2.slot == n && decide (p.2.state ≠ .free)).map (·.1)) fun s q => s.endSeq q true
  let s := s.each (s.slot n).swap fun s x => s.setSwapUse n x.1 (2 ^ 20 + 1)
  let s := s.each (s.cores.map (·.1)) fun s c => s.modCore c fun k => k.freeGranules (s.mclkAcc / 1000000) n
  let s := s.each (List.range 12) fun s i => s.dropCands n i
  let s := s.wr (K.altBinding n) 0xFFFF
  let f := s.fn (vfOf n)
  let s := s.setFn (vfOf n) { f with pba := f.pba &&& ~~~0x18#16 }
  let x := s.slot n
  let s := { s with reqs := s.reqs.filter fun r => r.slot != n }
  let s := s.modSlot n fun x => { x with teardown := 2, heldBack := [], frpReqs := [] }
  s.sendAborted n x.flr x.heldBack

/-- Capture every teardown of the instance that waits for it. -/
def State.captures (s : State) (i : Nat) : State :=
  s.each (s.slotsOn i) fun s n => if (s.slot n).teardown = 1 then s.captureSlot n else s

/-- The slot becomes Enabled (R351, R359): no request, virtual time 0, message of vector 2. -/
def State.enableSlot (s : State) (n : Nat) : State :=
  (((s.wr (K.slotState n) 1).wr (K.enablePending n) 0).modSlot n fun x => { x with vt := 0 }).message (vfOf n) 2

/-- ENABLE carried out (R352): accepted, it waits for the next tack of the instance. -/
def State.tryEnable (s : State) (n : Nat) : State :=
  if s.enableOk n then (s.change (s.rd (K.slotInstance n)) (.enable n)).wr (K.slotCmdResult n) 0
  else (s.wr (K.slotCmdResult n) 2).wr (K.enablePending n) 0

/-- Step 6 of a teardown (R357, R353, R354, R359). -/
def State.settleSlot (s : State) (n : Nat) : State :=
  let x := s.slot n
  let closing := s.rd (K.slotState n) == 4
  let off := fun (r : Ring) => { r with enable := false, head := 0, tail := 0 }
  let s := s.setSlot n { x with
    sq := off x.sq, cq := off x.cq, assocs := [], frpReqs := [], teardown := 0, flr := false, vt := 0, heldBack := [],
    frpKey := if closing then x.heldKey else x.frpKey, heldKey := none, swap := if closing then [] else x.swap }
  let s := if closing then (s.wr (K.swapBase n) 0).wr (K.swapSlots n) 0 else s
  let s := (s.bump (K.epoch n) 32 1).wr (K.slotState n) (if closing then 0 else 1)
  let s := s.logMg (s.rd (K.slotInstance n)) 0x0302 0 0 n (s.rd (K.epoch n)) (b2n closing)
  let s := if x.flr then s else s.message (vfOf n) 2
  if closing ∧ s.rd (K.enablePending n) = 1 then s.tryEnable n else s

end Sys2Proof.Machine
end

