-- ==== Sys2Proof/Machine/Boundary.lean ====
section
/-! DEFINITION. What a tack applies: pending changes (R23, R24), answers to duplicates and CANCEL (R297, R298), the power
cap (R443), and the work of a step-boundary tack (R300, R355, R357, R422). -/

namespace Sys2Proof.Machine

/-! ## Answers (R297, R298) -/

/-- Index of a request's first token that the client has not acknowledged. -/
def Req.firstUnacked (r : Req) : Nat :=
  ((List.range r.emitted.length).find? fun n => !r.acked.any fun a => decide (a.1 ≤ n) && decide (n < a.1 + a.2)).getD
    r.emitted.length

/-- Send a request's tokens from the first one on that its client has not acknowledged (R297). -/
def State.resumeStream (s : State) (r : Req) (assoc : Nat) : State :=
  let ts := r.emitted.drop r.firstUnacked
  s.frpTokens r.slot assoc r.key (ts.length + 1) r.firstUnacked ts

/-- Send the tokens of an ended request that its client has not acknowledged, each run of them on its own (R297). -/
def State.sendUnacked (s : State) (r : Req) (assoc : Nat) : State :=
  let miss := r.emitted.zipIdx.filter fun p => !r.acked.any fun a => decide (a.1 ≤ p.2) && decide (p.2 < a.1 + a.2)
  let runs := miss.foldl (fun (l : List (Nat × List Nat)) p =>
    match l with
    | (f, ts) :: t => if f + ts.length = p.2 then (f, ts ++ [p.1]) :: t else (p.2, [p.1]) :: l
    | [] => [(p.2, [p.1])]) []
  s.each runs.reverse fun s x => s.frpTokens r.slot assoc r.key (x.2.length + 1) x.1 x.2

/-- Answer a duplicate of request r that arrived through a transport (R297): an active request's stream stays with the output
buffer of a ring request, and goes to the association of the latest FRP duplicate of an FRP request. -/
def State.answerDup (s : State) (r : Req) (from_ : Transport) : State :=
  match r.final with
  | some b =>
    let s := match from_ with
      | .frp a => s.sendUnacked r a
      | .ring => s
    s.postFinal r.slot from_ (withFlag b 8)
  | none =>
    let s := s.postFinal r.slot from_ (s.completion r 0 (9 + 2 * b2n r.taint + 4 * b2n r.inexact))
    match from_, r.from_ with
    | .frp a, .frp _ => (s.modReq r.slot r.key fun x => { x with from_ := .frp a }).resumeStream r a
    | _, _ => s

/-- A duplicate judged at a step-boundary tack. -/
def State.dupAt (s : State) (slot key : Nat) (from_ : Transport) : State :=
  match s.req slot key with
  | some r => s.answerDup r from_
  | none => s

/-- A CANCEL judged at a step-boundary tack (R298). -/
def State.cancelAt (s : State) (slot key target : Nat) : State :=
  match s.req slot target with
  | some r => if r.live then (s.endReq slot target 7).endReq slot key 0 else s.endReq slot key 0x0F
  | none => s.endReq slot key 0x0F

/-! ## Changes (R23, R24) -/

/-- Key of an `alt_binding` entry. -/
def isAltBinding (key : Nat) : Bool := decide (0x5000 ≤ key / 256) && decide (key / 256 < 0x5200) && key % 256 == 0x0F

/-- The change waits for a step-boundary tack, or an idle tack with no step in flight (R298, R297, R318, R369, R385,
R406). -/
def Change.boundary : Change → Bool
  | .altBinding _ _ | .cancel _ _ _ | .duplicate _ _ _ | .retrain _ => true
  | .commit _ es => es.any fun e => isAltBinding e.1
  | _ => false

/-- The change is a commit from C, which applies at the cascade-wide tack (R406). -/
def Change.fromC : Change → Bool
  | .commit .casc _ | .recipeC _ => true
  | _ => false

/-- The change is a snapshot request, which is taken at the capture instant (R27). -/
def Change.isSnapshot : Change → Bool
  | .snapshot => true
  | _ => false

/-- The change applies at an idle tack only (R339). -/
def Change.idleOnly : Change → Bool
  | .rewrite _ _ => true
  | _ => false

/-- Zero the counters of a core that 0xA020 mirrors (R114). -/
def Core.clearCounters (k : Core) : Core :=
  { k with spCorrected := 0, spUncorr := 0, portLost := [], bankConflict := [] }

/-- TRUNCATE of the sequence of a request to its `max_context` field: pages beyond are released, and the residual records are
stale (R76, R279). -/
def State.truncateAt (s : State) (slot key : Nat) : State :=
  match s.req slot key with
  | none => s
  | some r =>
    match r.seq with
    | none => s.endReq slot key 0
    | some q =>
      let n := r.e.maxContext
      let s := if n ≤ (s.seq q).length then
          (s.modSeq q fun x => { (if n < x.length then x.staleRecords else x).cutTokens n with
            length := n, drafts := [] }).releaseBeyond q n
        else s
      s.endReq slot key 0

/-- PARK at a tack (R288): the sequence is withdrawn, or, already swapped out, is parked from now on. -/
def State.parkAt (s : State) (slot key : Nat) : State :=
  match (s.req slot key).bind (·.seq) with
  | none => s.endReq slot key 0
  | some q =>
    if (s.seq q).state = .preempted ∨ (s.seq q).state = .parked then
      (s.modSeq q fun x => { x with state := .parked }).endReq slot key 0
    else s.withdraw q true

/-- Withdraw the requests of a draining slot that are not admitted (R355 step 2). -/
def State.withdrawAt (s : State) (n : Nat) : State :=
  s.each ((s.liveReqs n).filter fun r => !r.admitted) fun s r => s.abortReq n r.key

/-- A committed set at its tack (R406): all entries apply when every state condition holds, none otherwise. -/
def State.commitAt (s : State) (i : Nat) (ses : SessId) (entries : List (Nat × List Byte)) : State :=
  let n := sesNo ses
  let st := fun (e : Nat × List Byte) => s.entryRule e.1 (leNat e.2) e.2
  match entries.find? fun e => st e != 0 with
  | some e =>
    let res := e.1 / 256 + 2 ^ 16 * (e.1 % 256) + 2 ^ 24 * st e
    let s := s.modSes n fun x => { x with commitState := 4, commitResult := res, commitTime := s.time }
    s.logMg i 0x0102 1 0 noSlot res (s.ses n).commitSeq
  | none =>
    let s := s.each entries fun s e =>
      let s := s.storeEntry e.1 e.2
      if e.1 = K.recipeSelect i then s.applyRecipe i e.2 else s
    let s := s.modSes n fun x => { x with
      commitState := 3, commitResult := 0, commitSeq := (x.commitSeq + 1) % 2 ^ 32, commitTime := s.time }
    s.logMg i 0x0102 0 0 noSlot 0 (s.ses n).commitSeq

/-- The slot's accounting counters start at zero again (R368). -/
def State.clearAcct (s : State) (n : Nat) : State :=
  s.each ((List.range 8).map fun j => K.requestsAccepted n + j) fun s k => s.wr k 0

/-- Apply one pending change of instance i. -/
def State.applyChange (s : State) (i : Nat) : Change → State
  | .recipe v => (s.wrBlob (K.recipeSelect i) v).applyRecipe i v
  | .recipeC v => (s.wrBlob (K.recipeSelect i) v).applyRecipe i v
  | .precClear m => s.wr (K.precStatus i) (s.rd (K.precStatus i) &&& (2 ^ 32 - 1 - m))
  | .ccClear c => s.modCore c Core.clearCounters
  | .snapshot =>
    let b := s.snapBytes i
    let s := s.modInst i fun x => { x with snapshot := b }
    ((s.wr (K.snapState i) 2).wr (K.snapTime i) s.time).wr (K.snapTack i) ((s.inst i).tackSeq % 2 ^ 32)
  | .truncate slot key => s.truncateAt slot key
  | .enable slot => s.enableSlot slot
  | .withdraw slot => s.withdrawAt slot
  | .swappedOut q x sw => s.applyOut q x sw
  | .swappedIn q x p => s.applyIn q x p
  | .commit ses es => s.commitAt i ses es
  | .rewrite a bs => s.hbmWrite i a bs
  | .altBinding slot v => if v = 0xFFFF ∨ s.altHeld i v then s.wr (K.altBinding slot) v else s
  | .cancel slot key target => s.cancelAt slot key target
  | .duplicate slot key from_ => s.dupAt slot key from_
  | .park slot key => s.parkAt slot key
  | .release slot key => s.endReqSeq slot key 0
  | .entry key v => s.wr key v
  | .retrain st => (s.setStack st { s.stack st with retrain := 2 }).wr (K.hbmState st) 4
  | .acctClear n => s.clearAcct n

/-- Apply, in arrival order, every pending change that satisfies `now`; the others wait. -/
def State.applyChanges (s : State) (i : Nat) (now : Change → Bool) : State :=
  let cs := (s.inst i).changes
  let s := s.modInst i fun x => { x with
    changes := cs.filter fun c => !now c, taken := ((cs.take x.taken).filter fun c => !now c).length }
  s.each (cs.filter now) fun s c => s.applyChange i c

/-- At the release of a cascaded tack, apply in arrival order the changes that had arrived before its capture instant and
those that come from C, which the master holds for this tack (R24, R490). Those of an idle tack alone wait. -/
def State.applyTaken (s : State) (i : Nat) : State :=
  let x := s.inst i
  let now := fun p : Change × Nat => !p.1.idleOnly && (decide (p.2 < x.taken) || p.1.fromC)
  let s := s.modInst i fun x => { x with changes := (x.changes.zipIdx.filter fun p => !now p).map (·.1), taken := 0 }
  s.each (x.changes.zipIdx.filter now) fun s p => s.applyChange i p.1

/-- Take the snapshots asked for: they copy the mirrors as they stand at the capture instant, before anything that the tack
applies (R27). -/
def State.takeSnapshots (s : State) (i : Nat) : State := s.applyChanges i Change.isSnapshot

/-! ## Power cap (R441, R443) -/

/-- Panels of instance i that hold its next step back; all of them when the device's input power is over its cap. -/
def State.cappedPanels (s : State) (i : Nat) : List Nat :=
  if s.inputCap < s.rd K.pIn then (s.inst i).panels
  else (s.inst i).panels.filter fun p => decide (s.panelCap p < s.rd (K.pPanel p))

/-! ## The lining's states (R422) -/

/-- `reg_state` of an instance's regions, and its lining, between Active and Retention. -/
def State.setLining (s : State) (i : Nat) (retention : Bool) : State :=
  let s := s.modInst i fun x => { x with retention := retention }
  s.each ((s.inst i).panels.flatMap fun p => (List.range 25).map fun j => 25 * p + j) fun s r =>
    let v := s.rd (K.regState r)
    if v = 2 ∨ v = 3 then s.wr (K.regState r) (if retention then 3 else 2) else s

/-! ## The alteration store (R341, R342) -/

/-- Put a record into an alteration slot, zeros after it. -/
def State.putAlteration (s : State) (i v : Nat) (b : List Byte) : State :=
  (s.hbmWrite i ((s.inst i).altBase + altBytes * v) (slice b 0 altBytes)).modInst i fun x =>
    { x with alts := mapSet (fun _ => 0) x.alts v b.length }

/-- The replacement buffer and its slot swap, and the old record is zeroed (R342). -/
def State.swapAlteration (s : State) (i : Nat) : State :=
  match (s.inst i).altSwap with
  | none => s
  | some (v, b) => ((s.putAlteration i v b).modInst i fun x => { x with altSwap := none }).wr (K.altResult i) 0

/-! ## A step-boundary tack -/

/-- A stack of the instance is being retrained (R385). -/
def State.retraining (s : State) (i : Nat) : Bool := (s.stacksOf i).any fun n => (s.stack n).retrain == 2

/-- An instance that a temperature holds stops (R441). -/
def State.heatStop (s : State) (i : Nat) : State :=
  if !(s.inst i).hot_.isEmpty && s.rd (K.instState i) == 3 then s.wr (K.instState i) 4 else s

/-- No step runs: the tack's release is withheld. -/
def State.withhold (s : State) (i : Nat) : State := s.modInst i fun x => { x with withheld := true }

/-- Start the next step unless a cap, a retrain, or the lack of work holds it (R300, R301, R385, R422, R443). -/
def State.startNext (s : State) (i : Nat) : State :=
  let past := s.cappedPanels i
  if s.retraining i then s.withhold i
  else if !past.isEmpty then
    let s := if (s.inst i).capped || (s.works i).isEmpty then s
      else (s.each past fun s p => s.bump (K.capDelays p) 64 1).modInst i fun x => { x with capped := true }
    s.withhold i
  else
    let s := s.modInst i fun x => { x with capped := false }
    let s := s.nextStep i
    if (s.inst i).stepOn && (s.inst i).retention then s.setLining i false else s

/-- Everything a step-boundary tack of instance i does, in a cascade at its release: the finished step is committed, the changes apply, teardowns and
drains are looked at, STOP takes effect, requests are admitted, hot slots are assigned, and the next step is chosen. -/
def State.boundary (s : State) (i : Nat) : State :=
  let s := s.commitStep i
  let s := (if s.cascaded i then s.applyTaken i else s.applyChanges i fun c => !c.idleOnly).swapAlteration i
  let s := s.captures i
  let s := s.drains i
  let s := if (s.inst i).stopDue && s.rd (K.instState i) == 3 then s.wr (K.instState i) 4 else s
  let s := s.modInst i fun x => { x with stopDue := false }
  if s.rd (K.instState i) = 3 then
    ((((s.admitAll i (s.instReqs i).length).readmitAll i).pressure i).assignHot i).startNext i
  else (s.pressure i).withhold i

end Sys2Proof.Machine
end

