-- ==== Sys2Proof/Machine/CascadeOps.lean ====
section
/-! DEFINITION. The cascade's members and tree (R480-R482, R486), what is sent along it (R477), and the tack record (R490).
The payload layouts of the seam messages, which the spec does not give, are log entry 29. -/

namespace Sys2Proof.Machine

/-- This part's member index. -/
def State.me (s : State) : Nat := s.rd K.memberIndex
/-- This part is the master. -/
def State.isMaster (s : State) : Bool := s.rd K.cascRole == 2
/-- Width, depth and replica count (R480). -/
def State.cascW (s : State) : Nat := bits (s.rd K.cascShape) 1 0 + 1
def State.cascD (s : State) : Nat := bits (s.rd K.cascShape) 4 2 + 1
def State.cascM (s : State) : Nat := bits (s.rd K.cascShape) 8 5 + 1
/-- Number of members. -/
def State.cascSize (s : State) : Nat := s.cascW * s.cascD * s.cascM
/-- Members of a group, its lead first (R480, R481). -/
def State.groupMembers (s : State) (g : Nat) : List Nat :=
  (List.range (s.cascW * s.cascD)).map fun j => g * (s.cascW * s.cascD) + j
/-- Group of a member. -/
def State.groupOf (s : State) (m : Nat) : Nat := m / (s.cascW * s.cascD)
/-- Lead of a group. -/
def State.leadOf (s : State) (g : Nat) : Nat := g * (s.cascW * s.cascD)
/-- The cascade is of the widen or deepen kind (R91, R406). -/
def State.cascSplit (s : State) : Bool := decide (1 < s.cascW * s.cascD)

/-- The lowest-numbered up seam to a member. -/
def State.seamFor (s : State) (m : Nat) : Option Nat :=
  (List.range 16).find? fun n => s.rd (K.seamState n) == 2 && s.rd (K.seamPeer n) == s.memberSerial m

/-! ## The tree (R482) -/

/-- Parent of a member in the cascade tree. -/
def State.parentOf (s : State) (m : Nat) : Option Nat := (s.casc.tree.find? fun e => e.1 == m).map (·.2)
/-- Children of a member in the cascade tree. -/
def State.childrenOf (s : State) (m : Nat) : List Nat := (s.casc.tree.filter fun e => e.2 == m).map (·.1)

/-- The neighbour on the tree's path from this part to a member: the child that leads to it, or the parent. -/
def State.nextMember (s : State) (dst : Nat) : Option Nat := up 16 dst
where
  /-- Climb from the destination until this part is the parent. -/
  up : Nat → Nat → Option Nat
    | 0, _ => s.parentOf s.me
    | fuel + 1, m =>
      match s.parentOf m with
      | some p => if p = s.me then some m else up fuel p
      | none => s.parentOf s.me

/-- The wiring rule asks for a seam between two members: of one stage, or of one column in adjacent stages. -/
def State.mustJoin (s : State) (a b : Nat) : Bool :=
  let n := s.cascW * s.cascD
  let stage := fun m => m % n / s.cascW
  let col := fun m => m % n % s.cascW
  a / n == b / n && a != b &&
    (stage a == stage b || (col a == col b && (stage a == stage b + 1 || stage b == stage a + 1)))

/-- An up seam joins two members: this part's own seams are known to it; one between two other members is a free value,
since no message of the spec tells of it (log entry 40). -/
def State.joined (s : State) (a b : Nat) : Bool :=
  if a = s.me then (s.seamFor b).isSome
  else if b = s.me then (s.seamFor a).isSome
  else bit (Config.freeValue (s.freeNext + 16 * min a b + max a b)).toNat 0

/-- Build the tree level by level from `level`: each member's parent is the lowest member that reaches it at the least
depth. The answer is the tree, and its depth. -/
def growTree (edge : Nat → Nat → Bool) (size : Nat) : Nat → List Nat → List Nat → List (Nat × Nat) → Nat → List (Nat × Nat) × Nat
  | 0, _, _, tree, depth => (tree, depth)
  | fuel + 1, level, seen, tree, depth =>
    let new := (List.range size).filterMap fun m =>
      if seen.contains m then none else (sortBy (fun a b => decide (a ≤ b)) level |>.find? fun p => edge p m).map fun p => (m, p)
    if new.isEmpty then (tree, depth)
    else growTree edge size fuel (new.map (·.1)) (seen ++ new.map (·.1)) (tree ++ new) (depth + 1)

/-- A cascade that fails the wiring rule stays Unfitted (R482). -/
def State.cascUnfit (s : State) (reason member : Nat) : State :=
  if s.rd K.cascState = 2 ∧ s.rd K.unfitReason = reason then s
  else ((s.wr K.cascState 2).wr K.unfitReason reason).logMg (s.rd K.cascInstance) 0x3002 2 5 noSlot reason member

/-- The tree is built again when a seam or the master has changed; a cascade whose wiring or depth fails is Unfitted, and one
that is Forming is Unfitted once formed (R482, R486). -/
def State.form (s : State) : State :=
  if !s.casc.stale then s
  else
    let n := s.cascSize
    let i := s.rd K.cascInstance
    let edge := s.joined
    let g := growTree edge n 16 [s.casc.master] [s.casc.master] [] 0
    let pairs := (List.range n).flatMap fun a => (List.range a).map fun b => (a, b)
    let die := fun m => if m = s.me then true else (s.seamTo i m).isSome
    let wired := pairs.all fun p => !s.mustJoin p.1 p.2 || (edge p.1 p.2 && (p.1 != s.me || die p.2) && (p.2 != s.me || die p.1))
    let ok := wired && g.1.length + 1 == n && decide (g.2 ≤ 4)
    let s := { s with freeNext := s.freeNext + 256, casc := { s.casc with tree := g.1, stale := false } }
    if !ok then s.cascUnfit 3 s.me
    else if s.rd K.cascState = 1 ∨ (s.rd K.cascState = 2 ∧ s.rd K.unfitReason = 3) then (s.wr K.cascState 2).wr K.unfitReason 0
    else s

/-! ## Messages (R477) -/

/-- Send a seam message to one member along the tree. -/
def State.sendMember (s : State) (dst type tag : Nat) (payload : List Byte) : State :=
  match (s.nextMember dst).bind s.seamFor with
  | some n => s.seamSend n { type := type, src := s.me, dst := dst, tag := tag, taint := false, payload := payload }
  | none => s

/-- Send a seam message to every member down the tree: one transfer per child. -/
def State.sendDown (s : State) (type tag : Nat) (payload : List Byte) : State :=
  s.each (s.childrenOf s.me) fun s c =>
    match s.seamFor c with
    | some n => s.seamSend n { type := type, src := s.me, dst := 0xFF, tag := tag, taint := false, payload := payload }
    | none => s

/-! ## The step plan (R485) -/

/-- The lead sends the plan of the step to come to every other member of its group. -/
def State.sendPlan (s : State) (i : Nat) : State :=
  let b := (s.inst i).plan.bytes
  s.each ((s.groupMembers (s.groupOf s.me)).filter fun m => m != s.me) fun s m => s.sendMember m 0x11 (s.rd K.ctackSeq) b

/-- A member writes the plan into its serving queue table and resumes with it. -/
def State.takePlan (s : State) (i : Nat) (plan : List Byte) : State :=
  let step := leAt plan 0 8
  let a := (s.inst i).queueBase + step % 2 * planBytes
  let s := (s.hbmClear i a planBytes).hbmWrite i a (slice plan 0 (min plan.length planBytes))
  let s := s.modInst i fun x => { x with
    stepOn := true, passes := 0, stepStart := s.time, stepNo := step + 1, withheld := false, cascWait := false }
  match s.selectorOf i with
  | some c => s.modCore c fun k => { k with picks := [] }
  | none => s

/-! ## What a release does here (R490, R491) -/

/-- A new master takes its role (R487, R488). -/
def State.setMaster (s : State) (m : Nat) : State :=
  if m = s.casc.master then s
  else
    let old := s.casc.master
    let s := { s with casc := { s.casc with master := m, stale := true, records := [] } }
    let s := (s.wr K.cascRole (if m = s.me then 2 else 1)).wr K.masterSerial (s.memberSerial m)
    s.logMg (s.rd K.cascInstance) 0x3004 0 0 noSlot old m

/-- The step-boundary work of a member that does not lead: all but committing and choosing a step. -/
def State.memberTack (s : State) (i : Nat) : State :=
  let s := (s.applyTaken i).swapAlteration i
  let s := (s.captures i).drains i
  let s := if (s.inst i).stopDue && s.rd (K.instState i) == 3 then s.wr (K.instState i) 4 else s
  (s.modInst i fun x => { x with stopDue := false, stepOn := false, passes := 0, withheld := true }).pressure i

/-- The swap that this member asked for is answered by the master that a release names (R487). -/
def State.swapAnswer (s : State) (m old : Nat) : State :=
  match s.casc.swaps with
  | (r, t) :: _ =>
    if r ≠ s.me ∨ m = old then s
    else { s.wr K.cascResult (if t = m then 0 else 3) with casc := { s.casc with swaps := [] } }
  | [] => s

/-- A member waits for the lead's plan, or takes the one that has come before the release. -/
def State.resume (s : State) (i : Nat) : State :=
  let s := s.modInst i fun x => { x with cascWait := false, stepOn := false, withheld := true }
  if s.casc.plan.isEmpty then s
  else State.takePlan { s with casc := { s.casc with plan := [] } } i s.casc.plan

/-- The cascade is Unfitted by the master's word; the release does not say which of the two reasons it was (log entry 40). -/
def State.unfitByMaster (s : State) : State :=
  if s.isMaster then s
  else s.freeStep.cascUnfit (1 + s.free.toNat % 2) s.me

/-- A release reaches this member: the tack counts, the master it names is in force, time steps when it is resynced, and
the group goes on, runs its step again, or stays. -/
def State.releaseSelf (s : State) (r : ReleaseMsg) : State :=
  let i := s.rd K.cascInstance
  let s := s.bump K.ctackSeq 64 1
  let s := (s.swapAnswer r.master s.casc.master).setMaster r.master
  let s := match r.resync with
    | some d =>
      let s := { s with time := (((s.time : Int) + d) % (2 ^ 64 : Int)).toNat }
      (s.bump K.timeResyncs 32 1).logMg i 0x3006 0 0 noSlot s.me (d % (2 ^ 64 : Int)).toNat
    | none => s
  if !r.proceed then s.unfitByMaster.modInst i fun x => { x with cascWait := false, withheld := true }
  else
    let s := if s.rd K.cascState = 3 then s
      else ((s.wr K.cascState 3).wr K.unfitReason 0).logMg i 0x3001 0 0 noSlot (s.rd K.ctackSeq) s.cascSize
    let lead := s.leadOf (s.groupOf s.me) == s.me
    match r.rejoin with
    | some n =>
      let s := s.applyTaken i
      if lead then
        let s := s.modInst i fun x => { x with cascWait := false, passes := 0, stepStart := s.time, withheld := !x.stepOn }
        let s := match s.selectorOf i with
          | some c => s.modCore c fun k => { k with picks := [] }
          | none => s
        if (s.inst i).stepOn then s.sendPlan i else s
      else
        let s := if (s.inst i).stepNo - 1 = n then s
          else (s.bump K.rejoins 32 1).logMg i 0x3007 1 0 noSlot s.me n
        s.resume i
    | none =>
      if lead then
        let s := (s.boundary i).modInst i fun x => { x with cascWait := false }
        if (s.inst i).stepOn then s.sendPlan i else s
      else (s.memberTack i).resume i
/-! ## The master's decisions (R487, R490, R491) -/

/-- A release on its way to a member. -/
def releaseBytes (r : ReleaseMsg) : List Byte :=
  leBytes 1 r.master.val ++ leBytes 1 (b2n r.proceed + 2 * b2n r.resync.isSome + 4 * b2n r.rejoin.isSome) ++ leBytes 6 0 ++
  leBytes 8 ((r.resync.getD 0) % (2 ^ 64 : Int)).toNat ++ leBytes 8 (r.rejoin.getD 0)

/-- Channel of the TACK_IO output. -/
def chanTackIo : Nat := 97

/-- The record of a member at the present tack. -/
def State.recordOf (s : State) (m : Nat) : Option TackRec := s.casc.records.find? fun r => r.member.val == m

/-- A member's time offset when it is over 1 µs: its stamp minus the master's receive time plus the path delay. -/
def TackRec.late (r : TackRec) : Option Int :=
  let d : Int := (r.time : Int) - r.rxTime + r.pathDelay
  if 1000 < d.natAbs then some d else none

/-- A member that may be master and is reached. `master_eligible` is equal on every member (R494). -/
def State.mayLead (s : State) (m : Nat) : Bool :=
  decide (m < s.cascSize) && s.rd K.masterEligible == 1 && (m == s.casc.master || (s.parentOf m).isSome)

/-- The swap that wins: of the valid requests, that of the member with the lowest serial. -/
def State.swapWinner (s : State) : Option (Nat × Nat) :=
  let ok := s.casc.swaps.filter fun x => s.mayLead x.2
  (sortBy (fun (a b : Nat × Nat) => decide (s.memberSerial a.1 ≤ s.memberSerial b.1)) ok).head?

/-- The master's releases to the members of groups whose records are in; its own takes effect last. -/
def State.releaseGroups (s : State) (gs : List Nat) (newMaster : Nat) (proceed : Bool) : State :=
  let msg := fun (s : State) (m : Nat) =>
    let lead := (s.recordOf (s.leadOf (s.groupOf m))).map (·.step)
    let apart := (s.groupMembers (s.groupOf m)).any fun x => (s.recordOf x).map (·.step) != lead
    ({ tack := s.rd K.ctackSeq + 1, master := Fin.ofNat 16 newMaster,
       resync := ((s.recordOf m).bind TackRec.late).map fun d => -d,
       rejoin := if apart then lead else none, proceed := proceed } : ReleaseMsg)
  let ms := gs.flatMap s.groupMembers
  let mine := msg s s.me
  let s := s.each (ms.filter fun m => m != s.me) fun s m => s.sendMember m 2 (s.rd K.ctackSeq) (releaseBytes (msg s m))
  let s := s.send chanTackIo []
  let held := s.casc.held.filter fun g => !gs.contains g
  let s := { s with casc := { s.casc with held := held, records := s.casc.records.filter fun r => !gs.contains (s.groupOf r.member) } }
  let s := if held.isEmpty && s.rd K.cascState == 4 then s.wr K.cascState 3 else s
  if ms.contains s.me then s.releaseSelf mine else s.setMaster newMaster

/-- A member whose record differs from the master's in what must be equal (R491). -/
def State.mismatch (s : State) : Option (Nat × Nat) :=
  (s.casc.records.findSome? fun r => if r.cfgDigest = s.cfgDigest then none else some (1, r.member.val)).orElse fun _ =>
    s.casc.records.findSome? fun r => if r.fwVersion = s.rd K.fwVersion then none else some (2, r.member.val)

/-- No request is left. -/
def State.dropSwaps (s : State) : State := { s with casc := { s.casc with swaps := [], barrier := false } }

/-- The requests for the master's role at a barrier: the losers are refused and recorded; the winner's target is the next
master. -/
def State.settleSwaps (s : State) : State × Nat :=
  match s.swapWinner with
  | none => ((if s.casc.swaps.any fun x => x.1 == s.me then s.wr K.cascResult 2 else s).dropSwaps, s.casc.master)
  | some w =>
    let s := s.each (s.casc.swaps.filter fun x => x.1 != w.1) fun s x =>
      let s := if x.1 = s.me then s.wr K.cascResult (if s.mayLead x.2 then 3 else 2) else s
      if s.mayLead x.2 then s.logMg (s.rd K.cascInstance) 0x3005 1 0 noSlot x.1 w.1 else s
    (s.dropSwaps, w.2)

/-- The master looks at the records that are in: a group whose members' records are all there is released, at a barrier or
while the cascade is not Fitted all groups together. -/
def State.judgeTack (s : State) : State :=
  let inAll := fun g => (s.groupMembers g).all fun m => (s.recordOf m).isSome
  let groups := List.range s.cascM
  match s.mismatch with
  | some (reason, member) =>
    let gs := groups.filter inAll
    (s.cascUnfit reason member).releaseGroups gs s.casc.master false
  | none =>
    let st := s.rd K.cascState
    if st = 0 ∨ st = 1 ∨ (st = 2 ∧ s.rd K.unfitReason = 3) then s
    else if s.casc.barrier || !s.casc.swaps.isEmpty || st == 2 then
      if groups.all inAll then
        let w := s.settleSwaps
        w.1.releaseGroups groups w.2 true
      else s
    else
      let gs := groups.filter inAll
      if gs.isEmpty then s else s.releaseGroups gs s.casc.master true

/-! ## The cascade tack (R490) -/

/-- This member's tack record. -/
def State.myRecord (s : State) : TackRec :=
  { member := Fin.ofNat 16 s.me, cfgDigest := s.cfgDigest, fwVersion := s.rd K.fwVersion, time := s.time,
    step := (s.inst (s.rd K.cascInstance)).stepNo - 1, rxTime := s.time, pathDelay := 0 }

/-- A tack record's payload. -/
def recordBytes (r : TackRec) : List Byte := r.cfgDigest ++ leBytes 4 r.fwVersion ++ leBytes 8 r.time ++ leBytes 8 r.step

/-- The master takes a record and decides. -/
def State.addRecord (s : State) (r : TackRec) : State :=
  State.judgeTack { s with casc := { s.casc with records := (s.casc.records.filter fun x => x.member != r.member) ++ [r] } }

/-- A member reaches the cascade tack: the changes that have come apply at its release, its cores wait for that, and its
record goes up the tree (R24, R490). -/
def State.cascCapture (s : State) (i : Nat) : State :=
  let s := (s.modInst i fun x => { x with cascWait := true, withheld := true, taken := x.changes.length }).form
  if s.isMaster then s.addRecord s.myRecord
  else s.sendMember s.casc.master 1 (s.rd K.ctackSeq) (recordBytes s.myRecord)

end Sys2Proof.Machine
end

