-- ==== Sys2Proof/Machine/Replacement.lean ====
section
/-! DEFINITION. Re-placement of failed positions (R252-R254, R471) and darn sets (R152, R153). -/

namespace Sys2Proof.Machine

/-! ## Re-placement -/

/-- The tile records of a position, by number. -/
def tilesOf (i : Nat) (p : List Byte) (panel logical : Nat) : List Nat :=
  ((tileRecs p).zipIdx.filter fun t => absPanel i p t.1.panel == panel && t.1.logical == logical).map (·.2)

/-- The stream number of a loader's golden-image fetch for an engine (R121). -/
def loadStream (e : Nat) : Nat := 32 + e

/-- Program tile record j on core c from its golden copy, which streams through the staging buffer; valid from now on (R121,
R240, R253 step 5). -/
def State.programOn (s : State) (i : Nat) (p : List Byte) (h : HbmPlan) (c j : Nat) : State :=
  match (tileRecs p)[j]? with
  | none => s
  | some t =>
    let img := s.getGolden i h j (imageLen t.desc)
    let e := (s.core c).engineAt t.pos
    let d := tdPut (s.tileDesc i t (h.goldens.getD j 0)) 31 true
    s.modCore c fun k =>
      let k := (k.takeStaging (loadStream e)).passStaging (loadStream e) img
      k.setEng e (((k.engOf e).setTd t.tile d).program t.tile img)

/-- Forget every tile descriptor of a core. -/
def Core.clearTiles (k : Core) : Core := { k with eng := k.eng.map fun e => (e.1, { e.2 with tdesc := [] }) }

/-- Choose spares in ascending (panel, logical) order (R252, R254); none when a position finds none. -/
def State.chooseSpares (s : State) (i : Nat) (p : List Byte) : List Nat → List Replace → Option (List Replace)
  | _, [] => some []
  | used, r :: t =>
    match s.spareFor i p r.panel r.logical (s.posCore r.panel r.logical) used with
    | none => none
    | some c => (State.chooseSpares s i p (c :: used) t).map fun l => { r with spare := some c } :: l

/-- Panels of a Fitted instance without a usable spare in reach raise event 0x2008 (R471). -/
def State.spareAlerts (s : State) (i : Nat) : State :=
  s.each (s.inst i).panels fun s p =>
    if ((p :: s.edgePanels i p).flatMap coresOfPanel).any fun c => s.usable c && !(s.core c).addrValid then s
    else s.logMg i 0x2008 2 4 noSlot i p

/-- The trees of the instance can be rebuilt under R242 with the spares in their positions (R253 step 6). -/
def State.treesAfter (s : State) (i : Nat) (rs : List Replace) : Bool :=
  let p := (s.inst i).pattern
  (s.each rs fun s r => match r.spare with
    | some c => (s.setPos r.panel r.logical c).nameCore i p (relPanel i p r.panel) r.logical c
    | none => s).treesBuild i p 1201

/-- SPARE_PROGRAMMED (R252, R253 steps 3 to 6): spares are chosen, written and programmed, their tables prepared; the
positions apply at the next idle tack. Without a spare the instance faults; a tree that cannot be rebuilt is refused as a
darn loop, and the instance faults as for a refused darn set (log entry 78). -/
def execSpareProgrammed (i : InstId) (s : State) : Out :=
  let x := s.inst i
  let p := x.pattern
  if !s.ready i || x.replacing.isEmpty || x.waitDarn || x.sparesReady then .next s
  else
    let rs := sortBy (fun (a b : Replace) => lexLt [a.panel, a.logical] [b.panel, b.logical]) x.replacing
    match s.chooseSpares i p [] rs with
    | none => .next ((s.modInst i fun x => { x with replacing := [], sparesReady := false }).instFault i 2)
    | some rs =>
      let h := s.hbmPlanOf i
      if !s.treesAfter i rs then .next ((s.modInst i fun x => { x with replacing := [] }).instFault i 4)
      else
        let s := s.each rs fun s r =>
          match r.spare with
          | some c => ((s.writeTask i p h (relPanel i p r.panel) r.logical c).modCore c Core.clearTiles).each
              (tilesOf i p r.panel r.logical) fun s j => s.programOn i p h c j
          | none => s
        .next (s.modInst i fun x => { x with replacing := rs, sparesReady := true })

/-- Step 7 of R253: every position moves to its spare, and all tables change with it; the fenced core is headered off
(R469). -/
def State.applyReplacements (s : State) (i : Nat) : State :=
  let x := s.inst i
  let p := x.pattern
  let s := s.each x.replacing fun s r =>
    match r.spare with
    | none => s
    | some c =>
      let old := s.posCore r.panel r.logical
      let s := s.modCore old fun k => { k.unnamed with header := 0 }
      let s := (s.setPos r.panel r.logical c).nameCore i p (relPanel i p r.panel) r.logical c
      (s.bump (K.vgGeneration r.panel) 32 1).logMg i 0x2007 0 0 noSlot (256 * r.panel + r.logical) c
  let s := ((s.writeNbinds i p).writeRouters i p).vgCounts i p
  let s := s.modInst i fun x => { x with replacing := [], sparesReady := false }
  s.spareAlerts i

/-! ## Darn sets -/

/-- The router with the entries of a darn set. -/
def State.withDarn (s : State) (ws : List DarnWrite) : State :=
  s.each ws fun s w => s.modRouter w.router fun x =>
    { x with darn := mapSet (fun _ => 0) x.darn w.entry w.word.toNat }

/-- A route of a channel stays inside a rectangle's panels and takes at most `fuel` hops (R153). -/
def State.routeOk (s : State) (panels : List Nat) (vc dst : Nat) : Nat → Nat → Bool → Bool
  | fuel, r, detour =>
    if r = dst then true
    else
      match fuel with
      | 0 => false
      | fuel + 1 =>
        let h := s.hop r (xOf dst) (yOf dst) vc detour
        match stepTo r h.1 with
        | some d => decide (panelOf d ∈ panels) && State.routeOk s panels vc dst fuel d h.2
        | none => false

/-- R153 admits a darn set: every VC2 route between cores of every instance, and every VC1 route of its trees rebuilt under
R242, stays inside its rectangle and is at most 4 hops longer than without it. -/
def State.darnOk (s : State) (ws : List DarnWrite) : Bool :=
  let t := s.withDarn ws
  (List.range 12).all fun i => !s.ready i ||
    (t.treesBuild i (s.inst i).pattern 4 &&
     (let cs := (s.coresOf i).filter fun c => !(s.core c).fenced
      cs.all fun a => cs.all fun b => t.routeOk (s.inst i).panels 2 b (distance a b + 4) a false))

/-- Instances that wait for a darn set. -/
def State.darnWaiters (s : State) : List Nat := (List.range 12).filter fun i => (s.inst i).waitDarn

/-- Install a darn set (R152 step 6): entries written, trees rebuilt, failed links bypassed, generation counted. -/
def State.installDarn (s : State) (ws : List DarnWrite) : State :=
  let who := s.darnWaiters
  let s := s.withDarn ws
  let s := s.each (List.range 2330) fun s l => if s.linkByte l = 1 then s.setLinkByte l 2 else s
  let s := (s.bump K.darnGeneration 32 1)
  let s := s.logDev noInst (fabricRec 0xE 2 0 0 0 0 0 (s.rd K.darnGeneration))
  let s := s.each who fun s i =>
    (s.writeRouters i (s.inst i).pattern).modInst i fun x => { x with waitDarn := false }
  { s with darnSet := none }

/-- DARN_SET_READY (R152, R153): the set is checked; refused, its instances fault; accepted, it waits for an idle tack of
an instance that stands still for it, or is written at once when none does. -/
def execDarnSetReady (entries : List DarnWrite) (s : State) : Out :=
  if s.darnOk entries then
    .next (if s.darnWaiters.isEmpty then s.installDarn entries else { s with darnSet := some entries })
  else
    let s := s.logDev noInst (fabricRec 0xE 3 0 0 0 0 0 (s.rd K.darnGeneration))
    .next (s.each s.darnWaiters fun s i => s.instFault i 4)

end Sys2Proof.Machine
end

