-- ==== Sys2Proof/Machine/Tack.lean ====
section
/-! DEFINITION. The tack as the routers and panel controllers run it (R23-R25, R178-R180, R220, R243, R346), and the
restart of an instance. -/

namespace Sys2Proof.Machine

/-! ## The tack tree (R243) -/

/-- Ports of the `in_mask` of a tree entry. -/
def inPorts (e : Nat) : List Nat := (List.range 5).filter fun p => bit e (5 + p)

/-- The arrival of a port is in; a halted core counts as arrived at its L port (R191, R243). -/
def State.tackHeard (s : State) (r port : Nat) : Bool :=
  (s.router r).tackIn.contains port || (port == 4 && decide ((s.core r).run = .halted))

/-- TACK_COMBINE (R243): with every input port of entry 63 heard, the router passes one arrival on, or tells its panel
controller. -/
def execTackCombine (r : CoreId) (s : State) : Out :=
  let x := s.router r
  let e := mapGet (fun _ => 0) x.tree 63
  let ps := inPorts e
  let i := bits e 18 15
  if !bit e 19 || bits e 14 13 != 2 || x.failed || ps.isEmpty || !ps.all (s.tackHeard r) then .next s
  else
    let s := s.setRouter r { x with tackIn := ps.foldl (fun l p => l.erase p) x.tackIn }
    if bits e 12 10 = 6 then
      .next (s.modInst i fun n => { n with
        arrived := if n.arrived.contains (panelOf r) then n.arrived else n.arrived ++ [panelOf r] })
    else
      let d := (stepTo r (bits e 12 10)).getD r
      .next (s.sendVc0 r (bits e 12 10) { s.packetFrom r 7 0 with group := 63, inst := i, dstX := xOf d, dstY := yOf d })

/-! ## Capture and release -/

/-- Device-wide entries whose writes take effect at each instance's next tack (R157, R319). -/
def tackKeys : List Nat := [K.rqTimeout, K.dedupWindow, K.frpRto, K.frpRetries]

/-- Device-wide settings and repairs that take effect at every tack (R62, R66, R84, R157, R184, R319). -/
def State.tackCores (s : State) (i : Nat) : State :=
  let s := s.modInst i fun x => { x with
    fcRate := s.rd K.fcRateLog2, fcEnable := s.rd K.fcEnable == 1, fcSeed := s.rd K.fcSeed,
    inForce := tackKeys.foldl (fun m k => mapSet dictDefault m k (s.rd k)) x.inForce }
  s.each (s.coresOf i) fun s c => s.modCore c fun k => { k.tackRepairs with hzSeen := [] }

/-- The tack completes the step in flight, or none is in flight. -/
def Inst.atBoundary (x : Inst) (layers : Nat) : Bool := !x.stepOn || decide (layers ≤ x.passes + 1)

/-- Every panel's arrival is in and the instance takes tacks. -/
def State.captureReady (s : State) (i : Nat) : Bool :=
  let x := s.inst i
  s.ready i && !x.halted && !x.withheld && !x.panels.isEmpty && x.panels.all fun p => x.arrived.contains p

/-- TACK_CAPTURE (R24, R27, R243, R300): the capture instant. Snapshots copy the mirrors as they stand, then pending changes
apply; a step-boundary tack also commits the step and chooses the next one; in a cascade it sends its record, and commits,
applies and chooses at the release (R490). -/
def execTackCapture (i : InstId) (s : State) : Out :=
  if !s.captureReady i then .next s
  else
    let last := (s.inst i).atBoundary (s.rd (K.modelLayers i))
    let s := (((s.modInst i fun x => { x with arrived := [] }).takeSnapshots i).wake i).heatStop i
    let s :=
      if last && s.cascaded i then (s.pressure i).cascCapture i
      else if last then s.boundary i
      else (s.applyChanges i fun c => !c.boundary && !c.idleOnly && !(c.fromC && s.cascaded i)).pressure i
    let s := s.tackCores i
    .next (s.modInst i fun x => { x with
      tackSeq := x.tackSeq + 1, layerPass := x.layerPass + 1, passes := if last then 0 else x.passes + 1 })

/-- Whether a core at its TACK is let go (R220). -/
def State.released (s : State) (c : Nat) : Bool :=
  let k := s.core c
  match k.inst with
  | some i =>
    let x := s.inst i
    decide (k.run = .atTack) && !k.fenced && s.rd (K.instState i) == 3 && !x.halted && !x.withheld && !x.cascWait &&
      x.tackSeq == k.tackAt + 1
  | none => false

/-- TACK_RELEASE (R220): the core takes its snapshot and goes on after its TACK. -/
def execTackRelease (c : CoreId) (s : State) : Out :=
  if !s.released c then .next s
  else
    .next (s.modCore c fun k =>
      let k := k.advance
      { k with run := .running, snap := ⟨k.regs, k.preds, k.loops, k.rets, k.pc⟩ })

/-! ## Restart (R180, R253) -/

/-- A core's restart (a halted one issues nothing until the next compute reset, R191): queues, bolts and finisher registers emptied; then either the snapshot is restored, or registers
are zeroed and the pc is set to `step_entry`. -/
def Core.restart (k : Core) (step : Option Nat) : Core :=
  let k := { k with
    pos := k.pos.map fun (p : Nat × PosState) => (p.1, { p.2 with cmdq := [], bolts := [], resume := 0, seen := [], before := none }),
    queues := [], redWait := [], arrivals := [], hzRanges := [],
    fregs := [], ftaint := 0, itaint := false, trapCode := 0, trapStatus := 0, issueAt := 0, run := if k.run = RunState.halted then .halted else .running }
  match step with
  | none => { k with regs := k.snap.regs, preds := k.snap.preds, loops := k.snap.loops, rets := k.snap.rets, pc := k.snap.pc }
  | some t => { k with regs := [], preds := 0, loops := [], rets := [], pc := t }

/-- The canonical form of a map is kept: entries that became empty go. -/
def Core.tidy (k : Core) : Core := { k with pos := k.pos.filter fun p => p.2 != {} }

/-- Forget what the abandoned step has under way on an instance's trees: arrivals, partial sums, multicasts and candidates
(R152; log entry 77). -/
def State.clearTacks (s : State) (i : Nat) : State :=
  let s := s.each ((s.inst i).panels.flatMap coresOfPanel) fun s r => s.modRouter r fun x =>
    { x with tackIn := [], red := [], inq := x.inq.filter fun y => !((y.2.kind == 7 || y.2.vc == 1) && y.2.inst == i) }
  s.each (s.coresOf i) fun s c => s.modCore c fun k => { k with mcIn := [], candIn := [] }

/-- Hold a core at a TACK whose release leads to the present pc: no step is in flight (log entry 30). -/
def Core.holdAt (k : Core) (tackSeq : Nat) : Core :=
  { k with run := .atTack, pc := (k.pc + 2 ^ 15 - 1) % 2 ^ 15, tackAt := tackSeq - 1 }

/-- Restart instance i (R180), or let it enter its step anew after a re-placement (R253). -/
def State.restart (s : State) (i : Nat) : State :=
  let x := s.inst i
  let p := x.pattern
  let s := s.clearTacks i
  let wait := x.fromStep && !x.stepOn && decide (0 < x.tackSeq)
  let s := s.each (s.coresOf i) fun s c => s.modCore c fun k =>
    let k := (k.restart (if x.fromStep then some (codeStep p k.block) else none)).tidy
    if wait && decide (k.run ≠ .halted) then k.holdAt x.tackSeq else k
  let s := s.modInst i fun y => { y with
    halted := false, trapped := false, trapFault := false, restartDue := false, fromStep := false, abandoned := false,
    arrived := [], passes := if x.fromStep then 0 else y.passes, withheld := y.withheld && wait }
  let s := s.bump K.restarts 64 1
  s.logMg i 0x0405 1 0 noSlot (s.rd K.restarts) 0

/-! ## Faults (R346) -/

/-- The actions of a fault at the next tack: every request ends with status 0x0C, and every sequence with it. -/
def State.endInstance (s : State) (i status : Nat) : State :=
  let s := s.each (s.instReqs i) fun s r => s.endReqSeq r.slot r.key status
  let s := s.each ((s.seqs.filter fun q => q.2.inst == i && decide (q.2.state ≠ .free)).map (·.1)) fun s q => s.endSeq q false
  s.modInst i fun x => { x with stepOn := false, passes := 0, plan := {}, faultDue := false, abandoned := false }

/-! ## Idle tacks (R25) -/

/-- Instance i runs no pass. -/
def State.runsNoPass (s : State) (i : Nat) : Bool :=
  let x := s.inst i
  x.halted || x.withheld || x.cascWait || s.rd (K.instState i) != 3 ||
    (s.coresOf i).all fun c => decide ((s.core c).run ≠ .running) && decide ((s.core c).run ≠ .atTack)

/-- Repairs of the fabric and of positions come into force, then the restart that waits for them (R152, R180, R253). -/
def State.idleRepairs (s : State) (i : Nat) : State :=
  let s := match s.darnSet with
    | some ws => if (s.inst i).waitDarn then s.installDarn ws else s
    | none => s
  let x := s.inst i
  let s := if s.ready i && x.sparesReady && !x.waitDarn then s.applyReplacements i else s
  let x := s.inst i
  if s.ready i && x.restartDue && !x.waitDarn && x.replacing.isEmpty && !x.trapped then s.restart i else s

/-- IDLE_TACK (R25): pending changes apply, repairs come into force, and an instance whose release is withheld looks for
a step again. -/
def execIdleTack (i : InstId) (s : State) : Out :=
  if s.rd (K.instState i) = 0 || !s.runsNoPass i then .next s
  else
    let s := (s.takeSnapshots i).wake i
    let s := if (s.inst i).faultDue then s.endInstance i 0x0C else s
    let s := ((s.heatStop i).idleRepairs i).applyChanges i Change.idleOnly
    let x := s.inst i
    let s :=
      if x.stepOn then (s.applyChanges i fun c => !c.boundary && !(c.fromC && s.cascaded i)).pressure i
      else if s.ready i && x.withheld && !x.halted && !x.cascWait && !s.cascaded i then s.boundary i
      else ((((s.applyChanges i fun c => !(c.fromC && s.cascaded i)).swapAlteration i).captures i).drains i).pressure i
    .next (s.tackCores i)

/-! ## Traps (R178, R179) -/

/-- Outstanding DMA and remote requests of an instance have ended; those of a fenced core, whose L port is closed, are not
waited for (R149). -/
def State.drained (s : State) (i : Nat) : Bool :=
  (s.coresOf i).all fun c => (s.core c).fenced || (((s.core c).dma.all fun d => d.2.isEmpty) && (s.core c).rqOut.isEmpty)

/-- TRAP_DRAIN_END (R179 step 5): the instance takes the restart course when every trap was of restart class, otherwise
it faults. -/
def execTrapDrainEnd (i : InstId) (s : State) : Out :=
  let x := s.inst i
  if !x.trapped || !s.drained i then .next s
  else
    let s := s.modInst i fun y => { y with trapped := false, trapFault := false }
    .next (if x.trapFault then s.instFault i 1
      else s.modInst i fun y => { y with restartDue := true, abandoned := y.abandoned || y.stepOn })

/-- TACK_OVERDUE (R178 code 0x0D): every core of the instance that has not reached TACK traps. -/
def execTackOverdue (i : InstId) (s : State) : Out :=
  if !s.ready i || (s.inst i).halted then .next s
  else
    .next (s.each ((s.coresOf i).filter fun c => decide ((s.core c).run = .running)) fun s c =>
      let k := s.core c
      s.trap c { code := 0xD } k.pc (bits (mapGet (fun _ => 0) k.istore k.pc) 63 56))

end Sys2Proof.Machine
end

