-- ==== Sys2Proof/Machine/Image.lean ====
section
/-! DEFINITION. The model image: manifest and descriptor (R326-R330), the conversion of weight shards (R331, R93, R56) and
of embedding tables (R332, R96). -/

namespace Sys2Proof.Machine

/-! ## Manifest (R327, R328) -/

/-- Number of shards. -/
def manCount (m : List Byte) : Nat := leAt m 10 2
/-- `key_id`. -/
def manKey (m : List Byte) : Nat := leAt m 48 8

/-- A shard entry. -/
structure ShardEntry where
  kind : Nat
  elem : Nat
  length : Nat
  digest : List Byte
deriving DecidableEq, Repr

/-- Entry n. -/
def manShard (m : List Byte) (n : Nat) : ShardEntry :=
  let o := 64 + 64 * n
  ⟨leAt m (o + 4) 1, leAt m (o + 5) 1, leAt m (o + 8) 8, slice m (o + 16) 48⟩

/-- `elem` is allowed for a kind. -/
def elemOk (kind elem : Nat) : Bool :=
  kind == 0 || (kind == 1 && decide (elem ≤ 4)) || (kind == 2 && (elem == 5 || elem == 6)) || (kind == 3 && elem == 6)

/-- ASCII text padded with zero bytes. -/
def asciiPadded (b : List Byte) : Bool :=
  (b.dropWhile fun x => x != 0 && decide (x.toNat < 128)).all (· == 0)

/-- The manifest keeps R327 and R328. -/
def manifestOk (m : List Byte) : Bool :=
  slice m 0 8 == strBytes "FJW1MNFT" && leAt m 8 2 == 1 && decide (2 ≤ manCount m) && leAt m 12 4 == m.length &&
  m.length == 64 + 64 * manCount m + (if manKey m = 0 then 0 else 96) && asciiPadded (slice m 16 32) &&
  (slice m 56 8).all (· == 0) &&
  (List.range (manCount m)).all fun n =>
    let e := manShard m n
    leAt m (64 + 64 * n) 4 == n && (e.kind == 0) == (n == 0) && elemOk e.kind e.elem && leAt m (64 + 64 * n + 6) 2 == 0

/-- Byte offset of shard n from the manifest's start (R326). -/
def shardAt (m : List Byte) : Nat → Nat
  | 0 => alignUp m.length 4096
  | n + 1 => alignUp (shardAt m n + (manShard m n).length) 4096

/-- The publisher key with an id (R347). -/
def State.pubKeyOf (s : State) (id : Nat) : Option (List Byte) :=
  ((List.range 16).find? fun k => leAt (s.blob (K.pubKey k)) 0 8 == id).map fun k => slice (s.blob (K.pubKey k)) 8 97

/-- Code with which a manifest ends its load, 0 none (R327-R329). -/
def State.manifestCode (s : State) (i : Nat) (m : List Byte) : Nat :=
  let d := Config.sha384 m
  let expect := s.blob (K.modelExpect i)
  let signed := match s.pubKeyOf (manKey m) with
    | some k => Config.ecdsaOk k (slice m 0 (m.length - 96)) (m.drop (m.length - 96))
    | none => false
  if !manifestOk m then 0x20
  else if manKey m ≠ 0 ∧ !signed then 0x21
  else if manKey m = 0 ∧ s.rd (K.requireSigned i) = 1 then 0x22
  else if (expect.any fun b => b != 0) ∧ expect ≠ d then 0x23
  else 0

/-! ## Descriptor (R330) -/

def descLayers (d : List Byte) : Nat := leAt d 10 2
def descHidden (d : List Byte) : Nat := leAt d 12 4
def descVocab (d : List Byte) : Nat := leAt d 16 4
def descContext (d : List Byte) : Nat := leAt d 20 4
def descHeads (d : List Byte) : Nat := leAt d 24 1
def descTiles (d : List Byte) : Nat := leAt d 40 4

/-- The geometry word with `groups` filled in (R258). -/
def geometryOf (d : List Byte) : Nat :=
  let g := leAt d 32 8
  g + 2 ^ 32 * ceilDiv (bits g 27 16 + 1) (bits g 9 3)

/-- R258 and R260 for a geometry word without its `groups`. -/
def geometryOk (g : Nat) : Bool :=
  let t := 2 ^ (4 + bits g 2 0)
  let n := bits g 9 3
  let u := n * (bits g 13 10 + 1)
  let f := bits g 15 14
  let e := if f = 0 then 512 else if f = 1 then 256 else 128
  let sb := if f = 0 then 0 else 4
  decide (bits g 2 0 ≤ 4) && decide (1 ≤ n) && decide (n ≤ 64) && decide (f ≤ 2) && bits g 63 28 == 0 &&
    decide (bits g 27 16 < 4096) && decide (u * t * (e + sb) + 64 ≤ 65536) && decide (n * t ≤ 256)

/-- The descriptor keeps R330. -/
def descOk (d : List Byte) : Bool :=
  d.length == 64 && slice d 0 8 == strBytes "FJW2DESC" && leAt d 8 2 == 1 && decide (1 ≤ descLayers d) &&
  decide (descLayers d ≤ 4096) && decide (64 ≤ descHidden d) && decide (descHidden d ≤ 65536) &&
  descHidden d % 64 == 0 && decide (1 ≤ descVocab d) && decide (descVocab d ≤ 262144) && decide (1 ≤ descContext d) &&
  decide (descContext d ≤ 1048576) && decide (descHeads d ≤ 8) && (slice d 25 7).all (· == 0) &&
  (slice d 44 20).all (· == 0) && geometryOk (leAt d 32 8) && bits (leAt d 32 8) 27 16 + 1 == descLayers d

/-! ## Weight shards (R331, R93, R56) -/

/-- A converted tile source. -/
structure Converted where
  source : Nat
  fmt : Nat
  blocks : Nat
  image : List Byte
  /-- row blocks before any split, which of them were split, and the source's own bytes -/
  rows : Nat
  splits : List Bool
  raw : List Byte
deriving DecidableEq, Repr

/-- Check values of one row (R56). -/
def checkBytes (fmt : Nat) (row : List Byte) : List Byte :=
  let w := rowWeights fmt row
  leBytes 2 (unsignedAt 16 (isum w)) ++ leBytes 2 (unsignedAt 16 (wsum w))

/-- Tile image from its weights and scales (R41). -/
def imageOf (fmt : Nat) (weights scales : List Byte) : List Byte :=
  weights ++ scales ++ (List.range (weights.length / rowBytes fmt)).flatMap fun r =>
    checkBytes fmt (slice weights (r * rowBytes fmt) (rowBytes fmt))

/-- MX block pair m has unequal scales in some column, and is split (R93). -/
def mxSplit (scales : List Byte) (m : Nat) : Bool := slice scales (128 * m) 64 != slice scales (128 * m + 64) 64

/-- Device blocks of MX block pair m (R93): weights and scales of one or of two row blocks. -/
def mxBlock (weights scales : List Byte) (m : Nat) : List (List Byte × List Byte) :=
  let w := slice weights (2048 * m) 2048
  let a := slice scales (128 * m) 64
  let b := slice scales (128 * m + 64) 64
  let z := List.replicate 1024 (0#8)
  if !mxSplit scales m then [(w, a)] else [(slice w 0 1024 ++ z, a), (z ++ slice w 1024 1024, b)]

/-- One source of a WEIGHTS shard at an offset: its conversion and the offset after it; none breaks R331. -/
def convertAt (b : List Byte) (elem o : Nat) : Option (Converted × Nat) :=
  let n := leAt b (o + 4) 1
  let mx := elem == 4
  let fmt := if mx then 1 else elem
  let wLen := n * 64 * rowBytes fmt
  let sLen := if mx then 128 * n else 64 * n
  let stop := o + 16 + wLen + sLen
  let w := slice b (o + 16) wLen
  let sc := slice b (o + 16 + wLen) sLen
  if b.length < stop ∨ n = 0 ∨ 64 < n ∨ (slice b (o + 5) 11).any (· != 0) ∨ sc.any (· == 0xFF) then none
  else
    let blocks := if mx then (List.range n).flatMap (mxBlock w sc) else [(w, sc)]
    let k := if mx then blocks.length else n
    if 64 < k then none
    else some (⟨leAt b o 4, fmt, k, imageOf fmt (blocks.flatMap (·.1)) (blocks.flatMap (·.2)), n,
      if mx then (List.range n).map (mxSplit sc) else [], slice b o (stop - o)⟩, stop)

/-- All sources of a WEIGHTS shard from an offset on. -/
def convertFrom (b : List Byte) (elem : Nat) : Nat → Nat → Option (List Converted)
  | 0, o => if o = b.length then some [] else none
  | fuel + 1, o =>
    if o = b.length then some []
    else
      match convertAt b elem o with
      | none => none
      | some (c, o') => (convertFrom b elem fuel o').map fun t => c :: t

/-- The sources of a shard, every one below `tiles` and none seen before; none breaks R331. -/
def convertShard (b : List Byte) (elem tiles : Nat) (seen : List Nat) : Option (List Converted) :=
  match convertFrom b elem b.length 0 with
  | none => none
  | some cs =>
    let ids := cs.map (·.source)
    if (cs.all fun c => decide (c.source < tiles) && !seen.contains c.source) ∧ ids.eraseDups.length = ids.length
    then some cs else none

/-! ## Embedding tables (R332, R96, R72) -/

/-- Bytes of a row of an EMBED shard. -/
def embedRow (elem hidden : Nat) : Nat := if elem = 5 then hidden + hidden / 32 else 2 * hidden

/-- Scale X of MX block m of row r. -/
def mxScale (b : List Byte) (hidden r m : Nat) : Nat := byteOf b (r * embedRow 5 hidden + hidden + m)

/-- The table takes the split-pair form. -/
def embedSplit (b : List Byte) (elem hidden vocab : Nat) : Bool :=
  elem == 5 && (List.range vocab).any fun r => (List.range (hidden / 64)).any fun m =>
    mxScale b hidden r (2 * m) != mxScale b hidden r (2 * m + 1)

/-- The shard has whole rows, and no scale below 6 or 0xFF (R92, R96). -/
def embedOk (b : List Byte) (elem hidden vocab : Nat) : Bool :=
  b.length == vocab * embedRow elem hidden &&
  (elem != 5 || (List.range vocab).all fun r => (List.range (hidden / 32)).all fun m =>
    decide (6 ≤ mxScale b hidden r m) && mxScale b hidden r m != 0xFF)

/-- A 64-channel block as element bytes and scale in the four-block form; beyond `hidden` it is zero. -/
def embedBlock (b : List Byte) (elem hidden r m : Nat) : List Byte × Nat :=
  if hidden ≤ 64 * m then (List.replicate 64 0, 0)
  else if elem = 5 then (slice b (r * embedRow 5 hidden + 64 * m) 64, mxScale b hidden r (2 * m) - 6)
  else
    let u := (List.range 64).map fun c =>
      Sys2Proof.Machine.decode bf16 (leAt b (r * embedRow 6 hidden + 2 * (64 * m + c)) 2)
    let e := (chooseScale u 127).getD 254
    (u.map fun x => BitVec.ofInt 8 (quantElem 127 e x), e)

/-- A pair of the split form: blocks A and B. -/
def embedPair (b : List Byte) (hidden r m : Nat) : List (List Byte × Nat) :=
  let z := List.replicate 64 (0#8)
  if hidden ≤ 64 * m then [(z, 0), (z, 0)]
  else
    let w := slice b (r * embedRow 5 hidden + 64 * m) 64
    let x0 := mxScale b hidden r (2 * m)
    let x1 := mxScale b hidden r (2 * m + 1)
    if x0 = x1 then [(w, x0 - 6), (z, x0 - 6)]
    else [(slice w 0 32 ++ slice z 0 32, x0 - 6), (slice z 0 32 ++ slice w 32 32, x1 - 6)]

/-- One 512-byte chunk of four blocks. -/
def chunkOf (bs : List (List Byte × Nat)) : List Byte :=
  bs.flatMap (·.1) ++ bs.map (fun x => BitVec.ofNat 8 x.2) ++ List.replicate 252 0

/-- The table in its chunk form. -/
def embedChunks (b : List Byte) (elem hidden vocab : Nat) : List Byte :=
  if embedSplit b elem hidden vocab then
    (List.range vocab).flatMap fun r => (List.range (ceilDiv hidden 128)).flatMap fun j =>
      chunkOf (embedPair b hidden r (2 * j) ++ embedPair b hidden r (2 * j + 1))
  else
    (List.range vocab).flatMap fun r => (List.range (ceilDiv hidden 256)).flatMap fun j =>
      chunkOf ((List.range 4).map fun k => embedBlock b elem hidden r (4 * j + k))

end Sys2Proof.Machine
end

