-- ==== Sys2Proof/Machine/Dma.lean ====
section
/-! DEFINITION. The DMA engine's transfers and page-list walks (R118-R120, R266-R268, R483), and the timers that end them
(R386, R479). A transfer moves its bytes when it ends (log entry 31). -/

namespace Sys2Proof.Machine

/-- Store bytes with poison at some offsets (R111). -/
def Core.storeBad (k : Core) (a : Nat) (bs : List Byte) (bad : List Nat) : Core :=
  let k := k.store a bs
  { k with poison := bad.foldl (fun m o => mapSet (fun _ => false) m ((a + o) / 8) true) k.poison }

/-- Offsets, from a physical address on, of poisoned words. -/
def Core.badOffsets (k : Core) (a n : Nat) : List Nat := (k.poisoned a n).map fun w => 8 * w - a

/-- The core that a remote-core address names and the physical addresses there, or the status that refuses it (R109, R132,
R149). -/
def State.dmaRemote (s : State) (c a n : Nat) (write : Bool) : Except Nat (Nat × List Nat) :=
  match s.translate c (bits a 63 60) (bits a 59 53) with
  | none => .error 4
  | some t =>
    let k := s.core t
    if k.fenced then .error 3
    else if !k.holds (bits a 63 60) (bits a 59 53) then .error 4
    else if k.logInst ≠ (s.core c).logInst then .error 1
    else match k.either (bits a 23 0) n write with
      | some l => .ok (t, l)
      | none => .error 1

/-- Routers of the dies and cores that n bytes at an address of a space lead to (R15, R119, R256). -/
def State.dmaSites (s : State) (c space a n : Nat) : List Nat :=
  let i := (s.core c).logInst
  if space = 1 then
    if s.aperture i a then ((s.seamTo i (bits a 59 56)).map fun m => hsSite (m / 2)).toList
    else
      let st := s.stacksOf i
      ((List.range (min 16 (ceilDiv (a % 65536 + n) 65536))).map fun u => hbmSite (st.getD ((a / 65536 + u) % st.length) 0)).eraseDups
  else if space = 2 then [hsSite (winNo a / 128)]
  else if space = 3 then (s.translate c (bits a 63 60) (bits a 59 53)).toList
  else []

/-- The VC3 packets of a descriptor find their way to every die and core that it names, and their answers back (R129, R134,
R148, R151). -/
def State.dmaWay (s : State) (c : Nat) (d : DDesc) (n : Nat) : Bool :=
  ((if d.op = 1 then [] else s.dmaSites c d.srcSpace d.src n) ++ s.dmaSites c d.dstSpace d.dst n).all (s.joinedBy 3 c)

/-- Read the source of a copy: the bytes and the offsets of poison among them. -/
def State.dmaRead (s : State) (c : Nat) (d : DDesc) (n : Nat) (host : List Byte) :
    Except Nat (State × List Byte × List Nat) :=
  let k := s.core c
  let i := k.logInst
  let local_ := fun (own : Option (Nat × Nat)) (c a : Nat) =>
    let k := s.core c
    (((s.fixRead c a n).noteUncorr c (dataPort a) (k.poisoned a n)).portUse c own 0 [⟨dataPort a, false, a, n⟩],
      k.bytesAt a n, k.badOffsets a n)
  if d.op = 1 then .ok (s, List.replicate n 0, [])
  else if d.srcSpace = 0 then
    match k.either d.src n false with
    | some (a :: _) => .ok (local_ (some (d.q, d.id)) c a)
    | _ => .error 1
  else if d.srcSpace = 1 then .ok (s.hbmFound i d.src n, s.hbmRead i d.src n, s.hbmBad i d.src n)
  else if d.srcSpace = 2 then
    match s.devRef d.src n (dmaWindow i) with
    | some _ => .ok (s, slice host 0 n, [])
    | none => .error 1
  else match s.dmaRemote c d.src n false with
    | .ok (t, a :: _) => .ok (local_ none t a)
    | .ok (_, []) => .error 1
    | .error st => .error st

/-- Put data into the seam aperture (R483): type 0x10 transfers of at most 4,096 bytes; false without an up seam. -/
def State.apertureSend (s : State) (i a : Nat) (bs : List Byte) (taint : Bool) : State × Bool :=
  match s.seamTo i (bits a 59 56) with
  | none => (s, false)
  | some n =>
    (s.each (List.range (ceilDiv bs.length 4096)) fun s j =>
      s.seamSend n { type := 0x10, src := s.rd K.memberIndex, dst := bits a 59 56, tag := a % 2 ^ 60 + 4096 * j, taint := taint,
                     payload := (bs.drop (4096 * j)).take 4096 }, true)

/-- A transfer's bytes reach core c's scratchpad; `own` names the completion of the core's own descriptor. -/
def State.dmaStore (s : State) (c : Nat) (own : Option (Nat × Nat)) (l : List Nat) (bs : List Byte) (bad : List Nat) : State :=
  (s.modCore c fun k => l.foldl (fun k a => k.storeBad a bs bad) k).portUse c own 0
    (l.map fun a => ⟨dataPort a, true, a, bs.length⟩)

/-- Write the destination of a transfer; the status it ends with. -/
def State.dmaWrite (s : State) (c : Nat) (d : DDesc) (bs : List Byte) (bad : List Nat) : State × Nat :=
  let k := s.core c
  let i := k.logInst
  let st := if bad.isEmpty then 0 else 8
  if d.dstSpace = 0 then
    match k.either d.dst bs.length true with
    | some l => (s.dmaStore c (some (d.q, d.id)) l bs bad, st)
    | none => (s, 1)
  else if d.dstSpace = 1 then
    if s.aperture i d.dst then
      let w := s.apertureSend i d.dst bs (!bad.isEmpty)
      (w.1, if w.2 then 0 else 2)
    else ((s.hbmWrite i d.dst bs).hbmPoisonAt i d.dst bad, st)
  else if d.dstSpace = 2 then
    match s.devRef d.dst bs.length (dmaWindow i) with
    | some r =>
      let w := s.hostWrite r bs
      (w.1, if w.2 then st else 7)
    | none => (s, 1)
  else match s.dmaRemote c d.dst bs.length true with
    | .ok (t, l) => (s.dmaStore t none l bs bad, st)
    | .error e => (s, e)

/-- Move n bytes of a descriptor's transfer; the status it ends with, 0x02 when a link on its way has failed. A read through a
function that may not reach host memory is counted at its port (R524). -/
def State.dmaMove (s : State) (c : Nat) (d : DDesc) (n : Nat) (host : List Byte) : State × Nat :=
  if n = 0 then (s, 0)
  else if !s.dmaWay c d n then (s, 2)
  else if d.op = 0 ∧ d.srcSpace = 2 ∧ (s.devRef d.src n (dmaWindow (s.core c).logInst)).any (fun r => !s.hostReady r.fn) then
    (s.hostError (winNo d.src / 128), 7)
  else
    match s.dmaRead c d n host with
    | .error st => (s, st)
    | .ok (s, bs, bad) => s.dmaWrite c d bs bad

/-- Count a host-side error of a descriptor at its port (R386). -/
def State.dmaHostError (s : State) (d : DDesc) : State :=
  s.hostError (winNo (if d.op = 0 && d.srcSpace = 2 then d.src else d.dst) / 128)

/-- DMA_TRANSFER_DONE (R118-R120): the transfer at the head of a channel ends. `hostData` is what a host-window source
read; a host-side error ends it after `hostData.length` bytes. Nothing passes the closed L port of a fenced core (R149). -/
def execDmaTransferDone (c : CoreId) (ch : Fin 8) (hostData : List Byte) (hostError : Bool) (s : State) : Out :=
  let k := s.core c
  match k.dmaHead ch with
  | none => .next s
  | some d =>
    if k.fenced || d.op = 2 || d.refused != 0 || !k.dmaTurn d then .next s
    else
      let usesHost := (d.op == 0 && d.srcSpace == 2) || d.dstSpace == 2
      let err := hostError && usesHost
      let n := if err then min hostData.length d.length else d.length
      let w := s.dmaMove c d n hostData
      let s := if err then w.1.dmaHostError d else w.1
      let st := if err then 7 else w.2
      .next (s.dmaEnd c ch d st 0 (if st = 0 ∨ st = 8 ∨ err then n else 0))

/-! ## Page-list walks (R267) -/

/-- One segment of a visited page, copied to its place. -/
def State.walkSegment (s : State) (c i : Nat) (d : DDesc) (base off len dst : Nat) : State :=
  let bs := s.hbmRead i (base + 32 * off) (32 * len)
  let bad := s.hbmBad i (base + 32 * off) (32 * len)
  let s := s.hbmFound i (base + 32 * off) (32 * len)
  match (s.core c).either dst (32 * len) true with
  | some l => s.dmaStore c (some (d.q, d.id)) l bs bad
  | none => s

/-- Visit list entries in order; the status, and the pages visited. A failed link on the way to the page list's or a page's
stack ends the walk with status 0x02 (R148). -/
def State.walkPages (s : State) (c i : Nat) (d : DDesc) : List Nat → Nat → State × Nat × Nat
  | [], k => (s, 0, k)
  | x :: xs, k =>
    let w2 := d.walk.getD 2 0
    let w3 := d.walk.getD 3 0
    let w1 := d.walk.getD 1 0
    let s := s.hbmFound i (bits w2 39 0 + 4 * x) 4
    let e := leNat (s.hbmRead i (bits w2 39 0 + 4 * x) 4)
    let way := fun a n => (s.dmaSites c 1 a n).all (s.joinedBy 3 c)
    if !way (bits w2 39 0 + 4 * x) 4 then (s, 2, k)
    else if !peResident e then (s, 6, k)
    else if s.rd (K.poolPages i) ≤ pePage e then (s, 1, k)
    else
      let base := s.pageAddr i (pePage e)
      if !way base 65536 then (s, 2, k)
      else
      let l0 := bits w3 45 35
      let l1 := bits w3 63 57
      let s := s.walkSegment c i d base (bits w3 34 24) l0 (bits w1 31 0 + k * 32 * l0)
      let s := if l1 = 0 then s else s.walkSegment c i d base (bits w3 56 46) l1 (bits w1 63 32 + k * 32 * l1)
      State.walkPages s c i d xs (k + 1)

/-- List indices that a walk visits, in order, each 32 bits wide (R267). -/
def walkIndices (d : DDesc) : List Nat :=
  let w0 := d.walk.getD 0 0
  let w2 := d.walk.getD 2 0
  let w3 := d.walk.getD 3 0
  (List.range (bits w2 63 48)).flatMap fun o => (List.range (bits w0 63 56)).map fun j =>
    (bits w0 55 32 + o * bits w3 23 0 + j * bits w2 47 40) % 2 ^ 32

/-- PAGE_WALK_DONE (R267, R268): the walk at the head of a channel ends. -/
def execPageWalkDone (c : CoreId) (ch : Fin 8) (s : State) : Out :=
  let k := s.core c
  match k.dmaHead ch with
  | none => .next s
  | some d =>
    if k.fenced ∨ d.op ≠ 2 ∨ !k.dmaTurn d then .next s
    else
      let i := k.logInst
      let w := s.walkPages c i d (walkIndices d) 0
      let w3 := d.walk.getD 3 0
      let s := if w.2.1 = 6 ∨ w.2.1 = 1 then w.1.bump (K.walkErrors i) 64 1 else w.1
      .next (s.dmaEnd c ch d w.2.1 1 (w.2.2 * 32 * (bits w3 45 35 + bits w3 63 57)))

/-! ## Timers -/

/-- A descriptor ends with a status after the bytes moved so far (R386). -/
def State.dmaCut (s : State) (c ch : Nat) (d : DDesc) (moved status : Nat) : State :=
  let n := min moved d.length
  if d.op = 2 then s.dmaEnd c ch d status 1 n
  else
    let f := if d.op = 0 ∧ d.srcSpace = 2 then s.freeBytes n else (s, [])
    (f.1.dmaMove c d n f.2).1.dmaEnd c ch d status 0 n

/-- The timeout status. -/
def State.dmaTimeout (s : State) (c ch : Nat) (d : DDesc) (moved : Nat) : State := s.dmaCut c ch d moved 5

/-- HBM_TIMEOUT (R386): a transfer to or from HBM moved no byte for `hbm_timeout`; while a stack of the instance retrains
its timers stand still (R385). -/
def execHbmTimeout (c : CoreId) (ch : Fin 8) (moved : Nat) (s : State) : Out :=
  let k := s.core c
  match k.dmaHead ch with
  | none => .next s
  | some d =>
    let i := k.logInst
    let hbm := d.op == 2 || (d.op == 0 && d.srcSpace == 1) || (d.dstSpace == 1 && !s.aperture i d.dst)
    let held := (s.stacksOf i).any fun n => (s.stack n).retrain == 2 &&
      (d.op == 2 || decide (hbmSite n ∈ s.dmaSites c d.srcSpace d.src d.length ++ s.dmaSites c d.dstSpace d.dst d.length))
    .next (if hbm && !held then s.dmaTimeout c ch d moved else s)

/-- CPL_TIMEOUT (R386): the completion timeout of a PCIe request ends the descriptor with status 0x05 and the bytes moved
so far. -/
def execCplTimeout (c : CoreId) (ch : Fin 8) (moved : Nat) (s : State) : Out :=
  let k := s.core c
  match k.dmaHead ch with
  | none => .next s
  | some d =>
    if d.op = 0 ∧ d.srcSpace = 2 then
      .next ((s.dmaTimeout c ch d moved).bump (K.cplTimeouts (winNo d.src / 128)) 64 1)
    else .next s

/-- SEAM_TIMEOUT (R479): a transfer into the seam aperture ends with status 0x05. -/
def execSeamTimeout (c : CoreId) (ch : Fin 8) (s : State) : Out :=
  let k := s.core c
  match k.dmaHead ch with
  | none => .next s
  | some d =>
    if d.op ≠ 2 ∧ d.dstSpace = 1 ∧ s.aperture k.logInst d.dst then .next (s.dmaEnd c ch d 5 0 0) else .next s

end Sys2Proof.Machine
end

