-- ==== Sys2Proof/Machine/Intake.lean ====
section
/-! DEFINITION. Reading requests: ring registers, the checks of an entry and of its parameter block, the key table, and what
each opcode sets going (R285-R288, R296-R299, R305, R311, R350, R360, R365, R378). Readings: log entry 32. -/

namespace Sys2Proof.Machine

/-! ## The entry as bytes, and its CRC (R288, R296) -/

/-- One step of CRC-32C over a bit. -/
def crcBit (c : Nat) : Nat := if c % 2 = 1 then (c / 2) ^^^ 0x82F63B78 else c / 2
/-- CRC-32C over a byte. -/
def crcByte (c : Nat) (b : Byte) : Nat :=
  crcBit (crcBit (crcBit (crcBit (crcBit (crcBit (crcBit (crcBit (c ^^^ b.toNat))))))))
/-- CRC-32C of a byte string. -/
def crc32c (bs : List Byte) : Nat := bs.foldl crcByte 0xFFFFFFFF ^^^ 0xFFFFFFFF

/-- Bytes 0–7, 24–31, 40–47 and 56–63 of an entry, as it came. -/
def entryCrcBytes (e : SubEntry) (opcode : Nat) : List Byte :=
  leBytes 1 opcode ++ leBytes 1 e.flags.toNat ++ leBytes 2 (bits e.reserved.toNat 15 0) ++ leBytes 4 e.handle.toNat ++
  leBytes 4 e.inputCount ++ leBytes 4 e.maxNew ++ leBytes 4 e.outputCap ++ leBytes 4 e.maxContext ++
  leBytes 4 e.pinnedLen ++ leBytes 2 e.streamEvery ++ leBytes 1 e.spec.toNat ++
  leBytes 1 (bits e.reserved.toNat 23 16)

/-! ## Field checks (R288, R299, R305, R311, R378) -/

/-- A FP32 field lies between two bounds, both included. -/
def within (lo hi : Fl) (b : BitVec 32) : Bool := lo.le (logitOf b.toNat) && (logitOf b.toNat).le hi

/-- R305 admits a parameter block. -/
def blockOk (b : ParamBlock) : Bool :=
  ((logitOf b.temperature.toNat).isZero || within (.fin false 1 (-8)) (.ofNat 100) b.temperature) &&
  (Fl.zero.lt (logitOf b.topP.toNat) && (logitOf b.topP.toNat).le Fl.one) &&
  (Fl.zero.le (logitOf b.minP.toNat) && (logitOf b.minP.toNat).lt Fl.one) &&
  within Fl.one (.ofNat 16) b.repPenalty && within Fl.zero (.ofNat 16) b.freqPenalty &&
  decide (b.topK ≤ 256) && decide (b.penaltyWindow ≤ 4096) && b.pflags.toNat / 4 == 0 && b.reservedZero &&
  decide (b.stopTokens.length ≤ 64) && b.stopTokens.all (fun t => decide (t < 262144)) &&
  decide (b.stopSeqs.length ≤ 8) && b.stopSeqs.all (fun l => decide (1 ≤ l.length) && decide (l.length ≤ 16) &&
    l.all fun t => decide (t < 262144)) &&
  decide (b.biases.length ≤ 1024) && b.biases.all (fun x => decide (x.1 < 262144) && (logitOf x.2.toNat).isFin) &&
  (!bit b.pflags.toNat 1 || b.mask.any fun x => x != 0#8)

/-- Bytes of a parameter block (R305). -/
def blockSize (b : ParamBlock) : Nat := if bit b.pflags.toNat 1 then 41824 else 9056

/-- The opcode may create a sequence. -/
def creates (opcode : Nat) : Bool := opcode == 1 || opcode == 2
/-- The request asks for a new sequence. -/
def entryIsNew (e : SubEntry) (opcode : Nat) : Bool := creates opcode && bit e.flags.toNat 0

/-- The `spec` field is in range and its source is there (R288, R311). -/
def State.specOkFor (s : State) (i : Nat) (spec : Nat) : Bool :=
  let src := bits spec 1 0
  let m := bits spec 5 2
  bits spec 7 6 == 0 && decide (src ≤ 2) && (src == 0 || (decide (1 ≤ m) && decide (m ≤ 8))) &&
    (src != 1 || decide (m ≤ s.rd (K.modelDraftHeads i))) && (src != 2 || s.rd (K.draftInstance i) != 0xFF)

/-- The host-window fields of a request name the slot's windows; over FRP they are zero (R288, R293, R378). -/
def State.windowsOk (s : State) (slot opcode : Nat) (r : ReqArgs) : Bool :=
  let e := r.e
  match r.from_ with
  | .frp _ => (opcode == 6 || e.input == 0#64) && e.output == 0#64 && e.outputCap == 0 && e.params == 0#64
  | .ring =>
    (!creates opcode || e.inputCount == 0 || (s.slotRef slot e.input.toNat (4 * e.inputCount)).isSome) &&
    (opcode != 1 || ((s.slotRef slot e.output.toNat (4 * e.outputCap)).isSome &&
      match r.params with
      | some b => (s.slotRef slot e.params.toNat (blockSize b)).isSome
      | none => false))

/-- Every field range and reserved field of an entry and its parameter block (R299). -/
def State.fieldsOk (s : State) (slot i opcode : Nat) (r : ReqArgs) : Bool :=
  let e := r.e
  decide (1 ≤ opcode) && decide (opcode ≤ 6) && e.reserved == 0#24 && e.flags.toNat / 2 == 0 && (creates opcode || !bit e.flags.toNat 0) && e.key != 0 &&
  decide (e.inputCount < 2 ^ 24) &&
  (!creates opcode || (r.tokens.length == e.inputCount && r.tokens.all fun t => decide (t < 2 ^ 24))) &&
  (if opcode = 1 then decide (1 ≤ e.maxNew) && decide (e.maxNew < 2 ^ 24) else e.maxNew == 0) &&
  e.output.toNat % 64 == 0 && s.specOkFor i e.spec.toNat &&
  (!entryIsNew e opcode || (decide (1 ≤ e.maxContext) && decide (e.maxContext ≤ 1048576) &&
    decide (e.maxContext ≤ s.rd (K.modelContext i)) && decide (e.pinnedLen ≤ e.maxContext))) &&
  (opcode != 1 || match r.params with
    | some b => blockOk b
    | none => false) &&
  s.windowsOk slot opcode r

/-- The sequence that a handle names for a slot (R282). -/
def State.handleSeq (s : State) (slot : Nat) (h : Nat) : Option Nat :=
  let q := h % 65536
  let x := s.seq q
  if x.state ≠ .free ∧ x.gen = h / 65536 ∧ x.slot = slot ∧ !x.isDraft then some q else none

/-- Entries of a slot's key table. -/
def State.keysOf (s : State) (slot : Nat) : Nat := (s.reqs.filter fun r => r.slot == slot).length

/-- Status of a request that is no duplicate, 0 when it is accepted (R282, R283, R284, R288, R291, R296, R299). -/
def State.reqStatus (s : State) (slot i opcode : Nat) (r : ReqArgs) (q : Option Nat) : Nat :=
  let e := r.e
  let named := opcode != 6 && !entryIsNew e opcode
  let x := s.seq (q.getD 0)
  if !s.fieldsOk slot i opcode r then 1
  else if named ∧ q.isNone then 3
  else if named ∧ s.seqBusy (q.getD 0) then 2
  else if s.rd K.dedupEntries ≤ s.keysOf slot then 4
  else if creates opcode ∧ (if entryIsNew e opcode then e.maxContext else x.maxContext) <
      (if entryIsNew e opcode then 0 else x.length + x.pending.length) + e.inputCount then 9
  else if entryIsNew e opcode ∧ s.rd (K.seqLimit i) = 0 then 0xD
  else if opcode = 3 ∧ (e.maxContext < x.pinnedLen ∨ x.length < e.maxContext) then 1
  else if opcode = 4 ∧ s.rd (K.swapSlots slot) = 0 then 0x10
  else 0

/-! ## Acceptance -/

/-- The slot gains a waiting request after having none (R365). -/
def State.vtJoin (s : State) (i slot : Nat) : State :=
  let wait := s.waiting i
  if wait.any fun r => r.slot == slot then s
  else
    match ((wait.filter fun r => s.rd (K.priority r.slot) == s.rd (K.priority slot)).map fun r => (s.slot r.slot).vt).min? with
    | some v => s.modSlot slot fun x => { x with vt := max x.vt v }
    | none => s

/-- The table entry that a request makes. -/
def State.newReq (s : State) (slot i opcode : Nat) (r : ReqArgs) (q : Option Nat) (seed : Nat) : Req :=
  { slot := slot, key := r.e.key, from_ := r.from_, opcode := opcode, e := r.e, tokens := r.tokens, params := r.params,
    crc := crc32c (entryCrcBytes r.e opcode), inst := i,
    handle := match q with
      | some n => s.handleOf n
      | none => 0,
    seq := q, order := (s.inst i).nextOrder, accepted := s.time, reportedAt := s.time, seed := seed,
    stalledAt := match q with
      | some n => if (s.seq n).state = .preempted ∨ (s.seq n).state = .parked then some s.time else none
      | none => none }

/-- Accept a request: it enters the key table, and waits for admission or for its tack (R288, R298, R299, R309). -/
def State.acceptReq (s : State) (slot i opcode : Nat) (r : ReqArgs) (q : Option Nat) : State :=
  let given : Option Nat := match r.params with
    | some b => if bit b.pflags.toNat 0 then some b.seed.toNat else none
    | none => none
  let draw := opcode == 1 && given.isNone
  let seed := if draw then s.free.toNat else given.getD 0
  let s := if draw then s.freeStep else s
  let s := if creates opcode then s.vtJoin i slot else s
  let s := { s with reqs := s.reqs ++ [s.newReq slot i opcode r q seed] }
  let s := (s.modInst i fun x => { x with nextOrder := x.nextOrder + 1 }).bump (K.requestsAccepted slot) 64 1
  if opcode = 3 then s.change i (.truncate slot r.e.key)
  else if opcode = 4 then s.change i (.park slot r.e.key)
  else if opcode = 5 then s.change i (.release slot r.e.key)
  else if opcode = 6 then s.change i (.cancel slot r.e.key r.e.input.toNat)
  else s

/-- Refuse a request with a status; `keep` records its key with the refusal while the key table has a free entry (R296,
R297). -/
def State.refuseReq (s : State) (slot i opcode : Nat) (r : ReqArgs) (q : Option Nat) (status flags : Nat) (keep : Bool) :
    State :=
  let x := s.newReq slot i opcode r q 0
  let b := s.completion x status flags
  let s := if keep ∧ s.keysOf slot < s.rd K.dedupEntries then { s with reqs := s.reqs ++ [{ x with final := some b, finalAt := s.time, seq := none }] } else s
  s.postFinal slot r.from_ b

/-- A complete request of a slot (R294, R297, R299, R350, R360); outside Enabled it is answered with status 0x08. -/
def State.submit (s : State) (slot opcode : Nat) (r : ReqArgs) : State :=
  let i := s.rd (K.slotInstance slot)
  let q := if opcode = 6 || entryIsNew r.e opcode then none else s.handleSeq slot r.e.handle.toNat
  if 2 ≤ s.rd (K.slotState slot) then
    (s.refuseReq slot i opcode r q 8 0 false).bump (K.requestsAborted slot) 64 1
  else if !s.ready i then s.refuseReq slot i opcode r q 0xC 0 false
  else
    match s.req slot r.e.key with
    | some old =>
      if old.crc ≠ crc32c (entryCrcBytes r.e opcode) then
        (s.bump (K.keyConflicts i) 64 1).refuseReq slot i opcode r q 5 8 false
      else
        let s := s.bump (K.duplicates i) 64 1
        if old.live then s.change i (.duplicate slot r.e.key r.from_) else s.answerDup old r.from_
    | none =>
      let st := s.reqStatus slot i opcode r q
      if st = 0 then s.acceptReq slot i opcode r q else s.refuseReq slot i opcode r q st 0 (st != 4)

/-- The device reads the next ring entry of a slot (R287, R292, R350, R460, R524). -/
def State.ringReads (s : State) (slot : Nat) : Bool :=
  let x := s.slot slot
  x.sq.enable && x.sq.head != x.sq.tail && bit (s.rd (K.transport slot)) 0 && s.hostReady (vfOf slot) &&
    (s.rd (K.slotState slot) == 1 || s.rd (K.slotState slot) == 2) && x.teardown == 0 &&
    decide (x.finals.length < 64) && s.rd K.devState != 3

/-- The association takes requests of a slot enabled for FRP (R293). -/
def State.frpOpen (s : State) (slot assoc : Nat) : Bool :=
  bit (s.rd (K.transport slot)) 1 && s.rd (K.slotState slot) != 0 && (s.assoc slot assoc).isSome

/-- A request as it is read: the entry at SQ_HEAD of the slot's ring, or one that FRP has completed. -/
def State.takeReq (s : State) (slot opcode : Nat) (r : ReqArgs) : State :=
  match r.from_ with
  | .ring =>
    if s.ringReads slot then
      (s.modSlot slot fun x => { x with sq := { x.sq with head := (x.sq.head + 1) % x.sq.size } }).submit slot opcode r
    else s
  | .frp a => if s.frpOpen slot a then s.submit slot opcode r else s

/-- GENERATE (R288): append input tokens, then generate. -/
def execGenerate (slot : SlotId) (r : ReqArgs) (s : State) : Out := .next (s.takeReq slot 1 r)
/-- APPEND (R288): append and cache input tokens. -/
def execAppend (slot : SlotId) (r : ReqArgs) (s : State) : Out := .next (s.takeReq slot 2 r)
/-- TRUNCATE (R279, R288): reduce the sequence's length at the next tack. -/
def execTruncate (slot : SlotId) (r : ReqArgs) (s : State) : Out := .next (s.takeReq slot 3 r)
/-- PARK (R288): swap the sequence out from the next tack on. -/
def execPark (slot : SlotId) (r : ReqArgs) (s : State) : Out := .next (s.takeReq slot 4 r)
/-- RELEASE (R288): free the sequence at the next tack. -/
def execRelease (slot : SlotId) (r : ReqArgs) (s : State) : Out := .next (s.takeReq slot 5 r)
/-- CANCEL (R298): end the named request at the next step-boundary tack. -/
def execRequestCancel (slot : SlotId) (r : ReqArgs) (s : State) : Out := .next (s.takeReq slot 6 r)

/-! ## Ring registers (R285, R286, R354) -/

/-- Change the submission or completion ring of a slot. -/
def State.modRing (s : State) (slot : Nat) (completion : Bool) (f : Ring → Ring) : State :=
  s.modSlot slot fun x => if completion then { x with cq := f x.cq } else { x with sq := f x.sq }
/-- The submission or completion ring of a slot. -/
def State.ringOf (s : State) (slot : Nat) (completion : Bool) : Ring := if completion then (s.slot slot).cq else (s.slot slot).sq

/-- Stop a ring (R286): `error` set, `enable` cleared, the slot's error event and message raised. -/
def State.ringStop (s : State) (slot : Nat) (completion : Bool) : State :=
  let s := s.modRing slot completion fun r => { r with error := true, enable := false }
  (s.logMg (s.rd (K.slotInstance slot)) 0x0301 1 0 slot (b2n completion) 0).message (vfOf slot) 1

/-- SQ_TAIL (R286): the doorbell; a value outside the ring stops it. -/
def execSqTail (slot : SlotId) (value : Word64) (s : State) : Out :=
  let r := (s.slot slot).sq
  if !r.enable then .next s
  else if r.size ≤ value.toNat then .next (s.ringStop slot false)
  else .next (s.modRing slot false fun r => { r with tail := value.toNat })

/-- CQ_HEAD (R286, R292): entries consumed; final completions that wait take the room. -/
def execCqHead (slot : SlotId) (value : Word64) (s : State) : Out :=
  let r := (s.slot slot).cq
  if !r.enable then .next s
  else if r.size ≤ value.toNat then .next (s.ringStop slot true)
  else
    let s := s.modRing slot true fun r => { r with head := value.toNat }
    .next (s.drainFinals slot (s.slot slot).finals.length)

/-- The ring that a CFG write would enable is well placed: 6 to 16 for its size, a 64-byte aligned base, and its whole
range inside a window of the slot (R285, R378). -/
def State.ringPlaced (s : State) (slot sizeLog2 base : Nat) : Bool :=
  decide (6 ≤ sizeLog2) && decide (sizeLog2 ≤ 16) && base % 64 == 0 && (s.slotRef slot base (64 * 2 ^ sizeLog2)).isSome

/-- RING_CFG_WRITE (R285, R286, R354): a write of BASE or CFG, ignored and counted while the ring is enabled, or when it
would enable the ring outside Enabled. -/
def execRingCfgWrite (slot : SlotId) (completion base : Bool) (value : Word64) (s : State) : Out :=
  let r := s.ringOf slot completion
  let en := bit value.toNat 8
  if r.enable ∨ (!base ∧ en ∧ s.rd (K.slotState slot) ≠ 1) then .next (s.bump (K.ringErrors slot) 32 1)
  else if base then .next (s.modRing slot completion fun r => { r with base := value.toNat })
  else if !en then .next (s.modRing slot completion fun r => { r with sizeLog2 := bits value.toNat 4 0 })
  else
    let n := bits value.toNat 4 0
    if s.ringPlaced slot n r.base then
      let s := s.modRing slot completion fun r =>
        { r with sizeLog2 := n, enable := true, error := false, head := 0, tail := 0, phase := true }
      .next (if completion then s.drainFinals slot (s.slot slot).finals.length else s)
    else .next ((s.modRing slot completion fun r => { r with sizeLog2 := n }).ringStop slot completion)

/-- DEDUP_WINDOW_EXPIRY (R296): `dedup_window` after the final completion the key leaves the table. -/
def execDedupWindowExpiry (slot : SlotId) (key : Nat) (s : State) : Out :=
  .next { s with reqs := s.reqs.filter fun r => !(r.slot == slot.val && r.key == key && !r.live) }

end Sys2Proof.Machine
end

