-- ==== Sys2Proof/Machine/Loader.lean ====
section
/-! DEFINITION. Loading a model and its pattern (R246, R250, R333-R337), the load journal (R344, R345), and what leaves an
instance with its model (R323, R335). -/

namespace Sys2Proof.Machine

/-! ## The journal (R344) -/

/-- Record in force of instance i. -/
def State.journalOf (s : State) (i : Nat) : List Byte := slice (s.blob K.journal) (64 * i) 64
/-- State field of the record: 0 IDLE; 1 LOADING; 2 COMPLETE; 3 UNLOADING. -/
def State.journalState (s : State) (i : Nat) : Nat := leAt (s.journalOf i) 4 1

/-- Write instance i's journal record; the copy with the lower `seq` takes it. -/
def State.writeJournal (s : State) (i st : Nat) (digest : List Byte) : State :=
  let old := s.journalOf i
  let shape := if s.rd (K.instState i) = 0 then 0 else s.rd (K.instCols i) + 16 * s.rd (K.instRows i)
  let b := leBytes 4 (leAt old 0 4 + 1) ++ leBytes 1 st ++ leBytes 1 shape ++ leBytes 2 0 ++ slice digest 0 48 ++ leBytes 4 0
  ({ s with journalOld := mapSet (fun _ => []) s.journalOld i old }).blobPut K.journal (64 * i) (b ++ leBytes 4 (crc32c b))

/-! ## Leaving the instance without a model -/

/-- Cores of the instance's panels. -/
def State.panelCores (s : State) (i : Nat) : List Nat := (s.inst i).panels.flatMap coresOfPanel

/-- Nothing of a placement is left: descriptors invalid, data addresses and tables gone, the virtual grid empty. -/
def State.unplace (s : State) (i : Nat) : State :=
  let s := s.each (s.panelCores i) fun s c => s.modCore c fun k =>
    k.clearTiles.unnamed
  let s := s.each (s.panelCores i) fun s r => s.modRouter r fun x => { x with trans := [], tree := [], tackIn := [] }
  s.each (s.inst i).panels fun s p =>
    ((((s.wrBlob (K.vgMap p) (blobDefault (K.vgMap p))).wr (K.vgV p) 0).wr (K.vgDisplaced p) 0).wr (K.vgBorrowed p) 0).wr
      (K.vgLent p) 0

/-- The entries that describe a loaded model take their defaults. -/
def State.clearModel (s : State) (i : Nat) : State :=
  let s := s.each [K.modelDigest i, K.modelName i, K.recipeSelect i, K.recipeApplied i, K.recipeGeneration i] fun s k =>
    s.wrBlob k (blobDefault k)
  s.each [K.modelLayers i, K.modelVocab i, K.modelContext i, K.modelDraftHeads i, K.modelKeyId i, K.kvGeometry i,
    K.poolPages i, K.lowWm i, K.highWm i] fun s k => s.wr k (dictDefault k)

/-- What the instance's panel controllers hold once no model is there. -/
def Inst.bare (x : Inst) : Inst := { panels := x.panels, busy := x.busy, retired := x.retired, snapshot := x.snapshot }

/-- A load ends with a code, and a shard number where it names one (R335). -/
def State.loadFail (s : State) (i code shard : Nat) : State :=
  let s := (s.unplace i).clearModel i
  let s := (s.wr (K.loadStatus i) (pack [(6, 0), (code, 8), (shard, 16)])).wr (K.instState i) instUnfitted
  let s := (s.writeJournal i 0 []).modInst i Inst.bare
  s.logMg i 0x0402 1 0 noSlot (s.rd (K.loadStatus i)) 0

/-! ## Host source (R326, R378) -/

/-- `load_src` selects the cascade broadcast (R336). -/
def State.fromCascade (s : State) (i : Nat) : Bool := s.rd (K.loadSrc i) == 2 ^ 64 - 1

/-- A role-1 window of instance i and its aliases (R378): those of its size on other ports. -/
def State.aliases (s : State) (i w : Nat) : List Nat :=
  let x := s.window w
  (s.winTab.map fun p => p.1 / 4).eraseDups.filter fun v =>
    let y := s.window v
    y.valid && y.role == 1 && y.owner == i && y.size == x.size && (v == w || v / 128 != w / 128)

/-- The n bytes at a host-window address can be fetched from a role-1 window of the instance; the flag says so. They are
spread over the window's aliases in a division that the spec leaves open: with some alias out of reach, whether the fetch
used it is a free value (R333, R378). -/
def State.fetched (s : State) (i a n : Nat) : State × Bool :=
  match s.devRef a n fun w => w.role == 1 && w.owner == i with
  | none => (s, false)
  | some _ =>
    let all := s.aliases i (winNo a)
    match all.filter fun v => !s.hostReady (pfOf (v / 128)) with
    | [] => (s, true)
    | v :: bad =>
      if bad.length + 1 = all.length then (s.hostError (v / 128), false)
      else if s.free.toNat % 2 = 1 then (s.freeStep.hostError (v / 128), false) else (s.freeStep, true)

/-- A load's fetch has ended without its bytes: counted at the port of the window (R386), and the load ends (R333). -/
def State.fetchLost (s : State) (i src n : Nat) (fin : FetchEnd) : State :=
  let port := winNo src / 128
  (if fin = .timeout then s.bump (K.cplTimeouts port) 64 1 else s.hostError port).loadFail i 0x28 n

/-- The same for the model image at an offset; a broadcast needs no window. -/
def State.fetchedModel (s : State) (i off n : Nat) : State × Bool :=
  if s.fromCascade i then (s, true) else s.fetched i (s.rd (K.loadSrc i) + off) n

/-! ## LOAD and ABORT_LOAD -/

/-- An instance command is under way that takes time. -/
def State.instBusy (s : State) (i : Nat) : Bool := (s.inst i).busy != .none

/-- Result of an instance command. -/
def State.instResult (s : State) (i r : Nat) : State := s.wr (K.instCmdResult i) r

/-- LOAD (R333): step 1. Refused under test enable (R509). -/
def execLoad (i : InstId) (s : State) : Out :=
  if s.rd K.testEnable = 1 then .next s
  else if s.rd (K.instState i) = 2 then .next (s.instResult i 3)
  else if s.instBusy i then .next (s.instResult i 3)
  else if s.rd (K.instState i) ≠ 1 then .next (s.instResult i 1)
  else
    let s := ((s.instResult i 0).wr (K.instState i) instLoading).wr (K.loadStatus i) 1
    let s := (s.wr (K.shardsDone i) 0).writeJournal i 1 []
    let s := (s.modInst i fun x => { x.bare with load := some {}, retired := [] }).setLining i false
    let r := s.fetchedModel i 0 64
    .next (if r.2 then r.1.wr (K.loadStatus i) 2 else r.1.loadFail i 0x28 0)

/-- ABORT_LOAD (R335). -/
def execAbortLoad (i : InstId) (s : State) : Out :=
  if s.rd (K.instState i) ≠ 2 then .next (s.instResult i 1)
  else .next ((s.instResult i 0).loadFail i 0x2A 0)

/-! ## Placing (R246-R250) -/

/-- The panels' maps are written; none when a panel has no placement (R247, R250 step 3). -/
def State.writeMap (s : State) (i : Nat) (p : List Byte) : Option State :=
  (List.range (patPanels p)).foldl (fun o r => o.bind fun t =>
    let m := s.mapPanel i p r
    let n := absPanel i p r
    if m.all Option.isSome then
      let b := m.flatMap fun x => leBytes 2 (100 * n + x.getD 0)
      some (((t.wrBlob (K.vgMap n) (b ++ List.replicate (200 - b.length) 0xFF)).wr (K.vgV n) (patV p)).wr (K.vgGeneration n) 0)
    else none) (some s)

/-- Shard n of the manifest is an EMBED or VECTOR shard (R332). -/
def isRegionShard (m : List Byte) (n : Nat) : Bool :=
  decide (n < manCount m) && ((manShard m n).kind == 2 || (manShard m n).kind == 3)

/-- First code of R246 that applies to a pattern, 0 none; 0x24 when its layer count is not the descriptor's (R330), 0x07
when a model region names no EMBED or VECTOR shard (R332). -/
def State.patCode (s : State) (i : Nat) (p : List Byte) : Nat :=
  let x := s.inst i
  let geo := geometryOf x.desc
  let mapped := s.writeMap i p
  let debug := s.rd K.hzMode != 0
  if !pat01 p then 1
  else if slice p 32 48 ≠ s.blob (K.modelDigest i) then 2
  else if patCols p ≠ s.rd (K.instCols i) ∨ patRows p ≠ s.rd (K.instRows i) then 3
  else if mapped.isNone then 3
  else if !pat04 p then 4
  else if !pat05 p debug then 5
  else if !pat06 p then 6
  else if !pat07 p (descTiles x.desc) then 7
  else if !pat08 p geo then 8
  else if !pat09 p x.manifest then 9
  else if !pat0A p then 0xA
  else if !(mapped.any fun t => t.treesOk i p) then 0xB
  else if !pat0C p (fun role => (s.windowOf i role).isSome) then 0xC
  else if (s.stacksOf i).any (fun n => s.rd (K.hbmState n) == 3) then 0xD
  else if !pat0D p ∨ (s.hbmPlan i p (bits geo 47 32)).isNone then 0xD
  else if patLayers p ≠ descLayers x.desc then 0x24
  else if (hbmRegions p).any fun r => decide (0x8000 ≤ r.id) && !isRegionShard x.manifest (r.id - 0x8000) then 7
  else 0

/-- Regions of the pattern in HBM are zeroed or written with their patched data (R239, R250 step 4). -/
def State.writeRegions (s : State) (i : Nat) (p : List Byte) (h : HbmPlan) : State :=
  s.each (hbmRegions p) fun s r =>
    let a := ((h.regions.find? fun x => x.1 == r.id).map (·.2)).getD 0
    let s := s.hbmClear i a r.size
    if r.kind = 1 ∧ r.id < 0x8000 then
      s.hbmWrite i a (slice (s.patchBytes i p h 2 r.id
        (slice p ((patSec p 0xA).1 + r.data) r.dataLen ++ List.replicate (r.size - r.dataLen) 0)) 0 r.size)
    else s

/-- Every position's core, the routers and the tile descriptors are written (R250 steps 5 to 7). -/
def State.writePlaces (s : State) (i : Nat) (p : List Byte) (h : HbmPlan) : State :=
  let s := s.each (patPositions p) fun s x => s.writeCore i p h x.1 x.2 (s.posCore (absPanel i p x.1) x.2)
  let s := ((s.writeNbinds i p).writeRouters i p).vgCounts i p
  s.each (List.range (tileRecs p).length) fun s j => s.writeDesc i p h j

/-- A valid pattern is placed (R250 steps 3 to 6). -/
def State.placePattern (s : State) (i : Nat) (p : List Byte) : State :=
  let d := (s.inst i).desc
  match s.writeMap i p, s.hbmPlan i p 0 with
  | some s, some h =>
    let n := descLayers d
    let recipes := (List.range (4 * n)).foldl (fun m k => mapSet (fun _ => 0) m k (patRecipe p (k / 4) (k % 4))) []
    let s := s.modInst i fun x => { x with
      pattern := p, recipes := recipes, poolBase := h.pool, altBase := h.alt, queueBase := h.queue,
      regions := h.regions.foldl (fun m r => mapSet (fun _ => 0) m r.1 r.2) [] }
    let s := (s.wr (K.kvGeometry i) (geometryOf d)).wr (K.loadStatus i) 4
    let s := ((s.wrBlob (K.recipeSelect i) (List.replicate n 0)).wrBlob (K.recipeApplied i) (List.replicate n 0)).wrBlob
      (K.recipeGeneration i) (List.replicate (2 * n) 0)
    (s.writeRegions i p h).writePlaces i p h
  | _, _ => s

/-! ## IMAGE_COMPLETE -/

/-- The manifest has arrived (R333 step 2). -/
def State.takeManifest (s : State) (i : Nat) (m : List Byte) : State :=
  let r := s.fetchedModel i 0 m.length
  let code := s.manifestCode i m
  if !r.2 then r.1.loadFail i 0x28 0
  else if code ≠ 0 then s.loadFail i code 0
  else
    let s := ((s.wrBlob (K.modelDigest i) (Config.sha384 m)).wrBlob (K.modelName i) (slice m 16 32)).wr (K.modelKeyId i) (manKey m)
    (s.modInst i fun x => { x with manifest := m }).writeJournal i 1 (Config.sha384 m)

/-- A shard's digest is not the manifest's: it is fetched again, and the third time ends the load (R334). A load from the
broadcast asks the master to resend it, by its byte offset in the image (R336, R477, R492). -/
def State.shardMiss (s : State) (i n : Nat) : State :=
  match (s.inst i).load with
  | none => s
  | some l =>
    let k := mapGet (fun _ => 0) l.misses n + 1
    if 3 ≤ k then s.loadFail i 0x25 n
    else
      let s := s.modInst i fun x => { x with load := some { l with misses := mapSet (fun _ => 0) l.misses n k } }
      if s.fromCascade i then s.sendMember s.casc.master 0x21 (shardAt (s.inst i).manifest n) [] else s

/-- The shard's bytes are those of the manifest. -/
def shardOk (m : List Byte) (n : Nat) (b : List Byte) : Bool :=
  b.length == (manShard m n).length && Config.sha384 b == (manShard m n).digest

/-- Shard n is done. -/
def State.shardDone (s : State) (i n : Nat) (f : Load → Load) : State :=
  (s.modInst i fun x => { x with load := x.load.map fun l => f { l with done := l.done ++ [n] } }).bump (K.shardsDone i) 32 1

/-- The descriptor has arrived (R333 step 3). -/
def State.takeDesc (s : State) (i : Nat) (d : List Byte) : State :=
  let m := (s.inst i).manifest
  let r := s.fetchedModel i (shardAt m 0) (manShard m 0).length
  if !r.2 then r.1.loadFail i 0x28 0
  else if !shardOk m 0 d then s.shardMiss i 0
  else if !descOk d then s.loadFail i 0x24 0
  else
    let s := (((s.wr (K.modelLayers i) (descLayers d)).wr (K.modelVocab i) (descVocab d)).wr (K.modelContext i)
      (descContext d)).wr (K.modelDraftHeads i) (descHeads d)
    let s := ((s.modInst i fun x => { x with desc := d }).shardDone i 0 id).wr (K.loadStatus i) 3
    let r := s.fetched i (s.rd (K.patternSrc i)) (s.rd (K.patternLen i))
    if r.2 then s else r.1.loadFail i 0x28 0

/-- IMAGE_COMPLETE (R250, R333): the manifest, the descriptor or the pattern has arrived, whichever the load waits for, or its
fetch has ended without it. -/
def execImageComplete (i : InstId) (image : Fetched) (s : State) : Out :=
  let fin := image.fin
  let image := image.bytes
  let x := s.inst i
  if x.load.isNone then .next s
  else if fin ≠ .done then
    let pat := !x.desc.isEmpty && x.pattern.isEmpty
    .next (if !x.pattern.isEmpty || (s.fromCascade i && !pat) then s
      else s.fetchLost i (s.rd (if pat then K.patternSrc i else K.loadSrc i)) 0 fin)
  else if x.manifest.isEmpty then .next (s.takeManifest i image)
  else if x.desc.isEmpty then .next (s.takeDesc i image)
  else if x.pattern.isEmpty then
    let code := s.patCode i image
    .next (if code = 0 then s.placePattern i image else s.loadFail i code 0)
  else .next s

/-! ## Shards and tiles -/

/-- The pool takes what the HBM has left over, and the watermarks their defaults (R255, R280). -/
def State.sizePool (s : State) (i : Nat) : State :=
  let n := (s.hbmPlanOf i).pages
  ((s.wr (K.poolPages i) n).wr (K.lowWm i) (n / 32)).wr (K.highWm i) (n / 16)

/-- Step 8 of R333 once every shard is verified and every tile enabled: journal COMPLETE, Fitted, cores start. -/
def State.tryFit (s : State) (i : Nat) : State :=
  let x := s.inst i
  match x.load with
  | none => s
  | some l =>
    if l.done.length < manCount x.manifest ∨ l.programmed.length < (tileRecs x.pattern).length then s
    else
      let s := (s.wr (K.loadStatus i) 5).wr (K.instState i) instFitted
      let s := (s.writeJournal i 2 (s.blob (K.modelDigest i))).sizePool i
      let s := s.modInst i fun x => { x with
        load := none, fcRate := s.rd K.fcRateLog2, fcEnable := s.rd K.fcEnable == 1, fcSeed := s.rd K.fcSeed }
      let s := (s.logMg i 0x0401 0 0 noSlot (s.rd (K.shardsDone i)) 0).startCores i
      s.spareAlerts i

/-- Write the golden images of one converted source; 0 or the code that ends the load (R246 code 0x07, R337). -/
def State.placeSource (s : State) (i : Nat) (c : Converted) : State × Nat :=
  let x := s.inst i
  let h := s.hbmPlanOf i
  (tileRecs x.pattern).zipIdx.foldl (fun r t =>
    if r.2 ≠ 0 ∨ t.1.source ≠ c.source then r
    else if t.1.fmt ≠ c.fmt ∨ t.1.blocks ≠ c.blocks then (r.1, 7)
    else
      let g := r.1.putGolden i h t.2 c.image
      if g.2 then (g.1.modInst i fun x => { x with load := x.load.map fun l => { l with placed := l.placed ++ [t.2] } }, 0)
      else (g.1, 0x28)) (s, 0)

/-- Place every source of a WEIGHTS shard. -/
def State.placeSources (s : State) (i : Nat) : List Converted → State × Nat
  | [] => (s, 0)
  | c :: t =>
    let r := s.placeSource i c
    if r.2 = 0 then State.placeSources r.1 i t else r

/-- Fill the model region of shard n, if the pattern has one; 0 or the code that ends the load (R332). -/
def State.fillRegion (s : State) (i n : Nat) (e : ShardEntry) (b : List Byte) : State × Nat :=
  let x := s.inst i
  let hid := descHidden x.desc
  let voc := descVocab x.desc
  if e.kind = 2 ∧ !embedOk b e.elem hid voc then (s, 0x26)
  else
    match (hbmRegions x.pattern).find? fun r => r.id == 0x8000 + n with
    | none => (s, 0)
    | some r =>
      let split := embedSplit b e.elem hid voc
      let form := if e.kind = 2 then embedChunks b e.elem hid voc else b
      if (e.kind = 2 ∧ r.kind ≠ b2n split) ∨ r.size < form.length then (s, 7)
      else
        let s := if e.kind = 2 ∧ e.elem = 6 then
            s.modInst i fun x => { x with formDigest := mapSet (fun _ => []) x.formDigest n (Config.sha384 form) } else s
        (s.hbmWrite i (mapGet (fun _ => 0) x.regions r.id) form, 0)

/-- With every shard in, a tile record whose source never came ends the load (R246 code 0x07). -/
def State.unknownSource (s : State) (i : Nat) : State :=
  let x := s.inst i
  match x.load with
  | none => s
  | some l =>
    if manCount x.manifest ≤ l.done.length ∧ l.placed.length < (tileRecs x.pattern).length then s.loadFail i 7 0 else s

/-- Keep how the sources of shard n were converted, for the re-check (R338). -/
def State.keepForms (s : State) (i n : Nat) (cs : List Converted) : State :=
  let rs := tileRecs (s.inst i).pattern
  s.modInst i fun x => { x with forms := mapSet (fun _ => []) x.forms n (cs.map fun c =>
    ⟨c.source, c.rows, c.splits, if rs.any fun t => t.source == c.source then [] else c.raw⟩) }

/-- SHARD_VERIFIED (R334): the next shard has been hashed. On a match it is placed; on a mismatch it is fetched again. Its fetch
may end without its bytes (R333). -/
def execShardVerified (i : InstId) (shard : Fetched) (s : State) : Out :=
  let fin := shard.fin
  let shard := shard.bytes
  let x := s.inst i
  match x.load with
  | none => .next s
  | some l =>
    match (List.range (manCount x.manifest)).find? fun n => !l.done.contains n with
    | none => .next s
    | some n =>
      let e := manShard x.manifest n
      let f := s.fetchedModel i (shardAt x.manifest n) e.length
      if x.pattern.isEmpty then .next s
      else if fin ≠ .done then .next (if s.fromCascade i then s else s.fetchLost i (s.rd (K.loadSrc i)) n fin)
      else if !f.2 then .next (f.1.loadFail i 0x28 n)
      else if !shardOk x.manifest n shard then .next (s.shardMiss i n)
      else if e.kind = 1 then
        match convertShard shard e.elem (descTiles x.desc) l.sources with
        | none => .next (s.loadFail i 0x26 n)
        | some cs =>
          let r := (s.keepForms i n cs).placeSources i cs
          if r.2 ≠ 0 then .next (r.1.loadFail i r.2 n)
          else .next (((r.1.shardDone i n fun l => { l with sources := l.sources ++ cs.map (·.source) }).unknownSource i).tryFit i)
      else
        let r := s.fillRegion i n e shard
        if r.2 ≠ 0 then .next (r.1.loadFail i r.2 n)
        else .next (((r.1.shardDone i n id).unknownSource i).tryFit i)

/-- A tile failed its verification twice: the core leaves the map of this model and its panel is mapped again (R334). -/
def State.retireFor (s : State) (i c : Nat) : State :=
  let s := s.modInst i fun x => { x with retired := x.retired ++ [c] }
  let p := (s.inst i).pattern
  let h := s.hbmPlanOf i
  let old := (patPositions p).map fun x => (x, s.posCore (absPanel i p x.1) x.2)
  match s.writeMap i p with
  | none => s.loadFail i 0x29 0
  | some t =>
    if !t.treesOk i p then t.loadFail i 0xB 0
    else
      let moved := old.filter fun x => t.posCore (absPanel i p x.1.1) x.1.2 != x.2
      let t := t.each moved fun t x => t.modCore x.2 fun k =>
        k.clearTiles.unnamed
      let js := moved.flatMap fun x => tilesOf i p (absPanel i p x.1.1) x.1.2
      let t := t.each moved fun t x => t.writeCore i p h x.1.1 x.1.2 (t.posCore (absPanel i p x.1.1) x.1.2)
      let t := ((t.writeNbinds i p).writeRouters i p).vgCounts i p
      let t := t.each js fun t j => t.writeDesc i p h j
      t.modInst i fun x => { x with load := x.load.map fun l => { l with
        programmed := l.programmed.filter fun j => !js.contains j
        failedOnce := l.failedOnce.filter fun j => !js.contains j } }

/-- TILE_PROGRAMMED (R240, R334): a tile of a placed shard has been programmed from its golden copy and verified. -/
def execTileProgrammed (i : InstId) (tile : Nat) (ok : Bool) (s : State) : Out :=
  let x := s.inst i
  match x.load, (tileRecs x.pattern)[tile]? with
  | some l, some t =>
    if !l.placed.contains tile ∨ l.programmed.contains tile then .next s
    else
      let c := s.posCore (absPanel i x.pattern t.panel) t.logical
      if ok then
        let s := s.programOn i x.pattern (s.hbmPlanOf i) c tile
        .next ((s.modInst i fun y => { y with load := some { l with programmed := l.programmed ++ [tile] } }).tryFit i)
      else if l.failedOnce.contains tile then .next (s.retireFor i c)
      else .next (s.modInst i fun y => { y with load := some { l with failedOnce := l.failedOnce ++ [tile] } })
  | _, _ => .next s

end Sys2Proof.Machine
end

