-- ==== Sys2Proof/Machine/Instances.lean ====
section
/-! DEFINITION. Forming, dissolving, unloading, stopping and resuming an instance (R321-R325). -/

namespace Sys2Proof.Machine

/-- Panels of the rectangle whose lowest panel is i, lowest first (R322). -/
def rectangle (i cols rows : Nat) : List Nat :=
  (List.range rows).flatMap fun r => (List.range cols).map fun c => i + c + 4 * r

/-- The rectangle lies in the 4 × 3 grid. -/
def inGrid (i cols rows : Nat) : Bool := decide (i % 4 + cols ≤ 4) && decide (i / 4 + rows ≤ 3)

/-- Panel p belongs to an instance, or to one that is being formed. -/
def State.panelTaken (s : State) (p : Nat) : Bool :=
  (List.range 12).any fun i => decide (p ∈ (s.inst i).panels)

/-- Every HBM stack of the instance is zero. -/
def State.hbmWipe (s : State) (i : Nat) : State :=
  let st := s.stacksOf i
  { s with hbm := s.hbm.filter fun p => !decide (p.1 / 2 ^ 36 ∈ st) }.hbmRenew fun w => decide (w / 2 ^ 33 ∈ st)

/-- The cores of the instance's panels are zeroed (R126). -/
def State.zeroCores (s : State) (i : Nat) : State := s.each (s.panelCores i) fun s c => s.modCore c fun k => k.zeroed s.uptime

/-- Header stages of the cores of the instance's panels (R429). -/
def State.setHeaders (s : State) (i stage : Nat) : State :=
  s.each (s.panelCores i) fun s c => s.modCore c fun k => { k with header := stage }

/-- FORM (R322): the panels' cores are headered on and their zeroing starts, with that of the stacks. -/
def execForm (i : InstId) (s : State) : Out :=
  let cols := s.rd (K.instCols i)
  let rows := s.rd (K.instRows i)
  let ps := rectangle i cols rows
  if s.rd (K.instState i) = 2 ∨ s.instBusy i then .next (s.instResult i 3)
  else if s.rd (K.instState i) ≠ 0 then .next (s.instResult i 1)
  else if !inGrid i cols rows || ps.any s.panelTaken then .next (s.instResult i 2)
  else .next (((s.instResult i 0).modInst i fun x => { x with panels := ps, busy := .forming }).setHeaders i 4)

/-- An UNLOAD or DISSOLVE is refused while a slot is bound or another instance drafts on this one (R323). -/
def State.instNeeded (s : State) (i : Nat) : Bool :=
  !(s.slotsOn i).isEmpty || (List.range 12).any fun j => j != i && s.rd (K.draftInstance j) == i

/-- An unload starts: no step runs, descriptors are invalid, the journal says UNLOADING (R323). -/
def State.startUnload (s : State) (i : Nat) (b : Busy) : State :=
  let s := (s.instResult i 0).writeJournal i 3 (s.blob (K.modelDigest i))
  (s.unplace i).modInst i fun x => { x with busy := b, halted := true, restartDue := false, replacing := [], waitDarn := false }

/-- UNLOAD (R323). -/
def execUnload (i : InstId) (s : State) : Out :=
  let st := s.rd (K.instState i)
  if st = 2 ∨ (s.instBusy i ∧ st ≠ 6) then .next (s.instResult i 3)
  else if st ≠ 3 ∧ st ≠ 4 ∧ st ≠ 5 then .next (s.instResult i 1)
  else if s.instNeeded i then .next (s.instResult i 2)
  else .next (s.startUnload i .unloading)

/-- DISSOLVE (R322, R323): an instance with a model is unloaded first. -/
def execDissolve (i : InstId) (s : State) : Out :=
  let st := s.rd (K.instState i)
  if st = 2 ∨ (s.instBusy i ∧ st ≠ 6) then .next (s.instResult i 3)
  else if st = 0 ∨ st = 6 then .next (s.instResult i 1)
  else if s.instNeeded i then .next (s.instResult i 2)
  else if st = 1 then
    .next (((s.instResult i 0).wr (K.instState i) instDissolving).modInst i fun x => { x with busy := .dissolving false })
  else .next (s.startUnload i (.dissolving true))

/-- The unload's zeroing has ended (R323). -/
def State.unloaded (s : State) (i : Nat) : State :=
  let s := (((s.hbmWipe i).zeroCores i).clearModel i).wr (K.instState i) instUnfitted
  (s.modInst i fun x => { x.bare with retired := [], busy := .none }).writeJournal i 0 []

/-- INSTANCE_ZEROING_DONE (R322, R323): the zeroing under way ends and the instance takes its new state. -/
def execInstanceZeroingDone (i : InstId) (s : State) : Out :=
  match (s.inst i).busy with
  | .none => .next s
  | .forming =>
    let s := (((s.zeroCores i).hbmWipe i).wr (K.instState i) instUnfitted).modInst i fun x => { x with busy := .none }
    .next (s.writeJournal i 0 [])
  | .unloading => .next (s.unloaded i)
  | .dissolving true =>
    .next (((s.unloaded i).wr (K.instState i) instDissolving).modInst i fun x => { x with busy := .dissolving false })
  | .dissolving false =>
    let s := (((s.zeroCores i).hbmWipe i).setHeaders i 0).wr (K.instState i) 0
    .next ((s.writeJournal i 0 []).setInst i {})

/-- STOP (R325): accepted when Fitted; it takes effect at the next step-boundary tack. -/
def execInstanceStop (i : InstId) (s : State) : Out :=
  if s.instBusy i then .next (s.instResult i 3)
  else if s.rd (K.instState i) = 3 then
    .next ((s.instResult i 0).modInst i fun x => { x with stopDue := true, hostStop := true })
  else .next (s.instResult i 1)

/-- RESUME (R325): a Stopped instance runs steps again, once no temperature holds it (R441). -/
def execResume (i : InstId) (s : State) : Out :=
  if s.instBusy i then .next (s.instResult i 3)
  else if s.rd (K.instState i) = 4 then
    let s := (s.instResult i 0).modInst i fun x => { x with hostStop := false }
    .next (if (s.inst i).hot_.isEmpty then s.wr (K.instState i) instFitted else s)
  else .next (s.instResult i 1)

end Sys2Proof.Machine
end

