-- ==== Sys2Proof/Machine/Alteration.lean ====
section
/-! DEFINITION. The alteration store's commands (R341-R343) and the record format (R317). -/

namespace Sys2Proof.Machine

/-- The sections of a record from an offset on, for layers l onward; true when they keep R317 and end the record. -/
def sectionsOk (b : List Byte) (hidden : Nat) : Nat → Nat → Nat → Bool
  | 0, _, o => o == b.length
  | n + 1, l, o =>
    let k := leAt b (o + 4) 2
    let sc := leAt b (o + 2) 2
    let size := 16 + sc + 8 * k
    let entry := o + 16 + sc
    decide (o + size ≤ b.length) && decide (size ≤ 4096) && leAt b o 2 == l && sc * 64 == hidden && decide (k ≤ 128) &&
    (slice b (o + 16) sc).all (fun x => x.toNat % 128 != 127) &&
    (List.range k).all (fun j =>
      decide (leAt b (entry + 8 * j) 4 < hidden) &&
      (Sys2Proof.Machine.decode f32 (leAt b (entry + 8 * j + 4) 4)).isFin &&
      (j == 0 || decide (leAt b (entry + 8 * (j - 1)) 4 < leAt b (entry + 8 * j) 4))) &&
    sectionsOk b hidden n (l + 1) (o + size)

/-- A record may be stored (R317, R342). -/
def alterationOk (b : List Byte) (layers hidden : Nat) : Bool :=
  decide (64 ≤ b.length) && decide (b.length ≤ altBytes) && leAt b 0 2 == 1 && leAt b 2 2 == layers &&
  leAt b 4 4 == b.length && sectionsOk b hidden layers 0 64

/-- The result of an `alt_cmd`; the staged record is emptied (R343). -/
def State.altDone (s : State) (i r : Nat) : State := (s.wr (K.altResult i) r).wrBlob (K.altData i) []

/-- STORE (R342): into an empty slot at once, into a slot that holds a record through the replacement buffer. -/
def execStore (i : InstId) (s : State) : Out :=
  let b := s.blob (K.altData i)
  let v := s.rd (K.altIndex i)
  if !s.ready i then .next (s.altDone i 5)
  else if !alterationOk b (s.rd (K.modelLayers i)) (descHidden (s.inst i).desc) then .next (s.altDone i 2)
  else if !s.altHeld i v then .next ((s.putAlteration i v b).altDone i 0)
  else if (s.inst i).altSwap.isSome then .next (s.altDone i 3)
  else .next ((s.modInst i fun x => { x with altSwap := some (v, b) }).altDone i 1)

/-- DELETE (R342): an unbound slot is zeroed and becomes empty. -/
def execDelete (i : InstId) (s : State) : Out :=
  let v := s.rd (K.altIndex i)
  if !s.ready i then .next (s.altDone i 5)
  else if (List.range 512).any fun n => s.rd (K.slotInstance n) == i.val && s.rd (K.altBinding n) == v then .next (s.altDone i 4)
  else
    let s := s.hbmClear i ((s.inst i).altBase + altBytes * v) altBytes
    .next ((s.modInst i fun x => { x with
      alts := mapSet (fun _ => 0) x.alts v 0
      altSwap := x.altSwap.filter fun y => y.1 != v }).altDone i 0)

end Sys2Proof.Machine
end

