-- ==== Sys2Proof/Machine/EngineEvents.lean ====
section
/-! DEFINITION. What the engines do with their command queues: passes, bolt sets, bolt zeroing and check reads
(R44-R60, R197-R199). -/

namespace Sys2Proof.Machine

/-- The image over which a tile's passes run now: the gusset's copy while the tile is redirected (R61), otherwise the
engine's own lining. -/
def Core.servingImage (k : Core) (e tile : Nat) : Option GCopy × List Byte :=
  match k.copyOf e tile with
  | some g => if g.serving then (some g, g.image) else (none, (k.engOf e).image tile)
  | none => (none, (k.engOf e).image tile)

/-- The metadata errors of the copy over which a tile's passes run now (R41, R58), by word of its slot. -/
def Core.servingErr (k : Core) (e tile : Nat) : Map Nat :=
  match (k.servingImage e tile).1 with
  | some g => g.mdErr
  | none => (k.engOf e).slotErr tile

/-- Configuration of the pass at the head of position p. Its elements are read as the scratchpad stands now: a word
written shortly before the pass reads it gives its new value (R104; log entry 66). -/
def Core.passCfg (k : Core) (p : Nat) (q : Pass) : PassCfg :=
  let e := k.engineAt p
  let x := k.engOf e
  let t := x.td q.tile
  let a4 := bit q.ectl.toNat 11
  let n := tdBlocks t
  let src := k.servingImage e q.tile
  { td := t, img := src.2, tile := q.tile, ectl := q.ectl,
    xs := elements a4 n (k.bytesAt (524288 * p + q.elems) (mmvLen q.ectl n)), scales := q.scales,
    engine := if src.1.isSome then 8 else e, owner := e, seq := x.counter 0 % 2 ^ 16,
    mdBad := mdBlocksOf n 2 (k.servingErr e q.tile), mdFix := mdBlocksOf n 1 (k.servingErr e q.tile) }

/-- Run a pass from its resume block on. -/
def PassCfg.run (f : PassCfg) (bolts : Map Bolt) (seen : List Nat) (from_ : Nat) : PassRun :=
  (windowsFrom (bit f.ectl.toNat 11) (tdBlocks f.td) 64 from_).foldl f.runWindow { bolts := bolts, seen := seen }

/-- Set `exc` on every bolt (R111, a pass over poisoned data). -/
def allExc (b : Map Bolt) : Map Bolt :=
  (List.range 64).foldl (fun b c => mapMod (fun _ => {}) b c fun x => { x with exc := true }) b

/-- Counters, sticky bits and records of a run, put into its engine (R51, R53, R54). -/
def EngState.account (x : EngState) (a : PassRun) : EngState :=
  let x := (((((x.count 1 a.windows).count 2 a.busy).count 3 a.nonzero).count 4 a.exc).count 5 a.ovf).count 6 a.mis
  a.evs.foldl EngState.pushEv (x.flag a.stat)

/-- Bolt values of a position as integers. -/
def boltValues (b : Map Bolt) : List Int := (List.range 64).map fun c => (mapGet (fun _ => {}) b c).value.toInt

/-- ENGINE_PASS (R49, R60): the pass at the head of a position's command queue runs to its end or to a hold. -/
def execEnginePass (c : CoreId) (p : Pos) (s : State) : Out :=
  let k := s.core c
  let e := k.engineAt p
  let st := k.posOf p
  match st.cmdq, (k.engOf e).held with
  | .pass q :: rest, none =>
    let f := k.passCfg p q
    let a := f.run st.bolts st.seen st.resume
    -- the elements of the blocks that this run commits: a held block is read again when the pass resumes
    let n := tdBlocks f.td
    let lo := 524288 * p + q.elems + mmvLen q.ectl st.resume
    let len := mmvLen q.ectl (a.heldAt.getD n) - mmvLen q.ectl st.resume
    let bad := k.poisoned lo len
    let k := k.readFix lo len
    let bolts := if q.poison || !bad.isEmpty then allExc a.bolts else a.bolts
    let before := st.before.getD (boltValues st.bolts)
    let k' := k.setEng e ((k.engOf e).account a)
    let s := match k.inst with
      | some i => s.wr (K.precStatus i.val) (s.rd (K.precStatus i.val) ||| 16 * (a.stat % 4))
      | none => s
    match a.heldAt with
    | some b =>
      let k' := k'.setPos p { st with bolts := bolts, resume := b, seen := a.seen, before := some before }
      .next (((s.setCore c (k'.mismatch s.uptime e q.tile (some b))).noteUncorr c 0 bad).portUse c none q.pc [⟨0, false, lo, len⟩])
    | none =>
      let k' := (k'.setPos p { st with cmdq := rest, bolts := bolts, resume := 0, seen := [], before := none }).setEng e
        ((k'.engOf e).count 0 1)
      .next ((((s.setCore c k').noteUncorr c 0 bad).fcCapture c e q before (boltValues bolts)
        (bolts.any fun x => x.2.exc || x.2.ovf)).portUse c none q.pc [⟨0, false, lo, len⟩])
  | _, _ => .next s

/-- BOLT_SET_POST (R197): the BFLUSH at the head posts the bolts as they stand and clears all 66 bits of each. -/
def execBoltSetPost (c : CoreId) (p : Pos) (s : State) : Out :=
  .next (s.modCore c fun k =>
    let st := k.posOf p
    match st.cmdq, (k.engOf (k.engineAt p)).held with
    | .bflush q id :: rest, none =>
      (k.post q id (.bolts (some ((List.range 64).map fun n => mapGet (fun _ => {}) st.bolts n)))).setPos p
        { st with cmdq := rest, bolts := [] }
    | _, _ => k)

/-- BOLT_ZERO (R198): the BZERO at the head zeroes every bolt with its taints. -/
def execBoltZero (c : CoreId) (p : Pos) (s : State) : Out :=
  .next (s.modCore c fun k =>
    let st := k.posOf p
    match st.cmdq, (k.engOf (k.engineAt p)).held with
    | .bzero :: rest, none => k.setPos p { st with cmdq := rest, bolts := [] }
    | _, _ => k)

/-- Syndromes of a row in a check read (R59). -/
def rowSyn (t : Nat) (img : List Byte) (r : Nat) : Nat × Nat :=
  let w := imgRow t img r
  (unsignedAt 16 (isum w - (imgCheck t img r 0 : Nat)), unsignedAt 16 (wsum w - (imgCheck t img r 1 : Nat)))

/-- Rows of a tile that fail a check read, ascending (R59): its sums differ from the check values, or its block has an
uncorrectable metadata word, which is taken as a mismatch (R58). -/
def failingRows (t : Nat) (img : List Byte) (bad : List Nat) : List Nat :=
  (List.range (64 * tdBlocks t)).filter fun r => rowSyn t img r != (0, 0) || bad.contains (r / 64)

/-- The records of a check read about metadata errors (R58): the first corrected one and the first uncorrectable one. -/
def Core.mdEvents (k : Core) (e tile engine : Nat) (bad fix : List Nat) : List EvRec :=
  let rec_ := fun kind b : Nat => { (k.engOf e).tileRec kind engine e tile (k.posOf (k.positionOf e)).ectl with block := b }
  (fix.min?.map (rec_ 6)).toList ++ (bad.min?.map (rec_ 7)).toList

/-- Run a check read of a tile on engine e: counts, the records, and the hold with its repair (R58, R59). Of a redirected
tile the gusset's copy is read, and the records carry engine 8 (log entry 66). The answer also gives the number of
failing rows. -/
def Core.checkRead (k : Core) (now e tile : Nat) : Core × Nat :=
  let x := k.engOf e
  let t := x.td tile
  let src := k.servingImage e tile
  let engine := if src.1.isSome then 8 else e
  let bad := mdBlocksOf (tdBlocks t) 2 (k.servingErr e tile)
  let fix := mdBlocksOf (tdBlocks t) 1 (k.servingErr e tile)
  let x := (k.mdEvents e tile engine bad fix).foldl EngState.pushEv (x.flag (if bad.isEmpty then 0 else 8))
  match failingRows t src.2 bad with
  | [] => (k.setEng e x, 0)
  | r :: rs =>
    let syn := rowSyn t src.2 r
    let ev : EvRec := { x.tileRec 3 engine e tile (k.posOf (k.positionOf e)).ectl with
      block := r / 64, column := badColumn syn.1 syn.2, detail := syn.1, syn1 := syn.2 }
    let x := ((x.count 6 (rs.length + 1)).flag 4).pushEv ev
    ((k.setEng e x).mismatch now e tile none, rs.length + 1)

/-- CHECK_READ (R59, R199): the CSUM at the head runs its check read; its completion is posted before the repair. -/
def execCheckRead (c : CoreId) (p : Pos) (s : State) : Out :=
  .next (s.modCore c fun k =>
    let st := k.posOf p
    let e := k.engineAt p
    match st.cmdq, (k.engOf e).held with
    | .csum tile q id :: rest, none =>
      let r := (k.setPos p { st with cmdq := rest }).checkRead s.uptime e tile
      r.1.postWord q id (complWord tile 0 5 false r.2)
    | _, _ => k)

/-- The next valid tile from a rolling pointer on. -/
def EngState.nextTile (x : EngState) : Option Nat :=
  ((List.range 512).map fun i => (x.scrubTile + i) % 512).find? fun t => tdValid (x.td t)

/-- The lining of core c cannot be read: its instance is in Retention (R11, R422, R423). -/
def State.liningAsleep (s : State) (k : Core) : Bool :=
  match k.inst with
  | some i => (s.inst i.val).retention
  | none => false

/-- SCRUB_CHECK_READ (R59): an idle engine reads a tile whose check read was deferred (R66), or the tile at its rolling
pointer, except in Retention (R423). R59 lets
scrubbing be enabled at the diagnostics entries, and no table has such an entry: it is always enabled (log entry 66). -/
def execScrubCheckRead (c : CoreId) (e : EngId) (s : State) : Out :=
  .next (s.modCore c fun k =>
    let x := k.engOf e
    if !s.scrubOn || s.liningAsleep k || x.held.isSome || !(k.posOf (k.positionOf e)).cmdq.isEmpty then k
    else
      match x.due, x.nextTile with
      | t :: rest, _ => ((k.setEng e { x with due := rest }).checkRead s.uptime e t).1
      | [], some t => ((k.setEng e { x with scrubTile := (t + 1) % 512 }).checkRead s.uptime e t).1
      | [], none => k)

end Sys2Proof.Machine
end

