-- ==== Sys2Proof/Machine/Recheck.lean ====
section
/-! DEFINITION. The periodic re-check of a resident model (R338-R340): the shards' bytes are formed again from the lining and
from HBM. What cannot be formed again is compared as it was loaded (log entry 79). -/

namespace Sys2Proof.Machine

/-! ## Forming a shard again (R338): the inverse of R331, R93 and R96 -/

/-- Weights and scales of the MX blocks that device blocks hold from block d on, one flag per row block for its split. -/
def mxBack (w sc : List Byte) : Nat → List Bool → List Byte × List Byte
  | _, [] => ([], [])
  | d, false :: t =>
    let r := mxBack w sc (d + 1) t
    (slice w (2048 * d) 2048 ++ r.1, slice sc (64 * d) 64 ++ slice sc (64 * d) 64 ++ r.2)
  | d, true :: t =>
    let r := mxBack w sc (d + 2) t
    (slice w (2048 * d) 1024 ++ slice w (2048 * d + 3072) 1024 ++ r.1, slice sc (64 * d) 128 ++ r.2)

/-- A source's bytes from a tile's image. -/
def SrcForm.bytes (f : SrcForm) (elem : Nat) (img : List Byte) : List Byte :=
  let k := f.rows + (f.splits.filter id).length
  let body :=
    if elem = 4 then
      let r := mxBack (slice img 0 (2048 * k)) (slice img (2048 * k) (64 * k)) 0 f.splits
      r.1 ++ r.2
    else slice img 0 (f.rows * 64 * rowBytes elem + 64 * f.rows)
  leBytes 4 f.source ++ leBytes 1 f.rows ++ leBytes 11 0 ++ body

/-- Tile records that hold a source, by number. -/
def tilesOfSource (p : List Byte) (source : Nat) : List Nat :=
  ((tileRecs p).zipIdx.filter fun t => t.1.source == source).map (·.2)

/-- Tile records that hold a shard's sources. -/
def Inst.shardTiles (x : Inst) (n : Nat) : List Nat :=
  (mapGet (fun _ => []) x.forms n).flatMap fun f => tilesOfSource x.pattern f.source

/-- The bytes of WEIGHTS shard n, formed again from the images of its tiles; once for each of the tiles that hold the same
source. -/
def Inst.shardBytes (x : Inst) (n : Nat) (img : Nat → List Byte) : List (List Byte) :=
  let fs := mapGet (fun _ => []) x.forms n
  let most := (fs.map fun f => (tilesOfSource x.pattern f.source).length).foldl max 1
  (List.range most).map fun v => fs.flatMap fun f =>
    match tilesOfSource x.pattern f.source with
    | [] => f.raw
    | j :: js => f.bytes (manShard x.manifest n).elem (img ((j :: js).getD v j))

/-- Elements and the two scales of 64-channel block m of row r of an MXINT8 table, from its chunks (R332, R96). -/
def embedBack (form : List Byte) (split : Bool) (hidden r m : Nat) : List Byte × Nat × Nat :=
  if split then
    let o := 512 * (r * ceilDiv hidden 128 + m / 2)
    let a := 2 * (m % 2)
    let sa := byteOf form (o + 256 + a)
    let sb := byteOf form (o + 257 + a)
    (slice form (o + 64 * a) 32 ++ slice form (o + 64 * a + (if sa = sb then 32 else 96)) 32, sa + 6, sb + 6)
  else
    let o := 512 * (r * ceilDiv hidden 256 + m / 4)
    let sc := byteOf form (o + 256 + m % 4)
    (slice form (o + 64 * (m % 4)) 64, sc + 6, sc + 6)

/-- The bytes of an MXINT8 table from its chunks. -/
def embedBytes (form : List Byte) (split : Bool) (hidden vocab : Nat) : List Byte :=
  (List.range vocab).flatMap fun r =>
    let bs := (List.range (hidden / 64)).map (embedBack form split hidden r)
    bs.flatMap (·.1) ++ bs.flatMap fun b => leBytes 1 b.2.1 ++ leBytes 1 b.2.2

/-! ## Reading back -/

/-- The image of the tile of record j as a read-back finds it: one that failed for good is read from the gusset copy that serves
it (R340). -/
def State.readTile (s : State) (i j : Nat) : List Byte :=
  let p := (s.inst i).pattern
  match (tileRecs p)[j]? with
  | none => []
  | some t =>
    let x := s.tilePlace i p t
    let k := s.core x.1
    if bit ((k.engOf x.2).td t.tile) 27 then (k.servingImage x.2 t.tile).2 else (k.engOf x.2).image t.tile

/-- The tile of record j is held, shadowed or being re-programmed: a read-back skips it for now (R340). -/
def State.tileBusy (s : State) (i j : Nat) : Bool :=
  let p := (s.inst i).pattern
  match (tileRecs p)[j]? with
  | none => false
  | some t =>
    let x := s.tilePlace i p t
    let e := (s.core x.1).engOf x.2
    let d := e.td t.tile
    e.held.isSome || (e.repairs.any fun r => r.step == .reprogram) || (bit d 26 && !bit d 27)

/-- Read back the tile of record j: a check read (R59, R338). -/
def State.readBack (s : State) (i j : Nat) : State :=
  let p := (s.inst i).pattern
  match (tileRecs p)[j]? with
  | none => s
  | some t =>
    let x := s.tilePlace i p t
    if ((s.core x.1).engOf x.2).held.isSome then s else s.modCore x.1 fun k => (k.checkRead s.uptime x.2 t.tile).1

/-- SHA-384 of shard n, formed again, is the manifest's (R338). -/
def State.shardHolds (s : State) (i n : Nat) : Bool :=
  let x := s.inst i
  let e := manShard x.manifest n
  if e.kind = 1 then (x.shardBytes n (s.readTile i)).all fun b => Config.sha384 b == e.digest
  else
    match (hbmRegions x.pattern).find? fun r => r.id == 0x8000 + n with
    | none => true
    | some r =>
      let form := s.hbmRead i (mapGet (fun _ => 0) x.regions r.id) r.size
      if e.kind = 3 then Config.sha384 (slice form 0 e.length) == e.digest
      else if e.elem = 5 then
        Config.sha384 (embedBytes form (r.kind == 1) (descHidden x.desc) (descVocab x.desc)) == e.digest
      else
        let n' := 512 * descVocab x.desc * ceilDiv (descHidden x.desc) 256
        Config.sha384 (slice form 0 n') == mapGet (fun _ => []) x.formDigest n

/-- The golden image of record j (R37). -/
def State.goldenOf (s : State) (i j : Nat) : List Byte :=
  match (tileRecs (s.inst i).pattern)[j]? with
  | none => []
  | some t => s.getGolden i (s.hbmPlanOf i) j (imageLen t.desc)

/-! ## Rounds -/

/-- Shards that a round hashes: the WEIGHTS shards, and those that fill a model region. -/
def Inst.recheckShards (x : Inst) : List Nat :=
  (List.range (manCount x.manifest)).filter fun n =>
    (manShard x.manifest n).kind == 1 || (hbmRegions x.pattern).any fun r => r.id == 0x8000 + n

/-- RECHECK_ROUND (R338): the interval has passed. A round starts; one still under way is late and goes on. -/
def execRecheckRound (i : InstId) (s : State) : Out :=
  let x := s.inst i
  if !s.ready i ∨ s.rd (K.recheckInterval i) = 0 then .next s
  else
    match x.recheck with
    | some r =>
      if r.late then .next s
      else .next ((s.setInst i { x with recheck := some { r with late := true } }).bump (K.recheckLate i) 32 1)
    | none => .next (s.setInst i { x with recheck := some { left := x.recheckShards, start := s.time } })

/-- A tile that differs from its golden image is taken as a failing check read (R339, R59); on an engine that is held by now
its check read waits for the release (R66). -/
def Core.failTile (k : Core) (now e tile : Nat) : Core :=
  let x := k.engOf e
  if (x.repairOf tile).isSome then k
  else if x.held.isSome then k.setEng e { x with due := x.due ++ [tile] }
  else
    let ev := x.tileRec 3 e e tile (k.posOf (k.positionOf e)).ectl
    (k.setEng e (((x.count 6 1).flag 4).pushEv ev)).mismatch now e tile none

/-- A shard has failed its re-check (R339): with its golden copies good, its tiles that differ from them are repaired; a model
region is written from its shard, fetched again, at the next idle tack. -/
def State.recheckFailed (s : State) (i n : Nat) (refetched : Option (List Byte)) : State :=
  let x := s.inst i
  let e := manShard x.manifest n
  let s := (s.bump (K.recheckMismatch i) 32 1).logMg i 0x0404 1 0 noSlot n 0
  if e.kind = 1 then
    if !(x.shardBytes n (s.goldenOf i)).all fun b => Config.sha384 b == e.digest then s.instFault i 5
    else
      s.each ((x.shardTiles n).filter fun j => s.readTile i j != s.goldenOf i j) fun s j =>
        match (tileRecs x.pattern)[j]? with
        | none => s
        | some t =>
          let y := s.tilePlace i x.pattern t
          s.modCore y.1 fun k => k.failTile s.uptime y.2 t.tile
  else
    let f := s.fetchedModel i (shardAt x.manifest n) e.length
    match refetched with
    | some b =>
      if !f.2 ∨ !shardOk x.manifest n b then f.1.instFault i 5
      else
        let form := if e.kind = 2 then embedChunks b e.elem (descHidden x.desc) (descVocab x.desc) else b
        f.1.change i (.rewrite (mapGet (fun _ => 0) x.regions (0x8000 + n)) form)
    | none => f.1.instFault i 5

/-- RECHECK_SHARD_DONE (R338-R340): the tiles of one shard of the round are read back and its hash ends. Suspended in Retention
and deferred while a re-placement is in flight; a shard with a tile that is skipped stays for the rest of the round.
`refetched` is a failed region's shard, fetched again; none when its source is gone. -/
def execRecheckShardDone (i : InstId) (shard : Nat) (refetched : Option (List Byte)) (s : State) : Out :=
  let x := s.inst i
  match x.recheck with
  | none => .next s
  | some k =>
    if !k.left.contains shard || x.retention || !x.replacing.isEmpty || (x.shardTiles shard).any (s.tileBusy i) then .next s
    else
      let left := k.left.erase shard
      let holds := s.shardHolds i shard
      let s := s.setInst i { x with recheck := if left.isEmpty then none else some { k with left := left } }
      let s := if left.isEmpty then s.wr (K.recheckLast i) s.time else s
      let s := s.each (x.shardTiles shard) fun s j => s.readBack i j
      .next (if holds then s else s.recheckFailed i shard refetched)

end Sys2Proof.Machine
end

