-- ==== Sys2Proof/Machine/Tenants.lean ====
section
/-! DEFINITION. The commands of a tenant slot (R351-R359, R368, R369, R374). -/

namespace Sys2Proof.Machine

/-- ENABLE (R351, R352, R359). Refused under test enable (R509). -/
def execEnable (slot : SlotId) (s : State) : Out :=
  let st := s.rd (K.slotState slot)
  if s.rd K.testEnable = 1 then .next s
  else if st = 0 then .next (s.tryEnable slot)
  else if st = 2 ∨ st = 4 then .next ((s.wr (K.enablePending slot) 1).wr (K.slotCmdResult slot) 0)
  else .next (s.wr (K.slotCmdResult slot) 1)

/-- DISABLE (R351, R355): the drain starts, and at the first tack requests not yet admitted are withdrawn; in Resetting the
teardown under way goes on to Closing; in Draining and Closing a pending ENABLE is dropped. -/
def execDisable (slot : SlotId) (s : State) : Out :=
  let st := s.rd (K.slotState slot)
  if st = 1 then
    let s := ((s.wr (K.slotState slot) 2).wr (K.slotCmdResult slot) 0).modSlot slot fun x => { x with drainStart := s.time }
    .next (s.change (s.rd (K.slotInstance slot)) (.withdraw slot))
  else if st = 3 then .next ((s.wr (K.slotState slot) 4).wr (K.slotCmdResult slot) 0)
  else if st = 2 ∨ st = 4 then .next ((s.wr (K.enablePending slot) 0).wr (K.slotCmdResult slot) 1)
  else .next (s.wr (K.slotCmdResult slot) 1)

/-- SLOT_RESET (R351). -/
def execSlotReset (slot : SlotId) (s : State) : Out := .next (s.resetSlot slot false)

/-- TEARDOWN_SETTLE (R357 step 6, R364): nothing of the slot is left to zero, and every abort completion is posted and
announced. -/
def execTeardownSettle (slot : SlotId) (s : State) : Out :=
  let x := s.slot slot
  if x.teardown = 2 ∧ s.zeroLeft slot = 0 ∧ x.finals.isEmpty ∧ x.unannounced = 0 ∧ !s.granulesLeft slot then .next (s.settleSlot slot) else .next s

/-- ABORT_COMPLETION_DISCARD (R358): completions that could not be posted within 10 ms are lost. -/
def execAbortCompletionDiscard (slot : SlotId) (s : State) : Out :=
  let x := s.slot slot
  if x.teardown = 2 then
    .next ((s.bump (K.completionsLost slot) 32 x.finals.length).setSlot slot { x with finals := [] })
  else .next s

/-- FRP_KEY_WRITE (R353): taken in Disabled, held in Draining and Closing, refused in the other states. -/
def execFrpKeyWrite (slot : SlotId) (key : List Byte) (s : State) : Out :=
  let st := s.rd (K.slotState slot)
  if st = 2 ∨ st = 4 then .next (s.modSlot slot fun x => { x with heldKey := some key })
  else if st = 0 then .next (s.modSlot slot fun x => { x with frpKey := some key })
  else .next s

/-- ALT_BINDING_WRITE (R369): a binding to an empty slot is refused; an accepted one waits for a step-boundary tack. -/
def execAltBindingWrite (slot : SlotId) (value : BitVec 16) (s : State) : Out :=
  let v := value.toNat
  if s.slotRule slot 0xF v ≠ 0 then .next s
  else if s.slotBound slot (s.rd (K.slotInstance slot)) ∧ s.ready (s.rd (K.slotInstance slot)) then
    .next (s.change (s.rd (K.slotInstance slot)) (.altBinding slot v))
  else .next (s.wr (K.altBinding slot) v)

/-- ACCT_CLEAR (R26, R368): the slot's counters start at zero again at the next tack of its instance; at once where that
instance takes no tack, being Absent. -/
def execAcctClear (slot : SlotId) (s : State) : Out :=
  let i := s.rd (K.slotInstance slot)
  .next (if decide (i < 12) && s.rd (K.instState i) != 0 then s.change i (.acctClear slot) else s.clearAcct slot)

end Sys2Proof.Machine
end

