-- ==== Sys2Proof/Machine/Pcie.lean ====
section
/-! DEFINITION. The PCIe ports and functions (R29, R371-R378, R386, R394, R524). -/

namespace Sys2Proof.Machine

/-! ## Links -/

/-- Width that a link trains at: the widest of x16 to x1 that both ends offer (R371). -/
def trainWidth (w : Nat) : Nat :=
  if 16 ≤ w then 16 else if 8 ≤ w then 8 else if 4 ≤ w then 4 else if 2 ≤ w then 2 else w

/-- A port trains with what both ends offer: rate code 4-6, up to `pcie_max_rate` (R371); no link below 16.0 GT/s. -/
def State.trainPort (s : State) (n rate width : Nat) : State :=
  let r := min rate (s.rd (K.pcieMaxRate n))
  let up := decide (4 ≤ r) && decide (1 ≤ width) && !(s.port n).perst
  (s.wr (K.pcieRate n) (if up then r else 0)).wr (K.pcieWidth n) (if up then trainWidth width else 0)

/-- The die chooses the source of PCLKn (R29): REFCLK within ±300 ppm, otherwise its own oscillator under SRIS. -/
def State.chooseClock (s : State) (n : Nat) (ppm : Option Int) : State :=
  let ref := match ppm with
    | some x => decide (-300 ≤ x) && decide (x ≤ 300)
    | none => false
  s.setPort n { s.port n with sris := !ref }

/-- A descriptor's transfer goes through a port. -/
def DDesc.onPort (d : DDesc) (n : Nat) : Bool :=
  d.op != 2 && ((d.op == 0 && d.srcSpace == 2 && winNo d.src / 128 == n) || (d.dstSpace == 2 && winNo d.dst / 128 == n))

/-- Transfers through a port end at once with status 0x07 (R386); how many bytes had moved is a free value. -/
def State.cutPort (s : State) (n : Nat) : State :=
  s.each (s.cores.map (·.1)) fun s c => s.each (List.range 8) fun s ch =>
    match (s.core c).dmaHead ch with
    | some d => if d.onPort n then s.freeStep.dmaCut c ch d (s.free.toNat % (d.length + 1)) 7 else s
    | none => s

/-- Loads that fetch through a port end with code 0x28 (R333, R386). -/
def State.cutLoads (s : State) (n : Nat) : State :=
  s.each (List.range 12) fun s i =>
    let x := s.inst i
    let uses := fun a => (s.aliases i (winNo a)).any fun v => v / 128 == n
    let model := !s.fromCascade i && uses (s.rd (K.loadSrc i))
    let pat := !x.desc.isEmpty && x.pattern.isEmpty && uses (s.rd (K.patternSrc i))
    if x.load.isSome && (model || pat) then s.loadFail i 0x28 0 else s

/-- The link of a port goes down. -/
def State.portDown (s : State) (n : Nat) : State :=
  if s.rd (K.pcieRate n) = 0 then s
  else (((s.cutPort n).cutLoads n).wr (K.pcieRate n) 0).wr (K.pcieWidth n) 0

/-- The link goes down for want of replay or clock: counted, and a port-error message raised (R375, R386). -/
def State.linkDown (s : State) (n : Nat) : State :=
  if s.rd (K.pcieRate n) = 0 then s else ((s.portDown n).bump (K.linkDowns n) 32 1).message (pfOf n) 3

/-! ## Resets of functions (R372-R374) -/

/-- The slot served by a virtual function of a port. -/
def slotOfVf (n k : Nat) : Nat := 64 * n + k

/-- The PCIe state of a virtual function takes its reset values: configuration space, rings, slot windows, MSI-X table,
mailbox. -/
def State.resetVf (s : State) (n k : Nat) : State :=
  let slot := slotOfVf n k
  let s := s.setFn (vfOf slot) {}
  let s := { s with swin := s.swin.filter fun x => x.1 / 16 != slot }
  let s := s.modSlot slot fun x => { x with sq := {}, cq := {}, unannounced := 0 }
  s.modSes (64 + slot) fun x => { x with busy := false, ready := false, request := none, response := [] }

/-- A function-level reset's effect on the slot (R351, R358). -/
def State.flrSlot (s : State) (slot : Nat) : State :=
  if (s.slot slot).teardown ≠ 0 then (s.modSlot slot fun x => { x with flr := true, finals := [] }).resetSlot slot true
  else s.resetSlot slot true

/-- FUNCTION_LEVEL_RESET (R351, R374). -/
def execFunctionLevelReset (slot : SlotId) (s : State) : Out :=
  .next ((s.resetVf (slot / 64) (slot % 64)).flrSlot slot)

/-- All virtual functions of a port are reset; slots whose transport includes the ring take RESET (R372, R373). -/
def State.resetVfs (s : State) (n : Nat) : State :=
  s.each (List.range 64) fun s k =>
    let slot := slotOfVf n k
    let s := s.resetVf n k
    if bit (s.rd (K.transport slot)) 0 then s.flrSlot slot else s

/-- PERST (R373): the port's PCIe controller is reset, with every function of the port; the window table stays. -/
def execPerst (n : PortId) (s : State) : Out :=
  let s := (s.portDown n).setPort n { s.port n with perst := true }
  let s := (s.resetVfs n).setFn (pfOf n) {}
  .next (s.modSes (24 + n) fun x => { x with busy := false, ready := false, request := none, response := [] })

/-- PERST_RELEASE (R29, R371): the port takes its clock and trains. -/
def execPerstRelease (n : PortId) (refclkPpm : Option Int) (rate width : Nat) (s : State) : Out :=
  .next (((s.setPort n { s.port n with perst := false }).chooseClock n refclkPpm).trainPort n rate width)

/-- VF_ENABLE_CLEAR (R372). -/
def execVfEnableClear (n : PortId) (s : State) : Out :=
  .next ((s.setFn (pfOf n) { s.fn (pfOf n) with vfEnable := false }).resetVfs n)

/-- Send the held messages of a function that may go now (R362, R524). -/
def State.sendHeld (s : State) (f : Nat) : State :=
  let x := s.fn f
  let go := (List.range 16).filter fun v => x.msixEn && x.bme && x.pba.getLsbD v && x.unmasked.getLsbD v
  { s.setFn f { x with pba := go.foldl (fun p v => p &&& ~~~(1#16 <<< v)) x.pba } with
    sent := (go.map fun v => (f, v)).reverse ++ s.sent }

/-- BUS_MASTER_ENABLE_SET (R524): host memory may be reached through the function, and its held messages go. -/
def execBusMasterEnableSet (n : PortId) (fn : Fin 65) (s : State) : Out :=
  let f := 65 * n.val + fn.val
  .next ((s.setFn f { s.fn f with bme := true }).sendHeld f)

/-- MSIX_UNMASK (R362, R375): the host has written a vector's table entry, unmasked; the vector's held message goes. -/
def execMsixUnmask (n : PortId) (fn : Fin 65) (vector : MsixVector) (s : State) : Out :=
  let f := 65 * n.val + fn.val
  let x := s.fn f
  .next ((s.setFn f { x with
    unmasked := x.unmasked ||| (1#16 <<< vector.vector.val)
    msix := mapSet (fun _ => 0) x.msix vector.vector.val (vector.addr.toNat + 2 ^ 64 * vector.data.toNat) }).sendHeld f)

/-- PCIE_LINK_DOWN (R386). -/
def execPcieLinkDown (n : PortId) (s : State) : Out := .next (s.linkDown n)

/-- REFCLK_LOSS (R29): a link that runs on REFCLK goes down. -/
def execRefclkLoss (n : PortId) (s : State) : Out := .next (if (s.port n).sris then s else s.linkDown n)

/-- PCIE_RETRAIN (R394): the link goes down and trains again, on the clock the die now chooses. -/
def execPcieRetrain (n : PortId) (refclkPpm : Option Int) (rate width : Nat) (s : State) : Out :=
  .next (((s.portDown n).chooseClock n refclkPpm).trainPort n rate width)

/-- PCIE_LINK_UP (R371): a link that is down finishes training. -/
def execPcieLinkUp (n : PortId) (rate width : Nat) (s : State) : Out :=
  .next (if s.rd (K.pcieRate n) = 0 then s.trainPort n rate width else s)

/-! ## Windows (R376, R377) -/

/-- `in_use` of device window w. -/
def State.windowInUse (s : State) (w : Nat) : Bool :=
  let x := s.window w
  let i := x.owner
  if x.role = 1 then
    (s.inst i).load.isSome && !s.fromCascade i &&
      (winNo (s.rd (K.patternSrc i)) == w ||
        (let m := s.window (winNo (s.rd (K.loadSrc i)))
         m.role == 1 && m.owner == i && m.size == x.size))
  else if x.role = 2 then
    s.rd (K.goldenPlace i) == 1 && winNo (s.rd (K.goldenDst i)) == w && !(s.inst i).pattern.isEmpty
  else if x.role = 3 then winNo (s.rd (K.swapBase i)) == w && !(s.slot i).swap.isEmpty
  else if x.role = 4 then decide (2 ≤ s.rd (K.instState i))
  else false

/-- Put a word of a window-table entry. -/
def State.putWin (s : State) (w k v : Nat) : State := { s with winTab := mapSet (fun _ => 0) s.winTab (4 * w + k) v }

/-- The fields of window w may come into force: in range, the owner right for the role, no overlap on the port. -/
def State.windowOkToSet (s : State) (w : Nat) : Bool :=
  let x := s.window w
  let n := w / 128
  x.base % 4096 == 0 && decide (0 < x.size) && x.size % 4096 == 0 && decide (1 ≤ x.role) && decide (x.role ≤ 5) &&
  (if x.role = 3 then decide (x.owner < 512) && x.owner / 64 == n else decide (x.owner < 12)) &&
  (List.range 128).all fun e =>
    let v := 128 * n + e
    let y := s.window v
    v == w || !y.valid || decide (x.base + x.size ≤ y.base) || decide (y.base + y.size ≤ x.base)

/-- WINDOW_TABLE_WRITE (R376). -/
def execWindowTableWrite (n : PortId) (entry : Fin 128) (word : Fin 4) (value : Word64) (s : State) : Out :=
  let w := 128 * n.val + entry
  let v := value.toNat
  if (s.window w).valid then
    if word.val ≠ 2 ∨ bit v 15 then .next s
    else if s.windowInUse w then .next (s.hostError n)
    else .next (s.putWin w 2 (s.winWord w 2 - 2 ^ 15))
  else if word.val = 0 then .next (s.putWin w 0 v)
  else if word.val = 1 then .next (s.putWin w 1 (bits v 47 0))
  else if word.val = 3 then .next s
  else
    let t := s.putWin w 2 (bits v 12 0)
    if !bit v 15 then .next t
    else if t.windowOkToSet w then .next (t.putWin w 2 (bits v 12 0 + 2 ^ 15))
    else .next (t.hostError n)

/-- SWIN_WRITE (R377). -/
def execSwinWrite (slot : SlotId) (k : Fin 8) (size : Bool) (value : Word64) (s : State) : Out :=
  let v := value.toNat
  let at_ := 16 * slot.val + 2 * k
  let put := fun (s : State) (a x : Nat) => { s with swin := mapSet (fun _ => 0) s.swin a x }
  if bit (s.swinReg slot k false) 0 then
    .next (if size ∨ bit v 0 then s else put s at_ (s.swinReg slot k false - 1))
  else if size then .next (put s (at_ + 1) (bits v 47 0))
  else
    let len := bits (s.swinReg slot k true) 47 0
    let t := put s at_ (4096 * bits v 63 12)
    if !bit v 0 then .next t
    else if 0 < len ∧ len % 4096 = 0 then .next (put s at_ (4096 * bits v 63 12 + 1))
    else .next (t.hostError (slot / 64))

end Sys2Proof.Machine
end

