-- ==== Sys2Proof/Machine/Management.lean ====
section
/-! DEFINITION. The service Ethernet ports (R379, R380, R394), the DTLS sessions (R395), and wall time (R381, R414,
R489). -/

namespace Sys2Proof.Machine

/-! ## Service Ethernet (R379, R380, R394) -/

/-- The link of service port e is up. -/
def State.ethUp (s : State) (e : Nat) : Bool := s.rd (K.ethLink e) == 1

/-- ETH_FRAME_DISCARD (R379): a frame that the port does not handle is counted. -/
def execEthFrameDiscard (e : EthId) (s : State) : Out :=
  .next (if s.ethUp e then s.bump (K.framesDropped e) 64 1 else s)

/-- A number as n bytes in network byte order, which the standards of the service ports set (R9, R379). -/
def netBytes (n v : Nat) : List Byte := (leBytes n v).reverse
/-- A number from bytes in network byte order (R9). -/
def netNat (bs : List Byte) : Nat := leNat bs.reverse

/-- The port's MAC address, 6 bytes in network order. -/
def State.ethMacBytes (s : State) (e : Nat) : List Byte := netBytes 6 (s.rd (K.ethMac e))

/-- The port's IPv6 address, none while it is all zero. -/
def State.ethV6 (s : State) (e : Nat) : Option (List Byte) :=
  let a := slice (s.blob (K.ethIpv6 e)) 0 16
  if a = List.replicate 16 0 then none else some a

/-- The port's IPv4 address, none while it is 0. -/
def State.ethV4 (s : State) (e : Nat) : Option Nat :=
  if s.rd (K.ethIpv4 e) = 0 then none else some (s.rd (K.ethIpv4 e))

/-- ARP (R379): the port answers for its own address with its MAC (log entry 35). -/
def execArp (e : EthId) (target : BitVec 32) (s : State) : Out :=
  .next (if s.ethUp e && s.ethV4 e == some target.toNat then
      s.send (chanEth e) (s.ethMacBytes e ++ netBytes 4 target.toNat) else s)

/-- NEIGHBOR_DISCOVERY (R379): the port answers for its own address with its MAC (log entry 35). -/
def execNeighborDiscovery (e : EthId) (target : List Byte) (s : State) : Out :=
  .next (if s.ethUp e && s.ethV6 e == some target then s.send (chanEth e) (s.ethMacBytes e ++ target) else s)

/-- ECHO (R379): an echo request to the port's own address is answered with its payload (log entry 35). -/
def execEcho (e : EthId) (v6 : Bool) (target payload : List Byte) (s : State) : Out :=
  let mine := if v6 then s.ethV6 e == some target else s.ethV4 e == some (netNat target) && target.length == 4
  .next (if s.ethUp e && mine then s.send (chanEth e) payload else s)

/-- ETH_LINK_CHANGE (R380): associations are not ended by it. -/
def execEthLinkChange (e : EthId) (up : Bool) (s : State) : Out := .next (s.wr (K.ethLink e) (b2n up))

/-- ETH_RETRAIN (R394): the link goes down and trains again, with or without success. -/
def execEthRetrain (e : EthId) (up : Bool) (s : State) : Out := .next ((s.wr (K.ethLink e) 0).wr (K.ethLink e) (b2n up))

/-! ## DTLS sessions (R395) -/

/-- A certificate digest is listed in `client_table`. -/
def State.clientListed (s : State) (cert : List Byte) : Bool :=
  (List.range 8).any fun j =>
    let e := slice (s.blob K.clientTable) (64 * j) 64
    e != List.replicate 64 0 && slice e 0 48 == cert

/-- DTLS_HANDSHAKE (R395). -/
def execDtlsHandshake (segment : Fin 2) (certDigest : List Byte) (s : State) : Out :=
  if s.rd (K.segEnable segment) = 0 then .next s
  else
    match (List.range 16).find? fun n => !(s.ses n).isOpen with
    | some n =>
      if s.clientListed certDigest then
        .next (s.setSes n { isOpen := true, cert := certDigest, segment := segment })
      else .next (s.bump K.sessionsRefused 32 1)
    | none => .next (s.bump K.sessionsRefused 32 1)

/-- DTLS_IDLE_TIMEOUT (R395, R407, R409): the session ends, with its baste set, blob buffer and subscriptions. -/
def execDtlsIdleTimeout (session : Fin 16) (s : State) : Out := .next (s.setSes session {})

/-- A changed `client_table` closes the sessions whose certificate is no longer listed (R413). -/
def State.closeUnlisted (s : State) : State :=
  s.each (List.range 16) fun s n => if (s.ses n).isOpen && !s.clientListed (s.ses n).cert then s.setSes n {} else s

/-- ENDPOINT_ID_ASSIGNED (R413). -/
def execEndpointIdAssigned (eid : Byte) (s : State) : Out := .next (s.wr K.mctpEid eid.toNat)

/-! ## Wall time (R381, R414, R489) -/

/-- Set wall time; the first time is recorded with the counter's value before (R414). Source 0 PTP, 1 cascade. -/
def State.setWall (s : State) (t source : Nat) : State :=
  let before := s.time
  let first := !s.wallTaken
  let s := { s with time := t % 2 ^ 64, wallTaken := true }
  if first then s.logMg noInst 0x0501 0 0 noSlot source before else s

/-- A member other than the master takes its time from the master (R489). -/
def State.timeFromMaster (s : State) : Bool := s.rd K.cascState != 0 && s.rd K.cascRole != 2

/-- PTP gives time t: with the seconds aligned to PPS_IN, only whole seconds change. -/
def State.ptpTime (s : State) (t : Nat) : Nat :=
  if s.rd K.ppsLocked = 1 ∧ s.wallTaken then
    let frac := s.time % 1000000000
    let d : Int := (t : Int) - frac
    (((d + 500000000) / 1000000000) * 1000000000 + frac).toNat
  else t

/-- The segment that supplies time: the better-ranked grandmaster, the present one when both rank equal. -/
def State.bestSegment (s : State) : Option Nat :=
  let r := fun n => mapGet (fun _ => 0) s.ptp n
  if r 0 = 0 then (if r 1 = 0 then none else some 1)
  else if r 1 = 0 then some 0
  else if r 0 = r 1 then some (if s.rd K.ptpSegment = 1 then 1 else 0)
  else some (if r 0 < r 1 then 0 else 1)

/-- PTP_MESSAGE (R381): the clock of a segment hears its grandmaster; the better one supplies time. -/
def execPtpMessage (segment : Fin 2) (m : PtpMsg) (s : State) : Out :=
  if m.domain ≠ s.rd K.ptpDomain ∨ s.rd (K.segEnable segment) = 0 then .next s
  else
    let s := { s with ptp := mapSet (fun _ => 0) s.ptp segment.val (m.rank + 1) }
    if s.bestSegment = some segment.val then
      let s := (s.wr K.ptpSegment segment).wrI K.ptpOffset 64 m.offset
      .next (if s.timeFromMaster then s.wr K.ptpState 1 else (s.wr K.ptpState 2).setWall (s.ptpTime m.time) 0)
    else .next s

/-- PTP_SEGMENT_SWITCH (R381): the supplying segment is lost; time comes from the other one, if it has a grandmaster. -/
def execPtpSegmentSwitch (s : State) : Out :=
  let g := s.rd K.ptpSegment
  if 1 < g then .next s
  else
    let s := { s with ptp := mapSet (fun _ => 0) s.ptp g 0 }
    match s.bestSegment with
    | some n => .next (s.wr K.ptpSegment n)
    | none => .next ((s.wr K.ptpSegment 0xFF).wr K.ptpState 0)

/-- PPS_IN_EDGE (R381): the seconds of wall time align to the edge. -/
def execPpsInEdge (s : State) : Out :=
  if !s.wallTaken || s.timeFromMaster then .next s
  else .next ({ s with time := (s.time + 500000000) / 1000000000 * 1000000000 }.wr K.ppsLocked 1)

end Sys2Proof.Machine
end

