-- ==== Sys2Proof/Machine/Heat.lean ====
section
/-! DEFINITION. What temperature does to an instance (R441), and the HBM stacks (R382-R385). -/

namespace Sys2Proof.Machine

/-! ## Stops by temperature (R441) -/

/-- A region, or 0x100 + stack, holds instance i: it stops at its next tack. -/
def State.heatHold (s : State) (i cause : Nat) : State :=
  if cause ∈ (s.inst i).hot_ then s
  else (s.modInst i fun x => { x with hot_ := x.hot_ ++ [cause] }).logMg i 0x1005 2 3 noSlot i cause

/-- A cause of the hold ends; with none left, and no STOP taken, the instance runs again. -/
def State.heatRelease (s : State) (i : Nat) (past : Nat → Bool) : State :=
  let x := s.inst i
  let left := x.hot_.filter fun c => !past c
  if left = x.hot_ then s
  else
    let s := s.setInst i { x with hot_ := left }
    if left.isEmpty && !x.hostStop && s.rd (K.instState i) == 4 then s.wr (K.instState i) instFitted else s

/-- Regions of an instance. -/
def State.regionsOf (s : State) (i : Nat) : List Nat :=
  (s.inst i).panels.flatMap fun p => (List.range 25).map fun j => 25 * p + j

/-- Every region of the instance is below `t_throttle`. -/
def State.regionsCool (s : State) (i : Nat) : Bool :=
  (s.regionsOf i).all fun r => decide (s.rdI (K.temp r) 32 < s.rdI K.tThrottle 32)

/-! ## HBM stacks (R382-R385) -/

/-- What a read of a word finds, as the memories' error maps count it: 1 one wrong bit, 2 an error beyond correction. -/
def eccNo : Ecc → Nat
  | .clean => 0
  | .single => 1
  | .uncorrectable => 2

/-- HBM_PATROL_SCRUB (R382): a single-bit error, found now or standing in the word, is corrected, written back and counted; a
word beyond correction is poisoned and counted. -/
def execHbmPatrolScrub (st : StackId) (word : Nat) (found : Ecc) (s : State) : Out :=
  if 2 ^ 33 ≤ word then .next s
  else
    let a := 2 ^ 33 * st.val + word
    let e := max (eccNo found) (mapGet (fun _ => 0) s.hbmErr a)
    let t := { s with hbmErr := mapSet (fun _ => 0) s.hbmErr a 0 }
    if e = 0 then .next s
    else if e = 1 then .next (t.bump (K.eccCorrected st) 64 1)
    else .next ({ t with hbmPoison := mapSet (fun _ => false) s.hbmPoison a true }.bump (K.eccUncorrectable st) 64 1)

/-- HBM_TEMP_READ (R383, R441): the reading, refresh doubling above 85 °C, the bandwidth limit and the stop. -/
def execHbmTempRead (st : StackId) (temp : Int) (s : State) : Out :=
  let s := s.wrI (K.hbmTemp st) 32 temp
  let hot := decide (s.rdI K.hbmTThrottle 32 < temp)
  let x := s.stack st
  let s := s.setStack st { x with refresh2 := decide (85000 < temp), limited := hot }
  let s := if hot && !x.limited then s.logMg noInst 0x1009 1 0 noSlot st (unsignedAt 32 temp) else s
  match s.instOfPanel (stackPanel st) with
  | none => .next s
  | some i =>
    if s.rdI K.hbmTStop 32 < temp then .next (s.heatHold i (0x100 + st))
    else if temp < s.rdI K.hbmTThrottle 32 then .next (s.heatRelease i fun c => c == 0x100 + st.val)
    else .next s

/-- RETRAIN (R385): the stack waits for its instance's next step-boundary or idle tack; a stack of no instance retrains at
once. -/
def execRetrain (st : StackId) (s : State) : Out :=
  let x := s.stack st
  if x.retrain ≠ 0 ∨ s.rd (K.hbmState st) ≠ 2 then .next s
  else
    match s.instOfPanel (stackPanel st) with
    | some i => .next ((s.setStack st { x with retrain := 1 }).change i (.retrain st))
    | none => .next ((s.setStack st { x with retrain := 2 }).wr (K.hbmState st) 4)

/-- HBM_RETRAIN_DONE (R385): the contents are kept, and the instance's next tack releases its step. -/
def execHbmRetrainDone (st : StackId) (s : State) : Out :=
  let x := s.stack st
  if x.retrain = 2 then .next ((s.setStack st { x with retrain := 0 }).wr (K.hbmState st) 2) else .next s

end Sys2Proof.Machine
end

