-- ==== Sys2Proof/Machine/Sideband.lean ====
section
/-! DEFINITION. The sideband pins (R387-R390, R441), the TAP (R391, R392) and debug access (R16, R509), SPDM (R507,
R508). -/

namespace Sys2Proof.Machine

/-! ## Multipurpose pins (R388, R389) -/

/-- `ext_alert` follows the pins' alerts; a change of a pin is logged (R441). -/
def State.pinAlert (s : State) (p : Nat) (on : Bool) : State :=
  if (s.pin p).alert = on then s
  else
    let s := s.setPin p { s.pin p with alert := on }
    let any := (List.range 8).any fun q => (s.pin q).alert
    (s.wr K.extAlert (b2n any)).logMg noInst 0x1008 1 0 noSlot p (b2n on)

/-- A switch of pin p toward a function starts: the old function detaches (R389 step 1). -/
def State.pinSwitch (s : State) (p func : Nat) : State :=
  let s := s.pinAlert p false
  (s.setPin p { s.pin p with want := func, held := none }).wr (K.sbState p) 1

/-- A valid new function for pin p (R389): a switch starts, or the value is held while one runs. -/
def State.pinFunc (s : State) (p func : Nat) : State :=
  let s := s.wr (K.sbFunc p) func
  if s.rd (K.sbState p) ≠ 0 then s.setPin p { s.pin p with held := some func }
  else if (s.pin p).func = func then s
  else s.pinSwitch p func

/-- SB_FUNC_WRITE (R388-R390). -/
def execSbFuncWrite (p : PinId) (func : BitVec 8) (s : State) : Out :=
  let v := func.toNat
  .next (if 7 < v ∨ s.sbRule p 1 v ≠ 0 then s else s.pinFunc p v)

/-- SB_DETACH_END (R389 step 2). -/
def execSbDetachEnd (p : PinId) (s : State) : Out :=
  .next (if s.rd (K.sbState p) = 1 then s.wr (K.sbState p) 2 else s)

/-- SB_ATTACH (R389 step 3): the new function is in force; a held value that differs starts a new switch. -/
def execSbAttach (p : PinId) (s : State) : Out :=
  if s.rd (K.sbState p) ≠ 2 then .next s
  else
    let x := s.pin p
    let s := (s.setPin p { x with func := x.want, held := none }).wr (K.sbState p) 0
    match x.held with
    | some f => .next (if f = x.want then s else s.pinSwitch p f)
    | none => .next s

/-- THERMAL_ALERT_INPUT (R388, R441): taken while the pin's attached function is the alert input. -/
def execThermalAlertInput (p : PinId) (s : State) : Out :=
  .next (if (s.pin p).func = 7 ∧ s.rd (K.sbState p) = 0 then s.pinAlert p true else s)

/-- THERMAL_ALERT_RELEASED (R441). -/
def execThermalAlertReleased (p : PinId) (s : State) : Out := .next (s.pinAlert p false)

/-- PWR_EN_CHANGE (R425): the level that the pin has held for 1 ms. -/
def execPwrEnChange (level : Bool) (s : State) : Out := .next { s with power := { s.power with pwrEn := level, source := if level = s.power.pwrEn then s.power.source else 0 } }

/-- TACK_IO_EDGE (R491): a member that is not the master takes the time of the edge. -/
def execTackIoEdge (s : State) : Out := .next (if s.timeFromMaster then s.wr K.tackIoTime s.time else s)

/-! ## TAP (R391, R392) -/

/-- Load an instruction into the TAP. -/
def State.tapLoad (s : State) (ir : TapIr) : State := { s with tap := { s.tap with ir := ir } }

/-- Load an instruction that needs test enable; without it the TAP loads BYPASS. -/
def State.tapTest (s : State) (ir : TapIr) : State := s.tapLoad (if s.rd K.testEnable = 1 then ir else .bypass)

/-- BYPASS (R392). -/
def execBypass (s : State) : Out := .next (s.tapLoad .bypass)
/-- IDCODE (R392): the identity entry's value is shifted out. -/
def execIdcode (s : State) : Out := .next ((s.tapLoad .idcode).send chanTap (leBytes 4 (s.rd K.idcode)))
/-- SAMPLE (R392). -/
def execSample (s : State) : Out := .next (s.tapLoad .sample)
/-- PRELOAD (R392): the boundary register is written. -/
def execPreload (boundary : List Bool) (s : State) : Out := .next { s with tap := { ir := .preload, boundary := boundary } }
/-- EXTEST (R392). -/
def execExtest (s : State) : Out := .next (s.tapTest .extest)
/-- EXTEST_PULSE (R392). -/
def execExtestPulse (s : State) : Out := .next (s.tapTest .extestPulse)
/-- EXTEST_TRAIN (R392). -/
def execExtestTrain (s : State) : Out := .next (s.tapTest .extestTrain)
/-- CLAMP (R392). -/
def execClamp (s : State) : Out := .next (s.tapTest .clamp)
/-- TRST (R391): the TAP returns to its reset state, with IDCODE loaded. -/
def execTrst (s : State) : Out := .next (s.tapLoad .idcode)

/-- A sequencer control port's view of its core: how it runs, its trap, fence and pace, its program counter (log entry
36). -/
def Core.debugBytes (k : Core) : List Byte :=
  let run := match k.run with
    | .idle => 0 | .running => 1 | .halted => 2 | .atTack => 3 | .trapped => 4 | .stopped => 5
  leBytes 1 run ++ leBytes 1 k.trapCode ++ leBytes 1 (b2n k.fenced) ++ leBytes 1 (b2n k.pace) ++ leBytes 2 k.pc

/-- DEBUG_ACCESS (R16, R392, R509): start, stop, fence, pace or read a core through its control port. -/
def execDebugAccess (c : CoreId) (op : DebugOp) (s : State) : Out :=
  if s.rd K.testEnable ≠ 1 then .next (s.tapLoad .bypass)
  else
    match op with
    | .start => .next (s.modCore c fun k => if k.run = .idle ∨ k.run = .stopped then { k with run := .running } else k)
    | .stop => .next (s.modCore c fun k => if k.run = .running then { k with run := .stopped } else k)
    | .fence => .next (s.modCore c fun k => { k with fenced := true })
    | .pace => .next (s.modCore c fun k => { k with pace := true })
    | .read => .next (s.send chanTap (s.core c).debugBytes)

/-! ## SPDM (R507, R508); message codes are those of SPDM 1.3 (log entry 37) -/

/-- Send an SPDM response of a port: its code, then its content. -/
def State.spdm (s : State) (n code : Nat) (content : List Byte) : State :=
  s.send (chanSpdm n) (leBytes 1 code ++ content)

/-- An SPDM error response. -/
def State.spdmError (s : State) (n : Nat) : State := s.spdm n 0x7F (leBytes 1 1)

/-- GET_VERSION (R507). -/
def execGetVersion (n : PortId) (s : State) : Out := .next (s.spdm n 0x04 (leBytes 1 0x13))
/-- GET_CAPABILITIES (R507). -/
def execGetCapabilities (n : PortId) (s : State) : Out := .next (s.spdm n 0x61 [])

/-- NEGOTIATE_ALGORITHMS (R507): ECDSA P-384 and SHA-384 are the only ones. -/
def execNegotiateAlgorithms (n : PortId) (asym hash : List Nat) (s : State) : Out :=
  let pick := fun (l : List Nat) (a : Nat) => if l.contains a then a else 0
  .next (s.spdm n 0x63 (leBytes 4 (pick asym 0x80) ++ leBytes 4 (pick hash 2)))

/-- GET_DIGESTS (R507): the digest of slot 0's chain. -/
def execGetDigests (n : PortId) (s : State) : Out := .next (s.spdm n 0x01 (Config.sha384 (s.blob K.idCertChain)))

/-- GET_CERTIFICATE (R507): part of slot 0's chain; no other slot exists. -/
def execGetCertificate (n : PortId) (certSlot offset length : Nat) (s : State) : Out :=
  .next (if certSlot = 0 then s.spdm n 0x02 (((s.blob K.idCertChain).drop offset).take length) else s.spdmError n)

/-- CHALLENGE (R507): the nonce and the chain's digest, signed with the identity key. -/
def execChallenge (n : PortId) (certSlot : Nat) (nonce : List Byte) (s : State) : Out :=
  let m := Config.sha384 (s.blob K.idCertChain) ++ nonce
  .next (if certSlot = 0 then s.spdm n 0x03 (m ++ Config.identitySign m) else s.spdmError n)

/-- Header bytes of a bank. -/
def State.bankNo (s : State) (n : Nat) : Bank := if n = 0 then s.sec.bank0 else s.sec.bank1
/-- Bytes of the key slot in force. -/
def State.keyInForce (s : State) : List Byte := if s.rd K.keySlot = 0 then s.sec.slotA else s.sec.slotB
/-- `fw_image_digest` of a header (R500). -/
def headerDigest (h : List Byte) : List Byte := Config.sha384 (slice h 0 49344)

/-- A measurement block's digest (R508); 48 zero bytes for an absent subject, none for no block. -/
def State.measurement (s : State) (x : Nat) : Option (List Byte) :=
  let h := (s.bankNo (s.rd K.fwActiveBank)).header
  let none48 := List.replicate 48 (0 : Byte)
  if x = 1 then some (Config.sha384 (Config.factoryBlob 0))
  else if x = 2 then some (if h.isEmpty then none48 else headerDigest h)
  else if x = 3 then some (if h.isEmpty then none48 else Config.sha384 (slice h 64 128 ++ leBytes 1 (s.rd K.fwPending)))
  else if x = 4 then some (Config.sha384 (slice s.keyInForce 0 2304))
  else if x = 5 then some (Config.sha384 (leBytes 1 (s.rd K.svnCounter) ++ leBytes 1 (s.rd K.testEnable)))
  else if 16 ≤ x ∧ x < 28 then some (slice (s.blob (K.modelDigest (x - 16))) 0 48)
  else none

/-- Indices of the measurement blocks (R508). -/
def measurementIndices : List Nat := [1, 2, 3, 4, 5] ++ (List.range 12).map fun i => 16 + i

/-- GET_MEASUREMENTS (R508): one block, all of them (0xFF), or their number (0), signed when a nonce comes with it. -/
def execGetMeasurements (n : PortId) (block : Nat) (nonce : List Byte) (s : State) : Out :=
  let sign := fun (m : List Byte) => if nonce.isEmpty then m else m ++ nonce ++ Config.identitySign (m ++ nonce)
  let rec_ := fun (x : Nat) => leBytes 1 x ++ (s.measurement x).getD []
  if block = 0 then .next (s.spdm n 0x60 (sign (leBytes 1 measurementIndices.length)))
  else if block = 0xFF then .next (s.spdm n 0x60 (sign (measurementIndices.flatMap rec_)))
  else if (s.measurement block).isSome then .next (s.spdm n 0x60 (sign (rec_ block)))
  else .next (s.spdmError n)

end Sys2Proof.Machine
end

