-- ==== Sys2Proof/Machine/Restart.lean ====
section
/-! DEFINITION. The muslin run's results (R454, R456, R457, R470), and the compute reset and instance restart (R345, R346,
R360, R460-R464). -/

namespace Sys2Proof.Machine

/-! ## The muslin run -/

/-- Set `gusset_mode` of a core and the position its gusset takes; every tile it held for another engine is dropped. -/
def Core.setGusset (k : Core) (mode position : Nat) : Core :=
  let x := k.engOf 8
  k.setEng 8 { x with stat := x.stat - 64 * bits x.stat 7 6 + 64 * mode, replaces := position, copies := [] }

/-- Retire a granule of a core, with its event (R454). -/
def State.retireGranule (s : State) (c g : Nat) : State :=
  if s.granuleGone c g then s
  else
    let b := leAt (s.blob (K.retired c)) (g / 8) 1
    let s := s.blobPut (K.retired c) (g / 8) [BitVec.ofNat 8 (b + 2 ^ (g % 8))]
    s.logMg ((s.instOfPanel (panelOf c)).getD noInst) 0x200A 1 0 noSlot c g

/-- Granules of which two different words have returned uncorrectable errors (R454). -/
def Core.worn (k : Core) : List Nat :=
  ((k.badWords.map fun w => w / 512).filter fun g => decide (2 ≤ (k.badWords.filter fun w => w / 512 == g).length)).eraseDups

/-- The engines of a core that failed: those of the muslin run, those whose lining could not be repaired, and those whose
muslin area no longer holds its factory content (R453, R456, R457). -/
def badEngines (k : Core) (r : MuslinResult) (lining : List (CoreId × EngId)) : List Nat :=
  (List.range 9).filter fun e => r.engines.getLsbD e || (lining.any fun x => x.1 == r.core && x.2.val == e) ||
    !(k.engOf e).muslin.isEmpty

/-- A core's result takes effect (R457). -/
def State.muslinCore (s : State) (lining : List (CoreId × EngId)) (r : MuslinResult) : State :=
  let c := r.core.val
  let bad := badEngines (s.core c) r lining
  let own := bad.filter fun e => decide (e < 8)
  let fails := r.unit || decide (2 ≤ bad.length)
  let inst := (s.instOfPanel (panelOf c)).getD noInst
  let s := (s.wr (K.engineGood c) (511 - (bad.map fun e => 2 ^ e).sum)).wr (K.spSparesUsed c) r.sparesUsed
  let s := s.each (r.granules ++ (s.core c).worn) fun s g => s.retireGranule c g
  let s := { s with muslinFailed := mapSet (fun _ => false) s.muslinFailed c fails }
  let s := s.modCore c fun k =>
    k.setGusset (if fails then 0 else if bad.contains 8 then 3 else if own.isEmpty then 0 else 2)
      (if fails then 0 else own.headD 0)
  if fails then
    let s := if s.marked c then s else (s.wr (K.failCause c) 5).wr (K.failTime c) s.time
    s.logMg inst 0x2006 1 0 noSlot c 5
  else
    let s := if s.marked c then s else s.wr (K.failCause c) 0
    match own with
    | e :: _ => s.logMg inst 0x2005 1 0 noSlot c e
    | [] => s

/-- The result of a core; one that the run does not list has passed everything. -/
def resultFor (rs : List MuslinResult) (c : CoreId) : MuslinResult :=
  (rs.find? fun r => r.core == c).getD ⟨c, 0, false, [], [], 0⟩

/-- The muslin run on a list of cores. -/
def State.muslin (s : State) (rs : List MuslinResult) (lining : List (CoreId × EngId)) (cs : List Nat) : State :=
  s.each cs fun s c => if h : c < 1200 then s.muslinCore lining (resultFor rs ⟨c, h⟩) else s

/-- Cores whose mark and retired granules were asked to go lose them now (R470, R474). -/
def State.clearUnretired (s : State) (cs : List Nat) : State :=
  let now := s.unretire.filter cs.contains
  let s := { s with unretire := s.unretire.filter fun c => !cs.contains c }
  s.each now fun s c =>
    let s := { s with marks := mapSet (fun _ => false) s.marks c false }
    ((s.wrBlob (K.retired c) (blobDefault (K.retired c))).wr (K.failCause c) 0).modCore c fun k =>
      { k with fenced := false, badWords := [] }

/-! ## Quiesce and zero (R345, R360, R460 to step C2 of R461) -/

/-- `load_status` of a load that a reset ended. -/
def State.loadCut (s : State) (i : Nat) : State := s.wr (K.loadStatus i) (pack [(6, 0), (0x2B, 8)])

/-- The golden copies and the alteration store that a load has placed are zeroed (R345). -/
def State.zeroPlaced (s : State) (i : Nat) : State :=
  let p := (s.inst i).pattern
  if p = [] then s
  else
    let h := s.hbmPlanOf i
    let s := (tileRecs p).zipIdx.foldl (fun s t => (s.putGolden i h t.2 (List.replicate (imageLen t.1.desc) 0)).1) s
    s.hbmClear i (s.inst i).altBase (4097 * altBytes)

/-- What a reset does to the work of instance i: draining slots close, its requests end with status 0x0C, a load or an
unload under way ends. -/
def State.quiesce (s : State) (i : Nat) : State :=
  let s := s.each (s.slotsOn i) fun s n => if s.rd (K.slotState n) = 2 ∧ (s.slot n).teardown = 0 then s.endDrain n else s
  let st := s.rd (K.instState i)
  if st = 2 then (s.zeroPlaced i).loadFail i 0x2B 0
  else
    match (s.inst i).busy with
    | .forming => s.setInst i {}
    | .unloading => (s.unloaded i).loadCut i
    | .dissolving true => (s.unloaded i).loadCut i
    | .dissolving false => (s.wr (K.instState i) instUnfitted).modInst i fun x => { x.bare with busy := .none }
    | .none => if s.ready i ∨ st = 5 then s.endInstance i 0x0C else s

/-- Everything of R126 is zeroed on the cores, and nothing is left in their routers' queues. -/
def State.zeroPanels (s : State) (ps : List Nat) : State :=
  let cs := ps.flatMap coresOfPanel
  let s := s.each cs fun s c => s.modCore c fun k => k.zeroed s.uptime
  s.each cs fun s r => s.modRouter r fun x => { x with inq := [], red := [], tackIn := [] }

/-- Both routers of a link lie in the panels. -/
def linkInside (ps : List Nat) (l : Nat) : Bool :=
  let e := linkEnds l
  ps.contains (panelOf e.1) && ps.contains (panelOf e.2.1)

/-- Step C3: darn sets are cleared, failed routers and links tested again; what a test finds is a free value. -/
def State.testFabric (s : State) (ps : List Nat) : State :=
  let cs := ps.flatMap coresOfPanel
  let s := s.each cs fun s r =>
    let s := s.modRouter r fun x => { x with darn := [] }
    if (s.router r).failed then (s.modRouter r fun x => { x with failed := s.free.toNat % 2 == 1 }).freeStep else s
  let s := s.each ((List.range 2330).filter fun l => s.linkByte l != 0 && linkInside ps l) fun s l =>
    let e := linkEnds l
    if (s.router e.1).failed || (s.router e.2.1).failed then s.setLinkByte l 1
    else (s.setLinkByte l (s.free.toNat % 2)).freeStep
  let s := s.each ((List.range 2330).filter (linkInside ps)) fun s l => s.each [4660 + 2 * l, 4660 + 2 * l + 1] fun s d =>
    if (s.link d).dead then (s.setLink d { dead := s.free.toNat % 2 == 1 }).freeStep else s.setLink d {}
  s.each ((List.range 2330).filter fun l => linkInside ps l && s.linkByte l == 0) fun s l =>
    (s.setLink (2 * l) {}).setLink (2 * l + 1) {}

/-! ## Place, program, fit (R463) -/

/-- A tile of a core whose lining a reset must program again whatever its place (R66). -/
def Core.unsettled (k : Core) (e tile : Nat) : Bool :=
  (((k.engOf e).repairOf tile).isSome || (k.copyOf e tile).isSome) || bit ((k.engOf e).td tile) 27

/-- Records of the pattern in force to program again, by number; and the place each has now. -/
def State.unsettledTiles (s : State) (i : Nat) : List Nat :=
  let p := (s.inst i).pattern
  ((tileRecs p).zipIdx.filter fun t =>
    let x := s.tilePlace i p t.1
    (s.core x.1).unsettled x.2 t.1.tile).map (·.2)

/-- Records whose check read failed in the run (R457). -/
def failedReads (s : State) (i : Nat) (rs : List MuslinResult) : List Nat :=
  let p := (s.inst i).pattern
  ((tileRecs p).zipIdx.filter fun t =>
    let x := s.tilePlace i p t.1
    rs.any fun r => r.core.val == x.1 && r.tiles.contains (x.2, t.1.tile)).map (·.2)

/-- Map every panel again under R247; positions that find no core take the spare nearest their home (R463). -/
def State.mapAll (s : State) (i : Nat) (p : List Byte) : Option State :=
  let s := s.each (patPositions p) fun s x => s.setPos (absPanel i p x.1) x.2 0xFFFF
  let maps := (List.range (patPanels p)).map fun r => (r, s.mapPanel i p r)
  let s := s.each maps fun s m => s.each m.2.zipIdx fun s x =>
    match x.1 with
    | some l => s.setPos (absPanel i p m.1) x.2 (100 * absPanel i p m.1 + l)
    | none => s
  let open_ := maps.flatMap fun m => (m.2.zipIdx.filter fun x => x.1.isNone).map fun x => (m.1, x.2)
  let taken := maps.flatMap fun m => m.2.filterMap fun x => x.map fun l => 100 * absPanel i p m.1 + l
  (open_.foldl (fun o x => o.bind fun (y : State × List Nat) =>
    let n := absPanel i p x.1
    match y.1.spareFor i p n x.2 (100 * n + gridHome p x.1 x.2) y.2 with
    | some c => some (y.1.setPos n x.2 c, c :: y.2)
    | none => none) (some (s, taken))).map (·.1)

/-- Keep the map but for positions whose core is no longer usable; those take spares (R252, R463). -/
def State.mapKept (s : State) (i : Nat) (p : List Byte) : Option State :=
  let lost := (patPositions p).filter fun x =>
    !s.fits i (allocOf p (gridBlock p x.1 x.2)) (s.posCore (absPanel i p x.1) x.2)
  let want := sortBy (fun (a b : Replace) => lexLt [a.panel, a.logical] [b.panel, b.logical])
    (lost.map fun x => ⟨absPanel i p x.1, x.2, none⟩)
  (s.chooseSpares i p [] want).map fun rs => s.each rs fun s r =>
    match r.spare with
    | none => s
    | some c =>
      let s := s.modCore (s.posCore r.panel r.logical) fun k =>
        { k with addrValid := false, inst := none, header := if k.fenced then 0 else k.header }
      ((s.setPos r.panel r.logical c).bump (K.vgGeneration r.panel) 32 1).logMg i 0x2007 0 0 noSlot (256 * r.panel + r.logical) c

/-- Regions of the pattern in HBM are zeroed or written; model regions keep their contents (R460, R463). -/
def State.rewriteRegions (s : State) (i : Nat) (p : List Byte) (h : HbmPlan) : State :=
  s.each ((hbmRegions p).filter fun r => decide (r.id < 0x8000)) fun s r =>
    let a := ((h.regions.find? fun x => x.1 == r.id).map (·.2)).getD 0
    let s := s.hbmClear i a r.size
    if r.kind = 1 then
      s.hbmWrite i a (slice (s.patchBytes i p h 2 r.id
        (slice p ((patSec p 0xA).1 + r.data) r.dataLen ++ List.replicate (r.size - r.dataLen) 0)) 0 r.size)
    else s

/-- The instance with a model in place and nothing of its work (R460). -/
def Inst.afresh (x : Inst) : Inst :=
  { panels := x.panels, recipes := x.recipes, poolBase := x.poolBase, altBase := x.altBase, queueBase := x.queueBase,
    regions := x.regions, pages := x.pages, alts := x.alts, altSwap := x.altSwap, pattern := x.pattern,
    manifest := x.manifest, desc := x.desc, forms := x.forms, formDigest := x.formDigest, retired := x.retired, snapshot := x.snapshot, changes := x.changes,
    nextOrder := x.nextOrder, hot_ := x.hot_ }

/-- Whether a darn set has to be computed for links that still fail; the instance then waits for it. -/
def State.needsDarn (s : State) (i : Nat) : Bool :=
  (List.range 2330).any fun l => s.linkByte l == 1 && linkInside (s.inst i).panels l

/-- Steps C5 to C7 for instance i, with a complete journal (R461, R463): placed, programmed, Fitted; without a placement it
comes up Faulted with code 0x02. A re-check round that the reset abandons begins anew (R340). `before` gives every record's former core and engine. -/
def State.refit (s : State) (i : Nat) (remap : Bool) (before : List (Nat × Nat)) (redo : List Nat) : State :=
  let p := (s.inst i).pattern
  let mapped := if remap then s.mapAll i p else s.mapKept i p
  match mapped with
  | none =>
    let s := ((s.wr (K.instState i) instFaulted).wr (K.faultCode i) 2).modInst i fun x => { x.afresh with halted := true }
    s.logMg i 0x0403 2 0 noSlot 2 0
  | some t =>
    let h := t.hbmPlanOf i
    let t := t.rewriteRegions i p h
    let serving := (patPositions p).map fun x => t.posCore (absPanel i p x.1) x.2
    let t := t.each ((t.coresOf i).filter fun c => !serving.contains c) fun t c => t.modCore c Core.unnamed
    let now := (tileRecs p).map fun x => t.tilePlace i p x
    let moved := (List.range now.length).filter fun j => now[j]? != before[j]?
    let t := t.each (patPositions p) fun t x => t.writeCore i p h x.1 x.2 (t.posCore (absPanel i p x.1) x.2)
    let t := ((t.writeNbinds i p).writeRouters i p).vgCounts i p
    let t := t.each moved fun t j =>
      match before[j]?, (tileRecs p)[j]? with
      | some b, some x => t.modCore b.1 fun k => k.setEng b.2 ((k.engOf b.2).setTd x.tile 0)
      | _, _ => t
    let t := t.each (List.range now.length) fun t j =>
      if moved.contains j || redo.contains j then t.programOn i p h (now.getD j (0, 0)).1 j else t
    let wait := t.needsDarn i
    let t := t.modInst i fun x => { x.afresh with
      fcRate := t.rd K.fcRateLog2, fcEnable := t.rd K.fcEnable == 1, fcSeed := t.rd K.fcSeed,
      recheck := x.recheck.map fun _ => { left := x.recheckShards, start := t.time },
      waitDarn := wait, halted := wait, restartDue := wait }
    let t := ((t.wr (K.instState i) instFitted).wr (K.faultCode i) 0).setLining i false
    (t.startCores i).spareAlerts i

/-- The model of instance i is gone: Unfitted, its journal rewritten IDLE (R345). -/
def State.unfit (s : State) (i : Nat) : State :=
  let s := ((s.unplace i).clearModel i).wr (K.instState i) instUnfitted
  (s.modInst i fun x => { x.bare with retired := [], busy := .none }).writeJournal i 0 []

/-- One instance after the muslin run: placed again, gone with an unavailable panel, or left as it is. -/
def State.comeUp (s : State) (i : Nat) (remap : Bool) (before : List (Nat × Nat)) (redo : List Nat) : State :=
  if s.journalState i ≠ 2 ∨ s.rd (K.instState i) < 3 ∨ s.rd (K.instState i) = 6 then s
  else if (s.inst i).panels.any fun p => s.rd (K.panelState p) == 2 then s.unfit i
  else if s.rd (K.instState i) = 5 ∧ s.rd (K.faultCode i) = 5 then s.modInst i fun x => { x.afresh with halted := true }
  else s.refit i remap before redo

/-- Steps C1 to C7 on some panels and the instances on them (R460-R463). -/
def State.resetPanels (s : State) (ps is_ : List Nat) (rs : List MuslinResult) : State :=
  let notes := is_.map fun i =>
    (i, !(s.inst i).replacing.isEmpty, (tileRecs (s.inst i).pattern).map fun t => s.tilePlace i (s.inst i).pattern t,
      s.unsettledTiles i ++ failedReads s i rs)
  let s := s.each is_ fun s i => s.quiesce i
  let cs := ps.flatMap coresOfPanel
  let s := (((s.zeroPanels ps).testFabric ps).clearUnretired cs).muslin rs [] cs
  s.each notes fun s n => s.comeUp n.1 n.2.1 n.2.2.1 n.2.2.2

/-- Event 0x2003; how long the reset took is a free value. -/
def State.resetDone (s : State) (inst : Nat) : State :=
  s.freeStep.logMg (if inst = 0xFF then noInst else inst) 0x2003 0 0 noSlot s.free.toNat inst

/-- CLEAR_FAULT (R346): an instance restart; refused for code 0x05 and outside Faulted. -/
def execClearFault (i : InstId) (muslin : List MuslinResult) (s : State) : Out :=
  if s.instBusy i then .next (s.instResult i 3)
  else if s.rd (K.instState i) ≠ 5 ∨ s.rd (K.faultCode i) = 5 then .next (s.instResult i 1)
  else
    let s := s.instResult i 0
    .next ((s.resetPanels (s.inst i).panels [i] muslin).resetDone i)

/-- The counters that a compute reset clears (R157, R231), and the components that take their new firmware then (R499). -/
def State.clearFabricCounters (s : State) : State :=
  let s := s.each [K.darnGeneration, K.loneBursts, K.replays, K.vc0Late, K.redOverflows, K.lateResponses, K.fencedDrops,
    K.staleDrops, K.arrivalDrops, K.candDrops] fun s k => s.wr k 0
  let v := s.rd K.fwPending
  s.wr K.fwPending (v - 4 * bits v 3 2)

/-- A whole compute reset (R460-R463). -/
def State.computeReset (s : State) (rs : List MuslinResult) (failedPanels : List Nat) : State :=
  let s := s.clearFabricCounters
  let s := s.each (List.range 12) fun s p =>
    s.wr (K.panelState p) (if failedPanels.contains p then 2 else 0)
  let s := { s with darnSet := none }
  let s := s.resetPanels (List.range 12) (List.range 12) rs
  ((s.wr K.devState 2).bump K.computeResets 32 1).wr K.lastReset 4 |>.resetDone 0xFF

/-- COMPUTE_RESET (R452, R461, R464): refused before Ready. A reset runs to its end within the command, so none is ever
found in progress. -/
def execComputeReset (muslin : List MuslinResult) (failedPanels : List PanelId) (s : State) : Out :=
  if s.rd K.devState = 3 then .next (s.wr K.resetResult 2)
  else if s.rd K.devState ≠ 2 then .next (s.wr K.resetResult 1)
  else .next ((s.wr K.resetResult 0).computeReset muslin (failedPanels.map (·.val)))

/-- PANEL_CONTROLLER_FAULT (R464): a compute reset; a controller that then fails its self-test leaves its panel
unavailable. -/
def execPanelControllerFault (p : PanelId) (muslin : List MuslinResult) (selfTestFails : Bool) (s : State) : Out :=
  if s.rd K.devState ≠ 2 then .next s
  else .next (s.computeReset muslin (if selfTestFails then [p.val] else []))

/-! ## Failures in service and retirement (R468-R474) -/

/-- A core's failure is reported; a lining in Retention is raised for the re-placement (R423). -/
def State.coreReported (s : State) (c cause : Nat) : State :=
  let s := s.coreFails c cause
  match (s.core c).inst with
  | some i => if (s.inst i.val).retention then s.setLining i.val false else s
  | none => s

/-- CORE_FAULT_REPORT (R468-R470). -/
def execCoreFaultReport (c : CoreId) (cause : Nat) (s : State) : Out := .next (s.coreReported c cause)

/-- CORE_RETIRE (R474): the core fails in service, with cause 6. -/
def execCoreRetire (c : CoreId) (s : State) : Out := .next (s.coreReported c 6)

/-- CORE_UNRETIRE (R470, R474): accepted while the core holds no data address; it acts at the next bring-up or compute
reset. -/
def execCoreUnretire (c : CoreId) (s : State) : Out :=
  .next (if (s.core c).addrValid || s.unretire.contains c.val then s else { s with unretire := s.unretire ++ [c.val] })

end Sys2Proof.Machine
end

