-- ==== Sys2Proof/Machine/Firmware.lean ====
section
/-! DEFINITION. The key store (R497, R498), firmware images, banks, uploading and activation (R499-R506), test enable
(R509). Each operation that a Zwiys write reaches answers the state and the write's status. -/

namespace Sys2Proof.Machine

/-- Bytes of an image header, and of a chunk (R499). -/
def headerBytes : Nat := 53248
def chunkBytes : Nat := 65536

/-! ## The header (R499, R500) -/

/-- Fields of a header. -/
def fwChunks (h : List Byte) : Nat := leAt h 10 2
def fwVer (h : List Byte) : Nat := leAt h 12 4
def fwSvn (h : List Byte) : Nat := leAt h 16 2
def fwComponents (h : List Byte) : Nat := leAt h 18 2
/-- Component n: id, first chunk, length in chunks. -/
def fwComp (h : List Byte) (n : Nat) : Nat × Nat × Nat :=
  (leAt h (64 + 16 * n) 2, leAt h (66 + 16 * n) 2, leAt h (68 + 16 * n) 2)
/-- Bytes a to a + n of the header are zero. -/
def zeroBytes (h : List Byte) (a n : Nat) : Bool := slice h a n == List.replicate n 0

/-- Components in the table. -/
def fwComps (h : List Byte) : List (Nat × Nat × Nat) := (List.range (fwComponents h)).map (fwComp h)

/-- The component table is well formed (R499). -/
def fwTableOk (h : List Byte) : Bool :=
  let cs := fwComps h
  decide (1 ≤ fwComponents h) && decide (fwComponents h ≤ 8) &&
  cs.all (fun c => decide (1 ≤ c.1) && decide (c.1 ≤ 5) && decide (1 ≤ c.2.2) && decide (c.2.1 + c.2.2 ≤ fwChunks h) &&
    (c.1 != 1 || decide (c.2.2 ≤ 256))) &&
  cs.any (fun c => c.1 == 1) &&
  (cs.zipIdx.all fun a => cs.zipIdx.all fun b => decide (b.2 ≤ a.2) ||
    decide (a.1.2.1 + a.1.2.2 ≤ b.1.2.1) || decide (b.1.2.1 + b.1.2.2 ≤ a.1.2.1)) &&
  ((List.range 8).all fun n => zeroBytes h (70 + 16 * n) 10) &&
  ((List.range 8).all fun n => decide (n < fwComponents h) || zeroBytes h (64 + 16 * n) 16)

/-- Every field of the header but the chunk count lies in its range (R500). -/
def fwShapeOk (h : List Byte) : Bool :=
  slice h 0 8 == strBytes "FJW2FIRM" && leAt h 8 2 == 1 && decide (1 ≤ fwChunks h) && decide (fwSvn h ≤ 255) &&
  fwTableOk h && zeroBytes h (192 + 48 * fwChunks h) (49152 - 48 * fwChunks h) && zeroBytes h 52749 499

/-- Both signatures over some bytes verify under the firmware-signing keys of a key slot (R498, R500). -/
def signedBy (slot msg ecdsa mldsa : List Byte) : Bool :=
  Config.ecdsaOk (slice slot 4 97) msg ecdsa && Config.mldsaOk (slice slot 101 1952) msg mldsa

/-- `fw_result` of a header: 0, or why it is refused (R500, R510). -/
def State.headerCode (s : State) (h : List Byte) : Nat :=
  if 1024 < fwChunks h then 10
  else if !fwShapeOk h then 1
  else if !signedBy s.keyInForce (slice h 0 49344) (slice h 49344 96) (slice h 49440 3309) then 2
  else if fwSvn h < s.rd K.svnCounter then 3
  else 0

/-! ## Banks -/

/-- Replace a bank. -/
def State.setBank (s : State) (n : Nat) (b : Bank) : State :=
  { s with sec := if n = 0 then { s.sec with bank0 := b } else { s.sec with bank1 := b } }

/-- The bank that an upload writes. -/
def State.uploadBank (s : State) : Nat := if s.sec.recovery then 0 else 1 - s.rd K.fwActiveBank

/-- Lowest chunk of a bank that is not verified; the chunk count when all are. -/
def Bank.nextChunk (b : Bank) : Nat :=
  ((List.range (fwChunks b.header)).find? fun k => (mapGet (fun _ => []) b.chunks k).isEmpty).getD (fwChunks b.header)

/-- `fw_next_offset` follows the bank (R503). -/
def State.noteNext (s : State) (b : Bank) : State := s.wr K.fwNextOffset (headerBytes + chunkBytes * b.nextChunk)

/-- The upload is gone: state 0 and nothing of it shown. -/
def State.clearUpload (s : State) : State :=
  ((((s.wr K.fwState 0).wr K.fwNextOffset 0).wr K.fwImageVersion 0).wrBlob K.fwImageDigest (blobDefault K.fwImageDigest)).wr
    K.fwActivateAt 0

/-! ## Blocks (R502, R503) -/

/-- The last header block has come: the header is checked. -/
def State.checkHeader (s : State) (n : Nat) (b : Bank) : State :=
  let code := s.headerCode b.header
  if code ≠ 0 then
    (((s.setBank n {}).wr K.fwState 6).wr K.fwResult code).logMg noInst 0x4002 1 0 noSlot code 0
  else
    let b := { b with hdrBlocks := [] }
    ((((s.setBank n b).wr K.fwState 2).wr K.fwImageVersion (fwVer b.header)).wrBlob K.fwImageDigest
      (headerDigest b.header)).noteNext b

/-- A header block in states 0, 1 and 6. -/
def State.headerBlock (s : State) (offset : Nat) (block : List Byte) : State × Nat :=
  let n := s.uploadBank
  let fresh := s.rd K.fwState ≠ 1
  let s := if fresh then (((s.clearUpload.setBank n {}).wr K.fwState 1).wr K.fwResult 0) else s
  let b := s.bankNo n
  let b := { b with
    header := slice b.header 0 offset ++ block ++ b.header.drop (offset + 1024)
    hdrBlocks := if b.hdrBlocks.contains (offset / 1024) then b.hdrBlocks else b.hdrBlocks ++ [offset / 1024] }
  if b.hdrBlocks.length = 52 then (s.checkHeader n b, 0) else (s.setBank n b, 0)

/-- The last block of chunk k has come: its digest decides. -/
def State.chunkComplete (s : State) (n k : Nat) (b : Bank) : State × Nat :=
  let bytes := (List.range 64).flatMap fun j => mapGet (fun _ => []) b.blocks (64 * k + j)
  let rest := b.blocks.filter fun x => x.1 / 64 != k
  if Config.sha384 bytes = slice b.header (192 + 48 * k) 48 then
    let b := { b with chunks := mapSet (fun _ => []) b.chunks k bytes, blocks := rest }
    let s := (s.setBank n b).noteNext b
    if b.nextChunk = fwChunks b.header then
      ((s.wr K.fwState 3).logMg noInst 0x4001 0 0 noSlot (fwVer b.header) (fwSvn b.header), 0)
    else (s, 0)
  else (((s.setBank n { b with blocks := rest }).wr K.fwResult 4).bump K.fwChunkErrors 32 1, 0xD)

/-- A block in state 2. -/
def State.chunkBlock (s : State) (offset : Nat) (block : List Byte) : State × Nat :=
  let n := s.uploadBank
  let b := s.bankNo n
  if offset < headerBytes then
    if slice b.header offset 1024 = block then (s, 0) else (s.wr K.fwResult 5, 5)
  else
    let at_ := offset - headerBytes
    let k := at_ / chunkBytes
    if fwChunks b.header ≤ k then (s, 0xD)
    else if !(mapGet (fun _ => []) b.chunks k).isEmpty then (s, 0)
    else
      let b := { b with blocks := mapSet (fun _ => []) b.blocks (at_ / 1024) block }
      if (b.blocks.filter fun x => x.1 / 64 == k).length = 64 then s.chunkComplete n k b else (s.setBank n b, 0)

/-- One block of `fw_data` (R502): whole 1,024-byte blocks at their offsets; its status. -/
def State.fwBlock (s : State) (offset : Nat) (block : List Byte) : State × Nat :=
  let st := s.rd K.fwState
  if offset % 1024 ≠ 0 ∨ block.length ≠ 1024 ∨ headerBytes + 1024 * chunkBytes < offset + 1024 then (s, 0xD)
  else if st = 2 then s.chunkBlock offset block
  else if (st = 0 ∨ st = 1 ∨ st = 6) ∧ offset < headerBytes then s.headerBlock offset block
  else (s.wr K.fwResult 5, 5)

/-- FW_DATA_BLOCK (R502, R503). -/
def execFwDataBlock (offset : Nat) (block : List Byte) (s : State) : Out := .next (s.fwBlock offset block).1

/-! ## Commands (R502, R504) -/

/-- ARM: a complete upload, for a time 10 s to 30 days ahead. -/
def State.fwArm (s : State) : State × Nat :=
  let t := s.rd K.fwActivateAt
  let now := s.mirror K.timeNow
  if s.rd K.fwState ≠ 3 then (s, 5)
  else if t < now + 10000000000 ∨ now + 2592000000000000 < t then (s, 4)
  else ({ s with sec := { s.sec with confirmed := false } }.wr K.fwState 4, 0)

/-- DISARM. -/
def State.fwDisarm (s : State) : State × Nat := if s.rd K.fwState = 4 then (s.wr K.fwState 3, 0) else (s, 5)

/-- ABORT: an upload in states 1 to 3 is discarded. -/
def State.fwAbort (s : State) : State × Nat :=
  let st := s.rd K.fwState
  if st = 1 ∨ st = 2 ∨ st = 3 then ((s.setBank s.uploadBank {}).clearUpload, 0) else (s, 5)

/-- CONFIRM, from the cascade's master only. -/
def State.fwConfirm (s : State) (role : Role) : State × Nat :=
  if role ≠ .C then (s, 2)
  else if s.rd K.fwState = 4 then ({ s with sec := { s.sec with confirmed := true } }, 0)
  else (s, 5)

/-- This part's member index for an event, 0xFF none. -/
def State.memberArg (s : State) : Nat := s.rd K.memberIndex

/-- An armed upload returns to state 3 with a result, and the event says so (R504). -/
def State.fwCancelled (s : State) (result : Nat) : State :=
  ((s.wr K.fwState 3).wr K.fwResult result).logMg noInst 0x4004 1 0 noSlot result s.memberArg

/-- CANCEL, from the cascade's master only. -/
def State.fwCancel (s : State) (role : Role) : State × Nat :=
  if role ≠ .C then (s, 2) else if s.rd K.fwState = 4 then (s.fwCancelled 7, 0) else (s, 5)

/-- ARM (R504). -/
def execArm (s : State) : Out := .next s.fwArm.1
/-- DISARM (R504). -/
def execDisarm (s : State) : Out := .next s.fwDisarm.1
/-- FW_ABORT (R502). -/
def execFwAbort (s : State) : Out := .next s.fwAbort.1
/-- CONFIRM (R504). -/
def execConfirm (role : Role) (s : State) : Out := .next (s.fwConfirm role).1
/-- FW_CANCEL (R504). -/
def execFwCancel (role : Role) (s : State) : Out := .next (s.fwCancel role).1

/-- SELF_CANCEL (R504): still armed at T − 1 s in a cascade, and not confirmed. -/
def execSelfCancel (s : State) : Out :=
  .next (if s.rd K.fwState = 4 ∧ s.rd K.cascState ≠ 0 ∧ !s.sec.confirmed then s.fwCancelled 6 else s)

/-- `fw_cmd` of a value from a role; its status. -/
def State.fwCmd (s : State) (v : Nat) (role : Role) : State × Nat :=
  if v = 1 then s.fwArm else if v = 2 then s.fwDisarm else if v = 3 then s.fwAbort
  else if v = 4 then s.fwConfirm role else s.fwCancel role

/-- ACTIVATION_CHECK (R504): at T − 5 s the master compares every member's upload with its own; all alike and armed are
confirmed, otherwise all are cancelled. The writes travel as Zwiys messages of role C (type 0x04, log entry 29). -/
def execActivationCheck (others : List UploadView) (s : State) : Out :=
  if !s.isMaster || s.rd K.cascState = 0 then .next s
  else
    let rest := (List.range s.cascSize).filter fun m => m != s.me
    let ok := s.rd K.fwState = 4 ∧ rest.all fun m => others.any fun v =>
      v.member.val == m && v.reachable && v.fwState == 4 && v.activateAt == s.rd K.fwActivateAt &&
        v.imageDigest == s.blob K.fwImageDigest
    let cmd := if ok then 4 else 5
    let s := s.each rest fun s m => s.sendMember m 4 (s.rd K.ctackSeq) (leBytes 2 0x8000 ++ leBytes 1 2 ++ leBytes 1 cmd)
    .next (if ok then { s with sec := { s.sec with confirmed := true } }
      else if s.rd K.fwState = 4 then s.fwCancelled 7 else s)

/-! ## Activation (R501, R505, R506) -/

/-- The active mark names a bank: the copy with the lower sequence number takes it. -/
def State.markBank (s : State) (n : Nat) : State :=
  let a := s.sec.markA
  let b := s.sec.markB
  let sec := if a.1 ≤ b.1 then { s.sec with markA := (b.1 + 1, n) } else { s.sec with markB := (a.1 + 1, n) }
  { s with sec := sec }.wr K.fwActiveBank n

/-- What a management-core restart ends: DTLS sessions, blob transfers, uncommitted baste sets, subscriptions (R410). -/
def State.endSessions (s : State) : State :=
  { s with
    sessions := (s.sessions.filter fun x => decide (16 ≤ x.1)).filterMap fun x =>
      let y : Ses := { x.2 with
        baste := [], scope := 0xFE, blob := none, subs := [] }
      if y = {} then none else some (x.1, y)
    kept := [] }

/-- Work of an instance that the restart ends or starts anew (R466, R467). -/
def State.adoptInst (s : State) (i : Nat) : State :=
  let st := s.rd (K.instState i)
  let s := if st = 2 then s.loadFail i 0x2B 0
    else if s.journalState i = 3 then (s.unloaded i).loadCut i else s
  s.modInst i fun x => { x with sparesReady := false }

/-- The management core restarts and adopts the running state (R465-R467); how long that takes is a free value. -/
def State.mgRestart (s : State) : State :=
  let s := (s.endSessions.bump K.mgResets 32 1).each (List.range 12) State.adoptInst
  let s := { s with darnSet := none }
  s.freeStep.logMg noInst 0x2004 0 0 noSlot (s.rd K.lastReset) s.free.toNat

/-- Components 2 to 5 of a header, as the bits of `fw_pending`. -/
def pendingBits (h : List Byte) : Nat :=
  (((fwComps h).map (·.1)).eraseDups.map fun c => if 2 ≤ c then 2 ^ c else 0).sum

/-- FW_ACTIVATE (R505): the new bank is marked active and the management core restarts into it. -/
def execFwActivate (s : State) : Out :=
  if s.rd K.fwState ≠ 4 ∨ (s.rd K.cascState ≠ 0 ∧ !s.sec.confirmed) then .next s
  else
    let n := s.uploadBank
    let h := (s.bankNo n).header
    let old := s.rd K.fwVersion
    let s := (s.markBank n).clearUpload
    let s := (s.wr K.fwVersion (fwVer h)).wr K.fwPending (s.rd K.fwPending ||| pendingBits h)
    let s := { s with sec := { s.sec with confirmed := false, holding := true, watchdogs := 0 } }
    let s := if s.isMaster then { s with casc := { s.casc with barrier := true } } else s
    .next (s.mgRestart.logMg noInst 0x4005 0 0 noSlot old (fwVer h))

/-- SVN_HOLD_EXPIRY (R506): the anti-rollback counter rises to the running image's `svn`. -/
def execSvnHoldExpiry (s : State) : Out :=
  if !s.sec.holding then .next s
  else
    let old := s.rd K.svnCounter
    let new := fwSvn (s.bankNo (s.rd K.fwActiveBank)).header
    let s := { s with sec := { s.sec with holding := false, watchdogs := 0 } }
    .next (if old < new then (s.wr K.svnCounter (new % 256)).logMg noInst 0x4007 0 0 noSlot old new else s)

/-- The third expiry within `svn_hold`: the previous bank is marked active and boots (R506). -/
def State.revert (s : State) : State :=
  let n := 1 - s.rd K.fwActiveBank
  let v := fwVer (s.bankNo n).header
  let s := { s with sec := { s.sec with holding := false, watchdogs := 0 } }
  let s := (s.markBank n).clearUpload
  ((s.wr K.fwVersion v).wr K.fwResult 9).logMg noInst 0x4006 2 6 noSlot n v

/-- MG_WATCHDOG_EXPIRY (R465, R506). -/
def execMgWatchdogExpiry (s : State) : Out :=
  let s := s.wr K.lastReset 6
  if s.sec.holding then
    let s := { s with sec := { s.sec with watchdogs := s.sec.watchdogs + 1 } }
    .next (if 3 ≤ s.sec.watchdogs then s.revert.mgRestart else s.mgRestart)
  else .next s.mgRestart

/-- MG_CORE_RESET (R465): `reset_cmd` 2. -/
def execMgCoreReset (s : State) : Out := .next ((s.wr K.resetResult 0).wr K.lastReset 5).mgRestart

/-! ## Keys (R497, R498) -/

/-- A commit record for a slot's bytes (R497). -/
def commitRecord (slot : List Byte) : List Byte :=
  let b := strBytes "FJW2KCMT" ++ slice slot 0 4 ++ Config.sha384 slot
  b ++ leBytes 4 (crc32c b)

/-- A key package passes its checks: both signatures under the keys in force, and a higher sequence number. -/
def State.pkgOk (s : State) (p : List Byte) : Bool :=
  let slot := slice p 0 2304
  p.length == 5709 && signedBy s.keyInForce slot (slice p 2304 96) (slice p 2400 3309) &&
    decide (s.rd K.keySeq < leAt slot 0 4)

/-- `key_cmd` 1; its status. -/
def State.keyUpdate (s : State) : State × Nat :=
  let st := s.rd K.fwState
  if st ≠ 0 ∧ st ≠ 6 then (s, 5)
  else if !s.pkgOk s.sec.pkg then ((s.wr K.keyResult 2).logMg noInst 0x4009 1 0 noSlot 0 0, 0)
  else
    let slot := slice s.sec.pkg 0 2304
    let full := slot ++ commitRecord slot
    let toB := s.rd K.keySlot = 0
    let s := { s with sec := if toB then { s.sec with slotB := full } else { s.sec with slotA := full } }
    let s := ((s.wr K.keySlot (if toB then 1 else 0)).wr K.keySeq (leAt slot 0 4)).wr K.keyResult 1
    (s.logMg noInst 0x4008 0 0 noSlot (s.rd K.keySeq) (s.rd K.keySlot), 0)

/-- KEY_CMD (R498). -/
def execKeyCmd (s : State) : Out := .next s.keyUpdate.1

/-! ## Test enable (R509) -/

/-- A fresh nonce: four free values. -/
def State.newNonce (s : State) : State × List Byte :=
  let s1 := s.freeStep
  let s2 := s1.freeStep
  let s3 := s2.freeStep
  let n := leBytes 8 s.free.toNat ++ leBytes 8 s1.free.toNat ++ leBytes 8 s2.free.toNat ++ leBytes 8 s3.free.toNat
  ({ s3.freeStep with sec := { s.sec with nonce := some n } }, n)

/-- DBG_CHALLENGE (R509). -/
def execDbgChallenge (s : State) : Out := .next s.newNonce.1

/-- A response to the challenge; its status. The nonce is used up. -/
def State.debugResponse (s : State) (sig : List Byte) : State × Nat :=
  match s.sec.nonce with
  | none => (s, 5)
  | some n =>
    let s := { s with sec := { s.sec with nonce := none } }
    let quiet := s.allIn [0, 1] && (List.range 512).all fun k => s.rd (K.slotState k) == 0
    if quiet && Config.ecdsaOk (slice s.keyInForce 2053 97) (n ++ leBytes 8 (s.rd K.serial)) sig then
      ((s.wr K.testEnable 1).logMg noInst 0x400A 2 6 noSlot 0 0, 0)
    else (s, 5)

/-- DBG_RESPONSE (R509). -/
def execDbgResponse (signature : List Byte) (s : State) : Out := .next (s.debugResponse signature).1

/-! ## Recovery (R501) -/

/-- Every chunk of component 1 of a bank has verified. -/
def Bank.bootable (b : Bank) : Bool :=
  !b.header.isEmpty && (fwComps b.header).any (fun c => c.1 == 1) && (fwComps b.header).all fun c => c.1 != 1 ||
    (List.range c.2.2).all fun k => !(mapGet (fun _ => []) b.chunks (c.2.1 + k)).isEmpty

/-- RECOVERY_IMAGE_BLOCK (R501): a block over the UART into bank 0; once component 1 has verified, the part restarts. -/
def execRecoveryImageBlock (offset : Nat) (block : List Byte) (s : State) : Out :=
  if !s.sec.recovery then .next s
  else
    let s := (s.fwBlock offset block).1
    let b := s.sec.bank0
    if 2 ≤ s.rd K.fwState ∧ s.rd K.fwState ≤ 3 ∧ b.bootable then
      let s := (s.markBank 0).wr K.fwVersion (fwVer b.header)
      let s := if s.rd K.fwState = 3 then s.clearUpload else s
      .next ((({ s with sec := { s.sec with recovery := false } }).wr K.devState 1).wr K.bootStage 1)
    else .next s

end Sys2Proof.Machine
end

