-- ==== Sys2Proof/Machine/Power.lean ====
section
/-! DEFINITION. Power delivery, the clock mesh and cooling (R420-R448): the power sequencer, trips, region controllers,
throttling, the thermal estimate; the device reset with what its persistent store keeps (R458, R459). -/

namespace Sys2Proof.Machine

/-! ## Device reset (R458, R459, R503, R504) -/

/-- A numeric entry that the persistent store keeps: communication settings, the one-time counter, the key set in force,
the active mark and the version it names. -/
def keptKey (key : Nat) : Bool :=
  let idx := key / 256
  let sub := key % 256
  (decide (0x1101 ≤ idx) && decide (idx ≤ 0x1102) && decide (sub ≤ 6)) || key == K.idleTimeout || key == K.ptpDomain ||
    key == K.svnCounter || key == K.keySeq || key == K.keySlot || key == K.fwActiveBank || key == K.fwVersion

/-- A BLOB entry that the persistent store keeps: addresses, `client_table`, publisher keys, the load journal, retired
granules. -/
def keptBlob (key : Nat) : Bool :=
  let idx := key / 256
  let sub := key % 256
  (decide (0x1101 ≤ idx) && decide (idx ≤ 0x1105)) || idx == 0x4100 || key == K.journal ||
    (decide (0x3100 ≤ idx) && decide (idx < 0x35B0) && sub == 6)

/-- An upload whose header was accepted goes on from its last verified chunk; an armed one loses its arming (R503, R504). -/
def State.resumeUpload (s : State) (wasArmed : Bool) : State :=
  let n := s.uploadBank
  let b := s.bankNo n
  let s := if wasArmed then s.wr K.fwResult 8 else s
  if b.header.isEmpty || !b.hdrBlocks.isEmpty || n = s.rd K.fwActiveBank then s.setBank n (if b.hdrBlocks.isEmpty then b else {})
  else
    let st := if b.nextChunk = fwChunks b.header then 3 else 2
    (((s.wr K.fwState st).wr K.fwImageVersion (fwVer b.header)).wrBlob K.fwImageDigest (headerDigest b.header)).noteNext b

/-- A device reset (R459): every entry takes its default but those of the persistent store; lining and HBM are lost with
the rails. Pins, host memory and what has left the device are outside it. -/
def State.deviceReset (s : State) (last : Nat) : State :=
  let armed := s.rd K.fwState = 4
  let up := s.rd K.fwState
  let t : State :=
    { pending := s.pending, dict := s.dict.filter fun x => keptKey x.1, blobs := s.blobs.filter fun x => keptBlob x.1,
      freeNext := s.freeNext, hostMem := s.hostMem, tx := s.tx, sent := s.sent, marks := s.marks,
      journalOld := s.journalOld, unretire := s.unretire,
      ports := mapVals (fun _ => {}) s.ports fun x => { perst := x.perst },
      power := { pwrEn := s.power.pwrEn, source := s.power.source },
      sec := { s.sec with
        bank0 := { s.sec.bank0 with blocks := [] }, bank1 := { s.sec.bank1 with blocks := [] }, confirmed := false,
        watchdogs := 0, pkg := [], nonce := none, recovery := false } }
  let t := ((t.wr K.lastReset last).wr K.devState 1).wr K.bootStage 1
  if 2 ≤ up ∧ up ≤ 5 then t.resumeUpload armed
  else if up = 1 then t.setBank s.uploadBank {} else t

/-- DEVICE_RESET (R459): `reset_cmd` 3. Bring-up follows with INPUT_POWER_UP (log entry 38). -/
def execDeviceReset (s : State) : Out := .next (s.deviceReset 2)

/-- RESET_IN (R387): low for 10 µs is a device reset, below 1 µs nothing; between them either may happen. -/
def execResetIn (lowNs : Nat) (s : State) : Out :=
  if lowNs < 1000 then .next s
  else if 10000 ≤ lowNs then .next (s.deviceReset 1)
  else .next (if s.free.toNat % 2 = 1 then s.freeStep.deviceReset 1 else s.freeStep)

/-! ## Voltages and MCLK (R420, R436-R439) -/

/-- MCLK that the settings ask for (R439). -/
def State.mclkTarget (s : State) : Nat :=
  if s.rd K.hzMode = 0 then s.rd K.mclkSet else 92 * s.rd K.mclkSet / 100

/-- Core set point of a region at an MCLK: the factory curve, `v_margin` and the panel's dither, within 600–900 mV. -/
def State.corePoint (s : State) (r khz : Nat) : Nat :=
  let v := (Config.coreCurve r khz : Int) + s.rdI K.vMargin 16 + (s.panel (r / 25)).shift
  (min 900 (max 600 v)).toNat

/-- Set the core set points of some regions for an MCLK. -/
def State.setVolts (s : State) (rs : List Nat) (khz : Nat) : State :=
  s.each rs fun s r => s.wr (K.vSet r) (s.corePoint r khz)

/-- Steps 1 and 2 of R439: voltages rise first when MCLK does, and the mesh retunes. -/
def State.retune (s : State) : State :=
  let t := s.mclkTarget
  if s.rd K.meshState < 2 ∨ t = s.rd K.mclkNow then s
  else (if s.rd K.mclkNow < t then s.setVolts (List.range 300) t else s).wr K.meshState 3

/-- MCLK_SET (R439, R440). -/
def execMclkSet (khz : BitVec 32) (s : State) : Out :=
  let v := khz.toNat
  .next (if v < 900000 ∨ 1400000 < v ∨ !s.quietDevice then s else (s.wr K.mclkSet v).retune)

/-- HZ_MODE_WRITE (R184, R185). -/
def execHzModeWrite (mode : BitVec 8) (s : State) : Out :=
  let v := mode.toNat
  .next (if 2 < v ∨ !s.quietDevice then s else (s.wr K.hzMode v).retune)

/-- RETUNE_DONE (R439): MCLK is the target, voltages follow a lower one, event 0x100A. -/
def execRetuneDone (s : State) : Out :=
  if s.rd K.meshState ≠ 3 then .next s
  else
    let old := s.rd K.mclkNow
    let t := s.mclkTarget
    let s := ((s.wr K.mclkNow t).wr K.meshState 2).setVolts (List.range 300) t
    .next (s.logMg noInst 0x100A 0 0 noSlot old t)

/-! ## The power sequencer (R425-R428) -/

/-- The power request is on. -/
def State.powerWanted (s : State) : Bool := s.power.pwrEn && s.rd K.pwrEnable == 1

/-- A new `pwr_state`, with event 0x1001. -/
def State.setPwr (s : State) (v : Nat) : State :=
  if s.rd K.pwrState = v then s else (s.wr K.pwrState v).logMg noInst 0x1001 0 0 noSlot v s.power.source

/-- The last step finished. -/
def State.atStep (s : State) (k : Nat) : State := { s with power := { s.power with step := k } }

/-- The core rails are gone: every core loses its state and every request and sequence with it; linings stay. -/
def State.loseCores (s : State) : State :=
  { s with
    cores := mapVals (fun _ => {}) s.cores fun k => {
      fenced := k.fenced, coreAddr := k.coreAddr, addrValid := k.addrValid, inst := k.inst, block := k.block,
      eng := mapVals (fun _ => {}) k.eng fun e => { tdesc := e.tdesc, lining := e.lining, md := e.md, mdErr := e.mdErr, muslin := e.muslin } }
    insts := mapVals (fun _ => {}) s.insts fun x => { x.afresh with pages := [], load := x.load, busy := x.busy }
    seqs := [], reqs := [] }

/-- The region rails are off: linings and routers lose their contents. -/
def State.loseLinings (s : State) : State :=
  let s := { s with
    cores := mapVals (fun _ => {}) s.cores fun k => { k with eng := [] }
    routers := [], links := [], regions := [] }
  s.each (List.range 300) fun s r => s.wr (K.regState r) 0

/-- The companion dies are off: HBM contents are lost, every link is down. -/
def State.loseCompanions (s : State) : State :=
  let s := s.each (List.range 8) State.portDown
  let s := { s with hbm := [], hbmPoison := [], hbmErr := [], fns := [], winTab := [], swin := [], hbmStacks := [], seams := [] }
  let s := s.each (List.range 16) fun s n => (s.wr (K.hbmState n) 0).wr (K.seamState n) 0
  s.each (List.range 4) fun s e => s.wr (K.ethLink e) 0

/-- Regions come up: rails on, headers closed (R426 step U4, R429). -/
def State.regionsOn (s : State) : State :=
  let s := s.each (List.range 300) fun s r => s.wr (K.regState r) 2
  s.each (List.range 1200) fun s c => s.modCore c fun k => { k with header := 4 }

/-- The last step of power-up: set points, PWR_GOOD; the shutdown that ended the last power-on is logged (R426, R441). -/
def State.powerGood (s : State) : State :=
  let s := { s with power := { s.power with good := true, recovered := false } }
  let s := (s.setVolts (List.range 300) s.mclkTarget).setPwr 2
  match s.power.shutdown with
  | some (r, t) => { s with power := { s.power with shutdown := none } }.logMg noInst 0x1006 2 3 noSlot r t
  | none => s

/-- One step of power-up or power-down, 1-5 U1-U5, 6-10 D1-D5 (R426). -/
def State.seqStep (s : State) (k : Nat) : State :=
  let s := s.atStep k
  if k = 4 then s.regionsOn
  else if k = 5 then s.powerGood
  else if k = 6 then
    s.each (List.range 12) fun s i =>
      if s.rd (K.instState i) = 3 then (s.wr (K.instState i) 4).modInst i fun x => { x with hostStop := true } else s
  else if k = 7 then s.loseCores
  else if k = 8 then s.loseLinings
  else if k = 9 then s.loseCompanions
  else if k = 10 then ((s.setPwr 0).wr K.devState 0).atStep 0
  else s

/-- Steps a to b in order. -/
def State.seqRun (s : State) (a b : Nat) : State := s.each ((List.range (b + 1 - a)).map fun j => a + j) State.seqStep

/-- Where power-up goes on from the last step finished (R427). -/
def upFrom (step : Nat) : Nat :=
  if step < 5 then step + 1 else if step ≤ 6 then 5 else if step ≤ 8 then 4 else 3

/-- Where power-down goes on from the last step finished (R427); 11 for nothing to undo. -/
def downFrom (step : Nat) : Nat :=
  if step ≤ 1 then 11 else if step = 2 then 10 else if step = 3 then 9 else if step = 4 then 7 else if step = 5 then 6 else step + 1

/-- Power-up runs to step `b`; complete, it leads into bring-up unless the cores never lost their power (R427, R449). -/
def State.powerUp (s : State) (b : Nat) : State :=
  -- a power-down that has finished no step first finishes D1
  let s := if s.rd K.pwrState = 3 ∧ s.power.step = 5 then s.seqStep 6 else s
  let intact := s.power.step = 6 ∧ s.rd K.devState = 2
  let s := (s.setPwr 1).seqRun (upFrom s.power.step) b
  if intact then s
  else (s.wr K.devState 1).wr K.bootStage (if s.rd K.pwrState = 2 then 3 else 2)

/-- POWER_REQUEST_ON (R425-R427): the request is on; the sequencer runs up to step U`runTo` before a request changes it. -/
def execPowerRequestOn (runTo : Fin 6) (s : State) : Out :=
  let st := s.rd K.pwrState
  if !s.powerWanted || s.sec.recovery || st = 2 || (st = 4 && !s.power.recovered) then .next s
  else .next (s.powerUp runTo)

/-- POWER_REQUEST_OFF (R425-R427): the request is off; the sequencer runs down to step D`runTo`, and PWR_GOOD is released. -/
def execPowerRequestOff (runTo : Fin 6) (s : State) : Out :=
  let st := s.rd K.pwrState
  if s.powerWanted || st = 0 || st = 4 then .next s
  else
    let s := { s with power := { s.power with good := false } }
    let a := downFrom s.power.step
    if a = 11 then .next (((s.setPwr 0).wr K.devState 0).atStep 0)
    else .next ((s.setPwr 3).seqRun a (5 + runTo))

/-- A trip (R421, R428, R441): a device reset into Tripped; the count of trips goes on. -/
def State.trip (s : State) : State :=
  let n := s.rd K.trips + 1
  (((s.deviceReset 3).wr K.trips (n % 2 ^ 32)).wr K.devState 0).setPwr 4

/-- The main rails are on, or on their way. -/
def State.railsOn (s : State) : Bool := s.rd K.pwrState == 1 || s.rd K.pwrState == 2 || s.rd K.pwrState == 3

/-- INPUT_FAULT_TRIP (R421). -/
def execInputFaultTrip (past : Bool) (millivolts : Nat) (s : State) : Out :=
  if !s.railsOn then .next s
  else .next ((s.trip.wr K.vIn (millivolts % 2 ^ 32)).logMg noInst 0x1002 2 3 noSlot millivolts (b2n past))

/-- TRIP_RECOVERY (R428): the input is back in range; a request that is on starts U1. -/
def execTripRecovery (s : State) : Out :=
  if s.rd K.pwrState ≠ 4 then .next s
  else
    let s := { s with power := { s.power with recovered := true } }
    .next (if s.powerWanted && !s.sec.recovery then s.powerUp 0 else s)

/-- THERMAL_SHUTDOWN (R441): every main rail off; event 0x1006 waits for the next power-up. -/
def execThermalShutdown (r : RegionId) (temp : Int) (s : State) : Out :=
  if !s.railsOn then .next s
  else
    let s := s.trip
    .next { s with power := { s.power with shutdown := some (r.val, unsignedAt 32 temp) } }

/-! ## Load notices (R430-R432) -/

/-- Signed value of a notice word's `delta`. -/
def noteDelta (w : Nat) : Int := signedAt 10 (bits w 9 0)

/-- LOAD_NOTICE (R430-R432): the region controller takes the oldest notice word of a core. -/
def execLoadNotice (c : CoreId) (s : State) : Out :=
  match (s.core c).notices with
  | [] => .next s
  | word :: rest =>
    let s := s.modCore c fun k => { k with notices := rest }
    let r := regionOf c
    let w := word.toNat
    let kind := bits w 19 18
    let x := s.region r
    let live := x.notices.filter fun n => decide (s.time < n.due)
    if kind = 3 ∨ bits w 31 28 ≠ 0 then .next ((s.setRegion r { x with notices := live }).bump (K.noticeBad r) 32 1)
    else if kind = 2 then .next (s.setRegion r { x with notices := live.filter fun n => n.core != c.val })
    else if bits w 17 10 < 47 ∨ 8 ≤ live.length then
      .next ((s.setRegion r { x with notices := live }).bump (K.noticeLate r) 32 1)
    else
      let due := s.time + 64 * bits w 17 10 * 1000000 / s.rd K.mclkNow
      .next (s.setRegion r { x with
        notices := live ++ [⟨c, noteDelta w, due, kind, bits w 27 20⟩] })

/-- PREBIAS_RELEASE (R432): the announced step that is most overdue loses its pre-bias. -/
def execPrebiasRelease (r : RegionId) (s : State) : Out :=
  let x := s.region r
  match sortBy (fun (a b : Notice) => lexLt [a.due, a.core] [b.due, b.core]) x.notices with
  | [] => .next s
  | n :: _ => .next (s.setRegion r { x with notices := x.notices.erase n })

/-! ## Rails (R433-R435) -/

/-- ISSUE_STOP (R433). -/
def execIssueStop (r : RegionId) (s : State) : Out :=
  .next ((s.each (coresOfRegion r) fun s c => s.modCore c fun k => { k with issueStop := true }).bump (K.issueStops r) 32 1)

/-- ISSUE_STOP_CLEAR (R433). -/
def execIssueStopClear (r : RegionId) (s : State) : Out :=
  .next (s.each (coresOfRegion r) fun s c => s.modCore c fun k => { k with issueStop := false })

/-- Millivolts of a comparator step (R435). -/
def stepMv (k : Nat) : Nat := 500 + 5 * k

/-- VMIN_CROSSING (R433, R435): the lowest step crossed is kept with its time; below `v_set` − 60 mV event 0x1003 is
logged. -/
def execVminCrossing (r : RegionId) (step : Fin 64) (s : State) : Out :=
  let mv := stepMv step
  let s := if mv < s.rd (K.vmin r) then (s.wr (K.vmin r) mv).wr (K.vminTime r) s.time else s
  .next (if mv + 60 < s.rd (K.vSet r) then s.logMg noInst 0x1003 1 0 noSlot r (s.rd (K.vmin r)) else s)

/-- VMIN_CLEAR (R435): `vmin` takes the present level. -/
def execVminClear (r : RegionId) (present : Fin 64) (s : State) : Out :=
  .next ((s.wr (K.vmin r) (stepMv present)).wr (K.vminTime r) s.time)

/-- CURRENT_SAMPLE (R434): one sample of the converter in force; the range changes at the next one; 1,000 samples make the
1 ms mean. -/
def execCurrentSample (r : RegionId) (milliamps : Nat) (s : State) : Out :=
  let x := s.region r
  let full := if x.coarse then 160000 else 40000
  let code := min 4095 (milliamps * 4096 / full)
  let word := pack [(code, 0), (b2n x.coarse, 12), (b2n (code == 4095), 13)]
  let low := if x.coarse ∧ 160 * code ≤ 34 * 4096 then x.low + 1 else 0
  let coarse := if x.coarse then decide (low < 4) else decide (38 * 4096 ≤ 40 * code)
  let sum := x.sum + (if x.coarse then 4 * code else code)
  let s := s.wr (K.iSample r) word
  let x := { x with coarse := coarse, low := if coarse then low else 0 }
  if x.count = 999 then
    .next ((s.setRegion r { x with count := 0, sum := 0 }).wr (K.iAvg r) (sum * 40000 / 4096 / 1000))
  else .next (s.setRegion r { x with count := x.count + 1, sum := sum })

/-! ## Temperature (R441, R442) -/

/-- Throttle level after a report (R442): up by one above `t_throttle`, down by one after ten reports in a row below it by
3 °C. -/
def State.throttleNext (s : State) (r : Nat) (temp : Int) : Nat × Nat :=
  let k := s.rd (K.throttle r)
  let limit := s.rdI K.tThrottle 32
  let x := s.region r
  if limit < temp then (min 10 (k + 1), 0)
  else if temp < limit - 3000 then (if x.cool = 9 then (k - 1, 0) else (k, x.cool + 1))
  else (k, 0)

/-- THROTTLE_UPDATE (R441, R442): a region's 1 ms report. -/
def execThrottleUpdate (r : RegionId) (temp : Int) (s : State) : Out :=
  let n := s.throttleNext r temp
  let held := s.rd (K.throttle r) = 10 ∧ s.rdI K.tThrottle 32 < temp
  let x := s.region r
  let p := r.val / 25
  let s := ((s.wrI (K.temp r) 32 temp).wr (K.throttle r) n.1).setRegion r { x with
    cool := n.2, top := if held then (x.top + 1) % 60000 else 0 }
  let hot := (List.range 25).foldl (fun m j => max m (s.rdI (K.temp (25 * p + j)) 32)) temp
  let s := s.wrI (K.tPanelMax p) 32 hot
  let s := s.each (coresOfRegion r) fun s c => s.modCore c fun k => { k with pace := decide (0 < n.1) }
  let s := if held ∧ x.top = 0 then s.logMg noInst 0x1004 1 0 noSlot r (unsignedAt 32 temp) else s
  match s.instOfPanel p with
  | some i => .next (if s.regionsCool i then s.heatRelease i fun c => decide (c < 0x100) else s)
  | none => .next s

/-- T_STOP (R441): a region above `t_stop` for 10 ms stops its instance at the next tack. -/
def execTStop (r : RegionId) (s : State) : Out :=
  match s.instOfPanel (r.val / 25) with
  | some i => .next (s.heatHold i r)
  | none => .next s

/-- RETENTION_ENTRY (R422): a Fitted instance that has run no step for `ret_delay` puts its lining into Retention. -/
def execRetentionEntry (i : InstId) (s : State) : Out :=
  let x := s.inst i
  if s.rd (K.instState i) ≠ 3 ∨ s.rd K.retDelay = 0 ∨ x.stepOn ∨ x.retention ∨ !x.replacing.isEmpty then .next s
  else .next (s.setLining i true)

/-! ## The thermal-resistance estimate (R444, R445) -/

/-- Sums over chips: n, ΣP, ΣT, ΣP², ΣT², ΣPT. -/
def chipSums (l : List (Int × Int)) : Int × Int × Int × Int × Int × Int :=
  ((l.length : Int), (l.map (·.1)).sum, (l.map (·.2)).sum, (l.map fun x => x.1 * x.1).sum, (l.map fun x => x.2 * x.2).sum,
    (l.map fun x => x.1 * x.2).sum)

/-- The estimate of R444 in FP32, when 60 chips correlate by 0.8 or more and P varies by 1% or more. -/
def rthOf (l : List (Int × Int)) : Option Nat :=
  let (n, sp, st, spp, stt, spt) := chipSums l
  let cov := n * spt - sp * st
  let vp := n * spp - sp * sp
  let vt := n * stt - st * st
  if l.length < 60 ∨ cov ≤ 0 ∨ vp ≤ 0 ∨ 25 * cov * cov < 16 * vp * vt ∨ 10000 * vp < sp * sp then none
  else some (roundRat f32 cov.toNat (1000 * vp.toNat) 0)

/-- The dither of a panel's next chip: ±`dither_mv`, its sign a free value; none in the cases of R445. -/
def State.nextShift (s : State) (p : Nat) (power : Int) : State × Int :=
  let cap : Int := s.panelCap p
  let near := decide (cap * 98 ≤ power * 100) && decide (power * 100 ≤ cap * 102)
  let mv : Int := s.rd K.ditherMv
  let kept : Bool := match s.instOfPanel p with
    | some i => (s.inst i).retention
    | none => false
  if near = true ∨ mv = 0 ∨ kept = true then (s, 0)
  else (s.freeStep, if s.free.toNat % 2 = 1 then mv else -mv)

/-- DITHER_CHIP (R444, R445): a chip of 10 s ends with its means of power (W) and temperature rise (m°C). -/
def execDitherChip (p : PanelId) (power rise : Int) (s : State) : Out :=
  let x := s.panel p
  let chips := ((power, rise) :: x.chips).take 60
  let d := s.nextShift p power
  let s := d.1
  let x := { x with chips := chips, shift := d.2 }
  let s : State := match rthOf chips with
    | some v =>
      ((s.setPanel p { x with acceptedAt := s.uptime, window := none }).wr (K.rthEst p) v).wr (K.rthStale p) 0
    | none => s.setPanel p x
  .next (if s.rd K.pwrState = 2 then s.setVolts ((List.range 25).map fun j => 25 * p.val + j) s.mclkTarget else s)

/-- RTH_STALE (R445): ten minutes without an estimate mark it stale; after 30 a window of 96% of the cap opens. -/
def execRthStale (p : PanelId) (thirty : Bool) (s : State) : Out :=
  if thirty then
    .next (if s.rd (K.rthStale p) = 1 then s.setPanel p { s.panel p with window := some s.uptime } else s)
  else .next ((s.wr (K.rthStale p) 1).logMg noInst 0x1007 1 0 noSlot p (s.mirror (K.rthAge p)))

/-! ## Regulators (R437) -/

/-- REGULATOR_FAULT (R437): the region is off; its four cores and four routers fail. -/
def execRegulatorFault (r : RegionId) (s : State) : Out :=
  if s.rd (K.regState r) = 4 then .next s
  else
    let s := (s.wr (K.regState r) 4).logMg noInst 0x100B 2 3 noSlot r 0
    let cs := coresOfRegion r
    let s := s.each cs fun s c => s.coreReported c 3
    let s := s.each cs State.routerFails
    .next (s.each cs fun s c => s.modCore c fun k =>
      { fenced := true, coreAddr := k.coreAddr, addrValid := k.addrValid, inst := k.inst, block := k.block })

end Sys2Proof.Machine
end

