-- ==== Sys2Proof/Machine/Bringup.lean ====
section
/-! DEFINITION. Bring-up (R449-R457, R501, R345). -/

namespace Sys2Proof.Machine

/-! ## Step 1: the boot ROM (R501) -/

/-- Neither bank passes: the part waits for an image over the UART on SB0 and SB1. -/
def State.enterRecovery (s : State) : State :=
  let s := { s with sec := { s.sec with recovery := true } }
  let s := (s.setPin 0 { func := 4, want := 4 }).setPin 1 { func := 5, want := 5 }
  ((((s.wr (K.sbFunc 0) 4).wr (K.sbFunc 1) 5).wr K.devState 0).wr K.bootStage 1).clearUpload

/-- The boot ROM takes the active bank, or the other one with event 0x400B. -/
def State.bootBank (s : State) (b : BringUp) : State :=
  let n := s.rd K.fwActiveBank
  let ok := fun (k : Nat) => if k = 0 then b.bank0Ok else b.bank1Ok
  if ok n then s
  else if ok (1 - n) then
    let s := s.markBank (1 - n)
    (s.wr K.fwVersion (fwVer (s.bankNo (1 - n)).header)).logMg noInst 0x400B 2 6 noSlot (1 - n) 0
  else s.enterRecovery

/-! ## Steps 3 to 6 -/

/-- Step 3: the mesh locks, routers and links are tested; how the lock went is measured (R438, R449, R451). -/
def State.bootFabric (s : State) (b : BringUp) : State :=
  let map := (List.range 300).map fun r =>
    BitVec.ofNat 8 (if r = 141 then 2 else b2n (b.bypassed.any fun x => x.val == r))
  let s := ((s.wr K.mclkNow s.mclkTarget).wr K.meshState 2).wrBlob K.oscMap map
  let s := (s.wr K.skewMax (s.free.toNat % 26)).freeStep
  let s := (s.wr K.lockTime (s.free.toNat % 80001)).freeStep
  let s := { s with routers := [], links := [] }.wrBlob K.linkMap (blobDefault K.linkMap)
  s.each b.failedRouters fun s r => s.routerFails r

/-- Step 4: the stacks train (R384). -/
def State.bootHbm (s : State) (b : BringUp) : State :=
  let s := s.each (List.range 16) fun s n => s.wr (K.hbmState n) (if b.hbmFailed.any fun x => x.val == n then 3 else 2)
  s.each b.hbmLaneRepairs fun s x => s.wr (K.laneRepairs x.1) (x.2 % 256)

/-- A link that failed training (R451): 0 PCIe, 1 Ethernet, 2 seam. -/
def State.trainFailed (s : State) (kind n : Nat) : State := s.logMg noInst 0x2002 1 0 noSlot kind n

/-- Step 5: ports, Ethernet links and seams train. -/
def State.bootLinks (s : State) (b : BringUp) : State :=
  let s := s.each (List.range 8) fun s n =>
    let s := match b.pcie.find? fun x => x.1.val == n with
      | some x => s.trainPort n x.2.1 x.2.2
      | none => s
    if s.rd (K.pcieRate n) = 0 then s.trainFailed 0 n else s
  let s := s.each (List.range 4) fun s e =>
    if b.eth.any fun x => x.val == e then s.wr (K.ethLink e) 1 else s.trainFailed 1 e
  s.each (List.range 16) fun s n =>
    match b.seams.find? fun x => x.1.val == n with
    | some x => ((s.wr (K.seamState n) 2).wr (K.seamPeer n) x.2.1).wr (K.seamPeerSeam n) x.2.2
    | none => s.trainFailed 2 n

/-- Step 6: the muslin run on every core (R456, R470). -/
def State.bootCores (s : State) (b : BringUp) : State :=
  let all := List.range 1200
  let s := (s.clearUnretired all).muslin b.muslin b.liningFailed all
  s.wr K.goodCores (all.filter s.goodCore).length

/-! ## Step 7: instances from the journal (R345) -/

/-- A journal record's CRC holds (R344). -/
def journalValid (b : List Byte) : Bool := leAt b 60 4 == leNat (leBytes 4 (crc32c (slice b 0 60)))

/-- The record that counts at power-up: of the valid copies, the one with the higher `seq` (R344). -/
def State.journalAtStart (s : State) (i : Nat) : Option (List Byte) :=
  let a := s.journalOf i
  let b := slice (mapGet (fun _ => []) s.journalOld i) 0 64
  if journalValid a && (!journalValid b || decide (leAt b 0 4 ≤ leAt a 0 4)) then some a
  else if journalValid b then some b
  else none

/-- Instance i comes up as its record says: Absent, or Unfitted, since no lining survived. A record whose rectangle does not lie
in the grid is none that FORM has written. -/
def State.reform (s : State) (i : Nat) : State :=
  match s.journalAtStart i with
  | none => s
  | some b =>
    let cols := bits (leAt b 5 1) 3 0
    let rows := bits (leAt b 5 1) 7 4
    if cols = 0 ∨ rows = 0 ∨ inGrid i cols rows = false then s
    else
      let s := (((s.wr (K.instCols i) cols).wr (K.instRows i) rows).wr (K.instState i) instUnfitted).setInst i
        { panels := rectangle i cols rows }
      let st := leAt b 4 1
      let s := if st = 1 ∨ st = 3 then s.loadCut i else s
      if st = 0 then s else s.writeJournal i 0 []

/-- Headers of the cores of unassigned panels open again (R429). -/
def State.headOff (s : State) : State :=
  s.each ((List.range 1200).filter fun c => (s.instOfPanel (panelOf c)).isNone) fun s c =>
    s.modCore c fun k => { k with header := 0 }

/-- Step 7: Ready, with event 0x2001. -/
def State.bootReady (s : State) (b : BringUp) : State :=
  let s := (s.each (List.range 12) State.reform).headOff
  let s := ((s.wr K.bootStage 7).wr K.devState 2).wr K.bootTime (b.bootMs % 2 ^ 32)
  s.logMg noInst 0x2001 0 0 noSlot b.bootMs (s.rd K.goodCores)

/-- INPUT_POWER_UP (R449-R452): bring-up from step 1, with what its steps find. A bring-up that waits in step 1 or 2 (after
a device reset, a trip, or a late power request) goes on from there; otherwise the part starts from no power (log entry
38). -/
def execInputPowerUp (b : BringUp) (s : State) : Out :=
  let s := if s.rd K.devState = 1 then s else s.deviceReset 0
  let s := ((s.wr K.devState 1).wr K.bootStage 1).bootBank b
  if s.sec.recovery || !s.powerWanted || (s.rd K.pwrState = 4 && !s.power.recovered) then .next s
  else
    let s := if s.rd K.pwrState = 2 then s else s.powerUp 5
    .next ((((((s.wr K.bootStage 3).bootFabric b).bootHbm b).bootLinks b).bootCores b).bootReady b)

end Sys2Proof.Machine
end

