-- ==== Sys2Proof/Machine/Diagnostics.lean ====
section
/-! DEFINITION. Recipe selection (R86-R91), and the diagnostic and telemetry entries that act when written (R87, R114,
R417-R419). -/

namespace Sys2Proof.Machine

/-- The instance's recipe is switched on every member together: a widen or deepen cascade (R91). -/
def State.recipeShared (s : State) (i : Nat) : Bool := s.cascaded i && s.cascSplit

/-- A `recipe_select` write; its status. In a widen or deepen cascade only the master's counts, and the master passes it to
every member (R91, R406). -/
def State.recipeWrite (s : State) (i : Nat) (variants : List Byte) (fromMaster : Bool) : State × Nat :=
  let st := s.recipeRule i variants
  if s.recipeShared i && !fromMaster && !s.isMaster then (s, 0xE)
  else if st ≠ 0 then (s, st)
  else if s.recipeShared i then
    let s := s.change i (.recipeC variants)
    if s.isMaster then
      let s := { s with casc := { s.casc with barrier := true } }
      (s.sendDown 4 (s.rd K.ctackSeq) (leBytes 2 (0x4000 + i) ++ leBytes 1 0x30 ++ variants), 0)
    else (s, 0)
  else (s.change i (.recipe variants), 0)

/-- RECIPE_SELECT_WRITE (R88, R91). -/
def execRecipeSelectWrite (i : InstId) (variants : List Byte) (fromMaster : Bool) (s : State) : Out :=
  .next (s.recipeWrite i variants fromMaster).1

/-- PREC_CLEAR (R87): the flags go at the next tack. -/
def execPrecClear (i : InstId) (mask : BitVec 32) (s : State) : Out := .next (s.change i (.precClear mask.toNat))

/-- CC_CORE_WRITE (R114). -/
def execCcCoreWrite (core : BitVec 16) (s : State) : Out :=
  .next (if core.toNat < 1200 then s.wr K.ccCore core.toNat else s)

/-- Instance whose tack a core waits for: that of its task, or of its panel. -/
def State.instForCore (s : State) (c : Nat) : Option Nat :=
  match (s.core c).inst with
  | some i => some i.val
  | none => s.instOfPanel (panelOf c)

/-- CC_CLEAR (R114): the selected core's counters go at its instance's next tack; those of a core of no instance go at
once. -/
def execCcClear (s : State) : Out :=
  let c := s.rd K.ccCore
  match s.instForCore c with
  | some i => .next (s.change i (.ccClear c))
  | none => .next (s.modCore c Core.clearCounters)

/-- TM_CORE_WRITE (R418). -/
def execTmCoreWrite (core : BitVec 16) (s : State) : Out :=
  .next (if core.toNat < 1200 then s.wr K.tmCore core.toNat else s)

/-- A `snap_req` write; its status (R418). -/
def State.snapReq (s : State) (i : Nat) : State × Nat :=
  if s.rd (K.snapState i) = 1 then (s, 5) else ((s.wr (K.snapState i) 1).change i .snapshot, 0)

/-- SNAP_REQ (R27, R418). -/
def execSnapReq (i : InstId) (s : State) : Out := .next (s.snapReq i).1

/-- ALERT_CLEAR (R417). -/
def execAlertClear (mask : BitVec 32) (s : State) : Out :=
  .next (s.wr K.alertCauses (s.rd K.alertCauses &&& (2 ^ 32 - 1 - mask.toNat)))

end Sys2Proof.Machine
end

