-- ==== Sys2Proof/Machine/Cascade.lean ====
section
/-! DEFINITION. The cascade (R476-R495): joining and leaving, the seams, tack records and releases, mastership, cascade time,
aperture data, and what travels by broadcast. -/

namespace Sys2Proof.Machine

/-! ## JOIN, LEAVE, SWAP, FW_PASS (R486, R487, R493, R494) -/

/-- This part's place in `members`, none when it is not listed. -/
def State.ownIndex (s : State) : Option Nat :=
  (List.range s.cascSize).find? fun m => s.memberSerial m == s.rd K.serial

/-- The master that R486 names: the preferred member, otherwise the one with the lowest serial. -/
def State.firstMaster (s : State) (among : List Nat) : Nat :=
  match among.find? fun m => s.rd K.masterPref != 0 && s.memberSerial m == s.rd K.masterPref with
  | some m => m
  | none => (sortBy (fun a b => decide (s.memberSerial a ≤ s.memberSerial b)) among).headD 16

/-- JOIN: a member is placed in Forming. -/
def State.join (s : State) : State :=
  if s.rd K.cascState ≠ 0 then s.wr K.cascResult 1
  else
    match s.ownIndex with
    | none => s.wr K.cascResult 2
    | some m =>
      if 16 < s.cascSize ∨ 11 < s.rd K.cascInstance ∨ s.rd K.masterEligible = 0 then s.wr K.cascResult 2
      else
        let master := s.firstMaster (List.range s.cascSize)
        let s := { s with casc := { master := master } }
        let s := ((s.wr K.cascState 1).wr K.memberIndex m).wr K.unfitReason 0
        ((s.wr K.cascRole (if master = m then 2 else 1)).wr K.masterSerial (s.memberSerial master)).wr K.cascResult 0

/-- JOIN (R486). -/
def execJoin (s : State) : Out := .next s.join

/-- LEAVE: the part is in no cascade, and a load from its broadcast ends (R336). -/
def State.leave (s : State) : State :=
  if s.rd K.cascState = 0 then s.wr K.cascResult 1
  else
    let s := s.each ((List.range 12).filter fun i => (s.inst i).load.isSome && s.fromCascade i) fun s i => s.loadFail i 0x2C 0
    let s := { s with casc := {} }.modInst (s.rd K.cascInstance) fun x => { x with cascWait := false }
    ((((s.wr K.cascState 0).wr K.cascRole 0).wr K.memberIndex 0xFF).wr K.masterSerial 0).wr K.cascResult 0

/-- LEAVE (R494). -/
def execLeave (s : State) : Out := .next s.leave

/-- The master collects a request for its role. -/
def State.addSwap (s : State) (requester target : Nat) : State :=
  { s with casc := { s.casc with swaps := s.casc.swaps ++ [(requester, target)] } }

/-- SWAP: a member asks for the master's role to move. -/
def State.swapCmd (s : State) : State :=
  let t := s.rd K.swapTarget
  if s.rd K.cascState = 0 ∨ s.rd K.cascState = 1 then s.wr K.cascResult 1
  else if !s.mayLead t then s.wr K.cascResult 2
  else
    let s := (s.wr K.cascResult 0).addSwap s.me t
    if s.isMaster then s else s.sendMember s.casc.master 5 (s.rd K.ctackSeq) (leBytes 1 t)

/-- SWAP (R487). -/
def execSwap (s : State) : Out := .next s.swapCmd

/-- Blocks of the uploaded image from an offset on, with their offsets. -/
def State.imageBlocks (s : State) (from_ : Nat) : List (Nat × List Byte) :=
  let b := s.bankNo s.uploadBank
  let n := headerBytes + chunkBytes * fwChunks b.header
  let first := from_ / 1024
  (List.range (n / 1024 - first)).map fun j =>
    let o := 1024 * (first + j)
    (o, if o < headerBytes then slice b.header o 1024
        else slice (mapGet (fun _ => []) b.chunks ((o - headerBytes) / chunkBytes)) ((o - headerBytes) % chunkBytes) 1024)

/-- FW_PASS: the master of a cascade of up to 4 members passes its complete upload down the tree. -/
def State.fwPassCmd (s : State) : State :=
  if !s.isMaster || s.rd K.cascState = 0 then s.wr K.cascResult 1
  else if 4 < s.cascSize then s.wr K.cascResult 2
  else if s.rd K.fwState ≠ 3 ∧ s.rd K.fwState ≠ 4 then s.wr K.cascResult 1
  else (s.each (s.imageBlocks 0) fun s b => s.sendDown 0x22 b.1 b.2).wr K.cascResult 0

/-- FW_PASS (R493). -/
def execFwPass (s : State) : Out := .next s.fwPassCmd

/-- `casc_cmd` of a value. -/
def State.cascCmd (s : State) (v : Nat) : State :=
  if v = 1 then s.join else if v = 2 then s.leave else if v = 3 then s.swapCmd else s.fwPassCmd

/-! ## Seams (R476-R479) -/

/-- The tree is to be built again at the next tack (R482). -/
def State.treeStale (s : State) : State := { s with casc := { s.casc with stale := true } }

/-- Member index of a seam's peer, 0xFF when it is no member. -/
def State.peerMember (s : State) (n : Nat) : Nat :=
  ((List.range 16).find? fun m => s.memberSerial m == s.rd (K.seamPeer n)).getD 0xFF

/-- A descriptor that stands at the head of a channel and sends into the aperture through a seam. -/
def State.usesSeam (s : State) (i n : Nat) (d : DDesc) : Bool :=
  d.op != 2 && d.dstSpace == 1 && s.aperture i d.dst && s.seamTo i (bits d.dst 59 56) == some n

/-- A seam gives up (R479): it is failed until retrained, what it held ends, and the step in flight is abandoned. -/
def State.seamGiveUp (s : State) (n : Nat) : State :=
  let i := s.rd K.cascInstance
  let s := if s.rd K.cascState = 0 then s else s.each (s.coresOf i) fun s c => s.each (List.range 8) fun s ch =>
    match (s.core c).dmaHead ch with
    | some d => if s.usesSeam i n d then s.dmaEnd c ch d 2 0 0 else s
    | none => s
  let s := (s.wr (K.seamState n) 3).setSeam n {}
  let s := (s.logMg noInst 0x3003 1 0 noSlot n (s.peerMember n)).treeStale
  if s.rd K.cascState != 0 && (s.inst i).stepOn then s.abandon i else s

/-- What stops a transfer at the receiver: 1 a pair fault, 2 a wrong sequence number or a CRC error; 0 accepted (R478). -/
def seamFault (t : SeamTransfer) (expect : Nat) : Nat :=
  if !t.headerCrcOk then 2
  else if t.headerPair ≠ 1#2 ∧ t.headerPair ≠ 3#2 then 1
  else if t.headerSeq.toNat ≠ expect then 2
  else match t.payloadBurst with
    | none => if t.headerPair = 3#2 then 0 else 1
    | some (pair, seq, ok) =>
      if t.headerPair = 3#2 then 1
      else if !ok then 2
      else if pair ≠ 2#2 then 1
      else if seq ≠ t.headerSeq then 2
      else 0

/-- The peer's acknowledgement: transfers before `ack` leave the replay buffer; with `replay` the rest is sent again, and
a transfer replayed 4 times in vain makes the seam give up. -/
def State.seamAck (s : State) (n : Nat) (t : SeamTransfer) : State :=
  let x := s.seam n
  let k := (t.ack.toNat + 4096 - x.base) % 4096
  let x : Seam := if 0 < k ∧ k ≤ x.tx.length then { x with tx := x.tx.drop k, base := t.ack.toNat, resent := 0 } else x
  if !t.replay then s.setSeam n x
  else if x.resent = 4 then (s.setSeam n x).seamGiveUp n
  else s.setSeam n { x with resent := x.resent + 1 }

/-- The receiver discards what it holds and asks for a replay (R478, R479). -/
def State.seamDiscard (s : State) (n fault : Nat) : State :=
  let s := if fault = 1 then s.bump (K.seamLone n) 64 1 else s.bump (K.seamReplays n) 64 1
  let x := s.seam n
  let x : Seam := if x.winStart + 1000000 ≤ s.uptime then { x with winStart := s.uptime, discards := 1 }
    else { x with discards := x.discards + 1 }
  if x.replays = 4 ∨ 4096 < x.discards then (s.setSeam n x).seamGiveUp n
  else s.setSeam n { x with replays := x.replays + 1, askReplay := true }

/-- An accepted transfer for another member goes on along the tree; broadcast and firmware blocks go on with their own
commands. -/
def State.seamForward (s : State) (t : SeamTransfer) : State :=
  if t.dst = s.me ∨ t.type = 0x20 ∨ t.type = 0x22 then s
  else
    let put := fun (s : State) (m : Nat) =>
      match s.seamFor m with
      | some n => s.seamSend n { type := t.type, src := t.src, dst := t.dst, hops := t.hops + 1, tag := t.tag.toNat,
                                 taint := t.taint, payload := t.payload }
      | none => s
    if t.dst = 0xFF then s.each (s.childrenOf s.me) put
    else match s.nextMember t.dst with
      | some m => put s m
      | none => s

/-- SEAM_TRANSFER_RECEIVE (R477-R479): the transfer is accepted or discarded; what it carries reaches its unit as a command
of its own. -/
def execSeamTransferReceive (sm : SeamId) (t : SeamTransfer) (s : State) : Out :=
  if s.rd (K.seamState sm) ≠ 2 then .next s
  else
    let s := if t.headerCrcOk then s.seamAck sm t else s
    if s.rd (K.seamState sm) ≠ 2 then .next s
    else
      let x := s.seam sm
      let f := seamFault t x.expect
      if f ≠ 0 then .next (s.seamDiscard sm f)
      else
        .next ((s.setSeam sm { x with expect := (x.expect + 1) % 4096, replays := 0, askReplay := false }).seamForward t)

/-- A seam trains again; transfers not yet acknowledged are kept (R478). -/
def State.seamRetrain (s : State) (n : Nat) : State :=
  ((s.wr (K.seamState n) 1).setSeam n { tx := (s.seam n).tx }).treeStale

/-- SEAM_RETRAIN (R476, R494). -/
def execSeamRetrain (sm : SeamId) (s : State) : Out := .next (s.seamRetrain sm)

/-- SEAM_LINK_UP (R476, R482): training has ended; the two ends have exchanged serial and seam number. A failed seam stays
failed until it is retrained (R479). -/
def execSeamLinkUp (sm : SeamId) (peerSerial : Nat) (peerSeam : Fin 16) (s : State) : Out :=
  if s.rd (K.seamState sm) = 3 then .next s
  else
    .next (((s.wr (K.seamState sm) 2).wr (K.seamPeer sm) peerSerial).wr (K.seamPeerSeam sm) peerSeam).treeStale

/-! ## The cascade tack (R490, R491) -/

/-- TACK_RECORD: a member's record reaches the master. -/
def execTackRecord (r : TackRec) (s : State) : Out :=
  if !s.isMaster || s.rd K.cascState = 0 || s.cascSize ≤ r.member then .next s else .next (s.form.addRecord r)

/-- CASCADE_RELEASE: the master's release reaches this member. -/
def execCascadeRelease (r : ReleaseMsg) (s : State) : Out :=
  if s.isMaster || s.rd K.cascState = 0 then .next s
  else
    let s := s.form
    .next ({ s with casc := { s.casc with heardAt := s.time } }.releaseSelf r)

/-- IDLE_CASCADE_TACK: the group runs no step; its members reach a cascade tack all the same. -/
def execIdleCascadeTack (s : State) : Out :=
  let i := s.rd K.cascInstance
  if s.rd K.cascState = 0 || (s.inst i).stepOn then .next s else .next (s.cascCapture i)

/-- CTACK_TIMEOUT: a record is missing; the group is Held. -/
def execCtackTimeout (group missing : Fin 16) (s : State) : Out :=
  if !s.isMaster || s.cascM ≤ group || s.groupOf missing ≠ group || s.cascSize ≤ missing ||
      (s.rd K.cascState ≠ 3 && s.rd K.cascState ≠ 4) || (s.recordOf missing).isSome || s.casc.held.contains group.val then
    .next s
  else
    let s := { s with casc := { s.casc with held := s.casc.held ++ [group.val] } }
    .next ((s.wr K.cascState 4).logMg (s.rd K.cascInstance) 0x3008 1 0 noSlot group missing)

/-- HOLD_LIMIT_EXPIRY: a group Held too long goes to Unfitted; its requests end with status 0x0C. -/
def execHoldLimitExpiry (group : Fin 16) (s : State) : Out :=
  let i := s.rd K.cascInstance
  let own := s.groupOf s.me == group.val
  if s.rd K.cascState = 0 || !(s.casc.held.contains group.val || (own && !s.isMaster && (s.inst i).cascWait)) then .next s
  else
    let s := { s with casc := { s.casc with held := s.casc.held.filter fun g => g != group.val } }
    if own then
      let s := s.endInstance i 0x0C
      .next (s.cascUnfit 5 s.me)
    else
      let s := if s.casc.held.isEmpty && s.rd K.cascState == 4 then s.wr K.cascState 3 else s
      .next (s.logMg i 0x3002 2 5 noSlot 5 (s.leadOf group))

/-! ## Mastership and time (R487-R489) -/

/-- SWAP_REQUEST: a member's request reaches the master, which collects it. -/
def execSwapRequest (requester target : Fin 16) (s : State) : Out :=
  if !s.isMaster || s.rd K.cascState = 0 then .next s else .next (s.addSwap requester target)

/-- MASTER_LOSS: neither a time message nor a release for `master_loss_timeout`. The reachable members stand; with a quorum
the one with the lowest serial is master. -/
def execMasterLoss (reachable : List (Fin 16)) (s : State) : Out :=
  if s.isMaster || s.rd K.cascState = 0 then .next s
  else
    let all := s.me :: (reachable.map (·.val)).eraseDups.filter fun m => m != s.me && decide (m < s.cascSize)
    if s.cascSize < 2 * all.length ∧ s.rd K.masterEligible = 1 then
      let m := (sortBy (fun a b => decide (s.memberSerial a ≤ s.memberSerial b)) all).headD 16
      .next ((s.cascUnfit 0 s.me).setMaster m)
    else .next (s.cascUnfit 4 s.me)

/-- TIME_DISTRIBUTE: every 1 ms the master sends its time down the tree. -/
def execTimeDistribute (s : State) : Out :=
  if !s.isMaster || s.rd K.cascState = 0 then .next s
  else .next (s.sendDown 3 (s.rd K.ctackSeq) (leBytes 8 s.time))

/-- TIME_MESSAGE: a member takes its time from the master; the offset before that reads in `time_offset`. -/
def execTimeMessage (masterTime pathDelay : Nat) (s : State) : Out :=
  if s.isMaster || s.rd K.cascState = 0 then .next s
  else
    let t := masterTime + pathDelay
    let s := s.wrI K.timeOffset 64 ((s.time : Int) - t)
    let s := s.setWall t 1
    .next { s with casc := { s.casc with heardAt := s.time } }

/-! ## Aperture data and step plans (R484, R485) -/

/-- Port D of a router. -/
def portD : Nat := 5

/-- APERTURE_DATA (R19, R131, R484): the host-seam die, whose site the packets name as their source, injects the transfer into its router as multicast writes on tree `group`, in packets
of at most 4,096 bytes. -/
def execApertureData (sm : SeamId) (t : ApertureData) (s : State) : Out :=
  let i := s.rd K.cascInstance
  let site := hsSite (sm.val / 2)
  if s.rd K.cascState = 0 || !((s.inst i).panels.contains (hsPanel (sm.val / 2))) || (s.router site).failed then .next s
  else
    .next (s.each (List.range (ceilDiv t.data.length 4096)) fun s j =>
      s.inject site portD
        { kind := 3, vc := 1, inst := i, srcX := xOf site, srcY := yOf site, group := t.group.toNat, tag := t.tag.toNat, taint := t.taint,
          addr := t.addr.toNat + 4096 * j, payload := (t.data.drop (4096 * j)).take 4096 })

/-- CASCADE_STEP_PLAN: a member takes the lead's plan, or keeps it until the release. -/
def execCascadeStepPlan (plan : List Byte) (s : State) : Out :=
  let i := s.rd K.cascInstance
  if s.rd K.cascState = 0 || s.leadOf (s.groupOf s.me) == s.me then .next s
  else if (s.inst i).cascWait then .next { s with casc := { s.casc with plan := plan } }
  else .next (s.takePlan i plan)

/-! ## Broadcast and firmware passing (R492, R493) -/

/-- BROADCAST_BLOCK: the block goes on to this member's children; the load takes it from the stream (R333). -/
def execBroadcastBlock (offset : Nat) (block : List Byte) (s : State) : Out :=
  if s.rd K.cascState = 0 then .next s else .next (s.sendDown 0x20 offset block)

/-- RESEND_REQUEST: the master sends a shard again to the member that asks, or the firmware image from an offset on. The
shard's bytes come from the host window once more (log entry 29). -/
def execResendRequest (member : Fin 16) (r : ResendWhat) (s : State) : Out :=
  if !s.isMaster || s.rd K.cascState = 0 then .next s
  else match r with
    | .shard n => .next (s.logMg (s.rd K.cascInstance) 0x3009 0 0 noSlot member n)
    | .firmware o => .next (s.each (s.imageBlocks o) fun s b => s.sendMember member 0x22 b.1 b.2)

/-- FIRMWARE_BLOCK: a member writes the block to its update area and passes it on. -/
def execFirmwareBlock (offset : Nat) (block : List Byte) (s : State) : Out :=
  if s.rd K.cascState = 0 then .next s else .next ((s.fwBlock offset block).1.sendDown 0x22 offset block)

/-- BCAST_TIMEOUT: a load from the broadcast stream ends with code 0x2C, on the master, whose own source has then failed, with
code 0x28. -/
def execBcastTimeout (s : State) : Out :=
  .next (s.each ((List.range 12).filter fun i => (s.inst i).load.isSome && s.fromCascade i) fun s i =>
    s.loadFail i (if s.isMaster && s.rd K.cascState != 0 then 0x28 else 0x2C) 0)

end Sys2Proof.Machine
end

