-- ==== Sys2Proof/Machine/Zwiys.lean ====
section
/-! DEFINITION. The Zwiys protocol (R395-R410): messages, rights, reads, writes and what each written entry does, blob
transfer, basting, subscriptions. -/

namespace Sys2Proof.Machine

/-! ## Sessions and messages (R395, R398) -/

/-- Role of a session. -/
def sesRole : SessId → Role
  | .dtls _ | .mctp _ => .M
  | .pf _ => .H
  | .vf _ => .T
  | .casc => .C

/-- A mailbox session (R396). -/
def isMailbox : SessId → Bool
  | .pf _ | .vf _ => true
  | _ => false

/-- What a response carries beside the request's own fields. -/
structure ZAns where
  status : Nat
  type : Nat := 0
  payload : List Byte := []
  total : Nat := 0
deriving DecidableEq, Repr

/-- A message's bytes. -/
def msgBytes (op flags status requestId index sub type offset total : Nat) (payload : List Byte) : List Byte :=
  leBytes 1 1 ++ leBytes 1 op ++ leBytes 1 flags ++ leBytes 1 status ++ leBytes 4 requestId ++ leBytes 2 index ++
    leBytes 1 sub ++ leBytes 1 type ++ leBytes 4 offset ++ leBytes 2 payload.length ++ leBytes 2 0 ++ leBytes 4 total ++ payload

/-- The response to a message. -/
def responseBytes (m : ZMsg) (a : ZAns) : List Byte :=
  msgBytes m.op 4 a.status m.requestId.toNat m.index m.sub a.type m.offset a.total a.payload

/-- A request is malformed: `version`, `op`, `flags`, a reserved field, or a field that a request leaves 0. -/
def malformed (m : ZMsg) (op : Nat) : Bool :=
  m.version != 1 || m.op != op || bits m.flags.toNat 7 2 != 0 || m.status != 0 || m.type != 0 || m.reserved != 0 ||
    decide (1024 < m.length) || (op == 2 && m.length != m.payload.length) || (decide (2 < op) && m.offset != 0)

/-- Send a response on its session: a mailbox shows it and sends its vector (R396); DTLS and the others send it, DTLS keeping
it for a repeat (R401). -/
def State.respond (s : State) (ses : SessId) (m : ZMsg) (b : List Byte) : State :=
  let n := sesNo ses
  match ses with
  | .pf p => (s.modSes n fun x => { x with busy := false, ready := true, request := none, response := b }).message (pfOf p) 0
  | .vf v =>
    let s := s.modSes n fun x => { x with busy := false, ready := true, request := none, response := b }
    if s.rd (K.slotState v) = 0 ∧ s.rd (K.epoch v) ≠ 0 then s else s.message (vfOf v) 5
  | .dtls _ =>
    let c := (s.ses n).cert
    let mine := (s.kept.filter fun k => k.1 == c).take 63
    let s := { s with kept := (c, m.requestId.toNat, b) :: s.kept.filter fun k => k.1 != c || mine.contains k }
    s.send (chanSes ses) b
  | _ => s.send (chanSes ses) b

/-- The kept response that a request matches (R401). -/
def State.keptFor (s : State) (ses : SessId) (m : ZMsg) : Option (List Byte) :=
  match ses with
  | .dtls n => (s.kept.find? fun k => k.1 == (s.ses n).cert && k.2.1 == m.requestId.toNat).map (·.2.2)
  | _ => none

/-- The session can carry a request: a DTLS session that is open, a cascade that is configured. -/
def State.carries (s : State) : SessId → Bool
  | .dtls n => (s.ses n).isOpen
  | .casc => s.rd K.cascState != 0
  | _ => true

/-- Handle a request: a repeat gets the kept response and is not executed again; a malformed one is refused; any other is
carried out by `f` and answered. -/
def State.handle (s : State) (ses : SessId) (m : ZMsg) (op : Nat) (f : State → State × ZAns) : State :=
  if !s.carries ses then s
  else
    match s.keptFor ses m with
    | some b => s.send (chanSes ses) b
    | none =>
      let r := if malformed m op then (s, { status := 7 }) else f s
      r.1.respond ses m (responseBytes m r.2)

/-! ## Rights (R397, R400) -/

/-- Instance that the entries of an index belong to. -/
def instOfIndex (idx : Nat) : Option Nat :=
  [0x4000, 0x4200, 0x6010, 0x6100, 0x4110].findSome? fun b => if b ≤ idx ∧ idx < b + 12 then some (idx - b) else none

/-- What T may see: its own slot's entries, and entries that list T of its slot's instance or of none. -/
def State.seenByT (s : State) (slot idx : Nat) (r : DictRow) : Bool :=
  if 0x5000 ≤ idx ∧ idx < 0x5200 then idx == 0x5000 + slot
  else r.roles.contains .T && match instOfIndex idx with
    | none => true
    | some i => s.slotBound slot i

/-- The entry that a message names, as the session sees it. -/
def State.entryFor (s : State) (ses : SessId) (m : ZMsg) : Option DictRow :=
  match dictRow m.index m.sub, ses with
  | some r, .vf n => if s.seenByT n m.index r then some r else none
  | r, _ => r

/-- Run `f` on the entry that the message names, when it exists and the role is listed. -/
def State.withEntry (s : State) (ses : SessId) (m : ZMsg) (f : DictRow → State × ZAns) : State × ZAns :=
  match s.entryFor ses m with
  | none => (s, { status := 1 })
  | some r => if r.roles.contains (sesRole ses) then f r else (s, { status := 2, type := r.ty.code })

/-! ## Reading (R398, R402, R408, R414) -/

/-- A session's own baste entries. -/
def Ses.basteEntry (x : Ses) (sub : Nat) : Nat :=
  if sub = 1 then x.baste.length
  else if sub = 4 then (if x.commitState = 2 then 2 else if x.baste.isEmpty then x.commitState else 1)
  else if sub = 5 then x.commitResult
  else if sub = 6 then x.commitSeq
  else if sub = 7 then x.scope
  else x.commitTime

/-- `log_data` from an offset on. -/
def State.logData (s : State) (offset n : Nat) : List Byte :=
  (List.range n).map fun k =>
    match s.log.find? fun e => e.seq % 2 ^ 27 == (offset + k) / 32 with
    | some e => e.bytes.getD ((offset + k) % 32) 0
    | none => 0

/-- The value of an entry as a session reads it. -/
def State.valueFor (s : State) (ses : SessId) (r : DictRow) (key : Nat) : List Byte :=
  if key / 256 = 0x1200 ∧ key ≠ K.basteTimeout then leBytes (r.ty.bits / 8) ((s.ses (sesNo ses)).basteEntry (key % 256))
  else s.entryBytes r key

/-- READ: the value; of a BLOB the block at the offset. -/
def State.zread (s : State) (ses : SessId) (m : ZMsg) : State × ZAns :=
  s.withEntry ses m fun r =>
    let key := m.index * 256 + m.sub
    let c := r.ty.code
    if r.acc = .wo then (s, { status := 2, type := c })
    else if r.ty ≠ .blob ∧ m.offset ≠ 0 then (s, { status := 7, type := c })
    else if key = K.logData then
      (s, { status := 0, type := c, total := 2 ^ 32, payload := s.logData m.offset (min m.length (2 ^ 32 - m.offset)) })
    else
      let q := if key = K.dbgChallenge then s.newNonce else (if key / 256 / 16 = 0xA10 ∧ key % 256 = 3 then s.freeStep else s, s.valueFor ses r key)
      let v := q.2
      if r.ty.bytes then
        (q.1, { status := 0, type := c, total := v.length,
                payload := if r.ty = .blob then (v.drop m.offset).take m.length else v })
      else (q.1, { status := 0, type := c, payload := v })

/-- READ (R398, R402). -/
def execRead (ses : SessId) (m : ZMsg) (s : State) : Out := .next (s.handle ses m 1 fun s => s.zread ses m)

/-! ## What a written entry does -/

/-- The state that a command's meaning leads to. -/
def State.after (s : State) (o : Out) : State :=
  match o with
  | .next t => t
  | _ => s

/-- `inst_cmd` (R325). CLEAR_FAULT acts as the command of its own that carries the muslin run's results (log entry 41);
LOAD is refused under test enable (R509). -/
def State.instCommand (s : State) (i : InstId) (v : Nat) : State × Nat :=
  if v = 1 then (s.after (execForm i s), 0)
  else if v = 2 then (s.after (execDissolve i s), 0)
  else if v = 3 then (if s.rd K.testEnable = 1 then (s, 5) else (s.after (execLoad i s), 0))
  else if v = 4 then (s.after (execUnload i s), 0)
  else if v = 5 then (s.after (execInstanceStop i s), 0)
  else if v = 6 then (s.after (execResume i s), 0)
  else if v = 7 then (s, 0)
  else (s.after (execAbortLoad i s), 0)

/-- `slot_cmd` (R351): T may write RESET only. ENABLE is refused under test enable (R509). -/
def State.slotCommand (s : State) (n : SlotId) (v : Nat) (role : Role) : State × Nat :=
  if role = .T ∧ v ≠ 3 then (s.wr (K.slotCmdResult n) 2, 0)
  else if v = 1 then (if s.rd K.testEnable = 1 then (s, 5) else (s.after (execEnable n s), 0))
  else if v = 2 then (s.after (execDisable n s), 0)
  else (s.after (execSlotReset n s), 0)

/-- Instance at whose tack a direct write of an entry takes effect (R280, R320, R370), none when at once. -/
def State.tackFor (s : State) (idx sub : Nat) : Option Nat :=
  let at_ := fun i : Nat => if s.ready i then some i else none
  if 0x5000 ≤ idx ∧ idx < 0x5200 ∧ sub ∈ [7, 8, 9, 0xA, 0xB, 0x10, 0x11] then
    let i := s.rd (K.slotInstance (idx - 0x5000))
    if s.slotBound (idx - 0x5000) i then at_ i else none
  else if 0x6010 ≤ idx ∧ idx < 0x601C ∧ 2 ≤ sub ∧ sub ≤ 6 then at_ (idx - 0x6010)
  else if 0x6100 ≤ idx ∧ idx < 0x610C ∧ 4 ≤ sub ∧ sub ≤ 6 then at_ (idx - 0x6100)
  else none

/-- Store an entry's value, or leave it pending until the tack at which it takes effect. -/
def State.storeAt (s : State) (key : Nat) (b : List Byte) : State :=
  match s.tackFor (key / 256) (key % 256) with
  | some i => s.change i (.entry key (leNat b))
  | none => s.storeEntry key b

/-- Entries of the instances, the alteration stores and the slots that act when written. -/
def State.writeUnit (s : State) (role : Role) (key v : Nat) (b : List Byte) : State × Nat :=
  let idx := key / 256
  let sub := key % 256
  if 0x4000 ≤ idx ∧ idx < 0x400C then
    let i : InstId := Fin.ofNat 12 (idx - 0x4000)
    if sub = 4 then s.instCommand i v
    else if sub = 0x30 then s.recipeWrite i b (role == .C)
    else if sub = 0x35 then (s.change i (.precClear v), 0)
    else (s.storeAt key b, 0)
  else if 0x4200 ≤ idx ∧ idx < 0x420C then
    let i : InstId := Fin.ofNat 12 (idx - 0x4200)
    if sub = 3 then (s.after (if v = 1 then execStore i s else execDelete i s), 0) else (s.storeAt key b, 0)
  else
    let n : SlotId := Fin.ofNat 512 (idx - 0x5000)
    if sub = 2 then s.slotCommand n v role
    else if sub = 0xE then
      (if s.rd (K.slotState n) = 1 ∨ s.rd (K.slotState n) = 3 then (s, 5) else (s.after (execFrpKeyWrite n b s), 0))
    else if sub = 0xF then (s.after (execAltBindingWrite n (BitVec.ofNat 16 v) s), 0)
    else if sub = 0x2B then (s.after (execAcctClear n s), 0)
    else (s.storeAt key b, 0)

/-- Entries of the core, panel, seam, snapshot and external units that act when written. The retrains of PCIe and Ethernet links and
`vmin_clear` act as commands of their own that carry what the link or the rail then shows (log entry 41). -/
def State.writeLocal (s : State) (key v : Nat) (b : List Byte) : State × Nat :=
  let idx := key / 256
  let sub := key % 256
  if 0x3100 ≤ idx ∧ idx < 0x35B0 then
    let c : CoreId := Fin.ofNat 1200 (idx - 0x3100)
    if sub = 7 then (s.after (execCoreRetire c s), 0)
    else if (s.core c).addrValid then (s, 5) else (s.after (execCoreUnretire c s), 0)
  else if 0x7010 ≤ idx ∧ idx < 0x7020 then (s.seamRetrain (idx - 0x7010), 0)
  else if 0x9020 ≤ idx ∧ idx < 0x902C then s.snapReq (idx - 0x9020)
  else if 0xA050 ≤ idx ∧ idx < 0xA060 ∧ sub = 7 then (s.after (execRetrain (Fin.ofNat 16 (idx - 0xA050)) s), 0)
  else if 0xA060 ≤ idx ∧ idx < 0xA068 ∧ sub = 9 then (s, 0)
  else if 0xA068 ≤ idx ∧ idx < 0xA06C ∧ sub = 0xA then (s, 0)
  else if 0x2100 ≤ idx ∧ idx < 0x222C then (s, 0)
  else if 0xA100 ≤ idx ∧ idx < 0xA108 ∧ sub = 1 then (s.pinFunc (idx - 0xA100) v, 0)
  else (s.storeAt key b, 0)

/-- A direct write of an entry whose shape and range are good: what it does, and its status. `reset_cmd` 2 and 3 act after the
response (R472). -/
def State.applyWrite (s : State) (role : Role) (key : Nat) (b : List Byte) : State × Nat :=
  let v := leNat b
  let idx := key / 256
  let st := if 0x4000 ≤ idx ∧ idx < 0x400C ∧ key % 256 = 0x30 then 0 else s.entryRule key v b
  if st ≠ 0 then (s, st)
  else if (0x4000 ≤ idx ∧ idx < 0x400C) ∨ (0x4200 ≤ idx ∧ idx < 0x420C) ∨ (0x5000 ≤ idx ∧ idx < 0x5200) then
    s.writeUnit role key v b
  else if key = K.pwrEnable then ({ s.wr key v with power := { s.power with source := 1 } }, 0)
  else if key = K.vMargin then
    let s := s.wr key v
    (if s.rd K.pwrState = 2 then s.setVolts (List.range 300) (s.rd K.mclkNow) else s, 0)
  else if key = K.mclkSet then (s.after (execMclkSet (BitVec.ofNat 32 v) s), 0)
  else if key = K.hzMode then (s.after (execHzModeWrite (BitVec.ofNat 8 v) s), 0)
  else if key = K.clientTable then ((s.wrBlob key b).closeUnlisted, 0)
  else if key = K.alertClear then (s.after (execAlertClear (BitVec.ofNat 32 v) s), 0)
  else if key = K.ccClear then (s.after (execCcClear s), 0)
  else if key = K.cascCmd then (s.cascCmd v, 0)
  else if key = K.fwCmd then s.fwCmd v role
  else if key = K.keyCmd then s.keyUpdate
  else if key = K.dbgResponse then s.debugResponse b
  else if key = K.resetCmd then (s, 0)
  else s.writeLocal key v b

/-- `reset_cmd` 2 and 3, once the response is out; a compute reset acts as the command of its own that carries the muslin
run's results (log entry 41). -/
def State.afterWrite (s : State) (key v : Nat) : State :=
  if key ≠ K.resetCmd then s
  else if v = 2 then s.after (execMgCoreReset s)
  else if v = 3 then s.after (execDeviceReset s)
  else s

/-! ## Basting (R403-R408) -/

/-- Scope of an entry. -/
def State.scopeOf (s : State) (idx : Nat) : Nat :=
  if 0x5000 ≤ idx ∧ idx < 0x5200 then
    let n := idx - 0x5000
    let i := s.rd (K.slotInstance n)
    if s.slotBound n i ∧ i < 12 then i else 0xFF
  else
    ([0x4000, 0x4200, 0x6010, 0x6100].findSome? fun b => if b ≤ idx ∧ idx < b + 12 then some (idx - b) else none).getD 0xFF

/-- Stage a valid write; its status. -/
def State.stage (s : State) (ses : SessId) (key : Nat) (b : List Byte) : State × Nat :=
  let n := sesNo ses
  let x := s.ses n
  let sc := s.scopeOf (key / 256)
  let rest := x.baste.filter fun e => e.1 != key
  let held := x.baste.any fun e => e.1 == key
  let size := (rest.map fun e => e.2.length).sum + b.length
  if !x.baste.isEmpty && x.scope != sc then (s, 0xB)
  else if (!held && decide (256 ≤ x.baste.length)) || decide (65536 < size) then (s, 0xA)
  else
    let set := if held then x.baste.map fun (e : Nat × List Byte) => if e.1 = key then (key, b) else e else x.baste ++ [(key, b)]
    (s.setSes n { x with baste := set, scope := sc }, 0)

/-- The set is emptied. -/
def Ses.dropBaste (x : Ses) : Ses := { x with baste := [], scope := 0xFE }

/-- A committed set of device scope: every state condition is checked now, then every entry is written. -/
def State.commitDevice (s : State) (ses : SessId) (es : List (Nat × List Byte)) : State :=
  let n := sesNo ses
  match es.find? fun e => s.entryRule e.1 (leNat e.2) e.2 != 0 with
  | some e =>
    let res := e.1 / 256 + 2 ^ 16 * (e.1 % 256) + 2 ^ 24 * s.entryRule e.1 (leNat e.2) e.2
    let s := s.modSes n fun x => { x with commitState := 4, commitResult := res, commitTime := s.time }
    s.logMg noInst 0x0102 1 0 noSlot res (s.ses n).commitSeq
  | none =>
    let s := s.each es fun s e => (s.applyWrite (sesRole ses) e.1 e.2).1
    let s := s.modSes n fun x => { x with
      commitState := 3, commitResult := 0, commitSeq := (x.commitSeq + 1) % 2 ^ 32, commitTime := s.time }
    s.logMg noInst 0x0102 0 0 noSlot 0 (s.ses n).commitSeq

/-- A write of `commit`; its status. -/
def State.commitSet (s : State) (ses : SessId) : State × Nat :=
  let n := sesNo ses
  let x := s.ses n
  let shared := x.baste.any fun e => (List.range 12).any fun i => e.1 == K.recipeSelect i && s.recipeShared i
  if x.commitState = 2 then (s, 0xC)
  else if x.baste.isEmpty then (s, 0)
  else if shared && sesRole ses != .C then (s, 0xE)
  else
    let es := x.baste
    let s := s.setSes n { x.dropBaste with commitState := 2 }
    if x.scope = 0xFF then (s.commitDevice ses es, 0)
    else if s.rd (K.instState x.scope) = 0 then (s.commitAt x.scope ses es, 0)
    else (s.change x.scope (.commit ses es), 0)

/-- A write of `discard`; its status. -/
def State.discardSet (s : State) (ses : SessId) : State × Nat :=
  let x := s.ses (sesNo ses)
  if x.commitState = 2 then (s, 0xC) else (s.setSes (sesNo ses) x.dropBaste, 0)

/-! ## Writing (R399, R400, R402) -/

/-- The entry is block-addressed. -/
def blockAddressed (key : Nat) : Bool :=
  key == K.fwData || key == K.keyPkg || (decide (0x4200 ≤ key / 256) && decide (key / 256 < 0x420C) && key % 256 == 2)

/-- A block of a block-addressed entry lands at its offset. -/
def State.blockWrite (s : State) (key offset : Nat) (b : List Byte) : State × Nat :=
  if key = K.fwData then s.fwBlock offset b
  else if key = K.keyPkg then
    let p := s.sec.pkg
    ({ s with sec := { s.sec with pkg := slice p 0 offset ++ b ++ p.drop (offset + b.length) } }, 0)
  else (s.blobPut key offset b, 0)

/-- A whole value: staged, or written; its status. `commit` and `discard` act on the session's set. -/
def State.wholeWrite (s : State) (ses : SessId) (r : DictRow) (key : Nat) (baste : Bool) (b : List Byte) : State × Nat :=
  let v := leNat b
  if r.shape b ≠ 0 then (s, r.shape b)
  else if baste then
    let st := s.entryRule key v b
    let recipe := (List.range 12).any fun i => key == K.recipeSelect i
    if st = 4 ∨ st = 6 ∨ (recipe ∧ st ≠ 0) then (s, st) else s.stage ses key b
  else if key = K.commit then s.commitSet ses
  else if key = K.discard then s.discardSet ses
  else s.applyWrite (sesRole ses) key b

/-- A block of a whole-value BLOB: it collects in the session's buffer until the block with `last`. -/
def State.blobBlock (s : State) (ses : SessId) (r : DictRow) (m : ZMsg) : State × Nat :=
  let key := m.index * 256 + m.sub
  let n := sesNo ses
  let old := match (s.ses n).blob with
    | some (k, b) => if k = key then some b else none
    | none => some []
  match old with
  | none => (s, 0xD)
  | some o =>
    let b := slice o 0 m.offset ++ m.payload ++ o.drop (m.offset + m.payload.length)
    let b := if m.payload.isEmpty then o else b
    if bit m.flags.toNat 1 then
      (s.modSes n fun x => { x with blob := none }).wholeWrite ses r key (bit m.flags.toNat 0) b
    else (s.modSes n fun x => { x with blob := some (key, b) }, 0)

/-- WRITE: rights, then the value. -/
def State.zwrite (s : State) (ses : SessId) (m : ZMsg) : State × ZAns :=
  s.withEntry ses m fun r =>
    let key := m.index * 256 + m.sub
    let c := r.ty.code
    let baste := bit m.flags.toNat 0
    let say := fun (q : State × Nat) => (q.1, ({ status := q.2, type := c } : ZAns))
    if baste ∧ (sesRole ses = .T ∨ r.acc ≠ .rw ∨ blockAddressed key) then say (s, 9)
    else if r.acc = .ro ∨ r.acc = .const then say (s, 3)
    else if r.ty ≠ .blob then
      (if m.offset ≠ 0 then say (s, 7) else say (s.wholeWrite ses r key baste m.payload))
    else if r.max < m.offset + m.payload.length then say (s, 0xD)
    else if blockAddressed key then say (s.blockWrite key m.offset m.payload)
    else say (s.blobBlock ses r m)

/-- A WRITE with what follows its response. -/
def State.writeMsg (s : State) (ses : SessId) (m : ZMsg) : State :=
  let t := s.handle ses m 2 fun s => s.zwrite ses m
  let go := s.carries ses && (s.keptFor ses m).isNone && !malformed m 2 && (s.zwrite ses m).2.status == 0
  if go then t.afterWrite (m.index * 256 + m.sub) (leNat m.payload) else t

/-- WRITE (R398-R402). -/
def execWrite (ses : SessId) (m : ZMsg) (s : State) : Out := .next (s.writeMsg ses m)

/-- BASTE (R403-R405): a WRITE with `baste` set. -/
def execBaste (ses : SessId) (m : ZMsg) (s : State) : Out :=
  if bit m.flags.toNat 0 then .next (s.handle ses m 2 fun s => s.zwrite ses m) else .next s

/-- COMMIT (R406): a WRITE of 1 to `commit`. -/
def execCommit (ses : SessId) (m : ZMsg) (s : State) : Out :=
  if m.index * 256 + m.sub = K.commit then .next (s.handle ses m 2 fun s => s.zwrite ses m) else .next s

/-- DISCARD (R407): a WRITE of 1 to `discard`. -/
def execDiscard (ses : SessId) (m : ZMsg) (s : State) : Out :=
  if m.index * 256 + m.sub = K.discard then .next (s.handle ses m 2 fun s => s.zwrite ses m) else .next s

/-- BASTE_TIMEOUT (R407): a set that is not committed is emptied. -/
def execBasteTimeout (ses : SessId) (s : State) : Out := .next (s.modSes (sesNo ses) Ses.dropBaste)

/-- BLOB_BUFFER_TIMEOUT (R402). -/
def execBlobBufferTimeout (ses : SessId) (s : State) : Out :=
  .next (s.modSes (sesNo ses) fun x => { x with blob := none })

/-! ## Subscriptions (R409) -/

/-- No subscription on this session: a mailbox, or T. -/
def noSubs (ses : SessId) : Bool := isMailbox ses

/-- SUBSCRIBE of the entry that a message names. -/
def State.subscribe (s : State) (ses : SessId) (m : ZMsg) : State × ZAns :=
  if noSubs ses then (s, { status := 0xF })
  else
    s.withEntry ses m fun r =>
      let x := s.ses (sesNo ses)
      let c := r.ty.code
      let key := m.index * 256 + m.sub
      if r.acc = .wo then (s, { status := 2, type := c })
      else if 60000 < m.total then (s, { status := 4, type := c })
      else if 64 ≤ x.subs.length then (s, { status := 0xF, type := c })
      else
        let sub : Subscr := { number := m.requestId.toNat, index := m.index, sub := m.sub, period := m.total,
                              last := s.valueFor ses r key }
        (s.setSes (sesNo ses) { x with subs := x.subs ++ [sub] }, { status := 0, type := c })

/-- SUBSCRIBE (R409). -/
def execSubscribe (ses : SessId) (m : ZMsg) (s : State) : Out := .next (s.handle ses m 3 fun s => s.subscribe ses m)

/-- UNSUBSCRIBE by number. -/
def State.unsubscribe (s : State) (ses : SessId) (m : ZMsg) : State × ZAns :=
  let x := s.ses (sesNo ses)
  let mine := fun (y : Subscr) => y.number == m.requestId.toNat
  if noSubs ses || !x.subs.any mine then (s, { status := 0xF })
  else (s.setSes (sesNo ses) { x with subs := x.subs.filter fun y => !mine y }, { status := 0 })

/-- UNSUBSCRIBE (R409). -/
def execUnsubscribe (ses : SessId) (m : ZMsg) (s : State) : Out :=
  .next (s.handle ses m 4 fun s => s.unsubscribe ses m)

/-- NOTIFY (R409): the value, or for `log_head` on change the newest log entry; with the queue full it is lost and counted,
and the count rises all the same. -/
def execNotify (ses : SessId) (subscription : Nat) (queueFull : Bool) (s : State) : Out :=
  let n := sesNo ses
  let x := s.ses n
  match x.subs.find? fun y => y.number == subscription with
  | none => .next s
  | some y =>
    match dictRow y.index y.sub with
    | none => .next s
    | some r =>
      let key := y.index * 256 + y.sub
      let v := s.valueFor ses r key
      if y.period = 0 ∧ v = y.last then .next s
      else
        let upd := fun (y : Subscr) =>
          if y.number = subscription then { y with count := y.count + 1, last := if queueFull then y.last else v } else y
        let s := s.setSes n { x with subs := x.subs.map upd }
        if queueFull then .next (s.bump K.notifyLost 32 1)
        else
          let entry := y.period == 0 && key == K.logHead
          let p := if entry then (s.log.head?.map LogEntry.bytes).getD [] else v.take 1024
          let id := y.number % 65536 + 65536 * (y.count % 65536)
          let total := if r.ty.bytes then v.length else 0
          .next (s.send (chanSes ses) (msgBytes 5 0 0 id y.index y.sub r.ty.code 0 total p))

/-! ## Mailboxes and kept responses (R396, R401) -/

/-- MBX_DOORBELL (R396): the request buffer is taken; the request is carried out as the command of its operation. While
`busy` the doorbell is ignored and counted. -/
def execMbxDoorbell (mb : SessId) (value : Word64) (m : ZMsg) (s : State) : Out :=
  if !isMailbox mb then .next s
  else if (s.ses (sesNo mb)).busy then .next (s.bump K.mbxIgnored 32 1)
  else if value ≠ 1#64 then .next s
  else .next (s.modSes (sesNo mb) fun x => { x with busy := true, ready := false, request := some m })

/-- RESPONSE_CACHE_EXPIRY (R401). -/
def execResponseCacheExpiry (client : List Byte) (requestId : Nat) (s : State) : Out :=
  .next { s with kept := s.kept.filter fun k => !(k.1 == client && k.2.1 == requestId) }

end Sys2Proof.Machine
end

