-- ==== Sys2Proof/Machine/Clock.lean ====
section
/-! DEFINITION. What passing time does by itself (R28, R159, R412, R414, R416): one nanosecond. It is what a step with no
command waiting does (log entry 1). -/

namespace Sys2Proof.Machine

/-- The log's message that was held back by its moderation goes out once 1 ms has passed since the last one (R416). -/
def State.heldMessage (s : State) : State :=
  match s.logMsgHeld, s.logMsgAt with
  | true, some t =>
    if t + 1000000 ≤ s.uptime then { s.messagePfs 1 with logMsgAt := some s.uptime, logMsgHeld := false } else s
  | _, _ => s

/-- A metadata word of a physical engine reads with an error from now on; the gusset's slots hold the copies it serves from,
one after another (R41, R58). -/
def EngState.hitMd (x : EngState) (word v : Nat) : EngState :=
  if x.copies.isEmpty then { x with mdErr := mapSet (fun _ => 0) x.mdErr word v }
  else { x with copies := x.copies.modify (word / 2560) fun g => { g with mdErr := mapSet (fun _ => 0) g.mdErr (word % 2560) v } }

/-- What an upset changes in its core (log entry 1). -/
def Core.hit (k : Core) : Config.Upset → Core
  | .hbm _ _ => k
  | .istore _ w => { k with istoreBad := if k.istoreBad.contains (w % 32768) then k.istoreBad else k.istoreBad ++ [w % 32768] }
  | .metadata _ e w bad => k.setEng (e % 9) ((k.engOf (e % 9)).hitMd (w % 1310720) (1 + b2n bad))
  | .lining _ e a v => k.setEng (e % 9) { k.engOf (e % 9) with lining := memPut (k.engOf (e % 9)).lining (a % 41943040) v }
  | .muslin _ e a v => k.setEng (e % 9) { k.engOf (e % 9) with muslin := mapSet Config.muslinByte (k.engOf (e % 9)).muslin (a % 32768) v }
  | .scratchpad _ w bad =>
    if bad then { k with poison := mapSet (fun _ => false) k.poison (w % 786432) true }
    else { k with spFlip := mapSet (fun _ => false) k.spFlip (w % 786432) true }

/-- Core that an upset strikes. -/
def upsetCore : Config.Upset → Nat
  | .hbm _ _ => 0
  | .istore c _ | .metadata c _ _ _ | .lining c _ _ _ | .muslin c _ _ _ | .scratchpad c _ _ => c % 1200

/-- The upset, if any, that strikes the device now. -/
def State.upset (s : State) : State :=
  match Config.upset s.uptime with
  | none => s
  | some (.hbm w bad) =>
    let w := w % 2 ^ 37
    { s with
      hbmErr := mapSet (fun _ => 0) s.hbmErr w (1 + b2n bad)
      hbmPoison := if bad then mapSet (fun _ => false) s.hbmPoison w true else s.hbmPoison }
  | some u => s.modCore (upsetCore u) fun k => k.hit u

/-- One nanosecond: the TIME64 counter and `uptime` count it, MCLK advances by its frequency in millionths of a cycle. A cell may be struck in it. -/
def State.tick (s : State) : State :=
  (State.heldMessage
    { s with
      time := (s.time + 1) % 2 ^ 64
      uptime := (s.uptime + 1) % 2 ^ 64
      mclkAcc := s.mclkAcc + s.rd K.mclkNow }).upset

end Sys2Proof.Machine
end

