-- ==== Sys2Proof/Machine/Bars.lean ====
section
/-! DEFINITION. What the BARs of the PCIe functions read (R285, R375-R377, R396), as 64-bit words at byte offsets. No command
reads a BAR: these are the host's views of the state. -/

namespace Sys2Proof.Machine

/-- SQ_CFG or CQ_CFG of a ring (R285). -/
def Ring.cfgWord (r : Ring) : Nat := pack [(r.sizeLog2, 0), (b2n r.enable, 8), (b2n r.error, 9)]

/-- The ring register block of a slot (R285); SQ_TAIL is write-only. -/
def State.ringWord (s : State) (slot off : Nat) : Nat :=
  let x := s.slot slot
  if off = 0x00 then x.sq.base else if off = 0x08 then x.sq.cfgWord else if off = 0x18 then x.sq.head
  else if off = 0x20 then x.cq.base else if off = 0x28 then x.cq.cfgWord else if off = 0x30 then x.cq.head
  else if off = 0x38 then x.cq.tail else 0

/-- A message as it stands in a request buffer (R398). -/
def ZMsg.bytes (m : ZMsg) : List Byte :=
  leBytes 1 m.version ++ leBytes 1 m.op ++ leBytes 1 m.flags.toNat ++ leBytes 1 m.status ++ leBytes 4 m.requestId.toNat ++
  leBytes 2 m.index ++ leBytes 1 m.sub ++ leBytes 1 m.type ++ leBytes 4 m.offset ++ leBytes 2 m.length ++ leBytes 2 m.reserved ++
  leBytes 4 m.total ++ m.payload

/-- A mailbox, relative to its base (R396). -/
def Ses.word (x : Ses) (off : Nat) : Nat :=
  if off = 0x208 then b2n x.busy + 2 * b2n x.ready
  else if 0x1000 ≤ off ∧ off < 0x1800 then leAt ((x.request.map ZMsg.bytes).getD []) (off - 0x1000) 8
  else if 0x1800 ≤ off ∧ off < 0x2000 then leAt x.response (off - 0x1800) 8
  else 0

/-- The MSI-X table of a function with n vectors, from its start: address, then data and vector control, whose bit 0 masks. -/
def Fn.msixWord (x : Fn) (n off : Nat) : Nat :=
  let v := off / 16
  let e := mapGet (fun _ => 0) x.msix v
  if n ≤ v then 0 else if off % 16 = 0 then bits e 63 0 else bits e 95 64 + 2 ^ 32 * b2n !(x.unmasked.getLsbD v)

/-- BAR0 of the virtual function that serves a slot: its 64-bit word at a multiple of 8; reserved offsets read 0 (R375). -/
def State.vfWord (s : State) (slot off : Nat) : Nat :=
  let x := s.fn (vfOf slot)
  if off % 8 ≠ 0 then 0
  else if off < 0x40 then s.ringWord slot off
  else if 0x100 ≤ off ∧ off < 0x180 then s.swinReg slot ((off - 0x100) / 16) (off % 16 == 8)
  else if 0x200 ≤ off ∧ off < 0x2000 then (s.ses (64 + slot)).word off
  else if 0x2000 ≤ off ∧ off < 0x2080 then x.msixWord 8 (off - 0x2000)
  else if off = 0x3000 then x.pba.toNat % 2 ^ 8
  else 0

/-- The port-status copy (R375): entry s of 0xA060 + n at 8 × s, zero-extended; write-only entries and offsets with no entry
read 0. -/
def State.portWord (s : State) (n sub : Nat) : Nat :=
  match dictRow (0xA060 + n) sub with
  | some r => if r.acc = .wo ∨ r.ty.bytes then 0 else s.mirror ((0xA060 + n) * 256 + sub) % 2 ^ 64
  | none => 0

/-- An entry of the window table as it reads, by its four words (R376): `in_use` is computed. -/
def State.winTabWord (s : State) (w k : Nat) : Nat :=
  if k = 2 then s.winWord w 2 + 2 ^ 13 * b2n ((s.window w).valid && s.windowInUse w) else s.winWord w k

/-- BAR0 of the physical function of port n: its 64-bit word at a multiple of 8 (R375). -/
def State.pfWord (s : State) (n off : Nat) : Nat :=
  let x := s.fn (pfOf n)
  if off % 8 ≠ 0 then 0
  else if off < 0x800 then s.portWord n (off / 8)
  else if 0x1000 ≤ off ∧ off < 0x3000 then (s.ses (24 + n)).word (off - 0x1000)
  else if 0x4000 ≤ off ∧ off < 0x4100 then x.msixWord 16 (off - 0x4000)
  else if off = 0x5000 then x.pba.toNat
  else if 0x10000 ≤ off ∧ off < 0x11000 then s.winTabWord (128 * n + (off - 0x10000) / 32) (off % 32 / 8)
  else 0

end Sys2Proof.Machine
end

