-- ==== Sys2Proof/Machine/Frp.lean ====
section
/-! DEFINITION. The Fjarnik Request Protocol as the device receives it (R293-R295, R350). Sequence numbers of an
association start at 0 in both directions (log entry 33). -/

namespace Sys2Proof.Machine

/-! ## Receiving (R293, R295) -/

/-- The datagram passes R293: version, slot enabled for FRP, and its tag under the slot's key. -/
def State.frpGood (s : State) (d : FrpDatagram) : Bool :=
  d.version == 1 && decide (d.slot < 512) && bit (s.rd (K.transport d.slot)) 1 && s.rd (K.slotState d.slot) != 0 &&
    match (s.slot d.slot).frpKey with
    | some k => decide (d.seq < 2 ^ 63) && Config.gcmOk k (leBytes 4 d.assoc ++ leBytes 8 d.seq) (d.header ++ d.body) d.tag
    | none => false

/-- The association a datagram belongs to, opened by its first one; the port it came by serves it from now on (R379). -/
def State.frpTouch (s : State) (d : FrpDatagram) : State :=
  match s.assoc d.slot d.assoc with
  | some _ => s.modAssoc d.slot d.assoc fun a => { a with port := d.port }
  | none => s.modSlot d.slot fun x => { x with assocs := x.assocs ++ [{ assoc := d.assoc, port := d.port }] }

/-- The client has acknowledged a datagram of the device. -/
def ackedBy (d : FrpDatagram) (o : FrpOut) : Bool :=
  decide (o.seq < d.ack) || (decide (d.ack < o.seq) && decide (o.seq ≤ d.ack + 32) && d.ackMap.getLsbD (o.seq - d.ack - 1))

/-- A TOKENS datagram of the device has been acknowledged: its request's tokens of that range are. -/
def State.noteAcked (s : State) (slot : Nat) (o : FrpOut) : State :=
  if o.type = 0x10 then
    s.modReq slot (leAt o.body 0 8) fun r => { r with acked := (leAt o.body 8 4, leAt o.body 12 4) :: r.acked }
  else s

/-- Take in the acknowledgements that a datagram carries. -/
def State.frpAcks (s : State) (d : FrpDatagram) : State :=
  match s.assoc d.slot d.assoc with
  | none => s
  | some a =>
    let s := s.each (a.out.filter (ackedBy d)) fun s o => s.noteAcked d.slot o
    s.modAssoc d.slot d.assoc fun a => { a with out := a.out.filter fun o => !ackedBy d o }

/-- Next sequence number expected once those received beyond it are counted. -/
def runOn : Nat → Nat → List Nat → Nat
  | 0, n, _ => n
  | fuel + 1, n, l => if l.contains n then runOn fuel (n + 1) l else n

/-- A sequenced datagram arrives: the association with it counted, and whether it is new. -/
def Assoc.receive (a : Assoc) (seq : Nat) : Assoc × Bool :=
  let fresh := decide (a.expect ≤ seq) && !a.beyond.contains seq
  let got := if fresh then seq :: a.beyond else a.beyond
  let e := runOn got.length a.expect got
  ({ a with expect := e, beyond := got.filter fun n => decide (e < n), ackDue := true }, fresh)

/-- Receive a sequenced datagram; when it is good and new, `act` is what it asks for. -/
def State.frpReceive (s : State) (d : FrpDatagram) (act : State → State) : State :=
  if !s.frpGood d then s.bump K.frpBad 64 1
  else
    let s := (s.frpTouch d).frpAcks d
    match s.assoc d.slot d.assoc with
    | none => s
    | some a =>
      let r := a.receive d.seq
      let s := s.modAssoc d.slot d.assoc fun _ => r.1
      if r.2 then act s else s

/-! ## Requests (R294, R350) -/

/-- Request under assembly of a slot. -/
def State.frpReq (s : State) (slot key : Nat) : Option FrpReq := (s.slot slot).frpReqs.find? fun r => r.key == key
/-- Replace it. -/
def State.setFrpReq (s : State) (slot : Nat) (r : FrpReq) : State :=
  s.modSlot slot fun x => { x with frpReqs := (x.frpReqs.filter fun y => y.key != r.key) ++ [r] }
/-- Forget it. -/
def State.dropFrpReq (s : State) (slot key : Nat) : State :=
  s.modSlot slot fun x => { x with frpReqs := x.frpReqs.filter fun y => y.key != key }

/-- The first n bytes that pieces make up, once they cover them all. -/
def gather (ps : List (Nat × List Byte)) (n : Nat) : Option (List Byte) :=
  let m := (ps.filter fun p => decide (p.1 ≤ n)).foldl (fun (m : List (Option Byte)) p => m.take p.1 ++ p.2.map some ++ m.drop (p.1 + p.2.length))
    (List.replicate n none)
  if (m.take n).all Option.isSome then some ((m.take n).filterMap id) else none

/-- A parameter block from its bytes (R305). -/
def blockOf (b : List Byte) : ParamBlock :=
  let u32 := fun o => BitVec.ofNat 32 (leAt b o 4)
  let pf := leAt b 32 1
  { temperature := u32 0, topP := u32 4, minP := u32 8, repPenalty := u32 12, freqPenalty := u32 16
    topK := leAt b 20 2, penaltyWindow := leAt b 22 2, seed := BitVec.ofNat 64 (leAt b 24 8), pflags := BitVec.ofNat 8 pf
    reservedZero := leAt b 35 1 == 0 && leAt b 38 26 == 0
    stopTokens := (List.range (leAt b 33 1)).map fun j => leAt b (64 + 4 * j) 4
    stopSeqs := (List.range (leAt b 34 1)).map fun j =>
      (List.range (min (leAt b (320 + 68 * j) 4) 17)).map fun t => leAt b (324 + 68 * j + 4 * t) 4
    biases := (List.range (min (leAt b 36 2) 1025)).map fun j => (leAt b (864 + 8 * j) 4, u32 (868 + 8 * j))
    mask := if bit pf 1 then slice b 9056 32768 else [] }

/-- The parameter block that pieces make up, once they cover its length (R294, R305). -/
def gatherBlock (ps : List (Nat × List Byte)) : Option ParamBlock :=
  match gather ps 9056 with
  | none => none
  | some b => if bit (leAt b 32 1) 1 then (gather ps 41824).map blockOf else some (blockOf b)

/-- The assembled request: SUBMIT, `input_count` tokens, and the parameter block that GENERATE needs. -/
def FrpReq.complete (r : FrpReq) : Option (Nat × ReqArgs) :=
  match r.entry with
  | none => none
  | some (op, e) =>
    let n := if creates op then e.inputCount else 0
    match gather r.tokens (4 * n) with
    | none => none
    | some ts =>
      let ps := if op = 1 then gatherBlock r.params else none
      if op = 1 ∧ ps.isNone then none
      else some (op, { from_ := .frp r.assoc, e := e, tokens := (List.range n).map fun j => leAt ts (4 * j) 4, params := ps })

/-- A datagram has added to a request: once complete, it is treated as a ring entry is. -/
def State.frpGrow (s : State) (slot : Nat) (r : FrpReq) : State :=
  match r.complete with
  | some (op, a) => (s.dropFrpReq slot r.key).submit slot op a
  | none => s.setFrpReq slot r

/-- Answer a SUBMIT in Resetting or Closing with status 0x08; it counts as a refused entry does (R350, R368). -/
def State.frpRefuse (s : State) (slot assoc key : Nat) : State :=
  (s.frpSend slot assoc 0x11 (complBytes key 0 8 0 0 0 0 0 0 0xFFFFFFFF 0 0 0 0 0)).bump (K.requestsAborted slot) 64 1

/-- FRP_SUBMIT (R293, R294): a submission entry with its first input tokens. -/
def execFrpSubmit (d : FrpDatagram) (s : State) : Out :=
  .next (s.frpReceive d fun s =>
    match d.entry with
    | none => s
    | some e =>
      if s.rd (K.slotState d.slot) = 3 ∨ s.rd (K.slotState d.slot) = 4 then s.frpRefuse d.slot d.assoc e.key
      else
        let r := (s.frpReq d.slot e.key).getD { key := e.key, assoc := d.assoc }
        s.frpGrow d.slot { r with assoc := d.assoc, entry := some (d.opcode, e), tokens := r.tokens ++ [(0, d.tokens.flatMap (leBytes 4))] })

/-- FRP_DATA (R293, R294): more input tokens, or bytes of the parameter block. -/
def execFrpData (d : FrpDatagram) (s : State) : Out :=
  .next (s.frpReceive d fun s =>
    if s.rd (K.slotState d.slot) = 3 ∨ s.rd (K.slotState d.slot) = 4 then s
    else
      let r := (s.frpReq d.slot d.key).getD { key := d.key, assoc := d.assoc }
      if d.part = 0 then s.frpGrow d.slot { r with tokens := r.tokens ++ [(d.offset, d.data)] }
      else if d.part = 1 then s.frpGrow d.slot { r with params := r.params ++ [(d.offset, d.data)] }
      else s)

/-- FRP_ACK (R295): acknowledgements alone; it has no sequence number. -/
def execFrpAck (d : FrpDatagram) (s : State) : Out :=
  .next (if s.frpGood d then (s.frpTouch d).frpAcks d else s.bump K.frpBad 64 1)

/-- FRP_KEEPALIVE (R293, R295): acknowledged like any sequenced datagram. -/
def execFrpKeepalive (d : FrpDatagram) (s : State) : Out := .next (s.frpReceive d fun s => s)

/-! ## Timers (R294, R295) -/

/-- FRP_ACK_DUE (R295): what has arrived is acknowledged in an ACK, unless a datagram has carried it already. -/
def execFrpAckDue (slot : SlotId) (assoc : Nat) (s : State) : Out :=
  match s.assoc slot assoc with
  | some a =>
    if a.ackDue then .next ((s.frpWire slot a 0x20 0 []).modAssoc slot assoc fun a => { a with ackDue := false })
    else .next s
  | none => .next s

/-- The association is given up: nothing is sent on it any more; its requests run on (R295). -/
def State.frpFail (s : State) (slot assoc : Nat) : State :=
  s.modAssoc slot assoc fun a => { a with failed := true, out := [] }

/-- FRP_RETRANSMIT (R295): the wait of an unacknowledged datagram, `frp_rto` doubled at each of its attempts, has passed: it is
sent again, or its retry budget has run out. -/
def execFrpRetransmit (slot : SlotId) (d : FrpSent) (s : State) : Out :=
  let assoc := d.assoc
  let seq := d.seq
  match s.assoc slot assoc with
  | none => .next s
  | some a =>
    match a.out.find? fun o => o.seq == seq with
    | none => .next s
    | some o =>
      if s.inForce (s.rd (K.slotInstance slot)) K.frpRetries ≤ o.tries then .next (s.frpFail slot assoc)
      else
        .next ((s.frpWire slot a o.type o.seq o.body).modAssoc slot assoc fun a =>
          { a with ackDue := false, out := a.out.map fun y => if y.seq = seq then { y with tries := y.tries + 1 } else y })

/-- FRP_ASSOC_IDLE (R295): no datagram has come from the client for the association's limit. -/
def execFrpAssocIdle (slot : SlotId) (assoc : Nat) (s : State) : Out := .next (s.frpFail slot assoc)

/-- FRP_REQUEST_INCOMPLETE (R294): a request incomplete for 1 s is discarded, its key not recorded. -/
def execFrpRequestIncomplete (slot : SlotId) (key : Nat) (s : State) : Out := .next (s.dropFrpReq slot key)

end Sys2Proof.Machine
end

