-- ==== Sys2Proof/Machine/Scratchpad.lean ====
section
/-! DEFINITION. The scratchpad's zeroing and scrub unit (R110-R112, R124, R125). -/

namespace Sys2Proof.Machine

/-- The word that the scrubber reads now is found as the command says, beside the error that it already holds. -/
def Core.upsetWord (k : Core) (found : Ecc) : Core :=
  match found with
  | .clean => k
  | .single => { k with spFlip := mapSet (fun _ => false) k.spFlip k.scrubPtr true }
  | .uncorrectable => { k with poison := mapSet (fun _ => false) k.poison k.scrubPtr true }

/-- The scrubber's pointer moves on to the next word of the next bank's turn (R112). -/
def Core.scrubNext (k : Core) : Core := { k with scrubPtr := (k.scrubPtr + 1) % 786432 }

/-- SCRATCHPAD_SCRUB (R110-R112): while scrubbing is on, the scrubber reads the word at its pointer, which the
command names; a command that names another changes nothing. It corrects and counts a single-bit error; an uncorrectable word is counted, recorded and poisoned, and never rewritten. -/
def execScratchpadScrub (c : CoreId) (word : Fin 786432) (found : Ecc) (s : State) : Out :=
  if !s.scrubOn || (s.core c).scrubPtr != word.val then .next s
  else
    let k := (s.core c).upsetWord found
    let w := k.scrubPtr
    let port := if w < 524288 then 8 else 9
    .next (((s.setCore c (k.readFix (8 * w) 8).scrubNext).noteUncorr c port (k.poisoned (8 * w) 8)).portUse c none 0
      [⟨port, false, 8 * w, 8⟩])

/-- GRANULE_ZERO (R125): once nothing queued names the granule, zero it and set the owner that waits first; the MCLK cycles
that the change has waited are counted. Until then it goes on waiting. -/
def execGranuleZero (c : CoreId) (g : Fin 1536) (s : State) : Out :=
  let k := s.core c
  match k.zeroq.find? fun z => z.granule == g.val with
  | none => .next s
  | some z =>
    if k.passReads g.val || k.transferNames g.val then .next s
    else .next ((s.setCore c { k.zeroGranule g.val z.owner with
        zeroq := k.zeroq.erase z
        zeroWait := (k.zeroWait + (s.mclkAcc / 1000000 - z.since)) % 2 ^ 64 }).portUse c none 0
      [⟨if g.val < 1024 then 8 else 9, true, 4096 * g.val, 4096⟩])

end Sys2Proof.Machine
end

