-- ==== Sys2Proof/Machine/Dispatch.lean ====
section
/-! DEFINITION. What each command does: one arm per constructor, each one call of the command's meaning. -/

namespace Sys2Proof.Machine

/-- The effect of a command on everything but the queue. -/
def exec (i : Instr) (s : State) : Host.Outcome State Fault Refusal :=
  match i with
  | .nop c g f => Sys2Proof.Machine.execNop c g f s
  | .halt c g f => Sys2Proof.Machine.execHalt c g f s
  | .br c g f => Sys2Proof.Machine.execBr c g f s
  | .brr c g f => Sys2Proof.Machine.execBrr c g f s
  | .callI c g f => Sys2Proof.Machine.execCall c g f s
  | .ret c g f => Sys2Proof.Machine.execRet c g f s
  | .loopI c g f => Sys2Proof.Machine.execLoop c g f s
  | .brk c g f => Sys2Proof.Machine.execBrk c g f s
  | .add c g f => Sys2Proof.Machine.execAdd c g f s
  | .sub c g f => Sys2Proof.Machine.execSub c g f s
  | .mul c g f => Sys2Proof.Machine.execMul c g f s
  | .andI c g f => Sys2Proof.Machine.execAnd c g f s
  | .orI c g f => Sys2Proof.Machine.execOr c g f s
  | .xorI c g f => Sys2Proof.Machine.execXor c g f s
  | .shl c g f => Sys2Proof.Machine.execShl c g f s
  | .shr c g f => Sys2Proof.Machine.execShr c g f s
  | .sra c g f => Sys2Proof.Machine.execSra c g f s
  | .min c g f => Sys2Proof.Machine.execMin c g f s
  | .max c g f => Sys2Proof.Machine.execMax c g f s
  | .minu c g f => Sys2Proof.Machine.execMinu c g f s
  | .maxu c g f => Sys2Proof.Machine.execMaxu c g f s
  | .cmpeq c g f => Sys2Proof.Machine.execCmpeq c g f s
  | .cmplt c g f => Sys2Proof.Machine.execCmplt c g f s
  | .cmpltu c g f => Sys2Proof.Machine.execCmpltu c g f s
  | .mov c g f => Sys2Proof.Machine.execMov c g f s
  | .sld c g f => Sys2Proof.Machine.execSld c g f s
  | .sst c g f => Sys2Proof.Machine.execSst c g f s
  | .mmv c g f => Sys2Proof.Machine.execMmv c g f s
  | .bflush c g f => Sys2Proof.Machine.execBflush c g f s
  | .bzero c g f => Sys2Proof.Machine.execBzero c g f s
  | .csum c g f => Sys2Proof.Machine.execCsum c g f s
  | .ectlw c g f => Sys2Proof.Machine.execEctlw c g f s
  | .fld c g f => Sys2Proof.Machine.execFld c g f s
  | .fst c g f => Sys2Proof.Machine.execFst c g f s
  | .fcvt c g f => Sys2Proof.Machine.execFcvt c g f s
  | .fadd c g f => Sys2Proof.Machine.execFadd c g f s
  | .fsub c g f => Sys2Proof.Machine.execFsub c g f s
  | .fmul c g f => Sys2Proof.Machine.execFmul c g f s
  | .ffma c g f => Sys2Proof.Machine.execFfma c g f s
  | .fmin c g f => Sys2Proof.Machine.execFmin c g f s
  | .fmax c g f => Sys2Proof.Machine.execFmax c g f s
  | .fcmp c g f => Sys2Proof.Machine.execFcmp c g f s
  | .fneg c g f => Sys2Proof.Machine.execFneg c g f s
  | .fabs c g f => Sys2Proof.Machine.execFabs c g f s
  | .fcvtb c g f => Sys2Proof.Machine.execFcvtb c g f s
  | .funp c g f => Sys2Proof.Machine.execFunp c g f s
  | .frcp c g f => Sys2Proof.Machine.execFrcp c g f s
  | .fsqrt c g f => Sys2Proof.Machine.execFsqrt c g f s
  | .frsq c g f => Sys2Proof.Machine.execFrsq c g f s
  | .fexp c g f => Sys2Proof.Machine.execFexp c g f s
  | .fexp2 c g f => Sys2Proof.Machine.execFexp2 c g f s
  | .flog c g f => Sys2Proof.Machine.execFlog c g f s
  | .flog2 c g f => Sys2Proof.Machine.execFlog2 c g f s
  | .fact c g f => Sys2Proof.Machine.execFact c g f s
  | .fsum c g f => Sys2Proof.Machine.execFsum c g f s
  | .fdot c g f => Sys2Proof.Machine.execFdot c g f s
  | .frms c g f => Sys2Proof.Machine.execFrms c g f s
  | .flnorm c g f => Sys2Proof.Machine.execFlnorm c g f s
  | .fquant c g f => Sys2Proof.Machine.execFquant c g f s
  | .falt c g f => Sys2Proof.Machine.execFalt c g f s
  | .fqk c g f => Sys2Proof.Machine.execFqk c g f s
  | .fsmx c g f => Sys2Proof.Machine.execFsmx c g f s
  | .fpv c g f => Sys2Proof.Machine.execFpv c g f s
  | .femb c g f => Sys2Proof.Machine.execFemb c g f s
  | .qpush c g f => Sys2Proof.Machine.execQpush c g f s
  | .pwalk c g f => Sys2Proof.Machine.execPwalk c g f s
  | .qwait c g f => Sys2Proof.Machine.execQwait c g f s
  | .qexp c g f => Sys2Proof.Machine.execQexp c g f s
  | .nget c g f => Sys2Proof.Machine.execNget c g f s
  | .nput c g f => Sys2Proof.Machine.execNput c g f s
  | .rget c g f => Sys2Proof.Machine.execRget c g f s
  | .rput c g f => Sys2Proof.Machine.execRput c g f s
  | .mcast c g f => Sys2Proof.Machine.execMcast c g f s
  | .rsend c g f => Sys2Proof.Machine.execRsend c g f s
  | .tack c g f => Sys2Proof.Machine.execTack c g f s
  | .fenceI c g f => Sys2Proof.Machine.execFence c g f s
  | .waitI c g f => Sys2Proof.Machine.execWait c g f s
  | .noteI c g f => Sys2Proof.Machine.execNote c g f s
  | .gown c g f => Sys2Proof.Machine.execGown c g f s
  | .ctop c g f => Sys2Proof.Machine.execCtop c g f s
  | .csend c g f => Sys2Proof.Machine.execCsend c g f s
  | .spick c g f => Sys2Proof.Machine.execSpick c g f s
  | .sacc c g f => Sys2Proof.Machine.execSacc c g f s
  | .trapDrainEnd inst => Sys2Proof.Machine.execTrapDrainEnd inst s
  | .tackOverdue inst => Sys2Proof.Machine.execTackOverdue inst s
  | .enginePass c p => Sys2Proof.Machine.execEnginePass c p s
  | .boltSetPost c p => Sys2Proof.Machine.execBoltSetPost c p s
  | .boltZero c p => Sys2Proof.Machine.execBoltZero c p s
  | .checkRead c p => Sys2Proof.Machine.execCheckRead c p s
  | .scrubCheckRead c e => Sys2Proof.Machine.execScrubCheckRead c e s
  | .goldenFetchDone c e hostImage => Sys2Proof.Machine.execGoldenFetchDone c e hostImage s
  | .goldenFetchRetry c e => Sys2Proof.Machine.execGoldenFetchRetry c e s
  | .gussetCopyVerified c ok => Sys2Proof.Machine.execGussetCopyVerified c ok s
  | .reprogramVerified c e ok => Sys2Proof.Machine.execReprogramVerified c e ok s
  | .eventQueueDrain c e => Sys2Proof.Machine.execEventQueueDrain c e s
  | .fcWeightFetchDone c slot hostImage => Sys2Proof.Machine.execFcWeightFetchDone c slot hostImage s
  | .fcRecompute c slot tile => Sys2Proof.Machine.execFcRecompute c slot tile s
  | .fcDeadline c slot => Sys2Proof.Machine.execFcDeadline c slot s
  | .scratchpadScrub c word found => Sys2Proof.Machine.execScratchpadScrub c word found s
  | .granuleZero c g => Sys2Proof.Machine.execGranuleZero c g s
  | .flitReceive l d bursts crcOk => Sys2Proof.Machine.execFlitReceive l d bursts crcOk s
  | .replayRequest l d seq => Sys2Proof.Machine.execReplayRequest l d seq s
  | .routerFail r => Sys2Proof.Machine.execRouterFail r s
  | .packetRoute r => Sys2Proof.Machine.execPacketRoute r s
  | .multicastDelivery r => Sys2Proof.Machine.execMulticastDelivery r s
  | .reductionCombine r group => Sys2Proof.Machine.execReductionCombine r group s
  | .remoteRequest c => Sys2Proof.Machine.execRemoteRequest c s
  | .remoteResponse c => Sys2Proof.Machine.execRemoteResponse c s
  | .rqTimeout c what => Sys2Proof.Machine.execRqTimeout c what s
  | .neighborRefusal c => Sys2Proof.Machine.execNeighborRefusal c s
  | .tackCombine r => Sys2Proof.Machine.execTackCombine r s
  | .idleTack inst => Sys2Proof.Machine.execIdleTack inst s
  | .tackCapture inst => Sys2Proof.Machine.execTackCapture inst s
  | .tackRelease c => Sys2Proof.Machine.execTackRelease c s
  | .darnSetReady entries => Sys2Proof.Machine.execDarnSetReady entries s
  | .dmaTransferDone c ch hostData hostError => Sys2Proof.Machine.execDmaTransferDone c ch hostData hostError s
  | .pageWalkDone c ch => Sys2Proof.Machine.execPageWalkDone c ch s
  | .candidateMerge c => Sys2Proof.Machine.execCandidateMerge c s
  | .draftAcceptMessage inst m => Sys2Proof.Machine.execDraftAcceptMessage inst m s
  | .draftMessage inst m => Sys2Proof.Machine.execDraftMessage inst m s
  | .dropMessage inst m => Sys2Proof.Machine.execDropMessage inst m s
  | .swapOutCopyDone sequence entry ok => Sys2Proof.Machine.execSwapOutCopyDone sequence entry ok s
  | .swapInCopyDone sequence entry page ok => Sys2Proof.Machine.execSwapInCopyDone sequence entry page ok s
  | .pageZeroDone inst page => Sys2Proof.Machine.execPageZeroDone inst page s
  | .generate slot r => Sys2Proof.Machine.execGenerate slot r s
  | .append slot r => Sys2Proof.Machine.execAppend slot r s
  | .truncate slot r => Sys2Proof.Machine.execTruncate slot r s
  | .park slot r => Sys2Proof.Machine.execPark slot r s
  | .release slot r => Sys2Proof.Machine.execRelease slot r s
  | .requestCancel slot r => Sys2Proof.Machine.execRequestCancel slot r s
  | .sqTail slot value => Sys2Proof.Machine.execSqTail slot value s
  | .cqHead slot value => Sys2Proof.Machine.execCqHead slot value s
  | .ringCfgWrite slot completion base value => Sys2Proof.Machine.execRingCfgWrite slot completion base value s
  | .interimCompletion slot key => Sys2Proof.Machine.execInterimCompletion slot key s
  | .frpSubmit d => Sys2Proof.Machine.execFrpSubmit d s
  | .frpData d => Sys2Proof.Machine.execFrpData d s
  | .frpAck d => Sys2Proof.Machine.execFrpAck d s
  | .frpKeepalive d => Sys2Proof.Machine.execFrpKeepalive d s
  | .frpAckDue slot assoc => Sys2Proof.Machine.execFrpAckDue slot assoc s
  | .frpRetransmit slot d => Sys2Proof.Machine.execFrpRetransmit slot d s
  | .frpAssocIdle slot assoc => Sys2Proof.Machine.execFrpAssocIdle slot assoc s
  | .frpRequestIncomplete slot key => Sys2Proof.Machine.execFrpRequestIncomplete slot key s
  | .dedupWindowExpiry slot key => Sys2Proof.Machine.execDedupWindowExpiry slot key s
  | .irqCoalesce slot => Sys2Proof.Machine.execIrqCoalesce slot s
  | .form inst => Sys2Proof.Machine.execForm inst s
  | .dissolve inst => Sys2Proof.Machine.execDissolve inst s
  | .load inst => Sys2Proof.Machine.execLoad inst s
  | .unload inst => Sys2Proof.Machine.execUnload inst s
  | .instanceStop inst => Sys2Proof.Machine.execInstanceStop inst s
  | .resume inst => Sys2Proof.Machine.execResume inst s
  | .clearFault inst muslin => Sys2Proof.Machine.execClearFault inst muslin s
  | .abortLoad inst => Sys2Proof.Machine.execAbortLoad inst s
  | .instanceZeroingDone inst => Sys2Proof.Machine.execInstanceZeroingDone inst s
  | .shardVerified inst shard => Sys2Proof.Machine.execShardVerified inst shard s
  | .tileProgrammed inst tile ok => Sys2Proof.Machine.execTileProgrammed inst tile ok s
  | .recheckRound inst => Sys2Proof.Machine.execRecheckRound inst s
  | .recheckShardDone inst shard refetched => Sys2Proof.Machine.execRecheckShardDone inst shard refetched s
  | .store inst => Sys2Proof.Machine.execStore inst s
  | .deleteCmd inst => Sys2Proof.Machine.execDelete inst s
  | .enable slot => Sys2Proof.Machine.execEnable slot s
  | .disable slot => Sys2Proof.Machine.execDisable slot s
  | .slotReset slot => Sys2Proof.Machine.execSlotReset slot s
  | .teardownSettle slot => Sys2Proof.Machine.execTeardownSettle slot s
  | .abortCompletionDiscard slot => Sys2Proof.Machine.execAbortCompletionDiscard slot s
  | .frpKeyWrite slot key => Sys2Proof.Machine.execFrpKeyWrite slot key s
  | .altBindingWrite slot value => Sys2Proof.Machine.execAltBindingWrite slot value s
  | .functionLevelReset slot => Sys2Proof.Machine.execFunctionLevelReset slot s
  | .perst n => Sys2Proof.Machine.execPerst n s
  | .perstRelease n refclkPpm rate width => Sys2Proof.Machine.execPerstRelease n refclkPpm rate width s
  | .vfEnableClear n => Sys2Proof.Machine.execVfEnableClear n s
  | .busMasterEnableSet n fn => Sys2Proof.Machine.execBusMasterEnableSet n fn s
  | .msixUnmask n fn vector => Sys2Proof.Machine.execMsixUnmask n fn vector s
  | .pcieLinkDown n => Sys2Proof.Machine.execPcieLinkDown n s
  | .refclkLoss n => Sys2Proof.Machine.execRefclkLoss n s
  | .cplTimeout c ch moved => Sys2Proof.Machine.execCplTimeout c ch moved s
  | .pcieRetrain n refclkPpm rate width => Sys2Proof.Machine.execPcieRetrain n refclkPpm rate width s
  | .windowTableWrite n entry word value => Sys2Proof.Machine.execWindowTableWrite n entry word value s
  | .swinWrite slot k size value => Sys2Proof.Machine.execSwinWrite slot k size value s
  | .mbxDoorbell mb value m => Sys2Proof.Machine.execMbxDoorbell mb value m s
  | .getVersion n => Sys2Proof.Machine.execGetVersion n s
  | .getCapabilities n => Sys2Proof.Machine.execGetCapabilities n s
  | .negotiateAlgorithms n asym hash => Sys2Proof.Machine.execNegotiateAlgorithms n asym hash s
  | .getDigests n => Sys2Proof.Machine.execGetDigests n s
  | .getCertificate n certSlot offset length => Sys2Proof.Machine.execGetCertificate n certSlot offset length s
  | .challenge n certSlot nonce => Sys2Proof.Machine.execChallenge n certSlot nonce s
  | .getMeasurements n block nonce => Sys2Proof.Machine.execGetMeasurements n block nonce s
  | .ethFrameDiscard e => Sys2Proof.Machine.execEthFrameDiscard e s
  | .arp e target => Sys2Proof.Machine.execArp e target s
  | .neighborDiscovery e target => Sys2Proof.Machine.execNeighborDiscovery e target s
  | .echo e v6 target payload => Sys2Proof.Machine.execEcho e v6 target payload s
  | .ethLinkChange e up => Sys2Proof.Machine.execEthLinkChange e up s
  | .ethRetrain e up => Sys2Proof.Machine.execEthRetrain e up s
  | .dtlsHandshake segment certDigest => Sys2Proof.Machine.execDtlsHandshake segment certDigest s
  | .dtlsIdleTimeout session => Sys2Proof.Machine.execDtlsIdleTimeout session s
  | .read ses m => Sys2Proof.Machine.execRead ses m s
  | .write ses m => Sys2Proof.Machine.execWrite ses m s
  | .baste ses m => Sys2Proof.Machine.execBaste ses m s
  | .commit ses m => Sys2Proof.Machine.execCommit ses m s
  | .discard ses m => Sys2Proof.Machine.execDiscard ses m s
  | .basteTimeout ses => Sys2Proof.Machine.execBasteTimeout ses s
  | .blobBufferTimeout ses => Sys2Proof.Machine.execBlobBufferTimeout ses s
  | .subscribe ses m => Sys2Proof.Machine.execSubscribe ses m s
  | .unsubscribe ses m => Sys2Proof.Machine.execUnsubscribe ses m s
  | .notify ses subscription queueFull => Sys2Proof.Machine.execNotify ses subscription queueFull s
  | .responseCacheExpiry client requestId => Sys2Proof.Machine.execResponseCacheExpiry client requestId s
  | .ptpMessage segment m => Sys2Proof.Machine.execPtpMessage segment m s
  | .ptpSegmentSwitch => Sys2Proof.Machine.execPtpSegmentSwitch s
  | .ppsInEdge => Sys2Proof.Machine.execPpsInEdge s
  | .hbmPatrolScrub st word found => Sys2Proof.Machine.execHbmPatrolScrub st word found s
  | .hbmTempRead st temp => Sys2Proof.Machine.execHbmTempRead st temp s
  | .retrain st => Sys2Proof.Machine.execRetrain st s
  | .hbmRetrainDone st => Sys2Proof.Machine.execHbmRetrainDone st s
  | .sbFuncWrite p func => Sys2Proof.Machine.execSbFuncWrite p func s
  | .sbDetachEnd p => Sys2Proof.Machine.execSbDetachEnd p s
  | .sbAttach p => Sys2Proof.Machine.execSbAttach p s
  | .thermalAlertInput p => Sys2Proof.Machine.execThermalAlertInput p s
  | .resetIn lowNs => Sys2Proof.Machine.execResetIn lowNs s
  | .pwrEnChange level => Sys2Proof.Machine.execPwrEnChange level s
  | .tackIoEdge => Sys2Proof.Machine.execTackIoEdge s
  | .bypass => Sys2Proof.Machine.execBypass s
  | .idcode => Sys2Proof.Machine.execIdcode s
  | .sample => Sys2Proof.Machine.execSample s
  | .preload boundary => Sys2Proof.Machine.execPreload boundary s
  | .extest => Sys2Proof.Machine.execExtest s
  | .extestPulse => Sys2Proof.Machine.execExtestPulse s
  | .extestTrain => Sys2Proof.Machine.execExtestTrain s
  | .clamp => Sys2Proof.Machine.execClamp s
  | .debugAccess c op => Sys2Proof.Machine.execDebugAccess c op s
  | .trst => Sys2Proof.Machine.execTrst s
  | .powerRequestOn runTo => Sys2Proof.Machine.execPowerRequestOn runTo s
  | .powerRequestOff runTo => Sys2Proof.Machine.execPowerRequestOff runTo s
  | .inputFaultTrip past millivolts => Sys2Proof.Machine.execInputFaultTrip past millivolts s
  | .tripRecovery => Sys2Proof.Machine.execTripRecovery s
  | .loadNotice c => Sys2Proof.Machine.execLoadNotice c s
  | .prebiasRelease r => Sys2Proof.Machine.execPrebiasRelease r s
  | .issueStop r => Sys2Proof.Machine.execIssueStop r s
  | .issueStopClear r => Sys2Proof.Machine.execIssueStopClear r s
  | .vminCrossing r step => Sys2Proof.Machine.execVminCrossing r step s
  | .vminClear r present => Sys2Proof.Machine.execVminClear r present s
  | .currentSample r milliamps => Sys2Proof.Machine.execCurrentSample r milliamps s
  | .throttleUpdate r temp => Sys2Proof.Machine.execThrottleUpdate r temp s
  | .tStop r => Sys2Proof.Machine.execTStop r s
  | .thermalShutdown r temp => Sys2Proof.Machine.execThermalShutdown r temp s
  | .retentionEntry inst => Sys2Proof.Machine.execRetentionEntry inst s
  | .ditherChip p power rise => Sys2Proof.Machine.execDitherChip p power rise s
  | .rthStale p thirty => Sys2Proof.Machine.execRthStale p thirty s
  | .regulatorFault r => Sys2Proof.Machine.execRegulatorFault r s
  | .mclkSet khz => Sys2Proof.Machine.execMclkSet khz s
  | .hzModeWrite mode => Sys2Proof.Machine.execHzModeWrite mode s
  | .retuneDone => Sys2Proof.Machine.execRetuneDone s
  | .inputPowerUp b => Sys2Proof.Machine.execInputPowerUp b s
  | .computeReset muslin failedPanels => Sys2Proof.Machine.execComputeReset muslin failedPanels s
  | .mgCoreReset => Sys2Proof.Machine.execMgCoreReset s
  | .deviceReset => Sys2Proof.Machine.execDeviceReset s
  | .mgWatchdogExpiry => Sys2Proof.Machine.execMgWatchdogExpiry s
  | .panelControllerFault p muslin selfTestFails => Sys2Proof.Machine.execPanelControllerFault p muslin selfTestFails s
  | .coreFaultReport c cause => Sys2Proof.Machine.execCoreFaultReport c cause s
  | .coreRetire c => Sys2Proof.Machine.execCoreRetire c s
  | .coreUnretire c => Sys2Proof.Machine.execCoreUnretire c s
  | .spareProgrammed inst => Sys2Proof.Machine.execSpareProgrammed inst s
  | .recipeSelectWrite inst variants fromMaster => Sys2Proof.Machine.execRecipeSelectWrite inst variants fromMaster s
  | .precClear inst bits => Sys2Proof.Machine.execPrecClear inst bits s
  | .ccCoreWrite core => Sys2Proof.Machine.execCcCoreWrite core s
  | .ccClear => Sys2Proof.Machine.execCcClear s
  | .tmCoreWrite core => Sys2Proof.Machine.execTmCoreWrite core s
  | .snapReq inst => Sys2Proof.Machine.execSnapReq inst s
  | .alertClear bits => Sys2Proof.Machine.execAlertClear bits s
  | .acctClear slot => Sys2Proof.Machine.execAcctClear slot s
  | .join => Sys2Proof.Machine.execJoin s
  | .leave => Sys2Proof.Machine.execLeave s
  | .swap => Sys2Proof.Machine.execSwap s
  | .fwPass => Sys2Proof.Machine.execFwPass s
  | .seamTransferReceive sm t => Sys2Proof.Machine.execSeamTransferReceive sm t s
  | .seamTimeout c ch => Sys2Proof.Machine.execSeamTimeout c ch s
  | .seamRetrain sm => Sys2Proof.Machine.execSeamRetrain sm s
  | .tackRecord r => Sys2Proof.Machine.execTackRecord r s
  | .cascadeRelease r => Sys2Proof.Machine.execCascadeRelease r s
  | .timeMessage masterTime pathDelay => Sys2Proof.Machine.execTimeMessage masterTime pathDelay s
  | .timeDistribute => Sys2Proof.Machine.execTimeDistribute s
  | .swapRequest requester target => Sys2Proof.Machine.execSwapRequest requester target s
  | .apertureData sm t => Sys2Proof.Machine.execApertureData sm t s
  | .cascadeStepPlan plan => Sys2Proof.Machine.execCascadeStepPlan plan s
  | .broadcastBlock offset block => Sys2Proof.Machine.execBroadcastBlock offset block s
  | .resendRequest member r => Sys2Proof.Machine.execResendRequest member r s
  | .firmwareBlock offset block => Sys2Proof.Machine.execFirmwareBlock offset block s
  | .idleCascadeTack => Sys2Proof.Machine.execIdleCascadeTack s
  | .ctackTimeout group missing => Sys2Proof.Machine.execCtackTimeout group missing s
  | .holdLimitExpiry group => Sys2Proof.Machine.execHoldLimitExpiry group s
  | .masterLoss reachable => Sys2Proof.Machine.execMasterLoss reachable s
  | .bcastTimeout => Sys2Proof.Machine.execBcastTimeout s
  | .fwDataBlock offset block => Sys2Proof.Machine.execFwDataBlock offset block s
  | .arm => Sys2Proof.Machine.execArm s
  | .disarm => Sys2Proof.Machine.execDisarm s
  | .fwAbort => Sys2Proof.Machine.execFwAbort s
  | .confirm role => Sys2Proof.Machine.execConfirm role s
  | .fwCancel role => Sys2Proof.Machine.execFwCancel role s
  | .activationCheck others => Sys2Proof.Machine.execActivationCheck others s
  | .selfCancel => Sys2Proof.Machine.execSelfCancel s
  | .fwActivate => Sys2Proof.Machine.execFwActivate s
  | .svnHoldExpiry => Sys2Proof.Machine.execSvnHoldExpiry s
  | .keyCmd => Sys2Proof.Machine.execKeyCmd s
  | .dbgChallenge => Sys2Proof.Machine.execDbgChallenge s
  | .dbgResponse signature => Sys2Proof.Machine.execDbgResponse signature s
  | .recoveryImageBlock offset block => Sys2Proof.Machine.execRecoveryImageBlock offset block s
  | .imageComplete inst image => Sys2Proof.Machine.execImageComplete inst image s
  | .swapSlotZeroDone slot swapSlot => Sys2Proof.Machine.execSwapSlotZeroDone slot swapSlot s
  | .hbmTimeout c ch moved => Sys2Proof.Machine.execHbmTimeout c ch moved s
  | .pcieLinkUp n rate width => Sys2Proof.Machine.execPcieLinkUp n rate width s
  | .seamLinkUp sm peerSerial peerSeam => Sys2Proof.Machine.execSeamLinkUp sm peerSerial peerSeam s
  | .thermalAlertReleased p => Sys2Proof.Machine.execThermalAlertReleased p s
  | .endpointIdAssigned eid => Sys2Proof.Machine.execEndpointIdAssigned eid s

end Sys2Proof.Machine
end

