-- ==== Sys2Proof/Safety.lean ====
section
/-! DEFINITION. What counts as a sound state, and the frames and readiness conditions that statements speak in. -/

namespace Sys2Proof.Machine

/-- The memories of the device are in canonical form: the HBM stacks, host memory as written, every scratchpad. -/
def State.memoriesWf (s : State) : Bool :=
  memWf s.hbm && memWf s.hostMem && s.cores.all fun p => memWf p.2.sp

/-- The panels of an instance form a rectangle of the 4 × 3 grid, whose lowest panel is the instance's number; an absent
instance has none (R18). -/
def State.panelsOk (s : State) : Prop :=
  ∀ i, (s.inst i).panels = [] ∨ ∃ cols rows, inGrid i cols rows = true ∧ (s.inst i).panels = rectangle i cols rows

/-! ## Readiness of an Idmor instruction -/

/-- Core c can issue an instruction under guard g and the guard holds: nothing holds the core back, no refused
neighbour access waits, the instruction word reads well, the guard is a legal one and true (R98, R160, R161, R178). -/
structure State.Ready (s : State) (c : CoreId) (g : Guard) : Prop where
  may : s.mayIssue c.val = true
  quiet : (s.core c.val).nbrArrived = []
  read : (s.core c.val).pc ∉ (s.core c.val).istoreBad
  legal : guardLegal g = true
  holds : guardHolds g (s.core c.val) = true

/-! ## Frames -/

/-- The counters of the dictionary that a log entry moves (R414, R416). -/
def logKeys : List Nat := [K.logHead, K.logTail, K.logOverwritten, K.alertCauses, K.instEvents]

/-- Nothing but core c differs between s and t. -/
def State.OnlyCore (s t : State) (c : CoreId) : Prop :=
  t = { s with cores := t.cores } ∧ ∀ d, d ≠ c.val → t.core d = s.core d

/-- Nothing but the numeric entries of the dictionary differs, and of those only the keys listed. -/
def State.OnlyEntries (s t : State) (keys : List Nat) : Prop :=
  t = { s with dict := t.dict } ∧ ∀ k, k ∉ keys → t.rd k = s.rd k

/-- Nothing but core c, the event log and what follows from log entries differs between s and t. -/
def State.OnlyCoreAndLog (s t : State) (c : CoreId) : Prop :=
  t = { s with cores := t.cores, log := t.log, dict := t.dict, fns := t.fns, sent := t.sent,
               logMsgAt := t.logMsgAt, logMsgHeld := t.logMsgHeld } ∧
  ∀ d, d ≠ c.val → t.core d = s.core d

/-- Nothing but core c and the packets handed to its router's L port differs: the packets of l, in order. -/
def State.OnlyCoreAndPackets (s t : State) (c : CoreId) (l : List Packet) : Prop :=
  t = { s with cores := t.cores, routers := t.routers } ∧ (∀ d, d ≠ c.val → t.core d = s.core d) ∧
  (∀ r, r ≠ c.val → t.router r = s.router r) ∧
  t.router c.val = { s.router c.val with inq := (s.router c.val).inq ++ l.map fun p => (portL, p) }

/-- Nothing but core c, the packets l handed to its router's L port, the event log and what follows from log entries
differs. -/
def State.OnlyCorePacketsAndLog (s t : State) (c : CoreId) (l : List Packet) : Prop :=
  t = { s with cores := t.cores, routers := t.routers, log := t.log, dict := t.dict, fns := t.fns, sent := t.sent,
               logMsgAt := t.logMsgAt, logMsgHeld := t.logMsgHeld } ∧
  (∀ d, d ≠ c.val → t.core d = s.core d) ∧ (∀ r, r ≠ c.val → t.router r = s.router r) ∧
  t.router c.val = { s.router c.val with inq := (s.router c.val).inq ++ l.map fun p => (portL, p) }

/-- What a requantisation on core c may touch beside that core: the records of sequences, the side buffers and draws of the
cores that its blocks feed, the event log with what follows from its entries, the count of skipped samples, and the
precision status of the core's instance (R72, R74, R79). -/
def State.OnlyQuantised (s t : State) (c : CoreId) : Prop :=
  t = { s with cores := t.cores, seqs := t.seqs, log := t.log, dict := t.dict, fns := t.fns, sent := t.sent,
               logMsgAt := t.logMsgAt, logMsgHeld := t.logMsgHeld } ∧
  (∀ d, d ≠ c.val → t.core d = { s.core d with side := (t.core d).side, fcDrawn := (t.core d).fcDrawn }) ∧
  ∀ key, key ∉ logKeys → key ≠ K.fcSkipped → (∀ i, (s.core c.val).inst = some i → key ≠ K.precStatus i.val) →
    t.rd key = s.rd key

/-! ## Frames with a log entry -/

/-- Nothing but the numeric entries and what follows from log entries differs, and of the entries only those listed and
the log's own counters. -/
def State.OnlyEntriesAndLog (s t : State) (keys : List Nat) : Prop :=
  t = { s with dict := t.dict, log := t.log, fns := t.fns, sent := t.sent, logMsgAt := t.logMsgAt,
               logMsgHeld := t.logMsgHeld } ∧
  ∀ k, k ∉ keys → k ∉ logKeys → t.rd k = s.rd k

/-- The newest log entry of t is the management core's, with this code and class (R414, R415). -/
def State.Logged (t : State) (code cls : Nat) : Prop :=
  ∃ e, t.log.head? = some e ∧ e.source = 1 ∧ e.cls = cls ∧ e.record % 2 ^ 16 = code

/-- A scalar result: the register that specifier sp names holds v (bit 0 of it in a predicate or in ITAINT, R193), the
loop stack and the program counter have moved on (R192), and the rest of the core is as before. -/
def Core.Wrote (k k' : Core) (sp : Nat) (v : Word) : Prop :=
  (∀ x, x < 0x30 → mapGet (fun _ => 0#32) k'.regs x = if x = sp then v else mapGet (fun _ => 0#32) k.regs x) ∧
  (∀ p, p < 8 → k'.preds.getLsbD p = if sp = 0x30 + p then v.getLsbD 0 else k.preds.getLsbD p) ∧
  k'.itaint = (if sp = 0x3D then v.getLsbD 0 else k.itaint) ∧
  k' = { k.advance with regs := k'.regs, preds := k'.preds, itaint := k'.itaint }

/-- A finisher result: register x holds v with taint t, every other finisher register is as before, the loop stack and
the program counter have moved on, and the rest of the core is as before. -/
def Core.WroteF (k k' : Core) (x v : Nat) (t : Bool) : Prop :=
  k'.freg x = v % 2 ^ 4096 ∧ k'.ftaintOf x = t ∧
  (∀ y, y < 64 → y ≠ x → k'.freg y = k.freg y ∧ k'.ftaintOf y = k.ftaintOf y) ∧
  k' = { k.advance with fregs := k'.fregs, ftaint := k'.ftaint }

end Sys2Proof.Machine
end

