-- ==== Sys2Proof/Certificates/Slice0/Obligations.lean ====
section
/-! DEFINITION. The statements for the provers: what each command does to the state, with its frame, and the statements
about the whole machine. -/

open Sys2Proof Sys2Proof.Machine

/-! ## The queue and the step -/

/-- With a command at the front of the queue, a step is that command's effect on the state with the queue's rest. With no
command waiting, a step lets one nanosecond pass (the model's choice, log entry 1): both clocks move by one and MCLK by its
frequency; a held vector 1 message may go out; an upset, if one strikes then, changes a core's cells or a word of the HBM
stacks. Nothing else changes. -/
def Obligations.StepRunsFrontCommand : Prop :=
  (∀ (c : Instr) (rest : List Instr) (s : State), s.pending = c :: rest →
    step s = exec c { s with pending := rest }) ∧
  ∀ s : State, s.pending = [] → ∃ t, step s = .next t ∧
    t = { s with time := (s.time + 1) % 2 ^ 64, uptime := (s.uptime + 1) % 2 ^ 64, mclkAcc := s.mclkAcc + s.rd K.mclkNow,
                 sent := t.sent, fns := t.fns, logMsgAt := t.logMsgAt, logMsgHeld := t.logMsgHeld, cores := t.cores,
                 hbmErr := t.hbmErr, hbmPoison := t.hbmPoison } ∧
    (s.logMsgHeld = false → t.sent = s.sent ∧ t.fns = s.fns ∧ t.logMsgAt = s.logMsgAt ∧ t.logMsgHeld = false) ∧
    (Config.upset ((s.uptime + 1) % 2 ^ 64) = none →
      t.cores = s.cores ∧ t.hbmErr = s.hbmErr ∧ t.hbmPoison = s.hbmPoison) ∧
    ∀ c k v, (t.core c).regs = (s.core c).regs ∧ (t.core c).pc = (s.core c).pc ∧ (t.core c).run = (s.core c).run ∧
      memByte (t.core c).sp k = memByte (s.core c).sp k ∧ t.rd v = s.rd v

/-- Every step, whatever its command, keeps the panels of each instance a rectangle of the 4 × 3 grid whose lowest panel is
the instance's number, or none (R18): so every panel an instance holds is one of the 12. -/
def Obligations.StepsKeepInstancesRectangles : Prop :=
  ∀ s t : State, s.panelsOk → step s = .next t → t.panelsOk ∧ ∀ i p, p ∈ (t.inst i).panels → p < 12

/-! ## Idmor: encoding -/

/-- Every instruction that has a word is read back from it. -/
def Obligations.DecodeOfEncode : Prop :=
  ∀ (i : Instr) (w : BitVec 64), encodeIdmor i = some w → ∃ c, decodeIdmor c w = some i

/-- Every word that is an instruction is the word of that instruction: no two words spell one instruction and no bit
of a word is dropped. -/
def Obligations.EncodeOfDecode : Prop :=
  ∀ (c : CoreId) (w : BitVec 64) (i : Instr), decodeIdmor c w = some i → encodeIdmor i = some w

/-! ## Idmor: scalar -/

/-- Scalar instructions write their result to `rd`; the second operand is the immediate with `ui`, otherwise `rs2`. A
result written to a predicate or to ITAINT is its bit 0. A compare names p1 to p7: p0 traps with code 0x02, any other
register with code 0x01; MOV traps with code 0x01 unless `rs1` is 0 (R193). -/
def Obligations.ScalarInstructionsWriteResult : Prop :=
  ∀ (s : State) (c : CoreId) (g : Guard) (f : ScalF), s.Ready c g →
    let k := s.core c.val
    let a := s.readReg k f.rs1.toNat
    let b := if f.ui = 1#1 then f.imm32 else s.readReg k f.rs2.toNat
    let Gives := fun (i : Instr) (v : Word) =>
      ∃ t, exec i s = .next t ∧ s.OnlyCore t c ∧ k.Wrote (t.core c.val) f.rd.toNat v
    let Traps := fun (i : Instr) (code : Nat) => ∃ t, exec i s = .next t ∧
      t.core c.val = { k with run := .trapped, trapCode := code, trapStatus := 0 }
    (scalOk f = true → specOk f.rd.toNat = true → specWritable f.rd.toNat = true →
      Gives (.add c g f) (a + b) ∧ Gives (.sub c g f) (a - b) ∧
      Gives (.mul c g f) (BitVec.ofNat 32 (a.toNat * b.toNat)) ∧
      Gives (.andI c g f) (a &&& b) ∧ Gives (.orI c g f) (a ||| b) ∧ Gives (.xorI c g f) (a ^^^ b) ∧
      Gives (.shl c g f) (BitVec.ofNat 32 (a.toNat * 2 ^ (b.toNat % 32))) ∧
      Gives (.shr c g f) (BitVec.ofNat 32 (a.toNat / 2 ^ (b.toNat % 32))) ∧
      Gives (.sra c g f) (BitVec.ofInt 32 (a.toInt / 2 ^ (b.toNat % 32))) ∧
      Gives (.min c g f) (BitVec.ofInt 32 (min a.toInt b.toInt)) ∧
      Gives (.max c g f) (BitVec.ofInt 32 (max a.toInt b.toInt)) ∧
      Gives (.minu c g f) (BitVec.ofNat 32 (min a.toNat b.toNat)) ∧
      Gives (.maxu c g f) (BitVec.ofNat 32 (max a.toNat b.toNat)) ∧
      (f.rs1 = 0#6 → Gives (.mov c g f) b) ∧
      (0x31 ≤ f.rd.toNat → f.rd.toNat ≤ 0x37 →
        Gives (.cmpeq c g f) (if a.toNat = b.toNat then 1#32 else 0#32) ∧
        Gives (.cmplt c g f) (if a.toInt < b.toInt then 1#32 else 0#32) ∧
        Gives (.cmpltu c g f) (if a.toNat < b.toNat then 1#32 else 0#32))) ∧
    (f.rd.toNat = 0x30 → scalOk f = true →
      Traps (.cmpeq c g f) 2 ∧ Traps (.cmplt c g f) 2 ∧ Traps (.cmpltu c g f) 2) ∧
    (f.rd.toNat < 0x30 ∨ 0x37 < f.rd.toNat → Traps (.cmpeq c g f) 1 ∧ Traps (.cmplt c g f) 1 ∧ Traps (.cmpltu c g f) 1) ∧
    (f.rs1 ≠ 0#6 → Traps (.mov c g f) 1)

/-- SLD loads, and SST stores, a little-endian word of the wide window at `rs1` + `imm32`; SST leaves every other byte
of the scratchpad as it was. SLD corrects the single-bit errors of the word that it reads; a poisoned word is not loaded:
it is counted and SLD traps with code 0x07. -/
def Obligations.ScalarLoadStoreMoveOneWord : Prop :=
  ∀ (s : State) (c : CoreId) (g : Guard) (f : ScalF), s.Ready c g → s.rd K.hzMode = 0 →
    f.res = 0#1 → f.ui = 0#1 → specOk f.rs1.toNat = true → specOk f.rs2.toNat = true → specOk f.rd.toNat = true →
    let k := s.core c.val
    let a := (s.readReg k f.rs1.toNat + f.imm32).toNat
    a % 4 = 0 → isWide a = true → k.wideOk (bits a 20 0) 4 = true →
    (f.rs2 = 0#6 → specWritable f.rd.toNat = true → k.poisoned (k.wideAt (bits a 20 0)) 4 = [] →
      ∃ t, exec (.sld c g f) s = .next t ∧ s.OnlyCore t c ∧
        (k.readFix (k.wideAt (bits a 20 0)) 4).Wrote (t.core c.val) f.rd.toNat
          (BitVec.ofNat 32 (leNat (k.bytesAt (k.wideAt (bits a 20 0)) 4)))) ∧
    (f.rs2 = 0#6 → specWritable f.rd.toNat = true → k.poisoned (k.wideAt (bits a 20 0)) 4 ≠ [] →
      ∃ t, exec (.sld c g f) s = .next t ∧ (t.core c.val).run = .trapped ∧ (t.core c.val).trapCode = 7 ∧
        (t.core c.val).regs = k.regs ∧ (t.core c.val).pc = k.pc ∧ (t.core c.val).sp = k.sp ∧
        (t.core c.val).spUncorr = (k.spUncorr + (k.poisoned (k.wideAt (bits a 20 0)) 4).length) % 2 ^ 64) ∧
    (f.rd = 0#6 →
      ∃ t, exec (.sst c g f) s = .next t ∧ s.OnlyCore t c ∧
        leNat ((t.core c.val).bytesAt (k.wideAt (bits a 20 0)) 4) = (s.readReg k f.rs2.toNat).toNat ∧
        (∀ x, x < k.wideAt (bits a 20 0) ∨ k.wideAt (bits a 20 0) + 4 ≤ x →
          memByte (t.core c.val).sp x = memByte k.sp x) ∧
        t.core c.val = { (k.writeFix (k.wideAt (bits a 20 0)) 4).advance with
          sp := (t.core c.val).sp, poison := (t.core c.val).poison })

/-! ## Idmor: control -/

/-- The control instructions and loops (R192): NOP moves on; BR and BRR go to their target, popping the loops that do
not hold it; CALL pushes the next index; RET pops it; HALT ends a task that has nothing outstanding. LOOP opens a loop,
or traps with code 0x09 on a bad count, a bad body, a fifth loop or a body that runs past the enclosing one's. At the end
of a body, with iterations left the pc goes back to the body's first instruction and one is counted off; with none left
the loop is popped and an enclosing loop that ends on the same instruction decides. -/
def Obligations.ControlInstructionsSetProgramCounter : Prop :=
   (∀ (s : State) (c : CoreId) (g : Guard) (f : CtlF), s.Ready c g → f.res = 0#14 →
      let k := s.core c.val
      let n := (s.readReg k f.rs.toNat).toNat
      let Gives := fun (i : Instr) (k' : Core) => ∃ t, exec i s = .next t ∧ s.OnlyCore t c ∧ t.core c.val = k'
      (f.rs = 0#6 → f.imm32 = 0#32 → Gives (.nop c g f) k.advance) ∧
      (f.rs = 0#6 → 0 ≤ k.pc + f.imm32.toInt → k.pc + f.imm32.toInt ≤ 32767 →
        Gives (.br c g f) { k with loops := popLoops (k.pc + f.imm32.toInt).toNat k.loops,
                                   pc := (k.pc + f.imm32.toInt).toNat } ∧
        (k.rets.length < 8 → Gives (.callI c g f)
          { k with rets := (k.pc + 1) % 2 ^ 15 :: k.rets, pc := (k.pc + f.imm32.toInt).toNat })) ∧
      (f.imm32 = 0#32 → specOk f.rs.toNat = true → n ≤ 32767 →
        Gives (.brr c g f) { k with loops := popLoops n k.loops, pc := n }) ∧
      (∀ r rest, k.rets = r :: rest → f.rs = 0#6 → f.imm32 = 0#32 → Gives (.ret c g f) { k with rets := rest, pc := r }) ∧
      (specOk f.rs.toNat = true → k.loops.length < 4 → 0 < n → n ≤ 2 ^ 24 - 1 → 2 ≤ f.imm32.toInt →
        k.pc + f.imm32.toInt ≤ 32767 → (∀ l ∈ k.loops.head?, (k.pc + f.imm32.toInt).toNat ≤ l.last) →
        Gives (.loopI c g f)
          { k with loops := ⟨k.pc + 1, (k.pc + f.imm32.toInt).toNat, n⟩ :: k.loops, pc := (k.pc + 1) % 2 ^ 15 }) ∧
      (specOk f.rs.toNat = true →
        (n = 0 ∨ 2 ^ 24 - 1 < n ∨ f.imm32.toInt < 2 ∨ 32767 < k.pc + f.imm32.toInt ∨ 4 ≤ k.loops.length ∨
          ∃ l ∈ k.loops.head?, l.last < (k.pc + f.imm32.toInt).toNat) →
        ∃ t, exec (.loopI c g f) s = .next t ∧
          t.core c.val = { k with run := .trapped, trapCode := 9, trapStatus := 0 }) ∧
      (f.rs = 0#6 → f.imm32 = 0#32 → k.anyReserved = false → k.quiet = true →
        Gives (.halt c g f) { k with run := .halted })) ∧
   (∀ (t : Nat) (l : LoopEntry) (rest : List LoopEntry), popLoops t [] = [] ∧
      popLoops t (l :: rest) = if l.first ≤ t ∧ t ≤ l.last then l :: popLoops t rest else popLoops t rest) ∧
   (∀ k : Core, k.loops = [] → k.advance = { k with pc := (k.pc + 1) % 2 ^ 15 }) ∧
   (∀ (k : Core) (l : LoopEntry) (rest : List LoopEntry), k.loops = l :: rest →
      (k.pc ≠ l.last → k.advance = { k with pc := (k.pc + 1) % 2 ^ 15 }) ∧
      (k.pc = l.last → 1 < l.count → k.advance = { k with loops := { l with count := l.count - 1 } :: rest,
                                                          pc := l.first % 2 ^ 15 }) ∧
      (k.pc = l.last → l.count ≤ 1 → k.advance = { k with loops := rest }.advance))

/-- An instruction whose guard is false takes its issue and changes nothing but the pc and the loop stack, whatever
its operands: shown for every instruction of the control, scalar and sync families. -/
def Obligations.FalseGuardOnlyMovesOn : Prop :=
  ∀ (s : State) (c : CoreId) (g : Guard), s.mayIssue c.val = true → (s.core c.val).nbrArrived = [] →
    (s.core c.val).pc ∉ (s.core c.val).istoreBad → guardLegal g = true → guardHolds g (s.core c.val) = false →
    let Skips := fun i : Instr => exec i s = .next (s.modCore c.val Core.advance)
    (∀ f : ScalF, scalOk f = true → specOk f.rd.toNat = true → specWritable f.rd.toNat = true →
      Skips (.add c g f) ∧ Skips (.sub c g f) ∧ Skips (.mul c g f) ∧ Skips (.andI c g f) ∧ Skips (.orI c g f) ∧
      Skips (.xorI c g f) ∧ Skips (.shl c g f) ∧ Skips (.shr c g f) ∧ Skips (.sra c g f) ∧ Skips (.min c g f) ∧
      Skips (.max c g f) ∧ Skips (.minu c g f) ∧ Skips (.maxu c g f) ∧
      (f.rs1 = 0#6 → Skips (.mov c g f)) ∧
      (0x31 ≤ f.rd.toNat → f.rd.toNat ≤ 0x37 → Skips (.cmpeq c g f) ∧ Skips (.cmplt c g f) ∧ Skips (.cmpltu c g f))) ∧
    (∀ f : ScalF, f.res = 0#1 → f.ui = 0#1 → specOk f.rs1.toNat = true →
      (f.rs2 = 0#6 → specOk f.rd.toNat = true → specWritable f.rd.toNat = true → Skips (.sld c g f)) ∧
      (f.rd = 0#6 → specOk f.rs2.toNat = true → Skips (.sst c g f))) ∧
    (∀ f : CtlF, f.res = 0#14 →
      (f.rs = 0#6 → Skips (.br c g f) ∧ Skips (.callI c g f)) ∧
      (f.imm32 = 0#32 → specOk f.rs.toNat = true → Skips (.brr c g f)) ∧
      (specOk f.rs.toNat = true → Skips (.loopI c g f)) ∧
      (f.rs = 0#6 → f.imm32 = 0#32 →
        Skips (.nop c g f) ∧ Skips (.halt c g f) ∧ Skips (.brk c g f) ∧ Skips (.ret c g f))) ∧
    (∀ f : SyncF, f.res = 0#6 →
      (f.rs = 0#6 → f.emask = 0#8 → Skips (.noteI c g f) ∧ (f.imm32 = 0#32 → Skips (.tack c g f))) ∧
      (f.rs = 0#6 → f.imm32 = 0#32 → Skips (.fenceI c g f)) ∧
      (f.emask = 0#8 → specOk f.rs.toNat = true → Skips (.waitI c g f)) ∧
      (f.emask = 0#8 → specIsA f.rs.toNat = true → bits f.imm32.toNat 15 10 = 0 → bits f.imm32.toNat 31 22 = 0 →
        (bits f.imm32.toNat 9 0 < 0x200 ∨ 0x3FD < bits f.imm32.toNat 9 0) → Skips (.gown c g f)))

/-- Traps of the scalar and control families: a reserved encoding traps with code 0x01 whatever the guard, a write of
a read-only register with 0x02, a bad branch target with 0x09, a misaligned scalar access with 0x03; the pc, the
registers and the loop stack keep their values. BRK is the breakpoint trap: the core stands trapped with code 0x0B and
nothing else of it changed, its whole instance stops for a fault, and the trap is counted.
Rests on the readings of log entries 14 and 66. -/
def Obligations.TrapsStopTheInstanceWithoutEffect : Prop :=
   (∀ (s : State) (c : CoreId) (g : Guard), s.mayIssue c.val = true → (s.core c.val).nbrArrived = [] →
      (s.core c.val).pc ∉ (s.core c.val).istoreBad →
      let Traps := fun (i : Instr) (code : Nat) => ∃ t, exec i s = .next t ∧
        t.core c.val = { s.core c.val with run := .trapped, trapCode := code, trapStatus := 0 }
      (∀ f : ScalF, (scalOk f = false ∨ specOk f.rd.toNat = false ∨ guardLegal g = false) →
        Traps (.add c g f) 1 ∧ Traps (.sub c g f) 1 ∧ Traps (.xorI c g f) 1 ∧ Traps (.min c g f) 1) ∧
      (∀ f : ScalF, scalOk f = true → guardLegal g = true → specOk f.rd.toNat = true → specWritable f.rd.toNat = false →
        Traps (.add c g f) 2 ∧ Traps (.sub c g f) 2 ∧ Traps (.xorI c g f) 2 ∧ Traps (.min c g f) 2 ∧
        (f.rd.toNat = 0x30 → Traps (.cmpeq c g f) 2 ∧ Traps (.cmplt c g f) 2 ∧ Traps (.cmpltu c g f) 2)) ∧
      (∀ f : CtlF, f.res = 0#14 → f.rs = 0#6 → guardLegal g = true → guardHolds g (s.core c.val) = true →
        ((s.core c.val).pc + f.imm32.toInt < 0 ∨ 32767 < (s.core c.val).pc + f.imm32.toInt) →
        Traps (.br c g f) 9 ∧ Traps (.callI c g f) 9) ∧
      (∀ f : ScalF, f.res = 0#1 → f.ui = 0#1 → f.rd = 0#6 → specOk f.rs1.toNat = true → specOk f.rs2.toNat = true →
        guardLegal g = true → guardHolds g (s.core c.val) = true →
        (s.readReg (s.core c.val) f.rs1.toNat + f.imm32).toNat % 4 ≠ 0 → Traps (.sst c g f) 3)) ∧
   (∀ (s : State) (c : CoreId) (g : Guard) (f : CtlF) (i : Fin 12), s.Ready c g → f.rs = 0#6 → f.res = 0#14 → f.imm32 = 0#32 →
      (s.core c.val).inst = some i →
      ∃ t, exec (.brk c g f) s = .next t ∧
        t.core c.val = { s.core c.val with run := .trapped, trapCode := 0x0B, trapStatus := 0 } ∧
        (∀ d, d ≠ c.val → t.core d = s.core d) ∧
        t.inst i.val = { s.inst i.val with halted := true, trapped := true, trapFault := true } ∧
        (∀ j, j ≠ i.val → t.inst j = s.inst j) ∧
        t.rd K.traps = (s.rd K.traps + 1) % 2 ^ 64 ∧
        t.routers = s.routers ∧ t.hbm = s.hbm ∧ t.hostMem = s.hostMem ∧ t.reqs = s.reqs ∧ t.slots = s.slots)

/-! ## Idmor: engines -/

/-- The engine instructions act at every position of `emask` and at no other: MMV queues one pass with its scale
bytes, BZERO a zeroing; BFLUSH and CSUM reserve one entry of the queue per position, in ascending order, and queue the
command that posts it; ECTLW writes the position's control word.
MMV corrects the single-bit errors of the scale bytes that it reads, and draws whether its passes are sampled for the
fitting check: that may take a slot of the side buffer or count one skipped, and happens nowhere while the instance's
fitting check is off. -/
def Obligations.EngineInstructionsQueueOneCommandPerPosition : Prop :=
  ∀ (s : State) (c : CoreId) (g : Guard) (f : EngF), s.Ready c g → s.rd K.hzMode = 0 → f.emask ≠ 0#8 →
    let k := s.core c.val
    let ea := k.areg f.ra.toNat
    let es := k.areg f.rb.toNat
    let Gives := fun (i : Instr) (P : Core → Prop) => ∃ t, exec i s = .next t ∧ s.OnlyCore t c ∧ P (t.core c.val)
    let Adds := fun (k' : Core) (e : Nat → ECmd) => ∀ p, p < 8 → k'.posOf p =
      if f.emask.getLsbD p then { k.posOf p with cmdq := (k.posOf p).cmdq ++ [e p] } else k.posOf p
    let Reserves := fun (k' : Core) (kind : QKind) =>
      k'.queue f.queue.toNat = k.queue f.queue.toNat ++
        (List.range (positions f.emask).length).map (fun j => ⟨k.nextId + j, kind⟩) ∧
      k'.nextId = k.nextId + (positions f.emask).length ∧ ∀ q, q ≠ f.queue.toNat → k'.queue q = k.queue q
    (f.queue = 0#3 → f.imm24 = 0#24 → k.cmdRoom f.emask = true →
      (∀ p ∈ positions f.emask, k.mmvAddrBad f.tile.toNat ea es p = false ∧ tdValid (k.tdAt p f.tile.toNat) = true ∧
        k.poisoned (k.narrowAt p (bits es 18 0)) (tdBlocks (k.tdAt p f.tile.toNat)) = []) →
      ∃ t, exec (.mmv c g f) s = .next t ∧ t = { s with cores := t.cores, dict := t.dict } ∧
        (∀ d, d ≠ c.val → t.core d = s.core d) ∧ (∀ key, key ≠ K.fcSkipped → t.rd key = s.rd key) ∧
        Adds (t.core c.val) (fun p => .pass ⟨f.tile.toNat, 4096 * k.nbase + bits ea 18 0,
          k.bytesAt (k.narrowAt p (bits es 18 0)) (tdBlocks (k.tdAt p f.tile.toNat)), false, (k.posOf p).ectl, k.pc⟩) ∧
        t.core c.val = { k.advance with
          pos := (t.core c.val).pos, side := (t.core c.val).side, fcDrawn := (t.core c.val).fcDrawn
          spFlip := (t.core c.val).spFlip, spCorrected := (t.core c.val).spCorrected } ∧
        (k.spFlip = [] → (t.core c.val).spFlip = [] ∧ (t.core c.val).spCorrected = k.spCorrected) ∧
        ((∀ i, k.inst = some i → (s.inst i.val).fcEnable = false) →
          t.rd K.fcSkipped = s.rd K.fcSkipped ∧ (t.core c.val).side = k.side ∧ (t.core c.val).fcDrawn = k.fcDrawn)) ∧
    (f.tile = 0#9 → f.ra = 0#4 → f.rb = 0#4 → f.queue = 0#3 → f.imm24 = 0#24 → k.cmdRoom f.emask = true →
      Gives (.bzero c g f) fun k' => Adds k' (fun _ => .bzero) ∧ k' = { k.advance with pos := k'.pos }) ∧
    (f.tile = 0#9 → f.ra = 0#4 → f.rb = 0#4 → f.queue = 0#3 →
      Gives (.ectlw c g f) fun k' =>
        (∀ p, p < 8 → k'.posOf p = if f.emask.getLsbD p then
          { k.posOf p with ectl := BitVec.ofNat 32 f.imm24.toNat } else k.posOf p) ∧
        k' = { k.advance with pos := k'.pos }) ∧
    (k.roomFor f.queue.toNat (positions f.emask).length = true → k.cmdRoom f.emask = true →
      f.ra = 0#4 → f.rb = 0#4 → f.imm24 = 0#24 →
      (f.tile = 0#9 → Gives (.bflush c g f) fun k' => Reserves k' (.bolts none) ∧
        (∀ j p, (positions f.emask)[j]? = some p →
          k'.posOf p = { k.posOf p with cmdq := (k.posOf p).cmdq ++ [.bflush f.queue.toNat (k.nextId + j)] }) ∧
        (∀ p, p < 8 → f.emask.getLsbD p = false → k'.posOf p = k.posOf p) ∧
        k' = { k.advance with pos := k'.pos, queues := k'.queues, nextId := k'.nextId }) ∧
      ((∀ p ∈ positions f.emask, tdValid (k.tdAt p f.tile.toNat) = true) →
        Gives (.csum c g f) fun k' => Reserves k' (.word none) ∧
        (∀ j p, (positions f.emask)[j]? = some p →
          k'.posOf p = { k.posOf p with
            cmdq := (k.posOf p).cmdq ++ [.csum f.tile.toNat f.queue.toNat (k.nextId + j)] }) ∧
        (∀ p, p < 8 → f.emask.getLsbD p = false → k'.posOf p = k.posOf p) ∧
        k' = { k.advance with pos := k'.pos, queues := k'.queues, nextId := k'.nextId }))

/-! ## Idmor: finisher -/

/-- The exact elementwise FP32 operations: every lane of `fd` is the lanes' result rounded once, its taint is that of
the sources or of a NaN result, and nothing else of the finisher changes. -/
def Obligations.FinisherExactLanes : Prop :=
  ∀ (s : State) (c : CoreId) (g : Guard) (f : FinF), s.Ready c g → f.lf = 0#2 →
    let k := s.core c.val
    let x := fun i => Sys2Proof.Machine.decode f32 (lane32 (k.freg f.fs1.toNat) i)
    let y := fun i => Sys2Proof.Machine.decode f32 (lane32 (k.freg f.fs2.toNat) i)
    let z := fun i => Sys2Proof.Machine.decode f32 (lane32 (k.freg f.fs3.toNat) i)
    let Gives := fun (i : Instr) (t0 : Bool) (l : Nat → Nat) =>
      ∃ t, exec i s = .next t ∧ s.OnlyCore t c ∧ (∀ j, j < 128 → lane32 ((t.core c.val).freg f.fd.toNat) j = l j) ∧
        k.WroteF (t.core c.val) f.fd.toNat ((t.core c.val).freg f.fd.toNat)
          (t0 || (List.range 128).any fun j => nan32 (l j))
    let t1 := k.ftaintOf f.fs1.toNat
    let t2 := t1 || k.ftaintOf f.fs2.toNat
    (finOk f { fs2 := true } [0] [0] = true →
      Gives (.fadd c g f) t2 (fun i => roundTo f32 ((x i).add (y i))) ∧
      Gives (.fsub c g f) t2 (fun i => roundTo f32 ((x i).sub (y i))) ∧
      Gives (.fmul c g f) t2 (fun i => roundTo f32 ((x i).mul (y i))) ∧
      Gives (.fmin c g f) t2 (fun i => roundTo f32 (Fl.minMax false (x i) (y i))) ∧
      Gives (.fmax c g f) t2 (fun i => roundTo f32 (Fl.minMax true (x i) (y i)))) ∧
    (finOk f { fs2 := true, fs3 := true } [0] [0] = true →
      Gives (.ffma c g f) (t2 || k.ftaintOf f.fs3.toNat) (fun i => roundTo f32 (((x i).mul (y i)).add (z i)))) ∧
    (finOk f {} [0] [0] = true →
      Gives (.fneg c g f) t1 (fun i => roundTo f32 (x i).neg) ∧
      Gives (.fabs c g f) t1 (fun i => roundTo f32 (x i).abs)) ∧
    (finOk f { fs2 := true } [0] [0, 1, 2, 3] = true →
      ∃ t, exec (.fcmp c g f) s = .next t ∧ s.OnlyCore t c ∧
        k.WroteF (t.core c.val) f.fd.toNat ((t.core c.val).freg f.fd.toNat) t2 ∧
        ∀ j, j < 128 → lane32 ((t.core c.val).freg f.fd.toNat) j =
          if (if f.sub = 0#4 then (x j).eq (y j) else if f.sub = 1#4 then (x j).lt (y j)
              else if f.sub = 2#4 then (x j).le (y j) else !(x j).eq (y j)) then 0xFFFFFFFF else 0)

/-- The operations that also work on BF16 do the same on all 256 BF16 lanes when `lf` is 1. -/
def Obligations.FinisherBf16Lanes : Prop :=
  ∀ (s : State) (c : CoreId) (g : Guard) (f : FinF), s.Ready c g → f.lf = 1#2 →
    let k := s.core c.val
    let x := fun i => Sys2Proof.Machine.decode bf16 (lane16 (k.freg f.fs1.toNat) i)
    let y := fun i => Sys2Proof.Machine.decode bf16 (lane16 (k.freg f.fs2.toNat) i)
    let Gives := fun (i : Instr) (t0 : Bool) (l : Nat → Nat) =>
      ∃ t, exec i s = .next t ∧ s.OnlyCore t c ∧ (∀ j, j < 256 → lane16 ((t.core c.val).freg f.fd.toNat) j = l j) ∧
        k.WroteF (t.core c.val) f.fd.toNat ((t.core c.val).freg f.fd.toNat) t0
    let t1 := fun l : Nat → Nat => k.ftaintOf f.fs1.toNat || (List.range 256).any fun j => nan16 (l j)
    let t2 := fun l : Nat → Nat => k.ftaintOf f.fs2.toNat || t1 l
    let fmin := fun i => roundTo bf16 (Fl.minMax false (x i) (y i))
    let fmax := fun i => roundTo bf16 (Fl.minMax true (x i) (y i))
    (finOk f { fs2 := true } [1] [0] = true →
      Gives (.fmin c g f) (t2 fmin) fmin ∧ Gives (.fmax c g f) (t2 fmax) fmax) ∧
    (finOk f {} [1] [0] = true →
      Gives (.fneg c g f) (t1 fun i => roundTo bf16 (x i).neg) (fun i => roundTo bf16 (x i).neg) ∧
      Gives (.fabs c g f) (t1 fun i => roundTo bf16 (x i).abs) (fun i => roundTo bf16 (x i).abs)) ∧
    (finOk f { fs2 := true } [1] [0, 1, 2, 3] = true →
      Gives (.fcmp c g f) (k.ftaintOf f.fs1.toNat || k.ftaintOf f.fs2.toNat) (fun j =>
        if (if f.sub = 0#4 then (x j).eq (y j) else if f.sub = 1#4 then (x j).lt (y j)
            else if f.sub = 2#4 then (x j).le (y j) else !(x j).eq (y j)) then 0xFFFF else 0))

/-- The functions bounded in units in the last place (R71) work lane by lane: each lane of `fd` depends on the same
lane of `fs1` alone, through one function of the value and of an offset that nothing fixes.
The result is one of those inside the stated bound (log entry 6). -/
def Obligations.FinisherFunctionLanes : Prop :=
  ∀ (s : State) (c : CoreId) (g : Guard) (f : FinF), s.Ready c g →
    let k := s.core c.val
    let src := vals32 (k.freg f.fs1.toNat)
    let Gives := fun (i : Instr) (l : List Nat) =>
      ∃ t, exec i s = .next t ∧ s.OnlyCore t c ∧
        k.WroteF (t.core c.val) f.fd.toNat (fromLanes 32 l) (k.ftaintOf f.fs1.toNat || l.any nan32)
    let off := fun (op : Nat) (x : Fl) => Config.ulpOffset op (roundTo f32 x) 0
    (finOk f {} [0] [0] = true →
      Gives (.frcp c g f) (src.map fun x => flRecip x (off 0x6E x)) ∧
      Gives (.fsqrt c g f) (src.map fun x => flSqrt x (off 0x6F x)) ∧
      Gives (.frsq c g f) (src.map fun x => flRsqrt x (off 0x70 x)) ∧
      Gives (.fexp c g f) (src.map fun x => flExp false x (off 0x71 x)) ∧
      Gives (.fexp2 c g f) (src.map fun x => flExp true x (off 0x72 x)) ∧
      Gives (.flog c g f) (src.map fun x => flLog false x (off 0x73 x)) ∧
      Gives (.flog2 c g f) (src.map fun x => flLog true x (off 0x74 x))) ∧
    (finOk f {} [0] [0, 1, 2, 3, 4] = true →
      Gives (.fact c g f) (src.map fun x =>
        flActLane f32 f.sub.toNat x (Config.ulpOffset 0x75 (roundTo f32 x) f.sub.toNat))) ∧
    (finOk f {} [1] [0, 1, 2, 3, 4] = true →
      let l := (vals16 (k.freg f.fs1.toNat)).map fun x =>
        flActLane bf16 f.sub.toNat x (Config.ulpOffset 0x75 (roundTo bf16 x) f.sub.toNat)
      ∃ t, exec (.fact c g f) s = .next t ∧ s.OnlyCore t c ∧
        k.WroteF (t.core c.val) f.fd.toNat (fromLanes 16 l) (k.ftaintOf f.fs1.toNat || l.any nan16))

/-- FLD and FEMB load 512 bytes of the wide window at a 256-byte boundary into a finisher register and FST stores one;
a load corrects the single-bit errors of the words that it reads and takes its taint from poison alone, each poisoned word
being counted; a store changes those 512 bytes only. -/
def Obligations.FinisherLoadsAndStores : Prop :=
  ∀ (s : State) (c : CoreId) (g : Guard) (f : FinF), s.Ready c g → s.rd K.hzMode = 0 →
    let k := s.core c.val
    let a := k.areg f.ra.toNat
    let p := k.wideAt (bits a 20 0)
    let Loads := fun (i : Instr) (v : Nat) =>
      (k.poisoned p 512 = [] →
        ∃ t, exec i s = .next t ∧ s.OnlyCore t c ∧ (k.readFix p 512).WroteF (t.core c.val) f.fd.toNat v false) ∧
      (k.poisoned p 512 ≠ [] →
        ∃ t, exec i s = .next t ∧ s.OnlyCoreAndLog t c ∧
          (k.readFix p 512).WroteF { t.core c.val with spUncorr := k.spUncorr, badWords := k.badWords } f.fd.toNat v true ∧
          (t.core c.val).spUncorr = (k.spUncorr + (k.poisoned p 512).length) % 2 ^ 64 ∧
          ∀ w ∈ k.poisoned p 512, w ∈ (t.core c.val).badWords)
    a % 256 = 0 → isWide a = true → k.wideOk (bits a 20 0) 512 = true →
    (finOk f { fs1 := false, ra := true } [0] [0] = true → Loads (.fld c g f) (leNat (k.bytesAt p 512))) ∧
    (finOk f { fs1 := false, ra := true } [1] [0, 1] = true →
      Loads (.femb c g f) (fromLanes 16 (embLanes (f.sub == 1#4) (k.bytesAt p 512)))) ∧
    (finOk f { fd := false, ra := true } [0] [0] = true →
      ∃ t, exec (.fst c g f) s = .next t ∧ s.OnlyCore t c ∧
        (t.core c.val).bytesAt p 512 = fBytes (k.freg f.fs1.toNat) ∧
        (∀ x, x < p ∨ p + 512 ≤ x → memByte (t.core c.val).sp x = memByte k.sp x) ∧
        t.core c.val = { (k.writeFix p 512).advance with
          sp := (t.core c.val).sp, poison := (t.core c.val).poison })

/-- The conversions: FCVT takes the ready bolt set at the head of its queue and writes 64 lanes of `fd`, each bolt's
value times 2^B rounded once, leaving the other lanes; FCVTB writes one half of `fd` as BF16; FUNP unpacks one part.
No lane being infinite, nothing is logged. -/
def Obligations.FinisherConversions : Prop :=
  ∀ (s : State) (c : CoreId) (g : Guard) (f : FinF), s.Ready c g →
    let k := s.core c.val
    (∀ id set rest, f.lf = 0#2 → k.queue f.q.toNat = ⟨id, .bolts (some set)⟩ :: rest → set.length = 64 →
      finOk f { fs1 := false, fs2 := true, q := true, qsrc := true } [0, 1] [0, 1] = true →
      let v := fun j => roundTo f32 (Fl.ofInt (set.getD j {}).value.toInt (signedAt 11 (lane32 (k.freg f.fs2.toNat) 0)))
      (∀ j, j < 64 → v j % 2 ^ 31 ≠ 0x7F800000) →
      ∃ t, exec (.fcvt c g f) s = .next t ∧ s.OnlyCore t c ∧ (t.core c.val).queue f.q.toNat = rest ∧
        (∀ q, q ≠ f.q.toNat → (t.core c.val).queue q = k.queue q) ∧
        (∀ j, j < 64 → lane32 ((t.core c.val).freg f.fd.toNat) (64 * f.sub.toNat + j) = v j) ∧
        (∀ j, j < 64 → lane32 ((t.core c.val).freg f.fd.toNat) (64 * (1 - f.sub.toNat) + j) =
          lane32 (k.freg f.fd.toNat) (64 * (1 - f.sub.toNat) + j)) ∧
        (t.core c.val).ftaintOf f.fd.toNat = ((f.sub != 0#4 && k.ftaintOf f.fd.toNat) || k.itaint ||
          (set.any fun b => b.exc || b.ovf) || k.ftaintOf f.fs2.toNat) ∧
        (∀ x, x < 64 → x ≠ f.fd.toNat → (t.core c.val).freg x = k.freg x)) ∧
    (finOk f {} [1] [0, 1] = true →
      let v := fun j => roundTo bf16 (Sys2Proof.Machine.decode f32 (lane32 (k.freg f.fs1.toNat) j))
      ∃ t, exec (.fcvtb c g f) s = .next t ∧ s.OnlyCore t c ∧
        (∀ j, j < 128 → lane16 ((t.core c.val).freg f.fd.toNat) (128 * f.sub.toNat + j) = v j) ∧
        (∀ j, j < 128 → lane16 ((t.core c.val).freg f.fd.toNat) (128 * (1 - f.sub.toNat) + j) =
          lane16 (k.freg f.fd.toNat) (128 * (1 - f.sub.toNat) + j)) ∧
        k.WroteF (t.core c.val) f.fd.toNat ((t.core c.val).freg f.fd.toNat)
          ((f.sub != 0#4 && k.ftaintOf f.fd.toNat) || k.ftaintOf f.fs1.toNat ||
            (List.range 128).any fun j => nan16 (v j))) ∧
    (finOk f { fs2 := true, fs3 := true } [0] [0, 1, 2, 3, 4, 5] = true → (f.sub = 0#4 → f.fs2 = 0#6) →
      f.fs3.toNat < unpackParts f.sub.toNat →
      let v := fun j => unpackElem f.sub.toNat f.fs3.toNat (k.freg f.fs1.toNat) (k.freg f.fs2.toNat) j
      (∀ j, j < 128 → ((v j).isFin && (r32 (v j)).isInf) = false) →
      ∃ t, exec (.funp c g f) s = .next t ∧ s.OnlyCore t c ∧
        (∀ j, j < 128 → lane32 ((t.core c.val).freg f.fd.toNat) j = roundTo f32 (v j)) ∧
        k.WroteF (t.core c.val) f.fd.toNat ((t.core c.val).freg f.fd.toNat)
          (k.ftaintOf f.fs1.toNat || (f.sub != 0#4 && k.ftaintOf f.fs2.toNat) ||
            (List.range 128).any fun j => nan32 (roundTo f32 (v j))))

/-- The reductions: FSUM and FDOT leave the pairwise sum, rounded once, in lane 0 of `fd` and zero in the others, from
m registers or from m vectors of the wide window with no poisoned word, whose single-bit errors are corrected. -/
def Obligations.FinisherReductionsSumIntoLaneZero : Prop :=
  ∀ (s : State) (c : CoreId) (g : Guard) (f : FinF) (ps : List Nat), s.Ready c g → s.rd K.hzMode = 0 →
    let k := s.core c.val
    let Gives := fun (i : Instr) (v : Nat) (t0 : Bool) => ∃ t, exec i s = .next t ∧ s.OnlyCore t c ∧
      lane32 ((t.core c.val).freg f.fd.toNat) 0 = v ∧
      (∀ j, 0 < j → j < 128 → lane32 ((t.core c.val).freg f.fd.toNat) j = 0) ∧
      (redFix k f ps).WroteF (t.core c.val) f.fd.toNat ((t.core c.val).freg f.fd.toNat) (t0 || nan32 v)
    (finOk f { ra := true, many := true } [0] [0] = true → redOk f false false = true → redMem k f false = some ps →
      redBad k f ps = [] →
      Gives (.fsum c g f) (roundTo f32 (fsum (redSrc k f ps 0).1)) (redSrc k f ps 0).2) ∧
    (finOk f { fs2 := true, ra := true, many := true } [0] [0] = true → redOk f true false = true →
      redMem k f true = some ps → redBad k f ps = [] →
      Gives (.fdot c g f) (roundTo f32 (fsum (List.zipWith Fl.mul (redSrc k f ps 0).1 (redSrc k f ps 1).1)))
        ((redSrc k f ps 0).2 || (redSrc k f ps 1).2))

/-- The norms: FRMS and FLNORM store the BF16 outputs at the third address register's window range and nowhere else,
and leave r, or r and the mean, in the first lanes of `fd`, zero in the others, with the taint of the sources, of `fs3` and
of a NaN result; no word of the operands being poisoned.
The root is one inside the stated bound (log entry 6). -/
def Obligations.FinisherNormsStoreOutputs : Prop :=
  ∀ (s : State) (c : CoreId) (g : Guard) (f : FinF) (ps : List Nat) (gp op : Nat), s.Ready c g → s.rd K.hzMode = 0 →
    let k := s.core c.val
    let m := mOf f
    let x := (redSrc k f ps 0).1
    let eps := Sys2Proof.Machine.decode f32 (lane32 (k.freg f.fs3.toNat) 0)
    let gain := fun j => Sys2Proof.Machine.decode bf16 (leAt (k.bytesAt gp (256 * m)) (2 * j) 2)
    let Gives := fun (i : Instr) (mu r : Fl) (lanes : List Nat) => ∃ t, exec i s = .next t ∧ s.OnlyCore t c ∧
      let y := fun j => roundTo bf16 ((r32 ((r32 ((x.getD j Fl.zero).sub mu)).mul r)).mul (gain j))
      (∀ j, j < 128 * m → leNat ((t.core c.val).bytesAt (op + 2 * j) 2) = y j) ∧
      (∀ b, b < op ∨ op + 256 * m ≤ b → memByte (t.core c.val).sp b = memByte k.sp b) ∧
      (t.core c.val).freg f.fd.toNat = fromLanes 32 lanes % 2 ^ 4096 ∧
      (t.core c.val).ftaintOf f.fd.toNat = ((redSrc k f ps 0).2 || k.ftaintOf f.fs3.toNat || lanes.any nan32 ||
        (List.range (128 * m)).any fun j => nan16 (y j)) ∧
      (∀ z, z < 64 → z ≠ f.fd.toNat →
        (t.core c.val).freg z = k.freg z ∧ (t.core c.val).ftaintOf z = k.ftaintOf z) ∧
      t.core c.val = { k.advance with
        fregs := (t.core c.val).fregs, ftaint := (t.core c.val).ftaint, sp := (t.core c.val).sp
        poison := (t.core c.val).poison, spFlip := (t.core c.val).spFlip, spCorrected := (t.core c.val).spCorrected }
    finOk f { fs3 := true, ra := true, many := true } [1] [0] = true → redOk f false true = true → f.fs2 = 0#6 →
    redMem k f false = some ps → redBad k f ps = [] → k.finMem (k.areg (f.ra.toNat + 1)) (256 * m) = some gp →
    k.poisoned gp (256 * m) = [] → k.finMem (k.areg (f.ra.toNat + 2)) (256 * m) = some op →
    (∀ r, r = rsqrtOf 0x78 (r32 ((divNat32 (fsum (x.map fun v => v.mul v)) x.length).add eps)) →
      Gives (.frms c g f) (.fin false 0 0) r [roundTo f32 r]) ∧
    (∀ mu r, mu = divNat32 (fsum x) x.length →
      r = rsqrtOf 0x79 (r32 ((divNat32 (fsum (x.map fun v => (r32 (v.sub mu)).mul (r32 (v.sub mu)))) x.length).add eps)) →
      Gives (.flnorm c g f) mu r [roundTo f32 r, roundTo f32 mu])

/-- FQUANT in every form: two blocks of 64 lanes become codes and scale bytes, in `fd` or, with the NF forms, stored at the
two address registers, which move past what was stored; with feedback each block works on its residual record, and the
records go back into `fs2` and to their sequence. A quantise-range event sets the taint of `fd`, or with the NF forms of
`fs1`, and the instance's sticky bit; with none nothing is logged. FALT scales every lane and adds the steering vectors.
Which record a block works on, and which samples it feeds, is the pattern's (log entries 12 and 72). -/
def Obligations.FinisherQuantiseAndAlter : Prop :=
  ∀ (s : State) (c : CoreId) (g : Guard) (f : FinF), s.Ready c g → s.rd K.hzMode = 0 →
    let k := s.core c.val
    let v := vals32 (k.freg f.fs1.toNat)
    let nib := f.sub.toNat % 2 == 1
    let fb := f.fb == 1#1
    let qmax := if nib then 7 else 127
    let gen := lane32 (k.freg f.fs3.toNat) 0 % 65536
    let rb := fBytes (k.freg f.fs2.toNat)
    let record := fun b => if fb then some (s.readRecord c.val b gen (slice rb (72 * b) 72)) else none
    let b0 := quantBlock (v.take 64) qmax gen (record 0)
    let b1 := quantBlock (v.drop 64) qmax gen (record 1)
    let elems := packCodes nib (b0.codes ++ b1.codes)
    let scales : List Byte := [BitVec.ofNat 8 b0.scale, BitVec.ofNat 8 b1.scale]
    let len := if nib then 64 else 128
    let ranged := b0.range || b1.range
    let taint := k.ftaintOf f.fs1.toNat || (fb && k.ftaintOf f.fs2.toNat) || k.ftaintOf f.fs3.toNat
    let back := leNat (b0.record ++ b1.record ++ rb.drop 144) % 2 ^ 4096
    let Gives := fun (P : Core → Prop) =>
      ∃ t, exec (.fquant c g f) s = .next t ∧ s.OnlyQuantised t c ∧ P (t.core c.val) ∧
        t.seqs = (if fb then ((s.keepRecord c.val 0 b0.record).keepRecord c.val 1 b1.record).seqs else s.seqs) ∧
        (ranged = false → t.log = s.log ∧ t.fns = s.fns ∧ t.sent = s.sent ∧ ∀ key, key ≠ K.fcSkipped → t.rd key = s.rd key) ∧
        ∀ i, k.inst = some i → ranged = true → (t.rd (K.precStatus i.val)).testBit 2 = true
    (finOk f { fs2 := fb, fs3 := true, fb := true } [0] [0, 1, 2, 3] = true → (fb = true → nib = true) →
      Gives fun k' =>
        (∀ y, y < 64 → k'.freg y = (if y = f.fd.toNat then leNat (elems ++ List.replicate (256 - len) 0 ++ scales)
          else if fb ∧ y = f.fs2.toNat then back else k.freg y) ∧
          k'.ftaintOf y = if y = f.fd.toNat then taint || ranged
            else if fb ∧ y = f.fs2.toNat then taint else k.ftaintOf y) ∧
        k' = { k.advance with fregs := k'.fregs, ftaint := k'.ftaint, side := k'.side, fcDrawn := k'.fcDrawn }) ∧
    (∀ a b pa pb, finOk f { fd := false, fs2 := fb, fs3 := true, ra := true, fb := true } [0] [8, 9, 10, 11] = true →
      (fb = true → nib = true) → k.areg f.ra.toNat = a → k.areg (f.ra.toNat + 1) = b → a % 64 = 0 →
      k.narrow a len true = some pa → k.narrow b 2 true = some pb →
      Gives fun k' =>
        (∀ q ∈ pb, k'.bytesAt q 2 = scales) ∧
        (∀ p ∈ pa, ∀ j, j < len → (∀ q ∈ pb, p + j < q ∨ q + 2 ≤ p + j) → memByte k'.sp (p + j) = elems.getD j 0) ∧
        (∀ x, (∀ p ∈ pa, x < p ∨ p + len ≤ x) → (∀ q ∈ pb, x < q ∨ q + 2 ≤ x) → memByte k'.sp x = memByte k.sp x) ∧
        k'.areg f.ra.toNat = (a + len) % 2 ^ 32 ∧ k'.areg (f.ra.toNat + 1) = (b + 2) % 2 ^ 32 ∧
        (∀ y, y ≠ 0x20 + f.ra.toNat → y ≠ 0x20 + (f.ra.toNat + 1) % 16 →
          mapGet (fun _ => 0#32) k'.regs y = mapGet (fun _ => 0#32) k.regs y) ∧
        (∀ y, y < 64 → k'.freg y = (if fb ∧ y = f.fs2.toNat then back else k.freg y) ∧
          k'.ftaintOf y = if ranged ∧ y = f.fs1.toNat then true
            else if fb ∧ y = f.fs2.toNat then taint else k.ftaintOf y) ∧
        k' = { k.advance with
          fregs := k'.fregs, ftaint := k'.ftaint, side := k'.side, fcDrawn := k'.fcDrawn, regs := k'.regs, sp := k'.sp
          poison := k'.poison, spFlip := k'.spFlip, spCorrected := k'.spCorrected }) ∧
    (finOk f { fs2 := true, fs3 := true } [0] [0] = true →
      let y := steer (k.freg f.fs3.toNat) 64 0
        ((List.range 128).map fun j => r32 ((v.getD j Fl.zero).mul (fp8 (lane8 (k.freg f.fs2.toNat) (j / 64)))))
      ∃ t, exec (.falt c g f) s = .next t ∧ s.OnlyCore t c ∧
        k.WroteF (t.core c.val) f.fd.toNat (fromLanes 32 (y.map (roundTo f32)))
          (k.ftaintOf f.fs1.toNat || k.ftaintOf f.fs2.toNat || k.ftaintOf f.fs3.toNat ||
            (y.map (roundTo f32)).any nan32))

/-- The attention steps: FQK gives one score per key below the row's length and minus infinity beyond, FSMX updates
the running maximum and sum in lanes 0 and 1 of `fs2` after it has written `fd`, FPV adds the weighted values to the
rescaled accumulator. Each result's taint is that of its sources or of a NaN lane. -/
def Obligations.AttentionSteps : Prop :=
  ∀ (s : State) (c : CoreId) (g : Guard) (f : FinF), s.Ready c g →
    let k := s.core c.val
    let x := vals32 (k.freg f.fs1.toNat)
    let p3 := k.freg f.fs3.toNat
    let str := kvString k f.fs2.toNat (kvRegs f.sub.toNat)
    let kvt := k.ftaintOf f.fs1.toNat || regTaints k f.fs2.toNat (kvRegs f.sub.toNat) || k.ftaintOf f.fs3.toNat
    let Lanes := fun (i : Instr) (t0 : Bool) (l : Nat → Nat) =>
      ∃ t, exec i s = .next t ∧ s.OnlyCore t c ∧ (∀ j, j < 128 → lane32 ((t.core c.val).freg f.fd.toNat) j = l j) ∧
        k.WroteF (t.core c.val) f.fd.toNat ((t.core c.val).freg f.fd.toNat) (t0 || (List.range 128).any fun j => nan32 (l j))
    (finOk f { fs2 := true, fs3 := true } [0] [0, 1, 2] = true → f.fs2.toNat + kvRegs f.sub.toNat ≤ 64 →
      Lanes (.fqk c g f) kvt (fun j =>
        if 32 ≤ j then 0 else if lane32 p3 17 ≤ j then 0xFF800000
        else roundTo f32 ((Sys2Proof.Machine.decode f32 (lane32 p3 16)).mul
          (fsum ((List.range 128).map fun d => (x.getD d Fl.zero).mul (kvElem f.sub.toNat str p3 j d))))) ∧
      Lanes (.fpv c g f) (k.ftaintOf f.fd.toNat || kvt) (fun d =>
        roundTo f32 ((r32 (((vals32 (k.freg f.fd.toNat)).getD d Fl.zero).mul (x.getD 32 Fl.zero))).add
          (fsum ((List.range 32).map fun j => (x.getD j Fl.zero).mul (kvElem f.sub.toNat str p3 j d)))))) ∧
    (finOk f { fs2 := true } [0] [0] = true →
      let st := k.freg f.fs2.toNat
      let m := Sys2Proof.Machine.decode f32 (lane32 st 0)
      let u := softmaxStep (x.take 32) m (Sys2Proof.Machine.decode f32 (lane32 st 1))
      let out := (u.1 ++ [u.2.1]).map (roundTo f32)
      let old := if f.fd = f.fs2 then fromLanes 32 out % 2 ^ 4096 else st
      let tt := k.ftaintOf f.fs1.toNat || k.ftaintOf f.fs2.toNat || m.isNan || (x.take 32).any Fl.isNan
      ∃ t, exec (.fsmx c g f) s = .next t ∧ s.OnlyCore t c ∧
        (f.fd ≠ f.fs2 → (t.core c.val).freg f.fd.toNat = fromLanes 32 out % 2 ^ 4096 ∧
          (t.core c.val).ftaintOf f.fd.toNat = (tt || out.any nan32)) ∧
        lane32 ((t.core c.val).freg f.fs2.toNat) 0 = roundTo f32 u.2.2.1 ∧
        lane32 ((t.core c.val).freg f.fs2.toNat) 1 = roundTo f32 u.2.2.2 ∧
        (∀ j, 2 ≤ j → j < 128 → lane32 ((t.core c.val).freg f.fs2.toNat) j = lane32 old j) ∧
        (t.core c.val).ftaintOf f.fs2.toNat = (tt || u.2.2.2.isNan) ∧
        (∀ y, y < 64 → y ≠ f.fd.toNat → y ≠ f.fs2.toNat →
          (t.core c.val).freg y = k.freg y ∧ (t.core c.val).ftaintOf y = k.ftaintOf y) ∧
        t.core c.val = { k.advance with fregs := (t.core c.val).fregs, ftaint := (t.core c.val).ftaint })

/-! ## Idmor: queues and movement -/

/-- QWAIT pops a good completion into `rx` and `ry`, an arrival's taint going into ITAINT; it leaves a bolt set at the
head, and waits on a head that is not ready. QEXP reserves an arrival entry for its pair: with no packet of the pair
counted yet the entry waits. -/
def Obligations.QueueWaitPopsAndExpectReserves : Prop :=
   (∀ (s : State) (c : CoreId) (g : Guard) (f : MovF) (e : QEntry) (rest : List QEntry), s.Ready c g →
      movOk f [true, false, false, false, true, false, false, false, true, true] = true →
      specOk f.rx.toNat = true → specOk f.ry.toNat = true → specWritable f.rx.toNat = true → specWritable f.ry.toNat = true →
      let k := s.core c.val
      k.queue f.qa.toNat = e :: rest →
      (∀ w, e.kind = .word (some w) → (wStatus w = 0 ∨ f.tol = 1#1) →
        ∃ t, exec (.qwait c g f) s = .next t ∧ s.OnlyCore t c ∧ (t.core c.val).queue f.qa.toNat = rest ∧
          (∀ q, q ≠ f.qa.toNat → (t.core c.val).queue q = k.queue q) ∧
          (f.ry.toNat < 0x30 → mapGet (fun _ => 0#32) (t.core c.val).regs f.ry.toNat = BitVec.ofNat 32 (wBytes w)) ∧
          (f.rx.toNat < 0x30 → f.rx ≠ f.ry →
            mapGet (fun _ => 0#32) (t.core c.val).regs f.rx.toNat = BitVec.ofNat 32 w.toNat) ∧
          (∀ x, x < 0x30 → x ≠ f.rx.toNat → x ≠ f.ry.toNat →
            mapGet (fun _ => 0#32) (t.core c.val).regs x = mapGet (fun _ => 0#32) k.regs x) ∧
          (f.rx.toNat ≠ 0x3D → f.ry.toNat ≠ 0x3D →
            (t.core c.val).itaint = (k.itaint || (wSource w == 4 && wTaint w))) ∧
          t.core c.val = { k.advance with
            queues := (t.core c.val).queues, hzRanges := (t.core c.val).hzRanges, regs := (t.core c.val).regs
            preds := (t.core c.val).preds, itaint := (t.core c.val).itaint }) ∧
      (∀ w, e.kind = .word (some w) → wStatus w ≠ 0 → f.tol = 0#1 →
        ∃ t, exec (.qwait c g f) s = .next t ∧ (t.core c.val).queue f.qa.toNat = rest ∧
          (t.core c.val).run = .trapped ∧ (t.core c.val).trapCode = 5 ∧ (t.core c.val).trapStatus = wStatus w ∧
          (t.core c.val).regs = k.regs ∧ (t.core c.val).pc = k.pc) ∧
      (∀ set, e.kind = .bolts (some set) →
        exec (.qwait c g f) s = .next (s.setCore c.val k.advance)) ∧
      ((e.kind = .bolts none ∨ e.kind = .word none) → exec (.qwait c g f) s = .next s)) ∧
   (∀ (s : State) (c : CoreId) (g : Guard) (f : MovF), s.Ready c g →
      movOk f [true, false, false, false, true, true, false, false, false, false, true] = true → specOk f.rx.toNat = true →
      let k := s.core c.val
      let n := (s.readReg k f.rx.toNat).toNat
      0 < n → n < 2 ^ 24 → k.roomFor f.qa.toNat 1 = true → k.arrivals.length < 32 →
      (∀ a ∈ k.arrivals, a.group ≠ f.group.toNat ∨ a.tag ≠ f.imm16.toNat) →
      ∃ t, exec (.qexp c g f) s = .next t ∧ s.OnlyCore t c ∧
        (t.core c.val).queue f.qa.toNat = k.queue f.qa.toNat ++ [⟨k.nextId, .word none⟩] ∧
        (∀ q, q ≠ f.qa.toNat → (t.core c.val).queue q = k.queue q) ∧
        (t.core c.val).arrivals = k.arrivals ++ [⟨f.group.toNat, f.imm16.toNat, [], [⟨f.qa.toNat, k.nextId, n⟩]⟩] ∧
        t.core c.val = { k.advance with queues := (t.core c.val).queues, nextId := k.nextId + 1,
                                        arrivals := (t.core c.val).arrivals })

/-- QPUSH and PWALK queue the descriptor they accept on its channel and reserve its completion; a refused one is
answered with the refusal's status at once where nothing is ahead of it, and else waits in its channel.
Rests on the reading of log entry 64. -/
def Obligations.DescriptorsAreQueuedOrRefused : Prop :=
  ∀ (s : State) (c : CoreId) (g : Guard) (f : MovF), s.Ready c g → s.rd K.hzMode = 0 →
    movOk f [false, true, true] = true →
    let k := s.core c.val
    let a := k.areg f.ra.toNat
    let p := k.wideAt (bits a 20 0)
    let bs := k.bytesAt p 32
    let q := bits (descWord bs 0) 10 8
    let l := mapGet (fun _ => []) k.dma f.qb.toNat
    let Queues := fun (i : Instr) (n : Nat) => ∃ t d, exec i s = .next t ∧ s.OnlyCore t c ∧
      mapGet (fun _ => []) (t.core c.val).dma f.qb.toNat = l ++ [d] ∧
      d.src = descWord bs 1 ∧ d.dst = descWord bs 2 ∧ d.length = n ∧ d.tag = bits (descWord bs 0) 31 16 ∧
      d.q = q ∧ d.id = k.nextId ∧ d.order = k.dmaOrder ∧ d.ordered = bit (descWord bs 0) 11 ∧
      (∀ ch, ch ≠ f.qb.toNat → mapGet (fun _ => []) (t.core c.val).dma ch = mapGet (fun _ => []) k.dma ch) ∧
      (t.core c.val).queue q = k.queue q ++ [⟨k.nextId, .word none⟩] ∧
      (∀ q', q' ≠ q → (t.core c.val).queue q' = k.queue q') ∧
      (t.core c.val).regs = k.regs ∧ (t.core c.val).sp = k.sp ∧ (t.core c.val).pc = k.advance.pc
    let Refuses := fun (i : Instr) (st src : Nat) =>
      let first := l = [] ∧ (bit (descWord bs 0) 11 = false ∨ ∀ x ∈ k.dma, ∀ e ∈ x.2, k.dmaOrder ≤ e.order)
      (first → ∃ t, exec i s = .next t ∧ s.OnlyCore t c ∧
        (t.core c.val).dma = k.dma ∧ (t.core c.val).queue q =
          k.queue q ++ [⟨k.nextId, .word (some (complWord (bits (descWord bs 0) 31 16) st src false 0))⟩] ∧
        (t.core c.val).regs = k.regs ∧ (t.core c.val).sp = k.sp ∧ (t.core c.val).pc = k.advance.pc) ∧
      (¬first → l.length < 16 → ∃ t d, exec i s = .next t ∧ s.OnlyCore t c ∧
        mapGet (fun _ => []) (t.core c.val).dma f.qb.toNat = l ++ [d] ∧ d.refused = st ∧ d.q = q ∧ d.id = k.nextId ∧
        d.tag = bits (descWord bs 0) 31 16 ∧ d.order = k.dmaOrder ∧ d.ordered = bit (descWord bs 0) 11 ∧
        (∀ ch, ch ≠ f.qb.toNat → mapGet (fun _ => []) (t.core c.val).dma ch = mapGet (fun _ => []) k.dma ch) ∧
        (t.core c.val).queue q = k.queue q ++ [⟨k.nextId, .word none⟩] ∧
        (t.core c.val).regs = k.regs ∧ (t.core c.val).sp = k.sp ∧ (t.core c.val).pc = k.advance.pc)
    a % 32 = 0 → isWide a = true → k.wideOk (bits a 20 0) 32 = true → k.poisoned p 32 = [] → k.roomFor q 1 = true →
    (∀ e ∈ k.queue q, e.id ≠ k.nextId) →
    (∀ rs, s.descCheck k (descWord bs 0) (descWord bs 1) (descWord bs 2) (descWord bs 3) = .ok rs → l.length < 16 →
      Queues (.qpush c g f) (bits (descWord bs 0) 55 32)) ∧
    (∀ rs, s.walkCheck k (descWord bs 0) (descWord bs 1) (descWord bs 2) (descWord bs 3) = .ok rs → l.length < 16 →
      Queues (.pwalk c g f) 0) ∧
    (∀ st, s.descCheck k (descWord bs 0) (descWord bs 1) (descWord bs 2) (descWord bs 3) = .refused st →
      Refuses (.qpush c g f) st 0) ∧
    (∀ st, s.walkCheck k (descWord bs 0) (descWord bs 1) (descWord bs 2) (descWord bs 3) = .refused st →
      Refuses (.pwalk c g f) st 1)

/-- NGET reads, and NPUT writes, 256 bytes of the bound neighbour's wide window, half a finisher register at a time; what
NGET reads is corrected there, and a poisoned word sets the register's taint. A refusal sets out on its way back instead of
the transfer. Over a link that has given up NGET returns poisoned data of free value and an NPUT is lost.
Rests on the readings of log entries 3, 17 and 65. -/
def Obligations.NeighbourAccessesMoveHalfRegister : Prop :=
  ∀ (s : State) (c : CoreId) (g : Guard) (f : MovF) (n p : Nat), s.Ready c g → s.rd K.hzMode = 0 →
    movOk f [false, false, true, false, false, false, true, true, false, true] = true →
    let k := s.core c.val
    let a := k.areg f.ra.toNat
    let w := mapGet (fun _ => 0) k.nbind f.dir.toNat
    let h := f.half.toNat
    let bad := (s.core n).poisoned p 256
    let KeepsHalf := fun k' : Core => ∀ j, j < 64 →
      lane32 (k'.freg f.ry.toNat) (64 * (1 - h) + j) = lane32 (k.freg f.ry.toNat) (64 * (1 - h) + j)
    let Refuses := fun (i : Instr) (code : Nat) => ∃ t, exec i s = .next t ∧
      t.core c.val = { k with run := .trapped, trapCode := code, trapStatus := 0 }
    (isWide a = false ∨ a % 256 ≠ 0 → Refuses (.nget c g f) 3 ∧ Refuses (.nput c g f) 3) ∧
    (isWide a = true → a % 256 = 0 → bit w 0 = false → Refuses (.nget c g f) 10 ∧ Refuses (.nput c g f) 10) ∧
    (isWide a = true → a % 256 = 0 → bit w 0 = true →
      (s.neighbour c.val k w a = .ok (n, p) → s.nbrDead c.val n = false →
        (∃ t, exec (.nget c g f) s = .next t ∧
          (∀ j, j < 64 → lane32 ((t.core c.val).freg f.ry.toNat) (64 * h + j) =
            leNat ((s.core n).bytesAt (p + 4 * j) 4)) ∧
          KeepsHalf (t.core c.val) ∧ (t.core c.val).ftaintOf f.ry.toNat = (k.ftaintOf f.ry.toNat || !bad.isEmpty) ∧
          (∀ y, y < 64 → y ≠ f.ry.toNat → (t.core c.val).freg y = k.freg y ∧ (t.core c.val).ftaintOf y = k.ftaintOf y) ∧
          (∀ d, d ≠ c.val → d ≠ n → t.core d = s.core d) ∧
          (bad = [] → t = { s with cores := t.cores } ∧ (n ≠ c.val → t.core n = (s.core n).readFix p 256) ∧
            ((s.fixRead n p 256).core c.val).WroteF (t.core c.val) f.ry.toNat ((t.core c.val).freg f.ry.toNat)
              (k.ftaintOf f.ry.toNat)) ∧
          (bad ≠ [] → (t.core n).spUncorr = ((s.core n).spUncorr + bad.length) % 2 ^ 64 ∧
            (t.core c.val).pc = k.advance.pc ∧ (t.core c.val).regs = k.regs ∧ (t.core n).sp = (s.core n).sp)) ∧
        (∃ t, exec (.nput c g f) s = .next t ∧ t = { s with cores := t.cores } ∧
          (n ≠ c.val → t.core c.val = k.advance) ∧ (∀ d, d ≠ c.val → d ≠ n → t.core d = s.core d) ∧
          (∀ j, j < 64 → leNat ((t.core n).bytesAt (p + 4 * j) 4) = lane32 (k.freg f.ry.toNat) (64 * h + j)) ∧
          (∀ b, b < p ∨ p + 256 ≤ b → memByte (t.core n).sp b = memByte (s.core n).sp b) ∧
          t.core n = { (if n = c.val then ((s.core n).writeFix p 256).advance else (s.core n).writeFix p 256) with
            sp := (t.core n).sp, poison := (t.core n).poison })) ∧
      (s.neighbour c.val k w a = .ok (n, p) → s.nbrDead c.val n = true →
        (∃ t, exec (.nget c g f) s = .next t ∧ t = { s with cores := t.cores, freeNext := s.freeNext + 256 } ∧
          (∀ d, d ≠ c.val → t.core d = s.core d) ∧ KeepsHalf (t.core c.val) ∧
          k.WroteF (t.core c.val) f.ry.toNat ((t.core c.val).freg f.ry.toNat) true) ∧
        exec (.nput c g f) s = .next (s.setCore c.val k.advance)) ∧
      (∀ st, s.neighbour c.val k w a = .error st →
        (∃ t, exec (.nget c g f) s = .next t ∧ s.OnlyCore t c ∧
          t.core c.val = { k.advance with nbrComing := k.nbrComing ++ [(st, k.pc, 0xA4)] }) ∧
        (∃ t, exec (.nput c g f) s = .next t ∧ s.OnlyCore t c ∧
          t.core c.val = { k.advance with nbrComing := k.nbrComing ++ [(st, k.pc, 0xA5)] })))

/-- RGET and RPUT reserve a completion and send one VC2 request to the far core, an RPUT with the local bytes, flagged as
poisoned when one of their words is; a data address that names no core sends nothing and is answered with status 0x04 at
once. MCAST sends a vector along its tree, in packets of at most 4,096 bytes, and its completion is ready at injection.
RSEND takes the bolt set at the head of its queue as one contribution; on the root of its tree it also reserves the sum's
entry in `qb`, on any other core a non-zero `qb` traps with code 0x01. -/
def Obligations.FarAccessesAndTreesSendPackets : Prop :=
  ∀ (s : State) (c : CoreId) (g : Guard) (f : MovF), s.Ready c g → s.rd K.hzMode = 0 →
    let k := s.core c.val
    let q := f.qa.toNat
    let a := k.areg f.ra.toNat
    let b := k.areg f.rb.toNat
    let n := 64 * f.imm16.toNat
    let p := k.wideAt (bits a 20 0)
    let da := (s.readReg k f.rx.toNat).toNat
    let far := fun (kind d : Nat) => ({ s.packetFrom c.val kind 2 with
      queue := q, tag := f.imm16.toNat, addr := b % 2 ^ 24, length := n, rid := k.nextRid
      dstX := xOf d, dstY := yOf d, dstPanel := bits da 10 7, dstLogical := bits da 6 0 } : Packet)
    let Asked := fun (k0 k' : Core) (get : Bool) =>
      k' = { k0.advance with
        queues := k'.queues, nextId := k.nextId + 1, nextRid := k.nextRid + 1
        rqOut := k.rqOut ++ [⟨k.nextRid, q, k.nextId, get, p, n, f.imm16.toNat⟩]
        hzRanges := k.hzRanges ++ [⟨q, k.nextId, p, n, k.pc⟩] } ∧
      k'.queue q = k.queue q ++ [⟨k.nextId, .word none⟩] ∧ ∀ q', q' ≠ q → k'.queue q' = k.queue q'
    let Ready := fun (k0 k' : Core) (w : Word64) =>
      k' = { k0.advance with queues := k'.queues, nextId := k.nextId + 1 } ∧
      (k'.queue q).getLast? = some ⟨k.nextId, .word (some w)⟩ ∧ (k'.queue q).length = (k.queue q).length + 1
    (k.roomFor q 1 = true → farOk f = true → farForm a = true → farForm b = true → k.wideOk (bits a 20 0) n = true →
      (∀ d, s.translate c.val (bits da 10 7) (bits da 6 0) = some d →
        (∃ t, exec (.rget c g f) s = .next t ∧ s.OnlyCoreAndPackets t c [far 1 d] ∧ Asked k (t.core c.val) true) ∧
        (k.poisoned p n = [] →
          ∃ t, exec (.rput c g f) s = .next t ∧ Asked (k.readFix p n) (t.core c.val) false ∧
            s.OnlyCoreAndPackets t c [{ far 0 d with payload := k.bytesAt p n, poison := false }]) ∧
        (k.poisoned p n ≠ [] →
          ∃ t, exec (.rput c g f) s = .next t ∧
            s.OnlyCorePacketsAndLog t c [{ far 0 d with payload := k.bytesAt p n, poison := true }] ∧
            Asked (k.readFix p n) { t.core c.val with spUncorr := k.spUncorr, badWords := k.badWords } false ∧
            (t.core c.val).spUncorr = (k.spUncorr + (k.poisoned p n).length) % 2 ^ 64)) ∧
      (s.translate c.val (bits da 10 7) (bits da 6 0) = none →
        (∃ t, exec (.rget c g f) s = .next t ∧ s.OnlyCore t c ∧
          Ready k (t.core c.val) (complWord f.imm16.toNat 4 2 false 0)) ∧
        (∃ t, exec (.rput c g f) s = .next t ∧ s.OnlyCore t c ∧
          Ready (k.readFix p n) (t.core c.val) (complWord f.imm16.toNat 4 2 false 0)))) ∧
    (∀ p' l, k.roomFor q 1 = true → f.imm16.toNat ≠ 0 → f.imm16.toNat ≤ 4096 → mcastFrom k f = some (p' :: l) →
      movOk f [true, false, true, false, false, true, false, false, false, true, true] = true →
      let len := 128 * f.imm16.toNat
      let part := fun j => min 4096 (len - 4096 * j)
      let pks := (List.range (ceilDiv len 4096)).map fun j =>
        { s.packetFrom c.val 3 1 with
          group := f.group.toNat, taint := k.ftaintOf f.ry.toNat, addr := a % 2 ^ 24 + 4096 * j
          poison := !(k.poisoned (p' + 4096 * j) (part j)).isEmpty
          payload := k.bytesAt (p' + 4096 * j) (part j) }
      ∃ t, exec (.mcast c g f) s = .next t ∧ s.OnlyCorePacketsAndLog t c pks ∧
        Ready (k.readFix p' len) { t.core c.val with spUncorr := k.spUncorr, badWords := k.badWords }
          (complWord 0 0 3 false len) ∧
        ((∀ j, k.poisoned (p' + 4096 * j) (part j) = []) → s.OnlyCoreAndPackets t c pks ∧
          (t.core c.val).spUncorr = k.spUncorr ∧ (t.core c.val).badWords = k.badWords)) ∧
    (∀ id set rest, k.queue q = ⟨id, .bolts (some set)⟩ :: rest → movOk f [true, true, false, false, false, true] = true →
      let root := s.isRoot c.val f.group.toNat
      let Sends := fun (P : Core → Prop) => ∃ t pk, exec (.rsend c g f) s = .next t ∧ s.OnlyCoreAndPackets t c [pk] ∧
        pk = { s.packetFrom c.val 4 1 with
          group := f.group.toNat, excMask := pk.excMask, ovfMask := pk.ovfMask, payload := pk.payload } ∧
        (∀ j, j < 64 → leAt pk.payload (8 * j) 8 = (set.getD j {}).value.toNat ∧
          pk.excMask.getLsbD j = (set.getD j {}).exc ∧ pk.ovfMask.getLsbD j = (set.getD j {}).ovf) ∧ P (t.core c.val)
      (root = false → f.qb = 0#3 → Sends fun k' => k' = (k.popHead q).advance ∧ k'.queue q = rest) ∧
      (root = false → f.qb ≠ 0#3 → ∃ t, exec (.rsend c g f) s = .next t ∧
        t.core c.val = { k with run := .trapped, trapCode := 1, trapStatus := 0 }) ∧
      (root = true → (k.popHead q).roomFor f.qb.toNat 1 = true → Sends fun k' =>
        k' = { (k.popHead q).advance with queues := k'.queues, nextId := k.nextId + 1
                                          redWait := k.redWait ++ [(f.group.toNat, f.qb.toNat, k.nextId)] } ∧
        k'.queue f.qb.toNat = (k.popHead q).queue f.qb.toNat ++ [⟨k.nextId, .bolts none⟩] ∧
        (∀ x, x ≠ f.qb.toNat → k'.queue x = (k.popHead q).queue x) ∧ (k.popHead q).queue q = rest))

/-! ## Idmor: synchronisation and sampling -/

/-- TACK sends the core's tack word and holds the core; FENCE moves on once no pass is queued; WAIT sets the earliest
next issue; NOTE appends a notice; GOWN asks for the granules' owner and moves on once every tag is as asked. -/
def Obligations.SynchronisationInstructions : Prop :=
  ∀ (s : State) (c : CoreId) (g : Guard) (f : SyncF), s.Ready c g → f.res = 0#6 →
    let k := s.core c.val
    (f.rs = 0#6 → f.emask = 0#8 → f.imm32 = 0#32 → k.anyReserved = false → k.quiet = true →
      ∃ t pk, exec (.tack c g f) s = .next t ∧ s.OnlyCoreAndPackets t c [pk] ∧ pk.kind = 7 ∧ pk.group = 63 ∧ pk.vc = 0 ∧
        t.core c.val = { k with run := .atTack, tackAt := s.tackSeqOf k }) ∧
    (f.rs = 0#6 → f.imm32 = 0#32 →
      ((∀ p ∈ positions f.emask, hasPass (k.posOf p).cmdq = false) →
        exec (.fenceI c g f) s = .next (s.setCore c.val k.advance)) ∧
      ((∃ p ∈ positions f.emask, hasPass (k.posOf p).cmdq = true) → exec (.fenceI c g f) s = .next s)) ∧
    (f.emask = 0#8 → specOk f.rs.toNat = true →
      ∃ t, exec (.waitI c g f) s = .next t ∧ s.OnlyCore t c ∧
        t.core c.val = { k.advance with
          issueAt := s.mclkAcc / 1000000 + (s.readReg k f.rs.toNat).toNat + f.imm32.toNat + 1 }) ∧
    (f.rs = 0#6 → f.emask = 0#8 →
      (k.notices.length < 4 → ∃ t, exec (.noteI c g f) s = .next t ∧ s.OnlyCore t c ∧
        t.core c.val = { k.advance with notices := k.notices ++ [f.imm32] }) ∧
      (4 ≤ k.notices.length → exec (.noteI c g f) s = .next s)) ∧
    (∀ gs, f.emask = 0#8 → specIsA f.rs.toNat = true → bits f.imm32.toNat 15 10 = 0 → bits f.imm32.toNat 31 22 = 0 →
      (bits f.imm32.toNat 9 0 < 0x200 ∨ 0x3FD < bits f.imm32.toNat 9 0) →
      (bits f.imm32.toNat 9 0 < 512 → s.mayOwn (bits f.imm32.toNat 9 0) k.logInst = true) →
      k.granules (s.readReg k f.rs.toNat).toNat (bits f.imm32.toNat 21 16 + 1) = some gs →
      ((∀ x ∈ gs, k.ownerOf x = bits f.imm32.toNat 9 0) → exec (.gown c g f) s = .next (s.setCore c.val k.advance)) ∧
      ((∃ x ∈ gs, k.ownerOf x ≠ bits f.imm32.toNat 9 0) →
        ∃ t, exec (.gown c g f) s = .next t ∧ s.OnlyCore t c ∧ (t.core c.val).pc = k.pc ∧
          (∀ z ∈ k.zeroq, z ∈ (t.core c.val).zeroq) ∧
          (∀ x ∈ gs, k.ownerOf x ≠ bits f.imm32.toNat 9 0 → 
            ∃ z ∈ (t.core c.val).zeroq, z.granule = x ∧ z.owner = bits f.imm32.toNat 9 0) ∧
          t.core c.val = { k with zeroq := (t.core c.val).zeroq }))

/-- The sampling instructions: CTOP merges the offered logits of its registers into the candidate buffer of the slot and
keeps the best k, k = 0 meaning the slot-parameter table's value; CSEND sends the buffer, a header alone when it is empty,
with its completion ready, and empties it; SPICK waits for the slot's arrival on the selector, writes the token drawn from
its merge entry, and frees the entry, an empty one giving token 0 with the taint bit; SACC writes the count of accepted
draft tokens once every verified slot is picked, and waits until then. An inexact draw is counted.
Rests on the reading of log entry 67. -/
def Obligations.SamplingInstructions : Prop :=
  ∀ (s : State) (c : CoreId) (g : Guard) (f : SampF), s.Ready c g →
    let k := s.core c.val
    let slot := f.imm13.toNat
    (f.q = 0#3 → f.group = 0#6 → specOk f.rd.toNat = true → f.k.toNat ≤ 256 → f.fs.toNat + f.mcount.toNat + 1 ≤ 64 →
      let m := f.mcount.toNat + 1
      let old := k.cand.getD ⟨slot, [], false⟩
      let logits := (List.range m).flatMap fun j => (List.range 128).map fun i =>
        ((s.readReg k f.rd.toNat).toNat + 128 * j + i, lane32 (k.freg (f.fs.toNat + j)) i)
      let offered := logits.filter fun x => decide (x.1 < 2 ^ 24) && (!nan32 x.2 && x.2 != 0xFF800000)
      (old.slot = slot ∨ old.cands = [] →
        ∃ t, exec (.ctop c g f) s = .next t ∧ s.OnlyCore t c ∧ t.core c.val = { k.advance with
          cand := some ⟨slot, candMerge (if f.k = 0#9 then (s.planOf k).ctopK slot else f.k.toNat) old.cands
            offered, old.taint || k.itaint || (logits.any fun x => decide (x.1 < 2 ^ 24) && nan32 x.2) ||
              (List.range m).any fun j => k.ftaintOf (f.fs.toNat + j)⟩ }) ∧
      (old.slot ≠ slot → old.cands ≠ [] → ∃ t, exec (.ctop c g f) s = .next t ∧
        t.core c.val = { k with run := .trapped, trapCode := 6, trapStatus := 0 })) ∧
    (f.fs = 0#6 → f.rd = 0#6 → f.mcount = 0#9 → f.k = 0#9 →
      let b := k.cand.getD ⟨slot, [], false⟩
      (b.slot = slot → k.roomFor f.q.toNat 1 = true →
        ∃ t, exec (.csend c g f) s = .next t ∧
          s.OnlyCoreAndPackets t c [{ s.packetFrom c.val 3 1 with
            group := f.group.toNat, tag := slot, taint := b.taint, addr := 0xC00000
            payload := b.cands.flatMap candBytes }] ∧
          t.core c.val = { k.advance with cand := none, queues := (t.core c.val).queues, nextId := k.nextId + 1 } ∧
          ((t.core c.val).queue f.q.toNat).getLast? =
            some ⟨k.nextId, .word (some (complWord slot 0 3 false (8 * b.cands.length)))⟩) ∧
      (b.slot ≠ slot → ∃ t, exec (.csend c g f) s = .next t ∧
        t.core c.val = { k with run := .trapped, trapCode := 6, trapStatus := 0 })) ∧
    (∀ e rest, f.fs = 0#6 → f.mcount = 0#9 → f.k = 0#9 → f.group = 0#6 → specOk f.rd.toNat = true →
      specWritable f.rd.toNat = true → k.selector = true → k.queue f.q.toNat = e :: rest →
      (e.kind = .word none → exec (.spick c g f) s = .next s) ∧
      (∀ w, e.kind = .word (some w) → wStatus w = 0 → wSource w = 4 → wTag w = slot →
        let b := k.mergeOf slot
        let d := if b.cands = [] then (0, false) else spickDraw (s.drawOf (s.planOf k) slot) b.cands
        let taint := b.taint || wTaint w || k.itaint || b.cands.isEmpty
        ∃ t, exec (.spick c g f) s = .next t ∧ t = { s with cores := t.cores, dict := t.dict } ∧
          (∀ x, x ≠ c.val → t.core x = s.core x) ∧
          (k.popHead f.q.toNat).Wrote { t.core c.val with merge := k.merge, picks := k.picks } f.rd.toNat
            (BitVec.ofNat 32 (d.1 % 2 ^ 24 + b2n taint * 2 ^ 31)) ∧
          (t.core c.val).queue f.q.toNat = rest ∧ (t.core c.val).merge = k.merge.filter (fun x => x.slot != slot) ∧
          mapGet (fun _ => 0) (t.core c.val).picks slot % 2 ^ 32 = d.1 % 2 ^ 24 + b2n taint * 2 ^ 31 + 1 ∧
          (∀ x, x ≠ slot → mapGet (fun _ => 0) (t.core c.val).picks x = mapGet (fun _ => 0) k.picks x) ∧
          (d.2 = false → ∀ key, t.rd key = s.rd key) ∧
          (d.2 = true → t.rd (K.penaltyInexact k.logInst) = (s.rd (K.penaltyInexact k.logInst) + 1) % 2 ^ 64 ∧
            ∀ key, key ≠ K.penaltyInexact k.logInst → t.rd key = s.rd key))) ∧
    (f.fs = 0#6 → f.mcount = 0#9 → f.q = 0#3 → f.group = 0#6 → f.k = 0#9 → specOk f.rd.toNat = true →
      specWritable f.rd.toNat = true → k.selector = true →
      ((∀ x ∈ (s.planOf k).verifyAt slot, (k.pickOf x.1).isSome) →
        ∃ t, exec (.sacc c g f) s = .next t ∧ s.OnlyCore t c ∧
          k.Wrote (t.core c.val) f.rd.toNat (BitVec.ofNat 32 (k.accepted ((s.planOf k).verifyAt slot)))) ∧
      ((∃ x ∈ (s.planOf k).verifyAt slot, (k.pickOf x.1) = none) → exec (.sacc c g f) s = .next s))

/-! ## Engine events -/

/-- The events at the head of a position's command queue, the engine not held: a pass runs to its end into the bolts, or
to a mismatch, where its engine is held at the block and keeps the pass at the head; poison sets every bolt's `exc`; a
flush posts the 64 bolts and clears them; a zeroing clears them; a check read posts its completion word with the number of
rows that fail. Each that ends leaves the queue shorter by one, and every other position stays as it was. A pass may capture
a sample for the fitting check. -/
def Obligations.EngineEventsConsumeQueueHead : Prop :=
  ∀ (s : State) (c : CoreId) (p : Pos) (rest : List ECmd),
    let k := s.core c.val
    let st := k.posOf p.val
    let e := k.engineAt p.val
    (k.engOf e).held = none →
    (∀ q, s.rd K.hzMode = 0 → st.cmdq = .pass q :: rest →
      let run := (k.passCfg p.val q).run st.bolts st.seen st.resume
      let n := tdBlocks ((k.engOf e).td q.tile)
      let lo := 524288 * p.val + q.elems + mmvLen q.ectl st.resume
      let len := mmvLen q.ectl (run.heldAt.getD n) - mmvLen q.ectl st.resume
      let bad := k.poisoned lo len
      let bolts := if q.poison || !bad.isEmpty then allExc run.bolts else run.bolts
      ∃ t, exec (.enginePass c p) s = .next t ∧ s.OnlyCoreAndLog t c ∧
        (bad = [] → t = { s with cores := t.cores, dict := t.dict }) ∧
        (∀ i, k.inst = some i → t.rd (K.precStatus i.val) = s.rd (K.precStatus i.val) ||| 16 * (run.stat % 4)) ∧
        (t.core c.val).posOf p.val = (match run.heldAt with
          | none => { st with cmdq := rest, bolts := bolts, resume := 0, seen := [], before := none }
          | some b => { st with bolts := bolts, resume := b, seen := run.seen,
                                before := some (st.before.getD (boltValues st.bolts)) }) ∧
        (∀ b, run.heldAt = some b → (k.engOf e).repairOf q.tile = none →
          ((t.core c.val).engOf e).held = some ⟨q.tile, some b, s.uptime⟩) ∧
        (run.heldAt = none → (t.core c.val).engOf e = ((k.engOf e).account run).count 0 1 ∧
          ∀ j, j ≠ e → (t.core c.val).engOf j = k.engOf j) ∧
        (∀ j, j ≠ p.val → (t.core c.val).posOf j = k.posOf j) ∧
        t.core c.val = { k.readFix lo len with
          eng := (t.core c.val).eng, pos := (t.core c.val).pos, side := (t.core c.val).side
          staging := (t.core c.val).staging, spUncorr := (t.core c.val).spUncorr, badWords := (t.core c.val).badWords }) ∧
    (∀ q id, st.cmdq = .bflush q id :: rest →
      ∃ t, exec (.boltSetPost c p) s = .next t ∧ s.OnlyCore t c ∧
        (t.core c.val).queue q = (k.queue q).map (fun x => if x.id = id then
          ⟨x.id, .bolts (some ((List.range 64).map fun n => mapGet (fun _ => {}) st.bolts n))⟩ else x) ∧
        (∀ q', q' ≠ q → (t.core c.val).queue q' = k.queue q') ∧
        (t.core c.val).posOf p.val = { st with cmdq := rest, bolts := [] } ∧
        (∀ j, j ≠ p.val → (t.core c.val).posOf j = k.posOf j) ∧
        t.core c.val = { k with pos := (t.core c.val).pos, queues := (t.core c.val).queues }) ∧
    (st.cmdq = .bzero :: rest →
      ∃ t, exec (.boltZero c p) s = .next t ∧ s.OnlyCore t c ∧
        (t.core c.val).posOf p.val = { st with cmdq := rest, bolts := [] } ∧
        (∀ j, j ≠ p.val → (t.core c.val).posOf j = k.posOf j) ∧ t.core c.val = { k with pos := (t.core c.val).pos }) ∧
    (∀ tile q id, st.cmdq = .csum tile q id :: rest →
      let td := (k.engOf e).td tile
      let n := (failingRows td (k.servingImage e tile).2 (mdBlocksOf (tdBlocks td) 2 (k.servingErr e tile))).length
      ∃ t, exec (.checkRead c p) s = .next t ∧ s.OnlyCore t c ∧
        (t.core c.val).queue q = (k.queue q).map (fun x => if x.id = id then
          ⟨x.id, .word (some (complWord tile 0 5 false n))⟩ else x) ∧
        (∀ q', q' ≠ q → (t.core c.val).queue q' = k.queue q') ∧
        (t.core c.val).posOf p.val = { st with cmdq := rest } ∧
        (∀ j, j ≠ p.val → (t.core c.val).posOf j = k.posOf j) ∧
        (n = 0 → ((t.core c.val).engOf e).held = none) ∧
        (0 < n → (k.engOf e).repairOf tile = none → ((t.core c.val).engOf e).held = some ⟨tile, none, s.uptime⟩) ∧
        t.core c.val = { k with
          pos := (t.core c.val).pos, queues := (t.core c.val).queues, eng := (t.core c.val).eng
          staging := (t.core c.val).staging })

/-- The steps of a tile's repair: a fetched golden image leads to the gusset's new copy, to the gusset's fill, or to the
in-place re-program when no gusset serves; a fetch from host memory that brought nothing is retried; a verified gusset copy
serves and releases the engine, one that does not verify leaves it to the in-place re-program; a re-program that verifies
releases the engine, or returns the tile, at once when its pass is held; one that does not marks the tile failed, and the
core fails unless the gusset keeps the tile. A queue of engine events is drained into the event log in its order. -/
def Obligations.RepairStepsAdvance : Prop :=
  ∀ (s : State) (c : CoreId) (e : EngId) (r : Repair),
    let k := s.core c.val
    let x := k.engOf e.val
    let Repairs := fun (t : State) (y : Repair) => y ∈ ((t.core c.val).engOf e.val).repairs
    (k.repairIn e.val .fetch = some r →
      (∀ host, tdGoldenHost (x.td r.tile) = false ∨ host ≠ [] →
        let img := if tdGoldenHost (x.td r.tile) then host else s.goldenInHbm k (x.td r.tile)
        ∃ t, exec (.goldenFetchDone c e host) s = .next t ∧ s.OnlyCore t c ∧
          (k.copyOf e.val r.tile ≠ none → Repairs t { r with step := .gussetReprogram, image := img }) ∧
          (k.copyOf e.val r.tile = none → r.gusset = false → Repairs t { r with step := .reprogram, image := img }) ∧
          (k.copyOf e.val r.tile = none → r.gusset = true → Repairs t { r with step := .verifyGusset, image := img } ∧
            ⟨e.val, r.tile, img, false, false, []⟩ ∈ ((t.core c.val).engOf 8).copies) ∧
          t.core c.val = { k with
            eng := (t.core c.val).eng, staging := (t.core c.val).staging, stagingMem := (t.core c.val).stagingMem }) ∧
      (tdGoldenHost (x.td r.tile) = true →
        ∃ t, exec (.goldenFetchDone c e []) s = .next t ∧ s.OnlyCore t c ∧ Repairs t { r with step := .fetchRetry } ∧
          t.core c.val = { k with eng := (t.core c.val).eng })) ∧
    (k.repairIn e.val .fetchRetry = some r →
      ∃ t, exec (.goldenFetchRetry c e) s = .next t ∧ s.OnlyCore t c ∧ Repairs t { r with step := .fetch } ∧
        (∀ j, j ≠ e.val → (t.core c.val).engOf j = k.engOf j) ∧ t.core c.val = { k with eng := (t.core c.val).eng }) ∧
    (k.engineIn .verifyGusset = some (e.val, r) → e.val ≠ 8 →
      (∃ t, exec (.gussetCopyVerified c true) s = .next t ∧ s.OnlyCore t c ∧
        ((t.core c.val).engOf e.val).held = none ∧ bit (((t.core c.val).engOf e.val).td r.tile) 26 = true ∧
        Repairs t { r with step := .reprogram, held := false } ∧
        (∀ g, k.copyOf e.val r.tile = some g → { g with serving := true } ∈ ((t.core c.val).engOf 8).copies) ∧
        t.core c.val = { k with eng := (t.core c.val).eng }) ∧
      (∃ t, exec (.gussetCopyVerified c false) s = .next t ∧ s.OnlyCore t c ∧
        ((t.core c.val).engOf e.val).held = x.held ∧ Repairs t { r with step := .reprogram, gusset := false } ∧
        (∀ g ∈ ((t.core c.val).engOf 8).copies, g.owner ≠ e.val ∨ g.tile ≠ r.tile) ∧
        t.core c.val = { k with eng := (t.core c.val).eng })) ∧
    (k.repairIn e.val .reprogram = some r → (e.val = 8 → k.engineIn .gussetReprogram = none) →
      (∃ t, exec (.reprogramVerified c e true) s = .next t ∧ s.OnlyCore t c ∧
        ((t.core c.val).engOf e.val).lining = (x.program r.tile r.image).lining ∧
        ((t.core c.val).engOf e.val).md = (x.program r.tile r.image).md ∧
        (r.gusset = true → r.held = false → Repairs t { r with step := .returnTack } ∧
          ((t.core c.val).engOf e.val).held = x.held) ∧
        (r.gusset = false ∨ r.held = true → ((t.core c.val).engOf e.val).held = none ∧
          ∀ y ∈ ((t.core c.val).engOf e.val).repairs, y.tile ≠ r.tile) ∧
        (r.gusset = true → r.held = true → bit (((t.core c.val).engOf e.val).td r.tile) 26 = false ∧
          ∀ g ∈ ((t.core c.val).engOf 8).copies, g.owner ≠ e.val ∨ g.tile ≠ r.tile) ∧
        t.core c.val = { k with eng := (t.core c.val).eng }) ∧
      (∃ t, exec (.reprogramVerified c e false) s = .next t ∧
        bit (((t.core c.val).engOf e.val).td r.tile) 27 = true ∧ ((t.core c.val).engOf e.val).lining = x.lining ∧
        (r.gusset = true → s.OnlyCore t c ∧ Repairs t { r with step := .gussetReprogram } ∧
          t.core c.val = { k with eng := (t.core c.val).eng }) ∧
        (r.gusset = false → Repairs t { r with step := .failed } ∧ mapGet (fun _ => false) t.marks c.val = true ∧
          (mapGet (fun _ => false) s.marks c.val = false →
            (t.core c.val).fenced = true ∧ t.rd (K.failCause c.val) = 1)))) ∧
    (∀ o, e.val = 8 → k.engineIn .gussetReprogram = some (o, r) → o ≠ 8 →
      (∃ t, exec (.reprogramVerified c e true) s = .next t ∧ s.OnlyCore t c ∧
        (r.held = true → ((t.core c.val).engOf o).held = none ∧
          (∀ y ∈ ((t.core c.val).engOf o).repairs, y.tile ≠ r.tile) ∧
          ∀ g, k.copyOf o r.tile = some g → { g with image := r.image, mdErr := [] } ∈ ((t.core c.val).engOf 8).copies) ∧
        (r.held = false → { r with step := .switchTack } ∈ ((t.core c.val).engOf o).repairs) ∧
        t.core c.val = { k with eng := (t.core c.val).eng }) ∧
      (∃ t, exec (.reprogramVerified c e false) s = .next t ∧
        { r with step := .failed } ∈ ((t.core c.val).engOf o).repairs ∧ mapGet (fun _ => false) t.marks c.val = true)) ∧
    (∃ t, exec (.eventQueueDrain c e) s = .next t ∧ s.OnlyCoreAndLog t c ∧ ((t.core c.val).engOf e.val).evq = [] ∧
      (x.evq.length ≤ 16 → (t.log.take x.evq.length).map (fun y => y.record) = x.evq.reverse ∧
        ∀ y ∈ t.log.take x.evq.length, y.source = 0) ∧
      (∀ j, j ≠ e.val → (t.core c.val).engOf j = k.engOf j) ∧ t.core c.val = { k with eng := (t.core c.val).eng })

/-- The fitting check of a sampled pass that has ended: when its weights arrive the reference outputs are formed and stand in
the side buffer; the recomputation of the slot's tile frees the slot and counts one sample, and one flag, its log record and the instance's
sticky bit when the error passes the threshold; a missed deadline frees the slot and counts it dropped. The weight re-check:
a round starts with every shard to check; a round not finished in time is counted late once and goes on; a shard whose
tiles may be read is crossed off, the last one sets the round's time; one that does not hold is counted, and with bad golden
copies, or with its source gone, the instance faults with code 5.
What the command carries of a fetch, and how the error is formed, are the model's readings (log entries 12, 73 and 79). -/
def Obligations.FittingCheckAndRecheck : Prop :=
   (∀ (s : State) (c : CoreId) (slot : Fin 2) (tile : Fin 512) (x : FcSample) (d : List Int × Int),
      let k := s.core c.val
      let td := (k.engOf x.engine).td x.tile
      k.sideSlot slot.val = some x → x.diff = some d →
      (∀ host,
        let img := if tdGoldenHost td then host else s.goldenInHbm k td
        ∃ t, exec (.fcWeightFetchDone c slot host) s = .next t ∧ s.OnlyCore t c ∧
          (t.core c.val).sideSlot slot.val = some { x with
            ref := some ((List.range 64).map fun n => BitVec.ofNat 32 (roundTo f32 (fcRef td img x.rows n))) } ∧
          (∀ j, j ≠ slot.val → (t.core c.val).sideSlot j = k.sideSlot j) ∧
          t.core c.val = { k with side := (t.core c.val).side, staging := (t.core c.val).staging,
                                  stagingMem := (t.core c.val).stagingMem }) ∧
      (x.tile = tile.val → ∀ ref, x.ref = some ref →
        let err := fcError (d.1.map fun v => r32 (Fl.ofInt v d.2)) (ref.map fun v => Sys2Proof.Machine.decode f32 v.toNat)
        let high := (Sys2Proof.Machine.decode bf16 x.threshold).lt err
        ∃ t, exec (.fcRecompute c slot tile) s = .next t ∧ s.OnlyCoreAndLog t c ∧
          (t.core c.val).sideSlot slot.val = none ∧ t.core c.val = { k with side := (t.core c.val).side } ∧
          t.rd K.fcSamples = (s.rd K.fcSamples + 1) % 2 ^ 64 ∧
          t.rd K.fcFlags = (if high then (s.rd K.fcFlags + 1) % 2 ^ 64 else s.rd K.fcFlags) ∧
          (high = false → t.log = s.log ∧ ∀ key, key ≠ K.fcSamples → t.rd key = s.rd key) ∧
          (high = true → (∃ y, t.log.head? = some y ∧ y.record % 16 = 9 ∧ y.inst = k.logInst) ∧
            ∀ i, k.inst = some i → (t.rd (K.precStatus i.val)).testBit 0 = true)) ∧
      (x.ref = none ∨ x.tile ≠ tile.val → exec (.fcRecompute c slot tile) s = .next s) ∧
      (∃ t, exec (.fcDeadline c slot) s = .next t ∧
        t = { s with cores := t.cores, dict := t.dict } ∧ (∀ d, d ≠ c.val → t.core d = s.core d) ∧
        (t.core c.val).sideSlot slot.val = none ∧ t.rd K.fcDropped = (s.rd K.fcDropped + 1) % 2 ^ 64 ∧
        (∀ key, key ≠ K.fcDropped → t.rd key = s.rd key) ∧
        t.core c.val = { k with side := (t.core c.val).side, staging := (t.core c.val).staging,
                                stagingMem := (t.core c.val).stagingMem })) ∧
   (∀ (s : State) (i : InstId) (n : Nat) (refetched : Option (List Byte)),
      let x := s.inst i.val
      (s.ready i.val = true → s.rd (K.recheckInterval i.val) ≠ 0 → x.recheck = none →
        ∃ t, exec (.recheckRound i) s = .next t ∧ t = { s with insts := t.insts } ∧
          t.inst i.val = { x with recheck := some { left := x.recheckShards, start := s.time } } ∧
          ∀ j, j ≠ i.val → t.inst j = s.inst j) ∧
      (∀ r, s.ready i.val = true → s.rd (K.recheckInterval i.val) ≠ 0 → x.recheck = some r →
        (r.late = true → exec (.recheckRound i) s = .next s) ∧
        (r.late = false → ∃ t, exec (.recheckRound i) s = .next t ∧ t = { s with insts := t.insts, dict := t.dict } ∧
          t.inst i.val = { x with recheck := some { r with late := true } } ∧ (∀ j, j ≠ i.val → t.inst j = s.inst j) ∧
          t.rd (K.recheckLate i.val) = (s.rd (K.recheckLate i.val) + 1) % 2 ^ 32 ∧
          ∀ key, key ≠ K.recheckLate i.val → t.rd key = s.rd key)) ∧
      (∀ r, x.recheck = some r → n ∈ r.left → x.retention = false → x.replacing = [] →
        (∀ j ∈ x.shardTiles n, s.tileBusy i.val j = false) →
        let left := r.left.erase n
        (s.shardHolds i.val n = true →
          ∃ t, exec (.recheckShardDone i n refetched) s = .next t ∧
            t = { s with insts := t.insts, dict := t.dict, cores := t.cores } ∧
            t.inst i.val = { x with recheck := if left.isEmpty then none else some { r with left := left } } ∧
            (∀ j, j ≠ i.val → t.inst j = s.inst j) ∧
            (left = [] → t.rd (K.recheckLast i.val) = s.time) ∧
            ∀ key, key ≠ K.recheckLast i.val ∨ left ≠ [] → t.rd key = s.rd key) ∧
        (s.shardHolds i.val n = false → s.ready i.val = true →
          ∃ t, exec (.recheckShardDone i n refetched) s = .next t ∧
            t.rd (K.recheckMismatch i.val) = (s.rd (K.recheckMismatch i.val) + 1) % 2 ^ 32 ∧
            (t.inst i.val).recheck = (if left.isEmpty then none else some { r with left := left }) ∧
            ((manShard x.manifest n).kind = 1 →
              ((x.shardBytes n (s.goldenOf i.val)).any fun b => Config.sha384 b != (manShard x.manifest n).digest) = true →
              t.rd (K.instState i.val) = 5 ∧ t.rd (K.faultCode i.val) = 5) ∧
            ((manShard x.manifest n).kind ≠ 1 → refetched = none →
              t.rd (K.instState i.val) = 5 ∧ t.rd (K.faultCode i.val) = 5))) ∧
      (∀ r, x.recheck = some r →
        n ∉ r.left ∨ x.retention = true ∨ x.replacing ≠ [] ∨ (∃ j ∈ x.shardTiles n, s.tileBusy i.val j = true) →
        exec (.recheckShardDone i n refetched) s = .next s))

/-- The scratchpad's own events: the scrubber corrects and counts a single-bit error of the word at its pointer, and counts,
records and keeps poisoned an uncorrectable one, and its pointer moves on; a command that names another word does nothing; a granule that nothing queued names is zeroed,
loses its poison and its errors and takes the owner that waits, and the MCLK cycles that it waited are counted; one that is
named goes on waiting. An idle engine's scrub reads a tile whose check read was deferred, or else the next valid tile from
its rolling pointer, which moves past it. The scrubbers are always on (log entry 66).
Rests on the readings of log entries 65 and 66. -/
def Obligations.ScrubsAndGranuleZero : Prop :=
   (∀ (s : State) (c : CoreId) (word : Fin 786432) (found : Ecc) (g : Fin 1536), s.rd K.hzMode = 0 →
      let k := s.core c.val
      let w := k.scrubPtr
      let single := found == .single || mapGet (fun _ => false) k.spFlip w
      let bad := found == .uncorrectable || mapGet (fun _ => false) k.poison w
      (s.scrubOn = false ∨ w ≠ word.val → exec (.scratchpadScrub c word found) s = .next s) ∧
      (s.scrubOn = true → w = word.val → ∃ t, exec (.scratchpadScrub c word found) s = .next t ∧ s.OnlyCoreAndLog t c ∧
        (t.core c.val).spCorrected = (if single then (k.spCorrected + 1) % 2 ^ 64 else k.spCorrected) ∧
        (t.core c.val).scrubPtr = (w + 1) % 786432 ∧
        (∀ x, mapGet (fun _ => false) (t.core c.val).spFlip x = if x = w then false else mapGet (fun _ => false) k.spFlip x) ∧
        (∀ x, mapGet (fun _ => false) (t.core c.val).poison x = if x = w then bad else mapGet (fun _ => false) k.poison x) ∧
        (bad = false → s.OnlyCore t c ∧ (t.core c.val).spUncorr = k.spUncorr ∧ (t.core c.val).badWords = k.badWords) ∧
        (bad = true → (t.core c.val).spUncorr = (k.spUncorr + 1) % 2 ^ 64 ∧ w ∈ (t.core c.val).badWords ∧
          ∃ y, t.log.head? = some y ∧ y.record % 16 = 0xC ∧ y.source = 0) ∧
        t.core c.val = { k with
          spFlip := (t.core c.val).spFlip, spCorrected := (t.core c.val).spCorrected, poison := (t.core c.val).poison
          spUncorr := (t.core c.val).spUncorr, badWords := (t.core c.val).badWords, scrubPtr := (w + 1) % 786432 }) ∧
      ((∀ z ∈ k.zeroq, z.granule ≠ g.val) → exec (.granuleZero c g) s = .next s) ∧
      (∀ z, (k.zeroq.find? fun y => y.granule == g.val) = some z →
        (k.passReads g.val = true ∨ k.transferNames g.val = true → exec (.granuleZero c g) s = .next s) ∧
        (k.passReads g.val = false → k.transferNames g.val = false →
          ∃ t, exec (.granuleZero c g) s = .next t ∧ s.OnlyCore t c ∧
            (∀ h, (t.core c.val).ownerOf h = if h = g.val then z.owner else k.ownerOf h) ∧
            (∀ a, memByte (t.core c.val).sp a = if 4096 * g.val ≤ a ∧ a < 4096 * g.val + 4096 then 0 else memByte k.sp a) ∧
            (∀ x, mapGet (fun _ => false) (t.core c.val).poison x =
              if 512 * g.val ≤ x ∧ x < 512 * g.val + 512 then false else mapGet (fun _ => false) k.poison x) ∧
            (∀ x, mapGet (fun _ => false) (t.core c.val).spFlip x =
              if 512 * g.val ≤ x ∧ x < 512 * g.val + 512 then false else mapGet (fun _ => false) k.spFlip x) ∧
            t.core c.val = { k with
              sp := (t.core c.val).sp, poison := (t.core c.val).poison, spFlip := (t.core c.val).spFlip
              owner := (t.core c.val).owner, zeroq := k.zeroq.erase z
              zeroWait := (k.zeroWait + (s.mclkAcc / 1000000 - z.since)) % 2 ^ 64 }))) ∧
   (∀ (s : State) (c : CoreId) (e : EngId),
      let k := s.core c.val
      let x := k.engOf e.val
      let Reads := fun (P : EngState → Prop) => ∃ t, exec (.scrubCheckRead c e) s = .next t ∧ s.OnlyCore t c ∧
        P ((t.core c.val).engOf e.val) ∧
        t.core c.val = { k with eng := (t.core c.val).eng, staging := (t.core c.val).staging }
      x.held = none → (k.posOf (k.positionOf e.val)).cmdq = [] → s.scrubOn = true → s.liningAsleep k = false →
      (∀ tile rest, x.due = tile :: rest → Reads fun y => y.due = rest ∧ y.scrubTile = x.scrubTile) ∧
      (∀ tile, x.due = [] → x.nextTile = some tile → tdValid (x.td tile) = true ∧
        Reads fun y => y.due = [] ∧ y.scrubTile = (tile + 1) % 512) ∧
      ∀ tile, (x.due.head? = some tile ∨ x.due = [] ∧ x.nextTile = some tile) → x.repairOf tile = none →
        failingRows (x.td tile) (k.servingImage e.val tile).2
          (mdBlocksOf (tdBlocks (x.td tile)) 2 (k.servingErr e.val tile)) ≠ [] →
        Reads fun y => y.held = some ⟨tile, none, s.uptime⟩)

/-! ## The fabric -/

/-- Links: a flit that is in sequence and whole is accepted. Any other is discarded: it is counted, as a lone burst of a
stitch or as a replay, and a replay is asked for; while a replay is awaited, what carries another number is discarded and
not counted so. A link gives up when its number has been replayed 4 times and fails again, or after more than 1,024
discards within one window of 1 ms: a router link is then marked failed, a neighbour link answers nothing more. A replay
request sets the sender's next sequence number. Nothing is heard on a failed link.
The window and what is not counted are the model's readings (log entry 76). -/
def Obligations.LinkReceiveAndReplay : Prop :=
  ∀ (s : State) (l : LinkId) (rev nbr ok : Bool) (bursts : List Burst) (seq : BitVec 8),
    let d := (if nbr then 4660 else 0) + 2 * l.val + (if rev then 1 else 0)
    let x := s.link d
    let down := if nbr then x.dead else s.linkByte l.val != 0
    let h := hear (isStitch l.val) x.expect bursts ok
    let fresh := decide (x.winStart + 1000000 ≤ s.time)
    let disc := (if fresh then 0 else x.discards) + bursts.length
    let y := { x with discards := disc, winStart := if fresh then s.time else x.winStart }
    let other := x.awaiting && bursts.all fun b => b.seq != x.expect
    (down = true → exec (.flitReceive l ⟨rev, nbr⟩ bursts ok) s = .next s ∧ exec (.replayRequest l ⟨rev, nbr⟩ seq) s = .next s) ∧
    (down = false →
      (∃ t, exec (.replayRequest l ⟨rev, nbr⟩ seq) s = .next t ∧ t = { s with links := t.links } ∧
        t.link d = { x with next := seq } ∧ ∀ j, j ≠ d → t.link j = s.link j) ∧
      (h = .accept →
        ∃ t, exec (.flitReceive l ⟨rev, nbr⟩ bursts ok) s = .next t ∧ t = { s with links := t.links } ∧
          t.link d = { x with expect := x.expect + 1, next := x.expect + 1, replays := 0, awaiting := false } ∧
          ∀ j, j ≠ d → t.link j = s.link j) ∧
      (h ≠ .accept → other = true → disc ≤ 1024 →
        ∃ t, exec (.flitReceive l ⟨rev, nbr⟩ bursts ok) s = .next t ∧ t = { s with links := t.links } ∧
          t.link d = y ∧ ∀ j, j ≠ d → t.link j = s.link j) ∧
      (h ≠ .accept → other = false → x.replays < 4 → disc ≤ 1024 →
        let counter := if h = .lone then K.loneBursts else K.replays
        ∃ t, exec (.flitReceive l ⟨rev, nbr⟩ bursts ok) s = .next t ∧ t = { s with links := t.links, dict := t.dict } ∧
          t.link d = { y with replays := x.replays + 1, awaiting := true } ∧ (∀ j, j ≠ d → t.link j = s.link j) ∧
          t.rd counter = (s.rd counter + 1) % 2 ^ 64 ∧ ∀ key, key ≠ counter → t.rd key = s.rd key) ∧
      (h ≠ .accept → (other = false ∧ 4 ≤ x.replays) ∨ 1024 < disc →
        ∃ t, exec (.flitReceive l ⟨rev, nbr⟩ bursts ok) s = .next t ∧
          (nbr = true → (t.link d).dead = true ∧ t = { s with links := t.links, dict := t.dict }) ∧
          (nbr = false → t.linkByte l.val = 1)))

/-- A router that fails marks its core failed in service and every link of it failed; a fenced core issues nothing from then
on. The report of a core's failure and its retirement mark the core, with their own cause. A retired core may be asked back
while it holds no data address. A darn set that keeps every instance's routes is kept for the idle tack of the instances
that wait for it, or, with none waiting, installed at once: the links that failed are bypassed and its generation counts; a
refused one faults the instances that wait with code 4. Spares chosen for failed positions wait for the idle tack; without a
spare the instance faults with code 2, without trees for them with code 4.
Rests on the readings of log entries 16, 66 and 78. -/
def Obligations.FailedCoresDarnSetsAndSpares : Prop :=
   (∀ (s : State) (c : CoreId),
      let k := s.core c.val
      let Fails := fun (i : Instr) (cause : Nat) => ∃ t, exec i s = .next t ∧ t.core c.val = { k with fenced := true } ∧
        mapGet (fun _ => false) t.marks c.val = true ∧ t.rd (K.failCause c.val) = cause ∧ t.rd (K.failTime c.val) = s.time ∧
        (∀ d, d ≠ c.val → t.core d = s.core d) ∧ t.hbm = s.hbm ∧ t.hostMem = s.hostMem ∧
        t.mayIssue c.val = false ∧
        ∀ i, k.inst = some i → k.addrValid = true → s.ready i.val = true →
          ⟨k.panel, k.logical, none⟩ ∈ (t.inst i.val).replacing ∧ (t.inst i.val).halted = true
      (mapGet (fun _ => false) s.marks c.val = false →
        (∀ cause, Fails (.coreFaultReport c cause) cause) ∧ Fails (.coreRetire c) 6) ∧
      (mapGet (fun _ => false) s.marks c.val = true → k.inst = none →
        (∀ cause, exec (.coreFaultReport c cause) s = .next s) ∧ exec (.coreRetire c) s = .next s) ∧
      ((s.router c.val).failed = true → exec (.routerFail c) s = .next s) ∧
      ((s.router c.val).failed = false →
        ∃ t, exec (.routerFail c) s = .next t ∧ (t.router c.val).failed = true ∧ (t.router c.val).inq = [] ∧
          mapGet (fun _ => false) t.marks c.val = true ∧ t.hbm = s.hbm ∧ t.hostMem = s.hostMem ∧
          (∀ p l, p < 4 → linkAt c.val p = some l → t.linkByte l = 1) ∧
          (mapGet (fun _ => false) s.marks c.val = false →
            (t.core c.val).fenced = true ∧ t.rd (K.failCause c.val) = 2 ∧ t.mayIssue c.val = false) ∧
          ∀ n i, n < 16 → hbmSite n = c.val → s.instOfPanel (panelOf c.val) = some i → i < 12 → s.ready i = true →
            t.rd (K.instState i) = 5 ∧ t.rd (K.faultCode i) = 3) ∧
      (k.addrValid = false → s.unretire.contains c.val = false →
        exec (.coreUnretire c) s = .next { s with unretire := s.unretire ++ [c.val] }) ∧
      (k.addrValid = true ∨ s.unretire.contains c.val = true → exec (.coreUnretire c) s = .next s)) ∧
   (∀ (s : State) (ws : List DarnWrite) (i : InstId),
      let x := s.inst i.val
      let rs := sortBy (fun (a b : Replace) => lexLt [a.panel, a.logical] [b.panel, b.logical]) x.replacing
      (s.darnOk ws = true → s.darnWaiters ≠ [] → exec (.darnSetReady ws) s = .next { s with darnSet := some ws }) ∧
      (s.darnOk ws = true → s.darnWaiters = [] →
        ∃ t, exec (.darnSetReady ws) s = .next t ∧ t.darnSet = none ∧ t.cores = s.cores ∧ t.hbm = s.hbm ∧
          t.insts = s.insts ∧ t.routers = (s.withDarn ws).routers ∧
          t.rd K.darnGeneration = (s.rd K.darnGeneration + 1) % 2 ^ 32 ∧
          (∀ l, l < 2330 → t.linkByte l = if s.linkByte l = 1 then 2 else s.linkByte l) ∧
          ∃ y, t.log.head? = some y ∧ y.record % 2 ^ 8 = 0x2E ∧ y.source = 0) ∧
      (s.darnOk ws = false →
        ∃ t, exec (.darnSetReady ws) s = .next t ∧ t.cores = s.cores ∧ t.routers = s.routers ∧ t.hbm = s.hbm ∧
          (x.waitDarn = true → s.ready i.val = true → t.rd (K.instState i.val) = 5 ∧ t.rd (K.faultCode i.val) = 4)) ∧
      (s.ready i.val = true → x.replacing ≠ [] → x.waitDarn = false → x.sparesReady = false →
        (∀ found, s.chooseSpares i.val x.pattern [] rs = some found →
          (s.treesAfter i.val found = true → ∃ t, exec (.spareProgrammed i) s = .next t ∧
            (t.inst i.val).replacing = found ∧ (t.inst i.val).sparesReady = true) ∧
          (s.treesAfter i.val found = false → ∃ t, exec (.spareProgrammed i) s = .next t ∧
            (t.inst i.val).replacing = [] ∧ t.rd (K.instState i.val) = 5 ∧ t.rd (K.faultCode i.val) = 4 ∧
            t.cores = s.cores)) ∧
        (s.chooseSpares i.val x.pattern [] rs = none → ∃ t, exec (.spareProgrammed i) s = .next t ∧
          (t.inst i.val).replacing = [] ∧ t.rd (K.instState i.val) = 5 ∧ t.rd (K.faultCode i.val) = 2 ∧
          t.cores = s.cores)))

/-- PACKET_ROUTE: a router takes the packet that goes next out of its input queue; a failed router and one with nothing
waiting do nothing. A packet of a tree (a multicast, a contribution, a tack arrival at its first router and at its
destination) without a valid entry of its instance and kind is discarded and counted. A multicast is copied out of
every port of `out_mask` and, with L in it, handed to the core; a fenced core or one of another instance does not take
it, and it is counted. A failed link under a multicast stops its instance for a restart. A contribution waits under its
group, a tack arrival at the port toward its source. A unicast packet at its destination is handed to the core, a
request to its requests and an answer to its answers; a fenced core's requests are answered with status 0x03 and its
other packets counted, a stale data address gives status 0x04 or a counted discard, and an answer of another instance is
counted with the stale ones. Elsewhere the packet goes out toward its destination as darn entries and dimension order
name it; over a failed link a VC0 packet turns to the other dimension, a VC2 packet ends its request with status 0x02,
and a VC1 packet stops its instance for a restart.
Which packet goes first, and what counts as stale beside R142, are the model's choices (log entries 17 and 76). -/
def Obligations.PacketRouteForwardsOneHop : Prop :=
  ∀ (s : State) (r : CoreId),
    let x := s.router r.val
    let k := s.core r.val
    (x.failed = true ∨ nextPacket x.inq = none → exec (.packetRoute r) s = .next s) ∧
    ∀ (port : Nat) (p : Packet), x.failed = false → nextPacket x.inq = some (port, p) →
      let x1 : Router := { x with inq := x.inq.erase (port, p) }
      let here := idxOf p.dstX p.dstY = r.val
      let atTree := p.kind = 3 ∨ p.kind = 4 ∨ (p.kind = 7 ∧ (port = portL ∨ here))
      let entry := s.treeFor r.val p (if p.kind = 3 then 0 else if p.kind = 4 then 1 else 2)
      let Becomes := fun (x' : Router) => ∃ t, exec (.packetRoute r) s = .next t ∧ t = { s with routers := t.routers } ∧
        t.router r.val = x' ∧ ∀ j, j ≠ r.val → t.router j = s.router j
      let Counts := fun (key : Nat) => ∃ t, exec (.packetRoute r) s = .next t ∧
        t = { s with routers := t.routers, dict := t.dict } ∧ t.router r.val = x1 ∧
        (∀ j, j ≠ r.val → t.router j = s.router j) ∧ t.rd key = (s.rd key + 1) % 2 ^ 64 ∧
        ∀ y, y ≠ key → t.rd y = s.rd y
      let Hands := fun (k' : Core) => ∃ t, exec (.packetRoute r) s = .next t ∧
        t = { s with cores := t.cores, routers := t.routers } ∧ t.router r.val = x1 ∧
        (∀ j, j ≠ r.val → t.router j = s.router j) ∧ t.core r.val = k' ∧ ∀ d, d ≠ r.val → t.core d = s.core d
      let Answers := fun (status : Nat) => ∃ a : Packet, Becomes { x1 with inq := x1.inq ++ [(portL, a)] } ∧ a.kind = 6 ∧
        a.status = status ∧ a.rid = p.rid ∧ a.payload = [] ∧ a.dstX = p.srcX ∧ a.dstY = p.srcY ∧
        a.dstPanel = p.srcPanel ∧ a.dstLogical = p.srcLogical
      let Sends := fun (d o : Nat) (q : Packet) => ∃ t, exec (.packetRoute r) s = .next t ∧
        t = { s with routers := t.routers } ∧ t.router r.val = x1 ∧
        t.router d = { s.router d with inq := (s.router d).inq ++ [(oppPort o, q)] } ∧
        ∀ j, j ≠ r.val → j ≠ d → t.router j = s.router j
      let Restarts := ∃ t, exec (.packetRoute r) s = .next t ∧ (t.inst p.inst).halted = true ∧
        (t.inst p.inst).restartDue = true ∧
        (t.inst p.inst).abandoned = ((s.inst p.inst).stepOn || (s.inst p.inst).abandoned) ∧
        (∀ d, d ≠ r.val → t.core d = s.core d) ∧ ∀ j, j ≠ p.inst → t.inst j = s.inst j
      (atTree → entry = none → Counts K.staleDrops) ∧
      (∀ e, p.kind = 3 → entry = some e →
        ((∀ o, o < 4 → bit e o = true →
            ∃ d l, stepTo r.val o = some d ∧ linkAt r.val o = some l ∧ s.linkByte l = 0) → p.vc ≠ 0 →
          ∃ t, exec (.packetRoute r) s = .next t ∧ t = { s with cores := t.cores, routers := t.routers, dict := t.dict } ∧
            t.router r.val = x1 ∧
            (∀ o d, o < 4 → stepTo r.val o = some d → t.router d = (if bit e o then
              { s.router d with inq := (s.router d).inq ++ [(oppPort o, p)] } else s.router d)) ∧
            (∀ j, j ≠ r.val → (∀ o, o < 4 → stepTo r.val o ≠ some j) → t.router j = s.router j) ∧
            (∀ d, d ≠ r.val → t.core d = s.core d) ∧
            t.core r.val = (if bit e 4 = true ∧ k.fenced = false ∧ k.logInst = p.inst then
              (if bits p.addr 23 22 = 3 then { k with candIn := k.candIn ++ [p] } else { k with mcIn := k.mcIn ++ [p] })
              else k) ∧
            t.rd K.fencedDrops = (if bit e 4 = true ∧ k.fenced = true then (s.rd K.fencedDrops + 1) % 2 ^ 64
              else s.rd K.fencedDrops) ∧
            t.rd K.staleDrops = (if bit e 4 = true ∧ k.fenced = false ∧ k.logInst ≠ p.inst then
              (s.rd K.staleDrops + 1) % 2 ^ 64 else s.rd K.staleDrops) ∧
            ∀ y, y ≠ K.fencedDrops → y ≠ K.staleDrops → t.rd y = s.rd y) ∧
        (∀ o d l, o < 4 → bit e o = true → stepTo r.val o = some d → linkAt r.val o = some l → s.linkByte l ≠ 0 →
          p.vc = 1 → p.inst < 12 → s.ready p.inst = true → Restarts)) ∧
      (∀ e, p.kind = 4 → entry = some e →
        ∃ red, Becomes { x1 with red := red } ∧
          mapGet (fun _ => []) red p.group = mapGet (fun _ => []) x.red p.group ++ [(port, p)] ∧
          ∀ g, g ≠ p.group → mapGet (fun _ => []) red g = mapGet (fun _ => []) x.red g) ∧
      (∀ e, p.kind = 7 → atTree → entry = some e →
        ∃ t, exec (.packetRoute r) s = .next t ∧ t = { s with routers := t.routers, dict := t.dict } ∧
          t.router r.val = { x1 with
            tackIn := x.tackIn ++ [(portToward r.val (idxOf p.srcX p.srcY)).getD port] } ∧
          (∀ j, j ≠ r.val → t.router j = s.router j) ∧
          t.rd K.vc0Late = (if p.vc = 0 ∧ 2 ≤ p.replays then (s.rd K.vc0Late + 1) % 2 ^ 64 else s.rd K.vc0Late) ∧
          ∀ y, y ≠ K.vc0Late → t.rd y = s.rd y) ∧
      (¬atTree → here →
        (k.fenced = true → if p.isRequest then Answers 3 else Counts K.fencedDrops) ∧
        (k.fenced = false → k.holds p.dstPanel p.dstLogical = false →
          if p.isRequest then Answers 4 else Counts K.staleDrops) ∧
        (k.fenced = false → k.holds p.dstPanel p.dstLogical = true →
          (p.isRequest = true → Hands { k with rqIn := k.rqIn ++ [p] }) ∧
          (p.isRequest = false → p.kind = 5 ∨ (p.inst ≠ k.logInst ∧ p.inst ≠ 15) → Counts K.staleDrops) ∧
          (p.isRequest = false → p.kind ≠ 5 → p.inst = k.logInst ∨ p.inst = 15 →
            Hands { k with rqResp := k.rqResp ++ [p] }))) ∧
      (¬atTree → ¬here →
        let h := s.hop r.val p.dstX p.dstY p.vc p.detour
        let q := { p with detour := h.2 }
        let met := fun (q : Packet) (l d : Nat) =>
          { q with replays := q.replays + (s.link (2 * l + b2n (decide (d < r.val)))).replays }
        (∀ d l, stepTo r.val h.1 = some d → linkAt r.val h.1 = some l →
          (s.linkByte l = 0 → Sends d h.1 (if p.vc = 0 then met q l d else q)) ∧
          (s.linkByte l ≠ 0 → p.vc = 0 → ∀ d' l', stepTo r.val (turned r.val h.1 p.dstY p.dstX) = some d' →
            linkAt r.val (turned r.val h.1 p.dstY p.dstX) = some l' → s.linkByte l' = 0 →
            Sends d' (turned r.val h.1 p.dstY p.dstX) (met q l' d')) ∧
          (s.linkByte l ≠ 0 → p.vc = 2 →
            let c := if p.isRequest then p.src else idxOf p.dstX p.dstY
            (∀ y, ((s.core c).rqOut.find? fun y => y.rid == p.rid) = some y →
              ∃ t, exec (.packetRoute r) s = .next t ∧ t = { s with cores := t.cores, routers := t.routers } ∧
                t.router r.val = x1 ∧ (∀ j, j ≠ r.val → t.router j = s.router j) ∧ (∀ d, d ≠ c → t.core d = s.core d) ∧
                (t.core c).rqOut = (s.core c).rqOut.filter (fun y => y.rid != p.rid) ∧
                (t.core c).queue y.q = ((s.core c).queue y.q).map (fun e => if e.id = y.id then
                  ⟨e.id, .word (some (complWord y.tag 2 2 false 0))⟩ else e)) ∧
            ((∀ y ∈ (s.core c).rqOut, y.rid ≠ p.rid) → Becomes x1)) ∧
          (s.linkByte l ≠ 0 → p.vc = 1 → p.inst < 12 → s.ready p.inst = true → Restarts)))

/-- Deliveries at a core, with the hazard detector off. A multicast packet is written where the window holds it, with its
poison, and counted toward its pair, one outside the window counting with status 0x01 and writing nothing; with all 32
counters taken it is discarded and counted. A request is served from the target's window and answered, a read with the
bytes and their poison, and one outside the window is refused with status 0x01; a fenced core serves none. A response
frees its request and posts the completion, a read's data written first; a late one is counted. A request that times
out completes with status 0x05. A refused neighbour access becomes visible to the core. A candidate packet is merged
into its slot on the selector, 256 candidates at most, and then counted; a full merge buffer, or a core that is no
selector, discards it, counts it, and marks its arrival with status 8. -/
def Obligations.DeliveriesAtCore : Prop :=
  ∀ (s : State) (c : CoreId), s.rd K.hzMode = 0 →
    let k := s.core c.val
    let Full := fun (p : Packet) => 32 ≤ k.arrivals.length ∧ ∀ y ∈ k.arrivals, y.group ≠ p.group ∨ y.tag ≠ p.tag
    let Counted := fun (k' : Core) (p : Packet) (taint : Bool) (status : Nat) => ∀ a, k.arrivalFor p.group p.tag = some a →
      let pkts := a.pkts ++ [(taint, status)]
      let others := k.arrivals.filter fun b => !(b.group == p.group && b.tag == p.tag)
      ((∀ w ∈ a.waits.head?, pkts.length < w.count) →
        k'.arrivals = others ++ [{ a with pkts := pkts }] ∧ ∀ q, k'.queue q = k.queue q) ∧
      (∀ w, a.waits = [w] → w.count = pkts.length →
        k'.arrivals = others ∧ (∀ q, q ≠ w.q → k'.queue q = k.queue q) ∧
        k'.queue w.q = (k.queue w.q).map (fun y => if y.id = w.id then ⟨y.id, .word (some
          (complWord a.tag ((pkts.map (·.2)).foldl max 0) 4 (pkts.any (·.1)) w.count))⟩ else y))
    let Drops := fun (a : Instr) (k' : Core) (key : Nat) => ∃ t, exec a s = .next t ∧
      t = { s with cores := t.cores, dict := t.dict } ∧ t.core c.val = k' ∧ (∀ d, d ≠ c.val → t.core d = s.core d) ∧
      t.rd key = (s.rd key + 1) % 2 ^ 64 ∧ ∀ y, y ≠ key → t.rd y = s.rd y
    (k.mcIn = [] → exec (.multicastDelivery c) s = .next s) ∧
    (∀ p rest, k.mcIn = p :: rest → p.payload.length ≤ 4096 →
      let n := p.payload.length
      (Full p → Drops (.multicastDelivery c) { k with mcIn := rest } K.arrivalDrops) ∧
      (¬Full p → ∃ t, exec (.multicastDelivery c) s = .next t ∧ s.OnlyCore t c ∧
        let k' := t.core c.val
        k' = { k with mcIn := rest, arrivals := k'.arrivals, queues := k'.queues, sp := k'.sp, poison := k'.poison,
                      spFlip := k'.spFlip, spCorrected := k'.spCorrected } ∧
        (n = 0 → Counted k' p (p.taint || p.poison) 0 ∧ k'.sp = k.sp) ∧
        (n ≠ 0 → k.either p.addr n true = none →
          Counted k' p (p.taint || p.poison) 1 ∧ k'.sp = k.sp ∧ k'.poison = k.poison) ∧
        (∀ ps, n ≠ 0 → k.either p.addr n true = some ps →
          Counted k' p (p.taint || p.poison) 0 ∧ (∀ a ∈ ps, k'.bytesAt a n = p.payload) ∧
          (∀ b, (∀ a ∈ ps, b < a ∨ a + n ≤ b) → memByte k'.sp b = memByte k.sp b) ∧
          (p.poison = true → ∀ a ∈ ps, ∀ w ∈ wordsOf a n, mapGet (fun _ => false) k'.poison w = true)))) ∧
    (k.fenced = true ∨ k.rqIn = [] → exec (.remoteRequest c) s = .next s) ∧
    (∀ p rest, k.fenced = false → k.rqIn = p :: rest →
      let To := fun (pk : Packet) => pk.rid = p.rid ∧ pk.dstX = p.srcX ∧ pk.dstY = p.srcY ∧ pk.dstPanel = p.srcPanel ∧
        pk.dstLogical = p.srcLogical
      (k.remoteAt p.inst p.addr p.length = none →
        ∃ t pk, exec (.remoteRequest c) s = .next t ∧ s.OnlyCoreAndPackets t c [pk] ∧ pk.kind = 6 ∧ pk.status = 1 ∧ To pk ∧
          t.core c.val = { k with rqIn := rest }) ∧
      (∀ a, k.remoteAt p.inst p.addr p.length = some a →
        (p.kind = 1 → ∃ t pk, exec (.remoteRequest c) s = .next t ∧ s.OnlyCorePacketsAndLog t c [pk] ∧ pk.kind = 2 ∧
          pk.status = 0 ∧ To pk ∧ pk.payload = k.bytesAt a p.length ∧ pk.poison = !(k.poisoned a p.length).isEmpty ∧
          (k.poisoned a p.length = [] → s.OnlyCoreAndPackets t c [pk] ∧
            t.core c.val = Core.readFix { k with rqIn := rest } a p.length) ∧
          (k.poisoned a p.length ≠ [] →
            (t.core c.val).spUncorr = (k.spUncorr + (k.poisoned a p.length).length) % 2 ^ 64) ∧
          (t.core c.val).sp = k.sp ∧ (t.core c.val).rqIn = rest) ∧
        (p.kind ≠ 1 → ∃ t pk, exec (.remoteRequest c) s = .next t ∧ s.OnlyCoreAndPackets t c [pk] ∧ pk.kind = 6 ∧
          pk.status = 0 ∧ To pk ∧
          (t.core c.val).bytesAt a p.payload.length = p.payload ∧
          (∀ b, b < a ∨ a + p.payload.length ≤ b → memByte (t.core c.val).sp b = memByte k.sp b) ∧
          t.core c.val = { k with
            rqIn := rest, sp := (t.core c.val).sp, poison := (t.core c.val).poison,
            spFlip := (t.core c.val).spFlip, spCorrected := (t.core c.val).spCorrected }))) ∧
    (k.rqResp = [] → exec (.remoteResponse c) s = .next s) ∧
    (∀ p rest, k.rqResp = p :: rest →
      ((∀ y ∈ k.rqOut, y.rid ≠ p.rid) → Drops (.remoteResponse c) { k with rqResp := rest } K.lateResponses) ∧
      (∀ y, (k.rqOut.find? fun y => y.rid == p.rid) = some y →
        let ok := p.status = 0
        ∃ t, exec (.remoteResponse c) s = .next t ∧ s.OnlyCore t c ∧
          (t.core c.val).queue y.q = (k.queue y.q).map (fun e => if e.id = y.id then ⟨e.id, .word (some (complWord y.tag
            (if ok ∧ p.poison = true then 8 else p.status) 2 false (if ok then y.length else 0)))⟩ else e) ∧
          (∀ q, q ≠ y.q → (t.core c.val).queue q = k.queue q) ∧
          (y.isGet = true → ok → (t.core c.val).bytesAt y.lAddr p.payload.length = p.payload ∧
            ∀ b, b < y.lAddr ∨ y.lAddr + p.payload.length ≤ b → memByte (t.core c.val).sp b = memByte k.sp b) ∧
          (y.isGet = false ∨ ¬ok → (t.core c.val).sp = k.sp) ∧
          t.core c.val = { k with
            rqResp := rest, rqOut := k.rqOut.filter (fun e => e.rid != p.rid), queues := (t.core c.val).queues,
            hzRanges := (t.core c.val).hzRanges, sp := (t.core c.val).sp, poison := (t.core c.val).poison,
            spFlip := (t.core c.val).spFlip, spCorrected := (t.core c.val).spCorrected })) ∧
    (∀ rid,
      (∀ y, (k.rqOut.find? fun y => y.rid == rid) = some y →
        ∃ t, exec (.rqTimeout c (.request rid)) s = .next t ∧ s.OnlyCore t c ∧
          (t.core c.val).rqOut = k.rqOut.filter (fun y => y.rid != rid) ∧
          (t.core c.val).queue y.q = (k.queue y.q).map (fun e => if e.id = y.id then
            ⟨e.id, .word (some (complWord y.tag 5 2 false 0))⟩ else e)) ∧
      ((∀ y ∈ k.rqOut, y.rid ≠ rid) → exec (.rqTimeout c (.request rid)) s = .next s)) ∧
    (∀ r rest, k.nbrComing = r :: rest →
      ∃ t, exec (.neighborRefusal c) s = .next t ∧ s.OnlyCore t c ∧
        t.core c.val = { k with nbrComing := rest, nbrArrived := k.nbrArrived ++ [r] }) ∧
    (k.candIn = [] → exec (.candidateMerge c) s = .next s) ∧
    (∀ p rest, k.candIn = p :: rest →
      let known := k.merge.any fun b => b.slot == p.tag
      let drop := k.selector = false ∨ (known = false ∧ 64 ≤ k.merge.length)
      let old := (k.merge.find? fun b => b.slot == p.tag).getD ⟨p.tag, [], false⟩
      (Full p → Drops (.candidateMerge c) { k with candIn := rest } K.arrivalDrops) ∧
      (¬Full p → drop → ∃ k', Drops (.candidateMerge c) k' K.candDrops ∧ Counted k' p p.taint 8 ∧
        k' = { k with candIn := rest, arrivals := k'.arrivals, queues := k'.queues, hzRanges := k'.hzRanges }) ∧
      (¬Full p → ¬drop → ∃ t b, exec (.candidateMerge c) s = .next t ∧ s.OnlyCore t c ∧
        Counted (t.core c.val) p p.taint 0 ∧ b.slot = p.tag ∧ b.taint = (old.taint || p.taint) ∧
        b.cands = candMerge 256 old.cands (candsOf p) ∧ b.cands.length ≤ 256 ∧
        t.core c.val = { k with
          candIn := rest, arrivals := (t.core c.val).arrivals, queues := (t.core c.val).queues,
          hzRanges := (t.core c.val).hzRanges, merge := k.merge.filter (fun b => b.slot != p.tag) ++ [b] }))

/-- REDUCTION_COMBINE: with one contribution waiting on every input port of a valid reduction entry, they become one: each
column's exact sum, the OR of the exception masks (all bits with a poisoned input) and of the overflow masks. A column whose
sum leaves 64 bits is marked and counted, and the event log records it. At the root the set goes into the entry that RSEND
reserved; elsewhere one contribution goes out of `red_out`. TACK_COMBINE: with the arrival of every input port in (a halted
core counts as arrived), they become one arrival, which the root hands to the panel controller and another router sends on,
around a failed link if need be. Without all inputs nothing happens. -/
def Obligations.TreeCombineAtRoot : Prop :=
  ∀ (s : State) (r : CoreId) (group : Fin 64),
    let x := s.router r.val
    let k := s.core r.val
    let e := mapGet (fun _ => 0) x.tree group.val
    let out := bits e 12 10
    let waiting := mapGet (fun _ => []) x.red group.val
    (bit e 19 = false ∨ bits e 14 13 ≠ 1 ∨ redPorts e = [] ∨ (out = 4 ∧ ∀ w ∈ k.redWait, w.1 ≠ group.val) ∨
        firstOf waiting (redPorts e) = none →
      exec (.reductionCombine r group) s = .next s) ∧
    (∀ ps, bit e 19 = true → bits e 14 13 = 1 → redPorts e ≠ [] → firstOf waiting (redPorts e) = some ps →
      let past := (redCombine ps).2.2.2
      let sum := fun j => (redCombine ps).1.getD j 0
      let exc := fun j => ps.any fun p => p.poison || p.excMask.getLsbD j
      let ovf := fun j => (ps.any fun p => p.ovfMask.getLsbD j) || decide (j ∈ past)
      let Combines := fun (t : State) =>
        exec (.reductionCombine r group) s = .next t ∧
        t = { s with cores := t.cores, routers := t.routers, dict := t.dict, log := t.log, fns := t.fns, sent := t.sent,
                     logMsgAt := t.logMsgAt, logMsgHeld := t.logMsgHeld } ∧
        (∀ d, d ≠ r.val → t.core d = s.core d) ∧
        t.router r.val = { x with red := (t.router r.val).red } ∧
        mapGet (fun _ => []) (t.router r.val).red group.val = useUp waiting (redPorts e) ∧
        (∀ g, g ≠ group.val → mapGet (fun _ => []) (t.router r.val).red g = mapGet (fun _ => []) x.red g) ∧
        (past = [] → t.log = s.log ∧ t.dict = s.dict) ∧
        (past ≠ [] → t.rd K.redOverflows = (s.rd K.redOverflows + past.length) % 2 ^ 64 ∧
          (∃ y, t.log.head? = some y ∧ y.record % 16 = 13) ∧
          ∀ key, key ∉ logKeys → key ≠ K.redOverflows → t.rd key = s.rd key)
      (∀ j, j < 64 → j ∉ past → sum j = (ps.map fun p => redElem p j).sum) ∧
      (∀ w, out = 4 → (k.redWait.find? fun y => y.1 == group.val) = some w →
        ∃ t set, Combines t ∧ (∀ j, j ≠ r.val → t.router j = s.router j) ∧ set.length = 64 ∧
          (∀ j, j < 64 → set[j]? = some ⟨BitVec.ofInt 64 (sum j), exc j, ovf j⟩) ∧
          (t.core r.val).queue w.2.1 =
            (k.queue w.2.1).map (fun y => if y.id = w.2.2 then ⟨y.id, .bolts (some set)⟩ else y) ∧
          t.core r.val = { k with redWait := k.redWait.erase w, queues := (t.core r.val).queues } ∧
          ∀ q, q ≠ w.2.1 → (t.core r.val).queue q = k.queue q) ∧
      (∀ p0 rest d l, ps = p0 :: rest → p0.vc ≠ 0 → out < 4 → stepTo r.val out = some d → linkAt r.val out = some l →
        s.linkByte l = 0 →
        ∃ t pk, Combines t ∧ t.core r.val = k ∧
          t.router d = { s.router d with inq := (s.router d).inq ++ [(oppPort out, pk)] } ∧
          (∀ j, j ≠ r.val → j ≠ d → t.router j = s.router j) ∧
          pk = { p0 with payload := pk.payload, excMask := pk.excMask, ovfMask := pk.ovfMask, poison := ps.any (·.poison) } ∧
          pk.payload.length = 512 ∧
          ∀ j, j < 64 → redElem pk j = sum j ∧ pk.excMask.getLsbD j = exc j ∧ pk.ovfMask.getLsbD j = ovf j)) ∧
    (let e := mapGet (fun _ => 0) x.tree 63
     let o := bits e 12 10
     let i := bits e 18 15
     let ready := bit e 19 = true ∧ bits e 14 13 = 2 ∧ x.failed = false ∧ inPorts e ≠ [] ∧
       ∀ p ∈ inPorts e, s.tackHeard r p = true
     let x' := { x with tackIn := (inPorts e).foldl (fun l p => l.erase p) x.tackIn }
     (¬ready → exec (.tackCombine r) s = .next s) ∧
     (ready → o = 6 →
       ∃ t, exec (.tackCombine r) s = .next t ∧ t = { s with insts := t.insts, routers := t.routers } ∧
         t.inst i = { s.inst i with arrived := (t.inst i).arrived } ∧ panelOf r.val ∈ (t.inst i).arrived ∧
         (∀ q, q ≠ panelOf r.val → (q ∈ (t.inst i).arrived ↔ q ∈ (s.inst i).arrived)) ∧
         (∀ j, j ≠ i → t.inst j = s.inst j) ∧ (∀ j, j ≠ r.val → t.router j = s.router j) ∧ t.router r.val = x') ∧
     (ready → o < 4 → ∀ d l, stepTo r.val o = some d → linkAt r.val o = some l →
       let Sends := fun (port d' l' : Nat) => ∃ t pk, exec (.tackCombine r) s = .next t ∧ t = { s with routers := t.routers } ∧
         t.router r.val = x' ∧ t.router d' = { s.router d' with inq := (s.router d').inq ++ [(oppPort port, pk)] } ∧
         (∀ j, j ≠ r.val → j ≠ d' → t.router j = s.router j) ∧
         pk.kind = 7 ∧ pk.vc = 0 ∧ pk.group = 63 ∧ pk.inst = i ∧ pk.dstX = xOf d ∧ pk.dstY = yOf d ∧
         pk.srcX = xOf r.val ∧ pk.srcY = yOf r.val ∧ pk.replays = (s.link (2 * l' + b2n (decide (d' < r.val)))).replays
       (s.linkByte l = 0 → Sends o d l) ∧
       (s.linkByte l ≠ 0 → ∀ d' l', stepTo r.val (turned r.val o (yOf d) (xOf d)) = some d' →
         linkAt r.val (turned r.val o (yOf d) (xOf d)) = some l' → s.linkByte l' = 0 →
         Sends (turned r.val o (yOf d) (xOf d)) d' l')))

/-! ## Tacks -/

/-- A tack that completes no step, with no change waiting and no pool pressure: the instance counts one tack and one layer
pass, its arrivals are forgotten, the settings that apply at a tack come into force, and the repairs of its cores that
wait for a tack are done. A tack at a step's boundary starts the count of passes at 0. Without every panel's arrival there is no
capture. A core at its TACK is released with a snapshot of its registers. At an idle tack in the middle of a step, with
nothing waiting, the same settings come into force and the same repairs are done, and no tack is counted.
Rests on the reading of log entry 66. -/
def Obligations.TacksCaptureAndRelease : Prop :=
  ∀ (s : State) (i : InstId) (c : CoreId),
    let x := s.inst i.val
    let k := s.core c.val
    let Quiet := x.changes = [] ∧ x.hot_ = [] ∧ s.rd (K.lowWm i.val) = 0
    let inForce := tackKeys.foldl (fun m key => mapSet dictDefault m key (s.rd key)) x.inForce
    let Tacks := fun (t : State) => t = { s with cores := t.cores, insts := t.insts, seqs := t.seqs } ∧
      (∀ j, j ≠ i.val → t.inst j = s.inst j) ∧
      (∀ d, d ∉ s.coresOf i.val → t.core d = s.core d) ∧
      ((s.coresOf i.val).Nodup → ∀ d ∈ s.coresOf i.val, t.core d = { (s.core d).tackRepairs with hzSeen := [] }) ∧
      (∀ q, t.seq q = s.seq q ∨ t.seq q = { s.seq q with fresh := false }) ∧
      ∀ q, (s.seq q).inst = i.val → (t.seq q).fresh = false
    (s.captureReady i.val = false → exec (.tackCapture i) s = .next s) ∧
    (s.captureReady i.val = true → x.atBoundary (s.rd (K.modelLayers i.val)) = false → Quiet →
      ∃ t, exec (.tackCapture i) s = .next t ∧ Tacks t ∧
        t.inst i.val = { x with
          arrived := [], taken := 0, tackSeq := x.tackSeq + 1, layerPass := x.layerPass + 1, passes := x.passes + 1
          fcRate := s.rd K.fcRateLog2, fcEnable := s.rd K.fcEnable == 1, fcSeed := s.rd K.fcSeed, inForce := inForce }) ∧
    (s.captureReady i.val = true → x.atBoundary (s.rd (K.modelLayers i.val)) = true →
      ∃ t, exec (.tackCapture i) s = .next t ∧ (t.inst i.val).passes = 0) ∧
    (s.released c.val = true →
      ∃ t, exec (.tackRelease c) s = .next t ∧ s.OnlyCore t c ∧
        t.core c.val = { k.advance with
          run := .running, snap := ⟨k.regs, k.preds, k.advance.loops, k.rets, k.advance.pc⟩ }) ∧
    (s.released c.val = false → exec (.tackRelease c) s = .next s) ∧
    (s.rd (K.instState i.val) = 0 ∨ s.runsNoPass i.val = false → exec (.idleTack i) s = .next s) ∧
    (s.rd (K.instState i.val) ≠ 0 → s.runsNoPass i.val = true → Quiet → x.faultDue = false → s.darnSet = none →
      x.sparesReady = false → x.restartDue = false → x.stepOn = true →
      ∃ t, exec (.idleTack i) s = .next t ∧ Tacks t ∧
        t.inst i.val = { x with
          taken := 0, fcRate := s.rd K.fcRateLog2, fcEnable := s.rd K.fcEnable == 1, fcSeed := s.rd K.fcSeed
          inForce := inForce })

/-- The end of a trapped instance's drain decides its course: with a trap of fault class a Ready or Stopped instance faults
with code 1, otherwise a restart is due and a step in flight is abandoned; before the drain has ended nothing happens. An
overdue tack traps every core of the instance that still runs, with code 0x0D and of fault class, counts each, and touches
no other core; an instance that is not Ready or Stopped, or already stopped, is left alone.
Rests on the reading of log entry 66. -/
def Obligations.TrapDrainDecidesAndTackOverdueTraps : Prop :=
  ∀ (s : State) (i : InstId),
    let x := s.inst i.val
    (x.trapped = false ∨ s.drained i.val = false → exec (.trapDrainEnd i) s = .next s) ∧
    (x.trapped = true → s.drained i.val = true → x.trapFault = true → s.ready i.val = true →
      ∃ t, exec (.trapDrainEnd i) s = .next t ∧ t.rd (K.instState i.val) = 5 ∧ t.rd (K.faultCode i.val) = 1 ∧
        t.inst i.val = { x with trapped := false, trapFault := false, halted := true, faultDue := true } ∧
        (∀ j, j ≠ i.val → t.inst j = s.inst j) ∧
        (∀ key, key ∉ logKeys → key ≠ K.instState i.val → key ≠ K.faultCode i.val → t.rd key = s.rd key) ∧
        t = { s with insts := t.insts, dict := t.dict, log := t.log, fns := t.fns, sent := t.sent, logMsgAt := t.logMsgAt,
                     logMsgHeld := t.logMsgHeld }) ∧
    (x.trapped = true → s.drained i.val = true → x.trapFault = true → s.ready i.val = false →
      ∃ t, exec (.trapDrainEnd i) s = .next t ∧ t = { s with insts := t.insts } ∧
        t.inst i.val = { x with trapped := false, trapFault := false } ∧ ∀ j, j ≠ i.val → t.inst j = s.inst j) ∧
    (x.trapped = true → s.drained i.val = true → x.trapFault = false →
      ∃ t, exec (.trapDrainEnd i) s = .next t ∧ t = { s with insts := t.insts } ∧
        t.inst i.val = { x with
          trapped := false, trapFault := false, restartDue := true, abandoned := x.abandoned || x.stepOn } ∧
        ∀ j, j ≠ i.val → t.inst j = s.inst j) ∧
    (s.ready i.val = false ∨ x.halted = true → exec (.tackOverdue i) s = .next s) ∧
    (s.ready i.val = true → x.halted = false →
      let late := (s.coresOf i.val).filter fun c => decide ((s.core c).run = .running)
      ∃ t, exec (.tackOverdue i) s = .next t ∧
        t = { s with cores := t.cores, insts := t.insts, dict := t.dict, log := t.log, fns := t.fns, sent := t.sent,
                     logMsgAt := t.logMsgAt, logMsgHeld := t.logMsgHeld } ∧
        (∀ c ∈ late, t.core c = { s.core c with run := .trapped, trapCode := 0x0D, trapStatus := 0 }) ∧
        (∀ d, d ∉ late → t.core d = s.core d) ∧
        (late = [] → t = s) ∧
        (late ≠ [] → t.rd K.traps = (s.rd K.traps + late.length) % 2 ^ 64) ∧
        (∀ c ∈ late, (s.core c).inst = some i →
          (t.inst i.val).halted = true ∧ (t.inst i.val).trapped = true ∧ (t.inst i.val).trapFault = true) ∧
        ∀ key, key ∉ logKeys → key ≠ K.traps → t.rd key = s.rd key)

/-! ## Repair of the fabric and of instances -/

/-- Resets of the compute fabric: a whole compute reset from Ready, asked for or by a panel controller's fault, ends
in Ready with `last_reset` 4 and log event 0x2003; one that finds a reset in progress is refused with result 2, one before
Ready with result 1. CLEAR_FAULT ends with the same event for its instance; while another command runs on the instance it is
refused with result 3, outside Faulted, or for code 5, with result 1.
Rests on the readings of log entries 41 and 51. -/
def Obligations.ResetsOfComputeFabric : Prop :=
  ∀ (s : State) (i : InstId) (rs : List MuslinResult) (ps : List PanelId) (p : PanelId) (b : Bool),
    let Resets := fun a : Instr => ∃ t e l, exec a s = .next t ∧ t.rd K.devState = 2 ∧ t.rd K.lastReset = 4 ∧
      t.log = e :: l ∧ e.record % 2 ^ 16 = 0x2003 ∧ e.source = 1
    (s.rd K.devState = 2 → Resets (.computeReset rs ps) ∧ Resets (.panelControllerFault p rs b)) ∧
    (s.rd K.devState = 3 → exec (.computeReset rs ps) s = .next (s.wr K.resetResult 2)) ∧
    (s.rd K.devState ≠ 2 → s.rd K.devState ≠ 3 → exec (.computeReset rs ps) s = .next (s.wr K.resetResult 1)) ∧
    (s.rd K.devState ≠ 2 → exec (.panelControllerFault p rs b) s = .next s) ∧
    (s.instBusy i.val = false → s.rd (K.instState i.val) = 5 → s.rd (K.faultCode i.val) ≠ 5 →
      ∃ t e l, exec (.clearFault i rs) s = .next t ∧ t.log = e :: l ∧ e.record % 2 ^ 16 = 0x2003 ∧ e.inst = i.val) ∧
    (s.instBusy i.val = true → exec (.clearFault i rs) s = .next (s.instResult i.val 3)) ∧
    (s.instBusy i.val = false → (s.rd (K.instState i.val) ≠ 5 ∨ s.rd (K.faultCode i.val) = 5) →
      exec (.clearFault i rs) s = .next (s.instResult i.val 1))

/-! ## Transfers and copies -/

/-- The end of a descriptor: its transfer done, its page walk done, or cut short by a timeout, the channel moves on
and the entry the descriptor reserved holds a completion word with its tag. A transfer moves its bytes: zeros for a fill, or
those of the scratchpad, HBM, host window or far core it reads, to the place it names, and ends with status 0x00 and its
length; over a failed link it ends with status 0x02 and moves nothing, and a host window whose function may not reach host
memory ends it with 0x07, counted at the port. A host-side error ends it with 0x07 and the bytes moved so far. A page walk
ends with its own status and the bytes of the pages it visited; a failed check of an entry is counted. A timeout ends it
with status 0x05 and the bytes moved so far, and one that waited on host memory is counted at its port; the HBM timer
stands still while a stack on the way is retrained. Nothing passes the closed port of a fenced core. A refused descriptor
that stood behind a walk alone completes with its own status in the same step.
Rests on the readings of log entries 31 and 64. -/
def Obligations.DescriptorsEndWithCompletion : Prop :=
  ∀ (s : State) (c : CoreId) (ch : Fin 8) (d : DDesc) (moved : Nat) (data : List Byte),
    let k := s.core c.val
    let i := k.logInst
    let n := d.length
    let Ends := fun (a : Instr) (st src bytes : Nat) (P : State → Prop) => ∃ t, exec a s = .next t ∧ P t ∧
      mapGet (fun _ => []) (t.core c.val).dma ch.val = (mapGet (fun _ => []) k.dma ch.val).drop 1 ∧
      (∀ h, h ≠ ch.val → mapGet (fun _ => []) (t.core c.val).dma h = mapGet (fun _ => []) k.dma h) ∧
      (t.core c.val).queue d.q = (k.queue d.q).map (fun x => if x.id = d.id then
        ⟨x.id, .word (some (complWord d.tag st src false bytes))⟩ else x) ∧
      (∀ q, q ≠ d.q → (t.core c.val).queue q = k.queue q) ∧ (t.core c.val).regs = k.regs ∧ (t.core c.val).pc = k.pc
    let Done := .dmaTransferDone c ch data false
    let Gives := fun (bs : List Byte) =>
      (d.op = 1 ∧ bs = List.replicate n 0) ∨
      (d.op = 0 ∧ d.srcSpace = 0 ∧ ∃ a l, k.either d.src n false = some (a :: l) ∧ k.poisoned a n = [] ∧ bs = k.bytesAt a n) ∨
      (d.op = 0 ∧ d.srcSpace = 1 ∧ s.hbmBad i d.src n = [] ∧ bs = s.hbmRead i d.src n) ∨
      (d.op = 0 ∧ d.srcSpace = 2 ∧ (∃ r, s.devRef d.src n (dmaWindow i) = some r ∧ s.hostReady r.fn = true) ∧
        bs = slice data 0 n) ∨
      (d.op = 0 ∧ d.srcSpace = 3 ∧ ∃ f a l, s.dmaRemote c.val d.src n false = .ok (f, a :: l) ∧ (s.core f).poisoned a n = [] ∧
        bs = (s.core f).bytesAt a n)
    (k.dmaHead ch.val = none → exec Done s = .next s ∧ exec (.pageWalkDone c ch) s = .next s ∧
      exec (.hbmTimeout c ch moved) s = .next s ∧ exec (.cplTimeout c ch moved) s = .next s ∧
      exec (.seamTimeout c ch) s = .next s) ∧
    (k.fenced = true → exec Done s = .next s ∧ exec (.pageWalkDone c ch) s = .next s) ∧
    (d.op = 2 → k.fenced = false → k.dmaTurn d = true → d.refused = 0 → ∀ r, k.dma = [(ch.val, [d, r])] → r.refused ≠ 0 →
      r.q ≠ d.q →
      ∃ t, exec (.pageWalkDone c ch) s = .next t ∧ mapGet (fun _ => []) (t.core c.val).dma ch.val = [] ∧
        (t.core c.val).queue r.q = (k.queue r.q).map (fun x => if x.id = r.id then
          ⟨x.id, .word (some (complWord r.tag r.refused (b2n !r.walk.isEmpty) false 0))⟩ else x)) ∧
    (k.dmaHead ch.val = some d → (∀ x ∈ k.dma, ∀ e ∈ x.2, e.refused = 0) →
      (k.fenced = false → d.op ≠ 2 → k.dmaTurn d = true → 0 < n → s.rd K.hzMode = 0 →
        (s.dmaWay c.val d n = false → Ends Done 2 0 0 fun t => s.OnlyCore t c) ∧
        (s.dmaWay c.val d n = true →
          (∀ r, d.op = 0 → d.srcSpace = 2 → s.devRef d.src n (dmaWindow i) = some r → s.hostReady r.fn = false →
            Ends Done 7 0 0 fun t => t = { s with cores := t.cores, dict := t.dict } ∧
              t.rd (K.hostErrors (winNo d.src / 128)) = (s.rd (K.hostErrors (winNo d.src / 128)) + 1) % 2 ^ 64) ∧
          (∀ bs, Gives bs →
            (∀ l, d.dstSpace = 0 → k.either d.dst bs.length true = some l → Ends Done 0 0 n fun t =>
              t = { s with cores := t.cores, dict := t.dict, hbmErr := t.hbmErr } ∧
              (l.length = 1 ∨ bs.length ≤ 524288 → ∀ a ∈ l, (t.core c.val).bytesAt a bs.length = bs) ∧
              (∀ b, (∀ a ∈ l, b < a ∨ a + bs.length ≤ b) → memByte (t.core c.val).sp b = memByte k.sp b) ∧
              ∀ e, e ≠ c.val → (t.core e).sp = (s.core e).sp) ∧
            (d.dstSpace = 1 → s.aperture i d.dst = false → Ends Done 0 0 n fun t =>
              t.hbm = (s.hbmWrite i d.dst bs).hbm ∧ (t.core c.val).sp = k.sp ∧ t.hostMem = s.hostMem ∧ t.insts = s.insts) ∧
            (∀ r, d.dstSpace = 2 → s.devRef d.dst bs.length (dmaWindow i) = some r → s.hostReady r.fn = true →
              Ends Done 0 0 n fun t =>
                t.hostMem = memWrite s.hostMem (r.port * 2 ^ 64 + r.addr) bs ∧ (t.core c.val).sp = k.sp ∧ t.hbm = s.hbm) ∧
            (∀ f l, d.dstSpace = 3 → s.dmaRemote c.val d.dst bs.length true = .ok (f, l) →
              Ends Done 0 0 n fun t =>
                (l.length = 1 ∨ bs.length ≤ 524288 → ∀ a ∈ l, (t.core f).bytesAt a bs.length = bs) ∧
                (∀ b, (∀ a ∈ l, b < a ∨ a + bs.length ≤ b) → memByte (t.core f).sp b = memByte (s.core f).sp b) ∧
                t.hbm = s.hbm ∧ t.hostMem = s.hostMem))) ∧
        ((d.op = 0 ∧ d.srcSpace = 2) ∨ d.dstSpace = 2 →
          Ends (.dmaTransferDone c ch data true) 7 0 (min data.length n) fun _ => True)) ∧
      (k.fenced = false → d.op = 2 → k.dmaTurn d = true →
        let w := s.walkPages c.val i d (walkIndices d) 0
        Ends (.pageWalkDone c ch) w.2.1 1
          (w.2.2 * 32 * (bits (d.walk.getD 3 0) 45 35 + bits (d.walk.getD 3 0) 63 57)) fun t =>
            ∀ j, k.inst = some j → (w.2.1 = 6 ∨ w.2.1 = 1) →
              t.rd (K.walkErrors j.val) = (w.1.rd (K.walkErrors j.val) + 1) % 2 ^ 64) ∧
      (let hbm := d.op = 2 ∨ (d.op = 0 ∧ d.srcSpace = 1) ∨ (d.dstSpace = 1 ∧ s.aperture i d.dst = false)
       let held := ∃ m ∈ s.stacksOf i, (s.stack m).retrain = 2 ∧
         (d.op = 2 ∨ hbmSite m ∈ s.dmaSites c.val d.srcSpace d.src n ++ s.dmaSites c.val d.dstSpace d.dst n)
       (¬hbm ∨ held → exec (.hbmTimeout c ch moved) s = .next s) ∧
       (hbm → ¬held → Ends (.hbmTimeout c ch moved) 5 (if d.op = 2 then 1 else 0) (min moved n) fun _ => True)) ∧
      (¬(d.op = 0 ∧ d.srcSpace = 2) → exec (.cplTimeout c ch moved) s = .next s) ∧
      (d.op = 0 → d.srcSpace = 2 →
        Ends (.cplTimeout c ch moved) 5 0 (min moved n) fun t => winNo d.src < 1024 →
          t.rd (K.cplTimeouts (winNo d.src / 128)) = (s.rd (K.cplTimeouts (winNo d.src / 128)) + 1) % 2 ^ 64) ∧
      (d.op ≠ 2 → d.dstSpace = 1 → s.aperture i d.dst = true →
        Ends (.seamTimeout c ch) 5 0 0 fun t => s.OnlyCore t c) ∧
      (d.op = 2 ∨ d.dstSpace ≠ 1 ∨ s.aperture i d.dst = false → exec (.seamTimeout c ch) s = .next s) ∧
      ((d.op = 0 ∧ d.srcSpace = 3) ∨ (d.op < 2 ∧ d.dstSpace = 3) →
        Ends (.rqTimeout c (.channel ch)) 5 0 0 fun t => s.OnlyCore t c) ∧
      (¬((d.op = 0 ∧ d.srcSpace = 3) ∨ (d.op < 2 ∧ d.dstSpace = 3)) → exec (.rqTimeout c (.channel ch)) s = .next s))

/-- Pages: a copy that ends well is counted and its page-table change waits for the next tack; a copy-out's bytes are then in
host memory, a copy-in's in the page. A copy-out that fails is counted as a swap error, stops the sequence's swap-out and
loses nothing; a copy-in that fails ends the request that owns the sequence with status 0x0B, or the sequence where no
request does. A zeroed page is zero and free again, and no entry names it; a zeroed swap slot is zero in host memory,
where that can be reached, and free again. A copy or zeroing that is not under way changes nothing.
Rests on the reading of log entry 68. -/
def Obligations.PageCopiesAndZeroing : Prop :=
  ∀ (s : State) (q : Fin 65536) (entry : Nat) (page : List Byte) (ok : Bool),
    let r := s.seq q.val
    (s.copyOf q.val entry true = none → exec (.swapOutCopyDone q entry ok) s = .next s) ∧
    (s.copyOf q.val entry false = none → exec (.swapInCopyDone q entry page ok) s = .next s) ∧
    (∀ m h, s.copyOf q.val entry true = some m → s.swapRef r.slot m.2.1 = some h → s.hostReady h.fn = true → r.inst < 12 →
      ∃ t, exec (.swapOutCopyDone q entry true) s = .next t ∧
        t = { s with hostMem := t.hostMem, dict := t.dict, insts := t.insts } ∧
        t.hostMem = memWrite s.hostMem (h.port * 2 ^ 64 + h.addr) (s.hbmRead r.inst (s.pageAddr r.inst m.2.2) 65536) ∧
        t.rd (K.pagesOut r.inst) = (s.rd (K.pagesOut r.inst) + 1) % 2 ^ 64 ∧
        (∀ key, key ≠ K.pagesOut r.inst → t.rd key = s.rd key) ∧
        t.inst r.inst = { s.inst r.inst with changes := (s.inst r.inst).changes ++ [.swappedOut q.val entry m.2.1] } ∧
        ∀ j, j ≠ r.inst → t.inst j = s.inst j) ∧
    (∀ m, s.copyOf q.val entry true = some m → r.inst < 12 →
      (ok = false ∨ s.swapRef r.slot m.2.1 = none ∨ ∃ h, s.swapRef r.slot m.2.1 = some h ∧ s.hostReady h.fn = false) →
      (∀ y ∈ s.reqs, y.live = true → y.opcode = 4 → y.seq ≠ some q.val) →
      let waits := fun (m : Nat × Nat × Nat) => (s.inst r.inst).changes.contains (.swappedOut q.val m.1 m.2.1)
      ∃ t, exec (.swapOutCopyDone q entry ok) s = .next t ∧
        t.rd (K.swapErrors r.inst) = (s.rd (K.swapErrors r.inst) + 1) % 2 ^ 64 ∧
        t.seq q.val = { r with moving := r.moving.filter waits, movingOut := (r.moving.any waits) } ∧
        (∀ p, p ≠ q.val → t.seq p = s.seq p) ∧ t.hbm = s.hbm ∧ t.hostMem = s.hostMem ∧ t.cores = s.cores ∧
        t.insts = s.insts ∧ t.reqs = s.reqs ∧
        (∀ m ∈ r.moving, waits m = false → t.swapUse r.slot m.2.1 = 0)) ∧
    (∀ m h, s.copyOf q.val entry false = some m → s.swapRef r.slot m.2.1 = some h → s.hostReady h.fn = true → r.inst < 12 →
      ∃ t, exec (.swapInCopyDone q entry page true) s = .next t ∧
        t = { s with hbm := t.hbm, hbmPoison := t.hbmPoison, hbmErr := t.hbmErr, dict := t.dict, insts := t.insts } ∧
        t.hbm = (s.hbmWrite r.inst (s.pageAddr r.inst m.2.2) (slice page 0 65536)).hbm ∧
        t.rd (K.pagesIn r.inst) = (s.rd (K.pagesIn r.inst) + 1) % 2 ^ 64 ∧
        (∀ key, key ≠ K.pagesIn r.inst → t.rd key = s.rd key) ∧
        t.inst r.inst = { s.inst r.inst with changes := (s.inst r.inst).changes ++ [.swappedIn q.val entry m.2.2] } ∧
        ∀ j, j ≠ r.inst → t.inst j = s.inst j) ∧
    (∀ m, s.copyOf q.val entry false = some m → r.inst < 12 →
      (ok = false ∨ s.swapRef r.slot m.2.1 = none ∨ ∃ h, s.swapRef r.slot m.2.1 = some h ∧ s.hostReady h.fn = false) →
      (∀ y, (s.reqs.find? fun y => y.live && decide (y.seq = some q.val)) = some y →
        ∃ u : State, exec (.swapInCopyDone q entry page ok) s = .next (u.endReqSeq y.slot y.key 0x0B) ∧ u.seqs = s.seqs ∧
          u.reqs = s.reqs ∧ u.rd (K.swapErrors r.inst) = (s.rd (K.swapErrors r.inst) + 1) % 2 ^ 64) ∧
      ((∀ y ∈ s.reqs, y.live = true → y.seq ≠ some q.val) →
        ∃ t, exec (.swapInCopyDone q entry page ok) s = .next t ∧ t.seq q.val = { gen := (r.gen + 1) % 65536 } ∧
          t.rd (K.swapErrors r.inst) = (s.rd (K.swapErrors r.inst) + 1) % 2 ^ 64 ∧
          (∀ p, p ≠ q.val → t.seq p = s.seq p) ∧ t.reqs = s.reqs)) ∧
    (∀ (i : InstId) (p : Nat), (s.pageUse i.val p < 1000 → exec (.pageZeroDone i p) s = .next s) ∧
      (1000 ≤ s.pageUse i.val p →
        ∃ t, exec (.pageZeroDone i p) s = .next t ∧
          t = { s with hbm := t.hbm, hbmPoison := t.hbmPoison, hbmErr := t.hbmErr, insts := t.insts } ∧
          t.pageUse i.val p = 0 ∧ (∀ n, n ≠ p → t.pageUse i.val n = s.pageUse i.val n) ∧
          t.inst i.val = { s.inst i.val with pages := (t.inst i.val).pages } ∧ (∀ j, j ≠ i.val → t.inst j = s.inst j) ∧
          ((s.inst i.val).poolBase % 65536 = 0 →
            (∀ b ∈ t.hbmRead i.val (s.pageAddr i.val p) 65536, b = 0) ∧
            ((∀ y ∈ s.seqs, y.2.listAddr % 4 = 0) → ∀ y ∈ s.seqs, y.2 = s.seq y.1 → y.2.inst = i.val →
              ∀ x, x < y.2.listLen → s.pageEntry y.1 x = 2 ^ 29 + p → t.pageEntry y.1 x = 0)))) ∧
    (∀ (slot : SlotId) (n : Nat), (s.swapUse slot.val n < 2 ^ 20 → exec (.swapSlotZeroDone slot n) s = .next s) ∧
      (2 ^ 20 ≤ s.swapUse slot.val n →
        ∃ t, exec (.swapSlotZeroDone slot n) s = .next t ∧
          t = { s with slots := t.slots, hostMem := t.hostMem, dict := t.dict } ∧ t.swapUse slot.val n = 0 ∧
          (∀ m, m ≠ n → t.swapUse slot.val m = s.swapUse slot.val m) ∧ (∀ j, j ≠ slot.val → t.slot j = s.slot j) ∧
          (s.swapRef slot.val n = none → t.hostMem = s.hostMem ∧ t.dict = s.dict) ∧
          ∀ h, s.swapRef slot.val n = some h →
            (s.hostReady h.fn = true →
              t.hostMem = memWrite s.hostMem (h.port * 2 ^ 64 + h.addr) (List.replicate 65536 0) ∧ t.dict = s.dict) ∧
            (s.hostReady h.fn = false → t.hostMem = s.hostMem ∧
              t.rd (K.hostErrors h.port) = (s.rd (K.hostErrors h.port) + 1) % 2 ^ 64)))

/-- Draft-token messages. One that does not come from the selector of the instance that `draft_instance` pairs with this one,
in its direction, is refused and counted (the counter is the model's choice, log entry 76); one that names no such sequence
does nothing. DRAFT: the target keeps the drafts and the length they follow. ACCEPT: the draft sequence, when it holds the
tokens before them, goes back to `base` minus `count`, takes the committed tokens after those, and is to decode its m
drafts. DROP: the draft sequence ends, and a target goes on without its pair. -/
def Obligations.DraftMessagesReachSequences : Prop :=
  ∀ (s : State) (i : InstId) (m : DraftMsg),
    let Refuses := fun (a : Instr) => ∃ t, exec a s = .next t ∧ s.OnlyEntries t [K.staleDrops] ∧
      t.rd K.staleDrops = (s.rd K.staleDrops + 1) % 2 ^ 64
    let Becomes := fun (a : Instr) (q : Nat) (y : Seq) => ∃ t, exec a s = .next t ∧ t = { s with seqs := t.seqs } ∧
      t.seq q = y ∧ ∀ j, j ≠ q → t.seq j = s.seq j
    (s.draftFrom i.val m false true = false → Refuses (.draftMessage i m)) ∧
    (s.draftFrom i.val m false true = true →
      (s.msgSeq i.val m.target false = none → exec (.draftMessage i m) s = .next s) ∧
      ∀ q, s.msgSeq i.val m.target false = some q →
        Becomes (.draftMessage i m) q { s.seq q with drafts := m.tokens, draftsAt := m.base.toNat }) ∧
    (s.draftFrom i.val m true false = false → Refuses (.draftAcceptMessage i m)) ∧
    (s.draftFrom i.val m true false = true →
      (s.msgSeq i.val m.draft true = none → exec (.draftAcceptMessage i m) s = .next s) ∧
      ∀ q, s.msgSeq i.val m.draft true = some q →
        let x := s.seq q
        let pos := m.base.toNat - m.tokens.length
        let start := min x.length pos
        let feed := (x.tokens.take (pos + 1)).drop start ++ m.tokens
        (x.tokens.length ≤ pos → exec (.draftAcceptMessage i m) s = .next s) ∧
        (pos < x.tokens.length → Becomes (.draftAcceptMessage i m) q
          { (if start < x.length then x.staleRecords else x) with
            tokens := x.tokens.take (pos + 1) ++ m.tokens, length := start
            state := if x.state = .idle then .active else x.state
            draft := { x.draft with pos0 := start, feed := feed, fed := 0, nPrompt := feed.length, left := x.draft.m, out := []
                                    base := m.base.toNat } })) ∧
    (s.draftFrom i.val m true true = false → Refuses (.dropMessage i m)) ∧
    (s.draftFrom i.val m true true = true →
      (∀ q, s.msgSeq i.val m.draft true = some q →
        ∃ t, exec (.dropMessage i m) s = .next t ∧ t.seq q = { gen := ((s.seq q).gen + 1) % 65536 } ∧
          (∀ j, j ≠ q → t.seq j = s.seq j) ∧ t.reqs = s.reqs ∧ t.cores = s.cores ∧ t.dict = s.dict ∧ t.tx = s.tx) ∧
      (∀ q, s.msgSeq i.val m.draft true = none → s.msgSeq i.val m.target false = some q →
        Becomes (.dropMessage i m) q { s.seq q with pair := none, drafts := [] }) ∧
      (s.msgSeq i.val m.draft true = none → s.msgSeq i.val m.target false = none → exec (.dropMessage i m) s = .next s))

/-! ## Requests, rings and FRP -/

/-- A request that the ring or an association hands over, whatever its opcode; without one being taken nothing happens. The
ring's head moves. A good request with a new key is accepted: the key table gains it with the acceptance order and time, it
is counted, and the opcodes that act at a tack leave their change for it. A request that a check refuses is answered with
that check's status, and outside Enabled with status 0x08, which counts as aborted, and while the instance is not Ready or
Stopped with 0x0C. A key already there is a duplicate: with other bytes it is answered with status 0x05 and counted as a
conflict; with the same ones it is counted, and answered at the next tack while its request runs, else at once.
Rests on the reading of log entry 32. -/
def Obligations.RequestsAreAccepted : Prop :=
  ∀ (s : State) (slot : SlotId) (r : ReqArgs),
    let i := s.rd (K.slotInstance slot.val)
    let x := s.slot slot.val
    let head := match r.from_ with
      | .ring => (x.sq.head + 1) % x.sq.size
      | .frp _ => x.sq.head
    let takes := match r.from_ with
      | .ring => s.ringReads slot.val
      | .frp a => s.frpOpen slot.val a
    let q := fun op => if op = 6 ∨ entryIsNew r.e op = true then none else s.handleSeq slot.val r.e.handle.toNat
    let Answers := fun (c : Instr) (status : Nat) (then_ : State → State) (keeps : Bool) =>
      ∃ (u : State) (b : List Byte), exec c s = .next (then_ (u.postFinal slot.val r.from_ b)) ∧
        leAt b 0 8 = r.e.key % 2 ^ 64 ∧ leAt b 12 1 = status ∧ (u.slot slot.val).sq.head = head ∧ u.seqs = s.seqs ∧
        u.insts = s.insts ∧
        (keeps = false → u.reqs = s.reqs) ∧
        (keeps = true → ∃ y, u.reqs = s.reqs ++ [y] ∧ y.slot = slot.val ∧ y.key = r.e.key ∧ y.final = some b ∧
          y.finalAt = s.time)
    let Takes := fun (c : Instr) (op : Nat) (cs : List Change) =>
      (takes = false → exec c s = .next s) ∧
      (takes = true → 2 ≤ s.rd (K.slotState slot.val) →
        Answers c 8 (fun u => u.bump (K.requestsAborted slot.val) 64 1) false) ∧
      (takes = true → s.rd (K.slotState slot.val) < 2 → s.ready i = false → Answers c 0xC id false) ∧
      (takes = true → s.rd (K.slotState slot.val) < 2 → s.ready i = true →
        (∀ old, s.req slot.val r.e.key = some old →
          (old.crc ≠ crc32c (entryCrcBytes r.e op) → Answers c 5 id false) ∧
          (old.crc = crc32c (entryCrcBytes r.e op) → old.live = true → ∃ t, exec c s = .next t ∧
            t = { s with slots := t.slots, dict := t.dict, insts := t.insts } ∧ (t.slot slot.val).sq.head = head ∧
            (t.inst i).changes = (s.inst i).changes ++ [.duplicate slot.val r.e.key r.from_] ∧
            t.rd (K.duplicates i) = (s.rd (K.duplicates i) + 1) % 2 ^ 64 ∧
            ∀ key, key ≠ K.duplicates i → t.rd key = s.rd key) ∧
          (old.crc = crc32c (entryCrcBytes r.e op) → old.live = false → ∃ u : State,
            exec c s = .next (u.answerDup old r.from_) ∧ u = { s with slots := u.slots, dict := u.dict } ∧
            (u.slot slot.val).sq.head = head ∧ u.rd (K.duplicates i) = (s.rd (K.duplicates i) + 1) % 2 ^ 64)) ∧
        (s.req slot.val r.e.key = none →
          let st := s.reqStatus slot.val i op r (q op)
          (st ≠ 0 → Answers c st id (decide (st ≠ 4 ∧ s.keysOf slot.val < s.rd K.dedupEntries))) ∧
          (st = 0 → ∃ t y, exec c s = .next t ∧ t.reqs = s.reqs ++ [y] ∧ y.slot = slot.val ∧ y.key = r.e.key ∧
            y.opcode = op ∧ y.e = r.e ∧ y.tokens = r.tokens ∧ y.from_ = r.from_ ∧ y.inst = i ∧
            y.accepted = s.time ∧ y.order = (s.inst i).nextOrder ∧ y.seq = q op ∧ y.final = none ∧
            (t.slot slot.val).sq.head = head ∧
            t.inst i = { s.inst i with nextOrder := (s.inst i).nextOrder + 1, changes := (s.inst i).changes ++ cs } ∧
            t.rd (K.requestsAccepted slot.val) = (s.rd (K.requestsAccepted slot.val) + 1) % 2 ^ 64 ∧
            (∀ key, key ≠ K.requestsAccepted slot.val → t.rd key = s.rd key) ∧
            (∀ j, j ≠ slot.val → t.slot j = s.slot j) ∧ (∀ j, j ≠ i → t.inst j = s.inst j) ∧ t.cores = s.cores ∧
            t.hbm = s.hbm ∧ t.hostMem = s.hostMem ∧ t.seqs = s.seqs)))
    Takes (.generate slot r) 1 [] ∧ Takes (.append slot r) 2 [] ∧
    Takes (.truncate slot r) 3 [.truncate slot.val r.e.key] ∧ Takes (.park slot r) 4 [.park slot.val r.e.key] ∧
    Takes (.release slot r) 5 [.release slot.val r.e.key] ∧
    Takes (.requestCancel slot r) 6 [.cancel slot.val r.e.key r.e.input.toNat]

/-- A slot's rings: a doorbell inside the ring moves its index, and final completions that wait then take the room; one outside
stops the ring, and the event log records it; a disabled ring takes none. BASE, the size, and enabling with zeroed
indices are taken while the ring is disabled and, for enabling, the slot is Enabled, and counted as an error else; a ring that
is not well placed stops. Entries written and not announced go out in one message, pending while its function masks it. A
key whose window has run is forgotten. An interim completion reports the tokens so far, through the ring or the
association; it is dropped with a full ring or final completions waiting, ends the request with status 0x0E when host memory
does not take it, and is not posted with nothing new.
Rests on the reading of log entry 62. -/
def Obligations.RingRegistersAndCompletions : Prop :=
  ∀ (s : State) (slot : SlotId) (v : Word64) (key : Nat),
    let x := s.slot slot.val
    let f := s.fn (vfOf slot.val)
    let Sets := fun (a : Instr) (y : Slot) => ∃ t, exec a s = .next t ∧ t = { s with slots := t.slots } ∧
      t.slot slot.val = y ∧ ∀ j, j ≠ slot.val → t.slot j = s.slot j
    let Stops := fun (a : Instr) (y : Slot) => ∃ t, exec a s = .next t ∧ t.slot slot.val = y ∧
      (∀ j, j ≠ slot.val → t.slot j = s.slot j) ∧ (∃ e, t.log.head? = some e ∧ e.record % 2 ^ 16 = 0x0301) ∧
      t = { s with slots := t.slots, log := t.log, dict := t.dict, fns := t.fns, sent := t.sent, logMsgAt := t.logMsgAt,
                   logMsgHeld := t.logMsgHeld }
    let Fills := fun (a : Instr) (y : Slot) => ∃ t, exec a s = .next t ∧ (t.slot slot.val).finals <:+ y.finals ∧
      ((t.slot slot.val).finals = [] ∨ t.ringRoom slot.val = false ∨ y.teardown = 1) ∧
      (t.slot slot.val).cq = { y.cq with tail := (t.slot slot.val).cq.tail, phase := (t.slot slot.val).cq.phase } ∧
      (t.slot slot.val).sq = y.sq ∧ (y.finals = [] → t.slot slot.val = y ∧ t = { s with slots := t.slots }) ∧
      ∀ j, j ≠ slot.val → t.slot j = s.slot j
    (x.sq.enable = false → exec (.sqTail slot v) s = .next s) ∧
    (x.sq.enable = true → v.toNat < x.sq.size → Sets (.sqTail slot v) { x with sq := { x.sq with tail := v.toNat } }) ∧
    (x.sq.enable = true → x.sq.size ≤ v.toNat →
      Stops (.sqTail slot v) { x with sq := { x.sq with error := true, enable := false } }) ∧
    (x.cq.enable = false → exec (.cqHead slot v) s = .next s) ∧
    (x.cq.enable = true → v.toNat < x.cq.size → Fills (.cqHead slot v) { x with cq := { x.cq with head := v.toNat } }) ∧
    (x.cq.enable = true → x.cq.size ≤ v.toNat →
      Stops (.cqHead slot v) { x with cq := { x.cq with error := true, enable := false } }) ∧
    (∀ comp : Bool,
      let r := if comp then x.cq else x.sq
      let put := fun (r : Ring) => if comp then { x with cq := r } else { x with sq := r }
      let n := bits v.toNat 4 0
      let en := bit v.toNat 8
      (∀ b : Bool, r.enable = true ∨ (b = false ∧ en = true ∧ s.rd (K.slotState slot.val) ≠ 1) →
        ∃ t, exec (.ringCfgWrite slot comp b v) s = .next t ∧ s.OnlyEntries t [K.ringErrors slot.val] ∧
          t.rd (K.ringErrors slot.val) = (s.rd (K.ringErrors slot.val) + 1) % 2 ^ 32) ∧
      (r.enable = false → Sets (.ringCfgWrite slot comp true v) (put { r with base := v.toNat })) ∧
      (r.enable = false → en = false → Sets (.ringCfgWrite slot comp false v) (put { r with sizeLog2 := n })) ∧
      (r.enable = false → en = true → s.rd (K.slotState slot.val) = 1 →
        (s.ringPlaced slot.val n r.base = true →
          let on := { r with sizeLog2 := n, enable := true, error := false, head := 0, tail := 0, phase := true }
          if comp then Fills (.ringCfgWrite slot comp false v) (put on) else Sets (.ringCfgWrite slot comp false v) (put on)) ∧
        (s.ringPlaced slot.val n r.base = false →
          Stops (.ringCfgWrite slot comp false v) (put { r with sizeLog2 := n, error := true, enable := false })))) ∧
    (x.unannounced = 0 → exec (.irqCoalesce slot) s = .next s) ∧
    (x.unannounced ≠ 0 →
      ∃ t, exec (.irqCoalesce slot) s = .next t ∧ t = { s with slots := t.slots, fns := t.fns, sent := t.sent } ∧
        t.slot slot.val = { x with unannounced := 0 } ∧ (∀ j, j ≠ slot.val → t.slot j = s.slot j) ∧
        t.sent = (if f.msixEn = true ∧ f.bme = true ∧ f.unmasked.getLsbD 0 = true then (vfOf slot.val, 0) :: s.sent
          else s.sent) ∧
        (f.msixEn = true → f.bme = false ∨ f.unmasked.getLsbD 0 = false →
          (t.fn (vfOf slot.val)).pba.getLsbD 0 = true)) ∧
    (∃ t, exec (.dedupWindowExpiry slot key) s = .next t ∧ t = { s with reqs := t.reqs } ∧
      ∀ r, r ∈ t.reqs ↔ r ∈ s.reqs ∧ (r.slot ≠ slot.val ∨ r.key ≠ key ∨ r.live = true)) ∧
    ((∀ r, s.req slot.val key = some r → r.live = false ∨ r.emitted.length ≤ r.reported) →
      exec (.interimCompletion slot key) s = .next s) ∧
    (∀ r, s.req slot.val key = some r → r.live = true → r.reported < r.emitted.length →
      let r' := { r with reported := r.emitted.length, reportedAt := s.time, taintSince := false, inexactSince := false }
      let free := s.ringRoom slot.val = true ∧ x.finals = [] ∧ x.teardown = 0
      (∀ a, r.from_ = .frp a → ∃ t, exec (.interimCompletion slot key) s = .next t ∧ t.req slot.val key = some r' ∧
        t = { s with reqs := t.reqs, slots := t.slots, tx := t.tx }) ∧
      (r.from_ = .ring → ¬free → exec (.interimCompletion slot key) s = .next s) ∧
      (r.from_ = .ring → free → ∀ h, s.slotRef slot.val (x.cq.base + 64 * x.cq.tail) 64 = some h → s.hostReady h.fn = true →
        ∃ t b, exec (.interimCompletion slot key) s = .next t ∧ t.req slot.val key = some r' ∧
          t.hostMem = memWrite s.hostMem (h.port * 2 ^ 64 + h.addr) (b.take 63 ++ leBytes 1 (b2n x.cq.phase)) ∧
          leAt b 0 8 = r.key % 2 ^ 64 ∧ leAt b 12 1 = 0 ∧ leAt b 16 4 = r.emitted.length % 2 ^ 32 ∧
          (t.slot slot.val).cq.tail = (x.cq.tail + 1) % x.cq.size) ∧
      (r.from_ = .ring → free →
        (s.slotRef slot.val (x.cq.base + 64 * x.cq.tail) 64 = none ∨
          ∃ h, s.slotRef slot.val (x.cq.base + 64 * x.cq.tail) 64 = some h ∧ s.hostReady h.fn = false) →
        ∃ t y b, exec (.interimCompletion slot key) s = .next t ∧ t.req slot.val key = some y ∧ y.final = some b ∧
          leAt b 12 1 = 0x0E))

/-- FRP: a datagram that fails its checks is counted and does nothing else. A good one opens or finds its association, takes
its port and what it acknowledges; a sequenced one is received and marks an acknowledgement due. A SUBMIT that is new starts
or completes its request, and outside Enabled or Draining is answered with status 0x08 and counted as aborted; a DATA that is
new adds its bytes; a complete request is taken as a ring entry is. The acknowledgement that is due goes out, a datagram
whose wait has passed is sent again, or the association given up once its attempts are used, an idle association is
given up, and a request that stays incomplete is forgotten.
Rests on the reading of log entry 33. -/
def Obligations.FrpDatagramsAndTimers : Prop :=
  ∀ (s : State) (d : FrpDatagram) (slot : SlotId) (n seq : Nat),
    (s.frpGood d = false → ∀ a ∈ [Instr.frpSubmit d, .frpData d, .frpAck d, .frpKeepalive d],
      ∃ t, exec a s = .next t ∧ s.OnlyEntries t [K.frpBad] ∧ t.rd K.frpBad = (s.rd K.frpBad + 1) % 2 ^ 64) ∧
    (s.frpGood d = true →
      let old := (s.assoc d.slot d.assoc).getD { assoc := d.assoc }
      let heard := { old with port := d.port.val, out := old.out.filter fun o => !ackedBy d o }
      let Hears := fun (t : State) (a : Assoc) => t = { s with slots := t.slots, reqs := t.reqs } ∧
        t.assoc d.slot d.assoc = some a ∧ (∀ m, m ≠ d.assoc → t.assoc d.slot m = s.assoc d.slot m) ∧
        (∀ j, j ≠ d.slot → t.slot j = s.slot j) ∧ (t.slot d.slot).frpReqs = (s.slot d.slot).frpReqs ∧
        ((∀ o ∈ old.out, ackedBy d o = true → o.type ≠ 0x10) → t.reqs = s.reqs) ∧
        (∀ o ∈ old.out, ackedBy d o = true → o.type = 0x10 → ∀ r, s.req d.slot (leAt o.body 0 8) = some r →
          ∃ y, t.req d.slot (leAt o.body 0 8) = some y ∧ (leAt o.body 8 4, leAt o.body 12 4) ∈ y.acked)
      let isNew := old.expect ≤ d.seq ∧ d.seq ∉ old.beyond
      (∃ t, exec (.frpAck d) s = .next t ∧ Hears t heard) ∧
      ∃ t0 b, exec (.frpKeepalive d) s = .next t0 ∧ Hears t0 b ∧ b.ackDue = true ∧ b.port = d.port.val ∧
        b.out = heard.out ∧ b.next = old.next ∧
        (d.seq = old.expect → old.beyond = [] → b.expect = old.expect + 1 ∧ b.beyond = []) ∧
        (¬isNew → d.seq < old.expect → (∀ m ∈ old.beyond, old.expect < m) → b.expect = old.expect) ∧
        (¬isNew → exec (.frpSubmit d) s = .next t0 ∧ exec (.frpData d) s = .next t0) ∧
        (d.entry = none → exec (.frpSubmit d) s = .next t0) ∧
        (1 < d.part → exec (.frpData d) s = .next t0) ∧
        (let busy := s.rd (K.slotState d.slot) = 3 ∨ s.rd (K.slotState d.slot) = 4
         let Grows := fun (a : Instr) (y : FrpReq) =>
           (y.complete = none → ∃ t, exec a s = .next t ∧ t = { t0 with slots := t.slots } ∧
             (∀ j, j ≠ d.slot → t.slot j = t0.slot j) ∧ t.slot d.slot = { t0.slot d.slot with
               frpReqs := ((t0.slot d.slot).frpReqs.filter fun z => z.key != y.key) ++ [y] }) ∧
           (∀ op r, y.complete = some (op, r) → ∃ u : State, exec a s = .next (u.submit d.slot op r) ∧
             u = { t0 with slots := u.slots } ∧ (∀ j, j ≠ d.slot → u.slot j = t0.slot j) ∧ u.slot d.slot = { t0.slot d.slot with
               frpReqs := (t0.slot d.slot).frpReqs.filter fun z => z.key != y.key })
         (∀ e, isNew → d.entry = some e →
           (busy → ∃ t c, exec (.frpSubmit d) s = .next t ∧ leAt c 0 8 = e.key % 2 ^ 64 ∧ leAt c 12 1 = 8 ∧
             (t.slot d.slot).assocs = ((t0.frpSend d.slot d.assoc 0x11 c).slot d.slot).assocs ∧
             t.tx = (t0.frpSend d.slot d.assoc 0x11 c).tx ∧
             t.rd (K.requestsAborted d.slot) = (s.rd (K.requestsAborted d.slot) + 1) % 2 ^ 64) ∧
           (¬busy →
             let y := (s.frpReq d.slot e.key).getD { key := e.key, assoc := d.assoc }
             Grows (.frpSubmit d) { y with assoc := d.assoc, entry := some (d.opcode, e)
                                           tokens := y.tokens ++ [(0, d.tokens.flatMap (leBytes 4))] })) ∧
         (isNew → busy → exec (.frpData d) s = .next t0) ∧
         (isNew → ¬busy →
           let y := (s.frpReq d.slot d.key).getD { key := d.key, assoc := d.assoc }
           (d.part = 0 → Grows (.frpData d) { y with tokens := y.tokens ++ [(d.offset, d.data)] }) ∧
           (d.part = 1 → Grows (.frpData d) { y with params := y.params ++ [(d.offset, d.data)] })))) ∧
    (let Sends := fun (act : Instr) (a b : Assoc) => ∃ t bs, exec act s = .next t ∧ t = { s with slots := t.slots, tx := t.tx } ∧
       t.tx = (chanEth a.port, bs) :: s.tx ∧ t.assoc slot.val n = some b ∧
       (∀ m, m ≠ n → t.assoc slot.val m = s.assoc slot.val m) ∧ ∀ j, j ≠ slot.val → t.slot j = s.slot j
     let GivesUp := fun (act : Instr) => ∃ t, exec act s = .next t ∧ t = { s with slots := t.slots } ∧
       (∀ a, s.assoc slot.val n = some a → t.assoc slot.val n = some { a with failed := true, out := [] }) ∧
       (∀ m, m ≠ n → t.assoc slot.val m = s.assoc slot.val m) ∧ ∀ j, j ≠ slot.val → t.slot j = s.slot j
     (s.assoc slot.val n = none →
       exec (.frpAckDue slot n) s = .next s ∧ exec (.frpRetransmit slot ⟨n, seq⟩) s = .next s) ∧
     (∀ a, s.assoc slot.val n = some a →
       (a.ackDue = false → exec (.frpAckDue slot n) s = .next s) ∧
       (a.ackDue = true → Sends (.frpAckDue slot n) a { a with ackDue := false }) ∧
       ((∀ o ∈ a.out, o.seq ≠ seq) → exec (.frpRetransmit slot ⟨n, seq⟩) s = .next s) ∧
       (∀ o, (a.out.find? fun o => o.seq == seq) = some o →
         let limit := s.inForce (s.rd (K.slotInstance slot.val)) K.frpRetries
         (limit ≤ o.tries → GivesUp (.frpRetransmit slot ⟨n, seq⟩)) ∧
         (o.tries < limit → Sends (.frpRetransmit slot ⟨n, seq⟩) a { a with
           ackDue := false, out := a.out.map fun y => if y.seq = seq then { y with tries := y.tries + 1 } else y }))) ∧
     GivesUp (.frpAssocIdle slot n)) ∧
    (∃ t, exec (.frpRequestIncomplete slot n) s = .next t ∧ t = { s with slots := t.slots } ∧
      t.slot slot.val = { s.slot slot.val with frpReqs := (s.slot slot.val).frpReqs.filter fun y => y.key != n } ∧
      ∀ j, j ≠ slot.val → t.slot j = s.slot j)

/-! ## Instances -/

/-- The commands of an instance and the events of its load. FORM, UNLOAD, DISSOLVE, STOP, RESUME and LOAD are refused with
result 3 while the instance loads or a command runs on it, with 1 in a state they do not fit, with 2 where FORM's panels or
UNLOAD's and DISSOLVE's users do not allow it; else they answer 0 and start what the zeroing event ends. STORE and DELETE
answer with the results of R343. A load takes the manifest, the descriptor, the pattern, its shards and its tiles in turn; what
fails a check ends it with the check's code, a shard fails its digest twice before the third time ends the load, and a tile
that fails twice retires its core. With the last shard and tile in, the instance is Fitted.
Rests on the readings of log entries 59 and 60. -/
def Obligations.InstanceCommands : Prop :=
  ∀ (s : State) (i : InstId),
    let st := s.rd (K.instState i.val)
    let x := s.inst i.val
    let r := K.instCmdResult i.val
    let Answers := fun (a : Instr) (code : Nat) => ∃ t, exec a s = .next t ∧ s.OnlyEntries t [r] ∧ t.rd r = code
    let Fails := fun (a : Instr) (code shard : Nat) => ∃ t, exec a s = .next t ∧
      t.rd (K.loadStatus i.val) = 6 + 256 * code + 65536 * shard ∧ t.rd (K.instState i.val) = 1 ∧ (t.inst i.val).load = none ∧
      (t.inst i.val).pattern = [] ∧ ∀ j, j ≠ i.val → t.inst j = s.inst j
    -- forming, unloading, dissolving, stopping and resuming
    (let ps := rectangle i.val (s.rd (K.instCols i.val)) (s.rd (K.instRows i.val))
     let fits := inGrid i.val (s.rd (K.instCols i.val)) (s.rd (K.instRows i.val)) = true ∧ ∀ p ∈ ps, s.panelTaken p = false
     (st = 2 ∨ s.instBusy i.val = true → Answers (.form i) 3) ∧
     (st ≠ 2 → s.instBusy i.val = false → st ≠ 0 → Answers (.form i) 1) ∧
     (s.instBusy i.val = false → st = 0 → ¬fits → Answers (.form i) 2) ∧
     (s.instBusy i.val = false → st = 0 → fits →
       ∃ t, exec (.form i) s = .next t ∧ t = { s with dict := t.dict, insts := t.insts, cores := t.cores } ∧ t.rd r = 0 ∧
         t.inst i.val = { x with panels := ps, busy := .forming } ∧ (∀ j, j ≠ i.val → t.inst j = s.inst j) ∧
         (∀ c ∈ ps.flatMap coresOfPanel, t.core c = { s.core c with header := 4 }) ∧
         ∀ c, c ∉ ps.flatMap coresOfPanel → t.core c = s.core c)) ∧
    (let busy := st = 2 ∨ (s.instBusy i.val = true ∧ st ≠ 6)
     let Starts := fun (a : Instr) (b : Busy) => ∃ t, exec a s = .next t ∧ t.rd r = 0 ∧ t.rd (K.instState i.val) = st ∧
       t.inst i.val = { x with busy := b, halted := true, restartDue := false, replacing := [], waitDarn := false } ∧
       (∀ j, j ≠ i.val → t.inst j = s.inst j) ∧ t.hbm = s.hbm ∧ t.reqs = s.reqs
     (busy → Answers (.unload i) 3 ∧ Answers (.dissolve i) 3) ∧
     (¬busy → st ≠ 3 → st ≠ 4 → st ≠ 5 → Answers (.unload i) 1) ∧
     (¬busy → st = 0 ∨ st = 6 → Answers (.dissolve i) 1) ∧
     (¬busy → s.instNeeded i.val = true →
       (st = 3 ∨ st = 4 ∨ st = 5 → Answers (.unload i) 2) ∧ (st ≠ 0 → st ≠ 6 → Answers (.dissolve i) 2)) ∧
     (¬busy → s.instNeeded i.val = false → (∀ p ∈ x.panels, p < 12) →
       (st = 3 ∨ st = 4 ∨ st = 5 → Starts (.unload i) .unloading) ∧
       (st ≠ 0 → st ≠ 1 → st ≠ 6 → Starts (.dissolve i) (.dissolving true)) ∧
       (st = 1 → ∃ t, exec (.dissolve i) s = .next t ∧ t = { s with dict := t.dict, insts := t.insts } ∧ t.rd r = 0 ∧
         t.rd (K.instState i.val) = 6 ∧ t.inst i.val = { x with busy := .dissolving false } ∧
         ∀ j, j ≠ i.val → t.inst j = s.inst j))) ∧
    (x.busy = .none → exec (.instanceZeroingDone i) s = .next s) ∧
    (x.busy = .forming → ∃ t, exec (.instanceZeroingDone i) s = .next t ∧ t.rd (K.instState i.val) = 1 ∧
      t.inst i.val = { x with busy := .none } ∧ (∀ b ∈ t.hbm, b.1 / 2 ^ 36 ∉ s.stacksOf i.val)) ∧
    (x.busy = .unloading → ∃ t, exec (.instanceZeroingDone i) s = .next t ∧ t.rd (K.instState i.val) = 1 ∧
      (t.inst i.val).busy = .none ∧ (t.inst i.val).panels = x.panels ∧ (t.inst i.val).pattern = [] ∧
      (∀ b ∈ t.hbm, b.1 / 2 ^ 36 ∉ s.stacksOf i.val)) ∧
    (x.busy = .dissolving true → ∃ t, exec (.instanceZeroingDone i) s = .next t ∧ t.rd (K.instState i.val) = 6 ∧
      (t.inst i.val).busy = .dissolving false ∧ (t.inst i.val).pattern = []) ∧
    (x.busy = .dissolving false → ∃ t, exec (.instanceZeroingDone i) s = .next t ∧ t.rd (K.instState i.val) = 0 ∧
      t.inst i.val = {} ∧ (∀ b ∈ t.hbm, b.1 / 2 ^ 36 ∉ s.stacksOf i.val)) ∧
    (s.instBusy i.val = true → Answers (.instanceStop i) 3 ∧ Answers (.resume i) 3) ∧
    (s.instBusy i.val = false →
      (st ≠ 3 → Answers (.instanceStop i) 1) ∧ (st ≠ 4 → Answers (.resume i) 1) ∧
      (st = 3 → ∃ t, exec (.instanceStop i) s = .next t ∧ t = { s with dict := t.dict, insts := t.insts } ∧ t.rd r = 0 ∧
        t.inst i.val = { x with stopDue := true, hostStop := true } ∧ (∀ key, key ≠ r → t.rd key = s.rd key) ∧
        ∀ j, j ≠ i.val → t.inst j = s.inst j) ∧
      (st = 4 → ∃ t, exec (.resume i) s = .next t ∧ t = { s with dict := t.dict, insts := t.insts } ∧ t.rd r = 0 ∧
        t.rd (K.instState i.val) = (if x.hot_ = [] then 3 else 4) ∧ t.inst i.val = { x with hostStop := false } ∧
        (∀ key, key ≠ r → key ≠ K.instState i.val → t.rd key = s.rd key) ∧ ∀ j, j ≠ i.val → t.inst j = s.inst j)) ∧
    -- the alteration store
    (let v := s.rd (K.altIndex i.val)
     let b := s.blob (K.altData i.val)
     let good := alterationOk b (s.rd (K.modelLayers i.val)) (descHidden x.desc)
     let bound := ∃ n, n < 512 ∧ s.rd (K.slotInstance n) = i.val ∧ s.rd (K.altBinding n) = v
     let Ends := fun (a : Instr) (res : Nat) (P : State → Prop) => ∃ t, exec a s = .next t ∧ P t ∧
       t.rd (K.altResult i.val) = res ∧ (∀ key, key ≠ K.altResult i.val → t.rd key = s.rd key) ∧
       t.blob (K.altData i.val) = [] ∧ t.cores = s.cores ∧ t.seqs = s.seqs ∧ ∀ j, j ≠ i.val → t.inst j = s.inst j
     let Same := fun t : State => t.insts = s.insts ∧ t.hbm = s.hbm
     (s.ready i.val = false → Ends (.store i) 5 Same ∧ Ends (.deleteCmd i) 5 Same) ∧
     (s.ready i.val = true → good = false → Ends (.store i) 2 Same) ∧
     (s.ready i.val = true → good = true → s.altHeld i.val v = false → Ends (.store i) 0 fun t =>
       t.inst i.val = { x with alts := mapSet (fun _ => 0) x.alts v b.length } ∧
       t.hbm = (s.hbmWrite i.val (x.altBase + altBytes * v) (slice b 0 altBytes)).hbm) ∧
     (s.ready i.val = true → good = true → s.altHeld i.val v = true → x.altSwap ≠ none → Ends (.store i) 3 Same) ∧
     (s.ready i.val = true → good = true → s.altHeld i.val v = true → x.altSwap = none → Ends (.store i) 1 fun t =>
       t.inst i.val = { x with altSwap := some (v, b) } ∧ t.hbm = s.hbm) ∧
     (s.ready i.val = true → bound → Ends (.deleteCmd i) 4 Same) ∧
     (s.ready i.val = true → ¬bound → Ends (.deleteCmd i) 0 fun t =>
       t.altHeld i.val v = false ∧ t.hbm = (s.hbmClear i.val (x.altBase + altBytes * v) altBytes).hbm ∧
       t.inst i.val = { x with alts := (t.inst i.val).alts, altSwap := x.altSwap.filter fun y => y.1 != v } ∧
       ∀ u, u ≠ v → t.altHeld i.val u = s.altHeld i.val u)) ∧
    -- LOAD and ABORT_LOAD
    (s.rd K.testEnable = 1 → exec (.load i) s = .next s) ∧
    (s.rd K.testEnable ≠ 1 →
      (st = 2 ∨ s.instBusy i.val = true → Answers (.load i) 3) ∧
      (st ≠ 2 → s.instBusy i.val = false → st ≠ 1 → Answers (.load i) 1) ∧
      (st = 1 → s.instBusy i.val = false → s.fromCascade i.val = true ∨
          (∃ h, s.devRef (s.rd (K.loadSrc i.val)) 64 (fun w => w.role == 1 && w.owner == i.val) = some h ∧
            ∀ v ∈ s.aliases i.val (winNo (s.rd (K.loadSrc i.val))), s.hostReady (pfOf (v / 128)) = true) →
        ∃ t, exec (.load i) s = .next t ∧ t.rd (K.loadStatus i.val) = 2 ∧ t.rd (K.instState i.val) = 2 ∧ t.rd r = 0 ∧
          t.rd (K.shardsDone i.val) = 0 ∧ (t.inst i.val).load = some {} ∧ (t.inst i.val).panels = x.panels ∧
          (t.inst i.val).pattern = []) ∧
      (st = 1 → s.instBusy i.val = false → s.fromCascade i.val = false →
        s.devRef (s.rd (K.loadSrc i.val)) 64 (fun w => w.role == 1 && w.owner == i.val) = none → Fails (.load i) 0x28 0)) ∧
    (st ≠ 2 → Answers (.abortLoad i) 1) ∧ (st = 2 → Fails (.abortLoad i) 0x2A 0) ∧
    -- the events of a load
    (∀ (image : List Byte) (fin : FetchEnd),
      let a := Instr.imageComplete i ⟨image, fin⟩
      let pat := x.desc ≠ [] ∧ x.pattern = []
      let Missed := fun (a : Instr) (l : Load) (n : Nat) =>
        (2 ≤ mapGet (fun _ => 0) l.misses n → Fails a 0x25 n) ∧
        (mapGet (fun _ => 0) l.misses n < 2 → ∃ t, exec a s = .next t ∧
          t.inst i.val = { x with load := some { l with
            misses := mapSet (fun _ => 0) l.misses n (mapGet (fun _ => 0) l.misses n + 1) } } ∧
          (∀ j, j ≠ i.val → t.inst j = s.inst j) ∧ t.dict = s.dict ∧ t.cores = s.cores)
      (x.load = none → exec a s = .next s) ∧
      (∀ l, x.load = some l →
        (fin ≠ .done →
          (x.pattern ≠ [] ∨ (s.fromCascade i.val = true ∧ ¬pat) → exec a s = .next s) ∧
          (x.pattern = [] → s.fromCascade i.val = false ∨ pat → Fails a 0x28 0)) ∧
        (fin = .done → x.manifest = [] →
          ((s.fetchedModel i.val 0 image.length).2 = false → Fails a 0x28 0) ∧
          ((s.fetchedModel i.val 0 image.length).2 = true →
            (s.manifestCode i.val image ≠ 0 → Fails a (s.manifestCode i.val image) 0) ∧
            (s.manifestCode i.val image = 0 → ∃ t, exec a s = .next t ∧ t.inst i.val = { x with manifest := image } ∧
              t.rd (K.modelKeyId i.val) = manKey image ∧ t.blob (K.modelDigest i.val) = Config.sha384 image ∧
              t.cores = s.cores ∧ t.hbm = s.hbm))) ∧
        (fin = .done → x.manifest ≠ [] → x.desc = [] →
          let got := (s.fetchedModel i.val (shardAt x.manifest 0) (manShard x.manifest 0).length).2
          (got = false → Fails a 0x28 0) ∧
          (got = true → shardOk x.manifest 0 image = false → Missed a l 0) ∧
          (got = true → shardOk x.manifest 0 image = true → descOk image = false → Fails a 0x24 0) ∧
          (got = true → shardOk x.manifest 0 image = true → descOk image = true →
            ((s.fetched i.val (s.rd (K.patternSrc i.val)) (s.rd (K.patternLen i.val))).2 = false → Fails a 0x28 0) ∧
            ((s.fetched i.val (s.rd (K.patternSrc i.val)) (s.rd (K.patternLen i.val))).2 = true → ∃ t, exec a s = .next t ∧
              t = { s with dict := t.dict, insts := t.insts } ∧
              t.inst i.val = { x with desc := image, load := some { l with done := l.done ++ [0] } } ∧
              (∀ j, j ≠ i.val → t.inst j = s.inst j) ∧ t.rd (K.loadStatus i.val) = 3 ∧
              t.rd (K.modelLayers i.val) = descLayers image ∧ t.rd (K.modelVocab i.val) = descVocab image ∧
              t.rd (K.modelContext i.val) = descContext image ∧ t.rd (K.modelDraftHeads i.val) = descHeads image ∧
              t.rd (K.shardsDone i.val) = (s.rd (K.shardsDone i.val) + 1) % 2 ^ 32))) ∧
        (fin = .done → x.manifest ≠ [] → x.desc ≠ [] → x.pattern = [] →
          (s.patCode i.val image ≠ 0 → Fails a (s.patCode i.val image) 0) ∧
          (s.patCode i.val image = 0 → (s.hbmPlan i.val image 0).isSome = true → ∃ t, exec a s = .next t ∧
            (t.inst i.val).pattern = image ∧ t.rd (K.loadStatus i.val) = 4)) ∧
        (fin = .done → x.manifest ≠ [] → x.desc ≠ [] → x.pattern ≠ [] → exec a s = .next s)) ∧
      -- shards
      (let a := Instr.shardVerified i ⟨image, fin⟩
       (x.load = none → exec a s = .next s) ∧
       (∀ l, x.load = some l →
         (x.pattern = [] ∨ (∀ n, n < manCount x.manifest → n ∈ l.done) → exec a s = .next s) ∧
         (∀ n, x.pattern ≠ [] → ((List.range (manCount x.manifest)).find? fun m => !l.done.contains m) = some n →
           let e := manShard x.manifest n
           let got := (s.fetchedModel i.val (shardAt x.manifest n) e.length).2
           let more := l.done.length + 1 < manCount x.manifest
           let Done := fun (l' : Load) => ∃ t, exec a s = .next t ∧
             (t.inst i.val).load = some { l' with done := l.done ++ [n] } ∧
             t.rd (K.shardsDone i.val) = (s.rd (K.shardsDone i.val) + 1) % 2 ^ 32 ∧ t.rd (K.instState i.val) = st ∧
             t.cores = s.cores
           let Ends := fun (l' : Load) => (more → Done l') ∧
             (¬more → l'.placed.length < (tileRecs x.pattern).length → Fails a 7 0) ∧
             (¬more → (tileRecs x.pattern).length ≤ l'.placed.length →
               l'.programmed.length < (tileRecs x.pattern).length → Done l') ∧
             (¬more → (tileRecs x.pattern).length ≤ l'.placed.length → (tileRecs x.pattern).length ≤ l'.programmed.length →
               ∃ t, exec a s = .next t ∧ t.rd (K.instState i.val) = 3 ∧ t.rd (K.loadStatus i.val) = 5 ∧
                 (t.inst i.val).load = none)
           (fin ≠ .done → s.fromCascade i.val = true → exec a s = .next s) ∧
           (fin ≠ .done → s.fromCascade i.val = false → Fails a 0x28 n) ∧
           (fin = .done → got = false → Fails a 0x28 n) ∧
           (fin = .done → got = true → shardOk x.manifest n image = false → Missed a l n) ∧
           (fin = .done → got = true → shardOk x.manifest n image = true →
             (e.kind = 1 →
               (convertShard image e.elem (descTiles x.desc) l.sources = none → Fails a 0x26 n) ∧
               (∀ cs, convertShard image e.elem (descTiles x.desc) l.sources = some cs →
                 let p := (s.keepForms i.val n cs).placeSources i.val cs
                 (p.2 ≠ 0 → Fails a p.2 n) ∧
                 (p.2 = 0 → ∀ l', (p.1.inst i.val).load = some l' →
                   Ends { l' with sources := l'.sources ++ cs.map (·.source) }))) ∧
             (e.kind ≠ 1 →
               let f := s.fillRegion i.val n e image
               (f.2 ≠ 0 → Fails a f.2 n) ∧ (f.2 = 0 → Ends l))))))) ∧
    -- tiles
    (∀ (tile : Nat) (ok : Bool),
      let a := Instr.tileProgrammed i tile ok
      (x.load = none ∨ (tileRecs x.pattern)[tile]? = none → exec a s = .next s) ∧
      (∀ l rec, x.load = some l → (tileRecs x.pattern)[tile]? = some rec →
        let c := s.posCore (absPanel i.val x.pattern rec.panel) rec.logical
        (tile ∉ l.placed ∨ tile ∈ l.programmed → exec a s = .next s) ∧
        (tile ∈ l.placed → tile ∉ l.programmed →
          (ok = false → tile ∉ l.failedOnce → ∃ t, exec a s = .next t ∧ t = { s with insts := t.insts } ∧
            t.inst i.val = { x with load := some { l with failedOnce := l.failedOnce ++ [tile] } } ∧
            ∀ j, j ≠ i.val → t.inst j = s.inst j) ∧
          (ok = false → tile ∈ l.failedOnce → ∃ t, exec a s = .next t ∧ (t.inst i.val).retired = x.retired ++ [c] ∧
            ∀ j, j ≠ i.val → t.inst j = s.inst j) ∧
          (ok = true → l.done.length < manCount x.manifest ∨ l.programmed.length + 1 < (tileRecs x.pattern).length →
            ∃ t, exec a s = .next t ∧ t = { s with cores := t.cores, insts := t.insts } ∧
              t.inst i.val = { x with load := some { l with programmed := l.programmed ++ [tile] } } ∧
              (∀ j, j ≠ i.val → t.inst j = s.inst j) ∧ ∀ d, d ≠ c → t.core d = s.core d) ∧
          (ok = true → manCount x.manifest ≤ l.done.length → (tileRecs x.pattern).length ≤ l.programmed.length + 1 →
            ∃ t, exec a s = .next t ∧ t.rd (K.instState i.val) = 3 ∧ t.rd (K.loadStatus i.val) = 5 ∧
              (t.inst i.val).load = none))))

/-! ## Slots, functions and windows -/

/-- The commands of a tenant slot in each of its states: ENABLE waits for the instance's tack, or for the slot to close, DISABLE
starts a drain or turns a reset into a closing, RESET starts a teardown, and each is refused in the other states. A teardown
settles once nothing is left to zero and every completion of it is posted and announced: the rings, associations and indices
take their reset values, the epoch counts, and the slot is Enabled or Disabled, where a pending ENABLE is then carried out.
Completions that could not be posted are counted as lost. The writes of its key and of its alteration binding follow its
state, and its accounting starts at zero again at the instance's next tack.
Rests on the readings of log entries 45 and 61. -/
def Obligations.SlotCommandsFollowTheLifeCycle : Prop :=
  ∀ (s : State) (n : SlotId) (key : List Byte) (a : BitVec 16),
    let st := s.rd (K.slotState n.val)
    let i := s.rd (K.slotInstance n.val)
    let x := s.slot n.val
    let res := K.slotCmdResult n.val
    let pend := K.enablePending n.val
    let Waits := fun (c : Instr) (ch : Change) => ∃ t, exec c s = .next t ∧ t = { s with insts := t.insts } ∧
      t.inst i = { s.inst i with changes := (s.inst i).changes ++ [ch] } ∧ ∀ j, j ≠ i → t.inst j = s.inst j
    let Sets := fun (c : Instr) (vs : List (Nat × Nat)) => ∃ t, exec c s = .next t ∧ s.OnlyEntries t (vs.map (·.1)) ∧
      ∀ v ∈ vs, t.rd v.1 = v.2
    (s.rd K.testEnable = 1 → exec (.enable n) s = .next s) ∧
    (s.rd K.testEnable ≠ 1 →
      (st = 0 → s.enableOk n.val = true →
        ∃ t, exec (.enable n) s = .next t ∧ t = { s with dict := t.dict, insts := t.insts } ∧
          t.rd res = 0 ∧ (∀ k, k ≠ res → t.rd k = s.rd k) ∧
          t.inst i = { s.inst i with changes := (s.inst i).changes ++ [.enable n.val] } ∧ ∀ j, j ≠ i → t.inst j = s.inst j) ∧
      (st = 0 → s.enableOk n.val = false → Sets (.enable n) [(res, 2), (pend, 0)]) ∧
      (st = 2 ∨ st = 4 → Sets (.enable n) [(res, 0), (pend, 1)]) ∧
      (st ≠ 0 → st ≠ 2 → st ≠ 4 → Sets (.enable n) [(res, 1)])) ∧
    (st = 1 → ∃ t, exec (.disable n) s = .next t ∧ t = { s with dict := t.dict, insts := t.insts, slots := t.slots } ∧
      t.rd (K.slotState n.val) = 2 ∧ t.rd res = 0 ∧ (∀ k, k ∉ [K.slotState n.val, res] → t.rd k = s.rd k) ∧
      t.slot n.val = { x with drainStart := s.time } ∧ (∀ m, m ≠ n.val → t.slot m = s.slot m) ∧
      t.inst i = { s.inst i with changes := (s.inst i).changes ++ [.withdraw n.val] } ∧ ∀ j, j ≠ i → t.inst j = s.inst j) ∧
    (st = 3 → Sets (.disable n) [(K.slotState n.val, 4), (res, 0)]) ∧
    (st = 2 ∨ st = 4 → Sets (.disable n) [(res, 1), (pend, 0)]) ∧
    (st ≠ 1 → st ≠ 2 → st ≠ 3 → st ≠ 4 → Sets (.disable n) [(res, 1)]) ∧
    (st = 1 ∨ st = 2 → ∃ t, exec (.slotReset n) s = .next t ∧ t = { s with dict := t.dict, slots := t.slots } ∧
      t.rd (K.slotState n.val) = (if st = 1 then 3 else 4) ∧ t.rd res = 0 ∧
      (∀ k, k ∉ [K.slotState n.val, res] → t.rd k = s.rd k) ∧
      t.slot n.val = { x with teardown := 1, flr := false } ∧ ∀ m, m ≠ n.val → t.slot m = s.slot m) ∧
    (st ≠ 1 → st ≠ 2 → Sets (.slotReset n) [(res, 1)]) ∧
    (let settled := x.teardown = 2 ∧ s.zeroLeft n.val = 0 ∧ x.finals = [] ∧ x.unannounced = 0 ∧ s.granulesLeft n.val = false
     (¬settled → exec (.teardownSettle n) s = .next s) ∧
     (settled → ∃ t, exec (.teardownSettle n) s = .next t ∧ t.rd (K.slotState n.val) = (if st = 4 then 0 else 1) ∧
        t.rd (K.epoch n.val) = (s.rd (K.epoch n.val) + 1) % 2 ^ 32 ∧
        t.slot n.val = { x with
          sq := { x.sq with enable := false, head := 0, tail := 0 }, cq := { x.cq with enable := false, head := 0, tail := 0 }
          assocs := [], frpReqs := [], teardown := 0, flr := false, vt := 0, heldBack := []
          frpKey := if st = 4 then x.heldKey else x.frpKey, heldKey := none, swap := if st = 4 then [] else x.swap } ∧
        (st = 4 → t.rd (K.swapBase n.val) = 0 ∧ t.rd (K.swapSlots n.val) = 0) ∧ t.Logged 0x0302 0 ∧
        (st ≠ 4 ∨ s.rd pend ≠ 1 → t.insts = s.insts ∧ t.rd res = s.rd res ∧ t.rd pend = s.rd pend) ∧
        (st = 4 → s.rd pend = 1 → t.rd res = 0 ∧ (t.inst i).changes = (s.inst i).changes ++ [.enable n.val] ∨
          t.rd res = 2 ∧ t.rd pend = 0 ∧ t.insts = s.insts) ∧
        (∀ m, m ≠ n.val → t.slot m = s.slot m) ∧ t.cores = s.cores ∧ t.hbm = s.hbm ∧ t.seqs = s.seqs)) ∧
    (x.teardown ≠ 2 → exec (.abortCompletionDiscard n) s = .next s) ∧
    (x.teardown = 2 → ∃ t, exec (.abortCompletionDiscard n) s = .next t ∧ t = { s with dict := t.dict, slots := t.slots } ∧
      t.rd (K.completionsLost n.val) = (s.rd (K.completionsLost n.val) + x.finals.length) % 2 ^ 32 ∧
      (∀ k, k ≠ K.completionsLost n.val → t.rd k = s.rd k) ∧
      t.slot n.val = { x with finals := [] } ∧ ∀ m, m ≠ n.val → t.slot m = s.slot m) ∧
    (st = 2 ∨ st = 4 ∨ st = 0 → ∃ t, exec (.frpKeyWrite n key) s = .next t ∧ t = { s with slots := t.slots } ∧
      t.slot n.val = (if st = 0 then { x with frpKey := some key } else { x with heldKey := some key }) ∧
      ∀ m, m ≠ n.val → t.slot m = s.slot m) ∧
    (st ≠ 0 → st ≠ 2 → st ≠ 4 → exec (.frpKeyWrite n key) s = .next s) ∧
    (s.slotRule n.val 0xF a.toNat ≠ 0 → exec (.altBindingWrite n a) s = .next s) ∧
    (s.slotRule n.val 0xF a.toNat = 0 →
      (st ≠ 0 → s.ready i = true → Waits (.altBindingWrite n a) (.altBinding n.val a.toNat)) ∧
      (st = 0 ∨ s.ready i = false → Sets (.altBindingWrite n a) [(K.altBinding n.val, a.toNat)])) ∧
    (a.toNat = 0xFFFF ∨ s.altHeld i a.toNat = true → s.slotRule n.val 0xF a.toNat = 0) ∧
    (i < 12 → s.rd (K.instState i) ≠ 0 → Waits (.acctClear n) (.acctClear n.val)) ∧
    (12 ≤ i ∨ s.rd (K.instState i) = 0 →
      Sets (.acctClear n) ((List.range 8).map fun j => (K.requestsAccepted n.val + j, 0)))

/-- PCIe functions: a function-level reset, VF Enable cleared and PERST return virtual functions, their rings, slot windows and
mailboxes to their reset values and reset the slots they serve, the last two where the slot's transport has the ring; PERST
takes the link down and resets the physical function too. The enables let held messages go; unmasking writes the vector's
table entry. The windows: a device window is set valid with its owner and role when its fields are right and refused and
counted otherwise; a valid one takes nothing but the clearing of `valid`, refused and counted while it is in use; slot windows
likewise.
Rests on the reading of log entry 63. -/
def Obligations.PcieFunctionsAndWindows : Prop :=
   (∀ (s : State) (slot : SlotId) (n : PortId) (f : Fin 65) (v : Fin 16) (addr : Word64) (data : BitVec 32),
      let Cleared := fun (t : State) (m : Nat) => t.fn (vfOf m) = {} ∧ (∀ k z, k < 8 → t.swinReg m k z = 0) ∧
        t.ses (64 + m) = { s.ses (64 + m) with busy := false, ready := false, request := none, response := [] }
      let bare := fun (m : Nat) => { s.slot m with sq := {}, cq := {}, unannounced := 0 }
      let Reset := fun (t : State) (m : Nat) =>
        let st := s.rd (K.slotState m)
        let kept := if (s.slot m).teardown ≠ 0 then { bare m with flr := true, finals := [] } else bare m
        (st = 1 ∨ st = 2 → t.slot m = { kept with teardown := 1, flr := true } ∧
          t.rd (K.slotState m) = (if st = 1 then 3 else 4) ∧ t.rd (K.slotCmdResult m) = 0) ∧
        (st ≠ 1 → st ≠ 2 → t.slot m = kept ∧ t.rd (K.slotState m) = st ∧ t.rd (K.slotCmdResult m) = 1)
      let Vfs := fun (t : State) => ∀ k, k < 64 → Cleared t (64 * n.val + k) ∧
        (bit (s.rd (K.transport (64 * n.val + k))) 0 = true → Reset t (64 * n.val + k)) ∧
        (bit (s.rd (K.transport (64 * n.val + k))) 0 = false → t.slot (64 * n.val + k) = bare (64 * n.val + k) ∧
          t.rd (K.slotState (64 * n.val + k)) = s.rd (K.slotState (64 * n.val + k)))
      let Others := fun (t : State) => (∀ m, m / 64 ≠ n.val → t.slot m = s.slot m) ∧ t.winTab = s.winTab ∧ t.seqs = s.seqs ∧
        t.reqs = s.reqs
      (∃ t, exec (.functionLevelReset slot) s = .next t ∧
        t = { s with fns := t.fns, swin := t.swin, slots := t.slots, sessions := t.sessions, dict := t.dict } ∧
        Cleared t slot.val ∧ Reset t slot.val ∧
        (∀ m, m ≠ slot.val → t.slot m = s.slot m) ∧ (∀ g, g ≠ vfOf slot.val → t.fn g = s.fn g) ∧
        ∀ key, key ≠ K.slotState slot.val → key ≠ K.slotCmdResult slot.val → t.rd key = s.rd key) ∧
      (∃ t, exec (.vfEnableClear n) s = .next t ∧ t.fn (pfOf n.val) = { s.fn (pfOf n.val) with vfEnable := false } ∧
        Vfs t ∧ Others t ∧ t.cores = s.cores ∧ t.hbm = s.hbm ∧ t.insts = s.insts) ∧
      (∃ t, exec (.perst n) s = .next t ∧ (t.port n.val).perst = true ∧ t.rd (K.pcieRate n.val) = 0 ∧
        t.fn (pfOf n.val) = {} ∧ Others t ∧ (∀ p, p ≠ n.val → t.port p = s.port p) ∧
        t.ses (24 + n.val) = { s.ses (24 + n.val) with busy := false, ready := false, request := none, response := [] } ∧
        ((∀ i p, p ∈ (s.inst i).panels → p < 12) → Vfs t)) ∧
      (let g := 65 * n.val + f.val
       let Sends := fun (t : State) (y : Fn) => t = { s with fns := t.fns, sent := t.sent } ∧
         (∀ h, h ≠ g → t.fn h = s.fn h) ∧ t.fn g = { y with pba := (t.fn g).pba } ∧
         ∀ w, w < 16 →
           let goes := y.msixEn && y.bme && y.pba.getLsbD w && y.unmasked.getLsbD w
           (t.fn g).pba.getLsbD w = (y.pba.getLsbD w && !goes) ∧ (goes = true → (g, w) ∈ t.sent)
       (∃ t, exec (.busMasterEnableSet n f) s = .next t ∧ Sends t { s.fn g with bme := true }) ∧
       (∃ t y, exec (.msixUnmask n f ⟨v, addr, data⟩) s = .next t ∧ Sends t y ∧
         y = { s.fn g with unmasked := y.unmasked, msix := y.msix } ∧
         (∀ w, w < 16 → y.unmasked.getLsbD w = (decide (w = v.val) || (s.fn g).unmasked.getLsbD w)) ∧
         mapGet (fun _ => 0) y.msix v.val = addr.toNat + 2 ^ 64 * data.toNat ∧
         ∀ w, w ≠ v.val → mapGet (fun _ => 0) y.msix w = mapGet (fun _ => 0) (s.fn g).msix w))) ∧
   (∀ (s : State) (n : PortId) (e : Fin 128) (word : Fin 4) (slot : SlotId) (k : Fin 8) (v : Word64),
      let w := 128 * n.val + e.val
      let x := s.window w
      let KeepsTab := fun (t : State) (m : Nat) => t = { s with winTab := t.winTab } ∧
        ∀ u j, j < 4 → ¬(u = w ∧ j = m) → t.winWord u j = s.winWord u j
      (x.valid = false → ∃ t, exec (.windowTableWrite n e 0 v) s = .next t ∧ KeepsTab t 0 ∧ (t.window w).base = v.toNat) ∧
      (x.valid = false → ∃ t, exec (.windowTableWrite n e 1 v) s = .next t ∧ KeepsTab t 1 ∧
        (t.window w).size = bits v.toNat 47 0) ∧
      (x.valid = false → bit v.toNat 15 = true → (s.putWin w 2 (bits v.toNat 12 0)).windowOkToSet w = true →
        ∃ t, exec (.windowTableWrite n e 2 v) s = .next t ∧ KeepsTab t 2 ∧
          t.window w = ⟨x.base, x.size, bits v.toNat 9 0, bits v.toNat 12 10, true⟩) ∧
      (x.valid = false → bit v.toNat 15 = true → (s.putWin w 2 (bits v.toNat 12 0)).windowOkToSet w = false →
        ∃ t, exec (.windowTableWrite n e 2 v) s = .next t ∧ (t.window w).valid = false ∧
          t = { s with winTab := t.winTab, dict := t.dict } ∧
          t.rd (K.hostErrors n.val) = (s.rd (K.hostErrors n.val) + 1) % 2 ^ 64 ∧
          ∀ j, j ≠ K.hostErrors n.val → t.rd j = s.rd j) ∧
      (x.valid = false → exec (.windowTableWrite n e 3 v) s = .next s) ∧
      (x.valid = false → bit v.toNat 15 = false → ∃ t, exec (.windowTableWrite n e 2 v) s = .next t ∧ KeepsTab t 2 ∧
        t.window w = ⟨x.base, x.size, bits v.toNat 9 0, bits v.toNat 12 10, false⟩) ∧
      (x.valid = true → (word.val ≠ 2 ∨ bit v.toNat 15 = true) → exec (.windowTableWrite n e word v) s = .next s) ∧
      (x.valid = true → bit v.toNat 15 = false → s.windowInUse w = false →
        ∃ t, exec (.windowTableWrite n e 2 v) s = .next t ∧ KeepsTab t 2 ∧ t.window w = { x with valid := false }) ∧
      (x.valid = true → bit v.toNat 15 = false → s.windowInUse w = true →
        ∃ t, exec (.windowTableWrite n e 2 v) s = .next t ∧ s.OnlyEntries t [K.hostErrors n.val] ∧
          t.rd (K.hostErrors n.val) = (s.rd (K.hostErrors n.val) + 1) % 2 ^ 64) ∧
      (bit (s.swinReg slot.val k.val false) 0 = false →
        (∃ t, exec (.swinWrite slot k true v) s = .next t ∧ t = { s with swin := t.swin } ∧
          t.swinReg slot.val k.val true = bits v.toNat 47 0 ∧ t.swinReg slot.val k.val false = s.swinReg slot.val k.val false) ∧
        (bit v.toNat 0 = true → 0 < bits (s.swinReg slot.val k.val true) 47 0 →
          bits (s.swinReg slot.val k.val true) 47 0 % 4096 = 0 →
          ∃ t, exec (.swinWrite slot k false v) s = .next t ∧ t = { s with swin := t.swin } ∧
            t.swinReg slot.val k.val false = 4096 * bits v.toNat 63 12 + 1 ∧
            t.swinReg slot.val k.val true = s.swinReg slot.val k.val true) ∧
        (bit v.toNat 0 = false → ∃ t, exec (.swinWrite slot k false v) s = .next t ∧ t = { s with swin := t.swin } ∧
          t.swinReg slot.val k.val false = 4096 * bits v.toNat 63 12 ∧
          t.swinReg slot.val k.val true = s.swinReg slot.val k.val true) ∧
        (bit v.toNat 0 = true → (bits (s.swinReg slot.val k.val true) 47 0 = 0 ∨
            bits (s.swinReg slot.val k.val true) 47 0 % 4096 ≠ 0) →
          ∃ t, exec (.swinWrite slot k false v) s = .next t ∧ bit (t.swinReg slot.val k.val false) 0 = false ∧
            t.rd (K.hostErrors (slot.val / 64)) = (s.rd (K.hostErrors (slot.val / 64)) + 1) % 2 ^ 64)) ∧
      (bit (s.swinReg slot.val k.val false) 0 = true →
        exec (.swinWrite slot k true v) s = .next s ∧
        (bit v.toNat 0 = true → exec (.swinWrite slot k false v) s = .next s) ∧
        (bit v.toNat 0 = false → ∃ t, exec (.swinWrite slot k false v) s = .next t ∧ t = { s with swin := t.swin } ∧
          t.swinReg slot.val k.val false = s.swinReg slot.val k.val false - 1)))

/-! ## Links -/

/-- Links. A PCIe port out of PERST trains at the lower of the two rates, if that is 16.0 GT/s or more, and a common
width; it takes REFCLK within 300 ppm and its own oscillator otherwise; a port in PERST stays down, and a report of
training changes nothing on a link that is up. A link that goes down reads 0, is counted and raises its message, which
goes or is held; a link that is down stays so.
Ethernet links follow the line, and a link that is up counts the frames it drops. An assigned endpoint id is taken.
A seam trains, names its peer unless it has failed, takes a transfer in sequence, sends on one for another member, and
discards a bad one: it counts it and asks for a replay, or gives up (it is failed and holds nothing, and this is logged), as the replays and discards so far say.
Rests on the readings of log entries 35, 55 and 63. -/
def Obligations.LinksFollowTheirTraining : Prop :=
  ∀ (s : State) (n : PortId) (ppm : Option Int) (rate width : Nat) (e : EthId) (up : Bool) (sm : SeamId) (serial : Nat)
    (peer : Fin 16) (tr : SeamTransfer) (eid : Byte),
    let r := min rate (s.rd (K.pcieMaxRate n.val))
    let Trained := fun (t : State) (perst : Bool) =>
      t.rd (K.pcieRate n.val) = (if 4 ≤ r ∧ 1 ≤ width ∧ perst = false then r else 0) ∧
      t.rd (K.pcieWidth n.val) = (if 4 ≤ r ∧ 1 ≤ width ∧ perst = false then trainWidth width else 0)
    let Clocked := fun (t : State) =>
      ((t.port n.val).sris = false ↔ ∃ x, ppm = some x ∧ -300 ≤ x ∧ x ≤ 300)
    let speed := [K.pcieRate n.val, K.pcieWidth n.val]
    let pf := s.fn (pfOf n.val)
    let Down := fun (i : Instr) => ∃ t, exec i s = .next t ∧ t.rd (K.pcieRate n.val) = 0 ∧ t.rd (K.pcieWidth n.val) = 0 ∧
      t.rd (K.linkDowns n.val) = (s.rd (K.linkDowns n.val) + 1) % 2 ^ 32 ∧
      (if pf.msixEn = true ∧ pf.bme = true ∧ pf.unmasked.getLsbD 3 = true then t.sent.head? = some (pfOf n.val, 3)
       else pf.msixEn = true → (t.fn (pfOf n.val)).pba.getLsbD 3 = true) ∧
      ((∀ c ch d, (s.core c).dmaHead ch = some d → d.onPort n.val = false) → (∀ i, i < 12 → (s.inst i).load = none) →
        t = { s with dict := t.dict, fns := t.fns, sent := t.sent } ∧ (∀ f, f ≠ pfOf n.val → t.fn f = s.fn f) ∧
        ∀ j, j ∉ K.linkDowns n.val :: speed → t.rd j = s.rd j)
    let sk := K.seamState sm.val
    let k := (tr.ack.toNat + 4096 - (s.seam sm.val).base) % 4096
    let heard : Seam := if tr.headerCrcOk = true ∧ 0 < k ∧ k ≤ (s.seam sm.val).tx.length then
      { s.seam sm.val with tx := (s.seam sm.val).tx.drop k, base := tr.ack.toNat, resent := 0 } else s.seam sm.val
    let x : Seam := if tr.headerCrcOk = true ∧ tr.replay = true then { heard with resent := heard.resent + 1 } else heard
    let fault := seamFault tr x.expect
    let taken : Seam := { x with expect := (x.expect + 1) % 4096, replays := 0, askReplay := false }
    let old := x.winStart + 1000000 ≤ s.uptime
    let discards := if old then 1 else x.discards + 1
    let counter := if fault = 1 then K.seamLone sm.val else K.seamReplays sm.val
    let fwd : SeamMsg := { type := tr.type, src := tr.src, dst := tr.dst, hops := tr.hops + 1, tag := tr.tag.toNat,
                           taint := tr.taint, payload := tr.payload }
    let GaveUp := fun (t : State) => t.rd sk = 3 ∧ t.Logged 0x3003 1 ∧ t.seam sm.val = {} ∧
      t.casc = { s.casc with stale := true } ∧ ∀ m, m ≠ sm.val → t.seam m = s.seam m
    (∃ t, exec (.perstRelease n ppm rate width) s = .next t ∧ t = { s with dict := t.dict, ports := t.ports } ∧
      Trained t false ∧ Clocked t ∧ (t.port n.val).perst = false ∧ (∀ p, p ≠ n.val → t.port p = s.port p) ∧
      ∀ j, j ∉ speed → t.rd j = s.rd j) ∧
    (∃ t, exec (.pcieRetrain n ppm rate width) s = .next t ∧ Clocked t ∧
      ((∀ w, 2 ^ 37 ≤ w → mapGet (fun _ => 0) s.hbmErr w = 0) → Trained t (s.port n.val).perst) ∧
      (t.port n.val).perst = (s.port n.val).perst ∧ (∀ p, p ≠ n.val → t.port p = s.port p) ∧
      (s.rd (K.pcieRate n.val) = 0 → t = { s with dict := t.dict, ports := t.ports } ∧ Trained t (s.port n.val).perst ∧
        ∀ j, j ∉ speed → t.rd j = s.rd j)) ∧
    (s.rd (K.pcieRate n.val) = 0 →
      (∃ t, exec (.pcieLinkUp n rate width) s = .next t ∧ s.OnlyEntries t speed ∧ Trained t (s.port n.val).perst) ∧
      exec (.pcieLinkDown n) s = .next s ∧ exec (.refclkLoss n) s = .next s) ∧
    (s.rd (K.pcieRate n.val) ≠ 0 → exec (.pcieLinkUp n rate width) s = .next s ∧ Down (.pcieLinkDown n) ∧
      ((s.port n.val).sris = false → Down (.refclkLoss n))) ∧
    ((s.port n.val).sris = true → exec (.refclkLoss n) s = .next s) ∧
    (∃ t, exec (.ethLinkChange e up) s = .next t ∧ s.OnlyEntries t [K.ethLink e.val] ∧
      t.rd (K.ethLink e.val) = (if up then 1 else 0)) ∧
    (∃ t, exec (.ethRetrain e up) s = .next t ∧ s.OnlyEntries t [K.ethLink e.val] ∧
      t.rd (K.ethLink e.val) = (if up then 1 else 0)) ∧
    (s.rd (K.ethLink e.val) = 1 → ∃ t, exec (.ethFrameDiscard e) s = .next t ∧ s.OnlyEntries t [K.framesDropped e.val] ∧
      t.rd (K.framesDropped e.val) = (s.rd (K.framesDropped e.val) + 1) % 2 ^ 64) ∧
    (s.rd (K.ethLink e.val) ≠ 1 → exec (.ethFrameDiscard e) s = .next s) ∧
    (∃ t, exec (.endpointIdAssigned eid) s = .next t ∧ s.OnlyEntries t [K.mctpEid] ∧ t.rd K.mctpEid = eid.toNat) ∧
    (∃ t, exec (.seamRetrain sm) s = .next t ∧ t = { s with dict := t.dict, seams := t.seams, casc := t.casc } ∧
      t.rd sk = 1 ∧ (∀ j, j ≠ sk → t.rd j = s.rd j) ∧
      t.seam sm.val = { tx := (s.seam sm.val).tx } ∧ t.casc = { s.casc with stale := true } ∧
      ∀ m, m ≠ sm.val → t.seam m = s.seam m) ∧
    (s.rd sk ≠ 3 → ∃ t, exec (.seamLinkUp sm serial peer) s = .next t ∧
      t = { s with dict := t.dict, casc := { s.casc with stale := true } } ∧ t.rd sk = 2 ∧
      t.rd (K.seamPeer sm.val) = serial ∧ t.rd (K.seamPeerSeam sm.val) = peer.val ∧
      ∀ j, j ∉ [sk, K.seamPeer sm.val, K.seamPeerSeam sm.val] → t.rd j = s.rd j) ∧
    (s.rd sk = 3 → exec (.seamLinkUp sm serial peer) s = .next s) ∧
    (s.rd sk ≠ 2 → exec (.seamTransferReceive sm tr) s = .next s) ∧
    (s.rd sk = 2 → tr.headerCrcOk = true → tr.replay = true → heard.resent = 4 →
      ∃ t, exec (.seamTransferReceive sm tr) s = .next t ∧ GaveUp t) ∧
    (s.rd sk = 2 → ¬(tr.headerCrcOk = true ∧ tr.replay = true ∧ heard.resent = 4) →
      (fault = 0 → ∃ t, exec (.seamTransferReceive sm tr) s = .next t ∧ t = { s with seams := t.seams } ∧
        (t.seam sm.val).expect = taken.expect ∧ (t.seam sm.val).replays = 0 ∧ (t.seam sm.val).askReplay = false ∧
        (tr.dst = s.me ∨ tr.type = 0x20 ∨ tr.type = 0x22 →
          t.seam sm.val = taken ∧ ∀ m, m ≠ sm.val → t.seam m = s.seam m) ∧
        (tr.dst ≠ s.me → tr.dst ≠ 0xFF → tr.type ≠ 0x20 → tr.type ≠ 0x22 →
          ∀ m o, s.nextMember tr.dst = some m → s.seamFor m = some o →
            (o = sm.val → t.seam o = { taken with tx := taken.tx ++ [fwd] }) ∧
            (o ≠ sm.val → t.seam sm.val = taken ∧ t.seam o = { s.seam o with tx := (s.seam o).tx ++ [fwd] }) ∧
            ∀ j, j ≠ sm.val → j ≠ o → t.seam j = s.seam j)) ∧
      (fault ≠ 0 → x.replays ≠ 4 → discards ≤ 4096 →
        ∃ t, exec (.seamTransferReceive sm tr) s = .next t ∧ t = { s with dict := t.dict, seams := t.seams } ∧
          t.seam sm.val = { x with winStart := if old then s.uptime else x.winStart, discards := discards,
                                   replays := x.replays + 1, askReplay := true } ∧
          (∀ m, m ≠ sm.val → t.seam m = s.seam m) ∧
          t.rd counter = (s.rd counter + 1) % 2 ^ 64 ∧ ∀ j, j ≠ counter → t.rd j = s.rd j) ∧
      (fault ≠ 0 → x.replays = 4 ∨ 4096 < discards →
        ∃ t, exec (.seamTransferReceive sm tr) s = .next t ∧ GaveUp t ∧ t.rd counter = (s.rd counter + 1) % 2 ^ 64))

/-! ## Answers -/

/-- The requests that are answered and change nothing else: address resolution, echo and neighbour discovery on a port that
is up, for the port's own address and for no other; the SPDM exchanges, an error response for a certificate slot other
than 0 and for a measurement block that does not exist, and a signature over a measurement that comes with a nonce; the
TAP, which loads BYPASS for an instruction that needs test enable and has none; and debug access, which under test
enable reads, fences, paces, starts or stops a core and changes nothing else.
The bytes of the replies, of a debug read and of SPDM are the model's choice (log entries 35, 36, 37). -/
def Obligations.RequestsFromOutsideAreAnswered : Prop :=
  ∀ (s : State) (e : EthId) (ip : BitVec 32) (v6 v4 payload nonce : List Byte) (n : PortId) (slot a b : Nat)
    (asym hash : List Nat) (bd : List Bool) (c : CoreId),
    let Sends := fun (i : Instr) (chan : Nat) (bs : List Byte) => exec i s = .next { s with tx := (chan, bs) :: s.tx }
    let Spdm := fun (i : Instr) (code : Nat) (bs : List Byte) => Sends i (chanSpdm n.val) (leBytes 1 code ++ bs)
    let Refused := fun (i : Instr) => Spdm i 0x7F (leBytes 1 1)
    let up := s.rd (K.ethLink e.val) = 1
    let chain := s.blob K.idCertChain
    let answer := Config.sha384 chain ++ nonce
    let Loads := fun (i : Instr) (ir : TapIr) => exec i s = .next { s with tap := { s.tap with ir := ir } }
    let test := fun (ir : TapIr) => if s.rd K.testEnable = 1 then ir else .bypass
    let Debugs := fun (op : DebugOp) (k : Core) =>
      ∃ t, exec (.debugAccess c op) s = .next t ∧ s.OnlyCore t c ∧ t.core c.val = k
    let k := s.core c.val
    let block := fun (x : Nat) => leBytes 1 x ++ (s.measurement x).getD []
    let Measures := fun (x : Nat) (bs : List Byte) => Spdm (.getMeasurements n x nonce) 0x60
      (if nonce = [] then bs else bs ++ nonce ++ Config.identitySign (bs ++ nonce))
    (up ∧ s.ethV4 e.val = some ip.toNat →
      Sends (.arp e ip) (chanEth e.val) (s.ethMacBytes e.val ++ netBytes 4 ip.toNat)) ∧
    (¬(up ∧ s.ethV4 e.val = some ip.toNat) → exec (.arp e ip) s = .next s) ∧
    (up ∧ s.ethV6 e.val = some v6 →
      Sends (.neighborDiscovery e v6) (chanEth e.val) (s.ethMacBytes e.val ++ v6) ∧
      Sends (.echo e true v6 payload) (chanEth e.val) payload) ∧
    (¬(up ∧ s.ethV6 e.val = some v6) →
      exec (.neighborDiscovery e v6) s = .next s ∧ exec (.echo e true v6 payload) s = .next s) ∧
    (up ∧ s.ethV4 e.val = some (netNat v4) ∧ v4.length = 4 → Sends (.echo e false v4 payload) (chanEth e.val) payload) ∧
    (¬(up ∧ s.ethV4 e.val = some (netNat v4) ∧ v4.length = 4) → exec (.echo e false v4 payload) s = .next s) ∧
    Spdm (.getVersion n) 0x04 (leBytes 1 0x13) ∧
    Spdm (.getCapabilities n) 0x61 [] ∧
    Spdm (.negotiateAlgorithms n asym hash) 0x63
      (leBytes 4 (if 0x80 ∈ asym then 0x80 else 0) ++ leBytes 4 (if 2 ∈ hash then 2 else 0)) ∧
    Spdm (.getDigests n) 0x01 (Config.sha384 chain) ∧
    (slot = 0 → Spdm (.getCertificate n slot a b) 0x02 ((chain.drop a).take b) ∧
      Spdm (.challenge n slot nonce) 0x03 (answer ++ Config.identitySign answer)) ∧
    (slot ≠ 0 → Refused (.getCertificate n slot a b) ∧ Refused (.challenge n slot nonce)) ∧
    Measures 0 (leBytes 1 17) ∧
    Measures 0xFF (([1, 2, 3, 4, 5] ++ (List.range 12).map fun i => 16 + i).flatMap block) ∧
    ((1 ≤ a ∧ a ≤ 5) ∨ (16 ≤ a ∧ a < 28) → (∃ m, s.measurement a = some m) ∧ Measures a (block a)) ∧
    (a ≠ 0 → a ≠ 0xFF → ¬((1 ≤ a ∧ a ≤ 5) ∨ (16 ≤ a ∧ a < 28)) → Refused (.getMeasurements n a nonce)) ∧
    Loads .bypass .bypass ∧ Loads .sample .sample ∧ Loads .trst .idcode ∧ Loads .extest (test .extest) ∧
    Loads .extestPulse (test .extestPulse) ∧ Loads .extestTrain (test .extestTrain) ∧ Loads .clamp (test .clamp) ∧
    exec .idcode s = .next { s with tap := { s.tap with ir := .idcode }, tx := (chanTap, leBytes 4 (s.rd K.idcode)) :: s.tx } ∧
    exec (.preload bd) s = .next { s with tap := { ir := .preload, boundary := bd } } ∧
    (s.rd K.testEnable ≠ 1 → ∀ op, Loads (.debugAccess c op) .bypass) ∧
    (s.rd K.testEnable = 1 →
      Sends (.debugAccess c .read) chanTap k.debugBytes ∧
      Debugs .fence { k with fenced := true } ∧ Debugs .pace { k with pace := true } ∧
      Debugs .start (if k.run = .idle ∨ k.run = .stopped then { k with run := .running } else k) ∧
      Debugs .stop (if k.run = .running then { k with run := .stopped } else k))

/-! ## Zwiys -/

/-- Zwiys requests. A session that carries none ignores one; a basted
write, a commit and a discard are the writes they stand for, and nothing on other entries; a repeat of a kept request gets the kept response, a malformed
request status 0x07, an entry that the session does not see 0x01, one whose role is not listed 0x02. A read is answered
with the value, a BLOB's with the block at the offset. A write of an entry that may not be written or staged, at a bad
offset, or of a bad shape is answered with its status and does nothing else; a good write of a whole value, and a block of
a block-addressed entry, is carried out and answered, `cpl_timeout` among them; a block of another BLOB is collected.
A basted write is staged, or refused with its status; a commit waits for the tack of an instance, or is carried out at
once for a device's set and for an instance in state 0; a discard empties the set.
Rests on the readings of log entries 42 and 44. -/
def Obligations.ZwiysRequestsReadStageAndWrite : Prop :=
  ∀ (s : State) (ses : SessId) (m : ZMsg) (r : DictRow),
    let key := m.index * 256 + m.sub
    let n := sesNo ses
    let x := s.ses n
    let c := r.ty.code
    let Answers := fun (i : Instr) (a : ZAns) => exec i s = .next (s.respond ses m (responseBytes m a))
    let Acts := fun (i : Instr) (p : State × Nat) =>
      exec i s = .next (p.1.respond ses m (responseBytes m { status := p.2, type := c }))
    let baste := bit m.flags.toNat 0
    let fromTack := x.baste.any fun e => (List.range 12).any fun i => e.1 == K.recipeSelect i && s.recipeShared i
    m.sub < 256 →
    (if baste = true then exec (.write ses m) s = exec (.baste ses m) s else exec (.baste ses m) s = .next s) ∧
    (if key = K.commit then exec (.write ses m) s = exec (.commit ses m) s else exec (.commit ses m) s = .next s) ∧
    (if key = K.discard then exec (.write ses m) s = exec (.discard ses m) s else exec (.discard ses m) s = .next s) ∧
    (∀ i, i ∈ [Instr.read ses m, .write ses m, .baste ses m, .commit ses m, .discard ses m] →
      (i = .baste ses m → baste = true) → (i = .commit ses m → key = K.commit) → (i = .discard ses m → key = K.discard) →
      (s.carries ses = false → exec i s = .next s) ∧
      (s.carries ses = true →
        (∀ b, s.keptFor ses m = some b → exec i s = .next { s with tx := (chanSes ses, b) :: s.tx }) ∧
        (s.keptFor ses m = none →
          let bad := malformed m (if i = .read ses m then 1 else 2)
          (bad = true → Answers i { status := 7 }) ∧
          (bad = false → s.entryFor ses m = none → Answers i { status := 1 }) ∧
          (bad = false → s.entryFor ses m = some r → r.roles.contains (sesRole ses) = false →
            Answers i { status := 2, type := c })))) ∧
    (s.carries ses = true → s.keptFor ses m = none → s.entryFor ses m = some r → r.roles.contains (sesRole ses) = true →
      (malformed m 1 = false →
        (r.acc = .wo → Answers (.read ses m) { status := 2, type := c }) ∧
        (r.acc ≠ .wo → r.ty ≠ .blob → m.offset ≠ 0 → Answers (.read ses m) { status := 7, type := c }) ∧
        (r.acc ≠ .wo → (r.ty ≠ .blob → m.offset = 0) →
          (key = K.logData → Answers (.read ses m)
            { status := 0, type := c, total := 2 ^ 32, payload := s.logData m.offset (min m.length (2 ^ 32 - m.offset)) }) ∧
          (key ≠ K.logData →
            let q := if key = K.dbgChallenge then s.newNonce
              else (if m.index / 16 = 0xA10 ∧ m.sub = 3 then s.freeStep else s, s.valueFor ses r key)
            exec (.read ses m) s = .next (q.1.respond ses m (responseBytes m
              { status := 0, type := c, total := if r.ty.bytes then q.2.length else 0,
                payload := if r.ty = .blob then (q.2.drop m.offset).take m.length else q.2 }))))) ∧
      (malformed m 2 = false →
        (baste = true → sesRole ses = .T ∨ r.acc ≠ .rw ∨ blockAddressed key = true →
          Answers (.write ses m) { status := 9, type := c } ∧ Answers (.baste ses m) { status := 9, type := c }) ∧
        (baste = false →
          (r.acc = .ro ∨ r.acc = .const → Answers (.write ses m) { status := 3, type := c }) ∧
          (r.acc = .rw ∨ r.acc = .wo →
            (r.ty ≠ .blob → m.offset ≠ 0 → Answers (.write ses m) { status := 7, type := c }) ∧
            (r.ty ≠ .blob → m.offset = 0 → r.shape m.payload ≠ 0 →
              Answers (.write ses m) { status := r.shape m.payload, type := c }) ∧
            (r.ty ≠ .blob → m.offset = 0 → r.shape m.payload = 0 → key ≠ K.commit → key ≠ K.discard →
              let p := s.applyWrite (sesRole ses) key m.payload
              let t := p.1.respond ses m (responseBytes m { status := p.2, type := c })
              exec (.write ses m) s = .next (if p.2 = 0 then t.afterWrite key (leNat m.payload) else t)) ∧
            (r.ty = .blob → r.max < m.offset + m.payload.length → Answers (.write ses m) { status := 0xD, type := c }) ∧
            (r.ty = .blob → m.offset + m.payload.length ≤ r.max →
              (blockAddressed key = true → Acts (.write ses m) (s.blockWrite key m.offset m.payload)) ∧
              (blockAddressed key = false →
                (∀ k b, x.blob = some (k, b) → k ≠ key → Answers (.write ses m) { status := 0xD, type := c }) ∧
                (∀ o, x.blob = some (key, o) ∨ (x.blob = none ∧ o = []) →
                  let b := if m.payload = [] then o
                    else slice o 0 m.offset ++ m.payload ++ o.drop (m.offset + m.payload.length)
                  (bit m.flags.toNat 1 = false →
                    Acts (.write ses m) (s.setSes n { x with blob := some (key, b) }, 0)) ∧
                  (bit m.flags.toNat 1 = true →
                    Acts (.write ses m) ((s.setSes n { x with blob := none }).wholeWrite ses r key false b))))))) ∧
        (baste = true → r.acc = .rw → blockAddressed key = false → sesRole ses ≠ .T → r.ty = .blob →
          m.offset + m.payload.length ≤ r.max → Acts (.baste ses m) (s.blobBlock ses r m)) ∧
        (baste = true → r.acc = .rw → blockAddressed key = false → sesRole ses ≠ .T → r.ty ≠ .blob →
          let st := s.entryRule key (leNat m.payload) m.payload
          let rest := x.baste.filter fun e => e.1 != key
          let held := x.baste.any fun e => e.1 == key
          let full := (held = false ∧ 256 ≤ x.baste.length) ∨ 65536 < (rest.map fun e => e.2.length).sum + m.payload.length
          let recipe := ∃ i, i < 12 ∧ key = K.recipeSelect i
          (m.offset ≠ 0 → Answers (.baste ses m) { status := 7, type := c }) ∧
          (m.offset = 0 → r.shape m.payload ≠ 0 → Answers (.baste ses m) { status := r.shape m.payload, type := c }) ∧
          (m.offset = 0 → r.shape m.payload = 0 →
            (st = 4 ∨ st = 6 ∨ (recipe ∧ st ≠ 0) → Answers (.baste ses m) { status := st, type := c }) ∧
            (¬(st = 4 ∨ st = 6 ∨ (recipe ∧ st ≠ 0)) →
              (x.baste ≠ [] → x.scope ≠ s.scopeOf m.index → Answers (.baste ses m) { status := 0xB, type := c }) ∧
              (x.baste = [] ∨ x.scope = s.scopeOf m.index →
                (full → Answers (.baste ses m) { status := 0xA, type := c }) ∧
                (¬full → Acts (.baste ses m) (s.setSes n { x with
                  scope := s.scopeOf m.index
                  baste := if held then x.baste.map fun e => if e.1 = key then (key, m.payload) else e
                    else x.baste ++ [(key, m.payload)] }, 0)))))) ∧
        (baste = false → m.offset = 0 → m.payload = [1] →
          (key = K.commit →
            (x.commitState = 2 → Answers (.commit ses m) { status := 0xC, type := c }) ∧
            (x.commitState ≠ 2 → x.baste = [] → Answers (.commit ses m) { status := 0, type := c }) ∧
            (x.commitState ≠ 2 → x.baste ≠ [] → fromTack = true → sesRole ses ≠ .C →
              Answers (.commit ses m) { status := 0xE, type := c }) ∧
            (x.commitState ≠ 2 → x.baste ≠ [] → fromTack = false ∨ sesRole ses = .C →
              let s' := s.setSes n { x.dropBaste with commitState := 2 }
              (x.scope = 0xFF → Acts (.commit ses m) (s'.commitDevice ses x.baste, 0)) ∧
              (x.scope ≠ 0xFF → s.rd (K.instState x.scope) = 0 → Acts (.commit ses m) (s'.commitAt x.scope ses x.baste, 0)) ∧
              (x.scope ≠ 0xFF → s.rd (K.instState x.scope) ≠ 0 →
                Acts (.commit ses m) (s'.change x.scope (.commit ses x.baste), 0)))) ∧
          (key = K.discard →
            (x.commitState = 2 → Answers (.discard ses m) { status := 0xC, type := c }) ∧
            (x.commitState ≠ 2 → Acts (.discard ses m) (s.setSes n x.dropBaste, 0)))))) ∧
    (∀ p v, ses = .mctp p → 16000 ≤ v → v ≤ 500000 → malformed m 2 = false → m.flags = 0 → m.offset = 0 →
      0xA060 ≤ m.index → m.index < 0xA068 → m.sub = 4 → m.payload = leBytes 4 v →
      ∃ t, exec (.write ses m) s = .next t ∧ t = { s with dict := t.dict, tx := t.tx } ∧
        t.rd (K.cplTimeout (m.index - 0xA060)) = v ∧ ∀ k, k ≠ K.cplTimeout (m.index - 0xA060) → t.rd k = s.rd k)

/-- What may be basted (R404): of the entries that the session may write, a baste of one that is not RW, of a
block-addressed one, or from a tenant's session is refused with status 0x09 and does nothing else. An RW number whose
value has the wrong length or range is refused with the status that a direct write of it has. -/
def Obligations.BasteRefusesWhatMayNotBeBasted : Prop :=
  ∀ (s : State) (ses : SessId) (m : ZMsg) (r : DictRow),
    let key := m.index * 256 + m.sub
    s.carries ses = true → s.keptFor ses m = none → malformed m 2 = false → bit m.flags.toNat 0 = true →
    s.entryFor ses m = some r → r.roles.contains (sesRole ses) = true →
    ((r.acc ≠ .rw ∨ blockAddressed key = true ∨ sesRole ses = .T) →
      exec (.baste ses m) s = .next (s.respond ses m (responseBytes m { status := 9, type := r.ty.code })) ∧
      exec (.write ses m) s = .next (s.respond ses m (responseBytes m { status := 9, type := r.ty.code }))) ∧
    (r.acc = .rw → blockAddressed key = false → sesRole ses ≠ .T → r.ty.bytes = false → m.offset = 0 →
      r.shape m.payload ≠ 0 →
      exec (.baste ses m) s = .next (s.respond ses m (responseBytes m { status := r.shape m.payload, type := r.ty.code })))

/-- Zwiys sessions: the timers that empty a baste set and a blob buffer; subscribing and unsubscribing, with the status of
every refusal and with the kept responses and malformed requests as for any request; notifications, which are sent,
counted as lost with the queue full, or left out where nothing changed; the expiry of kept responses; the mailbox
doorbell, taken with the value 1 while the mailbox is free and counted as ignored while it is busy; and the opening,
refusing and ending of DTLS sessions.
Rests on the readings of log entries 43 and 44. -/
def Obligations.ZwiysSessionsAndSubscriptions : Prop :=
  ∀ (s : State) (ses : SessId) (m : ZMsg) (r : DictRow) (client : List Byte) (id : Nat) (seg : Fin 2) (d : Fin 16)
    (v : Word64) (full : Bool),
    let n := sesNo ses
    let x := s.ses n
    let key := m.index * 256 + m.sub
    let c := r.ty.code
    let OnlySes := fun (t : State) (k : Nat) => t = { s with sessions := t.sessions } ∧ ∀ j, j ≠ k → t.ses j = s.ses j
    let Answers := fun (i : Instr) (a : ZAns) => exec i s = .next (s.respond ses m (responseBytes m a))
    (∃ t, exec (.basteTimeout ses) s = .next t ∧ OnlySes t n ∧ t.ses n = { x with baste := [], scope := 0xFE }) ∧
    (∃ t, exec (.blobBufferTimeout ses) s = .next t ∧ OnlySes t n ∧ t.ses n = { x with blob := none }) ∧
    (∀ i, i ∈ [Instr.subscribe ses m, .unsubscribe ses m] →
      (s.carries ses = false → exec i s = .next s) ∧
      (s.carries ses = true → ∀ b, s.keptFor ses m = some b → exec i s = .next { s with tx := (chanSes ses, b) :: s.tx })) ∧
    (s.carries ses = true → s.keptFor ses m = none →
      (malformed m 3 = true → Answers (.subscribe ses m) { status := 7 }) ∧
      (malformed m 4 = true → Answers (.unsubscribe ses m) { status := 7 }) ∧
      (malformed m 3 = false →
        (isMailbox ses = true → Answers (.subscribe ses m) { status := 0xF }) ∧
        (isMailbox ses = false → s.entryFor ses m = none → Answers (.subscribe ses m) { status := 1 }) ∧
        (isMailbox ses = false → s.entryFor ses m = some r →
          (r.roles.contains (sesRole ses) = false ∨ r.acc = .wo → Answers (.subscribe ses m) { status := 2, type := c }) ∧
          (r.roles.contains (sesRole ses) = true → r.acc ≠ .wo →
            (60000 < m.total → Answers (.subscribe ses m) { status := 4, type := c }) ∧
            (m.total ≤ 60000 → 64 ≤ x.subs.length → Answers (.subscribe ses m) { status := 0xF, type := c }) ∧
            (m.total ≤ 60000 → x.subs.length < 64 → exec (.subscribe ses m) s = .next
              ((s.setSes n { x with subs := x.subs ++
                [⟨m.requestId.toNat, m.index, m.sub, m.total, 0, s.valueFor ses r key⟩] }).respond ses m
                (responseBytes m { status := 0, type := c })))))) ∧
      (malformed m 4 = false →
        (isMailbox ses = true ∨ (∀ y ∈ x.subs, y.number ≠ m.requestId.toNat) →
          Answers (.unsubscribe ses m) { status := 0xF }) ∧
        (isMailbox ses = false → (∃ y ∈ x.subs, y.number = m.requestId.toNat) →
          exec (.unsubscribe ses m) s = .next
            ((s.setSes n { x with subs := x.subs.filter (fun y => y.number != m.requestId.toNat) }).respond ses m
              (responseBytes m { status := 0 }))))) ∧
    (x.subs.find? (fun y => y.number == id) = none → exec (.notify ses id full) s = .next s) ∧
    (∀ y, x.subs.find? (fun y => y.number == id) = some y → dictRow y.index y.sub = none →
      exec (.notify ses id full) s = .next s) ∧
    (∀ y, x.subs.find? (fun y => y.number == id) = some y → dictRow y.index y.sub = some r →
      let now := s.valueFor ses r (y.index * 256 + y.sub)
      let upd := fun (last : Subscr → List Byte) => x.subs.map fun (z : Subscr) =>
        if z.number = id then { z with count := z.count + 1, last := last z } else z
      (y.period = 0 → now = y.last → exec (.notify ses id full) s = .next s) ∧
      (y.period ≠ 0 ∨ now ≠ y.last →
        (∃ t, exec (.notify ses id true) s = .next t ∧ t = { s with sessions := t.sessions, dict := t.dict } ∧
          t.ses n = { x with subs := upd Subscr.last } ∧ (∀ j, j ≠ n → t.ses j = s.ses j) ∧
          t.rd K.notifyLost = (s.rd K.notifyLost + 1) % 2 ^ 32 ∧ ∀ k, k ≠ K.notifyLost → t.rd k = s.rd k) ∧
        ∃ t, exec (.notify ses id false) s = .next t ∧ t = { s with sessions := t.sessions, tx := t.tx } ∧
          t.ses n = { x with subs := upd fun _ => now } ∧ (∀ j, j ≠ n → t.ses j = s.ses j) ∧
          t.tx = (chanSes ses, msgBytes 5 0 0 (y.number % 65536 + 65536 * (y.count % 65536)) y.index y.sub c 0
            (if r.ty.bytes then now.length else 0)
            (if y.period = 0 ∧ y.index * 256 + y.sub = K.logHead then (s.log.head?.map LogEntry.bytes).getD []
             else now.take 1024)) :: s.tx)) ∧
    (∃ t, exec (.responseCacheExpiry client id) s = .next t ∧ t = { s with kept := t.kept } ∧
      ∀ k, k ∈ t.kept ↔ k ∈ s.kept ∧ ¬(k.1 = client ∧ k.2.1 = id)) ∧
    (isMailbox ses = false → exec (.mbxDoorbell ses v m) s = .next s) ∧
    (isMailbox ses = true →
      (x.busy = false → ∃ t, exec (.mbxDoorbell ses 1 m) s = .next t ∧ OnlySes t n ∧
        t.ses n = { x with busy := true, ready := false, request := some m }) ∧
      (x.busy = false → v ≠ 1 → exec (.mbxDoorbell ses v m) s = .next s) ∧
      (x.busy = true → ∃ t, exec (.mbxDoorbell ses v m) s = .next t ∧ s.OnlyEntries t [K.mbxIgnored] ∧
        t.rd K.mbxIgnored = (s.rd K.mbxIgnored + 1) % 2 ^ 32)) ∧
    (s.rd (K.segEnable seg.val) = 0 → exec (.dtlsHandshake seg client) s = .next s) ∧
    (s.rd (K.segEnable seg.val) ≠ 0 →
      (∀ k, (List.range 16).find? (fun j => !(s.ses j).isOpen) = some k → s.clientListed client = true →
        ∃ t, exec (.dtlsHandshake seg client) s = .next t ∧ OnlySes t k ∧
          t.ses k = { isOpen := true, cert := client, segment := seg.val }) ∧
      ((∀ j, j < 16 → (s.ses j).isOpen = true) ∨ s.clientListed client = false →
        ∃ t, exec (.dtlsHandshake seg client) s = .next t ∧ s.OnlyEntries t [K.sessionsRefused] ∧
          t.rd K.sessionsRefused = (s.rd K.sessionsRefused + 1) % 2 ^ 32)) ∧
    (∃ t, exec (.dtlsIdleTimeout d) s = .next t ∧ OnlySes t d.val ∧ t.ses d.val = {})

/-- Diagnostic and telemetry entries. A valid recipe switch waits for the instance's tack, of a cascade that switches together
once its master has it, which sends it down the tree and raises the barrier; an invalid one, or a member's own, does
nothing. A clearing of precision flags or of a core's counters waits for the instance's tack, the counters of a core of
no instance go at once; a snapshot waits unless one waits already. The core selectors take a core that exists; alert causes are
cleared at once.
Rests on the reading of log entry 70. -/
def Obligations.DiagnosticWritesWaitForTheirTack : Prop :=
  ∀ (s : State) (i : InstId) (b : List Byte) (mask : BitVec 32) (c : BitVec 16) (fromMaster : Bool),
    let Waits := fun (t : State) (j : Nat) (ch : Change) =>
      t.inst j = { s.inst j with changes := (s.inst j).changes ++ [ch] } ∧ ∀ k, k ≠ j → t.inst k = s.inst k
    (s.recipeRule i.val b ≠ 0 ∨ (s.recipeShared i.val = true ∧ fromMaster = false ∧ s.isMaster = false) →
      exec (.recipeSelectWrite i b fromMaster) s = .next s) ∧
    (s.recipeRule i.val b = 0 →
      (s.recipeShared i.val = false → ∃ t, exec (.recipeSelectWrite i b fromMaster) s = .next t ∧
        t = { s with insts := t.insts } ∧ Waits t i.val (.recipe b)) ∧
      (s.recipeShared i.val = true → s.isMaster = false → ∃ t, exec (.recipeSelectWrite i b true) s = .next t ∧
        t = { s with insts := t.insts } ∧ Waits t i.val (.recipeC b)) ∧
      (s.recipeShared i.val = true → s.isMaster = true → ∃ t, exec (.recipeSelectWrite i b fromMaster) s = .next t ∧
        t = ({ s with insts := t.insts, casc := { s.casc with barrier := true } } : State).sendDown 4 (s.rd K.ctackSeq)
          (leBytes 2 (0x4000 + i.val) ++ leBytes 1 0x30 ++ b) ∧ Waits t i.val (.recipeC b))) ∧
    (∃ t, exec (.precClear i mask) s = .next t ∧ t = { s with insts := t.insts } ∧ Waits t i.val (.precClear mask.toNat)) ∧
    (c.toNat < 1200 →
      (∃ t, exec (.ccCoreWrite c) s = .next t ∧ s.OnlyEntries t [K.ccCore] ∧ t.rd K.ccCore = c.toNat) ∧
      ∃ t, exec (.tmCoreWrite c) s = .next t ∧ s.OnlyEntries t [K.tmCore] ∧ t.rd K.tmCore = c.toNat) ∧
    (1200 ≤ c.toNat → exec (.ccCoreWrite c) s = .next s ∧ exec (.tmCoreWrite c) s = .next s) ∧
    (∀ j, s.instForCore (s.rd K.ccCore) = some j → ∃ t, exec .ccClear s = .next t ∧ t = { s with insts := t.insts } ∧
      Waits t j (.ccClear (s.rd K.ccCore))) ∧
    (s.instForCore (s.rd K.ccCore) = none → ∃ t, exec .ccClear s = .next t ∧ t = { s with cores := t.cores } ∧
      t.core (s.rd K.ccCore) = (s.core (s.rd K.ccCore)).clearCounters ∧
      ∀ d, d ≠ s.rd K.ccCore → t.core d = s.core d) ∧
    (s.rd (K.snapState i.val) ≠ 1 → ∃ t, exec (.snapReq i) s = .next t ∧ t = { s with dict := t.dict, insts := t.insts } ∧
      t.rd (K.snapState i.val) = 1 ∧ (∀ k, k ≠ K.snapState i.val → t.rd k = s.rd k) ∧ Waits t i.val .snapshot) ∧
    (s.rd (K.snapState i.val) = 1 → exec (.snapReq i) s = .next s) ∧
    (∃ t, exec (.alertClear mask) s = .next t ∧ s.OnlyEntries t [K.alertCauses] ∧
      ∀ k, k < 32 → (t.rd K.alertCauses).testBit k = ((s.rd K.alertCauses).testBit k && !mask.getLsbD k))

/-! ## Time, memory stacks, pins -/

/-- Time and the HBM stacks. A PTP message of the clock's domain on an enabled segment ranks that segment, and the one that
then supplies time sets the entries and, except on a member that follows its master, wall time, whose first setting is
logged; a lost segment gives way to the other. A pulse per second rounds the seconds, and TACK_IO is taken by a member
alone. Patrol scrubbing corrects or poisons a word and counts it. A temperature reading sets the stack's limits, logs a
new one, and holds or releases its instance; a retrain waits for the tack of the stack's instance and runs to its end.
Rests on the readings of log entries 46 and 47. -/
def Obligations.TimeSourcesAndMemoryStacks : Prop :=
  ∀ (s : State) (g : Fin 2) (m : PtpMsg) (st : StackId) (w : Nat) (temp : Int) (found : Ecc),
    let ranked := { s with ptp := mapSet (fun _ => 0) s.ptp g.val (m.rank + 1) }
    let lost := { s with ptp := mapSet (fun _ => 0) s.ptp (s.rd K.ptpSegment) 0 }
    let x := s.stack st.val
    let OnlyStack := fun (t : State) => ∀ k, k ≠ st.val → t.stack k = s.stack k
    (m.domain ≠ s.rd K.ptpDomain ∨ s.rd (K.segEnable g.val) = 0 → exec (.ptpMessage g m) s = .next s) ∧
    (m.domain = s.rd K.ptpDomain → s.rd (K.segEnable g.val) ≠ 0 →
      (ranked.bestSegment ≠ some g.val → exec (.ptpMessage g m) s = .next ranked) ∧
      (ranked.bestSegment = some g.val →
        (s.timeFromMaster = true ∨ s.wallTaken = true → ∃ t, exec (.ptpMessage g m) s = .next t ∧
          t = { ranked with dict := t.dict, time := t.time } ∧
          t.time = (if s.timeFromMaster then s.time else s.ptpTime m.time % 2 ^ 64) ∧
          t.rd K.ptpSegment = g.val ∧ t.rd K.ptpState = (if s.timeFromMaster then 1 else 2) ∧
          t.rd K.ptpOffset = unsignedAt 64 m.offset ∧
          ∀ k, k ∉ [K.ptpSegment, K.ptpState, K.ptpOffset] → t.rd k = s.rd k) ∧
        (s.timeFromMaster = false → s.wallTaken = false → ∃ t, exec (.ptpMessage g m) s = .next t ∧
          t.time = m.time % 2 ^ 64 ∧ t.wallTaken = true ∧ t.ptp = ranked.ptp ∧ t.Logged 0x0501 0 ∧
          t.rd K.ptpSegment = g.val ∧ t.rd K.ptpState = 2 ∧ t.rd K.ptpOffset = unsignedAt 64 m.offset ∧
          ∀ k, k ∉ logKeys → k ∉ [K.ptpSegment, K.ptpState, K.ptpOffset] → t.rd k = s.rd k))) ∧
    (1 < s.rd K.ptpSegment → exec .ptpSegmentSwitch s = .next s) ∧
    (s.rd K.ptpSegment ≤ 1 →
      (lost.bestSegment = none → ∃ t, exec .ptpSegmentSwitch s = .next t ∧ lost.OnlyEntries t [K.ptpSegment, K.ptpState] ∧
        t.rd K.ptpSegment = 0xFF ∧ t.rd K.ptpState = 0) ∧
      (∀ h, lost.bestSegment = some h → ∃ t, exec .ptpSegmentSwitch s = .next t ∧ lost.OnlyEntries t [K.ptpSegment] ∧
        h = 1 - s.rd K.ptpSegment ∧ t.rd K.ptpSegment = h)) ∧
    (s.wallTaken = true ∧ s.timeFromMaster = false → ∃ t, exec .ppsInEdge s = .next t ∧
      t = { s with dict := t.dict, time := (s.time + 500000000) / 1000000000 * 1000000000 } ∧ t.rd K.ppsLocked = 1 ∧
      ∀ k, k ≠ K.ppsLocked → t.rd k = s.rd k) ∧
    (¬(s.wallTaken = true ∧ s.timeFromMaster = false) → exec .ppsInEdge s = .next s) ∧
    (s.timeFromMaster = true → ∃ t, exec .tackIoEdge s = .next t ∧ s.OnlyEntries t [K.tackIoTime] ∧
      t.rd K.tackIoTime = s.time) ∧
    (s.timeFromMaster = false → exec .tackIoEdge s = .next s) ∧
    (2 ^ 33 ≤ w → exec (.hbmPatrolScrub st w found) s = .next s) ∧
    (w < 2 ^ 33 →
      let a := 2 ^ 33 * st.val + w
      let e := max (eccNo found) (mapGet (fun _ => 0) s.hbmErr a)
      (e = 0 → exec (.hbmPatrolScrub st w found) s = .next s) ∧
      (e ≠ 0 →
        let counter := if e = 1 then K.eccCorrected st.val else K.eccUncorrectable st.val
        ∃ t, exec (.hbmPatrolScrub st w found) s = .next t ∧
          t = { s with dict := t.dict, hbmErr := t.hbmErr, hbmPoison := t.hbmPoison } ∧
          t.rd counter = (s.rd counter + 1) % 2 ^ 64 ∧ (∀ k, k ≠ counter → t.rd k = s.rd k) ∧
          (∀ b, mapGet (fun _ => 0) t.hbmErr b = if b = a then 0 else mapGet (fun _ => 0) s.hbmErr b) ∧
          ∀ b, mapGet (fun _ => false) t.hbmPoison b =
            (if e ≠ 1 ∧ b = a then true else mapGet (fun _ => false) s.hbmPoison b))) ∧
    (∃ t, exec (.hbmTempRead st temp) s = .next t ∧
      t = { s with dict := t.dict, hbmStacks := t.hbmStacks, insts := t.insts, log := t.log, fns := t.fns,
                   sent := t.sent, logMsgAt := t.logMsgAt, logMsgHeld := t.logMsgHeld } ∧
      t.rd (K.hbmTemp st.val) = unsignedAt 32 temp ∧ OnlyStack t ∧
      t.stack st.val = { x with refresh2 := decide (85000 < temp), limited := decide (s.rdI K.hbmTThrottle 32 < temp) } ∧
      (s.rdI K.hbmTThrottle 32 < temp → x.limited = false → ∃ y ∈ t.log, y.record % 2 ^ 16 = 0x1009) ∧
      (s.instOfPanel (stackPanel st.val) = none → t.insts = s.insts ∧
        ∀ k, k ∉ logKeys → k ≠ K.hbmTemp st.val → t.rd k = s.rd k) ∧
      ∀ i, s.instOfPanel (stackPanel st.val) = some i →
        let cause := 0x100 + st.val
        let left := (s.inst i).hot_.filter fun c => c != cause
        let runs := left ≠ (s.inst i).hot_ ∧ left = [] ∧ (s.inst i).hostStop = false ∧ s.rd (K.instState i) = 4
        (∀ j, j ≠ i → t.inst j = s.inst j) ∧
        (∀ k, k ∉ logKeys → k ≠ K.hbmTemp st.val → k ≠ K.instState i → t.rd k = s.rd k) ∧
        (if s.rdI K.hbmTStop 32 < temp then
           t.rd (K.instState i) = s.rd (K.instState i) ∧
           t.inst i = { s.inst i with hot_ := if cause ∈ (s.inst i).hot_ then (s.inst i).hot_ else (s.inst i).hot_ ++ [cause] }
         else if temp < s.rdI K.hbmTThrottle 32 then
           t.rd (K.instState i) = (if runs then instFitted else s.rd (K.instState i)) ∧
           t.inst i = { s.inst i with hot_ := left }
         else t.rd (K.instState i) = s.rd (K.instState i) ∧ t.inst i = s.inst i)) ∧
    (x.retrain ≠ 0 ∨ s.rd (K.hbmState st.val) ≠ 2 → exec (.retrain st) s = .next s) ∧
    (x.retrain = 0 → s.rd (K.hbmState st.val) = 2 →
      (∀ i, s.instOfPanel (stackPanel st.val) = some i → ∃ t, exec (.retrain st) s = .next t ∧
        t = { s with hbmStacks := t.hbmStacks, insts := t.insts } ∧ t.stack st.val = { x with retrain := 1 } ∧ OnlyStack t ∧
        t.inst i = { s.inst i with changes := (s.inst i).changes ++ [.retrain st.val] } ∧ ∀ j, j ≠ i → t.inst j = s.inst j) ∧
      (s.instOfPanel (stackPanel st.val) = none → ∃ t, exec (.retrain st) s = .next t ∧ OnlyStack t ∧
        t = { s with hbmStacks := t.hbmStacks, dict := t.dict } ∧ t.stack st.val = { x with retrain := 2 } ∧
        t.rd (K.hbmState st.val) = 4 ∧ ∀ k, k ≠ K.hbmState st.val → t.rd k = s.rd k)) ∧
    (x.retrain = 2 → ∃ t, exec (.hbmRetrainDone st) s = .next t ∧ OnlyStack t ∧
      t = { s with hbmStacks := t.hbmStacks, dict := t.dict } ∧ t.stack st.val = { x with retrain := 0 } ∧
      t.rd (K.hbmState st.val) = 2 ∧ ∀ k, k ≠ K.hbmState st.val → t.rd k = s.rd k) ∧
    (x.retrain ≠ 2 → exec (.hbmRetrainDone st) s = .next s)

/-- The multipurpose pins: a valid new function detaches the old one, with its alert, crosses over and attaches; the
function in force is no switch, a write during the switch is held and, if it differs, starts the next; an invalid write
does nothing. An alert input raises and releases `ext_alert`, which any pin's alert holds up, each with its event; PWR_EN
is taken, and names the pin as the source of a change.
Rests on the reading of log entry 48. -/
def Obligations.PinsSwitchAndRaiseAlerts : Prop :=
  ∀ (s : State) (p : PinId) (f : BitVec 8) (level : Bool),
    let x := s.pin p.val
    let idle := s.rd (K.sbState p.val) = 0
    let OnlyPin := fun (t : State) => t = { s with dict := t.dict, pins := t.pins } ∧ ∀ q, q ≠ p.val → t.pin q = s.pin q
    let OnlyPinAndLog := fun (t : State) => (∀ q, q ≠ p.val → t.pin q = s.pin q) ∧
      t = { s with dict := t.dict, pins := t.pins, log := t.log, fns := t.fns, sent := t.sent,
                   logMsgAt := t.logMsgAt, logMsgHeld := t.logMsgHeld }
    let Alerted := fun (t : State) => t.Logged 0x1008 1 ∧
      t.rd K.extAlert = b2n ((List.range 8).any fun q => (t.pin q).alert)
    let Switches := fun (t : State) (y : Pin) (keys : List Nat) => OnlyPinAndLog t ∧ t.pin p.val = { y with alert := false } ∧
      t.rd (K.sbState p.val) = 1 ∧
      (x.alert = true → Alerted t ∧ ∀ k, k ∉ K.extAlert :: K.sbState p.val :: (keys ++ logKeys) → t.rd k = s.rd k) ∧
      (x.alert = false → OnlyPin t ∧ ∀ k, k ∉ K.sbState p.val :: keys → t.rd k = s.rd k)
    let good := f.toNat ≤ 7 ∧ s.sbRule p.val 1 f.toNat = 0
    (¬good → exec (.sbFuncWrite p f) s = .next s) ∧
    (good →
      (idle → x.func = f.toNat → ∃ t, exec (.sbFuncWrite p f) s = .next t ∧ s.OnlyEntries t [K.sbFunc p.val] ∧
        t.rd (K.sbFunc p.val) = f.toNat) ∧
      (idle → x.func ≠ f.toNat → ∃ t, exec (.sbFuncWrite p f) s = .next t ∧ t.rd (K.sbFunc p.val) = f.toNat ∧
        Switches t { x with want := f.toNat, held := none } [K.sbFunc p.val]) ∧
      (¬idle → ∃ t, exec (.sbFuncWrite p f) s = .next t ∧ OnlyPin t ∧ t.pin p.val = { x with held := some f.toNat } ∧
        t.rd (K.sbFunc p.val) = f.toNat ∧ ∀ k, k ≠ K.sbFunc p.val → t.rd k = s.rd k)) ∧
    (s.rd (K.sbState p.val) = 1 → ∃ t, exec (.sbDetachEnd p) s = .next t ∧ s.OnlyEntries t [K.sbState p.val] ∧
      t.rd (K.sbState p.val) = 2) ∧
    (s.rd (K.sbState p.val) ≠ 1 → exec (.sbDetachEnd p) s = .next s) ∧
    (s.rd (K.sbState p.val) ≠ 2 → exec (.sbAttach p) s = .next s) ∧
    (s.rd (K.sbState p.val) = 2 →
      (x.held = none ∨ x.held = some x.want → ∃ t, exec (.sbAttach p) s = .next t ∧ OnlyPin t ∧
        t.pin p.val = { x with func := x.want, held := none } ∧ t.rd (K.sbState p.val) = 0 ∧
        ∀ k, k ≠ K.sbState p.val → t.rd k = s.rd k) ∧
      ∀ h, x.held = some h → h ≠ x.want → ∃ t, exec (.sbAttach p) s = .next t ∧
        Switches t { x with func := x.want, want := h, held := none } []) ∧
    (x.func = 7 ∧ idle ∧ x.alert = false →
      ∃ t, exec (.thermalAlertInput p) s = .next t ∧ OnlyPinAndLog t ∧ t.pin p.val = { x with alert := true } ∧ Alerted t ∧
        t.rd K.extAlert = 1 ∧ ∀ k, k ∉ K.extAlert :: logKeys → t.rd k = s.rd k) ∧
    (¬(x.func = 7 ∧ idle ∧ x.alert = false) → exec (.thermalAlertInput p) s = .next s) ∧
    (x.alert = true →
      ∃ t, exec (.thermalAlertReleased p) s = .next t ∧ OnlyPinAndLog t ∧ t.pin p.val = { x with alert := false } ∧
        Alerted t ∧ ∀ k, k ∉ K.extAlert :: logKeys → t.rd k = s.rd k) ∧
    (x.alert = false → exec (.thermalAlertReleased p) s = .next s) ∧
    (∃ t, exec (.pwrEnChange level) s = .next t ∧ t = { s with power := t.power } ∧
      t.power = { s.power with pwrEn := level, source := if level = s.power.pwrEn then s.power.source else 0 })

/-! ## Power, clock, heat -/

/-- A power region. The oldest load notice of a core is taken, cancels the core's notices, or is counted as bad or late; the
announced step that is most overdue loses its pre-bias. Issue stops hold and free the region's cores. The comparators
keep the lowest crossing and report one below the margin. The converter gives its sample, range, and mean of 1,000. A
temperature report moves the throttle level, paces the cores, shows the panel's hottest region, and releases an instance
that is cool throughout; a stop holds the instance. A regulator fault takes the region and its cores and routers away. A
chip of dither ends with its set points and, where the last chips allow one, an estimate; a stale estimate is marked and
later opens the wider window. An idle instance's lining goes into retention.
Rests on the readings of log entries 49 and 50. -/
def Obligations.PowerRegionsReportAndAct : Prop :=
  ∀ (s : State) (c : CoreId) (r : RegionId) (step : Fin 64) (ma : Nat) (temp : Int) (p : PanelId) (w rise : Int) (i : InstId),
    let x := s.region r.val
    let OnlyRegion := fun (t : State) (q : Nat) => ∀ m, m ≠ q → t.region m = s.region m
    ((s.core c.val).notices = [] → exec (.loadNotice c) s = .next s) ∧
    (∀ word rest, (s.core c.val).notices = word :: rest →
      let y := s.region (regionOf c.val)
      let live := y.notices.filter fun n => decide (s.time < n.due)
      let v := word.toNat
      let bad := bits v 31 28 ≠ 0 ∨ bits v 19 18 = 3
      let cancel := bits v 19 18 = 2
      let late := bits v 17 10 < 47 ∨ 8 ≤ live.length
      let Took := fun (t : State) (l : List Notice) => exec (.loadNotice c) s = .next t ∧
        t = { s with cores := t.cores, regions := t.regions, dict := t.dict } ∧
        t.core c.val = { s.core c.val with notices := rest } ∧ (∀ d, d ≠ c.val → t.core d = s.core d) ∧
        t.region (regionOf c.val) = { y with notices := l } ∧ OnlyRegion t (regionOf c.val)
      let Counts := fun (t : State) (k : Nat) => t.rd k = (s.rd k + 1) % 2 ^ 32 ∧ ∀ j, j ≠ k → t.rd j = s.rd j
      (bad → ∃ t, Took t live ∧ Counts t (K.noticeBad (regionOf c.val))) ∧
      (¬bad → cancel → ∃ t, Took t (live.filter fun n => n.core != c.val) ∧ t.dict = s.dict) ∧
      (¬bad → ¬cancel → late → ∃ t, Took t live ∧ Counts t (K.noticeLate (regionOf c.val))) ∧
      (¬bad → ¬cancel → ¬late → ∃ t, Took t (live ++ [⟨c.val, noteDelta v,
        s.time + 64 * bits v 17 10 * 1000000 / s.rd K.mclkNow, bits v 19 18, bits v 27 20⟩]) ∧ t.dict = s.dict)) ∧
    (x.notices = [] → exec (.prebiasRelease r) s = .next s) ∧
    (x.notices ≠ [] → ∃ t n, exec (.prebiasRelease r) s = .next t ∧ t = { s with regions := t.regions } ∧
      n ∈ x.notices ∧ (∀ m ∈ x.notices, n.due ≤ m.due) ∧ t.region r.val = { x with notices := x.notices.erase n } ∧
      OnlyRegion t r.val) ∧
    (∃ t, exec (.issueStop r) s = .next t ∧ t = { s with cores := t.cores, dict := t.dict } ∧
      (∀ d, t.core d = if d ∈ coresOfRegion r.val then { s.core d with issueStop := true } else s.core d) ∧
      t.rd (K.issueStops r.val) = (s.rd (K.issueStops r.val) + 1) % 2 ^ 32 ∧
      ∀ k, k ≠ K.issueStops r.val → t.rd k = s.rd k) ∧
    (∃ t, exec (.issueStopClear r) s = .next t ∧ t = { s with cores := t.cores } ∧
      ∀ d, t.core d = if d ∈ coresOfRegion r.val then { s.core d with issueStop := false } else s.core d) ∧
    (∃ t, exec (.vminCrossing r step) s = .next t ∧ s.OnlyEntriesAndLog t [K.vmin r.val, K.vminTime r.val] ∧
      (if stepMv step.val < s.rd (K.vmin r.val) then t.rd (K.vmin r.val) = stepMv step.val ∧ t.rd (K.vminTime r.val) = s.time
       else t.rd (K.vmin r.val) = s.rd (K.vmin r.val) ∧ t.rd (K.vminTime r.val) = s.rd (K.vminTime r.val)) ∧
      (if stepMv step.val + 60 < s.rd (K.vSet r.val) then t.Logged 0x1003 1
       else s.OnlyEntries t [K.vmin r.val, K.vminTime r.val])) ∧
    (∃ t, exec (.vminClear r step) s = .next t ∧ s.OnlyEntries t [K.vmin r.val, K.vminTime r.val] ∧
      t.rd (K.vmin r.val) = stepMv step.val ∧ t.rd (K.vminTime r.val) = s.time) ∧
    (let code := min 4095 (ma * 4096 / (if x.coarse then 160000 else 40000))
     let low := if x.coarse = true ∧ 160 * code ≤ 34 * 4096 then x.low + 1 else 0
     let coarse := if x.coarse then decide (low < 4) else decide (38 * 4096 ≤ 40 * code)
     let sum := x.sum + (if x.coarse then 4 * code else code)
     let last := x.count = 999
     ∃ t, exec (.currentSample r ma) s = .next t ∧ t = { s with dict := t.dict, regions := t.regions } ∧
      t.rd (K.iSample r.val) = pack [(code, 0), (b2n x.coarse, 12), (b2n (code == 4095), 13)] ∧
      t.rd (K.iAvg r.val) = (if last then sum * 40000 / 4096 / 1000 else s.rd (K.iAvg r.val)) ∧
      (∀ k, k ∉ [K.iSample r.val, K.iAvg r.val] → t.rd k = s.rd k) ∧ OnlyRegion t r.val ∧
      t.region r.val = { x with coarse := coarse, low := if coarse then low else 0, count := if last then 0 else x.count + 1,
                                sum := if last then 0 else sum }) ∧
    (let k := s.rd (K.throttle r.val)
     let limit := s.rdI K.tThrottle 32
     let held := k = 10 ∧ limit < temp
     let level := if limit < temp then min 10 (k + 1) else if temp < limit - 3000 ∧ x.cool = 9 then k - 1 else k
     let q := r.val / 25
     ∃ t, exec (.throttleUpdate r temp) s = .next t ∧
      t = { s with dict := t.dict, regions := t.regions, cores := t.cores, insts := t.insts, log := t.log, fns := t.fns,
                   sent := t.sent, logMsgAt := t.logMsgAt, logMsgHeld := t.logMsgHeld } ∧
      t.rd (K.temp r.val) = unsignedAt 32 temp ∧ t.rd (K.throttle r.val) = level ∧
      t.rd (K.tPanelMax q) =
        unsignedAt 32 ((List.range 25).foldl (fun m j => max m (t.rdI (K.temp (25 * q + j)) 32)) temp) ∧
      t.region r.val = { x with top := if held then (x.top + 1) % 60000 else 0
                                cool := if temp < limit - 3000 ∧ x.cool ≠ 9 then x.cool + 1 else 0 } ∧ OnlyRegion t r.val ∧
      (∀ d, t.core d = if d ∈ coresOfRegion r.val then { s.core d with pace := decide (0 < level) } else s.core d) ∧
      (if held ∧ x.top = 0 then t.Logged 0x1004 1 else t.log = s.log) ∧
      (∀ j, s.instOfPanel q ≠ some j → t.inst j = s.inst j ∧
        (s.instOfPanel q = none → ∀ k, k ∉ logKeys → k ∉ [K.temp r.val, K.throttle r.val, K.tPanelMax q] → t.rd k = s.rd k)) ∧
      ∀ j, s.instOfPanel q = some j → (∀ m ∈ (s.inst j).panels, m < 12) →
        let left := (s.inst j).hot_.filter fun c => decide (0x100 ≤ c)
        (∀ k, k ∉ logKeys → k ∉ [K.temp r.val, K.throttle r.val, K.tPanelMax q, K.instState j] → t.rd k = s.rd k) ∧
        (if t.regionsCool j = true then
           t.inst j = { s.inst j with hot_ := left } ∧ t.rd (K.instState j) =
             (if left ≠ (s.inst j).hot_ ∧ left = [] ∧ (s.inst j).hostStop = false ∧ s.rd (K.instState j) = 4
              then instFitted else s.rd (K.instState j))
         else t.inst j = s.inst j ∧ t.rd (K.instState j) = s.rd (K.instState j))) ∧
    (∀ j, s.instOfPanel (r.val / 25) = some j →
      (r.val ∈ (s.inst j).hot_ → exec (.tStop r) s = .next s) ∧
      (r.val ∉ (s.inst j).hot_ → ∃ t, exec (.tStop r) s = .next t ∧
        t = { s with insts := t.insts, dict := t.dict, log := t.log, fns := t.fns, sent := t.sent,
                     logMsgAt := t.logMsgAt, logMsgHeld := t.logMsgHeld } ∧
        t.inst j = { s.inst j with hot_ := (s.inst j).hot_ ++ [r.val] } ∧ (∀ k, k ≠ j → t.inst k = s.inst k) ∧
        t.Logged 0x1005 2 ∧ ∀ k, k ∉ logKeys → t.rd k = s.rd k)) ∧
    (s.instOfPanel (r.val / 25) = none → exec (.tStop r) s = .next s) ∧
    (s.rd (K.regState r.val) ≠ 4 → ∃ t, exec (.regulatorFault r) s = .next t ∧ t.rd (K.regState r.val) = 4 ∧
      (∀ d ∈ coresOfRegion r.val, (t.core d).fenced = true ∧ (t.core d).eng = [] ∧ (t.core d).sp = [] ∧
        (t.router d).failed = true) ∧ ∀ m, (s.router m).failed = true → (t.router m).failed = true) ∧
    (s.rd (K.regState r.val) = 4 → exec (.regulatorFault r) s = .next s) ∧
    (let chips := ((w, rise) :: (s.panel p.val).chips).take 60
     ∃ t, exec (.ditherChip p w rise) s = .next t ∧
      t = { s with dict := t.dict, panels := t.panels, freeNext := t.freeNext } ∧
      (t.panel p.val).chips = chips ∧ (t.panel p.val).shift = (s.nextShift p.val w).2 ∧
      (∀ v, rthOf chips = some v → t.rd (K.rthEst p.val) = v ∧ t.rd (K.rthStale p.val) = 0 ∧
        (t.panel p.val).acceptedAt = s.uptime ∧ (t.panel p.val).window = none) ∧
      (rthOf chips = none → t.rd (K.rthEst p.val) = s.rd (K.rthEst p.val) ∧
        t.rd (K.rthStale p.val) = s.rd (K.rthStale p.val) ∧ (t.panel p.val).acceptedAt = (s.panel p.val).acceptedAt ∧
        (t.panel p.val).window = (s.panel p.val).window) ∧
      (∀ j, j < 25 → t.rd (K.vSet (25 * p.val + j)) = (if s.rd K.pwrState = 2
        then t.corePoint (25 * p.val + j) s.mclkTarget else s.rd (K.vSet (25 * p.val + j)))) ∧
      (∀ k, k ≠ K.rthEst p.val → k ≠ K.rthStale p.val → (∀ j, j < 25 → k ≠ K.vSet (25 * p.val + j)) → t.rd k = s.rd k) ∧
      ∀ q, q ≠ p.val → t.panel q = s.panel q) ∧
    (∃ t, exec (.rthStale p false) s = .next t ∧ s.OnlyEntriesAndLog t [K.rthStale p.val] ∧ t.rd (K.rthStale p.val) = 1 ∧
      t.Logged 0x1007 1) ∧
    (s.rd (K.rthStale p.val) = 1 → ∃ t, exec (.rthStale p true) s = .next t ∧ t = { s with panels := t.panels } ∧
      t.panel p.val = { s.panel p.val with window := some s.uptime } ∧ ∀ q, q ≠ p.val → t.panel q = s.panel q) ∧
    (s.rd (K.rthStale p.val) ≠ 1 → exec (.rthStale p true) s = .next s) ∧
    (let idle := s.rd (K.instState i.val) = 3 ∧ s.rd K.retDelay ≠ 0 ∧ (s.inst i.val).stepOn = false ∧
       (s.inst i.val).retention = false ∧ (s.inst i.val).replacing = []
     (¬idle → exec (.retentionEntry i) s = .next s) ∧
     (idle → ∃ t, exec (.retentionEntry i) s = .next t ∧ t = { s with insts := t.insts, dict := t.dict } ∧
      t.inst i.val = { s.inst i.val with retention := true } ∧ (∀ j, j ≠ i.val → t.inst j = s.inst j) ∧
      (∀ q ∈ s.regionsOf i.val, t.rd (K.regState q) =
        (if s.rd (K.regState q) = 2 ∨ s.rd (K.regState q) = 3 then 3 else s.rd (K.regState q))) ∧
      ∀ k, (∀ q ∈ s.regionsOf i.val, k ≠ K.regState q) → t.rd k = s.rd k))

/-- The power sequencer, trips, the clock's settings, and the resets of the device and of its management core. A request for
power runs the sequencer up, to `pwr_state` 2 or to the step where the request changes; one to end it releases PWR_GOOD
and runs it down; a trip is counted and resets the device into `pwr_state` 4, from which a recovery leads up again.
`mclk_set` and `hz_mode` take a valid value on a quiet device and start a retune where the target changes, with the set
points first when it rises; the retune's end sets target and points. A device reset keeps the persistent store alone; a
short RESET_IN does nothing. Bring-up ends Ready, waits for power, or waits in recovery without a bank. A management-core
reset or watchdog ends the sessions and is counted; the third expiry while a new image is held reverts to the other bank.
Rests on the readings of log entries 38, 48, 52 and 53. -/
def Obligations.PowerSequencesAndResets : Prop :=
  ∀ (s : State) (past : Bool) (mv : Nat) (r : RegionId) (temp : Int) (khz : BitVec 32) (mode : BitVec 8) (b : BringUp)
    (low : Nat) (k : Fin 6),
    let st := s.rd K.pwrState
    let upOk := s.powerWanted = true ∧ s.sec.recovery = false ∧ st ≠ 2 ∧ (st = 4 → s.power.recovered = true)
    let downOk := s.powerWanted = false ∧ st ≠ 0 ∧ st ≠ 4
    let Retunes := fun (i : Instr) (key v target : Nat) =>
      ∃ t, exec i s = .next t ∧ t = { s with dict := t.dict } ∧ t.rd key = v ∧
        (s.rd K.meshState < 2 ∨ target = s.rd K.mclkNow → ∀ j, j ≠ key → t.rd j = s.rd j) ∧
        (2 ≤ s.rd K.meshState → target ≠ s.rd K.mclkNow → t.rd K.meshState = 3 ∧
          (∀ q, q < 300 → t.rd (K.vSet q) =
            if s.rd K.mclkNow < target then s.corePoint q target else s.rd (K.vSet q)) ∧
          ∀ j, j ≠ key → j ≠ K.meshState → (∀ q, q < 300 → j ≠ K.vSet q) → t.rd j = s.rd j)
    let Reset := fun (t : State) (last : Nat) => t.rd K.lastReset = last ∧ t.rd K.devState = 1 ∧ t.rd K.bootStage = 1 ∧
      t.cores = [] ∧ t.routers = [] ∧ t.insts = [] ∧ t.slots = [] ∧ t.seqs = [] ∧ t.reqs = [] ∧ t.hbm = [] ∧ t.log = [] ∧
      t.time = 0 ∧ t.uptime = 0 ∧ t.hostMem = s.hostMem ∧ t.marks = s.marks ∧ t.pending = s.pending ∧
      ∀ k, keptKey k = true → t.rd k = s.rd k
    let start := if s.rd K.devState = 1 then s else s.deviceReset 0
    let bankOk := if start.rd K.fwActiveBank = 0 then b.bank0Ok else b.bank1Ok
    let canRun := start.sec.recovery = false ∧ start.powerWanted = true ∧
      (start.rd K.pwrState = 4 → start.power.recovered = true)
    (¬upOk → exec (.powerRequestOn k) s = .next s) ∧
    (upOk →
      (∃ t, exec (.powerRequestOn 5) s = .next t ∧ t.rd K.pwrState = 2 ∧ t.power.good = true ∧ t.power.step = 5) ∧
      (k.val < 5 → ∃ t, exec (.powerRequestOn k) s = .next t ∧ t.rd K.pwrState = 1)) ∧
    (¬downOk → exec (.powerRequestOff k) s = .next s) ∧
    (downOk →
      (∃ t, exec (.powerRequestOff 5) s = .next t ∧ t.rd K.pwrState = 0 ∧ t.rd K.devState = 0 ∧ t.power.good = false ∧
        t.power.step = 0 ∧ (s.power.step = 5 → t.hbm = [] ∧ t.seqs = [] ∧ t.reqs = [] ∧ t.routers = [])) ∧
      (k.val < 5 → 1 < s.power.step → ∃ t, exec (.powerRequestOff k) s = .next t ∧ t.rd K.pwrState = 3 ∧
        t.power.good = false)) ∧
    (s.railsOn = true →
      (∃ t, exec (.inputFaultTrip past mv) s = .next t ∧ t.rd K.pwrState = 4 ∧ t.rd K.devState = 0 ∧
        t.rd K.trips = (s.rd K.trips + 1) % 2 ^ 32 ∧ t.rd K.vIn = mv % 2 ^ 32 ∧ t.rd K.lastReset = 3 ∧ t.Logged 0x1002 2 ∧
        t.cores = [] ∧ t.hbm = [] ∧ t.hostMem = s.hostMem ∧ t.marks = s.marks) ∧
      ∃ t, exec (.thermalShutdown r temp) s = .next t ∧ t.rd K.pwrState = 4 ∧ t.rd K.devState = 0 ∧
        t.rd K.trips = (s.rd K.trips + 1) % 2 ^ 32 ∧ t.rd K.lastReset = 3 ∧
        t.power.shutdown = some (r.val, unsignedAt 32 temp) ∧
        t.cores = [] ∧ t.hbm = [] ∧ t.hostMem = s.hostMem ∧ t.marks = s.marks) ∧
    (s.railsOn = false → exec (.inputFaultTrip past mv) s = .next s ∧ exec (.thermalShutdown r temp) s = .next s) ∧
    (st ≠ 4 → exec .tripRecovery s = .next s) ∧
    (st = 4 →
      (s.powerWanted = false ∨ s.sec.recovery = true →
        exec .tripRecovery s = .next { s with power := { s.power with recovered := true } }) ∧
      (s.powerWanted = true → s.sec.recovery = false →
        ∃ t, exec .tripRecovery s = .next t ∧ t.rd K.pwrState = 1 ∧ t.power.recovered = true)) ∧
    (900000 ≤ khz.toNat ∧ khz.toNat ≤ 1400000 ∧ s.quietDevice = true →
      Retunes (.mclkSet khz) K.mclkSet khz.toNat (if s.rd K.hzMode = 0 then khz.toNat else 92 * khz.toNat / 100)) ∧
    (¬(900000 ≤ khz.toNat ∧ khz.toNat ≤ 1400000 ∧ s.quietDevice = true) → exec (.mclkSet khz) s = .next s) ∧
    (mode.toNat ≤ 2 ∧ s.quietDevice = true →
      Retunes (.hzModeWrite mode) K.hzMode mode.toNat
        (if mode.toNat = 0 then s.rd K.mclkSet else 92 * s.rd K.mclkSet / 100)) ∧
    (¬(mode.toNat ≤ 2 ∧ s.quietDevice = true) → exec (.hzModeWrite mode) s = .next s) ∧
    (s.rd K.meshState ≠ 3 → exec .retuneDone s = .next s) ∧
    (s.rd K.meshState = 3 → ∃ t, exec .retuneDone s = .next t ∧
      t = { s with dict := t.dict, log := t.log, fns := t.fns, sent := t.sent, logMsgAt := t.logMsgAt,
                   logMsgHeld := t.logMsgHeld } ∧
      t.rd K.mclkNow = s.mclkTarget ∧ t.rd K.meshState = 2 ∧ t.Logged 0x100A 0 ∧
      (∀ q, q < 300 → t.rd (K.vSet q) = s.corePoint q s.mclkTarget) ∧
      ∀ j, j ∉ K.mclkNow :: K.meshState :: logKeys → (∀ q, q < 300 → j ≠ K.vSet q) → t.rd j = s.rd j) ∧
    (∃ t, exec .deviceReset s = .next t ∧ Reset t 2) ∧
    (10000 ≤ low → ∃ t, exec (.resetIn low) s = .next t ∧ Reset t 1) ∧
    (1000 ≤ low → low < 10000 → exec (.resetIn low) s = .next s.freeStep ∨
      ∃ t, exec (.resetIn low) s = .next t ∧ Reset t 1) ∧
    (low < 1000 → exec (.resetIn low) s = .next s) ∧
    (bankOk = true → ¬canRun → exec (.inputPowerUp b) s = .next ((start.wr K.devState 1).wr K.bootStage 1)) ∧
    (b.bank0Ok = true ∨ b.bank1Ok = true → start.rd K.fwActiveBank ≤ 1 → canRun →
      ∃ t, exec (.inputPowerUp b) s = .next t ∧ t.rd K.devState = 2 ∧ t.rd K.bootStage = 7 ∧
        t.rd K.bootTime = b.bootMs % 2 ^ 32 ∧ t.rd K.pwrState = 2 ∧ t.Logged 0x2001 0) ∧
    (b.bank0Ok = false → b.bank1Ok = false →
      ∃ t, exec (.inputPowerUp b) s = .next t ∧ t.sec.recovery = true ∧ t.rd K.devState = 0 ∧ t.rd K.bootStage = 1 ∧
        t.rd (K.sbFunc 0) = 4 ∧ t.rd (K.sbFunc 1) = 5) ∧
    ((∀ i, i < 12 → ∀ p ∈ (s.inst i).panels, p < 12) → ∃ t, exec .mgCoreReset s = .next t ∧ t.rd K.lastReset = 5 ∧ t.rd K.mgResets = (s.rd K.mgResets + 1) % 2 ^ 32 ∧
      t.kept = [] ∧ (∀ n, n < 16 → t.ses n = {}) ∧ t.Logged 0x2004 0 ∧
      ((∀ i, i < 12 → s.rd (K.instState i) ≠ 2 ∧ s.journalState i ≠ 3) →
        t.cores = s.cores ∧ t.hbm = s.hbm ∧ t.seqs = s.seqs ∧ t.reqs = s.reqs ∧ t.slots = s.slots)) ∧
    ((∀ i, i < 12 → ∀ p ∈ (s.inst i).panels, p < 12) → ∃ t, exec .mgWatchdogExpiry s = .next t ∧ t.rd K.lastReset = 6 ∧
      t.rd K.mgResets = (s.rd K.mgResets + 1) % 2 ^ 32 ∧ t.kept = [] ∧ (∀ n, n < 16 → t.ses n = {}) ∧ t.Logged 0x2004 0 ∧
      (if s.sec.holding = true ∧ 2 ≤ s.sec.watchdogs then
         t.rd K.fwActiveBank = 1 - s.rd K.fwActiveBank ∧ t.rd K.fwResult = 9 ∧ t.sec.holding = false
       else t.rd K.fwActiveBank = s.rd K.fwActiveBank ∧ t.sec =
         { s.sec with watchdogs := if s.sec.holding then s.sec.watchdogs + 1 else s.sec.watchdogs }))

/-! ## The cascade -/

/-- The cascade. A command or message that does not fit the part's place in it is answered with its result or changes
nothing. JOIN, LEAVE, SWAP and FW_PASS do their work and show it in `casc_result`; a load from the broadcast ends with the
part's leaving or with the stream's timeout. A tack record, a release, an idle tack, a plan and the timers of a wait act
on the member, its group and the tree; a swap request waits for the barrier, and a master lost is replaced by the lowest
serial of a quorum. Time, blocks and images go down the tree, one transfer to each child; a time message sets the member's
time; aperture data enter the fabric at the die's site in packets of at most 4,096 bytes; a resend is logged or sent again.
Rests on the readings of log entries 29, 40, 54, 55 and 56. -/
def Obligations.CascadeMembersActOnMessages : Prop :=
  ∀ (s : State) (rec_ : TackRec) (rel : ReleaseMsg) (g m q : Fin 16) (reach : List (Fin 16)) (mt pd o : Nat) (bs : List Byte)
    (sm : SeamId) (ad : ApertureData),
    let st := s.rd K.cascState
    let i := s.rd K.cascInstance
    let master := s.isMaster = true ∧ st ≠ 0
    let member := s.isMaster = false ∧ st ≠ 0
    let lead := s.leadOf (s.groupOf s.me) = s.me
    let own := s.groupOf s.me = g.val
    let Says := fun (c : Instr) (code : Nat) => ∃ t, exec c s = .next t ∧ s.OnlyEntries t [K.cascResult] ∧ t.rd K.cascResult = code
    let SendsTo := fun (c : Instr) (k type tag : Nat) (pl : List Byte) => ∃ t, exec c s = .next t ∧ t = { s with seams := t.seams } ∧
      t.seam k = { s.seam k with tx := (s.seam k).tx ++
        [{ type := type, src := s.me, dst := 0xFF, tag := tag, taint := false, payload := pl }] } ∧
      ∀ j, j ≠ k → t.seam j = s.seam j
    let sound := ∀ j, j < 12 → ∀ p ∈ (s.inst j).panels, p < 12
    let Ended := fun (t : State) (code : Nat) => ∀ j, j < 12 → (s.inst j).load.isSome = true → s.fromCascade j = true →
      t.rd (K.instState j) = instUnfitted ∧ t.rd (K.loadStatus j) = pack [(6, 0), (code, 8), (0, 16)]
    let noLoad := ∀ j, j < 12 → (s.inst j).load.isSome = true → s.fromCascade j = false
    let mayJoin := s.cascSize ≤ 16 ∧ i ≤ 11 ∧ s.rd K.masterEligible ≠ 0
    (st ≠ 0 → Says .join 1) ∧ (st = 0 → s.ownIndex = none ∨ ¬mayJoin → Says .join 2) ∧
    (∀ me, st = 0 → s.ownIndex = some me → mayJoin →
      ∃ t, exec .join s = .next t ∧ t.rd K.cascState = 1 ∧ t.rd K.memberIndex = me ∧ t.rd K.cascResult = 0 ∧
        t.rd K.cascRole = (if s.firstMaster (List.range s.cascSize) = me then 2 else 1) ∧ t.rd K.unfitReason = 0 ∧
        t.rd K.masterSerial = s.memberSerial (s.firstMaster (List.range s.cascSize)) ∧
        t.casc = { master := s.firstMaster (List.range s.cascSize) } ∧ t = { s with dict := t.dict, casc := t.casc } ∧
        ∀ k, k ∉ [K.cascState, K.memberIndex, K.unfitReason, K.cascRole, K.masterSerial, K.cascResult] → t.rd k = s.rd k) ∧
    (st = 0 → Says .leave 1) ∧
    (st ≠ 0 → ∃ t, exec .leave s = .next t ∧ t.rd K.cascState = 0 ∧ t.rd K.cascRole = 0 ∧ t.rd K.memberIndex = 0xFF ∧
      t.rd K.masterSerial = 0 ∧ t.rd K.cascResult = 0 ∧ t.casc = {} ∧ (t.inst i).cascWait = false ∧ (sound → Ended t 0x2C) ∧
      (noLoad → t = { s with dict := t.dict, casc := t.casc, insts := t.insts } ∧
        t.inst i = { s.inst i with cascWait := false } ∧ (∀ j, j ≠ i → t.inst j = s.inst j) ∧
        ∀ k, k ∉ [K.cascState, K.cascRole, K.memberIndex, K.masterSerial, K.cascResult] → t.rd k = s.rd k)) ∧
    (st ≤ 1 → Says .swap 1) ∧ (2 ≤ st → s.mayLead (s.rd K.swapTarget) = false → Says .swap 2) ∧
    (2 ≤ st → s.mayLead (s.rd K.swapTarget) = true →
      ∃ t, exec .swap s = .next t ∧ t.casc = { s.casc with swaps := s.casc.swaps ++ [(s.me, s.rd K.swapTarget)] } ∧
        t.rd K.cascResult = 0 ∧ (∀ k, k ≠ K.cascResult → t.rd k = s.rd k) ∧
        (s.isMaster = true → t = { s with dict := t.dict, casc := t.casc }) ∧
        (s.isMaster = false → t = ({ s with dict := t.dict, casc := t.casc } : State).sendMember s.casc.master 5
          (s.rd K.ctackSeq) (leBytes 1 (s.rd K.swapTarget)))) ∧
    (¬master → Says .fwPass 1) ∧ (master → 4 < s.cascSize → Says .fwPass 2) ∧
    (master → s.cascSize ≤ 4 → s.rd K.fwState ≠ 3 ∧ s.rd K.fwState ≠ 4 → Says .fwPass 1) ∧
    (master → s.cascSize ≤ 4 → s.rd K.fwState = 3 ∨ s.rd K.fwState = 4 →
      ∃ t, exec .fwPass s = .next t ∧ t.rd K.cascResult = 0 ∧ (∀ k, k ≠ K.cascResult → t.rd k = s.rd k) ∧
        t = { s.each (s.imageBlocks 0) fun u b => u.sendDown 0x22 b.1 b.2 with dict := t.dict }) ∧
    (¬master ∨ s.cascSize ≤ rec_.member.val → exec (.tackRecord rec_) s = .next s) ∧
    (master → rec_.member.val < s.cascSize → exec (.tackRecord rec_) s = .next (s.form.addRecord rec_) ∧
      let c : Casc := { s.casc with records := (s.casc.records.filter fun x => x.member != rec_.member) ++ [rec_] }
      (st = 1 → s.casc.stale = false → ({ s with casc := c } : State).mismatch = none →
        exec (.tackRecord rec_) s = .next { s with casc := c })) ∧
    (¬member → exec (.cascadeRelease rel) s = .next s) ∧
    (member →
      exec (.cascadeRelease rel) s = .next
        (({ s.form with casc := { s.form.casc with heardAt := s.time } } : State).releaseSelf rel) ∧
      (s.casc.stale = false → rel.master.val = s.casc.master → rel.resync = none →
        (rel.proceed = false → ∃ t, exec (.cascadeRelease rel) s = .next t ∧
          t.rd K.ctackSeq = (s.rd K.ctackSeq + 1) % 2 ^ 64 ∧ t.rd K.cascState = 2 ∧ t.casc.heardAt = s.time ∧
          t.inst i = { s.inst i with cascWait := false, withheld := true } ∧ t.cores = s.cores ∧ t.hbm = s.hbm) ∧
        (∀ n, rel.proceed = true → rel.rejoin = some n → st = 3 → ¬lead → (s.inst i).changes = [] →
          (s.inst i).stepNo - 1 ≠ n → ∃ t, exec (.cascadeRelease rel) s = .next t ∧
            t.rd K.ctackSeq = (s.rd K.ctackSeq + 1) % 2 ^ 64 ∧ t.rd K.rejoins = (s.rd K.rejoins + 1) % 2 ^ 32 ∧
            t.Logged 0x3007 1 ∧ (t.inst i).cascWait = false ∧ t.casc.heardAt = s.time))) ∧
    (st = 0 ∨ (s.inst i).stepOn = true → exec .idleCascadeTack s = .next s) ∧
    (st ≠ 0 → (s.inst i).stepOn = false → exec .idleCascadeTack s = .next (s.cascCapture i) ∧
      (s.isMaster = false → s.casc.stale = false →
        ∃ t, exec .idleCascadeTack s = .next t ∧ t = { s with insts := t.insts, seams := t.seams } ∧
          t.inst i = { s.inst i with cascWait := true, withheld := true, taken := (s.inst i).changes.length } ∧
          (∀ j, j ≠ i → t.inst j = s.inst j) ∧
          ∀ k, (s.nextMember s.casc.master).bind s.seamFor = some k → ∃ x, (t.seam k).tx = (s.seam k).tx ++ [x] ∧
            x.type = 1 ∧ x.src = s.me ∧ x.dst = s.casc.master ∧ x.payload = recordBytes s.myRecord)) ∧
    (let missing := s.isMaster = true ∧ g.val < s.cascM ∧ s.groupOf m.val = g.val ∧ m.val < s.cascSize ∧ (st = 3 ∨ st = 4) ∧
       s.recordOf m.val = none ∧ g.val ∉ s.casc.held
     (missing → ∃ t, exec (.ctackTimeout g m) s = .next t ∧ t.rd K.cascState = 4 ∧ t.Logged 0x3008 1 ∧
       t.casc = { s.casc with held := s.casc.held ++ [g.val] } ∧ t.cores = s.cores ∧ t.insts = s.insts ∧
       ∀ k, k ∉ K.cascState :: logKeys → t.rd k = s.rd k) ∧
     (¬missing → exec (.ctackTimeout g m) s = .next s)) ∧
    (let over_ := st ≠ 0 ∧ (g.val ∈ s.casc.held ∨ (own ∧ s.isMaster = false ∧ (s.inst i).cascWait = true))
     (¬over_ → exec (.holdLimitExpiry g) s = .next s) ∧
     (over_ → ¬own → ∃ t, exec (.holdLimitExpiry g) s = .next t ∧ t.Logged 0x3002 2 ∧
       t.casc = { s.casc with held := s.casc.held.filter fun x => x != g.val } ∧ t.cores = s.cores ∧ t.insts = s.insts ∧
       t.rd K.cascState = (if st = 4 ∧ t.casc.held = [] then 3 else st) ∧
       ∀ k, k ∉ K.cascState :: logKeys → t.rd k = s.rd k) ∧
     (over_ → own →
       ∃ t, exec (.holdLimitExpiry g) s = .next t ∧ t.rd K.cascState = 2 ∧ t.rd K.unfitReason = 5 ∧ g.val ∉ t.casc.held)) ∧
    (¬master → exec (.swapRequest m q) s = .next s) ∧
    (master →
      exec (.swapRequest m q) s = .next { s with casc := { s.casc with swaps := s.casc.swaps ++ [(m.val, q.val)] } }) ∧
    (¬member → exec (.masterLoss reach) s = .next s) ∧
    (member →
      let all := s.me :: (reach.map (·.val)).eraseDups.filter fun m => m != s.me && decide (m < s.cascSize)
      let quorum := s.cascSize < 2 * all.length ∧ s.rd K.masterEligible = 1
      (¬quorum → ∃ t, exec (.masterLoss reach) s = .next t ∧
        s.OnlyEntriesAndLog t [K.cascState, K.unfitReason] ∧ t.rd K.cascState = 2 ∧ t.rd K.unfitReason = 4) ∧
      (quorum → ∃ t, exec (.masterLoss reach) s = .next t ∧ t.rd K.cascState = 2 ∧ t.rd K.unfitReason = 0 ∧
        t.casc.master ∈ all ∧ (∀ x ∈ all, s.memberSerial t.casc.master ≤ s.memberSerial x) ∧
        (t.casc.master ≠ s.casc.master → t.rd K.cascRole = (if t.casc.master = s.me then 2 else 1) ∧
          t.rd K.masterSerial = s.memberSerial t.casc.master) ∧ t.cores = s.cores ∧ t.insts = s.insts)) ∧
    (¬master → exec .timeDistribute s = .next s) ∧
    (master → exec .timeDistribute s = .next (s.sendDown 3 (s.rd K.ctackSeq) (leBytes 8 s.time)) ∧
      ∀ c k, s.childrenOf s.me = [c] → s.seamFor c = some k →
        SendsTo .timeDistribute k 3 (s.rd K.ctackSeq) (leBytes 8 s.time)) ∧
    (st = 0 → exec (.broadcastBlock o bs) s = .next s ∧ exec (.firmwareBlock o bs) s = .next s) ∧
    (st ≠ 0 → exec (.broadcastBlock o bs) s = .next (s.sendDown 0x20 o bs) ∧
      exec (.firmwareBlock o bs) s = .next ((s.fwBlock o bs).1.sendDown 0x22 o bs) ∧
      (∀ c k, s.childrenOf s.me = [c] → s.seamFor c = some k → SendsTo (.broadcastBlock o bs) k 0x20 o bs) ∧
      (s.childrenOf s.me = [] → exec (.broadcastBlock o bs) s = .next s ∧
        exec (.firmwareBlock o bs) s = exec (.fwDataBlock o bs) s)) ∧
    (¬member → exec (.timeMessage mt pd) s = .next s) ∧
    (member → ∃ t, exec (.timeMessage mt pd) s = .next t ∧ t.time = (mt + pd) % 2 ^ 64 ∧ t.wallTaken = true ∧
      t.casc = { s.casc with heardAt := (mt + pd) % 2 ^ 64 } ∧
      t.rd K.timeOffset = unsignedAt 64 ((s.time : Int) - (mt + pd : Nat)) ∧
      (∀ k, k ∉ K.timeOffset :: logKeys → t.rd k = s.rd k) ∧ t.cores = s.cores ∧ t.insts = s.insts ∧
      (s.wallTaken = false → t.Logged 0x0501 0) ∧
      (s.wallTaken = true → t = { s with dict := t.dict, time := t.time, casc := t.casc })) ∧
    (let site := hsSite (sm.val / 2)
     let enters := st ≠ 0 ∧ hsPanel (sm.val / 2) ∈ (s.inst i).panels ∧ (s.router site).failed = false
     (¬enters → exec (.apertureData sm ad) s = .next s) ∧
     (enters → ∃ t, exec (.apertureData sm ad) s = .next t ∧ t = { s with routers := t.routers } ∧
       t.router site = { s.router site with inq := (s.router site).inq ++
         (List.range ((ad.data.length + 4095) / 4096)).map fun j =>
           (portD, { kind := 3, vc := 1, inst := i, srcX := xOf site, srcY := yOf site, group := ad.group.toNat,
                     tag := ad.tag.toNat, taint := ad.taint, addr := ad.addr.toNat + 4096 * j,
                     payload := (ad.data.drop (4096 * j)).take 4096 }) } ∧
       ∀ k, k ≠ site → t.router k = s.router k)) ∧
    (st = 0 ∨ lead → exec (.cascadeStepPlan bs) s = .next s) ∧
    (st ≠ 0 → ¬lead →
      ((s.inst i).cascWait = true → exec (.cascadeStepPlan bs) s = .next { s with casc := { s.casc with plan := bs } }) ∧
      ((s.inst i).cascWait = false → ∃ t, exec (.cascadeStepPlan bs) s = .next t ∧
        t.inst i = { s.inst i with stepOn := true, passes := 0, stepStart := s.time, stepNo := leAt bs 0 8 + 1,
                                   withheld := false, cascWait := false } ∧
        t = { s with insts := t.insts, cores := t.cores, hbm := t.hbm, hbmPoison := t.hbmPoison, hbmErr := t.hbmErr } ∧
        ∀ j, j ≠ i → t.inst j = s.inst j)) ∧
    (¬master → ∀ w, exec (.resendRequest m w) s = .next s) ∧
    (master →
      (∃ t, exec (.resendRequest m (.shard o)) s = .next t ∧ s.OnlyEntriesAndLog t [] ∧ t.Logged 0x3009 0) ∧
      exec (.resendRequest m (.firmware o)) s =
        .next (s.each (s.imageBlocks o) fun u b => u.sendMember m.val 0x22 b.1 b.2)) ∧
    (noLoad → exec .bcastTimeout s = .next s) ∧
    (sound → ∃ t, exec .bcastTimeout s = .next t ∧ Ended t (if s.isMaster && st != 0 then 0x28 else 0x2C))

/-! ## Firmware, keys, test enable -/

/-- Firmware images and their activation, the key store, test enable and recovery. A block of a bad form does nothing, one
that the state of the upload does not take gives result 5; header blocks collect until the header is complete, which is
then accepted or refused with its code and event; chunk blocks collect until the chunk is complete, which its digest then
keeps or drops. The upload's commands, the master's check and the cancellations act in the states that the rules name and
nowhere else. An activation, a rise of the anti-rollback counter and a key package leave their events. A challenge's nonce
is used by one response, and only a good one on a quiet device enables test. Outside recovery its blocks do nothing; a
bootable image ends recovery.
Rests on the readings of log entries 57 and 58. -/
def Obligations.FirmwareKeysAndTestEnable : Prop :=
  ∀ (s : State) (o : Nat) (bs : List Byte) (others : List UploadView),
    let st := s.rd K.fwState
    let act := s.rd K.fwActivateAt
    let now := s.mirror K.timeNow
    let n := s.uploadBank
    let bank := s.bankNo n
    let formed := o % 1024 = 0 ∧ bs.length = 1024 ∧ o + 1024 ≤ headerBytes + 1024 * chunkBytes
    let Takes := fun (t : State) => exec (.fwDataBlock o bs) s = .next t
    let fresh := st ≠ 1
    let old : Bank := if fresh then {} else bank
    let hdr : Bank := { old with
      header := slice old.header 0 o ++ bs ++ old.header.drop (o + 1024)
      hdrBlocks := if old.hdrBlocks.contains (o / 1024) then old.hdrBlocks else old.hdrBlocks ++ [o / 1024] }
    let code := s.headerCode hdr.header
    let k := (o - headerBytes) / chunkBytes
    let has := (mapGet (fun _ => []) bank.chunks k) ≠ []
    let got : Bank := { bank with blocks := mapSet (fun _ => []) bank.blocks ((o - headerBytes) / 1024) bs }
    let whole := (got.blocks.filter fun x => x.1 / 64 == k).length = 64
    let bytes := (List.range 64).flatMap fun j => mapGet (fun _ => []) got.blocks (64 * k + j)
    let rest := got.blocks.filter fun x => x.1 / 64 != k
    let full : Bank := { got with chunks := mapSet (fun _ => []) got.chunks k bytes, blocks := rest }
    let sound := ∀ i, i < 12 → ∀ p ∈ (s.inst i).panels, p < 12
    (¬formed → Takes s) ∧
    (formed →
      ((st = 3 ∨ st = 4 ∨ st = 5 ∨ (st ≠ 2 ∧ headerBytes ≤ o)) →
        ∃ t, Takes t ∧ s.OnlyEntries t [K.fwResult] ∧ t.rd K.fwResult = 5) ∧
      (st = 0 ∨ st = 1 ∨ st = 6 → o < headerBytes →
        (hdr.hdrBlocks.length ≠ 52 → ∃ t, Takes t ∧ t = { s with dict := t.dict, blobs := t.blobs, sec := t.sec } ∧
          t.rd K.fwState = 1 ∧ t.bankNo n = hdr ∧ t.rd K.fwResult = (if fresh then 0 else s.rd K.fwResult)) ∧
        (hdr.hdrBlocks.length = 52 → code ≠ 0 → ∃ t, Takes t ∧ t.rd K.fwState = 6 ∧ t.rd K.fwResult = code ∧
          t.bankNo n = {} ∧ t.Logged 0x4002 1 ∧ t.cores = s.cores ∧ t.hbm = s.hbm) ∧
        (hdr.hdrBlocks.length = 52 → code = 0 → ∃ t, Takes t ∧
          t = { s with dict := t.dict, blobs := t.blobs, sec := t.sec } ∧ t.rd K.fwState = 2 ∧
          t.bankNo n = { hdr with hdrBlocks := [] } ∧ t.rd K.fwImageVersion = fwVer hdr.header ∧
          t.rd K.fwNextOffset = headerBytes + chunkBytes * hdr.nextChunk)) ∧
      (st = 2 → o < headerBytes →
        (slice bank.header o 1024 = bs → Takes s) ∧
        (slice bank.header o 1024 ≠ bs → ∃ t, Takes t ∧ s.OnlyEntries t [K.fwResult] ∧ t.rd K.fwResult = 5)) ∧
      (st = 2 → headerBytes ≤ o →
        (fwChunks bank.header ≤ k ∨ has → Takes s) ∧
        (k < fwChunks bank.header → ¬has →
          (¬whole → Takes (s.setBank n got)) ∧
          (whole → Config.sha384 bytes ≠ slice bank.header (192 + 48 * k) 48 → ∃ t, Takes t ∧
            (s.setBank n { got with blocks := rest }).OnlyEntries t [K.fwResult, K.fwChunkErrors] ∧ t.rd K.fwResult = 4 ∧
            t.rd K.fwChunkErrors = (s.rd K.fwChunkErrors + 1) % 2 ^ 32) ∧
          (whole → Config.sha384 bytes = slice bank.header (192 + 48 * k) 48 → ∃ t, Takes t ∧ t.bankNo n = full ∧
            t.rd K.fwNextOffset = headerBytes + chunkBytes * full.nextChunk ∧
            (full.nextChunk ≠ fwChunks bank.header → (s.setBank n full).OnlyEntries t [K.fwNextOffset]) ∧
            (full.nextChunk = fwChunks bank.header → t.rd K.fwState = 3 ∧ t.Logged 0x4001 0))))) ∧
    (s.sec.recovery = false → exec (.recoveryImageBlock o bs) s = .next s) ∧
    (let u := (s.fwBlock o bs).1
     let boots := (u.rd K.fwState = 2 ∨ u.rd K.fwState = 3) ∧ u.sec.bank0.bootable = true
     s.sec.recovery = true →
      (¬boots → exec (.recoveryImageBlock o bs) s = .next u) ∧
      (boots → ∃ t, exec (.recoveryImageBlock o bs) s = .next t ∧ t.sec.recovery = false ∧ t.rd K.devState = 1 ∧
        t.rd K.bootStage = 1 ∧ t.rd K.fwActiveBank = 0 ∧ t.rd K.fwVersion = fwVer u.sec.bank0.header)) ∧
    (let mayArm := st = 3 ∧ now + 10000000000 ≤ act ∧ act ≤ now + 2592000000000000
     (mayArm → ∃ t, exec .arm s = .next t ∧
       t = { s with dict := t.dict, sec := { s.sec with confirmed := false } } ∧ t.rd K.fwState = 4 ∧
       ∀ k, k ≠ K.fwState → t.rd k = s.rd k) ∧
     (¬mayArm → exec .arm s = .next s)) ∧
    (st = 4 → ∃ t, exec .disarm s = .next t ∧ s.OnlyEntries t [K.fwState] ∧ t.rd K.fwState = 3) ∧
    (st ≠ 4 → exec .disarm s = .next s) ∧
    (1 ≤ st ∧ st ≤ 3 → ∃ t, exec .fwAbort s = .next t ∧ t = { s with dict := t.dict, blobs := t.blobs, sec := t.sec } ∧
      t.rd K.fwState = 0 ∧ t.rd K.fwNextOffset = 0 ∧ t.rd K.fwImageVersion = 0 ∧ t.rd K.fwActivateAt = 0 ∧
      t.bankNo n = {} ∧
      ∀ k, k ∉ [K.fwState, K.fwNextOffset, K.fwImageVersion, K.fwActivateAt] → t.rd k = s.rd k) ∧
    (¬(1 ≤ st ∧ st ≤ 3) → exec .fwAbort s = .next s) ∧
    (∀ role, role ≠ .C ∨ st ≠ 4 → exec (.confirm role) s = .next s ∧ exec (.fwCancel role) s = .next s) ∧
    (st = 4 → exec (.confirm .C) s = .next { s with sec := { s.sec with confirmed := true } } ∧
      ∃ t, exec (.fwCancel .C) s = .next t ∧ s.OnlyEntriesAndLog t [K.fwState, K.fwResult] ∧ t.rd K.fwState = 3 ∧
        t.rd K.fwResult = 7 ∧ t.Logged 0x4004 1) ∧
    (let late := st = 4 ∧ s.rd K.cascState ≠ 0 ∧ s.sec.confirmed = false
     (late → ∃ t, exec .selfCancel s = .next t ∧ s.OnlyEntriesAndLog t [K.fwState, K.fwResult] ∧ t.rd K.fwState = 3 ∧
       t.rd K.fwResult = 6 ∧ t.Logged 0x4004 1) ∧
     (¬late → exec .selfCancel s = .next s)) ∧
    (let master := s.isMaster = true ∧ s.rd K.cascState ≠ 0
     let alike := st = 4 ∧ ∀ m, m < s.cascSize → m ≠ s.me → ∃ v ∈ others, v.member.val = m ∧ v.reachable = true ∧
       v.fwState = 4 ∧ v.activateAt = act ∧ v.imageDigest = s.blob K.fwImageDigest
     let tells := fun (cmd : Nat) => s.each ((List.range s.cascSize).filter fun m => m != s.me) fun u m =>
       u.sendMember m 4 (s.rd K.ctackSeq) (leBytes 2 0x8000 ++ leBytes 1 2 ++ leBytes 1 cmd)
     (¬master → exec (.activationCheck others) s = .next s) ∧
     (master → alike →
       exec (.activationCheck others) s = .next { tells 4 with sec := { s.sec with confirmed := true } }) ∧
     (master → ¬alike → st ≠ 4 → exec (.activationCheck others) s = .next (tells 5)) ∧
     (master → ¬alike → st = 4 → ∃ t, exec (.activationCheck others) s = .next t ∧
       (tells 5).OnlyEntriesAndLog t [K.fwState, K.fwResult] ∧ t.rd K.fwState = 3 ∧ t.rd K.fwResult = 7 ∧
       t.Logged 0x4004 1)) ∧
    (let due := st = 4 ∧ (s.rd K.cascState = 0 ∨ s.sec.confirmed = true)
     (¬due → exec .fwActivate s = .next s) ∧
     (due → sound → ∃ t, exec .fwActivate s = .next t ∧ t.rd K.fwActiveBank = n ∧ t.rd K.fwState = 0 ∧
       t.rd K.fwVersion = fwVer bank.header ∧ t.rd K.fwPending = (s.rd K.fwPending ||| pendingBits bank.header) ∧
       t.sec.holding = true ∧ t.sec.watchdogs = 0 ∧
       t.rd K.mgResets = (s.rd K.mgResets + 1) % 2 ^ 32 ∧ t.Logged 0x4005 0)) ∧
    (s.sec.holding = false → exec .svnHoldExpiry s = .next s) ∧
    (s.sec.holding = true →
      let svn := fwSvn (s.bankNo (s.rd K.fwActiveBank)).header
      (s.rd K.svnCounter < svn → ∃ t, exec .svnHoldExpiry s = .next t ∧
        t.rd K.svnCounter = svn % 256 ∧ t.Logged 0x4007 0 ∧ (∀ k, k ∉ K.svnCounter :: logKeys → t.rd k = s.rd k) ∧
        t.sec = { s.sec with holding := false, watchdogs := 0 }) ∧
      (svn ≤ s.rd K.svnCounter →
        exec .svnHoldExpiry s = .next { s with sec := { s.sec with holding := false, watchdogs := 0 } })) ∧
    (st = 0 ∨ st = 6 →
      (s.pkgOk s.sec.pkg = true → ∃ t, exec .keyCmd s = .next t ∧
        t.rd K.keySlot = (if s.rd K.keySlot = 0 then 1 else 0) ∧
        t.rd K.keySeq = leAt s.sec.pkg 0 4 ∧ t.rd K.keyResult = 1 ∧
        t.keyInForce = slice s.sec.pkg 0 2304 ++ commitRecord (slice s.sec.pkg 0 2304) ∧ t.Logged 0x4008 0 ∧
        ∀ k, k ∉ K.keySlot :: K.keySeq :: K.keyResult :: logKeys → t.rd k = s.rd k) ∧
      (s.pkgOk s.sec.pkg = false → ∃ t, exec .keyCmd s = .next t ∧ s.OnlyEntriesAndLog t [K.keyResult] ∧
        t.rd K.keyResult = 2 ∧ t.Logged 0x4009 1)) ∧
    (st ≠ 0 → st ≠ 6 → exec .keyCmd s = .next s) ∧
    (∃ t n, exec .dbgChallenge s = .next t ∧ t = { s with freeNext := s.freeNext + 4, sec := { s.sec with nonce := some n } } ∧
      n.length = 32) ∧
    (s.sec.nonce = none → exec (.dbgResponse bs) s = .next s) ∧
    (∀ n, s.sec.nonce = some n →
      let used := { s with sec := { s.sec with nonce := none } }
      let good := s.allIn [0, 1] = true ∧ (∀ k, k < 512 → s.rd (K.slotState k) = 0) ∧
        Config.ecdsaOk (slice s.keyInForce 2053 97) (n ++ leBytes 8 (s.rd K.serial)) bs = true
      (good → ∃ t, exec (.dbgResponse bs) s = .next t ∧ used.OnlyEntriesAndLog t [K.testEnable] ∧
        t.rd K.testEnable = 1 ∧ t.Logged 0x400A 2) ∧
      (¬good → exec (.dbgResponse bs) s = .next used))

/-! ## Reset and the memories -/

/-- Reset: no command waits, and the entries whose reset value the spec states hold it; a granule has no owner;
memories list nothing; no instance holds a panel. -/
def Obligations.ResetHoldsStatedValues : Prop :=
  State.reset.pending = [] ∧ State.reset.memoriesWf = true ∧ State.reset.hbm = [] ∧ State.reset.hostMem = [] ∧
  (∀ c, (State.reset.core c).sp = []) ∧
  (∀ n, n < 8 → State.reset.rd (K.cplTimeout n) = 50000 ∧ State.reset.rd (K.pcieMaxRate n) = 6 ∧
    State.reset.rd (K.pcieRate n) = 0) ∧
  (∀ n, n < 16 → State.reset.rd (K.hbmTimeout n) = 200 ∧ State.reset.rd (K.hbmState n) = 0) ∧
  (∀ c g, mapGet (fun _ => 0x3FF) (State.reset.core c).owner g = 0x3FF) ∧
  (∀ w, (State.reset.window w).valid = false) ∧ ∀ i, i < 12 → State.reset.rd (K.instState i) = 0 ∧ (State.reset.inst i).panels = []

/-- Every Idmor instruction leaves every memory in its canonical form: the HBM stacks, host memory and every
scratchpad. -/
def Obligations.IdmorInstructionsKeepMemoriesCanonical : Prop :=
  ∀ (s t : State) (i : Instr) (w : BitVec 64), encodeIdmor i = some w → s.memoriesWf = true →
    step { s with pending := [i] } = .next t → t.memoriesWf = true
end

