-- ==== Sys2Proof/Laws/Exec.lean ====
section
/-! SUPPORT. What `exec` is for each command: the meaning of its own arm. -/

namespace Sys2Proof.Machine

@[simp] theorem exec_nop (c : CoreId) (g : Guard) (f : CtlF) (σ : State) :
    exec (.nop c g f) σ = execNop c g f σ := rfl
@[simp] theorem exec_halt (c : CoreId) (g : Guard) (f : CtlF) (σ : State) :
    exec (.halt c g f) σ = execHalt c g f σ := rfl
@[simp] theorem exec_br (c : CoreId) (g : Guard) (f : CtlF) (σ : State) :
    exec (.br c g f) σ = execBr c g f σ := rfl
@[simp] theorem exec_brr (c : CoreId) (g : Guard) (f : CtlF) (σ : State) :
    exec (.brr c g f) σ = execBrr c g f σ := rfl
@[simp] theorem exec_callI (c : CoreId) (g : Guard) (f : CtlF) (σ : State) :
    exec (.callI c g f) σ = execCall c g f σ := rfl
@[simp] theorem exec_ret (c : CoreId) (g : Guard) (f : CtlF) (σ : State) :
    exec (.ret c g f) σ = execRet c g f σ := rfl
@[simp] theorem exec_loopI (c : CoreId) (g : Guard) (f : CtlF) (σ : State) :
    exec (.loopI c g f) σ = execLoop c g f σ := rfl
@[simp] theorem exec_brk (c : CoreId) (g : Guard) (f : CtlF) (σ : State) :
    exec (.brk c g f) σ = execBrk c g f σ := rfl
@[simp] theorem exec_add (c : CoreId) (g : Guard) (f : ScalF) (σ : State) :
    exec (.add c g f) σ = execAdd c g f σ := rfl
@[simp] theorem exec_sub (c : CoreId) (g : Guard) (f : ScalF) (σ : State) :
    exec (.sub c g f) σ = execSub c g f σ := rfl
@[simp] theorem exec_mul (c : CoreId) (g : Guard) (f : ScalF) (σ : State) :
    exec (.mul c g f) σ = execMul c g f σ := rfl
@[simp] theorem exec_andI (c : CoreId) (g : Guard) (f : ScalF) (σ : State) :
    exec (.andI c g f) σ = execAnd c g f σ := rfl
@[simp] theorem exec_orI (c : CoreId) (g : Guard) (f : ScalF) (σ : State) :
    exec (.orI c g f) σ = execOr c g f σ := rfl
@[simp] theorem exec_xorI (c : CoreId) (g : Guard) (f : ScalF) (σ : State) :
    exec (.xorI c g f) σ = execXor c g f σ := rfl
@[simp] theorem exec_shl (c : CoreId) (g : Guard) (f : ScalF) (σ : State) :
    exec (.shl c g f) σ = execShl c g f σ := rfl
@[simp] theorem exec_shr (c : CoreId) (g : Guard) (f : ScalF) (σ : State) :
    exec (.shr c g f) σ = execShr c g f σ := rfl
@[simp] theorem exec_sra (c : CoreId) (g : Guard) (f : ScalF) (σ : State) :
    exec (.sra c g f) σ = execSra c g f σ := rfl
@[simp] theorem exec_min (c : CoreId) (g : Guard) (f : ScalF) (σ : State) :
    exec (.min c g f) σ = execMin c g f σ := rfl
@[simp] theorem exec_max (c : CoreId) (g : Guard) (f : ScalF) (σ : State) :
    exec (.max c g f) σ = execMax c g f σ := rfl
@[simp] theorem exec_minu (c : CoreId) (g : Guard) (f : ScalF) (σ : State) :
    exec (.minu c g f) σ = execMinu c g f σ := rfl
@[simp] theorem exec_maxu (c : CoreId) (g : Guard) (f : ScalF) (σ : State) :
    exec (.maxu c g f) σ = execMaxu c g f σ := rfl
@[simp] theorem exec_cmpeq (c : CoreId) (g : Guard) (f : ScalF) (σ : State) :
    exec (.cmpeq c g f) σ = execCmpeq c g f σ := rfl
@[simp] theorem exec_cmplt (c : CoreId) (g : Guard) (f : ScalF) (σ : State) :
    exec (.cmplt c g f) σ = execCmplt c g f σ := rfl
@[simp] theorem exec_cmpltu (c : CoreId) (g : Guard) (f : ScalF) (σ : State) :
    exec (.cmpltu c g f) σ = execCmpltu c g f σ := rfl
@[simp] theorem exec_mov (c : CoreId) (g : Guard) (f : ScalF) (σ : State) :
    exec (.mov c g f) σ = execMov c g f σ := rfl
@[simp] theorem exec_sld (c : CoreId) (g : Guard) (f : ScalF) (σ : State) :
    exec (.sld c g f) σ = execSld c g f σ := rfl
@[simp] theorem exec_sst (c : CoreId) (g : Guard) (f : ScalF) (σ : State) :
    exec (.sst c g f) σ = execSst c g f σ := rfl
@[simp] theorem exec_mmv (c : CoreId) (g : Guard) (f : EngF) (σ : State) :
    exec (.mmv c g f) σ = execMmv c g f σ := rfl
@[simp] theorem exec_bflush (c : CoreId) (g : Guard) (f : EngF) (σ : State) :
    exec (.bflush c g f) σ = execBflush c g f σ := rfl
@[simp] theorem exec_bzero (c : CoreId) (g : Guard) (f : EngF) (σ : State) :
    exec (.bzero c g f) σ = execBzero c g f σ := rfl
@[simp] theorem exec_csum (c : CoreId) (g : Guard) (f : EngF) (σ : State) :
    exec (.csum c g f) σ = execCsum c g f σ := rfl
@[simp] theorem exec_ectlw (c : CoreId) (g : Guard) (f : EngF) (σ : State) :
    exec (.ectlw c g f) σ = execEctlw c g f σ := rfl
@[simp] theorem exec_fld (c : CoreId) (g : Guard) (f : FinF) (σ : State) :
    exec (.fld c g f) σ = execFld c g f σ := rfl
@[simp] theorem exec_fst (c : CoreId) (g : Guard) (f : FinF) (σ : State) :
    exec (.fst c g f) σ = execFst c g f σ := rfl
@[simp] theorem exec_fcvt (c : CoreId) (g : Guard) (f : FinF) (σ : State) :
    exec (.fcvt c g f) σ = execFcvt c g f σ := rfl
@[simp] theorem exec_fadd (c : CoreId) (g : Guard) (f : FinF) (σ : State) :
    exec (.fadd c g f) σ = execFadd c g f σ := rfl
@[simp] theorem exec_fsub (c : CoreId) (g : Guard) (f : FinF) (σ : State) :
    exec (.fsub c g f) σ = execFsub c g f σ := rfl
@[simp] theorem exec_fmul (c : CoreId) (g : Guard) (f : FinF) (σ : State) :
    exec (.fmul c g f) σ = execFmul c g f σ := rfl
@[simp] theorem exec_ffma (c : CoreId) (g : Guard) (f : FinF) (σ : State) :
    exec (.ffma c g f) σ = execFfma c g f σ := rfl
@[simp] theorem exec_fmin (c : CoreId) (g : Guard) (f : FinF) (σ : State) :
    exec (.fmin c g f) σ = execFmin c g f σ := rfl
@[simp] theorem exec_fmax (c : CoreId) (g : Guard) (f : FinF) (σ : State) :
    exec (.fmax c g f) σ = execFmax c g f σ := rfl
@[simp] theorem exec_fcmp (c : CoreId) (g : Guard) (f : FinF) (σ : State) :
    exec (.fcmp c g f) σ = execFcmp c g f σ := rfl
@[simp] theorem exec_fneg (c : CoreId) (g : Guard) (f : FinF) (σ : State) :
    exec (.fneg c g f) σ = execFneg c g f σ := rfl
@[simp] theorem exec_fabs (c : CoreId) (g : Guard) (f : FinF) (σ : State) :
    exec (.fabs c g f) σ = execFabs c g f σ := rfl
@[simp] theorem exec_fcvtb (c : CoreId) (g : Guard) (f : FinF) (σ : State) :
    exec (.fcvtb c g f) σ = execFcvtb c g f σ := rfl
@[simp] theorem exec_funp (c : CoreId) (g : Guard) (f : FinF) (σ : State) :
    exec (.funp c g f) σ = execFunp c g f σ := rfl
@[simp] theorem exec_frcp (c : CoreId) (g : Guard) (f : FinF) (σ : State) :
    exec (.frcp c g f) σ = execFrcp c g f σ := rfl
@[simp] theorem exec_fsqrt (c : CoreId) (g : Guard) (f : FinF) (σ : State) :
    exec (.fsqrt c g f) σ = execFsqrt c g f σ := rfl
@[simp] theorem exec_frsq (c : CoreId) (g : Guard) (f : FinF) (σ : State) :
    exec (.frsq c g f) σ = execFrsq c g f σ := rfl
@[simp] theorem exec_fexp (c : CoreId) (g : Guard) (f : FinF) (σ : State) :
    exec (.fexp c g f) σ = execFexp c g f σ := rfl
@[simp] theorem exec_fexp2 (c : CoreId) (g : Guard) (f : FinF) (σ : State) :
    exec (.fexp2 c g f) σ = execFexp2 c g f σ := rfl
@[simp] theorem exec_flog (c : CoreId) (g : Guard) (f : FinF) (σ : State) :
    exec (.flog c g f) σ = execFlog c g f σ := rfl
@[simp] theorem exec_flog2 (c : CoreId) (g : Guard) (f : FinF) (σ : State) :
    exec (.flog2 c g f) σ = execFlog2 c g f σ := rfl
@[simp] theorem exec_fact (c : CoreId) (g : Guard) (f : FinF) (σ : State) :
    exec (.fact c g f) σ = execFact c g f σ := rfl
@[simp] theorem exec_fsum (c : CoreId) (g : Guard) (f : FinF) (σ : State) :
    exec (.fsum c g f) σ = execFsum c g f σ := rfl
@[simp] theorem exec_fdot (c : CoreId) (g : Guard) (f : FinF) (σ : State) :
    exec (.fdot c g f) σ = execFdot c g f σ := rfl
@[simp] theorem exec_frms (c : CoreId) (g : Guard) (f : FinF) (σ : State) :
    exec (.frms c g f) σ = execFrms c g f σ := rfl
@[simp] theorem exec_flnorm (c : CoreId) (g : Guard) (f : FinF) (σ : State) :
    exec (.flnorm c g f) σ = execFlnorm c g f σ := rfl
@[simp] theorem exec_fquant (c : CoreId) (g : Guard) (f : FinF) (σ : State) :
    exec (.fquant c g f) σ = execFquant c g f σ := rfl
@[simp] theorem exec_falt (c : CoreId) (g : Guard) (f : FinF) (σ : State) :
    exec (.falt c g f) σ = execFalt c g f σ := rfl
@[simp] theorem exec_fqk (c : CoreId) (g : Guard) (f : FinF) (σ : State) :
    exec (.fqk c g f) σ = execFqk c g f σ := rfl
@[simp] theorem exec_fsmx (c : CoreId) (g : Guard) (f : FinF) (σ : State) :
    exec (.fsmx c g f) σ = execFsmx c g f σ := rfl
@[simp] theorem exec_fpv (c : CoreId) (g : Guard) (f : FinF) (σ : State) :
    exec (.fpv c g f) σ = execFpv c g f σ := rfl
@[simp] theorem exec_femb (c : CoreId) (g : Guard) (f : FinF) (σ : State) :
    exec (.femb c g f) σ = execFemb c g f σ := rfl
@[simp] theorem exec_qpush (c : CoreId) (g : Guard) (f : MovF) (σ : State) :
    exec (.qpush c g f) σ = execQpush c g f σ := rfl
@[simp] theorem exec_pwalk (c : CoreId) (g : Guard) (f : MovF) (σ : State) :
    exec (.pwalk c g f) σ = execPwalk c g f σ := rfl
@[simp] theorem exec_qwait (c : CoreId) (g : Guard) (f : MovF) (σ : State) :
    exec (.qwait c g f) σ = execQwait c g f σ := rfl
@[simp] theorem exec_qexp (c : CoreId) (g : Guard) (f : MovF) (σ : State) :
    exec (.qexp c g f) σ = execQexp c g f σ := rfl
@[simp] theorem exec_nget (c : CoreId) (g : Guard) (f : MovF) (σ : State) :
    exec (.nget c g f) σ = execNget c g f σ := rfl
@[simp] theorem exec_nput (c : CoreId) (g : Guard) (f : MovF) (σ : State) :
    exec (.nput c g f) σ = execNput c g f σ := rfl
@[simp] theorem exec_rget (c : CoreId) (g : Guard) (f : MovF) (σ : State) :
    exec (.rget c g f) σ = execRget c g f σ := rfl
@[simp] theorem exec_rput (c : CoreId) (g : Guard) (f : MovF) (σ : State) :
    exec (.rput c g f) σ = execRput c g f σ := rfl
@[simp] theorem exec_mcast (c : CoreId) (g : Guard) (f : MovF) (σ : State) :
    exec (.mcast c g f) σ = execMcast c g f σ := rfl
@[simp] theorem exec_rsend (c : CoreId) (g : Guard) (f : MovF) (σ : State) :
    exec (.rsend c g f) σ = execRsend c g f σ := rfl
@[simp] theorem exec_tack (c : CoreId) (g : Guard) (f : SyncF) (σ : State) :
    exec (.tack c g f) σ = execTack c g f σ := rfl
@[simp] theorem exec_fenceI (c : CoreId) (g : Guard) (f : SyncF) (σ : State) :
    exec (.fenceI c g f) σ = execFence c g f σ := rfl
@[simp] theorem exec_waitI (c : CoreId) (g : Guard) (f : SyncF) (σ : State) :
    exec (.waitI c g f) σ = execWait c g f σ := rfl
@[simp] theorem exec_noteI (c : CoreId) (g : Guard) (f : SyncF) (σ : State) :
    exec (.noteI c g f) σ = execNote c g f σ := rfl
@[simp] theorem exec_gown (c : CoreId) (g : Guard) (f : SyncF) (σ : State) :
    exec (.gown c g f) σ = execGown c g f σ := rfl
@[simp] theorem exec_ctop (c : CoreId) (g : Guard) (f : SampF) (σ : State) :
    exec (.ctop c g f) σ = execCtop c g f σ := rfl
@[simp] theorem exec_csend (c : CoreId) (g : Guard) (f : SampF) (σ : State) :
    exec (.csend c g f) σ = execCsend c g f σ := rfl
@[simp] theorem exec_spick (c : CoreId) (g : Guard) (f : SampF) (σ : State) :
    exec (.spick c g f) σ = execSpick c g f σ := rfl
@[simp] theorem exec_sacc (c : CoreId) (g : Guard) (f : SampF) (σ : State) :
    exec (.sacc c g f) σ = execSacc c g f σ := rfl
@[simp] theorem exec_trapDrainEnd (i : InstId) (σ : State) :
    exec (.trapDrainEnd i) σ = execTrapDrainEnd i σ := rfl
@[simp] theorem exec_tackOverdue (i : InstId) (σ : State) :
    exec (.tackOverdue i) σ = execTackOverdue i σ := rfl
@[simp] theorem exec_enginePass (c : CoreId) (p : Pos) (σ : State) :
    exec (.enginePass c p) σ = execEnginePass c p σ := rfl
@[simp] theorem exec_boltSetPost (c : CoreId) (p : Pos) (σ : State) :
    exec (.boltSetPost c p) σ = execBoltSetPost c p σ := rfl
@[simp] theorem exec_boltZero (c : CoreId) (p : Pos) (σ : State) :
    exec (.boltZero c p) σ = execBoltZero c p σ := rfl
@[simp] theorem exec_checkRead (c : CoreId) (p : Pos) (σ : State) :
    exec (.checkRead c p) σ = execCheckRead c p σ := rfl
@[simp] theorem exec_scrubCheckRead (c : CoreId) (e : EngId) (σ : State) :
    exec (.scrubCheckRead c e) σ = execScrubCheckRead c e σ := rfl
@[simp] theorem exec_goldenFetchDone (c : CoreId) (e : EngId) (hostImage : List Byte) (σ : State) :
    exec (.goldenFetchDone c e hostImage) σ = execGoldenFetchDone c e hostImage σ := rfl
@[simp] theorem exec_goldenFetchRetry (c : CoreId) (e : EngId) (σ : State) :
    exec (.goldenFetchRetry c e) σ = execGoldenFetchRetry c e σ := rfl
@[simp] theorem exec_gussetCopyVerified (c : CoreId) (ok : Bool) (σ : State) :
    exec (.gussetCopyVerified c ok) σ = execGussetCopyVerified c ok σ := rfl
@[simp] theorem exec_reprogramVerified (c : CoreId) (e : EngId) (ok : Bool) (σ : State) :
    exec (.reprogramVerified c e ok) σ = execReprogramVerified c e ok σ := rfl
@[simp] theorem exec_eventQueueDrain (c : CoreId) (e : EngId) (σ : State) :
    exec (.eventQueueDrain c e) σ = execEventQueueDrain c e σ := rfl
@[simp] theorem exec_fcWeightFetchDone (c : CoreId) (slot : Fin 2) (hostImage : List Byte) (σ : State) :
    exec (.fcWeightFetchDone c slot hostImage) σ = execFcWeightFetchDone c slot hostImage σ := rfl
@[simp] theorem exec_fcRecompute (c : CoreId) (slot : Fin 2) (tile : Fin 512) (σ : State) :
    exec (.fcRecompute c slot tile) σ = execFcRecompute c slot tile σ := rfl
@[simp] theorem exec_fcDeadline (c : CoreId) (slot : Fin 2) (σ : State) :
    exec (.fcDeadline c slot) σ = execFcDeadline c slot σ := rfl
@[simp] theorem exec_scratchpadScrub (c : CoreId) (word : Fin 786432) (found : Ecc) (σ : State) :
    exec (.scratchpadScrub c word found) σ = execScratchpadScrub c word found σ := rfl
@[simp] theorem exec_granuleZero (c : CoreId) (g : Fin 1536) (σ : State) :
    exec (.granuleZero c g) σ = execGranuleZero c g σ := rfl
@[simp] theorem exec_flitReceive (l : LinkId) (d : LinkWay) (bursts : List Burst) (crcOk : Bool) (σ : State) :
    exec (.flitReceive l d bursts crcOk) σ = execFlitReceive l d bursts crcOk σ := rfl
@[simp] theorem exec_replayRequest (l : LinkId) (d : LinkWay) (seq : BitVec 8) (σ : State) :
    exec (.replayRequest l d seq) σ = execReplayRequest l d seq σ := rfl
@[simp] theorem exec_routerFail (r : CoreId) (σ : State) :
    exec (.routerFail r) σ = execRouterFail r σ := rfl
@[simp] theorem exec_packetRoute (r : CoreId) (σ : State) :
    exec (.packetRoute r) σ = execPacketRoute r σ := rfl
@[simp] theorem exec_multicastDelivery (r : CoreId) (σ : State) :
    exec (.multicastDelivery r) σ = execMulticastDelivery r σ := rfl
@[simp] theorem exec_reductionCombine (r : CoreId) (group : Fin 64) (σ : State) :
    exec (.reductionCombine r group) σ = execReductionCombine r group σ := rfl
@[simp] theorem exec_remoteRequest (c : CoreId) (σ : State) :
    exec (.remoteRequest c) σ = execRemoteRequest c σ := rfl
@[simp] theorem exec_remoteResponse (c : CoreId) (σ : State) :
    exec (.remoteResponse c) σ = execRemoteResponse c σ := rfl
@[simp] theorem exec_rqTimeout (c : CoreId) (what : RqWhat) (σ : State) :
    exec (.rqTimeout c what) σ = execRqTimeout c what σ := rfl
@[simp] theorem exec_neighborRefusal (c : CoreId) (σ : State) :
    exec (.neighborRefusal c) σ = execNeighborRefusal c σ := rfl
@[simp] theorem exec_tackCombine (r : CoreId) (σ : State) :
    exec (.tackCombine r) σ = execTackCombine r σ := rfl
@[simp] theorem exec_idleTack (i : InstId) (σ : State) :
    exec (.idleTack i) σ = execIdleTack i σ := rfl
@[simp] theorem exec_tackCapture (i : InstId) (σ : State) :
    exec (.tackCapture i) σ = execTackCapture i σ := rfl
@[simp] theorem exec_tackRelease (c : CoreId) (σ : State) :
    exec (.tackRelease c) σ = execTackRelease c σ := rfl
@[simp] theorem exec_darnSetReady (entries : List DarnWrite) (σ : State) :
    exec (.darnSetReady entries) σ = execDarnSetReady entries σ := rfl
@[simp] theorem exec_dmaTransferDone (c : CoreId) (ch : Fin 8) (hostData : List Byte) (hostError : Bool) (σ : State) :
    exec (.dmaTransferDone c ch hostData hostError) σ = execDmaTransferDone c ch hostData hostError σ := rfl
@[simp] theorem exec_pageWalkDone (c : CoreId) (ch : Fin 8) (σ : State) :
    exec (.pageWalkDone c ch) σ = execPageWalkDone c ch σ := rfl
@[simp] theorem exec_candidateMerge (c : CoreId) (σ : State) :
    exec (.candidateMerge c) σ = execCandidateMerge c σ := rfl
@[simp] theorem exec_draftAcceptMessage (i : InstId) (m : DraftMsg) (σ : State) :
    exec (.draftAcceptMessage i m) σ = execDraftAcceptMessage i m σ := rfl
@[simp] theorem exec_draftMessage (i : InstId) (m : DraftMsg) (σ : State) :
    exec (.draftMessage i m) σ = execDraftMessage i m σ := rfl
@[simp] theorem exec_dropMessage (i : InstId) (m : DraftMsg) (σ : State) :
    exec (.dropMessage i m) σ = execDropMessage i m σ := rfl
@[simp] theorem exec_swapOutCopyDone (sequence : Fin 65536) (entry : Nat) (ok : Bool) (σ : State) :
    exec (.swapOutCopyDone sequence entry ok) σ = execSwapOutCopyDone sequence entry ok σ := rfl
@[simp] theorem exec_swapInCopyDone (sequence : Fin 65536) (entry : Nat) (page : List Byte) (ok : Bool) (σ : State) :
    exec (.swapInCopyDone sequence entry page ok) σ = execSwapInCopyDone sequence entry page ok σ := rfl
@[simp] theorem exec_pageZeroDone (i : InstId) (page : Nat) (σ : State) :
    exec (.pageZeroDone i page) σ = execPageZeroDone i page σ := rfl
@[simp] theorem exec_generate (slot : SlotId) (r : ReqArgs) (σ : State) :
    exec (.generate slot r) σ = execGenerate slot r σ := rfl
@[simp] theorem exec_append (slot : SlotId) (r : ReqArgs) (σ : State) :
    exec (.append slot r) σ = execAppend slot r σ := rfl
@[simp] theorem exec_truncate (slot : SlotId) (r : ReqArgs) (σ : State) :
    exec (.truncate slot r) σ = execTruncate slot r σ := rfl
@[simp] theorem exec_park (slot : SlotId) (r : ReqArgs) (σ : State) :
    exec (.park slot r) σ = execPark slot r σ := rfl
@[simp] theorem exec_release (slot : SlotId) (r : ReqArgs) (σ : State) :
    exec (.release slot r) σ = execRelease slot r σ := rfl
@[simp] theorem exec_requestCancel (slot : SlotId) (r : ReqArgs) (σ : State) :
    exec (.requestCancel slot r) σ = execRequestCancel slot r σ := rfl
@[simp] theorem exec_sqTail (slot : SlotId) (value : Word64) (σ : State) :
    exec (.sqTail slot value) σ = execSqTail slot value σ := rfl
@[simp] theorem exec_cqHead (slot : SlotId) (value : Word64) (σ : State) :
    exec (.cqHead slot value) σ = execCqHead slot value σ := rfl
@[simp] theorem exec_ringCfgWrite (slot : SlotId) (completion base : Bool) (value : Word64) (σ : State) :
    exec (.ringCfgWrite slot completion base value) σ = execRingCfgWrite slot completion base value σ := rfl
@[simp] theorem exec_interimCompletion (slot : SlotId) (key : Nat) (σ : State) :
    exec (.interimCompletion slot key) σ = execInterimCompletion slot key σ := rfl
@[simp] theorem exec_frpSubmit (d : FrpDatagram) (σ : State) :
    exec (.frpSubmit d) σ = execFrpSubmit d σ := rfl
@[simp] theorem exec_frpData (d : FrpDatagram) (σ : State) :
    exec (.frpData d) σ = execFrpData d σ := rfl
@[simp] theorem exec_frpAck (d : FrpDatagram) (σ : State) :
    exec (.frpAck d) σ = execFrpAck d σ := rfl
@[simp] theorem exec_frpKeepalive (d : FrpDatagram) (σ : State) :
    exec (.frpKeepalive d) σ = execFrpKeepalive d σ := rfl
@[simp] theorem exec_frpAckDue (slot : SlotId) (assoc : Nat) (σ : State) :
    exec (.frpAckDue slot assoc) σ = execFrpAckDue slot assoc σ := rfl
@[simp] theorem exec_frpRetransmit (slot : SlotId) (d : FrpSent) (σ : State) :
    exec (.frpRetransmit slot d) σ = execFrpRetransmit slot d σ := rfl
@[simp] theorem exec_frpAssocIdle (slot : SlotId) (assoc : Nat) (σ : State) :
    exec (.frpAssocIdle slot assoc) σ = execFrpAssocIdle slot assoc σ := rfl
@[simp] theorem exec_frpRequestIncomplete (slot : SlotId) (key : Nat) (σ : State) :
    exec (.frpRequestIncomplete slot key) σ = execFrpRequestIncomplete slot key σ := rfl
@[simp] theorem exec_dedupWindowExpiry (slot : SlotId) (key : Nat) (σ : State) :
    exec (.dedupWindowExpiry slot key) σ = execDedupWindowExpiry slot key σ := rfl
@[simp] theorem exec_irqCoalesce (slot : SlotId) (σ : State) :
    exec (.irqCoalesce slot) σ = execIrqCoalesce slot σ := rfl
@[simp] theorem exec_form (i : InstId) (σ : State) :
    exec (.form i) σ = execForm i σ := rfl
@[simp] theorem exec_dissolve (i : InstId) (σ : State) :
    exec (.dissolve i) σ = execDissolve i σ := rfl
@[simp] theorem exec_load (i : InstId) (σ : State) :
    exec (.load i) σ = execLoad i σ := rfl
@[simp] theorem exec_unload (i : InstId) (σ : State) :
    exec (.unload i) σ = execUnload i σ := rfl
@[simp] theorem exec_instanceStop (i : InstId) (σ : State) :
    exec (.instanceStop i) σ = execInstanceStop i σ := rfl
@[simp] theorem exec_resume (i : InstId) (σ : State) :
    exec (.resume i) σ = execResume i σ := rfl
@[simp] theorem exec_clearFault (i : InstId) (muslin : List MuslinResult) (σ : State) :
    exec (.clearFault i muslin) σ = execClearFault i muslin σ := rfl
@[simp] theorem exec_abortLoad (i : InstId) (σ : State) :
    exec (.abortLoad i) σ = execAbortLoad i σ := rfl
@[simp] theorem exec_instanceZeroingDone (i : InstId) (σ : State) :
    exec (.instanceZeroingDone i) σ = execInstanceZeroingDone i σ := rfl
@[simp] theorem exec_shardVerified (i : InstId) (shard : Fetched) (σ : State) :
    exec (.shardVerified i shard) σ = execShardVerified i shard σ := rfl
@[simp] theorem exec_tileProgrammed (i : InstId) (tile : Nat) (ok : Bool) (σ : State) :
    exec (.tileProgrammed i tile ok) σ = execTileProgrammed i tile ok σ := rfl
@[simp] theorem exec_recheckRound (i : InstId) (σ : State) :
    exec (.recheckRound i) σ = execRecheckRound i σ := rfl
@[simp] theorem exec_recheckShardDone (i : InstId) (shard : Nat) (refetched : Option (List Byte)) (σ : State) :
    exec (.recheckShardDone i shard refetched) σ = execRecheckShardDone i shard refetched σ := rfl
@[simp] theorem exec_store (i : InstId) (σ : State) :
    exec (.store i) σ = execStore i σ := rfl
@[simp] theorem exec_deleteCmd (i : InstId) (σ : State) :
    exec (.deleteCmd i) σ = execDelete i σ := rfl
@[simp] theorem exec_enable (slot : SlotId) (σ : State) :
    exec (.enable slot) σ = execEnable slot σ := rfl
@[simp] theorem exec_disable (slot : SlotId) (σ : State) :
    exec (.disable slot) σ = execDisable slot σ := rfl
@[simp] theorem exec_slotReset (slot : SlotId) (σ : State) :
    exec (.slotReset slot) σ = execSlotReset slot σ := rfl
@[simp] theorem exec_teardownSettle (slot : SlotId) (σ : State) :
    exec (.teardownSettle slot) σ = execTeardownSettle slot σ := rfl
@[simp] theorem exec_abortCompletionDiscard (slot : SlotId) (σ : State) :
    exec (.abortCompletionDiscard slot) σ = execAbortCompletionDiscard slot σ := rfl
@[simp] theorem exec_frpKeyWrite (slot : SlotId) (key : List Byte) (σ : State) :
    exec (.frpKeyWrite slot key) σ = execFrpKeyWrite slot key σ := rfl
@[simp] theorem exec_altBindingWrite (slot : SlotId) (value : BitVec 16) (σ : State) :
    exec (.altBindingWrite slot value) σ = execAltBindingWrite slot value σ := rfl
@[simp] theorem exec_functionLevelReset (slot : SlotId) (σ : State) :
    exec (.functionLevelReset slot) σ = execFunctionLevelReset slot σ := rfl
@[simp] theorem exec_perst (n : PortId) (σ : State) :
    exec (.perst n) σ = execPerst n σ := rfl
@[simp] theorem exec_perstRelease (n : PortId) (refclkPpm : Option Int) (rate : Nat) (width : Nat) (σ : State) :
    exec (.perstRelease n refclkPpm rate width) σ = execPerstRelease n refclkPpm rate width σ := rfl
@[simp] theorem exec_vfEnableClear (n : PortId) (σ : State) :
    exec (.vfEnableClear n) σ = execVfEnableClear n σ := rfl
@[simp] theorem exec_busMasterEnableSet (n : PortId) (fn : Fin 65) (σ : State) :
    exec (.busMasterEnableSet n fn) σ = execBusMasterEnableSet n fn σ := rfl
@[simp] theorem exec_msixUnmask (n : PortId) (fn : Fin 65) (vector : MsixVector) (σ : State) :
    exec (.msixUnmask n fn vector) σ = execMsixUnmask n fn vector σ := rfl
@[simp] theorem exec_pcieLinkDown (n : PortId) (σ : State) :
    exec (.pcieLinkDown n) σ = execPcieLinkDown n σ := rfl
@[simp] theorem exec_refclkLoss (n : PortId) (σ : State) :
    exec (.refclkLoss n) σ = execRefclkLoss n σ := rfl
@[simp] theorem exec_cplTimeout (c : CoreId) (ch : Fin 8) (moved : Nat) (σ : State) :
    exec (.cplTimeout c ch moved) σ = execCplTimeout c ch moved σ := rfl
@[simp] theorem exec_pcieRetrain (n : PortId) (refclkPpm : Option Int) (rate : Nat) (width : Nat) (σ : State) :
    exec (.pcieRetrain n refclkPpm rate width) σ = execPcieRetrain n refclkPpm rate width σ := rfl
@[simp] theorem exec_windowTableWrite (n : PortId) (entry : Fin 128) (word : Fin 4) (value : Word64) (σ : State) :
    exec (.windowTableWrite n entry word value) σ = execWindowTableWrite n entry word value σ := rfl
@[simp] theorem exec_swinWrite (slot : SlotId) (k : Fin 8) (size : Bool) (value : Word64) (σ : State) :
    exec (.swinWrite slot k size value) σ = execSwinWrite slot k size value σ := rfl
@[simp] theorem exec_mbxDoorbell (mb : SessId) (value : Word64) (m : ZMsg) (σ : State) :
    exec (.mbxDoorbell mb value m) σ = execMbxDoorbell mb value m σ := rfl
@[simp] theorem exec_getVersion (n : PortId) (σ : State) :
    exec (.getVersion n) σ = execGetVersion n σ := rfl
@[simp] theorem exec_getCapabilities (n : PortId) (σ : State) :
    exec (.getCapabilities n) σ = execGetCapabilities n σ := rfl
@[simp] theorem exec_negotiateAlgorithms (n : PortId) (asym : List Nat) (hash : List Nat) (σ : State) :
    exec (.negotiateAlgorithms n asym hash) σ = execNegotiateAlgorithms n asym hash σ := rfl
@[simp] theorem exec_getDigests (n : PortId) (σ : State) :
    exec (.getDigests n) σ = execGetDigests n σ := rfl
@[simp] theorem exec_getCertificate (n : PortId) (certSlot : Nat) (offset : Nat) (length : Nat) (σ : State) :
    exec (.getCertificate n certSlot offset length) σ = execGetCertificate n certSlot offset length σ := rfl
@[simp] theorem exec_challenge (n : PortId) (certSlot : Nat) (nonce : List Byte) (σ : State) :
    exec (.challenge n certSlot nonce) σ = execChallenge n certSlot nonce σ := rfl
@[simp] theorem exec_getMeasurements (n : PortId) (block : Nat) (nonce : List Byte) (σ : State) :
    exec (.getMeasurements n block nonce) σ = execGetMeasurements n block nonce σ := rfl
@[simp] theorem exec_ethFrameDiscard (e : EthId) (σ : State) :
    exec (.ethFrameDiscard e) σ = execEthFrameDiscard e σ := rfl
@[simp] theorem exec_arp (e : EthId) (target : BitVec 32) (σ : State) :
    exec (.arp e target) σ = execArp e target σ := rfl
@[simp] theorem exec_neighborDiscovery (e : EthId) (target : List Byte) (σ : State) :
    exec (.neighborDiscovery e target) σ = execNeighborDiscovery e target σ := rfl
@[simp] theorem exec_echo (e : EthId) (v6 : Bool) (target : List Byte) (payload : List Byte) (σ : State) :
    exec (.echo e v6 target payload) σ = execEcho e v6 target payload σ := rfl
@[simp] theorem exec_ethLinkChange (e : EthId) (up : Bool) (σ : State) :
    exec (.ethLinkChange e up) σ = execEthLinkChange e up σ := rfl
@[simp] theorem exec_ethRetrain (e : EthId) (up : Bool) (σ : State) :
    exec (.ethRetrain e up) σ = execEthRetrain e up σ := rfl
@[simp] theorem exec_dtlsHandshake (segment : Fin 2) (certDigest : List Byte) (σ : State) :
    exec (.dtlsHandshake segment certDigest) σ = execDtlsHandshake segment certDigest σ := rfl
@[simp] theorem exec_dtlsIdleTimeout (session : Fin 16) (σ : State) :
    exec (.dtlsIdleTimeout session) σ = execDtlsIdleTimeout session σ := rfl
@[simp] theorem exec_read (ses : SessId) (m : ZMsg) (σ : State) :
    exec (.read ses m) σ = execRead ses m σ := rfl
@[simp] theorem exec_write (ses : SessId) (m : ZMsg) (σ : State) :
    exec (.write ses m) σ = execWrite ses m σ := rfl
@[simp] theorem exec_baste (ses : SessId) (m : ZMsg) (σ : State) :
    exec (.baste ses m) σ = execBaste ses m σ := rfl
@[simp] theorem exec_commit (ses : SessId) (m : ZMsg) (σ : State) :
    exec (.commit ses m) σ = execCommit ses m σ := rfl
@[simp] theorem exec_discard (ses : SessId) (m : ZMsg) (σ : State) :
    exec (.discard ses m) σ = execDiscard ses m σ := rfl
@[simp] theorem exec_basteTimeout (ses : SessId) (σ : State) :
    exec (.basteTimeout ses) σ = execBasteTimeout ses σ := rfl
@[simp] theorem exec_blobBufferTimeout (ses : SessId) (σ : State) :
    exec (.blobBufferTimeout ses) σ = execBlobBufferTimeout ses σ := rfl
@[simp] theorem exec_subscribe (ses : SessId) (m : ZMsg) (σ : State) :
    exec (.subscribe ses m) σ = execSubscribe ses m σ := rfl
@[simp] theorem exec_unsubscribe (ses : SessId) (m : ZMsg) (σ : State) :
    exec (.unsubscribe ses m) σ = execUnsubscribe ses m σ := rfl
@[simp] theorem exec_notify (ses : SessId) (subscription : Nat) (queueFull : Bool) (σ : State) :
    exec (.notify ses subscription queueFull) σ = execNotify ses subscription queueFull σ := rfl
@[simp] theorem exec_responseCacheExpiry (client : List Byte) (requestId : Nat) (σ : State) :
    exec (.responseCacheExpiry client requestId) σ = execResponseCacheExpiry client requestId σ := rfl
@[simp] theorem exec_ptpMessage (segment : Fin 2) (m : PtpMsg) (σ : State) :
    exec (.ptpMessage segment m) σ = execPtpMessage segment m σ := rfl
@[simp] theorem exec_ptpSegmentSwitch (σ : State) :
    exec (.ptpSegmentSwitch) σ = execPtpSegmentSwitch σ := rfl
@[simp] theorem exec_ppsInEdge (σ : State) :
    exec (.ppsInEdge) σ = execPpsInEdge σ := rfl
@[simp] theorem exec_hbmPatrolScrub (st : StackId) (word : Nat) (found : Ecc) (σ : State) :
    exec (.hbmPatrolScrub st word found) σ = execHbmPatrolScrub st word found σ := rfl
@[simp] theorem exec_hbmTempRead (st : StackId) (temp : Int) (σ : State) :
    exec (.hbmTempRead st temp) σ = execHbmTempRead st temp σ := rfl
@[simp] theorem exec_retrain (st : StackId) (σ : State) :
    exec (.retrain st) σ = execRetrain st σ := rfl
@[simp] theorem exec_hbmRetrainDone (st : StackId) (σ : State) :
    exec (.hbmRetrainDone st) σ = execHbmRetrainDone st σ := rfl
@[simp] theorem exec_sbFuncWrite (p : PinId) (func : BitVec 8) (σ : State) :
    exec (.sbFuncWrite p func) σ = execSbFuncWrite p func σ := rfl
@[simp] theorem exec_sbDetachEnd (p : PinId) (σ : State) :
    exec (.sbDetachEnd p) σ = execSbDetachEnd p σ := rfl
@[simp] theorem exec_sbAttach (p : PinId) (σ : State) :
    exec (.sbAttach p) σ = execSbAttach p σ := rfl
@[simp] theorem exec_thermalAlertInput (p : PinId) (σ : State) :
    exec (.thermalAlertInput p) σ = execThermalAlertInput p σ := rfl
@[simp] theorem exec_resetIn (lowNs : Nat) (σ : State) :
    exec (.resetIn lowNs) σ = execResetIn lowNs σ := rfl
@[simp] theorem exec_pwrEnChange (level : Bool) (σ : State) :
    exec (.pwrEnChange level) σ = execPwrEnChange level σ := rfl
@[simp] theorem exec_tackIoEdge (σ : State) :
    exec (.tackIoEdge) σ = execTackIoEdge σ := rfl
@[simp] theorem exec_bypass (σ : State) :
    exec (.bypass) σ = execBypass σ := rfl
@[simp] theorem exec_idcode (σ : State) :
    exec (.idcode) σ = execIdcode σ := rfl
@[simp] theorem exec_sample (σ : State) :
    exec (.sample) σ = execSample σ := rfl
@[simp] theorem exec_preload (boundary : List Bool) (σ : State) :
    exec (.preload boundary) σ = execPreload boundary σ := rfl
@[simp] theorem exec_extest (σ : State) :
    exec (.extest) σ = execExtest σ := rfl
@[simp] theorem exec_extestPulse (σ : State) :
    exec (.extestPulse) σ = execExtestPulse σ := rfl
@[simp] theorem exec_extestTrain (σ : State) :
    exec (.extestTrain) σ = execExtestTrain σ := rfl
@[simp] theorem exec_clamp (σ : State) :
    exec (.clamp) σ = execClamp σ := rfl
@[simp] theorem exec_debugAccess (c : CoreId) (op : DebugOp) (σ : State) :
    exec (.debugAccess c op) σ = execDebugAccess c op σ := rfl
@[simp] theorem exec_trst (σ : State) :
    exec (.trst) σ = execTrst σ := rfl
@[simp] theorem exec_powerRequestOn (runTo : Fin 6) (σ : State) :
    exec (.powerRequestOn runTo) σ = execPowerRequestOn runTo σ := rfl
@[simp] theorem exec_powerRequestOff (runTo : Fin 6) (σ : State) :
    exec (.powerRequestOff runTo) σ = execPowerRequestOff runTo σ := rfl
@[simp] theorem exec_inputFaultTrip (past : Bool) (millivolts : Nat) (σ : State) :
    exec (.inputFaultTrip past millivolts) σ = execInputFaultTrip past millivolts σ := rfl
@[simp] theorem exec_tripRecovery (σ : State) :
    exec (.tripRecovery) σ = execTripRecovery σ := rfl
@[simp] theorem exec_loadNotice (c : CoreId) (σ : State) :
    exec (.loadNotice c) σ = execLoadNotice c σ := rfl
@[simp] theorem exec_prebiasRelease (r : RegionId) (σ : State) :
    exec (.prebiasRelease r) σ = execPrebiasRelease r σ := rfl
@[simp] theorem exec_issueStop (r : RegionId) (σ : State) :
    exec (.issueStop r) σ = execIssueStop r σ := rfl
@[simp] theorem exec_issueStopClear (r : RegionId) (σ : State) :
    exec (.issueStopClear r) σ = execIssueStopClear r σ := rfl
@[simp] theorem exec_vminCrossing (r : RegionId) (step : Fin 64) (σ : State) :
    exec (.vminCrossing r step) σ = execVminCrossing r step σ := rfl
@[simp] theorem exec_vminClear (r : RegionId) (present : Fin 64) (σ : State) :
    exec (.vminClear r present) σ = execVminClear r present σ := rfl
@[simp] theorem exec_currentSample (r : RegionId) (milliamps : Nat) (σ : State) :
    exec (.currentSample r milliamps) σ = execCurrentSample r milliamps σ := rfl
@[simp] theorem exec_throttleUpdate (r : RegionId) (temp : Int) (σ : State) :
    exec (.throttleUpdate r temp) σ = execThrottleUpdate r temp σ := rfl
@[simp] theorem exec_tStop (r : RegionId) (σ : State) :
    exec (.tStop r) σ = execTStop r σ := rfl
@[simp] theorem exec_thermalShutdown (r : RegionId) (temp : Int) (σ : State) :
    exec (.thermalShutdown r temp) σ = execThermalShutdown r temp σ := rfl
@[simp] theorem exec_retentionEntry (i : InstId) (σ : State) :
    exec (.retentionEntry i) σ = execRetentionEntry i σ := rfl
@[simp] theorem exec_ditherChip (p : PanelId) (power : Int) (rise : Int) (σ : State) :
    exec (.ditherChip p power rise) σ = execDitherChip p power rise σ := rfl
@[simp] theorem exec_rthStale (p : PanelId) (thirty : Bool) (σ : State) :
    exec (.rthStale p thirty) σ = execRthStale p thirty σ := rfl
@[simp] theorem exec_regulatorFault (r : RegionId) (σ : State) :
    exec (.regulatorFault r) σ = execRegulatorFault r σ := rfl
@[simp] theorem exec_mclkSet (khz : BitVec 32) (σ : State) :
    exec (.mclkSet khz) σ = execMclkSet khz σ := rfl
@[simp] theorem exec_hzModeWrite (mode : BitVec 8) (σ : State) :
    exec (.hzModeWrite mode) σ = execHzModeWrite mode σ := rfl
@[simp] theorem exec_retuneDone (σ : State) :
    exec (.retuneDone) σ = execRetuneDone σ := rfl
@[simp] theorem exec_inputPowerUp (b : BringUp) (σ : State) :
    exec (.inputPowerUp b) σ = execInputPowerUp b σ := rfl
@[simp] theorem exec_computeReset (muslin : List MuslinResult) (failedPanels : List PanelId) (σ : State) :
    exec (.computeReset muslin failedPanels) σ = execComputeReset muslin failedPanels σ := rfl
@[simp] theorem exec_mgCoreReset (σ : State) :
    exec (.mgCoreReset) σ = execMgCoreReset σ := rfl
@[simp] theorem exec_deviceReset (σ : State) :
    exec (.deviceReset) σ = execDeviceReset σ := rfl
@[simp] theorem exec_mgWatchdogExpiry (σ : State) :
    exec (.mgWatchdogExpiry) σ = execMgWatchdogExpiry σ := rfl
@[simp] theorem exec_panelControllerFault (p : PanelId) (muslin : List MuslinResult) (selfTestFails : Bool) (σ : State) :
    exec (.panelControllerFault p muslin selfTestFails) σ = execPanelControllerFault p muslin selfTestFails σ := rfl
@[simp] theorem exec_coreFaultReport (c : CoreId) (cause : Nat) (σ : State) :
    exec (.coreFaultReport c cause) σ = execCoreFaultReport c cause σ := rfl
@[simp] theorem exec_coreRetire (c : CoreId) (σ : State) :
    exec (.coreRetire c) σ = execCoreRetire c σ := rfl
@[simp] theorem exec_coreUnretire (c : CoreId) (σ : State) :
    exec (.coreUnretire c) σ = execCoreUnretire c σ := rfl
@[simp] theorem exec_spareProgrammed (i : InstId) (σ : State) :
    exec (.spareProgrammed i) σ = execSpareProgrammed i σ := rfl
@[simp] theorem exec_recipeSelectWrite (i : InstId) (variants : List Byte) (fromMaster : Bool) (σ : State) :
    exec (.recipeSelectWrite i variants fromMaster) σ = execRecipeSelectWrite i variants fromMaster σ := rfl
@[simp] theorem exec_precClear (i : InstId) (bits : BitVec 32) (σ : State) :
    exec (.precClear i bits) σ = execPrecClear i bits σ := rfl
@[simp] theorem exec_ccCoreWrite (core : BitVec 16) (σ : State) :
    exec (.ccCoreWrite core) σ = execCcCoreWrite core σ := rfl
@[simp] theorem exec_ccClear (σ : State) :
    exec (.ccClear) σ = execCcClear σ := rfl
@[simp] theorem exec_tmCoreWrite (core : BitVec 16) (σ : State) :
    exec (.tmCoreWrite core) σ = execTmCoreWrite core σ := rfl
@[simp] theorem exec_snapReq (i : InstId) (σ : State) :
    exec (.snapReq i) σ = execSnapReq i σ := rfl
@[simp] theorem exec_alertClear (bits : BitVec 32) (σ : State) :
    exec (.alertClear bits) σ = execAlertClear bits σ := rfl
@[simp] theorem exec_acctClear (slot : SlotId) (σ : State) :
    exec (.acctClear slot) σ = execAcctClear slot σ := rfl
@[simp] theorem exec_join (σ : State) :
    exec (.join) σ = execJoin σ := rfl
@[simp] theorem exec_leave (σ : State) :
    exec (.leave) σ = execLeave σ := rfl
@[simp] theorem exec_swap (σ : State) :
    exec (.swap) σ = execSwap σ := rfl
@[simp] theorem exec_fwPass (σ : State) :
    exec (.fwPass) σ = execFwPass σ := rfl
@[simp] theorem exec_seamTransferReceive (sm : SeamId) (t : SeamTransfer) (σ : State) :
    exec (.seamTransferReceive sm t) σ = execSeamTransferReceive sm t σ := rfl
@[simp] theorem exec_seamTimeout (c : CoreId) (ch : Fin 8) (σ : State) :
    exec (.seamTimeout c ch) σ = execSeamTimeout c ch σ := rfl
@[simp] theorem exec_seamRetrain (sm : SeamId) (σ : State) :
    exec (.seamRetrain sm) σ = execSeamRetrain sm σ := rfl
@[simp] theorem exec_tackRecord (r : TackRec) (σ : State) :
    exec (.tackRecord r) σ = execTackRecord r σ := rfl
@[simp] theorem exec_cascadeRelease (r : ReleaseMsg) (σ : State) :
    exec (.cascadeRelease r) σ = execCascadeRelease r σ := rfl
@[simp] theorem exec_timeMessage (masterTime : Nat) (pathDelay : Nat) (σ : State) :
    exec (.timeMessage masterTime pathDelay) σ = execTimeMessage masterTime pathDelay σ := rfl
@[simp] theorem exec_timeDistribute (σ : State) :
    exec (.timeDistribute) σ = execTimeDistribute σ := rfl
@[simp] theorem exec_swapRequest (requester : Fin 16) (target : Fin 16) (σ : State) :
    exec (.swapRequest requester target) σ = execSwapRequest requester target σ := rfl
@[simp] theorem exec_apertureData (sm : SeamId) (t : ApertureData) (σ : State) :
    exec (.apertureData sm t) σ = execApertureData sm t σ := rfl
@[simp] theorem exec_cascadeStepPlan (plan : List Byte) (σ : State) :
    exec (.cascadeStepPlan plan) σ = execCascadeStepPlan plan σ := rfl
@[simp] theorem exec_broadcastBlock (offset : Nat) (block : List Byte) (σ : State) :
    exec (.broadcastBlock offset block) σ = execBroadcastBlock offset block σ := rfl
@[simp] theorem exec_resendRequest (member : Fin 16) (r : ResendWhat) (σ : State) :
    exec (.resendRequest member r) σ = execResendRequest member r σ := rfl
@[simp] theorem exec_firmwareBlock (offset : Nat) (block : List Byte) (σ : State) :
    exec (.firmwareBlock offset block) σ = execFirmwareBlock offset block σ := rfl
@[simp] theorem exec_idleCascadeTack (σ : State) :
    exec (.idleCascadeTack) σ = execIdleCascadeTack σ := rfl
@[simp] theorem exec_ctackTimeout (group : Fin 16) (missing : Fin 16) (σ : State) :
    exec (.ctackTimeout group missing) σ = execCtackTimeout group missing σ := rfl
@[simp] theorem exec_holdLimitExpiry (group : Fin 16) (σ : State) :
    exec (.holdLimitExpiry group) σ = execHoldLimitExpiry group σ := rfl
@[simp] theorem exec_masterLoss (reachable : List (Fin 16)) (σ : State) :
    exec (.masterLoss reachable) σ = execMasterLoss reachable σ := rfl
@[simp] theorem exec_bcastTimeout (σ : State) :
    exec (.bcastTimeout) σ = execBcastTimeout σ := rfl
@[simp] theorem exec_fwDataBlock (offset : Nat) (block : List Byte) (σ : State) :
    exec (.fwDataBlock offset block) σ = execFwDataBlock offset block σ := rfl
@[simp] theorem exec_arm (σ : State) :
    exec (.arm) σ = execArm σ := rfl
@[simp] theorem exec_disarm (σ : State) :
    exec (.disarm) σ = execDisarm σ := rfl
@[simp] theorem exec_fwAbort (σ : State) :
    exec (.fwAbort) σ = execFwAbort σ := rfl
@[simp] theorem exec_confirm (role : Role) (σ : State) :
    exec (.confirm role) σ = execConfirm role σ := rfl
@[simp] theorem exec_fwCancel (role : Role) (σ : State) :
    exec (.fwCancel role) σ = execFwCancel role σ := rfl
@[simp] theorem exec_activationCheck (others : List UploadView) (σ : State) :
    exec (.activationCheck others) σ = execActivationCheck others σ := rfl
@[simp] theorem exec_selfCancel (σ : State) :
    exec (.selfCancel) σ = execSelfCancel σ := rfl
@[simp] theorem exec_fwActivate (σ : State) :
    exec (.fwActivate) σ = execFwActivate σ := rfl
@[simp] theorem exec_svnHoldExpiry (σ : State) :
    exec (.svnHoldExpiry) σ = execSvnHoldExpiry σ := rfl
@[simp] theorem exec_keyCmd (σ : State) :
    exec (.keyCmd) σ = execKeyCmd σ := rfl
@[simp] theorem exec_dbgChallenge (σ : State) :
    exec (.dbgChallenge) σ = execDbgChallenge σ := rfl
@[simp] theorem exec_dbgResponse (signature : List Byte) (σ : State) :
    exec (.dbgResponse signature) σ = execDbgResponse signature σ := rfl
@[simp] theorem exec_recoveryImageBlock (offset : Nat) (block : List Byte) (σ : State) :
    exec (.recoveryImageBlock offset block) σ = execRecoveryImageBlock offset block σ := rfl
@[simp] theorem exec_imageComplete (i : InstId) (image : Fetched) (σ : State) :
    exec (.imageComplete i image) σ = execImageComplete i image σ := rfl
@[simp] theorem exec_swapSlotZeroDone (slot : SlotId) (swapSlot : Nat) (σ : State) :
    exec (.swapSlotZeroDone slot swapSlot) σ = execSwapSlotZeroDone slot swapSlot σ := rfl
@[simp] theorem exec_hbmTimeout (c : CoreId) (ch : Fin 8) (moved : Nat) (σ : State) :
    exec (.hbmTimeout c ch moved) σ = execHbmTimeout c ch moved σ := rfl
@[simp] theorem exec_pcieLinkUp (n : PortId) (rate : Nat) (width : Nat) (σ : State) :
    exec (.pcieLinkUp n rate width) σ = execPcieLinkUp n rate width σ := rfl
@[simp] theorem exec_seamLinkUp (sm : SeamId) (peerSerial : Nat) (peerSeam : Fin 16) (σ : State) :
    exec (.seamLinkUp sm peerSerial peerSeam) σ = execSeamLinkUp sm peerSerial peerSeam σ := rfl
@[simp] theorem exec_thermalAlertReleased (p : PinId) (σ : State) :
    exec (.thermalAlertReleased p) σ = execThermalAlertReleased p σ := rfl
@[simp] theorem exec_endpointIdAssigned (eid : Byte) (σ : State) :
    exec (.endpointIdAssigned eid) σ = execEndpointIdAssigned eid σ := rfl

end Sys2Proof.Machine
end

