-- ==== Sys2Proof/Laws/Format.lean ====
section
/-! SUPPORT. Fields of a 64-bit instruction word: what a format's fields read back from the word that was built of them. -/

namespace Sys2Proof

/-- Bits above the low part of a concatenation come from the high part. -/
theorem extract_append_high {m n : Nat} (x : BitVec m) (y : BitVec n) (s l : Nat) (h : n ≤ s) :
    (x ++ y).extractLsb' s l = x.extractLsb' (s - n) l := by
  apply BitVec.eq_of_getLsbD_eq
  intro i hi
  simp only [BitVec.getLsbD_extractLsb', BitVec.getLsbD_append, hi, decide_true, Bool.true_and]
  rw [if_neg (by omega)]
  congr 1; omega

/-- Bits inside the low part of a concatenation come from it. -/
theorem extract_append_low {m n : Nat} (x : BitVec m) (y : BitVec n) (s l : Nat) (h : s + l ≤ n) :
    (x ++ y).extractLsb' s l = y.extractLsb' s l := by
  apply BitVec.eq_of_getLsbD_eq
  intro i hi
  simp only [BitVec.getLsbD_extractLsb', BitVec.getLsbD_append, hi, decide_true, Bool.true_and]
  rw [if_pos (by omega)]

/-- All bits of a word. -/
theorem extract_all {n : Nat} (x : BitVec n) : x.extractLsb' 0 n = x := by
  apply BitVec.eq_of_getLsbD_eq
  intro i hi
  simp [hi]

/-- The opcode of a word. -/
theorem headWord_opcode (op : BitVec 8) (g : Guard) (p : BitVec 52) : (headWord op g p).extractLsb' 56 8 = op := by
  unfold headWord
  simp (disch := decide) only [extract_append_high]
  exact extract_all _

/-- The guard of a word. -/
theorem headWord_guard (op : BitVec 8) (g : Guard) (p : BitVec 52) : guardOf (headWord op g p) = g := by
  obtain ⟨a, b⟩ := g
  unfold headWord guardOf
  simp (disch := decide) only [extract_append_high, extract_append_low, Nat.sub_self, Nat.reduceSub, extract_all]

/-- The fields of a word of the control format. -/
theorem headWord_ctl (op : BitVec 8) (g : Guard) (f : CtlF) : ctlOf (headWord op g f.payload) = f := by
  cases f
  unfold headWord ctlOf CtlF.payload
  simp (disch := decide) only [extract_append_high, extract_append_low, Nat.sub_self, Nat.reduceSub, extract_all]

/-- The fields of a word of the scalar format. -/
theorem headWord_scal (op : BitVec 8) (g : Guard) (f : ScalF) : scalOf (headWord op g f.payload) = f := by
  cases f
  unfold headWord scalOf ScalF.payload
  simp (disch := decide) only [extract_append_high, extract_append_low, Nat.sub_self, Nat.reduceSub, extract_all]

/-- The fields of a word of the engine format. -/
theorem headWord_eng (op : BitVec 8) (g : Guard) (f : EngF) : engOf (headWord op g f.payload) = f := by
  cases f
  unfold headWord engOf EngF.payload
  simp (disch := decide) only [extract_append_high, extract_append_low, Nat.sub_self, Nat.reduceSub, extract_all]

/-- The fields of a word of the finisher format. -/
theorem headWord_fin (op : BitVec 8) (g : Guard) (f : FinF) : finOf (headWord op g f.payload) = f := by
  cases f
  unfold headWord finOf FinF.payload
  simp (disch := decide) only [extract_append_high, extract_append_low, Nat.sub_self, Nat.reduceSub, extract_all]

/-- The fields of a word of the movement format. -/
theorem headWord_mov (op : BitVec 8) (g : Guard) (f : MovF) : movOf (headWord op g f.payload) = f := by
  cases f
  unfold headWord movOf MovF.payload
  simp (disch := decide) only [extract_append_high, extract_append_low, Nat.sub_self, Nat.reduceSub, extract_all]

/-- The fields of a word of the sync format. -/
theorem headWord_sync (op : BitVec 8) (g : Guard) (f : SyncF) : syncOf (headWord op g f.payload) = f := by
  cases f
  unfold headWord syncOf SyncF.payload
  simp (disch := decide) only [extract_append_high, extract_append_low, Nat.sub_self, Nat.reduceSub, extract_all]

/-- The fields of a word of the sampling format. -/
theorem headWord_samp (op : BitVec 8) (g : Guard) (f : SampF) : sampOf (headWord op g f.payload) = f := by
  cases f
  unfold headWord sampOf SampF.payload
  simp (disch := decide) only [extract_append_high, extract_append_low, Nat.sub_self, Nat.reduceSub, extract_all]

end Sys2Proof
end

