-- ==== Sys2Proof/Laws/Maps.lean ====
section
/-! SUPPORT. Laws of the sparse maps and memories: what a read gives after a write, and that every operation keeps the canonical
form. -/

namespace Sys2Proof.Machine

variable {α : Type}

/-! ## Reading after writing -/

/-- An erased key reads as unlisted. -/
theorem mapGet_erase_self (d : Nat → α) (m : Map α) (k : Nat) : mapGet d (mapErase m k) k = d k := by
  unfold mapErase
  induction m with
  | nil => rfl
  | cons p t ih =>
    obtain ⟨j, v⟩ := p
    by_cases h : j = k
    · simp [h, ih]
    · simp [h, mapGet, ih]

/-- Another key reads as before. -/
theorem mapGet_erase_other (d : Nat → α) (m : Map α) {k j : Nat} (h : j ≠ k) : mapGet d (mapErase m k) j = mapGet d m j := by
  unfold mapErase
  induction m with
  | nil => rfl
  | cons p t ih =>
    obtain ⟨i, v⟩ := p
    by_cases hi : i = k
    · simp [hi, mapGet, ih]
      intro hk; omega
    · simp [hi, mapGet, ih]

/-- Every entry is for another key. -/
def Absent (m : Map α) (k : Nat) : Prop := ∀ p ∈ m, p.1 ≠ k

/-- Erasing leaves no entry for the key. -/
theorem absent_erase (m : Map α) (k : Nat) : Absent (mapErase m k) k := by
  intro p hp
  simpa [mapErase] using (List.mem_filter.mp hp).2

/-- The inserted key reads as the inserted value. -/
theorem mapGet_ins_self (d : Nat → α) (m : Map α) (k : Nat) (v : α) (h : Absent m k) : mapGet d (mapIns m k v) k = v := by
  induction m with
  | nil => simp [mapIns, mapGet]
  | cons p t ih =>
    obtain ⟨j, w⟩ := p
    have hj : j ≠ k := h (j, w) (by simp)
    have ht : Absent t k := fun q hq => h q (by simp [hq])
    unfold mapIns
    split
    · simp [mapGet]
    · simp [mapGet, hj, ih ht]

/-- Another key reads as before an insertion. -/
theorem mapGet_ins_other (d : Nat → α) (m : Map α) {k j : Nat} (v : α) (h : j ≠ k) :
    mapGet d (mapIns m k v) j = mapGet d m j := by
  induction m with
  | nil => simp [mapIns, mapGet, Ne.symm h]
  | cons p t ih =>
    obtain ⟨i, w⟩ := p
    unfold mapIns
    split
    · simp [mapGet, Ne.symm h]
    · simp [mapGet, ih]

/-- A written key reads as the value written. -/
@[simp] theorem mapGet_set_self [DecidableEq α] (d : Nat → α) (m : Map α) (k : Nat) (v : α) :
    mapGet d (mapSet d m k v) k = v := by
  unfold mapSet
  split
  · rename_i h; rw [mapGet_erase_self, h]
  · exact mapGet_ins_self d _ k v (absent_erase m k)

/-- Another key reads as before. -/
theorem mapGet_set_other [DecidableEq α] (d : Nat → α) (m : Map α) {k j : Nat} (v : α) (h : j ≠ k) :
    mapGet d (mapSet d m k v) j = mapGet d m j := by
  unfold mapSet
  split
  · exact mapGet_erase_other d m h
  · rw [mapGet_ins_other d _ v h, mapGet_erase_other d m h]

/-- Reading any key after a write. -/
theorem mapGet_set [DecidableEq α] (d : Nat → α) (m : Map α) (k j : Nat) (v : α) :
    mapGet d (mapSet d m k v) j = if j = k then v else mapGet d m j := by
  split
  · rename_i h; rw [h, mapGet_set_self]
  · rename_i h; exact mapGet_set_other d m v h

/-! ## The canonical form -/

/-- A sorted map keeps sorted under a smaller bound. -/
theorem mapSorted_mono {b c : Nat} (h : c ≤ b) : ∀ {m : Map α}, mapSorted b m = true → mapSorted c m = true
  | [], _ => rfl
  | (j, v) :: t, hm => by
    simp only [mapSorted, Bool.and_eq_true, decide_eq_true_eq] at hm ⊢
    exact ⟨by omega, hm.2⟩

/-- A filter keeps keys rising. -/
theorem mapSorted_filter (p : Nat × α → Bool) : ∀ {m : Map α} {b : Nat}, mapSorted b m = true → mapSorted b (m.filter p) = true
  | [], _, _ => rfl
  | (j, v) :: t, b, hm => by
    simp only [mapSorted, Bool.and_eq_true, decide_eq_true_eq] at hm
    rw [List.filter_cons]
    split
    · simp only [mapSorted, Bool.and_eq_true, decide_eq_true_eq]
      exact ⟨hm.1, mapSorted_filter p hm.2⟩
    · exact mapSorted_mono (by omega) (mapSorted_filter p hm.2)

/-- An insertion of an absent key keeps keys rising. -/
theorem mapSorted_ins (k : Nat) (v : α) : ∀ {m : Map α} {b : Nat}, mapSorted b m = true → b ≤ k → Absent m k →
    mapSorted b (mapIns m k v) = true
  | [], b, _, hb, _ => by simp [mapIns, mapSorted, hb]
  | (j, w) :: t, b, hm, hb, ha => by
    have hj : j ≠ k := ha (j, w) (by simp)
    simp only [mapSorted, Bool.and_eq_true, decide_eq_true_eq] at hm
    unfold mapIns
    split
    · simp only [mapSorted, Bool.and_eq_true, decide_eq_true_eq]
      exact ⟨hb, by omega, hm.2⟩
    · simp only [mapSorted, Bool.and_eq_true, decide_eq_true_eq]
      exact ⟨hm.1, mapSorted_ins k v hm.2 (by omega) fun q hq => ha q (by simp [hq])⟩

/-- Entries of an insertion. -/
theorem mem_ins {k : Nat} {v : α} {p : Nat × α} : ∀ {m : Map α}, p ∈ mapIns m k v → p = (k, v) ∨ p ∈ m
  | [], h => by simpa [mapIns] using h
  | (j, w) :: t, h => by
    unfold mapIns at h
    split at h
    · simpa using h
    · rcases List.mem_cons.mp h with h | h
      · exact .inr (by simp [h])
      · rcases mem_ins h with h | h
        · exact .inl h
        · exact .inr (by simp [h])

/-- A filter keeps the canonical form. -/
theorem mapWf_filter [DecidableEq α] {d : Nat → α} {m : Map α} (p : Nat × α → Bool) (h : mapWf d m = true) :
    mapWf d (m.filter p) = true := by
  simp only [mapWf, Bool.and_eq_true, mapProper] at h ⊢
  refine ⟨mapSorted_filter p h.1, List.all_eq_true.mpr fun x hx => ?_⟩
  exact List.all_eq_true.mp h.2 x (List.mem_filter.mp hx).1

/-- A write keeps the canonical form. -/
theorem mapWf_set [DecidableEq α] {d : Nat → α} {m : Map α} (k : Nat) (v : α) (h : mapWf d m = true) :
    mapWf d (mapSet d m k v) = true := by
  have he : mapWf d (mapErase m k) = true := mapWf_filter _ h
  unfold mapSet
  split
  · exact he
  · rename_i hv
    simp only [mapWf, Bool.and_eq_true, mapProper] at he ⊢
    refine ⟨mapSorted_ins k v he.1 (Nat.zero_le _) (absent_erase m k), List.all_eq_true.mpr fun x hx => ?_⟩
    rcases mem_ins hx with rfl | hx
    · simpa using hv
    · exact List.all_eq_true.mp he.2 x hx

/-- A change of one key keeps the canonical form. -/
theorem mapWf_mod [DecidableEq α] {d : Nat → α} {m : Map α} (k : Nat) (f : α → α) (h : mapWf d m = true) :
    mapWf d (mapMod d m k f) = true := mapWf_set k _ h

/-- Mapping the values keeps keys rising. -/
theorem mapSorted_map (f : α → α) : ∀ {m : Map α} {b : Nat}, mapSorted b m = true →
    mapSorted b (m.map fun p => (p.1, f p.2)) = true
  | [], _, _ => rfl
  | (j, v) :: t, b, hm => by
    simp only [mapSorted, Bool.and_eq_true, decide_eq_true_eq, List.map_cons] at hm ⊢
    exact ⟨hm.1, mapSorted_map f hm.2⟩

/-- A change of every listed value keeps the canonical form. -/
theorem mapWf_vals [DecidableEq α] {d : Nat → α} {m : Map α} (f : α → α) (h : mapWf d m = true) :
    mapWf d (mapVals d m f) = true := by
  simp only [mapWf, Bool.and_eq_true, mapProper] at h ⊢
  refine ⟨mapSorted_filter _ (mapSorted_map f h.1), List.all_eq_true.mpr fun x hx => ?_⟩
  exact (List.mem_filter.mp hx).2

/-! ## Memories -/

/-- A byte after a write of one byte. -/
theorem memByte_put (m : Mem) (a b : Nat) (v : BitVec 8) : memByte (memPut m a v) b = if b = a then v else memByte m b :=
  mapGet_set byteZero m a b v

/-- A byte outside the bytes written reads as before. -/
theorem memByte_write_outside (b : Nat) : ∀ (bs : List (BitVec 8)) (m : Mem) (a : Nat), b < a ∨ a + bs.length ≤ b →
    memByte (memWrite m a bs) b = memByte m b
  | [], m, a, _ => rfl
  | x :: bs, m, a, h => by
    unfold memWrite
    rw [memByte_write_outside b bs _ (a + 1) (by simp only [List.length_cons] at h; omega), memByte_put, if_neg]
    simp only [List.length_cons] at h; omega

/-- A byte that was written. -/
theorem memByte_write_inside : ∀ (bs : List (BitVec 8)) (m : Mem) (a k : Nat) (h : k < bs.length),
    memByte (memWrite m a bs) (a + k) = bs[k]
  | x :: bs, m, a, 0, _ => by
    unfold memWrite
    rw [memByte_write_outside (a + 0) bs _ (a + 1) (by omega), memByte_put]
    simp
  | x :: bs, m, a, k + 1, h => by
    unfold memWrite
    have e : a + (k + 1) = (a + 1) + k := by omega
    rw [e, memByte_write_inside bs _ (a + 1) k (by simpa using h)]
    simp

/-- A byte after a range was zeroed. -/
theorem memByte_zero (m : Mem) (a n b : Nat) :
    memByte (memZero m a n) b = if a ≤ b ∧ b < a + n then 0 else memByte m b := by
  unfold memByte memZero
  induction m with
  | nil => simp [mapGet, byteZero]
  | cons p t ih =>
    obtain ⟨j, v⟩ := p
    rw [List.filter_cons]
    by_cases hj : j = b
    · subst hj
      by_cases hr : a ≤ j ∧ j < a + n
      · have : (decide (j < a) || decide (a + n ≤ j)) = false := by simp; omega
        simp only [this, Bool.false_eq_true, if_false, ih, if_pos hr]
      · have : (decide (j < a) || decide (a + n ≤ j)) = true := by simp; omega
        simp only [this, if_true, mapGet, if_neg hr]
    · by_cases hk : (decide (j < a) || decide (a + n ≤ j)) = true
      · simp only [hk, if_true, mapGet, if_neg hj, ih]
      · simp only [hk, if_false, mapGet, if_neg hj, ih, Bool.false_eq_true]

/-- Writing one byte keeps the canonical form. -/
theorem memWf_put {m : Mem} (a : Nat) (v : BitVec 8) (h : memWf m = true) : memWf (memPut m a v) = true := mapWf_set a v h

/-- Writing bytes keeps the canonical form. -/
theorem memWf_write : ∀ (bs : List (BitVec 8)) {m : Mem} (a : Nat), memWf m = true → memWf (memWrite m a bs) = true
  | [], _, _, h => h
  | b :: bs, _, a, h => memWf_write bs (a + 1) (memWf_put a b h)

/-- Zeroing keeps the canonical form. -/
theorem memWf_zero {m : Mem} (a n : Nat) (h : memWf m = true) : memWf (memZero m a n) = true := mapWf_filter _ h

/-- The empty memory is canonical. -/
theorem memWf_nil : memWf [] = true := rfl

end Sys2Proof.Machine
end

