-- ==== Sys2Proof/Laws/State.lean ====
section
/-! SUPPORT. One lemma per field per update of the state, and what each reader gives after each update. -/

namespace Sys2Proof.Machine

variable (s : State)

/-! ## `State.wr` -/

@[simp] theorem State.wr_pending (k v : Nat) : (s.wr k v).pending = s.pending := rfl
@[simp] theorem State.wr_blobs (k v : Nat) : (s.wr k v).blobs = s.blobs := rfl
@[simp] theorem State.wr_time (k v : Nat) : (s.wr k v).time = s.time := rfl
@[simp] theorem State.wr_uptime (k v : Nat) : (s.wr k v).uptime = s.uptime := rfl
@[simp] theorem State.wr_wallTaken (k v : Nat) : (s.wr k v).wallTaken = s.wallTaken := rfl
@[simp] theorem State.wr_mclkAcc (k v : Nat) : (s.wr k v).mclkAcc = s.mclkAcc := rfl
@[simp] theorem State.wr_freeNext (k v : Nat) : (s.wr k v).freeNext = s.freeNext := rfl
@[simp] theorem State.wr_log (k v : Nat) : (s.wr k v).log = s.log := rfl
@[simp] theorem State.wr_scrubOn (k v : Nat) : (s.wr k v).scrubOn = s.scrubOn := rfl
@[simp] theorem State.wr_cores (k v : Nat) : (s.wr k v).cores = s.cores := rfl
@[simp] theorem State.wr_routers (k v : Nat) : (s.wr k v).routers = s.routers := rfl
@[simp] theorem State.wr_links (k v : Nat) : (s.wr k v).links = s.links := rfl
@[simp] theorem State.wr_fns (k v : Nat) : (s.wr k v).fns = s.fns := rfl
@[simp] theorem State.wr_sent (k v : Nat) : (s.wr k v).sent = s.sent := rfl
@[simp] theorem State.wr_logMsgAt (k v : Nat) : (s.wr k v).logMsgAt = s.logMsgAt := rfl
@[simp] theorem State.wr_logMsgHeld (k v : Nat) : (s.wr k v).logMsgHeld = s.logMsgHeld := rfl
@[simp] theorem State.wr_hbm (k v : Nat) : (s.wr k v).hbm = s.hbm := rfl
@[simp] theorem State.wr_hbmPoison (k v : Nat) : (s.wr k v).hbmPoison = s.hbmPoison := rfl
@[simp] theorem State.wr_hbmErr (k v : Nat) : (s.wr k v).hbmErr = s.hbmErr := rfl
@[simp] theorem State.wr_insts (k v : Nat) : (s.wr k v).insts = s.insts := rfl
@[simp] theorem State.wr_hostMem (k v : Nat) : (s.wr k v).hostMem = s.hostMem := rfl
@[simp] theorem State.wr_winTab (k v : Nat) : (s.wr k v).winTab = s.winTab := rfl
@[simp] theorem State.wr_swin (k v : Nat) : (s.wr k v).swin = s.swin := rfl
@[simp] theorem State.wr_seams (k v : Nat) : (s.wr k v).seams = s.seams := rfl
@[simp] theorem State.wr_seqs (k v : Nat) : (s.wr k v).seqs = s.seqs := rfl
@[simp] theorem State.wr_slots (k v : Nat) : (s.wr k v).slots = s.slots := rfl
@[simp] theorem State.wr_marks (k v : Nat) : (s.wr k v).marks = s.marks := rfl
@[simp] theorem State.wr_reqs (k v : Nat) : (s.wr k v).reqs = s.reqs := rfl
@[simp] theorem State.wr_tx (k v : Nat) : (s.wr k v).tx = s.tx := rfl
@[simp] theorem State.wr_sessions (k v : Nat) : (s.wr k v).sessions = s.sessions := rfl
@[simp] theorem State.wr_kept (k v : Nat) : (s.wr k v).kept = s.kept := rfl
@[simp] theorem State.wr_ptp (k v : Nat) : (s.wr k v).ptp = s.ptp := rfl
@[simp] theorem State.wr_hbmStacks (k v : Nat) : (s.wr k v).hbmStacks = s.hbmStacks := rfl
@[simp] theorem State.wr_ports (k v : Nat) : (s.wr k v).ports = s.ports := rfl
@[simp] theorem State.wr_pins (k v : Nat) : (s.wr k v).pins = s.pins := rfl
@[simp] theorem State.wr_tap (k v : Nat) : (s.wr k v).tap = s.tap := rfl
@[simp] theorem State.wr_regions (k v : Nat) : (s.wr k v).regions = s.regions := rfl
@[simp] theorem State.wr_panels (k v : Nat) : (s.wr k v).panels = s.panels := rfl
@[simp] theorem State.wr_power (k v : Nat) : (s.wr k v).power = s.power := rfl
@[simp] theorem State.wr_casc (k v : Nat) : (s.wr k v).casc = s.casc := rfl
@[simp] theorem State.wr_sec (k v : Nat) : (s.wr k v).sec = s.sec := rfl
@[simp] theorem State.wr_journalOld (k v : Nat) : (s.wr k v).journalOld = s.journalOld := rfl
@[simp] theorem State.wr_muslinFailed (k v : Nat) : (s.wr k v).muslinFailed = s.muslinFailed := rfl
@[simp] theorem State.wr_unretire (k v : Nat) : (s.wr k v).unretire = s.unretire := rfl
@[simp] theorem State.wr_darnSet (k v : Nat) : (s.wr k v).darnSet = s.darnSet := rfl
@[simp] theorem State.wr_blob_other (k v : Nat) (j : Nat) : (s.wr k v).blob j = s.blob j := rfl
@[simp] theorem State.wr_core_other (k v : Nat) (j : Nat) : (s.wr k v).core j = s.core j := rfl
@[simp] theorem State.wr_router_other (k v : Nat) (j : Nat) : (s.wr k v).router j = s.router j := rfl
@[simp] theorem State.wr_link_other (k v : Nat) (j : Nat) : (s.wr k v).link j = s.link j := rfl
@[simp] theorem State.wr_inst_other (k v : Nat) (j : Nat) : (s.wr k v).inst j = s.inst j := rfl
@[simp] theorem State.wr_slot_other (k v : Nat) (j : Nat) : (s.wr k v).slot j = s.slot j := rfl
@[simp] theorem State.wr_seq_other (k v : Nat) (j : Nat) : (s.wr k v).seq j = s.seq j := rfl
@[simp] theorem State.wr_fn_other (k v : Nat) (j : Nat) : (s.wr k v).fn j = s.fn j := rfl
@[simp] theorem State.wr_ses_other (k v : Nat) (j : Nat) : (s.wr k v).ses j = s.ses j := rfl
@[simp] theorem State.wr_stack_other (k v : Nat) (j : Nat) : (s.wr k v).stack j = s.stack j := rfl
@[simp] theorem State.wr_port_other (k v : Nat) (j : Nat) : (s.wr k v).port j = s.port j := rfl
@[simp] theorem State.wr_pin_other (k v : Nat) (j : Nat) : (s.wr k v).pin j = s.pin j := rfl
@[simp] theorem State.wr_region_other (k v : Nat) (j : Nat) : (s.wr k v).region j = s.region j := rfl
@[simp] theorem State.wr_panel_other (k v : Nat) (j : Nat) : (s.wr k v).panel j = s.panel j := rfl
@[simp] theorem State.wr_seam_other (k v : Nat) (j : Nat) : (s.wr k v).seam j = s.seam j := rfl
@[simp] theorem State.rd_wr (k v : Nat) : (s.wr k v).rd k = v := mapGet_set_self _ _ _ _
theorem State.rd_wr_if (k v : Nat) (j : Nat) : (s.wr k v).rd j = if j = k then v else s.rd j := mapGet_set _ _ _ _ _
theorem State.rd_wr_ne (k v : Nat) (j : Nat) (h : j ≠ k) : (s.wr k v).rd j = s.rd j := mapGet_set_other _ _ _ h

/-! ## `State.wrBlob` -/

@[simp] theorem State.wrBlob_pending (k : Nat) (v : List Byte) : (s.wrBlob k v).pending = s.pending := rfl
@[simp] theorem State.wrBlob_dict (k : Nat) (v : List Byte) : (s.wrBlob k v).dict = s.dict := rfl
@[simp] theorem State.wrBlob_time (k : Nat) (v : List Byte) : (s.wrBlob k v).time = s.time := rfl
@[simp] theorem State.wrBlob_uptime (k : Nat) (v : List Byte) : (s.wrBlob k v).uptime = s.uptime := rfl
@[simp] theorem State.wrBlob_wallTaken (k : Nat) (v : List Byte) : (s.wrBlob k v).wallTaken = s.wallTaken := rfl
@[simp] theorem State.wrBlob_mclkAcc (k : Nat) (v : List Byte) : (s.wrBlob k v).mclkAcc = s.mclkAcc := rfl
@[simp] theorem State.wrBlob_freeNext (k : Nat) (v : List Byte) : (s.wrBlob k v).freeNext = s.freeNext := rfl
@[simp] theorem State.wrBlob_log (k : Nat) (v : List Byte) : (s.wrBlob k v).log = s.log := rfl
@[simp] theorem State.wrBlob_scrubOn (k : Nat) (v : List Byte) : (s.wrBlob k v).scrubOn = s.scrubOn := rfl
@[simp] theorem State.wrBlob_cores (k : Nat) (v : List Byte) : (s.wrBlob k v).cores = s.cores := rfl
@[simp] theorem State.wrBlob_routers (k : Nat) (v : List Byte) : (s.wrBlob k v).routers = s.routers := rfl
@[simp] theorem State.wrBlob_links (k : Nat) (v : List Byte) : (s.wrBlob k v).links = s.links := rfl
@[simp] theorem State.wrBlob_fns (k : Nat) (v : List Byte) : (s.wrBlob k v).fns = s.fns := rfl
@[simp] theorem State.wrBlob_sent (k : Nat) (v : List Byte) : (s.wrBlob k v).sent = s.sent := rfl
@[simp] theorem State.wrBlob_logMsgAt (k : Nat) (v : List Byte) : (s.wrBlob k v).logMsgAt = s.logMsgAt := rfl
@[simp] theorem State.wrBlob_logMsgHeld (k : Nat) (v : List Byte) : (s.wrBlob k v).logMsgHeld = s.logMsgHeld := rfl
@[simp] theorem State.wrBlob_hbm (k : Nat) (v : List Byte) : (s.wrBlob k v).hbm = s.hbm := rfl
@[simp] theorem State.wrBlob_hbmPoison (k : Nat) (v : List Byte) : (s.wrBlob k v).hbmPoison = s.hbmPoison := rfl
@[simp] theorem State.wrBlob_hbmErr (k : Nat) (v : List Byte) : (s.wrBlob k v).hbmErr = s.hbmErr := rfl
@[simp] theorem State.wrBlob_insts (k : Nat) (v : List Byte) : (s.wrBlob k v).insts = s.insts := rfl
@[simp] theorem State.wrBlob_hostMem (k : Nat) (v : List Byte) : (s.wrBlob k v).hostMem = s.hostMem := rfl
@[simp] theorem State.wrBlob_winTab (k : Nat) (v : List Byte) : (s.wrBlob k v).winTab = s.winTab := rfl
@[simp] theorem State.wrBlob_swin (k : Nat) (v : List Byte) : (s.wrBlob k v).swin = s.swin := rfl
@[simp] theorem State.wrBlob_seams (k : Nat) (v : List Byte) : (s.wrBlob k v).seams = s.seams := rfl
@[simp] theorem State.wrBlob_seqs (k : Nat) (v : List Byte) : (s.wrBlob k v).seqs = s.seqs := rfl
@[simp] theorem State.wrBlob_slots (k : Nat) (v : List Byte) : (s.wrBlob k v).slots = s.slots := rfl
@[simp] theorem State.wrBlob_marks (k : Nat) (v : List Byte) : (s.wrBlob k v).marks = s.marks := rfl
@[simp] theorem State.wrBlob_reqs (k : Nat) (v : List Byte) : (s.wrBlob k v).reqs = s.reqs := rfl
@[simp] theorem State.wrBlob_tx (k : Nat) (v : List Byte) : (s.wrBlob k v).tx = s.tx := rfl
@[simp] theorem State.wrBlob_sessions (k : Nat) (v : List Byte) : (s.wrBlob k v).sessions = s.sessions := rfl
@[simp] theorem State.wrBlob_kept (k : Nat) (v : List Byte) : (s.wrBlob k v).kept = s.kept := rfl
@[simp] theorem State.wrBlob_ptp (k : Nat) (v : List Byte) : (s.wrBlob k v).ptp = s.ptp := rfl
@[simp] theorem State.wrBlob_hbmStacks (k : Nat) (v : List Byte) : (s.wrBlob k v).hbmStacks = s.hbmStacks := rfl
@[simp] theorem State.wrBlob_ports (k : Nat) (v : List Byte) : (s.wrBlob k v).ports = s.ports := rfl
@[simp] theorem State.wrBlob_pins (k : Nat) (v : List Byte) : (s.wrBlob k v).pins = s.pins := rfl
@[simp] theorem State.wrBlob_tap (k : Nat) (v : List Byte) : (s.wrBlob k v).tap = s.tap := rfl
@[simp] theorem State.wrBlob_regions (k : Nat) (v : List Byte) : (s.wrBlob k v).regions = s.regions := rfl
@[simp] theorem State.wrBlob_panels (k : Nat) (v : List Byte) : (s.wrBlob k v).panels = s.panels := rfl
@[simp] theorem State.wrBlob_power (k : Nat) (v : List Byte) : (s.wrBlob k v).power = s.power := rfl
@[simp] theorem State.wrBlob_casc (k : Nat) (v : List Byte) : (s.wrBlob k v).casc = s.casc := rfl
@[simp] theorem State.wrBlob_sec (k : Nat) (v : List Byte) : (s.wrBlob k v).sec = s.sec := rfl
@[simp] theorem State.wrBlob_journalOld (k : Nat) (v : List Byte) : (s.wrBlob k v).journalOld = s.journalOld := rfl
@[simp] theorem State.wrBlob_muslinFailed (k : Nat) (v : List Byte) : (s.wrBlob k v).muslinFailed = s.muslinFailed := rfl
@[simp] theorem State.wrBlob_unretire (k : Nat) (v : List Byte) : (s.wrBlob k v).unretire = s.unretire := rfl
@[simp] theorem State.wrBlob_darnSet (k : Nat) (v : List Byte) : (s.wrBlob k v).darnSet = s.darnSet := rfl
@[simp] theorem State.wrBlob_rd_other (k : Nat) (v : List Byte) (j : Nat) : (s.wrBlob k v).rd j = s.rd j := rfl
@[simp] theorem State.wrBlob_core_other (k : Nat) (v : List Byte) (j : Nat) : (s.wrBlob k v).core j = s.core j := rfl
@[simp] theorem State.wrBlob_router_other (k : Nat) (v : List Byte) (j : Nat) : (s.wrBlob k v).router j = s.router j := rfl
@[simp] theorem State.wrBlob_link_other (k : Nat) (v : List Byte) (j : Nat) : (s.wrBlob k v).link j = s.link j := rfl
@[simp] theorem State.wrBlob_inst_other (k : Nat) (v : List Byte) (j : Nat) : (s.wrBlob k v).inst j = s.inst j := rfl
@[simp] theorem State.wrBlob_slot_other (k : Nat) (v : List Byte) (j : Nat) : (s.wrBlob k v).slot j = s.slot j := rfl
@[simp] theorem State.wrBlob_seq_other (k : Nat) (v : List Byte) (j : Nat) : (s.wrBlob k v).seq j = s.seq j := rfl
@[simp] theorem State.wrBlob_fn_other (k : Nat) (v : List Byte) (j : Nat) : (s.wrBlob k v).fn j = s.fn j := rfl
@[simp] theorem State.wrBlob_ses_other (k : Nat) (v : List Byte) (j : Nat) : (s.wrBlob k v).ses j = s.ses j := rfl
@[simp] theorem State.wrBlob_stack_other (k : Nat) (v : List Byte) (j : Nat) : (s.wrBlob k v).stack j = s.stack j := rfl
@[simp] theorem State.wrBlob_port_other (k : Nat) (v : List Byte) (j : Nat) : (s.wrBlob k v).port j = s.port j := rfl
@[simp] theorem State.wrBlob_pin_other (k : Nat) (v : List Byte) (j : Nat) : (s.wrBlob k v).pin j = s.pin j := rfl
@[simp] theorem State.wrBlob_region_other (k : Nat) (v : List Byte) (j : Nat) : (s.wrBlob k v).region j = s.region j := rfl
@[simp] theorem State.wrBlob_panel_other (k : Nat) (v : List Byte) (j : Nat) : (s.wrBlob k v).panel j = s.panel j := rfl
@[simp] theorem State.wrBlob_seam_other (k : Nat) (v : List Byte) (j : Nat) : (s.wrBlob k v).seam j = s.seam j := rfl
@[simp] theorem State.blob_wrBlob (k : Nat) (v : List Byte) : (s.wrBlob k v).blob k = v := mapGet_set_self _ _ _ _
theorem State.blob_wrBlob_if (k : Nat) (v : List Byte) (j : Nat) : (s.wrBlob k v).blob j = if j = k then v else s.blob j := mapGet_set _ _ _ _ _
theorem State.blob_wrBlob_ne (k : Nat) (v : List Byte) (j : Nat) (h : j ≠ k) : (s.wrBlob k v).blob j = s.blob j := mapGet_set_other _ _ _ h

/-! ## `State.freeStep` -/

@[simp] theorem State.freeStep_pending : (s.freeStep).pending = s.pending := rfl
@[simp] theorem State.freeStep_dict : (s.freeStep).dict = s.dict := rfl
@[simp] theorem State.freeStep_blobs : (s.freeStep).blobs = s.blobs := rfl
@[simp] theorem State.freeStep_time : (s.freeStep).time = s.time := rfl
@[simp] theorem State.freeStep_uptime : (s.freeStep).uptime = s.uptime := rfl
@[simp] theorem State.freeStep_wallTaken : (s.freeStep).wallTaken = s.wallTaken := rfl
@[simp] theorem State.freeStep_mclkAcc : (s.freeStep).mclkAcc = s.mclkAcc := rfl
@[simp] theorem State.freeStep_log : (s.freeStep).log = s.log := rfl
@[simp] theorem State.freeStep_scrubOn : (s.freeStep).scrubOn = s.scrubOn := rfl
@[simp] theorem State.freeStep_cores : (s.freeStep).cores = s.cores := rfl
@[simp] theorem State.freeStep_routers : (s.freeStep).routers = s.routers := rfl
@[simp] theorem State.freeStep_links : (s.freeStep).links = s.links := rfl
@[simp] theorem State.freeStep_fns : (s.freeStep).fns = s.fns := rfl
@[simp] theorem State.freeStep_sent : (s.freeStep).sent = s.sent := rfl
@[simp] theorem State.freeStep_logMsgAt : (s.freeStep).logMsgAt = s.logMsgAt := rfl
@[simp] theorem State.freeStep_logMsgHeld : (s.freeStep).logMsgHeld = s.logMsgHeld := rfl
@[simp] theorem State.freeStep_hbm : (s.freeStep).hbm = s.hbm := rfl
@[simp] theorem State.freeStep_hbmPoison : (s.freeStep).hbmPoison = s.hbmPoison := rfl
@[simp] theorem State.freeStep_hbmErr : (s.freeStep).hbmErr = s.hbmErr := rfl
@[simp] theorem State.freeStep_insts : (s.freeStep).insts = s.insts := rfl
@[simp] theorem State.freeStep_hostMem : (s.freeStep).hostMem = s.hostMem := rfl
@[simp] theorem State.freeStep_winTab : (s.freeStep).winTab = s.winTab := rfl
@[simp] theorem State.freeStep_swin : (s.freeStep).swin = s.swin := rfl
@[simp] theorem State.freeStep_seams : (s.freeStep).seams = s.seams := rfl
@[simp] theorem State.freeStep_seqs : (s.freeStep).seqs = s.seqs := rfl
@[simp] theorem State.freeStep_slots : (s.freeStep).slots = s.slots := rfl
@[simp] theorem State.freeStep_marks : (s.freeStep).marks = s.marks := rfl
@[simp] theorem State.freeStep_reqs : (s.freeStep).reqs = s.reqs := rfl
@[simp] theorem State.freeStep_tx : (s.freeStep).tx = s.tx := rfl
@[simp] theorem State.freeStep_sessions : (s.freeStep).sessions = s.sessions := rfl
@[simp] theorem State.freeStep_kept : (s.freeStep).kept = s.kept := rfl
@[simp] theorem State.freeStep_ptp : (s.freeStep).ptp = s.ptp := rfl
@[simp] theorem State.freeStep_hbmStacks : (s.freeStep).hbmStacks = s.hbmStacks := rfl
@[simp] theorem State.freeStep_ports : (s.freeStep).ports = s.ports := rfl
@[simp] theorem State.freeStep_pins : (s.freeStep).pins = s.pins := rfl
@[simp] theorem State.freeStep_tap : (s.freeStep).tap = s.tap := rfl
@[simp] theorem State.freeStep_regions : (s.freeStep).regions = s.regions := rfl
@[simp] theorem State.freeStep_panels : (s.freeStep).panels = s.panels := rfl
@[simp] theorem State.freeStep_power : (s.freeStep).power = s.power := rfl
@[simp] theorem State.freeStep_casc : (s.freeStep).casc = s.casc := rfl
@[simp] theorem State.freeStep_sec : (s.freeStep).sec = s.sec := rfl
@[simp] theorem State.freeStep_journalOld : (s.freeStep).journalOld = s.journalOld := rfl
@[simp] theorem State.freeStep_muslinFailed : (s.freeStep).muslinFailed = s.muslinFailed := rfl
@[simp] theorem State.freeStep_unretire : (s.freeStep).unretire = s.unretire := rfl
@[simp] theorem State.freeStep_darnSet : (s.freeStep).darnSet = s.darnSet := rfl
@[simp] theorem State.freeStep_rd_other (j : Nat) : (s.freeStep).rd j = s.rd j := rfl
@[simp] theorem State.freeStep_blob_other (j : Nat) : (s.freeStep).blob j = s.blob j := rfl
@[simp] theorem State.freeStep_core_other (j : Nat) : (s.freeStep).core j = s.core j := rfl
@[simp] theorem State.freeStep_router_other (j : Nat) : (s.freeStep).router j = s.router j := rfl
@[simp] theorem State.freeStep_link_other (j : Nat) : (s.freeStep).link j = s.link j := rfl
@[simp] theorem State.freeStep_inst_other (j : Nat) : (s.freeStep).inst j = s.inst j := rfl
@[simp] theorem State.freeStep_slot_other (j : Nat) : (s.freeStep).slot j = s.slot j := rfl
@[simp] theorem State.freeStep_seq_other (j : Nat) : (s.freeStep).seq j = s.seq j := rfl
@[simp] theorem State.freeStep_fn_other (j : Nat) : (s.freeStep).fn j = s.fn j := rfl
@[simp] theorem State.freeStep_ses_other (j : Nat) : (s.freeStep).ses j = s.ses j := rfl
@[simp] theorem State.freeStep_stack_other (j : Nat) : (s.freeStep).stack j = s.stack j := rfl
@[simp] theorem State.freeStep_port_other (j : Nat) : (s.freeStep).port j = s.port j := rfl
@[simp] theorem State.freeStep_pin_other (j : Nat) : (s.freeStep).pin j = s.pin j := rfl
@[simp] theorem State.freeStep_region_other (j : Nat) : (s.freeStep).region j = s.region j := rfl
@[simp] theorem State.freeStep_panel_other (j : Nat) : (s.freeStep).panel j = s.panel j := rfl
@[simp] theorem State.freeStep_seam_other (j : Nat) : (s.freeStep).seam j = s.seam j := rfl

/-! ## `State.setCore` -/

@[simp] theorem State.setCore_pending (k : Nat) (v : Core) : (s.setCore k v).pending = s.pending := rfl
@[simp] theorem State.setCore_dict (k : Nat) (v : Core) : (s.setCore k v).dict = s.dict := rfl
@[simp] theorem State.setCore_blobs (k : Nat) (v : Core) : (s.setCore k v).blobs = s.blobs := rfl
@[simp] theorem State.setCore_time (k : Nat) (v : Core) : (s.setCore k v).time = s.time := rfl
@[simp] theorem State.setCore_uptime (k : Nat) (v : Core) : (s.setCore k v).uptime = s.uptime := rfl
@[simp] theorem State.setCore_wallTaken (k : Nat) (v : Core) : (s.setCore k v).wallTaken = s.wallTaken := rfl
@[simp] theorem State.setCore_mclkAcc (k : Nat) (v : Core) : (s.setCore k v).mclkAcc = s.mclkAcc := rfl
@[simp] theorem State.setCore_freeNext (k : Nat) (v : Core) : (s.setCore k v).freeNext = s.freeNext := rfl
@[simp] theorem State.setCore_log (k : Nat) (v : Core) : (s.setCore k v).log = s.log := rfl
@[simp] theorem State.setCore_scrubOn (k : Nat) (v : Core) : (s.setCore k v).scrubOn = s.scrubOn := rfl
@[simp] theorem State.setCore_routers (k : Nat) (v : Core) : (s.setCore k v).routers = s.routers := rfl
@[simp] theorem State.setCore_links (k : Nat) (v : Core) : (s.setCore k v).links = s.links := rfl
@[simp] theorem State.setCore_fns (k : Nat) (v : Core) : (s.setCore k v).fns = s.fns := rfl
@[simp] theorem State.setCore_sent (k : Nat) (v : Core) : (s.setCore k v).sent = s.sent := rfl
@[simp] theorem State.setCore_logMsgAt (k : Nat) (v : Core) : (s.setCore k v).logMsgAt = s.logMsgAt := rfl
@[simp] theorem State.setCore_logMsgHeld (k : Nat) (v : Core) : (s.setCore k v).logMsgHeld = s.logMsgHeld := rfl
@[simp] theorem State.setCore_hbm (k : Nat) (v : Core) : (s.setCore k v).hbm = s.hbm := rfl
@[simp] theorem State.setCore_hbmPoison (k : Nat) (v : Core) : (s.setCore k v).hbmPoison = s.hbmPoison := rfl
@[simp] theorem State.setCore_hbmErr (k : Nat) (v : Core) : (s.setCore k v).hbmErr = s.hbmErr := rfl
@[simp] theorem State.setCore_insts (k : Nat) (v : Core) : (s.setCore k v).insts = s.insts := rfl
@[simp] theorem State.setCore_hostMem (k : Nat) (v : Core) : (s.setCore k v).hostMem = s.hostMem := rfl
@[simp] theorem State.setCore_winTab (k : Nat) (v : Core) : (s.setCore k v).winTab = s.winTab := rfl
@[simp] theorem State.setCore_swin (k : Nat) (v : Core) : (s.setCore k v).swin = s.swin := rfl
@[simp] theorem State.setCore_seams (k : Nat) (v : Core) : (s.setCore k v).seams = s.seams := rfl
@[simp] theorem State.setCore_seqs (k : Nat) (v : Core) : (s.setCore k v).seqs = s.seqs := rfl
@[simp] theorem State.setCore_slots (k : Nat) (v : Core) : (s.setCore k v).slots = s.slots := rfl
@[simp] theorem State.setCore_marks (k : Nat) (v : Core) : (s.setCore k v).marks = s.marks := rfl
@[simp] theorem State.setCore_reqs (k : Nat) (v : Core) : (s.setCore k v).reqs = s.reqs := rfl
@[simp] theorem State.setCore_tx (k : Nat) (v : Core) : (s.setCore k v).tx = s.tx := rfl
@[simp] theorem State.setCore_sessions (k : Nat) (v : Core) : (s.setCore k v).sessions = s.sessions := rfl
@[simp] theorem State.setCore_kept (k : Nat) (v : Core) : (s.setCore k v).kept = s.kept := rfl
@[simp] theorem State.setCore_ptp (k : Nat) (v : Core) : (s.setCore k v).ptp = s.ptp := rfl
@[simp] theorem State.setCore_hbmStacks (k : Nat) (v : Core) : (s.setCore k v).hbmStacks = s.hbmStacks := rfl
@[simp] theorem State.setCore_ports (k : Nat) (v : Core) : (s.setCore k v).ports = s.ports := rfl
@[simp] theorem State.setCore_pins (k : Nat) (v : Core) : (s.setCore k v).pins = s.pins := rfl
@[simp] theorem State.setCore_tap (k : Nat) (v : Core) : (s.setCore k v).tap = s.tap := rfl
@[simp] theorem State.setCore_regions (k : Nat) (v : Core) : (s.setCore k v).regions = s.regions := rfl
@[simp] theorem State.setCore_panels (k : Nat) (v : Core) : (s.setCore k v).panels = s.panels := rfl
@[simp] theorem State.setCore_power (k : Nat) (v : Core) : (s.setCore k v).power = s.power := rfl
@[simp] theorem State.setCore_casc (k : Nat) (v : Core) : (s.setCore k v).casc = s.casc := rfl
@[simp] theorem State.setCore_sec (k : Nat) (v : Core) : (s.setCore k v).sec = s.sec := rfl
@[simp] theorem State.setCore_journalOld (k : Nat) (v : Core) : (s.setCore k v).journalOld = s.journalOld := rfl
@[simp] theorem State.setCore_muslinFailed (k : Nat) (v : Core) : (s.setCore k v).muslinFailed = s.muslinFailed := rfl
@[simp] theorem State.setCore_unretire (k : Nat) (v : Core) : (s.setCore k v).unretire = s.unretire := rfl
@[simp] theorem State.setCore_darnSet (k : Nat) (v : Core) : (s.setCore k v).darnSet = s.darnSet := rfl
@[simp] theorem State.setCore_rd_other (k : Nat) (v : Core) (j : Nat) : (s.setCore k v).rd j = s.rd j := rfl
@[simp] theorem State.setCore_blob_other (k : Nat) (v : Core) (j : Nat) : (s.setCore k v).blob j = s.blob j := rfl
@[simp] theorem State.setCore_router_other (k : Nat) (v : Core) (j : Nat) : (s.setCore k v).router j = s.router j := rfl
@[simp] theorem State.setCore_link_other (k : Nat) (v : Core) (j : Nat) : (s.setCore k v).link j = s.link j := rfl
@[simp] theorem State.setCore_inst_other (k : Nat) (v : Core) (j : Nat) : (s.setCore k v).inst j = s.inst j := rfl
@[simp] theorem State.setCore_slot_other (k : Nat) (v : Core) (j : Nat) : (s.setCore k v).slot j = s.slot j := rfl
@[simp] theorem State.setCore_seq_other (k : Nat) (v : Core) (j : Nat) : (s.setCore k v).seq j = s.seq j := rfl
@[simp] theorem State.setCore_fn_other (k : Nat) (v : Core) (j : Nat) : (s.setCore k v).fn j = s.fn j := rfl
@[simp] theorem State.setCore_ses_other (k : Nat) (v : Core) (j : Nat) : (s.setCore k v).ses j = s.ses j := rfl
@[simp] theorem State.setCore_stack_other (k : Nat) (v : Core) (j : Nat) : (s.setCore k v).stack j = s.stack j := rfl
@[simp] theorem State.setCore_port_other (k : Nat) (v : Core) (j : Nat) : (s.setCore k v).port j = s.port j := rfl
@[simp] theorem State.setCore_pin_other (k : Nat) (v : Core) (j : Nat) : (s.setCore k v).pin j = s.pin j := rfl
@[simp] theorem State.setCore_region_other (k : Nat) (v : Core) (j : Nat) : (s.setCore k v).region j = s.region j := rfl
@[simp] theorem State.setCore_panel_other (k : Nat) (v : Core) (j : Nat) : (s.setCore k v).panel j = s.panel j := rfl
@[simp] theorem State.setCore_seam_other (k : Nat) (v : Core) (j : Nat) : (s.setCore k v).seam j = s.seam j := rfl
@[simp] theorem State.core_setCore (k : Nat) (v : Core) : (s.setCore k v).core k = v := mapGet_set_self _ _ _ _
theorem State.core_setCore_if (k : Nat) (v : Core) (j : Nat) : (s.setCore k v).core j = if j = k then v else s.core j := mapGet_set _ _ _ _ _
theorem State.core_setCore_ne (k : Nat) (v : Core) (j : Nat) (h : j ≠ k) : (s.setCore k v).core j = s.core j := mapGet_set_other _ _ _ h

/-! ## `State.setRouter` -/

@[simp] theorem State.setRouter_pending (k : Nat) (v : Router) : (s.setRouter k v).pending = s.pending := rfl
@[simp] theorem State.setRouter_dict (k : Nat) (v : Router) : (s.setRouter k v).dict = s.dict := rfl
@[simp] theorem State.setRouter_blobs (k : Nat) (v : Router) : (s.setRouter k v).blobs = s.blobs := rfl
@[simp] theorem State.setRouter_time (k : Nat) (v : Router) : (s.setRouter k v).time = s.time := rfl
@[simp] theorem State.setRouter_uptime (k : Nat) (v : Router) : (s.setRouter k v).uptime = s.uptime := rfl
@[simp] theorem State.setRouter_wallTaken (k : Nat) (v : Router) : (s.setRouter k v).wallTaken = s.wallTaken := rfl
@[simp] theorem State.setRouter_mclkAcc (k : Nat) (v : Router) : (s.setRouter k v).mclkAcc = s.mclkAcc := rfl
@[simp] theorem State.setRouter_freeNext (k : Nat) (v : Router) : (s.setRouter k v).freeNext = s.freeNext := rfl
@[simp] theorem State.setRouter_log (k : Nat) (v : Router) : (s.setRouter k v).log = s.log := rfl
@[simp] theorem State.setRouter_scrubOn (k : Nat) (v : Router) : (s.setRouter k v).scrubOn = s.scrubOn := rfl
@[simp] theorem State.setRouter_cores (k : Nat) (v : Router) : (s.setRouter k v).cores = s.cores := rfl
@[simp] theorem State.setRouter_links (k : Nat) (v : Router) : (s.setRouter k v).links = s.links := rfl
@[simp] theorem State.setRouter_fns (k : Nat) (v : Router) : (s.setRouter k v).fns = s.fns := rfl
@[simp] theorem State.setRouter_sent (k : Nat) (v : Router) : (s.setRouter k v).sent = s.sent := rfl
@[simp] theorem State.setRouter_logMsgAt (k : Nat) (v : Router) : (s.setRouter k v).logMsgAt = s.logMsgAt := rfl
@[simp] theorem State.setRouter_logMsgHeld (k : Nat) (v : Router) : (s.setRouter k v).logMsgHeld = s.logMsgHeld := rfl
@[simp] theorem State.setRouter_hbm (k : Nat) (v : Router) : (s.setRouter k v).hbm = s.hbm := rfl
@[simp] theorem State.setRouter_hbmPoison (k : Nat) (v : Router) : (s.setRouter k v).hbmPoison = s.hbmPoison := rfl
@[simp] theorem State.setRouter_hbmErr (k : Nat) (v : Router) : (s.setRouter k v).hbmErr = s.hbmErr := rfl
@[simp] theorem State.setRouter_insts (k : Nat) (v : Router) : (s.setRouter k v).insts = s.insts := rfl
@[simp] theorem State.setRouter_hostMem (k : Nat) (v : Router) : (s.setRouter k v).hostMem = s.hostMem := rfl
@[simp] theorem State.setRouter_winTab (k : Nat) (v : Router) : (s.setRouter k v).winTab = s.winTab := rfl
@[simp] theorem State.setRouter_swin (k : Nat) (v : Router) : (s.setRouter k v).swin = s.swin := rfl
@[simp] theorem State.setRouter_seams (k : Nat) (v : Router) : (s.setRouter k v).seams = s.seams := rfl
@[simp] theorem State.setRouter_seqs (k : Nat) (v : Router) : (s.setRouter k v).seqs = s.seqs := rfl
@[simp] theorem State.setRouter_slots (k : Nat) (v : Router) : (s.setRouter k v).slots = s.slots := rfl
@[simp] theorem State.setRouter_marks (k : Nat) (v : Router) : (s.setRouter k v).marks = s.marks := rfl
@[simp] theorem State.setRouter_reqs (k : Nat) (v : Router) : (s.setRouter k v).reqs = s.reqs := rfl
@[simp] theorem State.setRouter_tx (k : Nat) (v : Router) : (s.setRouter k v).tx = s.tx := rfl
@[simp] theorem State.setRouter_sessions (k : Nat) (v : Router) : (s.setRouter k v).sessions = s.sessions := rfl
@[simp] theorem State.setRouter_kept (k : Nat) (v : Router) : (s.setRouter k v).kept = s.kept := rfl
@[simp] theorem State.setRouter_ptp (k : Nat) (v : Router) : (s.setRouter k v).ptp = s.ptp := rfl
@[simp] theorem State.setRouter_hbmStacks (k : Nat) (v : Router) : (s.setRouter k v).hbmStacks = s.hbmStacks := rfl
@[simp] theorem State.setRouter_ports (k : Nat) (v : Router) : (s.setRouter k v).ports = s.ports := rfl
@[simp] theorem State.setRouter_pins (k : Nat) (v : Router) : (s.setRouter k v).pins = s.pins := rfl
@[simp] theorem State.setRouter_tap (k : Nat) (v : Router) : (s.setRouter k v).tap = s.tap := rfl
@[simp] theorem State.setRouter_regions (k : Nat) (v : Router) : (s.setRouter k v).regions = s.regions := rfl
@[simp] theorem State.setRouter_panels (k : Nat) (v : Router) : (s.setRouter k v).panels = s.panels := rfl
@[simp] theorem State.setRouter_power (k : Nat) (v : Router) : (s.setRouter k v).power = s.power := rfl
@[simp] theorem State.setRouter_casc (k : Nat) (v : Router) : (s.setRouter k v).casc = s.casc := rfl
@[simp] theorem State.setRouter_sec (k : Nat) (v : Router) : (s.setRouter k v).sec = s.sec := rfl
@[simp] theorem State.setRouter_journalOld (k : Nat) (v : Router) : (s.setRouter k v).journalOld = s.journalOld := rfl
@[simp] theorem State.setRouter_muslinFailed (k : Nat) (v : Router) : (s.setRouter k v).muslinFailed = s.muslinFailed := rfl
@[simp] theorem State.setRouter_unretire (k : Nat) (v : Router) : (s.setRouter k v).unretire = s.unretire := rfl
@[simp] theorem State.setRouter_darnSet (k : Nat) (v : Router) : (s.setRouter k v).darnSet = s.darnSet := rfl
@[simp] theorem State.setRouter_rd_other (k : Nat) (v : Router) (j : Nat) : (s.setRouter k v).rd j = s.rd j := rfl
@[simp] theorem State.setRouter_blob_other (k : Nat) (v : Router) (j : Nat) : (s.setRouter k v).blob j = s.blob j := rfl
@[simp] theorem State.setRouter_core_other (k : Nat) (v : Router) (j : Nat) : (s.setRouter k v).core j = s.core j := rfl
@[simp] theorem State.setRouter_link_other (k : Nat) (v : Router) (j : Nat) : (s.setRouter k v).link j = s.link j := rfl
@[simp] theorem State.setRouter_inst_other (k : Nat) (v : Router) (j : Nat) : (s.setRouter k v).inst j = s.inst j := rfl
@[simp] theorem State.setRouter_slot_other (k : Nat) (v : Router) (j : Nat) : (s.setRouter k v).slot j = s.slot j := rfl
@[simp] theorem State.setRouter_seq_other (k : Nat) (v : Router) (j : Nat) : (s.setRouter k v).seq j = s.seq j := rfl
@[simp] theorem State.setRouter_fn_other (k : Nat) (v : Router) (j : Nat) : (s.setRouter k v).fn j = s.fn j := rfl
@[simp] theorem State.setRouter_ses_other (k : Nat) (v : Router) (j : Nat) : (s.setRouter k v).ses j = s.ses j := rfl
@[simp] theorem State.setRouter_stack_other (k : Nat) (v : Router) (j : Nat) : (s.setRouter k v).stack j = s.stack j := rfl
@[simp] theorem State.setRouter_port_other (k : Nat) (v : Router) (j : Nat) : (s.setRouter k v).port j = s.port j := rfl
@[simp] theorem State.setRouter_pin_other (k : Nat) (v : Router) (j : Nat) : (s.setRouter k v).pin j = s.pin j := rfl
@[simp] theorem State.setRouter_region_other (k : Nat) (v : Router) (j : Nat) : (s.setRouter k v).region j = s.region j := rfl
@[simp] theorem State.setRouter_panel_other (k : Nat) (v : Router) (j : Nat) : (s.setRouter k v).panel j = s.panel j := rfl
@[simp] theorem State.setRouter_seam_other (k : Nat) (v : Router) (j : Nat) : (s.setRouter k v).seam j = s.seam j := rfl
@[simp] theorem State.router_setRouter (k : Nat) (v : Router) : (s.setRouter k v).router k = v := mapGet_set_self _ _ _ _
theorem State.router_setRouter_if (k : Nat) (v : Router) (j : Nat) : (s.setRouter k v).router j = if j = k then v else s.router j := mapGet_set _ _ _ _ _
theorem State.router_setRouter_ne (k : Nat) (v : Router) (j : Nat) (h : j ≠ k) : (s.setRouter k v).router j = s.router j := mapGet_set_other _ _ _ h

/-! ## `State.setLink` -/

@[simp] theorem State.setLink_pending (k : Nat) (v : LinkDir) : (s.setLink k v).pending = s.pending := rfl
@[simp] theorem State.setLink_dict (k : Nat) (v : LinkDir) : (s.setLink k v).dict = s.dict := rfl
@[simp] theorem State.setLink_blobs (k : Nat) (v : LinkDir) : (s.setLink k v).blobs = s.blobs := rfl
@[simp] theorem State.setLink_time (k : Nat) (v : LinkDir) : (s.setLink k v).time = s.time := rfl
@[simp] theorem State.setLink_uptime (k : Nat) (v : LinkDir) : (s.setLink k v).uptime = s.uptime := rfl
@[simp] theorem State.setLink_wallTaken (k : Nat) (v : LinkDir) : (s.setLink k v).wallTaken = s.wallTaken := rfl
@[simp] theorem State.setLink_mclkAcc (k : Nat) (v : LinkDir) : (s.setLink k v).mclkAcc = s.mclkAcc := rfl
@[simp] theorem State.setLink_freeNext (k : Nat) (v : LinkDir) : (s.setLink k v).freeNext = s.freeNext := rfl
@[simp] theorem State.setLink_log (k : Nat) (v : LinkDir) : (s.setLink k v).log = s.log := rfl
@[simp] theorem State.setLink_scrubOn (k : Nat) (v : LinkDir) : (s.setLink k v).scrubOn = s.scrubOn := rfl
@[simp] theorem State.setLink_cores (k : Nat) (v : LinkDir) : (s.setLink k v).cores = s.cores := rfl
@[simp] theorem State.setLink_routers (k : Nat) (v : LinkDir) : (s.setLink k v).routers = s.routers := rfl
@[simp] theorem State.setLink_fns (k : Nat) (v : LinkDir) : (s.setLink k v).fns = s.fns := rfl
@[simp] theorem State.setLink_sent (k : Nat) (v : LinkDir) : (s.setLink k v).sent = s.sent := rfl
@[simp] theorem State.setLink_logMsgAt (k : Nat) (v : LinkDir) : (s.setLink k v).logMsgAt = s.logMsgAt := rfl
@[simp] theorem State.setLink_logMsgHeld (k : Nat) (v : LinkDir) : (s.setLink k v).logMsgHeld = s.logMsgHeld := rfl
@[simp] theorem State.setLink_hbm (k : Nat) (v : LinkDir) : (s.setLink k v).hbm = s.hbm := rfl
@[simp] theorem State.setLink_hbmPoison (k : Nat) (v : LinkDir) : (s.setLink k v).hbmPoison = s.hbmPoison := rfl
@[simp] theorem State.setLink_hbmErr (k : Nat) (v : LinkDir) : (s.setLink k v).hbmErr = s.hbmErr := rfl
@[simp] theorem State.setLink_insts (k : Nat) (v : LinkDir) : (s.setLink k v).insts = s.insts := rfl
@[simp] theorem State.setLink_hostMem (k : Nat) (v : LinkDir) : (s.setLink k v).hostMem = s.hostMem := rfl
@[simp] theorem State.setLink_winTab (k : Nat) (v : LinkDir) : (s.setLink k v).winTab = s.winTab := rfl
@[simp] theorem State.setLink_swin (k : Nat) (v : LinkDir) : (s.setLink k v).swin = s.swin := rfl
@[simp] theorem State.setLink_seams (k : Nat) (v : LinkDir) : (s.setLink k v).seams = s.seams := rfl
@[simp] theorem State.setLink_seqs (k : Nat) (v : LinkDir) : (s.setLink k v).seqs = s.seqs := rfl
@[simp] theorem State.setLink_slots (k : Nat) (v : LinkDir) : (s.setLink k v).slots = s.slots := rfl
@[simp] theorem State.setLink_marks (k : Nat) (v : LinkDir) : (s.setLink k v).marks = s.marks := rfl
@[simp] theorem State.setLink_reqs (k : Nat) (v : LinkDir) : (s.setLink k v).reqs = s.reqs := rfl
@[simp] theorem State.setLink_tx (k : Nat) (v : LinkDir) : (s.setLink k v).tx = s.tx := rfl
@[simp] theorem State.setLink_sessions (k : Nat) (v : LinkDir) : (s.setLink k v).sessions = s.sessions := rfl
@[simp] theorem State.setLink_kept (k : Nat) (v : LinkDir) : (s.setLink k v).kept = s.kept := rfl
@[simp] theorem State.setLink_ptp (k : Nat) (v : LinkDir) : (s.setLink k v).ptp = s.ptp := rfl
@[simp] theorem State.setLink_hbmStacks (k : Nat) (v : LinkDir) : (s.setLink k v).hbmStacks = s.hbmStacks := rfl
@[simp] theorem State.setLink_ports (k : Nat) (v : LinkDir) : (s.setLink k v).ports = s.ports := rfl
@[simp] theorem State.setLink_pins (k : Nat) (v : LinkDir) : (s.setLink k v).pins = s.pins := rfl
@[simp] theorem State.setLink_tap (k : Nat) (v : LinkDir) : (s.setLink k v).tap = s.tap := rfl
@[simp] theorem State.setLink_regions (k : Nat) (v : LinkDir) : (s.setLink k v).regions = s.regions := rfl
@[simp] theorem State.setLink_panels (k : Nat) (v : LinkDir) : (s.setLink k v).panels = s.panels := rfl
@[simp] theorem State.setLink_power (k : Nat) (v : LinkDir) : (s.setLink k v).power = s.power := rfl
@[simp] theorem State.setLink_casc (k : Nat) (v : LinkDir) : (s.setLink k v).casc = s.casc := rfl
@[simp] theorem State.setLink_sec (k : Nat) (v : LinkDir) : (s.setLink k v).sec = s.sec := rfl
@[simp] theorem State.setLink_journalOld (k : Nat) (v : LinkDir) : (s.setLink k v).journalOld = s.journalOld := rfl
@[simp] theorem State.setLink_muslinFailed (k : Nat) (v : LinkDir) : (s.setLink k v).muslinFailed = s.muslinFailed := rfl
@[simp] theorem State.setLink_unretire (k : Nat) (v : LinkDir) : (s.setLink k v).unretire = s.unretire := rfl
@[simp] theorem State.setLink_darnSet (k : Nat) (v : LinkDir) : (s.setLink k v).darnSet = s.darnSet := rfl
@[simp] theorem State.setLink_rd_other (k : Nat) (v : LinkDir) (j : Nat) : (s.setLink k v).rd j = s.rd j := rfl
@[simp] theorem State.setLink_blob_other (k : Nat) (v : LinkDir) (j : Nat) : (s.setLink k v).blob j = s.blob j := rfl
@[simp] theorem State.setLink_core_other (k : Nat) (v : LinkDir) (j : Nat) : (s.setLink k v).core j = s.core j := rfl
@[simp] theorem State.setLink_router_other (k : Nat) (v : LinkDir) (j : Nat) : (s.setLink k v).router j = s.router j := rfl
@[simp] theorem State.setLink_inst_other (k : Nat) (v : LinkDir) (j : Nat) : (s.setLink k v).inst j = s.inst j := rfl
@[simp] theorem State.setLink_slot_other (k : Nat) (v : LinkDir) (j : Nat) : (s.setLink k v).slot j = s.slot j := rfl
@[simp] theorem State.setLink_seq_other (k : Nat) (v : LinkDir) (j : Nat) : (s.setLink k v).seq j = s.seq j := rfl
@[simp] theorem State.setLink_fn_other (k : Nat) (v : LinkDir) (j : Nat) : (s.setLink k v).fn j = s.fn j := rfl
@[simp] theorem State.setLink_ses_other (k : Nat) (v : LinkDir) (j : Nat) : (s.setLink k v).ses j = s.ses j := rfl
@[simp] theorem State.setLink_stack_other (k : Nat) (v : LinkDir) (j : Nat) : (s.setLink k v).stack j = s.stack j := rfl
@[simp] theorem State.setLink_port_other (k : Nat) (v : LinkDir) (j : Nat) : (s.setLink k v).port j = s.port j := rfl
@[simp] theorem State.setLink_pin_other (k : Nat) (v : LinkDir) (j : Nat) : (s.setLink k v).pin j = s.pin j := rfl
@[simp] theorem State.setLink_region_other (k : Nat) (v : LinkDir) (j : Nat) : (s.setLink k v).region j = s.region j := rfl
@[simp] theorem State.setLink_panel_other (k : Nat) (v : LinkDir) (j : Nat) : (s.setLink k v).panel j = s.panel j := rfl
@[simp] theorem State.setLink_seam_other (k : Nat) (v : LinkDir) (j : Nat) : (s.setLink k v).seam j = s.seam j := rfl
@[simp] theorem State.link_setLink (k : Nat) (v : LinkDir) : (s.setLink k v).link k = v := mapGet_set_self _ _ _ _
theorem State.link_setLink_if (k : Nat) (v : LinkDir) (j : Nat) : (s.setLink k v).link j = if j = k then v else s.link j := mapGet_set _ _ _ _ _
theorem State.link_setLink_ne (k : Nat) (v : LinkDir) (j : Nat) (h : j ≠ k) : (s.setLink k v).link j = s.link j := mapGet_set_other _ _ _ h

/-! ## `State.setInst` -/

@[simp] theorem State.setInst_pending (k : Nat) (v : Inst) : (s.setInst k v).pending = s.pending := rfl
@[simp] theorem State.setInst_dict (k : Nat) (v : Inst) : (s.setInst k v).dict = s.dict := rfl
@[simp] theorem State.setInst_blobs (k : Nat) (v : Inst) : (s.setInst k v).blobs = s.blobs := rfl
@[simp] theorem State.setInst_time (k : Nat) (v : Inst) : (s.setInst k v).time = s.time := rfl
@[simp] theorem State.setInst_uptime (k : Nat) (v : Inst) : (s.setInst k v).uptime = s.uptime := rfl
@[simp] theorem State.setInst_wallTaken (k : Nat) (v : Inst) : (s.setInst k v).wallTaken = s.wallTaken := rfl
@[simp] theorem State.setInst_mclkAcc (k : Nat) (v : Inst) : (s.setInst k v).mclkAcc = s.mclkAcc := rfl
@[simp] theorem State.setInst_freeNext (k : Nat) (v : Inst) : (s.setInst k v).freeNext = s.freeNext := rfl
@[simp] theorem State.setInst_log (k : Nat) (v : Inst) : (s.setInst k v).log = s.log := rfl
@[simp] theorem State.setInst_scrubOn (k : Nat) (v : Inst) : (s.setInst k v).scrubOn = s.scrubOn := rfl
@[simp] theorem State.setInst_cores (k : Nat) (v : Inst) : (s.setInst k v).cores = s.cores := rfl
@[simp] theorem State.setInst_routers (k : Nat) (v : Inst) : (s.setInst k v).routers = s.routers := rfl
@[simp] theorem State.setInst_links (k : Nat) (v : Inst) : (s.setInst k v).links = s.links := rfl
@[simp] theorem State.setInst_fns (k : Nat) (v : Inst) : (s.setInst k v).fns = s.fns := rfl
@[simp] theorem State.setInst_sent (k : Nat) (v : Inst) : (s.setInst k v).sent = s.sent := rfl
@[simp] theorem State.setInst_logMsgAt (k : Nat) (v : Inst) : (s.setInst k v).logMsgAt = s.logMsgAt := rfl
@[simp] theorem State.setInst_logMsgHeld (k : Nat) (v : Inst) : (s.setInst k v).logMsgHeld = s.logMsgHeld := rfl
@[simp] theorem State.setInst_hbm (k : Nat) (v : Inst) : (s.setInst k v).hbm = s.hbm := rfl
@[simp] theorem State.setInst_hbmPoison (k : Nat) (v : Inst) : (s.setInst k v).hbmPoison = s.hbmPoison := rfl
@[simp] theorem State.setInst_hbmErr (k : Nat) (v : Inst) : (s.setInst k v).hbmErr = s.hbmErr := rfl
@[simp] theorem State.setInst_hostMem (k : Nat) (v : Inst) : (s.setInst k v).hostMem = s.hostMem := rfl
@[simp] theorem State.setInst_winTab (k : Nat) (v : Inst) : (s.setInst k v).winTab = s.winTab := rfl
@[simp] theorem State.setInst_swin (k : Nat) (v : Inst) : (s.setInst k v).swin = s.swin := rfl
@[simp] theorem State.setInst_seams (k : Nat) (v : Inst) : (s.setInst k v).seams = s.seams := rfl
@[simp] theorem State.setInst_seqs (k : Nat) (v : Inst) : (s.setInst k v).seqs = s.seqs := rfl
@[simp] theorem State.setInst_slots (k : Nat) (v : Inst) : (s.setInst k v).slots = s.slots := rfl
@[simp] theorem State.setInst_marks (k : Nat) (v : Inst) : (s.setInst k v).marks = s.marks := rfl
@[simp] theorem State.setInst_reqs (k : Nat) (v : Inst) : (s.setInst k v).reqs = s.reqs := rfl
@[simp] theorem State.setInst_tx (k : Nat) (v : Inst) : (s.setInst k v).tx = s.tx := rfl
@[simp] theorem State.setInst_sessions (k : Nat) (v : Inst) : (s.setInst k v).sessions = s.sessions := rfl
@[simp] theorem State.setInst_kept (k : Nat) (v : Inst) : (s.setInst k v).kept = s.kept := rfl
@[simp] theorem State.setInst_ptp (k : Nat) (v : Inst) : (s.setInst k v).ptp = s.ptp := rfl
@[simp] theorem State.setInst_hbmStacks (k : Nat) (v : Inst) : (s.setInst k v).hbmStacks = s.hbmStacks := rfl
@[simp] theorem State.setInst_ports (k : Nat) (v : Inst) : (s.setInst k v).ports = s.ports := rfl
@[simp] theorem State.setInst_pins (k : Nat) (v : Inst) : (s.setInst k v).pins = s.pins := rfl
@[simp] theorem State.setInst_tap (k : Nat) (v : Inst) : (s.setInst k v).tap = s.tap := rfl
@[simp] theorem State.setInst_regions (k : Nat) (v : Inst) : (s.setInst k v).regions = s.regions := rfl
@[simp] theorem State.setInst_panels (k : Nat) (v : Inst) : (s.setInst k v).panels = s.panels := rfl
@[simp] theorem State.setInst_power (k : Nat) (v : Inst) : (s.setInst k v).power = s.power := rfl
@[simp] theorem State.setInst_casc (k : Nat) (v : Inst) : (s.setInst k v).casc = s.casc := rfl
@[simp] theorem State.setInst_sec (k : Nat) (v : Inst) : (s.setInst k v).sec = s.sec := rfl
@[simp] theorem State.setInst_journalOld (k : Nat) (v : Inst) : (s.setInst k v).journalOld = s.journalOld := rfl
@[simp] theorem State.setInst_muslinFailed (k : Nat) (v : Inst) : (s.setInst k v).muslinFailed = s.muslinFailed := rfl
@[simp] theorem State.setInst_unretire (k : Nat) (v : Inst) : (s.setInst k v).unretire = s.unretire := rfl
@[simp] theorem State.setInst_darnSet (k : Nat) (v : Inst) : (s.setInst k v).darnSet = s.darnSet := rfl
@[simp] theorem State.setInst_rd_other (k : Nat) (v : Inst) (j : Nat) : (s.setInst k v).rd j = s.rd j := rfl
@[simp] theorem State.setInst_blob_other (k : Nat) (v : Inst) (j : Nat) : (s.setInst k v).blob j = s.blob j := rfl
@[simp] theorem State.setInst_core_other (k : Nat) (v : Inst) (j : Nat) : (s.setInst k v).core j = s.core j := rfl
@[simp] theorem State.setInst_router_other (k : Nat) (v : Inst) (j : Nat) : (s.setInst k v).router j = s.router j := rfl
@[simp] theorem State.setInst_link_other (k : Nat) (v : Inst) (j : Nat) : (s.setInst k v).link j = s.link j := rfl
@[simp] theorem State.setInst_slot_other (k : Nat) (v : Inst) (j : Nat) : (s.setInst k v).slot j = s.slot j := rfl
@[simp] theorem State.setInst_seq_other (k : Nat) (v : Inst) (j : Nat) : (s.setInst k v).seq j = s.seq j := rfl
@[simp] theorem State.setInst_fn_other (k : Nat) (v : Inst) (j : Nat) : (s.setInst k v).fn j = s.fn j := rfl
@[simp] theorem State.setInst_ses_other (k : Nat) (v : Inst) (j : Nat) : (s.setInst k v).ses j = s.ses j := rfl
@[simp] theorem State.setInst_stack_other (k : Nat) (v : Inst) (j : Nat) : (s.setInst k v).stack j = s.stack j := rfl
@[simp] theorem State.setInst_port_other (k : Nat) (v : Inst) (j : Nat) : (s.setInst k v).port j = s.port j := rfl
@[simp] theorem State.setInst_pin_other (k : Nat) (v : Inst) (j : Nat) : (s.setInst k v).pin j = s.pin j := rfl
@[simp] theorem State.setInst_region_other (k : Nat) (v : Inst) (j : Nat) : (s.setInst k v).region j = s.region j := rfl
@[simp] theorem State.setInst_panel_other (k : Nat) (v : Inst) (j : Nat) : (s.setInst k v).panel j = s.panel j := rfl
@[simp] theorem State.setInst_seam_other (k : Nat) (v : Inst) (j : Nat) : (s.setInst k v).seam j = s.seam j := rfl
@[simp] theorem State.inst_setInst (k : Nat) (v : Inst) : (s.setInst k v).inst k = v := mapGet_set_self _ _ _ _
theorem State.inst_setInst_if (k : Nat) (v : Inst) (j : Nat) : (s.setInst k v).inst j = if j = k then v else s.inst j := mapGet_set _ _ _ _ _
theorem State.inst_setInst_ne (k : Nat) (v : Inst) (j : Nat) (h : j ≠ k) : (s.setInst k v).inst j = s.inst j := mapGet_set_other _ _ _ h

/-! ## `State.setSlot` -/

@[simp] theorem State.setSlot_pending (k : Nat) (v : Slot) : (s.setSlot k v).pending = s.pending := rfl
@[simp] theorem State.setSlot_dict (k : Nat) (v : Slot) : (s.setSlot k v).dict = s.dict := rfl
@[simp] theorem State.setSlot_blobs (k : Nat) (v : Slot) : (s.setSlot k v).blobs = s.blobs := rfl
@[simp] theorem State.setSlot_time (k : Nat) (v : Slot) : (s.setSlot k v).time = s.time := rfl
@[simp] theorem State.setSlot_uptime (k : Nat) (v : Slot) : (s.setSlot k v).uptime = s.uptime := rfl
@[simp] theorem State.setSlot_wallTaken (k : Nat) (v : Slot) : (s.setSlot k v).wallTaken = s.wallTaken := rfl
@[simp] theorem State.setSlot_mclkAcc (k : Nat) (v : Slot) : (s.setSlot k v).mclkAcc = s.mclkAcc := rfl
@[simp] theorem State.setSlot_freeNext (k : Nat) (v : Slot) : (s.setSlot k v).freeNext = s.freeNext := rfl
@[simp] theorem State.setSlot_log (k : Nat) (v : Slot) : (s.setSlot k v).log = s.log := rfl
@[simp] theorem State.setSlot_scrubOn (k : Nat) (v : Slot) : (s.setSlot k v).scrubOn = s.scrubOn := rfl
@[simp] theorem State.setSlot_cores (k : Nat) (v : Slot) : (s.setSlot k v).cores = s.cores := rfl
@[simp] theorem State.setSlot_routers (k : Nat) (v : Slot) : (s.setSlot k v).routers = s.routers := rfl
@[simp] theorem State.setSlot_links (k : Nat) (v : Slot) : (s.setSlot k v).links = s.links := rfl
@[simp] theorem State.setSlot_fns (k : Nat) (v : Slot) : (s.setSlot k v).fns = s.fns := rfl
@[simp] theorem State.setSlot_sent (k : Nat) (v : Slot) : (s.setSlot k v).sent = s.sent := rfl
@[simp] theorem State.setSlot_logMsgAt (k : Nat) (v : Slot) : (s.setSlot k v).logMsgAt = s.logMsgAt := rfl
@[simp] theorem State.setSlot_logMsgHeld (k : Nat) (v : Slot) : (s.setSlot k v).logMsgHeld = s.logMsgHeld := rfl
@[simp] theorem State.setSlot_hbm (k : Nat) (v : Slot) : (s.setSlot k v).hbm = s.hbm := rfl
@[simp] theorem State.setSlot_hbmPoison (k : Nat) (v : Slot) : (s.setSlot k v).hbmPoison = s.hbmPoison := rfl
@[simp] theorem State.setSlot_hbmErr (k : Nat) (v : Slot) : (s.setSlot k v).hbmErr = s.hbmErr := rfl
@[simp] theorem State.setSlot_insts (k : Nat) (v : Slot) : (s.setSlot k v).insts = s.insts := rfl
@[simp] theorem State.setSlot_hostMem (k : Nat) (v : Slot) : (s.setSlot k v).hostMem = s.hostMem := rfl
@[simp] theorem State.setSlot_winTab (k : Nat) (v : Slot) : (s.setSlot k v).winTab = s.winTab := rfl
@[simp] theorem State.setSlot_swin (k : Nat) (v : Slot) : (s.setSlot k v).swin = s.swin := rfl
@[simp] theorem State.setSlot_seams (k : Nat) (v : Slot) : (s.setSlot k v).seams = s.seams := rfl
@[simp] theorem State.setSlot_seqs (k : Nat) (v : Slot) : (s.setSlot k v).seqs = s.seqs := rfl
@[simp] theorem State.setSlot_marks (k : Nat) (v : Slot) : (s.setSlot k v).marks = s.marks := rfl
@[simp] theorem State.setSlot_reqs (k : Nat) (v : Slot) : (s.setSlot k v).reqs = s.reqs := rfl
@[simp] theorem State.setSlot_tx (k : Nat) (v : Slot) : (s.setSlot k v).tx = s.tx := rfl
@[simp] theorem State.setSlot_sessions (k : Nat) (v : Slot) : (s.setSlot k v).sessions = s.sessions := rfl
@[simp] theorem State.setSlot_kept (k : Nat) (v : Slot) : (s.setSlot k v).kept = s.kept := rfl
@[simp] theorem State.setSlot_ptp (k : Nat) (v : Slot) : (s.setSlot k v).ptp = s.ptp := rfl
@[simp] theorem State.setSlot_hbmStacks (k : Nat) (v : Slot) : (s.setSlot k v).hbmStacks = s.hbmStacks := rfl
@[simp] theorem State.setSlot_ports (k : Nat) (v : Slot) : (s.setSlot k v).ports = s.ports := rfl
@[simp] theorem State.setSlot_pins (k : Nat) (v : Slot) : (s.setSlot k v).pins = s.pins := rfl
@[simp] theorem State.setSlot_tap (k : Nat) (v : Slot) : (s.setSlot k v).tap = s.tap := rfl
@[simp] theorem State.setSlot_regions (k : Nat) (v : Slot) : (s.setSlot k v).regions = s.regions := rfl
@[simp] theorem State.setSlot_panels (k : Nat) (v : Slot) : (s.setSlot k v).panels = s.panels := rfl
@[simp] theorem State.setSlot_power (k : Nat) (v : Slot) : (s.setSlot k v).power = s.power := rfl
@[simp] theorem State.setSlot_casc (k : Nat) (v : Slot) : (s.setSlot k v).casc = s.casc := rfl
@[simp] theorem State.setSlot_sec (k : Nat) (v : Slot) : (s.setSlot k v).sec = s.sec := rfl
@[simp] theorem State.setSlot_journalOld (k : Nat) (v : Slot) : (s.setSlot k v).journalOld = s.journalOld := rfl
@[simp] theorem State.setSlot_muslinFailed (k : Nat) (v : Slot) : (s.setSlot k v).muslinFailed = s.muslinFailed := rfl
@[simp] theorem State.setSlot_unretire (k : Nat) (v : Slot) : (s.setSlot k v).unretire = s.unretire := rfl
@[simp] theorem State.setSlot_darnSet (k : Nat) (v : Slot) : (s.setSlot k v).darnSet = s.darnSet := rfl
@[simp] theorem State.setSlot_rd_other (k : Nat) (v : Slot) (j : Nat) : (s.setSlot k v).rd j = s.rd j := rfl
@[simp] theorem State.setSlot_blob_other (k : Nat) (v : Slot) (j : Nat) : (s.setSlot k v).blob j = s.blob j := rfl
@[simp] theorem State.setSlot_core_other (k : Nat) (v : Slot) (j : Nat) : (s.setSlot k v).core j = s.core j := rfl
@[simp] theorem State.setSlot_router_other (k : Nat) (v : Slot) (j : Nat) : (s.setSlot k v).router j = s.router j := rfl
@[simp] theorem State.setSlot_link_other (k : Nat) (v : Slot) (j : Nat) : (s.setSlot k v).link j = s.link j := rfl
@[simp] theorem State.setSlot_inst_other (k : Nat) (v : Slot) (j : Nat) : (s.setSlot k v).inst j = s.inst j := rfl
@[simp] theorem State.setSlot_seq_other (k : Nat) (v : Slot) (j : Nat) : (s.setSlot k v).seq j = s.seq j := rfl
@[simp] theorem State.setSlot_fn_other (k : Nat) (v : Slot) (j : Nat) : (s.setSlot k v).fn j = s.fn j := rfl
@[simp] theorem State.setSlot_ses_other (k : Nat) (v : Slot) (j : Nat) : (s.setSlot k v).ses j = s.ses j := rfl
@[simp] theorem State.setSlot_stack_other (k : Nat) (v : Slot) (j : Nat) : (s.setSlot k v).stack j = s.stack j := rfl
@[simp] theorem State.setSlot_port_other (k : Nat) (v : Slot) (j : Nat) : (s.setSlot k v).port j = s.port j := rfl
@[simp] theorem State.setSlot_pin_other (k : Nat) (v : Slot) (j : Nat) : (s.setSlot k v).pin j = s.pin j := rfl
@[simp] theorem State.setSlot_region_other (k : Nat) (v : Slot) (j : Nat) : (s.setSlot k v).region j = s.region j := rfl
@[simp] theorem State.setSlot_panel_other (k : Nat) (v : Slot) (j : Nat) : (s.setSlot k v).panel j = s.panel j := rfl
@[simp] theorem State.setSlot_seam_other (k : Nat) (v : Slot) (j : Nat) : (s.setSlot k v).seam j = s.seam j := rfl
@[simp] theorem State.slot_setSlot (k : Nat) (v : Slot) : (s.setSlot k v).slot k = v := mapGet_set_self _ _ _ _
theorem State.slot_setSlot_if (k : Nat) (v : Slot) (j : Nat) : (s.setSlot k v).slot j = if j = k then v else s.slot j := mapGet_set _ _ _ _ _
theorem State.slot_setSlot_ne (k : Nat) (v : Slot) (j : Nat) (h : j ≠ k) : (s.setSlot k v).slot j = s.slot j := mapGet_set_other _ _ _ h

/-! ## `State.setSeq` -/

@[simp] theorem State.setSeq_pending (k : Nat) (v : Seq) : (s.setSeq k v).pending = s.pending := rfl
@[simp] theorem State.setSeq_dict (k : Nat) (v : Seq) : (s.setSeq k v).dict = s.dict := rfl
@[simp] theorem State.setSeq_blobs (k : Nat) (v : Seq) : (s.setSeq k v).blobs = s.blobs := rfl
@[simp] theorem State.setSeq_time (k : Nat) (v : Seq) : (s.setSeq k v).time = s.time := rfl
@[simp] theorem State.setSeq_uptime (k : Nat) (v : Seq) : (s.setSeq k v).uptime = s.uptime := rfl
@[simp] theorem State.setSeq_wallTaken (k : Nat) (v : Seq) : (s.setSeq k v).wallTaken = s.wallTaken := rfl
@[simp] theorem State.setSeq_mclkAcc (k : Nat) (v : Seq) : (s.setSeq k v).mclkAcc = s.mclkAcc := rfl
@[simp] theorem State.setSeq_freeNext (k : Nat) (v : Seq) : (s.setSeq k v).freeNext = s.freeNext := rfl
@[simp] theorem State.setSeq_log (k : Nat) (v : Seq) : (s.setSeq k v).log = s.log := rfl
@[simp] theorem State.setSeq_scrubOn (k : Nat) (v : Seq) : (s.setSeq k v).scrubOn = s.scrubOn := rfl
@[simp] theorem State.setSeq_cores (k : Nat) (v : Seq) : (s.setSeq k v).cores = s.cores := rfl
@[simp] theorem State.setSeq_routers (k : Nat) (v : Seq) : (s.setSeq k v).routers = s.routers := rfl
@[simp] theorem State.setSeq_links (k : Nat) (v : Seq) : (s.setSeq k v).links = s.links := rfl
@[simp] theorem State.setSeq_fns (k : Nat) (v : Seq) : (s.setSeq k v).fns = s.fns := rfl
@[simp] theorem State.setSeq_sent (k : Nat) (v : Seq) : (s.setSeq k v).sent = s.sent := rfl
@[simp] theorem State.setSeq_logMsgAt (k : Nat) (v : Seq) : (s.setSeq k v).logMsgAt = s.logMsgAt := rfl
@[simp] theorem State.setSeq_logMsgHeld (k : Nat) (v : Seq) : (s.setSeq k v).logMsgHeld = s.logMsgHeld := rfl
@[simp] theorem State.setSeq_hbm (k : Nat) (v : Seq) : (s.setSeq k v).hbm = s.hbm := rfl
@[simp] theorem State.setSeq_hbmPoison (k : Nat) (v : Seq) : (s.setSeq k v).hbmPoison = s.hbmPoison := rfl
@[simp] theorem State.setSeq_hbmErr (k : Nat) (v : Seq) : (s.setSeq k v).hbmErr = s.hbmErr := rfl
@[simp] theorem State.setSeq_insts (k : Nat) (v : Seq) : (s.setSeq k v).insts = s.insts := rfl
@[simp] theorem State.setSeq_hostMem (k : Nat) (v : Seq) : (s.setSeq k v).hostMem = s.hostMem := rfl
@[simp] theorem State.setSeq_winTab (k : Nat) (v : Seq) : (s.setSeq k v).winTab = s.winTab := rfl
@[simp] theorem State.setSeq_swin (k : Nat) (v : Seq) : (s.setSeq k v).swin = s.swin := rfl
@[simp] theorem State.setSeq_seams (k : Nat) (v : Seq) : (s.setSeq k v).seams = s.seams := rfl
@[simp] theorem State.setSeq_slots (k : Nat) (v : Seq) : (s.setSeq k v).slots = s.slots := rfl
@[simp] theorem State.setSeq_marks (k : Nat) (v : Seq) : (s.setSeq k v).marks = s.marks := rfl
@[simp] theorem State.setSeq_reqs (k : Nat) (v : Seq) : (s.setSeq k v).reqs = s.reqs := rfl
@[simp] theorem State.setSeq_tx (k : Nat) (v : Seq) : (s.setSeq k v).tx = s.tx := rfl
@[simp] theorem State.setSeq_sessions (k : Nat) (v : Seq) : (s.setSeq k v).sessions = s.sessions := rfl
@[simp] theorem State.setSeq_kept (k : Nat) (v : Seq) : (s.setSeq k v).kept = s.kept := rfl
@[simp] theorem State.setSeq_ptp (k : Nat) (v : Seq) : (s.setSeq k v).ptp = s.ptp := rfl
@[simp] theorem State.setSeq_hbmStacks (k : Nat) (v : Seq) : (s.setSeq k v).hbmStacks = s.hbmStacks := rfl
@[simp] theorem State.setSeq_ports (k : Nat) (v : Seq) : (s.setSeq k v).ports = s.ports := rfl
@[simp] theorem State.setSeq_pins (k : Nat) (v : Seq) : (s.setSeq k v).pins = s.pins := rfl
@[simp] theorem State.setSeq_tap (k : Nat) (v : Seq) : (s.setSeq k v).tap = s.tap := rfl
@[simp] theorem State.setSeq_regions (k : Nat) (v : Seq) : (s.setSeq k v).regions = s.regions := rfl
@[simp] theorem State.setSeq_panels (k : Nat) (v : Seq) : (s.setSeq k v).panels = s.panels := rfl
@[simp] theorem State.setSeq_power (k : Nat) (v : Seq) : (s.setSeq k v).power = s.power := rfl
@[simp] theorem State.setSeq_casc (k : Nat) (v : Seq) : (s.setSeq k v).casc = s.casc := rfl
@[simp] theorem State.setSeq_sec (k : Nat) (v : Seq) : (s.setSeq k v).sec = s.sec := rfl
@[simp] theorem State.setSeq_journalOld (k : Nat) (v : Seq) : (s.setSeq k v).journalOld = s.journalOld := rfl
@[simp] theorem State.setSeq_muslinFailed (k : Nat) (v : Seq) : (s.setSeq k v).muslinFailed = s.muslinFailed := rfl
@[simp] theorem State.setSeq_unretire (k : Nat) (v : Seq) : (s.setSeq k v).unretire = s.unretire := rfl
@[simp] theorem State.setSeq_darnSet (k : Nat) (v : Seq) : (s.setSeq k v).darnSet = s.darnSet := rfl
@[simp] theorem State.setSeq_rd_other (k : Nat) (v : Seq) (j : Nat) : (s.setSeq k v).rd j = s.rd j := rfl
@[simp] theorem State.setSeq_blob_other (k : Nat) (v : Seq) (j : Nat) : (s.setSeq k v).blob j = s.blob j := rfl
@[simp] theorem State.setSeq_core_other (k : Nat) (v : Seq) (j : Nat) : (s.setSeq k v).core j = s.core j := rfl
@[simp] theorem State.setSeq_router_other (k : Nat) (v : Seq) (j : Nat) : (s.setSeq k v).router j = s.router j := rfl
@[simp] theorem State.setSeq_link_other (k : Nat) (v : Seq) (j : Nat) : (s.setSeq k v).link j = s.link j := rfl
@[simp] theorem State.setSeq_inst_other (k : Nat) (v : Seq) (j : Nat) : (s.setSeq k v).inst j = s.inst j := rfl
@[simp] theorem State.setSeq_slot_other (k : Nat) (v : Seq) (j : Nat) : (s.setSeq k v).slot j = s.slot j := rfl
@[simp] theorem State.setSeq_fn_other (k : Nat) (v : Seq) (j : Nat) : (s.setSeq k v).fn j = s.fn j := rfl
@[simp] theorem State.setSeq_ses_other (k : Nat) (v : Seq) (j : Nat) : (s.setSeq k v).ses j = s.ses j := rfl
@[simp] theorem State.setSeq_stack_other (k : Nat) (v : Seq) (j : Nat) : (s.setSeq k v).stack j = s.stack j := rfl
@[simp] theorem State.setSeq_port_other (k : Nat) (v : Seq) (j : Nat) : (s.setSeq k v).port j = s.port j := rfl
@[simp] theorem State.setSeq_pin_other (k : Nat) (v : Seq) (j : Nat) : (s.setSeq k v).pin j = s.pin j := rfl
@[simp] theorem State.setSeq_region_other (k : Nat) (v : Seq) (j : Nat) : (s.setSeq k v).region j = s.region j := rfl
@[simp] theorem State.setSeq_panel_other (k : Nat) (v : Seq) (j : Nat) : (s.setSeq k v).panel j = s.panel j := rfl
@[simp] theorem State.setSeq_seam_other (k : Nat) (v : Seq) (j : Nat) : (s.setSeq k v).seam j = s.seam j := rfl
@[simp] theorem State.seq_setSeq (k : Nat) (v : Seq) : (s.setSeq k v).seq k = v := mapGet_set_self _ _ _ _
theorem State.seq_setSeq_if (k : Nat) (v : Seq) (j : Nat) : (s.setSeq k v).seq j = if j = k then v else s.seq j := mapGet_set _ _ _ _ _
theorem State.seq_setSeq_ne (k : Nat) (v : Seq) (j : Nat) (h : j ≠ k) : (s.setSeq k v).seq j = s.seq j := mapGet_set_other _ _ _ h

/-! ## `State.setFn` -/

@[simp] theorem State.setFn_pending (k : Nat) (v : Fn) : (s.setFn k v).pending = s.pending := rfl
@[simp] theorem State.setFn_dict (k : Nat) (v : Fn) : (s.setFn k v).dict = s.dict := rfl
@[simp] theorem State.setFn_blobs (k : Nat) (v : Fn) : (s.setFn k v).blobs = s.blobs := rfl
@[simp] theorem State.setFn_time (k : Nat) (v : Fn) : (s.setFn k v).time = s.time := rfl
@[simp] theorem State.setFn_uptime (k : Nat) (v : Fn) : (s.setFn k v).uptime = s.uptime := rfl
@[simp] theorem State.setFn_wallTaken (k : Nat) (v : Fn) : (s.setFn k v).wallTaken = s.wallTaken := rfl
@[simp] theorem State.setFn_mclkAcc (k : Nat) (v : Fn) : (s.setFn k v).mclkAcc = s.mclkAcc := rfl
@[simp] theorem State.setFn_freeNext (k : Nat) (v : Fn) : (s.setFn k v).freeNext = s.freeNext := rfl
@[simp] theorem State.setFn_log (k : Nat) (v : Fn) : (s.setFn k v).log = s.log := rfl
@[simp] theorem State.setFn_scrubOn (k : Nat) (v : Fn) : (s.setFn k v).scrubOn = s.scrubOn := rfl
@[simp] theorem State.setFn_cores (k : Nat) (v : Fn) : (s.setFn k v).cores = s.cores := rfl
@[simp] theorem State.setFn_routers (k : Nat) (v : Fn) : (s.setFn k v).routers = s.routers := rfl
@[simp] theorem State.setFn_links (k : Nat) (v : Fn) : (s.setFn k v).links = s.links := rfl
@[simp] theorem State.setFn_sent (k : Nat) (v : Fn) : (s.setFn k v).sent = s.sent := rfl
@[simp] theorem State.setFn_logMsgAt (k : Nat) (v : Fn) : (s.setFn k v).logMsgAt = s.logMsgAt := rfl
@[simp] theorem State.setFn_logMsgHeld (k : Nat) (v : Fn) : (s.setFn k v).logMsgHeld = s.logMsgHeld := rfl
@[simp] theorem State.setFn_hbm (k : Nat) (v : Fn) : (s.setFn k v).hbm = s.hbm := rfl
@[simp] theorem State.setFn_hbmPoison (k : Nat) (v : Fn) : (s.setFn k v).hbmPoison = s.hbmPoison := rfl
@[simp] theorem State.setFn_hbmErr (k : Nat) (v : Fn) : (s.setFn k v).hbmErr = s.hbmErr := rfl
@[simp] theorem State.setFn_insts (k : Nat) (v : Fn) : (s.setFn k v).insts = s.insts := rfl
@[simp] theorem State.setFn_hostMem (k : Nat) (v : Fn) : (s.setFn k v).hostMem = s.hostMem := rfl
@[simp] theorem State.setFn_winTab (k : Nat) (v : Fn) : (s.setFn k v).winTab = s.winTab := rfl
@[simp] theorem State.setFn_swin (k : Nat) (v : Fn) : (s.setFn k v).swin = s.swin := rfl
@[simp] theorem State.setFn_seams (k : Nat) (v : Fn) : (s.setFn k v).seams = s.seams := rfl
@[simp] theorem State.setFn_seqs (k : Nat) (v : Fn) : (s.setFn k v).seqs = s.seqs := rfl
@[simp] theorem State.setFn_slots (k : Nat) (v : Fn) : (s.setFn k v).slots = s.slots := rfl
@[simp] theorem State.setFn_marks (k : Nat) (v : Fn) : (s.setFn k v).marks = s.marks := rfl
@[simp] theorem State.setFn_reqs (k : Nat) (v : Fn) : (s.setFn k v).reqs = s.reqs := rfl
@[simp] theorem State.setFn_tx (k : Nat) (v : Fn) : (s.setFn k v).tx = s.tx := rfl
@[simp] theorem State.setFn_sessions (k : Nat) (v : Fn) : (s.setFn k v).sessions = s.sessions := rfl
@[simp] theorem State.setFn_kept (k : Nat) (v : Fn) : (s.setFn k v).kept = s.kept := rfl
@[simp] theorem State.setFn_ptp (k : Nat) (v : Fn) : (s.setFn k v).ptp = s.ptp := rfl
@[simp] theorem State.setFn_hbmStacks (k : Nat) (v : Fn) : (s.setFn k v).hbmStacks = s.hbmStacks := rfl
@[simp] theorem State.setFn_ports (k : Nat) (v : Fn) : (s.setFn k v).ports = s.ports := rfl
@[simp] theorem State.setFn_pins (k : Nat) (v : Fn) : (s.setFn k v).pins = s.pins := rfl
@[simp] theorem State.setFn_tap (k : Nat) (v : Fn) : (s.setFn k v).tap = s.tap := rfl
@[simp] theorem State.setFn_regions (k : Nat) (v : Fn) : (s.setFn k v).regions = s.regions := rfl
@[simp] theorem State.setFn_panels (k : Nat) (v : Fn) : (s.setFn k v).panels = s.panels := rfl
@[simp] theorem State.setFn_power (k : Nat) (v : Fn) : (s.setFn k v).power = s.power := rfl
@[simp] theorem State.setFn_casc (k : Nat) (v : Fn) : (s.setFn k v).casc = s.casc := rfl
@[simp] theorem State.setFn_sec (k : Nat) (v : Fn) : (s.setFn k v).sec = s.sec := rfl
@[simp] theorem State.setFn_journalOld (k : Nat) (v : Fn) : (s.setFn k v).journalOld = s.journalOld := rfl
@[simp] theorem State.setFn_muslinFailed (k : Nat) (v : Fn) : (s.setFn k v).muslinFailed = s.muslinFailed := rfl
@[simp] theorem State.setFn_unretire (k : Nat) (v : Fn) : (s.setFn k v).unretire = s.unretire := rfl
@[simp] theorem State.setFn_darnSet (k : Nat) (v : Fn) : (s.setFn k v).darnSet = s.darnSet := rfl
@[simp] theorem State.setFn_rd_other (k : Nat) (v : Fn) (j : Nat) : (s.setFn k v).rd j = s.rd j := rfl
@[simp] theorem State.setFn_blob_other (k : Nat) (v : Fn) (j : Nat) : (s.setFn k v).blob j = s.blob j := rfl
@[simp] theorem State.setFn_core_other (k : Nat) (v : Fn) (j : Nat) : (s.setFn k v).core j = s.core j := rfl
@[simp] theorem State.setFn_router_other (k : Nat) (v : Fn) (j : Nat) : (s.setFn k v).router j = s.router j := rfl
@[simp] theorem State.setFn_link_other (k : Nat) (v : Fn) (j : Nat) : (s.setFn k v).link j = s.link j := rfl
@[simp] theorem State.setFn_inst_other (k : Nat) (v : Fn) (j : Nat) : (s.setFn k v).inst j = s.inst j := rfl
@[simp] theorem State.setFn_slot_other (k : Nat) (v : Fn) (j : Nat) : (s.setFn k v).slot j = s.slot j := rfl
@[simp] theorem State.setFn_seq_other (k : Nat) (v : Fn) (j : Nat) : (s.setFn k v).seq j = s.seq j := rfl
@[simp] theorem State.setFn_ses_other (k : Nat) (v : Fn) (j : Nat) : (s.setFn k v).ses j = s.ses j := rfl
@[simp] theorem State.setFn_stack_other (k : Nat) (v : Fn) (j : Nat) : (s.setFn k v).stack j = s.stack j := rfl
@[simp] theorem State.setFn_port_other (k : Nat) (v : Fn) (j : Nat) : (s.setFn k v).port j = s.port j := rfl
@[simp] theorem State.setFn_pin_other (k : Nat) (v : Fn) (j : Nat) : (s.setFn k v).pin j = s.pin j := rfl
@[simp] theorem State.setFn_region_other (k : Nat) (v : Fn) (j : Nat) : (s.setFn k v).region j = s.region j := rfl
@[simp] theorem State.setFn_panel_other (k : Nat) (v : Fn) (j : Nat) : (s.setFn k v).panel j = s.panel j := rfl
@[simp] theorem State.setFn_seam_other (k : Nat) (v : Fn) (j : Nat) : (s.setFn k v).seam j = s.seam j := rfl
@[simp] theorem State.fn_setFn (k : Nat) (v : Fn) : (s.setFn k v).fn k = v := mapGet_set_self _ _ _ _
theorem State.fn_setFn_if (k : Nat) (v : Fn) (j : Nat) : (s.setFn k v).fn j = if j = k then v else s.fn j := mapGet_set _ _ _ _ _
theorem State.fn_setFn_ne (k : Nat) (v : Fn) (j : Nat) (h : j ≠ k) : (s.setFn k v).fn j = s.fn j := mapGet_set_other _ _ _ h

/-! ## `State.setSes` -/

@[simp] theorem State.setSes_pending (k : Nat) (v : Ses) : (s.setSes k v).pending = s.pending := rfl
@[simp] theorem State.setSes_dict (k : Nat) (v : Ses) : (s.setSes k v).dict = s.dict := rfl
@[simp] theorem State.setSes_blobs (k : Nat) (v : Ses) : (s.setSes k v).blobs = s.blobs := rfl
@[simp] theorem State.setSes_time (k : Nat) (v : Ses) : (s.setSes k v).time = s.time := rfl
@[simp] theorem State.setSes_uptime (k : Nat) (v : Ses) : (s.setSes k v).uptime = s.uptime := rfl
@[simp] theorem State.setSes_wallTaken (k : Nat) (v : Ses) : (s.setSes k v).wallTaken = s.wallTaken := rfl
@[simp] theorem State.setSes_mclkAcc (k : Nat) (v : Ses) : (s.setSes k v).mclkAcc = s.mclkAcc := rfl
@[simp] theorem State.setSes_freeNext (k : Nat) (v : Ses) : (s.setSes k v).freeNext = s.freeNext := rfl
@[simp] theorem State.setSes_log (k : Nat) (v : Ses) : (s.setSes k v).log = s.log := rfl
@[simp] theorem State.setSes_scrubOn (k : Nat) (v : Ses) : (s.setSes k v).scrubOn = s.scrubOn := rfl
@[simp] theorem State.setSes_cores (k : Nat) (v : Ses) : (s.setSes k v).cores = s.cores := rfl
@[simp] theorem State.setSes_routers (k : Nat) (v : Ses) : (s.setSes k v).routers = s.routers := rfl
@[simp] theorem State.setSes_links (k : Nat) (v : Ses) : (s.setSes k v).links = s.links := rfl
@[simp] theorem State.setSes_fns (k : Nat) (v : Ses) : (s.setSes k v).fns = s.fns := rfl
@[simp] theorem State.setSes_sent (k : Nat) (v : Ses) : (s.setSes k v).sent = s.sent := rfl
@[simp] theorem State.setSes_logMsgAt (k : Nat) (v : Ses) : (s.setSes k v).logMsgAt = s.logMsgAt := rfl
@[simp] theorem State.setSes_logMsgHeld (k : Nat) (v : Ses) : (s.setSes k v).logMsgHeld = s.logMsgHeld := rfl
@[simp] theorem State.setSes_hbm (k : Nat) (v : Ses) : (s.setSes k v).hbm = s.hbm := rfl
@[simp] theorem State.setSes_hbmPoison (k : Nat) (v : Ses) : (s.setSes k v).hbmPoison = s.hbmPoison := rfl
@[simp] theorem State.setSes_hbmErr (k : Nat) (v : Ses) : (s.setSes k v).hbmErr = s.hbmErr := rfl
@[simp] theorem State.setSes_insts (k : Nat) (v : Ses) : (s.setSes k v).insts = s.insts := rfl
@[simp] theorem State.setSes_hostMem (k : Nat) (v : Ses) : (s.setSes k v).hostMem = s.hostMem := rfl
@[simp] theorem State.setSes_winTab (k : Nat) (v : Ses) : (s.setSes k v).winTab = s.winTab := rfl
@[simp] theorem State.setSes_swin (k : Nat) (v : Ses) : (s.setSes k v).swin = s.swin := rfl
@[simp] theorem State.setSes_seams (k : Nat) (v : Ses) : (s.setSes k v).seams = s.seams := rfl
@[simp] theorem State.setSes_seqs (k : Nat) (v : Ses) : (s.setSes k v).seqs = s.seqs := rfl
@[simp] theorem State.setSes_slots (k : Nat) (v : Ses) : (s.setSes k v).slots = s.slots := rfl
@[simp] theorem State.setSes_marks (k : Nat) (v : Ses) : (s.setSes k v).marks = s.marks := rfl
@[simp] theorem State.setSes_reqs (k : Nat) (v : Ses) : (s.setSes k v).reqs = s.reqs := rfl
@[simp] theorem State.setSes_tx (k : Nat) (v : Ses) : (s.setSes k v).tx = s.tx := rfl
@[simp] theorem State.setSes_kept (k : Nat) (v : Ses) : (s.setSes k v).kept = s.kept := rfl
@[simp] theorem State.setSes_ptp (k : Nat) (v : Ses) : (s.setSes k v).ptp = s.ptp := rfl
@[simp] theorem State.setSes_hbmStacks (k : Nat) (v : Ses) : (s.setSes k v).hbmStacks = s.hbmStacks := rfl
@[simp] theorem State.setSes_ports (k : Nat) (v : Ses) : (s.setSes k v).ports = s.ports := rfl
@[simp] theorem State.setSes_pins (k : Nat) (v : Ses) : (s.setSes k v).pins = s.pins := rfl
@[simp] theorem State.setSes_tap (k : Nat) (v : Ses) : (s.setSes k v).tap = s.tap := rfl
@[simp] theorem State.setSes_regions (k : Nat) (v : Ses) : (s.setSes k v).regions = s.regions := rfl
@[simp] theorem State.setSes_panels (k : Nat) (v : Ses) : (s.setSes k v).panels = s.panels := rfl
@[simp] theorem State.setSes_power (k : Nat) (v : Ses) : (s.setSes k v).power = s.power := rfl
@[simp] theorem State.setSes_casc (k : Nat) (v : Ses) : (s.setSes k v).casc = s.casc := rfl
@[simp] theorem State.setSes_sec (k : Nat) (v : Ses) : (s.setSes k v).sec = s.sec := rfl
@[simp] theorem State.setSes_journalOld (k : Nat) (v : Ses) : (s.setSes k v).journalOld = s.journalOld := rfl
@[simp] theorem State.setSes_muslinFailed (k : Nat) (v : Ses) : (s.setSes k v).muslinFailed = s.muslinFailed := rfl
@[simp] theorem State.setSes_unretire (k : Nat) (v : Ses) : (s.setSes k v).unretire = s.unretire := rfl
@[simp] theorem State.setSes_darnSet (k : Nat) (v : Ses) : (s.setSes k v).darnSet = s.darnSet := rfl
@[simp] theorem State.setSes_rd_other (k : Nat) (v : Ses) (j : Nat) : (s.setSes k v).rd j = s.rd j := rfl
@[simp] theorem State.setSes_blob_other (k : Nat) (v : Ses) (j : Nat) : (s.setSes k v).blob j = s.blob j := rfl
@[simp] theorem State.setSes_core_other (k : Nat) (v : Ses) (j : Nat) : (s.setSes k v).core j = s.core j := rfl
@[simp] theorem State.setSes_router_other (k : Nat) (v : Ses) (j : Nat) : (s.setSes k v).router j = s.router j := rfl
@[simp] theorem State.setSes_link_other (k : Nat) (v : Ses) (j : Nat) : (s.setSes k v).link j = s.link j := rfl
@[simp] theorem State.setSes_inst_other (k : Nat) (v : Ses) (j : Nat) : (s.setSes k v).inst j = s.inst j := rfl
@[simp] theorem State.setSes_slot_other (k : Nat) (v : Ses) (j : Nat) : (s.setSes k v).slot j = s.slot j := rfl
@[simp] theorem State.setSes_seq_other (k : Nat) (v : Ses) (j : Nat) : (s.setSes k v).seq j = s.seq j := rfl
@[simp] theorem State.setSes_fn_other (k : Nat) (v : Ses) (j : Nat) : (s.setSes k v).fn j = s.fn j := rfl
@[simp] theorem State.setSes_stack_other (k : Nat) (v : Ses) (j : Nat) : (s.setSes k v).stack j = s.stack j := rfl
@[simp] theorem State.setSes_port_other (k : Nat) (v : Ses) (j : Nat) : (s.setSes k v).port j = s.port j := rfl
@[simp] theorem State.setSes_pin_other (k : Nat) (v : Ses) (j : Nat) : (s.setSes k v).pin j = s.pin j := rfl
@[simp] theorem State.setSes_region_other (k : Nat) (v : Ses) (j : Nat) : (s.setSes k v).region j = s.region j := rfl
@[simp] theorem State.setSes_panel_other (k : Nat) (v : Ses) (j : Nat) : (s.setSes k v).panel j = s.panel j := rfl
@[simp] theorem State.setSes_seam_other (k : Nat) (v : Ses) (j : Nat) : (s.setSes k v).seam j = s.seam j := rfl
@[simp] theorem State.ses_setSes (k : Nat) (v : Ses) : (s.setSes k v).ses k = v := mapGet_set_self _ _ _ _
theorem State.ses_setSes_if (k : Nat) (v : Ses) (j : Nat) : (s.setSes k v).ses j = if j = k then v else s.ses j := mapGet_set _ _ _ _ _
theorem State.ses_setSes_ne (k : Nat) (v : Ses) (j : Nat) (h : j ≠ k) : (s.setSes k v).ses j = s.ses j := mapGet_set_other _ _ _ h

/-! ## `State.setStack` -/

@[simp] theorem State.setStack_pending (k : Nat) (v : Stack) : (s.setStack k v).pending = s.pending := rfl
@[simp] theorem State.setStack_dict (k : Nat) (v : Stack) : (s.setStack k v).dict = s.dict := rfl
@[simp] theorem State.setStack_blobs (k : Nat) (v : Stack) : (s.setStack k v).blobs = s.blobs := rfl
@[simp] theorem State.setStack_time (k : Nat) (v : Stack) : (s.setStack k v).time = s.time := rfl
@[simp] theorem State.setStack_uptime (k : Nat) (v : Stack) : (s.setStack k v).uptime = s.uptime := rfl
@[simp] theorem State.setStack_wallTaken (k : Nat) (v : Stack) : (s.setStack k v).wallTaken = s.wallTaken := rfl
@[simp] theorem State.setStack_mclkAcc (k : Nat) (v : Stack) : (s.setStack k v).mclkAcc = s.mclkAcc := rfl
@[simp] theorem State.setStack_freeNext (k : Nat) (v : Stack) : (s.setStack k v).freeNext = s.freeNext := rfl
@[simp] theorem State.setStack_log (k : Nat) (v : Stack) : (s.setStack k v).log = s.log := rfl
@[simp] theorem State.setStack_scrubOn (k : Nat) (v : Stack) : (s.setStack k v).scrubOn = s.scrubOn := rfl
@[simp] theorem State.setStack_cores (k : Nat) (v : Stack) : (s.setStack k v).cores = s.cores := rfl
@[simp] theorem State.setStack_routers (k : Nat) (v : Stack) : (s.setStack k v).routers = s.routers := rfl
@[simp] theorem State.setStack_links (k : Nat) (v : Stack) : (s.setStack k v).links = s.links := rfl
@[simp] theorem State.setStack_fns (k : Nat) (v : Stack) : (s.setStack k v).fns = s.fns := rfl
@[simp] theorem State.setStack_sent (k : Nat) (v : Stack) : (s.setStack k v).sent = s.sent := rfl
@[simp] theorem State.setStack_logMsgAt (k : Nat) (v : Stack) : (s.setStack k v).logMsgAt = s.logMsgAt := rfl
@[simp] theorem State.setStack_logMsgHeld (k : Nat) (v : Stack) : (s.setStack k v).logMsgHeld = s.logMsgHeld := rfl
@[simp] theorem State.setStack_hbm (k : Nat) (v : Stack) : (s.setStack k v).hbm = s.hbm := rfl
@[simp] theorem State.setStack_hbmPoison (k : Nat) (v : Stack) : (s.setStack k v).hbmPoison = s.hbmPoison := rfl
@[simp] theorem State.setStack_hbmErr (k : Nat) (v : Stack) : (s.setStack k v).hbmErr = s.hbmErr := rfl
@[simp] theorem State.setStack_insts (k : Nat) (v : Stack) : (s.setStack k v).insts = s.insts := rfl
@[simp] theorem State.setStack_hostMem (k : Nat) (v : Stack) : (s.setStack k v).hostMem = s.hostMem := rfl
@[simp] theorem State.setStack_winTab (k : Nat) (v : Stack) : (s.setStack k v).winTab = s.winTab := rfl
@[simp] theorem State.setStack_swin (k : Nat) (v : Stack) : (s.setStack k v).swin = s.swin := rfl
@[simp] theorem State.setStack_seams (k : Nat) (v : Stack) : (s.setStack k v).seams = s.seams := rfl
@[simp] theorem State.setStack_seqs (k : Nat) (v : Stack) : (s.setStack k v).seqs = s.seqs := rfl
@[simp] theorem State.setStack_slots (k : Nat) (v : Stack) : (s.setStack k v).slots = s.slots := rfl
@[simp] theorem State.setStack_marks (k : Nat) (v : Stack) : (s.setStack k v).marks = s.marks := rfl
@[simp] theorem State.setStack_reqs (k : Nat) (v : Stack) : (s.setStack k v).reqs = s.reqs := rfl
@[simp] theorem State.setStack_tx (k : Nat) (v : Stack) : (s.setStack k v).tx = s.tx := rfl
@[simp] theorem State.setStack_sessions (k : Nat) (v : Stack) : (s.setStack k v).sessions = s.sessions := rfl
@[simp] theorem State.setStack_kept (k : Nat) (v : Stack) : (s.setStack k v).kept = s.kept := rfl
@[simp] theorem State.setStack_ptp (k : Nat) (v : Stack) : (s.setStack k v).ptp = s.ptp := rfl
@[simp] theorem State.setStack_ports (k : Nat) (v : Stack) : (s.setStack k v).ports = s.ports := rfl
@[simp] theorem State.setStack_pins (k : Nat) (v : Stack) : (s.setStack k v).pins = s.pins := rfl
@[simp] theorem State.setStack_tap (k : Nat) (v : Stack) : (s.setStack k v).tap = s.tap := rfl
@[simp] theorem State.setStack_regions (k : Nat) (v : Stack) : (s.setStack k v).regions = s.regions := rfl
@[simp] theorem State.setStack_panels (k : Nat) (v : Stack) : (s.setStack k v).panels = s.panels := rfl
@[simp] theorem State.setStack_power (k : Nat) (v : Stack) : (s.setStack k v).power = s.power := rfl
@[simp] theorem State.setStack_casc (k : Nat) (v : Stack) : (s.setStack k v).casc = s.casc := rfl
@[simp] theorem State.setStack_sec (k : Nat) (v : Stack) : (s.setStack k v).sec = s.sec := rfl
@[simp] theorem State.setStack_journalOld (k : Nat) (v : Stack) : (s.setStack k v).journalOld = s.journalOld := rfl
@[simp] theorem State.setStack_muslinFailed (k : Nat) (v : Stack) : (s.setStack k v).muslinFailed = s.muslinFailed := rfl
@[simp] theorem State.setStack_unretire (k : Nat) (v : Stack) : (s.setStack k v).unretire = s.unretire := rfl
@[simp] theorem State.setStack_darnSet (k : Nat) (v : Stack) : (s.setStack k v).darnSet = s.darnSet := rfl
@[simp] theorem State.setStack_rd_other (k : Nat) (v : Stack) (j : Nat) : (s.setStack k v).rd j = s.rd j := rfl
@[simp] theorem State.setStack_blob_other (k : Nat) (v : Stack) (j : Nat) : (s.setStack k v).blob j = s.blob j := rfl
@[simp] theorem State.setStack_core_other (k : Nat) (v : Stack) (j : Nat) : (s.setStack k v).core j = s.core j := rfl
@[simp] theorem State.setStack_router_other (k : Nat) (v : Stack) (j : Nat) : (s.setStack k v).router j = s.router j := rfl
@[simp] theorem State.setStack_link_other (k : Nat) (v : Stack) (j : Nat) : (s.setStack k v).link j = s.link j := rfl
@[simp] theorem State.setStack_inst_other (k : Nat) (v : Stack) (j : Nat) : (s.setStack k v).inst j = s.inst j := rfl
@[simp] theorem State.setStack_slot_other (k : Nat) (v : Stack) (j : Nat) : (s.setStack k v).slot j = s.slot j := rfl
@[simp] theorem State.setStack_seq_other (k : Nat) (v : Stack) (j : Nat) : (s.setStack k v).seq j = s.seq j := rfl
@[simp] theorem State.setStack_fn_other (k : Nat) (v : Stack) (j : Nat) : (s.setStack k v).fn j = s.fn j := rfl
@[simp] theorem State.setStack_ses_other (k : Nat) (v : Stack) (j : Nat) : (s.setStack k v).ses j = s.ses j := rfl
@[simp] theorem State.setStack_port_other (k : Nat) (v : Stack) (j : Nat) : (s.setStack k v).port j = s.port j := rfl
@[simp] theorem State.setStack_pin_other (k : Nat) (v : Stack) (j : Nat) : (s.setStack k v).pin j = s.pin j := rfl
@[simp] theorem State.setStack_region_other (k : Nat) (v : Stack) (j : Nat) : (s.setStack k v).region j = s.region j := rfl
@[simp] theorem State.setStack_panel_other (k : Nat) (v : Stack) (j : Nat) : (s.setStack k v).panel j = s.panel j := rfl
@[simp] theorem State.setStack_seam_other (k : Nat) (v : Stack) (j : Nat) : (s.setStack k v).seam j = s.seam j := rfl
@[simp] theorem State.stack_setStack (k : Nat) (v : Stack) : (s.setStack k v).stack k = v := mapGet_set_self _ _ _ _
theorem State.stack_setStack_if (k : Nat) (v : Stack) (j : Nat) : (s.setStack k v).stack j = if j = k then v else s.stack j := mapGet_set _ _ _ _ _
theorem State.stack_setStack_ne (k : Nat) (v : Stack) (j : Nat) (h : j ≠ k) : (s.setStack k v).stack j = s.stack j := mapGet_set_other _ _ _ h

/-! ## `State.setPort` -/

@[simp] theorem State.setPort_pending (k : Nat) (v : Port) : (s.setPort k v).pending = s.pending := rfl
@[simp] theorem State.setPort_dict (k : Nat) (v : Port) : (s.setPort k v).dict = s.dict := rfl
@[simp] theorem State.setPort_blobs (k : Nat) (v : Port) : (s.setPort k v).blobs = s.blobs := rfl
@[simp] theorem State.setPort_time (k : Nat) (v : Port) : (s.setPort k v).time = s.time := rfl
@[simp] theorem State.setPort_uptime (k : Nat) (v : Port) : (s.setPort k v).uptime = s.uptime := rfl
@[simp] theorem State.setPort_wallTaken (k : Nat) (v : Port) : (s.setPort k v).wallTaken = s.wallTaken := rfl
@[simp] theorem State.setPort_mclkAcc (k : Nat) (v : Port) : (s.setPort k v).mclkAcc = s.mclkAcc := rfl
@[simp] theorem State.setPort_freeNext (k : Nat) (v : Port) : (s.setPort k v).freeNext = s.freeNext := rfl
@[simp] theorem State.setPort_log (k : Nat) (v : Port) : (s.setPort k v).log = s.log := rfl
@[simp] theorem State.setPort_scrubOn (k : Nat) (v : Port) : (s.setPort k v).scrubOn = s.scrubOn := rfl
@[simp] theorem State.setPort_cores (k : Nat) (v : Port) : (s.setPort k v).cores = s.cores := rfl
@[simp] theorem State.setPort_routers (k : Nat) (v : Port) : (s.setPort k v).routers = s.routers := rfl
@[simp] theorem State.setPort_links (k : Nat) (v : Port) : (s.setPort k v).links = s.links := rfl
@[simp] theorem State.setPort_fns (k : Nat) (v : Port) : (s.setPort k v).fns = s.fns := rfl
@[simp] theorem State.setPort_sent (k : Nat) (v : Port) : (s.setPort k v).sent = s.sent := rfl
@[simp] theorem State.setPort_logMsgAt (k : Nat) (v : Port) : (s.setPort k v).logMsgAt = s.logMsgAt := rfl
@[simp] theorem State.setPort_logMsgHeld (k : Nat) (v : Port) : (s.setPort k v).logMsgHeld = s.logMsgHeld := rfl
@[simp] theorem State.setPort_hbm (k : Nat) (v : Port) : (s.setPort k v).hbm = s.hbm := rfl
@[simp] theorem State.setPort_hbmPoison (k : Nat) (v : Port) : (s.setPort k v).hbmPoison = s.hbmPoison := rfl
@[simp] theorem State.setPort_hbmErr (k : Nat) (v : Port) : (s.setPort k v).hbmErr = s.hbmErr := rfl
@[simp] theorem State.setPort_insts (k : Nat) (v : Port) : (s.setPort k v).insts = s.insts := rfl
@[simp] theorem State.setPort_hostMem (k : Nat) (v : Port) : (s.setPort k v).hostMem = s.hostMem := rfl
@[simp] theorem State.setPort_winTab (k : Nat) (v : Port) : (s.setPort k v).winTab = s.winTab := rfl
@[simp] theorem State.setPort_swin (k : Nat) (v : Port) : (s.setPort k v).swin = s.swin := rfl
@[simp] theorem State.setPort_seams (k : Nat) (v : Port) : (s.setPort k v).seams = s.seams := rfl
@[simp] theorem State.setPort_seqs (k : Nat) (v : Port) : (s.setPort k v).seqs = s.seqs := rfl
@[simp] theorem State.setPort_slots (k : Nat) (v : Port) : (s.setPort k v).slots = s.slots := rfl
@[simp] theorem State.setPort_marks (k : Nat) (v : Port) : (s.setPort k v).marks = s.marks := rfl
@[simp] theorem State.setPort_reqs (k : Nat) (v : Port) : (s.setPort k v).reqs = s.reqs := rfl
@[simp] theorem State.setPort_tx (k : Nat) (v : Port) : (s.setPort k v).tx = s.tx := rfl
@[simp] theorem State.setPort_sessions (k : Nat) (v : Port) : (s.setPort k v).sessions = s.sessions := rfl
@[simp] theorem State.setPort_kept (k : Nat) (v : Port) : (s.setPort k v).kept = s.kept := rfl
@[simp] theorem State.setPort_ptp (k : Nat) (v : Port) : (s.setPort k v).ptp = s.ptp := rfl
@[simp] theorem State.setPort_hbmStacks (k : Nat) (v : Port) : (s.setPort k v).hbmStacks = s.hbmStacks := rfl
@[simp] theorem State.setPort_pins (k : Nat) (v : Port) : (s.setPort k v).pins = s.pins := rfl
@[simp] theorem State.setPort_tap (k : Nat) (v : Port) : (s.setPort k v).tap = s.tap := rfl
@[simp] theorem State.setPort_regions (k : Nat) (v : Port) : (s.setPort k v).regions = s.regions := rfl
@[simp] theorem State.setPort_panels (k : Nat) (v : Port) : (s.setPort k v).panels = s.panels := rfl
@[simp] theorem State.setPort_power (k : Nat) (v : Port) : (s.setPort k v).power = s.power := rfl
@[simp] theorem State.setPort_casc (k : Nat) (v : Port) : (s.setPort k v).casc = s.casc := rfl
@[simp] theorem State.setPort_sec (k : Nat) (v : Port) : (s.setPort k v).sec = s.sec := rfl
@[simp] theorem State.setPort_journalOld (k : Nat) (v : Port) : (s.setPort k v).journalOld = s.journalOld := rfl
@[simp] theorem State.setPort_muslinFailed (k : Nat) (v : Port) : (s.setPort k v).muslinFailed = s.muslinFailed := rfl
@[simp] theorem State.setPort_unretire (k : Nat) (v : Port) : (s.setPort k v).unretire = s.unretire := rfl
@[simp] theorem State.setPort_darnSet (k : Nat) (v : Port) : (s.setPort k v).darnSet = s.darnSet := rfl
@[simp] theorem State.setPort_rd_other (k : Nat) (v : Port) (j : Nat) : (s.setPort k v).rd j = s.rd j := rfl
@[simp] theorem State.setPort_blob_other (k : Nat) (v : Port) (j : Nat) : (s.setPort k v).blob j = s.blob j := rfl
@[simp] theorem State.setPort_core_other (k : Nat) (v : Port) (j : Nat) : (s.setPort k v).core j = s.core j := rfl
@[simp] theorem State.setPort_router_other (k : Nat) (v : Port) (j : Nat) : (s.setPort k v).router j = s.router j := rfl
@[simp] theorem State.setPort_link_other (k : Nat) (v : Port) (j : Nat) : (s.setPort k v).link j = s.link j := rfl
@[simp] theorem State.setPort_inst_other (k : Nat) (v : Port) (j : Nat) : (s.setPort k v).inst j = s.inst j := rfl
@[simp] theorem State.setPort_slot_other (k : Nat) (v : Port) (j : Nat) : (s.setPort k v).slot j = s.slot j := rfl
@[simp] theorem State.setPort_seq_other (k : Nat) (v : Port) (j : Nat) : (s.setPort k v).seq j = s.seq j := rfl
@[simp] theorem State.setPort_fn_other (k : Nat) (v : Port) (j : Nat) : (s.setPort k v).fn j = s.fn j := rfl
@[simp] theorem State.setPort_ses_other (k : Nat) (v : Port) (j : Nat) : (s.setPort k v).ses j = s.ses j := rfl
@[simp] theorem State.setPort_stack_other (k : Nat) (v : Port) (j : Nat) : (s.setPort k v).stack j = s.stack j := rfl
@[simp] theorem State.setPort_pin_other (k : Nat) (v : Port) (j : Nat) : (s.setPort k v).pin j = s.pin j := rfl
@[simp] theorem State.setPort_region_other (k : Nat) (v : Port) (j : Nat) : (s.setPort k v).region j = s.region j := rfl
@[simp] theorem State.setPort_panel_other (k : Nat) (v : Port) (j : Nat) : (s.setPort k v).panel j = s.panel j := rfl
@[simp] theorem State.setPort_seam_other (k : Nat) (v : Port) (j : Nat) : (s.setPort k v).seam j = s.seam j := rfl
@[simp] theorem State.port_setPort (k : Nat) (v : Port) : (s.setPort k v).port k = v := mapGet_set_self _ _ _ _
theorem State.port_setPort_if (k : Nat) (v : Port) (j : Nat) : (s.setPort k v).port j = if j = k then v else s.port j := mapGet_set _ _ _ _ _
theorem State.port_setPort_ne (k : Nat) (v : Port) (j : Nat) (h : j ≠ k) : (s.setPort k v).port j = s.port j := mapGet_set_other _ _ _ h

/-! ## `State.setPin` -/

@[simp] theorem State.setPin_pending (k : Nat) (v : Pin) : (s.setPin k v).pending = s.pending := rfl
@[simp] theorem State.setPin_dict (k : Nat) (v : Pin) : (s.setPin k v).dict = s.dict := rfl
@[simp] theorem State.setPin_blobs (k : Nat) (v : Pin) : (s.setPin k v).blobs = s.blobs := rfl
@[simp] theorem State.setPin_time (k : Nat) (v : Pin) : (s.setPin k v).time = s.time := rfl
@[simp] theorem State.setPin_uptime (k : Nat) (v : Pin) : (s.setPin k v).uptime = s.uptime := rfl
@[simp] theorem State.setPin_wallTaken (k : Nat) (v : Pin) : (s.setPin k v).wallTaken = s.wallTaken := rfl
@[simp] theorem State.setPin_mclkAcc (k : Nat) (v : Pin) : (s.setPin k v).mclkAcc = s.mclkAcc := rfl
@[simp] theorem State.setPin_freeNext (k : Nat) (v : Pin) : (s.setPin k v).freeNext = s.freeNext := rfl
@[simp] theorem State.setPin_log (k : Nat) (v : Pin) : (s.setPin k v).log = s.log := rfl
@[simp] theorem State.setPin_scrubOn (k : Nat) (v : Pin) : (s.setPin k v).scrubOn = s.scrubOn := rfl
@[simp] theorem State.setPin_cores (k : Nat) (v : Pin) : (s.setPin k v).cores = s.cores := rfl
@[simp] theorem State.setPin_routers (k : Nat) (v : Pin) : (s.setPin k v).routers = s.routers := rfl
@[simp] theorem State.setPin_links (k : Nat) (v : Pin) : (s.setPin k v).links = s.links := rfl
@[simp] theorem State.setPin_fns (k : Nat) (v : Pin) : (s.setPin k v).fns = s.fns := rfl
@[simp] theorem State.setPin_sent (k : Nat) (v : Pin) : (s.setPin k v).sent = s.sent := rfl
@[simp] theorem State.setPin_logMsgAt (k : Nat) (v : Pin) : (s.setPin k v).logMsgAt = s.logMsgAt := rfl
@[simp] theorem State.setPin_logMsgHeld (k : Nat) (v : Pin) : (s.setPin k v).logMsgHeld = s.logMsgHeld := rfl
@[simp] theorem State.setPin_hbm (k : Nat) (v : Pin) : (s.setPin k v).hbm = s.hbm := rfl
@[simp] theorem State.setPin_hbmPoison (k : Nat) (v : Pin) : (s.setPin k v).hbmPoison = s.hbmPoison := rfl
@[simp] theorem State.setPin_hbmErr (k : Nat) (v : Pin) : (s.setPin k v).hbmErr = s.hbmErr := rfl
@[simp] theorem State.setPin_insts (k : Nat) (v : Pin) : (s.setPin k v).insts = s.insts := rfl
@[simp] theorem State.setPin_hostMem (k : Nat) (v : Pin) : (s.setPin k v).hostMem = s.hostMem := rfl
@[simp] theorem State.setPin_winTab (k : Nat) (v : Pin) : (s.setPin k v).winTab = s.winTab := rfl
@[simp] theorem State.setPin_swin (k : Nat) (v : Pin) : (s.setPin k v).swin = s.swin := rfl
@[simp] theorem State.setPin_seams (k : Nat) (v : Pin) : (s.setPin k v).seams = s.seams := rfl
@[simp] theorem State.setPin_seqs (k : Nat) (v : Pin) : (s.setPin k v).seqs = s.seqs := rfl
@[simp] theorem State.setPin_slots (k : Nat) (v : Pin) : (s.setPin k v).slots = s.slots := rfl
@[simp] theorem State.setPin_marks (k : Nat) (v : Pin) : (s.setPin k v).marks = s.marks := rfl
@[simp] theorem State.setPin_reqs (k : Nat) (v : Pin) : (s.setPin k v).reqs = s.reqs := rfl
@[simp] theorem State.setPin_tx (k : Nat) (v : Pin) : (s.setPin k v).tx = s.tx := rfl
@[simp] theorem State.setPin_sessions (k : Nat) (v : Pin) : (s.setPin k v).sessions = s.sessions := rfl
@[simp] theorem State.setPin_kept (k : Nat) (v : Pin) : (s.setPin k v).kept = s.kept := rfl
@[simp] theorem State.setPin_ptp (k : Nat) (v : Pin) : (s.setPin k v).ptp = s.ptp := rfl
@[simp] theorem State.setPin_hbmStacks (k : Nat) (v : Pin) : (s.setPin k v).hbmStacks = s.hbmStacks := rfl
@[simp] theorem State.setPin_ports (k : Nat) (v : Pin) : (s.setPin k v).ports = s.ports := rfl
@[simp] theorem State.setPin_tap (k : Nat) (v : Pin) : (s.setPin k v).tap = s.tap := rfl
@[simp] theorem State.setPin_regions (k : Nat) (v : Pin) : (s.setPin k v).regions = s.regions := rfl
@[simp] theorem State.setPin_panels (k : Nat) (v : Pin) : (s.setPin k v).panels = s.panels := rfl
@[simp] theorem State.setPin_power (k : Nat) (v : Pin) : (s.setPin k v).power = s.power := rfl
@[simp] theorem State.setPin_casc (k : Nat) (v : Pin) : (s.setPin k v).casc = s.casc := rfl
@[simp] theorem State.setPin_sec (k : Nat) (v : Pin) : (s.setPin k v).sec = s.sec := rfl
@[simp] theorem State.setPin_journalOld (k : Nat) (v : Pin) : (s.setPin k v).journalOld = s.journalOld := rfl
@[simp] theorem State.setPin_muslinFailed (k : Nat) (v : Pin) : (s.setPin k v).muslinFailed = s.muslinFailed := rfl
@[simp] theorem State.setPin_unretire (k : Nat) (v : Pin) : (s.setPin k v).unretire = s.unretire := rfl
@[simp] theorem State.setPin_darnSet (k : Nat) (v : Pin) : (s.setPin k v).darnSet = s.darnSet := rfl
@[simp] theorem State.setPin_rd_other (k : Nat) (v : Pin) (j : Nat) : (s.setPin k v).rd j = s.rd j := rfl
@[simp] theorem State.setPin_blob_other (k : Nat) (v : Pin) (j : Nat) : (s.setPin k v).blob j = s.blob j := rfl
@[simp] theorem State.setPin_core_other (k : Nat) (v : Pin) (j : Nat) : (s.setPin k v).core j = s.core j := rfl
@[simp] theorem State.setPin_router_other (k : Nat) (v : Pin) (j : Nat) : (s.setPin k v).router j = s.router j := rfl
@[simp] theorem State.setPin_link_other (k : Nat) (v : Pin) (j : Nat) : (s.setPin k v).link j = s.link j := rfl
@[simp] theorem State.setPin_inst_other (k : Nat) (v : Pin) (j : Nat) : (s.setPin k v).inst j = s.inst j := rfl
@[simp] theorem State.setPin_slot_other (k : Nat) (v : Pin) (j : Nat) : (s.setPin k v).slot j = s.slot j := rfl
@[simp] theorem State.setPin_seq_other (k : Nat) (v : Pin) (j : Nat) : (s.setPin k v).seq j = s.seq j := rfl
@[simp] theorem State.setPin_fn_other (k : Nat) (v : Pin) (j : Nat) : (s.setPin k v).fn j = s.fn j := rfl
@[simp] theorem State.setPin_ses_other (k : Nat) (v : Pin) (j : Nat) : (s.setPin k v).ses j = s.ses j := rfl
@[simp] theorem State.setPin_stack_other (k : Nat) (v : Pin) (j : Nat) : (s.setPin k v).stack j = s.stack j := rfl
@[simp] theorem State.setPin_port_other (k : Nat) (v : Pin) (j : Nat) : (s.setPin k v).port j = s.port j := rfl
@[simp] theorem State.setPin_region_other (k : Nat) (v : Pin) (j : Nat) : (s.setPin k v).region j = s.region j := rfl
@[simp] theorem State.setPin_panel_other (k : Nat) (v : Pin) (j : Nat) : (s.setPin k v).panel j = s.panel j := rfl
@[simp] theorem State.setPin_seam_other (k : Nat) (v : Pin) (j : Nat) : (s.setPin k v).seam j = s.seam j := rfl
@[simp] theorem State.pin_setPin (k : Nat) (v : Pin) : (s.setPin k v).pin k = v := mapGet_set_self _ _ _ _
theorem State.pin_setPin_if (k : Nat) (v : Pin) (j : Nat) : (s.setPin k v).pin j = if j = k then v else s.pin j := mapGet_set _ _ _ _ _
theorem State.pin_setPin_ne (k : Nat) (v : Pin) (j : Nat) (h : j ≠ k) : (s.setPin k v).pin j = s.pin j := mapGet_set_other _ _ _ h

/-! ## `State.setRegion` -/

@[simp] theorem State.setRegion_pending (k : Nat) (v : Region) : (s.setRegion k v).pending = s.pending := rfl
@[simp] theorem State.setRegion_dict (k : Nat) (v : Region) : (s.setRegion k v).dict = s.dict := rfl
@[simp] theorem State.setRegion_blobs (k : Nat) (v : Region) : (s.setRegion k v).blobs = s.blobs := rfl
@[simp] theorem State.setRegion_time (k : Nat) (v : Region) : (s.setRegion k v).time = s.time := rfl
@[simp] theorem State.setRegion_uptime (k : Nat) (v : Region) : (s.setRegion k v).uptime = s.uptime := rfl
@[simp] theorem State.setRegion_wallTaken (k : Nat) (v : Region) : (s.setRegion k v).wallTaken = s.wallTaken := rfl
@[simp] theorem State.setRegion_mclkAcc (k : Nat) (v : Region) : (s.setRegion k v).mclkAcc = s.mclkAcc := rfl
@[simp] theorem State.setRegion_freeNext (k : Nat) (v : Region) : (s.setRegion k v).freeNext = s.freeNext := rfl
@[simp] theorem State.setRegion_log (k : Nat) (v : Region) : (s.setRegion k v).log = s.log := rfl
@[simp] theorem State.setRegion_scrubOn (k : Nat) (v : Region) : (s.setRegion k v).scrubOn = s.scrubOn := rfl
@[simp] theorem State.setRegion_cores (k : Nat) (v : Region) : (s.setRegion k v).cores = s.cores := rfl
@[simp] theorem State.setRegion_routers (k : Nat) (v : Region) : (s.setRegion k v).routers = s.routers := rfl
@[simp] theorem State.setRegion_links (k : Nat) (v : Region) : (s.setRegion k v).links = s.links := rfl
@[simp] theorem State.setRegion_fns (k : Nat) (v : Region) : (s.setRegion k v).fns = s.fns := rfl
@[simp] theorem State.setRegion_sent (k : Nat) (v : Region) : (s.setRegion k v).sent = s.sent := rfl
@[simp] theorem State.setRegion_logMsgAt (k : Nat) (v : Region) : (s.setRegion k v).logMsgAt = s.logMsgAt := rfl
@[simp] theorem State.setRegion_logMsgHeld (k : Nat) (v : Region) : (s.setRegion k v).logMsgHeld = s.logMsgHeld := rfl
@[simp] theorem State.setRegion_hbm (k : Nat) (v : Region) : (s.setRegion k v).hbm = s.hbm := rfl
@[simp] theorem State.setRegion_hbmPoison (k : Nat) (v : Region) : (s.setRegion k v).hbmPoison = s.hbmPoison := rfl
@[simp] theorem State.setRegion_hbmErr (k : Nat) (v : Region) : (s.setRegion k v).hbmErr = s.hbmErr := rfl
@[simp] theorem State.setRegion_insts (k : Nat) (v : Region) : (s.setRegion k v).insts = s.insts := rfl
@[simp] theorem State.setRegion_hostMem (k : Nat) (v : Region) : (s.setRegion k v).hostMem = s.hostMem := rfl
@[simp] theorem State.setRegion_winTab (k : Nat) (v : Region) : (s.setRegion k v).winTab = s.winTab := rfl
@[simp] theorem State.setRegion_swin (k : Nat) (v : Region) : (s.setRegion k v).swin = s.swin := rfl
@[simp] theorem State.setRegion_seams (k : Nat) (v : Region) : (s.setRegion k v).seams = s.seams := rfl
@[simp] theorem State.setRegion_seqs (k : Nat) (v : Region) : (s.setRegion k v).seqs = s.seqs := rfl
@[simp] theorem State.setRegion_slots (k : Nat) (v : Region) : (s.setRegion k v).slots = s.slots := rfl
@[simp] theorem State.setRegion_marks (k : Nat) (v : Region) : (s.setRegion k v).marks = s.marks := rfl
@[simp] theorem State.setRegion_reqs (k : Nat) (v : Region) : (s.setRegion k v).reqs = s.reqs := rfl
@[simp] theorem State.setRegion_tx (k : Nat) (v : Region) : (s.setRegion k v).tx = s.tx := rfl
@[simp] theorem State.setRegion_sessions (k : Nat) (v : Region) : (s.setRegion k v).sessions = s.sessions := rfl
@[simp] theorem State.setRegion_kept (k : Nat) (v : Region) : (s.setRegion k v).kept = s.kept := rfl
@[simp] theorem State.setRegion_ptp (k : Nat) (v : Region) : (s.setRegion k v).ptp = s.ptp := rfl
@[simp] theorem State.setRegion_hbmStacks (k : Nat) (v : Region) : (s.setRegion k v).hbmStacks = s.hbmStacks := rfl
@[simp] theorem State.setRegion_ports (k : Nat) (v : Region) : (s.setRegion k v).ports = s.ports := rfl
@[simp] theorem State.setRegion_pins (k : Nat) (v : Region) : (s.setRegion k v).pins = s.pins := rfl
@[simp] theorem State.setRegion_tap (k : Nat) (v : Region) : (s.setRegion k v).tap = s.tap := rfl
@[simp] theorem State.setRegion_panels (k : Nat) (v : Region) : (s.setRegion k v).panels = s.panels := rfl
@[simp] theorem State.setRegion_power (k : Nat) (v : Region) : (s.setRegion k v).power = s.power := rfl
@[simp] theorem State.setRegion_casc (k : Nat) (v : Region) : (s.setRegion k v).casc = s.casc := rfl
@[simp] theorem State.setRegion_sec (k : Nat) (v : Region) : (s.setRegion k v).sec = s.sec := rfl
@[simp] theorem State.setRegion_journalOld (k : Nat) (v : Region) : (s.setRegion k v).journalOld = s.journalOld := rfl
@[simp] theorem State.setRegion_muslinFailed (k : Nat) (v : Region) : (s.setRegion k v).muslinFailed = s.muslinFailed := rfl
@[simp] theorem State.setRegion_unretire (k : Nat) (v : Region) : (s.setRegion k v).unretire = s.unretire := rfl
@[simp] theorem State.setRegion_darnSet (k : Nat) (v : Region) : (s.setRegion k v).darnSet = s.darnSet := rfl
@[simp] theorem State.setRegion_rd_other (k : Nat) (v : Region) (j : Nat) : (s.setRegion k v).rd j = s.rd j := rfl
@[simp] theorem State.setRegion_blob_other (k : Nat) (v : Region) (j : Nat) : (s.setRegion k v).blob j = s.blob j := rfl
@[simp] theorem State.setRegion_core_other (k : Nat) (v : Region) (j : Nat) : (s.setRegion k v).core j = s.core j := rfl
@[simp] theorem State.setRegion_router_other (k : Nat) (v : Region) (j : Nat) : (s.setRegion k v).router j = s.router j := rfl
@[simp] theorem State.setRegion_link_other (k : Nat) (v : Region) (j : Nat) : (s.setRegion k v).link j = s.link j := rfl
@[simp] theorem State.setRegion_inst_other (k : Nat) (v : Region) (j : Nat) : (s.setRegion k v).inst j = s.inst j := rfl
@[simp] theorem State.setRegion_slot_other (k : Nat) (v : Region) (j : Nat) : (s.setRegion k v).slot j = s.slot j := rfl
@[simp] theorem State.setRegion_seq_other (k : Nat) (v : Region) (j : Nat) : (s.setRegion k v).seq j = s.seq j := rfl
@[simp] theorem State.setRegion_fn_other (k : Nat) (v : Region) (j : Nat) : (s.setRegion k v).fn j = s.fn j := rfl
@[simp] theorem State.setRegion_ses_other (k : Nat) (v : Region) (j : Nat) : (s.setRegion k v).ses j = s.ses j := rfl
@[simp] theorem State.setRegion_stack_other (k : Nat) (v : Region) (j : Nat) : (s.setRegion k v).stack j = s.stack j := rfl
@[simp] theorem State.setRegion_port_other (k : Nat) (v : Region) (j : Nat) : (s.setRegion k v).port j = s.port j := rfl
@[simp] theorem State.setRegion_pin_other (k : Nat) (v : Region) (j : Nat) : (s.setRegion k v).pin j = s.pin j := rfl
@[simp] theorem State.setRegion_panel_other (k : Nat) (v : Region) (j : Nat) : (s.setRegion k v).panel j = s.panel j := rfl
@[simp] theorem State.setRegion_seam_other (k : Nat) (v : Region) (j : Nat) : (s.setRegion k v).seam j = s.seam j := rfl
@[simp] theorem State.region_setRegion (k : Nat) (v : Region) : (s.setRegion k v).region k = v := mapGet_set_self _ _ _ _
theorem State.region_setRegion_if (k : Nat) (v : Region) (j : Nat) : (s.setRegion k v).region j = if j = k then v else s.region j := mapGet_set _ _ _ _ _
theorem State.region_setRegion_ne (k : Nat) (v : Region) (j : Nat) (h : j ≠ k) : (s.setRegion k v).region j = s.region j := mapGet_set_other _ _ _ h

/-! ## `State.setPanel` -/

@[simp] theorem State.setPanel_pending (k : Nat) (v : PanelSt) : (s.setPanel k v).pending = s.pending := rfl
@[simp] theorem State.setPanel_dict (k : Nat) (v : PanelSt) : (s.setPanel k v).dict = s.dict := rfl
@[simp] theorem State.setPanel_blobs (k : Nat) (v : PanelSt) : (s.setPanel k v).blobs = s.blobs := rfl
@[simp] theorem State.setPanel_time (k : Nat) (v : PanelSt) : (s.setPanel k v).time = s.time := rfl
@[simp] theorem State.setPanel_uptime (k : Nat) (v : PanelSt) : (s.setPanel k v).uptime = s.uptime := rfl
@[simp] theorem State.setPanel_wallTaken (k : Nat) (v : PanelSt) : (s.setPanel k v).wallTaken = s.wallTaken := rfl
@[simp] theorem State.setPanel_mclkAcc (k : Nat) (v : PanelSt) : (s.setPanel k v).mclkAcc = s.mclkAcc := rfl
@[simp] theorem State.setPanel_freeNext (k : Nat) (v : PanelSt) : (s.setPanel k v).freeNext = s.freeNext := rfl
@[simp] theorem State.setPanel_log (k : Nat) (v : PanelSt) : (s.setPanel k v).log = s.log := rfl
@[simp] theorem State.setPanel_scrubOn (k : Nat) (v : PanelSt) : (s.setPanel k v).scrubOn = s.scrubOn := rfl
@[simp] theorem State.setPanel_cores (k : Nat) (v : PanelSt) : (s.setPanel k v).cores = s.cores := rfl
@[simp] theorem State.setPanel_routers (k : Nat) (v : PanelSt) : (s.setPanel k v).routers = s.routers := rfl
@[simp] theorem State.setPanel_links (k : Nat) (v : PanelSt) : (s.setPanel k v).links = s.links := rfl
@[simp] theorem State.setPanel_fns (k : Nat) (v : PanelSt) : (s.setPanel k v).fns = s.fns := rfl
@[simp] theorem State.setPanel_sent (k : Nat) (v : PanelSt) : (s.setPanel k v).sent = s.sent := rfl
@[simp] theorem State.setPanel_logMsgAt (k : Nat) (v : PanelSt) : (s.setPanel k v).logMsgAt = s.logMsgAt := rfl
@[simp] theorem State.setPanel_logMsgHeld (k : Nat) (v : PanelSt) : (s.setPanel k v).logMsgHeld = s.logMsgHeld := rfl
@[simp] theorem State.setPanel_hbm (k : Nat) (v : PanelSt) : (s.setPanel k v).hbm = s.hbm := rfl
@[simp] theorem State.setPanel_hbmPoison (k : Nat) (v : PanelSt) : (s.setPanel k v).hbmPoison = s.hbmPoison := rfl
@[simp] theorem State.setPanel_hbmErr (k : Nat) (v : PanelSt) : (s.setPanel k v).hbmErr = s.hbmErr := rfl
@[simp] theorem State.setPanel_insts (k : Nat) (v : PanelSt) : (s.setPanel k v).insts = s.insts := rfl
@[simp] theorem State.setPanel_hostMem (k : Nat) (v : PanelSt) : (s.setPanel k v).hostMem = s.hostMem := rfl
@[simp] theorem State.setPanel_winTab (k : Nat) (v : PanelSt) : (s.setPanel k v).winTab = s.winTab := rfl
@[simp] theorem State.setPanel_swin (k : Nat) (v : PanelSt) : (s.setPanel k v).swin = s.swin := rfl
@[simp] theorem State.setPanel_seams (k : Nat) (v : PanelSt) : (s.setPanel k v).seams = s.seams := rfl
@[simp] theorem State.setPanel_seqs (k : Nat) (v : PanelSt) : (s.setPanel k v).seqs = s.seqs := rfl
@[simp] theorem State.setPanel_slots (k : Nat) (v : PanelSt) : (s.setPanel k v).slots = s.slots := rfl
@[simp] theorem State.setPanel_marks (k : Nat) (v : PanelSt) : (s.setPanel k v).marks = s.marks := rfl
@[simp] theorem State.setPanel_reqs (k : Nat) (v : PanelSt) : (s.setPanel k v).reqs = s.reqs := rfl
@[simp] theorem State.setPanel_tx (k : Nat) (v : PanelSt) : (s.setPanel k v).tx = s.tx := rfl
@[simp] theorem State.setPanel_sessions (k : Nat) (v : PanelSt) : (s.setPanel k v).sessions = s.sessions := rfl
@[simp] theorem State.setPanel_kept (k : Nat) (v : PanelSt) : (s.setPanel k v).kept = s.kept := rfl
@[simp] theorem State.setPanel_ptp (k : Nat) (v : PanelSt) : (s.setPanel k v).ptp = s.ptp := rfl
@[simp] theorem State.setPanel_hbmStacks (k : Nat) (v : PanelSt) : (s.setPanel k v).hbmStacks = s.hbmStacks := rfl
@[simp] theorem State.setPanel_ports (k : Nat) (v : PanelSt) : (s.setPanel k v).ports = s.ports := rfl
@[simp] theorem State.setPanel_pins (k : Nat) (v : PanelSt) : (s.setPanel k v).pins = s.pins := rfl
@[simp] theorem State.setPanel_tap (k : Nat) (v : PanelSt) : (s.setPanel k v).tap = s.tap := rfl
@[simp] theorem State.setPanel_regions (k : Nat) (v : PanelSt) : (s.setPanel k v).regions = s.regions := rfl
@[simp] theorem State.setPanel_power (k : Nat) (v : PanelSt) : (s.setPanel k v).power = s.power := rfl
@[simp] theorem State.setPanel_casc (k : Nat) (v : PanelSt) : (s.setPanel k v).casc = s.casc := rfl
@[simp] theorem State.setPanel_sec (k : Nat) (v : PanelSt) : (s.setPanel k v).sec = s.sec := rfl
@[simp] theorem State.setPanel_journalOld (k : Nat) (v : PanelSt) : (s.setPanel k v).journalOld = s.journalOld := rfl
@[simp] theorem State.setPanel_muslinFailed (k : Nat) (v : PanelSt) : (s.setPanel k v).muslinFailed = s.muslinFailed := rfl
@[simp] theorem State.setPanel_unretire (k : Nat) (v : PanelSt) : (s.setPanel k v).unretire = s.unretire := rfl
@[simp] theorem State.setPanel_darnSet (k : Nat) (v : PanelSt) : (s.setPanel k v).darnSet = s.darnSet := rfl
@[simp] theorem State.setPanel_rd_other (k : Nat) (v : PanelSt) (j : Nat) : (s.setPanel k v).rd j = s.rd j := rfl
@[simp] theorem State.setPanel_blob_other (k : Nat) (v : PanelSt) (j : Nat) : (s.setPanel k v).blob j = s.blob j := rfl
@[simp] theorem State.setPanel_core_other (k : Nat) (v : PanelSt) (j : Nat) : (s.setPanel k v).core j = s.core j := rfl
@[simp] theorem State.setPanel_router_other (k : Nat) (v : PanelSt) (j : Nat) : (s.setPanel k v).router j = s.router j := rfl
@[simp] theorem State.setPanel_link_other (k : Nat) (v : PanelSt) (j : Nat) : (s.setPanel k v).link j = s.link j := rfl
@[simp] theorem State.setPanel_inst_other (k : Nat) (v : PanelSt) (j : Nat) : (s.setPanel k v).inst j = s.inst j := rfl
@[simp] theorem State.setPanel_slot_other (k : Nat) (v : PanelSt) (j : Nat) : (s.setPanel k v).slot j = s.slot j := rfl
@[simp] theorem State.setPanel_seq_other (k : Nat) (v : PanelSt) (j : Nat) : (s.setPanel k v).seq j = s.seq j := rfl
@[simp] theorem State.setPanel_fn_other (k : Nat) (v : PanelSt) (j : Nat) : (s.setPanel k v).fn j = s.fn j := rfl
@[simp] theorem State.setPanel_ses_other (k : Nat) (v : PanelSt) (j : Nat) : (s.setPanel k v).ses j = s.ses j := rfl
@[simp] theorem State.setPanel_stack_other (k : Nat) (v : PanelSt) (j : Nat) : (s.setPanel k v).stack j = s.stack j := rfl
@[simp] theorem State.setPanel_port_other (k : Nat) (v : PanelSt) (j : Nat) : (s.setPanel k v).port j = s.port j := rfl
@[simp] theorem State.setPanel_pin_other (k : Nat) (v : PanelSt) (j : Nat) : (s.setPanel k v).pin j = s.pin j := rfl
@[simp] theorem State.setPanel_region_other (k : Nat) (v : PanelSt) (j : Nat) : (s.setPanel k v).region j = s.region j := rfl
@[simp] theorem State.setPanel_seam_other (k : Nat) (v : PanelSt) (j : Nat) : (s.setPanel k v).seam j = s.seam j := rfl
@[simp] theorem State.panel_setPanel (k : Nat) (v : PanelSt) : (s.setPanel k v).panel k = v := mapGet_set_self _ _ _ _
theorem State.panel_setPanel_if (k : Nat) (v : PanelSt) (j : Nat) : (s.setPanel k v).panel j = if j = k then v else s.panel j := mapGet_set _ _ _ _ _
theorem State.panel_setPanel_ne (k : Nat) (v : PanelSt) (j : Nat) (h : j ≠ k) : (s.setPanel k v).panel j = s.panel j := mapGet_set_other _ _ _ h

/-! ## `State.setSeam` -/

@[simp] theorem State.setSeam_pending (k : Nat) (v : Seam) : (s.setSeam k v).pending = s.pending := rfl
@[simp] theorem State.setSeam_dict (k : Nat) (v : Seam) : (s.setSeam k v).dict = s.dict := rfl
@[simp] theorem State.setSeam_blobs (k : Nat) (v : Seam) : (s.setSeam k v).blobs = s.blobs := rfl
@[simp] theorem State.setSeam_time (k : Nat) (v : Seam) : (s.setSeam k v).time = s.time := rfl
@[simp] theorem State.setSeam_uptime (k : Nat) (v : Seam) : (s.setSeam k v).uptime = s.uptime := rfl
@[simp] theorem State.setSeam_wallTaken (k : Nat) (v : Seam) : (s.setSeam k v).wallTaken = s.wallTaken := rfl
@[simp] theorem State.setSeam_mclkAcc (k : Nat) (v : Seam) : (s.setSeam k v).mclkAcc = s.mclkAcc := rfl
@[simp] theorem State.setSeam_freeNext (k : Nat) (v : Seam) : (s.setSeam k v).freeNext = s.freeNext := rfl
@[simp] theorem State.setSeam_log (k : Nat) (v : Seam) : (s.setSeam k v).log = s.log := rfl
@[simp] theorem State.setSeam_scrubOn (k : Nat) (v : Seam) : (s.setSeam k v).scrubOn = s.scrubOn := rfl
@[simp] theorem State.setSeam_cores (k : Nat) (v : Seam) : (s.setSeam k v).cores = s.cores := rfl
@[simp] theorem State.setSeam_routers (k : Nat) (v : Seam) : (s.setSeam k v).routers = s.routers := rfl
@[simp] theorem State.setSeam_links (k : Nat) (v : Seam) : (s.setSeam k v).links = s.links := rfl
@[simp] theorem State.setSeam_fns (k : Nat) (v : Seam) : (s.setSeam k v).fns = s.fns := rfl
@[simp] theorem State.setSeam_sent (k : Nat) (v : Seam) : (s.setSeam k v).sent = s.sent := rfl
@[simp] theorem State.setSeam_logMsgAt (k : Nat) (v : Seam) : (s.setSeam k v).logMsgAt = s.logMsgAt := rfl
@[simp] theorem State.setSeam_logMsgHeld (k : Nat) (v : Seam) : (s.setSeam k v).logMsgHeld = s.logMsgHeld := rfl
@[simp] theorem State.setSeam_hbm (k : Nat) (v : Seam) : (s.setSeam k v).hbm = s.hbm := rfl
@[simp] theorem State.setSeam_hbmPoison (k : Nat) (v : Seam) : (s.setSeam k v).hbmPoison = s.hbmPoison := rfl
@[simp] theorem State.setSeam_hbmErr (k : Nat) (v : Seam) : (s.setSeam k v).hbmErr = s.hbmErr := rfl
@[simp] theorem State.setSeam_insts (k : Nat) (v : Seam) : (s.setSeam k v).insts = s.insts := rfl
@[simp] theorem State.setSeam_hostMem (k : Nat) (v : Seam) : (s.setSeam k v).hostMem = s.hostMem := rfl
@[simp] theorem State.setSeam_winTab (k : Nat) (v : Seam) : (s.setSeam k v).winTab = s.winTab := rfl
@[simp] theorem State.setSeam_swin (k : Nat) (v : Seam) : (s.setSeam k v).swin = s.swin := rfl
@[simp] theorem State.setSeam_seqs (k : Nat) (v : Seam) : (s.setSeam k v).seqs = s.seqs := rfl
@[simp] theorem State.setSeam_slots (k : Nat) (v : Seam) : (s.setSeam k v).slots = s.slots := rfl
@[simp] theorem State.setSeam_marks (k : Nat) (v : Seam) : (s.setSeam k v).marks = s.marks := rfl
@[simp] theorem State.setSeam_reqs (k : Nat) (v : Seam) : (s.setSeam k v).reqs = s.reqs := rfl
@[simp] theorem State.setSeam_tx (k : Nat) (v : Seam) : (s.setSeam k v).tx = s.tx := rfl
@[simp] theorem State.setSeam_sessions (k : Nat) (v : Seam) : (s.setSeam k v).sessions = s.sessions := rfl
@[simp] theorem State.setSeam_kept (k : Nat) (v : Seam) : (s.setSeam k v).kept = s.kept := rfl
@[simp] theorem State.setSeam_ptp (k : Nat) (v : Seam) : (s.setSeam k v).ptp = s.ptp := rfl
@[simp] theorem State.setSeam_hbmStacks (k : Nat) (v : Seam) : (s.setSeam k v).hbmStacks = s.hbmStacks := rfl
@[simp] theorem State.setSeam_ports (k : Nat) (v : Seam) : (s.setSeam k v).ports = s.ports := rfl
@[simp] theorem State.setSeam_pins (k : Nat) (v : Seam) : (s.setSeam k v).pins = s.pins := rfl
@[simp] theorem State.setSeam_tap (k : Nat) (v : Seam) : (s.setSeam k v).tap = s.tap := rfl
@[simp] theorem State.setSeam_regions (k : Nat) (v : Seam) : (s.setSeam k v).regions = s.regions := rfl
@[simp] theorem State.setSeam_panels (k : Nat) (v : Seam) : (s.setSeam k v).panels = s.panels := rfl
@[simp] theorem State.setSeam_power (k : Nat) (v : Seam) : (s.setSeam k v).power = s.power := rfl
@[simp] theorem State.setSeam_casc (k : Nat) (v : Seam) : (s.setSeam k v).casc = s.casc := rfl
@[simp] theorem State.setSeam_sec (k : Nat) (v : Seam) : (s.setSeam k v).sec = s.sec := rfl
@[simp] theorem State.setSeam_journalOld (k : Nat) (v : Seam) : (s.setSeam k v).journalOld = s.journalOld := rfl
@[simp] theorem State.setSeam_muslinFailed (k : Nat) (v : Seam) : (s.setSeam k v).muslinFailed = s.muslinFailed := rfl
@[simp] theorem State.setSeam_unretire (k : Nat) (v : Seam) : (s.setSeam k v).unretire = s.unretire := rfl
@[simp] theorem State.setSeam_darnSet (k : Nat) (v : Seam) : (s.setSeam k v).darnSet = s.darnSet := rfl
@[simp] theorem State.setSeam_rd_other (k : Nat) (v : Seam) (j : Nat) : (s.setSeam k v).rd j = s.rd j := rfl
@[simp] theorem State.setSeam_blob_other (k : Nat) (v : Seam) (j : Nat) : (s.setSeam k v).blob j = s.blob j := rfl
@[simp] theorem State.setSeam_core_other (k : Nat) (v : Seam) (j : Nat) : (s.setSeam k v).core j = s.core j := rfl
@[simp] theorem State.setSeam_router_other (k : Nat) (v : Seam) (j : Nat) : (s.setSeam k v).router j = s.router j := rfl
@[simp] theorem State.setSeam_link_other (k : Nat) (v : Seam) (j : Nat) : (s.setSeam k v).link j = s.link j := rfl
@[simp] theorem State.setSeam_inst_other (k : Nat) (v : Seam) (j : Nat) : (s.setSeam k v).inst j = s.inst j := rfl
@[simp] theorem State.setSeam_slot_other (k : Nat) (v : Seam) (j : Nat) : (s.setSeam k v).slot j = s.slot j := rfl
@[simp] theorem State.setSeam_seq_other (k : Nat) (v : Seam) (j : Nat) : (s.setSeam k v).seq j = s.seq j := rfl
@[simp] theorem State.setSeam_fn_other (k : Nat) (v : Seam) (j : Nat) : (s.setSeam k v).fn j = s.fn j := rfl
@[simp] theorem State.setSeam_ses_other (k : Nat) (v : Seam) (j : Nat) : (s.setSeam k v).ses j = s.ses j := rfl
@[simp] theorem State.setSeam_stack_other (k : Nat) (v : Seam) (j : Nat) : (s.setSeam k v).stack j = s.stack j := rfl
@[simp] theorem State.setSeam_port_other (k : Nat) (v : Seam) (j : Nat) : (s.setSeam k v).port j = s.port j := rfl
@[simp] theorem State.setSeam_pin_other (k : Nat) (v : Seam) (j : Nat) : (s.setSeam k v).pin j = s.pin j := rfl
@[simp] theorem State.setSeam_region_other (k : Nat) (v : Seam) (j : Nat) : (s.setSeam k v).region j = s.region j := rfl
@[simp] theorem State.setSeam_panel_other (k : Nat) (v : Seam) (j : Nat) : (s.setSeam k v).panel j = s.panel j := rfl
@[simp] theorem State.seam_setSeam (k : Nat) (v : Seam) : (s.setSeam k v).seam k = v := mapGet_set_self _ _ _ _
theorem State.seam_setSeam_if (k : Nat) (v : Seam) (j : Nat) : (s.setSeam k v).seam j = if j = k then v else s.seam j := mapGet_set _ _ _ _ _
theorem State.seam_setSeam_ne (k : Nat) (v : Seam) (j : Nat) (h : j ≠ k) : (s.setSeam k v).seam j = s.seam j := mapGet_set_other _ _ _ h

/-! ## `State.send` -/

@[simp] theorem State.send_pending (k : Nat) (v : List Byte) : (s.send k v).pending = s.pending := rfl
@[simp] theorem State.send_dict (k : Nat) (v : List Byte) : (s.send k v).dict = s.dict := rfl
@[simp] theorem State.send_blobs (k : Nat) (v : List Byte) : (s.send k v).blobs = s.blobs := rfl
@[simp] theorem State.send_time (k : Nat) (v : List Byte) : (s.send k v).time = s.time := rfl
@[simp] theorem State.send_uptime (k : Nat) (v : List Byte) : (s.send k v).uptime = s.uptime := rfl
@[simp] theorem State.send_wallTaken (k : Nat) (v : List Byte) : (s.send k v).wallTaken = s.wallTaken := rfl
@[simp] theorem State.send_mclkAcc (k : Nat) (v : List Byte) : (s.send k v).mclkAcc = s.mclkAcc := rfl
@[simp] theorem State.send_freeNext (k : Nat) (v : List Byte) : (s.send k v).freeNext = s.freeNext := rfl
@[simp] theorem State.send_log (k : Nat) (v : List Byte) : (s.send k v).log = s.log := rfl
@[simp] theorem State.send_scrubOn (k : Nat) (v : List Byte) : (s.send k v).scrubOn = s.scrubOn := rfl
@[simp] theorem State.send_cores (k : Nat) (v : List Byte) : (s.send k v).cores = s.cores := rfl
@[simp] theorem State.send_routers (k : Nat) (v : List Byte) : (s.send k v).routers = s.routers := rfl
@[simp] theorem State.send_links (k : Nat) (v : List Byte) : (s.send k v).links = s.links := rfl
@[simp] theorem State.send_fns (k : Nat) (v : List Byte) : (s.send k v).fns = s.fns := rfl
@[simp] theorem State.send_sent (k : Nat) (v : List Byte) : (s.send k v).sent = s.sent := rfl
@[simp] theorem State.send_logMsgAt (k : Nat) (v : List Byte) : (s.send k v).logMsgAt = s.logMsgAt := rfl
@[simp] theorem State.send_logMsgHeld (k : Nat) (v : List Byte) : (s.send k v).logMsgHeld = s.logMsgHeld := rfl
@[simp] theorem State.send_hbm (k : Nat) (v : List Byte) : (s.send k v).hbm = s.hbm := rfl
@[simp] theorem State.send_hbmPoison (k : Nat) (v : List Byte) : (s.send k v).hbmPoison = s.hbmPoison := rfl
@[simp] theorem State.send_hbmErr (k : Nat) (v : List Byte) : (s.send k v).hbmErr = s.hbmErr := rfl
@[simp] theorem State.send_insts (k : Nat) (v : List Byte) : (s.send k v).insts = s.insts := rfl
@[simp] theorem State.send_hostMem (k : Nat) (v : List Byte) : (s.send k v).hostMem = s.hostMem := rfl
@[simp] theorem State.send_winTab (k : Nat) (v : List Byte) : (s.send k v).winTab = s.winTab := rfl
@[simp] theorem State.send_swin (k : Nat) (v : List Byte) : (s.send k v).swin = s.swin := rfl
@[simp] theorem State.send_seams (k : Nat) (v : List Byte) : (s.send k v).seams = s.seams := rfl
@[simp] theorem State.send_seqs (k : Nat) (v : List Byte) : (s.send k v).seqs = s.seqs := rfl
@[simp] theorem State.send_slots (k : Nat) (v : List Byte) : (s.send k v).slots = s.slots := rfl
@[simp] theorem State.send_marks (k : Nat) (v : List Byte) : (s.send k v).marks = s.marks := rfl
@[simp] theorem State.send_reqs (k : Nat) (v : List Byte) : (s.send k v).reqs = s.reqs := rfl
@[simp] theorem State.send_sessions (k : Nat) (v : List Byte) : (s.send k v).sessions = s.sessions := rfl
@[simp] theorem State.send_kept (k : Nat) (v : List Byte) : (s.send k v).kept = s.kept := rfl
@[simp] theorem State.send_ptp (k : Nat) (v : List Byte) : (s.send k v).ptp = s.ptp := rfl
@[simp] theorem State.send_hbmStacks (k : Nat) (v : List Byte) : (s.send k v).hbmStacks = s.hbmStacks := rfl
@[simp] theorem State.send_ports (k : Nat) (v : List Byte) : (s.send k v).ports = s.ports := rfl
@[simp] theorem State.send_pins (k : Nat) (v : List Byte) : (s.send k v).pins = s.pins := rfl
@[simp] theorem State.send_tap (k : Nat) (v : List Byte) : (s.send k v).tap = s.tap := rfl
@[simp] theorem State.send_regions (k : Nat) (v : List Byte) : (s.send k v).regions = s.regions := rfl
@[simp] theorem State.send_panels (k : Nat) (v : List Byte) : (s.send k v).panels = s.panels := rfl
@[simp] theorem State.send_power (k : Nat) (v : List Byte) : (s.send k v).power = s.power := rfl
@[simp] theorem State.send_casc (k : Nat) (v : List Byte) : (s.send k v).casc = s.casc := rfl
@[simp] theorem State.send_sec (k : Nat) (v : List Byte) : (s.send k v).sec = s.sec := rfl
@[simp] theorem State.send_journalOld (k : Nat) (v : List Byte) : (s.send k v).journalOld = s.journalOld := rfl
@[simp] theorem State.send_muslinFailed (k : Nat) (v : List Byte) : (s.send k v).muslinFailed = s.muslinFailed := rfl
@[simp] theorem State.send_unretire (k : Nat) (v : List Byte) : (s.send k v).unretire = s.unretire := rfl
@[simp] theorem State.send_darnSet (k : Nat) (v : List Byte) : (s.send k v).darnSet = s.darnSet := rfl
@[simp] theorem State.send_rd_other (k : Nat) (v : List Byte) (j : Nat) : (s.send k v).rd j = s.rd j := rfl
@[simp] theorem State.send_blob_other (k : Nat) (v : List Byte) (j : Nat) : (s.send k v).blob j = s.blob j := rfl
@[simp] theorem State.send_core_other (k : Nat) (v : List Byte) (j : Nat) : (s.send k v).core j = s.core j := rfl
@[simp] theorem State.send_router_other (k : Nat) (v : List Byte) (j : Nat) : (s.send k v).router j = s.router j := rfl
@[simp] theorem State.send_link_other (k : Nat) (v : List Byte) (j : Nat) : (s.send k v).link j = s.link j := rfl
@[simp] theorem State.send_inst_other (k : Nat) (v : List Byte) (j : Nat) : (s.send k v).inst j = s.inst j := rfl
@[simp] theorem State.send_slot_other (k : Nat) (v : List Byte) (j : Nat) : (s.send k v).slot j = s.slot j := rfl
@[simp] theorem State.send_seq_other (k : Nat) (v : List Byte) (j : Nat) : (s.send k v).seq j = s.seq j := rfl
@[simp] theorem State.send_fn_other (k : Nat) (v : List Byte) (j : Nat) : (s.send k v).fn j = s.fn j := rfl
@[simp] theorem State.send_ses_other (k : Nat) (v : List Byte) (j : Nat) : (s.send k v).ses j = s.ses j := rfl
@[simp] theorem State.send_stack_other (k : Nat) (v : List Byte) (j : Nat) : (s.send k v).stack j = s.stack j := rfl
@[simp] theorem State.send_port_other (k : Nat) (v : List Byte) (j : Nat) : (s.send k v).port j = s.port j := rfl
@[simp] theorem State.send_pin_other (k : Nat) (v : List Byte) (j : Nat) : (s.send k v).pin j = s.pin j := rfl
@[simp] theorem State.send_region_other (k : Nat) (v : List Byte) (j : Nat) : (s.send k v).region j = s.region j := rfl
@[simp] theorem State.send_panel_other (k : Nat) (v : List Byte) (j : Nat) : (s.send k v).panel j = s.panel j := rfl
@[simp] theorem State.send_seam_other (k : Nat) (v : List Byte) (j : Nat) : (s.send k v).seam j = s.seam j := rfl

/-! ## Derived updates in terms of the basic ones -/

@[simp] theorem State.modCore_eq (k : Nat) (f : Core → Core) : s.modCore k f = s.setCore k (f (s.core k)) := rfl
@[simp] theorem State.modRouter_eq (k : Nat) (f : Router → Router) : s.modRouter k f = s.setRouter k (f (s.router k)) := rfl
@[simp] theorem State.modInst_eq (k : Nat) (f : Inst → Inst) : s.modInst k f = s.setInst k (f (s.inst k)) := rfl
@[simp] theorem State.modSlot_eq (k : Nat) (f : Slot → Slot) : s.modSlot k f = s.setSlot k (f (s.slot k)) := rfl
@[simp] theorem State.modSeq_eq (k : Nat) (f : Seq → Seq) : s.modSeq k f = s.setSeq k (f (s.seq k)) := rfl
@[simp] theorem State.modSes_eq (k : Nat) (f : Ses → Ses) : s.modSes k f = s.setSes k (f (s.ses k)) := rfl
@[simp] theorem State.bump_eq (k w n : Nat) : s.bump k w n = s.wr k ((s.rd k + n) % 2 ^ w) := rfl
@[simp] theorem State.wrI_eq (k w : Nat) (v : Int) : s.wrI k w v = s.wr k (unsignedAt w v) := rfl

end Sys2Proof.Machine
end

