-- ==== Sys2Proof/Laws/Ops.lean ====
section
/-! SUPPORT. What the shared operations can change: messages, the event log, a trap; everything else stays. -/

namespace Sys2Proof.Machine

/-- `each` keeps a reflexive and transitive relation that every change gives. -/
theorem State.each_rel {α : Type} {R : State → State → Prop} (hr : ∀ s, R s s)
    (ht : ∀ {a b c}, R a b → R b c → R a c) {f : State → α → State} (hf : ∀ s x, R s (f s x)) :
    ∀ (l : List α) (s : State), R s (s.each l f)
  | [], s => hr s
  | x :: t, s => ht (hf s x) (State.each_rel hr @ht hf t (f s x))

/-! ## Messages -/

/-- Only the messages sent and the pending bits differ. -/
def State.MsgOnly (s t : State) : Prop := t = { s with sent := t.sent, fns := t.fns }
theorem State.MsgOnly.refl (s : State) : s.MsgOnly s := rfl
theorem State.MsgOnly.trans {a b c : State} (h : a.MsgOnly b) (k : b.MsgOnly c) : a.MsgOnly c := by
  unfold State.MsgOnly at *
  rw [k, h]
theorem State.MsgOnly.ite {s a b : State} {p : Prop} [Decidable p] (h : s.MsgOnly a) (k : s.MsgOnly b) :
    s.MsgOnly (if p then a else b) := by
  by_cases hp : p
  · rw [if_pos hp]; exact h
  · rw [if_neg hp]; exact k
theorem State.MsgOnly.eq {s t : State} (h : s.MsgOnly t) : t = { s with sent := t.sent, fns := t.fns } := h
theorem State.MsgOnly.pending {s t : State} (h : s.MsgOnly t) : t.pending = s.pending := (congrArg State.pending h.eq).trans rfl
theorem State.MsgOnly.dict {s t : State} (h : s.MsgOnly t) : t.dict = s.dict := (congrArg State.dict h.eq).trans rfl
theorem State.MsgOnly.blobs {s t : State} (h : s.MsgOnly t) : t.blobs = s.blobs := (congrArg State.blobs h.eq).trans rfl
theorem State.MsgOnly.time {s t : State} (h : s.MsgOnly t) : t.time = s.time := (congrArg State.time h.eq).trans rfl
theorem State.MsgOnly.uptime {s t : State} (h : s.MsgOnly t) : t.uptime = s.uptime := (congrArg State.uptime h.eq).trans rfl
theorem State.MsgOnly.wallTaken {s t : State} (h : s.MsgOnly t) : t.wallTaken = s.wallTaken := (congrArg State.wallTaken h.eq).trans rfl
theorem State.MsgOnly.mclkAcc {s t : State} (h : s.MsgOnly t) : t.mclkAcc = s.mclkAcc := (congrArg State.mclkAcc h.eq).trans rfl
theorem State.MsgOnly.freeNext {s t : State} (h : s.MsgOnly t) : t.freeNext = s.freeNext := (congrArg State.freeNext h.eq).trans rfl
theorem State.MsgOnly.log {s t : State} (h : s.MsgOnly t) : t.log = s.log := (congrArg State.log h.eq).trans rfl
theorem State.MsgOnly.cores {s t : State} (h : s.MsgOnly t) : t.cores = s.cores := (congrArg State.cores h.eq).trans rfl
theorem State.MsgOnly.routers {s t : State} (h : s.MsgOnly t) : t.routers = s.routers := (congrArg State.routers h.eq).trans rfl
theorem State.MsgOnly.links {s t : State} (h : s.MsgOnly t) : t.links = s.links := (congrArg State.links h.eq).trans rfl
theorem State.MsgOnly.logMsgAt {s t : State} (h : s.MsgOnly t) : t.logMsgAt = s.logMsgAt := (congrArg State.logMsgAt h.eq).trans rfl
theorem State.MsgOnly.logMsgHeld {s t : State} (h : s.MsgOnly t) : t.logMsgHeld = s.logMsgHeld := (congrArg State.logMsgHeld h.eq).trans rfl
theorem State.MsgOnly.hbm {s t : State} (h : s.MsgOnly t) : t.hbm = s.hbm := (congrArg State.hbm h.eq).trans rfl
theorem State.MsgOnly.hbmPoison {s t : State} (h : s.MsgOnly t) : t.hbmPoison = s.hbmPoison := (congrArg State.hbmPoison h.eq).trans rfl
theorem State.MsgOnly.insts {s t : State} (h : s.MsgOnly t) : t.insts = s.insts := (congrArg State.insts h.eq).trans rfl
theorem State.MsgOnly.hostMem {s t : State} (h : s.MsgOnly t) : t.hostMem = s.hostMem := (congrArg State.hostMem h.eq).trans rfl
theorem State.MsgOnly.winTab {s t : State} (h : s.MsgOnly t) : t.winTab = s.winTab := (congrArg State.winTab h.eq).trans rfl
theorem State.MsgOnly.swin {s t : State} (h : s.MsgOnly t) : t.swin = s.swin := (congrArg State.swin h.eq).trans rfl
theorem State.MsgOnly.seams {s t : State} (h : s.MsgOnly t) : t.seams = s.seams := (congrArg State.seams h.eq).trans rfl
theorem State.MsgOnly.seqs {s t : State} (h : s.MsgOnly t) : t.seqs = s.seqs := (congrArg State.seqs h.eq).trans rfl
theorem State.MsgOnly.slots {s t : State} (h : s.MsgOnly t) : t.slots = s.slots := (congrArg State.slots h.eq).trans rfl
theorem State.MsgOnly.marks {s t : State} (h : s.MsgOnly t) : t.marks = s.marks := (congrArg State.marks h.eq).trans rfl
theorem State.MsgOnly.reqs {s t : State} (h : s.MsgOnly t) : t.reqs = s.reqs := (congrArg State.reqs h.eq).trans rfl
theorem State.MsgOnly.tx {s t : State} (h : s.MsgOnly t) : t.tx = s.tx := (congrArg State.tx h.eq).trans rfl
theorem State.MsgOnly.sessions {s t : State} (h : s.MsgOnly t) : t.sessions = s.sessions := (congrArg State.sessions h.eq).trans rfl
theorem State.MsgOnly.kept {s t : State} (h : s.MsgOnly t) : t.kept = s.kept := (congrArg State.kept h.eq).trans rfl
theorem State.MsgOnly.ptp {s t : State} (h : s.MsgOnly t) : t.ptp = s.ptp := (congrArg State.ptp h.eq).trans rfl
theorem State.MsgOnly.hbmStacks {s t : State} (h : s.MsgOnly t) : t.hbmStacks = s.hbmStacks := (congrArg State.hbmStacks h.eq).trans rfl
theorem State.MsgOnly.ports {s t : State} (h : s.MsgOnly t) : t.ports = s.ports := (congrArg State.ports h.eq).trans rfl
theorem State.MsgOnly.pins {s t : State} (h : s.MsgOnly t) : t.pins = s.pins := (congrArg State.pins h.eq).trans rfl
theorem State.MsgOnly.tap {s t : State} (h : s.MsgOnly t) : t.tap = s.tap := (congrArg State.tap h.eq).trans rfl
theorem State.MsgOnly.regions {s t : State} (h : s.MsgOnly t) : t.regions = s.regions := (congrArg State.regions h.eq).trans rfl
theorem State.MsgOnly.panels {s t : State} (h : s.MsgOnly t) : t.panels = s.panels := (congrArg State.panels h.eq).trans rfl
theorem State.MsgOnly.power {s t : State} (h : s.MsgOnly t) : t.power = s.power := (congrArg State.power h.eq).trans rfl
theorem State.MsgOnly.casc {s t : State} (h : s.MsgOnly t) : t.casc = s.casc := (congrArg State.casc h.eq).trans rfl
theorem State.MsgOnly.sec {s t : State} (h : s.MsgOnly t) : t.sec = s.sec := (congrArg State.sec h.eq).trans rfl
theorem State.MsgOnly.journalOld {s t : State} (h : s.MsgOnly t) : t.journalOld = s.journalOld := (congrArg State.journalOld h.eq).trans rfl
theorem State.MsgOnly.muslinFailed {s t : State} (h : s.MsgOnly t) : t.muslinFailed = s.muslinFailed := (congrArg State.muslinFailed h.eq).trans rfl
theorem State.MsgOnly.unretire {s t : State} (h : s.MsgOnly t) : t.unretire = s.unretire := (congrArg State.unretire h.eq).trans rfl
theorem State.MsgOnly.darnSet {s t : State} (h : s.MsgOnly t) : t.darnSet = s.darnSet := (congrArg State.darnSet h.eq).trans rfl
theorem State.MsgOnly.rd {s t : State} (h : s.MsgOnly t) (j : Nat) : t.rd j = s.rd j := (congrArg (fun t : State => t.rd j) h.eq).trans rfl
theorem State.MsgOnly.blob {s t : State} (h : s.MsgOnly t) (j : Nat) : t.blob j = s.blob j := (congrArg (fun t : State => t.blob j) h.eq).trans rfl
theorem State.MsgOnly.core {s t : State} (h : s.MsgOnly t) (j : Nat) : t.core j = s.core j := (congrArg (fun t : State => t.core j) h.eq).trans rfl
theorem State.MsgOnly.router {s t : State} (h : s.MsgOnly t) (j : Nat) : t.router j = s.router j := (congrArg (fun t : State => t.router j) h.eq).trans rfl
theorem State.MsgOnly.link {s t : State} (h : s.MsgOnly t) (j : Nat) : t.link j = s.link j := (congrArg (fun t : State => t.link j) h.eq).trans rfl
theorem State.MsgOnly.inst {s t : State} (h : s.MsgOnly t) (j : Nat) : t.inst j = s.inst j := (congrArg (fun t : State => t.inst j) h.eq).trans rfl
theorem State.MsgOnly.slot {s t : State} (h : s.MsgOnly t) (j : Nat) : t.slot j = s.slot j := (congrArg (fun t : State => t.slot j) h.eq).trans rfl
theorem State.MsgOnly.seq {s t : State} (h : s.MsgOnly t) (j : Nat) : t.seq j = s.seq j := (congrArg (fun t : State => t.seq j) h.eq).trans rfl
theorem State.MsgOnly.ses {s t : State} (h : s.MsgOnly t) (j : Nat) : t.ses j = s.ses j := (congrArg (fun t : State => t.ses j) h.eq).trans rfl
theorem State.MsgOnly.stack {s t : State} (h : s.MsgOnly t) (j : Nat) : t.stack j = s.stack j := (congrArg (fun t : State => t.stack j) h.eq).trans rfl
theorem State.MsgOnly.port {s t : State} (h : s.MsgOnly t) (j : Nat) : t.port j = s.port j := (congrArg (fun t : State => t.port j) h.eq).trans rfl
theorem State.MsgOnly.pin {s t : State} (h : s.MsgOnly t) (j : Nat) : t.pin j = s.pin j := (congrArg (fun t : State => t.pin j) h.eq).trans rfl
theorem State.MsgOnly.region {s t : State} (h : s.MsgOnly t) (j : Nat) : t.region j = s.region j := (congrArg (fun t : State => t.region j) h.eq).trans rfl
theorem State.MsgOnly.panel {s t : State} (h : s.MsgOnly t) (j : Nat) : t.panel j = s.panel j := (congrArg (fun t : State => t.panel j) h.eq).trans rfl
theorem State.MsgOnly.seam {s t : State} (h : s.MsgOnly t) (j : Nat) : t.seam j = s.seam j := (congrArg (fun t : State => t.seam j) h.eq).trans rfl

theorem State.message_only (s : State) (f v : Nat) : s.MsgOnly (s.message f v) :=
  .ite rfl (.ite rfl rfl)
theorem State.messagePfs_only (s : State) (v : Nat) : s.MsgOnly (s.messagePfs v) :=
  State.each_rel State.MsgOnly.refl State.MsgOnly.trans (fun s n => s.message_only (pfOf n) v) _ s

@[simp] theorem State.message_pending (s : State) (f v : Nat) : (s.message f v).pending = s.pending :=
  (s.message_only f v).pending
@[simp] theorem State.message_dict (s : State) (f v : Nat) : (s.message f v).dict = s.dict :=
  (s.message_only f v).dict
@[simp] theorem State.message_blobs (s : State) (f v : Nat) : (s.message f v).blobs = s.blobs :=
  (s.message_only f v).blobs
@[simp] theorem State.message_time (s : State) (f v : Nat) : (s.message f v).time = s.time :=
  (s.message_only f v).time
@[simp] theorem State.message_uptime (s : State) (f v : Nat) : (s.message f v).uptime = s.uptime :=
  (s.message_only f v).uptime
@[simp] theorem State.message_wallTaken (s : State) (f v : Nat) : (s.message f v).wallTaken = s.wallTaken :=
  (s.message_only f v).wallTaken
@[simp] theorem State.message_mclkAcc (s : State) (f v : Nat) : (s.message f v).mclkAcc = s.mclkAcc :=
  (s.message_only f v).mclkAcc
@[simp] theorem State.message_freeNext (s : State) (f v : Nat) : (s.message f v).freeNext = s.freeNext :=
  (s.message_only f v).freeNext
@[simp] theorem State.message_log (s : State) (f v : Nat) : (s.message f v).log = s.log :=
  (s.message_only f v).log
@[simp] theorem State.message_cores (s : State) (f v : Nat) : (s.message f v).cores = s.cores :=
  (s.message_only f v).cores
@[simp] theorem State.message_routers (s : State) (f v : Nat) : (s.message f v).routers = s.routers :=
  (s.message_only f v).routers
@[simp] theorem State.message_links (s : State) (f v : Nat) : (s.message f v).links = s.links :=
  (s.message_only f v).links
@[simp] theorem State.message_logMsgAt (s : State) (f v : Nat) : (s.message f v).logMsgAt = s.logMsgAt :=
  (s.message_only f v).logMsgAt
@[simp] theorem State.message_logMsgHeld (s : State) (f v : Nat) : (s.message f v).logMsgHeld = s.logMsgHeld :=
  (s.message_only f v).logMsgHeld
@[simp] theorem State.message_hbm (s : State) (f v : Nat) : (s.message f v).hbm = s.hbm :=
  (s.message_only f v).hbm
@[simp] theorem State.message_hbmPoison (s : State) (f v : Nat) : (s.message f v).hbmPoison = s.hbmPoison :=
  (s.message_only f v).hbmPoison
@[simp] theorem State.message_insts (s : State) (f v : Nat) : (s.message f v).insts = s.insts :=
  (s.message_only f v).insts
@[simp] theorem State.message_hostMem (s : State) (f v : Nat) : (s.message f v).hostMem = s.hostMem :=
  (s.message_only f v).hostMem
@[simp] theorem State.message_winTab (s : State) (f v : Nat) : (s.message f v).winTab = s.winTab :=
  (s.message_only f v).winTab
@[simp] theorem State.message_swin (s : State) (f v : Nat) : (s.message f v).swin = s.swin :=
  (s.message_only f v).swin
@[simp] theorem State.message_seams (s : State) (f v : Nat) : (s.message f v).seams = s.seams :=
  (s.message_only f v).seams
@[simp] theorem State.message_seqs (s : State) (f v : Nat) : (s.message f v).seqs = s.seqs :=
  (s.message_only f v).seqs
@[simp] theorem State.message_slots (s : State) (f v : Nat) : (s.message f v).slots = s.slots :=
  (s.message_only f v).slots
@[simp] theorem State.message_marks (s : State) (f v : Nat) : (s.message f v).marks = s.marks :=
  (s.message_only f v).marks
@[simp] theorem State.message_reqs (s : State) (f v : Nat) : (s.message f v).reqs = s.reqs :=
  (s.message_only f v).reqs
@[simp] theorem State.message_tx (s : State) (f v : Nat) : (s.message f v).tx = s.tx :=
  (s.message_only f v).tx
@[simp] theorem State.message_sessions (s : State) (f v : Nat) : (s.message f v).sessions = s.sessions :=
  (s.message_only f v).sessions
@[simp] theorem State.message_kept (s : State) (f v : Nat) : (s.message f v).kept = s.kept :=
  (s.message_only f v).kept
@[simp] theorem State.message_ptp (s : State) (f v : Nat) : (s.message f v).ptp = s.ptp :=
  (s.message_only f v).ptp
@[simp] theorem State.message_hbmStacks (s : State) (f v : Nat) : (s.message f v).hbmStacks = s.hbmStacks :=
  (s.message_only f v).hbmStacks
@[simp] theorem State.message_ports (s : State) (f v : Nat) : (s.message f v).ports = s.ports :=
  (s.message_only f v).ports
@[simp] theorem State.message_pins (s : State) (f v : Nat) : (s.message f v).pins = s.pins :=
  (s.message_only f v).pins
@[simp] theorem State.message_tap (s : State) (f v : Nat) : (s.message f v).tap = s.tap :=
  (s.message_only f v).tap
@[simp] theorem State.message_regions (s : State) (f v : Nat) : (s.message f v).regions = s.regions :=
  (s.message_only f v).regions
@[simp] theorem State.message_panels (s : State) (f v : Nat) : (s.message f v).panels = s.panels :=
  (s.message_only f v).panels
@[simp] theorem State.message_power (s : State) (f v : Nat) : (s.message f v).power = s.power :=
  (s.message_only f v).power
@[simp] theorem State.message_casc (s : State) (f v : Nat) : (s.message f v).casc = s.casc :=
  (s.message_only f v).casc
@[simp] theorem State.message_sec (s : State) (f v : Nat) : (s.message f v).sec = s.sec :=
  (s.message_only f v).sec
@[simp] theorem State.message_journalOld (s : State) (f v : Nat) : (s.message f v).journalOld = s.journalOld :=
  (s.message_only f v).journalOld
@[simp] theorem State.message_muslinFailed (s : State) (f v : Nat) : (s.message f v).muslinFailed = s.muslinFailed :=
  (s.message_only f v).muslinFailed
@[simp] theorem State.message_unretire (s : State) (f v : Nat) : (s.message f v).unretire = s.unretire :=
  (s.message_only f v).unretire
@[simp] theorem State.message_darnSet (s : State) (f v : Nat) : (s.message f v).darnSet = s.darnSet :=
  (s.message_only f v).darnSet
@[simp] theorem State.message_rd (s : State) (f v : Nat) (j : Nat) : (s.message f v).rd j = s.rd j :=
  (s.message_only f v).rd j
@[simp] theorem State.message_blob (s : State) (f v : Nat) (j : Nat) : (s.message f v).blob j = s.blob j :=
  (s.message_only f v).blob j
@[simp] theorem State.message_core (s : State) (f v : Nat) (j : Nat) : (s.message f v).core j = s.core j :=
  (s.message_only f v).core j
@[simp] theorem State.message_router (s : State) (f v : Nat) (j : Nat) : (s.message f v).router j = s.router j :=
  (s.message_only f v).router j
@[simp] theorem State.message_link (s : State) (f v : Nat) (j : Nat) : (s.message f v).link j = s.link j :=
  (s.message_only f v).link j
@[simp] theorem State.message_inst (s : State) (f v : Nat) (j : Nat) : (s.message f v).inst j = s.inst j :=
  (s.message_only f v).inst j
@[simp] theorem State.message_slot (s : State) (f v : Nat) (j : Nat) : (s.message f v).slot j = s.slot j :=
  (s.message_only f v).slot j
@[simp] theorem State.message_seq (s : State) (f v : Nat) (j : Nat) : (s.message f v).seq j = s.seq j :=
  (s.message_only f v).seq j
@[simp] theorem State.message_ses (s : State) (f v : Nat) (j : Nat) : (s.message f v).ses j = s.ses j :=
  (s.message_only f v).ses j
@[simp] theorem State.message_stack (s : State) (f v : Nat) (j : Nat) : (s.message f v).stack j = s.stack j :=
  (s.message_only f v).stack j
@[simp] theorem State.message_port (s : State) (f v : Nat) (j : Nat) : (s.message f v).port j = s.port j :=
  (s.message_only f v).port j
@[simp] theorem State.message_pin (s : State) (f v : Nat) (j : Nat) : (s.message f v).pin j = s.pin j :=
  (s.message_only f v).pin j
@[simp] theorem State.message_region (s : State) (f v : Nat) (j : Nat) : (s.message f v).region j = s.region j :=
  (s.message_only f v).region j
@[simp] theorem State.message_panel (s : State) (f v : Nat) (j : Nat) : (s.message f v).panel j = s.panel j :=
  (s.message_only f v).panel j
@[simp] theorem State.message_seam (s : State) (f v : Nat) (j : Nat) : (s.message f v).seam j = s.seam j :=
  (s.message_only f v).seam j

@[simp] theorem State.messagePfs_pending (s : State) (v : Nat) : (s.messagePfs v).pending = s.pending :=
  (s.messagePfs_only v).pending
@[simp] theorem State.messagePfs_dict (s : State) (v : Nat) : (s.messagePfs v).dict = s.dict :=
  (s.messagePfs_only v).dict
@[simp] theorem State.messagePfs_blobs (s : State) (v : Nat) : (s.messagePfs v).blobs = s.blobs :=
  (s.messagePfs_only v).blobs
@[simp] theorem State.messagePfs_time (s : State) (v : Nat) : (s.messagePfs v).time = s.time :=
  (s.messagePfs_only v).time
@[simp] theorem State.messagePfs_uptime (s : State) (v : Nat) : (s.messagePfs v).uptime = s.uptime :=
  (s.messagePfs_only v).uptime
@[simp] theorem State.messagePfs_wallTaken (s : State) (v : Nat) : (s.messagePfs v).wallTaken = s.wallTaken :=
  (s.messagePfs_only v).wallTaken
@[simp] theorem State.messagePfs_mclkAcc (s : State) (v : Nat) : (s.messagePfs v).mclkAcc = s.mclkAcc :=
  (s.messagePfs_only v).mclkAcc
@[simp] theorem State.messagePfs_freeNext (s : State) (v : Nat) : (s.messagePfs v).freeNext = s.freeNext :=
  (s.messagePfs_only v).freeNext
@[simp] theorem State.messagePfs_log (s : State) (v : Nat) : (s.messagePfs v).log = s.log :=
  (s.messagePfs_only v).log
@[simp] theorem State.messagePfs_cores (s : State) (v : Nat) : (s.messagePfs v).cores = s.cores :=
  (s.messagePfs_only v).cores
@[simp] theorem State.messagePfs_routers (s : State) (v : Nat) : (s.messagePfs v).routers = s.routers :=
  (s.messagePfs_only v).routers
@[simp] theorem State.messagePfs_links (s : State) (v : Nat) : (s.messagePfs v).links = s.links :=
  (s.messagePfs_only v).links
@[simp] theorem State.messagePfs_logMsgAt (s : State) (v : Nat) : (s.messagePfs v).logMsgAt = s.logMsgAt :=
  (s.messagePfs_only v).logMsgAt
@[simp] theorem State.messagePfs_logMsgHeld (s : State) (v : Nat) : (s.messagePfs v).logMsgHeld = s.logMsgHeld :=
  (s.messagePfs_only v).logMsgHeld
@[simp] theorem State.messagePfs_hbm (s : State) (v : Nat) : (s.messagePfs v).hbm = s.hbm :=
  (s.messagePfs_only v).hbm
@[simp] theorem State.messagePfs_hbmPoison (s : State) (v : Nat) : (s.messagePfs v).hbmPoison = s.hbmPoison :=
  (s.messagePfs_only v).hbmPoison
@[simp] theorem State.messagePfs_insts (s : State) (v : Nat) : (s.messagePfs v).insts = s.insts :=
  (s.messagePfs_only v).insts
@[simp] theorem State.messagePfs_hostMem (s : State) (v : Nat) : (s.messagePfs v).hostMem = s.hostMem :=
  (s.messagePfs_only v).hostMem
@[simp] theorem State.messagePfs_winTab (s : State) (v : Nat) : (s.messagePfs v).winTab = s.winTab :=
  (s.messagePfs_only v).winTab
@[simp] theorem State.messagePfs_swin (s : State) (v : Nat) : (s.messagePfs v).swin = s.swin :=
  (s.messagePfs_only v).swin
@[simp] theorem State.messagePfs_seams (s : State) (v : Nat) : (s.messagePfs v).seams = s.seams :=
  (s.messagePfs_only v).seams
@[simp] theorem State.messagePfs_seqs (s : State) (v : Nat) : (s.messagePfs v).seqs = s.seqs :=
  (s.messagePfs_only v).seqs
@[simp] theorem State.messagePfs_slots (s : State) (v : Nat) : (s.messagePfs v).slots = s.slots :=
  (s.messagePfs_only v).slots
@[simp] theorem State.messagePfs_marks (s : State) (v : Nat) : (s.messagePfs v).marks = s.marks :=
  (s.messagePfs_only v).marks
@[simp] theorem State.messagePfs_reqs (s : State) (v : Nat) : (s.messagePfs v).reqs = s.reqs :=
  (s.messagePfs_only v).reqs
@[simp] theorem State.messagePfs_tx (s : State) (v : Nat) : (s.messagePfs v).tx = s.tx :=
  (s.messagePfs_only v).tx
@[simp] theorem State.messagePfs_sessions (s : State) (v : Nat) : (s.messagePfs v).sessions = s.sessions :=
  (s.messagePfs_only v).sessions
@[simp] theorem State.messagePfs_kept (s : State) (v : Nat) : (s.messagePfs v).kept = s.kept :=
  (s.messagePfs_only v).kept
@[simp] theorem State.messagePfs_ptp (s : State) (v : Nat) : (s.messagePfs v).ptp = s.ptp :=
  (s.messagePfs_only v).ptp
@[simp] theorem State.messagePfs_hbmStacks (s : State) (v : Nat) : (s.messagePfs v).hbmStacks = s.hbmStacks :=
  (s.messagePfs_only v).hbmStacks
@[simp] theorem State.messagePfs_ports (s : State) (v : Nat) : (s.messagePfs v).ports = s.ports :=
  (s.messagePfs_only v).ports
@[simp] theorem State.messagePfs_pins (s : State) (v : Nat) : (s.messagePfs v).pins = s.pins :=
  (s.messagePfs_only v).pins
@[simp] theorem State.messagePfs_tap (s : State) (v : Nat) : (s.messagePfs v).tap = s.tap :=
  (s.messagePfs_only v).tap
@[simp] theorem State.messagePfs_regions (s : State) (v : Nat) : (s.messagePfs v).regions = s.regions :=
  (s.messagePfs_only v).regions
@[simp] theorem State.messagePfs_panels (s : State) (v : Nat) : (s.messagePfs v).panels = s.panels :=
  (s.messagePfs_only v).panels
@[simp] theorem State.messagePfs_power (s : State) (v : Nat) : (s.messagePfs v).power = s.power :=
  (s.messagePfs_only v).power
@[simp] theorem State.messagePfs_casc (s : State) (v : Nat) : (s.messagePfs v).casc = s.casc :=
  (s.messagePfs_only v).casc
@[simp] theorem State.messagePfs_sec (s : State) (v : Nat) : (s.messagePfs v).sec = s.sec :=
  (s.messagePfs_only v).sec
@[simp] theorem State.messagePfs_journalOld (s : State) (v : Nat) : (s.messagePfs v).journalOld = s.journalOld :=
  (s.messagePfs_only v).journalOld
@[simp] theorem State.messagePfs_muslinFailed (s : State) (v : Nat) : (s.messagePfs v).muslinFailed = s.muslinFailed :=
  (s.messagePfs_only v).muslinFailed
@[simp] theorem State.messagePfs_unretire (s : State) (v : Nat) : (s.messagePfs v).unretire = s.unretire :=
  (s.messagePfs_only v).unretire
@[simp] theorem State.messagePfs_darnSet (s : State) (v : Nat) : (s.messagePfs v).darnSet = s.darnSet :=
  (s.messagePfs_only v).darnSet
@[simp] theorem State.messagePfs_rd (s : State) (v : Nat) (j : Nat) : (s.messagePfs v).rd j = s.rd j :=
  (s.messagePfs_only v).rd j
@[simp] theorem State.messagePfs_blob (s : State) (v : Nat) (j : Nat) : (s.messagePfs v).blob j = s.blob j :=
  (s.messagePfs_only v).blob j
@[simp] theorem State.messagePfs_core (s : State) (v : Nat) (j : Nat) : (s.messagePfs v).core j = s.core j :=
  (s.messagePfs_only v).core j
@[simp] theorem State.messagePfs_router (s : State) (v : Nat) (j : Nat) : (s.messagePfs v).router j = s.router j :=
  (s.messagePfs_only v).router j
@[simp] theorem State.messagePfs_link (s : State) (v : Nat) (j : Nat) : (s.messagePfs v).link j = s.link j :=
  (s.messagePfs_only v).link j
@[simp] theorem State.messagePfs_inst (s : State) (v : Nat) (j : Nat) : (s.messagePfs v).inst j = s.inst j :=
  (s.messagePfs_only v).inst j
@[simp] theorem State.messagePfs_slot (s : State) (v : Nat) (j : Nat) : (s.messagePfs v).slot j = s.slot j :=
  (s.messagePfs_only v).slot j
@[simp] theorem State.messagePfs_seq (s : State) (v : Nat) (j : Nat) : (s.messagePfs v).seq j = s.seq j :=
  (s.messagePfs_only v).seq j
@[simp] theorem State.messagePfs_ses (s : State) (v : Nat) (j : Nat) : (s.messagePfs v).ses j = s.ses j :=
  (s.messagePfs_only v).ses j
@[simp] theorem State.messagePfs_stack (s : State) (v : Nat) (j : Nat) : (s.messagePfs v).stack j = s.stack j :=
  (s.messagePfs_only v).stack j
@[simp] theorem State.messagePfs_port (s : State) (v : Nat) (j : Nat) : (s.messagePfs v).port j = s.port j :=
  (s.messagePfs_only v).port j
@[simp] theorem State.messagePfs_pin (s : State) (v : Nat) (j : Nat) : (s.messagePfs v).pin j = s.pin j :=
  (s.messagePfs_only v).pin j
@[simp] theorem State.messagePfs_region (s : State) (v : Nat) (j : Nat) : (s.messagePfs v).region j = s.region j :=
  (s.messagePfs_only v).region j
@[simp] theorem State.messagePfs_panel (s : State) (v : Nat) (j : Nat) : (s.messagePfs v).panel j = s.panel j :=
  (s.messagePfs_only v).panel j
@[simp] theorem State.messagePfs_seam (s : State) (v : Nat) (j : Nat) : (s.messagePfs v).seam j = s.seam j :=
  (s.messagePfs_only v).seam j

/-! ## The event log -/

/-- Only the log and what follows from an entry differ. -/
def State.LogOnly (s t : State) : Prop := t = { s with log := t.log, dict := t.dict, fns := t.fns, sent := t.sent, logMsgAt := t.logMsgAt, logMsgHeld := t.logMsgHeld }
theorem State.LogOnly.refl (s : State) : s.LogOnly s := rfl
theorem State.LogOnly.trans {a b c : State} (h : a.LogOnly b) (k : b.LogOnly c) : a.LogOnly c := by
  unfold State.LogOnly at *
  rw [k, h]
theorem State.LogOnly.ite {s a b : State} {p : Prop} [Decidable p] (h : s.LogOnly a) (k : s.LogOnly b) :
    s.LogOnly (if p then a else b) := by
  by_cases hp : p
  · rw [if_pos hp]; exact h
  · rw [if_neg hp]; exact k
theorem State.LogOnly.eq {s t : State} (h : s.LogOnly t) : t = { s with log := t.log, dict := t.dict, fns := t.fns, sent := t.sent, logMsgAt := t.logMsgAt, logMsgHeld := t.logMsgHeld } := h
theorem State.LogOnly.pending {s t : State} (h : s.LogOnly t) : t.pending = s.pending := (congrArg State.pending h.eq).trans rfl
theorem State.LogOnly.blobs {s t : State} (h : s.LogOnly t) : t.blobs = s.blobs := (congrArg State.blobs h.eq).trans rfl
theorem State.LogOnly.time {s t : State} (h : s.LogOnly t) : t.time = s.time := (congrArg State.time h.eq).trans rfl
theorem State.LogOnly.uptime {s t : State} (h : s.LogOnly t) : t.uptime = s.uptime := (congrArg State.uptime h.eq).trans rfl
theorem State.LogOnly.wallTaken {s t : State} (h : s.LogOnly t) : t.wallTaken = s.wallTaken := (congrArg State.wallTaken h.eq).trans rfl
theorem State.LogOnly.mclkAcc {s t : State} (h : s.LogOnly t) : t.mclkAcc = s.mclkAcc := (congrArg State.mclkAcc h.eq).trans rfl
theorem State.LogOnly.freeNext {s t : State} (h : s.LogOnly t) : t.freeNext = s.freeNext := (congrArg State.freeNext h.eq).trans rfl
theorem State.LogOnly.cores {s t : State} (h : s.LogOnly t) : t.cores = s.cores := (congrArg State.cores h.eq).trans rfl
theorem State.LogOnly.routers {s t : State} (h : s.LogOnly t) : t.routers = s.routers := (congrArg State.routers h.eq).trans rfl
theorem State.LogOnly.links {s t : State} (h : s.LogOnly t) : t.links = s.links := (congrArg State.links h.eq).trans rfl
theorem State.LogOnly.hbm {s t : State} (h : s.LogOnly t) : t.hbm = s.hbm := (congrArg State.hbm h.eq).trans rfl
theorem State.LogOnly.hbmPoison {s t : State} (h : s.LogOnly t) : t.hbmPoison = s.hbmPoison := (congrArg State.hbmPoison h.eq).trans rfl
theorem State.LogOnly.insts {s t : State} (h : s.LogOnly t) : t.insts = s.insts := (congrArg State.insts h.eq).trans rfl
theorem State.LogOnly.hostMem {s t : State} (h : s.LogOnly t) : t.hostMem = s.hostMem := (congrArg State.hostMem h.eq).trans rfl
theorem State.LogOnly.winTab {s t : State} (h : s.LogOnly t) : t.winTab = s.winTab := (congrArg State.winTab h.eq).trans rfl
theorem State.LogOnly.swin {s t : State} (h : s.LogOnly t) : t.swin = s.swin := (congrArg State.swin h.eq).trans rfl
theorem State.LogOnly.seams {s t : State} (h : s.LogOnly t) : t.seams = s.seams := (congrArg State.seams h.eq).trans rfl
theorem State.LogOnly.seqs {s t : State} (h : s.LogOnly t) : t.seqs = s.seqs := (congrArg State.seqs h.eq).trans rfl
theorem State.LogOnly.slots {s t : State} (h : s.LogOnly t) : t.slots = s.slots := (congrArg State.slots h.eq).trans rfl
theorem State.LogOnly.marks {s t : State} (h : s.LogOnly t) : t.marks = s.marks := (congrArg State.marks h.eq).trans rfl
theorem State.LogOnly.reqs {s t : State} (h : s.LogOnly t) : t.reqs = s.reqs := (congrArg State.reqs h.eq).trans rfl
theorem State.LogOnly.tx {s t : State} (h : s.LogOnly t) : t.tx = s.tx := (congrArg State.tx h.eq).trans rfl
theorem State.LogOnly.sessions {s t : State} (h : s.LogOnly t) : t.sessions = s.sessions := (congrArg State.sessions h.eq).trans rfl
theorem State.LogOnly.kept {s t : State} (h : s.LogOnly t) : t.kept = s.kept := (congrArg State.kept h.eq).trans rfl
theorem State.LogOnly.ptp {s t : State} (h : s.LogOnly t) : t.ptp = s.ptp := (congrArg State.ptp h.eq).trans rfl
theorem State.LogOnly.hbmStacks {s t : State} (h : s.LogOnly t) : t.hbmStacks = s.hbmStacks := (congrArg State.hbmStacks h.eq).trans rfl
theorem State.LogOnly.ports {s t : State} (h : s.LogOnly t) : t.ports = s.ports := (congrArg State.ports h.eq).trans rfl
theorem State.LogOnly.pins {s t : State} (h : s.LogOnly t) : t.pins = s.pins := (congrArg State.pins h.eq).trans rfl
theorem State.LogOnly.tap {s t : State} (h : s.LogOnly t) : t.tap = s.tap := (congrArg State.tap h.eq).trans rfl
theorem State.LogOnly.regions {s t : State} (h : s.LogOnly t) : t.regions = s.regions := (congrArg State.regions h.eq).trans rfl
theorem State.LogOnly.panels {s t : State} (h : s.LogOnly t) : t.panels = s.panels := (congrArg State.panels h.eq).trans rfl
theorem State.LogOnly.power {s t : State} (h : s.LogOnly t) : t.power = s.power := (congrArg State.power h.eq).trans rfl
theorem State.LogOnly.casc {s t : State} (h : s.LogOnly t) : t.casc = s.casc := (congrArg State.casc h.eq).trans rfl
theorem State.LogOnly.sec {s t : State} (h : s.LogOnly t) : t.sec = s.sec := (congrArg State.sec h.eq).trans rfl
theorem State.LogOnly.journalOld {s t : State} (h : s.LogOnly t) : t.journalOld = s.journalOld := (congrArg State.journalOld h.eq).trans rfl
theorem State.LogOnly.muslinFailed {s t : State} (h : s.LogOnly t) : t.muslinFailed = s.muslinFailed := (congrArg State.muslinFailed h.eq).trans rfl
theorem State.LogOnly.unretire {s t : State} (h : s.LogOnly t) : t.unretire = s.unretire := (congrArg State.unretire h.eq).trans rfl
theorem State.LogOnly.darnSet {s t : State} (h : s.LogOnly t) : t.darnSet = s.darnSet := (congrArg State.darnSet h.eq).trans rfl
theorem State.LogOnly.blob {s t : State} (h : s.LogOnly t) (j : Nat) : t.blob j = s.blob j := (congrArg (fun t : State => t.blob j) h.eq).trans rfl
theorem State.LogOnly.core {s t : State} (h : s.LogOnly t) (j : Nat) : t.core j = s.core j := (congrArg (fun t : State => t.core j) h.eq).trans rfl
theorem State.LogOnly.router {s t : State} (h : s.LogOnly t) (j : Nat) : t.router j = s.router j := (congrArg (fun t : State => t.router j) h.eq).trans rfl
theorem State.LogOnly.link {s t : State} (h : s.LogOnly t) (j : Nat) : t.link j = s.link j := (congrArg (fun t : State => t.link j) h.eq).trans rfl
theorem State.LogOnly.inst {s t : State} (h : s.LogOnly t) (j : Nat) : t.inst j = s.inst j := (congrArg (fun t : State => t.inst j) h.eq).trans rfl
theorem State.LogOnly.slot {s t : State} (h : s.LogOnly t) (j : Nat) : t.slot j = s.slot j := (congrArg (fun t : State => t.slot j) h.eq).trans rfl
theorem State.LogOnly.seq {s t : State} (h : s.LogOnly t) (j : Nat) : t.seq j = s.seq j := (congrArg (fun t : State => t.seq j) h.eq).trans rfl
theorem State.LogOnly.ses {s t : State} (h : s.LogOnly t) (j : Nat) : t.ses j = s.ses j := (congrArg (fun t : State => t.ses j) h.eq).trans rfl
theorem State.LogOnly.stack {s t : State} (h : s.LogOnly t) (j : Nat) : t.stack j = s.stack j := (congrArg (fun t : State => t.stack j) h.eq).trans rfl
theorem State.LogOnly.port {s t : State} (h : s.LogOnly t) (j : Nat) : t.port j = s.port j := (congrArg (fun t : State => t.port j) h.eq).trans rfl
theorem State.LogOnly.pin {s t : State} (h : s.LogOnly t) (j : Nat) : t.pin j = s.pin j := (congrArg (fun t : State => t.pin j) h.eq).trans rfl
theorem State.LogOnly.region {s t : State} (h : s.LogOnly t) (j : Nat) : t.region j = s.region j := (congrArg (fun t : State => t.region j) h.eq).trans rfl
theorem State.LogOnly.panel {s t : State} (h : s.LogOnly t) (j : Nat) : t.panel j = s.panel j := (congrArg (fun t : State => t.panel j) h.eq).trans rfl
theorem State.LogOnly.seam {s t : State} (h : s.LogOnly t) (j : Nat) : t.seam j = s.seam j := (congrArg (fun t : State => t.seam j) h.eq).trans rfl

theorem State.MsgOnly.toLog {s t : State} (h : s.MsgOnly t) : s.LogOnly t := by
  unfold State.MsgOnly at h
  unfold State.LogOnly
  rw [h]
theorem State.LogOnly.wr {s t : State} (k v : Nat) (h : s.LogOnly t) : s.LogOnly (t.wr k v) := h.trans rfl
theorem State.LogOnly.pfs {s t : State} (v : Nat) (h : s.LogOnly t) : s.LogOnly (t.messagePfs v) :=
  h.trans (State.messagePfs_only _ _).toLog
theorem State.LogOnly.msgAt {s t : State} (v : Option Nat) (h : s.LogOnly t) : s.LogOnly { t with logMsgAt := v } := h.trans rfl
theorem State.LogOnly.msgHeld {s t : State} (v : Bool) (h : s.LogOnly t) : s.LogOnly { t with logMsgHeld := v } := h.trans rfl

/-- A log entry changes the log, the entries and messages that follow from it, and nothing else. -/
theorem State.logEntry_only (s : State) (a b c d e : Nat) : s.LogOnly (s.logEntry a b c d e) := by
  unfold State.logEntry
  lift_lets
  intro seq ent full s1 s2 s3 s4 s5 due
  clear_value due
  have h5 : s.LogOnly s5 := by
    have h4 : s.LogOnly s4 := by
      have h3 : s.LogOnly s3 := by
        have h2 : s.LogOnly s2 := by
          have h1 : s.LogOnly s1 := rfl
          exact (h1.wr _ _).wr _ _
        exact .ite (h2.wr _ _) h2
      exact .ite (h3.wr _ _) h3
    exact .ite ((h4.wr _ _).pfs 2) h4
  clear_value s5
  exact .ite ((h5.pfs 1).msgAt _) (h5.msgHeld _)

theorem State.logDev_only (s : State) (a b : Nat) : s.LogOnly (s.logDev a b) := State.logEntry_only ..
theorem State.logMg_only (s : State) (a b c d e f g : Nat) : s.LogOnly (s.logMg a b c d e f g) := State.logEntry_only ..

theorem State.rd_wr_log (s : State) {k j : Nat} (v : Nat) (hk : k ∈ logKeys) (hj : j ∉ logKeys) : (s.wr k v).rd j = s.rd j :=
  State.rd_wr_ne s k v j (fun h => hj (h ▸ hk))

theorem State.rd_congr {s t : State} (h : s.dict = t.dict) (j : Nat) : s.rd j = t.rd j := by
  unfold State.rd; rw [h]

/-- Every entry but those that a log entry writes agrees. -/
def State.SameRd (s t : State) : Prop := ∀ j, j ∉ logKeys → t.rd j = s.rd j
theorem State.SameRd.ite {s a b : State} {p : Prop} [Decidable p] (h : s.SameRd a) (k : s.SameRd b) :
    s.SameRd (if p then a else b) := by
  by_cases hp : p
  · rw [if_pos hp]; exact h
  · rw [if_neg hp]; exact k
theorem State.SameRd.wr {s t : State} {k : Nat} (v : Nat) (hk : k ∈ logKeys) (h : s.SameRd t) : s.SameRd (t.wr k v) :=
  fun j hj => (State.rd_wr_log t v hk hj).trans (h j hj)
theorem State.SameRd.pfs {s t : State} (v : Nat) (h : s.SameRd t) : s.SameRd (t.messagePfs v) :=
  fun j hj => (State.messagePfs_rd t v j).trans (h j hj)
theorem State.SameRd.msgAt {s t : State} (v : Option Nat) (h : s.SameRd t) : s.SameRd { t with logMsgAt := v } := h
theorem State.SameRd.msgHeld {s t : State} (v : Bool) (h : s.SameRd t) : s.SameRd { t with logMsgHeld := v } := h

theorem State.logEntry_sameRd (s : State) (a b c d e : Nat) : s.SameRd (s.logEntry a b c d e) := by
  unfold State.logEntry
  lift_lets
  intro seq ent full s1 s2 s3 s4 s5 due
  clear_value due
  have h5 : s.SameRd s5 := by
    have h4 : s.SameRd s4 := by
      have h3 : s.SameRd s3 := by
        have h2 : s.SameRd s2 := by
          have h1 : s.SameRd s1 := fun _ _ => rfl
          exact (h1.wr _ (by simp [logKeys])).wr _ (by simp [logKeys])
        exact .ite (h2.wr _ (by simp [logKeys])) h2
      exact .ite (h3.wr _ (by simp [logKeys])) h3
    exact .ite ((h4.wr _ (by simp [logKeys])).pfs 2) h4
  clear_value s5
  exact .ite ((h5.pfs 1).msgAt _) (h5.msgHeld _)

/-- Every other entry keeps its value. -/
theorem State.logEntry_rd (s : State) (a b c d e : Nat) {j : Nat} (hj : j ∉ logKeys) : (s.logEntry a b c d e).rd j = s.rd j :=
  State.logEntry_sameRd s a b c d e j hj
theorem State.logDev_rd (s : State) (a b : Nat) {j : Nat} (hj : j ∉ logKeys) : (s.logDev a b).rd j = s.rd j :=
  State.logEntry_rd _ _ _ _ _ _ hj
theorem State.logMg_rd (s : State) (a b c d e f g : Nat) {j : Nat} (hj : j ∉ logKeys) : (s.logMg a b c d e f g).rd j = s.rd j :=
  State.logEntry_rd _ _ _ _ _ _ hj

@[simp] theorem State.logEntry_pending (s : State) (a b c d e : Nat) : (s.logEntry a b c d e).pending = s.pending :=
  (s.logEntry_only a b c d e).pending
@[simp] theorem State.logEntry_blobs (s : State) (a b c d e : Nat) : (s.logEntry a b c d e).blobs = s.blobs :=
  (s.logEntry_only a b c d e).blobs
@[simp] theorem State.logEntry_time (s : State) (a b c d e : Nat) : (s.logEntry a b c d e).time = s.time :=
  (s.logEntry_only a b c d e).time
@[simp] theorem State.logEntry_uptime (s : State) (a b c d e : Nat) : (s.logEntry a b c d e).uptime = s.uptime :=
  (s.logEntry_only a b c d e).uptime
@[simp] theorem State.logEntry_wallTaken (s : State) (a b c d e : Nat) : (s.logEntry a b c d e).wallTaken = s.wallTaken :=
  (s.logEntry_only a b c d e).wallTaken
@[simp] theorem State.logEntry_mclkAcc (s : State) (a b c d e : Nat) : (s.logEntry a b c d e).mclkAcc = s.mclkAcc :=
  (s.logEntry_only a b c d e).mclkAcc
@[simp] theorem State.logEntry_freeNext (s : State) (a b c d e : Nat) : (s.logEntry a b c d e).freeNext = s.freeNext :=
  (s.logEntry_only a b c d e).freeNext
@[simp] theorem State.logEntry_cores (s : State) (a b c d e : Nat) : (s.logEntry a b c d e).cores = s.cores :=
  (s.logEntry_only a b c d e).cores
@[simp] theorem State.logEntry_routers (s : State) (a b c d e : Nat) : (s.logEntry a b c d e).routers = s.routers :=
  (s.logEntry_only a b c d e).routers
@[simp] theorem State.logEntry_links (s : State) (a b c d e : Nat) : (s.logEntry a b c d e).links = s.links :=
  (s.logEntry_only a b c d e).links
@[simp] theorem State.logEntry_hbm (s : State) (a b c d e : Nat) : (s.logEntry a b c d e).hbm = s.hbm :=
  (s.logEntry_only a b c d e).hbm
@[simp] theorem State.logEntry_hbmPoison (s : State) (a b c d e : Nat) : (s.logEntry a b c d e).hbmPoison = s.hbmPoison :=
  (s.logEntry_only a b c d e).hbmPoison
@[simp] theorem State.logEntry_insts (s : State) (a b c d e : Nat) : (s.logEntry a b c d e).insts = s.insts :=
  (s.logEntry_only a b c d e).insts
@[simp] theorem State.logEntry_hostMem (s : State) (a b c d e : Nat) : (s.logEntry a b c d e).hostMem = s.hostMem :=
  (s.logEntry_only a b c d e).hostMem
@[simp] theorem State.logEntry_winTab (s : State) (a b c d e : Nat) : (s.logEntry a b c d e).winTab = s.winTab :=
  (s.logEntry_only a b c d e).winTab
@[simp] theorem State.logEntry_swin (s : State) (a b c d e : Nat) : (s.logEntry a b c d e).swin = s.swin :=
  (s.logEntry_only a b c d e).swin
@[simp] theorem State.logEntry_seams (s : State) (a b c d e : Nat) : (s.logEntry a b c d e).seams = s.seams :=
  (s.logEntry_only a b c d e).seams
@[simp] theorem State.logEntry_seqs (s : State) (a b c d e : Nat) : (s.logEntry a b c d e).seqs = s.seqs :=
  (s.logEntry_only a b c d e).seqs
@[simp] theorem State.logEntry_slots (s : State) (a b c d e : Nat) : (s.logEntry a b c d e).slots = s.slots :=
  (s.logEntry_only a b c d e).slots
@[simp] theorem State.logEntry_marks (s : State) (a b c d e : Nat) : (s.logEntry a b c d e).marks = s.marks :=
  (s.logEntry_only a b c d e).marks
@[simp] theorem State.logEntry_reqs (s : State) (a b c d e : Nat) : (s.logEntry a b c d e).reqs = s.reqs :=
  (s.logEntry_only a b c d e).reqs
@[simp] theorem State.logEntry_tx (s : State) (a b c d e : Nat) : (s.logEntry a b c d e).tx = s.tx :=
  (s.logEntry_only a b c d e).tx
@[simp] theorem State.logEntry_sessions (s : State) (a b c d e : Nat) : (s.logEntry a b c d e).sessions = s.sessions :=
  (s.logEntry_only a b c d e).sessions
@[simp] theorem State.logEntry_kept (s : State) (a b c d e : Nat) : (s.logEntry a b c d e).kept = s.kept :=
  (s.logEntry_only a b c d e).kept
@[simp] theorem State.logEntry_ptp (s : State) (a b c d e : Nat) : (s.logEntry a b c d e).ptp = s.ptp :=
  (s.logEntry_only a b c d e).ptp
@[simp] theorem State.logEntry_hbmStacks (s : State) (a b c d e : Nat) : (s.logEntry a b c d e).hbmStacks = s.hbmStacks :=
  (s.logEntry_only a b c d e).hbmStacks
@[simp] theorem State.logEntry_ports (s : State) (a b c d e : Nat) : (s.logEntry a b c d e).ports = s.ports :=
  (s.logEntry_only a b c d e).ports
@[simp] theorem State.logEntry_pins (s : State) (a b c d e : Nat) : (s.logEntry a b c d e).pins = s.pins :=
  (s.logEntry_only a b c d e).pins
@[simp] theorem State.logEntry_tap (s : State) (a b c d e : Nat) : (s.logEntry a b c d e).tap = s.tap :=
  (s.logEntry_only a b c d e).tap
@[simp] theorem State.logEntry_regions (s : State) (a b c d e : Nat) : (s.logEntry a b c d e).regions = s.regions :=
  (s.logEntry_only a b c d e).regions
@[simp] theorem State.logEntry_panels (s : State) (a b c d e : Nat) : (s.logEntry a b c d e).panels = s.panels :=
  (s.logEntry_only a b c d e).panels
@[simp] theorem State.logEntry_power (s : State) (a b c d e : Nat) : (s.logEntry a b c d e).power = s.power :=
  (s.logEntry_only a b c d e).power
@[simp] theorem State.logEntry_casc (s : State) (a b c d e : Nat) : (s.logEntry a b c d e).casc = s.casc :=
  (s.logEntry_only a b c d e).casc
@[simp] theorem State.logEntry_sec (s : State) (a b c d e : Nat) : (s.logEntry a b c d e).sec = s.sec :=
  (s.logEntry_only a b c d e).sec
@[simp] theorem State.logEntry_journalOld (s : State) (a b c d e : Nat) : (s.logEntry a b c d e).journalOld = s.journalOld :=
  (s.logEntry_only a b c d e).journalOld
@[simp] theorem State.logEntry_muslinFailed (s : State) (a b c d e : Nat) : (s.logEntry a b c d e).muslinFailed = s.muslinFailed :=
  (s.logEntry_only a b c d e).muslinFailed
@[simp] theorem State.logEntry_unretire (s : State) (a b c d e : Nat) : (s.logEntry a b c d e).unretire = s.unretire :=
  (s.logEntry_only a b c d e).unretire
@[simp] theorem State.logEntry_darnSet (s : State) (a b c d e : Nat) : (s.logEntry a b c d e).darnSet = s.darnSet :=
  (s.logEntry_only a b c d e).darnSet
@[simp] theorem State.logEntry_blob (s : State) (a b c d e : Nat) (j : Nat) : (s.logEntry a b c d e).blob j = s.blob j :=
  (s.logEntry_only a b c d e).blob j
@[simp] theorem State.logEntry_core (s : State) (a b c d e : Nat) (j : Nat) : (s.logEntry a b c d e).core j = s.core j :=
  (s.logEntry_only a b c d e).core j
@[simp] theorem State.logEntry_router (s : State) (a b c d e : Nat) (j : Nat) : (s.logEntry a b c d e).router j = s.router j :=
  (s.logEntry_only a b c d e).router j
@[simp] theorem State.logEntry_link (s : State) (a b c d e : Nat) (j : Nat) : (s.logEntry a b c d e).link j = s.link j :=
  (s.logEntry_only a b c d e).link j
@[simp] theorem State.logEntry_inst (s : State) (a b c d e : Nat) (j : Nat) : (s.logEntry a b c d e).inst j = s.inst j :=
  (s.logEntry_only a b c d e).inst j
@[simp] theorem State.logEntry_slot (s : State) (a b c d e : Nat) (j : Nat) : (s.logEntry a b c d e).slot j = s.slot j :=
  (s.logEntry_only a b c d e).slot j
@[simp] theorem State.logEntry_seq (s : State) (a b c d e : Nat) (j : Nat) : (s.logEntry a b c d e).seq j = s.seq j :=
  (s.logEntry_only a b c d e).seq j
@[simp] theorem State.logEntry_ses (s : State) (a b c d e : Nat) (j : Nat) : (s.logEntry a b c d e).ses j = s.ses j :=
  (s.logEntry_only a b c d e).ses j
@[simp] theorem State.logEntry_stack (s : State) (a b c d e : Nat) (j : Nat) : (s.logEntry a b c d e).stack j = s.stack j :=
  (s.logEntry_only a b c d e).stack j
@[simp] theorem State.logEntry_port (s : State) (a b c d e : Nat) (j : Nat) : (s.logEntry a b c d e).port j = s.port j :=
  (s.logEntry_only a b c d e).port j
@[simp] theorem State.logEntry_pin (s : State) (a b c d e : Nat) (j : Nat) : (s.logEntry a b c d e).pin j = s.pin j :=
  (s.logEntry_only a b c d e).pin j
@[simp] theorem State.logEntry_region (s : State) (a b c d e : Nat) (j : Nat) : (s.logEntry a b c d e).region j = s.region j :=
  (s.logEntry_only a b c d e).region j
@[simp] theorem State.logEntry_panel (s : State) (a b c d e : Nat) (j : Nat) : (s.logEntry a b c d e).panel j = s.panel j :=
  (s.logEntry_only a b c d e).panel j
@[simp] theorem State.logEntry_seam (s : State) (a b c d e : Nat) (j : Nat) : (s.logEntry a b c d e).seam j = s.seam j :=
  (s.logEntry_only a b c d e).seam j

@[simp] theorem State.logDev_pending (s : State) (a b : Nat) : (s.logDev a b).pending = s.pending :=
  (s.logDev_only a b).pending
@[simp] theorem State.logDev_blobs (s : State) (a b : Nat) : (s.logDev a b).blobs = s.blobs :=
  (s.logDev_only a b).blobs
@[simp] theorem State.logDev_time (s : State) (a b : Nat) : (s.logDev a b).time = s.time :=
  (s.logDev_only a b).time
@[simp] theorem State.logDev_uptime (s : State) (a b : Nat) : (s.logDev a b).uptime = s.uptime :=
  (s.logDev_only a b).uptime
@[simp] theorem State.logDev_wallTaken (s : State) (a b : Nat) : (s.logDev a b).wallTaken = s.wallTaken :=
  (s.logDev_only a b).wallTaken
@[simp] theorem State.logDev_mclkAcc (s : State) (a b : Nat) : (s.logDev a b).mclkAcc = s.mclkAcc :=
  (s.logDev_only a b).mclkAcc
@[simp] theorem State.logDev_freeNext (s : State) (a b : Nat) : (s.logDev a b).freeNext = s.freeNext :=
  (s.logDev_only a b).freeNext
@[simp] theorem State.logDev_cores (s : State) (a b : Nat) : (s.logDev a b).cores = s.cores :=
  (s.logDev_only a b).cores
@[simp] theorem State.logDev_routers (s : State) (a b : Nat) : (s.logDev a b).routers = s.routers :=
  (s.logDev_only a b).routers
@[simp] theorem State.logDev_links (s : State) (a b : Nat) : (s.logDev a b).links = s.links :=
  (s.logDev_only a b).links
@[simp] theorem State.logDev_hbm (s : State) (a b : Nat) : (s.logDev a b).hbm = s.hbm :=
  (s.logDev_only a b).hbm
@[simp] theorem State.logDev_hbmPoison (s : State) (a b : Nat) : (s.logDev a b).hbmPoison = s.hbmPoison :=
  (s.logDev_only a b).hbmPoison
@[simp] theorem State.logDev_insts (s : State) (a b : Nat) : (s.logDev a b).insts = s.insts :=
  (s.logDev_only a b).insts
@[simp] theorem State.logDev_hostMem (s : State) (a b : Nat) : (s.logDev a b).hostMem = s.hostMem :=
  (s.logDev_only a b).hostMem
@[simp] theorem State.logDev_winTab (s : State) (a b : Nat) : (s.logDev a b).winTab = s.winTab :=
  (s.logDev_only a b).winTab
@[simp] theorem State.logDev_swin (s : State) (a b : Nat) : (s.logDev a b).swin = s.swin :=
  (s.logDev_only a b).swin
@[simp] theorem State.logDev_seams (s : State) (a b : Nat) : (s.logDev a b).seams = s.seams :=
  (s.logDev_only a b).seams
@[simp] theorem State.logDev_seqs (s : State) (a b : Nat) : (s.logDev a b).seqs = s.seqs :=
  (s.logDev_only a b).seqs
@[simp] theorem State.logDev_slots (s : State) (a b : Nat) : (s.logDev a b).slots = s.slots :=
  (s.logDev_only a b).slots
@[simp] theorem State.logDev_marks (s : State) (a b : Nat) : (s.logDev a b).marks = s.marks :=
  (s.logDev_only a b).marks
@[simp] theorem State.logDev_reqs (s : State) (a b : Nat) : (s.logDev a b).reqs = s.reqs :=
  (s.logDev_only a b).reqs
@[simp] theorem State.logDev_tx (s : State) (a b : Nat) : (s.logDev a b).tx = s.tx :=
  (s.logDev_only a b).tx
@[simp] theorem State.logDev_sessions (s : State) (a b : Nat) : (s.logDev a b).sessions = s.sessions :=
  (s.logDev_only a b).sessions
@[simp] theorem State.logDev_kept (s : State) (a b : Nat) : (s.logDev a b).kept = s.kept :=
  (s.logDev_only a b).kept
@[simp] theorem State.logDev_ptp (s : State) (a b : Nat) : (s.logDev a b).ptp = s.ptp :=
  (s.logDev_only a b).ptp
@[simp] theorem State.logDev_hbmStacks (s : State) (a b : Nat) : (s.logDev a b).hbmStacks = s.hbmStacks :=
  (s.logDev_only a b).hbmStacks
@[simp] theorem State.logDev_ports (s : State) (a b : Nat) : (s.logDev a b).ports = s.ports :=
  (s.logDev_only a b).ports
@[simp] theorem State.logDev_pins (s : State) (a b : Nat) : (s.logDev a b).pins = s.pins :=
  (s.logDev_only a b).pins
@[simp] theorem State.logDev_tap (s : State) (a b : Nat) : (s.logDev a b).tap = s.tap :=
  (s.logDev_only a b).tap
@[simp] theorem State.logDev_regions (s : State) (a b : Nat) : (s.logDev a b).regions = s.regions :=
  (s.logDev_only a b).regions
@[simp] theorem State.logDev_panels (s : State) (a b : Nat) : (s.logDev a b).panels = s.panels :=
  (s.logDev_only a b).panels
@[simp] theorem State.logDev_power (s : State) (a b : Nat) : (s.logDev a b).power = s.power :=
  (s.logDev_only a b).power
@[simp] theorem State.logDev_casc (s : State) (a b : Nat) : (s.logDev a b).casc = s.casc :=
  (s.logDev_only a b).casc
@[simp] theorem State.logDev_sec (s : State) (a b : Nat) : (s.logDev a b).sec = s.sec :=
  (s.logDev_only a b).sec
@[simp] theorem State.logDev_journalOld (s : State) (a b : Nat) : (s.logDev a b).journalOld = s.journalOld :=
  (s.logDev_only a b).journalOld
@[simp] theorem State.logDev_muslinFailed (s : State) (a b : Nat) : (s.logDev a b).muslinFailed = s.muslinFailed :=
  (s.logDev_only a b).muslinFailed
@[simp] theorem State.logDev_unretire (s : State) (a b : Nat) : (s.logDev a b).unretire = s.unretire :=
  (s.logDev_only a b).unretire
@[simp] theorem State.logDev_darnSet (s : State) (a b : Nat) : (s.logDev a b).darnSet = s.darnSet :=
  (s.logDev_only a b).darnSet
@[simp] theorem State.logDev_blob (s : State) (a b : Nat) (j : Nat) : (s.logDev a b).blob j = s.blob j :=
  (s.logDev_only a b).blob j
@[simp] theorem State.logDev_core (s : State) (a b : Nat) (j : Nat) : (s.logDev a b).core j = s.core j :=
  (s.logDev_only a b).core j
@[simp] theorem State.logDev_router (s : State) (a b : Nat) (j : Nat) : (s.logDev a b).router j = s.router j :=
  (s.logDev_only a b).router j
@[simp] theorem State.logDev_link (s : State) (a b : Nat) (j : Nat) : (s.logDev a b).link j = s.link j :=
  (s.logDev_only a b).link j
@[simp] theorem State.logDev_inst (s : State) (a b : Nat) (j : Nat) : (s.logDev a b).inst j = s.inst j :=
  (s.logDev_only a b).inst j
@[simp] theorem State.logDev_slot (s : State) (a b : Nat) (j : Nat) : (s.logDev a b).slot j = s.slot j :=
  (s.logDev_only a b).slot j
@[simp] theorem State.logDev_seq (s : State) (a b : Nat) (j : Nat) : (s.logDev a b).seq j = s.seq j :=
  (s.logDev_only a b).seq j
@[simp] theorem State.logDev_ses (s : State) (a b : Nat) (j : Nat) : (s.logDev a b).ses j = s.ses j :=
  (s.logDev_only a b).ses j
@[simp] theorem State.logDev_stack (s : State) (a b : Nat) (j : Nat) : (s.logDev a b).stack j = s.stack j :=
  (s.logDev_only a b).stack j
@[simp] theorem State.logDev_port (s : State) (a b : Nat) (j : Nat) : (s.logDev a b).port j = s.port j :=
  (s.logDev_only a b).port j
@[simp] theorem State.logDev_pin (s : State) (a b : Nat) (j : Nat) : (s.logDev a b).pin j = s.pin j :=
  (s.logDev_only a b).pin j
@[simp] theorem State.logDev_region (s : State) (a b : Nat) (j : Nat) : (s.logDev a b).region j = s.region j :=
  (s.logDev_only a b).region j
@[simp] theorem State.logDev_panel (s : State) (a b : Nat) (j : Nat) : (s.logDev a b).panel j = s.panel j :=
  (s.logDev_only a b).panel j
@[simp] theorem State.logDev_seam (s : State) (a b : Nat) (j : Nat) : (s.logDev a b).seam j = s.seam j :=
  (s.logDev_only a b).seam j

@[simp] theorem State.logMg_pending (s : State) (a b c d e f g : Nat) : (s.logMg a b c d e f g).pending = s.pending :=
  (s.logMg_only a b c d e f g).pending
@[simp] theorem State.logMg_blobs (s : State) (a b c d e f g : Nat) : (s.logMg a b c d e f g).blobs = s.blobs :=
  (s.logMg_only a b c d e f g).blobs
@[simp] theorem State.logMg_time (s : State) (a b c d e f g : Nat) : (s.logMg a b c d e f g).time = s.time :=
  (s.logMg_only a b c d e f g).time
@[simp] theorem State.logMg_uptime (s : State) (a b c d e f g : Nat) : (s.logMg a b c d e f g).uptime = s.uptime :=
  (s.logMg_only a b c d e f g).uptime
@[simp] theorem State.logMg_wallTaken (s : State) (a b c d e f g : Nat) : (s.logMg a b c d e f g).wallTaken = s.wallTaken :=
  (s.logMg_only a b c d e f g).wallTaken
@[simp] theorem State.logMg_mclkAcc (s : State) (a b c d e f g : Nat) : (s.logMg a b c d e f g).mclkAcc = s.mclkAcc :=
  (s.logMg_only a b c d e f g).mclkAcc
@[simp] theorem State.logMg_freeNext (s : State) (a b c d e f g : Nat) : (s.logMg a b c d e f g).freeNext = s.freeNext :=
  (s.logMg_only a b c d e f g).freeNext
@[simp] theorem State.logMg_cores (s : State) (a b c d e f g : Nat) : (s.logMg a b c d e f g).cores = s.cores :=
  (s.logMg_only a b c d e f g).cores
@[simp] theorem State.logMg_routers (s : State) (a b c d e f g : Nat) : (s.logMg a b c d e f g).routers = s.routers :=
  (s.logMg_only a b c d e f g).routers
@[simp] theorem State.logMg_links (s : State) (a b c d e f g : Nat) : (s.logMg a b c d e f g).links = s.links :=
  (s.logMg_only a b c d e f g).links
@[simp] theorem State.logMg_hbm (s : State) (a b c d e f g : Nat) : (s.logMg a b c d e f g).hbm = s.hbm :=
  (s.logMg_only a b c d e f g).hbm
@[simp] theorem State.logMg_hbmPoison (s : State) (a b c d e f g : Nat) : (s.logMg a b c d e f g).hbmPoison = s.hbmPoison :=
  (s.logMg_only a b c d e f g).hbmPoison
@[simp] theorem State.logMg_insts (s : State) (a b c d e f g : Nat) : (s.logMg a b c d e f g).insts = s.insts :=
  (s.logMg_only a b c d e f g).insts
@[simp] theorem State.logMg_hostMem (s : State) (a b c d e f g : Nat) : (s.logMg a b c d e f g).hostMem = s.hostMem :=
  (s.logMg_only a b c d e f g).hostMem
@[simp] theorem State.logMg_winTab (s : State) (a b c d e f g : Nat) : (s.logMg a b c d e f g).winTab = s.winTab :=
  (s.logMg_only a b c d e f g).winTab
@[simp] theorem State.logMg_swin (s : State) (a b c d e f g : Nat) : (s.logMg a b c d e f g).swin = s.swin :=
  (s.logMg_only a b c d e f g).swin
@[simp] theorem State.logMg_seams (s : State) (a b c d e f g : Nat) : (s.logMg a b c d e f g).seams = s.seams :=
  (s.logMg_only a b c d e f g).seams
@[simp] theorem State.logMg_seqs (s : State) (a b c d e f g : Nat) : (s.logMg a b c d e f g).seqs = s.seqs :=
  (s.logMg_only a b c d e f g).seqs
@[simp] theorem State.logMg_slots (s : State) (a b c d e f g : Nat) : (s.logMg a b c d e f g).slots = s.slots :=
  (s.logMg_only a b c d e f g).slots
@[simp] theorem State.logMg_marks (s : State) (a b c d e f g : Nat) : (s.logMg a b c d e f g).marks = s.marks :=
  (s.logMg_only a b c d e f g).marks
@[simp] theorem State.logMg_reqs (s : State) (a b c d e f g : Nat) : (s.logMg a b c d e f g).reqs = s.reqs :=
  (s.logMg_only a b c d e f g).reqs
@[simp] theorem State.logMg_tx (s : State) (a b c d e f g : Nat) : (s.logMg a b c d e f g).tx = s.tx :=
  (s.logMg_only a b c d e f g).tx
@[simp] theorem State.logMg_sessions (s : State) (a b c d e f g : Nat) : (s.logMg a b c d e f g).sessions = s.sessions :=
  (s.logMg_only a b c d e f g).sessions
@[simp] theorem State.logMg_kept (s : State) (a b c d e f g : Nat) : (s.logMg a b c d e f g).kept = s.kept :=
  (s.logMg_only a b c d e f g).kept
@[simp] theorem State.logMg_ptp (s : State) (a b c d e f g : Nat) : (s.logMg a b c d e f g).ptp = s.ptp :=
  (s.logMg_only a b c d e f g).ptp
@[simp] theorem State.logMg_hbmStacks (s : State) (a b c d e f g : Nat) : (s.logMg a b c d e f g).hbmStacks = s.hbmStacks :=
  (s.logMg_only a b c d e f g).hbmStacks
@[simp] theorem State.logMg_ports (s : State) (a b c d e f g : Nat) : (s.logMg a b c d e f g).ports = s.ports :=
  (s.logMg_only a b c d e f g).ports
@[simp] theorem State.logMg_pins (s : State) (a b c d e f g : Nat) : (s.logMg a b c d e f g).pins = s.pins :=
  (s.logMg_only a b c d e f g).pins
@[simp] theorem State.logMg_tap (s : State) (a b c d e f g : Nat) : (s.logMg a b c d e f g).tap = s.tap :=
  (s.logMg_only a b c d e f g).tap
@[simp] theorem State.logMg_regions (s : State) (a b c d e f g : Nat) : (s.logMg a b c d e f g).regions = s.regions :=
  (s.logMg_only a b c d e f g).regions
@[simp] theorem State.logMg_panels (s : State) (a b c d e f g : Nat) : (s.logMg a b c d e f g).panels = s.panels :=
  (s.logMg_only a b c d e f g).panels
@[simp] theorem State.logMg_power (s : State) (a b c d e f g : Nat) : (s.logMg a b c d e f g).power = s.power :=
  (s.logMg_only a b c d e f g).power
@[simp] theorem State.logMg_casc (s : State) (a b c d e f g : Nat) : (s.logMg a b c d e f g).casc = s.casc :=
  (s.logMg_only a b c d e f g).casc
@[simp] theorem State.logMg_sec (s : State) (a b c d e f g : Nat) : (s.logMg a b c d e f g).sec = s.sec :=
  (s.logMg_only a b c d e f g).sec
@[simp] theorem State.logMg_journalOld (s : State) (a b c d e f g : Nat) : (s.logMg a b c d e f g).journalOld = s.journalOld :=
  (s.logMg_only a b c d e f g).journalOld
@[simp] theorem State.logMg_muslinFailed (s : State) (a b c d e f g : Nat) : (s.logMg a b c d e f g).muslinFailed = s.muslinFailed :=
  (s.logMg_only a b c d e f g).muslinFailed
@[simp] theorem State.logMg_unretire (s : State) (a b c d e f g : Nat) : (s.logMg a b c d e f g).unretire = s.unretire :=
  (s.logMg_only a b c d e f g).unretire
@[simp] theorem State.logMg_darnSet (s : State) (a b c d e f g : Nat) : (s.logMg a b c d e f g).darnSet = s.darnSet :=
  (s.logMg_only a b c d e f g).darnSet
@[simp] theorem State.logMg_blob (s : State) (a b c d e f g : Nat) (j : Nat) : (s.logMg a b c d e f g).blob j = s.blob j :=
  (s.logMg_only a b c d e f g).blob j
@[simp] theorem State.logMg_core (s : State) (a b c d e f g : Nat) (j : Nat) : (s.logMg a b c d e f g).core j = s.core j :=
  (s.logMg_only a b c d e f g).core j
@[simp] theorem State.logMg_router (s : State) (a b c d e f g : Nat) (j : Nat) : (s.logMg a b c d e f g).router j = s.router j :=
  (s.logMg_only a b c d e f g).router j
@[simp] theorem State.logMg_link (s : State) (a b c d e f g : Nat) (j : Nat) : (s.logMg a b c d e f g).link j = s.link j :=
  (s.logMg_only a b c d e f g).link j
@[simp] theorem State.logMg_inst (s : State) (a b c d e f g : Nat) (j : Nat) : (s.logMg a b c d e f g).inst j = s.inst j :=
  (s.logMg_only a b c d e f g).inst j
@[simp] theorem State.logMg_slot (s : State) (a b c d e f g : Nat) (j : Nat) : (s.logMg a b c d e f g).slot j = s.slot j :=
  (s.logMg_only a b c d e f g).slot j
@[simp] theorem State.logMg_seq (s : State) (a b c d e f g : Nat) (j : Nat) : (s.logMg a b c d e f g).seq j = s.seq j :=
  (s.logMg_only a b c d e f g).seq j
@[simp] theorem State.logMg_ses (s : State) (a b c d e f g : Nat) (j : Nat) : (s.logMg a b c d e f g).ses j = s.ses j :=
  (s.logMg_only a b c d e f g).ses j
@[simp] theorem State.logMg_stack (s : State) (a b c d e f g : Nat) (j : Nat) : (s.logMg a b c d e f g).stack j = s.stack j :=
  (s.logMg_only a b c d e f g).stack j
@[simp] theorem State.logMg_port (s : State) (a b c d e f g : Nat) (j : Nat) : (s.logMg a b c d e f g).port j = s.port j :=
  (s.logMg_only a b c d e f g).port j
@[simp] theorem State.logMg_pin (s : State) (a b c d e f g : Nat) (j : Nat) : (s.logMg a b c d e f g).pin j = s.pin j :=
  (s.logMg_only a b c d e f g).pin j
@[simp] theorem State.logMg_region (s : State) (a b c d e f g : Nat) (j : Nat) : (s.logMg a b c d e f g).region j = s.region j :=
  (s.logMg_only a b c d e f g).region j
@[simp] theorem State.logMg_panel (s : State) (a b c d e f g : Nat) (j : Nat) : (s.logMg a b c d e f g).panel j = s.panel j :=
  (s.logMg_only a b c d e f g).panel j
@[simp] theorem State.logMg_seam (s : State) (a b c d e f g : Nat) (j : Nat) : (s.logMg a b c d e f g).seam j = s.seam j :=
  (s.logMg_only a b c d e f g).seam j

/-! ## A trap (R179) -/

/-- Only the cores, the instances, the log and what follows from an entry differ. -/
def State.TrapOnly (s t : State) : Prop := t = { s with log := t.log, dict := t.dict, fns := t.fns, sent := t.sent, logMsgAt := t.logMsgAt, logMsgHeld := t.logMsgHeld, cores := t.cores, insts := t.insts }
theorem State.TrapOnly.refl (s : State) : s.TrapOnly s := rfl
theorem State.TrapOnly.trans {a b c : State} (h : a.TrapOnly b) (k : b.TrapOnly c) : a.TrapOnly c := by
  unfold State.TrapOnly at *
  rw [k, h]
theorem State.TrapOnly.ite {s a b : State} {p : Prop} [Decidable p] (h : s.TrapOnly a) (k : s.TrapOnly b) :
    s.TrapOnly (if p then a else b) := by
  by_cases hp : p
  · rw [if_pos hp]; exact h
  · rw [if_neg hp]; exact k
theorem State.TrapOnly.eq {s t : State} (h : s.TrapOnly t) : t = { s with log := t.log, dict := t.dict, fns := t.fns, sent := t.sent, logMsgAt := t.logMsgAt, logMsgHeld := t.logMsgHeld, cores := t.cores, insts := t.insts } := h
theorem State.TrapOnly.pending {s t : State} (h : s.TrapOnly t) : t.pending = s.pending := (congrArg State.pending h.eq).trans rfl
theorem State.TrapOnly.blobs {s t : State} (h : s.TrapOnly t) : t.blobs = s.blobs := (congrArg State.blobs h.eq).trans rfl
theorem State.TrapOnly.time {s t : State} (h : s.TrapOnly t) : t.time = s.time := (congrArg State.time h.eq).trans rfl
theorem State.TrapOnly.uptime {s t : State} (h : s.TrapOnly t) : t.uptime = s.uptime := (congrArg State.uptime h.eq).trans rfl
theorem State.TrapOnly.wallTaken {s t : State} (h : s.TrapOnly t) : t.wallTaken = s.wallTaken := (congrArg State.wallTaken h.eq).trans rfl
theorem State.TrapOnly.mclkAcc {s t : State} (h : s.TrapOnly t) : t.mclkAcc = s.mclkAcc := (congrArg State.mclkAcc h.eq).trans rfl
theorem State.TrapOnly.freeNext {s t : State} (h : s.TrapOnly t) : t.freeNext = s.freeNext := (congrArg State.freeNext h.eq).trans rfl
theorem State.TrapOnly.routers {s t : State} (h : s.TrapOnly t) : t.routers = s.routers := (congrArg State.routers h.eq).trans rfl
theorem State.TrapOnly.links {s t : State} (h : s.TrapOnly t) : t.links = s.links := (congrArg State.links h.eq).trans rfl
theorem State.TrapOnly.hbm {s t : State} (h : s.TrapOnly t) : t.hbm = s.hbm := (congrArg State.hbm h.eq).trans rfl
theorem State.TrapOnly.hbmPoison {s t : State} (h : s.TrapOnly t) : t.hbmPoison = s.hbmPoison := (congrArg State.hbmPoison h.eq).trans rfl
theorem State.TrapOnly.hostMem {s t : State} (h : s.TrapOnly t) : t.hostMem = s.hostMem := (congrArg State.hostMem h.eq).trans rfl
theorem State.TrapOnly.winTab {s t : State} (h : s.TrapOnly t) : t.winTab = s.winTab := (congrArg State.winTab h.eq).trans rfl
theorem State.TrapOnly.swin {s t : State} (h : s.TrapOnly t) : t.swin = s.swin := (congrArg State.swin h.eq).trans rfl
theorem State.TrapOnly.seams {s t : State} (h : s.TrapOnly t) : t.seams = s.seams := (congrArg State.seams h.eq).trans rfl
theorem State.TrapOnly.seqs {s t : State} (h : s.TrapOnly t) : t.seqs = s.seqs := (congrArg State.seqs h.eq).trans rfl
theorem State.TrapOnly.slots {s t : State} (h : s.TrapOnly t) : t.slots = s.slots := (congrArg State.slots h.eq).trans rfl
theorem State.TrapOnly.marks {s t : State} (h : s.TrapOnly t) : t.marks = s.marks := (congrArg State.marks h.eq).trans rfl
theorem State.TrapOnly.reqs {s t : State} (h : s.TrapOnly t) : t.reqs = s.reqs := (congrArg State.reqs h.eq).trans rfl
theorem State.TrapOnly.tx {s t : State} (h : s.TrapOnly t) : t.tx = s.tx := (congrArg State.tx h.eq).trans rfl
theorem State.TrapOnly.sessions {s t : State} (h : s.TrapOnly t) : t.sessions = s.sessions := (congrArg State.sessions h.eq).trans rfl
theorem State.TrapOnly.kept {s t : State} (h : s.TrapOnly t) : t.kept = s.kept := (congrArg State.kept h.eq).trans rfl
theorem State.TrapOnly.ptp {s t : State} (h : s.TrapOnly t) : t.ptp = s.ptp := (congrArg State.ptp h.eq).trans rfl
theorem State.TrapOnly.hbmStacks {s t : State} (h : s.TrapOnly t) : t.hbmStacks = s.hbmStacks := (congrArg State.hbmStacks h.eq).trans rfl
theorem State.TrapOnly.ports {s t : State} (h : s.TrapOnly t) : t.ports = s.ports := (congrArg State.ports h.eq).trans rfl
theorem State.TrapOnly.pins {s t : State} (h : s.TrapOnly t) : t.pins = s.pins := (congrArg State.pins h.eq).trans rfl
theorem State.TrapOnly.tap {s t : State} (h : s.TrapOnly t) : t.tap = s.tap := (congrArg State.tap h.eq).trans rfl
theorem State.TrapOnly.regions {s t : State} (h : s.TrapOnly t) : t.regions = s.regions := (congrArg State.regions h.eq).trans rfl
theorem State.TrapOnly.panels {s t : State} (h : s.TrapOnly t) : t.panels = s.panels := (congrArg State.panels h.eq).trans rfl
theorem State.TrapOnly.power {s t : State} (h : s.TrapOnly t) : t.power = s.power := (congrArg State.power h.eq).trans rfl
theorem State.TrapOnly.casc {s t : State} (h : s.TrapOnly t) : t.casc = s.casc := (congrArg State.casc h.eq).trans rfl
theorem State.TrapOnly.sec {s t : State} (h : s.TrapOnly t) : t.sec = s.sec := (congrArg State.sec h.eq).trans rfl
theorem State.TrapOnly.journalOld {s t : State} (h : s.TrapOnly t) : t.journalOld = s.journalOld := (congrArg State.journalOld h.eq).trans rfl
theorem State.TrapOnly.muslinFailed {s t : State} (h : s.TrapOnly t) : t.muslinFailed = s.muslinFailed := (congrArg State.muslinFailed h.eq).trans rfl
theorem State.TrapOnly.unretire {s t : State} (h : s.TrapOnly t) : t.unretire = s.unretire := (congrArg State.unretire h.eq).trans rfl
theorem State.TrapOnly.darnSet {s t : State} (h : s.TrapOnly t) : t.darnSet = s.darnSet := (congrArg State.darnSet h.eq).trans rfl
theorem State.TrapOnly.blob {s t : State} (h : s.TrapOnly t) (j : Nat) : t.blob j = s.blob j := (congrArg (fun t : State => t.blob j) h.eq).trans rfl
theorem State.TrapOnly.router {s t : State} (h : s.TrapOnly t) (j : Nat) : t.router j = s.router j := (congrArg (fun t : State => t.router j) h.eq).trans rfl
theorem State.TrapOnly.link {s t : State} (h : s.TrapOnly t) (j : Nat) : t.link j = s.link j := (congrArg (fun t : State => t.link j) h.eq).trans rfl
theorem State.TrapOnly.slot {s t : State} (h : s.TrapOnly t) (j : Nat) : t.slot j = s.slot j := (congrArg (fun t : State => t.slot j) h.eq).trans rfl
theorem State.TrapOnly.seq {s t : State} (h : s.TrapOnly t) (j : Nat) : t.seq j = s.seq j := (congrArg (fun t : State => t.seq j) h.eq).trans rfl
theorem State.TrapOnly.ses {s t : State} (h : s.TrapOnly t) (j : Nat) : t.ses j = s.ses j := (congrArg (fun t : State => t.ses j) h.eq).trans rfl
theorem State.TrapOnly.stack {s t : State} (h : s.TrapOnly t) (j : Nat) : t.stack j = s.stack j := (congrArg (fun t : State => t.stack j) h.eq).trans rfl
theorem State.TrapOnly.port {s t : State} (h : s.TrapOnly t) (j : Nat) : t.port j = s.port j := (congrArg (fun t : State => t.port j) h.eq).trans rfl
theorem State.TrapOnly.pin {s t : State} (h : s.TrapOnly t) (j : Nat) : t.pin j = s.pin j := (congrArg (fun t : State => t.pin j) h.eq).trans rfl
theorem State.TrapOnly.region {s t : State} (h : s.TrapOnly t) (j : Nat) : t.region j = s.region j := (congrArg (fun t : State => t.region j) h.eq).trans rfl
theorem State.TrapOnly.panel {s t : State} (h : s.TrapOnly t) (j : Nat) : t.panel j = s.panel j := (congrArg (fun t : State => t.panel j) h.eq).trans rfl
theorem State.TrapOnly.seam {s t : State} (h : s.TrapOnly t) (j : Nat) : t.seam j = s.seam j := (congrArg (fun t : State => t.seam j) h.eq).trans rfl

theorem State.LogOnly.toTrap {s t : State} (h : s.LogOnly t) : s.TrapOnly t := by
  unfold State.LogOnly at h
  unfold State.TrapOnly
  rw [h]

theorem State.TrapOnly.setInst {s t : State} (k : Nat) (v : Inst) (h : s.TrapOnly t) : s.TrapOnly (t.setInst k v) := h.trans rfl

/-- A trap changes the core, its instance and the log. -/
theorem State.trap_only (s : State) (c : Nat) (t : TrapInfo) (pc op : Nat) : s.TrapOnly (s.trap c t pc op) := by
  unfold State.trap
  lift_lets
  intro k s1 s2
  have h2 : s.TrapOnly s2 := rfl
  clear_value s2
  split
  · exact h2.trans (State.logDev_only ..).toTrap
  · exact (h2.setInst _ _).trans (State.logDev_only ..).toTrap

/-- The core stands trapped with the code and status; everything else of it is kept. -/
theorem State.trap_core (s : State) (c : Nat) (t : TrapInfo) (pc op : Nat) :
    (s.trap c t pc op).core c = { s.core c with run := .trapped, trapCode := t.code, trapStatus := t.status } := by
  unfold State.trap
  cases h : (s.core c).inst <;> simp [h]

/-- No other core is touched. -/
theorem State.trap_core_ne (s : State) (c : Nat) (t : TrapInfo) (pc op d : Nat) (hd : d ≠ c) :
    (s.trap c t pc op).core d = s.core d := by
  unfold State.trap
  cases h : (s.core c).inst <;> simp [h, State.core_setCore_ne _ _ _ _ hd]

/-- The core's instance stops (R179). -/
theorem State.trap_inst (s : State) (c : Nat) (t : TrapInfo) (pc op : Nat) (i : Fin 12) (h : (s.core c).inst = some i) :
    (s.trap c t pc op).inst i.val = { s.inst i.val with
      halted := true, trapped := true, trapFault := (s.inst i.val).trapFault || !restartClass t.code t.status } := by
  unfold State.trap
  simp [h]

/-- The device's trap counter moves by one. -/
theorem State.trap_count (s : State) (c : Nat) (t : TrapInfo) (pc op : Nat) :
    (s.trap c t pc op).rd K.traps = (s.rd K.traps + 1) % 2 ^ 64 := by
  have hk : K.traps ∉ logKeys := by decide
  unfold State.trap
  cases h : (s.core c).inst <;> simp [h, State.logDev_rd _ _ _ hk]

@[simp] theorem State.trap_pending (s : State) (c : Nat) (t : TrapInfo) (pc op : Nat) : (s.trap c t pc op).pending = s.pending :=
  (s.trap_only c t pc op).pending
@[simp] theorem State.trap_blobs (s : State) (c : Nat) (t : TrapInfo) (pc op : Nat) : (s.trap c t pc op).blobs = s.blobs :=
  (s.trap_only c t pc op).blobs
@[simp] theorem State.trap_time (s : State) (c : Nat) (t : TrapInfo) (pc op : Nat) : (s.trap c t pc op).time = s.time :=
  (s.trap_only c t pc op).time
@[simp] theorem State.trap_uptime (s : State) (c : Nat) (t : TrapInfo) (pc op : Nat) : (s.trap c t pc op).uptime = s.uptime :=
  (s.trap_only c t pc op).uptime
@[simp] theorem State.trap_wallTaken (s : State) (c : Nat) (t : TrapInfo) (pc op : Nat) : (s.trap c t pc op).wallTaken = s.wallTaken :=
  (s.trap_only c t pc op).wallTaken
@[simp] theorem State.trap_mclkAcc (s : State) (c : Nat) (t : TrapInfo) (pc op : Nat) : (s.trap c t pc op).mclkAcc = s.mclkAcc :=
  (s.trap_only c t pc op).mclkAcc
@[simp] theorem State.trap_freeNext (s : State) (c : Nat) (t : TrapInfo) (pc op : Nat) : (s.trap c t pc op).freeNext = s.freeNext :=
  (s.trap_only c t pc op).freeNext
@[simp] theorem State.trap_routers (s : State) (c : Nat) (t : TrapInfo) (pc op : Nat) : (s.trap c t pc op).routers = s.routers :=
  (s.trap_only c t pc op).routers
@[simp] theorem State.trap_links (s : State) (c : Nat) (t : TrapInfo) (pc op : Nat) : (s.trap c t pc op).links = s.links :=
  (s.trap_only c t pc op).links
@[simp] theorem State.trap_hbm (s : State) (c : Nat) (t : TrapInfo) (pc op : Nat) : (s.trap c t pc op).hbm = s.hbm :=
  (s.trap_only c t pc op).hbm
@[simp] theorem State.trap_hbmPoison (s : State) (c : Nat) (t : TrapInfo) (pc op : Nat) : (s.trap c t pc op).hbmPoison = s.hbmPoison :=
  (s.trap_only c t pc op).hbmPoison
@[simp] theorem State.trap_hostMem (s : State) (c : Nat) (t : TrapInfo) (pc op : Nat) : (s.trap c t pc op).hostMem = s.hostMem :=
  (s.trap_only c t pc op).hostMem
@[simp] theorem State.trap_winTab (s : State) (c : Nat) (t : TrapInfo) (pc op : Nat) : (s.trap c t pc op).winTab = s.winTab :=
  (s.trap_only c t pc op).winTab
@[simp] theorem State.trap_swin (s : State) (c : Nat) (t : TrapInfo) (pc op : Nat) : (s.trap c t pc op).swin = s.swin :=
  (s.trap_only c t pc op).swin
@[simp] theorem State.trap_seams (s : State) (c : Nat) (t : TrapInfo) (pc op : Nat) : (s.trap c t pc op).seams = s.seams :=
  (s.trap_only c t pc op).seams
@[simp] theorem State.trap_seqs (s : State) (c : Nat) (t : TrapInfo) (pc op : Nat) : (s.trap c t pc op).seqs = s.seqs :=
  (s.trap_only c t pc op).seqs
@[simp] theorem State.trap_slots (s : State) (c : Nat) (t : TrapInfo) (pc op : Nat) : (s.trap c t pc op).slots = s.slots :=
  (s.trap_only c t pc op).slots
@[simp] theorem State.trap_marks (s : State) (c : Nat) (t : TrapInfo) (pc op : Nat) : (s.trap c t pc op).marks = s.marks :=
  (s.trap_only c t pc op).marks
@[simp] theorem State.trap_reqs (s : State) (c : Nat) (t : TrapInfo) (pc op : Nat) : (s.trap c t pc op).reqs = s.reqs :=
  (s.trap_only c t pc op).reqs
@[simp] theorem State.trap_tx (s : State) (c : Nat) (t : TrapInfo) (pc op : Nat) : (s.trap c t pc op).tx = s.tx :=
  (s.trap_only c t pc op).tx
@[simp] theorem State.trap_sessions (s : State) (c : Nat) (t : TrapInfo) (pc op : Nat) : (s.trap c t pc op).sessions = s.sessions :=
  (s.trap_only c t pc op).sessions
@[simp] theorem State.trap_kept (s : State) (c : Nat) (t : TrapInfo) (pc op : Nat) : (s.trap c t pc op).kept = s.kept :=
  (s.trap_only c t pc op).kept
@[simp] theorem State.trap_ptp (s : State) (c : Nat) (t : TrapInfo) (pc op : Nat) : (s.trap c t pc op).ptp = s.ptp :=
  (s.trap_only c t pc op).ptp
@[simp] theorem State.trap_hbmStacks (s : State) (c : Nat) (t : TrapInfo) (pc op : Nat) : (s.trap c t pc op).hbmStacks = s.hbmStacks :=
  (s.trap_only c t pc op).hbmStacks
@[simp] theorem State.trap_ports (s : State) (c : Nat) (t : TrapInfo) (pc op : Nat) : (s.trap c t pc op).ports = s.ports :=
  (s.trap_only c t pc op).ports
@[simp] theorem State.trap_pins (s : State) (c : Nat) (t : TrapInfo) (pc op : Nat) : (s.trap c t pc op).pins = s.pins :=
  (s.trap_only c t pc op).pins
@[simp] theorem State.trap_tap (s : State) (c : Nat) (t : TrapInfo) (pc op : Nat) : (s.trap c t pc op).tap = s.tap :=
  (s.trap_only c t pc op).tap
@[simp] theorem State.trap_regions (s : State) (c : Nat) (t : TrapInfo) (pc op : Nat) : (s.trap c t pc op).regions = s.regions :=
  (s.trap_only c t pc op).regions
@[simp] theorem State.trap_panels (s : State) (c : Nat) (t : TrapInfo) (pc op : Nat) : (s.trap c t pc op).panels = s.panels :=
  (s.trap_only c t pc op).panels
@[simp] theorem State.trap_power (s : State) (c : Nat) (t : TrapInfo) (pc op : Nat) : (s.trap c t pc op).power = s.power :=
  (s.trap_only c t pc op).power
@[simp] theorem State.trap_casc (s : State) (c : Nat) (t : TrapInfo) (pc op : Nat) : (s.trap c t pc op).casc = s.casc :=
  (s.trap_only c t pc op).casc
@[simp] theorem State.trap_sec (s : State) (c : Nat) (t : TrapInfo) (pc op : Nat) : (s.trap c t pc op).sec = s.sec :=
  (s.trap_only c t pc op).sec
@[simp] theorem State.trap_journalOld (s : State) (c : Nat) (t : TrapInfo) (pc op : Nat) : (s.trap c t pc op).journalOld = s.journalOld :=
  (s.trap_only c t pc op).journalOld
@[simp] theorem State.trap_muslinFailed (s : State) (c : Nat) (t : TrapInfo) (pc op : Nat) : (s.trap c t pc op).muslinFailed = s.muslinFailed :=
  (s.trap_only c t pc op).muslinFailed
@[simp] theorem State.trap_unretire (s : State) (c : Nat) (t : TrapInfo) (pc op : Nat) : (s.trap c t pc op).unretire = s.unretire :=
  (s.trap_only c t pc op).unretire
@[simp] theorem State.trap_darnSet (s : State) (c : Nat) (t : TrapInfo) (pc op : Nat) : (s.trap c t pc op).darnSet = s.darnSet :=
  (s.trap_only c t pc op).darnSet
@[simp] theorem State.trap_blob (s : State) (c : Nat) (t : TrapInfo) (pc op : Nat) (j : Nat) : (s.trap c t pc op).blob j = s.blob j :=
  (s.trap_only c t pc op).blob j
@[simp] theorem State.trap_router (s : State) (c : Nat) (t : TrapInfo) (pc op : Nat) (j : Nat) : (s.trap c t pc op).router j = s.router j :=
  (s.trap_only c t pc op).router j
@[simp] theorem State.trap_link (s : State) (c : Nat) (t : TrapInfo) (pc op : Nat) (j : Nat) : (s.trap c t pc op).link j = s.link j :=
  (s.trap_only c t pc op).link j
@[simp] theorem State.trap_slot (s : State) (c : Nat) (t : TrapInfo) (pc op : Nat) (j : Nat) : (s.trap c t pc op).slot j = s.slot j :=
  (s.trap_only c t pc op).slot j
@[simp] theorem State.trap_seq (s : State) (c : Nat) (t : TrapInfo) (pc op : Nat) (j : Nat) : (s.trap c t pc op).seq j = s.seq j :=
  (s.trap_only c t pc op).seq j
@[simp] theorem State.trap_ses (s : State) (c : Nat) (t : TrapInfo) (pc op : Nat) (j : Nat) : (s.trap c t pc op).ses j = s.ses j :=
  (s.trap_only c t pc op).ses j
@[simp] theorem State.trap_stack (s : State) (c : Nat) (t : TrapInfo) (pc op : Nat) (j : Nat) : (s.trap c t pc op).stack j = s.stack j :=
  (s.trap_only c t pc op).stack j
@[simp] theorem State.trap_port (s : State) (c : Nat) (t : TrapInfo) (pc op : Nat) (j : Nat) : (s.trap c t pc op).port j = s.port j :=
  (s.trap_only c t pc op).port j
@[simp] theorem State.trap_pin (s : State) (c : Nat) (t : TrapInfo) (pc op : Nat) (j : Nat) : (s.trap c t pc op).pin j = s.pin j :=
  (s.trap_only c t pc op).pin j
@[simp] theorem State.trap_region (s : State) (c : Nat) (t : TrapInfo) (pc op : Nat) (j : Nat) : (s.trap c t pc op).region j = s.region j :=
  (s.trap_only c t pc op).region j
@[simp] theorem State.trap_panel (s : State) (c : Nat) (t : TrapInfo) (pc op : Nat) (j : Nat) : (s.trap c t pc op).panel j = s.panel j :=
  (s.trap_only c t pc op).panel j
@[simp] theorem State.trap_seam (s : State) (c : Nat) (t : TrapInfo) (pc op : Nat) (j : Nat) : (s.trap c t pc op).seam j = s.seam j :=
  (s.trap_only c t pc op).seam j

end Sys2Proof.Machine
end

