-- ==== Sys2Proof/Laws/Issue.lean ====
section
/-! SUPPORT. What issuing an Idmor instruction gives: one lemma per way it can end. -/

namespace Sys2Proof.Machine

/-- With the hazard detector off nothing is recorded. -/
theorem State.hazards_off (s : State) (c op pc : Nat) (accs : List Access) (l : List TrapInfo) (h : s.rd K.hzMode = 0) :
    s.hazards c op pc accs l = s := by simp [State.hazards, h]

/-- With the hazard detector off nothing is found. -/
theorem State.foundHz_off (s : State) (k : Core) (own : Option (Nat × Nat)) (accs : List Access) (h : s.rd K.hzMode = 0) :
    s.foundHz k own accs = [] := by simp [State.foundHz, h]

/-- No access has no hazard. -/
@[simp] theorem State.foundHz_nil (s : State) (k : Core) (own : Option (Nat × Nat)) : s.foundHz k own [] = [] := by
  simp [State.foundHz]

/-- With the hazard detector off, an access at a port leaves no trace. -/
theorem State.portUse_off (s : State) (c : Nat) (own : Option (Nat × Nat)) (pc : Nat) (accs : List Access)
    (h : s.rd K.hzMode = 0) : s.portUse c own pc accs = s := by
  simp [State.portUse, State.foundHz_off _ _ _ _ h, State.hazards_off _ _ _ _ _ _ h]

/-- With no access there is nothing to record. -/
@[simp] theorem State.hazards_nil (s : State) (c op pc : Nat) (l : List TrapInfo) : s.hazards c op pc [] l = s := by
  simp [State.hazards]

/-- A ready instruction whose body is done moves on. -/
theorem issueOut_done {s t : State} {c : CoreId} {g : Guard} {op : Nat} {legal ro : Bool} {accs : List Access}
    {body : Core → Res} (hr : s.Ready c g) (hl : legal = true) (hn : ro = false) (hb : body (s.core c.val) = .done t)
    (hz : accs = [] ∨ t.rd K.hzMode = 0) :
    issueOut s c g op legal ro accs body = .next (t.setCore c.val (t.core c.val).advance) := by
  unfold issueOut State.issue
  rcases hz with rfl | h1
  · simp [hl, hn, hr.may, hr.quiet, hr.read, hr.legal, hr.holds, hb]
  · simp [hl, hn, hr.may, hr.quiet, hr.read, hr.legal, hr.holds, hb, State.hazards_off _ _ _ _ _ _ h1,
      State.foundHz_off _ _ _ _ h1]

/-- A ready instruction whose body jumps. -/
theorem issueOut_jump {s t : State} {c : CoreId} {g : Guard} {op pc : Nat} {legal ro : Bool} {accs : List Access}
    {body : Core → Res} (hr : s.Ready c g) (hl : legal = true) (hn : ro = false) (hb : body (s.core c.val) = .jump t pc) :
    issueOut s c g op legal ro accs body = .next (t.setCore c.val { t.core c.val with pc := pc }) := by
  unfold issueOut State.issue
  simp [hl, hn, hr.may, hr.quiet, hr.read, hr.legal, hr.holds, hb]

/-- A ready instruction whose body waits, or ends the task. -/
theorem issueOut_wait {s t : State} {c : CoreId} {g : Guard} {op : Nat} {legal ro : Bool} {accs : List Access}
    {body : Core → Res} (hr : s.Ready c g) (hl : legal = true) (hn : ro = false) (hb : body (s.core c.val) = .wait t) :
    issueOut s c g op legal ro accs body = .next t := by
  unfold issueOut State.issue
  simp [hl, hn, hr.may, hr.quiet, hr.read, hr.legal, hr.holds, hb]

/-- A ready instruction whose body traps. -/
theorem issueOut_trap {s : State} {c : CoreId} {g : Guard} {op : Nat} {legal ro : Bool} {accs : List Access}
    {body : Core → Res} {t : TrapInfo} (hr : s.Ready c g) (hl : legal = true) (hn : ro = false)
    (hb : body (s.core c.val) = .trap t) :
    issueOut s c g op legal ro accs body = .next (s.trap c.val t (s.core c.val).pc op) := by
  unfold issueOut State.issue
  simp [hl, hn, hr.may, hr.quiet, hr.read, hr.legal, hr.holds, hb]

/-! ## The frame of one core -/

/-- Replacing one core touches nothing else. -/
theorem State.onlyCore_set (s : State) (c : CoreId) (k : Core) : s.OnlyCore (s.setCore c.val k) c :=
  ⟨rfl, fun d hd => State.core_setCore_ne s c.val k d hd⟩

/-- Two changes of one core in a row. -/
theorem State.OnlyCore.set {s t : State} {c : CoreId} (h : s.OnlyCore t c) (k : Core) : s.OnlyCore (t.setCore c.val k) c := by
  obtain ⟨h1, h2⟩ := h
  refine ⟨?_, fun d hd => (State.core_setCore_ne t c.val k d hd).trans (h2 d hd)⟩
  have : (t.setCore c.val k) = { t with cores := (t.setCore c.val k).cores } := rfl
  rw [this, h1]

/-- Advancing touches the loop stack and the program counter only. -/
theorem Core.advance_eq (k : Core) : k.advance = { k with loops := k.advance.loops, pc := k.advance.pc } := rfl

end Sys2Proof.Machine
end

