-- ==== Sys2Proof/Laws/PerInstr.lean ====
section
/-! SUPPORT. Laws made once per command. The family Format: a core's instruction is what its word decodes to. -/

namespace Sys2Proof.Laws.Format

/-- The word of an instruction decodes, for some core, to that instruction; a command that no core issues has no word. -/
def Statement (i : Instr) : Prop := ∀ w, encodeIdmor i = some w → ∃ c, decodeIdmor c w = some i

theorem nop (c : CoreId) (g : Guard) (f : CtlF) : Statement (.nop c g f) := by
  intro w h
  obtain rfl := Option.some.inj h
  refine ⟨c, ?_⟩
  unfold decodeIdmor
  rw [headWord_opcode, headWord_guard, headWord_ctl]
  rfl

theorem halt (c : CoreId) (g : Guard) (f : CtlF) : Statement (.halt c g f) := by
  intro w h
  obtain rfl := Option.some.inj h
  refine ⟨c, ?_⟩
  unfold decodeIdmor
  rw [headWord_opcode, headWord_guard, headWord_ctl]
  rfl

theorem br (c : CoreId) (g : Guard) (f : CtlF) : Statement (.br c g f) := by
  intro w h
  obtain rfl := Option.some.inj h
  refine ⟨c, ?_⟩
  unfold decodeIdmor
  rw [headWord_opcode, headWord_guard, headWord_ctl]
  rfl

theorem brr (c : CoreId) (g : Guard) (f : CtlF) : Statement (.brr c g f) := by
  intro w h
  obtain rfl := Option.some.inj h
  refine ⟨c, ?_⟩
  unfold decodeIdmor
  rw [headWord_opcode, headWord_guard, headWord_ctl]
  rfl

theorem callI (c : CoreId) (g : Guard) (f : CtlF) : Statement (.callI c g f) := by
  intro w h
  obtain rfl := Option.some.inj h
  refine ⟨c, ?_⟩
  unfold decodeIdmor
  rw [headWord_opcode, headWord_guard, headWord_ctl]
  rfl

theorem ret (c : CoreId) (g : Guard) (f : CtlF) : Statement (.ret c g f) := by
  intro w h
  obtain rfl := Option.some.inj h
  refine ⟨c, ?_⟩
  unfold decodeIdmor
  rw [headWord_opcode, headWord_guard, headWord_ctl]
  rfl

theorem loopI (c : CoreId) (g : Guard) (f : CtlF) : Statement (.loopI c g f) := by
  intro w h
  obtain rfl := Option.some.inj h
  refine ⟨c, ?_⟩
  unfold decodeIdmor
  rw [headWord_opcode, headWord_guard, headWord_ctl]
  rfl

theorem brk (c : CoreId) (g : Guard) (f : CtlF) : Statement (.brk c g f) := by
  intro w h
  obtain rfl := Option.some.inj h
  refine ⟨c, ?_⟩
  unfold decodeIdmor
  rw [headWord_opcode, headWord_guard, headWord_ctl]
  rfl

theorem add (c : CoreId) (g : Guard) (f : ScalF) : Statement (.add c g f) := by
  intro w h
  obtain rfl := Option.some.inj h
  refine ⟨c, ?_⟩
  unfold decodeIdmor
  rw [headWord_opcode, headWord_guard, headWord_scal]
  rfl

theorem sub (c : CoreId) (g : Guard) (f : ScalF) : Statement (.sub c g f) := by
  intro w h
  obtain rfl := Option.some.inj h
  refine ⟨c, ?_⟩
  unfold decodeIdmor
  rw [headWord_opcode, headWord_guard, headWord_scal]
  rfl

theorem mul (c : CoreId) (g : Guard) (f : ScalF) : Statement (.mul c g f) := by
  intro w h
  obtain rfl := Option.some.inj h
  refine ⟨c, ?_⟩
  unfold decodeIdmor
  rw [headWord_opcode, headWord_guard, headWord_scal]
  rfl

theorem andI (c : CoreId) (g : Guard) (f : ScalF) : Statement (.andI c g f) := by
  intro w h
  obtain rfl := Option.some.inj h
  refine ⟨c, ?_⟩
  unfold decodeIdmor
  rw [headWord_opcode, headWord_guard, headWord_scal]
  rfl

theorem orI (c : CoreId) (g : Guard) (f : ScalF) : Statement (.orI c g f) := by
  intro w h
  obtain rfl := Option.some.inj h
  refine ⟨c, ?_⟩
  unfold decodeIdmor
  rw [headWord_opcode, headWord_guard, headWord_scal]
  rfl

theorem xorI (c : CoreId) (g : Guard) (f : ScalF) : Statement (.xorI c g f) := by
  intro w h
  obtain rfl := Option.some.inj h
  refine ⟨c, ?_⟩
  unfold decodeIdmor
  rw [headWord_opcode, headWord_guard, headWord_scal]
  rfl

theorem shl (c : CoreId) (g : Guard) (f : ScalF) : Statement (.shl c g f) := by
  intro w h
  obtain rfl := Option.some.inj h
  refine ⟨c, ?_⟩
  unfold decodeIdmor
  rw [headWord_opcode, headWord_guard, headWord_scal]
  rfl

theorem shr (c : CoreId) (g : Guard) (f : ScalF) : Statement (.shr c g f) := by
  intro w h
  obtain rfl := Option.some.inj h
  refine ⟨c, ?_⟩
  unfold decodeIdmor
  rw [headWord_opcode, headWord_guard, headWord_scal]
  rfl

theorem sra (c : CoreId) (g : Guard) (f : ScalF) : Statement (.sra c g f) := by
  intro w h
  obtain rfl := Option.some.inj h
  refine ⟨c, ?_⟩
  unfold decodeIdmor
  rw [headWord_opcode, headWord_guard, headWord_scal]
  rfl

theorem min (c : CoreId) (g : Guard) (f : ScalF) : Statement (.min c g f) := by
  intro w h
  obtain rfl := Option.some.inj h
  refine ⟨c, ?_⟩
  unfold decodeIdmor
  rw [headWord_opcode, headWord_guard, headWord_scal]
  rfl

theorem max (c : CoreId) (g : Guard) (f : ScalF) : Statement (.max c g f) := by
  intro w h
  obtain rfl := Option.some.inj h
  refine ⟨c, ?_⟩
  unfold decodeIdmor
  rw [headWord_opcode, headWord_guard, headWord_scal]
  rfl

theorem minu (c : CoreId) (g : Guard) (f : ScalF) : Statement (.minu c g f) := by
  intro w h
  obtain rfl := Option.some.inj h
  refine ⟨c, ?_⟩
  unfold decodeIdmor
  rw [headWord_opcode, headWord_guard, headWord_scal]
  rfl

theorem maxu (c : CoreId) (g : Guard) (f : ScalF) : Statement (.maxu c g f) := by
  intro w h
  obtain rfl := Option.some.inj h
  refine ⟨c, ?_⟩
  unfold decodeIdmor
  rw [headWord_opcode, headWord_guard, headWord_scal]
  rfl

theorem cmpeq (c : CoreId) (g : Guard) (f : ScalF) : Statement (.cmpeq c g f) := by
  intro w h
  obtain rfl := Option.some.inj h
  refine ⟨c, ?_⟩
  unfold decodeIdmor
  rw [headWord_opcode, headWord_guard, headWord_scal]
  rfl

theorem cmplt (c : CoreId) (g : Guard) (f : ScalF) : Statement (.cmplt c g f) := by
  intro w h
  obtain rfl := Option.some.inj h
  refine ⟨c, ?_⟩
  unfold decodeIdmor
  rw [headWord_opcode, headWord_guard, headWord_scal]
  rfl

theorem cmpltu (c : CoreId) (g : Guard) (f : ScalF) : Statement (.cmpltu c g f) := by
  intro w h
  obtain rfl := Option.some.inj h
  refine ⟨c, ?_⟩
  unfold decodeIdmor
  rw [headWord_opcode, headWord_guard, headWord_scal]
  rfl

theorem mov (c : CoreId) (g : Guard) (f : ScalF) : Statement (.mov c g f) := by
  intro w h
  obtain rfl := Option.some.inj h
  refine ⟨c, ?_⟩
  unfold decodeIdmor
  rw [headWord_opcode, headWord_guard, headWord_scal]
  rfl

theorem sld (c : CoreId) (g : Guard) (f : ScalF) : Statement (.sld c g f) := by
  intro w h
  obtain rfl := Option.some.inj h
  refine ⟨c, ?_⟩
  unfold decodeIdmor
  rw [headWord_opcode, headWord_guard, headWord_scal]
  rfl

theorem sst (c : CoreId) (g : Guard) (f : ScalF) : Statement (.sst c g f) := by
  intro w h
  obtain rfl := Option.some.inj h
  refine ⟨c, ?_⟩
  unfold decodeIdmor
  rw [headWord_opcode, headWord_guard, headWord_scal]
  rfl

theorem mmv (c : CoreId) (g : Guard) (f : EngF) : Statement (.mmv c g f) := by
  intro w h
  obtain rfl := Option.some.inj h
  refine ⟨c, ?_⟩
  unfold decodeIdmor
  rw [headWord_opcode, headWord_guard, headWord_eng]
  rfl

theorem bflush (c : CoreId) (g : Guard) (f : EngF) : Statement (.bflush c g f) := by
  intro w h
  obtain rfl := Option.some.inj h
  refine ⟨c, ?_⟩
  unfold decodeIdmor
  rw [headWord_opcode, headWord_guard, headWord_eng]
  rfl

theorem bzero (c : CoreId) (g : Guard) (f : EngF) : Statement (.bzero c g f) := by
  intro w h
  obtain rfl := Option.some.inj h
  refine ⟨c, ?_⟩
  unfold decodeIdmor
  rw [headWord_opcode, headWord_guard, headWord_eng]
  rfl

theorem csum (c : CoreId) (g : Guard) (f : EngF) : Statement (.csum c g f) := by
  intro w h
  obtain rfl := Option.some.inj h
  refine ⟨c, ?_⟩
  unfold decodeIdmor
  rw [headWord_opcode, headWord_guard, headWord_eng]
  rfl

theorem ectlw (c : CoreId) (g : Guard) (f : EngF) : Statement (.ectlw c g f) := by
  intro w h
  obtain rfl := Option.some.inj h
  refine ⟨c, ?_⟩
  unfold decodeIdmor
  rw [headWord_opcode, headWord_guard, headWord_eng]
  rfl

theorem fld (c : CoreId) (g : Guard) (f : FinF) : Statement (.fld c g f) := by
  intro w h
  obtain rfl := Option.some.inj h
  refine ⟨c, ?_⟩
  unfold decodeIdmor
  rw [headWord_opcode, headWord_guard, headWord_fin]
  rfl

theorem fst (c : CoreId) (g : Guard) (f : FinF) : Statement (.fst c g f) := by
  intro w h
  obtain rfl := Option.some.inj h
  refine ⟨c, ?_⟩
  unfold decodeIdmor
  rw [headWord_opcode, headWord_guard, headWord_fin]
  rfl

theorem fcvt (c : CoreId) (g : Guard) (f : FinF) : Statement (.fcvt c g f) := by
  intro w h
  obtain rfl := Option.some.inj h
  refine ⟨c, ?_⟩
  unfold decodeIdmor
  rw [headWord_opcode, headWord_guard, headWord_fin]
  rfl

theorem fadd (c : CoreId) (g : Guard) (f : FinF) : Statement (.fadd c g f) := by
  intro w h
  obtain rfl := Option.some.inj h
  refine ⟨c, ?_⟩
  unfold decodeIdmor
  rw [headWord_opcode, headWord_guard, headWord_fin]
  rfl

theorem fsub (c : CoreId) (g : Guard) (f : FinF) : Statement (.fsub c g f) := by
  intro w h
  obtain rfl := Option.some.inj h
  refine ⟨c, ?_⟩
  unfold decodeIdmor
  rw [headWord_opcode, headWord_guard, headWord_fin]
  rfl

theorem fmul (c : CoreId) (g : Guard) (f : FinF) : Statement (.fmul c g f) := by
  intro w h
  obtain rfl := Option.some.inj h
  refine ⟨c, ?_⟩
  unfold decodeIdmor
  rw [headWord_opcode, headWord_guard, headWord_fin]
  rfl

theorem ffma (c : CoreId) (g : Guard) (f : FinF) : Statement (.ffma c g f) := by
  intro w h
  obtain rfl := Option.some.inj h
  refine ⟨c, ?_⟩
  unfold decodeIdmor
  rw [headWord_opcode, headWord_guard, headWord_fin]
  rfl

theorem fmin (c : CoreId) (g : Guard) (f : FinF) : Statement (.fmin c g f) := by
  intro w h
  obtain rfl := Option.some.inj h
  refine ⟨c, ?_⟩
  unfold decodeIdmor
  rw [headWord_opcode, headWord_guard, headWord_fin]
  rfl

theorem fmax (c : CoreId) (g : Guard) (f : FinF) : Statement (.fmax c g f) := by
  intro w h
  obtain rfl := Option.some.inj h
  refine ⟨c, ?_⟩
  unfold decodeIdmor
  rw [headWord_opcode, headWord_guard, headWord_fin]
  rfl

theorem fcmp (c : CoreId) (g : Guard) (f : FinF) : Statement (.fcmp c g f) := by
  intro w h
  obtain rfl := Option.some.inj h
  refine ⟨c, ?_⟩
  unfold decodeIdmor
  rw [headWord_opcode, headWord_guard, headWord_fin]
  rfl

theorem fneg (c : CoreId) (g : Guard) (f : FinF) : Statement (.fneg c g f) := by
  intro w h
  obtain rfl := Option.some.inj h
  refine ⟨c, ?_⟩
  unfold decodeIdmor
  rw [headWord_opcode, headWord_guard, headWord_fin]
  rfl

theorem fabs (c : CoreId) (g : Guard) (f : FinF) : Statement (.fabs c g f) := by
  intro w h
  obtain rfl := Option.some.inj h
  refine ⟨c, ?_⟩
  unfold decodeIdmor
  rw [headWord_opcode, headWord_guard, headWord_fin]
  rfl

theorem fcvtb (c : CoreId) (g : Guard) (f : FinF) : Statement (.fcvtb c g f) := by
  intro w h
  obtain rfl := Option.some.inj h
  refine ⟨c, ?_⟩
  unfold decodeIdmor
  rw [headWord_opcode, headWord_guard, headWord_fin]
  rfl

theorem funp (c : CoreId) (g : Guard) (f : FinF) : Statement (.funp c g f) := by
  intro w h
  obtain rfl := Option.some.inj h
  refine ⟨c, ?_⟩
  unfold decodeIdmor
  rw [headWord_opcode, headWord_guard, headWord_fin]
  rfl

theorem frcp (c : CoreId) (g : Guard) (f : FinF) : Statement (.frcp c g f) := by
  intro w h
  obtain rfl := Option.some.inj h
  refine ⟨c, ?_⟩
  unfold decodeIdmor
  rw [headWord_opcode, headWord_guard, headWord_fin]
  rfl

theorem fsqrt (c : CoreId) (g : Guard) (f : FinF) : Statement (.fsqrt c g f) := by
  intro w h
  obtain rfl := Option.some.inj h
  refine ⟨c, ?_⟩
  unfold decodeIdmor
  rw [headWord_opcode, headWord_guard, headWord_fin]
  rfl

theorem frsq (c : CoreId) (g : Guard) (f : FinF) : Statement (.frsq c g f) := by
  intro w h
  obtain rfl := Option.some.inj h
  refine ⟨c, ?_⟩
  unfold decodeIdmor
  rw [headWord_opcode, headWord_guard, headWord_fin]
  rfl

theorem fexp (c : CoreId) (g : Guard) (f : FinF) : Statement (.fexp c g f) := by
  intro w h
  obtain rfl := Option.some.inj h
  refine ⟨c, ?_⟩
  unfold decodeIdmor
  rw [headWord_opcode, headWord_guard, headWord_fin]
  rfl

theorem fexp2 (c : CoreId) (g : Guard) (f : FinF) : Statement (.fexp2 c g f) := by
  intro w h
  obtain rfl := Option.some.inj h
  refine ⟨c, ?_⟩
  unfold decodeIdmor
  rw [headWord_opcode, headWord_guard, headWord_fin]
  rfl

theorem flog (c : CoreId) (g : Guard) (f : FinF) : Statement (.flog c g f) := by
  intro w h
  obtain rfl := Option.some.inj h
  refine ⟨c, ?_⟩
  unfold decodeIdmor
  rw [headWord_opcode, headWord_guard, headWord_fin]
  rfl

theorem flog2 (c : CoreId) (g : Guard) (f : FinF) : Statement (.flog2 c g f) := by
  intro w h
  obtain rfl := Option.some.inj h
  refine ⟨c, ?_⟩
  unfold decodeIdmor
  rw [headWord_opcode, headWord_guard, headWord_fin]
  rfl

theorem fact (c : CoreId) (g : Guard) (f : FinF) : Statement (.fact c g f) := by
  intro w h
  obtain rfl := Option.some.inj h
  refine ⟨c, ?_⟩
  unfold decodeIdmor
  rw [headWord_opcode, headWord_guard, headWord_fin]
  rfl

theorem fsum (c : CoreId) (g : Guard) (f : FinF) : Statement (.fsum c g f) := by
  intro w h
  obtain rfl := Option.some.inj h
  refine ⟨c, ?_⟩
  unfold decodeIdmor
  rw [headWord_opcode, headWord_guard, headWord_fin]
  rfl

theorem fdot (c : CoreId) (g : Guard) (f : FinF) : Statement (.fdot c g f) := by
  intro w h
  obtain rfl := Option.some.inj h
  refine ⟨c, ?_⟩
  unfold decodeIdmor
  rw [headWord_opcode, headWord_guard, headWord_fin]
  rfl

theorem frms (c : CoreId) (g : Guard) (f : FinF) : Statement (.frms c g f) := by
  intro w h
  obtain rfl := Option.some.inj h
  refine ⟨c, ?_⟩
  unfold decodeIdmor
  rw [headWord_opcode, headWord_guard, headWord_fin]
  rfl

theorem flnorm (c : CoreId) (g : Guard) (f : FinF) : Statement (.flnorm c g f) := by
  intro w h
  obtain rfl := Option.some.inj h
  refine ⟨c, ?_⟩
  unfold decodeIdmor
  rw [headWord_opcode, headWord_guard, headWord_fin]
  rfl

theorem fquant (c : CoreId) (g : Guard) (f : FinF) : Statement (.fquant c g f) := by
  intro w h
  obtain rfl := Option.some.inj h
  refine ⟨c, ?_⟩
  unfold decodeIdmor
  rw [headWord_opcode, headWord_guard, headWord_fin]
  rfl

theorem falt (c : CoreId) (g : Guard) (f : FinF) : Statement (.falt c g f) := by
  intro w h
  obtain rfl := Option.some.inj h
  refine ⟨c, ?_⟩
  unfold decodeIdmor
  rw [headWord_opcode, headWord_guard, headWord_fin]
  rfl

theorem fqk (c : CoreId) (g : Guard) (f : FinF) : Statement (.fqk c g f) := by
  intro w h
  obtain rfl := Option.some.inj h
  refine ⟨c, ?_⟩
  unfold decodeIdmor
  rw [headWord_opcode, headWord_guard, headWord_fin]
  rfl

theorem fsmx (c : CoreId) (g : Guard) (f : FinF) : Statement (.fsmx c g f) := by
  intro w h
  obtain rfl := Option.some.inj h
  refine ⟨c, ?_⟩
  unfold decodeIdmor
  rw [headWord_opcode, headWord_guard, headWord_fin]
  rfl

theorem fpv (c : CoreId) (g : Guard) (f : FinF) : Statement (.fpv c g f) := by
  intro w h
  obtain rfl := Option.some.inj h
  refine ⟨c, ?_⟩
  unfold decodeIdmor
  rw [headWord_opcode, headWord_guard, headWord_fin]
  rfl

theorem femb (c : CoreId) (g : Guard) (f : FinF) : Statement (.femb c g f) := by
  intro w h
  obtain rfl := Option.some.inj h
  refine ⟨c, ?_⟩
  unfold decodeIdmor
  rw [headWord_opcode, headWord_guard, headWord_fin]
  rfl

theorem qpush (c : CoreId) (g : Guard) (f : MovF) : Statement (.qpush c g f) := by
  intro w h
  obtain rfl := Option.some.inj h
  refine ⟨c, ?_⟩
  unfold decodeIdmor
  rw [headWord_opcode, headWord_guard, headWord_mov]
  rfl

theorem pwalk (c : CoreId) (g : Guard) (f : MovF) : Statement (.pwalk c g f) := by
  intro w h
  obtain rfl := Option.some.inj h
  refine ⟨c, ?_⟩
  unfold decodeIdmor
  rw [headWord_opcode, headWord_guard, headWord_mov]
  rfl

theorem qwait (c : CoreId) (g : Guard) (f : MovF) : Statement (.qwait c g f) := by
  intro w h
  obtain rfl := Option.some.inj h
  refine ⟨c, ?_⟩
  unfold decodeIdmor
  rw [headWord_opcode, headWord_guard, headWord_mov]
  rfl

theorem qexp (c : CoreId) (g : Guard) (f : MovF) : Statement (.qexp c g f) := by
  intro w h
  obtain rfl := Option.some.inj h
  refine ⟨c, ?_⟩
  unfold decodeIdmor
  rw [headWord_opcode, headWord_guard, headWord_mov]
  rfl

theorem nget (c : CoreId) (g : Guard) (f : MovF) : Statement (.nget c g f) := by
  intro w h
  obtain rfl := Option.some.inj h
  refine ⟨c, ?_⟩
  unfold decodeIdmor
  rw [headWord_opcode, headWord_guard, headWord_mov]
  rfl

theorem nput (c : CoreId) (g : Guard) (f : MovF) : Statement (.nput c g f) := by
  intro w h
  obtain rfl := Option.some.inj h
  refine ⟨c, ?_⟩
  unfold decodeIdmor
  rw [headWord_opcode, headWord_guard, headWord_mov]
  rfl

theorem rget (c : CoreId) (g : Guard) (f : MovF) : Statement (.rget c g f) := by
  intro w h
  obtain rfl := Option.some.inj h
  refine ⟨c, ?_⟩
  unfold decodeIdmor
  rw [headWord_opcode, headWord_guard, headWord_mov]
  rfl

theorem rput (c : CoreId) (g : Guard) (f : MovF) : Statement (.rput c g f) := by
  intro w h
  obtain rfl := Option.some.inj h
  refine ⟨c, ?_⟩
  unfold decodeIdmor
  rw [headWord_opcode, headWord_guard, headWord_mov]
  rfl

theorem mcast (c : CoreId) (g : Guard) (f : MovF) : Statement (.mcast c g f) := by
  intro w h
  obtain rfl := Option.some.inj h
  refine ⟨c, ?_⟩
  unfold decodeIdmor
  rw [headWord_opcode, headWord_guard, headWord_mov]
  rfl

theorem rsend (c : CoreId) (g : Guard) (f : MovF) : Statement (.rsend c g f) := by
  intro w h
  obtain rfl := Option.some.inj h
  refine ⟨c, ?_⟩
  unfold decodeIdmor
  rw [headWord_opcode, headWord_guard, headWord_mov]
  rfl

theorem tack (c : CoreId) (g : Guard) (f : SyncF) : Statement (.tack c g f) := by
  intro w h
  obtain rfl := Option.some.inj h
  refine ⟨c, ?_⟩
  unfold decodeIdmor
  rw [headWord_opcode, headWord_guard, headWord_sync]
  rfl

theorem fenceI (c : CoreId) (g : Guard) (f : SyncF) : Statement (.fenceI c g f) := by
  intro w h
  obtain rfl := Option.some.inj h
  refine ⟨c, ?_⟩
  unfold decodeIdmor
  rw [headWord_opcode, headWord_guard, headWord_sync]
  rfl

theorem waitI (c : CoreId) (g : Guard) (f : SyncF) : Statement (.waitI c g f) := by
  intro w h
  obtain rfl := Option.some.inj h
  refine ⟨c, ?_⟩
  unfold decodeIdmor
  rw [headWord_opcode, headWord_guard, headWord_sync]
  rfl

theorem noteI (c : CoreId) (g : Guard) (f : SyncF) : Statement (.noteI c g f) := by
  intro w h
  obtain rfl := Option.some.inj h
  refine ⟨c, ?_⟩
  unfold decodeIdmor
  rw [headWord_opcode, headWord_guard, headWord_sync]
  rfl

theorem gown (c : CoreId) (g : Guard) (f : SyncF) : Statement (.gown c g f) := by
  intro w h
  obtain rfl := Option.some.inj h
  refine ⟨c, ?_⟩
  unfold decodeIdmor
  rw [headWord_opcode, headWord_guard, headWord_sync]
  rfl

theorem ctop (c : CoreId) (g : Guard) (f : SampF) : Statement (.ctop c g f) := by
  intro w h
  obtain rfl := Option.some.inj h
  refine ⟨c, ?_⟩
  unfold decodeIdmor
  rw [headWord_opcode, headWord_guard, headWord_samp]
  rfl

theorem csend (c : CoreId) (g : Guard) (f : SampF) : Statement (.csend c g f) := by
  intro w h
  obtain rfl := Option.some.inj h
  refine ⟨c, ?_⟩
  unfold decodeIdmor
  rw [headWord_opcode, headWord_guard, headWord_samp]
  rfl

theorem spick (c : CoreId) (g : Guard) (f : SampF) : Statement (.spick c g f) := by
  intro w h
  obtain rfl := Option.some.inj h
  refine ⟨c, ?_⟩
  unfold decodeIdmor
  rw [headWord_opcode, headWord_guard, headWord_samp]
  rfl

theorem sacc (c : CoreId) (g : Guard) (f : SampF) : Statement (.sacc c g f) := by
  intro w h
  obtain rfl := Option.some.inj h
  refine ⟨c, ?_⟩
  unfold decodeIdmor
  rw [headWord_opcode, headWord_guard, headWord_samp]
  rfl

theorem trapDrainEnd (i : InstId) : Statement (.trapDrainEnd i) := fun _ h => nomatch h

theorem tackOverdue (i : InstId) : Statement (.tackOverdue i) := fun _ h => nomatch h

theorem enginePass (c : CoreId) (p : Pos) : Statement (.enginePass c p) := fun _ h => nomatch h

theorem boltSetPost (c : CoreId) (p : Pos) : Statement (.boltSetPost c p) := fun _ h => nomatch h

theorem boltZero (c : CoreId) (p : Pos) : Statement (.boltZero c p) := fun _ h => nomatch h

theorem checkRead (c : CoreId) (p : Pos) : Statement (.checkRead c p) := fun _ h => nomatch h

theorem scrubCheckRead (c : CoreId) (e : EngId) : Statement (.scrubCheckRead c e) := fun _ h => nomatch h

theorem goldenFetchDone (c : CoreId) (e : EngId) (hostImage : List Byte) : Statement (.goldenFetchDone c e hostImage) := fun _ h => nomatch h

theorem goldenFetchRetry (c : CoreId) (e : EngId) : Statement (.goldenFetchRetry c e) := fun _ h => nomatch h

theorem gussetCopyVerified (c : CoreId) (ok : Bool) : Statement (.gussetCopyVerified c ok) := fun _ h => nomatch h

theorem reprogramVerified (c : CoreId) (e : EngId) (ok : Bool) : Statement (.reprogramVerified c e ok) := fun _ h => nomatch h

theorem eventQueueDrain (c : CoreId) (e : EngId) : Statement (.eventQueueDrain c e) := fun _ h => nomatch h

theorem fcWeightFetchDone (c : CoreId) (slot : Fin 2) (hostImage : List Byte) : Statement (.fcWeightFetchDone c slot hostImage) := fun _ h => nomatch h

theorem fcRecompute (c : CoreId) (slot : Fin 2) (tile : Fin 512) : Statement (.fcRecompute c slot tile) := fun _ h => nomatch h

theorem fcDeadline (c : CoreId) (slot : Fin 2) : Statement (.fcDeadline c slot) := fun _ h => nomatch h

theorem scratchpadScrub (c : CoreId) (word : Fin 786432) (found : Ecc) : Statement (.scratchpadScrub c word found) := fun _ h => nomatch h

theorem granuleZero (c : CoreId) (g : Fin 1536) : Statement (.granuleZero c g) := fun _ h => nomatch h

theorem flitReceive (l : LinkId) (d : LinkWay) (bursts : List Burst) (crcOk : Bool) : Statement (.flitReceive l d bursts crcOk) := fun _ h => nomatch h

theorem replayRequest (l : LinkId) (d : LinkWay) (seq : BitVec 8) : Statement (.replayRequest l d seq) := fun _ h => nomatch h

theorem routerFail (r : CoreId) : Statement (.routerFail r) := fun _ h => nomatch h

theorem packetRoute (r : CoreId) : Statement (.packetRoute r) := fun _ h => nomatch h

theorem multicastDelivery (r : CoreId) : Statement (.multicastDelivery r) := fun _ h => nomatch h

theorem reductionCombine (r : CoreId) (group : Fin 64) : Statement (.reductionCombine r group) := fun _ h => nomatch h

theorem remoteRequest (c : CoreId) : Statement (.remoteRequest c) := fun _ h => nomatch h

theorem remoteResponse (c : CoreId) : Statement (.remoteResponse c) := fun _ h => nomatch h

theorem rqTimeout (c : CoreId) (what : RqWhat) : Statement (.rqTimeout c what) := fun _ h => nomatch h

theorem neighborRefusal (c : CoreId) : Statement (.neighborRefusal c) := fun _ h => nomatch h

theorem tackCombine (r : CoreId) : Statement (.tackCombine r) := fun _ h => nomatch h

theorem idleTack (i : InstId) : Statement (.idleTack i) := fun _ h => nomatch h

theorem tackCapture (i : InstId) : Statement (.tackCapture i) := fun _ h => nomatch h

theorem tackRelease (c : CoreId) : Statement (.tackRelease c) := fun _ h => nomatch h

theorem darnSetReady (entries : List DarnWrite) : Statement (.darnSetReady entries) := fun _ h => nomatch h

theorem dmaTransferDone (c : CoreId) (ch : Fin 8) (hostData : List Byte) (hostError : Bool) : Statement (.dmaTransferDone c ch hostData hostError) := fun _ h => nomatch h

theorem pageWalkDone (c : CoreId) (ch : Fin 8) : Statement (.pageWalkDone c ch) := fun _ h => nomatch h

theorem candidateMerge (c : CoreId) : Statement (.candidateMerge c) := fun _ h => nomatch h

theorem draftAcceptMessage (i : InstId) (m : DraftMsg) : Statement (.draftAcceptMessage i m) := fun _ h => nomatch h

theorem draftMessage (i : InstId) (m : DraftMsg) : Statement (.draftMessage i m) := fun _ h => nomatch h

theorem dropMessage (i : InstId) (m : DraftMsg) : Statement (.dropMessage i m) := fun _ h => nomatch h

theorem swapOutCopyDone (sequence : Fin 65536) (entry : Nat) (ok : Bool) : Statement (.swapOutCopyDone sequence entry ok) := fun _ h => nomatch h

theorem swapInCopyDone (sequence : Fin 65536) (entry : Nat) (page : List Byte) (ok : Bool) : Statement (.swapInCopyDone sequence entry page ok) := fun _ h => nomatch h

theorem pageZeroDone (i : InstId) (page : Nat) : Statement (.pageZeroDone i page) := fun _ h => nomatch h

theorem generate (slot : SlotId) (r : ReqArgs) : Statement (.generate slot r) := fun _ h => nomatch h

theorem append (slot : SlotId) (r : ReqArgs) : Statement (.append slot r) := fun _ h => nomatch h

theorem truncate (slot : SlotId) (r : ReqArgs) : Statement (.truncate slot r) := fun _ h => nomatch h

theorem park (slot : SlotId) (r : ReqArgs) : Statement (.park slot r) := fun _ h => nomatch h

theorem release (slot : SlotId) (r : ReqArgs) : Statement (.release slot r) := fun _ h => nomatch h

theorem requestCancel (slot : SlotId) (r : ReqArgs) : Statement (.requestCancel slot r) := fun _ h => nomatch h

theorem sqTail (slot : SlotId) (value : Word64) : Statement (.sqTail slot value) := fun _ h => nomatch h

theorem cqHead (slot : SlotId) (value : Word64) : Statement (.cqHead slot value) := fun _ h => nomatch h

theorem ringCfgWrite (slot : SlotId) (completion base : Bool) (value : Word64) : Statement (.ringCfgWrite slot completion base value) := fun _ h => nomatch h

theorem interimCompletion (slot : SlotId) (key : Nat) : Statement (.interimCompletion slot key) := fun _ h => nomatch h

theorem frpSubmit (d : FrpDatagram) : Statement (.frpSubmit d) := fun _ h => nomatch h

theorem frpData (d : FrpDatagram) : Statement (.frpData d) := fun _ h => nomatch h

theorem frpAck (d : FrpDatagram) : Statement (.frpAck d) := fun _ h => nomatch h

theorem frpKeepalive (d : FrpDatagram) : Statement (.frpKeepalive d) := fun _ h => nomatch h

theorem frpAckDue (slot : SlotId) (assoc : Nat) : Statement (.frpAckDue slot assoc) := fun _ h => nomatch h

theorem frpRetransmit (slot : SlotId) (d : FrpSent) : Statement (.frpRetransmit slot d) := fun _ h => nomatch h

theorem frpAssocIdle (slot : SlotId) (assoc : Nat) : Statement (.frpAssocIdle slot assoc) := fun _ h => nomatch h

theorem frpRequestIncomplete (slot : SlotId) (key : Nat) : Statement (.frpRequestIncomplete slot key) := fun _ h => nomatch h

theorem dedupWindowExpiry (slot : SlotId) (key : Nat) : Statement (.dedupWindowExpiry slot key) := fun _ h => nomatch h

theorem irqCoalesce (slot : SlotId) : Statement (.irqCoalesce slot) := fun _ h => nomatch h

theorem form (i : InstId) : Statement (.form i) := fun _ h => nomatch h

theorem dissolve (i : InstId) : Statement (.dissolve i) := fun _ h => nomatch h

theorem load (i : InstId) : Statement (.load i) := fun _ h => nomatch h

theorem unload (i : InstId) : Statement (.unload i) := fun _ h => nomatch h

theorem instanceStop (i : InstId) : Statement (.instanceStop i) := fun _ h => nomatch h

theorem resume (i : InstId) : Statement (.resume i) := fun _ h => nomatch h

theorem clearFault (i : InstId) (muslin : List MuslinResult) : Statement (.clearFault i muslin) := fun _ h => nomatch h

theorem abortLoad (i : InstId) : Statement (.abortLoad i) := fun _ h => nomatch h

theorem instanceZeroingDone (i : InstId) : Statement (.instanceZeroingDone i) := fun _ h => nomatch h

theorem shardVerified (i : InstId) (shard : Fetched) : Statement (.shardVerified i shard) := fun _ h => nomatch h

theorem tileProgrammed (i : InstId) (tile : Nat) (ok : Bool) : Statement (.tileProgrammed i tile ok) := fun _ h => nomatch h

theorem recheckRound (i : InstId) : Statement (.recheckRound i) := fun _ h => nomatch h

theorem recheckShardDone (i : InstId) (shard : Nat) (refetched : Option (List Byte)) : Statement (.recheckShardDone i shard refetched) := fun _ h => nomatch h

theorem store (i : InstId) : Statement (.store i) := fun _ h => nomatch h

theorem deleteCmd (i : InstId) : Statement (.deleteCmd i) := fun _ h => nomatch h

theorem enable (slot : SlotId) : Statement (.enable slot) := fun _ h => nomatch h

theorem disable (slot : SlotId) : Statement (.disable slot) := fun _ h => nomatch h

theorem slotReset (slot : SlotId) : Statement (.slotReset slot) := fun _ h => nomatch h

theorem teardownSettle (slot : SlotId) : Statement (.teardownSettle slot) := fun _ h => nomatch h

theorem abortCompletionDiscard (slot : SlotId) : Statement (.abortCompletionDiscard slot) := fun _ h => nomatch h

theorem frpKeyWrite (slot : SlotId) (key : List Byte) : Statement (.frpKeyWrite slot key) := fun _ h => nomatch h

theorem altBindingWrite (slot : SlotId) (value : BitVec 16) : Statement (.altBindingWrite slot value) := fun _ h => nomatch h

theorem functionLevelReset (slot : SlotId) : Statement (.functionLevelReset slot) := fun _ h => nomatch h

theorem perst (n : PortId) : Statement (.perst n) := fun _ h => nomatch h

theorem perstRelease (n : PortId) (refclkPpm : Option Int) (rate : Nat) (width : Nat) : Statement (.perstRelease n refclkPpm rate width) := fun _ h => nomatch h

theorem vfEnableClear (n : PortId) : Statement (.vfEnableClear n) := fun _ h => nomatch h

theorem busMasterEnableSet (n : PortId) (fn : Fin 65) : Statement (.busMasterEnableSet n fn) := fun _ h => nomatch h

theorem msixUnmask (n : PortId) (fn : Fin 65) (vector : MsixVector) : Statement (.msixUnmask n fn vector) := fun _ h => nomatch h

theorem pcieLinkDown (n : PortId) : Statement (.pcieLinkDown n) := fun _ h => nomatch h

theorem refclkLoss (n : PortId) : Statement (.refclkLoss n) := fun _ h => nomatch h

theorem cplTimeout (c : CoreId) (ch : Fin 8) (moved : Nat) : Statement (.cplTimeout c ch moved) := fun _ h => nomatch h

theorem pcieRetrain (n : PortId) (refclkPpm : Option Int) (rate : Nat) (width : Nat) : Statement (.pcieRetrain n refclkPpm rate width) := fun _ h => nomatch h

theorem windowTableWrite (n : PortId) (entry : Fin 128) (word : Fin 4) (value : Word64) : Statement (.windowTableWrite n entry word value) := fun _ h => nomatch h

theorem swinWrite (slot : SlotId) (k : Fin 8) (size : Bool) (value : Word64) : Statement (.swinWrite slot k size value) := fun _ h => nomatch h

theorem mbxDoorbell (mb : SessId) (value : Word64) (m : ZMsg) : Statement (.mbxDoorbell mb value m) := fun _ h => nomatch h

theorem getVersion (n : PortId) : Statement (.getVersion n) := fun _ h => nomatch h

theorem getCapabilities (n : PortId) : Statement (.getCapabilities n) := fun _ h => nomatch h

theorem negotiateAlgorithms (n : PortId) (asym : List Nat) (hash : List Nat) : Statement (.negotiateAlgorithms n asym hash) := fun _ h => nomatch h

theorem getDigests (n : PortId) : Statement (.getDigests n) := fun _ h => nomatch h

theorem getCertificate (n : PortId) (certSlot : Nat) (offset : Nat) (length : Nat) : Statement (.getCertificate n certSlot offset length) := fun _ h => nomatch h

theorem challenge (n : PortId) (certSlot : Nat) (nonce : List Byte) : Statement (.challenge n certSlot nonce) := fun _ h => nomatch h

theorem getMeasurements (n : PortId) (block : Nat) (nonce : List Byte) : Statement (.getMeasurements n block nonce) := fun _ h => nomatch h

theorem ethFrameDiscard (e : EthId) : Statement (.ethFrameDiscard e) := fun _ h => nomatch h

theorem arp (e : EthId) (target : BitVec 32) : Statement (.arp e target) := fun _ h => nomatch h

theorem neighborDiscovery (e : EthId) (target : List Byte) : Statement (.neighborDiscovery e target) := fun _ h => nomatch h

theorem echo (e : EthId) (v6 : Bool) (target : List Byte) (payload : List Byte) : Statement (.echo e v6 target payload) := fun _ h => nomatch h

theorem ethLinkChange (e : EthId) (up : Bool) : Statement (.ethLinkChange e up) := fun _ h => nomatch h

theorem ethRetrain (e : EthId) (up : Bool) : Statement (.ethRetrain e up) := fun _ h => nomatch h

theorem dtlsHandshake (segment : Fin 2) (certDigest : List Byte) : Statement (.dtlsHandshake segment certDigest) := fun _ h => nomatch h

theorem dtlsIdleTimeout (session : Fin 16) : Statement (.dtlsIdleTimeout session) := fun _ h => nomatch h

theorem read (ses : SessId) (m : ZMsg) : Statement (.read ses m) := fun _ h => nomatch h

theorem write (ses : SessId) (m : ZMsg) : Statement (.write ses m) := fun _ h => nomatch h

theorem baste (ses : SessId) (m : ZMsg) : Statement (.baste ses m) := fun _ h => nomatch h

theorem commit (ses : SessId) (m : ZMsg) : Statement (.commit ses m) := fun _ h => nomatch h

theorem discard (ses : SessId) (m : ZMsg) : Statement (.discard ses m) := fun _ h => nomatch h

theorem basteTimeout (ses : SessId) : Statement (.basteTimeout ses) := fun _ h => nomatch h

theorem blobBufferTimeout (ses : SessId) : Statement (.blobBufferTimeout ses) := fun _ h => nomatch h

theorem subscribe (ses : SessId) (m : ZMsg) : Statement (.subscribe ses m) := fun _ h => nomatch h

theorem unsubscribe (ses : SessId) (m : ZMsg) : Statement (.unsubscribe ses m) := fun _ h => nomatch h

theorem notify (ses : SessId) (subscription : Nat) (queueFull : Bool) : Statement (.notify ses subscription queueFull) := fun _ h => nomatch h

theorem responseCacheExpiry (client : List Byte) (requestId : Nat) : Statement (.responseCacheExpiry client requestId) := fun _ h => nomatch h

theorem ptpMessage (segment : Fin 2) (m : PtpMsg) : Statement (.ptpMessage segment m) := fun _ h => nomatch h

theorem ptpSegmentSwitch : Statement .ptpSegmentSwitch := fun _ h => nomatch h

theorem ppsInEdge : Statement .ppsInEdge := fun _ h => nomatch h

theorem hbmPatrolScrub (st : StackId) (word : Nat) (found : Ecc) : Statement (.hbmPatrolScrub st word found) := fun _ h => nomatch h

theorem hbmTempRead (st : StackId) (temp : Int) : Statement (.hbmTempRead st temp) := fun _ h => nomatch h

theorem retrain (st : StackId) : Statement (.retrain st) := fun _ h => nomatch h

theorem hbmRetrainDone (st : StackId) : Statement (.hbmRetrainDone st) := fun _ h => nomatch h

theorem sbFuncWrite (p : PinId) (func : BitVec 8) : Statement (.sbFuncWrite p func) := fun _ h => nomatch h

theorem sbDetachEnd (p : PinId) : Statement (.sbDetachEnd p) := fun _ h => nomatch h

theorem sbAttach (p : PinId) : Statement (.sbAttach p) := fun _ h => nomatch h

theorem thermalAlertInput (p : PinId) : Statement (.thermalAlertInput p) := fun _ h => nomatch h

theorem resetIn (lowNs : Nat) : Statement (.resetIn lowNs) := fun _ h => nomatch h

theorem pwrEnChange (level : Bool) : Statement (.pwrEnChange level) := fun _ h => nomatch h

theorem tackIoEdge : Statement .tackIoEdge := fun _ h => nomatch h

theorem bypass : Statement .bypass := fun _ h => nomatch h

theorem idcode : Statement .idcode := fun _ h => nomatch h

theorem sample : Statement .sample := fun _ h => nomatch h

theorem preload (boundary : List Bool) : Statement (.preload boundary) := fun _ h => nomatch h

theorem extest : Statement .extest := fun _ h => nomatch h

theorem extestPulse : Statement .extestPulse := fun _ h => nomatch h

theorem extestTrain : Statement .extestTrain := fun _ h => nomatch h

theorem clamp : Statement .clamp := fun _ h => nomatch h

theorem debugAccess (c : CoreId) (op : DebugOp) : Statement (.debugAccess c op) := fun _ h => nomatch h

theorem trst : Statement .trst := fun _ h => nomatch h

theorem powerRequestOn (runTo : Fin 6) : Statement (.powerRequestOn runTo) := fun _ h => nomatch h

theorem powerRequestOff (runTo : Fin 6) : Statement (.powerRequestOff runTo) := fun _ h => nomatch h

theorem inputFaultTrip (past : Bool) (millivolts : Nat) : Statement (.inputFaultTrip past millivolts) := fun _ h => nomatch h

theorem tripRecovery : Statement .tripRecovery := fun _ h => nomatch h

theorem loadNotice (c : CoreId) : Statement (.loadNotice c) := fun _ h => nomatch h

theorem prebiasRelease (r : RegionId) : Statement (.prebiasRelease r) := fun _ h => nomatch h

theorem issueStop (r : RegionId) : Statement (.issueStop r) := fun _ h => nomatch h

theorem issueStopClear (r : RegionId) : Statement (.issueStopClear r) := fun _ h => nomatch h

theorem vminCrossing (r : RegionId) (step : Fin 64) : Statement (.vminCrossing r step) := fun _ h => nomatch h

theorem vminClear (r : RegionId) (present : Fin 64) : Statement (.vminClear r present) := fun _ h => nomatch h

theorem currentSample (r : RegionId) (milliamps : Nat) : Statement (.currentSample r milliamps) := fun _ h => nomatch h

theorem throttleUpdate (r : RegionId) (temp : Int) : Statement (.throttleUpdate r temp) := fun _ h => nomatch h

theorem tStop (r : RegionId) : Statement (.tStop r) := fun _ h => nomatch h

theorem thermalShutdown (r : RegionId) (temp : Int) : Statement (.thermalShutdown r temp) := fun _ h => nomatch h

theorem retentionEntry (i : InstId) : Statement (.retentionEntry i) := fun _ h => nomatch h

theorem ditherChip (p : PanelId) (power : Int) (rise : Int) : Statement (.ditherChip p power rise) := fun _ h => nomatch h

theorem rthStale (p : PanelId) (thirty : Bool) : Statement (.rthStale p thirty) := fun _ h => nomatch h

theorem regulatorFault (r : RegionId) : Statement (.regulatorFault r) := fun _ h => nomatch h

theorem mclkSet (khz : BitVec 32) : Statement (.mclkSet khz) := fun _ h => nomatch h

theorem hzModeWrite (mode : BitVec 8) : Statement (.hzModeWrite mode) := fun _ h => nomatch h

theorem retuneDone : Statement .retuneDone := fun _ h => nomatch h

theorem inputPowerUp (b : BringUp) : Statement (.inputPowerUp b) := fun _ h => nomatch h

theorem computeReset (muslin : List MuslinResult) (failedPanels : List PanelId) : Statement (.computeReset muslin failedPanels) := fun _ h => nomatch h

theorem mgCoreReset : Statement .mgCoreReset := fun _ h => nomatch h

theorem deviceReset : Statement .deviceReset := fun _ h => nomatch h

theorem mgWatchdogExpiry : Statement .mgWatchdogExpiry := fun _ h => nomatch h

theorem panelControllerFault (p : PanelId) (muslin : List MuslinResult) (selfTestFails : Bool) : Statement (.panelControllerFault p muslin selfTestFails) := fun _ h => nomatch h

theorem coreFaultReport (c : CoreId) (cause : Nat) : Statement (.coreFaultReport c cause) := fun _ h => nomatch h

theorem coreRetire (c : CoreId) : Statement (.coreRetire c) := fun _ h => nomatch h

theorem coreUnretire (c : CoreId) : Statement (.coreUnretire c) := fun _ h => nomatch h

theorem spareProgrammed (i : InstId) : Statement (.spareProgrammed i) := fun _ h => nomatch h

theorem recipeSelectWrite (i : InstId) (variants : List Byte) (fromMaster : Bool) : Statement (.recipeSelectWrite i variants fromMaster) := fun _ h => nomatch h

theorem precClear (i : InstId) (bits : BitVec 32) : Statement (.precClear i bits) := fun _ h => nomatch h

theorem ccCoreWrite (core : BitVec 16) : Statement (.ccCoreWrite core) := fun _ h => nomatch h

theorem ccClear : Statement .ccClear := fun _ h => nomatch h

theorem tmCoreWrite (core : BitVec 16) : Statement (.tmCoreWrite core) := fun _ h => nomatch h

theorem snapReq (i : InstId) : Statement (.snapReq i) := fun _ h => nomatch h

theorem alertClear (bits : BitVec 32) : Statement (.alertClear bits) := fun _ h => nomatch h

theorem acctClear (slot : SlotId) : Statement (.acctClear slot) := fun _ h => nomatch h

theorem join : Statement .join := fun _ h => nomatch h

theorem leave : Statement .leave := fun _ h => nomatch h

theorem swap : Statement .swap := fun _ h => nomatch h

theorem fwPass : Statement .fwPass := fun _ h => nomatch h

theorem seamTransferReceive (sm : SeamId) (t : SeamTransfer) : Statement (.seamTransferReceive sm t) := fun _ h => nomatch h

theorem seamTimeout (c : CoreId) (ch : Fin 8) : Statement (.seamTimeout c ch) := fun _ h => nomatch h

theorem seamRetrain (sm : SeamId) : Statement (.seamRetrain sm) := fun _ h => nomatch h

theorem tackRecord (r : TackRec) : Statement (.tackRecord r) := fun _ h => nomatch h

theorem cascadeRelease (r : ReleaseMsg) : Statement (.cascadeRelease r) := fun _ h => nomatch h

theorem timeMessage (masterTime : Nat) (pathDelay : Nat) : Statement (.timeMessage masterTime pathDelay) := fun _ h => nomatch h

theorem timeDistribute : Statement .timeDistribute := fun _ h => nomatch h

theorem swapRequest (requester : Fin 16) (target : Fin 16) : Statement (.swapRequest requester target) := fun _ h => nomatch h

theorem apertureData (sm : SeamId) (t : ApertureData) : Statement (.apertureData sm t) := fun _ h => nomatch h

theorem cascadeStepPlan (plan : List Byte) : Statement (.cascadeStepPlan plan) := fun _ h => nomatch h

theorem broadcastBlock (offset : Nat) (block : List Byte) : Statement (.broadcastBlock offset block) := fun _ h => nomatch h

theorem resendRequest (member : Fin 16) (r : ResendWhat) : Statement (.resendRequest member r) := fun _ h => nomatch h

theorem firmwareBlock (offset : Nat) (block : List Byte) : Statement (.firmwareBlock offset block) := fun _ h => nomatch h

theorem idleCascadeTack : Statement .idleCascadeTack := fun _ h => nomatch h

theorem ctackTimeout (group : Fin 16) (missing : Fin 16) : Statement (.ctackTimeout group missing) := fun _ h => nomatch h

theorem holdLimitExpiry (group : Fin 16) : Statement (.holdLimitExpiry group) := fun _ h => nomatch h

theorem masterLoss (reachable : List (Fin 16)) : Statement (.masterLoss reachable) := fun _ h => nomatch h

theorem bcastTimeout : Statement .bcastTimeout := fun _ h => nomatch h

theorem fwDataBlock (offset : Nat) (block : List Byte) : Statement (.fwDataBlock offset block) := fun _ h => nomatch h

theorem arm : Statement .arm := fun _ h => nomatch h

theorem disarm : Statement .disarm := fun _ h => nomatch h

theorem fwAbort : Statement .fwAbort := fun _ h => nomatch h

theorem confirm (role : Role) : Statement (.confirm role) := fun _ h => nomatch h

theorem fwCancel (role : Role) : Statement (.fwCancel role) := fun _ h => nomatch h

theorem activationCheck (others : List UploadView) : Statement (.activationCheck others) := fun _ h => nomatch h

theorem selfCancel : Statement .selfCancel := fun _ h => nomatch h

theorem fwActivate : Statement .fwActivate := fun _ h => nomatch h

theorem svnHoldExpiry : Statement .svnHoldExpiry := fun _ h => nomatch h

theorem keyCmd : Statement .keyCmd := fun _ h => nomatch h

theorem dbgChallenge : Statement .dbgChallenge := fun _ h => nomatch h

theorem dbgResponse (signature : List Byte) : Statement (.dbgResponse signature) := fun _ h => nomatch h

theorem recoveryImageBlock (offset : Nat) (block : List Byte) : Statement (.recoveryImageBlock offset block) := fun _ h => nomatch h

theorem imageComplete (i : InstId) (image : Fetched) : Statement (.imageComplete i image) := fun _ h => nomatch h

theorem swapSlotZeroDone (slot : SlotId) (swapSlot : Nat) : Statement (.swapSlotZeroDone slot swapSlot) := fun _ h => nomatch h

theorem hbmTimeout (c : CoreId) (ch : Fin 8) (moved : Nat) : Statement (.hbmTimeout c ch moved) := fun _ h => nomatch h

theorem pcieLinkUp (n : PortId) (rate : Nat) (width : Nat) : Statement (.pcieLinkUp n rate width) := fun _ h => nomatch h

theorem seamLinkUp (sm : SeamId) (peerSerial : Nat) (peerSeam : Fin 16) : Statement (.seamLinkUp sm peerSerial peerSeam) := fun _ h => nomatch h

theorem thermalAlertReleased (p : PinId) : Statement (.thermalAlertReleased p) := fun _ h => nomatch h

theorem endpointIdAssigned (eid : Byte) : Statement (.endpointIdAssigned eid) := fun _ h => nomatch h

end Sys2Proof.Laws.Format
end

