-- ==== Sys2Proof/WellFormed.lean ====
section
/-! DEFINITION. Which commands are well formed: every operand that the syntax holds as a number or a byte string keeps the
width or the length that the spec gives its field. Operands of a fixed type need no check. -/

namespace Sys2Proof

/-- A number fits a field of w bits. -/
def below (n w : Nat) : Bool := decide (n < 2 ^ w)
/-- A byte string is at most n bytes long. -/
def fits (b : List Byte) (n : Nat) : Bool := decide (b.length ≤ n)

/-- Draft tokens are 32-bit numbers (R314). -/
def DraftMsg.wf (m : DraftMsg) : Bool := m.tokens.all fun t => below t 32

/-- A parameter block's fields, and counts of its lists (R305). -/
def ParamBlock.wf (p : ParamBlock) : Bool :=
  below p.topK 16 && below p.penaltyWindow 16 && below p.stopTokens.length 8 && below p.stopSeqs.length 8 &&
    below p.biases.length 16 && fits p.mask 32768

/-- A submission entry's fields (R288). -/
def SubEntry.wf (e : SubEntry) : Bool :=
  below e.key 64 && below e.inputCount 32 && below e.maxNew 32 && below e.outputCap 32 && below e.maxContext 32 &&
    below e.pinnedLen 32 && below e.streamEvery 16

/-- A request as read. -/
def ReqArgs.wf (r : ReqArgs) : Bool :=
  r.e.wf && r.tokens.all (fun t => below t 32) && match r.params with
    | some p => p.wf
    | none => true

/-- A datagram's fields (R293). -/
def FrpDatagram.wf (d : FrpDatagram) : Bool :=
  below d.version 8 && below d.slot 16 && below d.assoc 32 && below d.seq 64 && below d.ack 64 && d.tag.length == 16 &&
    below d.opcode 8 && below d.key 64 && below d.part 32 && below d.offset 32 && d.tokens.all (fun t => below t 32) &&
    fits d.data 8944 && match d.entry with
      | some e => e.wf
      | none => true

/-- A Zwiys message's fields (R398). -/
def ZMsg.wf (m : ZMsg) : Bool :=
  below m.version 8 && below m.op 8 && below m.status 8 && below m.index 16 && below m.sub 8 && below m.type 8 &&
    below m.offset 32 && below m.length 16 && below m.reserved 16 && below m.total 32 && fits m.payload 1024

/-- A PTP message's fields (R381). -/
def PtpMsg.wf (m : PtpMsg) : Bool := below m.time 64 && below m.domain 8

/-- A seam transfer's fields (R477). -/
def SeamTransfer.wf (t : SeamTransfer) : Bool :=
  below t.type 8 && below t.src 8 && below t.dst 8 && below t.hops 8 && fits t.payload 4096

/-- A tack record's fields (R490). -/
def TackRec.wf (r : TackRec) : Bool := r.cfgDigest.length == 48 && below r.fwVersion 32 && below r.time 64 && below r.step 64

/-- A member's upload entries (R510). -/
def UploadView.wf (v : UploadView) : Bool := below v.fwState 8 && below v.activateAt 64 && v.imageDigest.length == 48

/-- The command is well formed. -/
def Instr.wf : Instr → Bool
  | .nop .. => true
  | .halt .. => true
  | .br .. => true
  | .brr .. => true
  | .callI .. => true
  | .ret .. => true
  | .loopI .. => true
  | .brk .. => true
  | .add .. => true
  | .sub .. => true
  | .mul .. => true
  | .andI .. => true
  | .orI .. => true
  | .xorI .. => true
  | .shl .. => true
  | .shr .. => true
  | .sra .. => true
  | .min .. => true
  | .max .. => true
  | .minu .. => true
  | .maxu .. => true
  | .cmpeq .. => true
  | .cmplt .. => true
  | .cmpltu .. => true
  | .mov .. => true
  | .sld .. => true
  | .sst .. => true
  | .mmv .. => true
  | .bflush .. => true
  | .bzero .. => true
  | .csum .. => true
  | .ectlw .. => true
  | .fld .. => true
  | .fst .. => true
  | .fcvt .. => true
  | .fadd .. => true
  | .fsub .. => true
  | .fmul .. => true
  | .ffma .. => true
  | .fmin .. => true
  | .fmax .. => true
  | .fcmp .. => true
  | .fneg .. => true
  | .fabs .. => true
  | .fcvtb .. => true
  | .funp .. => true
  | .frcp .. => true
  | .fsqrt .. => true
  | .frsq .. => true
  | .fexp .. => true
  | .fexp2 .. => true
  | .flog .. => true
  | .flog2 .. => true
  | .fact .. => true
  | .fsum .. => true
  | .fdot .. => true
  | .frms .. => true
  | .flnorm .. => true
  | .fquant .. => true
  | .falt .. => true
  | .fqk .. => true
  | .fsmx .. => true
  | .fpv .. => true
  | .femb .. => true
  | .qpush .. => true
  | .pwalk .. => true
  | .qwait .. => true
  | .qexp .. => true
  | .nget .. => true
  | .nput .. => true
  | .rget .. => true
  | .rput .. => true
  | .mcast .. => true
  | .rsend .. => true
  | .tack .. => true
  | .fenceI .. => true
  | .waitI .. => true
  | .noteI .. => true
  | .gown .. => true
  | .ctop .. => true
  | .csend .. => true
  | .spick .. => true
  | .sacc .. => true
  | .trapDrainEnd .. => true
  | .tackOverdue .. => true
  | .enginePass .. => true
  | .boltSetPost .. => true
  | .boltZero .. => true
  | .checkRead .. => true
  | .scrubCheckRead .. => true
  | .goldenFetchDone _ _ hostImage => fits hostImage 13824
  | .goldenFetchRetry .. => true
  | .gussetCopyVerified .. => true
  | .reprogramVerified .. => true
  | .eventQueueDrain .. => true
  | .fcWeightFetchDone _ _ hostImage => fits hostImage 13824
  | .fcRecompute .. => true
  | .fcDeadline .. => true
  | .scratchpadScrub .. => true
  | .granuleZero .. => true
  | .flitReceive _ _ bursts _ => decide (bursts.length ≤ 2)
  | .replayRequest .. => true
  | .routerFail .. => true
  | .packetRoute .. => true
  | .multicastDelivery .. => true
  | .reductionCombine .. => true
  | .remoteRequest .. => true
  | .remoteResponse .. => true
  | .rqTimeout .. => true
  | .neighborRefusal .. => true
  | .tackCombine .. => true
  | .idleTack .. => true
  | .tackCapture .. => true
  | .tackRelease .. => true
  | .darnSetReady .. => true
  | .dmaTransferDone _ _ hostData _ => fits hostData (2 ^ 24)
  | .pageWalkDone .. => true
  | .candidateMerge .. => true
  | .draftAcceptMessage _ m => m.wf
  | .draftMessage _ m => m.wf
  | .dropMessage _ m => m.wf
  | .swapOutCopyDone _ entry _ => below entry 16
  | .swapInCopyDone _ entry page _ => below entry 16 && fits page 65536
  | .pageZeroDone _ page => below page 32
  | .generate _ r => r.wf
  | .append _ r => r.wf
  | .truncate _ r => r.wf
  | .park _ r => r.wf
  | .release _ r => r.wf
  | .requestCancel _ r => r.wf
  | .sqTail .. => true
  | .cqHead .. => true
  | .ringCfgWrite .. => true
  | .interimCompletion _ key => below key 64
  | .frpSubmit d => d.wf
  | .frpData d => d.wf
  | .frpAck d => d.wf
  | .frpKeepalive d => d.wf
  | .frpAckDue _ assoc => below assoc 32
  | .frpRetransmit _ d => below d.assoc 32 && below d.seq 64
  | .frpAssocIdle _ assoc => below assoc 32
  | .frpRequestIncomplete _ key => below key 64
  | .dedupWindowExpiry _ key => below key 64
  | .irqCoalesce .. => true
  | .form .. => true
  | .dissolve .. => true
  | .load .. => true
  | .unload .. => true
  | .instanceStop .. => true
  | .resume .. => true
  | .clearFault .. => true
  | .abortLoad .. => true
  | .instanceZeroingDone .. => true
  | .shardVerified _ shard => fits shard.bytes (2 ^ 38)
  | .tileProgrammed .. => true
  | .recheckRound .. => true
  | .recheckShardDone _ _ refetched => refetched.all fun b => fits b (2 ^ 38)
  | .store .. => true
  | .deleteCmd .. => true
  | .enable .. => true
  | .disable .. => true
  | .slotReset .. => true
  | .teardownSettle .. => true
  | .abortCompletionDiscard .. => true
  | .frpKeyWrite _ key => key.length == 32
  | .altBindingWrite .. => true
  | .functionLevelReset .. => true
  | .perst .. => true
  | .perstRelease .. => true
  | .vfEnableClear .. => true
  | .busMasterEnableSet .. => true
  | .msixUnmask .. => true
  | .pcieLinkDown .. => true
  | .refclkLoss .. => true
  | .cplTimeout .. => true
  | .pcieRetrain .. => true
  | .windowTableWrite .. => true
  | .swinWrite .. => true
  | .mbxDoorbell _ _ m => m.wf
  | .getVersion .. => true
  | .getCapabilities .. => true
  | .negotiateAlgorithms .. => true
  | .getDigests .. => true
  | .getCertificate .. => true
  | .challenge _ _ nonce => nonce.length == 32
  | .getMeasurements _ _ nonce => nonce.length == 32
  | .ethFrameDiscard .. => true
  | .arp .. => true
  | .neighborDiscovery _ target => target.length == 16
  | .echo _ v6 target _ => target.length == (if v6 then 16 else 4)
  | .ethLinkChange .. => true
  | .ethRetrain .. => true
  | .dtlsHandshake _ certDigest => certDigest.length == 48
  | .dtlsIdleTimeout .. => true
  | .read _ m => m.wf
  | .write _ m => m.wf
  | .baste _ m => m.wf
  | .commit _ m => m.wf
  | .discard _ m => m.wf
  | .basteTimeout .. => true
  | .blobBufferTimeout .. => true
  | .subscribe _ m => m.wf
  | .unsubscribe _ m => m.wf
  | .notify _ subscription _ => below subscription 32
  | .responseCacheExpiry client requestId => client.length == 48 && below requestId 32
  | .ptpMessage _ m => m.wf
  | .ptpSegmentSwitch => true
  | .ppsInEdge => true
  | .hbmPatrolScrub _ word _ => below word 33
  | .hbmTempRead .. => true
  | .retrain .. => true
  | .hbmRetrainDone .. => true
  | .sbFuncWrite .. => true
  | .sbDetachEnd .. => true
  | .sbAttach .. => true
  | .thermalAlertInput .. => true
  | .resetIn .. => true
  | .pwrEnChange .. => true
  | .tackIoEdge => true
  | .bypass => true
  | .idcode => true
  | .sample => true
  | .preload .. => true
  | .extest => true
  | .extestPulse => true
  | .extestTrain => true
  | .clamp => true
  | .debugAccess .. => true
  | .trst => true
  | .powerRequestOn .. => true
  | .powerRequestOff .. => true
  | .inputFaultTrip .. => true
  | .tripRecovery => true
  | .loadNotice .. => true
  | .prebiasRelease .. => true
  | .issueStop .. => true
  | .issueStopClear .. => true
  | .vminCrossing .. => true
  | .vminClear .. => true
  | .currentSample .. => true
  | .throttleUpdate .. => true
  | .tStop .. => true
  | .thermalShutdown .. => true
  | .retentionEntry .. => true
  | .ditherChip .. => true
  | .rthStale .. => true
  | .regulatorFault .. => true
  | .mclkSet .. => true
  | .hzModeWrite .. => true
  | .retuneDone => true
  | .inputPowerUp .. => true
  | .computeReset .. => true
  | .mgCoreReset => true
  | .deviceReset => true
  | .mgWatchdogExpiry => true
  | .panelControllerFault .. => true
  | .coreFaultReport .. => true
  | .coreRetire .. => true
  | .coreUnretire .. => true
  | .spareProgrammed .. => true
  | .recipeSelectWrite _ variants _ => fits variants 1024
  | .precClear .. => true
  | .ccCoreWrite .. => true
  | .ccClear => true
  | .tmCoreWrite .. => true
  | .snapReq .. => true
  | .alertClear .. => true
  | .acctClear .. => true
  | .join => true
  | .leave => true
  | .swap => true
  | .fwPass => true
  | .seamTransferReceive _ t => t.wf
  | .seamTimeout .. => true
  | .seamRetrain .. => true
  | .tackRecord r => r.wf
  | .cascadeRelease .. => true
  | .timeMessage masterTime _ => below masterTime 64
  | .timeDistribute => true
  | .swapRequest .. => true
  | .apertureData _ t => fits t.data 4096
  | .cascadeStepPlan .. => true
  | .broadcastBlock offset block => below offset 64 && fits block 4096
  | .resendRequest .. => true
  | .firmwareBlock offset block => below offset 32 && fits block 4096
  | .idleCascadeTack => true
  | .ctackTimeout .. => true
  | .holdLimitExpiry .. => true
  | .masterLoss reachable => decide (reachable.length ≤ 16)
  | .bcastTimeout => true
  | .fwDataBlock offset block => below offset 32 && fits block 1024
  | .arm => true
  | .disarm => true
  | .fwAbort => true
  | .confirm .. => true
  | .fwCancel .. => true
  | .activationCheck others => others.all UploadView.wf
  | .selfCancel => true
  | .fwActivate => true
  | .svnHoldExpiry => true
  | .keyCmd => true
  | .dbgChallenge => true
  | .dbgResponse signature => signature.length == 96
  | .recoveryImageBlock offset block => below offset 32 && fits block 1024
  | .imageComplete _ image => fits image.bytes (2 ^ 40)
  | .swapSlotZeroDone _ swapSlot => below swapSlot 24
  | .hbmTimeout .. => true
  | .pcieLinkUp .. => true
  | .seamLinkUp _ peerSerial _ => below peerSerial 64
  | .thermalAlertReleased .. => true
  | .endpointIdAssigned .. => true

end Sys2Proof
end

