-- ==== Sys2Proof/Tests/Slice0.lean ====
section
/-! SUPPORT. Tests: an ill-formed command for each check of well-formedness, instruction words written out from the
encodings of R169-R177, and, for every statement of Obligations.lean with hypotheses, states and operands that meet them,
one group for each clause. -/

namespace Sys2Proof.Tests

open Sys2Proof.Machine

set_option maxRecDepth 100000
set_option Elab.async false

/-! ## Small states and operands -/


/-- A running core of instance 0 with all of both windows. -/
def core0 : Core := { run := .running, inst := some 0, hemLimit := 0x02000080 }
/-- The state after reset with core 0 as given. -/
def onCore (k : Core) : State := State.reset.setCore 0 k
/-- Registers by specifier. -/
def regsOf (l : List (Nat × Nat)) : Map Word := l.map fun p => (p.1, BitVec.ofNat 32 p.2)
/-- Guard p0. -/
def g0 : Guard := ⟨0, 0⟩
def ctl0 : CtlF := ⟨0, 0, 0⟩
def eng0 : EngF := ⟨0, 0, 0, 0, 0, 0⟩
def fin0 : FinF := ⟨0, 0, 0, 0, 0, 0, 0, 0, 0, 0, 0, 0, 0⟩
def mov0 : MovF := ⟨0, 0, 0, 0, 0, 0, 0, 0, 0, 0, 0⟩
def sync0 : SyncF := ⟨0, 0, 0, 0⟩
def samp0 : SampF := ⟨0, 0, 0, 0, 0, 0, 0⟩

/-- A core with tile 3 (one block, SW4) in every engine and room for its elements and scales. -/
def coreE : Core := { core0 with
  regs := regsOf [(0x20, 0), (0x21, 0x1000), (1, 3)]
  eng := (List.range 8).map fun e => (e, { tdesc := [(3, 0x80000008)] }) }
/-- FP32 1.0, -2.5, infinity and a subnormal in the first lanes. -/
def fregA : BitVec 4096 := BitVec.ofNat 4096 (fromLanes 32 [0x3F800000, 0xC0200000, 0x7F800000, 0x00000001, 0x41234567, 0xC2C80000])
def fregB : BitVec 4096 := BitVec.ofNat 4096 (fromLanes 32 [0x40000000, 0x3FC00000, 0xFF800000, 0x80000003, 0x3DCCCCCD, 0x7FC00000])
def fregC : BitVec 4096 := BitVec.ofNat 4096 (fromLanes 32 [0x3F800000, 0x3F000000, 0x3F800000, 0x40490FDB])
/-- A core with finisher registers, wide-window addresses and bytes in the wide window. -/
def coreF : Core := { core0 with
  regs := regsOf [(0x20, 0x800000), (0x21, 0x800400), (0x22, 0x800600), (0x24, 0x40), (0x25, 0x2000)]
  fregs := [(1, fregA), (2, fregB), (3, fregC)], ftaint := 4
  sp := (List.range 700).map fun j => (4194304 + j, BitVec.ofNat 8 (1 + j % 200)) }
/-- A bolt set of 64 bolts. -/
def boltsA : List Bolt := (List.range 64).map fun j => { value := BitVec.ofInt 64 ((j : Int) * 1000 - 3), exc := j == 3 }
/-- A core with the given entries in queue 2. -/
def coreQ (kinds : List QKind) : Core := { core0 with
  regs := regsOf [(0x20, 0x800000), (0x21, 0x800040), (1, 1), (2, 0x80)], nextId := 5
  queues := [(2, kinds.mapIdx fun j x => ⟨j, x⟩)] }
/-- A descriptor: 64 bytes from HBM address 0 to wide offset 0x1000, tag 0x77, queue 3. -/
def coreD (w0 w1 w2 w3 : Nat) : Core := { coreQ [] with
  sp := memWrite [] 4194304 (leBytes 8 w0 ++ leBytes 8 w1 ++ leBytes 8 w2 ++ leBytes 8 w3) }
/-- `coreD` on a state whose instance 0 holds panel 0. -/
def stD (w0 w1 w2 w3 : Nat) : State := (onCore (coreD w0 w1 w2 w3)).setInst 0 { panels := [0] }
/-- Two adjacent cores of instance 0, the first bound to the second in direction 1. -/
def stN (fenced : Bool) : State :=
  (onCore { coreF with nbind := [(1, 0x101)] }).setCore 1 { coreF with fenced := fenced, sp := [(4194304, 9), (4194559, 3)] }
/-- Translation of data address (0, 1) to core 1. -/
def stR (k : Core) : State := (onCore k).setRouter 0 { trans := [(1, 0x8001)] }
/-- A plan with one verification row at sample slot 0. -/
def planV : Plan := { samples := [(0, 0, 7)], rows := [⟨7, 1, 5, 0, 2, 0, 0, 0⟩] }
/-- A core whose engine 0 repairs tile 3 in the given step; the gusset holds a copy when asked. -/
def coreR (step : RepairStep) (gusset copy : Bool) (td : Nat) : Core := { core0 with
  eng := [(0, { tdesc := [(3, td)], held := some ⟨3, some 0, 0⟩, repairs := [⟨3, step, gusset, true, [1, 2, 3]⟩] })] ++
    (if copy then [(8, { copies := [⟨0, 3, [1], false, false, []⟩], stat := 64 })] else []) }
def repR (step : RepairStep) (gusset : Bool) : Repair := ⟨3, step, gusset, true, [1, 2, 3]⟩
/-- A fitting-check sample in side slot 0, its pass ended. -/
def sampleF (ref : Option (List (BitVec 32))) (th : Nat) : FcSample :=
  { engine := 0, tile := 3, pass := 0, layer := 0, variant := 0, threshold := th, diff := some ([5], 0), ref := ref }
def coreS (ref : Option (List (BitVec 32))) (th td : Nat) : Core := { core0 with
  eng := [(0, { tdesc := [(3, td)] })], side := [(0, some (sampleF ref th))] }
/-- A state with one packet at the N input of router 0. -/
def stP (p : Packet) (k : Core) : State := (onCore k).setRouter 0 { inq := [(0, p)] }
/-- An instance 0 that is Serving on panel 0 with core 0. -/
def stI (x : Inst) (k : Core) : State := ((onCore k).setInst 0 x).wr (K.instState 0) 3
/-- Write numeric entries. -/
def wrs (s : State) (l : List (Nat × Nat)) : State := l.foldl (fun s p => s.wr p.1 p.2) s
/-- Port 0 linked, its functions enabled, a swap window of slot 0, slot 0 Enabled for rings on instance 0, its ring of
64 entries with one waiting. -/
def stH : State := wrs { State.reset with
    fns := [(0, { bme := true, vfEnable := true, numVfs := 64, msixEn := true, unmasked := 0xFFFF }), (1, { bme := true, msixEn := true, unmasked := 0xFFFF })]
    winTab := [(0, 0x1000000), (1, 0x40000000), (2, 0x8000 + 0xC00)]
    swin := [(0, 0x1001), (1, 0x100000)]
    slots := [(0, { sq := { enable := true, sizeLog2 := 6, tail := 1 }, cq := { enable := true, sizeLog2 := 6 } })]
    insts := [(0, { panels := [0] })] }
  [(K.pcieRate 0, 6), (K.slotState 0, 1), (K.slotInstance 0, 0), (K.transport 0, 3), (K.instState 0, 3), (K.swapSlots 0, 16),
   (K.seqLimit 0, 16), (K.modelContext 0, 4096), (K.dedupEntries, 100), (K.swapBase 0, 0)]
def entryA : SubEntry := ⟨1, 0, 77, 0x8000000000000000, 2, 4, 0x8000000000000040, 4, 64, 0x8000000000001000, 0, 0, 0, 0⟩
def paramsA : ParamBlock := ⟨0, 0x3F800000, 0, 0x3F800000, 0, 0, 0, 0, 0, true, [], [], [], []⟩
def reqA : ReqArgs := ⟨.ring, entryA, [5, 6], some paramsA⟩
def ddesc0 : DDesc := ⟨0, 0, 1, 0, false, 9, 64, 0, 0x800000, 2, 0, [], 0⟩

/-- The readiness of core c, as a test that runs. -/
def ready (s : State) (c : CoreId) (g : Guard) : Bool :=
  s.mayIssue c.val && decide ((s.core c.val).nbrArrived = []) && decide ((s.core c.val).pc ∉ (s.core c.val).istoreBad) &&
    guardLegal g && guardHolds g (s.core c.val)

theorem ready_of (s : State) (c : CoreId) (g : Guard) (h : ready s c g = true) : s.Ready c g := by
  simp only [ready, Bool.and_eq_true, decide_eq_true_eq] at h
  exact ⟨h.1.1.1.1, h.1.1.1.2, h.1.1.2, h.1.2, h.2⟩

/-! ## Well-formedness -/

def z0 : ZMsg := ⟨1, 1, 0, 0, 0, 0xA060, 4, 0, 0, 0, 0, 0, []⟩
def frp0 : FrpDatagram := ⟨0, 1, 0, 0, 0, 0, 0, [], [], List.replicate 16 0, 0, none, [], 0, 0, 0, []⟩
def seam0 : SeamTransfer := ⟨3, 0, true, none, 0, false, 1, 0, 0, 0, 0, false, []⟩
def rec0 : TackRec := ⟨0, List.replicate 48 0, 0, 0, 0, 0, 0⟩
def view0 : UploadView := ⟨0, true, 0, 0, List.replicate 48 0⟩

theorem test_wf_accepts :
    [Instr.draftMessage 0 ⟨0, 0, 0, 0, 0, [7]⟩, .generate 0 reqA, .frpAck frp0, .read (.mctp 0) z0, .ptpMessage 0 ⟨0, 0, 0, 0⟩,
     .seamTransferReceive 0 seam0, .tackRecord rec0, .activationCheck [view0]].all Instr.wf = true := by decide +kernel

theorem test_wf_draft_token_32_bits : (Instr.draftMessage 0 ⟨0, 0, 0, 0, 0, [2 ^ 32]⟩).wf = false := by decide +kernel
theorem test_wf_draft_accept_token : (Instr.draftAcceptMessage 0 ⟨0, 0, 0, 0, 0, [2 ^ 32]⟩).wf = false := by decide +kernel
theorem test_wf_drop_message : (Instr.dropMessage 0 ⟨0, 0, 0, 0, 0, [2 ^ 32]⟩).wf = false := by decide +kernel

theorem test_wf_request_fields :
    [Instr.generate 0 { reqA with e := { entryA with key := 2 ^ 64 } }, .append 0 { reqA with e := { entryA with inputCount := 2 ^ 32 } },
     .truncate 0 { reqA with e := { entryA with maxNew := 2 ^ 32 } }, .park 0 { reqA with e := { entryA with outputCap := 2 ^ 32 } },
     .release 0 { reqA with e := { entryA with maxContext := 2 ^ 32 } },
     .requestCancel 0 { reqA with e := { entryA with pinnedLen := 2 ^ 32 } },
     .generate 0 { reqA with e := { entryA with streamEvery := 2 ^ 16 } }, .generate 0 { reqA with tokens := [2 ^ 32] }].all
      (fun i => !i.wf) = true := by decide +kernel

theorem test_wf_parameter_block :
    [{ paramsA with topK := 2 ^ 16 }, { paramsA with penaltyWindow := 2 ^ 16 }, { paramsA with stopTokens := List.replicate 256 0 },
     { paramsA with stopSeqs := List.replicate 256 [] }, { paramsA with biases := List.replicate 65536 (0, 0) },
     { paramsA with mask := List.replicate 32769 0 }].all
      (fun p => !(Instr.generate 0 { reqA with params := some p }).wf) = true := by decide +kernel

theorem test_wf_datagram_fields :
    [{ frp0 with version := 256 }, { frp0 with slot := 2 ^ 16 }, { frp0 with assoc := 2 ^ 32 }, { frp0 with seq := 2 ^ 64 },
     { frp0 with ack := 2 ^ 64 }, { frp0 with tag := [] }, { frp0 with opcode := 256 }, { frp0 with key := 2 ^ 64 },
     { frp0 with part := 2 ^ 32 }, { frp0 with offset := 2 ^ 32 }, { frp0 with tokens := [2 ^ 32] },
     { frp0 with entry := some { entryA with key := 2 ^ 64 } }, { frp0 with data := List.replicate 8945 0 }].all
      (fun d => !(Instr.frpSubmit d).wf && !(Instr.frpData d).wf && !(Instr.frpAck d).wf && !(Instr.frpKeepalive d).wf) = true := by
  decide +kernel

theorem test_wf_zwiys_fields :
    [{ z0 with version := 256 }, { z0 with op := 256 }, { z0 with status := 256 }, { z0 with index := 2 ^ 16 }, { z0 with sub := 256 },
     { z0 with type := 256 }, { z0 with offset := 2 ^ 32 }, { z0 with length := 2 ^ 16 }, { z0 with reserved := 2 ^ 16 },
     { z0 with total := 2 ^ 32 }, { z0 with payload := List.replicate 1025 0 }].all
      (fun m => !(Instr.read (.mctp 0) m).wf && !(Instr.write (.mctp 0) m).wf && !(Instr.baste (.mctp 0) m).wf &&
        !(Instr.commit (.mctp 0) m).wf && !(Instr.discard (.mctp 0) m).wf && !(Instr.subscribe (.mctp 0) m).wf &&
        !(Instr.unsubscribe (.mctp 0) m).wf && !(Instr.mbxDoorbell (.pf 0) 1 m).wf) = true := by decide +kernel

theorem test_wf_ptp_fields :
    (Instr.ptpMessage 0 ⟨0, 2 ^ 64, 0, 0⟩).wf = false ∧ (Instr.ptpMessage 0 ⟨0, 0, 0, 256⟩).wf = false := by decide +kernel

theorem test_wf_seam_transfer_fields :
    [{ seam0 with type := 256 }, { seam0 with src := 256 }, { seam0 with dst := 256 }, { seam0 with hops := 256 },
     { seam0 with payload := List.replicate 4097 0 }].all (fun t => !(Instr.seamTransferReceive 0 t).wf) = true := by decide +kernel

theorem test_wf_tack_record_and_upload_view :
    [{ rec0 with cfgDigest := [] }, { rec0 with fwVersion := 2 ^ 32 }, { rec0 with time := 2 ^ 64 }, { rec0 with step := 2 ^ 64 }].all
      (fun r => !(Instr.tackRecord r).wf) = true ∧
    [{ view0 with fwState := 256 }, { view0 with activateAt := 2 ^ 64 }, { view0 with imageDigest := [] }].all
      (fun v => !(Instr.activationCheck [v]).wf) = true := by decide +kernel

theorem test_wf_lengths :
    [Instr.goldenFetchDone 0 0 (List.replicate 13825 0), .fcWeightFetchDone 0 0 (List.replicate 13825 0),
     .flitReceive 0 ⟨false, false⟩ [⟨0, 0⟩, ⟨0, 0⟩, ⟨0, 0⟩] true, .frpKeyWrite 0 [], .challenge 0 0 [], .getMeasurements 0 0 [],
     .neighborDiscovery 0 [], .echo 0 true [1, 2, 3, 4] [], .echo 0 false [] [], .dtlsHandshake 0 [],
     .recipeSelectWrite 0 (List.replicate 1025 0) false, .apertureData 0 ⟨0, 0, 0, false, List.replicate 4097 0⟩,
     .masterLoss (List.replicate 17 0), .fwDataBlock 0 (List.replicate 1025 0), .broadcastBlock 0 (List.replicate 4097 0),
     .firmwareBlock 0 (List.replicate 4097 0), .recoveryImageBlock 0 (List.replicate 1025 0), .dbgResponse [],
     .swapInCopyDone 0 0 (List.replicate 65537 0) true].all (fun i => !i.wf) = true := by decide +kernel

theorem test_wf_widths :
    [Instr.swapOutCopyDone 0 (2 ^ 16) true, .swapInCopyDone 0 (2 ^ 16) [] true, .pageZeroDone 0 (2 ^ 32), .interimCompletion 0 (2 ^ 64),
     .frpAckDue 0 (2 ^ 32), .frpRetransmit 0 ⟨2 ^ 32, 0⟩, .frpRetransmit 0 ⟨0, 2 ^ 64⟩, .frpAssocIdle 0 (2 ^ 32), .frpRequestIncomplete 0 (2 ^ 64),
     .dedupWindowExpiry 0 (2 ^ 64), .notify (.mctp 0) (2 ^ 32) false, .responseCacheExpiry [] 0,
     .responseCacheExpiry (List.replicate 48 0) (2 ^ 32), .hbmPatrolScrub 0 (2 ^ 33) .single, .timeMessage (2 ^ 64) 0,
     .broadcastBlock (2 ^ 64) [], .firmwareBlock (2 ^ 32) [], .fwDataBlock (2 ^ 32) [],
     .swapSlotZeroDone 0 (2 ^ 24), .seamLinkUp 0 (2 ^ 64) 0, .recoveryImageBlock (2 ^ 32) []].all (fun i => !i.wf) = true := by decide +kernel

/-- Byte strings too long to write out. -/
theorem test_wf_long_strings (b : List Byte) (h : 2 ^ 40 < b.length) :
    (Instr.dmaTransferDone 0 0 b true).wf = false ∧ (Instr.shardVerified 0 ⟨b, .done⟩).wf = false ∧
    (Instr.recheckShardDone 0 0 (some b)).wf = false ∧ (Instr.imageComplete 0 ⟨b, .done⟩).wf = false := by
  simp [Instr.wf, fits]
  omega

/-! ## Instruction words, written out from R169-R177: opcode, gn, gp, then the format's fields in order -/

/-- BR with rs 0 and imm32 −2 under guard !p2. -/
theorem test_word_br : decodeIdmor 0 0b00000010_1_010_000000_00000000000000_11111111111111111111111111111110 =
    some (.br 0 ⟨1, 2⟩ ⟨0, 0, 0xFFFFFFFE⟩) := by decide +kernel
/-- LOOP of r5 iterations to pc + 7. -/
theorem test_word_loop : decodeIdmor 0 0b00000110_0_000_000101_00000000000000_00000000000000000000000000000111 =
    some (.loopI 0 ⟨0, 0⟩ ⟨5, 0, 7⟩) := by decide +kernel
/-- ADD r3 := r1 + r2. -/
theorem test_word_add : decodeIdmor 0 0b00100000_0_000_000011_000001_000010_0_0_00000000000000000000000000000000 =
    some (.add 0 ⟨0, 0⟩ ⟨3, 1, 2, 0, 0, 0⟩) := by decide +kernel
/-- MMV: emask 0x85, tile 3, a0, a1, queue 0, imm24 0. -/
theorem test_word_mmv : decodeIdmor 0 0b01000000_0_000_10000101_000000011_0000_0001_000_000000000000000000000000 =
    some (.mmv 0 ⟨0, 0⟩ ⟨0x85, 3, 0, 1, 0, 0⟩) := by decide +kernel
/-- FFMA f4 := f1 × f2 + f3. -/
theorem test_word_ffma : decodeIdmor 0 0b01100110_0_000_000100_000001_000010_000011_00_000000000_0000_0000_000_0_0_0_000 =
    some (.ffma 0 ⟨0, 0⟩ { fin0 with fd := 4, fs1 := 1, fs2 := 2, fs3 := 3 }) := by decide +kernel
/-- QWAIT queue 2 into r4 and r5, tolerant. -/
theorem test_word_qwait : decodeIdmor 0 0b10100010_0_000_010_000_0000_0000_000100_000000_00_0_1_000101_0000000000000000 =
    some (.qwait 0 ⟨0, 0⟩ { mov0 with qa := 2, rx := 4, ry := 5, tol := 1 }) := by decide +kernel
/-- GOWN: owner 0x3FF for 32 granules from a0. -/
theorem test_word_gown : decodeIdmor 0 0b11000100_0_000_100000_00000000_000000_0000000000_011111_000000_1111111111 =
    some (.gown 0 ⟨0, 0⟩ ⟨0x20, 0, 0, 0x001F03FF⟩) := by decide +kernel
/-- SPICK: token of slot 3 from queue 2 into r7. -/
theorem test_word_spick : decodeIdmor 0 0b11010010_0_000_000000_000111_000000000_010_000000_000000000_0000000000011 =
    some (.spick 0 ⟨0, 0⟩ { samp0 with rd := 7, q := 2, imm13 := 3 }) := by decide +kernel
/-- An opcode that the table does not list spells nothing. -/
theorem test_word_unlisted : decodeIdmor 0 0b00001000_0_000_0000000000000000000000000000000000000000000000000000 = none ∧
    decodeIdmor 0 0xFFFFFFFFFFFFFFFF = none := by decide +kernel
/-- No row of the table has bits. -/
theorem test_table_word : decodeTableWord 64 0x2000000000000000 = none := rfl

/-! ## Witnesses: the hypotheses of each statement, met by states and operands of its clauses -/

theorem test_witness_StepRunsFrontCommand :
    ({ State.reset with pending := [.arm, .disarm] } : State).pending = .arm :: [.disarm] := rfl
/-- The second clause: an empty queue, no message held. -/
theorem test_witness_StepRunsFrontCommand_empty : State.reset.pending = [] ∧ State.reset.logMsgHeld = false := ⟨rfl, rfl⟩

/-- Reset keeps the rectangles, and a step from it answers a next state; instance 5 over four panels keeps them too. -/
theorem test_witness_StepsKeepInstancesRectangles :
    State.reset.panelsOk ∧ (∃ t, step State.reset = .next t) ∧
    (State.reset.setInst 5 { panels := rectangle 5 2 2 }).panelsOk ∧ rectangle 5 2 2 = [5, 6, 9, 10] := by
  refine ⟨fun i => .inl rfl, ⟨_, rfl⟩, fun i => ?_, rfl⟩
  by_cases h : i = 5
  · subst h; exact .inr ⟨2, 2, rfl, rfl⟩
  · left
    have : (State.reset.setInst 5 { panels := rectangle 5 2 2 }).inst i = {} := State.inst_setInst_ne _ _ _ _ h
    rw [this]
theorem test_witness_DecodeOfEncode : encodeIdmor (.halt 0 g0 ctl0) = some 0x0100000000000000 := by decide +kernel
theorem test_witness_EncodeOfDecode : decodeIdmor 1199 0x0100000000000000 = some (.halt 1199 g0 ctl0) := by decide +kernel

/-- A core with scalar registers set. -/
def coreK : Core := { core0 with regs := regsOf [(1, 0x800000), (2, 0xFFFFFFF0), (3, 1), (0x20, 7)] }

/-- A register result at the highest general register, a predicate result at both ends of the compares' range, a result
that MOV writes. -/
theorem test_witness_ScalarInstructionsWriteResult :
    (onCore coreK).Ready 0 g0 ∧ (scalOk ⟨0x30, 1, 2, 0, 0, 0⟩ = true ∧ (⟨0x30, 1, 2, 0, 0, 0⟩ : ScalF).rd.toNat = 0x30) ∧
    ((⟨0x2F, 1, 2, 0, 0, 0⟩ : ScalF).rd.toNat < 0x30 ∧ 0x37 < (⟨0x38, 1, 2, 0, 0, 0⟩ : ScalF).rd.toNat) ∧
    (⟨0, 1, 2, 0, 0, 0⟩ : ScalF).rs1 ≠ 0#6 ∧ [(⟨0x2F, 1, 2, 0, 0, 0⟩ : ScalF), ⟨0, 1, 2, 0, 0, 0⟩, ⟨0x31, 1, 2, 0, 0, 0⟩, ⟨0x37, 1, 0, 1, 0, 5⟩, ⟨0x3D, 0, 2, 0, 0, 0⟩].all
      (fun f => scalOk f && specOk f.rd.toNat && specWritable f.rd.toNat) = true ∧
    (⟨0x3D, 0, 2, 0, 0, 0⟩ : ScalF).rs1 = 0#6 ∧ 0x31 ≤ (⟨0x31, 1, 2, 0, 0, 0⟩ : ScalF).rd.toNat ∧
    (⟨0x37, 1, 0, 1, 0, 5⟩ : ScalF).rd.toNat ≤ 0x37 :=
  ⟨ready_of _ _ _ (by decide +kernel), by decide +kernel⟩

/-- A load and a store of the last word that `imm32` reaches below the window's first granule's end. -/
theorem test_witness_ScalarLoadStoreMoveOneWord :
    (onCore coreK).Ready 0 g0 ∧ (onCore coreK).rd K.hzMode = 0 ∧
    [(⟨4, 1, 0, 0, 0, 0xFFC⟩ : ScalF), ⟨0, 1, 2, 0, 0, 0⟩].all (fun f =>
      let k := (onCore coreK).core 0
      let a := ((onCore coreK).readReg k f.rs1.toNat + f.imm32).toNat
      f.res == 0#1 && f.ui == 0#1 && specOk f.rs1.toNat && specOk f.rs2.toNat && specOk f.rd.toNat && a % 4 == 0 && isWide a &&
        k.wideOk (bits a 20 0) 4 && decide (k.poisoned (k.wideAt (bits a 20 0)) 4 = []) &&
        ((f.rs2 == 0#6 && specWritable f.rd.toNat) || f.rd == 0#6)) = true ∧
    (onCore { coreK with poison := [(524288, true)] }).Ready 0 g0 ∧
    (let s := onCore { coreK with poison := [(524288, true)] }
     let k := s.core 0
     let a := (s.readReg k 1 + 0#32).toNat
     s.rd K.hzMode = 0 ∧ a % 4 = 0 ∧ isWide a = true ∧ k.wideOk (bits a 20 0) 4 = true ∧
     k.poisoned (k.wideAt (bits a 20 0)) 4 ≠ [] ∧ specWritable 4 = true) :=
  ⟨ready_of _ _ _ (by decide +kernel), by decide +kernel, by decide +kernel, ready_of _ _ _ (by decide +kernel), by decide +kernel⟩

/-- A core in a loop, with a return address, and registers that hold a target at the store's end and the largest loop
count. -/
def coreCtl : Core := { core0 with
  pc := 5, regs := regsOf [(1, 32767), (2, 2 ^ 24 - 1)], rets := [9], loops := [⟨3, 20, 2⟩, ⟨0, 20, 9⟩] }

theorem test_witness_ControlInstructionsSetProgramCounter :
    (onCore coreCtl).Ready 0 g0 ∧ (onCore core0).Ready 0 g0 ∧
    (let k := (onCore coreCtl).core 0
     (0 ≤ k.pc + (0xFFFFFFFB#32).toInt ∧ k.pc + (0xFFFFFFFB#32).toInt ≤ 32767) ∧
     (0 ≤ k.pc + (32762#32).toInt ∧ k.pc + (32762#32).toInt ≤ 32767) ∧ k.rets.length < 8 ∧
     ((onCore coreCtl).readReg k 1).toNat ≤ 32767 ∧ k.rets = 9 :: [] ∧ k.loops.length < 4 ∧
     0 < ((onCore coreCtl).readReg k 2).toNat ∧ ((onCore coreCtl).readReg k 2).toNat ≤ 2 ^ 24 - 1 ∧
     2 ≤ (15#32).toInt ∧ k.pc + (15#32).toInt ≤ 32767 ∧ (∀ l ∈ k.loops.head?, (k.pc + (15#32).toInt).toNat ≤ l.last)) ∧
    ((onCore core0).core 0).anyReserved = false ∧ ((onCore core0).core 0).quiet = true ∧
    (((onCore core0).readReg ((onCore core0).core 0) 0).toNat = 0 ∧ (1#32).toInt < 2 ∧
      32767 < ((onCore coreCtl).core 0).pc + (32763#32).toInt ∧
      (∃ l ∈ ((onCore coreCtl).core 0).loops.head?, l.last < (((onCore coreCtl).core 0).pc + (16#32).toInt).toNat)) ∧
    (∃ k : Core, k.loops = ⟨3, 20, 2⟩ :: [] ∧ k.pc ≠ 20) ∧ (∃ k : Core, k.loops = ⟨3, 20, 2⟩ :: [] ∧ k.pc = 20 ∧ 1 < 2) ∧
    (∃ k : Core, k.loops = ⟨3, 20, 1⟩ :: [] ∧ k.pc = 20 ∧ 1 ≤ 1) ∧ core0.loops = [] :=
  ⟨ready_of _ _ _ (by decide +kernel), ready_of _ _ _ (by decide +kernel), by decide +kernel, by decide +kernel, by decide +kernel,
   by decide +kernel, ⟨{ loops := [⟨3, 20, 2⟩] }, rfl, by decide⟩,
   ⟨{ loops := [⟨3, 20, 2⟩], pc := 20 }, rfl, rfl, by decide⟩, ⟨{ loops := [⟨3, 20, 1⟩], pc := 20 }, rfl, rfl, by decide⟩, rfl⟩

/-- Guard p1 false, and its own instructions' operands. -/
theorem test_witness_FalseGuardOnlyMovesOn :
    (onCore core0).mayIssue 0 = true ∧ ((onCore core0).core 0).nbrArrived = [] ∧
    ((onCore core0).core 0).pc ∉ ((onCore core0).core 0).istoreBad ∧ guardLegal ⟨0, 1⟩ = true ∧
    guardHolds ⟨0, 1⟩ ((onCore core0).core 0) = false ∧ scalOk ⟨3, 1, 2, 0, 0, 0⟩ = true ∧
    specOk 3 = true ∧ specWritable 3 = true := by decide +kernel

/-- The traps' encodings: a reserved bit, a read-only destination (predicate p0 for the compares), targets on both sides
of the store, a misaligned store, a breakpoint. -/
theorem test_witness_TrapsStopTheInstanceWithoutEffect :
    (onCore coreK).Ready 0 g0 ∧ scalOk ⟨3, 1, 2, 0, 1, 0⟩ = false ∧
    [(⟨0x30, 1, 2, 0, 0, 0⟩ : ScalF), ⟨0x38, 1, 2, 0, 0, 0⟩].all
      (fun f => scalOk f && specOk f.rd.toNat && !specWritable f.rd.toNat) = true ∧
    guardLegal g0 = true ∧ guardHolds g0 ((onCore coreK).core 0) = true ∧
    ((onCore coreK).core 0).pc + (0xFFFFFFFF#32).toInt < 0 ∧ 32767 < ((onCore coreK).core 0).pc + (32768#32).toInt ∧
    ((onCore coreK).readReg ((onCore coreK).core 0) 1 + 2#32).toNat % 4 ≠ 0 ∧ ((onCore coreK).core 0).inst = some 0 :=
  ⟨ready_of _ _ _ (by decide +kernel), by decide +kernel⟩

/-- Positions 0, 2 and 7 with tile 3; queue 7. No single-bit errors; the fitting check off. -/
theorem test_witness_EngineInstructionsQueueOneCommandPerPosition :
    (onCore coreE).Ready 0 g0 ∧ (onCore coreE).rd K.hzMode = 0 ∧ (0x85 : BitVec 8) ≠ 0 ∧
    ((onCore coreE).core 0).spFlip = [] ∧
    (let s := (onCore coreE).setInst 0 { fcEnable := false }
     (s.core 0).inst = some 0 ∧ (s.inst 0).fcEnable = false ∧ ready s 0 g0 = true) ∧
    (let k := (onCore coreE).core 0
     k.cmdRoom 0x85 = true ∧ k.roomFor 7 (positions 0x85).length = true ∧
     ∀ p ∈ positions 0x85, k.mmvAddrBad 3 (k.areg 0) (k.areg 1) p = false ∧ tdValid (k.tdAt p 3) = true ∧
       k.poisoned (k.narrowAt p (bits (k.areg 1) 18 0)) (tdBlocks (k.tdAt p 3)) = []) :=
  ⟨ready_of _ _ _ (by decide +kernel), by decide +kernel⟩

/-- f63 := f1 op f2 and its neighbours, with FCMP's four conditions. -/
theorem test_witness_FinisherExactLanes :
    (onCore coreF).Ready 0 g0 ∧ finOk { fin0 with fd := 63, fs1 := 1, fs2 := 2 } { fs2 := true } [0] [0] = true ∧
    finOk { fin0 with fd := 1, fs1 := 1, fs2 := 2, fs3 := 3 } { fs2 := true, fs3 := true } [0] [0] = true ∧
    finOk { fin0 with fs1 := 1 } {} [0] [0] = true ∧
    [0#4, 1#4, 2#4, 3#4].all (fun x => finOk { fin0 with fd := 1, fs1 := 1, fs2 := 2, sub := x } { fs2 := true } [0] [0, 1, 2, 3]) = true :=
  ⟨ready_of _ _ _ (by decide +kernel), by decide +kernel⟩

theorem test_witness_FinisherBf16Lanes :
    (onCore coreF).Ready 0 g0 ∧ finOk { fin0 with lf := 1, fd := 63, fs1 := 1, fs2 := 2 } { fs2 := true } [1] [0] = true ∧
    finOk { fin0 with lf := 1, fs1 := 1 } {} [1] [0] = true ∧
    [0#4, 1#4, 2#4, 3#4].all
      (fun x => finOk { fin0 with lf := 1, fd := 1, fs1 := 1, fs2 := 2, sub := x } { fs2 := true } [1] [0, 1, 2, 3]) = true :=
  ⟨ready_of _ _ _ (by decide +kernel), by decide +kernel⟩

theorem test_witness_FinisherFunctionLanes :
    (onCore coreF).Ready 0 g0 ∧ finOk { fin0 with fd := 63, fs1 := 1 } {} [0] [0] = true ∧
    finOk { fin0 with fd := 63, fs1 := 1, sub := 4 } {} [0] [0, 1, 2, 3, 4] = true ∧
    finOk { fin0 with lf := 1, fs1 := 1, sub := 4 } {} [1] [0, 1, 2, 3, 4] = true :=
  ⟨ready_of _ _ _ (by decide +kernel), by decide +kernel⟩

/-- A register's load and store at the window's start, with and without a poisoned word. -/
theorem test_witness_FinisherLoadsAndStores :
    (onCore coreF).Ready 0 g0 ∧ (onCore { coreF with poison := [(524289, true)] }).Ready 0 g0 ∧ (onCore coreF).rd K.hzMode = 0 ∧
    (let k := (onCore coreF).core 0
     k.areg 0 % 256 = 0 ∧ isWide (k.areg 0) = true ∧ k.wideOk (bits (k.areg 0) 20 0) 512 = true ∧
     k.poisoned (k.wideAt (bits (k.areg 0) 20 0)) 512 = [] ∧
     ((onCore { coreF with poison := [(524289, true)] }).core 0).poisoned (k.wideAt (bits (k.areg 0) 20 0)) 512 ≠ []) ∧
    finOk { fin0 with fd := 63 } { fs1 := false, ra := true } [0] [0] = true ∧
    [0#4, 1#4].all (fun x => finOk { fin0 with lf := 1, fd := 63, sub := x } { fs1 := false, ra := true } [1] [0, 1]) = true ∧
    finOk { fin0 with fs1 := 1 } { fd := false, ra := true } [0] [0] = true :=
  ⟨ready_of _ _ _ (by decide +kernel), ready_of _ _ _ (by decide +kernel), by decide +kernel⟩

/-- `coreF` with a ready bolt set at the head of queue 2. -/
def coreV : Core := { coreF with queues := [(2, [⟨4, .bolts (some boltsA)⟩, ⟨5, .word none⟩])] }

theorem test_witness_FinisherConversions :
    (onCore coreV).Ready 0 g0 ∧ ((onCore coreV).core 0).queue 2 = ⟨4, .bolts (some boltsA)⟩ :: [⟨5, .word none⟩] ∧
    boltsA.length = 64 ∧
    [0#4, 1#4].all (fun x => finOk { fin0 with fd := 4, fs2 := 3, q := 2, qsrc := 1, sub := x }
      { fs1 := false, fs2 := true, q := true, qsrc := true } [0, 1] [0, 1]) = true ∧
    (∀ j, j < 64 → roundTo f32 (Fl.ofInt (boltsA.getD j {}).value.toInt
      (signedAt 11 (lane32 (((onCore coreV).core 0).freg 3) 0))) % 2 ^ 31 ≠ 0x7F800000) ∧
    [0#4, 1#4].all (fun x => finOk { fin0 with lf := 1, fd := 1, fs1 := 1, sub := x } {} [1] [0, 1]) = true ∧
    finOk { fin0 with fd := 1, fs1 := 1, fs2 := 2, fs3 := 7, sub := 2 } { fs2 := true, fs3 := true } [0] [0, 1, 2, 3, 4, 5] = true ∧
    finOk { fin0 with fd := 1, fs1 := 1, fs3 := 1 } { fs2 := true, fs3 := true } [0] [0, 1, 2, 3, 4, 5] = true ∧
    7 < unpackParts 2 ∧ 1 < unpackParts 0 ∧
    (∀ j, j < 128 → ((unpackElem 0 1 (((onCore coreV).core 0).freg 1) (((onCore coreV).core 0).freg 0) j).isFin &&
      (r32 (unpackElem 0 1 (((onCore coreV).core 0).freg 1) (((onCore coreV).core 0).freg 0) j)).isInf) = false) :=
  ⟨ready_of _ _ _ (by decide +kernel), by decide +kernel⟩

/-- Sums over one register, over two registers, and over one vector of the wide window. -/
theorem test_witness_FinisherReductionsSumIntoLaneZero :
    (onCore coreF).Ready 0 g0 ∧ (onCore coreF).rd K.hzMode = 0 ∧
    [({ fin0 with fd := 63, fs1 := 1 }, []), ({ fin0 with fd := 63, fs1 := 1, mcount := 1 }, []),
     ({ fin0 with fd := 63, msrc := 1 }, [4194304])].all
      (fun (x : FinF × List Nat) => finOk x.1 { ra := true, many := true } [0] [0] && redOk x.1 false false &&
        redMem ((onCore coreF).core 0) x.1 false == some x.2 && redBad ((onCore coreF).core 0) x.1 x.2 == []) = true ∧
    finOk { fin0 with fd := 63, fs1 := 1, fs2 := 2 } { fs2 := true, ra := true, many := true } [0] [0] = true ∧
    redOk { fin0 with fd := 63, fs1 := 1, fs2 := 2 } true false = true ∧
    redMem ((onCore coreF).core 0) { fin0 with fd := 63, fs1 := 1, fs2 := 2 } true = some [] ∧
    redBad ((onCore coreF).core 0) { fin0 with fd := 63, fs1 := 1, fs2 := 2 } [] = [] :=
  ⟨ready_of _ _ _ (by decide +kernel), by decide +kernel⟩

theorem test_witness_FinisherNormsStoreOutputs :
    (onCore coreF).Ready 0 g0 ∧ (onCore coreF).rd K.hzMode = 0 ∧
    (let k := (onCore coreF).core 0
     let f := { fin0 with fd := 63, lf := 1, fs1 := 1, fs3 := 2 }
     finOk f { fs3 := true, ra := true, many := true } [1] [0] = true ∧ redOk f false true = true ∧ f.fs2 = 0#6 ∧
     redMem k f false = some [] ∧ redBad k f [] = [] ∧ k.finMem (k.areg 1) (256 * mOf f) = some (4194304 + 1024) ∧
     k.poisoned (4194304 + 1024) (256 * mOf f) = [] ∧ k.finMem (k.areg 2) (256 * mOf f) = some (4194304 + 1536)) :=
  ⟨ready_of _ _ _ (by decide +kernel), by decide +kernel⟩

/-- Lanes of ordinary size, key and value bytes with their parameters, and narrow-window addresses. -/
def fregD : BitVec 4096 := BitVec.ofNat 4096 (fromLanes 32 ((List.range 128).map fun j => 0x3F800000 + 0x12345 * j))
def fregP : BitVec 4096 := BitVec.ofNat 4096 (fromLanes 32 (List.replicate 16 0x7F807E81 ++ [0x3F000000, 30]))
def coreG : Core := { coreF with fregs := [(1, fregD), (2, fregC), (3, fregA), (4, fregP), (8, fregD), (9, fregC)] }

/-- The register forms and the NF forms of FQUANT, INT8 and INT4; FALT. -/
theorem test_witness_FinisherQuantiseAndAlter :
    (onCore coreG).Ready 0 g0 ∧ (onCore coreG).rd K.hzMode = 0 ∧
    (let k := (onCore coreG).core 0
     let v := vals32 (k.freg 1)
     let gen := lane32 (k.freg 2) 0 % 65536
     [127, 7].all (fun q => !(quantBlock (v.take 64) q gen none).range && !(quantBlock (v.drop 64) q gen none).range) = true ∧
     [0#4, 1#4].all (fun x => finOk { fin0 with fd := 63, fs1 := 1, fs3 := 2, sub := x } { fs3 := true } [0] [0, 1, 2, 3]) = true ∧
     [8#4, 9#4].all (fun x => finOk { fin0 with fs1 := 1, fs3 := 2, sub := x, ra := 4 }
       { fd := false, fs3 := true, ra := true } [0] [8, 9, 10, 11]) = true ∧
     k.areg 4 = 0x40 ∧ k.areg 5 = 0x2000 ∧ 0x40 % 64 = 0 ∧ isNarrow 0x40 = true ∧ isNarrow 0x2000 = true ∧ bit 0x40 22 = false ∧
     bit 0x2000 22 = false ∧ k.narrowOk (bits 0x40 18 0) 128 = true ∧ k.narrowOk (bits 0x2000 18 0) 2 = true ∧
     (fin0.fb == 1#1) = false ∧ ((onCore coreG).core 0).narrow 0x40 128 true = some (((onCore coreG).core 0).narrow 0x40 128 true).get! ∧
     ((onCore coreG).core 0).narrow 0x2000 2 true = some (((onCore coreG).core 0).narrow 0x2000 2 true).get! ∧
     finOk { fin0 with fd := 5, fs1 := 1, fs2 := 1, fs3 := 3 } { fs2 := true, fs3 := true } [0] [0] = true) :=
  ⟨ready_of _ _ _ (by decide +kernel), by decide +kernel⟩

/-- With feedback, which needs 4-bit codes, in both kinds of form; and lanes with an infinity, which are a quantise-range
event, on a core of instance 0. -/
theorem test_witness_FinisherQuantiseAndAlter_feedback :
    [1#4, 3#4].all (fun x => finOk { fin0 with fd := 63, fs1 := 1, fs2 := 2, fs3 := 2, sub := x, fb := 1 }
      { fs2 := true, fs3 := true, fb := true } [0] [0, 1, 2, 3] && (x.toNat % 2 == 1)) = true ∧
    [9#4, 11#4].all (fun x => finOk { fin0 with fs1 := 1, fs2 := 2, fs3 := 2, sub := x, ra := 4, fb := 1 }
      { fd := false, fs2 := true, fs3 := true, ra := true, fb := true } [0] [8, 9, 10, 11] && (x.toNat % 2 == 1)) = true ∧
    (onCore coreF).Ready 0 g0 ∧ (onCore coreF).rd K.hzMode = 0 ∧ ((onCore coreF).core 0).inst = some 0 ∧
    (quantBlock ((vals32 (((onCore coreF).core 0).freg 1)).take 64) 7 0 none).range = true :=
  ⟨by decide +kernel, by decide +kernel, ready_of _ _ _ (by decide +kernel), by decide +kernel⟩

theorem test_witness_AttentionSteps :
    (onCore coreG).Ready 0 g0 ∧
    [0#4, 1#4, 2#4].all (fun x => finOk { fin0 with fd := 63, fs1 := 1, fs2 := 8, fs3 := 4, sub := x } { fs2 := true, fs3 := true } [0] [0, 1, 2] &&
      decide (8 + kvRegs x.toNat ≤ 64)) = true ∧
    finOk { fin0 with fd := 63, fs1 := 1, fs2 := 8 } { fs2 := true } [0] [0] = true ∧ (63 : BitVec 6) ≠ 8 :=
  ⟨ready_of _ _ _ (by decide +kernel), by decide +kernel⟩

/-- A good arrival, a failed transfer, a ready bolt set, and heads not ready; a pair awaited at the largest group and
tag. -/
theorem test_witness_QueueWaitPopsAndExpectReserves :
    [[QKind.word (some (complWord 7 0 4 true 3)), .word none], [.word (some (complWord 7 2 4 true 3))], [.bolts (some boltsA)],
     [.bolts none], [.word none]].all (fun l => ready (onCore (coreQ l)) 0 g0) = true ∧
    [({ mov0 with qa := 2, rx := 4, ry := 5 } : MovF), { mov0 with qa := 2, rx := 0x3D, ry := 0 }, { mov0 with qa := 2, rx := 0x31, ry := 5, tol := 1 }].all
      (fun f => movOk f [true, false, false, false, true, false, false, false, true, true] && specOk f.rx.toNat && specOk f.ry.toNat &&
        specWritable f.rx.toNat && specWritable f.ry.toNat) = true ∧
    ((onCore (coreQ [.word (some (complWord 7 0 4 true 3)), .word none])).core 0).queue 2 =
      ⟨0, .word (some (complWord 7 0 4 true 3))⟩ :: [⟨1, .word none⟩] ∧
    wStatus (complWord 7 0 4 true 3) = 0 ∧ wStatus (complWord 7 2 4 true 3) ≠ 0 ∧
    (let k := (onCore (coreQ [])).core 0
     movOk { mov0 with qa := 7, rx := 1, group := 63, imm16 := 0xFFFF }
       [true, false, false, false, true, true, false, false, false, false, true] = true ∧ specOk 1 = true ∧
     0 < ((onCore (coreQ [])).readReg k 1).toNat ∧ ((onCore (coreQ [])).readReg k 1).toNat < 2 ^ 24 ∧ k.roomFor 7 1 = true ∧
     k.arrivals.length < 32 ∧ ∀ a ∈ k.arrivals, a.group ≠ 63 ∨ a.tag ≠ 0xFFFF) := by decide +kernel

/-- Channel 7: a copy that is accepted, a page walk that is accepted, and refused ones, on an idle channel and behind a
descriptor. -/
theorem test_witness_DescriptorsAreQueuedOrRefused :
    (let s := (onCore { coreD 15 0 0 0 with dma := [(7, [ddesc0])] })
     let k := s.core 0
     ready s 0 g0 = true ∧ s.rd K.hzMode = 0 ∧ k.roomFor 0 1 = true ∧ (mapGet (fun _ => []) k.dma 7) = [ddesc0] ∧
     (match s.descCheck k 15 0 0 0 with | .refused _ => true | _ => false) = true) ∧
    ((stD 15 0 0 0).core 0).dma = [] ∧ ((stD 2 0 0 0).core 0).dma = [] ∧ bit 15 11 = false ∧
    [stD (0x00004000 * 2 ^ 32 + 0x00770000 + 0x300 + 0x10) 0 0x801000 0, stD 15 0 0 0, stD 2 0 0 0,
     stD (2 ^ 56 + 0x00770000 + 0x300 + 0x12) 0x801000 (2 ^ 48) (4 * 2 ^ 35)].all (fun s =>
      let k := s.core 0
      let a := k.areg 0
      let w := descWord (k.bytesAt (k.wideAt (bits a 20 0)) 32)
      ready s 0 g0 && s.rd K.hzMode == 0 && movOk { mov0 with qb := 7 } [false, true, true] && a % 32 == 0 && isWide a &&
        k.wideOk (bits a 20 0) 32 && k.poisoned (k.wideAt (bits a 20 0)) 32 == [] && k.roomFor (bits (w 0) 10 8) 1 &&
        (k.queue (bits (w 0) 10 8)).all (fun e => e.id != k.nextId) && decide ((mapGet (fun _ => []) k.dma 7).length < 16)) = true ∧
    (match (stD (0x00004000 * 2 ^ 32 + 0x00770000 + 0x300 + 0x10) 0 0x801000 0).descCheck
        (coreD (0x00004000 * 2 ^ 32 + 0x00770000 + 0x300 + 0x10) 0 0x801000 0)
        (0x00004000 * 2 ^ 32 + 0x00770000 + 0x300 + 0x10) 0 0x801000 0 with | .ok _ => true | _ => false) = true ∧
    (match (stD (2 ^ 56 + 0x00770000 + 0x300 + 0x12) 0x801000 (2 ^ 48) (4 * 2 ^ 35)).walkCheck
        (coreD (2 ^ 56 + 0x00770000 + 0x300 + 0x12) 0x801000 (2 ^ 48) (4 * 2 ^ 35))
        (2 ^ 56 + 0x00770000 + 0x300 + 0x12) 0x801000 (2 ^ 48) (4 * 2 ^ 35) with | .ok _ => true | _ => false) = true ∧
    (match (stD 15 0 0 0).descCheck (coreD 15 0 0 0) 15 0 0 0 with | .refused _ => true | _ => false) = true ∧
    (match (stD 2 0 0 0).walkCheck (coreD 2 0 0 0) 2 0 0 0 with | .refused _ => true | _ => false) = true := by decide +kernel

/-- A bound neighbour that answers, with and without a poisoned word; one that is fenced; one behind a link that has given
up; a narrow and a misaligned address; a direction that is not bound. -/
theorem test_witness_NeighbourAccessesMoveHalfRegister :
    (stN false).Ready 0 g0 ∧ (stN true).Ready 0 g0 ∧ (stN false).rd K.hzMode = 0 ∧
    isWide 0x40 = false ∧ 0x800004 % 256 ≠ 0 ∧ ready (onCore coreF) 0 g0 = true ∧
    bit (mapGet (fun _ => 0) ((onCore coreF).core 0).nbind 1) 0 = false ∧
    (let s := (stN false).setLink (4660 + 2 * (linkAt 0 1).get!) { dead := true }
     ready s 0 g0 = true ∧ s.nbrDead 0 1 = true ∧ s.neighbour 0 (s.core 0) 0x101 0x800000 = .ok (1, 4194304)) ∧
    (let s := (stN false).setCore 1 { coreF with poison := [(524288, true)] }
     ready s 0 g0 = true ∧ s.nbrDead 0 1 = false ∧ s.neighbour 0 (s.core 0) 0x101 0x800000 = .ok (1, 4194304) ∧
     (s.core 1).poisoned 4194304 256 ≠ []) ∧
    movOk { mov0 with dir := 1, half := 1, ry := 1 } [false, false, true, false, false, false, true, true, false, true] = true ∧
    (let k := (stN false).core 0
     isWide (k.areg 0) = true ∧ k.areg 0 % 256 = 0 ∧ bit (mapGet (fun _ => 0) k.nbind 1) 0 = true ∧
     (match (stN false).neighbour 0 k (mapGet (fun _ => 0) k.nbind 1) (k.areg 0) with
      | .ok (n, p) => n == 1 && decide (((stN false).core n).poisoned p 256 = []) && !(stN false).nbrDead 0 n
      | _ => false) = true ∧
     (match (stN true).neighbour 0 ((stN true).core 0) (mapGet (fun _ => 0) k.nbind 1) (k.areg 0) with | .error _ => true | _ => false) = true) :=
  ⟨ready_of _ _ _ (by decide +kernel), ready_of _ _ _ (by decide +kernel), by decide +kernel⟩

/-- Core 0 with addresses for a far access of 256 bytes, and for a multicast of 4,224 bytes from clean memory. -/
def coreFar : Core := { coreF with regs := regsOf [(0x20, 0x800000), (0x21, 0x800040), (1, 1)] }
def coreMc : Core := { coreF with sp := [], regs := regsOf [(0x20, 0x800000), (1, 1)] }

theorem poisoned_clean (k : Core) (h : k.poison = []) (a n : Nat) : k.poisoned a n = [] := by
  simp [Core.poisoned, h, mapGet]

theorem test_witness_FarAccessesAndTreesSendPackets :
    (stR coreFar).Ready 0 g0 ∧ (stR coreMc).Ready 0 g0 ∧ (stR (coreQ [.bolts (some boltsA)])).Ready 0 g0 ∧
    (stR coreFar).rd K.hzMode = 0 ∧ (onCore coreFar).translate 0 0 1 = none ∧
    (((stR { coreFar with poison := [(524288, true)] }).core 0).poisoned 4194304 256 ≠ []) ∧
    (let k := (stR coreFar).core 0
     k.roomFor 0 1 = true ∧ farOk { mov0 with rb := 1, rx := 1, imm16 := 4 } = true ∧ farForm (k.areg 0) = true ∧
     farForm (k.areg 1) = true ∧ k.wideOk (bits (k.areg 0) 20 0) (64 * 4) = true ∧
     ((stR coreFar).translate 0 (bits ((stR coreFar).readReg k 1).toNat 10 7) (bits ((stR coreFar).readReg k 1).toNat 6 0)).isSome = true ∧
     k.poisoned (k.wideAt (bits (k.areg 0) 20 0)) (64 * 4) = []) ∧
    (let k := (stR coreMc).core 0
     let a := k.areg 0
     k.roomFor 0 1 = true ∧
     (k.either (if bit a 23 then a else a - b2n (bit a 22) * 2 ^ 22) (128 * 33) false).isSome = true ∧
     movOk { mov0 with group := 63, imm16 := 33, ry := 2 } [true, false, true, false, false, true, false, false, false, true, true] = true) ∧
    (∀ a n, ((stR coreMc).core 0).poisoned a n = []) ∧
    (let s := stR (coreQ [.bolts (some boltsA)])
     let r := s.modRouter 0 fun x => { x with tree := [(1, 2 ^ 19 + 4 * 2 ^ 10)] }
     (s.core 0).queue 2 = ⟨0, .bolts (some boltsA)⟩ :: [] ∧ boltsA.length = 64 ∧ s.isRoot 0 0 = false ∧ r.isRoot 0 1 = true ∧
     ((r.core 0).popHead 2).roomFor 7 1 = true ∧
     movOk { mov0 with qa := 2 } [true, true, false, false, false, true] = true ∧
     movOk { mov0 with qa := 2, qb := 1 } [true, true, false, false, false, true] = true ∧
     movOk { mov0 with qa := 2, qb := 7, group := 1 } [true, true, false, false, false, true] = true) :=
  ⟨ready_of _ _ _ (by decide +kernel), ready_of _ _ _ (by decide +kernel), ready_of _ _ _ (by decide +kernel), by decide +kernel,
   by decide +kernel, by decide +kernel, by decide +kernel, by decide +kernel, fun a n => poisoned_clean _ (by decide +kernel) a n, by decide +kernel⟩

/-- A core with a full notice queue, a pass queued at position 1 and a granule of slot 5's. -/
def coreY : Core := { core0 with
  notices := [1, 2, 3, 4], regs := regsOf [(0x20, 0x800000)], pos := [(1, { cmdq := [.pass ⟨3, 0, [1], false, 0, 0⟩] })],
  owner := [(0, 5)] }
/-- `coreY`'s state, slot 5 Enabled on its instance. -/
def stY : State := wrs (onCore coreY) [(K.slotState 5, 1), (K.slotInstance 5, 0)]

theorem test_witness_SynchronisationInstructions :
    (onCore core0).Ready 0 g0 ∧ stY.Ready 0 g0 ∧ ((onCore core0).core 0).anyReserved = false ∧
    ((onCore core0).core 0).quiet = true ∧
    (∀ p ∈ positions 0xFF, hasPass (((onCore core0).core 0).posOf p).cmdq = false) ∧
    (∃ p ∈ positions 2, hasPass ((stY.core 0).posOf p).cmdq = true) ∧ specOk 1 = true ∧
    ((onCore core0).core 0).notices.length < 4 ∧ 4 ≤ (stY.core 0).notices.length ∧ specIsA 0x20 = true ∧
    [0x3FF, 0x3FE, 5].all (fun v => bits v 15 10 == 0 && bits v 31 22 == 0 &&
      (decide (bits v 9 0 < 0x200) || decide (0x3FD < bits v 9 0)) &&
      (decide (512 ≤ bits v 9 0) || stY.mayOwn (bits v 9 0) (stY.core 0).logInst)) = true ∧
    (stY.core 0).granules (stY.readReg (stY.core 0) 0x20).toNat 1 = some ((stY.core 0).granules (stY.readReg (stY.core 0) 0x20).toNat 1).get! ∧
    (∃ x ∈ ((stY.core 0).granules (stY.readReg (stY.core 0) 0x20).toNat 1).get!, (stY.core 0).ownerOf x ≠ 5) ∧
    (∀ x ∈ ((stY.core 0).granules (stY.readReg (stY.core 0) 0x20).toNat 1).get!, (stY.core 0).ownerOf x = 0x3FF) :=
  ⟨ready_of _ _ _ (by decide +kernel), ready_of _ _ _ (by decide +kernel), by decide +kernel⟩

/-- An arrival of slot 3's candidates. -/
def wArr : Word64 := complWord 3 0 4 true 2
def candA : CandBuf := ⟨3, [(1, 0x3F800000)], true⟩
/-- The selector core with that arrival and the merged candidates. -/
def stSel : State := onCore { coreF with
  cand := some candA, coreAddr := 0x8000, itaint := true, queues := [(2, [⟨0, .word (some wArr)⟩])],
  merge := [⟨3, [(9, 0x40000000), (4, 0x3F800000)], false⟩] }
/-- The selector core with one verified slot picked. -/
def stAcc : State := (onCore { core0 with coreAddr := 0x8000, picks := [(0, 9)] }).setInst 0 { plan := planV }

/-- The selector core with 256 equal candidates, all of them in the penalty window: an inexact draw. -/
def stInx : State := { (onCore { core0 with
    coreAddr := 0x8000, queues := [(2, [⟨0, .word (some wArr)⟩])]
    merge := [⟨3, (List.range 256).map fun j => (j, 0x3F800000), false⟩] }).setInst 0
      { plan := { samples := List.replicate 4 (256, 0, 7), rows := [⟨7, 255, 5, 3, 1, 0, 0, 0⟩] } } with
  seqs := [(7, { tokens := List.range 256 })]
  reqs := [{ slot := 0, key := 1, from_ := .ring, opcode := 1, e := entryA, tokens := [], seq := some 7
             params := some { paramsA with repPenalty := 0x40000000, penaltyWindow := 256 } }] }

theorem test_witness_SamplingInstructions :
    (onCore coreF).Ready 0 g0 ∧ stSel.Ready 0 g0 ∧ stAcc.Ready 0 g0 ∧ specOk 1 = true ∧
    (∀ x ∈ [(1, 0), (63, 0), (0, 63)], x.1 + x.2 + 1 ≤ 64) ∧ ((onCore coreF).core 0).cand = none ∧
    (stSel.core 0).cand = some candA ∧ candA.slot = 3 ∧ (stSel.core 0).roomFor 2 1 = true ∧
    (stSel.core 0).selector = true ∧ (stSel.core 0).queue 2 = ⟨0, .word (some wArr)⟩ :: [] ∧ wStatus wArr = 0 ∧
    wSource wArr = 4 ∧ wTag wArr = 3 ∧ (stAcc.core 0).selector = true ∧ specWritable 9 = true ∧
    (∀ x ∈ (stAcc.planOf (stAcc.core 0)).verifyAt 0, ((stAcc.core 0).pickOf x.1).isSome) ∧
    (stAcc.planOf (stAcc.core 0)).verifyAt 0 ≠ [] ∧
    (let s := stAcc.setCore 0 { core0 with coreAddr := 0x8000, queues := [(2, [⟨0, .word none⟩])] }
     ready s 0 g0 = true ∧ (s.core 0).selector = true ∧ (∃ x ∈ (s.planOf (s.core 0)).verifyAt 0, ((s.core 0).pickOf x.1) = none) ∧
     (s.core 0).queue 2 = ⟨0, .word none⟩ :: [] ∧ (s.core 0).mergeOf 3 = ⟨3, [], false⟩) ∧
    (stSel.core 0).cand.getD ⟨4, [], false⟩ = candA ∧ candA.slot ≠ 4 ∧ candA.cands ≠ [] ∧
    ((stSel.core 0).mergeOf 3).cands ≠ [] ∧ (spickDraw (stSel.drawOf (stSel.planOf (stSel.core 0)) 3) ((stSel.core 0).mergeOf 3).cands).2 = false ∧
    ready stInx 0 g0 = true ∧ (stInx.core 0).selector = true ∧ (stInx.core 0).queue 2 = ⟨0, .word (some wArr)⟩ :: [] ∧
    (spickDraw (stInx.drawOf (stInx.planOf (stInx.core 0)) 3) ((stInx.core 0).mergeOf 3).cands).2 = true :=
  ⟨ready_of _ _ _ (by decide +kernel), ready_of _ _ _ (by decide +kernel), ready_of _ _ _ (by decide +kernel), by decide +kernel⟩

/-- A pass of tile 3, and a core with a command at the head of position 1's queue; of a pass the one block has run. -/
def passA : Pass := ⟨3, 0, [127], false, 0, 0⟩
/-- Engine 1's tile 3 is served by the gusset's copy, all zeros, with the given metadata errors. -/
def coreM (err : Map Nat) : Core := { coreE with eng := coreE.eng ++ [(8, { copies := [⟨1, 3, [], false, true, err⟩], stat := 64 })] }
def stCmd (cmd : ECmd) : State := (onCore { coreE with
  pos := [(1, { cmdq := [cmd, .bzero], bolts := [(2, { value := 5 })], resume := 1 })],
  queues := [(2, [⟨0, .word none⟩, ⟨1, .bolts none⟩])] }).setInst 0 { fcEnable := false }

theorem test_witness_EngineEventsConsumeQueueHead :
    [ECmd.pass passA, .bflush 2 1, .bzero, .csum 3 2 0].all (fun x =>
      let k := (stCmd x).core 0
      decide ((k.engOf (k.engineAt 1)).held = none) && (k.posOf 1).cmdq == [x, .bzero]) = true ∧
    (let k := (stCmd (.pass passA)).core 0
     let st := k.posOf 1
     ((k.passCfg 1 passA).run st.bolts st.seen st.resume).heldAt = none ∧
     k.poisoned (524288 * 1 + passA.elems) (mmvLen passA.ectl (tdBlocks (k.passCfg 1 passA).td)) = [] ∧ passA.poison = false ∧
     k.inst = some 0 ∧ (stCmd (.pass passA)).rd K.hzMode = 0) := by decide +kernel

/-- A pass and a check read that find a mismatch, and ones that find none; a pass that reads poison. -/
def failsAt (k : Core) : Nat :=
  (failingRows ((k.engOf 1).td 3) (k.servingImage 1 3).2 (mdBlocksOf (tdBlocks ((k.engOf 1).td 3)) 2 (k.servingErr 1 3))).length
theorem test_witness_EngineEventsConsumeQueueHead_found :
    (((coreM [(0, 2)]).passCfg 1 passA).run [] [] 0).heldAt = some 0 ∧ ((coreM [(0, 2)]).engOf 1).repairOf passA.tile = none ∧
    0 < failsAt (coreM [(0, 2)]) ∧ failsAt (coreM []) = 0 ∧ ({ coreE with poison := [(65536, true)] } : Core).poisoned (524288 + passA.elems) 1 ≠ [] := by
  decide +kernel

theorem test_witness_RepairStepsAdvance :
    (let k := (onCore (coreR .fetch false false 0x80000008)).core 0
     k.repairIn 0 .fetch = some (repR .fetch false) ∧ tdGoldenHost ((k.engOf 0).td 3) = false ∧ k.copyOf 0 3 = none) ∧
    (let k := (onCore (coreR .fetch false false 0x90000008)).core 0
     k.repairIn 0 .fetch = some (repR .fetch false) ∧ tdGoldenHost ((k.engOf 0).td 3) = true) ∧
    ((onCore (coreR .fetchRetry false false 0x90000008)).core 0).repairIn 0 .fetchRetry = some (repR .fetchRetry false) ∧
    ((onCore (coreR .verifyGusset true true 0x80000008)).core 0).engineIn .verifyGusset = some (0, repR .verifyGusset true) ∧
    (((onCore (coreR .verifyGusset true true 0x80000008)).core 0).copyOf 0 3).isSome = true ∧
    (let k := (onCore (coreR .fetch true true 0x80000008)).core 0
     k.repairIn 0 .fetch = some (repR .fetch true) ∧ k.copyOf 0 3 ≠ none) ∧
    ((onCore (coreR .fetch true false 0x80000008)).core 0).repairIn 0 .fetch = some (repR .fetch true) ∧
    ([false, true].all fun b => ((onCore (coreR .reprogram b false 0x80000008)).core 0).repairIn 0 .reprogram == some (repR .reprogram b)) = true ∧
    (let r : Repair := { repR .reprogram true with held := false }
     ((onCore { core0 with eng := [(0, { repairs := [r] })] }).core 0).repairIn 0 .reprogram = some r) ∧
    ((onCore (coreR .reprogram false false 0x80000008)).core 0).engineIn .gussetReprogram = none ∧
    mapGet (fun _ => false) (onCore (coreR .reprogram false false 0x80000008)).marks 0 = false ∧
    ((onCore (coreR .gussetReprogram true true 0x80000008)).core 0).engineIn .gussetReprogram = some (0, repR .gussetReprogram true) ∧
    (let r : Repair := { repR .gussetReprogram true with held := false }
     ((onCore { core0 with eng := [(0, { repairs := [r] })] }).core 0).engineIn .gussetReprogram = some (0, r)) ∧
    (((onCore { core0 with eng := [(0, { evq := [3] })] }).core 0).engOf 0).evq = [3] := by decide +kernel

/-- An instance with one shard to re-check every ten seconds; that shard of a kind, with a digest of 48 equal bytes. -/
def manK (kind d : Byte) : List Byte :=
  List.replicate 10 0 ++ [1, 0] ++ List.replicate 52 0 ++ (List.replicate 4 0 ++ [kind] ++ List.replicate 11 0 ++ List.replicate 48 d)
/-- A pattern of one panel with two tile records, and one with the HBM region of shard 0. -/
def pat1 : List Byte :=
  List.replicate 10 0 ++ leBytes 2 1 ++ leBytes 2 1 ++ leBytes 1 1 ++ leBytes 1 1 ++ List.replicate 240 0 ++
    (leBytes 2 5 ++ List.replicate 6 0 ++ leBytes 8 280 ++ leBytes 8 32) ++ List.replicate 32 0
def patH : List Byte :=
  List.replicate 10 0 ++ leBytes 2 1 ++ leBytes 2 1 ++ leBytes 1 1 ++ leBytes 1 1 ++ List.replicate 240 0 ++
    (leBytes 2 4 ++ List.replicate 6 0 ++ leBytes 8 280 ++ leBytes 8 32) ++ (leBytes 2 0x8000 ++ List.replicate 30 0)
def stRe (r : Option Recheck) (kind : Byte := 3) (d : Byte := 0) : State :=
  (stI { manifest := manK kind d, recheck := r } core0).wr (K.recheckInterval 0) 10

theorem test_witness_FittingCheckAndRecheck :
    (let k := (onCore (coreS none 0 0x90000008)).core 0
     k.sideSlot 0 = some (sampleF none 0) ∧ (sampleF none 0).diff = some ([5], 0) ∧ (sampleF none 0).ref = none ∧ (sampleF none 0).tile = 3 ∧
     tdGoldenHost ((k.engOf 0).td 3) = true) ∧ tdGoldenHost 0x80000008 = false ∧
    (let r : List (BitVec 32) := [0x40400000]
     ((onCore (coreS (some r) 0x3F80 0x80000008)).core 0).sideSlot 0 = some (sampleF (some r) 0x3F80) ∧
     (sampleF (some r) 0x3F80).ref = some r ∧
     [(0x4120, false), (0, true)].all (fun p => ((Sys2Proof.Machine.decode bf16 p.1).lt
       (fcError ([5].map fun v => r32 (Fl.ofInt v 0)) (r.map fun v => Sys2Proof.Machine.decode f32 v.toNat))) == p.2) = true) ∧
    (stRe none).ready 0 = true ∧ (stRe none).rd (K.recheckInterval 0) ≠ 0 ∧ ((stRe none).inst 0).recheck = none ∧
    (stRe (some ⟨[0], 5, false⟩)).ready 0 = true ∧ ((stRe (some ⟨[0], 5, false⟩)).inst 0).recheck = some ⟨[0], 5, false⟩ ∧
    (stRe (some ⟨[0], 5, false⟩)).rd (K.recheckInterval 0) ≠ 0 ∧ ((stRe (some ⟨[0], 5, false⟩)).inst 0).retention = false ∧
    ((stRe (some ⟨[0], 5, false⟩)).inst 0).replacing = [] ∧ (stRe (some ⟨[0], 5, true⟩)).ready 0 = true ∧
    ((stRe (some ⟨[0], 5, false⟩)).inst 0).shardTiles 0 = [] ∧ (stRe (some ⟨[0], 5, false⟩)).shardHolds 0 0 = true ∧ 0 ∈ [0] ∧ 1 ∉ [0] ∧
    (let s := stI { manifest := manK 1 0, pattern := pat1, forms := [(0, [⟨0, 1, [], []⟩])], recheck := some ⟨[0], 5, false⟩ }
       { core0 with eng := [(0, { held := some ⟨0, none, 0⟩ })] } |>.setPos 0 0 0
     (s.inst 0).recheck = some ⟨[0], 5, false⟩ ∧ ∃ j ∈ (s.inst 0).shardTiles 0, s.tileBusy 0 j = true) := by
  decide +kernel

/-- A shard that does not hold, of a tile source and of an LM-head table: whatever SHA-384 gives for no bytes, one of two
digests differs from it. -/
theorem test_witness_FittingCheckAndRecheck_digest :
    (∃ d, (stRe (some ⟨[0], 5, false⟩) 1 d).shardHolds 0 0 = false ∧
      ((((stRe (some ⟨[0], 5, false⟩) 1 d).inst 0).shardBytes 0 ((stRe (some ⟨[0], 5, false⟩) 1 d).goldenOf 0)).any fun b =>
        Config.sha384 b != (manShard (manK 1 d) 0).digest) = true) ∧
    (∃ d, ((stRe (some ⟨[0], 5, false⟩) 3 d).modInst 0 fun x => { x with pattern := patH }).shardHolds 0 0 = false) := by
  by_cases h : Config.sha384 [] = List.replicate 48 0
  · have h1 : (Config.sha384 [] == List.replicate 48 1) = false := by rw [h]; rfl
    refine ⟨⟨1, ?_, ?_⟩, ⟨1, ?_⟩⟩
    · show (Config.sha384 [] == _ && true) = false
      rw [Bool.and_true]; exact h1
    · show (!(Config.sha384 [] == _) || false) = true
      rw [Bool.or_false, Bool.not_eq_true']; exact h1
    · exact h1
  · have h1 : (Config.sha384 [] == List.replicate 48 0) = false := beq_eq_false_iff_ne.mpr h
    refine ⟨⟨0, ?_, ?_⟩, ⟨0, ?_⟩⟩
    · show (Config.sha384 [] == _ && true) = false
      rw [Bool.and_true]; exact h1
    · show (!(Config.sha384 [] == _) || false) = true
      rw [Bool.or_false, Bool.not_eq_true']; exact h1
    · exact h1

theorem test_witness_ScrubsAndGranuleZero :
    (let k := (onCore { core0 with zeroq := [⟨1, 5, 0⟩, ⟨0, 7, 0⟩] }).core 0
     (k.zeroq.find? fun y => y.granule == 1) = some ⟨1, 5, 0⟩ ∧ k.passReads 1 = false ∧ k.transferNames 1 = false) ∧
    (let k := (onCore { core0 with zeroq := [⟨1, 5, 0⟩], pos := [(0, { cmdq := [.pass ⟨3, 4096, [1], false, 0, 0⟩] })] }).core 0
     (k.zeroq.find? fun y => y.granule == 1) = some ⟨1, 5, 0⟩ ∧ (k.passReads 1 = true ∨ k.transferNames 1 = true)) ∧
    (let k := (onCore coreE).core 0
     (k.engOf 0).held = none ∧ (k.posOf (k.positionOf 0)).cmdq = [] ∧ (k.engOf 0).due = [] ∧ (k.engOf 0).nextTile = some 3 ∧
     (onCore coreE).scrubOn = true ∧ (onCore coreE).liningAsleep k = false) ∧
    (let x : EngState := { tdesc := [(3, 0x80000008)], due := [3, 5] }
     x.due = 3 :: [5] ∧ x.held = none ∧ x.repairOf 3 = none) ∧ 0 < failsAt (coreM [(0, 2)]) ∧
    State.reset.rd K.hzMode = 0 ∧ State.reset.scrubOn = true ∧ (State.reset.core 0).scrubPtr = 0 ∧ ({ State.reset with scrubOn := false } : State).scrubOn = false ∧
    (∀ z ∈ (State.reset.core 0).zeroq, z.granule ≠ 1) ∧
    ((Ecc.clean == .uncorrectable || mapGet (fun _ => false) (State.reset.core 0).poison 0) = false) ∧
    ((Ecc.uncorrectable == .uncorrectable || mapGet (fun _ => false) (State.reset.core 0).poison 0) = true) := by decide +kernel

/-- Links 0 (ordinary) and 2329 (the last one), a router link and a neighbour link: a lone burst, a corrupt flit, a good
one; a link that waits for a replay; one replayed 4 times; one with 1,024 discards in this window; ones that have given up. -/
theorem test_witness_LinkReceiveAndReplay :
    (State.reset.wrBlob K.linkMap [1, 1, 1]).linkByte 0 ≠ 0 ∧ State.reset.linkByte 0 = 0 ∧ State.reset.linkByte 2329 = 0 ∧
    ((State.reset.setLink 4660 { dead := true }).link 4660).dead = true ∧ (State.reset.link 4660).dead = false ∧
    [(false, [⟨0, 0⟩], true), (true, [⟨0, 0⟩], true), (true, [⟨1, 0⟩, ⟨2, 0⟩], true)].any
      (fun (x : Bool × List Burst × Bool) => hear x.1 (State.reset.link 0).expect x.2.1 x.2.2 == .accept) = true ∧
    hear (isStitch 4) (State.reset.link 8).expect [⟨0, 1⟩] true = .lone ∧
    [0, 2329].all (fun l => hear (isStitch l) (State.reset.link (2 * l)).expect [⟨3, 0⟩] false != .accept) = true ∧
    [State.reset.link 0, State.reset.link 4658, State.reset.link 9319].all
      (fun x => !x.awaiting && decide (x.replays < 4) && decide (x.discards + 1 ≤ 1024)) = true ∧
    (let x := (State.reset.setLink 1 { expect := 5, awaiting := true, discards := 9 }).link 1
     x.awaiting = true ∧ ([⟨6, 0⟩] : List Burst).all (fun b => b.seq != x.expect) = true) ∧
    4 ≤ ((State.reset.setLink 1 { replays := 4 }).link 1).replays ∧
    (let x := (State.reset.setLink 1 { discards := 1024 }).link 1
     (decide (x.winStart + 1000000 ≤ State.reset.time)) = false ∧ 1024 < x.discards + ([⟨6, 0⟩] : List Burst).length) := by
  decide +kernel

/-- Instance 0 on panel 0 with position (0, 0) to replace, and darn entries on routers 1 and 10. -/
def stSp (d : Bool) : State :=
  let s := stI { panels := [0], pattern := pat1, replacing := [⟨0, 0, none⟩] } { core0 with addrValid := true }
  if d then (s.setRouter 1 { darn := [(0, 2 ^ 31 + 2 ^ 25 + 2 * 2 ^ 22)] }).setRouter 10 { darn := [(0, 2 ^ 31 + 2 ^ 25 + 3 * 2 ^ 22)] } else s

theorem test_witness_FailedCoresDarnSetsAndSpares :
    mapGet (fun _ => false) State.reset.marks 0 = false ∧ (State.reset.core 0).inst = none ∧ (State.reset.router 0).failed = false ∧
    mapGet (fun _ => false) ({ State.reset with marks := [(0, true)] } : State).marks 0 = true ∧
    ((State.reset.setRouter 0 { failed := true }).router 0).failed = true ∧
    (let s := stI { panels := [0, 1, 2, 3, 8, 9, 10, 11] } { core0 with addrValid := true }
     (s.core 0).inst = some 0 ∧ (s.core 0).addrValid = true ∧ s.ready 0 = true ∧
     s.instOfPanel (panelOf (hbmSite 0)) = some 0) ∧
    (State.reset.core 0).addrValid = false ∧ State.reset.unretire.contains 0 = false ∧
    ((onCore { addrValid := true }).core 0).addrValid = true ∧
    ({ State.reset with unretire := [0] } : State).unretire.contains 0 = true ∧
    (State.reset.setInst 0 { waitDarn := true }).darnWaiters ≠ [] ∧ (State.reset.setInst 0 { waitDarn := true }).darnOk [] = true ∧
    State.reset.darnOk [] = true ∧ State.reset.darnWaiters = [] ∧
    (let s := (stI { waitDarn := true } core0).setCore 1 core0
     s.darnOk [] = false ∧ (s.inst 0).waitDarn = true ∧ s.ready 0 = true) ∧
    [false, true].all (fun d => (stSp d).ready 0 && ((stSp d).inst 0).replacing == [⟨0, 0, none⟩] && !((stSp d).inst 0).waitDarn &&
      !((stSp d).inst 0).sparesReady) = true ∧
    ({ stSp false with cores := (List.range 100).map fun c => (c, { addrValid := true }) } : State).chooseSpares 0 pat1 []
      [⟨0, 0, none⟩] = none := by decide +kernel

theorem mem_sortBy {α : Type} (lt : α → α → Bool) (x : α) (l : List α) : x ∈ sortBy lt l ↔ x ∈ l := by
  have ins : ∀ (a : α) (l : List α), x ∈ insBy lt a l ↔ x = a ∨ x ∈ l := by
    intro a l
    induction l with
    | nil => simp [insBy]
    | cons b t ih => simp only [insBy]; split <;> simp [ih, or_left_comm]
  induction l with
  | nil => simp [sortBy]
  | cons a t ih => exact (ins a (sortBy lt t)).trans ((or_congr_right ih).trans List.mem_cons.symm)

/-- At most 10 of a panel's cores failed factory test, so one of its cores 1 to 99 is good. -/
theorem some_core_good : ∃ c ∈ (List.range 100).drop 1, Config.factoryGood c = true := by
  by_contra h
  push Not at h
  have hs : (List.range 100).drop 1 ⊆ (Config.factoryFailed 0).take (100 - Config.gradePerPanel) := by
    intro c hc
    have h1 := h c hc
    have h2 : c < 100 := List.mem_range.mp (List.mem_of_mem_drop hc)
    simpa [Config.factoryGood, Nat.div_eq_of_lt h2, Nat.mod_eq_of_lt h2] using h1
  have hl := (List.subperm_of_subset ((List.nodup_range).sublist (List.drop_sublist 1 _)) hs).length_le
  have hg : 90 ≤ Config.gradePerPanel := by unfold Config.gradePerPanel; split <;> omega
  simp only [List.length_drop, List.length_range, List.length_take] at hl
  omega

/-- A panel has a spare for a position. -/
theorem test_witness_spare_found (d : Bool) :
    ∃ c ∈ (List.range 100).drop 1, (stSp d).chooseSpares 0 pat1 [] [⟨0, 0, none⟩] = some [⟨0, 0, some c⟩] := by
  let f := fun c => !((stSp d).core c).addrValid && !([] : List Nat).contains c && (stSp d).fits 0 (allocOf pat1 (gridBlock pat1 (relPanel 0 pat1 0) 0)) c
  have hf : ∀ c ∈ (List.range 100).drop 1, Config.factoryGood c = true → f c = true := by
    have : ∀ d, ∀ c ∈ (List.range 100).drop 1, (!((stSp d).core c).addrValid && !([] : List Nat).contains c &&
      (!mapGet (fun _ => false) (stSp d).muslinFailed c && !(stSp d).marked c && (stSp d).rd (K.panelState (panelOf c)) != 2) &&
      !((stSp d).inst 0).retired.contains c &&
      ((stSp d).nbaseFor c (allocOf pat1 (gridBlock pat1 (relPanel 0 pat1 0) 0)).narrow).isSome &&
      ((stSp d).wbaseFor c (allocOf pat1 (gridBlock pat1 (relPanel 0 pat1 0) 0)).wide).isSome) = true := by decide +kernel
    intro c hc hg
    have h := this d c hc
    simp only [Bool.and_eq_true] at h
    simp only [f, State.fits, State.goodCore, hg, Bool.true_and, Bool.and_eq_true]
    tauto
  have h0 : f 0 = false := by cases d <;> rfl
  have among : ∀ c ∈ ([0].flatMap coresOfPanel).filter f, c ∈ (List.range 100).drop 1 := by
    intro c hc
    rw [List.mem_filter] at hc
    have hm : c ∈ List.range 100 := by simpa [coresOfPanel] using hc.1
    have : c ≠ 0 := by rintro rfl; rw [h0] at hc; exact Bool.noConfusion hc.2
    rw [List.mem_range] at hm
    exact List.mem_iff_getElem.mpr ⟨c - 1, by simp; omega, by simp; omega⟩
  obtain ⟨g, hg, hgood⟩ := some_core_good
  let lt := fun x y => lexLt [distance x ((stSp d).posCore 0 0), x] [distance y ((stSp d).posCore 0 0), y]
  have hmem : g ∈ sortBy lt (([0].flatMap coresOfPanel).filter f) := by
    rw [mem_sortBy, List.mem_filter]
    exact ⟨by simpa [coresOfPanel] using List.mem_of_mem_drop hg, hf g hg hgood⟩
  cases hs : sortBy lt (([0].flatMap coresOfPanel).filter f) with
  | nil => rw [hs] at hmem; cases hmem
  | cons c t =>
    have hc : c ∈ sortBy lt (([0].flatMap coresOfPanel).filter f) := by rw [hs]; exact List.mem_cons_self
    refine ⟨c, among c ((mem_sortBy _ _ _).mp hc), ?_⟩
    have hsp : (stSp d).spareFor 0 pat1 0 0 ((stSp d).posCore 0 0) [] = some c := by
      simp only [State.spareFor]
      show (match (sortBy lt (([0].flatMap coresOfPanel).filter f)).head? with | some c => some c | none => _) = some c
      rw [hs]; rfl
    simp only [State.chooseSpares, hsp, Option.map_some]

/-- Whichever spare is chosen, its trees can be built, or, with the darn entries, cannot. -/
theorem test_witness_spare_trees :
    ∀ c ∈ (List.range 100).drop 1, (stSp false).treesAfter 0 [⟨0, 0, some c⟩] = true ∧
      (stSp true).treesAfter 0 [⟨0, 0, some c⟩] = false := by decide +kernel

/-- A tree entry of a type, output port, input set and instance; the first five bits are a multicast's output ports. -/
def tE (ty out ins inst : Nat) : Nat := 2 ^ 19 + ty * 2 ^ 13 + out * 2 ^ 10 + ins * 32 + inst * 2 ^ 15
/-- The packet of port N at router 0, whose tree table has one entry and whose link to the east has the given state. -/
def stT (p : Packet) (e : Nat) (east : Byte) (k : Core) : State :=
  { ((stI { panels := [0], stepOn := true } k).setRouter 0 { inq := [(0, p)], tree := [(5, e), (63, e)] }) with
    blobs := [(K.linkMap, [east])] }
def readsNext (s : State) (p : Packet) : Bool := !(s.router 0).failed && nextPacket (s.router 0).inq == some (0, p)

/-- Packets of a tree at router 0: with no entry; a multicast that goes east and to the core, whose link is good or has
failed; a contribution; a tack arrival at its destination, with 2 replays. -/
theorem test_witness_PacketRouteForwardsOneHop_trees :
    ((State.reset.router 0).failed = false ∧ nextPacket (State.reset.router 0).inq = none ∧
      ((State.reset.setRouter 0 { failed := true }).router 0).failed = true) ∧
    [({ kind := 3, vc := 1, group := 5 } : Packet), { kind := 4, vc := 1, group := 5 }, { kind := 7, group := 63 }].all
      (fun p => let s := stT p 0 0 core0; readsNext s p && [0, 1, 2].all fun m => s.treeFor 0 p m == none) = true ∧
    (let p : Packet := { kind := 3, vc := 1, group := 5 }
     [0, 1].all (fun east : Byte => let s := stT p (tE 0 0 0 0 + 18) east core0
       readsNext s p && s.treeFor 0 p 0 == some (tE 0 0 0 0 + 18) && stepTo 0 1 == some 1 && linkAt 0 1 == some 0 &&
       (s.linkByte 0 == 0) == (east == 0) && s.ready p.inst) = true) ∧
    (∀ o, o < 4 → bit (tE 0 0 0 0 + 18) o = true → o = 1) ∧ bit (tE 0 0 0 0 + 18) 4 = true ∧
    ((onCore { core0 with fenced := true }).core 0).fenced = true ∧ (State.reset.core 0).logInst ≠ 0 ∧
    (let p : Packet := { kind := 4, vc := 1, group := 5 }
     let s := stT p (tE 1 1 1 0) 0 core0
     readsNext s p = true ∧ s.treeFor 0 p 1 = some (tE 1 1 1 0)) ∧
    (let p : Packet := { kind := 7, group := 63, replays := 2 }
     let s := stT p (tE 2 6 1 0) 0 core0
     readsNext s p = true ∧ s.treeFor 0 p 2 = some (tE 2 6 1 0) ∧ idxOf p.dstX p.dstY = 0) := by decide +kernel

/-- Unicast packets at router 0: a request and an answer at a fenced core, at a core of another data address, at this core, of
this instance and of another; for the far corner, over a good link, over a failed one on each channel. -/
theorem test_witness_PacketRouteForwardsOneHop :
    [({ kind := 1, dstLogical := 1, vc := 2 } : Packet), { kind := 2, dstLogical := 1, vc := 2 }].all
      (fun p => readsNext (stP p { core0 with fenced := true }) p && readsNext (stP p core0) p &&
        !(core0.holds 0 1) && ({ core0 with addrValid := true, coreAddr := 0x10 } : Core).holds 0 1 &&
        readsNext (stP p { core0 with addrValid := true, coreAddr := 0x10 }) p) = true ∧
    idxOf 0 0 = 0 ∧ core0.fenced = false ∧ ({ kind := 1 } : Packet).isRequest = true ∧ ({ kind := 2 } : Packet).isRequest = false ∧
    ({ kind := 5 } : Packet).isRequest = false ∧ ({ kind := 2 } : Packet).inst = core0.logInst ∧
    ({ kind := 2, inst := 1 } : Packet).inst ≠ core0.logInst ∧ ({ kind := 2, inst := 1 } : Packet).inst ≠ 15 ∧
    [(0 : Nat), 1, 2].all (fun vc => [0, 1].all fun east : Byte =>
      let p : Packet := { kind := 1, vc := vc, dstX := 39, dstY := 29, rid := 4 }
      let s := stT p 0 east { core0 with rqOut := [⟨4, 2, 0, true, 4194304, 64, 1⟩] }
      let h := s.hop 0 39 29 vc false
      readsNext s p && h.1 == 1 && stepTo 0 1 == some 1 && linkAt 0 1 == some 0 && (s.linkByte 0 == 0) == (east == 0) &&
        stepTo 0 (turned 0 1 29 39) == some (idxOf 0 1) && (linkAt 0 (turned 0 1 29 39)).any (fun l => s.linkByte l == 0) &&
        s.ready p.inst && p.src == 0 && ((s.core 0).rqOut.find? fun y => y.rid == 4).isSome &&
        (s.core 0).rqOut.all fun y => y.rid != 5) = true ∧ idxOf 39 29 ≠ 0 := by decide +kernel

def pM : Packet := { kind := 3, group := 5, tag := 9, taint := true, addr := 0x800000, payload := (List.range 256).map (BitVec.ofNat 8 ·) }
def pG : Packet := { kind := 1, addr := 0x800000, length := 64, rid := 4, srcX := 3, srcY := 2 }
def pB : Packet := { kind := 1, addr := 0x0, length := 64, rid := 4, srcX := 3, srcY := 2 }
def pR : Packet := { kind := 2, rid := 4, payload := List.replicate 64 7 }
def rR : RqReq := ⟨4, 2, 0, true, 4194304, 64, 1⟩

/-- All 32 arrival counters taken by other pairs. -/
def fullA : List Arrival := (List.range 32).map fun j => ⟨1, j, [], []⟩

theorem test_witness_DeliveriesAtCore :
    State.reset.rd K.hzMode = 0 ∧ (State.reset.core 0).mcIn = [] ∧ (State.reset.core 0).rqIn = [] ∧ (State.reset.core 0).rqResp = [] ∧
    (State.reset.core 0).candIn = [] ∧ pM.payload.length ≤ 4096 ∧ pM.payload.length ≠ 0 ∧
    (32 ≤ fullA.length ∧ ∀ y ∈ fullA, y.group ≠ pM.group ∨ y.tag ≠ pM.tag) ∧
    (let k := (onCore { core0 with mcIn := [pM] }).core 0
     k.mcIn = pM :: [] ∧ k.either pM.addr pM.payload.length true = some [4194304] ∧ k.either 0xA00000 pM.payload.length true = none ∧
     k.arrivals.length < 32 ∧ k.arrivalFor pM.group pM.tag = some ⟨5, 9, [], []⟩) ∧
    (let k : Core := { core0 with arrivals := [⟨5, 9, [], [⟨2, 0, 1⟩]⟩] }
     k.arrivalFor pM.group pM.tag = some ⟨5, 9, [], [⟨2, 0, 1⟩]⟩ ∧ (⟨2, 0, 1⟩ : ArrWait).count = ([] ++ [(true, 0)] : List (Bool × Nat)).length) ∧
    ({ pM with payload := [], poison := true } : Packet).payload.length = 0 ∧
    (let k := (onCore { core0 with rqIn := [pG] }).core 0
     k.fenced = false ∧ k.rqIn = pG :: [] ∧ pG.kind = 1 ∧ k.remoteAt pG.inst pG.addr pG.length = some 4194304 ∧
     k.poisoned 4194304 pG.length = [] ∧
     ({ k with poison := [(524288, true)] } : Core).poisoned 4194304 pG.length ≠ []) ∧
    (let k := (onCore { core0 with rqIn := [pB] }).core 0
     k.rqIn = pB :: [] ∧ k.remoteAt pB.inst pB.addr pB.length = none) ∧ ({ pG with kind := 0 } : Packet).kind ≠ 1 ∧
    (let k := (onCore { coreQ [.word none] with rqOut := [rR], rqResp := [pR] }).core 0
     k.rqResp = pR :: [] ∧ (k.rqOut.find? fun y => y.rid == pR.rid) = some rR ∧ pR.status = 0 ∧ rR.isGet = true ∧
     ({ pR with status := 3 } : Packet).status ≠ 0 ∧ ∀ y ∈ k.rqOut, y.rid ≠ 5) ∧
    (let k := (onCore { core0 with rqResp := [pR] }).core 0
     k.rqResp = pR :: [] ∧ ∀ y ∈ k.rqOut, y.rid ≠ pR.rid) ∧
    ((onCore { core0 with nbrComing := [(1, 2, 3)] }).core 0).nbrComing = (1, 2, 3) :: [] ∧
    (let k := (onCore { core0 with coreAddr := 0x8000, candIn := [{ pM with payload := candBytes (4, 0x3F800000) }] }).core 0
     k.candIn ≠ [] ∧ k.selector = true ∧ k.merge = [] ∧ k.arrivals = []) ∧ core0.selector = false ∧
    (let m : List CandBuf := (List.range 64).map fun j => ⟨100 + j, [], false⟩
     (m.any fun b => b.slot == pM.tag) = false ∧ 64 ≤ m.length) := by decide +kernel

/-- Contributions whose columns sum inside 64 bits and past them; a reduction at its root and on the way, a tack arrival at
its root and on the way, over a good and a failed link. -/
def pV : Packet := { kind := 4, vc := 1, group := 5, payload := (List.range 64).flatMap fun j => leBytes 8 j }
def pW : Packet := { pV with payload := (List.replicate 64 (leBytes 8 (2 ^ 62))).flatten }
def stRed (out : Nat) : State := (onCore { core0 with redWait := [(5, 2, 0)], queues := [(2, [⟨0, .bolts none⟩])] }).setRouter 0
  { tree := [(5, tE 1 out 0x11 0)], red := [(5, [(0, pV), (4, pV)])] }
def stTk (out : Nat) (east : Byte) : State :=
  { ((onCore { core0 with run := .halted }).setRouter 0 { tree := [(63, tE 2 out 0x12 3)], tackIn := [1] }) with
    blobs := [(K.linkMap, [east])] }

theorem test_witness_TreeCombineAtRoot :
    bit (mapGet (fun _ => 0) (State.reset.router 0).tree 5) 19 = false ∧
    (∀ out ∈ [4, 1], let s := stRed out
     let e := mapGet (fun _ => 0) (s.router 0).tree 5
     bit e 19 = true ∧ bits e 14 13 = 1 ∧ bits e 12 10 = out ∧ redPorts e ≠ [] ∧
     ((s.core 0).redWait.find? fun y => y.1 == 5) = some (5, 2, 0) ∧
     firstOf (mapGet (fun _ => []) (s.router 0).red 5) (redPorts e) = some [pV, pV] ∧ pV.vc ≠ 0) ∧
    (redCombine [pV, pV]).2.2.2 = [] ∧ (redCombine [pW, pW, pW]).2.2.2 ≠ [] ∧
    stepTo 0 1 = some 1 ∧ linkAt 0 1 = some 0 ∧ State.reset.linkByte 0 = 0 ∧
    ([6, 1].all fun out => [0, 1].all fun east : Byte =>
     let s := stTk out east
     let e := mapGet (fun _ => 0) (s.router 0).tree 63
     bit e 19 && bits e 14 13 == 2 && !(s.router 0).failed && inPorts e != [] && ((inPorts e).all fun p => s.tackHeard 0 p) &&
     bits e 12 10 == out && (s.linkByte 0 == 0) == (east == 0) &&
     stepTo 0 (turned 0 1 0 1) == some (idxOf 0 1) && (linkAt 0 (turned 0 1 0 1)).any (fun l => s.linkByte l == 0)) = true := by
  decide +kernel

theorem test_witness_TacksCaptureAndRelease :
    (let s := (stI { panels := [0], arrived := [0], stepOn := true } core0).wr (K.modelLayers 0) 4
     s.captureReady 0 = true ∧ (s.inst 0).atBoundary (s.rd (K.modelLayers 0)) = false ∧ (s.inst 0).changes = [] ∧ (s.inst 0).hot_ = [] ∧
     s.rd (K.lowWm 0) = 0) ∧
    (let s := (stI { panels := [0], arrived := [0], stepOn := true, passes := 3 } core0).wr (K.modelLayers 0) 4
     s.captureReady 0 = true ∧ (s.inst 0).atBoundary (s.rd (K.modelLayers 0)) = true) ∧
    ((stI {} core0).coresOf 0).Nodup ∧ State.reset.rd (K.instState 0) = 0 ∧ (stI {} core0).runsNoPass 0 = false ∧
    (stI {} core0).captureReady 0 = false ∧ (stI { tackSeq := 1 } { core0 with run := .atTack, tackAt := 0, pc := 7 }).released 0 = true ∧
    (stI {} core0).released 0 = false ∧
    (let s := stI { panels := [0], withheld := true, stepOn := true } core0
     s.rd (K.instState 0) ≠ 0 ∧ s.runsNoPass 0 = true ∧ (s.inst 0).faultDue = false ∧ (s.inst 0).hot_ = [] ∧ s.darnSet = none ∧
     (s.inst 0).sparesReady = false ∧ (s.inst 0).restartDue = false ∧ (s.inst 0).changes = [] ∧ (s.inst 0).stepOn = true ∧
     s.rd (K.lowWm 0) = 0) := by decide +kernel

theorem test_witness_TrapDrainDecidesAndTackOverdueTraps :
    (let s := stI { trapped := true, trapFault := true } { core0 with run := .trapped }
     (s.inst 0).trapped = true ∧ s.drained 0 = true ∧ (s.inst 0).trapFault = true ∧ s.ready 0 = true) ∧
    (let s := stI { trapped := true, stepOn := true } { core0 with run := .trapped }
     (s.inst 0).trapped = true ∧ s.drained 0 = true ∧ (s.inst 0).trapFault = false) ∧
    (let s := stI { trapped := true } { core0 with rqOut := [rR] }
     (s.inst 0).trapped = true ∧ s.drained 0 = false) ∧
    (let s := (stI { trapped := true, trapFault := true } { core0 with run := .trapped }).wr (K.instState 0) 2
     (s.inst 0).trapped = true ∧ s.drained 0 = true ∧ (s.inst 0).trapFault = true ∧ s.ready 0 = false) ∧
    (stI {} core0).rd K.traps = 0 ∧ ((stI { halted := true } core0).inst 0).halted = true ∧ (State.reset.inst 0).trapped = false ∧
    ((stI {} { core0 with run := .halted }).coresOf 0).filter (fun c => decide (((stI {} { core0 with run := .halted }).core c).run = .running)) = [] ∧
    (let s := stI { panels := [0] } core0
     s.ready 0 = true ∧ (s.inst 0).halted = false ∧ s.coresOf 0 = [0] ∧ (s.core 0).run = .running ∧ (s.core 0).inst = some 0) := by decide +kernel

theorem test_witness_ResetsOfComputeFabric :
    (State.reset.wr K.devState 2).rd K.devState = 2 ∧ State.reset.rd K.devState ≠ 2 ∧ State.reset.rd K.devState ≠ 3 ∧
    (let s := wrs State.reset [(K.instState 0, 5), (K.faultCode 0, 1)]
     s.instBusy 0 = false ∧ s.rd (K.instState 0) = 5 ∧ s.rd (K.faultCode 0) ≠ 5) ∧
    State.reset.instBusy 0 = false ∧ State.reset.rd (K.instState 0) ≠ 5 ∧
    (State.reset.wr K.devState 3).rd K.devState = 3 ∧ (State.reset.setInst 0 { busy := .forming }).instBusy 0 = true ∧
    (wrs State.reset [(K.instState 0, 5), (K.faultCode 0, 5)]).rd (K.faultCode 0) = 5 := by decide +kernel

/-- Core 0, of instance 0 on panel 0, with descriptor d on channel 1 and its entry in queue 2; window 0 of port 0 is a
descriptor window of the instance; data address (0, 1) is core 1's. -/
def stDma (d : DDesc) : State :=
  { wrs ((((onCore { coreQ [.word none] with dma := [(1, [d])] }).setInst 0 { panels := [0] }).setRouter 0
      { trans := [(1, 0x8001)] }).setCore 1 { core0 with addrValid := true, coreAddr := 0x10 })
      [(K.cascState, 3), (K.cascInstance, 0), (K.pcieRate 0, 6)] with
    fns := [(0, { bme := true })], winTab := [(0, 0x1000000), (1, 0x40000000), (2, 0x8800)] }
def ddW : DDesc := { ddesc0 with op := 2, walk := [2 ^ 56, 0x800000, 2 ^ 48, 4 * 2 ^ 35], srcSpace := 1 }

/-- Every source and every destination: a fill, the own scratchpad, HBM, the host window and a far core, each on a good way. -/
theorem test_witness_DescriptorsEndWithCompletion :
    [{ ddesc0 with op := 1 }, { ddesc0 with srcSpace := 0, src := 0x800000 }, ddesc0, { ddesc0 with srcSpace := 2, src := 0x100 },
     { ddesc0 with srcSpace := 3, src := 2 ^ 53 + 0x800000 }, { ddesc0 with dstSpace := 1, dst := 65536 },
     { ddesc0 with dstSpace := 2, dst := 0x200 }, { ddesc0 with dstSpace := 3, dst := 2 ^ 53 + 0x800000 }].all (fun d =>
      let s := stDma d
      let k := s.core 0
      k.dmaHead 1 == some d && !k.fenced && decide (d.op ≠ 2) && k.dmaTurn d && decide (0 < d.length) && s.rd K.hzMode == 0 &&
        s.dmaWay 0 d d.length && k.dma.all (fun x => x.2.all fun e => e.refused == 0)) = true ∧
    (let s := stDma ddesc0
     let k := s.core 0
     (k.either 0x800000 64 false = some [4194304] ∧ k.poisoned 4194304 64 = [] ∧ s.hbmBad k.logInst 0 64 = []) ∧
     (s.devRef 0x100 64 (dmaWindow 0)).any (fun r => s.hostReady r.fn) = true ∧
     s.dmaRemote 0 (2 ^ 53 + 0x800000) 64 false = .ok (1, [4194304]) ∧ s.dmaRemote 0 (2 ^ 53 + 0x800000) 64 true = .ok (1, [4194304]) ∧
     (s.core 1).poisoned 4194304 64 = [] ∧ k.either ddesc0.dst 64 true = some [4194304] ∧ s.aperture 0 65536 = false) ∧
    (let d := { ddesc0 with srcSpace := 2, src := 0x100 }
     ((stDma d).setRouter (hsSite 0) { failed := true }).dmaWay 0 d 64 = false ∧
     (let s := { stDma d with fns := [] }
      s.dmaWay 0 d 64 = true ∧ (s.devRef 0x100 64 (dmaWindow 0)).any (fun r => !s.hostReady r.fn) = true)) := by decide +kernel

/-- Walks, refused descriptors, timers and a fenced core. -/
theorem test_witness_DescriptorsEndWithCompletion_rest :
    (let k := (stDma ddW).core 0
     k.dmaHead 1 = some ddW ∧ k.fenced = false ∧ ddW.op = 2 ∧ k.dmaTurn ddW = true ∧ ∀ x ∈ k.dma, ∀ e ∈ x.2, e.refused = 0) ∧
    (let r := { ddesc0 with refused := 6, q := 3 }
     let k := { (stDma ddW).core 0 with dma := [(1, [ddW, r])] }
     k.dmaTurn ddW = true ∧ ddW.refused = 0 ∧ r.refused ≠ 0 ∧ r.q ≠ ddW.q ∧ k.dma = [(1, [ddW, r])]) ∧
    ((onCore { core0 with fenced := true }).core 0).fenced = true ∧ (State.reset.core 0).dmaHead 1 = none ∧
    ddesc0.op = 0 ∧ ddesc0.srcSpace = 1 ∧ (stDma ddesc0).aperture 0 ddesc0.dst = false ∧
    (∀ m ∈ (stDma ddesc0).stacksOf 0, ((stDma ddesc0).stack m).retrain ≠ 2) ∧
    (let s := { stDma ddW with hbmStacks := (List.range 16).map fun m => (m, { retrain := 2 }) }
     ∃ m ∈ s.stacksOf 0, (s.stack m).retrain = 2) ∧
    winNo 0x100 < 1024 ∧
    (let d := { ddesc0 with srcSpace := 0, dstSpace := 1, dst := 0x8000000000000000 }
     let s := stDma d
     (s.core 0).dmaHead 1 = some d ∧ d.op ≠ 2 ∧ d.dstSpace = 1 ∧ s.aperture (s.core 0).logInst d.dst = true) := by decide +kernel

/-- `stH` with a sequence whose first page is on its way out of, or into, the device. -/
def stSw (out : Bool) : State := { stH with
  seqs := [(0, { state := .preempted, listAddr := 0, listLen := 1, moving := [(0, 3, 7)], movingOut := out })] }

def reqW : Req := { slot := 0, key := 7, from_ := .ring, opcode := 1, e := entryA, tokens := [], params := none, seq := some 0 }

theorem test_witness_PageCopiesAndZeroing :
    [true, false].all (fun o => (stSw o).copyOf 0 0 o == some (0, 3, 7) && (stSw o).copyOf 0 1 o == none &&
      ((stSw o).swapRef 0 3).any (fun h => (stSw o).hostReady h.fn) &&
      (({ stSw o with fns := [] } : State).swapRef 0 3).any (fun h => !({ stSw o with fns := [] } : State).hostReady h.fn) &&
      ({ stSw o with winTab := [] } : State).swapRef 0 3 == none &&
      decide (((stSw o).seq 0).inst < 12) && (stSw o).reqs == []) = true ∧
    (let s := { stSw false with reqs := [reqW] }
     (s.reqs.find? fun y => y.live && decide (y.seq = some 0)) = some reqW) ∧
    (let s := stH.setInst 0 { panels := [0], pages := [(7, 1000)] }
     1000 ≤ s.pageUse 0 7 ∧ s.pageUse 0 8 < 1000 ∧ (s.inst 0).poolBase % 65536 = 0 ∧ (∀ y ∈ s.seqs, y.2.listAddr % 4 = 0)) ∧
    (∃ y ∈ (stSw true).seqs, y.2 = (stSw true).seq y.1 ∧ y.2.inst = 0 ∧ 0 < y.2.listLen ∧ y.2.listAddr % 4 = 0) ∧
    2 ^ 20 ≤ (State.reset.setSlot 0 { swap := [(7, 2 ^ 20)] }).swapUse 0 7 ∧ State.reset.swapUse 0 7 < 2 ^ 20 ∧
    (State.reset.setSlot 0 { swap := [(7, 2 ^ 20)] }).swapRef 0 7 = none := by
  decide +kernel

/-- The page list of `stSw`'s sequence names page 7, which is being zeroed. -/
theorem test_witness_PageCopiesAndZeroing_entry :
    let s : State := { stSw true with hbm := memWrite [] 0 (leBytes 4 (2 ^ 29 + 7)), insts := [(0, { panels := [0], pages := [(7, 1000)] })] }
    s.pageEntry 0 0 = 2 ^ 29 + 7 ∧ 1000 ≤ s.pageUse 0 7 := by decide +kernel

/-- A target sequence and its draft; core 5 is the selector of instance 1, which instance 0 is paired with. -/
def stDr (key value : Nat) : State := (({ stH with
  seqs := [(2, { state := .idle, pair := some 3 }), (3, { state := .idle, isDraft := true, pair := some 2, tokens := [1, 2, 3, 4, 5], length := 5 })] }).setCore 5
    { core0 with inst := some 1, addrValid := true, coreAddr := 0x8800 }).wr key value
def dm (target draft base : BitVec 32) (l : List Nat) : DraftMsg := ⟨1, 5, target, draft, base, l⟩

/-- From the partner, to the target and to the draft; from a core that is none; of sequences that are none; before, at and
past the draft's tokens. -/
theorem test_witness_DraftMessagesReachSequences :
    (stDr (K.draftInstance 0) 1).draftFrom 0 (dm 2 3 5 [7]) false true = true ∧
    (stDr (K.draftInstance 1) 0).draftFrom 0 (dm 2 3 5 [7]) true false = true ∧
    (stDr (K.draftInstance 0) 1).draftFrom 0 (dm 2 3 5 [7]) true true = true ∧
    [(false, true), (true, false), (true, true)].all (fun b =>
      !(stDr (K.draftInstance 0) 2).draftFrom 0 { dm 2 3 5 [7] with srcCore := 6 } b.1 b.2) = true ∧
    (let s := stDr (K.draftInstance 0) 1
     s.msgSeq 0 2 false = some 2 ∧ s.msgSeq 0 3 true = some 3 ∧ s.msgSeq 0 9 true = none ∧ s.msgSeq 0 9 false = none ∧
     ((s.seq 3).tokens.length ≤ (dm 2 3 6 [7]).base.toNat - (dm 2 3 6 [7]).tokens.length) ∧
     ((dm 2 3 5 [7]).base.toNat - (dm 2 3 5 [7]).tokens.length < (s.seq 3).tokens.length)) := by decide +kernel

/-- An entry whose count and output fields are unused, and a state in which its handle names sequence 0. -/
def entryU : SubEntry := { entryA with flags := 0, maxNew := 0, output := 0, outputCap := 0 }
def stQ : State := { stH with seqs := [(0, { state := .idle, slot := 0, inst := 0, length := 5000, maxContext := 5000 })] }
/-- The status that the request gets, the ring's head having moved. -/
def statusOf (s : State) (op : Nat) (r : ReqArgs) : Nat :=
  let s1 := s.setSlot 0 { s.slot 0 with sq := { (s.slot 0).sq with head := ((s.slot 0).sq.head + 1) % (s.slot 0).sq.size } }
  s1.reqStatus 0 0 op r (if op = 6 ∨ entryIsNew r.e op = true then none else s.handleSeq 0 r.e.handle.toNat)

theorem test_witness_RequestsAreAccepted :
    reqA.from_ = .ring ∧ stH.ringReads 0 = true ∧ stH.rd (K.slotState 0) = 1 ∧ stH.ready 0 = true ∧ stH.req 0 reqA.e.key = none ∧
    stQ.ringReads 0 = true ∧ stQ.ready 0 = true ∧ stQ.req 0 entryU.key = none ∧ statusOf stH 1 reqA = 0 ∧
    statusOf stH 2 { reqA with e := { entryU with flags := 1 }, params := none } = 0 ∧
    [3, 4, 5].all (fun op => [{ reqA with e := entryU, params := none }, { reqA with e := { entryU with inputCount := 0 }, tokens := [], params := none }].any
      fun r => statusOf stQ op r == 0) = true ∧
    statusOf stQ 6 { reqA with e := { entryU with inputCount := 0 }, tokens := [], params := none } = 0 ∧
    statusOf stH 3 { reqA with e := entryU, params := none } ≠ 0 := by decide +kernel

/-- No ring to read, no association; a slot that drains; an instance that is not Ready; a key there with other bytes, and with
the same ones, active and ended; an association that is open. -/
theorem test_witness_RequestsAreAccepted_else :
    State.reset.ringReads 0 = false ∧ State.reset.frpOpen 0 1 = false ∧
    (stH.modSlot 0 fun x => { x with assocs := [{ assoc := 1 }] }).frpOpen 0 1 = true ∧
    2 ≤ (stH.wr (K.slotState 0) 2).rd (K.slotState 0) ∧ (stH.wr (K.slotState 0) 2).ringReads 0 = true ∧
    (stH.wr (K.instState 0) 1).ready 0 = false ∧ (stH.wr (K.instState 0) 1).ringReads 0 = true ∧
    (let old : Req := { slot := 0, key := 77, from_ := .ring, opcode := 1, e := entryA, tokens := [], params := none }
     let s := fun r : Req => ({ stH with reqs := [r] } : State)
     let same := { old with crc := crc32c (entryCrcBytes entryA 1) }
     (s old).req 0 77 = some old ∧ old.crc ≠ crc32c (entryCrcBytes entryA 1) ∧ (s same).req 0 77 = some same ∧ same.live = true ∧
     ({ same with final := some [] } : Req).live = false) ∧
    stH.keysOf 0 < stH.rd K.dedupEntries := by decide +kernel

/-- A request of association 1 with one emitted token not yet reported. -/
def reqF : Req := { slot := 0, key := 7, from_ := .frp 1, opcode := 1, e := entryA, tokens := [1], params := none, final := none, emitted := [5] }

/-- Doorbells at both sides of the ring's end. -/
theorem test_witness_RingRegistersAndCompletions :
    (stH.slot 0).sq.enable = true ∧ (63 : Word64).toNat < (stH.slot 0).sq.size ∧ (stH.slot 0).sq.size ≤ (64 : Word64).toNat ∧
    (stH.slot 0).cq.enable = true ∧ (63 : Word64).toNat < (stH.slot 0).cq.size ∧ (stH.slot 0).finals = [] ∧
    (State.reset.slot 0).sq.enable = false ∧ (State.reset.slot 0).cq.enable = false ∧
    (let s := stH.setSlot 0 { unannounced := 1 }
     (s.slot 0).unannounced ≠ 0 ∧ (s.fn (vfOf 0)).msixEn = true ∧ (s.fn (vfOf 0)).bme = true ∧ (s.fn (vfOf 0)).unmasked.getLsbD 0 = true) ∧
    (let s := { stH with reqs := [reqF] }
     s.req 0 7 = some reqF ∧ reqF.live = true ∧ reqF.reported < reqF.emitted.length ∧ reqF.from_ = .frp 1) ∧
    (stH.slot 1).unannounced = 0 ∧ stH.rd (K.slotState 1) ≠ 1 ∧ bit (0x100#64).toNat 8 = true ∧ bit (6#64).toNat 8 = false ∧
    (let s := stH.setSlot 0 { finals := [[1]], unannounced := 1 }
     (s.slot 0).finals ≠ [] ∧ (s.slot 0).cq.enable = false ∧ s.rd (K.slotState 0) = 1 ∧
     ({ s with fns := [(vfOf 0, { msixEn := true })] } : State).fn (vfOf 0) = { msixEn := true } ∧
     s.ringPlaced 0 6 0 = false) := by decide +kernel

/-- Slot window 0 of `stH` holds both rings, of 64 entries. -/
def stRing (r : Req) : State := { stH with swin := [(0, 0x1001), (1, 0x100000)], reqs := [r] }
def reqR : Req := { reqF with from_ := .ring }

/-- A ring inside its window; an interim completion through it with and without room, and to a window whose function may not
reach host memory, or that is not there. -/
theorem test_witness_RingRegistersAndCompletions_room :
    (stRing reqR).ringPlaced 0 6 (0x8000 * 2 ^ 48) = true ∧ (stRing reqR).req 0 7 = some reqR ∧ reqR.live = true ∧
    reqR.reported < reqR.emitted.length ∧ (stRing reqR).ringRoom 0 = true ∧ ((stRing reqR).slot 0).finals = [] ∧
    ((stRing reqR).slot 0).teardown = 0 ∧ State.reset.ringRoom 0 = false ∧
    ((stRing reqR).slotRef 0 (0x8000 * 2 ^ 48) 64).any (fun h => (stRing reqR).hostReady h.fn) = true ∧
    (let s := { stRing reqR with fns := [] }
     (s.slotRef 0 (0x8000 * 2 ^ 48) 64).any (fun h => !s.hostReady h.fn) = true) ∧ State.reset.slotRef 0 0 64 = none ∧
    ({ reqR with reported := 1 } : Req).emitted.length ≤ 1 := by decide +kernel

/-- An association with nothing out, and with one datagram out. -/
def fo : FrpOut := { seq := 0, type := 0x11, body := [1] }
def assoc0 (o : List FrpOut) : Assoc := { assoc := 1, ackDue := true, out := o }
def stA (o : List FrpOut) : State := stH.modSlot 0 fun x => { x with assocs := [assoc0 o], frpKey := some [1, 2] }
def frp1 : FrpDatagram := { frp0 with assoc := 1, opcode := 1, entry := some { entryA with inputCount := 2 }, tokens := [5], key := 7 }

/-- What follows a good datagram: its association, a new and an old sequence number, a SUBMIT and a DATA that leave a request
incomplete, and that complete one. That a datagram's tag is right is left open by the model (log entry 5): no state shows it. -/
theorem test_witness_FrpDatagramsAndTimers :
    State.reset.frpGood frp1 = false ∧ (stA []).assoc 0 1 = some (assoc0 []) ∧ (assoc0 []).out = [] ∧ (assoc0 []).ackDue = true ∧
    frp1.entry = some { entryA with inputCount := 2 } ∧ frp1.seq = (assoc0 []).expect ∧ (assoc0 []).beyond = [] ∧
    ({ frp1 with seq := 5 } : FrpDatagram).seq < ({ assoc0 [] with expect := 6 } : Assoc).expect ∧ frp0.entry = none ∧ 1 < 2 ∧
    (stA []).rd (K.slotState 0) = 1 ∧ ((stA []).wr (K.slotState 0) 3).rd (K.slotState 0) = 3 ∧
    (stA []).frpReq 0 77 = none ∧
    (let y : FrpReq := { key := 77, assoc := 1, entry := some (1, { entryA with inputCount := 2 }), tokens := [(0, leBytes 4 5)] }
     y.complete = none) ∧
    (let y : FrpReq := { key := 77, assoc := 1, entry := some (6, { entryU with inputCount := 0 }), tokens := [(0, [])] }
     y.complete.isSome = true) ∧
    (stA [fo]).assoc 0 1 = some (assoc0 [fo]) ∧ ((assoc0 [fo]).out.find? fun o => o.seq == 0) = some fo ∧
    fo.tries < (stA [fo]).inForce ((stA [fo]).rd (K.slotInstance 0)) K.frpRetries ∧
    (stA []).inForce ((stA []).rd (K.slotInstance 0)) K.frpRetries ≤ ({ fo with tries := 100 } : FrpOut).tries ∧
    (stA []).assoc 0 2 = none ∧ ({ assoc0 [] with ackDue := false } : Assoc).ackDue = false := by
  decide +kernel

/-! ### Instances, slots, functions and windows -/

/-- An alteration record for one layer of hidden size 64. -/
def altRec : List Byte :=
  leBytes 2 1 ++ leBytes 2 1 ++ leBytes 4 81 ++ List.replicate 56 0 ++ [0, 0, 1, 0] ++ List.replicate 12 0 ++ [1]
def desc64 : List Byte := List.replicate 12 0 ++ leBytes 4 64 ++ List.replicate 100 0
/-- A descriptor that keeps R330, of one layer and one tile source. -/
def descG : List Byte :=
  strBytes "FJW2DESC" ++ leBytes 2 1 ++ leBytes 2 1 ++ leBytes 4 64 ++ leBytes 4 1 ++ leBytes 4 1 ++ List.replicate 8 0 ++ leBytes 8 8 ++
    leBytes 4 1 ++ List.replicate 20 0
/-- A manifest of three shards of two bytes. -/
def man3 : List Byte :=
  List.replicate 10 0 ++ leBytes 2 3 ++ List.replicate 52 0 ++
    (List.replicate 3 (List.replicate 4 0 ++ [3, 0, 0, 0] ++ leBytes 8 2 ++ List.replicate 48 0)).flatten
/-- A shard of one source of one block. -/
def shard1 : List Byte := List.replicate 4 0 ++ [1] ++ List.replicate (11 + 64 * rowBytes 0 + 64) 0
/-- Instance 0 in a state, with the given fields. -/
def stInst (st : Nat) (x : Inst) : State := (State.reset.wr (K.instState 0) st).setInst 0 x
/-- Instance 0 as `stInst`, its model fetched from the cascade's broadcast. -/
def stBc (st : Nat) (x : Inst) : State := (stInst st x).wr (K.loadSrc 0) (2 ^ 64 - 1)
/-- Instance 0 as `stInst`, its image behind window 0 of a port that is up. -/
def stF (st : Nat) (x : Inst) : State := ({ stH with winTab := [(0, 0x1000000), (1, 0x40000000), (2, 0x8400)] }.wr (K.instState 0) st).setInst 0 x
def loadA : Load := { placed := [0, 1] }

theorem test_witness_InstanceCommands :
    (let s := wrs State.reset [(K.instCols 0, 2), (K.instRows 0, 1)]
     s.instBusy 0 = false ∧ s.rd (K.instState 0) = 0 ∧ inGrid 0 2 1 = true ∧ ∀ p ∈ rectangle 0 2 1, s.panelTaken p = false) ∧
    (let s := wrs State.reset [(K.instCols 0, 5), (K.instRows 0, 1)]
     s.instBusy 0 = false ∧ s.rd (K.instState 0) = 0 ∧ inGrid 0 5 1 = false) ∧
    (let s := stInst 1 { panels := [0] }
     s.instBusy 0 = false ∧ s.rd (K.instState 0) = 1 ∧ s.instNeeded 0 = false) ∧
    (let s := stInst 4 { panels := [0] }
     s.instBusy 0 = false ∧ s.rd (K.instState 0) = 4 ∧ s.instNeeded 0 = false ∧ (s.inst 0).hot_ = [] ∧ ∀ p ∈ (s.inst 0).panels, p < 12) ∧
    (((stInst 3 {}).wr (K.slotInstance 5) 0 |>.wr (K.slotState 5) 1).instBusy 0 = false ∧ ((stInst 3 {}).wr (K.slotInstance 5) 0 |>.wr (K.slotState 5) 1).rd (K.instState 0) = 3 ∧ ((stInst 3 {}).wr (K.slotInstance 5) 0 |>.wr (K.slotState 5) 1).instNeeded 0 = true) ∧
    ((stInst 6 {}).instBusy 0 = false ∧ (stInst 6 {}).rd (K.instState 0) = 6) ∧ (stInst 2 {}).rd (K.instState 0) = 2 ∧
    (stInst 3 { panels := [0] }).rd (K.instState 0) = 3 ∧ (stInst 4 { busy := .unloading }).instBusy 0 = true ∧
    (State.reset.inst 0).busy = .none ∧ ((stInst 0 { busy := .forming }).inst 0).busy = .forming ∧
    ((stInst 4 { busy := .unloading }).inst 0).busy = .unloading ∧ ((stInst 4 { busy := .dissolving true }).inst 0).busy = .dissolving true ∧
    ((stInst 6 { busy := .dissolving false }).inst 0).busy = .dissolving false ∧ (stInst 3 {}).instBusy 0 = false := by
  decide +kernel

/-- Index 2 with a good record: held, with a swap waiting, not held, bound; a bad record; an instance that is not ready. -/
theorem test_witness_InstanceCommands_alterations :
    (let s := fun (x : Inst) (b : List Byte) => ((stInst 4 x).wr (K.modelLayers 0) 1 |>.wr (K.altIndex 0) 2).wrBlob (K.altData 0) b
     let x : Inst := { panels := [0], desc := desc64, alts := [2] }
     [x, { x with altSwap := some (1, []) }, { x with alts := [] }].all (fun x => (s x altRec).ready 0 &&
       alterationOk ((s x altRec).blob (K.altData 0)) ((s x altRec).rd (K.modelLayers 0)) (descHidden ((s x altRec).inst 0).desc)) = true ∧
     (s x altRec).altHeld 0 2 = true ∧ ((s x altRec).inst 0).altSwap = none ∧ (s { x with alts := [] } altRec).altHeld 0 2 = false ∧
     (s { x with altSwap := some (1, []) } altRec).altHeld 0 2 = true ∧ ((s { x with altSwap := some (1, []) } altRec).inst 0).altSwap ≠ none ∧
     (s x [1]).ready 0 = true ∧ alterationOk ((s x [1]).blob (K.altData 0)) ((s x [1]).rd (K.modelLayers 0)) (descHidden ((s x [1]).inst 0).desc) = false ∧
     (∀ n ∈ List.range 512, (s x altRec).rd (K.slotInstance n) = 0 → (s x altRec).rd (K.altBinding n) ≠ 2) ∧
     ((s x altRec).wr (K.slotInstance 5) 0 |>.wr (K.altBinding 5) 2).rd (K.altBinding 5) = 2) ∧
    State.reset.ready 0 = false := by
  decide +kernel

/-- A load from the broadcast and from a window: at LOAD, with nothing in, with the manifest in, with a pattern in; a window
that is absent. -/
theorem test_witness_InstanceCommands_loads :
    (State.reset.wr K.testEnable 1).rd K.testEnable = 1 ∧ State.reset.rd K.testEnable ≠ 1 ∧
    (let s := stBc 1 { panels := [0] }
     s.rd (K.instState 0) = 1 ∧ s.instBusy 0 = false ∧ s.fromCascade 0 = true) ∧
    (let s := stF 1 { panels := [0] }
     s.rd (K.instState 0) = 1 ∧ s.instBusy 0 = false ∧ s.fromCascade 0 = false ∧
     s.devRef (s.rd (K.loadSrc 0)) 64 (fun w => w.role == 1 && w.owner == 0) = some ⟨0, 0, 0x1000000⟩ ∧
     ∀ v ∈ s.aliases 0 (winNo (s.rd (K.loadSrc 0))), s.hostReady (pfOf (v / 128)) = true) ∧
    (let s := stInst 1 { panels := [0] }
     s.fromCascade 0 = false ∧ s.devRef (s.rd (K.loadSrc 0)) 64 (fun w => w.role == 1 && w.owner == 0) = none) ∧
    (State.reset.inst 0).load = none ∧ FetchEnd.error ≠ .done ∧
    (let s := stBc 2 { panels := [0], load := some {} }
     (s.inst 0).load = some {} ∧ (s.inst 0).pattern = [] ∧ s.fromCascade 0 = true ∧ ¬((s.inst 0).desc ≠ [] ∧ (s.inst 0).pattern = []) ∧
     (s.inst 0).manifest = [] ∧ (s.fetchedModel 0 0 5).2 = true ∧ s.manifestCode 0 [] ≠ 0) ∧
    (let s := stInst 2 { panels := [0], load := some {} }
     (s.inst 0).load = some {} ∧ s.fromCascade 0 = false ∧ (s.inst 0).manifest = [] ∧ (s.fetchedModel 0 0 5).2 = false) ∧
    (let s := stInst 2 { panels := [0], load := some {}, manifest := man3 }
     (s.inst 0).manifest ≠ [] ∧ (s.inst 0).desc = [] ∧ (s.fetchedModel 0 (shardAt (s.inst 0).manifest 0) 2).2 = false) ∧
    (let s := stF 2 { panels := [0], load := some { misses := [(0, 2)] }, manifest := man3 }
     (s.inst 0).manifest ≠ [] ∧ (s.inst 0).desc = [] ∧ (s.fetchedModel 0 (shardAt (s.inst 0).manifest 0) 2).2 = true ∧
     shardOk (s.inst 0).manifest 0 [] = false ∧ 2 ≤ mapGet (fun _ => 0) ({ misses := [(0, 2)] } : Load).misses 0 ∧
     mapGet (fun _ => 0) ({} : Load).misses 0 < 2 ∧ descOk descG = true ∧ descOk [] = false ∧
     (s.fetched 0 (s.rd (K.patternSrc 0)) (s.rd (K.patternLen 0))).2 = true ∧
     ((s.wr (K.patternLen 0) (2 ^ 40)).fetched 0 ((s.wr (K.patternLen 0) (2 ^ 40)).rd (K.patternSrc 0)) (2 ^ 40)).2 = false) ∧
    (let s := stBc 2 { panels := [0], load := some {}, manifest := man3, desc := descG }
     (s.inst 0).desc ≠ [] ∧ (s.inst 0).pattern = [] ∧ s.patCode 0 [] ≠ 0 ∧ (s.hbmPlan 0 [] 0).isSome = true) ∧ pat1 ≠ [] := by
  decide +kernel

/-- A manifest of one shard whose digest is that of some bytes; SHA-384 gives 48 of them. The first code of a pattern and of a
manifest that break no rule rests on the same hash, which the model leaves open: those two clauses have no evaluated witness. -/
def manD (kind : Byte) (b : List Byte) : List Byte :=
  (List.replicate 10 0 ++ [1, 0] ++ List.replicate 52 0 ++ (List.replicate 4 0 ++ [kind] ++ List.replicate 3 0 ++ leBytes 8 b.length)) ++
    Config.sha384 b

theorem test_witness_InstanceCommands_digest (kind : Byte) :
    ∀ b ∈ [[], [1], shard1], (Config.sha384 b).length = 48 → shardOk (manD kind b) 0 b = true := by
  have hs : ∀ p d : List Byte, p.length = 80 → d.length = 48 → slice (p ++ d) 80 48 = d := by
    intro p d hp hd
    simp [slice, ← hp, hd]
  have hl : ∀ p d : List Byte, p.length = 80 → slice (p ++ d) 72 8 = slice p 72 8 := by
    intro p d hp
    have h72 : (p ++ d).drop 72 = p.drop 72 ++ d := List.drop_append_of_le_length (by omega)
    have h8 : (p.drop 72 ++ d).take 8 = (p.drop 72).take 8 := List.take_append_of_le_length (by simp; omega)
    simp only [slice, h72, h8]
  intro b hb h
  unfold shardOk
  have hb' : b.length == leNat (slice (manD kind b) 72 8) && Config.sha384 b == slice (manD kind b) 80 48 := by
    unfold manD
    rw [hs _ _ (by simp [leBytes]) h, hl _ _ (by simp [leBytes]), beq_self_eq_true, Bool.and_true]
    simp only [List.mem_cons, List.not_mem_nil, or_false] at hb
    rcases hb with rfl | rfl | rfl <;> decide +revert +kernel
  exact hb'

/-- The next shard of a load: refused by its digest, one of three, the last one, with and without every tile placed and
enabled; sources that convert, that do not and that a tile record contradicts; a region shard that fits and that does not. -/
theorem test_witness_InstanceCommands_shards :
    (let s := fun (l : Load) => stBc 2 { panels := [0], load := some l, pattern := pat1, manifest := man3, desc := descG }
     ((s loadA).inst 0).load = some loadA ∧ ((s loadA).inst 0).pattern ≠ [] ∧ (∀ n, n < 3 → n ∈ ({ done := [0, 1, 2] } : Load).done) ∧
     manCount man3 = 3 ∧ ((List.range (manCount man3)).find? fun m => !loadA.done.contains m) = some 0 ∧ (s loadA).fromCascade 0 = true ∧
     ((s loadA).fetchedModel 0 (shardAt man3 0) (manShard man3 0).length).2 = true ∧ (manShard man3 0).kind ≠ 1 ∧
     loadA.done.length + 1 < manCount man3 ∧ shardOk man3 0 [] = false ∧ mapGet (fun _ => 0) loadA.misses 0 < 2 ∧
     ((s loadA).fillRegion 0 0 (manShard man3 0) [1, 2]).2 = 0 ∧ ((s loadA).fillRegion 0 0 ⟨2, 5, 1, []⟩ [1]).2 ≠ 0 ∧
     (tileRecs pat1).length = 2 ∧ ({ done := [0, 1] } : Load).done.length + 1 = manCount man3 ∧
     [({ done := [0, 1] } : Load), { done := [0, 1], placed := [0, 1] }, { done := [0, 1], placed := [0, 1], programmed := [0, 1] }].all
       (fun l => ((List.range (manCount man3)).find? fun m => !l.done.contains m) == some 2) = true ∧
     convertShard [1] 0 1 [] = none ∧ convertShard [] 0 1 [] = some [] ∧ (((s loadA).keepForms 0 0 []).placeSources 0 []).2 = 0 ∧
     (match convertShard shard1 0 (descTiles descG) loadA.sources with
      | some cs => (((s loadA).keepForms 0 0 cs).placeSources 0 cs).2 == 7
      | none => false) = true) ∧
    (let s := stInst 2 { panels := [0], load := some {}, pattern := pat1, manifest := man3 }
     s.fromCascade 0 = false ∧ (s.fetchedModel 0 (shardAt man3 0) (manShard man3 0).length).2 = false) := by
  decide +kernel

/-- Tile record 1: not placed, enabled, failing for the first and the second time, one of several, the last one. -/
theorem test_witness_InstanceCommands_tiles :
    (let s := stBc 2 { panels := [0], load := some loadA, pattern := pat1, manifest := man3, desc := desc64 }
     (s.inst 0).load = some loadA ∧ ((tileRecs (s.inst 0).pattern)[1]?).isSome = true ∧ (tileRecs (s.inst 0).pattern)[2]? = none ∧
     1 ∈ loadA.placed ∧ 1 ∉ loadA.programmed ∧ 1 ∉ loadA.failedOnce ∧ loadA.done.length < manCount (s.inst 0).manifest) ∧
    1 ∉ ({} : Load).placed ∧ 1 ∈ ({ loadA with programmed := [1] } : Load).programmed ∧ 1 ∈ ({ loadA with failedOnce := [1] } : Load).failedOnce ∧
    (let l : Load := { loadA with done := [0, 1, 2], programmed := [0] }
     1 ∈ l.placed ∧ 1 ∉ l.programmed ∧ manCount man3 ≤ l.done.length ∧ (tileRecs pat1).length ≤ l.programmed.length + 1) := by decide +kernel

/-- Slot 0 in a state, bound to instance 0 for both transports. -/
def stSlot (st : Nat) (x : Slot) : State := wrs { stH with slots := [(0, x)] }
  [(K.slotState 0, st), (K.slotInstance 0, 0), (K.transport 0, 3), (K.altBinding 0, 0xFFFF), (K.instState 0, 3)]

theorem test_witness_SlotCommandsFollowTheLifeCycle :
    ((stSlot 0 { frpKey := some [1] }).enableOk 0 = true ∧ (stSlot 0 {}).enableOk 0 = false) ∧
    [0, 1, 2, 3, 4].all (fun n => (stSlot n {}).rd (K.slotState 0) == n && (stSlot n {}).rd K.testEnable != 1) = true ∧
    (State.reset.wr K.testEnable 1).rd K.testEnable = 1 ∧
    [0, 1].all (fun e => [3, 4].all fun st =>
      let s := (stSlot st { teardown := 2, heldKey := some [3] }).wr (K.enablePending 0) e
      (s.slot 0).teardown == 2 && s.zeroLeft 0 == 0 && (s.slot 0).finals == [] && (s.slot 0).unannounced == 0 && !s.granulesLeft 0 &&
      s.rd (K.slotState 0) == st && s.rd (K.enablePending 0) == e) = true ∧
    ((stSlot 3 { teardown := 2, unannounced := 1 }).slot 0).unannounced ≠ 0 ∧ ((stSlot 3 {}).slot 0).teardown ≠ 2 ∧
    (0xFFFF#16).toNat = 0xFFFF ∧ (stSlot 1 {}).ready 0 = true ∧ (stSlot 1 {}).slotRule 0 0xF 0xFFFF = 0 ∧ (stSlot 1 {}).slotRule 0 0xF 5 ≠ 0 ∧
    ((stSlot 0 {}).wr (K.instState 0) 0).ready 0 = false ∧ ((stSlot 1 {}).modInst 0 fun x => { x with alts := [5] }).altHeld 0 5 = true ∧
    (stSlot 1 {}).rd (K.slotInstance 0) < 12 ∧ (stSlot 1 {}).rd (K.instState 0) ≠ 0 ∧ ((stSlot 0 {}).wr (K.instState 0) 0).rd (K.instState 0) = 0 := by
  decide +kernel

/-- Window 0 of port 0 with the given words, and slot 0's windows. -/
def stWin (t : List (Nat × Nat)) (w : List (Nat × Nat)) : State := { stH with winTab := t, swin := w }

/-- Slot 0 in use and not, with and without a teardown, with and without rings; function 64 and vector 15. Entry 0 of port 0:
not valid with good and with bad fields, valid and free, valid and in use; window 0 of slot 0 not valid with a good size, with none
and with an odd one, and valid. -/
theorem test_witness_PcieFunctionsAndWindows :
    [1, 2, 3].all (fun st => (stSlot st {}).rd (K.slotState 0) == st) = true ∧ ((stSlot 1 {}).slot 0).teardown = 0 ∧
    ((stSlot 3 { teardown := 1 }).slot 0).teardown ≠ 0 ∧ bit ((stSlot 1 {}).rd (K.transport 0)) 0 = true ∧
    bit (State.reset.rd (K.transport 63)) 0 = false ∧ (∀ p ∈ (stH.inst 0).panels, p < 12) ∧
    (let s := { stH with fns := [(64, { bme := true, msixEn := true, pba := 0x8001#16, unmasked := 0x8000#16 })] }
     (s.fn 64).msixEn = true ∧ (s.fn 64).bme = true ∧ (s.fn 64).pba.getLsbD 15 = true ∧ (s.fn 64).unmasked.getLsbD 15 = true) ∧
    (let s := stWin [(0, 0x1000), (1, 0x2000)] [(1, 0x1000)]
     (s.window 0).valid = false ∧ bit (0x9000#64).toNat 15 = true ∧ (s.putWin 0 2 (bits (0x9000#64).toNat 12 0)).windowOkToSet 0 = true ∧
     (s.putWin 0 2 (bits (0x8000#64).toNat 12 0)).windowOkToSet 0 = false ∧ bit (0x1000#64).toNat 15 = false ∧
     bit (s.swinReg 0 0 false) 0 = false ∧ bit (0x1001#64).toNat 0 = true ∧ bit (0x1000#64).toNat 0 = false ∧
     0 < bits (s.swinReg 0 0 true) 47 0 ∧ bits (s.swinReg 0 0 true) 47 0 % 4096 = 0) ∧
    (bit ((stWin [] []).swinReg 0 0 false) 0 = false ∧ bits ((stWin [] []).swinReg 0 0 true) 47 0 = 0) ∧
    (let s := stWin [] [(1, 0x1001)]
     bit (s.swinReg 0 0 false) 0 = false ∧ bits (s.swinReg 0 0 true) 47 0 % 4096 ≠ 0) ∧
    (let s := stWin [(0, 0x1000), (1, 0x2000), (2, 0x8000 + 0x1000)] [(0, 0x1001), (1, 0x1000)]
     (s.window 0).valid = true ∧ bit (0#64).toNat 15 = false ∧ s.windowInUse 0 = true ∧ bit (s.swinReg 0 0 false) 0 = true) ∧
    (let s := stWin [(0, 0x1000), (1, 0x2000), (2, 0x8000 + 0xC00)] []
     (s.window 0).valid = true ∧ s.windowInUse 0 = false) := by decide +kernel

/-! ### Links, answers, Zwiys -/

/-- A transfer in sequence for a seam that expects 5. -/
def tr5 : SeamTransfer := { headerPair := 3, headerSeq := 5, headerCrcOk := true, payloadBurst := none, ack := 0, replay := false, type := 9, src := 1, dst := 0xFF, hops := 1, tag := 3, taint := false, payload := [] }

theorem test_witness_LinksFollowTheirTraining :
    (State.reset.port 0).perst = false ∧ State.reset.rd (K.pcieRate 0) = 0 ∧ stH.rd (K.pcieRate 0) ≠ 0 ∧
    (∀ w ∈ State.reset.hbmErr, w.1 < 2 ^ 37) ∧ (stH.fn (pfOf 0)).msixEn = true ∧ (stH.fn (pfOf 0)).bme = true ∧
    (stH.fn (pfOf 0)).unmasked.getLsbD 3 = true ∧ ({ stH with fns := [(0, { msixEn := true })] }.fn (pfOf 0)).bme = false ∧
    stH.cores = [] ∧ (∀ i ∈ List.range 12, (stH.inst i).load = none) ∧
    (State.reset.setPort 0 { sris := true }).port 0 = { sris := true } ∧ ({ stH with ports := [(0, { sris := false })] }.port 0).sris = false ∧
    (wrs stH [(K.ethLink 0, 1)]).rd (K.ethLink 0) = 1 ∧ State.reset.rd (K.ethLink 0) ≠ 1 ∧ State.reset.rd (K.seamState 0) ≠ 3 ∧
    (State.reset.wr (K.seamState 0) 3).rd (K.seamState 0) = 3 ∧ State.reset.rd (K.seamState 0) ≠ 2 := by
  decide +kernel

/-- Up seams: a fourth resend asked for; a transfer in sequence for this part, to be sent back where it came from and to be sent on
over another seam; a corrupt one, at first, after four replays, and after 4,096 discards in the window. -/
theorem test_witness_LinksFollowTheirTraining_transfer :
    (let s := { State.reset.wr (K.seamState 0) 2 with seams := [(0, { expect := 5, resent := 3 })] }
     s.rd (K.seamState 0) = 2 ∧ tr5.headerCrcOk = true ∧ { tr5 with replay := true }.replay = true ∧ (s.seam 0).resent + 1 = 4 ∧
     (s.seam 0).tx = [] ∧ tr5.replay = false ∧ seamFault tr5 (s.seam 0).expect = 0) ∧
    ({ State.reset with seams := [(0, { resent := 4 })] }.seam 0).resent = 4 ∧ State.reset.me = tr5.dst ∧
    (let s := { wrs State.reset [(K.memberIndex, 1), (K.seamState 4, 2), (K.seamState 5, 2), (K.seamPeer 5, 9)] with
       casc := { tree := [(0, 1)] }, seams := [(4, { expect := 5 }), (5, { expect := 5 })] }
     { tr5 with dst := 0 }.dst ≠ s.me ∧ tr5.type ≠ 0x20 ∧ tr5.type ≠ 0x22 ∧ s.nextMember 0 = some 0 ∧ s.seamFor 0 = some 4 ∧
     [4, 5].all (fun n => s.rd (K.seamState n) == 2 && seamFault tr5 (s.seam n).expect == 0) = true) ∧
    seamFault { tr5 with headerCrcOk := false } 5 = 2 ∧ seamFault { tr5 with headerPair := 2 } 5 = 1 ∧
    (let x : Seam := { expect := 5, discards := 4095 }
     x.replays ≠ 4 ∧ x.discards + 1 ≤ 4096) ∧
    ({ replays := 4 } : Seam).replays = 4 ∧ (let x : Seam := { discards := 4096 }
     ¬(x.winStart + 1000000 ≤ State.reset.uptime) ∧ 4096 < x.discards + 1) := by decide +kernel

/-- Port 0 up with an IPv4 and an IPv6 address. -/
def v6a : List Byte := List.replicate 15 0 ++ [1]
def stEth : State := wrs (State.reset.wrBlob (K.ethIpv6 0) v6a) [(K.ethLink 0, 1), (K.ethIpv4 0, 77)]

theorem test_witness_RequestsFromOutsideAreAnswered :
    stEth.rd (K.ethLink 0) = 1 ∧ stEth.ethV4 0 = some 77 ∧ netNat [0, 0, 0, 77] = 77 ∧ stEth.ethV6 0 = some v6a ∧
    State.reset.rd (K.ethLink 0) ≠ 1 ∧ (1 : Nat) ≠ 0 ∧ (16 ≤ 27 ∧ 27 < 28) ∧ ¬((1 ≤ 28 ∧ 28 ≤ 5) ∨ (16 ≤ 28 ∧ 28 < 28)) ∧
    ¬((1 ≤ 6 ∧ 6 ≤ 5) ∨ (16 ≤ 6 ∧ 6 < 28)) ∧
    (State.reset.wr K.testEnable 1).rd K.testEnable = 1 ∧ State.reset.rd K.testEnable ≠ 1 := by decide +kernel

/-- A Zwiys message to an entry. -/
def zm (op : Nat) (fl : BitVec 8) (key : Nat) (pl : List Byte) : ZMsg := ⟨1, op, fl, 0, 9, key / 256, key % 256, 0, 0, pl.length, 0, pl.length, pl⟩
/-- The row of an entry. -/
def rowOf (key : Nat) : DictRow :=
  match dictRow (key / 256) (key % 256) with
  | some r => r
  | none => ⟨0, 0, 0, 0, "", .u8, .ro, [], 0, false, 0, 0, none⟩
/-- MCTP session 0 with a set staged for instance 0 and a subscription, and DTLS session 0 open. -/
def stZ : State := { stH with sessions := [(0, { isOpen := true }),
  (16, { isOpen := true, baste := [(K.loadSrc 0, leBytes 8 0)], scope := 0, subs := [⟨9, 0xA060, 4, 5, 0, [1]⟩] })] }

/-- The message can be carried out on the entry: the session sees it and its role is listed. -/
def goes (s : State) (x : SessId) (m : ZMsg) (op : Nat) : Bool :=
  s.carries x && s.keptFor x m == none && !malformed m op && s.entryFor x m == some (rowOf (m.index * 256 + m.sub)) &&
    (rowOf (m.index * 256 + m.sub)).roles.contains (sesRole x)

theorem test_witness_ZwiysRequestsReadStageAndWrite :
    [SessId.mctp 0, .dtls 0].all (fun x => stZ.carries x && stZ.keptFor x (zm 1 0 (K.cplTimeout 0) []) == none) = true ∧
    State.reset.carries (.dtls 0) = false ∧ ({ stZ with kept := [([], 9, [7])] } : State).keptFor (.dtls 0) (zm 1 0 (K.cplTimeout 0) []) = some [7] ∧
    malformed { zm 1 0 (K.cplTimeout 0) [] with reserved := 1 } 1 = true ∧ malformed (zm 1 0 (K.cplTimeout 0) []) 1 = false ∧
    stZ.entryFor (.mctp 0) (zm 1 0 0xA060EE []) = none ∧
    (stZ.carries (.pf 0) = true ∧ stZ.entryFor (.pf 0) (zm 1 0 0x110101 []) = some (rowOf 0x110101) ∧
     (rowOf 0x110101).roles.contains (sesRole (.pf 0)) = false ∧ malformed (zm 2 0 0x110101 [1]) 2 = false) ∧
    goes stZ (.mctp 0) (zm 1 0 0x400035 []) 1 = true ∧ (rowOf 0x400035).acc = .wo ∧
    goes stZ (.mctp 0) { zm 1 0 (K.cplTimeout 0) [] with offset := 4 } 1 = true ∧ (rowOf (K.cplTimeout 0)).acc = .rw ∧
    (rowOf (K.cplTimeout 0)).ty ≠ .blob ∧
    [K.logData, 0x802003, K.idCertChain, K.cplTimeout 0].all (fun k => goes stZ (.mctp 0) (zm 1 0 k []) 1 && (rowOf k).acc != .wo) = true ∧
    0x802003 = K.dbgChallenge ∧ (rowOf K.logData).ty = .blob ∧ K.cplTimeout 0 ≠ K.logData := by decide +kernel

theorem test_witness_ZwiysRequestsReadStageAndWrite_writes :
    (let m := zm 2 1 (K.pcieRate 0) [1]
     goes stZ (.mctp 0) m 2 = true ∧ bit m.flags.toNat 0 = true ∧ (rowOf (K.pcieRate 0)).acc = .ro) ∧
    (let m := zm 2 0 (K.pcieRate 0) [1]
     goes stZ (.mctp 0) m 2 = true ∧ bit m.flags.toNat 0 = false) ∧
    (let r := rowOf (K.cplTimeout 0)
     [zm 2 0 (K.cplTimeout 0) (leBytes 4 16000), zm 2 0 (K.cplTimeout 0) (leBytes 4 500000), zm 2 0 (K.cplTimeout 0) [1],
       { zm 2 0 (K.cplTimeout 0) [1] with offset := 4 }].all (fun m => goes stZ (.mctp 0) m 2) = true ∧
     r.shape [1] ≠ 0 ∧ r.shape (leBytes 4 16000) = 0 ∧ K.cplTimeout 0 ≠ K.commit ∧ K.cplTimeout 0 ≠ K.discard ∧ r.acc = .rw) ∧
    (let r := rowOf K.clientTable
     r.ty = .blob ∧ r.acc = .rw ∧ r.max = 512 ∧ blockAddressed K.clientTable = false ∧ goes stZ (.mctp 0) (zm 2 0 K.clientTable [1]) 2 = true ∧
     goes stZ (.mctp 0) { zm 2 0 K.clientTable [1] with offset := 512 } 2 = true ∧ goes stZ (.mctp 0) (zm 2 2 K.clientTable [1]) 2 = true ∧
     bit (zm 2 2 K.clientTable [1]).flags.toNat 1 = true ∧ bit (zm 2 0 K.clientTable []).flags.toNat 1 = false ∧
     goes stZ (.mctp 0) (zm 2 1 K.clientTable [1]) 2 = true) ∧
    (stZ.ses 16).blob = none ∧ (({ blob := some (5, []) } : Ses).blob = some (5, []) ∧ 5 ≠ K.clientTable) ∧
    (rowOf K.fwData).ty = .blob ∧ (rowOf K.fwData).acc = .wo ∧ goes stZ (.mctp 0) (zm 2 0 K.fwData [1]) 2 = true ∧ blockAddressed K.fwData = true := by
  decide +kernel

theorem test_witness_ZwiysRequestsReadStageAndWrite_bastes :
    (let r := rowOf (K.cplTimeout 0)
     let m := zm 2 1 (K.cplTimeout 0) (leBytes 4 16000)
     goes stZ (.mctp 0) m 2 = true ∧ bit m.flags.toNat 0 = true ∧ r.acc = .rw ∧ blockAddressed (K.cplTimeout 0) = false ∧
     sesRole (.mctp 0) ≠ .T ∧ r.ty ≠ .blob ∧ stZ.entryRule (K.cplTimeout 0) (leNat m.payload) m.payload = 0 ∧
     (stH.ses (sesNo (.mctp 0))).baste = [] ∧ (stZ.ses 16).baste ≠ [] ∧ (stZ.ses 16).scope ≠ stZ.scopeOf m.index ∧
     ((stZ.ses 16).baste.any fun e => e.1 == K.cplTimeout 0) = false ∧ 256 ≤ (List.replicate 256 ((5, []) : Nat × List Byte)).length) ∧
    (goes stZ (.mctp 0) (zm 2 1 (K.tThrottle) (leBytes 4 (2 ^ 31))) 2 = true ∧
     [4, 6].contains (stZ.entryRule K.tThrottle (2 ^ 31) (leBytes 4 (2 ^ 31))) = true) ∧
    (let m := zm 2 0 K.commit [1]
     goes stZ (.mctp 0) m 2 = true ∧ m.offset = 0 ∧ (stZ.ses 16).commitState ≠ 2 ∧ (stZ.ses 16).baste ≠ [] ∧ (stZ.ses 16).scope = 0 ∧
     stZ.rd (K.instState 0) ≠ 0 ∧ (stZ.wr (K.instState 0) 0).rd (K.instState 0) = 0 ∧ ({ commitState := 2 } : Ses).commitState = 2 ∧
     ((stZ.ses 16).baste.any fun e => (List.range 12).any fun i => e.1 == K.recipeSelect i && stZ.recipeShared i) = false ∧
     (stH.ses 16).baste = [] ∧ (stH.ses 16).commitState ≠ 2) ∧
    (let s := wrs stZ [(K.cascState, 3), (K.cascInstance, 0), (K.cascShape, 1)]
     ([(K.recipeSelect 0, [0])].any fun e : Nat × List Byte => (List.range 12).any fun i => e.1 == K.recipeSelect i && s.recipeShared i) = true ∧
     sesRole (.mctp 0) ≠ .C ∧ s.carries .casc = true ∧ sesRole .casc = .C) ∧
    goes stZ (.mctp 0) (zm 2 0 K.discard [1]) 2 = true ∧ ({ scope := 0xFF } : Ses).scope = 0xFF := by decide +kernel

/-- A baste of a read-only entry, of an RW one from a tenant's session, and of an RW number that is too short. -/
theorem test_witness_BasteRefusesWhatMayNotBeBasted :
    (let m := zm 2 1 (K.pcieRate 0) [1]
     stZ.carries (.mctp 0) = true ∧ stZ.keptFor (.mctp 0) m = none ∧ malformed m 2 = false ∧ bit m.flags.toNat 0 = true ∧
     stZ.entryFor (.mctp 0) m = some (rowOf (K.pcieRate 0)) ∧ (rowOf (K.pcieRate 0)).roles.contains (sesRole (.mctp 0)) = true ∧
     (rowOf (K.pcieRate 0)).acc ≠ .rw) ∧
    (let m := zm 2 1 (K.cplTimeout 0) [1]
     let r := rowOf (K.cplTimeout 0)
     stZ.keptFor (.mctp 0) m = none ∧ malformed m 2 = false ∧ bit m.flags.toNat 0 = true ∧ stZ.entryFor (.mctp 0) m = some r ∧
     r.roles.contains (sesRole (.mctp 0)) = true ∧ r.acc = .rw ∧ blockAddressed (K.cplTimeout 0) = false ∧
     sesRole (.mctp 0) ≠ .T ∧ r.ty.bytes = false ∧ r.shape m.payload ≠ 0) ∧
    blockAddressed K.fwData = true := by decide +kernel

/-- Segment 0 enabled and one client listed; the sessions as given. -/
def stDtls (l : Map Ses) : State :=
  { (State.reset.wr (K.segEnable 0) 1).wrBlob K.clientTable (List.replicate 48 1 ++ List.replicate 16 0) with sessions := l }

theorem test_witness_ZwiysSessionsAndSubscriptions :
    State.reset.carries (.dtls 0) = false ∧
    ({ stZ with kept := [([], 9, [7])] } : State).keptFor (.dtls 0) (zm 3 0 (K.cplTimeout 0) []) = some [7] ∧
    (let m := zm 3 0 (K.cplTimeout 0) []
     goes stZ (.mctp 0) m 3 = true ∧ (rowOf (K.cplTimeout 0)).acc ≠ .wo ∧ m.total ≤ 60000 ∧ isMailbox (.mctp 0) = false ∧
     { m with total := 60000 }.total ≤ 60000 ∧ 60000 < { m with total := 60001 }.total ∧ (stZ.ses 16).subs.length < 64 ∧
     64 ≤ (List.replicate 64 (⟨9, 0xA060, 4, 5, 0, [1]⟩ : Subscr)).length ∧ malformed { m with reserved := 1 } 3 = true) ∧
    (isMailbox (.pf 0) = true ∧ stZ.carries (.pf 0) = true ∧ stZ.keptFor (.pf 0) (zm 3 0 (K.cplTimeout 0) []) = none) ∧
    (stZ.entryFor (.mctp 0) (zm 3 0 0xA060EE []) = none ∧ malformed (zm 3 0 0xA060EE []) 3 = false) ∧
    (goes stZ (.mctp 0) (zm 3 0 0x400035 []) 3 = true ∧ (rowOf 0x400035).acc = .wo) ∧
    (goes stZ (.mctp 0) (zm 4 0 (K.cplTimeout 0) []) 4 = true ∧ malformed { zm 4 0 (K.cplTimeout 0) [] with reserved := 1 } 4 = true ∧
     ∃ y ∈ (stZ.ses 16).subs, y.number = (zm 4 0 (K.cplTimeout 0) []).requestId.toNat) ∧
    (∀ y ∈ (stH.ses 16).subs, y.number ≠ 9) := by decide +kernel

theorem test_witness_ZwiysSessionsAndSubscriptions_rest :
    (stZ.ses 16).subs.find? (fun y => y.number == 9) = some ⟨9, 0xA060, 4, 5, 0, [1]⟩ ∧ dictRow 0xA060 4 = some (rowOf (K.cplTimeout 0)) ∧
    (stZ.ses 16).subs.find? (fun y => y.number == 8) = none ∧ dictRow 0xA060 0xEE = none ∧
    (let r := rowOf (K.cplTimeout 0)
     let now := stZ.valueFor (.mctp 0) r (K.cplTimeout 0)
     (⟨9, 0xA060, 4, 0, 0, now⟩ : Subscr).period = 0 ∧ now ≠ [1] ∧ (⟨9, 0xA060, 4, 5, 0, [1]⟩ : Subscr).period ≠ 0) ∧
    isMailbox (.pf 0) = true ∧ (State.reset.ses 24).busy = false ∧ ({ State.reset with sessions := [(24, { busy := true })] }.ses 24).busy = true ∧
    (0#64) ≠ 1 ∧ (stDtls []).rd (K.segEnable 0) ≠ 0 ∧ ((stDtls []).wr (K.segEnable 0) 0).rd (K.segEnable 0) = 0 ∧
    ((List.range 16).find? fun j => !((stDtls []).ses j).isOpen) = some 0 ∧
    (stDtls []).clientListed (List.replicate 48 1) = true ∧ (stDtls []).clientListed [1] = false ∧
    (∀ j ∈ List.range 16, ((stDtls ((List.range 16).map fun j => (j, { isOpen := true }))).ses j).isOpen = true) := by decide +kernel

/-- A valid recipe, an invalid one; alone, and as master and member of a cascade that is widened. -/
theorem test_witness_DiagnosticWritesWaitForTheirTack :
    (let s := (stI { panels := [0], recipes := [(3, 1)] } core0).wr (K.modelLayers 0) 1
     s.recipeRule 0 [3] = 0 ∧ s.recipeShared 0 = false ∧ s.recipeRule 0 [] ≠ 0 ∧ s.recipeRule 0 [4] ≠ 0 ∧
     [1, 2].all (fun role => let t := wrs s [(K.cascState, 3), (K.cascInstance, 0), (K.cascShape, 1), (K.cascRole, role)]
       t.recipeRule 0 [3] == 0 && t.recipeShared 0 && t.isMaster == (role == 2)) = true) ∧
    (1199#16).toNat < 1200 ∧ 1200 ≤ (1200#16).toNat ∧
    ((stH.setInst 0 { panels := [0] }).wr K.ccCore 3).instForCore 3 = some 0 ∧ State.reset.instForCore (State.reset.rd K.ccCore) = none ∧
    State.reset.rd (K.snapState 0) ≠ 1 ∧ (State.reset.wr (K.snapState 0) 1).rd (K.snapState 0) = 1 := by
  decide +kernel

/-! ### Time, pins, power, the cascade, firmware -/

/-- Segment 0 enabled, a clock that a wall time has set; the other segment's rank as given. -/
def stPtp (other : Map Nat) : State :=
  { wrs State.reset [(K.segEnable 0, 1), (K.ptpSegment, 0)] with ptp := other, time := 10 ^ 18 + 500000000, wallTaken := true }

theorem test_witness_TimeSourcesAndMemoryStacks :
    (let m : PtpMsg := ⟨4, 10 ^ 18, -3, (stPtp []).rd K.ptpDomain⟩
     let ranked := fun (s : State) => { s with ptp := mapSet (fun _ => 0) s.ptp 0 (m.rank + 1) }
     m.domain = (stPtp []).rd K.ptpDomain ∧ { m with domain := m.domain + 1 }.domain ≠ (stPtp []).rd K.ptpDomain ∧
     (stPtp []).rd (K.segEnable 0) ≠ 0 ∧ (ranked (stPtp [])).bestSegment = some 0 ∧ (ranked (stPtp [(1, 3)])).bestSegment = some 1) ∧
    ((stPtp []).wr (K.segEnable 0) 0).rd (K.segEnable 0) = 0 ∧ (stPtp []).timeFromMaster = false ∧ (stPtp []).wallTaken = true ∧
    State.reset.wallTaken = false ∧ (wrs State.reset [(K.cascState, 3), (K.cascRole, 1)]).timeFromMaster = true ∧
    (stPtp []).rd K.ptpSegment = 0 ∧ 1 < State.reset.rd K.ptpSegment ∧
    (let lost := fun (s : State) => { s with ptp := mapSet (fun _ => 0) s.ptp 0 0 }
     (lost (stPtp [(0, 2)])).bestSegment = none ∧ (lost (stPtp [(0, 2), (1, 3)])).bestSegment = some 1) ∧
    2 ^ 33 - 1 < 2 ^ 33 ∧
    (let s := { State.reset with hbmErr := [(5, 2)] }
     max (eccNo .single) (mapGet (fun _ => 0) s.hbmErr 4) = 1 ∧ max (eccNo .clean) (mapGet (fun _ => 0) s.hbmErr 5) = 2 ∧
     max (eccNo .clean) (mapGet (fun _ => 0) s.hbmErr 4) = 0) ∧
    (let s := wrs (State.reset.setInst 0 { panels := [0, 1, 2, 3, 8, 9, 10, 11] }) [(K.hbmState 0, 2), (K.instState 0, 4)]
     s.instOfPanel (stackPanel 0) = some 0 ∧ s.rdI K.hbmTStop 32 < 120000 ∧ s.rdI K.hbmTThrottle 32 < 120000 ∧ (s.stack 0).limited = false ∧
     (s.stack 0).retrain = 0 ∧ s.rd (K.hbmState 0) = 2) ∧
    (let s := wrs (State.reset.setInst 0 { panels := [0, 1, 2, 3, 8, 9, 10, 11], hot_ := [0x100] }) [(K.instState 0, 4)]
     (20000 : Int) < s.rdI K.hbmTThrottle 32 ∧ ((s.inst 0).hot_.filter fun c => c != 0x100) = [] ∧ (s.inst 0).hostStop = false) ∧
    (State.reset.wr (K.hbmState 0) 2).instOfPanel (stackPanel 0) = none ∧ State.reset.rd (K.hbmState 0) ≠ 2 ∧
    ((State.reset.setStack 0 { retrain := 2 }).stack 0).retrain = 2 ∧ (State.reset.stack 0).retrain ≠ 2 := by
  decide +kernel

theorem test_witness_PinsSwitchAndRaiseAlerts :
    (let s := State.reset
     (7#8).toNat ≤ 7 ∧ s.sbRule 0 1 7 = 0 ∧ s.rd (K.sbState 0) = 0 ∧ (s.pin 0).func ≠ 7 ∧ (s.pin 0).alert = false ∧ 7 < (8#8).toNat ∧
     s.sbRule 0 1 (s.pin 0).func = 0 ∧ (s.pin 0).func ≤ 7) ∧
    ((State.reset.wr (K.sbState 0) 1).sbRule 0 1 7 = 0 ∧ (State.reset.wr (K.sbState 0) 1).rd (K.sbState 0) = 1) ∧
    ((State.reset.wr (K.sbState 0) 2).rd (K.sbState 0) = 2 ∧ ((State.reset.wr (K.sbState 0) 2).pin 0).held = none) ∧
    (((State.reset.wr (K.sbState 0) 2).setPin 0 { held := some 3 }).pin 0).held = some 3 ∧ 3 ≠ ({ held := some 3 } : Pin).want ∧
    ({ held := some 3, want := 3 } : Pin).held = some ({ held := some 3, want := 3 } : Pin).want ∧
    ((State.reset.setPin 0 { func := 7 }).pin 0).func = 7 ∧ (State.reset.setPin 0 { func := 7 }).rd (K.sbState 0) = 0 ∧
    ((State.reset.setPin 0 { func := 7 }).pin 0).alert = false ∧ ((State.reset.setPin 0 { func := 7, alert := true }).pin 0).alert = true := by
  decide +kernel

def stNote (w : Word) : State := onCore { core0 with notices := [w] }
def ntA (c d : Nat) : Notice := ⟨c, 5, d, 0, 3⟩

/-- Notices: a step in time, an early one, one too many, a cancelling one, two bad ones. -/
theorem test_witness_PowerRegionsReportAndAct_notices :
    (State.reset.core 0).notices = [] ∧
    (let v := 47 * 1024 + 5
     let s := stNote (BitVec.ofNat 32 v)
     (s.core 0).notices = BitVec.ofNat 32 v :: [] ∧ bits v 31 28 = 0 ∧ bits v 19 18 < 2 ∧ 47 ≤ bits v 17 10 ∧
     ((s.region (regionOf 0)).notices.filter fun n => decide (s.time < n.due)).length < 8) ∧
    (bits (46 * 1024) 31 28 = 0 ∧ bits (46 * 1024) 19 18 < 2 ∧ bits (46 * 1024) 17 10 < 47) ∧
    (let s := (stNote (47 * 1024)).setRegion (regionOf 0) { notices := List.replicate 8 (ntA 0 5) }
     8 ≤ ((s.region (regionOf 0)).notices.filter fun n => decide (s.time < n.due)).length) ∧
    (bits (2 * 2 ^ 18 + 47 * 1024) 31 28 = 0 ∧ bits (2 * 2 ^ 18 + 47 * 1024) 19 18 = 2) ∧ bits (2 ^ 28) 31 28 ≠ 0 ∧ bits (3 * 2 ^ 18) 19 18 = 3 ∧
    (State.reset.region 0).notices = [] ∧ ((State.reset.setRegion 0 { notices := [ntA 0 5, ntA 1 3] }).region 0).notices ≠ [] := by
  decide +kernel

/-- The comparators below and above; both ranges of the converter and a mean; throttle levels 0, 9 and 10, hot, cool for the
tenth time and in between; a region of an instance that is held, and of none; idle, stale and faulty cases. -/
theorem test_witness_PowerRegionsReportAndAct :
    (let s := { State.reset with dict := [(K.vmin 0, 900), (K.vSet 0, 800)] }
     stepMv 47 < s.rd (K.vmin 0) ∧ stepMv 47 + 60 < s.rd (K.vSet 0)) ∧
    (let s := { State.reset with dict := [(K.vmin 0, 100), (K.vSet 0, 100)] }
     ¬stepMv 47 < s.rd (K.vmin 0) ∧ ¬stepMv 47 + 60 < s.rd (K.vSet 0)) ∧
    (let x := (State.reset.setRegion 0 { coarse := true, low := 3 }).region 0
     x.coarse = true ∧ x.low = 3 ∧ 160 * min 4095 (34000 * 4096 / 160000) ≤ 34 * 4096 ∧ 34 * 4096 < 160 * min 4095 (35000 * 4096 / 160000)) ∧
    (State.reset.region 0).coarse = false ∧ ((State.reset.setRegion 0 { count := 999 }).region 0).count = 999 ∧
    (let s := (stI { panels := [0], hot_ := [0] } core0).wr (K.instState 0) 4
     s.rdI K.tThrottle 32 < 130000 ∧ s.rdI K.tThrottle 32 - 3000 ≤ s.rdI K.tThrottle 32 ∧ (20000 : Int) < s.rdI K.tThrottle 32 - 3000 ∧
     s.instOfPanel (0 / 25) = some 0 ∧ (∀ m ∈ (s.inst 0).panels, m < 12) ∧ s.regionsCool 0 = true ∧ (s.wr (K.temp 1) 130000).regionsCool 0 = false ∧
     0 ∈ (s.inst 0).hot_ ∧ ((s.inst 0).hot_.filter fun c => decide (0x100 ≤ c)) = [] ∧ (s.inst 0).hostStop = false) ∧
    (State.reset.wr (K.throttle 0) 10).rd (K.throttle 0) = 10 ∧ (State.reset.region 0).top = 0 ∧ ({ cool := 9 } : Region).cool = 9 ∧
    0 ∉ ((stI { panels := [0] } core0).inst 0).hot_ ∧ State.reset.instOfPanel 0 = none ∧
    State.reset.rd (K.regState 0) ≠ 4 ∧ (State.reset.wr (K.regState 0) 4).rd (K.regState 0) = 4 ∧
    (rthOf (((2180, 10959) :: (List.range 59).map fun (j : Nat) => ((1000 : Int) + 20 * (j : Int), (5000 : Int) + 101 * (j : Int))).take 60)).isSome = true ∧
    rthOf ([(0, 0)].take 60) = none ∧ (State.reset.wr K.pwrState 2).rd K.pwrState = 2 ∧ State.reset.rd K.pwrState ≠ 2 ∧
    (State.reset.wr (K.rthStale 0) 1).rd (K.rthStale 0) = 1 ∧ (State.reset.wr (K.rthStale 0) 0).rd (K.rthStale 0) ≠ 1 ∧
    (let s := (stI { panels := [0] } core0).wr K.retDelay 5
     s.rd (K.instState 0) = 3 ∧ s.rd K.retDelay ≠ 0 ∧ (s.inst 0).stepOn = false ∧ (s.inst 0).retention = false ∧ (s.inst 0).replacing = []) ∧
    State.reset.rd (K.instState 0) ≠ 3 := by
  decide +kernel

/-- The power request as given, the last step finished, and entries. -/
def stPw (en : Bool) (step : Nat) (l : List (Nat × Nat)) : State :=
  { wrs State.reset l with power := { State.reset.power with pwrEn := en, step := step } }
def upA (b0 b1 : Bool) : BringUp := ⟨b0, b1, [], [], [], [], [], [], [], [], [], 5⟩

theorem test_witness_PowerSequencesAndResets :
    (let s := stPw true 0 [(K.pwrEnable, 1)]
     s.powerWanted = true ∧ s.sec.recovery = false ∧ s.rd K.pwrState = 0) ∧
    (let s := stPw true 0 [(K.pwrState, 4), (K.pwrEnable, 1)]
     s.powerWanted = true ∧ s.rd K.pwrState = 4 ∧ { s.power with recovered := true }.recovered = true ∧ s.power.recovered = false ∧
     s.sec.recovery = false ∧ s.railsOn = false) ∧
    (let s := stPw false 5 [(K.pwrState, 2)]
     s.powerWanted = false ∧ s.rd K.pwrState = 2 ∧ s.power.step = 5 ∧ s.railsOn = true) ∧
    ((stPw false 0 [(K.pwrState, 4)]).rd K.pwrState = 4 ∧ (stPw false 0 [(K.pwrState, 4)]).powerWanted = false) ∧
    900000 ≤ (900000#32).toNat ∧ (1400000#32).toNat ≤ 1400000 ∧ 1400000 < (1400001#32).toNat ∧ State.reset.quietDevice = true ∧
    State.reset.rd K.meshState < 2 ∧ (stI {} core0).quietDevice = false ∧
    (let s := wrs State.reset [(K.meshState, 2), (K.mclkNow, 1000000)]
     s.rd K.meshState = 2 ∧ s.rd K.hzMode = 0 ∧ (1400000#32).toNat ≠ s.rd K.mclkNow ∧ s.quietDevice = true) ∧
    (2#8).toNat ≤ 2 ∧ 2 < (3#8).toNat ∧ (State.reset.wr K.meshState 3).rd K.meshState = 3 ∧ State.reset.rd K.meshState ≠ 3 ∧
    (1000 ≤ 9999 ∧ 9999 < 10000) ∧
    (∀ i ∈ List.range 12, State.reset.rd (K.instState i) ≠ 2 ∧ State.reset.journalState i ≠ 3 ∧ ∀ p ∈ (State.reset.inst i).panels, p < 12) ∧
    State.reset.sec.holding = false ∧ ({ State.reset with sec := { State.reset.sec with holding := true, watchdogs := 2 } }.sec).watchdogs = 2 := by
  decide +kernel

/-- Bring-up of a device whose rails are wanted on and of one whose are not, with either bank, both and none. -/
theorem test_witness_PowerSequencesAndResets_bringup :
    (let s := stPw true 0 [(K.pwrEnable, 1), (K.devState, 1)]
     s.rd K.devState = 1 ∧ s.sec.recovery = false ∧ s.powerWanted = true ∧ s.rd K.pwrState ≠ 4 ∧ s.rd K.fwActiveBank ≤ 1) ∧
    (let s := (stPw true 0 [(K.pwrEnable, 1), (K.devState, 2)]).deviceReset 0
     s.sec.recovery = false ∧ s.rd K.pwrState ≠ 4) ∧
    (stPw false 0 [(K.devState, 1)]).powerWanted = false ∧ (upA true true).bank0Ok = true ∧ (upA true false).bank1Ok = false ∧
    (upA true true).bank1Ok = true ∧ (upA false false).bank0Ok = false ∧ (upA false false).bank1Ok = false := by
  decide +kernel

/-- A member of a cascade of the given shape, member 1 of it, with its cascade state, role, bookkeeping and instance 0. -/
def stCasc (st role shape : Nat) (c : Casc) (x : Inst) (l : List (Nat × Nat)) : State :=
  { wrs State.reset ([(K.cascState, st), (K.cascRole, role), (K.cascShape, shape), (K.memberIndex, 1), (K.masterEligible, 1),
      (K.cascInstance, 0), (K.seamState 4, 2), (K.seamPeer 4, 0)] ++ l) with casc := c, insts := [(0, x)] }
/-- Serials 5, 7 and 6 of three members. -/
def members3 (s : State) : State := s.wrBlob K.members (([5, 7, 6] ++ List.replicate 13 0).flatMap fun x => leBytes 8 x)
def recC : TackRec := { rec0 with member := 1, cfgDigest := State.reset.cfgDigest }
def relA (m : Fin 16) (go : Bool) (rj : Option Nat) : ReleaseMsg := ⟨3, m, none, rj, go⟩

theorem test_witness_CascadeMembersActOnMessages :
    (let s := members3 { State.reset with dict := [(K.serial, 7), (K.cascShape, 64), (K.cascInstance, 0), (K.masterEligible, 1)] }
     s.rd K.cascState = 0 ∧ s.ownIndex = some 1 ∧ s.cascSize ≤ 16 ∧ s.rd K.cascInstance ≤ 11 ∧ s.rd K.masterEligible ≠ 0) ∧
    (let s := ({ State.reset with dict := [(K.serial, 7), (K.cascShape, 64)] } : State)
     s.rd K.cascState = 0 ∧ s.ownIndex = none) ∧
    (let s := members3 { State.reset with dict := [(K.serial, 7), (K.cascShape, 64), (K.cascInstance, 0), (K.masterEligible, 0)] }
     s.rd K.cascState = 0 ∧ s.ownIndex = some 1 ∧ s.rd K.masterEligible = 0) ∧
    (∀ j ∈ List.range 12, (State.reset.inst j).load = none ∧ ∀ p ∈ (State.reset.inst j).panels, p < 12) := by decide +kernel

theorem test_witness_CascadeMembersActOnMessages_commands :
    (let s := stCasc 3 2 64 { master := 1, stale := false, tree := [(0, 1)] } { panels := [0] } [(K.swapTarget, 2), (K.fwState, 3)]
     s.rd K.cascState ≠ 0 ∧ 2 ≤ s.rd K.cascState ∧ s.isMaster = true ∧ s.cascSize ≤ 4 ∧ s.rd K.fwState = 3 ∧ (s.inst 0).stepOn = false ∧
     s.childrenOf s.me = [0] ∧ s.seamFor 0 = some 4 ∧ (∃ q ∈ [0, 1, 2, 3, 255], s.mayLead q = true) ∧ (∃ q ∈ [3, 16, 255], s.mayLead q = false)) ∧
    (stCasc 3 2 64 {} {} []).rd K.fwState = 0 ∧ (stCasc 3 2 128 {} {} []).cascSize > 4 ∧ (stCasc 3 1 64 {} {} []).isMaster = false ∧
    (stCasc 1 1 64 {} {} []).rd K.cascState ≤ 1 ∧ (stCasc 3 1 64 {} {} []).childrenOf 1 = [] ∧
    (let s := stCasc 1 2 64 { master := 1, stale := false } { panels := [0] } []
     s.isMaster = true ∧ s.rd K.cascState = 1 ∧ recC.member.val < s.cascSize ∧ s.casc.stale = false ∧ s.cascSize ≤ { recC with member := 15 }.member.val) ∧
    (let s := stCasc 3 1 1 { master := 0, stale := false } { panels := [0], stepNo := 9 } []
     s.isMaster = false ∧ (relA 0 false none).master.val = s.casc.master ∧ (relA 0 false none).resync = none ∧
     (relA 0 false none).proceed = false ∧ (relA 0 true (some 4)).proceed = true ∧ (relA 0 true (some 4)).rejoin = some 4 ∧
     s.leadOf (s.groupOf s.me) ≠ s.me ∧ (s.inst 0).stepNo - 1 ≠ 4 ∧ (s.inst 0).changes = [] ∧ s.rd K.cascState = 3 ∧
     (s.inst 0).cascWait = false ∧ (s.inst 0).stepOn = false) ∧
    ((stCasc 3 1 64 {} {} []).leadOf ((stCasc 3 1 64 {} {} []).groupOf 1) = 1) ∧
    (let s := stCasc 3 1 1 { master := 0, stale := false, tree := [(1, 0)] } { panels := [0] } []
     (s.nextMember s.casc.master).bind s.seamFor = some 4) := by decide +kernel

theorem test_witness_CascadeMembersActOnMessages_timers :
    ((stCasc 3 1 1 {} { cascWait := true } []).inst 0).cascWait = true ∧
    (let s := stCasc 3 2 64 { master := 1 } { panels := [0] } []
     s.isMaster = true ∧ 2 < s.cascM ∧ s.groupOf 2 = 2 ∧ 2 < s.cascSize ∧ s.recordOf 2 = none ∧ 2 ∉ s.casc.held) ∧
    ((stCasc 4 2 64 { held := [2] } {} []).casc.held = [2] ∧ (stCasc 4 2 64 { held := [2] } {} []).groupOf 1 ≠ 2) ∧
    (1 ∈ (stCasc 4 1 64 { held := [1] } {} []).casc.held ∧ (stCasc 4 1 64 { held := [1] } {} []).groupOf 1 = 1) ∧
    ((stCasc 3 1 64 {} {} []).casc.held = [] ∧ ((stCasc 3 1 64 {} {} []).inst 0).cascWait = false) ∧
    (let s := stCasc 3 1 64 {} {} []
     s.cascSize = 3 ∧ ¬3 < 2 * [s.me].length ∧ 3 < 2 * [s.me, 2].length ∧ 2 ≠ s.me ∧ s.rd K.masterEligible = 1) ∧
    (State.reset.wallTaken = false ∧ ({ State.reset with wallTaken := true } : State).wallTaken = true) ∧
    (let s := stCasc 3 1 64 {} { panels := [0] } []
     hsPanel (0 / 2) ∈ (s.inst 0).panels ∧ (s.router (hsSite 0)).failed = false ∧
     ((s.setRouter (hsSite 0) { failed := true }).router (hsSite 0)).failed = true) ∧
    (let s := stCasc 3 2 64 {} { load := some {} } [(K.loadSrc 0, 2 ^ 64 - 1)]
     (s.inst 0).load.isSome = true ∧ s.fromCascade 0 = true) := by decide +kernel

/-- A record that says of its member what the master's own says: no mismatch. -/
theorem test_witness_CascadeMembersActOnMessages_record (s : State) (x : TackRec) :
    ({ s with casc := { s.casc with records := [{ x with cfgDigest := s.cfgDigest, fwVersion := s.rd K.fwVersion }] } } : State).mismatch =
      none := by
  simp [State.mismatch, State.cfgDigest, State.rd, State.blob]

/-- A header with one component in one chunk, its `svn` 300, and a bank that holds it. -/
def hdrA : List Byte :=
  strBytes "FJW2FIRM" ++ leBytes 2 1 ++ leBytes 2 1 ++ leBytes 4 77 ++ leBytes 2 300 ++ leBytes 2 1 ++ List.replicate 44 0 ++
    (leBytes 2 1 ++ leBytes 2 0 ++ leBytes 2 1)
def bankA : Bank := { header := hdrA, chunks := [(0, [1])] }
/-- A bank of an image of two chunks. -/
def bankB : Bank := { header := List.replicate 10 0 ++ leBytes 2 2 }
def stSec (x : Sec) (l : List (Nat × Nat)) : State := { State.reset with dict := l, sec := x }

/-- The member and activation commands: in every state of an upload, in and out of the window of R504, with and without the
others alike; the counter below and at the image's. A header, a package and a response that a signature makes good rest on
`ecdsaOk` and `mldsaOk`, which the model leaves open: those three clauses have no evaluated witness. -/
theorem test_witness_FirmwareKeysAndTestEnable :
    [0, 1, 2, 3, 4, 5, 6].all (fun n => (State.reset.wr K.fwState n).rd K.fwState == n) = true ∧ State.reset.sec.recovery = false ∧
    (let s := wrs State.reset [(K.fwState, 3), (K.fwActivateAt, 10000000000)]
     s.mirror K.timeNow + 10000000000 ≤ s.rd K.fwActivateAt ∧ s.rd K.fwActivateAt ≤ s.mirror K.timeNow + 2592000000000000) ∧
    (let s := wrs State.reset [(K.fwState, 3), (K.fwActivateAt, 9999999999)]
     s.rd K.fwActivateAt < s.mirror K.timeNow + 10000000000) ∧ Role.M ≠ .C ∧
    (let s := fun (st : Nat) => wrs State.reset [(K.fwState, st), (K.fwActivateAt, 5), (K.cascState, 3), (K.cascRole, 2), (K.cascShape, 1), (K.memberIndex, 0)]
     let v : UploadView := ⟨1, true, 4, 5, (s 4).blob K.fwImageDigest⟩
     (s 4).rd K.cascState ≠ 0 ∧ (s 4).sec.confirmed = false ∧ (s 4).isMaster = true ∧ (s 4).cascSize = 2 ∧ (s 4).me = 0 ∧
     v.member.val = 1 ∧ v.reachable = true ∧ v.activateAt = (s 4).rd K.fwActivateAt ∧ (s 3).isMaster = true ∧ { v with fwState := 3 }.fwState ≠ 4) ∧
    State.reset.isMaster = false ∧
    (let s := State.reset.wr K.fwState 4
     s.rd K.cascState = 0 ∧ ∀ i ∈ List.range 12, ∀ p ∈ (s.inst i).panels, p < 12) ∧
    (let s := stSec { State.reset.sec with holding := true, bank0 := bankA, bank1 := bankA } []
     s.sec.holding = true ∧ s.rd K.svnCounter < fwSvn (s.bankNo (s.rd K.fwActiveBank)).header) ∧
    (let s := stSec { State.reset.sec with holding := true, bank0 := {}, bank1 := {} } []
     fwSvn (s.bankNo (s.rd K.fwActiveBank)).header ≤ s.rd K.svnCounter) ∧ State.reset.sec.holding = false ∧
    State.reset.sec.nonce = none ∧ (stSec { State.reset.sec with nonce := some [1, 2] } []).sec.nonce = some [1, 2] ∧
    State.reset.allIn [0, 1] = true ∧ (∀ k ∈ List.range 512, State.reset.rd (K.slotState k) = 0) ∧ (stI {} core0).allIn [0, 1] = false ∧
    State.reset.pkgOk [] = false := by decide +kernel

/-- Blocks of an upload: one of a bad form; the first of a header, and the last of one with 1,025 chunks; a header block once
more, the same and changed; a chunk past the image, one that is in, the first block of one and the last block. -/
theorem test_witness_FirmwareKeysAndTestEnable_blocks :
    (52224 % 1024 = 0 ∧ 52224 < headerBytes ∧ (List.replicate 1024 (0#8)).length = 1024 ∧ ¬(1 % 1024 = 0)) ∧
    (headerBytes + 1024 * chunkBytes) % 1024 = 0 ∧ headerBytes % 1024 = 0 ∧
    State.reset.uploadBank = 1 ∧ (State.reset.bankNo 1).hdrBlocks = [] ∧
    (let old : Bank := { header := List.replicate 10 0 ++ leBytes 2 1025 ++ List.replicate 1012 0, hdrBlocks := 0 :: (List.range 50).map (· + 2) }
     let hdr : Bank := { header := slice old.header 0 1024 ++ List.replicate 1024 0 ++ old.header.drop 2048, hdrBlocks := old.hdrBlocks ++ [1] }
     old.hdrBlocks.contains (1024 / 1024) = false ∧ hdr.hdrBlocks.length = 52 ∧ State.reset.headerCode hdr.header = 10) ∧
    slice ({} : Bank).header 1024 1024 = List.replicate 1024 0 ∧ slice ({} : Bank).header 1024 1024 ≠ List.replicate 1024 1 ∧
    fwChunks ({} : Bank).header ≤ (headerBytes - headerBytes) / chunkBytes ∧ mapGet (fun _ => []) bankA.chunks 0 ≠ [] ∧ 0 < fwChunks bankA.header ∧
    mapGet (fun _ => []) ({ bankA with chunks := [] } : Bank).chunks 0 = [] ∧
    (let blocks : Map (List Byte) := (List.range 63).map fun j => (j + 1, [1])
     ((mapSet (fun _ => []) blocks 0 [1]).filter fun x => x.1 / 64 == 0).length = 64 ∧
     ((mapSet (fun _ => []) [] 0 [1]).filter fun x => x.1 / 64 == 0).length ≠ 64) ∧
    ({ bankA with chunks := [(0, [1])] } : Bank).nextChunk = fwChunks bankA.header ∧ ({ bankB with chunks := [(0, [1])] } : Bank).nextChunk ≠ fwChunks bankB.header ∧
    (let s := stSec { State.reset.sec with recovery := true, bank0 := bankA } [(K.fwState, 2)]
     s.sec.recovery = true ∧ (s.fwBlock 1 []).1.rd K.fwState = 2 ∧ (s.fwBlock 1 []).1.sec.bank0.bootable = true) ∧
    (let s := stSec { State.reset.sec with recovery := true, bank0 := {} } [(K.fwState, 2)]
     (s.fwBlock 1 []).1.sec.bank0.bootable = false) := by decide +kernel

/-- A chunk's digest, wrong and right: whatever SHA-384 gives, one of two digests differs from it, and a header can hold it. -/
theorem test_witness_FirmwareKeysAndTestEnable_digest (bytes : List Byte) :
    (∃ d : Byte, Config.sha384 bytes ≠ slice (List.replicate 192 0 ++ List.replicate 48 d) 192 48) ∧
    ((Config.sha384 bytes).length = 48 →
      Config.sha384 bytes = slice (List.replicate 10 0 ++ [1] ++ List.replicate 181 0 ++ Config.sha384 bytes) 192 48) := by
  constructor
  · by_cases h : Config.sha384 bytes = List.replicate 48 0
    · exact ⟨1, by rw [h]; decide +kernel⟩
    · exact ⟨0, fun e => h (e.trans (by decide +kernel))⟩
  · intro h
    have hp : (List.replicate 10 (0 : Byte) ++ [1] ++ List.replicate 181 0).length = 192 := by decide +kernel
    rw [slice, List.drop_left' hp, ← h, List.take_length, Nat.sub_self, List.replicate_zero, List.append_nil]

theorem test_witness_IdmorInstructionsKeepMemoriesCanonical :
    encodeIdmor (.nop 0 g0 ctl0) = some 0 ∧ (onCore core0).memoriesWf = true ∧ (onCore { core0 with sp := [(1, 7)] }).memoriesWf = true := by
  decide +kernel

/-! ## Single steps, with results worked out by hand from the rules -/

/-- A test of the state that an outcome goes on with. -/
def after (o : Out) (p : State → Bool) : Bool :=
  match o with
  | .next t => p t
  | _ => false

/-- 0xFFFFFFF0 + 0x20 wraps to 0x10 (R193). -/
theorem test_add_wraps : after (exec (.add 0 g0 ⟨4, 2, 0, 1, 0, 0x20⟩) (onCore coreK)) (fun t =>
    mapGet (fun _ => 0#32) (t.core 0).regs 4 == 0x10#32 && (t.core 0).pc == 1) = true := by decide +kernel
/-- −16 shifted right by 3 is −2 (R193). -/
theorem test_sra_sign : after (exec (.sra 0 g0 ⟨4, 2, 0, 1, 0, 3⟩) (onCore coreK)) (fun t =>
    mapGet (fun _ => 0#32) (t.core 0).regs 4 == 0xFFFFFFFE#32) = true := by decide +kernel
/-- −16 < 1 signed, not unsigned: p1 set, p2 clear (R193). -/
theorem test_compare_signed :
    after (exec (.cmplt 0 g0 ⟨0x31, 2, 3, 0, 0, 0⟩) (onCore coreK)) (fun t => (t.core 0).preds.getLsbD 1) = true ∧
    after (exec (.cmpltu 0 g0 ⟨0x32, 2, 3, 0, 0, 0⟩) (onCore coreK)) (fun t => !(t.core 0).preds.getLsbD 2) = true := by decide +kernel
/-- SST stores little-endian at the wide window's byte 4 (R8, R100). -/
theorem test_sst_little_endian : after (exec (.sst 0 g0 ⟨0, 1, 2, 0, 0, 4⟩) (onCore coreK)) (fun t =>
    (t.core 0).bytesAt 4194308 4 == [0xF0, 0xFF, 0xFF, 0xFF]) = true := by decide +kernel
/-- SLD of a misaligned address is the address trap, code 0x03 (R171, R178). -/
theorem test_sld_misaligned : after (exec (.sld 0 g0 ⟨4, 1, 0, 0, 0, 2⟩) (onCore coreK)) (fun t =>
    (t.core 0).run == .trapped && (t.core 0).trapCode == 3 && (t.core 0).pc == 0) = true := by decide +kernel
/-- 1.0 + 2.0 = 3.0, −2.5 + 1.5 = −1.0 in the first two lanes (R202). -/
theorem test_fadd_lanes : after (exec (.fadd 0 g0 { fin0 with fd := 4, fs1 := 1, fs2 := 2 }) (onCore coreF)) (fun t =>
    lane32 ((t.core 0).freg 4) 0 == 0x40400000 && lane32 ((t.core 0).freg 4) 1 == 0xBF800000) = true := by decide +kernel
/-- A trained port takes the lower rate and a width of 8 (R363). -/
theorem test_pcie_trains : after (exec (.perstRelease 0 (some 0) 5 8) State.reset) (fun t =>
    t.rd (K.pcieRate 0) == 5 && t.rd (K.pcieWidth 0) == 8) = true := by decide +kernel
/-- ENABLE of an unconfigured slot is refused with result 2; RESET of a disabled one with 1 (R351, R352). -/
theorem test_slot_commands :
    after (exec (.enable 3) State.reset) (fun t => t.rd (K.slotCmdResult 3) == 2) = true ∧
    after (exec (.slotReset 3) State.reset) (fun t => t.rd (K.slotCmdResult 3) == 1) = true := by decide +kernel
/-- MCLK below 900 MHz is not taken (R440). -/
theorem test_mclk_range : after (exec (.mclkSet 899999) State.reset) (fun t => t.rd K.mclkSet == State.reset.rd K.mclkSet) = true := by
  decide +kernel
/-- A client that is not listed is refused and counted (R395). -/
theorem test_handshake_refused : after (exec (.dtlsHandshake 0 [1]) (stDtls [])) (fun t => t.rd K.sessionsRefused == 1) = true := by
  decide +kernel

end Sys2Proof.Tests
end

section
/-! SUPPORT. How a ready instruction ends, by what its body answers: what its own core holds then, and that nothing else
moves. -/

namespace Sys2Proof.Machine

/-- Replacing one bit of a word: that bit reads as written, the others as before. -/
theorem getLsbD_putBit {w : Nat} (v : BitVec w) (x : Nat) (b : Bool) {y : Nat} (hy : y < w) :
    ((v &&& ~~~(1#w <<< x)) ||| (if b then 1#w <<< x else 0#w)).getLsbD y = if y = x then b else v.getLsbD y := by
  have hmask : (1#w <<< x).getLsbD y = decide (y = x) := by
    rw [BitVec.getLsbD_shiftLeft, BitVec.getLsbD_one, Bool.eq_iff_iff]
    simp only [Bool.and_eq_true, Bool.not_eq_true', decide_eq_true_eq, decide_eq_false_iff_not]
    omega
  have hput : (if b then 1#w <<< x else 0#w).getLsbD y = (b && decide (y = x)) := by
    cases b
    · exact BitVec.getLsbD_zero
    · exact hmask
  rw [BitVec.getLsbD_or, BitVec.getLsbD_and, BitVec.getLsbD_not, hmask, hput]
  by_cases h : y = x <;> simp [h, hy]

variable {s : State} {c : CoreId} {g : Guard} {op : Nat} {legal ro : Bool} {accs : List Access} {body : Core → Res}

/-- A ready instruction whose body only rewrites its own core moves that core on and touches nothing else. -/
theorem issueOut_done_core {k : Core} (hr : s.Ready c g) (hl : legal = true) (hn : ro = false)
    (hz : accs = [] ∨ s.rd K.hzMode = 0) (hb : body (s.core c.val) = .done (s.setCore c.val k)) :
    ∃ t, issueOut s c g op legal ro accs body = .next t ∧ s.OnlyCore t c ∧ t.core c.val = k.advance :=
  ⟨_, issueOut_done hr hl hn hb hz, (s.onlyCore_set c k).set _, by simp⟩

/-- A ready instruction that jumps after a change of its own core. -/
theorem issueOut_jump_core (k : Core) {pc : Nat} (hr : s.Ready c g) (hl : legal = true) (hn : ro = false)
    (hb : body (s.core c.val) = .jump (s.setCore c.val k) pc) :
    ∃ t, issueOut s c g op legal ro accs body = .next t ∧ s.OnlyCore t c ∧ t.core c.val = { k with pc := pc } :=
  ⟨_, issueOut_jump hr hl hn hb, (s.onlyCore_set c k).set _, by simp⟩

/-- A ready instruction that changes its own core and stays where it is. -/
theorem issueOut_wait_core {k : Core} (hr : s.Ready c g) (hl : legal = true) (hn : ro = false)
    (hb : body (s.core c.val) = .wait (s.setCore c.val k)) :
    ∃ t, issueOut s c g op legal ro accs body = .next t ∧ s.OnlyCore t c ∧ t.core c.val = k :=
  ⟨_, issueOut_wait hr hl hn hb, s.onlyCore_set c k, by simp⟩

/-- A ready instruction whose body fails stands trapped with that code, the rest of its core as before. -/
theorem issueOut_fail_core {code : Nat} (hr : s.Ready c g) (hl : legal = true) (hn : ro = false)
    (hb : body (s.core c.val) = .fail code) :
    ∃ t, issueOut s c g op legal ro accs body = .next t ∧
      t.core c.val = { s.core c.val with run := .trapped, trapCode := code, trapStatus := 0 } :=
  ⟨_, issueOut_trap hr hl hn hb, State.trap_core ..⟩

/-- An illegal encoding traps with code 0x01 (R178). -/
theorem issueOut_illegal (hr : s.Ready c g) (hl : legal = false) :
    ∃ t, issueOut s c g op legal ro accs body = .next t ∧
      t.core c.val = { s.core c.val with run := .trapped, trapCode := 1, trapStatus := 0 } := by
  refine ⟨s.trap c.val { code := 1 } (s.core c.val).pc op, ?_, State.trap_core ..⟩
  simp [issueOut, State.issue, hl, hr.may, hr.quiet, hr.read]

/-- A write of a read-only specifier traps with code 0x02 (R178). -/
theorem issueOut_readOnly (hr : s.Ready c g) (hl : legal = true) (hn : ro = true) :
    ∃ t, issueOut s c g op legal ro accs body = .next t ∧
      t.core c.val = { s.core c.val with run := .trapped, trapCode := 2, trapStatus := 0 } := by
  refine ⟨s.trap c.val { code := 2 } (s.core c.val).pc op, ?_, State.trap_core ..⟩
  simp [issueOut, State.issue, hl, hn, hr.may, hr.quiet, hr.read, hr.legal]

end Sys2Proof.Machine
end

section
/-! The scalar instructions (O5): the word functions of R193, the rule for writing a register, and the operation built of
both. -/

namespace Sys2Proof.Machine

variable {s : State} {c : CoreId} {g : Guard} {op : Nat}

/-! ## Words (R193) -/

theorem mul_eq_ofNat (a b : Word) : a * b = BitVec.ofNat 32 (a.toNat * b.toNat) := by
  apply BitVec.eq_of_toNat_eq; simp

theorem shiftLeft_eq_ofNat (a : Word) (n : Nat) : a <<< n = BitVec.ofNat 32 (a.toNat * 2 ^ n) := by
  apply BitVec.eq_of_toNat_eq; simp [Nat.shiftLeft_eq]

theorem ushiftRight_eq_ofNat (a : Word) (n : Nat) : a >>> n = BitVec.ofNat 32 (a.toNat / 2 ^ n) := by
  have h : a.toNat / 2 ^ n < 2 ^ 32 := Nat.lt_of_le_of_lt (Nat.div_le_self _ _) a.isLt
  apply BitVec.eq_of_toNat_eq
  rw [BitVec.toNat_ushiftRight, BitVec.toNat_ofNat, Nat.shiftRight_eq_div_pow, Nat.mod_eq_of_lt h]

theorem sshiftRight_eq_ofInt (a : Word) (n : Nat) : a.sshiftRight n = BitVec.ofInt 32 (a.toInt / 2 ^ n) := by
  rw [BitVec.sshiftRight, Int.shiftRight_eq_div_pow]; simp

/-- The signed minimum. -/
theorem signedMin_eq_ofInt (a b : Word) : (if b.slt a then b else a) = BitVec.ofInt 32 (min a.toInt b.toInt) := by
  by_cases h : b.toInt < a.toInt
  · rw [if_pos (BitVec.slt_iff_toInt_lt.mpr h), min_eq_right h.le, BitVec.ofInt_toInt]
  · rw [if_neg (by rwa [BitVec.slt_iff_toInt_lt]), min_eq_left (not_lt.mp h), BitVec.ofInt_toInt]

/-- The signed maximum. -/
theorem signedMax_eq_ofInt (a b : Word) : (if a.slt b then b else a) = BitVec.ofInt 32 (max a.toInt b.toInt) := by
  by_cases h : a.toInt < b.toInt
  · rw [if_pos (BitVec.slt_iff_toInt_lt.mpr h), max_eq_right h.le, BitVec.ofInt_toInt]
  · rw [if_neg (by rwa [BitVec.slt_iff_toInt_lt]), max_eq_left (not_lt.mp h), BitVec.ofInt_toInt]

/-- The unsigned minimum. -/
theorem unsignedMin_eq_ofNat (a b : Word) : (if b.ult a then b else a) = BitVec.ofNat 32 (min a.toNat b.toNat) := by
  by_cases h : b.toNat < a.toNat
  · rw [if_pos (BitVec.ult_iff_lt.mpr h), min_eq_right h.le, BitVec.ofNat_toNat, BitVec.setWidth_eq]
  · rw [if_neg (by rwa [BitVec.ult_iff_lt]), min_eq_left (not_lt.mp h), BitVec.ofNat_toNat, BitVec.setWidth_eq]

/-- The unsigned maximum. -/
theorem unsignedMax_eq_ofNat (a b : Word) : (if a.ult b then b else a) = BitVec.ofNat 32 (max a.toNat b.toNat) := by
  by_cases h : a.toNat < b.toNat
  · rw [if_pos (BitVec.ult_iff_lt.mpr h), max_eq_right h.le, BitVec.ofNat_toNat, BitVec.setWidth_eq]
  · rw [if_neg (by rwa [BitVec.ult_iff_lt]), max_eq_left (not_lt.mp h), BitVec.ofNat_toNat, BitVec.setWidth_eq]

theorem boolWord_eq_ite {b : Bool} {p : Prop} [Decidable p] (h : b = true ↔ p) :
    boolWord b = if p then 1#32 else 0#32 := by
  unfold boolWord
  simp only [h]

/-! ## Writing a register -/

/-- A predicate reads the bit written to it, and the others keep theirs. -/
theorem getLsbD_setPred (k : Core) (q p : Nat) (b : Bool) (hp : p < 8) :
    (k.setPred q b).preds.getLsbD p = if p = q then b else k.preds.getLsbD p := 
  getLsbD_putBit k.preds q b hp

/-- A writable specifier names a scalar or address register, a predicate p1 to p7, or ITAINT. -/
theorem specWritable_cases {sp : Nat} (h : specWritable sp = true) :
    sp < 0x30 ∨ (0x31 ≤ sp ∧ sp ≤ 0x37) ∨ sp = 0x3D := by
  simpa [specWritable, or_assoc] using h

/-- A write through a writable specifier and the move to the next instruction make the result of R193. -/
theorem wrote_writeReg (k : Core) {sp : Nat} (v : Word) (h : specWritable sp = true) :
    k.Wrote (k.writeReg sp v).advance sp v := by
  rcases specWritable_cases h with hreg | ⟨hlo, hhi⟩ | rfl
  · have hw : k.writeReg sp v = { k with regs := mapSet (fun _ => 0#32) k.regs sp v } := if_pos hreg
    rw [hw]
    exact ⟨fun x _ => mapGet_set .., fun p _ => (if_neg (by omega)).symm, (if_neg (by omega)).symm, rfl⟩
  · have hw : k.writeReg sp v = k.setPred (sp - 0x30) (v.getLsbD 0) := by
      rw [Core.writeReg, if_neg (by omega), if_pos ⟨hlo, hhi⟩]
    rw [hw]
    refine ⟨fun x _ => (if_neg (by omega)).symm, fun p hp => ?_, (if_neg (by omega)).symm, rfl⟩
    have hiff : p = sp - 0x30 ↔ sp = 0x30 + p := by omega
    exact (getLsbD_setPred k _ p _ hp).trans (by simp only [hiff])
  · exact ⟨fun x _ => (if_neg (by omega)).symm, fun p _ => (if_neg (by omega)).symm, (if_pos rfl).symm, rfl⟩

/-! ## Scalar operations -/

/-- A legal scalar operation with a writable destination gives the value of its function at its operands (R193). -/
theorem scalar_writes {f : ScalF} {ok : Bool} {fn : Word → Word → Word} {v : Word} (hr : s.Ready c g)
    (hf : scalOk f = true) (hok : ok = true) (hd : specOk f.rd.toNat = true) (hw : specWritable f.rd.toNat = true)
    (hv : fn (s.readReg (s.core c.val) f.rs1.toNat)
      (if f.ui = 1#1 then f.imm32 else s.readReg (s.core c.val) f.rs2.toNat) = v) :
    ∃ t, scalar s c g f op ok fn = .next t ∧ s.OnlyCore t c ∧ (s.core c.val).Wrote (t.core c.val) f.rd.toNat v := by
  obtain ⟨t, hx, honly, hcore⟩ := issueOut_done_core (op := op) (legal := scalOk f && ok && specOk f.rd.toNat)
    (ro := !specWritable f.rd.toNat) (accs := []) (body := fun k =>
      .done (s.setCore c (k.writeReg f.rd.toNat (fn (s.readReg k f.rs1.toNat) (op2 s k f))))) hr
    (by simp [hf, hok, hd]) (by simp [hw]) (.inl rfl) rfl
  refine ⟨t, hx, honly, ?_⟩
  rw [hcore, op2, hv]
  exact wrote_writeReg _ v hw

/-- A scalar operation whose own check fails is an illegal encoding. -/
theorem scalar_illegal {f : ScalF} {ok : Bool} {fn : Word → Word → Word} (hr : s.Ready c g) (hok : ok = false) :
    ∃ t, scalar s c g f op ok fn = .next t ∧
      t.core c.val = { s.core c.val with run := .trapped, trapCode := 1, trapStatus := 0 } :=
  issueOut_illegal hr (by simp [hok])

/-- A compare into p0 is a write of a read-only specifier. -/
theorem compare_p0_readOnly {f : ScalF} {fn : Word → Word → Word} (hr : s.Ready c g) (hd : f.rd.toNat = 0x30)
    (hf : scalOk f = true) :
    ∃ t, scalar s c g f op (cmpDest f) fn = .next t ∧
      t.core c.val = { s.core c.val with run := .trapped, trapCode := 2, trapStatus := 0 } :=
  issueOut_readOnly hr (by simp [hf, cmpDest, hd, specOk]) (by simp [hd, specWritable])

/-- Settles O5: each operation's word function at the operands, written through `rd`. -/
theorem scalarInstructionsWriteResult : Obligations.ScalarInstructionsWriteResult := by
  intro s c g f hr
  simp only [exec_add, exec_sub, exec_mul, exec_andI, exec_orI, exec_xorI, exec_shl, exec_shr, exec_sra, exec_min, exec_max,
    exec_minu, exec_maxu, exec_cmpeq, exec_cmplt, exec_cmpltu, exec_mov, execAdd, execSub, execMul, execAnd, execOr, execXor,
    execShl, execShr, execSra, execMin, execMax, execMinu, execMaxu, execCmpeq, execCmplt, execCmpltu, execMov]
  refine ⟨fun hf hd hw => ⟨?add, ?sub, ?mul, ?and, ?or, ?xor, ?shl, ?shr, ?sra, ?min, ?max, ?minu, ?maxu, ?mov, ?cmp⟩,
    fun hd hf => ⟨?eq0, ?lt0, ?ltu0⟩, fun hd => ?ill, fun hm => ?movIll⟩
  case add => exact scalar_writes hr hf rfl hd hw rfl
  case sub => exact scalar_writes hr hf rfl hd hw rfl
  case mul => exact scalar_writes hr hf rfl hd hw (mul_eq_ofNat _ _)
  case and => exact scalar_writes hr hf rfl hd hw rfl
  case or => exact scalar_writes hr hf rfl hd hw rfl
  case xor => exact scalar_writes hr hf rfl hd hw rfl
  case shl => exact scalar_writes hr hf rfl hd hw (shiftLeft_eq_ofNat _ _)
  case shr => exact scalar_writes hr hf rfl hd hw (ushiftRight_eq_ofNat _ _)
  case sra => exact scalar_writes hr hf rfl hd hw (sshiftRight_eq_ofInt _ _)
  case min => exact scalar_writes hr hf rfl hd hw (signedMin_eq_ofInt _ _)
  case max => exact scalar_writes hr hf rfl hd hw (signedMax_eq_ofInt _ _)
  case minu => exact scalar_writes hr hf rfl hd hw (unsignedMin_eq_ofNat _ _)
  case maxu => exact scalar_writes hr hf rfl hd hw (unsignedMax_eq_ofNat _ _)
  case mov => exact fun hm => scalar_writes hr hf (by simp [hm]) hd hw rfl
  case cmp =>
    intro hlo hhi
    have hdest : cmpDest f = true := by simp [cmpDest]; omega
    exact ⟨scalar_writes hr hf hdest hd hw (boolWord_eq_ite (by rw [beq_iff_eq, BitVec.toNat_inj])),
      scalar_writes hr hf hdest hd hw (boolWord_eq_ite BitVec.slt_iff_toInt_lt),
      scalar_writes hr hf hdest hd hw (boolWord_eq_ite BitVec.ult_iff_lt)⟩
  case eq0 => exact compare_p0_readOnly hr hd hf
  case lt0 => exact compare_p0_readOnly hr hd hf
  case ltu0 => exact compare_p0_readOnly hr hd hf
  case ill =>
    have hdest : cmpDest f = false := by
      simp only [cmpDest, Bool.and_eq_false_iff, decide_eq_false_iff_not]; omega
    exact ⟨scalar_illegal hr hdest, scalar_illegal hr hdest, scalar_illegal hr hdest⟩
  case movIll => exact scalar_illegal hr (by simpa using hm)

end Sys2Proof.Machine
end

section
/-! The control instructions and loops (O7): where a taken branch, a call, a return and LOOP go, and how the program counter
moves past an instruction. -/

namespace Sys2Proof.Machine

/-! ## Moving past an instruction (R192) -/

/-- Outside every loop the pc moves to the next index. -/
theorem advance_of_no_loop (k : Core) (h : k.loops = []) : k.advance = { k with pc := (k.pc + 1) % 2 ^ 15 } := by
  unfold Core.advance
  rw [h, nextPc]

/-- Inside a body the pc moves to the next index. -/
theorem advance_inside (k : Core) {l : LoopEntry} {rest : List LoopEntry} (h : k.loops = l :: rest) (hpc : k.pc ≠ l.last) :
    k.advance = { k with pc := (k.pc + 1) % 2 ^ 15 } := by
  unfold Core.advance
  rw [h, nextPc, if_neg hpc]

/-- At the end of a body with iterations left, the body starts again and one iteration is counted off. -/
theorem advance_repeat (k : Core) {l : LoopEntry} {rest : List LoopEntry} (h : k.loops = l :: rest) (hpc : k.pc = l.last)
    (hn : 1 < l.count) :
    k.advance = { k with loops := { l with count := l.count - 1 } :: rest, pc := l.first % 2 ^ 15 } := by
  unfold Core.advance
  rw [h, nextPc, if_pos hpc, if_pos hn]

/-- At the end of a body with none left, the loop is popped and the enclosing loops decide. -/
theorem advance_pop (k : Core) {l : LoopEntry} {rest : List LoopEntry} (h : k.loops = l :: rest) (hpc : k.pc = l.last)
    (hn : l.count ≤ 1) : k.advance = { k with loops := rest }.advance := by
  unfold Core.advance
  rw [h, nextPc, if_pos hpc, if_neg (by omega)]

/-! ## Branches and calls (R170, R190) -/

/-- A taken branch keeps a loop exactly when its body holds the target. -/
theorem popLoops_cons (t : Nat) (l : LoopEntry) (rest : List LoopEntry) :
    popLoops t (l :: rest) = if l.first ≤ t ∧ t ≤ l.last then l :: popLoops t rest else popLoops t rest := by
  simp only [popLoops, List.filter_cons, Bool.and_eq_true, decide_eq_true_eq]

/-- An offset that stays within the store gives its index. -/
theorem target_within {pc : Nat} {imm : BitVec 32} (h0 : 0 ≤ (pc : Int) + imm.toInt) (h1 : (pc : Int) + imm.toInt ≤ 32767) :
    target pc imm = some ((pc : Int) + imm.toInt).toNat := if_pos ⟨h0, h1⟩

variable {s : State} {c : CoreId} {g : Guard} {op t : Nat} {legal : Bool} {accs : List Access} {body : Core → Res}

/-- A ready instruction that takes a branch. -/
theorem issueOut_branch (hr : s.Ready c g) (hl : legal = true) (hb : body (s.core c.val) = branchTo s c.val t) :
    ∃ u, issueOut s c g op legal false accs body = .next u ∧ s.OnlyCore u c ∧
      u.core c.val = { s.core c.val with loops := popLoops t (s.core c.val).loops, pc := t } :=
  issueOut_jump_core { s.core c.val with loops := popLoops t (s.core c.val).loops } hr hl rfl hb

/-! ## LOOP (R192) -/

/-- LOOP opens a loop over the body that its offset names. -/
theorem loopOpen_some {k : Core} {n : Nat} {imm : BitVec 32} (hd : k.loops.length < 4) (h0 : 0 < n) (h1 : n ≤ 2 ^ 24 - 1)
    (hb : 2 ≤ imm.toInt) (hlast : (k.pc : Int) + imm.toInt ≤ 32767)
    (hin : ∀ l ∈ k.loops.head?, ((k.pc : Int) + imm.toInt).toNat ≤ l.last) :
    loopOpen k n imm = some ⟨k.pc + 1, ((k.pc : Int) + imm.toInt).toNat, n⟩ := by
  rw [loopOpen, if_neg (by omega), if_neg (by omega)]
  cases hl : k.loops with
  | nil => rfl
  | cons l rest => exact if_neg (Nat.not_lt.mpr (hin l (by rw [hl]; rfl)))

/-- LOOP opens nothing on a bad count, a bad body, a fifth loop, or a body that runs past the enclosing one's. -/
theorem loopOpen_none {k : Core} {n : Nat} {imm : BitVec 32}
    (h : n = 0 ∨ 2 ^ 24 - 1 < n ∨ imm.toInt < 2 ∨ 32767 < (k.pc : Int) + imm.toInt ∨ 4 ≤ k.loops.length ∨
      ∃ l ∈ k.loops.head?, l.last < ((k.pc : Int) + imm.toInt).toNat) : loopOpen k n imm = none := by
  rw [loopOpen]
  split
  · rfl
  split
  · rfl
  next hcount hdepth =>
    obtain ⟨l, hl, hlast⟩ : ∃ l ∈ k.loops.head?, l.last < ((k.pc : Int) + imm.toInt).toNat := by tauto
    cases hk : k.loops with
    | nil => simp [hk] at hl
    | cons x rest =>
      obtain rfl : x = l := by simpa [hk] using hl
      exact if_pos hlast

/-! ## The statement -/

theorem ctlBare_of {f : CtlF} (h0 : f.res = 0#14) (h1 : f.rs = 0#6) (h2 : f.imm32 = 0#32) : ctlBare f = true := by
  simp [ctlBare, ctlOk, h0, h1, h2]

/-- Settles O7: each control instruction by the lemma on its target or its loop, and R192's rules of the loop stack. -/
theorem controlInstructionsSetProgramCounter : Obligations.ControlInstructionsSetProgramCounter := by
  refine ⟨?instr, fun t l rest => ⟨rfl, popLoops_cons t l rest⟩, advance_of_no_loop,
    fun k l rest h => ⟨advance_inside k h, advance_repeat k h, advance_pop k h⟩⟩
  intro s c g f hr hres
  simp only [exec_nop, exec_br, exec_callI, exec_brr, exec_ret, exec_loopI, exec_halt, execNop, execBr, execCall, execBrr,
    execRet, execLoop, execHalt]
  have hform : ctlOk f = true := by simp [ctlOk, hres]
  refine ⟨?nop, ?offset, ?brr, ?ret, ?loop, ?loopBad, ?halt⟩
  case nop =>
    intro hrs himm
    exact ⟨_, issueOut_done hr (ctlBare_of hres hrs himm) rfl rfl (.inl rfl), s.onlyCore_set c _, by simp⟩
  case offset =>
    intro hrs h0 h1
    have hl : (ctlOk f && f.rs == 0#6) = true := by simp [hform, hrs]
    refine ⟨issueOut_branch hr hl (by simp only [target_within h0 h1]), fun hlen => ?_⟩
    exact issueOut_jump_core { s.core c.val with rets := ((s.core c.val).pc + 1) % 2 ^ 15 :: (s.core c.val).rets } hr hl rfl
      (by simp only [target_within h0 h1]; exact if_neg (by omega))
  case brr =>
    intro himm hrs hn
    exact issueOut_branch hr (by simp [hform, himm, hrs]) (if_pos hn)
  case ret =>
    intro r rest hk hrs himm
    exact issueOut_jump_core { s.core c.val with rets := rest } hr (ctlBare_of hres hrs himm) rfl (by simp only [hk])
  case loop =>
    intro hrs hd h0 h1 hb hlast hin
    exact issueOut_jump_core
      { s.core c.val with loops := ⟨(s.core c.val).pc + 1, _, _⟩ :: (s.core c.val).loops } hr (by simp [hform, hrs]) rfl
      (by simp only [loopOpen_some hd h0 h1 hb hlast hin])
  case loopBad =>
    intro hrs hbad
    exact issueOut_fail_core hr (by simp [hform, hrs]) rfl (by simp only [loopOpen_none hbad])
  case halt =>
    intro hrs himm hres' hq
    exact issueOut_wait_core hr (ctlBare_of hres hrs himm) rfl (by simp [hres', hq])

end Sys2Proof.Machine
end

section
/-! The attention steps (O19): registers as lists of FP32 lanes, the rule for writing a finisher register, and FQK, FSMX and
FPV built of both. -/

namespace Sys2Proof.Machine

/-! ## Lanes of a register (R188) -/

/-- Lane i + 1 of a number is lane i of the number without its lane 0. -/
theorem lane32_succ (v i : Nat) : lane32 v (i + 1) = lane32 (v / 2 ^ 32) i := by
  unfold lane32
  rw [Nat.div_div_eq_div_mul, ← pow_add]
  congr 3; omega

/-- A number built of lanes reads back each lane, and zero beyond them. -/
theorem lane32_fromLanes : ∀ (l : List Nat) (j : Nat), (∀ x ∈ l, x < 2 ^ 32) → lane32 (fromLanes 32 l) j = l.getD j 0
  | [], j, _ => by simp [lane32, fromLanes]
  | x :: l, 0, h => by
    have hx : x < 2 ^ 32 := h x List.mem_cons_self
    simp only [lane32, fromLanes, List.getD_cons_zero]
    omega
  | x :: l, j + 1, h => by
    have hx : x < 2 ^ 32 := h x List.mem_cons_self
    have hd : (x + 2 ^ 32 * fromLanes 32 l) / 2 ^ 32 = fromLanes 32 l := by omega
    rw [lane32_succ, fromLanes, hd, List.getD_cons_succ]
    exact lane32_fromLanes l j fun y hy => h y (List.mem_cons_of_mem _ hy)

/-- Cutting a number to a register's 4,096 bits keeps its 128 lanes. -/
theorem lane32_mod (v : Nat) {j : Nat} (hj : j < 128) : lane32 (v % 2 ^ 4096) j = lane32 v j := by
  apply Nat.eq_of_testBit_eq
  intro i
  simp only [lane32, Nat.testBit_mod_two_pow, Nat.testBit_div_two_pow]
  by_cases hi : i < 32
  · have hlt : i + 32 * j < 4096 := by omega
    simp [hlt]
  · simp [hi]

/-- Two lanes put at the bottom of a number: the first. -/
theorem lane32_putLanes_zero (v a b : Nat) (ha : a < 2 ^ 32) : lane32 (putLanes v 32 0 [a, b]) 0 = a := by
  simp only [lane32, putLanes, fromLanes, List.length_cons, List.length_nil]
  omega

/-- Two lanes put at the bottom of a number: the second. -/
theorem lane32_putLanes_one (v a b : Nat) (ha : a < 2 ^ 32) (hb : b < 2 ^ 32) :
    lane32 (putLanes v 32 0 [a, b]) 1 = b := by
  simp only [lane32, putLanes, fromLanes, List.length_cons, List.length_nil]
  omega

/-- Two lanes put at the bottom of a number: every lane above them is the number's own. -/
theorem lane32_putLanes_above (v a b : Nat) (ha : a < 2 ^ 32) (hb : b < 2 ^ 32) (j : Nat) :
    lane32 (putLanes v 32 0 [a, b]) (j + 2) = lane32 v (j + 2) := by
  have hd : putLanes v 32 0 [a, b] / 2 ^ 32 / 2 ^ 32 = v / 2 ^ 32 / 2 ^ 32 := by
    simp only [putLanes, fromLanes, List.length_cons, List.length_nil]
    omega
  rw [lane32_succ, lane32_succ, hd, ← lane32_succ, ← lane32_succ]

/-! ## Results of a rounding are lanes (R67) -/

theorem roundRat_le (f : Fmt) (n d : Nat) (e : Int) : roundRat f n d e ≤ f.infBits := by
  unfold roundRat
  split
  · exact Nat.zero_le _
  · exact Nat.min_le_right _ _

theorem roundTo_f32_lt (x : Fl) : roundTo f32 x < 2 ^ 32 := by
  have hsign : ∀ n : Bool, (if n then f32.signBit else 0) ≤ 2 ^ 31 := by decide
  have hinf : f32.infBits = 0x7F800000 := rfl
  cases x with
  | nan => decide
  | inf n =>
    have := hsign n
    simp only [roundTo, hinf]; omega
  | fin n m e =>
    have := hsign n
    have := roundRat_le f32 m 1 e
    simp only [roundTo]; omega

/-- A NaN among lanes, read lane by lane of the whole register. -/
theorem any_nan32_eq (l : List Nat) (h : l.length ≤ 128) :
    l.any nan32 = (List.range 128).any fun j => nan32 (l.getD j 0) := by
  rw [Bool.eq_iff_iff, List.any_eq_true, List.any_eq_true]
  constructor
  · rintro ⟨x, hx, hn⟩
    obtain ⟨j, hj, rfl⟩ := List.mem_iff_getElem.mp hx
    exact ⟨j, List.mem_range.mpr (by omega), by rwa [List.getD_eq_getElem _ _ hj]⟩
  · rintro ⟨j, -, hn⟩
    by_cases hj : j < l.length
    · exact ⟨l[j], List.getElem_mem hj, by rwa [List.getD_eq_getElem _ _ hj] at hn⟩
    · rw [List.getD_eq_default _ _ (by omega)] at hn
      exact absurd hn (by decide)

/-! ## Writing a finisher register (R69, R188) -/

@[simp] theorem Core.freg_advance (k : Core) (y : Nat) : k.advance.freg y = k.freg y := rfl
@[simp] theorem Core.ftaintOf_advance (k : Core) (y : Nat) : k.advance.ftaintOf y = k.ftaintOf y := rfl

theorem Core.freg_mod (k : Core) (x : Nat) : k.freg x % 2 ^ 4096 = k.freg x := by
  simp only [Core.freg, BitVec.toNat_mod_cancel]

theorem Core.freg_setF (k : Core) (x v : Nat) (t : Bool) (y : Nat) :
    (k.setF x v t).freg y = if y = x then v % 2 ^ 4096 else k.freg y := by
  simp only [Core.freg, Core.setF, mapGet_set]
  split
  · simp only [BitVec.toNat_ofNat]
  · rfl

theorem Core.ftaintOf_setF (k : Core) (x v : Nat) (t : Bool) {y : Nat} (hy : y < 64) :
    (k.setF x v t).ftaintOf y = if y = x then t else k.ftaintOf y := 
  getLsbD_putBit k.ftaint x t hy

theorem Core.freg_putF32 (k : Core) (x : Nat) (lanes : List Nat) (t : Bool) (y : Nat) :
    (k.putF32 x lanes t).freg y = if y = x then fromLanes 32 lanes % 2 ^ 4096 else k.freg y := k.freg_setF ..

theorem Core.ftaintOf_putF32 (k : Core) (x : Nat) (lanes : List Nat) (t : Bool) {y : Nat} (hy : y < 64) :
    (k.putF32 x lanes t).ftaintOf y = if y = x then t || lanes.any nan32 else k.ftaintOf y := k.ftaintOf_setF _ _ _ hy

/-- Writing one finisher register and moving on make a finisher result. -/
theorem wroteF_setF (k : Core) {x : Nat} (v : Nat) (t : Bool) (hx : x < 64) : k.WroteF (k.setF x v t).advance x v t := by
  refine ⟨?_, ?_, fun y hy hne => ⟨?_, ?_⟩, rfl⟩
  · rw [Core.freg_advance, Core.freg_setF, if_pos rfl]
  · rw [Core.ftaintOf_advance, Core.ftaintOf_setF _ _ _ _ hx, if_pos rfl]
  · rw [Core.freg_advance, Core.freg_setF, if_neg hne]
  · rw [Core.ftaintOf_advance, Core.ftaintOf_setF _ _ _ _ hy, if_neg hne]

/-- A finisher result told by what the register then holds. -/
theorem Core.WroteF.self {k k' : Core} {x v : Nat} {t : Bool} (h : k.WroteF k' x v t) : k.WroteF k' x (k'.freg x) t :=
  ⟨(k'.freg_mod x).symm, h.2⟩

/-- The lanes of a register written from FP32 lanes. -/
theorem lane32_putF32 (k : Core) (x : Nat) {lanes : List Nat} (t : Bool) (h : ∀ v ∈ lanes, v < 2 ^ 32) {j : Nat}
    (hj : j < 128) : lane32 ((k.putF32 x lanes t).freg x) j = lanes.getD j 0 := by
  rw [Core.freg_putF32, if_pos rfl, lane32_mod _ hj, lane32_fromLanes _ _ h]

/-! ## Finisher instructions -/

variable {s : State} {c : CoreId} {g : Guard} {f : FinF} {op : Nat} {ok : Bool} {body : Core → Res}

/-- A finisher instruction whose body writes FP32 lanes to `fd`: those lanes, zero beyond them, and the taint of the sources
or of a NaN lane. -/
theorem fin_writes_lanes {lanes : List Nat} {t0 : Bool} {l : Nat → Nat} (hr : s.Ready c g) (hok : ok = true)
    (hb : body (s.core c.val) = .done (s.setCore c.val ((s.core c.val).putF32 f.fd.toNat lanes t0)))
    (hlt : ∀ v ∈ lanes, v < 2 ^ 32) (hlen : lanes.length ≤ 128) (hl : ∀ j, j < 128 → lanes.getD j 0 = l j) :
    ∃ t, fin s c g op ok [] body = .next t ∧ s.OnlyCore t c ∧
      (∀ j, j < 128 → lane32 ((t.core c.val).freg f.fd.toNat) j = l j) ∧
      (s.core c.val).WroteF (t.core c.val) f.fd.toNat ((t.core c.val).freg f.fd.toNat)
        (t0 || (List.range 128).any fun j => nan32 (l j)) := by
  obtain ⟨t, hx, honly, hcore⟩ := issueOut_done_core (op := op) hr hok rfl (.inl rfl) hb
  have htaint : lanes.any nan32 = (List.range 128).any fun j => nan32 (l j) := by
    rw [any_nan32_eq lanes hlen, Bool.eq_iff_iff, List.any_eq_true, List.any_eq_true]
    exact exists_congr fun j => and_congr_right fun hj => by rw [hl j (List.mem_range.mp hj)]
  refine ⟨t, hx, honly, fun j hj => ?_, ?_⟩
  · rw [hcore, Core.freg_advance, lane32_putF32 _ _ _ hlt hj, hl j hj]
  · rw [hcore, ← htaint]
    exact (wroteF_setF _ _ _ f.fd.isLt).self

/-- The core after FSMX's two writes (R210): the lanes to register x, then values a and b into lanes 0 and 1 of register y. -/
def Core.softmaxed (k : Core) (x y : Nat) (lanes : List Nat) (a b : Nat) (t0 t1 : Bool) : Core :=
  let k1 := k.putF32 x lanes t0
  k1.setF y (putLanes (k1.freg y) 32 0 [a, b]) t1

theorem Core.freg_softmaxed (k : Core) (x y : Nat) (lanes : List Nat) (a b : Nat) (t0 t1 : Bool) (z : Nat) :
    (k.softmaxed x y lanes a b t0 t1).freg z =
      if z = y then putLanes ((k.putF32 x lanes t0).freg y) 32 0 [a, b] % 2 ^ 4096 else (k.putF32 x lanes t0).freg z :=
  Core.freg_setF _ y _ t1 z

theorem Core.ftaintOf_softmaxed (k : Core) (x y : Nat) (lanes : List Nat) (a b : Nat) (t0 t1 : Bool) {z : Nat} (hz : z < 64) :
    (k.softmaxed x y lanes a b t0 t1).ftaintOf z = if z = y then t1 else (k.putF32 x lanes t0).ftaintOf z :=
  Core.ftaintOf_setF _ y (putLanes ((k.putF32 x lanes t0).freg y) 32 0 [a, b]) t1 hz

/-- What the registers hold after both writes of FSMX, the registers being one or two. -/
theorem softmaxed_registers (k : Core) (x y : BitVec 6) (lanes : List Nat) {a b : Nat} (t0 t1 : Bool) (ha : a < 2 ^ 32)
    (hb : b < 2 ^ 32) :
    let old := if x = y then fromLanes 32 lanes % 2 ^ 4096 else k.freg y.toNat
    let k2 := (k.softmaxed x.toNat y.toNat lanes a b t0 t1).advance
    (x ≠ y → k2.freg x.toNat = fromLanes 32 lanes % 2 ^ 4096 ∧ k2.ftaintOf x.toNat = (t0 || lanes.any nan32)) ∧
    lane32 (k2.freg y.toNat) 0 = a ∧ lane32 (k2.freg y.toNat) 1 = b ∧
    (∀ j, 2 ≤ j → j < 128 → lane32 (k2.freg y.toNat) j = lane32 old j) ∧ k2.ftaintOf y.toNat = t1 ∧
    (∀ z, z < 64 → z ≠ x.toNat → z ≠ y.toNat → k2.freg z = k.freg z ∧ k2.ftaintOf z = k.ftaintOf z) ∧
    k2 = { k.advance with fregs := k2.fregs, ftaint := k2.ftaint } := by
  intro old k2
  have hold : (k.putF32 x.toNat lanes t0).freg y.toNat = old := by
    simp only [old, Core.freg_putF32, BitVec.toNat_inj, eq_comm]
  have hfreg (z : Nat) : k2.freg z =
      if z = y.toNat then putLanes old 32 0 [a, b] % 2 ^ 4096 else (k.putF32 x.toNat lanes t0).freg z := by
    rw [Core.freg_advance, Core.freg_softmaxed, hold]
  have htaint {z : Nat} (hz : z < 64) :
      k2.ftaintOf z = if z = y.toNat then t1 else (k.putF32 x.toNat lanes t0).ftaintOf z := by
    rw [Core.ftaintOf_advance, Core.ftaintOf_softmaxed _ _ _ _ _ _ _ _ hz]
  have hne : x ≠ y → x.toNat ≠ y.toNat := fun h => by rwa [Ne, BitVec.toNat_inj]
  refine ⟨fun h => ⟨?_, ?_⟩, ?_, ?_, fun j h2 hj => ?_, ?_, fun z hz hzx hzy => ⟨?_, ?_⟩, rfl⟩
  · rw [hfreg, if_neg (hne h), Core.freg_putF32, if_pos rfl]
  · rw [htaint x.isLt, if_neg (hne h), Core.ftaintOf_putF32 _ _ _ _ x.isLt, if_pos rfl]
  · rw [hfreg, if_pos rfl, lane32_mod _ (by omega), lane32_putLanes_zero _ _ _ ha]
  · rw [hfreg, if_pos rfl, lane32_mod _ (by omega), lane32_putLanes_one _ _ _ ha hb]
  · obtain ⟨i, rfl⟩ : ∃ i, j = i + 2 := ⟨j - 2, by omega⟩
    rw [hfreg, if_pos rfl, lane32_mod _ hj, lane32_putLanes_above _ _ _ ha hb]
  · rw [htaint y.isLt, if_pos rfl]
  · rw [hfreg, if_neg hzy, Core.freg_putF32, if_neg hzx]
  · rw [htaint hz, if_neg hzy, Core.ftaintOf_putF32 _ _ _ _ hz, if_neg hzx]

/-- Settles O19: FQK and FPV as lanes written to `fd`, FSMX by what its two writes leave. -/
theorem attentionSteps : Obligations.AttentionSteps := by
  intro s c g f hr k x p3 str kvt Lanes
  refine ⟨fun hf hregs => ⟨?fqk, ?fpv⟩, fun hf => ?fsmx⟩
  case fqk =>
    refine fin_writes_lanes hr (by simp [hf, hregs]) rfl ?_ (by simp) fun j hj => ?_
    · intro v hv
      obtain ⟨j, -, rfl⟩ := List.mem_map.mp hv
      split
      · decide
      · exact roundTo_f32_lt _
    · by_cases hlast : 32 ≤ j
      · rw [if_pos hlast, List.getD_eq_default _ _ (by simpa using hlast)]
      · rw [if_neg hlast, List.getD_eq_getElem _ _ (by simpa using hlast), List.getElem_map, List.getElem_range]
        rfl
  case fpv =>
    simp only [kvt, ← Bool.or_assoc]
    refine fin_writes_lanes hr (by simp [hf, hregs]) rfl ?_ (by simp) fun j hj => ?_
    · intro v hv
      obtain ⟨d, -, rfl⟩ := List.mem_map.mp hv
      exact roundTo_f32_lt _
    · rw [List.getD_eq_getElem _ _ (by simpa using hj), List.getElem_map, List.getElem_range]
  case fsmx =>
    intro st m u out old tt
    obtain ⟨t, hx, honly, hcore⟩ : ∃ t, execFsmx c g f s = .next t ∧ s.OnlyCore t c ∧ t.core c.val =
        (k.softmaxed f.fd.toNat f.fs2.toNat out (roundTo f32 u.2.2.1) (roundTo f32 u.2.2.2) tt (tt || u.2.2.2.isNan)).advance :=
      issueOut_done_core hr hf rfl (.inl rfl) rfl
    refine ⟨t, hx, honly, ?_⟩
    rw [hcore]
    exact softmaxed_registers k f.fd f.fs2 out tt _ (roundTo_f32_lt _) (roundTo_f32_lt _)

end Sys2Proof.Machine
end

section
/-! The engine instructions (O10): positions and queues of a core after a write, the commands that BZERO, BFLUSH, CSUM and ECTLW
place, and the passes that MMV queues with what their scale reads and draws leave. -/

namespace Sys2Proof.Machine

/-! ## Positions (R172) -/

theorem mem_positions {m : BitVec 8} {p : Nat} : p ∈ positions m ↔ p < 8 ∧ m.getLsbD p = true := by
  simp [positions]

theorem positions_nodup (m : BitVec 8) : (positions m).Nodup := List.nodup_range.filter _

/-- A mask that names a position has one. -/
theorem positions_ne_nil {m : BitVec 8} (h : m ≠ 0#8) : positions m ≠ [] := by
  intro hnil
  apply h
  apply BitVec.eq_of_getLsbD_eq
  intro p hp
  have hnot : p ∉ positions m := by simp [hnil]
  rw [mem_positions] at hnot
  simpa [hp] using hnot

theorem Core.posOf_setPos (k : Core) (p q : Nat) (x : PosState) :
    (k.setPos p x).posOf q = if q = p then x else k.posOf q := mapGet_set ..

theorem Core.posOf_enqueue (k : Core) (p q : Nat) (e : ECmd) :
    (k.enqueue p e).posOf q = if q = p then { k.posOf p with cmdq := (k.posOf p).cmdq ++ [e] } else k.posOf q :=
  k.posOf_setPos ..

/-- A change made at each of several positions, one after another. -/
theorem posOf_foldl_setPos (F : PosState → PosState) (q : Nat) : ∀ (ps : List Nat) (k : Core), ps.Nodup →
    (ps.foldl (fun k p => k.setPos p (F (k.posOf p))) k).posOf q = if q ∈ ps then F (k.posOf q) else k.posOf q
  | [], k, _ => by simp
  | p :: ps, k, h => by
    obtain ⟨hp, hps⟩ := List.nodup_cons.mp h
    rw [List.foldl_cons, posOf_foldl_setPos F q ps _ hps, Core.posOf_setPos]
    by_cases hqp : q = p
    · subst hqp
      simp [hp]
    · simp [hqp]

/-- Changes of positions touch nothing else of the core. -/
theorem foldl_setPos_frame (F : PosState → PosState) : ∀ (ps : List Nat) (k : Core),
    ps.foldl (fun k p => k.setPos p (F (k.posOf p))) k =
      { k with pos := (ps.foldl (fun k p => k.setPos p (F (k.posOf p))) k).pos }
  | [], _ => rfl
  | p :: ps, k => foldl_setPos_frame F ps (k.setPos p (F (k.posOf p)))

/-- A change made at every position of a mask, as the statement tells it. -/
theorem posOf_foldl_positions (F : PosState → PosState) (m : BitVec 8) (k : Core) {p : Nat} (hp : p < 8) :
    ((positions m).foldl (fun k p => k.setPos p (F (k.posOf p))) k).posOf p =
      if m.getLsbD p then F (k.posOf p) else k.posOf p := by
  rw [posOf_foldl_setPos F p _ k (positions_nodup m)]
  simp only [mem_positions, hp, true_and]

/-! ## Commands that post a queue entry (R164, R197, R199) -/

theorem Core.queue_reserve (k : Core) (q r : Nat) (kind : QKind) :
    (k.reserve q kind).queue r = if r = q then k.queue q ++ [⟨k.nextId, kind⟩] else k.queue r := mapGet_set ..

section
variable (q : Nat) (kind : QKind) (cmd : Nat → ECmd)

/-- Queueing posts touches the positions, the queues and the counter of entry names. -/
theorem queuePosts_frame : ∀ (ps : List Nat) (k : Core), queuePosts k q kind cmd ps =
    { k with pos := (queuePosts k q kind cmd ps).pos, queues := (queuePosts k q kind cmd ps).queues,
             nextId := (queuePosts k q kind cmd ps).nextId }
  | [], _ => rfl
  | p :: ps, k => queuePosts_frame ps ((k.reserve q kind).enqueue p (cmd k.nextId))

/-- One entry name per position. -/
theorem nextId_queuePosts : ∀ (ps : List Nat) (k : Core),
    (queuePosts k q kind cmd ps).nextId = k.nextId + ps.length
  | [], _ => rfl
  | p :: ps, k => by
    rw [queuePosts, nextId_queuePosts ps, List.length_cons]
    show k.nextId + 1 + ps.length = _
    omega

/-- One entry per position at the queue's end, in order, and every other queue as before. -/
theorem queue_queuePosts (r : Nat) : ∀ (ps : List Nat) (k : Core), (queuePosts k q kind cmd ps).queue r =
    if r = q then k.queue q ++ (List.range ps.length).map (fun j => ⟨k.nextId + j, kind⟩) else k.queue r
  | [], k => by by_cases h : r = q <;> simp [queuePosts, h]
  | p :: ps, k => by
    have hq : ∀ r, ((k.reserve q kind).enqueue p (cmd k.nextId)).queue r = (k.reserve q kind).queue r := fun _ => rfl
    have hid : ((k.reserve q kind).enqueue p (cmd k.nextId)).nextId = k.nextId + 1 := rfl
    rw [queuePosts, queue_queuePosts r ps, hid, hq, hq, Core.queue_reserve, Core.queue_reserve, if_pos rfl]
    by_cases h : r = q
    · simp only [if_pos h, List.append_assoc, List.length_cons, List.range_succ_eq_map, List.map_cons, List.map_map,
        List.singleton_append, Nat.add_zero]
      congr 3
      funext j
      simp only [Function.comp_apply, Nat.succ_eq_add_one]
      congr 1; omega
    · simp only [if_neg h]

/-- A position that is not named keeps its command queue. -/
theorem posOf_queuePosts_other {p : Nat} : ∀ (ps : List Nat) (k : Core), p ∉ ps →
    (queuePosts k q kind cmd ps).posOf p = k.posOf p
  | [], _, _ => rfl
  | r :: ps, k, h => by
    rw [List.mem_cons, not_or] at h
    rw [queuePosts, posOf_queuePosts_other ps _ h.2, Core.posOf_enqueue, if_neg h.1]
    rfl

/-- The j-th position named gets the command that posts the j-th entry reserved. -/
theorem posOf_queuePosts {p : Nat} : ∀ (ps : List Nat) (k : Core) (j : Nat), ps.Nodup → ps[j]? = some p →
    (queuePosts k q kind cmd ps).posOf p = { k.posOf p with cmdq := (k.posOf p).cmdq ++ [cmd (k.nextId + j)] }
  | [], _, _, _, hj => by simp at hj
  | r :: ps, k, 0, h, hj => by
    obtain rfl : r = p := by simpa using hj
    rw [queuePosts, posOf_queuePosts_other _ _ _ ps _ (List.nodup_cons.mp h).1, Core.posOf_enqueue, if_pos rfl]
    rfl
  | r :: ps, k, j + 1, h, hj => by
    obtain ⟨hr, hps⟩ := List.nodup_cons.mp h
    have hj : ps[j]? = some p := by simpa using hj
    have hne : p ≠ r := fun e => hr (e ▸ List.mem_of_getElem? hj)
    have hid : ((k.reserve q kind).enqueue r (cmd k.nextId)).nextId = k.nextId + 1 := rfl
    rw [queuePosts, posOf_queuePosts ps _ j hps hj, Core.posOf_enqueue, if_neg hne, hid, Nat.add_assoc, Nat.add_comm 1 j]
    rfl

end

/-! ## Reads that find no uncorrectable error (R110, R111) -/

theorem Core.readFix_frame (k : Core) (a n : Nat) :
    k.readFix a n = { k with spFlip := (k.readFix a n).spFlip, spCorrected := (k.readFix a n).spCorrected } := by
  unfold Core.readFix
  split <;> rfl

/-- Without single-bit errors a read changes nothing. -/
theorem Core.readFix_of_no_flip (k : Core) (a n : Nat) (h : k.spFlip = []) : k.readFix a n = k := by
  have hnone : k.flips a n = [] := by simp [Core.flips, h, mapGet]
  exact if_pos hnone

/-! ## What queueing passes does (R78, R81, R110, R195) -/

/-- From s to t, commands were queued on core c: command `e p` at every position p of the list ps, single-bit errors
corrected, and draws taken whether the passes are sampled. -/
structure State.PassesQueued (s t : State) (c : Nat) (e : Nat → ECmd) (ps : List Nat) : Prop where
  frame : t = { s with cores := t.cores, dict := t.dict }
  others : ∀ d, d ≠ c → t.core d = s.core d
  entries : ∀ key, key ≠ K.fcSkipped → t.rd key = s.rd key
  core : t.core c = { s.core c with
    pos := (t.core c).pos, side := (t.core c).side, fcDrawn := (t.core c).fcDrawn, spFlip := (t.core c).spFlip
    spCorrected := (t.core c).spCorrected }
  positions : ∀ p, (t.core c).posOf p =
    if p ∈ ps then { (s.core c).posOf p with cmdq := ((s.core c).posOf p).cmdq ++ [e p] } else (s.core c).posOf p
  flips : (s.core c).spFlip = [] → (t.core c).spFlip = [] ∧ (t.core c).spCorrected = (s.core c).spCorrected
  unsampled : (∀ i, (s.core c).inst = some i → (s.inst i.val).fcEnable = false) →
    t.rd K.fcSkipped = s.rd K.fcSkipped ∧ (t.core c).side = (s.core c).side ∧ (t.core c).fcDrawn = (s.core c).fcDrawn

theorem State.PassesQueued.refl (s : State) (c : Nat) (e : Nat → ECmd) : s.PassesQueued s c e [] :=
  ⟨rfl, fun _ _ => rfl, fun _ _ => rfl, rfl, fun p => by simp, fun h => ⟨h, rfl⟩, fun _ => ⟨rfl, rfl, rfl⟩⟩

/-- Passes queued one list after another, at different positions. -/
theorem State.PassesQueued.trans {s t u : State} {c : Nat} {e : Nat → ECmd} {ps qs : List Nat}
    (h : s.PassesQueued t c e ps) (k : t.PassesQueued u c e qs) (hd : ∀ p ∈ ps, p ∉ qs) :
    s.PassesQueued u c e (ps ++ qs) where
  frame := by rw [k.frame, h.frame]
  others d hc := (k.others d hc).trans (h.others d hc)
  entries key hk := (k.entries key hk).trans (h.entries key hk)
  core := by rw [k.core, h.core]
  positions p := by
    rw [k.positions, h.positions]
    by_cases hp : p ∈ ps
    · simp [hp, hd p hp]
    · simp [hp]
  flips hs := by
    obtain ⟨ht, hc⟩ := h.flips hs
    exact ⟨(k.flips ht).1, (k.flips ht).2.trans hc⟩
  unsampled hoff := by
    obtain ⟨hskip, hside, hdrawn⟩ := h.unsampled hoff
    have hinst : (t.core c).inst = (s.core c).inst := by rw [h.core]
    have hinsts : ∀ i, t.inst i = s.inst i := fun i => by rw [h.frame]; rfl
    obtain ⟨hskip', hside', hdrawn'⟩ := k.unsampled fun i hi => by rw [hinsts]; exact hoff i (hinst ▸ hi)
    exact ⟨hskip'.trans hskip, hside'.trans hside, hdrawn'.trans hdrawn⟩

/-- A draw leaves the state as it is, or, with the fitting check on, adds the tile pass to those drawn and takes a
side-buffer slot or counts a skipped sample. -/
theorem State.fcSelect_cases (s : State) (c e tile layer : Nat) :
    s.fcSelect c e tile layer = s ∨ ∃ i, (s.core c).inst = some i ∧ (s.inst i.val).fcEnable = true ∧
      ((∃ d, s.fcSelect c e tile layer = (s.setCore c { s.core c with fcDrawn := d }).bump K.fcSkipped 64 1) ∨
        ∃ d b, s.fcSelect c e tile layer = s.setCore c { s.core c with fcDrawn := d, side := b }) := by
  unfold State.fcSelect
  dsimp only
  split
  · exact .inl rfl
  next i hi =>
    split
    · exact .inl rfl
    next hon =>
      refine .inr ⟨i, hi, by simpa using (not_or.mp hon).1, ?_⟩
      split
      · exact .inl ⟨_, rfl⟩
      · exact .inr ⟨_, _, rfl⟩

/-- A change of core c alone, by what it does to that core. -/
theorem State.passesQueued_setCore {s : State} {c : Nat} {e : Nat → ECmd} {ps : List Nat} (k : Core)
    (hcore : k = { s.core c with
      pos := k.pos, side := k.side, fcDrawn := k.fcDrawn, spFlip := k.spFlip, spCorrected := k.spCorrected })
    (hpos : ∀ p, k.posOf p =
      if p ∈ ps then { (s.core c).posOf p with cmdq := ((s.core c).posOf p).cmdq ++ [e p] } else (s.core c).posOf p)
    (hflips : (s.core c).spFlip = [] → k.spFlip = [] ∧ k.spCorrected = (s.core c).spCorrected)
    (hdraw : (∀ i, (s.core c).inst = some i → (s.inst i.val).fcEnable = false) →
      k.side = (s.core c).side ∧ k.fcDrawn = (s.core c).fcDrawn) :
    s.PassesQueued (s.setCore c k) c e ps where
  frame := rfl
  others d hd := s.core_setCore_ne c k d hd
  entries _ _ := rfl
  core := by rw [State.core_setCore]; exact hcore
  positions := by rw [State.core_setCore]; exact hpos
  flips := by rw [State.core_setCore]; exact hflips
  unsampled hoff := by rw [State.core_setCore]; exact ⟨rfl, hdraw hoff⟩

/-- A skipped sample is counted only while the fitting check is on. -/
theorem State.PassesQueued.bump_skipped {s t : State} {c : Nat} {e : Nat → ECmd} {ps : List Nat}
    (h : s.PassesQueued t c e ps) (hon : ¬ ∀ i, (s.core c).inst = some i → (s.inst i.val).fcEnable = false) :
    s.PassesQueued (t.bump K.fcSkipped 64 1) c e ps where
  frame := by rw [State.bump, State.wr, h.frame]
  others := h.others
  entries key hk := (State.rd_wr_ne t _ _ _ hk).trans (h.entries key hk)
  core := h.core
  positions := h.positions
  flips := h.flips
  unsampled hoff := absurd hoff hon

/-- A draw queues nothing. -/
theorem State.fcSelect_passesQueued (s : State) (c e tile layer : Nat) (cmd : Nat → ECmd) :
    s.PassesQueued (s.fcSelect c e tile layer) c cmd [] := by
  rcases s.fcSelect_cases c e tile layer with h | ⟨i, hi, hon, hcase⟩
  · rw [h]
    exact .refl s c cmd
  · have hoff : ¬ ∀ i, (s.core c).inst = some i → (s.inst i.val).fcEnable = false := fun hall => by
      simp [hall i hi] at hon
    have hdraw (d b) : s.PassesQueued (s.setCore c { s.core c with fcDrawn := d, side := b }) c cmd [] :=
      State.passesQueued_setCore _ rfl (fun _ => (if_neg List.not_mem_nil).symm) (fun hs => ⟨hs, rfl⟩)
        fun hall => absurd hall hoff
    rcases hcase with ⟨d, h⟩ | ⟨d, b, h⟩
    · rw [h]
      exact (hdraw d (s.core c).side).bump_skipped hoff
    · rw [h]
      exact hdraw d b

/-- The command that MMV queues at position p: the tile's pass over the element array, with the scale bytes as read. -/
def mmvPass (k : Core) (tile ea es p : Nat) : ECmd :=
  .pass ⟨tile, 4096 * k.nbase + bits ea 18 0, k.bytesAt (k.narrowAt p (bits es 18 0)) (tdBlocks (k.tdAt p tile)), false,
    (k.posOf p).ectl, k.pc⟩

/-- The scale bytes of MMV at position p hold no uncorrectable error. -/
def mmvClean (k : Core) (tile es p : Nat) : Prop :=
  k.poisoned (k.narrowAt p (bits es 18 0)) (tdBlocks (k.tdAt p tile)) = []

/-- One pass of MMV whose scale bytes read well: its command at position p, the errors of its scale bytes corrected, its
draw taken. -/
theorem queuePass_passesQueued {s : State} {c tile ea es p : Nat} {e : Nat → ECmd}
    (hclean : mmvClean (s.core c) tile es p) (he : mmvPass (s.core c) tile ea es p = e p) :
    s.PassesQueued (queuePass c tile ea es s p) c e [p] := by
  let a := (s.core c).narrowAt p (bits es 18 0)
  let n := tdBlocks ((s.core c).tdAt p tile)
  have hpass : queuePass c tile ea es s p = (s.setCore c (((s.core c).readFix a n).enqueue p (e p))).fcSelect c
      ((s.core c).engineAt p) tile (bits ((s.core c).posOf p).ectl.toNat 23 12) := by
    unfold queuePass
    dsimp only
    rw [show (s.core c).poisoned _ _ = [] from hclean, ← he]
    rfl
  have hfix := (s.core c).readFix_frame a n
  have hqueued : s.PassesQueued (s.setCore c (((s.core c).readFix a n).enqueue p (e p))) c e [p] := by
    refine State.passesQueued_setCore _ ?core (fun q => ?pos) (fun hs => ?flips) fun _ => ?draw
    case core =>
      generalize (s.core c).readFix a n = k at hfix
      rw [hfix]
      rfl
    case pos =>
      have hpos : ∀ q, ((s.core c).readFix a n).posOf q = (s.core c).posOf q := fun q => by rw [hfix]; rfl
      rw [Core.posOf_enqueue, hpos, hpos]
      by_cases h : q = p
      · simp [h]
      · simp [h]
    case flips =>
      rw [Core.readFix_of_no_flip _ _ _ hs]
      exact ⟨hs, rfl⟩
    case draw =>
      rw [hfix]
      exact ⟨rfl, rfl⟩
  rw [hpass]
  exact hqueued.trans (State.fcSelect_passesQueued _ _ _ _ _ _) (by simp)

/-- After other positions took their passes, the pass of position p is the one that the core gave before. -/
theorem State.PassesQueued.mmvPass_eq {s t : State} {c : Nat} {e : Nat → ECmd} {ps : List Nat} (h : s.PassesQueued t c e ps)
    {p : Nat} (hp : p ∉ ps) (tile ea es : Nat) :
    mmvPass (t.core c) tile ea es p = mmvPass (s.core c) tile ea es p := by
  have hpos : (t.core c).posOf p = (s.core c).posOf p := by rw [h.positions, if_neg hp]
  have hcore := h.core
  unfold mmvPass
  rw [hpos, hcore]
  rfl

/-- Queueing passes poisons no scale byte. -/
theorem State.PassesQueued.mmvClean_iff {s t : State} {c : Nat} {e : Nat → ECmd} {ps : List Nat} (h : s.PassesQueued t c e ps)
    (tile es p : Nat) : mmvClean (t.core c) tile es p ↔ mmvClean (s.core c) tile es p := by
  have hcore := h.core
  unfold mmvClean
  rw [hcore]
  rfl

/-- MMV's passes at a list of different positions. -/
theorem each_queuePass_passesQueued {c tile ea es : Nat} {e : Nat → ECmd} : ∀ (ps : List Nat) (s : State), ps.Nodup →
    (∀ p ∈ ps, mmvClean (s.core c) tile es p) → (∀ p ∈ ps, mmvPass (s.core c) tile ea es p = e p) →
    s.PassesQueued (s.each ps (queuePass c tile ea es)) c e ps
  | [], s, _, _, _ => .refl s c e
  | p :: ps, s, hnd, hclean, he => by
    obtain ⟨hp, hps⟩ := List.nodup_cons.mp hnd
    have hhead := queuePass_passesQueued (hclean p List.mem_cons_self) (he p List.mem_cons_self)
    have hne : ∀ q ∈ ps, q ∉ [p] := fun q hq h => hp (List.mem_singleton.mp h ▸ hq)
    have htail := each_queuePass_passesQueued ps (queuePass c tile ea es s p) hps
      (fun q hq => (hhead.mmvClean_iff ..).mpr (hclean q (List.mem_cons_of_mem _ hq)))
      fun q hq => (hhead.mmvPass_eq (hne q hq) ..).trans (he q (List.mem_cons_of_mem _ hq))
    exact hhead.trans htail (by simpa using hp)

/-! ## The statement -/

section
variable {s : State} {c : CoreId} {g : Guard} {op : Nat} {legal : Bool} {body : Core → Res}

/-- A ready instruction that changes the positions of a mask, each in the same way. -/
theorem issueOut_positions (F : PosState → PosState) (m : BitVec 8) (hr : s.Ready c g) (hl : legal = true)
    (hb : body (s.core c.val) =
      .done (s.setCore c.val ((positions m).foldl (fun k p => k.setPos p (F (k.posOf p))) (s.core c.val)))) :
    ∃ t, issueOut s c g op legal false [] body = .next t ∧ s.OnlyCore t c ∧
      (∀ p, p < 8 → (t.core c.val).posOf p =
        if m.getLsbD p then F ((s.core c.val).posOf p) else (s.core c.val).posOf p) ∧
      t.core c.val = { (s.core c.val).advance with pos := (t.core c.val).pos } := by
  obtain ⟨t, hx, honly, hcore⟩ := issueOut_done_core (op := op) hr hl rfl (.inl rfl) hb
  refine ⟨t, hx, honly, ?_⟩
  rw [hcore]
  exact ⟨fun p hp => posOf_foldl_positions F m _ hp, congrArg Core.advance (foldl_setPos_frame F (positions m) _)⟩

/-- A ready instruction that reserves one entry of queue q per position of a mask and queues the commands that post them. -/
theorem issueOut_posts (q : Nat) (kind : QKind) (cmd : Nat → ECmd) (m : BitVec 8) (hr : s.Ready c g) (hl : legal = true)
    (hb : body (s.core c.val) = .done (s.setCore c.val (queuePosts (s.core c.val) q kind cmd (positions m)))) :
    ∃ t, issueOut s c g op legal false [] body = .next t ∧ s.OnlyCore t c ∧
      ((t.core c.val).queue q = (s.core c.val).queue q ++
          (List.range (positions m).length).map (fun j => ⟨(s.core c.val).nextId + j, kind⟩) ∧
        (t.core c.val).nextId = (s.core c.val).nextId + (positions m).length ∧
        ∀ r, r ≠ q → (t.core c.val).queue r = (s.core c.val).queue r) ∧
      (∀ j p, (positions m)[j]? = some p → (t.core c.val).posOf p =
        { (s.core c.val).posOf p with cmdq := ((s.core c.val).posOf p).cmdq ++ [cmd ((s.core c.val).nextId + j)] }) ∧
      (∀ p, p < 8 → m.getLsbD p = false → (t.core c.val).posOf p = (s.core c.val).posOf p) ∧
      t.core c.val = { (s.core c.val).advance with
        pos := (t.core c.val).pos, queues := (t.core c.val).queues, nextId := (t.core c.val).nextId } := by
  obtain ⟨t, hx, honly, hcore⟩ := issueOut_done_core (op := op) hr hl rfl (.inl rfl) hb
  refine ⟨t, hx, honly, ?_⟩
  rw [hcore]
  refine ⟨⟨?_, nextId_queuePosts q kind cmd _ _, fun r hne => ?_⟩,
    fun j p hj => posOf_queuePosts q kind cmd _ _ j (positions_nodup m) hj, fun p _ hoff => ?_,
    congrArg Core.advance (queuePosts_frame q kind cmd (positions m) _)⟩
  · exact (queue_queuePosts q kind cmd q _ _).trans (if_pos rfl)
  · exact (queue_queuePosts q kind cmd r _ _).trans (if_neg hne)
  · exact posOf_queuePosts_other q kind cmd _ _ fun hp => by simp [(mem_positions.mp hp).2] at hoff

/-- A ready instruction that queues MMV's passes at the positions of a mask. -/
theorem issueOut_passes {accs : List Access} (tile ea es : Nat) (m : BitVec 8) (hr : s.Ready c g) (hl : legal = true)
    (hz : s.rd K.hzMode = 0) (hclean : ∀ p ∈ positions m, mmvClean (s.core c.val) tile es p)
    (hb : body (s.core c.val) = .done (s.each (positions m) (queuePass c.val tile ea es))) :
    ∃ t, issueOut s c g op legal false accs body = .next t ∧ t = { s with cores := t.cores, dict := t.dict } ∧
      (∀ d, d ≠ c.val → t.core d = s.core d) ∧ (∀ key, key ≠ K.fcSkipped → t.rd key = s.rd key) ∧
      (∀ p, p < 8 → (t.core c.val).posOf p = if m.getLsbD p then
        { (s.core c.val).posOf p with
          cmdq := ((s.core c.val).posOf p).cmdq ++ [mmvPass (s.core c.val) tile ea es p] } else (s.core c.val).posOf p) ∧
      t.core c.val = { (s.core c.val).advance with
        pos := (t.core c.val).pos, side := (t.core c.val).side, fcDrawn := (t.core c.val).fcDrawn
        spFlip := (t.core c.val).spFlip, spCorrected := (t.core c.val).spCorrected } ∧
      ((s.core c.val).spFlip = [] →
        (t.core c.val).spFlip = [] ∧ (t.core c.val).spCorrected = (s.core c.val).spCorrected) ∧
      ((∀ i, (s.core c.val).inst = some i → (s.inst i.val).fcEnable = false) →
        t.rd K.fcSkipped = s.rd K.fcSkipped ∧ (t.core c.val).side = (s.core c.val).side ∧
          (t.core c.val).fcDrawn = (s.core c.val).fcDrawn) := by
  have hq := each_queuePass_passesQueued (ea := ea) (positions m) s (positions_nodup m) hclean fun _ _ => rfl
  have hoff : (s.each (positions m) (queuePass c.val tile ea es)).rd K.hzMode = 0 :=
    (hq.entries _ (by decide)).trans hz
  have hx := issueOut_done (op := op) (accs := accs) hr hl rfl hb (.inr hoff)
  generalize s.each (positions m) (queuePass c.val tile ea es) = u at hq hx
  have hframe : u.setCore c.val (u.core c.val).advance =
      { s with cores := (u.setCore c.val (u.core c.val).advance).cores, dict := u.dict } := by
    rw [State.setCore, hq.frame]
  refine ⟨_, hx, hframe, fun d hd => ?_, hq.entries, ?_⟩
  · rw [State.core_setCore_ne _ _ _ _ hd, hq.others d hd]
  · rw [State.core_setCore]
    refine ⟨fun p hp => ?_, congrArg Core.advance hq.core, hq.flips, hq.unsampled⟩
    have hmem : p ∈ positions m ↔ m.getLsbD p = true := by simp [mem_positions, hp]
    exact (hq.positions p).trans (by simp only [hmem])

end

/-- Settles O10: the positions' changes, the posts and the passes, each by its own lemma. -/
theorem engineInstructionsQueueOneCommandPerPosition : Obligations.EngineInstructionsQueueOneCommandPerPosition := by
  intro s c g f hr hz hmask
  have hps := positions_ne_nil hmask
  simp only [exec_mmv, exec_bzero, exec_ectlw, exec_bflush, exec_csum, execMmv, execBzero, execEctlw, execBflush, execCsum]
  refine ⟨?mmv, ?bzero, ?ectlw, fun hroom hcmd hra hrb himm => ⟨?bflush, ?csum⟩⟩
  case mmv =>
    intro hqueue himm hcmd hall
    have haddr : ((positions f.emask).any fun p => (s.core c.val).mmvAddrBad f.tile.toNat ((s.core c.val).areg f.ra.toNat)
        ((s.core c.val).areg f.rb.toNat) p) = false := by
      simpa using fun p hp => (hall p hp).1
    have hvalid : ((positions f.emask).any fun p => !tdValid ((s.core c.val).tdAt p f.tile.toNat)) = false := by
      simpa using fun p hp => (hall p hp).2.1
    exact issueOut_passes f.tile.toNat ((s.core c.val).areg f.ra.toNat) ((s.core c.val).areg f.rb.toNat) f.emask hr
      (by simp [hqueue, himm]) hz (fun p hp => (hall p hp).2.2) (by simp [haddr, hvalid, hps, hcmd])
  case bzero =>
    intro htile hra hrb hqueue himm hcmd
    exact issueOut_positions (fun x => { x with cmdq := x.cmdq ++ [.bzero] }) f.emask hr
      (by simp [htile, hra, hrb, hqueue, himm]) (by simp [hps, hcmd]; rfl)
  case ectlw =>
    intro htile hra hrb hqueue
    exact issueOut_positions (fun x => { x with ectl := BitVec.ofNat 32 f.imm24.toNat }) f.emask hr
      (by simp [htile, hra, hrb, hqueue]) (by simp [hps])
  case bflush =>
    intro htile
    exact issueOut_posts f.queue.toNat (.bolts none) (.bflush f.queue.toNat) f.emask hr (by simp [htile, hra, hrb, himm])
      (by simp [hps, hroom, hcmd])
  case csum =>
    intro hvalid
    have hany : ((positions f.emask).any fun p => !tdValid ((s.core c.val).tdAt p f.tile.toNat)) = false := by
      simpa using hvalid
    exact issueOut_posts f.queue.toNat (.word none) (.csum f.tile.toNat f.queue.toNat) f.emask hr
      (by simp [hra, hrb, himm]) (by simp [hps, hroom, hcmd, hany])

end Sys2Proof.Machine
end

section
/-! Basting what may not be basted (O50): how a request that reaches an entry of the session's role is answered, and what a
write answers when its baste is refused or its value is no value of the entry's type. -/

namespace Sys2Proof.Machine

section

variable {s : State} {ses : SessId} {m : ZMsg} {r : DictRow}

/-! ## Requests (R398, R400) -/

/-- A good request that is no repeat is carried out and answered. -/
theorem handle_of_fresh {op : Nat} (f : State → State × ZAns) (hcarries : s.carries ses = true)
    (hkept : s.keptFor ses m = none) (hform : malformed m op = false) :
    s.handle ses m op f = (f s).1.respond ses m (responseBytes m (f s).2) := by
  simp [State.handle, hcarries, hkept, hform]

/-- On an entry that the session sees and whose roles list the session's, a request acts on that entry. -/
theorem withEntry_of_listed (f : DictRow → State × ZAns) (hentry : s.entryFor ses m = some r)
    (hrole : r.roles.contains (sesRole ses) = true) : s.withEntry ses m f = f r := by
  rw [State.withEntry, hentry]
  exact if_pos hrole

/-! ## Writes with `baste` set (R403, R404; the checks stand in the order of log entry 42) -/

/-- R404: an entry that may not be basted from the session; the message's offset and value do not matter. -/
theorem zwrite_of_not_bastable (hbaste : bit m.flags.toNat 0 = true) (hentry : s.entryFor ses m = some r)
    (hrole : r.roles.contains (sesRole ses) = true)
    (hnot : r.acc ≠ .rw ∨ blockAddressed (m.index * 256 + m.sub) = true ∨ sesRole ses = .T) :
    s.zwrite ses m = (s, { status := 9, type := r.ty.code }) := by
  rw [State.zwrite, withEntry_of_listed _ hentry hrole]
  exact if_pos ⟨hbaste, or_rotate.mpr hnot⟩

/-- R403: the length and range of a value are judged alike for a baste and for a direct write. -/
theorem wholeWrite_of_misshapen {b : List Byte} (key : Nat) (baste : Bool) (hshape : r.shape b ≠ 0) :
    s.wholeWrite ses r key baste b = (s, r.shape b) :=
  if_pos hshape

/-- R403: an RW number of the wrong length or range, basted or written directly (no hypothesis speaks of `baste`). -/
theorem zwrite_of_misshapen (hentry : s.entryFor ses m = some r) (hrole : r.roles.contains (sesRole ses) = true)
    (hrw : r.acc = .rw) (hblock : blockAddressed (m.index * 256 + m.sub) = false) (htenant : sesRole ses ≠ .T)
    (hnumber : r.ty.bytes = false) (hoffset : m.offset = 0) (hshape : r.shape m.payload ≠ 0) :
    s.zwrite ses m = (s, { status := r.shape m.payload, type := r.ty.code }) := by
  have hblob : r.ty ≠ .blob := fun h => by simp [h, DType.bytes] at hnumber
  rw [State.zwrite, withEntry_of_listed _ hentry hrole]
  simp [hrw, hblock, htenant, hblob, hoffset, wholeWrite_of_misshapen _ _ hshape]

/-- A good BASTE that is no repeat answers as the write that it is. -/
theorem exec_baste_of_fresh (hcarries : s.carries ses = true) (hkept : s.keptFor ses m = none)
    (hform : malformed m 2 = false) (hbaste : bit m.flags.toNat 0 = true) :
    exec (.baste ses m) s = .next ((s.zwrite ses m).1.respond ses m (responseBytes m (s.zwrite ses m).2)) := by
  rw [exec_baste, execBaste, if_pos hbaste, handle_of_fresh _ hcarries hkept hform]

/-- Nothing follows the response to a good WRITE that is no repeat and is refused. -/
theorem exec_write_of_refused (hcarries : s.carries ses = true) (hkept : s.keptFor ses m = none)
    (hform : malformed m 2 = false) (hrefused : (s.zwrite ses m).2.status ≠ 0) :
    exec (.write ses m) s = .next ((s.zwrite ses m).1.respond ses m (responseBytes m (s.zwrite ses m).2)) := by
  simp [execWrite, State.writeMsg, hrefused, handle_of_fresh _ hcarries hkept hform]

end

/-! ## The statement -/

/-- Settles O50: a write with `baste` set stops at the check of what may be basted, and of a bastable number at the check of
its length and range. -/
theorem basteRefusesWhatMayNotBeBasted : Obligations.BasteRefusesWhatMayNotBeBasted := by
  intro s ses m r key hcarries hkept hform hbaste hentry hrole
  have hexec := exec_baste_of_fresh hcarries hkept hform hbaste
  constructor
  · intro hnot
    have hz := zwrite_of_not_bastable hbaste hentry hrole hnot
    have hwrite := exec_write_of_refused hcarries hkept hform (by simp [hz])
    rw [hz] at hexec hwrite
    exact ⟨hexec, hwrite⟩
  · intro hrw hblock htenant hnumber hoffset hshape
    rw [hexec, zwrite_of_misshapen hentry hrole hrw hblock htenant hnumber hoffset hshape]

end Sys2Proof.Machine
end

section
/-! The instruction words (O3, O4): a word is built of its opcode, its guard and its format's fields, and is read back as them. -/

namespace Sys2Proof

/-- Bits that follow each other in a word, put together. -/
theorem append_extractLsb' {n : Nat} (w : BitVec n) (m l s : Nat) :
    w.extractLsb' (s + l) m ++ w.extractLsb' s l = w.extractLsb' s (m + l) := by
  apply BitVec.eq_of_getLsbD_eq
  intro i hi
  simp only [BitVec.getLsbD_append, BitVec.getLsbD_extractLsb']
  by_cases h : i < l
  · simp [h, hi]
  · have hm : i - l < m := by omega
    have hs : s + l + (i - l) = s + i := by omega
    simp [h, hi, hm, hs]

theorem ctlOf_payload (w : BitVec 64) : (ctlOf w).payload = w.extractLsb' 0 52 := by
  simp only [ctlOf, CtlF.payload]
  rw [append_extractLsb' w 6 14 32, append_extractLsb' w _ 32 0]

theorem scalOf_payload (w : BitVec 64) : (scalOf w).payload = w.extractLsb' 0 52 := by
  simp only [scalOf, ScalF.payload]
  rw [append_extractLsb' w 6 6 40, append_extractLsb' w _ 6 34, append_extractLsb' w _ 1 33, append_extractLsb' w _ 1 32,
    append_extractLsb' w _ 32 0]

theorem engOf_payload (w : BitVec 64) : (engOf w).payload = w.extractLsb' 0 52 := by
  simp only [engOf, EngF.payload]
  rw [append_extractLsb' w 8 9 35, append_extractLsb' w _ 4 31, append_extractLsb' w _ 4 27, append_extractLsb' w _ 3 24,
    append_extractLsb' w _ 24 0]

theorem finOf_payload (w : BitVec 64) : (finOf w).payload = w.extractLsb' 0 52 := by
  simp only [finOf, FinF.payload]
  rw [append_extractLsb' w 6 6 40, append_extractLsb' w _ 6 34, append_extractLsb' w _ 6 28, append_extractLsb' w _ 2 26,
    append_extractLsb' w _ 9 17, append_extractLsb' w _ 4 13, append_extractLsb' w _ 4 9, append_extractLsb' w _ 3 6,
    append_extractLsb' w _ 1 5, append_extractLsb' w _ 1 4, append_extractLsb' w _ 1 3, append_extractLsb' w _ 3 0]

theorem movOf_payload (w : BitVec 64) : (movOf w).payload = w.extractLsb' 0 52 := by
  simp only [movOf, MovF.payload]
  rw [append_extractLsb' w 3 3 46, append_extractLsb' w _ 4 42, append_extractLsb' w _ 4 38, append_extractLsb' w _ 6 32,
    append_extractLsb' w _ 6 26, append_extractLsb' w _ 2 24, append_extractLsb' w _ 1 23, append_extractLsb' w _ 1 22,
    append_extractLsb' w _ 6 16, append_extractLsb' w _ 16 0]

theorem syncOf_payload (w : BitVec 64) : (syncOf w).payload = w.extractLsb' 0 52 := by
  simp only [syncOf, SyncF.payload]
  rw [append_extractLsb' w 6 8 38, append_extractLsb' w _ 6 32, append_extractLsb' w _ 32 0]

theorem sampOf_payload (w : BitVec 64) : (sampOf w).payload = w.extractLsb' 0 52 := by
  simp only [sampOf, SampF.payload]
  rw [append_extractLsb' w 6 6 40, append_extractLsb' w _ 9 31, append_extractLsb' w _ 3 28, append_extractLsb' w _ 6 22,
    append_extractLsb' w _ 9 13, append_extractLsb' w _ 13 0]

/-- A word is built of its opcode, its guard and its payload (R169). -/
theorem headWord_of_parts {w : BitVec 64} {op : BitVec 8} (h : (w.extractLsb' 56 8).toNat = op.toNat) :
    headWord op (guardOf w) (w.extractLsb' 0 52) = w := by
  rw [← BitVec.eq_of_toNat_eq h]
  simp only [headWord, guardOf]
  rw [append_extractLsb' w 8 1 55, append_extractLsb' w _ 3 52, append_extractLsb' w _ 52 0]
  exact extract_all w

open Laws in
/-- Settles O3: for each instruction of a core its Format law, which reads back the opcode, the guard and the fields; no other
command has a word. -/
theorem decodeOfEncode : Obligations.DecodeOfEncode := by
  intro i w h
  cases i with
  | nop c g f => exact Format.nop c g f w h
  | halt c g f => exact Format.halt c g f w h
  | br c g f => exact Format.br c g f w h
  | brr c g f => exact Format.brr c g f w h
  | callI c g f => exact Format.callI c g f w h
  | ret c g f => exact Format.ret c g f w h
  | loopI c g f => exact Format.loopI c g f w h
  | brk c g f => exact Format.brk c g f w h
  | add c g f => exact Format.add c g f w h
  | sub c g f => exact Format.sub c g f w h
  | mul c g f => exact Format.mul c g f w h
  | andI c g f => exact Format.andI c g f w h
  | orI c g f => exact Format.orI c g f w h
  | xorI c g f => exact Format.xorI c g f w h
  | shl c g f => exact Format.shl c g f w h
  | shr c g f => exact Format.shr c g f w h
  | sra c g f => exact Format.sra c g f w h
  | min c g f => exact Format.min c g f w h
  | max c g f => exact Format.max c g f w h
  | minu c g f => exact Format.minu c g f w h
  | maxu c g f => exact Format.maxu c g f w h
  | cmpeq c g f => exact Format.cmpeq c g f w h
  | cmplt c g f => exact Format.cmplt c g f w h
  | cmpltu c g f => exact Format.cmpltu c g f w h
  | mov c g f => exact Format.mov c g f w h
  | sld c g f => exact Format.sld c g f w h
  | sst c g f => exact Format.sst c g f w h
  | mmv c g f => exact Format.mmv c g f w h
  | bflush c g f => exact Format.bflush c g f w h
  | bzero c g f => exact Format.bzero c g f w h
  | csum c g f => exact Format.csum c g f w h
  | ectlw c g f => exact Format.ectlw c g f w h
  | fld c g f => exact Format.fld c g f w h
  | fst c g f => exact Format.fst c g f w h
  | fcvt c g f => exact Format.fcvt c g f w h
  | fadd c g f => exact Format.fadd c g f w h
  | fsub c g f => exact Format.fsub c g f w h
  | fmul c g f => exact Format.fmul c g f w h
  | ffma c g f => exact Format.ffma c g f w h
  | fmin c g f => exact Format.fmin c g f w h
  | fmax c g f => exact Format.fmax c g f w h
  | fcmp c g f => exact Format.fcmp c g f w h
  | fneg c g f => exact Format.fneg c g f w h
  | fabs c g f => exact Format.fabs c g f w h
  | fcvtb c g f => exact Format.fcvtb c g f w h
  | funp c g f => exact Format.funp c g f w h
  | frcp c g f => exact Format.frcp c g f w h
  | fsqrt c g f => exact Format.fsqrt c g f w h
  | frsq c g f => exact Format.frsq c g f w h
  | fexp c g f => exact Format.fexp c g f w h
  | fexp2 c g f => exact Format.fexp2 c g f w h
  | flog c g f => exact Format.flog c g f w h
  | flog2 c g f => exact Format.flog2 c g f w h
  | fact c g f => exact Format.fact c g f w h
  | fsum c g f => exact Format.fsum c g f w h
  | fdot c g f => exact Format.fdot c g f w h
  | frms c g f => exact Format.frms c g f w h
  | flnorm c g f => exact Format.flnorm c g f w h
  | fquant c g f => exact Format.fquant c g f w h
  | falt c g f => exact Format.falt c g f w h
  | fqk c g f => exact Format.fqk c g f w h
  | fsmx c g f => exact Format.fsmx c g f w h
  | fpv c g f => exact Format.fpv c g f w h
  | femb c g f => exact Format.femb c g f w h
  | qpush c g f => exact Format.qpush c g f w h
  | pwalk c g f => exact Format.pwalk c g f w h
  | qwait c g f => exact Format.qwait c g f w h
  | qexp c g f => exact Format.qexp c g f w h
  | nget c g f => exact Format.nget c g f w h
  | nput c g f => exact Format.nput c g f w h
  | rget c g f => exact Format.rget c g f w h
  | rput c g f => exact Format.rput c g f w h
  | mcast c g f => exact Format.mcast c g f w h
  | rsend c g f => exact Format.rsend c g f w h
  | tack c g f => exact Format.tack c g f w h
  | fenceI c g f => exact Format.fenceI c g f w h
  | waitI c g f => exact Format.waitI c g f w h
  | noteI c g f => exact Format.noteI c g f w h
  | gown c g f => exact Format.gown c g f w h
  | ctop c g f => exact Format.ctop c g f w h
  | csend c g f => exact Format.csend c g f w h
  | spick c g f => exact Format.spick c g f w h
  | sacc c g f => exact Format.sacc c g f w h
  | _ => cases h

/-- Settles O4: the opcode that a word shows picks the instruction, whose word has that opcode, the word's guard and its
payload. -/
theorem encodeOfDecode : Obligations.EncodeOfDecode := by
  intro c w i h
  simp only [decodeIdmor] at h
  split at h
  case h_84 => cases h
  all_goals
    next hop =>
    obtain rfl := Option.some.inj h
    simp only [encodeIdmor, ctlOf_payload, scalOf_payload, engOf_payload, finOf_payload, movOf_payload, syncOf_payload,
      sampOf_payload, Option.some.injEq]
    exact headWord_of_parts hop

end Sys2Proof
end

section
/-! Bytes, stores and reads of the scratchpad: what a read gives after a store, what a read of poisoned words leaves behind; and
the scalar loads and stores built of them (O6). -/

namespace Sys2Proof.Machine

/-! ## Bytes of numbers (R8) -/

@[simp] theorem length_leBytes : ∀ n v, (leBytes n v).length = n
  | 0, _ => rfl
  | n + 1, v => by rw [leBytes, List.length_cons, length_leBytes n]

/-- A number written as n bytes reads back, cut to them. -/
theorem leNat_leBytes : ∀ n v, leNat (leBytes n v) = v % 256 ^ n
  | 0, v => by simp [leBytes, leNat, Nat.mod_one]
  | n + 1, v => by
    rw [leBytes, leNat, leNat_leBytes n, BitVec.toNat_ofNat, show 256 ^ (n + 1) = 256 * 256 ^ n from pow_succ' .., Nat.mod_mul]

@[simp] theorem length_memRead (m : Mem) (a n : Nat) : (memRead m a n).length = n := by simp [memRead]

/-- The bytes just written read back. -/
theorem memRead_memWrite_same (m : Mem) (a : Nat) (bs : List Byte) : memRead (memWrite m a bs) a bs.length = bs := by
  apply List.ext_getElem (by simp)
  intro i h1 h2
  simp only [memRead, List.getElem_map, List.getElem_range]
  exact memByte_write_inside bs m a i h2

/-! ## Stores (R110, R111) -/

theorem Core.writeFix_frame (k : Core) (a n : Nat) :
    k.writeFix a n = { k with spFlip := (k.writeFix a n).spFlip, spCorrected := (k.writeFix a n).spCorrected } := by
  unfold Core.writeFix
  split <;> rfl

@[simp] theorem Core.writeFix_sp (k : Core) (a n : Nat) : (k.writeFix a n).sp = k.sp := by rw [Core.writeFix_frame]

@[simp] theorem Core.store_sp (k : Core) (a : Nat) (bs : List Byte) : (k.store a bs).sp = memWrite k.sp a bs := by
  rw [← k.writeFix_sp a bs.length, Core.store]

/-- Past a store, the core differs from the corrected one in the bytes and the poison. -/
theorem Core.advance_store_frame (k : Core) (a : Nat) (bs : List Byte) {n : Nat} (hn : bs.length = n) :
    (k.store a bs).advance = { (k.writeFix a n).advance with
      sp := (k.store a bs).advance.sp, poison := (k.store a bs).advance.poison } := by
  subst hn
  rfl

@[simp] theorem Core.advance_sp (k : Core) : k.advance.sp = k.sp := rfl

/-! ## Reads that find uncorrectable errors (R111) -/

theorem State.noteUncorr_cons (s : State) (c port w : Nat) (ws : List Nat) :
    s.noteUncorr c port (w :: ws) = (s.noteUncorr c port [w]).noteUncorr c port ws := by
  unfold State.noteUncorr State.each
  exact List.foldl_append (l := [w])

/-- The core after the read of a poisoned word: it is counted and remembered. -/
def Core.noteBad (k : Core) (w : Nat) : Core :=
  { k with
    spUncorr := (k.spUncorr + 1) % 2 ^ 64
    badWords := if w ∈ k.badWords then k.badWords else k.badWords ++ [w] }

theorem State.core_noteUncorr_one (s : State) (c port w : Nat) :
    (s.noteUncorr c port [w]).core c = (s.core c).noteBad w := by
  unfold State.noteUncorr State.each
  rw [List.foldl_cons, List.foldl_nil, State.logDev_core, State.core_setCore, Core.noteBad]

/-- Only the count of uncorrectable errors and the words remembered differ. -/
def Core.UncorrOnly (k k' : Core) : Prop := k' = { k with spUncorr := k'.spUncorr, badWords := k'.badWords }

theorem Core.UncorrOnly.eq {k k' : Core} (h : k.UncorrOnly k') :
    k' = { k with spUncorr := k'.spUncorr, badWords := k'.badWords } := h

theorem Core.UncorrOnly.trans {k k' k'' : Core} (h : k.UncorrOnly k') (h' : k'.UncorrOnly k'') : k.UncorrOnly k'' := by
  unfold Core.UncorrOnly at *
  rw [h', h]

/-- Poisoned words that are read move nothing of their core but the count and the words remembered. -/
theorem State.core_noteUncorr_only (c port : Nat) : ∀ (ws : List Nat) (s : State),
    (s.core c).UncorrOnly ((s.noteUncorr c port ws).core c)
  | [], _ => rfl
  | w :: ws, s => by
    have hone : (s.core c).UncorrOnly ((s.noteUncorr c port [w]).core c) := by
      rw [State.core_noteUncorr_one]; rfl
    rw [State.noteUncorr_cons]
    exact hone.trans (State.core_noteUncorr_only c port ws _)

/-- Each poisoned word that is read is counted once. -/
theorem State.spUncorr_noteUncorr_cons (c port : Nat) : ∀ (ws : List Nat) (s : State) (w : Nat),
    ((s.noteUncorr c port (w :: ws)).core c).spUncorr = ((s.core c).spUncorr + (w :: ws).length) % 2 ^ 64
  | [], s, w => by rw [State.core_noteUncorr_one, Core.noteBad, List.length_singleton]
  | v :: ws, s, w => by
    rw [State.noteUncorr_cons, State.spUncorr_noteUncorr_cons c port ws, State.core_noteUncorr_one, Core.noteBad]
    simp only [List.length_cons]
    omega

theorem State.spUncorr_noteUncorr (s : State) (c port : Nat) {ws : List Nat} (h : ws ≠ []) :
    ((s.noteUncorr c port ws).core c).spUncorr = ((s.core c).spUncorr + ws.length) % 2 ^ 64 := by
  obtain ⟨w, ws, rfl⟩ := List.exists_cons_of_ne_nil h
  exact State.spUncorr_noteUncorr_cons c port ws s w

/-- A read corrects the single-bit errors of its own core. -/
theorem State.core_fixRead (s : State) (c a n : Nat) : (s.fixRead c a n).core c = (s.core c).readFix a n := by
  unfold State.fixRead Core.readFix
  split
  · rfl
  · rw [State.core_setCore]

/-! ## SLD and SST (R194) -/

variable {s : State} {c : CoreId} {g : Guard} {op : Nat} {legal ro : Bool} {accs : List Access} {body : Core → Res}

/-- A ready instruction whose body traps after an effect. -/
theorem issueOut_trapIn {u : State} {t : TrapInfo} (hr : s.Ready c g) (hl : legal = true) (hn : ro = false)
    (hb : body (s.core c.val) = .trapIn u t) :
    issueOut s c g op legal ro accs body = .next (u.trap c.val t (s.core c.val).pc op) := by
  unfold issueOut State.issue
  simp [hl, hn, hr.may, hr.quiet, hr.read, hr.legal, hr.holds, hb]

theorem Core.scalarAddr_some {k : Core} {a : Nat} (ha : a % 4 = 0) (hw : isWide a = true)
    (hok : k.wideOk (bits a 20 0) 4 = true) : k.scalarAddr a = some (k.wideAt (bits a 20 0)) := by
  simp [Core.scalarAddr, Core.wide, ha, hw, hok]

/-- Settles O6: SLD by the rule for writing a register or by its trap, SST by the rule for a store. -/
theorem scalarLoadStoreMoveOneWord : Obligations.ScalarLoadStoreMoveOneWord := by
  intro s c g f hr hz hres hui hs1 hs2 hd k a ha hw hok
  have haddr : (s.core c.val).scalarAddr a = some (k.wideAt (bits a 20 0)) := Core.scalarAddr_some ha hw hok
  refine ⟨fun hrs2 hwd hp => ?load, fun hrs2 hwd hp => ?poisoned, fun hrd => ?store⟩
  case load =>
    obtain ⟨t, hx, honly, hcore⟩ : ∃ t, execSld c g f s = .next t ∧ s.OnlyCore t c ∧ t.core c.val =
        ((k.readFix (k.wideAt (bits a 20 0)) 4).writeReg f.rd.toNat
          (BitVec.ofNat 32 (leNat (k.bytesAt (k.wideAt (bits a 20 0)) 4)))).advance :=
      issueOut_done_core hr (by simp [hres, hui, hrs2, hs1, hd]) (by simp [hwd]) (.inr hz)
        (by simp only [a, k] at haddr hp ⊢; simp only [haddr, hp, ne_eq, not_true_eq_false, if_false])
    exact ⟨t, hx, honly, hcore ▸ wrote_writeReg _ _ hwd⟩
  case poisoned =>
    refine ⟨_, issueOut_trapIn hr (by simp [hres, hui, hrs2, hs1, hd]) (by simp [hwd])
      (by simp only [a, k] at haddr hp ⊢; simp only [haddr, if_pos hp]; rfl), ?_⟩
    have honly := State.core_noteUncorr_only c.val 4 (k.poisoned (k.wideAt (bits a 20 0)) 4)
      (s.fixRead c.val (k.wideAt (bits a 20 0)) 4)
    rw [State.core_fixRead, Core.readFix_frame] at honly
    have hcount := (s.fixRead c.val (k.wideAt (bits a 20 0)) 4).spUncorr_noteUncorr c.val 4 hp
    rw [State.core_fixRead, Core.readFix_frame] at hcount
    rw [State.trap_core]
    exact ⟨rfl, rfl, (congrArg Core.regs honly.eq :), (congrArg Core.pc honly.eq :), (congrArg Core.sp honly.eq :), hcount⟩
  case store =>
    obtain ⟨t, hx, honly, hcore⟩ : ∃ t, execSst c g f s = .next t ∧ s.OnlyCore t c ∧ t.core c.val =
        (k.store (k.wideAt (bits a 20 0)) (leBytes 4 (s.readReg k f.rs2.toNat).toNat)).advance :=
      issueOut_done_core hr (by simp [hres, hui, hrd, hs1, hs2]) rfl (.inr hz)
        (by simp only [a, k] at haddr ⊢; simp only [haddr])
    refine ⟨t, hx, honly, ?_, fun x hx => ?_, ?_⟩
    · have h := memRead_memWrite_same k.sp (k.wideAt (bits a 20 0)) (leBytes 4 (s.readReg k f.rs2.toNat).toNat)
      rw [length_leBytes] at h
      rw [hcore, Core.bytesAt, Core.advance_sp, Core.store_sp, h, leNat_leBytes]
      exact Nat.mod_eq_of_lt (s.readReg k f.rs2.toNat).isLt
    · rw [hcore, Core.advance_sp, Core.store_sp]
      exact memByte_write_outside x _ _ _ (by rwa [length_leBytes])
    · rw [hcore]
      exact Core.advance_store_frame _ _ _ (length_leBytes ..)

end Sys2Proof.Machine
end

section
/-! How an instruction ends before its body: with a false guard it only moves on (O8), and what its encoding or its operands
forbid is a trap (O9). -/

namespace Sys2Proof.Machine

section
variable {s : State} {c : CoreId} {g : Guard} {op : Nat} {legal ro : Bool} {accs : List Access} {body : Core → Res}
  (hmay : s.mayIssue c.val = true) (hquiet : (s.core c.val).nbrArrived = [])
  (hread : (s.core c.val).pc ∉ (s.core c.val).istoreBad)

include hmay hquiet hread

/-- A legal instruction whose guard is false moves on (R161). -/
theorem issueOut_skip (hguard : guardLegal g = true) (hfalse : guardHolds g (s.core c.val) = false) (hl : legal = true)
    (hn : ro = false) : issueOut s c g op legal ro accs body = .next (s.modCore c.val Core.advance) := by
  simp [issueOut, State.issue, State.modCore, hl, hn, hmay, hquiet, hread, hguard, hfalse]

/-- An illegal encoding, or the guard that never holds, traps with code 0x01 whatever the guard (R178). -/
theorem issueOut_reserved (hl : legal = false ∨ guardLegal g = false) :
    ∃ t, issueOut s c g op legal ro accs body = .next t ∧
      t.core c.val = { s.core c.val with run := .trapped, trapCode := 1, trapStatus := 0 } := by
  refine ⟨s.trap c.val { code := 1 } (s.core c.val).pc op, ?_, State.trap_core ..⟩
  have hillegal : (!legal || !guardLegal g) = true := by
    rcases hl with h | h <;> simp [h]
  simp [issueOut, State.issue, hmay, hquiet, hread, hillegal]

/-- A write of a read-only specifier traps with code 0x02 whatever the guard (R178, log entry 14). -/
theorem issueOut_readOnly_any_guard (hguard : guardLegal g = true) (hl : legal = true) (hn : ro = true) :
    ∃ t, issueOut s c g op legal ro accs body = .next t ∧
      t.core c.val = { s.core c.val with run := .trapped, trapCode := 2, trapStatus := 0 } := by
  refine ⟨s.trap c.val { code := 2 } (s.core c.val).pc op, ?_, State.trap_core ..⟩
  simp [issueOut, State.issue, hmay, hquiet, hread, hguard, hl, hn]

end

/-- No other instance is touched by a trap. -/
theorem State.trap_inst_ne (s : State) (c : Nat) (t : TrapInfo) (pc op : Nat) {i : Fin 12} (h : (s.core c).inst = some i)
    {j : Nat} (hj : j ≠ i.val) : (s.trap c t pc op).inst j = s.inst j := by
  unfold State.trap
  simp [h, State.inst_setInst_ne _ _ _ _ hj]

/-! ## The statements -/

/-- Settles O8: every instruction of the three families issues through `issueOut`, whose false guard only moves on. -/
theorem falseGuardOnlyMovesOn : Obligations.FalseGuardOnlyMovesOn := by
  intro s c g hmay hquiet hread hguard hfalse
  simp only [exec_add, exec_sub, exec_mul, exec_andI, exec_orI, exec_xorI, exec_shl, exec_shr, exec_sra, exec_min, exec_max,
    exec_minu, exec_maxu, exec_cmpeq, exec_cmplt, exec_cmpltu, exec_mov, exec_sld, exec_sst, exec_br, exec_callI, exec_brr,
    exec_loopI, exec_nop, exec_halt, exec_brk, exec_ret, exec_noteI, exec_tack, exec_fenceI, exec_waitI, exec_gown]
  have skip {op : Nat} {legal ro : Bool} {accs : List Access} {body : Core → Res} (hl : legal = true) (hn : ro = false) :
      issueOut s c g op legal ro accs body = .next (s.modCore c.val Core.advance) :=
    issueOut_skip hmay hquiet hread hguard hfalse hl hn
  refine ⟨fun f hf hd hw => ?scalar, fun f hres hui hs1 => ⟨fun hs2 hd hw => ?sld, fun hd hs2 => ?sst⟩,
    fun f hres => ⟨fun hrs => ?offset, fun himm hrs => ?brr, fun hrs => ?loop, fun hrs himm => ?bare⟩,
    fun f hres => ⟨fun hrs hem => ⟨?note, fun himm => ?tack⟩, fun hrs himm => ?fence, fun hem hrs => ?wait,
      fun hem hrs h1 h2 howner => ?gown⟩⟩
  case scalar =>
    have op2 {op : Nat} {ok : Bool} {fn : Word → Word → Word} (hok : ok = true) :
        scalar s c g f op ok fn = .next (s.modCore c.val Core.advance) := skip (by simp [hf, hd, hok]) (by simp [hw])
    refine ⟨op2 rfl, op2 rfl, op2 rfl, op2 rfl, op2 rfl, op2 rfl, op2 rfl, op2 rfl, op2 rfl, op2 rfl, op2 rfl, op2 rfl,
      op2 rfl, fun hm => op2 (by simp [hm]), fun hlo hhi => ?_⟩
    have hdest : cmpDest f = true := by simp [cmpDest]; omega
    exact ⟨op2 hdest, op2 hdest, op2 hdest⟩
  case sld => exact skip (by simp [hres, hui, hs2, hs1, hd]) (by simp [hw])
  case sst => exact skip (by simp [hres, hui, hd, hs1, hs2]) rfl
  case offset => exact ⟨skip (by simp [ctlOk, hres, hrs]) rfl, skip (by simp [ctlOk, hres, hrs]) rfl⟩
  case brr => exact skip (by simp [ctlOk, hres, himm, hrs]) rfl
  case loop => exact skip (by simp [ctlOk, hres, hrs]) rfl
  case bare =>
    have hbare := ctlBare_of hres hrs himm
    exact ⟨skip hbare rfl, skip hbare rfl, skip hbare rfl, skip hbare rfl⟩
  case note => exact skip (by simp [hrs, hem, hres]) rfl
  case tack => exact skip (by simp [hrs, hem, hres, himm]) rfl
  case fence => exact skip (by simp [hrs, hres, himm]) rfl
  case wait => exact skip (by simp [hem, hres, hrs]) rfl
  case gown =>
    have hin : (decide (0x200 ≤ bits f.imm32.toNat 9 0) && decide (bits f.imm32.toNat 9 0 ≤ 0x3FD)) = false := by
      simp only [Bool.and_eq_false_iff, decide_eq_false_iff_not]; omega
    exact skip (by simp only [hem, hres, hrs, h1, h2, hin]; rfl) rfl

/-- Settles O9: the ends of an instruction before and in its body, and what taking a trap does. -/
theorem trapsStopTheInstanceWithoutEffect : Obligations.TrapsStopTheInstanceWithoutEffect := by
  simp only [Obligations.TrapsStopTheInstanceWithoutEffect, exec_add, exec_sub, exec_xorI, exec_min, exec_cmpeq, exec_cmplt,
    exec_cmpltu, exec_br, exec_callI, exec_sst, exec_brk]
  refine ⟨fun s c g hmay hquiet hread => ⟨fun f hbad => ?reserved, fun f hf hg hd hw => ?readOnly,
    fun f hres hrs hg hh hpc => ?target, fun f hres hui hd hs1 hs2 hg hh ha => ?address⟩,
    fun s c g f i hr hrs hres himm hi => ?brk⟩
  case reserved =>
    have ill {op : Nat} {fn : Word → Word → Word} : ∃ t, scalar s c g f op true fn = .next t ∧
        t.core c.val = { s.core c.val with run := .trapped, trapCode := 1, trapStatus := 0 } := by
      refine issueOut_reserved hmay hquiet hread ?_
      rcases hbad with h | h | h <;> simp [h]
    exact ⟨ill, ill, ill, ill⟩
  case readOnly =>
    have priv {op : Nat} {ok : Bool} {fn : Word → Word → Word} (hok : ok = true) : ∃ t, scalar s c g f op ok fn = .next t ∧
        t.core c.val = { s.core c.val with run := .trapped, trapCode := 2, trapStatus := 0 } :=
      issueOut_readOnly_any_guard hmay hquiet hread hg (by simp [hf, hok, hd]) (by simp [hw])
    refine ⟨priv rfl, priv rfl, priv rfl, priv rfl, fun hp0 => ?_⟩
    have hdest : cmpDest f = true := by simp [cmpDest, hp0]
    exact ⟨priv hdest, priv hdest, priv hdest⟩
  case target =>
    have htarget : target (s.core c.val).pc f.imm32 = none := if_neg (by omega)
    have hr : s.Ready c g := ⟨hmay, hquiet, hread, hg, hh⟩
    exact ⟨issueOut_fail_core hr (by simp [ctlOk, hres, hrs]) rfl (by simp only [htarget]),
      issueOut_fail_core hr (by simp [ctlOk, hres, hrs]) rfl (by simp only [htarget])⟩
  case address =>
    have hnone : (s.core c.val).scalarAddr (s.readReg (s.core c.val) f.rs1.toNat + f.imm32).toNat = none := if_neg ha
    exact ⟨_, issueOut_trap ⟨hmay, hquiet, hread, hg, hh⟩ (by simp [hres, hui, hd, hs1, hs2]) rfl
      (by simp only [hnone]; rfl), State.trap_core ..⟩
  case brk =>
    refine ⟨_, issueOut_trap hr (ctlBare_of hres hrs himm) rfl rfl, State.trap_core .., fun d hd => State.trap_core_ne _ _ _ _ _ d hd,
      ?_, fun j hj => State.trap_inst_ne _ _ _ _ _ hi hj, State.trap_count .., by simp, by simp, by simp, by simp, by simp⟩
    simp [State.trap_inst _ _ _ _ _ i hi, restartClass]

end Sys2Proof.Machine
end

section
/-! Elementwise finisher instructions: lanes of any width, and the exact operations on FP32 lanes (O11), those on BF16 lanes
(O12) and the functions bounded in ulps (O13). -/

namespace Sys2Proof.Machine

/-! ## Lanes of any width (R188) -/

/-- Lane i of w bits of a number. -/
def laneOf (w v i : Nat) : Nat := v / 2 ^ (w * i) % 2 ^ w

theorem lane32_eq_laneOf (v i : Nat) : lane32 v i = laneOf 32 v i := rfl
theorem lane16_eq_laneOf (v i : Nat) : lane16 v i = laneOf 16 v i := rfl

theorem testBit_laneOf (w v i b : Nat) : (laneOf w v i).testBit b = (decide (b < w) && v.testBit (w * i + b)) := by
  rw [laneOf, Nat.testBit_mod_two_pow, Nat.testBit_div_two_pow, Nat.add_comm]

/-- Lane i + 1 of a number is lane i of the number without its lane 0. -/
theorem laneOf_succ (w v i : Nat) : laneOf w v (i + 1) = laneOf w (v / 2 ^ w) i := by
  unfold laneOf
  rw [Nat.div_div_eq_div_mul, ← pow_add, Nat.mul_succ, Nat.add_comm]

/-- A number built of lanes reads back each lane, and zero beyond them. -/
theorem laneOf_fromLanes (w : Nat) : ∀ (l : List Nat) (j : Nat), (∀ x ∈ l, x < 2 ^ w) →
    laneOf w (fromLanes w l) j = l.getD j 0
  | [], j, _ => by simp [laneOf, fromLanes]
  | x :: l, 0, h => by
    have hx : x < 2 ^ w := h x List.mem_cons_self
    simp only [laneOf, fromLanes, List.getD_cons_zero, Nat.mul_zero, pow_zero, Nat.div_one, Nat.add_mul_mod_self_left]
    exact Nat.mod_eq_of_lt hx
  | x :: l, j + 1, h => by
    have hx : x < 2 ^ w := h x List.mem_cons_self
    have hd : (x + 2 ^ w * fromLanes w l) / 2 ^ w = fromLanes w l := by
      rw [Nat.add_mul_div_left _ _ (Nat.two_pow_pos w), Nat.div_eq_of_lt hx, Nat.zero_add]
    rw [laneOf_succ, fromLanes, hd, List.getD_cons_succ]
    exact laneOf_fromLanes w l j fun y hy => h y (List.mem_cons_of_mem _ hy)

/-- Cutting a number to a register's 4,096 bits keeps the lanes inside them. -/
theorem laneOf_mod {w v j : Nat} (hj : w * (j + 1) ≤ 4096) : laneOf w (v % 2 ^ 4096) j = laneOf w v j := by
  apply Nat.eq_of_testBit_eq
  intro b
  rw [testBit_laneOf, testBit_laneOf, Nat.testBit_mod_two_pow]
  rw [Nat.mul_succ] at hj
  by_cases hb : b < w
  · have hlt : w * j + b < 4096 := by omega
    simp [hlt]
  · simp [hb]

/-- The lanes of a register written from lanes of w bits. -/
theorem laneOf_setF (k : Core) (w x : Nat) {lanes : List Nat} (t : Bool) (h : ∀ v ∈ lanes, v < 2 ^ w) {j : Nat}
    (hj : w * (j + 1) ≤ 4096) : laneOf w ((k.setF x (fromLanes w lanes) t).freg x) j = lanes.getD j 0 := by
  rw [Core.freg_setF, if_pos rfl, laneOf_mod hj, laneOf_fromLanes _ _ _ h]

theorem getD_map_range {α : Type} (n : Nat) (l : Nat → α) (d : α) {j : Nat} (hj : j < n) :
    ((List.range n).map l).getD j d = l j := by
  rw [List.getD_eq_getElem _ _ (by simpa using hj), List.getElem_map, List.getElem_range]

/-- Lanes taken pairwise from two registers. -/
theorem zipWith_map_range {α β γ : Type} (n : Nat) (fn : α → β → γ) (a : Nat → α) (b : Nat → β) :
    List.zipWith fn ((List.range n).map a) ((List.range n).map b) = (List.range n).map fun i => fn (a i) (b i) := by
  rw [List.zipWith_map, List.zipWith_self]

/-! ## BF16 results are lanes (R67) -/

theorem roundTo_bf16_lt (x : Fl) : roundTo bf16 x < 2 ^ 16 := by
  have hsign : ∀ n : Bool, (if n then bf16.signBit else 0) ≤ 2 ^ 15 := by decide
  have hinf : bf16.infBits = 0x7F80 := rfl
  cases x with
  | nan => decide
  | inf n =>
    have := hsign n
    simp only [roundTo, hinf]; omega
  | fin n m e =>
    have := hsign n
    have := roundRat_le bf16 m 1 e
    simp only [roundTo]; omega

/-! ## Instructions that write one register -/

section
variable {s : State} {c : CoreId} {g : Guard} {f : FinF} {op : Nat} {ok : Bool} {body : Core → Res} {v : Nat} {t0 : Bool}

/-- A finisher instruction whose body writes one register. -/
theorem fin_writes {k' : Core} {accs : List Access} (hr : s.Ready c g) (hok : ok = true) (hz : accs = [] ∨ s.rd K.hzMode = 0)
    (hb : body (s.core c.val) = .done (s.setCore c.val (k'.setF f.fd.toNat v t0))) :
    ∃ t, fin s c g op ok accs body = .next t ∧ s.OnlyCore t c ∧ k'.WroteF (t.core c.val) f.fd.toNat v t0 := by
  obtain ⟨t, hx, honly, hcore⟩ := issueOut_done_core (op := op) hr hok rfl hz hb
  exact ⟨t, hx, honly, hcore ▸ wroteF_setF k' v t0 f.fd.isLt⟩

/-- Lanes of a register that was written from n lanes of w bits. -/
theorem Core.WroteF.lanes {k k' : Core} {x w n : Nat} {l : Nat → Nat} {t : Bool}
    (h : k.WroteF k' x (fromLanes w ((List.range n).map l)) t) (hl : ∀ j, l j < 2 ^ w) (hn : w * n ≤ 4096) {j : Nat} (hj : j < n) :
    laneOf w (k'.freg x) j = l j := by
  have hmem : ∀ v ∈ (List.range n).map l, v < 2 ^ w := by
    intro v hv
    obtain ⟨i, -, rfl⟩ := List.mem_map.mp hv
    exact hl i
  rw [h.1, laneOf_mod ((Nat.mul_le_mul_left w hj).trans hn), laneOf_fromLanes _ _ _ hmem, getD_map_range n l 0 hj]

/-- A result written as n lanes, told lane by lane. -/
theorem wroteLanes_of_wrote {x : Out} {w n : Nat} {l : Nat → Nat} (hl : ∀ j, l j < 2 ^ w) (hn : w * n ≤ 4096)
    (h : ∃ t, x = .next t ∧ s.OnlyCore t c ∧
      (s.core c.val).WroteF (t.core c.val) f.fd.toNat (fromLanes w ((List.range n).map l)) t0) :
    ∃ t, x = .next t ∧ s.OnlyCore t c ∧ (∀ j, j < n → laneOf w ((t.core c.val).freg f.fd.toNat) j = l j) ∧
      (s.core c.val).WroteF (t.core c.val) f.fd.toNat ((t.core c.val).freg f.fd.toNat) t0 := by
  obtain ⟨t, hx, honly, hwrote⟩ := h
  exact ⟨t, hx, honly, fun j hj => hwrote.lanes hl hn hj, hwrote.self⟩

end

/-! ## Encodings -/

/-- An encoding that leaves `lf` one value is one that leaves it either. -/
theorem finOk_lf {f : FinF} {u : FinUse} {subs : List Nat} {n : Nat} (hn : n < 2) (h : finOk f u [n] subs = true) :
    f.lf.toNat = n ∧ finOk f u [0, 1] subs = true := by
  simp only [finOk, Bool.and_eq_true, List.contains_cons, List.contains_nil, Bool.or_false, beq_iff_eq, Bool.or_eq_true] at h ⊢
  obtain ⟨⟨hrest, hlf⟩, hsub⟩ := h
  exact ⟨hlf, ⟨hrest, by omega⟩, hsub⟩

theorem finOk_lf_zero {f : FinF} {u : FinUse} {subs : List Nat} (h : finOk f u [0] subs = true) :
    f.lf = 0#2 ∧ finOk f u [0, 1] subs = true := by
  obtain ⟨hlf, hok⟩ := finOk_lf (by decide) h
  exact ⟨BitVec.eq_of_toNat_eq hlf, hok⟩

theorem finOk_lf_one {f : FinF} {u : FinUse} {subs : List Nat} (h : finOk f u [1] subs = true) :
    f.lf ≠ 0#2 ∧ finOk f u [0, 1] subs = true := by
  obtain ⟨hlf, hok⟩ := finOk_lf (by decide) h
  exact ⟨fun h0 => by simp [h0] at hlf, hok⟩

/-! ## Elementwise instructions (R201, R202) -/

section
variable {s : State} {c : CoreId} {g : Guard} {f : FinF} {op : Nat} {u : FinUse}

/-- An FP32 operation of up to three registers. -/
theorem lanes3_writes {fn : Fl → Fl → Fl → Nat} {t0 : Bool} (hr : s.Ready c g) (hok : finOk f u [0] [0] = true)
    (ht : ((s.core c.val).ftaintOf f.fs1.toNat || (u.fs2 && (s.core c.val).ftaintOf f.fs2.toNat) ||
      (u.fs3 && (s.core c.val).ftaintOf f.fs3.toNat)) = t0) :
    let k := s.core c.val
    let l := fun i => fn (Sys2Proof.Machine.decode f32 (lane32 (k.freg f.fs1.toNat) i))
      (Sys2Proof.Machine.decode f32 (lane32 (k.freg f.fs2.toNat) i)) (Sys2Proof.Machine.decode f32 (lane32 (k.freg f.fs3.toNat) i))
    ∃ t, lanes3 s c g f op u fn = .next t ∧ s.OnlyCore t c ∧
      k.WroteF (t.core c.val) f.fd.toNat (fromLanes 32 ((List.range 128).map l))
        (t0 || (List.range 128).any fun j => nan32 (l j)) := by
  subst ht
  intro k l
  refine fin_writes hr hok (.inl rfl) ?_
  simp only [vals32, zipWith_map_range, Core.putF32, List.any_map]
  rfl

variable {two mask : Bool} {subs : List Nat} {fn : Fmt → Fl → Fl → Nat} {t0 : Bool}

/-- An operation of up to two registers on FP32 lanes; a mask takes no taint of its own. -/
theorem lanesLf_f32 (hr : s.Ready c g) (hok : finOk f { fs2 := two } [0] subs = true)
    (ht : ((s.core c.val).ftaintOf f.fs1.toNat || (two && (s.core c.val).ftaintOf f.fs2.toNat)) = t0) :
    let k := s.core c.val
    let l := fun i => fn f32 (Sys2Proof.Machine.decode f32 (lane32 (k.freg f.fs1.toNat) i))
      (Sys2Proof.Machine.decode f32 (lane32 (k.freg f.fs2.toNat) i))
    ∃ t, lanesLf s c g f op two subs mask fn = .next t ∧ s.OnlyCore t c ∧
      k.WroteF (t.core c.val) f.fd.toNat (fromLanes 32 ((List.range 128).map l))
        (t0 || (!mask && (List.range 128).any fun j => nan32 (l j))) := by
  subst ht
  intro k l
  obtain ⟨hlf, hok⟩ := finOk_lf_zero hok
  refine fin_writes hr hok (.inl rfl) ?_
  simp only [if_pos hlf, vals32, zipWith_map_range, Core.putF32, List.any_map]
  cases mask
  · rfl
  · rw [Bool.not_true, Bool.false_and, Bool.or_false]; rfl

/-- An operation of up to two registers on BF16 lanes; a mask takes no taint of its own. -/
theorem lanesLf_bf16 (hr : s.Ready c g) (hok : finOk f { fs2 := two } [1] subs = true)
    (ht : ((s.core c.val).ftaintOf f.fs1.toNat || (two && (s.core c.val).ftaintOf f.fs2.toNat)) = t0) :
    let k := s.core c.val
    let l := fun i => fn bf16 (Sys2Proof.Machine.decode bf16 (lane16 (k.freg f.fs1.toNat) i))
      (Sys2Proof.Machine.decode bf16 (lane16 (k.freg f.fs2.toNat) i))
    ∃ t, lanesLf s c g f op two subs mask fn = .next t ∧ s.OnlyCore t c ∧
      k.WroteF (t.core c.val) f.fd.toNat (fromLanes 16 ((List.range 256).map l))
        (t0 || (!mask && (List.range 256).any fun j => nan16 (l j))) := by
  subst ht
  intro k l
  obtain ⟨hlf, hok⟩ := finOk_lf_one hok
  refine fin_writes hr hok (.inl rfl) ?_
  simp only [if_neg hlf, vals16, zipWith_map_range, Core.putF16, List.any_map]
  cases mask
  · rfl
  · rw [Bool.not_true, Bool.false_and, Bool.or_false]; rfl

end

/-- The condition of FCMP, by the bits of `sub`. -/
theorem cmpCond_eq (b : BitVec 4) (x y : Fl) : cmpCond b.toNat x y =
    if b = 0#4 then x.eq y else if b = 1#4 then x.lt y else if b = 2#4 then x.le y else !x.eq y := by
  have h0 : b.toNat = 0 ↔ b = 0#4 := BitVec.toNat_inj (y := 0#4)
  have h1 : b.toNat = 1 ↔ b = 1#4 := BitVec.toNat_inj (y := 1#4)
  have h2 : b.toNat = 2 ↔ b = 2#4 := BitVec.toNat_inj (y := 2#4)
  simp only [cmpCond, h0, h1, h2]

/-! ## The statements -/

/-- A mask lane of FCMP. -/
theorem cmpMask_lt {m : Fmt} {w : Nat} (hm : 2 * m.signBit - 1 < 2 ^ w) (p : Bool) :
    (if p then 2 * m.signBit - 1 else 0) < 2 ^ w := by
  split
  · exact hm
  · exact Nat.two_pow_pos w

/-- Settles O11: the rules for FP32 lanes at each exact operation. -/
theorem finisherExactLanes : Obligations.FinisherExactLanes := by
  intro s c g f hr hlf
  simp only [exec_fadd, exec_fsub, exec_fmul, exec_fmin, exec_fmax, exec_ffma, exec_fneg, exec_fabs, exec_fcmp]
  have lanes {x : Out} {t0 : Bool} {r : Nat → Fl} :=
    wroteLanes_of_wrote (s := s) (c := c) (f := f) (t0 := t0) (x := x) (n := 128) (l := fun j => roundTo f32 (r j))
      (fun j => roundTo_f32_lt (r j)) (by decide)
  refine ⟨fun hok => ⟨?add, ?sub, ?mul, ?min, ?max⟩, fun hok => ?fma, fun hok => ⟨?neg, ?abs⟩, fun hok => ?cmp⟩
  case add => exact lanes (lanes3_writes hr hok (by simp))
  case sub => exact lanes (lanes3_writes hr hok (by simp))
  case mul => exact lanes (lanes3_writes hr hok (by simp))
  case fma => exact lanes (lanes3_writes hr hok (by simp))
  case min => exact lanes (lanesLf_f32 hr hok (by simp))
  case max => exact lanes (lanesLf_f32 hr hok (by simp))
  case neg => exact lanes (lanesLf_f32 hr hok (by simp))
  case abs => exact lanes (lanesLf_f32 hr hok (by simp))
  case cmp =>
    obtain ⟨t, hx, honly, hlanes, hwrote⟩ :=
      wroteLanes_of_wrote (fun j => cmpMask_lt (by decide) _) (by decide) (lanesLf_f32 (op := 0x69) (mask := true)
      (fn := fun m a b => if cmpCond f.sub.toNat a b then 2 * m.signBit - 1 else 0) hr hok rfl)
    refine ⟨t, hx, honly, by simpa using hwrote, fun j hj => (hlanes j hj).trans ?_⟩
    rw [cmpCond_eq]
    rfl

/-- Settles O12: the rules for BF16 lanes at each operation that has them. -/
theorem finisherBf16Lanes : Obligations.FinisherBf16Lanes := by
  intro s c g f hr hlf
  simp only [exec_fmin, exec_fmax, exec_fneg, exec_fabs, exec_fcmp]
  have lanes {x : Out} {t0 : Bool} {r : Nat → Fl} :=
    wroteLanes_of_wrote (s := s) (c := c) (f := f) (t0 := t0) (x := x) (n := 256) (l := fun j => roundTo bf16 (r j))
      (fun j => roundTo_bf16_lt (r j)) (by decide)
  refine ⟨fun hok => ⟨?min, ?max⟩, fun hok => ⟨?neg, ?abs⟩, fun hok => ?cmp⟩
  case min =>
    rw [← Bool.or_assoc]
    exact lanes (lanesLf_bf16 hr hok (Bool.or_comm ..))
  case max =>
    rw [← Bool.or_assoc]
    exact lanes (lanesLf_bf16 hr hok (Bool.or_comm ..))
  case neg => exact lanes (lanesLf_bf16 hr hok (by simp))
  case abs => exact lanes (lanesLf_bf16 hr hok (by simp))
  case cmp =>
    obtain ⟨t, hx, honly, hlanes, hwrote⟩ :=
      wroteLanes_of_wrote (fun j => cmpMask_lt (by decide) _) (by decide) (lanesLf_bf16 (op := 0x69) (mask := true)
      (fn := fun m a b => if cmpCond f.sub.toNat a b then 2 * m.signBit - 1 else 0) hr hok rfl)
    refine ⟨t, hx, honly, fun j hj => (hlanes j hj).trans ?_, by simpa using hwrote⟩
    rw [cmpCond_eq]
    rfl

/-- Settles O13: functions of one register are operations of up to two that ignore the others. -/
theorem finisherFunctionLanes : Obligations.FinisherFunctionLanes := by
  intro s c g f hr
  simp only [exec_frcp, exec_fsqrt, exec_frsq, exec_fexp, exec_fexp2, exec_flog, exec_flog2, exec_fact, vals32, vals16,
    List.map_map, List.any_map]
  refine ⟨fun hok => ⟨?rcp, ?sqrt, ?rsq, ?exp, ?exp2, ?log, ?log2⟩, fun hok => ?act, fun hok => ?act16⟩
  case act => exact lanesLf_f32 hr hok (by simp)
  case act16 => exact lanesLf_bf16 hr hok (by simp)
  all_goals exact lanes3_writes hr hok (by simp)

end Sys2Proof.Machine
end

section
/-! Loads and stores of the finisher (O14): what a finisher register holds after a load, with its poisoned words counted, and what
a store leaves of the scratchpad. -/

namespace Sys2Proof.Machine

/-! ## Reads that find uncorrectable errors: the whole state (R111) -/

theorem State.OnlyCoreAndLog.refl (s : State) (c : CoreId) : s.OnlyCoreAndLog s c := ⟨rfl, fun _ _ => rfl⟩

theorem State.OnlyCoreAndLog.trans {s t u : State} {c : CoreId} (h : s.OnlyCoreAndLog t c) (h' : t.OnlyCoreAndLog u c) :
    s.OnlyCoreAndLog u c := by
  obtain ⟨hframe, hcores⟩ := h
  obtain ⟨hframe', hcores'⟩ := h'
  exact ⟨by rw [hframe', hframe], fun d hd => (hcores' d hd).trans (hcores d hd)⟩

theorem State.OnlyCore.toLog {s t : State} {c : CoreId} (h : s.OnlyCore t c) : s.OnlyCoreAndLog t c := by
  obtain ⟨hframe, hcores⟩ := h
  exact ⟨by rw [hframe], hcores⟩

theorem State.LogOnly.toCoreAndLog {s t : State} (c : CoreId) (h : s.LogOnly t) : s.OnlyCoreAndLog t c :=
  ⟨by rw [h.eq], fun d _ => h.core d⟩

theorem State.OnlyCoreAndLog.set {s t : State} {c : CoreId} (h : s.OnlyCoreAndLog t c) (k : Core) :
    s.OnlyCoreAndLog (t.setCore c.val k) c := h.trans (t.onlyCore_set c k).toLog

theorem State.noteUncorr_nil (s : State) (c port : Nat) : s.noteUncorr c port [] = s := rfl

/-- What a poisoned word that is read leaves behind. -/
theorem State.noteUncorr_one (s : State) (c port w : Nat) :
    ∃ rec, s.noteUncorr c port [w] = (s.setCore c ((s.core c).noteBad w)).logDev (s.core c).logInst rec := by
  unfold State.noteUncorr State.each
  rw [List.foldl_cons, List.foldl_nil]
  exact ⟨_, rfl⟩

/-- Poisoned words that are read touch their core and the log alone. -/
theorem State.noteUncorr_onlyCoreAndLog (c : CoreId) (port : Nat) : ∀ (ws : List Nat) (s : State),
    s.OnlyCoreAndLog (s.noteUncorr c.val port ws) c
  | [], s => State.OnlyCoreAndLog.refl s c
  | w :: ws, s => by
    obtain ⟨rec, hone⟩ := s.noteUncorr_one c.val port w
    rw [State.noteUncorr_cons, hone]
    exact ((s.onlyCore_set c _).toLog.trans ((State.logDev_only _ _ rec).toCoreAndLog c)).trans
      (State.noteUncorr_onlyCoreAndLog c port ws _)

theorem State.rd_noteUncorr (c port : Nat) {key : Nat} (hkey : key ∉ logKeys) : ∀ (ws : List Nat) (s : State),
    (s.noteUncorr c port ws).rd key = s.rd key
  | [], _ => rfl
  | w :: ws, s => by
    obtain ⟨rec, hone⟩ := s.noteUncorr_one c port w
    rw [State.noteUncorr_cons, State.rd_noteUncorr c port hkey ws, hone, State.logDev_rd _ _ _ hkey]
    rfl

theorem Core.mem_badWords_noteBad (k : Core) (w v : Nat) : v ∈ (k.noteBad w).badWords ↔ v = w ∨ v ∈ k.badWords := by
  unfold Core.noteBad
  split
  · next h => exact ⟨.inr, fun hv => hv.elim (fun e => e ▸ h) id⟩
  · simp [or_comm]

/-- The poisoned words that are read are remembered at their core. -/
theorem State.mem_badWords_noteUncorr (c port : Nat) {v : Nat} : ∀ (ws : List Nat) (s : State),
    v ∈ ((s.noteUncorr c port ws).core c).badWords ↔ v ∈ ws ∨ v ∈ (s.core c).badWords
  | [], s => by simp [State.noteUncorr_nil]
  | w :: ws, s => by
    rw [State.noteUncorr_cons, State.mem_badWords_noteUncorr c port ws, State.core_noteUncorr_one, Core.mem_badWords_noteBad,
      List.mem_cons, or_left_comm, or_assoc]

/-! ## Loads -/

variable {s : State} {c : CoreId} {g : Guard} {f : FinF} {op : Nat} {ok : Bool} {accs : List Access} {body : Core → Res}
  {k' : Core} {v port : Nat} {bad : List Nat}

/-- A finisher instruction that writes one register and reads the poisoned words of the list `bad`. -/
theorem fin_writes_noting {t0 : Bool} (hr : s.Ready c g) (hok : ok = true) (hz : s.rd K.hzMode = 0)
    (hb : body (s.core c.val) = .done ((s.setCore c.val (k'.setF f.fd.toNat v t0)).noteUncorr c.val port bad)) (hbad : bad ≠ []) :
    ∃ t, fin s c g op ok accs body = .next t ∧ s.OnlyCoreAndLog t c ∧
      k'.WroteF { t.core c.val with spUncorr := k'.spUncorr, badWords := k'.badWords } f.fd.toNat v t0 ∧
      (t.core c.val).spUncorr = (k'.spUncorr + bad.length) % 2 ^ 64 ∧ ∀ w ∈ bad, w ∈ (t.core c.val).badWords := by
  have hkey : K.hzMode ∉ logKeys := by decide
  have hcore := State.core_noteUncorr_only c.val port bad (s.setCore c.val (k'.setF f.fd.toNat v t0))
  have hcount := (s.setCore c.val (k'.setF f.fd.toNat v t0)).spUncorr_noteUncorr c.val port hbad
  rw [State.core_setCore] at hcore hcount
  refine ⟨_, issueOut_done hr hok rfl hb (.inr ?_),
    ((s.onlyCore_set c _).toLog.trans (State.noteUncorr_onlyCoreAndLog c port bad _)).set _, ?_, ?_, fun w hw => ?_⟩
  · rw [State.rd_noteUncorr _ _ hkey]; exact hz
  · rw [State.core_setCore, Core.UncorrOnly.eq hcore]
    exact wroteF_setF k' v t0 f.fd.isLt
  · rw [State.core_setCore]; exact hcount
  · rw [State.core_setCore]
    exact (State.mem_badWords_noteUncorr c.val port bad _).mpr (.inl hw)

theorem Core.finMem_some {k : Core} {a n : Nat} (ha : a % 256 = 0) (hw : isWide a = true)
    (hok : k.wideOk (bits a 20 0) n = true) : k.finMem a n = some (k.wideAt (bits a 20 0)) := by
  simp [Core.finMem, Core.wide, ha, hw, hok]

@[simp] theorem Core.readFix_spUncorr (k : Core) (a n : Nat) : (k.readFix a n).spUncorr = k.spUncorr := by
  rw [Core.readFix_frame]
@[simp] theorem Core.readFix_badWords (k : Core) (a n : Nat) : (k.readFix a n).badWords = k.badWords := by
  rw [Core.readFix_frame]

/-- Settles O14: loads by the rules for writing a register with and without poisoned words, FST by the rule for a store. -/
theorem finisherLoadsAndStores : Obligations.FinisherLoadsAndStores := by
  intro s c g f hr hz k a p
  simp only [exec_fld, exec_femb, exec_fst]
  intro ha hw hokw
  have hmem : (s.core c.val).finMem ((s.core c.val).areg f.ra.toNat) 512 = some p := Core.finMem_some ha hw hokw
  have loads {op v : Nat} {ok : Bool} {accs : List Access} {body : Core → Res} (hok : ok = true)
      (hb : body (s.core c.val) = .done ((s.setCore c.val ((k.readFix p 512).setF f.fd.toNat v
        (!(k.poisoned p 512).isEmpty))).noteUncorr c.val 2 (k.poisoned p 512))) :
      (k.poisoned p 512 = [] → ∃ t, fin s c g op ok accs body = .next t ∧ s.OnlyCore t c ∧
        (k.readFix p 512).WroteF (t.core c.val) f.fd.toNat v false) ∧
      (k.poisoned p 512 ≠ [] → ∃ t, fin s c g op ok accs body = .next t ∧ s.OnlyCoreAndLog t c ∧
        (k.readFix p 512).WroteF { t.core c.val with spUncorr := k.spUncorr, badWords := k.badWords } f.fd.toNat v true ∧
        (t.core c.val).spUncorr = (k.spUncorr + (k.poisoned p 512).length) % 2 ^ 64 ∧
        ∀ w ∈ k.poisoned p 512, w ∈ (t.core c.val).badWords) := by
    constructor
    · intro hnone
      exact fin_writes hr hok (.inr hz) (by rw [hb, hnone]; rfl)
    · intro hsome
      have htaint : (!(k.poisoned p 512).isEmpty) = true := by simpa using hsome
      have h := fin_writes_noting (op := op) (accs := accs) hr hok hz (htaint ▸ hb) hsome
      simpa only [Core.readFix_spUncorr, Core.readFix_badWords] using h
  refine ⟨fun hok => loads hok (by simp only [hmem]; rfl), fun hok => loads hok (by simp only [hmem]; rfl), fun hok => ?_⟩
  obtain ⟨t, hx, honly, hcore⟩ : ∃ t, execFst c g f s = .next t ∧ s.OnlyCore t c ∧
      t.core c.val = (k.store p (fBytes (k.freg f.fs1.toNat))).advance :=
    issueOut_done_core hr hok rfl (.inr hz) (by simp only [hmem]; rfl)
  have hlen : (fBytes (k.freg f.fs1.toNat)).length = 512 := length_leBytes ..
  refine ⟨t, hx, honly, ?_, fun x hx => ?_, ?_⟩
  · have h := memRead_memWrite_same k.sp p (fBytes (k.freg f.fs1.toNat))
    rw [hlen] at h
    rw [hcore, Core.bytesAt, Core.advance_sp, Core.store_sp, h]
  · rw [hcore, Core.advance_sp, Core.store_sp]
    exact memByte_write_outside x _ _ _ (by rwa [hlen])
  · rw [hcore]
    exact Core.advance_store_frame _ _ _ hlen

end Sys2Proof.Machine
end

section
/-! Conversions of the finisher (O15): lanes put into a register among others, and what FCVT, FCVTB and FUNP write. -/

namespace Sys2Proof.Machine

/-! ## Lanes put among others (R203) -/

theorem fromLanes_lt (w : Nat) : ∀ (l : List Nat), (∀ x ∈ l, x < 2 ^ w) → fromLanes w l < 2 ^ (w * l.length)
  | [], _ => Nat.two_pow_pos _
  | x :: l, h => by
    have hx : x < 2 ^ w := h x List.mem_cons_self
    have hl := fromLanes_lt w l fun y hy => h y (List.mem_cons_of_mem _ hy)
    rw [fromLanes, List.length_cons, Nat.mul_succ, Nat.add_comm (w * l.length), pow_add]
    calc x + 2 ^ w * fromLanes w l < 2 ^ w + 2 ^ w * fromLanes w l := Nat.add_lt_add_right hx _
      _ = 2 ^ w * (fromLanes w l + 1) := by rw [Nat.mul_succ, Nat.add_comm]
      _ ≤ 2 ^ w * 2 ^ (w * l.length) := Nat.mul_le_mul_left _ hl

theorem testBit_putLanes {v w i : Nat} {l : List Nat} (h : ∀ x ∈ l, x < 2 ^ w) (b : Nat) : (putLanes v w i l).testBit b =
    if w * i ≤ b ∧ b < w * (i + l.length) then (fromLanes w l).testBit (b - w * i) else v.testBit b := by
  have hlo : v % 2 ^ (w * i) < 2 ^ (w * i) := Nat.mod_lt _ (Nat.two_pow_pos _)
  have hform : putLanes v w i l = 2 ^ (w * i) *
      (2 ^ (w * l.length) * (v / 2 ^ (w * (i + l.length))) + fromLanes w l) + v % 2 ^ (w * i) := by
    simp only [putLanes, Nat.mul_add, pow_add]
    ring
  rw [hform, Nat.testBit_two_pow_mul_add _ hlo, Nat.testBit_two_pow_mul_add _ (fromLanes_lt w l h), Nat.mul_add]
  by_cases h1 : b < w * i
  · simp [h1, Nat.not_le.mpr h1]
  · by_cases h2 : b < w * i + w * l.length
    · have h3 : b - w * i < w * l.length := by omega
      simp [h1, h2, h3, Nat.not_lt.mp h1]
    · have h3 : ¬ b - w * i < w * l.length := by omega
      have h4 : b - w * i - w * l.length + (w * i + w * l.length) = b := by omega
      simp [h1, h2, h3, Nat.testBit_div_two_pow, h4]

/-- Lanes put from index i on read back there. -/
theorem laneOf_putLanes_inside {v w i : Nat} {l : List Nat} (h : ∀ x ∈ l, x < 2 ^ w) {j : Nat} (hj : j < l.length) :
    laneOf w (putLanes v w i l) (i + j) = l.getD j 0 := by
  rw [← laneOf_fromLanes w l j h]
  apply Nat.eq_of_testBit_eq
  intro b
  rw [testBit_laneOf, testBit_laneOf, testBit_putLanes h]
  by_cases hb : b < w
  · have hup : w * j + b < w * l.length := calc
      w * j + b < w * j + w := Nat.add_lt_add_left hb _
      _ ≤ w * l.length := Nat.mul_le_mul_left w hj
    have hin : w * i ≤ w * (i + j) + b ∧ w * (i + j) + b < w * (i + l.length) := by
      rw [Nat.mul_add, Nat.mul_add]; omega
    have hidx : w * (i + j) + b - w * i = w * j + b := by rw [Nat.mul_add]; omega
    rw [if_pos hin, hidx]
  · simp [hb]

/-- Every other lane is the number's own. -/
theorem laneOf_putLanes_outside {v w i : Nat} {l : List Nat} (h : ∀ x ∈ l, x < 2 ^ w) {j : Nat}
    (hj : j < i ∨ i + l.length ≤ j) : laneOf w (putLanes v w i l) j = laneOf w v j := by
  apply Nat.eq_of_testBit_eq
  intro b
  rw [testBit_laneOf, testBit_laneOf, testBit_putLanes h]
  by_cases hb : b < w
  · have hout : ¬ (w * i ≤ w * j + b ∧ w * j + b < w * (i + l.length)) := by
      rcases hj with hj | hj
      · have := Nat.mul_le_mul_left w (show j + 1 ≤ i from hj)
        rw [Nat.mul_succ] at this; omega
      · have := Nat.mul_le_mul_left w hj
        omega
    rw [if_neg hout]
  · simp [hb]

/-- Half `h` of a register of 2n lanes of w bits, replaced: that half reads as put, the other as before. -/
theorem laneOf_half (k : Core) (x v : Nat) {w n h : Nat} {l : Nat → Nat} (t : Bool) (hl : ∀ j, l j < 2 ^ w)
    (hn : w * (2 * n) ≤ 4096) (hh : h = 0 ∨ h = 1) {j : Nat} (hj : j < n) :
    let r := (k.setF x (putLanes v w (n * h) ((List.range n).map l)) t).freg x
    laneOf w r (n * h + j) = l j ∧ laneOf w r (n * (1 - h) + j) = laneOf w v (n * (1 - h) + j) := by
  have hmem : ∀ y ∈ (List.range n).map l, y < 2 ^ w := by
    intro y hy
    obtain ⟨i, -, rfl⟩ := List.mem_map.mp hy
    exact hl i
  have hlen : ((List.range n).map l).length = n := by simp
  have hcut (i : Nat) (hi : i < 2 * n) (u : Nat) : laneOf w (u % 2 ^ 4096) i = laneOf w u i :=
    laneOf_mod ((Nat.mul_le_mul_left w hi).trans hn)
  intro r
  simp only [r, Core.freg_setF, if_pos]
  rcases hh with rfl | rfl
  · rw [hcut _ (by omega), hcut _ (by omega), laneOf_putLanes_inside hmem (by rwa [hlen]), getD_map_range n l 0 hj,
      laneOf_putLanes_outside hmem (by rw [hlen]; omega)]
    exact ⟨rfl, rfl⟩
  · rw [hcut _ (by omega), hcut _ (by omega), laneOf_putLanes_inside hmem (by rwa [hlen]), getD_map_range n l 0 hj,
      laneOf_putLanes_outside hmem (by rw [hlen]; omega)]
    exact ⟨rfl, rfl⟩

/-! ## Queues of a core (R163) -/

theorem Core.queue_setQueue (k : Core) (q : Nat) (l : List QEntry) (r : Nat) :
    (k.setQueue q l).queue r = if r = q then l else k.queue r := mapGet_set ..

@[simp] theorem Core.queue_advance (k : Core) (q : Nat) : k.advance.queue q = k.queue q := rfl
@[simp] theorem Core.freg_setQueue (k : Core) (q : Nat) (l : List QEntry) (x : Nat) : (k.setQueue q l).freg x = k.freg x := rfl
@[simp] theorem Core.ftaintOf_setQueue (k : Core) (q : Nat) (l : List QEntry) (x : Nat) :
    (k.setQueue q l).ftaintOf x = k.ftaintOf x := rfl

/-! ## The statement -/

theorem finOk_sub {f : FinF} {u : FinUse} {lfs subs : List Nat} (h : finOk f u lfs subs = true) : f.sub.toNat ∈ subs := by
  simp only [finOk, Bool.and_eq_true] at h
  exact List.contains_iff_mem.mp h.2

theorem sub_beq_zero (b : BitVec 4) : (b.toNat != 0) = (b != 0#4) := by
  rw [Bool.eq_iff_iff, bne_iff_ne, bne_iff_ne, ne_eq, ne_eq, not_iff_not]
  exact BitVec.toNat_inj (y := 0#4)

/-- A list is its elements by index. -/
theorem eq_map_range_getD {α : Type} (d : α) (l : List α) : l = (List.range l.length).map fun j => l.getD j d := by
  apply List.ext_getElem (by simp)
  intro i h1 h2
  rw [List.getElem_map, List.getElem_range, List.getD_eq_getElem _ _ h1]

/-- With no event there is nothing to note. -/
theorem State.noteMany_zero (s : State) (c kind : Nat) : s.noteMany c kind 0 = s := rfl

/-- Lane j of FCVT: the value of bolt j times 2^B, rounded once (R203). -/
def fcvtLane (k : Core) (f : FinF) (set : List Bolt) (j : Nat) : Nat :=
  roundTo f32 (Fl.ofInt (set.getD j {}).value.toInt (signedAt 11 (lane32 (k.freg f.fs2.toNat) 0)))

/-- The taint of a result that replaces a part of its register: part 0 sets it, any other adds to it. -/
theorem partTaint_eq (b : BitVec 4) (old t : Bool) : (if b.toNat = 0 then t else old || t) = ((b != 0#4 && old) || t) := by
  rw [← sub_beq_zero]
  by_cases h : b.toNat = 0
  · rw [if_pos h, h]; rfl
  · rw [if_neg h, bne_iff_ne.mpr h, Bool.true_and]

/-- FCVT of a ready bolt set whose lanes are all finite. -/
theorem fcvt_converts {s : State} {c : CoreId} {g : Guard} {f : FinF} {id : Nat} {set : List Bolt} {rest : List QEntry}
    (hr : s.Ready c g) (hlf : f.lf = 0#2) (hq : (s.core c.val).queue f.q.toNat = ⟨id, .bolts (some set)⟩ :: rest)
    (hlen : set.length = 64) (hok : finOk f { fs1 := false, fs2 := true, q := true, qsrc := true } [0, 1] [0, 1] = true)
    (hfin : ∀ j, j < 64 → fcvtLane (s.core c.val) f set j % 2 ^ 31 ≠ 0x7F800000) :
    let k := s.core c.val
    let t0 := k.itaint || (set.any fun x => x.exc || x.ovf) || k.ftaintOf f.fs2.toNat
    ∃ t, execFcvt c g f s = .next t ∧ s.OnlyCore t c ∧ t.core c.val = ((k.setF f.fd.toNat (putLanes (k.freg f.fd.toNat) 32
      (64 * f.sub.toNat) ((List.range 64).map (fcvtLane k f set))) ((f.sub != 0#4 && k.ftaintOf f.fd.toNat) || t0)).setQueue
        f.q.toNat rest).advance := by
  intro k t0
  have hxs : (set.map fun x => roundTo f32 (Fl.ofInt x.value.toInt (signedAt 11 (lane32 ((s.core c.val).freg f.fs2.toNat) 0)))) =
      (List.range 64).map (fcvtLane k f set) := by
    conv_lhs => rw [eq_map_range_getD {} set, List.map_map, hlen]
    rfl
  have hinf : ((List.range 64).map (fcvtLane k f set)).filter (fun x => x % f32.signBit == f32.infBits) = [] := by
    rw [List.filter_eq_nil_iff]
    intro x hx
    obtain ⟨j, hj, rfl⟩ := List.mem_map.mp hx
    exact fun h => hfin j (List.mem_range.mp hj) (beq_iff_eq.mp h)
  refine issueOut_done_core hr (by rw [if_pos hlf]; exact hok) rfl (.inl rfl) ?_
  simp only [hq, if_pos hlf, hxs, hinf, partTaint_eq, List.length_nil, Nat.lt_irrefl, decide_false, Bool.or_false,
    State.noteMany_zero]
  rfl

/-- Settles O15: FCVT and FCVTB by the rule for lanes put among others, FUNP by that for lanes written. -/
theorem finisherConversions : Obligations.FinisherConversions := by
  intro s c g f hr
  simp only [exec_fcvt, exec_fcvtb, exec_funp]
  refine ⟨fun id set rest hlf hq hlen hok hfin => ?cvt, fun hok => ?cvtb, fun hok hf2 hpart hfin => ?unp⟩
  case cvt =>
    obtain ⟨t, hx, honly, hcore⟩ := fcvt_converts hr hlf hq hlen hok hfin
    have hsub : f.sub.toNat = 0 ∨ f.sub.toNat = 1 := by simpa using finOk_sub hok
    have half {j : Nat} (hj : j < 64) := laneOf_half (s.core c.val) f.fd.toNat ((s.core c.val).freg f.fd.toNat) false
      (l := fcvtLane (s.core c.val) f set) (w := 32) (fun _ => roundTo_f32_lt _) (by decide) hsub hj
    refine ⟨t, hx, honly, ?_, fun q hq => ?_, fun j hj => ?_, fun j hj => ?_, ?_, fun x _ hx => ?_⟩
    · rw [hcore, Core.queue_advance, Core.queue_setQueue, if_pos rfl]
    · rw [hcore, Core.queue_advance, Core.queue_setQueue, if_neg hq]
      rfl
    · rw [hcore]; exact (half hj).1
    · rw [hcore]; exact (half hj).2
    · rw [hcore, Core.ftaintOf_advance, Core.ftaintOf_setQueue, Core.ftaintOf_setF _ _ _ _ f.fd.isLt, if_pos rfl]
      simp only [Bool.or_assoc]
    · rw [hcore, Core.freg_advance, Core.freg_setQueue, Core.freg_setF, if_neg hx]
  case cvtb =>
    have hsub : f.sub.toNat = 0 ∨ f.sub.toNat = 1 := by simpa using finOk_sub hok
    let v := fun j => roundTo bf16 (Sys2Proof.Machine.decode f32 (lane32 ((s.core c.val).freg f.fs1.toNat) j))
    have hv : (vals32 ((s.core c.val).freg f.fs1.toNat)).map (roundTo bf16) = (List.range 128).map v := List.map_map ..
    obtain ⟨t, hx, honly, hcore⟩ : ∃ t, execFcvtb c g f s = .next t ∧ s.OnlyCore t c ∧ t.core c.val =
        ((s.core c.val).setF f.fd.toNat (putLanes ((s.core c.val).freg f.fd.toNat) 16 (128 * f.sub.toNat) ((List.range 128).map v))
          ((f.sub != 0#4 && (s.core c.val).ftaintOf f.fd.toNat) || ((s.core c.val).ftaintOf f.fs1.toNat ||
            (List.range 128).any fun j => nan16 (v j)))).advance := by
      refine issueOut_done_core hr hok rfl (.inl rfl) ?_
      have hz : f.sub = 0#4 ↔ f.sub.toNat = 0 := (BitVec.toNat_inj (y := 0#4)).symm
      simp only [hv, hz, partTaint_eq, List.any_map]
      rfl
    have half {j : Nat} (hj : j < 128) := laneOf_half (s.core c.val) f.fd.toNat ((s.core c.val).freg f.fd.toNat) false
      (l := v) (w := 16) (fun _ => roundTo_bf16_lt _) (by decide) hsub hj
    refine ⟨t, hx, honly, fun j hj => ?_, fun j hj => ?_, ?_⟩
    · rw [hcore]; exact (half hj).1
    · rw [hcore]; exact (half hj).2
    · rw [hcore, Bool.or_assoc]
      exact (wroteF_setF _ _ _ f.fd.isLt).self
  case unp =>
    have hov : (((List.range 128).map (unpackElem f.sub.toNat f.fs3.toNat ((s.core c.val).freg f.fs1.toNat)
        ((s.core c.val).freg f.fs2.toNat))).filter fun x => x.isFin && (r32 x).isInf) = [] := by
      rw [List.filter_eq_nil_iff]
      intro x hx
      obtain ⟨j, hj, rfl⟩ := List.mem_map.mp hx
      exact Bool.eq_false_iff.mp (hfin j (List.mem_range.mp hj))
    refine wroteLanes_of_wrote (fun _ => roundTo_f32_lt _) (by decide) (fin_writes hr ?_ (.inl rfl) ?_)
    · have hscale : (f.sub.toNat != 0 || f.fs2 == 0#6) = true := by
        rw [sub_beq_zero, Bool.or_eq_true, bne_iff_ne, beq_iff_eq]
        exact or_iff_not_imp_left.mpr fun h => hf2 (not_not.mp h)
      simp [hok, hscale, hpart]
    · simp only [hov, List.length_nil, Nat.lt_irrefl, decide_false, Bool.or_false, State.noteMany_zero, List.map_map,
        Core.putF32, List.any_map, sub_beq_zero]
      rfl

end Sys2Proof.Machine
end

section
/-! Reductions (O16) and norms (O17) of the finisher: one lane written, and a list of numbers stored as bytes. -/

namespace Sys2Proof.Machine

/-! ## Numbers stored one after another -/

/-- Bytes just written, read back in part. -/
theorem memRead_memWrite_part (m : Mem) (a i n : Nat) {bs : List Byte} (h : i + n ≤ bs.length) :
    memRead (memWrite m a bs) (a + i) n = (bs.drop i).take n := by
  apply List.ext_getElem (by simp; omega)
  intro x h1 h2
  simp only [memRead, List.getElem_map, List.getElem_range, List.getElem_take, List.getElem_drop]
  rw [Nat.add_assoc]
  exact memByte_write_inside bs m a (i + x) _

theorem length_flatMap_leBytes (n : Nat) : ∀ l : List Nat, (l.flatMap (leBytes n)).length = n * l.length
  | [] => rfl
  | x :: l => by
    rw [List.flatMap_cons, List.length_append, length_leBytes, length_flatMap_leBytes n l, List.length_cons, Nat.mul_succ,
      Nat.add_comm]

/-- The bytes of number j among numbers of n bytes each. -/
theorem drop_take_flatMap_leBytes (n : Nat) : ∀ (l : List Nat) (j : Nat), j < l.length →
    ((l.flatMap (leBytes n)).drop (n * j)).take n = leBytes n (l.getD j 0)
  | x :: l, 0, _ => by
    rw [List.flatMap_cons, Nat.mul_zero, List.drop_zero, List.getD_cons_zero]
    exact List.take_left' (length_leBytes n x)
  | x :: l, j + 1, h => by
    have hdrop : n * (j + 1) = (leBytes n x).length + n * j := by rw [length_leBytes, Nat.mul_succ, Nat.add_comm]
    rw [List.flatMap_cons, hdrop, List.drop_append, List.drop_eq_nil_of_le (by omega), List.nil_append,
      Nat.add_sub_cancel_left, List.getD_cons_succ]
    exact drop_take_flatMap_leBytes n l j (Nat.lt_of_succ_lt_succ h)

/-- Number j of those just stored reads back. -/
theorem leNat_memRead_numbers (m : Mem) (a n : Nat) (l : List Nat) {j : Nat} (hj : j < l.length) :
    leNat (memRead (memWrite m a (l.flatMap (leBytes n))) (a + n * j) n) = l.getD j 0 % 256 ^ n := by
  have hin : n * j + n ≤ (l.flatMap (leBytes n)).length := by
    rw [length_flatMap_leBytes, ← Nat.mul_succ]
    exact Nat.mul_le_mul_left n hj
  rw [memRead_memWrite_part _ _ _ _ hin, drop_take_flatMap_leBytes n l j hj, leNat_leBytes]

/-! ## What scratchpad accesses leave of a core -/

/-- Only the scratchpad's bytes, its poison and its single-bit errors with their count differ. -/
def Core.PadOnly (k k' : Core) : Prop :=
  k' = { k with sp := k'.sp, poison := k'.poison, spFlip := k'.spFlip, spCorrected := k'.spCorrected }

theorem Core.PadOnly.eq {k k' : Core} (h : k.PadOnly k') :
    k' = { k with sp := k'.sp, poison := k'.poison, spFlip := k'.spFlip, spCorrected := k'.spCorrected } := h

theorem Core.PadOnly.refl (k : Core) : k.PadOnly k := rfl

theorem Core.PadOnly.trans {k k' k'' : Core} (h : k.PadOnly k') (h' : k'.PadOnly k'') : k.PadOnly k'' := by
  unfold Core.PadOnly at *
  rw [h', h]

theorem Core.padOnly_readFix (k : Core) (a n : Nat) : k.PadOnly (k.readFix a n) := by
  unfold Core.readFix
  split <;> rfl

theorem Core.padOnly_writeFix (k : Core) (a n : Nat) : k.PadOnly (k.writeFix a n) := by
  unfold Core.writeFix
  split <;> rfl

theorem Core.padOnly_store (k : Core) (a : Nat) (bs : List Byte) : k.PadOnly (k.store a bs) :=
  (k.padOnly_writeFix a bs.length).trans rfl

@[simp] theorem Core.readFix_sp (k : Core) (a n : Nat) : (k.readFix a n).sp = k.sp := by rw [Core.readFix_frame]

theorem redFix_cons (k : Core) (f : FinF) (p : Nat) (ps : List Nat) :
    redFix k f (p :: ps) = redFix (k.readFix p (512 * mOf f)) f ps := rfl

theorem redFix_padOnly (f : FinF) : ∀ (ps : List Nat) (k : Core), k.PadOnly (redFix k f ps)
  | [], k => .refl k
  | p :: ps, k => by
    rw [redFix_cons]
    exact (k.padOnly_readFix p _).trans (redFix_padOnly f ps _)

theorem redFix_sp (f : FinF) : ∀ (ps : List Nat) (k : Core), (redFix k f ps).sp = k.sp
  | [], _ => rfl
  | p :: ps, k => by rw [redFix_cons, redFix_sp f ps, Core.readFix_sp]

/-! ## Reductions (R205) -/

/-- A register written with one lane: that lane, and zero in the others. -/
theorem Core.WroteF.lane {k k' : Core} {x v : Nat} {t : Bool} (h : k.WroteF k' x (fromLanes 32 [v]) t) (hv : v < 2 ^ 32) {j : Nat}
    (hj : j < 128) : lane32 (k'.freg x) j = if j = 0 then v else 0 := by
  rw [h.1, lane32_mod _ hj, lane32_fromLanes _ _ (by simpa using hv)]
  cases j <;> simp

section
variable {s : State} {c : CoreId} {g : Guard} {f : FinF} {op : Nat} {ok : Bool} {body : Core → Res} {ps : List Nat}

/-- A finisher instruction that writes lane 0 alone, from operands with no poisoned word. -/
theorem reduction_gives {accs : List Access} {v : Nat} {t0 : Bool} (hr : s.Ready c g) (hz : s.rd K.hzMode = 0) (hok : ok = true)
    (hbad : redBad (s.core c.val) f ps = []) (hv : v < 2 ^ 32)
    (hb : body (s.core c.val) = .done ((s.setCore c.val ((redFix (s.core c.val) f ps).putF32 f.fd.toNat [v] t0)).noteUncorr
      c.val 2 (redBad (s.core c.val) f ps))) :
    ∃ t, fin s c g op ok accs body = .next t ∧ s.OnlyCore t c ∧ lane32 ((t.core c.val).freg f.fd.toNat) 0 = v ∧
      (∀ j, 0 < j → j < 128 → lane32 ((t.core c.val).freg f.fd.toNat) j = 0) ∧
      (redFix (s.core c.val) f ps).WroteF (t.core c.val) f.fd.toNat ((t.core c.val).freg f.fd.toNat) (t0 || nan32 v) := by
  rw [hbad, State.noteUncorr_nil] at hb
  obtain ⟨t, hx, honly, hwrote⟩ := fin_writes (op := op) (accs := accs) hr hok (.inr hz) hb
  rw [List.any_cons, List.any_nil, Bool.or_false] at hwrote
  exact ⟨t, hx, honly, by rw [hwrote.lane hv (by decide), if_pos rfl],
    fun j h0 hj => by rw [hwrote.lane hv hj, if_neg (by omega)], hwrote.self⟩

end

/-- Settles O16: both reductions by the rule for one lane written. -/
theorem finisherReductionsSumIntoLaneZero : Obligations.FinisherReductionsSumIntoLaneZero := by
  intro s c g f ps hr hz
  simp only [exec_fsum, exec_fdot]
  refine ⟨fun hok hred hmem hbad => ?sum, fun hok hred hmem hbad => ?dot⟩
  case sum => exact reduction_gives hr hz (by simp [hok, hred]) hbad (roundTo_f32_lt _) (by simp only [hmem])
  case dot => exact reduction_gives hr hz (by simp [hok, hred]) hbad (roundTo_f32_lt _) (by simp only [hmem])

/-! ## Norms (R205) -/

theorem length_vals32 (v : Nat) : (vals32 v).length = 128 := by simp [vals32]

theorem length_redSrc (k : Core) (f : FinF) (ps : List Nat) (i : Nat) : (redSrc k f ps i).1.length = 128 * mOf f := by
  unfold redSrc
  split
  · simp only [regLanes, List.length_flatMap, length_vals32, List.map_const', List.length_range, List.sum_replicate,
      smul_eq_mul, Nat.mul_comm]
  · simp [memLanes]

/-- Output lane j of a norm (R205). -/
def normLane (k : Core) (f : FinF) (x : List Fl) (gp : Nat) (mu r : Fl) (j : Nat) : Nat :=
  roundTo bf16 ((r32 ((r32 ((x.getD j Fl.zero).sub mu)).mul r)).mul
    (Sys2Proof.Machine.decode bf16 (leAt (k.bytesAt gp (256 * mOf f)) (2 * j) 2)))

/-- The core once a norm has read its operands and stored its outputs. -/
def Core.normed (k : Core) (f : FinF) (ps : List Nat) (gp opp : Nat) (ys : List Nat) : Core :=
  ((redFix k f ps).readFix gp (256 * mOf f)).store opp (ys.flatMap fun y => leBytes 2 y)

theorem Core.padOnly_normed (k : Core) (f : FinF) (ps : List Nat) (gp opp : Nat) (ys : List Nat) :
    k.PadOnly (k.normed f ps gp opp ys) :=
  ((redFix_padOnly f ps k).trans (Core.padOnly_readFix ..)).trans (Core.padOnly_store ..)

theorem Core.normed_sp (k : Core) (f : FinF) (ps : List Nat) (gp opp : Nat) (ys : List Nat) :
    (k.normed f ps gp opp ys).sp = memWrite k.sp opp (ys.flatMap (leBytes 2)) := by
  rw [Core.normed, Core.store_sp, Core.readFix_sp, redFix_sp]

@[simp] theorem Core.setF_sp (k : Core) (x v : Nat) (t : Bool) : (k.setF x v t).sp = k.sp := rfl

theorem Core.WroteF.sp {k k' : Core} {x v : Nat} {t : Bool} (h : k.WroteF k' x v t) : k'.sp = k.sp :=
  (congrArg Core.sp h.2.2.2).trans rfl

/-- A result written on a core that differs from k in its scratchpad alone. -/
theorem Core.WroteF.pad {k k1 k' : Core} {x v : Nat} {t : Bool} (h : k1.WroteF k' x v t) (hpad : k.PadOnly k1) :
    (∀ z, z < 64 → z ≠ x → k'.freg z = k.freg z ∧ k'.ftaintOf z = k.ftaintOf z) ∧
    k' = { k.advance with fregs := k'.fregs, ftaint := k'.ftaint, sp := k'.sp, poison := k'.poison, spFlip := k'.spFlip
                          spCorrected := k'.spCorrected } := by
  obtain ⟨-, -, hothers, hframe⟩ := h
  rw [hpad.eq] at hothers hframe
  refine ⟨hothers, ?_⟩
  rw [hframe]
  rfl

/-- What a norm leaves: the outputs stored, the statistics in `fd`, everything else as before. -/
theorem norm_gives {s : State} {c : CoreId} {g : Guard} {f : FinF} {op : Nat} {stats : List Fl → Fl → Fl × Fl × List Nat}
    {ps : List Nat} {gp opp : Nat} {mu r : Fl} {lanes : List Nat} (hr : s.Ready c g) (hz : s.rd K.hzMode = 0)
    (hok : finOk f { fs3 := true, ra := true, many := true } [1] [0] = true) (hred : redOk f false true = true)
    (hf2 : f.fs2 = 0#6) (hmem : redMem (s.core c.val) f false = some ps) (hbad : redBad (s.core c.val) f ps = [])
    (hgain : (s.core c.val).finMem ((s.core c.val).areg (f.ra.toNat + 1)) (256 * mOf f) = some gp)
    (hgbad : (s.core c.val).poisoned gp (256 * mOf f) = [])
    (hout : (s.core c.val).finMem ((s.core c.val).areg (f.ra.toNat + 2)) (256 * mOf f) = some opp)
    (hstats : stats (redSrc (s.core c.val) f ps 0).1 (Sys2Proof.Machine.decode f32 (lane32 ((s.core c.val).freg f.fs3.toNat) 0)) =
      (mu, r, lanes)) :
    let k := s.core c.val
    let m := mOf f
    let y := normLane k f (redSrc k f ps 0).1 gp mu r
    ∃ t, norm s c g f op stats = .next t ∧ s.OnlyCore t c ∧
      (∀ j, j < 128 * m → leNat ((t.core c.val).bytesAt (opp + 2 * j) 2) = y j) ∧
      (∀ b, b < opp ∨ opp + 256 * m ≤ b → memByte (t.core c.val).sp b = memByte k.sp b) ∧
      (t.core c.val).freg f.fd.toNat = fromLanes 32 lanes % 2 ^ 4096 ∧
      (t.core c.val).ftaintOf f.fd.toNat = ((redSrc k f ps 0).2 || k.ftaintOf f.fs3.toNat || lanes.any nan32 ||
        (List.range (128 * m)).any fun j => nan16 (y j)) ∧
      (∀ z, z < 64 → z ≠ f.fd.toNat →
        (t.core c.val).freg z = k.freg z ∧ (t.core c.val).ftaintOf z = k.ftaintOf z) ∧
      t.core c.val = { k.advance with
        fregs := (t.core c.val).fregs, ftaint := (t.core c.val).ftaint, sp := (t.core c.val).sp
        poison := (t.core c.val).poison, spFlip := (t.core c.val).spFlip, spCorrected := (t.core c.val).spCorrected } := by
  intro k m y
  have hlen := length_redSrc k f ps 0
  have hys : List.zipWith (fun v w => roundTo bf16 ((r32 ((r32 (v.sub mu)).mul r)).mul w)) (redSrc k f ps 0).1
      ((List.range (128 * m)).map fun i => Sys2Proof.Machine.decode bf16 (leAt (k.bytesAt gp (256 * m)) (2 * i) 2)) =
      (List.range (128 * m)).map y := by
    conv_lhs => rw [eq_map_range_getD Fl.zero (redSrc k f ps 0).1, hlen]
    exact zipWith_map_range ..
  obtain ⟨t, hx, honly, hwrote⟩ : ∃ t, norm s c g f op stats = .next t ∧ s.OnlyCore t c ∧
      (k.normed f ps gp opp ((List.range (128 * m)).map y)).WroteF (t.core c.val) f.fd.toNat (fromLanes 32 lanes)
        ((redSrc k f ps 0).2 || k.ftaintOf f.fs3.toNat || ((List.range (128 * m)).any fun j => nan16 (y j)) ||
          lanes.any nan32) := by
    refine fin_writes hr (by simp [hok, hred, hf2]) (.inr hz) ?_
    simp only [hmem, hgain, hout, hstats, hbad, hgbad, List.append_nil, State.noteUncorr_nil, List.isEmpty_nil, Bool.not_true,
      Bool.or_false]
    simp only [k, m] at hys
    rw [hys, List.any_map]
    rfl
  have hsp := hwrote.sp.trans (Core.normed_sp ..)
  have hout' : (((List.range (128 * m)).map y).flatMap (leBytes 2)).length = 256 * m := by
    rw [length_flatMap_leBytes, List.length_map, List.length_range]; omega
  obtain ⟨hothers, hframe⟩ := hwrote.pad (Core.padOnly_normed ..)
  refine ⟨t, hx, honly, fun j hj => ?_, fun b hb => ?_, hwrote.1, ?_, hothers, hframe⟩
  · rw [Core.bytesAt, hsp, leNat_memRead_numbers _ _ _ _ (by simpa using hj), getD_map_range _ y 0 hj]
    exact Nat.mod_eq_of_lt (roundTo_bf16_lt _)
  · rw [hsp]
    exact memByte_write_outside b _ _ _ (by rwa [hout'])
  · rw [hwrote.2.1, Bool.or_right_comm]

/-- Settles O17: both norms, by their statistics. -/
theorem finisherNormsStoreOutputs : Obligations.FinisherNormsStoreOutputs := by
  intro s c g f ps gp op hr hz
  simp only [exec_frms, exec_flnorm]
  intro hok hred hf2 hmem hbad hgain hgbad hout
  refine ⟨fun r hr' => ?rms, fun mu r hmu hr' => ?lnorm⟩
  case rms => exact norm_gives hr hz hok hred hf2 hmem hbad hgain hgbad hout (by rw [hr'])
  case lnorm => exact norm_gives hr hz hok hred hf2 hmem hbad hgain hgbad hout (by rw [hr', hmu])

end Sys2Proof.Machine
end

section
/-! What a requantisation leaves behind (R72, R79): its range events, the rows sent to side buffers and the records kept, and the
frame of the instruction. -/

namespace Sys2Proof.Machine

/-! ## Range events (R72, R90) -/

/-- Only the log with what follows from it and the precision status of core c's instance differ. -/
structure State.Noted (s t : State) (c : Nat) : Prop where
  only : s.LogOnly t
  entries : ∀ key, key ∉ logKeys → (∀ i, (s.core c).inst = some i → key ≠ K.precStatus i.val) → t.rd key = s.rd key

theorem State.Noted.refl (s : State) (c : Nat) : s.Noted s c := ⟨.refl s, fun _ _ _ => rfl⟩

theorem State.Noted.trans {s t u : State} {c : Nat} (h : s.Noted t c) (h' : t.Noted u c) : s.Noted u c where
  only := h.only.trans h'.only
  entries key hk hi := (h'.entries key hk (by rwa [h.only.core])).trans (h.entries key hk hi)

theorem precStatus_not_logKey (i : Fin 12) : K.precStatus i.val ∉ logKeys := by revert i; decide

/-- A finisher event of a core without an instance leaves no trace; any other sets its bit and is logged. -/
theorem State.noteFinisher_cases (s : State) (c kind : Nat) : s.noteFinisher c kind = s ∧ (s.core c).inst = none ∨
    ∃ i rec, (s.core c).inst = some i ∧ s.noteFinisher c kind = (s.wr (K.precStatus i.val)
      (s.rd (K.precStatus i.val) ||| (if kind = 0xA then 2 else 4))).logDev i.val rec := by
  unfold State.noteFinisher
  dsimp only
  split
  · next h => exact .inl ⟨rfl, h⟩
  · next i h => exact .inr ⟨i, _, h, rfl⟩

theorem State.noteFinisher_noted (s : State) (c kind : Nat) : s.Noted (s.noteFinisher c kind) c := by
  rcases s.noteFinisher_cases c kind with ⟨h, -⟩ | ⟨i, rec, hi, h⟩
  · rw [h]; exact .refl s c
  · rw [h]
    refine ⟨((State.LogOnly.refl s).wr _ _).trans (State.logDev_only ..), fun key hk hne => ?_⟩
    rw [State.logDev_rd _ _ _ hk, State.rd_wr_ne _ _ _ _ (hne i hi)]

theorem State.noteMany_succ (s : State) (c kind n : Nat) :
    s.noteMany c kind (n + 1) = (s.noteMany c kind n).noteFinisher c kind := by
  unfold State.noteMany State.each
  rw [List.range_succ, List.foldl_append]
  rfl

theorem State.noteMany_noted (s : State) (c kind : Nat) : ∀ n, s.Noted (s.noteMany c kind n) c
  | 0 => .refl s c
  | n + 1 => by
    rw [State.noteMany_succ]
    exact (s.noteMany_noted c kind n).trans (State.noteFinisher_noted _ c kind)

/-- A quantise-range event leaves its sticky bit in the instance's precision status. -/
theorem State.noteMany_range_bit (s : State) (c : Nat) {n : Nat} (hn : 0 < n) {i : Fin 12} (hi : (s.core c).inst = some i) :
    ((s.noteMany c 0xB n).rd (K.precStatus i.val)).testBit 2 = true := by
  obtain ⟨n, rfl⟩ := Nat.exists_eq_succ_of_ne_zero (Nat.pos_iff_ne_zero.mp hn)
  rw [State.noteMany_succ]
  have hinst : ((s.noteMany c 0xB n).core c).inst = some i := by rw [(s.noteMany_noted c 0xB n).only.core]; exact hi
  rcases (s.noteMany c 0xB n).noteFinisher_cases c 0xB with ⟨-, h⟩ | ⟨j, rec, hj, h⟩
  · rw [hinst] at h; cases h
  · obtain rfl : i = j := Option.some.inj (hinst.symm.trans hj)
    have hbit : Nat.testBit (if (11 : Nat) = 10 then 2 else 4) 2 = true := by decide
    rw [h, State.logDev_rd _ _ _ (precStatus_not_logKey i), State.rd_wr, Nat.testBit_or, hbit, Bool.or_true]

/-! ## Rows sent to side buffers (R79) -/

/-- Only side buffers, draws and the count of skipped samples differ. -/
structure State.Fed (s t : State) : Prop where
  frame : t = { s with cores := t.cores, dict := t.dict }
  cores : ∀ d, t.core d = { s.core d with side := (t.core d).side, fcDrawn := (t.core d).fcDrawn }
  entries : ∀ key, key ≠ K.fcSkipped → t.rd key = s.rd key

theorem State.Fed.refl (s : State) : s.Fed s := ⟨rfl, fun _ => rfl, fun _ _ => rfl⟩

theorem State.Fed.trans {s t u : State} (h : s.Fed t) (h' : t.Fed u) : s.Fed u where
  frame := by rw [h'.frame, h.frame]
  cores d := by rw [h'.cores, h.cores]
  entries key hk := (h'.entries key hk).trans (h.entries key hk)

theorem State.fed_setCore (s : State) (c : Nat) (b : Map (Option FcSample)) (d : List (Nat × Nat × Nat)) :
    s.Fed (s.setCore c { s.core c with side := b, fcDrawn := d }) where
  frame := rfl
  cores e := by
    rw [State.core_setCore_if]
    split
    · next h => rw [h]
    · rfl
  entries _ _ := rfl

theorem State.Fed.bump_skipped {s t : State} (h : s.Fed t) : s.Fed (t.bump K.fcSkipped 64 1) where
  frame := by rw [State.bump, State.wr, h.frame]
  cores := h.cores
  entries key hk := (State.rd_wr_ne t _ _ _ hk).trans (h.entries key hk)

theorem State.fcSelect_fed (s : State) (c e tile layer : Nat) : s.Fed (s.fcSelect c e tile layer) := by
  rcases s.fcSelect_cases c e tile layer with h | ⟨i, -, -, ⟨d, h⟩ | ⟨d, b, h⟩⟩
  · rw [h]; exact .refl s
  · rw [h]; exact (s.fed_setCore c (s.core c).side d).bump_skipped
  · rw [h]; exact s.fed_setCore c b d

theorem State.fcDeliver_fed (s : State) (c e tile rb : Nat) (vs : List Fl) : s.Fed (s.fcDeliver c e tile rb vs) := by
  unfold State.fcDeliver
  dsimp only
  split
  · exact .refl s
  · split
    · exact .refl s
    · exact s.fed_setCore c _ (s.core c).fcDrawn

theorem State.fcFeed_fed (s : State) (c b : Nat) (vs : List Fl) : s.Fed (s.fcFeed c b vs) := by
  unfold State.fcFeed
  dsimp only
  split
  · exact .refl s
  · refine State.each_rel State.Fed.refl State.Fed.trans (fun s f => ?_) _ s
    split
    · exact (State.fcSelect_fed ..).trans (State.fcDeliver_fed ..)
    · exact .refl s

/-! ## Records (R75, R76) -/

/-- Keeping a record touches its sequence alone. -/
theorem State.keepRecord_frame (s : State) (c b : Nat) (r : List Byte) :
    s.keepRecord c b r = { s with seqs := (s.keepRecord c b r).seqs } := by
  unfold State.keepRecord
  split <;> rfl

/-- The state once FQUANT has kept its records, if feedback is on. -/
def State.kept2 (s : State) (c : Nat) (fb : Bool) (r0 r1 : List Byte) : State :=
  if fb then (s.keepRecord c 0 r0).keepRecord c 1 r1 else s

theorem State.kept2_frame (s : State) (c : Nat) (fb : Bool) (r0 r1 : List Byte) :
    s.kept2 c fb r0 r1 = { s with seqs := (s.kept2 c fb r0 r1).seqs } := by
  unfold State.kept2
  split
  · rw [State.keepRecord_frame, s.keepRecord_frame]
  · rfl

/-! ## The instruction's frame -/

variable {s u : State} {c : CoreId} {g : Guard} {op n : Nat} {ok : Bool} {accs : List Access} {body : Core → Res} {k1 : Core}
  {v0 v1 : List Fl}

/-- What FQUANT does beside its own core's registers and scratchpad: u is the state with the records kept, k1 the core as the
instruction writes it, n the number of range events. -/
def State.Quantises (s : State) (x : Out) (c : CoreId) (u : State) (k1 : Core) (n : Nat) : Prop :=
  ∃ t, x = .next t ∧ s.OnlyQuantised t c ∧
    t.core c.val = { k1.advance with side := (t.core c.val).side, fcDrawn := (t.core c.val).fcDrawn } ∧ t.seqs = u.seqs ∧
    (n = 0 → t.log = s.log ∧ t.fns = s.fns ∧ t.sent = s.sent ∧ ∀ key, key ≠ K.fcSkipped → t.rd key = s.rd key) ∧
    (0 < n → ∀ i, (s.core c.val).inst = some i → (t.rd (K.precStatus i.val)).testBit 2 = true)

theorem fin_quantises (hr : s.Ready c g) (hok : ok = true) (hz : accs = [] ∨ s.rd K.hzMode = 0)
    (hu : u = { s with seqs := u.seqs }) (hinst : k1.inst = (s.core c.val).inst)
    (hb : body (s.core c.val) =
      .done ((((u.setCore c.val k1).noteMany c.val 0xB n).fcFeed c.val 0 v0).fcFeed c.val 1 v1)) :
    s.Quantises (fin s c g op ok accs body) c u k1 n := by
  obtain ⟨q, rfl⟩ : ∃ q, u = { s with seqs := q } := ⟨_, hu⟩
  let y := ({ s with seqs := q } : State).setCore c.val k1
  have hycore : y.core c.val = k1 := State.core_setCore ..
  have hyother (d : Nat) (hd : d ≠ c.val) : y.core d = s.core d := State.core_setCore_ne _ _ _ _ hd
  have hnoted := y.noteMany_noted c.val 0xB n
  have hbit : 0 < n → ∀ i, k1.inst = some i → _ := fun hn i hi =>
    y.noteMany_range_bit c.val hn (i := i) (by rwa [hycore])
  have hzero : n = 0 → y.noteMany c.val 0xB n = y := fun h => by rw [h]; rfl
  change body _ = .done (((y.noteMany c.val 0xB n).fcFeed c.val 0 v0).fcFeed c.val 1 v1) at hb
  generalize y.noteMany c.val 0xB n = w at hb hnoted hbit hzero
  have hfed := (w.fcFeed_fed c.val 0 v0).trans (State.fcFeed_fed _ c.val 1 v1)
  generalize (w.fcFeed c.val 0 v0).fcFeed c.val 1 v1 = x at hb hfed
  have hrd (key : Nat) (hk : key ∉ logKeys) (hskip : key ≠ K.fcSkipped)
      (hprec : ∀ i, (s.core c.val).inst = some i → key ≠ K.precStatus i.val) : x.rd key = s.rd key :=
    (hfed.entries key hskip).trans (hnoted.entries key hk (by rwa [hycore, hinst]))
  have hframe : x = { y with cores := x.cores, dict := x.dict, log := x.log, fns := x.fns, sent := x.sent
                             logMsgAt := x.logMsgAt, logMsgHeld := x.logMsgHeld } := by
    rw [hfed.frame, hnoted.only.eq]
  have hprec (i : Fin 12) : K.hzMode ≠ K.precStatus i.val := by revert i; decide
  have hskip (i : Fin 12) : K.precStatus i.val ≠ K.fcSkipped := by revert i; decide
  refine ⟨_, issueOut_done hr hok rfl hb (hz.imp_right fun h => (hrd _ (by decide) (by decide) fun i _ => hprec i).trans h),
    ⟨?frame, fun d hd => ?cores, hrd⟩, ?core, (congrArg State.seqs hframe :), fun hn => ?quiet, fun hn i hi => ?bit⟩
  case frame =>
    rw [State.setCore, hframe]
    rfl
  case cores => rw [State.core_setCore_ne _ _ _ _ hd, hfed.cores, hnoted.only.core, hyother d hd]
  case core =>
    rw [State.core_setCore, hfed.cores, hnoted.only.core, hycore]
    rfl
  case quiet =>
    obtain rfl := hzero hn
    exact ⟨(congrArg State.log hfed.frame :), (congrArg State.fns hfed.frame :), (congrArg State.sent hfed.frame :), hfed.entries⟩
  case bit => exact (congrArg (Nat.testBit · 2) (hfed.entries _ (hskip i))).trans (hbit hn i (hinst.trans hi))

end Sys2Proof.Machine
end

section
/-! FQUANT in its forms and FALT (O18): the codes and scales of two blocks, in a register or stored at two addresses. -/

namespace Sys2Proof.Machine

/-! ## Bytes and codes -/

theorem leNat_lt : ∀ bs : List Byte, leNat bs < 256 ^ bs.length
  | [] => Nat.one_pos
  | b :: bs => by
    have hb := b.isLt
    have hbs := leNat_lt bs
    rw [leNat, List.length_cons, pow_succ]
    omega

/-- Bytes that fit a register are not cut by it. -/
theorem leNat_mod_register {bs : List Byte} (h : bs.length ≤ 512) : leNat bs % 2 ^ 4096 = leNat bs := by
  have hpow : 256 ^ bs.length ≤ 2 ^ 4096 := by
    rw [show 256 = 2 ^ 8 from rfl, ← pow_mul]
    exact Nat.pow_le_pow_right (by decide) (by omega)
  exact Nat.mod_eq_of_lt ((leNat_lt bs).trans_le hpow)

theorem length_quantBlock_codes {v : List Fl} (hv : v.length = 64) (qmax gen : Nat) (r : Option (List Byte)) :
    (quantBlock v qmax gen r).codes.length = 64 := by
  cases r with
  | none => simpa [quantBlock] using hv
  | some bytes =>
    simp only [quantBlock, List.length_map]
    split <;> simp [hv]

theorem length_packCodes (nib : Bool) (l : List Int) :
    (packCodes nib l).length = if nib then l.length / 2 else l.length := by
  cases nib <;> simp [packCodes]

/-- The codes of two blocks, packed. -/
theorem length_packed {v : List Fl} (hv : v.length = 128) (nib : Bool) (qmax gen : Nat) (r0 r1 : Option (List Byte)) :
    (packCodes nib ((quantBlock (v.take 64) qmax gen r0).codes ++ (quantBlock (v.drop 64) qmax gen r1).codes)).length =
      if nib then 64 else 128 := by
  rw [length_packCodes, List.length_append, length_quantBlock_codes (by simp [hv]), length_quantBlock_codes (by simp [hv])]

theorem range_events_pos (a b : Bool) : 0 < b2n a + b2n b ↔ (a || b) = true := by
  cases a <;> cases b <;> decide

/-! ## Stores at several addresses (R106) -/

theorem Core.storeAll_cons (k : Core) (a : Nat) (as : List Nat) (bs : List Byte) :
    k.storeAll (a :: as) bs = (k.store a bs).storeAll as bs := rfl

theorem Core.padOnly_storeAll (bs : List Byte) : ∀ (as : List Nat) (k : Core), k.PadOnly (k.storeAll as bs)
  | [], k => .refl k
  | a :: as, k => (k.padOnly_store a bs).trans (Core.padOnly_storeAll bs as _)

/-- A byte outside every place written reads as before. -/
theorem memByte_storeAll_outside {bs : List Byte} {x : Nat} (as : List Nat) (k : Core)
    (h : ∀ a ∈ as, x < a ∨ a + bs.length ≤ x) : memByte (k.storeAll as bs).sp x = memByte k.sp x := by
  induction as generalizing k with
  | nil => rfl
  | cons a as ih =>
    rw [Core.storeAll_cons, ih _ fun b hb => h b (List.mem_cons_of_mem _ hb), Core.store_sp]
    exact memByte_write_outside x bs _ a (h a List.mem_cons_self)

/-- The places written do not meet. -/
def Apart (as : List Nat) (n : Nat) : Prop := ∀ a ∈ as, ∀ b ∈ as, a ≠ b → a + n ≤ b ∨ b + n ≤ a

/-- A byte written at one of several places that do not meet. -/
theorem memByte_storeAll_inside {bs : List Byte} {p j : Nat} (hj : j < bs.length) (as : List Nat) (k : Core) (hp : p ∈ as)
    (hapart : Apart as bs.length) : memByte (k.storeAll as bs).sp (p + j) = bs.getD j 0 := by
  induction as generalizing k with
  | nil => cases hp
  | cons a as ih =>
    have htail : Apart as bs.length := fun x hx y hy => hapart x (List.mem_cons_of_mem _ hx) y (List.mem_cons_of_mem _ hy)
    rw [Core.storeAll_cons]
    by_cases hin : p ∈ as
    · exact ih _ hin htail
    · obtain rfl : p = a := (List.mem_cons.mp hp).resolve_right hin
      have hout : ∀ b ∈ as, p + j < b ∨ b + bs.length ≤ p + j := by
        intro b hb
        rcases hapart p hp b (List.mem_cons_of_mem _ hb) (fun e => hin (e ▸ hb)) with h | h <;> omega
      rw [memByte_storeAll_outside as _ hout, Core.store_sp, memByte_write_inside bs _ p j hj, List.getD_eq_getElem _ _ hj]

/-- The addresses of a narrow access lie a pair apart. -/
theorem narrow_apart {k : Core} {a n m : Nat} {w : Bool} {ps : List Nat} (h : k.narrow a n w = some ps) (hm : m ≤ 524288) :
    Apart ps m := by
  have hall (o : Nat) : Apart ((List.range 8).map fun p => k.narrowAt p o) m := by
    intro x hx y hy hne
    obtain ⟨i, -, rfl⟩ := List.mem_map.mp hx
    obtain ⟨j, -, rfl⟩ := List.mem_map.mp hy
    simp only [Core.narrowAt] at hne ⊢
    omega
  unfold Core.narrow at h
  dsimp only at h
  split at h
  · cases h
  split at h
  · obtain rfl := Option.some.inj h; exact hall _
  · obtain rfl := Option.some.inj h
    intro x hx y hy hne
    rw [List.mem_singleton] at hx hy
    exact absurd (hx.trans hy.symm) hne

/-- The bytes read are those found one by one. -/
theorem bytesAt_eq_of_bytes {k : Core} {a : Nat} {bs : List Byte} (h : ∀ j, j < bs.length → memByte k.sp (a + j) = bs.getD j 0) :
    k.bytesAt a bs.length = bs := by
  apply List.ext_getElem (by simp [Core.bytesAt])
  intro j h1 h2
  simp only [Core.bytesAt, memRead, List.getElem_map, List.getElem_range]
  rw [h j h2, List.getD_eq_getElem _ _ h2]

/-- Two lists of bytes, each stored at its own places, the second after the first. -/
theorem storeAll_twice (k : Core) {pa pb : List Nat} {bs cs : List Byte} (ha : Apart pa bs.length) (hb : Apart pb cs.length) :
    let m := (k.storeAll pa bs).storeAll pb cs
    (∀ q ∈ pb, m.bytesAt q cs.length = cs) ∧
    (∀ p ∈ pa, ∀ j, j < bs.length → (∀ q ∈ pb, p + j < q ∨ q + cs.length ≤ p + j) → memByte m.sp (p + j) = bs.getD j 0) ∧
    ∀ x, (∀ p ∈ pa, x < p ∨ p + bs.length ≤ x) → (∀ q ∈ pb, x < q ∨ q + cs.length ≤ x) → memByte m.sp x = memByte k.sp x :=
  ⟨fun _ hq => bytesAt_eq_of_bytes fun _ hj => memByte_storeAll_inside hj _ _ hq hb,
    fun _ hp _ hj hout => (memByte_storeAll_outside _ _ hout).trans (memByte_storeAll_inside hj _ _ hp ha),
    fun _ hxa hxb => (memByte_storeAll_outside _ _ hxb).trans (memByte_storeAll_outside _ _ hxa)⟩

/-! ## Registers written back -/

/-- The core with the records back in register x, if feedback is on. -/
def Core.backed (k : Core) (fb : Bool) (x v : Nat) (t : Bool) : Core := if fb then k.setF x v t else k

theorem Core.freg_backed (k : Core) (fb : Bool) (x v : Nat) (t : Bool) (y : Nat) :
    (k.backed fb x v t).freg y = if fb = true ∧ y = x then v % 2 ^ 4096 else k.freg y := by
  unfold Core.backed
  cases fb
  · simp
  · simp [Core.freg_setF]

theorem Core.ftaintOf_backed (k : Core) (fb : Bool) (x v : Nat) (t : Bool) {y : Nat} (hy : y < 64) :
    (k.backed fb x v t).ftaintOf y = if fb = true ∧ y = x then t else k.ftaintOf y := by
  unfold Core.backed
  cases fb
  · simp
  · simp [Core.ftaintOf_setF _ _ _ _ hy]

/-- Only finisher registers and their taint differ. -/
def Core.FregsOnly (k k' : Core) : Prop := k' = { k with fregs := k'.fregs, ftaint := k'.ftaint }

theorem Core.FregsOnly.eq {k k' : Core} (h : k.FregsOnly k') : k' = { k with fregs := k'.fregs, ftaint := k'.ftaint } := h

theorem Core.FregsOnly.trans {k k' k'' : Core} (h : k.FregsOnly k') (h' : k'.FregsOnly k'') : k.FregsOnly k'' := by
  unfold Core.FregsOnly at *
  rw [h', h]

theorem Core.fregsOnly_setF (k : Core) (x v : Nat) (t : Bool) : k.FregsOnly (k.setF x v t) := rfl

theorem Core.fregsOnly_backed (k : Core) (fb : Bool) (x v : Nat) (t : Bool) : k.FregsOnly (k.backed fb x v t) := by
  cases fb <;> rfl

/-- Only registers, the scratchpad's bytes, its poison and its single-bit errors with their count differ. -/
def Core.StoreOnly (k k' : Core) : Prop :=
  k' = { k with fregs := k'.fregs, ftaint := k'.ftaint, regs := k'.regs, sp := k'.sp, poison := k'.poison
                spFlip := k'.spFlip, spCorrected := k'.spCorrected }

theorem Core.StoreOnly.eq {k k' : Core} (h : k.StoreOnly k') :
    k' = { k with fregs := k'.fregs, ftaint := k'.ftaint, regs := k'.regs, sp := k'.sp, poison := k'.poison
                  spFlip := k'.spFlip, spCorrected := k'.spCorrected } := h

theorem Core.StoreOnly.trans {k k' k'' : Core} (h : k.StoreOnly k') (h' : k'.StoreOnly k'') : k.StoreOnly k'' := by
  unfold Core.StoreOnly at *
  rw [h', h]

theorem Core.PadOnly.toStore {k k' : Core} (h : k.PadOnly k') : k.StoreOnly k' := by
  unfold Core.StoreOnly
  rw [h.eq]

theorem Core.FregsOnly.toStore {k k' : Core} (h : k.FregsOnly k') : k.StoreOnly k' := by
  unfold Core.StoreOnly
  rw [h.eq]

theorem Core.storeOnly_regs (k : Core) (r : Map Word) : k.StoreOnly { k with regs := r } := rfl

/-- A write to a scalar or address register (R159). -/
theorem Core.writeReg_register (k : Core) {sp : Nat} (v : Word) (h : sp < 0x30) :
    k.writeReg sp v = { k with regs := mapSet (fun _ => 0#32) k.regs sp v } := if_pos h

/-- The core with the address registers after `ra` and its next moved past what was stored. -/
def Core.movedPast (k : Core) (ra : Nat) (a b : Word) : Core :=
  { k with regs := mapSet (fun _ => 0#32) (mapSet (fun _ => 0#32) k.regs (0x20 + ra) a) (0x20 + (ra + 1) % 16) b }

theorem Core.writeReg_twice (k : Core) {ra : Nat} (hra : ra < 16) (a b : Word) :
    (k.writeReg (0x20 + ra) a).writeReg (0x20 + (ra + 1) % 16) b = k.movedPast ra a b := by
  rw [Core.writeReg_register _ _ (by omega), Core.writeReg_register _ _ (by omega)]
  rfl

theorem Core.regs_movedPast (k : Core) (ra : Nat) (a b : Word) (y : Nat) :
    mapGet (fun _ => 0#32) (k.movedPast ra a b).regs y = if y = 0x20 + (ra + 1) % 16 then b
      else if y = 0x20 + ra then a else mapGet (fun _ => 0#32) k.regs y := by
  rw [Core.movedPast, mapGet_set, mapGet_set]

theorem Core.areg_movedPast (k : Core) {ra : Nat} (hra : ra < 16) (a b : Word) :
    (k.movedPast ra a b).areg ra = a.toNat ∧ (k.movedPast ra a b).areg (ra + 1) = b.toNat := by
  unfold Core.areg
  rw [Core.regs_movedPast, Core.regs_movedPast, if_neg (by omega), if_pos (by omega), if_pos rfl]
  exact ⟨rfl, rfl⟩

/-- The core with the taint of a register set, if a range event came. -/
def Core.tainted (k : Core) (n x : Nat) : Core := if 0 < n then k.setF x (k.freg x) true else k

theorem Core.fregsOnly_tainted (k : Core) (n x : Nat) : k.FregsOnly (k.tainted n x) := by
  unfold Core.tainted
  split
  · exact k.fregsOnly_setF ..
  · rfl

theorem Core.freg_tainted (k : Core) (n x y : Nat) : (k.tainted n x).freg y = k.freg y := by
  unfold Core.tainted
  split
  · rw [Core.freg_setF, Core.freg_mod]
    split
    · next h => rw [h]
    · rfl
  · rfl

theorem Core.ftaintOf_tainted (k : Core) (n x : Nat) {y : Nat} (hy : y < 64) :
    (k.tainted n x).ftaintOf y = if 0 < n ∧ y = x then true else k.ftaintOf y := by
  unfold Core.tainted
  by_cases h : 0 < n
  · simp [h, Core.ftaintOf_setF _ _ _ _ hy]
  · simp [h]

/-- The statement's form of what a requantisation leaves. -/
theorem State.Quantises.gives {s u : State} {x : Out} {c : CoreId} {k1 : Core} {b0 b1 : Bool} {P : Core → Prop}
    {q : Map Seq}
    (h : s.Quantises x c u k1 (b2n b0 + b2n b1))
    (hq : u.seqs = q) (hP : ∀ k', k' = { k1.advance with side := k'.side, fcDrawn := k'.fcDrawn } → P k') :
    ∃ t, x = .next t ∧ s.OnlyQuantised t c ∧ P (t.core c.val) ∧ t.seqs = q ∧
      ((b0 || b1) = false → t.log = s.log ∧ t.fns = s.fns ∧ t.sent = s.sent ∧ ∀ key, key ≠ K.fcSkipped → t.rd key = s.rd key) ∧
      ∀ i, (s.core c.val).inst = some i → (b0 || b1) = true → (t.rd (K.precStatus i.val)).testBit 2 = true := by
  obtain ⟨t, hx, honly, hcore, hseqs, hquiet, hbit⟩ := h
  refine ⟨t, hx, honly, hP _ hcore, hseqs.trans hq, fun hno => hquiet ?_, fun i hi hr => hbit ((range_events_pos b0 b1).mpr hr) i hi⟩
  have := (range_events_pos b0 b1).not.mpr (Bool.eq_false_iff.mp hno)
  omega

/-! ## The statement -/

theorem finOk_subs {f : FinF} {u : FinUse} {lfs subs subs' : List Nat} (h : finOk f u lfs subs = true) (hs : subs ⊆ subs') :
    finOk f u lfs subs' = true := by
  simp only [finOk, Bool.and_eq_true, List.contains_iff_mem] at h ⊢
  exact ⟨h.1, hs h.2⟩

/-- Settles O18: both forms of FQUANT by its frame and the core that it writes, FALT by the rule for a register. -/
theorem finisherQuantiseAndAlter : Obligations.FinisherQuantiseAndAlter := by
  intro s c g f hr hz k v nib fb qmax gen rb record b0 b1 elems scales len ranged taint back Gives
  have hlen : elems.length = len := length_packed (length_vals32 _) ..
  have hnib (h : fb = true → nib = true) : (!fb || nib) = true := by
    cases hf : fb
    · rfl
    · exact h hf
  have gives {k1 : Core} {P : Core → Prop} (h : s.Quantises (execFquant c g f s) c (s.kept2 c.val fb b0.record b1.record) k1
      (b2n b0.range + b2n b1.range)) (hP : ∀ k', k' = { k1.advance with side := k'.side, fcDrawn := k'.fcDrawn } → P k') :
      Gives P := h.gives (apply_ite State.seqs ..) hP
  clear_value Gives
  refine ⟨fun hok hfn => ?plain, fun a b pa pb hok hfn ha hb hal hpa hpb => ?narrow, fun hok => ?alter⟩
  case plain =>
    let val := leNat (elems ++ List.replicate (256 - elems.length) 0 ++ scales)
    let k1 := (k.backed fb f.fs2.toNat (leNat (b0.record ++ b1.record ++ rb.drop 144)) taint).setF f.fd.toNat val
      (taint || decide (0 < b2n b0.range + b2n b1.range))
    have hk1 : k.FregsOnly k1 := (Core.fregsOnly_backed ..).trans (Core.fregsOnly_setF ..)
    have hnf : decide (8 ≤ f.sub.toNat) = false := by
      have := finOk_sub hok
      simp at this ⊢; omega
    have hq : s.Quantises (execFquant c g f s) c (s.kept2 c.val fb b0.record b1.record) k1 (b2n b0.range + b2n b1.range) := by
      refine fin_quantises (v0 := v.take 64) (v1 := v.drop 64) hr ?_ (.inr hz) (State.kept2_frame ..) ?_ ?_
      · rw [hnf, Bool.and_eq_true]
        exact ⟨finOk_subs hok (by simp), hnib hfn⟩
      · exact (congrArg Core.inst hk1.eq :)
      · simp only [hnf, Bool.false_eq_true, if_false]
        rfl
    have hval : val % 2 ^ 4096 = leNat (elems ++ List.replicate (256 - len) 0 ++ scales) := by
      have hbound : (elems ++ List.replicate (256 - elems.length) 0 ++ scales).length ≤ 512 := by
        have : len ≤ 128 := by simp only [len]; split <;> decide
        simp only [List.length_append, List.length_replicate, scales, List.length_cons, List.length_nil]; omega
      exact (leNat_mod_register hbound).trans (by rw [hlen])
    have hrange : decide (0 < b2n b0.range + b2n b1.range) = ranged := by
      rw [Bool.eq_iff_iff, decide_eq_true_iff]; exact range_events_pos ..
    refine gives hq fun k' hk' => ⟨fun y hy => ⟨?_, ?_⟩, ?_⟩
    · have hf : k'.freg y = k1.freg y := by rw [hk']; rfl
      rw [hf, Core.freg_setF, hval, Core.freg_backed]
    · have ht : k'.ftaintOf y = k1.ftaintOf y := by rw [hk']; rfl
      rw [ht, Core.ftaintOf_setF _ _ _ _ hy, hrange, Core.ftaintOf_backed _ _ _ _ _ hy]
    · rw [hk', hk1.eq]
      rfl
  case narrow =>
    subst ha hb
    have hra : f.ra.toNat < 16 := f.ra.isLt
    let ks := (k.storeAll pa elems).storeAll pb scales
    let kb := ks.backed fb f.fs2.toNat (leNat (b0.record ++ b1.record ++ rb.drop 144)) taint
    let km := kb.movedPast f.ra.toNat (BitVec.ofNat 32 (k.areg f.ra.toNat + len))
      (BitVec.ofNat 32 (k.areg (f.ra.toNat + 1) + 2))
    let k1 := km.tainted (b2n b0.range + b2n b1.range) f.fs1.toNat
    have hpad : k.PadOnly ks := (Core.padOnly_storeAll ..).trans (Core.padOnly_storeAll ..)
    have hbk : ks.FregsOnly kb := Core.fregsOnly_backed ..
    have htk : km.FregsOnly k1 := Core.fregsOnly_tainted ..
    have hk1 : k.StoreOnly k1 := ((hpad.toStore.trans hbk.toStore).trans (Core.storeOnly_regs ..)).trans htk.toStore
    have hnf : decide (8 ≤ f.sub.toNat) = true := by
      have := finOk_sub hok
      simp at this ⊢; omega
    have hq : s.Quantises (execFquant c g f s) c (s.kept2 c.val fb b0.record b1.record) k1 (b2n b0.range + b2n b1.range) := by
      refine fin_quantises (v0 := v.take 64) (v1 := v.drop 64) hr ?_ (.inr hz) (State.kept2_frame ..) ?_ ?_
      · rw [hnf, Bool.and_eq_true]
        exact ⟨finOk_subs hok (by simp), hnib hfn⟩
      · exact (congrArg Core.inst hk1.eq :)
      · simp only [k, len, nib] at hal hpa hpb
        simp only [hnf, if_true, if_pos hal, hpa, hpb, Core.writeReg_twice _ hra]
        rfl
    refine gives hq fun k' hk' => ?_
    have hsp : k'.sp = ks.sp := by
      rw [hk', htk.eq]
      exact (congrArg Core.sp hbk.eq :)
    have hregs : k'.regs = km.regs := by rw [hk', htk.eq]; rfl
    have hareg (x : Nat) : k'.areg x = km.areg x := by rw [Core.areg, hregs, Core.areg]
    have hfreg (y : Nat) : k'.freg y = k1.freg y := by rw [hk']; rfl
    have hftaint (y : Nat) : k'.ftaintOf y = k1.ftaintOf y := by rw [hk']; rfl
    have hkfreg (y : Nat) : ks.freg y = k.freg y := by rw [hpad.eq]; rfl
    have hkftaint (y : Nat) : ks.ftaintOf y = k.ftaintOf y := by rw [hpad.eq]; rfl
    have hlen' : len ≤ 128 := by simp only [len]; split <;> decide
    have hapart : Apart pa elems.length := narrow_apart hpa (by omega)
    obtain ⟨hscale, helem, hout⟩ := storeAll_twice k hapart (cs := scales) (narrow_apart hpb (by decide : 2 ≤ 524288))
    rw [hlen] at helem hout
    refine ⟨fun q hq => ?_, fun p hp j hj => ?_, fun x hxa hxb => ?_, ?_, ?_, fun y h1 h2 => ?_, fun y hy => ⟨?_, ?_⟩, ?_⟩
    · rw [Core.bytesAt, hsp]; exact hscale q hq
    · rw [hsp]; exact helem p hp j hj
    · rw [hsp]; exact hout x hxa hxb
    · rw [hareg, (Core.areg_movedPast _ hra _ _).1, BitVec.toNat_ofNat]
    · rw [hareg, (Core.areg_movedPast _ hra _ _).2, BitVec.toNat_ofNat]
    · rw [hregs, Core.regs_movedPast, if_neg h2, if_neg h1]
      rw [show kb.regs = k.regs from (congrArg Core.regs hbk.eq :).trans (congrArg Core.regs hpad.eq :)]
    · rw [hfreg, Core.freg_tainted]
      exact (Core.freg_backed ..).trans (by rw [hkfreg])
    · rw [hftaint, Core.ftaintOf_tainted _ _ _ hy]
      simp only [range_events_pos]
      exact congrArg (ite _ _) ((Core.ftaintOf_backed _ _ _ _ _ hy).trans (by rw [hkftaint]))
    · rw [hk', hk1.eq]
      rfl
  case alter => exact fin_writes (accs := []) hr hok (.inl rfl) rfl

end Sys2Proof.Machine
end

section
/-! The sync instructions (O24). -/

namespace Sys2Proof.Machine

/-! ## Packets at the L port (R131) -/

/-- A packet handed to the core's own router, after a change of the core. -/
theorem State.onlyCoreAndPackets_inject (s : State) (c : CoreId) (k : Core) (p : Packet) :
    s.OnlyCoreAndPackets ((s.setCore c.val k).inject c.val portL p) c [p] :=
  ⟨rfl, fun d hd => State.core_setCore_ne s c.val k d hd, fun _ hr => mapGet_set_other _ _ _ hr, mapGet_set_self ..⟩

/-- A change of the core after its packets went out. -/
theorem State.OnlyCoreAndPackets.set {s t : State} {c : CoreId} {l : List Packet} (h : s.OnlyCoreAndPackets t c l)
    (k : Core) : s.OnlyCoreAndPackets (t.setCore c.val k) c l := by
  obtain ⟨heq, hcores, hrouters, hown⟩ := h
  refine ⟨?_, fun d hd => (State.core_setCore_ne t c.val k d hd).trans (hcores d hd), hrouters, hown⟩
  exact (congrArg (fun u : State => { u with cores := (t.setCore c.val k).cores }) heq :)

@[simp] theorem State.core_inject (s : State) (r port : Nat) (p : Packet) (d : Nat) :
    (s.inject r port p).core d = s.core d := rfl

variable {s : State} {c : CoreId} {g : Guard} {op : Nat} {legal ro : Bool} {accs : List Access} {body : Core → Res}

/-- A ready instruction that changes its core and sends one packet moves the core on. -/
theorem issueOut_sends {k : Core} {p : Packet} (hr : s.Ready c g) (hl : legal = true) (hn : ro = false)
    (hz : accs = [] ∨ s.rd K.hzMode = 0)
    (hb : body (s.core c.val) = .done ((s.setCore c.val k).inject c.val portL p)) :
    ∃ t, issueOut s c g op legal ro accs body = .next t ∧ s.OnlyCoreAndPackets t c [p] ∧ t.core c.val = k.advance :=
  ⟨_, issueOut_done hr hl hn hb hz, (s.onlyCoreAndPackets_inject c k p).set _, by simp⟩

/-! ## Owners of granules (R125, R224) -/

/-- The change of owner that a list of granules asks for, one after another. -/
def Core.askOwners (k : Core) (now owner : Nat) (gs : List Nat) : Core :=
  gs.foldl (fun k x => k.askOwner now owner x) k

/-- Asking for an owner touches nothing but the zeroing queue. -/
theorem Core.askOwner_frame (k : Core) (now owner g : Nat) :
    k.askOwner now owner g = { k with zeroq := (k.askOwner now owner g).zeroq } := by
  unfold Core.askOwner
  split <;> rfl

/-- Nothing that waits at the zeroing unit is dropped. -/
theorem Core.mem_zeroq_askOwner {k : Core} {now owner g : Nat} {z : ZeroReq} (h : z ∈ k.zeroq) :
    z ∈ (k.askOwner now owner g).zeroq := by
  unfold Core.askOwner
  split
  · exact h
  · exact List.mem_append_left _ h

/-- A granule with another owner then waits at the zeroing unit. -/
theorem Core.askOwner_asked (k : Core) (now : Nat) {owner g : Nat} (h : k.ownerOf g ≠ owner) :
    ∃ z ∈ (k.askOwner now owner g).zeroq, z.granule = g ∧ z.owner = owner := by
  unfold Core.askOwner
  by_cases hz : k.zeroq.any (fun z => z.granule == g && z.owner == owner) = true
  · obtain ⟨z, hmem, hzg⟩ := List.any_eq_true.mp hz
    rw [if_pos (.inr hz)]
    exact ⟨z, hmem, by simpa using hzg⟩
  · rw [if_neg (not_or.mpr ⟨h, hz⟩)]
    exact ⟨⟨g, owner, now⟩, by simp, rfl, rfl⟩

theorem Core.ownerOf_askOwner (k : Core) (now owner g x : Nat) : (k.askOwner now owner g).ownerOf x = k.ownerOf x := by
  rw [Core.askOwner_frame]; rfl

theorem Core.askOwners_frame (now owner : Nat) (gs : List Nat) (k : Core) :
    k.askOwners now owner gs = { k with zeroq := (k.askOwners now owner gs).zeroq } := by
  induction gs generalizing k with
  | nil => rfl
  | cons x gs ih =>
    rw [Core.askOwners, List.foldl_cons, ← Core.askOwners, ih, Core.askOwner_frame]

theorem Core.mem_zeroq_askOwners {now owner : Nat} {z : ZeroReq} (gs : List Nat) {k : Core} (h : z ∈ k.zeroq) :
    z ∈ (k.askOwners now owner gs).zeroq := by
  induction gs generalizing k with
  | nil => exact h
  | cons x gs ih => exact ih (Core.mem_zeroq_askOwner h)

/-- Every listed granule with another owner waits at the zeroing unit in the end. -/
theorem Core.askOwners_asked (now owner : Nat) (gs : List Nat) (k : Core) :
    ∀ x ∈ gs, k.ownerOf x ≠ owner → ∃ z ∈ (k.askOwners now owner gs).zeroq, z.granule = x ∧ z.owner = owner := by
  induction gs generalizing k with
  | nil => simp
  | cons y gs ih =>
    intro x hx hother
    rcases List.mem_cons.mp hx with rfl | hx
    · obtain ⟨z, hz, hzx⟩ := k.askOwner_asked now hother
      exact ⟨z, Core.mem_zeroq_askOwners gs hz, hzx⟩
    · exact ih _ x hx (by rwa [Core.ownerOf_askOwner])

/-- Settles O24: each instruction by its body's branch, GOWN by the zeroing queue its requests leave. -/
theorem synchronisationInstructions : Obligations.SynchronisationInstructions := by
  intro s c g f hr hres k
  simp only [exec_tack, exec_fenceI, exec_waitI, exec_noteI, exec_gown]
  refine ⟨fun hrs hem himm hres0 hq => ?tack, fun hrs himm => ⟨fun hnone => ?fence, fun hsome => ?fenceWaits⟩,
    fun hem hrs => ?wait, fun hrs hem => ⟨fun hlen => ?note, fun hlen => ?noteWaits⟩,
    fun gs hem hrs h15 h31 howner hmay hgs => ⟨fun hall => ?owned, fun hsome => ?asks⟩⟩
  case tack =>
    refine ⟨_, { s.packetFrom c.val 7 0 with group := 63 },
      issueOut_wait hr (by simp [hrs, hem, hres, himm]) rfl ?_, State.onlyCoreAndPackets_inject .., rfl, rfl, rfl,
      State.core_setCore ..⟩
    simp only [k] at hres0 hq
    simp only [hres0, hq, Bool.false_eq_true, if_false, Bool.not_true]
    rfl
  case fence =>
    refine issueOut_done hr (by simp [hrs, hres, himm]) rfl (if_neg ?_) (.inl rfl)
    simpa using hnone
  case fenceWaits =>
    refine issueOut_wait hr (by simp [hrs, hres, himm]) rfl (if_pos ?_)
    simpa using hsome
  case wait =>
    have hlegal : (f.emask == 0#8 && f.res == 0#6 && specOk f.rs.toNat) = true := by simp [hem, hres, hrs]
    exact ⟨_, issueOut_done hr hlegal rfl rfl (.inl rfl), (s.onlyCore_set c _).set _, by simp [k, Core.advance]⟩
  case note =>
    have hlegal : (f.rs == 0#6 && f.emask == 0#8 && f.res == 0#6) = true := by simp [hrs, hem, hres]
    exact ⟨_, issueOut_done hr hlegal rfl (if_neg (Nat.not_le.mpr hlen)) (.inl rfl), (s.onlyCore_set c _).set _, by simp [k, Core.advance]⟩
  case noteWaits => exact issueOut_wait hr (by simp [hrs, hem, hres]) rfl (if_pos hlen)
  all_goals
    have hin : (decide (0x200 ≤ bits f.imm32.toNat 9 0) && decide (bits f.imm32.toNat 9 0 ≤ 0x3FD)) = false := by
      simp; omega
    have hlegal : (f.emask == 0#8 && f.res == 0#6 && specIsA f.rs.toNat && bits f.imm32.toNat 15 10 == 0 &&
        bits f.imm32.toNat 31 22 == 0 &&
        !(decide (0x200 ≤ bits f.imm32.toNat 9 0) && decide (bits f.imm32.toNat 9 0 ≤ 0x3FD))) = true := by
      simp only [hem, hres, hrs, h15, h31, hin]; rfl
    have hnot : ¬(bits f.imm32.toNat 9 0 < 512 ∧ (!s.mayOwn (bits f.imm32.toNat 9 0) (s.core c.val).logInst) = true) := by
      rintro ⟨hlt, hno⟩
      simp [hmay hlt, k] at hno
    simp only [k] at hgs
  case owned =>
    refine issueOut_done hr hlegal rfl ?_ (.inl rfl)
    rw [if_neg hnot]
    simp only [hgs]
    exact if_pos (by simpa using hall)
  case asks =>
    obtain ⟨t, hx, honly, hcore⟩ : ∃ t, execGown c g f s = .next t ∧ s.OnlyCore t c ∧
        t.core c.val = k.askOwners (s.mclkAcc / 1000000) (bits f.imm32.toNat 9 0) gs := by
      refine issueOut_wait_core hr hlegal rfl ?_
      rw [if_neg hnot]
      simp only [hgs]
      exact if_neg (by simpa using hsome)
    refine ⟨t, hx, honly, ?_, ?_, ?_, ?_⟩
    · rw [hcore, Core.askOwners_frame]
    · exact fun z hz => hcore ▸ Core.mem_zeroq_askOwners gs hz
    · exact hcore ▸ Core.askOwners_asked _ _ gs k
    · rw [hcore]; exact Core.askOwners_frame ..

end Sys2Proof.Machine
end

section
/-! The queue instructions QWAIT and QEXP (O20). -/

namespace Sys2Proof.Machine

variable {s : State} {c : CoreId} {g : Guard}

/-! ## The head of a queue (R165) -/

theorem Core.popHead_cons {k : Core} {q : Nat} {e : QEntry} {rest : List QEntry} (h : k.queue q = e :: rest) :
    k.popHead q = { k.setQueue q rest with hzRanges := k.hzRanges.filter fun r => !(r.q == q && r.id == e.id) } := by
  simp [Core.popHead, h]

theorem Core.queue_popHead {k : Core} {q : Nat} {e : QEntry} {rest : List QEntry} (h : k.queue q = e :: rest) (r : Nat) :
    (k.popHead q).queue r = if r = q then rest else k.queue r := by
  rw [Core.popHead_cons h]
  exact Core.queue_setQueue ..

/-- A pop touches the queues and the hazard ranges. -/
theorem Core.popHead_frame (k : Core) (q : Nat) :
    k.popHead q = { k with queues := (k.popHead q).queues, hzRanges := (k.popHead q).hzRanges } := by
  unfold Core.popHead
  split <;> rfl

/-- A scalar write touches the scalar registers, the predicates and ITAINT. -/
theorem Core.writeReg_frame (k : Core) (sp : Nat) (v : Word) : k.writeReg sp v =
    { k with regs := (k.writeReg sp v).regs, preds := (k.writeReg sp v).preds, itaint := (k.writeReg sp v).itaint } := by
  unfold Core.writeReg Core.setPred
  split_ifs <;> rfl

@[simp] theorem Core.queue_writeReg (k : Core) (sp : Nat) (v : Word) (q : Nat) : (k.writeReg sp v).queue q = k.queue q := by
  rw [Core.writeReg_frame]; rfl

theorem Core.regs_writeReg (k : Core) {sp : Nat} (v : Word) {x : Nat} (hx : x < 0x30) :
    mapGet (fun _ => 0#32) (k.writeReg sp v).regs x = if x = sp then v else mapGet (fun _ => 0#32) k.regs x := by
  by_cases hreg : sp < 0x30
  · rw [show k.writeReg sp v = _ from if_pos hreg]
    exact mapGet_set ..
  · have hkeep : (k.writeReg sp v).regs = k.regs := by
      unfold Core.writeReg Core.setPred
      rw [if_neg hreg]
      split_ifs <;> rfl
    rw [hkeep, if_neg (by omega)]

theorem Core.itaint_writeReg (k : Core) {sp : Nat} (v : Word) (h : sp ≠ 0x3D) : (k.writeReg sp v).itaint = k.itaint := by
  unfold Core.writeReg Core.setPred
  split_ifs <;> rfl

/-! ## Arrival counters (R215) -/

/-- With no counter for the pair and room for one, a new wait is the counter's first. -/
theorem Core.arrivalFor_fresh {k : Core} {group tag : Nat} (hlen : k.arrivals.length < 32)
    (hnew : ∀ a ∈ k.arrivals, a.group ≠ group ∨ a.tag ≠ tag) : k.arrivalFor group tag = some ⟨group, tag, [], []⟩ := by
  have hfind : (k.arrivals.find? fun a => a.group == group && a.tag == tag) = none := by
    simpa [List.find?_eq_none, Decidable.imp_iff_not_or] using hnew
  simp [Core.arrivalFor, hfind, hlen]

/-- A counter with no packet and one wait for packets stands last, unsettled. -/
theorem Core.putArrival_waiting {k : Core} {group tag : Nat} {w : ArrWait} (hw : 0 < w.count)
    (hnew : ∀ a ∈ k.arrivals, a.group ≠ group ∨ a.tag ≠ tag) :
    k.putArrival ⟨group, tag, [], [w]⟩ = { k with arrivals := k.arrivals ++ [⟨group, tag, [], [w]⟩] } := by
  have hsettle : settleArrival k ⟨group, tag, [], [w]⟩ 1 = (k, ⟨group, tag, [], [w]⟩) := by
    simp only [settleArrival]
    exact if_neg (Nat.not_le.mpr hw)
  have hrest : (k.arrivals.filter fun b => !(b.group == group && b.tag == tag)) = k.arrivals := by
    rw [List.filter_eq_self]
    simpa [Decidable.imp_iff_not_or] using hnew
  simp only [Core.putArrival, List.length_singleton, hsettle, hrest, List.isEmpty_nil, List.isEmpty_cons, Bool.and_false,
    Bool.false_eq_true, if_false]

/-- What QWAIT does to its core with a good completion word (R165, R166). -/
def Core.afterWait (k : Core) (f : MovF) (w : Word64) : Core :=
  let k2 := ((k.popHead f.qa.toNat).writeReg f.rx.toNat (BitVec.ofNat 32 (w.toNat % 2 ^ 32))).writeReg f.ry.toNat
    (BitVec.ofNat 32 (wBytes w))
  { k2 with itaint := k2.itaint || (wSource w == 4 && wTaint w) }

theorem Core.afterWait_frame (k : Core) (f : MovF) (w : Word64) : k.afterWait f w = { k with
    queues := (k.afterWait f w).queues, hzRanges := (k.afterWait f w).hzRanges, regs := (k.afterWait f w).regs
    preds := (k.afterWait f w).preds, itaint := (k.afterWait f w).itaint } := by
  unfold Core.afterWait
  rw [Core.writeReg_frame, Core.writeReg_frame (k.popHead f.qa.toNat), Core.popHead_frame]

theorem Core.queue_afterWait {k : Core} {f : MovF} {e : QEntry} {rest : List QEntry} (h : k.queue f.qa.toNat = e :: rest)
    (w : Word64) (q : Nat) : (k.afterWait f w).queue q = if q = f.qa.toNat then rest else k.queue q := by
  refine Eq.trans ?_ (Core.queue_popHead h q)
  exact (Core.queue_writeReg ..).trans (Core.queue_writeReg ..)

/-- The registers after QWAIT: `ry` was written last. -/
theorem Core.regs_afterWait (k : Core) (f : MovF) (w : Word64) {x : Nat} (hx : x < 0x30) :
    mapGet (fun _ => 0#32) (k.afterWait f w).regs x =
      if x = f.ry.toNat then BitVec.ofNat 32 (wBytes w) else if x = f.rx.toNat then BitVec.ofNat 32 w.toNat
      else mapGet (fun _ => 0#32) k.regs x := by
  have hword : BitVec.ofNat 32 (w.toNat % 2 ^ 32) = BitVec.ofNat 32 w.toNat := by
    apply BitVec.eq_of_toNat_eq; simp
  have hpop : (k.popHead f.qa.toNat).regs = k.regs := by rw [Core.popHead_frame]
  refine (Core.regs_writeReg _ _ hx).trans ?_
  rw [Core.regs_writeReg _ _ hx, hword, hpop]

theorem Core.itaint_afterWait (k : Core) {f : MovF} (w : Word64) (hx : f.rx.toNat ≠ 0x3D) (hy : f.ry.toNat ≠ 0x3D) :
    (k.afterWait f w).itaint = (k.itaint || (wSource w == 4 && wTaint w)) := by
  have hpop : (k.popHead f.qa.toNat).itaint = k.itaint := by rw [Core.popHead_frame]
  simp only [Core.afterWait, Core.itaint_writeReg _ _ hy, Core.itaint_writeReg _ _ hx, hpop]

/-- Settles O20: QWAIT by the entry at the head of its queue, QEXP by the counter its pair then gets. -/
theorem queueWaitPopsAndExpectReserves : Obligations.QueueWaitPopsAndExpectReserves := by
  refine ⟨?qwait, ?qexp⟩
  case qwait =>
    intro s c g f e rest hr hok hrx hry hwx hwy k hq
    simp only [exec_qwait]
    have hlegal : (movOk f [true, false, false, false, true, false, false, false, true, true] && specOk f.rx.toNat &&
        specOk f.ry.toNat) = true := by simp [hok, hrx, hry]
    have hwritable : (!specWritable f.rx.toNat || !specWritable f.ry.toNat) = false := by simp [hwx, hwy]
    simp only [k] at hq
    refine ⟨fun w hk hgood => ?good, fun w hk hst htol => ?bad, fun set hk => ?bolts, fun hk => ?waits⟩
    case good =>
      have hnot : ¬(wStatus w ≠ 0 ∧ f.tol = 0#1) := by
        rintro ⟨hst, htol⟩
        rcases hgood with h | h
        · exact hst h
        · rw [h] at htol; exact absurd htol (by decide)
      obtain ⟨t, hx, honly, hcore⟩ : ∃ t, execQwait c g f s = .next t ∧ s.OnlyCore t c ∧
          t.core c.val = (k.afterWait f w).advance := by
        refine ⟨_, issueOut_done hr hlegal hwritable ?_ (.inl rfl), (s.onlyCore_set c (k.afterWait f w)).set _, by simp⟩
        simp only [hq, hk]
        exact if_neg hnot
      refine ⟨t, hx, honly, ?_⟩
      rw [hcore]
      refine ⟨?_, fun q hne => ?_, fun hy => ?_, fun hx hne => ?_, fun x hx hnx hny => ?_,
        fun hx hy => k.itaint_afterWait w hx hy, ?_⟩
      · exact (Core.queue_afterWait hq w _).trans (if_pos rfl)
      · exact (Core.queue_afterWait hq w q).trans (if_neg hne)
      · exact (k.regs_afterWait f w hy).trans (if_pos rfl)
      · exact (k.regs_afterWait f w hx).trans ((if_neg (by rwa [BitVec.toNat_inj])).trans (if_pos rfl))
      · exact (k.regs_afterWait f w hx).trans ((if_neg hny).trans (if_neg hnx))
      · exact congrArg Core.advance (k.afterWait_frame f w)
    case bad =>
      refine ⟨_, issueOut_trapIn (u := s.setCore c.val ((s.core c.val).popHead f.qa.toNat))
        (t := { code := 5, status := wStatus w, queue := f.qa.toNat }) hr hlegal hwritable ?_, ?_⟩
      · simp only [hq, hk]
        exact if_pos ⟨hst, htol⟩
      · rw [State.trap_core, State.core_setCore]
        refine ⟨(Core.queue_popHead hq _).trans (if_pos rfl), rfl, rfl, rfl, ?_, ?_⟩
        · rw [Core.popHead_frame]
        · rw [Core.popHead_frame]
    case bolts =>
      refine issueOut_done hr hlegal hwritable ?_ (.inl rfl)
      simp only [hq, hk]
    case waits =>
      refine issueOut_wait hr hlegal hwritable ?_
      rcases hk with hk | hk <;> simp only [hq, hk]
  case qexp =>
    intro s c g f hr hok hrx k n hn0 hn hroom hlen hnew
    simp only [exec_qexp]
    have hlegal : (movOk f [true, false, false, false, true, true, false, false, false, false, true] &&
        specOk f.rx.toNat) = true := by simp [hok, hrx]
    have hcount : ¬((s.readReg k f.rx.toNat).toNat = 0 ∨ 2 ^ 24 - 1 < (s.readReg k f.rx.toNat).toNat) := by
      simp only [n] at hn0 hn; omega
    obtain ⟨t, hx, honly, hcore⟩ : ∃ t, execQexp c g f s = .next t ∧ s.OnlyCore t c ∧ t.core c.val = Core.advance
        { k.reserve f.qa.toNat (.word none) with
          arrivals := k.arrivals ++ [⟨f.group.toNat, f.imm16.toNat, [], [⟨f.qa.toNat, k.nextId, n⟩]⟩] } := by
      refine issueOut_done_core hr hlegal rfl (.inl rfl) ?_
      rw [if_neg hcount]
      simp only [k] at hroom hlen hnew
      simp only [hroom, Bool.not_true, Bool.false_eq_true, if_false, Core.arrivalFor_fresh hlen hnew, List.nil_append]
      rw [Core.putArrival_waiting (by exact hn0) (by exact hnew)]
      rfl
    refine ⟨t, hx, honly, ?_⟩
    rw [hcore]
    exact ⟨(k.queue_reserve ..).trans (if_pos rfl), fun q hne => (k.queue_reserve ..).trans (if_neg hne), rfl, rfl⟩

end Sys2Proof.Machine
end

section
/-! The sampling instructions (O25). -/

namespace Sys2Proof.Machine

variable {s : State} {c : CoreId} {g : Guard}

/-! ## A completion that is ready at once (R163, R164) -/

theorem Core.queue_congr {k k' : Core} (h : k'.queues = k.queues) (q : Nat) : k'.queue q = k.queue q :=
  congrArg (fun m => mapGet (fun _ => []) m q) h

/-- Reserve an entry and post it in the same step. -/
def Core.completeNow (k : Core) (q : Nat) (w : Word64) : Core := (k.reserve q (.word none)).postWord q k.nextId w

theorem Core.queue_completeNow (k : Core) (q : Nat) (w : Word64) (r : Nat) :
    (k.completeNow q w).queue r = if r = q then
      (k.queue q).map (fun e => if e.id = k.nextId then { e with kind := .word (some w) } else e) ++
        [⟨k.nextId, .word (some w)⟩] else k.queue r := by
  refine (Core.queue_setQueue ..).trans ?_
  by_cases hr : r = q
  · simp only [if_pos hr, Core.queue_reserve, if_pos, List.map_append, List.map_cons, List.map_nil]
  · rw [if_neg hr, if_neg hr, Core.queue_reserve, if_neg hr]

/-- The new entry is the queue's last, and ready. -/
theorem Core.getLast?_completeNow (k : Core) (q : Nat) (w : Word64) :
    ((k.completeNow q w).queue q).getLast? = some ⟨k.nextId, .word (some w)⟩ := by
  rw [Core.queue_completeNow, if_pos rfl, List.getLast?_concat]

theorem Core.length_queue_completeNow (k : Core) (q : Nat) (w : Word64) :
    ((k.completeNow q w).queue q).length = (k.queue q).length + 1 := by
  simp [Core.queue_completeNow]

theorem Core.completeNow_frame (k : Core) (q : Nat) (w : Word64) :
    k.completeNow q w = { k with queues := (k.completeNow q w).queues, nextId := k.nextId + 1 } := rfl

/-! ## Candidates (R225) -/

theorem length_candBytes (x : Nat × Nat) : (candBytes x).length = 8 := by
  simp [candBytes, length_leBytes]

theorem length_flatMap_candBytes (l : List (Nat × Nat)) : (l.flatMap candBytes).length = 8 * l.length := by
  simp [List.length_flatMap, length_candBytes, mul_comm]

/-! ## CSEND (R227) -/

/-- The core after CSEND: no buffer, and its completion the last of its queue. -/
theorem Core.afterSend (k : Core) (q : Nat) (w : Word64) :
    let k' := Core.advance { k.completeNow q w with cand := none }
    k' = { k.advance with cand := none, queues := k'.queues, nextId := k.nextId + 1 } ∧
      (k'.queue q).getLast? = some ⟨k.nextId, .word (some w)⟩ := by
  obtain ⟨Q, hframe⟩ : ∃ Q, k.completeNow q w = { k with queues := Q, nextId := k.nextId + 1 } := ⟨_, rfl⟩
  have hlast := k.getLast?_completeNow q w
  rw [hframe] at hlast ⊢
  exact ⟨rfl, hlast⟩

/-- CSEND of the core's own slot: the buffer goes out and empties, its completion is ready. -/
theorem execCsend_sends {f : SampF} (hr : s.Ready c g)
    (hlegal : (f.fs == 0#6 && f.rd == 0#6 && f.mcount == 0#9 && f.k == 0#9) = true) :
    let k := s.core c.val
    let slot := f.imm13.toNat
    let b := k.cand.getD ⟨slot, [], false⟩
    let bytes := b.cands.flatMap candBytes
    b.slot = slot → k.roomFor f.q.toNat 1 = true →
    ∃ t, execCsend c g f s = .next t ∧
      s.OnlyCoreAndPackets t c [{ s.packetFrom c.val 3 1 with
        group := f.group.toNat, tag := slot, taint := b.taint, addr := 0xC00000, payload := bytes }] ∧
      t.core c.val =
        Core.advance { k.completeNow f.q.toNat (complWord slot 0 3 false bytes.length) with cand := none } := by
  intro k slot b bytes hslot hroom
  refine issueOut_sends hr hlegal rfl (.inl rfl) ?_
  simp only [k] at hroom
  simp only [hroom, Bool.not_true, Bool.false_eq_true, if_false]
  exact if_neg (not_not.mpr hslot)

/-! ## SPICK (R229) -/

/-- The core after SPICK has drawn d from its merge entry with taint t. -/
def Core.afterPick (k : Core) (f : SampF) (d : Nat × Bool) (t : Bool) : Core :=
  let k1 := (k.popHead f.q.toNat).writeReg f.rd.toNat (BitVec.ofNat 32 (d.1 % 2 ^ 24 + b2n t * 2 ^ 31))
  { k1 with
    merge := k1.merge.filter fun b => b.slot != f.imm13.toNat
    picks := mapSet (fun _ => 0) k1.picks f.imm13.toNat (d.1 % 2 ^ 24 + 1 + b2n t * 2 ^ 31 + b2n d.2 * 2 ^ 32) }

/-- The register's part of SPICK's effect: the merge entry and the pick left out. -/
theorem Core.wrote_afterPick (k : Core) {f : SampF} (d : Nat × Bool) (t : Bool) (hw : specWritable f.rd.toNat = true) :
    (k.popHead f.q.toNat).Wrote { (k.afterPick f d t).advance with merge := k.merge, picks := k.picks } f.rd.toNat
      (BitVec.ofNat 32 (d.1 % 2 ^ 24 + b2n t * 2 ^ 31)) := by
  have hsame : ({ (k.afterPick f d t).advance with merge := k.merge, picks := k.picks } : Core) =
      ((k.popHead f.q.toNat).writeReg f.rd.toNat (BitVec.ofNat 32 (d.1 % 2 ^ 24 + b2n t * 2 ^ 31))).advance := by
    unfold Core.afterPick
    rw [Core.writeReg_frame, Core.popHead_frame]
    rfl
  rw [hsame]
  exact wrote_writeReg _ _ hw

theorem Core.merge_afterPick (k : Core) (f : SampF) (d : Nat × Bool) (t : Bool) :
    (k.afterPick f d t).merge = k.merge.filter fun b => b.slot != f.imm13.toNat := by
  unfold Core.afterPick
  rw [Core.writeReg_frame, Core.popHead_frame]

theorem Core.picks_afterPick (k : Core) (f : SampF) (d : Nat × Bool) (t : Bool) (x : Nat) :
    mapGet (fun _ => 0) (k.afterPick f d t).picks x = if x = f.imm13.toNat then
      d.1 % 2 ^ 24 + 1 + b2n t * 2 ^ 31 + b2n d.2 * 2 ^ 32 else mapGet (fun _ => 0) k.picks x := by
  unfold Core.afterPick
  rw [Core.writeReg_frame, Core.popHead_frame]
  exact mapGet_set ..

theorem Core.queue_afterPick {k : Core} {f : SampF} {e : QEntry} {rest : List QEntry} (h : k.queue f.q.toNat = e :: rest)
    (d : Nat × Bool) (t : Bool) (q : Nat) : (k.afterPick f d t).queue q = if q = f.q.toNat then rest else k.queue q := by
  have hkeep : (k.afterPick f d t).queues = (k.popHead f.q.toNat).queues := by
    unfold Core.afterPick
    rw [Core.writeReg_frame]
  exact (Core.queue_congr hkeep q).trans (Core.queue_popHead h q)

/-- The chosen token, one more than it and with its taint, is the low word of the pick. -/
theorem pick_low (d : Nat × Bool) (t : Bool) :
    (d.1 % 2 ^ 24 + 1 + b2n t * 2 ^ 31 + b2n d.2 * 2 ^ 32) % 2 ^ 32 = d.1 % 2 ^ 24 + b2n t * 2 ^ 31 + 1 := by
  have ht : b2n t ≤ 1 := by cases t <;> decide
  rw [Nat.add_mul_mod_self_right]
  omega

/-- What SPICK draws from the merge entry of its slot: the token, and whether its penalties were inexact. -/
def State.drawAt (s : State) (k : Core) (slot : Nat) : Nat × Bool :=
  if (k.mergeOf slot).cands = [] then (0, false) else spickDraw (s.drawOf (s.planOf k) slot) (k.mergeOf slot).cands

/-- The taint of what SPICK draws. -/
def Core.drawTaint (k : Core) (slot : Nat) (w : Word64) : Bool :=
  (k.mergeOf slot).taint || wTaint w || k.itaint || (k.mergeOf slot).cands.isEmpty

theorem spickGo_eq (s : State) (c : CoreId) (f : SampF) (w : Word64) :
    let k := s.core c.val
    let d := s.drawAt k f.imm13.toNat
    let after := k.afterPick f d (k.drawTaint f.imm13.toNat w)
    spickGo s c.val k f w = .done (if d.2 then (s.setCore c.val after).bump (K.penaltyInexact k.logInst) 64 1
      else s.setCore c.val after) := by
  intro k d after
  have hd : (if (k.mergeOf f.imm13.toNat).cands.isEmpty then (0, false)
      else spickDraw (s.drawOf (s.planOf k) f.imm13.toNat) (k.mergeOf f.imm13.toNat).cands) = d := by
    simp only [d, State.drawAt, List.isEmpty_iff]
  unfold spickGo
  simp only [after, Core.afterPick, Core.drawTaint]
  rw [hd]

/-- A new core, an entry counted where `b` says so, and the core moved on. -/
theorem Core.counted_pick (k : Core) (s : State) (c : CoreId) (after : Core) (b : Bool) :
    let u := if b then (s.setCore c.val after).bump (K.penaltyInexact k.logInst) 64 1 else s.setCore c.val after
    let t := u.setCore c.val (u.core c.val).advance
    t = { s with cores := t.cores, dict := t.dict } ∧ (∀ x, x ≠ c.val → t.core x = s.core x) ∧
      t.core c.val = after.advance ∧ ∀ key, t.rd key = if b = true ∧ key = K.penaltyInexact k.logInst then
        (s.rd (K.penaltyInexact k.logInst) + 1) % 2 ^ 64 else s.rd key := by
  cases b
  · exact ⟨rfl, fun x hx => by simp [State.core_setCore_ne _ _ _ _ hx], by simp, fun key => by simp⟩
  · exact ⟨rfl, fun x hx => by simp [State.core_setCore_ne _ _ _ _ hx], by simp, fun key => by simp [State.rd_wr_if]⟩

/-- SPICK on the selector with its slot's arrival at the head of its queue (R229). -/
theorem execSpick_draws {f : SampF} {e : QEntry} {rest : List QEntry} {w : Word64} (hr : s.Ready c g)
    (hlegal : (f.fs == 0#6 && f.mcount == 0#9 && f.k == 0#9 && f.group == 0#6 && specOk f.rd.toNat) = true)
    (hwritable : (!specWritable f.rd.toNat) = false) (hsel : (s.core c.val).selector = true)
    (hq : (s.core c.val).queue f.q.toNat = e :: rest) (hkind : e.kind = .word (some w)) (hst : wStatus w = 0)
    (hsrc : wSource w = 4) (htag : wTag w = f.imm13.toNat) :
    let k := s.core c.val
    let d := s.drawAt k f.imm13.toNat
    ∃ t, execSpick c g f s = .next t ∧ t = { s with cores := t.cores, dict := t.dict } ∧
      (∀ x, x ≠ c.val → t.core x = s.core x) ∧
      t.core c.val = (k.afterPick f d (k.drawTaint f.imm13.toNat w)).advance ∧
      ∀ key, t.rd key = if d.2 = true ∧ key = K.penaltyInexact k.logInst then
        (s.rd (K.penaltyInexact k.logInst) + 1) % 2 ^ 64 else s.rd key := by
  intro k d
  have hsrc' : ¬(wSource w ≠ 4 ∨ wTag w ≠ f.imm13.toNat) := not_or.mpr ⟨not_not.mpr hsrc, not_not.mpr htag⟩
  have hx : ∀ u, spickGo s c.val (s.core c.val) f w = .done u →
      execSpick c g f s = .next (u.setCore c.val (u.core c.val).advance) := by
    intro u hu
    refine issueOut_done hr hlegal hwritable ?_ (.inl rfl)
    simp only [hq, hkind, hst, hsel, ne_eq, not_true_eq_false, if_false, if_neg hsrc', Bool.not_true, Bool.false_eq_true]
    exact hu
  exact ⟨_, hx _ (spickGo_eq s c f w), k.counted_pick s c (k.afterPick f d (k.drawTaint f.imm13.toNat w)) d.2⟩

/-- Settles O25: each instruction by its body's branch. -/
theorem samplingInstructions : Obligations.SamplingInstructions := by
  intro s c g f hr k slot
  simp -zeta only [exec_ctop, exec_csend, exec_spick, exec_sacc]
  refine ⟨fun hq hgr hrd hk hfs => ?ctop, fun hfs hrd hm hk => ?csend, ?spick,
    fun hfs hm hq hgr hk hrd hw hsel => ?sacc⟩
  case ctop =>
    have hlegal : (f.q == 0#3 && f.group == 0#6 && specOk f.rd.toNat && decide (f.k.toNat ≤ 256) &&
        decide (f.fs.toNat + f.mcount.toNat + 1 ≤ 64)) = true := by simp [hq, hgr, hrd, hk, hfs]
    refine ⟨fun hslot => ?merges, fun hslot hcands => ?other⟩
    case merges =>
      have hnot : ¬((k.cand.getD ⟨slot, [], false⟩).slot ≠ slot ∧
          (!(k.cand.getD ⟨slot, [], false⟩).cands.isEmpty) = true) := by
        rintro ⟨hne, hcands⟩
        rcases hslot with h | h
        · exact hne h
        · simp [h] at hcands
      exact ⟨_, issueOut_done hr hlegal rfl (if_neg hnot) (.inl rfl), (s.onlyCore_set c _).set _,
        (State.core_setCore ..).trans (congrArg Core.advance (State.core_setCore ..))⟩
    case other =>
      refine issueOut_fail_core hr hlegal rfl (if_pos ⟨hslot, ?_⟩)
      simpa [k, slot] using hcands
  case csend =>
    have hlegal : (f.fs == 0#6 && f.rd == 0#6 && f.mcount == 0#9 && f.k == 0#9) = true := by simp [hfs, hrd, hm, hk]
    refine ⟨fun hslot hroom => ?sends, fun hslot => issueOut_fail_core hr hlegal rfl (if_pos hslot)⟩
    obtain ⟨t, hx, hsent, hcore⟩ := execCsend_sends hr hlegal hslot hroom
    rw [length_flatMap_candBytes] at hcore
    refine ⟨t, hx, hsent, ?_⟩
    rw [hcore]
    exact k.afterSend ..
  case spick =>
    intro e rest hfs hm hk hgr hrd hw hsel hq
    have hlegal : (f.fs == 0#6 && f.mcount == 0#9 && f.k == 0#9 && f.group == 0#6 && specOk f.rd.toNat) = true := by
      simp [hfs, hm, hk, hgr, hrd]
    have hwritable : (!specWritable f.rd.toNat) = false := by simp [hw]
    simp only [k] at hsel hq
    refine ⟨?waits, ?draws⟩
    case waits =>
      intro hkind
      refine issueOut_wait hr hlegal hwritable ?_
      simp only [hq, hkind, hsel, if_true]
    case draws =>
      intro w hkind hst hsrc htag b d taint
      let after := k.afterPick f d taint
      obtain ⟨t, hx, honly, hother, hcore, hbump⟩ := execSpick_draws hr hlegal hwritable hsel hq hkind hst hsrc htag
      change ∀ key, t.rd key = if d.2 = true ∧ key = K.penaltyInexact k.logInst then
          (s.rd (K.penaltyInexact k.logInst) + 1) % 2 ^ 64 else s.rd key at hbump
      change t.core c.val = (k.afterPick f d taint).advance at hcore
      clear_value d taint
      refine ⟨t, hx, ?_, fun x hne => ?_, ?_, ?_, ?_, ?_, fun x hne => ?_, fun hd2 key => ?_, fun hd2 => ⟨?_, fun key hkey => ?_⟩⟩
      · exact honly
      · exact hother x hne
      · rw [hcore]; exact k.wrote_afterPick d taint hw
      · rw [hcore]; exact (Core.queue_afterPick hq d taint _).trans (if_pos rfl)
      · rw [hcore]; exact k.merge_afterPick f d taint
      · have hpick : mapGet (fun _ => 0) (k.afterPick f d taint).advance.picks slot =
            d.1 % 2 ^ 24 + 1 + b2n taint * 2 ^ 31 + b2n d.2 * 2 ^ 32 := (k.picks_afterPick f d taint slot).trans (if_pos rfl)
        rw [hcore, hpick]
        exact pick_low d taint
      · have hkeep := k.picks_afterPick f d taint x
        rw [if_neg (by exact hne)] at hkeep
        rw [hcore]
        exact hkeep
      · rw [hbump, if_neg (by simp [hd2])]
      · rw [hbump, if_pos ⟨hd2, rfl⟩]
      · rw [hbump, if_neg (by simp [hkey])]
  case sacc =>
    have hlegal : (f.fs == 0#6 && f.mcount == 0#9 && f.q == 0#3 && f.group == 0#6 && f.k == 0#9 && specOk f.rd.toNat) =
        true := by simp [hfs, hm, hq, hgr, hk, hrd]
    have hwritable : (!specWritable f.rd.toNat) = false := by simp [hw]
    simp only [k] at hsel
    refine ⟨fun hall => ?counts, fun hsome => ?waits⟩
    case counts =>
      obtain ⟨t, hx, honly, hcore⟩ : ∃ t, execSacc c g f s = .next t ∧ s.OnlyCore t c ∧ t.core c.val =
          (k.writeReg f.rd.toNat (BitVec.ofNat 32 (k.accepted ((s.planOf k).verifyAt slot)))).advance := by
        refine issueOut_done_core hr hlegal hwritable (.inl rfl) ?_
        simp only [hsel, Bool.not_true, Bool.false_eq_true, if_false]
        refine if_neg ?_
        simp only [Bool.not_eq_true, List.any_eq_false]
        intro x hx
        simpa using hall x hx
      exact ⟨t, hx, honly, hcore ▸ wrote_writeReg k _ hw⟩
    case waits =>
      refine issueOut_wait hr hlegal hwritable ?_
      simp only [hsel, Bool.not_true, Bool.false_eq_true, if_false]
      refine if_pos (List.any_eq_true.mpr ?_)
      obtain ⟨x, hx, hnone⟩ := hsome
      exact ⟨x, hx, by simpa using hnone⟩

end Sys2Proof.Machine
end

section
/-! QPUSH and PWALK: a descriptor queued on its channel, or its refusal (O21). -/

namespace Sys2Proof.Machine

variable {s : State} {c : CoreId} {g : Guard}

/-! ## Reading the descriptor (R213) -/

/-- A corrected read touches one core. -/
theorem State.onlyCore_fixRead (s : State) (c : CoreId) (a n : Nat) : s.OnlyCore (s.fixRead c.val a n) c := by
  unfold State.fixRead
  split
  · exact ⟨rfl, fun _ _ => rfl⟩
  · exact s.onlyCore_set c _

section
variable (k : Core) (a n : Nat)

@[simp] theorem Core.queue_readFix (q : Nat) : (k.readFix a n).queue q = k.queue q := by
  rw [Core.readFix_frame]; rfl

@[simp] theorem Core.dma_readFix : (k.readFix a n).dma = k.dma := by rw [Core.readFix_frame]
@[simp] theorem Core.dmaOrder_readFix : (k.readFix a n).dmaOrder = k.dmaOrder := by rw [Core.readFix_frame]
@[simp] theorem Core.nextId_readFix : (k.readFix a n).nextId = k.nextId := by rw [Core.readFix_frame]
@[simp] theorem Core.regs_readFix : (k.readFix a n).regs = k.regs := by rw [Core.readFix_frame]
@[simp] theorem Core.pc_advance_readFix : (k.readFix a n).advance.pc = k.advance.pc := by
  rw [Core.readFix_frame]; rfl

@[simp] theorem Core.roomFor_readFix (q m : Nat) : (k.readFix a n).roomFor q m = k.roomFor q m := by
  simp [Core.roomFor]

@[simp] theorem Core.dmaTurn_readFix (d : DDesc) : (k.readFix a n).dmaTurn d = k.dmaTurn d := by
  simp [Core.dmaTurn]

end

theorem Core.dmaTurn_iff (k : Core) (d : DDesc) :
    k.dmaTurn d = true ↔ d.ordered = false ∨ ∀ x ∈ k.dma, ∀ e ∈ x.2, d.order ≤ e.order := by
  simp [Core.dmaTurn]

/-! ## What a descriptor becomes (R118, R120) -/

/-- The check of a QPUSH or PWALK descriptor. -/
def State.pushCheck (s : State) (k : Core) (walk : Bool) (bs : List Byte) : DCheck :=
  if walk then s.walkCheck k (descWord bs 0) (descWord bs 1) (descWord bs 2) (descWord bs 3)
  else s.descCheck k (descWord bs 0) (descWord bs 1) (descWord bs 2) (descWord bs 3)

/-- What validation finds does not depend on the errors that the descriptor's read corrects. -/
theorem State.pushCheck_fixRead (s : State) (c : CoreId) (k : Core) (a n : Nat) (walk : Bool) (bs : List Byte) :
    (s.fixRead c.val a n).pushCheck (k.readFix a n) walk bs = s.pushCheck k walk bs := by
  rw [Core.readFix_frame]
  unfold State.fixRead
  cases walk
  · split <;> rfl
  · split <;> rfl

/-- The descriptor that a core queues when it accepts these bytes. -/
def Core.descOf (k : Core) (walk : Bool) (bs : List Byte) : DDesc :=
  { order := k.dmaOrder, op := bits (descWord bs 0) 3 0, srcSpace := bits (descWord bs 0) 5 4,
    dstSpace := bits (descWord bs 0) 7 6, ordered := bit (descWord bs 0) 11, tag := bits (descWord bs 0) 31 16,
    length := if walk then 0 else bits (descWord bs 0) 55 32, src := descWord bs 1, dst := descWord bs 2,
    q := bits (descWord bs 0) 10 8, id := k.nextId,
    walk := if walk then [descWord bs 0, descWord bs 1, descWord bs 2, descWord bs 3] else [] }

/-- The descriptor that stands for a refusal which is not yet due. -/
def Core.refusedDesc (k : Core) (walk : Bool) (bs : List Byte) (st : Nat) : DDesc :=
  { k.descOf walk bs with op := 4, srcSpace := 0, dstSpace := 0, length := 0, refused := st }

@[simp] theorem Core.descOf_readFix (k : Core) (a n : Nat) (walk : Bool) (bs : List Byte) :
    (k.readFix a n).descOf walk bs = k.descOf walk bs := by
  simp [Core.descOf]

@[simp] theorem Core.refusedDesc_readFix (k : Core) (a n : Nat) (walk : Bool) (bs : List Byte) (st : Nat) :
    (k.readFix a n).refusedDesc walk bs st = k.refusedDesc walk bs st := by
  simp [Core.refusedDesc]

/-- The core with a descriptor at the end of its channel and its completion reserved. -/
def Core.queueDesc (k : Core) (ch : Nat) (d : DDesc) (ranges : List (Nat × Nat)) : Core :=
  { k.reserve d.q (.word none) with
    dma := mapSet (fun _ => []) k.dma ch (mapGet (fun _ => []) k.dma ch ++ [d])
    dmaOrder := k.dmaOrder + 1
    hzRanges := k.hzRanges ++ ranges.map fun r => ⟨d.q, k.nextId, r.1, r.2, k.pc⟩ }

section
variable {k : Core} {walk : Bool} {ch : Nat} {bs : List Byte} (hroom : k.roomFor (bits (descWord bs 0) 10 8) 1 = true)
include hroom

theorem pushDesc_accepted {rs : List (Nat × Nat)} (hcheck : s.pushCheck k walk bs = .ok rs)
    (hlen : (mapGet (fun _ => []) k.dma ch).length < 16) :
    pushDesc s c k walk ch bs = .done (s.setCore c (k.queueDesc ch (k.descOf walk bs) rs)) := by
  unfold State.pushCheck at hcheck
  simp only [pushDesc, hcheck, hroom, Bool.not_true, Bool.false_eq_true, if_false]
  exact if_neg (Nat.not_le.mpr hlen)

theorem pushDesc_refused_now {st : Nat} (hcheck : s.pushCheck k walk bs = .refused st)
    (hfirst : mapGet (fun _ => []) k.dma ch = [] ∧ k.dmaTurn (k.descOf walk bs) = true) :
    pushDesc s c k walk ch bs = .done (s.setCore c (k.completeNow (bits (descWord bs 0) 10 8)
      (complWord (bits (descWord bs 0) 31 16) st (b2n walk) false 0))) := by
  unfold State.pushCheck at hcheck
  simp only [pushDesc, hcheck, hroom, Bool.not_true, Bool.false_eq_true, if_false]
  exact if_pos ((Bool.and_eq_true ..).mpr ⟨List.isEmpty_iff.mpr hfirst.1, hfirst.2⟩)

theorem pushDesc_refused_behind {st : Nat} (hcheck : s.pushCheck k walk bs = .refused st)
    (hlater : ¬(mapGet (fun _ => []) k.dma ch = [] ∧ k.dmaTurn (k.descOf walk bs) = true))
    (hlen : (mapGet (fun _ => []) k.dma ch).length < 16) :
    pushDesc s c k walk ch bs = .done (s.setCore c (k.queueDesc ch (k.refusedDesc walk bs st) [])) := by
  unfold State.pushCheck at hcheck
  simp only [pushDesc, hcheck, hroom, Bool.not_true, Bool.false_eq_true, if_false]
  have hnot : ¬((mapGet (fun _ => []) k.dma ch).isEmpty && k.dmaTurn (k.descOf walk bs)) = true := fun h =>
    hlater ((Bool.and_eq_true ..).mp h |>.imp_left List.isEmpty_iff.mp)
  exact (if_neg hnot).trans (if_neg (Nat.not_le.mpr hlen))

end

section
variable (k : Core) (ch : Nat) (d : DDesc) (ranges : List (Nat × Nat))
theorem Core.regs_queueDesc : (k.queueDesc ch d ranges).advance.regs = k.regs := rfl
theorem Core.sp_queueDesc : (k.queueDesc ch d ranges).advance.sp = k.sp := rfl
theorem Core.pc_queueDesc : (k.queueDesc ch d ranges).advance.pc = k.advance.pc := rfl
end

theorem Core.dma_queueDesc (k : Core) (ch : Nat) (d : DDesc) (ranges : List (Nat × Nat)) (x : Nat) :
    mapGet (fun _ => []) (k.queueDesc ch d ranges).dma x =
      if x = ch then mapGet (fun _ => []) k.dma ch ++ [d] else mapGet (fun _ => []) k.dma x := mapGet_set ..

theorem Core.queue_queueDesc (k : Core) (ch : Nat) (d : DDesc) (ranges : List (Nat × Nat)) (q : Nat) :
    (k.queueDesc ch d ranges).queue q = if q = d.q then k.queue d.q ++ [⟨k.nextId, .word none⟩] else k.queue q :=
  (Core.queue_congr (k := k.reserve d.q (.word none)) rfl q).trans (k.queue_reserve ..)

/-- The descriptor read: 32 bytes of the wide window, each word whole (R213). -/
theorem pushBody_clean {f : MovF} {walk : Bool} {k : Core} (ha : k.areg f.ra.toNat % 32 = 0)
    (hwide : k.wide (k.areg f.ra.toNat) 32 = some p) (hclean : k.poisoned p 32 = []) :
    pushBody s c f walk k =
      pushDesc (s.fixRead c.val p 32) c (k.readFix p 32) walk f.qb.toNat (k.bytesAt p 32) := by
  simp only [pushBody, ha, if_true, hwide, hclean]

section
variable {f : MovF} {p : Nat} {walk : Bool} {op : Nat} (hr : s.Ready c g) (hz : s.rd K.hzMode = 0)
  (hok : movOk f [false, true, true] = true) (ha : (s.core c.val).areg f.ra.toNat % 32 = 0)
  (hwide : (s.core c.val).wide ((s.core c.val).areg f.ra.toNat) 32 = some p)
  (hclean : (s.core c.val).poisoned p 32 = [])
include hr hz hok ha hwide hclean

/-- A descriptor whose push makes k' of the core moves that core on and touches no other. -/
theorem issueOut_push {k' : Core} (hpush : pushDesc (s.fixRead c.val p 32) c ((s.core c.val).readFix p 32) walk f.qb.toNat
      ((s.core c.val).bytesAt p 32) = .done ((s.fixRead c.val p 32).setCore c.val k')) :
    ∃ t, issueOut s c g op (movOk f [false, true, true]) false (pushAccess (s.core c.val) f) (pushBody s c f walk) = .next t ∧
      s.OnlyCore t c ∧ t.core c.val = k'.advance := by
  have hmode : ((s.fixRead c.val p 32).setCore c.val k').rd K.hzMode = 0 := by
    unfold State.fixRead
    split <;> exact hz
  exact ⟨_, issueOut_done hr hok rfl ((pushBody_clean ha hwide hclean).trans hpush) (.inr hmode),
    ((s.onlyCore_fixRead c p 32).set _).set _, by simp⟩

variable (hroom : (s.core c.val).roomFor (bits (descWord ((s.core c.val).bytesAt p 32) 0) 10 8) 1 = true)
include hroom

theorem issueOut_push_accepted {rs : List (Nat × Nat)}
    (hcheck : s.pushCheck (s.core c.val) walk ((s.core c.val).bytesAt p 32) = .ok rs)
    (hlen : (mapGet (fun _ => []) (s.core c.val).dma f.qb.toNat).length < 16) :
    ∃ t, issueOut s c g op (movOk f [false, true, true]) false (pushAccess (s.core c.val) f) (pushBody s c f walk) = .next t ∧
      s.OnlyCore t c ∧ t.core c.val = (((s.core c.val).readFix p 32).queueDesc f.qb.toNat
        ((s.core c.val).descOf walk ((s.core c.val).bytesAt p 32)) rs).advance := by
  rw [← s.pushCheck_fixRead c _ p 32] at hcheck
  refine issueOut_push hr hz hok ha hwide hclean ?_
  rw [← Core.descOf_readFix _ p 32]
  exact pushDesc_accepted (by simpa using hroom) hcheck (by simpa using hlen)

theorem issueOut_push_refused {st : Nat}
    (hcheck : s.pushCheck (s.core c.val) walk ((s.core c.val).bytesAt p 32) = .refused st) :
    let k := s.core c.val
    let bs := k.bytesAt p 32
    let l := mapGet (fun _ => []) k.dma f.qb.toNat
    let Ends := fun k' : Core => ∃ t, issueOut s c g op (movOk f [false, true, true]) false (pushAccess k f)
      (pushBody s c f walk) = .next t ∧ s.OnlyCore t c ∧ t.core c.val = k'.advance
    (l = [] ∧ k.dmaTurn (k.descOf walk bs) = true → Ends ((k.readFix p 32).completeNow (bits (descWord bs 0) 10 8)
        (complWord (bits (descWord bs 0) 31 16) st (b2n walk) false 0))) ∧
      (¬(l = [] ∧ k.dmaTurn (k.descOf walk bs) = true) → l.length < 16 →
        Ends ((k.readFix p 32).queueDesc f.qb.toNat (k.refusedDesc walk bs st) [])) := by
  intro k bs l Ends
  rw [← s.pushCheck_fixRead c _ p 32] at hcheck
  refine ⟨fun hfirst => issueOut_push hr hz hok ha hwide hclean ?now,
    fun hlater hlen => issueOut_push hr hz hok ha hwide hclean ?behind⟩
  case now => exact pushDesc_refused_now (by simpa using hroom) hcheck (by simpa using hfirst)
  case behind =>
    rw [← Core.refusedDesc_readFix _ p 32]
    exact pushDesc_refused_behind (by simpa using hroom) hcheck (by simpa using hlater) (by simpa using hlen)

end

/-- What a core shows after the corrected read of a descriptor and its queueing. -/
theorem Core.queued_after_read (k : Core) (a n ch : Nat) (d : DDesc) (rs : List (Nat × Nat)) :
    let k' := ((k.readFix a n).queueDesc ch d rs).advance
    mapGet (fun _ => []) k'.dma ch = mapGet (fun _ => []) k.dma ch ++ [d] ∧
    (∀ x, x ≠ ch → mapGet (fun _ => []) k'.dma x = mapGet (fun _ => []) k.dma x) ∧
    k'.queue d.q = k.queue d.q ++ [⟨k.nextId, .word none⟩] ∧ (∀ q, q ≠ d.q → k'.queue q = k.queue q) ∧
    k'.regs = k.regs ∧ k'.sp = k.sp ∧ k'.pc = k.advance.pc := by
  intro k'
  have hdma (x : Nat) : mapGet (fun _ => []) k'.dma x =
      if x = ch then mapGet (fun _ => []) k.dma ch ++ [d] else mapGet (fun _ => []) k.dma x := by
    rw [← k.dma_readFix a n]
    exact Core.dma_queueDesc (k.readFix a n) ch d rs x
  have hqueue (q : Nat) : k'.queue q =
      if q = d.q then k.queue d.q ++ [⟨k.nextId, .word none⟩] else k.queue q := by
    rw [← k.queue_readFix a n, ← k.queue_readFix a n, ← k.nextId_readFix a n]
    exact Core.queue_queueDesc (k.readFix a n) ch d rs q
  have hregs : k'.regs = k.regs := (Core.regs_queueDesc ..).trans (k.regs_readFix a n)
  have hsp : k'.sp = k.sp := (Core.sp_queueDesc ..).trans (Core.readFix_sp ..)
  have hpc : k'.pc = k.advance.pc := (Core.pc_queueDesc ..).trans (k.pc_advance_readFix a n)
  clear_value k'
  refine ⟨by rw [hdma, if_pos rfl], fun x hne => by rw [hdma, if_neg hne], by rw [hqueue, if_pos rfl],
    fun q hne => by rw [hqueue, if_neg hne], hregs, hsp, hpc⟩

/-- What a core shows after the corrected read of a descriptor that is refused at once. -/
theorem Core.completed_after_read (k : Core) (a n : Nat) {q : Nat} (w : Word64) (hfresh : ∀ e ∈ k.queue q, e.id ≠ k.nextId) :
    let k' := ((k.readFix a n).completeNow q w).advance
    k'.dma = k.dma ∧ k'.queue q = k.queue q ++ [⟨k.nextId, .word (some w)⟩] ∧ k'.regs = k.regs ∧ k'.sp = k.sp ∧
      k'.pc = k.advance.pc := by
  have hkept : (k.queue q).map (fun e => if e.id = k.nextId then { e with kind := .word (some w) } else e) = k.queue q :=
    (List.map_congr_left fun e he => if_neg (hfresh e he)).trans (List.map_id _)
  have hqueue := (k.readFix a n).queue_completeNow q w q
  rw [if_pos rfl, Core.queue_readFix, Core.nextId_readFix, hkept] at hqueue
  obtain ⟨flips, corrected, hframe⟩ : ∃ x y, k.readFix a n = { k with spFlip := x, spCorrected := y } :=
    ⟨_, _, k.readFix_frame a n⟩
  rw [hframe] at hqueue ⊢
  exact ⟨rfl, hqueue, rfl, rfl, rfl⟩

/-- Settles O21: what a descriptor becomes is one of three changes of the core; its read before them corrects errors. -/
theorem descriptorsAreQueuedOrRefused : Obligations.DescriptorsAreQueuedOrRefused := by
  intro s c g f hr hz hok k a p bs q l Queues Refuses ha hw hin hclean hroom hfresh
  have hwide : (s.core c.val).wide ((s.core c.val).areg f.ra.toNat) 32 = some p := by
    simp only [k, a] at hw hin
    simp [Core.wide, hw, hin, p, k, a]
  have queued (d : DDesc) (rs : List (Nat × Nat)) (hd : d.q = q) := hd ▸ k.queued_after_read p 32 f.qb.toNat d rs
  have accepts (i : Instr) (walk : Bool) (op : Nat)
      (hi : exec i s = issueOut s c g op (movOk f [false, true, true]) false (pushAccess k f) (pushBody s c f walk))
      {rs : List (Nat × Nat)} (hcheck : s.pushCheck k walk bs = .ok rs) (hlen : l.length < 16) :
      Queues i (k.descOf walk bs).length := by
    obtain ⟨t, hx, honly, hcore⟩ := issueOut_push_accepted (op := op) hr hz hok ha hwide hclean hroom hcheck hlen
    obtain ⟨hdma, hother, hqueue, hqueues, hregs, hsp, hpc⟩ := queued (k.descOf walk bs) rs rfl
    rw [← hcore] at hdma hother hqueue hqueues hregs hsp hpc
    exact ⟨t, _, hi.trans hx, honly, hdma, rfl, rfl, rfl, rfl, rfl, rfl, rfl, rfl, hother, hqueue, hqueues, hregs, hsp, hpc⟩
  have refuses (i : Instr) (walk : Bool) (op : Nat)
      (hi : exec i s = issueOut s c g op (movOk f [false, true, true]) false (pushAccess k f) (pushBody s c f walk))
      {st : Nat} (hcheck : s.pushCheck k walk bs = .refused st) : Refuses i st (b2n walk) := by
    obtain ⟨hnow, hbehind⟩ := issueOut_push_refused (op := op) hr hz hok ha hwide hclean hroom hcheck
    have hturn := k.dmaTurn_iff (k.descOf walk bs)
    rw [hturn] at hnow hbehind
    refine ⟨fun hfirst => ?now, fun hlater hlen => ?behind⟩
    case now =>
      obtain ⟨t, hx, honly, hcore⟩ := hnow hfirst
      refine ⟨t, hi.trans hx, honly, ?_⟩
      rw [hcore]
      exact k.completed_after_read p 32 _ hfresh
    case behind =>
      obtain ⟨t, hx, honly, hcore⟩ := hbehind hlater hlen
      obtain ⟨hdma, hother, hqueue, hqueues, hregs, hsp, hpc⟩ := queued (k.refusedDesc walk bs st) [] rfl
      rw [← hcore] at hdma hother hqueue hregs hsp hpc
      exact ⟨t, _, hi.trans hx, honly, hdma, rfl, rfl, rfl, rfl, rfl, rfl, hother, hqueue, hregs, hsp, hpc⟩
  exact ⟨fun rs hcheck hlen => accepts _ false 0xA0 (exec_qpush ..) hcheck hlen,
    fun rs hcheck hlen => accepts _ true 0xA1 (exec_pwalk ..) hcheck hlen,
    fun st hcheck => refuses _ false 0xA0 (exec_qpush ..) hcheck,
    fun st hcheck => refuses _ true 0xA1 (exec_pwalk ..) hcheck⟩

end Sys2Proof.Machine
end

section
/-! NGET and NPUT (O22): half a register as 256 bytes, and what a read leaves of the cores. -/

namespace Sys2Proof.Machine

variable {s : State} {c : CoreId} {g : Guard}

/-! ## Numbers cut out of bytes (R8) -/

theorem leNat_append (as bs : List Byte) : leNat (as ++ bs) = leNat as + 256 ^ as.length * leNat bs := by
  induction as with
  | nil => simp [leNat]
  | cons a as ih =>
    rw [List.cons_append, leNat, ih, leNat, List.length_cons, pow_succ]
    ring

/-- The number that n bytes from place i make. -/
theorem leNat_drop_take (bs : List Byte) {i n : Nat} (h : i + n ≤ bs.length) :
    leNat ((bs.drop i).take n) = leNat bs / 256 ^ i % 256 ^ n := by
  have hlow : (bs.take i).length = i := by simp; omega
  have hmid : ((bs.drop i).take n).length = n := by simp; omega
  have hlt := leNat_lt (bs.take i)
  have hlt' := leNat_lt ((bs.drop i).take n)
  have hsplit : leNat bs = leNat (bs.take i) + 256 ^ i * (leNat ((bs.drop i).take n) +
      256 ^ n * leNat ((bs.drop i).drop n)) := by
    have hrest : leNat (bs.drop i) = leNat ((bs.drop i).take n) + 256 ^ n * leNat ((bs.drop i).drop n) := by
      have happ := leNat_append ((bs.drop i).take n) ((bs.drop i).drop n)
      rwa [List.take_append_drop, hmid] at happ
    have happ := leNat_append (bs.take i) (bs.drop i)
    rwa [List.take_append_drop, hlow, hrest] at happ
  rw [hlow] at hlt
  rw [hmid] at hlt'
  rw [hsplit, Nat.add_mul_div_left _ _ (by positivity), Nat.div_eq_of_lt hlt, Nat.zero_add, Nat.add_mul_mod_self_left,
    Nat.mod_eq_of_lt hlt']

theorem drop_take_memRead (m : Mem) (a i n len : Nat) (h : i + n ≤ len) :
    ((memRead m a len).drop i).take n = memRead m (a + i) n := by
  apply List.ext_getElem
  · simp; omega
  · intro x h1 h2
    simp [memRead, Nat.add_assoc]

/-- A 32-bit lane of bytes read is the number of its four bytes. -/
theorem lane32_leNat_memRead (m : Mem) (a len : Nat) {j : Nat} (h : 4 * j + 4 ≤ len) :
    lane32 (leNat (memRead m a len)) j = leNat (memRead m (a + 4 * j) 4) := by
  rw [← drop_take_memRead m a (4 * j) 4 len h, leNat_drop_take _ (by simpa using h), lane32]
  norm_num [pow_mul]

/-! ## Halves of a register -/

theorem laneOf_add_mul_low (w n a b : Nat) (ha : a < 2 ^ (w * n)) {j : Nat} (hj : j < n) :
    laneOf w (a + b * 2 ^ (w * n)) j = laneOf w a j := by
  apply Nat.eq_of_testBit_eq
  intro i
  rw [testBit_laneOf, testBit_laneOf, Nat.add_comm, Nat.mul_comm, Nat.testBit_two_pow_mul_add _ ha]
  by_cases hi : i < w
  · have : w * (j + 1) ≤ w * n := Nat.mul_le_mul_left w hj
    rw [if_pos (by rw [Nat.mul_succ] at this; omega)]
  · simp [hi]

theorem laneOf_add_mul_high (w n a b : Nat) (ha : a < 2 ^ (w * n)) (j : Nat) :
    laneOf w (a + b * 2 ^ (w * n)) (n + j) = laneOf w b j := by
  apply Nat.eq_of_testBit_eq
  intro i
  rw [testBit_laneOf, testBit_laneOf, Nat.add_comm, Nat.mul_comm, Nat.testBit_two_pow_mul_add _ ha, Nat.mul_add,
    if_neg (by omega), Nat.add_assoc, Nat.add_sub_cancel_left]

theorem laneOf_mod_pow (w n a : Nat) {j : Nat} (hj : j < n) : laneOf w (a % 2 ^ (w * n)) j = laneOf w a j := by
  have h := laneOf_add_mul_low w n (a % 2 ^ (w * n)) (a / 2 ^ (w * n)) (Nat.mod_lt _ (by positivity)) hj
  rw [Nat.mul_comm (a / _), Nat.mod_add_div] at h
  exact h.symm

theorem laneOf_div_pow (w n a j : Nat) : laneOf w (a / 2 ^ (w * n)) j = laneOf w a (n + j) := by
  have h := laneOf_add_mul_high w n (a % 2 ^ (w * n)) (a / 2 ^ (w * n)) (Nat.mod_lt _ (by positivity)) j
  rw [Nat.mul_comm (a / _), Nat.mod_add_div] at h
  exact h.symm

theorem pow_bytes (n : Nat) : (256 : Nat) ^ (4 * n) = 2 ^ (32 * n) := by
  rw [show 256 = 2 ^ 8 by norm_num, ← pow_mul]
  congr 1
  ring

/-- A 32-bit lane of a number just stored as bytes reads back. -/
theorem leNat_memRead_lane (m : Mem) (a n v : Nat) {j : Nat} (h : j < n) :
    leNat (memRead (memWrite m a (leBytes (4 * n) v)) (a + 4 * j) 4) = lane32 v j := by
  have hin : 4 * j + 4 ≤ (leBytes (4 * n) v).length := by rw [length_leBytes]; omega
  rw [memRead_memWrite_part _ _ _ _ hin, leNat_drop_take _ hin, leNat_leBytes, pow_bytes, pow_bytes, pow_bytes 1]
  exact laneOf_mod_pow 32 n v h

/-- Half h of a register of 64 lanes a half is replaced by x. -/
def putHalf (h x old : Nat) : Nat := x * 2 ^ (2048 * h) + (if h = 0 then old / 2 ^ 2048 * 2 ^ 2048 else old % 2 ^ 2048)

theorem lane32_putHalf {h x old : Nat} (hh : h = 0 ∨ h = 1) (hx : x < 2 ^ 2048) {j : Nat} (hj : j < 64) :
    lane32 (putHalf h x old % 2 ^ 4096) (64 * h + j) = lane32 x j ∧
    lane32 (putHalf h x old % 2 ^ 4096) (64 * (1 - h) + j) = lane32 old (64 * (1 - h) + j) := by
  have hbits : (2048 : Nat) = 32 * 64 := by norm_num
  have hcut (i : Nat) (hi : i < 128) (v : Nat) : laneOf 32 (v % 2 ^ 4096) i = laneOf 32 v i := laneOf_mod (by omega)
  unfold putHalf
  rw [hbits] at hx ⊢
  simp only [lane32_eq_laneOf]
  rcases hh with rfl | rfl
  · rw [hcut _ (by omega), hcut _ (by omega)]
    simp only [Nat.mul_zero, pow_zero, Nat.mul_one, if_true, Nat.zero_add, Nat.sub_zero]
    exact ⟨laneOf_add_mul_low 32 64 x _ hx hj, (laneOf_add_mul_high 32 64 x _ hx j).trans (laneOf_div_pow 32 64 old j)⟩
  · have hlow : old % 2 ^ (32 * 64) < 2 ^ (32 * 64) := Nat.mod_lt _ (Nat.two_pow_pos (32 * 64))
    rw [hcut _ (by omega), hcut _ (by omega), if_neg one_ne_zero, Nat.add_comm (x * _)]
    simp only [Nat.mul_one, Nat.sub_self, Nat.mul_zero, Nat.zero_add]
    exact ⟨laneOf_add_mul_high 32 64 _ x hlow j, (laneOf_add_mul_low 32 64 _ x hlow hj).trans (laneOf_mod_pow 32 64 old hj)⟩

/-! ## What a read leaves of the cores (R110, R111) -/

/-- Only what a scratchpad read corrects, counts and remembers differs. -/
def Core.ReadOnly (k k' : Core) : Prop := k' = { k with
  spFlip := k'.spFlip, spCorrected := k'.spCorrected, spUncorr := k'.spUncorr, badWords := k'.badWords }

theorem Core.ReadOnly.eq {k k' : Core} (h : k.ReadOnly k') : k' = { k with
    spFlip := k'.spFlip, spCorrected := k'.spCorrected, spUncorr := k'.spUncorr, badWords := k'.badWords } := h

theorem Core.ReadOnly.trans {k k' k'' : Core} (h : k.ReadOnly k') (h' : k'.ReadOnly k'') : k.ReadOnly k'' := by
  unfold Core.ReadOnly at *
  rw [h', h]

theorem Core.readOnly_readFix (k : Core) (a n : Nat) : k.ReadOnly (k.readFix a n) := by
  unfold Core.ReadOnly
  rw [Core.readFix_frame]

theorem Core.UncorrOnly.toRead {k k' : Core} (h : k.UncorrOnly k') : k.ReadOnly k' := by
  unfold Core.ReadOnly
  rw [h.eq]

theorem State.core_fixRead_ne (s : State) {c d : Nat} (a n : Nat) (h : d ≠ c) : (s.fixRead c a n).core d = s.core d := by
  unfold State.fixRead
  split
  · rfl
  · exact State.core_setCore_ne _ _ _ _ h

theorem State.core_noteUncorr_ne {c d : Nat} (port : Nat) (h : d ≠ c) (ws : List Nat) (s : State) :
    (s.noteUncorr c port ws).core d = s.core d := by
  induction ws generalizing s with
  | nil => rfl
  | cons w ws ih =>
    obtain ⟨rec, hone⟩ := s.noteUncorr_one c port w
    rw [State.noteUncorr_cons, ih, hone, State.logDev_core]
    exact State.core_setCore_ne _ _ _ _ h

/-- A read at core n that meets poisoned words leaves every core what it was but for the read's own marks. -/
theorem State.readOnly_read (s : State) (n port p len : Nat) (bad : List Nat) (d : Nat) :
    (s.core d).ReadOnly (((s.fixRead n p len).noteUncorr n port bad).core d) := by
  by_cases hd : d = n
  · subst hd
    have h := State.core_noteUncorr_only d port bad (s.fixRead d p len)
    rw [State.core_fixRead] at h
    exact (Core.readOnly_readFix _ p len).trans h.toRead
  · rw [State.core_noteUncorr_ne _ hd, State.core_fixRead_ne _ _ _ hd]
    rfl

/-! ## The neighbour's answer (R216) -/

section
variable {k : Core} {f : MovF} {op n p : Nat} {go : Nat → Nat → Res} (hw : isWide (k.areg f.ra.toNat) = true)
  (ha : k.areg f.ra.toNat % 256 = 0)
include hw ha

theorem nbrBody_unbound (hb : bit (mapGet (fun _ => 0) k.nbind f.dir.toNat) 0 = false) :
    nbrBody s c op f k go = .fail 0xA := by
  simp [nbrBody, hw, ha, hb]

variable (hb : bit (mapGet (fun _ => 0) k.nbind f.dir.toNat) 0 = true)
include hb

theorem nbrBody_reaches
    (hn : s.neighbour c k (mapGet (fun _ => 0) k.nbind f.dir.toNat) (k.areg f.ra.toNat) = .ok (n, p)) :
    nbrBody s c op f k go = go n p := by
  simp [nbrBody, hw, ha, hb, hn]

theorem nbrBody_refused {st : Nat}
    (hn : s.neighbour c k (mapGet (fun _ => 0) k.nbind f.dir.toNat) (k.areg f.ra.toNat) = .error st) :
    nbrBody s c op f k go = .done (s.setCore c { k with nbrComing := k.nbrComing ++ [(st, k.pc, op)] }) := by
  simp [nbrBody, hw, ha, hb, hn]

end

theorem nbrBody_misplaced {k : Core} {f : MovF} {op : Nat} {go : Nat → Nat → Res}
    (h : isWide (k.areg f.ra.toNat) = false ∨ k.areg f.ra.toNat % 256 ≠ 0) :
    nbrBody s c op f k go = .addr (k.areg f.ra.toNat) := by
  rcases h with h | h <;> simp [nbrBody, h]

/-- What NGET makes of its own core: half of `f[ry]` replaced by x. -/
def Core.gotHalf (k : Core) (f : MovF) (old x : Nat) (t : Bool) : Core :=
  k.setF f.ry.toNat (putHalf f.half.toNat x old) t

theorem half_cases (f : MovF) : f.half.toNat = 0 ∨ f.half.toNat = 1 := by
  have := f.half.isLt; omega

theorem Core.lanes_gotHalf (k : Core) (f : MovF) {old x : Nat} (t : Bool) (hx : x < 2 ^ 2048) {j : Nat} (hj : j < 64) :
    lane32 ((k.gotHalf f old x t).advance.freg f.ry.toNat) (64 * f.half.toNat + j) = lane32 x j ∧
    lane32 ((k.gotHalf f old x t).advance.freg f.ry.toNat) (64 * (1 - f.half.toNat) + j) =
      lane32 old (64 * (1 - f.half.toNat) + j) := by
  have hreg : (k.gotHalf f old x t).advance.freg f.ry.toNat = putHalf f.half.toNat x old % 2 ^ 4096 := by
    rw [Core.freg_advance, Core.gotHalf, Core.freg_setF, if_pos rfl]
  rw [hreg]
  exact lane32_putHalf (half_cases f) hx hj

theorem leNat_bytes_lt (m : Mem) (p : Nat) : leNat (memRead m p 256) < 2 ^ 2048 := by
  have h := leNat_lt (memRead m p 256)
  rw [length_memRead] at h
  have hpow : (256 : Nat) ^ 256 = 2 ^ 2048 := by rw [show (256 : Nat) = 4 * 64 from rfl, show (2048 : Nat) = 32 * 64 from rfl]; exact pow_bytes 64
  rwa [hpow] at h

theorem State.rd_fixRead (s : State) (c a n key : Nat) : (s.fixRead c a n).rd key = s.rd key := by
  unfold State.fixRead
  split <;> rfl

theorem State.cores_fixRead (s : State) (c a n : Nat) : s.fixRead c a n = { s with cores := (s.fixRead c a n).cores } := by
  unfold State.fixRead
  split <;> rfl

/-- NGET over a live link, by the state its read leaves (R216). -/
theorem execNget_live {f : MovF} {n p : Nat} (hr : s.Ready c g) (hz : s.rd K.hzMode = 0)
    (hok : movOk f [false, false, true, false, false, false, true, true, false, true] = true)
    (hbody : ∀ go, nbrBody s c.val 0xA4 f (s.core c.val) go = go n p) (hlive : s.nbrDead c.val n = false) :
    let k := s.core c.val
    let bad := (s.core n).poisoned p 256
    let u := (s.fixRead n p 256).noteUncorr n 5 bad
    let k' := (u.core c.val).gotHalf f (k.freg f.ry.toNat) (leNat ((s.core n).bytesAt p 256))
      (k.ftaintOf f.ry.toNat || !bad.isEmpty)
    execNget c g f s = .next ((u.setCore c.val k').setCore c.val k'.advance) := by
  intro k bad u k'
  have hmode : u.rd K.hzMode = 0 := by
    rw [State.rd_noteUncorr _ _ (by decide), State.rd_fixRead, hz]
  have hcore : k' = (u.setCore c.val k').core c.val := (State.core_setCore ..).symm
  rw [show k'.advance = ((u.setCore c.val k').core c.val).advance from congrArg Core.advance hcore]
  refine issueOut_done hr hok rfl ?_ (.inl rfl)
  rw [hbody]
  simp only [hlive, Bool.false_eq_true, if_false]
  rw [State.portUse_off _ _ _ _ _ hmode]
  rfl

/-- Settles O22: refusals by the branch of `nbrBody`; a transfer by the half it replaces and the read or store it is. -/
theorem neighbourAccessesMoveHalfRegister : Obligations.NeighbourAccessesMoveHalfRegister := by
  intro s c g f n p hr hz hok k a w h bad KeepsHalf Refuses
  have hry : f.ry.toNat < 64 := f.ry.isLt
  have traps {b : Core → Res} {op code addr : Nat} (hb : b k = .trap { code := code, addr := addr }) :
      ∃ t, issueOut s c g op (movOk f [false, false, true, false, false, false, true, true, false, true]) false [] b =
        .next t ∧ t.core c.val = { k with run := .trapped, trapCode := code, trapStatus := 0 } :=
    ⟨_, issueOut_trap hr hok rfl hb, State.trap_core ..⟩
  simp -zeta only [exec_nget, exec_nput]
  refine ⟨fun hbad => ?misplaced, fun hw ha hb => ?unbound, fun hw ha hb => ⟨fun hn hlive => ⟨?get, ?put⟩,
    fun hn hdead => ⟨?getDead, ?putDead⟩, fun st hn => ?refused⟩⟩
  case misplaced => exact ⟨traps (nbrBody_misplaced hbad), traps (nbrBody_misplaced hbad)⟩
  case unbound => exact ⟨traps (nbrBody_unbound hw ha hb), traps (nbrBody_unbound hw ha hb)⟩
  case refused =>
    exact ⟨⟨_, issueOut_done hr hok rfl (nbrBody_refused hw ha hb hn) (.inl rfl), (s.onlyCore_set c _).set _, by simp; rfl⟩,
      ⟨_, issueOut_done hr hok rfl (nbrBody_refused hw ha hb hn) (.inl rfl), (s.onlyCore_set c _).set _, by simp; rfl⟩⟩
  case get =>
    let u := (s.fixRead n p 256).noteUncorr n 5 bad
    let x := leNat ((s.core n).bytesAt p 256)
    let k' := (u.core c.val).gotHalf f (k.freg f.ry.toNat) x (k.ftaintOf f.ry.toNat || !bad.isEmpty)
    have hread : ∀ d, (s.core d).ReadOnly (u.core d) := s.readOnly_read n 5 p 256 bad
    have hcore : ((u.setCore c.val k').setCore c.val k'.advance).core c.val = k'.advance := State.core_setCore ..
    have hother (d : Nat) (hd : d ≠ c.val) : ((u.setCore c.val k').setCore c.val k'.advance).core d = u.core d := by
      rw [State.core_setCore_ne _ _ _ _ hd, State.core_setCore_ne _ _ _ _ hd]
    have hlanes {j : Nat} (hj : j < 64) := Core.lanes_gotHalf (u.core c.val) f (old := k.freg f.ry.toNat)
      (k.ftaintOf f.ry.toNat || !bad.isEmpty) (leNat_bytes_lt (s.core n).sp p) hj
    have hwrote : (u.core c.val).WroteF k'.advance f.ry.toNat _ _ := wroteF_setF _ _ _ hry
    obtain ⟨-, htaint, hothers, -⟩ := hwrote
    have hfreg (y : Nat) : (u.core c.val).freg y = k.freg y := by rw [(hread c.val).eq]; rfl
    have hftaint (y : Nat) : (u.core c.val).ftaintOf y = k.ftaintOf y := by rw [(hread c.val).eq]; rfl
    have hat : (((u.setCore c.val k').setCore c.val k'.advance).core n).spUncorr = (u.core n).spUncorr ∧
        (((u.setCore c.val k').setCore c.val k'.advance).core n).sp = (u.core n).sp := by
      by_cases hnc : n = c.val
      · rw [hnc, hcore]
        exact ⟨rfl, rfl⟩
      · rw [hother n hnc]
        exact ⟨rfl, rfl⟩
    refine ⟨_, execNget_live hr hz hok (fun go => nbrBody_reaches hw ha hb hn) hlive, fun j hj => ?lanes, fun j hj => ?half,
      ?taint, fun y hy hne => ?others, fun d hd hdn => ?cores, fun hclean => ⟨?frame, fun hne => ?neighbour, ?wrote⟩,
      fun hpoison => ⟨?counted, ?pc, ?regs, ?sp⟩⟩
    case lanes => rw [hcore]; exact (hlanes hj).1.trans (lane32_leNat_memRead _ _ _ (by omega))
    case half => rw [hcore]; exact (hlanes hj).2
    case taint => rw [hcore]; exact htaint
    case others =>
      rw [hcore, ← hfreg, ← hftaint]
      exact hothers y hy hne
    case cores => rw [hother d hd, State.core_noteUncorr_ne _ hdn, State.core_fixRead_ne _ _ _ hdn]
    case frame =>
      have hu : u = { s with cores := u.cores } := by
        simp only [u, hclean]
        exact s.cores_fixRead n p 256
      exact (congrArg (fun v : State => (v.setCore c.val k').setCore c.val k'.advance) hu :)
    case neighbour => rw [hother n hne]; simp only [u, hclean]; exact s.core_fixRead n p 256
    case wrote =>
      rw [hcore]
      simp only [k', u, hclean, List.isEmpty_nil, Bool.not_true, Bool.or_false]
      exact (wroteF_setF _ _ _ hry).self
    case counted =>
      rw [hat.1, State.spUncorr_noteUncorr _ _ _ hpoison, State.core_fixRead, Core.readFix_spUncorr]
    case pc => rw [hcore]; exact (congrArg (fun x => x.advance.pc) (hread c.val).eq :)
    case regs => rw [hcore]; exact (congrArg Core.regs (hread c.val).eq :)
    case sp => rw [hat.2]; exact (congrArg Core.sp (hread n).eq :)
  case put =>
    let v := k.freg f.ry.toNat / 2 ^ (2048 * f.half.toNat)
    let u := s.modCore n fun x => x.store p (leBytes 256 v)
    have hu : u.rd K.hzMode = 0 := hz
    have hstore : u.core n = (s.core n).store p (leBytes 256 v) := State.core_setCore ..
    have hrest (d : Nat) (hd : d ≠ n) : u.core d = s.core d := State.core_setCore_ne _ _ _ _ hd
    have hx : execNput c g f s = .next (u.setCore c.val (u.core c.val).advance) := by
      refine issueOut_done hr hok rfl ((nbrBody_reaches hw ha hb hn).trans ?_) (.inl rfl)
      simp only [hlive, Bool.false_eq_true, if_false]
      rw [State.portUse_off _ _ _ _ _ hu]
    have hown : (u.setCore c.val (u.core c.val).advance).core c.val = (u.core c.val).advance := State.core_setCore ..
    have hothers (d : Nat) (hd : d ≠ c.val) : (u.setCore c.val (u.core c.val).advance).core d = u.core d :=
      State.core_setCore_ne _ _ _ _ hd
    have hat : ((u.setCore c.val (u.core c.val).advance).core n).sp = memWrite (s.core n).sp p (leBytes (4 * 64) v) := by
      rw [← Core.store_sp, ← hstore]
      by_cases hnc : n = c.val
      · rw [hnc, hown]; rfl
      · rw [hothers n hnc]
    refine ⟨_, hx, rfl, fun hne => ?own, fun d hd hdn => ?cores, fun j hj => ?lanes, fun b hout => ?outside, ?frame⟩
    case own => rw [hown, hrest _ (Ne.symm hne)]
    case cores => rw [hothers d hd, hrest d hdn]
    case lanes =>
      rw [Core.bytesAt, hat, leNat_memRead_lane _ _ _ _ hj]
      have hshift : 2048 * f.half.toNat = 32 * (64 * f.half.toNat) := by ring
      simp only [v, hshift]
      exact laneOf_div_pow 32 (64 * f.half.toNat) _ j
    case outside =>
      rw [hat]
      refine memByte_write_outside _ _ _ _ ?_
      rw [length_leBytes]
      exact hout
    case frame =>
      split
      case isTrue hnc =>
        subst hnc
        rw [hown, hstore]
        exact Core.advance_store_frame _ _ _ (length_leBytes ..)
      case isFalse hnc =>
        rw [hothers n hnc, hstore]
        unfold Core.store
        rw [length_leBytes]
  case getDead =>
    let x := leNat (s.freeBytes 256).2
    let k' := k.gotHalf f (k.freg f.ry.toNat) x true
    have hx : x < 2 ^ 2048 := by
      have h := leNat_lt (s.freeBytes 256).2
      have hlen : (s.freeBytes 256).2.length = 4 * 64 := by simp [State.freeBytes]
      rw [hlen, pow_bytes] at h
      exact h
    have hgo : execNget c g f s = .next (((s.freeBytes 256).1.setCore c.val k').setCore c.val
        (((s.freeBytes 256).1.setCore c.val k').core c.val).advance) := by
      refine issueOut_done hr hok rfl ((nbrBody_reaches hw ha hb hn).trans ?_) (.inl rfl)
      simp only [hdead, if_true]
      rfl
    rw [State.core_setCore] at hgo
    have hcore : (((s.freeBytes 256).1.setCore c.val k').setCore c.val k'.advance).core c.val = k'.advance :=
      State.core_setCore ..
    refine ⟨_, hgo, rfl, fun d hd => ?cores, fun j hj => ?half, ?wrote⟩
    case cores => rw [State.core_setCore_ne _ _ _ _ hd, State.core_setCore_ne _ _ _ _ hd]; rfl
    case half => rw [hcore]; exact (k.lanes_gotHalf f true hx hj).2
    case wrote => rw [hcore]; exact (wroteF_setF _ _ _ hry).self
  case putDead =>
    refine issueOut_done hr hok rfl ((nbrBody_reaches hw ha hb hn).trans ?_) (.inl rfl)
    simp only [hdead, if_true]

end Sys2Proof.Machine
end

section
/-! The packets of RGET, RPUT, MCAST and RSEND (O23). -/

namespace Sys2Proof.Machine

variable {s : State} {c : CoreId} {g : Guard}

/-! ## A bolt set as a contribution (R219) -/

/-- The bits of a flag, one per bolt from bolt n up, above a number of n bits. -/
theorem testBit_foldl_flags (fl : Bolt → Bool) (h0 : fl {} = false) (j : Nat) (l : List Bolt) :
    ∀ (n a : Nat), a < 2 ^ n →
      (((l.zipIdx n).map fun p => (b2n (fl p.1), p.2)).foldl (fun a p => a + p.1 * 2 ^ p.2) a).testBit j =
        if j < n then a.testBit j else fl (l.getD (j - n) {}) := by
  induction l with
  | nil =>
    intro n a ha
    simp only [List.zipIdx_nil, List.map_nil, List.foldl_nil, List.getD_nil, h0]
    split
    · rfl
    · exact Nat.testBit_lt_two_pow (ha.trans_le (Nat.pow_le_pow_right (by decide) (by omega)))
  | cons b l ih =>
    intro n a ha
    have hb : b2n (fl b) < 2 := by cases fl b <;> decide
    have hnext : a + b2n (fl b) * 2 ^ n < 2 ^ (n + 1) := by
      rw [pow_succ]
      have : b2n (fl b) * 2 ^ n ≤ 1 * 2 ^ n := Nat.mul_le_mul_right _ (by omega)
      omega
    rw [List.zipIdx_cons, List.map_cons, List.foldl_cons, ih (n + 1) _ hnext, Nat.add_comm a, Nat.mul_comm (b2n _),
      Nat.testBit_two_pow_mul_add _ ha]
    rcases Nat.lt_trichotomy j n with hlt | rfl | hgt
    · simp [hlt, Nat.lt_succ_of_lt hlt]
    · cases hfl : fl b <;> simp [b2n, hfl]
    · rw [if_neg (by omega), if_neg (by omega), show j - n = (j - (n + 1)) + 1 by omega, List.getD_cons_succ]

/-- Bit j of a mask is bolt j's flag. -/
theorem getLsbD_boltMask (l : List Bolt) (fl : Bolt → Bool) (h0 : fl {} = false) {j : Nat} (hj : j < 64) :
    (boltMask l fl).getLsbD j = fl (l.getD j {}) := by
  have h := testBit_foldl_flags fl h0 j l 0 0 (by decide)
  rw [boltMask, BitVec.getLsbD_ofNat, decide_eq_true hj, Bool.true_and]
  exact h

/-- Number j of a bolt set's payload is bolt j's value. -/
theorem leAt_boltPayload (set : List Bolt) {j : Nat} (hj : j < 64) :
    leAt ((set.take 64).flatMap fun b => leBytes 8 b.value.toNat) (8 * j) 8 = (set.getD j {}).value.toNat := by
  have hmap : ((set.take 64).flatMap fun b => leBytes 8 b.value.toNat) =
      ((set.take 64).map fun b => b.value.toNat).flatMap (leBytes 8) := by rw [List.flatMap_map]
  by_cases hlen : j < set.length
  · have hin : j < ((set.take 64).map fun b => b.value.toNat).length := by simp; omega
    have hat : ((set.take 64).map fun b => b.value.toNat).getD j 0 = (set.getD j {}).value.toNat := by
      rw [List.getD_eq_getElem _ _ hin, List.getD_eq_getElem _ _ hlen, List.getElem_map, List.getElem_take]
    rw [leAt, slice, hmap, drop_take_flatMap_leBytes 8 _ j hin, length_leBytes, Nat.sub_self, List.replicate_zero,
      List.append_nil, leNat_leBytes, hat]
    exact Nat.mod_eq_of_lt (set.getD j {}).value.isLt
  · have hnil : (((set.take 64).flatMap fun b => leBytes 8 b.value.toNat).drop (8 * j)).take 8 = [] := by
      rw [List.drop_eq_nil_of_le, List.take_nil]
      rw [hmap, length_flatMap_leBytes, List.length_map]
      have : (set.take 64).length ≤ j := by simp; omega
      exact Nat.mul_le_mul_left 8 this
    rw [leAt, slice, hnil, List.getD_eq_default _ _ (by omega)]
    rfl

/-! ## Packets, one after another -/

theorem State.OnlyCoreAndPackets.refl (s : State) (c : CoreId) : s.OnlyCoreAndPackets s c [] :=
  ⟨rfl, fun _ _ => rfl, fun _ _ => rfl, by simp⟩

theorem State.OnlyCorePacketsAndLog.trans {s t u : State} {l l' : List Packet} (h : s.OnlyCorePacketsAndLog t c l)
    (h' : t.OnlyCorePacketsAndLog u c l') : s.OnlyCorePacketsAndLog u c (l ++ l') := by
  obtain ⟨heq, hcores, hrouters, hown⟩ := h
  obtain ⟨heq', hcores', hrouters', hown'⟩ := h'
  refine ⟨by rw [heq', heq], fun d hd => (hcores' d hd).trans (hcores d hd),
    fun r hr => (hrouters' r hr).trans (hrouters r hr), ?_⟩
  rw [hown', hown, List.map_append, List.append_assoc]

theorem State.OnlyCoreAndPackets.trans {s t u : State} {l l' : List Packet} (h : s.OnlyCoreAndPackets t c l)
    (h' : t.OnlyCoreAndPackets u c l') : s.OnlyCoreAndPackets u c (l ++ l') := by
  obtain ⟨heq, hcores, hrouters, hown⟩ := h
  obtain ⟨heq', hcores', hrouters', hown'⟩ := h'
  refine ⟨by rw [heq', heq], fun d hd => (hcores' d hd).trans (hcores d hd),
    fun r hr => (hrouters' r hr).trans (hrouters r hr), ?_⟩
  rw [hown', hown, List.map_append, List.append_assoc]

theorem State.OnlyCoreAndPackets.toLog {s t : State} {l : List Packet} (h : s.OnlyCoreAndPackets t c l) :
    s.OnlyCorePacketsAndLog t c l := by
  obtain ⟨heq, hcores, hrouters, hown⟩ := h
  exact ⟨by rw [heq], hcores, hrouters, hown⟩

theorem State.OnlyCoreAndLog.toPackets {s t : State} (h : s.OnlyCoreAndLog t c) : s.OnlyCorePacketsAndLog t c [] := by
  obtain ⟨heq, hcores⟩ := h
  have hrouters : t.routers = s.routers := (congrArg State.routers heq :)
  have hrouter (r : Nat) : t.router r = s.router r := congrArg (fun m => mapGet (fun _ => ({} : Router)) m r) hrouters
  refine ⟨by rw [heq], hcores, fun r _ => hrouter r, ?_⟩
  rw [hrouter]
  simp

theorem State.OnlyCore.toPackets {s t : State} (h : s.OnlyCore t c) : s.OnlyCoreAndPackets t c [] := by
  obtain ⟨heq, hcores⟩ := h
  have hrouters : t.routers = s.routers := (congrArg State.routers heq :)
  have hrouter (r : Nat) : t.router r = s.router r := congrArg (fun m => mapGet (fun _ => ({} : Router)) m r) hrouters
  refine ⟨by rw [heq], hcores, fun r _ => hrouter r, ?_⟩
  rw [hrouter]
  simp

theorem State.OnlyCorePacketsAndLog.set {s t : State} {l : List Packet} (h : s.OnlyCorePacketsAndLog t c l) (k : Core) :
    s.OnlyCorePacketsAndLog (t.setCore c.val k) c l := by
  have h' := h.trans (t.onlyCore_set c k).toPackets.toLog
  rwa [List.append_nil] at h'

/-- One packet handed to the core's own router. -/
theorem State.onlyCoreAndPackets_one (s : State) (c : CoreId) (p : Packet) :
    s.OnlyCoreAndPackets (s.inject c.val portL p) c [p] :=
  ⟨rfl, fun _ _ => rfl, fun _ hr => mapGet_set_other _ _ _ hr, mapGet_set_self ..⟩

/-- A packet's source fields depend on its core's place alone. -/
theorem State.packetFrom_congr {s t : State} {c : Nat} (h : (s.core c).UncorrOnly (t.core c)) (kind vc : Nat) :
    t.packetFrom c kind vc = s.packetFrom c kind vc := by
  unfold State.packetFrom
  rw [h.eq]
  rfl

/-! ## RGET and RPUT (R217) -/

/-- The core k0 with a far request of core k's numbers reserved and outstanding. -/
def Core.asking (k k0 : Core) (f : MovF) (get : Bool) (p : Nat) : Core :=
  let k1 := k0.reserve f.qa.toNat (.word none)
  { k1 with
    rqOut := k1.rqOut ++ [⟨k.nextRid, f.qa.toNat, k.nextId, get, p, 64 * f.imm16.toNat, f.imm16.toNat⟩]
    nextRid := k1.nextRid + 1
    hzRanges := k1.hzRanges ++ [⟨f.qa.toNat, k.nextId, p, 64 * f.imm16.toNat, k.pc⟩] }

/-- The request that goes out. -/
def State.farPacket (s : State) (c : Nat) (f : MovF) (get : Bool) (bad : List Nat) (bs : List Byte) (d : Nat) : Packet :=
  let da := (s.readReg (s.core c) f.rx.toNat).toNat
  { s.packetFrom c (if get then 1 else 0) 2 with
    queue := f.qa.toNat, tag := f.imm16.toNat, addr := (s.core c).areg f.rb.toNat % 2 ^ 24, length := 64 * f.imm16.toNat
    rid := (s.core c).nextRid, poison := !bad.isEmpty, payload := bs
    dstX := xOf d, dstY := yOf d, dstPanel := bits da 10 7, dstLogical := bits da 6 0 }

section
variable {f : MovF} {p : Nat} (hroom : (s.core c.val).roomFor f.qa.toNat 1 = true)
  (ha : farForm ((s.core c.val).areg f.ra.toNat) = true) (hb : farForm ((s.core c.val).areg f.rb.toNat) = true)
  (hwide : (s.core c.val).wide ((s.core c.val).areg f.ra.toNat) (64 * f.imm16.toNat) = some p)
include hroom ha hb hwide

theorem farBody_get {d : Nat} (hd : s.translate c.val (bits (s.readReg (s.core c.val) f.rx.toNat).toNat 10 7)
      (bits (s.readReg (s.core c.val) f.rx.toNat).toNat 6 0) = some d) :
    farBody s c.val f true (s.core c.val) = .done ((s.setCore c.val ((s.core c.val).asking (s.core c.val) f true p)).inject
      c.val portL (s.farPacket c.val f true [] [] d)) := by
  simp only [farBody, ha, hb, hwide, hroom, Bool.and_self, if_true, Bool.not_true, Bool.false_eq_true, if_false,
    State.addressed, hd, Option.map_some]
  rfl

theorem farBody_put {d : Nat} (hd : s.translate c.val (bits (s.readReg (s.core c.val) f.rx.toNat).toNat 10 7)
      (bits (s.readReg (s.core c.val) f.rx.toNat).toNat 6 0) = some d) :
    let k := s.core c.val
    let n := 64 * f.imm16.toNat
    farBody s c.val f false k = .done
      (((s.setCore c.val (k.asking (k.readFix p n) f false p)).noteUncorr c.val 7 (k.poisoned p n)).inject
        c.val portL (s.farPacket c.val f false (k.poisoned p n) (k.bytesAt p n) d)) := by
  simp only [farBody, ha, hb, hwide, hroom, Bool.and_self, if_true, Bool.not_true, Bool.false_eq_true, if_false,
    State.addressed, hd, Option.map_some]
  rfl

theorem farBody_nowhere (get : Bool) (hd : s.translate c.val (bits (s.readReg (s.core c.val) f.rx.toNat).toNat 10 7)
      (bits (s.readReg (s.core c.val) f.rx.toNat).toNat 6 0) = none) :
    let k := s.core c.val
    farBody s c.val f get k = .done (s.setCore c.val (((if get then k else k.readFix p (64 * f.imm16.toNat)).reserve
      f.qa.toNat (.word none)).postWord f.qa.toNat k.nextId (complWord f.imm16.toNat 4 2 false 0))) := by
  simp only [farBody, ha, hb, hwide, hroom, Bool.and_self, if_true, Bool.not_true, Bool.false_eq_true, if_false,
    State.addressed, hd, Option.map_none]

end

/-- The request is outstanding, and its completion reserved. -/
theorem Core.asked {k k0 : Core} {x : Map Bool} {y : Nat} (h0 : k0 = { k with spFlip := x, spCorrected := y }) (f : MovF)
    (get : Bool) (p : Nat) :
    let k' := (k.asking k0 f get p).advance
    k' = { k0.advance with
      queues := k'.queues, nextId := k.nextId + 1, nextRid := k.nextRid + 1
      rqOut := k.rqOut ++ [⟨k.nextRid, f.qa.toNat, k.nextId, get, p, 64 * f.imm16.toNat, f.imm16.toNat⟩]
      hzRanges := k.hzRanges ++ [⟨f.qa.toNat, k.nextId, p, 64 * f.imm16.toNat, k.pc⟩] } ∧
    k'.queue f.qa.toNat = k.queue f.qa.toNat ++ [⟨k.nextId, .word none⟩] ∧
    ∀ q, q ≠ f.qa.toNat → k'.queue q = k.queue q := by
  subst h0
  exact ⟨rfl, (k.queue_reserve ..).trans (if_pos rfl), fun q hq => (k.queue_reserve ..).trans (if_neg hq)⟩

/-- A ready completion in the queue, where its instruction changed nothing else. -/
theorem Core.completed {k k0 : Core} {x : Map Bool} {y : Nat} (h0 : k0 = { k with spFlip := x, spCorrected := y }) (q : Nat)
    (w : Word64) :
    let k' := (k0.completeNow q w).advance
    k' = { k0.advance with queues := k'.queues, nextId := k.nextId + 1 } ∧
    (k'.queue q).getLast? = some ⟨k.nextId, .word (some w)⟩ ∧ (k'.queue q).length = (k.queue q).length + 1 := by
  subst h0
  exact ⟨rfl, Core.getLast?_completeNow .., Core.length_queue_completeNow ..⟩

/-- What a read counted and remembered, put back. -/
theorem Core.UncorrOnly.restore {k k' : Core} (h : k.UncorrOnly k') :
    { k'.advance with spUncorr := k.spUncorr, badWords := k.badWords } = k.advance := by
  rw [h.eq]
  rfl

theorem Core.readFix_shape (k : Core) (a n : Nat) : ∃ x y, k.readFix a n = { k with spFlip := x, spCorrected := y } :=
  ⟨_, _, k.readFix_frame a n⟩

/-! ## MCAST (R218) -/

/-- Part j of a vector of n bytes at p as one packet of a tree. -/
def State.mcastPacket (s : State) (c : Nat) (k : Core) (f : MovF) (p n j : Nat) : Packet :=
  { s.packetFrom c 3 1 with
    group := f.group.toNat, taint := k.ftaintOf f.ry.toNat
    poison := !(k.poisoned (p + 4096 * j) (min 4096 (n - 4096 * j))).isEmpty
    addr := k.areg f.ra.toNat % 2 ^ 24 + 4096 * j
    payload := k.bytesAt (p + 4096 * j) (min 4096 (n - 4096 * j)) }

/-- The parts of a vector, sent one after another. -/
def State.sendParts (s : State) (c : Nat) (k : Core) (f : MovF) (p n : Nat) (l : List Nat) : State :=
  s.each l fun s j => (s.noteUncorr c (dataPort p) (k.poisoned (p + 4096 * j) (min 4096 (n - 4096 * j)))).inject c portL
    (s.mcastPacket c k f p n j)

theorem State.sendParts_cons (s : State) (c : Nat) (k : Core) (f : MovF) (p n j : Nat) (l : List Nat) :
    s.sendParts c k f p n (j :: l) = ((s.noteUncorr c (dataPort p)
      (k.poisoned (p + 4096 * j) (min 4096 (n - 4096 * j)))).inject c portL (s.mcastPacket c k f p n j)).sendParts
        c k f p n l := rfl

theorem State.mcastPacket_congr {s t : State} {c : Nat} (h : (s.core c).UncorrOnly (t.core c)) (k : Core) (f : MovF)
    (p n : Nat) : t.mcastPacket c k f p n = s.mcastPacket c k f p n := by
  funext j
  unfold State.mcastPacket
  rw [State.packetFrom_congr h]

/-- Sending a vector's parts: its packets, in order, and what the poisoned words read leave behind. -/
theorem State.sendParts_sends (c : CoreId) (k : Core) (f : MovF) (p n : Nat) (l : List Nat) : ∀ s : State,
    let u := s.sendParts c.val k f p n l
    s.OnlyCorePacketsAndLog u c (l.map (s.mcastPacket c.val k f p n)) ∧ (s.core c.val).UncorrOnly (u.core c.val) ∧
      ((∀ j, k.poisoned (p + 4096 * j) (min 4096 (n - 4096 * j)) = []) →
        s.OnlyCoreAndPackets u c (l.map (s.mcastPacket c.val k f p n)) ∧ u.core c.val = s.core c.val) ∧
      u.rd K.hzMode = s.rd K.hzMode := by
  induction l with
  | nil => exact fun s => ⟨(State.OnlyCoreAndPackets.refl s c).toLog, rfl, fun _ => ⟨State.OnlyCoreAndPackets.refl s c, rfl⟩, rfl⟩
  | cons j l ih =>
    intro s u
    let bad := k.poisoned (p + 4096 * j) (min 4096 (n - 4096 * j))
    let s1 := s.noteUncorr c.val (dataPort p) bad
    let s2 := s1.inject c.val portL (s.mcastPacket c.val k f p n j)
    have hcore : (s.core c.val).UncorrOnly (s2.core c.val) := State.core_noteUncorr_only c.val (dataPort p) bad s
    obtain ⟨hsends, honly, hclean, hmode⟩ := ih s2
    rw [State.mcastPacket_congr hcore] at hsends hclean
    have hu : u = s2.sendParts c.val k f p n l := State.sendParts_cons ..
    rw [hu]
    refine ⟨?_, hcore.trans honly, fun hnone => ?_, hmode.trans ?_⟩
    · exact ((State.noteUncorr_onlyCoreAndLog c (dataPort p) bad s).toPackets.trans
        (State.onlyCoreAndPackets_one ..).toLog).trans hsends
    · obtain ⟨hrest, hsame⟩ := hclean hnone
      have hs1 : s1 = s := by simp only [s1, bad, hnone j]; rfl
      have hfirst : s.OnlyCoreAndPackets s2 c [s.mcastPacket c.val k f p n j] := by
        simp only [s2, hs1]
        exact State.onlyCoreAndPackets_one ..
      refine ⟨hfirst.trans hrest, hsame.trans ?_⟩
      simp only [s2, hs1]
      rfl
    · exact State.rd_noteUncorr _ _ (by decide) bad s

end Sys2Proof.Machine
end

section
/-! RGET, RPUT, MCAST and RSEND (O23): the statement, from the bodies' rules. -/

namespace Sys2Proof.Machine

variable {s : State} {c : CoreId} {g : Guard}

/-- RPUT over a known way: what it sends, and its core when the words read are whole or poisoned (R217, R111). -/
theorem execRput_sends {f : MovF} {p d : Nat} (hr : s.Ready c g) (hz : s.rd K.hzMode = 0) (hok : farOk f = true)
    (hbody : let k := s.core c.val
      farBody s c.val f false k = .done
        (((s.setCore c.val (k.asking (k.readFix p (64 * f.imm16.toNat)) f false p)).noteUncorr c.val 7
          (k.poisoned p (64 * f.imm16.toNat))).inject c.val portL
            (s.farPacket c.val f false (k.poisoned p (64 * f.imm16.toNat)) (k.bytesAt p (64 * f.imm16.toNat)) d))) :
    let k := s.core c.val
    let n := 64 * f.imm16.toNat
    let pk := s.farPacket c.val f false (k.poisoned p n) (k.bytesAt p n) d
    let K' := k.asking (k.readFix p n) f false p
    ∃ t, execRput c g f s = .next t ∧ s.OnlyCorePacketsAndLog t c [pk] ∧
      { t.core c.val with spUncorr := K'.spUncorr, badWords := K'.badWords } = K'.advance ∧
      (k.poisoned p n = [] → s.OnlyCoreAndPackets t c [pk] ∧ t.core c.val = K'.advance) ∧
      (k.poisoned p n ≠ [] → (t.core c.val).spUncorr = (K'.spUncorr + (k.poisoned p n).length) % 2 ^ 64) := by
  intro k n pk K'
  let u := (s.setCore c.val K').noteUncorr c.val 7 (k.poisoned p n)
  have hmode : (u.inject c.val portL pk).rd K.hzMode = 0 := (State.rd_noteUncorr _ _ (by decide) _ _).trans hz
  have hcore : K'.UncorrOnly (u.core c.val) := by
    have h := State.core_noteUncorr_only c.val 7 (k.poisoned p n) (s.setCore c.val K')
    rwa [State.core_setCore] at h
  have hsent : s.OnlyCorePacketsAndLog (u.inject c.val portL pk) c [pk] :=
    (((s.onlyCore_set c K').toLog.trans (State.noteUncorr_onlyCoreAndLog c 7 _ _)).toPackets.trans
      (u.onlyCoreAndPackets_one c pk).toLog)
  have hx : execRput c g f s = .next ((u.inject c.val portL pk).setCore c.val (u.core c.val).advance) :=
    issueOut_done hr hok rfl hbody (.inr hmode)
  have hown : ((u.inject c.val portL pk).setCore c.val (u.core c.val).advance).core c.val = (u.core c.val).advance :=
    State.core_setCore ..
  refine ⟨_, hx, hsent.set _, ?restored, fun hclean => ?clean, fun hbad => ?counted⟩
  all_goals rw [hown]
  case restored => exact hcore.restore
  case clean =>
    have hu : u = s.setCore c.val K' := by simp only [u, hclean]; rfl
    rw [hu, State.core_setCore]
    exact ⟨(s.onlyCoreAndPackets_inject c K' pk).set K'.advance, rfl⟩
  case counted =>
    have h := State.spUncorr_noteUncorr (s.setCore c.val K') c.val 7 hbad
    rw [State.core_setCore] at h
    exact h

theorem Core.completeNow_readFix (k : Core) (a n q : Nat) (w : Word64) : (k.readFix a n).completeNow q w =
    ((k.readFix a n).reserve q (.word none)).postWord q k.nextId w := by
  rw [Core.completeNow, Core.nextId_readFix]

section
variable (k k0 : Core) (f : MovF) (get : Bool) (p : Nat)
@[simp] theorem Core.spUncorr_asking : (k.asking k0 f get p).spUncorr = k0.spUncorr := rfl
@[simp] theorem Core.badWords_asking : (k.asking k0 f get p).badWords = k0.badWords := rfl
end

@[simp] theorem Core.spUncorr_completeNow (k : Core) (q : Nat) (w : Word64) : (k.completeNow q w).spUncorr = k.spUncorr := rfl
@[simp] theorem Core.badWords_completeNow (k : Core) (q : Nat) (w : Word64) : (k.completeNow q w).badWords = k.badWords := rfl

/-- A packet's source fields after a read and a completion of its core. -/
theorem State.packetFrom_completed (s : State) (c a n q : Nat) (w : Word64) (kind vc : Nat) :
    (s.setCore c (((s.core c).readFix a n).completeNow q w)).packetFrom c kind vc = s.packetFrom c kind vc := by
  obtain ⟨flips, corrected, hread⟩ := (s.core c).readFix_shape a n
  unfold State.packetFrom
  rw [State.core_setCore, hread]
  rfl

/-- MCAST of a vector in its window: the packets, and the core with its completion ready (R218). -/
theorem execMcast_sends {f : MovF} {p : Nat} {l : List Nat} (hr : s.Ready c g) (hz : s.rd K.hzMode = 0)
    (hlegal : (movOk f [true, false, true, false, false, true, false, false, false, true, true] &&
      decide (1 ≤ f.imm16.toNat) && decide (f.imm16.toNat ≤ 4096)) = true)
    (hroom : (s.core c.val).roomFor f.qa.toNat 1 = true) (hfrom : mcastFrom (s.core c.val) f = some (p :: l)) :
    let k := s.core c.val
    let n := 128 * f.imm16.toNat
    let K' := (k.readFix p n).completeNow f.qa.toNat (complWord 0 0 3 false n)
    let pks := (List.range (ceilDiv n 4096)).map (s.mcastPacket c.val k f p n)
    ∃ t, execMcast c g f s = .next t ∧ s.OnlyCorePacketsAndLog t c pks ∧
      { t.core c.val with spUncorr := k.spUncorr, badWords := k.badWords } = K'.advance ∧
      ((∀ j, k.poisoned (p + 4096 * j) (min 4096 (n - 4096 * j)) = []) → s.OnlyCoreAndPackets t c pks ∧
        (t.core c.val).spUncorr = k.spUncorr ∧ (t.core c.val).badWords = k.badWords) := by
  intro k n K' pks
  let s1 := s.setCore c.val K'
  let u := s1.sendParts c.val k f p n (List.range (ceilDiv n 4096))
  obtain ⟨hsent, honly, hclean, hmode⟩ := State.sendParts_sends c k f p n (List.range (ceilDiv n 4096)) s1
  have hfrom1 : s1.mcastPacket c.val k f p n = s.mcastPacket c.val k f p n := by
    funext j
    unfold State.mcastPacket
    rw [s.packetFrom_completed c.val p n]
  rw [hfrom1] at hsent hclean
  have hx : execMcast c g f s = .next (u.setCore c.val (u.core c.val).advance) := by
    refine issueOut_done hr hlegal rfl ?_ (.inr (hmode.trans hz))
    simp only [hfrom, hroom, Bool.not_true, Bool.false_eq_true, if_false]
    rw [← Core.completeNow_readFix]
    rfl
  have hown : (u.setCore c.val (u.core c.val).advance).core c.val = (u.core c.val).advance := State.core_setCore ..
  have hs1 : s1.core c.val = K' := State.core_setCore ..
  have huncorr : K'.spUncorr = k.spUncorr := (Core.spUncorr_completeNow ..).trans (Core.readFix_spUncorr ..)
  have hwords : K'.badWords = k.badWords := (Core.badWords_completeNow ..).trans (Core.readFix_badWords ..)
  have hset : s.OnlyCoreAndPackets s1 c [] := (s.onlyCore_set c K').toPackets
  rw [hs1] at honly
  refine ⟨_, hx, (hset.toLog.trans hsent).set _, ?restored, fun hnone => ?clean⟩
  case restored =>
    have hrestored := honly.restore
    rw [huncorr, hwords] at hrestored
    rw [hown]
    exact hrestored
  case clean =>
    obtain ⟨hpackets, hsame⟩ := hclean hnone
    rw [hown, hsame, hs1]
    exact ⟨(hset.trans hpackets).set _, huncorr, hwords⟩

/-- The root's core with the sum's entry reserved in `qb` (R219). -/
def Core.awaitSum (k : Core) (f : MovF) : Core :=
  { k.reserve f.qb.toNat (.bolts none) with redWait := k.redWait ++ [(f.group.toNat, f.qb.toNat, k.nextId)] }

theorem Core.awaited (k : Core) (f : MovF) (q : Nat) :
    let k' := ((k.popHead q).awaitSum f).advance
    k' = { (k.popHead q).advance with queues := k'.queues, nextId := k.nextId + 1
                                      redWait := k.redWait ++ [(f.group.toNat, f.qb.toNat, k.nextId)] } ∧
      k'.queue f.qb.toNat = (k.popHead q).queue f.qb.toNat ++ [⟨k.nextId, .bolts none⟩] ∧
      ∀ x, x ≠ f.qb.toNat → k'.queue x = (k.popHead q).queue x := by
  obtain ⟨Q, ranges, hpop⟩ : ∃ Q ranges, k.popHead q = { k with queues := Q, hzRanges := ranges } :=
    ⟨_, _, k.popHead_frame q⟩
  rw [hpop]
  exact ⟨rfl, (Core.queue_reserve ..).trans (if_pos rfl), fun x hx => (Core.queue_reserve ..).trans (if_neg hx)⟩

/-- Settles O23: each instruction by the rule of its body and the packets that it hands to its router. -/
theorem farAccessesAndTreesSendPackets : Obligations.FarAccessesAndTreesSendPackets := by
  intro s c g f hr hz k q a b n p da far Asked Ready
  simp -zeta only [exec_rget, exec_rput, exec_mcast, exec_rsend]
  refine ⟨fun hroom hok ha hb hin => ⟨fun d hd => ⟨?get, fun hclean => ?put, fun hbad => ?putPoisoned⟩,
    fun hd => ⟨?getNowhere, ?putNowhere⟩⟩, ?mcast, ?rsend⟩
  case mcast =>
    intro p' l hroom hpos hmax hfrom hok len part pks
    have hlegal : (movOk f [true, false, true, false, false, true, false, false, false, true, true] &&
        decide (1 ≤ f.imm16.toNat) && decide (f.imm16.toNat ≤ 4096)) = true := by simp [hok, hmax]; omega
    obtain ⟨flips, corrected, hread⟩ := k.readFix_shape p' len
    obtain ⟨t, hx, hsent, hcore, hclean⟩ := execMcast_sends hr hz hlegal hroom hfrom
    refine ⟨t, hx, hsent, ?_, hclean⟩
    rw [hcore]
    exact Core.completed hread q _
  case rsend =>
    intro id set rest hq hok root Sends
    have hq' : (s.core c.val).queue f.qa.toNat = ⟨id, .bolts (some set)⟩ :: rest := hq
    let pk : Packet := { s.packetFrom c.val 4 1 with
      group := f.group.toNat, excMask := boltMask set (·.exc), ovfMask := boltMask set (·.ovf)
      payload := (set.take 64).flatMap fun b => leBytes 8 b.value.toNat }
    have hbits : ∀ j, j < 64 → leAt pk.payload (8 * j) 8 = (set.getD j {}).value.toNat ∧
        pk.excMask.getLsbD j = (set.getD j {}).exc ∧ pk.ovfMask.getLsbD j = (set.getD j {}).ovf := fun j hj =>
      ⟨leAt_boltPayload set hj, getLsbD_boltMask set _ rfl hj, getLsbD_boltMask set _ rfl hj⟩
    refine ⟨fun hroot hqb => ?leaf, fun hroot hqb => ?illegal, fun hroot hroom => ?root⟩
    case leaf =>
      obtain ⟨t, hx, hsent, hcore⟩ : ∃ t, execRsend c g f s = .next t ∧ s.OnlyCoreAndPackets t c [pk] ∧
          t.core c.val = (k.popHead q).advance := by
        refine issueOut_sends hr hok rfl (.inl rfl) ?_
        simp only [root] at hroot
        simp only [hroot, hqb, hq', bne_self_eq_false, Bool.and_false, Bool.false_and, Bool.false_eq_true, if_false]
        rfl
      exact ⟨t, pk, hx, hsent, rfl, hbits, hcore, hcore ▸ (Core.queue_popHead hq q).trans (if_pos rfl)⟩
    case illegal =>
      refine issueOut_fail_core hr hok rfl (if_pos ?_)
      simp only [root] at hroot
      simp [hroot, hqb]
    case root =>
      have hroom' : ((s.core c.val).popHead f.qa.toNat).roomFor f.qb.toNat 1 = true := hroom
      obtain ⟨t, hx, hsent, hcore⟩ : ∃ t, execRsend c g f s = .next t ∧ s.OnlyCoreAndPackets t c [pk] ∧
          t.core c.val = ((k.popHead q).awaitSum f).advance := by
        refine issueOut_sends hr hok rfl (.inl rfl) ?_
        simp only [root] at hroot
        simp only [hroot, hq', hroom', Bool.not_true, Bool.false_and, Bool.and_false, Bool.false_eq_true, if_false, if_true]
        rfl
      obtain ⟨hframe, hown, hothers⟩ := k.awaited f q
      exact ⟨t, pk, hx, hsent, rfl, hbits, hcore ▸ hframe, hcore ▸ hown, hcore ▸ hothers,
        (Core.queue_popHead hq q).trans (if_pos rfl)⟩
  all_goals
    have hwide : (s.core c.val).wide ((s.core c.val).areg f.ra.toNat) (64 * f.imm16.toNat) = some p := by
      simp only [farForm, Bool.and_eq_true] at ha
      simp only [a, n, k] at ha hin
      simp [Core.wide, ha.1, hin, p, a, k]
    obtain ⟨flips, corrected, hread⟩ := k.readFix_shape p n
  case get =>
    obtain ⟨t, hx, hsent, hcore⟩ : ∃ t, execRget c g f s = .next t ∧ s.OnlyCoreAndPackets t c [far 1 d] ∧
        t.core c.val = (k.asking k f true p).advance :=
      issueOut_sends hr hok rfl (.inl rfl) (farBody_get hroom ha hb hwide hd)
    refine ⟨t, hx, hsent, ?_⟩
    rw [hcore]
    exact Core.asked (x := k.spFlip) (y := k.spCorrected) rfl f true p
  case put =>
    obtain ⟨t, hx, -, -, hsent, -⟩ := execRput_sends hr hz hok (farBody_put hroom ha hb hwide hd)
    obtain ⟨hpackets, hcore⟩ := hsent hclean
    refine ⟨t, hx, ?_, ?_⟩
    · rw [hcore]
      exact Core.asked hread f false p
    · rw [hclean] at hpackets
      exact hpackets
  case putPoisoned =>
    obtain ⟨t, hx, hsent, hcore, -, hcount⟩ := execRput_sends hr hz hok (farBody_put hroom ha hb hwide hd)
    have huncorr : (k.asking (k.readFix p n) f false p).spUncorr = k.spUncorr :=
      (Core.spUncorr_asking ..).trans (Core.readFix_spUncorr ..)
    have hwords : (k.asking (k.readFix p n) f false p).badWords = k.badWords :=
      (Core.badWords_asking ..).trans (Core.readFix_badWords ..)
    refine ⟨t, hx, ?_, ?_, ?_⟩
    · have hpoison : (!(k.poisoned p n).isEmpty) = true := by simpa using hbad
      have hpk : s.farPacket c.val f false (k.poisoned p n) (k.bytesAt p n) d =
          { far 0 d with payload := k.bytesAt p n, poison := true } := by
        unfold State.farPacket
        rw [hpoison]
        rfl
      rw [← hpk]
      exact hsent
    · rw [huncorr, hwords] at hcore
      rw [hcore]
      exact Core.asked hread f false p
    · rw [← huncorr]
      exact hcount hbad
  case getNowhere =>
    obtain ⟨t, hx, honly, hcore⟩ : ∃ t, execRget c g f s = .next t ∧ s.OnlyCore t c ∧
        t.core c.val = (k.completeNow q (complWord f.imm16.toNat 4 2 false 0)).advance :=
      issueOut_done_core hr hok rfl (.inl rfl) (farBody_nowhere hroom ha hb hwide true hd)
    refine ⟨t, hx, honly, ?_⟩
    rw [hcore]
    exact Core.completed (x := k.spFlip) (y := k.spCorrected) rfl q _
  case putNowhere =>
    obtain ⟨t, hx, honly, hcore⟩ : ∃ t, execRput c g f s = .next t ∧ s.OnlyCore t c ∧
        t.core c.val = ((k.readFix p n).completeNow q (complWord f.imm16.toNat 4 2 false 0)).advance := by
      rw [Core.completeNow_readFix]
      exact issueOut_done_core hr hok rfl (.inr hz) (farBody_nowhere hroom ha hb hwide false hd)
    refine ⟨t, hx, honly, ?_⟩
    rw [hcore]
    exact Core.completed hread q _

end Sys2Proof.Machine
end

section
/-! The step itself (O1) and the reset state (O59). -/

namespace Sys2Proof.Machine

/-! ## A nanosecond with no command (log entry 1) -/

/-- The held message of vector 1 touches the messages and their moderation alone. -/
theorem State.heldMessage_frame (s : State) : s.heldMessage = { s with
    sent := s.heldMessage.sent, fns := s.heldMessage.fns
    logMsgAt := s.heldMessage.logMsgAt, logMsgHeld := s.heldMessage.logMsgHeld } := by
  unfold State.heldMessage
  split
  · split
    · exact (congrArg (fun u : State => { u with logMsgAt := some s.uptime, logMsgHeld := false })
        (s.messagePfs_only 1).eq :)
    · rfl
  · rfl

/-- Without a held message nothing goes out. -/
theorem State.heldMessage_of_not_held {s : State} (h : s.logMsgHeld = false) : s.heldMessage = s := by
  unfold State.heldMessage
  rw [h]

/-- What an upset may change: cells of a core, or the errors of the HBM stacks. -/
theorem State.upset_frame (s : State) : s.upset = { s with
    cores := s.upset.cores, hbmErr := s.upset.hbmErr, hbmPoison := s.upset.hbmPoison } := by
  unfold State.upset
  split <;> rfl

/-- An upset of a core leaves its registers, its program counter, its run state and the bytes of its scratchpad. -/
theorem Core.hit_keeps (k : Core) (u : Config.Upset) :
    (k.hit u).regs = k.regs ∧ (k.hit u).pc = k.pc ∧ (k.hit u).run = k.run ∧ (k.hit u).sp = k.sp := by
  cases u with
  | scratchpad c w bad => cases bad <;> exact ⟨rfl, rfl, rfl, rfl⟩
  | _ => exact ⟨rfl, rfl, rfl, rfl⟩

theorem State.core_upset_keeps (s : State) (c : Nat) :
    (s.upset.core c).regs = (s.core c).regs ∧ (s.upset.core c).pc = (s.core c).pc ∧
      (s.upset.core c).run = (s.core c).run ∧ (s.upset.core c).sp = (s.core c).sp := by
  unfold State.upset
  split
  · exact ⟨rfl, rfl, rfl, rfl⟩
  · exact ⟨rfl, rfl, rfl, rfl⟩
  · next u _ _ =>
    rw [State.modCore, State.core_setCore_if]
    split
    · next h => subst h; exact Core.hit_keeps ..
    · exact ⟨rfl, rfl, rfl, rfl⟩

/-- The state a nanosecond later, before a message or an upset. -/
def State.nextNs (s : State) : State :=
  { s with time := (s.time + 1) % 2 ^ 64, uptime := (s.uptime + 1) % 2 ^ 64, mclkAcc := s.mclkAcc + s.rd K.mclkNow }

theorem State.tick_eq (s : State) : s.tick = s.nextNs.heldMessage.upset := rfl

/-- Settles O1: a command's step by definition, a nanosecond by what the held message and the upset can touch. -/
theorem stepRunsFrontCommand : Obligations.StepRunsFrontCommand := by
  refine ⟨fun c rest s hs => ?command, fun s hs => ?nanosecond⟩
  case command => simp only [step, hs]
  case nanosecond =>
    have hmsg := s.nextNs.heldMessage_frame
    have hup := s.nextNs.heldMessage.upset_frame
    refine ⟨s.tick, by simp only [step, hs], ?frame, fun hheld => ?held, fun hnone => ?noUpset, fun c k v => ?rest⟩
    all_goals rw [State.tick_eq]
    case frame =>
      generalize s.nextNs.heldMessage.upset = u at hup ⊢
      generalize s.nextNs.heldMessage = m at hmsg hup
      rw [hup, hmsg]
      rfl
    case held =>
      have hquiet : s.nextNs.heldMessage = s.nextNs := State.heldMessage_of_not_held hheld
      rw [hquiet] at hup ⊢
      exact ⟨(congrArg State.sent hup :), (congrArg State.fns hup :), (congrArg State.logMsgAt hup :),
        (congrArg State.logMsgHeld hup).trans hheld⟩
    case noUpset =>
      have huptime : s.nextNs.heldMessage.uptime = (s.uptime + 1) % 2 ^ 64 := (congrArg State.uptime hmsg :)
      have hnothing : s.nextNs.heldMessage.upset = s.nextNs.heldMessage := by
        unfold State.upset
        rw [huptime, hnone]
      rw [hnothing]
      exact ⟨(congrArg State.cores hmsg :), (congrArg State.hbmErr hmsg :), (congrArg State.hbmPoison hmsg :)⟩
    case rest =>
      obtain ⟨hregs, hpc, hrun, hsp⟩ := s.nextNs.heldMessage.core_upset_keeps c
      have hcores : s.nextNs.heldMessage.cores = s.cores := (congrArg State.cores hmsg :)
      have hcore : s.nextNs.heldMessage.core c = s.core c := congrArg (fun m => mapGet (fun _ => ({} : Core)) m c) hcores
      have hdict : s.nextNs.heldMessage.upset.dict = s.dict :=
        (congrArg State.dict hup).trans (congrArg State.dict hmsg :)
      rw [hcore] at hregs hpc hrun hsp
      exact ⟨hregs, hpc, hrun, congrArg (memByte · k) hsp, congrArg (mapGet dictDefault · v) hdict⟩

/-! ## The reset state -/

/-- Settles O59: the entries by the dictionary's table, the rest by the state's initial fields. -/
theorem resetHoldsStatedValues : Obligations.ResetHoldsStatedValues := by
  have hpcie : ∀ n < 8, State.reset.rd (K.cplTimeout n) = 50000 ∧ State.reset.rd (K.pcieMaxRate n) = 6 ∧
      State.reset.rd (K.pcieRate n) = 0 := by decide +kernel
  have hhbm : ∀ n < 16, State.reset.rd (K.hbmTimeout n) = 200 ∧ State.reset.rd (K.hbmState n) = 0 := by decide +kernel
  have hinst : ∀ i < 12, State.reset.rd (K.instState i) = 0 := by decide +kernel
  have hwindow (w : Nat) : (State.reset.window w).valid = false :=
    show bit (State.reset.winWord w 2) 15 = false from (show State.reset.winWord w 2 = 0 from rfl) ▸ by decide
  exact ⟨rfl, rfl, rfl, rfl, fun _ => rfl, hpcie, hhbm, fun _ _ => rfl, hwindow, fun i hi => ⟨hinst i hi, rfl⟩⟩

end Sys2Proof.Machine
end

section
/-! What issuing an instruction keeps: the HBM stacks, host memory, the panels of the instances, and the canonical form of
every scratchpad. -/

namespace Sys2Proof.Machine

/-! ## Entries of a map -/

theorem mem_mapIns {α : Type} {m : Map α} {k : Nat} {v : α} {p : Nat × α} (h : p ∈ mapIns m k v) : p = (k, v) ∨ p ∈ m := by
  induction m with
  | nil => exact .inl (by simpa [mapIns] using h)
  | cons q m ih =>
    unfold mapIns at h
    split at h
    · exact (List.mem_cons.mp h)
    · rcases List.mem_cons.mp h with rfl | h
      · exact .inr (List.mem_cons_self ..)
      · exact (ih h).imp_right (List.mem_cons_of_mem q)

/-- An entry after a write is the one written or was there before. -/
theorem mem_mapSet {α : Type} [DecidableEq α] {d : Nat → α} {m : Map α} {k : Nat} {v : α} {p : Nat × α}
    (h : p ∈ mapSet d m k v) : p = (k, v) ∨ p ∈ m := by
  unfold mapSet at h
  split at h
  · exact .inr (List.mem_of_mem_filter h)
  · exact (mem_mapIns h).imp_right List.mem_of_mem_filter

/-- What a key reads as is an entry's value or the default. -/
theorem mapGet_mem {α : Type} (d : Nat → α) (m : Map α) (k : Nat) : mapGet d m k = d k ∨ (k, mapGet d m k) ∈ m := by
  induction m with
  | nil => exact .inl rfl
  | cons q m ih =>
    obtain ⟨j, v⟩ := q
    unfold mapGet
    split
    · next h => subst h; exact .inr (List.mem_cons_self ..)
    · exact ih.imp_right (List.mem_cons_of_mem _)

/-! ## The relation -/

/-- Every scratchpad is in canonical form. -/
def State.padsWf (s : State) : Prop := ∀ p ∈ s.cores, memWf p.2.sp = true

/-- What no Idmor instruction touches, and that it leaves the scratchpads canonical. -/
structure State.Keeps (s t : State) : Prop where
  hbm : t.hbm = s.hbm
  hostMem : t.hostMem = s.hostMem
  panels : ∀ i, (t.inst i).panels = (s.inst i).panels
  pads : s.padsWf → t.padsWf

theorem State.Keeps.refl (s : State) : s.Keeps s := ⟨rfl, rfl, fun _ => rfl, id⟩

theorem State.Keeps.trans {s t u : State} (h : s.Keeps t) (h' : t.Keeps u) : s.Keeps u :=
  ⟨h'.hbm.trans h.hbm, h'.hostMem.trans h.hostMem, fun i => (h'.panels i).trans (h.panels i), fun hs => h'.pads (h.pads hs)⟩

theorem State.memoriesWf_iff (s : State) :
    s.memoriesWf = true ↔ memWf s.hbm = true ∧ memWf s.hostMem = true ∧ s.padsWf := by
  simp [State.memoriesWf, State.padsWf, and_assoc]

theorem State.Keeps.memoriesWf {s t : State} (h : s.Keeps t) (hs : s.memoriesWf = true) : t.memoriesWf = true := by
  rw [State.memoriesWf_iff] at *
  obtain ⟨hhbm, hhost, hpads⟩ := hs
  exact ⟨h.hbm ▸ hhbm, h.hostMem ▸ hhost, h.pads hpads⟩

theorem State.padsWf_core {s : State} (h : s.padsWf) (c : Nat) : memWf (s.core c).sp = true := by
  rcases mapGet_mem (fun _ => ({} : Core)) s.cores c with hc | hc
  · have : s.core c = {} := hc
    rw [this]
    rfl
  · exact h _ hc

/-- A state that differs in none of these keeps them. -/
theorem State.Keeps.of_eq {s t : State} (hhbm : t.hbm = s.hbm) (hhost : t.hostMem = s.hostMem) (hinsts : t.insts = s.insts)
    (hcores : t.cores = s.cores) : s.Keeps t :=
  ⟨hhbm, hhost, fun i => congrArg (fun m => (mapGet (fun _ => ({} : Inst)) m i).panels) hinsts,
    fun h => by unfold State.padsWf; rw [hcores]; exact h⟩

/-- A core whose scratchpad stays canonical. -/
theorem State.keeps_setCore_of (s : State) (c : Nat) {k : Core} (h : memWf (s.core c).sp = true → memWf k.sp = true) :
    s.Keeps (s.setCore c k) := by
  refine ⟨rfl, rfl, fun _ => rfl, fun hs p hp => ?_⟩
  rcases mem_mapSet (d := fun _ => ({} : Core)) (m := s.cores) (k := c) (v := k) hp with rfl | hp
  · exact h (s.padsWf_core hs c)
  · exact hs p hp

/-- A core with the same scratchpad. -/
theorem State.keeps_setCore (s : State) (c : Nat) {k : Core} (h : k.sp = (s.core c).sp) : s.Keeps (s.setCore c k) :=
  s.keeps_setCore_of c fun hs => h ▸ hs

theorem State.Keeps.setCore {s t : State} (h : s.Keeps t) (c : Nat) {k : Core} (hk : k.sp = (t.core c).sp) :
    s.Keeps (t.setCore c k) := h.trans (t.keeps_setCore c hk)

theorem State.Keeps.ite {s a b : State} {p : Prop} [Decidable p] (h : s.Keeps a) (h' : s.Keeps b) :
    s.Keeps (if p then a else b) := by
  split
  · exact h
  · exact h'

theorem State.Keeps.each {α : Type} {s : State} (l : List α) {f : State → α → State} (h : ∀ s x, State.Keeps s (f s x)) :
    s.Keeps (s.each l f) :=
  State.each_rel (R := State.Keeps) State.Keeps.refl (fun h h' => h.trans h') h l s

/-! ## The state's operations -/

theorem State.LogOnly.keeps {s t : State} (h : s.LogOnly t) : s.Keeps t :=
  .of_eq (congrArg State.hbm h.eq :) (congrArg State.hostMem h.eq :) (congrArg State.insts h.eq :) (congrArg State.cores h.eq :)

theorem State.keeps_wr (s : State) (key v : Nat) : s.Keeps (s.wr key v) := .of_eq rfl rfl rfl rfl

theorem State.keeps_bump (s : State) (key w n : Nat) : s.Keeps (s.bump key w n) := State.keeps_wr s key _

theorem State.keeps_freeStep (s : State) : s.Keeps s.freeStep := .of_eq rfl rfl rfl rfl

theorem State.keeps_logDev (s : State) (o r : Nat) : s.Keeps (s.logDev o r) := (s.logDev_only o r).keeps

theorem State.keeps_inject (s : State) (r port : Nat) (p : Packet) : s.Keeps (s.inject r port p) := .of_eq rfl rfl rfl rfl

/-- An instance's state with the same panels. -/
theorem State.keeps_setInst (s : State) (i : Nat) {x : Inst} (h : x.panels = (s.inst i).panels) : s.Keeps (s.setInst i x) := by
  refine ⟨rfl, rfl, fun j => ?_, id⟩
  rw [State.inst_setInst_if]
  split
  · next hj => rw [hj, h]
  · rfl

theorem State.keeps_trap (s : State) (c : Nat) (t : TrapInfo) (pc op : Nat) : s.Keeps (s.trap c t pc op) := by
  have hstop : s.Keeps (s.setCore c { s.core c with run := .trapped, trapCode := t.code, trapStatus := t.status }) :=
    s.keeps_setCore c rfl
  have hcount := hstop.trans (State.keeps_bump _ K.traps 64 1)
  unfold State.trap
  dsimp only
  generalize State.bump _ K.traps 64 1 = u at hcount ⊢
  split
  · exact hcount.trans (State.keeps_logDev ..)
  · exact (hcount.trans (u.keeps_setInst _ (by rfl))).trans (State.keeps_logDev ..)

theorem State.keeps_recordHz (s : State) (c op pc : Nat) (t : TrapInfo) : s.Keeps (s.recordHz c op pc t) := by
  have hcount : s.Keeps (s.bump K.hzCount 64 1) := State.keeps_bump ..
  have hfree : s.Keeps (s.bump K.hzCount 64 1).freeStep := hcount.trans (State.keeps_freeStep _)
  have hseen : s.Keeps ((s.bump K.hzCount 64 1).freeStep.setCore c { s.core c with hzSeen := t.code :: (s.core c).hzSeen }) :=
    hfree.setCore c (by rfl)
  unfold State.recordHz
  refine State.Keeps.ite hcount ?_
  exact State.Keeps.ite (hseen.trans (State.keeps_bump ..)) (hseen.trans (State.keeps_logDev ..))

theorem State.keeps_hazards (s : State) (c op pc : Nat) (accs : List Access) (l : List TrapInfo) :
    s.Keeps (s.hazards c op pc accs l) := by
  unfold State.hazards
  refine State.Keeps.ite (.refl s) ?_
  have hfree : s.Keeps { s with freeNext := s.freeNext + 2 * accs.length } := .of_eq rfl rfl rfl rfl
  exact (hfree.trans (.each l fun s t => s.keeps_recordHz c op pc t)).setCore c (by rfl)

theorem State.keeps_portUse (s : State) (c : Nat) (own : Option (Nat × Nat)) (pc : Nat) (accs : List Access) :
    s.Keeps (s.portUse c own pc accs) := by
  unfold State.portUse
  dsimp only
  split
  · exact State.Keeps.ite ((State.keeps_hazards ..).trans (State.keeps_trap ..)) (State.keeps_hazards ..)
  · exact State.keeps_hazards ..

theorem State.keeps_fixRead (s : State) (c a n : Nat) : s.Keeps (s.fixRead c a n) := by
  unfold State.fixRead
  exact State.Keeps.ite (.refl s) (s.keeps_setCore c (Core.readFix_sp ..))

theorem State.keeps_noteUncorr (s : State) (c port : Nat) (ws : List Nat) : s.Keeps (s.noteUncorr c port ws) :=
  .each ws fun s _ => (s.keeps_setCore c (by rfl)).trans (State.keeps_logDev ..)

/-! ## Issuing -/

/-- What an instruction's body answers keeps these. -/
def Res.Keeps (s : State) : Res → Prop
  | .done t => s.Keeps t
  | .jump t _ => s.Keeps t
  | .wait t => s.Keeps t
  | .trapIn t _ => s.Keeps t
  | .trap _ => True

theorem Res.Keeps.ite {s : State} {a b : Res} {p : Prop} [Decidable p] (h : a.Keeps s) (h' : b.Keeps s) :
    (if p then a else b).Keeps s := by
  split
  · exact h
  · exact h'

/-- Issuing keeps what the instruction's body keeps. -/
theorem State.keeps_issue (s : State) (c : Nat) (g : Guard) (op : Nat) (legal ro : Bool) (accs : List Access)
    {body : Core → Res} (h : (body (s.core c)).Keeps s) : s.Keeps (s.issue c g op legal ro accs body) := by
  unfold State.issue
  refine State.Keeps.ite (.refl s) ?_
  dsimp only
  split
  · exact (s.keeps_setCore c (by rfl)).trans (State.keeps_trap ..)
  · refine State.Keeps.ite (State.keeps_trap ..) (State.Keeps.ite (State.keeps_trap ..)
      (State.Keeps.ite (State.keeps_trap ..) (State.Keeps.ite (s.keeps_setCore c (by rfl)) ?_)))
    split
    · exact State.keeps_trap ..
    · next hb => rw [hb] at h; exact State.Keeps.trans h (State.keeps_trap ..)
    · next t hb =>
      rw [hb] at h
      have hdone : s.Keeps t := h
      split
      · refine State.Keeps.ite ?_ ((hdone.trans (State.keeps_hazards ..)).setCore c (by rfl))
        have hfree : s.Keeps { s with freeNext := t.freeNext } := .of_eq rfl rfl rfl rfl
        exact (hfree.trans (State.keeps_hazards ..)).trans (State.keeps_trap ..)
      · exact (hdone.trans (State.keeps_hazards ..)).setCore c (by rfl)
    · next hb => rw [hb] at h; exact State.Keeps.setCore h c rfl
    · next hb => rw [hb] at h; exact h

/-- A command keeps these in every state that it leads to. -/
def Out.Keeps (s : State) (x : Out) : Prop := ∀ t, x = .next t → s.Keeps t

theorem issueOut_keeps {s : State} {c : CoreId} {g : Guard} {op : Nat} {legal ro : Bool} {accs : List Access}
    {body : Core → Res} (h : (body (s.core c.val)).Keeps s) : Out.Keeps s (issueOut s c g op legal ro accs body) := by
  intro t ht
  obtain rfl : s.issue c.val g op legal ro accs body = t := by injection ht
  exact s.keeps_issue c.val g op legal ro accs h

end Sys2Proof.Machine
end

section
/-! Every Idmor instruction keeps the memories canonical (O60). -/

namespace Sys2Proof.Machine

/-! ## Scratchpads after a change of the core -/

@[simp] theorem Core.sp_writeReg (k : Core) (r : Nat) (v : Word) : (k.writeReg r v).sp = k.sp := by
  rw [Core.writeReg_frame]

@[simp] theorem Core.sp_putF32 (k : Core) (x : Nat) (l : List Nat) (t : Bool) : (k.putF32 x l t).sp = k.sp := rfl
@[simp] theorem Core.sp_putF16 (k : Core) (x : Nat) (l : List Nat) (t : Bool) : (k.putF16 x l t).sp = k.sp := rfl
@[simp] theorem Core.sp_setQueue (k : Core) (q : Nat) (l : List QEntry) : (k.setQueue q l).sp = k.sp := rfl
@[simp] theorem Core.sp_redFix (k : Core) (f : FinF) (ps : List Nat) : (redFix k f ps).sp = k.sp := redFix_sp f ps k

theorem State.Keeps.noteUncorr {s t : State} (h : s.Keeps t) (c port : Nat) (ws : List Nat) :
    s.Keeps (t.noteUncorr c port ws) := h.trans (t.keeps_noteUncorr c port ws)

theorem State.Keeps.bump {s t : State} (h : s.Keeps t) (key w n : Nat) : s.Keeps (t.bump key w n) :=
  h.trans (t.keeps_bump key w n)

theorem Core.memWf_store {k : Core} (a : Nat) (bs : List Byte) (h : memWf k.sp = true) : memWf (k.store a bs).sp = true := by
  rw [Core.store_sp]
  exact memWf_write bs a h

theorem Core.memWf_storeAll {as : List Nat} {k : Core} (bs : List Byte) (h : memWf k.sp = true) :
    memWf (k.storeAll as bs).sp = true := by
  induction as generalizing k with
  | nil => exact h
  | cons a as ih =>
    rw [Core.storeAll_cons]
    exact ih (Core.memWf_store a bs h)

@[simp] theorem Core.sp_popHead (k : Core) (q : Nat) : (k.popHead q).sp = k.sp := by rw [Core.popHead_frame]

theorem sp_settleArrival (n : Nat) : ∀ (k : Core) (a : Arrival), (settleArrival k a n).1.sp = k.sp := by
  induction n with
  | zero => exact fun _ _ => rfl
  | succ n ih =>
    intro k a
    unfold settleArrival
    split
    · rfl
    · split
      · exact (ih _ _).trans rfl
      · rfl

theorem Core.sp_putArrival (k : Core) (a : Arrival) : (k.putArrival a).sp = k.sp := sp_settleArrival _ k a

section
variable {s : State} {c : CoreId} {g : Guard} {op : Nat}

/-! ## Bodies that change their own core alone -/

/-- A body that is done with its core changed, the scratchpad not. -/
theorem Res.keeps_done {k : Core} (h : k.sp = (s.core c.val).sp) : (Res.done (s.setCore c k)).Keeps s := s.keeps_setCore c h

theorem Res.keeps_wait {k : Core} (h : k.sp = (s.core c.val).sp) : (Res.wait (s.setCore c k)).Keeps s := s.keeps_setCore c h

theorem Res.keeps_trap (t : TrapInfo) : (Res.trap t).Keeps s := trivial

theorem Res.keeps_same : (Res.wait s).Keeps s := .refl s

/-! ## Scalar and control -/

theorem keeps_scalar {f : ScalF} {ok : Bool} {fn : Word → Word → Word} : Out.Keeps s (scalar s c g f op ok fn) :=
  issueOut_keeps (Res.keeps_done (Core.sp_writeReg ..))

theorem keeps_execSld {f : ScalF} : Out.Keeps s (execSld c g f s) := by
  refine issueOut_keeps ?_
  split
  · exact Res.keeps_trap _
  · refine Res.Keeps.ite ?_ (Res.keeps_done (by simp))
    exact (State.keeps_fixRead ..).trans (State.keeps_noteUncorr ..)

theorem keeps_execSst {f : ScalF} : Out.Keeps s (execSst c g f s) := by
  refine issueOut_keeps ?_
  split
  · exact Res.keeps_trap _
  · exact s.keeps_setCore_of c.val (Core.memWf_store _ _)

theorem keeps_branchTo (t : Nat) : (branchTo s c.val t).Keeps s := s.keeps_setCore c.val (by rfl)

theorem keeps_execNop {f : CtlF} : Out.Keeps s (execNop c g f s) := issueOut_keeps (State.Keeps.refl s)

theorem keeps_execHalt {f : CtlF} : Out.Keeps s (execHalt c g f s) :=
  issueOut_keeps (.ite (Res.keeps_trap _) (.ite Res.keeps_same (Res.keeps_wait (by rfl))))

theorem keeps_execBr {f : CtlF} : Out.Keeps s (execBr c g f s) := by
  refine issueOut_keeps ?_
  split
  · exact keeps_branchTo _
  · exact Res.keeps_trap _

theorem keeps_execBrr {f : CtlF} : Out.Keeps s (execBrr c g f s) :=
  issueOut_keeps (.ite (keeps_branchTo _) (Res.keeps_trap _))

theorem keeps_execCall {f : CtlF} : Out.Keeps s (execCall c g f s) := by
  refine issueOut_keeps ?_
  split
  · exact .ite (Res.keeps_trap _) (s.keeps_setCore c.val (by rfl))
  · exact Res.keeps_trap _

theorem keeps_execRet {f : CtlF} : Out.Keeps s (execRet c g f s) := by
  refine issueOut_keeps ?_
  split
  · exact s.keeps_setCore c.val (by rfl)
  · exact Res.keeps_trap _

theorem keeps_execLoop {f : CtlF} : Out.Keeps s (execLoop c g f s) := by
  refine issueOut_keeps ?_
  split
  · exact s.keeps_setCore c.val (by rfl)
  · exact Res.keeps_trap _

theorem keeps_execBrk {f : CtlF} : Out.Keeps s (execBrk c g f s) := issueOut_keeps (Res.keeps_trap _)

/-! ## The engine -/

theorem State.keeps_fcSelect (s : State) (c e tile layer : Nat) : s.Keeps (s.fcSelect c e tile layer) := by
  rcases s.fcSelect_cases c e tile layer with h | ⟨i, -, -, ⟨d, h⟩ | ⟨d, b, h⟩⟩
  · rw [h]; exact .refl s
  · rw [h]; exact State.Keeps.bump (s.keeps_setCore c (by rfl)) ..
  · rw [h]; exact s.keeps_setCore c (by rfl)

theorem State.Keeps.fcSelect {s t : State} (h : s.Keeps t) (c e tile layer : Nat) : s.Keeps (t.fcSelect c e tile layer) :=
  h.trans (t.keeps_fcSelect c e tile layer)

@[simp] theorem Core.sp_enqueue (k : Core) (p : Nat) (e : ECmd) : (k.enqueue p e).sp = k.sp := rfl

theorem State.keeps_queuePass (s : State) (c tile ea es p : Nat) : s.Keeps (queuePass c tile ea es s p) := by
  unfold queuePass
  dsimp only
  exact State.Keeps.fcSelect (State.Keeps.noteUncorr (s.keeps_setCore c (by simp)) ..) ..

theorem keeps_execMmv {f : EngF} : Out.Keeps s (execMmv c g f s) :=
  issueOut_keeps (.ite (Res.keeps_trap _) (.ite (Res.keeps_trap _) (.ite Res.keeps_same
    (State.Keeps.each _ fun s p => s.keeps_queuePass c f.tile.toNat _ _ p))))

theorem Core.sp_queuePosts (q : Nat) (kind : QKind) (cmd : Nat → ECmd) (ps : List Nat) (k : Core) :
    (queuePosts k q kind cmd ps).sp = k.sp := by
  rw [queuePosts_frame]

theorem Core.sp_foldl_setPos (F : PosState → PosState) (ps : List Nat) (k : Core) :
    (ps.foldl (fun k p => k.setPos p (F (k.posOf p))) k).sp = k.sp := by
  rw [foldl_setPos_frame]

theorem keeps_execBflush {f : EngF} : Out.Keeps s (execBflush c g f s) :=
  issueOut_keeps (.ite (Res.keeps_trap _) (.ite (Res.keeps_trap _) (.ite Res.keeps_same
    (Res.keeps_done (Core.sp_queuePosts ..)))))

theorem keeps_execBzero {f : EngF} : Out.Keeps s (execBzero c g f s) :=
  issueOut_keeps (.ite (Res.keeps_trap _) (.ite Res.keeps_same (Res.keeps_done
    (Core.sp_foldl_setPos (fun x => { x with cmdq := x.cmdq ++ [.bzero] }) _ _))))

theorem keeps_execCsum {f : EngF} : Out.Keeps s (execCsum c g f s) :=
  issueOut_keeps (.ite (Res.keeps_trap _) (.ite (Res.keeps_trap _) (.ite Res.keeps_same
    (Res.keeps_done (Core.sp_queuePosts ..)))))

theorem keeps_execEctlw {f : EngF} : Out.Keeps s (execEctlw c g f s) :=
  issueOut_keeps (.ite (Res.keeps_trap _) (Res.keeps_done
    (Core.sp_foldl_setPos (fun x => { x with ectl := BitVec.ofNat 32 f.imm24.toNat }) _ _)))

/-! ## The finisher -/

theorem State.keeps_noteFinisher (s : State) (c kind : Nat) : s.Keeps (s.noteFinisher c kind) := by
  unfold State.noteFinisher
  dsimp only
  split
  · exact .refl s
  · exact (State.keeps_wr ..).trans (State.keeps_logDev ..)

theorem State.keeps_noteMany (s : State) (c kind n : Nat) : s.Keeps (s.noteMany c kind n) :=
  .each _ fun s _ => s.keeps_noteFinisher c kind

theorem State.Keeps.noteMany {s t : State} (h : s.Keeps t) (c kind n : Nat) : s.Keeps (t.noteMany c kind n) :=
  h.trans (t.keeps_noteMany c kind n)

theorem State.keeps_fcDeliver (s : State) (c e tile rb : Nat) (vs : List Fl) : s.Keeps (s.fcDeliver c e tile rb vs) := by
  unfold State.fcDeliver
  dsimp only
  split
  · exact .refl s
  · split
    · exact .refl s
    · exact s.keeps_setCore c (by rfl)

theorem State.keeps_fcFeed (s : State) (c b : Nat) (vs : List Fl) : s.Keeps (s.fcFeed c b vs) := by
  unfold State.fcFeed
  dsimp only
  split
  · exact .refl s
  · exact .each _ fun s f => .ite ((s.keeps_fcSelect ..).trans (State.keeps_fcDeliver ..)) (.refl s)

theorem State.keeps_keepRecord (s : State) (c b : Nat) (r : List Byte) : s.Keeps (s.keepRecord c b r) := by
  rw [State.keepRecord_frame]
  exact .of_eq rfl rfl rfl rfl

theorem keeps_execFld {f : FinF} : Out.Keeps s (execFld c g f s) := by
  refine issueOut_keeps ?_
  dsimp only
  split
  · exact Res.keeps_trap _
  · exact (s.keeps_setCore c.val (by simp)).noteUncorr ..

theorem keeps_execFst {f : FinF} : Out.Keeps s (execFst c g f s) := by
  refine issueOut_keeps ?_
  split
  · exact Res.keeps_trap _
  · exact s.keeps_setCore_of c.val (Core.memWf_store _ _)

theorem keeps_execFcvt {f : FinF} : Out.Keeps s (execFcvt c g f s) := by
  refine issueOut_keeps ?_
  dsimp only
  split
  · exact (s.keeps_setCore c.val (by simp)).noteMany ..
  · exact Res.keeps_trap _

theorem keeps_execFcvtb {f : FinF} : Out.Keeps s (execFcvtb c g f s) := issueOut_keeps (s.keeps_setCore c.val (by simp))

theorem keeps_execFunp {f : FinF} : Out.Keeps s (execFunp c g f s) :=
  issueOut_keeps ((s.keeps_setCore c.val (by simp)).noteMany ..)

theorem keeps_lanes3 {f : FinF} {u : FinUse} {fn : Fl → Fl → Fl → Nat} : Out.Keeps s (lanes3 s c g f op u fn) :=
  issueOut_keeps (s.keeps_setCore c.val (by simp))

theorem keeps_lanesLf {f : FinF} {two mask : Bool} {subs : List Nat} {fn : Fmt → Fl → Fl → Nat} :
    Out.Keeps s (lanesLf s c g f op two subs mask fn) := by
  refine issueOut_keeps (.ite (s.keeps_setCore c.val ?_) (s.keeps_setCore c.val ?_))
  · split <;> simp
  · split <;> simp

theorem keeps_execFsum {f : FinF} : Out.Keeps s (execFsum c g f s) := by
  refine issueOut_keeps ?_
  dsimp only
  split
  · exact Res.keeps_trap _
  · exact (s.keeps_setCore c.val (by simp)).noteUncorr ..

theorem keeps_execFdot {f : FinF} : Out.Keeps s (execFdot c g f s) := by
  refine issueOut_keeps ?_
  dsimp only
  split
  · exact Res.keeps_trap _
  · exact (s.keeps_setCore c.val (by simp)).noteUncorr ..

theorem keeps_norm {f : FinF} {stats : List Fl → Fl → Fl × Fl × List Nat} : Out.Keeps s (norm s c g f op stats) := by
  refine issueOut_keeps ?_
  dsimp only
  split
  · refine State.Keeps.noteUncorr (s.keeps_setCore_of c.val fun h => ?_) ..
    refine Core.memWf_store _ _ ?_
    rw [Core.readFix_sp, redFix_sp]
    exact h
  · exact Res.keeps_trap _
  · exact Res.keeps_trap _
  · exact Res.keeps_trap _

theorem keeps_execFalt {f : FinF} : Out.Keeps s (execFalt c g f s) := issueOut_keeps (s.keeps_setCore c.val (by simp))
theorem keeps_execFqk {f : FinF} : Out.Keeps s (execFqk c g f s) := issueOut_keeps (s.keeps_setCore c.val (by simp))
theorem keeps_execFsmx {f : FinF} : Out.Keeps s (execFsmx c g f s) := issueOut_keeps (s.keeps_setCore c.val (by simp))
theorem keeps_execFpv {f : FinF} : Out.Keeps s (execFpv c g f s) := issueOut_keeps (s.keeps_setCore c.val (by simp))

theorem keeps_execFemb {f : FinF} : Out.Keeps s (execFemb c g f s) := by
  refine issueOut_keeps ?_
  dsimp only
  split
  · exact Res.keeps_trap _
  · exact (s.keeps_setCore c.val (by simp)).noteUncorr ..

end

end Sys2Proof.Machine
end

section
/-! Every Idmor instruction keeps the memories canonical: FQUANT, movement, sync and sampling, and the statement (O60). -/

namespace Sys2Proof.Machine

variable {s : State} {c : CoreId} {g : Guard} {op : Nat}

/-! ## FQUANT (R206) -/

theorem State.Keeps.keepRecord {s t : State} (h : s.Keeps t) (c b : Nat) (r : List Byte) : s.Keeps (t.keepRecord c b r) :=
  h.trans (t.keeps_keepRecord c b r)

theorem State.Keeps.fcFeed {s t : State} (h : s.Keeps t) (c b : Nat) (vs : List Fl) : s.Keeps (t.fcFeed c b vs) :=
  h.trans (t.keeps_fcFeed c b vs)

theorem State.core_keepRecord (s : State) (c b : Nat) (r : List Byte) (d : Nat) : (s.keepRecord c b r).core d = s.core d := by
  rw [State.keepRecord_frame]
  rfl

/-- The core of an instruction, changed after the records went to their sequence. -/
theorem State.keeps_recordsThenCore (s : State) (c : Nat) (fb : Bool) (r0 r1 : List Byte) {k : Core}
    (h : memWf (s.core c).sp = true → memWf k.sp = true) :
    s.Keeps ((if fb = true then (s.keepRecord c 0 r0).keepRecord c 1 r1 else s).setCore c k) := by
  split
  · refine ((State.Keeps.refl s).keepRecord c 0 r0 |>.keepRecord c 1 r1).trans (State.keeps_setCore_of _ c ?_)
    rwa [State.core_keepRecord, State.core_keepRecord]
  · exact s.keeps_setCore_of c h

theorem keeps_execFquant {f : FinF} : Out.Keeps s (execFquant c g f s) := by
  refine issueOut_keeps ?_
  dsimp only
  refine .ite ?_ ?_
  · split
    · refine State.Keeps.fcFeed (State.Keeps.fcFeed (State.Keeps.noteMany (State.keeps_recordsThenCore s c.val _ _ _
        fun h => ?_) ..) ..) ..
      have hstored : ∀ pa pb elems scales, memWf (((s.core c.val).storeAll pa elems).storeAll pb scales).sp = true :=
        fun _ _ _ _ => Core.memWf_storeAll _ (Core.memWf_storeAll _ h)
      split_ifs <;> simpa using hstored ..
    · exact Res.keeps_trap _
    · exact Res.keeps_trap _
  · refine State.Keeps.fcFeed (State.Keeps.fcFeed (State.Keeps.noteMany (State.keeps_recordsThenCore s c.val _ _ _
      fun h => ?_) ..) ..) ..
    split_ifs <;> simpa using h

/-! ## Movement -/

@[simp] theorem Core.sp_reserve (k : Core) (q : Nat) (kind : QKind) : (k.reserve q kind).sp = k.sp := rfl
@[simp] theorem Core.sp_postWord (k : Core) (q id : Nat) (w : Word64) : (k.postWord q id w).sp = k.sp := rfl
@[simp] theorem Core.sp_putArrival_simp (k : Core) (a : Arrival) : (k.putArrival a).sp = k.sp := k.sp_putArrival a

theorem State.Keeps.inject {s t : State} (h : s.Keeps t) (r port : Nat) (p : Packet) : s.Keeps (t.inject r port p) :=
  h.trans (t.keeps_inject r port p)

theorem State.Keeps.portUse {s t : State} (h : s.Keeps t) (d : Nat) (own : Option (Nat × Nat)) (pc : Nat)
    (accs : List Access) : s.Keeps (t.portUse d own pc accs) := h.trans (t.keeps_portUse d own pc accs)

theorem keeps_pushDesc {u : State} {k : Core} {walk : Bool} {ch : Nat} {bs : List Byte} (h : s.Keeps u)
    (hk : k.sp = (u.core c.val).sp) : (pushDesc u c.val k walk ch bs).Keeps s := by
  unfold pushDesc
  dsimp only
  split
  · exact Res.keeps_trap _
  · exact .ite (Res.keeps_trap _) (.ite (h.setCore c.val (by simpa using hk)) (.ite h (h.setCore c.val (by simpa using hk))))
  · exact .ite (Res.keeps_trap _) (.ite h (h.setCore c.val (by simpa using hk)))

theorem keeps_pushBody {f : MovF} {walk : Bool} : (pushBody s c.val f walk (s.core c.val)).Keeps s := by
  unfold pushBody
  dsimp only
  split
  · exact Res.keeps_trap _
  · split
    · exact keeps_pushDesc (State.keeps_fixRead ..) (by rw [State.core_fixRead])
    · exact (State.keeps_fixRead ..).noteUncorr ..

theorem keeps_execQpush {f : MovF} : Out.Keeps s (execQpush c g f s) := issueOut_keeps keeps_pushBody
theorem keeps_execPwalk {f : MovF} : Out.Keeps s (execPwalk c g f s) := issueOut_keeps keeps_pushBody

theorem keeps_execQwait {f : MovF} : Out.Keeps s (execQwait c g f s) := by
  refine issueOut_keeps ?_
  dsimp only
  split
  · exact Res.keeps_trap _
  · split
    · exact Res.keeps_same
    · exact Res.keeps_same
    · exact State.Keeps.refl s
    · exact .ite (s.keeps_setCore c.val (by simp)) (s.keeps_setCore c.val (by simp))

theorem keeps_execQexp {f : MovF} : Out.Keeps s (execQexp c g f s) := by
  refine issueOut_keeps ?_
  dsimp only
  refine .ite (Res.keeps_trap _) (.ite (Res.keeps_trap _) ?_)
  split
  · exact Res.keeps_trap _
  · exact s.keeps_setCore c.val (by simp)

/-- An access to the neighbour keeps what its transfer keeps. -/
theorem keeps_nbrBody {f : MovF} {go : Nat → Nat → Res} (h : ∀ n p, (go n p).Keeps s) :
    (nbrBody s c.val op f (s.core c.val) go).Keeps s := by
  unfold nbrBody
  dsimp only
  refine .ite (Res.keeps_trap _) (.ite (Res.keeps_trap _) ?_)
  split
  · exact s.keeps_setCore c.val (by rfl)
  · exact h _ _

theorem keeps_execNget {f : MovF} : Out.Keeps s (execNget c g f s) := by
  refine issueOut_keeps (keeps_nbrBody fun n p => .ite ?_ ?_)
  · have hfree : s.Keeps (s.freeBytes 256).1 := .of_eq rfl rfl rfl rfl
    exact hfree.setCore c.val (by rfl)
  · have hread := ((s.keeps_fixRead n p 256).noteUncorr n 5 ((s.core n).poisoned p 256)).portUse n none 0 [⟨5, false, p, 256⟩]
    exact hread.setCore c.val (by simp)

theorem keeps_execNput {f : MovF} : Out.Keeps s (execNput c g f s) := by
  refine issueOut_keeps (keeps_nbrBody fun n p => State.Keeps.ite (.refl s) ?_)
  exact State.Keeps.portUse (s.keeps_setCore_of n (Core.memWf_store _ _)) ..

theorem keeps_farBody {f : MovF} {get : Bool} : (farBody s c.val f get (s.core c.val)).Keeps s := by
  have hsp (n p : Nat) : (if get = true then s.core c.val else (s.core c.val).readFix p n).sp = (s.core c.val).sp := by
    split <;> simp
  unfold farBody
  dsimp only
  split
  · exact Res.keeps_trap _
  · refine .ite (Res.keeps_trap _) ?_
    split
    · exact s.keeps_setCore c.val (by simpa using hsp ..)
    · exact State.Keeps.inject (State.Keeps.noteUncorr (s.keeps_setCore c.val (by simpa using hsp ..)) ..) ..

theorem keeps_execRget {f : MovF} : Out.Keeps s (execRget c g f s) := issueOut_keeps keeps_farBody
theorem keeps_execRput {f : MovF} : Out.Keeps s (execRput c g f s) := issueOut_keeps keeps_farBody

theorem keeps_execMcast {f : MovF} : Out.Keeps s (execMcast c g f s) := by
  refine issueOut_keeps ?_
  dsimp only
  split
  · refine .ite (Res.keeps_trap _) ?_
    refine State.Keeps.trans (s.keeps_setCore c.val (by simp)) (.each _ fun u j => ?_)
    exact ((State.Keeps.refl u).noteUncorr ..).inject ..
  · exact Res.keeps_trap _

theorem keeps_execRsend {f : MovF} : Out.Keeps s (execRsend c g f s) := by
  refine issueOut_keeps ?_
  dsimp only
  refine .ite (Res.keeps_trap _) ?_
  split
  · refine .ite (Res.keeps_trap _) (State.Keeps.inject (s.keeps_setCore c.val ?_) ..)
    split <;> simp
  · exact Res.keeps_trap _

/-! ## Sync and sampling -/

theorem keeps_execTack {f : SyncF} : Out.Keeps s (execTack c g f s) :=
  issueOut_keeps (.ite (Res.keeps_trap _) (.ite Res.keeps_same (State.Keeps.inject (s.keeps_setCore c.val (by rfl)) ..)))

theorem keeps_execFence {f : SyncF} : Out.Keeps s (execFence c g f s) := issueOut_keeps (.ite Res.keeps_same (State.Keeps.refl s))
theorem keeps_execWait {f : SyncF} : Out.Keeps s (execWait c g f s) := issueOut_keeps (s.keeps_setCore c.val (by rfl))

theorem keeps_execNote {f : SyncF} : Out.Keeps s (execNote c g f s) :=
  issueOut_keeps (.ite Res.keeps_same (s.keeps_setCore c.val (by rfl)))

theorem keeps_execGown {f : SyncF} : Out.Keeps s (execGown c g f s) := by
  refine issueOut_keeps ?_
  dsimp only
  refine .ite (Res.keeps_trap _) ?_
  split
  · exact Res.keeps_trap _
  · next gs _ =>
    refine .ite (State.Keeps.refl s) (s.keeps_setCore c.val ?_)
    exact (congrArg Core.sp (Core.askOwners_frame _ _ gs _) :)

theorem keeps_execCtop {f : SampF} : Out.Keeps s (execCtop c g f s) :=
  issueOut_keeps (.ite (Res.keeps_trap _) (s.keeps_setCore c.val (by rfl)))

theorem keeps_execCsend {f : SampF} : Out.Keeps s (execCsend c g f s) :=
  issueOut_keeps (.ite (Res.keeps_trap _) (.ite (Res.keeps_trap _)
    (State.Keeps.inject (s.keeps_setCore c.val (by simp)) ..)))

theorem keeps_spickGo {f : SampF} {w : Word64} : (spickGo s c.val (s.core c.val) f w).Keeps s := by
  unfold spickGo
  exact State.Keeps.ite (State.Keeps.bump (s.keeps_setCore c.val (by simp)) ..) (s.keeps_setCore c.val (by simp))

theorem keeps_execSpick {f : SampF} : Out.Keeps s (execSpick c g f s) := by
  refine issueOut_keeps ?_
  dsimp only
  split
  · exact Res.keeps_trap _
  · split
    · exact Res.keeps_trap _
    · exact .ite Res.keeps_same (Res.keeps_trap _)
    · exact .ite Res.keeps_same (Res.keeps_trap _)
    · exact .ite (s.keeps_setCore c.val (by simp)) (.ite (Res.keeps_trap _) (.ite (Res.keeps_trap _) keeps_spickGo))

theorem keeps_execSacc {f : SampF} : Out.Keeps s (execSacc c g f s) :=
  issueOut_keeps (.ite (Res.keeps_trap _) (.ite Res.keeps_same (s.keeps_setCore c.val (by simp))))

/-! ## Every instruction -/

/-- What issuing any Idmor instruction keeps. -/
theorem keeps_exec {i : Instr} {w : BitVec 64} (h : encodeIdmor i = some w) (s : State) : Out.Keeps s (exec i s) := by
  cases i with
  | nop c g f => rw [exec_nop]; exact keeps_execNop
  | halt c g f => rw [exec_halt]; exact keeps_execHalt
  | br c g f => rw [exec_br]; exact keeps_execBr
  | brr c g f => rw [exec_brr]; exact keeps_execBrr
  | callI c g f => rw [exec_callI]; exact keeps_execCall
  | ret c g f => rw [exec_ret]; exact keeps_execRet
  | loopI c g f => rw [exec_loopI]; exact keeps_execLoop
  | brk c g f => rw [exec_brk]; exact keeps_execBrk
  | add c g f => rw [exec_add]; exact keeps_scalar
  | sub c g f => rw [exec_sub]; exact keeps_scalar
  | mul c g f => rw [exec_mul]; exact keeps_scalar
  | andI c g f => rw [exec_andI]; exact keeps_scalar
  | orI c g f => rw [exec_orI]; exact keeps_scalar
  | xorI c g f => rw [exec_xorI]; exact keeps_scalar
  | shl c g f => rw [exec_shl]; exact keeps_scalar
  | shr c g f => rw [exec_shr]; exact keeps_scalar
  | sra c g f => rw [exec_sra]; exact keeps_scalar
  | min c g f => rw [exec_min]; exact keeps_scalar
  | max c g f => rw [exec_max]; exact keeps_scalar
  | minu c g f => rw [exec_minu]; exact keeps_scalar
  | maxu c g f => rw [exec_maxu]; exact keeps_scalar
  | cmpeq c g f => rw [exec_cmpeq]; exact keeps_scalar
  | cmplt c g f => rw [exec_cmplt]; exact keeps_scalar
  | cmpltu c g f => rw [exec_cmpltu]; exact keeps_scalar
  | mov c g f => rw [exec_mov]; exact keeps_scalar
  | sld c g f => rw [exec_sld]; exact keeps_execSld
  | sst c g f => rw [exec_sst]; exact keeps_execSst
  | mmv c g f => rw [exec_mmv]; exact keeps_execMmv
  | bflush c g f => rw [exec_bflush]; exact keeps_execBflush
  | bzero c g f => rw [exec_bzero]; exact keeps_execBzero
  | csum c g f => rw [exec_csum]; exact keeps_execCsum
  | ectlw c g f => rw [exec_ectlw]; exact keeps_execEctlw
  | fld c g f => rw [exec_fld]; exact keeps_execFld
  | fst c g f => rw [exec_fst]; exact keeps_execFst
  | fcvt c g f => rw [exec_fcvt]; exact keeps_execFcvt
  | fadd c g f => rw [exec_fadd]; exact keeps_lanes3
  | fsub c g f => rw [exec_fsub]; exact keeps_lanes3
  | fmul c g f => rw [exec_fmul]; exact keeps_lanes3
  | ffma c g f => rw [exec_ffma]; exact keeps_lanes3
  | fmin c g f => rw [exec_fmin]; exact keeps_lanesLf
  | fmax c g f => rw [exec_fmax]; exact keeps_lanesLf
  | fcmp c g f => rw [exec_fcmp]; exact keeps_lanesLf
  | fneg c g f => rw [exec_fneg]; exact keeps_lanesLf
  | fabs c g f => rw [exec_fabs]; exact keeps_lanesLf
  | fcvtb c g f => rw [exec_fcvtb]; exact keeps_execFcvtb
  | funp c g f => rw [exec_funp]; exact keeps_execFunp
  | frcp c g f => rw [exec_frcp]; exact keeps_lanes3
  | fsqrt c g f => rw [exec_fsqrt]; exact keeps_lanes3
  | frsq c g f => rw [exec_frsq]; exact keeps_lanes3
  | fexp c g f => rw [exec_fexp]; exact keeps_lanes3
  | fexp2 c g f => rw [exec_fexp2]; exact keeps_lanes3
  | flog c g f => rw [exec_flog]; exact keeps_lanes3
  | flog2 c g f => rw [exec_flog2]; exact keeps_lanes3
  | fact c g f => rw [exec_fact]; exact keeps_lanesLf
  | fsum c g f => rw [exec_fsum]; exact keeps_execFsum
  | fdot c g f => rw [exec_fdot]; exact keeps_execFdot
  | frms c g f => rw [exec_frms]; exact keeps_norm
  | flnorm c g f => rw [exec_flnorm]; exact keeps_norm
  | fquant c g f => rw [exec_fquant]; exact keeps_execFquant
  | falt c g f => rw [exec_falt]; exact keeps_execFalt
  | fqk c g f => rw [exec_fqk]; exact keeps_execFqk
  | fsmx c g f => rw [exec_fsmx]; exact keeps_execFsmx
  | fpv c g f => rw [exec_fpv]; exact keeps_execFpv
  | femb c g f => rw [exec_femb]; exact keeps_execFemb
  | qpush c g f => rw [exec_qpush]; exact keeps_execQpush
  | pwalk c g f => rw [exec_pwalk]; exact keeps_execPwalk
  | qwait c g f => rw [exec_qwait]; exact keeps_execQwait
  | qexp c g f => rw [exec_qexp]; exact keeps_execQexp
  | nget c g f => rw [exec_nget]; exact keeps_execNget
  | nput c g f => rw [exec_nput]; exact keeps_execNput
  | rget c g f => rw [exec_rget]; exact keeps_execRget
  | rput c g f => rw [exec_rput]; exact keeps_execRput
  | mcast c g f => rw [exec_mcast]; exact keeps_execMcast
  | rsend c g f => rw [exec_rsend]; exact keeps_execRsend
  | tack c g f => rw [exec_tack]; exact keeps_execTack
  | fenceI c g f => rw [exec_fenceI]; exact keeps_execFence
  | waitI c g f => rw [exec_waitI]; exact keeps_execWait
  | noteI c g f => rw [exec_noteI]; exact keeps_execNote
  | gown c g f => rw [exec_gown]; exact keeps_execGown
  | ctop c g f => rw [exec_ctop]; exact keeps_execCtop
  | csend c g f => rw [exec_csend]; exact keeps_execCsend
  | spick c g f => rw [exec_spick]; exact keeps_execSpick
  | sacc c g f => rw [exec_sacc]; exact keeps_execSacc
  | _ => cases h

/-- Settles O60: issuing an instruction keeps the HBM stacks and host memory as they are and every scratchpad canonical. -/
theorem idmorInstructionsKeepMemoriesCanonical : Obligations.IdmorInstructionsKeepMemoriesCanonical := by
  unfold Obligations.IdmorInstructionsKeepMemoriesCanonical
  intro s t i w hw hwf hstep
  have hexec : exec i { s with pending := [] } = .next t := hstep
  exact (keeps_exec hw _ t hexec).memoriesWf hwf

end Sys2Proof.Machine
end

section
/-! What the events of an engine's command queue do (O26): rules about the engines of a core, holds and check reads first. -/

namespace Sys2Proof.Machine

/-! ## Engines of a core -/

@[simp] theorem Core.engOf_setEng_self (k : Core) (e : Nat) (x : EngState) : (k.setEng e x).engOf e = x :=
  mapGet_set_self ..

theorem Core.engOf_setEng_ne (k : Core) {e f : Nat} (x : EngState) (h : f ≠ e) : (k.setEng e x).engOf f = k.engOf f :=
  mapGet_set_other _ _ x h

@[simp] theorem Core.engOf_setPos (k : Core) (p e : Nat) (x : PosState) : (k.setPos p x).engOf e = k.engOf e := rfl
@[simp] theorem Core.posOf_setEng (k : Core) (e p : Nat) (x : EngState) : (k.setEng e x).posOf p = k.posOf p := rfl

@[simp] theorem Core.posOf_setPos_self (k : Core) (p : Nat) (x : PosState) : (k.setPos p x).posOf p = x :=
  mapGet_set_self ..

theorem Core.posOf_setPos_ne (k : Core) {p q : Nat} (x : PosState) (h : q ≠ p) : (k.setPos p x).posOf q = k.posOf q :=
  mapGet_set_other _ _ x h

/-- Only counters, event records and sticky bits of an engine differ. -/
def EngState.CountsOnly (x y : EngState) : Prop := y = { x with ctr := y.ctr, evq := y.evq, stat := y.stat }

theorem EngState.CountsOnly.eq {x y : EngState} (h : x.CountsOnly y) : y = { x with ctr := y.ctr, evq := y.evq, stat := y.stat } := h

theorem EngState.CountsOnly.trans {x y z : EngState} (h : x.CountsOnly y) (h' : y.CountsOnly z) : x.CountsOnly z := by
  unfold EngState.CountsOnly at *
  rw [h', h]

theorem EngState.countsOnly_count (x : EngState) (i n : Nat) : x.CountsOnly (x.count i n) := rfl
theorem EngState.countsOnly_flag (x : EngState) (b : Nat) : x.CountsOnly (x.flag b) := rfl

theorem EngState.countsOnly_pushEv (x : EngState) (r : EvRec) : x.CountsOnly (x.pushEv r) := by
  unfold EngState.pushEv
  split <;> rfl

theorem EngState.countsOnly_pushAll : ∀ (l : List EvRec) (x : EngState), x.CountsOnly (l.foldl EngState.pushEv x)
  | [], _ => rfl
  | r :: l, x => (x.countsOnly_pushEv r).trans (EngState.countsOnly_pushAll l _)

/-- What a run accounts to its engine is counters, records and sticky bits. -/
theorem EngState.countsOnly_account (x : EngState) (a : PassRun) : x.CountsOnly (x.account a) := by
  have hcounts := (((((x.countsOnly_count 1 a.windows).trans (EngState.countsOnly_count _ 2 a.busy)).trans
    (EngState.countsOnly_count _ 3 a.nonzero)).trans (EngState.countsOnly_count _ 4 a.exc)).trans
    (EngState.countsOnly_count _ 5 a.ovf)).trans (EngState.countsOnly_count _ 6 a.mis)
  exact (hcounts.trans (EngState.countsOnly_flag _ a.stat)).trans (EngState.countsOnly_pushAll a.evs _)

theorem EngState.CountsOnly.repairOf {x y : EngState} (h : x.CountsOnly y) (tile : Nat) : y.repairOf tile = x.repairOf tile := by
  rw [h.eq]; rfl

theorem EngState.CountsOnly.held {x y : EngState} (h : x.CountsOnly y) : y.held = x.held := by rw [h.eq]

/-! ## A mismatch (R60, R62, R66) -/

/-- Only the engines and the staging buffer's parts of a core differ. -/
def Core.EnginesOnly (k k' : Core) : Prop := k' = { k with eng := k'.eng, staging := k'.staging }

theorem Core.EnginesOnly.eq {k k' : Core} (h : k.EnginesOnly k') : k' = { k with eng := k'.eng, staging := k'.staging } := h

theorem Core.EnginesOnly.trans {k k' k'' : Core} (h : k.EnginesOnly k') (h' : k'.EnginesOnly k'') : k.EnginesOnly k'' := by
  unfold Core.EnginesOnly at *
  rw [h', h]

theorem Core.EnginesOnly.posOf {k k' : Core} (h : k.EnginesOnly k') (p : Nat) : k'.posOf p = k.posOf p := by rw [h.eq]; rfl
theorem Core.EnginesOnly.queues {k k' : Core} (h : k.EnginesOnly k') : k'.queues = k.queues := by rw [h.eq]

theorem Core.enginesOnly_setEng (k : Core) (e : Nat) (x : EngState) : k.EnginesOnly (k.setEng e x) := rfl

theorem Core.takeStaging_frame (k : Core) (stream : Nat) :
    k.takeStaging stream = { k with staging := (k.takeStaging stream).staging } := by
  unfold Core.takeStaging
  split <;> rfl

theorem Core.engOf_takeStaging (k : Core) (stream e : Nat) : (k.takeStaging stream).engOf e = k.engOf e := by
  rw [Core.takeStaging_frame]; rfl

theorem Core.enginesOnly_takeStaging (k : Core) (stream : Nat) : k.EnginesOnly (k.takeStaging stream) := by
  unfold Core.EnginesOnly
  rw [Core.takeStaging_frame]

theorem Core.enginesOnly_setCopy (k : Core) (e tile : Nat) (g : Option GCopy) : k.EnginesOnly (k.setCopy e tile g) :=
  k.enginesOnly_setEng 8 _

theorem Core.enginesOnly_returnTile (k : Core) (e tile : Nat) : k.EnginesOnly (k.returnTile e tile) :=
  (k.enginesOnly_setCopy e tile none).trans (Core.enginesOnly_setEng _ e _)

theorem Core.enginesOnly_switchCopy (k : Core) (e tile : Nat) (img : List Byte) : k.EnginesOnly (k.switchCopy e tile img) := by
  unfold Core.switchCopy
  split
  · exact (k.enginesOnly_setCopy ..).trans (Core.enginesOnly_setEng ..)
  · exact k.enginesOnly_setEng ..

theorem Core.enginesOnly_mismatch (k : Core) (now e tile : Nat) (b : Option Nat) :
    k.EnginesOnly (k.mismatch now e tile b) := by
  unfold Core.mismatch
  dsimp only
  split
  · split_ifs
    · exact k.enginesOnly_returnTile ..
    · exact k.enginesOnly_switchCopy ..
    · exact (k.enginesOnly_setEng e _).trans (Core.enginesOnly_setEng _ e _)
  · exact ((k.enginesOnly_setEng e _).trans (Core.enginesOnly_setEng _ e _)).trans (Core.enginesOnly_takeStaging ..)

/-- A mismatch on a tile with no repair holds its engine there. -/
theorem Core.held_mismatch (k : Core) (now e tile : Nat) (b : Option Nat) (h : (k.engOf e).repairOf tile = none) :
    ((k.mismatch now e tile b).engOf e).held = some ⟨tile, b, now⟩ := by
  unfold Core.mismatch
  simp only [h]
  rw [Core.engOf_takeStaging, Core.hold, Core.engOf_setEng_self]

/-! ## Captures for the fitting check (R79, R81) -/

/-- Only the side buffer, the staging buffer's parts and what reads of poisoned words leave differ. -/
def Core.SideOnly (k k' : Core) : Prop :=
  k' = { k with side := k'.side, staging := k'.staging, spUncorr := k'.spUncorr, badWords := k'.badWords }

theorem Core.SideOnly.eq {k k' : Core} (h : k.SideOnly k') :
    k' = { k with side := k'.side, staging := k'.staging, spUncorr := k'.spUncorr, badWords := k'.badWords } := h

theorem Core.SideOnly.trans {k k' k'' : Core} (h : k.SideOnly k') (h' : k'.SideOnly k'') : k.SideOnly k'' := by
  unfold Core.SideOnly at *
  rw [h', h]

theorem Core.SideOnly.posOf {k k' : Core} (h : k.SideOnly k') (p : Nat) : k'.posOf p = k.posOf p := by rw [h.eq]; rfl
theorem Core.SideOnly.engOf {k k' : Core} (h : k.SideOnly k') (e : Nat) : k'.engOf e = k.engOf e := by rw [h.eq]; rfl

theorem Core.UncorrOnly.toSide {k k' : Core} (h : k.UncorrOnly k') : k.SideOnly k' := by
  unfold Core.SideOnly
  rw [h.eq]

theorem Core.sideOnly_takeStaging (k : Core) (j stream : Nat) (x : Option FcSample) :
    k.SideOnly ((k.setSide j x).takeStaging stream) := by
  unfold Core.SideOnly
  rw [Core.takeStaging_frame]
  rfl

/-- What the end of a pass captures stays in its core and in one counter. -/
structure State.Captured (s t : State) (c : CoreId) : Prop where
  frame : t = { s with cores := t.cores, dict := t.dict }
  others : ∀ d, d ≠ c.val → t.core d = s.core d
  core : (s.core c.val).SideOnly (t.core c.val)
  rd : ∀ key, key ≠ K.fcTainted → t.rd key = s.rd key

theorem State.captured_setCore (s : State) (c : CoreId) {k : Core} (h : (s.core c.val).SideOnly k) :
    s.Captured (s.setCore c.val k) c :=
  ⟨rfl, fun d hd => State.core_setCore_ne s c.val k d hd, by rwa [State.core_setCore], fun _ _ => rfl⟩

theorem State.Captured.refl (s : State) (c : CoreId) : s.Captured s c := ⟨rfl, fun _ _ => rfl, rfl, fun _ _ => rfl⟩

theorem State.captured_fcCapture (s : State) (c : CoreId) (e : Nat) (q : Pass) (before after : List Int) (tainted : Bool) :
    s.Captured (s.fcCapture c.val e q before after tainted) c := by
  have hsame := State.Captured.refl s c
  unfold State.fcCapture
  dsimp only
  split
  · exact hsame
  · split
    · exact hsame
    · split
      · obtain ⟨hframe, hothers, hcore, hrd⟩ := s.captured_setCore c (k := (s.core c.val).setSide _ none) rfl
        exact ⟨rfl, hothers, hcore, fun key hkey => State.rd_wr_ne _ _ _ key hkey⟩
      · exact s.captured_setCore c ((s.core c.val).sideOnly_takeStaging ..)

/-! ## Passes (R49, R60) -/

/-- The sticky bits of a run, set for the instance of its core. -/
def State.precNote (s : State) (inst : Option InstId) (stat : Nat) : State :=
  match inst with
  | some i => s.wr (K.precStatus i.val) (s.rd (K.precStatus i.val) ||| 16 * (stat % 4))
  | none => s

theorem State.precNote_frame (s : State) (inst : Option InstId) (stat : Nat) :
    s.precNote inst stat = { s with dict := (s.precNote inst stat).dict } := by
  unfold State.precNote
  split <;> rfl

theorem State.core_precNote (s : State) (inst : Option InstId) (stat d : Nat) : (s.precNote inst stat).core d = s.core d := by
  rw [State.precNote_frame]
  rfl

theorem State.rd_precNote (s : State) (i : InstId) (stat : Nat) :
    (s.precNote (some i) stat).rd (K.precStatus i.val) = s.rd (K.precStatus i.val) ||| 16 * (stat % 4) := State.rd_wr ..

theorem precStatus_ne_fcTainted (i : InstId) : K.precStatus i.val ≠ K.fcTainted := by revert i; decide

/-- A core put back after a pass, with the poisoned words that the pass read. -/
theorem State.passed {s u t : State} {c : CoreId} {inst : Option InstId} {stat : Nat} {k : Core} {bad : List Nat}
    (hu : u = ((s.precNote inst stat).setCore c.val k).noteUncorr c.val 0 bad) (h : u.Captured t c) :
    s.OnlyCoreAndLog t c ∧ (bad = [] → t = { s with cores := t.cores, dict := t.dict }) ∧
      (∀ i, inst = some i → t.rd (K.precStatus i.val) = s.rd (K.precStatus i.val) ||| 16 * (stat % 4)) ∧
      k.SideOnly (t.core c.val) := by
  obtain ⟨hframe, hothers, hcore, hrd⟩ := h
  have hset : s.OnlyCoreAndLog ((s.precNote inst stat).setCore c.val k) c :=
    ⟨by rw [State.precNote_frame]; rfl, fun d hd => by rw [State.core_setCore_ne _ _ _ _ hd, State.core_precNote]⟩
  have huonly : s.OnlyCoreAndLog u c := hu ▸ hset.trans (State.noteUncorr_onlyCoreAndLog c 0 bad _)
  have hucore : k.SideOnly (u.core c.val) := by
    have := (State.core_noteUncorr_only c.val 0 bad ((s.precNote inst stat).setCore c.val k)).toSide
    rwa [State.core_setCore, ← hu] at this
  refine ⟨⟨by rw [hframe, huonly.1], fun d hd => (hothers d hd).trans (huonly.2 d hd)⟩, fun hbad => ?_, fun i hi => ?_,
    hucore.trans hcore⟩
  · rw [hframe, hu, hbad, State.noteUncorr_nil, State.precNote_frame]
    rfl
  · subst hi
    rw [hrd _ (precStatus_ne_fcTainted i), hu, State.rd_noteUncorr _ _ (precStatus_not_logKey i)]
    exact s.rd_precNote i stat

theorem Core.engOf_readFix (k : Core) (a n e : Nat) : (k.readFix a n).engOf e = k.engOf e := by rw [Core.readFix_frame]; rfl
theorem Core.posOf_readFix (k : Core) (a n p : Nat) : (k.readFix a n).posOf p = k.posOf p := by rw [Core.readFix_frame]; rfl

/-- The core of a pass that ends: its position, past the pass, and its engine, which counts it. -/
def Core.endPass (k : Core) (p e : Nat) (st : PosState) (x : EngState) : Core :=
  ((k.setEng e x).setPos p st).setEng e (x.count 0 1)

/-- The core of a pass that is held at a block. -/
def Core.holdPass (k : Core) (now p e tile b : Nat) (st : PosState) (x : EngState) : Core :=
  ((k.setEng e x).setPos p st).mismatch now e tile (some b)

/-- Only the engines, the positions and the staging buffer's parts differ. -/
def Core.PassOnly (k k' : Core) : Prop := k' = { k with eng := k'.eng, pos := k'.pos, staging := k'.staging }

theorem Core.PassOnly.eq {k k' : Core} (h : k.PassOnly k') :
    k' = { k with eng := k'.eng, pos := k'.pos, staging := k'.staging } := h

theorem Core.passOnly_endPass (k : Core) (p e : Nat) (st : PosState) (x : EngState) : k.PassOnly (k.endPass p e st x) := rfl

theorem Core.passOnly_holdPass (k : Core) (now p e tile b : Nat) (st : PosState) (x : EngState) :
    k.PassOnly (k.holdPass now p e tile b st x) := by
  unfold Core.PassOnly Core.holdPass
  rw [(Core.enginesOnly_mismatch _ now e tile (some b)).eq]
  rfl

/-- What a core holds after a pass that it ran over the elements from `lo` on. -/
theorem Core.PassOnly.side {k k' k'' : Core} {lo len : Nat} (h : (k.readFix lo len).PassOnly k') (h' : k'.SideOnly k'') :
    k'' = { k.readFix lo len with
      eng := k''.eng, pos := k''.pos, side := k''.side
      staging := k''.staging, spUncorr := k''.spUncorr, badWords := k''.badWords } := by
  rw [h'.eq, h.eq]

theorem Core.posOf_holdPass (k : Core) (now p e tile b q : Nat) (st : PosState) (x : EngState) :
    (k.holdPass now p e tile b st x).posOf q = (k.setPos p st).posOf q :=
  (Core.enginesOnly_mismatch ..).posOf q

theorem Core.held_holdPass (k : Core) (now p e tile b : Nat) (st : PosState) {x : EngState} (h : x.repairOf tile = none) :
    ((k.holdPass now p e tile b st x).engOf e).held = some ⟨tile, some b, now⟩ := by
  refine Core.held_mismatch _ now e tile (some b) ?_
  rwa [Core.engOf_setPos, Core.engOf_setEng_self]

theorem Core.engOf_endPass_ne (k : Core) (p : Nat) {e j : Nat} (st : PosState) (x : EngState) (h : j ≠ e) :
    (k.endPass p e st x).engOf j = k.engOf j := by
  rw [Core.endPass, Core.engOf_setEng_ne _ _ h, Core.engOf_setPos, Core.engOf_setEng_ne _ _ h]

/-! ## Check reads (R58, R59) -/

theorem Core.enginesOnly_checkRead (k : Core) (now e tile : Nat) : k.EnginesOnly (k.checkRead now e tile).1 := by
  unfold Core.checkRead
  dsimp only
  split
  · exact k.enginesOnly_setEng e _
  · exact (k.enginesOnly_setEng e _).trans (Core.enginesOnly_mismatch ..)

/-- The rows that fail are counted. -/
theorem Core.checkRead_count (k : Core) (now e tile : Nat) :
    (k.checkRead now e tile).2 = (failingRows ((k.engOf e).td tile) (k.servingImage e tile).2
      (mdBlocksOf (tdBlocks ((k.engOf e).td tile)) 2 (k.servingErr e tile))).length := by
  unfold Core.checkRead
  dsimp only
  split
  · next h => rw [h]; rfl
  · next h => rw [h]; rfl

/-- A check read that finds nothing holds nothing. -/
theorem Core.held_checkRead_good (k : Core) (now e tile : Nat) (h : (k.checkRead now e tile).2 = 0) :
    (((k.checkRead now e tile).1).engOf e).held = (k.engOf e).held := by
  unfold Core.checkRead at *
  dsimp only at *
  split at h
  · rw [Core.engOf_setEng_self]
    exact ((EngState.countsOnly_flag _ _).trans (EngState.countsOnly_pushAll ..)).held
  · exact absurd h (Nat.succ_ne_zero _)

/-- A check read that finds a row holds its engine, where the tile has no repair. -/
theorem Core.held_checkRead_bad (k : Core) (now e tile : Nat) (h : 0 < (k.checkRead now e tile).2)
    (hrep : (k.engOf e).repairOf tile = none) :
    (((k.checkRead now e tile).1).engOf e).held = some ⟨tile, none, now⟩ := by
  unfold Core.checkRead at *
  dsimp only at *
  split at h
  · exact absurd h (Nat.lt_irrefl 0)
  · refine Core.held_mismatch _ now e tile none ?_
    rw [Core.engOf_setEng_self]
    refine (EngState.CountsOnly.repairOf (x := k.engOf e) ?_ tile).trans hrep
    exact (((EngState.countsOnly_flag (k.engOf e) _).trans (EngState.countsOnly_pushAll ..)).trans
      (EngState.countsOnly_count _ 6 _)).trans ((EngState.countsOnly_flag _ 4).trans (EngState.countsOnly_pushEv ..))

end Sys2Proof.Machine
end

section
/-! The events at the head of a position's command queue (O26). -/

namespace Sys2Proof.Machine

variable {s : State} {c : CoreId} {p : Pos} {rest : List ECmd}

theorem Core.inst_readFix (k : Core) (a n : Nat) : (k.readFix a n).inst = k.inst := by rw [Core.readFix_frame]

theorem hzMode_ne_precStatus (i : InstId) : K.hzMode ≠ K.precStatus i.val := by revert i; decide

theorem hzMode_not_logKey : K.hzMode ∉ logKeys := by decide

theorem State.hzMode_precNote (s : State) (inst : Option InstId) (stat : Nat) :
    (s.precNote inst stat).rd K.hzMode = s.rd K.hzMode := by
  cases inst with
  | none => rfl
  | some i => exact State.rd_wr_ne _ _ _ _ (hzMode_ne_precStatus i)

/-- The detector's mode after a pass. -/
theorem State.hzMode_passed {u t : State} {inst : Option InstId} {stat : Nat} {k : Core} {bad : List Nat}
    (hu : u = ((s.precNote inst stat).setCore c.val k).noteUncorr c.val 0 bad) (h : u.Captured t c) :
    t.rd K.hzMode = s.rd K.hzMode := by
  rw [h.rd K.hzMode (by decide), hu, State.rd_noteUncorr _ _ hzMode_not_logKey]
  exact s.hzMode_precNote inst stat

section pass
variable {q : Pass}

/-- What ENGINE_PASS leaves of a run `a` over the elements from `lo` on, the core's reads corrected in `k` already. -/
def State.passOut (s : State) (c p e : Nat) (q : Pass) (rest : List ECmd) (st : PosState) (k : Core) (a : PassRun)
    (lo len : Nat) (bad : List Nat) (bolts : Map Bolt) : State :=
  match a.heldAt with
  | some b => (((s.precNote k.inst a.stat).setCore c (k.holdPass s.uptime p e q.tile b
      { st with bolts := bolts, resume := b, seen := a.seen, before := some (st.before.getD (boltValues st.bolts)) }
      ((k.engOf e).account a))).noteUncorr c 0 bad).portUse c none q.pc [⟨0, false, lo, len⟩]
  | none => ((((s.precNote k.inst a.stat).setCore c (k.endPass p e
      { st with cmdq := rest, bolts := bolts, resume := 0, seen := [], before := none }
      ((k.engOf e).account a))).noteUncorr c 0 bad).fcCapture c e q (st.before.getD (boltValues st.bolts)) (boltValues bolts)
        (bolts.any fun x => x.2.exc || x.2.ovf)).portUse c none q.pc [⟨0, false, lo, len⟩]

theorem Core.td_passCfg (k : Core) (p : Nat) (q : Pass) : (k.passCfg p q).td = (k.engOf (k.engineAt p)).td q.tile := rfl

/-- The meaning of a pass at the head of the queue. -/
theorem execEnginePass_pass (hheld : ((s.core c.val).engOf ((s.core c.val).engineAt p.val)).held = none)
    (hq : ((s.core c.val).posOf p.val).cmdq = .pass q :: rest) :
    let k := s.core c.val
    let st := k.posOf p.val
    let e := k.engineAt p.val
    let run := (k.passCfg p.val q).run st.bolts st.seen st.resume
    let n := tdBlocks ((k.engOf e).td q.tile)
    let lo := 524288 * p.val + q.elems + mmvLen q.ectl st.resume
    let len := mmvLen q.ectl (run.heldAt.getD n) - mmvLen q.ectl st.resume
    let bad := k.poisoned lo len
    execEnginePass c p s = .next (s.passOut c.val p.val e q rest st (k.readFix lo len) run lo len bad
      (if q.poison || !bad.isEmpty then allExc run.bolts else run.bolts)) := by
  unfold execEnginePass State.passOut State.precNote Core.holdPass Core.endPass
  dsimp only
  rw [hq, hheld]
  simp only [Core.td_passCfg]
  generalize PassCfg.run _ _ _ _ = a
  generalize Core.readFix _ _ _ = k
  cases a.heldAt with
  | none =>
    simp only [Core.engOf_setEng_self]
    cases k.inst <;> rfl
  | some b => cases k.inst <;> rfl

/-- A pass runs to its end or to a block that does not match. -/
theorem execEnginePass_clause (hheld : ((s.core c.val).engOf ((s.core c.val).engineAt p.val)).held = none)
    (hz : s.rd K.hzMode = 0) (hq : ((s.core c.val).posOf p.val).cmdq = .pass q :: rest) :
    let k := s.core c.val
    let st := k.posOf p.val
    let e := k.engineAt p.val
    let run := (k.passCfg p.val q).run st.bolts st.seen st.resume
    let n := tdBlocks ((k.engOf e).td q.tile)
    let lo := 524288 * p.val + q.elems + mmvLen q.ectl st.resume
    let len := mmvLen q.ectl (run.heldAt.getD n) - mmvLen q.ectl st.resume
    let bad := k.poisoned lo len
    let bolts := if q.poison || !bad.isEmpty then allExc run.bolts else run.bolts
    ∃ t, execEnginePass c p s = .next t ∧ s.OnlyCoreAndLog t c ∧
      (bad = [] → t = { s with cores := t.cores, dict := t.dict }) ∧
      (∀ i, k.inst = some i → t.rd (K.precStatus i.val) = s.rd (K.precStatus i.val) ||| 16 * (run.stat % 4)) ∧
      (t.core c.val).posOf p.val = (match run.heldAt with
        | none => { st with cmdq := rest, bolts := bolts, resume := 0, seen := [], before := none }
        | some b => { st with bolts := bolts, resume := b, seen := run.seen,
                              before := some (st.before.getD (boltValues st.bolts)) }) ∧
      (∀ b, run.heldAt = some b → (k.engOf e).repairOf q.tile = none →
        ((t.core c.val).engOf e).held = some ⟨q.tile, some b, s.uptime⟩) ∧
      (run.heldAt = none → (t.core c.val).engOf e = ((k.engOf e).account run).count 0 1 ∧
        ∀ j, j ≠ e → (t.core c.val).engOf j = k.engOf j) ∧
      (∀ j, j ≠ p.val → (t.core c.val).posOf j = k.posOf j) ∧
      t.core c.val = { k.readFix lo len with
        eng := (t.core c.val).eng, pos := (t.core c.val).pos, side := (t.core c.val).side
        staging := (t.core c.val).staging, spUncorr := (t.core c.val).spUncorr, badWords := (t.core c.val).badWords } := by
  intro k st e run n lo len bad bolts
  rw [execEnginePass_pass hheld hq]
  change ∃ t, Host.Outcome.next (s.passOut c.val p.val e q rest st (k.readFix lo len) run lo len bad bolts) = .next t ∧ _
  clear_value run bolts n
  clear_value lo
  clear_value len
  clear_value bad
  have hrun : (∀ i, k.inst = some i → (k.readFix lo len).inst = some i) := fun i hi => (k.inst_readFix lo len).trans hi
  cases hstop : run.heldAt with
  | none =>
    have hcap := State.captured_fcCapture (((s.precNote (k.readFix lo len).inst run.stat).setCore c.val
      ((k.readFix lo len).endPass p.val e { st with cmdq := rest, bolts := bolts, resume := 0, seen := [], before := none }
      (((k.readFix lo len).engOf e).account run))).noteUncorr c.val 0 bad) c e q (st.before.getD (boltValues st.bolts))
        (boltValues bolts) (bolts.any fun x => x.2.exc || x.2.ovf)
    obtain ⟨honly, hframe, hprec, hcore⟩ := State.passed rfl hcap
    refine ⟨_, congrArg _ (by
      unfold State.passOut
      rw [hstop]
      exact State.portUse_off _ _ _ _ _ ((State.hzMode_passed rfl hcap).trans hz)), honly, hframe,
      fun i hi => hprec i (hrun i hi), ?pos, fun b hb => absurd hb (Option.some_ne_none b).symm, fun _ => ⟨?eng, fun j hj => ?others⟩, fun j hj => ?rest,
      ((k.readFix lo len).passOnly_endPass ..).side hcore⟩
    case pos => rw [hcore.posOf]; exact Core.posOf_setPos_self ..
    case eng => rw [hcore.engOf, Core.endPass, Core.engOf_setEng_self, Core.engOf_readFix]
    case others => rw [hcore.engOf, Core.engOf_endPass_ne _ _ _ _ hj, Core.engOf_readFix]
    case rest => rw [hcore.posOf]; exact ((Core.posOf_setPos_ne _ _ hj).trans (k.posOf_readFix ..))
  | some b =>
    have hsame := State.Captured.refl (((s.precNote (k.readFix lo len).inst run.stat).setCore c.val
      ((k.readFix lo len).holdPass s.uptime p.val e q.tile b { st with
        bolts := bolts, resume := b, seen := run.seen, before := some (st.before.getD (boltValues st.bolts)) }
      (((k.readFix lo len).engOf e).account run))).noteUncorr c.val 0 bad) c
    obtain ⟨honly, hframe, hprec, hcore⟩ := State.passed rfl hsame
    refine ⟨_, congrArg _ (by
      unfold State.passOut
      rw [hstop]
      exact State.portUse_off _ _ _ _ _ ((State.hzMode_passed rfl hsame).trans hz)), honly, hframe,
      fun i hi => hprec i (hrun i hi), ?pos, fun b' hb' hrep => ?held, fun hn => absurd hn (Option.some_ne_none b),
      fun j hj => ?rest, ((k.readFix lo len).passOnly_holdPass ..).side hcore⟩
    case pos => rw [hcore.posOf, Core.posOf_holdPass]; exact Core.posOf_setPos_self ..
    case held =>
      obtain rfl : b = b' := Option.some.inj hb'
      rw [hcore.engOf]
      refine Core.held_holdPass _ _ _ _ _ _ _ ?_
      rwa [Core.engOf_readFix, (EngState.countsOnly_account _ run).repairOf]
    case rest =>
      rw [hcore.posOf, Core.posOf_holdPass]
      exact (Core.posOf_setPos_ne _ _ hj).trans (k.posOf_readFix ..)
end pass

/-! ## Bolt sets and check reads (R197, R198, R199) -/

theorem Core.posOf_setQueue (k : Core) (q p : Nat) (l : List QEntry) : (k.setQueue q l).posOf p = k.posOf p := rfl
theorem Core.engOf_setQueue (k : Core) (q e : Nat) (l : List QEntry) : (k.setQueue q l).engOf e = k.engOf e := rfl

/-- A core after a check read, its row count posted. -/
theorem Core.postWord_checkRead (k : Core) (now e tile q id : Nat) :
    let r := k.checkRead now e tile
    let k' := r.1.postWord q id (complWord tile 0 5 false r.2)
    k'.queue q = (k.queue q).map (fun x => if x.id = id then ⟨x.id, .word (some (complWord tile 0 5 false r.2))⟩ else x) ∧
      (∀ q', q' ≠ q → k'.queue q' = k.queue q') ∧ (∀ p, k'.posOf p = k.posOf p) ∧ (∀ f, k'.engOf f = r.1.engOf f) ∧
      k' = { k with queues := k'.queues, eng := k'.eng, staging := k'.staging } := by
  intro r k'
  have honly := k.enginesOnly_checkRead now e tile
  have hqueue : ∀ q', r.1.queue q' = k.queue q' := fun q' => Core.queue_congr honly.queues q'
  have hpost : k' = { r.1 with queues := k'.queues } := rfl
  refine ⟨?_, fun q' hq' => ?_, fun p => honly.posOf p, fun f => rfl, ?_⟩
  · exact (Core.queue_setQueue ..).trans (by rw [if_pos rfl, hqueue])
  · exact ((Core.queue_setQueue ..).trans (if_neg hq')).trans (hqueue q')
  · clear_value k'
    rw [hpost, show r.1 = _ from honly.eq]

/-- Settles O26: each event at the head of a command queue, by its own meaning. -/
theorem engineEventsConsumeQueueHead : Obligations.EngineEventsConsumeQueueHead := by
  unfold Obligations.EngineEventsConsumeQueueHead
  intro s c p rest k st e hheld
  simp -zeta only [exec_enginePass, exec_boltSetPost, exec_boltZero, exec_checkRead]
  refine ⟨fun q hz hq => execEnginePass_clause hheld hz hq, fun q id hq => ?flush, fun hq => ?zero, fun tile q id hq => ?check⟩
  case flush =>
    have hexec : execBoltSetPost c p s = .next (s.setCore c.val ((k.post q id (.bolts (some ((List.range 64).map fun n =>
        mapGet (fun _ => {}) st.bolts n)))).setPos p.val { st with cmdq := rest, bolts := [] })) := by
      unfold execBoltSetPost
      rw [State.modCore_eq]
      dsimp only
      rw [hq, hheld]
    refine ⟨_, hexec, s.onlyCore_set c _, ?_⟩
    rw [State.core_setCore]
    refine ⟨(Core.queue_setQueue ..).trans (if_pos rfl), fun q' hq' => (Core.queue_setQueue ..).trans (if_neg hq'),
      Core.posOf_setPos_self .., fun j hj => Core.posOf_setPos_ne _ _ hj, rfl⟩
  case zero =>
    have hexec : execBoltZero c p s = .next (s.setCore c.val (k.setPos p.val { st with cmdq := rest, bolts := [] })) := by
      unfold execBoltZero
      rw [State.modCore_eq]
      dsimp only
      rw [hq, hheld]
    refine ⟨_, hexec, s.onlyCore_set c _, ?_⟩
    rw [State.core_setCore]
    exact ⟨Core.posOf_setPos_self .., fun j hj => Core.posOf_setPos_ne _ _ hj, rfl⟩
  case check =>
    intro td n
    have hexec : execCheckRead c p s = .next (s.setCore c.val
        (((k.setPos p.val { st with cmdq := rest }).checkRead s.uptime e tile).1.postWord q id (complWord tile 0 5 false
          ((k.setPos p.val { st with cmdq := rest }).checkRead s.uptime e tile).2))) := by
      unfold execCheckRead
      rw [State.modCore_eq]
      dsimp only
      rw [hq, hheld]
    have hcount : ((k.setPos p.val { st with cmdq := rest }).checkRead s.uptime e tile).2 = n := Core.checkRead_count ..
    obtain ⟨hqueue, hqueues, hpos, heng, hframe⟩ :=
      (k.setPos p.val { st with cmdq := rest }).postWord_checkRead s.uptime e tile q id
    refine ⟨_, hexec, s.onlyCore_set c _, ?_⟩
    rw [State.core_setCore]
    refine ⟨?_, hqueues, (hpos _).trans (Core.posOf_setPos_self ..),
      fun j hj => (hpos j).trans (Core.posOf_setPos_ne _ _ hj), fun hn => ?_, fun hn hrep => ?_, ?_⟩
    · rw [hqueue, hcount]; rfl
    · rw [heng, Core.held_checkRead_good _ _ _ _ (hcount.trans hn)]; exact hheld
    · rw [heng]; exact Core.held_checkRead_bad _ _ _ _ (hcount.symm ▸ hn) hrep
    · rw [hframe]; rfl
end Sys2Proof.Machine
end

section
/-! What a core's failure in service leaves (R468, R470): the state's rules, used by the repairs of a tile (O27) and the failures
of cores (O31). -/

namespace Sys2Proof.Machine

/-! ## Keys -/

/-- The entries that a log entry may change share one index. -/
theorem not_logKey {key : Nat} (h : key / 256 ≠ 0x9000) : key ∉ logKeys := by
  intro hmem
  simp only [logKeys, K.logHead, K.logTail, K.logOverwritten, K.alertCauses, K.instEvents, List.mem_cons, List.not_mem_nil,
    or_false] at hmem
  omega

theorem failCause_not_logKey (c : CoreId) : K.failCause c.val ∉ logKeys :=
  not_logKey (by have := c.isLt; unfold K.failCause; omega)

theorem failTime_not_logKey (c : CoreId) : K.failTime c.val ∉ logKeys :=
  not_logKey (by have := c.isLt; unfold K.failTime; omega)

theorem failCause_ne_failTime (c : Nat) : K.failCause c ≠ K.failTime c := by unfold K.failCause K.failTime; omega

/-! ## Changes of the instances alone -/

/-- Nothing but the instances differs. -/
def State.InstsOnly (s t : State) : Prop := t = { s with insts := t.insts }

theorem State.InstsOnly.eq {s t : State} (h : s.InstsOnly t) : t = { s with insts := t.insts } := h

theorem State.InstsOnly.refl (s : State) : s.InstsOnly s := rfl

theorem State.InstsOnly.trans {s t u : State} (h : s.InstsOnly t) (h' : t.InstsOnly u) : s.InstsOnly u := by
  unfold State.InstsOnly at *
  rw [h', h]

theorem State.instsOnly_setInst (s : State) (i : Nat) (x : Inst) : s.InstsOnly (s.setInst i x) := rfl

theorem State.InstsOnly.rd {s t : State} (h : s.InstsOnly t) (key : Nat) : t.rd key = s.rd key := by rw [h.eq]; rfl
theorem State.InstsOnly.core {s t : State} (h : s.InstsOnly t) (c : Nat) : t.core c = s.core c := by rw [h.eq]; rfl
theorem State.InstsOnly.marks {s t : State} (h : s.InstsOnly t) : t.marks = s.marks := by rw [h.eq]
theorem State.InstsOnly.hbm {s t : State} (h : s.InstsOnly t) : t.hbm = s.hbm := by rw [h.eq]
theorem State.InstsOnly.hostMem {s t : State} (h : s.InstsOnly t) : t.hostMem = s.hostMem := by rw [h.eq]
theorem State.InstsOnly.ready {s t : State} (h : s.InstsOnly t) (i : Nat) : t.ready i = s.ready i := by rw [h.eq]; rfl

theorem State.instsOnly_abandon (s : State) (i : Nat) : s.InstsOnly (s.abandon i) := rfl

/-- A spare that fails before its tack touches instances alone. -/
theorem State.instsOnly_spareFails (s : State) (c : Nat) : s.InstsOnly (s.spareFails c) :=
  State.each_rel State.InstsOnly.refl State.InstsOnly.trans (fun t i => t.instsOnly_setInst i _) _ s

/-! ## A core that fails (R468) -/

/-- What core c's failure with a cause leaves. -/
structure State.CoreFailed (s t : State) (c : CoreId) (cause : Nat) : Prop where
  core : t.core c.val = { s.core c.val with fenced := true }
  others : ∀ d, d ≠ c.val → t.core d = s.core d
  mark : mapGet (fun _ => false) t.marks c.val = true
  failCause : t.rd (K.failCause c.val) = cause
  failTime : t.rd (K.failTime c.val) = s.time
  hbm : t.hbm = s.hbm
  hostMem : t.hostMem = s.hostMem
  rd : ∀ key, key ∉ logKeys → key ≠ K.failCause c.val → key ≠ K.failTime c.val → t.rd key = s.rd key
  stops : ∀ i, (s.core c.val).inst = some i → (s.core c.val).addrValid = true → s.ready i.val = true →
    ⟨(s.core c.val).panel, (s.core c.val).logical, none⟩ ∈ (t.inst i.val).replacing ∧ (t.inst i.val).halted = true

/-- The core's mark, fence and log record, before any instance stops. -/
def State.fenceCore (s : State) (c cause : Nat) : State :=
  ((({ s with marks := mapSet (fun _ => false) s.marks c true } : State).wr (K.failCause c) cause).wr (K.failTime c)
    s.time).setCore c { s.core c with fenced := true }

theorem State.coreFails_eq (s : State) (c cause : Nat) (h : mapGet (fun _ => false) s.marks c = false) :
    s.coreFails c cause =
      match (s.core c).inst with
      | none => ((s.fenceCore c cause).logMg (s.core c).logInst 0x2006 1 0 noSlot c cause).spareFails c
      | some i =>
        let u := ((s.fenceCore c cause).logMg (s.core c).logInst 0x2006 1 0 noSlot c cause).spareFails c
        if (s.core c).addrValid && u.ready i.val then
          (u.abandon i.val).modInst i.val fun n =>
            { n with replacing := (((u.abandon i.val).inst i.val).replacing.filter fun r =>
                       !(r.panel == (s.core c).panel && r.logical == (s.core c).logical)) ++
                       [⟨(s.core c).panel, (s.core c).logical, none⟩],
                     sparesReady := false, fromStep := true }
        else u := by
  unfold State.coreFails
  rw [if_neg (by rw [h]; exact Bool.false_ne_true)]
  rfl

theorem State.coreFailed_fenceCore (s : State) (c : CoreId) (cause : Nat) {u : State}
    (hu : ((s.fenceCore c.val cause).logMg (s.core c.val).logInst 0x2006 1 0 noSlot c.val cause).InstsOnly u)
    (hstops : ∀ i, (s.core c.val).inst = some i → (s.core c.val).addrValid = true → s.ready i.val = true →
      ⟨(s.core c.val).panel, (s.core c.val).logical, none⟩ ∈ (u.inst i.val).replacing ∧ (u.inst i.val).halted = true) :
    s.CoreFailed u c cause where
  core := by rw [hu.core, State.logMg_core]; exact State.core_setCore ..
  others d hd := by rw [hu.core, State.logMg_core]; exact State.core_setCore_ne _ _ _ _ hd
  mark := by rw [hu.marks, State.logMg_marks]; exact mapGet_set_self (fun _ => false) s.marks c.val true
  failCause := by
    rw [hu.rd, State.logMg_rd _ _ _ _ _ _ _ _ (failCause_not_logKey c)]
    exact (State.rd_wr_ne _ _ _ _ (failCause_ne_failTime c)).trans (State.rd_wr ..)
  failTime := by
    rw [hu.rd, State.logMg_rd _ _ _ _ _ _ _ _ (failTime_not_logKey c)]
    exact State.rd_wr ..
  hbm := by rw [hu.hbm, State.logMg_hbm]; rfl
  hostMem := by rw [hu.hostMem, State.logMg_hostMem]; rfl
  rd key hlog hcause htime := by
    rw [hu.rd, State.logMg_rd _ _ _ _ _ _ _ _ hlog]
    exact (State.rd_wr_ne _ _ _ _ htime).trans (State.rd_wr_ne _ _ _ _ hcause)
  stops := hstops

theorem State.ready_congr {s t : State} {i : Nat} (h : t.rd (K.instState i) = s.rd (K.instState i)) : t.ready i = s.ready i := by
  unfold State.ready
  rw [h]

theorem instState_not_logKey (i : InstId) : K.instState i.val ∉ logKeys :=
  not_logKey (by have := i.isLt; unfold K.instState; omega)

theorem instState_ne_failCause (i : InstId) (c : CoreId) : K.instState i.val ≠ K.failCause c.val := by
  unfold K.instState K.failCause; omega

theorem instState_ne_failTime (i : InstId) (c : CoreId) : K.instState i.val ≠ K.failTime c.val := by
  unfold K.instState K.failTime; omega

/-- A core without a mark fails: it is marked and fenced, and its instance stops. -/
theorem State.coreFailed_coreFails (s : State) (c : CoreId) (cause : Nat) (h : mapGet (fun _ => false) s.marks c.val = false) :
    s.CoreFailed (s.coreFails c.val cause) c cause := by
  rw [s.coreFails_eq c.val cause h]
  have hspare := State.instsOnly_spareFails ((s.fenceCore c.val cause).logMg (s.core c.val).logInst 0x2006 1 0 noSlot c.val cause) c.val
  cases hinst : (s.core c.val).inst with
  | none => exact s.coreFailed_fenceCore c cause hspare fun i hi => absurd (hinst.symm.trans hi) (Option.some_ne_none i).symm
  | some j =>
    have hready : (((s.fenceCore c.val cause).logMg (s.core c.val).logInst 0x2006 1 0 noSlot c.val cause).spareFails c.val).ready
        j.val = s.ready j.val := by
      rw [hspare.ready]
      refine State.ready_congr ?_
      rw [State.logMg_rd _ _ _ _ _ _ _ _ (instState_not_logKey j)]
      exact (State.rd_wr_ne _ _ _ _ (instState_ne_failTime j c)).trans (State.rd_wr_ne _ _ _ _ (instState_ne_failCause j c))
    dsimp only
    rw [hready]
    split
    · refine s.coreFailed_fenceCore c cause ((hspare.trans (State.instsOnly_abandon ..)).trans (State.instsOnly_setInst ..))
        fun i hi _ _ => ?_
      obtain rfl : j = i := Option.some.inj (hinst.symm.trans hi)
      rw [State.modInst_eq, State.inst_setInst]
      exact ⟨List.mem_append_right _ (List.mem_singleton_self _), (congrArg Inst.halted (State.inst_setInst ..) :)⟩
    · next hnot =>
      refine s.coreFailed_fenceCore c cause hspare fun i hi hvalid hr => absurd ?_ hnot
      obtain rfl : j = i := Option.some.inj (hinst.symm.trans hi)
      rw [hvalid, hr]
      rfl

/-- A core with a mark fails no second time. -/
theorem State.coreFails_marked (s : State) (c cause : Nat) (h : mapGet (fun _ => false) s.marks c = true) :
    s.coreFails c cause = s := if_pos h

/-- A fenced core issues nothing. -/
theorem State.mayIssue_fenced {s : State} {c : Nat} (h : (s.core c).fenced = true) : s.mayIssue c = false := by
  simp [State.mayIssue, h]

end Sys2Proof.Machine
end

section
/-! The steps of a tile's repair (O27). -/

namespace Sys2Proof.Machine

/-! ## Bits of a tile descriptor -/

theorem tdPut_value (t m x y : Nat) (hm : 0 < m) (hx : x = t / m % 2) (hy : y < 2) : (t - x * m + y * m) / m % 2 = y := by
  rw [Nat.add_mul_div_right _ _ hm, mul_comm x m, Nat.sub_mul_div]
  omega

theorem b2n_beq_one (n : Nat) : b2n (n % 2 == 1) = n % 2 := by
  rcases Nat.mod_two_eq_zero_or_one n with h | h <;> rw [h] <;> rfl

theorem bit_tdPut (t n : Nat) (b : Bool) : bit (tdPut t n b) n = b := by
  unfold tdPut
  unfold bit
  rw [tdPut_value _ _ _ (b2n b) (Nat.two_pow_pos n) (b2n_beq_one _) (by cases b <;> decide)]
  cases b <;> rfl

/-! ## Repairs of an engine -/

@[simp] theorem EngState.td_setTd (x : EngState) (tile v : Nat) : (x.setTd tile v).td tile = v := mapGet_set_self ..
@[simp] theorem EngState.td_setRepair (x : EngState) (tile t : Nat) (r : Option Repair) : (x.setRepair tile r).td t = x.td t := rfl

theorem EngState.repairs_setTd (x : EngState) (tile v : Nat) : (x.setTd tile v).repairs = x.repairs := rfl
theorem EngState.copies_setTd (x : EngState) (tile v : Nat) : (x.setTd tile v).copies = x.copies := rfl
theorem EngState.copies_setRepair (x : EngState) (tile : Nat) (r : Option Repair) : (x.setRepair tile r).copies = x.copies := rfl

theorem EngState.mem_setRepair {x : EngState} {tile : Nat} {r r' : Repair} (h : r ∈ x.repairs) (ht : r.tile = tile) :
    r' ∈ (x.setRepair tile (some r')).repairs :=
  List.mem_filterMap.mpr ⟨r, h, if_pos ht⟩

/-- A repair removed is gone. -/
theorem EngState.setRepair_none {x : EngState} {tile : Nat} {y : Repair} (h : y ∈ (x.setRepair tile none).repairs) :
    y.tile ≠ tile := by
  obtain ⟨z, _, hz⟩ := List.mem_filterMap.mp h
  split at hz
  · cases hz
  · next hne => exact Option.some.inj hz ▸ hne

theorem Core.repairIn_mem {k : Core} {e : Nat} {st : RepairStep} {r : Repair} (h : k.repairIn e st = some r) :
    r ∈ (k.engOf e).repairs := List.mem_of_find?_eq_some h

theorem Core.repairIn_of_engineIn {k : Core} {e : Nat} {st : RepairStep} {r : Repair} (h : k.engineIn st = some (e, r)) :
    k.repairIn e st = some r := by
  obtain ⟨j, _, hj⟩ := List.exists_of_findSome?_eq_some h
  obtain ⟨r', hr', heq⟩ := Option.map_eq_some_iff.mp hj
  obtain ⟨rfl, rfl⟩ := Prod.mk.inj heq
  exact hr'

/-! ## Copies in the gusset -/

/-- Only the copies and the status of an engine differ: what a change of the gusset's copies leaves of any engine. -/
def EngState.CopiesOnly (x y : EngState) : Prop := y = { x with copies := y.copies, stat := y.stat }

theorem EngState.CopiesOnly.held {x y : EngState} (h : x.CopiesOnly y) : y.held = x.held := by rw [h]
theorem EngState.CopiesOnly.repairs {x y : EngState} (h : x.CopiesOnly y) : y.repairs = x.repairs := by rw [h]
theorem EngState.CopiesOnly.tdesc {x y : EngState} (h : x.CopiesOnly y) : y.tdesc = x.tdesc := by rw [h]
theorem EngState.CopiesOnly.lining {x y : EngState} (h : x.CopiesOnly y) : y.lining = x.lining := by rw [h]
theorem EngState.CopiesOnly.md {x y : EngState} (h : x.CopiesOnly y) : y.md = x.md := by rw [h]

theorem Core.copiesOnly_setCopy (k : Core) (e tile : Nat) (g : Option GCopy) (f : Nat) :
    (k.engOf f).CopiesOnly ((k.setCopy e tile g).engOf f) := by
  unfold Core.setCopy
  by_cases hf : f = 8
  · subst hf
    rw [Core.engOf_setEng_self]
    rfl
  · rw [Core.engOf_setEng_ne _ _ hf]
    rfl

theorem Core.engOf_setCopy_ne (k : Core) (e tile : Nat) (g : Option GCopy) {f : Nat} (h : f ≠ 8) :
    (k.setCopy e tile g).engOf f = k.engOf f := Core.engOf_setEng_ne _ _ h

theorem Core.copies_setCopy (k : Core) (e tile : Nat) (g : Option GCopy) :
    ((k.setCopy e tile g).engOf 8).copies =
      (k.engOf 8).copies.filterMap fun y => if y.owner = e ∧ y.tile = tile then g else some y :=
  (congrArg EngState.copies (Core.engOf_setEng_self ..) :)

theorem Core.copyOf_some {k : Core} {e tile : Nat} {g : GCopy} (h : k.copyOf e tile = some g) :
    g ∈ (k.engOf 8).copies ∧ g.owner = e ∧ g.tile = tile := by
  refine ⟨List.mem_of_find?_eq_some h, ?_⟩
  have := List.find?_some h
  simpa using this

theorem Core.mem_setCopy {k : Core} {e tile : Nat} {g g' : GCopy} (h : k.copyOf e tile = some g) :
    g' ∈ ((k.setCopy e tile (some g')).engOf 8).copies := by
  obtain ⟨hmem, howner, htile⟩ := Core.copyOf_some h
  rw [Core.copies_setCopy]
  exact List.mem_filterMap.mpr ⟨g, hmem, if_pos ⟨howner, htile⟩⟩

/-- A copy freed is gone. -/
theorem Core.setCopy_none {k : Core} {e tile : Nat} {g : GCopy} (h : g ∈ ((k.setCopy e tile none).engOf 8).copies) :
    g.owner ≠ e ∨ g.tile ≠ tile := by
  rw [Core.copies_setCopy] at h
  obtain ⟨z, _, hz⟩ := List.mem_filterMap.mp h
  split at hz
  · cases hz
  · next hne =>
    obtain rfl := Option.some.inj hz
    exact not_and_or.mp hne

/-- The copies stay where another engine, or other fields of the gusset, change. -/
theorem Core.copies_setEng (k : Core) {e : Nat} {x : EngState} (h : e = 8 → x.copies = (k.engOf 8).copies) :
    ((k.setEng e x).engOf 8).copies = (k.engOf 8).copies := by
  by_cases he : e = 8
  · subst he
    rw [Core.engOf_setEng_self, h rfl]
  · rw [Core.engOf_setEng_ne _ _ (Ne.symm he)]

/-! ## The end of a hold -/

theorem EngState.held_release (x : EngState) (now : Nat) : (x.release now).held = none := by
  unfold EngState.release
  cases h : x.held with
  | none => exact h
  | some _ => rfl

/-- Only the hold and the counters of an engine differ. -/
def EngState.HoldOnly (x y : EngState) : Prop := y = { x with held := y.held, ctr := y.ctr }

theorem EngState.holdOnly_release (x : EngState) (now : Nat) : x.HoldOnly (x.release now) := by
  unfold EngState.release
  split <;> rfl

theorem EngState.HoldOnly.repairs {x y : EngState} (h : x.HoldOnly y) : y.repairs = x.repairs := by rw [h]
theorem EngState.HoldOnly.copies {x y : EngState} (h : x.HoldOnly y) : y.copies = x.copies := by rw [h]
theorem EngState.HoldOnly.td {x y : EngState} (h : x.HoldOnly y) (tile : Nat) : y.td tile = x.td tile := by rw [h]; rfl
theorem EngState.HoldOnly.lining {x y : EngState} (h : x.HoldOnly y) : y.lining = x.lining := by rw [h]
theorem EngState.HoldOnly.md {x y : EngState} (h : x.HoldOnly y) : y.md = x.md := by rw [h]

theorem Core.engOf_release (k : Core) (now e : Nat) : (k.release now e).engOf e = (k.engOf e).release now :=
  Core.engOf_setEng_self ..

theorem Core.copies_release (k : Core) (now e : Nat) : ((k.release now e).engOf 8).copies = (k.engOf 8).copies :=
  k.copies_setEng fun h => h ▸ ((k.engOf e).holdOnly_release now).copies

/-! ## Changes of the engines alone -/

/-- Nothing of a core but its engines differs. -/
def Core.EngOnly (k k' : Core) : Prop := k' = { k with eng := k'.eng }

theorem Core.EngOnly.eq {k k' : Core} (h : k.EngOnly k') : k' = { k with eng := k'.eng } := h

theorem Core.EngOnly.trans {k k' k'' : Core} (h : k.EngOnly k') (h' : k'.EngOnly k'') : k.EngOnly k'' := by
  unfold Core.EngOnly at *
  rw [h', h]

theorem Core.EngOnly.refl (k : Core) : k.EngOnly k := rfl
theorem Core.engOnly_setEng (k : Core) (e : Nat) (x : EngState) : k.EngOnly (k.setEng e x) := rfl
theorem Core.engOnly_setCopy (k : Core) (e tile : Nat) (g : Option GCopy) : k.EngOnly (k.setCopy e tile g) := k.engOnly_setEng ..
theorem Core.engOnly_release (k : Core) (now e : Nat) : k.EngOnly (k.release now e) := k.engOnly_setEng ..

theorem Core.engOnly_returnTile (k : Core) (e tile : Nat) : k.EngOnly (k.returnTile e tile) :=
  (k.engOnly_setCopy e tile none).trans (Core.engOnly_setEng _ e _)

theorem Core.engOnly_switchCopy (k : Core) (e tile : Nat) (img : List Byte) : k.EngOnly (k.switchCopy e tile img) := by
  unfold Core.switchCopy
  split
  · exact (k.engOnly_setCopy ..).trans (Core.engOnly_setEng ..)
  · exact k.engOnly_setEng ..

theorem Core.dropStaging_frame (k : Core) (stream : Nat) :
    ∃ p m, k.dropStaging stream = { k with staging := p, stagingMem := m } := ⟨_, _, rfl⟩

theorem Core.passStaging_frame (k : Core) (stream : Nat) (img : List Byte) :
    ∃ p m, k.passStaging stream img = { k with staging := p, stagingMem := m } := by
  unfold Core.passStaging
  obtain ⟨p, m, h⟩ := Core.dropStaging_frame { k with stagingMem := _ } stream
  exact ⟨p, m, h⟩

theorem Core.engOf_passStaging (k : Core) (stream : Nat) (img : List Byte) (e : Nat) :
    (k.passStaging stream img).engOf e = k.engOf e := by
  obtain ⟨p, m, h⟩ := k.passStaging_frame stream img
  rw [h]
  rfl

theorem Core.copyOf_passStaging (k : Core) (stream : Nat) (img : List Byte) (e tile : Nat) :
    (k.passStaging stream img).copyOf e tile = k.copyOf e tile := by
  obtain ⟨p, m, h⟩ := k.passStaging_frame stream img
  rw [h]
  rfl

/-! ## The end of a re-program -/

variable {k : Core} {now e tile : Nat} {r : Repair} {img : List Byte}

/-- A tile returned is the engine's own again. -/
theorem Core.engOf_returnTile (k : Core) (e tile : Nat) : (k.returnTile e tile).engOf e =
    (((k.setCopy e tile none).engOf e).setTd tile (tdPut (((k.setCopy e tile none).engOf e).td tile) 26 false)).setRepair
      tile none := Core.engOf_setEng_self ..

theorem Core.copies_returnTile (k : Core) (e tile : Nat) :
    ((k.returnTile e tile).engOf 8).copies = ((k.setCopy e tile none).engOf 8).copies :=
  Core.copies_setEng _ fun h => by
    subst h
    rw [EngState.copies_setRepair, EngState.copies_setTd]

end Sys2Proof.Machine
end

section
/-! The commands that end the steps of a tile's repair, and the drain of an engine's records (O27). -/

namespace Sys2Proof.Machine

variable {s : State} {c : CoreId} {e : EngId} {r : Repair}

theorem EngState.repairIn_tile {x : EngState} {r r' : Repair} (h : r ∈ x.repairs) :
    r' ∈ (x.setRepair r.tile (some r')).repairs := EngState.mem_setRepair h rfl

/-! ## The fetch of the golden image -/

/-- The core after a golden image has come. -/
def Core.fetched (k : Core) (e : Nat) (r : Repair) (img : List Byte) : Core :=
  match k.copyOf e r.tile with
  | some _ => k.setEng e ((k.engOf e).setRepair r.tile (some { r with step := .gussetReprogram, image := img }))
  | none =>
    if r.gusset then
      let k' := k.setEng e ((k.engOf e).setRepair r.tile (some { r with step := .verifyGusset, image := img }))
      k'.setEng 8 { k'.engOf 8 with
        copies := (k'.engOf 8).copies ++ [⟨e, r.tile, img, false, false, []⟩], stat := (k'.engOf 8).stat ||| 64 }
    else k.setEng e ((k.engOf e).setRepair r.tile (some { r with step := .reprogram, image := img }))

theorem Core.engOnly_fetched (k : Core) (e : Nat) (r : Repair) (img : List Byte) : k.EngOnly (k.fetched e r img) := by
  unfold Core.fetched
  split
  · exact k.engOnly_setEng ..
  · split
    · exact (k.engOnly_setEng ..).trans (Core.engOnly_setEng ..)
    · exact k.engOnly_setEng ..

theorem goldenFetch_clause (hr : (s.core c.val).repairIn e.val .fetch = some r) (host : List Byte)
    (h : tdGoldenHost (((s.core c.val).engOf e.val).td r.tile) = false ∨ host ≠ []) :
    let k := s.core c.val
    let x := k.engOf e.val
    let img := if tdGoldenHost (x.td r.tile) then host else s.goldenInHbm k (x.td r.tile)
    ∃ t, execGoldenFetchDone c e host s = .next t ∧ s.OnlyCore t c ∧
      (k.copyOf e.val r.tile ≠ none →
        { r with step := .gussetReprogram, image := img } ∈ ((t.core c.val).engOf e.val).repairs) ∧
      (k.copyOf e.val r.tile = none → r.gusset = false →
        { r with step := .reprogram, image := img } ∈ ((t.core c.val).engOf e.val).repairs) ∧
      (k.copyOf e.val r.tile = none → r.gusset = true →
        { r with step := .verifyGusset, image := img } ∈ ((t.core c.val).engOf e.val).repairs ∧
        ⟨e.val, r.tile, img, false, false, []⟩ ∈ ((t.core c.val).engOf 8).copies) ∧
      t.core c.val = { k with
        eng := (t.core c.val).eng, staging := (t.core c.val).staging, stagingMem := (t.core c.val).stagingMem } := by
  intro k x img
  have hmem := Core.repairIn_mem hr
  have hbrought : (tdGoldenHost (x.td r.tile) && host.isEmpty) = false := by
    rcases h with h | h
    · rw [h]; rfl
    · rw [List.isEmpty_eq_false_iff.mpr h, Bool.and_false]
  have hexec : execGoldenFetchDone c e host s =
      .next (s.setCore c.val ((k.passStaging (repairStream e.val) img).fetched e.val r img)) := by
    unfold execGoldenFetchDone Core.fetched
    rw [State.modCore_eq]
    dsimp only
    rw [hr]
    dsimp only
    rw [if_neg (Bool.eq_false_iff.mp hbrought), Core.engOf_passStaging] <;> rfl
  have hframe := (k.passStaging (repairStream e.val) img).engOnly_fetched e.val r img
  refine ⟨_, hexec, s.onlyCore_set c _, ?_⟩
  rw [State.core_setCore]
  have hcopy := k.copyOf_passStaging (repairStream e.val) img e.val r.tile
  have heng := k.engOf_passStaging (repairStream e.val) img e.val
  refine ⟨fun hc => ?_, fun hc hg => ?_, fun hc hg => ?_, ?_⟩
  · obtain ⟨g, hc⟩ := Option.ne_none_iff_exists'.mp hc
    unfold Core.fetched
    rw [hcopy, hc]
    dsimp only
    rw [Core.engOf_setEng_self, heng]
    exact EngState.repairIn_tile hmem
  · unfold Core.fetched
    rw [hcopy, hc]
    dsimp only
    rw [if_neg (Bool.eq_false_iff.mp hg), Core.engOf_setEng_self, heng]
    exact EngState.repairIn_tile hmem
  · unfold Core.fetched
    rw [hcopy, hc]
    dsimp only
    rw [if_pos hg, Core.engOf_setEng_self, heng]
    refine ⟨?_, List.mem_append_right _ (List.mem_singleton_self _)⟩
    by_cases he : e.val = 8
    · rw [he, Core.engOf_setEng_self, Core.engOf_setEng_self]
      exact EngState.repairIn_tile (he ▸ hmem)
    · rw [Core.engOf_setEng_ne _ _ he, Core.engOf_setEng_self]
      exact EngState.repairIn_tile hmem
  · rw [hframe.eq]
    obtain ⟨p, m, h⟩ := k.passStaging_frame (repairStream e.val) img
    rw [h]

/-- A repair of one engine that takes another step. -/
theorem Core.setStep (k : Core) {r' : Repair} (h : r ∈ (k.engOf e.val).repairs) :
    let k' := k.setEng e.val ((k.engOf e.val).setRepair r.tile (some r'))
    r' ∈ (k'.engOf e.val).repairs ∧ (∀ j, j ≠ e.val → k'.engOf j = k.engOf j) ∧ k' = { k with eng := k'.eng } :=
  ⟨(Core.engOf_setEng_self ..).symm ▸ EngState.repairIn_tile h, fun _ hj => Core.engOf_setEng_ne _ _ hj, rfl⟩

theorem goldenFetch_nothing (hr : (s.core c.val).repairIn e.val .fetch = some r)
    (h : tdGoldenHost (((s.core c.val).engOf e.val).td r.tile) = true) :
    execGoldenFetchDone c e [] s = .next (s.setCore c.val ((s.core c.val).setEng e.val
      (((s.core c.val).engOf e.val).setRepair r.tile (some { r with step := .fetchRetry })))) := by
  unfold execGoldenFetchDone
  rw [State.modCore_eq]
  dsimp only
  rw [hr]
  dsimp only
  rw [h]
  rfl

theorem goldenRetry_next (hr : (s.core c.val).repairIn e.val .fetchRetry = some r) :
    execGoldenFetchRetry c e s = .next (s.setCore c.val ((s.core c.val).setEng e.val
      (((s.core c.val).engOf e.val).setRepair r.tile (some { r with step := .fetch })))) := by
  unfold execGoldenFetchRetry
  rw [State.modCore_eq, hr]

/-! ## The gusset's copy -/

/-- The core once the gusset's copy serves. -/
def Core.serve (k : Core) (now e : Nat) (r : Repair) : Core :=
  let k' := match k.copyOf e r.tile with
    | some g => k.setCopy e r.tile (some { g with serving := true })
    | none => k
  (k'.setEng e (((k.engOf e).setTd r.tile (tdPut ((k.engOf e).td r.tile) 26 true)).setRepair r.tile
    (some { r with step := .reprogram, held := false }))).release now e

theorem gussetVerified_next (hr : (s.core c.val).engineIn .verifyGusset = some (e.val, r)) :
    execGussetCopyVerified c true s = .next (s.setCore c.val ((s.core c.val).serve s.uptime e.val r)) := by
  unfold execGussetCopyVerified Core.serve
  rw [State.modCore_eq, hr]
  dsimp only
  rw [if_pos rfl] <;> cases (s.core c.val).copyOf e.val r.tile <;> rfl

theorem gussetVerified_clause (hr : (s.core c.val).engineIn .verifyGusset = some (e.val, r)) (h8 : e.val ≠ 8) :
    let k := s.core c.val
    ∃ t, execGussetCopyVerified c true s = .next t ∧ s.OnlyCore t c ∧
      ((t.core c.val).engOf e.val).held = none ∧ bit (((t.core c.val).engOf e.val).td r.tile) 26 = true ∧
      { r with step := .reprogram, held := false } ∈ ((t.core c.val).engOf e.val).repairs ∧
      (∀ g, k.copyOf e.val r.tile = some g → { g with serving := true } ∈ ((t.core c.val).engOf 8).copies) ∧
      t.core c.val = { k with eng := (t.core c.val).eng } := by
  intro k
  have hmem := Core.repairIn_mem (Core.repairIn_of_engineIn hr)
  have hexec := gussetVerified_next hr
  refine ⟨_, hexec, s.onlyCore_set c _, ?_⟩
  rw [State.core_setCore]
  unfold Core.serve
  refine ⟨?_, ?_, ?_, fun g hg => ?_, ?_⟩
  · rw [Core.engOf_release, EngState.held_release]
  · rw [Core.engOf_release, (EngState.holdOnly_release ..).td, Core.engOf_setEng_self, EngState.td_setRepair, EngState.td_setTd,
      bit_tdPut]
  · rw [Core.engOf_release, (EngState.holdOnly_release ..).repairs, Core.engOf_setEng_self]
    exact EngState.mem_setRepair ((EngState.repairs_setTd ..).symm ▸ hmem) rfl
  · rw [Core.copies_release, hg, Core.copies_setEng _ fun h => absurd h h8]
    exact Core.mem_setCopy hg
  · split
    · exact (((k.engOnly_setCopy ..).trans (Core.engOnly_setEng ..)).trans (Core.engOnly_release ..)).eq
    · exact ((k.engOnly_setEng ..).trans (Core.engOnly_release ..)).eq

theorem gussetNotVerified_clause (hr : (s.core c.val).engineIn .verifyGusset = some (e.val, r)) (h8 : e.val ≠ 8) :
    let k := s.core c.val
    ∃ t, execGussetCopyVerified c false s = .next t ∧ s.OnlyCore t c ∧
      ((t.core c.val).engOf e.val).held = (k.engOf e.val).held ∧
      { r with step := .reprogram, gusset := false } ∈ ((t.core c.val).engOf e.val).repairs ∧
      (∀ g ∈ ((t.core c.val).engOf 8).copies, g.owner ≠ e.val ∨ g.tile ≠ r.tile) ∧
      t.core c.val = { k with eng := (t.core c.val).eng } := by
  intro k
  have hmem := Core.repairIn_mem (Core.repairIn_of_engineIn hr)
  obtain ⟨ev, hexec⟩ : ∃ ev, execGussetCopyVerified c false s = .next (s.setCore c.val ((k.setCopy e.val r.tile none).setEng e.val
      (((k.engOf e.val).pushEv ev).setRepair r.tile (some { r with step := .reprogram, gusset := false })))) := by
    unfold execGussetCopyVerified
    rw [State.modCore_eq]
    dsimp only
    rw [hr]
    exact ⟨_, rfl⟩
  have hcounts := (k.engOf e.val).countsOnly_pushEv ev
  refine ⟨_, hexec, s.onlyCore_set c _, ?_⟩
  rw [State.core_setCore]
  refine ⟨?_, ?_, fun g hg => ?_, ((k.engOnly_setCopy ..).trans (Core.engOnly_setEng ..)).eq⟩
  · rw [Core.engOf_setEng_self]
    exact hcounts.held
  · rw [Core.engOf_setEng_self]
    exact EngState.mem_setRepair (hcounts.eq ▸ hmem) rfl
  · rw [Core.copies_setEng _ fun h => absurd h h8] at hg
    exact Core.setCopy_none hg

end Sys2Proof.Machine
end

section
/-! The end of a re-program, the drain of an engine's records, and the statement (O27). -/

namespace Sys2Proof.Machine

variable {s : State} {c : CoreId} {e : EngId} {r : Repair}

/-! ## The in-place re-program (R62, R66) -/

theorem reprogram_next (hr : (s.core c.val).repairIn e.val .reprogram = some r)
    (h8 : e.val = 8 → (s.core c.val).engineIn .gussetReprogram = none) (ok : Bool) :
    execReprogramVerified c e ok s =
      .next (if ((s.core c.val).reprogramEnd s.uptime e.val r ok).2
        then (s.setCore c.val ((s.core c.val).reprogramEnd s.uptime e.val r ok).1).coreFails c.val 1
        else s.setCore c.val ((s.core c.val).reprogramEnd s.uptime e.val r ok).1) := by
  have hnone : (if e.val = 8 then (s.core c.val).engineIn .gussetReprogram else none) = none := by
    split
    · next he => exact h8 he
    · rfl
  unfold execReprogramVerified
  dsimp only
  rw [hnone]
  dsimp only
  rw [hr]
  rfl

theorem EngState.repairs_program (x : EngState) (tile : Nat) (img : List Byte) : (x.program tile img).repairs = x.repairs := rfl
theorem EngState.held_program (x : EngState) (tile : Nat) (img : List Byte) : (x.program tile img).held = x.held := rfl

/-- What the tile's re-program leaves where it verifies: the engine's own tile again, or held by the gusset until a tack. -/
structure Core.Reprogrammed (k k' : Core) (e : Nat) (r : Repair) : Prop where
  lining : (k'.engOf e).lining = ((k.engOf e).program r.tile r.image).lining
  md : (k'.engOf e).md = ((k.engOf e).program r.tile r.image).md
  waits : r.gusset = true → r.held = false →
    { r with step := .returnTack } ∈ (k'.engOf e).repairs ∧ (k'.engOf e).held = (k.engOf e).held
  ends : r.gusset = false ∨ r.held = true → (k'.engOf e).held = none ∧ ∀ y ∈ (k'.engOf e).repairs, y.tile ≠ r.tile
  returns : r.gusset = true → r.held = true → bit ((k'.engOf e).td r.tile) 26 = false ∧
    ∀ g ∈ (k'.engOf 8).copies, g.owner ≠ e ∨ g.tile ≠ r.tile
  only : k.EngOnly k'

theorem EngState.lining_setRepair (x : EngState) (tile : Nat) (r : Option Repair) : (x.setRepair tile r).lining = x.lining := rfl
theorem EngState.md_setRepair (x : EngState) (tile : Nat) (r : Option Repair) : (x.setRepair tile r).md = x.md := rfl
theorem EngState.lining_setTd (x : EngState) (tile v : Nat) : (x.setTd tile v).lining = x.lining := rfl
theorem EngState.md_setTd (x : EngState) (tile v : Nat) : (x.setTd tile v).md = x.md := rfl

/-- On the stall path the tile is the engine's own at once. -/
theorem Core.reprogrammed_stall (k : Core) (now : Nat) {e : Nat} (hg : r.gusset = false) :
    k.Reprogrammed (((k.setEng e ((k.engOf e).program r.tile r.image)).setEng e
      (((k.engOf e).program r.tile r.image).setRepair r.tile none)).release now e) e r := by
  have hrel := EngState.holdOnly_release (((k.engOf e).program r.tile r.image).setRepair r.tile none) now
  have heng : ((((k.setEng e ((k.engOf e).program r.tile r.image)).setEng e
      (((k.engOf e).program r.tile r.image).setRepair r.tile none)).release now e).engOf e) =
      (((k.engOf e).program r.tile r.image).setRepair r.tile none).release now := by
    rw [Core.engOf_release, Core.engOf_setEng_self]
  constructor
  case lining => rw [heng, hrel.lining, EngState.lining_setRepair]
  case md => rw [heng, hrel.md, EngState.md_setRepair]
  case waits => exact fun hg' => absurd (hg.symm.trans hg') Bool.false_ne_true
  case ends =>
    rw [heng, hrel.repairs, EngState.held_release]
    exact fun _ => ⟨rfl, fun y hy => EngState.setRepair_none hy⟩
  case returns => exact fun hg' => absurd (hg.symm.trans hg') Bool.false_ne_true
  case only => exact ((k.engOnly_setEng ..).trans (Core.engOnly_setEng ..)).trans (Core.engOnly_release ..)

/-- With its pass held, a tile of the gusset returns at once. -/
theorem Core.reprogrammed_held (k : Core) (now : Nat) {e : Nat} (hh : r.held = true) :
    k.Reprogrammed (((k.setEng e ((k.engOf e).program r.tile r.image)).returnTile e r.tile).release now e) e r := by
  obtain ⟨k1, hk1⟩ : ∃ k1, k1 = k.setEng e ((k.engOf e).program r.tile r.image) := ⟨_, rfl⟩
  have heng1 : k1.engOf e = (k.engOf e).program r.tile r.image := hk1 ▸ Core.engOf_setEng_self ..
  have honly1 : k.EngOnly k1 := hk1 ▸ k.engOnly_setEng ..
  rw [← hk1]
  have hcopies := k1.copiesOnly_setCopy e r.tile none e
  have hrel := EngState.holdOnly_release ((k1.returnTile e r.tile).engOf e) now
  have heng := Core.engOf_release (k1.returnTile e r.tile) now e
  constructor
  case lining =>
    rw [heng, hrel.lining, Core.engOf_returnTile, EngState.lining_setRepair, EngState.lining_setTd, hcopies.lining, heng1]
  case md => rw [heng, hrel.md, Core.engOf_returnTile, EngState.md_setRepair, EngState.md_setTd, hcopies.md, heng1]
  case waits => exact fun _ hh' => absurd (hh'.symm.trans hh) Bool.false_ne_true
  case ends =>
    rw [heng, hrel.repairs, EngState.held_release, Core.engOf_returnTile]
    exact fun _ => ⟨rfl, fun y hy => EngState.setRepair_none hy⟩
  case returns =>
    rw [heng, hrel.td, Core.copies_release, Core.engOf_returnTile, EngState.td_setRepair, EngState.td_setTd, bit_tdPut,
      Core.copies_returnTile]
    exact fun _ _ => ⟨rfl, fun g hg => Core.setCopy_none hg⟩
  case only => exact (honly1.trans (Core.engOnly_returnTile ..)).trans (Core.engOnly_release ..)

/-- With no pass held, a tile of the gusset waits for its return tack. -/
theorem Core.reprogrammed_waits (k : Core) {e : Nat} (hmem : r ∈ (k.engOf e).repairs) (hg : r.gusset = true)
    (hh : r.held = false) :
    k.Reprogrammed ((k.setEng e ((k.engOf e).program r.tile r.image)).setEng e
      (((k.engOf e).program r.tile r.image).setRepair r.tile (some { r with step := .returnTack }))) e r := by
  have heng : (((k.setEng e ((k.engOf e).program r.tile r.image)).setEng e
      (((k.engOf e).program r.tile r.image).setRepair r.tile (some { r with step := .returnTack }))).engOf e) =
      ((k.engOf e).program r.tile r.image).setRepair r.tile (some { r with step := .returnTack }) := Core.engOf_setEng_self ..
  have hnot : ¬ (r.gusset = false ∨ r.held = true) := by simp [hg, hh]
  constructor
  case lining => rw [heng, EngState.lining_setRepair]
  case md => rw [heng, EngState.md_setRepair]
  case waits =>
    rw [heng]
    exact fun _ _ => ⟨EngState.mem_setRepair ((EngState.repairs_program ..).symm ▸ hmem) rfl, rfl⟩
  case ends => exact fun h => absurd h hnot
  case returns => exact fun _ h => absurd (.inr h) hnot
  case only => exact (k.engOnly_setEng ..).trans (Core.engOnly_setEng ..)

theorem Core.reprogrammed_end (k : Core) (now : Nat) {e : Nat} (hmem : r ∈ (k.engOf e).repairs) :
    k.Reprogrammed (k.reprogramEnd now e r true).1 e r ∧ (k.reprogramEnd now e r true).2 = false := by
  unfold Core.reprogramEnd
  dsimp only
  rw [if_pos rfl, Core.engOf_setEng_self]
  split
  · next hg => exact ⟨k.reprogrammed_stall now (by simpa using hg), rfl⟩
  · next hg =>
    split
    · next hh => exact ⟨k.reprogrammed_held now hh, rfl⟩
    · next hh => exact ⟨k.reprogrammed_waits hmem (by simpa using hg) (by simpa using hh), rfl⟩

/-- What a re-program that does not verify leaves of its core. -/
structure Core.NotReprogrammed (k k' : Core) (e : Nat) (r : Repair) (step : RepairStep) : Prop where
  marked : bit ((k'.engOf e).td r.tile) 27 = true
  lining : (k'.engOf e).lining = (k.engOf e).lining
  repair : { r with step := step } ∈ (k'.engOf e).repairs
  only : k.EngOnly k'

theorem EngState.CountsOnly.lining {x y : EngState} (h : x.CountsOnly y) : y.lining = x.lining := by rw [h.eq]
theorem EngState.CountsOnly.repairs {x y : EngState} (h : x.CountsOnly y) : y.repairs = x.repairs := by rw [h.eq]

theorem Core.notReprogrammed_setEng (k : Core) {e : Nat} {x : EngState} (hx : (k.engOf e).CountsOnly x)
    (hmem : r ∈ (k.engOf e).repairs) (step : RepairStep) :
    k.NotReprogrammed (k.setEng e ((x.setTd r.tile (tdPut (x.td r.tile) 27 true)).setRepair r.tile
      (some { r with step := step }))) e r step where
  marked := by rw [Core.engOf_setEng_self, EngState.td_setRepair, EngState.td_setTd, bit_tdPut]
  lining := by rw [Core.engOf_setEng_self, EngState.lining_setRepair, EngState.lining_setTd, hx.lining]
  repair := by
    rw [Core.engOf_setEng_self]
    exact EngState.mem_setRepair ((EngState.repairs_setTd ..).symm ▸ hx.repairs.symm ▸ hmem) rfl
  only := k.engOnly_setEng ..

theorem EngState.CopiesOnly.td {x y : EngState} (h : x.CopiesOnly y) (tile : Nat) : y.td tile = x.td tile := by
  unfold EngState.td
  rw [h.tdesc]

theorem Core.NotReprogrammed.setCopy {k k' : Core} {e : Nat} {step : RepairStep} (h : k.NotReprogrammed k' e r step)
    (tile : Nat) (g : Option GCopy) : k.NotReprogrammed (k'.setCopy e tile g) e r step := by
  have hcopies := k'.copiesOnly_setCopy e tile g e
  exact ⟨by rw [hcopies.td, h.marked], hcopies.lining.trans h.lining, by rw [hcopies.repairs]; exact h.repair,
    h.only.trans (k'.engOnly_setCopy e tile g)⟩

theorem Core.notReprogrammed_end (k : Core) (now : Nat) {e : Nat} (hmem : r ∈ (k.engOf e).repairs) :
    k.NotReprogrammed (k.reprogramEnd now e r false).1 e r (if r.gusset then .gussetReprogram else .failed) ∧
      (k.reprogramEnd now e r false).2 = !r.gusset := by
  unfold Core.reprogramEnd
  dsimp only
  rw [if_neg Bool.false_ne_true]
  have hset (ev : EvRec) := k.notReprogrammed_setEng ((k.engOf e).countsOnly_pushEv ev) hmem
  by_cases hg : r.gusset = true
  · rw [if_pos hg, if_pos hg]
    split
    · exact ⟨(hset _ .gussetReprogram).setCopy .., by rw [hg]; rfl⟩
    · exact ⟨hset _ .gussetReprogram, by rw [hg]; rfl⟩
  · rw [if_neg hg, if_neg hg]
    exact ⟨hset _ .failed, by rw [Bool.eq_false_iff.mpr hg]; rfl⟩

/-- A core that fails, marked before or not: its engines stay, and it is marked. -/
theorem State.coreFails_engines (s : State) (c : CoreId) (cause e : Nat) :
    ((s.coreFails c.val cause).core c.val).engOf e = (s.core c.val).engOf e ∧
      mapGet (fun _ => false) (s.coreFails c.val cause).marks c.val = true ∧
      (mapGet (fun _ => false) s.marks c.val = false → ((s.coreFails c.val cause).core c.val).fenced = true ∧
        (s.coreFails c.val cause).rd (K.failCause c.val) = cause) := by
  cases hmark : mapGet (fun _ => false) s.marks c.val with
  | true =>
    rw [s.coreFails_marked c.val cause hmark]
    exact ⟨rfl, hmark, fun h => absurd h Bool.noConfusion⟩
  | false =>
    have hfail := s.coreFailed_coreFails c cause hmark
    exact ⟨by rw [hfail.core]; rfl, hfail.mark, fun _ => ⟨by rw [hfail.core], hfail.failCause⟩⟩

/-- A re-program that does not verify. -/
theorem notReprogrammed_clause (hr : (s.core c.val).repairIn e.val .reprogram = some r)
    (h8 : e.val = 8 → (s.core c.val).engineIn .gussetReprogram = none) :
    let k := s.core c.val
    ∃ t, execReprogramVerified c e false s = .next t ∧
      bit (((t.core c.val).engOf e.val).td r.tile) 27 = true ∧
      ((t.core c.val).engOf e.val).lining = (k.engOf e.val).lining ∧
      (r.gusset = true → s.OnlyCore t c ∧ { r with step := .gussetReprogram } ∈ ((t.core c.val).engOf e.val).repairs ∧
        t.core c.val = { k with eng := (t.core c.val).eng }) ∧
      (r.gusset = false → { r with step := .failed } ∈ ((t.core c.val).engOf e.val).repairs ∧
        mapGet (fun _ => false) t.marks c.val = true ∧
        (mapGet (fun _ => false) s.marks c.val = false →
          (t.core c.val).fenced = true ∧ t.rd (K.failCause c.val) = 1)) := by
  intro k
  obtain ⟨⟨hmarked, hlining, hrep, honly⟩, hfailed⟩ :=
    (s.core c.val).notReprogrammed_end s.uptime (Core.repairIn_mem hr)
  have hexec := reprogram_next hr h8 false
  rw [hfailed] at hexec
  by_cases hg : r.gusset = true
  · rw [if_neg (by simp [hg])] at hexec
    rw [if_pos hg] at hrep
    refine ⟨_, hexec, ?_⟩
    rw [State.core_setCore]
    exact ⟨hmarked, hlining, fun _ => ⟨s.onlyCore_set c _, hrep, honly⟩, fun h => absurd hg (Bool.eq_false_iff.mp h)⟩
  · rw [if_pos (by simp [hg])] at hexec
    rw [if_neg hg] at hrep
    refine ⟨_, hexec, ?_⟩
    obtain ⟨heng, hmark, hfail⟩ := (s.setCore c.val (k.reprogramEnd s.uptime e.val r false).1).coreFails_engines c 1 e.val
    rw [heng, State.core_setCore]
    exact ⟨hmarked, hlining, fun h => absurd h hg, fun _ => ⟨hrep, hmark, hfail⟩⟩

/-! ## The gusset's own programming (R66) -/

theorem gussetProgram_next {o : Nat} (h8 : e.val = 8) (hr : (s.core c.val).engineIn .gussetReprogram = some (o, r)) (ok : Bool) :
    execReprogramVerified c e ok s =
      .next (if ((s.core c.val).gussetEnd s.uptime o r ok).2
        then (s.setCore c.val ((s.core c.val).gussetEnd s.uptime o r ok).1).coreFails c.val 1
        else s.setCore c.val ((s.core c.val).gussetEnd s.uptime o r ok).1) := by
  unfold execReprogramVerified
  dsimp only
  rw [if_pos h8, hr]

theorem Core.engOf_switchCopy (k : Core) {o tile : Nat} (img : List Byte) (ho : o ≠ 8) :
    (k.switchCopy o tile img).engOf o = (k.engOf o).setRepair tile none := by
  unfold Core.switchCopy
  split
  · rw [Core.engOf_setEng_self, Core.engOf_setCopy_ne _ _ _ _ ho]
  · rw [Core.engOf_setEng_self]

/-- The gusset's copy programmed anew serves in the place of the one before. -/
theorem Core.mem_switchCopy {k : Core} {o tile : Nat} {g : GCopy} (img : List Byte) (ho : o ≠ 8)
    (h : k.copyOf o tile = some g) :
    { g with image := img, mdErr := [] } ∈ ((k.switchCopy o tile img).engOf 8).copies := by
  unfold Core.switchCopy
  rw [h, Core.copies_setEng _ fun h => absurd h ho]
  exact Core.mem_setCopy h

theorem gussetProgrammed_clause {o : Nat} (h8 : e.val = 8)
    (hr : (s.core c.val).engineIn .gussetReprogram = some (o, r)) (ho : o ≠ 8) :
    let k := s.core c.val
    ∃ t, execReprogramVerified c e true s = .next t ∧ s.OnlyCore t c ∧
      (r.held = true → ((t.core c.val).engOf o).held = none ∧
        (∀ y ∈ ((t.core c.val).engOf o).repairs, y.tile ≠ r.tile) ∧
        ∀ g, k.copyOf o r.tile = some g → { g with image := r.image, mdErr := [] } ∈ ((t.core c.val).engOf 8).copies) ∧
      (r.held = false → { r with step := .switchTack } ∈ ((t.core c.val).engOf o).repairs) ∧
      t.core c.val = { k with eng := (t.core c.val).eng } := by
  intro k
  have hmem : r ∈ (k.engOf o).repairs := Core.repairIn_mem (Core.repairIn_of_engineIn hr)
  have hexec := gussetProgram_next h8 hr true
  by_cases hh : r.held = true
  · have hend : k.gussetEnd s.uptime o r true = ((k.switchCopy o r.tile r.image).release s.uptime o, false) := by
      unfold Core.gussetEnd
      dsimp only
      rw [if_pos rfl, if_pos hh]
    rw [hend, if_neg Bool.false_ne_true] at hexec
    refine ⟨_, hexec, s.onlyCore_set c _, ?_⟩
    rw [State.core_setCore]
    refine ⟨fun _ => ⟨?_, fun y hy => ?_, fun g hg => ?_⟩, fun h => absurd hh (Bool.eq_false_iff.mp h),
      ((k.engOnly_switchCopy ..).trans (Core.engOnly_release ..)).eq⟩
    · rw [Core.engOf_release, EngState.held_release]
    · rw [Core.engOf_release, (EngState.holdOnly_release ..).repairs, Core.engOf_switchCopy _ _ ho] at hy
      exact EngState.setRepair_none hy
    · rw [Core.copies_release]
      exact Core.mem_switchCopy _ ho hg
  · have hend : k.gussetEnd s.uptime o r true =
        (k.setEng o ((k.engOf o).setRepair r.tile (some { r with step := .switchTack })), false) := by
      unfold Core.gussetEnd
      dsimp only
      rw [if_pos rfl, if_neg hh]
    rw [hend, if_neg Bool.false_ne_true] at hexec
    refine ⟨_, hexec, s.onlyCore_set c _, ?_⟩
    rw [State.core_setCore]
    refine ⟨fun h => absurd h hh, fun _ => ?_, (k.engOnly_setEng ..).eq⟩
    rw [Core.engOf_setEng_self]
    exact EngState.repairIn_tile hmem

theorem gussetNotProgrammed_clause {o : Nat} (h8 : e.val = 8)
    (hr : (s.core c.val).engineIn .gussetReprogram = some (o, r)) :
    ∃ t, execReprogramVerified c e false s = .next t ∧
      { r with step := .failed } ∈ ((t.core c.val).engOf o).repairs ∧ mapGet (fun _ => false) t.marks c.val = true := by
  obtain ⟨ev, hend⟩ : ∃ ev, (s.core c.val).gussetEnd s.uptime o r false = ((s.core c.val).setEng o
      ((((s.core c.val).engOf o).pushEv ev).setRepair r.tile (some { r with step := .failed })), true) := by
    unfold Core.gussetEnd
    exact ⟨_, if_neg Bool.false_ne_true⟩
  have hexec := gussetProgram_next h8 hr false
  rw [hend] at hexec
  refine ⟨_, hexec, ?_⟩
  rw [if_pos rfl]
  obtain ⟨heng, hmark, _⟩ := State.coreFails_engines (s.setCore c.val _) c 1 o
  refine ⟨?_, hmark⟩
  rw [heng, State.core_setCore, Core.engOf_setEng_self]
  refine EngState.mem_setRepair ?_ rfl
  rw [(EngState.countsOnly_pushEv ..).repairs]
  exact Core.repairIn_mem (Core.repairIn_of_engineIn hr)

/-! ## The drain of an engine's records (R51) -/

/-- A log entry goes to the front of the log. -/
theorem State.log_logEntry (s : State) (a b c d e : Nat) : ∃ y : LogEntry, y.source = a ∧ y.record = e ∧
    (s.logEntry a b c d e).log = y :: s.log.take 65535 := by
  refine ⟨⟨s.time, s.rd K.logHead + 1, a, b, c, if c = 2 then d else 0, e⟩, rfl, rfl, ?_⟩
  unfold State.logEntry
  dsimp only
  split_ifs <;> simp

theorem State.log_logDev (s : State) (b e : Nat) : ∃ y : LogEntry, y.source = 0 ∧ y.record = e ∧
    (s.logDev b e).log = y :: s.log.take 65535 := s.log_logEntry ..

/-- Device records logged one after another stand in the log, the last one first, before what is left of the log. -/
theorem State.log_eachDev (i : Nat) : ∀ (l : List Nat) (s : State), l.length ≤ 65535 →
    ∃ (ys : List LogEntry) (m : Nat), ys.map (·.record) = l.reverse ∧ (∀ y ∈ ys, y.source = 0) ∧ 65536 - l.length ≤ m ∧
      (s.each l fun s r => s.logDev i r).log = ys ++ s.log.take m
  | [], s, _ => ⟨[], 65536 + s.log.length, rfl, fun y hy => absurd hy List.not_mem_nil, by omega,
      (List.take_of_length_le (Nat.le_add_left s.log.length 65536)).symm⟩
  | r :: l, s, h => by
    obtain ⟨y, hsource, hrecord, hlog⟩ := s.log_logDev i r
    obtain ⟨ys, m, hrecords, hsources, hm, hlogs⟩ := State.log_eachDev i l (s.logDev i r) (by simp at h; omega)
    obtain ⟨m', rfl⟩ : ∃ m', m = m' + 1 := ⟨m - 1, by simp at h; omega⟩
    refine ⟨ys ++ [y], min m' 65535, ?_, ?_, by simp; omega, ?_⟩
    · rw [List.map_append, hrecords, List.reverse_cons, List.map_singleton, hrecord]
    · exact fun z hz => (List.mem_append.mp hz).elim (hsources z) fun hz => List.mem_singleton.mp hz ▸ hsource
    · rw [show s.each (r :: l) (fun s r => s.logDev i r) = (s.logDev i r).each l fun s r => s.logDev i r from rfl, hlogs, hlog,
        List.take_succ_cons, List.take_take, List.append_assoc]
      rfl

/-- Draining an engine's records: they stand in the log in their order, the last one first. -/
theorem drain_clause (s : State) (c : CoreId) (e : EngId) :
    let k := s.core c.val
    let x := k.engOf e.val
    ∃ t, execEventQueueDrain c e s = .next t ∧ s.OnlyCoreAndLog t c ∧ ((t.core c.val).engOf e.val).evq = [] ∧
      (x.evq.length ≤ 16 → (t.log.take x.evq.length).map (fun y => y.record) = x.evq.reverse ∧
        ∀ y ∈ t.log.take x.evq.length, y.source = 0) ∧
      (∀ j, j ≠ e.val → (t.core c.val).engOf j = k.engOf j) ∧ t.core c.val = { k with eng := (t.core c.val).eng } := by
  intro k x
  have honly : (s.setCore c.val (k.setEng e.val { x with evq := [] })).LogOnly
      ((s.setCore c.val (k.setEng e.val { x with evq := [] })).each x.evq fun s r => s.logDev k.logInst r) :=
    State.each_rel State.LogOnly.refl State.LogOnly.trans (fun t r => t.logDev_only _ r) _ _
  refine ⟨_, rfl, (s.onlyCore_set c _).toLog.trans (honly.toCoreAndLog c), ?_⟩
  rw [honly.core, State.core_setCore, Core.engOf_setEng_self]
  refine ⟨rfl, fun hlen => ?_, fun j hj => Core.engOf_setEng_ne _ _ hj, rfl⟩
  obtain ⟨ys, m, hrecords, hsources, _, hlog⟩ := State.log_eachDev k.logInst x.evq
    (s.setCore c.val (k.setEng e.val { x with evq := [] })) (by omega)
  have htake : x.evq.length = ys.length := by rw [← List.length_map (f := (·.record)) (as := ys), hrecords, List.length_reverse]
  rw [hlog, htake, List.take_left]
  exact ⟨hrecords, hsources⟩

/-- Settles O27: each step of a repair by its own clause, and the drain. -/
theorem repairStepsAdvance : Obligations.RepairStepsAdvance := by
  unfold Obligations.RepairStepsAdvance
  intro s c e r
  simp -zeta only [exec_goldenFetchDone, exec_goldenFetchRetry, exec_gussetCopyVerified, exec_reprogramVerified,
    exec_eventQueueDrain]
  intro k x Repairs
  refine ⟨fun hr => ⟨fun host h => goldenFetch_clause hr host h, fun h => ⟨_, goldenFetch_nothing hr h, s.onlyCore_set c _, ?empty⟩⟩,
    fun hr => ⟨_, goldenRetry_next hr, s.onlyCore_set c _, ?retry⟩,
    fun hr h8 => ⟨gussetVerified_clause hr h8, gussetNotVerified_clause hr h8⟩,
    fun hr h8 => ⟨?reprogrammed, notReprogrammed_clause hr h8⟩,
    fun o h8 hr ho => ⟨gussetProgrammed_clause h8 hr ho, gussetNotProgrammed_clause h8 hr⟩, drain_clause s c e⟩
  case empty =>
    obtain ⟨hrep, _, hframe⟩ := k.setStep (r' := { r with step := .fetchRetry }) (Core.repairIn_mem hr)
    simp only [Repairs]
    rw [State.core_setCore]
    exact ⟨hrep, hframe⟩
  case retry =>
    simp only [Repairs]
    rw [State.core_setCore]
    exact k.setStep (Core.repairIn_mem hr)
  case reprogrammed =>
    obtain ⟨⟨hlining, hmd, hwaits, hends, hreturns, honly⟩, hfailed⟩ := k.reprogrammed_end s.uptime (Core.repairIn_mem hr)
    have hexec := reprogram_next hr h8 true
    rw [hfailed, if_neg Bool.false_ne_true] at hexec
    refine ⟨_, hexec, s.onlyCore_set c _, ?_⟩
    simp only [Repairs]
    rw [State.core_setCore]
    exact ⟨hlining, hmd, hwaits, hends, hreturns, honly⟩

end Sys2Proof.Machine
end

section
/-! The fitting check of a sample (O28). -/

namespace Sys2Proof.Machine

variable {s : State} {c : CoreId} {slot : Fin 2} {x : FcSample} {d : List Int × Int}

@[simp] theorem Core.sideSlot_setSide_self (k : Core) (i : Nat) (x : Option FcSample) : (k.setSide i x).sideSlot i = x :=
  mapGet_set_self ..

theorem Core.sideSlot_setSide_ne (k : Core) {i j : Nat} (x : Option FcSample) (h : j ≠ i) :
    (k.setSide i x).sideSlot j = k.sideSlot j := mapGet_set_other _ _ x h

theorem Core.sideSlot_passStaging (k : Core) (stream : Nat) (img : List Byte) (j : Nat) :
    (k.passStaging stream img).sideSlot j = k.sideSlot j := by
  obtain ⟨p, m, h⟩ := k.passStaging_frame stream img
  rw [h]
  rfl

/-- The weights of a sample have come (R79). -/
theorem fcWeights_clause (hslot : (s.core c.val).sideSlot slot.val = some x) (hd : x.diff = some d) (host : List Byte) :
    let k := s.core c.val
    let td := (k.engOf x.engine).td x.tile
    let img := if tdGoldenHost td then host else s.goldenInHbm k td
    ∃ t, execFcWeightFetchDone c slot host s = .next t ∧ s.OnlyCore t c ∧
      (t.core c.val).sideSlot slot.val = some { x with
        ref := some ((List.range 64).map fun n => BitVec.ofNat 32 (roundTo f32 (fcRef td img x.rows n))) } ∧
      (∀ j, j ≠ slot.val → (t.core c.val).sideSlot j = k.sideSlot j) ∧
      t.core c.val = { k with side := (t.core c.val).side, staging := (t.core c.val).staging,
                              stagingMem := (t.core c.val).stagingMem } := by
  intro k td img
  obtain ⟨ref, href⟩ : ∃ ref, ref = (List.range 64).map fun n => BitVec.ofNat 32 (roundTo f32 (fcRef td img x.rows n)) := ⟨_, rfl⟩
  have hexec : execFcWeightFetchDone c slot host s =
      .next (s.setCore c.val ((k.setSide slot.val (some { x with ref := some ref })).passStaging (fcStream slot.val) img)) := by
    unfold execFcWeightFetchDone
    rw [State.modCore_eq, hslot, href]
    dsimp only
    rw [hd, if_neg (Option.some_ne_none d)]
  rw [← href]
  refine ⟨_, hexec, s.onlyCore_set c _, ?_⟩
  rw [State.core_setCore, Core.sideSlot_passStaging, Core.sideSlot_setSide_self]
  refine ⟨rfl, fun j hj => ?_, ?_⟩
  · rw [Core.sideSlot_passStaging, Core.sideSlot_setSide_ne _ _ hj]
  · obtain ⟨p, m, h⟩ := (k.setSide slot.val (some { x with ref := some ref })).passStaging_frame (fcStream slot.val) img
    rw [h]
    rfl

/-- A sample not recomputed yet, or of another tile: nothing. -/
theorem fcRecompute_nothing {tile : Fin 512} (hslot : (s.core c.val).sideSlot slot.val = some x)
    (h : x.ref = none ∨ x.tile ≠ tile.val) : execFcRecompute c slot tile s = .next s := by
  unfold execFcRecompute
  dsimp only
  rw [hslot]
  dsimp only
  split
  · rfl
  · next ht =>
    rw [h.resolve_right ht]
    cases x.diff <;> rfl

/-- A deadline drops a sample that is still open. -/
theorem fcDeadline_clause (hslot : (s.core c.val).sideSlot slot.val = some x) (hd : x.diff = some d) :
    let k := s.core c.val
    ∃ t, execFcDeadline c slot s = .next t ∧
      t = { s with cores := t.cores, dict := t.dict } ∧ (∀ d, d ≠ c.val → t.core d = s.core d) ∧
      (t.core c.val).sideSlot slot.val = none ∧ t.rd K.fcDropped = (s.rd K.fcDropped + 1) % 2 ^ 64 ∧
      (∀ key, key ≠ K.fcDropped → t.rd key = s.rd key) ∧
      t.core c.val = { k with side := (t.core c.val).side, staging := (t.core c.val).staging,
                              stagingMem := (t.core c.val).stagingMem } := by
  intro k
  obtain ⟨p, m, hdrop⟩ := (k.setSide slot.val none).dropStaging_frame (fcStream slot.val)
  have hexec : execFcDeadline c slot s =
      .next ((s.setCore c.val ((k.setSide slot.val none).dropStaging (fcStream slot.val))).bump K.fcDropped 64 1) := by
    unfold execFcDeadline
    dsimp only
    rw [hslot]
    dsimp only
    rw [hd, if_neg (Option.some_ne_none d)]
  rw [hdrop] at hexec
  refine ⟨_, hexec, rfl, fun e he => State.core_setCore_ne _ _ _ _ he, ?_, State.rd_wr .., fun key hkey => State.rd_wr_ne _ _ _ _ hkey, ?_⟩
  · exact (congrArg (Core.sideSlot · slot.val) (State.core_setCore ..)).trans (k.sideSlot_setSide_self slot.val none)
  · rw [show ∀ u : State, (u.bump K.fcDropped 64 1).core c.val = u.core c.val from fun _ => rfl, State.core_setCore]
    rfl

/-- A device record's entry carries its instance. -/
theorem State.logDev_head (s : State) (i r : Nat) : ∃ y, (s.logDev i r).log.head? = some y ∧ y.record = r ∧ y.inst = i := by
  refine ⟨⟨s.time, s.rd K.logHead + 1, 0, i, (devClass (r % 16)).1, if (devClass (r % 16)).1 = 2 then (devClass (r % 16)).2 else 0, r⟩,
    ?_, rfl, rfl⟩
  unfold State.logDev State.logEntry
  dsimp only
  split_ifs <;> simp

theorem precStatus_ne_fc (i : InstId) : K.precStatus i.val ≠ K.fcSamples ∧ K.precStatus i.val ≠ K.fcFlags := by
  revert i
  decide

/-- What a fitting check's record is, but for the fields above its kind. -/
theorem pack_mod_16 (v : Nat) (l : List (Nat × Nat)) (h : ∀ p ∈ l, 4 ≤ p.2) : pack ((v, 0) :: l) % 16 = v % 16 := by
  have hfold : ∀ (l : List (Nat × Nat)) (a : Nat), (∀ p ∈ l, 4 ≤ p.2) →
      l.foldl (fun a p => a + p.1 * 2 ^ p.2) a % 16 = a % 16 := by
    intro l
    induction l with
    | nil => exact fun _ _ => rfl
    | cons p l ih =>
      intro a hl
      obtain ⟨n, hn⟩ := Nat.exists_eq_add_of_le (hl p List.mem_cons_self)
      rw [List.foldl_cons, ih _ fun q hq => hl q (List.mem_cons_of_mem p hq), hn, pow_add, Nat.mul_left_comm]
      exact Nat.add_mul_mod_self_left ..
  unfold pack
  rw [List.foldl_cons, hfold _ _ h]
  simp

/-- An excess of a sample is counted and sets its instance's sticky bit. -/
def State.fcNote (s : State) (inst : Option InstId) : State :=
  match inst with
  | some i => (s.bump K.fcFlags 64 1).wr (K.precStatus i.val) ((s.bump K.fcFlags 64 1).rd (K.precStatus i.val) ||| 1)
  | none => s.bump K.fcFlags 64 1

theorem State.fcNote_frame (s : State) (inst : Option InstId) : s.fcNote inst = { s with dict := (s.fcNote inst).dict } := by
  unfold State.fcNote
  split <;> rfl

theorem State.fcNote_samples (s : State) (inst : Option InstId) : (s.fcNote inst).rd K.fcSamples = s.rd K.fcSamples := by
  unfold State.fcNote
  split
  · next i => exact (State.rd_wr_ne _ _ _ _ (precStatus_ne_fc i).1.symm).trans (State.rd_wr_ne _ _ _ _ (by decide))
  · exact State.rd_wr_ne _ _ _ _ (by decide)

theorem State.fcNote_flags (s : State) (inst : Option InstId) :
    (s.fcNote inst).rd K.fcFlags = (s.rd K.fcFlags + 1) % 2 ^ 64 := by
  unfold State.fcNote
  split
  · next i => exact (State.rd_wr_ne _ _ _ _ (precStatus_ne_fc i).2.symm).trans (State.rd_wr ..)
  · exact State.rd_wr ..

theorem State.fcNote_precStatus (s : State) (i : InstId) : ((s.fcNote (some i)).rd (K.precStatus i.val)).testBit 0 = true := by
  rw [State.fcNote, State.rd_wr, Nat.testBit_or]
  simp

/-- The recomputation of a sample's tile (R79, R80). -/
theorem fcRecompute_clause {tile : Fin 512} (hslot : (s.core c.val).sideSlot slot.val = some x) (hd : x.diff = some d)
    (ht : x.tile = tile.val) {ref : List (BitVec 32)} (href : x.ref = some ref) :
    let k := s.core c.val
    let err := fcError (d.1.map fun v => r32 (Fl.ofInt v d.2)) (ref.map fun v => Sys2Proof.Machine.decode f32 v.toNat)
    let high := (Sys2Proof.Machine.decode bf16 x.threshold).lt err
    ∃ t, execFcRecompute c slot tile s = .next t ∧ s.OnlyCoreAndLog t c ∧
      (t.core c.val).sideSlot slot.val = none ∧ t.core c.val = { k with side := (t.core c.val).side } ∧
      t.rd K.fcSamples = (s.rd K.fcSamples + 1) % 2 ^ 64 ∧
      t.rd K.fcFlags = (if high then (s.rd K.fcFlags + 1) % 2 ^ 64 else s.rd K.fcFlags) ∧
      (high = false → t.log = s.log ∧ ∀ key, key ≠ K.fcSamples → t.rd key = s.rd key) ∧
      (high = true → (∃ y, t.log.head? = some y ∧ y.record % 16 = 9 ∧ y.inst = k.logInst) ∧
        ∀ i, k.inst = some i → (t.rd (K.precStatus i.val)).testBit 0 = true) := by
  intro k err high
  obtain ⟨u, hu⟩ : ∃ u, u = s.setCore c.val (k.setSide slot.val none) := ⟨_, rfl⟩
  have hucore : u.core c.val = k.setSide slot.val none := hu ▸ State.core_setCore ..
  have hurd : ∀ key, u.rd key = s.rd key := fun key => hu ▸ rfl
  have huonly : s.OnlyCoreAndLog u c := hu ▸ (s.onlyCore_set c _).toLog
  have hexec : ∃ rec, rec % 16 = 9 ∧ execFcRecompute c slot tile s = (if high then
      .next (((u.bump K.fcSamples 64 1).fcNote k.inst).logDev k.logInst rec) else .next (u.bump K.fcSamples 64 1)) := by
    unfold execFcRecompute State.fcNote
    dsimp only
    rw [hslot]
    dsimp only
    rw [if_neg (not_not.mpr ht), hd, href, hu]
    refine ⟨_, ?_, rfl⟩
    exact pack_mod_16 9 _ (by simp)
  obtain ⟨rec, hrec, hexec⟩ := hexec
  obtain ⟨v, hv⟩ : ∃ v, v = u.bump K.fcSamples 64 1 := ⟨_, rfl⟩
  have hsamples : v.rd K.fcSamples = (s.rd K.fcSamples + 1) % 2 ^ 64 := by rw [hv, State.bump_eq, State.rd_wr, hurd]
  have hother : ∀ key, key ≠ K.fcSamples → v.rd key = s.rd key := fun key hkey => by
    rw [hv, State.bump_eq, State.rd_wr_ne _ _ _ _ hkey, hurd]
  have hvonly : s.OnlyCoreAndLog v c := by rw [hv, hu]; exact ⟨rfl, fun e he => State.core_setCore_ne _ _ _ _ he⟩
  have hvcore : v.core c.val = k.setSide slot.val none := by rw [hv]; exact hucore
  have hvlog : v.log = s.log := by rw [hv, hu]; rfl
  rw [← hv] at hexec
  cases hhigh : high with
  | false =>
    rw [hhigh, if_neg Bool.false_ne_true] at hexec
    refine ⟨_, hexec, hvonly, ?_⟩
    rw [hvcore]
    exact ⟨k.sideSlot_setSide_self .., rfl, hsamples, hother _ (by decide), fun _ => ⟨hvlog, hother⟩,
      fun h => absurd h Bool.noConfusion⟩
  | true =>
    rw [hhigh, if_pos rfl] at hexec
    obtain ⟨y, hy, hyrec, hyinst⟩ := (v.fcNote k.inst).logDev_head k.logInst rec
    have hnote : v.OnlyCoreAndLog ((v.fcNote k.inst).logDev k.logInst rec) c :=
      State.OnlyCoreAndLog.trans ⟨by rw [v.fcNote_frame], fun e _ => by rw [v.fcNote_frame]; rfl⟩
        ((State.logDev_only _ _ rec).toCoreAndLog c)
    have hcore : ((v.fcNote k.inst).logDev k.logInst rec).core c.val = k.setSide slot.val none := by
      rw [(State.logDev_only _ _ rec).core, v.fcNote_frame]
      exact hvcore
    refine ⟨_, hexec, hvonly.trans hnote, ?_⟩
    rw [hcore]
    refine ⟨k.sideSlot_setSide_self .., rfl, ?_, ?_, fun h => absurd h Bool.noConfusion,
      fun _ => ⟨⟨y, hy, hyrec ▸ hrec, hyinst⟩, fun i hi => ?_⟩⟩
    · rw [State.logDev_rd _ _ _ (by decide), State.fcNote_samples, hsamples]
    · rw [State.logDev_rd _ _ _ (by decide), State.fcNote_flags, hother _ (by decide), if_pos rfl]
    · rw [State.logDev_rd _ _ _ (precStatus_not_logKey i), hi]
      exact v.fcNote_precStatus i

end Sys2Proof.Machine
end

section
/-! The periodic re-check of a resident model (O28). -/

namespace Sys2Proof.Machine

/-! ## Faults of an instance (R346) -/

/-- Nothing but the instances, the entries and the log differs. -/
def State.FaultOnly (s t : State) : Prop :=
  t = { s with insts := t.insts, dict := t.dict, log := t.log, fns := t.fns, sent := t.sent, logMsgAt := t.logMsgAt,
               logMsgHeld := t.logMsgHeld }

theorem State.FaultOnly.eq {s t : State} (h : s.FaultOnly t) :
    t = { s with insts := t.insts, dict := t.dict, log := t.log, fns := t.fns, sent := t.sent, logMsgAt := t.logMsgAt,
                 logMsgHeld := t.logMsgHeld } := h

theorem State.FaultOnly.refl (s : State) : s.FaultOnly s := rfl

theorem State.FaultOnly.trans {s t u : State} (h : s.FaultOnly t) (h' : t.FaultOnly u) : s.FaultOnly u := by
  unfold State.FaultOnly at *
  rw [h', h]

theorem State.LogOnly.toFault {s t : State} (h : s.LogOnly t) : s.FaultOnly t := by
  unfold State.FaultOnly
  rw [h.eq]

theorem State.InstsOnly.toFault {s t : State} (h : s.InstsOnly t) : s.FaultOnly t := by
  unfold State.FaultOnly
  rw [h.eq]

theorem State.faultOnly_wr (s : State) (key v : Nat) : s.FaultOnly (s.wr key v) := rfl
theorem State.faultOnly_setInst (s : State) (i : Nat) (x : Inst) : s.FaultOnly (s.setInst i x) := rfl

theorem State.FaultOnly.cores {s t : State} (h : s.FaultOnly t) : t.cores = s.cores := by rw [h.eq]
theorem State.FaultOnly.core {s t : State} (h : s.FaultOnly t) (c : Nat) : t.core c = s.core c := by rw [h.eq]; rfl
theorem State.FaultOnly.routers {s t : State} (h : s.FaultOnly t) : t.routers = s.routers := by rw [h.eq]
theorem State.FaultOnly.hbm {s t : State} (h : s.FaultOnly t) : t.hbm = s.hbm := by rw [h.eq]
theorem State.FaultOnly.hostMem {s t : State} (h : s.FaultOnly t) : t.hostMem = s.hostMem := by rw [h.eq]

theorem faultCode_not_logKey (i : InstId) : K.faultCode i.val ∉ logKeys :=
  not_logKey (by have := i.isLt; unfold K.faultCode; omega)

/-- A ready instance that faults. -/
theorem State.instFault_eq {s : State} {i : Nat} (h : s.ready i = true) (code : Nat) :
    s.instFault i code = (((s.wr (K.instState i) instFaulted).wr (K.faultCode i) code).setInst i
      { s.inst i with halted := true, faultDue := true }).logMg i 0x0403 2 0 noSlot code 0 := if_pos h

theorem State.faultOnly_instFault (s : State) (i code : Nat) : s.FaultOnly (s.instFault i code) := by
  unfold State.instFault
  split
  · exact ((State.faultOnly_wr s _ _).trans ((State.faultOnly_wr _ _ _).trans (State.faultOnly_setInst _ i _))).trans
      (State.logMg_only ..).toFault
  · exact .refl s

theorem instState_ne_faultCode (i j : Nat) : K.instState i ≠ K.faultCode j := by unfold K.instState K.faultCode; omega

theorem State.instFault_state {s : State} {i : InstId} (h : s.ready i.val = true) (code : Nat) :
    (s.instFault i.val code).rd (K.instState i.val) = 5 := by
  rw [State.instFault_eq h, State.logMg_rd _ _ _ _ _ _ _ _ (instState_not_logKey i)]
  exact (State.rd_wr_ne _ _ _ _ (instState_ne_faultCode _ _)).trans (State.rd_wr ..)

theorem State.instFault_code {s : State} {i : InstId} (h : s.ready i.val = true) (code : Nat) :
    (s.instFault i.val code).rd (K.faultCode i.val) = code := by
  rw [State.instFault_eq h, State.logMg_rd _ _ _ _ _ _ _ _ (faultCode_not_logKey i)]
  exact State.rd_wr ..

/-- Every other entry stays. -/
theorem State.instFault_rd (s : State) (i code : Nat) {key : Nat} (hlog : key ∉ logKeys) (hstate : key ≠ K.instState i)
    (hcode : key ≠ K.faultCode i) : (s.instFault i code).rd key = s.rd key := by
  unfold State.instFault
  split
  · rw [State.logMg_rd _ _ _ _ _ _ _ _ hlog]
    exact (State.rd_wr_ne _ _ _ _ hcode).trans (State.rd_wr_ne _ _ _ _ hstate)
  · rfl

/-- An instance's fault stops it and no other. -/
theorem State.instFault_inst (s : State) (i code j : Nat) : (s.instFault i code).inst j =
    if j = i ∧ s.ready i = true then { s.inst i with halted := true, faultDue := true } else s.inst j := by
  by_cases h : s.ready i = true
  · rw [State.instFault_eq h, State.logMg_inst, State.inst_setInst_if]
    simp only [h, and_true]
    rfl
  · rw [show s.instFault i code = s from if_neg h, if_neg fun h' => h h'.2]

/-! ## What golden images depend on -/

/-- Two states in which instance i's golden images are the same. -/
structure State.SameGolden (s t : State) (i : Nat) : Prop where
  hbm : t.hbm = s.hbm
  hostMem : t.hostMem = s.hostMem
  winTab : t.winTab = s.winTab
  pattern : (t.inst i).pattern = (s.inst i).pattern
  panels : (t.inst i).panels = (s.inst i).panels
  place : t.rd (K.goldenPlace i) = s.rd (K.goldenPlace i)
  dst : t.rd (K.goldenDst i) = s.rd (K.goldenDst i)

theorem State.SameGolden.stacks {s t : State} {i : Nat} (h : s.SameGolden t i) : t.stacksOf i = s.stacksOf i := by
  unfold State.stacksOf
  rw [h.panels]

theorem State.SameGolden.plan {s t : State} {i : Nat} (h : s.SameGolden t i) : t.hbmPlanOf i = s.hbmPlanOf i := by
  unfold State.hbmPlanOf State.hbmPlan State.hbmSize State.listAreaBytes
  rw [h.pattern, h.place, h.stacks]

theorem State.SameGolden.hbmRead {s t : State} {i : Nat} (h : s.SameGolden t i) (a n : Nat) :
    t.hbmRead i a n = s.hbmRead i a n := by
  unfold State.hbmRead
  rw [h.stacks, h.hbm]

theorem State.SameGolden.devRef {s t : State} {i : Nat} (h : s.SameGolden t i) (a n : Nat) (ok : Window → Bool) :
    t.devRef a n ok = s.devRef a n ok := by
  have hwindow : t.window (winNo a) = s.window (winNo a) := by unfold State.window State.winWord; rw [h.winTab]
  unfold State.devRef
  rw [hwindow]

theorem State.SameGolden.goldenOf {s t : State} {i : Nat} (h : s.SameGolden t i) : t.goldenOf i = s.goldenOf i := by
  funext j
  unfold State.goldenOf State.getGolden
  rw [h.pattern, h.plan, h.place, h.dst]
  simp only [h.devRef, h.hbmRead, h.hostMem]

/-! ## Rounds (R338) -/

variable {s : State} {i : InstId} {n : Nat}

theorem recheckRound_first (hready : s.ready i.val = true) (hint : s.rd (K.recheckInterval i.val) ≠ 0)
    (hx : (s.inst i.val).recheck = none) :
    execRecheckRound i s = .next (s.setInst i.val
      { s.inst i.val with recheck := some { left := (s.inst i.val).recheckShards, start := s.time } }) := by
  unfold execRecheckRound
  dsimp only
  rw [if_neg (by simp [hready, hint]), hx]

theorem recheckRound_again {r : Recheck} (hready : s.ready i.val = true) (hint : s.rd (K.recheckInterval i.val) ≠ 0)
    (hx : (s.inst i.val).recheck = some r) :
    execRecheckRound i s = if r.late then .next s else
      .next ((s.setInst i.val { s.inst i.val with recheck := some { r with late := true } }).bump (K.recheckLate i.val) 32 1) := by
  unfold execRecheckRound
  dsimp only
  rw [if_neg (by simp [hready, hint]), hx]

/-! ## Shards read back (R338, R340) -/

/-- What is left of a round. -/
def Recheck.crossOff (r : Recheck) (n : Nat) : Option Recheck :=
  if (r.left.erase n).isEmpty then none else some { r with left := r.left.erase n }

/-- The state once a shard's tiles have been read back. -/
def State.shardRead (s : State) (i n : Nat) (r : Recheck) : State :=
  let u := s.setInst i { s.inst i with recheck := r.crossOff n }
  (if (r.left.erase n).isEmpty then u.wr (K.recheckLast i) u.time else u).each ((s.inst i).shardTiles n) fun s j => s.readBack i j

theorem recheckShard_next {r : Recheck} (hx : (s.inst i.val).recheck = some r) (refetched : Option (List Byte)) :
    execRecheckShardDone i n refetched s =
      if !r.left.contains n || (s.inst i.val).retention || !(s.inst i.val).replacing.isEmpty ||
        ((s.inst i.val).shardTiles n).any (s.tileBusy i.val) then .next s
      else .next (if s.shardHolds i.val n then s.shardRead i.val n r else (s.shardRead i.val n r).recheckFailed i.val n refetched) := by
  unfold execRecheckShardDone
  dsimp only
  rw [hx]
  rfl

theorem State.readBack_cores (s : State) (i j : Nat) : s.readBack i j = { s with cores := (s.readBack i j).cores } := by
  unfold State.readBack
  dsimp only
  split
  · rfl
  · split <;> rfl

/-- What the reading back of a shard leaves. -/
structure State.ShardRead (s t : State) (i : InstId) (n : Nat) (r : Recheck) : Prop where
  frame : t = { s with insts := t.insts, dict := t.dict, cores := t.cores }
  inst : t.inst i.val = { s.inst i.val with recheck := r.crossOff n }
  others : ∀ j, j ≠ i.val → t.inst j = s.inst j
  last : r.left.erase n = [] → t.rd (K.recheckLast i.val) = s.time
  rd : ∀ key, key ≠ K.recheckLast i.val ∨ r.left.erase n ≠ [] → t.rd key = s.rd key

theorem State.shardRead_spec (s : State) (i : InstId) (n : Nat) (r : Recheck) : s.ShardRead (s.shardRead i.val n r) i n r := by
  unfold State.shardRead
  dsimp only
  obtain ⟨u, hu⟩ : ∃ u, u = s.setInst i.val { s.inst i.val with recheck := r.crossOff n } := ⟨_, rfl⟩
  rw [← hu]
  obtain ⟨v, hv⟩ : ∃ v, v = if (r.left.erase n).isEmpty then u.wr (K.recheckLast i.val) u.time else u := ⟨_, rfl⟩
  rw [← hv]
  have hcores : v.each ((s.inst i.val).shardTiles n) (fun s j => s.readBack i.val j) =
      { v with cores := (v.each ((s.inst i.val).shardTiles n) fun s j => s.readBack i.val j).cores } :=
    State.each_rel (R := fun a b => b = { a with cores := b.cores }) (fun _ => rfl) (fun h h' => by rw [h', h])
      (fun t j => t.readBack_cores i.val j) _ v
  have hvu : v = { u with dict := v.dict } := by
    rw [hv]
    split <;> rfl
  generalize v.each ((s.inst i.val).shardTiles n) (fun s j => s.readBack i.val j) = t at hcores
  have hinst : ∀ j, t.inst j = u.inst j := fun j => by rw [hcores, hvu]; rfl
  have hrd : ∀ key, t.rd key = v.rd key := fun key => by rw [hcores]; rfl
  have hurd : ∀ key, u.rd key = s.rd key := fun key => by rw [hu]; rfl
  constructor
  case frame => rw [hcores, hvu, hu]; rfl
  case inst => rw [hinst, hu]; exact State.inst_setInst ..
  case others => exact fun j hj => by rw [hinst, hu]; exact State.inst_setInst_ne _ _ _ _ hj
  case last =>
    intro hleft
    rw [hrd, hv, if_pos (by rw [hleft]; rfl), State.rd_wr, hu]
    rfl
  case rd =>
    intro key hkey
    rw [hrd, hv]
    split
    · next hempty =>
      rw [State.rd_wr_ne _ _ _ _ (hkey.resolve_right (not_not.mpr (List.isEmpty_iff.mp hempty))), hurd]
    · rw [hurd]

end Sys2Proof.Machine
end

section
/-! A shard that does not hold, and the statement (O28). -/

namespace Sys2Proof.Machine

variable {s : State} {i : InstId} {n : Nat}

/-! ## Fetches of the model image -/

/-- What a fetch's outcome leaves of an entry that no host error counts. -/
structure State.Fetched (s t : State) : Prop where
  frame : t = { s with dict := t.dict, freeNext := t.freeNext }
  rd : ∀ key, key / 256 < 0xA060 → t.rd key = s.rd key

theorem State.Fetched.refl (s : State) : s.Fetched s := ⟨rfl, fun _ _ => rfl⟩

theorem State.fetched_hostError (s : State) (port : Nat) : s.Fetched (s.hostError port) :=
  ⟨rfl, fun key hkey => State.rd_wr_ne _ _ _ _ fun h => by unfold K.hostErrors at h; omega⟩

theorem State.fetched_freeStep (s : State) : s.Fetched s.freeStep := ⟨rfl, fun _ _ => rfl⟩

theorem State.Fetched.trans {s t u : State} (h : s.Fetched t) (h' : t.Fetched u) : s.Fetched u :=
  ⟨by rw [h'.frame, h.frame], fun key hkey => (h'.rd key hkey).trans (h.rd key hkey)⟩

theorem State.fetched_spec (s : State) (i a n : Nat) : s.Fetched (s.fetched i a n).1 := by
  unfold State.fetched
  split
  · exact .refl s
  · dsimp only
    split
    · exact .refl s
    · split
      · exact s.fetched_hostError _
      · split
        · exact s.fetched_freeStep.trans (State.fetched_hostError _ _)
        · exact s.fetched_freeStep

theorem State.fetchedModel_spec (s : State) (i off n : Nat) : s.Fetched (s.fetchedModel i off n).1 := by
  unfold State.fetchedModel
  split
  · exact .refl s
  · exact s.fetched_spec _ _ _

theorem State.Fetched.inst {s t : State} (h : s.Fetched t) (j : Nat) : t.inst j = s.inst j := by rw [h.frame]; rfl

/-! ## A shard that does not hold (R339) -/

theorem State.instFault_recheck (s : State) (i code j : Nat) :
    ((s.instFault i code).inst j).recheck = (s.inst j).recheck := by
  rw [State.instFault_inst]
  split
  · next h => rw [h.1]
  · rfl

theorem State.change_recheck (s : State) (i : Nat) (c : Change) (j : Nat) :
    ((s.change i c).inst j).recheck = (s.inst j).recheck := by
  unfold State.change
  rw [State.modInst_eq, State.inst_setInst_if]
  split
  · next h => rw [h]
  · rfl

/-- What follows from a shard that fails keeps the round, and moves no entry but the instance's state and fault code. -/
structure State.ShardFails (s t : State) (i : Nat) : Prop where
  recheck : (t.inst i).recheck = (s.inst i).recheck
  rd : ∀ key, key ∉ logKeys → key / 256 < 0xA060 → key ≠ K.instState i → key ≠ K.faultCode i → t.rd key = s.rd key

theorem State.shardFails_instFault {s u : State} (h : s.Fetched u) (i code : Nat) : s.ShardFails (u.instFault i code) i :=
  ⟨by rw [State.instFault_recheck, h.inst], fun key hlog hkey hstate hcode => by
    rw [State.instFault_rd _ _ _ hlog hstate hcode, h.rd key hkey]⟩

theorem State.shardFails_change {s u : State} (h : s.Fetched u) (i : Nat) (c : Change) : s.ShardFails (u.change i c) i :=
  ⟨by rw [State.change_recheck, h.inst], fun key _ hkey _ _ => h.rd key hkey⟩

/-- The mismatch counted and logged. -/
def State.mismatchNoted (s : State) (i n : Nat) : State := (s.bump (K.recheckMismatch i) 32 1).logMg i 0x0404 1 0 noSlot n 0

theorem State.recheckFailed_bad (s : State) (i n : Nat) (refetched : Option (List Byte))
    (hkind : (manShard (s.inst i).manifest n).kind = 1)
    (hbad : (((s.inst i).shardBytes n ((s.mismatchNoted i n).goldenOf i)).any
      fun b => Config.sha384 b != (manShard (s.inst i).manifest n).digest) = true) :
    s.recheckFailed i n refetched = (s.mismatchNoted i n).instFault i 5 := by
  unfold State.recheckFailed
  dsimp only
  rw [if_pos hkind, if_pos]
  · rfl
  · rw [← hbad, List.not_all_eq_any_not]
    rfl

theorem State.recheckFailed_gone (s : State) (i n : Nat) (hkind : (manShard (s.inst i).manifest n).kind ≠ 1) :
    s.recheckFailed i n none = (((s.mismatchNoted i n).fetchedModel i (shardAt (s.inst i).manifest n)
      (manShard (s.inst i).manifest n).length).1).instFault i 5 := by
  unfold State.recheckFailed
  dsimp only
  rw [if_neg hkind]
  rfl

theorem State.recheckFailed_spec (s : State) (i n : Nat) (refetched : Option (List Byte)) :
    (s.mismatchNoted i n).ShardFails (s.recheckFailed i n refetched) i := by
  unfold State.recheckFailed
  dsimp only
  split
  · split
    · exact State.shardFails_instFault (.refl _) i 5
    · refine State.each_rel (R := fun a b => a.ShardFails b i) (fun _ => ⟨rfl, fun _ _ _ _ _ => rfl⟩)
        (fun h h' => ⟨h'.recheck.trans h.recheck, fun key h1 h2 h3 h4 => (h'.rd key h1 h2 h3 h4).trans (h.rd key h1 h2 h3 h4)⟩)
        (fun t j => ?_) _ _
      split
      · exact ⟨rfl, fun _ _ _ _ _ => rfl⟩
      · exact ⟨rfl, fun _ _ _ _ _ => rfl⟩
  · have hfetch := (s.mismatchNoted i n).fetchedModel_spec i (shardAt (s.inst i).manifest n) (manShard (s.inst i).manifest n).length
    split
    · split
      · exact State.shardFails_instFault hfetch i 5
      · exact State.shardFails_change hfetch i _
    · exact State.shardFails_instFault hfetch i 5

theorem recheckMismatch_keys (i : InstId) : K.recheckMismatch i.val ∉ logKeys ∧ K.recheckMismatch i.val / 256 < 0xA060 ∧
    K.recheckMismatch i.val ≠ K.instState i.val ∧ K.recheckMismatch i.val ≠ K.faultCode i.val ∧
    K.recheckMismatch i.val ≠ K.recheckLast i.val := by
  have := i.isLt
  refine ⟨not_logKey ?_, ?_, ?_, ?_, ?_⟩ <;> simp only [K.recheckMismatch, K.instState, K.faultCode, K.recheckLast] <;> omega

/-- An entry that neither the shard's reading back nor the mismatch's count and record touches. -/
theorem State.ShardRead.rd_noted {v : State} {r : Recheck} (h : s.ShardRead v i n r) {key : Nat} (hlog : key ∉ logKeys)
    (hlast : key ≠ K.recheckLast i.val) (hmis : key ≠ K.recheckMismatch i.val) :
    (v.mismatchNoted i.val n).rd key = s.rd key := by
  rw [State.mismatchNoted, State.logMg_rd _ _ _ _ _ _ _ _ hlog, State.bump_eq, State.rd_wr_ne _ _ _ _ hmis,
    h.rd key (.inl hlast)]

theorem State.ShardRead.inst_noted {v : State} {r : Recheck} (h : s.ShardRead v i n r) :
    (v.mismatchNoted i.val n).inst i.val = { s.inst i.val with recheck := r.crossOff n } := by
  rw [State.mismatchNoted, State.logMg_inst]
  exact h.inst

theorem State.ShardRead.golden {v : State} {r : Recheck} (h : s.ShardRead v i n r) :
    s.SameGolden (v.mismatchNoted i.val n) i.val := by
  have := i.isLt
  constructor
  case hbm => rw [State.mismatchNoted, State.logMg_hbm, State.bump_eq, State.wr_hbm, h.frame]
  case hostMem => rw [State.mismatchNoted, State.logMg_hostMem, State.bump_eq, State.wr_hostMem, h.frame]
  case winTab => rw [State.mismatchNoted, State.logMg_winTab, State.bump_eq, State.wr_winTab, h.frame]
  case pattern => rw [h.inst_noted]
  case panels => rw [h.inst_noted]
  case place =>
    refine h.rd_noted (not_logKey ?_) ?_ ?_ <;> simp only [K.goldenPlace, K.recheckLast, K.recheckMismatch] <;> omega
  case dst =>
    refine h.rd_noted (not_logKey ?_) ?_ ?_ <;> simp only [K.goldenDst, K.recheckLast, K.recheckMismatch] <;> omega

theorem State.ShardRead.ready_noted {v : State} {r : Recheck} (h : s.ShardRead v i n r) :
    (v.mismatchNoted i.val n).ready i.val = s.ready i.val := by
  refine State.ready_congr (h.rd_noted (instState_not_logKey i) ?_ ?_) <;>
    simp only [K.instState, K.recheckLast, K.recheckMismatch] <;> omega

/-- A shard that does not hold. -/
theorem recheckFails_clause {v : State} {r : Recheck} (h : s.ShardRead v i n r) (hready : s.ready i.val = true)
    (refetched : Option (List Byte)) :
    let x := s.inst i.val
    let t := v.recheckFailed i.val n refetched
    t.rd (K.recheckMismatch i.val) = (s.rd (K.recheckMismatch i.val) + 1) % 2 ^ 32 ∧
      (t.inst i.val).recheck = r.crossOff n ∧
      ((manShard x.manifest n).kind = 1 →
        ((x.shardBytes n (s.goldenOf i.val)).any fun b => Config.sha384 b != (manShard x.manifest n).digest) = true →
        t.rd (K.instState i.val) = 5 ∧ t.rd (K.faultCode i.val) = 5) ∧
      ((manShard x.manifest n).kind ≠ 1 → refetched = none →
        t.rd (K.instState i.val) = 5 ∧ t.rd (K.faultCode i.val) = 5) := by
  intro x t
  obtain ⟨hlog, hlow, hstate, hcode, hlast⟩ := recheckMismatch_keys i
  have hfails := v.recheckFailed_spec i.val n refetched
  have hvinst : v.inst i.val = { x with recheck := r.crossOff n } := h.inst
  have hnready : (v.mismatchNoted i.val n).ready i.val = true := h.ready_noted.trans hready
  refine ⟨?_, ?_, fun hkind hbad => ?_, fun hkind hnone => ?_⟩
  · rw [hfails.rd _ hlog hlow hstate hcode, State.mismatchNoted, State.logMg_rd _ _ _ _ _ _ _ _ hlog, State.bump_eq, State.rd_wr,
      h.rd _ (.inl hlast)]
  · rw [hfails.recheck, h.inst_noted]
  · have hfault : t = (v.mismatchNoted i.val n).instFault i.val 5 := by
      refine v.recheckFailed_bad i.val n refetched ?_ ?_
      · rw [hvinst]; exact hkind
      · rw [hvinst, h.golden.goldenOf]; exact hbad
    rw [hfault]
    exact ⟨State.instFault_state hnready 5, State.instFault_code hnready 5⟩
  · have hfetch := (v.mismatchNoted i.val n).fetchedModel_spec i.val (shardAt (v.inst i.val).manifest n)
      (manShard (v.inst i.val).manifest n).length
    have hfready := (State.ready_congr (hfetch.rd (K.instState i.val) (by have := i.isLt; unfold K.instState; omega))).trans hnready
    have hfault := v.recheckFailed_gone i.val n (by rw [hvinst]; exact hkind)
    simp only [t, hnone]
    rw [hfault]
    exact ⟨State.instFault_state hfready 5, State.instFault_code hfready 5⟩

/-- Settles O28: the events of a sample, and those of a round, by their own clauses. -/
theorem fittingCheckAndRecheck : Obligations.FittingCheckAndRecheck := by
  unfold Obligations.FittingCheckAndRecheck
  simp -zeta only [exec_fcWeightFetchDone, exec_fcRecompute, exec_fcDeadline, exec_recheckRound, exec_recheckShardDone]
  refine ⟨fun s c slot tile x d => ?sample, fun s i n refetched => ?round⟩
  case sample =>
    intro k td hslot hd
    exact ⟨fcWeights_clause hslot hd, fun ht ref href => fcRecompute_clause hslot hd ht href, fcRecompute_nothing hslot,
      fcDeadline_clause hslot hd⟩
  case round =>
    intro x
    refine ⟨fun hready hint hx => ?_, fun r hready hint hx => ⟨fun hlate => ?_, fun hlate => ?_⟩,
      fun r hx hn hret hrep hbusy => ?_, fun r hx hskip => ?_⟩
    · exact ⟨_, recheckRound_first hready hint hx, rfl, State.inst_setInst .., fun j hj => State.inst_setInst_ne _ _ _ _ hj⟩
    · rw [recheckRound_again hready hint hx, if_pos hlate]
    · rw [recheckRound_again hready hint hx, if_neg (Bool.eq_false_iff.mp hlate)]
      exact ⟨_, rfl, rfl, State.inst_setInst .., fun j hj => State.inst_setInst_ne _ _ _ _ hj, State.rd_wr ..,
        fun key hkey => State.rd_wr_ne _ _ _ _ hkey⟩
    · intro left
      have hgo : (!r.left.contains n || x.retention || !x.replacing.isEmpty ||
          (x.shardTiles n).any (s.tileBusy i.val)) = false := by
        rw [hret, hrep, List.any_eq_false.mpr fun j hj => Bool.eq_false_iff.mp (hbusy j hj)]
        simp [hn]
      have hspec := s.shardRead_spec i n r
      rw [recheckShard_next hx, hgo, if_neg Bool.false_ne_true]
      refine ⟨fun hholds => ?_, fun hholds hready => ?_⟩
      · rw [if_pos hholds]
        exact ⟨_, rfl, hspec.frame, hspec.inst, hspec.others, hspec.last, hspec.rd⟩
      · rw [if_neg (Bool.eq_false_iff.mp hholds)]
        exact ⟨_, rfl, recheckFails_clause hspec hready refetched⟩
    · rw [recheckShard_next hx, if_pos]
      rcases hskip with h | h | h | ⟨j, hj, hb⟩
      · simp [h]
      · simp [h, x]
      · simp [h, x]
      · have : ((s.inst i.val).shardTiles n).any (s.tileBusy i.val) = true := List.any_eq_true.mpr ⟨j, hj, hb⟩
        rw [this, Bool.or_true]

end Sys2Proof.Machine
end

section
/-! The scratchpad's scrubber, the zeroing of a granule and the scrub of an idle engine (O29). -/

namespace Sys2Proof.Machine

/-- A key whose entries are kept or dropped together. -/
theorem mapGet_filterKey {α : Type} (d : Nat → α) (f : Nat → Bool) (m : Map α) (j : Nat) :
    mapGet d (m.filter fun p => f p.1) j = if f j then mapGet d m j else d j := by
  induction m with
  | nil => simp [mapGet]
  | cons p m ih =>
    obtain ⟨q, v⟩ := p
    by_cases hq : q = j
    · subst hq
      cases hf : f q with
      | true => simp [mapGet, hf]
      | false => simpa [hf] using ih
    · cases hf : f q with
      | true => simpa [mapGet, hf, hq] using ih
      | false => simpa [mapGet, hf, hq] using ih

/-! ## One word of the scratchpad -/

theorem wordsOf_word (w : Nat) : wordsOf (8 * w) 8 = [w] := by
  unfold wordsOf
  rw [if_neg (by decide), show (8 * w + 8 - 1) / 8 - 8 * w / 8 + 1 = 1 by omega]
  simp

theorem Core.flips_word (k : Core) (w : Nat) :
    k.flips (8 * w) 8 = if mapGet (fun _ => false) k.spFlip w then [w] else [] := by
  unfold Core.flips
  rw [wordsOf_word]
  cases h : mapGet (fun _ => false) k.spFlip w <;> simp [h]

theorem Core.poisoned_word (k : Core) (w : Nat) :
    k.poisoned (8 * w) 8 = if mapGet (fun _ => false) k.poison w then [w] else [] := by
  unfold Core.poisoned
  rw [wordsOf_word]
  cases h : mapGet (fun _ => false) k.poison w <;> simp [h]

/-- The read of a word corrects it and counts the error it had. -/
theorem Core.readFix_word (k : Core) (w : Nat) :
    (k.readFix (8 * w) 8).spCorrected =
      (if mapGet (fun _ => false) k.spFlip w then (k.spCorrected + 1) % 2 ^ 64 else k.spCorrected) ∧
    ∀ x, mapGet (fun _ => false) (k.readFix (8 * w) 8).spFlip x =
      if x = w then false else mapGet (fun _ => false) k.spFlip x := by
  unfold Core.readFix
  rw [Core.flips_word]
  cases h : mapGet (fun _ => false) k.spFlip w with
  | false =>
    rw [if_neg Bool.false_ne_true, if_pos rfl]
    refine ⟨rfl, fun x => ?_⟩
    by_cases hx : x = w
    · rw [if_pos hx, hx, h]
    · rw [if_neg hx]
  | true =>
    refine ⟨rfl, fun x => ?_⟩
    refine (mapGet_filterKey _ (fun p => !([w] : List Nat).contains p) k.spFlip x).trans ?_
    by_cases hx : x = w
    · simp [hx]
    · simp [hx]

/-! ## The scrubber (R110, R112) -/

variable {s : State} {c : CoreId}

theorem Core.upsetWord_frame (k : Core) (found : Ecc) :
    k.upsetWord found = { k with spFlip := (k.upsetWord found).spFlip, poison := (k.upsetWord found).poison } := by
  cases found <;> rfl

/-- The word at the scrubber's pointer, as found; every other word as before. -/
theorem Core.spFlip_upsetWord (k : Core) (found : Ecc) (x : Nat) :
    mapGet (fun _ => false) (k.upsetWord found).spFlip x =
      if x = k.scrubPtr then found == .single || mapGet (fun _ => false) k.spFlip k.scrubPtr
      else mapGet (fun _ => false) k.spFlip x := by
  cases found with
  | clean => by_cases h : x = k.scrubPtr <;> simp [Core.upsetWord, h]
  | single => exact mapGet_set (fun _ => false) k.spFlip k.scrubPtr x true
  | uncorrectable => by_cases h : x = k.scrubPtr <;> simp [Core.upsetWord, h]

theorem Core.poison_upsetWord (k : Core) (found : Ecc) (x : Nat) :
    mapGet (fun _ => false) (k.upsetWord found).poison x =
      if x = k.scrubPtr then found == .uncorrectable || mapGet (fun _ => false) k.poison k.scrubPtr
      else mapGet (fun _ => false) k.poison x := by
  cases found with
  | clean => by_cases h : x = k.scrubPtr <;> simp [Core.upsetWord, h]
  | single => by_cases h : x = k.scrubPtr <;> simp [Core.upsetWord, h]
  | uncorrectable => exact mapGet_set (fun _ => false) k.poison k.scrubPtr x true

/-- The scrubber's read of the word at its pointer. -/
def Core.scrubbed (k : Core) (found : Ecc) : Core := ((k.upsetWord found).readFix (8 * k.scrubPtr) 8).scrubNext

theorem Core.scrubbed_frame (k : Core) (found : Ecc) : k.scrubbed found = { k with
    spFlip := (k.scrubbed found).spFlip, spCorrected := (k.scrubbed found).spCorrected, poison := (k.scrubbed found).poison
    scrubPtr := (k.scrubPtr + 1) % 786432 } := by
  unfold Core.scrubbed Core.scrubNext
  rw [Core.readFix_frame, Core.upsetWord_frame]

theorem Core.poison_scrubbed (k : Core) (found : Ecc) : (k.scrubbed found).poison = (k.upsetWord found).poison := by
  unfold Core.scrubbed Core.scrubNext
  rw [Core.readFix_frame]

theorem scrub_nothing {word : Fin 786432} {found : Ecc} (h : s.scrubOn = false ∨ (s.core c.val).scrubPtr ≠ word.val) :
    execScratchpadScrub c word found s = .next s := by
  unfold execScratchpadScrub
  refine if_pos ?_
  rcases h with h | h <;> simp [h]

/-- The scrubber's read, the detector off. -/
theorem scrub_next {word : Fin 786432} {found : Ecc} (hz : s.rd K.hzMode = 0) (hon : s.scrubOn = true)
    (hw : (s.core c.val).scrubPtr = word.val) :
    ∃ port, execScratchpadScrub c word found s = .next ((s.setCore c.val ((s.core c.val).scrubbed found)).noteUncorr c.val port
      (((s.core c.val).upsetWord found).poisoned (8 * (s.core c.val).scrubPtr) 8)) := by
  have hptr : ((s.core c.val).upsetWord found).scrubPtr = (s.core c.val).scrubPtr := by rw [Core.upsetWord_frame]
  refine ⟨if (s.core c.val).scrubPtr < 524288 then 8 else 9, ?_⟩
  unfold execScratchpadScrub Core.scrubbed
  rw [if_neg (by simp [hon, hw])]
  dsimp only
  rw [hptr]
  refine congrArg _ (State.portUse_off _ _ _ _ _ ?_)
  rw [State.rd_noteUncorr _ _ hzMode_not_logKey]
  exact hz

/-- The record of a poisoned word that is read. -/
theorem State.noteUncorr_record (s : State) (c port w : Nat) : ∃ rec, rec % 16 = 0xC ∧
    s.noteUncorr c port [w] = (s.setCore c ((s.core c).noteBad w)).logDev (s.core c).logInst rec := by
  unfold State.noteUncorr State.each
  rw [List.foldl_cons, List.foldl_nil]
  refine ⟨_, ?_, rfl⟩
  exact pack_mod_16 0xC _ (by simp)

theorem State.noteUncorr_head (s : State) (c port w : Nat) :
    ∃ y, (s.noteUncorr c port [w]).log.head? = some y ∧ y.record % 16 = 0xC ∧ y.source = 0 := by
  obtain ⟨rec, hrec, heq⟩ := s.noteUncorr_record c port w
  obtain ⟨y, hsource, hrecord, hlog⟩ := (s.setCore c ((s.core c).noteBad w)).log_logDev (s.core c).logInst rec
  exact ⟨y, by rw [heq, hlog]; rfl, hrecord ▸ hrec, hsource⟩

theorem scrub_clause {word : Fin 786432} {found : Ecc} (hz : s.rd K.hzMode = 0) (hon : s.scrubOn = true)
    (hw : (s.core c.val).scrubPtr = word.val) :
    let k := s.core c.val
    let w := k.scrubPtr
    let single := found == .single || mapGet (fun _ => false) k.spFlip w
    let bad := found == .uncorrectable || mapGet (fun _ => false) k.poison w
    ∃ t, execScratchpadScrub c word found s = .next t ∧ s.OnlyCoreAndLog t c ∧
      (t.core c.val).spCorrected = (if single then (k.spCorrected + 1) % 2 ^ 64 else k.spCorrected) ∧
      (t.core c.val).scrubPtr = (w + 1) % 786432 ∧
      (∀ x, mapGet (fun _ => false) (t.core c.val).spFlip x = if x = w then false else mapGet (fun _ => false) k.spFlip x) ∧
      (∀ x, mapGet (fun _ => false) (t.core c.val).poison x = if x = w then bad else mapGet (fun _ => false) k.poison x) ∧
      (bad = false → s.OnlyCore t c ∧ (t.core c.val).spUncorr = k.spUncorr ∧ (t.core c.val).badWords = k.badWords) ∧
      (bad = true → (t.core c.val).spUncorr = (k.spUncorr + 1) % 2 ^ 64 ∧ w ∈ (t.core c.val).badWords ∧
        ∃ y, t.log.head? = some y ∧ y.record % 16 = 0xC ∧ y.source = 0) ∧
      t.core c.val = { k with
        spFlip := (t.core c.val).spFlip, spCorrected := (t.core c.val).spCorrected, poison := (t.core c.val).poison
        spUncorr := (t.core c.val).spUncorr, badWords := (t.core c.val).badWords, scrubPtr := (w + 1) % 786432 } := by
  intro k w single bad
  obtain ⟨port, hexec⟩ := scrub_next (found := found) hz hon hw
  have hpoison : mapGet (fun _ => false) (k.upsetWord found).poison w = bad :=
    (k.poison_upsetWord found w).trans (if_pos rfl)
  have hframe := k.scrubbed_frame found
  obtain ⟨hcount, hflip⟩ := (k.upsetWord found).readFix_word w
  have hcorrected : (k.scrubbed found).spCorrected = if single then (k.spCorrected + 1) % 2 ^ 64 else k.spCorrected := by
    have hsingle : mapGet (fun _ => false) (k.upsetWord found).spFlip w = single :=
      (k.spFlip_upsetWord found w).trans (if_pos rfl)
    refine hcount.trans ?_
    rw [hsingle, show (k.upsetWord found).spCorrected = k.spCorrected by rw [Core.upsetWord_frame]]
  have hspFlip : ∀ x, mapGet (fun _ => false) (k.scrubbed found).spFlip x =
      if x = w then false else mapGet (fun _ => false) k.spFlip x := fun x => by
    refine (hflip x).trans ?_
    split
    · rfl
    · next hx => exact (k.spFlip_upsetWord found x).trans (if_neg hx)
  have hspPoison : ∀ x, mapGet (fun _ => false) (k.scrubbed found).poison x =
      if x = w then bad else mapGet (fun _ => false) k.poison x := fun x => by
    rw [Core.poison_scrubbed]
    exact k.poison_upsetWord found x
  rw [Core.poisoned_word, hpoison] at hexec
  have honly := s.onlyCore_set c (k.scrubbed found)
  cases hbad : bad with
  | false =>
    rw [hbad, if_neg Bool.false_ne_true, State.noteUncorr_nil] at hexec
    rw [hbad] at hspPoison
    refine ⟨_, hexec, honly.toLog, ?_⟩
    rw [State.core_setCore]
    refine ⟨hcorrected, by rw [hframe], hspFlip, hspPoison, fun _ => ⟨honly, by rw [hframe], by rw [hframe]⟩,
      fun h => absurd h Bool.noConfusion, ?_⟩
    rw [hframe]
  | true =>
    rw [hbad, if_pos rfl] at hexec
    rw [hbad] at hspPoison
    refine ⟨_, hexec, honly.toLog.trans (State.noteUncorr_onlyCoreAndLog c port [w] _), ?_⟩
    rw [State.core_noteUncorr_one, State.core_setCore]
    refine ⟨hcorrected, (congrArg Core.scrubPtr hframe :), hspFlip, hspPoison, fun h => absurd h Bool.noConfusion,
      fun _ => ⟨?_, (Core.mem_badWords_noteBad _ w w).mpr (.inl rfl), State.noteUncorr_head ..⟩, ?_⟩
    · exact congrArg (fun n => (n + 1) % 2 ^ 64) (congrArg Core.spUncorr hframe :)
    · unfold Core.noteBad
      rw [hframe]

end Sys2Proof.Machine
end

section
/-! The zeroing of a granule, the scrub of an idle engine, and the statement (O29). -/

namespace Sys2Proof.Machine

variable {s : State} {c : CoreId}

/-! ## The zeroing of a granule (R125) -/

theorem granuleZero_absent {g : Fin 1536} (h : ∀ z ∈ (s.core c.val).zeroq, z.granule ≠ g.val) :
    execGranuleZero c g s = .next s := by
  have hnone : (s.core c.val).zeroq.find? (fun z => z.granule == g.val) = none :=
    List.find?_eq_none.mpr fun z hz => by simpa using h z hz
  unfold execGranuleZero
  dsimp only
  rw [hnone]

/-- The core with a granule zeroed for the owner that waited. -/
def Core.zeroFor (k : Core) (now g : Nat) (z : ZeroReq) : Core :=
  { k.zeroGranule g z.owner with zeroq := k.zeroq.erase z, zeroWait := (k.zeroWait + (now - z.since)) % 2 ^ 64 }

theorem granuleZero_found {g : Fin 1536} {z : ZeroReq} (hz : s.rd K.hzMode = 0)
    (h : (s.core c.val).zeroq.find? (fun y => y.granule == g.val) = some z) :
    execGranuleZero c g s = if (s.core c.val).passReads g.val || (s.core c.val).transferNames g.val then .next s
      else .next (s.setCore c.val ((s.core c.val).zeroFor (s.mclkAcc / 1000000) g.val z)) := by
  unfold execGranuleZero Core.zeroFor
  dsimp only
  rw [h]
  dsimp only
  split
  · rfl
  · exact congrArg _ (State.portUse_off _ _ _ _ _ hz)

/-- A granule's words are free of poison, or of errors, once it is zeroed. -/
theorem mapGet_granule (m : Map Bool) (g x : Nat) :
    mapGet (fun _ => false) (m.filter fun p => !(decide (512 * g ≤ p.1) && decide (p.1 < 512 * g + 512))) x =
      if 512 * g ≤ x ∧ x < 512 * g + 512 then false else mapGet (fun _ => false) m x := by
  rw [mapGet_filterKey _ fun q => !(decide (512 * g ≤ q) && decide (q < 512 * g + 512))]
  by_cases h : 512 * g ≤ x ∧ x < 512 * g + 512
  · simp [h]
  · rw [if_neg h, if_pos]
    simp only [Bool.not_eq_true', Bool.and_eq_false_iff, decide_eq_false_iff_not]
    exact not_and_or.mp h

theorem Core.zeroFor_frame (k : Core) (now g : Nat) (z : ZeroReq) : k.zeroFor now g z = { k with
    sp := (k.zeroFor now g z).sp, poison := (k.zeroFor now g z).poison, spFlip := (k.zeroFor now g z).spFlip
    owner := (k.zeroFor now g z).owner, zeroq := k.zeroq.erase z
    zeroWait := (k.zeroWait + (now - z.since)) % 2 ^ 64 } := by
  unfold Core.zeroFor Core.zeroGranule
  rfl

/-! ## The scrub of an idle engine (R59) -/

/-- The engine's rolling pointer and its deferred check reads stay. -/
structure EngState.SamePointers (x y : EngState) : Prop where
  due : y.due = x.due
  scrubTile : y.scrubTile = x.scrubTile

theorem EngState.SamePointers.trans {x y z : EngState} (h : x.SamePointers y) (h' : y.SamePointers z) : x.SamePointers z :=
  ⟨h'.due.trans h.due, h'.scrubTile.trans h.scrubTile⟩

theorem EngState.CountsOnly.pointers {x y : EngState} (h : x.CountsOnly y) : x.SamePointers y := by
  rw [h.eq]
  exact ⟨rfl, rfl⟩

theorem EngState.CopiesOnly.pointers {x y : EngState} (h : x.CopiesOnly y) : x.SamePointers y := by
  rw [h]
  exact ⟨rfl, rfl⟩

theorem EngState.samePointers_setRepair (x : EngState) (tile : Nat) (r : Option Repair) : x.SamePointers (x.setRepair tile r) :=
  ⟨rfl, rfl⟩

theorem EngState.samePointers_setTd (x : EngState) (tile v : Nat) : x.SamePointers (x.setTd tile v) := ⟨rfl, rfl⟩

theorem Core.samePointers_returnTile (k : Core) (e tile : Nat) :
    (k.engOf e).SamePointers ((k.returnTile e tile).engOf e) := by
  rw [Core.engOf_returnTile]
  exact ((k.copiesOnly_setCopy e tile none e).pointers.trans (EngState.samePointers_setTd ..)).trans
    (EngState.samePointers_setRepair ..)

theorem Core.samePointers_switchCopy (k : Core) (e tile : Nat) (img : List Byte) :
    (k.engOf e).SamePointers ((k.switchCopy e tile img).engOf e) := by
  unfold Core.switchCopy
  rw [Core.engOf_setEng_self]
  split
  · exact (k.copiesOnly_setCopy e tile _ e).pointers.trans (EngState.samePointers_setRepair ..)
  · exact EngState.samePointers_setRepair ..

theorem Core.samePointers_mismatch (k : Core) (now e tile : Nat) (b : Option Nat) :
    (k.engOf e).SamePointers ((k.mismatch now e tile b).engOf e) := by
  unfold Core.mismatch Core.hold
  dsimp only
  split
  · split_ifs
    · exact k.samePointers_returnTile e tile
    · exact k.samePointers_switchCopy e tile _
    · rw [Core.engOf_setEng_self, Core.engOf_setEng_self]
      exact ⟨rfl, rfl⟩
  · rw [Core.engOf_takeStaging, Core.engOf_setEng_self, Core.engOf_setEng_self]
    exact ⟨rfl, rfl⟩

theorem Core.samePointers_checkRead (k : Core) (now e tile : Nat) :
    (k.engOf e).SamePointers ((k.checkRead now e tile).1.engOf e) := by
  unfold Core.checkRead
  dsimp only
  split
  · rw [Core.engOf_setEng_self]
    exact ((EngState.countsOnly_flag _ _).trans (EngState.countsOnly_pushAll ..)).pointers
  · refine EngState.SamePointers.trans ?_ (Core.samePointers_mismatch ..)
    rw [Core.engOf_setEng_self]
    exact ((((EngState.countsOnly_flag _ _).trans (EngState.countsOnly_pushAll ..)).trans
      (EngState.countsOnly_count _ 6 _)).trans ((EngState.countsOnly_flag _ 4).trans (EngState.countsOnly_pushEv ..))).pointers

/-- An engine with its pointers moved serves the same images. -/
theorem Core.checkRead_moved (k : Core) (now e tile : Nat) (due : List Nat) (ptr : Nat) :
    ((k.setEng e { k.engOf e with due := due, scrubTile := ptr }).checkRead now e tile).2 =
      (failingRows ((k.engOf e).td tile) (k.servingImage e tile).2
        (mdBlocksOf (tdBlocks ((k.engOf e).td tile)) 2 (k.servingErr e tile))).length := by
  have hcopies : ((k.setEng e { k.engOf e with due := due, scrubTile := ptr }).engOf 8).copies = (k.engOf 8).copies :=
    k.copies_setEng fun h => by rw [h]
  have hcopy : (k.setEng e { k.engOf e with due := due, scrubTile := ptr }).copyOf e tile = k.copyOf e tile := by
    unfold Core.copyOf
    rw [hcopies]
  have himage : (k.setEng e { k.engOf e with due := due, scrubTile := ptr }).servingImage e tile = k.servingImage e tile := by
    unfold Core.servingImage
    rw [hcopy, Core.engOf_setEng_self]
    rfl
  rw [Core.checkRead_count]
  unfold Core.servingErr
  rw [himage, Core.engOf_setEng_self]
  rfl

/-- A scrub's check read of a tile, the engine's pointers moved first. -/
def Core.scrubRead (k : Core) (now e tile : Nat) (due : List Nat) (ptr : Nat) : Core :=
  ((k.setEng e { k.engOf e with due := due, scrubTile := ptr }).checkRead now e tile).1

theorem Core.scrubRead_spec (k : Core) (now e tile : Nat) (due : List Nat) (ptr : Nat) :
    ((k.scrubRead now e tile due ptr).engOf e).due = due ∧ ((k.scrubRead now e tile due ptr).engOf e).scrubTile = ptr ∧
      k.EnginesOnly (k.scrubRead now e tile due ptr) := by
  obtain ⟨hdue, hptr⟩ := (k.setEng e { k.engOf e with due := due, scrubTile := ptr }).samePointers_checkRead now e tile
  rw [Core.engOf_setEng_self] at hdue hptr
  exact ⟨hdue, hptr, (k.enginesOnly_setEng ..).trans (Core.enginesOnly_checkRead ..)⟩

theorem Core.scrubRead_held (k : Core) (now e tile : Nat) (due : List Nat) (ptr : Nat)
    (hrep : (k.engOf e).repairOf tile = none)
    (hbad : failingRows ((k.engOf e).td tile) (k.servingImage e tile).2
      (mdBlocksOf (tdBlocks ((k.engOf e).td tile)) 2 (k.servingErr e tile)) ≠ []) :
    ((k.scrubRead now e tile due ptr).engOf e).held = some ⟨tile, none, now⟩ := by
  refine Core.held_checkRead_bad _ _ _ _ ?_ ?_
  · rw [Core.checkRead_moved]
    exact List.length_pos_of_ne_nil hbad
  · rw [Core.engOf_setEng_self]
    exact hrep

theorem scrubCheck_next {e : EngId} (hheld : ((s.core c.val).engOf e.val).held = none)
    (hidle : ((s.core c.val).posOf ((s.core c.val).positionOf e.val)).cmdq = []) (hon : s.scrubOn = true)
    (hawake : s.liningAsleep (s.core c.val) = false) :
    (∀ tile rest, ((s.core c.val).engOf e.val).due = tile :: rest → execScrubCheckRead c e s = .next (s.setCore c.val
      ((s.core c.val).scrubRead s.uptime e.val tile rest ((s.core c.val).engOf e.val).scrubTile))) ∧
    ∀ tile, ((s.core c.val).engOf e.val).due = [] → ((s.core c.val).engOf e.val).nextTile = some tile →
      execScrubCheckRead c e s = .next (s.setCore c.val
        ((s.core c.val).scrubRead s.uptime e.val tile [] ((tile + 1) % 512))) := by
  have hgo : ¬ ((!s.scrubOn || s.liningAsleep (s.core c.val) || ((s.core c.val).engOf e.val).held.isSome ||
      !((s.core c.val).posOf ((s.core c.val).positionOf e.val)).cmdq.isEmpty) = true) := by
    simp [hon, hawake, hheld, hidle]
  refine ⟨fun tile rest hdue => ?_, fun tile hdue hnext => ?_⟩
  · unfold execScrubCheckRead Core.scrubRead
    rw [State.modCore_eq]
    dsimp only
    rw [if_neg hgo, hdue]
  · unfold execScrubCheckRead Core.scrubRead
    rw [State.modCore_eq]
    dsimp only
    rw [if_neg hgo, hdue, hnext]

/-- Settles O29: the scrubber's word, the granule at the zeroing unit, and the scrub of an idle engine. -/
theorem scrubsAndGranuleZero : Obligations.ScrubsAndGranuleZero := by
  unfold Obligations.ScrubsAndGranuleZero
  simp -zeta only [exec_scratchpadScrub, exec_granuleZero, exec_scrubCheckRead]
  refine ⟨fun s c word found g hz => ?pad, fun s c e => ?engine⟩
  case pad =>
    intro k w single bad
    refine ⟨scrub_nothing, fun hon hw => scrub_clause hz hon hw, granuleZero_absent, fun z hfind => ⟨fun hnamed => ?_, fun hpass hnames => ?_⟩⟩
    · rw [granuleZero_found hz hfind, if_pos]
      exact hnamed.elim (fun h => (Bool.or_eq_true ..).mpr (.inl h)) fun h => (Bool.or_eq_true ..).mpr (.inr h)
    · rw [granuleZero_found hz hfind, if_neg (by rw [hpass, hnames]; exact Bool.false_ne_true)]
      refine ⟨_, rfl, s.onlyCore_set c _, ?_⟩
      rw [State.core_setCore]
      exact ⟨fun h => mapGet_set (fun _ => 0x3FF) k.owner g.val h z.owner, fun a => memByte_zero k.sp (4096 * g.val) 4096 a,
        fun x => mapGet_granule k.poison g.val x, fun x => mapGet_granule k.spFlip g.val x, k.zeroFor_frame ..⟩
  case engine =>
    intro k x Reads hheld hidle hon hawake
    obtain ⟨hdue, hnext⟩ := scrubCheck_next hheld hidle hon hawake
    have hreads : ∀ (tile : Nat) (rest : List Nat) (ptr : Nat) (P : EngState → Prop),
        execScrubCheckRead c e s = .next (s.setCore c.val (k.scrubRead s.uptime e.val tile rest ptr)) →
        P ((k.scrubRead s.uptime e.val tile rest ptr).engOf e.val) → Reads P := fun tile rest ptr P hexec hP => by
      refine ⟨_, hexec, s.onlyCore_set c _, ?_⟩
      rw [State.core_setCore]
      exact ⟨hP, (k.scrubRead_spec ..).2.2⟩
    refine ⟨fun tile rest hd => ?_, fun tile hd hn => ⟨?_, ?_⟩, fun tile hwhich hrep hbad => ?_⟩
    · obtain ⟨h1, h2, _⟩ := k.scrubRead_spec s.uptime e.val tile rest x.scrubTile
      exact hreads _ _ _ (fun y => y.due = rest ∧ y.scrubTile = x.scrubTile) (hdue tile rest hd) ⟨h1, h2⟩
    · exact List.find?_some (p := fun t => tdValid (x.td t)) hn
    · obtain ⟨h1, h2, _⟩ := k.scrubRead_spec s.uptime e.val tile [] ((tile + 1) % 512)
      exact hreads _ _ _ (fun y => y.due = [] ∧ y.scrubTile = (tile + 1) % 512) (hnext tile hd hn) ⟨h1, h2⟩
    · rcases hwhich with hd | ⟨hd, hn⟩
      · obtain ⟨rest, hd⟩ := List.head?_eq_some_iff.mp hd
        exact hreads _ _ _ (fun y => y.held = some ⟨tile, none, s.uptime⟩) (hdue tile rest hd) (k.scrubRead_held _ _ _ _ _ hrep hbad)
      · exact hreads _ _ _ (fun y => y.held = some ⟨tile, none, s.uptime⟩) (hnext tile hd hn) (k.scrubRead_held _ _ _ _ _ hrep hbad)

end Sys2Proof.Machine
end

section
/-! Links that fail, and what a failed link or router leaves (R148, R151): the rules behind O30 and O31. -/

namespace Sys2Proof.Machine

/-! ## `link_map` (R157) -/

theorem length_slice (b : List Byte) (o n : Nat) : (slice b o n).length = n := by
  simp [slice]

/-- The bytes of a prefix, zeros beyond the end. -/
theorem getD_slice {b : List Byte} {n j : Nat} (h : j < n) : (slice b 0 n).getD j 0 = b.getD j 0 := by
  unfold slice
  simp only [List.drop_zero, List.getD_eq_getElem?_getD]
  rw [List.getElem?_append]
  by_cases hj : j < b.length
  · simp [h, hj]
  · simp [h, hj, List.getElem?_replicate]
    split <;> rfl

theorem getD_append_cons (b c : List Byte) (v : Byte) (j : Nat) : (b ++ [v] ++ c).getD j 0 =
    if j < b.length then b.getD j 0 else if j = b.length then v else c.getD (j - b.length - 1) 0 := by
  simp only [List.getD_eq_getElem?_getD, List.append_assoc, List.getElem?_append]
  split
  · rfl
  · split
    · next h1 h2 =>
      have : j = b.length := by simp at h2; omega
      simp [this]
    · next h1 h2 =>
      have : j ≠ b.length := by simp at h2; omega
      simp [this]

/-- One byte of `link_map` set. -/
theorem State.linkByte_setLinkByte (s : State) (l v j : Nat) :
    (s.setLinkByte l v).linkByte j = if j = l then v % 256 else s.linkByte j := by
  unfold State.linkByte State.linkByte.byteAt State.setLinkByte State.blobPut
  rw [State.blob_wrBlob, getD_append_cons, length_slice]
  by_cases h : j = l
  · rw [if_neg (by omega), if_pos h, if_pos h, BitVec.toNat_ofNat]
  · rw [if_neg h]
    split
    · next hlt => rw [getD_slice hlt]
    · next hge =>
      congr 1
      simp only [List.getD_eq_getElem?_getD, List.getElem?_drop, List.length_singleton]
      congr 2
      omega

theorem State.linkByte_congr {s t : State} (h : t.blob K.linkMap = s.blob K.linkMap) (j : Nat) : t.linkByte j = s.linkByte j := by
  unfold State.linkByte
  rw [h]

/-! ## What a failed link or router leaves -/

/-- What failed links, and the packets lost with them, leave alone. A link once failed stays so. -/
structure State.LinksFail (s t : State) : Prop where
  hbm : t.hbm = s.hbm
  hostMem : t.hostMem = s.hostMem
  router : ∀ r, t.router r = s.router r
  marks : t.marks = s.marks
  panels : ∀ i, (t.inst i).panels = (s.inst i).panels
  rd : ∀ key, key ∉ logKeys → key ≠ K.lateResponses → t.rd key = s.rd key
  failed : ∀ j, s.linkByte j = 1 → t.linkByte j = 1

theorem State.LinksFail.refl (s : State) : s.LinksFail s :=
  ⟨rfl, rfl, fun _ => rfl, rfl, fun _ => rfl, fun _ _ _ => rfl, fun _ => id⟩

theorem State.LinksFail.trans {s t u : State} (h : s.LinksFail t) (h' : t.LinksFail u) : s.LinksFail u :=
  ⟨h'.hbm.trans h.hbm, h'.hostMem.trans h.hostMem, fun r => (h'.router r).trans (h.router r), h'.marks.trans h.marks,
    fun i => (h'.panels i).trans (h.panels i), fun key h1 h2 => (h'.rd key h1 h2).trans (h.rd key h1 h2),
    fun j hj => h'.failed j (h.failed j hj)⟩

theorem State.LogOnly.linksFail {s t : State} (h : s.LogOnly t) (hrd : ∀ key, key ∉ logKeys → t.rd key = s.rd key) :
    s.LinksFail t :=
  ⟨h.hbm, h.hostMem, h.router, h.marks, fun i => congrArg Inst.panels (h.inst i), fun key hlog _ => hrd key hlog,
    fun j hj => (State.linkByte_congr (h.blob _) j).trans hj⟩

theorem State.linksFail_logDev (s : State) (i r : Nat) : s.LinksFail (s.logDev i r) :=
  (s.logDev_only i r).linksFail fun _ hlog => State.logDev_rd _ _ _ hlog

theorem State.panels_setInst (s : State) (i j : Nat) {x : Inst} (h : x.panels = (s.inst i).panels) :
    ((s.setInst i x).inst j).panels = (s.inst j).panels := by
  rw [State.inst_setInst_if]
  split
  · next hj => rw [h, hj]
  · rfl

theorem State.linksFail_setInst (s : State) (i : Nat) {x : Inst} (h : x.panels = (s.inst i).panels) :
    s.LinksFail (s.setInst i x) :=
  ⟨rfl, rfl, fun _ => rfl, rfl, fun j => s.panels_setInst i j h, fun _ _ _ => rfl, fun _ => id⟩

theorem State.linksFail_setCore (s : State) (c : Nat) (k : Core) : s.LinksFail (s.setCore c k) :=
  ⟨rfl, rfl, fun _ => rfl, rfl, fun _ => rfl, fun _ _ _ => rfl, fun _ => id⟩

theorem State.linksFail_setLinkByte (s : State) (l : Nat) : s.LinksFail (s.setLinkByte l 1) := by
  refine ⟨rfl, rfl, fun _ => rfl, rfl, fun _ => rfl, fun _ _ _ => rfl, fun j hj => ?_⟩
  rw [State.linkByte_setLinkByte]
  split
  · rfl
  · exact hj

theorem State.linksFail_abandon (s : State) (i : Nat) : s.LinksFail (s.abandon i) := s.linksFail_setInst i rfl

theorem State.linksFail_affects (s : State) (l : Nat) : s.LinksFail (s.linkAffects l) :=
  State.each_rel State.LinksFail.refl State.LinksFail.trans
    (fun t i => (t.linksFail_abandon i).trans (State.linksFail_setInst _ i (x := { (t.abandon i).inst i with waitDarn := true }) rfl)) _ s

theorem State.linksFail_failLink (s : State) (l : Nat) : s.LinksFail (s.failLink l) :=
  ((s.linksFail_setLinkByte l).trans (State.linksFail_affects _ l)).trans
    ⟨rfl, rfl, fun _ => rfl, rfl, fun _ => rfl, fun _ _ _ => rfl, fun _ => id⟩

theorem State.linkByte_failLink (s : State) (l : Nat) : (s.failLink l).linkByte l = 1 := by
  refine (State.linksFail_affects (s.setLinkByte l 1) l).failed l ?_
  rw [State.linkByte_setLinkByte, if_pos rfl]

theorem State.linksFail_endRequest (s : State) (c rid status bytes : Nat) : s.LinksFail (s.endRequest c rid status bytes) := by
  unfold State.endRequest
  dsimp only
  split
  · exact ⟨rfl, rfl, fun _ => rfl, rfl, fun _ => rfl, fun key _ hkey => State.rd_wr_ne _ _ _ _ hkey, fun _ => id⟩
  · exact s.linksFail_setCore c _

theorem State.linksFail_dropFailed (s : State) (p : Packet) : s.LinksFail (s.dropFailed p) := by
  unfold State.dropFailed
  dsimp only
  split_ifs
  · exact s.linksFail_endRequest ..
  · exact .refl s
  · exact s.linksFail_endRequest ..
  · exact .refl s
  · exact s.linksFail_abandon _
  · exact .refl s

theorem State.linksFail_failLinks (ls : List Nat) (s : State) : s.LinksFail (s.each ls State.failLink) :=
  State.each_rel State.LinksFail.refl State.LinksFail.trans (fun t j => t.linksFail_failLink j) ls s

/-- Every link of a list fails. -/
theorem State.linkByte_failLinks {l : Nat} {ls : List Nat} (s : State) (h : l ∈ ls) :
    (s.each ls State.failLink).linkByte l = 1 := by
  induction ls generalizing s with
  | nil => cases h
  | cons a ls ih =>
    rcases List.mem_cons.mp h with rfl | h
    · exact (State.linksFail_failLinks ls (s.failLink l)).failed l (s.linkByte_failLink l)
    · exact ih (s.failLink a) h

/-! ## A router that fails (R151) -/

/-- A failed router's state before its core fails. -/
def State.routerDown (s : State) (r : Nat) : State :=
  (((s.setRouter r { s.router r with failed := true, inq := [] }).each (linksOf r) State.failLink).each
    ((s.router r).inq.map (·.2)) State.dropFailed)

theorem State.linksFail_routerDown (s : State) (r : Nat) :
    (s.setRouter r { s.router r with failed := true, inq := [] }).LinksFail (s.routerDown r) :=
  (State.linksFail_failLinks ..).trans
    (State.each_rel State.LinksFail.refl State.LinksFail.trans (fun t p => t.linksFail_dropFailed p) _ _)

theorem State.linkByte_routerDown (s : State) (r l : Nat) (h : l ∈ linksOf r) : (s.routerDown r).linkByte l = 1 :=
  (State.each_rel State.LinksFail.refl State.LinksFail.trans (fun t p => t.linksFail_dropFailed p) _ _).failed l
    (State.linkByte_failLinks _ h)

/-- The instance that faults with a router: the one whose HBM stack's die sits on it. -/
def State.faultsWith (s : State) (r : Nat) : Option Nat :=
  if (List.range 16).any (fun n => hbmSite n == r) then s.instOfPanel (panelOf r) else none

theorem State.routerFails_eq (s : State) (r : Nat) (h : (s.router r).failed = false) : ∃ i rec, s.routerFails r =
    match (((s.routerDown r).logDev i rec).coreFails r 2).faultsWith r with
    | some i' => (((s.routerDown r).logDev i rec).coreFails r 2).instFault i' 3
    | none => ((s.routerDown r).logDev i rec).coreFails r 2 := by
  unfold State.routerFails State.faultsWith
  dsimp only
  rw [if_neg (by rw [h]; exact Bool.false_ne_true)]
  exact ⟨_, _, rfl⟩

end Sys2Proof.Machine
end

section
/-! What a link receives (O30). -/

namespace Sys2Proof.Machine

/-! ## A link that gives up, and its routers (R148, R151) -/

theorem State.linksFail_logMg (s : State) (a b c d e f g : Nat) : s.LinksFail (s.logMg a b c d e f g) :=
  (s.logMg_only a b c d e f g).linksFail fun _ hlog => State.logMg_rd _ _ _ _ _ _ _ _ hlog

theorem State.linksFail_spareFails (s : State) (c : Nat) : s.LinksFail (s.spareFails c) :=
  State.each_rel State.LinksFail.refl State.LinksFail.trans
    (fun t i => t.linksFail_setInst i (x := { t.inst i with
      sparesReady := false
      replacing := (t.inst i).replacing.map fun r => if r.spare = some c then { r with spare := none } else r }) rfl) _ s

/-- Past its mark, fence and entries, a core's failure leaves what a failed link leaves. -/
theorem State.linksFail_coreFails (s : State) (c cause : Nat) (h : mapGet (fun _ => false) s.marks c = false) :
    (s.fenceCore c cause).LinksFail (s.coreFails c cause) := by
  have hspare : (s.fenceCore c cause).LinksFail
      (((s.fenceCore c cause).logMg (s.core c).logInst 0x2006 1 0 noSlot c cause).spareFails c) :=
    (State.linksFail_logMg ..).trans (State.linksFail_spareFails ..)
  rw [s.coreFails_eq c cause h]
  split
  · exact hspare
  · dsimp only
    split
    · exact (hspare.trans (State.linksFail_abandon ..)).trans (State.linksFail_setInst _ _ rfl)
    · exact hspare

/-- A core's failure leaves failed links failed. -/
theorem State.linkByte_coreFails {s : State} {j : Nat} (h : s.linkByte j = 1) (c cause : Nat) :
    (s.coreFails c cause).linkByte j = 1 := by
  cases hmark : mapGet (fun _ => false) s.marks c with
  | true => rwa [s.coreFails_marked c cause hmark]
  | false => exact (s.linksFail_coreFails c cause hmark).failed j h

theorem State.FaultOnly.blobs {s t : State} (h : s.FaultOnly t) : t.blobs = s.blobs := by rw [h.eq]

theorem State.linkByte_of_blobs {s t : State} (h : t.blobs = s.blobs) (j : Nat) : t.linkByte j = s.linkByte j :=
  State.linkByte_congr (congrArg (fun b => mapGet blobDefault b K.linkMap) h) j

/-- A router that fails leaves no failed link whole. -/
theorem State.linkByte_routerFails {s : State} {j : Nat} (h : s.linkByte j = 1) (r : Nat) : (s.routerFails r).linkByte j = 1 := by
  cases hf : (s.router r).failed with
  | true => rwa [show s.routerFails r = s from if_pos hf]
  | false =>
    obtain ⟨i, rec, heq⟩ := s.routerFails_eq r hf
    have hdown : ((s.routerDown r).logDev i rec).linkByte j = 1 :=
      ((s.linksFail_routerDown r).trans (State.linksFail_logDev _ i rec)).failed j h
    have hcore := State.linkByte_coreFails hdown r 2
    rw [heq]
    split
    · exact (State.linkByte_of_blobs (State.faultOnly_instFault ..).blobs j).trans hcore
    · exact hcore

theorem State.linkByte_givesUp (s : State) (l : Nat) (reverse : Bool) (replays : Nat) (h : s.linkByte l = 0) :
    (s.linkGivesUp l reverse replays).linkByte l = 1 := by
  unfold State.linkGivesUp
  rw [if_neg (not_not.mpr h)]
  exact (State.linksFail_logDev _ _ _).failed l (State.linkByte_failLink _ l)

theorem State.linkByte_meshLinkDown (s : State) (l : Nat) (reverse : Bool) (replays : Nat) (h : s.linkByte l = 0) :
    (s.meshLinkDown l reverse replays).linkByte l = 1 := by
  refine State.each_rel (R := fun a b => a.linkByte l = 1 → b.linkByte l = 1) (fun _ => id) (fun h h' => h' ∘ h)
    (fun t r hl => ?_) _ _ (s.linkByte_givesUp l reverse replays h)
  split
  · exact State.linkByte_routerFails hl r
  · exact hl

/-! ## The judgement of a flit (R147) -/

/-- A receiver's state with what it discarded counted in its window. -/
def LinkDir.noteDiscards (x : LinkDir) (now n : Nat) : LinkDir :=
  { x with
    discards := (if decide (x.winStart + 1000000 ≤ now) then 0 else x.discards) + n
    winStart := if decide (x.winStart + 1000000 ≤ now) then now else x.winStart }

/-- What is discarded while another number is awaited. -/
def LinkDir.awaitsOther (x : LinkDir) (bursts : List Burst) : Bool := x.awaiting && bursts.all fun b => b.seq != x.expect

variable {x : LinkDir} {stitch ok : Bool} {now : Nat} {bursts : List Burst}

theorem LinkDir.receive_accept (h : hear stitch x.expect bursts ok = .accept) : x.receive stitch now bursts ok =
    ({ x with expect := x.expect + 1, next := x.expect + 1, replays := 0, awaiting := false }, none, false) := by
  unfold LinkDir.receive
  rw [h]

theorem LinkDir.receive_discard (h : hear stitch x.expect bursts ok ≠ .accept) : x.receive stitch now bursts ok =
    if x.awaitsOther bursts then (x.noteDiscards now bursts.length, none,
      decide (1024 < (x.noteDiscards now bursts.length).discards))
    else if 4 ≤ x.replays then (x.noteDiscards now bursts.length,
      some (if hear stitch x.expect bursts ok = .lone then K.loneBursts else K.replays), true)
    else ({ x.noteDiscards now bursts.length with awaiting := true, replays := x.replays + 1 },
      some (if hear stitch x.expect bursts ok = .lone then K.loneBursts else K.replays),
      decide (1024 < (x.noteDiscards now bursts.length).discards)) := by
  unfold LinkDir.receive
  split
  · next ha => exact absurd ha h
  · rfl

/-! ## FLIT_RECEIVE -/

variable {s : State} {l : LinkId} {rev nbr : Bool}

/-- The direction of a link that a flit comes over. -/
def wayOf (l : LinkId) (rev nbr : Bool) : Nat := (if nbr then 4660 else 0) + 2 * l.val + (if rev then 1 else 0)

/-- Nothing is heard on the link. -/
def State.deafLink (s : State) (l : LinkId) (rev nbr : Bool) : Bool :=
  if nbr then (s.link (wayOf l rev nbr)).dead else s.linkByte l.val != 0

theorem flitReceive_down (h : s.deafLink l rev nbr = true) : execFlitReceive l ⟨rev, nbr⟩ bursts ok s = .next s := if_pos h

/-- A counter of a link, bumped where something is counted. -/
def State.bumpIf (s : State) (key : Option Nat) : State :=
  match key with
  | some k => s.bump k 64 1
  | none => s

theorem flitReceive_up (h : s.deafLink l rev nbr = false) : execFlitReceive l ⟨rev, nbr⟩ bursts ok s =
    let r := (s.link (wayOf l rev nbr)).receive (isStitch l.val) s.time bursts ok
    let u := (s.setLink (wayOf l rev nbr) (if nbr then { r.1 with dead := r.2.2 } else r.1)).bumpIf r.2.1
    .next (if r.2.2 && !nbr then u.meshLinkDown l.val rev r.1.replays else u) := by
  unfold execFlitReceive
  exact if_neg (Bool.eq_false_iff.mp h)

/-- A link that goes on: its direction holds what the receiver decided. -/
theorem flitReceive_goesOn {y : LinkDir} {key : Option Nat} (h : s.deafLink l rev nbr = false)
    (hr : (s.link (wayOf l rev nbr)).receive (isStitch l.val) s.time bursts ok = (y, key, false))
    (hy : y.dead = (s.link (wayOf l rev nbr)).dead) :
    execFlitReceive l ⟨rev, nbr⟩ bursts ok s = .next ((s.setLink (wayOf l rev nbr) y).bumpIf key) := by
  rw [flitReceive_up h, hr]
  dsimp only
  rw [Bool.false_and, if_neg Bool.false_ne_true]
  cases nbr with
  | false => rw [if_neg Bool.false_ne_true]
  | true =>
    have hdead : y.dead = false := hy.trans h
    have : { y with dead := false } = y := by rw [← hdead]
    rw [if_pos rfl, this]

/-- A link that gives up. -/
theorem flitReceive_givesUp {y : LinkDir} {key : Option Nat} (h : s.deafLink l rev nbr = false)
    (hr : (s.link (wayOf l rev nbr)).receive (isStitch l.val) s.time bursts ok = (y, key, true)) :
    ∃ t, execFlitReceive l ⟨rev, nbr⟩ bursts ok s = .next t ∧
      (nbr = true → (t.link (wayOf l rev nbr)).dead = true ∧ t = { s with links := t.links, dict := t.dict }) ∧
      (nbr = false → t.linkByte l.val = 1) := by
  rw [flitReceive_up h, hr]
  dsimp only
  cases nbr with
  | false =>
    refine ⟨_, rfl, fun h => absurd h Bool.false_ne_true, fun _ => State.linkByte_meshLinkDown _ _ _ _ ?_⟩
    have hzero : s.linkByte l.val = 0 := by simpa [State.deafLink] using h
    unfold State.bumpIf
    split <;> exact hzero
  | true =>
    refine ⟨_, rfl, fun _ => ?_, fun h => absurd h.symm Bool.false_ne_true⟩
    rw [Bool.not_true, Bool.and_false, if_neg Bool.false_ne_true]
    have hlink : ∀ (u : State) (key : Option Nat) (d : Nat), (u.bumpIf key).link d = u.link d := fun u key d => by
      cases key <;> rfl
    refine ⟨?_, ?_⟩
    · rw [hlink, State.link_setLink]; rfl
    · cases key <;> rfl

/-- Settles O30: what the receiver decides of a flit, and what becomes of the link. -/
theorem linkReceiveAndReplay : Obligations.LinkReceiveAndReplay := by
  unfold Obligations.LinkReceiveAndReplay
  intro s l rev nbr ok bursts seq
  simp -zeta only [exec_flitReceive, exec_replayRequest]
  intro d x down h fresh disc y other
  have hother : x.awaitsOther bursts = other := rfl
  have hy : y = x.noteDiscards s.time bursts.length := rfl
  have hset : ∀ z : LinkDir, ((s.setLink d z) = { s with links := (s.setLink d z).links }) ∧ (s.setLink d z).link d = z ∧
      ∀ j, j ≠ d → (s.setLink d z).link j = s.link j :=
    fun z => ⟨rfl, State.link_setLink .., fun j hj => State.link_setLink_ne _ _ _ _ hj⟩
  refine ⟨fun hdown => ⟨flitReceive_down hdown, ?_⟩, fun hdown => ⟨?_, fun ha => ?_, fun ha ho hd => ?_, fun ha ho hr hd => ?_,
    fun ha hg => ?_⟩⟩
  · exact congrArg _ (if_pos hdown)
  · exact ⟨s.setLink d { x with next := seq }, congrArg Host.Outcome.next (if_neg (Bool.eq_false_iff.mp hdown)), hset _⟩
  · exact ⟨_, flitReceive_goesOn hdown (LinkDir.receive_accept ha) rfl, hset _⟩
  · refine ⟨_, flitReceive_goesOn (y := y) (key := none) hdown ((LinkDir.receive_discard ha).trans ?_) rfl, hset _⟩
    rw [hother, if_pos ho, ← hy, decide_eq_false (show ¬ 1024 < y.discards by simpa [y] using hd)]
  · intro counter
    refine ⟨_, flitReceive_goesOn (y := { y with replays := x.replays + 1, awaiting := true }) (key := some counter) hdown
      ((LinkDir.receive_discard ha).trans ?_) rfl, rfl, (hset _).2.1, (hset _).2.2, State.rd_wr ..,
      fun key hkey => State.rd_wr_ne _ _ _ _ hkey⟩
    rw [hother, if_neg (Bool.eq_false_iff.mp ho), if_neg (Nat.not_le.mpr hr), ← hy,
      decide_eq_false (show ¬ 1024 < y.discards by simpa [y] using hd)]
  · obtain ⟨z, key, hz⟩ : ∃ z key, x.receive (isStitch l.val) s.time bursts ok = (z, key, true) := by
      rw [LinkDir.receive_discard ha, hother, ← hy]
      by_cases ho : other = true
      · have hd : 1024 < y.discards := hg.resolve_left fun h => absurd (h.1.symm.trans ho) Bool.false_ne_true
        rw [if_pos ho, decide_eq_true hd]
        exact ⟨_, _, rfl⟩
      · rw [if_neg ho]
        by_cases hr : 4 ≤ x.replays
        · rw [if_pos hr]
          exact ⟨_, _, rfl⟩
        · have hd : 1024 < y.discards := hg.resolve_left fun h => hr h.2
          rw [if_neg hr, decide_eq_true hd]
          exact ⟨_, _, rfl⟩
    exact flitReceive_givesUp hdown hz

end Sys2Proof.Machine
end

section
/-! Failed routers and cores, darn sets and spares (O31). -/

namespace Sys2Proof.Machine

variable {s : State} {c : CoreId}

/-! ## A core reported failed or retired (R468, R474) -/

/-- What bringing an instance's lining into or out of Retention leaves. -/
structure State.LiningSet (s t : State) : Prop where
  only : s.FaultOnly t
  inst : ∀ j, ∃ r, t.inst j = { s.inst j with retention := r }
  rd : ∀ key, key % 256 ≠ 7 → t.rd key = s.rd key

theorem State.liningSet (s : State) (i : Nat) (retention : Bool) : s.LiningSet (s.setLining i retention) := by
  have hset : s.LiningSet (s.setInst i { s.inst i with retention := retention }) := by
    refine ⟨s.faultOnly_setInst i _, fun j => ?_, fun _ _ => rfl⟩
    rw [State.inst_setInst_if]
    split
    · next h => exact ⟨_, by rw [h]⟩
    · exact ⟨_, rfl⟩
  refine State.each_rel (R := fun a b => s.LiningSet a → s.LiningSet b) (fun _ => id) (fun h h' => h' ∘ h) (fun t r ht => ?_) _ _ hset
  dsimp only
  split
  · exact ⟨ht.only.trans (State.faultOnly_wr ..), ht.inst, fun key hkey =>
      (State.rd_wr_ne _ _ _ _ (by unfold K.regState; omega)).trans (ht.rd key hkey)⟩
  · exact ht

theorem State.LiningSet.refl (s : State) : s.LiningSet s := ⟨.refl s, fun _ => ⟨_, rfl⟩, fun _ _ => rfl⟩

theorem State.coreReported_lining (s : State) (c cause : Nat) : (s.coreFails c cause).LiningSet (s.coreReported c cause) := by
  unfold State.coreReported
  dsimp only
  split
  · split
    · exact State.liningSet _ _ false
    · exact .refl _
  · exact .refl _

theorem State.FaultOnly.marks {s t : State} (h : s.FaultOnly t) : t.marks = s.marks := by rw [h.eq]

/-- A core without a mark, reported with a cause. -/
theorem coreReported_clause (cause : Nat) (h : mapGet (fun _ => false) s.marks c.val = false) :
    let k := s.core c.val
    let t := s.coreReported c.val cause
    t.core c.val = { k with fenced := true } ∧
      mapGet (fun _ => false) t.marks c.val = true ∧ t.rd (K.failCause c.val) = cause ∧ t.rd (K.failTime c.val) = s.time ∧
      (∀ d, d ≠ c.val → t.core d = s.core d) ∧ t.hbm = s.hbm ∧ t.hostMem = s.hostMem ∧
      t.mayIssue c.val = false ∧
      ∀ i, k.inst = some i → k.addrValid = true → s.ready i.val = true →
        ⟨k.panel, k.logical, none⟩ ∈ (t.inst i.val).replacing ∧ (t.inst i.val).halted = true := by
  intro k t
  have hfail := s.coreFailed_coreFails c cause h
  obtain ⟨honly, hinst, hrd⟩ := s.coreReported_lining c.val cause
  have hcore : t.core c.val = { k with fenced := true } := (honly.core _).trans hfail.core
  refine ⟨hcore, (congrArg (fun m => mapGet (fun _ => false) m c.val) honly.marks).trans hfail.mark,
    (hrd _ ?_).trans hfail.failCause, (hrd _ ?_).trans hfail.failTime, fun d hd => (honly.core d).trans (hfail.others d hd),
    honly.hbm.trans hfail.hbm, honly.hostMem.trans hfail.hostMem, State.mayIssue_fenced (by rw [hcore]), fun i hi hv hr => ?_⟩
  · unfold K.failCause; omega
  · unfold K.failTime; omega
  · obtain ⟨r, heq⟩ := hinst i.val
    rw [heq]
    exact hfail.stops i hi hv hr

theorem coreReported_marked (cause : Nat) (h : mapGet (fun _ => false) s.marks c.val = true) (hi : (s.core c.val).inst = none) :
    s.coreReported c.val cause = s := by
  unfold State.coreReported
  rw [s.coreFails_marked c.val cause h]
  dsimp only
  rw [hi]

/-! ## A router that fails (R151) -/

/-- What a core's failure leaves, marked before or not. -/
structure State.CoreDown (s t : State) (c : CoreId) (cause : Nat) : Prop where
  hbm : t.hbm = s.hbm
  hostMem : t.hostMem = s.hostMem
  router : ∀ r, t.router r = s.router r
  panels : ∀ i, (t.inst i).panels = (s.inst i).panels
  mark : mapGet (fun _ => false) t.marks c.val = true
  failed : ∀ j, s.linkByte j = 1 → t.linkByte j = 1
  rd : ∀ key, key ∉ logKeys → key ≠ K.lateResponses → key ≠ K.failCause c.val → key ≠ K.failTime c.val → t.rd key = s.rd key
  fenced : mapGet (fun _ => false) s.marks c.val = false → (t.core c.val).fenced = true ∧ t.rd (K.failCause c.val) = cause

theorem State.coreDown_coreFails (s : State) (c : CoreId) (cause : Nat) : s.CoreDown (s.coreFails c.val cause) c cause := by
  obtain ⟨_, hmark, hfenced⟩ := s.coreFails_engines c cause 0
  cases h : mapGet (fun _ => false) s.marks c.val with
  | true =>
    rw [s.coreFails_marked c.val cause h] at *
    exact ⟨rfl, rfl, fun _ => rfl, fun _ => rfl, hmark, fun _ => id, fun _ _ _ _ _ => rfl, fun h' => absurd (h.symm.trans h') Bool.noConfusion⟩
  | false =>
    have hlinks := s.linksFail_coreFails c.val cause h
    exact ⟨hlinks.hbm, hlinks.hostMem, hlinks.router, hlinks.panels, hmark, hlinks.failed, fun key hlog hlate hcause htime =>
      (hlinks.rd key hlog hlate).trans ((State.rd_wr_ne _ _ _ _ htime).trans (State.rd_wr_ne _ _ _ _ hcause)), hfenced⟩

theorem State.instOfPanel_congr {s t : State} (p : Nat) (hstate : ∀ i : InstId, t.rd (K.instState i.val) = s.rd (K.instState i.val))
    (hpanels : ∀ i, (t.inst i).panels = (s.inst i).panels) : t.instOfPanel p = s.instOfPanel p := by
  unfold State.instOfPanel
  refine List.find?_congr fun i hi => ?_
  rw [hstate ⟨i, List.mem_range.mp hi⟩, hpanels]

theorem failCause_ne_inst (c : CoreId) (i : Nat) : K.failCause c.val ≠ K.instState i ∧ K.failCause c.val ≠ K.faultCode i := by
  unfold K.failCause K.instState K.faultCode
  omega

/-- A router that had not failed. -/
theorem routerFails_clause (h : (s.router c.val).failed = false) :
    let t := s.routerFails c.val
    (t.router c.val).failed = true ∧ (t.router c.val).inq = [] ∧
      mapGet (fun _ => false) t.marks c.val = true ∧ t.hbm = s.hbm ∧ t.hostMem = s.hostMem ∧
      (∀ p l, p < 4 → linkAt c.val p = some l → t.linkByte l = 1) ∧
      (mapGet (fun _ => false) s.marks c.val = false →
        (t.core c.val).fenced = true ∧ t.rd (K.failCause c.val) = 2 ∧ t.mayIssue c.val = false) ∧
      ∀ n i, n < 16 → hbmSite n = c.val → s.instOfPanel (panelOf c.val) = some i → i < 12 → s.ready i = true →
        t.rd (K.instState i) = 5 ∧ t.rd (K.faultCode i) = 3 := by
  intro t
  obtain ⟨j, rec, heq⟩ := s.routerFails_eq c.val h
  obtain ⟨u, hu⟩ : ∃ u, u = (s.routerDown c.val).logDev j rec := ⟨_, rfl⟩
  have hlinks : (s.setRouter c.val { s.router c.val with failed := true, inq := [] }).LinksFail u :=
    hu ▸ (s.linksFail_routerDown c.val).trans (State.linksFail_logDev _ j rec)
  have hdown := u.coreDown_coreFails c 2
  rw [← hu] at heq
  obtain ⟨v, hv⟩ : ∃ v, v = u.coreFails c.val 2 := ⟨_, rfl⟩
  rw [← hv] at heq hdown
  have honly : v.FaultOnly t := by
    simp only [t]
    rw [heq]
    split
    · exact State.faultOnly_instFault ..
    · exact .refl v
  have hrd : ∀ key, key ∉ logKeys → (∀ i, key ≠ K.instState i ∧ key ≠ K.faultCode i) → t.rd key = v.rd key := fun key hlog hkey => by
    simp only [t]
    rw [heq]
    split
    · next i _ => exact State.instFault_rd _ _ _ hlog (hkey i).1 (hkey i).2
    · rfl
  have hrouter : t.router c.val = { s.router c.val with failed := true, inq := [] } := by
    rw [show t.router c.val = v.router c.val from congrArg (fun m => mapGet (fun _ => ({} : Router)) m c.val) honly.routers, hdown.router,
      hlinks.router]
    exact State.router_setRouter ..
  have hinstState : ∀ i : InstId, v.rd (K.instState i.val) = s.rd (K.instState i.val) := fun i => by
    rw [hdown.rd _ (instState_not_logKey i) (by unfold K.instState K.lateResponses; omega) (instState_ne_failCause i c)
      (instState_ne_failTime i c), hlinks.rd _ (instState_not_logKey i) (by unfold K.instState K.lateResponses; omega)]
    rfl
  refine ⟨by rw [hrouter], by rw [hrouter], ?_, honly.hbm.trans (hdown.hbm.trans hlinks.hbm),
    honly.hostMem.trans (hdown.hostMem.trans hlinks.hostMem), fun p l hp hl => ?_, fun hmark => ?_, fun n i hn hsite hi hlt hready => ?_⟩
  · rw [honly.marks]; exact hdown.mark
  · have hmem : l ∈ linksOf c.val := List.mem_filterMap.mpr ⟨p, List.mem_range.mpr hp, hl⟩
    rw [State.linkByte_of_blobs honly.blobs]
    exact hdown.failed l (hu ▸ (State.linksFail_logDev _ j rec).failed l (s.linkByte_routerDown c.val l hmem))
  · have hmarks : mapGet (fun _ => false) u.marks c.val = false := by rw [hlinks.marks]; exact hmark
    obtain ⟨hfenced, hcause⟩ := hdown.fenced hmarks
    have hfenced' : (t.core c.val).fenced = true := by rw [honly.core]; exact hfenced
    exact ⟨hfenced', (hrd _ (failCause_not_logKey c) fun i => failCause_ne_inst c i).trans hcause, State.mayIssue_fenced hfenced'⟩
  · have hfaults : v.faultsWith c.val = some i := by
      unfold State.faultsWith
      rw [if_pos (List.any_eq_true.mpr ⟨n, List.mem_range.mpr hn, by simp [hsite]⟩)]
      refine (State.instOfPanel_congr (s := s) _ hinstState fun i => ?_).trans hi
      rw [hdown.panels, hlinks.panels]
      rfl
    have hvready : v.ready i = true := (State.ready_congr (hinstState ⟨i, hlt⟩)).trans hready
    simp only [t]
    rw [heq, hfaults]
    exact ⟨State.instFault_state (i := ⟨i, hlt⟩) hvready 3, State.instFault_code (i := ⟨i, hlt⟩) hvready 3⟩

end Sys2Proof.Machine
end

section
/-! Darn sets and spares (R152, R153, R253), and the statement (O31). -/

namespace Sys2Proof.Machine

variable {s : State} {c : CoreId}

/-! ## Darn sets -/

/-- Failed links are bypassed: `link_map` 1 becomes 2. -/
def State.bypass (s : State) (ls : List Nat) : State :=
  s.each ls fun s l => if s.linkByte l = 1 then s.setLinkByte l 2 else s

theorem State.bypass_blobs (s : State) (ls : List Nat) : s.bypass ls = { s with blobs := (s.bypass ls).blobs } :=
  State.each_rel (R := fun a b => b = { a with blobs := b.blobs }) (fun _ => rfl) (fun h h' => by rw [h', h])
    (fun t l => by split <;> rfl) ls s

theorem State.linkByte_bypass (ls : List Nat) (s : State) (j : Nat) :
    (s.bypass ls).linkByte j = if j ∈ ls ∧ s.linkByte j = 1 then 2 else s.linkByte j := by
  induction ls generalizing s with
  | nil => simp [State.bypass, State.each]
  | cons a ls ih =>
    have hone : (if s.linkByte a = 1 then s.setLinkByte a 2 else s).linkByte j =
        if j = a ∧ s.linkByte j = 1 then 2 else s.linkByte j := by
      by_cases ha : s.linkByte a = 1
      · rw [if_pos ha, State.linkByte_setLinkByte]
        by_cases hj : j = a
        · simp [hj, ha]
        · simp [hj]
      · rw [if_neg ha, if_neg fun h : j = a ∧ s.linkByte j = 1 => ha (h.1 ▸ h.2)]
    refine (ih _).trans ?_
    rw [hone]
    by_cases hj : j = a
    · by_cases h1 : s.linkByte j = 1
      · simp [hj, hj ▸ h1]
      · simp [h1]
    · simp [hj]

theorem State.withDarn_routers (s : State) (ws : List DarnWrite) : s.withDarn ws = { s with routers := (s.withDarn ws).routers } :=
  State.each_rel (R := fun a b => b = { a with routers := b.routers }) (fun _ => rfl) (fun h h' => by rw [h', h])
    (fun _ _ => rfl) ws s

/-- Fields above a bit leave what lies below it. -/
theorem pack_fold_mod (m : Nat) : ∀ (l : List (Nat × Nat)) (a : Nat), (∀ p ∈ l, m ≤ p.2) →
    l.foldl (fun a p => a + p.1 * 2 ^ p.2) a % 2 ^ m = a % 2 ^ m
  | [], _, _ => rfl
  | p :: l, a, h => by
    obtain ⟨n, hn⟩ := Nat.exists_eq_add_of_le (h p List.mem_cons_self)
    rw [List.foldl_cons, pack_fold_mod m l _ fun q hq => h q (List.mem_cons_of_mem p hq), hn, pow_add, Nat.mul_left_comm]
    exact Nat.add_mul_mod_self_left ..

/-- The kind and the kind's part of a fabric event's record. -/
theorem fabricRec_low (kind sub x y port group column n : Nat) :
    fabricRec kind sub x y port group column n % 2 ^ 8 = (kind + sub * 2 ^ 4) % 2 ^ 8 := by
  unfold fabricRec pack
  rw [List.foldl_cons, List.foldl_cons, pack_fold_mod 8 _ _ (by simp), Nat.zero_add, pow_zero, Nat.mul_one]

/-- The generation counted and logged, and the set no longer pending. -/
def State.darnDone (s : State) (rec : Nat) : State :=
  { (s.bump K.darnGeneration 32 1).logDev noInst rec with darnSet := none }

theorem State.each_nil {α : Type} (s : State) (f : State → α → State) : s.each [] f = s := rfl

theorem installDarn_idle (ws : List DarnWrite) (h : s.darnWaiters = []) : ∃ rec, rec % 2 ^ 8 = 0x2E ∧ s.installDarn ws =
    ((s.withDarn ws).bypass (List.range 2330)).darnDone rec := by
  unfold State.installDarn State.bypass State.darnDone
  dsimp only
  rw [h, State.each_nil]
  refine ⟨_, ?_, rfl⟩
  exact fabricRec_low 0xE 2 ..

theorem darnGeneration_not_logKey : K.darnGeneration ∉ logKeys := by decide

theorem State.darnDone_fields (s : State) (rec : Nat) : (s.darnDone rec).darnSet = none ∧ (s.darnDone rec).cores = s.cores ∧
    (s.darnDone rec).hbm = s.hbm ∧ (s.darnDone rec).insts = s.insts ∧ (s.darnDone rec).routers = s.routers := by
  have honly := (s.bump K.darnGeneration 32 1).logDev_only noInst rec
  exact ⟨rfl, honly.cores, honly.hbm, honly.insts, honly.routers⟩

theorem State.rd_darnDone (s : State) (rec : Nat) :
    (s.darnDone rec).rd K.darnGeneration = (s.rd K.darnGeneration + 1) % 2 ^ 32 :=
  (State.logDev_rd (s.bump K.darnGeneration 32 1) noInst rec darnGeneration_not_logKey).trans (State.rd_wr ..)

theorem State.linkByte_darnDone (s : State) (rec l : Nat) : (s.darnDone rec).linkByte l = s.linkByte l :=
  State.linkByte_congr (((s.bump K.darnGeneration 32 1).logDev_only noInst rec).blob K.linkMap) l

theorem State.log_darnDone (s : State) (rec : Nat) : ∃ y, (s.darnDone rec).log.head? = some y ∧ y.record = rec ∧ y.source = 0 := by
  obtain ⟨y, hsource, hrecord, hlog⟩ := (s.bump K.darnGeneration 32 1).log_logDev noInst rec
  exact ⟨y, (congrArg List.head? hlog :), hrecord, hsource⟩

theorem darnSet_installed {ws : List DarnWrite} (h : s.darnOk ws = true) (hidle : s.darnWaiters = []) :
    ∃ t, execDarnSetReady ws s = .next t ∧ t.darnSet = none ∧ t.cores = s.cores ∧ t.hbm = s.hbm ∧
      t.insts = s.insts ∧ t.routers = (s.withDarn ws).routers ∧
      t.rd K.darnGeneration = (s.rd K.darnGeneration + 1) % 2 ^ 32 ∧
      (∀ l, l < 2330 → t.linkByte l = if s.linkByte l = 1 then 2 else s.linkByte l) ∧
      ∃ y, t.log.head? = some y ∧ y.record % 2 ^ 8 = 0x2E ∧ y.source = 0 := by
  obtain ⟨rec, hrec, hinstall⟩ := installDarn_idle ws hidle
  have hexec : execDarnSetReady ws s = .next (((s.withDarn ws).bypass (List.range 2330)).darnDone rec) := by
    unfold execDarnSetReady
    rw [if_pos h, hidle, ← hinstall]
    rfl
  have hdarn := s.withDarn_routers ws
  have hbypass := (s.withDarn ws).bypass_blobs (List.range 2330)
  obtain ⟨u, hu⟩ : ∃ u, u = (s.withDarn ws).bypass (List.range 2330) := ⟨_, rfl⟩
  have hlink : ∀ l, l < 2330 → u.linkByte l = if s.linkByte l = 1 then 2 else s.linkByte l := fun l hl => by
    have hsame : (s.withDarn ws).linkByte l = s.linkByte l := by rw [hdarn]; rfl
    rw [hu, State.linkByte_bypass, hsame]
    simp only [List.mem_range, hl, true_and]
  rw [← hu] at hexec hbypass
  obtain ⟨hset, hcores, hhbm, hinsts, hrouters⟩ := u.darnDone_fields rec
  obtain ⟨y, hy, hyrec, hysource⟩ := u.log_darnDone rec
  refine ⟨_, hexec, hset, hcores.trans ?_, hhbm.trans ?_, hinsts.trans ?_, hrouters.trans ?_, (u.rd_darnDone rec).trans ?_,
    fun l hl => (u.linkByte_darnDone rec l).trans (hlink l hl), y, hy, hyrec ▸ hrec, hysource⟩
  · rw [hbypass, hdarn]
  · rw [hbypass, hdarn]
  · rw [hbypass, hdarn]
  · rw [hbypass]
  · rw [hbypass, hdarn]
    rfl

/-- The instances that wait for a refused set fault one after another. -/
theorem State.faultWaiters_rel (l : List Nat) (s : State) : s.FaultOnly (s.each l fun s i => s.instFault i 4) :=
  State.each_rel State.FaultOnly.refl State.FaultOnly.trans (fun t i => t.faultOnly_instFault i 4) l s

theorem instState_inj {i j : Nat} (h : K.instState i = K.instState j) : i = j := by unfold K.instState at h; omega
theorem faultCode_inj {i j : Nat} (h : K.faultCode i = K.faultCode j) : i = j := by unfold K.faultCode at h; omega

/-- An instance that is at fault with a code stays so while others fault. -/
theorem State.faulted_kept {i : InstId} {code : Nat} (l : List Nat) (s : State)
    (h : s.rd (K.instState i.val) = 5 ∧ s.rd (K.faultCode i.val) = code) :
    (s.each l fun s i => s.instFault i 4).rd (K.instState i.val) = 5 ∧
      (s.each l fun s i => s.instFault i 4).rd (K.faultCode i.val) = code := by
  refine State.each_rel (R := fun a b => (a.rd (K.instState i.val) = 5 ∧ a.rd (K.faultCode i.val) = code) →
    (b.rd (K.instState i.val) = 5 ∧ b.rd (K.faultCode i.val) = code)) (fun _ => id) (fun h h' => h' ∘ h) (fun t j ht => ?_) l s h
  by_cases hj : j = i.val
  · have hnot : t.ready j = false := by unfold State.ready; rw [hj, ht.1]; rfl
    rw [show t.instFault j 4 = t from if_neg (Bool.eq_false_iff.mp hnot)]
    exact ht
  · rwa [State.instFault_rd _ _ _ (instState_not_logKey i) (fun h => hj (instState_inj h).symm) (instState_ne_faultCode _ _),
      State.instFault_rd _ _ _ (faultCode_not_logKey i) (instState_ne_faultCode _ _).symm fun h => hj (faultCode_inj h).symm]

theorem State.faultWaiters_state {i : InstId} {l : List Nat} (s : State) (hi : i.val ∈ l) (hready : s.ready i.val = true) :
    (s.each l fun s i => s.instFault i 4).rd (K.instState i.val) = 5 ∧
      (s.each l fun s i => s.instFault i 4).rd (K.faultCode i.val) = 4 := by
  induction l generalizing s with
  | nil => cases hi
  | cons j l ih =>
    by_cases hj : j = i.val
    · subst hj
      exact State.faulted_kept l _ ⟨State.instFault_state hready 4, State.instFault_code hready 4⟩
    · refine ih (s.instFault j 4) ((List.mem_cons.mp hi).resolve_left (Ne.symm hj)) ?_
      exact (State.ready_congr (State.instFault_rd _ _ _ (instState_not_logKey i) (fun h => hj (instState_inj h).symm)
        (instState_ne_faultCode _ _))).trans hready

theorem darnSet_refused {ws : List DarnWrite} (i : InstId) (h : s.darnOk ws = false) :
    ∃ t, execDarnSetReady ws s = .next t ∧ t.cores = s.cores ∧ t.routers = s.routers ∧ t.hbm = s.hbm ∧
      ((s.inst i.val).waitDarn = true → s.ready i.val = true → t.rd (K.instState i.val) = 5 ∧ t.rd (K.faultCode i.val) = 4) := by
  obtain ⟨rec, hexec⟩ : ∃ rec, execDarnSetReady ws s =
      .next ((s.logDev noInst rec).each (s.logDev noInst rec).darnWaiters fun s i => s.instFault i 4) := by
    unfold execDarnSetReady
    rw [if_neg (Bool.eq_false_iff.mp h)]
    exact ⟨_, rfl⟩
  have honly := (s.logDev_only noInst rec).toFault.trans
    (State.faultWaiters_rel (s.logDev noInst rec).darnWaiters (s.logDev noInst rec))
  refine ⟨_, hexec, honly.cores, honly.routers, honly.hbm, fun hwait hready => State.faultWaiters_state _ ?_ ?_⟩
  · refine List.mem_filter.mpr ⟨List.mem_range.mpr i.isLt, ?_⟩
    rw [(s.logDev_only noInst rec).inst]
    exact hwait
  · exact (State.ready_congr (State.logDev_rd _ _ _ (instState_not_logKey i))).trans hready

/-! ## Spares (R253) -/

variable {i : InstId}

/-- The failed positions of an instance, in the order in which spares are chosen. -/
def Inst.failedPositions (x : Inst) : List Replace :=
  sortBy (fun (a b : Replace) => lexLt [a.panel, a.logical] [b.panel, b.logical]) x.replacing

theorem spare_cases (hready : s.ready i.val = true) (hrep : (s.inst i.val).replacing ≠ [])
    (hwait : (s.inst i.val).waitDarn = false) (hspares : (s.inst i.val).sparesReady = false) :
    (∀ found, s.chooseSpares i.val (s.inst i.val).pattern [] (s.inst i.val).failedPositions = some found →
      (s.treesAfter i.val found = true → ∃ u : State, execSpareProgrammed i s =
        .next (u.modInst i.val fun x => { x with replacing := found, sparesReady := true })) ∧
      (s.treesAfter i.val found = false → execSpareProgrammed i s =
        .next ((s.modInst i.val fun x => { x with replacing := [] }).instFault i.val 4))) ∧
    (s.chooseSpares i.val (s.inst i.val).pattern [] (s.inst i.val).failedPositions = none →
      execSpareProgrammed i s =
        .next ((s.modInst i.val fun x => { x with replacing := [], sparesReady := false }).instFault i.val 2)) := by
  have hgo : ¬ ((!s.ready i.val || (s.inst i.val).replacing.isEmpty || (s.inst i.val).waitDarn ||
      (s.inst i.val).sparesReady) = true) := by
    simp [hready, hrep, hwait, hspares]
  refine ⟨fun found hfound => ⟨fun htrees => ?_, fun htrees => ?_⟩, fun hfound => ?_⟩
  all_goals
    unfold execSpareProgrammed
    dsimp only
    rw [if_neg hgo]
    unfold Inst.failedPositions at hfound
    rw [hfound]
  · dsimp only
    rw [if_neg (by rw [htrees]; exact Bool.false_ne_true)]
    exact ⟨_, rfl⟩
  · dsimp only
    rw [if_pos (by rw [htrees]; rfl)]

/-- An instance that faults with its positions given up. -/
theorem faultNoSpare (hready : s.ready i.val = true) {x : Inst} (hx : x.replacing = []) (code : Nat) :
    let t := (s.setInst i.val x).instFault i.val code
    (t.inst i.val).replacing = [] ∧ t.rd (K.instState i.val) = 5 ∧ t.rd (K.faultCode i.val) = code ∧ t.cores = s.cores := by
  intro t
  have hready' : (s.setInst i.val x).ready i.val = true := hready
  refine ⟨?_, State.instFault_state hready' code, State.instFault_code hready' code, (State.faultOnly_instFault ..).cores⟩
  simp only [t]
  rw [State.instFault_inst, if_pos ⟨rfl, hready'⟩, State.inst_setInst]
  exact hx

/-- Settles O31: failures of cores and routers, darn sets, and spares. -/
theorem failedCoresDarnSetsAndSpares : Obligations.FailedCoresDarnSetsAndSpares := by
  unfold Obligations.FailedCoresDarnSetsAndSpares
  simp -zeta only [exec_coreFaultReport, exec_coreRetire, exec_coreUnretire, exec_routerFail, exec_darnSetReady,
    exec_spareProgrammed]
  refine ⟨fun s c => ?core, fun s ws i => ?darn⟩
  case core =>
    intro k Fails
    refine ⟨fun h => ⟨fun cause => ⟨_, rfl, coreReported_clause cause h⟩, ⟨_, rfl, coreReported_clause 6 h⟩⟩,
      fun h hi => ⟨fun cause => congrArg _ (coreReported_marked cause h hi), congrArg _ (coreReported_marked 6 h hi)⟩,
      fun h => congrArg _ (if_pos h), fun h => ⟨_, rfl, routerFails_clause h⟩, fun hv hu => congrArg _ (if_neg ?_),
      fun h => congrArg _ (if_pos ?_)⟩
    · rw [Bool.or_eq_true, not_or]
      exact ⟨Bool.eq_false_iff.mp hv, Bool.eq_false_iff.mp hu⟩
    · rw [Bool.or_eq_true]
      exact h
  case darn =>
    intro x rs
    refine ⟨fun hok hwait => ?_, darnSet_installed, darnSet_refused i, fun hready hrep hwait hspares => ?_⟩
    · unfold execDarnSetReady
      rw [if_pos hok, if_neg (by simpa using hwait)]
    · obtain ⟨hsome, hnone⟩ := spare_cases hready hrep hwait hspares
      refine ⟨fun found hfound => ⟨fun htrees => ?_, fun htrees => ?_⟩, fun hfound => ?_⟩
      · obtain ⟨u, hexec⟩ := (hsome found hfound).1 htrees
        refine ⟨_, hexec, ?_⟩
        rw [State.modInst_eq, State.inst_setInst]
        exact ⟨rfl, rfl⟩
      · exact ⟨_, (hsome found hfound).2 htrees, faultNoSpare hready rfl 4⟩
      · exact ⟨_, hnone hfound, faultNoSpare hready rfl 2⟩

end Sys2Proof.Machine
end

section
/-! The mesh and what a router's outputs do with a packet (R130, R136, R148): the rules behind O32. -/

namespace Sys2Proof.Machine

/-! ## The mesh (R12, R129) -/

theorem xOf_idxOf {x y : Nat} (hx : x < 40) : xOf (idxOf x y) = x := by unfold xOf idxOf; omega
theorem yOf_idxOf {x y : Nat} (hx : x < 40) : yOf (idxOf x y) = y := by unfold yOf idxOf; omega
theorem xOf_lt (c : Nat) : xOf c < 40 := by unfold xOf; omega

/-- Where a port leads, by coordinates. -/
theorem stepTo_coords {c port d : Nat} (h : stepTo c port = some d) :
    (port = 0 ∧ xOf d = xOf c ∧ yOf d = yOf c + 1) ∨ (port = 1 ∧ xOf d = xOf c + 1 ∧ yOf d = yOf c) ∨
      (port = 2 ∧ xOf d = xOf c ∧ yOf d + 1 = yOf c) ∨ (port = 3 ∧ xOf d + 1 = xOf c ∧ yOf d = yOf c) := by
  have hx := xOf_lt c
  unfold stepTo at h
  dsimp only at h
  split_ifs at h with h0 _ h1 hlt h2 _ h3 _
  · obtain rfl := Option.some.inj h
    exact .inl ⟨h0, xOf_idxOf hx, yOf_idxOf hx⟩
  · obtain rfl := Option.some.inj h
    exact .inr (.inl ⟨h1, xOf_idxOf (by omega), yOf_idxOf (by omega)⟩)
  · obtain rfl := Option.some.inj h
    refine .inr (.inr (.inl ⟨h2, xOf_idxOf hx, ?_⟩))
    rw [yOf_idxOf hx]
    omega
  · obtain rfl := Option.some.inj h
    refine .inr (.inr (.inr ⟨h3, ?_, yOf_idxOf (by omega)⟩))
    rw [xOf_idxOf (by omega)]
    omega

/-- No port leads back to its own router. -/
theorem stepTo_ne {c port d : Nat} (h : stepTo c port = some d) : d ≠ c := by
  rintro rfl
  have := stepTo_coords h
  omega

/-- Each port leads elsewhere. -/
theorem stepTo_inj {c port port' d : Nat} (h : stepTo c port = some d) (h' : stepTo c port' = some d) : port = port' := by
  have := stepTo_coords h
  have := stepTo_coords h'
  omega

/-! ## One output of a router -/

/-- A packet handed to a router. -/
theorem State.router_inject (s : State) (r port : Nat) (p : Packet) (j : Nat) : (s.inject r port p).router j =
    if j = r then { s.router r with inq := (s.router r).inq ++ [(port, p)] } else s.router j := by
  unfold State.inject
  rw [State.modRouter_eq, State.router_setRouter_if]

theorem State.inject_frame (s : State) (r port : Nat) (p : Packet) :
    s.inject r port p = { s with routers := (s.inject r port p).routers } := rfl

variable {s : State} {r port d l : Nat} {p : Packet}

theorem State.sendOut_good (hd : stepTo r port = some d) (hl : linkAt r port = some l) (h : s.linkByte l = 0) :
    s.sendOut r port p = s.inject d (oppPort port) (if p.vc = 0 then
      { p with replays := p.replays + (s.link (2 * l + b2n (decide (d < r)))).replays } else p) := by
  unfold State.sendOut
  rw [hd, hl]
  dsimp only
  rw [if_neg (not_not.mpr h)]
  split <;> rfl

theorem State.sendOut_bad (hd : stepTo r port = some d) (hl : linkAt r port = some l) (h : s.linkByte l ≠ 0) :
    s.sendOut r port p = s.dropFailed p := by
  unfold State.sendOut
  rw [hd, hl]
  exact if_pos h

/-- A VC1 packet lost over a failed link stops its instance for a restart. -/
theorem State.dropFailed_vc1 (hvc : p.vc = 1) (hi : p.inst < 12) (hready : s.ready p.inst = true) :
    s.dropFailed p = s.abandon p.inst := by
  unfold State.dropFailed
  rw [if_neg (by omega), if_pos ⟨hvc, hi, hready⟩]

/-! ## A tree's outputs (R142) -/

/-- The outputs of a multicast whose links are good, from some ports on. -/
theorem State.router_sendAll {ps : List Nat} (hnodup : ps.Nodup) (hvc : p.vc ≠ 0)
    (hgood : ∀ o ∈ ps, ∃ d l, stepTo r o = some d ∧ linkAt r o = some l ∧ s.linkByte l = 0) :
    let t := s.each ps fun s o => s.sendOut r o p
    t = { s with routers := t.routers } ∧
      (∀ o ∈ ps, ∀ d, stepTo r o = some d → t.router d = { s.router d with inq := (s.router d).inq ++ [(oppPort o, p)] }) ∧
      ∀ j, (∀ o ∈ ps, stepTo r o ≠ some j) → t.router j = s.router j := by
  induction ps generalizing s with
  | nil => exact ⟨rfl, fun o ho => absurd ho List.not_mem_nil, fun _ _ => rfl⟩
  | cons a ps ih =>
    obtain ⟨ha, hps⟩ := List.nodup_cons.mp hnodup
    obtain ⟨d, l, hd, hl, hbyte⟩ := hgood a List.mem_cons_self
    have hone : s.sendOut r a p = s.inject d (oppPort a) p := by rw [State.sendOut_good hd hl hbyte, if_neg hvc]
    obtain ⟨hframe, hsent, hothers⟩ := ih (s := s.sendOut r a p) hps fun o ho => by
      rw [hone]
      exact hgood o (List.mem_cons_of_mem a ho)
    intro t
    have ht : t = (s.sendOut r a p).each ps fun s o => s.sendOut r o p := rfl
    rw [← ht] at hframe hsent hothers
    have hrouter : ∀ j, (s.sendOut r a p).router j =
        if j = d then { s.router d with inq := (s.router d).inq ++ [(oppPort a, p)] } else s.router j := fun j => by
      rw [hone, State.router_inject]
    refine ⟨by rw [hframe, hone]; rfl, fun o ho d' hd' => ?_, fun j hj => ?_⟩
    · rcases List.mem_cons.mp ho with rfl | ho
      · obtain rfl : d = d' := Option.some.inj (hd.symm.trans hd')
        rw [hothers d fun o' ho' h => ha (stepTo_inj hd h ▸ ho'), hrouter, if_pos rfl]
      · have hne : d' ≠ d := fun h => ha (stepTo_inj hd (h ▸ hd') ▸ ho)
        rw [hsent o ho d' hd', hrouter, if_neg hne]
    · have hne : j ≠ d := fun h => hj a List.mem_cons_self (h ▸ hd)
      rw [hothers j fun o ho => hj o (List.mem_cons_of_mem a ho), hrouter, if_neg hne]

/-- What the outputs of a VC1 multicast leave: packets at routers, or its instance stopped for a restart. -/
structure State.TreeSent (s t : State) (i : Nat) : Prop where
  core : ∀ d, t.core d = s.core d
  others : ∀ j, j ≠ i → t.inst j = s.inst j
  blobs : t.blobs = s.blobs
  dict : t.dict = s.dict
  inst : t.inst i = s.inst i ∨ t.inst i =
    { s.inst i with halted := true, abandoned := (s.inst i).stepOn || (s.inst i).abandoned, restartDue := true }

theorem State.TreeSent.refl (s : State) (i : Nat) : s.TreeSent s i := ⟨fun _ => rfl, fun _ _ => rfl, rfl, rfl, .inl rfl⟩

theorem State.TreeSent.trans {s t u : State} {i : Nat} (h : s.TreeSent t i) (h' : t.TreeSent u i) : s.TreeSent u i := by
  refine ⟨fun d => (h'.core d).trans (h.core d), fun j hj => (h'.others j hj).trans (h.others j hj), h'.blobs.trans h.blobs,
    h'.dict.trans h.dict, ?_⟩
  rcases h'.inst with hu | hu
  · rw [hu]; exact h.inst
  · rcases h.inst with ht | ht
    · rw [hu, ht]; exact .inr rfl
    · rw [hu, ht]
      refine .inr ?_
      simp only [Bool.or_self_left]

theorem State.treeSent_abandon (s : State) (i : Nat) : s.TreeSent (s.abandon i) i :=
  ⟨fun _ => rfl, fun _ hj => State.inst_setInst_ne _ _ _ _ hj, rfl, rfl, .inr (State.inst_setInst ..)⟩

theorem State.treeSent_dropFailed (hvc : p.vc = 1) : s.TreeSent (s.dropFailed p) p.inst := by
  unfold State.dropFailed
  rw [if_neg (by omega)]
  split
  · exact s.treeSent_abandon _
  · exact .refl s _

theorem State.treeSent_sendOut (hvc : p.vc = 1) : s.TreeSent (s.sendOut r port p) p.inst := by
  unfold State.sendOut
  split
  · split_ifs
    · exact State.treeSent_dropFailed hvc
    · exact ⟨fun _ => rfl, fun _ _ => rfl, rfl, rfl, .inl rfl⟩
    · exact ⟨fun _ => rfl, fun _ _ => rfl, rfl, rfl, .inl rfl⟩
  · exact State.treeSent_dropFailed hvc

theorem State.treeSent_sendAll (hvc : p.vc = 1) (ps : List Nat) : s.TreeSent (s.each ps fun s o => s.sendOut r o p) p.inst :=
  State.each_rel (R := fun a b => a.TreeSent b p.inst) (fun s => .refl s _) State.TreeSent.trans
    (fun _ _ => State.treeSent_sendOut hvc) ps s

/-- One failed link among a VC1 multicast's outputs stops its instance. -/
theorem State.halted_sendAll {ps : List Nat} {o : Nat} (ho : o ∈ ps) (hvc : p.vc = 1) (hi : p.inst < 12)
    (hready : s.ready p.inst = true) (hd : stepTo r o = some d) (hl : linkAt r o = some l) (hbad : s.linkByte l ≠ 0) :
    ((s.each ps fun s o => s.sendOut r o p).inst p.inst) = { s.inst p.inst with
      halted := true, abandoned := (s.inst p.inst).stepOn || (s.inst p.inst).abandoned, restartDue := true } := by
  induction ps generalizing s with
  | nil => cases ho
  | cons a ps ih =>
    have hone := State.treeSent_sendOut (s := s) (r := r) (port := a) hvc
    have hall := State.treeSent_sendAll (s := s.sendOut r a p) (r := r) hvc ps
    by_cases ha : o = a
    · subst ha
      have hstop : (s.sendOut r o p).inst p.inst = { s.inst p.inst with
          halted := true, abandoned := (s.inst p.inst).stepOn || (s.inst p.inst).abandoned, restartDue := true } := by
        rw [State.sendOut_bad hd hl hbad, State.dropFailed_vc1 hvc hi hready]
        exact State.inst_setInst ..
      have hboth := hall.inst
      rw [hstop] at hboth
      refine hboth.elim id fun h => h.trans ?_
      simp only [Bool.or_self_left]
    · have hrest := ih (s := s.sendOut r a p) ((List.mem_cons.mp ho).resolve_left ha)
        ((State.ready_congr (congrArg (fun m => mapGet dictDefault m (K.instState p.inst)) hone.dict)).trans hready)
        (by rw [State.linkByte_of_blobs hone.blobs]; exact hbad)
      refine Eq.trans (b := _) hrest ?_
      rcases hone.inst with h | h
      · rw [h]
      · rw [h]
        simp only [Bool.or_self_left]

end Sys2Proof.Machine
end

section
/-! One packet forwarded, handed over or discarded (R130-R132, R142-R150): O32. -/

namespace Sys2Proof.Machine

/-- The state once router r has taken a packet out of its input queue. -/
def State.took (s : State) (r port : Nat) (p : Packet) : State :=
  s.setRouter r { s.router r with inq := (s.router r).inq.erase (port, p) }

/-- A packet that a tree's entry takes at this router: a multicast, a contribution, or a tack arrival at its first router
and at its destination. -/
def Packet.atTree (p : Packet) (r port : Nat) : Prop :=
  p.kind = 3 ∨ p.kind = 4 ∨ (p.kind = 7 ∧ (port = portL ∨ idxOf p.dstX p.dstY = r))

variable {s : State} {r : CoreId} {port : Nat} {p : Packet}

theorem exec_packetRoute_idle (h : (s.router r.val).failed = true ∨ nextPacket (s.router r.val).inq = none) :
    exec (.packetRoute r) s = .next s := by
  have hnone : (if (s.router r.val).failed then none else nextPacket (s.router r.val).inq) = none := by
    split
    · rfl
    · next hf => exact h.resolve_left hf
  rw [exec_packetRoute]
  unfold execPacketRoute
  dsimp only
  rw [hnone]

section
variable (hf : (s.router r.val).failed = false) (hn : nextPacket (s.router r.val).inq = some (port, p))
include hf hn

theorem exec_packetRoute_tree (h : p.atTree r.val port) :
    exec (.packetRoute r) s = .next ((s.took r.val port p).treePacket r.val port p) := by
  rw [exec_packetRoute]
  unfold execPacketRoute
  dsimp only
  rw [if_neg (by simp [hf]), hn]
  exact congrArg Host.Outcome.next (if_pos h)

theorem exec_packetRoute_forward (h : ¬p.atTree r.val port) :
    exec (.packetRoute r) s = .next ((s.took r.val port p).forward r.val p) := by
  rw [exec_packetRoute]
  unfold execPacketRoute
  dsimp only
  rw [if_neg (by simp [hf]), hn]
  exact congrArg Host.Outcome.next (if_neg h)

end

/-! ## What the taking leaves -/

theorem State.router_took_self (s : State) (r port : Nat) (p : Packet) :
    (s.took r port p).router r = { s.router r with inq := (s.router r).inq.erase (port, p) } := State.router_setRouter ..

theorem State.router_took_ne (s : State) (r port : Nat) (p : Packet) {j : Nat} (hj : j ≠ r) :
    (s.took r port p).router j = s.router j := State.router_setRouter_ne _ _ _ _ hj

theorem State.treeFor_took (s : State) (r port : Nat) (p : Packet) (mode : Nat) :
    (s.took r port p).treeFor r p mode = s.treeFor r p mode := by
  unfold State.treeFor
  rw [State.router_took_self]

theorem State.hop_took (s : State) (r port : Nat) (p : Packet) (dx dy vc : Nat) (detour : Bool) :
    (s.took r port p).hop r dx dy vc detour = s.hop r dx dy vc detour := by
  unfold State.hop
  rw [State.router_took_self]
  rfl

/-! ## A tree's packets (R142-R144, R243) -/

/-- The mode of the tree entry that a packet's kind asks for. -/
def Packet.treeMode (p : Packet) : Nat := if p.kind = 3 then 0 else if p.kind = 4 then 1 else 2

theorem State.treePacket_none {t : State} {r : Nat} (h : t.treeFor r p p.treeMode = none) :
    t.treePacket r port p = t.bump K.staleDrops 64 1 := by
  unfold State.treePacket
  unfold Packet.treeMode at h
  rw [h]

theorem State.treePacket_multicast {t : State} {r e : Nat} (hk : p.kind = 3) (h : t.treeFor r p p.treeMode = some e) :
    t.treePacket r port p =
      if bit e 4 then (t.each ((List.range 4).filter fun o => bit e o) fun s o => s.sendOut r o p).deliverTree r p
      else t.each ((List.range 4).filter fun o => bit e o) fun s o => s.sendOut r o p := by
  unfold State.treePacket
  unfold Packet.treeMode at h
  rw [h]
  exact if_pos hk

theorem State.treePacket_contribution {t : State} {r e : Nat} (hk : p.kind = 4) (h : t.treeFor r p p.treeMode = some e) :
    t.treePacket r port p =
      t.setRouter r { t.router r with red := mapMod (fun _ => []) (t.router r).red p.group fun l => l ++ [(port, p)] } := by
  unfold State.treePacket
  unfold Packet.treeMode at h
  rw [h]
  exact (if_neg (by omega)).trans (if_pos hk)

theorem State.treePacket_tack {t : State} {r e : Nat} (hk : p.kind = 7) (h : t.treeFor r p p.treeMode = some e) :
    t.treePacket r port p = (t.noteLate p).setRouter r { t.router r with
      tackIn := (t.router r).tackIn ++ [(portToward r (idxOf p.srcX p.srcY)).getD port] } := by
  have hrouter : (t.noteLate p).router r = t.router r := by
    unfold State.noteLate
    split <;> rfl
  unfold State.treePacket
  unfold Packet.treeMode at h
  rw [h, ← hrouter]
  exact (if_neg (by omega)).trans (if_neg (by omega))

/-- A packet handed to a multicast's core touches that core and the drop counters alone. -/
structure State.Delivered (s t : State) (r e : Nat) (p : Packet) : Prop where
  frame : t = { s with cores := t.cores, dict := t.dict }
  others : ∀ d, d ≠ r → t.core d = s.core d
  core : t.core r = if bit e 4 = true ∧ (s.core r).fenced = false ∧ (s.core r).logInst = p.inst then
    (if bits p.addr 23 22 = 3 then { s.core r with candIn := (s.core r).candIn ++ [p] }
      else { s.core r with mcIn := (s.core r).mcIn ++ [p] }) else s.core r
  fencedDrops : t.rd K.fencedDrops = if bit e 4 = true ∧ (s.core r).fenced = true then (s.rd K.fencedDrops + 1) % 2 ^ 64
    else s.rd K.fencedDrops
  staleDrops : t.rd K.staleDrops = if bit e 4 = true ∧ (s.core r).fenced = false ∧ (s.core r).logInst ≠ p.inst then
    (s.rd K.staleDrops + 1) % 2 ^ 64 else s.rd K.staleDrops
  rd : ∀ y, y ≠ K.fencedDrops → y ≠ K.staleDrops → t.rd y = s.rd y

theorem State.delivered_deliverTree (s : State) (r e : Nat) (p : Packet) :
    s.Delivered (if bit e 4 then s.deliverTree r p else s) r e p := by
  have hkeys : K.fencedDrops ≠ K.staleDrops := by decide
  by_cases he : bit e 4 = true
  case neg =>
    rw [if_neg he]
    exact ⟨rfl, fun _ _ => rfl, by simp [he], by simp [he], by simp [he], fun _ _ _ => rfl⟩
  rw [if_pos he]
  unfold State.deliverTree
  dsimp only
  by_cases hf : (s.core r).fenced = true
  · rw [if_pos hf, State.bump_eq]
    exact ⟨rfl, fun _ _ => rfl, by simp [hf], by simp [hf, he], by simp [hf, State.rd_wr_ne _ _ _ _ hkeys.symm],
      fun y hy _ => State.rd_wr_ne _ _ _ _ hy⟩
  by_cases hi : (s.core r).logInst = p.inst
  · rw [if_neg hf, if_neg (not_not.mpr hi)]
    split
    · next ha =>
      exact ⟨rfl, fun d hd => State.core_setCore_ne _ _ _ _ hd, by simp [hf, hi, he, ha], by simp [hf], by simp [hi],
        fun _ _ _ => rfl⟩
    · next ha =>
      exact ⟨rfl, fun d hd => State.core_setCore_ne _ _ _ _ hd, by simp [hf, hi, he, ha], by simp [hf], by simp [hi],
        fun _ _ _ => rfl⟩
  · rw [if_neg hf, if_pos hi, State.bump_eq]
    exact ⟨rfl, fun _ _ => rfl, by simp [hi], by simp [hf, State.rd_wr_ne _ _ _ _ hkeys], by simp [hf, hi, he],
      fun y _ hy => State.rd_wr_ne _ _ _ _ hy⟩

theorem mem_outputs {e o : Nat} : o ∈ (List.range 4).filter (fun o => bit e o) ↔ o < 4 ∧ bit e o = true := by
  rw [List.mem_filter, List.mem_range]

/-! ## A unicast packet at its destination (R131, R132, R149) -/

theorem State.forward_here {t : State} {r : Nat} (h : idxOf p.dstX p.dstY = r) : t.forward r p = t.deliver r p := if_pos h

theorem State.deliver_fenced {t : State} {r : Nat} (hf : (t.core r).fenced = true) : t.deliver r p =
    if p.isRequest then t.inject r portL (answerTo p 6 3 [] false) else t.bump K.fencedDrops 64 1 := if_pos hf

theorem State.deliver_stale {t : State} {r : Nat} (hf : (t.core r).fenced = false)
    (hh : (t.core r).holds p.dstPanel p.dstLogical = false) : t.deliver r p =
    if p.isRequest then t.inject r portL (answerTo p 6 4 [] false) else t.bump K.staleDrops 64 1 :=
  (if_neg (by simp [hf])).trans (if_pos (by simp [hh]))

theorem State.deliver_held {t : State} {r : Nat} (hf : (t.core r).fenced = false)
    (hh : (t.core r).holds p.dstPanel p.dstLogical = true) : t.deliver r p =
    if p.isRequest then t.setCore r { t.core r with rqIn := (t.core r).rqIn ++ [p] }
    else if p.kind = 5 ∨ (p.inst ≠ (t.core r).logInst ∧ p.inst ≠ 15) then t.bump K.staleDrops 64 1
    else t.setCore r { t.core r with rqResp := (t.core r).rqResp ++ [p] } :=
  (if_neg (by simp [hf])).trans (if_neg (by simp [hh]))

/-! ## A unicast packet on its way (R130, R148, R150) -/

/-- The packet as it goes on from router r: with its detour class. -/
def State.onWay (s : State) (r : Nat) (p : Packet) : Packet :=
  { p with detour := (s.hop r p.dstX p.dstY p.vc p.detour).2 }

/-- The port it goes out of. -/
def State.outPort (s : State) (r : Nat) (p : Packet) : Nat := (s.hop r p.dstX p.dstY p.vc p.detour).1

theorem State.forward_on {t : State} {r : Nat} (h : idxOf p.dstX p.dstY ≠ r) : t.forward r p =
    if p.vc = 0 then t.sendVc0 r (t.outPort r p) (t.onWay r p) else t.sendOut r (t.outPort r p) (t.onWay r p) := if_neg h

theorem State.forward_good {t : State} {r d l : Nat} (h : idxOf p.dstX p.dstY ≠ r) (hd : stepTo r (t.outPort r p) = some d)
    (hl : linkAt r (t.outPort r p) = some l) (hgood : t.linkByte l = 0) :
    t.forward r p = t.inject d (oppPort (t.outPort r p)) (if p.vc = 0 then { t.onWay r p with
      replays := (t.onWay r p).replays + (t.link (2 * l + b2n (decide (d < r)))).replays } else t.onWay r p) := by
  have hout := State.sendOut_good (s := t) (p := t.onWay r p) hd hl hgood
  rw [show (t.onWay r p).vc = p.vc from rfl] at hout
  rw [State.forward_on h]
  refine Eq.trans ?_ hout
  split
  · unfold State.sendVc0
    rw [hl]
    exact if_pos hgood
  · rfl

theorem State.forward_turned {t : State} {r l d' l' : Nat} (h : idxOf p.dstX p.dstY ≠ r)
    (hl : linkAt r (t.outPort r p) = some l) (hbad : t.linkByte l ≠ 0) (hvc : p.vc = 0)
    (hd' : stepTo r (turned r (t.outPort r p) p.dstY p.dstX) = some d')
    (hl' : linkAt r (turned r (t.outPort r p) p.dstY p.dstX) = some l') (hgood : t.linkByte l' = 0) :
    t.forward r p = t.inject d' (oppPort (turned r (t.outPort r p) p.dstY p.dstX)) { t.onWay r p with
      replays := (t.onWay r p).replays + (t.link (2 * l' + b2n (decide (d' < r)))).replays } := by
  rw [State.forward_on h, if_pos hvc]
  unfold State.sendVc0
  rw [hl]
  refine (if_neg hbad).trans ((State.sendOut_good (s := t) (p := t.onWay r p) hd' hl' hgood).trans ?_)
  rw [if_pos (show (t.onWay r p).vc = 0 from hvc)]

theorem State.forward_bad {t : State} {r d l : Nat} (h : idxOf p.dstX p.dstY ≠ r) (hd : stepTo r (t.outPort r p) = some d)
    (hl : linkAt r (t.outPort r p) = some l) (hbad : t.linkByte l ≠ 0) (hvc : p.vc ≠ 0) :
    t.forward r p = t.dropFailed (t.onWay r p) := by
  rw [State.forward_on h, if_neg hvc]
  exact State.sendOut_bad hd hl hbad

/-- The requester of a VC2 packet: its source, or for an answer its destination. -/
def Packet.requester (p : Packet) : Nat := if p.isRequest then p.src else idxOf p.dstX p.dstY

theorem State.dropFailed_vc2_none {t : State} (hvc : p.vc = 2) (h : ∀ y ∈ (t.core p.requester).rqOut, y.rid ≠ p.rid) :
    t.dropFailed p = t := by
  unfold State.dropFailed
  rw [if_pos (.inl hvc)]
  refine if_neg ?_
  simp only [List.any_eq_true, beq_iff_eq, not_exists, not_and]
  exact h

theorem State.dropFailed_vc2_some {t : State} {y : RqReq} (hvc : p.vc = 2)
    (h : (t.core p.requester).rqOut.find? (fun y => y.rid == p.rid) = some y) :
    t.dropFailed p = t.setCore p.requester (({ t.core p.requester with
      rqOut := (t.core p.requester).rqOut.filter fun y => y.rid != p.rid } : Core).postWord y.q y.id
        (complWord y.tag 2 2 false 0)) := by
  have hany : (t.core p.requester).rqOut.any (fun y => y.rid == p.rid) = true :=
    List.any_eq_true.mpr ⟨y, List.mem_of_find?_eq_some h, List.find?_some (p := fun y : RqReq => y.rid == p.rid) h⟩
  unfold State.dropFailed
  rw [if_pos (.inl hvc)]
  refine (if_pos hany).trans ?_
  unfold State.endRequest
  rw [show (if p.isRequest = true then p.src else idxOf p.dstX p.dstY) = p.requester from rfl]
  dsimp only
  rw [h]

theorem Core.queue_postWord_self (k : Core) (q id : Nat) (w : Word64) : (k.postWord q id w).queue q =
    (k.queue q).map fun e => if e.id = id then ⟨e.id, .word (some w)⟩ else e := by
  unfold Core.postWord Core.post
  rw [Core.queue_setQueue, if_pos rfl]

end Sys2Proof.Machine
end

section
/-! PACKET_ROUTE clause by clause: O32. -/

namespace Sys2Proof.Machine

section
variable {s : State} {r : CoreId} {port : Nat} {p : Packet} (hf : (s.router r.val).failed = false)
  (hn : nextPacket (s.router r.val).inq = some (port, p))

/-- A taken packet that ends in a counter. -/
theorem State.took_bump (s : State) (r port : Nat) (p : Packet) (key : Nat) :
    let t := (s.took r port p).bump key 64 1
    t = { s with routers := t.routers, dict := t.dict } ∧
      t.router r = { s.router r with inq := (s.router r).inq.erase (port, p) } ∧
      (∀ j, j ≠ r → t.router j = s.router j) ∧ t.rd key = (s.rd key + 1) % 2 ^ 64 ∧ ∀ y, y ≠ key → t.rd y = s.rd y := by
  intro t
  refine ⟨rfl, s.router_took_self .., fun j hj => s.router_took_ne _ _ _ hj, State.rd_wr .., fun y hy => ?_⟩
  exact State.rd_wr_ne _ _ _ _ hy

/-- A taken packet answered into the router's local input. -/
theorem State.took_inject (s : State) (r port : Nat) (p a : Packet) :
    let t := (s.took r port p).inject r portL a
    t = { s with routers := t.routers } ∧
      t.router r = { s.router r with inq := (s.router r).inq.erase (port, p) ++ [(portL, a)] } ∧
      ∀ j, j ≠ r → t.router j = s.router j := by
  intro t
  refine ⟨rfl, ?_, fun j hj => ?_⟩
  · exact (State.router_inject ..).trans (by rw [if_pos rfl, s.router_took_self])
  · exact (State.router_inject ..).trans ((if_neg hj).trans (s.router_took_ne _ _ _ hj))

/-- A taken packet handed to the core. -/
theorem State.took_setCore (s : State) (r port : Nat) (p : Packet) (k : Core) :
    let t := (s.took r port p).setCore r k
    t = { s with cores := t.cores, routers := t.routers } ∧
      t.router r = { s.router r with inq := (s.router r).inq.erase (port, p) } ∧
      (∀ j, j ≠ r → t.router j = s.router j) ∧ t.core r = k ∧ ∀ d, d ≠ r → t.core d = s.core d :=
  ⟨rfl, s.router_took_self .., fun _ hj => s.router_took_ne _ _ _ hj, State.core_setCore .., fun _ hd =>
    State.core_setCore_ne _ _ _ _ hd⟩

/-- A taken packet passed on to another router. -/
theorem State.took_send (s : State) (r port : Nat) (p q : Packet) {d o : Nat} (hd : d ≠ r) :
    let t := (s.took r port p).inject d (oppPort o) q
    t = { s with routers := t.routers } ∧
      t.router r = { s.router r with inq := (s.router r).inq.erase (port, p) } ∧
      t.router d = { s.router d with inq := (s.router d).inq ++ [(oppPort o, q)] } ∧
      ∀ j, j ≠ r → j ≠ d → t.router j = s.router j := by
  intro t
  have hrouter := State.router_inject (s.took r port p) d (oppPort o) q
  refine ⟨rfl, ?_, ?_, fun j hj hj' => ?_⟩
  · exact (hrouter r).trans ((if_neg hd.symm).trans (s.router_took_self ..))
  · refine (hrouter d).trans ((if_pos rfl).trans ?_)
    rw [s.router_took_ne _ _ _ hd]
  · exact (hrouter j).trans ((if_neg hj').trans (s.router_took_ne _ _ _ hj))

/-! ## A multicast -/

include hf hn

theorem exec_packetRoute_multicast {e : Nat} (hk : p.kind = 3) (he : s.treeFor r.val p p.treeMode = some e) (hvc : p.vc ≠ 0)
    (hgood : ∀ o, o < 4 → bit e o = true →
      ∃ d l, stepTo r.val o = some d ∧ linkAt r.val o = some l ∧ s.linkByte l = 0) :
    ∃ t, exec (.packetRoute r) s = .next t ∧ t = { s with cores := t.cores, routers := t.routers, dict := t.dict } ∧
      t.router r.val = { s.router r.val with inq := (s.router r.val).inq.erase (port, p) } ∧
      (∀ o d, o < 4 → stepTo r.val o = some d → t.router d = (if bit e o then
        { s.router d with inq := (s.router d).inq ++ [(oppPort o, p)] } else s.router d)) ∧
      (∀ j, j ≠ r.val → (∀ o, o < 4 → stepTo r.val o ≠ some j) → t.router j = s.router j) ∧ s.Delivered
        { s with cores := t.cores, dict := t.dict } r.val e p := by
  have htree := State.treePacket_multicast (port := port) hk ((s.treeFor_took r.val port p p.treeMode).trans he)
  obtain ⟨u, hu⟩ : ∃ u, u = (s.took r.val port p).each ((List.range 4).filter fun o => bit e o) fun s o =>
    s.sendOut r.val o p := ⟨_, rfl⟩
  have hnodup : ((List.range 4).filter fun o => bit e o).Nodup := List.nodup_range.filter _
  obtain ⟨hframe, hsent, hothers⟩ := State.router_sendAll (s := s.took r.val port p) (r := r.val) (p := p) hnodup hvc
    fun o ho => hgood o (mem_outputs.mp ho).1 (mem_outputs.mp ho).2
  rw [← hu] at htree hframe hsent hothers
  have hdel := u.delivered_deliverTree r.val e p
  have hcores : u.cores = s.cores := (congrArg State.cores hframe :)
  have hdict : u.dict = s.dict := (congrArg State.dict hframe :)
  have hcore : ∀ d, u.core d = s.core d := fun d => congrArg (fun m => mapGet (fun _ => ({} : Core)) m d) hcores
  have hrd : ∀ y, u.rd y = s.rd y := fun y => congrArg (fun m => mapGet dictDefault m y) hdict
  obtain ⟨t, ht⟩ : ∃ t, t = if bit e 4 then u.deliverTree r.val p else u := ⟨_, rfl⟩
  rw [← ht] at hdel htree
  have hrouter : ∀ j, t.router j = u.router j := fun j =>
    congrArg (fun m => mapGet (fun _ => ({} : Router)) m j) (congrArg State.routers hdel.frame :)
  refine ⟨t, (exec_packetRoute_tree hf hn (.inl hk)).trans (congrArg Host.Outcome.next htree), ?_, ?_, ?_, ?_, ?_⟩
  · rw [hdel.frame, hframe]
    rfl
  · rw [hrouter, hothers _ fun o _ h => stepTo_ne h rfl, s.router_took_self]
  · intro o d ho hd
    have hne := stepTo_ne hd
    rw [hrouter]
    split
    · next hb =>
      rw [hsent o (mem_outputs.mpr ⟨ho, hb⟩) d hd, s.router_took_ne _ _ _ hne]
    · next hb =>
      rw [hothers d fun o' ho' h => hb (stepTo_inj h hd ▸ (mem_outputs.mp ho').2), s.router_took_ne _ _ _ hne]
  · intro j hj hout
    rw [hrouter, hothers j fun o ho => hout o (mem_outputs.mp ho).1, s.router_took_ne _ _ _ hj]
  · refine ⟨rfl, fun d hd => (hdel.others d hd).trans (hcore d), ?_, ?_, ?_, fun y hy hy' => (hdel.rd y hy hy').trans (hrd y)⟩
    · exact hdel.core.trans (by rw [hcore])
    · exact hdel.fencedDrops.trans (by rw [hcore, hrd])
    · exact hdel.staleDrops.trans (by rw [hcore, hrd])

theorem exec_packetRoute_multicast_restarts {e o d l : Nat} (hk : p.kind = 3) (he : s.treeFor r.val p p.treeMode = some e)
    (ho : o < 4) (hb : bit e o = true) (hd : stepTo r.val o = some d) (hl : linkAt r.val o = some l) (hbad : s.linkByte l ≠ 0)
    (hvc : p.vc = 1) (hi : p.inst < 12) (hready : s.ready p.inst = true) :
    ∃ t, exec (.packetRoute r) s = .next t ∧ (t.inst p.inst).halted = true ∧ (t.inst p.inst).restartDue = true ∧
      (t.inst p.inst).abandoned = ((s.inst p.inst).stepOn || (s.inst p.inst).abandoned) ∧
      (∀ d, d ≠ r.val → t.core d = s.core d) ∧ ∀ j, j ≠ p.inst → t.inst j = s.inst j := by
  have htree := State.treePacket_multicast (port := port) hk ((s.treeFor_took r.val port p p.treeMode).trans he)
  obtain ⟨u, hu⟩ : ∃ u, u = (s.took r.val port p).each ((List.range 4).filter fun o => bit e o) fun s o =>
    s.sendOut r.val o p := ⟨_, rfl⟩
  have hsent := State.treeSent_sendAll (s := s.took r.val port p) (r := r.val) hvc ((List.range 4).filter fun o => bit e o)
  have hhalt := State.halted_sendAll (s := s.took r.val port p) (mem_outputs.mpr ⟨ho, hb⟩) hvc hi hready hd hl hbad
  rw [← hu] at htree hsent hhalt
  have hdel := u.delivered_deliverTree r.val e p
  obtain ⟨t, ht⟩ : ∃ t, t = if bit e 4 then u.deliverTree r.val p else u := ⟨_, rfl⟩
  rw [← ht] at hdel htree
  have hinst : ∀ j, t.inst j = u.inst j := fun j =>
    congrArg (fun m => mapGet (fun _ => ({} : Inst)) m j) (congrArg State.insts hdel.frame :)
  refine ⟨t, (exec_packetRoute_tree hf hn (.inl hk)).trans (congrArg Host.Outcome.next htree), ?_, ?_, ?_, fun d hd => ?_,
    fun j hj => ?_⟩
  · rw [hinst, hhalt]
  · rw [hinst, hhalt]
  · rw [hinst, hhalt]
    rfl
  · exact (hdel.others d hd).trans (hsent.core d)
  · exact (hinst j).trans (hsent.others j hj)

/-! ## The other packets of a tree -/

theorem exec_packetRoute_contribution {e : Nat} (hk : p.kind = 4) (he : s.treeFor r.val p p.treeMode = some e) :
    ∃ red, (∃ t, exec (.packetRoute r) s = .next t ∧ t = { s with routers := t.routers } ∧
        t.router r.val = { s.router r.val with inq := (s.router r.val).inq.erase (port, p), red := red } ∧
        ∀ j, j ≠ r.val → t.router j = s.router j) ∧
      mapGet (fun _ => []) red p.group = mapGet (fun _ => []) (s.router r.val).red p.group ++ [(port, p)] ∧
      ∀ g, g ≠ p.group → mapGet (fun _ => []) red g = mapGet (fun _ => []) (s.router r.val).red g := by
  have htree := State.treePacket_contribution (port := port) hk ((s.treeFor_took r.val port p p.treeMode).trans he)
  rw [s.router_took_self] at htree
  refine ⟨mapMod (fun _ => []) (s.router r.val).red p.group fun l => l ++ [(port, p)],
    ⟨_, (exec_packetRoute_tree hf hn (.inr (.inl hk))).trans (congrArg Host.Outcome.next htree), rfl, ?_, fun j hj => ?_⟩,
    mapGet_set_self .., fun g hg => mapGet_set_other _ _ _ hg⟩
  · exact State.router_setRouter ..
  · exact (State.router_setRouter_ne _ _ _ _ hj).trans (s.router_took_ne _ _ _ hj)

theorem exec_packetRoute_tack {e : Nat} (hk : p.kind = 7) (hat : p.atTree r.val port)
    (he : s.treeFor r.val p p.treeMode = some e) :
    ∃ t, exec (.packetRoute r) s = .next t ∧ t = { s with routers := t.routers, dict := t.dict } ∧
      t.router r.val = { s.router r.val with
        inq := (s.router r.val).inq.erase (port, p),
        tackIn := (s.router r.val).tackIn ++ [(portToward r.val (idxOf p.srcX p.srcY)).getD port] } ∧
      (∀ j, j ≠ r.val → t.router j = s.router j) ∧
      t.rd K.vc0Late = (if p.vc = 0 ∧ 2 ≤ p.replays then (s.rd K.vc0Late + 1) % 2 ^ 64 else s.rd K.vc0Late) ∧
      ∀ y, y ≠ K.vc0Late → t.rd y = s.rd y := by
  have htree := State.treePacket_tack (port := port) hk ((s.treeFor_took r.val port p p.treeMode).trans he)
  rw [s.router_took_self] at htree
  have hnote : (s.took r.val port p).noteLate p = { s.took r.val port p with
      dict := ((s.took r.val port p).noteLate p).dict } := by
    unfold State.noteLate
    split <;> rfl
  refine ⟨_, (exec_packetRoute_tree hf hn hat).trans (congrArg Host.Outcome.next htree), ?_, ?_, fun j hj => ?_, ?_,
    fun y hy => ?_⟩
  · rw [hnote]
    rfl
  · exact State.router_setRouter ..
  · refine (State.router_setRouter_ne _ _ _ _ hj).trans ?_
    rw [hnote]
    exact s.router_took_ne _ _ _ hj
  · change ((s.took r.val port p).noteLate p).rd K.vc0Late = _
    unfold State.noteLate
    split
    · exact State.rd_wr ..
    · rfl
  · change ((s.took r.val port p).noteLate p).rd y = _
    unfold State.noteLate
    split
    · exact State.rd_wr_ne _ _ _ _ hy
    · rfl

/-! ## A packet lost over a failed link -/

variable {d l : Nat} (hat : ¬p.atTree r.val port) (hon : idxOf p.dstX p.dstY ≠ r.val)
  (hd : stepTo r.val (s.outPort r.val p) = some d) (hl : linkAt r.val (s.outPort r.val p) = some l) (hbad : s.linkByte l ≠ 0)
include hat hon hd hl hbad

theorem exec_packetRoute_lost (hvc : p.vc ≠ 0) :
    exec (.packetRoute r) s = .next ((s.took r.val port p).dropFailed (s.onWay r.val p)) := by
  have hout : (s.took r.val port p).outPort r.val p = s.outPort r.val p := congrArg Prod.fst (s.hop_took ..)
  have hway : (s.took r.val port p).onWay r.val p = s.onWay r.val p := by
    unfold State.onWay
    rw [s.hop_took]
  rw [← hout] at hd hl
  rw [exec_packetRoute_forward hf hn hat, State.forward_bad hon hd hl hbad hvc, hway]

theorem exec_packetRoute_restarts (hvc : p.vc = 1) (hi : p.inst < 12) (hready : s.ready p.inst = true) :
    ∃ t, exec (.packetRoute r) s = .next t ∧ (t.inst p.inst).halted = true ∧ (t.inst p.inst).restartDue = true ∧
      (t.inst p.inst).abandoned = ((s.inst p.inst).stepOn || (s.inst p.inst).abandoned) ∧
      (∀ d, d ≠ r.val → t.core d = s.core d) ∧ ∀ j, j ≠ p.inst → t.inst j = s.inst j := by
  have hexec := exec_packetRoute_lost hf hn hat hon hd hl hbad (by omega)
  rw [State.dropFailed_vc1 (s := s.took r.val port p) (p := s.onWay r.val p) hvc hi hready] at hexec
  have hinst : ((s.took r.val port p).abandon p.inst).inst p.inst = { s.inst p.inst with
      halted := true, abandoned := (s.inst p.inst).stepOn || (s.inst p.inst).abandoned, restartDue := true } :=
    State.inst_setInst ..
  refine ⟨_, hexec, congrArg Inst.halted hinst, congrArg Inst.restartDue hinst, congrArg Inst.abandoned hinst, fun d _ => rfl,
    fun j hj => State.inst_setInst_ne _ _ _ _ hj⟩

theorem exec_packetRoute_unanswered (hvc : p.vc = 2) {y : RqReq}
    (hy : (s.core p.requester).rqOut.find? (fun y => y.rid == p.rid) = some y) :
    ∃ t, exec (.packetRoute r) s = .next t ∧ t = { s with cores := t.cores, routers := t.routers } ∧
      t.router r.val = { s.router r.val with inq := (s.router r.val).inq.erase (port, p) } ∧
      (∀ j, j ≠ r.val → t.router j = s.router j) ∧ (∀ d, d ≠ p.requester → t.core d = s.core d) ∧
      (t.core p.requester).rqOut = (s.core p.requester).rqOut.filter (fun y => y.rid != p.rid) ∧
      (t.core p.requester).queue y.q = ((s.core p.requester).queue y.q).map (fun e => if e.id = y.id then
        ⟨e.id, .word (some (complWord y.tag 2 2 false 0))⟩ else e) := by
  have hexec := exec_packetRoute_lost hf hn hat hon hd hl hbad (by omega)
  rw [State.dropFailed_vc2_some (t := s.took r.val port p) (p := s.onWay r.val p) hvc hy] at hexec
  refine ⟨_, hexec, rfl, s.router_took_self .., fun j hj => s.router_took_ne _ _ _ hj, fun d hd' =>
    State.core_setCore_ne _ _ _ _ hd', ?_, ?_⟩
  · exact congrArg Core.rqOut (State.core_setCore ..)
  · exact (congrArg (fun k : Core => k.queue y.q) (State.core_setCore ..)).trans (Core.queue_postWord_self ..)

theorem exec_packetRoute_forgotten (hvc : p.vc = 2) (hy : ∀ y ∈ (s.core p.requester).rqOut, y.rid ≠ p.rid) :
    ∃ t, exec (.packetRoute r) s = .next t ∧ t = { s with routers := t.routers } ∧
      t.router r.val = { s.router r.val with inq := (s.router r.val).inq.erase (port, p) } ∧
      ∀ j, j ≠ r.val → t.router j = s.router j := by
  have hexec := exec_packetRoute_lost hf hn hat hon hd hl hbad (by omega)
  rw [State.dropFailed_vc2_none (t := s.took r.val port p) (p := s.onWay r.val p) hvc hy] at hexec
  exact ⟨_, hexec, rfl, s.router_took_self .., fun j hj => s.router_took_ne _ _ _ hj⟩

end

/-- Settles O32. -/
theorem packetRouteForwardsOneHop : Obligations.PacketRouteForwardsOneHop := by
  intro s r x k
  refine ⟨exec_packetRoute_idle, ?_⟩
  intro port p hf hn x1 here atTree entry Becomes Counts Hands Answers Sends Restarts
  have hfwd := exec_packetRoute_forward hf hn
  refine ⟨?discarded, fun e hk he => ⟨?multicast, ?multicastLost⟩, fun e hk he => ?contribution,
    fun e hk hat he => ?tack, fun hat hh => ⟨?fenced, ?stale, ?held⟩, fun hat hh => ?onward⟩
  case discarded =>
    intro hat he
    have hnone := State.treePacket_none (port := port) ((s.treeFor_took r.val port p p.treeMode).trans he)
    exact ⟨_, (exec_packetRoute_tree hf hn hat).trans (congrArg Host.Outcome.next hnone), s.took_bump ..⟩
  case multicast =>
    intro hgood hvc
    obtain ⟨t, hexec, hframe, hself, hout, hothers, hdel⟩ := exec_packetRoute_multicast hf hn hk he hvc hgood
    exact ⟨t, hexec, hframe, hself, hout, hothers, hdel.others, hdel.core, hdel.fencedDrops, hdel.staleDrops, hdel.rd⟩
  case multicastLost =>
    intro o d l ho hb hd hl hbad hvc hi hready
    exact exec_packetRoute_multicast_restarts hf hn hk he ho hb hd hl hbad hvc hi hready
  case contribution => exact exec_packetRoute_contribution hf hn hk he
  case tack => exact exec_packetRoute_tack hf hn hk hat he
  case fenced =>
    intro hfen
    have hdel := State.deliver_fenced (p := p) (t := s.took r.val port p) hfen
    have hexec := (hfwd hat).trans (congrArg Host.Outcome.next ((State.forward_here hh).trans hdel))
    split
    · next hreq =>
      rw [if_pos hreq] at hexec
      exact ⟨answerTo p 6 3 [] false, ⟨_, hexec, s.took_inject ..⟩, rfl, rfl, rfl, rfl, rfl, rfl, rfl, rfl⟩
    · next hreq =>
      rw [if_neg hreq] at hexec
      exact ⟨_, hexec, s.took_bump ..⟩
  case stale =>
    intro hfen hstale
    have hdel := State.deliver_stale (p := p) (t := s.took r.val port p) hfen hstale
    have hexec := (hfwd hat).trans (congrArg Host.Outcome.next ((State.forward_here hh).trans hdel))
    split
    · next hreq =>
      rw [if_pos hreq] at hexec
      exact ⟨answerTo p 6 4 [] false, ⟨_, hexec, s.took_inject ..⟩, rfl, rfl, rfl, rfl, rfl, rfl, rfl, rfl⟩
    · next hreq =>
      rw [if_neg hreq] at hexec
      exact ⟨_, hexec, s.took_bump ..⟩
  case held =>
    intro hfen hholds
    have hdel := State.deliver_held (p := p) (t := s.took r.val port p) hfen hholds
    have hexec := (hfwd hat).trans (congrArg Host.Outcome.next ((State.forward_here hh).trans hdel))
    refine ⟨fun hreq => ?_, fun hreq hstale => ?_, fun hreq hk hinst => ?_⟩
    · exact ⟨_, hexec.trans (congrArg Host.Outcome.next (if_pos hreq)), s.took_setCore ..⟩
    · exact ⟨_, hexec.trans (congrArg Host.Outcome.next ((if_neg (by simp [hreq])).trans (if_pos hstale))), s.took_bump ..⟩
    · have hfresh : ¬(p.kind = 5 ∨ (p.inst ≠ ((s.took r.val port p).core r.val).logInst ∧ p.inst ≠ 15)) := by
        rintro (h | ⟨h, h'⟩)
        · exact hk h
        · exact hinst.elim h h'
      exact ⟨_, hexec.trans (congrArg Host.Outcome.next ((if_neg (by simp [hreq])).trans (if_neg hfresh))), s.took_setCore ..⟩
  case onward =>
    intro h q met d l hd hl
    have hout : (s.took r.val port p).outPort r.val p = s.outPort r.val p := congrArg Prod.fst (s.hop_took ..)
    have hway : (s.took r.val port p).onWay r.val p = s.onWay r.val p := by
      unfold State.onWay
      rw [s.hop_took]
    refine ⟨fun hgood => ?_, fun hbad hvc d' l' hd' hl' hgood => ?_, fun hbad hvc => ⟨fun y hy => ?_, fun hy => ?_⟩,
      fun hbad hvc hi hready => ?_⟩
    · have hexec := hfwd hat
      rw [State.forward_good (t := s.took r.val port p) hh (by rw [hout]; exact hd) (by rw [hout]; exact hl) hgood, hway,
        hout] at hexec
      exact ⟨_, hexec, s.took_send _ _ _ _ (stepTo_ne hd)⟩
    · have hexec := hfwd hat
      rw [State.forward_turned (t := s.took r.val port p) hh (by rw [hout]; exact hl) hbad hvc (by rw [hout]; exact hd')
        (by rw [hout]; exact hl') hgood, hway, hout] at hexec
      exact ⟨_, hexec, s.took_send _ _ _ _ (stepTo_ne hd')⟩
    · exact exec_packetRoute_unanswered hf hn hat hh hd hl hbad hvc hy
    · exact exec_packetRoute_forgotten hf hn hat hh hd hl hbad hvc hy
    · exact exec_packetRoute_restarts hf hn hat hh hd hl hbad hvc hi hready

end Sys2Proof.Machine
end

section
/-! Arrival counters and stores with poison (R111, R215): the rules behind O33. -/

namespace Sys2Proof.Machine

/-! ## Arrival counters (R215) -/

/-- Settling posts completions and no more. -/
theorem settleArrival_frame (k : Core) (a : Arrival) (n : Nat) :
    (settleArrival k a n).1 = { k with queues := (settleArrival k a n).1.queues } := by
  induction n generalizing k a with
  | zero => rfl
  | succ n ih =>
    unfold settleArrival
    split
    · rfl
    · split
      · exact ih ..
      · rfl

/-- A counter whose oldest wait is not satisfied stays as it is. -/
theorem settleArrival_waits {k : Core} {a : Arrival} (h : ∀ w ∈ a.waits.head?, a.pkts.length < w.count) (n : Nat) :
    settleArrival k a n = (k, a) := by
  cases n with
  | zero => rfl
  | succ n =>
    unfold settleArrival
    split
    · rfl
    · next w ws hw => exact if_neg (Nat.not_le.mpr (h w (by rw [hw]; rfl)))

/-- A single wait for just the packets there is posted. -/
theorem settleArrival_last {k : Core} {a : Arrival} {w : ArrWait} (hw : a.waits = [w]) (hcount : w.count = a.pkts.length) :
    settleArrival k a a.waits.length = (k.postWord w.q w.id
      (complWord a.tag ((a.pkts.map (·.2)).foldl max 0) 4 (a.pkts.any (·.1)) w.count), { a with pkts := [], waits := [] }) := by
  rw [hw, List.length_singleton]
  unfold settleArrival
  rw [hw]
  dsimp only
  rw [if_pos (Nat.le_of_eq hcount), hcount, List.take_length, List.drop_length]
  rfl

/-- All counters are taken, none of them the pair's. -/
def Core.ArrivalsFull (k : Core) (group tag : Nat) : Prop :=
  32 ≤ k.arrivals.length ∧ ∀ y ∈ k.arrivals, y.group ≠ group ∨ y.tag ≠ tag

theorem Core.arrivalFor_none {k : Core} {group tag : Nat} (h : k.ArrivalsFull group tag) : k.arrivalFor group tag = none := by
  have hfind : (k.arrivals.find? fun a => a.group == group && a.tag == tag) = none := by
    simpa [List.find?_eq_none, Decidable.imp_iff_not_or] using h.2
  have hlen := h.1
  simp [Core.arrivalFor, hfind, hlen]

theorem Core.arrivalFor_some {k : Core} {group tag : Nat} (h : ¬k.ArrivalsFull group tag) :
    ∃ a, k.arrivalFor group tag = some a ∧ a.group = group ∧ a.tag = tag := by
  unfold Core.arrivalFor
  cases hfind : (k.arrivals.find? fun a => a.group == group && a.tag == tag) with
  | some a =>
    have ha := List.find?_some hfind
    rw [Bool.and_eq_true, beq_iff_eq, beq_iff_eq] at ha
    exact ⟨a, rfl, ha⟩
  | none =>
    have hnew : ∀ y ∈ k.arrivals, y.group ≠ group ∨ y.tag ≠ tag := by
      simpa [List.find?_eq_none, Decidable.imp_iff_not_or] using hfind
    have hlen : k.arrivals.length < 32 := Nat.lt_of_not_le fun hle => h ⟨hle, hnew⟩
    exact ⟨_, if_pos hlen, rfl, rfl⟩

/-- One more packet of a pair has been counted: the counter holds it, or the one wait that it completes is posted. -/
def Core.Counted (k k' : Core) (group tag : Nat) (taint : Bool) (status : Nat) : Prop :=
  ∀ a, k.arrivalFor group tag = some a →
    let pkts := a.pkts ++ [(taint, status)]
    let others := k.arrivals.filter fun b => !(b.group == group && b.tag == tag)
    ((∀ w ∈ a.waits.head?, pkts.length < w.count) →
      k'.arrivals = others ++ [{ a with pkts := pkts }] ∧ ∀ q, k'.queue q = k.queue q) ∧
    (∀ w, a.waits = [w] → w.count = pkts.length →
      k'.arrivals = others ∧ (∀ q, q ≠ w.q → k'.queue q = k.queue q) ∧
      k'.queue w.q = (k.queue w.q).map (fun y => if y.id = w.id then ⟨y.id, .word (some
        (complWord a.tag ((pkts.map (·.2)).foldl max 0) 4 (pkts.any (·.1)) w.count))⟩ else y))

theorem Core.putArrival_frame (k : Core) (a : Arrival) :
    k.putArrival a = { k with arrivals := (k.putArrival a).arrivals, queues := (k.putArrival a).queues } := by
  unfold Core.putArrival
  dsimp only
  rw [settleArrival_frame]

theorem Core.putArrival_waits {k : Core} {a : Arrival} (h : ∀ w ∈ a.waits.head?, a.pkts.length < w.count) (hp : a.pkts ≠ []) :
    k.putArrival a =
      { k with arrivals := k.arrivals.filter (fun b => !(b.group == a.group && b.tag == a.tag)) ++ [a] } := by
  unfold Core.putArrival
  rw [settleArrival_waits h]
  dsimp only
  rw [if_neg (by simp [hp])]

theorem Core.putArrival_last {k : Core} {a : Arrival} {w : ArrWait} (hw : a.waits = [w]) (hcount : w.count = a.pkts.length) :
    k.putArrival a = { k.postWord w.q w.id
      (complWord a.tag ((a.pkts.map (·.2)).foldl max 0) 4 (a.pkts.any (·.1)) w.count) with
      arrivals := k.arrivals.filter (fun b => !(b.group == a.group && b.tag == a.tag)) } := by
  unfold Core.putArrival
  rw [settleArrival_last hw hcount]
  rfl

theorem Core.queue_postWord_ne (k : Core) {q q' : Nat} (h : q' ≠ q) (id : Nat) (w : Word64) :
    (k.postWord q id w).queue q' = k.queue q' := by
  unfold Core.postWord Core.post
  rw [Core.queue_setQueue, if_neg h]

theorem Core.countArrival_full {k : Core} {group tag : Nat} (h : k.ArrivalsFull group tag) (taint : Bool) (status : Nat) :
    k.countArrival group tag taint status = none := by
  unfold Core.countArrival
  rw [Core.arrivalFor_none h]
  rfl

theorem Core.countArrival_free {k : Core} {group tag : Nat} (h : ¬k.ArrivalsFull group tag) (taint : Bool) (status : Nat) :
    ∃ k', k.countArrival group tag taint status = some k' ∧
      k' = { k with arrivals := k'.arrivals, queues := k'.queues } ∧ k.Counted k' group tag taint status := by
  obtain ⟨a, ha, hgroup, htag⟩ := Core.arrivalFor_some h
  refine ⟨k.putArrival { a with pkts := a.pkts ++ [(taint, status)] }, ?_, Core.putArrival_frame .., fun b hb => ?_⟩
  · unfold Core.countArrival
    rw [ha]
    rfl
  · obtain rfl : a = b := Option.some.inj (ha.symm.trans hb)
    refine ⟨fun hwaits => ?_, fun w hw hcount => ?_⟩
    · rw [Core.putArrival_waits (a := { a with pkts := a.pkts ++ [(taint, status)] }) hwaits (by simp)]
      exact ⟨by rw [← hgroup, ← htag], fun _ => rfl⟩
    · rw [Core.putArrival_last (a := { a with pkts := a.pkts ++ [(taint, status)] }) hw hcount]
      exact ⟨by rw [← hgroup, ← htag], fun q hq => Core.queue_postWord_ne k hq .., Core.queue_postWord_self k ..⟩

/-! ## Bytes that carry poison (R111) -/

theorem Core.padOnly_storeP (k : Core) (a : Nat) (bs : List Byte) (poison : Bool) : k.PadOnly (k.storeP a bs poison) := by
  unfold Core.storeP
  split
  · exact (k.padOnly_store a bs).trans rfl
  · exact k.padOnly_store a bs

theorem Core.storeP_sp (k : Core) (a : Nat) (bs : List Byte) (poison : Bool) :
    (k.storeP a bs poison).sp = memWrite k.sp a bs := by
  unfold Core.storeP
  split <;> exact Core.store_sp ..

/-- Store the same bytes, with their poison, at several places. -/
def Core.storeAllP (k : Core) (as : List Nat) (bs : List Byte) (poison : Bool) : Core :=
  as.foldl (fun k a => k.storeP a bs poison) k

theorem Core.padOnly_storeAllP (bs : List Byte) (poison : Bool) : ∀ (as : List Nat) (k : Core),
    k.PadOnly (k.storeAllP as bs poison)
  | [], k => .refl k
  | a :: as, k => (k.padOnly_storeP a bs poison).trans (Core.padOnly_storeAllP bs poison as _)

/-- Poison has no part in the bytes stored. -/
theorem Core.storeAllP_sp (bs : List Byte) (poison : Bool) : ∀ (as : List Nat) (k k' : Core), k.sp = k'.sp →
    (k.storeAllP as bs poison).sp = (k'.storeAll as bs).sp
  | [], _, _, h => h
  | a :: as, k, k', h =>
    Core.storeAllP_sp bs poison as _ _ ((k.storeP_sp a bs poison).trans (by rw [Core.store_sp, h]))

theorem mem_wordsOf_of_full {a n w : Nat} (h : fullWord a n w = true) : w ∈ wordsOf a n := by
  simp only [fullWord, Bool.and_eq_true, decide_eq_true_eq] at h
  unfold wordsOf
  rw [if_neg (by omega), List.mem_map]
  exact ⟨w - a / 8, List.mem_range.mpr (by omega), by omega⟩

/-- Marks set for a list of words. -/
theorem mapGet_setTrue (ws : List Nat) (m : Map Bool) (x : Nat) :
    mapGet (fun _ => false) (ws.foldl (fun m w => mapSet (fun _ => false) m w true) m) x =
      (decide (x ∈ ws) || mapGet (fun _ => false) m x) := by
  induction ws generalizing m with
  | nil => simp
  | cons w ws ih =>
    rw [List.foldl_cons, ih, mapGet_set (fun _ => false) m w x true]
    by_cases h : x = w
    · simp [h]
    · simp [h]

/-- The words that a poisoned store touches are poisoned, and no other loses its poison. -/
theorem Core.poison_storeP {k : Core} {a : Nat} {bs : List Byte} {w : Nat}
    (h : w ∈ wordsOf a bs.length ∨ mapGet (fun _ => false) k.poison w = true) :
    mapGet (fun _ => false) (k.storeP a bs true).poison w = true := by
  have hstore : (k.store a bs).poison = k.poison.filter fun p => !fullWord a bs.length p.1 := by
    unfold Core.store
    dsimp only
    rw [k.writeFix_frame]
  unfold Core.storeP
  dsimp only
  rw [if_pos rfl, hstore]
  refine (mapGet_setTrue _ _ w).trans ?_
  by_cases hw : w ∈ wordsOf a bs.length
  · simp [hw]
  · have hfull : fullWord a bs.length w = false := by
      rw [← Bool.not_eq_true]
      exact fun hf => hw (mem_wordsOf_of_full hf)
    rw [mapGet_filterKey (fun _ => false) (fun p => !fullWord a bs.length p), hfull]
    simp [h.resolve_left hw]

theorem Core.poison_storeAllP {bs : List Byte} {w : Nat} (as : List Nat) (k : Core)
    (h : (∃ a ∈ as, w ∈ wordsOf a bs.length) ∨ mapGet (fun _ => false) k.poison w = true) :
    mapGet (fun _ => false) (k.storeAllP as bs true).poison w = true := by
  induction as generalizing k with
  | nil => exact h.resolve_left fun ⟨_, ha, _⟩ => by cases ha
  | cons a as ih =>
    refine ih (k.storeP a bs true) ?_
    rcases h with ⟨b, hb, hw⟩ | h
    · rcases List.mem_cons.mp hb with rfl | hb
      · exact .inr (Core.poison_storeP (.inl hw))
      · exact .inl ⟨b, hb, hw⟩
    · exact .inr (Core.poison_storeP (.inr h))

/-- The places of an access of either group do not meet. -/
theorem either_apart {k : Core} {a n : Nat} {w : Bool} {ps : List Nat} (h : k.either a n w = some ps) (hn : n ≤ 524288) :
    Apart ps n := by
  unfold Core.either at h
  split at h
  · obtain ⟨x, -, rfl⟩ := Option.map_eq_some_iff.mp h
    intro x hx y hy hne
    rw [List.mem_singleton] at hx hy
    exact absurd (hx.trans hy.symm) hne
  · exact narrow_apart h hn

end Sys2Proof.Machine
end

section
/-! Deliveries at a core: O33. -/

namespace Sys2Proof.Machine

variable {s : State} {c : CoreId}

theorem State.portUse_setCore_off (hhz : s.rd K.hzMode = 0) (x : Nat) (k : Core) (d : Nat) (own : Option (Nat × Nat))
    (pc : Nat) (accs : List Access) : (s.setCore x k).portUse d own pc accs = s.setCore x k :=
  State.portUse_off _ _ _ _ _ hhz

/-! ## Multicast packets (R143, R215) -/

/-- The state once a packet has been taken and counted as discarded. -/
theorem State.drops_bump (s : State) (c : CoreId) (k : Core) (key : Nat) :
    let t := (s.setCore c.val k).bump key 64 1
    t = { s with cores := t.cores, dict := t.dict } ∧ t.core c.val = k ∧ (∀ d, d ≠ c.val → t.core d = s.core d) ∧
      t.rd key = (s.rd key + 1) % 2 ^ 64 ∧ ∀ y, y ≠ key → t.rd y = s.rd y :=
  ⟨rfl, State.core_setCore .., fun _ hd => State.core_setCore_ne _ _ _ _ hd, State.rd_wr .., fun _ hy =>
    State.rd_wr_ne _ _ _ _ hy⟩

/-- Where a multicast packet's bytes go: nowhere for an empty one; none when its range does not lie in a window. -/
def Core.mcastPlaces (k : Core) (p : Packet) : Option (List Nat) :=
  if p.payload.isEmpty then some [] else k.either p.addr p.payload.length true

theorem exec_multicastDelivery_full {p : Packet} {rest : List Packet} (hq : (s.core c.val).mcIn = p :: rest)
    (hfull : (s.core c.val).ArrivalsFull p.group p.tag) : exec (.multicastDelivery c) s =
      .next ((s.setCore c.val { s.core c.val with mcIn := rest }).bump K.arrivalDrops 64 1) := by
  rw [exec_multicastDelivery]
  unfold execMulticastDelivery
  dsimp only
  rw [hq]
  dsimp only
  rw [Core.countArrival_full (k := { s.core c.val with mcIn := rest }) hfull]

theorem exec_multicastDelivery_counted {p : Packet} {rest : List Packet} (hhz : s.rd K.hzMode = 0)
    (hq : (s.core c.val).mcIn = p :: rest) (hfree : ¬(s.core c.val).ArrivalsFull p.group p.tag) :
    ∃ k1, exec (.multicastDelivery c) s =
        .next (s.setCore c.val (k1.storeAllP (((s.core c.val).mcastPlaces p).getD []) p.payload p.poison)) ∧
      k1 = { s.core c.val with mcIn := rest, arrivals := k1.arrivals, queues := k1.queues } ∧
      (s.core c.val).Counted k1 p.group p.tag (p.taint || p.poison)
        (if ((s.core c.val).mcastPlaces p).isSome then 0 else 1) := by
  obtain ⟨k1, hcount, hframe, hcounted⟩ := Core.countArrival_free (k := { s.core c.val with mcIn := rest }) hfree
    (p.taint || p.poison) (if ((s.core c.val).mcastPlaces p).isSome then 0 else 1)
  refine ⟨k1, ?_, hframe, hcounted⟩
  rw [exec_multicastDelivery]
  unfold execMulticastDelivery
  dsimp only
  rw [hq]
  dsimp only
  have hplaces : (if p.payload.isEmpty then some [] else
    Core.either { s.core c.val with mcIn := rest } p.addr p.payload.length true) = (s.core c.val).mcastPlaces p := rfl
  rw [hplaces, hcount]
  dsimp only
  rw [State.portUse_setCore_off hhz]
  rfl

/-- A counted packet's core: what the stores at some places leave of it. -/
theorem Core.counted_storeAllP {k k1 : Core} {group tag : Nat} {taint : Bool} {status : Nat}
    (h : k.Counted k1 group tag taint status) (as : List Nat) (bs : List Byte) (poison : Bool) :
    k.Counted (k1.storeAllP as bs poison) group tag taint status := by
  have hpad := (Core.padOnly_storeAllP bs poison as k1).eq
  intro a ha
  rw [hpad]
  exact h a ha

/-! ## Requests and answers (R109, R155) -/

theorem exec_remoteRequest_idle (h : (s.core c.val).fenced = true ∨ (s.core c.val).rqIn = []) :
    exec (.remoteRequest c) s = .next s := by
  have hnone : (if (s.core c.val).fenced then [] else (s.core c.val).rqIn) = [] := by
    split
    · rfl
    · next hf => exact h.resolve_left hf
  rw [exec_remoteRequest]
  unfold execRemoteRequest
  dsimp only
  rw [hnone]

section
variable {p : Packet} {rest : List Packet} (hf : (s.core c.val).fenced = false) (hq : (s.core c.val).rqIn = p :: rest)
include hf hq

theorem exec_remoteRequest_refused (hat : (s.core c.val).remoteAt p.inst p.addr p.length = none) :
    exec (.remoteRequest c) s =
      .next ((s.setCore c.val { s.core c.val with rqIn := rest }).inject c.val portL (answerTo p 6 1 [] false)) := by
  rw [exec_remoteRequest]
  unfold execRemoteRequest
  dsimp only
  rw [if_neg (by rw [hf]; exact Bool.false_ne_true), hq]
  dsimp only
  rw [show Core.remoteAt { s.core c.val with rqIn := rest } p.inst p.addr p.length = none from hat]

variable {a : Nat} (hat : (s.core c.val).remoteAt p.inst p.addr p.length = some a) (hhz : s.rd K.hzMode = 0)
include hat hhz

theorem exec_remoteRequest_read (hk : p.kind = 1) : exec (.remoteRequest c) s =
    .next (((s.setCore c.val (Core.readFix { s.core c.val with rqIn := rest } a p.length)).noteUncorr c.val 6
      ((s.core c.val).poisoned a p.length)).inject c.val portL
        (answerTo p 2 0 ((s.core c.val).bytesAt a p.length) (!((s.core c.val).poisoned a p.length).isEmpty))) := by
  rw [exec_remoteRequest]
  unfold execRemoteRequest
  dsimp only
  rw [if_neg (by rw [hf]; exact Bool.false_ne_true), hq]
  dsimp only
  rw [show Core.remoteAt { s.core c.val with rqIn := rest } p.inst p.addr p.length = some a from hat]
  dsimp only
  rw [if_pos hk]
  exact congrArg Host.Outcome.next (State.portUse_off _ _ _ _ _ ((State.rd_noteUncorr _ _ hzMode_not_logKey _ _).trans hhz))

theorem exec_remoteRequest_write (hk : p.kind ≠ 1) : exec (.remoteRequest c) s =
    .next ((s.setCore c.val (Core.storeP { s.core c.val with rqIn := rest } a p.payload p.poison)).inject c.val portL
      (answerTo p 6 0 [] p.poison)) := by
  rw [exec_remoteRequest]
  unfold execRemoteRequest
  dsimp only
  rw [if_neg (by rw [hf]; exact Bool.false_ne_true), hq]
  dsimp only
  rw [show Core.remoteAt { s.core c.val with rqIn := rest } p.inst p.addr p.length = some a from hat]
  dsimp only
  rw [if_neg hk]
  exact congrArg Host.Outcome.next (State.portUse_off _ _ _ _ _ hhz)

end

/-- A request that ends with a completion frees its entry. -/
def Core.requestEnded (k : Core) (y : RqReq) (rid status bytes : Nat) : Core :=
  { k with rqOut := k.rqOut.filter fun r => r.rid != rid }.postWord y.q y.id (complWord y.tag status 2 false bytes)

theorem State.endRequest_some {y : RqReq} {rid : Nat} (h : ((s.core c.val).rqOut.find? fun r => r.rid == rid) = some y)
    (status bytes : Nat) :
    s.endRequest c.val rid status bytes = s.setCore c.val ((s.core c.val).requestEnded y rid status bytes) := by
  unfold State.endRequest
  dsimp only
  rw [h]
  rfl

theorem Core.requestEnded_frame (k : Core) (y : RqReq) (rid status bytes : Nat) : k.requestEnded y rid status bytes =
    { k with rqOut := k.rqOut.filter (fun r => r.rid != rid), queues := (k.requestEnded y rid status bytes).queues } := rfl

theorem find_rid_none {l : List RqReq} {rid : Nat} (h : ∀ y ∈ l, y.rid ≠ rid) : (l.find? fun r => r.rid == rid) = none := by
  simpa [List.find?_eq_none] using h

theorem find_rid_eq {l : List RqReq} {rid : Nat} {y : RqReq} (h : (l.find? fun r => r.rid == rid) = some y) : y.rid = rid :=
  beq_iff_eq.mp (List.find?_some (p := fun r : RqReq => r.rid == rid) h)

section
variable {p : Packet} {rest : List Packet} (hq : (s.core c.val).rqResp = p :: rest)
include hq

theorem exec_remoteResponse_late (h : ∀ y ∈ (s.core c.val).rqOut, y.rid ≠ p.rid) : exec (.remoteResponse c) s =
    .next ((s.setCore c.val { s.core c.val with rqResp := rest }).bump K.lateResponses 64 1) := by
  rw [exec_remoteResponse]
  unfold execRemoteResponse
  dsimp only
  rw [hq]
  dsimp only
  rw [find_rid_none h]

/-- The core that has taken an answer: a read's data are written. -/
def Core.answered (k : Core) (y : RqReq) (p : Packet) (rest : List Packet) : Core :=
  if y.isGet = true ∧ p.status = 0 then Core.storeP { k with rqResp := rest } y.lAddr p.payload p.poison
  else { k with rqResp := rest }

theorem exec_remoteResponse_some {y : RqReq} (hhz : s.rd K.hzMode = 0)
    (h : ((s.core c.val).rqOut.find? fun y => y.rid == p.rid) = some y) :
    ∃ t, exec (.remoteResponse c) s = .next t ∧ s.OnlyCore t c ∧
      t.core c.val = ((s.core c.val).answered y p rest).requestEnded y p.rid
        (if p.status = 0 ∧ p.poison = true then 8 else p.status) (if p.status = 0 then y.length else 0) := by
  obtain ⟨u, hu, honly, hcore⟩ : ∃ u, u = (if y.isGet && p.status == 0 then
      ((s.setCore c.val { s.core c.val with rqResp := rest }).setCore c.val
        (Core.storeP { s.core c.val with rqResp := rest } y.lAddr p.payload p.poison))
      else s.setCore c.val { s.core c.val with rqResp := rest }) ∧ s.OnlyCore u c ∧
      u.core c.val = (s.core c.val).answered y p rest := by
    refine ⟨_, rfl, ?_⟩
    unfold Core.answered
    by_cases hget : y.isGet = true ∧ p.status = 0
    · rw [if_pos (by simpa using hget), if_pos hget]
      exact ⟨(s.onlyCore_set c _).set _, State.core_setCore ..⟩
    · rw [if_neg (by simpa using hget), if_neg hget]
      exact ⟨s.onlyCore_set c _, State.core_setCore ..⟩
  have hfind : ((u.core c.val).rqOut.find? fun r => r.rid == y.rid) = some y := by
    rw [hcore, find_rid_eq h]
    unfold Core.answered
    split
    · rw [(Core.padOnly_storeP ..).eq]
      exact h
    · exact h
  refine ⟨_, ?_, honly.set ((u.core c.val).requestEnded y p.rid (if p.status = 0 ∧ p.poison = true then 8 else p.status)
    (if p.status = 0 then y.length else 0)), (State.core_setCore ..).trans (by rw [hcore])⟩
  rw [exec_remoteResponse]
  unfold execRemoteResponse
  dsimp only
  rw [hq]
  dsimp only
  rw [h]
  dsimp only
  rw [State.portUse_setCore_off (s := s.setCore c.val _) hhz, ← hu, State.endRequest_some hfind, find_rid_eq h]
  simp only [beq_iff_eq, Bool.and_eq_true]

end

/-! ## Timeouts and refusals -/

theorem exec_rqTimeout_some {y : RqReq} {rid : Nat} (h : ((s.core c.val).rqOut.find? fun y => y.rid == rid) = some y) :
    exec (.rqTimeout c (.request rid)) s = .next (s.setCore c.val ((s.core c.val).requestEnded y rid 5 0)) := by
  have hany : (s.core c.val).rqOut.any (fun r => r.rid == rid) = true :=
    List.any_eq_true.mpr ⟨y, List.mem_of_find?_eq_some h, List.find?_some (p := fun r : RqReq => r.rid == rid) h⟩
  rw [exec_rqTimeout]
  unfold execRqTimeout
  dsimp only
  rw [if_pos hany, State.endRequest_some h]

theorem exec_rqTimeout_none {rid : Nat} (h : ∀ y ∈ (s.core c.val).rqOut, y.rid ≠ rid) :
    exec (.rqTimeout c (.request rid)) s = .next s := by
  have hany : ¬(s.core c.val).rqOut.any (fun r => r.rid == rid) = true := by simpa using h
  rw [exec_rqTimeout]
  unfold execRqTimeout
  exact if_neg hany

theorem exec_neighborRefusal_cons {r : Nat × Nat × Nat} {rest : List (Nat × Nat × Nat)} (h : (s.core c.val).nbrComing = r :: rest) :
    exec (.neighborRefusal c) s = .next (s.setCore c.val { s.core c.val with
      nbrComing := rest, nbrArrived := (s.core c.val).nbrArrived ++ [r] }) := by
  rw [exec_neighborRefusal]
  unfold execNeighborRefusal
  rw [State.modCore_eq]
  dsimp only
  rw [h]

/-! ## Candidate packets (R227, R228) -/

section
variable {p : Packet} {rest : List Packet} (hq : (s.core c.val).candIn = p :: rest)
include hq

theorem exec_candidateMerge_full (hfull : (s.core c.val).ArrivalsFull p.group p.tag) : exec (.candidateMerge c) s =
    .next ((s.setCore c.val { s.core c.val with candIn := rest }).bump K.arrivalDrops 64 1) := by
  rw [exec_candidateMerge]
  unfold execCandidateMerge
  dsimp only
  rw [hq]
  dsimp only
  rw [Core.countArrival_full (k := { s.core c.val with candIn := rest }) hfull]

/-- A candidate packet that no merge takes: the core is no selector, or its merge buffer is full of other slots. -/
def Core.dropsCand (k : Core) (p : Packet) : Bool :=
  !k.selector || (!(k.merge.any fun b => b.slot == p.tag) && decide (64 ≤ k.merge.length))

/-- The slot's entry once the packet's candidates are in it. -/
def Core.merged (k : Core) (p : Packet) : CandBuf :=
  { k.mergeOf p.tag with
    cands := candMerge 256 (k.mergeOf p.tag).cands (candsOf p), taint := (k.mergeOf p.tag).taint || p.taint }

theorem exec_candidateMerge_counted (hfree : ¬(s.core c.val).ArrivalsFull p.group p.tag) :
    ∃ k1, k1 = { s.core c.val with candIn := rest, arrivals := k1.arrivals, queues := k1.queues } ∧
      (s.core c.val).Counted k1 p.group p.tag p.taint (if (s.core c.val).dropsCand p then 8 else 0) ∧
      exec (.candidateMerge c) s = .next (if (s.core c.val).dropsCand p then (s.setCore c.val k1).bump K.candDrops 64 1
        else s.setCore c.val { k1 with
          merge := ((s.core c.val).merge.filter fun b => b.slot != p.tag) ++ [(s.core c.val).merged p] }) := by
  obtain ⟨k1, hcount, hframe, hcounted⟩ := Core.countArrival_free (k := { s.core c.val with candIn := rest }) hfree
    p.taint (if (s.core c.val).dropsCand p then 8 else 0)
  have hmerge : k1.merge = (s.core c.val).merge := (congrArg Core.merge hframe :)
  refine ⟨k1, hframe, hcounted, ?_⟩
  rw [exec_candidateMerge]
  unfold execCandidateMerge
  dsimp only
  rw [hq]
  dsimp only
  rw [show (!Core.selector { s.core c.val with candIn := rest } || (!((s.core c.val).merge.any fun b => b.slot == p.tag) &&
    decide (64 ≤ (s.core c.val).merge.length))) = (s.core c.val).dropsCand p from rfl, hcount]
  dsimp only
  have hof : k1.mergeOf p.tag = (s.core c.val).mergeOf p.tag := by
    unfold Core.mergeOf
    rw [hmerge]
  rw [hof, hmerge]
  split <;> rfl

end

end Sys2Proof.Machine
end

section
/-! Deliveries at a core, clause by clause: O33. -/

namespace Sys2Proof.Machine

variable {s : State} {c : CoreId}

/-- What a counted multicast packet leaves of its core. -/
structure Core.McastTaken (k k' : Core) (p : Packet) (rest : List Packet) : Prop where
  frame : k' = { k with
    mcIn := rest, arrivals := k'.arrivals, queues := k'.queues, sp := k'.sp, poison := k'.poison
    spFlip := k'.spFlip, spCorrected := k'.spCorrected }
  empty : p.payload.length = 0 → k.Counted k' p.group p.tag (p.taint || p.poison) 0 ∧ k'.sp = k.sp
  outside : p.payload.length ≠ 0 → k.either p.addr p.payload.length true = none →
    k.Counted k' p.group p.tag (p.taint || p.poison) 1 ∧ k'.sp = k.sp ∧ k'.poison = k.poison
  inside : ∀ ps, p.payload.length ≠ 0 → k.either p.addr p.payload.length true = some ps →
    k.Counted k' p.group p.tag (p.taint || p.poison) 0 ∧ (∀ a ∈ ps, k'.bytesAt a p.payload.length = p.payload) ∧
    (∀ b, (∀ a ∈ ps, b < a ∨ a + p.payload.length ≤ b) → memByte k'.sp b = memByte k.sp b) ∧
    (p.poison = true → ∀ a ∈ ps, ∀ w ∈ wordsOf a p.payload.length, mapGet (fun _ => false) k'.poison w = true)

theorem exec_multicastDelivery_taken {p : Packet} {rest : List Packet} (hhz : s.rd K.hzMode = 0)
    (hq : (s.core c.val).mcIn = p :: rest) (hlen : p.payload.length ≤ 4096)
    (hfree : ¬(s.core c.val).ArrivalsFull p.group p.tag) :
    ∃ t, exec (.multicastDelivery c) s = .next t ∧ s.OnlyCore t c ∧ (s.core c.val).McastTaken (t.core c.val) p rest := by
  obtain ⟨k1, hexec, hframe, hcounted⟩ := exec_multicastDelivery_counted hhz hq hfree
  have hsp : k1.sp = (s.core c.val).sp := (congrArg Core.sp hframe :)
  have hpoison : k1.poison = (s.core c.val).poison := (congrArg Core.poison hframe :)
  refine ⟨_, hexec, s.onlyCore_set c _, ?_⟩
  rw [State.core_setCore]
  refine ⟨?_, fun hn => ?_, fun hn hnone => ?_, fun ps hn hsome => ?_⟩
  · obtain ⟨u, hu⟩ : ∃ u, u = k1.storeAllP (((s.core c.val).mcastPlaces p).getD []) p.payload p.poison := ⟨_, rfl⟩
    have hpad := (Core.padOnly_storeAllP p.payload p.poison (((s.core c.val).mcastPlaces p).getD []) k1).eq
    rw [← hu] at hpad ⊢
    rw [hpad, hframe]
  · have hplaces : (s.core c.val).mcastPlaces p = some [] := if_pos (by simpa using hn)
    rw [hplaces] at hcounted ⊢
    exact ⟨hcounted, hsp⟩
  · have hplaces : (s.core c.val).mcastPlaces p = none := (if_neg (by simpa using hn)).trans hnone
    rw [hplaces] at hcounted ⊢
    exact ⟨hcounted, hsp, hpoison⟩
  · have hplaces : (s.core c.val).mcastPlaces p = some ps := (if_neg (by simpa using hn)).trans hsome
    have hbytes := Core.storeAllP_sp p.payload p.poison ps k1 (s.core c.val) hsp
    rw [hplaces] at hcounted ⊢
    refine ⟨Core.counted_storeAllP hcounted _ _ _, fun a ha => bytesAt_eq_of_bytes fun j hj => ?_, fun b hb => ?_,
      fun hp a ha w hw => ?_⟩
    · refine (congrArg (memByte · (a + j)) hbytes).trans ?_
      exact memByte_storeAll_inside hj _ _ ha (either_apart hsome (by omega))
    · refine (congrArg (memByte · b) hbytes).trans ?_
      exact memByte_storeAll_outside _ _ hb
    · rw [hp]
      exact Core.poison_storeAllP ps k1 (.inl ⟨a, ha, hw⟩)

/-- A core change and one packet into its router. -/
theorem State.onlyCoreAndPackets_setCore (s : State) (c : CoreId) (k : Core) (p : Packet) :
    s.OnlyCoreAndPackets ((s.setCore c.val k).inject c.val portL p) c [p] :=
  (s.onlyCore_set c k).toPackets.trans (State.onlyCoreAndPackets_one _ c p)

/-- What a served read leaves. -/
structure State.ReadServed (s t : State) (c : CoreId) (k : Core) (a n : Nat) (pk : Packet) : Prop where
  only : s.OnlyCorePacketsAndLog t c [pk]
  clean : (s.core c.val).poisoned a n = [] → s.OnlyCoreAndPackets t c [pk] ∧ t.core c.val = k.readFix a n
  uncorr : (s.core c.val).poisoned a n ≠ [] →
    (t.core c.val).spUncorr = (k.spUncorr + ((s.core c.val).poisoned a n).length) % 2 ^ 64
  sp : (t.core c.val).sp = k.sp
  rqIn : (t.core c.val).rqIn = k.rqIn

theorem State.readServed (s : State) (c : CoreId) (k : Core) (a n : Nat) (pk : Packet) :
    s.ReadServed (((s.setCore c.val (k.readFix a n)).noteUncorr c.val 6 ((s.core c.val).poisoned a n)).inject c.val portL pk)
      c k a n pk := by
  have hset := s.onlyCore_set c (k.readFix a n)
  have hcore : (s.setCore c.val (k.readFix a n)).core c.val = k.readFix a n := State.core_setCore ..
  have hnote := State.core_noteUncorr_only c.val 6 ((s.core c.val).poisoned a n) (s.setCore c.val (k.readFix a n))
  rw [hcore] at hnote
  refine ⟨?_, fun hclean => ?_, fun hbad => ?_, ?_, ?_⟩
  · exact (hset.toLog.trans (State.noteUncorr_onlyCoreAndLog c 6 _ _)).toPackets.trans
      (State.onlyCoreAndPackets_one _ c pk).toLog
  · rw [hclean, State.noteUncorr_nil]
    exact ⟨s.onlyCoreAndPackets_setCore c _ _, hcore⟩
  · refine (State.spUncorr_noteUncorr _ c.val 6 hbad).trans ?_
    rw [hcore, Core.readFix_spUncorr]
  · refine (congrArg Core.sp hnote.eq).trans ?_
    exact Core.readFix_sp ..
  · refine (congrArg Core.rqIn hnote.eq).trans ?_
    exact (congrArg Core.rqIn (k.readFix_frame a n) :)

theorem Core.padOnly_answered (k : Core) (y : RqReq) (p : Packet) (rest : List Packet) :
    Core.PadOnly { k with rqResp := rest } (k.answered y p rest) := by
  unfold Core.answered
  split
  · exact Core.padOnly_storeP ..
  · exact .refl _

theorem Core.queue_answered (k : Core) (y : RqReq) (p : Packet) (rest : List Packet) (q : Nat) :
    (k.answered y p rest).queue q = k.queue q := by
  rw [(k.padOnly_answered y p rest).eq]
  rfl

theorem Core.slot_mergeOf (k : Core) (slot : Nat) : (k.mergeOf slot).slot = slot := by
  unfold Core.mergeOf
  cases h : k.merge.find? fun b => b.slot == slot with
  | none => rfl
  | some b => exact beq_iff_eq.mp (List.find?_some (p := fun b : CandBuf => b.slot == slot) h)

/-- Settles O33. -/
theorem deliveriesAtCore : Obligations.DeliveriesAtCore := by
  intro s c hhz k Full Counted Drops
  refine ⟨fun h => ?noMulticast, fun p rest hq hlen => ⟨fun hfull => ?mcastFull, fun hfree => ?mcast⟩,
    exec_remoteRequest_idle, fun p rest hf hq => ⟨fun hat => ?refused, fun a hat => ⟨fun hk => ?read, fun hk => ?write⟩⟩,
    fun h => ?noAnswer, fun p rest hq => ⟨fun hlate => ?late, fun y hy => ?answer⟩,
    fun rid => ⟨fun y hy => ?timeout, exec_rqTimeout_none⟩, fun r rest hq => ?refusal, fun h => ?noCandidates,
    fun p rest hq => ⟨fun hfull => ?candFull, fun hfree hdrop => ?candDropped, fun hfree hkeep => ?merged⟩⟩
  case noMulticast =>
    rw [exec_multicastDelivery]
    unfold execMulticastDelivery
    dsimp only
    rw [show (s.core c.val).mcIn = [] from h]
  case mcastFull => exact ⟨_, exec_multicastDelivery_full hq hfull, s.drops_bump c _ _⟩
  case mcast =>
    obtain ⟨t, hexec, honly, htaken⟩ := exec_multicastDelivery_taken hhz hq hlen hfree
    exact ⟨t, hexec, honly, htaken.frame, htaken.empty, htaken.outside, htaken.inside⟩
  case refused =>
    exact ⟨_, _, exec_remoteRequest_refused hf hq hat, s.onlyCoreAndPackets_setCore c _ _, rfl, rfl,
      ⟨rfl, rfl, rfl, rfl, rfl⟩, State.core_setCore ..⟩
  case read =>
    have h := s.readServed c { k with rqIn := rest } a p.length
      (answerTo p 2 0 (k.bytesAt a p.length) (!(k.poisoned a p.length).isEmpty))
    exact ⟨_, _, exec_remoteRequest_read hf hq hat hhz hk, h.only, rfl, rfl, ⟨rfl, rfl, rfl, rfl, rfl⟩, rfl, rfl, h.clean,
      h.uncorr, h.sp, h.rqIn⟩
  case write =>
    have hpad := Core.padOnly_storeP { k with rqIn := rest } a p.payload p.poison
    have hsp := Core.storeP_sp { k with rqIn := rest } a p.payload p.poison
    refine ⟨_, _, exec_remoteRequest_write hf hq hat hhz hk, s.onlyCoreAndPackets_setCore c _ _, rfl, rfl,
      ⟨rfl, rfl, rfl, rfl, rfl⟩, ?_⟩
    rw [State.core_inject, State.core_setCore]
    refine ⟨?_, fun b hb => ?_, hpad.eq⟩
    · unfold Core.bytesAt
      rw [hsp]
      exact memRead_memWrite_same ..
    · rw [hsp]
      exact memByte_write_outside b p.payload _ a hb
  case noAnswer =>
    rw [exec_remoteResponse]
    unfold execRemoteResponse
    dsimp only
    rw [show (s.core c.val).rqResp = [] from h]
  case late => exact ⟨_, exec_remoteResponse_late hq hlate, s.drops_bump c _ _⟩
  case answer =>
    intro ok
    obtain ⟨t, hexec, honly, hcore⟩ := exec_remoteResponse_some hq hhz hy
    refine ⟨t, hexec, honly, ?_⟩
    rw [hcore]
    refine ⟨?_, fun q hq' => ?_, fun hget hok => ?_, fun hno => ?_, ?_⟩
    · refine (Core.queue_postWord_self ..).trans ?_
      exact congrArg _ (k.queue_answered y p rest y.q)
    · exact (Core.queue_postWord_ne _ hq' ..).trans (k.queue_answered y p rest q)
    · have hans : k.answered y p rest = Core.storeP { k with rqResp := rest } y.lAddr p.payload p.poison :=
        if_pos ⟨hget, hok⟩
      have hsp : (k.answered y p rest).sp = memWrite k.sp y.lAddr p.payload := by
        rw [hans, Core.storeP_sp]
      refine ⟨?_, fun b hb => ?_⟩
      · refine (congrArg (memRead · y.lAddr p.payload.length) hsp).trans ?_
        exact memRead_memWrite_same ..
      · refine (congrArg (memByte · b) hsp).trans ?_
        exact memByte_write_outside b p.payload _ y.lAddr hb
    · have hans : k.answered y p rest = { k with rqResp := rest } := if_neg fun h => hno.elim (by simp [h.1]) (· h.2)
      exact (congrArg Core.sp hans :)
    · refine (Core.requestEnded_frame ..).trans ?_
      rw [(k.padOnly_answered y p rest).eq]
      rfl
  case timeout =>
    refine ⟨_, exec_rqTimeout_some hy, s.onlyCore_set c _, ?_, ?_⟩
    · rw [State.core_setCore]
      rfl
    · rw [State.core_setCore]
      exact Core.queue_postWord_self ..
  case refusal => exact ⟨_, exec_neighborRefusal_cons hq, s.onlyCore_set c _, State.core_setCore ..⟩
  case noCandidates =>
    rw [exec_candidateMerge]
    unfold execCandidateMerge
    dsimp only
    rw [show (s.core c.val).candIn = [] from h]
  case candFull => exact ⟨_, exec_candidateMerge_full hq hfull, s.drops_bump c _ _⟩
  case candDropped =>
    obtain ⟨k1, hframe, hcounted, hexec⟩ := exec_candidateMerge_counted hq hfree
    have hd : k.dropsCand p = true := by
      unfold Core.dropsCand
      rcases hdrop with h | ⟨h, h'⟩
      · rw [show k.selector = false from h]; rfl
      · rw [show (k.merge.any fun b => b.slot == p.tag) = false from h, decide_eq_true h', Bool.not_false, Bool.and_true,
          Bool.or_true]
    rw [if_pos hd] at hcounted hexec
    refine ⟨k1, ⟨_, hexec, s.drops_bump c _ _⟩, hcounted, ?_⟩
    rw [hframe]
  case merged =>
    obtain ⟨k1, hframe, hcounted, hexec⟩ := exec_candidateMerge_counted hq hfree
    have hd : ¬k.dropsCand p = true := by
      unfold Core.dropsCand
      intro h
      rw [Bool.or_eq_true, Bool.and_eq_true, decide_eq_true_eq, Bool.not_eq_true', Bool.not_eq_true'] at h
      exact hkeep h
    rw [if_neg hd] at hcounted hexec
    refine ⟨_, k.merged p, hexec, s.onlyCore_set c _, ?_⟩
    rw [State.core_setCore]
    refine ⟨hcounted, ?_, rfl, rfl, List.length_take_le _ _, ?_⟩
    · exact Core.slot_mergeOf k p.tag
    · rw [hframe]

end Sys2Proof.Machine
end

section
/-! The end of a trapped instance's drain, and the overdue tack (R178, R179): O36. -/

namespace Sys2Proof.Machine

/-! ## Cores that have not reached their tack (R178 code 0x0D) -/

/-- The trap of one core that is overdue. -/
def State.overdue (s : State) (c : Nat) : State :=
  s.trap c { code := 0xD } (s.core c).pc (bits (mapGet (fun _ => 0) (s.core c).istore (s.core c).pc) 63 56)

/-- A core as its overdue trap leaves it. -/
def Core.overdue (k : Core) : Core := { k with run := .trapped, trapCode := 0x0D, trapStatus := 0 }

theorem State.core_overdue (s : State) (c d : Nat) :
    (s.overdue c).core d = if d = c then (s.core c).overdue else s.core d := by
  by_cases h : d = c
  · rw [if_pos h, h]
    exact State.trap_core ..
  · rw [if_neg h]
    exact State.trap_core_ne _ _ _ _ _ _ h

theorem State.rd_trap_ne (s : State) (c : Nat) (t : TrapInfo) (pc op : Nat) {key : Nat} (hlog : key ∉ logKeys)
    (hne : key ≠ K.traps) : (s.trap c t pc op).rd key = s.rd key := by
  unfold State.trap
  dsimp only
  split
  · rw [State.logDev_rd _ _ _ hlog]
    exact State.rd_wr_ne _ _ _ _ hne
  · rw [State.logDev_rd _ _ _ hlog]
    exact State.rd_wr_ne _ _ _ _ hne

/-- The instance has stopped for a trap of fault class. -/
def Inst.Faulting (x : Inst) : Prop := x.halted = true ∧ x.trapped = true ∧ x.trapFault = true

theorem State.overdue_faulting {s : State} {c : Nat} {i : InstId}
    (h : (s.core c).inst = some i ∨ (s.inst i.val).Faulting) : ((s.overdue c).inst i.val).Faulting := by
  unfold State.overdue
  cases hi : (s.core c).inst with
  | none =>
    have hkeep : ((s.overdue c).inst i.val) = s.inst i.val := by
      unfold State.overdue State.trap
      dsimp only
      rw [hi]
      exact State.logDev_inst ..
    have hfault := h.resolve_left (by rw [hi]; exact nofun)
    rw [← hkeep] at hfault
    exact hfault
  | some j =>
    by_cases hj : i.val = j.val
    · rw [hj, State.trap_inst _ _ _ _ _ _ hi]
      exact ⟨rfl, rfl, Bool.or_true _⟩
    · rw [State.trap_inst_ne _ _ _ _ _ hi hj]
      refine h.resolve_left fun hsome => hj ?_
      rw [hi] at hsome
      rw [Option.some.inj hsome]

section
variable (late : List Nat) (s : State)

theorem State.trapOnly_allOverdue : s.TrapOnly (s.each late State.overdue) :=
  State.each_rel .refl .trans (fun s c => s.trap_only c ..) late s

theorem State.core_allOverdue (d : Nat) :
    (s.each late State.overdue).core d = if d ∈ late then (s.core d).overdue else s.core d := by
  induction late generalizing s with
  | nil => rw [if_neg List.not_mem_nil]; rfl
  | cons c late ih =>
    refine (ih (s.overdue c)).trans ?_
    rw [State.core_overdue]
    by_cases hd : d = c
    · subst hd
      rw [if_pos rfl, if_pos List.mem_cons_self]
      split <;> rfl
    · rw [if_neg hd]
      simp only [List.mem_cons, hd, false_or]

theorem State.traps_allOverdue (h : s.rd K.traps < 2 ^ 64 ∨ late ≠ []) :
    (s.each late State.overdue).rd K.traps = (s.rd K.traps + late.length) % 2 ^ 64 := by
  induction late generalizing s with
  | nil => exact (Nat.mod_eq_of_lt (h.resolve_right fun h => h rfl)).symm
  | cons c late ih =>
    have hone : (s.overdue c).rd K.traps = (s.rd K.traps + 1) % 2 ^ 64 := State.trap_count ..
    refine (ih (s.overdue c) (.inl ?_)).trans ?_
    · rw [hone]
      exact Nat.mod_lt _ (by decide)
    · rw [hone, List.length_cons]
      omega

theorem State.rd_allOverdue {key : Nat} (hlog : key ∉ logKeys) (hne : key ≠ K.traps) :
    (s.each late State.overdue).rd key = s.rd key :=
  State.each_rel (R := fun a b : State => b.rd key = a.rd key) (fun _ => rfl) (fun h h' => h'.trans h)
    (fun s c => s.rd_trap_ne c _ _ _ hlog hne) late s

theorem State.faulting_allOverdue {i : InstId} (h : (∃ c ∈ late, (s.core c).inst = some i) ∨ (s.inst i.val).Faulting) :
    ((s.each late State.overdue).inst i.val).Faulting := by
  induction late generalizing s with
  | nil => exact h.resolve_left fun ⟨_, hc, _⟩ => by cases hc
  | cons c late ih =>
    refine ih (s.overdue c) ?_
    rcases h with ⟨d, hd, hi⟩ | h
    · rcases List.mem_cons.mp hd with rfl | hd
      · exact .inr (State.overdue_faulting (.inl hi))
      · refine .inl ⟨d, hd, ?_⟩
        rw [State.core_overdue]
        split
        · next hdc => rw [← hdc]; exact hi
        · exact hi
    · exact .inr (State.overdue_faulting (.inr h))

end

/-! ## The end of a drain (R179) -/

section
variable {s : State} {i : InstId}

/-- The instance with its traps answered. -/
def State.trapsAnswered (s : State) (i : Nat) : State :=
  s.setInst i { s.inst i with trapped := false, trapFault := false }

theorem exec_trapDrainEnd_ended (ht : (s.inst i.val).trapped = true) (hd : s.drained i.val = true) :
    exec (.trapDrainEnd i) s = .next (if (s.inst i.val).trapFault then (s.trapsAnswered i.val).instFault i.val 1
      else (s.trapsAnswered i.val).setInst i.val { (s.trapsAnswered i.val).inst i.val with
        restartDue := true,
        abandoned := ((s.trapsAnswered i.val).inst i.val).abandoned || ((s.trapsAnswered i.val).inst i.val).stepOn }) := by
  rw [exec_trapDrainEnd]
  unfold execTrapDrainEnd
  exact if_neg (by simp [ht, hd])

end

/-- Settles O36. -/
theorem trapDrainDecidesAndTackOverdueTraps : Obligations.TrapDrainDecidesAndTackOverdueTraps := by
  intro s i x
  have hans : (s.trapsAnswered i.val).inst i.val = { x with trapped := false, trapFault := false } := State.inst_setInst ..
  have hothers : ∀ j, j ≠ i.val → (s.trapsAnswered i.val).inst j = s.inst j := fun j hj => State.inst_setInst_ne _ _ _ _ hj
  refine ⟨fun h => ?notEnded, fun ht hd hfault hready => ?faults, fun ht hd hfault hready => ?notReady,
    fun ht hd hfault => ?restarts, fun h => ?leftAlone, fun hready hhalt => ?overdue⟩
  case notEnded =>
    rw [exec_trapDrainEnd]
    unfold execTrapDrainEnd
    refine if_pos ?_
    rcases h with h | h
    · rw [show (s.inst i.val).trapped = false from h]; rfl
    · rw [h, Bool.not_false, Bool.or_true]
  case faults =>
    have hexec := (exec_trapDrainEnd_ended ht hd).trans (congrArg Host.Outcome.next (if_pos hfault))
    have hans' : (s.trapsAnswered i.val).ready i.val = true := (State.ready_congr rfl).trans hready
    refine ⟨_, hexec, State.instFault_state hans' 1, State.instFault_code hans' 1, ?_, fun j hj => ?_,
      fun key hlog hstate hcode => ?_, ?_⟩
    · rw [State.instFault_inst, if_pos ⟨rfl, hans'⟩, hans]
    · rw [State.instFault_inst, if_neg fun h => hj h.1, hothers j hj]
    · exact State.instFault_rd _ i.val 1 hlog hstate hcode
    · rw [(State.faultOnly_instFault (s.trapsAnswered i.val) i.val 1).eq]
      rfl
  case notReady =>
    have hexec := (exec_trapDrainEnd_ended ht hd).trans (congrArg Host.Outcome.next (if_pos hfault))
    have hkeep : (s.trapsAnswered i.val).instFault i.val 1 = s.trapsAnswered i.val :=
      if_neg (by rw [show (s.trapsAnswered i.val).ready i.val = false from hready]; exact Bool.false_ne_true)
    rw [hkeep] at hexec
    exact ⟨_, hexec, rfl, hans, hothers⟩
  case restarts =>
    have hexec := (exec_trapDrainEnd_ended ht hd).trans (congrArg Host.Outcome.next (if_neg (by simp [show
      (s.inst i.val).trapFault = false from hfault])))
    refine ⟨_, hexec, rfl, ?_, fun j hj => (State.inst_setInst_ne _ _ _ _ hj).trans (hothers j hj)⟩
    rw [State.inst_setInst, hans]
  case leftAlone =>
    rw [exec_tackOverdue]
    unfold execTackOverdue
    refine if_pos ?_
    rcases h with h | h
    · rw [h]; rfl
    · rw [show (s.inst i.val).halted = true from h, Bool.or_true]
  case overdue =>
    intro late
    have hexec : exec (.tackOverdue i) s = .next (s.each late State.overdue) := by
      rw [exec_tackOverdue]
      unfold execTackOverdue
      exact if_neg (by simp [hready, show (s.inst i.val).halted = false from hhalt])
    refine ⟨_, hexec, (s.trapOnly_allOverdue late).eq, fun c hc => ?_, fun d hd => ?_, fun hnil => ?_, fun hne => ?_,
      fun c hc hi => ?_, fun key hlog hne => ?_⟩
    · rw [State.core_allOverdue, if_pos hc]
      rfl
    · rw [State.core_allOverdue, if_neg hd]
    · rw [hnil]
      rfl
    · exact State.traps_allOverdue late s (.inr hne)
    · exact State.faulting_allOverdue late s (.inl ⟨c, hc, hi⟩)
    · exact State.rd_allOverdue late s hlog hne

end Sys2Proof.Machine
end

section
/-! Resets of the compute fabric and CLEAR_FAULT (R346, R460-R464): O37. -/

namespace Sys2Proof.Machine

/-! ## Management records (R415) -/

/-- A record's code stands in its low 16 bits. -/
theorem mgRecord_code (code slot arg0 arg1 : Nat) :
    pack [(code, 0), (slot, 16), (arg0 % 2 ^ 32, 32), (arg1 % 2 ^ 64, 64)] % 2 ^ 16 = code % 2 ^ 16 := by
  unfold pack
  rw [List.foldl_cons, pack_fold_mod 16 _ _ (by simp)]
  simp

/-- A management record stands first in the log. -/
theorem State.log_logMg (s : State) (inst code cls cause slot arg0 arg1 : Nat) : ∃ y : LogEntry, y.source = 1 ∧
    y.inst = inst ∧ y.cls = cls ∧ y.record % 2 ^ 16 = code % 2 ^ 16 ∧
    y.record = pack [(code, 0), (slot, 16), (arg0 % 2 ^ 32, 32), (arg1 % 2 ^ 64, 64)] ∧
    (s.logMg inst code cls cause slot arg0 arg1).log = y :: s.log.take 65535 := by
  refine ⟨⟨s.time, s.rd K.logHead + 1, 1, inst, cls, if cls = 2 then cause else 0,
    pack [(code, 0), (slot, 16), (arg0 % 2 ^ 32, 32), (arg1 % 2 ^ 64, 64)]⟩, rfl, rfl, rfl, mgRecord_code .., rfl, ?_⟩
  unfold State.logMg State.logEntry
  dsimp only
  split_ifs <;> simp

/-! ## The end of a reset -/

variable {s : State}

theorem State.log_resetDone (s : State) (inst : Nat) : ∃ y : LogEntry, y.source = 1 ∧
    y.inst = (if inst = 0xFF then noInst else inst) ∧ y.record % 2 ^ 16 = 0x2003 ∧
    (s.resetDone inst).log = y :: s.log.take 65535 := by
  obtain ⟨y, hsource, hinst, -, hcode, -, hlog⟩ :=
    s.freeStep.log_logMg (if inst = 0xFF then noInst else inst) 0x2003 0 0 noSlot s.free.toNat inst
  exact ⟨y, hsource, hinst, hcode, hlog⟩

theorem State.rd_resetDone (s : State) (inst : Nat) {key : Nat} (h : key ∉ logKeys) : (s.resetDone inst).rd key = s.rd key :=
  State.logMg_rd s.freeStep _ _ _ _ _ _ _ h

/-- A compute reset ends in Ready, with its cause and its event. -/
theorem State.computeReset_ends (s : State) (rs : List MuslinResult) (ps : List Nat) :
    (s.computeReset rs ps).rd K.devState = 2 ∧ (s.computeReset rs ps).rd K.lastReset = 4 ∧
      ∃ e l, (s.computeReset rs ps).log = e :: l ∧ e.record % 2 ^ 16 = 0x2003 ∧ e.source = 1 := by
  have hdev : K.devState ∉ logKeys := by decide
  have hlast : K.lastReset ∉ logKeys := by decide
  unfold State.computeReset
  dsimp only
  generalize State.resetPanels _ (List.range 12) (List.range 12) rs = u
  refine ⟨?_, ?_, ?_⟩
  · rw [State.rd_resetDone _ _ hdev]
    exact (State.rd_wr_ne _ _ _ _ (by decide)).trans ((State.rd_wr_ne _ _ _ _ (by decide)).trans (State.rd_wr ..))
  · rw [State.rd_resetDone _ _ hlast]
    exact State.rd_wr ..
  · obtain ⟨y, hsource, -, hcode, hlog⟩ := State.log_resetDone (((u.wr K.devState 2).bump K.computeResets 32 1).wr K.lastReset 4) 0xFF
    exact ⟨y, _, hlog, hcode, hsource⟩

/-- Settles O37. -/
theorem resetsOfComputeFabric : Obligations.ResetsOfComputeFabric := by
  intro s i rs ps p b Resets
  refine ⟨fun hready => ⟨?whole, ?panel⟩, fun h => ?inProgress, fun h h' => ?early, fun h => ?panelEarly,
    fun hbusy hstate hcode => ?cleared, fun hbusy => ?busy, fun hbusy h => ?refused⟩
  case whole =>
    obtain ⟨hdev, hlast, e, l, hlog⟩ := (s.wr K.resetResult 0).computeReset_ends rs (ps.map (·.val))
    refine ⟨_, e, l, ?_, hdev, hlast, hlog⟩
    rw [exec_computeReset]
    unfold execComputeReset
    exact (if_neg (by rw [hready]; decide)).trans (if_neg (not_not.mpr hready))
  case panel =>
    obtain ⟨hdev, hlast, e, l, hlog⟩ := s.computeReset_ends rs (if b then [p.val] else [])
    refine ⟨_, e, l, ?_, hdev, hlast, hlog⟩
    rw [exec_panelControllerFault]
    exact if_neg (not_not.mpr hready)
  case inProgress =>
    rw [exec_computeReset]
    exact if_pos h
  case early =>
    rw [exec_computeReset]
    exact (if_neg h').trans (if_pos h)
  case panelEarly =>
    rw [exec_panelControllerFault]
    exact if_pos h
  case cleared =>
    obtain ⟨y, -, hinst, hcode', hlog⟩ :=
      ((s.instResult i 0).resetPanels ((s.instResult i 0).inst i).panels [i.val] rs).log_resetDone i.val
    refine ⟨_, y, _, ?_, hlog, hcode', hinst.trans (if_neg (by omega))⟩
    rw [exec_clearFault]
    unfold execClearFault
    exact (if_neg (by simp [hbusy])).trans (if_neg (by simp [hstate, hcode]))
  case busy =>
    rw [exec_clearFault]
    exact if_pos hbusy
  case refused =>
    rw [exec_clearFault]
    exact (if_neg (by simp [hbusy])).trans (if_pos h)

end Sys2Proof.Machine
end

section
/-! What a transfer leaves of every core's channels, queues and registers (R118-R120, R267): the rules behind O38. -/

namespace Sys2Proof.Machine

/-- A core's channels, queues, scalar registers and program counter are as before. -/
structure Core.ChanKept (k k' : Core) : Prop where
  dma : k'.dma = k.dma
  queues : k'.queues = k.queues
  regs : k'.regs = k.regs
  pc : k'.pc = k.pc

theorem Core.ChanKept.refl (k : Core) : k.ChanKept k := ⟨rfl, rfl, rfl, rfl⟩

theorem Core.ChanKept.trans {a b c : Core} (h : a.ChanKept b) (h' : b.ChanKept c) : a.ChanKept c :=
  ⟨h'.dma.trans h.dma, h'.queues.trans h.queues, h'.regs.trans h.regs, h'.pc.trans h.pc⟩

/-- What bytes on the move may touch: no core's channels, and no count of completion timeouts. -/
structure State.Moved (s t : State) : Prop where
  core : ∀ d, (s.core d).ChanKept (t.core d)
  timeouts : ∀ p, t.rd (K.cplTimeouts p) = s.rd (K.cplTimeouts p)

theorem State.Moved.refl (s : State) : s.Moved s := ⟨fun _ => .refl _, fun _ => rfl⟩

theorem State.Moved.trans {s t u : State} (h : s.Moved t) (h' : t.Moved u) : s.Moved u :=
  ⟨fun d => (h.core d).trans (h'.core d), fun p => (h'.timeouts p).trans (h.timeouts p)⟩

theorem State.Moved.ite {s a b : State} {p : Prop} [Decidable p] (ha : s.Moved a) (hb : s.Moved b) :
    s.Moved (if p then a else b) := by
  split
  · exact ha
  · exact hb

theorem State.Moved.each {α : Type} {s : State} (l : List α) {f : State → α → State} (h : ∀ s x, State.Moved s (f s x)) :
    s.Moved (s.each l f) := State.each_rel (R := State.Moved) .refl .trans h l s

/-! ## The state's operations -/

theorem State.moved_of_eq {s t : State} (hc : t.cores = s.cores) (hd : t.dict = s.dict) : s.Moved t := by
  refine ⟨fun d => ?_, fun p => congrArg (fun m => mapGet dictDefault m _) hd⟩
  rw [show t.core d = s.core d from congrArg (fun m => mapGet (fun _ => ({} : Core)) m d) hc]
  exact .refl _

theorem State.moved_setCore (s : State) (c : Nat) {k : Core} (h : (s.core c).ChanKept k) : s.Moved (s.setCore c k) := by
  refine ⟨fun d => ?_, fun _ => rfl⟩
  rw [State.core_setCore_if]
  split
  · next hd => rw [hd]; exact h
  · exact .refl _

/-- A later change of a core, told against the state before. -/
theorem State.Moved.setCore {s t : State} (h : s.Moved t) (c : Nat) {k : Core} (hk : (s.core c).ChanKept k) :
    s.Moved (t.setCore c k) := by
  refine ⟨fun d => ?_, h.timeouts⟩
  rw [State.core_setCore_if]
  split
  · next hd => rw [hd]; exact hk
  · exact h.core d

theorem State.moved_wr (s : State) {key : Nat} (v : Nat) (h : ∀ p, K.cplTimeouts p ≠ key) : s.Moved (s.wr key v) :=
  ⟨fun _ => .refl _, fun p => State.rd_wr_ne _ _ _ _ (h p)⟩

theorem State.moved_bump (s : State) {key : Nat} (w n : Nat) (h : ∀ p, K.cplTimeouts p ≠ key) : s.Moved (s.bump key w n) :=
  s.moved_wr _ h

theorem cplTimeouts_not_logKey (p : Nat) : K.cplTimeouts p ∉ logKeys :=
  not_logKey (by unfold K.cplTimeouts; omega)

theorem State.moved_logDev (s : State) (i r : Nat) : s.Moved (s.logDev i r) := by
  refine ⟨fun d => ?_, fun p => State.logDev_rd _ _ _ (cplTimeouts_not_logKey p)⟩
  rw [State.logDev_core]
  exact .refl _

theorem State.moved_setInst (s : State) (i : Nat) (x : Inst) : s.Moved (s.setInst i x) := State.moved_of_eq rfl rfl

theorem State.moved_trap (s : State) (c : Nat) (t : TrapInfo) (pc op : Nat) : s.Moved (s.trap c t pc op) := by
  refine ⟨fun d => ?_, fun p => s.rd_trap_ne c t pc op (cplTimeouts_not_logKey p) (by unfold K.cplTimeouts K.traps; omega)⟩
  by_cases hd : d = c
  · rw [hd, State.trap_core]
    exact ⟨rfl, rfl, rfl, rfl⟩
  · rw [State.trap_core_ne _ _ _ _ _ _ hd]
    exact .refl _

/-! ## The hazard detector -/

theorem State.moved_recordHz (s : State) (c op pc : Nat) (t : TrapInfo) : s.Moved (s.recordHz c op pc t) := by
  have hcount : s.Moved (s.bump K.hzCount 64 1) := s.moved_bump _ _ fun p => by unfold K.cplTimeouts K.hzCount; omega
  have hseen : s.Moved ((s.bump K.hzCount 64 1).freeStep.setCore c { s.core c with hzSeen := t.code :: (s.core c).hzSeen }) :=
    (hcount.trans (u := (s.bump K.hzCount 64 1).freeStep) (State.moved_of_eq rfl rfl)).setCore c
      ⟨rfl, rfl, rfl, rfl⟩
  unfold State.recordHz
  refine State.Moved.ite hcount (State.Moved.ite (hseen.trans ?_) (hseen.trans (State.moved_logDev ..)))
  exact State.moved_bump _ _ _ fun p => by unfold K.cplTimeouts K.hzLost; omega

theorem State.moved_hazards (s : State) (c op pc : Nat) (accs : List Access) (l : List TrapInfo) :
    s.Moved (s.hazards c op pc accs l) := by
  unfold State.hazards
  refine State.Moved.ite (.refl s) ?_
  have hfree : s.Moved { s with freeNext := s.freeNext + 2 * accs.length } := State.moved_of_eq rfl rfl
  exact (hfree.trans (.each l fun s t => s.moved_recordHz c op pc t)).trans (State.moved_setCore _ c ⟨rfl, rfl, rfl, rfl⟩)

theorem State.moved_portUse (s : State) (c : Nat) (own : Option (Nat × Nat)) (pc : Nat) (accs : List Access) :
    s.Moved (s.portUse c own pc accs) := by
  unfold State.portUse
  dsimp only
  split
  · exact State.Moved.ite ((State.moved_hazards ..).trans (State.moved_trap ..)) (State.moved_hazards ..)
  · exact State.moved_hazards ..

/-! ## The scratchpads -/

theorem Core.PadOnly.chan {k k' : Core} (h : k.PadOnly k') : k.ChanKept k' := by
  rw [h.eq]
  exact ⟨rfl, rfl, rfl, rfl⟩

theorem State.moved_fixRead (s : State) (c a n : Nat) : s.Moved (s.fixRead c a n) := by
  unfold State.fixRead
  exact State.Moved.ite (.refl s) (s.moved_setCore c (Core.padOnly_readFix ..).chan)

theorem State.moved_noteUncorr (s : State) (c port : Nat) (ws : List Nat) : s.Moved (s.noteUncorr c port ws) :=
  .each ws fun s _ => (s.moved_setCore c (by exact ⟨rfl, rfl, rfl, rfl⟩)).trans (State.moved_logDev ..)

theorem Core.padOnly_storeBad (k : Core) (a : Nat) (bs : List Byte) (bad : List Nat) : k.PadOnly (k.storeBad a bs bad) :=
  (k.padOnly_store a bs).trans rfl

theorem Core.sp_storeBad (k : Core) (a : Nat) (bs : List Byte) (bad : List Nat) :
    (k.storeBad a bs bad).sp = memWrite k.sp a bs := Core.store_sp ..

/-- A transfer's bytes stored at several places. -/
def Core.storeAllBad (k : Core) (l : List Nat) (bs : List Byte) (bad : List Nat) : Core :=
  l.foldl (fun k a => k.storeBad a bs bad) k

theorem Core.padOnly_storeAllBad (bs : List Byte) (bad : List Nat) : ∀ (l : List Nat) (k : Core),
    k.PadOnly (k.storeAllBad l bs bad)
  | [], k => .refl k
  | a :: l, k => (k.padOnly_storeBad a bs bad).trans (Core.padOnly_storeAllBad bs bad l _)

theorem Core.sp_storeAllBad (bs : List Byte) (bad : List Nat) : ∀ (l : List Nat) (k k' : Core), k.sp = k'.sp →
    (k.storeAllBad l bs bad).sp = (k'.storeAll l bs).sp
  | [], _, _, h => h
  | a :: l, k, k', h => Core.sp_storeAllBad bs bad l _ _ ((k.sp_storeBad a bs bad).trans (by rw [Core.store_sp, h]))

theorem State.moved_dmaStore (s : State) (c : Nat) (own : Option (Nat × Nat)) (l : List Nat) (bs : List Byte) (bad : List Nat) :
    s.Moved (s.dmaStore c own l bs bad) :=
  (s.moved_setCore c (Core.padOnly_storeAllBad bs bad l _).chan).trans (State.moved_portUse ..)

/-! ## The HBM stacks, host memory and the seams -/

theorem State.moved_hbmFound (s : State) (i a n : Nat) : s.Moved (s.hbmFound i a n) := by
  refine .each _ fun s w => State.Moved.ite (.refl s) ?_
  have herr : ∀ m, s.Moved { s with hbmErr := m } := fun m => State.moved_of_eq rfl rfl
  refine (herr _).trans (State.moved_bump _ _ _ fun p => ?_)
  unfold K.cplTimeouts K.eccCorrected K.eccUncorrectable
  split <;> omega

theorem State.moved_hostError (s : State) (port : Nat) : s.Moved (s.hostError port) :=
  s.moved_bump _ _ fun p => by unfold K.cplTimeouts K.hostErrors; omega

theorem State.moved_hostWrite (s : State) (r : HostRef) (bs : List Byte) : s.Moved (s.hostWrite r bs).1 := by
  unfold State.hostWrite
  split
  · exact State.moved_of_eq rfl rfl
  · exact s.moved_hostError _

theorem State.moved_apertureSend (s : State) (i a : Nat) (bs : List Byte) (taint : Bool) :
    s.Moved (s.apertureSend i a bs taint).1 := by
  unfold State.apertureSend
  split
  · exact .refl s
  · exact .each _ fun _ _ => State.moved_of_eq rfl rfl

/-! ## Transfers -/

theorem State.moved_dmaWrite (s : State) (c : Nat) (d : DDesc) (bs : List Byte) (bad : List Nat) :
    s.Moved (s.dmaWrite c d bs bad).1 := by
  unfold State.dmaWrite
  dsimp only
  generalize (if bad.isEmpty = true then 0 else 8) = st
  split_ifs
  · split
    · exact s.moved_dmaStore ..
    · exact .refl s
  · exact s.moved_apertureSend ..
  · exact s.moved_apertureSend ..
  · exact State.moved_of_eq rfl rfl
  · split
    · exact s.moved_hostWrite ..
    · exact .refl s
  · split
    · exact s.moved_dmaStore ..
    · exact .refl s

/-- A read of a scratchpad by the DMA engine. -/
theorem State.moved_localRead (s : State) (c a n port : Nat) (ws : List Nat) (d : Nat) (own : Option (Nat × Nat)) (pc : Nat)
    (accs : List Access) : s.Moved (((s.fixRead c a n).noteUncorr c port ws).portUse d own pc accs) :=
  ((s.moved_fixRead c a n).trans (State.moved_noteUncorr ..)).trans (State.moved_portUse ..)

theorem State.moved_dmaRead {s : State} {c : Nat} {d : DDesc} {n : Nat} {host : List Byte} {r : State × List Byte × List Nat}
    (h : s.dmaRead c d n host = .ok r) : s.Moved r.1 := by
  unfold State.dmaRead at h
  dsimp only at h
  split_ifs at h
  · cases h; exact .refl s
  · split at h
    · cases h; exact s.moved_localRead ..
    · cases h
  · cases h; exact s.moved_hbmFound ..
  · split at h
    · cases h; exact .refl s
    · cases h
  · split at h
    · cases h; exact s.moved_localRead ..
    · cases h
    · cases h

theorem State.moved_dmaMove (s : State) (c : Nat) (d : DDesc) (n : Nat) (host : List Byte) :
    s.Moved (s.dmaMove c d n host).1 := by
  unfold State.dmaMove
  split_ifs
  · exact .refl s
  · exact .refl s
  · exact s.moved_hostError _
  · split
    · exact .refl s
    · next h => exact (State.moved_dmaRead h).trans (State.moved_dmaWrite ..)

/-! ## Page walks -/

theorem State.moved_walkSegment (s : State) (c i : Nat) (d : DDesc) (base off len dst : Nat) :
    s.Moved (s.walkSegment c i d base off len dst) := by
  unfold State.walkSegment
  dsimp only
  split
  · exact (s.moved_hbmFound ..).trans (State.moved_dmaStore ..)
  · exact s.moved_hbmFound ..

theorem State.moved_walkPages (c i : Nat) (d : DDesc) : ∀ (xs : List Nat) (s : State) (k : Nat),
    s.Moved (s.walkPages c i d xs k).1
  | [], s, _ => .refl s
  | x :: xs, s, k => by
    unfold State.walkPages
    dsimp only
    have hfound := s.moved_hbmFound i (bits (d.walk.getD 2 0) 39 0 + 4 * x) 4
    split_ifs
    · exact hfound
    · exact hfound
    · exact hfound
    · exact hfound
    · exact (hfound.trans (State.moved_walkSegment ..)).trans (State.moved_walkPages c i d xs ..)
    · exact ((hfound.trans (State.moved_walkSegment ..)).trans (State.moved_walkSegment ..)).trans
        (State.moved_walkPages c i d xs ..)

end Sys2Proof.Machine
end

section
/-! The end of a descriptor (R118, R120): its channel, its completion, and the refused ones behind it. -/

namespace Sys2Proof.Machine

variable {s u : State} {c : CoreId} {ch : Fin 8} {d : DDesc}

/-! ## Channels without a refused descriptor -/

/-- No descriptor that waits in a channel has been refused. -/
def Core.Unrefused (k : Core) : Prop := ∀ x ∈ k.dma, ∀ e ∈ x.2, e.refused = 0

theorem Core.Unrefused.mem {k : Core} (h : k.Unrefused) {n : Nat} {e : DDesc} (he : e ∈ mapGet (fun _ => []) k.dma n) :
    e.refused = 0 := by
  rcases mapGet_mem (fun _ => []) k.dma n with hn | hn
  · rw [hn] at he
    cases he
  · exact h _ hn e he

theorem Core.dmaHead_mem {k : Core} {n : Nat} (h : k.dmaHead n = some d) : d ∈ mapGet (fun _ => []) k.dma n :=
  List.mem_of_head? h

theorem Core.Unrefused.head {k : Core} (h : k.Unrefused) {n : Nat} (hd : k.dmaHead n = some d) : d.refused = 0 :=
  h.mem (Core.dmaHead_mem hd)

theorem Core.Unrefused.dmaDrop {k : Core} (h : k.Unrefused) (n : Nat) (d : DDesc) (status source bytes : Nat) :
    (k.dmaDrop n d status source bytes).Unrefused := by
  intro x hx e he
  rcases mem_mapSet (d := fun _ => []) (m := k.dma) (k := n) (v := (mapGet (fun _ => []) k.dma n).drop 1) hx with rfl | hx
  · exact h.mem (List.mem_of_mem_drop he)
  · exact h x hx e he

theorem Core.Unrefused.refusedAt {k : Core} (h : k.Unrefused) : k.dmaRefusedAt = none := by
  unfold Core.dmaRefusedAt
  rw [List.findSome?_eq_none_iff]
  intro n _
  cases hd : k.dmaHead n with
  | none => rfl
  | some d => simp [h.head hd]

theorem Core.dmaRefusals_none {k : Core} (h : k.dmaRefusedAt = none) (n : Nat) : Core.dmaRefusals n k = k := by
  cases n with
  | zero => rfl
  | succ n =>
    unfold Core.dmaRefusals
    rw [h]

/-! ## The channel moves on -/

/-- What the end of the descriptor at the head of a channel leaves of a core. -/
structure Core.DescEnded (k k' : Core) (ch : Nat) (d : DDesc) (status source bytes : Nat) : Prop where
  head : mapGet (fun _ => []) k'.dma ch = (mapGet (fun _ => []) k.dma ch).drop 1
  others : ∀ h, h ≠ ch → mapGet (fun _ => []) k'.dma h = mapGet (fun _ => []) k.dma h
  posted : k'.queue d.q = (k.queue d.q).map (fun x => if x.id = d.id then
    ⟨x.id, .word (some (complWord d.tag status source false bytes))⟩ else x)
  queues : ∀ q, q ≠ d.q → k'.queue q = k.queue q
  regs : k'.regs = k.regs
  pc : k'.pc = k.pc

theorem Core.dmaDrop_frame (k : Core) (ch : Nat) (d : DDesc) (status source bytes : Nat) :
    k.dmaDrop ch d status source bytes = { k with
      dma := (k.dmaDrop ch d status source bytes).dma, queues := (k.dmaDrop ch d status source bytes).queues } := rfl

theorem Core.descEnded_dmaDrop {k0 k : Core} (h : k0.ChanKept k) (ch : Nat) (d : DDesc) (status source bytes : Nat) :
    k0.DescEnded (k.dmaDrop ch d status source bytes) ch d status source bytes := by
  have hqueue : ∀ q, k.queue q = k0.queue q := fun q => Core.queue_congr h.queues q
  refine ⟨?_, fun n hn => ?_, ?_, fun q hq => ?_, h.regs, h.pc⟩
  · rw [← h.dma]
    exact mapGet_set_self ..
  · rw [← h.dma]
    exact mapGet_set_other _ _ _ hn
  · refine (Core.queue_postWord_self ..).trans ?_
    exact congrArg _ (hqueue d.q)
  · exact (Core.queue_postWord_ne _ hq ..).trans (hqueue q)

/-- With no refused descriptor waiting, the end of one is its own alone. -/
theorem State.dmaEnd_unrefused (h : (u.core c.val).Unrefused) (ch : Nat) (d : DDesc) (status source bytes : Nat) :
    u.dmaEnd c.val ch d status source bytes = u.setCore c.val ((u.core c.val).dmaDrop ch d status source bytes) := by
  have hdrop : ((u.core c.val).dmaDrop ch d status source bytes).Unrefused := h.dmaDrop ch d status source bytes
  unfold State.dmaEnd
  rw [State.modCore_eq, Core.dmaRefusals_none hdrop.refusedAt]

/-- What the end leaves of the core, told against the state before the bytes moved. -/
theorem State.Moved.ended (hm : s.Moved u) (h : (s.core c.val).Unrefused) (ch : Nat) (d : DDesc) (status source bytes : Nat) :
    u.dmaEnd c.val ch d status source bytes = u.setCore c.val ((u.core c.val).dmaDrop ch d status source bytes) ∧
      (s.core c.val).DescEnded ((u.dmaEnd c.val ch d status source bytes).core c.val) ch d status source bytes := by
  have hu : (u.core c.val).Unrefused := by
    unfold Core.Unrefused
    rw [(hm.core c.val).dma]
    exact h
  have hend := State.dmaEnd_unrefused (ch := ch) hu d status source bytes
  refine ⟨hend, ?_⟩
  rw [hend, State.core_setCore]
  exact Core.descEnded_dmaDrop (hm.core c.val) ..

/-! ## A refused descriptor behind the one that ends (R118) -/

/-- The one place at which a search finds something. -/
theorem findSome_only {α : Type} {f : Nat → Option α} {l : List Nat} {n : Nat} (hn : n ∈ l) (hf : ∀ m, m ≠ n → f m = none) :
    l.findSome? f = f n := by
  induction l with
  | nil => cases hn
  | cons m l ih =>
    by_cases hm : m = n
    · subst hm
      cases hv : f m with
      | some v => exact List.findSome?_cons_of_isSome (by rw [hv]; rfl) |>.trans hv
      | none =>
        rw [List.findSome?_cons_of_isNone (by rw [hv]; rfl), List.findSome?_eq_none_iff]
        intro x _
        by_cases hx : x = m
        · rw [hx]; exact hv
        · exact hf x hx
    · rw [List.findSome?_cons_of_isNone (by rw [hf m hm]; rfl)]
      exact ih ((List.mem_cons.mp hn).resolve_left (Ne.symm hm))

theorem Core.dmaHead_single {k : Core} {n : Nat} {l : List DDesc} (h : k.dma = [(n, l)]) (m : Nat) :
    k.dmaHead m = if m = n then l.head? else none := by
  unfold Core.dmaHead
  rw [h]
  unfold mapGet
  by_cases hm : m = n
  · rw [if_pos hm, if_pos hm.symm]
  · rw [if_neg hm, if_neg (Ne.symm hm)]
    rfl

/-- A refused descriptor that stands alone in the only channel in use completes next. -/
theorem Core.dmaRefusedAt_single {k : Core} {r : DDesc} (h : k.dma = [(ch.val, [r])]) (hr : r.refused ≠ 0) :
    k.dmaRefusedAt = some (ch.val, r) := by
  have hturn : k.dmaTurn r = true := by
    unfold Core.dmaTurn
    rw [h]
    simp
  unfold Core.dmaRefusedAt
  rw [findSome_only (n := ch.val) (List.mem_range.mpr ch.isLt)]
  · rw [Core.dmaHead_single h, if_pos rfl]
    simp [hr, hturn]
  · intro m hm
    rw [Core.dmaHead_single h, if_neg hm]

theorem mapSet_single {α : Type} [DecidableEq α] {n : Nat} {l l' : List α} (h : l' ≠ []) :
    mapSet (fun _ => []) [(n, l)] n l' = [(n, l')] := by
  unfold mapSet
  rw [if_neg h]
  simp [mapErase, mapIns]

theorem mapSet_single_nil {α : Type} [DecidableEq α] {n : Nat} {l : List α} :
    mapSet (fun _ => []) [(n, l)] n [] = [] := by
  unfold mapSet
  rw [if_pos rfl]
  simp [mapErase]

theorem Core.dma_dmaDrop_single {k : Core} {e : DDesc} {l : List DDesc} (h : k.dma = [(ch.val, e :: l)]) (hl : l ≠ [])
    (status source bytes : Nat) : (k.dmaDrop ch.val e status source bytes).dma = [(ch.val, l)] := by
  have hdma : (k.dmaDrop ch.val e status source bytes).dma = mapMod (fun _ => []) k.dma ch.val fun l => l.drop 1 := rfl
  rw [hdma, h]
  unfold mapMod mapGet
  rw [if_pos rfl]
  exact mapSet_single hl

theorem Core.dma_dmaDrop_last {k : Core} {e : DDesc} (h : k.dma = [(ch.val, [e])]) (status source bytes : Nat) :
    (k.dmaDrop ch.val e status source bytes).dma = [] := by
  have hdma : (k.dmaDrop ch.val e status source bytes).dma = mapMod (fun _ => []) k.dma ch.val fun l => l.drop 1 := rfl
  rw [hdma, h]
  unfold mapMod mapGet
  rw [if_pos rfl]
  exact mapSet_single_nil

/-- A refused descriptor behind the one that ends, alone in the channels, completes in the same step. -/
theorem State.dmaEnd_refused {r : DDesc} (hm : s.Moved u) (hdma : (s.core c.val).dma = [(ch.val, [d, r])]) (hr : r.refused ≠ 0)
    (hq : r.q ≠ d.q) (status source bytes : Nat) :
    let t := u.dmaEnd c.val ch.val d status source bytes
    mapGet (fun _ => []) (t.core c.val).dma ch.val = [] ∧
      (t.core c.val).queue r.q = ((s.core c.val).queue r.q).map (fun x => if x.id = r.id then
        ⟨x.id, .word (some (complWord r.tag r.refused (b2n !r.walk.isEmpty) false 0))⟩ else x) := by
  have hdma' : (u.core c.val).dma = [(ch.val, [d, r])] := (hm.core c.val).dma.trans hdma
  have hfirst := Core.dma_dmaDrop_single hdma' (by simp) status source bytes
  have hsecond := Core.dma_dmaDrop_last hfirst r.refused (b2n !r.walk.isEmpty) 0
  have hrefusals : Core.dmaRefusals ((u.core c.val).dma.map fun x => x.2.length).sum
      ((u.core c.val).dmaDrop ch.val d status source bytes) =
        ((u.core c.val).dmaDrop ch.val d status source bytes).dmaDrop ch.val r r.refused (b2n !r.walk.isEmpty) 0 := by
    rw [hdma']
    change Core.dmaRefusals 2 _ = _
    unfold Core.dmaRefusals
    rw [Core.dmaRefusedAt_single hfirst hr]
    exact Core.dmaRefusals_none (Core.Unrefused.refusedAt (by unfold Core.Unrefused; rw [hsecond]; exact nofun)) 1
  intro t
  have ht : t.core c.val =
      ((u.core c.val).dmaDrop ch.val d status source bytes).dmaDrop ch.val r r.refused (b2n !r.walk.isEmpty) 0 :=
    (State.core_setCore ..).trans hrefusals
  rw [ht]
  refine ⟨by rw [hsecond]; rfl, ?_⟩
  have hqueue := (Core.descEnded_dmaDrop (hm.core c.val) ch.val d status source bytes).queues r.q hq
  exact (Core.queue_postWord_self ..).trans (congrArg _ hqueue)

end Sys2Proof.Machine
end

section
/-! The bytes of a transfer read and written, with the hazard detector off (R118-R120, R378): O38. -/

namespace Sys2Proof.Machine

/-- What a read leaves: error counts of the HBM stacks, and single-bit errors corrected in the scratchpads. -/
structure State.ReadKept (s u : State) : Prop where
  frame : u = { s with cores := u.cores, dict := u.dict, hbmErr := u.hbmErr }
  rd : ∀ key, key % 256 ≠ 3 → key % 256 ≠ 4 → u.rd key = s.rd key
  core : ∀ d, ∃ x y, u.core d = { s.core d with spFlip := x, spCorrected := y }

theorem State.ReadKept.refl (s : State) : s.ReadKept s := ⟨rfl, fun _ _ _ => rfl, fun _ => ⟨_, _, rfl⟩⟩

theorem State.ReadKept.trans {s t u : State} (h : s.ReadKept t) (h' : t.ReadKept u) : s.ReadKept u := by
  refine ⟨by rw [h'.frame, h.frame], fun key h3 h4 => (h'.rd key h3 h4).trans (h.rd key h3 h4), fun d => ?_⟩
  obtain ⟨x, y, hx⟩ := h.core d
  obtain ⟨x', y', hx'⟩ := h'.core d
  exact ⟨x', y', by rw [hx', hx]⟩

theorem State.readKept_fixRead (s : State) (c a n : Nat) : s.ReadKept (s.fixRead c a n) := by
  refine ⟨?_, fun _ _ _ => ?_, fun d => ?_⟩
  · unfold State.fixRead
    split <;> rfl
  · unfold State.fixRead
    split <;> rfl
  · by_cases hd : d = c
    · rw [hd, State.core_fixRead]
      exact Core.readFix_shape ..
    · rw [State.core_fixRead_ne _ _ _ hd]
      exact ⟨_, _, rfl⟩

theorem State.readKept_hbmFound (s : State) (i a n : Nat) : s.ReadKept (s.hbmFound i a n) := by
  refine State.each_rel (R := State.ReadKept) .refl .trans (fun s w => ?_) _ s
  dsimp only
  split
  · exact .refl s
  · refine ⟨rfl, fun key h3 h4 => State.rd_wr_ne _ _ _ _ ?_, fun _ => ⟨_, _, rfl⟩⟩
    unfold K.eccCorrected K.eccUncorrectable
    split <;> omega

section
variable {s u : State} (h : s.ReadKept u)
include h

theorem State.ReadKept.hzMode : u.rd K.hzMode = s.rd K.hzMode := h.rd _ (by decide) (by decide)
theorem State.ReadKept.hbm : u.hbm = s.hbm := (congrArg State.hbm h.frame :)
theorem State.ReadKept.hostMem : u.hostMem = s.hostMem := (congrArg State.hostMem h.frame :)
theorem State.ReadKept.insts : u.insts = s.insts := (congrArg State.insts h.frame :)
theorem State.ReadKept.router (r : Nat) : u.router r = s.router r :=
  congrArg (fun m => mapGet (fun _ => ({} : Router)) m r) (congrArg State.routers h.frame :)
theorem State.ReadKept.fn (f : Nat) : u.fn f = s.fn f :=
  congrArg (fun m => mapGet _ m f) (congrArg State.fns h.frame :)

theorem State.ReadKept.sp (d : Nat) : (u.core d).sp = (s.core d).sp := by
  obtain ⟨x, y, hx⟩ := h.core d
  rw [hx]

theorem State.ReadKept.logInst (d : Nat) : (u.core d).logInst = (s.core d).logInst := by
  obtain ⟨x, y, hx⟩ := h.core d
  rw [hx]
  rfl

theorem State.ReadKept.either (d a n : Nat) (write : Bool) : (u.core d).either a n write = (s.core d).either a n write := by
  obtain ⟨x, y, hx⟩ := h.core d
  rw [hx]
  rfl

theorem State.ReadKept.hostReady (f : Nat) : u.hostReady f = s.hostReady f := by
  unfold State.hostReady State.fnEnabled
  rw [h.fn, h.fn, h.router, h.rd (K.pcieRate (f / 65)) (by unfold K.pcieRate; omega) (by unfold K.pcieRate; omega)]

theorem State.ReadKept.devRef (a n : Nat) (ok : Window → Bool) : u.devRef a n ok = s.devRef a n ok := by
  have hwin : u.winTab = s.winTab := (congrArg State.winTab h.frame :)
  unfold State.devRef State.window State.winWord
  rw [hwin]

theorem State.ReadKept.aperture (i a : Nat) : u.aperture i a = s.aperture i a := by
  unfold State.aperture State.cascaded
  rw [h.rd K.cascState (by decide) (by decide), h.rd K.cascInstance (by decide) (by decide)]

theorem State.ReadKept.dmaRemote (c a n : Nat) (write : Bool) : u.dmaRemote c a n write = s.dmaRemote c a n write := by
  have hat : ∀ t, ((u.core t).fenced = (s.core t).fenced) ∧
      ∀ panel logical, (u.core t).holds panel logical = (s.core t).holds panel logical := by
    intro t
    obtain ⟨x, y, hx⟩ := h.core t
    rw [hx]
    exact ⟨rfl, fun _ _ => rfl⟩
  unfold State.dmaRemote State.translate
  rw [h.router]
  simp only [h.logInst, h.either, (hat _).1, (hat _).2]

theorem State.ReadKept.stacksOf (i : Nat) : u.stacksOf i = s.stacksOf i := by
  unfold State.stacksOf State.inst
  rw [h.insts]

theorem State.ReadKept.hbmWrite (i a : Nat) (bs : List Byte) : (u.hbmWrite i a bs).hbm = (s.hbmWrite i a bs).hbm := by
  unfold State.hbmWrite State.hbmRenew
  dsimp only
  rw [h.stacksOf, h.hbm]

end

/-! ## What a transfer reads -/

/-- The bytes that a transfer's source gives: zeros for a fill, or clean bytes of the scratchpad, of HBM, of a host window or
of a far core. -/
def State.Gives (s : State) (c : CoreId) (d : DDesc) (data bs : List Byte) : Prop :=
  (d.op = 1 ∧ bs = List.replicate d.length 0) ∨
  (d.op = 0 ∧ d.srcSpace = 0 ∧ ∃ a l, (s.core c.val).either d.src d.length false = some (a :: l) ∧
    (s.core c.val).poisoned a d.length = [] ∧ bs = (s.core c.val).bytesAt a d.length) ∨
  (d.op = 0 ∧ d.srcSpace = 1 ∧ s.hbmBad (s.core c.val).logInst d.src d.length = [] ∧
    bs = s.hbmRead (s.core c.val).logInst d.src d.length) ∨
  (d.op = 0 ∧ d.srcSpace = 2 ∧ (∃ r, s.devRef d.src d.length (dmaWindow (s.core c.val).logInst) = some r ∧
    s.hostReady r.fn = true) ∧ bs = slice data 0 d.length) ∨
  (d.op = 0 ∧ d.srcSpace = 3 ∧ ∃ f a l, s.dmaRemote c.val d.src d.length false = .ok (f, a :: l) ∧
    (s.core f).poisoned a d.length = [] ∧ bs = (s.core f).bytesAt a d.length)

variable {s u : State} {c : CoreId} {d : DDesc} {data bs : List Byte}

/-- A clean read of a scratchpad corrects single-bit errors and no more. -/
theorem State.cleanRead (hz : s.rd K.hzMode = 0) {x a n : Nat} (hclean : (s.core x).poisoned a n = []) (port : Nat)
    (own : Option (Nat × Nat)) (pc : Nat) (accs : List Access) :
    ((s.fixRead x a n).noteUncorr x port ((s.core x).poisoned a n)).portUse x own pc accs = s.fixRead x a n := by
  rw [hclean, State.noteUncorr_nil]
  exact State.portUse_off _ _ _ _ _ ((s.readKept_fixRead x a n).hzMode.trans hz)

theorem Core.badOffsets_clean {k : Core} {a n : Nat} (h : k.poisoned a n = []) : k.badOffsets a n = [] := by
  unfold Core.badOffsets
  rw [h]
  rfl

theorem State.dmaRead_gives (hz : s.rd K.hzMode = 0) (h : s.Gives c d data bs) :
    ∃ u, s.dmaRead c.val d d.length data = .ok (u, bs, []) ∧ s.ReadKept u := by
  unfold State.dmaRead
  dsimp only
  rcases h with ⟨hop, rfl⟩ | ⟨hop, hsrc, a, l, hat, hclean, rfl⟩ | ⟨hop, hsrc, hclean, rfl⟩ | ⟨hop, hsrc, ⟨r, href, -⟩, rfl⟩ |
    ⟨hop, hsrc, f, a, l, hat, hclean, rfl⟩
  · exact ⟨s, if_pos hop, State.ReadKept.refl s⟩
  · refine ⟨_, ?_, s.readKept_fixRead c.val a d.length⟩
    rw [if_neg (by omega), if_pos hsrc, hat]
    dsimp only
    rw [State.cleanRead hz hclean, Core.badOffsets_clean hclean]
  · refine ⟨_, ?_, s.readKept_hbmFound (s.core c.val).logInst d.src d.length⟩
    rw [if_neg (by omega), if_neg (by omega), if_pos hsrc, hclean]
  · refine ⟨s, ?_, .refl s⟩
    rw [if_neg (by omega), if_neg (by omega), if_neg (by omega), if_pos hsrc, href]
  · refine ⟨_, ?_, s.readKept_fixRead f a d.length⟩
    rw [if_neg (by omega), if_neg (by omega), if_neg (by omega), if_neg (by omega), hat]
    dsimp only
    rw [State.cleanRead hz hclean, Core.badOffsets_clean hclean]

theorem State.dmaMove_gives (hz : s.rd K.hzMode = 0) (hn : 0 < d.length) (hway : s.dmaWay c.val d d.length = true)
    (h : s.Gives c d data bs) :
    ∃ u, s.dmaMove c.val d d.length data = u.dmaWrite c.val d bs [] ∧ s.ReadKept u ∧ s.Moved u := by
  obtain ⟨u, hread, hkept⟩ := State.dmaRead_gives hz h
  refine ⟨u, ?_, hkept, State.moved_dmaRead hread⟩
  have hhost : ¬(d.op = 0 ∧ d.srcSpace = 2 ∧
      (s.devRef d.src d.length (dmaWindow (s.core c.val).logInst)).any (fun r => !s.hostReady r.fn) = true) := by
    rintro ⟨hop, hsrc, hany⟩
    rcases h with ⟨hop', -⟩ | ⟨-, hsrc', -⟩ | ⟨-, hsrc', -⟩ | ⟨-, -, ⟨r, href, hready⟩, -⟩ | ⟨-, hsrc', -⟩
    · omega
    · omega
    · omega
    · rw [href] at hany
      simp [hready] at hany
    · omega
  unfold State.dmaMove
  rw [if_neg (by omega), hway, if_neg (by simp), if_neg hhost, hread]

/-! ## What a transfer writes -/

theorem State.dmaStore_off (hz : s.rd K.hzMode = 0) (x : Nat) (own : Option (Nat × Nat)) (l : List Nat) (bs : List Byte)
    (bad : List Nat) : s.dmaStore x own l bs bad = s.setCore x ((s.core x).storeAllBad l bs bad) :=
  State.portUse_off _ _ _ _ _ hz

/-- Bytes stored at places that do not meet, or at one place. -/
theorem Core.bytes_storeAllBad {k k' : Core} {l : List Nat} (hsp : k.sp = k'.sp)
    (hl : ∃ (f : Core) (a : Nat), f.either a bs.length true = some l) (bad : List Nat) :
    (l.length = 1 ∨ bs.length ≤ 524288 → ∀ a ∈ l, (k.storeAllBad l bs bad).bytesAt a bs.length = bs) ∧
      ∀ b, (∀ a ∈ l, b < a ∨ a + bs.length ≤ b) → memByte (k.storeAllBad l bs bad).sp b = memByte k'.sp b := by
  have hstored := Core.sp_storeAllBad bs bad l k k' hsp
  refine ⟨fun hlen a ha => bytesAt_eq_of_bytes fun j hj => ?_, fun b hb => ?_⟩
  · have hapart : Apart l bs.length := by
      obtain ⟨f, x, hat⟩ := hl
      rcases hlen with h1 | hshort
      · obtain ⟨y, rfl⟩ := List.length_eq_one_iff.mp h1
        intro x hx z hz hne
        rw [List.mem_singleton] at hx hz
        exact absurd (hx.trans hz.symm) hne
      · exact either_apart hat hshort
    refine (congrArg (memByte · (a + j)) hstored).trans ?_
    exact memByte_storeAll_inside hj _ _ ha hapart
  · refine (congrArg (memByte · b) hstored).trans ?_
    exact memByte_storeAll_outside _ _ hb

section
variable (h : s.ReadKept u) (hz : s.rd K.hzMode = 0)
include h hz

theorem State.dmaWrite_local {l : List Nat} (hdst : d.dstSpace = 0)
    (hat : (s.core c.val).either d.dst bs.length true = some l) :
    u.dmaWrite c.val d bs [] = (u.setCore c.val ((u.core c.val).storeAllBad l bs []), 0) := by
  unfold State.dmaWrite
  dsimp only
  rw [if_pos hdst, h.either, hat]
  dsimp only
  rw [State.dmaStore_off (h.hzMode.trans hz)]
  rfl

theorem State.dmaWrite_remote {f : Nat} {l : List Nat} (hdst : d.dstSpace = 3)
    (hat : s.dmaRemote c.val d.dst bs.length true = .ok (f, l)) :
    u.dmaWrite c.val d bs [] = (u.setCore f ((u.core f).storeAllBad l bs []), 0) := by
  unfold State.dmaWrite
  dsimp only
  rw [if_neg (by omega), if_neg (by omega), if_neg (by omega), h.dmaRemote, hat]
  dsimp only
  rw [State.dmaStore_off (h.hzMode.trans hz)]
  rfl

end

theorem State.dmaWrite_hbm (h : s.ReadKept u) (hdst : d.dstSpace = 1)
    (hap : s.aperture (s.core c.val).logInst d.dst = false) : u.dmaWrite c.val d bs [] =
      ((u.hbmWrite (s.core c.val).logInst d.dst bs).hbmPoisonAt (s.core c.val).logInst d.dst [], 0) := by
  unfold State.dmaWrite
  dsimp only
  rw [if_neg (by omega), if_pos hdst, h.logInst, h.aperture, hap, if_neg Bool.false_ne_true]
  rfl

theorem State.dmaWrite_host (h : s.ReadKept u) {r : HostRef} (hdst : d.dstSpace = 2)
    (href : s.devRef d.dst bs.length (dmaWindow (s.core c.val).logInst) = some r) (hready : s.hostReady r.fn = true) :
    u.dmaWrite c.val d bs [] = (u.hostPut r bs, 0) := by
  unfold State.dmaWrite
  dsimp only
  rw [if_neg (by omega), if_neg (by omega), if_pos hdst, h.logInst, h.devRef, href]
  dsimp only
  unfold State.hostWrite
  rw [h.hostReady, hready, if_pos rfl]
  rfl

/-- Only windows of a core's own address give the places of a far access. -/
theorem State.dmaRemote_either {f : Nat} {l : List Nat} {x a n : Nat} (h : s.dmaRemote x a n true = .ok (f, l)) :
    ∃ (k : Core) (o : Nat), k.either o n true = some l := by
  unfold State.dmaRemote at h
  split at h
  · cases h
  · dsimp only at h
    split_ifs at h
    split at h
    · next hl =>
      obtain ⟨-, rfl⟩ := Prod.mk.inj (Except.ok.inj h)
      exact ⟨_, _, hl⟩
    · cases h

end Sys2Proof.Machine
end

section
/-! The end of a descriptor, clause by clause: O38. -/

namespace Sys2Proof.Machine

variable {s u : State} {c : CoreId} {ch : Fin 8} {d : DDesc} {data : List Byte} {moved : Nat}

/-! ## Nothing to end -/

section
variable (h : (s.core c.val).dmaHead ch.val = none)
include h

theorem exec_dmaTransferDone_none (e : Bool) : exec (.dmaTransferDone c ch data e) s = .next s := by
  rw [exec_dmaTransferDone]
  unfold execDmaTransferDone
  dsimp only
  rw [h]

theorem exec_pageWalkDone_none : exec (.pageWalkDone c ch) s = .next s := by
  rw [exec_pageWalkDone]
  unfold execPageWalkDone
  dsimp only
  rw [h]

theorem exec_hbmTimeout_none : exec (.hbmTimeout c ch moved) s = .next s := by
  rw [exec_hbmTimeout]
  unfold execHbmTimeout
  dsimp only
  rw [h]

theorem exec_cplTimeout_none : exec (.cplTimeout c ch moved) s = .next s := by
  rw [exec_cplTimeout]
  unfold execCplTimeout
  dsimp only
  rw [h]

theorem exec_seamTimeout_none : exec (.seamTimeout c ch) s = .next s := by
  rw [exec_seamTimeout]
  unfold execSeamTimeout
  dsimp only
  rw [h]

end

theorem exec_dmaTransferDone_fenced (h : (s.core c.val).fenced = true) (e : Bool) :
    exec (.dmaTransferDone c ch data e) s = .next s := by
  rw [exec_dmaTransferDone]
  unfold execDmaTransferDone
  dsimp only
  split
  · rfl
  · exact if_pos (by rw [h]; rfl)

theorem exec_pageWalkDone_fenced (h : (s.core c.val).fenced = true) : exec (.pageWalkDone c ch) s = .next s := by
  rw [exec_pageWalkDone]
  unfold execPageWalkDone
  dsimp only
  split
  · rfl
  · exact if_pos (.inl h)

/-! ## What walks and timers leave before the completion -/

/-- What a walk leaves before its completion. -/
theorem State.moved_walked (s : State) (c : Nat) (i : Nat) (d : DDesc) (j : Nat) :
    let w := s.walkPages c i d (walkIndices d) 0
    s.Moved (if w.2.1 = 6 ∨ w.2.1 = 1 then w.1.bump (K.walkErrors j) 64 1 else w.1) := by
  intro w
  have hw : s.Moved w.1 := State.moved_walkPages ..
  exact State.Moved.ite (hw.trans (State.moved_bump _ _ _ fun p => by unfold K.cplTimeouts K.walkErrors; omega)) hw

/-- The transfer of a descriptor that a timer cuts short. -/
def State.cutShort (s : State) (c : Nat) (d : DDesc) (moved : Nat) : State :=
  if d.op = 2 then s
  else
    let f := if d.op = 0 ∧ d.srcSpace = 2 then s.freeBytes (min moved d.length) else (s, [])
    (f.1.dmaMove c d (min moved d.length) f.2).1

theorem State.moved_cutShort (s : State) (c : Nat) (d : DDesc) (moved : Nat) : s.Moved (s.cutShort c d moved) := by
  unfold State.cutShort
  dsimp only
  split_ifs
  · exact .refl s
  · exact State.Moved.trans (t := (s.freeBytes (min moved d.length)).1) (State.moved_of_eq rfl rfl) (State.moved_dmaMove ..)
  · exact s.moved_dmaMove ..

theorem State.dmaTimeout_eq (s : State) (c ch : Nat) (d : DDesc) (moved : Nat) :
    s.dmaTimeout c ch d moved = (s.cutShort c d moved).dmaEnd c ch d 5 (if d.op = 2 then 1 else 0) (min moved d.length) := by
  unfold State.dmaTimeout State.dmaCut State.cutShort
  dsimp only
  split <;> rfl

/-- A descriptor that the HBM timer watches. -/
def State.watchesHbm (s : State) (c : CoreId) (d : DDesc) : Prop :=
  d.op = 2 ∨ (d.op = 0 ∧ d.srcSpace = 1) ∨ (d.dstSpace = 1 ∧ s.aperture (s.core c.val).logInst d.dst = false)

/-- A stack on the descriptor's way is retrained. -/
def State.retrains (s : State) (c : CoreId) (d : DDesc) : Prop :=
  ∃ m ∈ s.stacksOf (s.core c.val).logInst, (s.stack m).retrain = 2 ∧
    (d.op = 2 ∨ hbmSite m ∈ s.dmaSites c.val d.srcSpace d.src d.length ++ s.dmaSites c.val d.dstSpace d.dst d.length)

theorem hbmTimeout_iff : ((d.op == 2 || (d.op == 0 && d.srcSpace == 1) ||
      (d.dstSpace == 1 && !s.aperture (s.core c.val).logInst d.dst)) &&
    !((s.stacksOf (s.core c.val).logInst).any fun n => (s.stack n).retrain == 2 && (d.op == 2 ||
      decide (hbmSite n ∈ s.dmaSites c.val d.srcSpace d.src d.length ++ s.dmaSites c.val d.dstSpace d.dst d.length)))) = true ↔
    s.watchesHbm c d ∧ ¬s.retrains c d := by
  unfold State.watchesHbm State.retrains
  rw [Bool.and_eq_true, Bool.not_eq_true', ← Bool.not_eq_true, List.any_eq_true]
  simp only [Bool.or_eq_true, Bool.and_eq_true, beq_iff_eq, Bool.not_eq_true', decide_eq_true_eq, or_assoc]

/-! ## The head of a channel ends -/

section
variable (hd : (s.core c.val).dmaHead ch.val = some d)
include hd

section
variable (hf : (s.core c.val).fenced = false) (hturn : (s.core c.val).dmaTurn d = true)
include hf hturn

theorem exec_dmaTransferDone_moves (hop : d.op ≠ 2) (href : d.refused = 0) :
    exec (.dmaTransferDone c ch data false) s = .next ((s.dmaMove c.val d d.length data).1.dmaEnd c.val ch.val d
      (s.dmaMove c.val d d.length data).2 0
      (if (s.dmaMove c.val d d.length data).2 = 0 ∨ (s.dmaMove c.val d d.length data).2 = 8 then d.length else 0)) := by
  rw [exec_dmaTransferDone]
  unfold execDmaTransferDone
  dsimp only
  rw [hd]
  dsimp only
  rw [if_neg (by simp [hf, hop, href, hturn])]
  simp only [Bool.false_and, Bool.false_eq_true, if_false, or_false]

theorem exec_dmaTransferDone_hostError (hop : d.op ≠ 2) (href : d.refused = 0)
    (hhost : (d.op = 0 ∧ d.srcSpace = 2) ∨ d.dstSpace = 2) :
    exec (.dmaTransferDone c ch data true) s = .next
      (((s.dmaMove c.val d (min data.length d.length) data).1.dmaHostError d).dmaEnd c.val ch.val d 7 0
        (min data.length d.length)) := by
  have huses : (d.op == 0 && d.srcSpace == 2 || d.dstSpace == 2) = true := by simpa using hhost
  rw [exec_dmaTransferDone]
  unfold execDmaTransferDone
  dsimp only
  rw [hd]
  dsimp only
  rw [if_neg (by simp [hf, hop, href, hturn]), huses]
  simp only [Bool.true_and, if_true, or_true]

theorem exec_pageWalkDone_walks (hop : d.op = 2) :
    let w := s.walkPages c.val (s.core c.val).logInst d (walkIndices d) 0
    exec (.pageWalkDone c ch) s = .next ((if w.2.1 = 6 ∨ w.2.1 = 1 then
      w.1.bump (K.walkErrors (s.core c.val).logInst) 64 1 else w.1).dmaEnd c.val ch.val d w.2.1 1
        (w.2.2 * 32 * (bits (d.walk.getD 3 0) 45 35 + bits (d.walk.getD 3 0) 63 57))) := by
  intro w
  rw [exec_pageWalkDone]
  unfold execPageWalkDone
  dsimp only
  rw [hd]
  exact if_neg (by simp [hf, hop, hturn])

end

/-! ## Timers -/

theorem exec_hbmTimeout_some : exec (.hbmTimeout c ch moved) s =
    .next (if (d.op == 2 || (d.op == 0 && d.srcSpace == 1) || (d.dstSpace == 1 && !s.aperture (s.core c.val).logInst d.dst)) &&
      !((s.stacksOf (s.core c.val).logInst).any fun n => (s.stack n).retrain == 2 && (d.op == 2 ||
        decide (hbmSite n ∈ s.dmaSites c.val d.srcSpace d.src d.length ++ s.dmaSites c.val d.dstSpace d.dst d.length)))
      then s.dmaTimeout c.val ch.val d moved else s) := by
  rw [exec_hbmTimeout]
  unfold execHbmTimeout
  dsimp only
  rw [hd]

theorem exec_cplTimeout_host (h : d.op = 0 ∧ d.srcSpace = 2) : exec (.cplTimeout c ch moved) s =
    .next ((s.dmaTimeout c.val ch.val d moved).bump (K.cplTimeouts (winNo d.src / 128)) 64 1) := by
  rw [exec_cplTimeout]
  unfold execCplTimeout
  dsimp only
  rw [hd]
  exact if_pos h

theorem exec_cplTimeout_other (h : ¬(d.op = 0 ∧ d.srcSpace = 2)) : exec (.cplTimeout c ch moved) s = .next s := by
  rw [exec_cplTimeout]
  unfold execCplTimeout
  dsimp only
  rw [hd]
  exact if_neg h

theorem exec_seamTimeout_some : exec (.seamTimeout c ch) s =
    if d.op ≠ 2 ∧ d.dstSpace = 1 ∧ s.aperture (s.core c.val).logInst d.dst then .next (s.dmaEnd c.val ch.val d 5 0 0)
    else .next s := by
  rw [exec_seamTimeout]
  unfold execSeamTimeout
  dsimp only
  rw [hd]

theorem exec_rqTimeout_channel : exec (.rqTimeout c (.channel ch)) s =
    if (d.op = 0 ∧ d.srcSpace = 3) ∨ (d.op < 2 ∧ d.dstSpace = 3) then .next (s.dmaEnd c.val ch.val d 5 0 0) else .next s := by
  obtain ⟨l, hl⟩ : ∃ l, mapGet (fun _ => []) (s.core c.val).dma ch.val = d :: l := by
    unfold Core.dmaHead at hd
    cases hdma : mapGet (fun _ => []) (s.core c.val).dma ch.val with
    | nil => rw [hdma] at hd; cases hd
    | cons e l =>
      rw [hdma] at hd
      exact ⟨l, by rw [Option.some.inj hd]⟩
  rw [exec_rqTimeout]
  unfold execRqTimeout
  dsimp only
  rw [hl]

end

end Sys2Proof.Machine
end

section
/-! The end of a descriptor: O38. -/

namespace Sys2Proof.Machine

variable {s u : State} {c : CoreId} {ch : Fin 8} {d : DDesc}

/-- A descriptor has ended with a completion: what holds of the state reached, and what the core's channels, queues and
registers are. -/
def State.EndsIn (s t : State) (c : CoreId) (ch : Fin 8) (d : DDesc) (status source bytes : Nat) : Prop :=
  mapGet (fun _ => []) (t.core c.val).dma ch.val = (mapGet (fun _ => []) (s.core c.val).dma ch.val).drop 1 ∧
  (∀ h, h ≠ ch.val → mapGet (fun _ => []) (t.core c.val).dma h = mapGet (fun _ => []) (s.core c.val).dma h) ∧
  (t.core c.val).queue d.q = ((s.core c.val).queue d.q).map (fun x => if x.id = d.id then
    ⟨x.id, .word (some (complWord d.tag status source false bytes))⟩ else x) ∧
  (∀ q, q ≠ d.q → (t.core c.val).queue q = (s.core c.val).queue q) ∧ (t.core c.val).regs = (s.core c.val).regs ∧
  (t.core c.val).pc = (s.core c.val).pc

theorem State.Moved.endsIn (hm : s.Moved u) (h : (s.core c.val).Unrefused) (ch : Fin 8) (d : DDesc)
    (status source bytes : Nat) : s.EndsIn (u.dmaEnd c.val ch.val d status source bytes) c ch d status source bytes := by
  obtain ⟨hhead, hothers, hposted, hqueues, hregs, hpc⟩ := (hm.ended h ch.val d status source bytes).2
  exact ⟨hhead, hothers, hposted, hqueues, hregs, hpc⟩

/-- A descriptor's end changes its core alone. -/
theorem State.Moved.onlyCore_end (hm : s.Moved u) (h : (s.core c.val).Unrefused) (status source bytes : Nat) :
    u.OnlyCore (u.dmaEnd c.val ch.val d status source bytes) c := by
  rw [(hm.ended h ch.val d status source bytes).1]
  exact u.onlyCore_set c _

theorem State.sp_dmaEnd (hm : s.Moved u) (h : (s.core c.val).Unrefused) (status source bytes x : Nat) :
    ((u.dmaEnd c.val ch.val d status source bytes).core x).sp = (u.core x).sp := by
  rw [(hm.ended h ch.val d status source bytes).1, State.core_setCore_if]
  split
  · next hx => rw [hx]; rfl
  · rfl

section
variable {data bs : List Byte} (hun : (s.core c.val).Unrefused) (hd : (s.core c.val).dmaHead ch.val = some d)
  (hf : (s.core c.val).fenced = false) (hop : d.op ≠ 2) (hturn : (s.core c.val).dmaTurn d = true) (hn : 0 < d.length)
include hun hd hf hop hturn hn

theorem exec_dmaTransferDone_lost (hway : s.dmaWay c.val d d.length = false) :
    exec (.dmaTransferDone c ch data false) s = .next (s.dmaEnd c.val ch.val d 2 0 0) := by
  have hmove : s.dmaMove c.val d d.length data = (s, 2) := by
    unfold State.dmaMove
    rw [if_neg (by omega), hway]
    rfl
  rw [exec_dmaTransferDone_moves hd hf hturn hop (hun.head hd), hmove]
  rfl

theorem exec_dmaTransferDone_noHost (hway : s.dmaWay c.val d d.length = true) {r : HostRef} (hop0 : d.op = 0)
    (hsrc : d.srcSpace = 2) (href : s.devRef d.src d.length (dmaWindow (s.core c.val).logInst) = some r)
    (hready : s.hostReady r.fn = false) : exec (.dmaTransferDone c ch data false) s =
      .next ((s.hostError (winNo d.src / 128)).dmaEnd c.val ch.val d 7 0 0) := by
  have hmove : s.dmaMove c.val d d.length data = (s.hostError (winNo d.src / 128), 7) := by
    unfold State.dmaMove
    rw [if_neg (by omega), hway, if_neg (by simp), if_pos ⟨hop0, hsrc, by simp [href, hready]⟩]
  rw [exec_dmaTransferDone_moves hd hf hturn hop (hun.head hd), hmove]
  rfl

variable (hz : s.rd K.hzMode = 0) (hway : s.dmaWay c.val d d.length = true) (hgives : s.Gives c d data bs)
include hz hway hgives

/-- A transfer that gives its bytes ends with status 0x00 once they are written. -/
theorem exec_dmaTransferDone_gives : ∃ u, s.ReadKept u ∧ s.Moved u ∧ s.Moved (u.dmaWrite c.val d bs []).1 ∧
    ((u.dmaWrite c.val d bs []).2 = 0 → exec (.dmaTransferDone c ch data false) s =
      .next ((u.dmaWrite c.val d bs []).1.dmaEnd c.val ch.val d 0 0 d.length)) := by
  obtain ⟨u, hmove, hkept, hm⟩ := State.dmaMove_gives hz hn hway hgives
  refine ⟨u, hkept, hm, hm.trans (u.moved_dmaWrite ..), fun hst => ?_⟩
  rw [exec_dmaTransferDone_moves hd hf hturn hop (hun.head hd), hmove, hst]
  rfl

theorem exec_dmaTransferDone_local {l : List Nat} (hdst : d.dstSpace = 0)
    (hat : (s.core c.val).either d.dst bs.length true = some l) :
    ∃ t, exec (.dmaTransferDone c ch data false) s = .next t ∧
      (t = { s with cores := t.cores, dict := t.dict, hbmErr := t.hbmErr } ∧
        (l.length = 1 ∨ bs.length ≤ 524288 → ∀ a ∈ l, (t.core c.val).bytesAt a bs.length = bs) ∧
        (∀ b, (∀ a ∈ l, b < a ∨ a + bs.length ≤ b) → memByte (t.core c.val).sp b = memByte (s.core c.val).sp b) ∧
        ∀ e, e ≠ c.val → (t.core e).sp = (s.core e).sp) ∧ s.EndsIn t c ch d 0 0 d.length := by
  obtain ⟨u, hkept, hm, hmw, hexec⟩ := exec_dmaTransferDone_gives hun hd hf hop hturn hn hz hway hgives
  have hwrite := State.dmaWrite_local hkept hz (bs := bs) hdst hat
  rw [hwrite] at hmw hexec
  have hsp : ∀ x, ((State.dmaEnd (u.setCore c.val ((u.core c.val).storeAllBad l bs [])) c.val ch.val d 0 0
      d.length).core x).sp = (if x = c.val then ((u.core c.val).storeAllBad l bs []).sp else (s.core x).sp) := by
    intro x
    rw [State.sp_dmaEnd hmw hun, State.core_setCore_if]
    split
    · rfl
    · exact hkept.sp x
  obtain ⟨hbytes, hout⟩ := Core.bytes_storeAllBad (hkept.sp c.val) ⟨_, _, hat⟩ []
  refine ⟨_, hexec rfl, ⟨?_, fun hl a ha => ?_, fun b hb => ?_, fun e he => ?_⟩, hmw.endsIn hun ..⟩
  · rw [(hmw.ended hun ..).1]
    rw [hkept.frame]
    rfl
  · unfold Core.bytesAt
    rw [hsp, if_pos rfl]
    exact hbytes hl a ha
  · rw [hsp, if_pos rfl]
    exact hout b hb
  · rw [hsp, if_neg he]

theorem exec_dmaTransferDone_remote {f : Nat} {l : List Nat} (hdst : d.dstSpace = 3)
    (hat : s.dmaRemote c.val d.dst bs.length true = .ok (f, l)) :
    ∃ t, exec (.dmaTransferDone c ch data false) s = .next t ∧
      ((l.length = 1 ∨ bs.length ≤ 524288 → ∀ a ∈ l, (t.core f).bytesAt a bs.length = bs) ∧
        (∀ b, (∀ a ∈ l, b < a ∨ a + bs.length ≤ b) → memByte (t.core f).sp b = memByte (s.core f).sp b) ∧
        t.hbm = s.hbm ∧ t.hostMem = s.hostMem) ∧ s.EndsIn t c ch d 0 0 d.length := by
  obtain ⟨u, hkept, hm, hmw, hexec⟩ := exec_dmaTransferDone_gives hun hd hf hop hturn hn hz hway hgives
  have hwrite := State.dmaWrite_remote hkept hz (bs := bs) hdst hat
  rw [hwrite] at hmw hexec
  have hsp : ((State.dmaEnd (u.setCore f ((u.core f).storeAllBad l bs [])) c.val ch.val d 0 0 d.length).core f).sp =
      ((u.core f).storeAllBad l bs []).sp := by
    rw [State.sp_dmaEnd hmw hun, State.core_setCore]
  obtain ⟨hbytes, hout⟩ := Core.bytes_storeAllBad (hkept.sp f) (State.dmaRemote_either hat) []
  refine ⟨_, hexec rfl, ⟨fun hl a ha => ?_, fun b hb => ?_, ?_, ?_⟩, hmw.endsIn hun ..⟩
  · unfold Core.bytesAt
    rw [hsp]
    exact hbytes hl a ha
  · rw [hsp]
    exact hout b hb
  · rw [(hmw.ended hun ..).1]
    exact hkept.hbm
  · rw [(hmw.ended hun ..).1]
    exact hkept.hostMem

theorem exec_dmaTransferDone_hbm (hdst : d.dstSpace = 1) (hap : s.aperture (s.core c.val).logInst d.dst = false) :
    ∃ t, exec (.dmaTransferDone c ch data false) s = .next t ∧
      (t.hbm = (s.hbmWrite (s.core c.val).logInst d.dst bs).hbm ∧ (t.core c.val).sp = (s.core c.val).sp ∧
        t.hostMem = s.hostMem ∧ t.insts = s.insts) ∧ s.EndsIn t c ch d 0 0 d.length := by
  obtain ⟨u, hkept, hm, hmw, hexec⟩ := exec_dmaTransferDone_gives hun hd hf hop hturn hn hz hway hgives
  have hwrite := State.dmaWrite_hbm hkept (bs := bs) hdst hap
  rw [hwrite] at hmw hexec
  refine ⟨_, hexec rfl, ⟨?_, ?_, ?_, ?_⟩, hmw.endsIn hun ..⟩
  · rw [(hmw.ended hun ..).1]
    exact hkept.hbmWrite ..
  · rw [State.sp_dmaEnd hmw hun]
    exact hkept.sp c.val
  · rw [(hmw.ended hun ..).1]
    exact hkept.hostMem
  · rw [(hmw.ended hun ..).1]
    exact hkept.insts

theorem exec_dmaTransferDone_host {r : HostRef} (hdst : d.dstSpace = 2)
    (href : s.devRef d.dst bs.length (dmaWindow (s.core c.val).logInst) = some r) (hready : s.hostReady r.fn = true) :
    ∃ t, exec (.dmaTransferDone c ch data false) s = .next t ∧
      (t.hostMem = memWrite s.hostMem (r.port * 2 ^ 64 + r.addr) bs ∧ (t.core c.val).sp = (s.core c.val).sp ∧
        t.hbm = s.hbm) ∧ s.EndsIn t c ch d 0 0 d.length := by
  obtain ⟨u, hkept, hm, hmw, hexec⟩ := exec_dmaTransferDone_gives hun hd hf hop hturn hn hz hway hgives
  have hwrite := State.dmaWrite_host hkept (bs := bs) hdst href hready
  rw [hwrite] at hmw hexec
  refine ⟨_, hexec rfl, ⟨?_, ?_, ?_⟩, hmw.endsIn hun ..⟩
  · rw [(hmw.ended hun ..).1]
    exact congrArg (fun m => memWrite m _ bs) hkept.hostMem
  · rw [State.sp_dmaEnd hmw hun]
    exact hkept.sp c.val
  · rw [(hmw.ended hun ..).1]
    exact hkept.hbm

end

/-- Settles O38. -/
theorem descriptorsEndWithCompletion : Obligations.DescriptorsEndWithCompletion := by
  intro s c ch d moved data k i n Ends Done Gives
  refine ⟨fun h => ⟨exec_dmaTransferDone_none h _, exec_pageWalkDone_none h, exec_hbmTimeout_none h,
      exec_cplTimeout_none h, exec_seamTimeout_none h⟩,
    fun h => ⟨exec_dmaTransferDone_fenced h _, exec_pageWalkDone_fenced h⟩,
    fun hop hf hturn href r hdma hr hq => ?refusedBehind, fun hd hun => ?headEnds⟩
  case refusedBehind =>
    have hd : (s.core c.val).dmaHead ch.val = some d := by
      rw [Core.dmaHead_single (show (s.core c.val).dma = [(ch.val, [d, r])] from hdma), if_pos rfl]
      rfl
    have hm := s.moved_walked c.val (s.core c.val).logInst d (s.core c.val).logInst
    exact ⟨_, exec_pageWalkDone_walks hd hf hturn hop, State.dmaEnd_refused hm hdma hr hq ..⟩
  case headEnds =>
    have hmT : s.Moved (s.cutShort c.val d moved) := s.moved_cutShort ..
    refine ⟨fun hf hop hturn hn hz => ⟨fun hway => ?lost, fun hway => ⟨fun r hop0 hsrc href hready => ?noHost,
        fun bs hgives => ⟨fun l hdst hat => ?ownPad, fun hdst hap => ?hbm, fun r hdst href hready => ?host,
          fun f l hdst hat => ?remote⟩⟩, fun hhost => ?hostError⟩,
      fun hf hop hturn => ?walk, ⟨fun h => ?hbmLeft, fun hw hr => ?hbmTimeout⟩, exec_cplTimeout_other hd,
      fun hop hsrc => ?cplTimeout, fun hop hdst hap => ?seamTimeout, fun h => ?seamLeft, fun h => ?rqTimeout,
      fun h => ?rqLeft⟩
    case lost =>
      exact ⟨_, exec_dmaTransferDone_lost hun hd hf hop hturn hn hway, (State.Moved.refl s).onlyCore_end hun ..,
        (State.Moved.refl s).endsIn hun ..⟩
    case noHost =>
      have hm := s.moved_hostError (winNo d.src / 128)
      refine ⟨_, exec_dmaTransferDone_noHost hun hd hf hop hturn hn hway hop0 hsrc href hready, ⟨?_, ?_⟩, hm.endsIn hun ..⟩
      · rw [(hm.ended hun ..).1]
        rfl
      · rw [(hm.ended hun ..).1]
        exact State.rd_wr ..
    case ownPad => exact exec_dmaTransferDone_local hun hd hf hop hturn hn hz hway hgives hdst hat
    case hbm => exact exec_dmaTransferDone_hbm hun hd hf hop hturn hn hz hway hgives hdst hap
    case host => exact exec_dmaTransferDone_host hun hd hf hop hturn hn hz hway hgives hdst href hready
    case remote => exact exec_dmaTransferDone_remote hun hd hf hop hturn hn hz hway hgives hdst hat
    case hostError =>
      have hm : s.Moved ((s.dmaMove c.val d (min data.length d.length) data).1.dmaHostError d) :=
        (s.moved_dmaMove ..).trans (State.moved_hostError ..)
      exact ⟨_, exec_dmaTransferDone_hostError hd hf hturn hop (Core.Unrefused.head hun hd) hhost, trivial, hm.endsIn hun ..⟩
    case walk =>
      intro w
      have hm := s.moved_walked c.val (s.core c.val).logInst d (s.core c.val).logInst
      refine ⟨_, exec_pageWalkDone_walks hd hf hturn hop, fun j hj hst => ?_, hm.endsIn hun ..⟩
      have hi : (s.core c.val).logInst = j.val := by
        unfold Core.logInst
        rw [show (s.core c.val).inst = some j from hj]
      rw [(hm.ended hun ..).1, ← hi]
      exact (congrArg (fun u : State => u.rd (K.walkErrors (s.core c.val).logInst)) (if_pos hst)).trans (State.rd_wr ..)
    case hbmLeft =>
      refine (exec_hbmTimeout_some hd).trans (congrArg Host.Outcome.next (if_neg fun hiff => ?_))
      obtain ⟨hw, hr⟩ := hbmTimeout_iff.mp hiff
      exact h.elim (· hw) hr
    case hbmTimeout =>
      refine ⟨_, (exec_hbmTimeout_some hd).trans (congrArg Host.Outcome.next ((if_pos (hbmTimeout_iff.mpr ⟨hw, hr⟩)).trans
        (s.dmaTimeout_eq ..))), trivial, hmT.endsIn hun ..⟩
    case cplTimeout =>
      have hexec := exec_cplTimeout_host hd (moved := moved) ⟨hop, hsrc⟩
      rw [s.dmaTimeout_eq, if_neg (by omega)] at hexec
      refine ⟨_, hexec, fun _ => ?_, hmT.endsIn hun ..⟩
      have hrd : (State.dmaEnd (s.cutShort c.val d moved) c.val ch.val d 5 0 (min moved d.length)).rd
          (K.cplTimeouts (winNo d.src / 128)) = s.rd (K.cplTimeouts (winNo d.src / 128)) := by
        rw [(hmT.ended hun ..).1]
        exact hmT.timeouts _
      exact (State.rd_wr ..).trans (by rw [hrd])
    case seamTimeout =>
      exact ⟨_, (exec_seamTimeout_some hd).trans (if_pos ⟨hop, hdst, hap⟩), (State.Moved.refl s).onlyCore_end hun ..,
        (State.Moved.refl s).endsIn hun ..⟩
    case seamLeft =>
      refine (exec_seamTimeout_some hd).trans (if_neg ?_)
      rintro ⟨hop, hdst, hap⟩
      rcases h with h | h | h
      · exact hop h
      · exact h hdst
      · exact absurd hap (by rw [show s.aperture (s.core c.val).logInst d.dst = false from h]; exact Bool.false_ne_true)
    case rqTimeout =>
      exact ⟨_, (exec_rqTimeout_channel hd).trans (if_pos h), (State.Moved.refl s).onlyCore_end hun ..,
        (State.Moved.refl s).endsIn hun ..⟩
    case rqLeft => exact (exec_rqTimeout_channel hd).trans (if_neg h)

end Sys2Proof.Machine
end

section
/-! Cache pages, swap slots and the end of a sequence (R257, R264, R274-R276, R281): the rules behind O39. -/

namespace Sys2Proof.Machine

variable {s t u : State}

/-! ## The end of a sequence (R281) -/

/-- What the release of a sequence's pages, swap slots and lists may touch: no sequence, no request, no entry. -/
def State.Released (s t : State) : Prop :=
  t = { s with insts := t.insts, slots := t.slots, tx := t.tx, hbm := t.hbm, hbmPoison := t.hbmPoison, hbmErr := t.hbmErr }

theorem State.Released.eq (h : s.Released t) : t = { s with
    insts := t.insts, slots := t.slots, tx := t.tx, hbm := t.hbm, hbmPoison := t.hbmPoison, hbmErr := t.hbmErr } := h

theorem State.Released.refl (s : State) : s.Released s := rfl

theorem State.Released.trans (h : s.Released t) (h' : t.Released u) : s.Released u := by
  unfold State.Released at *
  rw [h', h]

theorem State.Released.each {α : Type} (l : List α) {f : State → α → State} (h : ∀ s x, State.Released s (f s x)) :
    s.Released (s.each l f) := State.each_rel (R := State.Released) .refl .trans h l s

theorem State.released_setPageUse (s : State) (i n v : Nat) : s.Released (s.setPageUse i n v) := rfl
theorem State.released_setSwapUse (s : State) (i n v : Nat) : s.Released (s.setSwapUse i n v) := rfl

theorem State.released_hbmClear (s : State) (i a n : Nat) : s.Released (s.hbmClear i a n) := .each _ fun _ _ => rfl

theorem State.Released.seq (h : s.Released t) (p : Nat) : t.seq p = s.seq p :=
  congrArg (fun m => mapGet (fun _ => ({} : Seq)) m p) (congrArg State.seqs h.eq :)

/-- The end of a sequence: its index is free with the next generation. -/
structure State.SeqEnded (s t : State) (q : Nat) : Prop where
  frame : t = { s with
    insts := t.insts, slots := t.slots, tx := t.tx, hbm := t.hbm, hbmPoison := t.hbmPoison, hbmErr := t.hbmErr, seqs := t.seqs }
  own : t.seq q = { gen := ((s.seq q).gen + 1) % 65536 }
  others : ∀ p, p ≠ q → t.seq p = s.seq p

theorem State.freeHot_frame (s : State) (q : Nat) :
    s.freeHot q = { s with insts := (s.freeHot q).insts, seqs := (s.freeHot q).seqs } := by
  unfold State.freeHot
  dsimp only
  split <;> rfl

theorem State.seq_freeHot_ne (s : State) {q p : Nat} (h : p ≠ q) : (s.freeHot q).seq p = s.seq p := by
  unfold State.freeHot
  dsimp only
  split
  · rfl
  · exact State.seq_setSeq_ne _ _ _ _ h

theorem State.seqEnded_endSeq {q : Nat} (h : (s.seq q).state ≠ .free) (teardown : Bool) :
    s.SeqEnded (s.endSeq q teardown) q := by
  obtain ⟨u, hu, hend⟩ : ∃ u, s.Released u ∧
      s.endSeq q teardown = (u.freeHot q).setSeq q { gen := ((s.seq q).gen + 1) % 65536 } := by
    unfold State.endSeq
    dsimp only
    rw [if_neg h]
    refine ⟨_, ?_, rfl⟩
    refine State.Released.trans (State.Released.trans ?_ (State.released_hbmClear ..)) (State.released_hbmClear ..)
    split
    · exact ((State.Released.each _ fun s p => s.released_setPageUse _ p _).trans
        (.each _ fun s p => s.released_setSwapUse _ p _)).trans rfl
    · exact (State.Released.each _ fun s p => s.released_setPageUse _ p _).trans
        (.each _ fun s p => s.released_setSwapUse _ p _)
  rw [hend]
  refine ⟨?_, State.seq_setSeq .., fun p hp => ?_⟩
  · rw [u.freeHot_frame, hu.eq]
    rfl
  · exact (State.seq_setSeq_ne _ _ _ _ hp).trans ((u.seq_freeHot_ne hp).trans (hu.seq p))

/-! ## A page zeroed (R257, R264) -/

/-- Memory in which whole 32-bit words may have become zero, and nothing else changed. -/
def ZeroedWords (m m' : Mem) : Prop :=
  ∀ w, (∀ j, j < 4 → memByte m' (4 * w + j) = memByte m (4 * w + j)) ∨ ∀ j, j < 4 → memByte m' (4 * w + j) = 0

theorem ZeroedWords.refl (m : Mem) : ZeroedWords m m := fun _ => .inl fun _ _ => rfl

theorem ZeroedWords.trans {a b c : Mem} (h : ZeroedWords a b) (h' : ZeroedWords b c) : ZeroedWords a c := by
  intro w
  rcases h' w with h' | h'
  · rcases h w with h | h
    · exact .inl fun j hj => (h' j hj).trans (h j hj)
    · exact .inr fun j hj => (h' j hj).trans (h j hj)
  · exact .inr h'

/-- A byte that is zero stays zero. -/
theorem ZeroedWords.zero {m m' : Mem} (h : ZeroedWords m m') {a : Nat} (ha : memByte m a = 0) : memByte m' a = 0 := by
  have hw : a = 4 * (a / 4) + a % 4 := by omega
  have hj : a % 4 < 4 := Nat.mod_lt _ (by decide)
  rcases h (a / 4) with h | h
  · rw [hw, h _ hj, ← hw, ha]
  · rw [hw, h _ hj]

theorem zeroedWords_memZero (m : Mem) (w n : Nat) : ZeroedWords m (memZero m (4 * w) (4 * n)) := by
  intro x
  by_cases hx : w ≤ x ∧ x < w + n
  · exact .inr fun j hj => by rw [memByte_zero, if_pos (by omega)]
  · exact .inl fun j hj => by rw [memByte_zero, if_neg (by omega)]

/-- Where a byte of an aligned unit of an instance's HBM lies. -/
theorem hbmPhys_add (st : List Nat) {a k : Nat} (h : a % 65536 + k < 65536) : hbmPhys st (a + k) = hbmPhys st a + k := by
  have hdiv : (a + k) / 65536 = a / 65536 := by omega
  have hmod : (a + k) % 65536 = a % 65536 + k := by omega
  unfold hbmPhys
  rw [hdiv, hmod]
  omega

theorem hbmPhys_mod (st : List Nat) (a : Nat) : hbmPhys st a % 65536 = a % 65536 := by
  unfold hbmPhys
  omega

/-- An entry's four zero bytes written. -/
theorem State.zeroedWords_setPageEntry (s : State) (q x : Nat) (h : (s.seq q).listAddr % 4 = 0) :
    ZeroedWords s.hbm (s.setPageEntry q x 0).hbm ∧
      ∀ j, j < 4 → memByte (s.setPageEntry q x 0).hbm
        (hbmPhys (s.stacksOf (s.seq q).inst) ((s.seq q).listAddr + 4 * x) + j) = 0 := by
  obtain ⟨a, ha⟩ : ∃ a, (s.seq q).listAddr + 4 * x = a := ⟨_, rfl⟩
  have hmod : a % 4 = 0 := by omega
  obtain ⟨p, hp⟩ : ∃ p, hbmPhys (s.stacksOf (s.seq q).inst) a = p := ⟨_, rfl⟩
  have hpmod : p % 4 = 0 := by
    have := hbmPhys_mod (s.stacksOf (s.seq q).inst) a
    omega
  have hbytes : (s.setPageEntry q x 0).hbm = memPut (memPut (memPut (memPut s.hbm p 0) (p + 1) 0) (p + 2) 0) (p + 3) 0 := by
    have hk : ∀ k, k < 4 → hbmPhys (s.stacksOf (s.seq q).inst) (a + k) = p + k := fun k hk => by
      rw [hbmPhys_add _ (by omega), hp]
    have hlist : (leBytes 4 0).zipIdx = [(0, 0), (0, 1), (0, 2), (0, 3)] := by decide
    unfold State.setPageEntry State.hbmWrite State.hbmRenew
    dsimp only
    rw [hlist, ha]
    simp only [List.foldl_cons, List.foldl_nil, hp, hk 1 (by omega), hk 2 (by omega), hk 3 (by omega), Nat.add_zero]
  have hread : ∀ b, memByte (s.setPageEntry q x 0).hbm b = if p ≤ b ∧ b < p + 4 then 0 else memByte s.hbm b := by
    intro b
    rw [hbytes, memByte_put, memByte_put, memByte_put, memByte_put]
    by_cases hb : p ≤ b ∧ b < p + 4
    · rw [if_pos hb]
      obtain rfl | rfl | rfl | rfl : b = p ∨ b = p + 1 ∨ b = p + 2 ∨ b = p + 3 := by omega
      all_goals simp
    · rw [if_neg hb, if_neg (by omega), if_neg (by omega), if_neg (by omega), if_neg (by omega)]
  refine ⟨fun w => ?_, fun j hj => by rw [ha, hp, hread, if_pos (by omega)]⟩
  by_cases hw : 4 * w = p
  · exact .inr fun j hj => by rw [hread, if_pos (by omega)]
  · exact .inl fun j hj => by rw [hread, if_neg (by omega)]

end Sys2Proof.Machine
end

section
/-! A zeroed page and the entries that named it (R257, R264): the rules behind O39. -/

namespace Sys2Proof.Machine

variable {s t u : State}

/-- Only bytes of the HBM stacks, and their marks, differ; bytes that were zero are. -/
structure State.Clears (s t : State) : Prop where
  frame : t = { s with hbm := t.hbm, hbmPoison := t.hbmPoison, hbmErr := t.hbmErr }
  zero : ∀ b, memByte s.hbm b = 0 → memByte t.hbm b = 0

theorem State.Clears.refl (s : State) : s.Clears s := ⟨rfl, fun _ h => h⟩

theorem State.Clears.trans (h : s.Clears t) (h' : t.Clears u) : s.Clears u :=
  ⟨by rw [h'.frame, h.frame], fun b hb => h'.zero b (h.zero b hb)⟩

theorem State.Clears.each {α : Type} (l : List α) {f : State → α → State} (h : ∀ s x, State.Clears s (f s x)) :
    s.Clears (s.each l f) := State.each_rel (R := State.Clears) .refl .trans h l s

theorem State.Clears.seq (h : s.Clears t) (q : Nat) : t.seq q = s.seq q :=
  congrArg (fun m => mapGet (fun _ => ({} : Seq)) m q) (congrArg State.seqs h.frame :)

theorem State.Clears.stacksOf (h : s.Clears t) (i : Nat) : t.stacksOf i = s.stacksOf i := by
  have hinsts : t.insts = s.insts := (congrArg State.insts h.frame :)
  unfold State.stacksOf State.inst
  rw [hinsts]

/-- Zeros written keep zero bytes zero. -/
theorem zeros_foldl (f : Nat → Nat) {b : Nat} : ∀ (l : List (Byte × Nat)) (m : Mem), (∀ p ∈ l, p.1 = 0) → memByte m b = 0 →
    memByte (l.foldl (fun m p => memPut m (f p.2) p.1) m) b = 0
  | [], _, _, h => h
  | p :: l, m, hl, h => by
    refine zeros_foldl f l _ (fun q hq => hl q (List.mem_cons_of_mem p hq)) ?_
    rw [memByte_put, hl p List.mem_cons_self]
    split
    · rfl
    · exact h

theorem State.clears_setPageEntry (s : State) (q x : Nat) : s.Clears (s.setPageEntry q x 0) := by
  refine ⟨rfl, fun b hb => ?_⟩
  unfold State.setPageEntry State.hbmWrite State.hbmRenew
  exact zeros_foldl (fun k => hbmPhys _ (_ + k)) _ _ (by decide) hb

/-- The entries of a sequence with a value become zero. -/
def State.clearEntries (s : State) (q v : Nat) : State :=
  s.each (s.entriesWhere q fun e => e == v) fun s x => s.setPageEntry q x 0

theorem State.clears_clearEntries (s : State) (q v : Nat) : s.Clears (s.clearEntries q v) :=
  .each _ fun s x => s.clears_setPageEntry q x

/-! ## Entries read word by word -/

theorem State.pageEntry_eq (s : State) (q x : Nat) (h : (s.seq q).listAddr % 4 = 0) :
    s.pageEntry q x = leNat ((List.range 4).map fun j =>
      memByte s.hbm (hbmPhys (s.stacksOf (s.seq q).inst) ((s.seq q).listAddr + 4 * x) + j)) := by
  unfold State.pageEntry State.hbmRead
  refine congrArg leNat (List.map_congr_left fun j hj => ?_)
  rw [hbmPhys_add _ (by have := List.mem_range.mp hj; omega)]

theorem leNat_zeros {f : Nat → Byte} (h : ∀ j, j < 4 → f j = 0) : leNat ((List.range 4).map f) = 0 := by
  have hmap : (List.range 4).map f = [0, 0, 0, 0] := by
    rw [show List.range 4 = [0, 1, 2, 3] from rfl]
    simp only [List.map_cons, List.map_nil, h 0 (by omega), h 1 (by omega), h 2 (by omega), h 3 (by omega)]
  rw [hmap]
  rfl

/-- Where whole words may have become zero, an entry reads as before or as zero. -/
theorem State.pageEntry_zeroed {q x : Nat} (hseq : t.seq q = s.seq q) (hst : t.stacksOf (s.seq q).inst = s.stacksOf (s.seq q).inst)
    (h : ZeroedWords s.hbm t.hbm) (hal : (s.seq q).listAddr % 4 = 0) :
    t.pageEntry q x = s.pageEntry q x ∨ t.pageEntry q x = 0 := by
  rw [s.pageEntry_eq q x hal, t.pageEntry_eq q x (by rw [hseq]; exact hal), hseq, hst]
  obtain ⟨p, hp⟩ : ∃ p, hbmPhys (s.stacksOf (s.seq q).inst) ((s.seq q).listAddr + 4 * x) = p := ⟨_, rfl⟩
  have hw : p = 4 * (p / 4) := by
    have := hbmPhys_mod (s.stacksOf (s.seq q).inst) ((s.seq q).listAddr + 4 * x)
    omega
  rw [hp, hw]
  rcases h (p / 4) with h | h
  · exact .inl (congrArg leNat (List.map_congr_left fun j hj => h j (List.mem_range.mp hj)))
  · exact .inr (leNat_zeros h)

theorem State.pageEntry_set {q x : Nat} (hal : (s.seq q).listAddr % 4 = 0) : (s.setPageEntry q x 0).pageEntry q x = 0 := by
  have hclears := s.clears_setPageEntry q x
  have hseq := hclears.seq q
  rw [(s.setPageEntry q x 0).pageEntry_eq q x (by rw [hseq]; exact hal), hseq, hclears.stacksOf]
  exact leNat_zeros (s.zeroedWords_setPageEntry q x hal).2

/-- Whole words may have become zero, and nothing else. -/
structure State.WordsCleared (s t : State) : Prop extends s.Clears t where
  words : ZeroedWords s.hbm t.hbm

theorem State.WordsCleared.refl (s : State) : s.WordsCleared s := ⟨.refl s, .refl _⟩

theorem State.WordsCleared.trans (h : s.WordsCleared t) (h' : t.WordsCleared u) : s.WordsCleared u :=
  ⟨h.toClears.trans h'.toClears, h.words.trans h'.words⟩

theorem State.WordsCleared.entry (h : s.WordsCleared t) {q x : Nat} (hal : (s.seq q).listAddr % 4 = 0) :
    t.pageEntry q x = s.pageEntry q x ∨ t.pageEntry q x = 0 :=
  State.pageEntry_zeroed (h.seq q) (h.stacksOf _) h.words hal

theorem State.WordsCleared.entry_zero (h : s.WordsCleared t) {q x : Nat} (hal : (s.seq q).listAddr % 4 = 0)
    (hz : s.pageEntry q x = 0) : t.pageEntry q x = 0 := by
  rcases h.entry hal with h | h
  · rw [h, hz]
  · exact h

theorem State.wordsCleared_setPageEntry {q : Nat} (x : Nat) (hal : (s.seq q).listAddr % 4 = 0) :
    s.WordsCleared (s.setPageEntry q x 0) := ⟨s.clears_setPageEntry q x, (s.zeroedWords_setPageEntry q x hal).1⟩

/-- Entries of a sequence set to zero, one after another. -/
theorem State.wordsCleared_setAll {q : Nat} : ∀ (xs : List Nat) (s : State), (s.seq q).listAddr % 4 = 0 →
    s.WordsCleared (s.each xs fun s x => s.setPageEntry q x 0) ∧
      ∀ x ∈ xs, (s.each xs fun s x => s.setPageEntry q x 0).pageEntry q x = 0
  | [], s, _ => ⟨.refl s, fun _ hx => absurd hx List.not_mem_nil⟩
  | y :: ys, s, hal => by
    have hone := s.wordsCleared_setPageEntry y hal
    have hal' : ((s.setPageEntry q y 0).seq q).listAddr % 4 = 0 := by rw [hone.seq]; exact hal
    obtain ⟨hrest, hzero⟩ := State.wordsCleared_setAll ys (s.setPageEntry q y 0) hal'
    refine ⟨hone.trans hrest, fun x hx => ?_⟩
    rcases List.mem_cons.mp hx with rfl | hx
    · exact hrest.entry_zero hal' (State.pageEntry_set hal)
    · exact hzero x hx

theorem State.wordsCleared_clearEntries {q : Nat} (v : Nat) (hal : (s.seq q).listAddr % 4 = 0) :
    s.WordsCleared (s.clearEntries q v) ∧
      ∀ x, x < (s.seq q).listLen → s.pageEntry q x = v ∨ s.pageEntry q x = 0 → (s.clearEntries q v).pageEntry q x = 0 := by
  obtain ⟨hall, hzero⟩ := State.wordsCleared_setAll (s.entriesWhere q fun e => e == v) s hal
  refine ⟨hall, fun x hx hv => ?_⟩
  rcases hv with hv | hv
  · refine hzero x (List.mem_filter.mpr ⟨List.mem_range.mpr hx, ?_⟩)
    exact beq_iff_eq.mpr hv
  · exact hall.entry_zero hal hv

theorem State.wordsCleared_clearAll {v : Nat} : ∀ (qs : List Nat) (s : State), (∀ r ∈ qs, (s.seq r).listAddr % 4 = 0) →
    s.WordsCleared (s.each qs fun s r => s.clearEntries r v)
  | [], s, _ => .refl s
  | r :: qs, s, hal => by
    have hone := (s.wordsCleared_clearEntries v (hal r List.mem_cons_self)).1
    refine hone.trans (State.wordsCleared_clearAll qs (s.clearEntries r v) fun r' hr' => ?_)
    rw [hone.seq]
    exact hal r' (List.mem_cons_of_mem r hr')

/-- Over several sequences, one of which holds the entry. -/
theorem State.clearAll_entry {v q x : Nat} : ∀ (qs : List Nat) (s : State), (∀ r ∈ qs, (s.seq r).listAddr % 4 = 0) →
    q ∈ qs → x < (s.seq q).listLen → s.pageEntry q x = v ∨ s.pageEntry q x = 0 →
    (s.each qs fun s r => s.clearEntries r v).pageEntry q x = 0
  | [], _, _, hq, _, _ => absurd hq List.not_mem_nil
  | r :: qs, s, hal, hq, hx, hv => by
    have halr := hal r List.mem_cons_self
    have halq := hal q hq
    obtain ⟨hone, hentries⟩ := s.wordsCleared_clearEntries v halr
    have hal' : ∀ r' ∈ qs, ((s.clearEntries r v).seq r').listAddr % 4 = 0 := fun r' hr' => by
      rw [hone.seq]
      exact hal r' (List.mem_cons_of_mem r hr')
    by_cases hr : q = r
    · subst hr
      have halu : ((s.clearEntries q v).seq q).listAddr % 4 = 0 := by rw [hone.seq]; exact halq
      exact (State.wordsCleared_clearAll qs _ hal').entry_zero halu (hentries x hx hv)
    · refine State.clearAll_entry qs (s.clearEntries r v) hal' ((List.mem_cons.mp hq).resolve_left hr) ?_ ?_
      · rw [hone.seq]
        exact hx
      · rcases hone.entry (x := x) halq with h | h
        · rw [h]
          exact hv
        · exact .inr h

/-! ## PAGE_ZERO_DONE -/

section
variable {i : InstId} {p : Nat}

/-- The state with the page zero and free. -/
def State.pageZeroed (s : State) (i p : Nat) : State := (s.hbmZeroPage i (s.pageAddr i p)).setPageUse i p 0

/-- The sequences listed in an instance's name. -/
def State.seqsOf (s : State) (i : Nat) : List Nat := (s.seqs.filter fun p => p.2.inst == i).map (·.1)

theorem exec_pageZeroDone_zeroing (h : 1000 ≤ s.pageUse i.val p) : exec (.pageZeroDone i p) s =
    .next ((s.pageZeroed i.val p).each (s.seqsOf i.val) fun s q => s.clearEntries q (2 ^ 29 + p)) := by
  rw [exec_pageZeroDone]
  unfold execPageZeroDone
  exact if_neg (by omega)

theorem State.clears_pageEntries (s : State) (qs : List Nat) (v : Nat) :
    s.Clears (s.each qs fun s q => s.clearEntries q v) := .each _ fun s q => s.clears_clearEntries q v

theorem State.inst_pageZeroed (s : State) (i p j : Nat) : (s.pageZeroed i p).inst j =
    if j = i then { s.inst i with pages := mapSet (fun _ => 0) (s.inst i).pages p 0 } else s.inst j :=
  State.inst_setInst_if ..

theorem State.stacksOf_pageZeroed (s : State) (i p j : Nat) : (s.pageZeroed i p).stacksOf j = s.stacksOf j := by
  have hpanels : ((s.pageZeroed i p).inst j).panels = (s.inst j).panels := by
    rw [State.inst_pageZeroed]
    split
    · next hj => rw [hj]
    · rfl
  unfold State.stacksOf
  rw [hpanels]

theorem State.hbm_pageZeroed (s : State) (i p : Nat) :
    (s.pageZeroed i p).hbm = memZero s.hbm (hbmPhys (s.stacksOf i) (s.pageAddr i p)) 65536 := rfl

/-- The bytes of a page at an aligned place are zero. -/
theorem State.page_pageZeroed (h : (s.inst i.val).poolBase % 65536 = 0) {k : Nat} (hk : k < 65536) :
    memByte (s.pageZeroed i.val p).hbm (hbmPhys (s.stacksOf i.val) (s.pageAddr i.val p + k)) = 0 := by
  have hal : s.pageAddr i.val p % 65536 = 0 := by
    unfold State.pageAddr
    omega
  rw [State.hbm_pageZeroed, hbmPhys_add _ (by omega), memByte_zero, if_pos (by omega)]

theorem State.words_pageZeroed (h : (s.inst i.val).poolBase % 65536 = 0) : ZeroedWords s.hbm (s.pageZeroed i.val p).hbm := by
  have hal : s.pageAddr i.val p % 65536 = 0 := by
    unfold State.pageAddr
    omega
  have hmod := hbmPhys_mod (s.stacksOf i.val) (s.pageAddr i.val p)
  rw [State.hbm_pageZeroed, show hbmPhys (s.stacksOf i.val) (s.pageAddr i.val p) =
    4 * (hbmPhys (s.stacksOf i.val) (s.pageAddr i.val p) / 4) by omega]
  exact zeroedWords_memZero _ _ 16384

/-- Every listed sequence's record stands in the list. -/
theorem State.seq_aligned (h : ∀ y ∈ s.seqs, y.2.listAddr % 4 = 0) (q : Nat) : (s.seq q).listAddr % 4 = 0 := by
  rcases mapGet_mem (fun _ => ({} : Seq)) s.seqs q with hq | hq
  · rw [show s.seq q = {} from hq]
    rfl
  · exact h _ hq

end

end Sys2Proof.Machine
end

section
/-! Copies and zeroing of cache pages and swap slots, clause by clause: O39. -/

namespace Sys2Proof.Machine

variable {s : State} {q : Fin 65536} {entry : Nat} {page : List Byte} {ok : Bool} {m : Nat × Nat × Nat}

/-! ## Copies (R274-R276) -/

theorem State.copyOf_moving {x : Nat} {out : Bool} (h : s.copyOf q.val x out = some m) :
    (s.seq q.val).movingOut = out ∧ (s.seq q.val).state ≠ .free := by
  unfold State.copyOf at h
  dsimp only at h
  split at h
  · next hcond => exact hcond
  · cases h

/-- A page's bytes written to its swap slot, and whether they are there. -/
def State.copyOut (s : State) (q : Nat) (m : Nat × Nat × Nat) (ok : Bool) : State × Bool :=
  match s.swapRef (s.seq q).slot m.2.1 with
  | some h => if ok then s.hostWrite h (s.hbmRead (s.seq q).inst (s.pageAddr (s.seq q).inst m.2.2) 65536) else (s, false)
  | none => (s, false)

theorem exec_swapOutCopyDone_some (hm : s.copyOf q.val entry true = some m) : exec (.swapOutCopyDone q entry ok) s =
    if (s.copyOut q.val m ok).2 then .next (((s.copyOut q.val m ok).1.bump (K.pagesOut (s.seq q.val).inst) 64 1).modInst
      (s.seq q.val).inst fun x => { x with changes := x.changes ++ [.swappedOut q.val entry m.2.1] })
    else .next ((s.copyOut q.val m ok).1.outFailed q.val) := by
  rw [exec_swapOutCopyDone]
  unfold execSwapOutCopyDone
  dsimp only
  rw [hm]
  rfl

theorem State.copyOut_good {h : HostRef} (href : s.swapRef (s.seq q.val).slot m.2.1 = some h)
    (hready : s.hostReady h.fn = true) : s.copyOut q.val m true =
      (s.hostPut h (s.hbmRead (s.seq q.val).inst (s.pageAddr (s.seq q.val).inst m.2.2) 65536), true) := by
  unfold State.copyOut
  rw [href]
  dsimp only
  unfold State.hostWrite
  rw [if_pos rfl, if_pos hready]

theorem exec_swapOutCopyDone_good (hm : s.copyOf q.val entry true = some m) {h : HostRef}
    (href : s.swapRef (s.seq q.val).slot m.2.1 = some h) (hready : s.hostReady h.fn = true) :
    exec (.swapOutCopyDone q entry true) s = .next (((s.hostPut h (s.hbmRead (s.seq q.val).inst
      (s.pageAddr (s.seq q.val).inst m.2.2) 65536)).bump (K.pagesOut (s.seq q.val).inst) 64 1).modInst (s.seq q.val).inst
        fun x => { x with changes := x.changes ++ [.swappedOut q.val entry m.2.1] }) := by
  rw [exec_swapOutCopyDone_some hm, State.copyOut_good href hready]
  exact if_pos rfl

/-- A copy whose bytes cannot be in host memory: it failed, or its swap slot has no place there, or none that answers. -/
def State.Unreached (s : State) (slot n : Nat) (ok : Bool) : Prop :=
  ok = false ∨ s.swapRef slot n = none ∨ ∃ h, s.swapRef slot n = some h ∧ s.hostReady h.fn = false

theorem State.copyOut_failed (h : s.Unreached (s.seq q.val).slot m.2.1 ok) : (s.copyOut q.val m ok).2 = false ∧
    (s.copyOut q.val m ok).1 = { s with dict := (s.copyOut q.val m ok).1.dict } ∧
      ∀ n, (s.copyOut q.val m ok).1.rd (K.swapErrors n) = s.rd (K.swapErrors n) := by
  unfold State.copyOut
  cases href : s.swapRef (s.seq q.val).slot m.2.1 with
  | none => exact ⟨rfl, rfl, fun _ => rfl⟩
  | some r =>
    dsimp only
    cases ok with
    | false => exact ⟨rfl, rfl, fun _ => rfl⟩
    | true =>
      have hready : s.hostReady r.fn = false := by
        rcases h with h | h | ⟨r', hr', hready⟩
        · cases h
        · rw [href] at h; cases h
        · rw [Option.some.inj (href.symm.trans hr')]; exact hready
      rw [if_pos rfl]
      unfold State.hostWrite
      rw [if_neg (by simp [hready])]
      refine ⟨rfl, rfl, fun n => State.rd_wr_ne _ _ _ _ ?_⟩
      unfold K.swapErrors K.hostErrors
      omega

theorem exec_swapOutCopyDone_failed (hm : s.copyOf q.val entry true = some m)
    (h : s.Unreached (s.seq q.val).slot m.2.1 ok) : ∃ u : State, exec (.swapOutCopyDone q entry ok) s = .next (u.outFailed q.val) ∧
      u = { s with dict := u.dict } ∧ ∀ n, u.rd (K.swapErrors n) = s.rd (K.swapErrors n) := by
  obtain ⟨hfalse, hframe, hrd⟩ := State.copyOut_failed h
  refine ⟨_, ?_, hframe, hrd⟩
  rw [exec_swapOutCopyDone_some hm, hfalse]
  exact if_neg Bool.false_ne_true

/-- A swap slot's place in host memory answers. -/
def State.swapReached (s : State) (slot n : Nat) : Bool :=
  match s.swapRef slot n with
  | some h => s.hostReady h.fn
  | none => false

theorem State.swapReached_some {slot n : Nat} {h : HostRef} (href : s.swapRef slot n = some h) :
    s.swapReached slot n = s.hostReady h.fn := by
  unfold State.swapReached
  rw [href]

theorem State.Unreached.reached {slot n : Nat} (h : s.Unreached slot n ok) : (ok && s.swapReached slot n) = false := by
  rcases h with rfl | h | ⟨r, hr, hready⟩
  · rfl
  · unfold State.swapReached
    rw [h]
    exact Bool.and_false _
  · rw [State.swapReached_some hr, hready]
    exact Bool.and_false _

/-- The state with the failed copy of a swap-in counted, logged and announced. -/
def State.inFailed (s : State) (q : Nat) : State :=
  let t := s.bump (K.swapErrors (s.seq q).inst) 64 1
  (t.logMg (s.seq q).inst 0x0202 1 0 (s.seq q).slot (t.handleOf q) 1).message (vfOf (s.seq q).slot) 4

theorem exec_swapInCopyDone_some (hm : s.copyOf q.val entry false = some m) : exec (.swapInCopyDone q entry page ok) s =
    if ok && s.swapReached (s.seq q.val).slot m.2.1 then .next (((s.hbmWrite (s.seq q.val).inst
      (s.pageAddr (s.seq q.val).inst m.2.2) (slice page 0 65536)).bump (K.pagesIn (s.seq q.val).inst) 64 1).modInst
        (s.seq q.val).inst fun x => { x with changes := x.changes ++ [.swappedIn q.val entry m.2.2] })
    else match (s.inFailed q.val).reqs.find? fun x => x.live && decide (x.seq = some q.val) with
      | some x => .next ((s.inFailed q.val).endReqSeq x.slot x.key 0x0B)
      | none => .next ((s.inFailed q.val).endSeq q.val false) := by
  rw [exec_swapInCopyDone]
  unfold execSwapInCopyDone
  dsimp only
  rw [hm]
  rfl

theorem State.inFailed_reqs (s : State) (q : Nat) : (s.inFailed q).reqs = s.reqs := by
  unfold State.inFailed
  dsimp only
  rw [State.message_reqs, State.logMg_reqs]
  rfl

theorem exec_swapInCopyDone_good (hm : s.copyOf q.val entry false = some m) {h : HostRef}
    (href : s.swapRef (s.seq q.val).slot m.2.1 = some h) (hready : s.hostReady h.fn = true) :
    exec (.swapInCopyDone q entry page true) s = .next (((s.hbmWrite (s.seq q.val).inst
      (s.pageAddr (s.seq q.val).inst m.2.2) (slice page 0 65536)).bump (K.pagesIn (s.seq q.val).inst) 64 1).modInst
        (s.seq q.val).inst fun x => { x with changes := x.changes ++ [.swappedIn q.val entry m.2.2] }) := by
  rw [exec_swapInCopyDone_some hm, State.swapReached_some href, hready]
  exact if_pos rfl

section
variable (hm : s.copyOf q.val entry false = some m) (h : s.Unreached (s.seq q.val).slot m.2.1 ok)
include hm h

theorem exec_swapInCopyDone_request {x : Req} (hx : (s.reqs.find? fun x => x.live && decide (x.seq = some q.val)) = some x) :
    exec (.swapInCopyDone q entry page ok) s = .next ((s.inFailed q.val).endReqSeq x.slot x.key 0x0B) := by
  rw [exec_swapInCopyDone_some hm, h.reached, s.inFailed_reqs, hx]
  exact if_neg Bool.false_ne_true

theorem exec_swapInCopyDone_alone (hx : ∀ y ∈ s.reqs, y.live = true → y.seq ≠ some q.val) :
    exec (.swapInCopyDone q entry page ok) s = .next ((s.inFailed q.val).endSeq q.val false) := by
  have hnone : (s.reqs.find? fun x => x.live && decide (x.seq = some q.val)) = none := by
    rw [List.find?_eq_none]
    intro y hy hcond
    rw [Bool.and_eq_true, decide_eq_true_eq] at hcond
    exact hx y hy hcond.1 hcond.2
  rw [exec_swapInCopyDone_some hm, h.reached, s.inFailed_reqs, hnone]
  exact if_neg Bool.false_ne_true

end

theorem swapErrors_not_logKey (n : Nat) (hn : n < 12) : K.swapErrors n ∉ logKeys :=
  not_logKey (by unfold K.swapErrors; omega)

/-- What the failed copy of a swap-in leaves before its sequence goes. -/
theorem State.inFailed_spec (s : State) (q : Nat) (hi : (s.seq q).inst < 12) :
    (s.inFailed q).seqs = s.seqs ∧ (s.inFailed q).reqs = s.reqs ∧
      (s.inFailed q).rd (K.swapErrors (s.seq q).inst) = (s.rd (K.swapErrors (s.seq q).inst) + 1) % 2 ^ 64 := by
  unfold State.inFailed
  dsimp only
  refine ⟨?_, ?_, ?_⟩
  · rw [State.message_seqs, State.logMg_seqs]
    rfl
  · rw [State.message_reqs, State.logMg_reqs]
    rfl
  · rw [State.message_rd, State.logMg_rd _ _ _ _ _ _ _ _ (swapErrors_not_logKey _ hi)]
    exact State.rd_wr ..

/-! ## A copy-out that failed (R275) -/

/-- Swap slots given back, one after another. -/
theorem State.swapUse_freeAll (slot : Nat) : ∀ (ms : List (Nat × Nat × Nat)) (s : State) (n : Nat),
    (s.each ms fun s m => s.setSwapUse slot m.2.1 0).swapUse slot n =
      if n ∈ ms.map (·.2.1) then 0 else s.swapUse slot n
  | [], _, _ => (if_neg List.not_mem_nil).symm
  | m :: ms, s, n => by
    have hone : (s.setSwapUse slot m.2.1 0).swapUse slot n = if n = m.2.1 then 0 else s.swapUse slot n := by
      unfold State.swapUse State.setSwapUse
      rw [State.modSlot_eq, State.slot_setSlot]
      exact mapGet_set (fun _ => 0) (s.slot slot).swap m.2.1 n 0
    refine (State.swapUse_freeAll slot ms (s.setSwapUse slot m.2.1 0) n).trans ?_
    rw [hone, List.map_cons]
    by_cases hn : n = m.2.1
    · rw [if_pos hn, if_pos (List.mem_cons.mpr (.inl hn)), ite_self]
    · simp only [List.mem_cons, hn, false_or, if_false]

/-- The copies of a sequence that wait for their tack. -/
def State.outWaits (s : State) (q : Nat) (m : Nat × Nat × Nat) : Bool :=
  (s.inst (s.seq q).inst).changes.contains (.swappedOut q m.1 m.2.1)

/-- The failure of a copy-out counted, logged and announced, with the copies that wait for no tack given up. -/
def State.outStopped (s : State) (q : Nat) : State :=
  let t := s.each ((s.seq q).moving.filter fun m => !s.outWaits q m) fun t m => t.setSwapUse (s.seq q).slot m.2.1 0
  let t := t.modSeq q fun x => { x with moving := x.moving.filter (s.outWaits q) }
  let t := t.bump (K.swapErrors (s.seq q).inst) 64 1
  (t.logMg (s.seq q).inst 0x0202 1 0 (s.seq q).slot (t.handleOf q) 0).message (vfOf (s.seq q).slot) 4

theorem State.seq_freeAll (slot : Nat) (ms : List (Nat × Nat × Nat)) (s : State) :
    (s.each ms fun s m => s.setSwapUse slot m.2.1 0) = { s with
      slots := (s.each ms fun s m => s.setSwapUse slot m.2.1 0).slots } :=
  State.each_rel (R := fun a b : State => b = { a with slots := b.slots }) (fun _ => rfl) (fun h h' => by rw [h', h])
    (fun _ _ => rfl) ms s

/-- What the stop of a swap-out leaves. -/
structure State.OutStopped (s t : State) (q : Nat) : Prop where
  frame : t = { s with slots := t.slots, seqs := t.seqs, dict := t.dict, log := t.log, fns := t.fns, sent := t.sent
                       logMsgAt := t.logMsgAt, logMsgHeld := t.logMsgHeld }
  own : t.seq q = { s.seq q with moving := (s.seq q).moving.filter (s.outWaits q) }
  others : ∀ p, p ≠ q → t.seq p = s.seq p
  counted : t.rd (K.swapErrors (s.seq q).inst) = (s.rd (K.swapErrors (s.seq q).inst) + 1) % 2 ^ 64
  freed : ∀ m ∈ (s.seq q).moving, s.outWaits q m = false → t.swapUse (s.seq q).slot m.2.1 = 0

theorem State.outStopped_spec (s : State) (q : Nat) (hi : (s.seq q).inst < 12) : s.OutStopped (s.outStopped q) q := by
  obtain ⟨u, hu⟩ : ∃ u, u = s.each ((s.seq q).moving.filter fun m => !s.outWaits q m) fun t m =>
    t.setSwapUse (s.seq q).slot m.2.1 0 := ⟨_, rfl⟩
  have hframe := s.seq_freeAll (s.seq q).slot ((s.seq q).moving.filter fun m => !s.outWaits q m)
  have hfree := State.swapUse_freeAll (s.seq q).slot ((s.seq q).moving.filter fun m => !s.outWaits q m) s
  rw [← hu] at hframe hfree
  have hseq : ∀ p, u.seq p = s.seq p := fun p =>
    congrArg (fun m => mapGet (fun _ => ({} : Seq)) m p) (congrArg State.seqs hframe :)
  have hrd : ∀ k, u.rd k = s.rd k := fun k => congrArg (fun m => mapGet dictDefault m k) (congrArg State.dict hframe :)
  obtain ⟨v, hv⟩ : ∃ v, v = (u.modSeq q fun x => { x with moving := x.moving.filter (s.outWaits q) }).bump
    (K.swapErrors (s.seq q).inst) 64 1 := ⟨_, rfl⟩
  have hstop : s.outStopped q = (v.logMg (s.seq q).inst 0x0202 1 0 (s.seq q).slot (v.handleOf q) 0).message
      (vfOf (s.seq q).slot) 4 := by
    rw [hv, hu]
    rfl
  have hlog := (v.logMg_only (s.seq q).inst 0x0202 1 0 (s.seq q).slot (v.handleOf q) 0).trans
    (State.message_only (v.logMg (s.seq q).inst 0x0202 1 0 (s.seq q).slot (v.handleOf q) 0) (vfOf (s.seq q).slot) 4).toLog
  rw [← hstop] at hlog
  refine ⟨?_, ?_, fun p hp => ?_, ?_, fun m hm hw => ?_⟩
  · rw [hlog.eq, hv, hframe]
    rfl
  · refine (congrArg (fun m => mapGet (fun _ => ({} : Seq)) m q) hlog.seqs).trans ?_
    rw [hv]
    refine (State.seq_setSeq ..).trans ?_
    rw [hseq]
  · refine (congrArg (fun m => mapGet (fun _ => ({} : Seq)) m p) hlog.seqs).trans ?_
    rw [hv]
    exact (State.seq_setSeq_ne _ _ _ _ hp).trans (hseq p)
  · rw [hstop, State.message_rd, State.logMg_rd _ _ _ _ _ _ _ _ (swapErrors_not_logKey _ hi), hv]
    refine (State.rd_wr ..).trans ?_
    exact congrArg (fun n => (n + 1) % 2 ^ 64) (hrd _)
  · have hslots : (s.outStopped q).slots = u.slots := by
      rw [hlog.slots, hv]
      rfl
    have huse : (s.outStopped q).swapUse (s.seq q).slot m.2.1 = u.swapUse (s.seq q).slot m.2.1 := by
      unfold State.swapUse State.slot
      rw [hslots]
    rw [huse, hfree, if_pos]
    exact List.mem_map.mpr ⟨m, List.mem_filter.mpr ⟨hm, by rw [hw]; rfl⟩, rfl⟩

/-- What a failed copy-out leaves where no SWAP_OUT request waits for its sequence. -/
structure State.OutFailed (s t : State) (q : Nat) : Prop where
  frame : t = { s with slots := t.slots, seqs := t.seqs, dict := t.dict, log := t.log, fns := t.fns, sent := t.sent
                       logMsgAt := t.logMsgAt, logMsgHeld := t.logMsgHeld }
  own : t.seq q = { s.seq q with
    moving := (s.seq q).moving.filter (s.outWaits q), movingOut := (s.seq q).moving.any (s.outWaits q) }
  others : ∀ p, p ≠ q → t.seq p = s.seq p
  counted : t.rd (K.swapErrors (s.seq q).inst) = (s.rd (K.swapErrors (s.seq q).inst) + 1) % 2 ^ 64
  freed : ∀ m ∈ (s.seq q).moving, s.outWaits q m = false → t.swapUse (s.seq q).slot m.2.1 = 0

theorem State.outFailed_spec {q : Nat} (hi : (s.seq q).inst < 12) (hout : (s.seq q).movingOut = true)
    (hreq : ∀ y ∈ s.reqs, y.live = true → y.opcode = 4 → y.seq ≠ some q) : s.OutFailed (s.outFailed q) q := by
  have h := s.outStopped_spec q hi
  have hreqs : (s.outStopped q).reqs = s.reqs := (congrArg State.reqs h.frame :)
  have hnone : ((s.outStopped q).reqs.find? fun x => x.live && x.opcode == 4 && decide (x.seq = some q)) = none := by
    rw [hreqs, List.find?_eq_none]
    intro y hy hcond
    rw [Bool.and_eq_true, Bool.and_eq_true, decide_eq_true_eq, beq_iff_eq] at hcond
    exact hreq y hy hcond.1.1 hcond.1.2 hcond.2
  have heq : s.outFailed q = if ((s.outStopped q).seq q).moving.isEmpty then
      (match ((s.outStopped q).modSeq q fun x => { x with movingOut := false }).reqs.find? fun x =>
          x.live && x.opcode == 4 && decide (x.seq = some q) with
        | some x => ((s.outStopped q).modSeq q fun x => { x with movingOut := false }).endReq x.slot x.key 0
        | none => (s.outStopped q).modSeq q fun x => { x with movingOut := false })
      else s.outStopped q := rfl
  have hany : (s.seq q).moving.any (s.outWaits q) = !((s.seq q).moving.filter (s.outWaits q)).isEmpty := by
    rw [Bool.eq_iff_iff, List.any_eq_true]
    simp
  rw [heq, h.own]
  dsimp only
  split
  · next hempty =>
    have hfind : (((s.outStopped q).modSeq q fun x => { x with movingOut := false }).reqs.find? fun x =>
        x.live && x.opcode == 4 && decide (x.seq = some q)) = none := hnone
    rw [hfind]
    refine ⟨?_, ?_, fun p hp => (State.seq_setSeq_ne _ _ _ _ hp).trans (h.others p hp), h.counted, h.freed⟩
    · rw [State.modSeq_eq, h.frame]
      rfl
    · refine (State.seq_setSeq ..).trans ?_
      rw [h.own, hany, hempty]
      rfl
  · next hsome =>
    refine ⟨h.frame, ?_, h.others, h.counted, h.freed⟩
    rw [h.own, hany, Bool.eq_false_iff.mpr hsome, Bool.not_false, ← hout]

end Sys2Proof.Machine
end

section
/-! Copies and zeroing of cache pages and swap slots: O39. -/

namespace Sys2Proof.Machine

variable {s : State}

theorem State.hostWrite_frame (s : State) (r : HostRef) (bs : List Byte) :
    (s.hostWrite r bs).1 = { s with hostMem := (s.hostWrite r bs).1.hostMem, dict := (s.hostWrite r bs).1.dict } := by
  unfold State.hostWrite
  split <;> rfl

theorem State.hostMem_hostPut (s : State) (r : HostRef) (bs : List Byte) :
    (s.hostPut r bs).hostMem = memWrite s.hostMem (r.port * 2 ^ 64 + r.addr) bs ∧ (s.hostPut r bs).dict = s.dict := ⟨rfl, rfl⟩

theorem State.setSwapUse_memory (s : State) (slot n v : Nat) :
    (s.setSwapUse slot n v).hostMem = s.hostMem ∧ (s.setSwapUse slot n v).dict = s.dict := ⟨rfl, rfl⟩

/-- Bytes put into host memory, counted, and a change left to an instance's tack. -/
theorem State.put_counted (s : State) (r : HostRef) (bs : List Byte) (key w n i : Nat) (f : Inst → Inst) :
    let t := ((s.hostPut r bs).bump key w n).modInst i f
    t = { s with hostMem := t.hostMem, dict := t.dict, insts := t.insts } ∧
      t.hostMem = memWrite s.hostMem (r.port * 2 ^ 64 + r.addr) bs ∧ t.rd key = (s.rd key + n) % 2 ^ w ∧
      (∀ y, y ≠ key → t.rd y = s.rd y) ∧ t.inst i = f (s.inst i) ∧ ∀ j, j ≠ i → t.inst j = s.inst j :=
  ⟨rfl, rfl, State.rd_wr .., fun _ hy => State.rd_wr_ne _ _ _ _ hy, State.inst_setInst .., fun _ hj =>
    State.inst_setInst_ne _ _ _ _ hj⟩

/-- A swap slot written with zeros and given back. -/
theorem exec_swapSlotZeroDone_zeroing {slot : SlotId} {n : Nat} (h : 2 ^ 20 ≤ s.swapUse slot.val n) :
    exec (.swapSlotZeroDone slot n) s = .next (State.setSwapUse (match s.swapRef slot.val n with
      | some r => (s.hostWrite r (List.replicate 65536 0)).1
      | none => s) slot.val n 0) := by
  rw [exec_swapSlotZeroDone]
  unfold execSwapSlotZeroDone
  exact if_neg (by omega)

theorem State.swapUse_setSwapUse (s : State) (slot n v m : Nat) :
    (s.setSwapUse slot n v).swapUse slot m = if m = n then v else s.swapUse slot m := by
  unfold State.swapUse State.setSwapUse
  rw [State.modSlot_eq, State.slot_setSlot]
  exact mapGet_set (fun _ => 0) (s.slot slot).swap n m v

theorem State.pageUse_pageZeroed (s : State) (i p n : Nat) :
    (s.pageZeroed i p).pageUse i n = if n = p then 0 else s.pageUse i n := by
  unfold State.pageUse
  rw [State.inst_pageZeroed, if_pos rfl]
  exact mapGet_set (fun _ => 0) (s.inst i).pages p n 0

/-- Settles O39. -/
theorem pageCopiesAndZeroing : Obligations.PageCopiesAndZeroing := by
  intro s q entry page ok r
  refine ⟨fun h => ?noOut, fun h => ?noIn, fun m h hm href hready hi => ?out, fun m hm hi hfail hreq => ?outFails,
    fun m h hm href hready hi => ?in_, fun m hm hi hfail => ⟨fun y hy => ?inRequest, fun hy => ?inAlone⟩,
    fun i p => ⟨fun h => ?noPage, fun h => ?page⟩, fun slot n => ⟨fun h => ?noSlot, fun h => ?slot⟩⟩
  case noOut =>
    rw [exec_swapOutCopyDone]
    unfold execSwapOutCopyDone
    dsimp only
    rw [h]
  case noIn =>
    rw [exec_swapInCopyDone]
    unfold execSwapInCopyDone
    dsimp only
    rw [h]
  case out =>
    have hput := s.put_counted h (s.hbmRead r.inst (s.pageAddr r.inst m.2.2) 65536) (K.pagesOut r.inst) 64 1 r.inst
      fun x => { x with changes := x.changes ++ [.swappedOut q.val entry m.2.1] }
    exact ⟨_, exec_swapOutCopyDone_good hm href hready, hput⟩
  case outFails =>
    intro waits
    obtain ⟨u, hexec, hframe, hrd⟩ := exec_swapOutCopyDone_failed hm hfail
    have hseq : ∀ p, u.seq p = s.seq p := fun p =>
      congrArg (fun m => mapGet (fun _ => ({} : Seq)) m p) (congrArg State.seqs hframe :)
    have hwaits : u.outWaits q.val = s.outWaits q.val := by
      unfold State.outWaits
      rw [hseq]
      exact congrArg (fun m => fun x : Nat × Nat × Nat => (mapGet (fun _ => ({} : Inst)) m r.inst).changes.contains
        (.swappedOut q.val x.1 x.2.1)) (congrArg State.insts hframe :)
    have hspec := State.outFailed_spec (s := u) (q := q.val) (by rw [hseq]; exact hi)
      (by rw [hseq]; exact (State.copyOf_moving hm).1)
      (by rw [show u.reqs = s.reqs from (congrArg State.reqs hframe :)]; exact hreq)
    obtain ⟨hframe', hown, hothers, hcounted, hfreed⟩ := hspec
    rw [hseq, hwaits] at hown hfreed
    rw [hseq, hrd] at hcounted
    have hkeep : ∀ {α : Type} (f : State → α), f (u.outFailed q.val) = f { u with
        slots := (u.outFailed q.val).slots, seqs := (u.outFailed q.val).seqs, dict := (u.outFailed q.val).dict,
        log := (u.outFailed q.val).log, fns := (u.outFailed q.val).fns, sent := (u.outFailed q.val).sent,
        logMsgAt := (u.outFailed q.val).logMsgAt, logMsgHeld := (u.outFailed q.val).logMsgHeld } := fun f => congrArg f hframe'
    refine ⟨_, hexec, hcounted, hown, fun p hp => (hothers p hp).trans (hseq p), ?_, ?_, ?_, ?_, ?_, hfreed⟩
    · exact (hkeep State.hbm).trans (congrArg State.hbm hframe :)
    · exact (hkeep State.hostMem).trans (congrArg State.hostMem hframe :)
    · exact (hkeep State.cores).trans (congrArg State.cores hframe :)
    · exact (hkeep State.insts).trans (congrArg State.insts hframe :)
    · exact (hkeep State.reqs).trans (congrArg State.reqs hframe :)
  case in_ =>
    exact ⟨_, exec_swapInCopyDone_good hm href hready, rfl, rfl, State.rd_wr .., fun key hkey => State.rd_wr_ne _ _ _ _ hkey,
      State.inst_setInst .., fun j hj => State.inst_setInst_ne _ _ _ _ hj⟩
  case inRequest =>
    exact ⟨_, exec_swapInCopyDone_request hm hfail hy, (s.inFailed_spec q.val hi).1, s.inFailed_reqs q.val,
      (s.inFailed_spec q.val hi).2.2⟩
  case inAlone =>
    obtain ⟨hseqs, hreqs, hcounted⟩ := s.inFailed_spec q.val hi
    have hseq : ∀ p, (s.inFailed q.val).seq p = s.seq p := fun p => congrArg (fun m => mapGet (fun _ => ({} : Seq)) m p) hseqs
    have hend := State.seqEnded_endSeq (s := s.inFailed q.val) (q := q.val) (by rw [hseq]; exact (State.copyOf_moving hm).2) false
    refine ⟨_, exec_swapInCopyDone_alone hm hfail hy, ?_, ?_, fun p hp => (hend.others p hp).trans (hseq p), ?_⟩
    · rw [hend.own, hseq]
    · exact (congrArg (fun m => mapGet dictDefault m (K.swapErrors r.inst)) (congrArg State.dict hend.frame :)).trans hcounted
    · exact (congrArg State.reqs hend.frame :).trans hreqs
  case noPage =>
    rw [exec_pageZeroDone]
    exact if_pos h
  case page =>
    have hclears := (s.pageZeroed i.val p).clears_pageEntries (s.seqsOf i.val) (2 ^ 29 + p)
    obtain ⟨t, ht⟩ : ∃ t, t = (s.pageZeroed i.val p).each (s.seqsOf i.val) fun s q => s.clearEntries q (2 ^ 29 + p) := ⟨_, rfl⟩
    have hexec := exec_pageZeroDone_zeroing h
    rw [← ht] at hclears hexec
    have hinst : ∀ j, t.inst j = (s.pageZeroed i.val p).inst j := fun j =>
      congrArg (fun m => mapGet (fun _ => ({} : Inst)) m j) (congrArg State.insts hclears.frame :)
    have huse : ∀ n, t.pageUse i.val n = if n = p then 0 else s.pageUse i.val n := fun n => by
      rw [← State.pageUse_pageZeroed]
      exact congrArg (fun x : Inst => mapGet (fun _ => 0) x.pages n) (hinst i.val)
    have hst : t.stacksOf i.val = s.stacksOf i.val := (hclears.stacksOf i.val).trans (s.stacksOf_pageZeroed ..)
    refine ⟨t, hexec, ?_, by rw [huse, if_pos rfl], fun n hn => by rw [huse, if_neg hn], ?_, fun j hj => ?_,
      fun hbase => ⟨fun b hb => ?_, fun hal y hy hrec hyi x hx hentry => ?_⟩⟩
    · rw [hclears.frame]
      rfl
    · rw [hinst, State.inst_pageZeroed, if_pos rfl]
    · rw [hinst, State.inst_pageZeroed, if_neg hj]
    · obtain ⟨k, hk, rfl⟩ := List.mem_map.mp hb
      rw [hst]
      exact hclears.zero _ (State.page_pageZeroed hbase (List.mem_range.mp hk))
    · rw [ht]
      refine State.clearAll_entry (s.seqsOf i.val) (s.pageZeroed i.val p) (fun r _ => State.seq_aligned hal r) ?_ ?_ ?_
      · exact List.mem_map.mpr ⟨y, List.mem_filter.mpr ⟨hy, beq_iff_eq.mpr hyi⟩, rfl⟩
      · rw [← show y.2 = (s.pageZeroed i.val p).seq y.1 from hrec]
        exact hx
      · have hentry' := State.pageEntry_zeroed (s := s) (t := s.pageZeroed i.val p) (q := y.1) (x := x) rfl
          (s.stacksOf_pageZeroed ..) (State.words_pageZeroed hbase) (State.seq_aligned hal y.1)
        rw [hentry] at hentry'
        exact hentry'
  case noSlot =>
    rw [exec_swapSlotZeroDone]
    exact if_pos h
  case slot =>
    have hexec := exec_swapSlotZeroDone_zeroing h
    obtain ⟨u, hu, hframe⟩ : ∃ u, u = (match s.swapRef slot.val n with
        | some r => (s.hostWrite r (List.replicate 65536 0)).1
        | none => s) ∧ u = { s with hostMem := u.hostMem, dict := u.dict } := by
      refine ⟨_, rfl, ?_⟩
      split
      · exact s.hostWrite_frame ..
      · rfl
    rw [← hu] at hexec
    have hslots : u.slots = s.slots := (congrArg State.slots hframe :)
    have huse : ∀ m, u.swapUse slot.val m = s.swapUse slot.val m := fun m => by
      unfold State.swapUse State.slot
      rw [hslots]
    refine ⟨_, hexec, ?_, by rw [State.swapUse_setSwapUse, if_pos rfl],
      fun m hm => by rw [State.swapUse_setSwapUse, if_neg hm, huse], fun j hj => ?_, fun hnone => ?_, fun h href => ⟨fun hready => ?_,
        fun hready => ?_⟩⟩
    · unfold State.setSwapUse
      rw [State.modSlot_eq, hframe]
      rfl
    · refine (State.slot_setSlot_ne _ _ _ _ hj).trans ?_
      exact congrArg (fun m => mapGet (fun _ => ({} : Slot)) m j) hslots
    · have hus : u = s := by rw [hu, hnone]
      rw [hus]
      exact ⟨rfl, rfl⟩
    · have hus : u = s.hostPut h (List.replicate 65536 0) := by
        rw [hu, href]
        exact congrArg Prod.fst (if_pos hready)
      rw [(State.setSwapUse_memory ..).1, (State.setSwapUse_memory ..).2, hus]
      exact s.hostMem_hostPut h _
    · have hus : u = s.hostError h.port := by
        rw [hu, href]
        exact congrArg Prod.fst (if_neg (by rw [hready]; exact Bool.false_ne_true))
      rw [hus]
      exact ⟨rfl, State.rd_wr ..⟩

end Sys2Proof.Machine
end

section
/-! Draft-token messages (R314): O40. -/

namespace Sys2Proof.Machine

variable {s : State} {i : InstId} {m : DraftMsg} {q : Nat}

/-! ## A draft sequence set back and fed (R314) -/

/-- Tokens put one after another behind those that are there. -/
theorem Seq.put_behind : ∀ (l : List Nat) (n k : Nat) (x : Seq), x.tokens.length = n + k →
    (l.zipIdx k).foldl (fun x p => x.putToken (n + p.2) p.1) x = { x with tokens := x.tokens ++ l }
  | [], _, _, x, _ => by rw [List.append_nil]; rfl
  | t :: l, n, k, x, h => by
    have hone : x.putToken (n + k) t = { x with tokens := x.tokens ++ [t] } := if_neg (by omega)
    rw [List.zipIdx_cons, List.foldl_cons, hone, Seq.put_behind l n (k + 1) _ (by simp [h, Nat.add_assoc])]
    simp

/-- A draft sequence as an ACCEPT message leaves it. -/
def Seq.accepted (x : Seq) (m : DraftMsg) : Seq :=
  let pos := m.base.toNat - m.tokens.length
  let start := min x.length pos
  let feed := (x.tokens.take (pos + 1)).drop start ++ m.tokens
  { (if start < x.length then x.staleRecords else x) with
    tokens := x.tokens.take (pos + 1) ++ m.tokens, length := start
    state := if x.state = .idle then .active else x.state
    draft := { x.draft with pos0 := start, feed := feed, fed := 0, nPrompt := feed.length, left := x.draft.m, out := []
                            base := m.base.toNat } }

theorem State.feedDraft_accepted (h : m.base.toNat - m.tokens.length < (s.seq q).tokens.length) :
    s.feedDraft q (min (s.seq q).length (m.base.toNat - m.tokens.length))
      (((s.seq q).tokens.take (m.base.toNat - m.tokens.length + 1)).drop
        (min (s.seq q).length (m.base.toNat - m.tokens.length)) ++ m.tokens) (s.seq q).draft.m m.base.toNat =
      s.setSeq q ((s.seq q).accepted m) := by
  obtain ⟨x, hx⟩ : ∃ x, x = s.seq q := ⟨_, rfl⟩
  rw [← hx] at h ⊢
  obtain ⟨pos, hpos⟩ : ∃ pos, pos = m.base.toNat - m.tokens.length := ⟨_, rfl⟩
  rw [← hpos] at h ⊢
  obtain ⟨start, hstart⟩ : ∃ start, start = min x.length pos := ⟨_, rfl⟩
  rw [← hstart]
  obtain ⟨y, hy⟩ : ∃ y, y = if start < x.length then x.staleRecords else x := ⟨_, rfl⟩
  have hyx : y.tokens = x.tokens ∧ y.state = x.state ∧ y.length = x.length ∧ y.draft = x.draft := by
    rw [hy]
    split <;> exact ⟨rfl, rfl, rfl, rfl⟩
  obtain ⟨htokens, hstate, hlength, hdraft⟩ := hyx
  have hcut : (y.cutTokens start).tokens.length = start := by
    change (y.tokens.take start).length = start
    rw [List.length_take, htokens]
    omega
  have hput := Seq.put_behind ((x.tokens.take (pos + 1)).drop start ++ m.tokens) start 0 (y.cutTokens start) hcut
  have hjoin : (y.cutTokens start).tokens ++ ((x.tokens.take (pos + 1)).drop start ++ m.tokens) =
      x.tokens.take (pos + 1) ++ m.tokens := by
    change y.tokens.take start ++ _ = _
    have htake : x.tokens.take start = (x.tokens.take (pos + 1)).take start := by
      rw [List.take_take, Nat.min_eq_left (by omega)]
    rw [htokens, ← List.append_assoc, htake, List.take_append_drop]
  rw [hjoin] at hput
  have hmin : min y.length start = start := by
    rw [hlength]
    omega
  unfold State.feedDraft Seq.accepted
  rw [State.modSeq_eq]
  dsimp only
  rw [← hx, ← hpos, ← hstart, ← hy, hput]
  refine congrArg (s.setSeq q) ?_
  change { y with
    tokens := x.tokens.take (pos + 1) ++ m.tokens, state := if y.state = SeqState.idle then SeqState.active else y.state
    length := min y.length start
    draft := { y.draft with pos0 := start, feed := _, fed := 0, nPrompt := _, left := _, out := [], base := _ } } = _
  rw [hstate, hmin, hdraft]

/-! ## The end of a sequence without a pair -/

theorem State.tx_each {α : Type} (l : List α) (f : State → α → State) (t : State) (h : ∀ u x, (f u x).tx = u.tx) :
    (t.each l f).tx = t.tx :=
  State.each_rel (R := fun a b : State => b.tx = a.tx) (fun _ => rfl) (fun h h' => h'.trans h) h l t

theorem State.tx_hbmClear (t : State) (i a n : Nat) : (t.hbmClear i a n).tx = t.tx := by
  unfold State.hbmClear
  exact State.tx_each _ _ _ fun _ _ => rfl

theorem State.endSeq_tx (h : (s.seq q).pair = none) (teardown : Bool) : (s.endSeq q teardown).tx = s.tx := by
  have hhot : ∀ (t : State) (y : Seq), ((t.freeHot q).setSeq q y).tx = t.tx := fun t y => by
    rw [t.freeHot_frame]
    rfl
  unfold State.endSeq
  dsimp only
  split
  · rfl
  · rw [h]
    dsimp only
    rw [hhot, State.tx_hbmClear, State.tx_hbmClear, State.tx_each, State.tx_each]
    · exact fun _ _ => rfl
    · exact fun _ _ => rfl

/-! ## The messages -/

/-- A refused message is counted. -/
theorem State.refused_counts (s : State) : s.OnlyEntries (s.bump K.staleDrops 64 1) [K.staleDrops] ∧
    (s.bump K.staleDrops 64 1).rd K.staleDrops = (s.rd K.staleDrops + 1) % 2 ^ 64 :=
  ⟨⟨rfl, fun _ hk => State.rd_wr_ne _ _ _ _ fun h => hk (List.mem_singleton.mpr h)⟩, State.rd_wr ..⟩

theorem State.setSeq_only (s : State) (q : Nat) (y : Seq) :
    s.setSeq q y = { s with seqs := (s.setSeq q y).seqs } ∧ (s.setSeq q y).seq q = y ∧
      ∀ j, j ≠ q → (s.setSeq q y).seq j = s.seq j :=
  ⟨rfl, State.seq_setSeq .., fun _ hj => State.seq_setSeq_ne _ _ _ _ hj⟩

theorem State.msgSeq_live {h : BitVec 32} {b : Bool} (hq : s.msgSeq i.val h b = some q) : (s.seq q).state ≠ .free := by
  unfold State.msgSeq at hq
  dsimp only at hq
  split at hq
  · next hcond =>
    rw [← Option.some.inj hq]
    exact hcond.1
  · cases hq

theorem exec_draftAcceptMessage_some (hfrom : s.draftFrom i.val m true false = true) (hq : s.msgSeq i.val m.draft true = some q) :
    exec (.draftAcceptMessage i m) s =
      if m.base.toNat - m.tokens.length < (s.seq q).tokens.length then .next (s.setSeq q ((s.seq q).accepted m)) else .next s := by
  rw [exec_draftAcceptMessage]
  unfold execDraftAcceptMessage
  rw [if_neg (by simp [hfrom]), hq]
  dsimp only
  split
  · next h => rw [State.feedDraft_accepted h]
  · rfl

/-- Settles O40. -/
theorem draftMessagesReachSequences : Obligations.DraftMessagesReachSequences := by
  intro s i m Refuses Becomes
  refine ⟨fun h => ?draftRefused, fun hfrom => ⟨fun hq => ?draftNone, fun q hq => ?draft⟩, fun h => ?acceptRefused,
    fun hfrom => ⟨fun hq => ?acceptNone, fun q hq => ?accept⟩, fun h => ?dropRefused,
    fun hfrom => ⟨fun q hq => ?dropDraft, fun q hd hq => ?dropTarget, fun hd hq => ?dropNone⟩⟩
  case draftRefused =>
    refine ⟨_, ?_, s.refused_counts⟩
    rw [exec_draftMessage]
    exact if_pos (by rw [h]; rfl)
  case draftNone =>
    rw [exec_draftMessage]
    unfold execDraftMessage
    rw [if_neg (by simp [hfrom]), hq]
  case draft =>
    refine ⟨_, ?_, s.setSeq_only q _⟩
    rw [exec_draftMessage]
    unfold execDraftMessage
    rw [if_neg (by simp [hfrom]), hq]
    rfl
  case acceptRefused =>
    refine ⟨_, ?_, s.refused_counts⟩
    rw [exec_draftAcceptMessage]
    exact if_pos (by rw [h]; rfl)
  case acceptNone =>
    rw [exec_draftAcceptMessage]
    unfold execDraftAcceptMessage
    rw [if_neg (by simp [hfrom]), hq]
  case accept =>
    intro x pos start feed
    refine ⟨fun h => ?_, fun h => ?_⟩
    · exact (exec_draftAcceptMessage_some hfrom hq).trans (if_neg (Nat.not_lt.mpr h))
    · exact ⟨_, (exec_draftAcceptMessage_some hfrom hq).trans (if_pos h), s.setSeq_only q _⟩
  case dropRefused =>
    refine ⟨_, ?_, s.refused_counts⟩
    rw [exec_dropMessage]
    exact if_pos (by rw [h]; rfl)
  case dropDraft =>
    obtain ⟨u, hu⟩ : ∃ u, u = s.setSeq q { s.seq q with pair := none } := ⟨_, rfl⟩
    have hown : u.seq q = { s.seq q with pair := none } := by rw [hu]; exact State.seq_setSeq ..
    have hend := State.seqEnded_endSeq (s := u) (q := q) (by rw [hown]; exact State.msgSeq_live hq) false
    have htx := State.endSeq_tx (s := u) (q := q) (by rw [hown]) false
    have hexec : exec (.dropMessage i m) s = .next (u.endSeq q false) := by
      rw [exec_dropMessage, hu]
      unfold execDropMessage
      rw [if_neg (by simp [hfrom]), hq]
      rfl
    refine ⟨_, hexec, ?_, fun j hj => ?_, ?_, ?_, ?_, ?_⟩
    · rw [hend.own, hown]
    · rw [hend.others j hj, hu, State.seq_setSeq_ne _ _ _ _ hj]
    · rw [hend.frame, hu]; rfl
    · rw [hend.frame, hu]; rfl
    · rw [hend.frame, hu]; rfl
    · rw [htx, hu]; rfl
  case dropTarget =>
    refine ⟨_, ?_, s.setSeq_only q _⟩
    rw [exec_dropMessage]
    unfold execDropMessage
    rw [if_neg (by simp [hfrom]), hd]
    dsimp only
    rw [hq]
    rfl
  case dropNone =>
    rw [exec_dropMessage]
    unfold execDropMessage
    rw [if_neg (by simp [hfrom]), hd]
    dsimp only
    rw [hq]

end Sys2Proof.Machine
end

section
/-! Requests taken from a ring or an association (R287, R294, R296-R299): O41. -/

namespace Sys2Proof.Machine

variable {s t u : State} {slot i op : Nat} {r : ReqArgs}

/-! ## Fields of a row of little-endian numbers -/

theorem leAt_head {l m : List Byte} {n : Nat} (h : l.length = n) : leAt (l ++ m) 0 n = leNat l := by
  unfold leAt slice
  dsimp only
  rw [List.drop_zero, List.take_left' h, h, Nat.sub_self, List.replicate_zero, List.append_nil]

theorem leAt_skip {l : List Byte} (m : List Byte) {k a : Nat} (n : Nat) (h : l.length = k) :
    leAt (l ++ m) (k + a) n = leAt m a n := by
  have hdrop : (l ++ m).drop (k + a) = m.drop a := by rw [← h, List.drop_length_add_append]
  unfold leAt slice
  dsimp only
  rw [hdrop]

/-- The key and the status of a completion entry. -/
theorem State.completion_key (s : State) (x : Req) (status flags : Nat) :
    leAt (s.completion x status flags) 0 8 = x.key % 2 ^ 64 := by
  unfold State.completion complBytes
  simp only [List.append_assoc]
  exact (leAt_head (length_leBytes ..)).trans (leNat_leBytes 8 _)

theorem State.completion_status (s : State) (x : Req) (status flags : Nat) :
    leAt (s.completion x status flags) 12 1 = status % 256 := by
  unfold State.completion complBytes
  simp only [List.append_assoc]
  refine (leAt_skip (k := 8) (a := 4) _ 1 (length_leBytes ..)).trans ?_
  refine (leAt_skip (k := 4) (a := 0) _ 1 (length_leBytes ..)).trans ?_
  exact (leAt_head (length_leBytes ..)).trans (leNat_leBytes 1 _)

/-! ## The request as it is taken (R287, R293) -/

/-- A request is there to be taken. -/
def State.takes (s : State) (slot : Nat) : Transport → Bool
  | .ring => s.ringReads slot
  | .frp a => s.frpOpen slot a

/-- The slot's SQ_HEAD once the request is taken. -/
def Slot.headAfter (x : Slot) : Transport → Nat
  | .ring => (x.sq.head + 1) % x.sq.size
  | .frp _ => x.sq.head

/-- The slot's SQ_HEAD alone has moved, past the request if it came by the ring. -/
structure State.Taken (s t : State) (slot : Nat) (from_ : Transport) : Prop where
  frame : t = { s with slots := t.slots }
  head : (t.slot slot).sq.head = (s.slot slot).headAfter from_
  others : ∀ j, j ≠ slot → t.slot j = s.slot j

theorem State.takeReq_none (h : s.takes slot r.from_ = false) : s.takeReq slot op r = s := by
  unfold State.takeReq
  generalize r.from_ = k at h
  cases k with
  | ring => exact if_neg (ne_true_of_eq_false h)
  | frp a => exact if_neg (ne_true_of_eq_false h)

theorem State.takeReq_some (h : s.takes slot r.from_ = true) :
    ∃ t, s.Taken t slot r.from_ ∧ s.takeReq slot op r = t.submit slot op r := by
  unfold State.takeReq
  generalize r.from_ = k at h
  cases k with
  | ring =>
    exact ⟨_, ⟨rfl, congrArg (fun x : Slot => x.sq.head) (State.slot_setSlot ..),
      fun j hj => State.slot_setSlot_ne _ _ _ _ hj⟩, if_pos h⟩
  | frp a => exact ⟨s, ⟨rfl, rfl, fun _ _ => rfl⟩, if_pos h⟩

/-! ## Refusals (R296, R297) -/

/-- The key that a refusal records, with the entry it answers with. -/
def State.refusedReq (s : State) (slot i op : Nat) (r : ReqArgs) (q : Option Nat) (b : List Byte) : Req :=
  { s.newReq slot i op r q 0 with final := some b, finalAt := s.time, seq := none }

theorem State.refuseReq_eq (q : Option Nat) (status flags : Nat) (keep : Bool) :
    s.refuseReq slot i op r q status flags keep =
      (if keep = true ∧ s.keysOf slot < s.rd K.dedupEntries then
          { s with reqs := s.reqs ++ [s.refusedReq slot i op r q (s.completion (s.newReq slot i op r q 0) status flags)] }
        else s).postFinal slot r.from_ (s.completion (s.newReq slot i op r q 0) status flags) := rfl

/-- The answer of a refusal: the state `u` that it is posted in, and its entry `b`. -/
structure State.Refused (s u : State) (slot : Nat) (r : ReqArgs) (status : Nat) (keeps : Bool) (b : List Byte) : Prop where
  key : leAt b 0 8 = r.e.key % 2 ^ 64
  status : leAt b 12 1 = status
  seqs : u.seqs = s.seqs
  insts : u.insts = s.insts
  slots : u.slots = s.slots
  dropped : keeps = false → u.reqs = s.reqs
  kept : keeps = true → ∃ y, u.reqs = s.reqs ++ [y] ∧ y.slot = slot ∧ y.key = r.e.key ∧ y.final = some b ∧ y.finalAt = s.time

theorem State.refuseReq_spec {q : Option Nat} {status flags : Nat} {keep : Bool} (h : status < 256) :
    ∃ u b, s.refuseReq slot i op r q status flags keep = u.postFinal slot r.from_ b ∧
      s.Refused u slot r status (decide (keep = true ∧ s.keysOf slot < s.rd K.dedupEntries)) b := by
  refine ⟨_, _, State.refuseReq_eq .., ?_⟩
  have hstatus := (s.completion_status (s.newReq slot i op r q 0) status flags).trans (Nat.mod_eq_of_lt h)
  have hkey : leAt (s.completion (s.newReq slot i op r q 0) status flags) 0 8 = r.e.key % 2 ^ 64 :=
    s.completion_key (s.newReq slot i op r q 0) status flags
  by_cases hc : keep = true ∧ s.keysOf slot < s.rd K.dedupEntries
  · rw [if_pos hc, decide_eq_true hc]
    exact ⟨hkey, hstatus, rfl, rfl, rfl, fun h => (Bool.noConfusion h : False).elim,
      fun _ => ⟨_, rfl, rfl, rfl, rfl, rfl⟩⟩
  · rw [if_neg hc, decide_eq_false hc]
    exact ⟨hkey, hstatus, rfl, rfl, rfl, fun _ => rfl, fun h => (Bool.noConfusion h : False).elim⟩

theorem State.reqStatus_lt (q : Option Nat) : s.reqStatus slot i op r q < 256 := by
  unfold State.reqStatus
  dsimp only
  split_ifs <;> decide

/-! ## Acceptance (R288, R298, R299, R309) -/

/-- What an accepted request leaves for the tack of its instance. -/
def changesOf (op slot : Nat) (r : ReqArgs) : List Change :=
  if op = 3 then [.truncate slot r.e.key]
  else if op = 4 then [.park slot r.e.key]
  else if op = 5 then [.release slot r.e.key]
  else if op = 6 then [.cancel slot r.e.key r.e.input.toNat]
  else []

/-- The virtual time of the slot alone may have moved, and the host's free values gone on. -/
structure State.Joined (s t : State) (slot : Nat) : Prop where
  frame : t = { s with slots := t.slots, freeNext := t.freeNext }
  head : (t.slot slot).sq = (s.slot slot).sq
  others : ∀ j, j ≠ slot → t.slot j = s.slot j

theorem State.joined_vtJoin (s : State) (i slot : Nat) : s.Joined (s.vtJoin i slot) slot := by
  unfold State.vtJoin
  dsimp only
  split
  · exact ⟨rfl, rfl, fun _ _ => rfl⟩
  · split
    · exact ⟨rfl, (congrArg Slot.sq (s.slot_setSlot slot _)).trans rfl, fun j hj => State.slot_setSlot_ne _ _ _ _ hj⟩
    · exact ⟨rfl, rfl, fun _ _ => rfl⟩

theorem State.Joined.freeStep (h : (s.freeStep).Joined t slot) : s.Joined t slot :=
  ⟨h.frame, h.head, h.others⟩

/-- The changes that wait for the tack of an instance. -/
def State.changeAll (s : State) (i : Nat) (cs : List Change) : State := cs.foldl (fun s c => s.change i c) s

theorem State.changeAll_spec : ∀ (cs : List Change) (s : State),
    s.changeAll i cs = { s with insts := (s.changeAll i cs).insts } ∧
    (s.changeAll i cs).inst i = { s.inst i with changes := (s.inst i).changes ++ cs } ∧
    ∀ j, j ≠ i → (s.changeAll i cs).inst j = s.inst j
  | [], s => ⟨rfl, by rw [List.append_nil]; rfl, fun _ _ => rfl⟩
  | c :: cs, s => by
    obtain ⟨hframe, hown, hothers⟩ := State.changeAll_spec cs (s.change i c)
    have hc : (s.change i c).inst i = { s.inst i with changes := (s.inst i).changes ++ [c] } := State.inst_setInst ..
    refine ⟨hframe, ?_, fun j hj => (hothers j hj).trans (State.inst_setInst_ne _ _ _ _ hj)⟩
    refine hown.trans ?_
    rw [hc, List.append_assoc]
    rfl

/-- The seed that the client gives. -/
def seedGiven (r : ReqArgs) : Option Nat :=
  match r.params with
  | some b => if bit b.pflags.toNat 0 then some b.seed.toNat else none
  | none => none

/-- The request is in the key table and counted; nothing waits for a tack yet. -/
def State.entered (u : State) (slot i op : Nat) (r : ReqArgs) (q : Option Nat) (seed : Nat) : State :=
  (({ u with reqs := u.reqs ++ [u.newReq slot i op r q seed] }).modInst i fun x =>
    { x with nextOrder := x.nextOrder + 1 }).bump (K.requestsAccepted slot) 64 1

theorem State.acceptReq_eq (q : Option Nat) : ∃ u seed, s.Joined u slot ∧
    s.acceptReq slot i op r q = (u.entered slot i op r q seed).changeAll i (changesOf op slot r) := by
  have hjoin : ∀ (d c : Bool), s.Joined (if c then (if d then s.freeStep else s).vtJoin i slot else if d then s.freeStep else s) slot
  · intro d c
    have hjoined : ∀ v : State, v.Joined (if c then v.vtJoin i slot else v) slot := fun v => by
      split
      · exact v.joined_vtJoin i slot
      · exact ⟨rfl, rfl, fun _ _ => rfl⟩
    cases d with
    | false => exact hjoined s
    | true => exact (hjoined s.freeStep).freeStep
  have hchange : ∀ v : State, (if op = 3 then v.change i (.truncate slot r.e.key)
      else if op = 4 then v.change i (.park slot r.e.key)
      else if op = 5 then v.change i (.release slot r.e.key)
      else if op = 6 then v.change i (.cancel slot r.e.key r.e.input.toNat) else v) = v.changeAll i (changesOf op slot r) := by
    intro v
    unfold changesOf
    split_ifs <;> rfl
  exact ⟨_, if op == 1 && (seedGiven r).isNone then s.free.toNat else (seedGiven r).getD 0, hjoin (op == 1 && (seedGiven r).isNone) (creates op), hchange _⟩

/-- An accepted request. -/
structure State.Accepted (s t : State) (slot i op : Nat) (r : ReqArgs) (q : Option Nat) (y : Req) : Prop where
  reqs : t.reqs = s.reqs ++ [y]
  entry : y.slot = slot ∧ y.key = r.e.key ∧ y.opcode = op ∧ y.e = r.e ∧ y.tokens = r.tokens ∧ y.from_ = r.from_ ∧ y.inst = i ∧
    y.accepted = s.time ∧ y.order = (s.inst i).nextOrder ∧ y.seq = q ∧ y.final = none
  sq : (t.slot slot).sq = (s.slot slot).sq
  inst : t.inst i = { s.inst i with
    nextOrder := (s.inst i).nextOrder + 1, changes := (s.inst i).changes ++ changesOf op slot r }
  count : t.rd (K.requestsAccepted slot) = (s.rd (K.requestsAccepted slot) + 1) % 2 ^ 64
  rd : ∀ key, key ≠ K.requestsAccepted slot → t.rd key = s.rd key
  slots : ∀ j, j ≠ slot → t.slot j = s.slot j
  insts : ∀ j, j ≠ i → t.inst j = s.inst j
  frame : t = { s with slots := t.slots, freeNext := t.freeNext, reqs := t.reqs, insts := t.insts, dict := t.dict }

theorem State.accepted_acceptReq (s : State) (slot i op : Nat) (r : ReqArgs) (q : Option Nat) :
    ∃ y, s.Accepted (s.acceptReq slot i op r q) slot i op r q y := by
  obtain ⟨u, seed, hjoin, heq⟩ := s.acceptReq_eq (slot := slot) (i := i) (op := op) (r := r) q
  obtain ⟨hframe, hown, hothers⟩ := State.changeAll_spec (i := i) (changesOf op slot r) (u.entered slot i op r q seed)
  obtain ⟨v, hv⟩ : ∃ v, v = u.entered slot i op r q seed := ⟨_, rfl⟩
  have hvframe : v = { u with reqs := v.reqs, insts := v.insts, dict := v.dict } := by rw [hv]; rfl
  have hvi : v.inst i = { u.inst i with nextOrder := (u.inst i).nextOrder + 1 } := by rw [hv]; exact State.inst_setInst ..
  have hvj : ∀ j, j ≠ i → v.inst j = u.inst j := fun j hj => by rw [hv]; exact State.inst_setInst_ne _ _ _ _ hj
  have hu : ∀ j, u.inst j = s.inst j := fun j =>
    congrArg (fun m => mapGet (fun _ => ({} : Inst)) m j) (congrArg State.insts hjoin.frame :)
  have hd : ∀ k, u.rd k = s.rd k := fun k => congrArg (fun m => mapGet dictDefault m k) (congrArg State.dict hjoin.frame :)
  rw [heq]
  rw [← hv] at hframe hown hothers ⊢
  generalize v.changeAll i (changesOf op slot r) = t at hframe hown hothers
  have htslot : ∀ j, t.slot j = u.slot j := fun j => by
    rw [hframe, hvframe]
    rfl
  have htrd : ∀ k, t.rd k = v.rd k := fun k => congrArg (fun m => mapGet dictDefault m k) (congrArg State.dict hframe :)
  refine ⟨u.newReq slot i op r q seed, ?_, ⟨rfl, rfl, rfl, rfl, rfl, rfl, rfl, ?_, ?_, rfl, rfl⟩, ?_, ?_, ?_, fun key hkey => ?_,
    fun j hj => (htslot j).trans (hjoin.others j hj), fun j hj => ?_, ?_⟩
  · rw [hframe]
    change v.reqs = _
    rw [hv]
    change u.reqs ++ _ = _
    rw [hjoin.frame]
  · change u.time = _
    rw [hjoin.frame]
  · exact congrArg Inst.nextOrder (hu i)
  · rw [htslot]
    exact hjoin.head
  · rw [hown, hvi, hu]
  · rw [htrd, hv]
    refine (State.rd_wr ..).trans ?_
    exact congrArg (fun n => (n + 1) % 2 ^ 64) (hd _)
  · rw [htrd, hv]
    exact (State.rd_wr_ne _ _ _ _ hkey).trans (hd key)
  · rw [hothers j hj, hvj j hj, hu]
  · rw [hframe, hvframe, hjoin.frame]

/-! ## A request taken (R294, R297, R299, R350, R360) -/

/-- What `submit` judges is the same while SQ_HEAD alone has moved. -/
theorem State.Taken.rd (h : s.Taken t slot r.from_) (key : Nat) : t.rd key = s.rd key :=
  congrArg (fun m => mapGet dictDefault m key) (congrArg State.dict h.frame :)

/-- The sequence that a request names, none for a CANCEL and for a new one. -/
def State.namedSeq (s : State) (slot op : Nat) (r : ReqArgs) : Option Nat :=
  if op = 6 ∨ entryIsNew r.e op = true then none else s.handleSeq slot r.e.handle.toNat

theorem State.submit_eq (s : State) (slot op : Nat) (r : ReqArgs) : s.submit slot op r =
    if 2 ≤ s.rd (K.slotState slot) then
      (s.refuseReq slot (s.rd (K.slotInstance slot)) op r (s.namedSeq slot op r) 8 0 false).bump (K.requestsAborted slot) 64 1
    else if s.ready (s.rd (K.slotInstance slot)) = false then
      s.refuseReq slot (s.rd (K.slotInstance slot)) op r (s.namedSeq slot op r) 0xC 0 false
    else
      match s.req slot r.e.key with
      | some old =>
        if old.crc ≠ crc32c (entryCrcBytes r.e op) then
          (s.bump (K.keyConflicts (s.rd (K.slotInstance slot))) 64 1).refuseReq slot (s.rd (K.slotInstance slot)) op r
            (s.namedSeq slot op r) 5 8 false
        else if old.live then
          (s.bump (K.duplicates (s.rd (K.slotInstance slot))) 64 1).change (s.rd (K.slotInstance slot))
            (.duplicate slot r.e.key r.from_)
        else (s.bump (K.duplicates (s.rd (K.slotInstance slot))) 64 1).answerDup old r.from_
      | none =>
        if s.reqStatus slot (s.rd (K.slotInstance slot)) op r (s.namedSeq slot op r) = 0 then
          s.acceptReq slot (s.rd (K.slotInstance slot)) op r (s.namedSeq slot op r)
        else s.refuseReq slot (s.rd (K.slotInstance slot)) op r (s.namedSeq slot op r)
          (s.reqStatus slot (s.rd (K.slotInstance slot)) op r (s.namedSeq slot op r)) 0
          (s.reqStatus slot (s.rd (K.slotInstance slot)) op r (s.namedSeq slot op r) != 4) := by
  have hq : (if (decide (op = 6) || entryIsNew r.e op) = true then none else s.handleSeq slot r.e.handle.toNat) =
      s.namedSeq slot op r := by
    unfold State.namedSeq
    simp only [Bool.or_eq_true, decide_eq_true_eq]
  unfold State.submit
  dsimp only
  rw [hq]
  simp only [Bool.not_eq_true'] <;> rfl

/-- A duplicate of a request that runs is answered at the next tack. -/
theorem State.duplicateLive_spec (s : State) (slot i : Nat) (r : ReqArgs) :
    let t := (s.bump (K.duplicates i) 64 1).change i (.duplicate slot r.e.key r.from_)
    t = { s with dict := t.dict, insts := t.insts } ∧
    (t.inst i).changes = (s.inst i).changes ++ [.duplicate slot r.e.key r.from_] ∧
    t.rd (K.duplicates i) = (s.rd (K.duplicates i) + 1) % 2 ^ 64 ∧ ∀ key, key ≠ K.duplicates i → t.rd key = s.rd key :=
  ⟨rfl, (congrArg Inst.changes ((s.bump (K.duplicates i) 64 1).inst_setInst i _)).trans rfl, State.rd_wr ..,
    fun _ hkey => State.rd_wr_ne _ _ _ _ hkey⟩

theorem Slot.headAfter_eq (x : Slot) (k : Transport) : x.headAfter k = (match k with
    | .ring => (x.sq.head + 1) % x.sq.size
    | .frp _ => x.sq.head) := by
  cases k <;> rfl

theorem State.takes_eq (s : State) (slot : Nat) (k : Transport) : s.takes slot k = (match k with
    | .ring => s.ringReads slot
    | .frp a => s.frpOpen slot a) := by
  cases k <;> rfl

theorem State.Taken.ready (h : s.Taken t slot r.from_) (i : Nat) : t.ready i = s.ready i := by
  rw [h.frame]
  rfl

theorem State.Taken.req (h : s.Taken t slot r.from_) (n key : Nat) : t.req n key = s.req n key := by
  rw [h.frame]
  rfl

theorem State.Taken.keysOf (h : s.Taken t slot r.from_) (n : Nat) : t.keysOf n = s.keysOf n := by
  rw [h.frame]
  rfl

theorem State.Taken.namedSeq (h : s.Taken t slot r.from_) (op : Nat) : t.namedSeq slot op r = s.namedSeq slot op r := by
  rw [h.frame]
  rfl

theorem State.Taken.reqStatus (h : s.Taken t slot r.from_) (i op : Nat) (q : Option Nat) :
    t.reqStatus slot i op r q = s.reqStatus slot i op r q := by
  rw [h.frame]
  rfl

/-- Settles O41. -/
theorem requestsAreAccepted : Obligations.RequestsAreAccepted := by
  intro s slot r i x head takes q Answers Takes
  have hall : ∀ (c : Instr) (op : Nat), exec c s = .next (s.takeReq slot.val op r) → Takes c op (changesOf op slot.val r) := by
    intro c op hexec
    have hhead : (s.slot slot.val).headAfter r.from_ = head := Slot.headAfter_eq ..
    have hanswers : ∀ {t v u : State} {b : List Byte} {status : Nat} {keeps : Bool} {then_ : State → State},
        s.Taken t slot.val r.from_ → v = { t with dict := v.dict } →
        exec c s = .next (then_ (u.postFinal slot.val r.from_ b)) → v.Refused u slot.val r status keeps b →
        Answers c status then_ keeps := by
      intro t v u b status keeps then_ ht hv hc hu
      have hslot : u.slot slot.val = t.slot slot.val := by
        have hslots : u.slots = t.slots := hu.slots.trans (congrArg State.slots hv :)
        exact congrArg (fun m => mapGet (fun _ => ({} : Slot)) m slot.val) hslots
      have hreqs : v.reqs = s.reqs := by rw [hv, ht.frame]
      refine ⟨u, b, hc, hu.key, hu.status, ?_, ?_, ?_, fun hk => (hu.dropped hk).trans hreqs, fun hk => ?_⟩
      · rw [hslot]
        exact ht.head.trans hhead
      · rw [hu.seqs, hv, ht.frame]
      · rw [hu.insts, hv, ht.frame]
      · obtain ⟨y, hy, hslot, hkey, hfinal, hat⟩ := hu.kept hk
        refine ⟨y, hy.trans (by rw [hreqs]), hslot, hkey, hfinal, hat.trans ?_⟩
        rw [hv, ht.frame]
    have htaken : takes = true → ∃ t, s.Taken t slot.val r.from_ ∧ exec c s = .next (t.submit slot.val op r) := fun h => by
      obtain ⟨t, ht, htake⟩ := State.takeReq_some (op := op) ((s.takes_eq slot.val r.from_).trans h)
      exact ⟨t, ht, by rw [hexec, htake]⟩
    have hopened : ∀ {t}, s.Taken t slot.val r.from_ → s.rd (K.slotState slot.val) < 2 → s.ready i = true →
        ¬2 ≤ t.rd (K.slotState slot.val) ∧ ¬t.ready (t.rd (K.slotInstance slot.val)) = false := fun ht hopen hready => by
      rw [ht.rd, ht.rd, ht.ready]
      exact ⟨by omega, by rw [hready]; exact Bool.noConfusion⟩
    refine ⟨fun h => ?none, fun h hclosed => ?closed, fun h hopen hready => ?unready, fun h hopen hready =>
      ⟨fun old hold => ⟨fun hcrc => ?conflict, fun hcrc hlive => ?running, fun hcrc hlive => ?ended⟩,
        fun hnew => ⟨fun hst => ?refused, fun hst => ?accepted⟩⟩⟩
    case none => rw [hexec, State.takeReq_none ((s.takes_eq slot.val r.from_).trans h)]
    all_goals obtain ⟨t, ht, hc⟩ := htaken h
    all_goals rw [State.submit_eq] at hc
    case closed =>
      rw [if_pos (by rw [ht.rd]; exact hclosed)] at hc
      obtain ⟨u, b, hu, href⟩ := State.refuseReq_spec (s := t) (slot := slot.val) (i := t.rd (K.slotInstance slot.val)) (op := op)
        (r := r) (q := t.namedSeq slot.val op r) (status := 8) (flags := 0) (keep := false) (by decide)
      rw [hu] at hc
      exact hanswers (then_ := fun u => u.bump (K.requestsAborted slot.val) 64 1) ht rfl hc href
    case unready =>
      rw [if_neg (by rw [ht.rd]; omega), if_pos (by rw [ht.rd, ht.ready]; exact hready)] at hc
      obtain ⟨u, b, hu, href⟩ := State.refuseReq_spec (s := t) (slot := slot.val) (i := t.rd (K.slotInstance slot.val)) (op := op)
        (r := r) (q := t.namedSeq slot.val op r) (status := 0xC) (flags := 0) (keep := false) (by decide)
      rw [hu] at hc
      exact hanswers ht rfl hc href
    all_goals
      obtain ⟨hnot, hrdy⟩ := hopened ht hopen hready
      rw [if_neg hnot, if_neg hrdy, ht.req] at hc
    case conflict =>
      rw [hold] at hc
      dsimp only at hc
      rw [if_pos hcrc] at hc
      obtain ⟨u, b, hu, href⟩ := State.refuseReq_spec (s := t.bump (K.keyConflicts (t.rd (K.slotInstance slot.val))) 64 1)
        (slot := slot.val) (i := t.rd (K.slotInstance slot.val)) (op := op)
        (r := r) (q := t.namedSeq slot.val op r) (status := 5) (flags := 8) (keep := false) (by decide)
      rw [hu] at hc
      exact hanswers ht rfl hc href
    case running =>
      rw [hold] at hc
      dsimp only at hc
      rw [if_neg (not_not.mpr hcrc), if_pos hlive, ht.rd] at hc
      obtain ⟨hframe, hchanges, hcount, hrd⟩ := t.duplicateLive_spec slot.val i r
      refine ⟨_, hc, ?_, ht.head.trans hhead, ?_, ?_, fun key hkey => (hrd key hkey).trans (ht.rd key)⟩
      · rw [hframe, ht.frame]
      · rw [hchanges, ht.frame]; rfl
      · rw [hcount, ht.rd]
    case ended =>
      rw [hold] at hc
      dsimp only at hc
      rw [if_neg (not_not.mpr hcrc), if_neg (by rw [hlive]; exact Bool.false_ne_true), ht.rd] at hc
      refine ⟨_, hc, ?_, ht.head.trans hhead, ?_⟩
      · rw [ht.frame]; rfl
      · exact (State.rd_wr ..).trans (congrArg (fun n => (n + 1) % 2 ^ 64) (ht.rd _))
    all_goals
      rw [hnew] at hc
      dsimp only at hc
      rw [ht.rd, ht.namedSeq, ht.reqStatus] at hc
    case refused =>
      replace hc := hc.trans (congrArg Host.Outcome.next (if_neg hst))
      obtain ⟨u, b, hu, href⟩ := State.refuseReq_spec (s := t) (slot := slot.val) (i := i) (op := op)
        (r := r) (q := q op) (status := s.reqStatus slot.val i op r (q op)) (flags := 0)
        (keep := s.reqStatus slot.val i op r (q op) != 4) (State.reqStatus_lt _)
      have hkeep : ∀ n : Nat, decide (((n != 4) = true) ∧ t.keysOf slot.val < t.rd K.dedupEntries) =
          decide (n ≠ 4 ∧ s.keysOf slot.val < s.rd K.dedupEntries) := fun n => by
        rw [ht.keysOf, ht.rd]
        simp only [bne_iff_ne]
      rw [hkeep] at href
      exact hanswers (then_ := id) ht rfl (hc.trans (congrArg Host.Outcome.next hu)) href
    case accepted =>
      replace hc := hc.trans (congrArg Host.Outcome.next (if_pos hst))
      obtain ⟨y, hy⟩ := t.accepted_acceptReq slot.val i op r (q op)
      obtain ⟨hslot, hkey, hop, he, htokens, hfrom, hinst, hat, horder, hseq, hfinal⟩ := hy.entry
      have hti : ∀ j, t.inst j = s.inst j := fun j =>
        congrArg (fun m => mapGet (fun _ => ({} : Inst)) m j) (congrArg State.insts ht.frame :)
      refine ⟨_, y, hc, hy.reqs.trans (congrArg (· ++ [y]) (congrArg State.reqs ht.frame :)), hslot, hkey, hop, he, htokens,
        hfrom, hinst, hat.trans (congrArg State.time ht.frame :), horder.trans (congrArg Inst.nextOrder (hti i)), hseq, hfinal,
        (congrArg Ring.head hy.sq).trans (ht.head.trans hhead), ?_, ?_, fun key hkey => (hy.rd key hkey).trans (ht.rd key),
        fun j hj => (hy.slots j hj).trans (ht.others j hj), fun j hj => (hy.insts j hj).trans (hti j), ?_, ?_, ?_, ?_⟩
      · exact hy.inst.trans (by rw [hti])
      · exact hy.count.trans (by rw [ht.rd])
      · exact (congrArg State.cores hy.frame :).trans (congrArg State.cores ht.frame :)
      · exact (congrArg State.hbm hy.frame :).trans (congrArg State.hbm ht.frame :)
      · exact (congrArg State.hostMem hy.frame :).trans (congrArg State.hostMem ht.frame :)
      · exact (congrArg State.seqs hy.frame :).trans (congrArg State.seqs ht.frame :)
  exact ⟨hall _ 1 rfl, hall _ 2 rfl, hall _ 3 rfl, hall _ 4 rfl, hall _ 5 rfl, hall _ 6 rfl⟩

end Sys2Proof.Machine
end

section
/-! Ring registers, the completion ring and interim completions (R285, R286, R290, R292, R296, R354, R363): O42. -/

namespace Sys2Proof.Machine

variable {s t u : State} {slot key : Nat}

/-! ## Messages -/

/-- A message goes out, or is held as pending. -/
theorem State.message_sent (s : State) (f v : Nat) : (s.message f v).sent =
    if (s.fn f).msixEn = true ∧ (s.fn f).bme = true ∧ (s.fn f).unmasked.getLsbD v = true then (f, v) :: s.sent else s.sent := by
  unfold State.message
  dsimp only
  cases (s.fn f).msixEn with
  | false => exact (if_neg fun h => Bool.noConfusion h.1).symm
  | true =>
    rw [if_neg (by decide)]
    by_cases hgo : (s.fn f).bme = true ∧ (s.fn f).unmasked.getLsbD v = true
    · rw [if_pos (by rw [hgo.1, hgo.2]; rfl), if_pos ⟨rfl, hgo⟩]
    · rw [if_neg (by rwa [Bool.and_eq_true]), if_neg fun h => hgo h.2]
      rfl

theorem State.message_held {f v : Nat} (hv : v < 16) (hen : (s.fn f).msixEn = true)
    (h : (s.fn f).bme = false ∨ (s.fn f).unmasked.getLsbD v = false) : ((s.message f v).fn f).pba.getLsbD v = true := by
  have hno : ¬((s.fn f).bme && (s.fn f).unmasked.getLsbD v) = true := by
    rcases h with h | h <;> simp [h]
  unfold State.message
  dsimp only
  rw [if_neg (by rw [hen]; decide), if_neg hno]
  unfold State.fn State.setFn
  rw [mapGet_set_self]
  simp [hv]

/-! ## Entries of the completion ring (R290, R292, R363) -/

/-- Entries of a slot's completion ring may have been written and announced. -/
structure State.CqWritten (s t : State) (slot : Nat) : Prop where
  frame : t = { s with slots := t.slots, fns := t.fns, sent := t.sent, hostMem := t.hostMem, dict := t.dict }
  own : t.slot slot = { s.slot slot with
    cq := { (s.slot slot).cq with tail := (t.slot slot).cq.tail, phase := (t.slot slot).cq.phase }
    unannounced := (t.slot slot).unannounced }
  others : ∀ j, j ≠ slot → t.slot j = s.slot j

theorem State.CqWritten.refl (s : State) (slot : Nat) : s.CqWritten s slot := ⟨rfl, rfl, fun _ _ => rfl⟩

theorem State.CqWritten.trans (h : s.CqWritten t slot) (k : t.CqWritten u slot) : s.CqWritten u slot := by
  refine ⟨?_, ?_, fun j hj => (k.others j hj).trans (h.others j hj)⟩
  · rw [k.frame, h.frame]
  · rw [k.own, h.own]

theorem State.CqWritten.message (h : s.CqWritten t slot) (f v : Nat) : s.CqWritten (t.message f v) slot := by
  have hslot : ∀ j, (t.message f v).slot j = t.slot j := fun j =>
    congrArg (fun m => mapGet (fun _ => ({} : Slot)) m j) (t.message_only f v).slots
  refine ⟨?_, ?_, fun j hj => (hslot j).trans (h.others j hj)⟩
  · rw [(t.message_only f v).eq, h.frame]
  · rw [hslot, h.own]

theorem State.cqWritten_unannounced (s : State) (slot n : Nat) :
    s.CqWritten (s.modSlot slot fun x => { x with unannounced := n }) slot := by
  refine ⟨rfl, ?_, fun j hj => State.slot_setSlot_ne _ _ _ _ hj⟩
  rw [State.modSlot_eq, State.slot_setSlot]

theorem State.cqWritten_announce (s : State) (slot : Nat) : s.CqWritten (s.announce slot) slot := by
  unfold State.announce
  split
  · exact .refl s slot
  · exact (s.cqWritten_unannounced slot 0).message _ _

theorem State.cqWritten_entryWritten (s : State) (slot : Nat) : s.CqWritten (s.entryWritten slot) slot := by
  have hone := s.cqWritten_unannounced slot ((s.slot slot).unannounced + 1)
  unfold State.entryWritten
  dsimp only
  split
  · exact hone.trans (State.cqWritten_announce _ slot)
  · exact hone

/-- The entry at the ring's tail is in host memory, or has been refused there. -/
def State.ringEntry (s : State) (slot : Nat) (b : List Byte) : State × Bool :=
  match s.slotRef slot ((s.slot slot).cq.base + 64 * (s.slot slot).cq.tail) 64 with
  | some h => s.hostWrite h (b.take 63 ++ leBytes 1 (b2n (s.slot slot).cq.phase))
  | none => (s, false)

/-- The ring's tail behind one more entry. -/
def Slot.pastEntry (x : Slot) : Slot :=
  { x with cq := { x.cq with tail := (x.cq.tail + 1) % x.cq.size, phase := x.cq.phase != ((x.cq.tail + 1) % x.cq.size == 0) } }

theorem State.ringEntry_frame (s : State) (slot : Nat) (b : List Byte) : (s.ringEntry slot b).1 =
    { s with hostMem := (s.ringEntry slot b).1.hostMem, dict := (s.ringEntry slot b).1.dict } := by
  unfold State.ringEntry
  split
  · exact s.hostWrite_frame ..
  · rfl

theorem State.ringPut_eq (s : State) (slot : Nat) (b : List Byte) : s.ringPut slot b =
    (((s.ringEntry slot b).1.setSlot slot (s.slot slot).pastEntry).entryWritten slot, (s.ringEntry slot b).2) := by
  have hslot : (s.ringEntry slot b).1.slot slot = s.slot slot := by
    rw [s.ringEntry_frame]
    rfl
  have hput : ∀ w : State × Bool, w.1.slot slot = s.slot slot →
      ((w.1.modSlot slot fun y => { y with cq := { (s.slot slot).cq with
        tail := ((s.slot slot).cq.tail + 1) % (s.slot slot).cq.size
        phase := (s.slot slot).cq.phase != (((s.slot slot).cq.tail + 1) % (s.slot slot).cq.size == 0) } }).entryWritten slot, w.2) =
      ((w.1.setSlot slot (s.slot slot).pastEntry).entryWritten slot, w.2) := fun w hw => by
    rw [State.modSlot_eq, hw]
    rfl
  exact hput _ hslot

theorem State.cqWritten_pastEntry (s : State) (slot : Nat) (b : List Byte) :
    s.CqWritten ((s.ringEntry slot b).1.setSlot slot (s.slot slot).pastEntry) slot := by
  refine ⟨?_, ?_, fun j hj => (State.slot_setSlot_ne _ _ _ _ hj).trans ?_⟩
  · rw [s.ringEntry_frame]
    rfl
  · rw [State.slot_setSlot]
    rfl
  · rw [s.ringEntry_frame]
    rfl

theorem State.cqWritten_ringPut (s : State) (slot : Nat) (b : List Byte) : s.CqWritten (s.ringPut slot b).1 slot := by
  rw [s.ringPut_eq]
  exact (s.cqWritten_pastEntry slot b).trans (State.cqWritten_entryWritten _ slot)

/-- Announcing an entry changes neither the ring nor host memory. -/
theorem State.announce_kept (s : State) (slot : Nat) :
    ((s.announce slot).slot slot).cq = (s.slot slot).cq ∧ (s.announce slot).hostMem = s.hostMem ∧ (s.announce slot).reqs = s.reqs := by
  unfold State.announce
  split
  · exact ⟨rfl, rfl, rfl⟩
  · refine ⟨?_, (State.message_only ..).hostMem, (State.message_only ..).reqs⟩
    have hslots := congrArg (fun m => mapGet (fun _ => ({} : Slot)) m slot)
      ((s.modSlot slot fun x => { x with unannounced := 0 }).message_only (vfOf slot) 0).slots
    exact (congrArg Slot.cq hslots).trans ((congrArg Slot.cq (s.slot_setSlot slot _)).trans rfl)

theorem State.entryWritten_kept (s : State) (slot : Nat) : ((s.entryWritten slot).slot slot).cq = (s.slot slot).cq ∧
    (s.entryWritten slot).hostMem = s.hostMem ∧ (s.entryWritten slot).reqs = s.reqs := by
  have hone : ∀ n, ((s.modSlot slot fun x => { x with unannounced := n }).slot slot).cq = (s.slot slot).cq := fun n =>
    (congrArg Slot.cq (s.slot_setSlot slot _)).trans rfl
  unfold State.entryWritten
  dsimp only
  split
  · obtain ⟨hcq, hmem, hreqs⟩ := (s.modSlot slot fun x => { x with unannounced := x.unannounced + 1 }).announce_kept slot
    exact ⟨hcq.trans (hone _), hmem, hreqs⟩
  · exact ⟨hone _, rfl, rfl⟩

theorem State.ringPut_tail (s : State) (slot : Nat) (b : List Byte) :
    ((s.ringPut slot b).1.slot slot).cq.tail = ((s.slot slot).cq.tail + 1) % (s.slot slot).cq.size ∧
    (s.ringPut slot b).1.hostMem = (s.ringEntry slot b).1.hostMem ∧ (s.ringPut slot b).1.reqs = s.reqs := by
  rw [s.ringPut_eq]
  obtain ⟨hcq, hmem, hreqs⟩ := ((s.ringEntry slot b).1.setSlot slot (s.slot slot).pastEntry).entryWritten_kept slot
  refine ⟨(congrArg Ring.tail hcq).trans ?_, hmem, hreqs.trans ?_⟩
  · rw [State.slot_setSlot]
    rfl
  · rw [s.ringEntry_frame]
    rfl

/-! ## Waiting final completions (R292, R357) -/

/-- Final completions at the front may have gone into the ring. -/
structure State.Drained (s t : State) (slot : Nat) : Prop where
  finals : (t.slot slot).finals <:+ (s.slot slot).finals
  own : t.slot slot = { s.slot slot with
    cq := { (s.slot slot).cq with tail := (t.slot slot).cq.tail, phase := (t.slot slot).cq.phase }
    unannounced := (t.slot slot).unannounced, finals := (t.slot slot).finals }
  others : ∀ j, j ≠ slot → t.slot j = s.slot j
  frame : t = { s with slots := t.slots, fns := t.fns, sent := t.sent, hostMem := t.hostMem, dict := t.dict }

theorem State.Drained.refl (s : State) (slot : Nat) : s.Drained s slot := ⟨List.suffix_refl _, rfl, fun _ _ => rfl, rfl⟩

theorem State.Drained.trans (h : s.Drained t slot) (k : t.Drained u slot) : s.Drained u slot := by
  refine ⟨k.finals.trans h.finals, ?_, fun j hj => (k.others j hj).trans (h.others j hj), ?_⟩
  · rw [k.own, h.own]
  · rw [k.frame, h.frame]

theorem State.CqWritten.drained (h : s.CqWritten t slot) : s.Drained t slot := by
  have hfinals : (t.slot slot).finals = (s.slot slot).finals := by rw [h.own]
  refine ⟨by rw [hfinals], ?_, h.others, h.frame⟩
  rw [hfinals]
  exact h.own

theorem State.drained_popFinal {b : List Byte} {rest : List (List Byte)} (h : (s.slot slot).finals = b :: rest) :
    s.Drained (s.modSlot slot fun x => { x with finals := rest }) slot := by
  have hown : (s.modSlot slot fun x => { x with finals := rest }).slot slot = { s.slot slot with finals := rest } :=
    State.slot_setSlot ..
  refine ⟨?_, ?_, fun j hj => State.slot_setSlot_ne _ _ _ _ hj, rfl⟩
  · rw [hown, h]
    exact List.suffix_cons b rest
  · rw [hown]

/-- What may go into the ring goes: none waits, the ring is full, or a teardown waits for its capture. -/
theorem State.drained_drainFinals : ∀ (fuel : Nat) (s : State), s.Drained (s.drainFinals slot fuel) slot ∧
    ((s.slot slot).finals.length ≤ fuel → ((s.drainFinals slot fuel).slot slot).finals = [] ∨
      (s.drainFinals slot fuel).ringRoom slot = false ∨ ((s.drainFinals slot fuel).slot slot).teardown = 1)
  | 0, s => ⟨.refl s slot, fun h => .inl (List.eq_nil_of_length_eq_zero (Nat.le_zero.mp h))⟩
  | fuel + 1, s => by
    unfold State.drainFinals
    split
    · next hnil => exact ⟨.refl s slot, fun _ => .inl hnil⟩
    · next b rest hfinals =>
      split
      · obtain ⟨hrest, hdone⟩ := State.drained_drainFinals fuel ((s.modSlot slot fun x => { x with finals := rest }).ringPut slot b).1
        have hpop := (State.drained_popFinal hfinals).trans
          ((s.modSlot slot fun x => { x with finals := rest }).cqWritten_ringPut slot b).drained
        refine ⟨hpop.trans hrest, fun hlen => hdone ?_⟩
        have hkept : (((s.modSlot slot fun x => { x with finals := rest }).ringPut slot b).1.slot slot).finals = rest := by
          rw [((s.modSlot slot fun x => { x with finals := rest }).cqWritten_ringPut slot b).own]
          exact congrArg Slot.finals (s.slot_setSlot slot { s.slot slot with finals := rest })
        rw [hkept]
        rw [hfinals, List.length_cons] at hlen
        exact Nat.le_of_succ_le_succ hlen
      · next hfull =>
        refine ⟨.refl s slot, fun _ => .inr ?_⟩
        rw [Bool.and_eq_true, bne_iff_ne, not_and_or, not_not] at hfull
        exact hfull.imp_left (eq_false_of_ne_true ·)

theorem State.drainFinals_nil (fuel : Nat) (h : (s.slot slot).finals = []) : s.drainFinals slot fuel = s := by
  cases fuel with
  | zero => rfl
  | succ n =>
    unfold State.drainFinals
    rw [h]

end Sys2Proof.Machine
end

section
/-! Interim completions and ring registers (R285, R286, R290, R292, R354): O42. -/

namespace Sys2Proof.Machine

variable {s t u : State} {slot key : Nat} {r : Req}

/-! ## The key table (R296) -/

theorem find_map_of_kept {α : Type} {p : α → Bool} {g : α → α} (h : ∀ x, p (g x) = p x) (l : List α) :
    (l.map g).find? p = (l.find? p).map g := by
  rw [List.find?_map]
  exact congrArg (Option.map g) (congrArg (fun p => List.find? p l) (funext h))

/-- The entry of a slot's key table after a change of it. -/
theorem State.req_modReq {f : Req → Req} (hslot : ∀ x, (f x).slot = x.slot) (hkey : ∀ x, (f x).key = x.key) :
    (s.modReq slot key f).req slot key = (s.req slot key).map f := by
  unfold State.modReq State.req
  dsimp only
  rw [find_map_of_kept]
  · cases hfind : s.reqs.find? fun r => r.slot == slot && r.key == key with
    | none => rfl
    | some x =>
      have hx := List.find?_some (p := fun r : Req => r.slot == slot && r.key == key) hfind
      rw [Bool.and_eq_true, beq_iff_eq, beq_iff_eq] at hx
      exact congrArg some (if_pos hx)
  · intro x
    split
    · rw [hslot, hkey]
    · rfl

/-! ## FRP and the ring keep the key table -/

theorem State.frpSend_frame (s : State) (slot a type : Nat) (body : List Byte) :
    s.frpSend slot a type body = { s with slots := (s.frpSend slot a type body).slots, tx := (s.frpSend slot a type body).tx } := by
  unfold State.frpSend
  split
  · rfl
  · split <;> rfl

theorem State.postFinal_frame (s : State) (slot : Nat) (k : Transport) (b : List Byte) :
    s.postFinal slot k b = { s with
      slots := (s.postFinal slot k b).slots, tx := (s.postFinal slot k b).tx, fns := (s.postFinal slot k b).fns
      sent := (s.postFinal slot k b).sent, hostMem := (s.postFinal slot k b).hostMem, dict := (s.postFinal slot k b).dict } := by
  cases k with
  | ring =>
    obtain ⟨t, ht⟩ : ∃ t, t = s.modSlot slot fun x => { x with finals := x.finals ++ [b] } := ⟨_, rfl⟩
    have hframe : t = { s with slots := t.slots } := by rw [ht]; rfl
    have hdrain := (State.drained_drainFinals (slot := slot) (t.slot slot).finals.length t).1.frame
    have hpost : s.postFinal slot .ring b = t.drainFinals slot (t.slot slot).finals.length := by rw [ht]; rfl
    rw [hpost, hdrain, hframe]
  | frp a =>
    have hpost : s.postFinal slot (.frp a) b = s.frpSend slot a 0x11 b := rfl
    have hframe := s.frpSend_frame slot a 0x11 b
    rw [hpost]
    generalize s.frpSend slot a 0x11 b = t at hframe ⊢
    rw [hframe]

/-! ## The end of a request (R283) -/

theorem State.closeReq_reqs (s : State) (r : Req) (b : List Byte) : (s.closeReq r b).reqs =
    (s.modReq r.slot r.key fun x =>
      { x with final := some b, finalAt := s.time, preUs := s.preUsOf x, stalledAt := none }).reqs := by
  unfold State.closeReq
  dsimp only
  split
  · split <;> rfl
  · rfl

/-- The request that a key names carries them. -/
theorem State.req_named (h : s.req slot key = some r) : r.slot = slot ∧ r.key = key := by
  have hr := List.find?_some (p := fun r : Req => r.slot == slot && r.key == key) h
  rwa [Bool.and_eq_true, beq_iff_eq, beq_iff_eq] at hr

theorem State.req_congr (h : t.reqs = s.reqs) (slot key : Nat) : t.req slot key = s.req slot key := by
  unfold State.req
  rw [h]

/-- A request that is ended holds its final completion. -/
theorem State.req_endReq (h : s.req slot key = some r) (hlive : r.live = true) {status : Nat} (hst : status < 256) :
    ∃ y b, (s.endReq slot key status).req slot key = some y ∧ y.final = some b ∧ leAt b 12 1 = status := by
  obtain ⟨rfl, rfl⟩ := State.req_named h
  have hreqs : (s.endReq r.slot r.key status).reqs = (s.closeReq r (s.finalBytes r status)).reqs := by
    unfold State.endReq
    rw [h]
    dsimp only
    rw [if_neg (by rw [hlive]; decide)]
    exact (congrArg State.reqs (State.postFinal_frame ..) :)
  refine ⟨{ r with final := some (s.finalBytes r status), finalAt := s.time, preUs := s.preUsOf r, stalledAt := none },
    s.finalBytes r status, ?_, rfl, (s.completion_status ..).trans (Nat.mod_eq_of_lt hst)⟩
  rw [State.req_congr (hreqs.trans (s.closeReq_reqs r _)), State.req_modReq, h]
  · rfl
  · exact fun _ => rfl
  · exact fun _ => rfl

/-! ## An interim completion (R290, R292, R386) -/

/-- The request's tokens are reported. -/
def Req.reportedAll (r : Req) (now : Nat) : Req :=
  { r with reported := r.emitted.length, reportedAt := now, taintSince := false, inexactSince := false }

/-- The entry of an interim completion. -/
def State.interimBytes (s : State) (r : Req) : List Byte :=
  s.completion r 0 (1 + 2 * b2n r.taintSince + 4 * b2n r.inexactSince)

theorem State.completion_tokens (s : State) (x : Req) (status flags : Nat) :
    leAt (s.completion x status flags) 16 4 = x.emitted.length % 2 ^ 32 := by
  unfold State.completion complBytes
  simp only [List.append_assoc]
  refine (leAt_skip (k := 8) (a := 8) _ 4 (length_leBytes ..)).trans ?_
  refine (leAt_skip (k := 4) (a := 4) _ 4 (length_leBytes ..)).trans ?_
  refine (leAt_skip (k := 1) (a := 3) _ 4 (length_leBytes ..)).trans ?_
  refine (leAt_skip (k := 1) (a := 2) _ 4 (length_leBytes ..)).trans ?_
  refine (leAt_skip (k := 1) (a := 1) _ 4 (length_leBytes ..)).trans ?_
  refine (leAt_skip (k := 1) (a := 0) _ 4 (length_leBytes ..)).trans ?_
  exact (leAt_head (length_leBytes ..)).trans (leNat_leBytes 4 _)

/-- The ring takes an interim completion. -/
def State.ringFree (s : State) (slot : Nat) : Prop :=
  s.ringRoom slot = true ∧ (s.slot slot).finals = [] ∧ (s.slot slot).teardown = 0

theorem State.postInterim_none (h : ∀ r, s.req slot key = some r → r.live = false ∨ r.emitted.length ≤ r.reported) :
    s.postInterim slot key = s := by
  unfold State.postInterim
  cases hr : s.req slot key with
  | none => rfl
  | some r =>
    dsimp only
    refine if_pos ?_
    rcases h r hr with hl | hl
    · simp [hl]
    · simp [hl]

section
variable (hr : s.req slot key = some r) (hlive : r.live = true) (hnew : r.reported < r.emitted.length)
include hr hlive hnew

theorem State.postInterim_frp {a : Nat} (hfrom : r.from_ = .frp a) : s.postInterim slot key =
    (s.frpSend slot a 0x11 (s.interimBytes r)).modReq slot key
      fun x => x.reportedAll (s.frpSend slot a 0x11 (s.interimBytes r)).time := by
  unfold State.postInterim
  rw [hr]
  dsimp only
  rw [if_neg (by simp [hlive, hnew]), hfrom]
  rfl

theorem State.postInterim_ring (hfrom : r.from_ = .ring) : s.postInterim slot key =
    if s.ringRoom slot && (s.slot slot).finals.isEmpty && (s.slot slot).teardown == 0 then
      if (s.ringPut slot (s.interimBytes r)).2 then
        (s.ringPut slot (s.interimBytes r)).1.modReq slot key
          fun x => x.reportedAll (s.ringPut slot (s.interimBytes r)).1.time
      else (s.ringPut slot (s.interimBytes r)).1.endReq slot key 0x0E
    else s := by
  unfold State.postInterim
  rw [hr]
  dsimp only
  rw [if_neg (by simp [hlive, hnew]), hfrom]
  rfl

theorem State.postInterim_full (hfrom : r.from_ = .ring) (hfull : ¬s.ringFree slot) : s.postInterim slot key = s := by
  rw [State.postInterim_ring hr hlive hnew hfrom]
  refine if_neg fun h => hfull ?_
  rw [Bool.and_eq_true, Bool.and_eq_true, beq_iff_eq, List.isEmpty_iff, and_assoc] at h
  exact h

theorem State.postInterim_free (hfrom : r.from_ = .ring) (hfree : s.ringFree slot) : s.postInterim slot key =
    if (s.ringPut slot (s.interimBytes r)).2 then
      (s.ringPut slot (s.interimBytes r)).1.modReq slot key
        fun x => x.reportedAll (s.ringPut slot (s.interimBytes r)).1.time
    else (s.ringPut slot (s.interimBytes r)).1.endReq slot key 0x0E := by
  rw [State.postInterim_ring hr hlive hnew hfrom]
  refine if_pos ?_
  rw [Bool.and_eq_true, Bool.and_eq_true, beq_iff_eq, List.isEmpty_iff, and_assoc]
  exact hfree
end

theorem State.ringPut_written {h : HostRef} (href : s.slotRef slot ((s.slot slot).cq.base + 64 * (s.slot slot).cq.tail) 64 = some h)
    (hready : s.hostReady h.fn = true) (b : List Byte) : (s.ringPut slot b).2 = true ∧ (s.ringPut slot b).1.hostMem =
      memWrite s.hostMem (h.port * 2 ^ 64 + h.addr) (b.take 63 ++ leBytes 1 (b2n (s.slot slot).cq.phase)) := by
  have hentry : s.ringEntry slot b = (s.hostPut h (b.take 63 ++ leBytes 1 (b2n (s.slot slot).cq.phase)), true) := by
    unfold State.ringEntry
    rw [href]
    exact if_pos hready
  refine ⟨by rw [s.ringPut_eq, hentry], ?_⟩
  rw [(s.ringPut_tail slot b).2.1, hentry]
  rfl

theorem State.ringPut_lost (h : s.slotRef slot ((s.slot slot).cq.base + 64 * (s.slot slot).cq.tail) 64 = none ∨
    ∃ h, s.slotRef slot ((s.slot slot).cq.base + 64 * (s.slot slot).cq.tail) 64 = some h ∧ s.hostReady h.fn = false)
    (b : List Byte) : (s.ringPut slot b).2 = false := by
  rw [s.ringPut_eq]
  unfold State.ringEntry
  rcases h with hnone | ⟨h, href, hready⟩
  · rw [hnone]
  · rw [href]
    exact congrArg Prod.snd (if_neg (ne_true_of_eq_false hready))

/-! ## Ring registers (R285, R286) -/

/-- A slot with one of its rings replaced. -/
def Slot.putRing (x : Slot) (comp : Bool) (r : Ring) : Slot := if comp then { x with cq := r } else { x with sq := r }

theorem State.modRing_eq (s : State) (slot : Nat) (comp : Bool) (f : Ring → Ring) :
    s.modRing slot comp f = s.setSlot slot ((s.slot slot).putRing comp (f (s.ringOf slot comp))) := by
  cases comp <;> rfl

/-- A stopped ring is disabled, and the event log records it. -/
structure State.RingStopped (s t : State) (slot : Nat) (y : Slot) : Prop where
  own : t.slot slot = y
  others : ∀ j, j ≠ slot → t.slot j = s.slot j
  event : ∃ e, t.log.head? = some e ∧ e.record % 2 ^ 16 = 0x0301
  frame : t = { s with slots := t.slots, log := t.log, dict := t.dict, fns := t.fns, sent := t.sent, logMsgAt := t.logMsgAt,
                       logMsgHeld := t.logMsgHeld }

theorem State.ringStopped_ringStop (s : State) (slot : Nat) (comp : Bool) :
    s.RingStopped (s.ringStop slot comp) slot
      ((s.slot slot).putRing comp { s.ringOf slot comp with error := true, enable := false }) := by
  obtain ⟨t, ht⟩ : ∃ t, t = s.modRing slot comp fun r => { r with error := true, enable := false } := ⟨_, rfl⟩
  have hset : t = s.setSlot slot ((s.slot slot).putRing comp { s.ringOf slot comp with error := true, enable := false }) := by
    rw [ht, State.modRing_eq]
  obtain ⟨u, hu⟩ : ∃ u, u = t.logMg (t.rd (K.slotInstance slot)) 0x0301 1 0 slot (b2n comp) 0 := ⟨_, rfl⟩
  have hstop : s.ringStop slot comp = u.message (vfOf slot) 1 := by
    unfold State.ringStop
    rw [hu, ht]
  have hlog : t.LogOnly u := by rw [hu]; exact State.logMg_only ..
  have hmsg := u.message_only (vfOf slot) 1
  have hslot : ∀ j, (u.message (vfOf slot) 1).slot j = t.slot j := fun j =>
    congrArg (fun m => mapGet (fun _ => ({} : Slot)) m j) (hmsg.slots.trans hlog.slots)
  rw [hstop]
  refine ⟨?_, fun j hj => ?_, ?_, ?_⟩
  · rw [hslot, hset, State.slot_setSlot]
  · rw [hslot, hset, State.slot_setSlot_ne _ _ _ _ hj]
  · obtain ⟨y, -, -, -, hrecord, -, hy⟩ := t.log_logMg (t.rd (K.slotInstance slot)) 0x0301 1 0 slot (b2n comp) 0
    refine ⟨y, ?_, hrecord⟩
    rw [hmsg.log, hu, hy]
    rfl
  · rw [hmsg.eq, hlog.eq, hset]
    rfl

theorem Slot.putRing_eq (x : Slot) (comp : Bool) (r : Ring) :
    (if comp = true then { x with cq := r } else { x with sq := r }) = x.putRing comp r := rfl

section
variable {slot : SlotId} {v : Word64} {comp : Bool}

theorem exec_ringCfgWrite_counted {b : Bool}
    (h : (s.ringOf slot.val comp).enable = true ∨ (b = false ∧ bit v.toNat 8 = true ∧ s.rd (K.slotState slot.val) ≠ 1)) :
    exec (.ringCfgWrite slot comp b v) s = .next (s.bump (K.ringErrors slot.val) 32 1) := by
  rw [exec_ringCfgWrite]
  refine if_pos (h.imp_right ?_)
  rintro ⟨rfl, hen, hst⟩
  exact ⟨rfl, hen, hst⟩

variable (h : (s.ringOf slot.val comp).enable = false)
include h

theorem exec_ringCfgWrite_base : exec (.ringCfgWrite slot comp true v) s =
    .next (s.modRing slot.val comp fun r => { r with base := v.toNat }) := by
  rw [exec_ringCfgWrite]
  refine (if_neg ?_).trans (if_pos rfl)
  rintro (he | ⟨hb, -⟩)
  · rw [h] at he
    cases he
  · cases hb

theorem exec_ringCfgWrite_size (hen : bit v.toNat 8 = false) : exec (.ringCfgWrite slot comp false v) s =
    .next (s.modRing slot.val comp fun r => { r with sizeLog2 := bits v.toNat 4 0 }) := by
  rw [exec_ringCfgWrite]
  refine (if_neg ?_).trans ((if_neg Bool.false_ne_true).trans (if_pos (by rw [hen]; rfl)))
  rintro (he | ⟨-, he, -⟩)
  · rw [h] at he
    cases he
  · rw [hen] at he
    cases he

theorem exec_ringCfgWrite_enable (hen : bit v.toNat 8 = true) (hst : s.rd (K.slotState slot.val) = 1) :
    exec (.ringCfgWrite slot comp false v) s =
      if s.ringPlaced slot.val (bits v.toNat 4 0) (s.ringOf slot.val comp).base = true then
        let t := s.modRing slot.val comp fun r =>
          { r with sizeLog2 := bits v.toNat 4 0, enable := true, error := false, head := 0, tail := 0, phase := true }
        .next (if comp then t.drainFinals slot.val (t.slot slot.val).finals.length else t)
      else .next ((s.modRing slot.val comp fun r => { r with sizeLog2 := bits v.toNat 4 0 }).ringStop slot.val comp) := by
  rw [exec_ringCfgWrite]
  refine (if_neg ?_).trans ((if_neg Bool.false_ne_true).trans (if_neg (by rw [hen]; decide)))
  rintro (he | ⟨-, -, hs⟩)
  · rw [h] at he
    cases he
  · exact hs hst
end

/-- Settles O42. -/
theorem ringRegistersAndCompletions : Obligations.RingRegistersAndCompletions := by
  intro s slot v key x f Sets Stops Fills
  have hsets : ∀ {a : Instr} {y : Slot}, exec a s = .next (s.setSlot slot.val y) → Sets a y := fun h =>
    ⟨_, h, rfl, State.slot_setSlot .., fun _ hj => State.slot_setSlot_ne _ _ _ _ hj⟩
  have hstops : ∀ {a : Instr} {t : State} {y : Slot}, exec a s = .next t → s.RingStopped t slot.val y → Stops a y :=
    fun h k => ⟨_, h, k.own, k.others, k.event, k.frame⟩
  have hfills : ∀ {a : Instr} {y : Slot},
      exec a s = .next ((s.setSlot slot.val y).drainFinals slot.val ((s.setSlot slot.val y).slot slot.val).finals.length) →
      Fills a y := by
    intro a y h
    obtain ⟨hd, hdone⟩ := State.drained_drainFinals (slot := slot.val)
      ((s.setSlot slot.val y).slot slot.val).finals.length (s.setSlot slot.val y)
    obtain ⟨hfinals, hown, hothers, -⟩ := hd
    have hy : (s.setSlot slot.val y).slot slot.val = y := State.slot_setSlot ..
    rw [hy] at h hfinals hown hothers hdone
    refine ⟨_, h, hfinals, ?_, ?_, ?_, fun hnil => ?_, fun j hj => (hothers j hj).trans (State.slot_setSlot_ne _ _ _ _ hj)⟩
    · rw [show y.teardown = _ from (congrArg Slot.teardown hown).symm]
      exact hdone (Nat.le_refl _)
    · rw [hown]
    · rw [hown]
    · rw [State.drainFinals_nil _ (by rw [hy]; exact hnil)]
      exact ⟨hy, rfl⟩
  refine ⟨fun h => ?sqOff, fun h hin => ?sqIn, fun h hout => ?sqOut, fun h => ?cqOff, fun h hin => ?cqIn, fun h hout => ?cqOut,
    fun comp => ?cfg, fun h => ?quiet, fun h => ?announced, ?expiry, fun h => ?nothing,
    fun r hr hlive hnew => ?interim⟩
  case sqOff =>
    rw [exec_sqTail]
    exact if_pos (by rw [h]; rfl)
  case sqIn =>
    refine hsets ?_
    rw [exec_sqTail]
    exact (if_neg (by rw [h]; decide)).trans (if_neg (Nat.not_le.mpr hin))
  case sqOut =>
    refine hstops ?_ (s.ringStopped_ringStop slot.val false)
    rw [exec_sqTail]
    exact (if_neg (by rw [h]; decide)).trans (if_pos hout)
  case cqOff =>
    rw [exec_cqHead]
    exact if_pos (by rw [h]; rfl)
  case cqIn =>
    refine hfills ?_
    rw [exec_cqHead]
    exact (if_neg (by rw [h]; decide)).trans (if_neg (Nat.not_le.mpr hin))
  case cqOut =>
    refine hstops ?_ (s.ringStopped_ringStop slot.val true)
    rw [exec_cqHead]
    exact (if_neg (by rw [h]; decide)).trans (if_pos hout)
  case cfg =>
    intro r put n en
    have hput : ∀ y, put y = x.putRing comp y := fun _ => rfl
    have hring : s.ringOf slot.val comp = r := rfl
    have hset : ∀ g : Ring → Ring, s.modRing slot.val comp g = s.setSlot slot.val (put (g r)) := fun g => s.modRing_eq ..
    refine ⟨fun b h => ?counted, fun h => ?base, fun h hen => ?size, fun h hen hst => ⟨fun hplaced => ?on, fun hplaced => ?off⟩⟩
    case counted =>
      exact ⟨_, exec_ringCfgWrite_counted h,
        ⟨rfl, fun _ hk => State.rd_wr_ne _ _ _ _ fun e => hk (List.mem_singleton.mpr e)⟩, State.rd_wr ..⟩
    case base => exact hsets ((exec_ringCfgWrite_base h).trans (by rw [hset]))
    case size => exact hsets ((exec_ringCfgWrite_size h hen).trans (by rw [hset]))
    case on =>
      intro on
      have hexec := (exec_ringCfgWrite_enable h hen hst).trans (if_pos hplaced)
      rw [hset] at hexec
      cases comp with
      | true => exact hfills hexec
      | false => exact hsets hexec
    case off =>
      have hexec := (exec_ringCfgWrite_enable h hen hst).trans (if_neg (ne_true_of_eq_false hplaced))
      obtain ⟨t, ht⟩ : ∃ t, t = s.modRing slot.val comp fun r => { r with sizeLog2 := n } := ⟨_, rfl⟩
      have hstop := t.ringStopped_ringStop slot.val comp
      rw [← ht] at hexec
      have htset := ht.trans (hset _)
      refine hstops hexec ⟨hstop.own.trans ?_, fun j hj => (hstop.others j hj).trans ?_, hstop.event, ?_⟩
      · rw [State.ringOf, htset, State.slot_setSlot]
        cases comp <;> rfl
      · rw [htset, State.slot_setSlot_ne _ _ _ _ hj]
      · rw [hstop.frame, htset]
        rfl
  case quiet =>
    rw [exec_irqCoalesce]
    exact congrArg Host.Outcome.next (if_pos h)
  case announced =>
    obtain ⟨t, ht⟩ : ∃ t, t = s.setSlot slot.val { x with unannounced := 0 } := ⟨_, rfl⟩
    have hexec : exec (.irqCoalesce slot) s = .next (t.message (vfOf slot.val) 0) := by
      rw [exec_irqCoalesce, ht]
      exact congrArg Host.Outcome.next (if_neg h)
    have hmsg := t.message_only (vfOf slot.val) 0
    have hslot : ∀ j, (t.message (vfOf slot.val) 0).slot j = t.slot j := fun j =>
      congrArg (fun m => mapGet (fun _ => ({} : Slot)) m j) hmsg.slots
    refine ⟨_, hexec, ?_, ?_, fun j hj => ?_, ?_, fun hen hoff => ?_⟩
    · rw [hmsg.eq, ht]
      rfl
    · rw [hslot, ht, State.slot_setSlot]
    · rw [hslot, ht, State.slot_setSlot_ne _ _ _ _ hj]
    · rw [State.message_sent, ht]
      rfl
    · exact State.message_held (by decide) (by rw [ht]; exact hen) (by rw [ht]; exact hoff)
  case expiry =>
    refine ⟨_, exec_dedupWindowExpiry .., rfl, fun r => ?_⟩
    rw [List.mem_filter]
    refine and_congr_right fun _ => ?_
    cases r.live with
    | false => simp
    | true => simp
  case nothing =>
    rw [exec_interimCompletion]
    exact congrArg Host.Outcome.next (State.postInterim_none h)
  case interim =>
    intro r' free
    have hreported : ∀ (t : State), t.reqs = s.reqs → t.time = s.time →
        (t.modReq slot.val key fun x => x.reportedAll t.time).req slot.val key = some r' := fun t hreqs htime => by
      rw [State.req_modReq, State.req_congr hreqs, hr, htime]
      · rfl
      · exact fun _ => rfl
      · exact fun _ => rfl
    have hput := s.cqWritten_ringPut slot.val (s.interimBytes r)
    obtain ⟨htail, -, hreqs⟩ := s.ringPut_tail slot.val (s.interimBytes r)
    refine ⟨fun a hfrom => ?frp, fun hfrom hfull => ?full, fun hfrom hfree h href hready => ?written, fun hfrom hfree hlost => ?lost⟩
    all_goals rw [exec_interimCompletion]
    all_goals unfold execInterimCompletion
    case frp =>
      rw [State.postInterim_frp hr hlive hnew hfrom]
      have hframe := s.frpSend_frame slot.val a 0x11 (s.interimBytes r)
      generalize s.frpSend slot.val a 0x11 (s.interimBytes r) = t at hframe ⊢
      refine ⟨_, rfl, hreported t (congrArg State.reqs hframe :) (congrArg State.time hframe :), ?_⟩
      rw [hframe]
      rfl
    case full => rw [State.postInterim_full hr hlive hnew hfrom hfull]
    case written =>
      obtain ⟨htook, hmem⟩ := State.ringPut_written href hready (s.interimBytes r)
      rw [State.postInterim_free hr hlive hnew hfrom hfree, if_pos htook]
      exact ⟨_, s.interimBytes r, rfl, hreported _ hreqs (congrArg State.time hput.frame :), hmem,
        (s.completion_key ..).trans (by rw [(State.req_named hr).2]), s.completion_status .., s.completion_tokens .., htail⟩
    case lost =>
      have hno := State.ringPut_lost hlost (s.interimBytes r)
      rw [State.postInterim_free hr hlive hnew hfrom hfree, if_neg (ne_true_of_eq_false hno)]
      obtain ⟨y, b, hy, hb, hst⟩ := State.req_endReq ((State.req_congr hreqs _ _).trans hr) hlive (status := 0x0E) (by decide)
      exact ⟨_, y, b, rfl, hy, hb, hst⟩

end Sys2Proof.Machine
end

section
/-! FRP datagrams and timers (R293-R295, R350): O43. -/

namespace Sys2Proof.Machine

variable {s t u : State} {d : FrpDatagram} {slot n : Nat}

/-! ## Associations of a slot -/

/-- A change of one association: it reads as changed, and nothing else does. -/
structure State.AssocSet (s t : State) (slot n : Nat) (a : Assoc) : Prop where
  own : t.assoc slot n = some a
  rest : t.slot slot = { s.slot slot with assocs := (t.slot slot).assocs }
  assocs : ∀ m, m ≠ n → t.assoc slot m = s.assoc slot m
  slots : ∀ j, j ≠ slot → t.slot j = s.slot j
  frame : t = { s with slots := t.slots }

theorem State.assoc_named {a : Assoc} (h : s.assoc slot n = some a) : a.assoc = n :=
  beq_iff_eq.mp (List.find?_some (p := fun x : Assoc => x.assoc == n) h)

/-- What `modAssoc` does, whether the association is there or not. -/
theorem State.modAssoc_spec {f : Assoc → Assoc} (hf : ∀ a, a.assoc = n → (f a).assoc = n) :
    (s.modAssoc slot n f).assoc slot n = (s.assoc slot n).map f ∧
    (∀ m, m ≠ n → (s.modAssoc slot n f).assoc slot m = s.assoc slot m) ∧
    (s.modAssoc slot n f).slot slot = { s.slot slot with assocs := ((s.modAssoc slot n f).slot slot).assocs } := by
  have hslot : (s.modAssoc slot n f).slot slot =
      { s.slot slot with assocs := (s.slot slot).assocs.map fun y => if y.assoc = n then f y else y } := State.slot_setSlot ..
  have hkey : ∀ y : Assoc, (if y.assoc = n then f y else y).assoc = y.assoc := fun y => by
    split
    · next h => exact (hf y h).trans h.symm
    · rfl
  have hfind : ∀ m, (s.modAssoc slot n f).assoc slot m =
      (s.assoc slot m).map fun y => if y.assoc = n then f y else y := fun m => by
    unfold State.assoc
    rw [hslot]
    exact find_map_of_kept (p := fun x : Assoc => x.assoc == m) (fun x => by rw [hkey]) _
  refine ⟨(hfind n).trans ?_, fun m hm => (hfind m).trans ?_, by rw [hslot]⟩
  · cases ha : s.assoc slot n with
    | none => rfl
    | some a => exact congrArg some (if_pos (State.assoc_named ha))
  · cases ha : s.assoc slot m with
    | none => rfl
    | some a => exact congrArg some (if_neg fun h => hm ((State.assoc_named ha).symm.trans h))

theorem State.assocSet_modAssoc {f : Assoc → Assoc} {a : Assoc} (hf : ∀ a, a.assoc = n → (f a).assoc = n)
    (h : s.assoc slot n = some a) : s.AssocSet (s.modAssoc slot n f) slot n (f a) := by
  obtain ⟨hown, hothers, hrest⟩ := State.modAssoc_spec (s := s) (slot := slot) hf
  exact ⟨hown.trans (by rw [h]; rfl), hrest, hothers, fun j hj => State.slot_setSlot_ne _ _ _ _ hj, rfl⟩

theorem State.AssocSet.trans {a b : Assoc} (h : s.AssocSet t slot n a) (k : t.AssocSet u slot n b) : s.AssocSet u slot n b := by
  refine ⟨k.own, ?_, fun m hm => (k.assocs m hm).trans (h.assocs m hm), fun j hj => (k.slots j hj).trans (h.slots j hj), ?_⟩
  · rw [k.rest, h.rest]
  · rw [k.frame, h.frame]

/-! ## What a datagram's association becomes (R293, R295, R379) -/

/-- The association of a datagram, as it stands or as its first datagram opens it. -/
def State.assocFor (s : State) (d : FrpDatagram) : Assoc := (s.assoc d.slot d.assoc).getD { assoc := d.assoc }

theorem State.assocSet_frpTouch (s : State) (d : FrpDatagram) :
    s.AssocSet (s.frpTouch d) d.slot d.assoc { s.assocFor d with port := d.port.val } := by
  unfold State.frpTouch State.assocFor
  split
  · next a ha =>
    rw [ha]
    exact State.assocSet_modAssoc (f := fun a => { a with port := d.port.val }) (fun _ h => h) ha
  · next hnone =>
    have hslot : (s.modSlot d.slot fun x => { x with assocs := x.assocs ++ [{ assoc := d.assoc, port := d.port.val }] }).slot
        d.slot = { s.slot d.slot with assocs := (s.slot d.slot).assocs ++ [{ assoc := d.assoc, port := d.port.val }] } :=
      State.slot_setSlot ..
    rw [hnone]
    refine ⟨?_, by rw [hslot], fun m hm => ?_, fun j hj => State.slot_setSlot_ne _ _ _ _ hj, rfl⟩
    · unfold State.assoc at hnone ⊢
      rw [hslot, List.find?_append, hnone]
      simp
    · unfold State.assoc
      rw [hslot, List.find?_append]
      simp [hm.symm]

/-- Acknowledged datagrams that carried tokens are noted in the requests they carried tokens of. -/
structure State.AckNoted (s t : State) (slot : Nat) (l : List FrpOut) : Prop where
  frame : t = { s with reqs := t.reqs }
  none : (∀ o ∈ l, o.type ≠ 0x10) → t = s
  kept : ∀ key r, s.req slot key = some r → ∃ y, t.req slot key = some y ∧ (∀ p ∈ r.acked, p ∈ y.acked) ∧
    ∀ o ∈ l, o.type = 0x10 → leAt o.body 0 8 = key → (leAt o.body 8 4, leAt o.body 12 4) ∈ y.acked

theorem State.ackNoted_noteAcked (s : State) (slot : Nat) (o : FrpOut) : s.AckNoted (s.noteAcked slot o) slot [o] := by
  unfold State.noteAcked
  split
  · next htype =>
    refine ⟨rfl, fun h => absurd htype (h o (List.mem_singleton.mpr rfl)), fun key r hr => ?_⟩
    by_cases hkey : leAt o.body 0 8 = key
    · refine ⟨{ r with acked := (leAt o.body 8 4, leAt o.body 12 4) :: r.acked }, ?_, fun p hp => List.mem_cons_of_mem _ hp,
        fun p hp _ _ => ?_⟩
      · rw [hkey, State.req_modReq, hr]
        · rfl
        · exact fun _ => rfl
        · exact fun _ => rfl
      · rw [List.mem_singleton.mp hp]
        exact List.mem_cons_self
    · refine ⟨r, ?_, fun _ hp => hp, fun p hp _ h => absurd (by rwa [List.mem_singleton.mp hp] at h) hkey⟩
      unfold State.modReq State.req
      dsimp only
      rw [find_map_of_kept]
      · rw [show s.reqs.find? (fun r => r.slot == slot && r.key == key) = some r from hr]
        exact congrArg some (if_neg fun h => hkey (h.2.symm.trans (State.req_named hr).2))
      · intro x
        split <;> rfl
  · next htype =>
    exact ⟨rfl, fun _ => rfl, fun key r hr => ⟨r, hr, fun _ hp => hp, fun p hp h => absurd (by rwa [List.mem_singleton.mp hp] at h) htype⟩⟩

theorem State.AckNoted.cons {o : FrpOut} {l : List FrpOut} (h : s.AckNoted t slot [o]) (k : t.AckNoted u slot l) : s.AckNoted u slot (o :: l) := by
  refine ⟨by rw [k.frame, h.frame], fun hno => ?_, fun key r hr => ?_⟩
  · rw [k.none fun p hp => hno p (List.mem_cons_of_mem _ hp), h.none fun p hp => hno p (by rw [List.mem_singleton.mp hp]; exact List.mem_cons_self)]
  · obtain ⟨y, hy, hkept, hown⟩ := h.kept key r hr
    obtain ⟨z, hz, hkept', hown'⟩ := k.kept key y hy
    refine ⟨z, hz, fun p hp => hkept' p (hkept p hp), fun p hp htype hkey => ?_⟩
    rcases List.mem_cons.mp hp with rfl | hp
    · exact hkept' _ (hown p (List.mem_singleton.mpr rfl) htype hkey)
    · exact hown' p hp htype hkey

theorem State.ackNoted_each (slot : Nat) : ∀ (l : List FrpOut) (s : State), s.AckNoted (s.each l fun s o => s.noteAcked slot o) slot l
  | [], _ => ⟨rfl, fun _ => rfl, fun _ r hr => ⟨r, hr, fun _ hp => hp, fun _ hp => absurd hp List.not_mem_nil⟩⟩
  | o :: l, s => (s.ackNoted_noteAcked slot o).cons (State.ackNoted_each slot l (s.noteAcked slot o))

/-! ## What the acknowledgements of a datagram do (R295) -/

/-- The association as a good datagram leaves it, but for the count of what it received. -/
def State.heard (s : State) (d : FrpDatagram) : Assoc :=
  { s.assocFor d with port := d.port.val, out := (s.assocFor d).out.filter fun o => !ackedBy d o }

/-- A datagram is heard: its association stands as `a`, and the requests whose tokens it acknowledges know it. -/
structure State.Heard (s t : State) (d : FrpDatagram) (a : Assoc) : Prop where
  frame : t = { s with slots := t.slots, reqs := t.reqs }
  own : t.assoc d.slot d.assoc = some a
  assocs : ∀ m, m ≠ d.assoc → t.assoc d.slot m = s.assoc d.slot m
  slots : ∀ j, j ≠ d.slot → t.slot j = s.slot j
  rest : t.slot d.slot = { s.slot d.slot with assocs := (t.slot d.slot).assocs }
  unnoted : (∀ o ∈ (s.assocFor d).out, ackedBy d o = true → o.type ≠ 0x10) → t.reqs = s.reqs
  noted : ∀ o ∈ (s.assocFor d).out, ackedBy d o = true → o.type = 0x10 → ∀ r, s.req d.slot (leAt o.body 0 8) = some r →
    ∃ y, t.req d.slot (leAt o.body 0 8) = some y ∧ (leAt o.body 8 4, leAt o.body 12 4) ∈ y.acked

/-- A later change of the association alone. -/
theorem State.Heard.set {a b : Assoc} (h : s.Heard t d a) (k : t.AssocSet u d.slot d.assoc b) : s.Heard u d b := by
  have hreqs : u.reqs = t.reqs := (congrArg State.reqs k.frame :)
  refine ⟨by rw [k.frame, h.frame], k.own, fun m hm => (k.assocs m hm).trans (h.assocs m hm),
    fun j hj => (k.slots j hj).trans (h.slots j hj), by rw [k.rest, h.rest], fun hno => hreqs.trans (h.unnoted hno),
    fun o ho hacked htype r hr => ?_⟩
  rw [State.req_congr hreqs]
  exact h.noted o ho hacked htype r hr

theorem State.heard_frpAcks (s : State) (d : FrpDatagram) : s.Heard ((s.frpTouch d).frpAcks d) d (s.heard d) := by
  have htouch := s.assocSet_frpTouch d
  obtain ⟨t, ht⟩ : ∃ t, t = s.frpTouch d := ⟨_, rfl⟩
  rw [← ht] at htouch ⊢
  have hnoted := State.ackNoted_each d.slot ((s.assocFor d).out.filter (ackedBy d)) t
  obtain ⟨u, hu⟩ : ∃ u, u = t.each ((s.assocFor d).out.filter (ackedBy d)) fun s o => s.noteAcked d.slot o := ⟨_, rfl⟩
  rw [← hu] at hnoted
  have hacks : t.frpAcks d = u.modAssoc d.slot d.assoc fun a => { a with out := a.out.filter fun o => !ackedBy d o } := by
    unfold State.frpAcks
    rw [htouch.own, hu]
  have hslots : u.slots = t.slots := (congrArg State.slots hnoted.frame :)
  have hslot : ∀ j, u.slot j = t.slot j := fun j => congrArg (fun m => mapGet (fun _ => ({} : Slot)) m j) hslots
  have hassoc : ∀ m, u.assoc d.slot m = t.assoc d.slot m := fun m => by
    unfold State.assoc
    rw [hslot]
  have hreqs : ∀ key, t.req d.slot key = s.req d.slot key := State.req_congr (congrArg State.reqs htouch.frame :) _
  have hfirst : s.Heard u d { s.assocFor d with port := d.port.val } := by
    refine ⟨by rw [hnoted.frame, htouch.frame], (hassoc _).trans htouch.own, fun m hm => (hassoc m).trans (htouch.assocs m hm),
      fun j hj => (hslot j).trans (htouch.slots j hj), by rw [hslot, htouch.rest], fun hno => ?_, fun o ho hacked htype r hr => ?_⟩
    · rw [hnoted.none fun o ho => hno o (List.mem_filter.mp ho).1 (List.mem_filter.mp ho).2, htouch.frame]
    · obtain ⟨y, hy, -, hin⟩ := hnoted.kept (leAt o.body 0 8) r ((hreqs _).trans hr)
      exact ⟨y, hy, hin o (List.mem_filter.mpr ⟨ho, hacked⟩) htype rfl⟩
  rw [hacks]
  exact hfirst.set (State.assocSet_modAssoc (f := fun a => { a with out := a.out.filter fun o => !ackedBy d o })
    (fun _ h => h) ((hassoc _).trans htouch.own))

end Sys2Proof.Machine
end

section
/-! What FRP datagrams and timers do (R293-R295, R350): O43. -/

namespace Sys2Proof.Machine

variable {s t u : State} {d : FrpDatagram} {slot n : Nat}

/-! ## Receiving a sequenced datagram (R295) -/

/-- A number that has not been received yet. -/
def Assoc.isNew (a : Assoc) (seq : Nat) : Prop := a.expect ≤ seq ∧ seq ∉ a.beyond

theorem Assoc.receive_fresh (a : Assoc) (seq : Nat) : (a.receive seq).2 = true ↔ a.isNew seq := by
  unfold Assoc.receive Assoc.isNew
  simp

theorem Assoc.receive_frame (a : Assoc) (seq : Nat) : (a.receive seq).1 =
    { a with expect := (a.receive seq).1.expect, beyond := (a.receive seq).1.beyond, ackDue := true } := rfl

/-- The number that is expected next is received, with nothing received beyond it. -/
theorem Assoc.receive_next {a : Assoc} (h : a.beyond = []) :
    (a.receive a.expect).1.expect = a.expect + 1 ∧ (a.receive a.expect).1.beyond = [] := by
  unfold Assoc.receive
  simp [h, runOn]

theorem runOn_notMem {fuel k : Nat} {l : List Nat} (h : k ∉ l) : runOn fuel k l = k := by
  cases fuel with
  | zero => rfl
  | succ fuel => exact if_neg (by simpa using h)

/-- A number that has been received changes no expectation. -/
theorem Assoc.receive_old {a : Assoc} {seq : Nat} (hold : ¬a.isNew seq) (h : ∀ m ∈ a.beyond, a.expect < m) :
    (a.receive seq).1.expect = a.expect := by
  have hfresh : (decide (a.expect ≤ seq) && !a.beyond.contains seq) = false := by
    refine eq_false_of_ne_true fun hf => hold ?_
    simpa [Assoc.isNew] using hf
  unfold Assoc.receive
  dsimp only
  rw [hfresh]
  exact runOn_notMem fun hm => Nat.lt_irrefl _ (h _ hm)

theorem State.frpReceive_bad (h : s.frpGood d = false) (act : State → State) :
    s.frpReceive d act = s.bump K.frpBad 64 1 := by
  unfold State.frpReceive
  exact if_pos (by rw [h]; rfl)

theorem State.frpReceive_good (h : s.frpGood d = true) : ∃ t, s.Heard t d ((s.heard d).receive d.seq).1 ∧
    ∀ act, s.frpReceive d act = if ((s.heard d).receive d.seq).2 then act t else t := by
  have hheard := s.heard_frpAcks d
  have hname : (s.heard d).assoc = d.assoc := State.assoc_named hheard.own
  refine ⟨_, hheard.set (State.assocSet_modAssoc (f := fun _ => ((s.heard d).receive d.seq).1) (fun _ _ => hname) hheard.own),
    fun act => ?_⟩
  unfold State.frpReceive
  rw [if_neg (by rw [h]; decide)]
  dsimp only
  rw [hheard.own]

/-! ## Requests under assembly (R294, R350) -/

theorem State.frpGrow_incomplete {y : FrpReq} (h : y.complete = none) : t.frpGrow slot y =
    t.setSlot slot { t.slot slot with frpReqs := ((t.slot slot).frpReqs.filter fun z => z.key != y.key) ++ [y] } := by
  unfold State.frpGrow
  rw [h]
  rfl

theorem State.frpGrow_complete {y : FrpReq} {op : Nat} {r : ReqArgs} (h : y.complete = some (op, r)) : t.frpGrow slot y =
    (t.setSlot slot { t.slot slot with frpReqs := (t.slot slot).frpReqs.filter fun z => z.key != y.key }).submit slot op r := by
  unfold State.frpGrow
  rw [h]
  rfl

/-- The answer to a SUBMIT of a slot that resets or closes. -/
theorem State.frpRefuse_spec (t : State) (slot a key : Nat) : ∃ c, leAt c 0 8 = key % 2 ^ 64 ∧ leAt c 12 1 = 8 ∧
    t.frpRefuse slot a key = (t.frpSend slot a 0x11 c).bump (K.requestsAborted slot) 64 1 := by
  refine ⟨_, ?_, ?_, rfl⟩
  · unfold complBytes
    simp only [List.append_assoc]
    exact (leAt_head (length_leBytes ..)).trans (leNat_leBytes 8 _)
  · unfold complBytes
    simp only [List.append_assoc]
    refine (leAt_skip (k := 8) (a := 4) _ 1 (length_leBytes ..)).trans ?_
    refine (leAt_skip (k := 4) (a := 0) _ 1 (length_leBytes ..)).trans ?_
    exact (leAt_head (length_leBytes ..)).trans (leNat_leBytes 1 _)

/-- The request under assembly that a key names, or a new one. -/
def State.assembled (s : State) (slot key assoc : Nat) : FrpReq := (s.frpReq slot key).getD { key := key, assoc := assoc }

theorem State.Heard.assembled {a : Assoc} (h : s.Heard t d a) (key : Nat) :
    t.assembled d.slot key d.assoc = s.assembled d.slot key d.assoc := by
  unfold State.assembled State.frpReq
  rw [h.rest]

theorem State.Heard.rd {a : Assoc} (h : s.Heard t d a) (key : Nat) : t.rd key = s.rd key :=
  congrArg (fun m => mapGet dictDefault m key) (congrArg State.dict h.frame :)

/-! ## Timers (R294, R295) -/

/-- Something is sent on the port that serves an association, which stands as `b` then. -/
theorem State.assocSet_frpWire {a : Assoc} {f : Assoc → Assoc} (hf : ∀ a, a.assoc = n → (f a).assoc = n)
    (h : s.assoc slot n = some a) (type seq : Nat) (body : List Byte) :
    ∃ bs, let t := (s.frpWire slot a type seq body).modAssoc slot n f
      t = { s with slots := t.slots, tx := t.tx } ∧ t.tx = (chanEth a.port, bs) :: s.tx ∧ t.assoc slot n = some (f a) ∧
      (∀ m, m ≠ n → t.assoc slot m = s.assoc slot m) ∧ ∀ j, j ≠ slot → t.slot j = s.slot j := by
  have hset := State.assocSet_modAssoc (s := s.frpWire slot a type seq body) (slot := slot) hf h
  exact ⟨_, rfl, rfl, hset.own, hset.assocs, hset.slots⟩

theorem State.frpFail_spec (s : State) (slot n : Nat) :
    s.frpFail slot n = { s with slots := (s.frpFail slot n).slots } ∧
    (∀ a, s.assoc slot n = some a → (s.frpFail slot n).assoc slot n = some { a with failed := true, out := [] }) ∧
    (∀ m, m ≠ n → (s.frpFail slot n).assoc slot m = s.assoc slot m) ∧
    ∀ j, j ≠ slot → (s.frpFail slot n).slot j = s.slot j := by
  obtain ⟨hown, hothers, -⟩ := State.modAssoc_spec (s := s) (slot := slot) (n := n)
    (f := fun a => { a with failed := true, out := [] }) fun _ h => h
  exact ⟨rfl, fun a ha => hown.trans (by rw [ha]; rfl), hothers, fun j hj => State.slot_setSlot_ne _ _ _ _ hj⟩

/-- Settles O43. -/
theorem frpDatagramsAndTimers : Obligations.FrpDatagramsAndTimers := by
  intro s d slot n seq
  refine ⟨fun hbad a ha => ?bad, fun hgood => ?good, ?timers, ?incomplete⟩
  case bad =>
    refine ⟨s.bump K.frpBad 64 1, ?_, ⟨rfl, fun _ hk => State.rd_wr_ne _ _ _ _ fun e => hk (List.mem_singleton.mpr e)⟩,
      State.rd_wr ..⟩
    simp only [List.mem_cons, List.not_mem_nil, or_false] at ha
    rcases ha with rfl | rfl | rfl | rfl
    · exact congrArg Host.Outcome.next (State.frpReceive_bad hbad _)
    · exact congrArg Host.Outcome.next (State.frpReceive_bad hbad _)
    · exact congrArg Host.Outcome.next (if_neg (ne_true_of_eq_false hbad))
    · exact congrArg Host.Outcome.next (State.frpReceive_bad hbad _)
  case good =>
    intro old heard Hears isNew
    have hears : ∀ {t : State} {a : Assoc}, s.Heard t d a → Hears t a := fun h =>
      ⟨h.frame, h.own, h.assocs, h.slots, by rw [h.rest], h.unnoted, h.noted⟩
    obtain ⟨t, ht, hreceive⟩ := State.frpReceive_good hgood
    have hstay : ∀ act, ¬isNew → s.frpReceive d act = t := fun act h =>
      (hreceive act).trans (if_neg fun hf => h ((Assoc.receive_fresh ..).mp hf))
    have hact : ∀ act : State → State, act t = t → s.frpReceive d act = t := fun act h => by
      rw [hreceive, h, ite_self]
    have hnew : ∀ act, isNew → s.frpReceive d act = act t := fun act h =>
      (hreceive act).trans (if_pos ((Assoc.receive_fresh ..).mpr h))
    refine ⟨⟨_, congrArg Host.Outcome.next (if_pos hgood), hears (s.heard_frpAcks d)⟩, t, ((s.heard d).receive d.seq).1,
      congrArg Host.Outcome.next (hact _ rfl), hears ht, rfl, rfl, rfl, rfl, fun hseq hbeyond => ?_, fun hold _ hbeyond => ?_,
      fun hold => ⟨congrArg Host.Outcome.next (hstay _ hold), congrArg Host.Outcome.next (hstay _ hold)⟩,
      fun hnone => congrArg Host.Outcome.next (hact _ ?_), fun hpart => congrArg Host.Outcome.next (hact _ ?_), ?requests⟩
    · rw [hseq]
      exact Assoc.receive_next hbeyond
    · exact Assoc.receive_old hold hbeyond
    · rw [hnone]
    · dsimp only
      rw [if_neg (show ¬d.part = 0 by omega), if_neg (show ¬d.part = 1 by omega), ite_self]
    case requests =>
      intro busy Grows
      have hbusy : ∀ {α : Type} (x y : α), busy →
          (if t.rd (K.slotState d.slot) = 3 ∨ t.rd (K.slotState d.slot) = 4 then x else y) = x := fun x y h =>
        if_pos (by rwa [ht.rd])
      have hidle : ∀ {α : Type} (x y : α), ¬busy →
          (if t.rd (K.slotState d.slot) = 3 ∨ t.rd (K.slotState d.slot) = 4 then x else y) = y := fun x y h =>
        if_neg (by rwa [ht.rd])
      have hgrows : ∀ (a : Instr) (y : FrpReq), exec a s = .next (t.frpGrow d.slot y) → Grows a y := by
        intro a y h
        refine ⟨fun hy => ?_, fun op r hy => ?_⟩
        · rw [State.frpGrow_incomplete hy] at h
          exact ⟨_, h, rfl, fun j hj => State.slot_setSlot_ne _ _ _ _ hj, State.slot_setSlot ..⟩
        · rw [State.frpGrow_complete hy] at h
          exact ⟨_, h, rfl, fun j hj => State.slot_setSlot_ne _ _ _ _ hj, State.slot_setSlot ..⟩
      refine ⟨fun e hn he => ⟨fun hb => ?refused, fun hb => ?submitted⟩, fun hn hb => ?dropped, fun hn hb => ?data⟩
      case refused =>
        obtain ⟨c, hkey, hst, hrefuse⟩ := t.frpRefuse_spec d.slot d.assoc e.key
        have hexec : exec (.frpSubmit d) s =
            .next ((t.frpSend d.slot d.assoc 0x11 c).bump (K.requestsAborted d.slot) 64 1) := by
          refine congrArg Host.Outcome.next ((hnew _ hn).trans ?_)
          rw [he]
          exact (hbusy _ _ hb).trans hrefuse
        refine ⟨_, c, hexec, hkey, hst, rfl, rfl, ?_⟩
        refine (State.rd_wr ..).trans ?_
        rw [t.frpSend_frame]
        exact congrArg (fun n => (n + 1) % 2 ^ 64) (ht.rd _)
      case submitted =>
        intro y
        have hy : t.assembled d.slot e.key d.assoc = y := ht.assembled e.key
        refine hgrows _ _ (congrArg Host.Outcome.next ((hnew _ hn).trans ?_))
        rw [he, ← hy]
        exact hidle _ _ hb
      case dropped => exact congrArg Host.Outcome.next ((hnew _ hn).trans (hbusy _ _ hb))
      case data =>
        intro y
        have hy : t.assembled d.slot d.key d.assoc = y := ht.assembled d.key
        refine ⟨fun hpart => ?_, fun hpart => ?_⟩
        · refine hgrows _ _ (congrArg Host.Outcome.next ((hnew _ hn).trans ((hidle _ _ hb).trans ((if_pos hpart).trans ?_))))
          rw [← hy]
          rfl
        · refine hgrows _ _ (congrArg Host.Outcome.next ((hnew _ hn).trans ((hidle _ _ hb).trans ((if_neg ?_).trans ((if_pos hpart).trans ?_)))))
          · omega
          · rw [← hy]
            rfl
  case timers =>
    intro Sends GivesUp
    have hgives : ∀ act : Instr, exec act s = .next (s.frpFail slot.val n) → GivesUp act := fun act h =>
      ⟨_, h, s.frpFail_spec slot.val n⟩
    refine ⟨fun hnone => ⟨?_, ?_⟩, fun a ha => ⟨fun hdue => ?_, fun hdue => ?_, fun hno => ?_, fun o ho => ?_⟩, hgives _ rfl⟩
    · rw [exec_frpAckDue]
      unfold execFrpAckDue
      rw [hnone]
    · rw [exec_frpRetransmit]
      unfold execFrpRetransmit
      dsimp only
      rw [hnone]
    · rw [exec_frpAckDue]
      unfold execFrpAckDue
      rw [ha]
      exact if_neg (ne_true_of_eq_false hdue)
    · obtain ⟨bs, hspec⟩ := State.assocSet_frpWire (f := fun a => { a with ackDue := false }) (fun _ h => h) ha 0x20 0 []
      refine ⟨_, bs, ?_, hspec⟩
      rw [exec_frpAckDue]
      unfold execFrpAckDue
      rw [ha]
      exact if_pos hdue
    · rw [exec_frpRetransmit]
      unfold execFrpRetransmit
      dsimp only
      rw [ha]
      dsimp only
      rw [show (a.out.find? fun o => o.seq == seq) = none by simpa [List.find?_eq_none] using hno]
    · intro limit
      have hexec : exec (.frpRetransmit slot ⟨n, seq⟩) s =
          if limit ≤ o.tries then .next (s.frpFail slot.val n)
          else .next ((s.frpWire slot.val a o.type o.seq o.body).modAssoc slot.val n fun a =>
            { a with ackDue := false, out := a.out.map fun y => if y.seq = seq then { y with tries := y.tries + 1 } else y }) := by
        rw [exec_frpRetransmit]
        unfold execFrpRetransmit
        dsimp only
        rw [ha]
        dsimp only
        rw [ho]
      refine ⟨fun hout => hgives _ (hexec.trans (if_pos hout)), fun hin => ?_⟩
      obtain ⟨bs, hspec⟩ := State.assocSet_frpWire (f := fun a => { a with
        ackDue := false, out := a.out.map fun y => if y.seq = seq then { y with tries := y.tries + 1 } else y })
        (fun _ h => h) ha o.type o.seq o.body
      exact ⟨_, bs, hexec.trans (if_neg (Nat.not_le.mpr hin)), hspec⟩
  case incomplete =>
    exact ⟨_, exec_frpRequestIncomplete .., rfl, State.slot_setSlot .., fun j hj => State.slot_setSlot_ne _ _ _ _ hj⟩

end Sys2Proof.Machine
end

section
/-! The commands of an instance: O44 fails where an instance holds a panel outside the grid. -/

namespace Sys2Proof.Machine

/-- Instance 0 is Unfitted and holds a panel number past the 12 of the grid: entry `reg_state` of that panel's region
11 is then entry `load_src` of the instance. Its window has room for the 64 bytes from address 2 on, and not from the
address 3 that `load_src` holds. -/
def offGridLoad : State :=
  { ((State.reset.wr (K.instState 0) 1).wr (K.loadSrc 0) 3).wr (K.pcieRate 0) 1 with
    insts := [(0, { panels := [317] })]
    winTab := [(0, 0x1000000), (1, 66), (2, 0x8400)]
    fns := [(0, { bme := true })] }

/-- Entry `load_status` of instance 0 after a step that goes on. -/
def loadStatusAfter : Out → Nat
  | .next t => t.rd (K.loadStatus 0)
  | _ => 0

theorem offGridLoad_aliased : K.regState (25 * 317 + 11) = K.loadSrc 0 := by decide

theorem offGridLoad_hyps : offGridLoad.rd K.testEnable ≠ 1 ∧ offGridLoad.rd (K.instState 0) = 1 ∧ offGridLoad.instBusy 0 = false ∧
    offGridLoad.fromCascade 0 = false ∧
    offGridLoad.devRef (offGridLoad.rd (K.loadSrc 0)) 64 (fun w => w.role == 1 && w.owner == 0) = none := by
  decide +kernel

/-- LOAD takes the lining out of retention before it fetches the manifest: `load_src` reads 2 by then, and the fetch
succeeds. -/
theorem offGridLoad_goesOn : loadStatusAfter (exec (.load 0) offGridLoad) = 2 := by decide +kernel

/-- Refutes O44: with a panel outside the grid, LOAD overwrites `load_src` and fetches the manifest from another
address than the one that the statement looks at, so that the load goes on where it states code 0x28. -/
theorem not_instanceCommands : ¬Obligations.InstanceCommands := by
  unfold Obligations.InstanceCommands
  intro h
  obtain ⟨-, -, -, -, -, -, -, -, -, -, -, hload, -⟩ := h offGridLoad 0
  obtain ⟨htest, hst, hbusy, hcasc, hnone⟩ := offGridLoad_hyps
  obtain ⟨t, hexec, hstatus, -⟩ := (hload htest).2.2.2 hst hbusy hcasc hnone
  have hon := offGridLoad_goesOn
  rw [hexec] at hon
  exact absurd (hon.symm.trans hstatus) (by decide)

end Sys2Proof.Machine
end

section
/-! The commands of a tenant slot (R350-R359, R368, R369): O45. -/

namespace Sys2Proof.Machine

variable {s t u : State} {n : Nat}

/-! ## Entries written -/

/-- Entries are written with these values, and nothing else changes. -/
def State.Holds (s t : State) (vs : List (Nat × Nat)) : Prop :=
  s.OnlyEntries t (vs.map (·.1)) ∧ ∀ v ∈ vs, t.rd v.1 = v.2

theorem State.holds_wr (s : State) (k v : Nat) : s.Holds (s.wr k v) [(k, v)] := by
  refine ⟨⟨rfl, fun j hj => State.rd_wr_ne _ _ _ _ fun h => hj (List.mem_singleton.mpr h)⟩, fun p hp => ?_⟩
  rw [List.mem_singleton.mp hp]
  exact State.rd_wr ..

theorem State.holds_wr_wr (s : State) {k l : Nat} (v w : Nat) (h : k ≠ l) :
    s.Holds ((s.wr k v).wr l w) [(k, v), (l, w)] := by
  refine ⟨⟨rfl, fun j hj => ?_⟩, fun p hp => ?_⟩
  · simp only [List.map_cons, List.map_nil, List.mem_cons, List.not_mem_nil, or_false, not_or] at hj
    exact (State.rd_wr_ne _ _ _ _ hj.2).trans (State.rd_wr_ne _ _ _ _ hj.1)
  · simp only [List.mem_cons, List.not_mem_nil, or_false] at hp
    rcases hp with rfl | rfl
    · exact (State.rd_wr_ne _ _ _ _ h).trans (State.rd_wr ..)
    · exact State.rd_wr ..

/-- The same for two entries in the other order. -/
theorem State.Holds.swap {p q : Nat × Nat} (h : s.Holds t [p, q]) : s.Holds t [q, p] := by
  exact ⟨⟨h.1.1, fun j hj => h.1.2 j fun hm => hj ((List.Perm.swap q.1 p.1 []).mem_iff.mp hm)⟩,
    fun v hv => h.2 v ((List.Perm.swap q p []).mem_iff.mpr hv)⟩

/-- Entries that start at zero again. -/
theorem State.rd_zeroed : ∀ (l : List Nat) (s : State) (key : Nat),
    (s.each l fun s k => s.wr k 0).rd key = if key ∈ l then 0 else s.rd key
  | [], s, key => (if_neg List.not_mem_nil).symm
  | k :: l, s, key => by
    refine (State.rd_zeroed l (s.wr k 0) key).trans ?_
    rw [State.rd_wr_if]
    by_cases h : key ∈ l
    · rw [if_pos h, if_pos (List.mem_cons_of_mem _ h)]
    · rw [if_neg h]
      by_cases hk : key = k
      · rw [if_pos hk, if_pos (by rw [hk]; exact List.mem_cons_self)]
      · rw [if_neg hk, if_neg (by simp [hk, h])]

theorem State.holds_zeroed (l : List Nat) (s : State) :
    s.Holds (s.each l fun s k => s.wr k 0) (l.map fun k => (k, 0)) := by
  have hmap : (l.map fun k => (k, 0)).map (·.1) = l := by simp [Function.comp_def]
  refine ⟨⟨?_, fun j hj => ?_⟩, fun v hv => ?_⟩
  · exact State.each_rel (R := fun a b : State => b = { a with dict := b.dict }) (fun _ => rfl)
      (fun h k => by rw [k, h]) (fun _ _ => rfl) l s
  · rw [hmap] at hj
    rw [State.rd_zeroed, if_neg hj]
  · obtain ⟨k, hk, rfl⟩ := List.mem_map.mp hv
    rw [State.rd_zeroed, if_pos hk]

/-! ## A change that waits for the tack of an instance -/

theorem State.change_spec (s : State) (i : Nat) (c : Change) : s.change i c = { s with insts := (s.change i c).insts } ∧
    (s.change i c).inst i = { s.inst i with changes := (s.inst i).changes ++ [c] } ∧
    ∀ j, j ≠ i → (s.change i c).inst j = s.inst j :=
  ⟨rfl, State.inst_setInst .., fun _ hj => State.inst_setInst_ne _ _ _ _ hj⟩

/-! ## Step 6 of a teardown (R353, R354, R357, R359) -/

/-- The slot as the teardown leaves it; `closing` when it ends Disabled. -/
def Slot.settled (x : Slot) (closing : Bool) : Slot :=
  { x with
    sq := { x.sq with enable := false, head := 0, tail := 0 }, cq := { x.cq with enable := false, head := 0, tail := 0 }
    assocs := [], frpReqs := [], teardown := 0, flr := false, vt := 0, heldBack := []
    frpKey := if closing then x.heldKey else x.frpKey, heldKey := none, swap := if closing then [] else x.swap }

/-- The slot and its entries after a teardown, before a pending ENABLE is looked at. -/
structure State.Settled (s t : State) (n : Nat) (closing : Bool) : Prop where
  frame : t = { s with slots := t.slots, dict := t.dict, log := t.log, fns := t.fns, sent := t.sent, logMsgAt := t.logMsgAt,
                       logMsgHeld := t.logMsgHeld }
  own : t.slot n = (s.slot n).settled closing
  others : ∀ m, m ≠ n → t.slot m = s.slot m
  state : t.rd (K.slotState n) = if closing then 0 else 1
  epoch : t.rd (K.epoch n) = (s.rd (K.epoch n) + 1) % 2 ^ 32
  swap : closing = true → t.rd (K.swapBase n) = 0 ∧ t.rd (K.swapSlots n) = 0
  logged : t.Logged 0x0302 0
  rd : ∀ k, k ∉ [K.slotState n, K.epoch n, K.swapBase n, K.swapSlots n] → k ∉ logKeys → t.rd k = s.rd k

theorem State.settleSlot_eq (s : State) (hn : n < 512) : ∃ t, s.Settled t n (s.rd (K.slotState n) == 4) ∧
    s.settleSlot n = if s.rd (K.slotState n) = 4 ∧ t.rd (K.enablePending n) = 1 then t.tryEnable n else t := by
  obtain ⟨closing, hclosing⟩ : ∃ closing, closing = (s.rd (K.slotState n) == 4) := ⟨_, rfl⟩
  obtain ⟨a, ha⟩ : ∃ a, a = s.setSlot n ((s.slot n).settled closing) := ⟨_, rfl⟩
  obtain ⟨b, hb⟩ : ∃ b, b = if closing then (a.wr (K.swapBase n) 0).wr (K.swapSlots n) 0 else a := ⟨_, rfl⟩
  obtain ⟨c, hc⟩ : ∃ c, c = (b.bump (K.epoch n) 32 1).wr (K.slotState n) (if closing then 0 else 1) := ⟨_, rfl⟩
  obtain ⟨d, hd⟩ : ∃ d, d = c.logMg (c.rd (K.slotInstance n)) 0x0302 0 0 n (c.rd (K.epoch n)) (b2n closing) := ⟨_, rfl⟩
  obtain ⟨e, he⟩ : ∃ e, e = if (s.slot n).flr then d else d.message (vfOf n) 2 := ⟨_, rfl⟩
  have hsettle : s.settleSlot n = if closing = true ∧ e.rd (K.enablePending n) = 1 then e.tryEnable n else e := by
    rw [he, hd, hc, hb, ha, hclosing]
    rfl
  have hbd : b = { a with dict := b.dict } := by
    rw [hb]
    split <;> rfl
  have hbrd : (∀ k, k ≠ K.swapBase n → k ≠ K.swapSlots n → b.rd k = s.rd k) ∧
      (closing = true → b.rd (K.swapBase n) = 0 ∧ b.rd (K.swapSlots n) = 0) := by
    rw [hb]
    split
    · refine ⟨fun k h h' => ?_, fun _ => ⟨?_, State.rd_wr ..⟩⟩
      · rw [State.rd_wr_ne _ _ _ _ h', State.rd_wr_ne _ _ _ _ h, ha]
        rfl
      · exact (State.rd_wr_ne _ _ _ _ (by unfold K.swapBase K.swapSlots; omega)).trans (State.rd_wr ..)
    · next h => exact ⟨fun k _ _ => by rw [ha]; rfl, fun hcl => absurd hcl h⟩
  have hcd : c = { b with dict := c.dict } := by rw [hc]; rfl
  have hlog : c.LogOnly d := by rw [hd]; exact State.logMg_only ..
  have hmsg : d.MsgOnly e := by
    rw [he]
    split
    · exact .refl d
    · exact d.message_only _ _
  have hrd : ∀ k, k ∉ logKeys → e.rd k = c.rd k := fun k hk => by
    have hdict : e.rd k = d.rd k := congrArg (fun m => mapGet dictDefault m k) hmsg.dict
    rw [hdict, hd]
    exact State.logMg_rd _ _ _ _ _ _ _ _ hk
  have hslot : ∀ m, e.slot m = a.slot m := fun m => by
    have hslots : e.slots = a.slots := by rw [hmsg.slots, hlog.slots, hcd, hbd]
    exact congrArg (fun l => mapGet (fun _ => ({} : Slot)) l m) hslots
  have hcrd : ∀ k, k ≠ K.slotState n → k ≠ K.epoch n → c.rd k = b.rd k := fun k h h' => by
    rw [hc, State.rd_wr_ne _ _ _ _ h]
    exact State.rd_wr_ne _ _ _ _ h'
  have hstate : K.slotState n ∉ logKeys := not_logKey (by unfold K.slotState; omega)
  have hepoch : K.epoch n ∉ logKeys := not_logKey (by unfold K.epoch; omega)
  have hbase : K.swapBase n ∉ logKeys := not_logKey (by unfold K.swapBase; omega)
  have hslots : K.swapSlots n ∉ logKeys := not_logKey (by unfold K.swapSlots; omega)
  rw [hsettle, hclosing]
  simp only [beq_iff_eq]
  rw [← hclosing]
  refine ⟨e, ⟨?frame, ?own, fun m hm => ?others, ?state, ?epoch, fun hcl => ?swap, ?logged, fun k hk hlk => ?rd⟩, rfl⟩
  case frame => rw [hmsg.eq, hlog.eq, hcd, hbd, ha]; rfl
  case own => rw [hslot, ha, State.slot_setSlot]
  case others => rw [hslot, ha, State.slot_setSlot_ne _ _ _ _ hm]
  case state => rw [hrd _ hstate, hc, State.rd_wr]
  case epoch =>
    rw [hrd _ hepoch, hc, State.rd_wr_ne _ _ _ _ (by unfold K.epoch K.slotState; omega)]
    refine (State.rd_wr ..).trans ?_
    rw [hbrd.1 _ (by unfold K.epoch K.swapBase; omega) (by unfold K.epoch K.swapSlots; omega)]
  case swap =>
    obtain ⟨h1, h2⟩ := hbrd.2 hcl
    rw [hrd _ hbase, hrd _ hslots, hcrd _ (by unfold K.swapBase K.slotState; omega) (by unfold K.swapBase K.epoch; omega),
      hcrd _ (by unfold K.swapSlots K.slotState; omega) (by unfold K.swapSlots K.epoch; omega)]
    exact ⟨h1, h2⟩
  case logged =>
    obtain ⟨y, hsource, -, hcls, hrecord, -, hy⟩ :=
      c.log_logMg (c.rd (K.slotInstance n)) 0x0302 0 0 n (c.rd (K.epoch n)) (b2n closing)
    refine ⟨y, ?_, hsource, hcls, hrecord⟩
    rw [hmsg.log, hd, hy]
    rfl
  case rd =>
    simp only [List.mem_cons, List.not_mem_nil, or_false, not_or] at hk
    obtain ⟨h1, h2, h3, h4⟩ := hk
    rw [hrd k hlk, hcrd k h1 h2, hbrd.1 k h3 h4]

/-- What a pending ENABLE comes to: its change waits for the tack, or it is refused. -/
theorem State.tryEnable_spec (s : State) (n : Nat) :
    s.tryEnable n = { s with dict := (s.tryEnable n).dict, insts := (s.tryEnable n).insts } ∧
    (∀ k, k ∉ [K.slotCmdResult n, K.enablePending n] → (s.tryEnable n).rd k = s.rd k) ∧
    ((s.tryEnable n).rd (K.slotCmdResult n) = 0 ∧ ((s.tryEnable n).inst (s.rd (K.slotInstance n))).changes =
        (s.inst (s.rd (K.slotInstance n))).changes ++ [.enable n] ∨
      (s.tryEnable n).rd (K.slotCmdResult n) = 2 ∧ (s.tryEnable n).rd (K.enablePending n) = 0 ∧
        (s.tryEnable n).insts = s.insts) := by
  unfold State.tryEnable
  split
  · refine ⟨rfl, fun k hk => State.rd_wr_ne _ _ _ _ fun h => hk (by rw [h]; exact List.mem_cons_self), .inl ⟨State.rd_wr .., ?_⟩⟩
    exact congrArg Inst.changes (s.change_spec (s.rd (K.slotInstance n)) (.enable n)).2.1
  · have hholds := s.holds_wr_wr (k := K.slotCmdResult n) (l := K.enablePending n) 2 0 (by unfold K.slotCmdResult K.enablePending; omega)
    exact ⟨rfl, hholds.1.2, .inr ⟨hholds.2 _ List.mem_cons_self, hholds.2 _ (List.mem_cons_of_mem _ List.mem_cons_self), rfl⟩⟩

/-- The teardown of an Enabled or Draining slot begins (R351, R357). -/
theorem State.resetSlot_running (s : State) {n : Nat} (h : s.rd (K.slotState n) = 1 ∨ s.rd (K.slotState n) = 2) (flr : Bool) :
    s.resetSlot n flr = ((s.wr (K.slotState n) (if s.rd (K.slotState n) = 1 then 3 else 4)).setSlot n
      { s.slot n with teardown := 1, flr := flr }).wr (K.slotCmdResult n) 0 := by
  unfold State.resetSlot
  dsimp only
  rcases h with h | h
  · rw [if_pos h, if_pos h]
    rfl
  · have h1 : ¬s.rd (K.slotState n) = 1 := by omega
    rw [if_neg h1, if_neg h1, if_pos h]
    rfl

/-- Settles O45. -/
theorem slotCommandsFollowTheLifeCycle : Obligations.SlotCommandsFollowTheLifeCycle := by
  intro s n key a st i x res pend Waits Sets
  have hsets : ∀ {c : Instr} {t : State} {vs : List (Nat × Nat)}, exec c s = .next t → s.Holds t vs → Sets c vs :=
    fun h k => ⟨_, h, k.1, k.2⟩
  have hwaits : ∀ {c : Instr} {ch : Change}, exec c s = .next (s.change i ch) → Waits c ch := fun h =>
    ⟨_, h, s.change_spec i _⟩
  have hres : res ≠ pend := by unfold res pend K.slotCmdResult K.enablePending; omega
  refine ⟨fun h => ?underTest, fun htest => ⟨fun h hok => ?enabled, fun h hok => ?notOk, fun h => ?pending, fun h0 h2 h4 => ?noEnable⟩,
    fun h => ?drain, fun h => ?closing, fun h => ?dropped, fun h1 h2 h3 h4 => ?noDisable, fun h => ?reset, fun h1 h2 => ?noReset,
    ⟨fun hno => ?unsettled, fun hyes => ?settled⟩, fun h => ?nothingLost, fun h => ?lost, fun h => ?keyWritten, fun h0 h2 h4 => ?keyRefused,
    fun h => ?badBinding, fun h => ⟨fun hst hready => ?bindingWaits, fun hst => ?binding⟩, fun h => ?goodBinding,
    fun hi hst => ?clearWaits, fun h => ?cleared⟩
  case underTest => rw [exec_enable]; exact if_pos h
  case enabled =>
    obtain ⟨hframe, hown, hothers⟩ := s.change_spec i (.enable n.val)
    refine ⟨(s.change i (.enable n.val)).wr res 0, ?_, rfl, State.rd_wr .., fun k hk => State.rd_wr_ne _ _ _ _ hk, hown, hothers⟩
    rw [exec_enable]
    exact (if_neg htest).trans ((if_pos h).trans (congrArg Host.Outcome.next (if_pos hok)))
  case notOk =>
    refine hsets ?_ (s.holds_wr_wr 2 0 hres)
    rw [exec_enable]
    exact (if_neg htest).trans ((if_pos h).trans (congrArg Host.Outcome.next (if_neg (ne_true_of_eq_false hok))))
  case pending =>
    refine hsets ?_ (s.holds_wr_wr 1 0 hres.symm).swap
    rw [exec_enable]
    exact (if_neg htest).trans ((if_neg (by omega)).trans (if_pos h))
  case noEnable =>
    refine hsets ?_ (s.holds_wr res 1)
    rw [exec_enable]
    exact (if_neg htest).trans ((if_neg h0).trans (if_neg (by omega)))
  case drain =>
    have hkeys : K.slotState n.val ≠ res := by unfold res K.slotState K.slotCmdResult; omega
    obtain ⟨hentries, hvals⟩ := s.holds_wr_wr 2 0 hkeys
    obtain ⟨t, ht⟩ : ∃ t, t = ((s.wr (K.slotState n.val) 2).wr res 0).setSlot n.val { x with drainStart := s.time } := ⟨_, rfl⟩
    have hi : t.rd (K.slotInstance n.val) = i := by
      rw [ht]
      exact hentries.2 _ (by unfold res K.slotState K.slotCmdResult K.slotInstance; simp)
    have hexec : exec (.disable n) s = .next (t.change i (.withdraw n.val)) := by
      rw [exec_disable, ← hi, ht]
      exact if_pos h
    obtain ⟨hframe, hown, hothers⟩ := t.change_spec i (.withdraw n.val)
    refine ⟨_, hexec, ?_, ?_, ?_, fun k hk => ?_, ?_, fun m hm => ?_, ?_, fun j hj => (hothers j hj).trans ?_⟩
    · rw [hframe, ht]; rfl
    · rw [hframe, ht]; exact hvals _ List.mem_cons_self
    · rw [hframe, ht]; exact hvals _ (List.mem_cons_of_mem _ List.mem_cons_self)
    · rw [hframe, ht]; exact hentries.2 k hk
    · rw [hframe, ht]; exact State.slot_setSlot ..
    · rw [hframe, ht]; exact State.slot_setSlot_ne _ _ _ _ hm
    · rw [hown, ht]; rfl
    · rw [ht]; rfl
  case closing =>
    refine hsets ?_ (s.holds_wr_wr 4 0 (by unfold res K.slotState K.slotCmdResult; omega))
    rw [exec_disable]
    exact (if_neg (by omega)).trans (if_pos h)
  case dropped =>
    refine hsets ?_ (s.holds_wr_wr 0 1 hres.symm).swap
    rw [exec_disable]
    exact (if_neg (by omega)).trans ((if_neg (by omega)).trans (if_pos h))
  case noDisable =>
    refine hsets ?_ (s.holds_wr res 1)
    rw [exec_disable]
    exact (if_neg h1).trans ((if_neg h3).trans (if_neg (by omega)))
  case reset =>
    have hkeys : K.slotState n.val ≠ res := by unfold res K.slotState K.slotCmdResult; omega
    obtain ⟨hentries, hvals⟩ := s.holds_wr_wr (if st = 1 then 3 else 4) 0 hkeys
    have hexec : exec (.slotReset n) s = .next (((s.wr (K.slotState n.val) (if st = 1 then 3 else 4)).setSlot n.val
        { x with teardown := 1, flr := false }).wr res 0) := by
      rw [exec_slotReset]
      exact congrArg Host.Outcome.next (s.resetSlot_running h false)
    refine ⟨_, hexec, rfl, hvals _ List.mem_cons_self, hvals _ (List.mem_cons_of_mem _ List.mem_cons_self), hentries.2,
      State.slot_setSlot .., fun m hm => State.slot_setSlot_ne _ _ _ _ hm⟩
  case noReset =>
    refine hsets ?_ (s.holds_wr res 1)
    rw [exec_slotReset]
    exact congrArg Host.Outcome.next ((if_neg h1).trans (if_neg h2))
  case unsettled =>
    rw [exec_teardownSettle]
    exact if_neg fun h => hno (by simpa using h)
  case settled =>
    obtain ⟨t, ht, hsettle⟩ := s.settleSlot_eq n.isLt
    have hexec : exec (.teardownSettle n) s = .next (s.settleSlot n.val) := by
      rw [exec_teardownSettle]
      exact if_pos (by simpa using hyes)
    have hcl : ∀ {α : Type} (p q : α), (if (s.rd (K.slotState n.val) == 4) = true then p else q) = if st = 4 then p else q := by
      intro α p q
      simp only [beq_iff_eq]
      rfl
    have hown := ht.own
    unfold Slot.settled at hown
    simp only [hcl] at hown
    have hstate := ht.state.trans (hcl 0 1)
    have hpend : t.rd pend = s.rd pend := ht.rd _ (by unfold pend K.enablePending K.slotState K.epoch K.swapBase K.swapSlots; simp) (not_logKey (by unfold pend K.enablePending; omega))
    have hresult : t.rd res = s.rd res := ht.rd _ (by unfold res K.slotCmdResult K.slotState K.epoch K.swapBase K.swapSlots; simp) (not_logKey (by unfold res K.slotCmdResult; omega))
    have hbound : t.rd (K.slotInstance n.val) = i := ht.rd _ (by unfold K.slotInstance K.slotState K.epoch K.swapBase K.swapSlots; simp) (not_logKey (by unfold K.slotInstance; omega))
    have hinsts : t.insts = s.insts := (congrArg State.insts ht.frame :)
    rw [hsettle] at hexec
    by_cases hboth : st = 4 ∧ t.rd pend = 1
    · obtain ⟨hframe, hrd, hend⟩ := t.tryEnable_spec n.val
      have hexec := hexec.trans (congrArg Host.Outcome.next (if_pos hboth))
      have hslot : ∀ m, (t.tryEnable n.val).slot m = t.slot m := fun m =>
        congrArg (fun l => mapGet (fun _ => ({} : Slot)) l m) (congrArg State.slots hframe :)
      have hkept : ∀ k, k ≠ res → k ≠ pend → (t.tryEnable n.val).rd k = t.rd k := fun k h h' =>
        hrd k (by simp only [List.mem_cons, List.not_mem_nil, or_false, not_or]; exact ⟨h, h'⟩)
      rw [hbound, hinsts, show t.inst i = s.inst i from congrArg (fun l => mapGet (fun _ => ({} : Inst)) l i) hinsts] at hend
      refine ⟨_, hexec, ?_, ?_, (hslot _).trans hown, fun h4 => ⟨?_, ?_⟩, ?_, fun h => ?_, fun _ _ => hend,
        fun m hm => (hslot m).trans (ht.others m hm), ?_, ?_, ?_⟩
      · exact (hkept _ (by unfold res K.slotState K.slotCmdResult; omega) (by unfold pend K.slotState K.enablePending; omega)).trans hstate
      · exact (hkept _ (by unfold res K.epoch K.slotCmdResult; omega) (by unfold pend K.epoch K.enablePending; omega)).trans ht.epoch
      · exact (hkept _ (by unfold res K.swapBase K.slotCmdResult; omega) (by unfold pend K.swapBase K.enablePending; omega)).trans
          (ht.swap (beq_iff_eq.mpr h4)).1
      · exact (hkept _ (by unfold res K.swapSlots K.slotCmdResult; omega) (by unfold pend K.swapSlots K.enablePending; omega)).trans
          (ht.swap (beq_iff_eq.mpr h4)).2
      · obtain ⟨e, he, hrest⟩ := ht.logged
        exact ⟨e, (congrArg (fun u : State => u.log.head?) hframe).trans he, hrest⟩
      · rcases h with h | h
        · exact absurd hboth.1 h
        · exact absurd (hpend.symm.trans hboth.2) h
      all_goals rw [hframe, ht.frame]
    · have hexec := hexec.trans (congrArg Host.Outcome.next (if_neg hboth))
      refine ⟨t, hexec, hstate, ht.epoch, hown, fun h4 => ht.swap (beq_iff_eq.mpr h4), ht.logged, fun _ => ⟨hinsts, hresult, hpend⟩,
        fun h4 hp => absurd ⟨h4, hpend.trans hp⟩ hboth, ht.others, ?_, ?_, ?_⟩
      all_goals rw [ht.frame]
  case nothingLost => rw [exec_abortCompletionDiscard]; exact if_neg h
  case lost =>
    refine ⟨_, (exec_abortCompletionDiscard ..).trans (if_pos h), rfl, State.rd_wr .., fun k hk => State.rd_wr_ne _ _ _ _ hk,
      State.slot_setSlot .., fun m hm => State.slot_setSlot_ne _ _ _ _ hm⟩
  case keyWritten =>
    by_cases h0 : st = 0
    · rw [if_pos h0]
      refine ⟨s.setSlot n.val { x with frpKey := some key }, ?_, rfl, State.slot_setSlot .., fun m hm => State.slot_setSlot_ne _ _ _ _ hm⟩
      rw [exec_frpKeyWrite]
      exact (if_neg (by omega)).trans (if_pos h0)
    · rw [if_neg h0]
      refine ⟨s.setSlot n.val { x with heldKey := some key }, ?_, rfl, State.slot_setSlot .., fun m hm => State.slot_setSlot_ne _ _ _ _ hm⟩
      rw [exec_frpKeyWrite]
      exact if_pos (by omega)
  case keyRefused =>
    rw [exec_frpKeyWrite]
    exact (if_neg (by omega)).trans (if_neg h0)
  case badBinding => rw [exec_altBindingWrite]; exact if_pos h
  case bindingWaits =>
    refine hwaits ?_
    rw [exec_altBindingWrite]
    exact (if_neg (not_not.mpr h)).trans (if_pos ⟨by simp [State.slotBound, hst, st], hready⟩)
  case binding =>
    refine hsets ?_ (s.holds_wr ..)
    rw [exec_altBindingWrite]
    refine (if_neg (not_not.mpr h)).trans (if_neg fun hb => ?_)
    rcases hst with h0 | h0
    · have hbound := hb.1
      unfold State.slotBound at hbound
      rw [show s.rd (K.slotState n.val) = 0 from h0] at hbound
      cases hbound
    · rw [show s.ready (s.rd (K.slotInstance n.val)) = false from h0] at hb
      cases hb.2
  case goodBinding =>
    unfold State.slotRule
    dsimp only
    rw [if_neg (by decide), if_neg (by decide), if_pos rfl, if_pos h]
  case clearWaits =>
    refine hwaits ?_
    rw [exec_acctClear]
    exact congrArg Host.Outcome.next (if_pos (by simp [hi, hst, i]))
  case cleared =>
    have hmap : ((List.range 8).map fun j => K.requestsAccepted n.val + j).map (fun k => (k, 0)) =
        (List.range 8).map fun j => (K.requestsAccepted n.val + j, 0) := by
      rw [List.map_map]
      rfl
    rw [← hmap]
    refine hsets ?_ (s.holds_zeroed _)
    rw [exec_acctClear]
    exact congrArg Host.Outcome.next (if_neg (by simp only [Bool.and_eq_true, decide_eq_true_eq, bne_iff_ne]; rintro ⟨hi, hst⟩; rcases h with h | h; exacts [Nat.not_lt.mpr h hi, hst h]))

end Sys2Proof.Machine
end

section
/-! Links: O47 fails where an instance holds a panel outside the grid. -/

namespace Sys2Proof.Machine

/-- Instance 0 loads its model through window 0, of PCIe port 0, and holds a panel number far past the 12 of the grid: entry
`vg_displaced` of that panel is then entry `pcie_max_rate` of port 0, whose link is up. -/
def offGridLink : State :=
  { State.reset.wr (K.pcieRate 0) 5 with
    insts := [(0, { panels := [0x6A60], load := some {} })]
    winTab := [(0, 0x1000000), (1, 4096), (2, 0x8400)] }

/-- Entry `pcie_rate` of port 0 after a step that goes on. -/
def pcieRateAfter : Out → Nat
  | .next t => t.rd (K.pcieRate 0)
  | _ => 0

theorem offGridLink_aliased : K.vgDisplaced 0x6A60 = K.pcieMaxRate 0 := by decide

theorem offGridLink_hyps : min 5 (offGridLink.rd (K.pcieMaxRate 0)) = 5 ∧ (offGridLink.port 0).perst = false ∧
    offGridLink.hbmErr = [] := by decide +kernel

/-- The load ends with the link, and its panel's entries are cleared: `pcie_max_rate` reads 0 when the link trains. -/
theorem offGridLink_down : pcieRateAfter (exec (.pcieRetrain 0 none 5 16) offGridLink) = 0 := by decide +kernel

/-- Refutes O47: with a panel outside the grid, the end of a load that fetches through the port clears `pcie_max_rate`,
and the port does not train at the lower of the two rates, 5, but not at all. -/
theorem not_linksFollowTheirTraining : ¬Obligations.LinksFollowTheirTraining := by
  unfold Obligations.LinksFollowTheirTraining
  intro h
  obtain ⟨-, ⟨t, hexec, -, htrained, -⟩, -⟩ := h offGridLink 0 none 5 16 0 false 0 0 0 ⟨0, 0, false, none, 0, false, 0, 0, 0, 0, 0, false, []⟩ 0
  obtain ⟨hrate, hperst, herr⟩ := offGridLink_hyps
  obtain ⟨hup, -⟩ := htrained fun w _ => by rw [herr]; rfl
  have hdown := offGridLink_down
  rw [hexec] at hdown
  have hfive : t.rd (K.pcieRate 0) = 5 := by
    refine hup.trans ?_
    rw [show ((0 : PortId).val) = 0 from rfl, hrate, hperst]
    exact if_pos ⟨by decide, by decide, rfl⟩
  exact absurd (hdown.symm.trans hfive) (by decide)

end Sys2Proof.Machine
end

section
/-! Answers to requests from outside: O48. -/

namespace Sys2Proof.Machine

/-! ## Ethernet -/

theorem State.ethUp_iff (s : State) (e : Nat) : s.ethUp e = true ↔ s.rd (K.ethLink e) = 1 := beq_iff_eq

theorem ethAnswers_iff {s : State} {e : Nat} {α : Type} [BEq α] [LawfulBEq α] (a b : α) :
    (s.ethUp e && a == b) = true ↔ s.rd (K.ethLink e) = 1 ∧ a = b := by
  rw [Bool.and_eq_true, s.ethUp_iff, beq_iff_eq]

theorem exec_arp_mine {s : State} {e : EthId} {ip : BitVec 32}
    (h : s.rd (K.ethLink e.val) = 1 ∧ s.ethV4 e.val = some ip.toNat) :
    exec (.arp e ip) s = .next (s.send (chanEth e.val) (s.ethMacBytes e.val ++ netBytes 4 ip.toNat)) :=
  congrArg Host.Outcome.next (if_pos ((ethAnswers_iff _ _).2 h))

theorem exec_arp_other {s : State} {e : EthId} {ip : BitVec 32}
    (h : ¬(s.rd (K.ethLink e.val) = 1 ∧ s.ethV4 e.val = some ip.toNat)) : exec (.arp e ip) s = .next s :=
  congrArg Host.Outcome.next (if_neg fun hc => h ((ethAnswers_iff _ _).1 hc))

theorem exec_neighborDiscovery_mine {s : State} {e : EthId} {v6 : List Byte}
    (h : s.rd (K.ethLink e.val) = 1 ∧ s.ethV6 e.val = some v6) :
    exec (.neighborDiscovery e v6) s = .next (s.send (chanEth e.val) (s.ethMacBytes e.val ++ v6)) :=
  congrArg Host.Outcome.next (if_pos ((ethAnswers_iff _ _).2 h))

theorem exec_neighborDiscovery_other {s : State} {e : EthId} {v6 : List Byte}
    (h : ¬(s.rd (K.ethLink e.val) = 1 ∧ s.ethV6 e.val = some v6)) : exec (.neighborDiscovery e v6) s = .next s :=
  congrArg Host.Outcome.next (if_neg fun hc => h ((ethAnswers_iff _ _).1 hc))

theorem exec_echo_mine6 {s : State} {e : EthId} {v6 payload : List Byte}
    (h : s.rd (K.ethLink e.val) = 1 ∧ s.ethV6 e.val = some v6) :
    exec (.echo e true v6 payload) s = .next (s.send (chanEth e.val) payload) :=
  congrArg Host.Outcome.next (if_pos ((ethAnswers_iff _ _).2 h))

theorem exec_echo_other6 {s : State} {e : EthId} {v6 payload : List Byte}
    (h : ¬(s.rd (K.ethLink e.val) = 1 ∧ s.ethV6 e.val = some v6)) : exec (.echo e true v6 payload) s = .next s :=
  congrArg Host.Outcome.next (if_neg fun hc => h ((ethAnswers_iff _ _).1 hc))

theorem echoes4_iff {s : State} {e : Nat} {v4 : List Byte} :
    (s.ethUp e && (s.ethV4 e == some (netNat v4) && v4.length == 4)) = true ↔
      s.rd (K.ethLink e) = 1 ∧ s.ethV4 e = some (netNat v4) ∧ v4.length = 4 := by
  rw [Bool.and_eq_true, Bool.and_eq_true, s.ethUp_iff, beq_iff_eq, beq_iff_eq]

theorem exec_echo_mine4 {s : State} {e : EthId} {v4 payload : List Byte}
    (h : s.rd (K.ethLink e.val) = 1 ∧ s.ethV4 e.val = some (netNat v4) ∧ v4.length = 4) :
    exec (.echo e false v4 payload) s = .next (s.send (chanEth e.val) payload) :=
  congrArg Host.Outcome.next (if_pos (echoes4_iff.2 h))

theorem exec_echo_other4 {s : State} {e : EthId} {v4 payload : List Byte}
    (h : ¬(s.rd (K.ethLink e.val) = 1 ∧ s.ethV4 e.val = some (netNat v4) ∧ v4.length = 4)) :
    exec (.echo e false v4 payload) s = .next s :=
  congrArg Host.Outcome.next (if_neg fun hc => h (echoes4_iff.1 hc))

/-! ## SPDM -/

theorem pick_eq (l : List Nat) (a : Nat) : (if l.contains a then a else 0) = if a ∈ l then a else 0 := by
  simp only [List.contains_iff_mem]

theorem exec_negotiateAlgorithms_eq (s : State) (n : PortId) (asym hash : List Nat) :
    exec (.negotiateAlgorithms n asym hash) s = .next (s.spdm n.val 0x63
      (leBytes 4 (if 0x80 ∈ asym then 0x80 else 0) ++ leBytes 4 (if 2 ∈ hash then 2 else 0))) := by
  rw [← pick_eq, ← pick_eq]
  rfl

/-- A measurement response: what is measured, signed when the request brings a nonce (R508). -/
def spdmSigned (nonce m : List Byte) : List Byte := if nonce = [] then m else m ++ nonce ++ Config.identitySign (m ++ nonce)

theorem spdmSigned_eq (nonce m : List Byte) :
    (if nonce.isEmpty then m else m ++ nonce ++ Config.identitySign (m ++ nonce)) = spdmSigned nonce m := by
  cases nonce <;> rfl

theorem measurement_index {s : State} {a : Nat} :
    (s.measurement a).isSome = true ↔ (1 ≤ a ∧ a ≤ 5) ∨ (16 ≤ a ∧ a < 28) := by
  unfold State.measurement
  dsimp only
  constructor
  · intro h
    by_contra hno
    rw [if_neg (by omega), if_neg (by omega), if_neg (by omega), if_neg (by omega), if_neg (by omega),
      if_neg (by omega)] at h
    exact absurd h Bool.false_ne_true
  · rintro (⟨hlow, hhigh⟩ | hmodel)
    · interval_cases a <;> rfl
    · rw [if_neg (by omega), if_neg (by omega), if_neg (by omega), if_neg (by omega), if_neg (by omega), if_pos hmodel]
      rfl

/-- A measured block, or the list of blocks a request names, is sent signed (R508). -/
theorem exec_getMeasurements_number (s : State) (n : PortId) (nonce : List Byte) :
    exec (.getMeasurements n 0 nonce) s = .next (s.spdm n.val 0x60 (spdmSigned nonce (leBytes 1 17))) := by
  rw [← spdmSigned_eq]
  rfl

theorem exec_getMeasurements_all (s : State) (n : PortId) (nonce : List Byte) :
    exec (.getMeasurements n 0xFF nonce) s = .next (s.spdm n.val 0x60 (spdmSigned nonce
      (measurementIndices.flatMap fun x => leBytes 1 x ++ (s.measurement x).getD []))) := by
  rw [← spdmSigned_eq]
  rfl

theorem exec_getMeasurements_one {s : State} {n : PortId} {a : Nat} {nonce : List Byte}
    (h : (1 ≤ a ∧ a ≤ 5) ∨ (16 ≤ a ∧ a < 28)) :
    exec (.getMeasurements n a nonce) s = .next (s.spdm n.val 0x60 (spdmSigned nonce
      (leBytes 1 a ++ (s.measurement a).getD []))) := by
  rw [← spdmSigned_eq]
  exact (if_neg (by omega)).trans ((if_neg (by omega)).trans (if_pos (measurement_index.2 h)))

theorem exec_getMeasurements_none {s : State} {n : PortId} {a : Nat} {nonce : List Byte} (h0 : a ≠ 0) (hall : a ≠ 0xFF)
    (h : ¬((1 ≤ a ∧ a ≤ 5) ∨ (16 ≤ a ∧ a < 28))) :
    exec (.getMeasurements n a nonce) s = .next (s.spdmError n.val) :=
  (if_neg h0).trans ((if_neg hall).trans (if_neg fun hc => h (measurement_index.1 hc)))

/-! ## Debug access -/

theorem exec_debugAccess_off {s : State} {c : CoreId} {op : DebugOp} (h : s.rd K.testEnable ≠ 1) :
    exec (.debugAccess c op) s = .next (s.tapLoad .bypass) := if_pos h

/-- What a debug access does while test is enabled (R392). -/
def State.debugged (s : State) (c : Nat) : DebugOp → State
  | .start => s.modCore c fun k => if k.run = .idle ∨ k.run = .stopped then { k with run := .running } else k
  | .stop => s.modCore c fun k => if k.run = .running then { k with run := .stopped } else k
  | .fence => s.modCore c fun k => { k with fenced := true }
  | .pace => s.modCore c fun k => { k with pace := true }
  | .read => s.send chanTap (s.core c).debugBytes

theorem exec_debugAccess_on {s : State} {c : CoreId} (h : s.rd K.testEnable = 1) (op : DebugOp) :
    exec (.debugAccess c op) s = .next (s.debugged c.val op) :=
  (if_neg (not_not_intro h)).trans (by cases op <;> rfl)

/-- Settles O48. -/
theorem requestsFromOutsideAreAnswered : Obligations.RequestsFromOutsideAreAnswered := by
  unfold Obligations.RequestsFromOutsideAreAnswered
  intro s e ip v6 v4 payload nonce n slot a b asym hash bd c
  refine ⟨fun h => exec_arp_mine h, fun h => exec_arp_other h,
    fun h => ⟨exec_neighborDiscovery_mine h, exec_echo_mine6 h⟩,
    fun h => ⟨exec_neighborDiscovery_other h, exec_echo_other6 h⟩, fun h => exec_echo_mine4 h, fun h => exec_echo_other4 h,
    rfl, rfl, exec_negotiateAlgorithms_eq s n asym hash, rfl,
    fun h => ⟨congrArg Host.Outcome.next (if_pos h), congrArg Host.Outcome.next (if_pos h)⟩,
    fun h => ⟨congrArg Host.Outcome.next (if_neg h), congrArg Host.Outcome.next (if_neg h)⟩,
    exec_getMeasurements_number s n nonce, exec_getMeasurements_all s n nonce,
    fun h => ⟨Option.isSome_iff_exists.1 (measurement_index.2 h), exec_getMeasurements_one h⟩,
    fun h0 hall h => exec_getMeasurements_none h0 hall h,
    rfl, rfl, rfl, rfl, rfl, rfl, rfl, rfl, rfl, fun h op => exec_debugAccess_off h, fun h => ?_⟩
  refine ⟨exec_debugAccess_on h .read, ?fence, ?pace, ?start, ?stop⟩
  case fence => exact ⟨_, exec_debugAccess_on h .fence, s.onlyCore_set c _, s.core_setCore c.val _⟩
  case pace => exact ⟨_, exec_debugAccess_on h .pace, s.onlyCore_set c _, s.core_setCore c.val _⟩
  case start => exact ⟨_, exec_debugAccess_on h .start, s.onlyCore_set c _, s.core_setCore c.val _⟩
  case stop => exact ⟨_, exec_debugAccess_on h .stop, s.onlyCore_set c _, s.core_setCore c.val _⟩

end Sys2Proof.Machine
end

section
/-! Diagnostic and telemetry entries: O52. -/

namespace Sys2Proof.Machine

/-! ## Messages down the tree -/

/-- Only what waits at the seams differs. -/
def State.SeamsOnly (s t : State) : Prop := t = { s with seams := t.seams }

theorem State.SeamsOnly.trans {a b c : State} (h : a.SeamsOnly b) (h' : b.SeamsOnly c) : a.SeamsOnly c := by
  unfold State.SeamsOnly at *
  rw [h', h]

theorem State.seamsOnly_sendDown (s : State) (type tag : Nat) (payload : List Byte) :
    s.SeamsOnly (s.sendDown type tag payload) := by
  refine State.each_rel (R := State.SeamsOnly) (fun s => rfl) State.SeamsOnly.trans (fun s c => ?_) _ s
  split <;> rfl

/-! ## Entries written alone -/

theorem State.onlyEntries_wr (s : State) (k v : Nat) : s.OnlyEntries (s.wr k v) [k] :=
  ⟨rfl, fun _ hj => s.rd_wr_ne k v _ fun h => hj (List.mem_singleton.2 h)⟩

/-! ## Recipes (R88, R91) -/

theorem State.recipeWrite_not {s : State} {i : Nat} {b : List Byte} {m : Bool}
    (h : s.recipeRule i b ≠ 0 ∨ (s.recipeShared i = true ∧ m = false ∧ s.isMaster = false)) : (s.recipeWrite i b m).1 = s := by
  unfold State.recipeWrite
  dsimp only
  split_ifs with hmember hrule hshared hmaster
  case pos | pos => rfl
  all_goals
    refine absurd h (not_or_intro hrule fun ⟨hs, hm, hn⟩ => hmember ?_)
    rw [hs, hm, hn]
    rfl

theorem State.recipeWrite_alone {s : State} {i : Nat} {b : List Byte} {m : Bool} (h : s.recipeRule i b = 0)
    (hs : s.recipeShared i = false) : (s.recipeWrite i b m).1 = s.change i (.recipe b) := by
  unfold State.recipeWrite
  rw [hs, h]
  rfl

theorem State.recipeWrite_member {s : State} {i : Nat} {b : List Byte} (h : s.recipeRule i b = 0)
    (hs : s.recipeShared i = true) (hm : s.isMaster = false) : (s.recipeWrite i b true).1 = s.change i (.recipeC b) := by
  unfold State.recipeWrite
  rw [hs, h]
  exact congrArg Prod.fst (if_neg (ne_true_of_eq_false hm))

/-- The master's change waits and the barrier is raised, before the recipe goes down the tree (R91). -/
def State.recipeRaised (s : State) (i : Nat) (b : List Byte) : State :=
  { s.change i (.recipeC b) with casc := { s.casc with barrier := true } }

theorem State.recipeWrite_master {s : State} {i : Nat} {b : List Byte} {m : Bool} (h : s.recipeRule i b = 0)
    (hs : s.recipeShared i = true) (hm : s.isMaster = true) : (s.recipeWrite i b m).1 =
      (s.recipeRaised i b).sendDown 4 (s.rd K.ctackSeq) (leBytes 2 (0x4000 + i) ++ leBytes 1 0x30 ++ b) := by
  unfold State.recipeWrite
  rw [hs, h, hm, Bool.not_true, Bool.and_false]
  exact congrArg Prod.fst (if_pos hm)

/-! ## Counters, snapshots, alert causes -/

theorem State.snapReq_taken {s : State} {i : Nat} (h : s.rd (K.snapState i) ≠ 1) :
    (s.snapReq i).1 = (s.wr (K.snapState i) 1).change i .snapshot := congrArg Prod.fst (if_neg h)

theorem State.snapReq_waits {s : State} {i : Nat} (h : s.rd (K.snapState i) = 1) : (s.snapReq i).1 = s :=
  congrArg Prod.fst (if_pos h)

/-- Clearing the bits of a mask leaves the others (R417). -/
theorem testBit_cleared (v : Nat) (mask : BitVec 32) {k : Nat} (hk : k < 32) :
    (v &&& (2 ^ 32 - 1 - mask.toNat)).testBit k = (v.testBit k && !mask.getLsbD k) := by
  rw [Nat.testBit_and, Nat.sub_sub, Nat.add_comm 1, Nat.testBit_two_pow_sub_succ mask.isLt, decide_eq_true hk, Bool.true_and]
  rfl

/-- A change waits for its instance's tack and nothing else of the instances moves. -/
theorem State.change_waits (s : State) (i : Nat) (c : Change) :
    (s.change i c).inst i = { s.inst i with changes := (s.inst i).changes ++ [c] } ∧
    ∀ k, k ≠ i → (s.change i c).inst k = s.inst k := (s.change_spec i c).2

/-- Settles O52. -/
theorem diagnosticWritesWaitForTheirTack : Obligations.DiagnosticWritesWaitForTheirTack := by
  unfold Obligations.DiagnosticWritesWaitForTheirTack
  intro s i b mask c fromMaster
  refine ⟨fun h => congrArg Host.Outcome.next (State.recipeWrite_not h), fun hrule => ⟨fun hs => ?alone, fun hs hm => ?member,
    fun hs hm => ?master⟩, ⟨_, rfl, rfl, s.change_waits ..⟩, fun hc => ⟨?cc, ?tm⟩,
    fun hc => ⟨congrArg Host.Outcome.next (if_neg (Nat.not_lt.2 hc)), congrArg Host.Outcome.next (if_neg (Nat.not_lt.2 hc))⟩,
    fun j hj => ?clearTack, fun hj => ?clearNow, fun h => ?snapshot,
    fun h => congrArg Host.Outcome.next (State.snapReq_waits h), ?alerts⟩
  case alone => exact ⟨_, congrArg Host.Outcome.next (State.recipeWrite_alone hrule hs), rfl, s.change_waits ..⟩
  case member => exact ⟨_, congrArg Host.Outcome.next (State.recipeWrite_member hrule hs hm), rfl, s.change_waits ..⟩
  case master =>
    have hsent := State.seamsOnly_sendDown (s.recipeRaised i.val b) 4 (s.rd K.ctackSeq)
      (leBytes 2 (0x4000 + i.val) ++ leBytes 1 0x30 ++ b)
    have hinsts := congrArg State.insts hsent
    have hinst := fun k => congrArg (fun l => mapGet (fun _ => ({} : Inst)) l k) hinsts
    refine ⟨_, congrArg Host.Outcome.next (State.recipeWrite_master hrule hs hm), ?_,
      (hinst i.val).trans (s.change_waits ..).1, fun k hk => (hinst k).trans ((s.change_waits ..).2 k hk)⟩
    rw [hinsts]
    rfl
  case cc => exact ⟨_, congrArg Host.Outcome.next (if_pos hc), s.onlyEntries_wr .., s.rd_wr ..⟩
  case tm => exact ⟨_, congrArg Host.Outcome.next (if_pos hc), s.onlyEntries_wr .., s.rd_wr ..⟩
  case clearTack =>
    refine ⟨s.change j (.ccClear (s.rd K.ccCore)), ?_, rfl, s.change_waits ..⟩
    rw [exec_ccClear]
    unfold execCcClear
    dsimp only
    rw [hj]
  case clearNow =>
    refine ⟨s.modCore (s.rd K.ccCore) Core.clearCounters, ?_, rfl, s.core_setCore .., fun d hd => s.core_setCore_ne _ _ _ hd⟩
    rw [exec_ccClear]
    unfold execCcClear
    dsimp only
    rw [hj]
  case snapshot =>
    exact ⟨_, congrArg Host.Outcome.next (State.snapReq_taken h), rfl, s.rd_wr .., fun k hk => s.rd_wr_ne _ _ _ hk,
      (s.wr _ 1).change_waits ..⟩
  case alerts =>
    refine ⟨_, rfl, s.onlyEntries_wr .., fun k hk => ?_⟩
    rw [s.rd_wr]
    exact testBit_cleared _ mask hk

end Sys2Proof.Machine
end

section
/-! The multipurpose pins: O54. -/

namespace Sys2Proof.Machine

/-! ## What a pin's command may touch -/

/-- Only pin p, the entries and what follows from log entries differ. -/
def State.PinAndLog (s t : State) (p : Nat) : Prop :=
  (∀ q, q ≠ p → t.pin q = s.pin q) ∧
  t = { s with dict := t.dict, pins := t.pins, log := t.log, fns := t.fns, sent := t.sent,
               logMsgAt := t.logMsgAt, logMsgHeld := t.logMsgHeld }

theorem State.PinAndLog.trans {s t u : State} {p : Nat} (h : s.PinAndLog t p) (h' : t.PinAndLog u p) : s.PinAndLog u p := by
  obtain ⟨hother, hframe⟩ := h
  obtain ⟨hother', hframe'⟩ := h'
  refine ⟨fun q hq => (hother' q hq).trans (hother q hq), ?_⟩
  rw [hframe', hframe]

theorem State.pinAndLog_setPin (s : State) (p : Nat) (x : Pin) : s.PinAndLog (s.setPin p x) p :=
  ⟨fun q hq => s.pin_setPin_ne p x q hq, rfl⟩

theorem State.pinAndLog_wr (s : State) (p k v : Nat) : s.PinAndLog (s.wr k v) p := ⟨fun _ _ => rfl, rfl⟩

theorem State.pinAndLog_logMg (s : State) (p a b c d e f g : Nat) : s.PinAndLog (s.logMg a b c d e f g) p := by
  have hlog := s.logMg_only a b c d e f g
  refine ⟨fun q _ => (congrArg (fun l => mapGet (fun _ => ({} : Pin)) l q) hlog.pins :), ?_⟩
  rw [hlog.eq]

/-! ## Alerts (R441) -/

/-- `ext_alert` shows whether some pin raises the alert. -/
def State.ShowsAlert (t : State) : Prop := t.rd K.extAlert = b2n ((List.range 8).any fun q => (t.pin q).alert)

theorem State.ShowsAlert.congr {t u : State} (h : t.ShowsAlert) (hrd : u.rd K.extAlert = t.rd K.extAlert)
    (hpin : ∀ q, (u.pin q).alert = (t.pin q).alert) : u.ShowsAlert := by
  unfold State.ShowsAlert
  rw [hrd, h, funext hpin]

theorem State.pinAlert_same {s : State} {p : Nat} {on : Bool} (h : (s.pin p).alert = on) : s.pinAlert p on = s := if_pos h

/-- A change of a pin's alert: the pin, `ext_alert` and a log entry. -/
theorem State.pinAlert_changes {s : State} {p : Nat} {on : Bool} (h : (s.pin p).alert ≠ on) :
    s.PinAndLog (s.pinAlert p on) p ∧ (s.pinAlert p on).pin p = { s.pin p with alert := on } ∧
    (s.pinAlert p on).Logged 0x1008 1 ∧ (s.pinAlert p on).ShowsAlert ∧
    ∀ k, k ∉ K.extAlert :: logKeys → (s.pinAlert p on).rd k = s.rd k := by
  obtain ⟨u, hu⟩ : ∃ u, u = s.setPin p { s.pin p with alert := on } := ⟨_, rfl⟩
  obtain ⟨v, hv⟩ : ∃ v, v = u.wr K.extAlert (b2n ((List.range 8).any fun q => (u.pin q).alert)) := ⟨_, rfl⟩
  have heq : s.pinAlert p on = v.logMg noInst 0x1008 1 0 noSlot p (b2n on) := by
    rw [hv, hu]
    exact if_neg h
  have hpins : ∀ q, (s.pinAlert p on).pin q = u.pin q := fun q => by
    rw [heq, State.logMg_pin, hv]
    rfl
  refine ⟨?_, ?_, ?_, ?_, fun k hk => ?_⟩
  · rw [heq, hv, hu]
    exact ((s.pinAndLog_setPin ..).trans (State.pinAndLog_wr ..)).trans (State.pinAndLog_logMg ..)
  · rw [hpins, hu, State.pin_setPin]
  · obtain ⟨y, hsource, -, hcls, hcode, -, hlog⟩ := v.log_logMg noInst 0x1008 1 0 noSlot p (b2n on)
    rw [heq]
    exact ⟨y, by rw [hlog]; rfl, hsource, hcls, hcode⟩
  · unfold State.ShowsAlert
    rw [funext hpins, heq, State.logMg_rd _ _ _ _ _ _ _ _ (by decide), hv, State.rd_wr]
  · obtain ⟨hext, hlog⟩ := not_or.1 fun hc => hk (List.mem_cons.2 hc)
    rw [heq, State.logMg_rd _ _ _ _ _ _ _ _ hlog, hv, State.rd_wr_ne _ _ _ _ hext, hu]
    rfl

/-! ## The start of a switch (R389 step 1) -/

theorem sbState_ne_extAlert {p : Nat} (hp : p < 8) : K.extAlert ≠ K.sbState p := by
  unfold K.extAlert K.sbState
  omega

/-- The old function detaches: the pin wants the new one, its alert is off, and `sb_state` is 1. -/
theorem State.pinSwitch_pin (s : State) (p f : Nat) :
    (s.pinSwitch p f).pin p = { s.pin p with want := f, held := none, alert := false } := by
  refine (State.pin_setPin ..).trans ?_
  by_cases h : (s.pin p).alert = false
  · rw [State.pinAlert_same h, ← h]
  · rw [(State.pinAlert_changes h).2.1]

theorem State.pinSwitch_state (s : State) (p f : Nat) : (s.pinSwitch p f).rd (K.sbState p) = 1 := State.rd_wr ..

theorem State.pinSwitch_other (s : State) (p f : Nat) {k : Nat} (hk : k ≠ K.sbState p) :
    (s.pinSwitch p f).rd k = (s.pinAlert p false).rd k := State.rd_wr_ne _ _ _ _ hk

theorem State.pinSwitch_frame (s : State) (p f : Nat) : (s.pinAlert p false).PinAndLog (s.pinSwitch p f) p :=
  (State.pinAndLog_setPin ..).trans (State.pinAndLog_wr ..)

/-- A switch that starts while the pin raises the alert. -/
theorem State.pinSwitch_alerted {s : State} {p f : Nat} (hp : p < 8) (h : (s.pin p).alert = true) :
    s.PinAndLog (s.pinSwitch p f) p ∧ (s.pinSwitch p f).Logged 0x1008 1 ∧ (s.pinSwitch p f).ShowsAlert ∧
    ∀ k, k ∉ K.extAlert :: K.sbState p :: logKeys → (s.pinSwitch p f).rd k = s.rd k := by
  obtain ⟨hframe, hpin, hlogged, hshows, hrd⟩ := State.pinAlert_changes (on := false) (ne_of_eq_of_ne h Bool.true_eq_false.mp)
  have hswitch := s.pinSwitch_frame p f
  refine ⟨hframe.trans hswitch, hlogged, hshows.congr (s.pinSwitch_other p f (sbState_ne_extAlert hp)) fun q => ?_,
    fun k hk => ?_⟩
  · by_cases hq : q = p
    · rw [hq, State.pinSwitch_pin, hpin]
    · rw [hswitch.1 q hq]
  · simp only [List.mem_cons, not_or] at hk
    obtain ⟨hext, hstate, hlog⟩ := hk
    exact (s.pinSwitch_other p f hstate).trans (hrd k (List.not_mem_cons_of_ne_of_not_mem hext hlog))

/-- A switch that starts while the pin raises none. -/
theorem State.pinSwitch_quiet {s : State} {p f : Nat} (h : (s.pin p).alert = false) :
    s.pinSwitch p f = { s with dict := (s.pinSwitch p f).dict, pins := (s.pinSwitch p f).pins } ∧
    (∀ q, q ≠ p → (s.pinSwitch p f).pin q = s.pin q) ∧ ∀ k, k ≠ K.sbState p → (s.pinSwitch p f).rd k = s.rd k := by
  have hswitch := s.pinSwitch_frame p f
  have hother := fun k hk => s.pinSwitch_other p f (k := k) hk
  rw [State.pinAlert_same h] at hswitch hother
  refine ⟨?_, hswitch.1, hother⟩
  unfold State.pinSwitch
  rw [State.pinAlert_same h]
  rfl

end Sys2Proof.Machine
end

section
/-! The multipurpose pins' commands: O54. -/

namespace Sys2Proof.Machine

theorem sbFunc_ne_sbState (p : Nat) : K.sbFunc p ≠ K.sbState p := by
  unfold K.sbFunc K.sbState
  omega

theorem sbFunc_ne_extAlert {p : Nat} (hp : p < 8) : K.sbFunc p ≠ K.extAlert := by
  unfold K.sbFunc K.extAlert
  omega

theorem sbFunc_not_logKey {p : Nat} (hp : p < 8) : K.sbFunc p ∉ logKeys := not_logKey (by unfold K.sbFunc; omega)

theorem State.pin_wr (s : State) (k v q : Nat) : (s.wr k v).pin q = s.pin q := rfl

theorem State.pinFunc_held {s : State} {p f : Nat} (h : s.rd (K.sbState p) ≠ 0) :
    s.pinFunc p f = (s.wr (K.sbFunc p) f).setPin p { s.pin p with held := some f } :=
  if_pos (ne_of_eq_of_ne (s.rd_wr_ne _ _ _ (sbFunc_ne_sbState p).symm) h)

theorem State.pinFunc_idle {s : State} {p f : Nat} (h : s.rd (K.sbState p) = 0) : s.pinFunc p f =
    if (s.pin p).func = f then s.wr (K.sbFunc p) f else (s.wr (K.sbFunc p) f).pinSwitch p f :=
  if_neg (not_not_intro ((s.rd_wr_ne _ _ _ (sbFunc_ne_sbState p).symm).trans h))

/-- The new function of pin p is in force (R389 step 3). -/
def State.attached (s : State) (p : Nat) : State :=
  (s.setPin p { s.pin p with func := (s.pin p).want, held := none }).wr (K.sbState p) 0

theorem exec_sbAttach_ends {s : State} {p : PinId} (h : s.rd (K.sbState p.val) = 2)
    (hheld : (s.pin p.val).held = none ∨ (s.pin p.val).held = some (s.pin p.val).want) :
    exec (.sbAttach p) s = .next (s.attached p.val) := by
  rw [exec_sbAttach]
  refine (if_neg (not_not_intro h)).trans ?_
  dsimp only
  rcases hheld with hheld | hheld
  · rw [hheld]
    rfl
  · rw [hheld]
    exact congrArg Host.Outcome.next (if_pos rfl)

theorem exec_sbAttach_again {s : State} {p : PinId} {g : Nat} (h : s.rd (K.sbState p.val) = 2)
    (hheld : (s.pin p.val).held = some g) (hg : g ≠ (s.pin p.val).want) :
    exec (.sbAttach p) s = .next ((s.attached p.val).pinSwitch p.val g) := by
  rw [exec_sbAttach]
  refine (if_neg (not_not_intro h)).trans ?_
  dsimp only
  rw [hheld]
  exact congrArg Host.Outcome.next (if_neg hg)

/-- Settles O54. -/
theorem pinsSwitchAndRaiseAlerts : Obligations.PinsSwitchAndRaiseAlerts := by
  unfold Obligations.PinsSwitchAndRaiseAlerts
  intro s p f level x idle OnlyPin OnlyPinAndLog Alerted Switches good
  have hswitches : ∀ (u : State) (v : Nat) (y : Pin) (keys : List Nat),
      s.PinAndLog u p.val → u = { s with dict := u.dict, pins := u.pins } → (∀ k, k ∉ keys → k ≠ K.sbState p.val → u.rd k = s.rd k) →
      (u.pin p.val).alert = x.alert → { u.pin p.val with want := v, held := none } = y →
      Switches (u.pinSwitch p.val v) y keys := by
    intro u v y keys hbase hquiet hkeys halert hy
    have hpin : (u.pinSwitch p.val v).pin p.val = { y with alert := false } := by
      rw [u.pinSwitch_pin, ← hy]
    refine ⟨?frame, hpin, u.pinSwitch_state .., fun hon => ?alerted, fun hoff => ?quiet⟩
    case frame =>
      by_cases hon : x.alert = true
      · exact hbase.trans (State.pinSwitch_alerted p.isLt (halert.trans hon)).1
      · have hframe := u.pinSwitch_frame p.val v
        rw [State.pinAlert_same (halert.trans (eq_false_of_ne_true hon))] at hframe
        exact hbase.trans hframe
    case alerted =>
      obtain ⟨-, hlogged, hshows, hrd⟩ := State.pinSwitch_alerted (f := v) p.isLt (halert.trans hon)
      refine ⟨⟨hlogged, hshows⟩, fun k hk => ?_⟩
      simp only [List.mem_cons, List.mem_append, not_or] at hk
      obtain ⟨hext, hstate, hlisted, hlog⟩ := hk
      refine (hrd k ?_).trans (hkeys k hlisted hstate)
      simp only [List.mem_cons, not_or]
      exact ⟨hext, hstate, hlog⟩
    case quiet =>
      obtain ⟨hframe, hother, hrd⟩ := State.pinSwitch_quiet (f := v) (halert.trans hoff)
      refine ⟨⟨?_, fun q hq => (hother q hq).trans (hbase.1 q hq)⟩, fun k hk => ?_⟩
      · rw [hframe, hquiet]
      · simp only [List.mem_cons, not_or] at hk
        exact (hrd k hk.1).trans (hkeys k hk.2 hk.1)
  have hfunc : good → exec (.sbFuncWrite p f) s = .next (s.pinFunc p.val f.toNat) := fun h =>
    congrArg Host.Outcome.next (if_neg (not_or.2 ⟨Nat.not_lt.2 h.1, not_not_intro h.2⟩))
  have hrdfunc : ∀ k, k ∉ [K.sbFunc p.val] → k ≠ K.sbState p.val → (s.wr (K.sbFunc p.val) f.toNat).rd k = s.rd k :=
    fun k hk _ => s.rd_wr_ne _ _ _ fun hc => hk (List.mem_singleton.2 hc)
  refine ⟨fun h => ?bad, fun hgood => ⟨fun hidle hsame => ?inForce, fun hidle hnew => ?starts, fun hbusy => ?held⟩,
    fun h => ⟨_, congrArg Host.Outcome.next (if_pos h), s.onlyEntries_wr .., s.rd_wr ..⟩,
    fun h => congrArg Host.Outcome.next (if_neg h), fun h => if_pos h, fun h => ⟨fun hheld => ?attached, fun g hheld hg => ?again⟩,
    fun h => ?raised, fun h => ?ignored, fun h => ?released, fun h => congrArg Host.Outcome.next (State.pinAlert_same h),
    ⟨_, rfl, rfl, rfl⟩⟩
  case bad =>
    refine congrArg Host.Outcome.next (if_pos ?_)
    by_contra hc
    obtain ⟨hle, hrule⟩ := not_or.1 hc
    exact h ⟨Nat.not_lt.1 hle, not_not.1 hrule⟩
  case inForce =>
    refine ⟨s.wr (K.sbFunc p.val) f.toNat, ?_, s.onlyEntries_wr .., s.rd_wr ..⟩
    rw [hfunc hgood, State.pinFunc_idle hidle]
    exact congrArg Host.Outcome.next (if_pos hsame)
  case starts =>
    refine ⟨(s.wr (K.sbFunc p.val) f.toNat).pinSwitch p.val f.toNat, ?_, ?_, ?_⟩
    · rw [hfunc hgood, State.pinFunc_idle hidle]
      exact congrArg Host.Outcome.next (if_neg hnew)
    · rw [State.pinSwitch_other _ _ _ (sbFunc_ne_sbState p.val)]
      refine Eq.trans ?_ (s.rd_wr (K.sbFunc p.val) f.toNat)
      by_cases hon : ((s.wr (K.sbFunc p.val) f.toNat).pin p.val).alert = false
      · rw [State.pinAlert_same hon]
      · refine (State.pinAlert_changes hon).2.2.2.2 _ ?_
        exact List.not_mem_cons_of_ne_of_not_mem (sbFunc_ne_extAlert p.isLt) (sbFunc_not_logKey p.isLt)
    · exact hswitches _ _ _ _ (s.pinAndLog_wr ..) rfl hrdfunc rfl rfl
  case held =>
    refine ⟨_, (hfunc hgood).trans (congrArg Host.Outcome.next (State.pinFunc_held hbusy)), ⟨rfl, fun q hq => ?_⟩, ?_, ?_,
      fun k hk => ?_⟩
    · exact State.pin_setPin_ne _ _ _ _ hq
    · exact State.pin_setPin ..
    · exact s.rd_wr ..
    · exact s.rd_wr_ne _ _ _ hk
  case attached =>
    exact ⟨_, exec_sbAttach_ends h hheld, ⟨rfl, fun q hq => State.pin_setPin_ne s _ _ _ hq⟩, State.pin_setPin s ..,
      State.rd_wr .., fun k hk => State.rd_wr_ne _ _ _ _ hk⟩
  case again =>
    refine ⟨_, exec_sbAttach_again h hheld hg, ?_⟩
    have hpin : (s.attached p.val).pin p.val = { x with func := x.want, held := none } := State.pin_setPin s ..
    refine hswitches _ _ _ _ ((s.pinAndLog_setPin ..).trans (State.pinAndLog_wr ..)) rfl ?_ (by rw [hpin]) (by rw [hpin])
    exact fun k _ hk => State.rd_wr_ne _ _ _ _ hk
  case raised =>
    obtain ⟨hseven, hidle, hoff⟩ := h
    obtain ⟨hframe, hpin, hlogged, hshows, hrd⟩ :=
      State.pinAlert_changes (s := s) (p := p.val) (on := true) (ne_of_eq_of_ne hoff Bool.false_ne_true)
    refine ⟨_, congrArg Host.Outcome.next (if_pos ⟨hseven, hidle⟩), hframe, hpin, ⟨hlogged, hshows⟩, hshows.trans ?_, hrd⟩
    have hany : ((List.range 8).any fun q => ((s.pinAlert p.val true).pin q).alert) = true :=
      List.any_eq_true.2 ⟨p.val, List.mem_range.2 p.isLt, by rw [hpin]⟩
    rw [hany]
    rfl
  case ignored =>
    refine congrArg Host.Outcome.next ?_
    by_cases hc : (s.pin p.val).func = 7 ∧ s.rd (K.sbState p.val) = 0
    · refine (if_pos hc).trans (State.pinAlert_same ?_)
      by_contra hoff
      exact h ⟨hc.1, hc.2, eq_false_of_ne_true hoff⟩
    · exact if_neg hc
  case released =>
    obtain ⟨hframe, hpin, hlogged, hshows, hrd⟩ :=
      State.pinAlert_changes (s := s) (p := p.val) (on := false) (ne_of_eq_of_ne h (Ne.symm Bool.false_ne_true))
    exact ⟨_, rfl, hframe, hpin, ⟨hlogged, hshows⟩, hrd⟩

end Sys2Proof.Machine
end

section
/-! The HBM stacks: scrubbing, temperature, retraining (R382-R385, R441), for O53. -/

namespace Sys2Proof.Machine

/-! ## What a temperature reading may touch -/

/-- Only entries, stacks, instances and what follows from log entries differ. -/
def State.HeatOnly (s t : State) : Prop :=
  t = { s with dict := t.dict, hbmStacks := t.hbmStacks, insts := t.insts, log := t.log, fns := t.fns,
               sent := t.sent, logMsgAt := t.logMsgAt, logMsgHeld := t.logMsgHeld }

theorem State.HeatOnly.trans {s t u : State} (h : s.HeatOnly t) (h' : t.HeatOnly u) : s.HeatOnly u := by
  unfold State.HeatOnly at *
  rw [h', h]

theorem State.heatOnly_logMg (s : State) (a b c d e f g : Nat) : s.HeatOnly (s.logMg a b c d e f g) := by
  have hlog := s.logMg_only a b c d e f g
  unfold State.HeatOnly
  rw [hlog.eq]

theorem State.mem_log_logMg {s : State} {y : LogEntry} {l : List LogEntry} (h : s.log = y :: l) (a b c d e f g : Nat) :
    y ∈ (s.logMg a b c d e f g).log := by
  obtain ⟨z, -, -, -, -, -, hlog⟩ := s.log_logMg a b c d e f g
  rw [hlog, h]
  exact List.mem_cons_of_mem _ (List.mem_of_mem_take (i := 1) (by simp))

/-! ## Stops by temperature (R441) -/

/-- The instance once a cause holds it. -/
def Inst.heatHeld (x : Inst) (cause : Nat) : Inst :=
  { x with hot_ := if cause ∈ x.hot_ then x.hot_ else x.hot_ ++ [cause] }

theorem State.heatHold_spec (s : State) (i cause : Nat) : s.HeatOnly (s.heatHold i cause) ∧
    (s.heatHold i cause).hbmStacks = s.hbmStacks ∧
    (s.heatHold i cause).inst i = (s.inst i).heatHeld cause ∧ (∀ j, j ≠ i → (s.heatHold i cause).inst j = s.inst j) ∧
    (∀ k, k ∉ logKeys → (s.heatHold i cause).rd k = s.rd k) ∧
    ∀ y l, s.log = y :: l → y ∈ (s.heatHold i cause).log := by
  unfold State.heatHold Inst.heatHeld
  by_cases hmem : cause ∈ (s.inst i).hot_
  · rw [if_pos hmem, if_pos hmem]
    exact ⟨rfl, rfl, rfl, fun _ _ => rfl, fun _ _ => rfl, fun y l h => by rw [h]; exact List.mem_cons_self⟩
  · rw [if_neg hmem, if_neg hmem]
    refine ⟨?_, State.logMg_hbmStacks .., ?_, fun j hj => ?_, fun k hk => ?_, fun y l h => ?_⟩
    · exact State.HeatOnly.trans (t := s.modInst i _) rfl (State.heatOnly_logMg ..)
    · exact (State.logMg_inst ..).trans (s.inst_setInst ..)
    · exact (State.logMg_inst ..).trans (s.inst_setInst_ne _ _ _ hj)
    · exact State.logMg_rd _ _ _ _ _ _ _ _ hk
    · exact State.mem_log_logMg (s := s.modInst i _) h ..

theorem State.heatRelease_eq (s : State) (i : Nat) (past : Nat → Bool) (left : List Nat)
    (hleft : left = (s.inst i).hot_.filter fun c => !past c) : s.heatRelease i past =
      if left = (s.inst i).hot_ then s
      else if (left.isEmpty && !(s.inst i).hostStop && s.rd (K.instState i) == 4) = true then
        (s.setInst i { s.inst i with hot_ := left }).wr (K.instState i) instFitted
      else s.setInst i { s.inst i with hot_ := left } := by
  rw [hleft]
  rfl

theorem State.heatRelease_spec (s : State) (i : Nat) (past : Nat → Bool) (left : List Nat)
    (hleft : left = (s.inst i).hot_.filter fun c => !past c) :
    s.HeatOnly (s.heatRelease i past) ∧ (s.heatRelease i past).hbmStacks = s.hbmStacks ∧ (s.heatRelease i past).log = s.log ∧
    (s.heatRelease i past).inst i = { s.inst i with hot_ := left } ∧
    (∀ j, j ≠ i → (s.heatRelease i past).inst j = s.inst j) ∧
    (∀ k, k ≠ K.instState i → (s.heatRelease i past).rd k = s.rd k) ∧
    (s.heatRelease i past).rd (K.instState i) = if left ≠ (s.inst i).hot_ ∧ left = [] ∧ (s.inst i).hostStop = false ∧
      s.rd (K.instState i) = 4 then instFitted else s.rd (K.instState i) := by
  rw [s.heatRelease_eq i past left hleft]
  by_cases hsame : left = (s.inst i).hot_
  · rw [if_pos hsame, if_neg fun h => h.1 hsame, hsame]
    exact ⟨rfl, rfl, rfl, rfl, fun _ _ => rfl, fun _ _ => rfl, rfl⟩
  · rw [if_neg hsame]
    by_cases hruns : (left.isEmpty && !(s.inst i).hostStop && s.rd (K.instState i) == 4) = true
    · rw [if_pos hruns]
      simp only [Bool.and_eq_true, List.isEmpty_iff, Bool.not_eq_true', beq_iff_eq] at hruns
      obtain ⟨⟨hempty, hstop⟩, hfour⟩ := hruns
      rw [if_pos ⟨hsame, hempty, hstop, hfour⟩]
      exact ⟨rfl, rfl, rfl, s.inst_setInst .., fun j hj => s.inst_setInst_ne _ _ _ hj,
        fun k hk => State.rd_wr_ne _ _ _ _ hk, State.rd_wr ..⟩
    · rw [if_neg hruns]
      simp only [Bool.and_eq_true, List.isEmpty_iff, Bool.not_eq_true', beq_iff_eq] at hruns
      rw [if_neg fun h => hruns ⟨⟨h.2.1, h.2.2.1⟩, h.2.2.2⟩]
      exact ⟨rfl, rfl, rfl, s.inst_setInst .., fun j hj => s.inst_setInst_ne _ _ _ hj, fun _ _ => rfl, rfl⟩

/-! ## Patrol scrubbing (R382) -/

/-- The word of stack st that a scrub names, and what it finds there. -/
def State.scrubFinds (s : State) (st w : Nat) (found : Ecc) : Nat :=
  max (eccNo found) (mapGet (fun _ => 0) s.hbmErr (2 ^ 33 * st + w))

theorem exec_hbmPatrolScrub_out {s : State} {st : StackId} {w : Nat} {found : Ecc} (h : 2 ^ 33 ≤ w) :
    exec (.hbmPatrolScrub st w found) s = .next s := if_pos h

theorem exec_hbmPatrolScrub_clean {s : State} {st : StackId} {w : Nat} {found : Ecc} (h : w < 2 ^ 33)
    (hclean : s.scrubFinds st.val w found = 0) : exec (.hbmPatrolScrub st w found) s = .next s :=
  (if_neg (Nat.not_le.2 h)).trans (if_pos hclean)

/-- The scrubbed word's error is gone from the map. -/
def State.scrubbed (s : State) (st w : Nat) : State := { s with hbmErr := mapSet (fun _ => 0) s.hbmErr (2 ^ 33 * st + w) 0 }

theorem exec_hbmPatrolScrub_single {s : State} {st : StackId} {w : Nat} {found : Ecc} (h : w < 2 ^ 33)
    (hone : s.scrubFinds st.val w found = 1) :
    exec (.hbmPatrolScrub st w found) s = .next ((s.scrubbed st.val w).bump (K.eccCorrected st.val) 64 1) :=
  (if_neg (Nat.not_le.2 h)).trans ((if_neg (by unfold State.scrubFinds at hone; omega)).trans (if_pos hone))

theorem exec_hbmPatrolScrub_poison {s : State} {st : StackId} {w : Nat} {found : Ecc} (h : w < 2 ^ 33)
    (hclean : s.scrubFinds st.val w found ≠ 0) (hone : s.scrubFinds st.val w found ≠ 1) :
    exec (.hbmPatrolScrub st w found) s = .next ({ s.scrubbed st.val w with
      hbmPoison := mapSet (fun _ => false) s.hbmPoison (2 ^ 33 * st.val + w) true }.bump (K.eccUncorrectable st.val) 64 1) :=
  (if_neg (Nat.not_le.2 h)).trans ((if_neg hclean).trans (if_neg hone))

/-! ## Temperature readings (R383) -/

/-- The reading is taken: entry, refresh and bandwidth limit. -/
def State.stackRead (s : State) (st : Nat) (temp : Int) : State :=
  (s.wrI (K.hbmTemp st) 32 temp).setStack st { s.stack st with
    refresh2 := decide (85000 < temp), limited := decide ((s.wrI (K.hbmTemp st) 32 temp).rdI K.hbmTThrottle 32 < temp) }

/-- The new bandwidth limit is logged (R383). -/
def State.hbmLimited (s : State) (st : Nat) (temp : Int) : State :=
  if (decide ((s.wrI (K.hbmTemp st) 32 temp).rdI K.hbmTThrottle 32 < temp) && !(s.stack st).limited) = true then
    (s.stackRead st temp).logMg noInst 0x1009 1 0 noSlot st (unsignedAt 32 temp) else s.stackRead st temp

theorem hbmThrottle_wr (s : State) {st : Nat} (hst : st < 16) (v : Nat) :
    (s.wr (K.hbmTemp st) v).rdI K.hbmTThrottle 32 = s.rdI K.hbmTThrottle 32 := by
  unfold State.rdI
  rw [State.rd_wr_ne _ _ _ _ (by unfold K.hbmTThrottle K.hbmTemp; omega)]

theorem State.stack_stackRead (s : State) {st : Nat} (hst : st < 16) (temp : Int) : (s.stackRead st temp).stack st =
    { s.stack st with refresh2 := decide (85000 < temp), limited := decide (s.rdI K.hbmTThrottle 32 < temp) } := by
  refine (State.stack_setStack ..).trans ?_
  rw [State.wrI_eq, hbmThrottle_wr s hst]

theorem State.hbmLimited_spec (s : State) {st : Nat} (hst : st < 16) (temp : Int) : s.HeatOnly (s.hbmLimited st temp) ∧
    (s.hbmLimited st temp).insts = s.insts ∧ (s.hbmLimited st temp).hbmStacks = (s.stackRead st temp).hbmStacks ∧
    (∀ k, k ∉ logKeys → (s.hbmLimited st temp).rd k = (s.stackRead st temp).rd k) ∧
    (s.rdI K.hbmTThrottle 32 < temp → (s.stack st).limited = false →
      ∃ y l, (s.hbmLimited st temp).log = y :: l ∧ y.record % 2 ^ 16 = 0x1009) := by
  unfold State.hbmLimited
  simp only [State.wrI_eq, hbmThrottle_wr s hst, Bool.and_eq_true, decide_eq_true_eq, Bool.not_eq_true']
  by_cases hnew : s.rdI K.hbmTThrottle 32 < temp ∧ (s.stack st).limited = false
  · rw [if_pos hnew]
    refine ⟨State.HeatOnly.trans (t := s.stackRead st temp) rfl (State.heatOnly_logMg ..), State.logMg_insts ..,
      State.logMg_hbmStacks .., fun k hk => State.logMg_rd _ _ _ _ _ _ _ _ hk, fun _ _ => ?_⟩
    obtain ⟨y, -, -, -, hcode, -, hlog⟩ := (s.stackRead st temp).log_logMg noInst 0x1009 1 0 noSlot st (unsignedAt 32 temp)
    exact ⟨y, _, hlog, hcode⟩
  · rw [if_neg hnew]
    exact ⟨rfl, rfl, rfl, fun _ _ => rfl, fun h h' => absurd ⟨h, h'⟩ hnew⟩

theorem exec_hbmTempRead_limited (s : State) (st : StackId) (temp : Int) :
    exec (.hbmTempRead st temp) s = match (s.hbmLimited st.val temp).instOfPanel (stackPanel st.val) with
      | none => .next (s.hbmLimited st.val temp)
      | some i => if (s.hbmLimited st.val temp).rdI K.hbmTStop 32 < temp then
            .next ((s.hbmLimited st.val temp).heatHold i (0x100 + st.val))
          else if temp < (s.hbmLimited st.val temp).rdI K.hbmTThrottle 32 then
            .next ((s.hbmLimited st.val temp).heatRelease i fun c => c == 0x100 + st.val)
          else .next (s.hbmLimited st.val temp) := rfl

theorem instOfPanel_lt {s : State} {p i : Nat} (h : s.instOfPanel p = some i) : i < 12 :=
  List.mem_range.1 (List.mem_of_find?_eq_some h)

end Sys2Proof.Machine
end

section
/-! Time sources and HBM stacks: O53. -/

namespace Sys2Proof.Machine

/-! ## PTP (R381) -/

/-- The segment's clock ranks its grandmaster. -/
def State.ptpRanked (s : State) (g rank : Nat) : State := { s with ptp := mapSet (fun _ => 0) s.ptp g (rank + 1) }

/-- The supplying segment's entries after a message of its grandmaster. -/
def State.ptpSupplied (s : State) (g : Nat) (offset : Int) : State := (s.wr K.ptpSegment g).wrI K.ptpOffset 64 offset

theorem exec_ptpMessage_not {s : State} {g : Fin 2} {m : PtpMsg}
    (h : m.domain ≠ s.rd K.ptpDomain ∨ s.rd (K.segEnable g.val) = 0) : exec (.ptpMessage g m) s = .next s := if_pos h

theorem exec_ptpMessage_ranked {s : State} {g : Fin 2} {m : PtpMsg} (hd : m.domain = s.rd K.ptpDomain)
    (he : s.rd (K.segEnable g.val) ≠ 0) (hb : (s.ptpRanked g.val m.rank).bestSegment ≠ some g.val) :
    exec (.ptpMessage g m) s = .next (s.ptpRanked g.val m.rank) :=
  (if_neg (not_or.2 ⟨not_not_intro hd, he⟩)).trans (if_neg hb)

theorem State.ptpSupplied_fromMaster (s : State) (g : Nat) (o : Int) :
    (s.ptpSupplied g o).timeFromMaster = s.timeFromMaster := by
  unfold State.timeFromMaster State.ptpSupplied
  rw [State.wrI_eq, State.rd_wr_ne _ _ _ _ (by decide), State.rd_wr_ne _ _ _ _ (by decide), State.rd_wr_ne _ _ _ _ (by decide),
    State.rd_wr_ne _ _ _ _ (by decide)]

theorem exec_ptpMessage_best {s : State} {g : Fin 2} {m : PtpMsg} (hd : m.domain = s.rd K.ptpDomain)
    (he : s.rd (K.segEnable g.val) ≠ 0) (hb : (s.ptpRanked g.val m.rank).bestSegment = some g.val) :
    exec (.ptpMessage g m) s = .next (if s.timeFromMaster then
      (((s.ptpRanked g.val m.rank).ptpSupplied g.val m.offset).wr K.ptpState 1) else
      (((s.ptpRanked g.val m.rank).ptpSupplied g.val m.offset).wr K.ptpState 2).setWall
        (((s.ptpRanked g.val m.rank).ptpSupplied g.val m.offset).ptpTime m.time) 0) := by
  have hmaster : ((s.ptpRanked g.val m.rank).ptpSupplied g.val m.offset).timeFromMaster = s.timeFromMaster :=
    State.ptpSupplied_fromMaster ..
  rw [← hmaster]
  exact (if_neg (not_or.2 ⟨not_not_intro hd, he⟩)).trans (if_pos hb)

/-- The supplying segment's entries, whatever state is written after them. -/
theorem State.ptpSupplied_holds (s : State) (g : Nat) (o : Int) (x : Nat) :
    ((s.ptpSupplied g o).wr K.ptpState x).rd K.ptpSegment = g ∧ ((s.ptpSupplied g o).wr K.ptpState x).rd K.ptpState = x ∧
    ((s.ptpSupplied g o).wr K.ptpState x).rd K.ptpOffset = unsignedAt 64 o ∧
    ∀ k, k ∉ [K.ptpSegment, K.ptpState, K.ptpOffset] → ((s.ptpSupplied g o).wr K.ptpState x).rd k = s.rd k := by
  refine ⟨?segment, State.rd_wr .., ?offset, fun k hk => ?_⟩
  case segment =>
    exact (State.rd_wr_ne _ _ _ _ (by decide)).trans ((State.rd_wr_ne _ _ _ _ (by decide)).trans (State.rd_wr ..))
  case offset => exact (State.rd_wr_ne _ _ _ _ (by decide)).trans (State.rd_wr ..)
  · simp only [List.mem_cons, List.not_mem_nil, or_false, not_or] at hk
    obtain ⟨hsegment, hstate, hoffset⟩ := hk
    exact (State.rd_wr_ne _ _ _ _ hstate).trans ((State.rd_wr_ne _ _ _ _ hoffset).trans (State.rd_wr_ne _ _ _ _ hsegment))

theorem State.ptpTime_ptpSupplied (s : State) (g : Nat) (o : Int) (v : Nat) :
    (s.ptpSupplied g o).ptpTime v = s.ptpTime v := by
  unfold State.ptpTime State.ptpSupplied
  rw [State.wrI_eq, State.rd_wr_ne _ _ _ _ (by decide), State.rd_wr_ne _ _ _ _ (by decide)]
  rfl

/-- Wall time is set before anything else has set it: the time until then is logged (R414). -/
theorem State.setWall_first {s : State} (h : s.wallTaken = false) (v source : Nat) :
    s.setWall v source = ({ s with time := v % 2 ^ 64, wallTaken := true }).logMg noInst 0x0501 0 0 noSlot source s.time := by
  unfold State.setWall
  dsimp only
  rw [h]
  rfl

theorem State.setWall_again {s : State} (h : s.wallTaken = true) (v source : Nat) :
    s.setWall v source = { s with time := v % 2 ^ 64 } := by
  unfold State.setWall
  dsimp only
  rw [h, Bool.not_true, if_neg Bool.false_ne_true, ← h]

/-- Wall time is v, aligned to PPS_IN (R381). -/
def State.ppsAligned (s : State) (v : Nat) : State := State.wr { s with time := v } K.ppsLocked 1

theorem State.ppsAligned_spec (s : State) (v : Nat) : s.ppsAligned v = { s with dict := (s.ppsAligned v).dict, time := v } ∧
    (s.ppsAligned v).rd K.ppsLocked = 1 ∧ ∀ k, k ≠ K.ppsLocked → (s.ppsAligned v).rd k = s.rd k :=
  ⟨rfl, State.rd_wr .., fun _ hk => State.rd_wr_ne _ _ _ _ hk⟩

theorem exec_ppsInEdge_taken {s : State} (h : s.wallTaken = true) (hm : s.timeFromMaster = false) :
    exec .ppsInEdge s = .next (s.ppsAligned ((s.time + 500000000) / 1000000000 * 1000000000)) := by
  rw [exec_ppsInEdge]
  unfold execPpsInEdge State.ppsAligned
  rw [h, hm]
  exact if_neg (by decide)

/-- With both ranks seen, none but the other segment is left once the supplying one is lost. -/
theorem State.best_lost {s : State} {n h : Nat} (hle : n ≤ 1)
    (hbest : ({ s with ptp := mapSet (fun _ => 0) s.ptp n 0 } : State).bestSegment = some h) : h = 1 - n := by
  have hlost := mapGet_set_self (fun _ => 0) s.ptp n 0
  unfold State.bestSegment at hbest
  dsimp only at hbest
  obtain rfl | rfl : n = 0 ∨ n = 1 := by omega
  · simp only [hlost, if_true] at hbest
    split_ifs at hbest
    exact (Option.some.inj hbest).symm
  · simp only [hlost, if_true] at hbest
    split_ifs at hbest
    exact (Option.some.inj hbest).symm

theorem State.logged_logMg (s : State) (inst code cls cause slot arg0 arg1 : Nat) (h : code % 2 ^ 16 = code) :
    (s.logMg inst code cls cause slot arg0 arg1).Logged code cls := by
  obtain ⟨y, hsource, -, hcls, hcode, -, hlog⟩ := s.log_logMg inst code cls cause slot arg0 arg1
  exact ⟨y, by rw [hlog]; rfl, hsource, hcls, hcode.trans h⟩

theorem hbmTemp_not_logKey {st : StackId} : K.hbmTemp st.val ∉ logKeys :=
  not_logKey (by have := st.isLt; unfold K.hbmTemp; omega)

theorem instState_ne_hbmTemp (i : Nat) (st : StackId) : K.instState i ≠ K.hbmTemp st.val := by
  unfold K.instState K.hbmTemp
  omega

theorem hbmTStop_ne_hbmTemp (st : StackId) : K.hbmTStop ≠ K.hbmTemp st.val := by
  unfold K.hbmTStop K.hbmTemp
  omega

theorem hbmTThrottle_ne_hbmTemp (st : StackId) : K.hbmTThrottle ≠ K.hbmTemp st.val := by
  unfold K.hbmTThrottle K.hbmTemp
  omega

/-- A word with an error is corrected or poisoned, and counted (R382). -/
theorem scrubbed_word {s : State} {st : StackId} {w : Nat} {found : Ecc} (hw : w < 2 ^ 33)
    (he : s.scrubFinds st.val w found ≠ 0) :
    let e := s.scrubFinds st.val w found
    let a := 2 ^ 33 * st.val + w
    let counter := if e = 1 then K.eccCorrected st.val else K.eccUncorrectable st.val
    ∃ t, exec (.hbmPatrolScrub st w found) s = .next t ∧
      t = { s with dict := t.dict, hbmErr := t.hbmErr, hbmPoison := t.hbmPoison } ∧
      t.rd counter = (s.rd counter + 1) % 2 ^ 64 ∧ (∀ k, k ≠ counter → t.rd k = s.rd k) ∧
      (∀ b, mapGet (fun _ => 0) t.hbmErr b = if b = a then 0 else mapGet (fun _ => 0) s.hbmErr b) ∧
      ∀ b, mapGet (fun _ => false) t.hbmPoison b =
        (if e ≠ 1 ∧ b = a then true else mapGet (fun _ => false) s.hbmPoison b) := by
  intro e a counter
  by_cases hone : e = 1
  · have hcounter : counter = K.eccCorrected st.val := if_pos hone
    rw [hcounter]
    refine ⟨_, exec_hbmPatrolScrub_single hw hone, rfl, State.rd_wr .., fun k hk => State.rd_wr_ne _ _ _ _ hk,
      fun b => mapGet_set (fun _ => 0) s.hbmErr a b 0, fun b => (if_neg fun h => h.1 hone).symm⟩
  · have hcounter : counter = K.eccUncorrectable st.val := if_neg hone
    rw [hcounter]
    refine ⟨_, exec_hbmPatrolScrub_poison hw he hone, rfl, State.rd_wr .., fun k hk => State.rd_wr_ne _ _ _ _ hk,
      fun b => mapGet_set (fun _ => 0) s.hbmErr a b 0, fun b => (mapGet_set (fun _ => false) s.hbmPoison a b true).trans ?_⟩
    exact if_congr (and_iff_right hone).symm rfl rfl

/-- Settles O53. -/
theorem timeSourcesAndMemoryStacks : Obligations.TimeSourcesAndMemoryStacks := by
  unfold Obligations.TimeSourcesAndMemoryStacks
  intro s g m st w temp found ranked lost x OnlyStack
  refine ⟨fun h => exec_ptpMessage_not h,
    fun hd he => ⟨fun hb => exec_ptpMessage_ranked hd he hb, fun hb => ⟨fun hset => ?again, fun hmaster hfirst => ?first⟩⟩,
    fun h => if_pos h, fun hle => ⟨fun hbest => ?silent, fun n hbest => ?other⟩, fun h => ?pps, fun h => ?noPps,
    fun h => ⟨_, congrArg Host.Outcome.next (if_pos h), s.onlyEntries_wr .., s.rd_wr ..⟩,
    fun h => congrArg Host.Outcome.next (if_neg (ne_true_of_eq_false h)), fun h => exec_hbmPatrolScrub_out h,
    fun hw => ⟨fun he => exec_hbmPatrolScrub_clean hw he, fun he => ?scrub⟩, ?temperature,
    fun h => if_pos h, fun hzero htwo => ⟨fun i hi => ?waits, fun hi => ?atOnce⟩, fun h => ?done, fun h => if_neg h⟩
  case again =>
    have hexec := exec_ptpMessage_best hd he hb
    obtain ⟨hsegment, hstate, hoffset, hrd⟩ := State.ptpSupplied_holds ranked g.val m.offset (if s.timeFromMaster then 1 else 2)
    by_cases hmaster : s.timeFromMaster = true
    · rw [if_pos hmaster] at hexec hstate hsegment hoffset hrd ⊢
      exact ⟨_, hexec, rfl, rfl, hsegment, by rw [if_pos hmaster]; exact hstate, hoffset, hrd⟩
    · rw [if_neg hmaster] at hexec hstate hsegment hoffset hrd ⊢
      have htaken : s.wallTaken = true := hset.resolve_left hmaster
      rw [State.setWall_again (s := ((s.ptpRanked g.val m.rank).ptpSupplied g.val m.offset).wr K.ptpState 2) htaken,
        State.ptpTime_ptpSupplied] at hexec
      exact ⟨_, hexec, rfl, rfl, hsegment, by rw [if_neg hmaster]; exact hstate, hoffset, hrd⟩
  case first =>
    have hexec := exec_ptpMessage_best hd he hb
    obtain ⟨hsegment, hstate, hoffset, hrd⟩ := State.ptpSupplied_holds ranked g.val m.offset 2
    rw [if_neg (ne_true_of_eq_false hmaster),
      State.setWall_first (s := ((s.ptpRanked g.val m.rank).ptpSupplied g.val m.offset).wr K.ptpState 2) hfirst,
      State.ptpTime_ptpSupplied] at hexec
    have htime : (s.ptpRanked g.val m.rank).ptpTime m.time = m.time :=
      if_neg fun h => Bool.false_ne_true (hfirst.symm.trans h.2)
    rw [htime] at hexec
    refine ⟨_, hexec, State.logMg_time .., State.logMg_wallTaken .., State.logMg_ptp .., ?_, ?_, ?_, ?_, fun k hlog hk => ?_⟩
    · exact State.logged_logMg _ _ _ _ _ _ _ _ rfl
    · exact (State.logMg_rd _ _ _ _ _ _ _ _ (by decide)).trans hsegment
    · exact (State.logMg_rd _ _ _ _ _ _ _ _ (by decide)).trans hstate
    · exact (State.logMg_rd _ _ _ _ _ _ _ _ (by decide)).trans hoffset
    · exact (State.logMg_rd _ _ _ _ _ _ _ _ hlog).trans (hrd k hk)
  case silent =>
    refine ⟨(lost.wr K.ptpSegment 0xFF).wr K.ptpState 0, ?_, (lost.holds_wr_wr _ _ (by decide)).1, ?_, State.rd_wr ..⟩
    · rw [exec_ptpSegmentSwitch]
      refine (if_neg (Nat.not_lt.2 hle)).trans ?_
      rw [show ({ s with ptp := mapSet (fun _ => 0) s.ptp (s.rd K.ptpSegment) 0 } : State).bestSegment = none from hbest]
    · exact (State.rd_wr_ne _ _ _ _ (by decide)).trans (State.rd_wr ..)
  case other =>
    refine ⟨lost.wr K.ptpSegment n, ?_, lost.onlyEntries_wr .., State.best_lost hle hbest, State.rd_wr ..⟩
    rw [exec_ptpSegmentSwitch]
    refine (if_neg (Nat.not_lt.2 hle)).trans ?_
    rw [show ({ s with ptp := mapSet (fun _ => 0) s.ptp (s.rd K.ptpSegment) 0 } : State).bestSegment = some n from hbest]
  case pps => exact ⟨_, exec_ppsInEdge_taken h.1 h.2, s.ppsAligned_spec _⟩
  case noPps =>
    refine if_pos ?_
    rw [Bool.or_eq_true, Bool.not_eq_true', ← Bool.not_eq_true]
    by_contra hc
    obtain ⟨htaken, hmaster⟩ := not_or.1 hc
    exact h ⟨not_not.1 htaken, eq_false_of_ne_true hmaster⟩
  case scrub => exact scrubbed_word hw he
  case temperature =>
    have hst := st.isLt
    obtain ⟨u, hu⟩ : ∃ u, u = s.hbmLimited st.val temp := ⟨_, rfl⟩
    obtain ⟨hframe, hinsts, hstacks, hrd, hlog⟩ := hu ▸ s.hbmLimited_spec hst temp
    have hother : ∀ k, k ∉ logKeys → k ≠ K.hbmTemp st.val → u.rd k = s.rd k := fun k hk hne =>
      (hrd k hk).trans (State.rd_wr_ne _ _ _ _ hne)
    have htemp : u.rd (K.hbmTemp st.val) = unsignedAt 32 temp := (hrd _ hbmTemp_not_logKey).trans (State.rd_wr ..)
    have hstate : ∀ i : InstId, u.rd (K.instState i.val) = s.rd (K.instState i.val) := fun i =>
      hother _ (instState_not_logKey i) (instState_ne_hbmTemp i.val st)
    have hinst : ∀ i, u.inst i = s.inst i := fun i => (congrArg (fun l => mapGet (fun _ => ({} : Inst)) l i) hinsts :)
    have hpanel : u.instOfPanel (stackPanel st.val) = s.instOfPanel (stackPanel st.val) :=
      State.instOfPanel_congr _ hstate fun i => by rw [hinst]
    have hstop : u.rdI K.hbmTStop 32 = s.rdI K.hbmTStop 32 := congrArg (signedAt 32) (hother _ (by decide) (hbmTStop_ne_hbmTemp st))
    have hthrottle : u.rdI K.hbmTThrottle 32 = s.rdI K.hbmTThrottle 32 :=
      congrArg (signedAt 32) (hother _ (by decide) (hbmTThrottle_ne_hbmTemp st))
    have hexec := exec_hbmTempRead_limited s st temp
    rw [← hu, hpanel, hstop, hthrottle] at hexec
    have hstack : ∀ t : State, t.hbmStacks = u.hbmStacks → OnlyStack t ∧ t.stack st.val =
        { x with refresh2 := decide (85000 < temp), limited := decide (s.rdI K.hbmTThrottle 32 < temp) } := by
      intro t ht
      have hkept : ∀ k, t.stack k = (s.stackRead st.val temp).stack k := fun k =>
        (congrArg (fun l => mapGet (fun _ => ({} : Stack)) l k) (ht.trans hstacks) :)
      exact ⟨fun k hk => (hkept k).trans (State.stack_setStack_ne _ _ _ _ hk), (hkept _).trans (s.stack_stackRead hst temp)⟩
    cases hi : s.instOfPanel (stackPanel st.val) with
    | none =>
      rw [hi] at hexec
      refine ⟨u, hexec, hframe, htemp, (hstack u rfl).1, (hstack u rfl).2, fun h h' => ?_, fun _ => ⟨hinsts, hother⟩,
        fun i hc => absurd hc (Option.some_ne_none i).symm⟩
      obtain ⟨y, l, hy, hcode⟩ := hlog h h'
      exact ⟨y, by rw [hy]; exact List.mem_cons_self, hcode⟩
    | some i =>
      rw [hi] at hexec
      have hiState : u.rd (K.instState i) = s.rd (K.instState i) := hstate ⟨i, instOfPanel_lt hi⟩
      have hne : K.hbmTemp st.val ≠ K.instState i := (instState_ne_hbmTemp i st).symm
      by_cases hover : s.rdI K.hbmTStop 32 < temp
      · obtain ⟨hframe', hstacks', hinst', hinsts', hrd', hlog'⟩ := u.heatHold_spec i (0x100 + st.val)
        refine ⟨_, hexec.trans (if_pos hover), hframe.trans hframe', (hrd' _ hbmTemp_not_logKey).trans htemp,
          (hstack _ hstacks').1, (hstack _ hstacks').2, fun h h' => ?_, fun hc => absurd hc (Option.some_ne_none i), ?_⟩
        · obtain ⟨y, l, hy, hcode⟩ := hlog h h'
          exact ⟨y, hlog' y l hy, hcode⟩
        · intro _ hj
          cases Option.some.inj hj
          refine ⟨fun j hj => (hinsts' j hj).trans (hinst j), fun k hk hne _ => (hrd' k hk).trans (hother k hk hne), ?_⟩
          rw [if_pos hover, hinst', hinst]
          exact ⟨(hrd' _ (instState_not_logKey ⟨i, instOfPanel_lt hi⟩)).trans hiState, rfl⟩
      · by_cases hcool : temp < s.rdI K.hbmTThrottle 32
        · obtain ⟨hframe', hstacks', hlog', hinst', hinsts', hrd', hruns'⟩ :=
            u.heatRelease_spec i (fun c => c == 0x100 + st.val) _ rfl
          refine ⟨_, hexec.trans ((if_neg hover).trans (if_pos hcool)), hframe.trans hframe', (hrd' _ hne).trans htemp,
            (hstack _ hstacks').1, (hstack _ hstacks').2, fun h h' => ?_, fun hc => absurd hc (Option.some_ne_none i), ?_⟩
          · obtain ⟨y, l, hy, hcode⟩ := hlog h h'
            exact ⟨y, by rw [hlog', hy]; exact List.mem_cons_self, hcode⟩
          · intro _ hj
            cases Option.some.inj hj
            refine ⟨fun j hj => (hinsts' j hj).trans (hinst j), fun k hk hne hki => (hrd' k hki).trans (hother k hk hne), ?_⟩
            rw [if_neg hover, if_pos hcool, hinst', hruns', hinst, hiState]
            exact ⟨rfl, rfl⟩
        · refine ⟨u, hexec.trans ((if_neg hover).trans (if_neg hcool)), hframe, htemp, (hstack u rfl).1, (hstack u rfl).2,
            fun h h' => ?_, fun hc => absurd hc (Option.some_ne_none i), ?_⟩
          · obtain ⟨y, l, hy, hcode⟩ := hlog h h'
            exact ⟨y, by rw [hy]; exact List.mem_cons_self, hcode⟩
          · intro _ hj
            cases Option.some.inj hj
            refine ⟨fun j _ => hinst j, fun k hk hne _ => hother k hk hne, ?_⟩
            rw [if_neg hover, if_neg hcool]
            exact ⟨hiState, hinst i⟩

  case waits =>
    refine ⟨(s.setStack st.val { x with retrain := 1 }).change i (.retrain st.val), ?_, rfl, State.stack_setStack ..,
      fun k hk => State.stack_setStack_ne _ _ _ _ hk, State.inst_setInst .., fun j hj => State.inst_setInst_ne _ _ _ _ hj⟩
    rw [exec_retrain]
    refine (if_neg (not_or.2 ⟨not_not_intro hzero, not_not_intro htwo⟩)).trans ?_
    rw [hi]
  case atOnce =>
    refine ⟨(s.setStack st.val { x with retrain := 2 }).wr (K.hbmState st.val) 4, ?_,
      fun k hk => State.stack_setStack_ne _ _ _ _ hk, rfl, State.stack_setStack s .., State.rd_wr ..,
      fun k hk => State.rd_wr_ne _ _ _ _ hk⟩
    rw [exec_retrain]
    refine (if_neg (not_or.2 ⟨not_not_intro hzero, not_not_intro htwo⟩)).trans ?_
    rw [hi]
  case done =>
    exact ⟨_, if_pos h, fun k hk => State.stack_setStack_ne _ _ _ _ hk, rfl, State.stack_setStack s .., State.rd_wr ..,
      fun k hk => State.rd_wr_ne _ _ _ _ hk⟩

end Sys2Proof.Machine
end

section
/-! Zwiys sessions, subscriptions and mailboxes: O51. -/

namespace Sys2Proof.Machine

variable {s : State} {ses : SessId} {m : ZMsg} {r : DictRow}

/-! ## Requests (R398, R401) -/

theorem State.handle_uncarried {op : Nat} (f : State → State × ZAns) (h : s.carries ses = false) :
    s.handle ses m op f = s := by
  unfold State.handle
  rw [h]
  rfl

theorem State.handle_repeat {op : Nat} {b : List Byte} (f : State → State × ZAns) (h : s.carries ses = true)
    (hkept : s.keptFor ses m = some b) : s.handle ses m op f = s.send (chanSes ses) b := by
  unfold State.handle
  rw [h, hkept]
  rfl

theorem State.handle_malformed {op : Nat} (f : State → State × ZAns) (h : s.carries ses = true)
    (hkept : s.keptFor ses m = none) (hform : malformed m op = true) :
    s.handle ses m op f = s.respond ses m (responseBytes m { status := 7 }) := by
  unfold State.handle
  rw [h, hkept, hform]
  rfl

theorem State.withEntry_none (f : DictRow → State × ZAns) (hentry : s.entryFor ses m = none) :
    s.withEntry ses m f = (s, { status := 1 }) := by
  unfold State.withEntry
  rw [hentry]

theorem State.withEntry_unlisted (f : DictRow → State × ZAns) (hentry : s.entryFor ses m = some r)
    (hrole : r.roles.contains (sesRole ses) = false) :
    s.withEntry ses m f = (s, { status := 2, type := r.ty.code }) := by
  unfold State.withEntry
  rw [hentry]
  exact if_neg (ne_true_of_eq_false hrole)

/-! ## Subscriptions (R409) -/

/-- What SUBSCRIBE does with an entry that the session sees and may read. -/
def State.subscribed (s : State) (ses : SessId) (m : ZMsg) (r : DictRow) : State :=
  s.setSes (sesNo ses) { s.ses (sesNo ses) with subs := (s.ses (sesNo ses)).subs ++
    [⟨m.requestId.toNat, m.index, m.sub, m.total, 0, s.valueFor ses r (m.index * 256 + m.sub)⟩] }

theorem State.subscribe_mailbox (h : isMailbox ses = true) : s.subscribe ses m = (s, { status := 0xF }) := if_pos h

/-- SUBSCRIBE on a session that may subscribe, of an entry whose roles list the session's. -/
theorem State.subscribe_listed (h : isMailbox ses = false) (hentry : s.entryFor ses m = some r)
    (hrole : r.roles.contains (sesRole ses) = true) : s.subscribe ses m =
      if r.acc = .wo then (s, { status := 2, type := r.ty.code })
      else if 60000 < m.total then (s, { status := 4, type := r.ty.code })
      else if 64 ≤ (s.ses (sesNo ses)).subs.length then (s, { status := 0xF, type := r.ty.code })
      else (s.subscribed ses m r, { status := 0, type := r.ty.code }) :=
  (if_neg (ne_true_of_eq_false h)).trans (withEntry_of_listed _ hentry hrole)

theorem State.subscribe_open (h : isMailbox ses = false) : s.subscribe ses m = s.withEntry ses m fun r =>
      if r.acc = .wo then (s, { status := 2, type := r.ty.code })
      else if 60000 < m.total then (s, { status := 4, type := r.ty.code })
      else if 64 ≤ (s.ses (sesNo ses)).subs.length then (s, { status := 0xF, type := r.ty.code })
      else (s.subscribed ses m r, { status := 0, type := r.ty.code }) := if_neg (ne_true_of_eq_false h)

theorem State.unsubscribe_refused (h : isMailbox ses = true ∨
    ∀ y ∈ (s.ses (sesNo ses)).subs, y.number ≠ m.requestId.toNat) : s.unsubscribe ses m = (s, { status := 0xF }) := by
  refine if_pos ?_
  rw [Bool.or_eq_true, Bool.not_eq_true', List.any_eq_false]
  exact h.imp id fun hnone y hy => fun hc => hnone y hy (beq_iff_eq.1 hc)

theorem State.unsubscribe_named (h : isMailbox ses = false)
    (hnamed : ∃ y ∈ (s.ses (sesNo ses)).subs, y.number = m.requestId.toNat) : s.unsubscribe ses m =
      (s.setSes (sesNo ses) { s.ses (sesNo ses) with
        subs := (s.ses (sesNo ses)).subs.filter fun y => y.number != m.requestId.toNat }, { status := 0 }) := by
  obtain ⟨y, hy, hnumber⟩ := hnamed
  refine if_neg ?_
  rw [Bool.or_eq_true, Bool.not_eq_true', not_or, Bool.not_eq_false, List.any_eq_true]
  exact ⟨ne_true_of_eq_false h, y, hy, beq_iff_eq.2 hnumber⟩

/-! ## Notifications (R409) -/

/-- The subscription named counts a notification and remembers its value. -/
def subsNotified (l : List Subscr) (id : Nat) (last : Subscr → List Byte) : List Subscr :=
  l.map fun z => if z.number = id then { z with count := z.count + 1, last := last z } else z

theorem exec_notify_none {id : Nat} {full : Bool} (h : (s.ses (sesNo ses)).subs.find? (fun y => y.number == id) = none) :
    exec (.notify ses id full) s = .next s := by
  rw [exec_notify]
  unfold execNotify
  dsimp only
  rw [h]

theorem exec_notify_noRow {id : Nat} {full : Bool} {y : Subscr}
    (h : (s.ses (sesNo ses)).subs.find? (fun y => y.number == id) = some y) (hrow : dictRow y.index y.sub = none) :
    exec (.notify ses id full) s = .next s := by
  rw [exec_notify]
  unfold execNotify
  dsimp only
  rw [h]
  dsimp only
  rw [hrow]

section

variable {id : Nat} {y : Subscr} (h : (s.ses (sesNo ses)).subs.find? (fun y => y.number == id) = some y)
  (hrow : dictRow y.index y.sub = some r)

include h hrow

theorem exec_notify_unchanged {full : Bool} (hperiod : y.period = 0)
    (hsame : s.valueFor ses r (y.index * 256 + y.sub) = y.last) : exec (.notify ses id full) s = .next s := by
  rw [exec_notify]
  unfold execNotify
  dsimp only
  rw [h]
  dsimp only
  rw [hrow]
  exact if_pos ⟨hperiod, hsame⟩

theorem exec_notify_lost (hdue : y.period ≠ 0 ∨ s.valueFor ses r (y.index * 256 + y.sub) ≠ y.last) :
    exec (.notify ses id true) s = .next ((s.setSes (sesNo ses) { s.ses (sesNo ses) with
      subs := subsNotified (s.ses (sesNo ses)).subs id Subscr.last }).bump K.notifyLost 32 1) := by
  rw [exec_notify]
  unfold execNotify
  dsimp only
  rw [h]
  dsimp only
  rw [hrow]
  refine (if_neg (not_and_or.2 hdue)).trans ?_
  rfl

theorem exec_notify_sent (hdue : y.period ≠ 0 ∨ s.valueFor ses r (y.index * 256 + y.sub) ≠ y.last) :
    exec (.notify ses id false) s = .next ((s.setSes (sesNo ses) { s.ses (sesNo ses) with
      subs := subsNotified (s.ses (sesNo ses)).subs id fun _ => s.valueFor ses r (y.index * 256 + y.sub) }).send (chanSes ses)
        (msgBytes 5 0 0 (y.number % 65536 + 65536 * (y.count % 65536)) y.index y.sub r.ty.code 0
          (if r.ty.bytes then (s.valueFor ses r (y.index * 256 + y.sub)).length else 0)
          (if y.period = 0 ∧ y.index * 256 + y.sub = K.logHead then (s.log.head?.map LogEntry.bytes).getD []
            else (s.valueFor ses r (y.index * 256 + y.sub)).take 1024))) := by
  rw [exec_notify]
  unfold execNotify
  dsimp only
  rw [h]
  dsimp only
  rw [hrow]
  refine (if_neg (not_and_or.2 hdue)).trans ((if_neg Bool.false_ne_true).trans ?_)
  have hentry : (y.period == 0 && y.index * 256 + y.sub == K.logHead) = true ↔
      y.period = 0 ∧ y.index * 256 + y.sub = K.logHead := by
    rw [Bool.and_eq_true, beq_iff_eq, beq_iff_eq]
  simp only [hentry]
  rfl

end

/-- Settles O51. -/
theorem zwiysSessionsAndSubscriptions : Obligations.ZwiysSessionsAndSubscriptions := by
  unfold Obligations.ZwiysSessionsAndSubscriptions
  intro s ses m r client id seg d v full n x key c OnlySes Answers
  have hset : ∀ k y, OnlySes (s.setSes k y) k := fun k y => ⟨rfl, fun j hj => s.ses_setSes_ne k y j hj⟩
  have hrefuse : ∀ {i : Instr} {op : Nat} {f : State → State × ZAns} {a : ZAns},
      exec i s = .next (s.handle ses m op f) → s.carries ses = true → s.keptFor ses m = none → malformed m op = false →
      f s = (s, a) → Answers i a := fun hi hcarries hkept hform hf => hi.trans (by
    rw [handle_of_fresh _ hcarries hkept hform, hf])
  refine ⟨⟨_, rfl, hset .., s.ses_setSes ..⟩, ⟨_, rfl, hset .., s.ses_setSes ..⟩, fun i hi => ⟨fun h => ?uncarried,
    fun h b hb => ?again⟩, fun hcarries hkept => ⟨fun hform => congrArg _ (State.handle_malformed _ hcarries hkept hform),
    fun hform => congrArg _ (State.handle_malformed _ hcarries hkept hform), fun hform => ⟨fun hmail => ?mailbox,
    fun hmail hentry => ?noEntry, fun hmail hentry => ⟨fun hnot => ?noRight, fun hrole hacc => ?subscribes⟩⟩,
    fun hform => ⟨fun hnone => ?notNamed, fun hmail hnamed => ?named⟩⟩, fun h => exec_notify_none h,
    fun y h hrow => exec_notify_noRow h hrow, fun y h hrow => ⟨fun hperiod hsame => exec_notify_unchanged h hrow hperiod hsame,
    fun hdue => ⟨?lost, ?sent⟩⟩, ⟨_, rfl, rfl, fun k => ?expiry⟩, fun h => if_pos (by rw [h]; rfl),
    fun hmail => ⟨fun hfree => ?rings, fun hfree hv => ?notOne, fun hbusy => ?ignored⟩, fun h => if_pos h,
    fun hseg => ⟨fun k hk hlisted => ?opens, fun hno => ?refused⟩, ⟨_, rfl, hset .., s.ses_setSes ..⟩⟩
  case uncarried =>
    rcases List.mem_pair.1 hi with rfl | rfl
    · exact congrArg _ (State.handle_uncarried _ h)
    · exact congrArg _ (State.handle_uncarried _ h)
  case again =>
    rcases List.mem_pair.1 hi with rfl | rfl
    · exact congrArg _ (State.handle_repeat _ h hb)
    · exact congrArg _ (State.handle_repeat _ h hb)
  case mailbox => exact hrefuse rfl hcarries hkept hform (State.subscribe_mailbox hmail)
  case noEntry =>
    exact hrefuse rfl hcarries hkept hform ((State.subscribe_open hmail).trans (State.withEntry_none _ hentry))
  case noRight =>
    refine hrefuse rfl hcarries hkept hform ?_
    by_cases hrole : r.roles.contains (sesRole ses) = true
    · exact (State.subscribe_listed hmail hentry hrole).trans (if_pos (hnot.resolve_left fun hc => by
        rw [hc] at hrole
        exact Bool.false_ne_true hrole))
    · exact (State.subscribe_open hmail).trans (State.withEntry_unlisted _ hentry (eq_false_of_ne_true hrole))
  case subscribes =>
    have hlisted := (State.subscribe_listed hmail hentry hrole).trans (if_neg hacc)
    refine ⟨fun htotal => ?_, fun htotal hlong => ?_, fun htotal hroom => ?_⟩
    · exact hrefuse rfl hcarries hkept hform (hlisted.trans (if_pos htotal))
    · exact hrefuse rfl hcarries hkept hform (hlisted.trans ((if_neg (Nat.not_lt.2 htotal)).trans (if_pos hlong)))
    · have hdone := hlisted.trans ((if_neg (Nat.not_lt.2 htotal)).trans (if_neg (Nat.not_le.2 hroom)))
      rw [exec_subscribe]
      unfold execSubscribe
      rw [handle_of_fresh _ hcarries hkept hform, hdone]
      rfl
  case notNamed => exact hrefuse rfl hcarries hkept hform (State.unsubscribe_refused hnone)
  case named =>
    rw [exec_unsubscribe]
    unfold execUnsubscribe
    rw [handle_of_fresh _ hcarries hkept hform, State.unsubscribe_named hmail hnamed]
  case lost =>
    exact ⟨_, exec_notify_lost h hrow hdue, rfl, s.ses_setSes .., fun j hj => s.ses_setSes_ne _ _ j hj, State.rd_wr ..,
      fun k hk => State.rd_wr_ne _ _ _ _ hk⟩
  case sent => exact ⟨_, exec_notify_sent h hrow hdue, rfl, s.ses_setSes .., fun j hj => s.ses_setSes_ne _ _ j hj, rfl⟩
  case expiry =>
    rw [List.mem_filter, Bool.not_eq_true', Bool.and_eq_false_iff, beq_eq_false_iff_ne, beq_eq_false_iff_ne, not_and_or]
  case rings =>
    refine ⟨_, (if_neg ?_).trans ((if_neg (ne_true_of_eq_false hfree)).trans (if_neg (not_not_intro rfl))), hset ..,
      s.ses_setSes ..⟩
    rw [hmail]
    exact Bool.false_ne_true
  case notOne =>
    refine (if_neg ?_).trans ((if_neg (ne_true_of_eq_false hfree)).trans (if_pos hv))
    rw [hmail]
    exact Bool.false_ne_true
  case ignored =>
    refine ⟨_, (if_neg ?_).trans (if_pos hbusy), s.onlyEntries_wr .., State.rd_wr ..⟩
    rw [hmail]
    exact Bool.false_ne_true
  case opens =>
    refine ⟨s.setSes k { isOpen := true, cert := client, segment := seg.val }, ?_, hset .., s.ses_setSes ..⟩
    rw [exec_dtlsHandshake]
    refine (if_neg hseg).trans ?_
    rw [hk]
    exact if_pos hlisted
  case refused =>
    refine ⟨s.bump K.sessionsRefused 32 1, ?_, s.onlyEntries_wr .., State.rd_wr ..⟩
    rw [exec_dtlsHandshake]
    refine (if_neg hseg).trans ?_
    cases hfind : (List.range 16).find? (fun j => !(s.ses j).isOpen) with
    | none => rfl
    | some k =>
      refine if_neg (ne_true_of_eq_false (hno.resolve_left fun hall => ?_))
      have hopen := List.find?_some hfind
      rw [hall k (List.mem_range.1 (List.mem_of_find?_eq_some hfind))] at hopen
      exact Bool.false_ne_true hopen

end Sys2Proof.Machine
end

section
/-! Writes of a Zwiys session (R399-R407): which check of a write answers it, and what follows its response. -/

namespace Sys2Proof.Machine

variable {s : State} {ses : SessId} {m : ZMsg} {r : DictRow}

/-! ## Rows -/

/-- An entry that a session sees is an entry of the dictionary. -/
theorem State.row_of_entryFor (h : s.entryFor ses m = some r) : dictRow m.index m.sub = some r := by
  unfold State.entryFor at h
  split at h
  · split_ifs at h
    exact Option.some.inj h ▸ ‹_›
  · exact h

/-- Index and subindex of a message are the two parts of its key. -/
theorem key_parts (hsub : m.sub < 256) : (m.index * 256 + m.sub) / 256 = m.index ∧ (m.index * 256 + m.sub) % 256 = m.sub := by
  omega

theorem resetCmd_row : (dictRow 0xA070 0x04).map (fun r => (r.acc, r.ty)) = some (.wo, .u8) := by decide +kernel
theorem commit_row : (dictRow 0x1200 0x02).map (fun r => (r.acc, r.ty, r.shape [1])) = some (.wo, .bool, 0) := by decide +kernel
theorem discard_row : (dictRow 0x1200 0x03).map (fun r => (r.acc, r.ty, r.shape [1])) = some (.wo, .bool, 0) := by decide +kernel

theorem resetCmd_entry (hsub : m.sub < 256) (hkey : m.index * 256 + m.sub = K.resetCmd) (h : s.entryFor ses m = some r) :
    r.acc = .wo ∧ r.ty = .u8 := by
  have hidx : m.index = 0xA070 ∧ m.sub = 0x04 := by
    unfold K.resetCmd at hkey
    omega
  have hrow := State.row_of_entryFor h
  rw [hidx.1, hidx.2] at hrow
  have hfields := resetCmd_row
  rw [hrow] at hfields
  exact Prod.mk.inj (Option.some.inj hfields)

theorem commit_entry (hsub : m.sub < 256) (hkey : m.index * 256 + m.sub = K.commit) (h : s.entryFor ses m = some r) :
    r.acc = .wo ∧ r.ty = .bool ∧ r.shape [1] = 0 := by
  have hidx : m.index = 0x1200 ∧ m.sub = 0x02 := by
    unfold K.commit at hkey
    omega
  have hrow := State.row_of_entryFor h
  rw [hidx.1, hidx.2] at hrow
  have hfields := commit_row
  rw [hrow] at hfields
  obtain ⟨hacc, hrest⟩ := Prod.mk.inj (Option.some.inj hfields)
  exact ⟨hacc, Prod.mk.inj hrest⟩

theorem discard_entry (hsub : m.sub < 256) (hkey : m.index * 256 + m.sub = K.discard) (h : s.entryFor ses m = some r) :
    r.acc = .wo ∧ r.ty = .bool ∧ r.shape [1] = 0 := by
  have hidx : m.index = 0x1200 ∧ m.sub = 0x03 := by
    unfold K.discard at hkey
    omega
  have hrow := State.row_of_entryFor h
  rw [hidx.1, hidx.2] at hrow
  have hfields := discard_row
  rw [hrow] at hfields
  obtain ⟨hacc, hrest⟩ := Prod.mk.inj (Option.some.inj hfields)
  exact ⟨hacc, Prod.mk.inj hrest⟩

/-! ## The checks of a write (R399, R400, R402, R404) -/

/-- The answer to a write of an entry of row r: what was done, and its status with the entry's type. -/
def DictRow.answer (r : DictRow) (q : State × Nat) : State × ZAns := (q.1, { status := q.2, type := r.ty.code })

/-- The checks of a write, in their order (log entry 42). -/
theorem zwrite_listed (hentry : s.entryFor ses m = some r) (hrole : r.roles.contains (sesRole ses) = true) :
    s.zwrite ses m =
      if bit m.flags.toNat 0 ∧ (sesRole ses = .T ∨ r.acc ≠ .rw ∨ blockAddressed (m.index * 256 + m.sub)) then r.answer (s, 9)
      else if r.acc = .ro ∨ r.acc = .const then r.answer (s, 3)
      else if r.ty ≠ .blob then
        (if m.offset ≠ 0 then r.answer (s, 7)
         else r.answer (s.wholeWrite ses r (m.index * 256 + m.sub) (bit m.flags.toNat 0) m.payload))
      else if r.max < m.offset + m.payload.length then r.answer (s, 0xD)
      else if blockAddressed (m.index * 256 + m.sub) then r.answer (s.blockWrite (m.index * 256 + m.sub) m.offset m.payload)
      else r.answer (s.blobBlock ses r m) := withEntry_of_listed _ hentry hrole

section

variable (hentry : s.entryFor ses m = some r) (hrole : r.roles.contains (sesRole ses) = true)

include hentry hrole

/-- A direct write of an entry that may not be written. -/
theorem zwrite_readOnly (hbaste : bit m.flags.toNat 0 = false) (hacc : r.acc = .ro ∨ r.acc = .const) :
    s.zwrite ses m = r.answer (s, 3) := by
  rw [zwrite_listed hentry hrole, if_neg (by simp [hbaste])]
  exact if_pos hacc

variable (hpass : ¬(bit m.flags.toNat 0 = true ∧ (sesRole ses = .T ∨ r.acc ≠ .rw ∨
  blockAddressed (m.index * 256 + m.sub) = true))) (hacc : r.acc = .rw ∨ r.acc = .wo)

include hpass hacc

theorem zwrite_writable : s.zwrite ses m =
      if r.ty ≠ .blob then
        (if m.offset ≠ 0 then r.answer (s, 7)
         else r.answer (s.wholeWrite ses r (m.index * 256 + m.sub) (bit m.flags.toNat 0) m.payload))
      else if r.max < m.offset + m.payload.length then r.answer (s, 0xD)
      else if blockAddressed (m.index * 256 + m.sub) then r.answer (s.blockWrite (m.index * 256 + m.sub) m.offset m.payload)
      else r.answer (s.blobBlock ses r m) := by
  rw [zwrite_listed hentry hrole, if_neg hpass]
  refine if_neg ?_
  rcases hacc with h | h
  · simp [h]
  · simp [h]

theorem zwrite_offset (hty : r.ty ≠ .blob) (hoff : m.offset ≠ 0) : s.zwrite ses m = r.answer (s, 7) :=
  (zwrite_writable hentry hrole hpass hacc).trans ((if_pos hty).trans (if_pos hoff))

theorem zwrite_whole (hty : r.ty ≠ .blob) (hoff : m.offset = 0) : s.zwrite ses m =
    r.answer (s.wholeWrite ses r (m.index * 256 + m.sub) (bit m.flags.toNat 0) m.payload) :=
  (zwrite_writable hentry hrole hpass hacc).trans ((if_pos hty).trans (if_neg (not_not_intro hoff)))

theorem zwrite_tooLong (hty : r.ty = .blob) (hlen : r.max < m.offset + m.payload.length) :
    s.zwrite ses m = r.answer (s, 0xD) :=
  (zwrite_writable hentry hrole hpass hacc).trans ((if_neg (not_not_intro hty)).trans (if_pos hlen))

theorem zwrite_block (hty : r.ty = .blob) (hlen : m.offset + m.payload.length ≤ r.max)
    (hblock : blockAddressed (m.index * 256 + m.sub) = true) :
    s.zwrite ses m = r.answer (s.blockWrite (m.index * 256 + m.sub) m.offset m.payload) :=
  (zwrite_writable hentry hrole hpass hacc).trans
    ((if_neg (not_not_intro hty)).trans ((if_neg (Int.not_lt.2 hlen)).trans (if_pos hblock)))

theorem zwrite_collect (hty : r.ty = .blob) (hlen : m.offset + m.payload.length ≤ r.max)
    (hblock : blockAddressed (m.index * 256 + m.sub) = false) : s.zwrite ses m = r.answer (s.blobBlock ses r m) :=
  (zwrite_writable hentry hrole hpass hacc).trans
    ((if_neg (not_not_intro hty)).trans ((if_neg (Int.not_lt.2 hlen)).trans (if_neg (ne_true_of_eq_false hblock))))

end

/-! ## A whole value (R403-R407) -/

theorem wholeWrite_staged {b : List Byte} {key : Nat} (hshape : r.shape b = 0) : s.wholeWrite ses r key true b =
    if s.entryRule key (leNat b) b = 4 ∨ s.entryRule key (leNat b) b = 6 ∨
      ((List.range 12).any (fun i => key == K.recipeSelect i) = true ∧ s.entryRule key (leNat b) b ≠ 0) then
        (s, s.entryRule key (leNat b) b) else s.stage ses key b :=
  (if_neg (not_not_intro hshape)).trans (if_pos rfl)

theorem wholeWrite_commit {b : List Byte} {key : Nat} (hshape : r.shape b = 0) (hkey : key = K.commit) :
    s.wholeWrite ses r key false b = s.commitSet ses :=
  (if_neg (not_not_intro hshape)).trans ((if_neg Bool.false_ne_true).trans (if_pos hkey))

theorem wholeWrite_discard {b : List Byte} {key : Nat} (hshape : r.shape b = 0) (hkey : key = K.discard) :
    s.wholeWrite ses r key false b = s.discardSet ses :=
  (if_neg (not_not_intro hshape)).trans ((if_neg Bool.false_ne_true).trans
    ((if_neg (by rw [hkey]; decide)).trans (if_pos hkey)))

theorem wholeWrite_applied {b : List Byte} {key : Nat} (hshape : r.shape b = 0) (hcommit : key ≠ K.commit)
    (hdiscard : key ≠ K.discard) : s.wholeWrite ses r key false b = s.applyWrite (sesRole ses) key b :=
  (if_neg (not_not_intro hshape)).trans ((if_neg Bool.false_ne_true).trans ((if_neg hcommit).trans (if_neg hdiscard)))

/-! ## A block of a value (R402) -/

theorem blobBlock_other {k : Nat} {b : List Byte} (h : (s.ses (sesNo ses)).blob = some (k, b))
    (hk : k ≠ m.index * 256 + m.sub) : s.blobBlock ses r m = (s, 0xD) := by
  unfold State.blobBlock
  dsimp only
  rw [h]
  dsimp only
  rw [if_neg hk]

/-- The value collected once the block is in its place. -/
def collectedBlock (m : ZMsg) (o : List Byte) : List Byte :=
  if m.payload = [] then o else slice o 0 m.offset ++ m.payload ++ o.drop (m.offset + m.payload.length)

theorem blobBlock_collects {o : List Byte} (h : (s.ses (sesNo ses)).blob = some (m.index * 256 + m.sub, o) ∨
      ((s.ses (sesNo ses)).blob = none ∧ o = [])) : s.blobBlock ses r m =
    if bit m.flags.toNat 1 then
      (s.setSes (sesNo ses) { s.ses (sesNo ses) with blob := none }).wholeWrite ses r (m.index * 256 + m.sub)
        (bit m.flags.toNat 0) (collectedBlock m o)
    else (s.setSes (sesNo ses) { s.ses (sesNo ses) with blob := some (m.index * 256 + m.sub, collectedBlock m o) }, 0) := by
  have hempty : (if m.payload.isEmpty then o
      else slice o 0 m.offset ++ m.payload ++ o.drop (m.offset + m.payload.length)) = collectedBlock m o := by
    unfold collectedBlock
    cases m.payload <;> rfl
  unfold State.blobBlock
  dsimp only
  rcases h with h | ⟨h, rfl⟩
  · rw [h]
    dsimp only
    rw [if_pos rfl]
    dsimp only
    rw [hempty] <;> rfl
  · rw [h]
    dsimp only
    rw [hempty] <;> rfl

end Sys2Proof.Machine
end

section
/-! Zwiys requests (R398-R407): O49. -/

namespace Sys2Proof.Machine

variable {s : State} {ses : SessId} {m : ZMsg} {r : DictRow}

/-! ## The answer to a request -/

/-- The request is carried out and answered. -/
def answered (ses : SessId) (m : ZMsg) (q : State × ZAns) : State :=
  q.1.respond ses m (responseBytes m q.2)

theorem State.afterWrite_other {key : Nat} (h : key ≠ K.resetCmd) (v : Nat) : s.afterWrite key v = s := if_pos h

/-- Something follows the response to a write: it is carried out and good. -/
def State.writeGoes (s : State) (ses : SessId) (m : ZMsg) : Prop :=
  s.carries ses = true ∧ s.keptFor ses m = none ∧ malformed m 2 = false ∧ (s.zwrite ses m).2.status = 0

theorem State.writeMsg_stays (h : ¬s.writeGoes ses m) : s.writeMsg ses m = s.handle ses m 2 fun s => s.zwrite ses m := by
  refine if_neg fun hgo => h ?_
  simp only [Bool.and_eq_true, Option.isNone_iff_eq_none, Bool.not_eq_true', beq_iff_eq] at hgo
  obtain ⟨⟨⟨hcarries, hkept⟩, hform⟩, hstatus⟩ := hgo
  exact ⟨hcarries, hkept, hform, hstatus⟩

theorem State.writeMsg_plain (h : m.index * 256 + m.sub ≠ K.resetCmd) :
    s.writeMsg ses m = s.handle ses m 2 fun s => s.zwrite ses m := by
  unfold State.writeMsg
  dsimp only
  rw [State.afterWrite_other h, ite_self]

theorem exec_write_fresh (hcarries : s.carries ses = true) (hkept : s.keptFor ses m = none)
    (hform : malformed m 2 = false) (h : m.index * 256 + m.sub ≠ K.resetCmd) :
    exec (.write ses m) s = .next (answered ses m (s.zwrite ses m)) := by
  rw [exec_write]
  unfold execWrite
  rw [State.writeMsg_plain h, handle_of_fresh _ hcarries hkept hform]
  rfl

theorem exec_write_good (hcarries : s.carries ses = true) (hkept : s.keptFor ses m = none)
    (hform : malformed m 2 = false) : exec (.write ses m) s = .next (if (s.zwrite ses m).2.status = 0 then
      (answered ses m (s.zwrite ses m)).afterWrite (m.index * 256 + m.sub) (leNat m.payload)
      else answered ses m (s.zwrite ses m)) := by
  rw [exec_write]
  unfold execWrite State.writeMsg
  dsimp only
  rw [handle_of_fresh _ hcarries hkept hform, hcarries, hkept, hform]
  simp only [Option.isNone_none, Bool.not_false, Bool.and_true, Bool.true_and, beq_iff_eq]
  rfl

/-- A basted write of `reset_cmd` is refused: the entry is write-only. -/
theorem zwrite_resetCmd_basted (hsub : m.sub < 256) (hbaste : bit m.flags.toNat 0 = true)
    (hkey : m.index * 256 + m.sub = K.resetCmd) : (s.zwrite ses m).2.status ≠ 0 := by
  cases hentry : s.entryFor ses m with
  | none =>
    rw [show s.zwrite ses m = _ from State.withEntry_none _ hentry]
    show (1 : Nat) ≠ 0
    decide
  | some r =>
    by_cases hrole : r.roles.contains (sesRole ses) = true
    · have hwo := (resetCmd_entry hsub hkey hentry).1
      rw [zwrite_of_not_bastable hbaste hentry hrole (.inl (by rw [hwo]; decide))]
      show (9 : Nat) ≠ 0
      decide
    · rw [show s.zwrite ses m = _ from State.withEntry_unlisted _ hentry (eq_false_of_ne_true hrole)]
      show (2 : Nat) ≠ 0
      decide

theorem write_as_baste (hsub : m.sub < 256) (hbaste : bit m.flags.toNat 0 = true) :
    exec (.write ses m) s = exec (.baste ses m) s := by
  rw [exec_write, exec_baste]
  refine Eq.trans (congrArg Host.Outcome.next ?_) (if_pos hbaste).symm
  by_cases hkey : m.index * 256 + m.sub = K.resetCmd
  · exact State.writeMsg_stays fun h => zwrite_resetCmd_basted hsub hbaste hkey h.2.2.2
  · exact State.writeMsg_plain hkey

theorem write_as_commit (hkey : m.index * 256 + m.sub = K.commit) :
    exec (.write ses m) s = exec (.commit ses m) s := by
  rw [exec_write, exec_commit]
  exact (congrArg Host.Outcome.next (State.writeMsg_plain (by rw [hkey]; decide))).trans (if_pos hkey).symm

theorem write_as_discard (hkey : m.index * 256 + m.sub = K.discard) :
    exec (.write ses m) s = exec (.discard ses m) s := by
  rw [exec_write, exec_discard]
  exact (congrArg Host.Outcome.next (State.writeMsg_plain (by rw [hkey]; decide))).trans (if_pos hkey).symm

/-- Reading or writing, a request goes through `handle`, as far as nothing follows its response. -/
theorem request_handled {i : Instr} (hi : i ∈ [Instr.read ses m, .write ses m, .baste ses m, .commit ses m, .discard ses m])
    (hbaste : i = .baste ses m → bit m.flags.toNat 0 = true) (hcommit : i = .commit ses m → m.index * 256 + m.sub = K.commit)
    (hdiscard : i = .discard ses m → m.index * 256 + m.sub = K.discard) :
    (i = .read ses m ∧ exec i s = .next (s.handle ses m 1 fun s => s.zread ses m)) ∨
    (i ≠ .read ses m ∧ (¬s.writeGoes ses m → exec i s = .next (s.handle ses m 2 fun s => s.zwrite ses m))) := by
  simp only [List.mem_cons, List.not_mem_nil, or_false] at hi
  rcases hi with rfl | rfl | rfl | rfl | rfl
  · exact .inl ⟨rfl, rfl⟩
  · exact .inr ⟨Instr.noConfusion, fun h => congrArg Host.Outcome.next (State.writeMsg_stays h)⟩
  · exact .inr ⟨Instr.noConfusion, fun _ => if_pos (hbaste rfl)⟩
  · exact .inr ⟨Instr.noConfusion, fun _ => if_pos (hcommit rfl)⟩
  · exact .inr ⟨Instr.noConfusion, fun _ => if_pos (hdiscard rfl)⟩

/-- How a request that is not carried out is answered (R395, R398, R401). -/
theorem request_refused {i : Instr} (hi : i ∈ [Instr.read ses m, .write ses m, .baste ses m, .commit ses m, .discard ses m])
    (hbaste : i = .baste ses m → bit m.flags.toNat 0 = true) (hcommit : i = .commit ses m → m.index * 256 + m.sub = K.commit)
    (hdiscard : i = .discard ses m → m.index * 256 + m.sub = K.discard) :
    (s.carries ses = false → exec i s = .next s) ∧
    (s.carries ses = true →
      (∀ b, s.keptFor ses m = some b → exec i s = .next { s with tx := (chanSes ses, b) :: s.tx }) ∧
      (s.keptFor ses m = none →
        let bad := malformed m (if i = .read ses m then 1 else 2)
        (bad = true → exec i s = .next (answered ses m (s, { status := 7 }))) ∧
        (bad = false → s.entryFor ses m = none → exec i s = .next (answered ses m (s, { status := 1 }))) ∧
        (bad = false → s.entryFor ses m = some r → r.roles.contains (sesRole ses) = false →
          exec i s = .next (answered ses m (s, { status := 2, type := r.ty.code }))))) := by
  rcases request_handled hi hbaste hcommit hdiscard with ⟨rfl, hexec⟩ | ⟨hread, hexec⟩
  · refine ⟨fun h => hexec.trans (congrArg _ (State.handle_uncarried _ h)), fun hcarries => ⟨fun b hb =>
      hexec.trans (congrArg _ (State.handle_repeat _ hcarries hb)), fun hkept => ⟨fun hbad => ?_, fun hbad hentry => ?_,
      fun hbad hentry hrole => ?_⟩⟩⟩
    · rw [if_pos rfl] at hbad
      exact hexec.trans (congrArg _ (State.handle_malformed _ hcarries hkept hbad))
    · rw [if_pos rfl] at hbad
      rw [hexec, handle_of_fresh _ hcarries hkept hbad, show s.zread ses m = _ from State.withEntry_none _ hentry]
      rfl
    · rw [if_pos rfl] at hbad
      rw [hexec, handle_of_fresh _ hcarries hkept hbad, show s.zread ses m = _ from State.withEntry_unlisted _ hentry hrole]
      rfl
  · refine ⟨fun h => ?_, fun hcarries => ⟨fun b hb => ?_, fun hkept => ⟨fun hbad => ?_, fun hbad hentry => ?_,
      fun hbad hentry hrole => ?_⟩⟩⟩
    · exact (hexec fun hgo => Bool.false_ne_true (h.symm.trans hgo.1)).trans (congrArg _ (State.handle_uncarried _ h))
    · refine (hexec fun hgo => ?_).trans (congrArg _ (State.handle_repeat _ hcarries hb))
      exact absurd (hb.symm.trans hgo.2.1) (Option.some_ne_none b)
    · rw [if_neg hread] at hbad
      exact (hexec fun hgo => Bool.false_ne_true (hgo.2.2.1.symm.trans hbad)).trans
        (congrArg _ (State.handle_malformed _ hcarries hkept hbad))
    · rw [if_neg hread] at hbad
      have hz : s.zwrite ses m = _ := State.withEntry_none _ hentry
      have hno : ¬s.writeGoes ses m := fun hgo => by
        have hstatus := hgo.2.2.2
        rw [hz] at hstatus
        exact absurd (show (1 : Nat) = 0 from hstatus) (by decide)
      rw [hexec hno, handle_of_fresh _ hcarries hkept hbad, hz]
      rfl
    · rw [if_neg hread] at hbad
      have hz : s.zwrite ses m = _ := State.withEntry_unlisted _ hentry hrole
      have hno : ¬s.writeGoes ses m := fun hgo => by
        have hstatus := hgo.2.2.2
        rw [hz] at hstatus
        exact absurd (show (2 : Nat) = 0 from hstatus) (by decide)
      rw [hexec hno, handle_of_fresh _ hcarries hkept hbad, hz]
      rfl

/-! ## Reading (R402, R408) -/

theorem exec_read_fresh (hcarries : s.carries ses = true) (hkept : s.keptFor ses m = none) (hform : malformed m 1 = false) :
    exec (.read ses m) s = .next (answered ses m (s.zread ses m)) := by
  rw [exec_read]
  unfold execRead
  rw [handle_of_fresh _ hcarries hkept hform]
  rfl

section

variable (hentry : s.entryFor ses m = some r) (hrole : r.roles.contains (sesRole ses) = true)

include hentry hrole

theorem zread_writeOnly (hacc : r.acc = .wo) : s.zread ses m = (s, { status := 2, type := r.ty.code }) :=
  (withEntry_of_listed _ hentry hrole).trans (if_pos hacc)

theorem zread_offset (hacc : r.acc ≠ .wo) (hty : r.ty ≠ .blob) (hoff : m.offset ≠ 0) :
    s.zread ses m = (s, { status := 7, type := r.ty.code }) :=
  (withEntry_of_listed _ hentry hrole).trans ((if_neg hacc).trans (if_pos ⟨hty, hoff⟩))

theorem zread_log (hacc : r.acc ≠ .wo) (hoff : r.ty ≠ .blob → m.offset = 0) (hkey : m.index * 256 + m.sub = K.logData) :
    s.zread ses m = (s, {
      status := 0, type := r.ty.code
      total := 2 ^ 32
      payload := s.logData m.offset (min m.length (2 ^ 32 - m.offset)) }) :=
  (withEntry_of_listed _ hentry hrole).trans ((if_neg hacc).trans ((if_neg fun h => h.2 (hoff h.1)).trans (if_pos hkey)))

/-- What a read of an entry does to the state, and the value it reads. -/
def State.readOf (s : State) (ses : SessId) (m : ZMsg) (r : DictRow) : State × List Byte :=
  if m.index * 256 + m.sub = K.dbgChallenge then s.newNonce
  else (if m.index / 16 = 0xA10 ∧ m.sub = 3 then s.freeStep else s, s.valueFor ses r (m.index * 256 + m.sub))

omit hentry hrole in
theorem zread_value_answer (q : State × List Byte) : (if r.ty.bytes then
      ((q.1, { status := 0, type := r.ty.code, total := q.2.length,
               payload := if r.ty = .blob then (q.2.drop m.offset).take m.length else q.2 }) : State × ZAns)
    else (q.1, { status := 0, type := r.ty.code, payload := q.2 })) =
    (q.1, { status := 0, type := r.ty.code, total := if r.ty.bytes then q.2.length else 0,
            payload := if r.ty = .blob then (q.2.drop m.offset).take m.length else q.2 }) := by
  by_cases h : r.ty.bytes = true
  · rw [if_pos h, if_pos h]
  · rw [if_neg h, if_neg h, if_neg fun hb => h (by rw [hb]; rfl)]

theorem zread_value (hsub : m.sub < 256) (hacc : r.acc ≠ .wo) (hoff : r.ty ≠ .blob → m.offset = 0)
    (hkey : m.index * 256 + m.sub ≠ K.logData) : s.zread ses m = ((s.readOf ses m r).1, {
      status := 0, type := r.ty.code
      total := if r.ty.bytes then (s.readOf ses m r).2.length else 0
      payload := if r.ty = .blob then ((s.readOf ses m r).2.drop m.offset).take m.length else (s.readOf ses m r).2 }) := by
  rw [← zread_value_answer (s.readOf ses m r)]
  refine (withEntry_of_listed _ hentry hrole).trans ((if_neg hacc).trans ((if_neg fun h => h.2 (hoff h.1)).trans
    ((if_neg hkey).trans ?_)))
  unfold State.readOf
  rw [(key_parts hsub).1, (key_parts hsub).2]

end

/-! ## Staging (R403-R405) -/

theorem stage_otherScope {key : Nat} {b : List Byte} (hbaste : (s.ses (sesNo ses)).baste ≠ [])
    (hscope : (s.ses (sesNo ses)).scope ≠ s.scopeOf (key / 256)) : s.stage ses key b = (s, 0xB) :=
  if_pos (by simp [hbaste, hscope])

/-- The set as it stands with an entry staged. -/
def Ses.staged (x : Ses) (key sc : Nat) (b : List Byte) : Ses :=
  { x with
    scope := sc
    baste := if x.baste.any (fun e => e.1 == key) then x.baste.map fun e => if e.1 = key then (key, b) else e
      else x.baste ++ [(key, b)] }

/-- The set has no room for the value. -/
def Ses.stageFull (x : Ses) (key : Nat) (b : List Byte) : Prop :=
  (x.baste.any (fun e => e.1 == key) = false ∧ 256 ≤ x.baste.length) ∨
    65536 < ((x.baste.filter fun e => e.1 != key).map fun e => e.2.length).sum + b.length

section

variable {key : Nat} {b : List Byte} (hscope : (s.ses (sesNo ses)).baste = [] ∨
  (s.ses (sesNo ses)).scope = s.scopeOf (key / 256))

include hscope

theorem stage_sameScope : s.stage ses key b =
    if (!(s.ses (sesNo ses)).baste.any (fun e => e.1 == key) && decide (256 ≤ (s.ses (sesNo ses)).baste.length)) ||
      decide (65536 < (((s.ses (sesNo ses)).baste.filter fun e => e.1 != key).map fun e => e.2.length).sum + b.length) then
      (s, 0xA)
    else (s.setSes (sesNo ses) ((s.ses (sesNo ses)).staged key (s.scopeOf (key / 256)) b), 0) := by
  refine if_neg ?_
  rcases hscope with h | h
  · simp [h]
  · simp [h]

omit hscope in
theorem stageFull_iff (x : Ses) : ((!x.baste.any (fun e => e.1 == key) && decide (256 ≤ x.baste.length)) ||
    decide (65536 < ((x.baste.filter fun e => e.1 != key).map fun e => e.2.length).sum + b.length)) = true ↔
    x.stageFull key b := by
  unfold Ses.stageFull
  rw [Bool.or_eq_true, Bool.and_eq_true, decide_eq_true_eq, decide_eq_true_eq, Bool.not_eq_true']

theorem stage_full (hfull : (s.ses (sesNo ses)).stageFull key b) : s.stage ses key b = (s, 0xA) :=
  (stage_sameScope hscope).trans (if_pos ((stageFull_iff _).2 hfull))

theorem stage_taken (hfull : ¬(s.ses (sesNo ses)).stageFull key b) :
    s.stage ses key b = (s.setSes (sesNo ses) ((s.ses (sesNo ses)).staged key (s.scopeOf (key / 256)) b), 0) :=
  (stage_sameScope hscope).trans (if_neg fun h => hfull ((stageFull_iff _).1 h))

end

/-! ## Committing and discarding (R406, R407) -/

/-- The set holds a recipe of a cascade that switches together. -/
def State.bastesShared (s : State) (x : Ses) : Bool :=
  x.baste.any fun e => (List.range 12).any fun i => e.1 == K.recipeSelect i && s.recipeShared i

theorem commitSet_busy (h : (s.ses (sesNo ses)).commitState = 2) : s.commitSet ses = (s, 0xC) := if_pos h

theorem commitSet_empty (h : (s.ses (sesNo ses)).commitState ≠ 2) (he : (s.ses (sesNo ses)).baste = []) :
    s.commitSet ses = (s, 0) := (if_neg h).trans (if_pos (by rw [he]; rfl))

theorem commitSet_shared (h : (s.ses (sesNo ses)).commitState ≠ 2) (he : (s.ses (sesNo ses)).baste ≠ [])
    (hshared : s.bastesShared (s.ses (sesNo ses)) = true) (hrole : sesRole ses ≠ .C) : s.commitSet ses = (s, 0xE) := by
  refine (if_neg h).trans ((if_neg fun hc => he (List.isEmpty_iff.1 hc)).trans (if_pos ?_))
  rw [Bool.and_eq_true, bne_iff_ne]
  exact ⟨hshared, hrole⟩

/-- The session while its set is committed. -/
def State.committing (s : State) (ses : SessId) : State :=
  s.setSes (sesNo ses) { (s.ses (sesNo ses)).dropBaste with commitState := 2 }

theorem commitSet_goes (h : (s.ses (sesNo ses)).commitState ≠ 2) (he : (s.ses (sesNo ses)).baste ≠ [])
    (hfree : s.bastesShared (s.ses (sesNo ses)) = false ∨ sesRole ses = .C) : s.commitSet ses =
      if (s.ses (sesNo ses)).scope = 0xFF then ((s.committing ses).commitDevice ses (s.ses (sesNo ses)).baste, 0)
      else if s.rd (K.instState (s.ses (sesNo ses)).scope) = 0 then
        ((s.committing ses).commitAt (s.ses (sesNo ses)).scope ses (s.ses (sesNo ses)).baste, 0)
      else ((s.committing ses).change (s.ses (sesNo ses)).scope (.commit ses (s.ses (sesNo ses)).baste), 0) := by
  refine (if_neg h).trans ((if_neg fun hc => he (List.isEmpty_iff.1 hc)).trans (if_neg ?_))
  rw [Bool.and_eq_true, bne_iff_ne, not_and_or, Bool.not_eq_true, not_not]
  exact hfree

theorem discardSet_busy (h : (s.ses (sesNo ses)).commitState = 2) : s.discardSet ses = (s, 0xC) := if_pos h

theorem discardSet_empties (h : (s.ses (sesNo ses)).commitState ≠ 2) :
    s.discardSet ses = (s.setSes (sesNo ses) (s.ses (sesNo ses)).dropBaste, 0) := if_neg h

end Sys2Proof.Machine
end

section
/-! The Zwiys requests' statement: O49. -/

namespace Sys2Proof.Machine

/-! ## `cpl_timeout` (R374) -/

/-- The row of `cpl_timeout`. -/
def cplTimeoutRow : DictRow :=
  ⟨0xA060, 0xA067, 0x04, 0x04, "cpl_timeout", .u32, .rw, rolesMH, 50000, false, 16000, 500000, none⟩

theorem dictRow_cplTimeout : ∀ p : Fin 8, dictRow (0xA060 + p.val) 4 = some cplTimeoutRow := by decide +kernel

theorem cplTimeout_shape {v : Nat} (hlow : 16000 ≤ v) (hhigh : v ≤ 500000) : cplTimeoutRow.shape (leBytes 4 v) = 0 := by
  refine (if_neg Bool.false_ne_true).trans ((if_neg ?_).trans (if_pos ?_))
  · rw [length_leBytes]
    decide
  · unfold DictRow.inRange
    rw [leNat_leBytes, Nat.mod_eq_of_lt (by norm_num; omega), Bool.or_eq_true]
    refine .inl ?_
    rw [Bool.and_eq_true, decide_eq_true_eq, decide_eq_true_eq]
    exact ⟨Int.ofNat_le.2 hlow, Int.ofNat_le.2 hhigh⟩

theorem cplTimeout_parts (p : Nat) : K.cplTimeout p / 256 = 0xA060 + p ∧ K.cplTimeout p % 256 = 4 := by
  unfold K.cplTimeout
  omega

section

variable {p : Nat} (hp : p < 8)

include hp

/-- No rule of an entry's own chapter judges `cpl_timeout`. -/
theorem entryRule_cplTimeout (s : State) (v : Nat) (b : List Byte) : s.entryRule (K.cplTimeout p) v b = 0 := by
  unfold State.entryRule
  dsimp only
  rw [(cplTimeout_parts p).1, (cplTimeout_parts p).2, if_neg (by omega), if_neg (by omega), if_neg (by omega), if_neg (by omega),
    if_neg (by omega), if_neg (by omega), if_neg (by omega), if_neg (by omega),
    if_neg (by unfold K.cplTimeout K.hzMode K.mclkSet K.vMargin; omega),
    if_neg (by unfold K.cplTimeout K.dedupEntries K.frpPort; omega), if_neg (by omega), if_neg (by omega),
    if_neg (by unfold K.cplTimeout K.fwActivateAt; omega)]

theorem tackFor_cplTimeout (s : State) : s.tackFor (0xA060 + p) 4 = none := by
  unfold State.tackFor
  dsimp only
  rw [if_neg (by omega), if_neg (by omega), if_neg (by omega)]

theorem storeAt_cplTimeout (s : State) (b : List Byte) : s.storeAt (K.cplTimeout p) b = s.wr (K.cplTimeout p) (leNat b) := by
  unfold State.storeAt State.storeEntry
  rw [(cplTimeout_parts p).1, (cplTimeout_parts p).2, tackFor_cplTimeout hp, dictRow_cplTimeout ⟨p, hp⟩] <;> rfl

theorem writeLocal_cplTimeout (s : State) (v : Nat) (b : List Byte) :
    s.writeLocal (K.cplTimeout p) v b = (s.wr (K.cplTimeout p) (leNat b), 0) := by
  unfold State.writeLocal
  dsimp only
  rw [(cplTimeout_parts p).1, (cplTimeout_parts p).2, if_neg (by omega), if_neg (by omega), if_neg (by omega), if_neg (by omega),
    if_neg (by omega), if_neg (by omega), if_neg (by omega), if_neg (by omega), storeAt_cplTimeout hp]

theorem applyWrite_cplTimeout (s : State) (role : Role) (b : List Byte) :
    s.applyWrite role (K.cplTimeout p) b = (s.wr (K.cplTimeout p) (leNat b), 0) := by
  have hne : K.cplTimeout p ≠ K.pwrEnable ∧ K.cplTimeout p ≠ K.vMargin ∧ K.cplTimeout p ≠ K.mclkSet ∧
      K.cplTimeout p ≠ K.hzMode ∧ K.cplTimeout p ≠ K.clientTable ∧ K.cplTimeout p ≠ K.alertClear ∧
      K.cplTimeout p ≠ K.ccClear ∧ K.cplTimeout p ≠ K.cascCmd ∧ K.cplTimeout p ≠ K.fwCmd ∧ K.cplTimeout p ≠ K.keyCmd ∧
      K.cplTimeout p ≠ K.dbgResponse ∧ K.cplTimeout p ≠ K.resetCmd := by
    unfold K.cplTimeout K.pwrEnable K.vMargin K.mclkSet K.hzMode K.clientTable K.alertClear K.ccClear K.cascCmd K.fwCmd K.keyCmd
      K.dbgResponse K.resetCmd
    omega
  obtain ⟨h1, h2, h3, h4, h5, h6, h7, h8, h9, h10, h11, h12⟩ := hne
  unfold State.applyWrite
  dsimp only
  rw [(cplTimeout_parts p).1, (cplTimeout_parts p).2, if_neg (by omega : ¬(0x4000 ≤ 0xA060 + p ∧ 0xA060 + p < 0x400C ∧ 4 = 0x30)),
    entryRule_cplTimeout hp, if_neg (by decide : ¬(0 : Nat) ≠ 0), if_neg (by omega), if_neg h1, if_neg h2, if_neg h3, if_neg h4,
    if_neg h5, if_neg h6, if_neg h7, if_neg h8, if_neg h9, if_neg h10, if_neg h11, if_neg h12, writeLocal_cplTimeout hp]

theorem cplTimeout_ne : K.cplTimeout p ≠ K.commit ∧ K.cplTimeout p ≠ K.discard ∧ K.cplTimeout p ≠ K.resetCmd := by
  unfold K.cplTimeout K.commit K.discard K.resetCmd
  omega

end

/-- A write of `cpl_timeout` from a management session takes effect at once (R374). -/
theorem exec_write_cplTimeout {s : State} {m : ZMsg} {v p : Nat} {q : PortId} (hp : p < 8) (hlow : 16000 ≤ v) (hhigh : v ≤ 500000)
    (hform : malformed m 2 = false) (hflags : m.flags = 0) (hoff : m.offset = 0) (hindex : m.index = 0xA060 + p)
    (hsub : m.sub = 4) (hload : m.payload = leBytes 4 v) :
    exec (.write (.mctp q) m) s = .next (answered (.mctp q) m (s.wr (K.cplTimeout p) v, { status := 0, type := DType.u32.code })) := by
  have hkey : m.index * 256 + m.sub = K.cplTimeout p := by rw [hindex, hsub]; rfl
  have hentry : s.entryFor (.mctp q) m = some cplTimeoutRow := by
    unfold State.entryFor
    rw [hindex, hsub, dictRow_cplTimeout ⟨p, hp⟩]
  obtain ⟨hcommit, hdiscard, hreset⟩ := cplTimeout_ne hp
  have hbaste : bit m.flags.toNat 0 = false := by rw [hflags]; rfl
  have hz : s.zwrite (.mctp q) m = cplTimeoutRow.answer (s.wr (K.cplTimeout p) v, 0) := by
    rw [zwrite_whole hentry rfl (fun h => Bool.false_ne_true (hbaste.symm.trans h.1)) (.inl rfl) (by decide) hoff, hbaste, hload,
      wholeWrite_applied (cplTimeout_shape hlow hhigh) (by rw [hkey]; exact hcommit) (by rw [hkey]; exact hdiscard), hkey,
      applyWrite_cplTimeout hp, leNat_leBytes, Nat.mod_eq_of_lt (by norm_num; omega)]
  rw [exec_write_fresh rfl rfl hform (by rw [hkey]; exact hreset), hz]
  rfl

/-! ## Good requests that are no repeats -/

section

variable {s : State} {ses : SessId} {m : ZMsg} {r : DictRow} {q : State × Nat} (hcarries : s.carries ses = true)
  (hkept : s.keptFor ses m = none)

include hcarries hkept

theorem read_answers {q : State × ZAns} (hform : malformed m 1 = false) (hz : s.zread ses m = q) :
    exec (.read ses m) s = .next (q.1.respond ses m (responseBytes m q.2)) := by
  rw [exec_read_fresh hcarries hkept hform, hz]
  rfl

variable (hform : malformed m 2 = false)

include hform

theorem write_acts (hkey : m.index * 256 + m.sub ≠ K.resetCmd) (hz : s.zwrite ses m = r.answer q) :
    exec (.write ses m) s = .next (q.1.respond ses m (responseBytes m { status := q.2, type := r.ty.code })) := by
  rw [exec_write_fresh hcarries hkept hform hkey, hz]
  rfl

theorem write_refused {st : Nat} (hst : st ≠ 0) (hz : s.zwrite ses m = r.answer (s, st)) :
    exec (.write ses m) s = .next (s.respond ses m (responseBytes m { status := st, type := r.ty.code })) := by
  rw [exec_write_of_refused hcarries hkept hform (by rw [hz]; exact hst), hz]
  rfl

theorem baste_acts (hbaste : bit m.flags.toNat 0 = true) (hz : s.zwrite ses m = r.answer q) :
    exec (.baste ses m) s = .next (q.1.respond ses m (responseBytes m { status := q.2, type := r.ty.code })) := by
  rw [exec_baste_of_fresh hcarries hkept hform hbaste, hz]
  rfl

theorem commit_acts (hkey : m.index * 256 + m.sub = K.commit) (hz : s.zwrite ses m = r.answer q) :
    exec (.commit ses m) s = .next (q.1.respond ses m (responseBytes m { status := q.2, type := r.ty.code })) := by
  rw [← write_as_commit hkey]
  exact write_acts hcarries hkept hform (by rw [hkey]; decide) hz

theorem discard_acts (hkey : m.index * 256 + m.sub = K.discard) (hz : s.zwrite ses m = r.answer q) :
    exec (.discard ses m) s = .next (q.1.respond ses m (responseBytes m { status := q.2, type := r.ty.code })) := by
  rw [← write_as_discard hkey]
  exact write_acts hcarries hkept hform (by rw [hkey]; decide) hz

end

/-- Settles O49. -/
theorem zwiysRequestsReadStageAndWrite : Obligations.ZwiysRequestsReadStageAndWrite := by
  unfold Obligations.ZwiysRequestsReadStageAndWrite
  intro s ses m r key n x c Answers Acts baste fromTack hsub
  have hblob : r.ty = .blob → s.entryFor ses m = some r → m.index * 256 + m.sub ≠ K.resetCmd := fun hty hentry hkey =>
    absurd (hty.symm.trans (resetCmd_entry hsub hkey hentry).2) (by decide)
  have hdirect : baste = false → ¬(bit m.flags.toNat 0 = true ∧ (sesRole ses = .T ∨ r.acc ≠ .rw ∨
      blockAddressed (m.index * 256 + m.sub) = true)) := fun hb h => Bool.false_ne_true (hb.symm.trans h.1)
  have hbasted : r.acc = .rw → blockAddressed key = false → sesRole ses ≠ .T → ¬(bit m.flags.toNat 0 = true ∧
      (sesRole ses = .T ∨ r.acc ≠ .rw ∨ blockAddressed (m.index * 256 + m.sub) = true)) := fun hacc hblock hrole h =>
    h.2.elim hrole fun h => h.elim (fun h => h hacc) fun h => Bool.false_ne_true (hblock.symm.trans h)
  refine ⟨?asBaste, ?asCommit, ?asDiscard, fun i hi hb hc hd => request_refused hi hb hc hd,
    fun hcarries hkept hentry hrole => ⟨fun hform => ⟨fun hacc => ?readWo, fun hacc hty hoff => ?readOffset,
      fun hacc hoff => ⟨fun hkey => ?readLog, fun hkey => ?readValue⟩⟩, fun hform => ⟨fun hb hno => ?notBasted,
      fun hb => ⟨fun hacc => ?readOnly, fun hacc => ⟨fun hty hoff => ?offset, fun hty hoff hshape => ?shape,
        fun hty hoff hshape hkc hkd => ?applied, fun hty hlen => ?tooLong,
        fun hty hlen => ⟨fun hblock => ?block, fun hblock => ⟨fun k b hblob' hk => ?otherBlob, fun o ho => ?collects⟩⟩⟩⟩,
      fun hb hacc hblock hrole' hty hlen => ?basteBlob, fun hb hacc hblock hrole' hty => ?stages,
      fun hb hoff hload => ⟨fun hkey => ?commits, fun hkey => ?discards⟩⟩⟩,
    fun p v hses hlow hhigh hform hflags hoff hidx hidx' hsub4 hload => ?timeout⟩
  case asBaste =>
    by_cases hb : baste = true
    · rw [if_pos hb]
      exact write_as_baste hsub hb
    · rw [if_neg hb]
      exact if_neg hb
  case asCommit =>
    by_cases hkey : key = K.commit
    · rw [if_pos hkey]
      exact write_as_commit hkey
    · rw [if_neg hkey]
      exact if_neg hkey
  case asDiscard =>
    by_cases hkey : key = K.discard
    · rw [if_pos hkey]
      exact write_as_discard hkey
    · rw [if_neg hkey]
      exact if_neg hkey
  case readWo => exact read_answers hcarries hkept hform (zread_writeOnly hentry hrole hacc)
  case readOffset => exact read_answers hcarries hkept hform (zread_offset hentry hrole hacc hty hoff)
  case readLog => exact read_answers hcarries hkept hform (zread_log hentry hrole hacc hoff hkey)
  case readValue => exact read_answers hcarries hkept hform (zread_value hentry hrole hsub hacc hoff hkey)
  case notBasted =>
    have hz : s.zwrite ses m = r.answer (s, 9) := zwrite_of_not_bastable hb hentry hrole (or_rotate.1 hno)
    exact ⟨write_refused hcarries hkept hform (by decide) hz, baste_acts hcarries hkept hform hb hz⟩
  case readOnly => exact write_refused hcarries hkept hform (by decide) (zwrite_readOnly hentry hrole hb hacc)
  case offset =>
    exact write_refused hcarries hkept hform (by decide) (zwrite_offset hentry hrole (hdirect hb) hacc hty hoff)
  case shape =>
    have hz := zwrite_whole hentry hrole (hdirect hb) hacc hty hoff
    rw [wholeWrite_of_misshapen _ _ hshape] at hz
    exact write_refused hcarries hkept hform hshape hz
  case applied =>
    intro p t
    have hz := zwrite_whole hentry hrole (hdirect hb) hacc hty hoff
    rw [show bit m.flags.toNat 0 = false from hb, wholeWrite_applied hshape hkc hkd] at hz
    have hexec := exec_write_good hcarries hkept hform
    rw [hz] at hexec
    exact hexec
  case tooLong =>
    exact write_refused hcarries hkept hform (by decide) (zwrite_tooLong hentry hrole (hdirect hb) hacc hty hlen)
  case block =>
    exact write_acts hcarries hkept hform (hblob hty hentry) (zwrite_block hentry hrole (hdirect hb) hacc hty hlen hblock)
  case otherBlob =>
    have hz := zwrite_collect hentry hrole (hdirect hb) hacc hty hlen hblock
    rw [blobBlock_other hblob' hk] at hz
    exact write_refused hcarries hkept hform (by decide) hz
  case collects =>
    intro b
    have hz := zwrite_collect hentry hrole (hdirect hb) hacc hty hlen hblock
    rw [blobBlock_collects ho, show bit m.flags.toNat 0 = false from hb] at hz
    refine ⟨fun hmore => ?_, fun hlast => ?_⟩
    · rw [hmore] at hz
      exact write_acts hcarries hkept hform (hblob hty hentry) hz
    · rw [hlast] at hz
      exact write_acts hcarries hkept hform (hblob hty hentry) hz
  case basteBlob =>
    exact baste_acts hcarries hkept hform hb (zwrite_collect hentry hrole (hbasted hacc hblock hrole') (.inl hacc) hty hlen hblock)
  case stages =>
    intro st rest held full recipe
    have hpass := hbasted hacc hblock hrole'
    refine ⟨fun hoff => ?_, fun hoff hshape => ?_, fun hoff hshape => ?_⟩
    · exact baste_acts hcarries hkept hform hb (zwrite_offset hentry hrole hpass (.inl hacc) hty hoff)
    · have hz := zwrite_whole hentry hrole hpass (.inl hacc) hty hoff
      rw [wholeWrite_of_misshapen _ _ hshape] at hz
      exact baste_acts hcarries hkept hform hb hz
    · have hz := zwrite_whole hentry hrole hpass (.inl hacc) hty hoff
      rw [show bit m.flags.toNat 0 = true from hb, wholeWrite_staged hshape] at hz
      have hrecipe : (List.range 12).any (fun i => key == K.recipeSelect i) = true ↔ recipe := by
        simp only [List.any_eq_true, List.mem_range, beq_iff_eq]
        rfl
      refine ⟨fun hst => ?_, fun hst => ?_⟩
      · rw [if_pos (hst.imp_right fun h => h.imp_right fun h => ⟨hrecipe.2 h.1, h.2⟩)] at hz
        exact baste_acts hcarries hkept hform hb hz
      · rw [if_neg fun h => hst (h.imp_right fun h => h.imp_right fun h => ⟨hrecipe.1 h.1, h.2⟩)] at hz
        refine ⟨fun hset hscope => ?_, fun hscope => ⟨fun hfull => ?_, fun hfull => ?_⟩⟩
        · rw [stage_otherScope hset (by rw [(key_parts hsub).1]; exact hscope)] at hz
          exact baste_acts hcarries hkept hform hb hz
        · rw [stage_full (by rw [(key_parts hsub).1]; exact hscope) hfull] at hz
          exact baste_acts hcarries hkept hform hb hz
        · rw [stage_taken (by rw [(key_parts hsub).1]; exact hscope) hfull, (key_parts hsub).1] at hz
          exact baste_acts hcarries hkept hform hb hz
  case commits =>
    obtain ⟨hwo, hbool, hshape⟩ := commit_entry hsub hkey hentry
    have hz := zwrite_whole hentry hrole (hdirect hb) (.inr hwo) (by rw [hbool]; decide) hoff
    rw [show bit m.flags.toNat 0 = false from hb, hload, wholeWrite_commit hshape hkey] at hz
    refine ⟨fun hbusy => ?_, fun hfree hempty => ?_, fun hfree hset hshared hrole' => ?_, fun hfree hset hgo => ?_⟩
    · rw [commitSet_busy hbusy] at hz
      exact commit_acts hcarries hkept hform hkey hz
    · rw [commitSet_empty hfree hempty] at hz
      exact commit_acts hcarries hkept hform hkey hz
    · rw [commitSet_shared hfree hset hshared hrole'] at hz
      exact commit_acts hcarries hkept hform hkey hz
    · intro s'
      rw [commitSet_goes hfree hset hgo] at hz
      refine ⟨fun hdevice => ?_, fun hinst hzero => ?_, fun hinst hlive => ?_⟩
      · rw [if_pos hdevice] at hz
        exact commit_acts hcarries hkept hform hkey hz
      · rw [if_neg hinst, if_pos hzero] at hz
        exact commit_acts hcarries hkept hform hkey hz
      · rw [if_neg hinst, if_neg hlive] at hz
        exact commit_acts hcarries hkept hform hkey hz
  case discards =>
    obtain ⟨hwo, hbool, hshape⟩ := discard_entry hsub hkey hentry
    have hz := zwrite_whole hentry hrole (hdirect hb) (.inr hwo) (by rw [hbool]; decide) hoff
    rw [show bit m.flags.toNat 0 = false from hb, hload, wholeWrite_discard hshape hkey] at hz
    refine ⟨fun hbusy => ?_, fun hfree => ?_⟩
    · rw [discardSet_busy hbusy] at hz
      exact discard_acts hcarries hkept hform hkey hz
    · rw [discardSet_empties hfree] at hz
      exact discard_acts hcarries hkept hform hkey hz
  case timeout =>
    obtain ⟨j, hj⟩ : ∃ j, m.index = 0xA060 + j := ⟨m.index - 0xA060, by omega⟩
    have hlt : j < 8 := by omega
    rw [hses, show m.index - 0xA060 = j by omega]
    exact ⟨_, exec_write_cplTimeout hlt hlow hhigh hform hflags hoff hj hsub4 hload, rfl, State.rd_wr ..,
      fun k hk => State.rd_wr_ne _ _ _ _ hk⟩

end Sys2Proof.Machine
end

section
/-! Power regions: load notices, issue stops, comparators and converters (R430-R435), for O55. -/

namespace Sys2Proof.Machine

variable {s : State} {r : RegionId}

/-! ## Cores changed together -/

/-- Each core of a list is changed by the same function, which a second time changes nothing. -/
theorem State.core_each_modCore {f : Core → Core} (hf : ∀ k, f (f k) = f k) (d : Nat) : ∀ (l : List Nat) (s : State),
    (s.each l fun s c => s.modCore c f).core d = if d ∈ l then f (s.core d) else s.core d
  | [], s => (if_neg List.not_mem_nil).symm
  | c :: l, s => by
    refine (State.core_each_modCore hf d l (s.modCore c f)).trans ?_
    by_cases hc : d = c
    · rw [hc, if_pos List.mem_cons_self, show (s.modCore c f).core c = f (s.core c) from s.core_setCore ..]
      by_cases hl : c ∈ l
      · rw [if_pos hl, hf]
      · rw [if_neg hl]
    · rw [show (s.modCore c f).core d = s.core d from s.core_setCore_ne _ _ _ hc]
      simp only [List.mem_cons, hc, false_or]

theorem State.only_each_modCore (f : Core → Core) (l : List Nat) (s : State) :
    (s.each l fun s c => s.modCore c f) = { s with cores := (s.each l fun s c => s.modCore c f).cores } :=
  State.each_rel (R := fun a b : State => b = { a with cores := b.cores }) (fun _ => rfl)
    (fun h h' => by rw [h', h]) (fun _ _ => rfl) l s

/-! ## Load notices (R430-R432) -/

/-- The notices of a region that are still to come. -/
def State.liveNotices (s : State) (q : Nat) : List Notice := (s.region q).notices.filter fun n => decide (s.time < n.due)

/-- The oldest notice of core c is taken, and its region's list becomes l. -/
def State.noticeTaken (s : State) (c : Nat) (rest : List Word) (l : List Notice) : State :=
  (s.modCore c fun k => { k with notices := rest }).setRegion (regionOf c) { s.region (regionOf c) with notices := l }

theorem State.noticeTaken_spec (s : State) (c : Nat) (rest : List Word) (l : List Notice) :
    s.noticeTaken c rest l = { s with cores := (s.noticeTaken c rest l).cores, regions := (s.noticeTaken c rest l).regions } ∧
    (s.noticeTaken c rest l).core c = { s.core c with notices := rest } ∧
    (∀ d, d ≠ c → (s.noticeTaken c rest l).core d = s.core d) ∧
    (s.noticeTaken c rest l).region (regionOf c) = { s.region (regionOf c) with notices := l } ∧
    ∀ m, m ≠ regionOf c → (s.noticeTaken c rest l).region m = s.region m :=
  ⟨rfl, s.core_setCore .., fun _ hd => s.core_setCore_ne _ _ _ hd, State.region_setRegion ..,
    fun _ hm => State.region_setRegion_ne _ _ _ _ hm⟩

section

variable {c : CoreId} {word : Word} {rest : List Word} (h : (s.core c.val).notices = word :: rest)

include h

/-- What becomes of a load notice, by its kind, its reserved bits and its lead. -/
theorem exec_loadNotice_cons : exec (.loadNotice c) s =
    if bits word.toNat 19 18 = 3 ∨ bits word.toNat 31 28 ≠ 0 then
      .next ((s.noticeTaken c.val rest (s.liveNotices (regionOf c.val))).bump (K.noticeBad (regionOf c.val)) 32 1)
    else if bits word.toNat 19 18 = 2 then
      .next (s.noticeTaken c.val rest ((s.liveNotices (regionOf c.val)).filter fun n => n.core != c.val))
    else if bits word.toNat 17 10 < 47 ∨ 8 ≤ (s.liveNotices (regionOf c.val)).length then
      .next ((s.noticeTaken c.val rest (s.liveNotices (regionOf c.val))).bump (K.noticeLate (regionOf c.val)) 32 1)
    else .next (s.noticeTaken c.val rest (s.liveNotices (regionOf c.val) ++ [⟨c.val, noteDelta word.toNat,
        s.time + 64 * bits word.toNat 17 10 * 1000000 / s.rd K.mclkNow, bits word.toNat 19 18, bits word.toNat 27 20⟩])) := by
  rw [exec_loadNotice]
  unfold execLoadNotice
  rw [h] <;> rfl

variable (hgood : ¬(bits word.toNat 31 28 ≠ 0 ∨ bits word.toNat 19 18 = 3))

theorem exec_loadNotice_bad (hbad : bits word.toNat 31 28 ≠ 0 ∨ bits word.toNat 19 18 = 3) : exec (.loadNotice c) s =
    .next ((s.noticeTaken c.val rest (s.liveNotices (regionOf c.val))).bump (K.noticeBad (regionOf c.val)) 32 1) :=
  (exec_loadNotice_cons h).trans (if_pos hbad.symm)

include hgood

theorem exec_loadNotice_cancel (hcancel : bits word.toNat 19 18 = 2) : exec (.loadNotice c) s =
    .next (s.noticeTaken c.val rest ((s.liveNotices (regionOf c.val)).filter fun n => n.core != c.val)) :=
  (exec_loadNotice_cons h).trans ((if_neg fun hc => hgood hc.symm).trans (if_pos hcancel))

variable (hkind : bits word.toNat 19 18 ≠ 2)

include hkind

theorem exec_loadNotice_late (hlate : bits word.toNat 17 10 < 47 ∨ 8 ≤ (s.liveNotices (regionOf c.val)).length) :
    exec (.loadNotice c) s =
      .next ((s.noticeTaken c.val rest (s.liveNotices (regionOf c.val))).bump (K.noticeLate (regionOf c.val)) 32 1) :=
  (exec_loadNotice_cons h).trans ((if_neg fun hc => hgood hc.symm).trans ((if_neg hkind).trans (if_pos hlate)))

theorem exec_loadNotice_taken (hlate : ¬(bits word.toNat 17 10 < 47 ∨ 8 ≤ (s.liveNotices (regionOf c.val)).length)) :
    exec (.loadNotice c) s = .next (s.noticeTaken c.val rest (s.liveNotices (regionOf c.val) ++ [⟨c.val, noteDelta word.toNat,
        s.time + 64 * bits word.toNat 17 10 * 1000000 / s.rd K.mclkNow, bits word.toNat 19 18, bits word.toNat 27 20⟩])) :=
  (exec_loadNotice_cons h).trans ((if_neg fun hc => hgood hc.symm).trans ((if_neg hkind).trans (if_neg hlate)))

end

/-! ## The most overdue notice (R432) -/

/-- Notices in the order of their steps. -/
def noticeBefore (a b : Notice) : Bool := lexLt [a.due, a.core] [b.due, b.core]

theorem noticeBefore_due {a b : Notice} : (noticeBefore a b = true → a.due ≤ b.due) ∧ (noticeBefore a b = false → b.due ≤ a.due) := by
  have hlex : noticeBefore a b = (decide (a.due < b.due) || (a.due == b.due && lexLt [a.core] [b.core])) := rfl
  rw [hlex]
  constructor
  · intro h
    rcases Bool.or_eq_true _ _ ▸ h with h | h
    · exact (of_decide_eq_true h).le
    · exact (beq_iff_eq.1 ((Bool.and_eq_true _ _ ▸ h).1)).le
  · intro h
    exact not_lt.1 (of_decide_eq_false (Bool.or_eq_false_iff.1 h).1)

/-- The first of the sorted notices is one of them, and none is due before it. -/
theorem sortBy_notices_head : ∀ {l : List Notice}, l ≠ [] → ∃ n t, sortBy noticeBefore l = n :: t ∧ n ∈ l ∧ ∀ m ∈ l, n.due ≤ m.due
  | [x], _ => ⟨x, [], rfl, List.mem_cons_self, fun m hm => by rw [List.mem_singleton.1 hm]⟩
  | x :: y :: l, _ => by
    obtain ⟨n, t, hsort, hmem, hle⟩ := sortBy_notices_head (List.cons_ne_nil y l)
    have hins : sortBy noticeBefore (x :: y :: l) = if noticeBefore n x then n :: insBy noticeBefore x t else x :: n :: t := by
      rw [show sortBy noticeBefore (x :: y :: l) = insBy noticeBefore x (sortBy noticeBefore (y :: l)) from rfl, hsort]
      rfl
    by_cases hfirst : noticeBefore n x = true
    · refine ⟨n, _, hins.trans (if_pos hfirst), List.mem_cons_of_mem _ hmem, fun m hm => ?_⟩
      rcases List.mem_cons.1 hm with rfl | hm
      · exact noticeBefore_due.1 hfirst
      · exact hle m hm
    · refine ⟨x, _, hins.trans (if_neg hfirst), List.mem_cons_self, fun m hm => ?_⟩
      rcases List.mem_cons.1 hm with rfl | hm
      · exact le_rfl
      · exact (noticeBefore_due.2 (eq_false_of_ne_true hfirst)).trans (hle m hm)

theorem exec_prebiasRelease_none (h : (s.region r.val).notices = []) : exec (.prebiasRelease r) s = .next s := by
  rw [exec_prebiasRelease]
  unfold execPrebiasRelease
  dsimp only
  rw [h] <;> rfl

theorem exec_prebiasRelease_first {n : Notice} {t : List Notice} (h : sortBy noticeBefore (s.region r.val).notices = n :: t) :
    exec (.prebiasRelease r) s = .next (s.setRegion r.val { s.region r.val with notices := (s.region r.val).notices.erase n }) := by
  rw [exec_prebiasRelease]
  unfold execPrebiasRelease
  dsimp only
  rw [show sortBy (fun (a b : Notice) => lexLt [a.due, a.core] [b.due, b.core]) (s.region r.val).notices = n :: t from h]

/-! ## Comparators (R433, R435) -/

/-- The lowest crossing is kept. -/
def State.vminKept (s : State) (q mv : Nat) : State :=
  if mv < s.rd (K.vmin q) then (s.wr (K.vmin q) mv).wr (K.vminTime q) s.time else s

theorem vmin_ne_vminTime (q : Nat) : K.vmin q ≠ K.vminTime q := by
  unfold K.vmin K.vminTime
  omega

theorem State.vminKept_spec (s : State) (q mv : Nat) : s.OnlyEntries (s.vminKept q mv) [K.vmin q, K.vminTime q] ∧
    if mv < s.rd (K.vmin q) then (s.vminKept q mv).rd (K.vmin q) = mv ∧ (s.vminKept q mv).rd (K.vminTime q) = s.time
    else (s.vminKept q mv).rd (K.vmin q) = s.rd (K.vmin q) ∧ (s.vminKept q mv).rd (K.vminTime q) = s.rd (K.vminTime q) := by
  unfold State.vminKept
  by_cases h : mv < s.rd (K.vmin q)
  · rw [if_pos h, if_pos h]
    exact ⟨(s.holds_wr_wr _ _ (vmin_ne_vminTime q)).1,
      (State.rd_wr_ne _ _ _ _ (vmin_ne_vminTime q)).trans (State.rd_wr ..), State.rd_wr ..⟩
  · rw [if_neg h, if_neg h]
    exact ⟨⟨rfl, fun _ _ => rfl⟩, rfl, rfl⟩

theorem vmin_not_logKey : K.vmin r.val ∉ logKeys := not_logKey (by have := r.isLt; unfold K.vmin; omega)
theorem vminTime_not_logKey : K.vminTime r.val ∉ logKeys := not_logKey (by have := r.isLt; unfold K.vminTime; omega)

/-- A report of the comparators, with the event when the crossing lies below the margin. -/
theorem vminCrossing_clause (step : Fin 64) : ∃ t, exec (.vminCrossing r step) s = .next t ∧
    s.OnlyEntriesAndLog t [K.vmin r.val, K.vminTime r.val] ∧
    (if stepMv step.val < s.rd (K.vmin r.val) then t.rd (K.vmin r.val) = stepMv step.val ∧ t.rd (K.vminTime r.val) = s.time
     else t.rd (K.vmin r.val) = s.rd (K.vmin r.val) ∧ t.rd (K.vminTime r.val) = s.rd (K.vminTime r.val)) ∧
    (if stepMv step.val + 60 < s.rd (K.vSet r.val) then t.Logged 0x1003 1
     else s.OnlyEntries t [K.vmin r.val, K.vminTime r.val]) := by
  obtain ⟨u, hu⟩ : ∃ u, u = s.vminKept r.val (stepMv step.val) := ⟨_, rfl⟩
  obtain ⟨honly, hkept⟩ := hu ▸ s.vminKept_spec r.val (stepMv step.val)
  have hset : u.rd (K.vSet r.val) = s.rd (K.vSet r.val) := honly.2 _ (by
    simp only [List.mem_cons, List.not_mem_nil, or_false, not_or]
    unfold K.vSet K.vmin K.vminTime
    omega)
  have hexec : exec (.vminCrossing r step) s = .next (if stepMv step.val + 60 < u.rd (K.vSet r.val) then
      u.logMg noInst 0x1003 1 0 noSlot r.val (u.rd (K.vmin r.val)) else u) := by rw [hu]; rfl
  rw [hset] at hexec
  by_cases hlow : stepMv step.val + 60 < s.rd (K.vSet r.val)
  · rw [if_pos hlow] at hexec
    have hlog := u.logMg_only noInst 0x1003 1 0 noSlot r.val (u.rd (K.vmin r.val))
    refine ⟨_, hexec, ⟨?_, fun k hk hl => (State.logMg_rd _ _ _ _ _ _ _ _ hl).trans (honly.2 k hk)⟩, ?_, ?_⟩
    · rw [hlog.eq, honly.1]
    · rw [State.logMg_rd _ _ _ _ _ _ _ _ vmin_not_logKey, State.logMg_rd _ _ _ _ _ _ _ _ vminTime_not_logKey]
      exact hkept
    · rw [if_pos hlow]
      exact State.logged_logMg _ _ _ _ _ _ _ _ rfl
  · rw [if_neg hlow] at hexec
    refine ⟨u, hexec, ⟨?_, fun k hk _ => honly.2 k hk⟩, hkept, by rw [if_neg hlow]; exact honly⟩
    rw [honly.1]

/-! ## The converter (R434) -/

/-- What a current sample makes of its region: code, count of low samples, range, running sum. -/
def Region.sampleCode (x : Region) (ma : Nat) : Nat := min 4095 (ma * 4096 / (if x.coarse then 160000 else 40000))
def Region.sampleLow (x : Region) (ma : Nat) : Nat :=
  if x.coarse = true ∧ 160 * x.sampleCode ma ≤ 34 * 4096 then x.low + 1 else 0
def Region.sampleCoarse (x : Region) (ma : Nat) : Bool :=
  if x.coarse then decide (x.sampleLow ma < 4) else decide (38 * 4096 ≤ 40 * x.sampleCode ma)
def Region.sampleSum (x : Region) (ma : Nat) : Nat := x.sum + (if x.coarse then 4 * x.sampleCode ma else x.sampleCode ma)

/-- The region after a sample. -/
def Region.sampled (x : Region) (ma : Nat) : Region :=
  { x with coarse := x.sampleCoarse ma, low := if x.sampleCoarse ma then x.sampleLow ma else 0
           count := if x.count = 999 then 0 else x.count + 1, sum := if x.count = 999 then 0 else x.sampleSum ma }

/-- The sample's word. -/
def Region.sampleWord (x : Region) (ma : Nat) : Nat :=
  pack [(x.sampleCode ma, 0), (b2n x.coarse, 12), (b2n (x.sampleCode ma == 4095), 13)]

theorem exec_currentSample_eq (ma : Nat) : exec (.currentSample r ma) s =
    if (s.region r.val).count = 999 then
      .next (((s.wr (K.iSample r.val) ((s.region r.val).sampleWord ma)).setRegion r.val { s.region r.val with
        coarse := (s.region r.val).sampleCoarse ma
        low := if (s.region r.val).sampleCoarse ma then (s.region r.val).sampleLow ma else 0
        count := 0, sum := 0 }).wr (K.iAvg r.val) ((s.region r.val).sampleSum ma * 40000 / 4096 / 1000))
    else .next ((s.wr (K.iSample r.val) ((s.region r.val).sampleWord ma)).setRegion r.val { s.region r.val with
        coarse := (s.region r.val).sampleCoarse ma
        low := if (s.region r.val).sampleCoarse ma then (s.region r.val).sampleLow ma else 0
        count := (s.region r.val).count + 1, sum := (s.region r.val).sampleSum ma }) := rfl

theorem iSample_ne_iAvg (q : Nat) : K.iSample q ≠ K.iAvg q := by
  unfold K.iSample K.iAvg
  omega

theorem currentSample_clause (ma : Nat) : ∃ t, exec (.currentSample r ma) s = .next t ∧
    t = { s with dict := t.dict, regions := t.regions } ∧ t.rd (K.iSample r.val) = (s.region r.val).sampleWord ma ∧
    t.rd (K.iAvg r.val) = (if (s.region r.val).count = 999 then (s.region r.val).sampleSum ma * 40000 / 4096 / 1000
      else s.rd (K.iAvg r.val)) ∧
    (∀ k, k ∉ [K.iSample r.val, K.iAvg r.val] → t.rd k = s.rd k) ∧ (∀ m, m ≠ r.val → t.region m = s.region m) ∧
    t.region r.val = (s.region r.val).sampled ma := by
  have hexec := exec_currentSample_eq (s := s) (r := r) ma
  unfold Region.sampled
  by_cases hlast : (s.region r.val).count = 999
  · rw [if_pos hlast] at hexec
    rw [if_pos hlast, if_pos hlast, if_pos hlast]
    refine ⟨_, hexec, rfl, (State.rd_wr_ne _ _ _ _ (iSample_ne_iAvg _)).trans (s.rd_wr ..), State.rd_wr .., fun k hk => ?_,
      fun m hm => State.region_setRegion_ne s _ _ _ hm, State.region_setRegion s ..⟩
    simp only [List.mem_cons, List.not_mem_nil, or_false, not_or] at hk
    exact (State.rd_wr_ne _ _ _ _ hk.2).trans (s.rd_wr_ne _ _ _ hk.1)
  · rw [if_neg hlast] at hexec
    rw [if_neg hlast, if_neg hlast, if_neg hlast]
    refine ⟨_, hexec, rfl, s.rd_wr .., s.rd_wr_ne _ _ _ (iSample_ne_iAvg _).symm, fun k hk => ?_,
      fun m hm => State.region_setRegion_ne s _ _ _ hm, State.region_setRegion s ..⟩
    simp only [List.mem_cons, List.not_mem_nil, or_false, not_or] at hk
    exact s.rd_wr_ne _ _ _ hk.1

end Sys2Proof.Machine
end

section
/-! Power regions: temperature and throttling (R441, R442), for O55. -/

namespace Sys2Proof.Machine

variable {s : State} {r : RegionId}

theorem temp_not_logKey (r : RegionId) : K.temp r.val ∉ logKeys := not_logKey (by have := r.isLt; unfold K.temp; omega)
theorem throttle_not_logKey (r : RegionId) : K.throttle r.val ∉ logKeys :=
  not_logKey (by have := r.isLt; unfold K.throttle; omega)
theorem tPanelMax_not_logKey (r : RegionId) : K.tPanelMax (r.val / 25) ∉ logKeys :=
  not_logKey (by have := r.isLt; unfold K.tPanelMax; omega)

/-! ## The report before its instance is judged -/

/-- A report: its entries and its region. -/
def State.reported (s : State) (r : Nat) (temp : Int) : State :=
  ((s.wrI (K.temp r) 32 temp).wr (K.throttle r) (s.throttleNext r temp).1).setRegion r { s.region r with
    cool := (s.throttleNext r temp).2
    top := if s.rd (K.throttle r) = 10 ∧ s.rdI K.tThrottle 32 < temp then ((s.region r).top + 1) % 60000 else 0 }

/-- The hottest region of a panel, the reported one among them. -/
def State.panelHot (s : State) (q : Nat) (temp : Int) : Int :=
  (List.range 25).foldl (fun m j => max m (s.rdI (K.temp (25 * q + j)) 32)) temp

/-- The panel's entry shows its hottest region. -/
def State.heatShown (s : State) (r : Nat) (temp : Int) : State :=
  (s.reported r temp).wrI (K.tPanelMax (r / 25)) 32 ((s.reported r temp).panelHot (r / 25) temp)

/-- The region's cores are paced. -/
def State.throttled (s : State) (r : Nat) (temp : Int) : State :=
  (s.heatShown r temp).each (coresOfRegion r) fun u c =>
    u.modCore c fun k => { k with pace := decide (0 < (s.throttleNext r temp).1) }

/-- The region has stood at the last level for a minute: the event is logged (R442). -/
def State.throttleLogged (s : State) (r : Nat) (temp : Int) : State :=
  if (s.rd (K.throttle r) = 10 ∧ s.rdI K.tThrottle 32 < temp) ∧ (s.region r).top = 0 then
    (s.throttled r temp).logMg noInst 0x1004 1 0 noSlot r (unsignedAt 32 temp) else s.throttled r temp

theorem exec_throttleUpdate_logged (temp : Int) : exec (.throttleUpdate r temp) s =
    match (s.throttleLogged r.val temp).instOfPanel (r.val / 25) with
    | some i => .next (if (s.throttleLogged r.val temp).regionsCool i then
        (s.throttleLogged r.val temp).heatRelease i fun c => decide (c < 0x100) else s.throttleLogged r.val temp)
    | none => .next (s.throttleLogged r.val temp) := rfl

theorem State.heatShown_frame (s : State) (r : Nat) (temp : Int) : s.heatShown r temp = { s with
    dict := (s.heatShown r temp).dict, regions := (s.heatShown r temp).regions } := rfl

theorem State.heatShown_core (s : State) (r d : Nat) (temp : Int) : (s.heatShown r temp).core d = s.core d := rfl

theorem State.throttled_cores (s : State) (r : Nat) (temp : Int) :
    s.throttled r temp = { s.heatShown r temp with cores := (s.throttled r temp).cores } := State.only_each_modCore ..

/-- Cores that change after entries and regions have. -/
theorem State.cores_after {s u t : State} (hu : u = { s with dict := u.dict, regions := u.regions })
    (ht : t = { u with cores := t.cores }) : t = { s with dict := t.dict, regions := t.regions, cores := t.cores } := by
  rw [ht, hu]

theorem State.rd_of_cores {u t : State} (ht : t = { u with cores := t.cores }) (k : Nat) : t.rd k = u.rd k := by
  rw [ht]
  rfl

theorem State.region_of_cores {u t : State} (ht : t = { u with cores := t.cores }) (k : Nat) : t.region k = u.region k := by
  rw [ht]
  rfl

theorem State.throttled_insts (s : State) (r : Nat) (temp : Int) : s.throttled r temp = { s with
    dict := (s.throttled r temp).dict, regions := (s.throttled r temp).regions, cores := (s.throttled r temp).cores } :=
  State.cores_after (s.heatShown_frame r temp) (s.throttled_cores r temp)

theorem State.throttled_rd (s : State) (r k : Nat) (temp : Int) : (s.throttled r temp).rd k =
    if k = K.tPanelMax (r / 25) then unsignedAt 32 ((s.reported r temp).panelHot (r / 25) temp)
    else if k = K.throttle r then (s.throttleNext r temp).1 else if k = K.temp r then unsignedAt 32 temp else s.rd k := by
  refine (State.rd_of_cores (s.throttled_cores r temp) k).trans ((State.rd_wr_if ..).trans (if_congr Iff.rfl rfl ?_))
  refine (State.rd_wr_if (s.wrI (K.temp r) 32 temp) _ _ k).trans (if_congr Iff.rfl rfl ?_)
  exact s.rd_wr_if _ _ k

theorem State.throttled_core (s : State) (r d : Nat) (temp : Int) : (s.throttled r temp).core d =
    if d ∈ coresOfRegion r then { s.core d with pace := decide (0 < (s.throttleNext r temp).1) } else s.core d := by
  have hcore := State.core_each_modCore (f := fun k => { k with pace := decide (0 < (s.throttleNext r temp).1) })
    (fun _ => rfl) d (coresOfRegion r) (s.heatShown r temp)
  rw [s.heatShown_core] at hcore
  exact hcore

/-- A region after a report (R442). -/
def Region.reported (x : Region) (cool : Nat) (held : Prop) [Decidable held] : Region :=
  { x with cool := cool, top := if held then (x.top + 1) % 60000 else 0 }

theorem State.reported_region (s : State) (r m : Nat) (temp : Int) : (s.reported r temp).region m =
    if m = r then (s.region r).reported (s.throttleNext r temp).2 (s.rd (K.throttle r) = 10 ∧ s.rdI K.tThrottle 32 < temp)
    else s.region m := by
  unfold State.reported Region.reported
  rw [State.region_setRegion_if]
  rfl

theorem State.throttled_region (s : State) (r m : Nat) (temp : Int) :
    (s.throttled r temp).region m = (s.reported r temp).region m :=
  (State.region_of_cores (s.throttled_cores r temp) m).trans (by unfold State.heatShown; rfl)

/-- The level and the count of cool reports that follow (R442). -/
theorem State.throttleNext_eq (s : State) (r : Nat) (temp : Int) : s.throttleNext r temp =
    (if s.rdI K.tThrottle 32 < temp then min 10 (s.rd (K.throttle r) + 1)
      else if temp < s.rdI K.tThrottle 32 - 3000 ∧ (s.region r).cool = 9 then s.rd (K.throttle r) - 1 else s.rd (K.throttle r),
     if temp < s.rdI K.tThrottle 32 - 3000 ∧ (s.region r).cool ≠ 9 then (s.region r).cool + 1 else 0) := by
  unfold State.throttleNext
  dsimp only
  by_cases hhot : s.rdI K.tThrottle 32 < temp
  · rw [if_pos hhot, if_pos hhot, if_neg (by omega)]
  · rw [if_neg hhot, if_neg hhot]
    by_cases hcool : temp < s.rdI K.tThrottle 32 - 3000
    · rw [if_pos hcool]
      by_cases hnine : (s.region r).cool = 9
      · rw [if_pos hnine, if_pos ⟨hcool, hnine⟩, if_neg fun h => h.2 hnine]
      · rw [if_neg hnine, if_neg fun h => hnine h.2, if_pos ⟨hcool, hnine⟩]
    · rw [if_neg hcool, if_neg fun h => hcool h.1, if_neg fun h => hcool h.1]

/-- Only what a report touches differs. -/
def State.ReportOnly (s t : State) : Prop :=
  t = { s with dict := t.dict, regions := t.regions, cores := t.cores, insts := t.insts, log := t.log, fns := t.fns,
               sent := t.sent, logMsgAt := t.logMsgAt, logMsgHeld := t.logMsgHeld }

theorem State.throttleLogged_spec (s : State) (r : Nat) (temp : Int) : s.ReportOnly (s.throttleLogged r temp) ∧
    (s.throttleLogged r temp).insts = s.insts ∧ (s.throttleLogged r temp).regions = (s.throttled r temp).regions ∧
    (s.throttleLogged r temp).cores = (s.throttled r temp).cores ∧
    (∀ k, k ∉ logKeys → (s.throttleLogged r temp).rd k = (s.throttled r temp).rd k) ∧
    if (s.rd (K.throttle r) = 10 ∧ s.rdI K.tThrottle 32 < temp) ∧ (s.region r).top = 0 then
      (s.throttleLogged r temp).Logged 0x1004 1 else (s.throttleLogged r temp).log = s.log := by
  have hframe := s.throttled_insts r temp
  unfold State.throttleLogged
  by_cases hlast : (s.rd (K.throttle r) = 10 ∧ s.rdI K.tThrottle 32 < temp) ∧ (s.region r).top = 0
  · rw [if_pos hlast, if_pos hlast]
    have hlog := (s.throttled r temp).logMg_only noInst 0x1004 1 0 noSlot r (unsignedAt 32 temp)
    refine ⟨?_, hlog.insts.trans (by rw [hframe]), hlog.regions, hlog.cores, fun k hk => State.logMg_rd _ _ _ _ _ _ _ _ hk,
      State.logged_logMg _ _ _ _ _ _ _ _ rfl⟩
    unfold State.ReportOnly
    rw [hlog.eq, hframe]
  · rw [if_neg hlast, if_neg hlast]
    refine ⟨?_, by rw [hframe], rfl, rfl, fun _ _ => rfl, by rw [hframe]⟩
    unfold State.ReportOnly
    rw [hframe]

end Sys2Proof.Machine
end

section
/-! Power regions: what a report of temperature does to the panel's instance (R441, R442), for O55. -/

namespace Sys2Proof.Machine

variable {s : State} {r : RegionId}

theorem instState_ne_report (i : Nat) (r : RegionId) : K.instState i ≠ K.tPanelMax (r.val / 25) ∧
    K.instState i ≠ K.throttle r.val ∧ K.instState i ≠ K.temp r.val := by
  unfold K.instState K.tPanelMax K.throttle K.temp
  omega

/-- Entries that a report leaves as they were. -/
theorem State.throttleLogged_kept (s : State) (r : RegionId) (temp : Int) {k : Nat} (hlog : k ∉ logKeys)
    (hpanel : k ≠ K.tPanelMax (r.val / 25)) (hlevel : k ≠ K.throttle r.val) (htemp : k ≠ K.temp r.val) :
    (s.throttleLogged r.val temp).rd k = s.rd k := by
  obtain ⟨-, -, -, -, hrd, -⟩ := s.throttleLogged_spec r.val temp
  rw [hrd k hlog, State.throttled_rd, if_neg hpanel, if_neg hlevel, if_neg htemp]

theorem State.throttleLogged_inst (s : State) (r : Nat) (temp : Int) (i : Nat) :
    (s.throttleLogged r temp).inst i = s.inst i := by
  obtain ⟨-, hinsts, -⟩ := s.throttleLogged_spec r temp
  exact (congrArg (fun l => mapGet (fun _ => ({} : Inst)) l i) hinsts :)

theorem State.throttleLogged_state (s : State) (r : RegionId) (temp : Int) (i : InstId) :
    (s.throttleLogged r.val temp).rd (K.instState i.val) = s.rd (K.instState i.val) := by
  obtain ⟨hpanel, hlevel, htemp⟩ := instState_ne_report i.val r
  exact s.throttleLogged_kept r temp (instState_not_logKey i) hpanel hlevel htemp

theorem State.throttleLogged_panel (s : State) (r : RegionId) (temp : Int) (q : Nat) :
    (s.throttleLogged r.val temp).instOfPanel q = s.instOfPanel q :=
  State.instOfPanel_congr q (s.throttleLogged_state r temp) fun i => by rw [s.throttleLogged_inst]

/-- The hottest region is found from temperatures alone. -/
theorem State.panelHot_congr {s t : State} (q : Nat) (temp : Int)
    (h : ∀ j, t.rd (K.temp j) = s.rd (K.temp j)) : t.panelHot q temp = s.panelHot q temp := by
  unfold State.panelHot State.rdI
  simp only [h]

/-- Whether an instance is cool depends on its panels, the temperatures and the limit alone. -/
theorem State.regionsCool_congr {s t : State} (i : Nat) (hpanels : (t.inst i).panels = (s.inst i).panels)
    (h : ∀ j, t.rd (K.temp j) = s.rd (K.temp j)) (hlimit : t.rd K.tThrottle = s.rd K.tThrottle) :
    t.regionsCool i = s.regionsCool i := by
  unfold State.regionsCool State.regionsOf State.rdI
  rw [hpanels, hlimit]
  simp only [h]

theorem temp_ne_tPanelMax (j q : Nat) : K.temp j ≠ K.tPanelMax q := by
  unfold K.temp K.tPanelMax
  omega

theorem temp_ne_instState (j i : Nat) : K.temp j ≠ K.instState i := by
  unfold K.temp K.instState
  omega

theorem tThrottle_ne_instState (i : Nat) : K.tThrottle ≠ K.instState i := by
  unfold K.tThrottle K.instState
  omega

theorem temp_no_logKey (j : Nat) : K.temp j ∉ logKeys := by
  intro hmem
  simp only [logKeys, K.logHead, K.logTail, K.logOverwritten, K.alertCauses, K.instEvents, List.mem_cons, List.not_mem_nil,
    or_false] at hmem
  unfold K.temp at hmem
  omega

/-- What any temperature entry of the panel reads once the report is in, whatever the instance then does. -/
theorem State.temp_reported (s : State) (r : RegionId) (temp : Int) (j : Nat) :
    (s.throttleLogged r.val temp).rd (K.temp j) = (s.reported r.val temp).rd (K.temp j) := by
  obtain ⟨-, -, -, -, hrd, -⟩ := s.throttleLogged_spec r.val temp
  rw [hrd _ (temp_no_logKey j)]
  refine (State.rd_of_cores (s.throttled_cores r.val temp) _).trans ?_
  exact State.rd_wr_ne _ _ _ _ (temp_ne_tPanelMax _ _)

/-- The state that a report leaves once its instance is judged. -/
theorem State.judged_temp (s : State) (i : Nat) (past : Nat → Bool) (j : Nat) :
    (s.heatRelease i past).rd (K.temp j) = s.rd (K.temp j) := by
  obtain ⟨-, -, -, -, -, hrd, -⟩ := s.heatRelease_spec i past _ rfl
  exact hrd _ (temp_ne_instState j i)

theorem ReportOnly_of_heat {s t u : State} (h : s.ReportOnly t) (h' : t.HeatOnly u) (hstacks : u.hbmStacks = t.hbmStacks) :
    s.ReportOnly u := by
  unfold State.ReportOnly State.HeatOnly at *
  rw [h', hstacks, h]

/-- Entries, region, cores and log after a report, before and after its instance is judged. -/
structure State.ReportSpec (s t : State) (r : RegionId) (temp : Int) : Prop where
  only : s.ReportOnly t
  reading : t.rd (K.temp r.val) = unsignedAt 32 temp
  level : t.rd (K.throttle r.val) = (s.throttleNext r.val temp).1
  hottest : t.rd (K.tPanelMax (r.val / 25)) = unsignedAt 32 (t.panelHot (r.val / 25) temp)
  region : t.region r.val = (s.region r.val).reported (s.throttleNext r.val temp).2
    (s.rd (K.throttle r.val) = 10 ∧ s.rdI K.tThrottle 32 < temp)
  others : ∀ m, m ≠ r.val → t.region m = s.region m
  core : ∀ d, t.core d = if d ∈ coresOfRegion r.val then
    { s.core d with pace := decide (0 < (s.throttleNext r.val temp).1) } else s.core d
  log : if (s.rd (K.throttle r.val) = 10 ∧ s.rdI K.tThrottle 32 < temp) ∧ (s.region r.val).top = 0 then
    t.Logged 0x1004 1 else t.log = s.log

theorem throttle_ne_temp (r : Nat) : K.temp r ≠ K.throttle r := by
  unfold K.temp K.throttle
  omega

theorem throttle_ne_tPanelMax (r q : Nat) : K.throttle r ≠ K.tPanelMax q := by
  unfold K.throttle K.tPanelMax
  omega

theorem State.throttleLogged_report (s : State) (r : RegionId) (temp : Int) :
    s.ReportSpec (s.throttleLogged r.val temp) r temp := by
  obtain ⟨honly, -, hregions, hcores, hrd, hlog⟩ := s.throttleLogged_spec r.val temp
  have hregion : ∀ m, (s.throttleLogged r.val temp).region m = (s.reported r.val temp).region m := fun m =>
    (congrArg (fun l => mapGet (fun _ => ({} : Region)) l m) hregions :).trans (s.throttled_region r.val m temp)
  refine ⟨honly, ?_, ?_, ?_, ?_, fun m hm => ?_, fun d => ?_, hlog⟩
  · rw [hrd _ (temp_not_logKey r), State.throttled_rd, if_neg (temp_ne_tPanelMax _ _), if_neg (throttle_ne_temp _), if_pos rfl]
  · rw [hrd _ (throttle_not_logKey r), State.throttled_rd, if_neg (throttle_ne_tPanelMax _ _), if_pos rfl]
  · rw [hrd _ (tPanelMax_not_logKey r), State.throttled_rd, if_pos rfl,
      State.panelHot_congr (r.val / 25) temp (s.temp_reported r temp)]
  · rw [hregion, State.reported_region, if_pos rfl]
  · rw [hregion, State.reported_region, if_neg hm]
  · rw [← State.throttled_core]
    exact (congrArg (fun l => mapGet (fun _ => ({} : Core)) l d) hcores :)

/-- Judging the instance keeps what the report left. -/
theorem State.ReportSpec.released {s t : State} {r : RegionId} {temp : Int} (h : s.ReportSpec t r temp) (i : Nat)
    (past : Nat → Bool) : s.ReportSpec (t.heatRelease i past) r temp := by
  obtain ⟨hheat, hstacks, hlog, -, -, hrd, -⟩ := t.heatRelease_spec i past _ rfl
  obtain ⟨hpanel, hlevel, htemp⟩ := instState_ne_report i r
  have hregion : ∀ m, (t.heatRelease i past).region m = t.region m := fun m =>
    (congrArg (fun l => mapGet (fun _ => ({} : Region)) l m) (congrArg State.regions hheat) :)
  have hcore : ∀ d, (t.heatRelease i past).core d = t.core d := fun d =>
    (congrArg (fun l => mapGet (fun _ => ({} : Core)) l d) (congrArg State.cores hheat) :)
  refine ⟨ReportOnly_of_heat h.only hheat hstacks, (hrd _ htemp.symm).trans h.reading, (hrd _ hlevel.symm).trans h.level, ?_,
    (hregion _).trans h.region, fun m hm => (hregion m).trans (h.others m hm), fun d => (hcore d).trans (h.core d), ?_⟩
  · rw [hrd _ hpanel.symm, h.hottest, State.panelHot_congr (r.val / 25) temp (t.judged_temp i past)]
  · unfold State.Logged
    rw [hlog]
    exact h.log

theorem filter_stacks (l : List Nat) : (l.filter fun c => !decide (c < 0x100)) = l.filter fun c => decide (0x100 ≤ c) :=
  List.filter_congr fun c _ => by
    rw [← decide_not]
    exact decide_eq_decide.2 Nat.not_lt

end Sys2Proof.Machine
end

section
/-! Power regions: set points, the thermal estimate, regulators and retention (R422, R437, R439, R444, R445), for O55. -/

namespace Sys2Proof.Machine

variable {s : State}

/-! ## Set points (R439) -/

theorem vSet_inj {a b : Nat} (h : K.vSet a = K.vSet b) : a = b := by
  unfold K.vSet at h
  omega

theorem vMargin_ne_vSet (q : Nat) : K.vMargin ≠ K.vSet q := by
  unfold K.vMargin K.vSet
  omega

/-- A set point follows from the margin and the panel's dither. -/
theorem State.corePoint_congr {s t : State} (hmargin : t.rd K.vMargin = s.rd K.vMargin) (hpanels : t.panels = s.panels)
    (q khz : Nat) : t.corePoint q khz = s.corePoint q khz := by
  unfold State.corePoint State.rdI State.panel
  rw [hmargin, hpanels]

theorem State.corePoint_wr (s : State) (x v q khz : Nat) : (s.wr (K.vSet x) v).corePoint q khz = s.corePoint q khz :=
  State.corePoint_congr (State.rd_wr_ne _ _ _ _ (vMargin_ne_vSet x)) rfl q khz

theorem State.setVolts_other {k khz : Nat} : ∀ (l : List Nat) (s : State), (∀ q ∈ l, k ≠ K.vSet q) →
    (s.setVolts l khz).rd k = s.rd k
  | [], _, _ => rfl
  | q :: l, s, h => (State.setVolts_other l (s.wr (K.vSet q) (s.corePoint q khz)) fun x hx => h x (List.mem_cons_of_mem _ hx)).trans
      (State.rd_wr_ne _ _ _ _ (h q List.mem_cons_self))

theorem State.setVolts_point {q khz : Nat} {l : List Nat} (h : q ∈ l) (s : State) :
    (s.setVolts l khz).rd (K.vSet q) = s.corePoint q khz := by
  induction l generalizing s with
  | nil => exact absurd h List.not_mem_nil
  | cons x l ih =>
    obtain ⟨u, hu⟩ : ∃ u, u = s.wr (K.vSet x) (s.corePoint x khz) := ⟨_, rfl⟩
    have hstep : s.setVolts (x :: l) khz = u.setVolts l khz := by
      rw [hu]
      rfl
    rw [hstep]
    by_cases hl : q ∈ l
    · rw [ih hl, hu, State.corePoint_wr]
    · have hx : q = x := (List.mem_cons.1 h).resolve_right hl
      rw [State.setVolts_other l _ fun y hy hc => hl (by rwa [vSet_inj hc]), hu, hx, State.rd_wr]

theorem State.setVolts_dict (s : State) (l : List Nat) (khz : Nat) :
    s.setVolts l khz = { s with dict := (s.setVolts l khz).dict } :=
  State.each_rel (R := fun a b : State => b = { a with dict := b.dict }) (fun _ => rfl) (fun h h' => by rw [h', h])
    (fun _ _ => rfl) l s

/-! ## A chip of dither (R444, R445) -/

/-- Only what the end of a chip touches differs. -/
def State.ChipOnly (s t : State) : Prop := t = { s with dict := t.dict, panels := t.panels, freeNext := t.freeNext }

theorem State.nextShift_fst (s : State) (p : Nat) (w : Int) :
    (s.nextShift p w).1 = { s with freeNext := (s.nextShift p w).1.freeNext } := by
  unfold State.nextShift
  dsimp only
  split_ifs <;> rfl

/-- The panel once a chip has ended, before an estimate is taken. -/
def State.chipPanel (s : State) (p : Nat) (w rise : Int) : PanelSt :=
  { s.panel p with chips := ((w, rise) :: (s.panel p).chips).take 60, shift := (s.nextShift p w).2 }

/-- The chip's end before the set points follow. -/
def State.chipEnded (s : State) (p : Nat) (w rise : Int) : State :=
  match rthOf (((w, rise) :: (s.panel p).chips).take 60) with
  | some v => (((s.nextShift p w).1.setPanel p { s.chipPanel p w rise with
      acceptedAt := (s.nextShift p w).1.uptime, window := none }).wr (K.rthEst p) v).wr (K.rthStale p) 0
  | none => (s.nextShift p w).1.setPanel p (s.chipPanel p w rise)

theorem exec_ditherChip_ended (p : PanelId) (w rise : Int) : exec (.ditherChip p w rise) s =
    .next (if (s.chipEnded p.val w rise).rd K.pwrState = 2 then (s.chipEnded p.val w rise).setVolts
      ((List.range 25).map fun j => 25 * p.val + j) (s.chipEnded p.val w rise).mclkTarget
      else s.chipEnded p.val w rise) := rfl

theorem rthEst_ne_rthStale (p : Nat) : K.rthEst p ≠ K.rthStale p := by
  unfold K.rthEst K.rthStale
  omega

section

variable {p : Nat} {w rise : Int}

theorem State.chipEnded_estimate {v : Nat} (h : rthOf (((w, rise) :: (s.panel p).chips).take 60) = some v) :
    s.ChipOnly (s.chipEnded p w rise) ∧ (s.chipEnded p w rise).panel p =
      { s.chipPanel p w rise with acceptedAt := s.uptime, window := none } ∧
    (∀ q, q ≠ p → (s.chipEnded p w rise).panel q = s.panel q) ∧ (s.chipEnded p w rise).rd (K.rthEst p) = v ∧
    (s.chipEnded p w rise).rd (K.rthStale p) = 0 ∧
    ∀ k, k ≠ K.rthEst p → k ≠ K.rthStale p → (s.chipEnded p w rise).rd k = s.rd k := by
  have hfst := s.nextShift_fst p w
  obtain ⟨u, hu⟩ : ∃ u, u = (s.nextShift p w).1 := ⟨_, rfl⟩
  have heq : s.chipEnded p w rise = ((u.setPanel p { s.chipPanel p w rise with
      acceptedAt := u.uptime, window := none }).wr (K.rthEst p) v).wr (K.rthStale p) 0 := by
    unfold State.chipEnded
    rw [h, hu]
  rw [← hu] at hfst
  rw [heq]
  refine ⟨?_, ?_, fun q hq => ?_, ?_, State.rd_wr .., fun k hest hstale => ?_⟩
  · unfold State.ChipOnly
    rw [hfst]
    rfl
  · rw [State.wr_panel_other, State.wr_panel_other, u.panel_setPanel, hfst]
  · rw [State.wr_panel_other, State.wr_panel_other, u.panel_setPanel_ne _ _ _ hq, hfst]
    rfl
  · exact (State.rd_wr_ne _ _ _ _ (rthEst_ne_rthStale p)).trans (State.rd_wr ..)
  · refine (State.rd_wr_ne _ _ _ _ hstale).trans ((State.rd_wr_ne _ _ _ _ hest).trans ?_)
    rw [hfst]
    rfl

theorem State.chipEnded_none (h : rthOf (((w, rise) :: (s.panel p).chips).take 60) = none) :
    s.ChipOnly (s.chipEnded p w rise) ∧ (s.chipEnded p w rise).panel p = s.chipPanel p w rise ∧
    (∀ q, q ≠ p → (s.chipEnded p w rise).panel q = s.panel q) ∧ ∀ k, (s.chipEnded p w rise).rd k = s.rd k := by
  have hfst := s.nextShift_fst p w
  obtain ⟨u, hu⟩ : ∃ u, u = (s.nextShift p w).1 := ⟨_, rfl⟩
  have heq : s.chipEnded p w rise = u.setPanel p (s.chipPanel p w rise) := by
    unfold State.chipEnded
    rw [h, hu]
  rw [← hu] at hfst
  rw [heq]
  refine ⟨?_, u.panel_setPanel .., fun q hq => ?_, fun k => ?_⟩
  · unfold State.ChipOnly
    rw [hfst]
    rfl
  · refine (u.panel_setPanel_ne _ _ _ hq).trans ?_
    rw [hfst]
    rfl
  · rw [hfst]
    rfl

end

/-! ## Retention (R422) -/

theorem regState_inj {a b : Nat} (h : K.regState a = K.regState b) : a = b := by
  unfold K.regState at h
  omega

/-- The state of a region whose lining goes into Retention. -/
def retained (v : Nat) : Nat := if v = 2 ∨ v = 3 then 3 else v

theorem retained_retained (v : Nat) : retained (retained v) = retained v := by
  unfold retained
  split_ifs <;> omega

/-- A region's lining goes into Retention. -/
def State.retainRegion (s : State) (q : Nat) : State :=
  if s.rd (K.regState q) = 2 ∨ s.rd (K.regState q) = 3 then s.wr (K.regState q) 3 else s

theorem State.retainRegion_rd (s : State) (q k : Nat) :
    (s.retainRegion q).rd k = if k = K.regState q then retained (s.rd k) else s.rd k := by
  unfold State.retainRegion retained
  by_cases hk : k = K.regState q
  · rw [if_pos hk, hk]
    split_ifs
    · exact State.rd_wr ..
    · rfl
  · rw [if_neg hk]
    split_ifs
    · exact State.rd_wr_ne _ _ _ _ hk
    · rfl

theorem State.rd_retainRegions (k : Nat) : ∀ (l : List Nat) (s : State),
    (s.each l State.retainRegion).rd k = if k ∈ l.map K.regState then retained (s.rd k) else s.rd k
  | [], _ => rfl
  | q :: l, s => by
    refine (State.rd_retainRegions k l (s.retainRegion q)).trans ?_
    rw [State.retainRegion_rd]
    by_cases hq : k = K.regState q
    · have hmem : k ∈ (q :: l).map K.regState := by
        rw [hq]
        exact List.mem_cons_self
      rw [if_pos hmem, if_pos hq, retained_retained, ite_self]
    · rw [if_neg hq]
      refine if_congr ?_ rfl rfl
      rw [List.map_cons, List.mem_cons]
      exact (or_iff_right hq).symm

theorem State.setLining_eq (s : State) (i : Nat) : s.setLining i true =
    (s.setInst i { s.inst i with retention := true }).each
      (((s.setInst i { s.inst i with retention := true }).inst i).panels.flatMap fun p => (List.range 25).map fun j => 25 * p + j)
      State.retainRegion := rfl

theorem State.retainRegions_dict (l : List Nat) (s : State) :
    s.each l State.retainRegion = { s with dict := (s.each l State.retainRegion).dict } :=
  State.each_rel (R := fun a b : State => b = { a with dict := b.dict }) (fun _ => rfl) (fun h h' => by rw [h', h])
    (fun s q => by unfold State.retainRegion; split_ifs <;> rfl) l s

/-- An idle instance's lining goes into Retention. -/
theorem State.setLining_retains (s : State) (i : Nat) :
    s.setLining i true = { s with insts := (s.setLining i true).insts, dict := (s.setLining i true).dict } ∧
    (s.setLining i true).inst i = { s.inst i with retention := true } ∧
    (∀ j, j ≠ i → (s.setLining i true).inst j = s.inst j) ∧
    ∀ k, (s.setLining i true).rd k = if k ∈ (s.regionsOf i).map K.regState then retained (s.rd k) else s.rd k := by
  obtain ⟨u, hu⟩ : ∃ u, u = s.setInst i { s.inst i with retention := true } := ⟨_, rfl⟩
  have hinst : u.inst i = { s.inst i with retention := true } := by rw [hu, State.inst_setInst]
  have heq := s.setLining_eq i
  rw [← hu, hinst] at heq
  have hdict := State.retainRegions_dict (s.regionsOf i) u
  have hrd := fun k => State.rd_retainRegions k (s.regionsOf i) u
  obtain ⟨t, ht⟩ : ∃ t, t = u.each (s.regionsOf i) State.retainRegion := ⟨_, rfl⟩
  rw [show s.setLining i true = t from heq.trans ht.symm]
  rw [← ht] at hdict hrd
  have hinsts : ∀ j, t.inst j = u.inst j := fun j => by rw [hdict]; rfl
  refine ⟨?_, (hinsts i).trans hinst, fun j hj => (hinsts j).trans (by rw [hu]; exact State.inst_setInst_ne _ _ _ _ hj),
    fun k => (hrd k).trans (by rw [hu]; rfl)⟩
  rw [hdict, hu] <;> rfl

end Sys2Proof.Machine
end

section
/-! Power regions: a regulator fault (R437), for O55. -/

namespace Sys2Proof.Machine

variable {s : State}

/-! ## A router's failure, from outside -/

/-- Routers after one of them fails: that one has failed, the others are as before. -/
theorem State.routerFails_router (s : State) (c : CoreId) (m : Nat) : (s.routerFails c.val).router m =
    if m = c.val ∧ (s.router m).failed = false then { s.router m with failed := true, inq := [] } else s.router m := by
  cases h : (s.router c.val).failed with
  | true =>
    rw [if_neg fun hc => by rw [hc.1, h] at hc; exact Bool.noConfusion hc.2]
    exact congrArg (fun t => State.router t m) (if_pos h)
  | false =>
    obtain ⟨j, rec, heq⟩ := s.routerFails_eq c.val h
    obtain ⟨u, hu⟩ : ∃ u, u = (s.routerDown c.val).logDev j rec := ⟨_, rfl⟩
    have hlinks : (s.setRouter c.val { s.router c.val with failed := true, inq := [] }).LinksFail u :=
      hu ▸ (s.linksFail_routerDown c.val).trans (State.linksFail_logDev _ j rec)
    have hdown := u.coreDown_coreFails c 2
    rw [← hu] at heq
    have honly : (u.coreFails c.val 2).FaultOnly (s.routerFails c.val) := by
      rw [heq]
      split
      · exact State.faultOnly_instFault ..
      · exact .refl _
    have hset : (s.routerFails c.val).router m =
        (s.setRouter c.val { s.router c.val with failed := true, inq := [] }).router m := by
      rw [show (s.routerFails c.val).router m = (u.coreFails c.val 2).router m from
        congrArg (fun l => mapGet (fun _ => ({} : Router)) l m) honly.routers, hdown.router, hlinks.router]
    rw [hset, State.router_setRouter_if]
    by_cases hm : m = c.val
    · rw [if_pos hm, if_pos ⟨hm, by rw [hm]; exact h⟩, hm]
    · rw [if_neg hm, if_neg fun hc => hm hc.1]

/-- Entries that a router's failure leaves as they were. -/
theorem State.routerFails_rd (s : State) (c : CoreId) {key : Nat} (hlog : key ∉ logKeys) (hlate : key ≠ K.lateResponses)
    (hcause : key ≠ K.failCause c.val) (htime : key ≠ K.failTime c.val)
    (hinst : ∀ i, key ≠ K.instState i ∧ key ≠ K.faultCode i) : (s.routerFails c.val).rd key = s.rd key := by
  cases h : (s.router c.val).failed with
  | true => exact congrArg (fun t => State.rd t key) (if_pos h)
  | false =>
    obtain ⟨j, rec, heq⟩ := s.routerFails_eq c.val h
    obtain ⟨u, hu⟩ : ∃ u, u = (s.routerDown c.val).logDev j rec := ⟨_, rfl⟩
    have hlinks : (s.setRouter c.val { s.router c.val with failed := true, inq := [] }).LinksFail u :=
      hu ▸ (s.linksFail_routerDown c.val).trans (State.linksFail_logDev _ j rec)
    have hdown := u.coreDown_coreFails c 2
    rw [← hu] at heq
    have hlast : (s.routerFails c.val).rd key = (u.coreFails c.val 2).rd key := by
      rw [heq]
      split
      · next i _ => exact State.instFault_rd _ _ _ hlog (hinst i).1 (hinst i).2
      · rfl
    exact hlast.trans ((hdown.rd key hlog hlate hcause htime).trans (hlinks.rd key hlog hlate))

/-! ## A region that is off -/

/-- The region's entry reads off. -/
def State.regionOff (s : State) (q : Nat) : Prop := s.rd (K.regState q) = 4

theorem State.regionOff_setLining {q : Nat} (h : s.regionOff q) (i : Nat) (retention : Bool) :
    (s.setLining i retention).regionOff q := by
  refine State.each_rel (R := fun a b : State => a.regionOff q → b.regionOff q) (fun _ => id) (fun h h' => h' ∘ h)
    (fun t x ht => ?_) _ (s.setInst i { s.inst i with retention := retention }) h
  by_cases hx : q = x
  · rw [← hx]
    unfold State.regionOff at ht
    rw [ht]
    exact ht
  · have hne : K.regState q ≠ K.regState x := fun hc => hx (regState_inj hc)
    dsimp only
    split
    · exact (State.rd_wr_ne _ _ _ _ hne).trans ht
    · exact ht

theorem regState_ne {q : Nat} (hq : q < 300) (c : Nat) : K.regState q ≠ K.lateResponses ∧ K.regState q ≠ K.failCause c ∧
    K.regState q ≠ K.failTime c := by
  unfold K.regState K.lateResponses K.failCause K.failTime
  omega

theorem regState_not_logKey {q : Nat} (hq : q < 300) : K.regState q ∉ logKeys := not_logKey (by unfold K.regState; omega)

theorem regState_ne_inst (q i : Nat) : K.regState q ≠ K.instState i ∧ K.regState q ≠ K.faultCode i := by
  unfold K.regState K.instState K.faultCode
  omega

theorem State.regionOff_coreReported {q : Nat} (hq : q < 300) (h : s.regionOff q) (c : CoreId) (cause : Nat) :
    (s.coreReported c.val cause).regionOff q := by
  obtain ⟨hlate, hcause, htime⟩ := regState_ne hq c.val
  have hdown : (s.coreFails c.val cause).regionOff q :=
    ((s.coreDown_coreFails c cause).rd _ (regState_not_logKey hq) hlate hcause htime).trans h
  unfold State.coreReported
  dsimp only
  split
  · split
    · exact State.regionOff_setLining hdown _ _
    · exact hdown
  · exact hdown

theorem State.regionOff_routerFails {q : Nat} (hq : q < 300) (h : s.regionOff q) (c : CoreId) :
    (s.routerFails c.val).regionOff q := by
  obtain ⟨hlate, hcause, htime⟩ := regState_ne hq c.val
  exact (s.routerFails_rd c (regState_not_logKey hq) hlate hcause htime (regState_ne_inst q)).trans h

/-- A core's report leaves the routers. -/
theorem State.coreReported_router (s : State) (c : CoreId) (cause m : Nat) :
    (s.coreReported c.val cause).router m = s.router m :=
  (congrArg (fun l => mapGet (fun _ => ({} : Router)) l m) (s.coreReported_lining c.val cause).only.routers).trans
    ((s.coreDown_coreFails c cause).router m)

/-! ## Each core of the region in turn -/

/-- A relation that holds of each of a list of cores' steps holds of all of them. -/
theorem State.each_rel_cores {R : State → State → Prop} (hr : ∀ s, R s s) (ht : ∀ {a b c}, R a b → R b c → R a c)
    {f : State → Nat → State} (hf : ∀ (s : State) (c : CoreId), R s (f s c.val)) {l : List Nat} (hl : ∀ c ∈ l, c < 1200)
    (s : State) : R s (s.each l f) := by
  induction l generalizing s with
  | nil => exact hr s
  | cons c l ih =>
    exact ht (hf s ⟨c, hl c List.mem_cons_self⟩) (ih (fun x hx => hl x (List.mem_cons_of_mem _ hx)) (f s c))

theorem State.failed_routerFails (s : State) (c : CoreId) {m : Nat} (h : (s.router m).failed = true) :
    ((s.routerFails c.val).router m).failed = true := by
  rw [s.routerFails_router c m]
  split_ifs
  · rfl
  · exact h

theorem State.failed_self (s : State) (c : CoreId) : ((s.routerFails c.val).router c.val).failed = true := by
  rw [s.routerFails_router c c.val]
  split_ifs with h
  · rfl
  · by_contra hf
    exact h ⟨rfl, eq_false_of_ne_true hf⟩

/-- Every router of a list has failed once each of them has. -/
theorem State.failed_each {l : List Nat} (hl : ∀ c ∈ l, c < 1200) (s : State) {m : Nat} (hm : m ∈ l) :
    ((s.each l State.routerFails).router m).failed = true := by
  induction l generalizing s with
  | nil => exact absurd hm List.not_mem_nil
  | cons c l ih =>
    have hrest := fun x hx => hl x (List.mem_cons_of_mem c hx)
    rcases List.mem_cons.1 hm with rfl | hm
    · refine State.each_rel_cores (R := fun a b => (a.router m).failed = true → (b.router m).failed = true) (fun _ => id)
        (fun h h' => h' ∘ h) (fun s c => s.failed_routerFails c) hrest (s.routerFails m) ?_
      exact s.failed_self ⟨m, hl m List.mem_cons_self⟩
    · exact ih hrest (s.routerFails c) hm

theorem coresOfRegion_lt {q : Nat} (hq : q < 300) : ∀ c ∈ coresOfRegion q, c < 1200 := by
  intro c hc
  unfold coresOfRegion at hc
  simp only [List.mem_cons, List.not_mem_nil, or_false] at hc
  omega

/-- A core without power: its place remains, its contents are gone. -/
def Core.unpowered (k : Core) : Core :=
  { fenced := true, coreAddr := k.coreAddr, addrValid := k.addrValid, inst := k.inst, block := k.block }

/-- The region's regulator reads failed, and the fault is logged. -/
def State.regulatorLogged (s : State) (q : Nat) : State := (s.wr (K.regState q) 4).logMg noInst 0x100B 2 3 noSlot q 0

/-- The region's cores are reported, and its routers fail. -/
def State.regionLost (s : State) (q : Nat) : State :=
  ((s.regulatorLogged q).each (coresOfRegion q) fun s c => s.coreReported c 3).each (coresOfRegion q) State.routerFails

theorem exec_regulatorFault_lost {r : RegionId} (h : s.rd (K.regState r.val) ≠ 4) : exec (.regulatorFault r) s =
    .next ((s.regionLost r.val).each (coresOfRegion r.val) fun s c => s.modCore c Core.unpowered) := if_neg h

theorem State.regionLost_spec (s : State) (r : RegionId) : (s.regionLost r.val).regionOff r.val ∧
    (∀ d ∈ coresOfRegion r.val, ((s.regionLost r.val).router d).failed = true) ∧
    ∀ m, (s.router m).failed = true → ((s.regionLost r.val).router m).failed = true := by
  have hlt := coresOfRegion_lt r.isLt
  obtain ⟨u, hu⟩ : ∃ u, u = (s.regulatorLogged r.val).each (coresOfRegion r.val) fun s c => s.coreReported c 3 := ⟨_, rfl⟩
  have hlost : s.regionLost r.val = u.each (coresOfRegion r.val) State.routerFails := by rw [hu]; rfl
  have hoff : u.regionOff r.val := by
    rw [hu]
    refine State.each_rel_cores (R := fun a b => a.regionOff r.val → b.regionOff r.val) (fun _ => id) (fun h h' => h' ∘ h)
      (fun s c h => State.regionOff_coreReported r.isLt h c 3) hlt (s.regulatorLogged r.val) ?_
    exact (State.logMg_rd _ _ _ _ _ _ _ _ (regState_not_logKey r.isLt)).trans (State.rd_wr ..)
  have hrouter : ∀ m, u.router m = s.router m := fun m => by
    rw [hu]
    refine (State.each_rel_cores (R := fun a b => b.router m = a.router m) (fun _ => rfl) (fun h h' => h'.trans h)
      (fun s c => s.coreReported_router c 3 m) hlt (s.regulatorLogged r.val)).trans ?_
    exact State.logMg_router ..
  rw [hlost]
  refine ⟨?_, fun d hd => State.failed_each hlt u hd, fun m hm => ?_⟩
  · exact State.each_rel_cores (R := fun a b => a.regionOff r.val → b.regionOff r.val) (fun _ => id) (fun h h' => h' ∘ h)
      (fun s c h => State.regionOff_routerFails r.isLt h c) hlt u hoff
  · refine State.each_rel_cores (R := fun a b => (a.router m).failed = true → (b.router m).failed = true) (fun _ => id)
      (fun h h' => h' ∘ h) (fun s c => s.failed_routerFails c) hlt u ?_
    rw [hrouter]
    exact hm

end Sys2Proof.Machine
end

section
/-! Power regions: O55. -/

namespace Sys2Proof.Machine

variable {s : State} {r : RegionId} {p : PanelId}

/-! ## Issue stops (R433) -/

/-- A core whose issue stop is set or cleared. -/
def Core.setIssueStop (stop : Bool) (k : Core) : Core := { k with issueStop := stop }

/-- The issue stop of every core of a region. -/
def State.issueStopped (s : State) (q : Nat) (stop : Bool) : State :=
  s.each (coresOfRegion q) fun s c => s.modCore c (Core.setIssueStop stop)

theorem State.issueStopped_spec (s : State) (q : Nat) (stop : Bool) :
    s.issueStopped q stop = { s with cores := (s.issueStopped q stop).cores } ∧
    ∀ d, (s.issueStopped q stop).core d =
      if d ∈ coresOfRegion q then (s.core d).setIssueStop stop else s.core d :=
  ⟨State.only_each_modCore (Core.setIssueStop stop) (coresOfRegion q) s,
    fun d => State.core_each_modCore (f := Core.setIssueStop stop) (fun _ => rfl) d (coresOfRegion q) s⟩

theorem exec_issueStop_stopped : exec (.issueStop r) s = .next ((s.issueStopped r.val true).bump (K.issueStops r.val) 32 1) := rfl
theorem exec_issueStopClear_stopped : exec (.issueStopClear r) s = .next (s.issueStopped r.val false) := rfl

theorem State.bump_cores {s u : State} (h : u = { s with cores := u.cores }) (k w n : Nat) :
    u.bump k w n = { s with cores := (u.bump k w n).cores, dict := (u.bump k w n).dict } := by
  rw [State.bump_eq, h]
  rfl

/-- What ISSUE_STOP leaves. -/
theorem issueStop_clause : ∃ t, exec (.issueStop r) s = .next t ∧ t = { s with cores := t.cores, dict := t.dict } ∧
    (∀ d, t.core d = if d ∈ coresOfRegion r.val then { s.core d with issueStop := true } else s.core d) ∧
    t.rd (K.issueStops r.val) = (s.rd (K.issueStops r.val) + 1) % 2 ^ 32 ∧
    ∀ k, k ≠ K.issueStops r.val → t.rd k = s.rd k := by
  obtain ⟨honly, hcore⟩ := s.issueStopped_spec r.val true
  have hexec := exec_issueStop_stopped (s := s) (r := r)
  obtain ⟨u, hu⟩ : ∃ u, u = s.issueStopped r.val true := ⟨_, rfl⟩
  rw [← hu] at honly hcore hexec
  have hrd := State.rd_of_cores honly
  refine ⟨_, hexec, State.bump_cores honly _ _ _, fun d => hcore d, ?_, fun k hk => ?_⟩
  · rw [State.bump_eq, State.rd_wr, hrd]
  · rw [State.bump_eq, State.rd_wr_ne _ _ _ _ hk, hrd]

/-! ## Stops by temperature (R441) -/

theorem exec_tStop_hold {j : Nat} (h : s.instOfPanel (r.val / 25) = some j) :
    exec (.tStop r) s = .next (s.heatHold j r.val) := by
  rw [exec_tStop]
  unfold execTStop
  rw [h]

/-- A hot region that does not hold its instance yet. -/
theorem State.heatHold_new {i cause : Nat} (h : cause ∉ (s.inst i).hot_) :
    s.heatHold i cause = { s with
      insts := (s.heatHold i cause).insts, dict := (s.heatHold i cause).dict, log := (s.heatHold i cause).log
      fns := (s.heatHold i cause).fns, sent := (s.heatHold i cause).sent, logMsgAt := (s.heatHold i cause).logMsgAt
      logMsgHeld := (s.heatHold i cause).logMsgHeld } ∧ (s.heatHold i cause).Logged 0x1005 2 := by
  have heq : s.heatHold i cause = (s.modInst i fun x => { x with hot_ := x.hot_ ++ [cause] }).logMg i 0x1005 2 3 noSlot i cause :=
    if_neg h
  rw [heq]
  have hlog := (s.modInst i fun x => { x with hot_ := x.hot_ ++ [cause] }).logMg_only i 0x1005 2 3 noSlot i cause
  refine ⟨?_, State.logged_logMg _ _ _ _ _ _ _ _ rfl⟩
  rw [hlog.eq]
  rfl

/-! ## A report of temperature -/

/-- An instance that the report does not concern, or that is not cool throughout. -/
theorem throttle_unjudged (temp : Int) (h : ∀ j, s.instOfPanel (r.val / 25) = some j →
      (s.throttleLogged r.val temp).regionsCool j = false) :
    exec (.throttleUpdate r temp) s = .next (s.throttleLogged r.val temp) := by
  rw [exec_throttleUpdate_logged, State.throttleLogged_panel]
  cases hi : s.instOfPanel (r.val / 25) with
  | none => rfl
  | some j => exact congrArg Host.Outcome.next (if_neg (ne_true_of_eq_false (h j hi)))

theorem throttle_judged (temp : Int) {j : Nat} (hj : s.instOfPanel (r.val / 25) = some j)
    (hcool : (s.throttleLogged r.val temp).regionsCool j = true) : exec (.throttleUpdate r temp) s =
      .next ((s.throttleLogged r.val temp).heatRelease j fun c => decide (c < 0x100)) := by
  rw [exec_throttleUpdate_logged, State.throttleLogged_panel, hj]
  exact congrArg Host.Outcome.next (if_pos hcool)

/-! ## The thermal estimate (R445) -/

theorem stale_clause : ∃ t, exec (.rthStale p false) s = .next t ∧ s.OnlyEntriesAndLog t [K.rthStale p.val] ∧
    t.rd (K.rthStale p.val) = 1 ∧ t.Logged 0x1007 1 := by
  obtain ⟨u, hu⟩ : ∃ u, u = s.wr (K.rthStale p.val) 1 := ⟨_, rfl⟩
  have hexec : exec (.rthStale p false) s = .next (u.logMg noInst 0x1007 1 0 noSlot p.val (s.mirror (K.rthAge p.val))) := by
    rw [hu]
    rfl
  have hlog := u.logMg_only noInst 0x1007 1 0 noSlot p.val (s.mirror (K.rthAge p.val))
  have hkey : K.rthStale p.val ∉ logKeys := not_logKey (by have := p.isLt; unfold K.rthStale; omega)
  refine ⟨_, hexec, ⟨?_, fun k hk hl => ?_⟩, ?_, State.logged_logMg _ _ _ _ _ _ _ _ rfl⟩
  · rw [hlog.eq, hu]
    rfl
  · rw [State.logMg_rd _ _ _ _ _ _ _ _ hl, hu]
    exact s.rd_wr_ne _ _ _ fun h => hk (List.mem_singleton.2 h)
  · rw [State.logMg_rd _ _ _ _ _ _ _ _ hkey, hu, State.rd_wr]

end Sys2Proof.Machine
end

section
/-! Power regions: the clauses of a temperature report, of a chip of dither, of retention and of a regulator fault, for
O55. -/

namespace Sys2Proof.Machine

variable {s : State} {r : RegionId} {p : PanelId}

/-! ## A report of temperature (R441, R442) -/

/-- Entries that a report leaves, judged or not, but for the state of the panel's instance. -/
theorem State.judged_kept (temp : Int) (j : Nat) (past : Nat → Bool) {k : Nat} (hlog : k ∉ logKeys)
    (hk : k ∉ [K.temp r.val, K.throttle r.val, K.tPanelMax (r.val / 25)]) (hstate : k ≠ K.instState j) :
    ((s.throttleLogged r.val temp).heatRelease j past).rd k = s.rd k := by
  obtain ⟨-, -, -, -, -, hrd, -⟩ := (s.throttleLogged r.val temp).heatRelease_spec j past _ rfl
  simp only [List.mem_cons, List.not_mem_nil, or_false, not_or] at hk
  obtain ⟨htemp, hlevel, hpanel⟩ := hk
  exact (hrd k hstate).trans (s.throttleLogged_kept r temp hlog hpanel hlevel htemp)

theorem State.unjudged_kept (temp : Int) {k : Nat} (hlog : k ∉ logKeys)
    (hk : k ∉ [K.temp r.val, K.throttle r.val, K.tPanelMax (r.val / 25)]) : (s.throttleLogged r.val temp).rd k = s.rd k := by
  simp only [List.mem_cons, List.not_mem_nil, or_false, not_or] at hk
  obtain ⟨htemp, hlevel, hpanel⟩ := hk
  exact s.throttleLogged_kept r temp hlog hpanel hlevel htemp

/-- The causes of a hold that remain once the regions are cool: those of the memory stacks. -/
def Inst.stacksHot (x : Inst) : List Nat := x.hot_.filter fun c => decide (0x100 ≤ c)

/-- The panel's instance after a report. -/
structure State.JudgedSpec (s t : State) (r : RegionId) (j : Nat) : Prop where
  others : ∀ i, i ≠ j → t.inst i = s.inst i
  kept : ∀ k, k ∉ logKeys → k ∉ [K.temp r.val, K.throttle r.val, K.tPanelMax (r.val / 25), K.instState j] → t.rd k = s.rd k
  cool : if t.regionsCool j = true then
      t.inst j = { s.inst j with hot_ := (s.inst j).stacksHot } ∧ t.rd (K.instState j) =
        (if (s.inst j).stacksHot ≠ (s.inst j).hot_ ∧ (s.inst j).stacksHot = [] ∧ (s.inst j).hostStop = false ∧
          s.rd (K.instState j) = 4 then instFitted else s.rd (K.instState j))
    else t.inst j = s.inst j ∧ t.rd (K.instState j) = s.rd (K.instState j)

theorem not_mem_keys3 {k a b c d : Nat} (h : k ∉ [a, b, c, d]) : k ∉ [a, b, c] ∧ k ≠ d := by
  simp only [List.mem_cons, List.not_mem_nil, or_false, not_or] at h ⊢
  exact ⟨⟨h.1, h.2.1, h.2.2.1⟩, h.2.2.2⟩

/-- A report of a region whose panel an instance holds. -/
theorem throttle_held (temp : Int) {j : Nat} (hj : s.instOfPanel (r.val / 25) = some j) :
    ∃ t, exec (.throttleUpdate r temp) s = .next t ∧ s.ReportSpec t r temp ∧ s.JudgedSpec t r j := by
  obtain ⟨u, hu⟩ : ∃ u, u = s.throttleLogged r.val temp := ⟨_, rfl⟩
  have hinst : ∀ i, u.inst i = s.inst i := fun i => hu ▸ s.throttleLogged_inst r.val temp i
  have hstate : u.rd (K.instState j) = s.rd (K.instState j) := hu ▸ s.throttleLogged_state r temp ⟨j, instOfPanel_lt hj⟩
  have hreport : s.ReportSpec u r temp := hu ▸ s.throttleLogged_report r temp
  cases hcool : u.regionsCool j with
  | false =>
    refine ⟨u, hu ▸ throttle_unjudged temp fun i hi => ?_, hreport, fun i _ => hinst i, fun k hlog hk => ?_, ?_⟩
    · rw [← hu, ← Option.some.inj (hj.symm.trans hi), hcool]
    · rw [hu, State.unjudged_kept temp hlog (not_mem_keys3 hk).1]
    · rw [hcool, if_neg Bool.false_ne_true]
      exact ⟨hinst j, hstate⟩
  | true =>
    obtain ⟨-, -, -, hinstj, hothers, hrd, hruns⟩ := u.heatRelease_spec j (fun c => decide (c < 0x100)) _ rfl
    have hkeep : (u.heatRelease j fun c => decide (c < 0x100)).regionsCool j = u.regionsCool j :=
      State.regionsCool_congr j (by rw [hinstj]) (fun i => u.judged_temp j _ i) (hrd _ (tThrottle_ne_instState j))
    refine ⟨u.heatRelease j fun c => decide (c < 0x100), hu ▸ throttle_judged temp hj (hu ▸ hcool), hreport.released j _,
      fun i hi => (hothers i hi).trans (hinst i), fun k hlog hk => ?_, ?_⟩
    · rw [hu]
      exact State.judged_kept temp j _ hlog (not_mem_keys3 hk).1 (not_mem_keys3 hk).2
    · rw [hkeep, hcool, if_pos rfl, hinstj, hruns, hinst, hstate, filter_stacks]
      exact ⟨rfl, rfl⟩

/-! ## A chip of dither (R444, R445) -/

/-- The chip's end with the set points, where the rails are on. -/
def State.chipDone (s : State) (p : Nat) (w rise : Int) : State :=
  if (s.chipEnded p w rise).rd K.pwrState = 2 then
    (s.chipEnded p w rise).setVolts ((List.range 25).map fun j => 25 * p + j) (s.chipEnded p w rise).mclkTarget
  else s.chipEnded p w rise

theorem exec_ditherChip_done (w rise : Int) : exec (.ditherChip p w rise) s = .next (s.chipDone p.val w rise) := rfl

/-- The regions of a panel. -/
def panelRegions (q : Nat) : List Nat := (List.range 25).map fun j => 25 * q + j

theorem mem_panelRegions {q x : Nat} : x ∈ panelRegions q ↔ ∃ j, j < 25 ∧ 25 * q + j = x := by
  simp [panelRegions]

/-- Set points that follow, where the rails are on. -/
theorem State.pointsFollow (u : State) (q khz : Nat) (t : State)
    (ht : t = if u.rd K.pwrState = 2 then u.setVolts (panelRegions q) khz else u) :
    t = { u with dict := t.dict } ∧ (∀ j, j < 25 → t.rd (K.vSet (25 * q + j)) =
      if u.rd K.pwrState = 2 then t.corePoint (25 * q + j) khz else u.rd (K.vSet (25 * q + j))) ∧
    ∀ k, (∀ j, j < 25 → k ≠ K.vSet (25 * q + j)) → t.rd k = u.rd k := by
  by_cases hon : u.rd K.pwrState = 2
  · rw [if_pos hon] at ht
    have hdict := u.setVolts_dict (panelRegions q) khz
    have hother : ∀ k, (∀ j, j < 25 → k ≠ K.vSet (25 * q + j)) → t.rd k = u.rd k := fun k hk => by
      rw [ht]
      refine State.setVolts_other _ u fun x hx => ?_
      obtain ⟨j, hj, rfl⟩ := mem_panelRegions.1 hx
      exact hk j hj
    rw [← ht] at hdict
    refine ⟨hdict, fun j hj => ?_, hother⟩
    rw [if_pos hon, State.corePoint_congr (hother _ fun i _ => vMargin_ne_vSet _) (by rw [hdict]) (25 * q + j) khz, ht]
    exact State.setVolts_point (mem_panelRegions.2 ⟨j, hj, rfl⟩) u
  · rw [if_neg hon] at ht
    rw [ht]
    exact ⟨rfl, fun j _ => (if_neg hon).symm, fun _ _ => rfl⟩

theorem rthKeys_ne (p : PanelId) : K.pwrState ≠ K.rthEst p.val ∧ K.pwrState ≠ K.rthStale p.val ∧
    K.hzMode ≠ K.rthEst p.val ∧ K.hzMode ≠ K.rthStale p.val ∧ K.mclkSet ≠ K.rthEst p.val ∧ K.mclkSet ≠ K.rthStale p.val := by
  have := p.isLt
  unfold K.pwrState K.rthEst K.rthStale K.hzMode K.mclkSet
  omega

theorem rth_ne_vSet (q x : Nat) : K.rthEst q ≠ K.vSet x ∧ K.rthStale q ≠ K.vSet x := by
  unfold K.rthEst K.rthStale K.vSet
  omega

/-- What the end of a chip leaves of its panel and its entries, an estimate taken or not. -/
structure State.ChipSpec (s t : State) (p : PanelId) (w rise : Int) : Prop where
  only : s.ChipOnly t
  chips : (t.panel p.val).chips = ((w, rise) :: (s.panel p.val).chips).take 60
  shift : (t.panel p.val).shift = (s.nextShift p.val w).2
  estimate : ∀ v, rthOf (((w, rise) :: (s.panel p.val).chips).take 60) = some v → t.rd (K.rthEst p.val) = v ∧
    t.rd (K.rthStale p.val) = 0 ∧ (t.panel p.val).acceptedAt = s.uptime ∧ (t.panel p.val).window = none
  none : rthOf (((w, rise) :: (s.panel p.val).chips).take 60) = none → t.rd (K.rthEst p.val) = s.rd (K.rthEst p.val) ∧
    t.rd (K.rthStale p.val) = s.rd (K.rthStale p.val) ∧ (t.panel p.val).acceptedAt = (s.panel p.val).acceptedAt ∧
    (t.panel p.val).window = (s.panel p.val).window
  others : ∀ q, q ≠ p.val → t.panel q = s.panel q

theorem State.chipEnded_spec (s : State) (p : PanelId) (w rise : Int) : s.ChipSpec (s.chipEnded p.val w rise) p w rise ∧
    ∀ k, k ≠ K.rthEst p.val → k ≠ K.rthStale p.val → (s.chipEnded p.val w rise).rd k = s.rd k := by
  cases h : rthOf (((w, rise) :: (s.panel p.val).chips).take 60) with
  | some v =>
    obtain ⟨honly, hpanel, hothers, hest, hstale, hrd⟩ := s.chipEnded_estimate h
    refine ⟨⟨honly, by rw [hpanel]; rfl, by rw [hpanel]; rfl, fun v' hv => ?_, fun hn => ?_, hothers⟩, hrd⟩
    · rw [← Option.some.inj (h.symm.trans hv)]
      exact ⟨hest, hstale, by rw [hpanel], by rw [hpanel]⟩
    · exact absurd (h.symm.trans hn) (Option.some_ne_none v)
  | none =>
    obtain ⟨honly, hpanel, hothers, hrd⟩ := s.chipEnded_none h
    refine ⟨⟨honly, by rw [hpanel]; rfl, by rw [hpanel]; rfl, fun v hv => ?_, fun _ => ?_, hothers⟩, fun k _ _ => hrd k⟩
    · exact absurd (hv.symm.trans h) (Option.some_ne_none v)
    · exact ⟨hrd _, hrd _, by rw [hpanel]; rfl, by rw [hpanel]; rfl⟩

/-- The same once only entries beside the estimate's have changed. -/
theorem State.ChipSpec.entries {u t : State} {w rise : Int} (h : s.ChipSpec u p w rise) (ht : t = { u with dict := t.dict })
    (hest : t.rd (K.rthEst p.val) = u.rd (K.rthEst p.val)) (hstale : t.rd (K.rthStale p.val) = u.rd (K.rthStale p.val)) :
    s.ChipSpec t p w rise := by
  have hpanel : ∀ q, t.panel q = u.panel q := fun q => by rw [ht]; rfl
  obtain ⟨honly, hchips, hshift, hestimate, hnone, hothers⟩ := h
  refine ⟨?_, by rw [hpanel]; exact hchips, by rw [hpanel]; exact hshift, fun v hv => ?_, fun hn => ?_,
    fun q hq => (hpanel q).trans (hothers q hq)⟩
  · unfold State.ChipOnly at *
    rw [ht, honly]
  · rw [hest, hstale, hpanel]
    exact hestimate v hv
  · rw [hest, hstale, hpanel]
    exact hnone hn

theorem State.chipDone_spec (s : State) (p : PanelId) (w rise : Int) : s.ChipSpec (s.chipDone p.val w rise) p w rise ∧
    (∀ j, j < 25 → (s.chipDone p.val w rise).rd (K.vSet (25 * p.val + j)) = if s.rd K.pwrState = 2
      then (s.chipDone p.val w rise).corePoint (25 * p.val + j) s.mclkTarget else s.rd (K.vSet (25 * p.val + j))) ∧
    ∀ k, k ≠ K.rthEst p.val → k ≠ K.rthStale p.val → (∀ j, j < 25 → k ≠ K.vSet (25 * p.val + j)) →
      (s.chipDone p.val w rise).rd k = s.rd k := by
  obtain ⟨hspec, hrd⟩ := s.chipEnded_spec p w rise
  obtain ⟨u, hu⟩ : ∃ u, u = s.chipEnded p.val w rise := ⟨_, rfl⟩
  obtain ⟨hpwrE, hpwrS, hhzE, hhzS, hsetE, hsetS⟩ := rthKeys_ne p
  have hdone : s.chipDone p.val w rise =
      if u.rd K.pwrState = 2 then u.setVolts (panelRegions p.val) u.mclkTarget else u := by rw [hu]; rfl
  rw [← hu] at hspec hrd
  have htarget : u.mclkTarget = s.mclkTarget := by
    unfold State.mclkTarget
    rw [hrd _ hhzE hhzS, hrd _ hsetE hsetS]
  obtain ⟨hdict, hpoint, hother⟩ := u.pointsFollow p.val u.mclkTarget _ hdone
  refine ⟨hspec.entries hdict (hother _ fun j _ => (rth_ne_vSet _ _).1) (hother _ fun j _ => (rth_ne_vSet _ _).2),
    fun j hj => ?_, fun k hest hstale hk => (hother k hk).trans (hrd k hest hstale)⟩
  rw [hpoint j hj, hrd _ hpwrE hpwrS, htarget, hrd _ (rth_ne_vSet _ _).1.symm (rth_ne_vSet _ _).2.symm]

/-! ## Retention (R422) -/

/-- An instance is idle for long enough that its lining goes into Retention. -/
def State.idleLining (s : State) (i : Nat) : Prop :=
  s.rd (K.instState i) = 3 ∧ s.rd K.retDelay ≠ 0 ∧ (s.inst i).stepOn = false ∧ (s.inst i).retention = false ∧
    (s.inst i).replacing = []

theorem State.idleLining_iff (s : State) (i : Nat) : (s.rd (K.instState i) ≠ 3 ∨ s.rd K.retDelay = 0 ∨ (s.inst i).stepOn = true ∨
    (s.inst i).retention = true ∨ (!(s.inst i).replacing.isEmpty) = true) ↔ ¬s.idleLining i := by
  unfold State.idleLining
  simp only [not_and_or, Bool.not_eq_true', List.isEmpty_eq_false_iff, ne_eq, not_not, Bool.not_eq_false]

theorem exec_retentionEntry_not {i : InstId} (h : ¬s.idleLining i.val) : exec (.retentionEntry i) s = .next s :=
  if_pos ((s.idleLining_iff i.val).2 h)

theorem exec_retentionEntry_idle {i : InstId} (h : s.idleLining i.val) :
    exec (.retentionEntry i) s = .next (s.setLining i.val true) := if_neg fun hc => (s.idleLining_iff i.val).1 hc h

end Sys2Proof.Machine
end

section
/-! Power regions: O55. -/

namespace Sys2Proof.Machine

/-- Settles O55. -/
theorem powerRegionsReportAndAct : Obligations.PowerRegionsReportAndAct := by
  unfold Obligations.PowerRegionsReportAndAct
  intro s c r step ma temp p w rise i x OnlyRegion
  refine ⟨fun h => ?noNotice, fun word rest h => ⟨fun hbad => ?bad, fun hgood hcancel => ?cancel, fun hgood hkind hlate => ?late,
      fun hgood hkind hlate => ?notice⟩, fun h => exec_prebiasRelease_none h, fun h => ?prebias, ?stop, ?stopClear,
    vminCrossing_clause step, ?vminClear, currentSample_clause ma, ?throttle, fun j hj => ⟨fun hmem => ?heldAlready,
      fun hmem => ?tStop⟩, fun h => ?tStopNone, fun h => ?regulator, fun h => if_pos h, ?dither, ?stale, fun h => ?window,
    fun h => ?noWindow, fun hidle => ?notIdle, fun hidle => ?retention⟩
  case noNotice =>
    rw [exec_loadNotice]
    unfold execLoadNotice
    rw [h]
  case bad =>
    obtain ⟨hframe, hcore, hothers, hregion, hregions⟩ := s.noticeTaken_spec c.val rest (s.liveNotices (regionOf c.val))
    exact ⟨_, ⟨exec_loadNotice_bad h hbad, rfl, hcore, hothers, hregion, hregions⟩, State.rd_wr ..,
      fun j hj => State.rd_wr_ne _ _ _ _ hj⟩
  case cancel =>
    obtain ⟨hframe, hcore, hothers, hregion, hregions⟩ := s.noticeTaken_spec c.val rest
      ((s.liveNotices (regionOf c.val)).filter fun n => n.core != c.val)
    exact ⟨_, ⟨exec_loadNotice_cancel h hgood hcancel, rfl, hcore, hothers, hregion, hregions⟩, rfl⟩
  case late =>
    obtain ⟨hframe, hcore, hothers, hregion, hregions⟩ := s.noticeTaken_spec c.val rest (s.liveNotices (regionOf c.val))
    exact ⟨_, ⟨exec_loadNotice_late h hgood hkind hlate, rfl, hcore, hothers, hregion, hregions⟩, State.rd_wr ..,
      fun j hj => State.rd_wr_ne _ _ _ _ hj⟩
  case notice =>
    obtain ⟨hframe, hcore, hothers, hregion, hregions⟩ := s.noticeTaken_spec c.val rest (s.liveNotices (regionOf c.val) ++
      [⟨c.val, noteDelta word.toNat, s.time + 64 * bits word.toNat 17 10 * 1000000 / s.rd K.mclkNow, bits word.toNat 19 18,
        bits word.toNat 27 20⟩])
    exact ⟨_, ⟨exec_loadNotice_taken h hgood hkind hlate, rfl, hcore, hothers, hregion, hregions⟩, rfl⟩
  case prebias =>
    obtain ⟨n, t, hsort, hmem, hfirst⟩ := sortBy_notices_head h
    exact ⟨_, n, exec_prebiasRelease_first hsort, rfl, hmem, hfirst, s.region_setRegion ..,
      fun m hm => s.region_setRegion_ne _ _ _ hm⟩
  case stop => exact issueStop_clause
  case stopClear => exact ⟨_, exec_issueStopClear_stopped, s.issueStopped_spec r.val false⟩
  case vminClear =>
    exact ⟨_, rfl, (s.holds_wr_wr _ _ (vmin_ne_vminTime _)).1,
      (State.rd_wr_ne _ _ _ _ (vmin_ne_vminTime _)).trans (State.rd_wr ..), State.rd_wr ..⟩
  case throttle =>
    intro k limit held level q
    have hnext := s.throttleNext_eq r.val temp
    have hlevel : (s.throttleNext r.val temp).1 = level := by rw [hnext]
    have hcool : (s.throttleNext r.val temp).2 = if temp < limit - 3000 ∧ x.cool ≠ 9 then x.cool + 1 else 0 := by rw [hnext]
    have hregion : ∀ t, s.ReportSpec t r temp → t.region r.val = { x with
        top := if held then (x.top + 1) % 60000 else 0
        cool := if temp < limit - 3000 ∧ x.cool ≠ 9 then x.cool + 1 else 0 } := fun t h => by
      rw [h.region, hcool]
      rfl
    have hcore : ∀ t, s.ReportSpec t r temp → ∀ d, t.core d =
        if d ∈ coresOfRegion r.val then { s.core d with pace := decide (0 < level) } else s.core d := fun t h d => by
      rw [h.core, hlevel]
    cases hj : s.instOfPanel q with
    | none =>
      have hrep := s.throttleLogged_report r temp
      refine ⟨_, throttle_unjudged temp fun j hi => absurd (hi.symm.trans hj) (Option.some_ne_none j), hrep.only, hrep.reading,
        hrep.level.trans hlevel, hrep.hottest, hregion _ hrep, hrep.others, hcore _ hrep, hrep.log, fun j _ => ⟨s.throttleLogged_inst r.val temp j,
        fun _ k hlog hk => State.unjudged_kept temp hlog hk⟩, fun j hi => absurd hi (Option.some_ne_none j).symm⟩
    | some i =>
      obtain ⟨t, hexec, hrep, hothers, hkept, hcooled⟩ := throttle_held temp hj
      refine ⟨t, hexec, hrep.only, hrep.reading, hrep.level.trans hlevel, hrep.hottest, hregion _ hrep, hrep.others, hcore _ hrep,
        hrep.log,
        fun j hne => ⟨hothers j fun h => hne (by rw [h]), fun hn => absurd hn (Option.some_ne_none i)⟩, fun j hi _ => ?_⟩
      cases Option.some.inj hi
      exact ⟨hkept, hcooled⟩
  case heldAlready =>
    rw [exec_tStop]
    unfold execTStop
    rw [hj]
    exact congrArg Host.Outcome.next (if_pos hmem)
  case tStop =>
    obtain ⟨hframe, hlogged⟩ := State.heatHold_new hmem
    obtain ⟨-, -, hinst, hothers, hrd, -⟩ := s.heatHold_spec j r.val
    refine ⟨_, exec_tStop_hold hj, hframe, hinst.trans ?_, hothers, hlogged, hrd⟩
    unfold Inst.heatHeld
    rw [if_neg hmem]
  case tStopNone =>
    rw [exec_tStop]
    unfold execTStop
    rw [h]
  case regulator =>
    obtain ⟨hoff, hfailed, hkept⟩ := s.regionLost_spec r
    obtain ⟨u, hu⟩ : ∃ u, u = s.regionLost r.val := ⟨_, rfl⟩
    have hcores := State.only_each_modCore Core.unpowered (coresOfRegion r.val) u
    have hcore := fun d => State.core_each_modCore (f := Core.unpowered) (fun _ => rfl) d (coresOfRegion r.val) u
    obtain ⟨t, ht⟩ : ∃ t, t = u.each (coresOfRegion r.val) fun s c => s.modCore c Core.unpowered := ⟨_, rfl⟩
    rw [← ht] at hcores hcore
    have hrouter : ∀ m, t.router m = u.router m := fun m => by rw [hcores]; rfl
    rw [← hu] at hoff hfailed hkept
    refine ⟨t, (exec_regulatorFault_lost h).trans (by rw [ht, hu]), (State.rd_of_cores hcores _).trans hoff,
      fun d hd => ?_, fun m hm => by rw [hrouter]; exact hkept m hm⟩
    rw [hcore, if_pos hd, hrouter]
    exact ⟨rfl, rfl, rfl, hfailed d hd⟩
  case dither =>
    obtain ⟨hspec, hpoints, hkept⟩ := s.chipDone_spec p w rise
    exact ⟨_, exec_ditherChip_done w rise, hspec.only, hspec.chips, hspec.shift, hspec.estimate, hspec.none, hpoints, hkept,
      hspec.others⟩
  case stale => exact stale_clause
  case window => exact ⟨_, congrArg Host.Outcome.next (if_pos h), rfl, s.panel_setPanel .., fun q hq => s.panel_setPanel_ne _ _ _ hq⟩
  case noWindow => exact congrArg Host.Outcome.next (if_neg h)
  case notIdle => exact exec_retentionEntry_not hidle
  case retention =>
    obtain ⟨hframe, hinst, hothers, hrd⟩ := s.setLining_retains i.val
    refine ⟨_, exec_retentionEntry_idle hidle, hframe, hinst, hothers, fun q hq => ?_, fun k hk => ?_⟩
    · rw [hrd, if_pos (List.mem_map_of_mem hq)]
      rfl
    · refine (hrd k).trans (if_neg fun hmem => ?_)
      obtain ⟨q, hq, hkq⟩ := List.mem_map.1 hmem
      exact hk q hq hkq.symm

end Sys2Proof.Machine
end

section
/-! Power sequences: O56 fails where the sequencer's last step is none of its eleven. -/

namespace Sys2Proof.Machine

/-- The rails are on, no power is asked for, and the last step finished is numbered past D5, the sequencer's last. -/
def pastSequencer : State := { State.reset.wr K.pwrState 2 with power := { step := 11 } }

/-- `pwr_state` after a step that goes on. -/
def pwrStateAfter : Out → Nat
  | .next t => t.rd K.pwrState
  | _ => 0

theorem pastSequencer_hyps : pastSequencer.powerWanted = false ∧ pastSequencer.rd K.pwrState = 2 := by decide +kernel

/-- Power-down finds no step to run and stays on its way. -/
theorem pastSequencer_off : pwrStateAfter (exec (.powerRequestOff 5) pastSequencer) = 3 := by decide +kernel

/-- Refutes O56: from a last step past D5 a power-down runs no step at all, and `pwr_state` stays 3 instead of reaching 0. -/
theorem not_powerSequencesAndResets : ¬Obligations.PowerSequencesAndResets := by
  unfold Obligations.PowerSequencesAndResets
  intro h
  obtain ⟨-, -, -, hoff, -⟩ := h pastSequencer false 0 0 0 0 0 ⟨false, false, [], [], [], [], [], [], [], [], [], 0⟩ 0 0
  obtain ⟨hwanted, hstate⟩ := pastSequencer_hyps
  obtain ⟨⟨t, hexec, hzero, -⟩, -⟩ := hoff ⟨hwanted, by rw [hstate]; decide, by rw [hstate]; decide⟩
  have hthree := pastSequencer_off
  rw [hexec] at hthree
  exact absurd (hthree.symm.trans hzero) (by decide)

end Sys2Proof.Machine
end

section
/-! What the end of a load and the end of an unload leave: O46, O57, O58. -/

namespace Sys2Proof.Machine

/-! ## The relation -/

/-- The entry describes instance i's model, its place or its load. -/
def State.modelKey (s : State) (i key : Nat) : Prop :=
  key / 256 = 0x4000 + i ∨ key / 256 = 0x4110 + i ∨ key / 256 = 0x6100 + i ∨ 
  ∃ p ∈ (s.inst i).panels, key / 256 = 0x3600 + p ∧ key % 256 < 8

/-- Instance i loses its model: what its cores, routers, stacks, journal record and entries hold of it, with the log. -/
structure State.ModelGone (s t : State) (i : Nat) : Prop where
  frame : t = { s with
    cores := t.cores, routers := t.routers, hbm := t.hbm, hbmPoison := t.hbmPoison, hbmErr := t.hbmErr, blobs := t.blobs
    dict := t.dict, journalOld := t.journalOld, insts := t.insts, log := t.log, fns := t.fns, sent := t.sent
    logMsgAt := t.logMsgAt, logMsgHeld := t.logMsgHeld }
  other : ∀ j, j ≠ i → t.inst j = s.inst j
  panels : (t.inst i).panels = (s.inst i).panels
  rd : ∀ key, ¬s.modelKey i key → key ∉ logKeys → t.rd key = s.rd key

theorem State.ModelGone.refl (s : State) (i : Nat) : s.ModelGone s i := ⟨rfl, fun _ _ => rfl, rfl, fun _ _ _ => rfl⟩

theorem State.ModelGone.modelKey {s t : State} {i : Nat} (h : s.ModelGone t i) (key : Nat) :
    t.modelKey i key ↔ s.modelKey i key := by
  unfold State.modelKey
  rw [h.panels]

theorem State.ModelGone.trans {a b c : State} {i : Nat} (h : a.ModelGone b i) (h' : b.ModelGone c i) : a.ModelGone c i where
  frame := by rw [h'.frame, h.frame]
  other j hj := (h'.other j hj).trans (h.other j hj)
  panels := h'.panels.trans h.panels
  rd key hk hl := (h'.rd key (mt (h.modelKey key).1 hk) hl).trans (h.rd key hk hl)

/-! ## Its steps -/

/-- `each` keeps a reflexive and transitive relation that every listed change gives. -/
theorem State.each_rel_mem {α : Type} {R : State → State → Prop} (hr : ∀ s, R s s) (ht : ∀ {a b c}, R a b → R b c → R a c)
    {f : State → α → State} (s₀ : State) : ∀ (l : List α) (s : State), R s₀ s → (∀ s, ∀ x ∈ l, R s₀ s → R s (f s x)) →
    R s (s.each l f)
  | [], s, _, _ => hr s
  | x :: l, s, h₀, hf =>
    have hx : R s (f s x) := hf s x List.mem_cons_self h₀
    ht hx (State.each_rel_mem hr @ht s₀ l (f s x) (ht h₀ hx) fun s y hy => hf s y (List.mem_cons_of_mem _ hy))

theorem State.modelGone_wr {s : State} {i key : Nat} (v : Nat) (h : s.modelKey i key) : s.ModelGone (s.wr key v) i :=
  ⟨rfl, fun _ _ => rfl, rfl, fun _ hj _ => s.rd_wr_ne key v _ fun he => hj (he ▸ h)⟩

/-- A change that leaves the entries and the instances alone. -/
theorem State.modelGone_of_eq {s t : State} {i : Nat} (h : t = { s with
    cores := t.cores, routers := t.routers, hbm := t.hbm, hbmPoison := t.hbmPoison, hbmErr := t.hbmErr, blobs := t.blobs
    journalOld := t.journalOld }) : s.ModelGone t i := by
  have hi : t.insts = s.insts := (congrArg State.insts h :)
  have hd : t.dict = s.dict := (congrArg State.dict h :)
  refine ⟨by rw [h], fun j _ => ?_, ?_, fun key _ _ => ?_⟩
  · exact congrArg (fun l => mapGet (fun _ => ({} : Inst)) l j) hi
  · exact congrArg (fun l => (mapGet (fun _ => ({} : Inst)) l i).panels) hi
  · exact congrArg (fun l => mapGet dictDefault l key) hd

theorem State.modelGone_modInst (s : State) (i : Nat) {f : Inst → Inst} (h : (f (s.inst i)).panels = (s.inst i).panels) :
    s.ModelGone (s.modInst i f) i :=
  ⟨rfl, fun j hj => s.inst_setInst_ne i _ j hj, (congrArg Inst.panels (s.inst_setInst i _)).trans h, fun _ _ _ => rfl⟩

theorem State.modelGone_of_log {s t : State} (h : s.LogOnly t) (i : Nat) (hrd : ∀ key, key ∉ logKeys → t.rd key = s.rd key) :
    s.ModelGone t i :=
  ⟨by rw [h.eq], fun j _ => h.inst j, congrArg Inst.panels (h.inst i), fun key _ hl => hrd key hl⟩

theorem State.modelGone_logMg (s : State) (i inst code cls cause slot a b : Nat) :
    s.ModelGone (s.logMg inst code cls cause slot a b) i := by
  have h := s.logMg_only inst code cls cause slot a b
  have hrd : ∀ key, key ∉ logKeys → (s.logMg inst code cls cause slot a b).rd key = s.rd key :=
    fun key hl => s.logMg_rd _ _ _ _ _ _ _ hl
  exact State.modelGone_of_log h i hrd

/-! ## The end of a load and of an unload (R323, R335) -/

/-- What the virtual grid says of a panel takes its defaults. -/
def State.gridCleared (s : State) (p : Nat) : State :=
  ((((s.wrBlob (K.vgMap p) (blobDefault (K.vgMap p))).wr (K.vgV p) 0).wr (K.vgDisplaced p) 0).wr (K.vgBorrowed p) 0).wr
    (K.vgLent p) 0

theorem State.modelGone_gridCleared {s : State} {i p : Nat} (h : p ∈ (s.inst i).panels) : s.ModelGone (s.gridCleared p) i := by
  have hkey : ∀ {key}, key / 256 = 0x3600 + p ∧ key % 256 < 8 → s.modelKey i key := fun hk => .inr (.inr (.inr ⟨p, h, hk⟩))
  have hblob : s.ModelGone (s.wrBlob (K.vgMap p) (blobDefault (K.vgMap p))) i := State.modelGone_of_eq rfl
  refine hblob.trans ?_
  have hv := State.modelGone_wr (i := i) 0 ((hblob.modelKey _).2 (hkey (key := K.vgV p) (by unfold K.vgV; omega)))
  have hd := State.modelGone_wr (i := i) 0
    ((hblob.trans hv |>.modelKey _).2 (hkey (key := K.vgDisplaced p) (by unfold K.vgDisplaced; omega)))
  have hb := State.modelGone_wr (i := i) 0
    (((hblob.trans hv).trans hd |>.modelKey _).2 (hkey (key := K.vgBorrowed p) (by unfold K.vgBorrowed; omega)))
  have hl := State.modelGone_wr (i := i) 0
    ((((hblob.trans hv).trans hd).trans hb |>.modelKey _).2 (hkey (key := K.vgLent p) (by unfold K.vgLent; omega)))
  exact ((hv.trans hd).trans hb).trans hl

theorem State.modelGone_unplace (s : State) (i : Nat) : s.ModelGone (s.unplace i) i := by
  have hcores : s.ModelGone (s.each (s.panelCores i) fun s c => s.modCore c fun k => k.clearTiles.unnamed) i :=
    State.each_rel (R := fun a b => a.ModelGone b i) (fun s => .refl s i) .trans (fun _ _ => State.modelGone_of_eq rfl) _ s
  obtain ⟨t, ht⟩ : ∃ t, t = s.each (s.panelCores i) fun s c => s.modCore c fun k => k.clearTiles.unnamed := ⟨_, rfl⟩
  have hrouters : t.ModelGone
      (t.each (t.panelCores i) fun s r => s.modRouter r fun x => { x with trans := [], tree := [], tackIn := [] }) i :=
    State.each_rel (R := fun a b => a.ModelGone b i) (fun s => .refl s i) .trans (fun _ _ => State.modelGone_of_eq rfl) _ t
  obtain ⟨u, hu⟩ : ∃ u, u = t.each (t.panelCores i) fun s r => s.modRouter r fun x =>
    { x with trans := [], tree := [], tackIn := [] } := ⟨_, rfl⟩
  have hgrid : u.ModelGone (u.each (u.inst i).panels State.gridCleared) i :=
    State.each_rel_mem (R := fun a b => a.ModelGone b i) (fun s => .refl s i) .trans u _ u (.refl u i)
      fun v p hp hv => State.modelGone_gridCleared (hv.panels ▸ hp)
  rw [← ht] at hcores
  rw [← hu] at hrouters
  have h := hcores.trans (hrouters.trans hgrid)
  rw [hu, ht] at h
  exact h

theorem State.modelGone_clearModel (s : State) (i : Nat) : s.ModelGone (s.clearModel i) i := by
  have hblobs : ∀ (l : List Nat) (s : State), s.ModelGone (s.each l fun s k => s.wrBlob k (blobDefault k)) i :=
    State.each_rel (R := fun a b => a.ModelGone b i) (fun s => .refl s i) .trans fun _ _ => State.modelGone_of_eq rfl
  unfold State.clearModel
  refine (hblobs _ s).trans (State.each_rel_mem (R := fun a b => a.ModelGone b i) (fun s => .refl s i) .trans _ _ _ (.refl _ i)
    fun v k hk _ => State.modelGone_wr _ ?_)
  simp only [List.mem_cons, List.not_mem_nil, or_false] at hk
  unfold State.modelKey
  rcases hk with rfl | rfl | rfl | rfl | rfl | rfl | rfl | rfl | rfl
  · exact .inr (.inl (by unfold K.modelLayers; omega))
  · exact .inr (.inl (by unfold K.modelVocab; omega))
  · exact .inr (.inl (by unfold K.modelContext; omega))
  · exact .inr (.inl (by unfold K.modelDraftHeads; omega))
  · exact .inr (.inl (by unfold K.modelKeyId; omega))
  · exact .inr (.inr (.inl (by unfold K.kvGeometry; omega)))
  · exact .inr (.inr (.inl (by unfold K.poolPages; omega)))
  · exact .inr (.inr (.inl (by unfold K.lowWm; omega)))
  · exact .inr (.inr (.inl (by unfold K.highWm; omega)))

theorem State.modelKey_instState (s : State) (i : Nat) : s.modelKey i (K.instState i) := .inl (by unfold K.instState; omega)
theorem State.modelKey_loadStatus (s : State) (i : Nat) : s.modelKey i (K.loadStatus i) := .inl (by unfold K.loadStatus; omega)

theorem State.modelGone_writeJournal (s : State) (i st : Nat) (digest : List Byte) :
    s.ModelGone (s.writeJournal i st digest) i := State.modelGone_of_eq rfl

/-- What a load's end leaves before it is logged. -/
def State.loadEnded (s : State) (i code shard : Nat) : State :=
  (((((s.unplace i).clearModel i).wr (K.loadStatus i) (pack [(6, 0), (code, 8), (shard, 16)])).wr (K.instState i)
    instUnfitted).writeJournal i 0 []).modInst i Inst.bare

theorem State.loadFail_eq (s : State) (i code shard : Nat) : s.loadFail i code shard =
    (s.loadEnded i code shard).logMg i 0x0402 1 0 noSlot ((s.loadEnded i code shard).rd (K.loadStatus i)) 0 := rfl

theorem State.modelGone_loadEnded (s : State) (i code shard : Nat) : s.ModelGone (s.loadEnded i code shard) i := by
  unfold State.loadEnded
  refine ((s.modelGone_unplace i).trans (State.modelGone_clearModel _ i)).trans ?_
  generalize (s.unplace i).clearModel i = u
  exact (State.modelGone_wr _ (u.modelKey_loadStatus i)).trans ((State.modelGone_wr _ (State.modelKey_instState _ i)).trans
    ((State.modelGone_writeJournal _ i 0 []).trans (State.modelGone_modInst _ i rfl)))

theorem State.modelGone_loadFail (s : State) (i code shard : Nat) : s.ModelGone (s.loadFail i code shard) i := by
  rw [State.loadFail_eq]
  exact (s.modelGone_loadEnded i code shard).trans (State.modelGone_logMg _ i ..)

theorem State.modelGone_unloaded (s : State) (i : Nat) : s.ModelGone (s.unloaded i) i := by
  have hcores : ∀ s : State, s.ModelGone (s.zeroCores i) i := fun s =>
    State.each_rel (R := fun a b => a.ModelGone b i) (fun s => .refl s i) .trans (fun _ _ => State.modelGone_of_eq rfl) _ s
  have hwipe : s.ModelGone (s.hbmWipe i) i := State.modelGone_of_eq rfl
  exact (hwipe.trans (hcores _)).trans ((State.modelGone_clearModel _ i).trans
    ((State.modelGone_wr _ (State.modelKey_instState _ i)).trans
      ((State.modelGone_modInst _ i rfl).trans (State.modelGone_writeJournal _ i 0 []))))

/-! ## Entries that no load's end touches -/

/-- The panels of the 12 instances are the grid's. -/
def State.InGrid (s : State) : Prop := ∀ j, j < 12 → ∀ p ∈ (s.inst j).panels, p < 12

/-- The entry is none of an instance's model or panel and none that a log entry moves. -/
def OutsideModels (key : Nat) : Prop :=
  (key / 256 < 0x3600 ∨ 0x4200 ≤ key / 256 ∧ key / 256 < 0x6000 ∨ 0x6200 ≤ key / 256) ∧ key ∉ logKeys

/-- Some instances lose their models. -/
structure State.ModelsGone (s t : State) : Prop where
  frame : t = { s with
    cores := t.cores, routers := t.routers, hbm := t.hbm, hbmPoison := t.hbmPoison, hbmErr := t.hbmErr, blobs := t.blobs
    dict := t.dict, journalOld := t.journalOld, insts := t.insts, log := t.log, fns := t.fns, sent := t.sent
    logMsgAt := t.logMsgAt, logMsgHeld := t.logMsgHeld }
  panels : ∀ j, (t.inst j).panels = (s.inst j).panels
  rd : s.InGrid → ∀ key, OutsideModels key → t.rd key = s.rd key

theorem State.InGrid.of_panels {s t : State} (h : s.InGrid) (ht : ∀ j, (t.inst j).panels = (s.inst j).panels) : t.InGrid := by
  intro j hj p hp
  rw [ht] at hp
  exact h j hj p hp

theorem State.ModelsGone.refl (s : State) : s.ModelsGone s := ⟨rfl, fun _ => rfl, fun _ _ _ => rfl⟩

theorem State.ModelsGone.trans {a b c : State} (h : a.ModelsGone b) (h' : b.ModelsGone c) : a.ModelsGone c where
  frame := by rw [h'.frame, h.frame]
  panels j := (h'.panels j).trans (h.panels j)
  rd ha key hk := (h'.rd (ha.of_panels h.panels) key hk).trans (h.rd ha key hk)

theorem State.ModelGone.models {s t : State} {i : Nat} (h : s.ModelGone t i) (hi : i < 12) : s.ModelsGone t := by
  refine ⟨h.frame, fun j => ?panels, fun hs key hk => h.rd key ?key hk.2⟩
  case panels =>
    by_cases hj : j = i
    · rw [hj, h.panels]
    · rw [h.other j hj]
  case key =>
    have := hk.1
    rintro (h' | h' | h' | ⟨p, hp, h', -⟩)
    · omega
    · omega
    · omega
    · have := hs i hi p hp
      omega

end Sys2Proof.Machine
end

section
/-! Blocks of an image (R502, R503): O58. -/

namespace Sys2Proof.Machine

/-! ## Frames -/

theorem State.OnlyEntries.logMg {s u : State} {keys : List Nat} (h : s.OnlyEntries u keys) (a b c d e f g : Nat) :
    s.OnlyEntriesAndLog (u.logMg a b c d e f g) keys := by
  obtain ⟨hu, hrd⟩ := h
  have hl := u.logMg_only a b c d e f g
  have hlrd : ∀ k, k ∉ logKeys → (u.logMg a b c d e f g).rd k = u.rd k := fun k hk => u.logMg_rd _ _ _ _ _ _ _ hk
  generalize u.logMg a b c d e f g = t at hl hlrd
  exact ⟨by rw [hl.eq, hu], fun k hk hlog => (hlrd k hlog).trans (hrd k hk)⟩

theorem State.OnlyEntries.wr {s t : State} {keys : List Nat} (h : s.OnlyEntries t keys) (k v : Nat) :
    s.OnlyEntries (t.wr k v) (keys ++ [k]) := by
  obtain ⟨ht, hrd⟩ := h
  refine ⟨by rw [ht]; rfl, fun j hj => ?_⟩
  rw [List.mem_append, not_or, List.mem_singleton] at hj
  exact (t.rd_wr_ne k v j hj.2).trans (hrd j hj.1)

theorem State.onlyEntries_refl (s : State) : s.OnlyEntries s [] := ⟨rfl, fun _ _ => rfl⟩

/-- The entries, the blobs and the state of the keys and images alone differ. -/
def State.UploadOnly (s t : State) : Prop := t = { s with dict := t.dict, blobs := t.blobs, sec := t.sec }

theorem State.UploadOnly.trans {a b c : State} (h : a.UploadOnly b) (h' : b.UploadOnly c) : a.UploadOnly c := by
  unfold State.UploadOnly at *
  rw [h', h]

/-! ## Banks -/

@[simp] theorem State.bankNo_setBank (s : State) (n : Nat) (b : Bank) : (s.setBank n b).bankNo n = b := by
  unfold State.setBank State.bankNo
  split_ifs <;> rfl

theorem State.bankNo_wr (s : State) (k v n : Nat) : (s.wr k v).bankNo n = s.bankNo n := rfl

theorem State.uploadOnly_setBank (s : State) (n : Nat) (b : Bank) : s.UploadOnly (s.setBank n b) := rfl

theorem State.uploadOnly_clearUpload (s : State) : s.UploadOnly s.clearUpload := rfl

/-- What the upload shows of itself. -/
def uploadKeys : List Nat := [K.fwState, K.fwNextOffset, K.fwImageVersion, K.fwActivateAt]

/-- No upload is shown. -/
theorem State.clearUpload_holds (s : State) : s.clearUpload.rd K.fwState = 0 ∧ s.clearUpload.rd K.fwNextOffset = 0 ∧
    s.clearUpload.rd K.fwImageVersion = 0 ∧ s.clearUpload.rd K.fwActivateAt = 0 ∧
    ∀ k, k ∉ uploadKeys → s.clearUpload.rd k = s.rd k := by
  have hwr : ∀ (u : State) (k : Nat), k ≠ K.fwActivateAt →
      (((u.wrBlob K.fwImageDigest (blobDefault K.fwImageDigest)).wr K.fwActivateAt 0).rd k = u.rd k) :=
    fun u k hk => State.rd_wr_ne _ _ _ _ hk
  refine ⟨?state, ?next, ?version, State.rd_wr .., fun k hk => ?_⟩
  case state =>
    exact (hwr _ _ (by decide)).trans ((State.rd_wr_ne _ _ _ _ (by decide)).trans
      ((State.rd_wr_ne _ _ _ _ (by decide)).trans (State.rd_wr ..)))
  case next => exact (hwr _ _ (by decide)).trans ((State.rd_wr_ne _ _ _ _ (by decide)).trans (State.rd_wr ..))
  case version => exact (hwr _ _ (by decide)).trans (State.rd_wr ..)
  · simp only [uploadKeys, List.mem_cons, List.not_mem_nil, or_false, not_or] at hk
    obtain ⟨hstate, hnext, hversion, hat⟩ := hk
    exact (hwr _ _ hat).trans ((State.rd_wr_ne _ _ _ _ hversion).trans ((State.rd_wr_ne _ _ _ _ hnext).trans
      (State.rd_wr_ne _ _ _ _ hstate)))

/-! ## Header blocks -/

/-- A bank with one more block of its header. -/
def Bank.withHeader (b : Bank) (o : Nat) (bs : List Byte) : Bank := { b with
  header := slice b.header 0 o ++ bs ++ b.header.drop (o + 1024)
  hdrBlocks := if b.hdrBlocks.contains (o / 1024) then b.hdrBlocks else b.hdrBlocks ++ [o / 1024] }

/-- The state that takes a header block: a new upload starts unless one is under way. -/
def State.headerReady (s : State) : State :=
  if s.rd K.fwState ≠ 1 then (((s.clearUpload.setBank s.uploadBank {}).wr K.fwState 1).wr K.fwResult 0) else s

/-- The bank that takes a header block. -/
def State.headerOld (s : State) : Bank := if s.rd K.fwState ≠ 1 then {} else s.bankNo s.uploadBank

theorem State.headerReady_bank (s : State) : s.headerReady.bankNo s.uploadBank = s.headerOld := by
  unfold State.headerReady State.headerOld
  by_cases h : s.rd K.fwState ≠ 1
  · rw [if_pos h, if_pos h]
    exact State.bankNo_setBank ..
  · rw [if_neg h, if_neg h]

theorem State.headerReady_only (s : State) : s.UploadOnly s.headerReady := by
  unfold State.headerReady
  split_ifs <;> rfl

theorem State.headerReady_rd (s : State) : s.headerReady.rd K.fwState = 1 ∧
    s.headerReady.rd K.fwResult = (if s.rd K.fwState ≠ 1 then 0 else s.rd K.fwResult) ∧
    ∀ k, k ∉ K.fwResult :: uploadKeys → s.headerReady.rd k = s.rd k := by
  unfold State.headerReady
  by_cases h : s.rd K.fwState ≠ 1
  · rw [if_pos h, if_pos h]
    refine ⟨(State.rd_wr_ne _ _ _ _ (by decide)).trans (State.rd_wr ..), State.rd_wr .., fun k hk => ?_⟩
    rw [List.mem_cons, not_or] at hk
    exact (State.rd_wr_ne _ _ _ _ hk.1).trans ((State.rd_wr_ne _ _ _ _ fun he => hk.2 (List.mem_cons.2 (.inl he))).trans
      (s.clearUpload_holds.2.2.2.2 k hk.2))
  · rw [if_neg h, if_neg h]
    exact ⟨not_not.1 h, rfl, fun _ _ => rfl⟩

theorem State.headerReady_code (s : State) (h : List Byte) : s.headerReady.headerCode h = s.headerCode h := by
  have hslots : s.headerReady.sec.slotA = s.sec.slotA ∧ s.headerReady.sec.slotB = s.sec.slotB := by
    unfold State.headerReady State.setBank
    split_ifs <;> exact ⟨rfl, rfl⟩
  unfold State.headerCode State.keyInForce
  rw [s.headerReady_rd.2.2 K.keySlot (by decide), s.headerReady_rd.2.2 K.svnCounter (by decide), hslots.1, hslots.2]

theorem State.headerBlock_part {s : State} {o : Nat} {bs : List Byte} (h : (s.headerOld.withHeader o bs).hdrBlocks.length ≠ 52) :
    (s.headerBlock o bs).1 = s.headerReady.setBank s.uploadBank (s.headerOld.withHeader o bs) := by
  rw [← s.headerReady_bank] at h ⊢
  exact congrArg Prod.fst (if_neg h)

theorem State.headerBlock_whole {s : State} {o : Nat} {bs : List Byte} (h : (s.headerOld.withHeader o bs).hdrBlocks.length = 52) :
    (s.headerBlock o bs).1 = s.headerReady.checkHeader s.uploadBank (s.headerOld.withHeader o bs) := by
  rw [← s.headerReady_bank] at h ⊢
  exact congrArg Prod.fst (if_pos h)

/-- A block of a good form. -/
def FwFormed (o : Nat) (bs : List Byte) : Prop :=
  o % 1024 = 0 ∧ bs.length = 1024 ∧ o + 1024 ≤ headerBytes + 1024 * chunkBytes

theorem FwFormed.not_bad {o : Nat} {bs : List Byte} (h : FwFormed o bs) :
    ¬(o % 1024 ≠ 0 ∨ bs.length ≠ 1024 ∨ headerBytes + 1024 * chunkBytes < o + 1024) := by
  obtain ⟨ho, hbs, hend⟩ := h
  rintro (h | h | h)
  · exact h ho
  · exact h hbs
  · exact absurd hend (Nat.not_le.2 h)

theorem State.fwBlock_unformed {s : State} {o : Nat} {bs : List Byte} (h : ¬FwFormed o bs) : (s.fwBlock o bs).1 = s := by
  refine congrArg Prod.fst (if_pos ?_)
  by_contra hbad
  obtain ⟨ho, hbs, hend⟩ := not_or.1 hbad |>.imp_right not_or.1
  exact h ⟨not_not.1 ho, not_not.1 hbs, Nat.not_lt.1 hend⟩

theorem State.fwBlock_refused {s : State} {o : Nat} {bs : List Byte} (h : FwFormed o bs) (h2 : s.rd K.fwState ≠ 2)
    (hst : ¬((s.rd K.fwState = 0 ∨ s.rd K.fwState = 1 ∨ s.rd K.fwState = 6) ∧ o < headerBytes)) :
    (s.fwBlock o bs).1 = s.wr K.fwResult 5 :=
  congrArg Prod.fst ((if_neg h.not_bad).trans ((if_neg h2).trans (if_neg hst)))

theorem State.fwBlock_header {s : State} {o : Nat} {bs : List Byte} (h : FwFormed o bs)
    (hst : s.rd K.fwState = 0 ∨ s.rd K.fwState = 1 ∨ s.rd K.fwState = 6) (ho : o < headerBytes) :
    (s.fwBlock o bs).1 = (s.headerBlock o bs).1 :=
  congrArg Prod.fst ((if_neg h.not_bad).trans ((if_neg (by omega)).trans (if_pos ⟨hst, ho⟩)))

theorem State.fwBlock_chunk {s : State} {o : Nat} {bs : List Byte} (h : FwFormed o bs) (hst : s.rd K.fwState = 2) :
    (s.fwBlock o bs).1 = (s.chunkBlock o bs).1 := congrArg Prod.fst ((if_neg h.not_bad).trans (if_pos hst))

theorem header_part {s : State} {o : Nat} {bs : List Byte} (h : (s.headerOld.withHeader o bs).hdrBlocks.length ≠ 52) :
    ∃ t, (s.headerBlock o bs).1 = t ∧ t = { s with dict := t.dict, blobs := t.blobs, sec := t.sec } ∧ t.rd K.fwState = 1 ∧
      t.bankNo s.uploadBank = s.headerOld.withHeader o bs ∧
      t.rd K.fwResult = (if s.rd K.fwState ≠ 1 then 0 else s.rd K.fwResult) :=
  ⟨_, State.headerBlock_part h, s.headerReady_only.trans (State.uploadOnly_setBank ..), s.headerReady_rd.1,
    State.bankNo_setBank .., s.headerReady_rd.2.1⟩

/-- A header that is refused: nothing of it is kept. -/
theorem header_refused {s : State} {o : Nat} {bs : List Byte} (h : (s.headerOld.withHeader o bs).hdrBlocks.length = 52)
    (hc : s.headerCode (s.headerOld.withHeader o bs).header ≠ 0) :
    ∃ t, (s.headerBlock o bs).1 = t ∧ t.rd K.fwState = 6 ∧
      t.rd K.fwResult = s.headerCode (s.headerOld.withHeader o bs).header ∧ t.bankNo s.uploadBank = {} ∧ t.Logged 0x4002 1 ∧
      t.cores = s.cores ∧ t.hbm = s.hbm := by
  have heq := State.headerBlock_whole h
  rw [← s.headerReady_code] at hc ⊢
  obtain ⟨u, hu⟩ : ∃ u, u = s.headerReady := ⟨_, rfl⟩
  have honly := s.headerReady_only
  rw [← hu] at heq hc honly ⊢
  obtain ⟨v, hv⟩ : ∃ v, v = ((u.setBank s.uploadBank {}).wr K.fwState 6).wr K.fwResult
    (u.headerCode (s.headerOld.withHeader o bs).header) := ⟨_, rfl⟩
  refine ⟨_, heq.trans ((if_pos hc).trans (congrArg (fun v : State => v.logMg noInst 0x4002 1 0 noSlot
    (u.headerCode (s.headerOld.withHeader o bs).header) 0) hv.symm)), ?_⟩
  have hl := v.logMg_only noInst 0x4002 1 0 noSlot (u.headerCode (s.headerOld.withHeader o bs).header) 0
  refine ⟨?state, ?result, ?bank, State.logged_logMg _ _ _ _ _ _ _ _ rfl, ?cores, ?hbm⟩
  case state => rw [State.logMg_rd _ _ _ _ _ _ _ _ (by decide), hv, State.rd_wr_ne _ _ _ _ (by decide), State.rd_wr]
  case result => rw [State.logMg_rd _ _ _ _ _ _ _ _ (by decide), hv, State.rd_wr]
  case bank =>
    have hb : v.bankNo s.uploadBank = {} := by rw [hv]; exact State.bankNo_setBank ..
    unfold State.bankNo at hb ⊢
    rw [hl.sec]
    exact hb
  case cores =>
    rw [hl.cores, hv]
    exact (congrArg State.cores honly :)
  case hbm =>
    rw [hl.hbm, hv]
    exact (congrArg State.hbm honly :)

/-- A header that is accepted. -/
theorem header_accepted {s : State} {o : Nat} {bs : List Byte} (h : (s.headerOld.withHeader o bs).hdrBlocks.length = 52)
    (hc : s.headerCode (s.headerOld.withHeader o bs).header = 0) :
    ∃ t, (s.headerBlock o bs).1 = t ∧ t = { s with dict := t.dict, blobs := t.blobs, sec := t.sec } ∧ t.rd K.fwState = 2 ∧
      t.bankNo s.uploadBank = { s.headerOld.withHeader o bs with hdrBlocks := [] } ∧
      t.rd K.fwImageVersion = fwVer (s.headerOld.withHeader o bs).header ∧
      t.rd K.fwNextOffset = headerBytes + chunkBytes * (s.headerOld.withHeader o bs).nextChunk := by
  have heq := State.headerBlock_whole h
  rw [← s.headerReady_code] at hc
  have honly := s.headerReady_only
  obtain ⟨b, hb⟩ : ∃ b, b = s.headerOld.withHeader o bs := ⟨_, rfl⟩
  rw [← hb] at heq hc ⊢
  generalize s.headerReady = u at heq hc honly
  refine ⟨_, heq.trans (if_neg (not_not_intro hc)), honly.trans rfl, ?state, State.bankNo_setBank .., ?version, State.rd_wr ..⟩
  case state =>
    exact (State.rd_wr_ne _ _ _ _ (by decide)).trans ((State.wrBlob_rd_other ..).trans
      ((State.rd_wr_ne _ _ _ _ (by decide)).trans (State.rd_wr ..)))
  case version => exact (State.rd_wr_ne _ _ _ _ (by decide)).trans ((State.wrBlob_rd_other ..).trans (State.rd_wr ..))

/-! ## Chunk blocks -/

/-- Chunk of a block's offset. -/
def fwChunkOf (o : Nat) : Nat := (o - headerBytes) / chunkBytes

/-- A bank with one more block of a chunk. -/
def Bank.withBlock (b : Bank) (o : Nat) (bs : List Byte) : Bank :=
  { b with blocks := mapSet (fun _ => []) b.blocks ((o - headerBytes) / 1024) bs }

/-- The blocks of chunk k, together. -/
def Bank.chunkBytes (b : Bank) (k : Nat) : List Byte := (List.range 64).flatMap fun j => mapGet (fun _ => []) b.blocks (64 * k + j)

/-- The bank without chunk k's blocks. -/
def Bank.dropBlocks (b : Bank) (k : Nat) : Bank := { b with blocks := b.blocks.filter fun x => x.1 / 64 != k }

/-- The bank with chunk k verified. -/
def Bank.withChunk (b : Bank) (k : Nat) : Bank :=
  { b with chunks := mapSet (fun _ => []) b.chunks k (b.chunkBytes k), blocks := b.blocks.filter fun x => x.1 / 64 != k }

theorem State.chunkBlock_header {s : State} {o : Nat} {bs : List Byte} (ho : o < headerBytes) :
    (slice (s.bankNo s.uploadBank).header o 1024 = bs → (s.chunkBlock o bs).1 = s) ∧
    (slice (s.bankNo s.uploadBank).header o 1024 ≠ bs → (s.chunkBlock o bs).1 = s.wr K.fwResult 5) :=
  ⟨fun h => congrArg Prod.fst ((if_pos ho).trans (if_pos h)), fun h => congrArg Prod.fst ((if_pos ho).trans (if_neg h))⟩

theorem State.chunkBlock_known {s : State} {o : Nat} {bs : List Byte} (ho : headerBytes ≤ o)
    (h : fwChunks (s.bankNo s.uploadBank).header ≤ fwChunkOf o ∨ mapGet (fun _ => []) (s.bankNo s.uploadBank).chunks (fwChunkOf o) ≠ []) :
    (s.chunkBlock o bs).1 = s := by
  refine (congrArg Prod.fst (if_neg (Nat.not_lt.2 ho))).trans ?_
  by_cases hk : fwChunks (s.bankNo s.uploadBank).header ≤ fwChunkOf o
  · exact congrArg Prod.fst (if_pos hk)
  · refine congrArg Prod.fst ((if_neg hk).trans (if_pos ?_))
    rw [Bool.not_eq_true', List.isEmpty_eq_false_iff]
    exact h.resolve_left hk

theorem State.chunkBlock_new {s : State} {o : Nat} {bs : List Byte} (ho : headerBytes ≤ o)
    (hk : fwChunkOf o < fwChunks (s.bankNo s.uploadBank).header)
    (hhas : ¬mapGet (fun _ => []) (s.bankNo s.uploadBank).chunks (fwChunkOf o) ≠ []) :
    s.chunkBlock o bs =
      if ((((s.bankNo s.uploadBank).withBlock o bs).blocks).filter fun x => x.1 / 64 == fwChunkOf o).length = 64 then
        s.chunkComplete s.uploadBank (fwChunkOf o) ((s.bankNo s.uploadBank).withBlock o bs)
      else (s.setBank s.uploadBank ((s.bankNo s.uploadBank).withBlock o bs), 0) := by
  refine (if_neg (Nat.not_lt.2 ho)).trans ((if_neg (Nat.not_le.2 hk)).trans (if_neg ?_))
  rw [Bool.not_eq_true', List.isEmpty_eq_false_iff]
  exact hhas

theorem chunk_bad {s : State} {n k : Nat} {b : Bank} (h : Config.sha384 (b.chunkBytes k) ≠ slice b.header (192 + 48 * k) 48) :
    ∃ t, (s.chunkComplete n k b).1 = t ∧ (s.setBank n (b.dropBlocks k)).OnlyEntries t [K.fwResult, K.fwChunkErrors] ∧
      t.rd K.fwResult = 4 ∧ t.rd K.fwChunkErrors = (s.rd K.fwChunkErrors + 1) % 2 ^ 32 := by
  refine ⟨_, congrArg Prod.fst (if_neg h), ((State.onlyEntries_wr _ K.fwResult 4).wr K.fwChunkErrors _), ?result, ?errors⟩
  case result => exact (State.rd_wr_ne _ _ _ _ (by decide)).trans (State.rd_wr ..)
  case errors =>
    refine (State.rd_wr ..).trans ?_
    rw [State.rd_wr_ne _ _ _ _ (by decide)]
    rfl

/-- A chunk that verifies is kept; with the last one the upload is complete. -/
theorem chunk_good {s : State} {n k : Nat} {b : Bank} (h : Config.sha384 (b.chunkBytes k) = slice b.header (192 + 48 * k) 48) :
    ∃ t, (s.chunkComplete n k b).1 = t ∧ t.bankNo n = b.withChunk k ∧
      t.rd K.fwNextOffset = headerBytes + chunkBytes * (b.withChunk k).nextChunk ∧
      ((b.withChunk k).nextChunk ≠ fwChunks b.header → (s.setBank n (b.withChunk k)).OnlyEntries t [K.fwNextOffset]) ∧
      ((b.withChunk k).nextChunk = fwChunks b.header → t.rd K.fwState = 3 ∧ t.Logged 0x4001 0) := by
  have heq : s.chunkComplete n k b = if (b.withChunk k).nextChunk = fwChunks b.header then
      ((((s.setBank n (b.withChunk k)).noteNext (b.withChunk k)).wr K.fwState 3).logMg noInst 0x4001 0 0 noSlot
        (fwVer b.header) (fwSvn b.header), 0)
      else ((s.setBank n (b.withChunk k)).noteNext (b.withChunk k), 0) := if_pos h
  obtain ⟨f, hf⟩ : ∃ f, f = b.withChunk k := ⟨_, rfl⟩
  rw [← hf] at heq ⊢
  obtain ⟨u, hu⟩ : ∃ u, u = (s.setBank n f).noteNext f := ⟨_, rfl⟩
  have hnext : u.rd K.fwNextOffset = headerBytes + chunkBytes * f.nextChunk := by rw [hu]; exact State.rd_wr ..
  have hbank : u.bankNo n = f := by rw [hu]; exact State.bankNo_setBank ..
  have honly : (s.setBank n f).OnlyEntries u [K.fwNextOffset] := by rw [hu]; exact State.onlyEntries_wr ..
  rw [← hu] at heq
  by_cases hlast : f.nextChunk = fwChunks b.header
  · rw [if_pos hlast] at heq
    refine ⟨_, congrArg Prod.fst heq, ?_, ?_, absurd hlast, fun _ => ⟨?_, State.logged_logMg _ _ _ _ _ _ _ _ rfl⟩⟩
    · have hl := (u.wr K.fwState 3).logMg_only noInst 0x4001 0 0 noSlot (fwVer b.header) (fwSvn b.header)
      unfold State.bankNo at hbank ⊢
      dsimp only
      rw [hl.sec]
      exact hbank
    · exact (State.logMg_rd _ _ _ _ _ _ _ _ (by decide)).trans ((State.rd_wr_ne _ _ _ _ (by decide)).trans hnext)
    · exact (State.logMg_rd _ _ _ _ _ _ _ _ (by decide)).trans (State.rd_wr ..)
  · rw [if_neg hlast] at heq
    exact ⟨u, congrArg Prod.fst heq, hbank, hnext, fun _ => honly, fun h => absurd h hlast⟩

end Sys2Proof.Machine
end

section
/-! Activation of an image, keys, recovery and test enable (R497-R509): O58. -/

namespace Sys2Proof.Machine

/-! ## Messages to members -/

theorem State.seamsOnly_sendMember (s : State) (dst type tag : Nat) (payload : List Byte) :
    s.SeamsOnly (s.sendMember dst type tag payload) := by
  unfold State.sendMember
  split <;> rfl

/-- Changes that agree on the states that the first can reach. -/
theorem State.each_congr {α : Type} {R : State → State → Prop} (hr : ∀ s, R s s) (ht : ∀ {a b c}, R a b → R b c → R a c)
    {f g : State → α → State} (hf : ∀ s x, R s (f s x)) (s₀ : State) (hfg : ∀ s x, R s₀ s → f s x = g s x) :
    ∀ (l : List α) (s : State), R s₀ s → s.each l f = s.each l g
  | [], _, _ => rfl
  | x :: l, s, h => by
    refine (State.each_congr hr @ht hf s₀ hfg l (f s x) (ht h (hf s x))).trans ?_
    rw [hfg s x h]
    rfl

/-- The master's write of `fw_cmd` goes to every other member. -/
def State.tellMembers (s : State) (cmd : Nat) : State :=
  s.each ((List.range s.cascSize).filter fun m => m != s.me) fun u m =>
    u.sendMember m 4 (s.rd K.ctackSeq) (leBytes 2 0x8000 ++ leBytes 1 2 ++ leBytes 1 cmd)

theorem State.seamsOnly_tellMembers (s : State) (cmd : Nat) : s.SeamsOnly (s.tellMembers cmd) :=
  State.each_rel (R := State.SeamsOnly) (fun _ => rfl) .trans (fun _ _ => State.seamsOnly_sendMember ..) _ s

theorem State.SeamsOnly.rd {s t : State} (h : s.SeamsOnly t) (k : Nat) : t.rd k = s.rd k :=
  (congrArg (fun t : State => t.rd k) h :)

theorem State.tellMembers_eq (s : State) (cmd : Nat) :
    (s.each ((List.range s.cascSize).filter fun m => m != s.me) fun s m => s.sendMember m 4 (s.rd K.ctackSeq)
      (leBytes 2 0x8000 ++ leBytes 1 2 ++ leBytes 1 cmd)) = s.tellMembers cmd :=
  State.each_congr (R := State.SeamsOnly) (fun _ => rfl) .trans (fun _ _ => State.seamsOnly_sendMember ..) s
    (fun u m (hu : s.SeamsOnly u) => by rw [hu.rd]) _ s rfl

/-! ## Commands (R502, R504) -/

theorem State.fwCancelled_spec (s : State) (r : Nat) : s.OnlyEntriesAndLog (s.fwCancelled r) [K.fwState, K.fwResult] ∧
    (s.fwCancelled r).rd K.fwState = 3 ∧ (s.fwCancelled r).rd K.fwResult = r ∧ (s.fwCancelled r).Logged 0x4004 1 := by
  refine ⟨((s.onlyEntries_wr K.fwState 3).wr K.fwResult r).logMg .., ?state, ?result, State.logged_logMg _ _ _ _ _ _ _ _ rfl⟩
  case state => exact (State.logMg_rd _ _ _ _ _ _ _ _ (by decide)).trans ((State.rd_wr_ne _ _ _ _ (by decide)).trans (State.rd_wr ..))
  case result => exact (State.logMg_rd _ _ _ _ _ _ _ _ (by decide)).trans (State.rd_wr ..)

theorem State.fwArm_spec {s : State} :
    (s.rd K.fwState = 3 ∧ s.mirror K.timeNow + 10000000000 ≤ s.rd K.fwActivateAt ∧
      s.rd K.fwActivateAt ≤ s.mirror K.timeNow + 2592000000000000 →
      (s.fwArm).1 = { s with sec := { s.sec with confirmed := false } }.wr K.fwState 4) ∧
    (¬(s.rd K.fwState = 3 ∧ s.mirror K.timeNow + 10000000000 ≤ s.rd K.fwActivateAt ∧
      s.rd K.fwActivateAt ≤ s.mirror K.timeNow + 2592000000000000) → (s.fwArm).1 = s) := by
  unfold State.fwArm
  dsimp only
  generalize s.mirror K.timeNow = now
  generalize s.rd K.fwActivateAt = act
  refine ⟨fun ⟨h3, hlo, hhi⟩ => ?_, fun h => ?_⟩
  · rw [if_neg (not_not_intro h3), if_neg (by omega)]
  · split_ifs with h3 hact
    · rfl
    · rfl
    · exact absurd ⟨not_not.1 h3, by omega, by omega⟩ h

theorem arm_clause {s : State} (h : s.rd K.fwState = 3 ∧ s.mirror K.timeNow + 10000000000 ≤ s.rd K.fwActivateAt ∧
    s.rd K.fwActivateAt ≤ s.mirror K.timeNow + 2592000000000000) : ∃ t, exec .arm s = .next t ∧
    t = { s with dict := t.dict, sec := { s.sec with confirmed := false } } ∧ t.rd K.fwState = 4 ∧
    ∀ k, k ≠ K.fwState → t.rd k = s.rd k := by
  refine ⟨_, congrArg Host.Outcome.next (State.fwArm_spec.1 h), rfl, State.rd_wr .., fun k hk => ?_⟩
  exact State.rd_wr_ne _ _ _ _ hk

theorem abort_clause {s : State} (h : 1 ≤ s.rd K.fwState ∧ s.rd K.fwState ≤ 3) : ∃ t, exec .fwAbort s = .next t ∧
    t = { s with dict := t.dict, blobs := t.blobs, sec := t.sec } ∧ t.rd K.fwState = 0 ∧ t.rd K.fwNextOffset = 0 ∧
    t.rd K.fwImageVersion = 0 ∧ t.rd K.fwActivateAt = 0 ∧ t.bankNo s.uploadBank = {} ∧
    ∀ k, k ∉ uploadKeys → t.rd k = s.rd k := by
  obtain ⟨hstate, hnext, hversion, hat, hrest⟩ := (s.setBank s.uploadBank {}).clearUpload_holds
  exact ⟨_, congrArg Host.Outcome.next (congrArg Prod.fst (if_pos (by omega))), rfl, hstate, hnext, hversion, hat,
    State.bankNo_setBank .., hrest⟩

theorem abort_not {s : State} (h : ¬(1 ≤ s.rd K.fwState ∧ s.rd K.fwState ≤ 3)) : exec .fwAbort s = .next s :=
  congrArg Host.Outcome.next (congrArg Prod.fst (if_neg (by omega)))

theorem cancel_not {s : State} {role : Role} (h : role ≠ .C ∨ s.rd K.fwState ≠ 4) :
    exec (.confirm role) s = .next s ∧ exec (.fwCancel role) s = .next s := by
  by_cases hr : role ≠ .C
  · exact ⟨congrArg Host.Outcome.next (congrArg Prod.fst (if_pos hr)), congrArg Host.Outcome.next (congrArg Prod.fst (if_pos hr))⟩
  · have h4 := h.resolve_left hr
    exact ⟨congrArg Host.Outcome.next (congrArg Prod.fst ((if_neg hr).trans (if_neg h4))),
      congrArg Host.Outcome.next (congrArg Prod.fst ((if_neg hr).trans (if_neg h4)))⟩

theorem cancel_clause {s : State} (h : s.rd K.fwState = 4) :
    exec (.confirm .C) s = .next { s with sec := { s.sec with confirmed := true } } ∧
    exec (.fwCancel .C) s = .next (s.fwCancelled 7) :=
  ⟨congrArg Host.Outcome.next (congrArg Prod.fst ((if_neg (not_not_intro rfl)).trans (if_pos h))),
    congrArg Host.Outcome.next (congrArg Prod.fst ((if_neg (not_not_intro rfl)).trans (if_pos h)))⟩

theorem exec_selfCancel_eq (s : State) : exec .selfCancel s =
    .next (if s.rd K.fwState = 4 ∧ s.rd K.cascState ≠ 0 ∧ s.sec.confirmed = false then s.fwCancelled 6 else s) := by
  refine congrArg Host.Outcome.next (if_congr ?_ rfl rfl)
  rw [Bool.not_eq_true']

/-! ## The master's check (R504) -/

/-- Every other member's upload is the master's own, and armed. -/
def State.Alike (s : State) (others : List UploadView) : Prop :=
  s.rd K.fwState = 4 ∧ ∀ m, m < s.cascSize → m ≠ s.me → ∃ v ∈ others, v.member.val = m ∧ v.reachable = true ∧
    v.fwState = 4 ∧ v.activateAt = s.rd K.fwActivateAt ∧ v.imageDigest = s.blob K.fwImageDigest

theorem State.alike_iff (s : State) (others : List UploadView) : s.Alike others ↔
    (s.rd K.fwState = 4 ∧ ((List.range s.cascSize).filter fun m => m != s.me).all (fun m => others.any fun v =>
      v.member.val == m && v.reachable && v.fwState == 4 && v.activateAt == s.rd K.fwActivateAt &&
        v.imageDigest == s.blob K.fwImageDigest) = true) := by
  unfold State.Alike
  simp only [List.all_eq_true, List.any_eq_true, List.mem_filter, List.mem_range, bne_iff_ne, Bool.and_eq_true, beq_iff_eq,
    and_imp, and_assoc]

theorem exec_activationCheck_not {s : State} {others : List UploadView} (h : ¬(s.isMaster = true ∧ s.rd K.cascState ≠ 0)) :
    exec (.activationCheck others) s = .next s := by
  refine if_pos ?_
  by_contra hc
  simp only [Bool.or_eq_true, Bool.not_eq_true', decide_eq_true_eq, not_or, Bool.not_eq_false] at hc
  exact h hc

theorem exec_activationCheck_alike {s : State} {others : List UploadView} (h : s.isMaster = true ∧ s.rd K.cascState ≠ 0)
    (ha : s.Alike others) :
    exec (.activationCheck others) s = .next { s.tellMembers 4 with sec := { s.sec with confirmed := true } } := by
  have hc : ¬((!s.isMaster || decide (s.rd K.cascState = 0)) = true) := by
    simp only [Bool.or_eq_true, Bool.not_eq_true', decide_eq_true_eq, not_or, Bool.not_eq_false]
    exact h
  rw [s.alike_iff] at ha
  have hsec : (s.tellMembers 4).sec = s.sec := (congrArg State.sec (s.seamsOnly_tellMembers 4) :)
  rw [exec_activationCheck]
  refine (if_neg hc).trans ?_
  dsimp only
  rw [if_pos ha, if_pos ha, State.tellMembers_eq, hsec]

theorem exec_activationCheck_unlike {s : State} {others : List UploadView} (h : s.isMaster = true ∧ s.rd K.cascState ≠ 0)
    (ha : ¬s.Alike others) : exec (.activationCheck others) s =
      .next (if s.rd K.fwState = 4 then (s.tellMembers 5).fwCancelled 7 else s.tellMembers 5) := by
  have hc : ¬((!s.isMaster || decide (s.rd K.cascState = 0)) = true) := by
    simp only [Bool.or_eq_true, Bool.not_eq_true', decide_eq_true_eq, not_or, Bool.not_eq_false]
    exact h
  rw [s.alike_iff] at ha
  rw [exec_activationCheck]
  refine (if_neg hc).trans ?_
  dsimp only
  rw [if_neg ha, if_neg ha, State.tellMembers_eq, (s.seamsOnly_tellMembers 5).rd]

end Sys2Proof.Machine
end

section
/-! The management core's restart into a new image, the key store, test enable and recovery (R465-R509): O58. -/

namespace Sys2Proof.Machine

/-! ## The restart (R465-R467) -/

theorem State.modelsGone_adoptInst (s : State) {i : Nat} (hi : i < 12) : s.ModelsGone (s.adoptInst i) := by
  have hspares : ∀ u : State, u.ModelGone (u.modInst i fun x => { x with sparesReady := false }) i :=
    fun u => State.modelGone_modInst u i rfl
  have hcut : ∀ u : State, u.ModelGone (u.loadCut i) i := fun u => State.modelGone_wr _ (u.modelKey_loadStatus i)
  refine State.ModelGone.models ?_ hi
  unfold State.adoptInst
  dsimp only
  split_ifs
  · exact (s.modelGone_loadFail i _ _).trans (hspares _)
  · exact ((s.modelGone_unloaded i).trans (hcut _)).trans (hspares _)
  · exact hspares s

theorem State.modelsGone_adopt (s : State) : s.ModelsGone (s.each (List.range 12) State.adoptInst) :=
  State.each_rel_mem (R := State.ModelsGone) .refl .trans s _ s (.refl s)
    fun u _ hi _ => u.modelsGone_adoptInst (List.mem_range.1 hi)

/-- What a restart keeps, with the instances' panels in the grid. -/
theorem State.mgRestart_spec {s : State} (h : s.InGrid) : s.mgRestart.sec = s.sec ∧
    s.mgRestart.rd K.mgResets = (s.rd K.mgResets + 1) % 2 ^ 32 ∧
    ∀ k, OutsideModels k → k ≠ K.mgResets → s.mgRestart.rd k = s.rd k := by
  obtain ⟨u, hu⟩ : ∃ u, u = s.endSessions.bump K.mgResets 32 1 := ⟨_, rfl⟩
  have hgone := u.modelsGone_adopt
  have heq : s.mgRestart = (({ u.each (List.range 12) State.adoptInst with darnSet := none } : State).freeStep).logMg noInst
      0x2004 0 0 noSlot (({ u.each (List.range 12) State.adoptInst with darnSet := none } : State).rd K.lastReset)
      (({ u.each (List.range 12) State.adoptInst with darnSet := none } : State).free.toNat) := by rw [hu]; rfl
  rw [heq]
  have hgrid : u.InGrid := by rw [hu]; exact h
  have husec : u.sec = s.sec := by rw [hu]; rfl
  have hurd : u.rd K.mgResets = (s.rd K.mgResets + 1) % 2 ^ 32 := by rw [hu]; exact State.rd_wr ..
  have hurd' : ∀ k, k ≠ K.mgResets → u.rd k = s.rd k := fun k hk => by rw [hu]; exact State.rd_wr_ne _ _ _ _ hk
  generalize u.each (List.range 12) State.adoptInst = v at hgone
  refine ⟨?sec, ?resets, fun k hk hne => ?rest⟩
  case sec => exact (State.logMg_only ..).sec.trans ((congrArg State.sec hgone.frame :).trans husec)
  case resets =>
    exact (State.logMg_rd _ _ _ _ _ _ _ _ (by decide)).trans ((hgone.rd hgrid _ (by unfold OutsideModels; decide)).trans hurd)
  case rest => exact (State.logMg_rd _ _ _ _ _ _ _ _ hk.2).trans ((hgone.rd hgrid k hk).trans (hurd' k hne))

/-! ## Activation (R505) -/

/-- The new bank is active and its image's version is shown; the core has not restarted yet. -/
def State.newBank (s : State) : State :=
  (((s.markBank s.uploadBank).clearUpload.wr K.fwVersion (fwVer (s.bankNo s.uploadBank).header))).wr K.fwPending
    ((s.markBank s.uploadBank).clearUpload.rd K.fwPending |||
      pendingBits (s.bankNo s.uploadBank).header)

/-- The new image is held until its hold time has run. -/
def State.held (s : State) : State :=
  { s with sec := { s.sec with confirmed := false, holding := true, watchdogs := 0 } }

/-- The master holds the next tack as a barrier. -/
def State.raiseBarrier (s : State) : State :=
  if s.isMaster then { s with casc := { s.casc with barrier := true } } else s

theorem exec_fwActivate_not {s : State} (h : ¬(s.rd K.fwState = 4 ∧ (s.rd K.cascState = 0 ∨ s.sec.confirmed = true))) :
    exec .fwActivate s = .next s := by
  refine if_pos ?_
  by_contra hc
  rw [not_or, not_not, Bool.not_eq_true', not_and_or, not_not, Bool.not_eq_false] at hc
  exact h hc

theorem exec_fwActivate_due {s : State} (h : s.rd K.fwState = 4 ∧ (s.rd K.cascState = 0 ∨ s.sec.confirmed = true)) :
    exec .fwActivate s = .next (s.newBank.held.raiseBarrier.mgRestart.logMg noInst 0x4005 0 0 noSlot (s.rd K.fwVersion)
      (fwVer (s.bankNo s.uploadBank).header)) := by
  have hc : ¬(s.rd K.fwState ≠ 4 ∨ (s.rd K.cascState ≠ 0 ∧ (!s.sec.confirmed) = true)) := by
    rw [not_or, not_not, Bool.not_eq_true', not_and_or, not_not, Bool.not_eq_false]
    exact h
  rw [exec_fwActivate]
  exact if_neg hc

theorem State.newBank_spec (s : State) : s.newBank.rd K.fwActiveBank = s.uploadBank ∧ s.newBank.rd K.fwState = 0 ∧
    s.newBank.rd K.fwVersion = fwVer (s.bankNo s.uploadBank).header ∧
    s.newBank.rd K.fwPending = (s.rd K.fwPending ||| pendingBits (s.bankNo s.uploadBank).header) ∧
    s.newBank.rd K.mgResets = s.rd K.mgResets ∧ s.newBank.insts = s.insts := by
  obtain ⟨hstate, -, -, -, hrest⟩ := (s.markBank s.uploadBank).clearUpload_holds
  have hmark : ∀ k, k ≠ K.fwActiveBank → (s.markBank s.uploadBank).rd k = s.rd k := fun k hk => State.rd_wr_ne _ _ _ _ hk
  have hbank : (s.markBank s.uploadBank).rd K.fwActiveBank = s.uploadBank := State.rd_wr ..
  unfold State.newBank
  generalize s.bankNo s.uploadBank = b
  have hinsts : (s.markBank s.uploadBank).clearUpload.insts = s.insts := rfl
  generalize (s.markBank s.uploadBank).clearUpload = u at hstate hrest hinsts
  have hpending : u.rd K.fwPending = s.rd K.fwPending := (hrest _ (by decide)).trans (hmark _ (by decide))
  refine ⟨?bank, ?state, ?version, ?pending, ?resets, hinsts⟩
  case bank =>
    exact (State.rd_wr_ne _ _ _ _ (by decide)).trans ((State.rd_wr_ne _ _ _ _ (by decide)).trans
      ((hrest _ (by decide)).trans hbank))
  case state => exact (State.rd_wr_ne _ _ _ _ (by decide)).trans ((State.rd_wr_ne _ _ _ _ (by decide)).trans hstate)
  case version => exact (State.rd_wr_ne _ _ _ _ (by decide)).trans (State.rd_wr ..)
  case pending => rw [State.rd_wr, hpending]
  case resets =>
    exact (State.rd_wr_ne _ _ _ _ (by decide)).trans ((State.rd_wr_ne _ _ _ _ (by decide)).trans
      ((hrest _ (by decide)).trans (hmark _ (by decide))))

theorem State.raiseBarrier_eq (s : State) : s.raiseBarrier = { s with casc := s.raiseBarrier.casc } := by
  unfold State.raiseBarrier
  split <;> rfl

theorem State.held_spec (b : State) : (∀ k, b.held.raiseBarrier.rd k = b.rd k) ∧ b.held.raiseBarrier.insts = b.insts ∧
    b.held.raiseBarrier.sec = { b.sec with confirmed := false, holding := true, watchdogs := 0 } := by
  rw [b.held.raiseBarrier_eq]
  exact ⟨fun _ => rfl, rfl, rfl⟩

theorem activate_clause {s : State} (h : s.rd K.fwState = 4 ∧ (s.rd K.cascState = 0 ∨ s.sec.confirmed = true)) (hs : s.InGrid) :
    ∃ t, exec .fwActivate s = .next t ∧ t.rd K.fwActiveBank = s.uploadBank ∧ t.rd K.fwState = 0 ∧
      t.rd K.fwVersion = fwVer (s.bankNo s.uploadBank).header ∧
      t.rd K.fwPending = (s.rd K.fwPending ||| pendingBits (s.bankNo s.uploadBank).header) ∧
      t.sec.holding = true ∧ t.sec.watchdogs = 0 ∧
      t.rd K.mgResets = (s.rd K.mgResets + 1) % 2 ^ 32 ∧ t.Logged 0x4005 0 := by
  obtain ⟨hbank, hstate, hversion, hpending, hresets, hinsts⟩ := s.newBank_spec
  obtain ⟨u, hu⟩ : ∃ u, u = s.newBank.held.raiseBarrier := ⟨_, rfl⟩
  obtain ⟨hrd, hui, hsec⟩ := s.newBank.held_spec
  rw [← hu] at hrd hui hsec
  have hgrid : u.InGrid := hs.of_panels fun j => congrArg (fun l => (mapGet (fun _ => ({} : Inst)) l j).panels) (hui.trans hinsts)
  obtain ⟨hrsec, hrresets, hrest⟩ := State.mgRestart_spec hgrid
  have hkept : ∀ k, OutsideModels k → k ≠ K.mgResets → ∀ a b, (u.mgRestart.logMg noInst 0x4005 0 0 noSlot a b).rd k =
      s.newBank.rd k := fun k hk hne a b => (State.logMg_rd _ _ _ _ _ _ _ _ hk.2).trans ((hrest k hk hne).trans (hrd k))
  have heq := exec_fwActivate_due h
  rw [← hu] at heq
  refine ⟨_, heq, ?bank, ?state, ?version, ?pending, ?holding, ?watchdogs, ?resets,
    State.logged_logMg _ _ _ _ _ _ _ _ rfl⟩
  case bank => exact (hkept _ (by unfold OutsideModels; decide) (by decide) _ _).trans hbank
  case state => exact (hkept _ (by unfold OutsideModels; decide) (by decide) _ _).trans hstate
  case version => exact (hkept _ (by unfold OutsideModels; decide) (by decide) _ _).trans hversion
  case pending => exact (hkept _ (by unfold OutsideModels; decide) (by decide) _ _).trans hpending
  case holding => rw [(State.logMg_only ..).sec, hrsec, hsec]
  case watchdogs => rw [(State.logMg_only ..).sec, hrsec, hsec]
  case resets => rw [State.logMg_rd _ _ _ _ _ _ _ _ (by decide), hrresets, hrd, hresets]

/-! ## The hold and the keys (R498, R506) -/

theorem svn_clause {s : State} (hh : s.sec.holding = true)
    (hlt : s.rd K.svnCounter < fwSvn (s.bankNo (s.rd K.fwActiveBank)).header) : ∃ t, exec .svnHoldExpiry s = .next t ∧
      t.rd K.svnCounter = fwSvn (s.bankNo (s.rd K.fwActiveBank)).header % 256 ∧ t.Logged 0x4007 0 ∧
      (∀ k, k ∉ K.svnCounter :: logKeys → t.rd k = s.rd k) ∧
      t.sec = { s.sec with holding := false, watchdogs := 0 } := by
  obtain ⟨u, hu⟩ : ∃ u : State, u = { s with sec := { s.sec with holding := false, watchdogs := 0 } } := ⟨_, rfl⟩
  obtain ⟨v, hv⟩ : ∃ v, v = u.wr K.svnCounter (fwSvn (s.bankNo (s.rd K.fwActiveBank)).header % 256) := ⟨_, rfl⟩
  refine ⟨v.logMg noInst 0x4007 0 0 noSlot (s.rd K.svnCounter) (fwSvn (s.bankNo (s.rd K.fwActiveBank)).header), ?exec, ?svn,
    State.logged_logMg _ _ _ _ _ _ _ _ rfl, fun k hk => ?rest, ?sec⟩
  case exec =>
    rw [hv, hu]
    have hc : ¬((!s.sec.holding) = true) := by rw [hh]; exact Bool.false_ne_true
    exact (if_neg hc).trans (congrArg Host.Outcome.next (if_pos hlt))
  case svn =>
    rw [State.logMg_rd _ _ _ _ _ _ _ _ (by decide), hv, State.rd_wr]
  case rest =>
    rw [List.mem_cons, not_or] at hk
    rw [State.logMg_rd _ _ _ _ _ _ _ _ hk.2, hv, State.rd_wr_ne _ _ _ _ hk.1, hu]
    rfl
  case sec => rw [(State.logMg_only ..).sec, hv, hu]; rfl

theorem svn_kept {s : State} (hh : s.sec.holding = true)
    (hle : fwSvn (s.bankNo (s.rd K.fwActiveBank)).header ≤ s.rd K.svnCounter) : exec .svnHoldExpiry s =
      .next { s with sec := { s.sec with holding := false, watchdogs := 0 } } := by
  have hc : ¬((!s.sec.holding) = true) := by rw [hh]; exact Bool.false_ne_true
  exact (if_neg hc).trans (congrArg Host.Outcome.next (if_neg (Nat.not_lt.2 hle)))

/-- The slot that a key package fills. -/
def Sec.withKeys (x : Sec) (toB : Prop) [Decidable toB] (full : List Byte) : Sec :=
  if toB then { x with slotB := full } else { x with slotA := full }

theorem leAt_slice_zero (l : List Byte) {n m : Nat} (h : m ≤ n) : leAt (slice l 0 n) 0 m = leAt l 0 m := by
  unfold leAt slice
  refine congrArg leNat ?_
  simp only [List.drop_zero, List.take_append, List.take_take, Nat.min_eq_left h, List.length_take, List.take_replicate,
    List.append_assoc, List.length_append, List.length_replicate, List.replicate_append_replicate]
  exact congrArg (fun j => List.take m l ++ List.replicate j 0) (by omega)

theorem key_good {s : State} (h06 : s.rd K.fwState = 0 ∨ s.rd K.fwState = 6) (hok : s.pkgOk s.sec.pkg = true) :
    ∃ t, exec .keyCmd s = .next t ∧ t.rd K.keySlot = (if s.rd K.keySlot = 0 then 1 else 0) ∧
      t.rd K.keySeq = leAt s.sec.pkg 0 4 ∧ t.rd K.keyResult = 1 ∧
      t.keyInForce = slice s.sec.pkg 0 2304 ++ commitRecord (slice s.sec.pkg 0 2304) ∧ t.Logged 0x4008 0 ∧
      ∀ k, k ∉ K.keySlot :: K.keySeq :: K.keyResult :: logKeys → t.rd k = s.rd k := by
  obtain ⟨full, hfull⟩ : ∃ full, full = slice s.sec.pkg 0 2304 ++ commitRecord (slice s.sec.pkg 0 2304) := ⟨_, rfl⟩
  obtain ⟨u, hu⟩ : ∃ u : State, u = { s with sec := s.sec.withKeys (s.rd K.keySlot = 0) full } := ⟨_, rfl⟩
  obtain ⟨v, hv⟩ : ∃ v, v = ((u.wr K.keySlot (if s.rd K.keySlot = 0 then 1 else 0)).wr K.keySeq
    (leAt (slice s.sec.pkg 0 2304) 0 4)).wr K.keyResult 1 := ⟨_, rfl⟩
  have heq : exec .keyCmd s = .next (v.logMg noInst 0x4008 0 0 noSlot (v.rd K.keySeq) (v.rd K.keySlot)) := by
    rw [hv, hu, hfull]
    have hpkg : ¬((!s.pkgOk s.sec.pkg) = true) := by rw [hok]; exact Bool.false_ne_true
    exact congrArg Host.Outcome.next (congrArg Prod.fst ((if_neg (by omega)).trans (if_neg hpkg)))
  have hslot : v.rd K.keySlot = if s.rd K.keySlot = 0 then 1 else 0 := by
    rw [hv, State.rd_wr_ne _ _ _ _ (by decide), State.rd_wr_ne _ _ _ _ (by decide), State.rd_wr]
  refine ⟨_, heq, ?slot, ?seq, ?result, ?force, State.logged_logMg _ _ _ _ _ _ _ _ rfl, fun k hk => ?rest⟩
  case slot => exact (State.logMg_rd _ _ _ _ _ _ _ _ (by decide)).trans hslot
  case seq =>
    rw [State.logMg_rd _ _ _ _ _ _ _ _ (by decide), hv, State.rd_wr_ne _ _ _ _ (by decide), State.rd_wr,
      leAt_slice_zero _ (by decide)]
  case result => rw [State.logMg_rd _ _ _ _ _ _ _ _ (by decide), hv, State.rd_wr]
  case force =>
    rw [← hfull]
    unfold State.keyInForce
    rw [State.logMg_rd _ _ _ _ _ _ _ _ (by decide), hslot, (State.logMg_only ..).sec, hv]
    change (if (if s.rd K.keySlot = 0 then 1 else 0) = 0 then u.sec.slotA else u.sec.slotB) = full
    rw [hu]
    unfold Sec.withKeys
    by_cases h0 : s.rd K.keySlot = 0
    · rw [if_pos h0, if_neg (by decide), if_pos h0]
    · rw [if_neg h0, if_pos rfl, if_neg h0]
  case rest =>
    simp only [List.mem_cons, not_or] at hk
    obtain ⟨hks, hkq, hkr, hlog⟩ := hk
    rw [State.logMg_rd _ _ _ _ _ _ _ _ hlog, hv, State.rd_wr_ne _ _ _ _ hkr, State.rd_wr_ne _ _ _ _ hkq,
      State.rd_wr_ne _ _ _ _ hks, hu]
    rfl

theorem key_bad {s : State} (h06 : s.rd K.fwState = 0 ∨ s.rd K.fwState = 6) (hok : s.pkgOk s.sec.pkg = false) :
    ∃ t, exec .keyCmd s = .next t ∧ s.OnlyEntriesAndLog t [K.keyResult] ∧ t.rd K.keyResult = 2 ∧ t.Logged 0x4009 1 := by
  have hpkg : (!s.pkgOk s.sec.pkg) = true := by rw [hok]; rfl
  exact ⟨_, congrArg Host.Outcome.next (congrArg Prod.fst ((if_neg (by omega)).trans (if_pos hpkg))),
    (s.onlyEntries_wr _ _).logMg .., (State.logMg_rd _ _ _ _ _ _ _ _ (by decide)).trans (State.rd_wr ..),
    State.logged_logMg _ _ _ _ _ _ _ _ rfl⟩

/-! ## Test enable (R509) -/

theorem challenge_clause (s : State) : ∃ t n, exec .dbgChallenge s = .next t ∧
    t = { s with freeNext := s.freeNext + 4, sec := { s.sec with nonce := some n } } ∧ n.length = 32 := by
  have hlen : ∀ a b c d : BitVec 64, (leBytes 8 a.toNat ++ leBytes 8 b.toNat ++ leBytes 8 c.toNat ++ leBytes 8 d.toNat).length = 32 :=
    fun a b c d => by simp only [List.length_append, length_leBytes]
  rw [exec_dbgChallenge]
  unfold execDbgChallenge State.newNonce
  dsimp only
  have hn := hlen s.free s.freeStep.free s.freeStep.freeStep.free s.freeStep.freeStep.freeStep.free
  generalize leBytes 8 s.free.toNat ++ leBytes 8 s.freeStep.free.toNat ++ leBytes 8 s.freeStep.freeStep.free.toNat ++
    leBytes 8 s.freeStep.freeStep.freeStep.free.toNat = n at hn ⊢
  refine ⟨_, n, rfl, ?_, hn⟩
  rfl

theorem response_none {s : State} {bs : List Byte} (h : s.sec.nonce = none) : exec (.dbgResponse bs) s = .next s := by
  rw [exec_dbgResponse]
  unfold execDbgResponse State.debugResponse
  rw [h]

/-- A good response on a quiet device. -/
def State.GoodResponse (s : State) (n bs : List Byte) : Prop :=
  s.allIn [0, 1] = true ∧ (∀ k, k < 512 → s.rd (K.slotState k) = 0) ∧
    Config.ecdsaOk (slice s.keyInForce 2053 97) (n ++ leBytes 8 (s.rd K.serial)) bs = true

theorem State.goodResponse_iff (s : State) (n bs : List Byte) : s.GoodResponse n bs ↔
    ((s.allIn [0, 1] && (List.range 512).all fun k => s.rd (K.slotState k) == 0) &&
      Config.ecdsaOk (slice s.keyInForce 2053 97) (n ++ leBytes 8 (s.rd K.serial)) bs) = true := by
  unfold State.GoodResponse
  simp only [Bool.and_eq_true, List.all_eq_true, List.mem_range, beq_iff_eq, and_assoc]

theorem exec_dbgResponse_used {s : State} {n bs : List Byte} (h : s.sec.nonce = some n) :
    exec (.dbgResponse bs) s = .next (if ((s.allIn [0, 1] && (List.range 512).all fun k => s.rd (K.slotState k) == 0) &&
        Config.ecdsaOk (slice s.keyInForce 2053 97) (n ++ leBytes 8 (s.rd K.serial)) bs) = true then
      (({ s with sec := { s.sec with nonce := none } } : State).wr K.testEnable 1).logMg noInst 0x400A 2 6 noSlot 0 0
      else { s with sec := { s.sec with nonce := none } }) := by
  rw [exec_dbgResponse]
  unfold execDbgResponse State.debugResponse
  rw [h]
  refine congrArg Host.Outcome.next ?_
  exact apply_ite Prod.fst _ _ _

/-! ## Recovery (R501) -/

theorem exec_recovery {s : State} {o : Nat} {bs : List Byte} (h : s.sec.recovery = true) :
    exec (.recoveryImageBlock o bs) s =
      if 2 ≤ (s.fwBlock o bs).1.rd K.fwState ∧ (s.fwBlock o bs).1.rd K.fwState ≤ 3 ∧ (s.fwBlock o bs).1.sec.bank0.bootable = true then
        .next ((({ (if (((s.fwBlock o bs).1.markBank 0).wr K.fwVersion (fwVer (s.fwBlock o bs).1.sec.bank0.header)).rd K.fwState = 3
            then (((s.fwBlock o bs).1.markBank 0).wr K.fwVersion (fwVer (s.fwBlock o bs).1.sec.bank0.header)).clearUpload
            else (((s.fwBlock o bs).1.markBank 0).wr K.fwVersion (fwVer (s.fwBlock o bs).1.sec.bank0.header))) with
          sec := { (if (((s.fwBlock o bs).1.markBank 0).wr K.fwVersion (fwVer (s.fwBlock o bs).1.sec.bank0.header)).rd K.fwState = 3
            then (((s.fwBlock o bs).1.markBank 0).wr K.fwVersion (fwVer (s.fwBlock o bs).1.sec.bank0.header)).clearUpload
            else (((s.fwBlock o bs).1.markBank 0).wr K.fwVersion (fwVer (s.fwBlock o bs).1.sec.bank0.header))).sec with
              recovery := false } } : State).wr K.devState 1).wr K.bootStage 1)
      else .next (s.fwBlock o bs).1 := by
  have hc : ¬((!s.sec.recovery) = true) := by rw [h]; exact Bool.false_ne_true
  exact if_neg hc

/-- The device restarts from bank 0. -/
def State.booted (u : State) : State :=
  ((({ u with sec := { u.sec with recovery := false } } : State).wr K.devState 1).wr K.bootStage 1)

theorem State.booted_spec (u : State) : u.booted.sec.recovery = false ∧ u.booted.rd K.devState = 1 ∧
    u.booted.rd K.bootStage = 1 ∧ ∀ k, k ≠ K.devState → k ≠ K.bootStage → u.booted.rd k = u.rd k :=
  ⟨rfl, (State.rd_wr_ne _ _ _ _ (by decide)).trans (State.rd_wr ..), State.rd_wr .., fun _ hd hb =>
    (State.rd_wr_ne _ _ _ _ hb).trans (State.rd_wr_ne _ _ _ _ hd)⟩

theorem recovery_boots {s : State} {o : Nat} {bs : List Byte} (h : s.sec.recovery = true)
    (hb : ((s.fwBlock o bs).1.rd K.fwState = 2 ∨ (s.fwBlock o bs).1.rd K.fwState = 3) ∧ (s.fwBlock o bs).1.sec.bank0.bootable = true) :
    ∃ t, exec (.recoveryImageBlock o bs) s = .next t ∧ t.sec.recovery = false ∧ t.rd K.devState = 1 ∧
      t.rd K.bootStage = 1 ∧ t.rd K.fwActiveBank = 0 ∧ t.rd K.fwVersion = fwVer (s.fwBlock o bs).1.sec.bank0.header := by
  have heq := exec_recovery (o := o) (bs := bs) h
  generalize (s.fwBlock o bs).1 = u at heq hb ⊢
  obtain ⟨v, hv⟩ : ∃ v, v = (u.markBank 0).wr K.fwVersion (fwVer u.sec.bank0.header) := ⟨_, rfl⟩
  have hbank : v.rd K.fwActiveBank = 0 := by rw [hv, State.rd_wr_ne _ _ _ _ (by decide)]; exact State.rd_wr ..
  have hversion : v.rd K.fwVersion = fwVer u.sec.bank0.header := by rw [hv, State.rd_wr]
  rw [← hv] at heq
  have hrest : ∀ k, k ∉ uploadKeys → (if v.rd K.fwState = 3 then v.clearUpload else v).rd k = v.rd k := fun k hk => by
    split_ifs
    · exact v.clearUpload_holds.2.2.2.2 k hk
    · rfl
  generalize (if v.rd K.fwState = 3 then v.clearUpload else v) = w at heq hrest
  obtain ⟨hrec, hdev, hboot, hkept⟩ := w.booted_spec
  exact ⟨w.booted, heq.trans (if_pos ⟨by omega, by omega, hb.2⟩), hrec, hdev, hboot,
    (hkept _ (by decide) (by decide)).trans ((hrest _ (by decide)).trans hbank),
    (hkept _ (by decide) (by decide)).trans ((hrest _ (by decide)).trans hversion)⟩

theorem recovery_waits {s : State} {o : Nat} {bs : List Byte} (h : s.sec.recovery = true)
    (hb : ¬(((s.fwBlock o bs).1.rd K.fwState = 2 ∨ (s.fwBlock o bs).1.rd K.fwState = 3) ∧
      (s.fwBlock o bs).1.sec.bank0.bootable = true)) : exec (.recoveryImageBlock o bs) s = .next (s.fwBlock o bs).1 :=
  (exec_recovery h).trans (if_neg fun ⟨h2, h3, hboot⟩ => hb ⟨by omega, hboot⟩)

end Sys2Proof.Machine
end

section
/-! Firmware, keys, test enable: O58. -/

namespace Sys2Proof.Machine

/-- A block of a good form, in each state of the upload. -/
theorem block_clause {s : State} {o : Nat} {bs : List Byte} (hf : FwFormed o bs) :
    ((s.rd K.fwState = 3 ∨ s.rd K.fwState = 4 ∨ s.rd K.fwState = 5 ∨ (s.rd K.fwState ≠ 2 ∧ headerBytes ≤ o)) →
      (s.fwBlock o bs).1 = s.wr K.fwResult 5) ∧
    (s.rd K.fwState = 0 ∨ s.rd K.fwState = 1 ∨ s.rd K.fwState = 6 → o < headerBytes →
      (s.fwBlock o bs).1 = (s.headerBlock o bs).1) ∧
    (s.rd K.fwState = 2 → (s.fwBlock o bs).1 = (s.chunkBlock o bs).1) :=
  ⟨fun h => State.fwBlock_refused hf (by omega) (by omega), State.fwBlock_header hf, State.fwBlock_chunk hf⟩

theorem exec_fwDataBlock_of {s t : State} {o : Nat} {bs : List Byte} (h : (s.fwBlock o bs).1 = t) :
    exec (.fwDataBlock o bs) s = .next t := congrArg Host.Outcome.next h

theorem result_five (s : State) : s.OnlyEntries (s.wr K.fwResult 5) [K.fwResult] ∧ (s.wr K.fwResult 5).rd K.fwResult = 5 :=
  ⟨s.onlyEntries_wr .., State.rd_wr ..⟩

/-- Settles O58: the image's blocks by the state of the upload, the restart by what an instance that loses its model
leaves alone, the rest command by command. -/
theorem firmwareKeysAndTestEnable : Obligations.FirmwareKeysAndTestEnable := by
  unfold Obligations.FirmwareKeysAndTestEnable
  intro s o bs others
  refine ⟨fun h => exec_fwDataBlock_of (State.fwBlock_unformed h), fun hf => ⟨fun hst => ?refused, fun hst ho => ?header,
    fun h2 ho => ?again, fun h2 ho => ?chunk⟩, fun h => ?noRecovery, fun h => ⟨fun hb => ?waits, fun hb => ?boots⟩,
    ⟨arm_clause, fun h => ?armNot⟩, fun h => ?disarm, fun h => ?disarmNot, abort_clause, abort_not, fun _ => cancel_not,
    fun h => ⟨(cancel_clause h).1, ?cancel⟩, ⟨fun h => ?late, fun h => ?lateNot⟩,
    ⟨exec_activationCheck_not, exec_activationCheck_alike, fun h ha h4 => ?unlike, fun h ha h4 => ?cancels⟩,
    ⟨exec_fwActivate_not, activate_clause⟩, fun h => ?noHold, fun h => ⟨svn_clause h, svn_kept h⟩,
    fun h => ⟨key_good h, key_bad h⟩, fun h0 h6 => ?keyNot, challenge_clause s, response_none,
    fun n hn => ⟨fun hg => ?right, fun hg => ?wrong⟩⟩
  case refused => exact ⟨_, exec_fwDataBlock_of ((block_clause hf).1 hst), result_five s⟩
  case header =>
    have heq := (block_clause (s := s) hf).2.1 hst ho
    refine ⟨fun h => ?hpart, fun h hc => ?hrefused, fun h hc => ?haccepted⟩
    case hpart =>
      obtain ⟨t, ht, hrest⟩ := header_part (s := s) (o := o) (bs := bs) h
      exact ⟨t, exec_fwDataBlock_of (heq.trans ht), hrest⟩
    case hrefused =>
      obtain ⟨t, ht, hrest⟩ := header_refused (s := s) (o := o) (bs := bs) h hc
      exact ⟨t, exec_fwDataBlock_of (heq.trans ht), hrest⟩
    case haccepted =>
      obtain ⟨t, ht, hrest⟩ := header_accepted (s := s) (o := o) (bs := bs) h hc
      exact ⟨t, exec_fwDataBlock_of (heq.trans ht), hrest⟩
  case again =>
    have heq := (block_clause (s := s) hf).2.2 h2
    exact ⟨fun h => exec_fwDataBlock_of (heq.trans ((State.chunkBlock_header ho).1 h)),
      fun h => ⟨_, exec_fwDataBlock_of (heq.trans ((State.chunkBlock_header ho).2 h)), result_five s⟩⟩
  case chunk =>
    have heq := (block_clause (s := s) hf).2.2 h2
    refine ⟨fun h => exec_fwDataBlock_of (heq.trans (State.chunkBlock_known ho h)), fun hk hhas => ?_⟩
    have hnew := congrArg Prod.fst (State.chunkBlock_new (bs := bs) ho hk hhas)
    refine ⟨fun h => ?part, fun h hd => ?bad, fun h hd => ?good⟩
    case part => exact exec_fwDataBlock_of (heq.trans (hnew.trans (congrArg Prod.fst (if_neg h))))
    case bad =>
      obtain ⟨t, ht, hrest⟩ := chunk_bad (s := s) (n := s.uploadBank) hd
      exact ⟨t, exec_fwDataBlock_of (heq.trans (hnew.trans ((congrArg Prod.fst (if_pos h)).trans ht))), hrest⟩
    case good =>
      obtain ⟨t, ht, hrest⟩ := chunk_good (s := s) (n := s.uploadBank) hd
      exact ⟨t, exec_fwDataBlock_of (heq.trans (hnew.trans ((congrArg Prod.fst (if_pos h)).trans ht))), hrest⟩
  case noRecovery => exact if_pos (by rw [h]; rfl)
  case waits => exact recovery_waits h hb
  case boots => exact recovery_boots h hb
  case armNot => exact congrArg Host.Outcome.next (State.fwArm_spec.2 h)
  case disarm =>
    exact ⟨_, congrArg Host.Outcome.next (congrArg Prod.fst (if_pos h)), s.onlyEntries_wr .., State.rd_wr ..⟩
  case disarmNot => exact congrArg Host.Outcome.next (congrArg Prod.fst (if_neg h))
  case cancel => exact ⟨_, (cancel_clause h).2, s.fwCancelled_spec 7⟩
  case late => exact ⟨_, (exec_selfCancel_eq s).trans (congrArg Host.Outcome.next (if_pos h)), s.fwCancelled_spec 6⟩
  case lateNot => exact (exec_selfCancel_eq s).trans (congrArg Host.Outcome.next (if_neg h))
  case unlike => exact (exec_activationCheck_unlike h ha).trans (congrArg Host.Outcome.next (if_neg h4))
  case cancels =>
    exact ⟨_, (exec_activationCheck_unlike h ha).trans (congrArg Host.Outcome.next (if_pos h4)),
      (s.tellMembers 5).fwCancelled_spec 7⟩
  case noHold => exact if_pos (by rw [h]; rfl)
  case keyNot => exact congrArg Host.Outcome.next (congrArg Prod.fst (if_pos ⟨h0, h6⟩))
  case right =>
    exact ⟨_, (exec_dbgResponse_used hn).trans (congrArg Host.Outcome.next (if_pos ((s.goodResponse_iff n bs).1 hg))),
      (State.onlyEntries_wr ..).logMg .., (State.logMg_rd _ _ _ _ _ _ _ _ (by decide)).trans (State.rd_wr ..),
      State.logged_logMg _ _ _ _ _ _ _ _ rfl⟩
  case wrong => exact (exec_dbgResponse_used hn).trans (congrArg Host.Outcome.next (if_neg (mt (s.goodResponse_iff n bs).2 hg)))

end Sys2Proof.Machine
end

section
/-! What transfers and the ends of loads leave alone when a port goes down (R373, R386): O46. -/

namespace Sys2Proof.Machine

/-- Transfers that are cut and loads that end leave alone: the port, window, function, slot, sequence and request tables, the
sessions, the instances' panels, and, with the panels in the grid, the entries below index 0xA000 that no model and no log
entry has. -/
structure State.Carried (s t : State) : Prop where
  frame : t = { s with
    cores := t.cores, routers := t.routers, hbm := t.hbm, hbmPoison := t.hbmPoison, hbmErr := t.hbmErr, blobs := t.blobs
    dict := t.dict, journalOld := t.journalOld, insts := t.insts, log := t.log, fns := t.fns, sent := t.sent
    logMsgAt := t.logMsgAt, logMsgHeld := t.logMsgHeld, hostMem := t.hostMem, seams := t.seams, freeNext := t.freeNext }
  panels : ∀ j, (t.inst j).panels = (s.inst j).panels
  rd : s.InGrid → ∀ key, OutsideModels key → key / 256 < 0xA000 → t.rd key = s.rd key

theorem State.Carried.refl (s : State) : s.Carried s := ⟨rfl, fun _ => rfl, fun _ _ _ _ => rfl⟩

theorem State.Carried.trans {a b c : State} (h : a.Carried b) (h' : b.Carried c) : a.Carried c where
  frame := by rw [h'.frame, h.frame]
  panels j := (h'.panels j).trans (h.panels j)
  rd ha key hk hlow := (h'.rd (ha.of_panels h.panels) key hk hlow).trans (h.rd ha key hk hlow)

theorem State.Carried.ite {s a b : State} {p : Prop} [Decidable p] (ha : s.Carried a) (hb : s.Carried b) :
    s.Carried (if p then a else b) := by
  split
  · exact ha
  · exact hb

theorem State.Carried.each {α : Type} {s : State} (l : List α) {f : State → α → State} (h : ∀ s x, State.Carried s (f s x)) :
    s.Carried (s.each l f) := State.each_rel (R := State.Carried) .refl .trans h l s

theorem State.ModelsGone.carried {s t : State} (h : s.ModelsGone t) : s.Carried t :=
  ⟨by rw [h.frame], h.panels, fun hs key hk _ => h.rd hs key hk⟩

/-! ## The state's operations -/

/-- A change that leaves the entries and the instances alone. -/
theorem State.carried_of_eq {s t : State} (h : t = { s with
    cores := t.cores, routers := t.routers, hbm := t.hbm, hbmPoison := t.hbmPoison, hbmErr := t.hbmErr, hostMem := t.hostMem
    seams := t.seams, freeNext := t.freeNext }) : s.Carried t := by
  have hi : t.insts = s.insts := (congrArg State.insts h :)
  have hd : t.dict = s.dict := (congrArg State.dict h :)
  exact ⟨by rw [h], fun j => congrArg (fun l => (mapGet (fun _ => ({} : Inst)) l j).panels) hi,
    fun _ key _ _ => congrArg (fun l => mapGet dictDefault l key) hd⟩

theorem State.carried_setCore (s : State) (c : Nat) (k : Core) : s.Carried (s.setCore c k) := State.carried_of_eq rfl

theorem State.carried_wr (s : State) {key : Nat} (v : Nat) (h : 0xA000 ≤ key / 256) : s.Carried (s.wr key v) :=
  ⟨rfl, fun _ => rfl, fun _ _ _ hj => State.rd_wr_ne _ _ _ _ fun he => absurd h (Nat.not_le.2 (he ▸ hj))⟩

theorem State.carried_bump (s : State) {key : Nat} (w n : Nat) (h : 0xA000 ≤ key / 256) : s.Carried (s.bump key w n) :=
  s.carried_wr _ h

theorem State.carried_of_log {s t : State} (h : s.LogOnly t) (hrd : ∀ key, key ∉ logKeys → t.rd key = s.rd key) : s.Carried t :=
  ⟨by rw [h.eq], fun j => congrArg Inst.panels (h.inst j), fun _ key hk _ => hrd key hk.2⟩

theorem State.carried_logDev (s : State) (i r : Nat) : s.Carried (s.logDev i r) :=
  State.carried_of_log (s.logDev_only i r) fun _ hk => State.logDev_rd _ _ _ hk

theorem State.carried_setInst (s : State) (i : Nat) {x : Inst} (h : x.panels = (s.inst i).panels) : s.Carried (s.setInst i x) := by
  refine ⟨rfl, fun j => ?_, fun _ _ _ _ => rfl⟩
  rw [State.inst_setInst_if]
  split
  · next hj => rw [hj, h]
  · rfl

theorem State.carried_trap (s : State) (c : Nat) (t : TrapInfo) (pc op : Nat) : s.Carried (s.trap c t pc op) := by
  have hcount := (s.carried_setCore c { s.core c with run := .trapped, trapCode := t.code, trapStatus := t.status }).trans
    (State.carried_bump _ (key := K.traps) 64 1 (by decide))
  unfold State.trap
  dsimp only
  generalize State.bump _ K.traps 64 1 = u at hcount ⊢
  split
  · exact hcount.trans (State.carried_logDev ..)
  · exact (hcount.trans (u.carried_setInst _ (by rfl))).trans (State.carried_logDev ..)

/-! ## The hazard detector -/

theorem State.carried_recordHz (s : State) (c op pc : Nat) (t : TrapInfo) : s.Carried (s.recordHz c op pc t) := by
  have hcount : s.Carried (s.bump K.hzCount 64 1) := s.carried_bump _ _ (by decide)
  have hseen : s.Carried ((s.bump K.hzCount 64 1).freeStep.setCore c { s.core c with hzSeen := t.code :: (s.core c).hzSeen }) :=
    (hcount.trans (c := (s.bump K.hzCount 64 1).freeStep) (State.carried_of_eq rfl)).trans (State.carried_setCore ..)
  unfold State.recordHz
  refine State.Carried.ite hcount (State.Carried.ite (hseen.trans ?_) (hseen.trans (State.carried_logDev ..)))
  exact State.carried_bump _ _ _ (by decide)

theorem State.carried_hazards (s : State) (c op pc : Nat) (accs : List Access) (l : List TrapInfo) :
    s.Carried (s.hazards c op pc accs l) := by
  unfold State.hazards
  refine State.Carried.ite (.refl s) ?_
  have hfree : s.Carried { s with freeNext := s.freeNext + 2 * accs.length } := State.carried_of_eq rfl
  exact (hfree.trans (.each l fun s t => s.carried_recordHz c op pc t)).trans (State.carried_setCore ..)

theorem State.carried_portUse (s : State) (c : Nat) (own : Option (Nat × Nat)) (pc : Nat) (accs : List Access) :
    s.Carried (s.portUse c own pc accs) := by
  unfold State.portUse
  dsimp only
  split
  · exact State.Carried.ite ((State.carried_hazards ..).trans (State.carried_trap ..)) (State.carried_hazards ..)
  · exact State.carried_hazards ..

/-! ## The scratchpads -/

theorem State.carried_fixRead (s : State) (c a n : Nat) : s.Carried (s.fixRead c a n) := by
  unfold State.fixRead
  exact State.Carried.ite (.refl s) (s.carried_setCore c _)

theorem State.carried_noteUncorr (s : State) (c port : Nat) (ws : List Nat) : s.Carried (s.noteUncorr c port ws) :=
  .each ws fun s _ => (s.carried_setCore c _).trans (State.carried_logDev ..)

theorem State.carried_dmaStore (s : State) (c : Nat) (own : Option (Nat × Nat)) (l : List Nat) (bs : List Byte) (bad : List Nat) :
    s.Carried (s.dmaStore c own l bs bad) := (s.carried_setCore c _).trans (State.carried_portUse ..)

/-! ## The HBM stacks, host memory and the seams -/

theorem State.carried_hbmFound (s : State) (i a n : Nat) : s.Carried (s.hbmFound i a n) := by
  refine .each _ fun s w => State.Carried.ite (.refl s) ?_
  have herr : ∀ m, s.Carried { s with hbmErr := m } := fun m => State.carried_of_eq rfl
  refine (herr _).trans (State.carried_bump _ _ _ ?_)
  unfold K.eccCorrected K.eccUncorrectable
  split <;> omega

theorem State.carried_hostError (s : State) (port : Nat) : s.Carried (s.hostError port) :=
  s.carried_bump _ _ (by unfold K.hostErrors; omega)

theorem State.carried_hostWrite (s : State) (r : HostRef) (bs : List Byte) : s.Carried (s.hostWrite r bs).1 := by
  unfold State.hostWrite
  split
  · exact State.carried_of_eq rfl
  · exact s.carried_hostError _

theorem State.carried_apertureSend (s : State) (i a : Nat) (bs : List Byte) (taint : Bool) :
    s.Carried (s.apertureSend i a bs taint).1 := by
  unfold State.apertureSend
  split
  · exact .refl s
  · exact .each _ fun _ _ => State.carried_of_eq rfl

/-! ## Transfers -/

theorem State.carried_dmaWrite (s : State) (c : Nat) (d : DDesc) (bs : List Byte) (bad : List Nat) :
    s.Carried (s.dmaWrite c d bs bad).1 := by
  unfold State.dmaWrite
  dsimp only
  generalize (if bad.isEmpty = true then 0 else 8) = st
  split_ifs
  · split
    · exact s.carried_dmaStore ..
    · exact .refl s
  · exact s.carried_apertureSend ..
  · exact s.carried_apertureSend ..
  · exact State.carried_of_eq rfl
  · split
    · exact s.carried_hostWrite ..
    · exact .refl s
  · split
    · exact s.carried_dmaStore ..
    · exact .refl s

/-- A read of a scratchpad by the DMA engine, and what it may record. -/
theorem State.carried_localRead (s : State) (c a n port : Nat) (ws : List Nat) (d : Nat) (own : Option (Nat × Nat)) (pc : Nat)
    (accs : List Access) : s.Carried (((s.fixRead c a n).noteUncorr c port ws).portUse d own pc accs) :=
  ((s.carried_fixRead c a n).trans (State.carried_noteUncorr ..)).trans (State.carried_portUse ..)

theorem State.carried_dmaRead {s : State} {c : Nat} {d : DDesc} {n : Nat} {host : List Byte} {r : State × List Byte × List Nat}
    (h : s.dmaRead c d n host = .ok r) : s.Carried r.1 := by
  unfold State.dmaRead at h
  dsimp only at h
  split_ifs at h
  · cases h; exact .refl s
  · split at h
    · cases h; exact s.carried_localRead ..
    · cases h
  · cases h; exact s.carried_hbmFound ..
  · split at h
    · cases h; exact .refl s
    · cases h
  · split at h
    · cases h; exact s.carried_localRead ..
    · cases h
    · cases h

theorem State.carried_dmaMove (s : State) (c : Nat) (d : DDesc) (n : Nat) (host : List Byte) :
    s.Carried (s.dmaMove c d n host).1 := by
  unfold State.dmaMove
  split_ifs
  · exact .refl s
  · exact .refl s
  · exact s.carried_hostError _
  · split
    · exact .refl s
    · next h => exact (State.carried_dmaRead h).trans (State.carried_dmaWrite ..)

/-! ## A port that goes down -/

theorem State.carried_dmaEnd (s : State) (c ch : Nat) (d : DDesc) (status source bytes : Nat) :
    s.Carried (s.dmaEnd c ch d status source bytes) := s.carried_setCore c _

theorem State.carried_dmaCut (s : State) (c ch : Nat) (d : DDesc) (moved status : Nat) :
    s.Carried (s.dmaCut c ch d moved status) := by
  have hbytes : ∀ n, s.Carried (s.freeBytes n).1 := fun _ => State.carried_of_eq rfl
  unfold State.dmaCut
  dsimp only
  split_ifs
  · exact s.carried_dmaEnd ..
  · exact ((hbytes _).trans (State.carried_dmaMove ..)).trans (State.carried_dmaEnd ..)
  · exact (s.carried_dmaMove ..).trans (State.carried_dmaEnd ..)

theorem State.carried_cutPort (s : State) (n : Nat) : s.Carried (s.cutPort n) := by
  refine .each _ fun s c => .each _ fun s ch => ?_
  split
  · have hfree : s.Carried s.freeStep := State.carried_of_eq rfl
    exact State.Carried.ite (hfree.trans (State.carried_dmaCut ..)) (.refl s)
  · exact .refl s

theorem State.modelsGone_cutLoads (s : State) (n : Nat) : s.ModelsGone (s.cutLoads n) := by
  refine State.each_rel_mem (R := State.ModelsGone) .refl .trans s _ s (.refl s) fun u i hi _ => ?_
  dsimp only
  split_ifs
  · exact (u.modelGone_loadFail i _ _).models (List.mem_range.1 hi)
  · exact .refl u

theorem State.carried_portDown (s : State) (n : Nat) : s.Carried (s.portDown n) := by
  unfold State.portDown
  refine State.Carried.ite (.refl s) ?_
  exact (((s.carried_cutPort n).trans (State.modelsGone_cutLoads _ n).carried).trans
    (State.carried_wr _ _ (by unfold K.pcieRate; omega))).trans (State.carried_wr _ _ (by unfold K.pcieWidth; omega))

/-- The link of a port is down. -/
theorem State.portDown_rate (s : State) (n : Nat) : (s.portDown n).rd (K.pcieRate n) = 0 := by
  unfold State.portDown
  split_ifs with h
  · exact h
  · exact (State.rd_wr_ne _ _ _ _ (by unfold K.pcieRate K.pcieWidth; omega)).trans (State.rd_wr ..)

end Sys2Proof.Machine
end

section
/-! Resets of PCIe functions and the slots they serve (R351, R372-R374): O46. -/

namespace Sys2Proof.Machine

/-! ## The statement's words -/

/-- The PCIe side of slot m's virtual function holds its reset values. -/
def State.VfCleared (s t : State) (m : Nat) : Prop :=
  t.fn (vfOf m) = {} ∧ (∀ k z, k < 8 → t.swinReg m k z = 0) ∧
    t.ses (64 + m) = { s.ses (64 + m) with busy := false, ready := false, request := none, response := [] }

/-- Slot m without rings. -/
def State.bareSlot (s : State) (m : Nat) : Slot := { s.slot m with sq := {}, cq := {}, unannounced := 0 }

/-- Slot m before its reset: a teardown under way goes on without completions. -/
def State.keptSlot (s : State) (m : Nat) : Slot :=
  if (s.slot m).teardown ≠ 0 then { s.bareSlot m with flr := true, finals := [] } else s.bareSlot m

/-- Slot m has taken a function-level reset. -/
def State.SlotReset (s t : State) (m : Nat) : Prop :=
  (s.rd (K.slotState m) = 1 ∨ s.rd (K.slotState m) = 2 → t.slot m = { s.keptSlot m with teardown := 1, flr := true } ∧
    t.rd (K.slotState m) = (if s.rd (K.slotState m) = 1 then 3 else 4) ∧ t.rd (K.slotCmdResult m) = 0) ∧
  (s.rd (K.slotState m) ≠ 1 → s.rd (K.slotState m) ≠ 2 →
    t.slot m = s.keptSlot m ∧ t.rd (K.slotState m) = s.rd (K.slotState m) ∧ t.rd (K.slotCmdResult m) = 1)

/-! ## One function -/

theorem State.resetVf_frame (s : State) (n k : Nat) : s.resetVf n k =
    { s with fns := (s.resetVf n k).fns, swin := (s.resetVf n k).swin, slots := (s.resetVf n k).slots,
             sessions := (s.resetVf n k).sessions } := rfl

theorem State.resetVf_cleared (s : State) (n k : Nat) : s.VfCleared (s.resetVf n k) (slotOfVf n k) := by
  refine ⟨s.fn_setFn (vfOf (slotOfVf n k)) {}, fun j z hj => ?_, State.ses_setSes ..⟩
  refine (mapGet_filterKey (fun _ => 0) (fun a => a / 16 != slotOfVf n k) s.swin _).trans (if_neg ?_)
  rw [bne_iff_ne, not_not]
  cases z
  · show (16 * slotOfVf n k + 2 * j + 0) / 16 = _
    omega
  · show (16 * slotOfVf n k + 2 * j + 1) / 16 = _
    omega

theorem State.resetVf_slot (s : State) (n k : Nat) : (s.resetVf n k).slot (slotOfVf n k) = s.bareSlot (slotOfVf n k) :=
  State.slot_setSlot ..

theorem State.resetVf_slot_ne (s : State) (n k : Nat) {m : Nat} (h : m ≠ slotOfVf n k) : (s.resetVf n k).slot m = s.slot m :=
  State.slot_setSlot_ne _ _ _ _ h

theorem State.resetVf_fn_ne (s : State) (n k : Nat) {g : Nat} (h : g ≠ vfOf (slotOfVf n k)) : (s.resetVf n k).fn g = s.fn g :=
  s.fn_setFn_ne (vfOf (slotOfVf n k)) {} g h

theorem State.resetVf_ses_ne (s : State) (n k : Nat) {j : Nat} (h : j ≠ 64 + slotOfVf n k) : (s.resetVf n k).ses j = s.ses j :=
  State.ses_setSes_ne _ _ _ _ h

theorem State.resetVf_swin_ne (s : State) (n k : Nat) {m j : Nat} {z : Bool} (h : m ≠ slotOfVf n k) (hj : j < 8) :
    (s.resetVf n k).swinReg m j z = s.swinReg m j z := by
  refine (mapGet_filterKey (fun _ => 0) (fun a => a / 16 != slotOfVf n k) s.swin _).trans (if_pos ?_)
  rw [bne_iff_ne]
  cases z
  · show (16 * m + 2 * j + 0) / 16 ≠ _
    omega
  · show (16 * m + 2 * j + 1) / 16 ≠ _
    omega

/-! ## One slot -/

/-- A teardown under way goes on without completions. -/
def State.quietSlot (s : State) (m : Nat) : State :=
  if (s.slot m).teardown ≠ 0 then s.modSlot m fun x => { x with flr := true, finals := [] } else s

theorem State.flrSlot_eq (s : State) (m : Nat) : s.flrSlot m = (s.quietSlot m).resetSlot m true := by
  unfold State.flrSlot State.quietSlot
  split_ifs <;> rfl

theorem State.quietSlot_frame (s : State) (m : Nat) : s.quietSlot m = { s with slots := (s.quietSlot m).slots } := by
  unfold State.quietSlot
  split_ifs <;> rfl

theorem State.quietSlot_slot (s : State) (m : Nat) : (s.quietSlot m).slot m =
    if (s.slot m).teardown ≠ 0 then { s.slot m with flr := true, finals := [] } else s.slot m := by
  unfold State.quietSlot
  split_ifs
  · exact State.slot_setSlot ..
  · rfl

theorem State.quietSlot_slot_ne (s : State) {m j : Nat} (h : j ≠ m) : (s.quietSlot m).slot j = s.slot j := by
  unfold State.quietSlot
  split_ifs
  · exact State.slot_setSlot_ne _ _ _ _ h
  · rfl

theorem State.resetSlot_idle {s : State} {m : Nat} (h1 : s.rd (K.slotState m) ≠ 1) (h2 : s.rd (K.slotState m) ≠ 2) (flr : Bool) :
    s.resetSlot m flr = s.wr (K.slotCmdResult m) 1 := (if_neg h1).trans (if_neg h2)

theorem slotState_ne_result (m j : Nat) : K.slotState m ≠ K.slotCmdResult j := by unfold K.slotState K.slotCmdResult; omega

/-- What a slot's reset leaves, with the slot as it was. -/
theorem State.resetSlot_spec (s : State) (m : Nat) :
    (s.resetSlot m true = { s with slots := (s.resetSlot m true).slots, dict := (s.resetSlot m true).dict }) ∧
    (∀ j, j ≠ m → (s.resetSlot m true).slot j = s.slot j) ∧
    (∀ k, k ≠ K.slotState m → k ≠ K.slotCmdResult m → (s.resetSlot m true).rd k = s.rd k) ∧
    (s.rd (K.slotState m) = 1 ∨ s.rd (K.slotState m) = 2 →
      (s.resetSlot m true).slot m = { s.slot m with teardown := 1, flr := true } ∧
      (s.resetSlot m true).rd (K.slotState m) = (if s.rd (K.slotState m) = 1 then 3 else 4) ∧
      (s.resetSlot m true).rd (K.slotCmdResult m) = 0) ∧
    (s.rd (K.slotState m) ≠ 1 → s.rd (K.slotState m) ≠ 2 → (s.resetSlot m true).slot m = s.slot m ∧
      (s.resetSlot m true).rd (K.slotState m) = s.rd (K.slotState m) ∧ (s.resetSlot m true).rd (K.slotCmdResult m) = 1) := by
  by_cases h : s.rd (K.slotState m) = 1 ∨ s.rd (K.slotState m) = 2
  · rw [State.resetSlot_running s h]
    refine ⟨rfl, fun j hj => State.slot_setSlot_ne _ _ _ _ hj, fun k hs hr => ?_, fun _ => ⟨State.slot_setSlot .., ?_,
      State.rd_wr ..⟩, fun h1 h2 => absurd h (not_or_intro h1 h2)⟩
    · exact (State.rd_wr_ne _ _ _ _ hr).trans (State.rd_wr_ne _ _ _ _ hs)
    · exact (State.rd_wr_ne _ _ _ _ (slotState_ne_result m m)).trans (State.rd_wr ..)
  · obtain ⟨h1, h2⟩ := not_or.1 h
    rw [State.resetSlot_idle h1 h2]
    exact ⟨rfl, fun _ _ => rfl, fun k _ hr => State.rd_wr_ne _ _ _ _ hr, fun h' => absurd h' h,
      fun _ _ => ⟨rfl, State.rd_wr_ne _ _ _ _ (slotState_ne_result m m), State.rd_wr ..⟩⟩

/-- A function-level reset's effect on the slot. -/
theorem State.flrSlot_spec (s : State) (m : Nat) :
    (s.flrSlot m = { s with slots := (s.flrSlot m).slots, dict := (s.flrSlot m).dict }) ∧
    (∀ j, j ≠ m → (s.flrSlot m).slot j = s.slot j) ∧
    (∀ k, k ≠ K.slotState m → k ≠ K.slotCmdResult m → (s.flrSlot m).rd k = s.rd k) ∧
    (s.rd (K.slotState m) = 1 ∨ s.rd (K.slotState m) = 2 →
      (s.flrSlot m).slot m = { (s.quietSlot m).slot m with teardown := 1, flr := true } ∧
      (s.flrSlot m).rd (K.slotState m) = (if s.rd (K.slotState m) = 1 then 3 else 4) ∧
      (s.flrSlot m).rd (K.slotCmdResult m) = 0) ∧
    (s.rd (K.slotState m) ≠ 1 → s.rd (K.slotState m) ≠ 2 → (s.flrSlot m).slot m = (s.quietSlot m).slot m ∧
      (s.flrSlot m).rd (K.slotState m) = s.rd (K.slotState m) ∧ (s.flrSlot m).rd (K.slotCmdResult m) = 1) := by
  have hq := s.quietSlot_frame m
  have hrd : ∀ k, (s.quietSlot m).rd k = s.rd k := fun k => (congrArg (fun t : State => t.rd k) hq :)
  have hne : ∀ j, j ≠ m → (s.quietSlot m).slot j = s.slot j := fun j hj => s.quietSlot_slot_ne hj
  rw [State.flrSlot_eq]
  generalize s.quietSlot m = u at hq hrd hne ⊢
  obtain ⟨hf, hslots, hkeys, hrun, hidle⟩ := u.resetSlot_spec m
  rw [hrd] at hrun hidle
  refine ⟨?_, fun j hj => (hslots j hj).trans (hne j hj), fun k hs hr => (hkeys k hs hr).trans (hrd k), hrun, hidle⟩
  generalize u.resetSlot m true = t at hf ⊢
  rw [hf, hq]

/-! ## A function with its slot -/

/-- One virtual function of a port is reset, and its slot where the transport has the ring. -/
def State.vfReset (s : State) (n k : Nat) : State :=
  if bit ((s.resetVf n k).rd (K.transport (slotOfVf n k))) 0 then (s.resetVf n k).flrSlot (slotOfVf n k) else s.resetVf n k

/-- What the reset of slot m's function leaves, with the slot as it was. -/
def State.VfDone (s t : State) (m : Nat) : Prop :=
  s.VfCleared t m ∧ (bit (s.rd (K.transport m)) 0 = true → s.SlotReset t m) ∧
    (bit (s.rd (K.transport m)) 0 = false → t.slot m = s.bareSlot m ∧ t.rd (K.slotState m) = s.rd (K.slotState m))

/-- What slot m's function and the slot hold is as before. -/
structure State.SameVf (s t : State) (m : Nat) : Prop where
  fn : t.fn (vfOf m) = s.fn (vfOf m)
  swin : ∀ j z, j < 8 → t.swinReg m j z = s.swinReg m j z
  slot : t.slot m = s.slot m
  ses : t.ses (64 + m) = s.ses (64 + m)
  transport : t.rd (K.transport m) = s.rd (K.transport m)
  state : t.rd (K.slotState m) = s.rd (K.slotState m)
  result : t.rd (K.slotCmdResult m) = s.rd (K.slotCmdResult m)

theorem State.SameVf.refl (s : State) (m : Nat) : s.SameVf s m := ⟨rfl, fun _ _ _ => rfl, rfl, rfl, rfl, rfl, rfl⟩

theorem State.SameVf.trans {a b c : State} {m : Nat} (h : a.SameVf b m) (h' : b.SameVf c m) : a.SameVf c m :=
  ⟨h'.fn.trans h.fn, fun j z hj => (h'.swin j z hj).trans (h.swin j z hj), h'.slot.trans h.slot, h'.ses.trans h.ses,
    h'.transport.trans h.transport, h'.state.trans h.state, h'.result.trans h.result⟩

/-- The reset is told by what the slot held. -/
theorem State.VfDone.of_start {a b t : State} {m : Nat} (h : b.VfDone t m) (hslot : b.slot m = a.slot m)
    (hses : b.ses (64 + m) = a.ses (64 + m)) (htransport : b.rd (K.transport m) = a.rd (K.transport m))
    (hstate : b.rd (K.slotState m) = a.rd (K.slotState m)) : a.VfDone t m := by
  unfold State.VfDone State.VfCleared State.SlotReset State.keptSlot State.bareSlot at *
  rw [hslot, hses, htransport, hstate] at h
  exact h

theorem State.VfDone.then {a b c : State} {m : Nat} (h : a.VfDone b m) (h' : b.SameVf c m) : a.VfDone c m := by
  obtain ⟨⟨hfn, hswin, hses⟩, hring, hfrp⟩ := h
  refine ⟨⟨h'.fn.trans hfn, fun j z hj => (h'.swin j z hj).trans (hswin j z hj), h'.ses.trans hses⟩, fun ht => ?_, fun ht => ?_⟩
  · obtain ⟨hrun, hidle⟩ := hring ht
    unfold State.SlotReset
    rw [h'.slot, h'.state, h'.result]
    exact ⟨hrun, hidle⟩
  · rw [h'.slot, h'.state]
    exact hfrp ht

theorem vfOf_slot_inj {n k j : Nat} (hk : k < 64) (hj : j < 64) (h : vfOf (slotOfVf n j) = vfOf (slotOfVf n k)) : j = k := by
  unfold vfOf slotOfVf at h
  omega

theorem State.vfReset_frame (s : State) (n k : Nat) : s.vfReset n k =
    { s with fns := (s.vfReset n k).fns, swin := (s.vfReset n k).swin, slots := (s.vfReset n k).slots,
             sessions := (s.vfReset n k).sessions, dict := (s.vfReset n k).dict } := by
  unfold State.vfReset
  split_ifs
  · have hr := s.resetVf_frame n k
    generalize s.resetVf n k = u at hr ⊢
    have hf := (u.flrSlot_spec (slotOfVf n k)).1
    generalize u.flrSlot (slotOfVf n k) = t at hf ⊢
    rw [hf, hr]
  · rfl

theorem State.vfReset_other (s : State) {n k m : Nat} (hm : m ≠ slotOfVf n k) : (s.vfReset n k).slot m = s.slot m := by
  have hr := s.resetVf_slot_ne n k hm
  unfold State.vfReset
  split_ifs
  · exact (((s.resetVf n k).flrSlot_spec (slotOfVf n k)).2.1 m hm).trans hr
  · exact hr

/-- The reset of one function of a port leaves what the others hold. -/
theorem State.sameVf_vfReset (s : State) {n k j : Nat} (hk : k < 64) (hj : j < 64) (hne : j ≠ k) :
    s.SameVf (s.vfReset n k) (slotOfVf n j) := by
  have hm : slotOfVf n j ≠ slotOfVf n k := by unfold slotOfVf; omega
  have hreset : s.SameVf (s.resetVf n k) (slotOfVf n j) :=
    ⟨s.resetVf_fn_ne n k fun h => hne (vfOf_slot_inj hk hj h), fun i z hi => s.resetVf_swin_ne n k hm hi,
      s.resetVf_slot_ne n k hm, s.resetVf_ses_ne n k fun h => hm (by omega), rfl, rfl, rfl⟩
  unfold State.vfReset
  split_ifs
  · refine hreset.trans ?_
    generalize s.resetVf n k = u
    obtain ⟨hf, hslots, hkeys, -⟩ := u.flrSlot_spec (slotOfVf n k)
    have hfn : (u.flrSlot (slotOfVf n k)).fns = u.fns := (congrArg State.fns hf :)
    have hswin : (u.flrSlot (slotOfVf n k)).swin = u.swin := (congrArg State.swin hf :)
    have hses : (u.flrSlot (slotOfVf n k)).sessions = u.sessions := (congrArg State.sessions hf :)
    refine ⟨congrArg (fun l => mapGet (fun _ => ({} : Fn)) l _) hfn, fun i z _ => congrArg (fun l => mapGet (fun _ => 0) l _) hswin,
      hslots _ hm, congrArg (fun l => mapGet (fun _ => ({} : Ses)) l _) hses, hkeys _ ?_ ?_, hkeys _ ?_ ?_, hkeys _ ?_ ?_⟩
    · unfold K.transport K.slotState; omega
    · unfold K.transport K.slotCmdResult; omega
    · unfold K.slotState; omega
    · exact slotState_ne_result _ _
    · exact (slotState_ne_result _ _).symm
    · unfold K.slotCmdResult; omega
  · exact hreset

/-- The reset of one function. -/
theorem State.vfDone_vfReset (s : State) (n k : Nat) : s.VfDone (s.vfReset n k) (slotOfVf n k) := by
  have hslot := s.resetVf_slot n k
  obtain ⟨hfn, hswin, hses⟩ := s.resetVf_cleared n k
  have hrd : ∀ key, (s.resetVf n k).rd key = s.rd key := fun key => rfl
  unfold State.vfReset
  rw [hrd]
  by_cases ht : bit (s.rd (K.transport (slotOfVf n k))) 0 = true
  · rw [if_pos ht]
    generalize s.resetVf n k = u at hslot hfn hswin hses hrd ⊢
    obtain ⟨hf, -, -, hrun, hidle⟩ := u.flrSlot_spec (slotOfVf n k)
    rw [u.quietSlot_slot, hslot, hrd] at hrun hidle
    have hfns : (u.flrSlot (slotOfVf n k)).fns = u.fns := (congrArg State.fns hf :)
    have hswins : (u.flrSlot (slotOfVf n k)).swin = u.swin := (congrArg State.swin hf :)
    have hsess : (u.flrSlot (slotOfVf n k)).sessions = u.sessions := (congrArg State.sessions hf :)
    refine ⟨⟨?_, fun j z hj => ?_, ?_⟩, fun _ => ⟨hrun, hidle⟩, fun h => absurd ht (Bool.eq_false_iff.1 h)⟩
    · exact (congrArg (fun l => mapGet (fun _ => ({} : Fn)) l _) hfns).trans hfn
    · exact (congrArg (fun l => mapGet (fun _ => 0) l _) hswins).trans (hswin j z hj)
    · exact (congrArg (fun l => mapGet (fun _ => ({} : Ses)) l _) hsess).trans hses
  · rw [if_neg ht]
    exact ⟨⟨hfn, hswin, hses⟩, fun h => absurd h ht, fun _ => ⟨hslot, hrd _⟩⟩

/-! ## All functions of a port -/

theorem State.resetVfs_eq (s : State) (n : Nat) : s.resetVfs n = s.each (List.range 64) fun s k => s.vfReset n k := rfl

/-- Each listed function is reset, and every other one of the port is as before. -/
theorem State.vfs_done (n : Nat) : ∀ (l : List Nat), l.Nodup → (∀ k ∈ l, k < 64) → ∀ s : State,
    (∀ k ∈ l, s.VfDone (s.each l fun s k => s.vfReset n k) (slotOfVf n k)) ∧
    ∀ k, k < 64 → k ∉ l → s.SameVf (s.each l fun s k => s.vfReset n k) (slotOfVf n k)
  | [], _, _, s => ⟨fun _ h => absurd h List.not_mem_nil, fun _ _ _ => .refl s _⟩
  | x :: l, hnodup, hlt, s => by
    rw [List.nodup_cons] at hnodup
    have hx := hlt x List.mem_cons_self
    obtain ⟨hdone, hsame⟩ := State.vfs_done n l hnodup.2 (fun k hk => hlt k (List.mem_cons_of_mem _ hk)) (s.vfReset n x)
    refine ⟨fun k hk => ?_, fun k hk hne => ?_⟩
    · by_cases hkx : k = x
      · rw [hkx]
        exact (s.vfDone_vfReset n x).then (hsame x hx hnodup.1)
      · have hkl := (List.mem_cons.1 hk).resolve_left hkx
        have hother := s.sameVf_vfReset (n := n) hx (hlt k hk) hkx
        exact (hdone k hkl).of_start hother.slot hother.ses hother.transport hother.state
    · rw [List.mem_cons, not_or] at hne
      exact (s.sameVf_vfReset hx hk hne.1).trans (hsame k hk hne.2)

/-- A port's functions alone, with their slots, windows and mailboxes. -/
structure State.VfsOnly (s t : State) (n : Nat) : Prop where
  frame : t = { s with fns := t.fns, swin := t.swin, slots := t.slots, sessions := t.sessions, dict := t.dict }
  slot : ∀ m, m / 64 ≠ n → t.slot m = s.slot m
  fn : t.fn (pfOf n) = s.fn (pfOf n)
  ses : ∀ j, j < 64 → t.ses j = s.ses j
  rd : ∀ k, k / 256 < 0x5000 ∨ 0x6000 ≤ k / 256 → t.rd k = s.rd k

theorem State.VfsOnly.trans {a b c : State} {n : Nat} (h : a.VfsOnly b n) (h' : b.VfsOnly c n) : a.VfsOnly c n :=
  ⟨by rw [h'.frame, h.frame], fun m hm => (h'.slot m hm).trans (h.slot m hm), h'.fn.trans h.fn,
    fun j hj => (h'.ses j hj).trans (h.ses j hj), fun k hk => (h'.rd k hk).trans (h.rd k hk)⟩

theorem State.vfsOnly_vfReset (s : State) {n k : Nat} (hn : n < 8) (hk : k < 64) : s.VfsOnly (s.vfReset n k) n := by
  have hpf : pfOf n ≠ vfOf (slotOfVf n k) := by unfold pfOf vfOf slotOfVf; omega
  have hfn := s.resetVf_fn_ne n k hpf
  have hses : ∀ j, j < 64 → (s.resetVf n k).ses j = s.ses j := fun j hj => s.resetVf_ses_ne n k (by omega)
  refine ⟨s.vfReset_frame n k, fun m hm => s.vfReset_other (by unfold slotOfVf; omega), ?_, fun j hj => ?_, fun key hkey => ?_⟩
  all_goals unfold State.vfReset
  all_goals split_ifs
  · exact (congrArg (fun t : State => t.fn (pfOf n)) ((s.resetVf n k).flrSlot_spec (slotOfVf n k)).1).trans hfn
  · exact hfn
  · exact (congrArg (fun t : State => t.ses j) ((s.resetVf n k).flrSlot_spec (slotOfVf n k)).1).trans (hses j hj)
  · exact hses j hj
  · have hslot : slotOfVf n k < 512 := by unfold slotOfVf; omega
    exact ((s.resetVf n k).flrSlot_spec (slotOfVf n k)).2.2.1 key (by unfold K.slotState; omega) (by unfold K.slotCmdResult; omega)
  · rfl

theorem State.vfsOnly_resetVfs (s : State) {n : Nat} (hn : n < 8) : s.VfsOnly (s.resetVfs n) n :=
  State.each_rel_mem (R := fun a b => a.VfsOnly b n) (fun _ => ⟨rfl, fun _ _ => rfl, rfl, fun _ _ => rfl, fun _ _ => rfl⟩) .trans
    s _ s ⟨rfl, fun _ _ => rfl, rfl, fun _ _ => rfl, fun _ _ => rfl⟩ fun u _ hk _ => u.vfsOnly_vfReset hn (List.mem_range.1 hk)

theorem State.vfDone_resetVfs (s : State) (n : Nat) {k : Nat} (hk : k < 64) : s.VfDone (s.resetVfs n) (slotOfVf n k) :=
  (State.vfs_done n (List.range 64) List.nodup_range (fun _ h => List.mem_range.1 h) s).1 k (List.mem_range.2 hk)

end Sys2Proof.Machine
end

section
/-! PCIe functions and windows: O46. -/

namespace Sys2Proof.Machine

/-! ## Held messages (R362, R524) -/

/-- The vector's held message may go. -/
def Fn.goes (y : Fn) (w : Nat) : Bool := y.msixEn && y.bme && y.pba.getLsbD w && y.unmasked.getLsbD w

theorem getLsbD_oneHot {v w : Nat} (hw : w < 16) : (1#16 <<< v).getLsbD w = decide (w = v) := by
  rw [BitVec.getLsbD_shiftLeft, BitVec.getLsbD_one]
  rw [Bool.eq_iff_iff]
  simp only [Bool.and_eq_true, Bool.not_eq_true', decide_eq_true_eq, decide_eq_false_iff_not]
  omega

/-- Clearing the bits of a list. -/
theorem getLsbD_cleared {w : Nat} (hw : w < 16) : ∀ (l : List Nat) (p : BitVec 16),
    (l.foldl (fun p v => p &&& ~~~(1#16 <<< v)) p).getLsbD w = (p.getLsbD w && !decide (w ∈ l))
  | [], p => by simp
  | v :: l, p => by
    rw [List.foldl_cons, getLsbD_cleared hw l, BitVec.getLsbD_and, BitVec.getLsbD_not, getLsbD_oneHot hw]
    by_cases h : w = v
    · simp [h]
    · simp [h, hw]

/-- What the messages that may go leave. -/
def State.HeldSent (s t : State) (g : Nat) (y : Fn) : Prop :=
  t = { s with fns := t.fns, sent := t.sent } ∧ (∀ h, h ≠ g → t.fn h = s.fn h) ∧ t.fn g = { y with pba := (t.fn g).pba } ∧
    ∀ w, w < 16 → (t.fn g).pba.getLsbD w = (y.pba.getLsbD w && !y.goes w) ∧ (y.goes w = true → (g, w) ∈ t.sent)

theorem State.heldSent_sendHeld (s : State) (g : Nat) (y : Fn) : s.HeldSent ((s.setFn g y).sendHeld g) g y := by
  have hy : (s.setFn g y).fn g = y := State.fn_setFn ..
  obtain ⟨go, hgo⟩ : ∃ go, go = (List.range 16).filter fun v => y.msixEn && y.bme && y.pba.getLsbD v && y.unmasked.getLsbD v :=
    ⟨_, rfl⟩
  have hmem : ∀ w, w < 16 → (w ∈ go ↔ y.goes w = true) := fun w hw => by
    rw [hgo, List.mem_filter, List.mem_range]
    exact ⟨fun h => h.2, fun h => ⟨hw, h⟩⟩
  have heq : (s.setFn g y).sendHeld g = { (s.setFn g y).setFn g { y with pba := go.foldl (fun p v => p &&& ~~~(1#16 <<< v)) y.pba } with
      sent := (go.map fun v => (g, v)).reverse ++ s.sent } := by
    unfold State.sendHeld
    rw [hy, hgo]
    rfl
  have hfn : ((s.setFn g y).sendHeld g).fn g = { y with pba := go.foldl (fun p v => p &&& ~~~(1#16 <<< v)) y.pba } := by
    rw [heq]
    exact (s.setFn g y).fn_setFn g _
  refine ⟨rfl, fun h hh => ?_, by rw [hfn], fun w hw => ⟨?_, fun hw' => ?_⟩⟩
  · rw [heq]
    exact ((s.setFn g y).fn_setFn_ne g _ h hh).trans (s.fn_setFn_ne g y h hh)
  · rw [hfn]
    show (go.foldl (fun p v => p &&& ~~~(1#16 <<< v)) y.pba).getLsbD w = _
    rw [getLsbD_cleared hw]
    refine congrArg (fun b => y.pba.getLsbD w && !b) ?_
    rw [Bool.eq_iff_iff, decide_eq_true_eq]
    exact hmem w hw
  · rw [heq]
    refine List.mem_append_left _ (List.mem_reverse.2 (List.mem_map.2 ⟨w, (hmem w hw).2 hw', rfl⟩))

/-! ## Resets -/

theorem flr_clause (s : State) (slot : SlotId) : ∃ t, exec (.functionLevelReset slot) s = .next t ∧
    t = { s with fns := t.fns, swin := t.swin, slots := t.slots, sessions := t.sessions, dict := t.dict } ∧
    s.VfCleared t slot.val ∧ s.SlotReset t slot.val ∧
    (∀ m, m ≠ slot.val → t.slot m = s.slot m) ∧ (∀ g, g ≠ vfOf slot.val → t.fn g = s.fn g) ∧
    ∀ key, key ≠ K.slotState slot.val → key ≠ K.slotCmdResult slot.val → t.rd key = s.rd key := by
  have hslot : slotOfVf (slot.val / 64) (slot.val % 64) = slot.val := by unfold slotOfVf; omega
  have hbare := s.resetVf_slot (slot.val / 64) (slot.val % 64)
  obtain ⟨hfn, hswin, hses⟩ := s.resetVf_cleared (slot.val / 64) (slot.val % 64)
  have hslotNe : ∀ m, m ≠ slot.val → (s.resetVf (slot.val / 64) (slot.val % 64)).slot m = s.slot m := fun m hm =>
    s.resetVf_slot_ne _ _ (by rw [hslot]; exact hm)
  have hfnNe : ∀ g, g ≠ vfOf slot.val → (s.resetVf (slot.val / 64) (slot.val % 64)).fn g = s.fn g := fun g hg =>
    s.resetVf_fn_ne _ _ (by rw [hslot]; exact hg)
  have hframe := s.resetVf_frame (slot.val / 64) (slot.val % 64)
  have hrd : ∀ key, (s.resetVf (slot.val / 64) (slot.val % 64)).rd key = s.rd key := fun _ => rfl
  rw [hslot] at hbare hfn hswin hses
  refine ⟨_, rfl, ?_⟩
  generalize s.resetVf (slot.val / 64) (slot.val % 64) = u at hbare hfn hswin hses hslotNe hfnNe hframe hrd ⊢
  obtain ⟨hf, hslots, hkeys, hrun, hidle⟩ := u.flrSlot_spec slot.val
  rw [u.quietSlot_slot, hbare, hrd] at hrun hidle
  have hfns : (u.flrSlot slot.val).fns = u.fns := (congrArg State.fns hf :)
  have hswins : (u.flrSlot slot.val).swin = u.swin := (congrArg State.swin hf :)
  have hsess : (u.flrSlot slot.val).sessions = u.sessions := (congrArg State.sessions hf :)
  have hfnAt : ∀ g, (u.flrSlot slot.val).fn g = u.fn g := fun g => congrArg (fun l => mapGet (fun _ => ({} : Fn)) l g) hfns
  refine ⟨?frame, ⟨(hfnAt _).trans hfn, fun k z hk => ?swin, ?ses⟩, ⟨hrun, hidle⟩, fun m hm => (hslots m hm).trans (hslotNe m hm),
    fun g hg => (hfnAt g).trans (hfnNe g hg), fun key hs hr => (hkeys key hs hr).trans (hrd key)⟩
  case frame =>
    generalize u.flrSlot slot.val = t at hf ⊢
    rw [hf, hframe]
  case swin => exact (congrArg (fun l => mapGet (fun _ => 0) l _) hswins).trans (hswin k z hk)
  case ses => exact (congrArg (fun l => mapGet (fun _ => ({} : Ses)) l _) hsess).trans hses

theorem vfEnable_clause (s : State) (n : PortId) : ∃ t, exec (.vfEnableClear n) s = .next t ∧
    t.fn (pfOf n.val) = { s.fn (pfOf n.val) with vfEnable := false } ∧ (∀ k, k < 64 → s.VfDone t (64 * n.val + k)) ∧
    ((∀ m, m / 64 ≠ n.val → t.slot m = s.slot m) ∧ t.winTab = s.winTab ∧ t.seqs = s.seqs ∧ t.reqs = s.reqs) ∧
    t.cores = s.cores ∧ t.hbm = s.hbm ∧ t.insts = s.insts := by
  obtain ⟨u, hu⟩ : ∃ u, u = s.setFn (pfOf n.val) { s.fn (pfOf n.val) with vfEnable := false } := ⟨_, rfl⟩
  have honly := u.vfsOnly_resetVfs n.isLt
  have hpf : u.fn (pfOf n.val) = { s.fn (pfOf n.val) with vfEnable := false } := by rw [hu]; exact State.fn_setFn ..
  refine ⟨u.resetVfs n.val, by rw [hu]; rfl, honly.fn.trans hpf, fun k hk => ?_, ⟨fun m hm => ?_, ?_, ?_, ?_⟩, ?_, ?_, ?_⟩
  · have hdone := u.vfDone_resetVfs n.val hk
    exact hdone.of_start (by rw [hu]; rfl) (by rw [hu]; rfl) (by rw [hu]; rfl) (by rw [hu]; rfl)
  · exact (honly.slot m hm).trans (by rw [hu]; rfl)
  all_goals
    rw [honly.frame, hu]
    rfl

theorem perst_clause (s : State) (n : PortId) : ∃ t, exec (.perst n) s = .next t ∧ (t.port n.val).perst = true ∧
    t.rd (K.pcieRate n.val) = 0 ∧ t.fn (pfOf n.val) = {} ∧
    ((∀ m, m / 64 ≠ n.val → t.slot m = s.slot m) ∧ t.winTab = s.winTab ∧ t.seqs = s.seqs ∧ t.reqs = s.reqs) ∧
    (∀ p, p ≠ n.val → t.port p = s.port p) ∧
    t.ses (24 + n.val) = { s.ses (24 + n.val) with busy := false, ready := false, request := none, response := [] } ∧
    ((∀ i p, p ∈ (s.inst i).panels → p < 12) → ∀ k, k < 64 → s.VfDone t (64 * n.val + k)) := by
  obtain ⟨d, hd⟩ : ∃ d, d = s.portDown n.val := ⟨_, rfl⟩
  have hcarried : s.Carried d := by rw [hd]; exact s.carried_portDown n.val
  have hrate : d.rd (K.pcieRate n.val) = 0 := by rw [hd]; exact s.portDown_rate n.val
  obtain ⟨u, hu⟩ : ∃ u, u = d.setPort n.val { s.port n.val with perst := true } := ⟨_, rfl⟩
  obtain ⟨v, hv⟩ : ∃ v, v = u.resetVfs n.val := ⟨_, rfl⟩
  have honly : u.VfsOnly v n.val := by rw [hv]; exact u.vfsOnly_resetVfs n.isLt
  obtain ⟨t, ht⟩ : ∃ t, t = (v.setFn (pfOf n.val) {}).setSes (24 + n.val)
    { v.ses (24 + n.val) with busy := false, ready := false, request := none, response := [] } := ⟨_, rfl⟩
  have hf := hcarried.frame
  have hdports : d.ports = s.ports := (congrArg State.ports hf :)
  have hdslots : d.slots = s.slots := (congrArg State.slots hf :)
  have hdses : d.sessions = s.sessions := (congrArg State.sessions hf :)
  have hvports : v.ports = u.ports := (congrArg State.ports honly.frame :)
  have hport : ∀ p, t.port p = u.port p := fun p => by
    rw [ht]
    exact congrArg (fun l => mapGet (fun _ => ({} : Port)) l p) hvports
  have hses : ∀ j, v.ses j = u.ses j → v.ses j = s.ses j := fun j hj =>
    hj.trans (by rw [hu]; exact congrArg (fun l => mapGet (fun _ => ({} : Ses)) l j) hdses)
  refine ⟨t, by rw [ht, hv, hu, hd]; rfl, ?perst, ?rate, ?pf, ⟨fun m hm => ?slot, ?win, ?seqs, ?reqs⟩, fun p hp => ?ports, ?ses,
    fun hp k hk => ?vfs⟩
  case perst => rw [hport, hu, State.port_setPort]
  case rate =>
    rw [ht]
    exact (honly.rd _ (.inr (by unfold K.pcieRate; omega))).trans (by rw [hu]; exact hrate)
  case pf => rw [ht]; exact v.fn_setFn (pfOf n.val) {}
  case slot =>
    rw [ht]
    exact (honly.slot m hm).trans (by rw [hu]; exact congrArg (fun l => mapGet (fun _ => ({} : Slot)) l m) hdslots)
  case win => rw [ht]; exact (congrArg State.winTab honly.frame :).trans (by rw [hu]; exact (congrArg State.winTab hf :))
  case seqs => rw [ht]; exact (congrArg State.seqs honly.frame :).trans (by rw [hu]; exact (congrArg State.seqs hf :))
  case reqs => rw [ht]; exact (congrArg State.reqs honly.frame :).trans (by rw [hu]; exact (congrArg State.reqs hf :))
  case ports =>
    rw [hport, hu, State.port_setPort_ne _ _ _ _ hp]
    exact congrArg (fun l => mapGet (fun _ => ({} : Port)) l p) hdports
  case ses =>
    have hown := hses (24 + n.val) (honly.ses _ (by omega))
    rw [ht, State.ses_setSes, hown]
  case vfs =>
    have hgrid : s.InGrid := fun i _ p h => hp i p h
    have hkeys : ∀ key, 0x5000 ≤ key / 256 → key / 256 < 0x6000 → u.rd key = s.rd key := fun key hlo hhi => by
      rw [hu]
      exact hcarried.rd hgrid key ⟨.inr (.inl ⟨by omega, hhi⟩), not_logKey (by omega)⟩ (by omega)
    have hlt := n.isLt
    have hdone : u.VfDone v (64 * n.val + k) := by rw [hv]; exact u.vfDone_resetVfs n.val hk
    have hsame : v.SameVf t (64 * n.val + k) := by
      rw [ht]
      exact ⟨v.fn_setFn_ne (pfOf n.val) {} (vfOf (64 * n.val + k)) (by unfold vfOf pfOf; omega), fun _ _ _ => rfl, rfl,
        (v.setFn (pfOf n.val) {}).ses_setSes_ne _ _ _ (by omega), rfl, rfl, rfl⟩
    refine (hdone.then hsame).of_start ?_ ?_
      (hkeys _ (by unfold K.transport; omega) (by unfold K.transport; omega))
      (hkeys _ (by unfold K.slotState; omega) (by unfold K.slotState; omega))
    · rw [hu]; exact congrArg (fun l => mapGet (fun _ => ({} : Slot)) l _) hdslots
    · rw [hu]; exact congrArg (fun l => mapGet (fun _ => ({} : Ses)) l _) hdses

/-! ## Windows (R376, R377) -/

/-- Word m of window w alone of the table differs. -/
def State.KeepsTab (s t : State) (w m : Nat) : Prop := t = { s with winTab := t.winTab } ∧
  ∀ u j, j < 4 → ¬(u = w ∧ j = m) → t.winWord u j = s.winWord u j

theorem State.winWord_putWin (s : State) (w m v : Nat) : (s.putWin w m v).winWord w m = v := mapGet_set_self _ _ _ _

theorem State.winWord_putWin_ne (s : State) (w v : Nat) {m u j : Nat} (hm : m < 4) (hj : j < 4) (h : ¬(u = w ∧ j = m)) :
    (s.putWin w m v).winWord u j = s.winWord u j := mapGet_set_other _ _ _ (by omega)

theorem State.keepsTab_putWin (s : State) (w v : Nat) {m : Nat} (hm : m < 4) : s.KeepsTab (s.putWin w m v) w m :=
  ⟨rfl, fun _ _ hj h => s.winWord_putWin_ne w v hm hj h⟩

theorem State.KeepsTab.trans {a b c : State} {w m : Nat} (h : a.KeepsTab b w m) (h' : b.KeepsTab c w m) : a.KeepsTab c w m :=
  ⟨by rw [h'.1, h.1], fun u j hj hne => (h'.2 u j hj hne).trans (h.2 u j hj hne)⟩

/-- A window whose third word is written. -/
theorem State.KeepsTab.window {s t : State} {w : Nat} (h : s.KeepsTab t w 2) : t.window w =
    { base := (s.window w).base, size := (s.window w).size, owner := bits (t.winWord w 2) 9 0,
      role := bits (t.winWord w 2) 12 10, valid := bit (t.winWord w 2) 15 } := by
  unfold State.window
  rw [h.2 w 0 (by decide) (by omega), h.2 w 1 (by decide) (by omega)]

/-- The fields of the third word, without and with `valid`. -/
theorem windowFields (v : Nat) : bits (bits v 12 0) 9 0 = bits v 9 0 ∧ bits (bits v 12 0) 12 10 = bits v 12 10 ∧
    bit (bits v 12 0) 15 = false ∧ bits (bits v 12 0 + 2 ^ 15) 9 0 = bits v 9 0 ∧
    bits (bits v 12 0 + 2 ^ 15) 12 10 = bits v 12 10 ∧ bit (bits v 12 0 + 2 ^ 15) 15 = true := by
  unfold bit bits
  refine ⟨by omega, by omega, ?_, by omega, by omega, ?_⟩
  · rw [beq_eq_false_iff_ne]
    omega
  · rw [beq_iff_eq]
    omega

/-- The third word with `valid` cleared. -/
theorem windowCleared {x : Nat} (h : bit x 15 = true) : bits (x - 2 ^ 15) 9 0 = bits x 9 0 ∧
    bits (x - 2 ^ 15) 12 10 = bits x 12 10 ∧ bit (x - 2 ^ 15) 15 = false := by
  unfold bit bits at *
  rw [beq_iff_eq] at h
  rw [beq_eq_false_iff_ne]
  omega

theorem State.onlyEntries_hostError (s : State) (n : Nat) : s.OnlyEntries (s.hostError n) [K.hostErrors n] ∧
    (s.hostError n).rd (K.hostErrors n) = (s.rd (K.hostErrors n) + 1) % 2 ^ 64 := ⟨s.onlyEntries_wr .., State.rd_wr ..⟩

/-- A slot window's registers after a write of one of them. -/
theorem State.swinReg_set (s : State) (slot : SlotId) (k : Fin 8) (z : Bool) (x : Nat) (y : Bool) :
    ({ s with swin := mapSet (fun _ => 0) s.swin (16 * slot.val + 2 * k + b2n z) x } : State).swinReg slot.val k.val y =
      if y = z then x else s.swinReg slot.val k.val y := by
  refine (mapGet_set (fun _ => 0) s.swin _ _ x).trans ?_
  cases y <;> cases z
  · exact if_congr (by simp) rfl rfl
  · exact if_congr (by simp [b2n]) rfl rfl
  · exact if_congr (by simp [b2n]) rfl rfl
  · exact if_congr (by simp) rfl rfl

end Sys2Proof.Machine
end

section
/-! Window registers, and O46. -/

namespace Sys2Proof.Machine

section
variable {s : State} {n : PortId} {e : Fin 128}

/-! ## Device windows (R376) -/

theorem window_closed {w : Nat} (h : (s.window w).valid = false) : ¬((s.window w).valid = true) := by
  rw [h]
  exact Bool.false_ne_true

theorem exec_window_word {word : Fin 4} {v : Word64} (h : (s.window (128 * n.val + e.val)).valid = false) :
    exec (.windowTableWrite n e word v) s =
      if word.val = 0 then .next (s.putWin (128 * n.val + e.val) 0 v.toNat)
      else if word.val = 1 then .next (s.putWin (128 * n.val + e.val) 1 (bits v.toNat 47 0))
      else if word.val = 3 then .next s
      else if (!bit v.toNat 15) = true then .next (s.putWin (128 * n.val + e.val) 2 (bits v.toNat 12 0))
      else if (s.putWin (128 * n.val + e.val) 2 (bits v.toNat 12 0)).windowOkToSet (128 * n.val + e.val) = true then
        .next ((s.putWin (128 * n.val + e.val) 2 (bits v.toNat 12 0)).putWin (128 * n.val + e.val) 2 (bits v.toNat 12 0 + 2 ^ 15))
      else .next ((s.putWin (128 * n.val + e.val) 2 (bits v.toNat 12 0)).hostError n.val) := if_neg (window_closed h)

theorem window_base {v : Word64} (h : (s.window (128 * n.val + e.val)).valid = false) :
    ∃ t, exec (.windowTableWrite n e 0 v) s = .next t ∧ s.KeepsTab t (128 * n.val + e.val) 0 ∧
      (t.window (128 * n.val + e.val)).base = v.toNat :=
  ⟨_, (exec_window_word h).trans (if_pos rfl), s.keepsTab_putWin _ _ (by decide), s.winWord_putWin ..⟩

theorem window_size {v : Word64} (h : (s.window (128 * n.val + e.val)).valid = false) :
    ∃ t, exec (.windowTableWrite n e 1 v) s = .next t ∧ s.KeepsTab t (128 * n.val + e.val) 1 ∧
      (t.window (128 * n.val + e.val)).size = bits v.toNat 47 0 := by
  refine ⟨_, (exec_window_word h).trans ((if_neg (by decide)).trans (if_pos rfl)), s.keepsTab_putWin _ _ (by decide), ?_⟩
  unfold State.window
  dsimp only
  rw [s.winWord_putWin]
  unfold bits
  omega

/-- A write of the third word of a window that is not valid. -/
theorem exec_window_fields {v : Word64} (h : (s.window (128 * n.val + e.val)).valid = false) :
    exec (.windowTableWrite n e 2 v) s =
      if (!bit v.toNat 15) = true then .next (s.putWin (128 * n.val + e.val) 2 (bits v.toNat 12 0))
      else if (s.putWin (128 * n.val + e.val) 2 (bits v.toNat 12 0)).windowOkToSet (128 * n.val + e.val) = true then
        .next ((s.putWin (128 * n.val + e.val) 2 (bits v.toNat 12 0)).putWin (128 * n.val + e.val) 2 (bits v.toNat 12 0 + 2 ^ 15))
      else .next ((s.putWin (128 * n.val + e.val) 2 (bits v.toNat 12 0)).hostError n.val) :=
  (exec_window_word h).trans ((if_neg (by decide)).trans ((if_neg (by decide)).trans (if_neg (by decide))))

theorem window_opens {v : Word64} (h : (s.window (128 * n.val + e.val)).valid = false) (hv : bit v.toNat 15 = true)
    (hok : (s.putWin (128 * n.val + e.val) 2 (bits v.toNat 12 0)).windowOkToSet (128 * n.val + e.val) = true) :
    ∃ t, exec (.windowTableWrite n e 2 v) s = .next t ∧ s.KeepsTab t (128 * n.val + e.val) 2 ∧
      t.window (128 * n.val + e.val) = ⟨(s.window (128 * n.val + e.val)).base, (s.window (128 * n.val + e.val)).size,
        bits v.toNat 9 0, bits v.toNat 12 10, true⟩ := by
  have hset : ¬((!bit v.toNat 15) = true) := by rw [hv]; exact Bool.false_ne_true
  refine ⟨_, (exec_window_fields h).trans ((if_neg hset).trans (if_pos hok)), ?_⟩
  have hk : s.KeepsTab ((s.putWin (128 * n.val + e.val) 2 (bits v.toNat 12 0)).putWin (128 * n.val + e.val) 2
      (bits v.toNat 12 0 + 2 ^ 15)) (128 * n.val + e.val) 2 :=
    (s.keepsTab_putWin _ _ (by decide)).trans (State.keepsTab_putWin _ _ _ (by decide))
  obtain ⟨-, -, -, howner, hrole, hvalid⟩ := windowFields v.toNat
  refine ⟨hk, ?_⟩
  rw [hk.window, State.winWord_putWin, howner, hrole, hvalid]

theorem window_refused {v : Word64} (h : (s.window (128 * n.val + e.val)).valid = false) (hv : bit v.toNat 15 = true)
    (hok : (s.putWin (128 * n.val + e.val) 2 (bits v.toNat 12 0)).windowOkToSet (128 * n.val + e.val) = false) :
    ∃ t, exec (.windowTableWrite n e 2 v) s = .next t ∧ (t.window (128 * n.val + e.val)).valid = false ∧
      t = { s with winTab := t.winTab, dict := t.dict } ∧
      t.rd (K.hostErrors n.val) = (s.rd (K.hostErrors n.val) + 1) % 2 ^ 64 ∧
      ∀ j, j ≠ K.hostErrors n.val → t.rd j = s.rd j := by
  have hset : ¬((!bit v.toNat 15) = true) := by rw [hv]; exact Bool.false_ne_true
  obtain ⟨u, hu⟩ : ∃ u, u = s.putWin (128 * n.val + e.val) 2 (bits v.toNat 12 0) := ⟨_, rfl⟩
  refine ⟨u.hostError n.val, ?_, ?_, by rw [hu]; rfl, ?_, fun j hj => ?_⟩
  · rw [hu]
    exact (exec_window_fields h).trans ((if_neg hset).trans (if_neg (by rw [hok]; exact Bool.false_ne_true)))
  · show bit (u.winWord (128 * n.val + e.val) 2) 15 = false
    rw [hu, State.winWord_putWin]
    exact (windowFields v.toNat).2.2.1
  · exact (u.onlyEntries_hostError n.val).2.trans (by rw [hu]; rfl)
  · exact (State.rd_wr_ne _ _ _ _ hj).trans (by rw [hu]; rfl)

theorem window_fields {v : Word64} (h : (s.window (128 * n.val + e.val)).valid = false) (hv : bit v.toNat 15 = false) :
    ∃ t, exec (.windowTableWrite n e 2 v) s = .next t ∧ s.KeepsTab t (128 * n.val + e.val) 2 ∧
      t.window (128 * n.val + e.val) = ⟨(s.window (128 * n.val + e.val)).base, (s.window (128 * n.val + e.val)).size,
        bits v.toNat 9 0, bits v.toNat 12 10, false⟩ := by
  have hset : (!bit v.toNat 15) = true := by rw [hv]; rfl
  have hk := s.keepsTab_putWin (128 * n.val + e.val) (bits v.toNat 12 0) (m := 2) (by decide)
  obtain ⟨howner, hrole, hvalid, -⟩ := windowFields v.toNat
  refine ⟨_, (exec_window_fields h).trans (if_pos hset), hk, ?_⟩
  rw [hk.window, State.winWord_putWin, howner, hrole, hvalid]

theorem window_locked {word : Fin 4} {v : Word64} (h : (s.window (128 * n.val + e.val)).valid = true)
    (hw : word.val ≠ 2 ∨ bit v.toNat 15 = true) : exec (.windowTableWrite n e word v) s = .next s :=
  (if_pos h).trans (if_pos hw)

theorem window_cleared {v : Word64} (h : (s.window (128 * n.val + e.val)).valid = true) (hv : bit v.toNat 15 = false)
    (huse : s.windowInUse (128 * n.val + e.val) = false) :
    ∃ t, exec (.windowTableWrite n e 2 v) s = .next t ∧ s.KeepsTab t (128 * n.val + e.val) 2 ∧
      t.window (128 * n.val + e.val) = { s.window (128 * n.val + e.val) with valid := false } := by
  have hlock : ¬((2 : Fin 4).val ≠ 2 ∨ bit v.toNat 15 = true) := by
    rw [hv]
    decide
  have hk := s.keepsTab_putWin (128 * n.val + e.val) (s.winWord (128 * n.val + e.val) 2 - 2 ^ 15) (m := 2) (by decide)
  obtain ⟨howner, hrole, hvalid⟩ := windowCleared (x := s.winWord (128 * n.val + e.val) 2) h
  refine ⟨_, (if_pos h).trans ((if_neg hlock).trans (if_neg (by rw [huse]; exact Bool.false_ne_true))), hk, ?_⟩
  rw [hk.window, State.winWord_putWin, howner, hrole, hvalid]
  rfl

theorem window_used {v : Word64} (h : (s.window (128 * n.val + e.val)).valid = true) (hv : bit v.toNat 15 = false)
    (huse : s.windowInUse (128 * n.val + e.val) = true) :
    ∃ t, exec (.windowTableWrite n e 2 v) s = .next t ∧ s.OnlyEntries t [K.hostErrors n.val] ∧
      t.rd (K.hostErrors n.val) = (s.rd (K.hostErrors n.val) + 1) % 2 ^ 64 := by
  have hlock : ¬((2 : Fin 4).val ≠ 2 ∨ bit v.toNat 15 = true) := by
    rw [hv]
    decide
  exact ⟨_, (if_pos h).trans ((if_neg hlock).trans (if_pos huse)), s.onlyEntries_hostError n.val⟩

/-! ## Slot windows (R377) -/

variable {slot : SlotId} {k : Fin 8} {v : Word64}

/-- One of slot window k's registers is written. -/
def State.putSwin (s : State) (slot : SlotId) (k : Fin 8) (z : Bool) (x : Nat) : State :=
  { s with swin := mapSet (fun _ => 0) s.swin (16 * slot.val + 2 * k + b2n z) x }

theorem State.swinReg_putSwin (z : Bool) (x : Nat) (y : Bool) : (s.putSwin slot k z x).swinReg slot.val k.val y =
    if y = z then x else s.swinReg slot.val k.val y := s.swinReg_set slot k z x y

theorem exec_swin_size (h : bit (s.swinReg slot.val k.val false) 0 = false) :
    exec (.swinWrite slot k true v) s = .next (s.putSwin slot k true (bits v.toNat 47 0)) :=
  (if_neg (by rw [h]; exact Bool.false_ne_true)).trans (if_pos rfl)

theorem exec_swin_base (h : bit (s.swinReg slot.val k.val false) 0 = false) : exec (.swinWrite slot k false v) s =
    if (!bit v.toNat 0) = true then .next (s.putSwin slot k false (4096 * bits v.toNat 63 12))
    else if 0 < bits (s.swinReg slot.val k.val true) 47 0 ∧ bits (s.swinReg slot.val k.val true) 47 0 % 4096 = 0 then
      .next (s.putSwin slot k false (4096 * bits v.toNat 63 12 + 1))
    else .next ((s.putSwin slot k false (4096 * bits v.toNat 63 12)).hostError (slot.val / 64)) :=
  (if_neg (by rw [h]; exact Bool.false_ne_true)).trans (if_neg Bool.false_ne_true)

theorem swin_sized (h : bit (s.swinReg slot.val k.val false) 0 = false) :
    ∃ t, exec (.swinWrite slot k true v) s = .next t ∧ t = { s with swin := t.swin } ∧
      t.swinReg slot.val k.val true = bits v.toNat 47 0 ∧ t.swinReg slot.val k.val false = s.swinReg slot.val k.val false :=
  ⟨_, exec_swin_size h, rfl, (State.swinReg_putSwin ..).trans (if_pos rfl),
    (State.swinReg_putSwin ..).trans (if_neg Bool.false_ne_true)⟩

theorem swin_opens (h : bit (s.swinReg slot.val k.val false) 0 = false) (hv : bit v.toNat 0 = true)
    (hpos : 0 < bits (s.swinReg slot.val k.val true) 47 0) (hal : bits (s.swinReg slot.val k.val true) 47 0 % 4096 = 0) :
    ∃ t, exec (.swinWrite slot k false v) s = .next t ∧ t = { s with swin := t.swin } ∧
      t.swinReg slot.val k.val false = 4096 * bits v.toNat 63 12 + 1 ∧
      t.swinReg slot.val k.val true = s.swinReg slot.val k.val true :=
  ⟨_, (exec_swin_base h).trans ((if_neg (by rw [hv]; exact Bool.false_ne_true)).trans (if_pos ⟨hpos, hal⟩)), rfl,
    (State.swinReg_putSwin ..).trans (if_pos rfl), (State.swinReg_putSwin ..).trans (if_neg Bool.false_ne_true.symm)⟩

theorem swin_based (h : bit (s.swinReg slot.val k.val false) 0 = false) (hv : bit v.toNat 0 = false) :
    ∃ t, exec (.swinWrite slot k false v) s = .next t ∧ t = { s with swin := t.swin } ∧
      t.swinReg slot.val k.val false = 4096 * bits v.toNat 63 12 ∧
      t.swinReg slot.val k.val true = s.swinReg slot.val k.val true :=
  ⟨_, (exec_swin_base h).trans (if_pos (by rw [hv]; rfl)), rfl,
    (State.swinReg_putSwin ..).trans (if_pos rfl), (State.swinReg_putSwin ..).trans (if_neg Bool.false_ne_true.symm)⟩

theorem swin_refused (h : bit (s.swinReg slot.val k.val false) 0 = false) (hv : bit v.toNat 0 = true)
    (hlen : bits (s.swinReg slot.val k.val true) 47 0 = 0 ∨ bits (s.swinReg slot.val k.val true) 47 0 % 4096 ≠ 0) :
    ∃ t, exec (.swinWrite slot k false v) s = .next t ∧ bit (t.swinReg slot.val k.val false) 0 = false ∧
      t.rd (K.hostErrors (slot.val / 64)) = (s.rd (K.hostErrors (slot.val / 64)) + 1) % 2 ^ 64 := by
  obtain ⟨u, hu⟩ : ∃ u, u = s.putSwin slot k false (4096 * bits v.toNat 63 12) := ⟨_, rfl⟩
  refine ⟨u.hostError (slot.val / 64), ?_, ?_, ?_⟩
  · rw [hu]
    exact (exec_swin_base h).trans ((if_neg (by rw [hv]; exact Bool.false_ne_true)).trans (if_neg (by omega)))
  · show bit (u.swinReg slot.val k.val false) 0 = false
    rw [hu, State.swinReg_putSwin, if_pos rfl]
    unfold bit
    rw [beq_eq_false_iff_ne]
    omega
  · exact (u.onlyEntries_hostError _).2.trans (by rw [hu]; rfl)

theorem swin_locked (h : bit (s.swinReg slot.val k.val false) 0 = true) : exec (.swinWrite slot k true v) s = .next s ∧
    (bit v.toNat 0 = true → exec (.swinWrite slot k false v) s = .next s) ∧
    (bit v.toNat 0 = false → ∃ t, exec (.swinWrite slot k false v) s = .next t ∧ t = { s with swin := t.swin } ∧
      t.swinReg slot.val k.val false = s.swinReg slot.val k.val false - 1) := by
  have hopen : ∀ z, exec (.swinWrite slot k z v) s =
      .next (if z = true ∨ bit v.toNat 0 = true then s else s.putSwin slot k false (s.swinReg slot.val k.val false - 1)) :=
    fun z => if_pos h
  refine ⟨(hopen true).trans (congrArg Host.Outcome.next (if_pos (.inl rfl))),
    fun hv => (hopen false).trans (congrArg Host.Outcome.next (if_pos (.inr hv))), fun hv => ?_⟩
  refine ⟨_, (hopen false).trans (congrArg Host.Outcome.next (if_neg ?_)), rfl, (State.swinReg_putSwin ..).trans (if_pos rfl)⟩
  rw [hv]
  decide

end

/-- Settles O46. -/
theorem pcieFunctionsAndWindows : Obligations.PcieFunctionsAndWindows := by
  unfold Obligations.PcieFunctionsAndWindows
  refine ⟨fun s slot n f v addr data => ⟨flr_clause s slot, vfEnable_clause s n, perst_clause s n, ?bme, ?unmask⟩,
    fun s n e word slot k v => ⟨window_base, window_size, window_opens, window_refused, fun h => ?ignored, window_fields,
      window_locked, window_cleared, window_used, fun h => ⟨swin_sized h, swin_opens h, swin_based h, swin_refused h⟩,
      swin_locked⟩⟩
  case bme => exact ⟨_, rfl, s.heldSent_sendHeld (65 * n.val + f.val) _⟩
  case unmask =>
    refine ⟨_, _, rfl, s.heldSent_sendHeld (65 * n.val + f.val) _, rfl, fun w hw => ?_, mapGet_set_self ..,
      fun w hw => mapGet_set_other _ _ _ hw⟩
    show ((s.fn (65 * n.val + f.val)).unmasked ||| (1#16 <<< v.val)).getLsbD w = _
    rw [BitVec.getLsbD_or, getLsbD_oneHot hw, Bool.or_comm]
  case ignored => exact (exec_window_word h).trans ((if_neg (by decide)).trans ((if_neg (by decide)).trans (if_pos rfl)))

end Sys2Proof.Machine
end

section
/-! Joining and leaving a cascade, and the loads that its broadcast feeds (R336, R486, R494): O57. -/

namespace Sys2Proof.Machine

/-! ## Several entries written -/

/-- Entries written one after another. -/
def State.wrs (s : State) (l : List (Nat × Nat)) : State := l.foldl (fun s p => s.wr p.1 p.2) s

theorem State.wrs_spec : ∀ (l : List (Nat × Nat)), (l.map (·.1)).Nodup → ∀ s : State,
    s.wrs l = { s with dict := (s.wrs l).dict } ∧ (∀ p ∈ l, (s.wrs l).rd p.1 = p.2) ∧
    ∀ k, k ∉ l.map (·.1) → (s.wrs l).rd k = s.rd k
  | [], _, s => ⟨rfl, fun _ h => absurd h List.not_mem_nil, fun _ _ => rfl⟩
  | p :: l, h, s => by
    rw [List.map_cons, List.nodup_cons] at h
    obtain ⟨hframe, hown, hrest⟩ := State.wrs_spec l h.2 (s.wr p.1 p.2)
    have heq : s.wrs (p :: l) = (s.wr p.1 p.2).wrs l := rfl
    rw [heq]
    refine ⟨?_, fun q hq => ?_, fun k hk => ?_⟩
    · generalize (s.wr p.1 p.2).wrs l = t at hframe ⊢
      rw [hframe]
      rfl
    · rcases List.mem_cons.1 hq with rfl | hq
      · exact (hrest _ h.1).trans (State.rd_wr ..)
      · exact hown q hq
    · rw [List.map_cons, List.mem_cons, not_or] at hk
      exact (hrest k hk.2).trans (State.rd_wr_ne _ _ _ _ hk.1)

theorem State.says (s : State) (code : Nat) : s.OnlyEntries (s.wr K.cascResult code) [K.cascResult] ∧
    (s.wr K.cascResult code).rd K.cascResult = code := ⟨s.onlyEntries_wr .., State.rd_wr ..⟩

/-! ## JOIN (R486) -/

/-- This part may join the cascade that is configured. -/
def State.MayJoin (s : State) : Prop := s.cascSize ≤ 16 ∧ s.rd K.cascInstance ≤ 11 ∧ s.rd K.masterEligible ≠ 0

/-- What joining writes. -/
def State.joinEntries (s : State) (me : Nat) : List (Nat × Nat) :=
  [(K.cascState, 1), (K.memberIndex, me), (K.unfitReason, 0),
    (K.cascRole, if s.firstMaster (List.range s.cascSize) = me then 2 else 1),
    (K.masterSerial, s.memberSerial (s.firstMaster (List.range s.cascSize))), (K.cascResult, 0)]

theorem join_refused {s : State} (h0 : s.rd K.cascState = 0) (h : s.ownIndex = none ∨ ¬s.MayJoin) :
    s.join = s.wr K.cascResult 2 := by
  unfold State.join
  rw [if_neg (not_not_intro h0)]
  cases hown : s.ownIndex with
  | none => rfl
  | some m =>
    have hno : ¬s.MayJoin := h.resolve_left (by rw [hown]; exact Option.some_ne_none m)
    refine if_pos ?_
    unfold State.MayJoin at hno
    omega

theorem join_joins {s : State} {me : Nat} (h0 : s.rd K.cascState = 0) (hown : s.ownIndex = some me) (h : s.MayJoin) :
    s.join = State.wrs { s with casc := { master := s.firstMaster (List.range s.cascSize) } } (s.joinEntries me) := by
  unfold State.join
  rw [if_neg (not_not_intro h0), hown]
  refine if_neg ?_
  unfold State.MayJoin at h
  omega

theorem join_clause {s : State} {me : Nat} (h0 : s.rd K.cascState = 0) (hown : s.ownIndex = some me) (h : s.MayJoin) :
    ∃ t, exec .join s = .next t ∧ t.rd K.cascState = 1 ∧ t.rd K.memberIndex = me ∧ t.rd K.cascResult = 0 ∧
      t.rd K.cascRole = (if s.firstMaster (List.range s.cascSize) = me then 2 else 1) ∧ t.rd K.unfitReason = 0 ∧
      t.rd K.masterSerial = s.memberSerial (s.firstMaster (List.range s.cascSize)) ∧
      t.casc = { master := s.firstMaster (List.range s.cascSize) } ∧ t = { s with dict := t.dict, casc := t.casc } ∧
      ∀ k, k ∉ [K.cascState, K.memberIndex, K.unfitReason, K.cascRole, K.masterSerial, K.cascResult] → t.rd k = s.rd k := by
  obtain ⟨hframe, hwritten, hrest⟩ := State.wrs_spec (s.joinEntries me)
    (by unfold State.joinEntries; simp only [List.map_cons, List.map_nil]; decide)
    { s with casc := { master := s.firstMaster (List.range s.cascSize) } }
  have hjoin := join_joins h0 hown h
  rw [← hjoin] at hframe hwritten hrest
  have hw : ∀ k v, (k, v) ∈ s.joinEntries me → s.join.rd k = v := fun k v hk => hwritten (k, v) hk
  unfold State.joinEntries at hw
  simp only [List.mem_cons, List.not_mem_nil, or_false, Prod.mk.injEq] at hw
  refine ⟨s.join, rfl, hw _ _ (by simp), hw _ _ (by simp), hw _ _ (by simp), hw _ _ (by simp), hw _ _ (by simp), hw _ _ (by simp),
    (congrArg State.casc hframe :), ?_, fun k hk => (hrest k hk).trans rfl⟩
  generalize s.join = t at hframe
  rw [hframe]

/-! ## Loads from the broadcast (R336) -/

/-- A load's end is shown. -/
def State.LoadShown (t : State) (j code : Nat) : Prop :=
  t.rd (K.instState j) = instUnfitted ∧ t.rd (K.loadStatus j) = pack [(6, 0), (code, 8), (0, 16)]

theorem State.loadShown_loadEnded (s : State) {j : Nat} (hj : j < 12) (code : Nat) : (s.loadFail j code 0).LoadShown j code := by
  have hstate : K.instState j ∉ logKeys := instState_not_logKey ⟨j, hj⟩
  have hstatus : K.loadStatus j ∉ logKeys := not_logKey (by unfold K.loadStatus; omega)
  rw [State.loadFail_eq]
  unfold State.LoadShown
  rw [State.logMg_rd _ _ _ _ _ _ _ _ hstate, State.logMg_rd _ _ _ _ _ _ _ _ hstatus]
  unfold State.loadEnded
  generalize (s.unplace j).clearModel j = u
  exact ⟨u.wr _ _ |>.rd_wr _ _, (State.rd_wr_ne _ _ _ _ (by unfold K.loadStatus K.instState; omega)).trans (u.rd_wr _ _)⟩

/-- Another instance's load leaves what is shown. -/
theorem State.LoadShown.kept {s t : State} {i j code : Nat} (h : s.LoadShown j code) (hg : s.ModelGone t i) (hs : s.InGrid)
    (hi : i < 12) (hj : j < 12) (hne : j ≠ i) : t.LoadShown j code := by
  have hkey : ∀ sub, sub < 256 → ¬s.modelKey i ((0x4000 + j) * 256 + sub) := by
    rintro sub hsub (h' | h' | h' | ⟨p, hp, h', -⟩)
    · omega
    · omega
    · omega
    · have := hs i hi p hp
      omega
  have hstate : ¬s.modelKey i (K.instState j) := hkey 1 (by decide)
  have hstatus : ¬s.modelKey i (K.loadStatus j) := hkey 0x0C (by decide)
  unfold State.LoadShown
  rw [hg.rd _ hstate (instState_not_logKey ⟨j, hj⟩), hg.rd _ hstatus (not_logKey (by unfold K.loadStatus; omega))]
  exact h

/-- Loads that end one after another. -/
theorem State.loads_end (code : Nat) : ∀ (l : List Nat), l.Nodup → (∀ i ∈ l, i < 12) → ∀ s : State, s.InGrid →
    (∀ j ∈ l, (s.each l fun s i => s.loadFail i code 0).LoadShown j code) ∧
    ∀ j, j < 12 → j ∉ l → s.LoadShown j code → (s.each l fun s i => s.loadFail i code 0).LoadShown j code
  | [], _, _, _, _ => ⟨fun _ h => absurd h List.not_mem_nil, fun _ _ _ h => h⟩
  | x :: l, hnodup, hlt, s, hs => by
    rw [List.nodup_cons] at hnodup
    have hx := hlt x List.mem_cons_self
    have hgone := s.modelGone_loadFail x code 0
    have hgrid : (s.loadFail x code 0).InGrid := hs.of_panels (hgone.models hx).panels
    obtain ⟨hend, hkept⟩ := State.loads_end code l hnodup.2 (fun i hi => hlt i (List.mem_cons_of_mem _ hi)) _ hgrid
    refine ⟨fun j hj => ?_, fun j hj hne h => ?_⟩
    · rcases List.mem_cons.1 hj with rfl | hj
      · exact hkept _ hx hnodup.1 (s.loadShown_loadEnded hx code)
      · exact hend j hj
    · rw [List.mem_cons, not_or] at hne
      exact hkept j hj hne.2 (h.kept hgone hs hx hj hne.1)

/-- The instances that load from the broadcast. -/
def State.broadcastLoads (s : State) : List Nat := (List.range 12).filter fun i => (s.inst i).load.isSome && s.fromCascade i

theorem State.mem_broadcastLoads {s : State} {j : Nat} :
    j ∈ s.broadcastLoads ↔ j < 12 ∧ (s.inst j).load.isSome = true ∧ s.fromCascade j = true := by
  unfold State.broadcastLoads
  rw [List.mem_filter, List.mem_range, Bool.and_eq_true]

theorem State.broadcastLoads_nil {s : State} (h : ∀ j, j < 12 → (s.inst j).load.isSome = true → s.fromCascade j = false) :
    s.broadcastLoads = [] := by
  rw [List.eq_nil_iff_forall_not_mem]
  intro j hj
  obtain ⟨hlt, hload, hfrom⟩ := State.mem_broadcastLoads.1 hj
  rw [h j hlt hload] at hfrom
  exact Bool.false_ne_true hfrom

theorem State.broadcastLoads_end {s : State} (hs : s.InGrid) (code : Nat) :
    ∀ j, j < 12 → (s.inst j).load.isSome = true → s.fromCascade j = true →
      (s.each s.broadcastLoads fun s i => s.loadFail i code 0).LoadShown j code := fun _ hj hload hfrom =>
  (State.loads_end code s.broadcastLoads (List.nodup_range.filter _) (fun _ h => (State.mem_broadcastLoads.1 h).1) s hs).1 _
    (State.mem_broadcastLoads.2 ⟨hj, hload, hfrom⟩)

theorem State.modelsGone_broadcast (s : State) (code : Nat) (l : List Nat) (hl : ∀ i ∈ l, i < 12) :
    s.ModelsGone (s.each l fun s i => s.loadFail i code 0) :=
  State.each_rel_mem (R := State.ModelsGone) .refl .trans s _ s (.refl s)
    fun u i hi _ => (u.modelGone_loadFail i code 0).models (hl i hi)

/-- No load's end touches the number of the cascaded instance, whatever the panels. -/
theorem State.cascInstance_broadcast (s : State) (code : Nat) :
    (s.each s.broadcastLoads fun s i => s.loadFail i code 0).rd K.cascInstance = s.rd K.cascInstance := by
  refine State.each_rel_mem (R := fun a b : State => b.rd K.cascInstance = a.rd K.cascInstance) (fun _ => rfl)
    (fun h h' => h'.trans h) s _ s rfl fun u i hi _ => ?_
  have hlt := (State.mem_broadcastLoads.1 hi).1
  refine (u.modelGone_loadFail i code 0).rd _ ?_ (by decide)
  unfold K.cascInstance
  rintro (h | h | h | ⟨p, -, -, h⟩)
  · omega
  · omega
  · omega
  · omega

/-! ## LEAVE (R494) -/

/-- What leaving writes. -/
def leaveEntries : List (Nat × Nat) :=
  [(K.cascState, 0), (K.cascRole, 0), (K.memberIndex, 0xFF), (K.masterSerial, 0), (K.cascResult, 0)]

/-- The part is in no cascade. -/
def State.left (s : State) (i : Nat) : State :=
  (State.modInst { s with casc := {} } i fun x => { x with cascWait := false }).wrs leaveEntries

theorem leave_leaves {s : State} (h : s.rd K.cascState ≠ 0) :
    s.leave = (s.each s.broadcastLoads fun s i => s.loadFail i 0x2C 0).left
      ((s.each s.broadcastLoads fun s i => s.loadFail i 0x2C 0).rd K.cascInstance) := if_neg h

theorem State.left_spec (s : State) (i : Nat) :
    s.left i = { s with dict := (s.left i).dict, casc := (s.left i).casc, insts := (s.left i).insts } ∧
    (s.left i).casc = {} ∧ (s.left i).inst i = { s.inst i with cascWait := false } ∧
    (∀ j, j ≠ i → (s.left i).inst j = s.inst j) ∧ (∀ p ∈ leaveEntries, (s.left i).rd p.1 = p.2) ∧
    ∀ k, k ∉ [K.cascState, K.cascRole, K.memberIndex, K.masterSerial, K.cascResult] → (s.left i).rd k = s.rd k := by
  obtain ⟨u, hu⟩ : ∃ u, u = State.modInst { s with casc := {} } i fun x => { x with cascWait := false } := ⟨_, rfl⟩
  obtain ⟨hframe, hwritten, hrest⟩ := State.wrs_spec leaveEntries (by decide) u
  have hleft : s.left i = u.wrs leaveEntries := by rw [hu]; rfl
  rw [hleft]
  have hinsts : (u.wrs leaveEntries).insts = u.insts := (congrArg State.insts hframe :)
  have hinst : ∀ j, (u.wrs leaveEntries).inst j = u.inst j := fun j => congrArg (fun l => mapGet (fun _ => ({} : Inst)) l j) hinsts
  have hcasc : (u.wrs leaveEntries).casc = {} := (congrArg State.casc hframe :).trans (by rw [hu]; rfl)
  refine ⟨?_, hcasc, (hinst i).trans ?_, fun j hj => (hinst j).trans ?_, hwritten, fun k hk => (hrest k hk).trans (by rw [hu]; rfl)⟩
  · generalize u.wrs leaveEntries = t at hframe
    rw [hframe, hu]
    rfl
  · rw [hu, State.modInst_eq, State.inst_setInst]
    rfl
  · rw [hu]
    exact State.inst_setInst_ne { s with casc := {} } i _ j hj

theorem leave_clause {s : State} (h : s.rd K.cascState ≠ 0) : ∃ t, exec .leave s = .next t ∧ t.rd K.cascState = 0 ∧
    t.rd K.cascRole = 0 ∧ t.rd K.memberIndex = 0xFF ∧ t.rd K.masterSerial = 0 ∧ t.rd K.cascResult = 0 ∧ t.casc = {} ∧
    (t.inst (s.rd K.cascInstance)).cascWait = false ∧
    (s.InGrid → ∀ j, j < 12 → (s.inst j).load.isSome = true → s.fromCascade j = true → t.LoadShown j 0x2C) ∧
    ((∀ j, j < 12 → (s.inst j).load.isSome = true → s.fromCascade j = false) →
      t = { s with dict := t.dict, casc := t.casc, insts := t.insts } ∧
      t.inst (s.rd K.cascInstance) = { s.inst (s.rd K.cascInstance) with cascWait := false } ∧
      (∀ j, j ≠ s.rd K.cascInstance → t.inst j = s.inst j) ∧
      ∀ k, k ∉ [K.cascState, K.cascRole, K.memberIndex, K.masterSerial, K.cascResult] → t.rd k = s.rd k) := by
  obtain ⟨u, hu⟩ : ∃ u, u = s.each s.broadcastLoads fun s i => s.loadFail i 0x2C 0 := ⟨_, rfl⟩
  have hinst : u.rd K.cascInstance = s.rd K.cascInstance := by
    rw [hu]
    exact s.cascInstance_broadcast 0x2C
  have heq := leave_leaves h
  rw [← hu, hinst] at heq
  obtain ⟨hframe, hcasc, hown, hothers, hwritten, hrest⟩ := u.left_spec (s.rd K.cascInstance)
  refine ⟨_, congrArg Host.Outcome.next heq, hwritten (_, _) (by decide), hwritten (_, _) (by decide), hwritten (_, _) (by decide),
    hwritten (_, _) (by decide), hwritten (_, _) (by decide), hcasc, by rw [hown], fun hs j hj hload hfrom => ?shown, fun hno => ?alone⟩
  case shown =>
    have hshown : u.LoadShown j 0x2C := by
      rw [hu]
      exact State.broadcastLoads_end hs 0x2C j hj hload hfrom
    unfold State.LoadShown at *
    rw [hrest _ (by unfold K.instState K.cascState K.cascRole K.memberIndex K.masterSerial K.cascResult; simp only [List.mem_cons, List.not_mem_nil, or_false, not_or]; omega),
      hrest _ (by unfold K.loadStatus K.cascState K.cascRole K.memberIndex K.masterSerial K.cascResult; simp only [List.mem_cons, List.not_mem_nil, or_false, not_or]; omega)]
    exact hshown
  case alone =>
    rw [State.broadcastLoads_nil hno] at hu
    have hus : u = s := hu
    rw [hus] at hframe hown hothers hrest ⊢
    exact ⟨hframe, hown, hothers, hrest⟩

end Sys2Proof.Machine
end

section
/-! Messages along the cascade's tree, the tack and its release (R477, R485-R491): O57. -/

namespace Sys2Proof.Machine

/-! ## Messages -/

/-- One transfer waits at seam k after the others. -/
def State.SentOn (s t : State) (k : Nat) (m : SeamMsg) : Prop := t = { s with seams := t.seams } ∧
  t.seam k = { s.seam k with tx := (s.seam k).tx ++ [m] } ∧ ∀ j, j ≠ k → t.seam j = s.seam j

theorem State.sentOn_seamSend (s : State) (k : Nat) (m : SeamMsg) : s.SentOn (s.seamSend k m) k m :=
  ⟨rfl, mapGet_set_self .., fun _ hj => mapGet_set_other _ _ _ hj⟩

theorem State.sendDown_one {s : State} {c k : Nat} (hc : s.childrenOf s.me = [c]) (hk : s.seamFor c = some k) (type tag : Nat)
    (payload : List Byte) : s.SentOn (s.sendDown type tag payload) k
      { type := type, src := s.me, dst := 0xFF, tag := tag, taint := false, payload := payload } := by
  have heq : s.sendDown type tag payload =
      s.seamSend k { type := type, src := s.me, dst := 0xFF, tag := tag, taint := false, payload := payload } := by
    unfold State.sendDown
    rw [hc]
    show (match s.seamFor c with
      | some n => s.seamSend n { type := type, src := s.me, dst := 0xFF, tag := tag, taint := false, payload := payload }
      | none => s) = _
    rw [hk]
  rw [heq]
  exact s.sentOn_seamSend k _

theorem State.sendDown_none {s : State} (hc : s.childrenOf s.me = []) (type tag : Nat) (payload : List Byte) :
    s.sendDown type tag payload = s := by
  unfold State.sendDown
  rw [hc]
  rfl

/-- Nothing but the entries, the log and the tree's data differs. -/
theorem master_not {s : State} (h : ¬(s.isMaster = true ∧ s.rd K.cascState ≠ 0)) :
    (!s.isMaster || decide (s.rd K.cascState = 0)) = true := by
  by_contra hc
  simp only [Bool.or_eq_true, Bool.not_eq_true', decide_eq_true_eq, not_or, Bool.not_eq_false] at hc
  exact h hc

theorem master_yes {s : State} (h : s.isMaster = true ∧ s.rd K.cascState ≠ 0) :
    ¬((!s.isMaster || decide (s.rd K.cascState = 0)) = true) := by
  simp only [Bool.or_eq_true, Bool.not_eq_true', decide_eq_true_eq, not_or, Bool.not_eq_false]
  exact h

theorem member_not {s : State} (h : ¬(s.isMaster = false ∧ s.rd K.cascState ≠ 0)) :
    (s.isMaster || decide (s.rd K.cascState = 0)) = true := by
  by_contra hc
  simp only [Bool.or_eq_true, decide_eq_true_eq, not_or, Bool.not_eq_true] at hc
  exact h hc

theorem member_yes {s : State} (h : s.isMaster = false ∧ s.rd K.cascState ≠ 0) :
    ¬((s.isMaster || decide (s.rd K.cascState = 0)) = true) := by
  simp only [Bool.or_eq_true, decide_eq_true_eq, not_or, Bool.not_eq_true]
  exact h

/-! ## SWAP and FW_PASS (R487, R493) -/

theorem swap_clause {s : State} (h2 : 2 ≤ s.rd K.cascState) (hlead : s.mayLead (s.rd K.swapTarget) = true) :
    ∃ t, exec .swap s = .next t ∧ t.casc = { s.casc with swaps := s.casc.swaps ++ [(s.me, s.rd K.swapTarget)] } ∧
      t.rd K.cascResult = 0 ∧ (∀ k, k ≠ K.cascResult → t.rd k = s.rd k) ∧
      (s.isMaster = true → t = { s with dict := t.dict, casc := t.casc }) ∧
      (s.isMaster = false → t = ({ s with dict := t.dict, casc := t.casc } : State).sendMember s.casc.master 5
        (s.rd K.ctackSeq) (leBytes 1 (s.rd K.swapTarget))) := by
  obtain ⟨u, hu⟩ : ∃ u, u = (s.wr K.cascResult 0).addSwap s.me (s.rd K.swapTarget) := ⟨_, rfl⟩
  have hrd : ∀ k, k ≠ K.cascResult → u.rd k = s.rd k := fun k hk => by rw [hu]; exact s.rd_wr_ne K.cascResult 0 k hk
  have hres : u.rd K.cascResult = 0 := by rw [hu]; exact s.rd_wr K.cascResult 0
  have hcasc : u.casc = { s.casc with swaps := s.casc.swaps ++ [(s.me, s.rd K.swapTarget)] } := by rw [hu]; rfl
  have hframe : u = { s with dict := u.dict, casc := u.casc } := by rw [hu]; rfl
  have hmaster : u.isMaster = s.isMaster := congrArg (fun v => v == 2) (hrd _ (by decide))
  have heq : exec .swap s = .next (if u.isMaster = true then u else
      u.sendMember u.casc.master 5 (u.rd K.ctackSeq) (leBytes 1 (s.rd K.swapTarget))) := by
    rw [hu]
    exact congrArg Host.Outcome.next ((if_neg (by omega)).trans (if_neg (by rw [hlead]; exact Bool.false_ne_true)))
  rw [hmaster] at heq
  cases hm : s.isMaster with
  | true =>
    rw [if_pos hm] at heq
    exact ⟨u, heq, hcasc, hres, hrd, fun _ => hframe, fun h => absurd h (Bool.false_ne_true.symm)⟩
  | false =>
    rw [if_neg (by rw [hm]; exact Bool.false_ne_true), hcasc, hrd K.ctackSeq (by decide)] at heq
    have hseams := u.seamsOnly_sendMember s.casc.master 5 (s.rd K.ctackSeq) (leBytes 1 (s.rd K.swapTarget))
    refine ⟨_, heq, (congrArg State.casc hseams :).trans hcasc, (hseams.rd _).trans hres, fun k hk => (hseams.rd k).trans (hrd k hk),
      fun h => absurd h Bool.false_ne_true, fun _ => ?_⟩
    have hdict : (u.sendMember s.casc.master 5 (s.rd K.ctackSeq) (leBytes 1 (s.rd K.swapTarget))).dict = u.dict :=
      (congrArg State.dict hseams :)
    have hcasc' : (u.sendMember s.casc.master 5 (s.rd K.ctackSeq) (leBytes 1 (s.rd K.swapTarget))).casc = u.casc :=
      (congrArg State.casc hseams :)
    show u.sendMember s.casc.master 5 (s.rd K.ctackSeq) (leBytes 1 (s.rd K.swapTarget)) = _
    rw [hdict, hcasc', ← hframe]

theorem fwPass_says {s : State} :
    (¬(s.isMaster = true ∧ s.rd K.cascState ≠ 0) → s.fwPassCmd = s.wr K.cascResult 1) ∧
    (s.isMaster = true ∧ s.rd K.cascState ≠ 0 → 4 < s.cascSize → s.fwPassCmd = s.wr K.cascResult 2) ∧
    (s.isMaster = true ∧ s.rd K.cascState ≠ 0 → s.cascSize ≤ 4 → s.rd K.fwState ≠ 3 ∧ s.rd K.fwState ≠ 4 →
      s.fwPassCmd = s.wr K.cascResult 1) ∧
    (s.isMaster = true ∧ s.rd K.cascState ≠ 0 → s.cascSize ≤ 4 → s.rd K.fwState = 3 ∨ s.rd K.fwState = 4 →
      s.fwPassCmd = (s.each (s.imageBlocks 0) fun s b => s.sendDown 0x22 b.1 b.2).wr K.cascResult 0) :=
  ⟨fun h => if_pos (master_not h), fun h h4 => (if_neg (master_yes h)).trans (if_pos h4),
    fun h h4 hst => (if_neg (master_yes h)).trans ((if_neg (Nat.not_lt.2 h4)).trans (if_pos hst)),
    fun h h4 hst => (if_neg (master_yes h)).trans ((if_neg (Nat.not_lt.2 h4)).trans (if_neg (by omega)))⟩

theorem fwPass_clause {s : State} (h : s.isMaster = true ∧ s.rd K.cascState ≠ 0) (h4 : s.cascSize ≤ 4)
    (hst : s.rd K.fwState = 3 ∨ s.rd K.fwState = 4) : ∃ t, exec .fwPass s = .next t ∧ t.rd K.cascResult = 0 ∧
      (∀ k, k ≠ K.cascResult → t.rd k = s.rd k) ∧
      t = { s.each (s.imageBlocks 0) fun u b => u.sendDown 0x22 b.1 b.2 with dict := t.dict } := by
  have hseams : s.SeamsOnly (s.each (s.imageBlocks 0) fun u b => u.sendDown 0x22 b.1 b.2) :=
    State.each_rel (R := State.SeamsOnly) (fun _ => rfl) .trans (fun _ _ => State.seamsOnly_sendDown ..) _ s
  exact ⟨_, congrArg Host.Outcome.next (fwPass_says.2.2.2 h h4 hst), State.rd_wr ..,
    fun k hk => (State.rd_wr_ne _ _ _ _ hk).trans (hseams.rd k), rfl⟩

/-! ## Unfitted, and the new master (R482, R487) -/

theorem State.cascUnfit_spec (s : State) (reason member : Nat) :
    s.OnlyEntriesAndLog (s.cascUnfit reason member) [K.cascState, K.unfitReason] ∧
    (s.cascUnfit reason member).rd K.cascState = 2 ∧ (s.cascUnfit reason member).rd K.unfitReason = reason := by
  unfold State.cascUnfit
  split_ifs with h
  · exact ⟨⟨rfl, fun _ _ _ => rfl⟩, h⟩
  · refine ⟨((s.onlyEntries_wr K.cascState 2).wr K.unfitReason reason).logMg .., ?_, ?_⟩
    · exact (State.logMg_rd _ _ _ _ _ _ _ _ (by decide)).trans ((State.rd_wr_ne _ _ _ _ (by decide)).trans (State.rd_wr ..))
    · exact (State.logMg_rd _ _ _ _ _ _ _ _ (by decide)).trans (State.rd_wr ..)

theorem State.setMaster_same (s : State) : s.setMaster s.casc.master = s := if_pos rfl

theorem State.swapAnswer_same (s : State) (m : Nat) : s.swapAnswer m m = s := by
  unfold State.swapAnswer
  split
  · exact if_pos (.inr rfl)
  · rfl

theorem State.setMaster_spec (s : State) (m : Nat) : (s.setMaster m).casc.master = m ∧ (s.setMaster m).cores = s.cores ∧
    (s.setMaster m).insts = s.insts ∧ (∀ k, k ∉ [K.cascRole, K.masterSerial] → k ∉ logKeys → (s.setMaster m).rd k = s.rd k) ∧
    (m ≠ s.casc.master → (s.setMaster m).rd K.cascRole = (if m = s.me then 2 else 1) ∧
      (s.setMaster m).rd K.masterSerial = s.memberSerial m) := by
  by_cases h : m = s.casc.master
  · have hsame : s.setMaster m = s := if_pos h
    rw [hsame]
    exact ⟨h.symm, rfl, rfl, fun _ _ _ => rfl, fun hne => absurd h hne⟩
  · obtain ⟨u, hu⟩ : ∃ u : State, u = ((({ s with casc := { s.casc with master := m, stale := true, records := [] } } : State).wr
      K.cascRole (if m = s.me then 2 else 1)).wr K.masterSerial (s.memberSerial m)) := ⟨_, rfl⟩
    have heq : s.setMaster m = u.logMg (u.rd K.cascInstance) 0x3004 0 0 noSlot s.casc.master m := by
      rw [hu]
      exact if_neg h
    rw [heq]
    have hlog := u.logMg_only (u.rd K.cascInstance) 0x3004 0 0 noSlot s.casc.master m
    have hrd : ∀ k, k ∉ logKeys → (u.logMg (u.rd K.cascInstance) 0x3004 0 0 noSlot s.casc.master m).rd k = u.rd k :=
      fun k hk => State.logMg_rd _ _ _ _ _ _ _ _ hk
    have hrole : u.rd K.cascRole = if m = s.me then 2 else 1 := by
      rw [hu, State.rd_wr_ne _ _ _ _ (by decide), State.rd_wr]
    have hserial : u.rd K.masterSerial = s.memberSerial m := by rw [hu, State.rd_wr]
    have hrest : ∀ k, k ∉ [K.cascRole, K.masterSerial] → u.rd k = s.rd k := fun k hk => by
      simp only [List.mem_cons, List.not_mem_nil, or_false, not_or] at hk
      rw [hu, State.rd_wr_ne _ _ _ _ hk.2, State.rd_wr_ne _ _ _ _ hk.1]
      rfl
    have hcasc : u.casc.master = m := by rw [hu]; rfl
    have hcores : u.cores = s.cores := by rw [hu]; rfl
    have hinsts : u.insts = s.insts := by rw [hu]; rfl
    exact ⟨(congrArg Casc.master hlog.casc).trans hcasc, hlog.cores.trans hcores, hlog.insts.trans hinsts,
      fun k hk hl => (hrd k hl).trans (hrest k hk), fun _ => ⟨(hrd _ (by decide)).trans hrole, (hrd _ (by decide)).trans hserial⟩⟩

/-! ## The master is lost (R488) -/

theorem insBy_ne_nil {β : Type} (before : β → β → Bool) (x : β) (l : List β) : insBy before x l ≠ [] := by
  cases l with
  | nil => exact List.cons_ne_nil _ _
  | cons y t =>
    unfold insBy
    split <;> exact List.cons_ne_nil _ _

/-- The first of a list sorted by a number has the least number. -/
theorem sortBy_head_le (f : Nat → Nat) (d : Nat) : ∀ {l : List Nat}, l ≠ [] →
    (sortBy (fun a b => decide (f a ≤ f b)) l).headD d ∈ l ∧
    ∀ x ∈ l, f ((sortBy (fun a b => decide (f a ≤ f b)) l).headD d) ≤ f x
  | [], h => absurd rfl h
  | [x], _ => ⟨List.mem_cons_self, fun y hy => by rw [List.mem_singleton.1 hy]; exact Nat.le_refl _⟩
  | x :: y :: l, _ => by
    obtain ⟨hmem, hle⟩ := sortBy_head_le f d (List.cons_ne_nil y l)
    have heq : sortBy (fun a b => decide (f a ≤ f b)) (x :: y :: l) =
        insBy (fun a b => decide (f a ≤ f b)) x (sortBy (fun a b => decide (f a ≤ f b)) (y :: l)) := rfl
    have hne : sortBy (fun a b => decide (f a ≤ f b)) (y :: l) ≠ [] :=
      insBy_ne_nil _ y _
    rw [heq]
    generalize sortBy (fun a b => decide (f a ≤ f b)) (y :: l) = r at hmem hle hne ⊢
    cases r with
    | nil => exact absurd rfl hne
    | cons z t =>
      have hz : (z :: t).headD d = z := rfl
      rw [hz] at hmem hle
      unfold insBy
      split_ifs with hxz
      · rw [decide_eq_true_eq] at hxz
        refine ⟨List.mem_cons_of_mem _ hmem, fun w hw => ?_⟩
        rcases List.mem_cons.1 hw with rfl | hw
        · exact hxz
        · exact hle w hw
      · rw [decide_eq_true_eq] at hxz
        refine ⟨List.mem_cons_self, fun w hw => ?_⟩
        rcases List.mem_cons.1 hw with rfl | hw
        · exact Nat.le_refl _
        · exact Nat.le_trans (Nat.le_of_lt (Nat.not_le.1 hxz)) (hle w hw)

/-- The members that stand when the master is lost. -/
def State.standing (s : State) (reach : List (Fin 16)) : List Nat :=
  s.me :: (reach.map (·.val)).eraseDups.filter fun m => m != s.me && decide (m < s.cascSize)

theorem loss_clause {s : State} {reach : List (Fin 16)} (h : s.isMaster = false ∧ s.rd K.cascState ≠ 0)
    (hq : s.cascSize < 2 * (s.standing reach).length ∧ s.rd K.masterEligible = 1) :
    ∃ t, exec (.masterLoss reach) s = .next t ∧ t.rd K.cascState = 2 ∧ t.rd K.unfitReason = 0 ∧
      t.casc.master ∈ s.standing reach ∧ (∀ x ∈ s.standing reach, s.memberSerial t.casc.master ≤ s.memberSerial x) ∧
      (t.casc.master ≠ s.casc.master → t.rd K.cascRole = (if t.casc.master = s.me then 2 else 1) ∧
        t.rd K.masterSerial = s.memberSerial t.casc.master) ∧ t.cores = s.cores ∧ t.insts = s.insts := by
  obtain ⟨m, hm⟩ : ∃ m, m = (sortBy (fun a b => decide (s.memberSerial a ≤ s.memberSerial b)) (s.standing reach)).headD 16 := ⟨_, rfl⟩
  have hne : s.standing reach ≠ [] := List.cons_ne_nil _ _
  obtain ⟨hmem, hle⟩ := sortBy_head_le s.memberSerial 16 hne
  rw [← hm] at hmem hle
  have heq : exec (.masterLoss reach) s = .next ((s.cascUnfit 0 s.me).setMaster m) := by
    rw [hm]
    exact (if_neg (member_yes h)).trans (if_pos hq)
  obtain ⟨honly, hstate, hreason⟩ := s.cascUnfit_spec 0 s.me
  obtain ⟨hframe, hrest⟩ := honly
  generalize s.cascUnfit 0 s.me = u at heq hframe hrest hstate hreason
  have hme : u.me = s.me := hrest _ (by decide) (by decide)
  have hserial : u.memberSerial m = s.memberSerial m := by
    have hblobs : u.blobs = s.blobs := (congrArg State.blobs hframe :)
    exact congrArg (fun l => leAt (mapGet blobDefault l K.members) (8 * m) 8) hblobs
  have hcasc : u.casc = s.casc := (congrArg State.casc hframe :)
  obtain ⟨hmaster, hcores, hinsts, hkept, hnew⟩ := u.setMaster_spec m
  rw [hme, hserial, hcasc] at hnew
  refine ⟨_, heq, (hkept _ (by decide) (by decide)).trans hstate, (hkept _ (by decide) (by decide)).trans hreason, ?_, ?_, ?_,
    hcores.trans (congrArg State.cores hframe :), hinsts.trans (congrArg State.insts hframe :)⟩
  all_goals rw [hmaster]
  · exact hmem
  · exact hle
  · exact hnew

end Sys2Proof.Machine
end

section
/-! The cascade's tack and release, its timers, time, aperture data and step plans (R484-R491): O57. -/

namespace Sys2Proof.Machine

/-! ## Records (R490) -/

theorem State.form_fresh {s : State} (h : s.casc.stale = false) : s.form = s := if_pos (by rw [h]; rfl)

theorem State.judgeTack_forming {s : State} (h1 : s.rd K.cascState = 1) (hm : s.mismatch = none) : s.judgeTack = s := by
  unfold State.judgeTack
  rw [hm]
  exact if_pos (.inr (.inl h1))

theorem tackRecord_not {s : State} {r : TackRec} (h : ¬(s.isMaster = true ∧ s.rd K.cascState ≠ 0) ∨ s.cascSize ≤ r.member.val) :
    exec (.tackRecord r) s = .next s := by
  refine if_pos ?_
  rw [Bool.or_eq_true, decide_eq_true_eq]
  exact h.imp_left master_not

theorem tackRecord_taken {s : State} {r : TackRec} (h : s.isMaster = true ∧ s.rd K.cascState ≠ 0) (hr : r.member.val < s.cascSize) :
    exec (.tackRecord r) s = .next (s.form.addRecord r) := by
  refine if_neg ?_
  rw [Bool.or_eq_true, decide_eq_true_eq]
  exact not_or_intro (master_yes h) (Nat.not_le.2 hr)

/-! ## The plan of a step (R485) -/

/-- What a plan's writing touches: the stacks, and a core's picks. -/
def State.PlanOnly (s t : State) : Prop := t = { s with
  cores := t.cores, hbm := t.hbm, hbmPoison := t.hbmPoison, hbmErr := t.hbmErr }

theorem State.PlanOnly.trans {a b c : State} (h : a.PlanOnly b) (h' : b.PlanOnly c) : a.PlanOnly c := by
  unfold State.PlanOnly at *
  rw [h', h]

theorem State.planOnly_hbmClear (s : State) (i a n : Nat) : s.PlanOnly (s.hbmClear i a n) := by
  unfold State.hbmClear
  refine State.each_rel (R := State.PlanOnly) (fun _ => rfl) .trans (fun u x => ?_) _ s
  exact rfl

theorem State.planOnly_hbmWrite (s : State) (i a : Nat) (bs : List Byte) : s.PlanOnly (s.hbmWrite i a bs) := rfl

/-- A member that resumes with a plan. -/
def Inst.onPlan (x : Inst) (plan : List Byte) (now : Nat) : Inst := { x with
  stepOn := true, passes := 0, stepStart := now, stepNo := leAt plan 0 8 + 1, withheld := false, cascWait := false }

/-- The picks of the instance's selector are gone. -/
def State.picksCleared (s : State) (i : Nat) : State :=
  match s.selectorOf i with
  | some c => s.modCore c fun k => { k with picks := [] }
  | none => s

theorem State.picksCleared_none {s : State} {i : Nat} (h : s.selectorOf i = none) : s.picksCleared i = s := by
  unfold State.picksCleared
  rw [h]

theorem State.picksCleared_some {s : State} {i c : Nat} (h : s.selectorOf i = some c) :
    s.picksCleared i = s.modCore c fun k => { k with picks := [] } := by
  unfold State.picksCleared
  rw [h]

theorem State.picksCleared_eq (s : State) (i : Nat) : s.picksCleared i = { s with cores := (s.picksCleared i).cores } := by
  unfold State.picksCleared
  split <;> rfl

/-- The plan of a step is in the queue table of the serving instance. -/
def State.planWritten (s : State) (i : Nat) (plan : List Byte) (n : Nat) : State :=
  (s.hbmClear i ((s.inst i).queueBase + leAt plan 0 8 % 2 * n) n).hbmWrite i
    ((s.inst i).queueBase + leAt plan 0 8 % 2 * n) (slice plan 0 (min plan.length n))

theorem State.planOnly_planWritten (s : State) (i : Nat) (plan : List Byte) (n : Nat) : s.PlanOnly (s.planWritten i plan n) :=
  (s.planOnly_hbmClear i _ _).trans (State.planOnly_hbmWrite ..)

/-- The function is unfolded as a whole and its number of bytes replaced by a variable, so that nothing evaluates the writing of
a plan's hundreds of thousands of bytes. -/
theorem State.takePlan_eq (s : State) (i : Nat) (plan : List Byte) {n : Nat} (hn : n = planBytes) : s.takePlan i plan =
    ((s.planWritten i plan n).modInst i fun x => x.onPlan plan (s.planWritten i plan n).time).picksCleared i := by
  obtain ⟨f, hf⟩ : ∃ f, f = State.takePlan := ⟨_, rfl⟩
  rw [← hf]
  delta State.takePlan at hf
  rw [← hn] at hf
  subst hf
  dsimp only
  generalize hsel : State.selectorOf _ i = o
  cases o with
  | none => exact (State.picksCleared_none hsel).symm
  | some c => exact (State.picksCleared_some hsel).symm

/-- An instance that resumes. -/
theorem State.resumed_spec {s u : State} (h : s.PlanOnly u) (i : Nat) (plan : List Byte) :
    u.modInst i (fun x => x.onPlan plan u.time) = { s with
      insts := (u.modInst i fun x => x.onPlan plan u.time).insts
      cores := (u.modInst i fun x => x.onPlan plan u.time).cores
      hbm := (u.modInst i fun x => x.onPlan plan u.time).hbm
      hbmPoison := (u.modInst i fun x => x.onPlan plan u.time).hbmPoison
      hbmErr := (u.modInst i fun x => x.onPlan plan u.time).hbmErr } ∧
    (u.modInst i fun x => x.onPlan plan u.time).inst i = (s.inst i).onPlan plan s.time ∧
    ∀ j, j ≠ i → (u.modInst i fun x => x.onPlan plan u.time).inst j = s.inst j := by
  have htime : u.time = s.time := (congrArg State.time h :)
  have hinsts : u.insts = s.insts := (congrArg State.insts h :)
  have hinst : ∀ j, u.inst j = s.inst j := fun j => congrArg (fun l => mapGet (fun _ => ({} : Inst)) l j) hinsts
  refine ⟨?_, ?_, fun j hj => ?_⟩
  · unfold State.PlanOnly at h
    unfold State.modInst State.setInst
    rw [h]
  · rw [State.modInst_eq, State.inst_setInst, hinst, htime]
  · rw [State.modInst_eq, State.inst_setInst_ne _ _ _ _ hj, hinst]

theorem State.takePlan_spec (s : State) (i : Nat) (plan : List Byte) :
    (s.takePlan i plan) = { s with insts := (s.takePlan i plan).insts, cores := (s.takePlan i plan).cores
                                   hbm := (s.takePlan i plan).hbm, hbmPoison := (s.takePlan i plan).hbmPoison
                                   hbmErr := (s.takePlan i plan).hbmErr } ∧
    (s.takePlan i plan).inst i = (s.inst i).onPlan plan s.time ∧ ∀ j, j ≠ i → (s.takePlan i plan).inst j = s.inst j := by
  obtain ⟨n, hn⟩ : ∃ n, n = planBytes := ⟨_, rfl⟩
  rw [s.takePlan_eq i plan hn]
  obtain ⟨hframe, hown, hothers⟩ := State.resumed_spec (s.planOnly_planWritten i plan n) i plan
  generalize (s.planWritten i plan n).modInst i (fun x => x.onPlan plan (s.planWritten i plan n).time) = v
    at hframe hown hothers
  have hp := v.picksCleared_eq i
  have hinsts : (v.picksCleared i).insts = v.insts := (congrArg State.insts hp :)
  have hinst : ∀ j, (v.picksCleared i).inst j = v.inst j := fun j => congrArg (fun l => mapGet (fun _ => ({} : Inst)) l j) hinsts
  refine ⟨?_, (hinst i).trans hown, fun j hj => (hinst j).trans (hothers j hj)⟩
  generalize v.picksCleared i = t at hp
  rw [hp, hframe]

/-! ## A release (R490, R491) -/

theorem State.form_time (s : State) : s.form.time = s.time := by
  have hunfit : ∀ (u : State) (r m : Nat), (u.cascUnfit r m).time = u.time := fun u r m =>
    (congrArg State.time (u.cascUnfit_spec r m).1.1 :)
  unfold State.form
  dsimp only
  split_ifs
  · rfl
  · exact hunfit _ _ _
  · rfl
  · rfl

theorem release_member {s : State} (h : s.isMaster = false ∧ s.rd K.cascState ≠ 0) (rel : ReleaseMsg) :
    exec (.cascadeRelease rel) s =
      .next (({ s.form with casc := { s.form.casc with heardAt := s.time } } : State).releaseSelf rel) := by
  refine (if_neg (member_yes h)).trans ?_
  rw [← s.form_time]

/-- The member has heard its master, and the tack counts. -/
def State.tacked (s : State) : State := State.bump { s with casc := { s.casc with heardAt := s.time } } K.ctackSeq 64 1

theorem State.tacked_spec (s : State) : s.tacked.rd K.ctackSeq = (s.rd K.ctackSeq + 1) % 2 ^ 64 ∧
    (∀ k, k ≠ K.ctackSeq → s.tacked.rd k = s.rd k) ∧ s.tacked.casc = { s.casc with heardAt := s.time } ∧
    s.tacked = { s with dict := s.tacked.dict, casc := s.tacked.casc } :=
  ⟨State.rd_wr .., fun k hk => State.rd_wr_ne { s with casc := { s.casc with heardAt := s.time } } K.ctackSeq _ k hk, rfl, rfl⟩

/-- The member stays where its master left it. -/
def Inst.stays (x : Inst) : Inst := { x with cascWait := false, withheld := true }

theorem State.releaseSelf_stays {u : State} {rel : ReleaseMsg} (hm : rel.master.val = u.casc.master) (hr : rel.resync = none)
    (hp : rel.proceed = false) :
    u.releaseSelf rel = (u.bump K.ctackSeq 64 1).unfitByMaster.modInst (u.rd K.cascInstance) Inst.stays := by
  have hsame : ((u.bump K.ctackSeq 64 1).swapAnswer rel.master (u.bump K.ctackSeq 64 1).casc.master).setMaster rel.master =
      u.bump K.ctackSeq 64 1 := by
    rw [hm]
    exact (congrArg (fun v : State => v.setMaster u.casc.master) ((u.bump K.ctackSeq 64 1).swapAnswer_same u.casc.master)).trans
      (u.bump K.ctackSeq 64 1).setMaster_same
  unfold State.releaseSelf
  dsimp only
  rw [hsame, hr, hp]
  rfl

/-- A member that had taken another step than its lead. -/
def State.rejoined (s : State) (i n : Nat) : State :=
  if (s.inst i).stepNo - 1 = n then s else (s.bump K.rejoins 32 1).logMg i 0x3007 1 0 noSlot s.me n

theorem State.releaseSelf_rejoins {u : State} {rel : ReleaseMsg} {n : Nat} (hm : rel.master.val = u.casc.master)
    (hr : rel.resync = none) (hp : rel.proceed = true) (hn : rel.rejoin = some n)
    (h3 : (u.bump K.ctackSeq 64 1).rd K.cascState = 3)
    (hlead : (u.bump K.ctackSeq 64 1).leadOf ((u.bump K.ctackSeq 64 1).groupOf (u.bump K.ctackSeq 64 1).me) ≠
      (u.bump K.ctackSeq 64 1).me) :
    u.releaseSelf rel = (((u.bump K.ctackSeq 64 1).applyTaken (u.rd K.cascInstance)).rejoined (u.rd K.cascInstance) n).resume
      (u.rd K.cascInstance) := by
  have hsame : ((u.bump K.ctackSeq 64 1).swapAnswer rel.master (u.bump K.ctackSeq 64 1).casc.master).setMaster rel.master =
      u.bump K.ctackSeq 64 1 := by
    rw [hm]
    exact (congrArg (fun v : State => v.setMaster u.casc.master) ((u.bump K.ctackSeq 64 1).swapAnswer_same u.casc.master)).trans
      (u.bump K.ctackSeq 64 1).setMaster_same
  unfold State.releaseSelf
  dsimp only
  rw [hsame, hr, hp, hn]
  dsimp only
  rw [if_neg (show ¬((!true) = true) from Bool.false_ne_true), if_pos h3, if_neg (by rw [beq_iff_eq]; exact hlead)]
  rfl

end Sys2Proof.Machine
end

section
/-! Clauses of the cascade's tack, release, timers, time, aperture data and plans (R484-R491): O57. -/

namespace Sys2Proof.Machine

/-! ## A release reaches a member -/

theorem State.unfitByMaster_spec {s : State} (h : s.isMaster = false) :
    s.unfitByMaster.rd K.cascState = 2 ∧ s.unfitByMaster.casc = s.casc ∧ s.unfitByMaster.cores = s.cores ∧
    s.unfitByMaster.hbm = s.hbm ∧ s.unfitByMaster.insts = s.insts ∧
    ∀ k, k ∉ [K.cascState, K.unfitReason] → k ∉ logKeys → s.unfitByMaster.rd k = s.rd k := by
  have heq : s.unfitByMaster = s.freeStep.cascUnfit (1 + s.free.toNat % 2) s.me :=
    if_neg (by rw [h]; exact Bool.false_ne_true)
  obtain ⟨⟨hframe, hrest⟩, hstate, -⟩ := s.freeStep.cascUnfit_spec (1 + s.free.toNat % 2) s.me
  rw [← heq] at hframe hrest hstate
  exact ⟨hstate, (congrArg State.casc hframe :), (congrArg State.cores hframe :), (congrArg State.hbm hframe :),
    (congrArg State.insts hframe :), hrest⟩

/-- The member has heard its master. -/
def State.hearing (s : State) : State := { s with casc := { s.casc with heardAt := s.time } }

theorem release_fresh {s : State} {rel : ReleaseMsg} (h : s.isMaster = false ∧ s.rd K.cascState ≠ 0)
    (hstale : s.casc.stale = false) : exec (.cascadeRelease rel) s = .next (s.hearing.releaseSelf rel) := by
  rw [release_member h, State.form_fresh hstale]
  rfl

theorem release_stays {s : State} {rel : ReleaseMsg} (h : s.isMaster = false ∧ s.rd K.cascState ≠ 0)
    (hstale : s.casc.stale = false) (hm : rel.master.val = s.casc.master) (hr : rel.resync = none) (hp : rel.proceed = false) :
    ∃ t, exec (.cascadeRelease rel) s = .next t ∧ t.rd K.ctackSeq = (s.rd K.ctackSeq + 1) % 2 ^ 64 ∧ t.rd K.cascState = 2 ∧
      t.casc.heardAt = s.time ∧ t.inst (s.rd K.cascInstance) =
        { s.inst (s.rd K.cascInstance) with cascWait := false, withheld := true } ∧ t.cores = s.cores ∧ t.hbm = s.hbm := by
  have hself := State.releaseSelf_stays (u := s.hearing) (rel := rel) hm hr hp
  obtain ⟨v, hv⟩ : ∃ v, v = s.hearing.bump K.ctackSeq 64 1 := ⟨_, rfl⟩
  have hmaster : v.isMaster = false := by
    rw [hv]
    exact (congrArg (fun x => x == 2) (s.hearing.rd_wr_ne K.ctackSeq _ K.cascRole (by decide))).trans h.1
  have hseq : v.rd K.ctackSeq = (s.rd K.ctackSeq + 1) % 2 ^ 64 := by rw [hv]; exact State.rd_wr ..
  have hcasc : v.casc.heardAt = s.time := by rw [hv]; rfl
  have hcores : v.cores = s.cores := by rw [hv]; rfl
  have hhbm : v.hbm = s.hbm := by rw [hv]; rfl
  have hinsts : v.insts = s.insts := by rw [hv]; rfl
  rw [← hv] at hself
  obtain ⟨hstate, hucasc, hucores, huhbm, huinsts, hurest⟩ := State.unfitByMaster_spec hmaster
  generalize v.unfitByMaster = w at hself hstate hucasc hucores huhbm huinsts hurest
  refine ⟨_, (release_fresh h hstale).trans (congrArg Host.Outcome.next hself), ?_, hstate, ?_, ?_, hucores.trans hcores,
    huhbm.trans hhbm⟩
  · exact (hurest _ (by decide) (by decide)).trans hseq
  · exact (congrArg Casc.heardAt hucasc).trans hcasc
  · refine (w.inst_setInst _ _).trans ?_
    have hinst : w.inst (s.rd K.cascInstance) = s.inst (s.rd K.cascInstance) :=
      congrArg (fun l => mapGet (fun _ => ({} : Inst)) l _) (huinsts.trans hinsts)
    show (w.inst (s.rd K.cascInstance)).stays = _
    rw [hinst]
    rfl

theorem State.applyTaken_none {s : State} {i : Nat} (h : (s.inst i).changes = []) :
    s.applyTaken i = s.setInst i { s.inst i with changes := [], taken := 0 } := by
  unfold State.applyTaken
  dsimp only [State.modInst_eq]
  rw [h]
  rfl

theorem State.resume_spec (s : State) (i : Nat) : (∀ k, (s.resume i).rd k = s.rd k) ∧ (s.resume i).log = s.log ∧
    ((s.resume i).inst i).cascWait = false ∧ (s.resume i).casc.heardAt = s.casc.heardAt := by
  obtain ⟨u, hu⟩ : ∃ u, u = s.modInst i fun x => { x with cascWait := false, stepOn := false, withheld := true } := ⟨_, rfl⟩
  have hwait : (u.inst i).cascWait = false := by
    rw [hu, State.modInst_eq, State.inst_setInst]
  have hrd : ∀ k, u.rd k = s.rd k := fun k => by rw [hu]; rfl
  have hlog : u.log = s.log := by rw [hu]; rfl
  have hheard : u.casc.heardAt = s.casc.heardAt := by rw [hu]; rfl
  have heq : s.resume i = if u.casc.plan.isEmpty = true then u
      else State.takePlan { u with casc := { u.casc with plan := [] } } i u.casc.plan := by
    rw [hu]
    rfl
  rw [heq]
  split_ifs
  · exact ⟨hrd, hlog, hwait, hheard⟩
  · obtain ⟨hframe, hown, -⟩ := State.takePlan_spec { u with casc := { u.casc with plan := [] } } i u.casc.plan
    generalize State.takePlan { u with casc := { u.casc with plan := [] } } i u.casc.plan = t at hframe hown ⊢
    have hdict : t.dict = u.dict := (congrArg State.dict hframe :)
    refine ⟨fun k => (congrArg (fun l => mapGet dictDefault l k) hdict).trans (hrd k), ?_, ?_, ?_⟩
    · exact (congrArg State.log hframe :).trans hlog
    · rw [hown]
      rfl
    · exact (congrArg (fun t : State => t.casc.heardAt) hframe :).trans hheard

theorem release_rejoins {s : State} {rel : ReleaseMsg} {n : Nat} (h : s.isMaster = false ∧ s.rd K.cascState ≠ 0)
    (hstale : s.casc.stale = false) (hm : rel.master.val = s.casc.master) (hr : rel.resync = none) (hp : rel.proceed = true)
    (hn : rel.rejoin = some n) (h3 : s.rd K.cascState = 3) (hlead : ¬s.leadOf (s.groupOf s.me) = s.me)
    (hchanges : (s.inst (s.rd K.cascInstance)).changes = []) (hstep : (s.inst (s.rd K.cascInstance)).stepNo - 1 ≠ n) :
    ∃ t, exec (.cascadeRelease rel) s = .next t ∧ t.rd K.ctackSeq = (s.rd K.ctackSeq + 1) % 2 ^ 64 ∧
      t.rd K.rejoins = (s.rd K.rejoins + 1) % 2 ^ 32 ∧ t.Logged 0x3007 1 ∧
      (t.inst (s.rd K.cascInstance)).cascWait = false ∧ t.casc.heardAt = s.time := by
  obtain ⟨v, hv⟩ : ∃ v, v = s.hearing.bump K.ctackSeq 64 1 := ⟨_, rfl⟩
  have hvrd : ∀ k, k ≠ K.ctackSeq → v.rd k = s.rd k := fun k hk => by rw [hv]; exact s.hearing.rd_wr_ne K.ctackSeq _ k hk
  have hseq : v.rd K.ctackSeq = (s.rd K.ctackSeq + 1) % 2 ^ 64 := by rw [hv]; exact State.rd_wr ..
  have hvinst : ∀ j, v.inst j = s.inst j := fun j => by rw [hv]; rfl
  have hvcasc : v.casc.heardAt = s.time := by rw [hv]; rfl
  have hme : v.me = s.me := hvrd _ (by decide)
  have hshape : v.leadOf (v.groupOf v.me) = s.leadOf (s.groupOf s.me) := by
    unfold State.leadOf State.groupOf State.cascW State.cascD
    rw [hme, hvrd K.cascShape (by decide)]
  have hself := State.releaseSelf_rejoins (u := s.hearing) (rel := rel) (n := n) hm hr hp hn (by rw [← hv, hvrd _ (by decide)]; exact h3)
    (by rw [← hv, hshape, hme]; exact hlead)
  rw [← hv] at hself
  have hi : s.hearing.rd K.cascInstance = s.rd K.cascInstance := rfl
  rw [hi] at hself
  obtain ⟨i, hieq⟩ : ∃ i, i = s.rd K.cascInstance := ⟨_, rfl⟩
  rw [← hieq] at hself hchanges hstep ⊢
  rw [State.applyTaken_none (by rw [hvinst]; exact hchanges)] at hself
  obtain ⟨w, hw⟩ : ∃ w, w = v.setInst i { v.inst i with changes := [], taken := 0 } := ⟨_, rfl⟩
  have hwrd : ∀ k, w.rd k = v.rd k := fun k => by rw [hw]; rfl
  have hwcasc : w.casc = v.casc := by rw [hw]; rfl
  have hwstep : ¬(w.inst i).stepNo - 1 = n := by
    rw [hw, State.inst_setInst, hvinst]
    exact hstep
  rw [← hw] at hself
  obtain ⟨x, hx⟩ : ∃ x, x = w.bump K.rejoins 32 1 := ⟨_, rfl⟩
  obtain ⟨y, hy⟩ : ∃ y, y = x.logMg i 0x3007 1 0 noSlot w.me n := ⟨_, rfl⟩
  have hrejoined : w.rejoined i n = y := by
    unfold State.rejoined
    rw [if_neg hwstep, hy, hx]
  rw [hrejoined] at hself
  have hlogged : y.Logged 0x3007 1 := by
    rw [hy]
    exact State.logged_logMg _ _ _ _ _ _ _ _ rfl
  have hyrd : ∀ k, k ∉ logKeys → y.rd k = x.rd k := fun k hk => by rw [hy]; exact State.logMg_rd _ _ _ _ _ _ _ _ hk
  have hycasc : y.casc = x.casc := by rw [hy]; exact (State.logMg_only ..).casc
  obtain ⟨hrd, hlog, hwait, hheard⟩ := y.resume_spec i
  refine ⟨_, (release_fresh h hstale).trans (congrArg Host.Outcome.next hself), ?_, ?_, ?_, hwait, ?_⟩
  · rw [hrd, hyrd _ (by decide), hx, State.bump_eq, State.rd_wr_ne _ _ _ _ (by decide), hwrd, hseq]
  · rw [hrd, hyrd _ (by decide), hx, State.bump_eq, State.rd_wr, hwrd, hvrd _ (by decide)]
  · obtain ⟨e, he, hrest⟩ := hlogged
    exact ⟨e, by rw [hlog]; exact he, hrest⟩
  · rw [hheard, hycasc, hx]
    exact (congrArg Casc.heardAt hwcasc).trans hvcasc

/-! ## The idle tack, a missing record (R490) -/

theorem idle_clause {s : State} (h0 : s.rd K.cascState ≠ 0) (hon : (s.inst (s.rd K.cascInstance)).stepOn = false) :
    exec .idleCascadeTack s = .next (s.cascCapture (s.rd K.cascInstance)) := by
  refine if_neg ?_
  rw [Bool.or_eq_true, decide_eq_true_eq, hon]
  exact not_or_intro h0 Bool.false_ne_true

theorem idle_not {s : State} (h : s.rd K.cascState = 0 ∨ (s.inst (s.rd K.cascInstance)).stepOn = true) :
    exec .idleCascadeTack s = .next s := by
  refine if_pos ?_
  rw [Bool.or_eq_true, decide_eq_true_eq]
  exact h

/-- A member's instance at the capture instant. -/
def Inst.captured (x : Inst) : Inst := { x with cascWait := true, withheld := true, taken := x.changes.length }

theorem idle_member {s : State} (h0 : s.rd K.cascState ≠ 0) (hon : (s.inst (s.rd K.cascInstance)).stepOn = false)
    (hm : s.isMaster = false) (hstale : s.casc.stale = false) :
    ∃ t, exec .idleCascadeTack s = .next t ∧ t = { s with insts := t.insts, seams := t.seams } ∧
      t.inst (s.rd K.cascInstance) = (s.inst (s.rd K.cascInstance)).captured ∧
      (∀ j, j ≠ s.rd K.cascInstance → t.inst j = s.inst j) ∧
      ∀ k, (s.nextMember s.casc.master).bind s.seamFor = some k → ∃ x, (t.seam k).tx = (s.seam k).tx ++ [x] ∧
        x.type = 1 ∧ x.src = s.me ∧ x.dst = s.casc.master ∧ x.payload = recordBytes s.myRecord := by
  obtain ⟨i, hi⟩ : ∃ i, i = s.rd K.cascInstance := ⟨_, rfl⟩
  obtain ⟨u, hu⟩ : ∃ u, u = s.modInst i Inst.captured := ⟨_, rfl⟩
  have hown : u.inst i = (s.inst i).captured := by rw [hu]; exact s.inst_setInst i _
  have hrecord : u.myRecord = s.myRecord := by
    have hiu : u.rd K.cascInstance = i := by rw [hi, hu]; rfl
    have hstep : (u.inst (u.rd K.cascInstance)).stepNo = (s.inst (s.rd K.cascInstance)).stepNo := by
      rw [hiu, hown, ← hi]
      rfl
    have hdigest : u.cfgDigest = s.cfgDigest := by rw [hu]; rfl
    have htime : u.time = s.time := by rw [hu]; rfl
    have hversion : u.rd K.fwVersion = s.rd K.fwVersion := by rw [hu]; rfl
    have hme : u.me = s.me := by rw [hu]; rfl
    unfold State.myRecord
    rw [hstep, hdigest, htime, hversion, hme]
  have heq : s.cascCapture i = u.sendMember s.casc.master 1 (u.rd K.ctackSeq) (recordBytes s.myRecord) := by
    have hform : (s.modInst i Inst.captured).form = u := by
      rw [hu]
      exact State.form_fresh hstale
    have hcap : s.cascCapture i = if u.isMaster = true then u.addRecord u.myRecord
        else u.sendMember u.casc.master 1 (u.rd K.ctackSeq) (recordBytes u.myRecord) := by
      rw [← hform]
      rfl
    have humaster : u.isMaster = false := by rw [hu]; exact hm
    have hucasc : u.casc.master = s.casc.master := by rw [hu]; rfl
    rw [hcap, if_neg (by rw [humaster]; exact Bool.false_ne_true), hrecord, hucasc]
  have hseams := u.seamsOnly_sendMember s.casc.master 1 (u.rd K.ctackSeq) (recordBytes s.myRecord)
  have hframe : u = { s with insts := u.insts } := by rw [hu]; rfl
  have hothers : ∀ j, j ≠ i → u.inst j = s.inst j := fun j hj => by rw [hu]; exact s.inst_setInst_ne i _ j hj
  have hnext : (u.nextMember s.casc.master).bind u.seamFor = (s.nextMember s.casc.master).bind s.seamFor := by rw [hu]; rfl
  have hseam : ∀ k, u.seam k = s.seam k := fun k => by rw [hu]; rfl
  have hume : u.me = s.me := by rw [hu]; rfl
  rw [hi] at heq
  refine ⟨_, (idle_clause h0 hon).trans (congrArg Host.Outcome.next heq), ?_, ?_, fun j hj => ?_, fun k hk => ?_⟩
  · generalize u.sendMember s.casc.master 1 (u.rd K.ctackSeq) (recordBytes s.myRecord) = t at hseams
    unfold State.SeamsOnly at hseams
    rw [hseams, hframe]
  · rw [← hi]
    exact (congrArg (fun t : State => t.inst i) hseams :).trans hown
  · rw [← hi] at hj
    exact (congrArg (fun t : State => t.inst j) hseams :).trans (hothers j hj)
  · have hsend : u.sendMember s.casc.master 1 (u.rd K.ctackSeq) (recordBytes s.myRecord) = u.seamSend k
        { type := 1, src := u.me, dst := s.casc.master, tag := u.rd K.ctackSeq, taint := false, payload := recordBytes s.myRecord } := by
      unfold State.sendMember
      rw [hnext, hk]
    rw [hsend]
    refine ⟨_, (congrArg Seam.tx (u.sentOn_seamSend k _).2.1).trans (by rw [hseam]), rfl, hume, rfl, rfl⟩

/-- A record is missing. -/
def State.Missing (s : State) (g m : Fin 16) : Prop :=
  s.isMaster = true ∧ g.val < s.cascM ∧ s.groupOf m.val = g.val ∧ m.val < s.cascSize ∧
    (s.rd K.cascState = 3 ∨ s.rd K.cascState = 4) ∧ s.recordOf m.val = none ∧ g.val ∉ s.casc.held

theorem State.missing_iff (s : State) (g m : Fin 16) : ¬s.Missing g m ↔ (!s.isMaster || decide (s.cascM ≤ g.val) ||
    decide (s.groupOf m.val ≠ g.val) || decide (s.cascSize ≤ m.val) || (decide (s.rd K.cascState ≠ 3) && decide (s.rd K.cascState ≠ 4)) ||
    (s.recordOf m.val).isSome || s.casc.held.contains g.val) = true := by
  unfold State.Missing
  simp only [Bool.or_eq_true, Bool.and_eq_true, Bool.not_eq_true', decide_eq_true_eq, List.contains_iff_mem, not_and_or,
    Bool.not_eq_true, Nat.not_lt, not_not, not_or, or_assoc, Option.isSome_iff_ne_none, ne_eq]

theorem missing_clause {s : State} {g m : Fin 16} (h : s.Missing g m) : ∃ t, exec (.ctackTimeout g m) s = .next t ∧
    t.rd K.cascState = 4 ∧ t.Logged 0x3008 1 ∧ t.casc = { s.casc with held := s.casc.held ++ [g.val] } ∧ t.cores = s.cores ∧
    t.insts = s.insts ∧ ∀ k, k ∉ K.cascState :: logKeys → t.rd k = s.rd k := by
  obtain ⟨u, hu⟩ : ∃ u, u = ({ s with casc := { s.casc with held := s.casc.held ++ [g.val] } } : State).wr K.cascState 4 := ⟨_, rfl⟩
  obtain ⟨t, ht⟩ : ∃ t, t = u.logMg (s.rd K.cascInstance) 0x3008 1 0 noSlot g.val m.val := ⟨_, rfl⟩
  have hlog : u.LogOnly t := by rw [ht]; exact State.logMg_only ..
  have hrd : ∀ k, k ∉ logKeys → t.rd k = u.rd k := fun k hk => by rw [ht]; exact State.logMg_rd _ _ _ _ _ _ _ _ hk
  refine ⟨t, ?_, ?_, by rw [ht]; exact State.logged_logMg _ _ _ _ _ _ _ _ rfl, ?_, ?_, ?_, fun k hk => ?_⟩
  · rw [ht, hu]
    exact if_neg (mt (s.missing_iff g m).2 (not_not_intro h))
  · rw [hrd _ (by decide), hu, State.rd_wr]
  · rw [hlog.casc, hu]; rfl
  · rw [hlog.cores, hu]; rfl
  · rw [hlog.insts, hu]; rfl
  · rw [List.mem_cons, not_or] at hk
    rw [hrd k hk.2, hu]
    exact State.rd_wr_ne _ _ _ _ hk.1

end Sys2Proof.Machine
end

section
/-! The cascade's hold limit, time, aperture data and broadcast timeout (R484, R489-R492): O57. -/

namespace Sys2Proof.Machine

/-! ## The end of an instance's work leaves the tree alone (R346) -/

theorem State.casc_each {α : Type} (l : List α) {f : State → α → State} (h : ∀ s x, (f s x).casc = s.casc) (s : State) :
    (s.each l f).casc = s.casc :=
  State.each_rel (R := fun a b : State => b.casc = a.casc) (fun _ => rfl) (fun h h' => h'.trans h) h l s

theorem State.casc_endSeq (s : State) (q : Nat) (teardown : Bool) : (s.endSeq q teardown).casc = s.casc := by
  by_cases h : (s.seq q).state = .free
  · exact congrArg State.casc (if_pos h : s.endSeq q teardown = s)
  · exact (congrArg State.casc (s.seqEnded_endSeq h teardown).frame :)

theorem State.casc_closeReq (s : State) (r : Req) (b : List Byte) : (s.closeReq r b).casc = s.casc := by
  unfold State.closeReq
  dsimp only
  split
  · split <;> rfl
  · rfl

theorem State.casc_frpSend (s : State) (slot assoc type : Nat) (body : List Byte) : (s.frpSend slot assoc type body).casc = s.casc := by
  unfold State.frpSend
  split
  · rfl
  · split <;> rfl

theorem State.casc_postFinal (s : State) (slot : Nat) (t : Transport) (b : List Byte) : (s.postFinal slot t b).casc = s.casc := by
  unfold State.postFinal
  split
  · exact (congrArg State.casc (State.drained_drainFinals _ _).1.frame :)
  · exact s.casc_frpSend ..

theorem State.casc_endReq (s : State) (slot key status : Nat) : (s.endReq slot key status).casc = s.casc := by
  unfold State.endReq
  split
  · rfl
  · split
    · rfl
    · exact (State.casc_postFinal ..).trans (s.casc_closeReq ..)

theorem State.casc_endReqSeq (s : State) (slot key status : Nat) : (s.endReqSeq slot key status).casc = s.casc := by
  unfold State.endReqSeq
  split
  · rfl
  · dsimp only
    split
    · exact (State.casc_endSeq ..).trans (s.casc_endReq ..)
    · exact s.casc_endReq ..

theorem State.casc_endInstance (s : State) (i status : Nat) : (s.endInstance i status).casc = s.casc := by
  unfold State.endInstance
  exact (State.casc_each _ (fun s q => s.casc_endSeq q false) _).trans (State.casc_each _ (fun s r => s.casc_endReqSeq ..) s)

/-! ## The hold limit (R491) -/

/-- A group has been Held, or its member has waited, too long. -/
def State.HeldTooLong (s : State) (g : Fin 16) : Prop := s.rd K.cascState ≠ 0 ∧ (g.val ∈ s.casc.held ∨
  (s.groupOf s.me = g.val ∧ s.isMaster = false ∧ (s.inst (s.rd K.cascInstance)).cascWait = true))

theorem State.heldTooLong_iff (s : State) (g : Fin 16) : ¬s.HeldTooLong g ↔ (decide (s.rd K.cascState = 0) ||
    !(s.casc.held.contains g.val || (s.groupOf s.me == g.val && !s.isMaster && (s.inst (s.rd K.cascInstance)).cascWait))) = true := by
  unfold State.HeldTooLong
  simp only [Bool.or_eq_true, decide_eq_true_eq, Bool.not_eq_true', ← Bool.not_eq_true, Bool.and_eq_true, List.contains_iff_mem,
    beq_iff_eq, not_and_or, not_not, not_or, ne_eq, and_assoc]

/-- The group is Held no more. -/
def State.unheld (s : State) (g : Nat) : State := { s with casc := { s.casc with held := s.casc.held.filter fun x => x != g } }

theorem hold_other {s : State} {g : Fin 16} (h : s.HeldTooLong g) (hown : ¬s.groupOf s.me = g.val) :
    ∃ t, exec (.holdLimitExpiry g) s = .next t ∧ t.Logged 0x3002 2 ∧
      t.casc = { s.casc with held := s.casc.held.filter fun x => x != g.val } ∧ t.cores = s.cores ∧ t.insts = s.insts ∧
      t.rd K.cascState = (if s.rd K.cascState = 4 ∧ t.casc.held = [] then 3 else s.rd K.cascState) ∧
      ∀ k, k ∉ K.cascState :: logKeys → t.rd k = s.rd k := by
  obtain ⟨u, hu⟩ : ∃ u, u = if ((s.unheld g.val).casc.held.isEmpty && (s.unheld g.val).rd K.cascState == 4) = true then
      (s.unheld g.val).wr K.cascState 3 else s.unheld g.val := ⟨_, rfl⟩
  obtain ⟨t, ht⟩ : ∃ t, t = u.logMg (s.rd K.cascInstance) 0x3002 2 5 noSlot 5 (u.leadOf g.val) := ⟨_, rfl⟩
  have hlog : u.LogOnly t := by rw [ht]; exact State.logMg_only ..
  have hrd : ∀ k, k ∉ logKeys → t.rd k = u.rd k := fun k hk => by rw [ht]; exact State.logMg_rd _ _ _ _ _ _ _ _ hk
  have hucasc : u.casc = { s.casc with held := s.casc.held.filter fun x => x != g.val } := by
    rw [hu]
    split_ifs <;> rfl
  have hucores : u.cores = s.cores := by
    rw [hu]
    split_ifs <;> rfl
  have huinsts : u.insts = s.insts := by
    rw [hu]
    split_ifs <;> rfl
  have hurd : ∀ k, k ≠ K.cascState → u.rd k = s.rd k := fun k hk => by
    rw [hu]
    split_ifs
    · exact (s.unheld g.val).rd_wr_ne K.cascState 3 k hk
    · rfl
  have hustate : u.rd K.cascState = if s.rd K.cascState = 4 ∧ u.casc.held = [] then 3 else s.rd K.cascState := by
    have hiff : ((s.unheld g.val).casc.held.isEmpty && (s.unheld g.val).rd K.cascState == 4) = true ↔
        s.rd K.cascState = 4 ∧ u.casc.held = [] := by
      rw [Bool.and_eq_true, beq_iff_eq, List.isEmpty_iff, hucasc, and_comm]
      exact Iff.rfl
    rw [hu]
    by_cases hc : ((s.unheld g.val).casc.held.isEmpty && (s.unheld g.val).rd K.cascState == 4) = true
    · rw [if_pos hc, ← if_pos (c := ((s.unheld g.val).casc.held.isEmpty && (s.unheld g.val).rd K.cascState == 4) = true)
        (t := (s.unheld g.val).wr K.cascState 3) (e := s.unheld g.val) hc, ← hu, if_pos (hiff.1 hc), hu, if_pos hc, State.rd_wr]
    · rw [if_neg hc, ← if_neg (c := ((s.unheld g.val).casc.held.isEmpty && (s.unheld g.val).rd K.cascState == 4) = true)
        (t := (s.unheld g.val).wr K.cascState 3) (e := s.unheld g.val) hc, ← hu, if_neg (mt hiff.2 hc), hu, if_neg hc]
      rfl
  refine ⟨t, ?_, by rw [ht]; exact State.logged_logMg _ _ _ _ _ _ _ _ rfl, hlog.casc.trans hucasc, hlog.cores.trans hucores,
    hlog.insts.trans huinsts, ?_, fun k hk => ?_⟩
  · rw [ht, hu]
    exact (if_neg (mt (s.heldTooLong_iff g).2 (not_not_intro h))).trans (if_neg (by rw [beq_iff_eq]; exact hown))
  · rw [hrd _ (by decide), hustate, hlog.casc]
  · rw [List.mem_cons, not_or] at hk
    exact (hrd k hk.2).trans (hurd k hk.1)

theorem hold_own {s : State} {g : Fin 16} (h : s.HeldTooLong g) (hown : s.groupOf s.me = g.val) :
    ∃ t, exec (.holdLimitExpiry g) s = .next t ∧ t.rd K.cascState = 2 ∧ t.rd K.unfitReason = 5 ∧ g.val ∉ t.casc.held := by
  have heq : exec (.holdLimitExpiry g) s = .next (((s.unheld g.val).endInstance (s.rd K.cascInstance) 0x0C).cascUnfit 5
      ((s.unheld g.val).endInstance (s.rd K.cascInstance) 0x0C).me) :=
    (if_neg (mt (s.heldTooLong_iff g).2 (not_not_intro h))).trans (if_pos (by rw [beq_iff_eq]; exact hown))
  have hcasc := (s.unheld g.val).casc_endInstance (s.rd K.cascInstance) 0x0C
  generalize (s.unheld g.val).endInstance (s.rd K.cascInstance) 0x0C = u at heq hcasc
  obtain ⟨⟨hframe, -⟩, hstate, hreason⟩ := u.cascUnfit_spec 5 u.me
  refine ⟨_, heq, hstate, hreason, ?_⟩
  have htcasc : (u.cascUnfit 5 u.me).casc = (s.unheld g.val).casc := (congrArg State.casc hframe :).trans hcasc
  rw [htcasc]
  show g.val ∉ s.casc.held.filter fun x => x != g.val
  simp only [List.mem_filter, bne_self_eq_false, Bool.false_eq_true, and_false, not_false_eq_true]

/-! ## Time (R489) -/

theorem State.setWall_spec (s : State) (v source : Nat) : (s.setWall v source).time = v % 2 ^ 64 ∧
    (s.setWall v source).wallTaken = true ∧ (s.setWall v source).casc = s.casc ∧ (s.setWall v source).cores = s.cores ∧
    (s.setWall v source).insts = s.insts ∧ ∀ k, k ∉ logKeys → (s.setWall v source).rd k = s.rd k := by
  cases h : s.wallTaken with
  | true =>
    rw [State.setWall_again h]
    exact ⟨rfl, h, rfl, rfl, rfl, fun _ _ => rfl⟩
  | false =>
    rw [State.setWall_first h]
    have hlog := ({ s with time := v % 2 ^ 64, wallTaken := true } : State).logMg_only noInst 0x0501 0 0 noSlot source s.time
    exact ⟨hlog.time, hlog.wallTaken, hlog.casc, hlog.cores, hlog.insts, fun k hk => State.logMg_rd _ _ _ _ _ _ _ _ hk⟩

theorem time_clause {s : State} (h : s.isMaster = false ∧ s.rd K.cascState ≠ 0) (mt pd : Nat) :
    ∃ t, exec (.timeMessage mt pd) s = .next t ∧ t.time = (mt + pd) % 2 ^ 64 ∧ t.wallTaken = true ∧
      t.casc = { s.casc with heardAt := (mt + pd) % 2 ^ 64 } ∧
      t.rd K.timeOffset = unsignedAt 64 ((s.time : Int) - (mt + pd : Nat)) ∧
      (∀ k, k ∉ K.timeOffset :: logKeys → t.rd k = s.rd k) ∧ t.cores = s.cores ∧ t.insts = s.insts ∧
      (s.wallTaken = false → t.Logged 0x0501 0) ∧
      (s.wallTaken = true → t = { s with dict := t.dict, time := t.time, casc := t.casc }) := by
  obtain ⟨u, hu⟩ : ∃ u, u = s.wrI K.timeOffset 64 ((s.time : Int) - (mt + pd : Nat)) := ⟨_, rfl⟩
  have hoffset : u.rd K.timeOffset = unsignedAt 64 ((s.time : Int) - (mt + pd : Nat)) := by rw [hu]; exact s.rd_wr _ _
  have hurd : ∀ k, k ≠ K.timeOffset → u.rd k = s.rd k := fun k hk => by rw [hu]; exact s.rd_wr_ne K.timeOffset _ k hk
  have hutaken : u.wallTaken = s.wallTaken := by rw [hu]; rfl
  have huframe : u = { s with dict := u.dict } := by rw [hu]; rfl
  obtain ⟨htime, htaken, hcasc, hcores, hinsts, hrd⟩ := u.setWall_spec (mt + pd) 1
  have hfirst : u.wallTaken = false → (u.setWall (mt + pd) 1).Logged 0x0501 0 := fun hf => by
    rw [State.setWall_first hf]
    exact State.logged_logMg _ _ _ _ _ _ _ _ rfl
  have hagain : u.wallTaken = true → u.setWall (mt + pd) 1 = { u with time := (mt + pd) % 2 ^ 64 } := fun ht =>
    State.setWall_again ht ..
  have heq : exec (.timeMessage mt pd) s = .next { u.setWall (mt + pd) 1 with
      casc := { (u.setWall (mt + pd) 1).casc with heardAt := (u.setWall (mt + pd) 1).time } } := by
    rw [hu]
    exact if_neg (member_yes h)
  generalize u.setWall (mt + pd) 1 = v at htime htaken hcasc hcores hinsts hrd hfirst hagain heq
  have hucasc : u.casc = s.casc := (congrArg State.casc huframe :)
  refine ⟨_, heq, htime, htaken, ?_, (hrd _ (by decide)).trans hoffset, fun k hk => ?_,
    hcores.trans (congrArg State.cores huframe :), hinsts.trans (congrArg State.insts huframe :),
    fun hf => hfirst (hutaken.trans hf), fun ht => ?_⟩
  · show ({ v.casc with heardAt := v.time } : Casc) = _
    rw [htime, hcasc, hucasc]
  · rw [List.mem_cons, not_or] at hk
    exact (hrd k hk.2).trans (hurd k hk.1)
  · rw [hagain (hutaken.trans ht), huframe]

/-! ## Aperture data (R484) -/

/-- Packets handed to one router, one after another. -/
theorem State.injectAll_spec (r port : Nat) (p : Nat → Packet) : ∀ (l : List Nat) (s : State),
    (s.each l fun s j => s.inject r port (p j)) = { s with routers := (s.each l fun s j => s.inject r port (p j)).routers } ∧
    (s.each l fun s j => s.inject r port (p j)).router r =
      { s.router r with inq := (s.router r).inq ++ l.map fun j => (port, p j) } ∧
    ∀ k, k ≠ r → (s.each l fun s j => s.inject r port (p j)).router k = s.router k
  | [], s => ⟨rfl, by rw [List.map_nil, List.append_nil]; rfl, fun _ _ => rfl⟩
  | x :: l, s => by
    obtain ⟨hframe, hown, hothers⟩ := State.injectAll_spec r port p l (s.inject r port (p x))
    have heq : (s.each (x :: l) fun s j => s.inject r port (p j)) =
        (s.inject r port (p x)).each l fun s j => s.inject r port (p j) := rfl
    rw [heq]
    refine ⟨?_, hown.trans ?_, fun k hk => (hothers k hk).trans ?_⟩
    · generalize (s.inject r port (p x)).each l (fun s j => s.inject r port (p j)) = t at hframe
      rw [hframe]
      rfl
    · rw [State.router_inject, if_pos rfl, List.map_cons, List.append_assoc]
      rfl
    · rw [State.router_inject, if_neg hk]

/-- Aperture data may enter the fabric at the die's site. -/
def State.Enters (s : State) (sm : SeamId) : Prop := s.rd K.cascState ≠ 0 ∧
  hsPanel (sm.val / 2) ∈ (s.inst (s.rd K.cascInstance)).panels ∧ (s.router (hsSite (sm.val / 2))).failed = false

theorem State.enters_iff (s : State) (sm : SeamId) : ¬s.Enters sm ↔ (decide (s.rd K.cascState = 0) ||
    !((s.inst (s.rd K.cascInstance)).panels.contains (hsPanel (sm.val / 2))) || (s.router (hsSite (sm.val / 2))).failed) = true := by
  unfold State.Enters
  simp only [Bool.or_eq_true, decide_eq_true_eq, Bool.not_eq_true', ← Bool.not_eq_true, List.contains_iff_mem, not_and_or, not_not,
    ne_eq, or_assoc]

/-! ## The broadcast's timeout (R492) -/

/-- Code that a load from the broadcast ends with when the stream stops. -/
def State.streamCode (s : State) : Nat := if (s.isMaster && s.rd K.cascState != 0) = true then 0x28 else 0x2C

/-- No load's end changes this part's place in the cascade, so one code serves all. -/
theorem State.loads_streamCode {s : State} (hs : s.InGrid) (l : List Nat) (hl : ∀ i ∈ l, i < 12) (u : State) (hu : s.ModelsGone u) :
    (u.each l fun s i => s.loadFail i s.streamCode 0) = u.each l fun v i => v.loadFail i s.streamCode 0 := by
  induction l generalizing u with
  | nil => rw [State.each_nil, State.each_nil]
  | cons x l ih =>
    have hrole : u.isMaster = s.isMaster :=
      congrArg (fun v => v == 2) (hu.rd hs K.cascRole (by unfold OutsideModels; decide))
    have hstate : u.rd K.cascState = s.rd K.cascState := hu.rd hs _ (by unfold OutsideModels; decide)
    have hcode : u.streamCode = s.streamCode := by
      unfold State.streamCode
      rw [hrole, hstate]
    have hstep := ih (fun i hi => hl i (List.mem_cons_of_mem _ hi)) (u.loadFail x s.streamCode 0)
      (hu.trans ((u.modelGone_loadFail x s.streamCode 0).models (hl x List.mem_cons_self)))
    exact (congrArg (fun c => (u.loadFail x c 0).each l fun s i => s.loadFail i s.streamCode 0) hcode).trans hstep

theorem exec_bcastTimeout_eq (s : State) : exec .bcastTimeout s =
    .next (s.each s.broadcastLoads fun s i => s.loadFail i s.streamCode 0) := by
  rw [exec_bcastTimeout]
  unfold execBcastTimeout State.broadcastLoads State.streamCode
  rfl

theorem bcast_clause {s : State} (hs : s.InGrid) : ∃ t, exec .bcastTimeout s = .next t ∧
    ∀ j, j < 12 → (s.inst j).load.isSome = true → s.fromCascade j = true → t.LoadShown j s.streamCode := by
  have hall := State.loads_streamCode hs s.broadcastLoads (fun i hi => (State.mem_broadcastLoads.1 hi).1) s (.refl s)
  exact ⟨_, (exec_bcastTimeout_eq s).trans (congrArg Host.Outcome.next hall), State.broadcastLoads_end hs s.streamCode⟩

end Sys2Proof.Machine
end

section
/-! The cascade: O57. -/

namespace Sys2Proof.Machine

theorem broadcast_clause {s : State} (h0 : s.rd K.cascState ≠ 0) (o : Nat) (bs : List Byte) :
    exec (.broadcastBlock o bs) s = .next (s.sendDown 0x20 o bs) ∧
    exec (.firmwareBlock o bs) s = .next ((s.fwBlock o bs).1.sendDown 0x22 o bs) := ⟨if_neg h0, if_neg h0⟩

theorem loss_refused {s : State} {reach : List (Fin 16)} (h : s.isMaster = false ∧ s.rd K.cascState ≠ 0)
    (hq : ¬(s.cascSize < 2 * (s.standing reach).length ∧ s.rd K.masterEligible = 1)) :
    exec (.masterLoss reach) s = .next (s.cascUnfit 4 s.me) := (if_neg (member_yes h)).trans (if_neg hq)

/-! ## The children of a part while it takes an image -/

/-- What the tree of the cascade is read from: its edges and the part's own number. -/
def State.TreeSame (s t : State) : Prop := t.casc = s.casc ∧ t.rd K.memberIndex = s.rd K.memberIndex

theorem State.TreeSame.trans {a b c : State} (h : a.TreeSame b) (h' : b.TreeSame c) : a.TreeSame c :=
  ⟨h'.1.trans h.1, h'.2.trans h.2⟩

theorem State.TreeSame.children {s t : State} (h : s.TreeSame t) : t.childrenOf t.me = s.childrenOf s.me := by
  unfold State.childrenOf State.me
  rw [h.1, h.2]

theorem State.TreeSame.wr {s t : State} (h : s.TreeSame t) (k v : Nat) (hk : K.memberIndex ≠ k) : s.TreeSame (t.wr k v) :=
  h.trans ⟨rfl, t.rd_wr_ne k v _ hk⟩

theorem State.TreeSame.wrBlob {s t : State} (h : s.TreeSame t) (k : Nat) (bs : List Byte) : s.TreeSame (t.wrBlob k bs) :=
  h.trans ⟨rfl, State.wrBlob_rd_other ..⟩

theorem State.TreeSame.setBank {s t : State} (h : s.TreeSame t) (n : Nat) (b : Bank) : s.TreeSame (t.setBank n b) := h.trans ⟨rfl, rfl⟩

theorem State.TreeSame.logMg {s t : State} (h : s.TreeSame t) (a b c d e f g : Nat) : s.TreeSame (t.logMg a b c d e f g) :=
  h.trans ⟨(t.logMg_only a b c d e f g).casc, State.logMg_rd _ _ _ _ _ _ _ _ (by decide)⟩

theorem State.treeSame_headerReady (s : State) : s.TreeSame s.headerReady :=
  ⟨(congrArg State.casc s.headerReady_only :), s.headerReady_rd.2.2 _ (by decide)⟩

theorem State.treeSame_checkHeader (s : State) (n : Nat) (b : Bank) : s.TreeSame (s.checkHeader n b) := by
  have h : ∀ b, s.TreeSame (s.setBank n b) := fun b => .setBank ⟨rfl, rfl⟩ n b
  unfold State.checkHeader
  dsimp only
  split_ifs
  · exact (((h _).wr _ _ (by decide)).wr _ _ (by decide)).logMg ..
  · exact ((((h _).wr _ _ (by decide)).wr _ _ (by decide)).wrBlob ..).wr _ _ (by decide)

theorem State.treeSame_chunkComplete (s : State) (n k : Nat) (b : Bank) : s.TreeSame (s.chunkComplete n k b).1 := by
  have h : ∀ b, s.TreeSame (s.setBank n b) := fun b => .setBank ⟨rfl, rfl⟩ n b
  unfold State.chunkComplete
  dsimp only
  split_ifs
  · exact (((h _).wr _ _ (by decide)).wr _ _ (by decide)).logMg ..
  · exact (h _).wr _ _ (by decide)
  · exact ((h _).wr _ _ (by decide)).wr _ _ (by decide)

theorem State.treeSame_fwBlock (s : State) (o : Nat) (bs : List Byte) : s.TreeSame (s.fwBlock o bs).1 := by
  have hsame : s.TreeSame s := ⟨rfl, rfl⟩
  unfold State.fwBlock State.chunkBlock
  dsimp only
  split_ifs
  · exact hsame
  · exact hsame
  · exact hsame.wr _ _ (by decide)
  · exact hsame
  · exact hsame
  · exact s.treeSame_chunkComplete ..
  · exact hsame.setBank ..
  · by_cases hlen : (s.headerOld.withHeader o bs).hdrBlocks.length = 52
    · rw [State.headerBlock_whole hlen]
      exact s.treeSame_headerReady.trans (State.treeSame_checkHeader ..)
    · rw [State.headerBlock_part hlen]
      exact s.treeSame_headerReady.setBank ..
  · exact hsame.wr _ _ (by decide)

/-! ## The remaining clauses -/

theorem swap_says {s : State} : (s.rd K.cascState ≤ 1 → s.swapCmd = s.wr K.cascResult 1) ∧
    (2 ≤ s.rd K.cascState → s.mayLead (s.rd K.swapTarget) = false → s.swapCmd = s.wr K.cascResult 2) :=
  ⟨fun h => if_pos (by omega), fun h hl => (if_neg (by omega)).trans (if_pos (by rw [hl]; rfl))⟩

theorem aperture_clause {s : State} {sm : SeamId} {ad : ApertureData} (h : s.Enters sm) :
    ∃ t, exec (.apertureData sm ad) s = .next t ∧ t = { s with routers := t.routers } ∧
      t.router (hsSite (sm.val / 2)) = { s.router (hsSite (sm.val / 2)) with inq := (s.router (hsSite (sm.val / 2))).inq ++
        ((List.range ((ad.data.length + 4095) / 4096)).map fun j =>
          (portD, { kind := 3, vc := 1, inst := s.rd K.cascInstance, srcX := xOf (hsSite (sm.val / 2)),
                    srcY := yOf (hsSite (sm.val / 2)), group := ad.group.toNat, tag := ad.tag.toNat, taint := ad.taint,
                    addr := ad.addr.toNat + 4096 * j, payload := (ad.data.drop (4096 * j)).take 4096 })) } ∧
      ∀ k, k ≠ hsSite (sm.val / 2) → t.router k = s.router k :=
  ⟨_, if_neg fun hn => (s.enters_iff sm).2 hn h, State.injectAll_spec ..⟩

theorem plan_none {s : State} {bs : List Byte} (h : s.rd K.cascState = 0 ∨ s.leadOf (s.groupOf s.me) = s.me) :
    exec (.cascadeStepPlan bs) s = .next s :=
  if_pos (by rw [Bool.or_eq_true, decide_eq_true_eq, beq_iff_eq]; exact h)

theorem plan_kept {s : State} {bs : List Byte} (h : ¬(s.rd K.cascState = 0 ∨ s.leadOf (s.groupOf s.me) = s.me))
    (hw : (s.inst (s.rd K.cascInstance)).cascWait = true) :
    exec (.cascadeStepPlan bs) s = .next { s with casc := { s.casc with plan := bs } } :=
  (if_neg (by rw [Bool.or_eq_true, decide_eq_true_eq, beq_iff_eq]; exact h)).trans (if_pos hw)

theorem plan_taken {s : State} {bs : List Byte} (h : ¬(s.rd K.cascState = 0 ∨ s.leadOf (s.groupOf s.me) = s.me))
    (hw : (s.inst (s.rd K.cascInstance)).cascWait = false) :
    exec (.cascadeStepPlan bs) s = .next (s.takePlan (s.rd K.cascInstance) bs) :=
  (if_neg (by rw [Bool.or_eq_true, decide_eq_true_eq, beq_iff_eq]; exact h)).trans (if_neg (by rw [hw]; exact Bool.false_ne_true))

theorem record_forming {s : State} {r : TackRec} (h : s.isMaster = true ∧ s.rd K.cascState ≠ 0) (hr : r.member.val < s.cascSize)
    (h1 : s.rd K.cascState = 1) (hstale : s.casc.stale = false)
    (hm : ({ s with casc := { s.casc with records := (s.casc.records.filter fun x => x.member != r.member) ++ [r] } } : State).mismatch
      = none) :
    exec (.tackRecord r) s = .next { s with casc := { s.casc with
      records := (s.casc.records.filter fun x => x.member != r.member) ++ [r] } } := by
  rw [tackRecord_taken h hr, State.form_fresh hstale]
  exact congrArg Host.Outcome.next (State.judgeTack_forming h1 hm)

/-- Settles O57: a clause for each command and message, whose effect a lemma about the function behind it states (the parts of
the tree, the records, a release, a plan, an image). -/
theorem cascadeMembersActOnMessages : Obligations.CascadeMembersActOnMessages := by
  unfold Obligations.CascadeMembersActOnMessages
  intro s rec_ rel g m q reach mt pd o bs sm ad
  refine ⟨fun h => ⟨_, congrArg Host.Outcome.next (if_pos h), s.says 1⟩, fun h0 h => ⟨_, congrArg Host.Outcome.next (join_refused h0 h), s.says 2⟩,
    fun me h0 hown hmay => join_clause h0 hown hmay, fun h => ⟨_, congrArg Host.Outcome.next (if_pos h), s.says 1⟩, leave_clause,
    fun h => ?swap1, fun h2 hl => ?swap2, swap_clause, fun h => ⟨_, congrArg Host.Outcome.next (fwPass_says.1 h), s.says 1⟩,
    fun h h4 => ⟨_, congrArg Host.Outcome.next (fwPass_says.2.1 h h4), s.says 2⟩,
    fun h h4 hst => ⟨_, congrArg Host.Outcome.next (fwPass_says.2.2.1 h h4 hst), s.says 1⟩, fwPass_clause, tackRecord_not,
    fun h hr => ⟨tackRecord_taken h hr, fun h1 hstale hm => ?record⟩, fun h => if_pos (member_not h),
    fun h => ⟨release_member h rel, fun hstale hmaster hresync => ⟨release_stays h hstale hmaster hresync,
      fun n hp hn h3 hlead hch hstep => release_rejoins h hstale hmaster hresync hp hn h3 hlead hch hstep⟩⟩,
    idle_not, fun h0 hon => ⟨idle_clause h0 hon, idle_member h0 hon⟩, ⟨missing_clause, fun h => if_pos ((s.missing_iff g m).1 h)⟩,
    ⟨fun h => if_pos ((s.heldTooLong_iff g).1 h), hold_other, hold_own⟩, fun h => if_pos (master_not h), fun h => if_neg (master_yes h),
    fun h => if_pos (member_not h), fun h => ⟨fun hq => ?unfit, loss_clause h⟩, fun h => if_pos (master_not h),
    fun h => ⟨if_neg (master_yes h), fun c k hc hk => ⟨_, if_neg (master_yes h), s.sendDown_one hc hk _ _ _⟩⟩,
    fun h => ⟨if_pos h, if_pos h⟩, fun h0 => ⟨(broadcast_clause h0 o bs).1, (broadcast_clause h0 o bs).2,
      fun c k hc hk => ⟨_, (broadcast_clause h0 o bs).1, s.sendDown_one hc hk _ _ _⟩, fun hc => ⟨?block, ?firmware⟩⟩,
    fun h => if_pos (member_not h), fun h => time_clause h mt pd,
    ⟨fun h => if_pos ((s.enters_iff sm).1 h), fun h => ?aperture⟩, fun h => ?planNot,
    fun h0 hl => ⟨fun hw => ?kept, fun hw => ?taken⟩, fun h w => if_pos (master_not h),
    fun h => ⟨?shard, if_neg (master_yes h)⟩, fun h => ?noLoad, bcast_clause⟩
  case swap1 => exact ⟨_, congrArg Host.Outcome.next (swap_says.1 h), s.says 1⟩
  case swap2 => exact ⟨_, congrArg Host.Outcome.next (swap_says.2 h2 hl), s.says 2⟩
  case record => exact record_forming h hr h1 hstale hm
  case unfit =>
    exact ⟨_, loss_refused h hq, s.cascUnfit_spec 4 s.me⟩
  case block => exact (broadcast_clause h0 o bs).1.trans (congrArg Host.Outcome.next (State.sendDown_none hc ..))
  case firmware =>
    exact (broadcast_clause h0 o bs).2.trans
      (congrArg Host.Outcome.next (State.sendDown_none ((s.treeSame_fwBlock o bs).children.trans hc) ..))
  case aperture => exact aperture_clause h
  case planNot => exact plan_none h
  case kept => exact plan_kept (not_or.2 ⟨h0, hl⟩) hw
  case taken =>
    obtain ⟨hframe, hown, hothers⟩ := s.takePlan_spec (s.rd K.cascInstance) bs
    exact ⟨_, plan_taken (not_or.2 ⟨h0, hl⟩) hw, hown, hframe, hothers⟩
  case shard => exact ⟨_, if_neg (master_yes h), s.onlyEntries_refl.logMg .., State.logged_logMg _ _ _ _ _ _ _ _ rfl⟩
  case noLoad =>
    rw [exec_bcastTimeout_eq, State.broadcastLoads_nil h]
    rfl

end Sys2Proof.Machine
end

section
/-! Rectangles of the grid: O2 fails where the map of the instances lists one twice. -/

namespace Sys2Proof.Machine

/-- Power-down stands before the step that takes the core rails away. The map of the instances is not in canonical form:
it lists instance 0 twice, first halted and without a panel, which is what is read of it, then with a panel outside the
grid. -/
def listedTwice : State :=
  { State.reset.wr K.pwrState 3 with
    power := { step := 6 }
    insts := [(0, { halted := true }), (0, { panels := [99] })]
    pending := [.powerRequestOff 2] }

/-- Panels of instance 0 after a step that goes on. -/
def panelsAfter : Out → List Nat
  | .next t => (t.inst 0).panels
  | _ => []

theorem listedTwice_noPanels (i : Nat) : (listedTwice.inst i).panels = [] := by
  show (mapGet (fun _ => {}) [(0, ({ halted := true } : Inst)), (0, { panels := [99] })] i).panels = []
  unfold mapGet
  split_ifs with h
  · rfl
  · unfold mapGet
    rw [if_neg h]
    rfl

/-- Without its halt the first entry reads as an unlisted one and goes, and the second one comes to light. -/
theorem listedTwice_step : panelsAfter (step listedTwice) = [99] := by decide +kernel

/-- Refutes O2: the statement asks nothing of the form of the instances' map, so that a power-down which drops an entry
may bring up another one of the same instance, with panels that were not there to read before. -/
theorem not_stepsKeepInstancesRectangles : ¬Obligations.StepsKeepInstancesRectangles := by
  unfold Obligations.StepsKeepInstancesRectangles
  intro h
  have hstep := listedTwice_step
  cases ht : step listedTwice with
  | next t =>
    rw [ht] at hstep
    have hgrid := (h listedTwice t (fun i => .inl (listedTwice_noPanels i)) ht).2 0 99
    exact absurd (hgrid ((congrArg (99 ∈ ·) hstep).mpr List.mem_cons_self)) (by decide)
  | _ => rw [ht] at hstep; exact absurd hstep.symm (List.cons_ne_nil _ _)

end Sys2Proof.Machine
end
